-- ==== Sys2Proof/Word.lean ====
section
/-! DEFINITION. The two word sizes of the VZ3200's host interface and memories (R4, R33). -/

namespace Sys2Proof

/-- A register or dword (R33). -/
abbrev Word := BitVec 32

/-- A byte of SDRAM (R4: multi-byte values are little-endian). -/
abbrev Byte := BitVec 8

end Sys2Proof
end

