-- ==== Sys2Proof/Syntax.lean ====
section
/-! DEFINITION. The commands of the VZ3200: one constructor of `Instr` per row of spec/opcode_table.json,
in the table's order. The table gives no operands; each command carries what comes from outside the device
or names the unit it concerns. -/

namespace Sys2Proof

/-- A block: region index and block number of R35. -/
structure Blk where
  region : Fin 16
  block  : Fin 64
deriving DecidableEq, Repr

/-- A spindle cell: one of the 192 head spindles or the 64 machine spindles (R1). -/
inductive CellId where
  | servo (i : Fin 192)
  | msp (m : Fin 64)
deriving DecidableEq, Repr

/-- An arbiter of R10. -/
inductive ArbId where
  | chip
  | region (r : Fin 16)
  | block (b : Blk)
deriving DecidableEq, Repr

/-- A BAR2 request of R41: a read of `len` bytes, or a write whose disabled bytes are `none`. -/
inductive Bar2Acc where
  | read (len : Nat)
  | write (bytes : List (Option Byte))
deriving DecidableEq, Repr

/-- A received FEEDBACK frame of R305: echoed TICK and feedback words of R158; a port has no more cells than R156 gives it, so
words past the sixth reach none. -/
structure FbFrame where
  tick  : Word
  words : List (BitVec 48)
deriving DecidableEq, Repr

/-- A received camera frame of R307: 32 header bytes, raw pixel codes row by row, whether every link frame's
CRC held, the tick of its last pixel, and whether a frame of the pipeline's bound camera overlapped it (R246). -/
structure CamFrame where
  hdr      : Vector Byte 32
  pixels   : List Nat
  crcOk    : Bool
  lastTick : Nat
  overlap  : Bool
deriving DecidableEq, Repr

/-- The real-time write ports of R377 whose entries R240 and R286 lay down. -/
inductive RtPort where
  | flog (h : Fin 32)
  | slub (h : Fin 32)
  | archive (h : Fin 32)
  | thumb (h : Fin 32)
  | layer (p : Fin 2)
deriving DecidableEq, Repr

/-- An uncorrectable tile found by a sweep or a read (R274): its index, and whether its MAT could be read. -/
structure TileErr where
  tile  : Fin 262144
  matOk : Bool
deriving DecidableEq, Repr

/-- LAT_READ starts with a tag (R272), then copies one row at a time (R273), in which a tile may be uncorrectable (R274). -/
inductive RowAct where
  | start (tag : BitVec 8)
  | row (err : Option TileErr)
deriving DecidableEq, Repr

/-- A long packet of a CSI-2 frame (R279): its data type, pixel codes, and whether its payload CRC fails. -/
structure CsiLine where
  dataType : BitVec 8
  pixels   : List Nat
  crcErr   : Bool
deriving DecidableEq, Repr

/-- A CSI-2 frame of one virtual channel (R279 to R281): its long packets up to an uncorrectable header, if one came. -/
structure CsiFrame where
  vc        : Fin 4
  lines     : List CsiLine
  hdrUncorr : Bool
  eccFixed  : Nat
deriving DecidableEq, Repr

/-- What a pattern test brings from outside (R323, R324): the positions of the received bits that the line inverted, in rising order,
and the partner's count of errors in its answer. -/
structure PatResult where
  flips    : List Nat
  farErrs  : Word
deriving DecidableEq, Repr

/-- A BiSS-C cycle's outcome (R336). -/
structure BissFrame where
  pos     : Nat
  startOk : Bool
  crcOk   : Bool
  nE      : Bool
  nW      : Bool
deriving DecidableEq, Repr

/-- How an access fared under the retry rule of R365 and R366. -/
inductive EccOutcome where
  | clean
  | corrected
  | transient
  | lasting
deriving DecidableEq, Repr

/-- A fabric request to an SDRAM channel (R362, R378): a line of the channel, the first byte in it, and how many bytes; a request
ends with its line. -/
structure SdReq where
  panic  : Bool
  rowHit : Bool
  line   : Nat
  ofs    : Fin 64
  len    : Nat
  data   : Option (List Byte)
  ecc    : EccOutcome
  cmdErr : Bool
deriving DecidableEq, Repr

/-- MIGRATE starts with a tag and a logical rank (R368), then copies line by line. -/
inductive MigAct where
  | start (tag : BitVec 8) (rank : Fin 4)
  | copy (ecc : EccOutcome)
deriving DecidableEq, Repr

/-- MARCH starts with tag and PARAM (R384), then tests bank by bank: failing words with their bit (R387). -/
inductive MarchAct where
  | start (tag : BitVec 8) (param : BitVec 12)
  | bank (fails : List (Fin 8192 × Fin 72))
deriving DecidableEq, Repr

/-- A PTP time as a message carries it (R393). -/
structure PtpTime where
  sec : BitVec 48
  ns  : BitVec 32
deriving DecidableEq, Repr

/-- The fields of a PTP header that R391 and R392 use. -/
structure PtpHdr where
  domain : BitVec 8
  seq    : BitVec 16
  source : BitVec 64
deriving DecidableEq, Repr

/-- A received Sync (R395): receive stamp at the ball, origin time, correction in ns. -/
structure SyncMsg where
  hdr     : PtpHdr
  twoStep : Bool
  rx      : PtpTime
  origin  : PtpTime
  corr    : Int
deriving DecidableEq, Repr

/-- A Follow_Up or Delay_Resp (R395). -/
structure FollowMsg where
  hdr  : PtpHdr
  time : PtpTime
  corr : Int
deriving DecidableEq, Repr

/-- A received Announce (R391, R404). -/
structure AnnMsg where
  hdr      : PtpHdr
  utcOfs   : BitVec 16
  utcValid : Bool
  gm0      : Word
  gm1      : Word
deriving DecidableEq, Repr

/-- The end of a self-test slice (R435, R438): a failing one gives word and bit, and whether the failure is
one of a memory, and whether the repetition passed. -/
inductive SliceResult where
  | pass
  | fail (word : BitVec 16) (bit : BitVec 7) (memory : Bool) (repeatPasses : Bool)
deriving DecidableEq, Repr

/-- A die sensor sample [0.25 degC]; by how much the chopped-offset test moved the reading and how far the
reference conversion lay from its trimmed value, where the sample made them (R446). -/
structure SnsSample where
  reading : Int
  chop    : Option Int
  refErr  : Option Int
deriving DecidableEq, Repr

/-- What a trim measured (R466): REFIN [100 uV], residual [1/8 LSB], trim words. -/
structure TrimResult where
  refin    : BitVec 16
  residual : BitVec 16
  dac      : Word
  adc      : Word
deriving DecidableEq, Repr

/-- PCIe link speed and width (R59). -/
structure LinkUp where
  speed : BitVec 4
  width : BitVec 6
deriving DecidableEq, Repr

/-- The end of stage 3 (R440, R489): blocks whose failure no repair covers, and the failing rows of SRAM banks. -/
structure BistResult where
  blocks : List Blk
  banks  : List (Fin 384 × List (Fin 1024))
deriving DecidableEq, Repr

/-- What the SFDP tables of a valid flash declare (R475). -/
structure FlashId where
  size   : Nat
  erase  : Nat
  addr4  : Bool
  mode   : BitVec 2
deriving DecidableEq, Repr

/-- Training outcome of the four ranks of each channel: `none` not fitted, else passed (R364). -/
structure TrainResult where
  ch0 : Vector (Option Bool) 4
  ch1 : Vector (Option Bool) 4
deriving DecidableEq, Repr

/-- Why a link frame or block is dropped (R302, R304, R313). -/
inductive DropWhy where
  | crc
  | reservedType
  | lenAbove512
  | lenMismatch
  | reservedBlock
  | credits
deriving DecidableEq, Repr

/-- The test access port instructions of R441. -/
inductive TapInstr where
  | bypass
  | idcode
  | samplePreload (lgate : BitVec 32)
  | extest
  | scan
deriving DecidableEq, Repr

/-- What a request that gets no response was (R26): a prediction request by its tag; a host access to a register or through the
window; a vector fetch; an offer or a clearance request of a head's ply agent. -/
inductive TimedOut where
  | request (tag : Nat)
  | hostRead (addr : BitVec 24)
  | hostWrite (addr : BitVec 24)
  | window (ofs : BitVec 28) (len : Nat) (write : Bool)
  | fetch (h : Fin 32)
  | ply (h : Fin 32)
deriving DecidableEq, Repr

/-- The commands: one constructor per row of spec/opcode_table.json. -/
inductive Instr where
  /-- REGISTER_WRITE (R5): A host write to a register that has no row of its own stores or ignores the value, or is discarded and logged under the access rules. -/
  | registerWrite (addr : BitVec 24) (v : Word)
  /-- BAR0_BAD_SHAPE (R33): A BAR0 request that is not one aligned dword with all byte enables is completed with 0xFFFF_FFFF or discarded, and logged with code 0x8. -/
  | bar0BadShape (addr : BitVec 24) (write : Bool)
  /-- BAR2_ACCESS (R41): A BAR2 request is split at the installed SDRAM size, served dword by dword inside it, and answered 0xFFFF_FFFF and logged with code 0x9 beyond it. -/
  | bar2Access (ofs : BitVec 28) (acc : Bar2Acc)
  /-- ARBITRATION_ROUND (R21): An arbiter grants one eligible message per fabric cycle by age and class priority. -/
  | arbitrationRound (arb : ArbId)
  /-- RESPONSE_TIMEOUT (R26): A request without a response 100 µs after it left gets a self-generated status 0x5 response and raises RSP_TIMEOUT. -/
  | responseTimeout (what : TimedOut)
  /-- LATE_RESPONSE (R26): A response that arrives after its timeout is discarded and counted, and its tag is freed. -/
  | lateResponse (tag : Nat)
  /-- ENABLE (R454): A write of BLK_CTL.EN changes whether the block gives normal service, and a rise from 0 to 1 requests a paced wake-up. -/
  | enable (b : Blk) (en : Bool)
  /-- WAKE_UP (R454): A block whose wake-up is due under the region pacing becomes active, and its waiting requests proceed. -/
  | wakeUp (r : Fin 16)
  /-- SOFT_RESET (R422): A write of 1 to BLK_CTL.SRST starts a soft reset of the block, aborts its long operation and casts a reset shadow downstream. -/
  | softReset (b : Blk)
  /-- SOFT_RESET_END (R422): A soft reset completes, the block returns to its soft-reset state, and its shadow runs on for 10 µs. -/
  | softResetEnd (b : Blk)
  /-- RESET_SHADOW_END (R422): The reset shadow on a unit ends 10 µs after the last reset that cast it. -/
  | resetShadowEnd (b : Blk)
  /-- HOST_FENCE (R44): Host software writes BLK_CTL.FENCE 0b10, which takes the block out of service and aborts its long operation. -/
  | hostFence (b : Blk)
  /-- FENCE_CLEAR (R44): Host software writes BLK_CTL.FENCE 0b00 on a fenced block, which returns it to service from its soft-reset state. -/
  | fenceClear (b : Blk)
  /-- OP_ABORT (R50): A write of OP_CMD with ACTION abort ends a queued or running long operation as aborted with ERR 0x02. -/
  | opAbort (b : Blk)
  /-- OP_DISPATCH (R50): A queued long operation takes the lowest free operation table entry and either runs or fails its start checks. -/
  | opDispatch
  /-- OPTAB_RETIRE (R55): A write of OPTAB_RETIRE frees an ended entry and returns its block to idle, or is ignored and counted. -/
  | optabRetire (idx : BitVec 8)
  /-- TABLE_FULL (R56): The operation table has been full for 100 ms, so TABLE_FULL is raised and the creel stops delivering long operations. -/
  | tableFull
  /-- EVT_ENABLE (R58): Enabling or unmasking an MSI-X vector whose pending bit is set sends its message. -/
  | evtEnable (vec : Fin 64) (viaMask : Bool)
  /-- EVT_GAP_END (R58): The HIF_EVT_GAP interval of a vector ends, and a message held back by it is sent. -/
  | evtGapEnd (vec : Fin 64)
  /-- DOORBELL (R80): A write of CREEL_RTAIL[i] hands new descriptors to ring i, and a value out of range is ignored and counted. -/
  | doorbell (i : Fin 8) (v : Word)
  /-- RING_ENABLE (R84): A write of CREEL_RCTL[i].EN 1 enables the ring, clears HALT and resumes at the head entry. -/
  | ringEnable (i : Fin 8) (v : Word)
  /-- RING_DISABLE (R84): A write of CREEL_RCTL[i].EN 0 lets the descriptor in progress complete and then stops the ring. -/
  | ringDisable (i : Fin 8) (v : Word)
  /-- NOP (R82): A NOP descriptor completes at once. -/
  | nop (i : Fin 8)
  /-- SKEIN (R87): A SKEIN descriptor is checked in order and staged, or rejected with a status, once the staged slot is free. -/
  | skein (i : Fin 8)
  /-- LONGOP (R82): A LONGOP descriptor writes its operands and OP_CMD to the target block once the operation table is not full. -/
  | longop (i : Fin 8)
  /-- BOBBIN_LOAD (R77): A BOBBIN_LOAD descriptor writes a checked or decrypted image into the bobbin's free buffer, which is promoted or left pending. -/
  | bobbinLoad (i : Fin 8)
  /-- LOAD (R75): KEYST_CMD.LOAD copies the key staging into a slot and clears the staging, and is ignored in test mode. -/
  | load (slot : Fin 32)
  /-- ERASE (R75): KEYST_CMD.ERASE clears a key slot. -/
  | erase (slot : Fin 32)
  /-- GO (R87): SKEIN_CTL.GO records the GO of a staged skein with GO flag 1, or is ignored and flagged. -/
  | go
  /-- ABORT (R90): SKEIN_CTL.ABORT makes every head finish its current vector and hold, lists the remaining work and withdraws clearance requests. -/
  | abort
  /-- DROP (R90): SKEIN_CTL.DROP discards the staged skein without a report, or is ignored and flagged. -/
  | drop
  /-- LAYER_START (R88): A staged skein starts once no skein runs and its GO condition holds, taking the present heads, checking the ply plan and promoting pending maps. -/
  | layerStart
  /-- LAYER_END (R89): All work of the layer has finished, so the layer report is written, ENDED is set and the running slot is freed. -/
  | layerEnd
  /-- VECTOR_FETCH (R93): A vector record fetched from SDRAM or from the hand-over ring enters the Drafter's fetch queue. -/
  | vectorFetch (h : Fin 32)
  /-- MOVE_QUEUE_ENTRY (R93): A record passes from the fetch queue into the move queue as moves, binds its bobbin, is checked, and triggers re-planning and event posting. -/
  | moveQueueEntry (h : Fin 32)
  /-- DRAFTER_TICK (R101): At each servo tick the Drafter samples the planned path into setpoints with feed-forward, starts moves and applies the speed scale. -/
  | drafterTick (h : Fin 32)
  /-- HOLDREQ (R116): A write of DRF_CTL.HOLDREQ makes the head hold at its next hold point, or releases that hold. -/
  | holdreq (h : Fin 32) (on : Bool)
  /-- DRF_ACC_CAP (R109): A write of DRF_ACC_CAP is latched and taken into re-planning at the next move start. -/
  | drfAccCap (h : Fin 32) (v : Word)
  /-- DRF_AUX (R113): A write of DRF_AUX[i] sets a new auxiliary axis target, taken from the next move boundary. -/
  | drfAux (h : Fin 32) (i : Fin 3) (v : Word)
  /-- TRAVELLER_TICK (R129): At each servo tick the Traveller maps measured angles to the bed, finds s(k), v(k) and d(k), judges its schedule entries and accumulates deposits. -/
  | travellerTick (h : Fin 32)
  /-- STALE_TICK (R132): A tick's measured value has not arrived by TRV_HORIZON − 150 ns, so it is extrapolated, or the Traveller goes blind from the 5th stale tick. -/
  | staleTick (h : Fin 32)
  /-- ENTRY_FIRE (R137): A schedule entry's predicted slot is reached, so LGATE and the BCH code change and the entry retires. -/
  | entryFire (h : Fin 32)
  /-- DWELL_OFF (R138): DUR after the gate edge of DWELL_ON, the DWELL_OFF fires whatever the position. -/
  | dwellOff (h : Fin 32)
  /-- RAMP_STEP (R142): A predicted change of the RAMP_ON or RAMP_OFF index is crossed, and the BCH code changes. -/
  | rampStep (h : Fin 32)
  /-- STITCH_STEP (R211): A predicted step of a stitch fade factor is crossed, and the BCH code changes. -/
  | stitchStep (h : Fin 32)
  /-- CODE_DEFER (R143): A BCH code deferred by the 100 ns rule is applied 100 ns after the previous code. -/
  | codeDefer (h : Fin 32)
  /-- ADMISSION_GRANT (R455): THERM grants a waiting admission request within the COUNT per 10 µs limit, and the head leaves ADMIT. -/
  | admissionGrant
  /-- FMAP_LOAD (R127): Operation 0x01 of HEADCTL loads a field map image from SDRAM into the pending buffer. -/
  | fmapLoad (h : Fin 32) (tag : BitVec 8)
  /-- FMAP_LOAD_DONE (R127): The field map load completes or fails its checks, and a loaded map is promoted or kept pending. -/
  | fmapLoadDone (h : Fin 32)
  /-- FMAP_FETCH (R127): Operation 0x02 of HEADCTL reads the head's stored field map over its lane. -/
  | fmapFetch (h : Fin 32) (tag : BitVec 8)
  /-- FMAP_FETCH_DONE (R127): The field map fetch completes or fails, and a loaded map is promoted or kept pending. -/
  | fmapFetchDone (h : Fin 32)
  /-- PRODUCT_START (R150): A free head takes the next waiting product and starts its list, or misses it when it cannot finish inside the field. -/
  | productStart (h : Fin 32)
  /-- DRIVE_FRAME (R305): At D(k) each SERVO cell group sends the DRIVE frame with the drive words for tick k on VC0. -/
  | driveFrame (n : Fin 40)
  /-- FEEDBACK_FRAME (R167): A FEEDBACK frame is received, and each feedback word is judged good, late or bad and classified per cell. -/
  | feedbackFrame (n : Fin 40) (f : FbFrame)
  /-- CONTROL_DEADLINE (R168): At D(k) + 880 ns each cell computes drive word k + 1 from the newest good sample or the hold-over value. -/
  | controlDeadline (h : Fin 32)
  /-- FEEDBACK_TIMEOUT (R167): A feedback word not received by D(k) + 2,000 ns is judged bad. -/
  | feedbackTimeout (n : Fin 40) (i : Fin 6)
  /-- SRV_APPLY (R177): A write of SRV_APPLY copies the named cells' shadow coefficients into their live sets between two ticks. -/
  | srvApply (k : Fin 8) (v : Word)
  /-- CELL_ENABLE (R175): A write of SRV_CCTL.EN or MSP_CCTL.EN lets a cell reach RUN or sends it to OFF. -/
  | cellEnable (c : CellId) (v : Word)
  /-- TUNING (R178): Operation 0x01 of SERVO starts a step and chirp tuning of one cell. -/
  | tuning (k : Fin 8) (tag : BitVec 8) (param : BitVec 12)
  /-- TUNING_CHIRP (R179): The step phase of a tuning operation ends after its ticks, and the chirp phase begins. -/
  | tuningChirp (k : Fin 8)
  /-- TUNING_DONE (R179): A tuning operation writes its results to SDRAM and ends done, or ends failed. -/
  | tuningDone (k : Fin 8) (cell : Fin 24)
  /-- ITEM_WINDOW_ENTRY (R190): A pool item enters the ply arbiter's window and is tested and made pending, listed or rejected. -/
  | itemWindowEntry
  /-- OFFER (R195): A head's slot offer is evaluated and the arbiter grants it at most one qualifying item. -/
  | offer (h : Fin 32)
  /-- STANDING_OFFER_EVAL (R192): A standing offer is evaluated again when the window changes and at least every 10 µs. -/
  | standingOfferEval (h : Fin 32)
  /-- GRANT (R196): A grant reaches the agent and fills the hand-over ring, or is returned when its slot has passed. -/
  | grant (h : Fin 32)
  /-- ITEM_COMPLETION (R196): The agent reports a completed item record or the item's end to the arbiter. -/
  | itemCompletion (h : Fin 32)
  /-- CLEARANCE_REQUEST (R205): A head's clearance request for a run's box is granted free or waits in contention for the ply token. -/
  | clearanceRequest (h : Fin 32)
  /-- EXTENSION (R201): A request to grow a cleared box is granted or refused, and a refusal ends the run at an exact stop. -/
  | extension (h : Fin 32)
  /-- BOX_RELEASE (R202): PLY_LINGER after the run's last LASER_OFF, a cleared box is released and token and free grants follow. -/
  | boxRelease (h : Fin 32)
  /-- MELT_POOL_POSITION (R203): The live melt-pool positions of exposing heads are tested against each other's plumes, and violations are counted. -/
  | meltPoolPosition
  /-- CAMERA_FRAME (R229): A complete camera frame is processed through the MPV stages into a feature record, with slub checks and logging. -/
  | cameraFrame (h : Fin 32) (f : CamFrame)
  /-- RING_ENTRY_WRITE (R240): A waiting log, slub, archive or thumbnail entry is written to its SDRAM ring once the port has room. -/
  | ringEntryWrite (p : RtPort)
  /-- SENSE_FRAME (R309): A SENSE frame delivers the photodiode and pyrometer samples of one tick to the MPV. -/
  | senseFrame (h : Fin 32) (tick : Word) (pd : BitVec 16) (pyro : BitVec 16)
  /-- COMMIT (R222): MPV_SET_CMD.COMMIT checks the shadow settings set and accepts it with a new SID or refuses it. -/
  | commit (h : Fin 32)
  /-- SETTINGS (R308): At the first frame start after a commit the device sends the SETTINGS frame of the accepted set to the camera. -/
  | settings (h : Fin 32)
  /-- CAL_LOAD (R227): Operation 0x01 of MPV loads a calibration image from SDRAM. -/
  | calLoad (h : Fin 32) (tag : BitVec 8)
  /-- CAL_LOAD_DONE (R228): The calibration load completes or fails, and a loaded image is promoted or kept pending. -/
  | calLoadDone (h : Fin 32)
  /-- GUEST_START (R244): At the guest camera's next frame start a pipeline binds the camera of a fenced MPV as guest. -/
  | guestStart (h : Fin 32)
  /-- GUEST_END (R244): At the next frame start after the fence clears, the guest binding ends. -/
  | guestEnd (h : Fin 32)
  /-- MPV_ENABLE (R247): A write of MPV_CTL.EN moves the pipeline between OFF and RUN. -/
  | mpvEnable (h : Fin 32) (v : Word)
  /-- FEATURE_RECORD (R268): A feature record reaches the correction unit, is used or skipped, and its result is placed at the lead distance. -/
  | featureRecord (h : Fin 32)
  /-- DEPOSIT (R253): A deposit event carrying a tile and its energy reaches the lattice and is held for the next tick. -/
  | deposit
  /-- LATTICE_TICK (R256): Every LAT_PERIOD the lattice applies deposits and diffuses and cools every tile, or counts an overrun. -/
  | latticeTick (swept : Bool) (err : Option TileErr)
  /-- RECOAT_STEP_DONE (R262): The recoat step at layer start completes, RECOAT_DONE is set, ticking resumes and waiting predictions are answered. -/
  | recoatStepDone
  /-- PREDICTION_REQUEST (R263): A correction unit's request for the temperature of a tile is answered by the lattice from the last completed tick. -/
  | predictionRequest
  /-- PREDICTION (R264): A prediction reaches the correction unit and sets the pre-scale of its start entry, or is discarded as late or failed. -/
  | prediction (h : Fin 32)
  /-- LAT_INIT (R272): Operation 0x01 of LATTICE sets every tile to its initial values and takes up the geometry. -/
  | latInit (tag : BitVec 8)
  /-- LAT_INIT_DONE (R272): LAT_INIT completes and sets INIT_VALID. -/
  | latInitDone
  /-- LAT_READ (R273): Operation 0x02 of LATTICE copies a rectangle of tiles to SDRAM, row by row between ticks. -/
  | latRead (act : RowAct)
  /-- LAT_READ_DONE (R273): LAT_READ has copied its last row and ends done. -/
  | latReadDone
  /-- LAT_WRITE (R272): Operation 0x03 of LATTICE copies a rectangle from SDRAM into the tiles. -/
  | latWrite (tag : BitVec 8)
  /-- LAT_WRITE_DONE (R272): LAT_WRITE completes and takes up origin and pitch. -/
  | latWriteDone
  /-- LAYER_FRAME (R282): A CSI-2 frame of the bound virtual channel is judged and processed through black level, statistics, any armed recoat check and the archive. -/
  | layerFrame (p : Fin 2) (f : CsiFrame)
  /-- CSI_LINK_LOSS (R298): A camera port stops receiving in high-speed mode and raises LINK_LOSS. -/
  | csiLinkLoss (p : Fin 2)
  /-- LPIPE_BIND (R280): A write of LPIPE_BIND requests a new bound virtual channel from its next frame start. -/
  | lpipeBind (p : Fin 2) (v : Word)
  /-- NEXT (R280): LPIPE_CMD.NEXT requests binding of the next enabled virtual channel. -/
  | next (p : Fin 2)
  /-- CHECK (R284): LPIPE_CMD.CHECK arms a recoat check on the next good bound frame. -/
  | check (p : Fin 2)
  /-- RECOAT_CHECK_ARM (R284): With AUTO 1, DELAY ms after a layer end a recoat check is armed. -/
  | recoatCheckArm (p : Fin 2)
  /-- SEND (R288): LGT_CMD.SEND requests a lighting frame on a line. -/
  | send (line : Fin 4)
  /-- LGT_REFRESH (R288): Every LGT_REFRESH ms a lighting frame is requested. -/
  | lgtRefresh (line : Fin 4)
  /-- LIGHT_FRAME (R287): A lighting line sends a held frame request as a data phase with snapshot duties, followed by the latch. -/
  | lightFrame (line : Fin 4)
  /-- STATUS_PHASE (R289): After the latch the status phase receives the module status bytes and sets each channel's lamp state. -/
  | statusPhase (line : Fin 4) (bytes : List (BitVec 8))
  /-- DIAG (R290): LGT_CMD.DIAG requests a diagnostic pulse on a line, held while a layer runs. -/
  | diag (line : Fin 4)
  /-- DIAG_PULSE_START (R290): With no layer running, a requested diagnostic pulse sends every channel at LGT_DIAG.DUTY with feedback suspended. -/
  | diagPulseStart (line : Fin 4)
  /-- DIAG_PULSE_END (R290): After LGT_DIAG.LEN ms the pulse runs its status phase, restores the previous frame and sets DIAG_DONE. -/
  | diagPulseEnd (line : Fin 4) (bytes : List (BitVec 8))
  /-- LGT_CFG (R294): A write of LGT_CFG configures a line and claims its output pin. -/
  | lgtCfg (line : Fin 4) (v : Word)
  /-- LANE_ENABLE (R317): A write of LANE_CTL.EN 1 moves a disabled lane to DETECT. -/
  | laneEnable (n : Fin 40) (v : Word)
  /-- LANE_DISABLE (R317): A write of LANE_CTL.EN 0 moves a lane to DISABLED. -/
  | laneDisable (n : Fin 40) (v : Word)
  /-- SIGNAL_DETECT (R317): Signal on a lane receiver for 1 µs starts training from DETECT or FAILED. -/
  | signalDetect (n : Fin 40)
  /-- SIGNAL_LOST (R317): Signal lost for 1 µs on a lane in UP moves it to DETECT. -/
  | signalLost (n : Fin 40)
  /-- TRAIN (R317): LANE_CMD.TRAIN starts training from DETECT or FAILED. -/
  | train (n : Fin 40)
  /-- RETRAIN (R318): LANE_CMD.RETRAIN triggers a retraining of a lane in UP. -/
  | retrain (n : Fin 40)
  /-- LOSS_OF_LOCK (R318): The receiver's phase-tracking loop loses lock, which triggers a retraining or raises CRC_BURST. -/
  | lossOfLock (n : Fin 40)
  /-- TRAIN_BLOCK (R318): A TRAIN block from the partner triggers a retraining or answers a training or test exchange. -/
  | trainBlock (n : Fin 40) (rates : BitVec 3)
  /-- TRIAL_END (R314): A training trial at one rate and preset passes or fails, and the next trial or the latency measurement follows. -/
  | trialEnd (n : Fin 40) (pass : Bool)
  /-- SWEEP_RETRY (R314): 10 ms after a failed sweep another sweep starts, or the lane fails after RT_MAX sweeps. -/
  | sweepRetry (n : Fin 40)
  /-- TIMING (R315): The returned TIMING blocks give the round trip, and L is set, or the lane fails for latency. -/
  | timing (n : Fin 40) (roundTripNs : Rat) (holdNs : Rat) (latchNs : BitVec 8)
  /-- DESC (R315): The partner's descriptor is checked and copied, making the lane UP with an arrival, or failing it. -/
  | desc (n : Fin 40) (bytes : List (BitVec 8))
  /-- VC3_TIMEOUT (R311): A management request without an answer in 100 µs is sent again, or fails on the second timeout. -/
  | vc3Timeout (n : Fin 40)
  /-- DATA (R311): A DATA message returns bytes read from the partner's store, as for FMAP_FETCH. -/
  | data (n : Fin 40) (bytes : List (BitVec 8))
  /-- LEAVE (R319): A LEAVE message from the partner moves the lane from UP to DETECT as a departure. -/
  | leave (n : Fin 40) (reason : BitVec 8)
  /-- NACK (R311): A NACK message reports a management request refused by the partner. -/
  | nack (n : Fin 40) (type : BitVec 8)
  /-- CREDIT (R312): A CREDIT block returns credits on VC1, VC2 and VC3. -/
  | credit (n : Fin 40) (vc1 : BitVec 16) (vc2 : BitVec 16) (vc3 : BitVec 16)
  /-- IDLE_ENTRY (R322): A lane in UP enters electrical idle once IDLE_REQ is set and no skein or served cell needs it. -/
  | idleEntry (n : Fin 40)
  /-- IDLE_EXIT (R322): A lane in IDLE sends or receives an exit burst when an idle condition ends. -/
  | idleExit (n : Fin 40) (byPartner : Bool)
  /-- EXIT_BURST (R317): An exit burst locks and the lane returns from IDLE to UP. -/
  | exitBurst (n : Fin 40)
  /-- EXIT_TIMEOUT (R317): An exit burst not locked within 2 µs sends the lane from IDLE to TRAIN. -/
  | exitTimeout (n : Fin 40)
  /-- PAT_TEST (R324): Operation 0x01 of LANE runs a PRBS pattern test, near or far. -/
  | patTest (n : Fin 40) (tag : BitVec 8)
  /-- PAT_TEST_DONE (R324): The pattern test has checked its length and ends, returning the lane to DETECT. -/
  | patTestDone (n : Fin 40) (r : PatResult)
  /-- PAT_TEST_NO_ANSWER (R324): A far pattern test whose partner has not answered within 100 µs ends failed with ERR 0x80. -/
  | patTestNoAnswer (n : Fin 40)
  /-- INJ_BIT (R325): LANE_CMD.INJ_BIT inverts one bit of the next pattern or link frame. -/
  | injBit (n : Fin 40)
  /-- INJ_BURST (R325): LANE_CMD.INJ_BURST inverts BURST consecutive bits. -/
  | injBurst (n : Fin 40)
  /-- MSP_CFG (R330): A write of MSP_CFG selects a spindle's drive, feedback and source and claims their pins, or is refused. -/
  | mspCfg (m : Fin 64) (v : Word)
  /-- MSP_TARGET (R341): A write of MSP_TARGET queues a trapezoid move, or is refused when the queue is full. -/
  | mspTarget (m : Fin 64) (v : Word)
  /-- MSP_PROFILE_WRITE (R342): A write of VS to D2 or MSP_QSTOP is latched for the next move start, or refused when it breaks the order. -/
  | mspProfileWrite (m : Fin 64) (i : Fin 9) (v : Word)
  /-- MOTION_TICK (R331): At each servo tick a machine spindle cell advances its profile or step setpoint and evaluates its servo law. -/
  | motionTick (m : Fin 64)
  /-- HOME (R347): MSP_CMD.HOME starts homing of an idle spindle in RUN, or fails at once with reason 7. -/
  | home (m : Fin 64)
  /-- STOP (R343): MSP_CMD.STOP ends the move in progress with a fall to 0 at D1 and D2. -/
  | stop (m : Fin 64)
  /-- QSTOP (R343): MSP_CMD.QSTOP ends the move in progress with a fall to 0 at MSP_QSTOP. -/
  | qstop (m : Fin 64)
  /-- QUADRATURE_EDGE (R335): A filtered quadrature edge changes MSP_POS, or counts an error when A and B change together. -/
  | quadratureEdge (m : Fin 16) (a : Bool) (b : Bool)
  /-- HALL_CHANGE (R337): A change of the hall code counts a step or raises HALL_ERR. -/
  | hallChange (m : Fin 16) (code : BitVec 3)
  /-- INDEX_EDGE (R335): A counted index edge latches the position and advances homing. -/
  | indexEdge (m : Fin 64) (latched : Int)
  /-- LIMIT_EDGE (R345): A qualified active limit edge in the direction of motion causes a quick stop and raises LIMIT. -/
  | limitEdge (m : Fin 64) (positive : Bool) (active : Bool)
  /-- HOME_EDGE (R347): A qualified active home edge latches the position and advances homing. -/
  | homeEdge (m : Fin 64) (active : Bool) (position : Int)
  /-- STEP_INPUT (R352): A rising STEP edge adds SIZE counts to the step target and spreads the motion over microsteps. -/
  | stepInput (m : Fin 16) (dirHigh : Bool)
  /-- BISS_FRAME (R336): A BiSS-C cycle ends with a good or bad position frame for the spindle. -/
  | bissFrame (m : Fin 16) (f : BissFrame)
  /-- SPEED_WINDOW_END (R339): At the end of a speed window the spindle may change between period and count mode. -/
  | speedWindowEnd (m : Fin 64)
  /-- STANDSTILL (R340): No edge for MSP_STILL_US sets standstill and MSP_SPEED 0. -/
  | standstill (m : Fin 64)
  /-- COMPARE_ENABLE (R350): A write of MSP_CMP_CTL sets up or disables position compare and claims its pin. -/
  | compareEnable (m : Fin 64) (v : Word)
  /-- COMPARE_PULSE_END (R351): MSP_CMP_PW ns after the last firing, the compare pin returns low. -/
  | comparePulseEnd (m : Fin 64)
  /-- CMP_LOAD (R349): Operation 0x01 of MSPIN copies a compare list from SDRAM. -/
  | cmpLoad (b : Fin 8) (tag : BitVec 8) (param : BitVec 12)
  /-- CMP_LOAD_DONE (R349): The compare list load completes or fails. -/
  | cmpLoadDone (b : Fin 8)
  /-- MSP_APPLY (R358): A write of MSP_APPLY copies the named cells' shadow coefficients into their live sets. -/
  | mspApply (b : Fin 8) (v : Word)
  /-- SDRAM_REQUEST (R378): A fabric request to SDRAM is scheduled and served, with ECC correction and the retry rule. -/
  | sdramRequest (ch : Fin 2) (r : SdReq)
  /-- MIGRATE (R368): Operation 0x01 of SDC copies a logical rank to the spare. -/
  | migrate (ch : Fin 2) (act : MigAct)
  /-- MIGRATE_DONE (R371): A rank migration reaches the end and remaps the rank, or fails. -/
  | migrateDone (ch : Fin 2) (targetErr : Bool)
  /-- REFRESH_ACCRUAL (R373): Every tREFI each refresh unit owes one more refresh, and forced refreshes follow above the limit. -/
  | refreshAccrual (ch : Fin 2) (rank : Fin 4) (bank : Fin 4)
  /-- REFRESH_ISSUE (R373): A REFsb is issued to a unit that owes one once its bank is idle, or forced ahead of requests. -/
  | refreshIssue (ch : Fin 2) (rank : Fin 4) (bank : Fin 4)
  /-- MR4_POLL (R374): Every TPOLL ms MR4 is read and a rank may change refresh rate with restated debts. -/
  | mr4Poll (ch : Fin 2) (rank : Fin 4) (doubled : Bool)
  /-- REFRESH_DISABLE (R376): A write of SDC_REF_CTL.DIS stops or resumes all refresh of the channel. -/
  | refreshDisable (ch : Fin 2) (dis : Bool)
  /-- SCRUB_READ (R367): The scrubber reads the next line of the ranks in service under ECC. -/
  | scrubRead (ch : Fin 2) (ecc : EccOutcome)
  /-- SRAMP_ACC_DATA (R383): An access to SRAMP_ACC_DATA reads or writes a pool word and advances the address by 4. -/
  | srampAccData (rw : Option Word) (ecc : EccOutcome)
  /-- MARCH (R384): Operation 0x01 of MARCH tests a range of SRAM banks, preserving or destructive. -/
  | march (act : MarchAct)
  /-- MARCH_DONE (R387): The march completes its banks with repairs and ends. -/
  | marchDone
  /-- SYNC (R395): A received Sync message gives an offset and corrects the clock rate. -/
  | sync (p : Fin 2) (m : SyncMsg)
  /-- FOLLOW_UP (R395): A received Follow_Up completes a two-step Sync offset. -/
  | followUp (p : Fin 2) (m : FollowMsg)
  /-- DELAY_REQ (R392): A time transmitter port answers a received Delay_Req with a Delay_Resp. -/
  | delayReq (p : Fin 2) (rx : PtpTime) (m : PtpHdr)
  /-- DELAY_RESP (R395): A received Delay_Resp updates the mean path delay. -/
  | delayResp (p : Fin 2) (m : FollowMsg)
  /-- ANNOUNCE (R397): A received Announce updates the grandmaster and UTC offset and the timeout. -/
  | announce (p : Fin 2) (m : AnnMsg)
  /-- PTP_DISCARD (R391): A frame or message that is not handled is discarded and counted. -/
  | ptpDiscard (p : Fin 2)
  /-- SYNC_TRANSMIT (R392): A time transmitter port sends a one-step Sync at its interval. -/
  | syncTransmit (p : Fin 2)
  /-- ANNOUNCE_TRANSMIT (R392): A time transmitter port sends an Announce at its interval. -/
  | announceTransmit (p : Fin 2)
  /-- DELAY_REQ_TRANSMIT (R395): A time receiver port sends a Delay_Req at its interval. -/
  | delayReqTransmit (p : Fin 2)
  /-- SYNC_TIMEOUT (R397): A port with no Sync within the announce receipt timeout is in sync timeout, and the clock may enter holdover. -/
  | syncTimeout (p : Fin 2)
  /-- SET (R396): TIME_SET_CMD.SET steps the clock while SET_OPEN is 1, or is ignored. -/
  | set
  /-- TRIGGER_ARM (R399): A write of TIME_TRIG[t].CTL.EN 1 arms a trigger and claims its ball. -/
  | triggerArm (t : Fin 8) (v : Word)
  /-- TRIGGER_FIRE (R400): The clock reaches a trigger's time, which pulses, flags or starts a cycle, and advances or disarms. -/
  | triggerFire (t : Fin 8)
  /-- TMARK_PULSE_END (R400): WIDTH ns after a pulse firing, the TMARK ball goes low. -/
  | tmarkPulseEnd (ball : Fin 4)
  /-- FAULT_MESSAGE (R418): The collector accepts a fault message, timestamps it, queues it and starts any armed reaction. -/
  | faultMessage
  /-- STORM_MILLISECOND (R413): At each millisecond a region concentrator enters or leaves storm. -/
  | stormMillisecond (r : Fin 16)
  /-- FLTC_POP (R416): A write of FLTC_POP removes the oldest fault queue entry. -/
  | fltcPop (v : Word)
  /-- FLTC_CF_CLR (R421): A write of FLTC_CF_CLR clears a cell fence and frees its list entry. -/
  | fltcCfClr (v : Word)
  /-- FAULT_FORCE (R427): A write to FLT_FORCE or BIST_CTL.CFORCE asserts or releases a detector's output. -/
  | faultForce (b : Blk) (common : Bool) (v : Word) (real : Word)
  /-- ALIVE_TOGGLE (R430): Every 500 µs from host-ready the ALIVE ball changes level unless stopped. -/
  | aliveToggle
  /-- RESTART (R431): FLTC_ALIVE.RESTART restarts the ALIVE toggling, or is ignored. -/
  | restart
  /-- FLTC_WDOG_KICK (R432): A write of FLTC_WDOG_KICK restarts the watchdog period. -/
  | fltcWdogKick (v : Word)
  /-- WDOG_EXPIRED (R432): PERIOD ms without a kick expire the watchdog, which raises WDOG_EXPIRED and stops ALIVE. -/
  | wdogExpired
  /-- SLICE_START (R433): Every INTERVAL ms the scheduler starts a self-test slice on the next idle unit of a region. -/
  | sliceStart (r : Fin 16)
  /-- SLICE_DONE (R435): A slice completes its test and restores the unit, passing, repeating or failing. -/
  | sliceDone (r : Fin 16) (res : SliceResult)
  /-- SENSOR_SAMPLE (R445): Every 50 µs each die sensor sample updates its state, the device level and the calibration temperature trigger. -/
  | sensorSample (sensor : Fin 64) (smp : SnsSample)
  /-- GRACE_END (R448): The mode B grace ends with the level still 2, so mode A applies with J = 7. -/
  | graceEnd
  /-- THROTTLE_STEP (R448): Every THERM_STEP ms J steps down while throttling, or up after the level falls. -/
  | throttleStep
  /-- THERM_MODE (R448): A write of THERM_CTL.MODE changes the throttle mode, and B to A during a grace applies mode A at once. -/
  | thermMode (v : Word)
  /-- SHUTDOWN_RECORD_APPEND (R452): After replay, once the die is within the write window, THERM appends the pending shutdown records to the journal. -/
  | shutdownRecordAppend
  /-- CLEAR (R452): AON_CMD.CLEAR clears PEND without journaling. -/
  | clear
  /-- VSTBY_APPLY (R451): Applying VSTBY resets the AON registers and sets STBY_LOST. -/
  | vstbyApply
  /-- TRACKING_DONE (R464): BCHG_TRACK ns after the hand-over start, the switch is armed. -/
  | trackingDone (k : Fin 8)
  /-- HAND_OVER_SWITCH (R464): At the first slot with the gate low and no edge committed for 100 ns, the spare is connected to the channel. -/
  | handOverSwitch (k : Fin 8) (reading : BitVec 16)
  /-- HAND_OVER_DISCONNECT (R464): 10 ns after the switch, the old cell is disconnected, BCHG_MAP updated and its trim started. -/
  | handOverDisconnect (k : Fin 8)
  /-- CAL_GAPWAIT (R465): A hand-over that waited BCHG_GAPWAIT ms for a gap is abandoned and its run fails. -/
  | calGapwait (k : Fin 8)
  /-- TRIM_DONE (R466): A free converter pair's trim ends good or failed, and the pair becomes the spare or unusable. -/
  | trimDone (k : Fin 8) (r : TrimResult)
  /-- CAL_RUN (R470): Operation 0x01 of BCHG starts a calibration run, by host or by the temperature rule. -/
  | calRun (k : Fin 8) (tag : BitVec 8)
  /-- CAL_RUN_DONE (R468): Every usable cell has been trimmed, so the run records the temperature and journals the trims. -/
  | calRunDone (k : Fin 8)
  /-- APPEND (R482): Operation 0x01 of JRNL appends host records as one transaction. -/
  | append (tag : BitVec 8)
  /-- APPEND_DONE (R482): The appended transaction is committed and verified, and the operation ends. -/
  | appendDone
  /-- READ (R482): Operation 0x02 of JRNL copies the live journal area to SDRAM. -/
  | read (tag : BitVec 8)
  /-- READ_DONE (R482): The journal read has copied its bytes and ends. -/
  | readDone
  /-- DOFF (R479): Operation 0x03 of JRNL compacts the journal into the other area. -/
  | doff (tag : BitVec 8)
  /-- DOFFING_DONE (R479): Doffing writes the new area header with GEN one higher, making it live. -/
  | doffingDone (ok : Bool)
  /-- JOURNAL_PROGRAM_START (R480): A queued journal program or erase starts once every valid sensor sample lies in the write window. -/
  | journalProgramStart
  /-- JOURNAL_PROGRAM_DONE (R481): A journal program completes and is verified, repeated once, or fails. -/
  | journalProgramDone (ok : Bool)
  /-- PORST_N_ASSERT (R484): PORST_N low holds every unit outside AON in power-on reset and drives lasers off. -/
  | porstNAssert
  /-- PORST_N_RELEASE (R484): The rising edge of PORST_N samples TEST_REQ and starts stage 1. -/
  | porstNRelease (testReq : Bool)
  /-- CHIPRST_N_ASSERT (R484): CHIPRST_N low holds every unit outside AON in chip reset. -/
  | chiprstNAssert
  /-- CHIPRST_N_RELEASE (R484): The rising edge of CHIPRST_N samples TEST_REQ and starts stage 1. -/
  | chiprstNRelease (testReq : Bool)
  /-- PERST_N (R484): PERST_N resets the PCIe endpoint, and its release lets the link train. -/
  | perstN (level : Bool) (linkUp : Option LinkUp)
  /-- BOOT_RST (R486): A write of 0x5A5A_3200 to BOOT_RST starts a chip reset. -/
  | bootRst (v : Word)
  /-- SUPPLY_LOW (R507): VDD_CORE or VDDA18 below 90 % makes the supervisor act as a falling PORST_N. -/
  | supplyLow
  /-- FUSE_LOAD_DONE (R487): Stage 1 ends with valid fuses and the sequence moves on, or halts on a fuse failure. -/
  | fuseLoadDone (ok : Bool)
  /-- SECRETS_CLEAR_DONE (R441): Stage 2 has erased the key store and zeroed the bobbin buffers in test mode. -/
  | secretsClearDone
  /-- MARCH_BIST_DONE (R487): Stage 3 ends after the destructive march and logic BIST, fencing or halting on failures. -/
  | marchBistDone (r : BistResult)
  /-- JOURNAL_REPLAY_DONE (R491): Stage 4 ends after the journal is replayed and its records applied. -/
  | journalReplayDone (fl : Option FlashId)
  /-- SDRAM_TRAINING_DONE (R364): Stage 5 ends after every rank of both channels is trained and NR is set. -/
  | sdramTrainingDone (r : TrainResult)
  /-- LANEWAIT_EXPIRY (R495): BOOT_LANEWAIT ms into stage 6, the lane part of the stage ends whatever lanes still train. -/
  | lanewaitExpiry
  /-- RANK_FILL_DONE (R493): The fill of a logical rank completes in both channels, and the installed SDRAM grows. -/
  | rankFillDone
  /-- HOST_READY (R496): Stage 6 has ended without halt or shutdown, so READY is set and ALIVE starts. -/
  | hostReady
  /-- REGISTER_READ (R52): A host read of OP_STAT, an RC register or a latching word returns its value and latches the OP_PART snapshot, clears the counter to its reset value, or latches the related words. -/
  | registerRead (addr : BitVec 24)
  /-- DROPPED_LINK_FRAME (R304): A link frame or control block that arrives with a failed CRC, a reserved TYPE, a LEN above 512 or a LEN that disagrees with its END is dropped and counted in LANE_CRCERR or LANE_DROP. -/
  | droppedLinkFrame (n : Fin 40) (why : DropWhy) (vc : BitVec 2)
  /-- SUPPLY_RESTORED (R507): VDD_CORE and VDDA18 return above 90 % of nominal, so the supervisor releases its power-on reset and the start sequence begins at stage 1 if PORST_N is high. -/
  | supplyRestored
  /-- TAP_INSTRUCTION (R441): An IEEE 1149.1 instruction shifted in at the test access port selects BYPASS, IDCODE, SAMPLE/PRELOAD or EXTEST, or internal scan only after a start with test mode requested, and EXTEST drives LGATE from the boundary register. -/
  | tapInstruction (i : TapInstr)
deriving DecidableEq, Repr

end Sys2Proof
end

