-- ==== Sys2Proof/Config.lean ====
section
/-! DEFINITION. What an implementation of the VZ3200 fixes and the manual does not state: constants
without a body, so no proof can see a value (log entries 2, 12, 13, 18, 39 and 52). -/

namespace Sys2Proof

/-- A value the manual leaves open, drawn afresh with the counter `Dev.fresh` (log 2, DESIGN CHOICE). -/
opaque Config.freeWord : Nat → Word

/-- A signed value the manual leaves open (log 2, DESIGN CHOICE). -/
opaque Config.freeInt : Nat → Int

/-- The vendor identity fuses of R32 (log 12, DESIGN CHOICE). -/
opaque Config.fuseVendor : BitVec 16

/-- The manufacturer identity fuses of the IDCODE register of R441 (log 12, DESIGN CHOICE). -/
opaque Config.fuseManufacturer : BitVec 11

/-- The revision field of IDCODE, R441 (log 12, DESIGN CHOICE). -/
opaque Config.idRevision : BitVec 4

/-- The factory trim words that stage 1 reads from fuses (R487), by beam region, converter cell and word. -/
opaque Config.factoryTrim : Nat → Nat → Nat → Word

/-- The factory repair maps that stage 1 reads from fuses (R487): KEY as in a REPAIR record, rows or words mapped. -/
opaque Config.factoryMaps : List (Nat × List Nat)

/-- BLK_CAP of a block whose chapter publishes none (R43: per block), by type code (log 13, DESIGN CHOICE). -/
opaque Config.blkCapOpen : Nat → Word

/-- Response buffers of a correction unit beyond the first (R16; log 52, DESIGN CHOICE). -/
opaque Config.rspBuffers : Nat

/-- Words 3 to 14 of the header of a journal area, whose content R476 does not give (log 18, DESIGN CHOICE). -/
opaque Config.areaPad : Nat → Word

/-- Bytes that the buffer of a real-time write port holds (R240, R242, R286): 0 logs, 1 archive and thumbnail, 2 layer
pipeline (log 39, DESIGN CHOICE). -/
opaque Config.portRoom : Nat → Nat

end Sys2Proof
end

