-- ==== Sys2Proof/Machine/Regs.lean ====
section
/-! DEFINITION. The registers of the VZ3200, written from the register tables of spec/ (R42, R54, R59, R75, R85,
R121, R154, R183, R184, R216, R219, R248, R275, R277, R295 to R297, R326, R357 to R359, R388, R390, R404, R405, R443,
R457, R459, R473, R483, R500): offset, copies, access code, reset value, writable bits, ranges of fields. -/

namespace Sys2Proof.Machine

/-- The block types of R35, in the order of the reaction table R417, whose index is `BT.idx`. -/
inductive BT where
  | hif | optab | creel | fltc | time | therm | jrnl | boot | aon | sdc | sramp | keyst | march | lpipe | csirx
  | light | lattice | plyarb | mspin | mpg | lane | headctl | servo | mpv | bchg | plyagt
deriving DecidableEq, Repr

/-- Access codes of R5. -/
inductive Acc where
  | rw | ro | wo | w1c | rc
deriving DecidableEq, Repr

/-- A field whose writes outside `min` to `max` leave it unchanged. -/
structure Lim where
  hi  : Nat
  lo  : Nat
  min : Nat
  max : Nat
deriving DecidableEq, Repr

/-- A register of a page: offset, up to two copy strides with their counts, access, reset value, bits that exist
(R6), whether a soft reset keeps it (R7), and its fields with a stated range. -/
structure Reg where
  off  : Nat
  s0   : Nat := 0
  n0   : Nat := 1
  s1   : Nat := 0
  n1   : Nat := 1
  acc  : Acc
  rst  : Word := 0
  mask : Word := 0xFFFFFFFF#32
  keep : Bool := false
  lims : List Lim := []
deriving DecidableEq, Repr

namespace R

/-! Registers of every block (R42). -/

def BLK_ID : Reg := { off := 0x0, acc := .ro }
def BLK_CAP : Reg := { off := 0x4, acc := .ro }
def BLK_CTL : Reg := { off := 0x8, acc := .rw, mask := 0x33#32 }
def BLK_STAT : Reg := { off := 0xC, acc := .ro }
def FLT_STAT : Reg := { off := 0x10, acc := .w1c, keep := true }
def FLT_FORCE : Reg := { off := 0x14, acc := .rw, keep := true }
def FLT_MASK : Reg := { off := 0x18, acc := .rw, keep := true }
def FLT_REACT : Reg := { off := 0x1C, acc := .rw, mask := 0x7#32, keep := true, lims := [⟨2, 0, 0, 4⟩] }
def OP_CMD : Reg := { off := 0x20, acc := .wo }
def OP_STAT : Reg := { off := 0x24, acc := .ro }
def OP_PART : Reg := { off := 0x28, s0 := 0x4, n0 := 6, acc := .ro, keep := true }
def BIST_CTL : Reg := { off := 0x40, acc := .rw, rst := 0x3#32, mask := 0x7000003#32 }
def BIST_STAT : Reg := { off := 0x44, acc := .ro }
def EVT_DISC : Reg := { off := 0x48, acc := .rc, keep := true }

/-! Registers of OPTAB (R54). -/

def OPTAB_COUNT : Reg := { off := 0x100, acc := .ro }
def OPTAB_RETIRE : Reg := { off := 0x104, acc := .wo }
def OPTAB_FULLTIME : Reg := { off := 0x108, acc := .ro }
def OPTAB_RETIRE_ERR : Reg := { off := 0x10C, acc := .rc }
def OPTAB_END : Reg := { off := 0x110, s0 := 0x4, n0 := 8, acc := .ro }
def OPTAB_ENT_STAT : Reg := { off := 0x800, s0 := 0x8, n0 := 256, acc := .ro }
def OPTAB_ENT_SRC : Reg := { off := 0x804, s0 := 0x8, n0 := 256, acc := .ro }

/-! Registers of HIF (R59). -/

def HIF_PCI_ID : Reg := { off := 0x100, acc := .ro }
def HIF_LINK : Reg := { off := 0x104, acc := .ro }
def HIF_WIN_BASE : Reg := { off := 0x108, acc := .rw, mask := 0xFFFF#32 }
def HIF_ERR_CNT : Reg := { off := 0x110, acc := .rc }
def HIF_ERR_ADDR : Reg := { off := 0x114, acc := .ro }
def HIF_ERR_CODE : Reg := { off := 0x118, acc := .ro }
def HIF_EVT_PEND : Reg := { off := 0x120, s0 := 0x4, n0 := 2, acc := .w1c }
def HIF_EVT_EN : Reg := { off := 0x128, s0 := 0x4, n0 := 2, acc := .rw }
def HIF_EVT_GAP : Reg := { off := 0x130, acc := .rw, mask := 0x3FF#32 }
def MSIX_ADDR_LO : Reg := { off := 0x800, s0 := 0x10, n0 := 64, acc := .rw }
def MSIX_ADDR_HI : Reg := { off := 0x804, s0 := 0x10, n0 := 64, acc := .rw }
def MSIX_DATA : Reg := { off := 0x808, s0 := 0x10, n0 := 64, acc := .rw }
def MSIX_CTL : Reg := { off := 0x80C, s0 := 0x10, n0 := 64, acc := .rw, rst := 0x1#32, mask := 0x1#32 }
def MSIX_PBA : Reg := { off := 0xC00, s0 := 0x4, n0 := 2, acc := .ro }

/-! Registers of KEYST (R75). -/

def KEYST_DATA : Reg := { off := 0x100, s0 := 0x4, n0 := 8, acc := .wo }
def KEYST_CMD : Reg := { off := 0x120, acc := .wo }
def KEYST_VALID : Reg := { off := 0x124, acc := .ro }

/-! Registers of CREEL (R85). -/

def CREEL_RBASE_LO : Reg := { off := 0x100, s0 := 0x20, n0 := 8, acc := .rw, mask := 0xFFFFF000#32 }
def CREEL_RBASE_HI : Reg := { off := 0x104, s0 := 0x20, n0 := 8, acc := .rw }
def CREEL_RSIZE : Reg := { off := 0x108, s0 := 0x20, n0 := 8, acc := .rw, rst := 0x4#32, mask := 0x1F#32, lims := [⟨4, 0, 4, 16⟩] }
def CREEL_RCTL : Reg := { off := 0x10C, s0 := 0x20, n0 := 8, acc := .rw, mask := 0x701#32 }
def CREEL_RHEAD : Reg := { off := 0x110, s0 := 0x20, n0 := 8, acc := .ro }
def CREEL_RTAIL : Reg := { off := 0x114, s0 := 0x20, n0 := 8, acc := .rw, mask := 0xFFFF#32 }
def CREEL_RSTAT : Reg := { off := 0x118, s0 := 0x20, n0 := 8, acc := .ro }
def CREEL_RDONE : Reg := { off := 0x11C, s0 := 0x20, n0 := 8, acc := .ro }
def SKEIN_CTL : Reg := { off := 0x200, acc := .wo }
def SKEIN_STAT : Reg := { off := 0x204, acc := .ro }
def SKEIN_LAYER : Reg := { off := 0x208, acc := .ro }
def SKEIN_EVT : Reg := { off := 0x20C, acc := .w1c, mask := 0x7F#32 }
def BOB_STAT : Reg := { off := 0x800, s0 := 0x4, n0 := 256, acc := .ro }

/-! Registers of HEADCTL (R121, R154 and R277). -/

def DRF_CTL : Reg := { off := 0x100, acc := .rw, rst := 0x300#32, mask := 0x301#32 }
def DRF_STAT : Reg := { off := 0x104, acc := .ro }
def DRF_BLEND_TOL : Reg := { off := 0x108, acc := .rw, rst := 0x7D0#32, mask := 0xFFFFF#32 }
def DRF_ACC_LAT : Reg := { off := 0x10C, acc := .rw, rst := 0xF4240#32 }
def DRF_ACC_CAP : Reg := { off := 0x110, acc := .rw }
def DRF_GAP_TOL : Reg := { off := 0x114, acc := .rw, rst := 0x64#32, mask := 0xFFFF#32 }
def DRF_Z_SLEW : Reg := { off := 0x118, acc := .rw, rst := 0x186A0#32 }
def DRF_FETCH_CTL : Reg := { off := 0x11C, acc := .rw, rst := 0x40#32, mask := 0x1FF#32 }
def DRF_AUX : Reg := { off := 0x120, s0 := 0x4, n0 := 3, acc := .rw }
def DRF_AUX_SLEW : Reg := { off := 0x12C, acc := .rw, rst := 0x10#32, mask := 0xFFFF#32 }
def DRF_POS_X : Reg := { off := 0x130, acc := .ro }
def DRF_POS_Y : Reg := { off := 0x134, acc := .ro }
def DRF_POS_Z : Reg := { off := 0x138, acc := .ro }
def DRF_ARC_LO : Reg := { off := 0x140, acc := .ro }
def DRF_ARC_HI : Reg := { off := 0x144, acc := .ro }
def DRF_CUR_ID : Reg := { off := 0x148, acc := .ro }
def DRF_CUR_IDX : Reg := { off := 0x14C, acc := .ro }
def DRF_HOLDCNT : Reg := { off := 0x150, acc := .ro }
def DRF_HOLD_IDX : Reg := { off := 0x154, acc := .ro }
def DRF_HOLD_US : Reg := { off := 0x158, acc := .ro }
def DRF_SKYFALL : Reg := { off := 0x15C, acc := .ro }
def DRF_LATCNT : Reg := { off := 0x160, acc := .ro }
def DRF_ACCLATE : Reg := { off := 0x164, acc := .ro }
def DRF_EVT : Reg := { off := 0x168, acc := .w1c, mask := 0x1F#32 }
def DRF_EVT_EN : Reg := { off := 0x16C, acc := .rw, mask := 0x1F#32 }
def TRV_CTL : Reg := { off := 0x200, acc := .rw, rst := 0x7#32, mask := 0x7#32 }
def TRV_STAT : Reg := { off := 0x204, acc := .ro, keep := true }
def TRV_HORIZON : Reg := { off := 0x208, acc := .rw, rst := 0x258#32, mask := 0xFFF#32, lims := [⟨11, 0, 500, 2000⟩] }
def TRV_LDLY : Reg := { off := 0x20C, acc := .rw, mask := 0x3FF03FF#32, lims := [⟨9, 0, 0, 800⟩, ⟨25, 16, 0, 800⟩] }
def TRV_DAC_SKEW : Reg := { off := 0x210, acc := .rw, mask := 0xFF#32 }
def TRV_IDLE_CODE : Reg := { off := 0x214, acc := .rw, mask := 0xFFFF#32 }
def TRV_VMIN : Reg := { off := 0x218, acc := .rw, rst := 0x2710#32 }
def TRV_DEV_MAX : Reg := { off := 0x21C, acc := .rw, rst := 0xC350#32 }
def TRV_SETTLE_TOL : Reg := { off := 0x220, acc := .rw, rst := 0x1F4#32, mask := 0xFFFF#32 }
def TRV_ARC_LO : Reg := { off := 0x224, acc := .ro }
def TRV_ARC_HI : Reg := { off := 0x228, acc := .ro }
def TRV_POS_X : Reg := { off := 0x22C, acc := .ro }
def TRV_POS_Y : Reg := { off := 0x230, acc := .ro }
def TRV_DEV : Reg := { off := 0x234, acc := .ro }
def TRV_VEL : Reg := { off := 0x238, acc := .ro }
def TRV_FIRED : Reg := { off := 0x23C, acc := .ro }
def TRV_LATECNT : Reg := { off := 0x240, acc := .ro }
def TRV_HELDCNT : Reg := { off := 0x244, acc := .ro }
def TRV_MERGECNT : Reg := { off := 0x248, acc := .ro }
def TRV_PCLAMP : Reg := { off := 0x24C, acc := .ro }
def TRV_STALECNT : Reg := { off := 0x250, acc := .ro }
def TRV_BLINDCNT : Reg := { off := 0x254, acc := .ro }
def TRV_FMAP_ADDR_LO : Reg := { off := 0x258, acc := .rw, mask := 0xFFFFFFC0#32 }
def TRV_FMAP_ADDR_HI : Reg := { off := 0x25C, acc := .rw }
def TRV_FMAP_CRC : Reg := { off := 0x260, acc := .ro, keep := true }
def TRV_FMAP_DESC : Reg := { off := 0x264, acc := .ro, keep := true }
def TRV_WEB_CTL : Reg := { off := 0x270, acc := .rw, mask := 0x33F#32 }
def TRV_WEB_SCALE : Reg := { off := 0x274, acc := .rw, rst := 0x10000#32 }
def TRV_WEB_DUR : Reg := { off := 0x278, acc := .rw }
def TRV_WEB_ORD : Reg := { off := 0x27C, acc := .rw }
def TRV_WEB_MISS : Reg := { off := 0x280, acc := .ro }
def TRV_WEB_LASTMISS : Reg := { off := 0x284, acc := .ro }
def TRV_WEBLOG_LO : Reg := { off := 0x288, acc := .rw, mask := 0xFFFFFFF0#32 }
def TRV_WEBLOG_HI : Reg := { off := 0x28C, acc := .rw }
def TRV_WEBLOG_SIZE : Reg := { off := 0x290, acc := .rw, rst := 0x4#32, mask := 0x1F#32, lims := [⟨4, 0, 4, 16⟩] }
def TRV_WEBLOG_WR : Reg := { off := 0x294, acc := .ro }
def TRV_WEB_PEND : Reg := { off := 0x298, acc := .ro }
def TRV_EVT : Reg := { off := 0x2A0, acc := .w1c, mask := 0xFF#32 }
def TRV_EVT_EN : Reg := { off := 0x2A4, acc := .rw, mask := 0xFF#32 }
def TRV_SCHED : Reg := { off := 0x800, s0 := 0x10, n0 := 64, s1 := 0x4, n1 := 4, acc := .ro }
def COR_CTL : Reg := { off := 0x300, acc := .rw, rst := 0x3#32, mask := 0x3#32 }
def COR_STAT : Reg := { off := 0x304, acc := .ro, rst := 0x80008000#32 }
def COR_INTEG : Reg := { off := 0x308, acc := .ro }
def COR_FF : Reg := { off := 0x30C, acc := .ro, rst := 0x8000#32 }
def COR_WPC : Reg := { off := 0x310, acc := .rw }
def COR_MINSTEP : Reg := { off := 0x314, acc := .rw, rst := 0x2710#32 }
def COR_RECORDS : Reg := { off := 0x318, acc := .ro }
def COR_USED : Reg := { off := 0x31C, acc := .ro }
def COR_SKIP : Reg := { off := 0x320, acc := .ro }
def COR_POSTED : Reg := { off := 0x324, acc := .ro }
def COR_LEADLOST : Reg := { off := 0x328, acc := .ro }
def COR_PASTEND : Reg := { off := 0x32C, acc := .ro }
def COR_FULL : Reg := { off := 0x330, acc := .ro }
def COR_FFLATE : Reg := { off := 0x334, acc := .ro }
def COR_PSAT : Reg := { off := 0x338, acc := .ro }
def COR_DEPOSIT : Reg := { off := 0x33C, acc := .ro }
def COR_EVT : Reg := { off := 0x340, acc := .w1c, mask := 0x7#32 }
def COR_EVT_EN : Reg := { off := 0x344, acc := .rw, mask := 0x7#32 }

/-! Registers of SERVO (R183 and R184). -/

def SRV_KP : Reg := { off := 0x100, s0 := 0x80, n0 := 24, acc := .rw }
def SRV_KI : Reg := { off := 0x104, s0 := 0x80, n0 := 24, acc := .rw }
def SRV_KD : Reg := { off := 0x108, s0 := 0x80, n0 := 24, acc := .rw }
def SRV_KV : Reg := { off := 0x10C, s0 := 0x80, n0 := 24, acc := .rw }
def SRV_KA : Reg := { off := 0x110, s0 := 0x80, n0 := 24, acc := .rw }
def SRV_LIM : Reg := { off := 0x114, s0 := 0x80, n0 := 24, acc := .rw, rst := 0x10008000#32 }
def SRV_N1_B0 : Reg := { off := 0x118, s0 := 0x80, n0 := 24, acc := .rw, rst := 0x40000000#32 }
def SRV_N1 : Reg := { off := 0x11C, s0 := 0x80, n0 := 24, s1 := 0x4, n1 := 4, acc := .rw }
def SRV_N2_B0 : Reg := { off := 0x12C, s0 := 0x80, n0 := 24, acc := .rw, rst := 0x40000000#32 }
def SRV_N2 : Reg := { off := 0x130, s0 := 0x80, n0 := 24, s1 := 0x4, n1 := 4, acc := .rw }
def SRV_FB_GAIN : Reg := { off := 0x140, s0 := 0x80, n0 := 24, acc := .rw, rst := 0x1000000#32 }
def SRV_FB_OFS : Reg := { off := 0x144, s0 := 0x80, n0 := 24, acc := .rw, mask := 0xFFFFFF#32 }
def SRV_FE_MAX : Reg := { off := 0x148, s0 := 0x80, n0 := 24, acc := .rw }
def SRV_TICKS : Reg := { off := 0x14C, s0 := 0x80, n0 := 24, acc := .rw, rst := 0x640010#32 }
def SRV_CCTL : Reg := { off := 0x150, s0 := 0x80, n0 := 24, acc := .rw, rst := 0x8#32, mask := 0xF#32 }
def SRV_CSTAT : Reg := { off := 0x154, s0 := 0x80, n0 := 24, acc := .ro }
def SRV_POS : Reg := { off := 0x158, s0 := 0x80, n0 := 24, acc := .ro }
def SRV_ERR : Reg := { off := 0x15C, s0 := 0x80, n0 := 24, acc := .ro }
def SRV_CMD : Reg := { off := 0x160, s0 := 0x80, n0 := 24, acc := .ro }
def SRV_BADCNT : Reg := { off := 0x164, s0 := 0x80, n0 := 24, acc := .rc }
def SRV_LATECNT : Reg := { off := 0x168, s0 := 0x80, n0 := 24, acc := .rc }
def SRV_TRANSCNT : Reg := { off := 0x16C, s0 := 0x80, n0 := 24, acc := .rc }
def SRV_LASTCNT : Reg := { off := 0x170, s0 := 0x80, n0 := 24, acc := .rc }
def SRV_SATCNT : Reg := { off := 0x174, s0 := 0x80, n0 := 24, acc := .rc }
def SRV_INTEG : Reg := { off := 0x178, s0 := 0x80, n0 := 24, acc := .ro }
def SRV_BCTL : Reg := { off := 0xD00, acc := .rw, rst := 0x10#32, mask := 0x1F#32, lims := [⟨4, 0, 1, 31⟩] }
def SRV_APPLY : Reg := { off := 0xD04, acc := .wo }
def SRV_LINK_LAT : Reg := { off := 0xD08, s0 := 0x4, n0 := 4, acc := .ro }
def SRV_EVT : Reg := { off := 0xD18, acc := .w1c, mask := 0xFFFFFF#32 }
def SRV_EVT_EN : Reg := { off := 0xD1C, acc := .rw, mask := 0xFFFFFF#32 }
def SRV_TUNE_STEP : Reg := { off := 0xD20, acc := .rw }
def SRV_TUNE_LEN : Reg := { off := 0xD24, acc := .rw, rst := 0x7D0#32, mask := 0xFFFF#32 }
def SRV_TUNE_F0 : Reg := { off := 0xD28, acc := .rw, rst := 0x64#32 }
def SRV_TUNE_F1 : Reg := { off := 0xD2C, acc := .rw, rst := 0x4E20#32 }
def SRV_TUNE_AMP : Reg := { off := 0xD30, acc := .rw, rst := 0xCCD#32, mask := 0xFFFF#32 }
def SRV_TUNE_CHIRP : Reg := { off := 0xD34, acc := .rw, rst := 0xC#32, mask := 0xFFFF#32 }
def SRV_TUNE_PTS : Reg := { off := 0xD38, acc := .rw, rst := 0x40#32, mask := 0x1FF#32 }
def SRV_TUNE_ADDR_LO : Reg := { off := 0xD3C, acc := .rw, mask := 0xFFFFFFC0#32 }
def SRV_TUNE_ADDR_HI : Reg := { off := 0xD40, acc := .rw }

/-! Registers of PLYARB (R216). -/

def PLY_CTL : Reg := { off := 0x100, acc := .rw, rst := 0x1#32, mask := 0x3#32 }
def PLY_STAT : Reg := { off := 0x104, acc := .ro }
def PLY_GAS_DIR : Reg := { off := 0x108, acc := .rw, lims := [⟨31, 0, 0, 6283184⟩] }
def PLY_EXCL_DIST : Reg := { off := 0x10C, acc := .rw, rst := 0x1312D00#32 }
def PLY_EXCL_HALF : Reg := { off := 0x110, acc := .rw, rst := 0x2A9C5#32, lims := [⟨31, 0, 0, 1396263⟩] }
def PLY_BOX_MARGIN : Reg := { off := 0x114, acc := .rw, rst := 0xC350#32 }
def PLY_LINGER : Reg := { off := 0x118, acc := .rw, mask := 0xFFFF#32 }
def PLY_ITEM_AGE : Reg := { off := 0x11C, acc := .rw, rst := 0x2710#32 }
def PLY_VEC_US : Reg := { off := 0x120, acc := .rw, rst := 0x14#32, mask := 0xFFFF#32 }
def PLY_JUMP_V : Reg := { off := 0x124, acc := .rw, rst := 0x989680#32 }
def PLY_MARGIN : Reg := { off := 0x128, acc := .rw, rst := 0x64#32 }
def PLY_GRANTS : Reg := { off := 0x130, acc := .ro }
def PLY_FREE_GR : Reg := { off := 0x134, acc := .ro }
def PLY_TOKEN_GR : Reg := { off := 0x138, acc := .ro }
def PLY_VIOL : Reg := { off := 0x13C, acc := .ro }
def PLY_REPLIED : Reg := { off := 0x140, acc := .ro }
def PLY_UNEXEC : Reg := { off := 0x144, acc := .ro }
def PLY_LAST_VIOL : Reg := { off := 0x148, acc := .ro }
def PLY_EVT : Reg := { off := 0x14C, acc := .w1c, mask := 0x3F#32 }
def PLY_EVT_EN : Reg := { off := 0x150, acc := .rw, mask := 0x3F#32 }
def PLY_HEAD : Reg := { off := 0x200, s0 := 0x4, n0 := 32, acc := .ro }
def PLY_REM : Reg := { off := 0x280, s0 := 0x4, n0 := 32, acc := .ro }
def PLY_BOX : Reg := { off := 0x400, s0 := 0x10, n0 := 32, s1 := 0x4, n1 := 4, acc := .ro }

/-! Registers of PLYAGT (R219). -/

def AGT_STAT : Reg := { off := 0x100, s0 := 0x20, n0 := 4, acc := .ro }
def AGT_ITEM_ID : Reg := { off := 0x104, s0 := 0x20, n0 := 4, acc := .ro }
def AGT_ITEM_REC : Reg := { off := 0x108, s0 := 0x20, n0 := 4, acc := .ro }
def AGT_TAKEN : Reg := { off := 0x10C, s0 := 0x20, n0 := 4, acc := .ro }
def AGT_RETURNED : Reg := { off := 0x110, s0 := 0x20, n0 := 4, acc := .ro }
def AGT_CLRWAIT_US : Reg := { off := 0x114, s0 := 0x20, n0 := 4, acc := .ro }
def AGT_EXTREF : Reg := { off := 0x118, s0 := 0x20, n0 := 4, acc := .ro }

/-! Registers of MPV (R248). -/

def MPV_CTL : Reg := { off := 0x100, acc := .rw, rst := 0x2#32, mask := 0x1FF#32 }
def MPV_STAT : Reg := { off := 0x104, acc := .ro }
def MPV_GUEST : Reg := { off := 0x108, acc := .rw, mask := 0x13#32 }
def MPV_CAM_DLY : Reg := { off := 0x10C, acc := .rw, mask := 0x3#32 }
def MPV_SHD_EXP : Reg := { off := 0x110, acc := .rw, rst := 0x7D0#32 }
def MPV_SHD_GAIN : Reg := { off := 0x114, acc := .rw, rst := 0x100#32, mask := 0xFFFF#32 }
def MPV_SHD_ROI : Reg := { off := 0x118, acc := .rw, rst := 0x40400000#32 }
def MPV_SHD_TIMING : Reg := { off := 0x11C, acc := .rw, rst := 0xA#32, mask := 0xFFFF#32 }
def MPV_SHD_PHASE : Reg := { off := 0x120, acc := .rw, mask := 0x3FFFFFF#32 }
def MPV_SHD_BLACK : Reg := { off := 0x124, s0 := 0x4, n0 := 4, acc := .rw, mask := 0xFFF#32 }
def MPV_SET_CMD : Reg := { off := 0x134, acc := .wo }
def MPV_SET_STAT : Reg := { off := 0x138, acc := .ro }
def MPV_RT_MIN : Reg := { off := 0x13C, acc := .rw, rst := 0x400#32, mask := 0xFFFF#32 }
def MPV_PIX_NM : Reg := { off := 0x140, acc := .rw, rst := 0x2710#32 }
def MPV_AXIS : Reg := { off := 0x144, acc := .rw, rst := 0x2000200#32 }
def MPV_CAM_ROT : Reg := { off := 0x148, acc := .rw, mask := 0x807FFFFF#32, lims := [⟨22, 0, 0, 6283184⟩] }
def MPV_ARC_CROP : Reg := { off := 0x14C, acc := .rw }
def MPV_THUMB_BIN : Reg := { off := 0x150, acc := .rw, mask := 0x3#32, lims := [⟨1, 0, 0, 2⟩] }
def MPV_CAL_ADDR_LO : Reg := { off := 0x158, acc := .rw, mask := 0xFFFFFFC0#32 }
def MPV_CAL_ADDR_HI : Reg := { off := 0x15C, acc := .rw }
def MPV_FRAMES : Reg := { off := 0x160, acc := .ro }
def MPV_BADFRM : Reg := { off := 0x164, acc := .ro }
def MPV_GAPCNT : Reg := { off := 0x168, acc := .ro }
def MPV_GUESTDROP : Reg := { off := 0x16C, acc := .ro }
def MPV_SIDMISM : Reg := { off := 0x170, acc := .ro }
def MPV_ARCDROP : Reg := { off := 0x174, acc := .ro }
def MPV_SLUBS : Reg := { off := 0x178, acc := .ro }
def MPV_SLUBLOST : Reg := { off := 0x17C, acc := .ro }
def MPV_RING_BASE_LO : Reg := { off := 0x180, s0 := 0x10, n0 := 4, acc := .rw, mask := 0xFFFFFFC0#32 }
def MPV_RING_BASE_HI : Reg := { off := 0x184, s0 := 0x10, n0 := 4, acc := .rw }
def MPV_RING_CFG : Reg := { off := 0x188, s0 := 0x10, n0 := 4, acc := .rw, rst := 0xC04#32, mask := 0xFF1F1F#32, lims := [⟨4, 0, 4, 20⟩, ⟨12, 8, 12, 16⟩] }
def MPV_RING_WR : Reg := { off := 0x18C, s0 := 0x10, n0 := 4, acc := .ro }
def MPV_NOPOS : Reg := { off := 0x1C0, acc := .ro }
def MPV_PYRO : Reg := { off := 0x1C4, acc := .ro }
def MPV_EVT : Reg := { off := 0x1C8, acc := .w1c, mask := 0x3F#32 }
def MPV_EVT_EN : Reg := { off := 0x1CC, acc := .rw, mask := 0x3F#32 }
def MPV_LAST_FEAT : Reg := { off := 0x1E0, s0 := 0x4, n0 := 8, acc := .ro }

/-! Registers of LATTICE (R275). -/

def LAT_CTL : Reg := { off := 0x100, acc := .rw, rst := 0x3#32, mask := 0xF03#32 }
def LAT_STAT : Reg := { off := 0x104, acc := .ro, rst := 0x800#32 }
def LAT_PERIOD : Reg := { off := 0x108, acc := .rw, rst := 0xC350#32, lims := [⟨31, 0, 20000, 200000⟩] }
def LAT_ORIGIN_X : Reg := { off := 0x10C, acc := .rw }
def LAT_ORIGIN_Y : Reg := { off := 0x110, acc := .rw }
def LAT_PITCH : Reg := { off := 0x114, acc := .rw, rst := 0x1DCD65#32, lims := [⟨31, 0, 1000, 1953125⟩] }
def LAT_TBASE : Reg := { off := 0x118, acc := .rw, rst := 0x7283#32, mask := 0xFFFFF#32 }
def LAT_TPOWDER : Reg := { off := 0x11C, acc := .rw, rst := 0x7283#32, mask := 0xFFFFF#32 }
def LAT_RECOAT_MIX : Reg := { off := 0x120, acc := .rw, mask := 0xFFFF#32 }
def LAT_HOT : Reg := { off := 0x124, acc := .rw, mask := 0xFFFFF#32 }
def LAT_HOT_TILE : Reg := { off := 0x128, acc := .ro }
def LAT_TICKS : Reg := { off := 0x12C, acc := .ro }
def LAT_OVERRUN : Reg := { off := 0x130, acc := .ro }
def LAT_DEPOSITS : Reg := { off := 0x134, acc := .ro }
def LAT_DEPLOST : Reg := { off := 0x138, acc := .ro }
def LAT_MATERR : Reg := { off := 0x13C, acc := .ro }
def LAT_CLAMPS : Reg := { off := 0x140, acc := .ro }
def LAT_RECOAT_MS : Reg := { off := 0x144, acc := .ro }
def LAT_EVT : Reg := { off := 0x148, acc := .w1c, mask := 0xF#32 }
def LAT_EVT_EN : Reg := { off := 0x14C, acc := .rw, mask := 0xF#32 }
def LAT_OP_ADDR_LO : Reg := { off := 0x150, acc := .rw, mask := 0xFFFFFFC0#32 }
def LAT_OP_ADDR_HI : Reg := { off := 0x154, acc := .rw }
def LAT_OP_RECT0 : Reg := { off := 0x158, acc := .rw, mask := 0x1FF01FF#32 }
def LAT_OP_RECT1 : Reg := { off := 0x15C, acc := .rw, rst := 0x2000200#32, mask := 0x3FF03FF#32 }
def LAT_INIT_TEMP : Reg := { off := 0x160, acc := .rw, rst := 0x7283#32, mask := 0xFFFFF#32 }
def LAT_MAT_D : Reg := { off := 0x200, s0 := 0x10, n0 := 16, acc := .rw, mask := 0xFFFF#32, lims := [⟨15, 0, 0, 15359⟩] }
def LAT_MAT_C : Reg := { off := 0x204, s0 := 0x10, n0 := 16, acc := .rw, mask := 0xFFFF#32, lims := [⟨15, 0, 0, 4096⟩] }
def LAT_MAT_H : Reg := { off := 0x208, s0 := 0x10, n0 := 16, acc := .rw }
def LAT_MAT_TAU : Reg := { off := 0x20C, s0 := 0x10, n0 := 16, acc := .rw }

/-! Registers of LPIPE (R295). -/

def LPIPE_CTL : Reg := { off := 0x100, acc := .rw, mask := 0x1F#32, lims := [⟨4, 2, 0, 4⟩] }
def LPIPE_STAT : Reg := { off := 0x104, acc := .ro }
def LPIPE_BIND : Reg := { off := 0x108, acc := .rw, mask := 0x3#32 }
def LPIPE_CMD : Reg := { off := 0x10C, acc := .wo }
def LPIPE_BLACK : Reg := { off := 0x110, acc := .rw, mask := 0xFFF#32 }
def LPIPE_RC_CTL : Reg := { off := 0x114, acc := .rw, mask := 0xFFFF0003#32 }
def LPIPE_RC_RECT0 : Reg := { off := 0x118, acc := .rw }
def LPIPE_RC_RECT1 : Reg := { off := 0x11C, acc := .rw }
def LPIPE_STREAK : Reg := { off := 0x120, acc := .rw, rst := 0x820#32, mask := 0xFFFF#32 }
def LPIPE_SHORT : Reg := { off := 0x124, acc := .rw, rst := 0xC0#32, mask := 0xFF#32 }
def LPIPE_SPOT : Reg := { off := 0x128, acc := .rw }
def LPIPE_CLAIM_ERR : Reg := { off := 0x12C, acc := .ro }
def LPIPE_RING_BASE_LO : Reg := { off := 0x140, s0 := 0x10, n0 := 2, acc := .rw, mask := 0xFFFFFFC0#32 }
def LPIPE_RING_BASE_HI : Reg := { off := 0x144, s0 := 0x10, n0 := 2, acc := .rw }
def LPIPE_RING_CFG : Reg := { off := 0x148, s0 := 0x10, n0 := 2, acc := .rw, rst := 0xC04#32, mask := 0xFF1F1F#32, lims := [⟨4, 0, 4, 20⟩, ⟨12, 8, 12, 26⟩] }
def LPIPE_RING_WR : Reg := { off := 0x14C, s0 := 0x10, n0 := 2, acc := .ro }
def LPIPE_FRAMES : Reg := { off := 0x160, acc := .ro }
def LPIPE_BADFRM : Reg := { off := 0x164, acc := .ro }
def LPIPE_CHECKS : Reg := { off := 0x168, acc := .ro }
def LPIPE_FAILS : Reg := { off := 0x16C, acc := .ro }
def LPIPE_ARCDROP : Reg := { off := 0x170, acc := .ro }
def LPIPE_EVT : Reg := { off := 0x178, acc := .w1c, mask := 0x1F#32 }
def LPIPE_EVT_EN : Reg := { off := 0x17C, acc := .rw, mask := 0x1F#32 }
def LPIPE_LAST_REC : Reg := { off := 0x180, s0 := 0x4, n0 := 16, acc := .ro }
def LPIPE_WIN_RECT0 : Reg := { off := 0x200, s0 := 0x8, n0 := 16, acc := .rw }
def LPIPE_WIN_RECT1 : Reg := { off := 0x204, s0 := 0x8, n0 := 16, acc := .rw }
def LPIPE_WSTAT_R : Reg := { off := 0x300, s0 := 0x10, n0 := 16, acc := .ro }
def LPIPE_WSTAT_G : Reg := { off := 0x304, s0 := 0x10, n0 := 16, acc := .ro }
def LPIPE_WSTAT_B : Reg := { off := 0x308, s0 := 0x10, n0 := 16, acc := .ro }
def LPIPE_WSTAT_SATCNT : Reg := { off := 0x30C, s0 := 0x10, n0 := 16, acc := .ro }

/-! Registers of CSIRX (R296). -/

def CSI_CTL : Reg := { off := 0x100, acc := .rw, rst := 0x4#32, mask := 0x7#32, lims := [⟨2, 1, 0, 2⟩] }
def CSI_STAT : Reg := { off := 0x104, acc := .ro }
def CSI_RATE : Reg := { off := 0x108, acc := .rw, rst := 0x9C4#32, mask := 0xFFF#32, lims := [⟨11, 0, 80, 2500⟩] }
def CSI_VC_CFG : Reg := { off := 0x110, s0 := 0x8, n0 := 4, acc := .rw, mask := 0xFFF1FF#32 }
def CSI_VC_FRAMES : Reg := { off := 0x114, s0 := 0x8, n0 := 4, acc := .ro }
def CSI_VC_LINES : Reg := { off := 0x130, s0 := 0x4, n0 := 4, acc := .rw, mask := 0xFFFF#32 }
def CSI_ECCFIX : Reg := { off := 0x140, acc := .ro }
def CSI_HDRERR : Reg := { off := 0x144, acc := .ro }
def CSI_CRCERR : Reg := { off := 0x148, acc := .ro }
def CSI_DISCARD : Reg := { off := 0x14C, acc := .ro }

/-! Registers of LIGHT (R297). -/

def LGT_CFG : Reg := { off := 0x100, s0 := 0x40, n0 := 4, acc := .rw, rst := 0x1080#32, mask := 0x3F3FFF#32, lims := [⟨11, 8, 0, 8⟩] }
def LGT_PWM_NS : Reg := { off := 0x104, s0 := 0x40, n0 := 4, acc := .rw, rst := 0xC350#32 }
def LGT_DIAGWIN : Reg := { off := 0x108, s0 := 0x40, n0 := 4, acc := .rw, rst := 0x7D0#32, mask := 0xFFFF#32 }
def LGT_REFRESH : Reg := { off := 0x10C, s0 := 0x40, n0 := 4, acc := .rw, rst := 0x64#32, mask := 0xFFFF#32 }
def LGT_DIAG : Reg := { off := 0x110, s0 := 0x40, n0 := 4, acc := .rw }
def LGT_FB : Reg := { off := 0x114, s0 := 0x40, n0 := 4, acc := .rw }
def LGT_FB_TGT_R : Reg := { off := 0x118, s0 := 0x40, n0 := 4, acc := .rw, mask := 0xFFFFF#32 }
def LGT_FB_TGT_G : Reg := { off := 0x11C, s0 := 0x40, n0 := 4, acc := .rw, mask := 0xFFFFF#32 }
def LGT_FB_TGT_B : Reg := { off := 0x120, s0 := 0x40, n0 := 4, acc := .rw, mask := 0xFFFFF#32 }
def LGT_SCALE0 : Reg := { off := 0x124, s0 := 0x40, n0 := 4, acc := .ro, rst := 0x80008000#32 }
def LGT_SCALE1 : Reg := { off := 0x128, s0 := 0x40, n0 := 4, acc := .ro, rst := 0x80008000#32 }
def LGT_STAT : Reg := { off := 0x12C, s0 := 0x40, n0 := 4, acc := .ro }
def LGT_CLAIM_ERR : Reg := { off := 0x130, s0 := 0x40, n0 := 4, acc := .ro }
def LGT_FRAMES : Reg := { off := 0x134, s0 := 0x40, n0 := 4, acc := .ro }
def LGT_EVT : Reg := { off := 0x138, s0 := 0x40, n0 := 4, acc := .w1c, mask := 0x3F#32 }
def LGT_EVT_EN : Reg := { off := 0x13C, s0 := 0x40, n0 := 4, acc := .rw, mask := 0x3F#32 }
def LGT_CMD : Reg := { off := 0x200, acc := .wo }
def LGT_FBSKIP : Reg := { off := 0x204, acc := .ro }
def LGT_DUTY : Reg := { off := 0x400, s0 := 0x200, n0 := 4, s1 := 0x4, n1 := 128, acc := .rw }
def LGT_STATE : Reg := { off := 0xC00, s0 := 0x40, n0 := 4, s1 := 0x4, n1 := 16, acc := .ro, rst := 0xFFFFFFFF#32 }

/-! Registers of LANE (R326). -/

def LANE_CTL : Reg := { off := 0x100, acc := .rw, rst := 0x205#32, mask := 0x31F#32, lims := [⟨2, 1, 0, 2⟩, ⟨4, 3, 0, 2⟩] }
def LANE_STAT : Reg := { off := 0x104, acc := .ro }
def LANE_CMD : Reg := { off := 0x108, acc := .wo }
def LANE_RT_CTL : Reg := { off := 0x10C, acc := .rw, rst := 0x310#32, mask := 0xFFF#32, lims := [⟨11, 8, 1, 15⟩] }
def LANE_TRAIN_BITS : Reg := { off := 0x110, acc := .rw, rst := 0x1B#32, mask := 0x3F#32, lims := [⟨5, 0, 20, 34⟩] }
def LANE_LAT : Reg := { off := 0x114, acc := .ro }
def LANE_CRCERR : Reg := { off := 0x118, acc := .ro }
def LANE_CREDVIOL : Reg := { off := 0x11C, acc := .ro }
def LANE_RETRAINS : Reg := { off := 0x120, acc := .ro }
def LANE_ARRIVALS : Reg := { off := 0x124, acc := .ro }
def LANE_DEPARTURES : Reg := { off := 0x128, acc := .ro }
def LANE_DROP : Reg := { off := 0x12C, acc := .ro }
def LANE_PRESET0 : Reg := { off := 0x130, acc := .rw, rst := 0x3F0#32, mask := 0x7FFF#32 }
def LANE_PRESET1 : Reg := { off := 0x134, acc := .rw, rst := 0x13B0#32, mask := 0x7FFF#32 }
def LANE_PRESET2 : Reg := { off := 0x138, acc := .rw, rst := 0x2370#32, mask := 0x7FFF#32 }
def LANE_PRESET3 : Reg := { off := 0x13C, acc := .rw, rst := 0x3330#32, mask := 0x7FFF#32 }
def LANE_PRESET4 : Reg := { off := 0x140, acc := .rw, rst := 0x42F0#32, mask := 0x7FFF#32 }
def LANE_PRESET5 : Reg := { off := 0x144, acc := .rw, rst := 0x52B0#32, mask := 0x7FFF#32 }
def LANE_PRESET6 : Reg := { off := 0x148, acc := .rw, rst := 0x6270#32, mask := 0x7FFF#32 }
def LANE_PRESET7 : Reg := { off := 0x14C, acc := .rw, rst := 0x7230#32, mask := 0x7FFF#32 }
def LANE_PAT_CTL : Reg := { off := 0x150, acc := .rw, rst := 0x103#32, mask := 0x3FF07#32 }
def LANE_PAT_LEN : Reg := { off := 0x154, acc := .rw, rst := 0x400#32 }
def LANE_INJCNT : Reg := { off := 0x158, acc := .ro }
def LANE_DESC : Reg := { off := 0x160, s0 := 0x4, n0 := 16, acc := .ro }
def LANE_SERIAL_LAST : Reg := { off := 0x1A0, s0 := 0x4, n0 := 4, acc := .ro }
def LANE_EVT : Reg := { off := 0x1B0, acc := .w1c, mask := 0x7F#32 }
def LANE_EVT_EN : Reg := { off := 0x1B4, acc := .rw, mask := 0x7F#32 }
def LANE_CREDIT : Reg := { off := 0x1B8, acc := .ro }

/-! Registers of MSPIN (R357 and R358). -/

def MSP_KP : Reg := { off := 0x100, s0 := 0x100, n0 := 8, acc := .rw }
def MSP_KI : Reg := { off := 0x104, s0 := 0x100, n0 := 8, acc := .rw }
def MSP_KD : Reg := { off := 0x108, s0 := 0x100, n0 := 8, acc := .rw }
def MSP_KV : Reg := { off := 0x10C, s0 := 0x100, n0 := 8, acc := .rw }
def MSP_KA : Reg := { off := 0x110, s0 := 0x100, n0 := 8, acc := .rw }
def MSP_LIM : Reg := { off := 0x114, s0 := 0x100, n0 := 8, acc := .rw, rst := 0x10008000#32 }
def MSP_N1_B0 : Reg := { off := 0x118, s0 := 0x100, n0 := 8, acc := .rw, rst := 0x40000000#32 }
def MSP_N1 : Reg := { off := 0x11C, s0 := 0x100, n0 := 8, s1 := 0x4, n1 := 4, acc := .rw }
def MSP_N2_B0 : Reg := { off := 0x12C, s0 := 0x100, n0 := 8, acc := .rw, rst := 0x40000000#32 }
def MSP_N2 : Reg := { off := 0x130, s0 := 0x100, n0 := 8, s1 := 0x4, n1 := 4, acc := .rw }
def MSP_FB_GAIN : Reg := { off := 0x140, s0 := 0x100, n0 := 8, acc := .rw, rst := 0x1000000#32 }
def MSP_FB_OFS : Reg := { off := 0x144, s0 := 0x100, n0 := 8, acc := .rw, mask := 0#32 }
def MSP_FE_MAX : Reg := { off := 0x148, s0 := 0x100, n0 := 8, acc := .rw }
def MSP_TICKS : Reg := { off := 0x14C, s0 := 0x100, n0 := 8, acc := .rw, rst := 0x640010#32 }
def MSP_CCTL : Reg := { off := 0x150, s0 := 0x100, n0 := 8, acc := .rw, rst := 0x8#32, mask := 0xF#32 }
def MSP_CFG : Reg := { off := 0x158, s0 := 0x100, n0 := 8, acc := .rw, mask := 0xF7#32 }
def MSP_STAT : Reg := { off := 0x15C, s0 := 0x100, n0 := 8, acc := .ro, rst := 0x20#32 }
def MSP_CMD : Reg := { off := 0x160, s0 := 0x100, n0 := 8, acc := .wo }
def MSP_POS : Reg := { off := 0x164, s0 := 0x100, n0 := 8, acc := .ro }
def MSP_SETP : Reg := { off := 0x168, s0 := 0x100, n0 := 8, acc := .ro }
def MSP_SPEED : Reg := { off := 0x16C, s0 := 0x100, n0 := 8, acc := .ro }
def MSP_TARGET : Reg := { off := 0x170, s0 := 0x100, n0 := 8, acc := .wo }
def MSP_VS : Reg := { off := 0x174, s0 := 0x100, n0 := 8, acc := .rw }
def MSP_VB : Reg := { off := 0x178, s0 := 0x100, n0 := 8, acc := .rw, rst := 0x2710#32 }
def MSP_VM : Reg := { off := 0x17C, s0 := 0x100, n0 := 8, acc := .rw, rst := 0x2710#32 }
def MSP_VE : Reg := { off := 0x180, s0 := 0x100, n0 := 8, acc := .rw }
def MSP_A1 : Reg := { off := 0x184, s0 := 0x100, n0 := 8, acc := .rw, rst := 0x186A0#32 }
def MSP_A2 : Reg := { off := 0x188, s0 := 0x100, n0 := 8, acc := .rw, rst := 0x186A0#32 }
def MSP_D1 : Reg := { off := 0x18C, s0 := 0x100, n0 := 8, acc := .rw, rst := 0x186A0#32 }
def MSP_D2 : Reg := { off := 0x190, s0 := 0x100, n0 := 8, acc := .rw, rst := 0x186A0#32 }
def MSP_QSTOP : Reg := { off := 0x194, s0 := 0x100, n0 := 8, acc := .rw, rst := 0xF4240#32, lims := [⟨31, 0, 1, 4294967295⟩] }
def MSP_SPD_CFG : Reg := { off := 0x198, s0 := 0x100, n0 := 8, acc := .rw, rst := 0x20100064#32 }
def MSP_STILL_US : Reg := { off := 0x19C, s0 := 0x100, n0 := 8, acc := .rw, rst := 0xC350#32 }
def MSP_IN_CFG : Reg := { off := 0x1A0, s0 := 0x100, n0 := 8, acc := .rw, rst := 0x5#32, mask := 0x3FFF#32 }
def MSP_HOME_CFG : Reg := { off := 0x1A4, s0 := 0x100, n0 := 8, acc := .rw, mask := 0x7#32, lims := [⟨1, 0, 0, 2⟩] }
def MSP_HOME_SPD : Reg := { off := 0x1A8, s0 := 0x100, n0 := 8, acc := .rw, rst := 0x3E8#32 }
def MSP_HOME_MAX : Reg := { off := 0x1AC, s0 := 0x100, n0 := 8, acc := .rw, rst := 0x7FFFFFFF#32 }
def MSP_HOME_OFS : Reg := { off := 0x1B0, s0 := 0x100, n0 := 8, acc := .rw }
def MSP_HOME_STAT : Reg := { off := 0x1B4, s0 := 0x100, n0 := 8, acc := .ro }
def MSP_LATCH : Reg := { off := 0x1B8, s0 := 0x100, n0 := 8, acc := .ro }
def MSP_CMP_CTL : Reg := { off := 0x1BC, s0 := 0x100, n0 := 8, acc := .rw, mask := 0x3F7#32 }
def MSP_CMP_PW : Reg := { off := 0x1C0, s0 := 0x100, n0 := 8, acc := .rw, rst := 0x3E8#32, mask := 0xFFFF#32, lims := [⟨15, 0, 10, 65535⟩] }
def MSP_CMP_PERIOD : Reg := { off := 0x1C4, s0 := 0x100, n0 := 8, acc := .rw }
def MSP_CMP_LEN : Reg := { off := 0x1C8, s0 := 0x100, n0 := 8, acc := .rw, rst := 0x1#32, mask := 0x7FF#32 }
def MSP_CMP_ADDR_LO : Reg := { off := 0x1CC, s0 := 0x100, n0 := 8, acc := .rw, mask := 0xFFFFFFF8#32 }
def MSP_CMP_ADDR_HI : Reg := { off := 0x1D0, s0 := 0x100, n0 := 8, acc := .rw }
def MSP_CMP_IDX : Reg := { off := 0x1D4, s0 := 0x100, n0 := 8, acc := .ro }
def MSP_CMP_CNT : Reg := { off := 0x1D8, s0 := 0x100, n0 := 8, acc := .ro }
def MSP_CMP_LATE : Reg := { off := 0x1DC, s0 := 0x100, n0 := 8, acc := .ro }
def MSP_CMP_MERGE : Reg := { off := 0x1E0, s0 := 0x100, n0 := 8, acc := .ro }
def MSP_QERR : Reg := { off := 0x1E4, s0 := 0x100, n0 := 8, acc := .ro }
def MSP_HERR : Reg := { off := 0x1E8, s0 := 0x100, n0 := 8, acc := .ro }
def MSP_BADCNT : Reg := { off := 0x1EC, s0 := 0x100, n0 := 8, acc := .ro }
def MSP_STEPIN : Reg := { off := 0x1F0, s0 := 0x100, n0 := 8, acc := .rw, rst := 0x3E80001#32 }
def MSP_CLAIM_ERR : Reg := { off := 0x1F4, s0 := 0x100, n0 := 8, acc := .ro }
def MSP_EVT : Reg := { off := 0x1F8, s0 := 0x100, n0 := 8, acc := .w1c, mask := 0x7F#32 }
def MSP_MISC : Reg := { off := 0x1FC, s0 := 0x100, n0 := 8, acc := .ro }
def MSP_APPLY : Reg := { off := 0x900, acc := .wo, mask := 0xFF#32 }
def MSP_BCTL : Reg := { off := 0x904, acc := .rw, rst := 0x10#32, mask := 0x1F#32, lims := [⟨4, 0, 1, 31⟩] }

/-! Registers of MPG (R359). -/

def MPG_FILT : Reg := { off := 0x100, s0 := 0x20, n0 := 4, acc := .rw, rst := 0x3#32, mask := 0xF#32 }
def MPG_PWM_NS : Reg := { off := 0x104, s0 := 0x20, n0 := 4, acc := .rw, rst := 0xC350#32, lims := [⟨31, 0, 1000, 1000000⟩] }
def MPG_STEP_NS : Reg := { off := 0x108, s0 := 0x20, n0 := 4, acc := .rw, rst := 0xC8#32, mask := 0xFFFF#32, lims := [⟨15, 0, 20, 65535⟩] }
def MPG_POL : Reg := { off := 0x10C, s0 := 0x20, n0 := 4, acc := .rw, mask := 0x1F0F#32 }
def MPG_IN : Reg := { off := 0x110, s0 := 0x20, n0 := 4, acc := .ro }
def MPG_OWNER : Reg := { off := 0x114, s0 := 0x20, n0 := 4, acc := .ro }
def MPG_BISS : Reg := { off := 0x200, s0 := 0x8, n0 := 2, acc := .rw, rst := 0x40100A1A#32, mask := 0xFF3F0F3F#32, lims := [⟨5, 0, 8, 40⟩, ⟨11, 8, 1, 10⟩, ⟨21, 16, 1, 64⟩, ⟨31, 24, 1, 255⟩] }
def MPG_BISS_STAT : Reg := { off := 0x204, s0 := 0x8, n0 := 2, acc := .ro }

/-! Registers of SDC (R388). -/

def SDC_CFG : Reg := { off := 0x100, acc := .rw, rst := 0x19000001#32, mask := 0xFFFF007F#32, lims := [⟨2, 0, 1, 4⟩, ⟨31, 16, 3200, 6400⟩] }
def SDC_STAT : Reg := { off := 0x104, acc := .ro }
def SDC_RANKMAP : Reg := { off := 0x108, acc := .ro, rst := 0xE4#32 }
def SDC_REF_CTL : Reg := { off := 0x10C, acc := .rw, rst := 0x1000#32, mask := 0xFF01#32, lims := [⟨15, 8, 1, 255⟩] }
def SDC_TRFCSB : Reg := { off := 0x110, acc := .rw, rst := 0x82#32, mask := 0xFFF#32 }
def SDC_REF_OWED : Reg := { off := 0x114, acc := .ro }
def SDC_REF_FORCED : Reg := { off := 0x118, acc := .ro }
def SDC_REF_RESTATE : Reg := { off := 0x11C, acc := .ro }
def SDC_CE_CNT : Reg := { off := 0x120, acc := .ro }
def SDC_UE_CNT : Reg := { off := 0x124, acc := .ro }
def SDC_TRANS_CNT : Reg := { off := 0x128, acc := .ro }
def SDC_POISON_RD : Reg := { off := 0x12C, acc := .ro }
def SDC_ERR_ADDR_LO : Reg := { off := 0x130, acc := .ro }
def SDC_ERR_ADDR_HI : Reg := { off := 0x134, acc := .ro }
def SDC_ERR_INFO : Reg := { off := 0x138, acc := .ro }
def SDC_PANIC_CNT : Reg := { off := 0x13C, acc := .ro }
def SDC_INFLIGHT : Reg := { off := 0x140, acc := .ro }
def SDC_SCRUB : Reg := { off := 0x144, acc := .rw, rst := 0x1801#32, mask := 0xFF01#32, lims := [⟨15, 8, 1, 255⟩] }
def SDC_MIG_SHARE : Reg := { off := 0x148, acc := .rw, rst := 0x2#32, mask := 0xF#32, lims := [⟨3, 0, 1, 8⟩] }
def SDC_TRAIN : Reg := { off := 0x14C, acc := .ro }
def SDC_EVT : Reg := { off := 0x150, acc := .w1c, mask := 0x1F#32 }
def SDC_EVT_EN : Reg := { off := 0x154, acc := .rw, mask := 0x1F#32 }

/-! Registers of SRAMP (R390). -/

def SRAMP_CE_CNT : Reg := { off := 0x100, acc := .ro }
def SRAMP_UE_CNT : Reg := { off := 0x104, acc := .ro }
def SRAMP_ERR : Reg := { off := 0x108, acc := .ro }
def SRAMP_ACC_ADDR : Reg := { off := 0x10C, acc := .rw, mask := 0x1FFFFFC#32 }
def SRAMP_ACC_DATA : Reg := { off := 0x110, acc := .rw }
def SRAMP_RTP_CTL : Reg := { off := 0x114, acc := .rw, rst := 0x26#32, mask := 0xFF#32 }
def SRAMP_RTP_PANIC : Reg := { off := 0x118, acc := .ro }
def SRAMP_REPAIRED : Reg := { off := 0x11C, acc := .ro }
def SRAMP_BAD : Reg := { off := 0x120, s0 := 0x4, n0 := 12, acc := .ro }

/-! Registers of MARCH (R390). -/

def MARCH_FIRST : Reg := { off := 0x100, acc := .rw, mask := 0x1FF#32 }
def MARCH_COUNT : Reg := { off := 0x104, acc := .rw, rst := 0x180#32, mask := 0x1FF#32 }

/-! Registers of TIME (R404 and R405). -/

def TIME_CTL : Reg := { off := 0x100, acc := .rw, mask := 0x3F#32 }
def TIME_STAT : Reg := { off := 0x104, acc := .ro, rst := 0x1#32 }
def TIME_DOMAIN : Reg := { off := 0x108, acc := .rw, rst := 0x3000100#32, lims := [⟨31, 24, 2, 255⟩] }
def TIME_SEC_LO : Reg := { off := 0x10C, acc := .ro }
def TIME_SEC_HI : Reg := { off := 0x110, acc := .ro }
def TIME_NS : Reg := { off := 0x114, acc := .ro }
def TIME_SET_SEC_LO : Reg := { off := 0x118, acc := .rw }
def TIME_SET_SEC_HI : Reg := { off := 0x11C, acc := .rw }
def TIME_SET_NS : Reg := { off := 0x120, acc := .rw }
def TIME_SET_CMD : Reg := { off := 0x124, acc := .wo }
def TIME_RATE : Reg := { off := 0x128, acc := .ro }
def TIME_ADJ : Reg := { off := 0x12C, acc := .rw }
def TIME_SLEW_MAX : Reg := { off := 0x130, acc := .rw, rst := 0x30D40#32, lims := [⟨31, 0, 1, 200000⟩] }
def TIME_KP : Reg := { off := 0x134, acc := .rw, rst := 0xB333#32 }
def TIME_KI : Reg := { off := 0x138, acc := .rw, rst := 0xCCD#32 }
def TIME_OFFSET : Reg := { off := 0x13C, acc := .ro }
def TIME_PATH : Reg := { off := 0x140, acc := .ro }
def TIME_OFS_ALARM : Reg := { off := 0x144, acc := .rw, rst := 0x3E8#32 }
def TIME_UTC_OFS : Reg := { off := 0x148, acc := .ro }
def TIME_GM_ID0 : Reg := { off := 0x14C, acc := .ro }
def TIME_GM_ID1 : Reg := { off := 0x150, acc := .ro }
def TIME_CLOCK_Q : Reg := { off := 0x154, acc := .rw, rst := 0xFFFFFEF8#32 }
def TIME_PRIO : Reg := { off := 0x158, acc := .rw, rst := 0x8080#32, mask := 0xFFFF#32 }
def TIME_PORT_CFG : Reg := { off := 0x160, s0 := 0x20, n0 := 2, acc := .rw, rst := 0x2#32, mask := 0xFF03#32 }
def TIME_PORT_ING_LAT : Reg := { off := 0x164, s0 := 0x20, n0 := 2, acc := .rw, mask := 0xFFFF#32 }
def TIME_PORT_EGR_LAT : Reg := { off := 0x168, s0 := 0x20, n0 := 2, acc := .rw, mask := 0xFFFF#32 }
def TIME_PORT_IPV4 : Reg := { off := 0x16C, s0 := 0x20, n0 := 2, acc := .rw }
def TIME_PORT_SYNCS : Reg := { off := 0x170, s0 := 0x20, n0 := 2, acc := .ro }
def TIME_PORT_DROP : Reg := { off := 0x174, s0 := 0x20, n0 := 2, acc := .ro }
def TIME_PORT_STAT : Reg := { off := 0x178, s0 := 0x20, n0 := 2, acc := .ro }
def TIME_SWITCH : Reg := { off := 0x1A0, acc := .ro }
def TIME_EVT : Reg := { off := 0x1A4, acc := .w1c, mask := 0x3F#32 }
def TIME_EVT_EN : Reg := { off := 0x1A8, acc := .rw, mask := 0x3F#32 }
def TIME_CLAIM_ERR : Reg := { off := 0x1AC, acc := .ro }
def TIME_TRIG_CNT : Reg := { off := 0x300, s0 := 0x4, n0 := 8, acc := .ro }
def TIME_TRIG_CTL : Reg := { off := 0x200, s0 := 0x20, n0 := 8, acc := .rw, mask := 0xFF#32, lims := [⟨2, 1, 0, 2⟩] }
def TIME_TRIG_SEC_LO : Reg := { off := 0x204, s0 := 0x20, n0 := 8, acc := .rw }
def TIME_TRIG_SEC_HI : Reg := { off := 0x208, s0 := 0x20, n0 := 8, acc := .rw }
def TIME_TRIG_NS : Reg := { off := 0x20C, s0 := 0x20, n0 := 8, acc := .rw, lims := [⟨31, 0, 0, 999999999⟩] }
def TIME_TRIG_PERIOD : Reg := { off := 0x210, s0 := 0x20, n0 := 8, acc := .rw, rst := 0x3B9ACA00#32, lims := [⟨31, 0, 1000, 4000000000⟩] }
def TIME_TRIG_WIDTH : Reg := { off := 0x214, s0 := 0x20, n0 := 8, acc := .rw, rst := 0x3E8#32 }
def TIME_TRIG_TARGET : Reg := { off := 0x218, s0 := 0x20, n0 := 8, acc := .rw, mask := 0x3FF#32 }
def TIME_TRIG_OPCMD : Reg := { off := 0x21C, s0 := 0x20, n0 := 8, acc := .rw }

/-! Registers of FLTC (R443). -/

def FLTC_CTL : Reg := { off := 0x100, acc := .rw, rst := 0x2#32, mask := 0x3#32 }
def FLTC_STAT : Reg := { off := 0x104, acc := .ro }
def FLTC_LOST : Reg := { off := 0x108, acc := .rc }
def FLTC_POP : Reg := { off := 0x10C, acc := .wo }
def FLTC_ENT : Reg := { off := 0x110, s0 := 0x4, n0 := 4, acc := .ro }
def FLTC_ALIVE : Reg := { off := 0x120, acc := .wo }
def FLTC_WDOG : Reg := { off := 0x124, acc := .rw, mask := 0xFFFF#32 }
def FLTC_WDOG_KICK : Reg := { off := 0x128, acc := .wo }
def FLTC_STORM : Reg := { off := 0x12C, acc := .rw, rst := 0x100#32, mask := 0xFFFF#32, lims := [⟨15, 0, 1, 65535⟩] }
def FLTC_STORM_STAT : Reg := { off := 0x130, acc := .ro }
def FLTC_SHADOW_CNT : Reg := { off := 0x134, acc := .ro }
def FLTC_MSGS : Reg := { off := 0x138, acc := .ro }
def FLTC_EVDISC : Reg := { off := 0x13C, acc := .rc }
def FLTC_STORM_CNT : Reg := { off := 0x140, s0 := 0x4, n0 := 16, acc := .ro }
def FLTC_CF_CLR : Reg := { off := 0x180, acc := .wo }
def FLTC_CF_CNT : Reg := { off := 0x184, acc := .ro }
def FLTC_RFENCE : Reg := { off := 0x188, acc := .ro }
def FLTC_BIST_CTL : Reg := { off := 0x18C, acc := .rw, rst := 0xA01#32, mask := 0xFF01#32, lims := [⟨15, 8, 1, 255⟩] }
def FLTC_BIST_SRC : Reg := { off := 0x190, acc := .ro }
def FLTC_BIST_ADDR : Reg := { off := 0x194, acc := .ro }
def FLTC_BIST_FAILS : Reg := { off := 0x198, acc := .ro }
def FLTC_BIST_REPAIRS : Reg := { off := 0x19C, acc := .ro }
def FLTC_CF : Reg := { off := 0x200, s0 := 0x4, n0 := 64, acc := .ro }
def FLTC_ARM_KINDS : Reg := { off := 0x400, s0 := 0x8, n0 := 26, acc := .rw }
def FLTC_ARM_EXT : Reg := { off := 0x404, s0 := 0x8, n0 := 26, acc := .rw, mask := 0x107#32 }

/-! Registers of THERM (R457). -/

def THERM_CTL : Reg := { off := 0x100, acc := .rw, rst := 0x200#32, mask := 0xF01#32, lims := [⟨11, 8, 1, 7⟩] }
def THERM_STAT : Reg := { off := 0x104, acc := .ro, rst := 0x8#32 }
def THERM_GRACE : Reg := { off := 0x108, acc := .rw, rst := 0x1F4#32, mask := 0xFFFF#32 }
def THERM_STEP : Reg := { off := 0x10C, acc := .rw, rst := 0x64#32, mask := 0xFFFF#32, lims := [⟨15, 0, 10, 65535⟩] }
def THERM_ADMIT : Reg := { off := 0x110, acc := .rw, rst := 0x8#32, mask := 0x3F#32, lims := [⟨5, 0, 1, 32⟩] }
def THERM_ADM_WAITS : Reg := { off := 0x114, acc := .ro }
def THERM_ADM_MAXUS : Reg := { off := 0x118, acc := .ro }
def THERM_WAKE_GAP : Reg := { off := 0x11C, acc := .rw, rst := 0x2#32, mask := 0xF#32, lims := [⟨3, 0, 2, 8⟩] }
def THERM_MAX : Reg := { off := 0x120, acc := .ro }
def THERM_EVT : Reg := { off := 0x124, acc := .w1c, mask := 0x3F#32 }
def THERM_EVT_EN : Reg := { off := 0x128, acc := .rw, mask := 0x3F#32 }
def THERM_SNS : Reg := { off := 0x200, s0 := 0x4, n0 := 64, acc := .ro }
def THERM_SNS_THR : Reg := { off := 0x400, s0 := 0x4, n0 := 64, acc := .rw, rst := 0x57D6E64#32 }

/-! Registers of AON (R459). -/

def AON_STAT : Reg := { off := 0x100, acc := .rw, rst := 0x4#32, mask := 0x4#32 }
def AON_CMD : Reg := { off := 0x104, acc := .wo }
def AON_SD_CNT : Reg := { off := 0x108, acc := .ro }
def AON_SD : Reg := { off := 0x110, s0 := 0x4, n0 := 4, acc := .ro }
def AON_SDL : Reg := { off := 0x120, s0 := 0x4, n0 := 4, acc := .ro }

/-! Registers of BCHG (R473). -/

def BCHG_CTL : Reg := { off := 0x100, acc := .rw, rst := 0x1#32, mask := 0x1#32 }
def BCHG_STAT : Reg := { off := 0x104, acc := .ro, rst := 0x4#32 }
def BCHG_MAP : Reg := { off := 0x108, acc := .ro, rst := 0x688#32 }
def BCHG_DTEMP : Reg := { off := 0x10C, acc := .rw, rst := 0x14#32, mask := 0xFF#32, lims := [⟨7, 0, 1, 255⟩] }
def BCHG_TLAST : Reg := { off := 0x110, acc := .ro }
def BCHG_TIMEOUT : Reg := { off := 0x114, acc := .rw, rst := 0x4E20#32, mask := 0xFFFF#32, lims := [⟨15, 0, 1000, 65535⟩] }
def BCHG_TRACK : Reg := { off := 0x118, acc := .rw, rst := 0x7D0#32, mask := 0xFFFF#32, lims := [⟨15, 0, 1000, 65535⟩] }
def BCHG_GAPWAIT : Reg := { off := 0x11C, acc := .rw, rst := 0x64#32, mask := 0xFFFF#32, lims := [⟨15, 0, 1, 65535⟩] }
def BCHG_LIMIT : Reg := { off := 0x120, acc := .rw, rst := 0x2#32, mask := 0xFF#32, lims := [⟨7, 0, 1, 255⟩] }
def BCHG_REFIN : Reg := { off := 0x124, acc := .ro }
def BCHG_RUNS : Reg := { off := 0x128, acc := .ro }
def BCHG_HOCNT : Reg := { off := 0x12C, acc := .ro }
def BCHG_FAILS : Reg := { off := 0x130, acc := .ro }
def BCHG_EVT : Reg := { off := 0x134, acc := .w1c, mask := 0x1F#32 }
def BCHG_EVT_EN : Reg := { off := 0x138, acc := .rw, mask := 0x1F#32 }
def BCH_MON : Reg := { off := 0x140, s0 := 0x4, n0 := 4, acc := .ro }
def BCHG_TRIM_DAC : Reg := { off := 0x180, s0 := 0x10, n0 := 5, acc := .ro }
def BCHG_TRIM_ADC : Reg := { off := 0x184, s0 := 0x10, n0 := 5, acc := .ro }
def BCHG_TRIM_INFO : Reg := { off := 0x188, s0 := 0x10, n0 := 5, acc := .ro }
def BCHG_TRIM_STAT : Reg := { off := 0x18C, s0 := 0x10, n0 := 5, acc := .ro, rst := 0x2#32 }

/-! Registers of JRNL (R483). -/

def JRNL_CTL : Reg := { off := 0x100, acc := .rw, rst := 0x4B01#32, mask := 0xFF01#32, lims := [⟨15, 8, 50, 90⟩] }
def JRNL_STAT : Reg := { off := 0x104, acc := .ro }
def JRNL_GEN : Reg := { off := 0x108, acc := .ro }
def JRNL_SEQ : Reg := { off := 0x10C, acc := .ro }
def JRNL_FILL : Reg := { off := 0x110, acc := .ro }
def JRNL_SIZE : Reg := { off := 0x114, acc := .ro }
def JRNL_SFDP : Reg := { off := 0x118, acc := .ro }
def JRNL_CLK : Reg := { off := 0x11C, acc := .rw, rst := 0x32#32, mask := 0xFF#32, lims := [⟨7, 0, 1, 80⟩] }
def JRNL_TORN : Reg := { off := 0x120, acc := .ro }
def JRNL_DOFFS : Reg := { off := 0x124, acc := .ro }
def JRNL_WFAIL : Reg := { off := 0x128, acc := .ro }
def JRNL_LOST : Reg := { off := 0x12C, acc := .ro }
def JRNL_OP_ADDR_LO : Reg := { off := 0x130, acc := .rw, mask := 0xFFFFFFF0#32 }
def JRNL_OP_ADDR_HI : Reg := { off := 0x134, acc := .rw }
def JRNL_OP_LEN : Reg := { off := 0x138, acc := .rw }
def JRNL_EVT : Reg := { off := 0x140, acc := .w1c, mask := 0x1F#32 }
def JRNL_EVT_EN : Reg := { off := 0x144, acc := .rw, mask := 0x1F#32 }

/-! Registers of BOOT (R500). -/

def BOOT_STAT : Reg := { off := 0x100, acc := .ro }
def BOOT_RST : Reg := { off := 0x104, acc := .wo }
def BOOT_LANEWAIT : Reg := { off := 0x108, acc := .rw, rst := 0x32#32, mask := 0xFFFF#32, lims := [⟨15, 0, 1, 65535⟩] }
def BOOT_FILL : Reg := { off := 0x10C, acc := .ro }
def BOOT_CFG_APPLIED : Reg := { off := 0x110, acc := .ro }
def BOOT_CFG_SKIP : Reg := { off := 0x114, acc := .ro }
def BOOT_T : Reg := { off := 0x120, s0 := 0x4, n0 := 8, acc := .ro }
def BOOT_UNUSABLE : Reg := { off := 0x140, s0 := 0x4, n0 := 32, acc := .ro }

end R

/-- The registers of every page (R42). -/
def commonRegs : List Reg :=
    [R.BLK_ID, R.BLK_CAP, R.BLK_CTL, R.BLK_STAT, R.FLT_STAT, R.FLT_FORCE, R.FLT_MASK, R.FLT_REACT, R.OP_CMD, R.OP_STAT, R.OP_PART, R.BIST_CTL] ++
    [R.BIST_STAT, R.EVT_DISC]

/-- The registers a block type has beside the header. -/
def BT.regs : BT → List Reg
  | .optab =>
    [R.OPTAB_COUNT, R.OPTAB_RETIRE, R.OPTAB_FULLTIME, R.OPTAB_RETIRE_ERR, R.OPTAB_END, R.OPTAB_ENT_STAT, R.OPTAB_ENT_SRC]
  | .hif =>
    [R.HIF_PCI_ID, R.HIF_LINK, R.HIF_WIN_BASE, R.HIF_ERR_CNT, R.HIF_ERR_ADDR, R.HIF_ERR_CODE, R.HIF_EVT_PEND, R.HIF_EVT_EN, R.HIF_EVT_GAP, R.MSIX_ADDR_LO, R.MSIX_ADDR_HI, R.MSIX_DATA] ++
    [R.MSIX_CTL, R.MSIX_PBA]
  | .keyst =>
    [R.KEYST_DATA, R.KEYST_CMD, R.KEYST_VALID]
  | .creel =>
    [R.CREEL_RBASE_LO, R.CREEL_RBASE_HI, R.CREEL_RSIZE, R.CREEL_RCTL, R.CREEL_RHEAD, R.CREEL_RTAIL, R.CREEL_RSTAT, R.CREEL_RDONE, R.SKEIN_CTL, R.SKEIN_STAT, R.SKEIN_LAYER, R.SKEIN_EVT] ++
    [R.BOB_STAT]
  | .headctl =>
    [R.DRF_CTL, R.DRF_STAT, R.DRF_BLEND_TOL, R.DRF_ACC_LAT, R.DRF_ACC_CAP, R.DRF_GAP_TOL, R.DRF_Z_SLEW, R.DRF_FETCH_CTL, R.DRF_AUX, R.DRF_AUX_SLEW, R.DRF_POS_X, R.DRF_POS_Y] ++
    [R.DRF_POS_Z, R.DRF_ARC_LO, R.DRF_ARC_HI, R.DRF_CUR_ID, R.DRF_CUR_IDX, R.DRF_HOLDCNT, R.DRF_HOLD_IDX, R.DRF_HOLD_US, R.DRF_SKYFALL, R.DRF_LATCNT, R.DRF_ACCLATE, R.DRF_EVT] ++
    [R.DRF_EVT_EN, R.TRV_CTL, R.TRV_STAT, R.TRV_HORIZON, R.TRV_LDLY, R.TRV_DAC_SKEW, R.TRV_IDLE_CODE, R.TRV_VMIN, R.TRV_DEV_MAX, R.TRV_SETTLE_TOL, R.TRV_ARC_LO, R.TRV_ARC_HI] ++
    [R.TRV_POS_X, R.TRV_POS_Y, R.TRV_DEV, R.TRV_VEL, R.TRV_FIRED, R.TRV_LATECNT, R.TRV_HELDCNT, R.TRV_MERGECNT, R.TRV_PCLAMP, R.TRV_STALECNT, R.TRV_BLINDCNT, R.TRV_FMAP_ADDR_LO] ++
    [R.TRV_FMAP_ADDR_HI, R.TRV_FMAP_CRC, R.TRV_FMAP_DESC, R.TRV_WEB_CTL, R.TRV_WEB_SCALE, R.TRV_WEB_DUR, R.TRV_WEB_ORD, R.TRV_WEB_MISS, R.TRV_WEB_LASTMISS, R.TRV_WEBLOG_LO, R.TRV_WEBLOG_HI, R.TRV_WEBLOG_SIZE] ++
    [R.TRV_WEBLOG_WR, R.TRV_WEB_PEND, R.TRV_EVT, R.TRV_EVT_EN, R.TRV_SCHED, R.COR_CTL, R.COR_STAT, R.COR_INTEG, R.COR_FF, R.COR_WPC, R.COR_MINSTEP, R.COR_RECORDS] ++
    [R.COR_USED, R.COR_SKIP, R.COR_POSTED, R.COR_LEADLOST, R.COR_PASTEND, R.COR_FULL, R.COR_FFLATE, R.COR_PSAT, R.COR_DEPOSIT, R.COR_EVT, R.COR_EVT_EN]
  | .servo =>
    [R.SRV_KP, R.SRV_KI, R.SRV_KD, R.SRV_KV, R.SRV_KA, R.SRV_LIM, R.SRV_N1_B0, R.SRV_N1, R.SRV_N2_B0, R.SRV_N2, R.SRV_FB_GAIN, R.SRV_FB_OFS] ++
    [R.SRV_FE_MAX, R.SRV_TICKS, R.SRV_CCTL, R.SRV_CSTAT, R.SRV_POS, R.SRV_ERR, R.SRV_CMD, R.SRV_BADCNT, R.SRV_LATECNT, R.SRV_TRANSCNT, R.SRV_LASTCNT, R.SRV_SATCNT] ++
    [R.SRV_INTEG, R.SRV_BCTL, R.SRV_APPLY, R.SRV_LINK_LAT, R.SRV_EVT, R.SRV_EVT_EN, R.SRV_TUNE_STEP, R.SRV_TUNE_LEN, R.SRV_TUNE_F0, R.SRV_TUNE_F1, R.SRV_TUNE_AMP, R.SRV_TUNE_CHIRP] ++
    [R.SRV_TUNE_PTS, R.SRV_TUNE_ADDR_LO, R.SRV_TUNE_ADDR_HI]
  | .plyarb =>
    [R.PLY_CTL, R.PLY_STAT, R.PLY_GAS_DIR, R.PLY_EXCL_DIST, R.PLY_EXCL_HALF, R.PLY_BOX_MARGIN, R.PLY_LINGER, R.PLY_ITEM_AGE, R.PLY_VEC_US, R.PLY_JUMP_V, R.PLY_MARGIN, R.PLY_GRANTS] ++
    [R.PLY_FREE_GR, R.PLY_TOKEN_GR, R.PLY_VIOL, R.PLY_REPLIED, R.PLY_UNEXEC, R.PLY_LAST_VIOL, R.PLY_EVT, R.PLY_EVT_EN, R.PLY_HEAD, R.PLY_REM, R.PLY_BOX]
  | .plyagt =>
    [R.AGT_STAT, R.AGT_ITEM_ID, R.AGT_ITEM_REC, R.AGT_TAKEN, R.AGT_RETURNED, R.AGT_CLRWAIT_US, R.AGT_EXTREF]
  | .mpv =>
    [R.MPV_CTL, R.MPV_STAT, R.MPV_GUEST, R.MPV_CAM_DLY, R.MPV_SHD_EXP, R.MPV_SHD_GAIN, R.MPV_SHD_ROI, R.MPV_SHD_TIMING, R.MPV_SHD_PHASE, R.MPV_SHD_BLACK, R.MPV_SET_CMD, R.MPV_SET_STAT] ++
    [R.MPV_RT_MIN, R.MPV_PIX_NM, R.MPV_AXIS, R.MPV_CAM_ROT, R.MPV_ARC_CROP, R.MPV_THUMB_BIN, R.MPV_CAL_ADDR_LO, R.MPV_CAL_ADDR_HI, R.MPV_FRAMES, R.MPV_BADFRM, R.MPV_GAPCNT, R.MPV_GUESTDROP] ++
    [R.MPV_SIDMISM, R.MPV_ARCDROP, R.MPV_SLUBS, R.MPV_SLUBLOST, R.MPV_RING_BASE_LO, R.MPV_RING_BASE_HI, R.MPV_RING_CFG, R.MPV_RING_WR, R.MPV_NOPOS, R.MPV_PYRO, R.MPV_EVT, R.MPV_EVT_EN] ++
    [R.MPV_LAST_FEAT]
  | .lattice =>
    [R.LAT_CTL, R.LAT_STAT, R.LAT_PERIOD, R.LAT_ORIGIN_X, R.LAT_ORIGIN_Y, R.LAT_PITCH, R.LAT_TBASE, R.LAT_TPOWDER, R.LAT_RECOAT_MIX, R.LAT_HOT, R.LAT_HOT_TILE, R.LAT_TICKS] ++
    [R.LAT_OVERRUN, R.LAT_DEPOSITS, R.LAT_DEPLOST, R.LAT_MATERR, R.LAT_CLAMPS, R.LAT_RECOAT_MS, R.LAT_EVT, R.LAT_EVT_EN, R.LAT_OP_ADDR_LO, R.LAT_OP_ADDR_HI, R.LAT_OP_RECT0, R.LAT_OP_RECT1] ++
    [R.LAT_INIT_TEMP, R.LAT_MAT_D, R.LAT_MAT_C, R.LAT_MAT_H, R.LAT_MAT_TAU]
  | .lpipe =>
    [R.LPIPE_CTL, R.LPIPE_STAT, R.LPIPE_BIND, R.LPIPE_CMD, R.LPIPE_BLACK, R.LPIPE_RC_CTL, R.LPIPE_RC_RECT0, R.LPIPE_RC_RECT1, R.LPIPE_STREAK, R.LPIPE_SHORT, R.LPIPE_SPOT, R.LPIPE_CLAIM_ERR] ++
    [R.LPIPE_RING_BASE_LO, R.LPIPE_RING_BASE_HI, R.LPIPE_RING_CFG, R.LPIPE_RING_WR, R.LPIPE_FRAMES, R.LPIPE_BADFRM, R.LPIPE_CHECKS, R.LPIPE_FAILS, R.LPIPE_ARCDROP, R.LPIPE_EVT, R.LPIPE_EVT_EN, R.LPIPE_LAST_REC] ++
    [R.LPIPE_WIN_RECT0, R.LPIPE_WIN_RECT1, R.LPIPE_WSTAT_R, R.LPIPE_WSTAT_G, R.LPIPE_WSTAT_B, R.LPIPE_WSTAT_SATCNT]
  | .csirx =>
    [R.CSI_CTL, R.CSI_STAT, R.CSI_RATE, R.CSI_VC_CFG, R.CSI_VC_FRAMES, R.CSI_VC_LINES, R.CSI_ECCFIX, R.CSI_HDRERR, R.CSI_CRCERR, R.CSI_DISCARD]
  | .light =>
    [R.LGT_CFG, R.LGT_PWM_NS, R.LGT_DIAGWIN, R.LGT_REFRESH, R.LGT_DIAG, R.LGT_FB, R.LGT_FB_TGT_R, R.LGT_FB_TGT_G, R.LGT_FB_TGT_B, R.LGT_SCALE0, R.LGT_SCALE1, R.LGT_STAT] ++
    [R.LGT_CLAIM_ERR, R.LGT_FRAMES, R.LGT_EVT, R.LGT_EVT_EN, R.LGT_CMD, R.LGT_FBSKIP, R.LGT_DUTY, R.LGT_STATE]
  | .lane =>
    [R.LANE_CTL, R.LANE_STAT, R.LANE_CMD, R.LANE_RT_CTL, R.LANE_TRAIN_BITS, R.LANE_LAT, R.LANE_CRCERR, R.LANE_CREDVIOL, R.LANE_RETRAINS, R.LANE_ARRIVALS, R.LANE_DEPARTURES, R.LANE_DROP] ++
    [R.LANE_PRESET0, R.LANE_PRESET1, R.LANE_PRESET2, R.LANE_PRESET3, R.LANE_PRESET4, R.LANE_PRESET5, R.LANE_PRESET6, R.LANE_PRESET7, R.LANE_PAT_CTL, R.LANE_PAT_LEN, R.LANE_INJCNT, R.LANE_DESC] ++
    [R.LANE_SERIAL_LAST, R.LANE_EVT, R.LANE_EVT_EN, R.LANE_CREDIT]
  | .mspin =>
    [R.MSP_KP, R.MSP_KI, R.MSP_KD, R.MSP_KV, R.MSP_KA, R.MSP_LIM, R.MSP_N1_B0, R.MSP_N1, R.MSP_N2_B0, R.MSP_N2, R.MSP_FB_GAIN, R.MSP_FB_OFS] ++
    [R.MSP_FE_MAX, R.MSP_TICKS, R.MSP_CCTL, R.MSP_CFG, R.MSP_STAT, R.MSP_CMD, R.MSP_POS, R.MSP_SETP, R.MSP_SPEED, R.MSP_TARGET, R.MSP_VS, R.MSP_VB] ++
    [R.MSP_VM, R.MSP_VE, R.MSP_A1, R.MSP_A2, R.MSP_D1, R.MSP_D2, R.MSP_QSTOP, R.MSP_SPD_CFG, R.MSP_STILL_US, R.MSP_IN_CFG, R.MSP_HOME_CFG, R.MSP_HOME_SPD] ++
    [R.MSP_HOME_MAX, R.MSP_HOME_OFS, R.MSP_HOME_STAT, R.MSP_LATCH, R.MSP_CMP_CTL, R.MSP_CMP_PW, R.MSP_CMP_PERIOD, R.MSP_CMP_LEN, R.MSP_CMP_ADDR_LO, R.MSP_CMP_ADDR_HI, R.MSP_CMP_IDX, R.MSP_CMP_CNT] ++
    [R.MSP_CMP_LATE, R.MSP_CMP_MERGE, R.MSP_QERR, R.MSP_HERR, R.MSP_BADCNT, R.MSP_STEPIN, R.MSP_CLAIM_ERR, R.MSP_EVT, R.MSP_MISC, R.MSP_APPLY, R.MSP_BCTL]
  | .mpg =>
    [R.MPG_FILT, R.MPG_PWM_NS, R.MPG_STEP_NS, R.MPG_POL, R.MPG_IN, R.MPG_OWNER, R.MPG_BISS, R.MPG_BISS_STAT]
  | .sdc =>
    [R.SDC_CFG, R.SDC_STAT, R.SDC_RANKMAP, R.SDC_REF_CTL, R.SDC_TRFCSB, R.SDC_REF_OWED, R.SDC_REF_FORCED, R.SDC_REF_RESTATE, R.SDC_CE_CNT, R.SDC_UE_CNT, R.SDC_TRANS_CNT, R.SDC_POISON_RD] ++
    [R.SDC_ERR_ADDR_LO, R.SDC_ERR_ADDR_HI, R.SDC_ERR_INFO, R.SDC_PANIC_CNT, R.SDC_INFLIGHT, R.SDC_SCRUB, R.SDC_MIG_SHARE, R.SDC_TRAIN, R.SDC_EVT, R.SDC_EVT_EN]
  | .sramp =>
    [R.SRAMP_CE_CNT, R.SRAMP_UE_CNT, R.SRAMP_ERR, R.SRAMP_ACC_ADDR, R.SRAMP_ACC_DATA, R.SRAMP_RTP_CTL, R.SRAMP_RTP_PANIC, R.SRAMP_REPAIRED, R.SRAMP_BAD]
  | .march =>
    [R.MARCH_FIRST, R.MARCH_COUNT]
  | .time =>
    [R.TIME_CTL, R.TIME_STAT, R.TIME_DOMAIN, R.TIME_SEC_LO, R.TIME_SEC_HI, R.TIME_NS, R.TIME_SET_SEC_LO, R.TIME_SET_SEC_HI, R.TIME_SET_NS, R.TIME_SET_CMD, R.TIME_RATE, R.TIME_ADJ] ++
    [R.TIME_SLEW_MAX, R.TIME_KP, R.TIME_KI, R.TIME_OFFSET, R.TIME_PATH, R.TIME_OFS_ALARM, R.TIME_UTC_OFS, R.TIME_GM_ID0, R.TIME_GM_ID1, R.TIME_CLOCK_Q, R.TIME_PRIO, R.TIME_PORT_CFG] ++
    [R.TIME_PORT_ING_LAT, R.TIME_PORT_EGR_LAT, R.TIME_PORT_IPV4, R.TIME_PORT_SYNCS, R.TIME_PORT_DROP, R.TIME_PORT_STAT, R.TIME_SWITCH, R.TIME_EVT, R.TIME_EVT_EN, R.TIME_CLAIM_ERR, R.TIME_TRIG_CNT, R.TIME_TRIG_CTL] ++
    [R.TIME_TRIG_SEC_LO, R.TIME_TRIG_SEC_HI, R.TIME_TRIG_NS, R.TIME_TRIG_PERIOD, R.TIME_TRIG_WIDTH, R.TIME_TRIG_TARGET, R.TIME_TRIG_OPCMD]
  | .fltc =>
    [R.FLTC_CTL, R.FLTC_STAT, R.FLTC_LOST, R.FLTC_POP, R.FLTC_ENT, R.FLTC_ALIVE, R.FLTC_WDOG, R.FLTC_WDOG_KICK, R.FLTC_STORM, R.FLTC_STORM_STAT, R.FLTC_SHADOW_CNT, R.FLTC_MSGS] ++
    [R.FLTC_EVDISC, R.FLTC_STORM_CNT, R.FLTC_CF_CLR, R.FLTC_CF_CNT, R.FLTC_RFENCE, R.FLTC_BIST_CTL, R.FLTC_BIST_SRC, R.FLTC_BIST_ADDR, R.FLTC_BIST_FAILS, R.FLTC_BIST_REPAIRS, R.FLTC_CF, R.FLTC_ARM_KINDS] ++
    [R.FLTC_ARM_EXT]
  | .therm =>
    [R.THERM_CTL, R.THERM_STAT, R.THERM_GRACE, R.THERM_STEP, R.THERM_ADMIT, R.THERM_ADM_WAITS, R.THERM_ADM_MAXUS, R.THERM_WAKE_GAP, R.THERM_MAX, R.THERM_EVT, R.THERM_EVT_EN, R.THERM_SNS] ++
    [R.THERM_SNS_THR]
  | .aon =>
    [R.AON_STAT, R.AON_CMD, R.AON_SD_CNT, R.AON_SD, R.AON_SDL]
  | .bchg =>
    [R.BCHG_CTL, R.BCHG_STAT, R.BCHG_MAP, R.BCHG_DTEMP, R.BCHG_TLAST, R.BCHG_TIMEOUT, R.BCHG_TRACK, R.BCHG_GAPWAIT, R.BCHG_LIMIT, R.BCHG_REFIN, R.BCHG_RUNS, R.BCHG_HOCNT] ++
    [R.BCHG_FAILS, R.BCHG_EVT, R.BCHG_EVT_EN, R.BCH_MON, R.BCHG_TRIM_DAC, R.BCHG_TRIM_ADC, R.BCHG_TRIM_INFO, R.BCHG_TRIM_STAT]
  | .jrnl =>
    [R.JRNL_CTL, R.JRNL_STAT, R.JRNL_GEN, R.JRNL_SEQ, R.JRNL_FILL, R.JRNL_SIZE, R.JRNL_SFDP, R.JRNL_CLK, R.JRNL_TORN, R.JRNL_DOFFS, R.JRNL_WFAIL, R.JRNL_LOST] ++
    [R.JRNL_OP_ADDR_LO, R.JRNL_OP_ADDR_HI, R.JRNL_OP_LEN, R.JRNL_EVT, R.JRNL_EVT_EN]
  | .boot =>
    [R.BOOT_STAT, R.BOOT_RST, R.BOOT_LANEWAIT, R.BOOT_FILL, R.BOOT_CFG_APPLIED, R.BOOT_CFG_SKIP, R.BOOT_T, R.BOOT_UNUSABLE]

/-- Does a register stand at page offset `o`, and if so at which indices? -/
def Reg.hit (r : Reg) (o : Nat) : Option (Nat × Nat) :=
  if o < r.off then none else
  let d := o - r.off
  let i := if r.s0 = 0 then 0 else min (d / r.s0) (r.n0 - 1)
  let e := d - i * r.s0
  let j := if r.s1 = 0 then 0 else min (e / r.s1) (r.n1 - 1)
  if d = i * r.s0 + j * r.s1 then some (i, j) else none

/-- The first register of a list that stands at page offset `o`, with its indices. -/
def findReg : List Reg → Nat → Option (Reg × Nat × Nat)
  | [], _ => none
  | r :: rs, o => match r.hit o with
    | some (i, j) => some (r, i, j)
    | none => findReg rs o

/-- The register of a page of type `t` at offset `o`: the header's (R42), else the block's own. -/
def regAt (t : BT) (o : Nat) : Option (Reg × Nat × Nat) :=
  if o < 0x100 then findReg commonRegs o else findReg t.regs o

end Sys2Proof.Machine
end

