-- ==== Sys2Proof/Machine/Operands.lean ====
section
/-! DEFINITION. Operand forms: bit fields of words (R4), signed and little-endian values, saturation, sparse
tables, the block map and addresses of R34 and R35, and the field ranges of a register write. -/

namespace Sys2Proof.Machine

/-- Bits [hi:lo] of a word (R4). -/
def fld (w : Word) (hi lo : Nat) : Nat := (w.extractLsb' lo (hi + 1 - lo)).toNat

/-- Bit `i` of a word. -/
def bit (w : Word) (i : Nat) : Bool := w.getLsbD i

/-- The word whose bits [hi:lo] are 1. -/
def fldMask (hi lo : Nat) : Word := BitVec.ofNat 32 ((2 ^ (hi + 1 - lo) - 1) * 2 ^ lo)

/-- The word with bits [hi:lo] set to `n`. -/
def setFld (w : Word) (hi lo n : Nat) : Word :=
  (w &&& ~~~(fldMask hi lo)) ||| (BitVec.ofNat 32 (n * 2 ^ lo) &&& fldMask hi lo)

/-- The word with bit `i` set to `b`. -/
def setBit (w : Word) (i : Nat) (b : Bool) : Word := setFld w i i b.toNat

/-- A word of a number, modulo 2^32. -/
def wd (n : Nat) : Word := BitVec.ofNat 32 n

/-- A word of a signed number, modulo 2^32. -/
def wi (i : Int) : Word := BitVec.ofInt 32 i

/-- `n` read as a signed number of `k` bits. -/
def sgn (k n : Nat) : Int := (BitVec.ofNat k n).toInt

/-- A signed number held in `k` bits. -/
def uns (k : Nat) (i : Int) : Nat := (BitVec.ofInt k i).toNat

/-- Addition that stops at `lim`. -/
def satAdd (lim a b : Nat) : Nat := min lim (a + b)

/-- Clamp to a range. -/
def clampI (lo hi x : Int) : Int := max lo (min hi x)

/-- Little-endian value of a byte list (R4). -/
def leNat : List Byte → Nat
  | [] => 0
  | b :: bs => b.toNat + 256 * leNat bs

/-- The `k` low bytes of a number, little-endian. -/
def leBytes : Nat → Nat → List Byte
  | 0, _ => []
  | k + 1, n => BitVec.ofNat 8 n :: leBytes k (n / 256)

/-- Bytes of words, little-endian. -/
def wordsBytes (ws : List Word) : List Byte := ws.flatMap fun w => leBytes 4 w.toNat

/-- Words of a byte list; a last incomplete word is filled with zeros. -/
def bytesWords : List Byte → List Word
  | a :: b :: c :: e :: t => wd (leNat [a, b, c, e]) :: bytesWords t
  | [] => []
  | t => [wd (leNat t)]

/-- Look a key up in a sparse table. -/
def spGet {α : Type} : List (Nat × α) → Nat → Option α
  | [], _ => none
  | (k, v) :: t, a => if k = a then some v else spGet t a

/-- Put a value at a key of a sparse table kept in rising order of keys. -/
def spPut {α : Type} : List (Nat × α) → Nat → α → List (Nat × α)
  | [], a, x => [(a, x)]
  | (k, v) :: t, a, x => if a < k then (a, x) :: (k, v) :: t else if a = k then (a, x) :: t else (k, v) :: spPut t a x

/-- Remove a key from a sparse table. -/
def spDel {α : Type} (l : List (Nat × α)) (a : Nat) : List (Nat × α) := l.filter fun p => p.1 ≠ a

/-- Change one element of a vector. -/
def vmod {α : Type} {n : Nat} (v : Vector α n) (i : Fin n) (f : α → α) : Vector α n := v.set i (f v[i])

/-- The region of a beam region index (R11). -/
def beam (k : Nat) : Fin 16 := Fin.ofNat 16 (8 + k)

/-- The block of a type and instance (R35). -/
def blk (t : BT) (i : Nat) : Blk :=
  let sys (n : Nat) : Blk := ⟨0, Fin.ofNat 64 n⟩
  match t with
  | .hif => sys 0
  | .optab => sys 1
  | .creel => sys 2
  | .fltc => sys 3
  | .time => sys 4
  | .therm => sys 5
  | .jrnl => sys 6
  | .boot => sys 7
  | .aon => sys 8
  | .sdc => ⟨1, Fin.ofNat 64 i⟩
  | .sramp => ⟨1, 2⟩
  | .keyst => ⟨1, 3⟩
  | .march => ⟨1, 4⟩
  | .lpipe => ⟨2, Fin.ofNat 64 i⟩
  | .csirx => ⟨2, Fin.ofNat 64 (i + 2)⟩
  | .light => ⟨2, 4⟩
  | .lattice => ⟨3, 0⟩
  | .plyarb => ⟨3, 1⟩
  | .mspin => ⟨4, Fin.ofNat 64 i⟩
  | .mpg => ⟨4, Fin.ofNat 64 (i + 8)⟩
  | .lane => if i < 32 then ⟨beam (i / 4), Fin.ofNat 64 (9 + i % 4)⟩ else ⟨4, Fin.ofNat 64 (i - 20)⟩
  | .headctl => ⟨beam (i / 4), Fin.ofNat 64 (i % 4)⟩
  | .servo => ⟨beam i, 4⟩
  | .mpv => ⟨beam (i / 4), Fin.ofNat 64 (5 + i % 4)⟩
  | .bchg => ⟨beam i, 13⟩
  | .plyagt => ⟨beam i, 14⟩

/-- The type and instance of a block, none where R35 has no block (R36). -/
def blkKind (b : Blk) : Option (BT × Nat) :=
  let r := b.region.val
  let n := b.block.val
  if r = 0 then
    match n with
    | 0 => some (.hif, 0) | 1 => some (.optab, 0) | 2 => some (.creel, 0) | 3 => some (.fltc, 0)
    | 4 => some (.time, 0) | 5 => some (.therm, 0) | 6 => some (.jrnl, 0) | 7 => some (.boot, 0)
    | 8 => some (.aon, 0) | _ => none
  else if r = 1 then
    match n with
    | 0 => some (.sdc, 0) | 1 => some (.sdc, 1) | 2 => some (.sramp, 0) | 3 => some (.keyst, 0)
    | 4 => some (.march, 0) | _ => none
  else if r = 2 then
    match n with
    | 0 => some (.lpipe, 0) | 1 => some (.lpipe, 1) | 2 => some (.csirx, 0) | 3 => some (.csirx, 1)
    | 4 => some (.light, 0) | _ => none
  else if r = 3 then
    match n with
    | 0 => some (.lattice, 0) | 1 => some (.plyarb, 0) | _ => none
  else if r = 4 then
    if n < 8 then some (.mspin, n) else if n < 12 then some (.mpg, n - 8)
    else if n < 20 then some (.lane, n + 20) else none
  else if r < 8 then none
  else
    let k := r - 8
    if n < 4 then some (.headctl, 4 * k + n)
    else if n = 4 then some (.servo, k)
    else if n < 9 then some (.mpv, 4 * k + n - 5)
    else if n < 13 then some (.lane, 4 * k + n - 9)
    else if n = 13 then some (.bchg, k)
    else if n = 14 then some (.plyagt, k)
    else none

/-- How many blocks the regions have (R35). -/
def regionBlocks (r : Nat) : Nat :=
  match r with
  | 0 => 9 | 1 => 5 | 2 => 5 | 3 => 2 | 4 => 20 | 5 => 0 | 6 => 0 | 7 => 0 | _ => 15

/-- The implemented blocks of a region. -/
def blksOf (r : Fin 16) : List Blk := (List.range (regionBlocks r.val)).map fun n => ⟨r, Fin.ofNat 64 n⟩

/-- The implemented regions (R12). -/
def regions : List (Fin 16) := [0, 1, 2, 3, 4, 8, 9, 10, 11, 12, 13, 14, 15]

/-- BAR0 offset of page offset `o` of a block (R34). -/
def badr (b : Blk) (o : Nat) : Nat := b.region.val * 0x100000 + b.block.val * 0x1000 + o

/-- Page offset of a register's copy. -/
def Reg.ofs (r : Reg) (i j : Nat) : Nat := r.off + r.s0 * i + r.s1 * j

/-- BAR0 offset of a register's copy. -/
def radr (b : Blk) (r : Reg) (i : Nat := 0) (j : Nat := 0) : Nat := badr b (r.ofs i j)

/-- The index of a block type in the reaction table (R417). -/
def BT.idx : BT → Nat
  | .hif => 0 | .optab => 1 | .creel => 2 | .fltc => 3 | .time => 4 | .therm => 5 | .jrnl => 6 | .boot => 7
  | .aon => 8 | .sdc => 9 | .sramp => 10 | .keyst => 11 | .march => 12 | .lpipe => 13 | .csirx => 14 | .light => 15
  | .lattice => 16 | .plyarb => 17 | .mspin => 18 | .mpg => 19 | .lane => 20 | .headctl => 21 | .servo => 22
  | .mpv => 23 | .bchg => 24 | .plyagt => 25

/-- The block types in the order of the reaction table (R417). -/
def armTypes : List BT :=
  [.hif, .optab, .creel, .fltc, .time, .therm, .jrnl, .boot, .aon, .sdc, .sramp, .keyst, .march, .lpipe, .csirx,
    .light, .lattice, .plyarb, .mspin, .mpg, .lane, .headctl, .servo, .mpv, .bchg, .plyagt]

/-- Type code of R35. -/
def BT.code : BT → Nat
  | .hif => 0x0001 | .optab => 0x0002 | .creel => 0x0003 | .fltc => 0x0004 | .time => 0x0005 | .therm => 0x0006
  | .jrnl => 0x0007 | .boot => 0x0008 | .aon => 0x0009 | .sdc => 0x0011 | .sramp => 0x0012 | .keyst => 0x0013
  | .march => 0x0014 | .lpipe => 0x0021 | .csirx => 0x0022 | .light => 0x0023 | .lattice => 0x0031
  | .plyarb => 0x0032 | .mspin => 0x0041 | .mpg => 0x0042 | .lane => 0x0043 | .headctl => 0x0081
  | .servo => 0x0082 | .mpv => 0x0083 | .bchg => 0x0084 | .plyagt => 0x0085

/-- The fault kinds of a block type (R45), as the mask of its FLT registers: R56, R120, R155, R185, R218, R249,
R276, R278, R298, R327, R358, R389, R390, R406, R443, R458, R474, R483. -/
def BT.kinds : BT → Word
  | .optab => 0x1#32 | .fltc => 0xF#32 | .time => 0x7#32 | .therm => 0xF#32 | .jrnl => 0xF#32 | .sdc => 0x7F#32
  | .sramp => 0x7#32 | .lpipe => 0x1#32 | .csirx => 0x7#32 | .light => 0x3#32 | .lattice => 0x7#32
  | .plyarb => 0x7#32 | .mspin => 0x3FF#32 | .lane => 0x3F#32 | .headctl => 0x30707#32 | .servo => 0x1F#32
  | .mpv => 0x7#32 | .bchg => 0x1F#32
  | .hif => 0#32 | .creel => 0#32 | .boot => 0#32 | .aon => 0#32 | .keyst => 0#32 | .march => 0#32 | .mpg => 0#32
  | .plyagt => 0#32

/-- The fault kinds of a block; bits beyond them are reserved (R6, R45). -/
def kindsOf (b : Blk) : Word := match blkKind b with
  | some (t, _) => t.kinds
  | none => 0

/-- The kinds in the critical class: WDOG_EXPIRED (R443), SHUTDOWN (R458), NO_RANK (R389). -/
def BT.crit (t : BT) : Word :=
  if t = .fltc then 0x2#32 else if t = .therm then 0x8#32 else if t = .sdc then 0x40#32 else 0#32

/-- BLK_CAP (R43) where a chapter publishes it whole: CELLS, LONGOP, BIST and SPEC. -/
def BT.cap : BT → Option Word
  | .fltc => some 0x04000100#32
  | .time => some 0x00080102#32
  | .therm => some 0x00030140#32
  | .boot => some 0x00070100#32
  | .sdc => some 0x00040184#32
  | .sramp => some 0x01800140#32
  | .march => some 0x00000080#32
  | .lattice => some 0x020001C0#32
  | .mspin => some 0x04000188#32
  | .mpg => some 0x00020104#32
  | .lane => some 0x00040181#32
  | .servo => some 0x00020198#32
  | .mpv => some 0x00800187#32
  | .bchg => some 0x00040185#32
  | .hif | .optab | .creel | .jrnl | .aon | .keyst | .lpipe | .csirx | .light | .plyarb | .headctl | .plyagt => none

/-- Cells of a block type as far as a message can name one (R10): CELLS of BLK_CAP, and the channels, sensors or lamp
lines that fault messages name as cells where no BLK_CAP is published. -/
def BT.cells (t : BT) : Nat :=
  match t.cap with
  | some w => fld w 6 0
  | none => 0

/-- A field with a stated range keeps its old value when the written one lies outside it. -/
def limApply (old : Word) : List Lim → Word → Word
  | [], v => v
  | l :: ls, v =>
    let x := fld v l.hi l.lo
    limApply old ls (if l.min ≤ x ∧ x ≤ l.max then v else setFld v l.hi l.lo (fld old l.hi l.lo))

/-- What a register holds after a write of `v` (R5, R6 and the ranges of its fields). -/
def Reg.write (r : Reg) (old v : Word) : Word :=
  match r.acc with
  | .rw => limApply old r.lims (v &&& r.mask)
  | .w1c => old &&& ~~~v
  | .ro | .wo | .rc => old

end Sys2Proof.Machine
end

