-- ==== Sys2Proof/Machine/State.lean ====
section
/-! DEFINITION. The state of the VZ3200 as plain data, its reset state, and the reasons a command can stop.
Registers have their home in `Dev.regs`, keyed by BAR0 offset (R34); what the spec holds beside its registers has a
field of its own. -/

namespace Sys2Proof.Machine

/-- Why a command can end in a fault: for no reason. The spec gives every command an effect, or none, on every operand. -/
inductive Fault where
deriving DecidableEq, Repr

/-- Why a command can be refused. -/
inductive Refusal where
  /-- A command without a meaning: raised by no arm of `exec` once every command has one. Safe. -/
  | notModelled (mnemonic : String)
  /-- TAP_INSTRUCTION with internal scan enabled (R441): the spec does not say what scanning changes. Safe. -/
  | internalScan
deriving DecidableEq, Repr

/-- A migration in progress in a channel (R368): logical rank, row bits, copy pointer P, and what the source still
holds of lines below P that requests have since written in the target: line number, bytes, poison. -/
structure MigMem where
  rank : Nat
  rb   : Nat
  p    : Nat
  old  : List (Nat × List Byte × Bool)
deriving DecidableEq, Repr

/-- SDRAM: byte cells in canonical form (addresses strictly rising, no byte equal to 0, which is what an unlisted
address reads as), the poisoned lines of R369 by line number, strictly rising, and the migrations under way. -/
structure Mem where
  cells  : List Host.Cell
  poison : List Nat
  migs   : Vector (Option MigMem) 2
deriving DecidableEq, Repr

/-- Message classes of R15. -/
inductive Cls where
  | req | ev | rsp | flt
deriving DecidableEq, Repr

/-- Where a message stands: at a port of an arbiter (R10), or accepted by its destination block. -/
inductive Loc where
  | port (a : ArbId) (p : Nat)
  | inbox
deriving DecidableEq, Repr

/-- What a message carries: the flows of R14 that pass the arbiters and end in an event of their own. -/
inductive Body where
  | fault (m : BitVec 64)
  | deposit (tile : Nat) (energy : Nat) (mat : Nat)
  | predReq (entry : Nat) (tile : Nat)
  | predRsp (entry : Nat) (temp : Nat)
  | melt (x y : Rat)
deriving DecidableEq, Repr

/-- A message of the fabric. -/
structure Msg where
  cls    : Cls
  src    : Blk
  dst    : Blk
  cell   : Option Nat
  body   : Body
  status : BitVec 4
  tag    : Nat
  loc    : Loc
  age    : Nat
deriving DecidableEq, Repr

/-- A request that awaits its response (R26); `carried` tells one whose messages stand in the fabric from one that a
command stands for as a whole (log 52). -/
structure Pend where
  tag      : Nat
  src      : Blk
  dst      : Blk
  sent     : Nat
  timedOut : Bool
  carried  : Bool
deriving DecidableEq, Repr

/-- A long operation that is not idle (R50): its block, code and parameter, its entry once it has one, and the cycles in
which its work completed and in which an abort was written, for the precedence of R51. -/
structure OpRec where
  blk     : Blk
  code    : Nat
  param   : Nat
  entry   : Option Nat
  doneAt  : Option Nat
  abortAt : Option Nat
deriving DecidableEq, Repr

/-- An MSI-X vector of R58: a message held back by the gap, when the last message went, how many went, the cycle of the
last event. -/
structure Vec where
  held : Bool
  last : Option Nat
  sent : Nat
  evAt : Option Nat
deriving DecidableEq, Repr

/-- A reset shadow of R422 on a block, or on one cell of it; `ends` is none while the reset lasts. -/
structure Shadow where
  by_   : Blk
  blk   : Blk
  cell  : Option Nat
  start : Nat
  ends  : Option Nat
deriving DecidableEq, Repr

/-- A cell of a block (R10). -/
structure CellRef where
  blk  : Blk
  cell : Nat
deriving DecidableEq, Repr

/-- The last host completion (R38, R41): data dwords, and whether it was poisoned. -/
structure Cpl where
  data   : List Word
  poison : Bool
deriving DecidableEq, Repr

/-- An entry of the fault queue (R415): the message, PTP nanoseconds and low seconds. -/
structure FltEnt where
  msg : BitVec 64
  ns  : Word
  sec : Word
deriving DecidableEq, Repr

/-- A region concentrator (R413): offered messages of this millisecond, pairs already forwarded, the millisecond. -/
structure Storm where
  offered : Nat
  seen    : List (Nat × Nat)
  ms      : Nat
deriving DecidableEq, Repr

/-- A region's self-test scheduler (R433 to R438): the unit under test, the cycle of the last start, the place of the
unit whose turn comes next, abandonments in a row by unit, and whether the slice is abandoned in this cycle, with a count or without
(R436, R437). -/
structure Slice where
  unit  : Option (Nat × Option Nat)
  since : Nat
  turn  : Nat
  fails : List (Nat × Option Nat × Nat)
  cut   : Option Bool
deriving DecidableEq, Repr

/-- The fault collector and the self-test scheduler (R408 to R438) beside their registers: the queue, messages being
handled, concentrators, the cell fence list, the watchdog's start, slices, spare rows in use by unit (R438), whether a message was
accepted in this cycle (R414), and the blocks fenced by a reaction in it, or by host software (R420). -/
structure Flt where
  queue    : List FltEnt
  handling : List (BitVec 64 × Nat)
  storm    : Vector Storm 16
  cf       : Vector (Option CellRef) 64
  wdogFrom : Option Nat
  slices   : Vector Slice 16
  spares   : List (Blk × Option Nat × List Nat)
  took     : Bool
  fences   : List (Blk × Nat)
deriving DecidableEq, Repr

/-- The pins and the start sequence (R484 to R500, R441) beside the BOOT registers. -/
structure Boot where
  porst    : Bool
  chiprst  : Bool
  perst    : Bool
  supply   : Bool
  vstby    : Bool
  edge     : Nat
  stageAt  : Nat
  fuseOk   : Bool
  lanesEnd : Bool
  fillEnd  : Bool
  debugOn  : Bool
  extest   : Option (BitVec 32)
  bsr      : BitVec 32
  tap      : BitVec 32
deriving DecidableEq, Repr

/-! Bobbins, skeins and the layer report (03). -/

/-- A buffer of a bobbin: its 1,024 words, and whether they came from a container (R71, R85). -/
structure BobBuf where
  words : List Word
  enc   : Bool
deriving DecidableEq, Repr

/-- A bobbin (R71, R73, R77): generation, its two buffers, which one is live, whether the other is pending. -/
structure Bob where
  gen  : Nat
  buf0 : BobBuf
  buf1 : BobBuf
  live : Bool
  pend : Bool
deriving DecidableEq, Repr

/-- A staged or running skein (R61): the header's fields, its bobbin map and lists, its ring, its recorded GO, and an ABORT written
while it was starting (R85, R90). -/
structure Skein where
  layer    : Word
  flags    : Word
  ox       : Int
  oy       : Int
  recoatUs : Nat
  headMask : Word
  reqMask  : Word
  poolRecs : Nat
  poolAddr : Nat
  bobs     : List Nat
  planAddr : Nat
  repAddr  : Nat
  repSize  : Nat
  lists    : Vector (Nat × Nat) 32
  ring     : Fin 8
  goSeen   : Bool
  abortSeen : Bool
deriving DecidableEq, Repr

/-- An entry of the layer report (R92). -/
structure RepEnt where
  id     : Word
  reason : Nat
  head   : Nat
  pool   : Bool
  first  : Nat
  count  : Nat
deriving DecidableEq, Repr

/-- A head's sums in the report (R91). -/
structure HeadSum where
  done     : Nat
  rejected : Nat
  plyTaken : Nat
  holds    : Nat
  slubs    : Nat
  missed   : Nat
  clamped  : Nat
deriving DecidableEq, Repr

/-- The running layer (R88 to R92): heads present and lost, entries listed, start time, sums, whether aborted, and the origin
and axis flags of its skein, which stay in force for measured points after it (R124; log 37, DEDUCED); the cycle of its abort, with
whether SKEIN_EVT.ABORTED stood before it (R90). -/
structure Rep where
  present : Word
  lost    : Word
  entries : List RepEnt
  startS  : Nat
  startNs : Nat
  sums    : Vector HeadSum 32
  aborted : Bool
  ox      : Int
  oy      : Int
  flags   : Word
  cut     : Option (Nat × Bool)
deriving DecidableEq, Repr

/-! The head (04, 05, 09). Lengths are in nm, times in µs, speeds in nm/µs, slopes in nm/µs². -/

/-- Geometry of a move: a line, or an arc given by its centre, start minus centre, and sweep in radians. -/
inductive Seg where
  | line (x0 y0 x1 y1 : Rat)
  | arc (cx cy ux uy sweep : Rat)
deriving DecidableEq, Repr

/-- The two-segment trapezoid of R99. -/
structure Prof where
  vS : Rat
  vB : Rat
  vM : Rat
  vE : Rat
  a1 : Rat
  a2 : Rat
  d1 : Rat
  d2 : Rat
deriving DecidableEq, Repr

/-- A phase of constant slope of a planned move. -/
structure Phase where
  v0  : Rat
  acc : Rat
  dur : Rat
  len : Rat
deriving DecidableEq, Repr

/-- Kinds of move (R94, R95, R103, R104, R116). -/
inductive MKind where
  | mark | jump | dwell | wait | runOut | runIn | fillet | hold
deriving DecidableEq, Repr

/-- A move of the move queue. `inLim` and `outLim` bound the speed at its start and end; `cont` says that it starts
at the speed the move before it ends with; `done` counts the records that complete with it; `run` numbers the path
between hold points; `fade` is the cross-fade of R211 at the start of an item's first move or the end of its last;
`turnS` is the corner angle threshold; `was` is the slope cap that the one in force replaced, `late` that the move was
planned under the exception of R109. -/
structure Move where
  kind    : MKind
  seg     : Seg
  len     : Rat
  arc0    : Rat
  laser   : Bool
  ceil    : Rat
  prof    : Prof
  cont    : Bool
  inLim   : Rat
  outLim  : Rat
  phases  : List Phase
  vOut    : Rat
  started : Bool
  t       : Rat
  id      : Word
  idx     : Nat
  pool    : Bool
  bob     : Nat
  buf     : Bool
  pwr     : Nat
  focus   : Int
  durNs   : Nat
  zone    : Nat
  blend   : Bool
  sky     : Bool
  done    : Nat
  run     : Nat
  fade    : Nat
  turnS   : Rat
  was     : Nat
  late    : Bool
deriving DecidableEq, Repr

/-- A vector record in a fetch queue (R93): its eight words, index, list, and whether it was read poisoned. -/
structure FRec where
  w      : List Word
  idx    : Nat
  pool   : Bool
  poison : Bool
deriving DecidableEq, Repr

/-- A polyline that has bound and whose later vertices have still to become moves (R94). -/
structure Poly where
  pts    : List (Int × Int)
  first  : List Word
  idx    : Nat
  pool   : Bool
  bob    : Nat
  buf    : Bool
  fade   : Nat
  recs   : Nat
deriving DecidableEq, Repr

/-- The Drafter (R93 to R123) beside its registers: list, own and item records of the fetch queue, the hand-over ring of R196,
failed attempts of the fetch under way (R119), the slope cap in force and those latched with the cycle of their write (R109), the
polyline that is being taken, the move queue, ended moves that the Traveller's search still needs, the end of the last queued move,
the setpoint, focus, speed scale, auxiliary axes, holds, and whether the last queued move's run still needs its
LASER_OFF, the run's number, whether an item's first record comes next, item records entered and read, whether the next record found no room,
whether step 3 of R116 owes an underrun, the last tick sampled. -/
structure Drf where
  st       : Nat
  inLayer  : Bool
  listAddr : Nat
  listLen  : Nat
  nextRec  : Nat
  fetch    : List FRec
  items    : List FRec
  handOver : List FRec
  poly     : Option Poly
  moves    : List Move
  trail    : List Move
  arcEnd   : Rat
  endX     : Rat
  endY     : Rat
  x        : Rat
  y        : Rat
  z        : Rat
  vx       : Rat
  vy       : Rat
  ax       : Rat
  ay       : Rat
  zTgt     : Rat
  speed    : Rat
  speedReq : Rat
  cap      : Nat
  caps     : List (Nat × Nat)
  auxTgt   : Vector Int 3
  auxNow   : Vector Int 3
  atHold   : Bool
  holdFrom : Option Nat
  ownDone  : Nat
  needAdm  : Bool
  admAsk   : Bool
  fetchBad : Nat
  open_    : Bool
  runNo    : Nat
  first_   : Bool
  entered  : Nat
  pos      : Nat
  full     : Bool
  owed     : Bool
  tickAt   : Option Nat
deriving DecidableEq, Repr

/-- A field map image as loaded (R125). -/
structure FMap where
  n     : Nat
  axMin : Int
  axMax : Int
  ayMin : Int
  ayMax : Int
  nodes : List (Int × Int × Int)
  crc   : Word
deriving DecidableEq, Repr

/-- An entry of the event schedule (R133) with the buffer it is bound to, whether admission was granted, the speed
scale a CORR entry carries (R270), and a number that tells entries apart. -/
structure Ent where
  arc   : Int
  kind  : Nat
  src   : Bool
  adm : Bool
  ok    : Bool
  pwr   : Nat
  bob   : Nat
  buf   : Bool
  dur   : Nat
  spd   : Nat
  num   : Nat
  idx   : Nat
  pool  : Bool
  run   : Nat
  fade  : Nat
deriving DecidableEq, Repr

/-- A committed edge: the entry and its slot of the 400 MHz event clock (R140). -/
structure Edge where
  ent  : Ent
  slot : Nat
  late : Bool
deriving DecidableEq, Repr

/-- A predicted change of a ramp or stitch factor (R142, R211): slot, the new index, and the number of the LASER_ON it
belongs to. -/
structure Step where
  slot   : Nat
  on_    : Bool
  index  : Nat
  num    : Nat
deriving DecidableEq, Repr

/-- A product of web mode (R149): ordinal and latched spindle position. -/
structure Product where
  ord  : Word
  trig : Int
deriving DecidableEq, Repr

/-- The exposure in force, for ramps and fades: arc position of its LASER_ON, bobbin, fade-in length (R142, R211), the entry's
number. -/
structure Run where
  sOn  : Int
  bob  : Nat
  buf  : Bool
  fade : Nat
  num  : Nat
deriving DecidableEq, Repr

/-- A change of LGATE (R140), for deposits and frames: slot, level, absorptivity and material of the exposure (R253,
R255). -/
structure GateLog where
  slot : Nat
  high : Bool
  abs  : Nat
  mat  : Nat
deriving DecidableEq, Repr

/-- A tick as the melt-pool pipeline keeps it (R226): arc position, bed point, path tangent, whether neither stale nor
blind, whether its arc position counts on the path in work, bobbin, buffer and ID of the vector there. -/
structure Hist where
  k    : Nat
  s    : Rat
  x    : Rat
  y    : Rat
  tx   : Rat
  ty   : Rat
  good : Bool
  cur  : Bool
  vec  : Option (Nat × Bool × Word)
deriving DecidableEq, Repr

/-- The Traveller (R124 to R155) beside its registers: field maps, the sample state of R129 to R132, the schedule,
committed edges, what is in force, the gate and the code with the slot of its last change, whether a deviation or blindness holds the outputs
low, what was put out and measured lately, web products, and the position and speed of the web spindle at the last servo ticks
(R148). -/
structure Trv where
  live    : Option FMap
  pend    : Option FMap
  s       : Rat
  v       : Rat
  px      : Rat
  py      : Rat
  vx      : Rat
  vy      : Rat
  stale   : Nat
  blind   : Bool
  lastK   : Nat
  devOut  : Bool
  held    : Bool
  sched   : List Ent
  num     : Nat
  edges   : List Edge
  ramps   : List Step
  fades   : List Step
  on_     : Bool
  pwr     : Nat
  run     : Option Run
  ri      : Nat
  rj      : Nat
  fi      : Option Nat
  fo      : Option Nat
  dwellAt : Option (Nat × Ent)
  gate    : Bool
  code    : Nat
  codeAt  : Int
  defer   : Option (Int × Nat)
  codeEnt : Bool
  pairAt  : Option (Nat × Nat)
  corr    : Nat
  inhib   : Bool
  gates   : List GateLog
  codes   : List (Nat × Nat)
  hist    : List Hist
  waiting : List Product
  product : Option Product
  webRun  : Bool
  webAt   : List (Nat × Int × Int)
deriving DecidableEq, Repr

/-- A feature record as it reaches the correction unit (R236, R267), with its t_mid [ns] and the tick of its last pixel. -/
structure FeatIn where
  laser  : Bool
  noPos  : Bool
  noPool : Bool
  noTemp : Bool
  sMid   : Int
  bob    : Nat
  area   : Nat
  temp   : Nat
  tMid   : Nat
  last   : Nat
deriving DecidableEq, Repr

/-- The correction unit (R263 to R271) beside its registers: records on the dedicated path of R14, prediction requests that
wait for a response buffer (R16) with their entry, tile and arc position, entries whose prediction is awaited, moves' ff by the arc position where their run starts, and the deposit being summed with its material and the next tick to sum,
the energy sent this layer, the laser-on entries already asked for (R253, R263). -/
structure Cor where
  recs   : List FeatIn
  queue  : List (Nat × Nat × Int)
  await  : List (Nat × Int)
  ffs    : List (Int × Nat × Nat)
  integ  : Int
  frozen : Bool
  lost   : Bool
  failed : Bool
  depTile : Option Nat
  depNj  : Rat
  depN   : Nat
  depMat : Nat
  depK   : Nat
  sentNj : Nat
  asked  : Nat
deriving DecidableEq, Repr

/-- A head: one HEADCTL block with its three units, and who drives its laser outputs. -/
structure Head where
  drf : Drf
  trv : Trv
  cor : Cor
deriving DecidableEq, Repr

/-! Servo cells (06), of head spindles and of machine spindles (R331). -/

/-- An outstanding sample (R167 to R169): its tick, the cycle of its drive word, and its judgement once there is one. -/
structure Samp where
  k    : Nat
  sent : Nat
  good : Option Bool
deriving DecidableEq, Repr

/-- A spindle cell beside its registers. Angles in 2^-8 µrad or 2^-8 count, loop values in 2^-40 FS. `th1`, `th2` and
`om` are θm of the last two ticks and ωm; `newest` the newest good sample and whether its word came in time; `out` the
value last passed to the Traveller (R166), `kSent` the tick and cycle of the last drive word,
`due` the shadow values that wait for the tick in progress to be computed (R176, R177), `held` the tick in which it left its work, which
no later step of R175 takes it out of (R176). -/
structure SCell where
  st      : Nat
  tune    : Bool
  integ   : Int
  xa      : Int × Int
  ya      : Int × Int
  xb      : Int × Int
  yb      : Int × Int
  th1     : Int
  th2     : Int
  om      : Int
  newest  : Option (Nat × Int)
  samples : List Samp
  kSent   : Option (Nat × Nat)
  kDone   : Option Nat
  cmd     : Int
  en      : Bool
  u       : Int
  sp      : Int
  spV     : Int
  spA     : Int
  spMiss  : Bool
  feRun   : Nat
  feSaid  : Bool
  satRun  : Nat
  satSaid : Bool
  clipped : Bool
  bits    : Nat
  seq     : Nat
  ampOff  : Nat
  goodRun : Nat
  frozen  : Int
  first   : Bool
  recov   : Bool
  out     : Option (Nat × Int × Int)
  adopt   : Bool
  due     : List (Nat × Word)
  held    : Option Nat
deriving DecidableEq, Repr

/-- A tuning operation (R178 to R182): cell, whether in the chirp phase, ticks done in the phase, what was recorded in
the step phase, latest first, the step's rise time, overshoot and settling time, where in its turn the sine begins (2^-32
of a turn), the chirp ticks that clipped, the frequency points measured, latest first. -/
structure Tune where
  cell  : Nat
  chirp : Bool
  ticks : Nat
  rec_  : List (Int × Int)
  res   : Word × Word × Word
  turn  : Word
  clips : Nat
  pts   : List (Word × Word × Word × Word)
deriving DecidableEq, Repr

/-! Ply (07). -/

/-- A zone of the plan (R187). -/
structure Zone where
  heads : Word
  pts   : List (Int × Int)
deriving DecidableEq, Repr

/-- An item of the window (R189 to R195, R209): pool index of its header, ID, E, ZONE, first record still to run and
records after the header, index after its split group, fades, the cycle its age counts from with what it had before,
the head it is granted to, whether its first LASER_ON has fired, the records reported complete by pool index, its first vertex. -/
structure Item where
  ix      : Nat
  id      : Word
  elig    : Word
  zone    : Nat
  start   : Nat
  nvec    : Nat
  gEnd    : Nat
  fadeIn  : Nat
  fadeOut : Nat
  since   : Nat
  age0    : Nat
  head    : Option (Fin 32)
  begun   : Bool
  done    : List Nat
  x       : Int
  y       : Int
deriving DecidableEq, Repr

/-- A bed-frame box (R199) with the run it covers and, once the run's last LASER_OFF has fired, when. -/
structure PBox where
  x0  : Int
  y0  : Int
  x1  : Int
  y1  : Int
  run : Nat
  off : Option Nat
deriving DecidableEq, Repr

/-- A head at the ply arbiter and its agent (R192, R205, R217, R219): cleared boxes, the waiting request with the cycle
it came, token grants to others since, a grant on its way with the own record it was offered for, the item it took last, every
item it has not finished with the records complete at the agent by pool index (R196), its melt pool as last reported (R203). -/
structure PHead where
  boxes : List PBox
  req   : Option (PBox × Nat)
  count : Nat
  grant : Option (Nat × Nat)
  item  : Option Nat
  items : List (Nat × List Nat)
  melt  : Option (Rat × Rat)
deriving DecidableEq, Repr

/-- The ply arbiter beside its registers: zones and estimates of the plan, the next pool index, the window, the token,
the head it was last granted to, pairs in a plume excursion, plume geometry of the layer (R216). -/
structure Ply where
  zones : List Zone
  est   : Vector Nat 32
  next  : Nat
  items : List Item
  heads : Vector PHead 32
  token : Option (Fin 32)
  last  : Nat
  viol  : List (Nat × Nat)
  gx    : Rat
  gy    : Rat
  dist  : Rat
  tanH  : Rat
deriving DecidableEq, Repr

/-! Melt-pool vision (08). -/

/-- A settings set (R222): SID, exposure, gain, ROI word, frame timing, black levels. -/
structure CamSet where
  sid    : Nat
  exp    : Nat
  gain   : Nat
  roi    : Word
  period : Nat
  skew   : Nat
  phase  : Nat
  black  : List Nat
deriving DecidableEq, Repr

/-- A calibration image as loaded (R227). -/
structure Cal where
  period : Nat
  mosaic : Word
  sw     : Nat
  sh     : Nat
  rmin   : Nat
  rmax   : Nat
  shade  : List Nat
  rt     : List Nat
  defs   : List (Nat × Nat)
deriving DecidableEq, Repr

/-- An entry that waits for a real-time write port (R240, R286): ring and bytes. -/
structure RtEnt where
  ring  : Nat
  bytes : List Byte
deriving DecidableEq, Repr

/-- A slub check kind (R238): frames counted, whether an event is open. -/
structure SlubCk where
  count : Nat
  open_ : Bool
deriving DecidableEq, Repr

/-- What a camera runs on while it is a guest (R245): the registers and the calibration that its own MPV held at the fence, its set
in force and the sets sent. -/
structure CamView where
  ctl   : Word
  rtMin : Word
  pixNm : Word
  axis  : Word
  rot   : Word
  crop  : Word
  bin   : Word
  force : CamSet
  sent  : List (CamSet × Nat)
  cal   : Option Cal
deriving DecidableEq, Repr

/-- A melt-pool pipeline beside its registers: the set in force, sets sent with the tick of the frame they take effect
with, an accepted set with the cycle of its commit, the last frame's number, live and pending calibration, whether the
last frame was bad, slub checks, entries waiting at its ports, frames counted for DIV, entries due (R449), photodiode samples by tick, the
guest camera with the tick its binding starts at, the last binding with the tick it ended at, what it held at its last fence. -/
structure Mpv where
  force   : CamSet
  sent    : List (CamSet × Nat)
  wait    : Option (CamSet × Nat)
  seq     : Option (BitVec 16)
  fseq    : Nat
  cal     : Option Cal
  calPend : Option Cal
  bad     : Bool
  slubs   : Vector SlubCk 10
  logs    : List RtEnt
  arcs    : List RtEnt
  nArc    : Nat
  nThumb  : Nat
  dArc    : Nat
  dThumb  : Nat
  pds     : List (Nat × Nat)
  guest   : Option (Fin 4 × Nat)
  was     : Option (Fin 4 × Nat × Nat)
  kept    : Option CamView
deriving DecidableEq, Repr

/-! The bed thermal lattice (09). -/

/-- A tile (R252): TEMP [0.01 K], ENERGY [0.1 mJ], MAT, and its age in ns up to 0xFF_FFFF ms. -/
structure Tile where
  temp   : Nat
  energy : Nat
  mat    : Nat
  age    : Nat
deriving DecidableEq, Repr

/-- A deposit held for the next tick (R253, R254): tile, energy [nJ], material class, head, servo tick of arrival. -/
structure Dep where
  tile : Nat
  nj   : Nat
  mat  : Nat
  head : Nat
  k    : Nat
deriving DecidableEq, Repr

/-- The lattice beside its registers: the tiles that differ from `base` by tile index in rising order, deposits held,
geometry in force, the cycle of the last tick swept and of the last tick due, whether overruns follow one another, the
recoat step under way with t_r [ns], what the time since the previous layer counts from (R261), the rows that a LAT_READ
has copied since the last tick, the words that registers written in a cycle held before it, with the cycle (R258). -/
structure Lat where
  base   : Tile
  tiles  : List (Nat × Tile)
  deps   : List Dep
  ox     : Int
  oy     : Int
  pitch  : Nat
  sweptAt : Nat
  dueAt  : Nat
  over_  : Bool
  recoat : Option Nat
  since  : Nat
  rowTick : Nat
  prior  : List (Nat × Word)
  priorAt : Nat
deriving DecidableEq, Repr

/-! Layer imaging and lighting (10). -/

/-- A layer pipeline beside its registers: the channel a binding waits for, whether a check is armed, the layer ends
whose automatic check is still to be armed, whether the last bound frame was bad, records and frames waiting at its port, entries
due (R449). -/
structure Lpipe where
  pend  : Option (Fin 4)
  armed : Bool
  ends  : List Nat
  bad   : Bool
  out   : List RtEnt
  due   : Nat
deriving DecidableEq, Repr

/-- A lighting line beside its registers (R287 to R291): a frame request held, the cycle the frame in progress began with
its bits, duties last sent by 4 × module + channel, the lowest duty sent to each since the last status phase, a diagnostic
pulse under way since a cycle, its own frame still to be sent, the duties before it, the last refresh. -/
structure Light where
  want  : Bool
  frame : Option (Nat × Nat)
  stat  : Bool
  duty  : List Nat
  low   : List (Option Nat)
  diag  : Bool
  prev  : List Nat
  refAt : Nat
deriving DecidableEq, Repr

/-! Norhal lanes (11). -/

/-- A link frame as last sent on a virtual channel (R301): TYPE, SEQ, payload, whether bits were inverted after its CRC
(R325). -/
structure LFrame where
  type : Nat
  seq  : Nat
  data : List Byte
  bad  : Bool
deriving DecidableEq, Repr

/-- What a lane in TRAIN is doing (R314, R315): a trial, the wait after a failed sweep, the latency measurement. -/
inductive TrainPhase where
  | trial (since : Nat)
  | wait (since : Nat)
  | timing
deriving DecidableEq, Repr

/-- A management request that awaits its answer (R311): TYPE, when it was last sent, how often, and whether it still waits for
credits or for the lane to leave idle before it goes out. -/
structure Vc3 where
  type  : Nat
  since : Nat
  tries : Nat
  held  : Bool
deriving DecidableEq, Repr

/-- A lane beside its registers: training (rate and preset under trial, rates the partner offers, failed sweeps, the
settings last trained), signal lost since FAILED, the management request, the bytes fetched from the partner's store,
when CRC errors fell, the last credit violation, credits the partner has left, credits of VC1 to VC3 that it holds of the
device and the last CREDIT block sent to it (R312), SEQ and last frame of each channel, the injections that wait (channel, bits), the
TICKs of the FEEDBACK frames of the last 256 ticks with the tick each came in (R313), the start of an exit burst, a far test that
awaits its answer, when the pattern began and the bits injected into it (R325: position, how many), when the partner arrived. -/
structure Lane where
  phase   : TrainPhase
  rate    : Nat
  preset  : Nat
  rates   : BitVec 3
  sweeps  : Nat
  trained : Option (Nat × Nat)
  lost    : Bool
  vc3     : Option Vc3
  store   : List Byte
  crcAt   : List Nat
  violAt  : Option Nat
  cred1   : Nat
  cred3   : Nat
  grants  : Vector Nat 3
  back    : Option (Fin 3 × Nat)
  seqs    : Vector Nat 4
  sent    : Vector (Option LFrame) 4
  inj     : List (Nat × Nat)
  fbTicks : List (Word × Nat)
  burst   : Option Nat
  farAsk  : Option Nat
  far     : Bool
  patAt   : Nat
  patInj  : List (Nat × Nat)
  since   : Option Nat
deriving DecidableEq, Repr

/-! Machine spindles (12). -/

/-- A profile in progress (R341 to R343): where it started, its sign, its phases, time into it [µs], and what it is: a
queued move, a homing search, or a fall to rest. -/
inductive PKind where
  | move | search | fall
deriving DecidableEq, Repr

/-- See `PKind`. -/
structure PMove where
  kind   : PKind
  start  : Rat
  sign   : Int
  phases : List Phase
  t      : Rat
  target : Int
deriving DecidableEq, Repr

/-- Homing under way (R347): where it started, and the latched position once there is one. -/
structure Home where
  start   : Int
  latched : Option Int
deriving DecidableEq, Repr

/-- A machine spindle beside its registers: queue and profile, setpoint, speed and acceleration [counts, µs], homing,
the decoder's last levels, the BiSS-C or module position last taken, speed measurement (edges of the window, net
change, its start, last edge with its direction, the last period [5 ns]), standstill bookkeeping, when QUAD_ERR and
HALL_ERR were last raised, limits that tripped and are still active (R345), the compare list and its run, the step
input: target Q, last edge with its direction, P [cycles], the step's distance and the microsteps left (R352); runs of
raw levels of a module's LIM_N, LIM_P and HOME (R332, R344); whether nW was 0 in the last good frame; the profile values before the
writes of one cycle (R342); no EN 1 was written since the module came or went (R355). -/
structure Msp where
  queue    : List Int
  prof     : Option PMove
  set      : Rat
  vel      : Rat
  acc      : Rat
  home     : Option Home
  quad     : Bool × Bool
  hall     : Nat
  raw      : Option Int
  fresh    : Bool
  steps    : Int
  winEdges : Nat
  winNet   : Int
  winStart : Nat
  edgeAt   : Option (Nat × Bool)
  period   : Option Nat
  qerrAt   : Option Nat
  herrAt   : Option Nat
  blockN   : Bool
  blockP   : Bool
  list     : List (Int × Nat × Bool)
  ofs      : Int
  below    : Bool
  lateRun  : Bool
  pulseAt  : Option Nat
  q        : Rat
  stepAt   : Option (Nat × Bool)
  stepPer  : Option Nat
  micro    : Rat
  left     : Nat
  raws     : Vector (Bool × Nat × Int) 3
  bissBad  : Bool
  profWas  : Option (Nat × List Word)
  parked   : Bool
deriving DecidableEq, Repr

/-! Memory (13). -/

/-- A refresh unit of R373: owed refreshes, the cycle of the last accrual, the cycle of the last REFsb. -/
structure RefUnit where
  owed : Nat
  accr : Nat
  last : Option Nat
  was  : Option (Nat × Nat)
deriving DecidableEq, Repr

/-- A transaction in flight (R378): whether it carries panic, whether it hits an open row, its bytes, what it writes, what the line's
code and the device's parity say of it (R365, R366), how often younger ones have passed it, whether the scrubber asked (R367). -/
structure Flight where
  panic  : Bool
  hit    : Bool
  addr   : Nat
  len    : Nat
  data   : Option (List Byte)
  ecc    : EccOutcome
  cmdErr : Bool
  passed : Nat
  scrub  : Bool
deriving DecidableEq, Repr

/-- An SDRAM channel beside its registers: refresh units by 4 × rank + bank, polls in a row that asked for the normal
rate and the cycle of the last poll by rank (R374), ranks that raised NO_SPARE (R366), the scrubber's next line and when its pass
began (R367), the transactions in flight and those that wait for one to end, oldest first, the last answer (R378), the command slots
of the present eight and the migration's share of them (R368), SDC_TRAIN as training left it. -/
structure Sdc where
  units  : Vector RefUnit 16
  normal : Vector Nat 4
  polled : Vector Nat 4
  said   : List Nat
  scrub  : Nat
  scrubT : Nat
  flight : List Flight
  wait   : List Flight
  answer : Option (Nat × List Byte)
  slots  : Nat
  copies : Nat
  train  : Nat
deriving DecidableEq, Repr

/-- The SRAM pool beside its registers: words written through SRAMP_ACC_DATA, banks that a march left zero, spare
rows in use by bank, and the banks that replace an unusable one; the unusable banks, the rows (by address / 64) that a replacement
copied poisoned, and the real-time write ports in panic (R377, R379 to R387). -/
structure Pool where
  words : List (Nat × Word)
  zero  : List Nat
  rows  : List (Nat × List Nat)
  repl  : List (Nat × Nat)
  bad   : List Nat
  sick  : List Nat
  panic : List Nat
deriving DecidableEq, Repr

/-! Time (14) and claims (10). -/

/-- A claim (R292): resource index in its owner, and the feature that holds it: its block and number there. -/
structure Claim where
  owner : Blk
  ix    : Nat
  by_   : Blk
  sub   : Nat
deriving DecidableEq, Repr

/-- A PTP port beside its registers: the two-step Sync whose Follow_Up is awaited (sequence number, receive stamp,
correction), the stamps of the last Sync taken, the Delay_Req under way with its send stamp, the numbers of the next
messages sent, the cycle of the last Sync, and the cycles of the last Sync, Announce and Delay_Req sent. -/
structure PPort where
  wait   : Option (BitVec 16 × Int × Int)
  t1     : Int
  t2     : Int
  paired : Bool
  dreq   : Option (BitVec 16 × Int)
  dseq   : Nat
  tseq   : Nat
  aseq   : Nat
  syncAt : Nat
  tAt    : Option Nat
  aAt    : Option Nat
  dAt    : Option Nat
deriving DecidableEq, Repr

/-- A PTP message as sent (R391, R392, R394): port, messageType, sequence number, stamp in nanoseconds, domain, the source address where it
goes over UDP/IPv4, and the words TIME_CLOCK_Q and TIME_PRIO that an Announce carries (0 in other messages). -/
structure PtpOut where
  port    : Fin 2
  kind    : Nat
  seq     : Nat
  time    : Int
  domain  : Nat
  udp     : Option Word
  quality : Word
  prio    : Word
deriving DecidableEq, Repr

/-- The clock as kept at a servo tick (R398): the tick, the clock [2^-32 ns], the rate in force. -/
structure Stamp where
  tick  : Nat
  clock : Nat
  rate  : Rat
deriving DecidableEq, Repr

/-- A trigger beside its registers (R399): its current time [ns], and whether it had passed when it became current. -/
structure Trig where
  next : Nat
  late : Bool
deriving DecidableEq, Repr

/-- A TMARK ball (R400): its level, the cycle of the last firing, the width [ns] of its pulse. -/
structure Mark where
  level : Bool
  since : Nat
  width : Nat
deriving DecidableEq, Repr

/-- The clock [2^-32 ns] (R393), rate, integral term and path delay of R395, the ports, the last message sent,
triggers, balls, the clock kept at each servo tick (R398, R408), whether |offset| is above the alarm (R397), the cycle of the active
port's last offset (R397), and the cycle in which a skein start closed SET_OPEN (R396). -/
structure Tim where
  clock : Nat
  rate  : Rat
  acc   : Rat
  path  : Rat
  ports : Vector PPort 2
  sent  : Option PtpOut
  trig  : Vector Trig 8
  marks : Vector Mark 4
  stamp : List Stamp
  large : Bool
  offAt : Nat
  openTill : Option Nat
deriving DecidableEq, Repr

/-! Temperature and admission (16). -/

/-- A sensor beside THERM_SNS (R445, R446): samples in a row above and below each threshold, samples in a row that
are not valid, and that are valid while BROKEN. -/
structure Sns where
  above : Vector Nat 3
  below : Vector Nat 3
  bad   : Nat
  good  : Nat
deriving DecidableEq, Repr

/-- THERM beside its registers: sensors, the last change of J and the last fall below level 2 (R448), the start of
the grace, whether mode A is applied, the requests of R455 by cycle and head, the grants of the last 10 µs. -/
structure Thm where
  sns     : Vector Sns 64
  jAt     : Nat
  fellAt  : Nat
  grace   : Option Nat
  modeA   : Bool
  waiting : List (Nat × Nat)
  grants  : List Nat
deriving DecidableEq, Repr

/-! Calibration and journal (17). -/

/-- A hand-over of R464: channel, cells, cycle of its start, cycle at which the switch was armed, cycle of the switch,
and whether a fence of the serving cell started it (R471). -/
structure Ho where
  ch    : Fin 4
  spare : Nat
  old   : Nat
  since : Nat
  armed : Option Nat
  done  : Option Nat
  fence : Bool
deriving DecidableEq, Repr

/-- A BCHG block beside its registers: the hand-over, the trim under way with its start, the cells a run has still
to trim, their number at its start and those trimmed well, when each cell was last trimmed, channels without a cell (R471), hand-overs
that wait on a trim, the trims stored for soft reset (R467). -/
structure Bch where
  ho     : Option Ho
  trim   : Option (Nat × Nat)
  run    : Option (List Nat × Nat × List Nat)
  age    : Vector Nat 5
  lost   : Vector Bool 4
  wait   : List (Fin 4)
  stored : Vector (Word × Word × Word × Word) 5
deriving DecidableEq, Repr

/-- A journal record (R477). -/
structure JRec where
  type : Nat
  key  : Word
  seq  : Nat
  data : List Byte
deriving DecidableEq, Repr

/-- An area of the flash (R476): whether its header is valid, GEN, SEQ of the first record, records with the offset
at which each stands. -/
structure JArea where
  valid : Bool
  gen   : Nat
  first : Nat
  recs  : List (Nat × JRec)
  fill  : Nat
deriving DecidableEq, Repr

/-- Who asked for a transaction. -/
inductive JFrom where
  | device | append | shutdown
deriving DecidableEq, Repr

/-- A transaction that waits to be programmed: type, key and payload of its records. -/
structure JTx where
  recs : List (Nat × Word × List Byte)
  from_ : JFrom
deriving DecidableEq, Repr

/-- The journal store (R475 to R483) beside its registers: whether a flash was found, the erase size, the two areas,
the queue, whether its first transaction is being programmed and for the second time, doffing, whether it was asked
for after a failed write, whether a tail must be doffed before the first append, the records of a torn tail, the live area, the size
of the flash, whether it is read-only, whether a doffing waits for the write window (R480), and the trims of sensors, lanes and motion
ports in force, by type and cell (R461, R491). -/
structure Jrn where
  found  : Bool
  esize  : Nat
  areas  : Vector JArea 2
  seq    : Nat
  queue  : List JTx
  busy   : Bool
  retry  : Bool
  doff   : Bool
  failed : Bool
  torn   : Bool
  tail   : Nat
  opDone : Bool
  live   : Fin 2
  size   : Nat
  ro     : Bool
  want   : Bool
  trims  : List (Nat × Nat × List Byte)
deriving DecidableEq, Repr

/-- Everything of the device but SDRAM contents and the queue of waiting commands; `rounds` lists the arbiters that have
granted a message in the present cycle (R21), `lateRsp` counts late responses (R26), `ringFin` lists the disabled rings whose
descriptor in progress is still to complete (R84), `early` the rings whose bobbin load has already taken effect in this cycle
(R79), `prior` the words in force until the next servo tick of registers that have been written since the last (R154). -/
structure Dev where
  now      : Nat
  fresh    : Nat
  regs     : List (Nat × Word)
  live     : List (Nat × Word)
  prior    : List (Nat × Word)
  snap     : List (Nat × Word)
  cpl      : Cpl
  fabric   : List Msg
  reqs     : List Pend
  rounds   : List ArbId
  lateRsp  : Nat
  ops      : List OpRec
  fullAt   : Option Nat
  fullSaid : Bool
  vecs     : Vector Vec 64
  shadows  : List Shadow
  wakeReq  : List (Nat × Blk)
  wakeLast : Option (Nat × Nat)
  flt      : Flt
  alive    : Bool
  aliveAt  : Nat
  sdwnN    : Bool
  boot     : Boot
  bobs     : Vector Bob 256
  keyStage : List Word
  keys     : Vector (Option (BitVec 256)) 32
  ringLast : Nat
  ringFin  : List (Fin 8)
  early    : List (Fin 8)
  staged   : Option Skein
  running  : Option Skein
  rep      : Rep
  layerEnd : Option Nat
  heads    : Vector Head 32
  cells    : Vector SCell 256
  tunes    : Vector (Option Tune) 8
  ply      : Ply
  mpvs     : Vector Mpv 32
  lat      : Lat
  lpipes   : Vector Lpipe 2
  lights   : Vector Light 4
  lanes    : Vector Lane 40
  msps     : Vector Msp 64
  sdc      : Vector Sdc 2
  pool     : Pool
  tim      : Tim
  claims   : List Claim
  thm      : Thm
  bch      : Vector Bch 8
  jrn      : Jrn
deriving DecidableEq, Repr

/-- The machine: the queue of waiting commands (first in, first out), SDRAM, and the device. -/
structure State where
  pending : List Instr
  mem     : Mem
  dev     : Dev
deriving DecidableEq, Repr

/-- The fault collector after reset (R443): nothing queued, counted or fenced. -/
def Flt.init : Flt where
  queue := []
  handling := []
  storm := Vector.replicate 16 ⟨0, [], 0⟩
  cf := Vector.replicate 64 none
  wdogFrom := none
  slices := Vector.replicate 16 ⟨none, 0, 0, [], none⟩
  spares := []
  took := false
  fences := []

/-- The pins and the sequence right after power-on reset, before its release (R484; log 10, DESIGN CHOICE). -/
def Boot.init : Boot where
  porst := false
  chiprst := true
  perst := false
  supply := true
  vstby := true
  edge := 0
  stageAt := 0
  fuseOk := false
  lanesEnd := false
  fillEnd := false
  debugOn := false
  extest := none
  bsr := 0
  tap := 0

/-- A bobbin after reset: generation 0, no image (R71). -/
def Bob.init : Bob := ⟨0, ⟨[], false⟩, ⟨[], false⟩, false, false⟩

/-- No layer has run: an empty report. -/
def Rep.init : Rep := ⟨0, 0, [], 0, 0, Vector.replicate 32 ⟨0, 0, 0, 0, 0, 0, 0⟩, false, 0, 0, 0, none⟩

/-- The Drafter after reset: at the field centre, idle, nothing queued. -/
def Drf.init : Drf where
  st := 0
  inLayer := false
  listAddr := 0
  listLen := 0
  nextRec := 0
  fetch := []
  items := []
  handOver := []
  poly := none
  moves := []
  trail := []
  arcEnd := 0
  endX := 0
  endY := 0
  x := 0
  y := 0
  z := 0
  vx := 0
  vy := 0
  ax := 0
  ay := 0
  zTgt := 0
  speed := 1
  speedReq := 1
  cap := 0
  caps := []
  auxTgt := Vector.replicate 3 0
  auxNow := Vector.replicate 3 0
  atHold := false
  holdFrom := none
  ownDone := 0
  needAdm := false
  admAsk := false
  fetchBad := 0
  open_ := false
  runNo := 0
  first_ := false
  entered := 0
  pos := 0
  full := false
  owed := false
  tickAt := none

/-- The Traveller after power-on reset: no field map, nothing scheduled, gate low, code 0. -/
def Trv.init : Trv where
  live := none
  pend := none
  s := 0
  v := 0
  px := 0
  py := 0
  vx := 0
  vy := 0
  stale := 0
  blind := false
  lastK := 0
  devOut := false
  held := false
  sched := []
  num := 0
  edges := []
  ramps := []
  fades := []
  on_ := false
  pwr := 0
  run := none
  ri := 0
  rj := 0
  fi := none
  fo := none
  dwellAt := none
  gate := false
  code := 0
  codeAt := 0
  defer := none
  codeEnt := false
  pairAt := none
  corr := 32768
  inhib := false
  gates := []
  codes := []
  hist := []
  waiting := []
  product := none
  webRun := false
  webAt := []

/-- The correction unit after reset. -/
def Cor.init : Cor := ⟨[], [], [], [], 0, false, false, false, none, 0, 0, 0, 0, 0, 0⟩

/-- A spindle cell after reset (R165): OFF, nothing filtered. -/
def SCell.init : SCell where
  st := 0
  tune := false
  integ := 0
  xa := (0, 0)
  ya := (0, 0)
  xb := (0, 0)
  yb := (0, 0)
  th1 := 0
  th2 := 0
  om := 0
  newest := none
  samples := []
  kSent := none
  kDone := none
  cmd := 0
  en := false
  u := 0
  sp := 0
  spV := 0
  spA := 0
  spMiss := false
  feRun := 0
  feSaid := false
  satRun := 0
  satSaid := false
  clipped := false
  bits := 0
  seq := 0
  ampOff := 0
  goodRun := 0
  frozen := 0
  first := false
  recov := false
  out := none
  adopt := false
  due := []
  held := none

/-- The ply arbiter after reset: no layer. -/
def Ply.init : Ply where
  zones := []
  est := Vector.replicate 32 0
  next := 0
  items := []
  heads := Vector.replicate 32 ⟨[], none, 0, none, none, [], none⟩
  token := none
  last := 31
  viol := []
  gx := 1
  gy := 0
  dist := 0
  tanH := 0

/-- The settings of SID 0, in force after reset (R223, R248). -/
def CamSet.init : CamSet := ⟨0, 2000, 256, 0x40400000, 10, 0, 0, [0, 0, 0, 0]⟩

/-- A pipeline after reset. -/
def Mpv.init : Mpv where
  force := CamSet.init
  sent := []
  wait := none
  seq := none
  fseq := 0
  cal := none
  calPend := none
  bad := false
  slubs := Vector.replicate 10 ⟨0, false⟩
  logs := []
  arcs := []
  nArc := 0
  nThumb := 0
  dArc := 0
  dThumb := 0
  pds := []
  guest := none
  was := none
  kept := none

/-- The lattice after reset: tiles of zeros (log 6, DESIGN CHOICE), the geometry of the registers' reset values. -/
def Lat.init : Lat where
  base := ⟨0, 0, 0, 0⟩
  tiles := []
  deps := []
  ox := 0
  oy := 0
  pitch := 1953125
  sweptAt := 0
  dueAt := 0
  over_ := false
  recoat := none
  since := 0
  rowTick := 0
  prior := []
  priorAt := 0

/-- A layer pipeline after reset: channel 0 bound. -/
def Lpipe.init : Lpipe := ⟨none, false, [], false, [], 0⟩

/-- A lighting line after reset: idle, nothing sent. -/
def Light.init : Light := ⟨false, none, false, [], List.replicate 256 none, false, [], 0⟩

/-- A lane after reset. -/
def Lane.init : Lane where
  phase := .trial 0
  rate := 0
  preset := 0
  rates := 7
  sweeps := 0
  trained := none
  lost := false
  vc3 := none
  store := []
  crcAt := []
  violAt := none
  cred1 := 0
  cred3 := 0
  grants := #v[256, 8, 16]
  back := none
  seqs := Vector.replicate 4 0
  sent := Vector.replicate 4 none
  inj := []
  fbTicks := []
  burst := none
  farAsk := none
  far := false
  patAt := 0
  patInj := []
  since := none

/-- A machine spindle after reset: at rest at 0. -/
def Msp.init : Msp where
  queue := []
  prof := none
  set := 0
  vel := 0
  acc := 0
  home := none
  quad := (false, false)
  hall := 0
  raw := none
  fresh := false
  steps := 0
  winEdges := 0
  winNet := 0
  winStart := 0
  edgeAt := none
  period := none
  qerrAt := none
  herrAt := none
  blockN := false
  blockP := false
  list := []
  ofs := 0
  below := false
  lateRun := false
  pulseAt := none
  q := 0
  stepAt := none
  stepPer := none
  micro := 0
  left := 0
  raws := Vector.replicate 3 (false, 0, 0)
  bissBad := false
  profWas := none
  parked := false

/-- A channel after reset: nothing owed, nothing polled. -/
def Sdc.init : Sdc where
  units := Vector.replicate 16 ⟨0, 0, none, none⟩
  normal := Vector.replicate 4 0
  polled := Vector.replicate 4 0
  said := []
  scrub := 0
  scrubT := 0
  flight := []
  wait := []
  answer := none
  slots := 0
  copies := 0
  train := 0

/-- A PTP port after reset. -/
def PPort.init : PPort := ⟨none, 0, 0, false, none, 0, 0, 0, 0, none, none, none⟩

/-- The clock after power-on reset: 0 (log 9, DESIGN CHOICE), not set. -/
def Tim.init : Tim where
  clock := 0
  rate := 0
  acc := 0
  path := 0
  ports := Vector.replicate 2 PPort.init
  sent := none
  trig := Vector.replicate 8 ⟨0, false⟩
  marks := Vector.replicate 4 ⟨false, 0, 0⟩
  stamp := []
  large := false
  offAt := 0
  openTill := none

/-- THERM after reset. -/
def Thm.init : Thm where
  sns := Vector.replicate 64 ⟨Vector.replicate 3 0, Vector.replicate 3 0, 0, 0⟩
  jAt := 0
  fellAt := 0
  grace := none
  modeA := false
  waiting := []
  grants := []

/-- A BCHG block after reset. -/
def Bch.init : Bch where
  ho := none
  trim := none
  run := none
  age := Vector.replicate 5 0
  lost := Vector.replicate 4 false
  wait := []
  stored := Vector.replicate 5 (0, 0, 0, 0)

/-- The journal before its first start: a flash without a valid header (log 17, DESIGN CHOICE). -/
def Jrn.init : Jrn where
  found := false
  esize := 4096
  areas := Vector.replicate 2 ⟨false, 0, 0, [], 0⟩
  seq := 0
  queue := []
  busy := false
  retry := false
  doff := false
  failed := false
  torn := false
  tail := 0
  opDone := false
  live := 0
  size := 0
  ro := false
  want := false
  trims := []

/-- The device after power-on reset: every register at the reset value of its table (R7), nothing under way. -/
def Dev.init : Dev where
  now := 0
  fresh := 0
  regs := []
  live := []
  prior := []
  snap := []
  cpl := ⟨[], false⟩
  fabric := []
  reqs := []
  rounds := []
  lateRsp := 0
  ops := []
  fullAt := none
  fullSaid := false
  vecs := Vector.replicate 64 ⟨false, none, 0, none⟩
  shadows := []
  wakeReq := []
  wakeLast := none
  flt := Flt.init
  alive := false
  aliveAt := 0
  sdwnN := true
  boot := Boot.init
  bobs := Vector.replicate 256 Bob.init
  keyStage := List.replicate 8 0
  keys := Vector.replicate 32 none
  ringLast := 7
  ringFin := []
  early := []
  staged := none
  running := none
  rep := Rep.init
  layerEnd := none
  heads := Vector.replicate 32 ⟨Drf.init, Trv.init, Cor.init⟩
  cells := Vector.replicate 256 SCell.init
  tunes := Vector.replicate 8 none
  ply := Ply.init
  mpvs := Vector.replicate 32 Mpv.init
  lat := Lat.init
  lpipes := Vector.replicate 2 Lpipe.init
  lights := Vector.replicate 4 Light.init
  lanes := Vector.replicate 40 Lane.init
  msps := Vector.replicate 64 Msp.init
  sdc := Vector.replicate 2 Sdc.init
  pool := ⟨[], [], [], [], [], [], []⟩
  tim := Tim.init
  claims := []
  thm := Thm.init
  bch := Vector.replicate 8 Bch.init
  jrn := Jrn.init

/-- The machine right after power-on reset: no command waits, no SDRAM byte is listed (log 3, DESIGN CHOICE). -/
def State.reset : State where
  pending := []
  mem := ⟨[], [], Vector.replicate 2 none⟩
  dev := Dev.init

end Sys2Proof.Machine
end

