-- ==== Sys2Proof/Machine/Ops.lean ====
section
/-! DEFINITION. Named operations over registers and SDRAM: reading and writing a register's stored word, counters,
values in force, service state of a block (R25, R43, R44), the installed SDRAM (R363) and its bytes (R4, R369). -/

namespace Sys2Proof.Machine

/-! Lifting a change of the device to a meaning. -/

/-- The next state in which only the device changed. -/
def onDev (f : Dev → Dev) (s : State) : Host.Outcome State Fault Refusal := .next { s with dev := f s.dev }

/-- The next state in which device and SDRAM changed. -/
def onMem (f : Mem → Dev → Mem × Dev) (s : State) : Host.Outcome State Fault Refusal :=
  .next { s with mem := (f s.mem s.dev).1, dev := (f s.mem s.dev).2 }

/-- A change that takes place only where its condition holds (log 11, DESIGN CHOICE). -/
def Dev.when (d : Dev) (c : Bool) (f : Dev → Dev) : Dev := if c then f d else d

/-! Registers. -/

/-- The stored word at a BAR0 offset, `rst` where nothing was stored. -/
def Dev.rget (d : Dev) (a : Nat) (rst : Word) : Word := (spGet d.regs a).getD rst

/-- Store a word at a BAR0 offset. -/
def Dev.rput (d : Dev) (a : Nat) (v : Word) : Dev := { d with regs := spPut d.regs a v }

/-- The stored word of a register. -/
def Dev.get (d : Dev) (b : Blk) (r : Reg) (i : Nat := 0) (j : Nat := 0) : Word := d.rget (radr b r i j) r.rst

/-- Store a word in a register. -/
def Dev.put (d : Dev) (b : Blk) (r : Reg) (v : Word) (i : Nat := 0) (j : Nat := 0) : Dev := d.rput (radr b r i j) v

/-- A register's value as a number. -/
def Dev.getN (d : Dev) (b : Blk) (r : Reg) (i : Nat := 0) (j : Nat := 0) : Nat := (d.get b r i j).toNat

/-- A register's value as a signed number. -/
def Dev.getI (d : Dev) (b : Blk) (r : Reg) (i : Nat := 0) (j : Nat := 0) : Int := (d.get b r i j).toInt

/-- Bits [hi:lo] of a register. -/
def Dev.getF (d : Dev) (b : Blk) (r : Reg) (hi lo : Nat) (i : Nat := 0) (j : Nat := 0) : Nat := fld (d.get b r i j) hi lo

/-- Bit `k` of a register. -/
def Dev.getB (d : Dev) (b : Blk) (r : Reg) (k : Nat) (i : Nat := 0) (j : Nat := 0) : Bool := bit (d.get b r i j) k

/-- Set bits [hi:lo] of a register. -/
def Dev.putF (d : Dev) (b : Blk) (r : Reg) (hi lo n : Nat) (i : Nat := 0) (j : Nat := 0) : Dev :=
  d.put b r (setFld (d.get b r i j) hi lo n) i j

/-- Set bit `k` of a register. -/
def Dev.putB (d : Dev) (b : Blk) (r : Reg) (k : Nat) (v : Bool) (i : Nat := 0) (j : Nat := 0) : Dev :=
  d.putF b r k k v.toNat i j

/-- Count up a 32-bit counter, which saturates (log 16, DEDUCED). -/
def Dev.bump (d : Dev) (b : Blk) (r : Reg) (n : Nat := 1) (i : Nat := 0) (j : Nat := 0) : Dev :=
  d.put b r (wd (satAdd 0xFFFFFFFF (d.getN b r i j) n)) i j

/-- Count up a counter in bits [hi:lo], which saturates (log 16, DEDUCED). -/
def Dev.bumpF (d : Dev) (b : Blk) (r : Reg) (hi lo : Nat) (n : Nat := 1) (i : Nat := 0) (j : Nat := 0) : Dev :=
  d.putF b r hi lo (satAdd (2 ^ (hi + 1 - lo) - 1) (d.getF b r hi lo i j) n) i j

/-- The value in force of a register that is taken up later than written. -/
def Dev.liv (d : Dev) (b : Blk) (r : Reg) (i : Nat := 0) (j : Nat := 0) : Word := (spGet d.live (radr b r i j)).getD r.rst

/-- Take a value into force. -/
def Dev.setLiv (d : Dev) (b : Blk) (r : Reg) (v : Word) (i : Nat := 0) (j : Nat := 0) : Dev :=
  { d with live := spPut d.live (radr b r i j) v }

/-- The value in force of a register whose writes take effect at the next servo tick (R154). -/
def Dev.tget (d : Dev) (b : Blk) (r : Reg) (i : Nat := 0) (j : Nat := 0) : Word :=
  match d.prior.find? fun x => x.1 = radr b r i j with
  | some x => x.2
  | none => d.get b r i j

/-- A register of that kind is about to be written: its value stays in force until the next servo tick. -/
def Dev.keepPrior (d : Dev) (b : Blk) (r : Reg) (i : Nat := 0) (j : Nat := 0) : Dev :=
  { d with prior := (radr b r i j, d.tget b r i j) :: d.prior.filter fun x => x.1 ≠ radr b r i j }

/-- Latch a word that a later read of `r` returns. -/
def Dev.setSnap (d : Dev) (b : Blk) (r : Reg) (v : Word) (i : Nat := 0) (j : Nat := 0) : Dev :=
  { d with snap := spPut d.snap (radr b r i j) v }

/-- A fresh value the manual leaves open (log 2, DESIGN CHOICE), and the state with the counter advanced. -/
def Dev.free (d : Dev) : Word × Dev := (Config.freeWord d.fresh, { d with fresh := d.fresh + 1 })

/-- The servo tick count: the device counts microseconds of the fabric clock (R21, 800 cycles a tick). -/
def Dev.tick (d : Dev) : Nat := d.now / 800

/-- Have `us` microseconds passed since cycle `t`? -/
def Dev.past (d : Dev) (t us : Nat) : Bool := t + us * 800 ≤ d.now

/-- Have `ns` nanoseconds passed since cycle `t`? -/
def Dev.pastNs (d : Dev) (t ns : Nat) : Bool := t * 5 + ns * 4 ≤ d.now * 5

/-- The current slot of the 400 MHz event clock (R135): two fabric cycles each. -/
def Dev.slot (d : Dev) : Nat := d.now / 2

/-! Service state of a block. -/

/-- The fence state of BLK_CTL.FENCE (R43). -/
def Dev.fence (d : Dev) (b : Blk) : Nat := d.getF b R.BLK_CTL 5 4

/-- Is the block fenced, in any state? -/
def Dev.fenced (d : Dev) (b : Blk) : Bool := d.fence b ≠ 0

/-- Is the block in soft reset (R43)? -/
def Dev.inReset (d : Dev) (b : Blk) : Bool := d.getB b R.BLK_CTL 1

/-- Is the cell in the cell fence list (R421)? -/
def Dev.cellFenced (d : Dev) (b : Blk) (c : Nat) : Bool := d.flt.cf.toList.any fun x => x == some ⟨b, c⟩

/-- Is the unit out of service: its block, or the named cell (R25)? The answer is the status of R24. -/
def Dev.unitStatus (d : Dev) (b : Blk) (c : Option Nat) : Nat :=
  match blkKind b with
  | none => 3
  | some _ =>
    if d.fenced b then 1 else if d.inReset b then 2
    else match c with
      | some k => if d.cellFenced b k then 1 else 0
      | none => 0

/-- The status for a block as a whole. -/
def Dev.status (d : Dev) (b : Blk) : Nat := d.unitStatus b none

/-- Is the block in service: implemented, not fenced and not in reset? -/
def Dev.up (d : Dev) (b : Blk) : Bool := d.status b = 0

/-- The shadow has not passed its end, 10 µs after the reset that casts it (R422); the cycle of its end still lies in
it (R425). -/
def Dev.shadowOpen (d : Dev) (s : Shadow) : Bool :=
  match s.ends with
  | none => true
  | some e => d.now ≤ e + 8000

/-- Is a unit inside a reset shadow that began before this fabric cycle (R422, R425)? A block is asked for its cells
with the cell, for itself with none. -/
def Dev.shadowed (d : Dev) (b : Blk) (c : Option Nat) : Bool :=
  d.shadows.any fun s => s.blk = b ∧ (s.cell = none ∨ s.cell = c) ∧ s.start < d.now ∧ d.shadowOpen s

/-- BLK_STAT.SHADOW: the block is shadowed as a whole or in any cell (R422). -/
def Dev.shadowBit (d : Dev) (b : Blk) : Bool := d.shadows.any fun s => s.blk = b ∧ d.shadowOpen s

/-- The long operation a block holds. -/
def Dev.op (d : Dev) (b : Blk) : Option OpRec := d.ops.find? fun o => o.blk = b

/-- OP_STAT.STATE (R48). -/
def Dev.opState (d : Dev) (b : Blk) : Nat := d.getF b R.OP_STAT 31 28

/-- Is a long operation with code `c` running in the block? -/
def Dev.opRunning (d : Dev) (b : Blk) (c : Nat) : Bool :=
  d.opState b = 2 && (match d.op b with | some o => o.code = c | none => false)

/-- BOOT_STAT.READY: the device has declared host-ready (R496). -/
def Dev.ready (d : Dev) : Bool := d.getB (blk .boot 0) R.BOOT_STAT 4

/-- BOOT_STAT.STAGE (R487). -/
def Dev.stage (d : Dev) : Nat := d.getF (blk .boot 0) R.BOOT_STAT 3 0

/-- Thermal shutdown is latched: STAGE 9 (R488). -/
def Dev.shut (d : Dev) : Bool := d.stage = 9

/-! SDRAM bytes. -/

/-- The byte at an address; an unlisted one reads 0 (log 3, DESIGN CHOICE). -/
def Mem.byte (m : Mem) (a : Nat) : Byte := (spGet m.cells a).getD 0

/-- Write one byte, keeping the canonical form. -/
def Mem.putByte (m : Mem) (a : Nat) (v : Byte) : Mem :=
  { m with cells := if v = 0 then spDel m.cells a else spPut m.cells a v }

/-- Read `n` bytes from `a`. -/
def Mem.bytes (m : Mem) (a n : Nat) : List Byte := (List.range n).map fun i => m.byte (a + i)

/-- Write bytes from `a` on, without regard to poison. -/
def Mem.rawWrite (m : Mem) (a : Nat) : List Byte → Mem
  | [] => m
  | b :: bs => (m.putByte a b).rawWrite (a + 1) bs

/-- A little-endian dword. -/
def Mem.word (m : Mem) (a : Nat) : Word := wd (leNat (m.bytes a 4))

/-- `n` dwords from `a`. -/
def Mem.words (m : Mem) (a n : Nat) : List Word := (List.range n).map fun i => m.word (a + 4 * i)

/-- A little-endian 64-bit value. -/
def Mem.quad (m : Mem) (a : Nat) : Nat := leNat (m.bytes a 8)

/-- The 64-byte lines that `n` bytes from `a` touch. -/
def linesOf (a n : Nat) : List Nat := if n = 0 then [] else List.range' (a / 64) ((a + n - 1) / 64 + 1 - a / 64)

/-- Is a line of the range poisoned (R369)? -/
def Mem.poisoned (m : Mem) (a n : Nat) : Bool := m.poison.any fun l => a / 64 ≤ l ∧ l * 64 < a + n ∧ 0 < n

/-- Poison a line, keeping the list in rising order. -/
def insertLine : List Nat → Nat → List Nat
  | [], l => [l]
  | x :: t, l => if l < x then l :: x :: t else if l = x then x :: t else x :: insertLine t l

/-- The channel of an address (R362). -/
def chanOf (a : Nat) : Nat := a / 128 % 2

/-- The line of its channel that an address lies in, counted within its logical rank (R362). -/
def lineIn (rb a : Nat) : Nat := a / 256 % 2 ^ (11 + rb) * 2 + a / 64 % 2

/-- The address of a line of a channel. -/
def lineAddr (rb ch rank i : Nat) : Nat := rank * 2 ^ (19 + rb) + i / 2 * 256 + ch * 128 + i % 2 * 64

/-- Keep, for a migration under way, what the source holds of a line that a request is about to write in the target
(R368). -/
def Mem.keepLine (m : Mem) (l : Nat) : Mem :=
  let ch := Fin.ofNat 2 (chanOf (l * 64))
  match m.migs[ch] with
  | none => m
  | some g =>
    let i := lineIn g.rb (l * 64)
    if l * 64 / 2 ^ (19 + g.rb) = g.rank ∧ i < g.p ∧ ¬ g.old.any (fun x => x.1 = l) then
      { m with migs := m.migs.set ch (some { g with old := (l, m.bytes (l * 64) 64, l ∈ m.poison) :: g.old }) }
    else m

/-- A write as the memory serves it: a line written whole loses its poison, a partial write leaves it (R369). -/
def Mem.write (m : Mem) (a : Nat) (bs : List Byte) : Mem :=
  let m' := ((linesOf a bs.length).foldl Mem.keepLine m).rawWrite a bs
  { m' with poison := m'.poison.filter fun l => ¬ (a ≤ l * 64 ∧ l * 64 + 64 ≤ a + bs.length) }

/-- Mark a line poisoned. -/
def Mem.mark (m : Mem) (l : Nat) : Mem := { m with poison := insertLine m.poison l }

/-- A migration ends without remapping (R371): the source is in service again with what it holds, and what requests
wrote in the target is discarded. -/
def Mem.migDrop (m : Mem) (ch : Fin 2) : Mem :=
  match m.migs[ch] with
  | none => m
  | some g =>
    let m1 := g.old.foldl (fun x o => x.rawWrite (o.1 * 64) o.2.1) m
    let p := g.old.foldl (fun ls o => if o.2.2 then insertLine ls o.1 else ls.filter fun l => l ≠ o.1) m1.poison
    { m1 with poison := p, migs := m1.migs.set ch none }

/-- Row bits of the SDC_CFG.DENSITY that training read (R360, R362, R364). -/
def Dev.rowBits (d : Dev) : Nat := if bit (d.liv (blk .sdc 0) R.SDC_CFG) 6 then 17 else 16

/-- Bytes of one logical rank over both channels (R363). -/
def Dev.rankBytes (d : Dev) : Nat := 2 ^ (19 + d.rowBits)

/-- The installed SDRAM in bytes (R363): the logical ranks filled in both channels; none before host-ready as BAR2
sees it (R497). -/
def Dev.installed (d : Dev) : Nat := d.getF (blk .boot 0) R.BOOT_FILL 2 0 * d.rankBytes

/-- The status a fabric request for `n` bytes at `a` gets from SDRAM (R363, R366, R369, R372): 3 beyond the installed
size, 1 or 2 for a channel out of service, 4 without a rank in service or, on a read, for a poisoned line. -/
def Dev.sdStatus (d : Dev) (m : Mem) (a n : Nat) (write : Bool) : Nat :=
  if n = 0 then 0 else
  if d.installed < a + n then 3 else
  let chs := (linesOf a (min n 256)).map fun l => chanOf (l * 64)
  let st (c : Nat) : Nat :=
    let s := d.status (blk .sdc c)
    if s ≠ 0 then s else if d.getB (blk .sdc c) R.SDC_STAT 18 then 4 else 0
  let e0 := if 0 ∈ chs then st 0 else 0
  let e1 := if 1 ∈ chs then st 1 else 0
  if e0 ≠ 0 then e0 else if e1 ≠ 0 then e1
  else if ¬ write ∧ m.poisoned a n then 4 else 0

/-- A fabric read: the bytes, or the status of R24. -/
def Dev.sdRead (d : Dev) (m : Mem) (a n : Nat) : Except Nat (List Byte) :=
  match d.sdStatus m a n false with
  | 0 => .ok (m.bytes a n)
  | e => .error e

/-- A fabric write: the memory after it, or the status. -/
def Dev.sdWrite (d : Dev) (m : Mem) (a : Nat) (bs : List Byte) : Except Nat Mem :=
  match d.sdStatus m a bs.length true with
  | 0 => .ok (m.write a bs)
  | e => .error e

/-- A fabric write whose failure is not reported to the writer: the memory after it. -/
def Dev.sdPut (d : Dev) (m : Mem) (a : Nat) (bs : List Byte) : Mem :=
  match d.sdWrite m a bs with
  | .ok m' => m'
  | .error _ => m

/-- A response with status 0x2 puts the requester in the reset shadow of the block it came from, from now until that
shadow ends (R423). -/
def Dev.shadowOn (d : Dev) (by_ user : Blk) : Dev :=
  if d.shadows.any fun s => s.by_ = by_ ∧ s.blk = user ∧ s.cell = none ∧ s.ends = none then d
  else { d with shadows := d.shadows ++ [⟨by_, user, none, d.now, none⟩] }

/-- What an SDRAM request by a block leaves on it: the shadow of a channel in reset (R423). -/
def Dev.sdMark (d : Dev) (user : Blk) (a n : Nat) : Dev :=
  if n = 0 ∨ d.installed < a + n then d
  else [0, 1].foldl (fun (e : Dev) c =>
    if d.status (blk .sdc c) = 2 ∧ ((linesOf a (min n 256)).any fun l => chanOf (l * 64) = c) then
      e.shadowOn (blk .sdc c) user
    else e) d

/-- The address in a pair of registers. -/
def Dev.addr2 (d : Dev) (b : Blk) (lo hi : Reg) (i : Nat := 0) : Nat := d.getN b lo i + d.getN b hi i * 2 ^ 32

end Sys2Proof.Machine
end

