-- ==== Sys2Proof/Machine/Flags.lean ====
section
/-! DEFINITION. Flag computations: MSI-X vectors (R57, R58), event registers, fault kinds with their message, shadow
and critical summary line (R407 to R412, R424, R427 to R430), and the state word of a long operation (R48 to R52). -/

namespace Sys2Proof.Machine

/-! MSI-X vectors. -/

/-- HIF. -/
def hif : Blk := blk .hif 0

/-- The pending bit of a vector. -/
def Dev.vPend (d : Dev) (v : Nat) : Bool := d.getB hif R.HIF_EVT_PEND (v % 32) (v / 32)

/-- The vector is enabled in HIF_EVT_EN and not masked in the MSI-X table. -/
def Dev.vOpen (d : Dev) (v : Nat) : Bool :=
  d.getB hif R.HIF_EVT_EN (v % 32) (v / 32) && !d.getB hif R.MSIX_CTL 0 v

/-- Has the gap since the last message of a vector passed (R58)? -/
def Dev.vGapOver (d : Dev) (v : Fin 64) : Bool :=
  match d.vecs[v].last with
  | none => true
  | some t => d.past t (d.getF hif R.HIF_EVT_GAP 9 0)

/-- Send a vector's message, or hold it back while HIF_EVT_GAP has not passed since the last one (R58). -/
def Dev.vSend (d : Dev) (v : Nat) : Dev :=
  let i := Fin.ofNat 64 v
  if d.vGapOver i = true then
    { d with vecs := vmod d.vecs i fun x => { x with held := false, last := some d.now, sent := x.sent + 1 } }
  else { d with vecs := vmod d.vecs i fun x => { x with held := true } }

/-- An event on a vector: sets its pending bit; a bit going from 0 to 1 on an open vector sends (R58). -/
def Dev.vector (d : Dev) (v : Nat) : Dev :=
  let d1 : Dev := { d with vecs := vmod d.vecs (Fin.ofNat 64 v) fun x => { x with evAt := some d.now } }
  if d.vPend v then d1
  else
    let d' := d1.putB hif R.HIF_EVT_PEND (v % 32) true (v / 32)
    if d'.vOpen v then d'.vSend v else d'

/-- The host clears pending bits: one whose event came in this cycle stays set, and its message is sent again (R58). -/
def Dev.vClear (d : Dev) (i : Fin 2) (v : Word) : Dev :=
  (List.range 32).foldl (fun (e : Dev) j =>
    let n := 32 * i.val + j
    if ¬ (bit v j ∧ e.vPend n) then e
    else if e.vecs[Fin.ofNat 64 n].evAt = some e.now then (if e.vOpen n then e.vSend n else e)
    else e.putB hif R.HIF_EVT_PEND j false i.val) d

/-- Set bits of an event register; an enabled bit that goes from 0 to 1 raises the vector. -/
def Dev.event (d : Dev) (b : Blk) (r en : Reg) (m : Word) (vec : Nat) (i : Nat := 0) : Dev :=
  let old := d.get b r i
  let d' := d.put b r (old ||| m) i
  if m &&& ~~~old &&& d.get b en i = 0 then d' else d'.vector vec

/-- Set bits of an event register that raises no vector. -/
def Dev.eventQuiet (d : Dev) (b : Blk) (r : Reg) (m : Word) (i : Nat := 0) : Dev := d.put b r (d.get b r i ||| m) i

/-! Faults. -/

/-- FLTC. -/
def fltc : Blk := blk .fltc 0

/-- The critical summary line of a region (R412). -/
def Dev.critLine (d : Dev) (r : Fin 16) : Bool :=
  (blksOf r).any fun b => match blkKind b with
    | some (t, _) => d.get b R.FLT_STAT &&& t.crit ≠ 0
    | none => false

/-- Some critical summary line is high. -/
def Dev.critAny (d : Dev) : Bool := regions.any fun r => d.critLine r

/-- ALIVE stops at its present level (R430). -/
def Dev.aliveStop (d : Dev) : Dev := d.putB fltc R.FLTC_STAT 16 false

/-- A fault message (R407). -/
def faultMsg (b : Blk) (c : Option Nat) (kind addr : Nat) (inj shadow trans alsof : Bool) (tick : Nat) : BitVec 64 :=
  BitVec.ofNat 64 (b.region.val + b.block.val * 2 ^ 4 + (c.getD 0 % 64) * 2 ^ 10 + kind % 256 * 2 ^ 16
    + addr % 2 ^ 24 * 2 ^ 24 + inj.toNat * 2 ^ 48 + shadow.toNat * 2 ^ 49 + trans.toNat * 2 ^ 50
    + (!trans).toNat * 2 ^ 51 + alsof.toNat * 2 ^ 52 + c.isSome.toNat * 2 ^ 53 + tick % 1024 * 2 ^ 54)

/-- The block's own port at its arbiter: behind its cells (R23). -/
def ownPort (b : Blk) : Nat := match blkKind b with
  | some (t, _) => t.cells
  | none => 0

/-- Put a message at the port of its source's block arbiter. -/
def Dev.post (d : Dev) (c : Cls) (src dst : Blk) (cell port : Option Nat) (body : Body) (status : BitVec 4)
    (tag : Nat) : Dev :=
  { d with fabric := d.fabric ++
      [⟨c, src, dst, cell, body, status, tag, .port (.block src) (port.getD (ownPort src)), 0⟩] }

/-- A detection that the block error logic receives (R411, R412, R424, R427 to R429): the FLT_STAT bit, the critical
line with vector 0 and ALIVE, and for an unmasked kind the message. Kinds 0x80 to 0x82 have no bit and no mask
(R409). -/
def Dev.detect (d : Dev) (b : Blk) (c : Option Nat) (kind : Nat) (addr : Nat) (trans inj alsof : Bool) : Dev :=
  match blkKind b with
  | none => d
  | some (t, _) =>
    let km : Word := wd (2 ^ kind)
    let own := kind < 32
    let crit : Bool := own && t.crit &&& km ≠ 0
    let was := d.critLine b.region
    let d1 := if own then d.put b R.FLT_STAT (d.get b R.FLT_STAT ||| km) else d
    let d2 := if crit && !was then (d1.vector 0).aliveStop else d1
    if own && !crit && d.get b R.FLT_MASK &&& km ≠ 0 then d2
    else d2.post .flt b fltc none c
      (.fault (faultMsg b c kind addr inj (d.shadowed b c) trans alsof d.tick)) 0 0

/-- Raise a kind with the lasting flag. -/
def Dev.raise (d : Dev) (b : Blk) (c : Option Nat) (kind : Nat) (addr : Nat := 0) : Dev :=
  d.detect b c kind addr false false false

/-- Raise a kind with the transient flag (R410). -/
def Dev.raiseTrans (d : Dev) (b : Blk) (c : Option Nat) (kind : Nat) (addr : Nat := 0) : Dev :=
  d.detect b c kind addr true false false

/-! Long operations. -/

/-- The state word of R48. -/
def opWord (state prog err tag : Nat) : Word := wd (tag % 256 + err % 256 * 2 ^ 8 + prog % 4096 * 2 ^ 16 + state % 16 * 2 ^ 28)

/-- The tag of a block's operation. -/
def Dev.opTag (d : Dev) (b : Blk) : Nat := d.getF b R.OP_STAT 7 0

/-- Set the operation's state and error, keeping its tag and progress. -/
def Dev.opSet (d : Dev) (b : Blk) (state err : Nat) : Dev :=
  d.put b R.OP_STAT (opWord state (d.getF b R.OP_STAT 27 16) err (d.opTag b))

/-- The work completes (R50 step 4); the cycle is kept for the precedence of R51. -/
def Dev.opDone (d : Dev) (b : Blk) : Dev :=
  { d.put b R.OP_STAT (opWord 3 4095 0 (d.opTag b)) with
    ops := d.ops.map fun o => if o.blk = b then { o with doneAt := some d.now, abortAt := none } else o }

/-- The block's operation completed in this very cycle. -/
def Dev.opDoneNow (d : Dev) (b : Blk) : Bool := d.opState b = 3 && d.ops.any fun o => o.blk = b ∧ o.doneAt = some d.now

/-- The work fails (R50 step 5). -/
def Dev.opFail (d : Dev) (b : Blk) (err : Nat) : Dev := d.opSet b 4 err

/-- Progress, which never decreases (R48). -/
def Dev.opProg (d : Dev) (b : Blk) (p : Nat) : Dev :=
  d.putF b R.OP_STAT 27 16 (max (d.getF b R.OP_STAT 27 16) (min p 4095))

/-- Set a partial result word. -/
def Dev.opPart (d : Dev) (b : Blk) (i v : Nat) : Dev := d.put b R.OP_PART (wd v) i

/-- A fence, reset or abort ends a queued or running operation (R44, R50 step 6), a fence or reset also one that
completed in the same cycle (R51). -/
def Dev.opKill (d : Dev) (b : Blk) (err : Nat) : Dev :=
  if d.opState b = 1 ∨ d.opState b = 2 ∨ (err ≠ 2 ∧ d.opDoneNow b) then d.opSet b 5 err else d

end Sys2Proof.Machine
end

