-- ==== Sys2Proof/Machine/Access.lean ====
section
/-! DEFINITION. Host accesses to registers: access errors (R36 to R39, R489, R497), the writes a block accepts while
its long operation is queued or running (R53), abandoned self-test slices (R436), and the start and abort of a long
operation (R47, R50). -/

namespace Sys2Proof.Machine

/-- Log an access error (R39): count, BAR offset, code. -/
def Dev.logErr (d : Dev) (code ofs : Nat) (bar2 : Bool) : Dev :=
  ((d.bumpF hif R.HIF_ERR_CNT 15 0).put hif R.HIF_ERR_ADDR (wd (ofs % 2 ^ 28 + bar2.toNat * 2 ^ 31))).put hif
    R.HIF_ERR_CODE (wd code)

/-- Every unit outside AON stands still: in power-on or chip reset (R484, R507), or after a shutdown (R450). -/
def Dev.dead (d : Dev) : Bool := !d.boot.porst || !d.boot.chiprst || !d.boot.supply || d.shut

/-- Host requests reach the device: it runs, its endpoint is not in reset and has trained its link after a good fuse load
(R484, R489), and a halted start has passed HIF and BOOT (R489). -/
def Dev.hostOk (d : Dev) : Bool :=
  !d.dead && d.boot.perst && d.boot.fuseOk && !(d.stage = 8 && (d.fence hif = 3 || d.fence (blk .boot 0) = 3))

/-- A change of the device that takes place only while it runs. -/
def onLive (f : Dev → Dev) (s : State) : Host.Outcome State Fault Refusal := onDev (fun d => if d.dead then d else f d) s

/-- A change of the device that depends on what SDRAM holds. -/
def onLiveRead (f : Mem → Dev → Dev) (s : State) : Host.Outcome State Fault Refusal := onDev (fun d => if d.dead then d else f s.mem d) s

/-- A change of device and SDRAM that takes place only while the device runs. -/
def onLiveMem (f : Mem → Dev → Mem × Dev) (s : State) : Host.Outcome State Fault Refusal :=
  onMem (fun m d => if d.dead then (m, d) else f m d) s

/-- The status a host access to page offset `o` of a block gets (R24, R36, R37, R489, R497). -/
def Dev.accErr (d : Dev) (b : Blk) (o : Nat) : Nat :=
  if d.stage = 8 then
    if b = blk .boot 0 ∨ (b.region = 0 ∧ (blkKind b).isSome ∧ o < 0x100) then 0 else 2
  else if ¬ d.ready ∧ b ≠ hif ∧ b ≠ blk .boot 0 then 2
  else match blkKind b with
    | none => 3
    | some _ => if o < 0x100 then 0 else d.status b

/-- A long operation is queued or running in the block. -/
def Dev.opBusy (d : Dev) (b : Blk) : Bool := d.opState b = 1 || d.opState b = 2

/-- The offsets a block accepts while its operation is queued or running (R53). -/
def busyWritable : List Nat := [0x008, 0x010, 0x014, 0x018, 0x01C, 0x020, 0x040]

/-- Abandonments in a row of a unit. -/
def abandons (l : List (Nat × Option Nat × Nat)) (u : Nat × Option Nat) : Nat :=
  match l.find? fun x => x.1 = u.1 ∧ x.2.1 = u.2 with
  | some x => x.2.2
  | none => 0

/-- Set the abandonments in a row of a unit. -/
def setAbandons (l : List (Nat × Option Nat × Nat)) (u : Nat × Option Nat) (n : Nat) : List (Nat × Option Nat × Nat) :=
  let rest := l.filter fun x => ¬ (x.1 = u.1 ∧ x.2.1 = u.2)
  if n = 0 then rest else rest ++ [(u.1, u.2, n)]

/-- A self-test slice running in the block is abandoned, with a count or without (R436): at the end of the cycle, since a completion
in it comes first, and without a count in the cycle of its start (R437). -/
def Dev.abandonSlice (d : Dev) (b : Blk) (count : Bool) : Dev :=
  let x := d.flt.slices[b.region]
  match x.unit with
  | none => d
  | some u =>
    if u.1 ≠ b.block.val then d
    else { d with flt := { d.flt with slices := vmod d.flt.slices b.region fun s =>
      { s with cut := some (count && s.cut.getD true && decide (s.since ≠ d.now)) } } }

/-- A request or the traffic of a dedicated path reaches a unit of a block, or the block as a whole (R436). -/
def Dev.reached (d : Dev) (b : Blk) (c : Option Nat) : Dev :=
  match d.flt.slices[b.region].unit with
  | none => d
  | some u => if u.2.isNone ∨ c.isNone ∨ u.2 = c then d.abandonSlice b true else d

/-- The abandonment of a region's slice takes effect; the 16th in a row raises SLICE_STARVED (R436). -/
def Dev.sliceCut (d : Dev) (r : Fin 16) : Dev :=
  let x := d.flt.slices[r]
  match x.unit, x.cut with
  | some u, some count =>
    let b : Blk := ⟨r, Fin.ofNat 64 u.1⟩
    let n := abandons x.fails u + 1
    let n' := if count then n % 16 else n - 1
    let d1 := { d with flt := { d.flt with slices := vmod d.flt.slices r fun s =>
      { s with unit := none, cut := none, fails := setAbandons s.fails u n' } } }
    let d2 := ((d1.putF b R.BIST_STAT 1 0 0).putF b R.BIST_STAT 16 12 n').putB b R.BLK_STAT 2 false
    if count && n = 16 then
      (d2.putB b R.BIST_STAT 2 true).raise b u.2 0x82 ((u.2.getD 0) % 64 + u.2.isSome.toNat * 64)
    else d2
  | _, _ => d

/-- What a host access to the block itself does to a slice (R436, R437): the header does not disturb it. -/
def Dev.touch (d : Dev) (b : Blk) (o : Nat) : Dev := if o < 0x100 then d else d.abandonSlice b true

/-- Does the block accept a host write to page offset `o` (R38, R53)? -/
def Dev.writable (d : Dev) (b : Blk) (o : Nat) : Bool :=
  d.hostOk && d.accErr b o = 0 && !(d.opBusy b && o ∉ busyWritable)

/-- Log a status other than 0; one of 2 from a block in reset puts HIF in its shadow (R38, R423). -/
def Dev.logStatus (d : Dev) (b : Blk) (o st : Nat) : Dev :=
  let d1 := d.logErr st (badr b o) false
  if st = 2 ∧ d.inReset b then d1.shadowOn b hif else d1

/-- A host write that is discarded and logged (R38, R53). -/
def Dev.writeFails (d : Dev) (b : Blk) (o : Nat) : Dev :=
  if ¬ d.hostOk then d
  else if d.accErr b o ≠ 0 then d.logStatus b o (d.accErr b o)
  else d.logErr 6 (badr b o) false

/-- A host write to page offset `o` of a block: discarded and logged, or served by `k` (R38, R53). -/
def Dev.hostWrite (d : Dev) (b : Blk) (o : Nat) (k : Dev → Dev) : Dev :=
  if d.writable b o then k (d.touch b o) else d.writeFails b o

/-- The same where serving the write touches SDRAM. -/
def hostWriteMem (m : Mem) (d : Dev) (b : Blk) (o : Nat) (k : Mem → Dev → Mem × Dev) : Mem × Dev :=
  if d.writable b o then k m (d.touch b o) else (m, d.writeFails b o)

/-- A completion to the host. -/
def Dev.complete (d : Dev) (ws : List Word) (poison : Bool) : Dev := { d with cpl := ⟨ws, poison⟩ }

/-- The completion of a BAR0 read that got a status (R36, R38). -/
def Dev.readFails (d : Dev) (b : Blk) (o st : Nat) : Dev :=
  if st = 3 then d.complete [0] false
  else (d.logStatus b o st).complete [0xFFFFFFFF#32] (st = 4)

/-- A host read of page offset `o` of a block: completed under R38, or served by `k`. -/
def Dev.hostRead (d : Dev) (b : Blk) (o : Nat) (k : Dev → Dev) : Dev :=
  if ¬ d.hostOk then d
  else if d.accErr b o ≠ 0 then d.readFails b o (d.accErr b o)
  else k (d.touch b o)

/-- The operation codes of a block type: R127, R178, R227, R272, R324, R349, R368, R384, R470, R482. -/
def opCodes (t : BT) : List Nat :=
  match t with
  | .headctl => [1, 2]
  | .servo | .mpv | .lane | .mspin | .sdc | .march | .bchg => [1]
  | .lattice | .jrnl => [1, 2, 3]
  | _ => []

/-- A start written to OP_CMD (R50 steps 1, 2 and 8; R436). The spec says only that OP_PART stays as it is until the next
start: here a start clears it (log 52, DESIGN CHOICE). -/
def Dev.opStart (d : Dev) (b : Blk) (code tag param : Nat) : Dev :=
  if d.opState b ≠ 0 then d.logErr 7 (badr b 0x20) false
  else match blkKind b with
    | none => d
    | some (t, _) =>
      let ok : Bool := code ∈ opCodes t
      let d1 := (d.abandonSlice b true).put b R.OP_STAT (if ok then opWord 1 0 0 tag else opWord 4 0 1 tag)
      let d2 := (List.range 6).foldl (fun e i => e.opPart b i 0) d1
      { d2 with ops := d2.ops ++ [⟨b, code, param, none, none, none⟩] }

/-- A start by the device itself: ignored where the block is not idle. -/
def Dev.devStart (d : Dev) (b : Blk) (code tag param : Nat) : Dev :=
  if d.opState b ≠ 0 then d else d.opStart b code tag param

/-- A host write of a start (R47), as a command: the header is answered whatever the block's state (R37). -/
def Dev.hostStart (d : Dev) (b : Blk) (code tag param : Nat) : Dev :=
  d.hostWrite b 0x20 fun e => e.opStart b code tag param

end Sys2Proof.Machine
end

