-- ==== Sys2Proof/Machine/HeadOps.lean ====
section
/-! DEFINITION. What other units use of a head (R91, R148 to R151, R155): its block, its sums in the layer report, its
events, and the products of web mode. -/

namespace Sys2Proof.Machine

/-- The HEADCTL block of a head. -/
def headB (h : Fin 32) : Blk := blk .headctl h.val

/-- Change a head's Drafter. -/
def Dev.drfMod (d : Dev) (h : Fin 32) (f : Drf → Drf) : Dev :=
  { d with heads := vmod d.heads h fun x => { x with drf := f x.drf } }

/-- Change a head's Traveller. -/
def Dev.trvMod (d : Dev) (h : Fin 32) (f : Trv → Trv) : Dev :=
  { d with heads := vmod d.heads h fun x => { x with trv := f x.trv } }

/-- Change a head's correction unit. -/
def Dev.corMod (d : Dev) (h : Fin 32) (f : Cor → Cor) : Dev :=
  { d with heads := vmod d.heads h fun x => { x with cor := f x.cor } }

/-- Change a head's sums in the layer report (R91). -/
def Dev.sumMod (d : Dev) (h : Fin 32) (f : HeadSum → HeadSum) : Dev :=
  { d with rep := { d.rep with sums := vmod d.rep.sums h f } }

/-- LGATE[n] takes a level in a slot; the exposure's absorptivity and material go with it (R140, R253). -/
def Trv.gateTo (t : Trv) (slot : Nat) (high : Bool) (abs mat : Nat) : Trv :=
  { t with gate := high, gates := ⟨slot, high, abs, mat⟩ :: t.gates }

/-- BCH[n] takes a code in a slot (R140). -/
def Trv.codeTo (t : Trv) (slot : Int) (c : Nat) : Trv :=
  { t with code := c, codeAt := slot, codes := (slot.toNat, c) :: t.codes }

/-- A bit of TRV_EVT (R155). -/
def Dev.trvEvent (d : Dev) (h : Fin 32) (k : Nat) : Dev :=
  d.event (headB h) R.TRV_EVT R.TRV_EVT_EN (wd (2 ^ k)) (16 + h.val)

/-- A bit of DRF_EVT, on the head's vector. -/
def Dev.drfEvent (d : Dev) (h : Fin 32) (k : Nat) : Dev :=
  d.event (headB h) R.DRF_EVT R.DRF_EVT_EN (wd (2 ^ k)) (16 + h.val)

/-- FLAGS.WEB of a skein. -/
def Skein.web (k : Skein) : Bool := bit k.flags 1

/-- The head takes part in a running web-mode skein: one that names it in HEAD_MASK (R148). -/
def Dev.webHead (d : Dev) (h : Fin 32) : Bool :=
  d.heads[h].drf.inLayer && (match d.running with
    | some k => k.web && k.headMask.getLsbD h.val
    | none => false)

/-- The head takes product triggers: those of the running web-mode skein, or between two skeins those of the one that is staged
(R153; log 38, DEDUCED). -/
def Dev.webTakes (d : Dev) (h : Fin 32) : Bool :=
  match d.running, d.staged with
  | some _, _ => d.webHead h
  | none, some k => k.web && k.headMask.getLsbD h.val
  | none, none => false

/-- TRV_WEB_PEND. -/
def Dev.webShow (d : Dev) (h : Fin 32) : Dev := d.put (headB h) R.TRV_WEB_PEND (wd d.heads[h].trv.waiting.length)

/-- A product is missed (R151): counters, event, and an entry in the web log ring. -/
def webMiss (m : Mem) (d : Dev) (h : Fin 32) (ord : Word) (kind recs : Nat) : Mem × Dev :=
  let b := headB h
  let d1 := (d.sumMod h fun x => { x with missed := x.missed + 1 }).bump b R.TRV_WEB_MISS
  let d2 := (d1.put b R.TRV_WEB_LASTMISS ord).trvEvent h 7
  let wr := d2.getN b R.TRV_WEBLOG_WR
  let size := 2 ^ d2.getF b R.TRV_WEBLOG_SIZE 4 0
  let t := d2.tim.clock / 4294967296
  let bs := wordsBytes [ord, wd (h.val + kind * 256 + min recs 65535 * 65536), wd (t % 1000000000), wd (t / 1000000000)]
  (d2.sdPut m (d2.addr2 b R.TRV_WEBLOG_LO R.TRV_WEBLOG_HI + 16 * (wr % size)) bs,
    d2.put b R.TRV_WEBLOG_WR (wd ((wr + 1) % size)))

/-- A product trigger at one head (R149, R150 step 1). -/
def webTrigger (m : Mem) (d : Dev) (h : Fin 32) (pos : Int) : Mem × Dev :=
  let b := headB h
  let ord := d.get b R.TRV_WEB_ORD
  let d1 := d.put b R.TRV_WEB_ORD (ord + 1)
  if 16 ≤ d.heads[h].trv.waiting.length then webMiss m d1 h ord 3 0
  else (m, (d1.trvMod h fun t => { t with waiting := t.waiting ++ [⟨ord, pos⟩] }).webShow h)

/-- A compare match on machine spindle `n` at every head that names it in web mode (R149, R351). -/
def webTriggers (m : Mem) (d : Dev) (n : Nat) (pos : Int) : Mem × Dev :=
  (List.finRange 32).foldl (fun (x : Mem × Dev) h =>
    if x.2.webTakes h ∧ x.2.getF (headB h) R.TRV_WEB_CTL 5 0 = n then webTrigger x.1 x.2 h pos else x) (m, d)

end Sys2Proof.Machine
end

