-- ==== Sys2Proof/Machine/Num.lean ====
section
/-! DEFINITION. Arithmetic the meanings share: CRC-32 and CRC-8, and fixed-point square root, sine, cosine, arc
tangent, tangent and exponential of the geometry and photometry rules. -/

namespace Sys2Proof.Machine

/-- One bit of CRC-32 (IEEE 802.3), reflected. -/
def crc32Bit (c : BitVec 32) : BitVec 32 := if c.getLsbD 0 then (c >>> 1) ^^^ 0xEDB88320#32 else c >>> 1

/-- One byte of CRC-32. -/
def crc32Byte (c : BitVec 32) (b : Byte) : BitVec 32 :=
  let x := c ^^^ b.zeroExtend 32
  crc32Bit (crc32Bit (crc32Bit (crc32Bit (crc32Bit (crc32Bit (crc32Bit (crc32Bit x)))))))

/-- CRC-32 (IEEE 802.3 polynomial) of a byte list. -/
def crc32 (bs : List Byte) : Word := ~~~(bs.foldl crc32Byte 0xFFFFFFFF#32)

/-- 2^32, the denominator of the fixed-point steps below. -/
def q32 : Nat := 4294967296

/-- The nearest multiple of 2^-32 at or below a rational (log 20, DESIGN CHOICE). -/
def quant (x : Rat) : Rat := (((x * (q32 : Rat)).floor : Int) : Rat) / (q32 : Rat)

/-- Square root of a rational, rounded down to a multiple of 2^-32 (log 20, DESIGN CHOICE); 0 below 0. -/
def rsqrt (x : Rat) : Rat :=
  if x ≤ 0 then 0 else
  ((Nat.sqrt ((x * (q32 : Rat) * (q32 : Rat)).floor.toNat) : Nat) : Rat) / (q32 : Rat)

/-- π to 2^-60. -/
def piQ : Rat := 3622009729038561421 / 1152921504606846976

/-- Horner steps of a power series in `y`, with coefficients quantised at each step. -/
def horner (y : Rat) : List Rat → Rat
  | [] => 0
  | c :: cs => quant (c + y * horner y cs)

/-- Sine on a reduced angle. -/
def sinSmall (x : Rat) : Rat :=
  quant (x * horner (quant (x * x)) [1, -1/6, 1/120, -1/5040, 1/362880, -1/39916800, 1/6227020800, -1/1307674368000])

/-- Cosine on a reduced angle. -/
def cosSmall (x : Rat) : Rat :=
  horner (quant (x * x)) [1, -1/2, 1/24, -1/720, 1/40320, -1/3628800, 1/479001600, -1/87178291200]

/-- Sine and cosine of any angle in radians, by reduction to a quarter turn. -/
def sincos (x : Rat) : Rat × Rat :=
  let n : Int := (x / (piQ / 2) + 1/2).floor
  let r := quant (x - (n : Rat) * (piQ / 2))
  let s := sinSmall r
  let c := cosSmall r
  match n % 4 with
  | 0 => (s, c)
  | 1 => (c, -s)
  | 2 => (-s, -c)
  | _ => (-c, s)

/-- Arc tangent on [-1/2, 1/2]. -/
def atanSmall (x : Rat) : Rat :=
  quant (x * horner (quant (x * x)) [1, -1/3, 1/5, -1/7, 1/9, -1/11, 1/13, -1/15, 1/17, -1/19, 1/21, -1/23])

/-- Arc tangent on [0, 1], halving the angle once. -/
def atan01 (x : Rat) : Rat := 2 * atanSmall (quant (x / (1 + rsqrt (1 + x * x))))

/-- The angle of a vector in (-π, π]; 0 for the zero vector. -/
def atan2 (y x : Rat) : Rat :=
  let ax := if x < 0 then -x else x
  let ay := if y < 0 then -y else y
  if ax = 0 ∧ ay = 0 then 0 else
  let a := if ay ≤ ax then atan01 (quant (ay / ax)) else piQ / 2 - atan01 (quant (ax / ay))
  let b := if x < 0 then piQ - a else a
  if y < 0 then -b else b

/-- Tangent. -/
def tanQ (x : Rat) : Rat :=
  let sc := sincos x
  if sc.2 = 0 then 0 else quant (sc.1 / sc.2)

/-- Repeated squaring of a quantised value. -/
def sqTimes : Nat → Rat → Rat
  | 0, x => x
  | n + 1, x => sqTimes n (quant (x * x))

/-- Exponential, by a series at x / 256 and eight squarings. -/
def expQ (x : Rat) : Rat := sqTimes 8 (horner (quant (x / 256)) [1, 1, 1/2, 1/6, 1/24, 1/120, 1/720])

/-- The multiple of 2^-96 at or below a rational, for the sweep of R179 (log 20, DESIGN CHOICE). -/
def fineQ (x : Rat) : Rat := (((x * (2 ^ 96 : Rat)).floor : Int) : Rat) / (2 ^ 96 : Rat)

/-- Exponential of a number from 0 to 16, to 2^-80. -/
def expFine (x : Rat) : Rat :=
  let y := fineQ (x / 64)
  let s := (List.range 24).foldr (fun n acc => fineQ (1 + y * acc / ((n + 1 : Nat) : Rat))) 1
  (List.range 6).foldl (fun a _ => fineQ (a * a)) s

/-- Twice the area tangent of a number up to 1/3, to 2^-90. -/
def atanh2 (z : Rat) : Rat :=
  let q := fineQ (z * z)
  2 * z * (List.range 30).foldr (fun n acc => fineQ (1 / ((2 * n + 1 : Nat) : Rat) + q * acc)) 0

/-- Natural logarithm of a number from 1 to 2^15, to 2^-80. -/
def lnFine (x : Rat) : Rat :=
  let k := Nat.log2 x.floor.toNat
  let m := x / (2 ^ k : Rat)
  fineQ (((k : Nat) : Rat) * atanh2 (1 / 3) + atanh2 (fineQ ((m - 1) / (m + 1))))

/-- A rational rounded to the nearest integer, halves away from zero. -/
def rnd (x : Rat) : Int := if x < 0 then -((-x + 1/2).floor) else (x + 1/2).floor

/-- Absolute value of a rational. -/
def rabs (x : Rat) : Rat := if x < 0 then -x else x

/-- Clamp of a rational. -/
def clampR (lo hi x : Rat) : Rat := if x < lo then lo else if hi < x then hi else x

end Sys2Proof.Machine
end

