-- ==== Sys2Proof/Machine/LaneOps.lean ====
section
/-! DEFINITION. What other units use of a Norhal lane (R299 to R316): its state, presence, latency and credits, and
sending a link frame. -/

namespace Sys2Proof.Machine

/-- The LANE block of a lane. -/
def laneB (n : Fin 40) : Blk := blk .lane n.val

/-- LANE_STAT.STATE (R317). -/
def Dev.laneSt (d : Dev) (n : Fin 40) : Nat := d.getF (laneB n) R.LANE_STAT 3 0

/-- The lane is UP. -/
def Dev.laneUp (d : Dev) (n : Fin 40) : Bool := d.laneSt n = 4

/-- The partner is present (R316). -/
def Dev.present (d : Dev) (n : Fin 40) : Bool := d.getB (laneB n) R.LANE_STAT 6

/-- The lane of a head. -/
def headLane (h : Fin 32) : Fin 40 := ⟨h.val, by omega⟩

/-- The head is present. -/
def Dev.headHere (d : Dev) (h : Fin 32) : Bool := d.present (headLane h)

/-- A word of the present partner's descriptor (R315). -/
def Dev.desc (d : Dev) (n : Fin 40) (i : Nat) : Word := d.get (laneB n) R.LANE_DESC i

/-- The head's camera is present (R316). -/
def Dev.cameraHere (d : Dev) (h : Fin 32) : Bool := d.headHere h && bit (d.desc (headLane h) 3) 0

/-- The one-way latency L of a lane [ns]. -/
def Dev.laneL (d : Dev) (n : Fin 40) : Nat := d.getF (laneB n) R.LANE_LAT 11 0

/-- Change a lane's own state. -/
def Dev.laneMod (d : Dev) (n : Fin 40) (f : Lane → Lane) : Dev := { d with lanes := vmod d.lanes n f }

/-- What a frame costs in credits (R312). -/
def frameUnits (len : Nat) : Nat := (len + 8 + 63) / 64

/-- The partner's credits suffice for a frame; VC0 carries none (R312). -/
def Dev.laneCan (d : Dev) (n : Fin 40) (vc len : Nat) : Bool :=
  d.laneUp n && (match vc with
    | 1 => frameUnits len ≤ d.lanes[n].cred1
    | 3 => frameUnits len ≤ d.lanes[n].cred3
    | _ => true)

/-- LANE_CREDIT. -/
def Dev.creditShow (d : Dev) (n : Fin 40) : Dev :=
  d.put (laneB n) R.LANE_CREDIT (wd (min 65535 d.lanes[n].cred1 + min 65535 d.lanes[n].cred3 * 65536))

/-- An injection waits for the next frame of a channel (R325). -/
def Lane.spoils (l : Lane) (vc : Fin 4) : Bool := l.inj.any fun i => i.1 = vc.val

/-- Send a link frame on a virtual channel (R301, R312); the injections that wait for it spoil it, and each counts (R325). -/
def Dev.laneSend (d : Dev) (n : Fin 40) (vc : Fin 4) (type : Nat) (data : List Byte) : Dev :=
  let u := frameUnits data.length
  let spoil := d.lanes[n].spoils vc
  let d0 := if spoil then d.bump (laneB n) R.LANE_INJCNT (d.lanes[n].inj.countP fun i => i.1 = vc.val) else d
  (d0.laneMod n fun l => { l with
    seqs := vmod l.seqs vc fun s => (s + 1) % 256
    sent := l.sent.set vc (some ⟨type, l.seqs[vc], data, spoil⟩)
    inj := l.inj.filter fun i => i.1 ≠ vc.val
    cred1 := if vc = 1 then l.cred1 - u else l.cred1
    cred3 := if vc = 3 then l.cred3 - u else l.cred3 }).creditShow n

/-- The payload of a management request (R311, R312): DESC_REQ holds the device's receive credits, READ the offset reached in the
partner's store and the bytes wanted. -/
def Dev.vc3Data (d : Dev) (n : Fin 40) (type : Nat) : List Byte :=
  if type = 0 then leBytes 2 256 ++ leBytes 2 8 ++ leBytes 2 16
  else
    let at_ := d.lanes[n].store.length
    leBytes 4 at_ ++ leBytes 4 (min 512 ((d.desc n 7).toNat - at_))

/-- A management request (R311): sent where state and credits allow, and awaited from then on; else it is held until they do. -/
def Dev.vc3Ask (d : Dev) (n : Fin 40) (type tries : Nat) : Dev :=
  let data := d.vc3Data n type
  let goes : Bool := d.laneCan n 3 data.length || (d.laneSt n = 3 && frameUnits data.length ≤ d.lanes[n].cred3)
  let d1 := d.laneMod n fun l => { l with vc3 := some ⟨type, d.now, tries, !goes⟩ }
  if goes then d1.laneSend n 3 type data else d1

/-- A held management request goes out once it can. -/
def Dev.vc3Go (d : Dev) (n : Fin 40) : Dev :=
  match d.lanes[n].vc3 with
  | some r => if r.held then d.vc3Ask n r.type r.tries else d
  | none => d

/-- A READ of the partner's store from the offset reached (R311). -/
def Dev.storeRead (d : Dev) (n : Fin 40) (tries : Nat) : Dev := d.vc3Ask n 2 tries

/-- Lane events and their vector (R327). -/
def Dev.laneEvent (d : Dev) (n : Fin 40) (m : Word) : Dev :=
  d.event (laneB n) R.LANE_EVT R.LANE_EVT_EN m (if n.val < 32 then 16 + n.val else 48 + n.val - 32)

/-- A frame beyond the credits, or a second FEEDBACK frame for one TICK, is dropped; the first after 1 ms without one
raises CREDIT_VIOL (R313). -/
def Dev.creditViol (d : Dev) (n : Fin 40) : Dev :=
  let quiet := (d.lanes[n].violAt.map fun t => d.past t 1000).getD true
  let d1 := (((d.bump (laneB n) R.LANE_CREDVIOL).laneEvent n 64#32).laneMod n fun l => { l with violAt := some d.now })
  if quiet then d1.raise (laneB n) (some 0) 1 else d1

/-- A frame of VC1 to VC3 (`vc` 0 to 2) with a payload of `len` bytes arrives (R312, R313): beyond the credits that the partner holds
it is dropped; else its content passes to its consumer `k`, and a CREDIT block gives its units back at once (log 33, DEDUCED). -/
def Dev.received (d : Dev) (n : Fin 40) (vc : Fin 3) (len : Nat) (k : Dev → Dev) : Dev :=
  if d.lanes[n].grants[vc] < frameUnits len then d.creditViol n
  else k ((d.laneMod n fun l => { l with back := some (vc, frameUnits len) }).reached (laneB n) none)

/-! What falls in one cycle (R317, R321): every waiting command is of this cycle (log 1). -/

/-- The word that a waiting command writes to an offset of a block. -/
def writesTo (b : Blk) (o : Nat) : Instr → Option Word
  | .registerWrite a v => if a.toNat = badr b o then some v else none
  | _ => none

/-- A waiting command fences or resets a block. -/
def stopsBlk (b : Blk) (c : Instr) : Bool :=
  (match c with
    | .hostFence x | .softReset x => x = b
    | _ => false) ||
    ((writesTo b 0x008 c).map fun v => bit v 1 || fld v 5 4 = 2).getD false

/-- A pattern test of the lane is the next operation to run. -/
def Dev.patNext (d : Dev) (n : Fin 40) : Bool :=
  match d.ops.find? fun o => o.entry.isNone with
  | some o => o.blk = laneB n && o.code = 1 && d.opState (laneB n) = 1 && d.up (laneB n) && [1, 2, 4, 5, 6].contains (d.laneSt n)
  | none => false

/-- The step of R317 that a waiting command brings in the lane's present state, of those that R317 orders. -/
def Dev.laneStep (d : Dev) (n : Fin 40) (c : Instr) : Option Nat :=
  let up := d.laneUp n
  let auto := up && bit (d.get (laneB n) R.LANE_CTL) 9
  let lim := fld (d.get (laneB n) R.LANE_RT_CTL) 7 0
  let crcs := (d.lanes[n].crcAt.filter fun t => !d.past t 1000).length + 1
  let off : Bool := (match c with
    | .laneDisable k v => k = n && !bit v 0
    | _ => false) || ((writesTo (laneB n) 0x100 c).map fun v => !bit v 0).getD false
  let again : Bool := (match c with
    | .retrain k => k = n && up && d.writable (laneB n) 0x108
    | .lossOfLock k | .trainBlock k _ => k = n && auto
    | .droppedLinkFrame k w _ => k = n && w = .crc && auto && lim ≠ 0 && lim ≤ crcs
    | _ => false) || ((writesTo (laneB n) 0x108 c).map fun v => bit v 1 && up && d.writable (laneB n) 0x108).getD false
  let lost : Bool := match c with
    | .signalLost k | .leave k _ => k = n && up
    | _ => false
  let late : Bool := match c with
    | .exitTimeout k => k = n && d.laneSt n = 5 && (d.lanes[n].burst.map fun t => decide (t + 1600 < d.now)).getD false
    | _ => false
  if d.laneSt n = 0 then none
  else if stopsBlk (laneB n) c ∧ d.writable (laneB n) 0x008 then some 16
  else if off ∧ d.writable (laneB n) 0x100 then some 2
  else if c = .opDispatch ∧ d.patNext n then some 14
  else if lost then some 9
  else if again then some 8
  else if late then some 12
  else none

/-- The order of the steps of R317 that fall in one cycle. -/
def laneOrder : List Nat := [16, 2, 14, 9, 8, 12, 10]

/-- A waiting command brings a step of R317 that comes before step `k`. -/
def Dev.outranked (d : Dev) (n : Fin 40) (p : List Instr) (k : Nat) : Bool :=
  p.any fun c => match d.laneStep n c with
    | some j => laneOrder.idxOf j < laneOrder.idxOf k
    | none => false

/-- The partner departs in this cycle by a waiting command: out of UP or IDLE by any step that R317 orders but 10 (R319). -/
def Dev.departs (d : Dev) (n : Fin 40) (p : List Instr) : Bool :=
  (d.laneSt n = 4 || d.laneSt n = 5) && p.any fun c => (d.laneStep n c).isSome
end Sys2Proof.Machine
end

