-- ==== Sys2Proof/Machine/Trapezoid.lean ====
section
/-! DEFINITION. The two-segment trapezoid of R99, for the Drafter's moves and the machine spindles (R101, R341). A
profile's speeds and slopes come in the caller's units; times are in µs. -/

namespace Sys2Proof.Machine

/-- Distance of a change of speed from `u` to `v` at slope `a`. -/
def slopeDist (u v a : Rat) : Rat := if a = 0 then 0 else rabs (v * v - u * u) / (2 * a)

/-- Distance to rise from `u` to `p`: A1 below vB, A2 from vB upward. -/
def riseDist (f : Prof) (u p : Rat) : Rat :=
  if p ≤ u then 0
  else if p ≤ f.vB then slopeDist u p f.a1
  else if f.vB ≤ u then slopeDist u p f.a2
  else slopeDist u f.vB f.a1 + slopeDist f.vB p f.a2

/-- Distance to fall from `p` to `w`: D1 above vB, D2 from vB downward. -/
def fallDist (f : Prof) (p w : Rat) : Rat :=
  if p ≤ w then 0
  else if p ≤ f.vB then slopeDist p w f.d2
  else if f.vB ≤ w then slopeDist p w f.d1
  else slopeDist p f.vB f.d1 + slopeDist f.vB w f.d2

/-- The speed reached from `u` by rising over length `l`. -/
def riseEnd (f : Prof) (u l : Rat) : Rat :=
  let low := slopeDist u f.vB f.a1
  if u < f.vB ∧ l ≤ low then rsqrt (u * u + 2 * f.a1 * l)
  else if u < f.vB then rsqrt (f.vB * f.vB + 2 * f.a2 * (l - low))
  else rsqrt (u * u + 2 * f.a2 * l)

/-- The speed from which a fall to `w` takes length `l`. -/
def fallStart (f : Prof) (w l : Rat) : Rat :=
  let low := slopeDist f.vB w f.d2
  if w < f.vB ∧ l ≤ low then rsqrt (w * w + 2 * f.d2 * l)
  else if w < f.vB then rsqrt (f.vB * f.vB + 2 * f.d1 * (l - low))
  else rsqrt (w * w + 2 * f.d1 * l)

/-- The speed left after falling from `u` over length `l`. -/
def fallEnd (f : Prof) (u l : Rat) : Rat :=
  let high := slopeDist u f.vB f.d1
  if u ≤ f.vB then rsqrt (u * u - 2 * f.d2 * l)
  else if l ≤ high then rsqrt (u * u - 2 * f.d1 * l)
  else rsqrt (f.vB * f.vB - 2 * f.d2 * (l - high))

/-- One phase between two speeds at a slope. -/
def phase (u v a : Rat) : Phase :=
  if a = 0 then ⟨u, 0, 0, 0⟩ else ⟨u, if u ≤ v then a else -a, rabs (v - u) / a, slopeDist u v a⟩

/-- The phases of a rise. -/
def risePhases (f : Prof) (u p : Rat) : List Phase :=
  if p ≤ u then []
  else if p ≤ f.vB then [phase u p f.a1]
  else if f.vB ≤ u then [phase u p f.a2]
  else [phase u f.vB f.a1, phase f.vB p f.a2]

/-- The phases of a fall. -/
def fallPhases (f : Prof) (p w : Rat) : List Phase :=
  if p ≤ w then []
  else if p ≤ f.vB then [phase p w f.d2]
  else if f.vB ≤ w then [phase p w f.d1]
  else [phase p f.vB f.d1, phase f.vB w f.d2]

/-- The largest number of steps `k` below `lo + 2^n` for which the peak `base + k * unit` fits (R99). -/
def peakSteps (fits : Nat → Bool) : Nat → Nat → Nat
  | 0, lo => lo
  | n + 1, lo => if fits (lo + 2 ^ n) then peakSteps fits n (lo + 2 ^ n) else peakSteps fits n lo

/-- The peak of R99, to within `unit` below the ceiling; none where no peak fits. -/
def peak (f : Prof) (ceil unit u w l : Rat) : Option Rat :=
  let base := if u < w then w else u
  let fits (p : Rat) : Bool := decide (riseDist f u p + fallDist f p w ≤ l)
  if ceil < base ∨ ¬ fits base then none
  else if fits ceil then some ceil
  else
    let top := ((ceil - base) / unit).floor.toNat
    let k := peakSteps (fun k => k ≤ top && fits (base + (k : Rat) * unit)) 36 0
    some (base + (k : Rat) * unit)

/-- A profile of length `l` from speed `u` to `w` (R99): its phases and the speed it ends with. -/
def plan (f : Prof) (ceil unit u w l : Rat) : List Phase × Rat :=
  match peak f ceil unit u w l with
  | some p =>
    let cruise := l - riseDist f u p - fallDist f p w
    let mid := if p = 0 ∨ cruise ≤ 0 then [] else [⟨p, 0, cruise / p, cruise⟩]
    (risePhases f u p ++ mid ++ fallPhases f p w, w)
  | none =>
    if u < w then (risePhases f u (riseEnd f u l), riseEnd f u l)
    else (fallPhases f (fallStart f w l) w, w)

/-- Total time of phases. -/
def phasesTime (ps : List Phase) : Rat := (ps.map (·.dur)).sum

/-- Distance, speed and slope at time `t` into phases; at their end past it. -/
def phaseAt : List Phase → Rat → Rat × Rat × Rat
  | [], _ => (0, 0, 0)
  | p :: ps, t =>
    if t < p.dur ∨ ps = [] then
      let x := if p.dur < t then p.dur else t
      (p.v0 * x + p.acc * x * x / 2, p.v0 + p.acc * x, if p.dur < t then 0 else p.acc)
    else
      let r := phaseAt ps (t - p.dur)
      (p.len + r.1, r.2)

end Sys2Proof.Machine
end

