-- ==== Sys2Proof/Machine/Cells.lean ====
section
/-! DEFINITION. Spindle cells (R1, R174 to R176, R328, R348, R356): their registers, states and changes of state. -/

namespace Sys2Proof.Machine

/-! Cells and their registers. -/

/-- A head spindle, else a machine spindle. -/
def isHead (i : Fin 256) : Bool := i.val < 192

/-- The block of a cell. -/
def cellBlk (i : Fin 256) : Blk := if isHead i then blk .servo (i.val / 24) else blk .mspin ((i.val - 192) / 8)

/-- The index of a cell in its block. -/
def cellIx (i : Fin 256) : Nat := if isHead i then i.val % 24 else (i.val - 192) % 8

/-- The address of the register of a cell that SERVO calls `r`; MSPIN has the same at its own stride (R357). -/
def cellAdr (i : Fin 256) (r : Reg) (j : Nat := 0) : Nat :=
  if isHead i then radr (cellBlk i) r (cellIx i) j
  else badr (cellBlk i) (0x100 + 0x100 * cellIx i + (r.off - 0x100) + r.s1 * j)

/-- Its word. -/
def Dev.cget (d : Dev) (i : Fin 256) (r : Reg) (j : Nat := 0) : Word := d.rget (cellAdr i r j) r.rst

/-- Its word in force (R177). -/
def Dev.cliv (d : Dev) (i : Fin 256) (r : Reg) (j : Nat := 0) : Word := (spGet d.live (cellAdr i r j)).getD r.rst

/-- A coefficient in force, signed. -/
def Dev.coef (d : Dev) (i : Fin 256) (r : Reg) (j : Nat := 0) : Int := (d.cliv i r j).toInt

/-- Change a cell. -/
def Dev.cellMod (d : Dev) (i : Fin 256) (f : SCell → SCell) : Dev := { d with cells := vmod d.cells i f }

/-- Spindle `r` of a head. -/
def headCell (h : Fin 32) (r : Nat) : Fin 256 := Fin.ofNat 256 (6 * h.val + r)

/-- The head of a head spindle. -/
def cellHead (i : Fin 256) : Fin 32 := Fin.ofNat 32 (i.val / 6)

/-- The spindles a lane serves, in spindle order (R305, R328). -/
def Dev.laneCells (d : Dev) (n : Fin 40) : List (Fin 256) :=
  if n.val < 32 then (List.range 6).map fun r => Fin.ofNat 256 (6 * n.val + r)
  else (List.range (min 6 (fld (d.desc n 1) 19 16))).map fun r => Fin.ofNat 256 (208 + 6 * (n.val - 32) + r)

/-- The lane that serves a cell, none for a local machine spindle. -/
def cellLane (i : Fin 256) : Option (Fin 40) :=
  if isHead i then some (headLane (cellHead i))
  else if i.val < 208 then none else some (Fin.ofNat 40 (32 + (i.val - 208) / 6))

/-- An event of a cell: SRV_EVT with the vector of its head (R185), or a bit of MSP_EVT, which has none (R358). -/
def Dev.cellEvent (d : Dev) (i : Fin 256) : Dev :=
  if isHead i then d.event (cellBlk i) R.SRV_EVT R.SRV_EVT_EN (wd (2 ^ cellIx i)) (16 + (cellHead i).val)
  else d.eventQuiet (cellBlk i) R.MSP_EVT 1#32 (cellIx i)

/-- A fault kind of a cell. -/
def Dev.cellFault (d : Dev) (i : Fin 256) (kind : Nat) : Dev :=
  let d1 := d.raise (cellBlk i) (some (cellIx i)) kind
  if isHead i then d1.cellEvent i else d1

/-- A state that evaluates the law (R174, R356). -/
def runState (st : Nat) : Bool := 1 ≤ st && st ≤ 4

/-- Show a cell's state in SRV_CSTAT or MSP_STAT. -/
def Dev.stateShow (d : Dev) (i : Fin 256) (st : Nat) : Dev :=
  if isHead i then d.putF (cellBlk i) R.SRV_CSTAT 2 0 st (cellIx i) else d.putF (cellBlk i) R.MSP_STAT 2 0 st (cellIx i)

/-! Machine spindles. -/

/-- The machine spindle of a cell. -/
def mspOf (i : Fin 256) : Fin 64 := Fin.ofNat 64 (i.val - 192)

/-- The cell of a machine spindle. -/
def mspI (m : Fin 64) : Fin 256 := Fin.ofNat 256 (192 + m.val)

/-- The block of a machine spindle. -/
def mspB (m : Fin 64) : Blk := blk .mspin (m.val / 8)

/-- Its cell there. -/
def mspC (m : Fin 64) : Nat := m.val % 8

/-- Change a machine spindle's own state. -/
def Dev.mspMod (d : Dev) (m : Fin 64) (f : Msp → Msp) : Dev := { d with msps := vmod d.msps m f }

/-- Its registers. -/
def Dev.mget (d : Dev) (m : Fin 64) (r : Reg) : Word := d.get (mspB m) r (mspC m)

/-- See `Dev.mget`. -/
def Dev.mput (d : Dev) (m : Fin 64) (r : Reg) (v : Word) : Dev := d.put (mspB m) r v (mspC m)

/-- A bit of MSP_STAT. -/
def Dev.mstat (d : Dev) (m : Fin 64) (k : Nat) (v : Bool) : Dev := d.putB (mspB m) R.MSP_STAT k v (mspC m)

/-- A bit of MSP_EVT, which raises no vector (R358). -/
def Dev.mevent (d : Dev) (m : Fin 64) (k : Nat) : Dev := d.eventQuiet (mspB m) R.MSP_EVT (wd (2 ^ k)) (mspC m)

/-- A fault kind of the cell. -/
def Dev.mfault (d : Dev) (m : Fin 64) (kind : Nat) : Dev := d.raise (mspB m) (some (mspC m)) kind

/-- The state of a machine spindle's cell. -/
def Dev.mst (d : Dev) (m : Fin 64) : Nat := d.cells[mspI m].st

/-- Profile registers in force (R342), in counts and µs. -/
def Dev.mprof (d : Dev) (m : Fin 64) : Prof :=
  let v (r : Reg) : Rat := ((d.liv (mspB m) r (mspC m)).toNat : Rat) / 1000000
  let a (r : Reg) : Rat := ((d.liv (mspB m) r (mspC m)).toNat : Rat) / 1000000000000
  ⟨v R.MSP_VS, v R.MSP_VB, v R.MSP_VM, v R.MSP_VE, a R.MSP_A1, a R.MSP_A2, a R.MSP_D1, a R.MSP_D2⟩

/-- The queue is discarded (R341). -/
def Dev.mqueueDrop (d : Dev) (m : Fin 64) : Dev :=
  (d.mspMod m fun x => { x with queue := [] }).putF (mspB m) R.MSP_STAT 19 16 0 (mspC m)

/-- The move in progress ends with a fall (R343): to 0, with DRIVE 1 to VE and then a stop; at D1 and D2, or at
MSP_QSTOP. -/
def Dev.mfall (d : Dev) (m : Fin 64) (quick : Bool) : Dev :=
  let x := d.msps[m]
  match x.prof with
  | none => d
  | some p =>
    let q : Rat := ((d.liv (mspB m) R.MSP_QSTOP (mspC m)).toNat : Rat) / 1000000000000
    let f := d.mprof m
    let g : Prof := if quick then { f with d1 := q, d2 := q } else f
    let u := rabs x.vel
    let w := if fld (d.mget m R.MSP_CFG) 2 0 = 1 then f.vE else 0
    d.mspMod m fun x => { x with prof := some ⟨.fall, x.set, p.sign, fallPhases g u w, 0, p.target⟩ }

/-- Homing fails (R348): its record, its event and its fault; the cell's state is the caller's. -/
def Dev.homeBad (d : Dev) (m : Fin 64) (reason : Nat) : Dev :=
  let d1 := (d.mspMod m fun x => { x with home := none }).cellMod (mspI m) fun c => { c with tune := false }
  let d2 := (d1.mstat m 3 false).mput m R.MSP_HOME_STAT (wd (5 + reason * 256))
  (d2.mevent m 2).mfault m 7

/-- What a machine spindle does when its state changes from `a` to `b`: the queue is discarded (R341), in OFF and FENCED
nothing moves, and homing fails with reason 4 (R348). -/
def Dev.mspLeave (d : Dev) (m : Fin 64) (a b : Nat) : Dev :=
  let d1 := if (a = 1 ∨ a = 4) ∧ b ≠ 1 ∧ b ≠ 4 then d.mqueueDrop m else d
  if b = 0 ∨ b = 5 then
    let d2 := (d1.mspMod m fun x => { x with prof := none, vel := 0, acc := 0 }).mstat m 4 false
    if d1.msps[m].home.isSome then d2.homeBad m 4 else d2
  else d1

/-- A set of coefficients that waited for the end of a tick's computation goes live (R177). -/
def Dev.takeDue (d : Dev) (i : Fin 256) : Dev :=
  let c := d.cells[i]
  if c.due.isEmpty then d
  else ({ d with live := c.due.foldl (fun l x => spPut l x.1 x.2) d.live } : Dev).cellMod i fun c => { c with due := [] }

/-- A change of state (R175, R356). In OFF and FENCED the drive word is EN 0, CMD 0, and runs of ticks and excursions end
(R172, R173; log 30, DEDUCED). -/
def Dev.cellState (d : Dev) (i : Fin 256) (st : Nat) : Dev :=
  let old := d.cells[i].st
  if old = st then d else
  let off : Bool := st = 0 || st = 5
  let d0 := if off then d.takeDue i else d
  let d1 := d0.cellMod i fun c =>
    if off then
      { c with st := st, cmd := 0, en := false, u := 0, out := none, feRun := 0, feSaid := false, satRun := 0, satSaid := false }
    else { c with st := st }
  let d2 := if ¬ isHead i then d1.mspLeave (mspOf i) old st
    else if off then d1.putF (cellBlk i) R.SRV_CSTAT 4 3 0 (cellIx i)
    else d1
  (d2.stateShow i st).cellEvent i

/-- A tuning operation or homing takes the cell to TUNE or HOMING (R175 step 6, R356); in a tick in which step 7 was taken that
waits for the next one (R176). -/
def Dev.cellTune (d : Dev) (i : Fin 256) : Dev :=
  let d1 := d.cellMod i fun c => { c with tune := true }
  if d1.cells[i].held = some d1.tick then d1 else d1.cellState i 4

/-- What a cell does at a servo tick: a tuning operation or homing that has ended leaves it in RUN (R175 step 7, R356), one that
waited takes it (R176). -/
def Dev.cellBound (d : Dev) (i : Fin 256) : Dev :=
  let c := d.cells[i]
  if c.st = 4 ∧ ¬ c.tune then (d.cellState i 1).cellMod i fun c => { c with held := some d.tick }
  else if c.st = 1 ∧ c.tune then d.cellState i 4
  else d

/-- What a machine spindle adds when it enters LASTING: counts may be lost (R333; log 34, DEDUCED), and homing fails with a stop
on the frozen value (R348). -/
def Dev.mspLasting (d : Dev) (i : Fin 256) : Dev :=
  if isHead i then d else
  let m := mspOf i
  let abs : Bool := d.getF (cellBlk i) R.MSP_CFG 5 4 (cellIx i) = 2 && d.getB (cellBlk i) R.MSP_IN_CFG 13 (cellIx i)
  let d1 := (if abs then d else d.mstat m 3 false).mspMod m fun x => { x with fresh := true }
  if d1.msps[m].home.isSome then (d1.homeBad m 3).mfall m false else d1

/-- A web-mode skein is staged or running (R354). -/
def Dev.webSkein (d : Dev) : Bool :=
  let w (s : Option Skein) : Bool := match s with
    | some k => k.web
    | none => false
  w d.staged || w d.running

/-- A spindle that a web-mode skein holds without drive (R152, R354). -/
def Dev.webNamed (d : Dev) (m : Fin 64) : Bool :=
  d.webSkein && (List.finRange 32).any fun h => d.getF (headB h) R.TRV_WEB_CTL 5 0 = m.val

end Sys2Proof.Machine
end

