-- ==== Sys2Proof/Machine/Aes.lean ====
section
/-! DEFINITION. The cipher of R74: AES-256 in GCM mode. R74 names it; FIPS 197 and NIST SP 800-38D lay it down (log 15,
PRESUMED). -/

namespace Sys2Proof.Machine

/-! The block cipher. -/

/-- Twice a byte in the field of the cipher. -/
def aesTwice (a : Byte) : Byte := (a <<< 1) ^^^ (if a.getLsbD 7 then 0x1B#8 else 0#8)

/-- A product in the field of the cipher. -/
def aesMul (a b : Byte) : Byte :=
  ((List.range 8).foldl (fun (x : Byte × Byte) i => (if b.getLsbD i then x.1 ^^^ x.2 else x.1, aesTwice x.2)) (0#8, a)).1

/-- The inverse in the field, the power 254; 0 for 0. -/
def aesInv (a : Byte) : Byte :=
  ((List.range 7).foldl (fun (x : Byte × Byte) _ => let s := aesMul x.2 x.2; (aesMul x.1 s, s)) (1#8, a)).1

/-- A byte through the substitution box. -/
def aesSub (a : Byte) : Byte :=
  let b := aesInv a
  b ^^^ b.rotateLeft 1 ^^^ b.rotateLeft 2 ^^^ b.rotateLeft 3 ^^^ b.rotateLeft 4 ^^^ 0x63#8

/-- Two byte strings, bit by bit. -/
def xorBytes (a b : List Byte) : List Byte := List.zipWith (· ^^^ ·) a b

/-- The 60 round key words of a 256-bit key. -/
def aesKeys (key : List Byte) : List (List Byte) :=
  let first := (List.range 8).map fun i => (key.drop (4 * i)).take 4
  ((List.range 52).foldl (fun (x : List (List Byte) × Byte) i =>
    let last := x.1.getD (i + 7) []
    let old := x.1.getD i []
    if i % 8 = 0 then (x.1 ++ [xorBytes old (xorBytes ((last.drop 1 ++ last.take 1).map aesSub) [x.2, 0, 0, 0])], aesTwice x.2)
    else if i % 8 = 4 then (x.1 ++ [xorBytes old (last.map aesSub)], x.2)
    else (x.1 ++ [xorBytes old last], x.2)) (first, 1#8)).1

/-- The row shift of a block held column by column. -/
def aesRows (s : List Byte) : List Byte := (List.range 16).map fun i => s.getD ((i + 4 * (i % 4)) % 16) 0

/-- The column mix of a block. -/
def aesColumns (s : List Byte) : List Byte :=
  (List.range 16).map fun i =>
    let b (r : Nat) : Byte := s.getD (i / 4 * 4 + (i + r) % 4) 0
    aesTwice (b 0) ^^^ (aesTwice (b 1) ^^^ b 1) ^^^ b 2 ^^^ b 3

/-- A block under the key whose round keys are `ks`: 14 rounds. -/
def aesBlock (ks : List (List Byte)) (s : List Byte) : List Byte :=
  let k (r : Nat) : List Byte := ((ks.drop (4 * r)).take 4).flatten
  let mid := (List.range 13).foldl (fun x r => xorBytes (aesColumns (aesRows (x.map aesSub))) (k (r + 1))) (xorBytes s (k 0))
  xorBytes (aesRows (mid.map aesSub)) (k 14)

/-! The mode. -/

/-- A block as a number, its first byte the highest. -/
def beNat (bs : List Byte) : Nat := bs.foldl (fun n b => n * 256 + b.toNat) 0

/-- A number as `n` bytes, the highest first. -/
def beBytes (n v : Nat) : List Byte := (List.range n).map fun i => BitVec.ofNat 8 (v / 256 ^ (n - 1 - i))

/-- A product in the field of the tag. -/
def ghashMul (x y : BitVec 128) : BitVec 128 :=
  ((List.range 128).foldl (fun (z : BitVec 128 × BitVec 128) i =>
    (if x.getMsbD i then z.1 ^^^ z.2 else z.1,
      if z.2.getLsbD 0 then (z.2 >>> 1) ^^^ (0xE1#128 <<< 120) else z.2 >>> 1)) (0#128, y)).1

/-- A byte string in blocks of 16, the last filled with zeros. -/
def blocks16 (bs : List Byte) : List (List Byte) :=
  (List.range ((bs.length + 15) / 16)).map fun i =>
    let b := (bs.drop (16 * i)).take 16
    b ++ List.replicate (16 - b.length) 0#8

/-- The hash of associated data and ciphertext. -/
def ghash (h : BitVec 128) (aad ct : List Byte) : BitVec 128 :=
  (blocks16 aad ++ blocks16 ct ++ [beBytes 8 (8 * aad.length) ++ beBytes 8 (8 * ct.length)]).foldl
    (fun x b => ghashMul (x ^^^ BitVec.ofNat 128 (beNat b)) h) 0#128

/-- Decryption with a 96-bit nonce: the plaintext, and the tag that the ciphertext must carry. The key's least significant byte
is the first of the cipher's key (log 15, DESIGN CHOICE). -/
def aesGcmOpen (key : BitVec 256) (nonce aad ct : List Byte) : List Byte × List Byte :=
  let ks := aesKeys (leBytes 32 key.toNat)
  let ctr (n : Nat) : List Byte := aesBlock ks (nonce ++ beBytes 4 n)
  let h : BitVec 128 := BitVec.ofNat 128 (beNat (aesBlock ks (List.replicate 16 0#8)))
  let plain := ((blocks16 ct).mapIdx fun i b => xorBytes b (ctr (i + 2))).flatten
  (plain.take ct.length, xorBytes (beBytes 16 (ghash h aad ct).toNat) (ctr 1))

end Sys2Proof.Machine
end

