-- ==== Sys2Proof/Machine/Geom.lean ====
section
/-! DEFINITION. Geometry of a head: the field map and its inverse (R125, R126), the two frames (R124), and the segments of
moves (R94, R103). Angles are in µrad, lengths in nm. -/

namespace Sys2Proof.Machine

/-! The field map. -/

/-- Catmull-Rom through four values at `t`, with its slope. -/
def cubic (p0 p1 p2 p3 t : Rat) : Rat × Rat :=
  let a := p2 - p0
  let b := 2 * p0 - 5 * p1 + 4 * p2 - p3
  let c := 3 * (p1 - p2) + p3 - p0
  (p1 + t * (a + t * (b + t * c)) / 2, (a + 2 * t * b + 3 * t * t * c) / 2)

/-- A node, edge nodes repeated outward (R126). -/
def FMap.node (f : FMap) (i j : Int) : Rat × Rat × Rat :=
  let c (x : Int) : Nat := (max 0 (min ((f.n : Int) - 1) x)).toNat
  match f.nodes[c i * f.n + c j]? with
  | some v => (((v.1 : Int) : Rat), ((v.2.1 : Int) : Rat), ((v.2.2 : Int) : Rat))
  | none => (0, 0, 0)

/-- A point of the map with its derivatives by the two angles. -/
structure MapPt where
  x   : Rat
  y   : Rat
  z   : Rat
  xa  : Rat
  xb  : Rat
  ya  : Rat
  yb  : Rat
deriving DecidableEq, Repr

/-- The forward map by Catmull-Rom bicubic convolution (R126). -/
def FMap.fwd (f : FMap) (ax ay : Rat) : MapPt :=
  let m : Rat := ((f.n - 1 : Nat) : Rat)
  let sx : Rat := m / (((f.axMax - f.axMin : Int) : Rat))
  let sy : Rat := m / (((f.ayMax - f.ayMin : Int) : Rat))
  let u := quant ((ax - ((f.axMin : Int) : Rat)) * sx)
  let v := quant ((ay - ((f.ayMin : Int) : Rat)) * sy)
  let j : Int := max 0 (min ((f.n : Int) - 2) u.floor)
  let i : Int := max 0 (min ((f.n : Int) - 2) v.floor)
  let tu := u - ((j : Int) : Rat)
  let tv := v - ((i : Int) : Rat)
  let row (k : Int) (g : Rat × Rat × Rat → Rat) : Rat × Rat :=
    cubic (g (f.node k (j - 1))) (g (f.node k j)) (g (f.node k (j + 1))) (g (f.node k (j + 2))) tu
  let both (g : Rat × Rat × Rat → Rat) : Rat × Rat × Rat :=
    let r0 := row (i - 1) g
    let r1 := row i g
    let r2 := row (i + 1) g
    let r3 := row (i + 2) g
    let c := cubic r0.1 r1.1 r2.1 r3.1 tv
    (quant c.1, quant ((cubic r0.2 r1.2 r2.2 r3.2 tv).1 * sx), quant (c.2 * sy))
  let x := both fun p => p.1
  let y := both fun p => p.2.1
  let z := both fun p => p.2.2
  ⟨x.1, y.1, z.1, x.2.1, x.2.2, y.2.1, y.2.2⟩

/-- Solve the 2 × 2 system of the map's derivatives. -/
def MapPt.solve (p : MapPt) (dx dy : Rat) : Rat × Rat :=
  let det := p.xa * p.yb - p.xb * p.ya
  if det = 0 then (0, 0) else (quant ((dx * p.yb - dy * p.xb) / det), quant ((p.xa * dy - p.ya * dx) / det))

/-- Newton steps of the inverse map. -/
def FMap.newton (f : FMap) (x y : Rat) : Nat → Rat → Rat → Rat × Rat
  | 0, a, b => (a, b)
  | n + 1, a, b =>
    let p := f.fwd a b
    let e := p.solve (x - p.x) (y - p.y)
    f.newton x y n (quant (a + e.1)) (quant (b + e.2))

/-- The inverse map (R126; log 20, DESIGN CHOICE): the angles of a machine-frame point, by Newton steps from the middle of the map. -/
def FMap.inv (f : FMap) (x y : Rat) : Rat × Rat :=
  f.newton x y 10 (((f.axMin + f.axMax : Int) : Rat) / 2) (((f.ayMin + f.ayMax : Int) : Rat) / 2)

/-- Is a machine-frame point in the field covered by the map (R126)? -/
def FMap.covers (f : FMap) (x y : Rat) : Bool :=
  let a := f.inv x y
  let p := f.fwd a.1 a.2
  rabs (p.x - x) ≤ 1 && rabs (p.y - y) ≤ 1 && ((f.axMin : Int) : Rat) ≤ a.1 && a.1 ≤ ((f.axMax : Int) : Rat) &&
    ((f.ayMin : Int) : Rat) ≤ a.2 && a.2 ≤ ((f.ayMax : Int) : Rat)

/-! Frames. -/

/-- The bed frame of a skein (R61, R124). -/
structure Frame where
  ox   : Int
  oy   : Int
  xrev : Bool
  yrev : Bool
  swap : Bool
deriving DecidableEq, Repr

/-- The frame of an origin and axis flags. -/
def frameOf (ox oy : Int) (flags : Word) : Frame := ⟨ox, oy, flags.getLsbD 2, flags.getLsbD 3, flags.getLsbD 4⟩

/-- The frame of a skein. -/
def Skein.frame (k : Skein) : Frame := frameOf k.ox k.oy k.flags

/-- A machine-frame direction in the bed frame. -/
def Frame.bedDir (f : Frame) (u w : Rat) : Rat × Rat :=
  let p := if f.swap then (w, u) else (u, w)
  (if f.xrev then -p.1 else p.1, if f.yrev then -p.2 else p.2)

/-- A bed-frame direction in the machine frame. -/
def Frame.machDir (f : Frame) (x y : Rat) : Rat × Rat :=
  let bx := if f.xrev then -x else x
  let by_ := if f.yrev then -y else y
  if f.swap then (by_, bx) else (bx, by_)

/-- A machine-frame point in the bed frame (R124). -/
def Frame.bed (f : Frame) (xm ym : Rat) : Rat × Rat := f.bedDir (xm - ((f.ox : Int) : Rat)) (ym - ((f.oy : Int) : Rat))

/-- A bed-frame point in the machine frame. -/
def Frame.mach (f : Frame) (x y : Rat) : Rat × Rat :=
  let p := f.machDir x y
  (p.1 + ((f.ox : Int) : Rat), p.2 + ((f.oy : Int) : Rat))

/-! Segments. -/

/-- Length of a vector. -/
def vlen (x y : Rat) : Rat := rsqrt (x * x + y * y)

/-- The point at arc length `s` into a segment of length `len`, and the unit tangent there. -/
def Seg.at (g : Seg) (len s : Rat) : Rat × Rat × Rat × Rat :=
  match g with
  | .line x0 y0 x1 y1 =>
    if len = 0 then (x0, y0, 1, 0)
    else
      let tx := quant ((x1 - x0) / len)
      let ty := quant ((y1 - y0) / len)
      (quant (x0 + (x1 - x0) * s / len), quant (y0 + (y1 - y0) * s / len), tx, ty)
  | .arc cx cy ux uy sweep =>
    let q := if len = 0 then 0 else sweep * s / len
    let sc := sincos q
    let px := ux * sc.2 - uy * sc.1
    let py := ux * sc.1 + uy * sc.2
    let r := vlen ux uy
    let k := if r = 0 then 0 else (if 0 ≤ sweep then 1 else -1) / r
    (quant (cx + px), quant (cy + py), quant (-py * k), quant (px * k))

/-- A segment without its first `a` and last `b` of its length `len`. -/
def Seg.trim (g : Seg) (len a b : Rat) : Seg :=
  match g with
  | .line _ _ _ _ =>
    let p := g.at len a
    let q := g.at len (len - b)
    .line p.1 p.2.1 q.1 q.2.1
  | .arc cx cy _ _ sweep =>
    let p := g.at len a
    .arc cx cy (p.1 - cx) (p.2.1 - cy) (if len = 0 then 0 else quant (sweep * (len - a - b) / len))

/-- The angle between two unit vectors and its sense, in (-π, π]. -/
def turn (ax ay bx by_ : Rat) : Rat := atan2 (ax * by_ - ay * bx) (ax * bx + ay * by_)

/-- The arc position nearest to a point within `lo` to `hi` of a segment's length, and the square of its distance. -/
def Seg.nearest (g : Seg) (len lo hi x y : Rat) : Rat × Rat :=
  let d2 (s : Rat) : Rat := let p := g.at len s; (p.1 - x) * (p.1 - x) + (p.2.1 - y) * (p.2.1 - y)
  match g with
  | .line x0 y0 x1 y1 =>
    let s := if len = 0 then 0 else clampR lo hi (quant (((x - x0) * (x1 - x0) + (y - y0) * (y1 - y0)) / len))
    (s, d2 s)
  | .arc cx cy ux uy sweep =>
    let q := turn ux uy (x - cx) (y - cy)
    let f (a : Rat) : Rat := if sweep = 0 then 0 else clampR lo hi (quant (a * len / sweep))
    [f (q - 2 * piQ), f (q + 2 * piQ)].foldl (fun b s => if d2 s < b.2 then (s, d2 s) else b) (f q, d2 (f q))

/-- Half the distance [nm] that a machine-frame point lies from the edge of the covered field, judged by the map's slopes
there, in whole nanometres and at least 1; none outside the field. -/
def FMap.leap (f : FMap) (x y : Rat) : Option Nat :=
  if ¬ f.covers x y then none
  else
    let a := f.inv x y
    let p := f.fwd a.1 a.2
    let lo (u v : Rat) : Rat := if u ≤ v then u else v
    let edge := lo (lo (a.1 - ((f.axMin : Int) : Rat)) (((f.axMax : Int) : Rat) - a.1))
      (lo (a.2 - ((f.ayMin : Int) : Rat)) (((f.ayMax : Int) : Rat) - a.2))
    let ra := rabs p.yb + rabs p.xb
    let rb := rabs p.ya + rabs p.xa
    let gain := if ra ≤ rb then rb else ra
    some (if gain = 0 then 1 else max 1 (edge * rabs (p.xa * p.yb - p.xb * p.ya) / gain / 2).floor.toNat)

/-- Every point of a path from distance `s` on, `n` nanometres long at most, passes a test that says how far the points around
share its answer (R96, R104; log 35, DESIGN CHOICE). -/
def marches (leap : Rat × Rat → Option Nat) (at_ : Rat → Rat × Rat) (len : Rat) : Nat → Rat → Bool
  | 0, _ => (leap (at_ len)).isSome
  | n + 1, s =>
    if len ≤ s then (leap (at_ len)).isSome
    else match leap (at_ s) with
      | none => false
      | some k => marches leap at_ len n (s + (k : Rat))

/-- The extreme points of a segment, for its bounding box: ends, and the axis extremes of an arc. -/
def Seg.extremes (g : Seg) (len : Rat) : List (Rat × Rat) :=
  let a := g.at len 0
  let b := g.at len len
  let ends := [(a.1, a.2.1), (b.1, b.2.1)]
  match g with
  | .line _ _ _ _ => ends
  | .arc cx cy ux uy sweep =>
    let r := vlen ux uy
    let inside (q : Rat) : Bool :=
      [q - 2 * piQ, q, q + 2 * piQ].any fun t => if 0 ≤ sweep then 0 ≤ t && t ≤ sweep else sweep ≤ t && t ≤ 0
    ends ++ ([(r, (0 : Rat)), (0, r), (-r, 0), (0, -r)].filter fun e => inside (turn ux uy e.1 e.2)).map fun e =>
      (cx + e.1, cy + e.2)

end Sys2Proof.Machine
end

