-- ==== Sys2Proof/Machine/Bobbins.lean ====
section
/-! DEFINITION. Bobbins (R71 to R79) and what a running layer keeps: the buffer a vector binds, the fields of an image, and
the entries of the layer report (R92). -/

namespace Sys2Proof.Machine

/-- CREEL. -/
def creelB : Blk := blk .creel 0

/-- A bobbin. -/
def Dev.bob (d : Dev) (b : Nat) : Bob := d.bobs[Fin.ofNat 256 b]

/-- Change a bobbin. -/
def Dev.bobMod (d : Dev) (b : Nat) (f : Bob → Bob) : Dev := { d with bobs := vmod d.bobs (Fin.ofNat 256 b) f }

/-- A buffer of a bobbin. -/
def Dev.bobBuf (d : Dev) (b : Nat) (buf : Bool) : BobBuf := if buf then (d.bob b).buf1 else (d.bob b).buf0

/-- The word at byte offset `o` of an image (R72). -/
def BobBuf.word (x : BobBuf) (o : Nat) : Word := x.words.getD (o / 4) 0

/-- The same as a number. -/
def BobBuf.nat (x : BobBuf) (o : Nat) : Nat := (x.word o).toNat

/-- The same as a signed number. -/
def BobBuf.int (x : BobBuf) (o : Nat) : Int := (x.word o).toInt

/-- The half word at byte offset `o`. -/
def BobBuf.half (x : BobBuf) (o : Nat) : Nat := if o % 4 = 0 then fld (x.word o) 15 0 else fld (x.word o) 31 16

/-- The profile of the JUMP field, in nm and µs (R72, R99). -/
def BobBuf.prof (x : BobBuf) : Prof :=
  let v (o : Nat) : Rat := (x.nat o : Rat) / 1000
  let a (o : Nat) : Rat := (x.nat o : Rat) / 1000000
  ⟨v 0x50, v 0x54, v 0x58, v 0x5C, a 0x60, a 0x64, a 0x68, a 0x6C⟩

/-- The bobbin conditions of R96. -/
def BobBuf.motionOk (x : BobBuf) : Bool :=
  x.nat 0x44 ≠ 0 && x.nat 0x50 ≤ x.nat 0x54 && x.nat 0x54 ≤ x.nat 0x58 && x.nat 0x5C ≤ x.nat 0x54 &&
    x.nat 0x58 ≤ 40000000 && x.nat 0x60 ≠ 0 && x.nat 0x64 ≠ 0 && x.nat 0x68 ≠ 0 && x.nat 0x6C ≠ 0

/-- A head has a vector bound to a buffer (R76): queued, being taken, or with an event still to fire. -/
def Head.bound (h : Head) (b : Nat) (buf : Bool) : Bool :=
  h.drf.moves.any (fun m => m.bob = b ∧ m.buf = buf) || h.drf.poly.any (fun p => p.bob = b ∧ p.buf = buf) ||
    h.trv.sched.any (fun e => e.kind ≠ 2 ∧ e.bob = b ∧ e.buf = buf) ||
    h.trv.edges.any (fun e => e.ent.kind ≠ 0 ∧ e.ent.kind ≠ 2 ∧ e.ent.bob = b ∧ e.ent.buf = buf) ||
    (h.trv.on_ && h.trv.run.any fun r => r.bob = b ∧ r.buf = buf)

/-- Heads bound to the old buffer of a bobbin (R77, R85). -/
def Dev.oldHold (d : Dev) (b : Nat) : Nat :=
  let x := d.bob b
  if x.pend then 0 else (d.heads.toList.filter fun h => h.bound b !x.live).length

/-- The pending buffer is promoted to live (R73, R77). -/
def Dev.promote (d : Dev) (b : Nat) : Dev :=
  d.bobMod b fun x => { x with gen := if x.gen = 0xFFFF then 1 else x.gen + 1, live := !x.live, pend := false }

/-- A vector binds to its bobbin (R76, R77 step 2). -/
def Dev.bind (d : Dev) (b : Nat) : Dev × Bool :=
  let d1 := if (d.bob b).pend then d.promote b else d
  (d1, (d1.bob b).live)

/-- The running skein's map names a bobbin (R63). -/
def Dev.named (d : Dev) (b : Nat) : Bool :=
  match d.running with
  | some k => b ∈ k.bobs
  | none => false

/-- An image has been written into a bobbin's free buffer (R77): promoted at once, or pending. -/
def Dev.loadImage (d : Dev) (b : Nat) (img : BobBuf) : Dev :=
  let d1 := d.bobMod b fun x => if x.live then { x with buf0 := img, pend := true } else { x with buf1 := img, pend := true }
  if d.named b then d1 else d1.promote b

/-- BOB_STAT (R85); `loading` says that the descriptor being served writes the bobbin. -/
def Dev.bobStat (d : Dev) (b : Nat) (loading : Bool) : Word :=
  let x := d.bob b
  let st := if loading then 3 else if x.pend then 2 else if x.gen = 0 then 0 else 1
  let enc := if x.gen = 0 then false else (if x.live then x.buf1 else x.buf0).enc
  wd (x.gen + st * 2 ^ 16 + enc.toNat * 2 ^ 20 + d.oldHold b * 2 ^ 24)

/-! The layer report. -/

/-- List `count` records (R92): the listing joins the entry before it, or starts a new one; an entry that the report area has no
room for counts as the entry before it too (log 43, DEDUCED). -/
def Dev.list (d : Dev) (id : Word) (reason head : Nat) (pool : Bool) (first count : Nat) : Dev :=
  if count = 0 then d else
  let es := d.rep.entries
  let joined : Option (List RepEnt) := match es.getLast? with
    | some e =>
      if e.pool = pool ∧ e.head = head ∧ e.reason = reason ∧ e.first + e.count = first then
        some (es.dropLast ++ [{ e with count := e.count + count }])
      else none
    | none => none
  let es' := match joined with
    | some l => l
    | none => es ++ [⟨id, reason, head, pool, first, count⟩]
  { d with rep := { d.rep with entries := es' } }

/-- The running skein has web mode. -/
def Dev.webLayer (d : Dev) : Bool :=
  match d.running with
  | some k => k.web
  | none => false

/-- The list of a head in the running skein: address and records. -/
def Dev.listOf (d : Dev) (h : Fin 32) : Nat × Nat :=
  match d.running with
  | some k => if k.headMask.getLsbD h.val then k.lists[h] else (0, 0)
  | none => (0, 0)

end Sys2Proof.Machine
end

