-- ==== Sys2Proof/Machine/Claims.lean ====
section
/-! DEFINITION. Resource claims (R292, R293): a pin, ball, master or buffer is held by at most one feature. -/

namespace Sys2Proof.Machine

/-- The claim on a resource. -/
def Dev.holder (d : Dev) (owner : Blk) (ix : Nat) : Option Claim := d.claims.find? fun c => c.owner = owner ∧ c.ix = ix

/-- Does a feature hold a resource? -/
def Dev.holds (d : Dev) (owner : Blk) (ix : Nat) (by_ : Blk) (sub : Nat) : Bool :=
  d.claims.any fun c => c = ⟨owner, ix, by_, sub⟩

/-- A claim of the same cycle: owner, resource, claiming block (R292). -/
abbrev Rival := Blk × Nat × Blk

/-- The order of claims that arrive in one cycle: region, then block number (R292). -/
def claimKey (b : Blk) : Nat := b.region.val * 64 + b.block.val

/-- Why a claim is refused (R292, R293): code and holder; none where it is granted. `rivals` are the claims that commands of the same
cycle still bring; one of an earlier block gets the resource (log 29, DEDUCED). -/
def Dev.claimErr (d : Dev) (owner : Blk) (ix : Nat) (by_ : Blk) (sub : Nat) (rivals : List Rival := []) : Option (Nat × Blk) :=
  if (blkKind owner).isNone ∨ d.fenced owner then some (3, ⟨0, 0⟩)
  else match d.holder owner ix with
    | none => (rivals.find? fun r => r.1 = owner ∧ r.2.1 = ix ∧ claimKey r.2.2 < claimKey by_).map fun r => (1, r.2.2)
    | some c => if c.by_ = by_ ∧ c.sub = sub then none else some (1, c.by_)

/-- The claim is granted. -/
def Dev.claim (d : Dev) (owner : Blk) (ix : Nat) (by_ : Blk) (sub : Nat) : Dev :=
  if d.holds owner ix by_ sub then d else { d with claims := d.claims ++ [⟨owner, ix, by_, sub⟩] }

/-- Release what a feature holds of an owner, but for one resource. -/
def Dev.release (d : Dev) (owner : Blk) (by_ : Blk) (sub : Nat) (but : Option Nat) : Dev :=
  { d with claims := d.claims.filter fun c => ¬ (c.owner = owner ∧ c.by_ = by_ ∧ c.sub = sub ∧ some c.ix ≠ but) }

/-- LIGHT. -/
def light : Blk := blk .light 0

/-- The resource that LGT_CFG names (R294): LLINE[i], or an output pin of a motion port. -/
def lgtPin (i : Fin 4) (v : Word) : Blk × Nat :=
  if bit v 13 then (blk .mpg (fld v 19 16 / 4), 4 * (fld v 19 16 % 4) + fld v 21 20) else (light, i.val)

/-- The word of a CLAIM_ERR register (R293). -/
def claimWord (code : Nat) (h : Blk) (ix : Nat) : Word :=
  wd (code + h.region.val * 16 + h.block.val * 256 + ix % 65536 * 65536)

end Sys2Proof.Machine
end

