-- ==== Sys2Proof/Machine/Journal.lean ====
section
/-! DEFINITION. The journal store (R475 to R483): records and areas of the flash, the queue of transactions, programs,
doffing, and the three long operations of JRNL. -/

namespace Sys2Proof.Machine

/-- JRNL. -/
def jrnl : Blk := blk .jrnl 0

/-! Records (R477). -/

/-- A number rounded up to a multiple of 16. -/
def up16 (n : Nat) : Nat := (n + 15) / 16 * 16

/-- Bytes a record takes in the flash. -/
def recBytes (len : Nat) : Nat := up16 (16 + len)

/-- The bytes of a record (R477). -/
def JRec.image (r : JRec) : List Byte :=
  let h := leBytes 4 (0xA5 + r.type % 256 * 256 + r.data.length % 65536 * 65536) ++ leBytes 4 r.seq ++ leBytes 4 r.key.toNat
  let b := h ++ leBytes 4 (crc32 (h ++ r.data)).toNat ++ r.data
  b ++ List.replicate (recBytes r.data.length - b.length) 0xFF#8

/-- Bytes of a transaction with its COMMIT. -/
def JTx.size (t : JTx) : Nat := (t.recs.map fun r => recBytes r.2.2.length).sum + recBytes 4

/-- The records of a transaction, numbered from `seq`, with its COMMIT. -/
def JTx.number (t : JTx) (seq : Nat) : List JRec :=
  (t.recs.mapIdx fun i r => ⟨r.1, r.2.1, (seq + i) % 2 ^ 32, r.2.2⟩) ++
    [⟨0x0F, 0, (seq + t.recs.length) % 2 ^ 32, leBytes 4 seq⟩]

/-- Place records one after another from an offset on; the offset after them. -/
def placeRecs (o : Nat) : List JRec → List (Nat × JRec) × Nat
  | [] => ([], o)
  | r :: rs =>
    let x := placeRecs (o + recBytes r.data.length) rs
    ((o, r) :: x.1, x.2)

/-- The area header of R476; bytes 0x0C to 0x3B have no stated content (log 18, DESIGN CHOICE). -/
def areaHeader (a : JArea) : List Byte :=
  let h := leBytes 4 0x5A4A0001 ++ leBytes 4 a.gen ++ leBytes 4 a.first ++
    (List.range 12).flatMap fun i => leBytes 4 (Config.areaPad i).toNat
  h ++ leBytes 4 (crc32 h).toNat

/-- The first `n` bytes of an area, erased flash reading 0xFF. -/
def areaBytes (esize : Nat) (a : JArea) (n : Nat) : List Byte :=
  let start := areaHeader a ++ List.replicate (esize - 64) 0xFF#8
  let all := a.recs.foldl (fun bs r => bs ++ List.replicate (r.1 - bs.length) 0xFF#8 ++ r.2.image) start
  (all ++ List.replicate (n - all.length) 0xFF#8).take n

/-! The store. -/

/-- The live area (R476). -/
def Dev.jLive (d : Dev) : Fin 2 := d.jrn.live

/-- Change the store. -/
def Dev.jmod (d : Dev) (f : Jrn → Jrn) : Dev := { d with jrn := f d.jrn }

/-- The registers that show the store: live area, read-only, GEN, SEQ, fill, records queued. -/
def Dev.jShow (d : Dev) : Dev :=
  let a := d.jrn.areas[d.jLive]
  let half := d.jrn.size / 2
  let pct := if half = 0 then 0 else min 255 (a.fill * 100 / half)
  let q := min 65535 ((d.jrn.queue.map fun t => t.recs.length).sum)
  let d1 := ((d.put jrnl R.JRNL_GEN (wd a.gen)).put jrnl R.JRNL_SEQ (wd d.jrn.seq)).put jrnl R.JRNL_FILL (wd a.fill)
  (((d1.putF jrnl R.JRNL_STAT 0 0 d.jLive.val).putB jrnl R.JRNL_STAT 4 d.jrn.ro).putF jrnl R.JRNL_STAT 15 8 pct).putF jrnl
    R.JRNL_STAT 31 16 q

/-- The journal can take records: a flash, enabled, not read-only. -/
def Dev.jUsable (d : Dev) : Bool := d.jrn.found && d.getB jrnl R.JRNL_CTL 0 && !d.jrn.ro

/-- Every valid die sensor sample lies within the write window (R480). -/
def Dev.jWindow (d : Dev) : Bool :=
  (List.range 64).all fun s =>
    let w := d.get (blk .therm 0) R.THERM_SNS s
    fld w 14 12 = 4 || (let t := sgn 12 (fld w 11 0); -100 ≤ t && t ≤ 420)

/-- A doffing begins: it erases the other area (R479). -/
def Dev.jDoffGo (d : Dev) : Dev := (d.jmod fun j => { j with doff := true, want := false }).putB jrnl R.JRNL_STAT 2 true

/-- Follow the write window in TEMP_HOLD (R480); a doffing that waits for it begins. -/
def Dev.jHold (d : Dev) : Dev :=
  if d.jWindow then
    let d1 := d.putB jrnl R.JRNL_STAT 3 false
    if d.jrn.want && !d.jrn.busy && !d.jrn.doff then d1.jDoffGo else d1
  else if d.getB jrnl R.JRNL_STAT 3 then d
  else (d.putB jrnl R.JRNL_STAT 3 true).event jrnl R.JRNL_EVT R.JRNL_EVT_EN 4#32 61

/-- Queue a transaction of the device, or refuse it whole (R480). The flag says whether it was queued. -/
def Dev.jQueue (d : Dev) (t : JTx) : Dev × Bool :=
  if ¬ d.jUsable then (d, false)
  else if 65536 < (d.jrn.queue.map JTx.size).sum + t.size then
    ((d.bump jrnl R.JRNL_LOST).raise jrnl none 2, false)
  else ((d.jmod fun j => { j with queue := j.queue ++ [t] }).jShow, true)

/-- Append records of the device as one transaction. -/
def Dev.jAppend (d : Dev) (recs : List (Nat × Word × List Byte)) : Dev :=
  if recs = [] then d else (d.jQueue ⟨recs, .device⟩).1

/-- A doffing is asked for (R479): it begins once no program runs and the window is open (R480). -/
def Dev.jDoff (d : Dev) : Dev := if d.jrn.doff then d else (d.jmod fun j => { j with want := true }).jHold

/-- The live area filled to DOFF_PCT asks for a doffing (R479). -/
def Dev.jFull (d : Dev) : Dev :=
  let full : Bool := d.getF jrnl R.JRNL_CTL 15 8 * (d.jrn.size / 2) ≤ d.jrn.areas[d.jLive].fill * 100
  if d.jrn.found && decide (d.jrn.size ≠ 0) && full then d.jDoff else d

/-- Records that doffing keeps (R477): the latest per key, or per type and key, or the newest 256 of a type. -/
def keptRecs (rs : List JRec) : List JRec :=
  let newest (t : Nat) : List JRec := let l := rs.filter fun r => r.type = t; l.drop (l.length - 256)
  let rec last : List JRec → List JRec
    | [] => []
    | r :: t => if t.any fun x => x.type = r.type ∧ x.key = r.key then last t else r :: last t
  let n7 := newest 7
  let n8 := newest 8
  let ks := last (rs.filter fun r => (1 ≤ r.type ∧ r.type ≤ 6) ∨ (0x80 ≤ r.type ∧ r.type ≤ 0xFE))
  rs.filter fun r => r ∈ ks ∨ (r.type = 7 ∧ r ∈ n7) ∨ (r.type = 8 ∧ r ∈ n8)

/-! Meanings. -/

/-- JOURNAL_PROGRAM_START (R478, R480): a doffing comes first where replay found a torn tail. -/
def execJournalProgramStart (s : State) : Host.Outcome State Fault Refusal :=
  onLive (fun d =>
    if d.jrn.queue = [] ∨ d.jrn.busy ∨ d.jrn.doff ∨ ¬ d.jUsable then d
    else if ¬ d.jWindow then d.jHold
    else if d.jrn.torn ∨ d.jrn.want then d.jDoff
    else (d.putB jrnl R.JRNL_STAT 3 false).jmod fun j => { j with busy := true }) s

/-- A program has been verified: the transaction joins the live area (R477, R481). -/
def Dev.jCommit (d : Dev) : Dev :=
  match d.jrn.queue with
  | [] => d.jmod fun j => { j with busy := false, retry := false }
  | t :: q =>
    let a := d.jrn.areas[d.jLive]
    let rs := t.number d.jrn.seq
    let p := placeRecs a.fill rs
    let d1 := (d.jmod fun j => { j with
      areas := vmod j.areas d.jLive fun x => { x with recs := x.recs ++ p.1, fill := p.2 }
      seq := (j.seq + rs.length) % 2 ^ 32, queue := q, busy := false, retry := false,
      opDone := j.opDone || t.from_ = .append }).jShow
    let d2 := if t.from_ = .shutdown ∧ ¬ q.any fun x => x.from_ = .shutdown then
      d1.putB (blk .aon 0) R.AON_STAT 0 false else d1
    let d3 := d2.jFull
    if d3.jrn.want then d3.jHold else d3

/-- JOURNAL_PROGRAM_DONE (R481). -/
def execJournalProgramDone (ok : Bool) (s : State) : Host.Outcome State Fault Refusal :=
  onLive (fun d =>
    if ¬ d.jrn.busy then d
    else if ok then d.jCommit
    else
      let d1 := d.bump jrnl R.JRNL_WFAIL
      if ¬ d.jrn.retry then
        (d1.jmod fun j => { j with
          areas := vmod j.areas d.jLive fun x => { x with fill := x.fill + 16 }, retry := true }).jShow
      else
        (((d1.jmod fun j => { j with busy := false, retry := false, failed := true }).raise jrnl none 0).event jrnl
          R.JRNL_EVT R.JRNL_EVT_EN 8#32 61).jDoff) s

/-- The area that a doffing writes (R479). -/
def Dev.jCompact (d : Dev) : Dev :=
  let a := d.jrn.areas[d.jLive]
  let kept := keptRecs (a.recs.map (·.2))
  let t : JTx := ⟨kept.map fun r => (r.type, r.key, r.data), .device⟩
  let rs := if kept = [] then [] else t.number d.jrn.seq
  let p := placeRecs d.jrn.esize rs
  let other : Fin 2 := d.jLive + 1
  let d1 := d.jmod fun j => { j with
    areas := vmod j.areas other fun _ => ⟨true, (a.gen + 1) % 2 ^ 32, j.seq, p.1, p.2⟩
    seq := (j.seq + rs.length) % 2 ^ 32, doff := false, failed := false, torn := false, tail := 0 }
  ((((d1.jmod fun j => { j with live := other }).putB jrnl R.JRNL_STAT 2 false).bump jrnl R.JRNL_DOFFS).jShow).event jrnl
    R.JRNL_EVT R.JRNL_EVT_EN 1#32 61

/-- DOFFING_DONE (R479, R481). -/
def execDoffingDone (ok : Bool) (s : State) : Host.Outcome State Fault Refusal :=
  onLive (fun d =>
    if ¬ d.jrn.doff then d
    else if ok then
      let d1 := d.jCompact
      if d1.opRunning jrnl 3 then d1.opDone jrnl else d1
    else
      let d1 := (d.jmod fun j => { j with doff := false }).putB jrnl R.JRNL_STAT 2 false
      let d2 := if d.jrn.failed then (d1.jmod fun j => { j with ro := true }).jShow else d1
      if d2.opRunning jrnl 3 then (d2.free.2).opFail jrnl (0x80 + fld d2.free.1 6 0) else d2) s

/-- What a reset leaves of a program or erase that it cuts (R452, R477 to R479): whether it was complete, and how many
records of a transaction reached the flash, are open (log 48, DESIGN CHOICE). -/
def Dev.flashCut (d : Dev) : Dev :=
  let f := d.free.1
  if d.jrn.busy then
    if bit f 0 then d.free.2.jCommit
    else
      let n := match d.jrn.queue with
        | t :: _ => fld f 31 1 % (t.recs.length + 2)
        | [] => 0
      d.free.2.jmod fun j => { j with torn := j.torn || decide (n ≠ 0), tail := j.tail + n }
  else if d.jrn.doff then
    if bit f 0 then d.free.2.jCompact
    else d.free.2.jmod fun j => { j with areas := vmod j.areas (d.jLive + 1) fun a => { a with valid := false } }
  else d

/-- The store after a soft reset of JRNL (R7; log 45, DEDUCED): nothing is queued, and a program or doffing under way is cut. -/
def Dev.jRenew (d : Dev) : Dev :=
  d.flashCut.jmod fun j => { j with
    queue := [], busy := false, retry := false, doff := false, failed := false, opDone := false, ro := false, want := false }

/-- APPEND (R482): the host's start. -/
def execAppend (tag : BitVec 8) (s : State) : Host.Outcome State Fault Refusal :=
  onLive (fun d => d.hostStart jrnl 1 tag.toNat 0) s

/-- READ (R482): the host's start. -/
def execRead (tag : BitVec 8) (s : State) : Host.Outcome State Fault Refusal :=
  onLive (fun d => d.hostStart jrnl 2 tag.toNat 0) s

/-- DOFF (R479): the host's start. -/
def execDoff (tag : BitVec 8) (s : State) : Host.Outcome State Fault Refusal :=
  onLive (fun d => d.hostStart jrnl 3 tag.toNat 0) s

/-- The SDRAM address of a JRNL operation. -/
def Dev.jAddr (d : Dev) : Nat := d.getF jrnl R.JRNL_OP_ADDR_LO 31 4 * 16 + d.getN jrnl R.JRNL_OP_ADDR_HI * 2 ^ 32

/-- The records of an APPEND image, none where a TYPE or a LEN is not valid (R482). -/
def hostRecs : Nat → List Byte → Option (List (Nat × Word × List Byte))
  | 0, _ => some []
  | n + 1, bs =>
    if bs = [] then some [] else
    let w := leNat (bs.take 4)
    let ty := w / 256 % 256
    let len := w / 65536
    if 0x80 ≤ ty ∧ ty ≤ 0xFE ∧ len ≤ 4080 ∧ recBytes len ≤ bs.length then
      match hostRecs n (bs.drop (recBytes len)) with
      | some rs => some ((ty, wd (leNat ((bs.drop 8).take 4)), (bs.drop 16).take len) :: rs)
      | none => none
    else none

/-- APPEND begins to run: the records are taken from SDRAM and queued (R480, R482). -/
def Dev.appendBegin (m : Mem) (d : Dev) : Dev :=
  let n := d.getN jrnl R.JRNL_OP_LEN
  match d.sdRead m d.jAddr n with
  | .error e => (d.sdMark jrnl d.jAddr n).opFail jrnl (if e = 4 then 7 else 6)
  | .ok bs =>
    match hostRecs (n / 16) bs with
    | none => d.opFail jrnl 6
    | some rs =>
      let x := d.jQueue ⟨rs, .append⟩
      if x.2 then x.1.jmod fun j => { j with opDone := false }
      else (x.1.free.2).opFail jrnl (0x80 + fld x.1.free.1 6 0)

/-- APPEND_DONE (R482). -/
def execAppendDone (s : State) : Host.Outcome State Fault Refusal :=
  onLive (fun d => if d.opRunning jrnl 1 ∧ d.jrn.opDone then
    (d.jmod fun j => { j with opDone := false }).opDone jrnl else d) s

/-- READ_DONE (R482): the bytes of the live area stand in SDRAM. -/
def execReadDone (s : State) : Host.Outcome State Fault Refusal :=
  onLiveMem (fun m d =>
    if d.opRunning jrnl 2 ∧ ¬ d.getB jrnl R.JRNL_STAT 3 then
      let n := min (d.getN jrnl R.JRNL_OP_LEN) (d.jrn.size / 2)
      match d.sdWrite m d.jAddr (areaBytes d.jrn.esize d.jrn.areas[d.jLive] n) with
      | .ok m' => (m', d.opDone jrnl)
      | .error e => (m, (d.sdMark jrnl d.jAddr n).opFail jrnl (if e = 4 then 7 else 6))
    else (m, d)) s

end Sys2Proof.Machine
end

