-- ==== Sys2Proof/WellFormed.lean ====
section
/-! DEFINITION. Which commands carry operands that a correct partner, pin or bus gives: what the meanings of the others do
is said where they stand (they drop, clip or discard as the spec has it; no command stops for them). -/

namespace Sys2Proof

/-- Nanoseconds of a PTP time stay below a second (R393). -/
def PtpTime.ok (t : PtpTime) : Bool := t.ns.toNat < 1000000000

/-- A request has bytes and stays in its line, with as many data bytes as its length (R362). -/
def SdReq.ok (r : SdReq) : Bool :=
  0 < r.len && r.ofs.val + r.len ≤ 64 && (r.data.all fun bs => bs.length = r.len)

/-- A FEEDBACK frame has at most six words (R305). -/
def FbFrame.ok (f : FbFrame) : Bool := f.words.length ≤ 6

/-- Bits of a pixel by data type: RAW8, RAW10 or RAW12, 0 for any other (R279). -/
def rawBits (dataType : BitVec 8) : Nat :=
  if dataType = 0x2A then 8 else if dataType = 0x2B then 10 else if dataType = 0x2C then 12 else 0

/-- The pixels of a packet have the depth of its data type (R279). -/
def CsiLine.ok (l : CsiLine) : Bool := rawBits l.dataType = 0 || l.pixels.all fun v => v < 2 ^ rawBits l.dataType

/-- A BAR2 request carries at least one byte and stays inside the window (R41). -/
def Bar2Acc.ok (a : Bar2Acc) (ofs : BitVec 28) : Bool :=
  match a with
  | .read n => 0 < n && ofs.toNat + n ≤ 2 ^ 28
  | .write bs => 0 < bs.length && ofs.toNat + bs.length ≤ 2 ^ 28

/-- The checks of a command's operands. -/
def Instr.wf (i : Instr) : Bool :=
  match i with
  | .bar2Access ofs acc => acc.ok ofs
  | .feedbackFrame _ f => f.ok
  | .layerFrame _ f => f.lines.all CsiLine.ok
  | .sdramRequest _ r => r.ok
  | .sync _ m => m.rx.ok && m.origin.ok
  | .followUp _ m => m.time.ok
  | .delayReq _ rx _ => rx.ok
  | .delayResp _ m => m.time.ok
  | .desc _ bytes => bytes.length ≤ 512
  | .data _ bytes => bytes.length ≤ 512
  | _ => true

end Sys2Proof
end

