-- ==== Sys2Proof/Machine/Memory.lean ====
section
/-! DEFINITION. SDRAM channels and the SRAM pool (R360 to R383, R388 to R390): requests under ECC and the retry rule,
rank migration, refresh, scrubbing, and the host's path into the pool. -/

namespace Sys2Proof.Machine

/-- The controller of a channel. -/
def sdcB (ch : Fin 2) : Blk := blk .sdc ch.val

/-- SRAMP. -/
def sramp : Blk := blk .sramp 0

/-! Refresh (R373 to R376). -/

/-- The rank passed training and is not marked failed or retired: it receives commands. -/
def Dev.rankLive (d : Dev) (ch : Fin 2) (r : Fin 4) : Bool :=
  d.sdc[ch].train / 4 ^ r.val % 4 = 1 && !d.getB (sdcB ch) R.SDC_STAT (8 + r.val)

/-- The rank refreshes at the doubled rate. -/
def Dev.rankDbl (d : Dev) (ch : Fin 2) (r : Fin 4) : Bool := d.getB (sdcB ch) R.SDC_STAT (12 + r.val)

/-- The owed limit of a rank. -/
def Dev.owedLimit (d : Dev) (ch : Fin 2) (r : Fin 4) : Nat := if d.rankDbl ch r then 4 else 8

/-- Refresh of the channel is not disabled. -/
def Dev.refOn (d : Dev) (ch : Fin 2) : Bool := !d.getB (sdcB ch) R.SDC_REF_CTL 0

/-- The index of a refresh unit. -/
def unitIx (r b : Fin 4) : Fin 16 := Fin.ofNat 16 (4 * r.val + b.val)

/-- Change a channel. -/
def Dev.sdcMod (d : Dev) (ch : Fin 2) (f : Sdc → Sdc) : Dev := { d with sdc := vmod d.sdc ch f }

/-- Change a refresh unit. -/
def Dev.unitMod (d : Dev) (ch : Fin 2) (u : Fin 16) (f : RefUnit → RefUnit) : Dev :=
  d.sdcMod ch fun s => { s with units := vmod s.units u f }

/-- SDC_REF_OWED: the largest owed count of each rank. -/
def Dev.owedShow (d : Dev) (ch : Fin 2) : Dev :=
  let top (r : Fin 4) : Nat :=
    min 15 ((List.finRange 4).foldl (fun n b => max n (d.sdc[ch].units[unitIx r b].owed)) 0)
  d.put (sdcB ch) R.SDC_REF_OWED (wd (top 0 + top 1 * 16 + top 2 * 256 + top 3 * 4096))

/-- REFRESH_ACCRUAL (R373): one more refresh owed, once tREFI has passed since the last accrual. -/
def execRefreshAccrual (ch : Fin 2) (r b : Fin 4) (s : State) : Host.Outcome State Fault Refusal :=
  onLive (fun d =>
    let u := d.sdc[ch].units[unitIx r b]
    d.when (d.rankLive ch r && d.refOn ch && d.pastNs u.accr (if d.rankDbl ch r then 1950 else 3900)) fun d =>
      (d.unitMod ch (unitIx r b) fun u => { u with owed := u.owed + 1, accr := d.now }).owedShow ch) s

/-- An owed count at a new rate (R375). -/
def restated (dbl : Bool) (n : Nat) : Nat := if dbl then 2 * n else (n + 1) / 2

/-- A unit of the rank owes more than its limit: every request to the rank waits for the refreshes (R373, R378). -/
def Dev.overLimit (d : Dev) (ch : Fin 2) (r : Fin 4) : Bool :=
  d.refOn ch && (List.finRange 4).any fun b => d.owedLimit ch r < d.sdc[ch].units[unitIx r b].owed

/-- A change of the refresh rate of a rank (R375). -/
def Dev.restate (d : Dev) (ch : Fin 2) (r : Fin 4) (dbl : Bool) : Dev :=
  let d1 := (d.putB (sdcB ch) R.SDC_STAT (12 + r.val) dbl).bump (sdcB ch) R.SDC_REF_RESTATE
  let d2 := (List.finRange 4).foldl (fun (e : Dev) b => e.unitMod ch (unitIx r b) fun u =>
    { u with owed := restated dbl u.owed, was := some (d.now, u.owed) }) d1
  let d3 := d2.owedShow ch
  if dbl then d3.event (sdcB ch) R.SDC_EVT R.SDC_EVT_EN 8#32 60 else d3

/-- MR4_POLL (R374). -/
def execMr4Poll (ch : Fin 2) (r : Fin 4) (doubled : Bool) (s : State) : Host.Outcome State Fault Refusal :=
  onLive (fun d =>
    d.when (d.rankLive ch r && d.past d.sdc[ch].polled[r] (d.getF (sdcB ch) R.SDC_REF_CTL 15 8 * 1000)) fun d =>
      let n := if doubled then 0 else min 2 (d.sdc[ch].normal[r] + 1)
      let d1 := d.sdcMod ch fun c => { c with polled := c.polled.set r d.now, normal := c.normal.set r n }
      if doubled && !d.rankDbl ch r then d1.restate ch r true
      else if d.rankDbl ch r && n = 2 then d1.restate ch r false
      else d1) s

/-- A fault of a channel as a whole: R389 carries a physical rank as its cell and names none (log 23, DESIGN CHOICE). -/
def Dev.raiseRank (d : Dev) (ch : Fin 2) (kind : Nat) : Dev :=
  (d.free.2).raise (sdcB ch) (some (fld d.free.1 1 0)) kind

/-- What a write of SDC_REF_CTL.DIS does (R376). -/
def Dev.refDis (d : Dev) (ch : Fin 2) (dis : Bool) : Dev :=
  let was := d.getB (sdcB ch) R.SDC_REF_CTL 0
  let d1 := (d.putB (sdcB ch) R.SDC_REF_CTL 0 dis).putB (sdcB ch) R.SDC_STAT 19 dis
  if dis && !was then d1.raiseRank ch 4 else d1

/-- REFRESH_DISABLE (R376). -/
def execRefreshDisable (ch : Fin 2) (dis : Bool) (s : State) : Host.Outcome State Fault Refusal :=
  onLive (fun d => d.hostWrite (sdcB ch) 0x10C fun e => e.refDis ch dis) s

/-! Requests (R362 to R372, R378). -/

/-- Lines of a logical rank in one channel. -/
def Dev.rankLines (d : Dev) : Nat := 2 ^ (12 + d.rowBits)

/-- The physical rank that serves a line of a logical rank: the target below a migration's copy pointer (R368). -/
def Dev.physOf (d : Dev) (m : Mem) (ch : Fin 2) (rank line : Nat) : Fin 4 :=
  let own := Fin.ofNat 4 (d.getF (sdcB ch) R.SDC_RANKMAP (2 * rank + 1) (2 * rank))
  match m.migs[ch] with
  | some g => if g.rank = rank ∧ line < g.p then Fin.ofNat 4 (d.getF (sdcB ch) R.OP_PART 9 8 3) else own
  | none => own

/-- The bank of an address (R362). -/
def bankOf (a : Nat) : Nat := a / 2048 % 4

/-- The physical rank that serves a transaction. -/
def Dev.flightRank (d : Dev) (m : Mem) (ch : Fin 2) (x : Flight) : Fin 4 :=
  d.physOf m ch (x.addr / d.rankBytes) (lineIn d.rowBits x.addr)

/-- REFRESH_ISSUE (R373): a REFsb to a unit that owes one, SDC_TRFCSB after its last. Up to the limit it waits until no request to the
bank is queued; above it, it is forced, and counted so. One issued in the cycle of a change of rate counts at the old rate, before
the restatement (R375). -/
def execRefreshIssue (ch : Fin 2) (r b : Fin 4) (s : State) : Host.Outcome State Fault Refusal :=
  onLiveMem (fun m d =>
    let u := d.sdc[ch].units[unitIx r b]
    let dbl := d.rankDbl ch r
    let old : Option Nat := u.was.bind fun w => if w.1 = d.now then some w.2 else none
    let owed := old.getD u.owed
    let limit := if old.isSome then (if dbl then 8 else 4) else d.owedLimit ch r
    let spaced : Bool := match u.last with
      | none => true
      | some t => d.pastNs t (d.getF (sdcB ch) R.SDC_TRFCSB 11 0)
    let idle : Bool := !d.sdc[ch].flight.any fun x => bankOf x.addr = b.val && d.flightRank m ch x = r
    (m, d.when (d.rankLive ch r && d.refOn ch && 0 < owed && spaced && (idle || decide (limit < owed))) fun d =>
      let d1 := if limit < owed then d.bump (sdcB ch) R.SDC_REF_FORCED else d
      (d1.unitMod ch (unitIx r b) fun u =>
        { u with
          owed := if old.isSome then restated dbl (owed - 1) else owed - 1
          last := some d.now
          was := if old.isSome then some (d.now, owed - 1) else u.was }).owedShow ch)) s

/-- What a lasting error does to its rank (R366). -/
def Dev.rankError (d : Dev) (ch : Fin 2) (phys : Fin 4) (rank : Nat) : Dev :=
  let b := sdcB ch
  let mine : Bool := match d.op b with
    | some o => o.param % 4 = rank
    | none => false
  if d.opBusy b && mine then d
  else if !d.opBusy b && d.getB b R.SDC_STAT 16 then
    if d.opState b = 0 then (d.opStart b 1 0xFF rank).event b R.SDC_EVT R.SDC_EVT_EN 1#32 60 else d
  else
    let d1 := d.event b R.SDC_EVT R.SDC_EVT_EN 4#32 60
    if phys.val ∈ d1.sdc[ch].said then d1
    else (d1.sdcMod ch fun c => { c with said := phys.val :: c.said }).raise b (some phys.val) 2

/-- A lasting error is counted and recorded (R366, R388); the device of SDC_ERR_INFO is left open (log 2, DESIGN CHOICE). -/
def Dev.lastingError (d : Dev) (ch : Fin 2) (phys : Fin 4) (a : Nat) (cmd : Bool) : Dev :=
  let b := sdcB ch
  let info := phys.val + a / 64 % 2 * 4 + a / 256 % 8 * 8 + a / 2048 % 4 * 64 + fld d.free.1 2 0 * 256 + cmd.toNat * 4096
  let d1 := (((d.free.2.bump b R.SDC_UE_CNT).put b R.SDC_ERR_ADDR_LO (wd a)).put b R.SDC_ERR_ADDR_HI
    (wd (a / 2 ^ 32))).put b R.SDC_ERR_INFO (wd info)
  d1.raise b (some phys.val) cmd.toNat

/-- The error handling of one access to a line that no poison marks (R365, R366): the status and the state. -/
def Dev.lineErrors (d : Dev) (ch : Fin 2) (phys : Fin 4) (rank a : Nat) (ecc : EccOutcome) (cmd : Bool) : Nat × Dev :=
  let b := sdcB ch
  match ecc with
  | .clean => (0, d)
  | .corrected => (0, if cmd then d else d.bump b R.SDC_CE_CNT)
  | .transient => (0, (d.bump b R.SDC_TRANS_CNT).raiseTrans b (some phys.val) cmd.toNat)
  | .lasting => (4, (d.lastingError ch phys a cmd).rankError ch phys rank)

/-- A request inside one line, as the channel serves it (R365 to R372, R378): status, SDRAM and device. -/
def Dev.serveLine (d : Dev) (m : Mem) (ch : Fin 2) (panic : Bool) (a n : Nat) (data : Option (List Byte))
    (ecc : EccOutcome) (cmd : Bool) : Nat × Mem × Dev :=
  let b := sdcB ch
  if d.installed < a + n then (3, m, d)
  else if ¬ d.up b then (d.status b, m, d)
  else if d.getB b R.SDC_STAT 18 then (4, m, d)
  else
    let rank := a / d.rankBytes
    let phys := d.physOf m ch rank (lineIn d.rowBits a)
    let d3 := if panic then d.bump b R.SDC_PANIC_CNT else d
    let poisoned := m.poisoned a n
    match data with
    | none =>
      if poisoned then (4, m, d3.bump b R.SDC_POISON_RD)
      else
        let x := d3.lineErrors ch phys rank a ecc cmd
        (x.1, m, x.2)
    | some bs =>
      let full : Bool := n = 64
      let x := if (full || poisoned) && !cmd then (0, d3) else d3.lineErrors ch phys rank a ecc cmd
      if x.1 = 0 then (0, m.write a bs, x.2) else (x.1, m, x.2)

/-- SDC_INFLIGHT: transactions in flight now, and their peak (R388). -/
def Dev.flightShow (d : Dev) (ch : Fin 2) : Dev :=
  let n := d.sdc[ch].flight.length
  d.put (sdcB ch) R.SDC_INFLIGHT (wd (n + max n (d.getF (sdcB ch) R.SDC_INFLIGHT 25 16) * 65536))

/-- One more transaction fits (R378): 512 in all, 448 without panic. -/
def roomFor (l : List Flight) (x : Flight) : Bool := l.length < 512 && (x.panic || l.countP (fun y => !y.panic) < 448)

/-- Transactions that wait enter in their order as far as there is room: in flight, still waiting. -/
def letIn : List Flight → List Flight → List Flight × List Flight
  | l, [] => (l, [])
  | l, x :: t =>
    if roomFor l x then letIn (l ++ [x]) t
    else
      let y := letIn l t
      (y.1, x :: y.2)

/-- Fill what has become free. -/
def Dev.sdcAdmit (d : Dev) (ch : Fin 2) : Dev :=
  (d.sdcMod ch fun c =>
    let x := letIn c.flight c.wait
    { c with flight := x.1, wait := x.2 }).flightShow ch

/-- The last answer of a channel (R24): status, and the bytes that a read brings. -/
def Dev.sdcAnswer (d : Dev) (ch : Fin 2) (st : Nat) (bs : List Byte) : Dev := d.sdcMod ch fun c => { c with answer := some (st, bs) }

/-- A transaction reaches the channel (R363, R372, R378): it is answered at once where nothing is to be done, else it is in flight. -/
def Dev.sdcEnter (d : Dev) (ch : Fin 2) (x : Flight) : Dev :=
  let b := sdcB ch
  if d.installed < x.addr + x.len then d.sdcAnswer ch 3 []
  else if ¬ d.up b then d.sdcAnswer ch (d.status b) []
  else if d.getB b R.SDC_STAT 18 then d.sdcAnswer ch 4 []
  else ((d.reached b none).sdcMod ch fun c => { c with wait := c.wait ++ [x] }).sdcAdmit ch

/-- Requests in flight when the block leaves service are answered as R25 says. -/
def Dev.sdcFlush (d : Dev) (ch : Fin 2) (st : Nat) : Dev :=
  if d.sdc[ch].flight.isEmpty then d
  else (d.sdcMod ch fun c => { c with flight := [], wait := [], answer := some (st, []) }).flightShow ch

/-- The transaction that a command slot goes to (R378), by its place: panic first, oldest first; a row hit may pass older ones, each at
most 16 times, and whether it does is left open (log 22, DESIGN CHOICE). Those to a rank with a refresh to be forced wait. -/
def Dev.slotTo (d : Dev) (m : Mem) (ch : Fin 2) (l : List Flight) : Option Nat :=
  let ok (x : Flight) : Bool := !d.overLimit ch (d.flightRank m ch x)
  match l.findIdx? fun x => x.panic && ok x with
  | some i => some i
  | none =>
    match l.findIdx? fun x => x.hit && ok x, l.findIdx? ok with
    | some i, some j =>
      if j < i ∧ (l.take i).all (fun x => decide (x.passed < 16)) ∧ bit d.free.1 0 then some i else some j
    | _, j => j

/-- A command slot of a channel with transactions in flight (R378): one is served and answered, and another may enter. -/
def sdcSlot (m : Mem) (d : Dev) (ch : Fin 2) : Mem × Dev :=
  let c := d.sdc[ch]
  if c.flight.isEmpty then (m, d)
  else
    let d0 := d.free.2.sdcMod ch fun c => { c with
      slots := (c.slots + 1) % 8
      copies := if c.slots = 7 then 0 else c.copies }
    match d.slotTo m ch c.flight with
    | none => (m, d0)
    | some i =>
      match c.flight[i]? with
      | none => (m, d0)
      | some x =>
        let older := (c.flight.take i).map fun y => if x.hit ∧ ¬ x.panic then { y with passed := y.passed + 1 } else y
        let r := d0.serveLine m ch x.panic x.addr x.len x.data x.ecc x.cmdErr
        let d1 := r.2.2.sdcMod ch fun c => { c with flight := older ++ c.flight.drop (i + 1) }
        let d2 := if x.scrub then d1 else
          d1.sdcAnswer ch r.1 (if r.1 = 0 ∧ x.data.isNone then m.bytes x.addr x.len else [])
        (r.2.1, d2.sdcAdmit ch)

/-- The command slots of one cycle. -/
def sdcSlots (m : Mem) (d : Dev) : Mem × Dev :=
  let x := sdcSlot m d 0
  sdcSlot x.1 x.2 1

/-- SDRAM_REQUEST (R378): the request enters its channel, and a command slot serves it; it ends with its line at the latest (log 52,
DEDUCED), and one without a byte asks for nothing. -/
def execSdramRequest (ch : Fin 2) (r : SdReq) (s : State) : Host.Outcome State Fault Refusal :=
  onLive (fun d =>
    let n := min r.len (64 - r.ofs.val)
    let bs := r.data.map fun l => (l ++ List.replicate n 0#8).take n
    d.when (decide (0 < n)) fun d => d.sdcEnter ch
      ⟨r.panic, r.rowHit, lineAddr d.rowBits ch.val 0 r.line + r.ofs.val, n, bs, r.ecc, r.cmdErr, 0, false⟩) s

/-- The next line of the scrubber is due: a pass over `n` lines takes SCRUB.PERIOD hours (R367; spread evenly, log 22, DEDUCED). -/
def Dev.scrubDue (d : Dev) (ch : Fin 2) (n : Nat) : Bool :=
  let c := d.sdc[ch]
  (c.scrub % n) * (d.getF (sdcB ch) R.SDC_SCRUB 15 8 * 2880000000000) ≤ (d.now - c.scrubT) * n

/-- SCRUB_READ (R367): the next line of the ranks filled and in service, as ordinary traffic. -/
def execScrubRead (ch : Fin 2) (ecc : EccOutcome) (s : State) : Host.Outcome State Fault Refusal :=
  onLive (fun d =>
    let n := d.getF (blk .boot 0) R.BOOT_FILL 2 0 * d.rankLines
    d.when (d.getB (sdcB ch) R.SDC_SCRUB 0 && d.up (sdcB ch) && 0 < n && d.scrubDue ch n) fun d =>
      let i := d.sdc[ch].scrub % n
      let a := lineAddr d.rowBits ch.val (i / d.rankLines) (i % d.rankLines)
      let pass := d.getF (sdcB ch) R.SDC_SCRUB 15 8 * 2880000000000
      (d.sdcMod ch fun c => { c with
        scrub := (i + 1) % n
        scrubT := if i + 1 = n then c.scrubT + pass else c.scrubT }).sdcEnter ch ⟨false, false, a, 64, none, ecc, false, 0, true⟩) s

/-! Rank migration (R368 to R371). -/

/-- A migration ends without remapping. -/
def Dev.migKill (m : Mem) (d : Dev) (ch : Fin 2) (spareFree : Bool) : Mem × Dev :=
  if d.getB (sdcB ch) R.SDC_STAT 17 then
    (m.migDrop ch, (d.putB (sdcB ch) R.SDC_STAT 17 false).putB (sdcB ch) R.SDC_STAT 16 spareFree)
  else (m, d)

/-- MIGRATE begins to run, or fails its start checks (R368, R371). -/
def Dev.migBegin (m : Mem) (d : Dev) (ch : Fin 2) (param : Nat) : Mem × Dev :=
  let b := sdcB ch
  let rank := param % 4
  if d.getF b R.SDC_STAT 2 0 ≤ rank then (m, d.opFail b 6)
  else if ¬ d.getB b R.SDC_STAT 16 then (m, d.opFail b 0x80)
  else
    let src := d.getF b R.SDC_RANKMAP (2 * rank + 1) (2 * rank)
    let tgt := fld (d.liv b R.SDC_CFG) 5 4
    let d1 := ((d.putB b R.SDC_STAT 17 true).putB b R.SDC_STAT 16 false).opPart b 3 (rank + src * 16 + tgt * 256)
    ({ m with migs := m.migs.set ch (some ⟨rank, d.rowBits, 0, []⟩) }, d1.opPart b 4 d.rankLines)

/-- A command slot may copy a line (R368, R378): no refresh is to be forced on either rank, no panic waits, and while others wait the
migration's share of eight slots is not used up. -/
def Dev.mayCopy (d : Dev) (ch : Fin 2) : Bool :=
  let b := sdcB ch
  let c := d.sdc[ch]
  !d.overLimit ch (Fin.ofNat 4 (d.getF b R.OP_PART 5 4 3)) && !d.overLimit ch (Fin.ofNat 4 (d.getF b R.OP_PART 9 8 3)) &&
    (c.flight.isEmpty || (!c.flight.any (fun x => x.panic) && c.copies < d.getF b R.SDC_MIG_SHARE 3 0))

/-- One line copied (R368, R369). -/
def Dev.migCopy (m : Mem) (d0 : Dev) (ch : Fin 2) (ecc : EccOutcome) : Mem × Dev :=
  let b := sdcB ch
  match m.migs[ch] with
  | none => (m, d0)
  | some g =>
    if ¬ d0.opRunning b 1 ∨ d0.rankLines ≤ g.p ∨ ¬ d0.mayCopy ch then (m, d0) else
    let d := if d0.sdc[ch].flight.isEmpty then d0 else d0.sdcMod ch fun c => { c with copies := c.copies + 1 }
    let a := lineAddr g.rb ch.val g.rank g.p
    let src := Fin.ofNat 4 (d.getF b R.OP_PART 5 4 3)
    let lasting : Bool := ecc = .lasting && !m.poisoned a 64
    let d1 := if m.poisoned a 64 then d else (d.lineErrors ch src g.rank a ecc false).2
    let bad : Bool := lasting || m.poisoned a 64
    let m1 := if lasting then m.mark (a / 64) else m
    let d2 := d1.opPart b 0 (g.p + 1)
    let d3 := if bad then d2.opPart b 1 (d2.getN b R.OP_PART 1 + 1) else d2
    let d4 := if ecc = .corrected then d3.opPart b 2 (d3.getN b R.OP_PART 2 + 1) else d3
    ({ m1 with migs := m1.migs.set ch (some { g with p := g.p + 1 }) }, d4.opProg b (4095 * (g.p + 1) / d.rankLines))

/-- MIGRATE (R368): the host's start, or one line copied. -/
def execMigrate (ch : Fin 2) (act : MigAct) (s : State) : Host.Outcome State Fault Refusal :=
  match act with
  | .start tag rank => onLive (fun d => d.hostStart (sdcB ch) 1 tag.toNat rank.val) s
  | .copy ecc => onLiveMem (fun m d => d.migCopy m ch ecc) s

/-- MIGRATE_DONE (R371): the rank is remapped once every line is copied, or the target fails. -/
def execMigrateDone (ch : Fin 2) (targetErr : Bool) (s : State) : Host.Outcome State Fault Refusal :=
  onLiveMem (fun m d =>
    let b := sdcB ch
    match m.migs[ch] with
    | none => (m, d)
    | some g =>
      let src := d.getF b R.OP_PART 5 4 3
      let tgt := d.getF b R.OP_PART 9 8 3
      if ¬ d.opRunning b 1 then (m, d)
      else if targetErr then
        let x := d.migKill m ch false
        (x.1, (((x.2.putB b R.SDC_STAT (8 + tgt) true).raise b (some tgt) 3).raise b (some tgt) 2).opFail b 0x81)
      else if g.p = d.rankLines then
        let d1 := (d.putF b R.SDC_RANKMAP (2 * g.rank + 1) (2 * g.rank) tgt).putB b R.SDC_STAT 17 false
        let d2 := ((d1.putB b R.SDC_STAT (8 + src) true).putB b R.SDC_STAT (4 + src) false).putB b R.SDC_STAT (4 + tgt) true
        ({ m with migs := m.migs.set ch none }, (d2.event b R.SDC_EVT R.SDC_EVT_EN 2#32 60).opDone b)
      else (m, d)) s

/-! The SRAM pool (R379 to R383). -/

/-- The bank is unusable. -/
def Dev.bankBad (d : Dev) (k : Nat) : Bool := k ∈ d.pool.bad

/-- The status of a request to a bank: 1 for one that no reserve bank replaces, or a fenced cell port (R382, R419). -/
def Dev.bankStatus (d : Dev) (k : Nat) : Nat :=
  if 384 ≤ k then 3
  else if d.status sramp ≠ 0 then d.status sramp
  else if d.cellFenced sramp (k / 6) then 1
  else if d.bankBad k ∧ (spGet d.pool.repl k).isNone then 1 else 0

/-- Change the pool. -/
def Dev.poolMod (d : Dev) (f : Pool → Pool) : Dev := { d with pool := f d.pool }

/-- The lowest free bank of the reserve (R382). -/
def Dev.freeReserve (d : Dev) : Option Nat :=
  (List.range' 340 43).find? fun k => ¬ d.bankBad k ∧ ¬ d.pool.repl.any fun p => p.2 = k

/-- The journal record of a bank's repair (R382, R477): its rows, or its replacement (log 46, DESIGN CHOICE). -/
def repairRec (bank : Nat) (ws : List Nat) : Nat × Word × List Byte :=
  (6, wd (1 + 2 * 16 + bank * 1024), ws.flatMap (leBytes 2))

/-- Failing rows of a bank are mapped, or the bank is replaced or lost (R382): rows newly mapped, bank unusable. `keep` says that its
words are kept: those of failing rows cannot be read and are copied poisoned. -/
def Dev.bankRepair (d : Dev) (bank : Nat) (rows : List Nat) (keep : Bool) : Dev × Nat × Bool :=
  let had := (spGet d.pool.rows bank).getD []
  let new := rows.dedup.filter fun r => r ∉ had
  let all := had ++ new
  if all.length ≤ 8 then
    let d1 := (d.poolMod fun p => { p with rows := spPut p.rows bank all }).bump sramp R.SRAMP_REPAIRED new.length
    (if new = [] then d1 else d1.jAppend [repairRec bank all], new.length, false)
  else
    let d1 := (d.putB sramp R.SRAMP_BAD (bank % 32) true (bank / 32)).poolMod fun p => { p with
      bad := if bank ∈ p.bad then p.bad else bank :: p.bad }
    match d1.freeReserve with
    | some k =>
      ((((d1.poolMod fun p => { p with
        repl := spPut p.repl bank k
        sick := if keep then p.sick ++ rows.dedup.map (fun r => bank * 1024 + r) else p.sick }).raise sramp (some (bank / 6)) 1 bank).jAppend
        [repairRec bank [0xFFFF, k]]), 0, true)
    | none => (d1.raise sramp (some (bank / 6)) 2 bank, 0, true)

/-- What a pool word reads as (R383; log 8, DEDUCED and DESIGN CHOICE, marked there). -/
def Dev.poolRead (d : Dev) (a : Nat) : Word × Dev :=
  let bank := a / 65536
  if 16 ≤ bank ∧ bank < 48 then (0, d)
  else match spGet d.pool.words a with
    | some w => (w, d)
    | none => if 340 ≤ bank ∧ bank ∈ d.pool.zero then (0, d) else d.free

/-- The word lies in a row that was copied poisoned; a write of half a word leaves it so (R382; log 8, DEDUCED from R369). -/
def Dev.poolSick (d : Dev) (a : Nat) : Bool := a / 64 ∈ d.pool.sick

/-- SRAMP_ACC_DATA (R381, R383). -/
def execSrampAccData (rw : Option Word) (ecc : EccOutcome) (s : State) : Host.Outcome State Fault Refusal :=
  onLive (fun d =>
    let a := d.getF sramp R.SRAMP_ACC_ADDR 24 2 * 4
    let bank := a / 65536
    let word := a % 65536 / 8
    let adv (e : Dev) : Dev := e.putF sramp R.SRAMP_ACC_ADDR 24 2 (a / 4 + 1)
    let errs (e : Dev) : Dev :=
      match ecc with
      | .clean => e
      | .corrected => (e.bump sramp R.SRAMP_CE_CNT).put sramp R.SRAMP_ERR (wd (bank + word * 512))
      | .transient => e.raiseTrans sramp (some (bank / 6)) 0 (bank + word * 512)
      | .lasting => ((e.bump sramp R.SRAMP_UE_CNT).put sramp R.SRAMP_ERR (wd (bank + word * 512 + 2 ^ 31))).raise sramp
          (some (bank / 6)) 0 (bank + word * 512)
    let closed : Bool := 16 ≤ bank && bank < 48
    match rw with
    | none => d.hostRead sramp 0x110 fun e =>
        if e.bankStatus bank ≠ 0 then (adv e).readFails sramp 0x110 (e.bankStatus bank)
        else if closed then (adv e).complete [0] false
        else if ecc = .lasting ∨ e.poolSick a then (adv (errs e)).readFails sramp 0x110 4
        else
          let x := (adv (errs e)).poolRead a
          x.2.complete [x.1] false
    | some v => d.hostWrite sramp 0x110 fun e =>
        if e.bankStatus bank ≠ 0 then (adv e).logErr (e.bankStatus bank) (badr sramp 0x110) false
        else if closed then adv e
        else (adv (errs e)).poolMod fun p => { p with words := spPut p.words a v }) s

end Sys2Proof.Machine
end

