-- ==== Sys2Proof/Machine/Servo.lean ====
section
/-! DEFINITION. Servo cells (R156 to R185), shared with the machine spindles (R331 to R333): the law, drive words,
feedback words and their classification, cell states, coefficient updates and the tuning operation. A cell is named
by its SPINDLE number (R1). -/

namespace Sys2Proof.Machine

/-- SRV_CMD shows the last drive word. -/
def Dev.cmdShow (d : Dev) (i : Fin 256) : Dev :=
  if isHead i then
    d.put (cellBlk i) R.SRV_CMD (wd (uns 20 d.cells[i].cmd + d.cells[i].en.toNat * 2 ^ 20)) (cellIx i)
  else d

/-! The law (R161 to R164). -/

/-- Full scale in the loop's 2^-40 units. -/
def FS : Int := 2 ^ 40

/-- Saturation at ±4 FS (R163). -/
def sat4 (x : Int) : Int := clampI (-(4 * FS)) (4 * FS) x

/-- A notch stage: its output and whether it saturated (R161 stages 8 and 9, R163). -/
def notch (on_ : Bool) (b0 b1 b2 a1 a2 x : Int) (xs ys : Int × Int) : Int × Bool :=
  if on_ then
    let y := (b0 * x + b1 * xs.1 + b2 * xs.2 - a1 * ys.1 - a2 * ys.2) / 2 ^ 30
    (sat4 y, decide (sat4 y ≠ y))
  else (x, false)

/-- One evaluation of the law at a measured angle: the new cell, the error, whether the output clipped, whether a state
saturated. `ofs` and `test` are the step offset and the chirp of a tuning operation (R179). -/
def Dev.law (d : Dev) (i : Fin 256) (th : Int) (held : Bool) (ofs test : Int) : SCell × Int × Bool × Bool :=
  let c := d.cells[i]
  let k (r : Reg) (j : Nat := 0) : Int := d.coef i r j
  let lim := d.cliv i R.SRV_LIM
  let ilim : Int := (fld lim 31 16 : Nat) * 2 ^ 24
  let clim : Int := (fld lim 15 0 : Nat) * 2 ^ 24
  let cctl := d.cget i R.SRV_CCTL
  let prev := if c.first || c.recov then th else c.th1
  let e := c.sp + ofs - th
  let integ := if c.clipped || held then c.integ else clampI (-ilim) ilim (c.integ + k R.SRV_KI * e * 256)
  let uff := if bit cctl 3 then (k R.SRV_KV * c.spV + k R.SRV_KA * c.spA) * 256 else 0
  let raw := k R.SRV_KP * e * 256 + integ + k R.SRV_KD * (prev - th) * 256 + uff
  let x1 := sat4 raw
  let n1 := notch (bit cctl 1) (k R.SRV_N1_B0) (k R.SRV_N1 0) (k R.SRV_N1 1) (k R.SRV_N1 2) (k R.SRV_N1 3) x1 c.xa c.ya
  let n2 := notch (bit cctl 2) (k R.SRV_N2_B0) (k R.SRV_N2 0) (k R.SRV_N2 1) (k R.SRV_N2 2) (k R.SRV_N2 3) n1.1 c.xb c.yb
  let s := n2.1 + test
  let u := clampI (-clim) clim s
  let om := if c.st = 3 || c.first || c.recov then 0 else if held then c.om else th - prev
  ({ c with integ := integ, xa := (x1, c.xa.1), ya := (n1.1, c.ya.1), xb := (n1.1, c.xb.1), yb := (n2.1, c.yb.1),
            th2 := prev, th1 := th, om := om, u := u, cmd := rnd ((u : Rat) * 524287 / (FS : Rat)), en := true,
            clipped := decide (u ≠ s), first := false, recov := false },
   e, decide (u ≠ s), decide (x1 ≠ raw) || n1.2 || n2.2)

/-- The checks of following error and saturation (R164, R172, R173) after a tick. -/
def Dev.lawChecks (d : Dev) (i : Fin 256) (e : Int) (clip sat : Bool) : Dev :=
  let b := cellBlk i
  let c := d.cells[i]
  let ticks := d.cget i R.SRV_TICKS
  let max := (d.cget i R.SRV_FE_MAX).toNat
  let big : Bool := max ≠ 0 && (max * 256 : Nat) < e.natAbs
  let check : Bool := c.st = 1 || c.st = 4
  let feRun := if check then (if big then c.feRun + 1 else 0) else c.feRun
  let open_ : Bool := check && big && !c.feSaid && fld ticks 15 0 ≤ feRun
  let feSaid := if check then (if big then c.feSaid || open_ else false) else c.feSaid
  let satRun := if clip then c.satRun + 1 else 0
  let full : Bool := clip && !c.satSaid && 0 < fld ticks 31 16 && fld ticks 31 16 ≤ satRun
  let d1 := d.cellMod i fun c => { c with
    feRun := feRun, feSaid := feSaid, satRun := satRun, satSaid := clip && (c.satSaid || full) }
  let d2 := if isHead i then
      let w := setFld (setFld (d1.get b R.SRV_CSTAT (cellIx i)) 3 3 clip.toNat) 4 4 feSaid.toNat
      let d2 := ((d1.put b R.SRV_CSTAT w (cellIx i)).put b R.SRV_ERR (wi e) (cellIx i)).put b R.SRV_INTEG
        (wi (c.integ / 2 ^ 24)) (cellIx i)
      let d3 := d2.put b R.SRV_POS (wi c.th1) (cellIx i)
      if clip || sat then d3.bump b R.SRV_SATCNT 1 (cellIx i) else d3
    else d1
  let d3 := if open_ then d2.cellFault i 1 else d2
  if full then d3.cellFault i 2 else d3

/-! Words (R157 to R159, R305). -/

/-- One bit of the CRC-8 of R159. -/
def crc8Bit (c : BitVec 8) (b : Bool) : BitVec 8 :=
  if c.getLsbD 7 != b then (c <<< 1) ^^^ 0x2F#8 else c <<< 1

/-- CRC-8 over bits [39:0] of a word, most significant first (R159). -/
def crc8 (w : BitVec 48) : BitVec 8 :=
  ((List.range 40).foldl (fun c i => crc8Bit c (w.getLsbD (39 - i))) 0xFF#8) ^^^ 0xFF#8

/-- A drive word (R157). -/
def driveWord (cmd : Int) (en : Bool) (k : Nat) : BitVec 48 :=
  let w := BitVec.ofNat 48 (uns 20 cmd + en.toNat * 2 ^ 20 + k % 16 * 2 ^ 24)
  w ||| (crc8 w).zeroExtend 48 <<< 40

/-- Little-endian bytes of a 48-bit word. -/
def bytes48 (w : BitVec 48) : List Byte := leBytes 6 w.toNat

/-- The tick whose D(k) has come on a lane (R156). -/
def Dev.driveTick (d : Dev) (n : Fin 40) : Nat := (d.now * 5 + d.laneL n * 4) / 4000

/-- A DRIVE frame of tick `k` goes out on a lane (R156, R305). SLIP, the delay to the next block boundary in 0.125 ns, is open
within the length of a block of 66 bits (R306; log 31, DESIGN CHOICE). -/
def Dev.driveSend (d : Dev) (n : Fin 40) (k : Nat) (word : Fin 256 → BitVec 48) : Dev :=
  let slip := d.free.1.toNat % (132 / 2 ^ d.getF (laneB n) R.LANE_STAT 5 4)
  d.free.2.laneSend n 0 0 (leBytes 4 k ++ leBytes 4 slip ++ (d.laneCells n).flatMap fun i => bytes48 (word i))

/-- DRIVE_FRAME (R156, R305): the drive words of the tick whose D(k) has come. -/
def execDriveFrame (n : Fin 40) (s : State) : Host.Outcome State Fault Refusal :=
  onLive (fun d =>
    let k := d.driveTick n
    let cs := d.laneCells n
    let done : Bool := cs.any fun i => match d.cells[i].kSent with
      | some (j, _) => k ≤ j
      | none => false
    d.when (d.laneUp n && !done) fun d =>
      let d1 := d.driveSend n k fun i => driveWord d.cells[i].cmd d.cells[i].en k
      cs.foldl (fun (e : Dev) i => (e.cellMod i fun c => { c with
        kSent := some (k, e.now), samples := c.samples ++ [⟨k, e.now, none⟩] }).cmdShow i) d1) s

/-! Tuning (R178 to R182). -/

/-- A tuning operation ends; its cell returns to RUN at the next tick (R175 step 7, `Dev.cellBound`). -/
def Dev.tuneEnd (d : Dev) (k : Fin 8) : Dev :=
  match d.tunes[k] with
  | none => d
  | some t =>
    ({ d with tunes := d.tunes.set k none } : Dev).cellMod (Fin.ofNat 256 (24 * k.val + t.cell)) fun c => { c with tune := false }

/-- A tuning operation fails. -/
def Dev.tuneFail (d : Dev) (k : Fin 8) (err : Nat) : Dev :=
  match d.tunes[k] with
  | none => d
  | some _ => (d.opFail (blk .servo k.val) err).tuneEnd k

/-- A tuning operation of this cell fails. -/
def Dev.tuneCellFail (d : Dev) (i : Fin 256) (err : Nat) : Dev :=
  if isHead i ∧ d.cells[i].tune then d.tuneFail (Fin.ofNat 8 (i.val / 24)) err else d

/-- The operands of a tuning operation lie in the ranges of R184. -/
def Dev.tuneOperands (d : Dev) (b : Blk) : Bool :=
  let step := (d.getI b R.SRV_TUNE_STEP).natAbs
  let n := d.getF b R.SRV_TUNE_LEN 15 0
  let f0 := d.getN b R.SRV_TUNE_F0
  let f1 := d.getN b R.SRV_TUNE_F1
  let amp := d.getF b R.SRV_TUNE_AMP 15 0
  let ms := d.getF b R.SRV_TUNE_CHIRP 15 0
  let pts := d.getF b R.SRV_TUNE_PTS 8 0
  1 ≤ step && step ≤ 2 ^ 24 && 100 ≤ n && n ≤ 20000 && 10 ≤ f0 && f0 < f1 && f1 ≤ 250000 && 1 ≤ amp && amp ≤ 32768 &&
    1 ≤ ms && ms ≤ 1000 && 16 ≤ pts && pts ≤ 256

/-- Bytes of a tuning operation's results (R181). -/
def Dev.tuneSize (d : Dev) (b : Blk) : Nat := 0x40 + 16 * d.getF b R.SRV_TUNE_LEN 15 0 + 16 * d.getF b R.SRV_TUNE_PTS 8 0

/-- The address of the results. -/
def Dev.tuneAddr (d : Dev) (b : Blk) : Nat :=
  d.getF b R.SRV_TUNE_ADDR_LO 31 6 * 64 + d.getN b R.SRV_TUNE_ADDR_HI * 2 ^ 32

/-- A tuning operation begins to run, or fails its start checks (R178, R182). -/
def Dev.tuneBegin (d : Dev) (k : Fin 8) (param : Nat) : Dev :=
  let b := blk .servo k.val
  let c := param % 32
  if 24 ≤ c ∨ ¬ d.tuneOperands b then d.opFail b 6
  else
    let i := Fin.ofNat 256 (24 * k.val + c)
    if d.cells[i].st ≠ 1 ∨ d.heads[cellHead i].drf.st ≠ 0 then d.opFail b 0x80
    else if d.installed < d.tuneAddr b + d.tuneSize b then d.opFail b 0x84
    else
      (({ d with tunes := d.tunes.set k (some ⟨c, false, 0, [], (0, 0, 0), 0, 0, []⟩) } : Dev)).cellTune i

/-- The ticks of the chirp phase. -/
def Dev.chirpTicks (d : Dev) (b : Blk) : Nat := d.getF b R.SRV_TUNE_CHIRP 15 0 * 1000

/-- The logarithmic sweep of R179 at tick `n` of `N` from `f0` to `f1` Hz: a sine whose frequency at a time `t` of the duration
`T` is f0·(f1/f0)^(t/T); it begins at `turn` (log 30, DESIGN CHOICE). -/
def chirpAt (amp : Int) (f0 f1 n N : Nat) (turn : Word) : Int :=
  let l := lnFine (((f1 : Nat) : Rat) / ((f0 : Nat) : Rat))
  let r := ((n : Nat) : Rat) / ((N : Nat) : Rat)
  let turns := if l = 0 then 0 else ((f0 * N : Nat) : Rat) / 1000000 / l * (expFine (l * r) - 1)
  let q := turns + ((turn.toNat : Nat) : Rat) / (q32 : Rat)
  (((amp : Int) : Rat) * (sincos (2 * piQ * (q - ((q.floor : Int) : Rat)))).1).floor

/-- The tuning operation that works on a cell in this tick: its cell is in TUNE, or in HOLDOVER within it (R169 steps 1 and 2). -/
def Dev.tuneOf (d : Dev) (i : Fin 256) : Option Tune :=
  let c := d.cells[i]
  if isHead i ∧ (c.st = 4 ∨ c.st = 2) ∧ c.tune then d.tunes[Fin.ofNat 8 (i.val / 24)] else none

/-- What tuning adds to a cell's setpoint and at stage 10 in this tick (R179). -/
def Dev.tuneInputs (d : Dev) (i : Fin 256) : Int × Int :=
  match d.tuneOf i with
  | some t =>
    let b := blk .servo (i.val / 24)
    if ¬ t.chirp then (if t.ticks < d.getF b R.SRV_TUNE_LEN 15 0 then d.getI b R.SRV_TUNE_STEP else 0, 0)
    else if d.chirpTicks b ≤ t.ticks then (0, 0)
    else (0, chirpAt ((d.getF b R.SRV_TUNE_AMP 15 0 : Nat) * 2 ^ 24) (d.getN b R.SRV_TUNE_F0) (d.getN b R.SRV_TUNE_F1) t.ticks
      (d.chirpTicks b) t.turn)
  | none => (0, 0)

/-- Values that a unit measures and the spec gives no formula for, each a free one (log 2). -/
def Dev.measure : Nat → Dev → List Word × Dev
  | 0, d => ([], d)
  | n + 1, d =>
    let r := d.free.2.measure n
    (d.free.1 :: r.1, r.2)

/-- A frequency point is done (R179, R180): its values are measured and shown; the moments at which points are done divide the
sweep evenly (log 30, DESIGN CHOICE). -/
def Dev.tunePoint (d : Dev) (k : Fin 8) (t : Tune) : Dev :=
  let b := blk .servo k.val
  match d.measure 5 with
  | ([f, g, p, c, show_], d1) =>
    let n := t.pts.length + 1
    let m := d.getF b R.SRV_TUNE_PTS 8 0
    let d2 : Dev := { d1 with tunes := d1.tunes.set k (some { t with pts := (f, g, p, c) :: t.pts }) }
    (((d2.opPart b 0 (1 + n * 65536)).opPart b 4 f.toNat).opPart b 5 show_.toNat).opProg b (1024 + 3071 * n / max 1 m)
  | _ => d

/-- A tick of the tuning operation of a cell has been computed: it is recorded (R179). -/
def Dev.tuneTick (d : Dev) (i : Fin 256) (clip : Bool) : Dev :=
  match d.tuneOf i with
  | some t =>
    let k : Fin 8 := Fin.ofNat 8 (i.val / 24)
    let b := blk .servo k.val
    let n := 2 * d.getF b R.SRV_TUNE_LEN 15 0
    let N := d.chirpTicks b
    if t.chirp then
      if N ≤ t.ticks then d
      else
        let u := { t with ticks := t.ticks + 1, clips := t.clips + clip.toNat }
        let d1 : Dev := { d with tunes := d.tunes.set k (some u) }
        if t.pts.length < u.ticks * d.getF b R.SRV_TUNE_PTS 8 0 / max 1 N then d1.tunePoint k u else d1
    else if n ≤ t.ticks then d
    else
      let d1 : Dev := { d with tunes := d.tunes.set k (some { t with
        ticks := t.ticks + 1, rec_ := (d.cells[i].th1, d.cells[i].cmd) :: t.rec_ }) }
      d1.opProg b (1023 * (t.ticks + 1) / max 1 n)
  | none => d

/-- TUNING (R178): the host's start. -/
def execTuning (k : Fin 8) (tag : BitVec 8) (param : BitVec 12) (s : State) : Host.Outcome State Fault Refusal :=
  onLive (fun d => d.hostStart (blk .servo k.val) 1 tag.toNat param.toNat) s

/-- TUNING_CHIRP (R179, R180): the step phase has done its ticks; its results are measured and shown. -/
def execTuningChirp (k : Fin 8) (s : State) : Host.Outcome State Fault Refusal :=
  onLive (fun d =>
    let b := blk .servo k.val
    match d.tunes[k] with
    | some t =>
      d.when (d.opRunning b 1 && !t.chirp && 2 * d.getF b R.SRV_TUNE_LEN 15 0 ≤ t.ticks) fun d =>
        match d.measure 4 with
        | ([rise, above, settle, turn], d1) =>
          let d2 : Dev := { d1 with tunes := d1.tunes.set k (some { t with
            chirp := true, ticks := 0, res := (rise, above, settle), turn := turn }) }
          ((((d2.opPart b 0 1).opPart b 1 rise.toNat).opPart b 2 above.toNat).opPart b 3 settle.toNat).opProg b 1023
        | _ => d
    | none => d) s

/-- The results of a tuning operation (R181). -/
def tuneBytes (n m : Nat) (step : Word) (t : Tune) : List Byte :=
  let head := wordsBytes [0x5A540001#32, wd t.cell, wd n, wd m, t.res.1, t.res.2.1, t.res.2.2, step, 0, 0, 0, 0, 0, 0, 0, 0]
  let ticks := t.rec_.reverse.flatMap fun x => wordsBytes [wi x.1, wi x.2]
  let pts := t.pts.reverse.flatMap fun p => wordsBytes [p.1, p.2.1, p.2.2.1, p.2.2.2]
  head ++ ticks ++ pts

/-- TUNING_DONE (R179 to R182): the operation of block `k` on the cell named. -/
def execTuningDone (k : Fin 8) (cell : Fin 24) (s : State) : Host.Outcome State Fault Refusal :=
  onLiveMem (fun m d =>
    let b := blk .servo k.val
    match d.tunes[k] with
    | none => (m, d)
    | some t =>
      if ¬ d.opRunning b 1 ∨ t.cell ≠ cell.val ∨ ¬ t.chirp ∨ t.ticks < d.chirpTicks b then (m, d)
      else if d.chirpTicks b < t.clips * 100 then (m, d.tuneFail k 0x82)
      else
        let n := d.getF b R.SRV_TUNE_LEN 15 0
        let pts := d.getF b R.SRV_TUNE_PTS 8 0
        let bs := tuneBytes n pts (d.get b R.SRV_TUNE_STEP) t
        match d.sdWrite m (d.tuneAddr b) bs with
        | .error _ => (m, (d.sdMark b (d.tuneAddr b) bs.length).tuneFail k 0x84)
        | .ok m' =>
          (m', ((d.opPart b 0 (2 + pts * 65536)).opDone b).tuneEnd k)) s

/-- A layer starts on a head whose cell is being tuned (R182). -/
def Dev.tuneLayer (d : Dev) (h : Fin 32) : Dev :=
  let k : Fin 8 := Fin.ofNat 8 (h.val / 4)
  match d.tunes[k] with
  | some t => if (4 * k.val + t.cell / 6) = h.val then d.tuneFail k 0x83 else d
  | none => d

/-! Feedback (R166 to R171, R333). -/

/-- Stage 1 of R161: encoder counts to 2^-8 µrad; a machine spindle reads its position (R331). -/
def Dev.decodePos (d : Dev) (i : Fin 256) (pos : Int) : Int :=
  let ofs := if isHead i then sgn 24 (fld (d.cliv i R.SRV_FB_OFS) 23 0) else 0
  rnd (((pos - ofs) * d.coef i R.SRV_FB_GAIN : Int) / (2 ^ 24 : Rat))

/-- Counters of failed words: BADCNT, TRANSCNT, LASTCNT (R183, R357). -/
def Dev.badCount (d : Dev) (i : Fin 256) : Dev :=
  if isHead i then d.bump (cellBlk i) R.SRV_BADCNT 1 (cellIx i) else d.bump (cellBlk i) R.MSP_BADCNT 1 (cellIx i)

/-- See `Dev.badCount`. -/
def Dev.transCount (d : Dev) (i : Fin 256) : Dev :=
  if isHead i then d.bump (cellBlk i) R.SRV_TRANSCNT 1 (cellIx i) else d.bumpF (cellBlk i) R.MSP_MISC 15 0 1 (cellIx i)

/-- See `Dev.badCount`. -/
def Dev.lastCount (d : Dev) (i : Fin 256) : Dev :=
  if isHead i then d.bump (cellBlk i) R.SRV_LASTCNT 1 (cellIx i) else d.bumpF (cellBlk i) R.MSP_MISC 23 16 1 (cellIx i)

/-- The cell may leave OFF: enabled, its partner present (R175 step 1, R354, R355), and no step 10 in this tick (R176). -/
def Dev.mayRun (d : Dev) (i : Fin 256) : Bool :=
  bit (d.cget i R.SRV_CCTL) 0 && d.cells[i].held ≠ some d.tick && !(!isHead i && (d.webNamed (mspOf i) || d.msps[mspOf i].parked)) && (match cellLane i with
    | some n => d.present n
    | none => true)

/-- A cell enters RUN from OFF (R165); a machine spindle takes its position as setpoint and step target. -/
def Dev.enterRun (d : Dev) (i : Fin 256) (th : Int) : Dev :=
  let d1 := (d.cellMod i fun c => { c with
    integ := 0, xa := (0, 0), ya := (0, 0), xb := (0, 0), yb := (0, 0), th1 := th, th2 := th, om := 0, first := true,
    recov := false, clipped := false, sp := th, spV := 0, spA := 0, adopt := true }).cellState i 1
  if isHead i then d1
  else
    let p : Rat := ((d1.getI (cellBlk i) R.MSP_POS (cellIx i) : Int) : Rat)
    d1.mspMod (mspOf i) fun x => { x with set := p, q := p, left := 0, micro := 0, vel := 0, acc := 0, fresh := true }

/-- A judged sample takes its place in the classification (R169, R175, in the order of R176). -/
def Dev.classify (d : Dev) (i : Fin 256) (k : Nat) (good : Bool) : Dev :=
  let c := d.cells[i]
  match c.st with
  | 0 => if good && d.mayRun i then d.enterRun i (match c.newest with | some (_, th) => th | none => c.th1) else d
  | 2 =>
    if good then (d.cellState i (if c.tune then 4 else 1)).transCount i
    else
      let frozen := match c.kDone with
        | some j => if k ≤ j then c.th1 else c.th1 + c.om
        | none => c.th1 + c.om
      let d1 := (d.cellMod i fun x => { x with frozen := frozen, th1 := frozen, om := 0, goodRun := 0, out := none }).cellState i 3
      let d2 := ((d1.badCount i).lastCount i).cellFault i 0
      (d2.tuneCellFail i 0x81).mspLasting i
  | 3 =>
    if good then
      let n := c.goodRun + 1
      let need := if isHead i then d.getF (cellBlk i) R.SRV_BCTL 4 0 else d.getF (cellBlk i) R.MSP_BCTL 4 0
      if need ≤ n then (d.cellMod i fun x => { x with goodRun := 0, recov := true }).cellState i 1
      else d.cellMod i fun x => { x with goodRun := n }
    else (d.cellMod i fun x => { x with goodRun := 0 }).badCount i
  | 5 => d
  | _ => if good then d else (d.cellState i 2).badCount i

/-- Classify the judged samples at the front, in sample order (R169). -/
def classifyFront : Nat → Dev → Fin 256 → Dev
  | 0, d, _ => d
  | n + 1, d, i =>
    match d.cells[i].samples with
    | [] => d
    | x :: xs =>
      match x.good with
      | none => d
      | some g => classifyFront n ((d.cellMod i fun c => { c with samples := xs }).classify i x.k g) i

/-- Judge a sample, then classify what can be classified. -/
def Dev.judge (d : Dev) (i : Fin 256) (k : Nat) (good : Bool) : Dev :=
  let d1 := d.cellMod i fun c => { c with
    samples := c.samples.map fun x => if x.k = k ∧ x.good.isNone then { x with good := some good } else x }
  classifyFront d1.cells[i].samples.length d1 i

/-- The hold-over value goes to the Traveller when a word is found bad (R166, R168): the one of the tick of that sample, which may
lie one computation back. -/
def Dev.passHeld (d : Dev) (i : Fin 256) (k : Nat) : Dev :=
  let c := d.cells[i]
  let had : Bool := match c.out with
    | some (j, _, _) => k ≤ j
    | none => false
  if (c.st = 1 ∨ c.st = 2 ∨ c.st = 4) ∧ ¬ had then
    let th := if c.kDone = some k then c.th1 else if c.kDone = some (k + 1) then c.th2 else c.th1 + c.om
    d.cellMod i fun c => { c with out := some (k, th, c.om) }
  else d

/-- The amplifier's reports in a good word (R171), for bits [30:24] of the word. -/
def Dev.ampReports (d : Dev) (i : Fin 256) (bits seq : Nat) : Dev :=
  let c := d.cells[i]
  let rose (k : Nat) : Bool := bits / 2 ^ k % 2 = 1 && c.bits / 2 ^ k % 2 = 0
  let off := if bits % 2 = 0 ∧ c.en then c.ampOff + 1 else 0
  let d1 := d.cellMod i fun c => { c with bits := bits, seq := seq, ampOff := off }
  let d2 := if isHead i then
      d1.put (cellBlk i) R.SRV_CSTAT (setFld (setFld (d1.get (cellBlk i) R.SRV_CSTAT (cellIx i)) 14 8 bits) 19 16 seq)
        (cellIx i)
    else d1
  if rose 1 || rose 2 || rose 3 || off = 8 then d2.cellFault i 3 else d2

/-- What the Traveller gets of a sample; it never gets an older one after a newer. -/
def SCell.pass (c : SCell) (k : Nat) (th om : Int) : SCell :=
  match c.out with
  | some (j, _, _) => if k < j then c else { c with out := some (k, th, om) }
  | none => { c with out := some (k, th, om) }

/-- A good position of sample `k` (R166 to R168). A late one enters θm(k - 1) and ωm for the next computation, in LASTING only where
it ends that state; the word that enters RUN passes ωm 0 (R165, R169 step 5; log 30, DEDUCED). -/
def Dev.goodSample (d : Dev) (i : Fin 256) (k : Nat) (th : Int) (late : Bool) : Dev :=
  let c := d.cells[i]
  let done : Bool := c.kDone = some k
  let gone : Bool := c.kDone = some (k + 1)
  let prev := if done then c.th2 else if gone then c.th2 - c.om else c.th1
  let om := if c.st = 0 ∨ c.st = 3 ∨ c.first then 0 else th - prev
  let d1 := d.cellMod i fun c => { c with
    newest := (match c.newest with
      | some (j, v) => if j < k ∧ ¬ done ∧ ¬ gone then some (k, th) else some (j, v)
      | none => if done ∨ gone then none else some (k, th)) }
  let d2 := if late ∧ isHead i then d1.bump (cellBlk i) R.SRV_LATECNT 1 (cellIx i) else d1
  let d3 := d2.judge i k true
  let st := d3.cells[i].st
  let d4 := if st = 3 then d3
    else if done then d3.cellMod i fun c => { c with th1 := th, om := om }
    else if gone ∧ c.st ≠ 3 then d3.cellMod i fun c => { c with th2 := th }
    else d3
  if st = 1 ∨ st = 2 ∨ st = 4 then d4.cellMod i fun c => c.pass k th om else d4

/-- The outstanding sample that a word's SEQ names (R167). -/
def SCell.bySeq (c : SCell) (seq : Nat) : Option Samp := c.samples.find? fun x => x.good.isNone ∧ x.k % 16 = seq

/-- A word is bad: the sample of its frame's TICK is judged (R167; log 31, DEDUCED). -/
def Dev.badWord (d : Dev) (i : Fin 256) (tick : Word) : Dev :=
  match d.cells[i].samples.find? fun x => x.good.isNone ∧ wd x.k = tick with
  | none => d
  | some x => (d.judge i x.k false).passHeld i x.k

/-- FEEDBACK_TIMEOUT (R167): the word of the lane's spindle `j` has not come by D(k) + 2,000 ns. -/
def execFeedbackTimeout (n : Fin 40) (j : Fin 6) (s : State) : Host.Outcome State Fault Refusal :=
  onLive (fun d =>
    match (d.laneCells n)[j.val]? with
    | none => d
    | some i =>
      match d.cells[i].samples.find? fun x => x.good.isNone with
      | none => d
      | some x => d.when (d.pastNs x.sent 2000) fun d => (d.judge i x.k false).passHeld i x.k) s

/-! The control deadline (R168). -/

/-- One cell computes the drive word of tick k + 1 (R161, R168). -/
def Dev.cellTick (d : Dev) (i : Fin 256) (k : Nat) : Dev :=
  let c := d.cells[i]
  if ¬ runState c.st then d else
  let fresh : Option Int := match c.newest with
    | some (j, th) => if j = k ∧ c.st ≠ 3 then some th else none
    | none => none
  let held := fresh.isNone
  let th := match fresh with
    | some v => v
    | none => if c.st = 3 then c.frozen else c.th1 + c.om
  let t := d.tuneInputs i
  let x := d.law i th held t.1 t.2
  let d1 := d.cellMod i fun _ => { x.1 with kDone := some k }
  ((d1.lawChecks i x.2.1 x.2.2.1 x.2.2.2).tuneTick i x.2.2.1).takeDue i

/-- No setpoint of tick `k` reaches the cells of a head whose HEADCTL is out of service and sent none in that tick (R165;
log 31, DEDUCED). -/
def Dev.spMissing (d : Dev) (h : Fin 32) (i : Fin 256) (k : Nat) : Dev :=
  if d.up (blk .headctl h.val) ∨ d.heads[h].drf.tickAt = some k then d.cellMod i fun c => { c with spMiss := false }
  else if runState d.cells[i].st then
    let said := d.cells[i].spMiss
    let d1 := d.cellMod i fun c => { c with spV := 0, spA := 0, spMiss := true }
    if said then d1 else d1.cellFault i 4
  else d

/-- CONTROL_DEADLINE (R156, R168): D(k) + 880 ns of a head's last drive word. -/
def execControlDeadline (h : Fin 32) (s : State) : Host.Outcome State Fault Refusal :=
  onLive (fun d =>
    d.when (d.up (blk .servo (h.val / 4))) fun d =>
      (List.range 6).foldl (fun (e : Dev) r =>
        let i := headCell h r
        match e.cells[i].kSent with
        | none => e
        | some (k, t) => if e.cells[i].kDone ≠ some k ∧ e.pastNs t 880 then (e.spMissing h i k).cellTick i k else e) d) s

/-! Coefficients and states. -/

/-- The registers of a cell's shadow set (R177), with their counts. -/
def shadowRegs : List (Reg × Nat) :=
  [(R.SRV_KP, 1), (R.SRV_KI, 1), (R.SRV_KD, 1), (R.SRV_KV, 1), (R.SRV_KA, 1), (R.SRV_LIM, 1), (R.SRV_N1_B0, 1), (R.SRV_N1, 4),
   (R.SRV_N2_B0, 1), (R.SRV_N2, 4), (R.SRV_FB_GAIN, 1), (R.SRV_FB_OFS, 1)]

/-- A tick of a cell is in progress: its sample is in, or its computation starts in this cycle (R156, R176). -/
def Dev.midTick (d : Dev) (i : Fin 256) : Bool :=
  let c := d.cells[i]
  runState c.st && (match c.newest with
    | some (j, _) => c.kDone ≠ some j && c.kDone ≠ some (j + 1)
    | none => false) || (match c.kSent with
    | some (k, t) => runState c.st && c.kDone ≠ some k && d.pastNs t 880
    | none => false)

/-- A cell's shadow set goes live between two ticks (R177): within one, after its computation (R176). -/
def Dev.applyCell (d : Dev) (i : Fin 256) : Dev :=
  let set := shadowRegs.flatMap fun r => (List.range r.2).map fun j => (cellAdr i r.1 j, d.cget i r.1 j)
  let d1 := d.cellMod i fun c => { c with due := set }
  let d2 := if d1.midTick i then d1 else d1.takeDue i
  if isHead i then d2.putB (cellBlk i) R.SRV_CSTAT 5 false (cellIx i) else d2

/-- A write of SRV_APPLY or MSP_APPLY (R177, R358). -/
def Dev.applyWrite (d : Dev) (base n : Nat) (v : Word) : Dev :=
  (List.range n).foldl (fun (e : Dev) c => if bit v c then e.applyCell (Fin.ofNat 256 (base + c)) else e) d

/-- SRV_APPLY (R177). -/
def execSrvApply (k : Fin 8) (v : Word) (s : State) : Host.Outcome State Fault Refusal :=
  onLive (fun d => d.hostWrite (blk .servo k.val) 0xD04 fun e => e.applyWrite (24 * k.val) 24 v) s

/-- MSP_APPLY (R358). -/
def execMspApply (b : Fin 8) (v : Word) (s : State) : Host.Outcome State Fault Refusal :=
  onLive (fun d => d.hostWrite (blk .mspin b.val) 0x900 fun e => e.applyWrite (192 + 8 * b.val) 8 v) s

/-- A head cell goes to OFF or FENCED (R175 steps 8 and 10). -/
def Dev.headCellOut (d : Dev) (i : Fin 256) (st : Nat) : Dev :=
  if d.cells[i].st = 5 ∧ st = 0 then d
  else ((d.tuneCellFail i 0x80).cellMod i fun c => { c with
    samples := [], newest := none, kDone := none, held := some d.tick }).cellState i st

/-- SRV_LINK_LAT shows the latency of a head that is present (R184). -/
def Dev.linkLat (d : Dev) (h : Fin 32) : Dev :=
  d.put (blk .servo (h.val / 4)) R.SRV_LINK_LAT (if d.present (headLane h) then wd (d.laneL (headLane h)) else 0) (h.val % 4)

end Sys2Proof.Machine
end

