-- ==== Sys2Proof/Machine/Motion.lean ====
section
/-! DEFINITION. Machine spindles (R328 to R359): drive and feedback selection with its claims, decoders, speed, moves,
limits, homing, position compare, step input, and the feedback frames of R305 for all spindles (log 34, DEDUCED and DESIGN CHOICE, marked there). -/

namespace Sys2Proof.Machine

/-- A local spindle: it has a motion port (R328). -/
def isLocal (m : Fin 64) : Bool := m.val < 16

/-- The MPG block of a port. -/
def mpgB (m : Fin 64) : Blk := blk .mpg (m.val / 4)

/-- The decoders of a port run: the MPG block is not in reset (R354). -/
def Dev.mpgOn (d : Dev) (m : Fin 64) : Bool := !d.inReset (mpgB m)

/-- MSP_CFG.DRIVE. -/
def Dev.mdrive (d : Dev) (m : Fin 64) : Nat := fld (d.mget m R.MSP_CFG) 2 0

/-- MSP_CFG.FB. -/
def Dev.mfb (d : Dev) (m : Fin 64) : Nat := fld (d.mget m R.MSP_CFG) 5 4

/-- MSP_CFG.SRC is 1. -/
def Dev.mstepSrc (d : Dev) (m : Fin 64) : Bool := bit (d.mget m R.MSP_CFG) 6

/-- MSP_POS. -/
def Dev.mpos (d : Dev) (m : Fin 64) : Int := (d.mget m R.MSP_POS).toInt

/-- Set MSP_POS. -/
def Dev.setMpos (d : Dev) (m : Fin 64) (p : Int) : Dev := d.mput m R.MSP_POS (wi p)

/-- The block keeps state: it is not in reset. -/
def Dev.mlive (d : Dev) (m : Fin 64) : Bool := !d.inReset (mspB m)

/-! Speed (R338 to R340). -/

/-- Edges change the speed measurement: `n` counts at once in one direction. -/
def Dev.medges (d : Dev) (m : Fin 64) (n : Int) : Dev :=
  if n = 0 then d else
  let up := decide (0 < n)
  let d1 := d.mspMod m fun x =>
    let per : Option Nat := match x.edgeAt with
      | some (t, u) => if u = up then some ((d.now - t) / 4) else if n.natAbs = 1 then none else some 0
      | none => if n.natAbs = 1 then none else some 0
    { x with winEdges := x.winEdges + n.natAbs, winNet := x.winNet + n, edgeAt := some (d.now, up), period := per }
  d1.mstat m 5 false

/-- MSP_SPEED: 0 at standstill and until two edges in one direction; in count mode the last window's, in period mode
the reciprocal of the last period or of the time since the last edge, rounded toward 0 (log 34, DEDUCED). -/
def Dev.mspeed (d : Dev) (m : Fin 64) : Int :=
  let x := d.msps[m]
  match x.edgeAt, x.period with
  | some (t, up), some per =>
    if bit (d.mget m R.MSP_STAT) 6 then (d.mget m R.MSP_SPEED).toInt
    else
      let v : Int := ((200000000 / max 1 (max per ((d.now - t) / 4)) : Nat) : Int)
      if up then v else -v
  | _, _ => 0

/-- SPEED_WINDOW_END (R338, R339). -/
def execSpeedWindowEnd (m : Fin 64) (s : State) : Host.Outcome State Fault Refusal :=
  onLive (fun d =>
    let x := d.msps[m]
    let cfg := d.mget m R.MSP_SPD_CFG
    let win := max 1 (fld cfg 15 0)
    d.when (d.mlive m && d.past x.winStart win) fun d =>
      let count := bit (d.mget m R.MSP_STAT) 6
      let mode : Bool := d.mfb m = 2 || (if count then !decide (x.winEdges ≤ fld cfg 23 16) else
        decide (fld cfg 31 24 ≤ x.winEdges))
      ((d.mput m R.MSP_SPEED (wi ((x.winNet * 1000000).tdiv (win : Int)))).mstat m 6 mode).mspMod m fun x =>
        { x with winEdges := 0, winNet := 0, winStart := d.now }) s

/-- STANDSTILL (R340). -/
def execStandstill (m : Fin 64) (s : State) : Host.Outcome State Fault Refusal :=
  onLive (fun d =>
    match d.msps[m].edgeAt with
    | none => d
    | some (t, _) =>
      d.when (d.mlive m && d.past t (d.mget m R.MSP_STILL_US).toNat) fun d =>
        ((d.mspMod m fun x => { x with edgeAt := none, period := none }).mput m R.MSP_SPEED 0).mstat m 5 true) s

/-! Position compare (R349 to R351). -/

/-- A compare entry is reached: the position is at or beyond its value in its direction. -/
def Msp.reached (x : Msp) (e : Int × Nat × Bool) (pos : Int) : Bool :=
  let v := e.1 + x.ofs
  if e.2.1 = 1 then v ≤ pos else if e.2.1 = 2 then pos ≤ v else if x.below then v ≤ pos else pos ≤ v

/-- An entry becomes current: the side on which the position lies. -/
def Msp.current (x : Msp) (i : Nat) (pos : Int) : Msp :=
  match x.list[i]? with
  | some e => { x with below := decide (pos < e.1 + x.ofs) }
  | none => x

/-- The resource that MSP_CMP_CTL names (R353): its owner and index. -/
def cmpPin (v : Word) : Blk × Nat := (blk .mpg (fld v 7 4 / 4), 4 * (fld v 7 4 % 4) + fld v 9 8)

/-- A feature of a machine spindle as a claimant: 0 drive, 1 BiSS-C, 2 compare. -/
def mspSub (m : Fin 64) (k : Nat) : Nat := 4 * mspC m + k

/-- A pulse of the compare pin is under way (R351). -/
def Dev.pulsing (d : Dev) (m : Fin 64) : Bool :=
  match d.msps[m].pulseAt with
  | some t => !d.pastNs t (d.mget m R.MSP_CMP_PW).toNat
  | none => false

/-- A compare entry fires (R351): counted, a product trigger, and a pulse on the claimed pin. -/
def cmpFire (m : Mem) (d : Dev) (n : Fin 64) (pulse late : Bool) : Mem × Dev :=
  let d1 := d.bump (mspB n) R.MSP_CMP_CNT 1 (mspC n)
  let said := d1.msps[n].lateRun
  let d2 := if late then
      let e := (d1.bump (mspB n) R.MSP_CMP_LATE 1 (mspC n)).mspMod n fun x => { x with lateRun := true }
      if said then e else e.mfault n 9
    else d1
  let ctl := d2.mget n R.MSP_CMP_CTL
  let pin := cmpPin ctl
  let d3 := if pulse ∧ bit ctl 2 ∧ d2.holds pin.1 pin.2 (mspB n) (mspSub n 2) then
      (if d2.pulsing n then d2.bump (mspB n) R.MSP_CMP_MERGE 1 (mspC n) else d2).mspMod n fun x =>
        { x with pulseAt := some d.now }
    else d2
  webTriggers m d3 n.val (d3.mpos n)

/-- The entries reached at the present position fire in list order (R350, R351); `new` says that the current entry
became current just now. At most one pass of the list per sample (log 34, DEDUCED). -/
def cmpLoop : Nat → Mem → Dev → Fin 64 → Bool → Mem × Dev
  | 0, m, d, _, _ => (m, d)
  | f + 1, m, d, n, new =>
    let ctl := d.mget n R.MSP_CMP_CTL
    let idx := fld (d.mget n R.MSP_CMP_IDX) 9 0
    let x := d.msps[n]
    let pos := d.mpos n
    match x.list[idx]? with
    | none => (m, d)
    | some e =>
      if ¬ bit ctl 0 then (m, d)
      else if ¬ x.reached e pos then (m, if new then d.mspMod n fun x => { x with lateRun := false } else d)
      else
        let r := cmpFire m (if new then d else d.mspMod n fun x => { x with lateRun := false }) n e.2.2 new
        if idx + 1 < x.list.length then
          cmpLoop f r.1 ((r.2.putF (mspB n) R.MSP_CMP_IDX 9 0 (idx + 1) (mspC n)).mspMod n fun x => x.current (idx + 1) pos) n true
        else
          let d1 := r.2.bumpF (mspB n) R.MSP_CMP_IDX 31 16 1 (mspC n)
          if bit ctl 1 then
            let per := (d1.mget n R.MSP_CMP_PERIOD).toInt
            cmpLoop f r.1 ((d1.putF (mspB n) R.MSP_CMP_IDX 9 0 0 (mspC n)).mspMod n fun x =>
              ({ x with ofs := x.ofs + per } : Msp).current 0 pos) n true
          else (r.1, (d1.mput n R.MSP_CMP_CTL (setBit ctl 0 false)).mevent n 4)

/-- Position compare on one sample. -/
def cmpSample (m : Mem) (d : Dev) (n : Fin 64) : Mem × Dev := cmpLoop d.msps[n].list.length m d n false

/-- The position moves by counts: MSP_POS, speed and compare. -/
def posMove (m : Mem) (d : Dev) (n : Fin 64) (delta : Int) : Mem × Dev :=
  cmpSample m ((d.setMpos n (d.mpos n + delta)).medges n delta) n

/-! Limits and homing (R344 to R348). -/

/-- Homing reaches STOPPING with a latched position (R347 step 4). -/
def Dev.homeStop (d : Dev) (m : Fin 64) (pos : Int) : Dev :=
  ((d.mspMod m fun x => { x with home := x.home.map fun h => { h with latched := some pos } }).mput m R.MSP_HOME_STAT 3).mfall
    m false

/-- The limit's qualified level (R344 to R346, R348): a trip stops what moves toward it. -/
def Dev.limitEdge (d : Dev) (m : Fin 64) (pos act : Bool) : Dev :=
  let k := if pos then 8 else 7
  if bit (d.mget m R.MSP_STAT) k = act then d else
  let d1 := d.mstat m k act
  if ¬ act then d1.mspMod m fun x => if pos then { x with blockP := false } else { x with blockN := false }
  else
    let x := d1.msps[m]
    let toward : Bool := if pos then 0 < x.vel else x.vel < 0
    let quick : Bool := d1.getB (mspB m) R.MSP_STAT 11 (mspC m) && (match x.prof with
      | some p => p.kind = .fall
      | none => false)
    if ¬ toward ∨ quick then d1
    else
      let homing := x.home.isSome
      let en := bit (d1.mget m R.MSP_IN_CFG) 8
      let d2 := if homing then (d1.homeBad m 1).mfall m true else d1
      if en then
        let d3 := ((d2.mfall m true).mqueueDrop m).mstat m 11 true
        ((d3.mspMod m fun x => if pos then { x with blockP := true } else { x with blockN := true }).mevent m 3).mfault m 6
      else d2

/-- The home switch's qualified level (R344, R347 step 1). -/
def Dev.homeEdge (d : Dev) (m : Fin 64) (act : Bool) (pos : Int) : Dev :=
  if bit (d.mget m R.MSP_STAT) 9 = act then d else
  let d1 := d.mstat m 9 act
  if act ∧ d1.msps[m].home.isSome ∧ fld (d1.mget m R.MSP_HOME_STAT) 2 0 = 1 then
    let d2 := d1.mput m R.MSP_LATCH (wi pos)
    if fld (d2.mget m R.MSP_HOME_CFG) 1 0 = 0 then d2.homeStop m pos else d2.mput m R.MSP_HOME_STAT 2
  else d1

/-- A counted index edge (R335, R347 step 2). -/
def Dev.indexEdge (d : Dev) (m : Fin 64) (pos : Int) : Dev :=
  let d1 := d.mput m R.MSP_LATCH (wi pos)
  if d1.msps[m].home.isSome ∧ fld (d1.mget m R.MSP_HOME_STAT) 2 0 = 2 then d1.homeStop m pos else d1

/-- LIMIT_EDGE (R345). -/
def execLimitEdge (m : Fin 64) (positive act : Bool) (s : State) : Host.Outcome State Fault Refusal :=
  onLive (fun d => d.when (d.mlive m) fun d => d.limitEdge m positive act) s

/-- HOME_EDGE (R347). -/
def execHomeEdge (m : Fin 64) (act : Bool) (position : Int) (s : State) : Host.Outcome State Fault Refusal :=
  onLive (fun d => d.when (d.mlive m) fun d => d.homeEdge m act position) s

/-- INDEX_EDGE (R335): at a local spindle the decoder's position, at a remote one that of the word. -/
def execIndexEdge (m : Fin 64) (latched : Int) (s : State) : Host.Outcome State Fault Refusal :=
  onLive (fun d =>
    d.when (d.mlive m) fun d =>
      if isLocal m then
        let qual := bit (d.mget m R.MSP_IN_CFG) 12
        d.when (d.mfb m = 1 && (!qual || (d.msps[m].quad.1 && d.msps[m].quad.2))) fun d => d.indexEdge m (d.mpos m)
      else d.indexEdge m latched) s

/-! Moves (R341 to R343). -/

/-- MSP_EVT.TARGET_REF. -/
def Dev.targetRef (d : Dev) (m : Fin 64) : Dev := d.mevent m 6

/-- A write of MSP_TARGET (R341, R345). -/
def Dev.mtarget (d : Dev) (m : Fin 64) (v : Word) : Dev :=
  let x := d.msps[m]
  let t := v.toInt
  let from_ : Rat := match x.queue.getLast?, x.prof with
    | some q, _ => ((q : Int) : Rat)
    | none, some p => if p.kind = .move then ((p.target : Int) : Rat) else x.set
    | none, none => x.set
  let toward : Bool := (x.blockP && decide (from_ < ((t : Int) : Rat))) || (x.blockN && decide (((t : Int) : Rat) < from_))
  if d.mstepSrc m then d
  else if 4 ≤ x.queue.length ∨ toward then d.targetRef m
  else ((d.mspMod m fun x => { x with queue := x.queue ++ [t] }).putF (mspB m) R.MSP_STAT 19 16 (x.queue.length + 1)
    (mspC m)).mstat m 11 false

/-- MSP_TARGET (R341). -/
def execMspTarget (m : Fin 64) (v : Word) (s : State) : Host.Outcome State Fault Refusal :=
  onLive (fun d => d.hostWrite (mspB m) (0x170 + 0x100 * mspC m) fun e => e.mtarget m v) s

/-- The profile registers of R342, in the order of their offsets. -/
def profRegs : List Reg := [R.MSP_VS, R.MSP_VB, R.MSP_VM, R.MSP_VE, R.MSP_A1, R.MSP_A2, R.MSP_D1, R.MSP_D2, R.MSP_QSTOP]

/-- A write of a profile register (R342). -/
def Dev.mprofWrite (d : Dev) (m : Fin 64) (i : Nat) (v : Word) : Dev :=
  match profRegs[i]? with
  | none => d
  | some r =>
    let w := d.msps[m].profWas
    let d0 := if (w.map fun x => x.1) = some d.now then d else
      d.mspMod m fun x => { x with profWas := some (d.now, profRegs.map fun r => d.mget m r) }
    let d1 := d0.mput m r v
    let g (r : Reg) : Nat := (d1.mget m r).toNat
    let order : Bool := g R.MSP_VS ≤ g R.MSP_VB && g R.MSP_VB ≤ g R.MSP_VM && g R.MSP_VE ≤ g R.MSP_VB
    if ¬ order ∨ (4 ≤ i ∧ v = 0) then d.targetRef m else d1.mstat m 10 true

/-- MSP_PROFILE_WRITE (R342). -/
def execMspProfileWrite (m : Fin 64) (i : Fin 9) (v : Word) (s : State) : Host.Outcome State Fault Refusal :=
  onLive (fun d => d.hostWrite (mspB m) (0x174 + 4 * i.val + 0x100 * mspC m) fun e => e.mprofWrite m i.val v) s

/-- The latched profile values apply at a move start; those written in its own cycle wait for the next one (R342). -/
def Dev.mtake (d : Dev) (m : Fin 64) : Dev :=
  match d.msps[m].profWas with
  | some (t, ws) =>
    if t = d.now then (profRegs.zip ws).foldl (fun (e : Dev) x => e.setLiv (mspB m) x.1 x.2 (mspC m)) d
    else (profRegs.foldl (fun (e : Dev) r => e.setLiv (mspB m) r (e.mget m r) (mspC m)) d).mstat m 10 false
  | none => (profRegs.foldl (fun (e : Dev) r => e.setLiv (mspB m) r (e.mget m r) (mspC m)) d).mstat m 10 false

/-- A queued move starts (R341). -/
def Dev.mstart (d : Dev) (m : Fin 64) : Dev :=
  match d.msps[m].queue with
  | [] => d
  | t :: ts =>
    let d1 := d.mtake m
    let f := d1.mprof m
    let x := d1.msps[m]
    let len := ((t : Int) : Rat) - x.set
    let ps := if len = 0 then [] else (plan f f.vM (1 / 1000000) f.vS f.vE (rabs len)).1
    (d1.mspMod m fun x => { x with queue := ts, prof := some ⟨.move, x.set, if len < 0 then -1 else 1, ps, 0, t⟩ }).putF
      (mspB m) R.MSP_STAT 19 16 ts.length (mspC m)

/-- Homing is done (R347 step 5): positions now count from the latched edge. -/
def Dev.homeDone (d : Dev) (m : Fin 64) (latched : Int) : Dev :=
  let old := d.mpos m
  let ofs := (d.mget m R.MSP_HOME_OFS).toInt
  let shift := ofs - latched
  let r : Rat := ((shift : Int) : Rat)
  let d1 := (d.setMpos m (old + shift)).mspMod m fun x =>
    { x with home := none, set := x.set + r, q := x.q + r, steps := x.steps + shift }
  let th := d1.decodePos (mspI m) (d1.mpos m) - d1.decodePos (mspI m) old
  let d2 := d1.cellMod (mspI m) fun c => { c with
    tune := false, th1 := c.th1 + th, th2 := c.th2 + th, newest := c.newest.map fun x => (x.1, x.2 + th) }
  ((d2.mstat m 3 true).mput m R.MSP_HOME_STAT 4).mevent m 1

/-- The setpoint advances by `left` µs along the profile, into the next queued move (R331, R341; exact stops, R105). -/
def madvance : Nat → Dev → Fin 64 → Rat → Dev
  | 0, d, _, _ => d
  | f + 1, d, m, left =>
    let x := d.msps[m]
    match x.prof with
    | some p =>
      let total := phasesTime p.phases
      let at_ := phaseAt p.phases (p.t + left)
      let s : Rat := ((p.sign : Int) : Rat)
      if p.t + left < total then
        d.mspMod m fun x => { x with
          set := p.start + s * at_.1, vel := s * at_.2.1, acc := s * at_.2.2, prof := some { p with t := p.t + left } }
      else
        let end_ := if p.kind = .move then ((p.target : Int) : Rat) else p.start + s * at_.1
        let d1 := d.mspMod m fun x => { x with set := end_, vel := 0, acc := 0, prof := none }
        match x.home with
        | some ⟨_, some l⟩ => d1.homeDone m l
        | _ => madvance f d1 m (p.t + left - total)
    | none =>
      if x.queue.isEmpty || x.home.isSome || !(d.mst m = 1 || d.mst m = 4) then
        d.mspMod m fun x => { x with vel := 0, acc := 0 }
      else madvance f (d.mstart m) m left

/-- The setpoint follows the step input (R352): 256 microsteps spread evenly over P. -/
def Dev.stepAdvance (d : Dev) (m : Fin 64) : Dev :=
  let x := d.msps[m]
  match x.stepAt, x.stepPer with
  | some (t, _), some per =>
    let left := 256 - min 256 (256 * (d.now - t) / max 1 per)
    let set := x.q - x.micro * (left : Rat) / 256
    let vel := if left = 0 then 0 else x.micro * 800 / (max 1 per : Nat)
    d.mspMod m fun x => { x with left := left, set := set, vel := vel, acc := 0 }
  | _, _ => d

/-- MSP_SETP and MOVING. -/
def Dev.msetShow (d : Dev) (m : Fin 64) : Dev :=
  let x := d.msps[m]
  (d.mput m R.MSP_SETP (wi x.set.floor)).mstat m 4 (x.prof.isSome || x.left ≠ 0)

/-- The search has gone too far (R347 step 3). -/
def Dev.homeRange (d : Dev) (m : Fin 64) : Dev :=
  match d.msps[m].home with
  | some ⟨start, none⟩ =>
    if (((d.mget m R.MSP_HOME_MAX).toNat : Nat) : Rat) < rabs (d.msps[m].set - ((start : Int) : Rat)) then
      (d.homeBad m 2).mfall m false
    else d
  | _ => d

/-- With DRIVE 1 one step is sent per whole count of the setpoint; without feedback they are the position (R330, R331). -/
def stepOut (m : Mem) (d : Dev) (n : Fin 64) : Mem × Dev :=
  if d.mdrive n ≠ 1 then (m, d)
  else
    let now := d.msps[n].set.floor
    let delta := now - d.msps[n].steps
    let d1 := d.mspMod n fun x => { x with steps := now }
    if d.mfb n = 0 ∧ delta ≠ 0 then cmpSample m (d1.setMpos n (d1.mpos n + delta)) n else (m, d1)

/-- The measured angle of a local spindle at a tick: its position, or with BiSS-C the last frame's, extrapolated with the
last speed (R336); none where the last frame failed. -/
def Dev.mtheta (d : Dev) (m : Fin 64) (k : Nat) : Option Int :=
  if d.mfb m = 2 then
    match d.cells[mspI m].st, d.cells[mspI m].newest with
    | 2, _ => none
    | 3, _ => none
    | _, some (j, th) => some (th + d.decodePos (mspI m) (d.mspeed m * ((k - j : Nat) : Int)) / 1000000)
    | _, none => none
  else some (d.decodePos (mspI m) (d.mpos m))

/-- The law of a machine spindle in one tick (R331). -/
def Dev.mlaw (d : Dev) (m : Fin 64) (k : Nat) : Dev :=
  let i := mspI m
  let x := d.msps[m]
  let d1 := d.cellMod i fun c => { c with
    sp := rnd (x.set * 256), spV := rnd (x.vel * 65536), spA := rnd (x.acc * 16777216) }
  let dr := d.mdrive m
  if dr < 2 then d1.cellMod i fun c => { c with kDone := some k, en := runState c.st }
  else if isLocal m then
    let was := d1.cells[i].newest
    let th := d1.mtheta m k
    let d2 := d1.cellMod i fun c => { c with newest := th.map fun v => (k, v) }
    (d2.cellTick i k).cellMod i fun c => { c with newest := was, kDone := some k }
  else d1.cellTick i k

/-- The tick that a machine spindle's cell computes now: a local one at the servo tick, a remote one from the control
deadline of its drive word on (R168, R333). -/
def Dev.mtickNo (d : Dev) (m : Fin 64) : Option Nat :=
  let c := d.cells[mspI m]
  if isLocal m then (if c.kDone = some d.tick then none else some d.tick)
  else match c.kSent with
    | some (k, t) => if c.kDone ≠ some k ∧ d.pastNs t 880 then some k else none
    | none => none

/-- One servo tick of a machine spindle; where it changes MSP_POS the position compare of a local one runs (R351). -/
def motionTick (m : Mem) (d : Dev) (n : Fin 64) : Mem × Dev :=
  let i := mspI n
  match d.mtickNo n with
  | none => (m, d)
  | some k =>
    if ¬ d.mlive n then (m, d)
    else
      let d1 := if isLocal n ∧ d.cells[i].st = 0 ∧ d.mfb n ≠ 2 ∧ d.mayRun i then
          (d.enterRun i (d.decodePos i (d.mpos n))).mspMod n fun x => { x with steps := x.set.floor }
        else d
      if ¬ runState (d1.cells[i].st) then (m, d1.cellMod i fun c => { c with kDone := some k })
      else
        let d2 := if d1.mstepSrc n then d1.stepAdvance n else madvance 6 d1 n 1
        let r := stepOut m (d2.homeRange n) n
        let x := if r.2.mpos n = d1.mpos n ∨ ¬ isLocal n then r else cmpSample r.1 r.2 n
        (x.1, (x.2.msetShow n).mlaw n k)

/-- MOTION_TICK (R331). -/
def execMotionTick (m : Fin 64) (s : State) : Host.Outcome State Fault Refusal := onLiveMem (fun x d => motionTick x d m) s

/-- MSP_CMD.HOME (R347, R348). -/
def Dev.mhome (d : Dev) (m : Fin 64) : Dev :=
  let x := d.msps[m]
  let meth := fld (d.mget m R.MSP_HOME_CFG) 1 0
  if d.mst m ≠ 1 ∨ x.prof.isSome ∨ ¬ x.queue.isEmpty then
    let d1 := d.homeBad m 7
    if x.home.isSome then d1.mfall m false else d1
  else if meth ≠ 0 ∧ isLocal m ∧ d.mfb m ≠ 1 then d.homeBad m 6
  else
    let d1 := d.mtake m
    let f := d1.mprof m
    let spd : Rat := (((d.mget m R.MSP_HOME_SPD).toNat : Nat) : Rat) / 1000000
    let ps := risePhases f f.vS spd ++ [⟨spd, 0, 1000000000000, spd * 1000000000000⟩]
    let sign : Int := if bit (d.mget m R.MSP_HOME_CFG) 2 then -1 else 1
    let d2 := d1.mspMod m fun x => { x with
      home := some ⟨d.mpos m, none⟩, prof := some ⟨.search, x.set, sign, ps, 0, 0⟩ }
    (d2.mput m R.MSP_HOME_STAT (if meth = 2 then 2 else 1)).cellTune (mspI m)

/-- MSP_CMD.STOP and QSTOP (R341, R343, R348 reason 5). -/
def Dev.mstop (d : Dev) (m : Fin 64) (quick : Bool) : Dev :=
  let x := d.msps[m]
  let falling : Bool := match x.prof with
    | some p => p.kind = .fall
    | none => false
  let d1 := d.mqueueDrop m
  let d2 := if x.home.isSome then d1.homeBad m 5 else d1
  if falling && !quick then d2 else d2.mfall m quick

/-- A write of MSP_CMD. -/
def Dev.mcmd (d : Dev) (m : Fin 64) (v : Word) : Dev :=
  let d1 := if bit v 2 then d.mstop m true else if bit v 1 then d.mstop m false else d
  if bit v 0 then d1.mhome m else d1

/-- The offset of MSP_CMD. -/
def mcmdOfs (m : Fin 64) : Nat := 0x160 + 0x100 * mspC m

/-- HOME (R347). -/
def execHome (m : Fin 64) (s : State) : Host.Outcome State Fault Refusal :=
  onLive (fun d => d.hostWrite (mspB m) (mcmdOfs m) fun e => e.mcmd m 1) s

/-- STOP (R343). -/
def execStop (m : Fin 64) (s : State) : Host.Outcome State Fault Refusal :=
  onLive (fun d => d.hostWrite (mspB m) (mcmdOfs m) fun e => e.mcmd m 2) s

/-- QSTOP (R343). -/
def execQstop (m : Fin 64) (s : State) : Host.Outcome State Fault Refusal :=
  onLive (fun d => d.hostWrite (mspB m) (mcmdOfs m) fun e => e.mcmd m 4) s

/-! Decoders (R334 to R337). -/

/-- A port as a spindle. -/
def portM (p : Fin 16) : Fin 64 := ⟨p.val, by omega⟩

/-- Filtered levels of a port (MPG_IN). -/
def Dev.portIn (d : Dev) (p : Fin 16) (hi lo n : Nat) : Dev := d.putF (mpgB (portM p)) R.MPG_IN hi lo n (p.val % 4)

/-- A decoder error: counted, and its fault raised at the first and then at most once per millisecond (R335, R337). -/
def Dev.decodeErr (d : Dev) (m : Fin 64) (hall : Bool) : Dev :=
  let x := d.msps[m]
  let last := if hall then x.herrAt else x.qerrAt
  let due : Bool := match last with
    | some t => d.past t 1000
    | none => true
  let d1 := d.bump (mspB m) (if hall then R.MSP_HERR else R.MSP_QERR) 1 (mspC m)
  if due then
    (d1.mspMod m fun x => if hall then { x with herrAt := some d.now } else { x with qerrAt := some d.now }).mfault m
      (if hall then 5 else 4)
  else d1

/-- Which of the four phases of the quadrature signal: A leads B upward (log 34, PRESUMED). -/
def quadPhase (a b : Bool) : Nat := if a then (if b then 2 else 1) else (if b then 3 else 0)

/-- MPG_POL of a port: bit p inverts OUTp, bits 8 to 12 HALL_A, HALL_B, HALL_C, ENC_A and ENC_B (R359). -/
def Dev.portPol (d : Dev) (p : Fin 16) : Word := d.get (mpgB (portM p)) R.MPG_POL (p.val % 4)

/-- The levels of ENC_A and ENC_B reach the quadrature unit (R335). -/
def quadIn (m : Mem) (d : Dev) (p : Fin 16) (a b : Bool) : Mem × Dev :=
  let n := portM p
  let was := d.msps[n].quad
  let d1 := (d.portIn p 4 3 (a.toNat + 2 * b.toNat)).mspMod n fun x => { x with quad := (a, b) }
  if d.mfb n ≠ 1 ∨ ¬ d.mlive n then (m, d1)
  else match (quadPhase a b + 4 - quadPhase was.1 was.2) % 4 with
    | 0 => (m, d1)
    | 1 => posMove m d1 n 1
    | 3 => posMove m d1 n (-1)
    | _ => (m, d1.decodeErr n false)

/-- QUADRATURE_EDGE (R335): filtered levels of the pins, which MPG_POL may invert. -/
def execQuadratureEdge (p : Fin 16) (a b : Bool) (s : State) : Host.Outcome State Fault Refusal :=
  onLiveMem (fun m d =>
    if ¬ d.mpgOn (portM p) then (m, d) else quadIn m d p (a != bit (d.portPol p) 11) (b != bit (d.portPol p) 12)) s

/-- The place of a hall code in the forward order 1, 3, 2, 6, 4, 5; none for 0 and 7 (R337). -/
def hallPlace (h : Nat) : Option Nat := [1, 3, 2, 6, 4, 5].findIdx? fun x => x = h

/-- The hall step from one code to another: a count, or none for an error. -/
def hallStep (a b : Nat) : Option Int :=
  match hallPlace a, hallPlace b with
  | some i, some j =>
    if (i + 1) % 6 = j then some 1 else if (j + 1) % 6 = i then some (-1) else none
  | _, _ => none

/-- A hall code reaches the decoder (R337). -/
def hallIn (m : Mem) (d : Dev) (p : Fin 16) (h : Nat) : Mem × Dev :=
  let n := portM p
  if d.msps[n].hall = h then (m, d)
  else
    let step := hallStep d.msps[n].hall h
    let d1 := (d.portIn p 2 0 h).mspMod n fun x => { x with hall := h }
    if ¬ d.mlive n then (m, d1)
    else
      let d2 := d1.putF (mspB n) R.MSP_STAT 14 12 h (mspC n)
      match step with
      | none => (m, d2.decodeErr n true)
      | some c => if d.mfb n = 3 then posMove m d2 n c else (m, d2)

/-- HALL_CHANGE (R337): the code of the pins, which MPG_POL may invert. -/
def execHallChange (p : Fin 16) (code : BitVec 3) (s : State) : Host.Outcome State Fault Refusal :=
  onLiveMem (fun m d =>
    if ¬ d.mpgOn (portM p) then (m, d) else hallIn m d p (code ^^^ (d.portPol p).extractLsb' 8 3).toNat) s

/-- A write of MPG_POL changes the levels that the decoders see (R359). -/
def polChange (m : Mem) (d : Dev) (p : Fin 16) (was : Word) : Mem × Dev :=
  let x := was ^^^ d.portPol p
  let n := portM p
  let q := d.msps[n].quad
  let r := if bit x 11 ∨ bit x 12 then quadIn m d p (q.1 != bit x 11) (q.2 != bit x 12) else (m, d)
  hallIn r.1 r.2 p (BitVec.ofNat 3 r.2.msps[n].hall ^^^ x.extractLsb' 8 3).toNat

/-- STEP_INPUT (R352): a rising STEP edge, and the pin level of ENC_B, which MPG_POL may invert. -/
def execStepInput (p : Fin 16) (dirHigh : Bool) (s : State) : Host.Outcome State Fault Refusal :=
  onLive (fun d =>
    let n := portM p
    d.when (d.mpgOn n && d.mlive n && d.mstepSrc n) fun d =>
      let dirHigh := dirHigh != bit (d.portPol p) 12
      let x := (d.stepAdvance n).msps[n]
      let cfg := d.mget n R.MSP_STEPIN
      let size : Rat := ((fld cfg 15 0 : Nat) : Rat)
      let t0 := fld cfg 31 16 * 800
      let still := (d.mget n R.MSP_STILL_US).toNat
      let per : Nat := match x.stepAt with
        | some (t, u) => if u = dirHigh ∧ ¬ d.past t still then d.now - t else t0
        | none => t0
      let step := if dirHigh then size else -size
      let d1 := if x.left = 0 then d else d.bumpF (mspB n) R.MSP_MISC 31 24 1 (mspC n)
      d1.mspMod n fun y => { y with
        set := y.q, q := y.q + step, micro := step, left := 256, stepAt := some (d.now, dirHigh), stepPer := some per }) s

/-! BiSS-C and feedback frames (R332, R333, R336). -/

/-- A good BiSS-C position enters MSP_POS (R336): the low 32 bits, absolute at the frame
that lets the cell enter RUN and at the first one after a recovery (log 34, DEDUCED), else by difference. -/
def bissPos (m : Mem) (d : Dev) (n : Fin 64) (bits pos : Nat) : Mem × Dev :=
  let x := d.msps[n]
  let p := pos % 2 ^ bits
  let abs := bit (d.mget n R.MSP_IN_CFG) 13
  let st := d.cells[mspI n].st
  let d1 := d.mspMod n fun y => { y with raw := some (p : Int) }
  if abs ∧ (st = 0 ∨ (x.fresh ∧ st ≠ 3)) then
    cmpSample m (((d1.mspMod n fun y => { y with fresh := false }).setMpos n
      (sgn 32 (p % 2 ^ 32) + (d.mget n R.MSP_HOME_OFS).toInt)).mstat n 3 true) n
  else match x.raw with
    | none => (m, d1)
    | some r => posMove m d1 n (sgn bits (uns bits ((p : Int) - r)))

/-- BISS_FRAME (R333, R336). -/
def execBissFrame (p : Fin 16) (f : BissFrame) (s : State) : Host.Outcome State Fault Refusal :=
  onLiveMem (fun m d =>
    let n := portM p
    if ¬ d.mpgOn n ∨ ¬ d.mlive n ∨ d.mfb n ≠ 2 then (m, d)
    else
      let b := (fld (d.mget n R.MSP_CFG) 7 7)
      if ¬ (f.startOk && f.crcOk && f.nE) then
        let d1 := d.bumpF (mpgB n) R.MPG_BISS_STAT 31 16 1 b
        (m, d1.classify (mspI n) d.tick false)
      else
        let r := bissPos m d n (d.getF (mpgB n) R.MPG_BISS 5 0 b) f.pos
        let i := mspI n
        let d1 := r.2.cellMod i fun c => { c with newest := some (d.tick, r.2.decodePos i (r.2.mpos n)) }
        let d2 := d1.classify i d.tick true
        let d3 := if ¬ f.nW ∧ ¬ d.msps[n].bissBad then d2.mfault n 3 else d2
        (r.1, d3.mspMod n fun x => { x with
          bissBad := !f.nW, fresh := x.fresh && r.2.cells[i].st ≠ 0 })) s

/-- The raw levels of a module's limit and home inputs are qualified (R332, R344). -/
def Dev.modLevel (d : Dev) (m : Fin 64) (j : Fin 3) (level : Bool) : Dev :=
  let cfg := d.mget m R.MSP_IN_CFG
  let act := level != bit cfg (9 + j.val)
  let run := d.msps[m].raws[j]
  let new : Bool × Nat × Int := if run.1 = act ∧ 0 < run.2.1 then (act, min 256 (run.2.1 + 1), run.2.2) else (act, 1, d.mpos m)
  let d1 := d.mspMod m fun x => { x with raws := x.raws.set j new }
  if new.2.1 < max 1 (fld cfg 7 0) then d1
  else if j = 2 then d1.homeEdge m act new.2.2 else d1.limitEdge m (j = 1) act

/-- What a good word adds at a remote spindle (R332): position, compare, limits, home, index. -/
def modWord (m : Mem) (d : Dev) (n : Fin 64) (w : BitVec 48) : Mem × Dev :=
  let v := w.toNat
  let p := sgn 24 (v % 2 ^ 24)
  let x := d.msps[n]
  let d0 := d.mspMod n fun y => { y with raw := some p }
  let r : Mem × Dev := match x.raw with
    | none => (m, d0)
    | some q => posMove m d0 n (sgn 24 (uns 24 (p - q)))
  let d1 := ((r.2.modLevel n 0 (w.getLsbD 28)).modLevel n 1 (w.getLsbD 29)).modLevel n 2 (w.getLsbD 30)
  (r.1, if w.getLsbD 36 then d1.indexEdge n (d1.mpos n) else d1)

/-- One feedback word (R158, R167): bad, or a good or late sample. -/
def fbWord (m : Mem) (d : Dev) (i : Fin 256) (tick : Word) (w : BitVec 48) : Mem × Dev :=
  let v := w.toNat
  let seq := v / 2 ^ 32 % 16
  let ok : Bool := (crc8 w).toNat = v / 2 ^ 40 && !w.getLsbD 31
  match ok, d.cells[i].bySeq seq with
  | true, some x =>
    if x.sent * 5 + 8000 < d.now * 5 then (m, (d.judge i x.k false).passHeld i x.k)
    else
      let late := d.pastNs x.sent 880 && !(x.sent * 5 + 3520 = d.now * 5)
      let r : Mem × Dev := if isHead i then (m, d) else modWord m d (mspOf i) w
      let pos := if isHead i then sgn 24 (v % 2 ^ 24) else r.2.mpos (mspOf i)
      let d1 := (r.2.goodSample i x.k (r.2.decodePos i pos) late).ampReports i (v / 2 ^ 24 % 128) seq
      (r.1, d1)
  | _, _ => (m, d.badWord i tick)

/-- FEEDBACK_FRAME (R167, R305). -/
def execFeedbackFrame (n : Fin 40) (f : FbFrame) (s : State) : Host.Outcome State Fault Refusal :=
  onLiveMem (fun m d =>
    if ¬ d.laneUp n then (m, d)
    else if d.lanes[n].fbTicks.any (fun t => t.1 = f.tick && d.tick < t.2 + 256) then (m, d.creditViol n)
    else
      let d1 := d.laneMod n fun l => { l with
        fbTicks := (f.tick, d.tick) :: l.fbTicks.filter fun t => d.tick < t.2 + 256 }
      ((d1.laneCells n).zip f.words).foldl (fun (x : Mem × Dev) c =>
        if x.2.inReset (cellBlk c.1) then x else fbWord x.1 (x.2.reached (cellBlk c.1) (some (cellIx c.1))) c.1 f.tick c.2) (m, d1)) s

/-! Selection and claims (R330, R353, R354). -/

/-- A refusal (R293). -/
def Dev.mrefuse (d : Dev) (m : Fin 64) (code : Nat) (h : Blk) (ix : Nat) : Dev :=
  (d.mput m R.MSP_CLAIM_ERR (claimWord code h ix)).mevent m 5

/-- The combinations of R330. -/
def cfgOk (m : Fin 64) (v : Word) : Bool :=
  let dr := fld v 2 0
  let fb := fld v 5 4
  let src := bit v 6
  let here := isLocal m
  (!src || (here && (fb = 0 || fb = 3))) &&
    (match dr with
      | 0 => true
      | 1 => here && fb ≠ 3
      | 2 => here && fb ≠ 0
      | 3 => here && fb ≠ 0
      | 4 => !here && fb = 0
      | _ => false)

/-- The resources that a configuration claims (R330, R353), with the feature that claims them. -/
def cfgWants (m : Fin 64) (v : Word) : List (Nat × Nat) :=
  let p := 4 * (m.val % 4)
  let drive := match fld v 2 0 with
    | 1 => [p, p + 1, p + 3]
    | 2 => [p, p + 1, p + 2, p + 3]
    | 3 => [p, p + 1, p + 3]
    | _ => []
  drive.map (fun i => (i, 0)) ++ (if isLocal m ∧ fld v 5 4 = 2 then [(p + 2, 1), (16 + fld v 7 7, 1)] else [])

/-- What a write of `v` to page offset `o` of a block claims (R292, R294, R353). -/
def Dev.writeClaims (d : Dev) (b : Blk) (o : Nat) (v : Word) : List Rival :=
  if ¬ d.up b then []
  else match blkKind b with
    | some (.light, _) =>
      if 0x100 ≤ o ∧ o < 0x200 ∧ o % 0x40 = 0 then
        let i := Fin.ofNat 4 ((o - 0x100) / 0x40)
        let p := lgtPin i (R.LGT_CFG.write (d.get light R.LGT_CFG i.val) v)
        [(p.1, p.2, b)]
      else []
    | some (.mspin, k) =>
      let m := Fin.ofNat 64 (8 * k + (o - 0x100) / 0x100)
      if 0x100 ≤ o ∧ o < 0x900 ∧ o % 0x100 = 0x58 ∧ cfgOk m (v &&& R.MSP_CFG.mask) then
        (cfgWants m (v &&& R.MSP_CFG.mask)).map fun x => (mpgB m, x.1, b)
      else if 0x100 ≤ o ∧ o < 0x900 ∧ o % 0x100 = 0xBC ∧ bit v 0 ∧ bit v 2 then
        let p := cmpPin (v &&& R.MSP_CMP_CTL.mask)
        [(p.1, p.2, b)]
      else []
    | _ => []

/-- What a command claims. -/
def Dev.cmdClaims (d : Dev) : Instr → List Rival
  | .lgtCfg i v => d.writeClaims light (0x100 + 0x40 * i.val) v
  | .mspCfg m v => d.writeClaims (mspB m) (0x158 + 0x100 * mspC m) v
  | .compareEnable m v => d.writeClaims (mspB m) (0x1BC + 0x100 * mspC m) v
  | .registerWrite a v => d.writeClaims ⟨Fin.ofNat 16 (a.toNat / 0x100000), Fin.ofNat 64 (a.toNat % 0x100000 / 0x1000)⟩ (a.toNat % 0x1000) v
  | _ => []

/-- The claims that the commands of this cycle still bring: every waiting command is of this cycle (log 1). -/
def State.rivals (s : State) : List Rival := s.pending.flatMap s.dev.cmdClaims

/-- Claim resources one after the other; the first refusal ends it. -/
def Dev.claimAll (d : Dev) (m : Fin 64) (rv : List Rival) : List (Nat × Nat) → Except (Nat × Blk × Nat) Dev
  | [] => .ok d
  | (ix, k) :: t =>
    match d.claimErr (mpgB m) ix (mspB m) (mspSub m k) rv with
    | some (code, h) => .error (code, h, ix)
    | none => (d.claim (mpgB m) ix (mspB m) (mspSub m k)).claimAll m rv t

/-- A write of MSP_CFG (R330, R354). -/
def Dev.mcfg (d : Dev) (m : Fin 64) (v0 : Word) (rv : List Rival := []) : Dev :=
  let v := v0 &&& R.MSP_CFG.mask
  if ¬ cfgOk m v ∨ (fld v 2 0 ≠ 0 ∧ d.webNamed m) then d.mrefuse m 2 ⟨0, 0⟩ 0
  else
    let d1 := (d.release (mpgB m) (mspB m) (mspSub m 0) none).release (mpgB m) (mspB m) (mspSub m 1) none
    match d1.claimAll m rv (cfgWants m v) with
    | .error (code, h, ix) => d.mrefuse m code h ix
    | .ok d2 =>
      let d3 := d2.mput m R.MSP_CFG v
      if fld v 5 4 = 2 then d3.mstat m 6 true else d3

/-- MSP_CFG (R330). -/
def execMspCfg (m : Fin 64) (v : Word) (s : State) : Host.Outcome State Fault Refusal :=
  onLive (fun d => d.hostWrite (mspB m) (0x158 + 0x100 * mspC m) fun e => e.mcfg m v s.rivals) s

/-- A machine spindle's cell goes to OFF or FENCED (R355, R356). -/
def Dev.mspOut (d : Dev) (m : Fin 64) (st : Nat) : Dev :=
  let i := mspI m
  if d.cells[i].st = 5 ∧ st = 0 then d
  else (d.cellMod i fun c => { c with samples := [], newest := none, kDone := none, held := some d.tick }).cellState i st

/-- A web-mode skein takes the drive of the spindles it names (R354). -/
def Dev.webForce (d : Dev) : Dev :=
  (List.finRange 64).foldl (fun (e : Dev) m =>
    if e.webNamed m then
      let cfg := e.mget m R.MSP_CFG
      let e1 := if fld cfg 2 0 = 0 then e else
        (e.release (mpgB m) (mspB m) (mspSub m 0) none).mput m R.MSP_CFG (setFld cfg 2 0 0)
      e1.mspOut m 0
    else e) d

/-- The cell's SRV_CCTL or MSP_CCTL is written (R175 steps 1 and 10). -/
def Dev.cctlWrite (d : Dev) (i : Fin 256) (v : Word) : Dev :=
  let d1 := d.rput (cellAdr i R.SRV_CCTL) (v &&& 0xF#32)
  if bit v 0 then (if isHead i then d1 else d1.mspMod (mspOf i) fun x => { x with parked := false }) else if isHead i then d1.headCellOut i 0 else d1.mspOut (mspOf i) 0

/-- The cell of a name. -/
def cellOf : CellId → Fin 256
  | .servo i => ⟨i.val, by omega⟩
  | .msp m => mspI m

/-- CELL_ENABLE (R175). -/
def execCellEnable (c : CellId) (v : Word) (s : State) : Host.Outcome State Fault Refusal :=
  onLive (fun d =>
    let i := cellOf c
    d.hostWrite (cellBlk i) (cellAdr i R.SRV_CCTL - badr (cellBlk i) 0) fun e => e.cctlWrite i v) s

/-- A write of MSP_CMP_CTL (R350, R353). -/
def cmpCtl (m : Mem) (d : Dev) (n : Fin 64) (v0 : Word) (rv : List Rival := []) : Mem × Dev :=
  let v := v0 &&& R.MSP_CMP_CTL.mask
  let was := d.mget n R.MSP_CMP_CTL
  let pin := cmpPin v
  let wants := bit v 0 && bit v 2
  let by_ := mspB n
  let sub := mspSub n 2
  let free (d : Dev) (but : Option (Blk × Nat)) : Dev :=
    { d with claims := d.claims.filter fun c => ¬ (c.by_ = by_ ∧ c.sub = sub ∧ some (c.owner, c.ix) ≠ but) }
  let err := if wants then d.claimErr pin.1 pin.2 by_ sub rv else none
  match err with
  | some (code, h) => (m, d.mrefuse n code h pin.2)
  | none =>
    let d1 := if wants then (free d (some pin)).claim pin.1 pin.2 by_ sub else
      (free d none).mspMod n fun x => { x with pulseAt := none }
    let d2 := d1.mput n R.MSP_CMP_CTL v
    if bit v 0 ∧ ¬ bit was 0 then
      let d3 := (d2.putF (mspB n) R.MSP_CMP_IDX 9 0 0 (mspC n)).mspMod n fun x =>
        ({ x with ofs := 0, lateRun := false } : Msp).current 0 (d2.mpos n)
      cmpLoop d3.msps[n].list.length m d3 n true
    else (m, d2)

/-- COMPARE_ENABLE (R350). -/
def execCompareEnable (n : Fin 64) (v : Word) (s : State) : Host.Outcome State Fault Refusal :=
  onLiveMem (fun m d => hostWriteMem m d (mspB n) (0x1BC + 0x100 * mspC n) fun x e => cmpCtl x e n v s.rivals) s

/-- COMPARE_PULSE_END (R351). -/
def execComparePulseEnd (m : Fin 64) (s : State) : Host.Outcome State Fault Refusal :=
  onLive (fun d =>
    d.when (d.msps[m].pulseAt.isSome && !d.pulsing m) fun d => d.mspMod m fun x => { x with pulseAt := none }) s

/-- The spindle whose list CMP_LOAD loads. -/
def cmpSpindle (b : Fin 8) (param : Nat) : Fin 64 := Fin.ofNat 64 (8 * b.val + param % 8)

/-- CMP_LOAD begins to run, or fails its start checks (R349). -/
def Dev.cmpBegin (d : Dev) (b : Fin 8) (param : Nat) : Dev :=
  let n := cmpSpindle b param
  let len := fld (d.mget n R.MSP_CMP_LEN) 10 0
  if len = 0 ∨ 1024 < len then d.opFail (mspB n) 6
  else if bit (d.mget n R.MSP_CMP_CTL) 0 then d.opFail (mspB n) 0x80
  else d

/-- CMP_LOAD (R349): the host's start. -/
def execCmpLoad (b : Fin 8) (tag : BitVec 8) (param : BitVec 12) (s : State) : Host.Outcome State Fault Refusal :=
  onLive (fun d => d.hostStart (blk .mspin b.val) 1 tag.toNat param.toNat) s

/-- The entries of a compare list in SDRAM. -/
def cmpEntries : List Word → List (Int × Nat × Bool)
  | p :: f :: t => (p.toInt, fld f 1 0, bit f 2) :: cmpEntries t
  | _ => []

/-- CMP_LOAD_DONE (R349): the list is copied, or a poisoned or unreadable read (0x07) or an entry with DIR 3 fails it. -/
def execCmpLoadDone (b : Fin 8) (s : State) : Host.Outcome State Fault Refusal :=
  onLiveMem (fun m d =>
    let bk := blk .mspin b.val
    match d.op bk with
    | none => (m, d)
    | some o =>
      if ¬ d.opRunning bk 1 then (m, d)
      else
        let n := cmpSpindle b o.param
        let len := fld (d.mget n R.MSP_CMP_LEN) 10 0
        match d.sdRead m (d.addr2 bk R.MSP_CMP_ADDR_LO R.MSP_CMP_ADDR_HI (mspC n)) (8 * len) with
        | .error _ =>
          (m, (d.sdMark bk (d.addr2 bk R.MSP_CMP_ADDR_LO R.MSP_CMP_ADDR_HI (mspC n)) (8 * len)).opFail bk 7)
        | .ok bs =>
          let es := cmpEntries (bytesWords bs)
          if es.any fun e => e.2.1 = 3 then (m, d.opFail bk 0x81)
          else (m, (d.mspMod n fun x => { x with list := es }).opDone bk)) s

/-! Departure (R355). -/

/-- A drive module departs: its cells go to OFF, and AXIS_LOST is raised for each that was not. -/
def Dev.modDepart (d : Dev) (n : Fin 40) : Dev :=
  if n.val < 32 then d else
  (List.range 6).foldl (fun (e : Dev) r =>
    let m := Fin.ofNat 64 (16 + 6 * (n.val - 32) + r)
    let was := e.mst m
    let e1 := ((e.mqueueDrop m).mspOut m 0).mstat m 3 false
    let e2 := e1.mspMod m fun x => { x with raw := none }
    if was = 0 then e2 else e2.mfault m 8) d

/-- A drive module arrives: its cells stay OFF until EN 1 is written (R355). -/
def Dev.modArrive (d : Dev) (n : Fin 40) : Dev :=
  if n.val < 32 then d else
  (List.range 6).foldl (fun (e : Dev) r => e.mspMod (Fin.ofNat 64 (16 + 6 * (n.val - 32) + r)) fun x => { x with parked := true }) d

end Sys2Proof.Machine
end

