-- ==== Sys2Proof/Machine/Ply.lean ====
section
/-! DEFINITION. The ply arbiter (R186 to R219): zones, items and their eligibility, costs and grants, plume and boxes, the
token, and the plan check. -/

namespace Sys2Proof.Machine

/-- PLYARB. -/
def plyB : Blk := blk .plyarb 0

/-- The agent of a head. -/
def agtB (h : Fin 32) : Blk := blk .plyagt (h.val / 4)

/-- Change the arbiter. -/
def Dev.plyMod (d : Dev) (f : Ply → Ply) : Dev := { d with ply := f d.ply }

/-- Change a head at the arbiter. -/
def Dev.phMod (d : Dev) (h : Fin 32) (f : PHead → PHead) : Dev :=
  d.plyMod fun p => { p with heads := vmod p.heads h f }

/-- A bit of PLY_EVT (R218). -/
def Dev.plyEvent (d : Dev) (k : Nat) : Dev := d.event plyB R.PLY_EVT R.PLY_EVT_EN (wd (2 ^ k)) 56

/-- Counters of an agent (R219). -/
def Dev.agtBump (d : Dev) (h : Fin 32) (r : Reg) (n : Nat := 1) : Dev := d.bump (agtB h) r n (h.val % 4)

/-- The head runs in the layer: present at its start and not lost. -/
def Dev.headRuns (d : Dev) (h : Fin 32) : Bool := d.rep.present.getLsbD h.val && !d.rep.lost.getLsbD h.val

/-! Zones. -/

/-- A point on an edge of a polygon. -/
def onEdge (x y : Int) (p q : Int × Int) : Bool :=
  (q.1 - p.1) * (y - p.2) - (q.2 - p.2) * (x - p.1) = 0 && min p.1 q.1 ≤ x && x ≤ max p.1 q.1 && min p.2 q.2 ≤ y &&
    y ≤ max p.2 q.2

/-- Does an edge cross the ray from a point toward +X? -/
def crosses (x y : Int) (p q : Int × Int) : Bool :=
  if decide (y < p.2) = decide (y < q.2) then false
  else
    let c := (q.1 - p.1) * (y - p.2) - (x - p.1) * (q.2 - p.2)
    if p.2 < q.2 then 0 < c else c < 0

/-- A point lies in a zone: even-odd rule, edges inside (R187). -/
def Zone.has (z : Zone) (x y : Int) : Bool :=
  let es := z.pts.zip (z.pts.drop 1 ++ z.pts.take 1)
  es.any (fun e => onEdge x y e.1 e.2) || (es.filter fun e => crosses x y e.1 e.2).length % 2 = 1

/-- A zone record of 128 bytes (R187). -/
def zoneOf (ws : List Word) : Zone :=
  let n := fld (ws.getD 1 0) 3 0
  ⟨ws.getD 0 0, (List.range n).map fun v => ((ws.getD (4 + 2 * v) 0).toInt, (ws.getD (5 + 2 * v) 0).toInt)⟩

/-- Two bits at least are set. -/
def twoBits (w : Word) : Bool := w &&& (w - 1) ≠ 0

/-- The plan check of R188: zones and estimates, none where it fails. -/
def Dev.planRead (d : Dev) (m : Mem) (a : Nat) : Option (List Zone × Vector Nat 32) :=
  match d.sdRead m a 1024 with
  | .error _ => none
  | .ok hb =>
    let hw := bytesWords hb
    let n := fld (hw.getD 2 0) 8 0
    if hw.getD 0 0 ≠ 0x5A500001#32 ∨ fld (hw.getD 1 0) 15 0 ≠ 1 ∨ n = 0 ∨ 256 < n then none
    else match d.sdRead m (a + 1024) (128 * n) with
      | .error _ => none
      | .ok zb =>
        let zw := bytesWords zb
        let recs := (List.range n).map fun z => (zw.drop (32 * z)).take 32
        let ok := recs.all fun r => let v := fld (r.getD 1 0) 3 0; 3 ≤ v && v ≤ 12 && twoBits (r.getD 0 0)
        if ¬ ok ∨ crc32 (hb.take 0x3FC ++ zb) ≠ hw.getD 0xFF 0 then none
        else some (recs.map zoneOf, Vector.ofFn fun (i : Fin 32) => (hw.getD (0x40 + i.val) 0).toNat)

/-! Items. -/

/-- A 32-byte pool record, none where it cannot be read. -/
def Dev.poolRec (d : Dev) (m : Mem) (ix : Nat) : Option (List Word) :=
  match d.running with
  | none => none
  | some k => match d.sdRead m (k.poolAddr + 32 * ix) 32 with
    | .ok bs => some (bytesWords bs)
    | .error _ => none

/-- Records of the pool. -/
def Dev.poolLen (d : Dev) : Nat :=
  match d.running with
  | some k => k.poolRecs
  | none => 0

/-- A word of a record, signed. -/
def rword (r : List Word) (i : Nat) : Int := (r.getD i 0).toInt

/-- KIND of a record (R64). -/
def rkind (r : List Word) : Nat := fld (r.getD 0 0) 3 0

/-- COUNT of a record. -/
def rcount (r : List Word) : Nat := fld (r.getD 0 0) 23 16

/-- The first vertex of a record. -/
def rfirst (r : List Word) : Int × Int := if rkind r = 3 then (rword r 4, rword r 5) else (rword r 2, rword r 3)

/-- SWEEP in radians; a magnitude of 6,283,185 is a full circle (R67). -/
def sweepRad (n : Int) : Rat :=
  if n.natAbs = 6283185 then (if 0 < n then 2 * piQ else -(2 * piQ)) else (n : Rat) / 1000000

/-- The radius vector of an arc record, and its end. -/
def arcEnd (r : List Word) : Int × Int :=
  let ux : Rat := ((rword r 2 - rword r 4 : Int) : Rat)
  let uy : Rat := ((rword r 3 - rword r 5 : Int) : Rat)
  let sc := sincos (sweepRad (rword r 6))
  (rword r 4 + rnd (ux * sc.2 - uy * sc.1), rword r 5 + rnd (ux * sc.1 + uy * sc.2))

/-- Vertices of a continuation record. -/
def contPts (r : List Word) : List (Int × Int) :=
  ([(rword r 2, rword r 3), (rword r 4, rword r 5), (rword r 6, rword r 7)]).take (rcount r)

/-- The final vertex of a record. -/
def rlast (r : List Word) : Int × Int :=
  match rkind r with
  | 2 => arcEnd r
  | 4 => (rword r 2, rword r 3)
  | 6 => (contPts r).getLastD (rword r 2, rword r 3)
  | _ => (rword r 4, rword r 5)

/-- Distance of two points in nm. -/
def ptDist (p q : Int × Int) : Rat := vlen (((p.1 - q.1 : Int) : Rat)) (((p.2 - q.2 : Int) : Rat))

/-- Length of the first segment of a record. -/
def firstSeg (r : List Word) : Rat :=
  if rkind r = 2 then
    ptDist (rword r 2, rword r 3) (rword r 4, rword r 5) * rabs (sweepRad (rword r 6))
  else if rkind r ≤ 1 then ptDist (rword r 2, rword r 3) (rword r 4, rword r 5)
  else 0

/-- Length of the last segment of an item's final record; `before` is the record ahead of it. -/
def lastSeg (before r : List Word) : Rat :=
  if rkind r = 6 then
    let ps := rlast before :: contPts r
    match ps.reverse with
    | a :: b :: _ => ptDist a b
    | _ => 0
  else firstSeg r

/-- The header fields of an item (R68). -/
def hNvec (r : List Word) : Nat := fld (r.getD 3 0) 19 8

/-- STITCH_LEN. -/
def hStitch (r : List Word) : Nat := (r.getD 4 0).toNat

/-- SPLIT_GROUP. -/
def hGroup (r : List Word) : Nat := fld (r.getD 5 0) 15 0

/-- A header that R69 rejects. -/
def Dev.badHeader (d : Dev) (ix : Nat) (r : List Word) : Bool :=
  rkind r ≠ 7 || hNvec r = 0 || r.getD 2 0 = 0 || d.poolLen < ix + 1 + hNvec r

/-- Records that go by with the one at a pool index when it stands where a header is due (R69, R189). -/
def Dev.itemLen (d : Dev) (ix : Nat) (r : List Word) : Nat :=
  if rkind r ≠ 7 then 1 else min (d.poolLen - ix) (1 + hNvec r)

/-- The headers of a split group, wherever they stand in the pool, with their indices (R209). -/
def Dev.groupOf (d : Dev) (m : Mem) (g : Nat) : Nat → Nat → List (Nat × List Word)
  | 0, _ => []
  | f + 1, ix =>
    if d.poolLen ≤ ix then [] else
    match d.poolRec m ix with
    | some r =>
      let rest := d.groupOf m g f (ix + d.itemLen ix r)
      if rkind r = 7 ∧ hGroup r = g ∧ hStitch r ≠ 0 then (ix, r) :: rest else rest
    | none => d.groupOf m g f (ix + 1)

/-- A split group is closed: first and final vertex lie within 1,000 nm (R209). -/
def Dev.groupClosed (d : Dev) (m : Mem) (l : List (Nat × List Word)) : Bool :=
  match l, l.getLast? with
  | f :: _, some z =>
    let a := (d.poolRec m (f.1 + 1)).getD []
    let b := (d.poolRec m (z.1 + hNvec z.2)).getD []
    decide (ptDist (rfirst a) (rlast b) ≤ 1000)
  | _, _ => false

/-- The members of a split group satisfy R209 and R210. -/
def Dev.groupOk (d : Dev) (m : Mem) (l : List (Nat × List Word)) : Bool :=
  let closed := d.groupClosed m l
  1 ≤ l.length && l.length ≤ 16 && ((l.zip (l.drop 1)).all fun e => e.2.1 = e.1.1 + 1 + hNvec e.1.2) &&
    (l.zipIdx).all fun x =>
      let r := x.1.2
      let n := hNvec r
      let st : Rat := (hStitch r : Nat)
      let a := (d.poolRec m (x.1.1 + 1)).getD []
      let b := (d.poolRec m (x.1.1 + n)).getD []
      let bb := (d.poolRec m (x.1.1 + n - 1)).getD []
      !d.badHeader x.1.1 r && hStitch r = hStitch (l.headD (0, [])).2 &&
        (!(x.2 > 0 || closed) || decide (st ≤ firstSeg a)) &&
        (!(x.2 + 1 < l.length || closed) || decide (st ≤ lastSeg bb b))
/-- Heads of a mask that run in the layer (R190). -/
def Dev.running_ (d : Dev) (w : Word) : Word := w &&& d.rep.present &&& ~~~d.rep.lost

/-- The arbiter lists pool records and counts them in PLY_UNEXEC. -/
def Dev.poolList (d : Dev) (id : Word) (reason head first count : Nat) : Dev :=
  (d.list id reason head true first count).bump plyB R.PLY_UNEXEC count

/-- PLY_STAT.POOL and the window's length. -/
def Dev.plyShow (d : Dev) : Dev :=
  let fin : Nat := if d.poolLen ≤ d.ply.next then 2 else 1
  (d.putF plyB R.PLY_STAT 1 0 fin).putF plyB R.PLY_STAT 26 16 d.ply.items.length

/-- The pool has been read to its end (R189). -/
def Dev.poolRead_ (d : Dev) : Bool := d.poolLen ≤ d.ply.next

/-- Move the pool pointer. -/
def Dev.poolNext (d : Dev) (ix : Nat) : Dev := (d.plyMod fun p => { p with next := ix }).plyShow

/-- A pool item enters the window (R189, R190): rejected, listed, or pending. Every member of a group that breaks R209 or R210 is
rejected when it enters. -/
def Dev.windowEntry (d : Dev) (m : Mem) : Dev :=
  let ix := d.ply.next
  match d.poolRec m ix with
  | none =>
    let a : Nat := match d.running with
      | some k => k.poolAddr + 32 * ix
      | none => 0
    ((d.sdMark plyB a 32).poolList 0 4 0xFF ix 1).poolNext (ix + 1)
  | some r =>
    let id := r.getD 1 0
    if d.badHeader ix r then
      let n := d.itemLen ix r
      (d.poolList id 4 0xFF ix n).poolNext (ix + n)
    else
      let n := hNvec r
      let next := ix + 1 + n
      let zone := fld (r.getD 3 0) 7 0
      let a := (d.poolRec m (ix + 1)).getD []
      let b := (d.poolRec m (ix + n)).getD []
      let z := d.ply.zones[zone]?
      let inside : Bool := match z with
        | some z => z.has (rfirst a).1 (rfirst a).2 && z.has (rlast b).1 (rlast b).2
        | none => false
      let split : Bool := hStitch r ≠ 0
      let g := if split then d.groupOf m (hGroup r) d.poolLen 0 else []
      let first : Bool := (g.head?.map (·.1)) = some ix
      let gEnd := match g.getLast? with
        | some x => x.1 + 1 + hNvec x.2
        | none => next
      if !inside || (split && !d.groupOk m g) then (d.poolList id 4 0xFF ix (1 + n)).poolNext next
      else
        let e := d.running_ (r.getD 2 0 &&& (match z with | some z => z.heads | none => 0))
        if e = 0 then (d.poolList id 3 0xFF ix (1 + n)).poolNext next
        else
          let st := hStitch r
          let closed := split && d.groupClosed m g
          let fi := if split && (!first || closed) then st else 0
          let fo := if split && (next < gEnd || closed) then st else 0
          let it : Item := ⟨ix, id, e, zone, ix + 1, n, gEnd, fi, fo, d.now, 0, none, false, [], (rfirst a).1, (rfirst a).2⟩
          (d.plyMod fun p => { p with items := p.items ++ [it] }).poolNext next

/-- ITEM_WINDOW_ENTRY (R189, R190). In web mode pool items are listed with reason 0x03 (R153). -/
def execItemWindowEntry (s : State) : Host.Outcome State Fault Refusal :=
  onLiveMem (fun m d =>
    if ¬ d.up plyB ∨ d.running.isNone ∨ d.poolRead_ ∨ 1024 ≤ d.ply.items.length then (m, d)
    else if d.webLayer then
      (m, (d.poolList ((d.poolRec m d.ply.next).getD []|>.getD 1 0) 3 0xFF d.ply.next (d.poolLen - d.ply.next)).poolNext
        d.poolLen)
    else (m, d.windowEntry m)) s

/-! Offers and grants. -/

/-- A zone is released (R191). -/
def Dev.zoneFree (d : Dev) (z : Nat) : Bool := d.webLayer || (d.poolRead_ && !d.ply.items.any fun x => x.zone = z)

/-- No pool work is left for a head (R193). -/
def Dev.poolOver (d : Dev) (h : Fin 32) : Bool :=
  d.webLayer || (d.poolRead_ && !d.ply.items.any fun x =>
    x.head = some h ∨ (x.head = none ∧ x.elig.getLsbD h.val))

/-- The item a head took last, until it is finished. -/
def Dev.itemOf (d : Dev) (h : Fin 32) : Option Item :=
  match d.ply.heads[h].item with
  | some ix => d.ply.items.find? fun x => x.ix = ix
  | none => none

/-- The item of a head that holds a pool record. -/
def Dev.itemAt (d : Dev) (h : Fin 32) (idx : Nat) : Option Item :=
  d.ply.items.find? fun x => x.head = some h ∧ x.start ≤ idx ∧ idx < x.start + x.nvec

/-- Records of a head's item are complete at its agent (R196); AGT_ITEM_REC shows those of the item taken last. -/
def Dev.agtDone (d : Dev) (h : Fin 32) (idx n : Nat) : Dev :=
  match d.itemAt h idx with
  | none => d
  | some i =>
    let d1 := d.phMod h fun x => { x with
      items := x.items.map fun y => if y.1 = i.ix then (y.1, y.2 ++ (List.range n).map fun j => idx + j) else y }
    if d.ply.heads[h].item = some i.ix then d1.bumpF (agtB h) R.AGT_ITEM_REC 11 0 n (h.val % 4) else d1

/-- The remaining time of a head [µs] (R194). -/
def Dev.rem (d : Dev) (h : Fin 32) : Rat :=
  let total := d.heads[h].drf.listLen
  let own : Rat := if total = 0 then 0 else (d.ply.est[h] : Rat) * ((total - d.heads[h].drf.ownDone : Nat) : Rat) / (total : Rat)
  let recs := (d.ply.items.filterMap fun x => if x.head = some h then some (x.nvec - x.done.length) else none).sum
  own + ((d.getF plyB R.PLY_VEC_US 15 0 * recs : Nat) : Rat)

/-- The cost of an item for a head [µs] (R194). -/
def Dev.cost (d : Dev) (h : Fin 32) (i : Item) : Rat :=
  let f := d.heads[h].drf
  let dist := vlen (f.endX - ((i.x : Int) : Rat)) (f.endY - ((i.y : Int) : Rat)) / 1000
  d.rem h + dist / ((max 1 (d.getN plyB R.PLY_JUMP_V) : Nat) : Rat) * 1000000

/-- An item's age has reached PLY_ITEM_AGE (R195). -/
def Dev.aged (d : Dev) (i : Item) : Bool := d.getN plyB R.PLY_ITEM_AGE * 800 ≤ i.age0 + (d.now - i.since)

/-- An item qualifies for an offer of a head (R195). -/
def Dev.qualifies (d : Dev) (h : Fin 32) (i : Item) : Bool :=
  i.head = none && i.elig.getLsbD h.val && i.gEnd ≤ d.ply.next &&
    (d.aged i || (List.finRange 32).all fun g =>
      g = h || !i.elig.getLsbD g.val || decide (d.cost h i ≤ d.cost g i + ((d.getN plyB R.PLY_MARGIN : Nat) : Rat)))

/-- Change one item of the window. -/
def Dev.itemMod (d : Dev) (ix : Nat) (f : Item → Item) : Dev :=
  d.plyMod fun p => { p with items := p.items.map fun x => if x.ix = ix then f x else x }

/-- The arbiter evaluates an offer made for own record `slot` (R195): at most one grant, on its way to the agent. -/
def Dev.offer (d : Dev) (h : Fin 32) (slot : Nat) : Dev :=
  match d.ply.items.find? fun i => d.qualifies h i with
  | none => d
  | some i =>
    ((d.itemMod i.ix fun x => { x with head := some h, begun := false, age0 := x.age0 + (d.now - x.since) }).phMod h fun x =>
      { x with grant := some (i.ix, slot) }).bump plyB R.PLY_GRANTS

/-- A granted item becomes pending again with its age kept (R197, R213). -/
def Dev.itemBack (d : Dev) (ix : Nat) : Dev := d.itemMod ix fun x => { x with head := none, begun := false, since := d.now }

/-- An item leaves the window. -/
def Dev.itemGone (d : Dev) (ix : Nat) : Dev :=
  (d.plyMod fun p => { p with items := p.items.filter fun x => x.ix ≠ ix }).plyShow

/-! Plume and boxes. -/

/-- A triangle and a rectangle have a point in common: no axis of their sides separates them. -/
def triRect (t : List (Rat × Rat)) (x0 y0 x1 y1 : Rat) : Bool :=
  let rect := [(x0, y0), (x1, y0), (x1, y1), (x0, y1)]
  let normals := [((1 : Rat), (0 : Rat)), (0, 1)] ++ (t.zip (t.drop 1 ++ t.take 1)).map fun e =>
    (e.2.2 - e.1.2, e.1.1 - e.2.1)
  normals.all fun n =>
    let pr (l : List (Rat × Rat)) : List Rat := l.map fun p => p.1 * n.1 + p.2 * n.2
    let lo (l : List Rat) : Rat := l.foldl (fun a b => if b < a then b else a) (l.headD 0)
    let hi (l : List Rat) : Rat := l.foldl (fun a b => if a < b then b else a) (l.headD 0)
    decide (lo (pr t) ≤ hi (pr rect)) && decide (lo (pr rect) ≤ hi (pr t))

/-- Some point of `b` lies in the plume of some point of `a` (R198, R200): the plume meets the difference of the boxes. -/
def Ply.plumeHits (p : Ply) (a b : PBox) : Bool :=
  let q (x : Int) : Rat := ((x : Int) : Rat)
  let w := p.dist * p.tanH
  let tip1 := (p.dist * p.gx - w * p.gy, p.dist * p.gy + w * p.gx)
  let tip2 := (p.dist * p.gx + w * p.gy, p.dist * p.gy - w * p.gx)
  triRect [(0, 0), tip1, tip2] (q (b.x0 - a.x1)) (q (b.y0 - a.y1)) (q (b.x1 - a.x0)) (q (b.y1 - a.y0))

/-- Two boxes of different heads conflict (R200). -/
def Ply.conflict (p : Ply) (a b : PBox) : Bool := p.plumeHits a b || p.plumeHits b a

/-- A box conflicts with a cleared box of another head. -/
def Ply.hitsBoxes (p : Ply) (h : Fin 32) (b : PBox) : Bool :=
  (List.finRange 32).any fun g => g ≠ h && p.heads[g].boxes.any fun x => p.conflict b x

/-- A box conflicts with the waiting request of another head. -/
def Ply.hitsReqs (p : Ply) (h : Fin 32) (b : PBox) : Bool :=
  (List.finRange 32).any fun g => g ≠ h && p.heads[g].req.any fun x => p.conflict b x.1

/-- A box conflicts with the request of the token's holder. -/
def Ply.hitsHolder (p : Ply) (h : Fin 32) (b : PBox) : Bool :=
  match p.token with
  | some g => g ≠ h && p.heads[g].req.any fun x => p.conflict b x.1
  | none => false

/-- The next waiting head after `h` in cyclic order; one whose count has reached 31 comes first (R206, R207). -/
def Ply.nextHolder (p : Ply) (h : Nat) : Option (Fin 32) :=
  let order := (List.range 32).map fun i => (Fin.ofNat 32 (h + 1 + i) : Fin 32)
  let waits := order.filter fun g => p.heads[g].req.isSome
  match waits.find? fun g => 31 ≤ p.heads[g].count with
  | some g => some g
  | none => waits.head?

/-- The token stays with a waiting head, moves on from one that no longer waits, or rests free. -/
def Dev.tokenMove (d : Dev) : Dev :=
  d.plyMod fun p =>
    match p.token with
    | some h => if p.heads[h].req.isSome then p else { p with token := p.nextHolder h.val, last := h.val }
    | none => { p with token := p.nextHolder p.last }

/-- A request is granted: its box is cleared. -/
def Dev.clear (d : Dev) (h : Fin 32) (b : PBox) : Dev :=
  d.phMod h fun x => { x with boxes := x.boxes ++ [b], req := none, count := 0 }

/-- A token grant (R206, R207): every other head in contention counts it. -/
def Dev.tokenGrant (d : Dev) (h : Fin 32) (b : PBox) : Dev :=
  let d1 := ((d.clear h b).bump plyB R.PLY_TOKEN_GR).plyMod fun p =>
    { p with heads := p.heads.map fun x => if x.req.isSome then { x with count := x.count + 1 } else x }
  let senior : Bool := d1.ply.heads.toList.any fun x => x.req.isSome ∧ x.count = 31
  (if senior then d1.plyEvent 5 else d1).tokenMove

/-- Token grants while the holder's request conflicts with no cleared box. -/
def tokenServe : Nat → Dev → Dev
  | 0, d => d
  | f + 1, d =>
    match d.ply.token with
    | none => d
    | some h =>
      match d.ply.heads[h].req with
      | none => d
      | some r => if d.ply.hitsBoxes h r.1 then d else tokenServe f (d.tokenGrant h r.1)

/-- Free grants to waiting requests that conflict with nothing, in order of request (R205). -/
def Dev.freeServe (d : Dev) : Dev :=
  let ws := (List.finRange 32).filterMap fun g => d.ply.heads[g].req.map fun r => (r.2, g)
  let ord := (ws.mergeSort fun a b => a.1 ≤ b.1).map (·.2)
  (ord.foldl (fun (e : Dev) h =>
    match e.ply.heads[h].req with
    | none => e
    | some r =>
      if e.ply.hitsBoxes h r.1 ∨ e.ply.hitsReqs h r.1 then e
      else ((e.clear h r.1).bump plyB R.PLY_FREE_GR)) d).tokenMove

/-- Grants after boxes or requests have gone (R206, R208). -/
def Dev.plyServe (d : Dev) : Dev := (tokenServe 64 d.tokenMove).freeServe

/-- A clearance request (R205): granted free, or in contention. -/
def Dev.request (d : Dev) (h : Fin 32) (b : PBox) : Dev :=
  if d.ply.hitsBoxes h b ∨ d.ply.hitsReqs h b then
    (d.phMod h fun x => { x with req := some (b, d.now), count := 0 }).tokenMove
  else (d.clear h b).bump plyB R.PLY_FREE_GR

/-- A waiting request is withdrawn (R206, R212). -/
def Dev.withdraw (d : Dev) (h : Fin 32) : Dev := d.phMod h fun x => { x with req := none, count := 0 }

/-- The box of a run is cleared. -/
def Dev.cleared (d : Dev) (h : Fin 32) (run : Nat) : Bool := d.ply.heads[h].boxes.any fun b => b.run = run

/-- Runs need clearance (R199, R204). -/
def Dev.exclOn (d : Dev) : Bool := d.getB plyB R.PLY_CTL 0 && !d.webLayer

/-- A run is over: no laser-on move of it is queued or can join it, and none of its entries has still to fire (R202). -/
def Dev.runOver (d : Dev) (h : Fin 32) (run : Nat) : Bool :=
  let f := d.heads[h].drf
  let t := d.heads[h].trv
  let mine (e : Ent) : Bool := !e.src && e.run = run && e.kind ≠ 0
  (run < f.runNo || f.st = 6 || f.st = 7) && !(f.moves.any fun m => m.laser && m.run = run) && !t.sched.any mine &&
    !(t.edges.any fun x => mine x.ent) && !(t.dwellAt.any fun x => mine x.2)

/-- BOX_RELEASE (R202): PLY_LINGER after the run's last LASER_OFF. -/
def execBoxRelease (h : Fin 32) (s : State) : Host.Outcome State Fault Refusal :=
  onLive (fun d =>
    let due (b : PBox) : Bool := match b.off with
      | some t => d.runOver h b.run && d.past t (d.getF plyB R.PLY_LINGER 15 0)
      | none => false
    d.when (d.up plyB && d.ply.heads[h].boxes.any due) fun d =>
      (d.phMod h fun x => { x with boxes := x.boxes.filter fun b => !due b }).plyServe) s

/-- The melt-pool positions that have reached the arbiter (R14) replace those reported before. -/
def Dev.meltsIn (d : Dev) : Dev :=
  let mine (x : Msg) : Option (Rat × Rat) := if x.dst = plyB ∧ x.loc = .inbox then (match x.body with
    | .melt a b => some (a, b)
    | _ => none) else none
  let d1 := d.fabric.foldl (fun (e : Dev) x => match mine x, blkKind x.src with
    | some p, some (.headctl, n) => e.phMod (Fin.ofNat 32 n) fun y => { y with melt := some p }
    | _, _ => e) d
  { d1 with fabric := d.fabric.filter fun x => (mine x).isNone }

/-- The live melt pool of a head whose TRV_STAT.GATE is 1 (R203). -/
def Dev.meltOf (d : Dev) (h : Fin 32) : Option (Rat × Rat) := if d.heads[h].trv.gate then d.ply.heads[h].melt else none

/-- MELT_POOL_POSITION (R203): every ordered pair of exposing heads, a violation counted once per excursion. -/
def execMeltPoolPosition (s : State) : Host.Outcome State Fault Refusal :=
  onLive (fun d =>
    d.when (d.up plyB) fun d0 =>
      let d := d0.meltsIn
      let inP (h g : Fin 32) : Bool := match d.meltOf h, d.meltOf g with
        | some q, some p =>
          let a := (q.1 - p.1) * d.ply.gx + (q.2 - p.2) * d.ply.gy
          let c := rabs ((q.1 - p.1) * d.ply.gy - (q.2 - p.2) * d.ply.gx)
          h ≠ g && decide (0 ≤ a) && decide (a ≤ d.ply.dist) && decide (c ≤ a * d.ply.tanH)
        | _, _ => false
      if ¬ (d.running.isSome ∧ d.exclOn) then d
      else (List.finRange 32).foldl (fun (e : Dev) h => (List.finRange 32).foldl (fun (e : Dev) g =>
        let now := inP h g
        let was : Bool := (h.val, g.val) ∈ e.ply.viol
        if now && !was then
          (((e.plyMod fun p => { p with viol := (h.val, g.val) :: p.viol }).bump plyB R.PLY_VIOL).put plyB R.PLY_LAST_VIOL
            (wd (h.val + g.val * 256))).plyEvent 0 |>.raise plyB none 1
        else if was && !now then e.plyMod fun p => { p with viol := p.viol.filter fun x => x ≠ (h.val, g.val) }
        else e) e) d) s

end Sys2Proof.Machine
end

