-- ==== Sys2Proof/Machine/Creel.lean ====
section
/-! DEFINITION. The creel (R80 to R87): rings, descriptors, staging of skeins, bobbin loads, and the key store (R74, R75)
(log 42, DEDUCED and DESIGN CHOICE, marked there). LONGOP descriptors stand in Longops. -/

namespace Sys2Proof.Machine

/-- The key store. -/
def keyst : Blk := blk .keyst 0

/-! Rings. -/

/-- A ring register. -/
def Dev.ring (d : Dev) (i : Fin 8) (r : Reg) : Nat := d.getN creelB r i.val

/-- Entries of a ring. -/
def Dev.ringSize (d : Dev) (i : Fin 8) : Nat := 2 ^ d.getF creelB R.CREEL_RSIZE 4 0 i.val

/-- The ring is enabled, or has a descriptor in progress to complete (R84), and holds a descriptor. -/
def Dev.ringWork (d : Dev) (i : Fin 8) : Bool :=
  (d.getB creelB R.CREEL_RCTL 0 i.val || d.ringFin.contains i) && d.getF creelB R.CREEL_RHEAD 15 0 i.val ≠ d.getF creelB R.CREEL_RTAIL 15 0 i.val

/-- The address of the next descriptor. -/
def Dev.descAddr (d : Dev) (i : Fin 8) : Nat :=
  d.addr2 creelB R.CREEL_RBASE_LO R.CREEL_RBASE_HI i.val + 64 * d.getF creelB R.CREEL_RHEAD 15 0 i.val

/-- The next descriptor, none where it cannot be read. -/
def Dev.descRead (d : Dev) (m : Mem) (i : Fin 8) : Option (List Word) :=
  match d.sdRead m (d.descAddr i) 64 with
  | .ok bs => some (bytesWords bs)
  | .error _ => none

/-- KIND of a descriptor. -/
def descKind (ws : List Word) : Nat := fld (ws.getD 0 0) 7 0

/-- CREEL_RCTL permits the kind (R81, R83). -/
def Dev.permits (d : Dev) (i : Fin 8) (kind : Nat) : Bool :=
  kind = 0 || (decide (1 ≤ kind ∧ kind ≤ 3) && d.getB creelB R.CREEL_RCTL (7 + kind) i.val)

/-- Why a descriptor waits (R82), as CREEL_RSTAT.WAIT: 2 staged slot occupied, 3 operation table full, 4 old buffer. -/
def Dev.descWait (d : Dev) (i : Fin 8) (ws : List Word) : Nat :=
  if ¬ d.permits i (descKind ws) then 0
  else match descKind ws with
    | 1 => if d.staged.isSome then 2 else 0
    | 2 => if d.fullSaid then 3 else 0
    | 3 => if 0 < d.oldHold (fld (ws.getD 4 0) 7 0) then 4 else 0
    | _ => 0

/-- A ring that can be served now. -/
def Dev.ringReady (d : Dev) (m : Mem) (i : Fin 8) : Bool :=
  d.ringWork i && (match d.descRead m i with
    | some ws => d.descWait i ws = 0
    | none => true)

/-- The ring whose turn it is: the next one with work after the ring served last (R82). -/
def Dev.ringTurn (d : Dev) (m : Mem) : Option (Fin 8) :=
  ((List.range 8).map fun k => Fin.ofNat 8 (d.ringLast + 1 + k)).find? fun i => d.ringReady m i

/-- What a ring is doing, as CREEL_RSTAT.WAIT (R85): 0 idle, 1 its descriptor is being served, 2 to 4 it waits. -/
def Dev.ringWait (d : Dev) (m : Mem) (i : Fin 8) : Nat :=
  let turn : Nat := (d.ringTurn m == some i).toNat
  if ¬ d.ready ∨ ¬ d.up creelB ∨ ¬ d.ringWork i then 0
  else match d.descRead m i with
    | some ws => if d.descWait i ws ≠ 0 then d.descWait i ws else turn
    | none => turn

/-- The bobbin that the descriptor being served loads (R85). -/
def Dev.loadingBob (d : Dev) (m : Mem) : Option Nat :=
  match d.ringTurn m with
  | none => none
  | some i => match d.descRead m i with
    | some ws => if descKind ws = 3 ∧ d.permits i 3 ∧ d.ringWait m i = 1 then some (fld (ws.getD 4 0) 7 0) else none
    | none => none

/-- A ring has no descriptor in progress. -/
def Dev.ringIdle (d : Dev) (i : Fin 8) : Dev := { d with ringLast := i.val, ringFin := d.ringFin.erase i }

/-- A ring halts on its entry (R84, R86). -/
def Dev.ringHalt (d : Dev) (i : Fin 8) : Dev :=
  ((((d.ringIdle i).putB creelB R.CREEL_RSTAT 4 true i.val).putF creelB R.CREEL_RSTAT 3 0 0 i.val).putB creelB R.CREEL_RCTL 0 false i.val).vector
    (8 + i.val)

/-- A descriptor completes (R81, R82, R86): RESULT, then DONE with STATUS and ENTRY, then the ring moves on. -/
def descDone (m : Mem) (d : Dev) (i : Fin 8) (ws : List Word) (status entry : Nat) (result : Word) : Mem × Dev :=
  let a := d.descAddr i
  match d.sdWrite m (a + 0x3C) (leBytes 4 result.toNat) with
  | .error _ => (m, d.ringHalt i)
  | .ok m1 =>
    let m2 := d.sdPut m1 (a + 0x38) (leBytes 4 (2 ^ 31 + status * 65536 + entry))
    let d1 := (d.putF creelB R.CREEL_RHEAD 15 0 ((d.getF creelB R.CREEL_RHEAD 15 0 i.val + 1) % d.ringSize i) i.val).put creelB
      R.CREEL_RDONE (d.get creelB R.CREEL_RDONE i.val + 1) i.val
    let d2 := (d1.putF creelB R.CREEL_RSTAT 3 0 0 i.val).ringIdle i
    (m2, if bit (ws.getD 0 0) 8 then d2.vector (8 + i.val) else d2)

/-- A descriptor of a ring is served by the command of its KIND; one that cannot be read halts the ring, one that waits
shows why, and one whose KIND is reserved or not permitted completes with 0x01: with ENTRY 0xFF for a long operation and with the
live generation for a bobbin load (R81). -/
def serveRing (m : Mem) (d : Dev) (i : Fin 8) (mine : Nat → Bool) (k : List Word → Mem × Dev) : Mem × Dev :=
  if ¬ d.ready ∨ ¬ d.up creelB ∨ ¬ d.ringWork i then (m, d)
  else match d.descRead m i with
    | none => if d.ringTurn m = some i then (m, d.ringHalt i) else (m, d)
    | some ws =>
      if ¬ mine (descKind ws) then (m, d)
      else if d.descWait i ws ≠ 0 then (m, d.putF creelB R.CREEL_RSTAT 3 0 (d.descWait i ws) i.val)
      else if d.ringTurn m ≠ some i then (m, d)
      else if d.permits i (descKind ws) then k ws
      else match descKind ws with
        | 2 => descDone m d i ws 1 0xFF 0
        | 3 => descDone m d i ws 1 0 (wd (d.bob (fld (ws.getD 4 0) 7 0)).gen)
        | _ => descDone m d i ws 1 0 0

/-- A write of CREEL_RTAIL (R80, R84): a value out of range is ignored and counted. -/
def Dev.tailWrite (d : Dev) (i : Fin 8) (v : Word) : Dev :=
  if d.ringSize i ≤ fld v 15 0 then d.bumpF creelB R.CREEL_RSTAT 15 8 1 i.val
  else d.put creelB R.CREEL_RTAIL (v &&& 0xFFFF#32) i.val

/-- DOORBELL (R80, R84): a write of CREEL_RTAIL. -/
def execDoorbell (i : Fin 8) (v : Word) (s : State) : Host.Outcome State Fault Refusal :=
  onLive (fun d => d.hostWrite creelB (0x114 + 0x20 * i.val) fun e => e.tailWrite i v) s

/-- A write of CREEL_RCTL (R84): EN 1 clears HALT; EN 0 lets a descriptor in progress, served or waiting, complete. -/
def Dev.ringCtl (d : Dev) (m : Mem) (i : Fin 8) (v : Word) : Dev :=
  let d1 := d.put creelB R.CREEL_RCTL (v &&& R.CREEL_RCTL.mask) i.val
  if bit v 0 then { d1.putB creelB R.CREEL_RSTAT 4 false i.val with ringFin := d.ringFin.erase i }
  else if d.ringWait m i = 0 ∨ d.ringFin.contains i then d1 else { d1 with ringFin := i :: d.ringFin }

/-- RING_ENABLE (R84). -/
def execRingEnable (i : Fin 8) (v : Word) (s : State) : Host.Outcome State Fault Refusal :=
  onLiveMem (fun m d => hostWriteMem m d creelB (0x10C + 0x20 * i.val) fun x e => (x, e.ringCtl x i v)) s

/-- RING_DISABLE (R84). -/
def execRingDisable (i : Fin 8) (v : Word) (s : State) : Host.Outcome State Fault Refusal :=
  onLiveMem (fun m d => hostWriteMem m d creelB (0x10C + 0x20 * i.val) fun x e => (x, e.ringCtl x i v)) s

/-- NOP (R82). A descriptor of a reserved KIND is served here too (log 42, DESIGN CHOICE). -/
def execNop (i : Fin 8) (s : State) : Host.Outcome State Fault Refusal :=
  onLiveMem (fun m d => serveRing m d i (fun k => k = 0 || 3 < k) fun ws => descDone m d i ws 0 0 0) s

/-! Skeins (R60 to R63, R87). -/

/-- A 64-bit field of a list of words. -/
def quadAt (ws : List Word) (o : Nat) : Nat := (ws.getD (o / 4) 0).toNat + (ws.getD (o / 4 + 1) 0).toNat * 2 ^ 32

/-- A structure lies aligned and wholly inside the installed SDRAM (R60). -/
def Dev.inside (d : Dev) (a n align : Nat) : Bool := a % align = 0 && a + n ≤ d.installed

/-- The skein of a header. -/
def skeinOf (ws : List Word) (bobs : List Nat) (ring : Fin 8) : Skein where
  layer := ws.getD 2 0
  flags := ws.getD 3 0
  ox := (ws.getD 4 0).toInt
  oy := (ws.getD 5 0).toInt
  recoatUs := (ws.getD 7 0).toNat
  headMask := ws.getD 8 0
  reqMask := ws.getD 9 0
  poolRecs := (ws.getD 10 0).toNat
  poolAddr := quadAt ws 0x30
  bobs := bobs
  planAddr := quadAt ws 0x40
  repAddr := quadAt ws 0x48
  repSize := (ws.getD 20 0).toNat
  lists := Vector.ofFn fun (n : Fin 32) => (quadAt ws (0x100 + 16 * n.val), (ws.getD (0x42 + 4 * n.val) 0).toNat)
  ring := ring
  goSeen := false
  abortSeen := false

/-- The checks of R87 on a header that has been read, in their order: the skein, or STATUS. -/
def Dev.skeinCheck (d : Dev) (m : Mem) (ring : Fin 8) (bs : List Byte) : Except Nat Skein :=
  let ws := bytesWords bs
  let refs := fld (ws.getD 11 0) 8 0
  let mapA := quadAt ws 0x38
  let k := skeinOf ws [] ring
  let heads := (List.finRange 32).filter fun h => k.headMask.getLsbD h.val
  if ws.getD 0 0 ≠ 0x5A530001#32 ∨ fld (ws.getD 1 0) 15 0 ≠ 1 ∨ crc32 (bs.take 0x3FC) ≠ ws.getD 0xFF 0 then .error 3
  else if 16777216 < k.poolRecs + (heads.map fun h => (k.lists[h]).2).sum ∨ refs = 0 ∨ 256 < refs ∨ k.repSize % 16 ≠ 0 ∨
      k.repSize < 0x480 then .error 4
  else if ¬ (d.inside mapA (4 * refs) 4 ∧
      (heads.all fun h => (k.lists[h]).2 = 0 || d.inside (k.lists[h]).1 (32 * (k.lists[h]).2) 1024) ∧
      (k.poolRecs = 0 ∨ d.inside k.poolAddr (32 * k.poolRecs) 1024) ∧ (k.planAddr = 0 ∨ d.inside k.planAddr 1024 1024) ∧
      d.inside k.repAddr k.repSize 1024) then .error 2
  else match d.sdRead m mapA (4 * refs) with
    | .error _ => .error 2
    | .ok mb =>
      let es := bytesWords mb
      if es.any fun e => (d.bob (fld e 7 0)).gen = 0 ∨ (bit e 8 ∧ (d.bob (fld e 7 0)).gen ≠ fld e 31 16) then .error 5
      else if k.poolRecs ≠ 0 ∧ k.planAddr = 0 then .error 6
      else .ok { k with bobs := es.map fun e => fld e 7 0 }

/-- SKEIN_STAT.STAGED and its ring. -/
def Dev.stagedShow (d : Dev) : Dev :=
  match d.staged with
  | none => (d.putF creelB R.SKEIN_STAT 7 4 0).putF creelB R.SKEIN_STAT 15 12 0
  | some k =>
    (d.putF creelB R.SKEIN_STAT 7 4 (if bit k.flags 0 ∧ ¬ k.goSeen then 2 else 1)).putF creelB R.SKEIN_STAT 15 12 k.ring.val

/-- A skein is staged; a web-mode skein takes the drive of its spindles (R354). -/
def Dev.stage_ (d : Dev) (k : Skein) : Dev := (({ d with staged := some k } : Dev).stagedShow).webForce

/-- SKEIN (R87). -/
def execSkein (i : Fin 8) (s : State) : Host.Outcome State Fault Refusal :=
  onLiveMem (fun m d => serveRing m d i (fun k => k = 1) fun ws =>
    let a := quadAt ws 8
    if ¬ d.inside a 1024 1024 then descDone m d i ws 2 0 0
    else match d.sdRead m a 1024 with
      | .error _ => descDone m d i ws 2 0 0
      | .ok bs =>
        let layer := wd (leNat ((bs.drop 8).take 4))
        match d.skeinCheck m i bs with
        | .error e => descDone m d i ws e 0 layer
        | .ok k => descDone m (d.stage_ k) i ws 0 0 layer) s

/-- A SKEIN_EVT bit; for a skein it raises the event of its ring (R86). -/
def Dev.skeinEvent (d : Dev) (k : Nat) (ring : Option (Fin 8)) : Dev :=
  let d1 := d.eventQuiet creelB R.SKEIN_EVT (wd (2 ^ k))
  match ring with
  | some i => d1.vector (8 + i.val)
  | none => d1

/-- A write of SKEIN_CTL.GO (R87). -/
def Dev.skeinGo (d : Dev) : Dev :=
  match d.staged with
  | none => d.skeinEvent 4 none
  | some k =>
    if bit k.flags 0 ∧ ¬ k.goSeen then ({ d with staged := some { k with goSeen := true } } : Dev).stagedShow
    else d.skeinEvent 4 (some k.ring)

/-- GO (R87). -/
def execGo (s : State) : Host.Outcome State Fault Refusal := onLive (fun d => d.hostWrite creelB 0x200 fun e => e.skeinGo) s

/-- A write of SKEIN_CTL.DROP (R90). -/
def Dev.skeinDrop (d : Dev) : Dev :=
  match d.staged with
  | none => d.skeinEvent 6 none
  | some _ => ({ d with staged := none } : Dev).stagedShow

/-- DROP (R90). -/
def execDrop (s : State) : Host.Outcome State Fault Refusal := onLive (fun d => d.hostWrite creelB 0x200 fun e => e.skeinDrop) s

/-! Bobbin loads (R72, R74, R77, R78). -/

/-- The checks of an image (R83): its words, or STATUS 0x08. -/
def imageOf (bs : List Byte) (enc : Bool) : Except Nat BobBuf :=
  let ws := bytesWords bs
  if ws.getD 0 0 ≠ 0x5A420001#32 ∨ fld (ws.getD 1 0) 15 0 ≠ 1 ∨ crc32 (bs.take 0xFFC) ≠ ws.getD 0x3FF 0 then .error 8
  else .ok ⟨ws, enc⟩

/-- A container is decrypted and checked (R74): its image, or STATUS. -/
def Dev.unseal (d : Dev) (bs : List Byte) : Except Nat BobBuf :=
  let ws := bytesWords (bs.take 0x40)
  if ws.getD 0 0 ≠ 0x5A420002#32 then .error 8
  else match d.keys[Fin.ofNat 32 (fld (ws.getD 1 0) 4 0)] with
    | none => .error 10
    | some key =>
      let r := aesGcmOpen key ((bs.drop 8).take 12) (bs.take 0x20) (bs.drop 0x40)
      if r.2 ≠ (bs.drop 0x20).take 16 then .error 9 else imageOf r.1 true

/-- What a bobbin load reads: the image, or STATUS (R83). -/
def Dev.bobbinRead (d : Dev) (m : Mem) (a : Nat) (enc : Bool) : Except Nat BobBuf :=
  if a % 64 ≠ 0 then .error 2
  else match d.sdRead m a (if enc then 4160 else 4096) with
    | .error _ => .error 2
    | .ok bs => if enc then d.unseal bs else imageOf bs false

/-- A load whose content fails its checks leaves the free buffer unused (R74, R78; log 42, DEDUCED). -/
def Dev.loadFails (d : Dev) (b err : Nat) : Dev := if err = 8 ∨ err = 9 then d.bobMod b fun x => { x with pend := false } else d

/-- A bobbin load of a ring (R77). -/
def loadRing (m : Mem) (d : Dev) (i : Fin 8) : Mem × Dev :=
  serveRing m d i (fun k => k = 3) fun ws =>
    let w := ws.getD 4 0
    let b := fld w 7 0
    match d.bobbinRead m (quadAt ws 8) (bit w 8) with
    | .error e => descDone m (d.loadFails b e) i ws e 0 (wd (d.bob b).gen)
    | .ok img =>
      let d1 := d.loadImage b img
      let x := d1.bob b
      descDone m d1 i ws 0 0 (wd (if x.pend then (if x.gen = 0xFFFF then 1 else x.gen + 1) else x.gen))

/-- BOBBIN_LOAD (R77): one that took effect ahead of a binding of this cycle is over (R79). -/
def execBobbinLoad (i : Fin 8) (s : State) : Host.Outcome State Fault Refusal :=
  onLiveMem (fun m d => if d.early.contains i then (m, { d with early := d.early.erase i }) else loadRing m d i) s

/-- Loads of a bobbin that fall in this cycle take effect before a binding to it (R79): those whose command still waits. -/
def loadsFirst (m : Mem) (d : Dev) (b : Nat) : List Instr → Mem × Dev
  | [] => (m, d)
  | .bobbinLoad i :: rest =>
    if d.loadingBob m = some b ∧ d.ringTurn m = some i ∧ ¬ d.early.contains i then
      let x := loadRing m d i
      loadsFirst x.1 { x.2 with early := i :: x.2.early } b rest
    else loadsFirst m d b rest
  | _ :: rest => loadsFirst m d b rest

/-! The key store (R75, R498). -/

/-- The 256-bit value of the key staging. -/
def keyOf (ws : List Word) : BitVec 256 := BitVec.ofNat 256 (leNat (wordsBytes ws))

/-- A write of KEYST_CMD.LOAD: ignored in test mode. -/
def Dev.keyLoad (d : Dev) (s : Fin 32) : Dev :=
  if d.getB (blk .boot 0) R.BOOT_STAT 5 then d
  else ({ d with keys := d.keys.set s (some (keyOf d.keyStage)), keyStage := List.replicate 8 0 } : Dev).putB keyst
    R.KEYST_VALID s.val true

/-- A write of KEYST_CMD.ERASE. -/
def Dev.keyErase (d : Dev) (s : Fin 32) : Dev :=
  ({ d with keys := d.keys.set s none } : Dev).putB keyst R.KEYST_VALID s.val false

/-- LOAD (R75, R498). -/
def execLoad (slot : Fin 32) (s : State) : Host.Outcome State Fault Refusal :=
  onLive (fun d => d.hostWrite keyst 0x120 fun e => e.keyLoad slot) s

/-- ERASE (R75). -/
def execErase (slot : Fin 32) (s : State) : Host.Outcome State Fault Refusal :=
  onLive (fun d => d.hostWrite keyst 0x120 fun e => e.keyErase slot) s

end Sys2Proof.Machine
end

