-- ==== Sys2Proof/Machine/Lattice.lean ====
section
/-! DEFINITION. The bed thermal lattice (R250 to R276): tiles, deposits, ticks, the recoat step, predictions and long
operations. -/

namespace Sys2Proof.Machine

/-- LATTICE. -/
def latB : Blk := blk .lattice 0

/-- Change the lattice. -/
def Dev.latMod (d : Dev) (f : Lat → Lat) : Dev := { d with lat := f d.lat }

/-- A bit of LAT_EVT (R276). -/
def Dev.latEvent (d : Dev) (k : Nat) : Dev := d.event latB R.LAT_EVT R.LAT_EVT_EN (wd (2 ^ k)) 57

/-- LAT_CTL.EN. -/
def Dev.latOn (d : Dev) : Bool := d.getB latB R.LAT_CTL 0

/-- The tile of a bed point (R250), none outside the lattice. -/
def Lat.tileAt (l : Lat) (x y : Rat) : Option Nat :=
  let c := ((x - ((l.ox : Int) : Rat)) / (l.pitch : Rat)).floor
  let r := ((y - ((l.oy : Int) : Rat)) / (l.pitch : Rat)).floor
  if 0 ≤ c ∧ c < 512 ∧ 0 ≤ r ∧ r < 512 then some (c.toNat + 512 * r.toNat) else none

/-- A tile. -/
def Lat.tile (l : Lat) (i : Nat) : Tile := (spGet l.tiles i).getD l.base

/-- Set a tile. -/
def Lat.setTile (l : Lat) (i : Nat) (t : Tile) : Lat := { l with tiles := spPut l.tiles i t }

/-- The longest age [ns]: 0xFF_FFFF ms (R252). -/
def ageMax : Nat := 16777215000000

/-- The four edge neighbours of a tile inside the lattice. -/
def neighbours (i : Nat) : List Nat :=
  (if i % 512 = 0 then [] else [i - 1]) ++ (if i % 512 = 511 then [] else [i + 1]) ++
    (if i < 512 then [] else [i - 512]) ++ (if 512 * 511 ≤ i then [] else [i + 512])

/-- The 64 bits of a tile (R252). -/
def Tile.bytes (t : Tile) : List Byte :=
  leBytes 8 (t.temp + t.energy * 2 ^ 20 + t.mat * 2 ^ 36 + t.age / 1000000 * 2 ^ 40)

/-- A tile read back from them. -/
def tileOf (n : Nat) : Tile := ⟨n % 2 ^ 20, n / 2 ^ 20 % 2 ^ 16, n / 2 ^ 36 % 16, n / 2 ^ 40 % 2 ^ 24 * 1000000⟩

/-! Deposits (R253, R254). -/

/-- DEPOSIT: an event that has reached the lattice is held for the next tick. -/
def Dev.depositIn (d : Dev) (tile nj mat head : Nat) : Dev :=
  let m := if 15 < mat then 0 else mat
  let d1 := d.latMod fun l => { l with deps := l.deps ++ [⟨tile, nj, m, head, d.now⟩] }
  if 15 < mat then (d1.bump latB R.LAT_MATERR).raise latB none 2 else d1

/-- The first message in a block's input with a body of its kind. -/
def Dev.inbox (d : Dev) (b : Blk) (f : Body → Bool) : Option Msg :=
  d.fabric.find? fun x => x.dst = b ∧ x.loc = .inbox ∧ f x.body

/-- Take a message out of the fabric. -/
def Dev.unpost (d : Dev) (x : Msg) : Dev := { d with fabric := d.fabric.erase x }

/-- The head of a HEADCTL block. -/
def headOf (b : Blk) : Nat :=
  match blkKind b with
  | some (.headctl, n) => n
  | _ => 0

/-- DEPOSIT (R253, R258). -/
def execDeposit (s : State) : Host.Outcome State Fault Refusal :=
  onLive (fun d =>
    let dep (b : Body) : Bool := match b with
      | .deposit _ _ _ => true
      | _ => false
    match d.up latB, d.inbox latB dep with
    | true, some x =>
      (match x.body with
        | .deposit t e m => (d.unpost x).depositIn t e m (headOf x.src)
        | _ => d)
    | _, _ => d) s

/-! Ticks (R256 to R260). -/

/-- A register of the lattice as a tick takes it: a write of the cycle in which the tick begins waits for the next one (R258). -/
def Dev.latGet (d : Dev) (r : Reg) (i : Nat := 0) : Word :=
  match if d.lat.priorAt = d.now then d.lat.prior.find? fun x => x.1 = radr latB r i else none with
  | some x => x.2
  | none => d.get latB r i

/-- A register of the lattice is about to be written: what it held before this cycle is kept. -/
def Dev.latKeep (d : Dev) (a : Nat) (old : Word) : Dev :=
  let l := if d.lat.priorAt = d.now then d.lat.prior else []
  d.latMod fun x => { x with priorAt := d.now, prior := if l.any fun y => y.1 = a then l else (a, old) :: l }

/-- EIGHTHS: at how many eighths of its rate the lattice ticks. -/
def Dev.eighths (d : Dev) : Nat := max 1 (d.getF latB R.LAT_STAT 11 8)

/-- D and C of a class under throttling (R257, R260), as fractions, and whether one is held at its limit. -/
def Dev.latCoef (d : Dev) (m : Nat) : Rat × Rat × Bool :=
  let j : Rat := (d.eighths : Rat)
  let a : Rat := (fld (d.latGet R.LAT_MAT_D m) 15 0 : Rat) * 8 / j
  let c : Rat := (fld (d.latGet R.LAT_MAT_C m) 15 0 : Rat) * 8 / j
  let held : Bool := decide (15359 < a) || decide (4096 < c)
  ((if 15359 < a then 15359 else a) / 65536, (if 4096 < c then 4096 else c) / 65536, held)

/-- What a tick applies to a tile: energy [nJ] and the class, of the larger deposit, then of the lower head. -/
def depsOf (l : List Dep) (i : Nat) : Nat × Option Nat :=
  let ds := l.filter fun x => x.tile = i
  let best := ds.foldl (fun (b : Option Dep) x =>
    match b with
    | none => some x
    | some y => if y.nj < x.nj ∨ (y.nj = x.nj ∧ x.head < y.head) then some x else some y) none
  ((ds.map (·.nj)).sum, best.map (·.mat))

/-- Round to the nearest hundredth of a kelvin, floored at 0 (R252, R256). -/
def tempOf (x : Rat) : Nat := min 0xFFFFF (x + 1 / 2).floor.toNat

/-- A tile after its deposits: its exact temperature and its class. -/
def Dev.heated (d : Dev) (t : Tile) (dep : Nat × Option Nat) : Rat × Nat :=
  let m := dep.2.getD t.mat
  ((t.temp : Rat) + (dep.1 : Rat) * ((d.latGet R.LAT_MAT_H m).toNat : Rat) / 10000000000, m)

/-- Diffusion and cooling of one tile, from its own and its neighbours' heated values. -/
def Dev.diffuse (d : Dev) (t : Tile) (dep : Nat) (own : Rat × Nat) (nbs : List (Rat × Nat)) (dt : Nat) : Tile :=
  let c := d.latCoef own.2
  let flux := nbs.foldl (fun (s : Rat) q => s + (c.1 + (d.latCoef q.2).1) / 2 * (q.1 - own.1)) 0
  let tb : Rat := (fld (d.latGet R.LAT_TBASE) 19 0 : Rat)
  { temp := tempOf (own.1 + flux - c.2.1 * (own.1 - tb)),
    energy := min 0xFFFF (t.energy + (dep + 50000) / 100000), mat := own.2,
    age := if dep = 0 then min ageMax (t.age + dt) else 0 }

/-- A tile that cannot be read is rewritten (R274). -/
def Dev.tileErr (d : Dev) (e : TileErr) : Dev :=
  let i := e.tile.val
  let ns := neighbours i
  let sum := (ns.map fun q => (d.lat.tile q).temp).sum
  let t : Tile := ⟨tempOf ((sum : Rat) / (ns.length : Rat)), 0,
    if e.matOk then (d.lat.tile i).mat else d.getF latB R.LAT_CTL 11 8, ageMax⟩
  (d.latMod fun l => l.setTile i t).raise latB none 1 (i % 512 + i / 512 * 4096)

/-- The first tile above LAT_HOT (R275). -/
def Dev.latHot (d : Dev) : Dev :=
  let lim := fld (d.latGet R.LAT_HOT) 19 0
  if lim = 0 ∨ d.getB latB R.LAT_HOT_TILE 31 then d
  else
    let listed := d.lat.tiles.find? fun t => lim < t.2.temp
    let free := if lim < d.lat.base.temp then
        (List.range (d.lat.tiles.length + 1)).find? fun i => (spGet d.lat.tiles i).isNone
      else none
    let first : Option Nat := match listed, free with
      | some a, some b => some (min a.1 b)
      | some a, none => some a.1
      | none, b => b
    match first with
    | some i => (d.put latB R.LAT_HOT_TILE (wd (i % 512 + i / 512 * 65536 + 2 ^ 31))).latEvent 2
    | none => d

/-- The period that the next tick is due after (R258, R275). -/
def Dev.latPeriod (d : Dev) : Dev := d.setLiv latB R.LAT_PERIOD (d.latGet R.LAT_PERIOD)

/-- One tick of the lattice (R256). -/
def Dev.latTick (d : Dev) : Dev :=
  let due := d.lat.deps.filter fun x => x.k < d.now
  let later := d.lat.deps.filter fun x => ¬ x.k < d.now
  let dt := (d.now - d.lat.sweptAt) * 5 / 4
  let keys := (d.lat.tiles.map (·.1)) ++ due.map (·.tile)
  let all := (keys ++ keys.flatMap neighbours).mergeSort.eraseDups
  let hot (i : Nat) : Rat × Nat := d.heated (d.lat.tile i) (depsOf due i)
  let base := d.diffuse d.lat.base 0 (d.heated d.lat.base (0, none)) [] dt
  let new := all.map fun i => (i, d.diffuse (d.lat.tile i) (depsOf due i).1 (hot i) ((neighbours i).map hot) dt)
  let held : Bool := (List.range 16).any fun m => (d.latCoef m).2.2
  let d1 := d.latMod fun l => { l with
    base := base, tiles := new.filter fun x => x.2 ≠ base, deps := later, sweptAt := d.now, dueAt := d.now, over_ := false,
    rowTick := 0 }
  let d2 := ((if held then d1.bump latB R.LAT_CLAMPS else d1).bump latB R.LAT_TICKS).bump latB R.LAT_DEPOSITS due.length
  d2.latHot.latPeriod

/-- A tick is due: LAT_PERIOD, stretched by throttling, has passed since the last one (R256, R260). -/
def Dev.latDue (d : Dev) : Bool := d.lat.dueAt * 5 * d.eighths + (d.liv latB R.LAT_PERIOD).toNat * 32 ≤ d.now * 5 * d.eighths

/-- The lattice ticks: a skein runs outside web mode, EN is 1 and the recoat step is over (R256, R261, R262). -/
def Dev.latRuns (d : Dev) : Bool :=
  d.up latB && d.latOn && d.running.isSome && !d.webLayer && d.lat.recoat.isNone

/-- LATTICE_TICK (R256, R259): a sweep, or an overrun where the last sweep has not finished. -/
def execLatticeTick (swept : Bool) (err : Option TileErr) (s : State) : Host.Outcome State Fault Refusal :=
  onLive (fun d =>
    d.when (d.latRuns && d.latDue) fun d =>
      if swept then
        match err with
        | some e => (d.tileErr e).latTick
        | none => d.latTick
      else
        let d1 := ((d.latPeriod.latMod fun l => { l with dueAt := d.now, over_ := true }).bump latB R.LAT_OVERRUN).latEvent 0
        if d.lat.over_ then d1 else d1.raise latB none 0) s

/-! Layer change (R261). -/

/-- The decay of the recoat step, e to the power -x. -/
def decay (x : Rat) : Rat := if 20 < x then 0 else expQ (-x)

/-- The recoat step on one tile, t_r in ns. -/
def Dev.recoatTile (d : Dev) (tr : Nat) (t : Tile) : Tile :=
  let tb : Rat := (d.getF latB R.LAT_TBASE 19 0 : Rat)
  let tau := d.getN latB R.LAT_MAT_TAU t.mat
  let a : Rat := if tau = 0 then tb else tb + ((t.temp : Rat) - tb) * decay ((tr : Rat) / ((tau * 1000000 : Nat) : Rat))
  let b := a + ((d.getF latB R.LAT_TPOWDER 19 0 : Rat) - a) * ((d.getF latB R.LAT_RECOAT_MIX 15 0 : Rat) / 65536)
  ⟨if d.getB latB R.LAT_CTL 1 then tempOf b else t.temp, 0, t.mat, min ageMax (t.age + tr)⟩

/-- The recoat step starts with a layer (R261): `us` is RECOAT_US of the skein. -/
def Dev.recoatStart (d : Dev) (us : Nat) : Dev :=
  let tr := if us = 0 then (d.now - d.lat.since) * 5 / 4 else us * 1000
  (d.latMod fun l => { l with recoat := some tr, over_ := false }).put latB R.LAT_RECOAT_MS (wd (tr / 1000000))

/-- RECOAT_STEP_DONE (R261, R262). -/
def execRecoatStepDone (s : State) : Host.Outcome State Fault Refusal :=
  onLive (fun d =>
    match d.up latB, d.lat.recoat with
    | true, some tr =>
      (d.latPeriod.latMod fun l => { l with
        base := d.recoatTile tr l.base, tiles := l.tiles.map fun x => (x.1, d.recoatTile tr x.2), recoat := none,
        sweptAt := d.now, dueAt := d.now }).latEvent 3
    | _, _ => d) s

/-! Predictions (R258, R262, R263). -/

/-- A tag no request holds. -/
def Dev.freeTag (d : Dev) : Nat :=
  ((List.range (d.reqs.length + 1)).find? fun t => d.reqs.all fun r => r.tag ≠ t).getD 0

/-- PREDICTION_REQUEST: the request at the lattice is answered from the last completed tick, in the recoat step not yet. -/
def execPredictionRequest (s : State) : Host.Outcome State Fault Refusal :=
  onLive (fun d =>
    let req (b : Body) : Bool := match b with
      | .predReq _ _ => true
      | _ => false
    match d.up latB && !(d.wakeReq.any fun w => w.2 = latB) && d.lat.recoat.isNone, d.inbox latB req with
    | true, some x =>
      (match x.body with
        | .predReq e t => (d.unpost x).post .rsp latB x.src none none (.predRsp e (((d.lat.tile t).temp + 5) / 10)) 0 x.tag
        | _ => d)
    | _, _ => d) s

/-! Long operations (R272, R273). -/

/-- Origin and pitch are taken up. -/
def Dev.latGeom (d : Dev) : Dev :=
  (d.latMod fun l => { l with
    ox := d.getI latB R.LAT_ORIGIN_X, oy := d.getI latB R.LAT_ORIGIN_Y, pitch := d.getN latB R.LAT_PITCH,
    since := d.now }).putB latB R.LAT_STAT 3 false

/-- The rectangle of LAT_READ and LAT_WRITE: first column and row, columns, rows. -/
def Dev.latRect (d : Dev) : Nat × Nat × Nat × Nat :=
  (d.getF latB R.LAT_OP_RECT0 8 0, d.getF latB R.LAT_OP_RECT0 24 16, d.getF latB R.LAT_OP_RECT1 9 0,
    d.getF latB R.LAT_OP_RECT1 25 16)

/-- LAT_OP_ADDR. -/
def Dev.latAddr (d : Dev) : Nat := d.addr2 latB R.LAT_OP_ADDR_LO R.LAT_OP_ADDR_HI

/-- A lattice operation begins to run, or fails its start checks (R272). -/
def Dev.latBegin (d : Dev) (code : Nat) : Dev :=
  let r := d.latRect
  let auto_ : Bool := d.staged.any fun k => !bit k.flags 0
  if code ≠ 1 ∧ (r.2.2.1 = 0 ∨ 512 < r.2.2.1 ∨ r.2.2.2 = 0 ∨ 512 < r.2.2.2) then d.opFail latB 6
  else if code ≠ 2 ∧ (d.running.isSome ∨ auto_) then d.opFail latB 0x80
  else if code ≠ 1 ∧ (512 < r.1 + r.2.2.1 ∨ 512 < r.2.1 + r.2.2.2) then d.opFail latB 0x81
  else if code ≠ 1 ∧ d.installed < d.latAddr + 8 * r.2.2.1 * r.2.2.2 then d.opFail latB 0x82
  else d.latMod fun l => { l with rowTick := 0 }

/-- LAT_INIT (R272): the host's start. -/
def execLatInit (tag : BitVec 8) (s : State) : Host.Outcome State Fault Refusal :=
  onLive (fun d => d.hostStart latB 1 tag.toNat 0) s

/-- LAT_INIT_DONE (R272). -/
def execLatInitDone (s : State) : Host.Outcome State Fault Refusal :=
  onLive (fun d =>
    d.when (d.opRunning latB 1) fun d =>
      let t : Tile := ⟨d.getF latB R.LAT_INIT_TEMP 19 0, 0, d.getF latB R.LAT_CTL 11 8, ageMax⟩
      (((d.latMod fun l => { l with base := t, tiles := [] }).latGeom).putB latB R.LAT_STAT 16 true).opDone latB) s

/-- LAT_READ copies its next row (R273); a tile of it that cannot be read is rewritten first (R274). -/
def Dev.latRow (m : Mem) (d0 : Dev) (err : Option TileErr) : Mem × Dev :=
  let r := d0.latRect
  let n := d0.getN latB R.OP_PART 0
  let row := r.2.1 + n
  if r.2.2.2 ≤ n ∨ (d0.latRuns ∧ 8 ≤ d0.lat.rowTick) then (m, d0)
  else
    let d := match err with
      | some e => if e.tile.val / 512 = row ∧ r.1 ≤ e.tile.val % 512 ∧ e.tile.val % 512 < r.1 + r.2.2.1 then d0.tileErr e else d0
      | none => d0
    let ts := (List.range r.2.2.1).map fun c => (r.1 + c, d.lat.tile (r.1 + c + 512 * row))
    match d.sdWrite m (d.latAddr + 8 * r.2.2.1 * n) (ts.flatMap fun t => t.2.bytes) with
    | .error e =>
      (m, (d.sdMark latB (d.latAddr + 8 * r.2.2.1 * n) (8 * r.2.2.1)).opFail latB (if e = 4 then 7 else 6))
    | .ok m' =>
      let ticks := d.getN latB R.LAT_TICKS
      let best := ts.foldl (fun (b : Nat × Nat) t => if b.1 < t.2.temp then (t.2.temp, t.1 + row * 65536) else b)
        (if n = 0 then ((d.lat.tile (r.1 + 512 * row)).temp, r.1 + row * 65536) else (d.getN latB R.OP_PART 3, d.getN latB R.OP_PART 4))
      let e1 := if n = 0 then d.opPart latB 1 ticks else d
      let e2 := ((e1.opPart latB 0 (n + 1)).opPart latB 2 ticks).opPart latB 3 best.1
      let e3 := (e2.opPart latB 4 best.2).opPart latB 5
        (satAdd 0xFFFFFFFF (d.getN latB R.OP_PART 5) ((ts.map fun t => t.2.energy).sum))
      (m', (e3.opProg latB ((n + 1) * 4095 / r.2.2.2)).latMod fun l => { l with rowTick := l.rowTick + 1 })

/-- LAT_READ (R273): the host's start, then row after row. -/
def execLatRead (act : RowAct) (s : State) : Host.Outcome State Fault Refusal :=
  onLiveMem (fun m d =>
    match act with
    | .start tag => (m, d.hostStart latB 2 tag.toNat 0)
    | .row err => if d.opRunning latB 2 then d.latRow m err else (m, d)) s

/-- LAT_READ_DONE (R273). -/
def execLatReadDone (s : State) : Host.Outcome State Fault Refusal :=
  onLive (fun d => d.when (d.opRunning latB 2 && d.latRect.2.2.2 ≤ d.getN latB R.OP_PART 0) fun d => d.opDone latB) s

/-- LAT_WRITE (R272): the host's start. -/
def execLatWrite (tag : BitVec 8) (s : State) : Host.Outcome State Fault Refusal :=
  onLive (fun d => d.hostStart latB 3 tag.toNat 0) s

/-- LAT_WRITE_DONE (R272): the rectangle is taken from SDRAM; a read that fails ends the operation failed. -/
def execLatWriteDone (s : State) : Host.Outcome State Fault Refusal :=
  onLiveMem (fun m d =>
    if ¬ d.opRunning latB 3 then (m, d)
    else
      let r := d.latRect
      match d.sdRead m d.latAddr (8 * r.2.2.1 * r.2.2.2) with
      | .error e =>
        (m, (d.sdMark latB d.latAddr (8 * r.2.2.1 * r.2.2.2)).opFail latB (if e = 4 then 7 else 6))
      | .ok bs =>
        let put (l : Lat) (i : Nat) : Lat :=
          l.setTile (r.1 + i % r.2.2.1 + 512 * (r.2.1 + i / r.2.2.1)) (tileOf (leNat ((bs.drop (8 * i)).take 8)))
        (m, ((d.latMod fun l => (List.range (r.2.2.1 * r.2.2.2)).foldl put l).latGeom).opDone latB)) s

end Sys2Proof.Machine
end

