-- ==== Sys2Proof/Machine/CorOps.lean ====
section
/-! DEFINITION. The correction unit's arithmetic (R264, R266, R268; log 36, DEDUCED and DESIGN CHOICE, marked there) and its bookkeeping. -/

namespace Sys2Proof.Machine

/-- A bit of COR_EVT (R278). -/
def Dev.corEvent (d : Dev) (h : Fin 32) (k : Nat) : Dev :=
  d.event (headB h) R.COR_EVT R.COR_EVT_EN (wd (2 ^ k)) (16 + h.val)

/-- COR_CTL.EN. -/
def Dev.corOn (d : Dev) (h : Fin 32) : Bool := d.getB (headB h) R.COR_CTL 0

/-- The nearest integer, halves up. -/
def near (x : Rat) : Int := (x + 1 / 2).floor

/-- The pre-scale of a prediction [0.1 K], 15 fraction bits (R264). -/
def ffOf (x : BobBuf) (t : Nat) : Nat :=
  let step := fld (x.word 0x108) 15 0
  if ¬ bit (x.word 0xC0) 2 ∨ step = 0 then 32768
  else
    let q := clampR 0 255 (((((t : Int) - (x.nat 0x104 : Int)) : Int) : Rat) / (step : Rat))
    let i := q.floor.toNat
    let a : Rat := (x.half (0x800 + 2 * i) : Rat)
    let b : Rat := (x.half (0x800 + 2 * min (i + 1) 255) : Rat)
    (near (a + (q - (i : Rat)) * (b - a))).toNat

/-- PMIN and PMAX in force (R266), 15 fraction bits. -/
def pLims (x : BobBuf) : Nat × Nat :=
  let c (n : Nat) : Nat := max 0x2000 (min 0xC000 n)
  let lo := c (fld (x.word 0xD4) 15 0)
  (lo, max lo (c (fld (x.word 0xD4) 31 16)))

/-- What R268 makes of ff and u: p and s with 15 fraction bits, whether d was held below, or above. -/
structure CorOut where
  p    : Nat
  s    : Nat
  low  : Bool
  high : Bool
deriving DecidableEq, Repr

/-- R268 from ff and u on; u with 16 fraction bits. -/
def corOut (x : BobBuf) (ff : Nat) (u : Int) : CorOut :=
  let one : Rat := ((max 0 (65536 + u) : Int) : Rat) / 65536
  let d : Rat := (ff : Rat) / 32768 * one
  let l := pLims x
  let lo : Rat := (l.1 : Rat) / 32768
  let hi : Rat := (l.2 : Rat) / 32768
  let smin : Rat := (max 0x4000 (min 0x8000 (fld (x.word 0xD8) 15 0)) : Nat)
  let s : Rat := if bit (x.word 0xC0) 3 ∧ hi < d then (if smin / 32768 < hi / d then hi / d else smin / 32768) else 1
  ⟨(near (clampR lo hi d * 32768)).toNat, (near (s * 32768)).toNat, decide (d < lo), decide (hi < d)⟩

/-- The error of a measured value (R268), 16 fraction bits. -/
def corErr (tgt meas : Nat) : Int :=
  clampI (-65536) 65536 (near (((((tgt : Int) - (meas : Int)) * 65536 : Int) : Rat) / (tgt : Rat)))

/-- A product of two numbers with 16 fraction bits. -/
def mul16 (a b : Int) : Int := near (((a * b : Int) : Rat) / 65536)

/-- Entries of the correction unit that have not fired (R263, R269). -/
def Trv.corEnts (t : Trv) : List Ent := t.sched.filter (fun e => e.src) ++ (t.edges.map (·.ent)).filter fun e => e.src

/-- Change an entry by its number, in the schedule or committed. -/
def Trv.entMod (t : Trv) (num : Nat) (f : Ent → Ent) : Trv :=
  { t with
    sched := t.sched.map fun e => if e.num = num then f e else e,
    edges := t.edges.map fun x => if x.ent.num = num then { x with ent := f x.ent } else x }

/-- Both scales in force (R265, R270): power for the Traveller, speed for the Drafter, COR_STAT. -/
def Dev.corForce (d : Dev) (h : Fin 32) (p s : Nat) : Dev :=
  ((d.trvMod h fun t => { t with corr := p }).drfMod h fun x => { x with speedReq := (s : Rat) / 32768 }).put (headB h)
    R.COR_STAT (wd (p + s * 65536))

/-- The integrator and COR_INTEG. -/
def Dev.corInteg (d : Dev) (h : Fin 32) (i : Int) : Dev := (d.corMod h fun c => { c with integ := i }).put (headB h) R.COR_INTEG (wi i)

/-- The pre-scale that holds at an arc position: that of the run opened last at or before it (R264, R268). -/
def Cor.ffAt (c : Cor) (s : Int) : Nat × Nat :=
  match c.ffs.find? fun x => x.1 ≤ s with
  | some x => x.2
  | none => (32768, 0)

/-- COR_FF (R277): ff of the move in progress and its prediction. -/
def Dev.corFF (d : Dev) (h : Fin 32) : Word :=
  match d.heads[h].drf.moves with
  | m :: _ =>
    let f := d.heads[h].cor.ffAt (rnd m.arc0)
    if m.laser ∧ m.started then wd (f.1 + min 65535 f.2 * 65536) else wd 32768
  | [] => wd 32768

end Sys2Proof.Machine
end

