-- ==== Sys2Proof/Machine/Deposits.lean ====
section
/-! DEFINITION. The energy that a head's exposures deposit (R253 to R255). -/

namespace Sys2Proof.Machine

/-- The queued or recent move of the path whose arc range contains a position. -/
def Drf.moveAt (f : Drf) (s : Rat) : Option Move :=
  (f.trail ++ f.moves).find? fun m => decide (m.arc0 ≤ s) && (decide (s < m.arc0 + m.len) || (m.len = 0 && m.arc0 = s))

/-- What held in a slot, latest change first. -/
def gateIn (l : List GateLog) (slot : Nat) : Option GateLog := l.find? fun x => x.slot ≤ slot

/-- The code in force in a slot. -/
def codeIn (l : List (Nat × Nat)) (slot : Nat) : Nat := ((l.find? fun x => x.1 ≤ slot).map (·.2)).getD 0

/-- Where LGATE falls in slots `a` to `b`, in order. -/
def Trv.falls (t : Trv) (a b : Nat) : List Nat :=
  ((t.gates.zip (t.gates.drop 1)).filterMap fun p =>
    if ¬ p.1.high ∧ p.2.high ∧ a ≤ p.1.slot ∧ p.1.slot < b then some p.1.slot else none).reverse

/-- The measured arc position in a slot, from the tick judged last. -/
def Trv.arcIn (t : Trv) (slot : Nat) : Rat := t.s + t.v * ((((slot : Int) - (400 * t.lastK : Nat) : Int) : Rat) / 400)

/-- The slots inside `a` to `b` in which the path passes from one move to the next. -/
def Dev.joints (d : Dev) (h : Fin 32) (a b : Nat) : List Nat :=
  let t := d.heads[h].trv
  let f := d.heads[h].drf
  if t.v ≤ 0 then []
  else (f.trail ++ f.moves).filterMap fun m =>
    let s : Int := ((400 * t.lastK : Nat) : Int) + ((m.arc0 - t.s) / t.v * 400).floor
    if (a : Int) < s ∧ s < (b : Int) then some s.toNat else none

/-- ABS and MATERIAL of the bobbin bound to the vector exposed in a slot (R253 to R255). -/
def Dev.absorbs (d : Dev) (h : Fin 32) (g : GateLog) (slot : Nat) : Nat × Nat :=
  match d.heads[h].drf.moveAt (d.heads[h].trv.arcIn slot) with
  | some m => if m.laser then let x := d.bobBuf m.bob m.buf; (min 0x10000 (x.nat 0x100), fld (x.word 8) 7 0) else (g.abs, g.mat)
  | none => (g.abs, g.mat)

/-- Energy absorbed over slots `a` to `b` [nJ], and the material exposed last (R253). -/
def Dev.absorbed (d : Dev) (h : Fin 32) (a b : Nat) : Rat × Nat :=
  let t := d.heads[h].trv
  let wpc := d.getN (headB h) R.COR_WPC
  let cuts := ([a] ++ (((t.gates.map (·.slot)) ++ t.codes.map (·.1)).filter fun x => a < x ∧ x < b) ++ d.joints h a b).mergeSort
  let parts := cuts.zip (cuts.drop 1 ++ [b])
  parts.foldl (fun (acc : Rat × Nat) p =>
    match gateIn t.gates p.1 with
    | some g =>
      if g.high ∧ p.1 < p.2 then
        let q := d.absorbs h g p.1
        (acc.1 + (codeIn t.codes p.1 * wpc * q.1 * (p.2 - p.1) : Nat) * 5 / 131072000000, q.2)
      else acc
    | none => acc) (0, 0)

/-- Both scales stay at 1.0 while COR_CTL.EN is 0, from the next record or deposit on (R277). -/
def Dev.corIdle (d : Dev) (h : Fin 32) : Dev :=
  if d.corOn h ∨ (d.heads[h].trv.corr = 32768 ∧ d.heads[h].drf.speedReq = 1) then d else d.corForce h 32768 32768

/-- The energy summed for a tile is sent to the lattice. -/
def Dev.depositSend (d : Dev) (h : Fin 32) : Dev :=
  let c := d.heads[h].cor
  match c.depTile with
  | none => d
  | some t =>
    let nj := c.depNj.floor.toNat
    let d1 := (d.corIdle h).corMod h fun c => { c with depTile := none, depNj := 0, depN := 0, sentNj := c.sentNj + nj }
    (d1.put (headB h) R.COR_DEPOSIT (wd (min 0xFFFFFFFF ((c.sentNj + nj) / 1000000)))).post .ev (headB h) latB none none
      (.deposit t nj c.depMat) 0 0

/-- Energy of slots `a` to `b` is summed for a tile; `fall` says that LGATE falls at their end. -/
def Dev.depositPart (d : Dev) (h : Fin 32) (tile a b : Nat) (fall : Bool) : Dev :=
  let e := d.absorbed h a b
  let d1 := if e.1 = 0 then d else d.corMod h fun c => { c with
    depTile := some tile, depNj := c.depNj + e.1, depMat := e.2, depN := if a % 400 = 0 ∨ c.depTile.isNone then c.depN + 1 else c.depN }
  if fall then d1.depositSend h else d1

/-- The energy of tick `k` is summed at the measured point and sent when the point has moved into another tile, after 16 ticks and where
LGATE falls (R253). -/
def Dev.depositTick (d : Dev) (h : Fin 32) (k : Nat) : Dev :=
  let t := d.heads[h].trv
  let a := 400 * k
  let b := a + 400
  let on_ := d.getB (headB h) R.COR_CTL 1 && !d.webLayer && !d.getB (headB h) R.TRV_STAT 6 && d.latOn
  if k < d.heads[h].cor.depK then d
  else
    let d0 := d.corMod h fun c => { c with depK := k + 1 }
    if ¬ on_ then d0.corMod h fun c => { c with depTile := none, depNj := 0, depN := 0 }
    else if (d0.absorbed h a b).1 = 0 then
      (if (gateIn t.gates (b - 1)).any fun g => g.high then d0 else d0.depositSend h)
    else
      let tile := d0.lat.tileAt t.px t.py
      let d1 := if d0.heads[h].cor.depTile = tile then d0 else d0.depositSend h
      match tile with
      | none => (d1.bump latB R.LAT_DEPLOST).latEvent 1
      | some i =>
        let cuts := t.falls a b
        let d2 := (([a] ++ cuts).zip cuts).foldl (fun (e : Dev) p => e.depositPart h i p.1 p.2 true) d1
        let d3 := d2.depositPart h i (cuts.getLast?.getD a) b false
        if 16 ≤ d3.heads[h].cor.depN then d3.depositSend h else d3

/-- A head leaves the layer, or its gate closes for good: what it still holds is sent (R253). -/
def Dev.depositFlush (d : Dev) (h : Fin 32) : Dev :=
  if ¬ d.up (headB h) then d
  else
    let k := d.heads[h].trv.lastK
    ((List.range (min 8 (d.tick + 1 - k))).foldl (fun (e : Dev) i => e.depositTick h (k + i)) d).depositSend h

end Sys2Proof.Machine
end

