-- ==== Sys2Proof/Machine/Plan.lean ====
section
/-! DEFINITION. Lookahead (R106, R109): the speeds at the joints of the queued moves and the profiles of those that have
not started. -/

namespace Sys2Proof.Machine

/-- The slopes of a profile under DRF_ACC_CAP [mm/s²]; 0 means no cap (R99). -/
def Prof.cap (f : Prof) (c : Nat) : Prof :=
  if c = 0 then f
  else
    let k : Rat := (c : Rat) / 1000000
    let lo (a : Rat) : Rat := if k < a then k else a
    { f with a1 := lo f.a1, a2 := lo f.a2, d1 := lo f.d1, d2 := lo f.d2 }

/-- The speed at which a move starts that does not continue from the one before it (R99, R100, R104, R105). -/
def Move.startSpeed (m : Move) : Rat := if m.ceil < m.prof.vS then m.ceil else m.prof.vS

/-- The speed at which a move ends at an exact stop (R100, R105). -/
def Move.stopSpeed (m : Move) : Rat := if m.ceil < m.prof.vE then m.ceil else m.prof.vE

/-- The lower of two speeds. -/
def lower (a b : Rat) : Rat := if a ≤ b then a else b

/-- The lowest deceleration slopes under which a fall from `u` to `w` takes no more than length `l`, none above those of `f`
(R109). -/
def relief (f : Prof) (u w l : Rat) : Prof :=
  if l ≤ 0 then f
  else
    let a := (u * u - w * w) / (2 * l)
    let low (g : Prof) : Prof := { g with d1 := lower g.d1 f.d1, d2 := lower g.d2 f.d2 }
    if u ≤ f.vB ∨ f.vB ≤ w ∨ a ≤ lower f.d1 f.d2 then low { f with d1 := a, d2 := a }
    else if f.d1 ≤ f.d2 then
      let x := l - slopeDist u f.vB f.d1
      if x ≤ 0 then f else low { f with d2 := (f.vB * f.vB - w * w) / (2 * x) }
    else
      let x := l - slopeDist f.vB w f.d2
      if x ≤ 0 then f else low { f with d1 := (u * u - f.vB * f.vB) / (2 * x) }

/-- The backward pass of R106: the highest speed at which each unstarted move may start. -/
def entryMax (c : Nat) : List Move → List Rat
  | [] => []
  | m :: ms =>
    let rest := entryMax c ms
    let f := m.prof.cap c
    let w : Rat := match ms, rest with
      | n :: _, v :: _ => if n.cont then v else m.stopSpeed
      | _, _ => m.stopSpeed
    let v : Rat :=
      if ¬ m.cont then m.startSpeed
      else match m.kind with
        | .runOut =>
          let x := lower m.inLim m.ceil
          if fallDist f x f.vE ≤ m.len then x else lower x (fallStart f f.vE m.len)
        | .runIn => lower m.inLim w
        | _ => lower (lower m.inLim m.ceil) (fallStart f w m.len)
    v :: rest

/-- A run-out (R104): it holds its entry speed and falls to vE at its end, or runs at its entry speed throughout. -/
def planOut (f : Prof) (u len : Rat) : List Phase × Rat :=
  if u ≤ f.vE then ((if u = 0 then [] else [⟨u, 0, len / u, len⟩]), u)
  else
    let x := len - fallDist f u f.vE
    ((if x ≤ 0 then [] else [⟨u, 0, x / u, x⟩]) ++ fallPhases f u f.vE, f.vE)

/-- A run-in (R104): it rises from vS, or from its exit speed when that is lower, and holds that exit speed, which is no more
than what its length lets it reach. -/
def planIn (f : Prof) (w0 len : Rat) : List Phase × Rat :=
  let u := lower f.vS w0
  let w := if riseDist f u w0 ≤ len then w0 else lower w0 (riseEnd f u len)
  let x := len - riseDist f u w
  (risePhases f u w ++ (if x ≤ 0 ∨ w = 0 then [] else [⟨w, 0, x / w, x⟩]), w)

/-- The forward pass of R106 with the profiles: from the speed at which the move before ends. A move whose committed entry speed
cannot be met takes the exception of R109, with slopes up to those of the cap that the present one replaced; the count says how
many moves took it for the first time. -/
def planPass (c : Nat) (u : Rat) : List Move → List Rat → List Move × Nat
  | m :: ms, v :: vs =>
    let f := m.prof.cap c
    let start := if m.cont then u else v
    let next : Rat := match ms, vs with
      | n :: _, w :: _ => if n.cont then w else m.stopSpeed
      | _, _ => m.stopSpeed
    let goal : Rat := if m.kind = .runOut then f.vE else next
    let short : Bool := m.cont && m.kind ≠ .runIn && 0 < m.len && m.len < fallDist f start goal
    let late : Bool := short && m.was ≠ c
    let old := m.prof.cap m.was
    let g := if late then relief old start goal m.len else f
    let floor_ : Rat := if short then fallEnd (if late then old else f) start m.len else 0
    let next := if next < floor_ then floor_ else next
    let r : List Phase × Rat := match m.kind with
      | .dwell | .wait | .hold => ([], 0)
      | .runOut => planOut g start m.len
      | .runIn => planIn f next m.len
      | _ => if m.len = 0 then ([], start) else plan g m.ceil (1 / 1000) start (lower next (riseEnd g start m.len)) m.len
    let rest := planPass c r.2 ms vs
    ({ m with phases := r.1, vOut := r.2, late := m.late || late } :: rest.1, rest.2 + (late && !m.late).toNat)
  | ms, _ => (ms, 0)

/-- Re-plan every queued move that has not started (R106); the move in progress fixes the entry speed of the first, or
`u`, at which the move before it ended. -/
def replan (c : Nat) (u : Rat) (ms : List Move) : List Move × Nat :=
  match ms with
  | m :: rest =>
    if m.started then
      let r := planPass c m.vOut rest (entryMax c rest)
      (m :: r.1, r.2)
    else planPass c u ms (entryMax c ms)
  | [] => ([], 0)

end Sys2Proof.Machine
end

