-- ==== Sys2Proof/Machine/Drafter.lean ====
section
/-! DEFINITION. The Drafter (R93 to R123): records into moves, joints, events posted to the Traveller, holds, setpoints
(log 35, DEDUCED and DESIGN CHOICE, marked there). -/

namespace Sys2Proof.Machine

/-! Counting and rejecting. -/

/-- Records of a head from an index on complete (R91, R196). -/
def Dev.recordDone (d : Dev) (h : Fin 32) (pool : Bool) (idx n : Nat) : Dev :=
  let d1 := d.sumMod h fun x => { x with done := x.done + n }
  if pool then d1.agtDone h idx n
  else d1.drfMod h fun x => { x with ownDone := x.ownDone + n }

/-- Records are rejected (R69, R96, R122): counted, listed, and passed by. -/
def Dev.reject (d : Dev) (h : Fin 32) (r : FRec) (n : Nat) : Dev :=
  let d1 := (d.sumMod h fun x => { x with rejected := x.rejected + n }).list (r.w.getD 1 0) 4 h.val r.pool r.idx n
  let d2 := d1.drfEvent h 2
  let d3 := if r.poison then d2.raise (headB h) none 0 else d2
  if r.pool then d3.agtDone h r.idx n else d3.drfMod h fun x => { x with ownDone := x.ownDone + n }

/-! Events. -/

/-- Put an entry in its place: ascending arc, then kind, then order of posting (R134). -/
def insertEnt : List Ent → Ent → List Ent
  | [], e => [e]
  | x :: t, e => if e.arc < x.arc ∨ (e.arc = x.arc ∧ e.kind < x.kind) then e :: x :: t else x :: insertEnt t e

/-- Post an entry (R114, R133). -/
def Dev.post_ (d : Dev) (h : Fin 32) (e : Ent) : Dev :=
  d.trvMod h fun t => { t with sched := insertEnt t.sched { e with num := t.num }, num := t.num + 1 }

/-- An entry of the Drafter for a move. -/
def entOf (arc : Rat) (kind : Nat) (m : Move) : Ent :=
  ⟨rnd arc, kind, false, false, false, m.pwr, m.bob, m.buf, 0, 0, 0, m.idx, m.pool, m.run, 0⟩

/-- Entries of the Drafter that have not fired: pending, committed, or a dwell's end. -/
def Trv.drfEnts (t : Trv) : Nat :=
  (t.sched.filter fun e => !e.src).length + (t.edges.filter fun x => !x.ent.src && x.ent.kind ≠ 0).length + t.dwellAt.isSome.toNat

/-- Entries the Drafter holds, with the LASER_OFF that an open run may need (R114). -/
def Head.held (x : Head) : Nat := x.trv.drfEnts + x.drf.open_.toNat

/-- Post a laser-on, marked for admission where it is the first of the layer or after a hold (R146). -/
def Dev.postOn (d : Dev) (h : Fin 32) (e : Ent) : Dev :=
  let need := d.heads[h].drf.needAdm
  (d.post_ h { e with adm := need }).drfMod h fun x => { x with needAdm := false }

/-- The last queued move's run ends (R114): LASER_OFF at its end, with the cross-fade of an item's last record. -/
def Dev.closeRun (d : Dev) (h : Fin 32) : Dev :=
  let f := d.heads[h].drf
  if ¬ f.open_ then d else
  match f.moves.getLast? with
  | some m => (d.post_ h { entOf f.arcEnd 1 m with fade := m.fade }).drfMod h fun x => { x with open_ := false }
  | none => d.drfMod h fun x => { x with open_ := false }

/-- Prediction requests go out, oldest first, while a response buffer is free for the answer (R16); the correction unit has one
buffer and Config.rspBuffers more (log 52, DESIGN CHOICE). -/
def corIssue : Nat → Dev → Fin 32 → Dev
  | 0, d, _ => d
  | n + 1, d, h =>
    match d.heads[h].cor.queue with
    | [] => d
    | (num, tile, arc) :: rest =>
      if ¬ d.heads[h].cor.await.isEmpty ∧ Config.rspBuffers < d.heads[h].cor.await.length then d
      else
        let b := headB h
        let tag := d.freeTag
        let d1 : Dev := { d with reqs := d.reqs ++ [⟨tag, b, latB, d.now, false, true⟩] }
        corIssue n ((d1.corMod h fun c => { c with queue := rest, await := c.await ++ [(num, arc)] }).post .req b latB none none
          (.predReq num tile) 0 tag) h

/-- Every prediction request of a head that a free buffer lets go goes out. -/
def Dev.corIssue (d : Dev) (h : Fin 32) : Dev := Sys2Proof.Machine.corIssue d.heads[h].cor.queue.length d h

/-- A start entry and its prediction request (R263) for the laser-on entry `e` of a move that starts at `p`. -/
def Dev.corStart (d : Dev) (h : Fin 32) (e : Ent) (p : Rat × Rat) : Dev :=
  let b := headB h
  let note (c : Cor) : Cor := { c with asked := e.num + 1, ffs := (e.arc, 32768, 0) :: c.ffs }
  if 16 ≤ d.heads[h].trv.corEnts.length then ((d.corMod h note).bump b R.COR_FULL).corEvent h 2
  else
    let o := corOut (d.bobBuf e.bob e.buf) 32768 d.heads[h].cor.integ
    let num := d.heads[h].trv.num
    let start : Ent := { e with
      kind := 2, src := true, adm := false, ok := false, pwr := o.p, spd := o.s, dur := 0, fade := 0 }
    let d1 := ((d.corMod h note).post_ h start).bump b R.COR_POSTED
    match d.lat.tileAt p.1 p.2, d.webLayer with
    | some t, false =>
      (d1.corMod h fun c => { c with queue := c.queue ++ [(num, t, e.arc)] }).corIssue h
    | _, _ => d1

/-- Start entries of the laser-on moves whose predecessor has started (R263). -/
def Dev.corAsk (d : Dev) (h : Fin 32) : Dev :=
  let ms := match d.heads[h].drf.moves with
    | a :: b :: _ => if a.started then [a, b] else [a]
    | l => l
  if ¬ d.corOn h then d
  else ms.foldl (fun (e : Dev) m =>
    match e.heads[h].trv.sched.find? fun x => (x.kind = 4 ∨ x.kind = 5) ∧ x.arc = rnd m.arc0 ∧ x.run = m.run ∧
        e.heads[h].cor.asked ≤ x.num with
    | some x => let p := m.seg.at m.len 0; if m.laser then e.corStart h x (p.1, p.2.1) else e
    | none => e) d

/-! Entering moves. -/

/-- A head's field map. -/
def Dev.fmap (d : Dev) (h : Fin 32) : Option FMap := d.heads[h].trv.live

/-- A bed point lies in the covered field. -/
def Dev.covered (d : Dev) (h : Fin 32) (p : Rat × Rat) : Bool :=
  match d.fmap h, d.running with
  | some f, some k => let q := k.frame.mach p.1 p.2; f.covers q.1 q.2
  | _, _ => false

/-- Every point of a segment lies in the covered field (R96; log 35, DESIGN CHOICE). -/
def Dev.segCovered (d : Dev) (h : Fin 32) (g : Seg) (len : Rat) : Bool :=
  match d.fmap h, d.running with
  | some f, some k =>
    marches (fun p => let q := k.frame.mach p.1 p.2; f.leap q.1 q.2) (fun s => let p := g.at len s; (p.1, p.2.1)) len
      (len.ceil.toNat + 1) 0
  | _, _ => false

/-- Append a move at the end of the queue; the head's end point and arc position move with it. -/
def Dev.push (d : Dev) (h : Fin 32) (m : Move) : Dev :=
  let e := m.seg.at m.len m.len
  d.drfMod h fun x => { x with
    moves := x.moves ++ [{ m with arc0 := x.arcEnd, was := x.cap, late := false }], arcEnd := x.arcEnd + m.len, endX := e.1, endY := e.2.1 }

/-- Re-plan (R106); a later move that takes the exception of R109 is counted. -/
def Dev.planAll (d : Dev) (h : Fin 32) : Dev :=
  let f := d.heads[h].drf
  let r := replan f.cap ((f.trail.getLast?.map (·.vOut)).getD 0) f.moves
  let d1 := d.drfMod h fun x => { x with moves := r.1 }
  if r.2 = 0 then d1 else (d1.bump (headB h) R.DRF_ACCLATE r.2).drfEvent h 4

/-- A move of a bobbin, not yet planned. -/
def mkMove (kind : MKind) (seg : Seg) (len ceil : Rat) (x : BobBuf) (id : Word) (idx : Nat) (pool : Bool) (bob : Nat)
    (buf : Bool) (focus : Int) : Move :=
  { kind := kind, seg := seg, len := len, arc0 := 0, laser := false, ceil := ceil, prof := x.prof, cont := false,
    inLim := ceil, outLim := ceil, phases := [], vOut := 0, started := false, t := 0, id := id, idx := idx, pool := pool,
    bob := bob, buf := buf, pwr := 0, focus := focus, durNs := 0, zone := 0, blend := false, sky := false, done := 0,
    run := 0, fade := 0, turnS := ((x.nat 0x70 : Nat) : Rat) / 1000000, was := 0, late := false }

/-- A jump from the end of the queue to a point, with a hold point at its end (R95, R98, R199). -/
def Dev.pushJump (d : Dev) (h : Fin 32) (x y : Rat) (b : BobBuf) (id : Word) (idx : Nat) (pool : Bool) (bob : Nat)
    (buf : Bool) (focus : Int) (done : Nat) : Dev :=
  let d0 := d.closeRun h
  let f := d0.heads[h].drf
  let len := vlen (x - f.endX) (y - f.endY)
  let m := mkMove .jump (.line f.endX f.endY x y) len b.prof.vM b id idx pool bob buf focus
  (d0.push h { m with done := done }).drfMod h fun z => { z with runNo := z.runNo + 1 }

/-- The square root of lateral limit times radius (R94, R103). -/
def Dev.latSpeed (d : Dev) (h : Fin 32) (r : Rat) : Rat := rsqrt (((d.getN (headB h) R.DRF_ACC_LAT : Nat) : Rat) / 1000000 * r)

/-- The last queued move may still be changed: it has not started. -/
def Drf.lastMark (f : Drf) : Option Move :=
  match f.moves.getLast? with
  | some m => if m.laser && f.open_ then some m else none
  | none => none

/-- Replace the last queued move by a shorter one (R103). -/
def Dev.trimLast (d : Dev) (h : Fin 32) (t : Rat) : Dev :=
  d.drfMod h fun x =>
    match x.moves.getLast? with
    | some m =>
      let m' := { m with seg := m.seg.trim m.len 0 t, len := m.len - t }
      { x with moves := x.moves.dropLast ++ [m'], arcEnd := x.arcEnd - t }
    | none => x

/-- The power of a laser-on move: POWER_CODE of its bobbin times its power scale (R141). -/
def Dev.power (d : Dev) (m : Move) : Nat := (d.bobBuf m.bob m.buf).half 0x40 * m.pwr

/-- Post the power step of a joint where the powers differ (R105, R114). -/
def Dev.powerStep (d : Dev) (h : Fin 32) (a b : Move) (arc : Rat) : Dev :=
  if d.power a = d.power b then d else d.post_ h (entOf arc 3 b)

/-- A joint of two laser-on moves as an exact stop (R105). -/
def Dev.joinStop (d : Dev) (h : Fin 32) (a b : Move) : Dev :=
  (d.powerStep h a b d.heads[h].drf.arcEnd).push h { b with cont := false }

/-- The circle tangent to move `a` at distance `t` before its end and to move `b`, which turns to the side `s`: its radius, its
centre, and how far from the vertex it touches `b`; none where no such circle exists. -/
def filletAt (a b : Move) (s t : Rat) : Option (Rat × Rat × Rat × Rat) :=
  let e := a.seg.at a.len (a.len - t)
  let v := b.seg.at b.len 0
  let nx := -e.2.2.2
  let ny := e.2.2.1
  match b.seg with
  | .line _ _ _ _ =>
    let mx := -v.2.2.2
    let my := v.2.2.1
    let den := 1 - (mx * nx + my * ny)
    let r := if den ≤ 0 then 0 else quant (s * (mx * (e.1 - v.1) + my * (e.2.1 - v.2.1)) / den)
    let cx := e.1 + s * r * nx
    let cy := e.2.1 + s * r * ny
    if r ≤ 0 then none else some (r, cx, cy, quant (v.2.2.1 * (cx - v.1) + v.2.2.2 * (cy - v.2.1)))
  | .arc ox oy ux uy sweep =>
    let rb := vlen ux uy
    let g : Rat := if 0 ≤ sweep then 1 else -1
    let dx := e.1 - ox
    let dy := e.2.1 - oy
    let den := 2 * s * (nx * dx + ny * dy + g * rb)
    let r := if den = 0 then 0 else quant ((rb * rb - dx * dx - dy * dy) / den)
    let cx := e.1 + s * r * nx
    let cy := e.2.1 + s * r * ny
    let q := if 0 ≤ rb - g * s * r then turn ux uy (cx - ox) (cy - oy) else turn ux uy (ox - cx) (oy - cy)
    if r ≤ 0 then none else some (r, cx, cy, quant (rb * g * q))

/-- A fillet (R103): radius, centre, distances from the vertex at which it leaves `a` and joins `b`. Between two lines it is the
closed form of the rule; where a move is an arc it is the circle tangent to both that deviates from the vertex by the tolerance, its
place found to 2^-10 nm (log 35, DESIGN CHOICE). -/
def fillet (a b : Move) (tol phi : Rat) : Option (Rat × Rat × Rat × Rat × Rat) :=
  let half := rabs phi / 2
  let s : Rat := if phi < 0 then -1 else 1
  let straight (g : Seg) : Bool := match g with
    | .line _ _ _ _ => true
    | .arc _ _ _ _ _ => false
  if straight a.seg ∧ straight b.seg then
    let tn := tanQ half
    let r0 := quant (tol / (1 / (sincos half).2 - 1))
    let room := lower a.len b.len
    let r := if room < r0 * tn then quant (room / tn) else r0
    let t := lower (quant (r * tn)) room
    let e := a.seg.at a.len (a.len - t)
    if r ≤ 0 then none else some (r, e.1 - e.2.2.2 * s * r, e.2.1 + e.2.2.1 * s * r, t, t)
  else
    let v := b.seg.at b.len 0
    let at_ (k : Nat) : Option (Rat × Rat × Rat × Rat) := filletAt a b s ((k : Rat) / 1024)
    let fits (k : Nat) : Bool := match at_ k with
      | some f => decide ((k : Rat) / 1024 ≤ a.len) && decide (0 ≤ f.2.2.2) && decide (f.2.2.2 ≤ b.len) &&
          decide (vlen (f.2.1 - v.1) (f.2.2.1 - v.2.1) - f.1 ≤ tol)
      | none => false
    let k := peakSteps fits 40 0
    if k = 0 then none else (at_ k).map fun f => (f.1, f.2.1, f.2.2.1, (k : Rat) / 1024, f.2.2.2)

/-- A blend (R103): its fillet between the two moves; an exact stop where no radius is left. -/
def Dev.joinBlend (d : Dev) (h : Fin 32) (a b : Move) (phi : Rat) : Dev :=
  let half := rabs phi / 2
  let c := (sincos half).2
  let tol : Rat := ((d.getF (headB h) R.DRF_BLEND_TOL 19 0 : Nat) : Rat)
  let lo := lower a.ceil b.ceil
  if c ≤ 1 / 1000000 ∨ tol = 0 then d.joinStop h a b
  else if 1 / c - 1 = 0 then
    (d.powerStep h a b d.heads[h].drf.arcEnd).push h { b with cont := true, inLim := lo }
  else match fillet a b tol phi with
    | none => d.joinStop h a b
    | some (r, cx, cy, t, tb) =>
      let e := a.seg.at a.len (a.len - t)
      let z := b.seg.at b.len tb
      let sweep := turn e.2.2.1 e.2.2.2 z.2.2.1 z.2.2.2
      let lat := d.latSpeed h r
      let v := lower lo lat
      let len := quant (r * rabs sweep)
      let fil : Move := { a with
        kind := .fillet, seg := .arc cx cy (e.1 - cx) (e.2.1 - cy) sweep, len := len, ceil := v, cont := true, inLim := v,
        done := 0, fade := 0, phases := [], started := false, t := 0, focus := b.focus }
      let d1 := if lat < lo then d.bump (headB h) R.DRF_LATCNT else d
      let d2 := (d1.trimLast h t).push h fil
      let d3 := d2.powerStep h a b (d2.heads[h].drf.arcEnd - len / 2)
      d3.push h { b with seg := b.seg.trim b.len tb 0, len := b.len - tb, cont := true, inLim := v }

/-- A sky-write (R104), or an exact stop where it would reach too far or leave the field. -/
def Dev.joinSky (d : Dev) (h : Fin 32) (a b : Move) : Dev :=
  let buf := d.bobBuf a.bob a.buf
  let f := a.prof.cap d.heads[h].drf.cap
  let lo := fallDist f a.ceil f.vE
  let li := riseDist f f.vS b.ceil
  let e := a.seg.at a.len a.len
  let s := b.seg.at b.len 0
  let x1 := e.1 + e.2.2.1 * lo
  let y1 := e.2.1 + e.2.2.2 * lo
  let x2 := s.1 - s.2.2.1 * li
  let y2 := s.2.1 - s.2.2.2 * li
  let over_ : Rat := ((buf.nat 0x74 : Nat) : Rat)
  let out : Seg := .line e.1 e.2.1 x1 y1
  let jmp : Seg := .line x1 y1 x2 y2
  let inn : Seg := .line x2 y2 s.1 s.2.1
  let jl := vlen (x2 - x1) (y2 - y1)
  if over_ < lo ∨ over_ < li ∨ ¬ (d.segCovered h out lo && d.segCovered h jmp jl && d.segCovered h inn li) then
    ((d.bump (headB h) R.DRF_SKYFALL).drfEvent h 3).joinStop h a b
  else
    let base (k : MKind) (g : Seg) (l c : Rat) (fo : Int) : Move :=
      { mkMove k g l c buf a.id a.idx a.pool a.bob a.buf fo with run := a.run }
    let sky : Rat := ((buf.nat 0x78 : Nat) : Rat) / 1000
    let d1 := d.post_ h (entOf d.heads[h].drf.arcEnd 1 a)
    let d2 := d1.push h { base .runOut out lo a.ceil b.focus with cont := true, inLim := a.ceil }
    let d3 := (d2.push h (base .jump jmp jl (lower f.vM sky) b.focus)).push h (base .runIn inn li b.ceil b.focus)
    (d3.postOn h (entOf d3.heads[h].drf.arcEnd 4 b)).push h { b with cont := true, inLim := b.ceil }

/-- The joint of the last queued move with a laser-on move that starts at its end (R102, R105, R107). -/
def Dev.join (d : Dev) (h : Fin 32) (a b : Move) : Dev :=
  if a.started then d.joinStop h a b
  else
    let e := a.seg.at a.len a.len
    let s := b.seg.at b.len 0
    let phi := turn e.2.2.1 e.2.2.2 s.2.2.1 s.2.2.2
    let blend := a.blend && d.getB (headB h) R.DRF_CTL 8
    let sky := a.sky && d.getB (headB h) R.DRF_CTL 9
    if rabs phi < a.turnS then (if blend then d.joinBlend h a b phi else d.joinStop h a b)
    else if sky then d.joinSky h a b
    else if blend then d.joinBlend h a b phi
    else d.joinStop h a b

/-- A laser-on move enters the queue (R95, R98, R114). `jump` forces a jump to its start. -/
def Dev.enterMark (d : Dev) (h : Fin 32) (b : Move) (jump : Bool) (fadeIn : Nat) : Dev :=
  let s := b.seg.at b.len 0
  let f := d.heads[h].drf
  let gap := vlen (s.1 - f.endX) (s.2.1 - f.endY)
  let d1 := if jump ∨ ((d.getF (headB h) R.DRF_GAP_TOL 15 0 : Nat) : Rat) < gap then
      d.pushJump h s.1 s.2.1 (d.bobBuf b.bob b.buf) b.id b.idx b.pool b.bob b.buf b.focus 0
    else d
  let m := { b with run := d1.heads[h].drf.runNo }
  let d2 := match d1.heads[h].drf.lastMark with
    | some a => d1.join h a m
    | none => (d1.postOn h { entOf d1.heads[h].drf.arcEnd 4 m with fade := fadeIn }).push h m
  d2.drfMod h fun x => { x with open_ := true }

/-- What does not fit waits in the fetch queue (R114): the queue holds 32 moves, the Drafter 48 entries. -/
def Dev.fits (d new : Dev) (h : Fin 32) : Dev :=
  if new.heads[h].drf.moves.length ≤ 32 ∧ new.heads[h].held ≤ 48 then
    (new.drfMod h fun x => { x with full := false }).planAll h
  else d.drfMod h fun x => { x with full := true }

/-! Records. -/

/-- The mark speed under SPEED_SCALE [nm/µs] and whether it was clamped to 20 m/s (R66). -/
def markSpeed (x : BobBuf) (scale : Nat) : Rat × Bool :=
  let v : Rat := ((x.nat 0x44 * scale : Nat) : Rat) / 32768 / 1000
  if 20000 < v then (20000, true) else (v, false)

/-- Fields of a laser-on record on a move. -/
def Move.asMark (m : Move) (w0 : Word) (pwr : Nat) (blend : Bool) : Move :=
  { m with laser := true, pwr := pwr, blend := blend, sky := bit w0 13 }

/-- Count a clamp (R66). -/
def Dev.clampCount (d : Dev) (h : Fin 32) (c : Bool) : Dev := if c then d.sumMod h fun x => { x with clamped := x.clamped + 1 } else d

/-- The source of the next record: the granted item, or the head's own list (R98, R196). -/
def Dev.onItem (d : Dev) (h : Fin 32) : Bool :=
  match d.ply.heads[h].item, d.itemOf h with
  | some _, some i => d.heads[h].drf.entered < i.nvec
  | _, _ => false

/-- The records ready to be taken. -/
def Dev.ready_ (d : Dev) (h : Fin 32) : List FRec := if d.onItem h then d.heads[h].drf.items else d.heads[h].drf.fetch

/-- No further record of the source is to come. -/
def Dev.srcOver (d : Dev) (h : Fin 32) : Bool :=
  let f := d.heads[h].drf
  if d.onItem h then (match d.itemOf h with | some i => i.nvec ≤ f.pos | none => true) else f.listLen ≤ f.nextRec

/-- Records are taken from the source. -/
def Dev.take (d : Dev) (h : Fin 32) (n : Nat) : Dev :=
  if d.onItem h then d.drfMod h fun x => { x with items := x.items.drop n, entered := x.entered + n, first_ := false }
  else d.drfMod h fun x => { x with fetch := x.fetch.drop n }

/-- Records of the source are passed by, those not fetched yet too (R69). -/
def Dev.skipRecs (d : Dev) (h : Fin 32) (n : Nat) : Dev :=
  if d.onItem h then d.drfMod h fun x =>
    let a := n - x.items.length
    { x with
      items := x.items.drop n, handOver := x.handOver.drop a, pos := x.pos + (a - x.handOver.length), entered := x.entered + n,
      first_ := false }
  else d.drfMod h fun x => { x with fetch := x.fetch.drop n, nextRec := x.nextRec + (n - x.fetch.length) }

/-- Records of the source behind its next one. -/
def Dev.behind (d : Dev) (h : Fin 32) (r : FRec) : Nat :=
  if d.onItem h then (match d.itemOf h with | some i => i.nvec - d.heads[h].drf.entered - 1 | none => 0)
  else d.heads[h].drf.listLen - (r.idx + 1)

/-- The cross-fade that an item's first and last record carry (R209). -/
def Dev.fades_ (d : Dev) (h : Fin 32) (n : Nat) : Nat × Nat :=
  match d.onItem h, d.itemOf h with
  | true, some i => (if d.heads[h].drf.first_ then i.fadeIn else 0, if d.heads[h].drf.entered + n = i.nvec then i.fadeOut else 0)
  | _, _ => (0, 0)

/-- Consecutive equal vertices fall together (R96). -/
def distinct (l : List (Int × Int)) : List (Int × Int) := l.foldr (fun p t => if t.head? = some p then t else p :: t) []

/-- A point with rational coordinates. -/
def rp (p : Int × Int) : Rat × Rat := (((p.1 : Int) : Rat), ((p.2 : Int) : Rat))

/-- A line segment between two points and its length. -/
def lineSeg (p q : Rat × Rat) : Seg × Rat := (.line p.1 p.2 q.1 q.2, vlen (q.1 - p.1) (q.2 - p.2))

/-- The start of a mark: its own, or the preceding end where the gap is closed (R95). -/
def Dev.startAt (d : Dev) (h : Fin 32) (p : Rat × Rat) (jump : Bool) : (Rat × Rat) × Bool :=
  let f := d.heads[h].drf
  let gap := vlen (p.1 - f.endX) (p.2 - f.endY)
  if jump ∨ ((d.getF (headB h) R.DRF_GAP_TOL 15 0 : Nat) : Rat) < gap then (p, true) else ((f.endX, f.endY), false)

/-- The inserted jump to a point lies in the covered field. -/
def Dev.jumpCovered (d : Dev) (h : Fin 32) (p : Rat × Rat) : Bool :=
  let f := d.heads[h].drf
  let g := lineSeg (f.endX, f.endY) p
  d.segCovered h g.1 g.2

/-- A mark line or an arc (R94 to R96). A record that is rejected binds to nothing, so a pending buffer stays pending (log 35, DESIGN
CHOICE). -/
def Dev.takeMark (d : Dev) (h : Fin 32) (r : FRec) (arc : Bool) : Dev :=
  let w := r.w
  let w0 := w.getD 0 0
  let bob := fld w0 11 4
  let bd := d.bind bob
  let x := bd.1.bobBuf bob bd.2
  let ctl := if arc then w.getD 7 0 else w.getD 6 0
  let sp := markSpeed x (fld ctl 31 16)
  let st := bd.1.startAt h (rp (rword w 2, rword w 3)) d.heads[h].drf.first_
  let c := rp (rword w 4, rword w 5)
  let fd := d.fades_ h 1
  let focus := x.int 0x48 + (if arc then 0 else rword w 7)
  if arc then
    let sweepU := rword w 6
    let sweep := sweepRad sweepU
    let ux := st.1.1 - c.1
    let uy := st.1.2 - c.2
    let rad := vlen ux uy
    let r0 := vlen (((rword w 2 - rword w 4 : Int) : Rat)) (((rword w 3 - rword w 5 : Int) : Rat))
    let len := quant (rad * rabs sweep)
    let g : Seg := .arc c.1 c.2 ux uy sweep
    if sweepU.natAbs = 0 ∨ 6283185 < sweepU.natAbs ∨ r0 < 1000 ∨ ¬ x.motionOk ∨ ¬ d.segCovered h g len ∨
        (st.2 ∧ ¬ d.jumpCovered h st.1) then (d.take h 1).reject h r 1
    else
      let lat := d.latSpeed h rad
      let e := if lat < sp.1 then bd.1.bump (headB h) R.DRF_LATCNT else bd.1
      let m := (mkMove .mark g len (lower sp.1 lat) x (w.getD 1 0) r.idx r.pool bob bd.2 focus).asMark w0 (fld ctl 15 0) (bit w0 12)
      d.fits (((e.clampCount h sp.2).enterMark h { m with done := 1, fade := fd.2 } st.2 fd.1).take h 1) h
  else
    let q := rp (rword w 4, rword w 5)
    let g := lineSeg st.1 q
    if ¬ x.motionOk ∨ ¬ d.segCovered h g.1 g.2 ∨ (st.2 ∧ ¬ d.jumpCovered h st.1) then (d.take h 1).reject h r 1
    else if rword w 2 = rword w 4 ∧ rword w 3 = rword w 5 then (bd.1.take h 1).recordDone h r.pool r.idx 1
    else
      let m := (mkMove .mark g.1 g.2 sp.1 x (w.getD 1 0) r.idx r.pool bob bd.2 focus).asMark w0 (fld ctl 15 0) (bit w0 12)
      d.fits (((bd.1.clampCount h sp.2).enterMark h { m with done := 1, fade := fd.2 } st.2 fd.1).take h 1) h

/-- The next segment of the polyline that is being taken (R94). -/
def Dev.polyNext (d : Dev) (h : Fin 32) (p : Poly) (jump : Bool) (fadeIn : Nat) (start : Rat × Rat) : Dev :=
  match p.pts with
  | [] => d.drfMod h fun x => { x with poly := none }
  | q :: rest =>
    let x := d.bobBuf p.bob p.buf
    let w0 := p.first.getD 0 0
    let ctl := p.first.getD 6 0
    let sp := markSpeed x (fld ctl 31 16)
    let g := lineSeg start (rp q)
    let last := rest.isEmpty
    let m := (mkMove .mark g.1 g.2 sp.1 x (p.first.getD 1 0) p.idx p.pool p.bob p.buf (x.int 0x48 + rword p.first 7)).asMark
      w0 (fld ctl 15 0) (if last then bit w0 12 else true)
    let d1 := d.enterMark h { m with done := if last then p.recs else 0, fade := if last then p.fade else 0 } jump fadeIn
    d1.drfMod h fun y => { y with poly := if last then none else some { p with pts := rest } }

/-- A polyline (R69, R94, R96): taken whole once its continuation records are here or cannot come. -/
def Dev.takePoly (d : Dev) (h : Fin 32) (r : FRec) : Dev :=
  let w := r.w
  let n := rcount w
  let rs := (d.ready_ h).drop 1
  let cs := (rs.take n).takeWhile fun c => rkind c.w = 6 ∧ ¬ c.poison
  if n = 0 then (d.take h 1).reject h r 1
  else if cs.length < n ∧ rs.length < n ∧ cs.length = rs.length ∧ ¬ d.srcOver h then d
  else
    let bad : Bool := !d.named (fld (w.getD 0 0) 11 4) || cs.length < n || cs.any fun c => rcount c.w = 0 || 3 < rcount c.w
    let gone := 1 + ((rs.take n).takeWhile fun c => rkind c.w = 6).length
    let bob := fld (w.getD 0 0) 11 4
    let bd := d.bind bob
    let x := bd.1.bobBuf bob bd.2
    let pts := distinct ((rword w 2, rword w 3) :: (rword w 4, rword w 5) :: cs.flatMap fun c => contPts c.w)
    let st := bd.1.startAt h (rp (rword w 2, rword w 3)) d.heads[h].drf.first_
    let path := (st.1 :: (pts.drop 1).map rp)
    let cov := (path.zip (path.drop 1)).all fun e => let g := lineSeg e.1 e.2; d.segCovered h g.1 g.2
    if bad ∨ ¬ x.motionOk ∨ ¬ cov ∨ (st.2 ∧ ¬ d.jumpCovered h st.1) then
      (d.take h gone).reject h { r with poison := r.poison || ((rs.take n).any fun c => c.poison) } gone
    else if pts.length < 2 then (bd.1.take h (1 + n)).recordDone h r.pool r.idx (1 + n)
    else
      let fd := d.fades_ h (1 + n)
      let p : Poly := ⟨pts.drop 1, w, r.idx, r.pool, bob, bd.2, fd.2, 1 + n⟩
      let sp := markSpeed x (fld (w.getD 6 0) 31 16)
      d.fits ((((bd.1.clampCount h sp.2).polyNext h p st.2 fd.1 st.1)).take h (1 + n)) h

/-- A jump (R94). -/
def Dev.takeJump (d : Dev) (h : Fin 32) (r : FRec) : Dev :=
  let w := r.w
  let bob := fld (w.getD 0 0) 11 4
  let bd := d.bind bob
  let x := bd.1.bobBuf bob bd.2
  let q := rp (rword w 4, rword w 5)
  if ¬ x.motionOk ∨ ¬ d.jumpCovered h q then (d.take h 1).reject h r 1
  else d.fits ((bd.1.pushJump h q.1 q.2 x (w.getD 1 0) r.idx r.pool bob bd.2 (x.int 0x48) 1).take h 1) h

/-- A dwell (R94 to R96, R114). -/
def Dev.takeDwell (d : Dev) (h : Fin 32) (r : FRec) : Dev :=
  let w := r.w
  let w0 := w.getD 0 0
  let bob := fld w0 11 4
  let bd := d.bind bob
  let x := bd.1.bobBuf bob bd.2
  let p := rp (rword w 2, rword w 3)
  let f := d.heads[h].drf
  let jump : Bool := f.first_ || p.1 ≠ f.endX || p.2 ≠ f.endY
  if ¬ x.motionOk ∨ (jump ∧ ¬ d.jumpCovered h p) then (d.take h 1).reject h r 1
  else if w.getD 6 0 = 0 then (bd.1.take h 1).recordDone h r.pool r.idx 1
  else
    let d1 := if jump then bd.1.pushJump h p.1 p.2 x (w.getD 1 0) r.idx r.pool bob bd.2 (x.int 0x48) 0 else bd.1.closeRun h
    let run := d1.heads[h].drf.runNo
    let m := { mkMove .dwell (.line p.1 p.2 p.1 p.2) 0 0 x (w.getD 1 0) r.idx r.pool bob bd.2 (x.int 0x48) with
      laser := bit w0 14, pwr := fld (w.getD 7 0) 15 0, durNs := (w.getD 6 0).toNat, done := 1, run := run }
    let at_ := d1.heads[h].drf.arcEnd
    let d2 := if bit w0 14 then (d1.postOn h (entOf at_ 5 m)).post_ h { entOf at_ 6 m with dur := m.durNs } else d1
    d.fits ((d2.push h m).take h 1) h

/-- A wait-for-ply record (R94, R191). -/
def Dev.takeWait (d : Dev) (h : Fin 32) (r : FRec) : Dev :=
  let zone := fld (r.w.getD 6 0) 7 0
  if d.ply.zones.length ≤ zone then (d.take h 1).reject h r 1
  else
    let d1 := d.closeRun h
    let f := d1.heads[h].drf
    let m := { mkMove .wait (.line f.endX f.endY f.endX f.endY) 0 0 ⟨[], false⟩ (r.w.getD 1 0) r.idx r.pool 0 false 0 with
      zone := zone, done := 1 }
    d.fits ((((d1.push h m).take h 1)).drfMod h fun x => { x with runNo := x.runNo + 1 }) h

/-- The box of the moves of a run, grown by PLY_BOX_MARGIN (R199). -/
def Dev.runBox (d : Dev) (ms : List Move) (run : Nat) : PBox :=
  let ps := (ms.filter fun m => m.run = run).flatMap fun m => m.seg.extremes m.len
  let g : Int := (d.getN plyB R.PLY_BOX_MARGIN : Nat)
  let lo (l : List Rat) : Rat := l.foldl (fun a b => if b < a then b else a) (l.headD 0)
  let hi (l : List Rat) : Rat := l.foldl (fun a b => if a < b then b else a) (l.headD 0)
  let xs := ps.map (·.1)
  let ys := ps.map (·.2)
  ⟨(lo xs).floor - g, (lo ys).floor - g, (hi xs).ceil + g, (hi ys).ceil + g, run, none⟩

/-- A box lies inside another. -/
def PBox.inside (a b : PBox) : Bool := b.x0 ≤ a.x0 && b.y0 ≤ a.y0 && a.x1 ≤ b.x1 && a.y1 ≤ b.y1

/-- The smallest box around two. -/
def PBox.join (a b : PBox) : PBox := { a with x0 := min a.x0 b.x0, y0 := min a.y0 b.y0, x1 := max a.x1 b.x1, y1 := max a.y1 b.y1 }

/-- The last queued move belongs to the run that is still to end. -/
def Drf.inRun (f : Drf) : Bool := f.open_ || (match f.moves.getLast? with
  | some m => m.kind = .dwell && m.run = f.runNo
  | none => false)

/-- The end of the list is reached with every record queued: the run is complete (R97, R114). -/
def Dev.listEnd (d : Dev) (h : Fin 32) : Dev :=
  let f := d.heads[h].drf
  if f.inRun ∧ f.poly.isNone ∧ (d.ready_ h).isEmpty ∧ d.srcOver h ∧ ¬ d.onItem h then
    (d.closeRun h).drfMod h fun x => { x with runNo := x.runNo + 1 }
  else d

/-- A wait point is queued. The records behind it follow once it is passed, since an item granted to the head while it holds
there enters before it (R98, R192). -/
def Drf.waits (f : Drf) : Bool := f.moves.any fun m => m.kind = .wait

/-- The next record enters the move queue; what cannot yet enters nothing. -/
def Dev.nextEntry (d : Dev) (h : Fin 32) : Dev :=
  let f := d.heads[h].drf
  match f.poly with
  | some p => d.fits (d.polyNext h p false 0 (f.endX, f.endY)) h
  | none =>
    if f.waits then d
    else match d.ready_ h with
    | [] => d
    | r :: _ =>
      let k := rkind r.w
      let bob := fld (r.w.getD 0 0) 11 4
      let named := k = 5 ∨ d.named bob
      if ¬ r.poison ∧ k = 7 then
        let n := 1 + min (fld (r.w.getD 3 0) 19 8) (d.behind h r)
        (d.skipRecs h n).reject h r n
      else if r.poison ∨ (¬ named ∧ k ≠ 1) ∨ k = 6 ∨ 7 ≤ k ∨ (k = 5 ∧ r.pool) then (d.take h 1).reject h r 1
      else match k with
        | 0 => d.takeMark h r false
        | 1 => d.takePoly h r
        | 2 => d.takeMark h r true
        | 3 => d.takeJump h r
        | 4 => d.takeDwell h r
        | _ => d.takeWait h r

/-- The box that a run's cleared box must grow to for the next record, where it must grow (R201). -/
def Dev.growth (d : Dev) (h : Fin 32) : Option PBox :=
  let new := d.nextEntry h
  let run := d.heads[h].drf.runNo
  let old := d.heads[h].drf.moves.length
  let added := (new.heads[h].drf.moves.drop (old - 1)).any fun m => m.run = run
  match d.ply.heads[h].boxes.find? fun b => b.run = run with
  | none => none
  | some b =>
    let g := d.runBox new.heads[h].drf.moves run
    if d.exclOn && added && !g.inside b then some (g.join b) else none

/-- The Drafter takes records: it runs in a layer and is neither done nor holding for an abort. -/
def Dev.taking (d : Dev) (h : Fin 32) : Bool :=
  d.up (headB h) && d.heads[h].drf.inLayer && d.heads[h].drf.st ≠ 6 && d.heads[h].drf.st ≠ 7 && d.headRuns h

/-- Item records move from SDRAM into the hand-over ring of 256, and from it into the fetch queue of 256 ahead of the own records
they displace; own records that find no room beside them leave the queue and are fetched again (R93, R196; log 35, DESIGN CHOICE). -/
def Dev.ringFill (d : Dev) (m : Mem) (h : Fin 32) : Dev :=
  match d.ply.heads[h].item, d.itemOf h with
  | some _, some i =>
    let f := d.heads[h].drf
    let n := min (256 - f.handOver.length) (i.nvec - f.pos)
    let recs := (List.range n).map fun j =>
      let ix := i.start + f.pos + j
      match d.poolRec m ix with
      | some w => (⟨w, ix, true, false⟩ : FRec)
      | none => ⟨[], ix, true, true⟩
    let q := f.handOver ++ recs
    let k := 256 - f.items.length
    let room := k - q.length
    d.drfMod h fun x => { x with
      items := x.items ++ q.take k, handOver := q.drop k, pos := x.pos + n, fetch := x.fetch.take room,
      nextRec := x.nextRec - (x.fetch.length - room) }
  | _, _ => d

/-- The bobbins that the records ready to be taken name. -/
def Dev.readyBobs (d : Dev) (h : Fin 32) : List Nat := ((d.ready_ h).map fun r => fld (r.w.getD 0 0) 11 4).eraseDups

/-- Loads of this cycle into those bobbins take effect before the bindings of this command (R79). -/
def bindLoads (m : Mem) (d : Dev) (h : Fin 32) (pending : List Instr) : Mem × Dev :=
  if pending = [] then (m, d) else (d.readyBobs h).foldl (fun x b => loadsFirst x.1 x.2 b pending) (m, d)

/-- MOVE_QUEUE_ENTRY (R94, R114): a record that would leave its run's cleared box waits for the extension (R201). -/
def execMoveQueueEntry (h : Fin 32) (s : State) : Host.Outcome State Fault Refusal :=
  onLiveMem (fun m d =>
    if ¬ d.taking h ∨ (d.webLayer ∧ ¬ d.heads[h].trv.webRun) then (m, d)
    else
      let d1 := d.ringFill m h
      match d1.growth h with
      | some _ => (m, d1)
      | none =>
        let x := bindLoads m d1 h s.pending
        (x.1, ((x.2.nextEntry h).listEnd h).corAsk h)) s

/-- Once a wait point is passed, the records that waited behind it enter the move queue (R93, R98; log 35, DEDUCED). -/
def pump : Nat → Dev → Fin 32 → Dev
  | 0, d, _ => d
  | n + 1, d, h =>
    let f := d.heads[h].drf
    if ¬ d.taking h ∨ f.waits ∨ f.full ∨ (f.poly.isNone ∧ (d.ready_ h).isEmpty) ∨ (d.growth h).isSome then d
    else pump n (((d.nextEntry h).listEnd h).corAsk h) h

/-- VECTOR_FETCH (R93, R119): one record into the fetch queue. A read that fails leaves the record to a later fetch; one that is not
answered in time is RESPONSE_TIMEOUT's. -/
def execVectorFetch (h : Fin 32) (s : State) : Host.Outcome State Fault Refusal :=
  onLiveMem (fun m d =>
    let f := d.heads[h].drf
    if ¬ d.taking h ∨ f.listLen ≤ f.nextRec ∨ 256 ≤ f.fetch.length + f.items.length ∨ (d.webLayer ∧ ¬ d.heads[h].trv.webRun) then (m, d)
    else
      let a := f.listAddr + 32 * f.nextRec
      let st := d.sdStatus m a 32 false
      if st = 0 ∨ st = 4 then
        let r : FRec := ⟨bytesWords (m.bytes a 32), f.nextRec, false, st = 4⟩
        (m, d.drfMod h fun x => { x with fetch := x.fetch ++ [r], nextRec := x.nextRec + 1, fetchBad := 0 })
      else (m, d.sdMark (headB h) a 32)) s

/-- A vector fetch ends with status 0x5 (R119): the first failure has it issued once more, the second raises FETCH_TIMEOUT. -/
def Dev.fetchLate (d : Dev) (h : Fin 32) : Dev :=
  let d1 := d.drfMod h fun x => { x with fetchBad := min 2 (x.fetchBad + 1) }
  if d.heads[h].drf.fetchBad = 1 then d1.raise (headB h) none 1 else d1

end Sys2Proof.Machine
end

