-- ==== Sys2Proof/Machine/DrafterTick.lean ====
section
/-! DEFINITION. The Drafter in time (R101, R107 to R119): starting and ending moves, hold points, setpoints at each servo
tick, aborts, clearances and extensions, and the loss of a head (R212 to R215). -/

namespace Sys2Proof.Machine

/-! Hold points (R116). -/

/-- A move at whose end the head may hold: a jump of no run, an inserted one of zero length, a wait point. -/
def Move.holdEnd (m : Move) : Bool := m.kind = .wait || ((m.kind = .jump || m.kind = .hold) && m.run = 0)

/-- A run ends here: its last LASER_OFF is posted, and a zero-length jump is the hold point (R116 step 3, R201). -/
def Dev.endRun (d : Dev) (h : Fin 32) : Dev :=
  let last := d.heads[h].drf.moves.getLast?
  let d1 := d.closeRun h
  let f := d1.heads[h].drf
  match last with
  | none => d1.drfMod h fun x => { x with runNo := x.runNo + 1 }
  | some a =>
    let m := { a with
      kind := .hold, seg := .line f.endX f.endY f.endX f.endY, len := 0, laser := false, cont := false, phases := [],
      started := false, t := 0, done := 0, run := 0, fade := 0 }
    ((d1.push h m).drfMod h fun x => { x with runNo := x.runNo + 1 }).planAll h

/-- Every move of a run is queued: what ends it has entered or the list ends, or the queue can take no further move (R97). -/
def Dev.runReady (d : Dev) (h : Fin 32) (run : Nat) : Bool :=
  let f := d.heads[h].drf
  run < f.runNo || f.full || f.moves.length = 32 || (f.poly.isNone && (d.ready_ h).isEmpty && d.srcOver h && !d.onItem h)

/-- A run exposes: some queued move of it has its laser on. -/
def Drf.exposes (f : Drf) (run : Nat) : Bool := f.moves.any fun m => m.laser && m.run = run

/-- The head's list, its granted item and its queue are exhausted (R193). -/
def Dev.listOver (d : Dev) (h : Fin 32) : Bool :=
  let f := d.heads[h].drf
  f.moves.isEmpty && f.poly.isNone && !d.onItem h && f.fetch.isEmpty && f.listLen ≤ f.nextRec

/-- The entry that turns the laser on for a run. -/
def Dev.runOn (d : Dev) (h : Fin 32) (run : Nat) : Option Ent :=
  d.heads[h].trv.sched.find? fun e => (e.kind = 4 ∨ e.kind = 5) ∧ e.run = run

/-- No move of the layer, or of the product, has started: the head runs and stands at no hold point, for a hold point is the
end of a jump (R116 step 1; log 35, DEDUCED). -/
def Drf.fresh (f : Drf) : Bool := f.st = 1 && f.trail.isEmpty && f.moves.all fun m => !m.started

/-- The hold that applies at a hold point, 0 for none (R116): 4 HOSTHOLD, 2 UNDERRUN, 3 PLYWAIT, 5 ADMIT. -/
def Dev.holdCode (d : Dev) (h : Fin 32) : Nat :=
  let f := d.heads[h].drf
  let free : Bool := f.fresh && (match f.moves with
    | m :: _ => m.kind = .jump
    | [] => !d.listOver h)
  if free then 0
  else if d.getB (headB h) R.DRF_CTL 0 then 4
  else if f.owed then 2
  else match f.moves with
    | [] => if d.listOver h then (if d.webLayer then 0 else 3) else 2
    | m :: _ =>
      if m.kind = .jump ∨ m.kind = .hold ∨ m.kind = .wait then 0
      else if ¬ d.runReady h m.run then 2
      else if f.exposes m.run ∧ d.exclOn ∧ ¬ d.cleared h m.run then 3
      else match d.runOn h m.run with
        | some e => if e.adm ∧ ¬ e.ok then 5 else 0
        | none => 0

/-- The first laser-on after a hold needs admission (R146). -/
def Dev.markAdmit (d : Dev) (h : Fin 32) : Dev :=
  match d.heads[h].drf.moves.find? fun m => m.laser with
  | none => d.drfMod h fun x => { x with needAdm := true }
  | some m =>
    match d.runOn h m.run with
    | none => d.drfMod h fun x => { x with needAdm := true }
    | some e => d.trvMod h fun t => { t with sched := t.sched.map fun x => if x.num = e.num then { x with adm := true } else x }

/-- An underrun begins (R116 step 2). -/
def Dev.underrun (d : Dev) (h : Fin 32) : Dev :=
  let f := d.heads[h].drf
  let item := d.onItem h
  let ix := if item then (match d.itemOf h with | some i => i.start + f.entered | none => 0) else
    (match f.fetch with | r :: _ => r.idx | [] => f.nextRec)
  let d1 := ((d.sumMod h fun x => { x with holds := x.holds + 1 }).bump (headB h) R.DRF_HOLDCNT).put (headB h) R.DRF_HOLD_IDX
    (wd (ix % 2 ^ 24 + item.toNat * 2 ^ 31))
  (d1.drfEvent h 0).drfMod h fun x => { x with holdFrom := some d.now }

/-- An underrun ends (R116 step 4). -/
def Dev.underrunEnd (d : Dev) (h : Fin 32) : Dev :=
  match d.heads[h].drf.holdFrom with
  | none => d
  | some t => ((d.bump (headB h) R.DRF_HOLD_US ((d.now - t) / 800)).drfEvent h 1).drfMod h fun x => { x with holdFrom := none }

/-- Admission requests stand in order of cycle, those of one cycle in order of head (R455). -/
def insertAdm (x : Nat × Nat) : List (Nat × Nat) → List (Nat × Nat)
  | [] => [x]
  | y :: t => if y.1 = x.1 ∧ x.2 < y.2 then x :: y :: t else y :: insertAdm x t

/-- The admission request of R146, made once. -/
def Dev.askAdmit (d : Dev) (h : Fin 32) : Dev :=
  if d.heads[h].drf.admAsk then d
  else { (d.drfMod h fun x => { x with admAsk := true }) with thm := { d.thm with waiting := insertAdm (d.now, h.val) d.thm.waiting } }

/-- The state at a hold point follows the hold that applies (R116). -/
def Dev.holdTo (d : Dev) (h : Fin 32) (code : Nat) : Dev :=
  let was := d.heads[h].drf.st
  let d1 := if was = 2 ∧ code ≠ 2 then d.underrunEnd h else d
  let d2 := if was = 1 ∧ code ≠ 0 ∧ code ≠ 5 then d1.markAdmit h else d1
  let d3 := if was ≠ 2 ∧ code = 2 then d2.underrun h else d2
  let d4 := if code = 5 then d3.askAdmit h else d3
  d4.drfMod h fun x => { x with st := if code = 0 then 1 else code, owed := x.owed && code = 4 }

/-! Moves in time. -/

/-- The latched cap is taken when a move starts (R109): the last one written before this cycle (R110). -/
def Dev.takeCap (d : Dev) (h : Fin 32) : Dev :=
  match (d.heads[h].drf.caps.filter fun c => c.1 < d.now).getLast? with
  | none => d
  | some c =>
    let d1 := d.drfMod h fun x => { x with
      cap := c.2, caps := x.caps.filter fun y => d.now ≤ y.1,
      moves := x.moves.map fun m => if m.started ∨ m.late then m else { m with was := x.cap } }
    (d1.planAll h).putB (headB h) R.DRF_STAT 25 (!d1.heads[h].drf.caps.isEmpty)

/-- Auxiliary targets apply from a move boundary (R113). -/
def Dev.takeAux (d : Dev) (h : Fin 32) : Dev :=
  d.drfMod h fun x => { x with auxTgt := Vector.ofFn fun i => d.getI (headB h) R.DRF_AUX i.val }

/-- The focus target of the moves that follow (R112). -/
def focusOf : List Move → Int → Int
  | m :: ms, z =>
    if m.laser = true ∨ m.kind = .dwell then m.focus
    else focusOf ms (if m.kind = .wait ∨ m.kind = .hold then z else m.focus)
  | [], z => z

/-- The front move starts (R107, R109, R112). -/
def Dev.startMove (d : Dev) (h : Fin 32) : Dev :=
  let d1 := (d.takeCap h).takeAux h
  match d1.heads[h].drf.moves with
  | [] => d1
  | m :: ms =>
    let d2 := d1.drfMod h fun x => { x with
      moves := { m with started := true, t := 0 } :: ms, atHold := false,
      zTgt := ((focusOf (m :: ms) x.zTgt.floor : Int) : Rat) }
    ((d2.put (headB h) R.DRF_CUR_ID m.id).put (headB h) R.DRF_CUR_IDX (wd (m.idx % 2 ^ 24 + m.pool.toNat * 2 ^ 31))).corAsk h

/-- Is an entry of a finished move still to fire? -/
def Trv.awaits (t : Trv) (arc : Int) : Bool :=
  let e (x : Ent) : Bool := !x.src && (x.arc < arc || (x.arc = arc && (x.kind = 1 || x.kind = 6)))
  t.sched.any e || t.edges.any (fun x => e x.ent) || t.dwellAt.any (fun x => e x.2)

/-- Records complete whose moves have ended and whose last event has fired (R196). -/
def Dev.completions (d : Dev) (h : Fin 32) : Dev :=
  let t := d.heads[h].trv
  let ready := d.heads[h].drf.trail.filter fun m => m.done ≠ 0 ∧ ¬ t.awaits (rnd (m.arc0 + m.len))
  let d1 := ready.foldl (fun (e : Dev) m => e.recordDone h m.pool m.idx m.done) d
  let fresh (m : Move) : Move := if t.awaits (rnd (m.arc0 + m.len)) then m else { m with done := 0 }
  d1.drfMod h fun x => { x with trail := x.trail.map fresh }

/-- The front move ends. -/
def Dev.endMove (d : Dev) (h : Fin 32) : Dev :=
  match d.heads[h].drf.moves with
  | [] => d
  | m :: ms =>
    let e := m.seg.at m.len m.len
    let late : Bool := ms.isEmpty && m.laser && d.heads[h].drf.open_
    let d0 := if late then (if d.listOver h then d else d.raise (headB h) none 2).endRun h else d
    d0.drfMod h fun x => { x with
      moves := x.moves.drop 1, trail := x.trail ++ [m], x := e.1, y := e.2.1, vx := 0, vy := 0, ax := 0, ay := 0,
      atHold := x.atHold || m.holdEnd, full := false }

/-- When the final deceleration of a move begins (R116 step 3). -/
def Move.fallAt (m : Move) : Rat :=
  let n := (m.phases.reverse.takeWhile fun p => p.acc < 0).length
  if n = 0 then 0 else phasesTime (m.phases.take (m.phases.length - n))

/-- The last queued move begins its final deceleration, or begins where it has none: without a next record the run ends there (R116
step 3), and an extension that is still unanswered counts as refused (R201). -/
def Dev.supply (d : Dev) (h : Fin 32) (t0 t1 : Rat) : Dev :=
  let f := d.heads[h].drf
  match f.moves with
  | [m] =>
    let begins : Bool := t0 ≤ m.fallAt && m.fallAt ≤ t1
    if ¬ (f.inRun ∧ begins) then d
    else if (d.growth h).isSome then (d.endRun h).agtBump h R.AGT_EXTREF
    else if f.poly.isSome ∨ ¬ (d.ready_ h).isEmpty then d
    else if d.srcOver h ∧ ¬ d.onItem h then d.listEnd h
    else (d.endRun h).drfMod h fun x => { x with owed := true }
  | _ => d

/-- The speed scale of one tick (R108): toward what the correction unit asks for, by no more than the active slope. -/
def Dev.scaleStep (d : Dev) (h : Fin 32) (m : Move) : Rat :=
  let f := d.heads[h].drf
  let v := (phaseAt m.phases m.t).2.1
  let g := m.prof.cap f.cap
  let now := v * f.speed
  let up : Bool := f.speed < f.speedReq
  let a := if up then (if now < g.vB then g.a1 else g.a2) else (if g.vB < now then g.d1 else g.d2)
  let step := if v ≤ 0 then 1 else quant (a / v)
  if up then lower f.speedReq (f.speed + step)
  else if f.speedReq < f.speed - step then f.speed - step else f.speedReq

/-- The laser dwell of a move is over: DWELL_OFF has fired (R138). -/
def Dev.dwellOver (d : Dev) (h : Fin 32) (m : Move) : Bool :=
  let t := d.heads[h].trv
  !(t.sched.any (fun e => (e.kind = 5 ∨ e.kind = 6) ∧ e.run = m.run ∧ e.arc = rnd m.arc0) ||
    t.edges.any (fun e => (e.ent.kind = 5 ∨ e.ent.kind = 6) ∧ e.ent.run = m.run ∧ e.ent.arc = rnd m.arc0) || t.dwellAt.isSome)

/-- The chain of moves advances by `left` µs (R101), stopping at holds. -/
def runMoves : Nat → Dev → Fin 32 → Rat → Dev
  | 0, d, _, _ => d
  | n + 1, d, h, left =>
    let f := d.heads[h].drf
    match f.moves with
    | [] => d
    | m :: _ =>
      if ¬ m.started then
        if f.st = 7 then runMoves n (d.startMove h) h left
        else if f.atHold then
          let code := d.holdCode h
          let d1 := d.holdTo h code
          if code = 0 then runMoves n (d1.startMove h) h left
          else if code = 2 ∧ f.fresh then d
          else d1
        else runMoves n (d.startMove h) h left
      else
        match m.kind with
        | .wait =>
          if f.st = 7 ∨ (d.zoneFree m.zone ∧ ¬ d.getB (headB h) R.DRF_CTL 0) then
            runMoves n (pump 33 (((if f.st = 3 ∨ f.st = 4 then d.holdTo h 0 else d).endMove h).listEnd h) h) h left
          else d.holdTo h (if d.getB (headB h) R.DRF_CTL 0 then 4 else 3)
        | .dwell =>
          let d1 := if m.t = 0 then d.supply h 0 0 else d
          let wait := d1.drfMod h fun x => { x with moves := { m with t := m.t + left } :: x.moves.drop 1 }
          if m.laser then (if d.dwellOver h m then runMoves n (d1.endMove h) h left else wait)
          else if (m.durNs : Rat) / 1000 ≤ m.t + left then
            runMoves n (d1.endMove h) h (m.t + left - (m.durNs : Rat) / 1000)
          else wait
        | _ =>
          let total := phasesTime m.phases
          let s : Rat := if m.laser then f.speed else 1
          let d1 := d.supply h m.t (m.t + s * left)
          if total ≤ m.t + s * left then
            let rest := if s = 0 then 0 else (m.t + s * left - total) / s
            runMoves n (d1.endMove h) h rest
          else d1.drfMod h fun x => { x with moves := { m with t := m.t + s * left } :: x.moves.drop 1 }

/-- The setpoint that the moves give: position, velocity, acceleration, arc position (R101, R108). -/
def Dev.sample (d : Dev) (h : Fin 32) : Dev :=
  let f := d.heads[h].drf
  let b := headB h
  let arcShow (e : Dev) (a : Rat) : Dev :=
    let n := (near a).toNat
    (e.put b R.DRF_ARC_LO (wd n)).put b R.DRF_ARC_HI (wd (n / 2 ^ 32 % 256))
  match f.moves with
  | m :: _ =>
    if ¬ m.started then arcShow (d.drfMod h fun x => { x with vx := 0, vy := 0, ax := 0, ay := 0 }) m.arc0
    else
      let s : Rat := if m.laser then f.speed else 1
      let p := phaseAt m.phases m.t
      let at_ := m.seg.at m.len p.1
      let v := p.2.1 * s
      let a := p.2.2 * s * s
      let cv : Rat := match m.seg with
        | .arc _ _ ux uy sweep => let r := vlen ux uy; if r = 0 then 0 else (if 0 ≤ sweep then v * v / r else -(v * v / r))
        | .line _ _ _ _ => 0
      let tx := at_.2.2.1
      let ty := at_.2.2.2
      arcShow (d.drfMod h fun x => { x with
        x := at_.1, y := at_.2.1, vx := quant (tx * v), vy := quant (ty * v), ax := quant (tx * a - ty * cv),
        ay := quant (ty * a + tx * cv) }) (m.arc0 + p.1)
  | [] => arcShow (d.drfMod h fun x => { x with vx := 0, vy := 0, ax := 0, ay := 0 }) f.arcEnd

/-- Position and speed of a head's web spindle, sampled at a servo tick (R148). -/
def Dev.webSample (d : Dev) (h : Fin 32) (k : Nat) : Int × Int :=
  let m : Fin 64 := Fin.ofNat 64 (fld (d.tget (headB h) R.TRV_WEB_CTL) 5 0)
  match d.heads[h].trv.webAt.find? fun x => x.1 = k with
  | some x => x.2
  | none => (d.mpos m, d.mspeed m)

/-- The displacement of the product in web mode [nm] and its velocity [nm/µs], along bed axes, at a servo tick (R148). -/
def Dev.webShift (d : Dev) (h : Fin 32) (tick : Nat) : (Rat × Rat) × (Rat × Rat) :=
  match d.webLayer, d.heads[h].trv.product with
  | true, some p =>
    let ctl := d.tget (headB h) R.TRV_WEB_CTL
    let q := d.webSample h tick
    let k : Rat := (((d.tget (headB h) R.TRV_WEB_SCALE).toNat : Nat) : Rat) / 65536
    let c := ((q.1 - p.trig : Int) : Rat) * k
    let v := ((q.2 : Int) : Rat) * k / 1000000
    let dir : Rat × Rat := match fld ctl 9 8 with
      | 0 => (1, 0)
      | 1 => (-1, 0)
      | 2 => (0, 1)
      | _ => (0, -1)
    ((c * dir.1, c * dir.2), (v * dir.1, v * dir.2))
  | _, _ => ((0, 0), (0, 0))

/-- The point of the field map that the setpoints of a head stand at. -/
def Dev.mapAt (d : Dev) (h : Fin 32) : Option MapPt :=
  (d.fmap h).map fun fm => fm.fwd ((d.cells[headCell h 0].sp : Rat) / 256) ((d.cells[headCell h 1].sp : Rat) / 256)

/-- The bed point that the setpoints of a head stand at. -/
def Dev.bedAt (d : Dev) (h : Fin 32) (fr : Frame) : Rat × Rat :=
  match d.mapAt h with
  | none => (0, 0)
  | some p => fr.bed p.x p.y

/-- The Drafter's focus that the setpoint of SPINDLE[6n+2] stands for (R112). -/
def Dev.focusAt (d : Dev) (h : Fin 32) : Rat :=
  match d.mapAt h with
  | none => d.heads[h].drf.z
  | some p => (d.cells[headCell h 2].sp : Rat) / 256 - p.z

/-- The Drafter takes the measured angle of cells that have just entered RUN as its present setpoint (R165): the auxiliary axes
and the focus slew on from it, a head with no move queued starts its next path there (log 30, DEDUCED). -/
def Dev.adopt (d : Dev) (h : Fin 32) : Dev :=
  let new (r : Nat) : Bool := d.cells[headCell h r].adopt
  let d1 := d.drfMod h fun x => { x with
    auxNow := Vector.ofFn fun i => if new (3 + i.val) then d.cells[headCell h (3 + i.val)].sp else x.auxNow[i] }
  let d2 := (List.range 3).foldl (fun (e : Dev) r => e.cellMod (headCell h (3 + r)) fun c => { c with adopt := false }) d1
  let f := d.heads[h].drf
  match d.running with
  | some k =>
    if ¬ f.inLayer then d2
    else
      let d3 := if new 2 then d2.drfMod h fun x => { x with z := d.focusAt h } else d2
      if (new 0 ∨ new 1) ∧ f.moves.isEmpty then
        let p := d.bedAt h k.frame
        d3.drfMod h fun x => { x with x := p.1, y := p.2, endX := p.1, endY := p.2 }
      else d3
  | none => d2

/-- A setpoint reaches a cell (R111, R165). A cell that has just entered RUN keeps its measured angle for this tick. -/
def Dev.setSp (d : Dev) (i : Fin 256) (sp v a : Rat) : Dev :=
  d.cellMod i fun c =>
    if c.adopt then { c with adopt := false, spV := 0, spA := 0 }
    else { c with sp := rnd sp, spV := rnd v, spA := rnd a }

/-- Setpoints of an idle head: the last ones, without feed-forward (R165). -/
def Dev.idleSp (d : Dev) (h : Fin 32) : Dev :=
  (List.range 6).foldl (fun (e : Dev) r => e.cellMod (headCell h r) fun c => { c with adopt := false, spV := 0, spA := 0 }) d

/-- One step of a slewed value. -/
def slewTo (now tgt step : Rat) : Rat := if rabs (tgt - now) ≤ step then tgt else if now < tgt then now + step else now - step

/-- Focus and auxiliary axes of one tick (R112, R113). A head with no move queued takes new auxiliary targets at every tick, since no
move boundary lies ahead of it (log 35, DESIGN CHOICE). -/
def Dev.axes (d : Dev) (h : Fin 32) : Dev :=
  let f := d.heads[h].drf
  let d0 := if f.moves.isEmpty then d.takeAux h else d
  let zs : Rat := ((d.getN (headB h) R.DRF_Z_SLEW : Nat) : Rat) / 1000
  let as : Int := (d.getF (headB h) R.DRF_AUX_SLEW 15 0 : Nat)
  d0.drfMod h fun x => { x with
    z := slewTo x.z x.zTgt zs, auxNow := Vector.ofFn fun i => x.auxNow[i] + clampI (-as) as (x.auxTgt[i] - x.auxNow[i]) }

/-- The auxiliary setpoints of one tick. -/
def Dev.auxSend (d : Dev) (h : Fin 32) : Dev :=
  (List.finRange 3).foldl (fun (e : Dev) i =>
    e.setSp (headCell h (3 + i.val)) ((e.heads[h].drf.auxNow[i] : Int) : Rat) 0 0) d

/-- The setpoints of one tick to the SERVO cells (R111, R112, R148). -/
def Dev.sendSp (d : Dev) (h : Fin 32) : Dev :=
  match d.fmap h, d.running with
  | some fm, some k =>
    let f := d.heads[h].drf
    let w := d.webShift h d.tick
    let fr := k.frame
    let q := fr.mach (f.x + w.1.1) (f.y + w.1.2)
    let a := fm.inv q.1 q.2
    let p := fm.fwd a.1 a.2
    let v := let u := fr.machDir (f.vx + w.2.1) (f.vy + w.2.2); p.solve u.1 u.2
    let c := let u := fr.machDir f.ax f.ay; p.solve u.1 u.2
    let z := f.z + p.z
    let d1 := d.setSp (headCell h 0) (a.1 * 256) (v.1 * 65536) (c.1 * 16777216)
    let d2 := (d1.setSp (headCell h 1) (a.2 * 256) (v.2 * 65536) (c.2 * 16777216)).setSp (headCell h 2) (z * 256) 0 0
    ((d2.put (headB h) R.DRF_POS_X (wi (rnd f.x))).put (headB h) R.DRF_POS_Y (wi (rnd f.y))).put (headB h) R.DRF_POS_Z
      (wi (rnd z))
  | _, _ => d.idleSp h

/-! Clearance (R199, R201, R205). -/

/-- The first run for which a clearance is due: complete under R97, and not cleared; a head has one request at a time. -/
def Dev.wantsClear (d : Dev) (h : Fin 32) : Option Nat :=
  if ¬ d.exclOn ∨ d.ply.heads[h].req.isSome ∨ d.heads[h].drf.st = 7 then none
  else (d.heads[h].drf.moves.find? fun m => m.laser ∧ ¬ m.started ∧ d.runReady h m.run ∧ ¬ d.cleared h m.run).map (·.run)

/-- CLEARANCE_REQUEST (R199, R205). -/
def execClearanceRequest (h : Fin 32) (s : State) : Host.Outcome State Fault Refusal :=
  onLive (fun d =>
    match d.wantsClear h with
    | none => d
    | some run =>
      d.when (d.up plyB && d.up (agtB h) && d.headRuns h) fun d => d.request h (d.runBox d.heads[h].drf.moves run)) s

/-- EXTENSION (R201): the cleared box grows, or the run ends at the last queued move. -/
def execExtension (h : Fin 32) (s : State) : Host.Outcome State Fault Refusal :=
  onLive (fun d =>
    match d.taking h, d.growth h with
    | true, some g =>
      d.when (d.up plyB) fun d =>
        if d.ply.hitsBoxes h g ∨ d.ply.hitsHolder h g then (d.endRun h).agtBump h R.AGT_EXTREF
        else (d.phMod h fun x => { x with boxes := x.boxes.map fun b => if b.run = g.run then { g with off := b.off } else b })
    | _, _ => d) s

/-! Offers (R192, R197). -/

/-- The wait point at which the head holds. -/
def Drf.atWait (f : Drf) : Option Move :=
  match f.moves with
  | w :: _ => if w.kind = .wait ∧ w.started then some w else none
  | [] => none

/-- The own record that comes next, among which a wait point at which the head holds counts (R192): its index, one beyond the list
at its end. -/
def Dev.slotNo (d : Dev) (h : Fin 32) : Nat :=
  let f := d.heads[h].drf
  match f.atWait, f.fetch with
  | some w, _ => w.idx
  | none, r :: _ => r.idx
  | none, [] => f.nextRec

/-- The next own record is one in whose place an item may enter (R98, R192). -/
def Dev.slotOpen (d : Dev) (h : Fin 32) : Bool :=
  let f := d.heads[h].drf
  d.taking h && !d.webLayer && f.poly.isNone && !f.waits && !d.onItem h && d.ply.heads[h].grant.isNone && (match f.fetch with
      | r :: _ => !r.poison && (rkind r.w = 3 || rkind r.w = 5)
      | [] => f.listLen ≤ f.nextRec)

/-- A standing offer: the head holds at a wait point or at the end of its list (R192). -/
def Dev.standing (d : Dev) (h : Fin 32) : Bool :=
  let f := d.heads[h].drf
  d.taking h && !d.webLayer && f.st = 3 && f.poly.isNone && !d.onItem h && d.ply.heads[h].grant.isNone && (match f.moves with
      | [] => d.listOver h
      | m :: _ => m.kind = .wait && m.started)

/-- OFFER (R192, R195). -/
def execOffer (h : Fin 32) (s : State) : Host.Outcome State Fault Refusal :=
  onLive (fun d => d.when (d.up plyB && d.up (agtB h) && d.slotOpen h) fun d => d.offer h (d.slotNo h)) s

/-- STANDING_OFFER_EVAL (R192): the wait point counts as an own record that has not yet entered. -/
def execStandingOfferEval (h : Fin 32) (s : State) : Host.Outcome State Fault Refusal :=
  onLive (fun d => d.when (d.up plyB && d.up (agtB h) && d.standing h) fun d => d.offer h (d.slotNo h)) s

/-- GRANT (R196, R197): the grant reaches the agent; its slot is still open, or the item goes back. -/
def execGrant (h : Fin 32) (s : State) : Host.Outcome State Fault Refusal :=
  onLiveMem (fun m d =>
    match d.ply.heads[h].grant with
    | none => (m, d)
    | some (ix, slot) =>
      if ¬ d.up (agtB h) then (m, d)
      else
        let d1 := d.phMod h fun x => { x with grant := none }
        let okSlot : Bool := (d1.slotOpen h || d1.standing h) && d1.slotNo h = slot
        if ¬ okSlot then (m, (d1.itemBack ix).agtBump h R.AGT_RETURNED)
        else
          let back := d1.heads[h].drf.atWait
          let d2 := (d1.phMod h fun x => { x with item := some ix, items := x.items ++ [(ix, [])] }).drfMod h fun x => { x with
            entered := 0, pos := 0, items := [], handOver := [], first_ := true }
          let n := match d2.itemOf h with | some i => i.nvec | none => 0
          let id := match d2.itemOf h with | some i => i.id | none => 0
          let d3 := if back.isSome then d2.drfMod h fun x => { x with moves := x.moves.drop 1, atHold := true } else d2
          let d4 := ((d3.put (agtB h) R.AGT_ITEM_ID id (h.val % 4)).put (agtB h) R.AGT_ITEM_REC (wd (n * 65536)) (h.val % 4)).agtBump
            h R.AGT_TAKEN
          let d5 := d4.sumMod h fun x => { x with plyTaken := x.plyTaken + 1 }
          let d6 := match back with
            | some w => d5.drfMod h fun x => { x with fetch := ⟨[5, w.id, 0, 0, 0, 0, wd w.zone, 0], w.idx, false, false⟩ :: x.fetch }
            | none => d5
          (m, d6.ringFill m h)) s

/-- The agent's report of one item: its completed records, or its end. -/
def Dev.itemReport (d : Dev) (h : Fin 32) (ix : Nat) (recs : List Nat) : Dev :=
  match d.ply.items.find? fun x => x.ix = ix with
  | none => d
  | some i =>
    if i.nvec ≤ recs.length then
      (d.itemGone ix).phMod h fun x => { x with
        item := if x.item = some ix then none else x.item, items := x.items.filter fun y => y.1 ≠ ix }
    else d.itemMod ix fun x => { x with done := recs }

/-- ITEM_COMPLETION (R196): the agent's report of completed records, or of an item's end, for every item of the head. -/
def execItemCompletion (h : Fin 32) (s : State) : Host.Outcome State Fault Refusal :=
  onLive (fun d => d.when (d.up plyB && d.up (agtB h)) fun d =>
    d.ply.heads[h].items.foldl (fun (e : Dev) x => e.itemReport h x.1 x.2) d) s

/-! Ticks. -/

/-- The end of a layer's work for a head with nothing queued (R116 step 11, R193). -/
def Dev.restTick (d : Dev) (h : Fin 32) : Dev :=
  let f := d.heads[h].drf
  if ¬ f.moves.isEmpty ∨ ¬ f.inLayer ∨ f.st = 6 ∨ f.st = 7 ∨ d.webLayer then d
  else if d.listOver h ∧ d.poolOver h ∧ d.holdCode h = 3 then
    ((if f.st = 2 then d.underrunEnd h else d)).drfMod h fun x => { x with st := 6 }
  else if f.atHold then d.holdTo h (d.holdCode h)
  else d.drfMod h fun x => { x with atHold := true }

/-- BCH[n] takes a new TRV_IDLE_CODE at the next tick while the laser is off (R140, R154). -/
def Dev.idleCode (d : Dev) (h : Fin 32) : Dev :=
  let t := d.heads[h].trv
  let c := fld (d.tget (headB h) R.TRV_IDLE_CODE) 15 0
  if (t.on_ ∧ ¬ t.inhib) ∨ t.code = c ∨ t.defer.isSome then d
  else if (d.slot : Int) < t.codeAt + 40 then d.trvMod h fun t => { t with defer := some (t.codeAt + 40, c), codeEnt := false }
  else d.trvMod h fun t => { t.codeTo d.slot c with codeEnt := false }

/-- One servo tick of a Drafter. -/
def Dev.drafterTick (d : Dev) (h : Fin 32) : Dev :=
  let e := (d.adopt h).drfMod h fun x => { x with tickAt := some d.tick }
  if ¬ e.heads[h].drf.inLayer then ((e.idleSp h).axes h).auxSend h
  else if ¬ e.headRuns h then (e.auxSend h).sendSp h
  else
    let d0 := e.listEnd h
    let d1 := match d0.heads[h].drf.moves with
      | m :: _ => let s := if m.started ∧ m.laser then d0.scaleStep h m else d0.heads[h].drf.speedReq
        d0.drfMod h fun x => { x with speed := s }
      | [] => d0.drfMod h fun x => { x with speed := x.speedReq }
    let d2 := (runMoves 70 d1 h 1).restTick h
    let d3 := if d2.heads[h].drf.st = 3 ∧ d2.exclOn ∧ ¬ d2.heads[h].drf.moves.isEmpty ∧ d2.ply.heads[h].req.isSome then
        d2.agtBump h R.AGT_CLRWAIT_US else d2
    ((((d3.sample h).axes h).auxSend h).sendSp h).completions h

/-- In web mode a setpoint has left the covered field (R150 step 4). -/
def Dev.webOut (d : Dev) (h : Fin 32) : Bool :=
  d.webLayer && d.heads[h].trv.webRun && (let f := d.heads[h].drf; let w := d.webShift h d.tick
    !d.covered h (f.x + w.1.1, f.y + w.1.2))

/-- The slot of a time in ns, a time halfway going to the later one (R140). -/
def slotOf (ns : Rat) : Nat := (ns * 2 / 5 + 1 / 2).floor.toNat

/-- The last slot already taken by an edge. -/
def Trv.lastSlot (t : Trv) : Nat :=
  max ((t.edges.map (·.slot)).foldl max 0) (match t.dwellAt with | some x => x.1 | none => 0)

/-- The exposure whose LASER_ON was committed last, or the one in force. -/
def Trv.ramping (t : Trv) : Option Run :=
  match (t.edges.filter fun x => x.ent.kind = 4 ∨ x.ent.kind = 5).getLast? with
  | some x => some ⟨x.ent.arc, x.ent.bob, x.ent.buf, x.ent.fade, x.ent.num⟩
  | none => t.run

/-- The product in progress is over: nothing more of its list is taken, and a laser that is on goes off at the next
window start (R150 step 4). -/
def Dev.webStop (d : Dev) (h : Fin 32) : Dev :=
  let t := d.heads[h].trv
  let slot := max t.lastSlot (slotOf ((1000 * (t.lastK + 1) + fld (d.liv (headB h) R.TRV_HORIZON) 11 0 : Nat) : Rat))
  let on_ := t.edges.foldl (fun b x => if x.ent.kind = 4 ∨ x.ent.kind = 5 then true else if x.ent.kind = 1 ∨ x.ent.kind = 6 then false else b)
    t.on_
  let bob : Nat × Bool := match t.ramping with
    | some r => (r.bob, r.buf)
    | none => (0, false)
  let off : Edge := ⟨⟨0, 1, false, false, false, 0, bob.1, bob.2, 0, 0, 0, 0, false, d.heads[h].drf.runNo, 0⟩, slot, false⟩
  (d.drfMod h fun x => { x with moves := [], fetch := [], poly := none, nextRec := x.listLen, open_ := false, trail := [] }).trvMod h
    fun t => { t with
      sched := [], edges := if on_ then t.edges ++ [off] else t.edges, ramps := [], fades := [], dwellAt := none,
      webRun := false, product := none }

/-- DRAFTER_TICK (R101, R111). -/
def execDrafterTick (h : Fin 32) (s : State) : Host.Outcome State Fault Refusal :=
  onLiveMem (fun m d =>
    if ¬ d.up (headB h) ∨ d.heads[h].drf.tickAt = some d.tick then (m, d)
    else
      let d1 := (d.idleCode h).drafterTick h
      if d1.webOut h then
        let ord : Word := match d1.heads[h].trv.product with | some p => p.ord | none => 0
        webMiss m (d1.webStop h) h ord 2 d1.heads[h].drf.ownDone
      else (m, d1)) s

/-- HOLDREQ (R116 steps 7 and 8): a write of DRF_CTL.HOLDREQ. -/
def execHoldreq (h : Fin 32) (on_ : Bool) (s : State) : Host.Outcome State Fault Refusal :=
  onLive (fun d => d.hostWrite (headB h) 0x100 fun e => e.putB (headB h) R.DRF_CTL 0 on_) s

/-- A write of DRF_ACC_CAP (R109): latched with its cycle (R110). -/
def Dev.capWrite (d : Dev) (h : Fin 32) (v : Word) : Dev :=
  ((d.put (headB h) R.DRF_ACC_CAP v).drfMod h fun x => { x with caps := x.caps ++ [(d.now, v.toNat)] }).putB (headB h) R.DRF_STAT 25 true

/-- DRF_ACC_CAP (R109, R110). -/
def execDrfAccCap (h : Fin 32) (v : Word) (s : State) : Host.Outcome State Fault Refusal :=
  onLive (fun d => d.hostWrite (headB h) 0x110 fun e => e.capWrite h v) s

/-- DRF_AUX (R113). -/
def execDrfAux (h : Fin 32) (i : Fin 3) (v : Word) (s : State) : Host.Outcome State Fault Refusal :=
  onLive (fun d => d.hostWrite (headB h) (0x120 + 4 * i.val) fun e => e.put (headB h) R.DRF_AUX v i.val) s

/-! Abort and loss. -/

/-- The first of the records that `mine` tells, own or of the pool, that is neither complete nor being completed by the move in
progress; `last` where none is queued. -/
def Drf.restOf (f : Drf) (mine : Bool → Nat → Bool) (last : Nat) : Nat :=
  match f.moves.find? fun m => mine m.pool m.idx ∧ (m.done ≠ 0 ∨ m.kind = .mark) ∧ ¬ (m.started ∧ m.done ≠ 0) with
  | some m => m.idx
  | none => match f.poly with
    | some p => if mine p.pool p.idx then p.idx else last
    | none => last

/-- That of the head's own list. -/
def Dev.ownRest (d : Dev) (h : Fin 32) : Nat := d.heads[h].drf.restOf (fun p _ => !p) (d.slotNo h)

/-- That of an item of the head. -/
def Dev.itemRest (d : Dev) (h : Fin 32) (i : Item) : Nat :=
  let f := d.heads[h].drf
  f.restOf (fun p k => p && decide (i.start ≤ k) && decide (k < i.start + i.nvec))
    (i.start + if d.ply.heads[h].item = some i.ix then f.entered else i.nvec)

/-- The first own record that is not complete: a lost head drops the move in progress as well, and what has not fired is
withdrawn (R212). -/
def Dev.ownLost (d : Dev) (h : Fin 32) : Nat :=
  let f := d.heads[h].drf
  match (f.trail.find? fun m => !m.pool ∧ m.done ≠ 0), f.moves.find? fun m => !m.pool ∧ (m.done ≠ 0 ∨ m.kind = .mark) with
  | some m, _ => m.idx
  | none, some m => m.idx
  | none, none => d.ownRest h

/-- The head's own remaining records are listed (R90, R212). -/
def Dev.listRest (d : Dev) (h : Fin 32) (reason first : Nat) (id : Word) : Dev :=
  d.list id reason h.val false first (d.heads[h].drf.listLen - first)

/-- The ID of an own record, 0 where it cannot be read. -/
def Dev.ownId (d : Dev) (m : Mem) (h : Fin 32) (i : Nat) : Word :=
  match d.sdRead m (d.heads[h].drf.listAddr + 32 * i + 4) 4 with
  | .ok bs => wd (leNat bs)
  | .error _ => 0

/-- The layer's gate is closed to a head for good (R212): schedule and edges go, LGATE low, BCH idle. -/
def Dev.trvOff (d : Dev) (h : Fin 32) : Dev :=
  let idle := fld (d.tget (headB h) R.TRV_IDLE_CODE) 15 0
  (d.trvMod h fun t => { t with
    sched := [], edges := [], ramps := [], fades := [], dwellAt := none, defer := none, on_ := false, waiting := [],
    product := none, webRun := false }).trvMod h fun t =>
      (t.gateTo (d.slot + 1) false 0 0).codeTo (d.slot + 1 : Nat) idle

/-- Items of a lost head (R213 to R215): complete, back to pending, or interrupted with its rest re-plied or listed. -/
def Dev.itemLost (d : Dev) (m : Mem) (h : Fin 32) (i : Item) : Dev :=
  let e := i.elig &&& ~~~(wd (2 ^ h.val))
  let all : Bool := d.ply.heads[h].items.any fun x => x.1 = i.ix && decide (i.nvec ≤ x.2.length)
  if all then d.itemGone i.ix
  else if ¬ i.begun then d.itemBack i.ix
  else
    let k := ((List.range i.nvec).find? fun j => !i.done.contains (i.start + j)).getD i.nvec
    let at_ := i.start + k
    let restN := i.nvec - k - 1
    let d1 := d.poolList i.id 2 h.val at_ (min 1 (i.nvec - k))
    let reply := d.getB plyB R.PLY_CTL 1
    if restN = 0 then d1.itemGone i.ix
    else if reply ∧ e ≠ 0 then
      let p := match d.poolRec m (at_ + 1) with
        | some r => rfirst r
        | none => (i.x, i.y)
      let d2 := d1.itemMod i.ix fun x => { x with
        start := at_ + 1, nvec := restN, fadeIn := 0, done := [], head := none, begun := false, since := d.now,
        age0 := d.getN plyB R.PLY_ITEM_AGE * 800, x := p.1, y := p.2 }
      (d2.bump plyB R.PLY_REPLIED restN).plyEvent 2
    else
      let d2 := (d1.poolList i.id 2 h.val (at_ + 1) restN).itemGone i.ix
      if reply then d2 else d2.plyEvent 3

/-- A head is lost for the rest of the layer (R212 to R215). -/
def Dev.headLost (d : Dev) (m : Mem) (h : Fin 32) : Dev :=
  if d.running.isNone ∨ ¬ d.headRuns h then d
  else
    let first := d.ownLost h
    let id := d.ownId m h first
    let open_ : Bool := d.heads[h].drf.st ≠ 6
    let own := d.ply.items.filter fun x => x.head = some h
    let bit_ := wd (2 ^ h.val)
    let d1 : Dev := { d with rep := { d.rep with lost := d.rep.lost ||| bit_ } }
    let d2 := (d1.withdraw h).phMod h fun x => { x with boxes := [], grant := none, item := none, melt := none }
    let d3 := (own.foldl (fun (e : Dev) i => e.itemLost m h i) d2).phMod h fun x => { x with items := [] }
    let d4 := d3.plyMod fun p => { p with items := p.items.map fun x => { x with elig := x.elig &&& ~~~bit_ } }
    let dead := d4.ply.items.filter fun x => x.head = none ∧ x.elig = 0
    let d5 := dead.foldl (fun (e : Dev) i =>
      let from_ := if i.start = i.ix + 1 then i.ix else i.start
      (e.poolList i.id 3 0xFF from_ (i.start + i.nvec - from_)).itemGone i.ix) d4
    let d6 := if open_ then (d5.listRest h 2 first id).drfMod h fun x => { x with st := 7 } else d5
    let d7 := ((d6.trvOff h).depositFlush h).drfMod h fun x => { x with
      moves := [], fetch := [], items := [], handOver := [], poly := none, trail := [], open_ := false, vx := 0, vy := 0,
      ax := 0, ay := 0, nextRec := x.listLen, holdFrom := none, admAsk := false }
    let d8 : Dev := { d7 with thm := { d7.thm with waiting := d7.thm.waiting.filter fun w => w.2 ≠ h.val } }
    ((d8.plyEvent 1).raise plyB none 2).plyServe

/-- Entries that lie beyond an arc position leave the schedule with their moves (R115); at it a LASER_OFF and a correction stay, and
what `keep` names. -/
def Dev.withdrawEnts (d : Dev) (h : Fin 32) (fin : Rat) (keep : Ent → Bool) : Dev :=
  let stays (e : Ent) : Bool := decide (e.arc < rnd fin) || (e.arc = rnd fin && (e.src || e.kind = 1)) || keep e
  d.trvMod h fun t => { t with sched := t.sched.filter stays }

/-- SKEIN_CTL.ABORT at one head (R117): the move in progress completes, everything unstarted is dropped and withdrawn, and
the rest of its own list and of its item is listed. -/
def Dev.headAbort (d : Dev) (m : Mem) (h : Fin 32) : Dev :=
  let f := d.heads[h].drf
  if ¬ f.inLayer ∨ f.st = 6 ∨ f.st = 7 then d
  else
    let first := d.ownRest h
    let id := d.ownId m h first
    let d0 := if f.st = 2 then d.underrunEnd h else d
    let d1 : Dev := match f.moves with
      | [] => d0.withdrawEnts h f.arcEnd fun _ => false
      | a :: _ =>
        if ¬ a.started then
          (d0.withdrawEnts h a.arc0 fun _ => false).drfMod h fun x => { x with moves := [], arcEnd := a.arc0, endX := x.x, endY := x.y }
        else
          let fin := a.arc0 + a.len
          let e := a.seg.at a.len a.len
          let own (x : Ent) : Bool := x.arc = rnd a.arc0 && x.idx = a.idx && x.pool = a.pool &&
            (if a.kind = .dwell then x.kind = 5 || x.kind = 6 else x.kind = 3 || x.kind = 4)
          let d1a := d0.withdrawEnts h fin own
          let d2 := d1a.drfMod h fun x => { x with moves := [a], arcEnd := fin, endX := e.1, endY := e.2.1 }
          let has := d2.heads[h].trv.sched.any fun e => e.arc = rnd fin ∧ (e.kind = 1 ∨ e.kind = 6)
          let d3 := if a.laser ∧ a.kind ≠ .dwell ∧ ¬ has then d2.post_ h (entOf fin 1 a) else d2
          let p := a.prof.cap f.cap
          (if p.vE < a.vOut then
              let l := fallDist p a.vOut p.vE
              let x1 := e.1 + e.2.2.1 * l
              let y1 := e.2.1 + e.2.2.2 * l
              let buf := d3.bobBuf a.bob a.buf
              let out := { mkMove .runOut (.line e.1 e.2.1 x1 y1) l a.vOut buf a.id a.idx a.pool a.bob a.buf a.focus with
                cont := true, inLim := a.vOut }
              ((d3.push h out).push h (mkMove .jump (.line x1 y1 e.1 e.2.1) l p.vM buf a.id a.idx a.pool a.bob a.buf a.focus)).planAll h
            else d3)
    let d4 := (d1.ply.items.filter fun x => x.head = some h ∧ (d1.ply.heads[h].items.any fun y => y.1 = x.ix)).foldl
      (fun (e : Dev) i => (e.list i.id 5 h.val true (d.itemRest h i) (i.start + i.nvec - d.itemRest h i)).itemGone i.ix) d1
    let d5 := (d4.listRest h 5 first id).drfMod h fun x => { x with
      st := 7, fetch := [], items := [], handOver := [], poly := none, open_ := false, nextRec := x.listLen, owed := false,
      admAsk := false, runNo := x.runNo + 1 }
    let d6 : Dev := { d5 with thm := { d5.thm with waiting := d5.thm.waiting.filter fun w => w.2 ≠ h.val } }
    ((d6.withdraw h).phMod h fun x => { x with grant := none, item := none, items := [] })

end Sys2Proof.Machine
end

