-- ==== Sys2Proof/Machine/Clock.lean ====
section
/-! DEFINITION. Network time (R391 to R398, R404, R406): the clock, its discipline over the two PTP ports, setting it,
and the messages received and sent. -/

namespace Sys2Proof.Machine

/-- TIME. -/
def timeB : Blk := blk .time 0

/-- Change the clock's state. -/
def Dev.timMod (d : Dev) (f : Tim → Tim) : Dev := { d with tim := f d.tim }

/-- Change a port. -/
def Dev.portMod (d : Dev) (p : Fin 2) (f : PPort → PPort) : Dev :=
  d.timMod fun t => { t with ports := vmod t.ports p f }

/-- Set bits of TIME_EVT. -/
def Dev.timeEvent (d : Dev) (i : Nat) : Dev := d.event timeB R.TIME_EVT R.TIME_EVT_EN (wd (2 ^ i)) 58

/-- The clock in nanoseconds. -/
def Tim.ns (t : Tim) : Nat := t.clock / q32

/-- One cycle's advance at a rate correction [2^-32 ns] (R393; log 27, DESIGN CHOICE). -/
def cycleStep (r : Rat) : Nat := ((5368709120 : Rat) * (1 + r / 1000000000)).floor.toNat

/-- The clock after one fabric cycle; 64 bits of seconds wrap. -/
def Tim.advance (t : Tim) : Tim := { t with clock := (t.clock + cycleStep t.rate) % (2 ^ 64 * 1000000000 * q32) }

/-- Keep the clock value of a servo tick (R398), for the 1,024 ticks that TSTAMP can name (R408). -/
def Tim.keep (t : Tim) (tick : Nat) : Tim := { t with stamp := (⟨tick, t.clock, t.rate⟩ :: t.stamp).take 1024 }

/-- The clock [ns] `ns` after a servo tick: the value kept there plus the elapsed time at the rate then in force (R398); the present
value where none is kept. -/
def Tim.at (t : Tim) (tick : Nat) (ns : Nat := 0) : Nat :=
  match t.stamp.find? fun x => x.tick = tick with
  | some x => (x.clock + ((ns : Rat) * (q32 : Rat) * (1 + x.rate / 1000000000)).floor.toNat) / q32
  | none => t.ns

/-- The state of a port (R392): 0 DISABLED, 1 TIME_RECEIVER, 2 TIME_TRANSMITTER, 3 PASSIVE. -/
def Dev.portState (d : Dev) (p : Fin 2) : Nat := d.getF timeB R.TIME_CTL (2 * p.val + 1) (2 * p.val)

/-- The port is in sync timeout. -/
def Dev.portLate (d : Dev) (p : Fin 2) : Bool := d.getB timeB R.TIME_PORT_STAT 1 p.val

/-- The active port (R392): the receiver that is PRIMARY and not in sync timeout, else the other receiver. -/
def Dev.activePort (d : Dev) : Option (Fin 2) :=
  match decide (d.portState 0 = 1), decide (d.portState 1 = 1) with
  | true, true =>
    let p : Fin 2 := Fin.ofNat 2 (d.getF timeB R.TIME_CTL 4 4)
    some (if d.portLate p then p + 1 else p)
  | true, false => some 0
  | false, true => some 1
  | false, false => none

/-- Hold a rate within TIME_SLEW_MAX. -/
def Dev.slew (d : Dev) (r : Rat) : Rat :=
  let m : Rat := (d.getN timeB R.TIME_SLEW_MAX : Nat)
  clampR (-m) m r

/-- The signed interval field of R404 counted `n` times has passed since cycle `t`: n·2^log seconds. -/
def Dev.logOver (d : Dev) (n log : Nat) (t : Nat) : Bool :=
  let l := sgn 8 log
  if l < 0 then n * 800000000 ≤ (d.now - t) * 2 ^ (-l).toNat else n * 2 ^ l.toNat * 800000000 ≤ d.now - t

/-- The announce receipt timeout has passed since cycle `t` (R397). -/
def Dev.announceOver (d : Dev) (t : Nat) : Bool :=
  d.logOver (d.getF timeB R.TIME_DOMAIN 31 24) (d.getF timeB R.TIME_DOMAIN 23 16) t

/-- TIME_STAT.SYNCED (R397): the active port's last offset is small and not older than the announce receipt timeout. -/
def Dev.synced (d : Dev) : Bool := d.getB timeB R.TIME_STAT 1 && d.activePort.isSome && !d.announceOver d.tim.offAt

/-- Put a rate in force; TIME_RATE shows it rounded down (log 27, DESIGN CHOICE). -/
def Dev.setRate (d : Dev) (r : Rat) : Dev := (d.timMod fun t => { t with rate := r }).put timeB R.TIME_RATE (wi r.floor)

/-- Follow a change of the active port: TIME_STAT, TIME_SWITCH and TIME_EVT.SWITCH (R392); without a receiver the rate
is TIME_ADJ (R395). -/
def Dev.portsChanged (d : Dev) : Dev :=
  match d.activePort with
  | none => d.setRate (d.slew ((d.getI timeB R.TIME_ADJ : Int) : Rat))
  | some p =>
    if d.getF timeB R.TIME_STAT 3 3 = p.val then d
    else (((d.putF timeB R.TIME_STAT 3 3 p.val).putB timeB R.TIME_STAT 1 false).bump timeB R.TIME_SWITCH).timeEvent 3

/-- A port that becomes a time receiver begins anew, its sync timeout with it (log 28, DESIGN CHOICE). -/
def Dev.portStarts (d : Dev) (was : Dev) : Dev :=
  (List.finRange 2).foldl (fun (e : Dev) p =>
    if e.portState p = 1 ∧ was.portState p ≠ 1 then
      (e.portMod p fun x => { x with wait := none, paired := false, dreq := none, syncAt := e.now }).putB timeB R.TIME_PORT_STAT 1 false p.val
    else e) d

/-- A frame or message is discarded and counted (R391). -/
def Dev.ptpDrop (d : Dev) (p : Fin 2) : Dev := d.bump timeB R.TIME_PORT_DROP 1 p.val

/-- The domain of a message is the configured one. -/
def Dev.inDomain (d : Dev) (h : PtpHdr) : Bool := d.getF timeB R.TIME_DOMAIN 7 0 = h.domain.toNat

/-- A message time in nanoseconds: the high 16 bits of the seconds are the clock's (R393). -/
def Dev.msgNs (d : Dev) (t : PtpTime) : Int :=
  (((d.tim.ns / 1000000000 / 2 ^ 48 * 2 ^ 48 + t.sec.toNat) * 1000000000 + t.ns.toNat : Nat) : Int)

/-- A receive stamp less ING_LAT (R394). -/
def Dev.rxNs (d : Dev) (p : Fin 2) (t : PtpTime) : Int :=
  d.msgNs t - (d.getF timeB R.TIME_PORT_ING_LAT 15 0 p.val : Nat)

/-- A transmit stamp now, plus EGR_LAT (R394). -/
def Dev.txNs (d : Dev) (p : Fin 2) : Int := ((d.tim.ns + d.getF timeB R.TIME_PORT_EGR_LAT 15 0 p.val : Nat) : Int)

/-- A rational as a saturating signed word. -/
def satWord (x : Rat) : Word := wi (clampI (-2147483648) 2147483647 x.floor)

/-- The rate correction of R395 at an offset. -/
def Dev.discipline (d : Dev) (offset : Rat) : Dev :=
  let kp : Rat := ((d.getI timeB R.TIME_KP : Int) : Rat) / 65536
  let ki : Rat := ((d.getI timeB R.TIME_KI : Int) : Rat) / 65536
  let m : Rat := (d.getN timeB R.TIME_SLEW_MAX : Nat)
  let acc := d.tim.acc + ki * offset
  let r := kp * offset + acc
  let d1 := if -m < r ∧ r < m then d.timMod fun t => { t with acc := acc } else d
  d1.setRate (clampR (-m) m r)

/-- SYNCED and the alarm at a new offset (R397). -/
def Dev.offsetFlags (d : Dev) (offset : Rat) : Dev :=
  let large : Bool := ((d.getN timeB R.TIME_OFS_ALARM : Nat) : Rat) < rabs offset
  let was := d.synced
  let d1 := (d.putB timeB R.TIME_STAT 1 (!large)).putB timeB R.TIME_STAT 2 false
  let d2 := if !large && !was then d1.timeEvent 0 else d1
  let d3 := if large && !d.tim.large then (d2.timeEvent 2).raise timeB none 1 else d2
  d3.timMod fun t => { t with large := large, offAt := d.now }

/-- A new offset on the active port (R395 to R397): the clock is set while SET_OPEN and AUTOSET are 1, else its rate is
corrected. -/
def Dev.newOffset (d : Dev) (offset : Rat) : Dev :=
  let d1 := d.put timeB R.TIME_OFFSET (satWord offset)
  if d.getB timeB R.TIME_STAT 0 ∧ d.getB timeB R.TIME_CTL 5 then
    ((d1.timMod fun t => { t with clock := ((t.clock : Int) - (offset * (q32 : Rat)).floor).toNat }).putB timeB
      R.TIME_STAT 0 false).offsetFlags offset
  else (d1.discipline offset).offsetFlags offset

/-- A complete Sync on a receiver port: the offset of R395, taken by the active port. -/
def Dev.takeSync (d : Dev) (p : Fin 2) (t1 t2 : Int) : Dev :=
  let d1 := (d.portMod p fun x => { x with wait := none, t1 := t1, t2 := t2, paired := true, syncAt := d.now }).bump
    timeB R.TIME_PORT_SYNCS 1 p.val
  let d2 := (d1.putB timeB R.TIME_PORT_STAT 1 false p.val).portsChanged
  if d2.activePort = some p then d2.newOffset (((t2 - t1 : Int) : Rat) - d2.tim.path) else d2

/-- TIME serves its ports: it is neither fenced nor in reset, and a port is not DISABLED. -/
def Dev.portOn (d : Dev) (p : Fin 2) : Bool := d.up timeB && d.portState p ≠ 0

/-- SYNC (R395). -/
def execSync (p : Fin 2) (m : SyncMsg) (s : State) : Host.Outcome State Fault Refusal :=
  onLive (fun d => d.when (d.portOn p) fun d =>
    if d.portState p ≠ 1 ∨ ¬ d.inDomain m.hdr then d.ptpDrop p
    else if m.twoStep then
      ((d.portMod p fun x => { x with wait := some (m.hdr.seq, d.rxNs p m.rx, m.corr), syncAt := d.now }).putB timeB R.TIME_PORT_STAT 1
        false p.val).portsChanged
    else d.takeSync p (d.msgNs m.origin + m.corr) (d.rxNs p m.rx)) s

/-- FOLLOW_UP (R395). -/
def execFollowUp (p : Fin 2) (m : FollowMsg) (s : State) : Host.Outcome State Fault Refusal :=
  onLive (fun d => d.when (d.portOn p) fun d =>
    if d.portState p ≠ 1 ∨ ¬ d.inDomain m.hdr then d.ptpDrop p
    else match d.tim.ports[p].wait with
      | some (seq, t2, corr) =>
        if seq = m.hdr.seq then d.takeSync p (d.msgNs m.time + corr + m.corr) t2 else d.ptpDrop p
      | none => d.ptpDrop p) s

/-- A message leaves a port with the values of TIME_DOMAIN, TIME_CLOCK_Q and TIME_PRIO (R392) in the port's transport (R391). -/
def Dev.ptpSend (d : Dev) (p : Fin 2) (kind seq : Nat) (time : Int) : Dev :=
  let ann : Bool := kind = 0xB
  let out : PtpOut :=
    ⟨p, kind, seq, time, d.getF timeB R.TIME_DOMAIN 7 0,
      if d.getB timeB R.TIME_PORT_CFG 0 p.val then some (d.get timeB R.TIME_PORT_IPV4 p.val) else none,
      if ann then d.get timeB R.TIME_CLOCK_Q else 0, if ann then d.get timeB R.TIME_PRIO else 0⟩
  d.timMod fun t => { t with sent := some out }

/-- A message sent at an interval is due: none has been sent, or the interval has passed since (R392, R395, R404). -/
def Dev.sendDue (d : Dev) (last : Option Nat) (log : Nat) : Bool := last.all fun t => d.logOver 1 log t

/-- DELAY_REQ (R392): a time transmitter answers with the receive stamp. -/
def execDelayReq (p : Fin 2) (rx : PtpTime) (m : PtpHdr) (s : State) : Host.Outcome State Fault Refusal :=
  onLive (fun d => d.when (d.portOn p) fun d =>
    if d.portState p ≠ 2 ∨ ¬ d.inDomain m then d.ptpDrop p
    else d.ptpSend p 9 m.seq.toNat (d.rxNs p rx)) s

/-- DELAY_RESP (R395): a new path delay from the pair of stamps (log 28, PRESUMED). -/
def execDelayResp (p : Fin 2) (m : FollowMsg) (s : State) : Host.Outcome State Fault Refusal :=
  onLive (fun d => d.when (d.portOn p) fun d =>
    if d.portState p ≠ 1 ∨ ¬ d.inDomain m.hdr then d.ptpDrop p
    else match d.tim.ports[p].dreq with
      | some (seq, t3) =>
        if seq ≠ m.hdr.seq then d.ptpDrop p
        else
          let x := d.tim.ports[p]
          let d1 := d.portMod p fun y => { y with dreq := none }
          if d.activePort = some p ∧ x.paired then
            let new : Rat := (((x.t2 - t3) + (d.msgNs m.time - x.t1) - m.corr : Int) : Rat) / 2
            let path := d.tim.path + (new - d.tim.path) / 16
            (d1.timMod fun t => { t with path := path }).put timeB R.TIME_PATH (satWord path)
          else d1
      | none => d.ptpDrop p) s

/-- ANNOUNCE (R391, R404): a receiver or a passive port shows UTC offset and grandmaster. -/
def execAnnounce (p : Fin 2) (m : AnnMsg) (s : State) : Host.Outcome State Fault Refusal :=
  onLive (fun d => d.when (d.portOn p) fun d =>
    if (d.portState p ≠ 1 ∧ d.portState p ≠ 3) ∨ ¬ d.inDomain m.hdr then d.ptpDrop p
    else ((d.put timeB R.TIME_UTC_OFS (wd (m.utcOfs.toNat + m.utcValid.toNat * 65536))).put timeB R.TIME_GM_ID0 m.gm0).put
      timeB R.TIME_GM_ID1 m.gm1) s

/-- PTP_DISCARD (R391). -/
def execPtpDiscard (p : Fin 2) (s : State) : Host.Outcome State Fault Refusal :=
  onLive (fun d => d.when (d.portOn p) fun d => d.ptpDrop p) s

/-- SYNC_TRANSMIT (R392): a one-step Sync with its origin stamp, at 2^logSyncInterval s. -/
def execSyncTransmit (p : Fin 2) (s : State) : Host.Outcome State Fault Refusal :=
  onLive (fun d =>
    let x := d.tim.ports[p]
    d.when (d.portOn p && d.portState p = 2 && d.sendDue x.tAt (d.getF timeB R.TIME_DOMAIN 15 8)) fun d =>
      (d.ptpSend p 0 x.tseq (d.txNs p)).portMod p fun x => { x with tseq := (x.tseq + 1) % 65536, tAt := some d.now }) s

/-- ANNOUNCE_TRANSMIT (R392), at 2^logAnnounceInterval s. -/
def execAnnounceTransmit (p : Fin 2) (s : State) : Host.Outcome State Fault Refusal :=
  onLive (fun d =>
    let x := d.tim.ports[p]
    d.when (d.portOn p && d.portState p = 2 && d.sendDue x.aAt (d.getF timeB R.TIME_DOMAIN 23 16)) fun d =>
      (d.ptpSend p 0xB x.aseq (d.txNs p)).portMod p fun x => { x with aseq := (x.aseq + 1) % 65536, aAt := some d.now }) s

/-- DELAY_REQ_TRANSMIT (R395), at 2^logMinDelayReqInterval s. -/
def execDelayReqTransmit (p : Fin 2) (s : State) : Host.Outcome State Fault Refusal :=
  onLive (fun d =>
    let x := d.tim.ports[p]
    d.when (d.portOn p && d.portState p = 1 && d.sendDue x.dAt (d.getF timeB R.TIME_PORT_CFG 15 8 p.val)) fun d =>
      (d.ptpSend p 1 x.dseq (d.txNs p)).portMod p fun x =>
        { x with dreq := some (BitVec.ofNat 16 x.dseq, d.txNs p), dseq := (x.dseq + 1) % 65536, dAt := some d.now }) s

/-- SYNC_TIMEOUT (R392, R397): the other receiver takes over, or the clock enters holdover. -/
def execSyncTimeout (p : Fin 2) (s : State) : Host.Outcome State Fault Refusal :=
  onLive (fun d =>
    d.when (d.portOn p && d.portState p = 1 && !d.portLate p && d.announceOver d.tim.ports[p].syncAt) fun d =>
      let act : Bool := d.activePort = some p
      let d1 := (d.putB timeB R.TIME_PORT_STAT 1 true p.val).portsChanged
      let d2 := if act then d1.putB timeB R.TIME_STAT 1 false else d1
      if d2.portState (p + 1) = 1 ∧ ¬ d2.portLate (p + 1) then d2
      else ((d2.putB timeB R.TIME_STAT 2 true).timeEvent 1).raise timeB (some p.val) 0) s

/-- A skein start closes SET_OPEN; a set request of the same cycle is still served (R396). -/
def Dev.setCloses (d : Dev) : Dev :=
  if d.getB timeB R.TIME_STAT 0 then (d.timMod fun t => { t with openTill := some d.now }).putB timeB R.TIME_STAT 0 false else d

/-- A write of TIME_SET_CMD.SET (R396). -/
def Dev.setClock (d : Dev) : Dev :=
  if ¬ d.getB timeB R.TIME_STAT 0 ∧ d.tim.openTill ≠ some d.now then d
  else
    let sec := d.getN timeB R.TIME_SET_SEC_LO + d.getN timeB R.TIME_SET_SEC_HI * 2 ^ 32
    (d.timMod fun t => { t with clock := (sec * 1000000000 + d.getN timeB R.TIME_SET_NS) * q32, openTill := none }).putB timeB R.TIME_STAT 0 false

/-- SET (R396): a host write of TIME_SET_CMD.SET steps the clock while SET_OPEN is 1. -/
def execSet (s : State) : Host.Outcome State Fault Refusal :=
  onLive (fun d => d.hostWrite timeB 0x124 fun e => e.setClock) s

end Sys2Proof.Machine
end

