-- ==== Sys2Proof/Machine/Fabric.lean ====
section
/-! DEFINITION. The message fabric (R10, R15 to R26): the way of a message through the arbiters, credits, one grant a
round, answers for units out of service, and requests without a response. -/

namespace Sys2Proof.Machine

/-- Reserved credits of a class per destination (R20). -/
def Cls.reserved : Cls → Nat
  | .rsp => 4
  | _ => 2

/-- Priority of a class (R15). -/
def Cls.prio : Cls → Nat
  | .req => 0
  | .ev => 1
  | .rsp => 2
  | .flt => 3

/-- The age limit of an arbiter's level (R23). -/
def ageLimit : ArbId → Nat
  | .block _ => 8
  | .region _ => 16
  | .chip => 32

/-- The port of a block arbiter toward its region: after its cells and its own logic (R23). -/
def regionPort (b : Blk) : Nat := ownPort b + 1

/-- Where a message goes from an arbiter: up to the level it has to cross, then down to its destination (R10). -/
def nextLoc (a : ArbId) (dst : Blk) : Loc :=
  match a with
  | .block b => if dst = b then .inbox else .port (.region b.region) b.block.val
  | .region r => if dst.region = r then .port (.block dst) (regionPort dst) else .port .chip r.val
  | .chip => .port (.region dst.region) (regionBlocks dst.region.val)

/-- The arbiter a message stands at. -/
def Msg.arb (x : Msg) : Option ArbId := match x.loc with
  | .port a _ => some a
  | .inbox => none

/-- The port a message stands at. -/
def Msg.portNo (x : Msg) : Nat := match x.loc with
  | .port _ p => p
  | .inbox => 0

/-- Messages of a class that stand where `x` would go and hold credits there: at a port, or accepted by the same block. -/
def Dev.atLoc (d : Dev) (l : Loc) (dst : Blk) (c : Cls) : Nat :=
  (d.fabric.filter fun y => y.loc = l ∧ y.cls = c ∧ (l ≠ .inbox ∨ y.dst = dst)).length

/-- Shared credits in use at a destination (R20). -/
def Dev.sharedUsed (d : Dev) (l : Loc) (dst : Blk) : Nat :=
  ([Cls.req, .ev, .rsp, .flt].map fun c => d.atLoc l dst c - c.reserved).sum

/-- A credit of the message's class, reserved or shared, is free at its destination (R20). -/
def Dev.eligible (d : Dev) (a : ArbId) (x : Msg) : Bool :=
  let l := nextLoc a x.dst
  d.atLoc l x.dst x.cls < x.cls.reserved || d.sharedUsed l x.dst < 8

/-- A message with its place in the fabric's list. -/
abbrev Cand := Msg × Nat

/-- The heads of the queues at an arbiter's ports: the first message of each port (R22). -/
def headsAt (a : ArbId) : List Cand → List Nat → List Cand
  | [], _ => []
  | x :: t, seen =>
    if x.1.arb = some a ∧ x.1.portNo ∉ seen then x :: headsAt a t (x.1.portNo :: seen) else headsAt a t seen

/-- The older of two candidates; at the same age, the one on the lower port (R21). -/
def older (x y : Cand) : Cand :=
  if y.1.age < x.1.age ∨ (y.1.age = x.1.age ∧ x.1.portNo ≤ y.1.portNo) then x else y

/-- The oldest of a list of candidates. -/
def oldest : List Cand → Option Cand
  | [] => none
  | x :: t => match oldest t with
    | some y => some (older x y)
    | none => some x

/-- The winner of a round (R21). -/
def winner (limit : Nat) (l : List Cand) : Option Cand :=
  match oldest (l.filter fun x => limit ≤ x.1.age) with
  | some x => some x
  | none =>
    let top := (l.map fun x => x.1.cls.prio).foldl max 0
    oldest (l.filter fun x => x.1.cls.prio = top)

/-! Units out of service (R25). -/

/-- The tile group a message addresses in LATTICE (R251, R419). -/
def bodyCell (x : Msg) : Option Nat :=
  let g (t : Nat) : Nat := t % 512 / 64 + 8 * (t / 512 / 64)
  match x.body with
  | .deposit t _ _ => some (g t)
  | .predReq _ t => some (g t)
  | _ => x.cell

/-- The schedule entry a prediction request or response stands for (R263). -/
def msgEntry (x : Msg) : Nat :=
  match x.body with
  | .predReq e _ => e
  | .predRsp e _ => e
  | _ => 0

/-- The port of an arbiter at which what comes from a block stands (R10, R23). -/
def portFrom (a : ArbId) (b : Blk) : Nat :=
  match a with
  | .block c => if b = c then ownPort c else regionPort c
  | .region r => if b.region = r then b.block.val else regionBlocks r.val
  | .chip => b.region.val

/-- The response that arbiter `a` makes for a unit out of service (R25): it takes the way that the unit's own answer would
take from there. -/
def refusedRsp (a : ArbId) (x : Msg) (st : Nat) : Msg :=
  ⟨.rsp, x.dst, x.src, none, .predRsp (msgEntry x) 0, BitVec.ofNat 4 st, x.tag, .port a (portFrom a x.dst), 0⟩

/-- Arbiter `a` deals with a message whose destination is out of service: a request is answered, an event discarded and
counted; a response from a unit in reset shadows its receiver (R25, R423). -/
def Dev.turnAway (a : ArbId) (d : Dev) (x : Msg) : Dev :=
  let st := d.unitStatus x.dst (bodyCell x)
  let d1 : Dev := { d with fabric := d.fabric.erase x }
  match x.cls with
  | .req =>
    let d2 : Dev := { d1 with fabric := d1.fabric ++ [refusedRsp a x st] }
    if st = 2 then d2.shadowOn x.dst x.src else d2
  | .ev => if st = 3 then d1.bumpF fltc R.FLTC_EVDISC 15 0 else d1.bumpF x.dst R.EVT_DISC 15 0
  | _ => d

/-- Every request and event at an arbiter whose destination is out of service is dealt with at once (R25). -/
def Dev.turnAll (d : Dev) (a : ArbId) : Dev :=
  (d.fabric.filter fun x => x.arb = some a ∧ (x.cls = .req ∨ x.cls = .ev) ∧ d.unitStatus x.dst (bodyCell x) ≠ 0).foldl
    (Dev.turnAway a) d

/-- A block leaves service by a fence or a reset, `st` being its status: requests it has accepted are answered with it by its
region's arbiter, accepted events count as discarded, and tags that waited for its late responses are free again (R25, R26). -/
def Dev.inboxOut (d : Dev) (b : Blk) (st : Nat) : Dev :=
  let gone := (d.reqs.filter fun r => r.timedOut ∧ r.dst = b).map fun (r : Pend) => r.tag
  let d1 : Dev := { d with
    reqs := d.reqs.filter fun r => ¬ (r.timedOut ∧ r.dst = b)
    fabric := d.fabric.filter fun x => ¬ (x.tag ∈ gone ∧ (x.cls = .req ∨ x.cls = .rsp) ∧ x.status ≠ 5) }
  (d1.fabric.filter fun x => x.dst = b ∧ x.loc = .inbox ∧ (x.cls = .req ∨ x.cls = .ev)).foldl
    (fun (e : Dev) x =>
      let e1 : Dev := { e with fabric := e.fabric.erase x }
      if x.cls = .req then { e1 with fabric := e1.fabric ++ [refusedRsp (.region b.region) x st] } else e1.bumpF b R.EVT_DISC 15 0) d1

/-- A requester in reset forgets the requests it has under way and what answers them. -/
def Dev.reqsForget (d : Dev) (b : Blk) : Dev :=
  let gone := (d.reqs.filter fun r => r.src = b).map fun (r : Pend) => r.tag
  { d with
    reqs := d.reqs.filter fun r => r.src ≠ b
    fabric := d.fabric.filter fun x => ¬ (x.tag ∈ gone ∧ (x.cls = .req ∨ x.cls = .rsp)) }

/-! Storms (R413). -/

/-- The block and kind of a fault message that a storm thins out: not one of the critical class. -/
def stormPair (x : Msg) : Option (Nat × Nat) :=
  match x.body with
  | .fault m =>
    let kind := (m.extractLsb' 16 8).toNat
    let crit : Bool := match blkKind x.src with
      | some (t, _) => kind < 32 && t.crit &&& wd (2 ^ kind) ≠ 0
      | none => false
    if crit then none else some (x.src.block.val, kind)
  | _ => none

/-- A region concentrator offers a message of its region's blocks to the chip arbiter: whether it is suppressed, and
the state with the message counted (R413). -/
def Dev.concentrate (d : Dev) (r : Fin 16) (x : Msg) : Bool × Dev :=
  if x.cls ≠ .flt ∨ x.src.region ≠ r ∨ ¬ d.getB fltc R.FLTC_CTL 1 then (false, d)
  else
    let s := d.flt.storm[r]
    let again : Bool := match stormPair x with
      | some p => d.getB fltc R.FLTC_STORM_STAT r.val && s.seen.contains p
      | none => false
    let seen := match stormPair x with
      | some p => if s.seen.contains p then s.seen else p :: s.seen
      | none => s.seen
    let d1 : Dev := { d with flt := { d.flt with storm := vmod d.flt.storm r fun _ => { s with offered := s.offered + 1, seen := seen } } }
    (again, if again then d1.bump fltc R.FLTC_STORM_CNT 1 r.val else d1)

/-! Rounds. -/

/-- A granted message moves on: to the next port, or into its destination; its age restarts (R22). A concentrator drops
what a storm suppresses (R413). -/
def Dev.grant_ (d : Dev) (a : ArbId) (x : Cand) : Dev :=
  let rest := d.fabric.eraseIdx x.2
  let moved := rest ++ [{ x.1 with loc := nextLoc a x.1.dst, age := 0 }]
  match a with
  | .region r =>
    let c := d.concentrate r x.1
    { c.2 with fabric := if c.1 then rest else moved }
  | .block b =>
    let d1 : Dev := { d with fabric := moved }
    if x.1.dst = b ∧ (x.1.cls = .req ∨ x.1.cls = .ev) then d1.reached b (bodyCell x.1) else d1
  | .chip => { d with fabric := moved }

/-- The other heads of an arbiter grow older by a round (R22). -/
def Dev.ageHeads (d : Dev) (hs : List Cand) (won : Cand) : Dev :=
  { d with fabric := d.fabric.mapIdx fun i x =>
      if i ≠ won.2 ∧ (hs.any fun h => h.2 = i) then { x with age := x.age + 1 } else x }

/-- ARBITRATION_ROUND (R20 to R25): one round in a fabric cycle (R21). -/
def execArbitrationRound (arb : ArbId) (s : State) : Host.Outcome State Fault Refusal :=
  onLive (fun d0 =>
    let d := d0.turnAll arb
    let hs := headsAt arb d.fabric.zipIdx []
    if arb ∈ d.rounds then d
    else match winner (ageLimit arb) (hs.filter fun x => d.eligible arb x.1) with
      | none => d
      | some x => { (d.ageHeads hs x).grant_ arb x with rounds := arb :: d.rounds }) s

/-! Requests without a response (R26). -/

/-- The fault of a requester whose response has not arrived (R26, R409): ADDR names the destination. -/
def Dev.noAnswer (d : Dev) (src dst : Blk) : Dev := d.raise src none 0x80 (dst.region.val + dst.block.val * 16)

/-- A request that a command stands for as a whole gets no response: its tag stays in use until the late response (R26;
log 52, DESIGN CHOICE). -/
def Dev.bareTimeout (d : Dev) (src dst : Blk) : Dev :=
  ({ d with reqs := d.reqs ++ [⟨d.freeTag, src, dst, d.now - 80000, true, false⟩] } : Dev).noAnswer src dst

/-- A prediction request gets no response within 100 µs (R26). -/
def Dev.reqTimeout (d : Dev) (tag : Nat) : Dev :=
  match d.reqs.find? fun r => r.tag = tag ∧ ¬ r.timedOut ∧ d.past r.sent 100 with
  | none => d
  | some r =>
    let e : Nat := ((d.fabric.find? fun x => x.tag = tag ∧ (x.cls = .req ∨ x.cls = .rsp)).map msgEntry).getD 0
    let d1 : Dev := { d with
      reqs := d.reqs.map fun (x : Pend) => if x.tag = tag then { x with timedOut := true } else x
      fabric := d.fabric ++ [⟨.rsp, r.dst, r.src, none, .predRsp e 0, 5, tag, .inbox, 0⟩] }
    d1.noAnswer r.src r.dst

/-- LATE_RESPONSE (R26): discarded, counted, its tag freed. -/
def execLateResponse (tag : Nat) (s : State) : Host.Outcome State Fault Refusal :=
  onLive (fun d =>
    let free (e : Dev) : Dev := { e with reqs := e.reqs.filter fun r => r.tag ≠ tag, lateRsp := e.lateRsp + 1 }
    match d.reqs.find? fun r => r.tag = tag ∧ r.timedOut with
    | none => d
    | some r =>
      if ¬ r.carried then free d
      else match d.fabric.find? fun x => x.tag = tag ∧ x.cls = .rsp ∧ x.loc = .inbox ∧ x.status ≠ 5 with
        | none => d
        | some x => free { d with fabric := d.fabric.erase x }) s

end Sys2Proof.Machine
end

