-- ==== Sys2Proof/Machine/Calib.lean ====
section
/-! DEFINITION. Converter calibration (R460 to R474): hand-overs, trims and calibration runs of the BCHG blocks. -/

namespace Sys2Proof.Machine

/-- The BCHG block of BEAM[k]. -/
def bchB (k : Fin 8) : Blk := blk .bchg k.val

/-- The head whose laser channel `j` of BEAM[k] is. -/
def chanHead (k : Fin 8) (j : Fin 4) : Fin 32 := Fin.ofNat 32 (4 * k.val + j.val)

/-- Change a BCHG block's own state. -/
def Dev.bchMod (d : Dev) (k : Fin 8) (f : Bch → Bch) : Dev := { d with bch := vmod d.bch k f }

/-- The cell that serves a channel (BCHG_MAP). -/
def Dev.bchCell (d : Dev) (k : Fin 8) (j : Fin 4) : Nat := d.getF (bchB k) R.BCHG_MAP (3 * j.val + 2) (3 * j.val)

/-- BCHG_STAT.SPARE: the spare cell, 7 for none. -/
def Dev.bchSpare (d : Dev) (k : Fin 8) : Nat := d.getF (bchB k) R.BCHG_STAT 2 0

/-- A cell can be connected and trimmed: USABLE and not fenced (R419, R467). -/
def Dev.bchUsable (d : Dev) (k : Fin 8) (c : Nat) : Bool :=
  c < 5 && d.getB (bchB k) R.BCHG_TRIM_STAT 1 c && !d.cellFenced (bchB k) c

/-- The group temperature: the reading of sensor 16 + 6k (R469), as 12 bits. -/
def Dev.bchTemp (d : Dev) (k : Fin 8) : Nat := d.getF (blk .therm 0) R.THERM_SNS 11 0 (16 + 6 * k.val)

/-- Set bits of BCHG_EVT; no vector belongs to them (R473). -/
def Dev.bchEvent (d : Dev) (k : Fin 8) (i : Nat) : Dev := d.eventQuiet (bchB k) R.BCHG_EVT (wd (2 ^ i))

/-- The group has no usable spare (R467). -/
def Dev.bchNoSpare (d : Dev) (k : Fin 8) : Dev :=
  ((d.putF (bchB k) R.BCHG_STAT 2 0 7).bchEvent k 3).raise (bchB k) none 2

/-- No gate edge or code step is committed in the 40 slots from `n` on (R464 step 3). -/
def Trv.quiet (t : Trv) (skew : Int) (n : Nat) : Bool :=
  let inside (s : Int) : Bool := (n : Int) ≤ s && s < n + 40
  t.edges.all (fun e => !inside e.slot && !inside (e.slot + skew)) && t.ramps.all (fun r => !inside (r.slot + skew)) &&
    t.fades.all (fun r => !inside (r.slot + skew)) && t.defer.all (fun x => !inside x.1) &&
    t.dwellAt.all (fun x => !inside x.1 && !inside (x.1 + skew))

/-- A hand-over starts (R464 step 1). A cell that takes over the channel of a head in reset shadow enters that shadow
(R423). -/
def Dev.hoStart (d : Dev) (k : Fin 8) (j : Fin 4) (fence : Bool) : Dev :=
  let b := bchB k
  let s := d.bchSpare k
  let hb := blk .headctl (4 * k.val + j.val)
  let more := (d.shadows.filter fun x => x.by_ = hb ∧ x.blk = hb).map fun x =>
    (⟨hb, b, some s, d.now, x.ends⟩ : Shadow)
  let d1 := d.reached b (some s)
  let d2 := (d1.bchMod k fun x => { x with ho := some ⟨j, s, d1.bchCell k j, d1.now, none, none, fence⟩ }).putB b
    R.BCHG_STAT 3 true
  { d2 with shadows := d2.shadows ++ more }

/-- The level of LGATE[n]: held low where the channel has no cell any more (R471). -/
def Dev.lgate (d : Dev) (h : Fin 32) : Bool :=
  d.heads[h].trv.gate && !d.bch[Fin.ofNat 8 (h.val / 4)].lost.toList.getD (h.val % 4) false

/-- A trim starts (R466). -/
def Dev.trimStart (d : Dev) (k : Fin 8) (c : Nat) : Dev :=
  ((d.bchMod k fun x => { x with trim := some (c, d.now) }).putB (bchB k) R.BCHG_STAT 4 true).putF (bchB k)
    R.BCHG_STAT 7 5 c

/-- No trim is under way any more. -/
def Dev.trimOff (d : Dev) (k : Fin 8) : Dev :=
  (d.bchMod k fun x => { x with trim := none }).putB (bchB k) R.BCHG_STAT 4 false

/-- The run ends failed. -/
def Dev.runFail (d : Dev) (k : Fin 8) (err : Nat) : Dev :=
  match d.bch[k].run with
  | none => d
  | some _ => (d.bchMod k fun x => { x with run := none }).opFail (bchB k) err

/-- The channel whose cell has the oldest trim among the cells a run has left (R468). -/
def Dev.oldestChan (d : Dev) (k : Fin 8) (left : List Nat) : Option (Fin 4) :=
  (List.finRange 4).foldl (fun (o : Option (Fin 4)) j =>
    if d.bchCell k j ∈ left then
      match o with
      | none => some j
      | some i => if d.bch[k].age.toList.getD (d.bchCell k j) 0 < d.bch[k].age.toList.getD (d.bchCell k i) 0
          then some j else some i
    else o) none

/-- What follows when no trim and no hand-over is under way: a fence's hand-over that waited, else the run's next
hand-over (R468, R471). -/
def Dev.bchNext (d : Dev) (k : Fin 8) : Dev :=
  let x := d.bch[k]
  if x.ho.isSome ∨ x.trim.isSome then d
  else match x.wait with
    | j :: js =>
      let d1 := d.bchMod k fun y => { y with wait := js }
      if d1.bchUsable k (d1.bchSpare k) then d1.hoStart k j true
      else d1.bchMod k fun y => { y with ho := some ⟨j, 7, d1.bchCell k j, d1.now, some d1.now, none, true⟩ }
    | [] =>
      match x.run with
      | none => d
      | some (left, _, _) =>
        if left = [] then d
        else if ¬ d.bchUsable k (d.bchSpare k) then d.runFail k 0x81
        else match d.oldestChan k left with
          | none => d.bchMod k fun y => { y with run := y.run.map fun r => ([], r.2) }
          | some j => d.hoStart k j false

/-- TRACKING_DONE (R464 step 2). -/
def execTrackingDone (k : Fin 8) (s : State) : Host.Outcome State Fault Refusal :=
  onLive (fun d =>
    match d.bch[k].ho with
    | some h =>
      d.when (h.armed.isNone && d.pastNs h.since (d.getF (bchB k) R.BCHG_TRACK 15 0)) fun d =>
        (d.bchMod k fun x => { x with ho := some { h with armed := some d.now } }).putB (bchB k) R.BCHG_STAT 8 true
    | none => d) s

/-- A channel is left without a cell (R471): its gate is held low and it drives 0 V. -/
def Dev.chanLost (d : Dev) (k : Fin 8) (h : Ho) : Dev :=
  (((d.bchMod k fun x => { x with ho := none, lost := x.lost.set h.ch true }).putB (bchB k) R.BCHG_STAT 8 false).bchEvent
    k 4).raise (bchB k) (some h.old) 3

/-- HAND_OVER_SWITCH (R464 step 3, R465, R471). -/
def execHandOverSwitch (k : Fin 8) (reading : BitVec 16) (s : State) : Host.Outcome State Fault Refusal :=
  onLive (fun d =>
    let b := bchB k
    match d.bch[k].ho with
    | some h =>
      let n := chanHead k h.ch
      let t := d.heads[n].trv
      match h.armed, h.done with
      | some a, none =>
        if t.gate then d
        else if h.spare = 7 then (d.chanLost k h).bchNext k
        else if ¬ t.quiet (d.liv (blk .headctl n.val) R.TRV_DAC_SKEW).toInt d.slot then d
        else
          let w := (d.now - a) / 800
          let d1 := (d.bchMod k fun x => { x with ho := some { h with done := some d.now } }).putB b R.BCHG_STAT 8 false
          let d2 := d1.put b R.BCH_MON (wd reading.toNat) h.ch.val
          if d2.bch[k].run.isSome ∧ ¬ h.fence then d2.opPart b 3 (max w (d2.getN b R.OP_PART 3)) else d2
      | _, _ => d
    | none => d) s

/-- HAND_OVER_DISCONNECT (R464 steps 4 and 5). A cell taken over for a fence leaves service (R471). -/
def execHandOverDisconnect (k : Fin 8) (s : State) : Host.Outcome State Fault Refusal :=
  onLive (fun d =>
    let b := bchB k
    match d.bch[k].ho with
    | some h =>
      match h.done with
      | some t =>
        d.when (d.pastNs t 10) fun d =>
          let d1 := d.putF b R.BCHG_MAP (3 * h.ch.val + 2) (3 * h.ch.val) h.spare
          let d2 := ((d1.bump b R.BCHG_HOCNT).putB b R.BCHG_STAT 3 false).putF b R.BCHG_STAT 2 0 7
          let d3 := d2.bchMod k fun x => { x with ho := none }
          if h.fence then (d3.bchNoSpare k).bchNext k
          else
            let d4 := if d3.bch[k].run.isSome then d3.opPart b 2 (d3.getN b R.OP_PART 2 + 1) else d3
            d4.trimStart k h.old
      | none => d
    | none => d) s

/-- CAL_GAPWAIT (R465). -/
def execCalGapwait (k : Fin 8) (s : State) : Host.Outcome State Fault Refusal :=
  onLive (fun d =>
    match d.bch[k].ho with
    | some h =>
      match h.armed, h.done with
      | some a, none =>
        d.when (!h.fence && d.past a (d.getF (bchB k) R.BCHG_GAPWAIT 15 0 * 1000)) fun d =>
          let d1 := (d.bchMod k fun x => { x with ho := none }).put (bchB k) R.BCHG_STAT
            (setFld (setFld (d.get (bchB k) R.BCHG_STAT) 3 3 0) 8 8 0)
          (((d1.bchEvent k 2).raise (bchB k) none 1).runFail k 0x82).bchNext k
      | _, _ => d
    | none => d) s

/-- The registers of a trim that went well (R466). -/
def Dev.trimGood (d : Dev) (k : Fin 8) (c : Nat) (r : TrimResult) : Dev :=
  let b := bchB k
  let st := d.get b R.BCHG_TRIM_STAT c
  let w : Word × Word × Word × Word := (r.dac &&& 0x03FF03FF#32, r.adc &&& 0x03FF03FF#32,
    wd (d.bchTemp k + r.residual.toNat * 65536), setFld (setFld st 0 0 1) 2 2 0)
  let d1 := (((d.put b R.BCHG_TRIM_DAC w.1 c).put b R.BCHG_TRIM_ADC w.2.1 c).put b R.BCHG_TRIM_INFO w.2.2.1 c).put b
    R.BCHG_TRIM_STAT w.2.2.2 c
  d1.bchMod k fun x => { x with stored := vmod x.stored (Fin.ofNat 5 c) fun _ => w }

/-- The registers and faults of any other outcome (R460, R466, R467). -/
def Dev.trimBad (d : Dev) (k : Fin 8) (c : Nat) (refOk : Bool) : Dev :=
  let b := bchB k
  let stale := d.getB b R.BCHG_TRIM_STAT 2 c
  let d1 := ((d.putB b R.BCHG_TRIM_STAT 2 true c).bump b R.BCHG_FAILS).bchEvent k 1
  let d2 := (if stale then d1.putB b R.BCHG_TRIM_STAT 1 false c else d1).raise b (some c) 0
  if refOk then d2 else d2.raise b none 4

/-- The run's account of a trim (R470). -/
def Dev.runTrim (d : Dev) (k : Fin 8) (c : Nat) (good : Bool) (residual : Nat) : Dev :=
  let b := bchB k
  match d.bch[k].run with
  | none => d
  | some (left, total, well) =>
    let n := d.getN b R.OP_PART 0 + 1
    let d1 := (d.opPart b 0 n).opPart b 1 (c + min 255 residual * 256 + good.toNat * 65536)
    let d2 := if good then d1 else d1.opPart b 4 (d1.getN b R.OP_PART 4 + 1)
    (d2.bchMod k fun x => { x with run := some (left.filter (· ≠ c), total, if good then well ++ [c] else well) }).opProg b
      (4095 * n / max 1 total)

/-- TRIM_DONE (R460, R466, R467). -/
def execTrimDone (k : Fin 8) (r : TrimResult) (s : State) : Host.Outcome State Fault Refusal :=
  onLive (fun d =>
    let b := bchB k
    match d.bch[k].trim with
    | none => d
    | some (c, t) =>
      let refOk : Bool := 24500 ≤ r.refin.toNat && r.refin.toNat ≤ 25500
      let good : Bool := refOk && r.residual.toNat ≤ d.getF b R.BCHG_LIMIT 7 0 * 8 &&
        decide (d.now ≤ t + 800 * d.getF b R.BCHG_TIMEOUT 15 0)
      let d1 := ((d.trimOff k).put b R.BCHG_REFIN (wd r.refin.toNat)).putB b R.BCHG_STAT 16 refOk
      let d2 := (if good then d1.trimGood k c r else d1.trimBad k c refOk).bumpF b R.BCHG_TRIM_STAT 31 16 1 c
      let d3 := d2.bchMod k fun x => { x with age := vmod x.age (Fin.ofNat 5 c) fun _ => d.now }
      let d4 := d3.runTrim k c good r.residual.toNat
      let d5 := if d4.bchUsable k c then d4.putF b R.BCHG_STAT 2 0 c else d4.bchNoSpare k
      (if refOk then d5 else d5.runFail k 0x80).bchNext k) s

/-- A run begins: the spare is trimmed first (R468, R470). -/
def Dev.runBegin (d : Dev) (k : Fin 8) : Dev :=
  let b := bchB k
  let s := d.bchSpare k
  if ¬ d.bchUsable k s ∨ d.bch[k].ho.isSome ∨ d.bch[k].trim.isSome then d.opFail b 0x81
  else
    let cells := (List.range 5).filter fun c => d.bchUsable k c
    ((d.bchMod k fun x => { x with run := some (cells, cells.length, []) }).opPart b 5 (d.bchTemp k)).trimStart k s

/-- CAL_RUN (R470): the host's start. -/
def execCalRun (k : Fin 8) (tag : BitVec 8) (s : State) : Host.Outcome State Fault Refusal :=
  onLive (fun d => d.hostStart (bchB k) 1 tag.toNat 0) s

/-- The BCH_TRIM record of a cell (R477). -/
def Dev.trimRec (d : Dev) (k : Fin 8) (c : Nat) : Nat × Word × List Byte :=
  let b := bchB k
  (2, wd (k.val + c * 16), wordsBytes [d.get b R.BCHG_TRIM_DAC c, d.get b R.BCHG_TRIM_ADC c, d.get b R.BCHG_TRIM_INFO c,
    d.get b R.BCHG_TRIM_STAT c])

/-- CAL_RUN_DONE (R468). -/
def execCalRunDone (k : Fin 8) (s : State) : Host.Outcome State Fault Refusal :=
  onLive (fun d =>
    let b := bchB k
    match d.bch[k].run with
    | some ([], _, well) =>
      if d.bch[k].ho.isSome ∨ d.bch[k].trim.isSome then d else
      let d1 := ((d.put b R.BCHG_TLAST (wd (d.bchTemp k))).bump b R.BCHG_RUNS).bchEvent k 0
      ((d1.bchMod k fun x => { x with run := none }).opDone b).jAppend (well.map fun c => d1.trimRec k c)
    | _ => d) s

/-- A hand-over not yet past step 3 is dropped. -/
def Dev.hoDrop (d : Dev) (k : Fin 8) : Dev :=
  (d.bchMod k fun x => { x with ho := none }).put (bchB k) R.BCHG_STAT
    (setFld (setFld (d.get (bchB k) R.BCHG_STAT) 3 3 0) 8 8 0)

/-- A calibration run ends early (R470): a hand-over before the switch is dropped, a trim keeps the previous trims and
its pair becomes the spare. -/
def Dev.calKill (d : Dev) (k : Fin 8) : Dev :=
  let d0 := d.bchMod k fun x => { x with run := none }
  let d1 : Dev := match d0.bch[k].ho with
    | some h => if h.done.isNone ∧ ¬ h.fence then d0.hoDrop k else d0
    | none => d0
  match d1.bch[k].trim with
  | some (c, _) => (d1.trimOff k).putF (bchB k) R.BCHG_STAT 2 0 c
  | none => d1

/-- A fence of one cell (R471): a serving cell is handed over at once, before a hand-over of a run that has not switched yet, and one
that is being handed over already leaves service at its end; the spare's fence drops a hand-over. -/
def Dev.bchCellFence (d : Dev) (k : Fin 8) (c : Nat) : Dev :=
  let b := bchB k
  match (List.finRange 4).find? fun j => d.bchCell k j = c with
  | some j =>
    let d1 : Dev := match d.bch[k].trim with
      | some (t, _) => (d.trimOff k).putF b R.BCHG_STAT 2 0 t
      | none => d
    match d1.bch[k].ho with
    | some h =>
      if h.ch = j then d1.bchMod k fun x => { x with ho := some { h with fence := true } }
      else
        let d2 := if h.done.isNone ∧ ¬ h.fence then d1.hoDrop k else d1
        (d2.bchMod k fun x => { x with wait := x.wait ++ [j] }).bchNext k
    | none => (d1.bchMod k fun x => { x with wait := x.wait ++ [j] }).bchNext k
  | none =>
    let d1 : Dev := match d.bch[k].ho with
      | some h => if h.spare = c ∧ h.done.isNone then
          (d.hoDrop k).bchMod k fun x => { x with wait := if h.fence then h.ch :: x.wait else x.wait } else d
      | none => d
    let d2 : Dev := match d1.bch[k].trim with
      | some (t, _) => if t = c then d1.trimOff k else d1
      | none => d1
    if d2.bchSpare k = c ∨ d2.bchSpare k = 7 then (d2.bchNoSpare k).bchNext k else d2

/-- A cell's fence is cleared: it becomes the spare where there is none (log 26, DEDUCED). -/
def Dev.bchCellBack (d : Dev) (k : Fin 8) (c : Nat) : Dev :=
  if d.bchSpare k = 7 ∧ d.bchUsable k c ∧ ¬ (List.finRange 4).any (fun j => d.bchCell k j = c) ∧ d.bch[k].trim.isNone then
    d.putF (bchB k) R.BCHG_STAT 2 0 c
  else d

/-- A soft reset of the block ends (R467, R470, R473): its state is fresh but for the cells' places, the stored trims and a hand-over
past step 3. -/
def Dev.bchReset (d : Dev) (k : Fin 8) (map stat : Word) : Dev :=
  let b := bchB k
  let x := d.bch[k]
  let ho := x.ho.filter fun h => h.done.isSome
  let d0 := { d with bch := d.bch.set k { Bch.init with stored := x.stored, age := x.age, ho := ho } }
  let d1 := (d0.put b R.BCHG_MAP map).put b R.BCHG_STAT (wd (fld stat 2 0 + ho.isSome.toNat * 8))
  let d2 := (List.range 5).foldl (fun (e : Dev) c =>
    let w := x.stored.toList.getD c (0, 0, 0, 0)
    (((e.put b R.BCHG_TRIM_DAC w.1 c).put b R.BCHG_TRIM_ADC w.2.1 c).put b R.BCHG_TRIM_INFO w.2.2.1 c).put b
      R.BCHG_TRIM_STAT 2#32 c) d1
  match (List.range 5).find? fun c => ¬ (List.finRange 4).any (fun j => d2.bchCell k j = c) with
  | some c => if d2.bchSpare k = 7 then d2.putF b R.BCHG_STAT 2 0 c else d2
  | none => d2

end Sys2Proof.Machine
end

