-- ==== Sys2Proof/Machine/Correction.lean ====
section
/-! DEFINITION. The correction unit (R263 to R271): feature records placed at the lead distance, and predictions (log 36, DEDUCED and DESIGN CHOICE, marked there). -/

namespace Sys2Proof.Machine

/-- The bobbin bound at a position of the path, or the live buffer of the one a record names. -/
def Dev.bobAt (d : Dev) (h : Fin 32) (s : Rat) (bob : Nat) : BobBuf :=
  match d.heads[h].drf.moveAt s with
  | some m => d.bobBuf m.bob m.buf
  | none => d.bobBuf bob (d.bob bob).live

/-- A LASER_OFF or DWELL_OFF lies between two positions (R269 step 1): posted, or where the path has left the laser-on
run in between; a dwell stands at the first one. -/
def Dev.offBetween (d : Dev) (h : Fin 32) (a b : Int) : Bool :=
  let t := d.heads[h].trv
  let f := d.heads[h].drf
  let within (e : Ent) : Bool := (e.kind = 1 || e.kind = 6) && decide (a ≤ e.arc) && decide (e.arc ≤ b)
  let ms := (f.trail ++ f.moves).filter fun m => decide (m.arc0 ≤ (b : Rat)) &&
    (decide ((a : Rat) < m.arc0 + m.len) || (m.kind = .dwell && decide ((a : Rat) = m.arc0)))
  t.sched.any within || t.edges.any (fun x => within x.ent) || t.dwellAt.any (fun x => within x.2) ||
    ms.any (fun m => m.kind ≠ .mark && m.kind ≠ .fillet && decide (m.arc0 < (b : Rat))) ||
    (ms.zip (ms.drop 1)).any fun p => p.1.run ≠ p.2.run

/-- A feature record is used (R267): PI mode and target where it is. -/
def Dev.recUse (d : Dev) (h : Fin 32) (r : FeatIn) : Option (Nat × Nat) :=
  let x := d.bobAt h (r.sMid : Rat) r.bob
  let base : Bool := d.corOn h && r.laser && !r.noPos && !r.noPool
  match fld (x.word 0xC0) 1 0 with
  | 1 => if base ∧ x.nat 0x80 ≠ 0 then some (x.nat 0x80, r.area) else none
  | 2 => if base ∧ ¬ r.noTemp ∧ x.nat 0x8C ≠ 0 then some (x.nat 0x8C, r.temp) else none
  | _ => none

/-- The newest unfired CORR entry: the one that lies farthest along the path. -/
def Trv.newestCorr (t : Trv) : Option Ent :=
  t.corEnts.foldl (fun (b : Option Ent) e => match b with
    | some x => if x.arc ≤ e.arc then some e else b
    | none => some e) none

/-- Two scales differ by less than DEADBAND. -/
def closeTo (a b band : Nat) : Bool := decide ((a - b) + (b - a) < band)

/-- The result of a record is placed at its target position (R269); an entry whose slot has come fires first (R270). -/
def Dev.corPlace (d : Dev) (h : Fin 32) (r : FeatIn) (pt : Int) (o : CorOut) (x : BobBuf) : Dev :=
  let b := headB h
  let t := d.heads[h].trv
  let sc := t.s + t.v * (((fld (d.liv b R.TRV_HORIZON) 11 0 + 1000 : Nat) : Rat) / 1000)
  let newest := t.newestCorr
  let st := d.get b R.COR_STAT
  let ref : Nat × Nat := match newest with
    | some e => (e.pwr, e.spd)
    | none => (fld st 15 0, fld st 31 16)
  let band := fld (x.word 0xDC) 15 0
  let fires (e : Ent) : Bool := t.edges.any fun x => x.ent.num = e.num && decide (x.slot ≤ d.slot)
  let near_ : Option Ent := match newest with
    | some e => if pt - e.arc < ((d.getN b R.COR_MINSTEP : Nat) : Int) ∧ ¬ fires e then some e else none
    | none => none
  if d.offBetween h r.sMid pt then d.bump b R.COR_PASTEND
  else if (pt : Rat) ≤ sc then
    let d1 := (d.bump b R.COR_LEADLOST).corEvent h 0
    (if d.heads[h].cor.lost then d1 else d1.raise b none 17).corMod h fun c => { c with lost := true }
  else
    let d0 := d.corMod h fun c => { c with lost := false }
    if closeTo o.p ref.1 band ∧ closeTo o.s ref.2 band then d0
    else match near_ with
      | some e => d0.trvMod h fun t => t.entMod e.num fun y => { y with pwr := o.p, spd := o.s }
      | none =>
        if 16 ≤ (t.corEnts.filter fun e => !fires e).length then (d0.bump b R.COR_FULL).corEvent h 2
        else
          (d0.post_ h ⟨pt, 2, true, false, false, o.p, r.bob, false, 0, o.s, 0, 0, false, 0, 0⟩).bump b R.COR_POSTED

/-- A feature record at the correction unit (R267, R268). -/
def Dev.featRecord (d : Dev) (h : Fin 32) (r : FeatIn) : Dev :=
  let b := headB h
  let d0 := (d.corIdle h).bump b R.COR_RECORDS
  match d0.recUse h r with
  | none => d0.bump b R.COR_SKIP
  | some (tgt, meas) =>
    let x0 := d0.bobAt h (r.sMid : Rat) r.bob
    let lead := x0.nat 0xD0
    let pt := r.sMid + ((if lead = 0 then 150000 else lead : Nat) : Int)
    let x := d0.bobAt h (pt : Rat) r.bob
    let c := d0.heads[h].cor
    let e := corErr tgt meas
    let lim : Int := (x.nat 0xCC : Nat)
    let i := if c.frozen then c.integ else clampI (-lim) lim (c.integ + mul16 (x.int 0xC8) e)
    let u := mul16 (x.int 0xC4) e + i
    let o := corOut x (c.ffAt pt).1 u
    let smin := max 0x4000 (min 0x8000 (fld (x.word 0xD8) 15 0))
    let frozen : Bool := (o.high && decide (0 < e) && (!bit (x.word 0xC0) 3 || decide (o.s = smin))) || (o.low && decide (e < 0))
    let d1 := ((d0.bump b R.COR_USED).corInteg h i).corMod h fun c => { c with frozen := frozen }
    let d2 := if o.low ∨ o.high then d1.bump b R.COR_PSAT else d1
    d2.corPlace h r pt o x

/-- FEATURE_RECORD (R236, R268). -/
def execFeatureRecord (h : Fin 32) (s : State) : Host.Outcome State Fault Refusal :=
  onLive (fun d =>
    match d.heads[h].cor.recs with
    | [] => d
    | r :: rest => d.when (d.up (headB h)) fun d => (d.corMod h fun c => { c with recs := rest }).featRecord h r) s

/-- A prediction, or its failure, reaches its start entry (R263 to R265). -/
def Dev.predIn (d : Dev) (h : Fin 32) (num temp status : Nat) : Dev :=
  let b := headB h
  let c := d.heads[h].cor
  let arc := (c.await.find? fun a => a.1 = num).map (·.2)
  let ent := d.heads[h].trv.corEnts.find? fun e => e.num = num
  let d1 := d.corMod h fun c => { c with await := c.await.filter fun a => a.1 ≠ num }
  match status, ent, arc with
  | 0, some e, some s =>
    let x := d.bobBuf e.bob e.buf
    let ff := if d.webLayer then 32768 else ffOf x temp
    let o := corOut x ff c.integ
    let put (l : List (Int × Nat × Nat)) : List (Int × Nat × Nat) := l.map fun f => if f.1 = s then (s, ff, temp) else f
    (d1.corMod h fun c => { c with failed := false, ffs := put c.ffs }).trvMod h fun t => t.entMod num fun y =>
      { y with pwr := o.p, spd := o.s }
  | _, _, _ =>
    let d2 := (d1.bump b R.COR_FFLATE).corEvent h 1
    if status = 0 then d2.corMod h fun c => { c with failed := false }
    else (if c.failed then d2 else d2.raise b none 16).corMod h fun c => { c with failed := true }

/-- PREDICTION (R264, R265): a response at the head that has not been timed out, or the one it made for itself (R26). -/
def execPrediction (h : Fin 32) (s : State) : Host.Outcome State Fault Refusal :=
  onLive (fun d =>
    let b := headB h
    let isRsp (x : Body) : Bool := match x with
      | .predRsp _ _ => true
      | _ => false
    let live (x : Msg) : Bool := x.status = 5 || d.reqs.any fun r => r.tag = x.tag && !r.timedOut
    match d.fabric.find? fun x => x.dst = b ∧ x.loc = .inbox ∧ isRsp x.body ∧ live x with
    | none => d
    | some x =>
      d.when (d.up b) fun d =>
        let d1 := d.unpost x
        let d2 : Dev := if x.status = 5 then d1 else { d1 with reqs := d1.reqs.filter fun r => r.tag ≠ x.tag }
        match x.body with
        | .predRsp num temp => (d2.predIn h num temp x.status.toNat).corIssue h
        | _ => d2) s

end Sys2Proof.Machine
end

