-- ==== Sys2Proof/Machine/VisionOps.lean ====
section
/-! DEFINITION. The stages of a camera frame (R229 to R235): from raw codes to superpixels, the pool and its features
(log 39, DEDUCED and DESIGN CHOICE, marked there). -/

namespace Sys2Proof.Machine

/-- The header of a camera frame (R307). -/
structure FrameHdr where
  seq    : BitVec 16
  sid    : Nat
  twelve : Bool
  tick   : Word
  start  : Nat
  exp    : Nat
  x0     : Nat
  y0     : Nat
  w      : Nat
  h      : Nat
  count  : Nat
deriving DecidableEq, Repr

/-- The header's fields. -/
def frameHdr (bs : List Byte) : FrameHdr :=
  let ws := bytesWords bs
  let w (i : Nat) : Word := ws.getD i 0
  ⟨(w 0).extractLsb' 0 16, fld (w 0) 23 16, bit (w 0) 24, w 1, fld (w 2) 15 0, (w 3).toNat, fld (w 4) 7 0, fld (w 4) 15 8,
    fld (w 4) 23 16, fld (w 4) 31 24, (w 5).toNat⟩

/-- A valid header (R307). -/
def FrameHdr.ok (f : FrameHdr) : Bool := 8 ≤ f.w && f.w ≤ 128 && 8 ≤ f.h && f.h ≤ 128 && f.count = f.w * f.h

/-- The calibration in force after reset (R228). -/
def Cal.default : Cal := ⟨2, 0xE04, 256, 256, 0, 0, List.replicate 289 0x4000, [], []⟩

/-- The band of a sensor position: 0 λ1, 1 λ2, 2 clear, 3 visible. -/
def Cal.band (c : Cal) (x y : Nat) : Nat := fld c.mosaic (8 * (y % c.period) + 2 * (x % c.period) + 1) (8 * (y % c.period) + 2 * (x % c.period))

/-- The shading gain at a sensor position, 14 fraction bits (R229, R231). -/
def Cal.gain (c : Cal) (x y : Nat) : Rat :=
  let g (v n : Nat) : Nat × Rat :=
    let q : Rat := if n ≤ 1 then 0 else ((v * 16 : Nat) : Rat) / ((n - 1 : Nat) : Rat)
    let i := min 15 q.floor.toNat
    (i, q - (i : Rat))
  let a := g x c.sw
  let b := g y c.sh
  let s (i j : Nat) : Rat := (c.shade.getD (17 * i + j) 0x4000 : Rat)
  let top := s b.1 a.1 + a.2 * (s b.1 (a.1 + 1) - s b.1 a.1)
  let bot := s (b.1 + 1) a.1 + a.2 * (s (b.1 + 1) (a.1 + 1) - s (b.1 + 1) a.1)
  (top + b.2 * (bot - top)) / 16384

/-- A pixel value: unsigned, 32 bits with 8 fraction bits. -/
def pixVal (x : Rat) : Nat := min 0xFFFFFFFF x.floor.toNat

/-- Stages 1 and 2: black level and defective pixels; the frame's DEFILL flag. -/
def stage2 (c : Cal) (s : CamSet) (f : FrameHdr) (px : List Nat) : List Nat × Bool :=
  let v1 := px.zipIdx.map fun p => p.1 * 256 - s.black.getD (c.band (f.x0 + p.2 % f.w) (f.y0 + p.2 / f.w)) 0 * 256
  let bad := (c.defs.filter fun q => f.x0 ≤ q.1 ∧ q.1 < f.x0 + f.w ∧ f.y0 ≤ q.2 ∧ q.2 < f.y0 + f.h)
  let p : Int := (c.period : Nat)
  bad.foldl (fun (a : List Nat × Bool) q =>
    let near8 := [(p, 0), (-p, 0), (0, p), (0, -p), (p, p), (p, -p), (-p, p), (-p, -p)].filterMap fun o =>
      let x := (q.1 : Int) + o.1
      let y := (q.2 : Int) + o.2
      if (f.x0 : Int) ≤ x ∧ x < f.x0 + f.w ∧ (f.y0 : Int) ≤ y ∧ y < f.y0 + f.h ∧ (x.toNat, y.toNat) ∉ c.defs then
        some (v1.getD ((y.toNat - f.y0) * f.w + (x.toNat - f.x0)) 0)
      else none
    let at_ := (q.2 - f.y0) * f.w + (q.1 - f.x0)
    (a.1.set at_ (if near8.isEmpty then 0 else near8.sum / near8.length), a.2 || near8.isEmpty)) (v1, false)

/-- Stage 3: lens shading. -/
def stage3 (c : Cal) (f : FrameHdr) (v : List Nat) : List Nat :=
  v.zipIdx.map fun p => pixVal ((p.1 : Rat) * c.gain (f.x0 + p.2 % f.w) (f.y0 + p.2 / f.w))

/-- Stage 4: normalisation to intensity units. -/
def stage4 (s : CamSet) (v : List Nat) : List Nat :=
  v.map fun p => pixVal (((p * 256000 : Nat) : Rat) / ((max 1 (s.exp * s.gain) : Nat) : Rat))

/-- A superpixel: its four band means (R232). -/
structure Super where
  col : Nat
  row : Nat
  b   : List Nat
deriving DecidableEq, Repr

/-- Stage 5: superpixels of P × P pixels (R232). -/
def supers (c : Cal) (f : FrameHdr) (v : List Nat) : List Super :=
  let p := c.period
  (List.range ((f.w / p) * (f.h / p))).map fun i =>
    let col := i % (f.w / p)
    let row := i / (f.w / p)
    let cells := (List.range (p * p)).map fun q =>
      let x := col * p + q % p
      let y := row * p + q / p
      (c.band (f.x0 + x) (f.y0 + y), v.getD (y * f.w + x) 0)
    ⟨col, row, (List.range 4).map fun b =>
      let l := (cells.filter fun q => q.1 = b).map (·.2)
      if l.isEmpty then 0 else l.sum / l.length⟩

/-- Stage 6: the ratio temperature of a superpixel (R233) [0.1 K]. -/
def superTemp (c : Cal) (rtMin : Nat) (s : Super) : Option Rat :=
  let a := s.b.getD 0 0
  let b := s.b.getD 1 0
  if a < rtMin ∨ b < rtMin ∨ b = 0 ∨ c.rt.isEmpty ∨ c.rmax ≤ c.rmin then none
  else
    let r : Rat := ((a * 65536 : Nat) : Rat) / (b : Rat)
    if r < (c.rmin : Rat) ∨ (c.rmax : Rat) < r then none
    else
      let q := 255 * (r - (c.rmin : Rat)) / ((c.rmax - c.rmin : Nat) : Rat)
      let i := min 254 q.floor.toNat
      let t0 : Rat := (c.rt.getD i 0 : Rat)
      let t1 : Rat := (c.rt.getD (i + 1) 0 : Rat)
      some (t0 + (q - (i : Rat)) * (t1 - t0))

/-- The feature band value of a superpixel (R234). -/
def featVal (sel : Nat) (s : Super) : Nat :=
  match sel with
  | 0 => s.b.getD 0 0
  | 1 => s.b.getD 1 0
  | 2 => s.b.getD 2 0
  | _ => s.b.getD 0 0 + s.b.getD 1 0

/-- The features of R234 as they enter a record. -/
structure Feat where
  area   : Nat
  cx     : Int
  cy     : Int
  length : Nat
  width  : Nat
  peak   : Nat
  temp   : Nat
  noPool : Bool
  noTemp : Bool
deriving DecidableEq, Repr

/-- Saturation to an unsigned field of `n` bits. -/
def satU (n : Nat) (x : Rat) : Nat := min (2 ^ n - 1) (near x).toNat

/-- Sensor offsets turned to bed axes: mirrored in X, rotated (R234, R248). -/
def toBed (rot : Word) (dx dy : Rat) : Rat × Rat :=
  let x := if bit rot 31 then -dx else dx
  let sc := sincos ((fld rot 22 0 : Rat) / 1000000)
  (x * sc.2 - dy * sc.1, x * sc.1 + dy * sc.2)

/-- Stage 7: the features of the pool (R234). `tx` and `ty` are the path tangent. -/
def features (c : Cal) (f : FrameHdr) (ss : List Super) (sel thresh rtMin pixNm : Nat) (axis rot : Word) (tx ty : Rat) : Feat :=
  let pool := (ss.filter fun s => thresh < featVal sel s)
  let peak := (ss.map (featVal sel)).foldl max 0
  let ws := pool.map fun s => (featVal sel s - thresh, s)
  let wsum : Rat := ((ws.map (·.1)).sum : Rat)
  let half : Rat := (c.period : Rat) / 2
  let px (s : Super) : Rat × Rat :=
    let dx := ((f.x0 + s.col * c.period : Nat) : Rat) + half - (fld axis 15 0 : Rat) / 16
    let dy := ((f.y0 + s.row * c.period : Nat) : Rat) + half - (fld axis 31 16 : Rat) / 16
    let q := toBed rot dx dy
    (q.1 * (pixNm : Rat) / 100, q.2 * (pixNm : Rat) / 100)
  let mean (g : Super → Rat) : Rat := if wsum = 0 then 0 else (ws.foldl (fun (a : Rat) w => a + (w.1 : Rat) * g w.2) 0) / wsum
  let mx := mean fun s => (px s).1
  let my := mean fun s => (px s).2
  let along (s : Super) : Rat := ((px s).1 - mx) * tx + ((px s).2 - my) * ty
  let across (s : Super) : Rat := ((px s).2 - my) * tx - ((px s).1 - mx) * ty
  let temps := pool.filterMap (superTemp c rtMin)
  let side : Rat := ((c.period * pixNm : Nat) : Rat) / 1000
  let sat16 (x : Rat) : Int := clampI (-32768) 32767 (near x)
  if pool.isEmpty then ⟨0, 0, 0, 0, 0, min 65535 (peak / 256), 0, true, true⟩
  else
    { area := satU 32 ((pool.length : Rat) * side * side), cx := sat16 mx, cy := sat16 my,
      length := satU 16 (4 * rsqrt (mean fun s => along s * along s)),
      width := satU 16 (4 * rsqrt (mean fun s => across s * across s)),
      peak := min 65535 (peak / 256),
      temp := if temps.isEmpty then 0 else satU 16 (temps.sum / (temps.length : Rat)),
      noPool := false, noTemp := temps.isEmpty }

/-- Codes of `n` bits packed least significant bit first. -/
def packBits (n : Nat) (v : List Nat) : List Byte :=
  let x := v.foldr (fun a r => a % 2 ^ n + 2 ^ n * r) 0
  leBytes ((n * v.length + 7) / 8) x

end Sys2Proof.Machine
end

