-- ==== Sys2Proof/Machine/Vision.lean ====
section
/-! DEFINITION. Melt-pool vision (R220 to R249): frames, settings, calibration, rings and guests (log 39, DEDUCED and DESIGN CHOICE, marked there). -/

namespace Sys2Proof.Machine

/-- The MPV of a head. -/
def mpvB (h : Fin 32) : Blk := blk .mpv h.val

/-- Change a pipeline. -/
def Dev.mpvMod (d : Dev) (h : Fin 32) (f : Mpv → Mpv) : Dev := { d with mpvs := vmod d.mpvs h f }

/-- A bit of a pipeline's MPV_EVT, on the vector of the camera's head (R249). -/
def Dev.mpvEvent (d : Dev) (p cam : Fin 32) (k : Nat) : Dev :=
  d.event (mpvB p) R.MPV_EVT R.MPV_EVT_EN (wd (2 ^ k)) (16 + cam.val)

/-- MPV_STAT.STATE. -/
def Dev.mpvSt (d : Dev) (h : Fin 32) : Nat := d.getF (mpvB h) R.MPV_STAT 2 0

/-- Set MPV_STAT.STATE. -/
def Dev.mpvTo (d : Dev) (h : Fin 32) (st : Nat) : Dev := d.putF (mpvB h) R.MPV_STAT 2 0 st

/-- A pipeline leaves RUN or GUEST (R247): any guest binding ends. -/
def Dev.mpvOut (d : Dev) (h : Fin 32) (st : Nat) : Dev := (d.mpvMod h fun x => { x with guest := none, was := none }).mpvTo h st

/-- What a camera runs on by its own MPV. -/
def Dev.ownView (d : Dev) (h : Fin 32) : CamView :=
  let b := mpvB h
  let x := d.mpvs[h]
  ⟨d.get b R.MPV_CTL, d.get b R.MPV_RT_MIN, d.get b R.MPV_PIX_NM, d.get b R.MPV_AXIS, d.get b R.MPV_CAM_ROT, d.get b R.MPV_ARC_CROP,
    d.get b R.MPV_THUMB_BIN, x.force, x.sent, x.cal⟩

/-- A fence of the MPV (R245, R247 step 4): what it held is kept for a host of its camera. -/
def Dev.mpvFence (d : Dev) (h : Fin 32) : Dev := (d.mpvMod h fun x => { x with kept := some (d.ownView h) }).mpvOut h 3

/-- The pipeline that has a camera as its guest. -/
def Dev.hostOf (d : Dev) (h : Fin 32) : Option (Fin 32) :=
  (List.range 4).findSome? fun i =>
    let p : Fin 32 := Fin.ofNat 32 (h.val / 4 * 4 + i)
    if d.mpvSt p = 2 ∧ d.mpvs[p].guest.map (·.1) = some (Fin.ofNat 4 h.val) then some p else none

/-- What a camera runs on now: as a guest, and while its MPV is fenced, on what was held at the fence (R245). -/
def Dev.camView (d : Dev) (h : Fin 32) : CamView :=
  if d.fenced (mpvB h) ∨ (d.hostOf h).isSome then d.mpvs[h].kept.getD (d.ownView h) else d.ownView h

/-- The set in force for a frame that starts at tick `k` (R223). -/
def setAt (f : CamSet) (l : List (CamSet × Nat)) (k : Nat) : CamSet :=
  (l.foldl (fun (b : CamSet × Nat) s => if s.2 ≤ k ∧ b.2 ≤ s.2 then s else b) (f, 0)).1

/-- A frame of the camera starts at tick `k` (R223): the frame that a set takes effect with starts by the timing before it
(log 39, DEDUCED). -/
def CamView.starts (v : CamView) (k : Nat) : Bool :=
  let s := setAt v.force v.sent (k - 1)
  k % max 1 s.period = s.skew

/-- The `n`-th frame start after one at tick `k`. -/
def CamView.later (v : CamView) : Nat → Nat → Nat
  | 0, k => k
  | n + 1, k =>
    let s := setAt v.force v.sent k
    let p := max 1 s.period
    v.later n (k + 1 + (s.skew + p - (k + 1) % p) % p)

/-- Sets sent and not in force (MPV_STAT[25:24], R224). -/
def Mpv.unborn (x : Mpv) (k : Nat) : Nat := (x.sent.filter fun s => decide (k < s.2)).length

/-- Sets that no frame of the last 256 ticks was taken with are dropped (R224; log 39, DESIGN CHOICE). -/
def Mpv.prune (x : Mpv) (k : Nat) : Mpv :=
  { x with force := setAt x.force x.sent (k - 257), sent := x.sent.filter fun s => decide (k < s.2 + 257) }

/-- OFF and RUN follow MPV_CTL.EN and the camera's presence (R247 steps 1 and 6, R322). -/
def Dev.mpvEval (d : Dev) (h : Fin 32) : Dev :=
  let en := d.getB (mpvB h) R.MPV_CTL 0
  let here := d.cameraHere h
  let d1 := d.putB (mpvB h) R.MPV_STAT 5 here
  let st := d.mpvSt h
  if ¬ d.up (mpvB h) then d1
  else if st = 0 ∧ en ∧ here ∧ d.laneUp (headLane h) then d1.mpvTo h 1
  else if (st = 1 ∨ st = 2) ∧ ¬ (en ∧ here) then d1.mpvOut h 0
  else d1

/-- A write of MPV_CTL. -/
def Dev.mpvCtl (d : Dev) (h : Fin 32) (v : Word) : Dev :=
  (d.put (mpvB h) R.MPV_CTL (R.MPV_CTL.write (d.get (mpvB h) R.MPV_CTL) v)).mpvEval h

/-- MPV_ENABLE (R247). -/
def execMpvEnable (h : Fin 32) (v : Word) (s : State) : Host.Outcome State Fault Refusal :=
  onLive (fun d => d.hostWrite (mpvB h) 0x100 fun e => e.mpvCtl h v) s

/-! Settings (R222 to R224). -/

/-- The settings in the shadow registers. -/
def Dev.shadowSet (d : Dev) (h : Fin 32) (sid : Nat) : CamSet :=
  let b := mpvB h
  ⟨sid, d.getN b R.MPV_SHD_EXP, d.getN b R.MPV_SHD_GAIN, d.get b R.MPV_SHD_ROI, d.getN b R.MPV_SHD_TIMING,
    d.getF b R.MPV_SHD_PHASE 15 0, d.getF b R.MPV_SHD_PHASE 25 16, (List.range 4).map fun i => d.getN b R.MPV_SHD_BLACK i⟩

/-- Why a commit is refused (R222), 0 where it is accepted. -/
def Dev.commitCheck (d : Dev) (h : Fin 32) (s : CamSet) : Nat :=
  let n := headLane h
  let here := d.cameraHere h
  let p := (d.mpvs[h].cal.getD Cal.default).period
  let w := fld s.roi 23 16
  let ht := fld s.roi 31 24
  let beyond : Bool := here && (decide (fld (d.desc n 4) 8 0 < fld s.roi 7 0 + w) || decide (fld (d.desc n 4) 24 16 < fld s.roi 15 8 + ht))
  let least := (w * ht * 10 + 4095) / 4096
  if s.exp < 100 ∨ 50000 < s.exp then 1
  else if s.gain < 256 ∨ 4096 < s.gain then 2
  else if w < 8 ∨ 128 < w ∨ ht < 8 ∨ 128 < ht ∨ w % p ≠ 0 ∨ ht % p ≠ 0 ∨ beyond then 3
  else if s.period < least ∨ (here ∧ s.period < fld (d.desc n 3) 31 16) then 4
  else if s.period ≤ s.skew ∨ s.period * 1000 ≤ s.exp + s.phase then 5
  else 0

/-- MPV_STAT's last accepted SID. -/
def Dev.setShow (d : Dev) (h : Fin 32) : Dev :=
  d.putF (mpvB h) R.MPV_STAT 23 16 (d.getF (mpvB h) R.MPV_SET_STAT 7 0)

/-- MPV_SET_CMD.COMMIT (R222 to R224). -/
def Dev.mpvCommit (d : Dev) (h : Fin 32) : Dev :=
  let b := mpvB h
  let last := d.getF b R.MPV_SET_STAT 7 0
  let sid := if last = 255 then 1 else last + 1
  let s := d.shadowSet h sid
  let why := d.commitCheck h s
  if why ≠ 0 then (d.putB b R.MPV_SET_STAT 8 true).putF b R.MPV_SET_STAT 11 9 why
  else
    let old := d.mpvs[h].wait.isSome
    ((d.mpvMod h fun x => { x with wait := some (s, d.now) }).put b R.MPV_SET_STAT (wd (sid + old.toNat * 4096))).setShow h

/-- COMMIT (R222). -/
def execCommit (h : Fin 32) (s : State) : Host.Outcome State Fault Refusal :=
  onLive (fun d => d.hostWrite (mpvB h) 0x134 fun e => e.mpvCommit h) s

/-- A frame of the camera starts in this servo tick (R223). -/
def Dev.frameTick (d : Dev) (h : Fin 32) : Bool := (d.camView h).starts d.tick

/-- The payload of a SETTINGS frame (R308). -/
def CamSet.bytes (s : CamSet) (k : Nat) : List Byte :=
  wordsBytes [wd s.sid, wd k, wd s.exp, wd s.gain, s.roi, wd (s.period + s.skew * 65536), wd s.phase, 0]

/-- SETTINGS (R223, R308): the first frame start after the commit. -/
def execSettings (h : Fin 32) (s : State) : Host.Outcome State Fault Refusal :=
  onLive (fun d =>
    let x := d.mpvs[h]
    match x.wait with
    | none => d
    | some (set, at_) =>
      let k := d.tick
      d.when (d.up (mpvB h) && d.cameraHere h && d.frameTick h &&
          decide (at_ * 5 < 4 * (1000 * k + (setAt x.force x.sent (k - 1)).phase)) && d.laneCan (headLane h) 1 32) fun d =>
        let from_ := (d.ownView h).later (fld (d.liv (mpvB h) R.MPV_CAM_DLY) 1 0) k
        ((d.mpvMod h fun y => { (y.prune k) with wait := none, sent := (y.prune k).sent ++ [(set, from_)] }).laneSend (headLane h) 1 1
          (set.bytes k)).setShow h) s

/-! Calibration (R227, R228). -/

/-- The defect list is sorted ascending by y, then x. -/
def defsSorted : List (Nat × Nat) → Bool
  | a :: b :: t => (decide (a.2 < b.2) || (a.2 = b.2 && decide (a.1 ≤ b.1))) && defsSorted (b :: t)
  | _ => true

/-- A calibration image, none where R227 rejects it. -/
def calOf (bs : List Byte) : Option Cal :=
  let ws := bytesWords bs
  let w (i : Nat) : Word := ws.getD i 0
  let half (o : Nat) : Nat := if o % 4 = 0 then fld (w (o / 4)) 15 0 else fld (w (o / 4)) 31 16
  let n := fld (w 1) 10 0
  let p := fld (w 2) 2 0
  let defs := (List.range n).map fun i => (fld (w (320 + i)) 15 0, fld (w (320 + i)) 31 16)
  if w 0 ≠ 0x5A430001#32 ∨ 1024 < n ∨ (p ≠ 2 ∧ p ≠ 4) ∨ w 15 ≠ crc32 (bs.take 0x3C ++ bs.drop 0x40) ∨ ¬ defsSorted defs then none
  else some ⟨p, w 16, fld (w 3) 15 0, fld (w 3) 31 16, (w 4).toNat, (w 5).toNat, (List.range 289).map fun i => half (0x80 + 2 * i),
    (List.range 256).map fun i => half (0x300 + 2 * i), defs⟩

/-- The pending calibration of a pipeline that is not fenced is promoted (R228, R245). -/
def Dev.calPromote (d : Dev) (h : Fin 32) : Dev :=
  match d.mpvs[h].calPend with
  | none => d
  | some c =>
    if d.fenced (mpvB h) then d else (((d.mpvMod h fun x => { x with cal := some c, calPend := none }).putB (mpvB h) R.MPV_STAT 3 true).putB (mpvB h)
      R.MPV_STAT 4 false).mpvEvent h h 5

/-- CAL_LOAD (R227): the host's start. -/
def execCalLoad (h : Fin 32) (tag : BitVec 8) (s : State) : Host.Outcome State Fault Refusal :=
  onLive (fun d => d.hostStart (mpvB h) 1 tag.toNat 0) s

/-- CAL_LOAD_DONE (R227, R228). -/
def execCalLoadDone (h : Fin 32) (s : State) : Host.Outcome State Fault Refusal :=
  onLiveMem (fun m d =>
    let b := mpvB h
    if ¬ d.opRunning b 1 then (m, d)
    else match d.sdRead m (d.addr2 b R.MPV_CAL_ADDR_LO R.MPV_CAL_ADDR_HI) 5376 with
      | .error e =>
        (m, (d.sdMark b (d.addr2 b R.MPV_CAL_ADDR_LO R.MPV_CAL_ADDR_HI) 5376).opFail b (if e = 4 then 7 else 6))
      | .ok bs => match calOf bs with
        | none => (m, d.opFail b 0x80)
        | some c =>
          let d1 := ((d.mpvMod h fun x => { x with calPend := some c }).putB b R.MPV_STAT 4 true).opDone b
          (m, if d1.running.isSome then d1 else d1.calPromote h)) s

/-! Guests (R244 to R246). -/

/-- The head whose camera a pipeline names as guest. -/
def Dev.guestHead (d : Dev) (p : Fin 32) : Fin 32 :=
  Fin.ofNat 32 (p.val / 4 * 4 + d.getF (mpvB p) R.MPV_GUEST 1 0)

/-- A pipeline may take the guest it names (R244). -/
def Dev.mayGuest (d : Dev) (p : Fin 32) : Bool :=
  let g := d.guestHead p
  d.up (mpvB p) && d.getB (mpvB p) R.MPV_GUEST 4 && g ≠ p && (d.fence (mpvB g) = 1 || d.fence (mpvB g) = 2) && d.cameraHere g

/-- GUEST_START (R244): the lowest pipeline that names the camera takes it, unless one has it already. -/
def execGuestStart (h : Fin 32) (s : State) : Host.Outcome State Fault Refusal :=
  onLive (fun d =>
    let g := d.guestHead h
    let first := (List.range 4).all fun i =>
      let p : Fin 32 := Fin.ofNat 32 (h.val / 4 * 4 + i)
      !(decide (p < h) && d.guestHead p = g && d.mayGuest p && (d.mpvSt p = 1 || d.mpvSt p = 2))
    d.when (d.mayGuest h && d.mpvSt h = 1 && (d.hostOf g).isNone && first && d.frameTick g) fun d =>
      ((d.mpvMod h fun x => { x with guest := some (Fin.ofNat 4 g.val, d.tick) }).mpvTo h 2).mpvEvent h g 3) s

/-- GUEST_END (R244): the fence has been cleared, and the next frame starts. -/
def execGuestEnd (h : Fin 32) (s : State) : Host.Outcome State Fault Refusal :=
  onLive (fun d =>
    match d.mpvs[h].guest with
    | none => d
    | some (i, from_) =>
      let g : Fin 32 := Fin.ofNat 32 (h.val / 4 * 4 + i.val)
      d.when (d.mpvSt h = 2 && d.fence (mpvB g) = 0 && d.frameTick g) fun d =>
        ((d.mpvOut h 1).mpvMod h fun x => { x with was := some (i, from_, d.tick) }).mpvEvent h g 4) s

/-- The pipeline that processes a frame of a head's camera that starts at tick `k`: one whose guest binding covers it, else its own
(R244). -/
def Dev.pipeAt (d : Dev) (h : Fin 32) (k : Nat) : Option (Fin 32) :=
  let bound (p : Fin 32) : Bool := (match d.mpvs[p].guest with
    | some (i, a) => d.mpvSt p = 2 && i = Fin.ofNat 4 h.val && decide (a ≤ k)
    | none => false) || (match d.mpvs[p].was with
    | some (i, a, z) => i = Fin.ofNat 4 h.val && decide (a ≤ k) && decide (k < z)
    | none => false)
  match (List.range 4).findSome? fun i =>
      let p : Fin 32 := Fin.ofNat 32 (h.val / 4 * 4 + i)
      if d.up (mpvB p) ∧ bound p then some p else none with
  | some p => some p
  | none => if d.up (mpvB h) ∧ (d.mpvSt h = 1 ∨ d.mpvSt h = 2) then some h else none

/-- The pipeline that processes a head's camera now. -/
def Dev.pipeOf (d : Dev) (h : Fin 32) : Option (Fin 32) := d.pipeAt h d.tick

/-! Frames. -/

/-- A position on the path at a time [ns] (R226): the tick before it, arc, bed point; none outside the last 256 ticks or on a stale
tick. -/
def Trv.posAt (t : Trv) (ns now : Nat) : Option (Hist × Rat × Rat × Rat) :=
  let k := ns / 1000
  match t.hist.find? fun x => x.k = k, t.hist.find? fun x => x.k = k + 1 with
  | some a, some b =>
    if a.good ∧ b.good ∧ now < k + 256 then
      let f : Rat := ((ns % 1000 : Nat) : Rat) / 1000
      some (a, if a.cur = b.cur then a.s + (b.s - a.s) * f else a.s, a.x + (b.x - a.x) * f, a.y + (b.y - a.y) * f)
    else none
  | _, _ => none

/-- The full tick that a 32-bit TICK names: the one nearest before the present. -/
def Dev.fullTick (d : Dev) (t : Word) : Nat := d.tick - (wd d.tick - t).toNat

/-- The words of a feature record (R235). -/
def recordWords (fseq : Nat) (arc : Nat) (sid head flags : Nat) (f : Feat) (bob pd : Nat) : List Word :=
  [wd fseq, wd arc, wd (arc / 2 ^ 32 % 256 + sid * 256 + head * 65536 + flags), wd f.area, wd (uns 16 f.cx + uns 16 f.cy * 65536),
    wd (f.length + f.width * 65536), wd (f.peak + f.temp * 65536), wd (bob + pd * 65536)]

/-- Bytes waiting at a port. -/
def rtBytes (l : List RtEnt) : Nat := (l.map fun e => e.bytes.length).sum

/-- J eighths while mode A is applied, else 8 (R449). -/
def Dev.jNow (d : Dev) : Nat := if d.thm.modeA then d.getF (blk .therm 0) R.THERM_STAT 3 0 else 8

/-- An archive or thumbnail entry (R241, R242): counted where throttling, its slot or the port holds it back. -/
def Dev.archive (d : Dev) (p : Fin 32) (ring : Nat) (bytes : List Byte) : Dev :=
  let b := mpvB p
  let due := if ring = 2 then d.mpvs[p].dArc else d.mpvs[p].dThumb
  let d1 := d.mpvMod p fun x => if ring = 2 then { x with dArc := (due + 1) % 8 } else { x with dThumb := (due + 1) % 8 }
  if d.jNow ≤ due ∨ 2 ^ d.getF b R.MPV_RING_CFG 12 8 ring < bytes.length ∨
      Config.portRoom 1 < rtBytes d.mpvs[p].arcs + bytes.length then d1.bump b R.MPV_ARCDROP
  else d1.mpvMod p fun x => { x with arcs := x.arcs ++ [⟨ring, bytes⟩] }

/-- A log entry of ring 0, or lost where the port's buffer is full (R378; log 39, DESIGN CHOICE). -/
def Dev.featLog (d : Dev) (p : Fin 32) (bytes : List Byte) : Dev :=
  if Config.portRoom 0 < rtBytes d.mpvs[p].logs + bytes.length then d
  else d.mpvMod p fun x => { x with logs := x.logs ++ [⟨0, bytes⟩] }

/-- A slub event (R238, R239) of camera head `h` at pipeline `p`. -/
def Dev.slubEvent (d : Dev) (p h : Fin 32) (kind bob : Nat) (x y : Rat) (id : Word) (ns : Nat) (rec_ : List Byte) : Dev :=
  let b := mpvB p
  let layer : Word := match d.running with
    | some k => k.layer
    | none => 0
  let bytes := wordsBytes [wd (kind + h.val * 256 + bob * 65536), layer, wi (near x), wi (near y), id, wd (ns % 1000000000),
    wd (ns / 1000000000), wd (ns / 1000000000 / 2 ^ 32)] ++ rec_
  let d1 := ((d.sumMod h fun s => { s with slubs := s.slubs + 1 }).bump b R.MPV_SLUBS).mpvEvent p h 0
  if 16 ≤ (d.mpvs[p].logs.filter fun e => e.ring = 1).length then (d1.bump b R.MPV_SLUBLOST).raise b none 2
  else d1.mpvMod p fun z => { z with logs := z.logs ++ [⟨1, bytes⟩] }

/-- Slub checks of one feature: kind numbers `2 i + 1` and `2 i + 2` (R238). -/
def slubStep (sl : Vector SlubCk 10) (i : Nat) (low high laser : Bool) (persist : Nat) : Vector SlubCk 10 × List Nat :=
  let step (v : Vector SlubCk 10) (j : Nat) (hit other : Bool) : Vector SlubCk 10 × List Nat :=
    let q : Fin 10 := Fin.ofNat 10 j
    if ¬ laser ∨ (¬ hit ∧ ¬ other) then (v.set q ⟨0, false⟩, [])
    else if hit then
      let n := v[q].count + 1
      let ev : Bool := decide (max 1 persist ≤ n) && !v[q].open_
      (v.set q ⟨n, v[q].open_ || ev⟩, if ev then [j + 1] else [])
    else (v, [])
  let a := step sl (2 * i) low high
  let b := step a.1 (2 * i + 1) high low
  (b.1, a.2 ++ b.2)

/-- The slub checks of a frame (R238). -/
def slubChecks (x : BobBuf) (sl : Vector SlubCk 10) (f : Feat) (laser : Bool) : Vector SlubCk 10 × List Nat :=
  let en := x.word 0xB0
  let persist := fld en 15 8
  let vals : List (Nat × Nat × Nat) := [(f.area, 0x84, 0x88), (f.temp, 0x90, 0x94), (f.length, 0x98, 0x9C),
    (f.width, 0xA0, 0xA4), (f.peak, 0xA8, 0xAC)]
  vals.zipIdx.foldl (fun (a : Vector SlubCk 10 × List Nat) v =>
    let low : Bool := decide (v.1.1 < x.nat v.1.2.1) || (v.2 = 0 && f.noPool)
    let high : Bool := decide (x.nat v.1.2.2 < v.1.1) && !low
    if laser ∧ (¬ bit en v.2 ∨ (v.2 = 1 ∧ f.noTemp)) then a
    else let r := slubStep a.1 v.2 low high laser persist; (r.1, a.2 ++ r.2)) (sl, [])

/-- The crop of an archived frame (R241): first column and row, width, height, inside the ROI. -/
def cropOf (w : Word) (f : FrameHdr) : Nat × Nat × Nat × Nat :=
  let x := fld w 7 0
  let y := fld w 15 8
  let cw := fld w 23 16
  let ch := fld w 31 24
  if cw = 0 ∨ ch = 0 then (0, 0, f.w, f.h) else (min x f.w, min y f.h, min cw (f.w - x), min ch (f.h - y))

/-- The pixels of a rectangle, row by row. -/
def rectPx (w : Nat) (v : List Nat) (r : Nat × Nat × Nat × Nat) : List Nat :=
  (List.range r.2.2.2).flatMap fun j => (v.drop ((r.2.1 + j) * w + r.1)).take r.2.2.1

/-- The archive and thumbnail of a processed frame (R240 to R242), under the settings of the camera's own MPV. -/
def Dev.streams (d : Dev) (p h : Fin 32) (v : CamView) (f : FrameHdr) (raw v3 : List Nat) (rec_ : List Byte) : Dev :=
  let own := mpvB h
  let b := mpvB p
  let ctl := v.ctl
  let depth := if f.twelve then 12 else 10
  let pyro := d.get own R.MPV_PYRO
  let header (x y w ht mode bits : Nat) : List Byte :=
    wordsBytes ([wd (x + y * 256 + w * 65536 + ht * 2 ^ 24), wd (mode + bits % 16 * 16 + h.val * 256), pyro] ++ List.replicate 5 0) ++ rec_
  let div (r : Nat) : Nat := max 1 (d.getF b R.MPV_RING_CFG 23 16 r)
  let d1 := if ¬ bit ctl 4 then d else
    let n := (d.mpvs[p].nArc + 1) % div 2
    let e := d.mpvMod p fun x => { x with nArc := n }
    if n ≠ 0 then e else
      let r := cropOf v.crop f
      let px := if bit ctl 8 then packBits 16 ((rectPx f.w v3 r).map fun q => min 65535 (q / 256)) else packBits depth (rectPx f.w raw r)
      e.archive p 2 (header r.1 r.2.1 r.2.2.1 r.2.2.2 (bit ctl 8).toNat (if bit ctl 8 then 16 else depth) ++ px)
  if ¬ bit ctl 5 then d1 else
    let n := (d1.mpvs[p].nThumb + 1) % div 3
    let e := d1.mpvMod p fun x => { x with nThumb := n }
    if n ≠ 0 then e else
      let q := 2 ^ (fld v.bin 1 0 + 1)
      let w := f.w / q
      let ht := f.h / q
      let px := (List.range (w * ht)).map fun i =>
        (rectPx f.w raw (i % w * q, i / w * q, q, q)).sum / (q * q) / 2 ^ (depth - 8)
      e.archive p 3 (header 0 0 w ht 0 8 ++ packBits 8 px)

/-- A good frame of camera head `h` is processed at pipeline `p` (R225 to R242). -/
def Dev.frameIn (d : Dev) (p h : Fin 32) (f : FrameHdr) (raw : List Nat) : Dev :=
  let b := mpvB p
  let k := d.fullTick f.tick
  let v := if p = h then d.ownView h else d.mpvs[h].kept.getD (d.ownView h)
  let d0 := if p = h then d.mpvMod h fun x => x.prune d.tick else d
  let x := d0.mpvs[h]
  let derived := setAt v.force v.sent k
  let echo : Bool := bit (d.desc (headLane h) 3) 1 && f.sid ≠ derived.sid
  let kept := v.sent.find? fun s => k < s.2 ∧ s.1.sid = f.sid
  let set : CamSet := if echo then (match kept with | some s => s.1 | none => derived) else derived
  let sidx : Bool := echo && kept.isSome
  let d1 := if echo then ((d0.bump b R.MPV_SIDMISM).raise b none 1).mpvEvent p h 2 else d0
  let t := d.heads[h].trv
  let mid := 1000 * k + f.start + f.exp / 2
  let pos := t.posAt mid d.tick
  let laser : Bool := (gateIn' t.gates (mid * 2 / 5)).any fun g => g.high
  let mv : Option Move := match pos with
    | some q => if q.1.cur then d.heads[h].drf.moveAt q.2.1 else none
    | none => none
  let vec : Option (Nat × Bool × Word) := match mv, pos with
    | some m, _ => some (m.bob, m.buf, m.id)
    | none, some q => q.1.vec
    | none, none => none
  let bob := (vec.map (·.1)).getD 0
  let buf : BobBuf := match vec with
    | some w => d.bobBuf w.1 w.2.1
    | none => d.bobBuf 0 (d.bob 0).live
  let tan : Rat × Rat := match mv, pos with
    | some m, some q => let a := m.seg.at m.len (q.2.1 - m.arc0); (a.2.2.1, a.2.2.2)
    | none, some q => (q.1.tx, q.1.ty)
    | _, none => (1, 0)
  let cal := v.cal.getD Cal.default
  let s2 := stage2 cal set f raw
  let v3 := stage3 cal f s2.1
  let sp := supers cal f (stage4 set v3)
  let ctl := v.ctl
  let ft := features cal f sp (fld ctl 7 6) (buf.nat 0xB4) (fld v.rtMin 15 0) v.pixNm.toNat v.axis v.rot tan.1 tan.2
  let pds := (x.pds.filter fun q => 1000 * k + f.start ≤ 1000 * q.1 ∧ 1000 * q.1 < 1000 * k + f.start + f.exp).map (·.2)
  let pd := if pds.isEmpty then 0 else pds.sum / pds.length
  let full : Nat := if f.twelve then 4095 else 1023
  let arc := ((pos.map fun q => q.2.1.floor.toNat)).getD 0
  let flag (i : Nat) (c : Bool) : Nat := c.toNat * 2 ^ i
  let flags := flag 21 (p ≠ h) + flag 22 laser + flag 23 pos.isNone + flag 24 ft.noPool + flag 25 ft.noTemp +
    flag 26 (raw.any fun q => q ≥ full) + flag 27 s2.2 + flag 28 sidx
  let ws := recordWords x.fseq arc set.sid h.val flags ft bob pd
  let rec_ := wordsBytes ws
  let d2 := ((d1.bump b R.MPV_FRAMES).putF b R.MPV_STAT 15 8 set.sid).setShow h
  let d3 := ws.zipIdx.foldl (fun (e : Dev) w => e.put b R.MPV_LAST_FEAT w.1 w.2) d2
  let d4 := if pos.isNone then d3.bump b R.MPV_NOPOS else d3
  let d5 := if bit ctl 1 then d4.corMod h fun c => { c with recs := c.recs ++
      [⟨laser, pos.isNone, ft.noPool, ft.noTemp, (arc : Nat), bob, ft.area, ft.temp, mid, d.tick⟩] } else d4
  let d6 := if bit ctl 1 ∧ bit ctl 2 then d5.featLog p rec_ else d5
  let d7 := match bit ctl 3, pos with
    | true, some q =>
      let r := slubChecks buf d6.mpvs[h].slubs ft laser
      let ns := d.tim.at (mid / 1000) (mid % 1000)
      let id := (vec.map fun (w : Nat × Bool × Word) => w.2.2).getD 0
      r.2.foldl (fun (e : Dev) kd => e.slubEvent p h kd bob q.2.2.1 q.2.2.2 id ns rec_) (d6.mpvMod h fun z => { z with slubs := r.1 })
    | _, _ => d6
  d7.streams p h v f raw v3 rec_
where
  /-- What LGATE showed in a slot. -/
  gateIn' (l : List GateLog) (slot : Nat) : Option GateLog := l.find? fun x => x.slot ≤ slot

/-- The frame sequence number is extended, and a gap counted (R221). -/
def Dev.frameSeq (d : Dev) (p h : Fin 32) (seq : BitVec 16) : Dev :=
  match d.mpvs[h].seq with
  | none => d.mpvMod h fun x => { x with seq := some seq, fseq := seq.toNat }
  | some old =>
    let step := (seq - old).toNat
    let d1 := if step = 1 then d else d.bump (mpvB p) R.MPV_GAPCNT (if step = 0 then 65535 else step - 1)
    d1.mpvMod h fun x => { x with seq := some seq, fseq := (x.fseq + step) % 2 ^ 32 }

/-- A bad frame before this one is reported now that this one is judged (R243). -/
def Dev.badBefore (d : Dev) (p h : Fin 32) (good : Bool) : Dev :=
  if ¬ d.mpvs[h].bad then d
  else (if good then d.raiseTrans (mpvB p) none 0 else d.raise (mpvB p) none 0).mpvEvent p h 1

/-- CAMERA_FRAME (R229, R243, R246). -/
def execCameraFrame (h : Fin 32) (f : CamFrame) (s : State) : Host.Outcome State Fault Refusal :=
  onLive (fun d0 => d0.when (d0.laneUp (headLane h)) fun d0 =>
    let hd := frameHdr f.hdr.toList
    d0.received (headLane h) 0 512 fun d =>
    match d.laneUp (headLane h), d.pipeAt h (if hd.ok then d.fullTick hd.tick else d.tick) with
    | true, some p =>
      let good := f.crcOk && hd.ok && f.pixels.length = hd.w * hd.h
      if p ≠ h ∧ f.overlap then d.bump (mpvB p) R.MPV_GUESTDROP
      else
        let d1 := ((d.reached (mpvB p) none).badBefore p h good).mpvMod h fun x => { x with bad := !good }
        let d2 := if hd.ok then d1.frameSeq p h hd.seq
          else d1.mpvMod h fun x => { x with seq := x.seq.map (· + 1), fseq := (x.fseq + 1) % 2 ^ 32 }
        if good then d2.frameIn p h hd f.pixels else d2.bump (mpvB p) R.MPV_BADFRM
    | _, _ => d) s

/-- SENSE_FRAME (R309): a photodiode sample, and in every 16th tick a pyrometer sample. -/
def execSenseFrame (h : Fin 32) (tick : Word) (pd : BitVec 16) (pyro : BitVec 16) (s : State) :
    Host.Outcome State Fault Refusal :=
  onLive (fun d =>
    let c := d.desc (headLane h) 3
    d.when (d.laneUp (headLane h) && (bit c 3 || bit c 4)) fun d => d.received (headLane h) 1 8 fun d =>
      let d1 := if bit c 4 then d.mpvMod h fun x => { x with pds := ((d.fullTick tick, pd.toNat) :: x.pds).take 256 } else d
      if tick.toNat % 16 = 0 ∧ bit c 3 then d1.put (mpvB h) R.MPV_PYRO (wd pyro.toNat) else d1) s

/-! Rings (R240). -/

/-- The first entry of a ring that waits, and the entries without it. -/
def takeRing (l : List RtEnt) (ring : Nat) : Option (RtEnt × List RtEnt) :=
  match l.find? fun e => e.ring = ring with
  | some e => some (e, l.erase e)
  | none => none

/-- An entry lands in its ring, and WR counts it. -/
def ringPut (m : Mem) (d : Dev) (b : Blk) (lo hi cfg wr : Reg) (r size : Nat) (bytes : List Byte) : Mem × Dev :=
  let n := d.getN b wr r
  let a := d.addr2 b lo hi r + n % 2 ^ d.getF b cfg 4 0 r * size
  (d.sdPut m a bytes, (d.sdMark b a bytes.length).put b wr (wd (n + 1)) r)

/-- A waiting entry of an MPV ring is written. -/
def mpvRing (m : Mem) (d : Dev) (h : Fin 32) (r : Nat) : Mem × Dev :=
  let b := mpvB h
  let x := d.mpvs[h]
  match takeRing (if r < 2 then x.logs else x.arcs) r with
  | none => (m, d)
  | some (e, rest) =>
    let d1 := d.mpvMod h fun z => if r < 2 then { z with logs := rest } else { z with arcs := rest }
    let size := match r with
      | 0 => 32
      | 1 => 64
      | _ => 2 ^ d.getF b R.MPV_RING_CFG 12 8 r
    ringPut m d1 b R.MPV_RING_BASE_LO R.MPV_RING_BASE_HI R.MPV_RING_CFG R.MPV_RING_WR r size e.bytes

/-- A waiting entry of a layer pipeline's ring is written (R285, R286). -/
def lpipeRing (m : Mem) (d : Dev) (p : Fin 2) : Mem × Dev :=
  let b := blk .lpipe p.val
  match d.lpipes[p].out with
  | [] => (m, d)
  | e :: rest =>
    let d1 : Dev := { d with lpipes := vmod d.lpipes p fun z => { z with out := rest } }
    let size := if e.ring = 0 then 64 else 2 ^ d.getF b R.LPIPE_RING_CFG 12 8 e.ring
    ringPut m d1 b R.LPIPE_RING_BASE_LO R.LPIPE_RING_BASE_HI R.LPIPE_RING_CFG R.LPIPE_RING_WR e.ring size e.bytes

/-- RING_ENTRY_WRITE (R240, R286). -/
def execRingEntryWrite (p : RtPort) (s : State) : Host.Outcome State Fault Refusal :=
  onLiveMem (fun m d =>
    match p with
    | .flog h => mpvRing m d h 0
    | .slub h => mpvRing m d h 1
    | .archive h => mpvRing m d h 2
    | .thumb h => mpvRing m d h 3
    | .layer p => lpipeRing m d p) s

end Sys2Proof.Machine
end

