-- ==== Sys2Proof/Machine/Imaging.lean ====
section
/-! DEFINITION. Layer imaging and illumination (R279 to R298): camera ports, layer pipelines, recoat checks, lighting
lines, lamp diagnosis and colour feedback (log 40, DEDUCED and DESIGN CHOICE, marked there). -/

namespace Sys2Proof.Machine

/-- LPIPE[p]. -/
def lpB (p : Fin 2) : Blk := blk .lpipe p.val

/-- CSIRX of a port. -/
def csiB (p : Fin 2) : Blk := blk .csirx p.val

/-- Change a layer pipeline. -/
def Dev.lpMod (d : Dev) (p : Fin 2) (f : Lpipe → Lpipe) : Dev := { d with lpipes := vmod d.lpipes p f }

/-- Change a lighting line. -/
def Dev.lgtMod (d : Dev) (i : Fin 4) (f : Light → Light) : Dev := { d with lights := vmod d.lights i f }

/-- A bit of LPIPE_EVT (R298). -/
def Dev.lpEvent (d : Dev) (p : Fin 2) (k : Nat) : Dev := d.event (lpB p) R.LPIPE_EVT R.LPIPE_EVT_EN (wd (2 ^ k)) 59

/-- A bit of LGT_EVT (R298). -/
def Dev.lgtEvent (d : Dev) (i : Fin 4) (k : Nat) : Dev := d.event light R.LGT_EVT R.LGT_EVT_EN (wd (2 ^ k)) 59 i.val

/-! Binding (R280). -/

/-- A binding is requested. -/
def Dev.bindTo (d : Dev) (p : Fin 2) (v : Fin 4) : Dev :=
  (d.lpMod p fun x => { x with pend := some v }).putB (lpB p) R.LPIPE_STAT 2 true

/-- A write of LPIPE_BIND (R280). -/
def Dev.bindWrite (d : Dev) (p : Fin 2) (v : Word) : Dev :=
  (d.put (lpB p) R.LPIPE_BIND (v &&& 3)).bindTo p (Fin.ofNat 4 (fld v 1 0))

/-- LPIPE_BIND (R280). -/
def execLpipeBind (p : Fin 2) (v : Word) (s : State) : Host.Outcome State Fault Refusal :=
  onLive (fun d => d.hostWrite (lpB p) 0x108 fun e => e.bindWrite p v) s

/-- The next enabled channel after the bound one, in ascending cyclic order. -/
def Dev.nextVc (d : Dev) (p : Fin 2) : Option (Fin 4) :=
  ((List.range 4).map fun i => Fin.ofNat 4 (d.getF (lpB p) R.LPIPE_STAT 1 0 + 1 + i)).find? fun v =>
    d.getB (csiB p) R.CSI_VC_CFG 8 v.val

/-- A write of LPIPE_CMD.NEXT (R280). -/
def Dev.bindNext (d : Dev) (p : Fin 2) : Dev :=
  match d.nextVc p with
  | some v => d.bindTo p v
  | none => d

/-- NEXT (R280): a write of LPIPE_CMD.NEXT. -/
def execNext (p : Fin 2) (s : State) : Host.Outcome State Fault Refusal :=
  onLive (fun d => d.hostWrite (lpB p) 0x10C fun e => e.bindNext p) s

/-- A requested binding takes effect with a frame start of the channel. -/
def Dev.bindNow (d : Dev) (p : Fin 2) (vc : Fin 4) : Dev :=
  if d.lpipes[p].pend = some vc then
    (((d.lpMod p fun x => { x with pend := none }).putF (lpB p) R.LPIPE_STAT 1 0 vc.val).putB (lpB p) R.LPIPE_STAT 2 false).lpEvent
      p 3
  else d

/-! Recoat checks (R284, R285). -/

/-- A check is armed; arming again has no effect. -/
def Dev.armCheck (d : Dev) (p : Fin 2) : Dev :=
  (d.lpMod p fun x => { x with armed := true }).putB (lpB p) R.LPIPE_STAT 3 true

/-- CHECK (R284): a write of LPIPE_CMD.CHECK. -/
def execCheck (p : Fin 2) (s : State) : Host.Outcome State Fault Refusal :=
  onLive (fun d => d.hostWrite (lpB p) 0x10C fun e => e.armCheck p) s

/-- Layer ends of which a pipeline's DELAY has run out: their check falls due now (R284). -/
def Dev.endsDue (d : Dev) (p : Fin 2) : List Nat :=
  d.lpipes[p].ends.filter fun t => d.past t (1000 * d.getF (lpB p) R.LPIPE_RC_CTL 31 16)

/-- RECOAT_CHECK_ARM (R284): once for each layer end. -/
def execRecoatCheckArm (p : Fin 2) (s : State) : Host.Outcome State Fault Refusal :=
  onLive (fun d =>
    d.when (d.up (lpB p) && !(d.endsDue p).isEmpty) fun d =>
      let d1 := d.lpMod p fun x => { x with ends := x.ends.filter fun t => t ∉ d.endsDue p }
      if d.getB (lpB p) R.LPIPE_RC_CTL 0 then d1.armCheck p else d1) s

/-- A pixel with its place in the frame. -/
structure Pix where
  x : Nat
  y : Nat
  v : Nat
deriving DecidableEq, Repr

/-- The pixels of a frame inside a rectangle (RECT0, RECT1). -/
def rectPix (lines : List (List Nat)) (r0 r1 : Word) : List Pix :=
  let x0 := fld r0 15 0
  let y0 := fld r0 31 16
  ((((lines.drop y0).take (fld r1 31 16)).mapIdx fun j row =>
    ((row.drop x0).take (fld r1 15 0)).mapIdx fun i v => (⟨x0 + i, y0 + j, v⟩ : Pix)).flatten)

/-- The colour of a sensor position by LPIPE_CTL.MOSAIC: 0 R, 1 G, 2 B (R282). -/
def mosaicCol (mosaic x y : Nat) : Nat :=
  let same := x % 2 = y % 2
  let even := y % 2 = 0
  match mosaic with
  | 1 => if same then (if even then 0 else 2) else 1
  | 2 => if same then 1 else if even then 0 else 2
  | 3 => if same then 1 else if even then 2 else 0
  | _ => if same then (if even then 2 else 0) else 1

/-- The values of one colour; a mono sensor gives the same value for each. -/
def colVals (mosaic col : Nat) (ps : List Pix) : List Pix :=
  if mosaic = 0 then ps else ps.filter fun p => mosaicCol mosaic p.x p.y = col

/-- Mean of pixels, none without one. -/
def pixMean (ps : List Pix) : Option Rat :=
  if ps = [] then none else some ((((ps.map (·.v)).sum : Nat) : Rat) / ((ps.length : Nat) : Rat))

/-- Insertion into a rising list. -/
def ratInsert (x : Rat) : List Rat → List Rat
  | [] => [x]
  | y :: t => if x ≤ y then x :: y :: t else y :: ratInsert x t

/-- The median; of an even number of values the mean of the two in the middle (log 40, DEDUCED); 0 of none. -/
def median (l : List Rat) : Rat :=
  let s := l.foldr ratInsert []
  (s.getD ((l.length - 1) / 2) 0 + s.getD (l.length / 2) 0) / 2

/-- The streak check: runs of positions that deviate (R284). -/
def streakRuns (d : Dev) (p : Fin 2) (g : List Pix) (r0 r1 : Word) : List (Nat × Nat) :=
  let c := d.get (lpB p) R.LPIPE_STREAK
  let dir := d.getB (lpB p) R.LPIPE_RC_CTL 1
  let n := if dir then fld r1 31 16 else fld r1 15 0
  let base := if dir then fld r0 31 16 else fld r0 15 0
  let prof := (List.range n).map fun i => pixMean (g.filter fun q => (if dir then q.y else q.x) = base + i)
  let dev (i : Nat) : Bool :=
    match prof.getD i none with
    | none => false
    | some v =>
      let ref := median (((prof.drop (i - 16)).take (min i 16 + 17)).filterMap id)
      ((fld c 7 0 : Nat) : Rat) / 256 * ref < rabs (v - ref)
  let bad := (List.range n).map dev
  let starts := (List.range n).filter fun i => bad.getD i false && (i = 0 || !bad.getD (i - 1) false)
  (starts.map fun i => (i, ((bad.drop i).takeWhile id).length)).filter fun r => max (fld c 15 8) 1 ≤ r.2

/-- The short-feed check: the bitmap of zones below the threshold. -/
def shortZones (d : Dev) (p : Fin 2) (g : List Pix) (r0 r1 : Word) : Nat :=
  let w := fld r1 15 0
  let h := fld r1 31 16
  let x0 := fld r0 15 0
  let y0 := fld r0 31 16
  let zone (k : Nat) : Option Rat := pixMean (g.filter fun q =>
    x0 + w * (k % 8) / 8 ≤ q.x ∧ q.x < x0 + w * (k % 8 + 1) / 8 ∧ y0 + h * (k / 8) / 8 ≤ q.y ∧ q.y < y0 + h * (k / 8 + 1) / 8)
  let zs := (List.range 64).map zone
  let lim := ((d.getF (lpB p) R.LPIPE_SHORT 7 0 : Nat) : Rat) / 256 * median (zs.filterMap id)
  ((zs.mapIdx fun k z => match z with
    | some v => if v < lim then 2 ^ k else 0
    | none => 0)).sum

/-- The record of a check with its three results (R285), before the words of the frame itself. -/
structure Recoat where
  runs  : List (Nat × Nat)
  zones : Nat
  spot  : Nat
deriving DecidableEq, Repr

/-- The 16 words of a record: VC, layer, frame count and start time with a check's results, if one was made. -/
def Dev.recoatWords (d : Dev) (p : Fin 2) (vc : Fin 4) (c : Option Recoat) : List Word :=
  let ns := d.tim.clock / 4294967296
  let r := c.getD ⟨[], 0, 0⟩
  let fails := (decide (r.runs ≠ [])).toNat * 256 + (decide (r.zones ≠ 0)).toNat * 512 +
    (decide (c.isSome ∧ d.getF (lpB p) R.LPIPE_SPOT 31 16 < r.spot)).toNat * 1024
  [wd (vc.val + fails + min 8 r.runs.length * 65536 + (decide (8 < r.runs.length)).toNat * 1048576), d.get (blk .creel 0) R.SKEIN_LAYER,
    d.get (csiB p) R.CSI_VC_FRAMES vc.val, wd r.spot] ++
  (List.range 8).map (fun j => let x := r.runs.getD j (0, 0); wd (x.1 + x.2 % 65536 * 65536)) ++
  [wd r.zones, wd (r.zones / 2 ^ 32), wd (ns % 1000000000), wd (ns / 1000000000)]

/-- A recoat check on a frame's black-corrected lines. -/
def Dev.recoatOf (d : Dev) (p : Fin 2) (lines : List (List Nat)) : Recoat :=
  let r0 := d.get (lpB p) R.LPIPE_RC_RECT0
  let r1 := d.get (lpB p) R.LPIPE_RC_RECT1
  let g := colVals (d.getF (lpB p) R.LPIPE_CTL 4 2) 1 (rectPix lines r0 r1)
  ⟨streakRuns d p g r0 r1, shortZones d p g r0 r1, (g.filter fun q => d.getF (lpB p) R.LPIPE_SPOT 15 0 < q.v).length⟩

/-- A check that was made is recorded: ring 0, LPIPE_LAST_REC, counters, events (R285). -/
def Dev.recoatDone (d : Dev) (p : Fin 2) (ws : List Word) : Dev :=
  let b := lpB p
  let d1 := (d.lpMod p fun x => { x with armed := false, out := x.out ++ [⟨0, wordsBytes ws⟩] }).putB b R.LPIPE_STAT 3 false
  let d2 := (ws.zipIdx.foldl (fun (e : Dev) x => e.put b R.LPIPE_LAST_REC x.1 x.2) d1).bump b R.LPIPE_CHECKS
  let d3 := if fld (ws.getD 0 0) 10 8 ≠ 0 then (d2.bump b R.LPIPE_FAILS).lpEvent p 0 else d2
  d3.lpEvent p 1

/-! Statistics (R283). -/

/-- A statistics window: means of R, G and B with 8 fraction bits, and SATCNT. -/
def Dev.winStat (d : Dev) (p : Fin 2) (bits : Nat) (raw lines : List (List Nat)) (w : Nat) : Dev :=
  let b := lpB p
  let r0 := d.get b R.LPIPE_WIN_RECT0 w
  let r1 := d.get b R.LPIPE_WIN_RECT1 w
  let ps := rectPix lines r0 r1
  let m := d.getF b R.LPIPE_CTL 4 2
  let mean (c : Nat) : Word := match pixMean (colVals m c ps) with
    | some v => wd (v * 256).floor.toNat
    | none => 0
  let sat := if ps = [] then 0xFFFF else min 0xFFFF ((rectPix raw r0 r1).filter fun q => q.v = 2 ^ bits - 1).length
  (((d.put b R.LPIPE_WSTAT_R (mean 0) w).put b R.LPIPE_WSTAT_G (mean 1) w).put b R.LPIPE_WSTAT_B (mean 2) w).put b
    R.LPIPE_WSTAT_SATCNT (wd sat) w

/-! Lighting lines (R287, R288). -/

/-- Bits of a duty. -/
def Dev.lgtDepth (d : Dev) (i : Fin 4) : Nat := 8 + d.getF light R.LGT_CFG 11 8 i.val

/-- Modules of a line. -/
def Dev.lgtMods (d : Dev) (i : Fin 4) : Nat := d.getF light R.LGT_CFG 5 0 i.val + 1

/-- Channels of a module. -/
def Dev.lgtCh (d : Dev) (i : Fin 4) : Nat := d.getF light R.LGT_CFG 7 6 i.val + 1

/-- Bits of a data phase. -/
def Dev.lgtBits (d : Dev) (i : Fin 4) : Nat := d.lgtMods i * d.lgtCh i * d.lgtDepth i

/-- A status phase follows a frame of the line: STATUS_EN 1 and PIN 0. -/
def Dev.lgtStatus (d : Dev) (i : Fin 4) : Bool := d.getB light R.LGT_CFG 12 i.val && !d.getB light R.LGT_CFG 13 i.val

/-- The feedback scale of a channel. -/
def Dev.lgtScale (d : Dev) (i : Fin 4) (c : Nat) : Nat :=
  fld (if c < 2 then d.get light R.LGT_SCALE0 i.val else d.get light R.LGT_SCALE1 i.val) (16 * (c % 2) + 15) (16 * (c % 2))

/-- The duty of a channel as written, the bits above DEPTH ignored. -/
def Dev.lgtDuty (d : Dev) (i : Fin 4) (m c : Nat) : Nat :=
  fld (d.get light R.LGT_DUTY i.val (2 * m + c / 2)) (16 * (c % 2) + 15) (16 * (c % 2)) % 2 ^ d.lgtDepth i

/-- The snapshot of duties and scales that a frame takes, by 4 × module + channel. -/
def Dev.lgtSnap (d : Dev) (i : Fin 4) : List Nat :=
  (List.range (4 * d.lgtMods i)).map fun k =>
    if k % 4 < d.lgtCh i then
      min (2 ^ d.lgtDepth i - 1) ((d.lgtDuty i (k / 4) (k % 4) * d.lgtScale i (k % 4) + 16384) / 32768)
    else 0

/-- A line sends duties: the frame with its latch begins now. -/
def Dev.lgtSend (d : Dev) (i : Fin 4) (duty : List Nat) (status : Bool) : Dev :=
  let ds := if duty = [] then d else d.lgtMod i fun x => { x with
    duty := duty, frame := some (d.now, d.lgtBits i), stat := status
    low := (List.range 256).map fun k =>
      match duty[k]?, x.low.getD k none with
      | some v, some l => some (min v l)
      | some v, none => some v
      | none, l => l }
  if duty = [] then d else ds.bump light R.LGT_FRAMES 1 i.val

/-- The cycle at which the latch of a frame ends: 1.25 µs a bit, then 80 µs. -/
def latchEnd (f : Nat × Nat) : Nat := f.1 + f.2 * 1000 + 64000

/-- The cycle at which the last status byte of a line has come: 10 µs after the latch, 8 bits a module. -/
def Dev.statusEnd (d : Dev) (i : Fin 4) (f : Nat × Nat) : Nat := latchEnd f + 8000 + d.lgtMods i * 8000

/-- A frame of the line is in progress. -/
def Dev.lgtBusy (d : Dev) (i : Fin 4) : Bool :=
  match d.lights[i].frame with
  | some f => d.lights[i].stat || d.now < latchEnd f
  | none => false

/-- How long a diagnostic pulse holds its duties [cycles] (R290). -/
def Dev.diagHold (d : Dev) (i : Fin 4) : Nat := d.getF light R.LGT_DIAG 31 16 i.val * 800000

/-- LGT_STAT.PHASE as a read sees it: 0 idle, 1 data, 2 latch, 3 status. -/
def Dev.lgtPhase (d : Dev) (i : Fin 4) : Nat :=
  match d.lights[i].frame with
  | none => 0
  | some f =>
    if d.now < f.1 + f.2 * 1000 then 1 else if d.now < latchEnd f then 2
    else if d.lights[i].diag then (if d.lgtStatus i && decide (latchEnd f + d.diagHold i + 8000 ≤ d.now) then 3 else 0)
    else if d.lights[i].stat && decide (latchEnd f + 8000 ≤ d.now) then 3
    else if d.lights[i].stat then 2 else 0

/-- LGT_STAT.CLAIMED. -/
def Dev.lgtClaimed (d : Dev) (i : Fin 4) : Bool := d.getB light R.LGT_STAT 16 i.val

/-- A frame is requested. -/
def Dev.lgtWant (d : Dev) (i : Fin 4) : Dev := d.lgtMod i fun x => { x with want := true }

/-- SEND (R288): a write of LGT_CMD. -/
def execSend (line : Fin 4) (s : State) : Host.Outcome State Fault Refusal :=
  onLive (fun d => d.hostWrite light 0x200 fun e => e.lgtWant line) s

/-- LGT_REFRESH (R288). -/
def execLgtRefresh (line : Fin 4) (s : State) : Host.Outcome State Fault Refusal :=
  onLive (fun d =>
    let ms := d.getF light R.LGT_REFRESH 15 0 line.val
    d.when (d.up light && ms ≠ 0 && d.past d.lights[line].refAt (1000 * ms)) fun d =>
      (d.lgtMod line fun x => { x with refAt := d.now }).lgtWant line) s

/-- LIGHT_FRAME (R287, R288, R294). -/
def execLightFrame (line : Fin 4) (s : State) : Host.Outcome State Fault Refusal :=
  onLive (fun d =>
    d.when (d.up light && d.lights[line].want && d.lgtClaimed line && !d.lgtBusy line && !d.lights[line].diag) fun d =>
      (d.lgtMod line fun x => { x with want := false }).lgtSend line (d.lgtSnap line) (d.lgtStatus line)) s

/-! Lamp diagnosis (R289, R290). -/

/-- The state of a channel (R289). -/
def Dev.lampState (d : Dev) (i : Fin 4) (bytes : List (BitVec 8)) (k : Nat) : Nat :=
  let c := k % 4
  if d.lgtMods i ≤ k / 4 ∨ d.lgtCh i ≤ c then 3
  else match bytes[k / 4]? with
    | none => 3
    | some x =>
      let low := (d.lights[i].low.getD k none).getD 0
      if ¬ d.lgtStatus i then 2
      else if low * d.getN light R.LGT_PWM_NS i.val < d.getF light R.LGT_DIAGWIN 15 0 i.val * 2 ^ d.lgtDepth i ∨ ¬ x.getLsbD c then 2
      else if x.getLsbD (4 + c) then 1 else 0

/-- A status phase sets every channel's state. -/
def Dev.lgtJudge (d : Dev) (i : Fin 4) (bytes : List (BitVec 8)) : Dev :=
  let d1 := (List.range 256).foldl (fun (e : Dev) k =>
    let w := k / 16
    let sh := k % 16 * 2
    let old := e.getF light R.LGT_STATE (sh + 1) sh i.val w
    let new := d.lampState i bytes k
    let e1 := e.putF light R.LGT_STATE (sh + 1) sh new i.val w
    if new = 1 ∧ old ≠ 1 then (e1.raise light none 0).lgtEvent i 0 else e1) d
  let d2 := if bytes.length < d.lgtMods i then (d1.raise light none 1).lgtEvent i 1 else d1
  (d2.putF light R.LGT_STAT 14 8 (min bytes.length (d.lgtMods i)) i.val).lgtMod i fun x =>
    { x with low := List.replicate 256 none, frame := none, stat := false }

/-- STATUS_PHASE (R289). -/
def execStatusPhase (line : Fin 4) (bytes : List (BitVec 8)) (s : State) : Host.Outcome State Fault Refusal :=
  onLive (fun d =>
    match d.lights[line].frame with
    | none => d
    | some f =>
      d.when (d.up light && d.lights[line].stat && d.statusEnd line f ≤ d.now) fun d => d.lgtJudge line bytes) s

/-- DIAG (R290): a write of LGT_CMD. -/
def execDiag (line : Fin 4) (s : State) : Host.Outcome State Fault Refusal :=
  onLive (fun d => d.hostWrite light 0x200 fun e => e.putB light R.LGT_STAT 3 true line.val) s

/-- DIAG_PULSE_START (R290). -/
def execDiagPulseStart (line : Fin 4) (s : State) : Host.Outcome State Fault Refusal :=
  onLive (fun d =>
    let l := d.lights[line]
    d.when (d.up light && d.getB light R.LGT_STAT 3 line.val && d.running.isNone && d.lgtClaimed line && !d.lgtBusy line && !l.diag) fun d =>
      let duty := d.getF light R.LGT_DIAG 15 0 line.val % 2 ^ d.lgtDepth line
      let all := (List.range (4 * d.lgtMods line)).map fun k => if k % 4 < d.lgtCh line then duty else 0
      let d1 := (d.putB light R.LGT_STAT 3 false line.val).putB light R.LGT_STAT 2 true line.val
      (d1.lgtMod line fun x => { x with diag := true, prev := x.duty }).lgtSend line all false) s

/-- The previous frame is sent again after a pulse. -/
def Dev.diagBack (d : Dev) (i : Fin 4) : Dev :=
  let prev := d.lights[i].prev
  ((d.putB light R.LGT_STAT 2 false i.val).lgtMod i fun x => { x with diag := false, prev := [], frame := none }).lgtSend i prev
    (d.lgtStatus i)

/-- DIAG_PULSE_END (R290). -/
def execDiagPulseEnd (line : Fin 4) (bytes : List (BitVec 8)) (s : State) : Host.Outcome State Fault Refusal :=
  onLive (fun d =>
    match d.lights[line].frame with
    | none => d
    | some f =>
      let held := d.diagHold line
      let due := if d.lgtStatus line then d.statusEnd line f + held else latchEnd f + held
      d.when (d.up light && d.lights[line].diag && due ≤ d.now) fun d =>
        let d1 := if d.lgtStatus line then d.lgtJudge line bytes else d
        (d1.diagBack line).lgtEvent line 2) s

/-- A layer start cuts the pulses under way (R290). -/
def Dev.diagCut (d : Dev) : Dev :=
  (List.finRange 4).foldl (fun (e : Dev) i => if e.lights[i].diag then (e.diagBack i).lgtEvent i 3 else e) d

/-! Claims (R294). -/

/-- A write of LGT_CFG (R293, R294): on a refusal PIN, port and pin keep their old value. -/
def Dev.lgtCfgWrite (d : Dev) (i : Fin 4) (v0 : Word) : Dev :=
  let was := d.get light R.LGT_CFG i.val
  let v := R.LGT_CFG.write was v0
  let pin := lgtPin i v
  match d.claimErr pin.1 pin.2 light i.val with
  | some (code, h) =>
    let keep := fldMask 13 13 ||| fldMask 21 16
    ((d.put light R.LGT_CFG ((v &&& ~~~keep) ||| (was &&& keep)) i.val).put light R.LGT_CLAIM_ERR (claimWord code h pin.2) i.val).lgtEvent
      i 4
  | none =>
    let d1 : Dev := { d with claims := d.claims.filter fun c => ¬ (c.by_ = light ∧ c.sub = i.val ∧ (c.owner, c.ix) ≠ pin) }
    ((d1.claim pin.1 pin.2 light i.val).put light R.LGT_CFG v i.val).putB light R.LGT_STAT 16 true i.val

/-- LGT_CFG (R294). -/
def execLgtCfg (line : Fin 4) (v : Word) (s : State) : Host.Outcome State Fault Refusal :=
  onLive (fun d => d.hostWrite light (0x100 + 0x40 * line.val) fun e => e.lgtCfgWrite line v) s

/-- A write of LPIPE_CTL: ARC_EN claims the pipeline's port buffer in MEM, or keeps its value (R293). -/
def Dev.lpipeCtl (d : Dev) (p : Fin 2) (v0 : Word) : Dev :=
  let b := lpB p
  let own := blk .sramp 0
  let v := R.LPIPE_CTL.write (d.get b R.LPIPE_CTL) v0
  let err := if bit v 1 then d.claimErr own p.val b 0 else none
  match err with
  | some (code, h) =>
    ((d.put b R.LPIPE_CTL (setBit v 1 (d.getB b R.LPIPE_CTL 1))).put b R.LPIPE_CLAIM_ERR (claimWord code h p.val)).lpEvent p 4
  | none =>
    let d1 := if bit v 1 then d.claim own p.val b 0 else d.release own b 0 none
    d1.put b R.LPIPE_CTL v

/-! Colour feedback (R291). -/

/-- The new scale of a channel after a good frame; with a target of 0 the rule states none (log 2 and 40, DESIGN CHOICE). -/
def Dev.fbScale (d : Dev) (i : Fin 4) (p : Fin 2) (c : Nat) : Nat :=
  let fb := d.get light R.LGT_FB i.val
  let col := fld fb (9 + 2 * c) (8 + 2 * c)
  let w := fld fb 7 4
  let mean : Nat := (match col with
    | 0 => d.getF (lpB p) R.LPIPE_WSTAT_R 19 0 w
    | 1 => d.getF (lpB p) R.LPIPE_WSTAT_G 19 0 w
    | _ => d.getF (lpB p) R.LPIPE_WSTAT_B 19 0 w)
  let tgt : Nat := (match col with
    | 0 => d.getF light R.LGT_FB_TGT_R 19 0 i.val
    | 1 => d.getF light R.LGT_FB_TGT_G 19 0 i.val
    | _ => d.getF light R.LGT_FB_TGT_B 19 0 i.val)
  if col = 3 then 0x8000
  else if tgt = 0 then fld (Config.freeWord (d.fresh + c)) 15 0
  else
    let ki : Rat := ((fld fb 31 16 : Nat) : Rat) / 65536
    let x : Rat := ((d.lgtScale i c : Nat) : Rat) + ki * 32768 * (((tgt : Int) - (mean : Int) : Int) : Rat) / ((tgt : Nat) : Rat)
    (clampI 0 0xFFFF (rnd x)).toNat

/-- A good frame of channel `vc` reaches the feedback of a line. -/
def Dev.fbFrame (d : Dev) (p : Fin 2) (vc : Fin 4) (i : Fin 4) : Dev :=
  let fb := d.get light R.LGT_FB i.val
  if ¬ (d.up light ∧ bit fb 0 ∧ (bit fb 1).toNat = p.val ∧ fld fb 3 2 = vc.val ∧ ¬ d.lights[i].diag) then d
  else if d.getF (lpB p) R.LPIPE_WSTAT_SATCNT 15 0 (fld fb 7 4) ≠ 0 then (d.bump light R.LGT_FBSKIP).lgtEvent i 5
  else
    let s (c : Nat) : Nat := d.fbScale i p c
    let w0 := wd (s 0 + s 1 * 65536)
    let w1 := wd (s 2 + s 3 * 65536)
    let d1 : Dev := { d with fresh := d.fresh + 4 }
    if w0 = d.get light R.LGT_SCALE0 i.val ∧ w1 = d.get light R.LGT_SCALE1 i.val then d1
    else ((d1.put light R.LGT_SCALE0 w0 i.val).put light R.LGT_SCALE1 w1 i.val).lgtWant i

/-! Frames (R279 to R286). -/

/-- Pixels packed least significant bit first. -/
def packPix (bits : Nat) (ps : List Nat) : List Byte :=
  leBytes ((bits * ps.length + 7) / 8) (ps.foldr (fun v a => v % 2 ^ bits + a * 2 ^ bits) 0)

/-- The archive of a frame (R286, R449). -/
def Dev.lpArchive (d : Dev) (p : Fin 2) (vc : Fin 4) (bits : Nat) (raw : List (List Nat)) (ws : List Word) : Dev :=
  let b := lpB p
  let div := max 1 (d.getF b R.LPIPE_RING_CFG 23 16 1)
  if ¬ d.getB b R.LPIPE_CTL 1 ∨ d.getN (csiB p) R.CSI_VC_FRAMES vc.val % div ≠ 0 then d
  else
    let due := d.lpipes[p].due
    let d1 := d.lpMod p fun x => { x with due := (due + 1) % 8 }
    let bytes := wordsBytes ws ++ packPix bits raw.flatten
    if d.jNow ≤ due ∨ 2 ^ d.getF b R.LPIPE_RING_CFG 12 8 1 < bytes.length ∨
        Config.portRoom 2 < rtBytes d.lpipes[p].out + bytes.length then d1.bump b R.LPIPE_ARCDROP
    else d1.lpMod p fun x => { x with out := x.out ++ [⟨1, bytes⟩] }

/-- The bad frame before this one is reported now that this one is judged (R243, R281). -/
def Dev.lpBadBefore (d : Dev) (p : Fin 2) (good : Bool) : Dev :=
  if ¬ d.lpipes[p].bad then d
  else (if good then d.raiseTrans (lpB p) none 0 else d.raise (lpB p) none 0).lpEvent p 2

/-- A frame of the bound channel passes the stages (R281 to R286, R291). -/
def Dev.lpFrame (d : Dev) (p : Fin 2) (vc : Fin 4) (bits : Nat) (raw : List (List Nat)) (good : Bool) : Dev :=
  let b := lpB p
  let d1 := ((d.lpBadBefore p good).lpMod p fun x => { x with bad := !good }).bump b R.LPIPE_FRAMES
  let black := d.getF b R.LPIPE_BLACK 11 0
  let lines := raw.map fun l => l.map fun v => v - black
  if good then
    let d2 := (List.range 16).foldl (fun (e : Dev) w => e.winStat p bits raw lines w) d1
    let d3 := (List.finRange 4).foldl (fun (e : Dev) i => e.fbFrame p vc i) d2
    let c := if d.lpipes[p].armed then some (d.recoatOf p lines) else none
    let ws := d3.recoatWords p vc c
    let d4 := if d.lpipes[p].armed then d3.recoatDone p ws else d3
    d4.lpArchive p vc bits raw ws
  else (d1.bump b R.LPIPE_BADFRM).lpArchive p vc bits raw (d1.recoatWords p vc none)

/-- The bits of a pixel of a channel, by the data type that it processes (R279, R296). -/
def Dev.csiBits (d : Dev) (p : Fin 2) (vc : Fin 4) : Nat := rawBits (BitVec.ofNat 8 (d.getF (csiB p) R.CSI_VC_CFG 7 0 vc.val))

/-- A packet of the channel's data type; any other is discarded (R279). -/
def Dev.csiTakes (d : Dev) (p : Fin 2) (vc : Fin 4) (l : CsiLine) : Bool :=
  d.csiBits p vc ≠ 0 && l.dataType.toNat = d.getF (csiB p) R.CSI_VC_CFG 7 0 vc.val

/-- What a port counts of a frame, and the lines it passes on (R279, R280, R296): a pixel has the bits of its data type. -/
def Dev.csiFrame (d : Dev) (p : Fin 2) (f : CsiFrame) : Dev × List (List Nat) :=
  let c := csiB p
  let v := f.vc.val
  let used := f.lines.filter (d.csiTakes p f.vc)
  let lines := used.map fun l => l.pixels.map (· % 2 ^ d.csiBits p f.vc)
  let d1 := (d.putB c R.CSI_STAT 0 true).putB c R.CSI_STAT (4 + v) true
  let d2 := (d1.put c R.CSI_VC_FRAMES (d.get c R.CSI_VC_FRAMES v + 1) v).putF c R.CSI_VC_LINES 31 16 (min 0xFFFF lines.length) v
  let d3 := d2.bump c R.CSI_ECCFIX f.eccFixed
  let d4 := if f.hdrUncorr then (d3.bump c R.CSI_HDRERR).raise c none 0 else d3
  let d5 := (f.lines.filter fun l => l.crcErr).foldl (fun (e : Dev) _ => (e.bump c R.CSI_CRCERR).raise c none 1) d4
  (d5.bump c R.CSI_DISCARD (f.lines.length - used.length), lines)

/-- LAYER_FRAME (R280 to R282). -/
def execLayerFrame (p : Fin 2) (f : CsiFrame) (s : State) : Host.Outcome State Fault Refusal :=
  onLive (fun d =>
    let c := csiB p
    d.when (d.up c && d.getB c R.CSI_CTL 0 && d.getB c R.CSI_VC_CFG 8 f.vc.val) fun d =>
      let x := ((d.reached c none).reached (lpB p) none).csiFrame p f
      let good := !(f.lines.any fun l => l.crcErr) && !f.hdrUncorr && x.2.length = d.getF c R.CSI_VC_LINES 15 0 f.vc.val &&
        x.2.all fun l => l.length = d.getF c R.CSI_VC_CFG 23 12 f.vc.val
      if ¬ d.up (lpB p) then x.1
      else
        let d1 := x.1.bindNow p f.vc
        if d1.getB (lpB p) R.LPIPE_CTL 0 ∧ d1.getF (lpB p) R.LPIPE_STAT 1 0 = f.vc.val then d1.lpFrame p f.vc (d.csiBits p f.vc) x.2 good
        else d1) s

/-- CSI_LINK_LOSS (R296, R298). -/
def execCsiLinkLoss (p : Fin 2) (s : State) : Host.Outcome State Fault Refusal :=
  onLive (fun d => d.when (d.up (csiB p) && d.getB (csiB p) R.CSI_STAT 0) fun d =>
    (d.putB (csiB p) R.CSI_STAT 0 false).raise (csiB p) none 2) s

end Sys2Proof.Machine
end

