-- ==== Sys2Proof/Machine/Traveller.lean ====
section
/-! DEFINITION. The Traveller (R124 to R147, R211, R253): the measured point on the path, the judgement of the schedule, and
deposits (log 37, DEDUCED and DESIGN CHOICE, marked there). Arc positions are in nm, times in µs, speeds in nm/µs. -/

namespace Sys2Proof.Machine

/-! Times. -/

/-- TRV_HORIZON in force [ns]. -/
def Dev.horizon (d : Dev) (h : Fin 32) : Nat := fld (d.liv (headB h) R.TRV_HORIZON) 11 0

/-- LDLY of a kind [slots] (R136). -/
def Dev.ldly (d : Dev) (h : Fin 32) (kind : Nat) : Nat :=
  let w := d.liv (headB h) R.TRV_LDLY
  if kind = 1 ∨ kind = 6 then fld w 25 16 else fld w 9 0

/-- TRV_DAC_SKEW in force [slots]. -/
def Dev.skew (d : Dev) (h : Fin 32) : Int := sgn 8 (fld (d.liv (headB h) R.TRV_DAC_SKEW) 7 0)

/-- The smallest positive time in which `dist` is crossed (R136). -/
def tauOf (dist v a : Rat) : Option Rat :=
  let pos (t : Rat) : Option Rat := if 0 < t then some t else none
  if a = 0 then (if v = 0 then none else pos (dist / v))
  else
    let q := v * v + 2 * a * dist
    if q < 0 then none
    else
      let r := rsqrt q
      let t1 := (r - v) / a
      let t2 := (-r - v) / a
      if t1 ≤ t2 then (match pos t1 with | some t => some t | none => pos t2)
      else (match pos t2 with | some t => some t | none => pos t1)

/-- What a tick judges with: tick, arc position, velocity, acceleration, start and end of its window [ns]. -/
structure Win where
  k  : Nat
  s  : Rat
  v  : Rat
  a  : Rat
  t0 : Rat
  t1 : Rat
deriving DecidableEq, Repr

/-- The predicted edge time of a position [ns] (R136). -/
def Dev.edgeNs (d : Dev) (h : Fin 32) (w : Win) (kind : Nat) (e : Rat) : Option Rat :=
  (tauOf (e - w.s) w.v w.a).map fun t => ((1000 * w.k : Nat) : Rat) + 1000 * t - (d.ldly h kind : Rat) * 5 / 2

/-- TRV_VMIN [nm/µs]. -/
def Dev.vmin (d : Dev) (h : Fin 32) : Rat := ((d.tget (headB h) R.TRV_VMIN).toNat : Rat) / 1000

/-! Judging entries. -/

/-- Step 6 of R137: the entry awaits admission. -/
def Ent.barred (e : Ent) : Bool := e.adm && !e.ok

/-- The entry does not fire at tick `k`: it awaits admission, or tick `k` does not lie after the grant. An admitted entry
keeps the first tick after its grant in `dur`. -/
def Ent.barredAt (e : Ent) (k : Nat) : Bool := e.barred || (e.adm && decide (k < e.dur))

/-- What R137 does with one entry: the slot it fires in and whether it is late, none while it stays pending. -/
def Dev.judgeOne (d : Dev) (h : Fin 32) (w : Win) (e : Ent) : Option (Nat × Bool) :=
  let arc : Rat := (e.arc : Rat)
  if e.barredAt w.k then none
  else if e.kind = 5 then
    (if rabs (w.s - arc) ≤ (fld (d.tget (headB h) R.TRV_SETTLE_TOL) 15 0 : Rat) ∧ rabs w.v < d.vmin h then some (slotOf w.t0, false)
      else none)
  else if e.kind = 6 then none
  else if arc ≤ w.s then some (slotOf w.t0, !(e.adm && decide (w.k = e.dur)))
  else if w.v < d.vmin h then none
  else match d.edgeNs h w e.kind arc with
    | none => none
    | some t => if t < w.t0 then some (slotOf w.t0, true) else if t < w.t1 then some (slotOf t, false) else none

/-- Entries fire in arc order, none before an earlier one (R139); the first that stays pending keeps the rest. Edges are compared on the
grid: one predicted earlier within the same slot is not late (log 37, DESIGN CHOICE). -/
def judgeAll (one : Ent → Option (Nat × Bool)) (last : Nat) : List Ent → Nat → List Edge × List Ent
  | [], _ => ([], [])
  | e :: es, lo =>
    match one e with
    | none => ([], e :: es)
    | some (s, late) =>
      if last < lo then ([], e :: es)
      else
        let r := judgeAll one last es (max s lo)
        (⟨e, max s lo, late || decide (s < lo)⟩ :: r.1, r.2)

/-- Step 5 of R137 holds for an entry: TRV_STAT.HELD. -/
def Dev.heldNow (d : Dev) (h : Fin 32) (w : Win) : Bool :=
  d.heads[h].trv.sched.any fun e =>
    !e.barredAt w.k && e.kind ≠ 5 && e.kind ≠ 6 && decide (w.s < (e.arc : Rat)) && decide (w.v < d.vmin h)

/-- The schedule is judged at a tick (R137). -/
def Dev.judgeTick (d : Dev) (h : Fin 32) (w : Win) : Dev :=
  let held := d.heldNow h w
  let run := held && !d.heads[h].trv.held
  let r := judgeAll (d.judgeOne h w) (slotOf w.t1) d.heads[h].trv.sched d.heads[h].trv.lastSlot
  let d1 := (d.trvMod h fun t => { t with sched := r.2, edges := t.edges ++ r.1, held := held }).putB (headB h) R.TRV_STAT 5 held
  if run then (d1.bump (headB h) R.TRV_HELDCNT).trvEvent h 1 else d1

/-! Ramps and fades (R142, R211). -/

/-- Changes of an index in this window: `pos` is where it leaves a value, `next` the value after it. -/
def stepsFrom (pass : Rat → Option Nat) (pos : Nat → Rat) (next : Nat → Option Nat) : Nat → Nat → List (Nat × Nat)
  | 0, _ => []
  | f + 1, i =>
    match next i with
    | none => []
    | some j => match pass (pos i) with
      | none => []
      | some s => match stepsFrom pass pos next f j with
        | [] => [(s, j)]
        | (s', j') :: t => if s' = s then (s', j') :: t else (s, j) :: (s', j') :: t

/-- The slot of a position crossed in this window: its start for one that already lies behind the beam. -/
def Dev.passSlot (d : Dev) (h : Fin 32) (w : Win) (p : Rat) : Option Nat :=
  if (0 ≤ w.v ∧ p ≤ w.s) ∨ (w.v < 0 ∧ w.s < p) then some (slotOf w.t0)
  else match d.edgeNs h w 4 p with
    | none => none
    | some t => if t < w.t0 then some (slotOf w.t0) else if t < w.t1 then some (slotOf t) else none

/-- Changes of an index that rises with arc position from 0 at `s0`, up to `top`, in steps of `w`. -/
def Dev.riseSteps (d : Dev) (h : Fin 32) (w : Win) (s0 step : Rat) (top i : Nat) : List (Nat × Nat) :=
  if 0 ≤ w.v then
    stepsFrom (d.passSlot h w) (fun i => s0 + ((i + 1 : Nat) : Rat) * step) (fun i => if i < top then some (i + 1) else none) 256 i
  else stepsFrom (d.passSlot h w) (fun i => s0 + (i : Rat) * step) (fun i => if 0 < i then some (i - 1) else none) 256 i

/-- Changes of an index that falls with arc position to 0 at `s1`, from `top`. -/
def Dev.fallSteps (d : Dev) (h : Fin 32) (w : Win) (s1 step : Rat) (top i : Nat) : List (Nat × Nat) :=
  if 0 ≤ w.v then
    stepsFrom (d.passSlot h w) (fun i => s1 - (i : Rat) * step) (fun i => if 0 < i then some (i - 1) else none) 256 i
  else stepsFrom (d.passSlot h w) (fun i => s1 - ((i + 1 : Nat) : Rat) * step) (fun i => if i < top then some (i + 1) else none) 256 i

/-- The exposures that ramps are predicted for: the one in force and those whose LASER_ON is committed. -/
def Trv.exposures (t : Trv) : List Run :=
  t.run.toList ++ (t.edges.filter fun x => x.ent.kind = 4 ∨ x.ent.kind = 5).map fun x =>
    ⟨x.ent.arc, x.ent.bob, x.ent.buf, x.ent.fade, x.ent.num⟩

/-- A predicted step takes its place by slot. -/
def insStep : List Step → Step → List Step
  | [], x => [x]
  | y :: l, x => if x.slot < y.slot then x :: y :: l else y :: insStep l x

/-- Predicted steps take their places. -/
def insSteps (l new : List Step) : List Step := new.foldl insStep l

/-- The LASER_OFF that ends an exposure, once it is posted. -/
def Trv.offOf (t : Trv) (r : Run) : Option Ent :=
  ((t.edges.map (·.ent)) ++ t.sched).find? fun e => e.kind = 1 ∧ r.sOn < e.arc

/-- The index of a falling factor at an arc position. -/
def fallIx (s1 step s : Rat) (top : Nat) : Nat := min top (((s1 - s) / step).floor.toNat)

/-- The index predicted last for an exposure, or the one in force. -/
def lastIx (l : List Step) (on_ : Bool) (num now : Nat) : Nat :=
  match (l.filter fun x => x.on_ = on_ ∧ x.num = num).getLast? with
  | some x => x.index
  | none => now

/-- The bobbin of an exposure. -/
def Dev.runBob (d : Dev) (r : Run) : BobBuf := d.bobBuf r.bob r.buf

/-- Ramp and stitch steps of a tick for one exposure. -/
def Dev.rampsOf (d : Dev) (h : Fin 32) (w : Win) (r : Run) : Dev :=
  let t := d.heads[h].trv
  let x := d.runBob r
  let step : Rat := (x.nat 0x4C : Rat)
  let cur : Bool := t.run.any fun q => q.num = r.num
  let sOn : Rat := (r.sOn : Rat)
  let mk (on_ : Bool) (l : List (Nat × Nat)) : List Step := l.map fun p => ⟨p.1, on_, p.2, r.num⟩
  let up := if step = 0 then [] else mk true (d.riseSteps h w sOn step 255 (lastIx t.ramps true r.num (if cur then t.ri else 0)))
  let fin := if r.fade = 0 then [] else
    mk true (d.riseSteps h w sOn ((r.fade : Rat) / 64) 64 (lastIx t.fades true r.num (if cur then t.fi.getD 64 else 0)))
  match t.offOf r with
  | none => d.trvMod h fun t => { t with ramps := insSteps t.ramps up, fades := insSteps t.fades fin }
  | some e =>
    let sOff : Rat := (e.arc : Rat)
    let j0 := if cur then t.rj else if step = 0 then 256 else fallIx sOff step sOn 256
    let down := if step = 0 then [] else mk false (d.fallSteps h w sOff step 256 (lastIx t.ramps false r.num j0))
    let fw := (e.fade : Rat) / 64
    let f0 := if cur then t.fo.getD 64 else if e.fade = 0 then 64 else fallIx sOff fw sOn 64
    let fout := if e.fade = 0 then [] else mk false (d.fallSteps h w sOff fw 64 (lastIx t.fades false r.num f0))
    d.trvMod h fun t => { t with ramps := insSteps t.ramps (up ++ down), fades := insSteps t.fades (fin ++ fout) }

/-- Ramp and stitch steps of a tick. -/
def Dev.ramps (d : Dev) (h : Fin 32) (w : Win) : Dev := d.heads[h].trv.exposures.foldl (fun (e : Dev) r => e.rampsOf h w r) d

/-! Codes (R141, R143). -/

/-- A factor with 15 fraction bits. -/
def f15 (n : Nat) : Rat := (n : Rat) / 32768

/-- The exact product of R141. -/
def Dev.codeExact (d : Dev) (h : Fin 32) : Rat :=
  let t := d.heads[h].trv
  match t.run with
  | none => 0
  | some r =>
    let x := d.runBob r
    let on_ : Rat := if x.nat 0x4C = 0 then 1 else f15 (x.half (0x400 + 2 * min t.ri 255))
    let off : Rat := if x.nat 0x4C = 0 ∨ 256 ≤ t.rj then 1 else f15 (x.half (0x600 + 2 * t.rj))
    let fade (i : Option Nat) : Rat := match i with
      | some n => if n < 64 then ((n : Rat) + 1 / 2) / 64 else 1
      | none => 1
    (x.half 0x40 : Rat) * f15 t.pwr * on_ * off * fade t.fi * fade t.fo * f15 t.corr

/-- The level that LGATE shows (R131, R132, R140). -/
def Trv.level (t : Trv) : Bool := t.on_ && !t.inhib

/-- BCH[n] is asked for a code in a slot (R143), where it is a new one; `ent` where a LASER_ON, POWER_STEP or CORR entry asks. -/
def Dev.codeAsk (d : Dev) (h : Fin 32) (slot : Int) (c : Nat) (ent : Bool) : Dev :=
  let t0 := d.heads[h].trv
  let t1 : Trv := match t0.defer with
    | some x => if x.1 ≤ slot then { t0.codeTo x.1 x.2 with defer := none, codeEnt := false } else t0
    | none => t0
  let merge (e : Dev) (b : Bool) : Dev := if b then e.bump (headB h) R.TRV_MERGECNT else e
  if t1.defer = none ∧ t1.code = c then d.trvMod h fun _ => t1
  else if slot ≤ t1.codeAt then
    merge (d.trvMod h fun _ => { t1.codeTo t1.codeAt c with codeEnt := ent }) t1.codeEnt
  else if slot < t1.codeAt + 40 then merge (d.trvMod h fun _ => { t1 with defer := some (t1.codeAt + 40, c) }) ent
  else d.trvMod h fun _ => { t1.codeTo slot c with codeEnt := ent }

/-- The code of the state in force is asked for, a clamped one counted (R141). -/
def Dev.reCode (d : Dev) (h : Fin 32) (slot : Nat) (ent : Bool) : Dev :=
  let at_ : Int := (slot : Int) + d.skew h
  if d.heads[h].trv.level then
    let c := (near (d.codeExact h)).toNat
    (if 65535 < c then d.bump (headB h) R.TRV_PCLAMP else d).codeAsk h at_ (min c 65535) ent
  else d.codeAsk h at_ (fld (d.tget (headB h) R.TRV_IDLE_CODE) 15 0) false

/-- LGATE follows the state in force, with what the exposure absorbs (R253, R255). -/
def Dev.gateNow (d : Dev) (h : Fin 32) (slot : Nat) : Dev :=
  let t := d.heads[h].trv
  let x : BobBuf := match t.run with
    | some r => d.runBob r
    | none => ⟨[], false⟩
  (d.trvMod h fun t => t.gateTo slot t.level (min 0x10000 (x.nat 0x100)) (fld (x.word 8) 7 0)).putB (headB h) R.TRV_STAT 3 t.level

/-- A code is applied that the 100 ns rule had deferred. -/
def execCodeDefer (h : Fin 32) (s : State) : Host.Outcome State Fault Refusal :=
  onLive (fun d =>
    match d.heads[h].trv.defer with
    | some x => d.when (decide (x.1 ≤ (d.slot : Int))) fun d =>
        d.trvMod h fun t => { t.codeTo x.1 x.2 with defer := none, codeEnt := false }
    | none => d) s

/-! Firing. -/

/-- Gate pairs of R144. -/
def Dev.gatePair (d : Dev) (h : Fin 32) (slot kind : Nat) : Dev :=
  match d.heads[h].trv.pairAt with
  | some (s, k) =>
    if s = slot ∧ ((k = 1 ∧ kind = 4) ∨ (k = 4 ∧ kind = 1) ∨ (k = 6 ∧ kind = 5) ∨ (k = 5 ∧ kind = 6)) then
      ((d.trvMod h fun t => { t with pairAt := none }).bump (headB h) R.TRV_MERGECNT).trvEvent h 4
    else d.trvMod h fun t => { t with pairAt := some (slot, kind) }
  | none => d.trvMod h fun t => { t with pairAt := some (slot, kind) }

/-- The laser goes off (R134, R265, R268): both scales return to 1.0, and a LASER_OFF clears the integrator unless I_KEEP. -/
def Dev.fireOff (d : Dev) (h : Fin 32) (e : Ent) (slot : Nat) : Dev :=
  let keep := bit ((d.bobBuf e.bob e.buf).word 0xC0) 4
  let d1 := (d.trvMod h fun t => { t with on_ := false, run := none, fi := none, fo := none }).corForce h 32768 32768
  let d2 := if e.kind = 1 ∧ ¬ keep then d1.corInteg h 0 else d1
  let d3 := d2.phMod h fun x => { x with boxes := x.boxes.map fun b => if b.run = e.run then { b with off := some d.now } else b }
  ((d3.gateNow h slot).reCode h slot false).gatePair h slot e.kind

/-- The laser goes on (R134, R138, R142, R211). -/
def Dev.fireOn (d : Dev) (h : Fin 32) (e : Ent) (slot : Nat) : Dev :=
  let r : Run := ⟨e.arc, e.bob, e.buf, e.fade, e.num⟩
  let step : Rat := ((d.runBob r).nat 0x4C : Rat)
  let off := d.heads[h].trv.offOf r
  let rj := match off with
    | some x => if step = 0 then 256 else fallIx (x.arc : Rat) step (e.arc : Rat) 256
    | none => 256
  let fo : Option Nat := match off with
    | some x => if x.fade = 0 then none else some (fallIx (x.arc : Rat) ((x.fade : Rat) / 64) (e.arc : Rat) 64)
    | none => none
  let d1 := d.trvMod h fun t => { t with
    on_ := true, run := some r, pwr := e.pwr, ri := 0, rj := rj, fi := if e.fade = 0 then none else some 0, fo := fo }
  let d2 := match e.pool, d1.itemAt h e.idx with
    | true, some i => d1.itemMod i.ix fun x => { x with begun := true }
    | _, _ => d1
  let dw := d2.heads[h].trv.sched.find? fun x => x.kind = 6 ∧ x.run = e.run ∧ x.arc = e.arc
  let d3 := match e.kind, dw with
    | 5, some x => d2.trvMod h fun t => { t with
        sched := t.sched.filter fun y => y.num ≠ x.num, dwellAt := some (slot + slotOf (x.dur : Rat), x) }
    | _, _ => d2
  ((d3.gateNow h slot).reCode h slot true).gatePair h slot e.kind

/-- An entry takes effect in its slot (R134). -/
def Dev.fire (d : Dev) (h : Fin 32) (x : Edge) : Dev :=
  let e := x.ent
  match e.kind with
  | 0 => ((d.trvMod h fun t => { t with inhib := e.ok }).gateNow h x.slot).reCode h x.slot false
  | k =>
    let d1 := d.bump (headB h) R.TRV_FIRED
    let d2 := if x.late then (d1.bump (headB h) R.TRV_LATECNT).trvEvent h 0 else d1
    let d3 := match k with
      | 2 =>
        let d3 := if d2.corOn h then d2.corForce h e.pwr e.spd else d2.corForce h 32768 32768
        if d3.heads[h].trv.level then d3.reCode h x.slot true else d3
      | 3 =>
        let rebind (r : Run) : Run := { r with bob := e.bob, buf := e.buf }
        let d3 := d2.trvMod h fun t => { t with pwr := e.pwr, run := t.run.map rebind }
        if d3.heads[h].trv.level then (d3.gateNow h x.slot).reCode h x.slot true else d3
      | 4 => d2.fireOn h e x.slot
      | 5 => d2.fireOn h e x.slot
      | _ => d2.fireOff h e x.slot
    d3.completions h

/-- ENTRY_FIRE (R137, R140): the first committed edge, once its slot has come. -/
def execEntryFire (h : Fin 32) (s : State) : Host.Outcome State Fault Refusal :=
  onLive (fun d =>
    match d.heads[h].trv.edges with
    | [] => d
    | x :: xs => d.when (decide (x.slot ≤ d.slot)) fun d => (d.trvMod h fun t => { t with edges := xs }).fire h x) s

/-- DWELL_OFF (R138), whatever the measured position, and so also while the head is blind (log 37, DESIGN CHOICE). -/
def execDwellOff (h : Fin 32) (s : State) : Host.Outcome State Fault Refusal :=
  onLive (fun d =>
    match d.heads[h].trv.dwellAt with
    | none => d
    | some x => d.when (decide (x.1 ≤ d.slot)) fun d =>
        (d.trvMod h fun t => { t with dwellAt := none }).fire h ⟨x.2, x.1, false⟩) s

/-- RAMP_STEP (R142): the first predicted change of a ramp index, once its slot has come. -/
def execRampStep (h : Fin 32) (s : State) : Host.Outcome State Fault Refusal :=
  onLive (fun d =>
    match d.heads[h].trv.ramps with
    | [] => d
    | x :: xs => d.when (decide (x.slot ≤ d.slot)) fun d =>
        let mine : Bool := d.heads[h].trv.run.any fun r => r.num = x.num
        let d1 := d.trvMod h fun t => { t with ramps := xs }
        if ¬ mine then d1
        else
          let d2 := d1.trvMod h fun t => if x.on_ then { t with ri := x.index } else { t with rj := x.index }
          if d2.heads[h].trv.level then d2.reCode h x.slot false else d2) s

/-- STITCH_STEP (R211): the first predicted step of a fade, once its slot has come. -/
def execStitchStep (h : Fin 32) (s : State) : Host.Outcome State Fault Refusal :=
  onLive (fun d =>
    match d.heads[h].trv.fades with
    | [] => d
    | x :: xs => d.when (decide (x.slot ≤ d.slot)) fun d =>
        let mine : Bool := d.heads[h].trv.run.any fun r => r.num = x.num
        let ix : Option Nat := if x.index < 64 then some x.index else none
        let d1 := d.trvMod h fun t => { t with fades := xs }
        if ¬ mine then d1
        else
          let d2 := d1.trvMod h fun t => if x.on_ then { t with fi := ix } else { t with fo := ix }
          if d2.heads[h].trv.level then d2.reCode h x.slot false else d2) s

/-! Ticks. -/

/-- The planned arc position nearest to a bed point within 100,000 nm of the last one, its distance and tangent (R129); of two equally
near points the earlier (log 37, DESIGN CHOICE). -/
def Dev.place (d : Dev) (h : Fin 32) (x y : Rat) : Rat × Rat × Rat × Rat :=
  let f := d.heads[h].drf
  let s0 := d.heads[h].trv.s
  let best := (f.trail ++ f.moves).foldl (fun (b : Option (Rat × Rat × Move)) m =>
    let lo := clampR 0 m.len (s0 - 100000 - m.arc0)
    let hi := clampR 0 m.len (s0 + 100000 - m.arc0)
    if m.arc0 + m.len < s0 - 100000 ∨ s0 + 100000 < m.arc0 then b
    else
      let n := m.seg.nearest m.len lo hi x y
      match b with
      | some p => if n.2 < p.2.1 then some (n.1, n.2, m) else b
      | none => some (n.1, n.2, m)) none
  match best with
  | some (s, q, m) => let a := m.seg.at m.len s; (m.arc0 + s, rsqrt q, a.2.2.1, a.2.2.2)
  | none => (s0, vlen (x - f.endX) (y - f.endY), 1, 0)

/-- What lies more than 256 ticks back is forgotten (R226). -/
def Dev.forget (d : Dev) (h : Fin 32) (k : Nat) : Dev :=
  let t := d.heads[h].trv
  let hist := t.hist.filter fun x => decide (k < x.k + 256)
  let back : Rat := (hist.foldl (fun a x => if x.cur ∧ x.s < a then x.s else a) t.s) - 200000
  let cut (l : List GateLog) : List GateLog :=
    (l.takeWhile fun g => 400 * k < g.slot + 104000) ++ (l.dropWhile fun g => 400 * k < g.slot + 104000).take 1
  let cutC (l : List (Nat × Nat)) : List (Nat × Nat) :=
    (l.takeWhile fun g => 400 * k < g.1 + 104000) ++ (l.dropWhile fun g => 400 * k < g.1 + 104000).take 1
  ((d.trvMod h fun t => { t with hist := hist, gates := cut t.gates, codes := cutC t.codes }).drfMod h fun x =>
    { x with trail := x.trail.filter fun m => decide (back ≤ m.arc0 + m.len) || m.done ≠ 0 }).corMod h fun c =>
    { c with ffs := (c.ffs.takeWhile fun f => decide (back < (f.1 : Rat))) ++ (c.ffs.dropWhile fun f => decide (back < (f.1 : Rat))).take 1 }

/-- The first laser-on after a blind state needs admission, once its hold point lies ahead (R146). -/
def Dev.blindAdmit (d : Dev) (h : Fin 32) : Dev :=
  let begun (e : Ent) : Bool := d.heads[h].drf.moves.any fun m => m.started && m.run = e.run
  match d.heads[h].trv.sched.find? fun e => decide (e.kind = 4 ∨ e.kind = 5) && !begun e with
  | none => d.drfMod h fun x => { x with needAdm := true }
  | some e => d.trvMod h fun t => t.entMod e.num fun x => { x with adm := true, ok := false }

/-- The outputs are held low, or released, from a slot on (R131, R132). -/
def Dev.inhibit (d : Dev) (h : Fin 32) (slot : Nat) : Dev :=
  let t := d.heads[h].trv
  let want : Bool := t.blind || (t.devOut && bit (d.tget (headB h) R.TRV_CTL) 0)
  let now := (((t.edges.filter fun x => x.ent.kind = 0).getLast?).map fun x => x.ent.ok).getD t.inhib
  if want = now then d
  else d.trvMod h fun t => { t with edges := t.edges ++
    [⟨⟨0, 0, false, false, want, 0, 0, false, 0, 0, 0, 0, false, 0, 0⟩, max slot t.lastSlot, false⟩] }

/-- A tick with its measured bed point and velocities (R129 to R132); in web mode the product's displacement at the tick is taken out
of the point first (R148). A head with COR_CTL.EN 0 asks for the code of the neutral scales (R277). -/
def Dev.travel (d : Dev) (h : Fin 32) (k : Nat) (x y vx vy : Rat) (stale : Bool) : Dev :=
  let b := headB h
  let d0 := d.depositTick h d.heads[h].trv.lastK
  let old := d0.heads[h].trv
  let sh := d0.webShift h k
  let p := d0.place h (x - sh.1.1) (y - sh.1.2)
  let v := if stale then old.v else quant (vx * p.2.2.1 + vy * p.2.2.2)
  let a := if stale ∨ ¬ bit (d.tget b R.TRV_CTL) 2 then 0 else v - old.v
  let run := if stale then old.stale + 1 else 0
  let blind : Bool := 5 ≤ run
  let out : Bool := decide (((d.tget b R.TRV_DEV_MAX).toNat : Rat) < p.2.1) && (old.devOut || old.on_)
  let d1 := d0.trvMod h fun t => { t with
    s := p.1, v := v, px := x, py := y, vx := vx, vy := vy, stale := run, blind := blind, lastK := k, devOut := out,
    hist := ⟨k, p.1, x, y, p.2.2.1, p.2.2.2, !stale, true, (d.heads[h].drf.moveAt p.1).map fun m => (m.bob, m.buf, m.id)⟩ :: t.hist }
  let n := (near p.1).toNat
  let d2 := ((d1.put b R.TRV_ARC_LO (wd n)).put b R.TRV_ARC_HI (wd (n / 2 ^ 32 % 256))).put b R.TRV_DEV (wd (near p.2.1).toNat)
  let d3 := ((d2.put b R.TRV_POS_X (wi (near x))).put b R.TRV_POS_Y (wi (near y))).put b R.TRV_VEL (wi (near (v * 1000)))
  let d4 := (if stale then d3.bump b R.TRV_STALECNT else d3).putB b R.TRV_STAT 4 blind
  let d5 := if blind then d4.bump b R.TRV_BLINDCNT else d4
  let d6 := if blind ∧ ¬ old.blind then (d5.raise b none 9).trvEvent h 3 else d5
  let d7 := if old.blind ∧ ¬ blind then d6.blindAdmit h else d6
  let d8 := if out ∧ ¬ old.devOut then (d7.raise b none 8).trvEvent h 2 else d7
  let t0 : Rat := ((1000 * k + d.horizon h : Nat) : Rat)
  let w : Win := ⟨k, p.1, v, a, t0, t0 + 1000⟩
  let d9 := (d8.inhibit h (slotOf t0)).forget h k
  let d10 := if d9.heads[h].trv.gate then d9.post .ev b plyB none none (.melt x y) 0 0 else d9
  let d11 := if blind then d10 else (d10.judgeTick h w).ramps h w
  if d11.corOn h ∨ ¬ d11.heads[h].trv.level then d11 else d11.reCode h d.slot true

/-- The Traveller of a head works: its block is in service and the head runs in the layer. -/
def Dev.trvRuns (d : Dev) (h : Fin 32) : Bool := d.up (headB h) && d.heads[h].drf.inLayer && d.headRuns h

/-- The value of tick `k` is in time (R132). -/
def Dev.inTime (d : Dev) (h : Fin 32) (k : Nat) : Bool := d.now * 5 + 600 ≤ 4 * (1000 * k + d.horizon h)

/-- The values of both mirrors for a tick after the last one judged (R124, R166). -/
def Dev.mirrors (d : Dev) (h : Fin 32) : Option (Nat × (Int × Int) × (Int × Int)) :=
  match d.cells[headCell h 0].out, d.cells[headCell h 1].out with
  | some (k, ax, wx), some (k', ay, wy) =>
    if k = k' ∧ d.heads[h].trv.lastK < k then some (k, (ax, wx), (ay, wy)) else none
  | _, _ => none

/-- The frame in which points are measured: the running skein's, or the last layer's (R124; log 37, DEDUCED). -/
def Dev.layerFrame (d : Dev) : Frame :=
  match d.running with
  | some k => k.frame
  | none => frameOf d.rep.ox d.rep.oy d.rep.flags

/-- A measured coordinate, to the nearest 2^-20 nm (log 20, DESIGN CHOICE). -/
def fine (x : Rat) : Rat := ((near (x * 1048576) : Int) : Rat) / 1048576

/-- A tick outside the layer measures the point and judges nothing (R124, R132); it keeps the arc position and the tangent of the last
tick (R226; log 39, DEDUCED). -/
def Dev.observe (d : Dev) (h : Fin 32) (k : Nat) (x y vx vy : Rat) : Dev :=
  let tan : Rat × Rat := match d.heads[h].trv.hist with
    | a :: _ => (a.tx, a.ty)
    | [] => (1, 0)
  ((d.trvMod h fun t => { t with
    px := x, py := y, vx := vx, vy := vy, lastK := k,
    hist := ⟨k, t.s, x, y, tan.1, tan.2, true, false, none⟩ :: t.hist.filter fun x => decide (k < x.k + 256) }).put (headB h) R.TRV_POS_X (wi (near x))).put
    (headB h) R.TRV_POS_Y (wi (near y))

/-- TRAVELLER_TICK (R124, R129): angles through the live field map and the frame. -/
def execTravellerTick (h : Fin 32) (s : State) : Host.Outcome State Fault Refusal :=
  onLive (fun d =>
    match d.mirrors h, d.fmap h with
    | some (k, x, y), some fm =>
      let q (i : Int) : Rat := (i : Rat) / 256
      let p := fm.fwd (q x.1) (q y.1)
      let at_ := d.layerFrame.bed p.x p.y
      let v := d.layerFrame.bedDir (p.xa * q x.2 + p.xb * q y.2) (p.ya * q x.2 + p.yb * q y.2)
      if d.trvRuns h then
        d.when (d.inTime h k) fun d =>
          d.travel h k (fine at_.1) (fine at_.2) (quant v.1) (quant v.2) false
      else d.when (d.up (headB h)) fun d => d.observe h k (fine at_.1) (fine at_.2) (quant v.1) (quant v.2)
    | _, _ => d) s

/-- STALE_TICK (R132): the tick after the last one judged has not arrived in time. -/
def execStaleTick (h : Fin 32) (s : State) : Host.Outcome State Fault Refusal :=
  onLive (fun d =>
    let t := d.heads[h].trv
    let k := t.lastK + 1
    let here : Bool := (d.mirrors h).any fun m => m.1 = k
    d.when (d.trvRuns h && !here && !d.inTime h k) fun d => d.travel h k (t.px + t.vx) (t.py + t.vy) t.vx t.vy true) s

/-! Admission (R146, R147, R455). -/

/-- ADMISSION_GRANT (R455): the first request, where fewer than COUNT grants lie within the last 10 µs. -/
def execAdmissionGrant (s : State) : Host.Outcome State Fault Refusal :=
  onLive (fun d =>
    match d.thm.waiting with
    | [] => d
    | (t, n) :: rest =>
      let b := blk .therm 0
      let recent := d.thm.grants.filter fun g => d.now < g + 8000
      d.when (decide (recent.length < d.getF b R.THERM_ADMIT 5 0)) fun d =>
        let h : Fin 32 := Fin.ofNat 32 n
        let d1 : Dev := { d with thm := { d.thm with waiting := rest, grants := recent ++ [d.now] } }
        let d2 := if t < d.now then
            (d1.bump b R.THERM_ADM_WAITS).put b R.THERM_ADM_MAXUS (wd (max (d1.getN b R.THERM_ADM_MAXUS) ((d.now - t) / 800)))
          else d1
        let d3 := d2.drfMod h fun x => { x with admAsk := false }
        match d3.heads[h].trv.sched.find? fun e => e.barred with
        | some e => d3.trvMod h fun t => t.entMod e.num fun x =>
            { x with ok := true, dur := d.tick + 1 }
        | none => d3) s

end Sys2Proof.Machine
end

