-- ==== Sys2Proof/Machine/Maps.lean ====
section
/-! DEFINITION. Field maps (R125 to R128, R320) and the products of web mode (R148 to R151). -/

namespace Sys2Proof.Machine

/-! Field maps. -/

/-- Bytes of a field map image. -/
def fmapSize : Nat := 50764

/-- A field map image, none where R127 rejects it. -/
def fmapOf (bs : List Byte) : Option FMap :=
  let ws := bytesWords (bs.take fmapSize)
  let w (i : Nat) : Word := ws.getD i 0
  let n := fld (w 1) 6 0
  let axMin := (w 2).toInt
  let axMax := (w 3).toInt
  let ayMin := (w 4).toInt
  let ayMax := (w 5).toInt
  let crc := crc32 (bs.take 0x3C ++ (bs.take fmapSize).drop 0x40)
  if bs.length < fmapSize ∨ w 0 ≠ 0x5A460001#32 ∨ n < 17 ∨ 65 < n ∨ axMax ≤ axMin ∨ ayMax ≤ ayMin ∨ w 15 ≠ crc then none
  else
    let nodes := (List.range (n * n)).map fun m => ((w (16 + 3 * m)).toInt, (w (17 + 3 * m)).toInt, (w (18 + 3 * m)).toInt)
    some ⟨n, axMin, axMax, ayMin, ayMax, nodes, w 15⟩

/-- TRV_STAT.FMAP_VALID, FMAP_MATCH, FMAP_PEND and TRV_FMAP_CRC. -/
def Dev.fmapShow (d : Dev) (h : Fin 32) : Dev :=
  let b := headB h
  let crc := (d.heads[h].trv.live.map fun f => f.crc).getD 0
  let valid := d.heads[h].trv.live.isSome
  (((d.putB b R.TRV_STAT 0 valid).putB b R.TRV_STAT 1 (valid && decide (crc = d.get b R.TRV_FMAP_DESC))).putB b R.TRV_STAT 2
    d.heads[h].trv.pend.isSome).put b R.TRV_FMAP_CRC crc

/-- The pending map becomes live (R127). -/
def Dev.fmapPromote (d : Dev) (h : Fin 32) : Dev :=
  match d.heads[h].trv.pend with
  | none => d
  | some f => ((d.trvMod h fun t => { t with live := some f, pend := none }).fmapShow h).trvEvent h 5

/-- No map is pending: an operation that failed or was aborted leaves none (R127). -/
def Dev.fmapNone (d : Dev) (h : Fin 32) : Dev := (d.trvMod h fun t => { t with pend := none }).fmapShow h

/-- Both maps are discarded (R320, R379). -/
def Dev.fmapDrop (d : Dev) (h : Fin 32) : Dev := (d.trvMod h fun t => { t with live := none, pend := none }).fmapShow h

/-- A field map operation ends with the bytes it read (R127). -/
def Dev.fmapEnd (d : Dev) (h : Fin 32) (bs : List Byte) : Dev :=
  match fmapOf bs with
  | none => (d.opFail (headB h) 0x80).fmapNone h
  | some f =>
    let d1 := ((d.trvMod h fun t => { t with pend := some f }).fmapShow h).opDone (headB h)
    if d1.running.isSome then d1 else d1.fmapPromote h

/-- FMAP_LOAD (R127): the host's start. -/
def execFmapLoad (h : Fin 32) (tag : BitVec 8) (s : State) : Host.Outcome State Fault Refusal :=
  onLive (fun d => d.hostStart (headB h) 1 tag.toNat 0) s

/-- FMAP_LOAD_DONE (R127): an image that cannot be read ends the operation failed. -/
def execFmapLoadDone (h : Fin 32) (s : State) : Host.Outcome State Fault Refusal :=
  onLiveMem (fun m d =>
    if ¬ d.opRunning (headB h) 1 then (m, d)
    else match d.sdRead m (d.addr2 (headB h) R.TRV_FMAP_ADDR_LO R.TRV_FMAP_ADDR_HI) fmapSize with
      | .error e =>
        let d1 := d.sdMark (headB h) (d.addr2 (headB h) R.TRV_FMAP_ADDR_LO R.TRV_FMAP_ADDR_HI) fmapSize
        (m, (d1.opFail (headB h) (if e = 4 then 7 else 6)).fmapNone h)
      | .ok bs => (m, d.fmapEnd h bs)) s

/-- FMAP_FETCH (R127): the host's start. -/
def execFmapFetch (h : Fin 32) (tag : BitVec 8) (s : State) : Host.Outcome State Fault Refusal :=
  onLive (fun d => d.hostStart (headB h) 2 tag.toNat 0) s

/-- FMAP_FETCH begins to run (R127, R311): an absent head, or one that stores no map, fails it. -/
def Dev.fetchBegin (d : Dev) (h : Fin 32) : Dev :=
  let n := headLane h
  if ¬ d.headHere h ∨ (d.desc n 7).toNat ≠ fmapSize then (d.opFail (headB h) 0x81).fmapNone h
  else (d.laneMod n fun l => { l with store := [] }).storeRead n 1

/-- FMAP_FETCH_DONE (R127): the whole image has been read. -/
def execFmapFetchDone (h : Fin 32) (s : State) : Host.Outcome State Fault Refusal :=
  onLive (fun d =>
    d.when (d.opRunning (headB h) 2 && fmapSize ≤ d.lanes[headLane h].store.length) fun d =>
      (d.fmapEnd h d.lanes[headLane h].store).laneMod (headLane h) fun l => { l with store := [] }) s

/-! Web mode. -/

/-- Vertices of a record. -/
def recPts (r : List Word) : List (Int × Int) :=
  match rkind r with
  | 6 => contPts r
  | 5 => []
  | 7 => []
  | _ => [rfirst r, rlast r]

/-- The vertices of a head's list. -/
def Dev.listPts (d : Dev) (m : Mem) (h : Fin 32) : List (Int × Int) :=
  let l := d.listOf h
  (List.range l.2).flatMap fun i => match d.sdRead m (l.1 + 32 * i) 32 with
    | .ok bs => recPts (bytesWords bs)
    | .error _ => []

/-- The bed direction in which a head's products move (R148). -/
def Dev.webDir (d : Dev) (h : Fin 32) : Rat × Rat :=
  match fld (d.tget (headB h) R.TRV_WEB_CTL) 9 8 with
  | 0 => (1, 0)
  | 1 => (-1, 0)
  | 2 => (0, 1)
  | _ => (0, -1)

/-- A product can be marked from displacement `c` on (R150 step 2): no vertex leaves the covered field up to the displacement at the
end of the mark, which is to say that this is no more than c_exit (log 38, DEDUCED). -/
def Dev.webFits (d : Dev) (m : Mem) (h : Fin 32) (trig : Int) : Bool :=
  let q := d.webSample h d.tick
  let k : Rat := ((d.tget (headB h) R.TRV_WEB_SCALE).toNat : Rat) / 65536
  let c := ((q.1 - trig : Int) : Rat) * k
  let go := (q.2 : Rat) * k / 1000000 * ((d.tget (headB h) R.TRV_WEB_DUR).toNat : Rat)
  let dir := d.webDir h
  let sgn : Rat := if go < 0 then -1 else 1
  match d.fmap h, d.running with
  | some f, some sk => (d.listPts m h).all fun p =>
    marches (fun z => let u := sk.frame.mach z.1 z.2; f.leap u.1 u.2)
      (fun s => ((p.1 : Rat) + (c + sgn * s) * dir.1, (p.2 : Rat) + (c + sgn * s) * dir.2)) (rabs go) ((rabs go).ceil.toNat + 1) 0
  | _, _ => false

/-- The product in progress has ended: list finished, every entry fired. -/
def Dev.webOver (d : Dev) (h : Fin 32) : Bool :=
  let t := d.heads[h].trv
  t.webRun && d.listOver h && t.sched.all (fun e => e.src) && t.edges.isEmpty && t.dwellAt.isNone && !d.heads[h].drf.open_

/-- A head whose product has ended is free (R150 step 5). -/
def Dev.webFree (d : Dev) (h : Fin 32) : Dev :=
  if d.webOver h then (d.completions h).trvMod h fun t => { t with webRun := false, product := none, sched := [] } else d

/-- The mark of a product starts: the whole list from its first record, the arc position from 0 (R150). -/
def Dev.webStart (d : Dev) (h : Fin 32) (p : Product) : Dev :=
  (d.drfMod h fun x => { x with
    fetch := [], poly := none, moves := [], trail := [], nextRec := 0, arcEnd := 0, endX := x.x, endY := x.y, ownDone := 0,
    atHold := true, open_ := false, runNo := x.runNo + 1 }).trvMod h fun t =>
      { t with product := some p, webRun := true, s := 0, hist := t.hist.map fun x => { x with cur := false } }

/-- The first waiting product that can still be marked is taken; the others are missed (R150 steps 2 and 3). -/
def webTake : Nat → Mem → Dev → Fin 32 → Mem × Dev
  | 0, m, d, _ => (m, d)
  | f + 1, m, d, h =>
    match d.heads[h].trv.waiting with
    | [] => (m, d)
    | p :: rest =>
      let d1 := (d.trvMod h fun t => { t with waiting := rest }).webShow h
      if d1.webFits m h p.trig then (m, d1.webStart h p)
      else let x := webMiss m d1 h p.ord 1 0; webTake f x.1 x.2 h

/-- PRODUCT_START (R150). -/
def execProductStart (h : Fin 32) (s : State) : Host.Outcome State Fault Refusal :=
  onLiveMem (fun m d =>
    if ¬ d.webHead h ∨ ¬ d.trvRuns h ∨ d.heads[h].drf.st = 7 then (m, d)
    else
      let d1 := d.webFree h
      if d1.heads[h].trv.webRun then (m, d1) else webTake 16 m d1 h) s

end Sys2Proof.Machine
end

