-- ==== Sys2Proof/Machine/LayerWork.lean ====
section
/-! DEFINITION. Whether the work of the running layer is over (R85, R89, R153), which a layer's end, an abort and a departure ask. -/

namespace Sys2Proof.Machine

/-- Every event of a head has fired, and its motion is over. -/
def Head.quiet (x : Head) : Bool :=
  x.drf.moves.isEmpty && x.trv.edges.isEmpty && x.trv.dwellAt.isNone && x.trv.sched.all fun e => e.src

/-- The work of a head is over: its list finished or held at an abort (R89); in web mode no product is under way or waits
(R153). -/
def Dev.headOver (d : Dev) (h : Fin 32) (web : Bool) : Bool :=
  let x := d.heads[h]
  !d.headRuns h || (if web ∧ ¬ d.rep.aborted then !x.trv.webRun && x.trv.waiting.isEmpty
    else (x.drf.st = 6 || x.drf.st = 7) && x.quiet)

/-- A staged skein can start (R87). -/
def Dev.canStart (d : Dev) : Bool := d.staged.any fun k => !bit k.flags 0 || k.goSeen

/-- Free heads of a web layer take or miss what waits before the layer's end is judged (R153). -/
def Dev.webFreed (d : Dev) (k : Skein) : Dev :=
  if k.web then (List.finRange 32).foldl (fun (e : Dev) h => if e.headRuns h then e.webFree h else e) d else d

/-- All work of the running layer has finished (R89, R153). -/
def Dev.layerDone (d : Dev) (k : Skein) : Bool :=
  ((List.finRange 32).all fun h => d.headOver h k.web) && d.poolRead_ && d.ply.items.isEmpty &&
    (!k.web || d.rep.aborted || d.canStart)

/-- SKEIN_STAT.RUN (R85): 1 a staged skein is about to start, 2 running, 3 all its work has finished. -/
def Dev.runState (d : Dev) : Nat :=
  match d.running with
  | some k => if (d.webFreed k).layerDone k then 3 else 2
  | none => if d.canStart then 1 else 0

end Sys2Proof.Machine
end

