-- ==== Sys2Proof/Machine/Lane.lean ====
section
/-! DEFINITION. The Norhal link (R299 to R327): lane states, training, arrival and departure, management, electrical
idle, pattern tests and error injection (log 33, DEDUCED and DESIGN CHOICE, marked there). -/

namespace Sys2Proof.Machine

/-- A register of a lane. -/
def Dev.lget (d : Dev) (n : Fin 40) (r : Reg) : Word := d.get (laneB n) r

/-- LANE_CTL.MAXRATE. -/
def Dev.maxRate (d : Dev) (n : Fin 40) : Nat := fld (d.lget n R.LANE_CTL) 2 1

/-- LANE_CTL.MINRATE, used as MAXRATE when above it. -/
def Dev.minRate (d : Dev) (n : Fin 40) : Nat := min (d.maxRate n) (fld (d.lget n R.LANE_CTL) 4 3)

/-- A head with an unusable block is never present, and its lane is held DISABLED (R490). -/
def Dev.laneBarred (d : Dev) (n : Fin 40) : Bool :=
  d.fence (laneB n) = 3 || (n.val < 32 && [blk .headctl n.val, blk .servo (n.val / 4), blk .bchg (n.val / 4)].any fun b => d.fence b = 3)

/-- RATE and PRESET in use, which read 0 outside UP, IDLE and TEST (R326). -/
def Dev.laneShow (d : Dev) (n : Fin 40) (st rate preset : Nat) : Dev :=
  let use : Bool := st = 4 || st = 5 || st = 7
  let d1 := (d.putF (laneB n) R.LANE_STAT 3 0 st).putB (laneB n) R.LANE_STAT 7 (st = 3 || st = 4)
  (d1.putF (laneB n) R.LANE_STAT 5 4 (if use then rate else 0)).putF (laneB n) R.LANE_STAT 10 8 (if use then preset else 0)

/-- The rate and preset of the lane: those trained last, else MAXRATE and preset 0 (R324). -/
def Dev.laneRate (d : Dev) (n : Fin 40) : Nat × Nat := d.lanes[n].trained.getD (d.maxRate n, 0)

/-- Bits of the line in a fabric cycle at a rate of LANE_STAT.RATE (R299). -/
def cycleBits (rate : Nat) : Nat := 5 * 2 ^ rate

/-- The lane takes a state of R317; a management request outlives electrical idle only (R311; log 33, DEDUCED). -/
def Dev.laneTo (d : Dev) (n : Fin 40) (st : Nat) : Dev :=
  let x := d.laneRate n
  let idle : Bool := (d.laneSt n = 4 && st = 5) || (d.laneSt n = 5 && st = 4)
  (d.laneShow n st x.1 x.2).laneMod n fun l => { l with
    vc3 := if idle then l.vc3 else none, burst := none, farAsk := none, far := false }

/-- A LANE_EVT journal record: events of the start are journaled (R477, R495). -/
def Dev.laneLog (d : Dev) (n : Fin 40) (ev : Nat) (serial : List Word) : Dev :=
  if d.ready then d
  else
    let ns := d.tim.clock / 4294967296
    d.jAppend [(8, wd n.val, wordsBytes ([wd n.val, wd ev] ++ serial ++ [wd (ns / 1000000000), wd (ns % 1000000000)]))]

/-- SERIAL of a present partner. -/
def Dev.serial (d : Dev) (n : Fin 40) : List Word := [d.desc n 8, d.desc n 9, d.desc n 10, d.desc n 11]

/-! Training (R314). -/

/-- The rates of a sweep, fastest first. -/
def Dev.sweepRates (d : Dev) (n : Fin 40) : List Nat :=
  [2, 1, 0].filter fun r => d.minRate n ≤ r ∧ r ≤ d.maxRate n ∧ d.lanes[n].rates.getLsbD r

/-- FAILED with its reason. -/
def Dev.laneFail (d : Dev) (n : Fin 40) (reason : Nat) : Dev :=
  (((((d.laneTo n 6).putF (laneB n) R.LANE_STAT 19 16 reason).laneMod n fun l => { l with lost := false }).laneEvent n 8#32).raise
    (laneB n) (some 0) 0).laneLog n 3 []

/-- A sweep without a passing trial: another after 10 ms, or the lane fails after RT_MAX of them. -/
def Dev.sweepFail (d : Dev) (n : Fin 40) : Dev :=
  let k := d.lanes[n].sweeps + 1
  let d1 := (d.laneMod n fun l => { l with sweeps := k, phase := .wait d.now }).putF (laneB n) R.LANE_STAT 27 24 k
  if fld (d.lget n R.LANE_RT_CTL) 11 8 ≤ k then d1.laneFail n 1 else d1

/-- A sweep begins with the fastest rate and preset 0. -/
def Dev.sweepStart (d : Dev) (n : Fin 40) : Dev :=
  match d.sweepRates n with
  | [] => d.sweepFail n
  | r :: _ => d.laneMod n fun l => { l with phase := .trial d.now, rate := r, preset := 0 }

/-- The lane enters TRAIN. -/
def Dev.laneTrain (d : Dev) (n : Fin 40) : Dev :=
  let d1 := ((d.laneTo n 2).putF (laneB n) R.LANE_STAT 19 16 0).putF (laneB n) R.LANE_STAT 27 24 0
  (d1.laneMod n fun l => { l with
    sweeps := 0, rates := 7, lost := false, crcAt := [], store := [], fbTicks := [], inj := [], cred1 := 0, cred3 := 3
    grants := Lane.init.grants }).sweepStart n

/-! Departure (R319). -/

/-- What a departure does beside the lane's own transition: of a head, its loss while a layer runs whose work is not over (R212,
R321). -/
def Dev.laneGone (d : Dev) (m : Mem) (n : Fin 40) : Dev :=
  let b := laneB n
  let ser := d.serial n
  let d1 := (((d.putB b R.LANE_STAT 6 false).putF b R.LANE_STAT 23 20 0).bump b R.LANE_DEPARTURES).laneEvent n 2#32
  let d2 := ser.zipIdx.foldl (fun (e : Dev) w => e.put b R.LANE_SERIAL_LAST w.1 w.2) (d1.laneLog n 1 ser)
  if h : n.val < 32 then
    let hd : Fin 32 := ⟨n.val, h⟩
    let d3 := (List.range 6).foldl (fun (e : Dev) r => e.headCellOut (headCell hd r) 0) d2
    let d4 := (List.range 16).foldl (fun (e : Dev) i => e.put b R.LANE_DESC 0 i) d3
    let d5a := (d4.linkLat hd).mpvEval hd
    let d5 := if d5a.runState = 3 then d5a else d5a.headLost m hd
    if d5.opRunning (headB hd) 2 then (d5.opFail (headB hd) 0x81).fmapNone hd else d5
  else (List.range 16).foldl (fun (e : Dev) i => e.put b R.LANE_DESC 0 i) (d2.modDepart n)

/-- A transition: out of UP or IDLE it is a departure but for steps 10 and 11. -/
def Dev.laneLeave (d : Dev) (m : Mem) (n : Fin 40) : Dev := if d.laneSt n = 4 ∨ d.laneSt n = 5 then d.laneGone m n else d

/-- Step 16 of R317: the block is fenced or resets. -/
def Dev.laneOut (d : Dev) (m : Mem) (n : Fin 40) : Dev := (d.laneLeave m n).laneTo n 0

/-- Step 17 of R317, and the start of lanes in stage 6 (R495). -/
def Dev.laneBack (d : Dev) (n : Fin 40) : Dev :=
  if d.laneSt n = 0 ∧ bit (d.lget n R.LANE_CTL) 0 ∧ d.up (laneB n) ∧ ¬ d.laneBarred n then d.laneTo n 1 else d

/-- A retraining (R318): a departure, counted once. -/
def Dev.laneRetrain (d : Dev) (m : Mem) (n : Fin 40) : Dev :=
  ((d.laneGone m n).bump (laneB n) R.LANE_RETRAINS).laneEvent n 16#32 |>.laneTrain n

/-! Commands of the host. -/

/-- A write of LANE_CTL (R317 steps 1 and 2). -/
def laneCtl (m : Mem) (d : Dev) (n : Fin 40) (v : Word) : Mem × Dev :=
  let d1 := d.put (laneB n) R.LANE_CTL (R.LANE_CTL.write (d.lget n R.LANE_CTL) v)
  (m, if bit v 0 then d1.laneBack n else if d1.laneSt n = 0 then d1 else d1.laneOut m n)

/-- LANE_ENABLE (R317 step 1). -/
def execLaneEnable (n : Fin 40) (v : Word) (s : State) : Host.Outcome State Fault Refusal :=
  onLiveMem (fun m d => hostWriteMem m d (laneB n) 0x100 fun x e => laneCtl x e n v) s

/-- LANE_DISABLE (R317 step 2). -/
def execLaneDisable (n : Fin 40) (v : Word) (s : State) : Host.Outcome State Fault Refusal :=
  onLiveMem (fun m d => hostWriteMem m d (laneB n) 0x100 fun x e => laneCtl x e n v) s

/-- A write of LANE_CMD.TRAIN (R317 steps 3 and 13). -/
def Dev.trainCmd (d : Dev) (n : Fin 40) : Dev := if d.laneSt n = 1 ∨ d.laneSt n = 6 then d.laneTrain n else d

/-- A write of LANE_CMD.RETRAIN (R318). -/
def Dev.retrainCmd (d : Dev) (m : Mem) (n : Fin 40) : Dev := if d.laneUp n then d.laneRetrain m n else d

/-- TRAIN (R317 steps 3 and 13): a write of LANE_CMD. -/
def execTrain (n : Fin 40) (s : State) : Host.Outcome State Fault Refusal :=
  onLive (fun d => d.hostWrite (laneB n) 0x108 fun e => e.trainCmd n) s

/-- RETRAIN (R318): a write of LANE_CMD. -/
def execRetrain (n : Fin 40) (s : State) : Host.Outcome State Fault Refusal :=
  onLiveMem (fun m d => hostWriteMem m d (laneB n) 0x108 fun x e =>
    (x, if e.outranked n s.pending 8 then e else e.retrainCmd x n)) s

/-- Bits to be inverted after the CRC of the next frame (R325). -/
def Dev.injHere (d : Dev) (n : Fin 40) (bits : Nat) : Dev :=
  if d.laneUp n then d.laneMod n fun l => { l with inj := l.inj ++ [(fld (d.lget n R.LANE_PAT_CTL) 17 16, bits)] } else d

/-- Bits of an INJ_BURST: LANE_PAT_CTL.BURST, 0 treated as 1. -/
def Dev.injBits (d : Dev) (n : Fin 40) : Nat := max 1 (fld (d.lget n R.LANE_PAT_CTL) 15 8)

/-- Bits of a pattern test (R324). -/
def Dev.patBits (d : Dev) (n : Fin 40) : Nat := d.getN (laneB n) R.LANE_PAT_LEN * 2 ^ 20

/-- Bits of the pattern sent by now: none before a far test is answered. -/
def Dev.patSent (d : Dev) (n : Fin 40) : Nat :=
  if d.lanes[n].farAsk.isSome then 0 else (d.now - d.lanes[n].patAt) * cycleBits (d.laneRate n).1

/-- A waiting command ends the lane's test in this cycle (R325). -/
def patEnds (n : Fin 40) (p : List Instr) : Bool :=
  p.any fun c => stopsBlk (laneB n) c || (match c with
    | .opAbort b => b = laneB n
    | .patTestDone k _ | .patTestNoAnswer k => k = n
    | _ => false) || ((writesTo (laneB n) 0x020 c).map fun v => decide (fld v 31 28 = 2)).getD false

/-- The test ends in this cycle: an abort was written in it, or a command that waits ends it. -/
def Dev.patEnding (d : Dev) (n : Fin 40) (p : List Instr) : Bool :=
  patEnds n p || d.ops.any fun o => o.blk = laneB n && o.abortAt = some d.now

/-- Bits inverted in the pattern that is sent next, behind those that wait; none where the pattern has no bit left. -/
def Dev.patInject (d : Dev) (n : Fin 40) (bits : Nat) : Dev :=
  let b := laneB n
  let at_ := (d.lanes[n].patInj.map fun i => i.1 + i.2).foldl max (d.patSent n)
  if d.patBits n ≤ at_ then d
  else ((d.laneMod n fun l => { l with patInj := l.patInj ++ [(at_, bits)] }).bump b R.LANE_INJCNT).opPart b 3 (d.getN b R.OP_PART 3 + bits)

/-- A write of LANE_CMD.INJ_BIT or INJ_BURST (R325), which a running test does not discard (log 33, DEDUCED). -/
def Dev.laneInj (d : Dev) (n : Fin 40) (bits : Nat) (p : List Instr := []) : Dev :=
  let b := laneB n
  let ok : Bool := d.hostOk && d.accErr b 0x108 = 0
  if ok ∧ d.laneSt n = 7 then
    let e := d.touch b 0x108
    if d.patEnding n p then e else e.patInject n bits
  else d.hostWrite b 0x108 fun e => e.injHere n bits

/-- INJ_BIT (R325). -/
def execInjBit (n : Fin 40) (s : State) : Host.Outcome State Fault Refusal := onLive (fun d => d.laneInj n 1 s.pending) s

/-- INJ_BURST (R325). -/
def execInjBurst (n : Fin 40) (s : State) : Host.Outcome State Fault Refusal :=
  onLive (fun d => d.laneInj n (d.injBits n) s.pending) s

/-! Signal and training. -/

/-- SIGNAL_DETECT (R317 steps 3 and 13). -/
def execSignalDetect (n : Fin 40) (s : State) : Host.Outcome State Fault Refusal :=
  onLive (fun d => d.when (d.laneSt n = 1 || (d.laneSt n = 6 && d.lanes[n].lost)) fun d => d.laneTrain n) s

/-- SIGNAL_LOST (R317 steps 9 and 13). -/
def execSignalLost (n : Fin 40) (s : State) : Host.Outcome State Fault Refusal :=
  onLiveMem (fun m d =>
    if d.laneUp n then (m, if d.outranked n s.pending 9 then d else (d.laneGone m n).laneTo n 1)
    else if d.laneSt n = 6 then (m, d.laneMod n fun l => { l with lost := true }) else (m, d)) s

/-- LOSS_OF_LOCK (R318). -/
def execLossOfLock (n : Fin 40) (s : State) : Host.Outcome State Fault Refusal :=
  onLiveMem (fun m d =>
    if ¬ d.laneUp n then (m, d)
    else if bit (d.lget n R.LANE_CTL) 9 then (m, if d.outranked n s.pending 8 then d else d.laneRetrain m n) else (m, d.raise (laneB n) (some 0) 2)) s

/-- TRAIN_BLOCK (R314, R318, R324). -/
def execTrainBlock (n : Fin 40) (rates : BitVec 3) (s : State) : Host.Outcome State Fault Refusal :=
  onLiveMem (fun m d =>
    if d.laneUp n then
      if bit (d.lget n R.LANE_CTL) 9 ∧ ¬ d.outranked n s.pending 8 then (m, (d.laneRetrain m n).laneMod n fun l => { l with rates := rates }) else (m, d)
    else if d.laneSt n = 2 then (m, d.laneMod n fun l => { l with rates := rates })
    else if d.laneSt n = 7 ∧ d.lanes[n].farAsk.isSome then (m, d.laneMod n fun l => { l with farAsk := none, far := true, patAt := d.now })
    else (m, d)) s

/-- The bits of a trial have passed without an error: it cannot pass before 2^LANE_TRAIN_BITS bits at its rate, nor later than 20 µs
and those bits after it began (R314). -/
def Dev.trialDue (d : Dev) (n : Fin 40) (since : Nat) : Bool :=
  let bits := 2 ^ d.getF (laneB n) R.LANE_TRAIN_BITS 5 0
  let per := cycleBits d.lanes[n].rate
  since * per + bits ≤ d.now * per && d.now * per ≤ (since + 16000) * per + bits

/-- TRIAL_END (R314): a trial that ends any other way than after all its bits has failed. -/
def execTrialEnd (n : Fin 40) (pass : Bool) (s : State) : Host.Outcome State Fault Refusal :=
  onLive (fun d =>
    let l := d.lanes[n]
    match l.phase with
    | .wait _ | .timing => d
    | .trial since => d.when (d.laneSt n = 2) fun d =>
      if pass ∧ d.trialDue n since then
        let d1 := d.laneMod n fun x => { x with trained := some (l.rate, l.preset), phase := .timing }
        if l.rate < d.maxRate n then d1.laneEvent n 32#32 else d1
      else if l.preset < 7 then d.laneMod n fun x => { x with phase := .trial d.now, preset := l.preset + 1 }
      else match (d.sweepRates n).find? fun r => r < l.rate with
        | some r => d.laneMod n fun x => { x with phase := .trial d.now, rate := r, preset := 0 }
        | none => d.sweepFail n) s

/-- SWEEP_RETRY (R314). -/
def execSweepRetry (n : Fin 40) (s : State) : Host.Outcome State Fault Refusal :=
  onLive (fun d =>
    match d.lanes[n].phase with
    | .wait t => d.when (d.laneSt n = 2 && d.past t 10000) fun d => d.sweepStart n
    | _ => d) s

/-- DESC_REQ with the device's receive credits (R311, R312). -/
def Dev.descReq (d : Dev) (n : Fin 40) (tries : Nat) : Dev := d.vc3Ask n 0 tries

/-- TIMING (R315). -/
def execTiming (n : Fin 40) (roundTripNs holdNs : Rat) (latchNs : BitVec 8) (s : State) : Host.Outcome State Fault Refusal :=
  onLive (fun d =>
    d.when (d.laneSt n = 2 && d.lanes[n].phase = .timing) fun d =>
      let l := ((roundTripNs - holdNs) / 2 + (latchNs.toNat : Rat)).ceil.toNat
      let d1 := d.put (laneB n) R.LANE_LAT (wd (min 4095 l + min 4095 roundTripNs.floor.toNat * 65536))
      if 300 < l then d1.laneFail n 5 else (d1.laneTo n 3).descReq n 1) s

/-! Arrival (R315, R320). -/

/-- Step 6 of R317. Every arrival of a head discards its field maps (R127, R320; log 33, DEDUCED). -/
def Dev.laneArrive (d : Dev) (n : Fin 40) (ws : List Word) : Dev :=
  let b := laneB n
  let w (i : Nat) : Word := ws.getD i 0
  let last := (List.range 4).map fun i => d.get b R.LANE_SERIAL_LAST i
  let ser := (ws.drop 8).take 4
  let replaced : Bool := last.any (fun x => x ≠ 0) && last ≠ ser
  let d1 := (List.range 16).foldl (fun (e : Dev) i => e.put b R.LANE_DESC (w i) i) (d.laneTo n 4)
  let d2 := (d1.putB b R.LANE_STAT 6 true).putF b R.LANE_STAT 23 20 (fld (w 1) 3 0)
  let d3 := (d2.laneMod n fun l => { l with cred1 := fld (w 5) 15 0, cred3 := fld (w 5) 31 16, since := some d.now }).creditShow n
  let d4 := ((d3.bump b R.LANE_ARRIVALS).laneEvent n (if replaced then 5#32 else 1#32)).laneLog n 0 ser
  if h : n.val < 32 then
    let hd : Fin 32 := ⟨n.val, h⟩
    let d6 := ((d4.fmapDrop hd).put (headB hd) R.TRV_FMAP_DESC (w 6)).fmapShow hd
    (d6.linkLat hd).mpvEval hd
  else d4.modArrive n

/-- A frame whose LEN is above 512 is dropped and counted (R304). -/
def Dev.longFrame (d : Dev) (n : Fin 40) : Dev :=
  d.when (d.laneUp n || d.laneSt n = 3) fun d => d.bump (laneB n) R.LANE_DROP

/-- DESC (R304, R315): outside DISCOVER it answers nothing and is ignored (log 33, DEDUCED). -/
def execDesc (n : Fin 40) (bytes : List (BitVec 8)) (s : State) : Host.Outcome State Fault Refusal :=
  onLive (fun d =>
    let ws := bytesWords bytes
    let w (i : Nat) : Word := ws.getD i 0
    if 512 < bytes.length then d.longFrame n
    else d.when (d.laneSt n = 3) fun d => d.received n 2 bytes.length fun d =>
        if bytes.length ≠ 64 ∨ w 0 ≠ 0x5A4E0001#32 ∨ w 15 ≠ crc32 (bytes.take 60) then
          (d.laneFail n 2).raise (laneB n) (some 0) 3
        else if fld (w 1) 7 0 ≠ (if n.val < 32 then 1 else 2) then (d.laneFail n 3).raise (laneB n) (some 0) 4
        else d.laneArrive n ws) s

/-! Management (R311, R312). -/

/-- A management request has failed: discovery with reason 2, or a running FMAP_FETCH. -/
def Dev.vc3Fail (d : Dev) (n : Fin 40) (type : Nat) : Dev :=
  if type = 0 then if d.laneSt n = 3 then (d.laneFail n 2).raise (laneB n) (some 0) 3 else d
  else
    let d1 := d.laneMod n fun l => { l with vc3 := none }
    if h : n.val < 32 then
      let hd : Fin 32 := ⟨n.val, h⟩
      if d1.opRunning (headB hd) 2 then (d1.opFail (headB hd) 0x81).fmapNone hd else d1
    else d1

/-- VC3_TIMEOUT (R311): DESC_REQ goes out three times, any other request twice. -/
def execVc3Timeout (n : Fin 40) (s : State) : Host.Outcome State Fault Refusal :=
  onLive (fun d =>
    match d.lanes[n].vc3 with
    | none => d
    | some r =>
      d.when (!r.held && d.past r.since 100) fun d =>
        if r.type = 0 then if r.tries < 3 then d.descReq n (r.tries + 1) else d.vc3Fail n 0
        else if r.tries < 2 then d.storeRead n (r.tries + 1)
        else (d.vc3Fail n r.type).raise (laneB n) (some 0) 5) s

/-- DATA (R304, R311): the bytes of a READ join those fetched, and the next READ goes out. -/
def execData (n : Fin 40) (bytes : List (BitVec 8)) (s : State) : Host.Outcome State Fault Refusal :=
  onLive (fun d =>
    if 512 < bytes.length then d.longFrame n
    else match d.lanes[n].vc3 with
    | none => d
    | some r =>
      d.when (d.laneUp n && r.type = 2 && !r.held) fun d => d.received n 2 bytes.length fun d =>
        let ask := min 512 ((d.desc n 7).toNat - d.lanes[n].store.length)
        let d1 := d.laneMod n fun l => { l with vc3 := none, store := l.store ++ bytes.take ask }
        if h : n.val < 32 then
          if d1.opRunning (headB ⟨n.val, h⟩) 2 ∧ d1.lanes[n].store.length < fmapSize then d1.storeRead n 1 else d1
        else d1) s

/-- NACK (R311): the request that it names is refused. -/
def execNack (n : Fin 40) (type : BitVec 8) (s : State) : Host.Outcome State Fault Refusal :=
  onLive (fun d =>
    match d.lanes[n].vc3 with
    | none => d
    | some r => d.when (r.type = type.toNat && !r.held) fun d => d.received n 2 1 fun d => d.vc3Fail n r.type) s

/-- LEAVE (R317 step 9, R319): the reason is the partner's own. -/
def execLeave (n : Fin 40) (_reason : BitVec 8) (s : State) : Host.Outcome State Fault Refusal :=
  onLiveMem (fun m d =>
    (m, d.when (d.laneUp n) fun d => d.received n 2 1 fun d => if d.outranked n s.pending 9 then d else (d.laneGone m n).laneTo n 1)) s

/-- CREDIT (R302, R312): the device sends nothing on VC2, so credits of VC2 change nothing; a held request may go out. -/
def execCredit (n : Fin 40) (vc1 _vc2 vc3 : BitVec 16) (s : State) : Host.Outcome State Fault Refusal :=
  onLive (fun d =>
    d.when (d.laneUp n || d.laneSt n = 3) fun d =>
      (d.laneMod n fun l => { l with cred1 := l.cred1 + vc1.toNat, cred3 := l.cred3 + vc3.toNat }).creditShow n |>.vc3Go n) s

/-- DROPPED_LINK_FRAME (R302, R304, R313, R318): frames come in DISCOVER and UP, control blocks in TRAIN too. -/
def execDroppedLinkFrame (n : Fin 40) (why : DropWhy) (_vc : BitVec 2) (s : State) : Host.Outcome State Fault Refusal :=
  onLiveMem (fun m d =>
    let b := laneB n
    if ¬ (d.laneUp n ∨ d.laneSt n = 3 ∨ (d.laneSt n = 2 ∧ why = .reservedBlock)) then (m, d)
    else match why with
      | .crc =>
        let at_ := d.now :: d.lanes[n].crcAt.filter fun t => !d.past t 1000
        let lim := fld (d.lget n R.LANE_RT_CTL) 7 0
        let d1 := (d.bump b R.LANE_CRCERR).laneMod n fun l => { l with crcAt := at_ }
        if lim = 0 ∨ at_.length < lim ∨ ¬ d.laneUp n then (m, d1)
        else
          let d2 := (d1.laneMod n fun l => { l with crcAt := [] }).raise b (some 0) 2
          (m, if bit (d.lget n R.LANE_CTL) 9 ∧ ¬ d.outranked n s.pending 8 then d2.laneRetrain m n else d2)
      | .reservedType | .lenAbove512 | .lenMismatch | .reservedBlock => (m, d.bump b R.LANE_DROP)
      | .credits => (m, d.creditViol n)) s

/-! Electrical idle (R322). -/

/-- No skein runs or is staged, IDLE_REQ is 1, every served cell is OFF or FENCED, and a head's MPV does not run. -/
def Dev.mayIdle (d : Dev) (n : Fin 40) : Bool :=
  bit (d.lget n R.LANE_CTL) 8 && d.running.isNone && d.staged.isNone &&
    (d.laneCells n).all (fun i => d.cells[i].st = 0 || d.cells[i].st = 5) &&
    (if h : n.val < 32 then !(d.mpvSt ⟨n.val, h⟩ = 1 || d.mpvSt ⟨n.val, h⟩ = 2) else true)

/-- A served cell or the head's camera is enabled, which takes effect once the lane is UP. -/
def Dev.wantsUp (d : Dev) (n : Fin 40) : Bool :=
  (d.laneCells n).any (fun i => bit (d.cget i R.SRV_CCTL) 0 && d.cells[i].st ≠ 5) ||
    (if h : n.val < 32 then d.getB (mpvB ⟨n.val, h⟩) R.MPV_CTL 0 && d.cameraHere ⟨n.val, h⟩ && d.up (mpvB ⟨n.val, h⟩) else false)

/-- IDLE_ENTRY (R317 step 10, R322). -/
def execIdleEntry (n : Fin 40) (s : State) : Host.Outcome State Fault Refusal :=
  onLive (fun d => d.when (d.laneUp n && d.mayIdle n && !d.outranked n s.pending 10) fun d => d.laneTo n 5) s

/-- IDLE_EXIT (R322): an exit burst begins. -/
def execIdleExit (n : Fin 40) (byPartner : Bool) (s : State) : Host.Outcome State Fault Refusal :=
  onLive (fun d =>
    d.when (d.laneSt n = 5 && d.lanes[n].burst.isNone && (byPartner || !d.mayIdle n || d.wantsUp n)) fun d =>
      d.laneMod n fun l => { l with burst := some d.now }) s

/-- EXIT_BURST (R317 step 11): the burst locks within 2 µs. -/
def execExitBurst (n : Fin 40) (s : State) : Host.Outcome State Fault Refusal :=
  onLive (fun d =>
    match d.lanes[n].burst with
    | none => d
    | some t =>
      d.when (d.laneSt n = 5 && d.now ≤ t + 1600) fun d =>
        let d1 := (d.laneTo n 4).vc3Go n
        if h : n.val < 32 then d1.mpvEval ⟨n.val, h⟩ else d1) s

/-- EXIT_TIMEOUT (R317 step 12): a departure. -/
def execExitTimeout (n : Fin 40) (s : State) : Host.Outcome State Fault Refusal :=
  onLiveMem (fun m d =>
    match d.lanes[n].burst with
    | none => (m, d)
    | some t => if d.laneSt n = 5 ∧ t + 1600 < d.now ∧ ¬ d.outranked n s.pending 12 then (m, (d.laneGone m n).laneTrain n) else (m, d)) s

/-! Pattern tests (R323, R324). -/

/-- PAT_TEST (R324): the host's start. -/
def execPatTest (n : Fin 40) (tag : BitVec 8) (s : State) : Host.Outcome State Fault Refusal :=
  onLive (fun d => d.hostStart (laneB n) 1 tag.toNat 0) s

/-- A pattern test can begin in DETECT, TRAIN, UP, IDLE or FAILED (R317 step 14). -/
def Dev.patReady (d : Dev) (n : Fin 40) : Bool := [1, 2, 4, 5, 6].contains (d.laneSt n)

/-- A pattern test begins: a departure from UP or IDLE. -/
def Dev.patBegin (d : Dev) (m : Mem) (n : Fin 40) : Dev :=
  let far := bit (d.lget n R.LANE_PAT_CTL) 2
  ((d.laneLeave m n).laneTo n 7).laneMod n fun l => { l with
    farAsk := if far then some d.now else none, patAt := d.now, patInj := [] }

/-- The taps of a pattern (R323), LANE_PAT_CTL.POLY. -/
def patTaps : Nat → Nat × Nat
  | 0 => (7, 6)
  | 1 => (15, 14)
  | 2 => (23, 18)
  | _ => (31, 28)

/-- The next bit of a generator whose last bits are `h`, the newest in bit 0 (R323). -/
def patNextBit (poly : Nat) (h : BitVec 31) : Bool := xor (h.getLsbD ((patTaps poly).1 - 1)) (h.getLsbD ((patTaps poly).2 - 1))

/-- The generator's or the checker's last bits after one more. -/
def patShift (h : BitVec 31) (x : Bool) : BitVec 31 := (h <<< 1) ||| BitVec.ofNat 31 x.toNat

/-- The checker (R323). The recurrences are linear, so all is kept as the difference to the pattern that was sent: the inverted ones of
the last bits received, those of the checker's own generator while in sync, the error-free bits in a row while it seeks, where the
errors of the last 1,024 bits lie, errors, losses of sync and the first error. -/
structure Checker where
  last   : BitVec 31
  own    : Option (BitVec 31)
  clean  : Nat
  recent : List Nat
  errs   : Nat
  losses : Nat
  first  : Option Nat
deriving DecidableEq, Repr

/-- The checker at the start of a test: seeking, no bit inverted yet. -/
def Checker.init : Checker := ⟨0, none, 0, [], 0, 0, none⟩

/-- A bit arrives at a position, inverted or not (R323): seeking, the checker holds it against its own last bits received, and 64
error-free bits give sync; in sync against its generator, and 64 errors within 1,024 bits lose it. -/
def Checker.bit (poly at_ : Nat) (c : Checker) (inv : Bool) : Checker :=
  let last := patShift c.last inv
  match c.own with
  | none =>
    let clean := if inv = patNextBit poly c.last then c.clean + 1 else 0
    if 64 ≤ clean then { c with last := last, own := some last, clean := 0, recent := [] } else { c with last := last, clean := clean }
  | some g =>
    let c1 := { c with last := last, own := some (patShift g (patNextBit poly g)) }
    if inv = patNextBit poly g then c1
    else
      let recent := at_ :: c.recent.filter fun p => at_ < p + 1024
      let c2 := { c1 with errs := c.errs + 1, first := some (c.first.getD at_), recent := recent }
      if 64 ≤ recent.length then { c2 with own := none, clean := 0, recent := [], losses := c.losses + 1 } else c2

/-- With no inverted bit in its registers the checker passes `k` bits without an error at once. -/
def Checker.pass (c : Checker) (k : Nat) : Checker :=
  match c.own with
  | none => if 64 ≤ c.clean + k then { c with own := some 0, clean := 0, recent := [] } else { c with clean := c.clean + k }
  | some _ => c

/-- The checker runs to position `len` (at most `fuel` bits or gaps); `flips` are the positions inverted, in rising order. -/
def Checker.run (poly len : Nat) : Nat → Nat → List Nat → Checker → Checker
  | 0, _, _, c => c
  | fuel + 1, at_, flips, c =>
    if len ≤ at_ then c
    else if c.last = 0 ∧ c.own.getD 0 = 0 then
      match flips with
      | [] => c.pass (len - at_)
      | p :: t =>
        if at_ < p then Checker.run poly len fuel (min p len) flips (c.pass (min p len - at_))
        else if p = at_ then Checker.run poly len fuel (at_ + 1) t (Checker.bit poly at_ c true)
        else Checker.run poly len fuel at_ t c
    else
      match flips with
      | p :: t => if p ≤ at_ then Checker.run poly len fuel (at_ + 1) t (Checker.bit poly at_ c (p = at_))
          else Checker.run poly len fuel (at_ + 1) flips (Checker.bit poly at_ c false)
      | [] => Checker.run poly len fuel (at_ + 1) [] (Checker.bit poly at_ c false)

/-- Insert a position into a rising list: a bit inverted twice is as it was. -/
def flipIn (p : Nat) : List Nat → List Nat
  | [] => [p]
  | q :: t => if p < q then p :: q :: t else if p = q then t else q :: flipIn p t

/-- The positions that reach the device's checker inverted: those the line inverts, and with FAR 0 those injected (R324, R325). -/
def Dev.patFlips (d : Dev) (n : Fin 40) (line : List Nat) : List Nat :=
  let base := line.foldl (fun a p => flipIn p a) []
  if d.lanes[n].far then base
  else (d.lanes[n].patInj.flatMap fun i => (List.range i.2).map fun k => i.1 + k).foldl (fun a p => flipIn p a) base

/-- What the device's checker has counted at the end of a test (R323, R324). -/
def Dev.patCheck (d : Dev) (n : Fin 40) (line : List Nat) : Checker :=
  let fl := d.patFlips n line
  Checker.run (fld (d.lget n R.LANE_PAT_CTL) 1 0) (d.patBits n) (2 * d.patBits n + 2 * fl.length + 2) 0 fl Checker.init

/-- PAT_TEST_DONE (R323, R324): LANE_PAT_LEN × 2^20 bits at the rate of the test have passed. Errors do not fail the test; with no error
OP_PART[4] stays 0. -/
def execPatTestDone (n : Fin 40) (r : PatResult) (s : State) : Host.Outcome State Fault Refusal :=
  onLive (fun d =>
    let b := laneB n
    d.when (d.opRunning b 1 && d.laneSt n = 7 && d.lanes[n].farAsk.isNone && d.patBits n ≤ d.patSent n) fun d =>
      let c := d.patCheck n r.flips
      let d1 := ((((d.opPart b 0 (d.getN b R.LANE_PAT_LEN)).opPart b 1 c.errs).opPart b 2 c.losses).opPart b 4 (c.first.getD 0)).opPart
        b 5 (if d.lanes[n].far then r.farErrs.toNat else 0)
      (d1.opDone b).laneTo n 1) s

/-- PAT_TEST_NO_ANSWER (R324). -/
def execPatTestNoAnswer (n : Fin 40) (s : State) : Host.Outcome State Fault Refusal :=
  onLive (fun d =>
    match d.lanes[n].farAsk with
    | none => d
    | some t => d.when (d.opRunning (laneB n) 1 && d.laneSt n = 7 && d.past t 100) fun d => (d.opFail (laneB n) 0x80).laneTo n 1) s

/-- An aborted pattern test ends and leaves the lane in DETECT (R317 step 15). -/
def Dev.patKill (d : Dev) (n : Fin 40) : Dev := if d.laneSt n = 7 then d.laneTo n 1 else d

end Sys2Proof.Machine
end

