-- ==== Sys2Proof/Machine/Thermal.lean ====
section
/-! DEFINITION. Temperature, throttling and shutdown (R444 to R459): sensors, the device level, mode A, the record that
AON keeps (log 41, DEDUCED and DESIGN CHOICE, marked there). -/

namespace Sys2Proof.Machine

/-- THERM. -/
def therm : Blk := blk .therm 0

/-- AON. -/
def aon : Blk := blk .aon 0

/-- The region of a sensor (R444). -/
def snsRegion (s : Nat) : Nat :=
  if s < 2 then 0 else if s < 8 then 1 else if s < 10 then 2 else if s < 14 then 3 else if s < 16 then 4 else 8 + (s - 16) / 6

/-- A sensor's state in THERM_SNS. -/
def Dev.snsSt (d : Dev) (s : Nat) : Nat := d.getF therm R.THERM_SNS 14 12 s

/-- A threshold of a sensor [0.25 °C]: levels 1 warning, 2 throttle, 3 shutdown (R445). -/
def Dev.snsThr (d : Dev) (s l : Nat) : Int := 4 * (d.getF therm R.THERM_SNS_THR (8 * l - 1) (8 * l - 8) s : Int)

/-- HYST of a sensor [0.25 °C]. -/
def Dev.snsHyst (d : Dev) (s : Nat) : Int := 4 * (d.getF therm R.THERM_SNS_THR 31 24 s : Int)

/-- Change a sensor. -/
def Dev.snsMod (d : Dev) (s : Fin 64) (f : Sns → Sns) : Dev := { d with thm := { d.thm with sns := vmod d.thm.sns s f } }

/-- A bit of THERM_EVT (R458). -/
def Dev.thermEvent (d : Dev) (k : Nat) : Dev := d.event therm R.THERM_EVT R.THERM_EVT_EN (wd (2 ^ k)) 3

/-- Why a sample is not valid (R446): 0 valid, 1 range, 2 stuck, 3 self-check. -/
def snsCause (x : SnsSample) : Nat :=
  if x.reading < -220 ∨ 600 < x.reading then 1
  else if x.chop.any fun c => c.natAbs < 6 ∨ 10 < c.natAbs then 2
  else if x.refErr.any fun e => 4 < e.natAbs then 3 else 0

/-! Sensor states (R445, R446). -/

/-- The counters of R445 after a valid reading. -/
def Dev.snsCount (d : Dev) (s : Fin 64) (r : Int) : Dev :=
  d.snsMod s fun x =>
    let up (i : Nat) (n : Nat) : Nat := if d.snsThr s.val (i + 1) ≤ r then n + 1 else 0
    let dn (i : Nat) (n : Nat) : Nat := if r ≤ d.snsThr s.val (i + 1) - d.snsHyst s.val then n + 1 else 0
    { x with above := x.above.mapIdx up, below := x.below.mapIdx dn }

/-- The highest level above `st` that 8 samples in a row qualify. -/
def Sns.rise (x : Sns) (st : Nat) : Option Nat := ([3, 2, 1].find? fun l => st < l ∧ 8 ≤ x.above.toList.getD (l - 1) 0)

/-- Falling: level by level while 8 samples in a row lie low enough; level 3 stays. -/
def Sns.fall (x : Sns) : Nat → Nat
  | 0 => 0
  | 3 => 3
  | n + 1 => if 8 ≤ x.below.toList.getD n 0 then x.fall n else n + 1

/-- A sensor takes a state; a rise sets its event and raises WARN or THROTTLE. -/
def Dev.snsTo (d : Dev) (s : Fin 64) (st : Nat) (rise : Bool) (r : Int) : Dev :=
  let d1 := d.putF therm R.THERM_SNS 14 12 st s.val
  if rise ∧ (st = 1 ∨ st = 2) then (d1.thermEvent (st - 1)).raise therm (some s.val) st (uns 12 r) else d1

/-- A valid sample. -/
def Dev.snsGood (d : Dev) (s : Fin 64) (r : Int) : Dev :=
  let st := d.snsSt s.val
  let d0 := if st ≠ 4 ∧ d.thm.sns[s].bad = 1 then d.raiseTrans therm (some s.val) 0 (uns 12 r) else d
  let d1 := ((d0.putF therm R.THERM_SNS 11 0 (uns 12 r) s.val).snsMod s fun x => { x with bad := 0 }).snsCount s r
  let x := d1.thm.sns[s]
  if st = 4 then
    if x.good + 1 < 64 then d1.snsMod s fun y => { y with good := x.good + 1 }
    else
      let l := (x.rise 0).getD 0
      ((d1.snsMod s fun y => { y with good := 0 }).putF therm R.THERM_SNS 17 16 0 s.val).snsTo s l true r
  else match x.rise st with
    | some l => d1.snsTo s l true r
    | none => if x.fall st = st then d1 else d1.snsTo s (x.fall st) false r

/-- A sample that is not valid: the second in a row makes the sensor BROKEN. -/
def Dev.snsBad (d : Dev) (s : Fin 64) (cause : Nat) (r : Int) : Dev :=
  let n := d.thm.sns[s].bad + 1
  let d1 := d.snsMod s fun x => { x with bad := min n 2, good := 0 }
  if d.snsSt s.val = 4 ∨ n < 2 then d1
  else (((d1.putF therm R.THERM_SNS 17 16 cause s.val).snsTo s 4 false r).thermEvent 5).raise therm (some s.val) 0 (uns 12 r)

/-! Level and throttling (R447, R448). -/

/-- The device level: a BROKEN sensor counts as 2. -/
def Dev.levelNow (d : Dev) : Nat :=
  (List.range 64).foldl (fun n s => max n (if d.snsSt s = 4 then 2 else d.snsSt s)) 0

/-- J and what follows it: THERM_STAT.J, and the lattice's THROTTLED and EIGHTHS (R260, R449). -/
def Dev.setJ (d : Dev) (j : Nat) (modeA : Bool) : Dev :=
  let d1 : Dev := { d with thm := { d.thm with modeA := modeA, jAt := d.now } }
  let lat := blk .lattice 0
  ((d1.putF therm R.THERM_STAT 3 0 j).putF lat R.LAT_STAT 11 8 j).putB lat R.LAT_STAT 2 (decide (j < 8))

/-- The grace ends or is cancelled. -/
def Dev.graceOff (d : Dev) : Dev := { d with thm := { d.thm with grace := none } }.putB therm R.THERM_STAT 7 false

/-- The level rises to 2 (R448 steps 1 and 2). -/
def Dev.throttleRise (d : Dev) : Dev :=
  if ¬ d.getB therm R.THERM_CTL 0 then d.setJ 7 true
  else
    let d1 := (d.putB therm R.THERM_STAT 8 true).thermEvent 3
    if d.getF therm R.THERM_GRACE 15 0 = 0 then (d1.setJ 7 true).thermEvent 4
    else { d1 with thm := { d1.thm with grace := some d1.now } }.putB therm R.THERM_STAT 7 true

/-- The device level is evaluated (R447, R448 steps 1, 2 and 5). -/
def Dev.levelEval (d : Dev) : Dev :=
  let was := d.getF therm R.THERM_STAT 6 4
  let l := d.levelNow
  let broken := ((List.range 64).filter fun s => d.snsSt s = 4).length
  let d1 := (d.putF therm R.THERM_STAT 6 4 l).putF therm R.THERM_STAT 22 16 broken
  if was < 2 ∧ l = 2 then d1.throttleRise
  else if 2 ≤ was ∧ l < 2 then
    let d2 : Dev := { d1 with thm := { d1.thm with fellAt := d1.now } }
    (d2.graceOff.putB therm R.THERM_STAT 8 false).thermEvent 2
  else d1

/-- A sample of a sensor, valid or not. -/
def Dev.snsTake (d : Dev) (s : Fin 64) (x : SnsSample) : Dev :=
  let c := snsCause x
  if c = 0 then d.snsGood s x.reading else d.snsBad s c x.reading

/-- The device level once the samples that wait, all of this cycle, have taken effect (R447, R448). -/
def Dev.levelSoon (d : Dev) (p : List Instr) : Nat :=
  (p.foldl (fun (e : Dev) c => match c with
    | .sensorSample s x => if e.unitStatus therm (some s.val) = 0 then e.snsTake s x else e
    | _ => e) d).levelNow

/-- Another sample of this cycle waits. -/
def sampleWaits (p : List Instr) : Bool := p.any fun c => match c with
  | .sensorSample _ _ => true
  | _ => false

/-- GRACE_END (R448 step 3); a fall of the level in the same cycle comes first (step 5). -/
def execGraceEnd (s : State) : Host.Outcome State Fault Refusal :=
  onLive (fun d =>
    match d.thm.grace with
    | none => d
    | some t =>
      d.when (d.up therm && d.getF therm R.THERM_STAT 6 4 = 2 && 2 ≤ d.levelSoon s.pending && d.past t (1000 * d.getF therm R.THERM_GRACE 15 0)) fun d =>
        (d.graceOff.setJ 7 true).thermEvent 4) s

/-- THROTTLE_STEP (R448 steps 4 and 6); a fall of the level in the same cycle comes first (step 5). -/
def execThrottleStep (s : State) : Host.Outcome State Fault Refusal :=
  onLive (fun d =>
    let j := d.getF therm R.THERM_STAT 3 0
    let l := d.getF therm R.THERM_STAT 6 4
    let step := 1000 * d.getF therm R.THERM_STEP 15 0
    if ¬ d.up therm ∨ ¬ d.thm.modeA then d
    else if l = 2 then
      if d.past d.thm.jAt step ∧ 2 ≤ d.levelSoon s.pending ∧ d.getF therm R.THERM_CTL 11 8 < j then d.setJ (j - 1) true else d
    else if l < 2 ∧ j < 8 ∧ d.past (max d.thm.jAt d.thm.fellAt) step then d.setJ (j + 1) (decide (j + 1 < 8))
    else d) s

/-- A write of THERM_CTL (R448): from B to A during a grace, mode A applies at once. -/
def Dev.modeWrite (d : Dev) (v : Word) : Dev :=
  let old := d.get therm R.THERM_CTL
  let d1 := d.put therm R.THERM_CTL (R.THERM_CTL.write old v)
  if bit old 0 ∧ ¬ bit v 0 ∧ d.thm.grace.isSome then d1.graceOff.setJ 7 true else d1

/-- THERM_MODE (R448): a write of THERM_CTL. -/
def execThermMode (v : Word) (s : State) : Host.Outcome State Fault Refusal :=
  onLive (fun d => d.hostWrite therm 0x100 fun e => e.modeWrite v) s

/-! Shutdown (R450, R451). -/

/-- The record of a shutdown: sensor, cause, region, reading, PTP seconds and nanoseconds. -/
def Dev.sdRecord (d : Dev) (s cause : Nat) (r : Int) : List Word :=
  let ns := d.tim.clock / 4294967296
  [wd (s + cause * 64 + snsRegion s * 256 + uns 12 r * 65536), wd (ns / 1000000000), wd (ns / 1000000000 / 2 ^ 32),
    wd (ns % 1000000000)]

/-- AON takes the record: the first not yet journaled, and the latest. -/
def Dev.aonLatch (d : Dev) (ws : List Word) : Dev :=
  let keep (e : Dev) (r : Reg) : Dev := ws.zipIdx.foldl (fun (e : Dev) w => e.put aon r w.1 w.2) e
  let d1 := if d.getB aon R.AON_STAT 0 then d else keep (d.putB aon R.AON_STAT 0 true) R.AON_SD
  (keep d1 R.AON_SDL).bump aon R.AON_SD_CNT

/-- The heads of a lane are brought to rest (R450 step 2): the drive words of the next 16 ticks, each with EN 0 and CMD 0. The clock
stops with the shutdown, so they go out within it (log 41, DESIGN CHOICE). -/
def Dev.driveRest (d : Dev) (n : Fin 40) : Dev :=
  if ¬ d.laneUp n then d
  else (List.range 16).foldl (fun (e : Dev) j => let k := d.driveTick n + 1 + j; e.driveSend n k fun _ => driveWord 0 false k) d

/-- Every output goes to its inactive level (R450 steps 1 to 3), and calibration runs end (R472). -/
def Dev.outputsOff (d : Dev) : Dev :=
  let d1 := (List.finRange 32).foldl (fun (e : Dev) h => e.trvMod h fun t =>
    let t1 := (t.gateTo d.slot false 0 0).codeTo (d.slot : Nat) 0
    { t1 with
      edges := [], ramps := [], fades := [], dwellAt := none, defer := none, on_ := false }) d
  let d2 := (List.finRange 40).foldl (fun (e : Dev) n => (e.driveRest n).laneTo n 0) d1
  { d2 with
    cells := d2.cells.map fun c => { c with cmd := 0, en := false, u := 0 }
    msps := d2.msps.map fun m => { m with pulseAt := none }
    bch := d2.bch.map fun x => { x with run := none, trim := none }
    lights := d2.lights.map fun l => { l with want := false, frame := none, diag := false }
    tim := { d2.tim with marks := d2.tim.marks.map fun m => { m with level := false } } }

/-- The device shuts down (R450). -/
def Dev.shutdown (d : Dev) (s cause : Nat) (r : Int) : Dev :=
  let d1 : Dev := { ((d.outputsOff.raise therm (some s) 3 (uns 12 r)).aliveStop).aonLatch (d.sdRecord s cause r) with sdwnN := false }
  d1.putF (blk .boot 0) R.BOOT_STAT 3 0 9

/-- Every sensor of a region is BROKEN. -/
def Dev.regionBroken (d : Dev) (r : Nat) : Bool := (List.range 64).all fun s => snsRegion s ≠ r || d.snsSt s = 4

/-- THERM_MAX: the highest of the last valid readings, and its sensor (log 41, DEDUCED). -/
def Dev.snsMax (d : Dev) : Dev :=
  let read (s : Nat) : Int := sgn 12 (d.getF therm R.THERM_SNS 11 0 s)
  let best := (List.range 64).foldl (fun b s => if read b < read s then s else b) 0
  d.put therm R.THERM_MAX (wd (d.getF therm R.THERM_SNS 11 0 best + best * 65536))

/-- A waiting command starts a calibration run of a block by a host write. -/
def runWaits (k : Fin 8) (p : List Instr) : Bool := p.any fun c => match c with
  | .calRun j _ => j = k
  | .registerWrite a v => a.toNat = badr (bchB k) 0x20 && fld v 31 28 = 1 && fld v 15 8 = 1
  | _ => false

/-- The temperature rule of calibration (R469): sensor 16 + 6k is that of group k. A host start of the same cycle is the one that
counts (R470). -/
def Dev.tempRule (d : Dev) (s : Nat) (r : Int) (p : List Instr) : Dev :=
  if s < 16 ∨ (s - 16) % 6 ≠ 0 ∨ runWaits (Fin.ofNat 8 ((s - 16) / 6)) p then d
  else
    let b := blk .bchg ((s - 16) / 6)
    let far := d.getF b R.BCHG_DTEMP 7 0 < (r - sgn 12 (d.getF b R.BCHG_TLAST 11 0)).natAbs
    if d.up b ∧ d.getB b R.BCHG_CTL 0 ∧ far then d.devStart b 1 0xFF 0 else d

/-- Which sensor, if any, brings a shutdown with what cause (R447): one at level 3, or one of a region all BROKEN; the sensor just
sampled comes first. -/
def Dev.stopBy (d : Dev) (s : Nat) : Option (Nat × Nat) :=
  match (s :: List.range 64).find? fun x => d.snsSt x = 3 with
  | some x => some (x, 1)
  | none => ((s :: [0, 2, 8, 10, 14, 16, 22, 28, 34, 40, 46, 52, 58]).find? fun x => d.regionBroken (snsRegion x)).map fun x => (x, 2)

/-- The device level is evaluated once every sample of the cycle has taken effect (R447). -/
def Dev.levelJudge (d : Dev) (s : Nat) (p : List Instr) : Dev :=
  if sampleWaits p then d
  else
    let d1 := d.levelEval
    match d1.stopBy s with
    | some x => d1.shutdown x.1 x.2 (sgn 12 (d1.getF therm R.THERM_SNS 11 0 x.1))
    | none => d1

/-- SENSOR_SAMPLE (R444 to R447, R453, R469, R480). -/
def execSensorSample (sensor : Fin 64) (smp : SnsSample) (s : State) : Host.Outcome State Fault Refusal :=
  onLive (fun d =>
    d.when (d.unitStatus therm (some sensor.val) = 0) fun d =>
      let r := smp.reading
      let good : Bool := snsCause smp = 0
      let d1 := (d.snsTake sensor smp).snsMax.jHold
      if good ∧ ¬ d1.ready ∧ d1.snsThr sensor.val 3 - d1.snsHyst sensor.val ≤ r then d1.levelEval.shutdown sensor.val 1 r
      else (if good then d1.tempRule sensor.val r s.pending else d1).levelJudge sensor.val s.pending) s

/-! The always-on record (R451, R452, R459). -/

/-- SHUTDOWN_RECORD_APPEND (R452): the first record, and the latest where it differs. -/
def execShutdownRecordAppend (s : State) : Host.Outcome State Fault Refusal :=
  onLive (fun d =>
    let rec_ (r : Reg) : List Word := (List.range 4).map fun i => d.get aon r i
    let tx (ws : List Word) : JTx := ⟨[(7, 0, wordsBytes ws)], .shutdown⟩
    d.when (d.up therm && d.getB aon R.AON_STAT 0 && decide (5 ≤ d.stage) && d.jUsable && d.jWindow &&
        !d.jrn.queue.any fun t => t.from_ = .shutdown) fun d =>
      let d1 := (d.jQueue (tx (rec_ R.AON_SD))).1
      if rec_ R.AON_SD = rec_ R.AON_SDL then d1 else (d1.jQueue (tx (rec_ R.AON_SDL))).1) s

/-- CLEAR (R452): a write of AON_CMD. -/
def execClear (s : State) : Host.Outcome State Fault Refusal :=
  onLive (fun d => d.hostWrite aon 0x104 fun e => e.putB aon R.AON_STAT 0 false) s

/-- Forget what the registers of a block hold: they read their reset values (R7). -/
def Dev.regsReset (d : Dev) (b : Blk) (keep : Nat → Bool) : Dev :=
  let here (a : Nat) : Bool := badr b 0 ≤ a && a < badr b 0x1000 && !keep (a - badr b 0)
  { d with
    regs := d.regs.filter fun x => !here x.1
    live := d.live.filter fun x => !here x.1
    prior := d.prior.filter fun x => !here x.1
    snap := d.snap.filter fun x => !here x.1 }

/-- VSTBY_APPLY (R451, R459). -/
def execVstbyApply (s : State) : Host.Outcome State Fault Refusal :=
  onDev (fun d => { (d.regsReset aon fun _ => false) with boot := { d.boot with vstby := true } }) s

end Sys2Proof.Machine
end

