-- ==== Sys2Proof/Machine/Layer.lean ====
section
/-! DEFINITION. Layers (R88 to R92, R128, R153, R188, R261, R290): start, abort and end, and the layer report (log 43, DEDUCED and DESIGN CHOICE, marked there). -/

namespace Sys2Proof.Machine

/-! The report (R91, R92). -/

/-- Entries the report area holds. -/
def Skein.repRoom (k : Skein) : Nat := (k.repSize - 0x480) / 16

/-- The bytes of a report entry. -/
def RepEnt.bytes (e : RepEnt) : List Byte :=
  wordsBytes [e.id, wd (e.reason + e.head * 256 + e.pool.toNat * 65536), wd e.first, wd e.count]

/-- The bytes of a layer report. -/
def repBytes (k : Skein) (r : Rep) (status endNs : Nat) : List Byte :=
  let es := r.entries.take k.repRoom
  let drop := r.entries.length - es.length
  let endS := endNs / 1000000000
  let sum (n : Fin 32) : List Word :=
    let x := r.sums[n]
    [wd x.done, wd x.rejected, wd x.plyTaken, wd x.holds, wd x.slubs, wd x.missed, wd x.clamped, 0]
  wordsBytes ([0x5A520001#32, k.layer, wd (status + (decide (0 < drop)).toNat * 256), r.present, r.lost, wd es.length, wd drop, 0,
      wd r.startS, wd (r.startS / 2 ^ 32), wd r.startNs, 0, wd endS, wd (endS / 2 ^ 32), wd (endNs % 1000000000), 0] ++
    List.replicate 16 0 ++ (List.finRange 32).flatMap sum) ++ es.flatMap RepEnt.bytes

/-- The PTP time now [ns]. -/
def Dev.ptpNs (d : Dev) : Nat := d.tim.clock / 4294967296

/-! Layer start (R88). -/

/-- A head counts as present at layer start (R88, R128, R490): one that departs in this cycle does not, nor one that arrives in it
(R321). -/
def Dev.headStarts (d : Dev) (h : Fin 32) (p : List Instr) : Bool :=
  let b := headB h
  let desc := d.get b R.TRV_FMAP_DESC
  d.headHere h && !d.departs (headLane h) p && d.lanes[headLane h].since ≠ some d.now && d.up b && !d.getB fltc R.FLTC_RFENCE b.region.val && !d.laneBarred (headLane h) && d.getB b R.TRV_STAT 0 &&
    !(d.getB b R.TRV_CTL 1 && desc ≠ 0 && desc ≠ d.get b R.TRV_FMAP_CRC)

/-- The heads present. -/
def Dev.presentSet (d : Dev) (p : List Instr) : Word :=
  (List.finRange 32).foldl (fun (w : Word) h => if d.headStarts h p then w ||| wd (2 ^ h.val) else w) 0

/-- A present head whose map differs from its descriptor raises FMAP_MISMATCH (R128). -/
def Dev.fmapCheck (d : Dev) (h : Fin 32) : Dev :=
  let desc := d.get (headB h) R.TRV_FMAP_DESC
  if desc ≠ 0 ∧ desc ≠ d.get (headB h) R.TRV_FMAP_CRC then (d.trvEvent h 6).raise (headB h) none 10 else d

/-- Clear counters (R121, R154, R216, R219, R248, R275, R277, R295). -/
def Dev.zeros (d : Dev) (b : Blk) (rs : List Reg) (i : Nat := 0) : Dev := rs.foldl (fun (e : Dev) r => e.put b r 0 i) d

/-- The counters of a head that clear at layer start. -/
def headCounters : List Reg :=
  [R.DRF_HOLDCNT, R.DRF_HOLD_US, R.DRF_SKYFALL, R.DRF_LATCNT, R.DRF_ACCLATE, R.TRV_FIRED, R.TRV_LATECNT, R.TRV_HELDCNT,
    R.TRV_MERGECNT, R.TRV_PCLAMP, R.TRV_STALECNT, R.TRV_BLINDCNT, R.TRV_WEB_MISS, R.COR_RECORDS, R.COR_USED, R.COR_SKIP,
    R.COR_POSTED, R.COR_LEADLOST, R.COR_PASTEND, R.COR_FULL, R.COR_FFLATE, R.COR_PSAT, R.COR_DEPOSIT, R.COR_INTEG]

/-- The counters of a melt-pool pipeline. -/
def mpvCounters : List Reg :=
  [R.MPV_FRAMES, R.MPV_BADFRM, R.MPV_GAPCNT, R.MPV_GUESTDROP, R.MPV_SIDMISM, R.MPV_ARCDROP, R.MPV_SLUBS, R.MPV_SLUBLOST, R.MPV_NOPOS]

/-- Every counter that clears at layer start. -/
def Dev.layerZeros (d : Dev) : Dev :=
  let d1 := (List.finRange 32).foldl (fun (e : Dev) h =>
    ((e.zeros (headB h) headCounters).zeros (mpvB h) mpvCounters).zeros (agtB h)
      [R.AGT_TAKEN, R.AGT_RETURNED, R.AGT_CLRWAIT_US, R.AGT_EXTREF] (h.val % 4)) d
  let d2 := d1.zeros plyB [R.PLY_GRANTS, R.PLY_FREE_GR, R.PLY_TOKEN_GR, R.PLY_VIOL, R.PLY_REPLIED, R.PLY_UNEXEC]
  let d3 := d2.zeros latB [R.LAT_TICKS, R.LAT_OVERRUN, R.LAT_DEPOSITS, R.LAT_DEPLOST, R.LAT_MATERR, R.LAT_CLAMPS, R.LAT_HOT_TILE]
  (List.finRange 2).foldl (fun (e : Dev) p =>
    e.zeros (lpB p) [R.LPIPE_FRAMES, R.LPIPE_BADFRM, R.LPIPE_CHECKS, R.LPIPE_FAILS, R.LPIPE_ARCDROP]) d3

/-- A present head takes up its list (R116 step 1): arc position 0, fetch begins; the values that wait for a layer start
come into force (R154). -/
def Dev.headStart (d : Dev) (h : Fin 32) (k : Skein) : Dev :=
  let b := headB h
  let at_ := d.bedAt h k.frame
  let l := if k.headMask.getLsbD h.val then k.lists[h] else (0, 0)
  let d1 := (d.fmapCheck h).tuneLayer h
  let d2 := d1.drfMod h fun x => { Drf.init with
    st := 1, inLayer := true, listAddr := l.1, listLen := l.2, x := at_.1, y := at_.2, endX := at_.1, endY := at_.2,
    z := d1.focusAt h,
    zTgt := x.zTgt, cap := x.cap, auxTgt := x.auxTgt, auxNow := x.auxNow, tickAt := x.tickAt, atHold := true, needAdm := true,
    runNo := 1 }
  let d3 := d2.trvMod h fun t => { t with
    s := 0, v := 0, px := at_.1, py := at_.2, vx := 0, vy := 0, stale := 0, blind := false, lastK := d.tick, devOut := false,
    held := false, sched := [], edges := [], ramps := [], fades := [], on_ := false, run := none, hist := t.hist.map fun x => { x with cur := false },
    waiting := if k.web ∧ k.headMask.getLsbD h.val then t.waiting else [], product := none, webRun := false, corr := 32768 }
  let d4 := (d3.corMod h fun _ => Cor.init).put b R.COR_STAT 0x80008000#32
  let d5 := ((d4.setLiv b R.TRV_HORIZON (d4.get b R.TRV_HORIZON)).setLiv b R.TRV_LDLY (d4.get b R.TRV_LDLY)).setLiv b
    R.TRV_DAC_SKEW (d4.get b R.TRV_DAC_SKEW)
  (d5.putB b R.TRV_STAT 6 (k.web && k.headMask.getLsbD h.val)).webShow h

/-- The plan and the geometry of the layer (R188, R198, R216). -/
def Dev.plyStart (d : Dev) (plan : Option (List Zone × Vector Nat 32)) : Dev :=
  let dir := sincos ((d.getN plyB R.PLY_GAS_DIR : Rat) / 1000000)
  let d1 : Dev := { d with ply := { Ply.init with
    zones := (plan.map fun p => p.1).getD [], est := (plan.map fun p => p.2).getD (Vector.replicate 32 0), gx := dir.2, gy := dir.1,
    dist := (d.getN plyB R.PLY_EXCL_DIST : Rat), tanH := tanQ ((d.getN plyB R.PLY_EXCL_HALF : Rat) / 1000000) } }
  (d1.putB plyB R.PLY_STAT 2 plan.isSome).plyShow

/-- The first record's ID of a list, 0 where it cannot be read. -/
def Dev.firstId (d : Dev) (m : Mem) (a : Nat) : Word :=
  match d.sdRead m (a + 4) 4 with
  | .ok bs => wd (leNat bs)
  | .error _ => 0

/-- An absent head's list is listed whole (R88). -/
def Dev.listAbsent (d : Dev) (m : Mem) (k : Skein) : Dev :=
  (List.finRange 32).foldl (fun (e : Dev) h =>
    if k.headMask.getLsbD h.val ∧ ¬ e.rep.present.getLsbD h.val then
      e.list (e.firstId m (k.lists[h]).1) 1 h.val false 0 (k.lists[h]).2
    else e) d

/-! Abort (R90, R117, R206). -/

/-- Pool items not granted, and what of the pool has not been read, are listed with reason 0x05. -/
def Dev.poolAbort (d : Dev) (m : Mem) : Dev :=
  let d1 := (d.ply.items.filter fun i => i.head = none).foldl (fun (e : Dev) i =>
    let first := if i.start = i.ix + 1 then i.ix else i.start
    (e.poolList i.id 5 0xFF first (i.start + i.nvec - first)).itemGone i.ix) d
  let next := d1.ply.next
  let id := ((d1.poolRec m next).getD []).getD 1 0
  if d1.poolRead_ then d1 else (d1.poolList id 5 0xFF next (d1.poolLen - next)).poolNext d1.poolLen

/-- A write of SKEIN_CTL.ABORT (R90): ignored while no layer runs and while one ends; one that meets a skein that is about to start
acts as soon as it runs (log 43, DEDUCED). -/
def Dev.skeinAbort (d : Dev) (m : Mem) : Dev :=
  match d.running with
  | none =>
    if d.canStart then { d with staged := d.staged.map fun k => { k with abortSeen := true } } else d.skeinEvent 5 none
  | some k =>
    if d.runState = 3 then d.skeinEvent 5 none
    else if d.rep.aborted then d
    else
      let d1 : Dev := { d with rep := { d.rep with aborted := true, cut := some (d.now, d.getB creelB R.SKEIN_EVT 3) } }
      let d2 := (List.finRange 32).foldl (fun (e : Dev) h => if e.headRuns h then e.headAbort m h else e) d1
      ((d2.poolAbort m).plyServe).skeinEvent 3 (some k.ring)

/-- The layer does not start (R88, R188): a report with status 3. -/
def notStarted (m : Mem) (d : Dev) (k : Skein) (present : Word) : Mem × Dev :=
  let ns := d.ptpNs
  let r : Rep := { Rep.init with present := present, startS := ns / 1000000000, startNs := ns % 1000000000 }
  (d.sdPut m k.repAddr (repBytes k r 3 ns), (({ d with staged := none } : Dev).stagedShow).skeinEvent 2 (some k.ring))

/-- The layer starts. -/
def layerGo (m : Mem) (d : Dev) (k : Skein) (present : Word) (plan : Option (List Zone × Vector Nat 32)) : Mem × Dev :=
  let ns := d.ptpNs
  let d1 : Dev := ({ d with
    staged := none, running := some k, rep := { Rep.init with
      present := present, startS := ns / 1000000000, startNs := ns % 1000000000, ox := k.ox, oy := k.oy, flags := k.flags } } : Dev)
  let d2 := (((d1.stagedShow.putF creelB R.SKEIN_STAT 3 0 2).putF creelB R.SKEIN_STAT 11 8 k.ring.val).put creelB R.SKEIN_LAYER
    k.layer).skeinEvent 0 (some k.ring)
  let d2a := d2.layerZeros.plyStart plan
  let d3 := (if k.web then d2a else d2a.recoatStart k.recoatUs).diagCut.setCloses
  let d4 := (List.finRange 32).foldl (fun (e : Dev) h =>
    let e1 := (e.calPromote h).setLiv (mpvB h) R.MPV_CAM_DLY (e.get (mpvB h) R.MPV_CAM_DLY)
    if present.getLsbD h.val then e1.headStart h k else e1) d3
  let d5 := (d4.listAbsent m k).webForce
  (m, if k.abortSeen then d5.skeinAbort m else d5)

/-- LAYER_START (R88, R128, R188). -/
def execLayerStart (s : State) : Host.Outcome State Fault Refusal :=
  onLiveMem (fun m d0 =>
    match d0.staged with
    | none => (m, d0)
    | some k =>
      if ¬ d0.ready ∨ d0.running.isSome ∨ ¬ d0.canStart then (m, d0)
      else
        let d := (List.finRange 32).foldl (fun (e : Dev) h => e.fmapPromote h) d0
        let present := d.presentSet s.pending
        let plan := if k.planAddr = 0 then none else d.planRead m k.planAddr
        if k.planAddr ≠ 0 ∧ (plan.isNone ∨ ¬ d.up plyB) then
          notStarted m (((d.sdMark plyB k.planAddr 1024).plyEvent 4).raise plyB none 0) k present
        else if k.reqMask &&& ~~~present ≠ 0 then notStarted m d k present
        else layerGo m d k present plan) s

/-- ABORT (R90). -/
def execAbort (s : State) : Host.Outcome State Fault Refusal :=
  onLiveMem (fun m d => hostWriteMem m d creelB 0x200 fun x e => (x, e.skeinAbort x)) s

/-! Layer end (R89, R153). -/

/-- A pending buffer is promoted when the running skein ends (R77 step 3). -/
def Dev.bobsPromote (d : Dev) : Dev :=
  (List.range 256).foldl (fun (e : Dev) b => if (e.bob b).pend then e.promote b else e) d

/-- A head leaves the layer: IDLE, and a blind state ends (R132). -/
def Dev.headEnd (d : Dev) (h : Fin 32) : Dev :=
  let d1 := (d.depositFlush h).drfMod h fun x => { x with st := 0, inLayer := false, atHold := false, needAdm := false, admAsk := false, moves := [], trail := [] }
  let d2 := d1.trvMod h fun t => { t with
    blind := false
    stale := 0
    sched := []
    product := none
    webRun := false
    waiting := if d.rep.aborted then [] else t.waiting }
  ((d2.putB (headB h) R.TRV_STAT 4 false).putB (headB h) R.TRV_STAT 6 false).webShow h

/-- An abort of the cycle in which the layer ends by itself is ignored (R90): it found no work left to list. -/
def Dev.lateAbort (d : Dev) : Dev :=
  match d.rep.cut with
  | some (t, was) =>
    if t = d.now ∧ ¬ d.rep.entries.any (fun e => e.reason = 5) then
      (({ d with rep := { d.rep with aborted := false, cut := none } } : Dev).putB creelB R.SKEIN_EVT 3 was).skeinEvent 5 none
    else d
  | none => d

/-- The layer ends: report, ENDED, running slot freed. -/
def layerOver (m : Mem) (d : Dev) (k : Skein) : Mem × Dev :=
  let status := if d.rep.aborted then 2 else if d.rep.entries = [] then 0 else 1
  let m1 := d.sdPut m k.repAddr (repBytes k d.rep status d.ptpNs)
  let d1 : Dev := { d with
    running := none
    layerEnd := some d.now
    lpipes := d.lpipes.map fun x => { x with ends := x.ends.filter (fun t => !d.past t 65536000) ++ [d.now] } }
  let d2 := (List.finRange 32).foldl (fun (e : Dev) h => if d.rep.present.getLsbD h.val then e.headEnd h else e) d1
  let d3 := (((d2.latMod fun l => { l with since := d.now }).putF plyB R.PLY_STAT 1 0 0).putF creelB R.SKEIN_STAT 3 0 0).bobsPromote
  (m1, d3.skeinEvent 1 (some k.ring))

/-- LAYER_END (R89, R153). -/
def execLayerEnd (s : State) : Host.Outcome State Fault Refusal :=
  onLiveMem (fun m d0 =>
    match d0.running with
    | none => (m, d0)
    | some k =>
      let d := d0.webFreed k
      if d.layerDone k then layerOver m d.lateAbort k else (m, d)) s

end Sys2Proof.Machine
end

