-- ==== Sys2Proof/Machine/March.lean ====
section
/-! DEFINITION. The march engine (R384 to R387): the MARCH operation bank by bank, and what a destructive march does to
the users of a bank (R379). -/

namespace Sys2Proof.Machine

/-- MARCH. -/
def march : Blk := blk .march 0

/-- What a destructive march of a bank does to its user (R379, last column). Which port's buffer lies in which of banks 148 to 339 is left
open: each may lose what waits in it (log 8, DESIGN CHOICE). -/
def Dev.bankErased (d : Dev) (k : Nat) : Dev :=
  let d1 := d.poolMod fun p => { p with
    words := p.words.filter fun x => x.1 / 65536 ≠ k
    sick := p.sick.filter fun r => r / 1024 ≠ k
    zero := if k ∈ p.zero then p.zero else k :: p.zero }
  if 16 ≤ k ∧ k < 48 then (List.range 8).foldl (fun (e : Dev) i => e.bobMod (8 * (k - 16) + i) fun _ => Bob.init) d1
  else if 48 ≤ k ∧ k < 80 then d1.putB (blk .lattice 0) R.LAT_STAT 16 false
  else if 80 ≤ k ∧ k < 132 then
    (List.finRange 32).foldl (fun (e : Dev) h =>
      if h.val * 106496 < (k - 79) * 65536 ∧ (k - 80) * 65536 < (h.val + 1) * 106496 then e.fmapDrop h else e) d1
  else if 132 ≤ k ∧ k < 140 then
    (List.finRange 32).foldl (fun (e : Dev) h =>
      if h.val / 4 = k - 132 then
        ((e.mpvMod h fun x => { x with cal := none, calPend := none }).putB (mpvB h) R.MPV_STAT 3 false).putB (mpvB h)
          R.MPV_STAT 4 false
      else e) d1
  else if 140 ≤ k ∧ k < 148 then
    (List.finRange 64).foldl (fun (e : Dev) m =>
      if m.val / 8 = k - 140 then
        (e.mput m R.MSP_CMP_CTL (setBit (e.mget m R.MSP_CMP_CTL) 0 false)).mspMod m fun x => { x with list := [] }
      else e) d1
  else if 148 ≤ k ∧ k < 340 then
    let d2 := (List.finRange 32).foldl (fun (e : Dev) h =>
      let f := e.free.1
      e.free.2.mpvMod h fun x => { x with logs := if bit f 0 then [] else x.logs, arcs := if bit f 1 then [] else x.arcs }) d1
    (List.finRange 2).foldl (fun (e : Dev) p =>
      let f := e.free.1
      { e.free.2 with lpipes := vmod e.free.2.lpipes p fun x => { x with out := if bit f 0 then [] else x.out } }) d2
  else d1

/-- The bank range of a MARCH: first bank and number of banks. -/
def Dev.marchRange (d : Dev) : Nat × Nat := (d.getF march R.MARCH_FIRST 8 0, d.getF march R.MARCH_COUNT 8 0)

/-- A preserving march has a scratch bank (R385). -/
def Dev.marchScratch (d : Dev) : Bool := !d.bankBad 383 || d.freeReserve.isSome

/-- MARCH begins to run, or fails its start checks (R384 to R386). -/
def Dev.marchBegin (d : Dev) (param : Nat) : Dev :=
  let r := d.marchRange
  let dest : Bool := param.testBit 0
  if r.2 = 0 ∨ 384 < r.1 + r.2 then d.opFail march 6
  else if dest ∧ (d.running.isSome ∨ d.staged.isSome ∨ (r.1 < 16 ∧ 12 < r.1 + r.2)) then d.opFail march 0x80
  else if ¬ dest ∧ ¬ d.marchScratch then d.opFail march 0x81
  else d

/-- One bank is tested, its failing rows repaired where REPAIR is 1 (R384, R387). -/
def Dev.marchBank (d : Dev) (param : Nat) (fails : List (Nat × Nat)) : Dev :=
  let r := d.marchRange
  let n := d.getN march R.OP_PART 0
  let k := r.1 + n
  let d1 := if param.testBit 0 then d.bankErased k else d
  let x := if param.testBit 1 ∧ fails ≠ [] then d1.bankRepair k (fails.map fun f => f.1 / 8) (!param.testBit 0) else (d1, 0, false)
  let had := x.1.getN march R.OP_PART 1
  let d2 := match fails, had with
    | f :: _, 0 => (x.1.opPart march 2 (k + f.1 * 512)).opPart march 3 f.2
    | _, _ => x.1
  let d3 := ((d2.opPart march 0 (n + 1)).opPart march 1 (had + fails.length)).opPart march 4
    (d2.getN march R.OP_PART 4 + x.2.1)
  (d3.opPart march 5 (d3.getN march R.OP_PART 5 + x.2.2.toNat)).opProg march (4095 * (n + 1) / r.2)

/-- MARCH (R384): the host's start, then bank after bank; a failing word is given with its bit. -/
def execMarch (act : MarchAct) (s : State) : Host.Outcome State Fault Refusal :=
  match act with
  | .start tag param => onLive (fun d => d.hostStart march 1 tag.toNat param.toNat) s
  | .bank fails =>
    onLive (fun d =>
      match d.op march with
      | some o => d.when (d.opRunning march 1 && d.getN march R.OP_PART 0 < d.marchRange.2) fun d =>
          d.marchBank o.param (fails.map fun f => (f.1.val, f.2.val))
      | none => d) s

/-- MARCH_DONE (R387): every bank of the range has been tested. -/
def execMarchDone (s : State) : Host.Outcome State Fault Refusal :=
  onLive (fun d => d.when (d.opRunning march 1 && d.getN march R.OP_PART 0 = d.marchRange.2) fun d => d.opDone march) s

end Sys2Proof.Machine
end

