-- ==== Sys2Proof/Machine/Service.lean ====
section
/-! DEFINITION. Service of blocks and cells: enabling and wake-ups (R454, R518), soft reset with its shadows (R42, R422,
R423), fences of blocks and cells (R44, R419 to R421) and the state a block returns to service in (log 45, DEDUCED). -/

namespace Sys2Proof.Machine

/-- HIF, OPTAB, CREEL, FLTC, BOOT and AON are never fenced, nor reset by a reaction (R420). -/
def neverFenced (b : Blk) : Bool :=
  match blkKind b with
  | some (t, _) => t = .hif || t = .optab || t = .creel || t = .fltc || t = .boot || t = .aon
  | none => true

/-- BLK_STAT.ACTIVE. -/
def Dev.setActive (d : Dev) (b : Blk) (v : Bool) : Dev := d.putB b R.BLK_STAT 1 v

/-! Enabling and wake-ups (R454). -/

/-- Requests stand in order of cycle, those of one cycle in order of region. -/
def insertWake (x : Nat × Blk) : List (Nat × Blk) → List (Nat × Blk)
  | [] => [x]
  | y :: t => if y.1 = x.1 ∧ x.2.region < y.2.region then x :: y :: t else y :: insertWake x t

/-- A block asks for its wake-up. -/
def Dev.wakeAsk (d : Dev) (b : Blk) : Dev :=
  if d.wakeReq.any fun w => w.2 = b then d else { d with wakeReq := insertWake (d.now, b) d.wakeReq }

/-- A write of BLK_CTL.EN. -/
def Dev.blockEn (d : Dev) (b : Blk) (en : Bool) : Dev :=
  let was := d.getB b R.BLK_CTL 0
  let d1 := d.putB b R.BLK_CTL 0 en
  if en && !was then (d1.setActive b false).wakeAsk b
  else if was && !en then { d1.setActive b false with wakeReq := d1.wakeReq.filter fun w => w.2 ≠ b }
  else d1

/-- ENABLE (R454). -/
def execEnable (b : Blk) (en : Bool) (s : State) : Host.Outcome State Fault Refusal :=
  onLive (fun d => d.hostWrite b 0x008 fun e => e.blockEn b en) s

/-- The wake-up of the region whose turn it is may take place: THERM_WAKE_GAP has passed since that of another region. -/
def Dev.wakeDue (d : Dev) (r : Fin 16) : Bool :=
  match d.wakeReq, d.wakeLast with
  | [], _ => false
  | w :: _, none => w.2.region = r
  | w :: _, some l => w.2.region = r && (l.2 = r.val || d.past l.1 (d.getF therm R.THERM_WAKE_GAP 3 0))

/-- WAKE_UP (R454): the requests of the region take place together. ACTIVE shows normal service, which EN 0 does not give
(R43; log 21, DEDUCED). -/
def execWakeUp (r : Fin 16) (s : State) : Host.Outcome State Fault Refusal :=
  onLive (fun d => d.when (d.wakeDue r) fun d =>
    let now := d.wakeReq.filter fun w => w.2.region = r
    let d1 := now.foldl (fun (e : Dev) w => e.setActive w.2 (e.up w.2 && e.getB w.2 R.BLK_CTL 0)) d
    { d1 with wakeReq := d.wakeReq.filter fun w => w.2.region ≠ r, wakeLast := some (d.now, r.val) }) s

/-! The cell fence list (R419 to R421). -/

/-- Blocks whose cells serve separately (R419). -/
def cellsServe (b : Blk) : Bool :=
  match blkKind b with
  | some (t, _) => t = .servo || t = .mspin || t = .mpg || t = .sramp || t = .lattice || t = .bchg
  | none => false

/-- The list and FLTC_CF_CNT as FLTC shows them. -/
def Dev.cfShow (d : Dev) : Dev :=
  let word (x : Option CellRef) : Word := match x with
    | some c => wd (c.blk.region.val + c.blk.block.val * 16 + c.cell % 64 * 1024 + 2 ^ 31)
    | none => 0
  let d1 := (List.range 64).foldl (fun (e : Dev) i => e.put fltc R.FLTC_CF (word (e.flt.cf.toList.getD i none)) i) d
  d1.put fltc R.FLTC_CF_CNT (wd (d.flt.cf.toList.filter fun x => x.isSome).length)

/-- The spindle cell of a SERVO or MSPIN block. -/
def spindleOf (b : Blk) (c : Nat) : Option (Fin 256) :=
  match blkKind b with
  | some (.servo, k) => if c < 24 then some (Fin.ofNat 256 (24 * k + c)) else none
  | some (.mspin, k) => if c < 8 then some (Fin.ofNat 256 (192 + 8 * k + c)) else none
  | _ => none

/-- A spindle cell goes to OFF or FENCED. -/
def Dev.spindleOut (d : Dev) (i : Fin 256) (st : Nat) : Dev := if isHead i then d.headCellOut i st else d.mspOut (mspOf i) st

/-- What the fence of a cell does to it (R175 step 8, R356, R471). -/
def Dev.cellOut (d : Dev) (b : Blk) (c : Nat) : Dev :=
  match spindleOf b c, blkKind b with
  | some i, _ => d.spindleOut i 5
  | none, some (.bchg, k) => d.bchCellFence (Fin.ofNat 8 k) c
  | none, _ => d

/-- What clearing the fence of a cell does (R175 step 9, log 26, DEDUCED). -/
def Dev.cellBack (d : Dev) (b : Blk) (c : Nat) : Dev :=
  match spindleOf b c, blkKind b with
  | some i, _ => if d.fenced b then d else d.cellState i 0
  | none, some (.bchg, k) => d.bchCellBack (Fin.ofNat 8 k) c
  | none, _ => d

/-- Clear the fence of a cell (R421). -/
def Dev.cfClear (d : Dev) (b : Blk) (c : Nat) : Dev :=
  if ¬ d.cellFenced b c then d
  else
    let d1 : Dev := { d with flt := { d.flt with cf := d.flt.cf.map fun x => if x == some ⟨b, c⟩ then none else x } }
    d1.cfShow.cellBack b c

/-- A soft reset of a block clears the fences of its cells (R421). -/
def Dev.cfClearAll (d : Dev) (b : Blk) : Dev := (List.range 64).foldl (fun (e : Dev) c => e.cfClear b c) d

/-- FLTC_CF_CLR (R421). -/
def execFltcCfClr (v : Word) (s : State) : Host.Outcome State Fault Refusal :=
  onLive (fun d => d.hostWrite fltc 0x180 fun e =>
    e.cfClear ⟨Fin.ofNat 16 (fld v 3 0), Fin.ofNat 64 (fld v 9 4)⟩ (fld v 15 10)) s

/-! Leaving service. -/

/-- The work of a running operation ends with an abort, a fence or a reset (R50 step 6, R127, R317 step 15, R371,
R470). -/
def opCut (m : Mem) (d : Dev) (b : Blk) : Mem × Dev :=
  match blkKind b with
  | some (.sdc, i) => d.migKill m (Fin.ofNat 2 i) true
  | some (.servo, k) => (m, d.tuneEnd (Fin.ofNat 8 k))
  | some (.lane, n) => (m, d.patKill (Fin.ofNat 40 n))
  | some (.bchg, k) => (m, d.calKill (Fin.ofNat 8 k))
  | some (.headctl, h) => (m, d.fmapNone (Fin.ofNat 32 h))
  | _ => (m, d)

/-- A map operation that never ran leaves no pending map either (R127). -/
def Dev.opUnborn (d : Dev) (b : Blk) : Dev :=
  match blkKind b with
  | some (.headctl, h) => d.fmapNone (Fin.ofNat 32 h)
  | _ => d

/-- An abort, a fence or a reset ends the block's operation (R44, R50 step 6), a fence or a reset also one that completed in
the same cycle (R51). -/
def opStop (m : Mem) (d : Dev) (b : Blk) (err : Nat) : Mem × Dev :=
  let d1 := d.opKill b err
  if d.opState b = 2 then opCut m d1 b
  else if d.opState b = 1 ∨ (err ≠ 2 ∧ d.opDoneNow b) then (m, d1.opUnborn b)
  else (m, d1)

/-- What leaving service does to what a block drives: `fence` tells a fence from a reset (R175 steps 8 and 10, R212,
R247, R317 step 16, R356). -/
def blockOut (m : Mem) (d : Dev) (b : Blk) (fence : Bool) : Mem × Dev :=
  let st : Nat := if fence then 5 else 0
  let cells (n : Nat) : Dev := (List.range n).foldl (fun (e : Dev) c => match spindleOf b c with
    | some i => e.spindleOut i st
    | none => e) d
  match blkKind b with
  | some (.headctl, h) => (m, d.headLost m (Fin.ofNat 32 h))
  | some (.servo, _) => (m, cells 24)
  | some (.mspin, _) => (m, cells 8)
  | some (.lane, n) => (m, d.laneOut m (Fin.ofNat 40 n))
  | some (.mpv, h) => (m, if fence then d.mpvFence (Fin.ofNat 32 h) else d.mpvOut (Fin.ofNat 32 h) (if d.fenced b then 3 else 0))
  | some (.sdc, i) => (m, d.sdcFlush (Fin.ofNat 2 i) (if fence then 1 else 2))
  | _ => (m, d)

/-! The state a block starts again from (R42, R127, R388, R396, R421, R467, R518, R519; log 45, DEDUCED). -/

/-- Offsets of the header that a soft reset keeps (R42, R44); `ended` says that a fence or a reset has ended the operation
shown, which keeps OP_PART as well. -/
def headerKept (ended : Bool) (o : Nat) : Bool :=
  o = 0x008 || (0x010 ≤ o && o < 0x020) || o = 0x024 || (ended && 0x028 ≤ o && o < 0x040) || o = 0x048

/-- The operation that a block shows was ended by a fence or a reset (R44). -/
def Dev.opEnded (d : Dev) (b : Blk) : Bool := d.opState b = 5 && (d.getF b R.OP_STAT 15 8 = 3 || d.getF b R.OP_STAT 15 8 = 4)

/-- Offsets of a block's own registers that a soft reset keeps. -/
def ownKept (t : BT) (o : Nat) : Bool :=
  let within (a b : Nat) : Bool := a ≤ o && o ≤ b
  (match regAt t o with
    | some (r, _, _) => r.keep
    | none => false) ||
  match t with
  | .creel => 0x200 ≤ o
  | .fltc => o = 0x104
  | .time => o = 0x104
  | .boot => o = 0x100 || o = 0x10C || within 0x140 0x1BC
  | .aon => 0x100 ≤ o
  | .sdc => within 0x104 0x114
  | .bchg => o = 0x104 || o = 0x108
  | _ => false

/-- A spindle cell in its soft-reset state: FENCED where it, or its block, is fenced (R165, R175). -/
def Dev.cellRenew (d : Dev) (b : Blk) (c : Nat) : Dev :=
  match spindleOf b c with
  | none => d
  | some i =>
    let st := if d.fenced b ∨ d.cellFenced b c then 5 else 0
    (d.cellMod i fun _ => SCell.init).stateShow i st |>.cellMod i fun x => { x with st := st }

/-- A head's units in their soft-reset state: the field maps stay, a head lost in the running layer stays lost
(R116 row 14, R127, R212). -/
def Dev.headRenew (d : Dev) (h : Fin 32) : Dev :=
  let x := d.heads[h]
  let lost : Bool := d.running.isSome && bit d.rep.lost h.val
  let st := if lost then (if x.drf.st = 6 then 6 else 7) else 0
  let d1 : Dev := { d with heads := d.heads.set h ⟨
    (if lost then { Drf.init with
        st := st, inLayer := x.drf.inLayer, x := x.drf.x, y := x.drf.y, z := x.drf.z, zTgt := x.drf.z, auxNow := x.drf.auxNow,
        auxTgt := x.drf.auxNow }
      else Drf.init),
    { Trv.init with live := x.trv.live, pend := x.trv.pend }, Cor.init⟩ }
  d1.put (headB h) R.TRV_STAT (d1.get (headB h) R.TRV_STAT &&& 7#32)

/-- A machine spindle in its soft-reset state. -/
def Dev.mspRenew (d : Dev) (b : Nat) : Dev :=
  (List.range 8).foldl (fun (e : Dev) c =>
    (e.mspMod (Fin.ofNat 64 (8 * b + c)) fun _ => Msp.init).cellRenew (blk .mspin b) c) d

/-- The lattice in its soft-reset state: geometry of the reset values, no valid tiles, the rate of mode A in force. -/
def Dev.latRenew (d : Dev) : Dev :=
  let d1 : Dev := { d with lat := { Lat.init with sweptAt := d.now, dueAt := d.now, since := d.now } }
  let j := if d.thm.modeA then d.getF therm R.THERM_STAT 3 0 else 8
  (d1.putF latB R.LAT_STAT 11 8 j).putB latB R.LAT_STAT 2 (decide (j < 8))

/-- What a block holds beside its registers takes its soft-reset state. -/
def Dev.stateRenew (d : Dev) (b : Blk) : Dev :=
  match blkKind b with
  | some (.hif, _) => { d with vecs := Vector.replicate 64 ⟨false, none, 0, none⟩ }
  | some (.creel, _) => { d with ringLast := 7, ringFin := [] }
  | some (.fltc, _) =>
    let d1 := ({ d with flt := { d.flt with
        queue := [], handling := [], storm := Flt.init.storm, wdogFrom := none } }).putF fltc R.FLTC_STAT 10 0 0
    (d1.flt.cf.toList.filterMap id).foldl (fun (e : Dev) c => e.cfClear c.blk c.cell) d1
  | some (.time, _) =>
    ({ d with tim := { Tim.init with clock := d.tim.clock, stamp := d.tim.stamp } }).put timeB R.TIME_STAT
      (d.get timeB R.TIME_STAT &&& 1#32)
  | some (.therm, _) =>
    ({ d with thm := { Thm.init with waiting := d.thm.waiting, grants := d.thm.grants } } : Dev).setJ 8 false
  | some (.keyst, _) => { d with keyStage := List.replicate 8 0, keys := Vector.replicate 32 none }
  | some (.jrnl, _) => d.jRenew
  | some (.lpipe, p) => d.lpMod (Fin.ofNat 2 p) fun _ => Lpipe.init
  | some (.light, _) => { d with lights := Vector.replicate 4 { Light.init with refAt := d.now } }
  | some (.lattice, _) => d.latRenew
  | some (.plyarb, _) => if d.running.isSome then d else { d with ply := Ply.init }
  | some (.mspin, k) => d.mspRenew k
  | some (.lane, n) => (d.laneMod (Fin.ofNat 40 n) fun _ => Lane.init).laneBack (Fin.ofNat 40 n)
  | some (.headctl, h) => d.headRenew (Fin.ofNat 32 h)
  | some (.servo, k) =>
    let d1 := (List.range 24).foldl (fun (e : Dev) c => e.cellRenew b c) { d with tunes := d.tunes.set (Fin.ofNat 8 k) none }
    (List.range 4).foldl (fun (e : Dev) j => e.linkLat (Fin.ofNat 32 (4 * k + j))) d1
  | some (.mpv, h) =>
    let i := Fin.ofNat 32 h
    ((d.mpvMod i fun x => { Mpv.init with kept := x.kept }).mpvTo i (if d.fenced b then 3 else 0)).mpvEval i
  | some (.bchg, k) => d.bchReset (Fin.ofNat 8 k) (d.get b R.BCHG_MAP) (d.get b R.BCHG_STAT)
  | _ => d

/-- A block's soft-reset state (R7, R42): registers, claims and what it holds. -/
def Dev.blockRenew (d : Dev) (b : Blk) : Dev :=
  match blkKind b with
  | none => d
  | some (t, _) =>
    let d0 := d.regsReset b fun o => headerKept (d.opEnded b) o || (0x100 ≤ o && ownKept t o)
    let d1 := if t = .sdc then d0.setLiv b R.SDC_CFG (d.liv b R.SDC_CFG) else d0
    let d2 : Dev := { d1.putB b R.BLK_CTL 0 false with claims := d1.claims.filter fun c => c.by_ ≠ b }
    d2.stateRenew b

/-! Soft reset (R422, R423). -/

/-- The cells of a SERVO block that serve a head. -/
def headUnits (h : Nat) : List (Blk × Option Nat) := (List.range 6).map fun r => (blk .servo (h / 4), some (6 * (h % 4) + r))

/-- The units a soft reset of a block puts in shadow (R422, R423). -/
def Dev.downstream (d : Dev) (b : Blk) : List (Blk × Option Nat) :=
  let whole (t : BT) (l : List Nat) : List (Blk × Option Nat) := l.map fun i => (blk t i, none)
  (b, none) ::
  match blkKind b with
  | some (.headctl, h) =>
    let k : Fin 8 := Fin.ofNat 8 (h / 4)
    let c := d.bchCell k (Fin.ofNat 4 h)
    headUnits h ++ (if c < 5 then [(bchB k, some c)] else []) ++ whole .mpv [h]
  | some (.servo, k) => whole .headctl ((List.range 4).map fun i => 4 * k + i)
  | some (.lane, n) =>
    if n < 32 then headUnits n ++ whole .headctl [n] ++ whole .mpv [n]
    else (List.range 6).map fun r => let m := 16 + 6 * (n - 32) + r; (blk .mspin (m / 8), some (m % 8))
  | some (.mpv, h) =>
    whole .headctl [h] ++ (match d.pipeOf (Fin.ofNat 32 h) with
      | some p => if p.val = h then [] else whole .mpv [p.val]
      | none => [])
  | some (.mpg, p) => (List.range 4).map fun i => (blk .mspin ((4 * p + i) / 8), some ((4 * p + i) % 8))
  | some (.csirx, p) => whole .lpipe [p] ++ whole .light [0]
  | some (.lattice, _) => whole .headctl (List.range 32)
  | some (.plyarb, _) => whole .plyagt (List.range 8)
  | _ => []

/-- A soft reset starts (R421 to R423); a block in reset already is not affected. -/
def softReset (m : Mem) (d : Dev) (b : Blk) : Mem × Dev :=
  if (blkKind b).isNone ∨ d.inReset b then (m, d)
  else
    let x := opStop m (d.abandonSlice b false) b 4
    let new := (d.downstream b).map fun u => (⟨b, u.1, u.2, d.now, none⟩ : Shadow)
    let d1 := ((x.2.putB b R.BLK_CTL 1 true).setActive b false).cfClearAll b
    let d2 : Dev := { d1 with shadows := d1.shadows ++ new, wakeReq := d1.wakeReq.filter fun w => w.2 ≠ b }
    let y := blockOut x.1 d2 b false
    (y.1, (y.2.inboxOut b 2).reqsForget b)

/-- SOFT_RESET (R422): a write of 1 to BLK_CTL.SRST. -/
def execSoftReset (b : Blk) (s : State) : Host.Outcome State Fault Refusal :=
  onLiveMem (fun m d => hostWriteMem m d b 0x008 fun x e => softReset x e b) s

/-- SOFT_RESET_END (R422, R454). -/
def execSoftResetEnd (b : Blk) (s : State) : Host.Outcome State Fault Refusal :=
  onLive (fun d => d.when (d.inReset b) fun d =>
    let d1 := (d.putB b R.BLK_CTL 1 false).blockRenew b
    let d2 : Dev := { d1 with
      shadows := d1.shadows.map fun x => if x.by_ = b ∧ x.ends = none then { x with ends := some d1.now } else x }
    d2.wakeAsk b) s

/-- RESET_SHADOW_END (R422): shadows on a unit whose time has passed are forgotten. -/
def execResetShadowEnd (b : Blk) (s : State) : Host.Outcome State Fault Refusal :=
  onLive (fun d => { d with shadows := d.shadows.filter fun x => x.blk ≠ b || d.shadowOpen x }) s

/-! Fences (R44, R419, R420). -/

/-- A block leaves service: FENCE 1 by a reaction, 2 by host software. A reaction applies over a host fence of its own cycle (R420). -/
def blockFence (m : Mem) (d : Dev) (b : Blk) (code : Nat) : Mem × Dev :=
  let note (e : Dev) : Dev := { e with flt := { e.flt with fences := (b, code) :: e.flt.fences } }
  if neverFenced b then (m, d)
  else if d.fenced b then (m, if code = 1 ∧ (b, 2) ∈ d.flt.fences then note (d.putF b R.BLK_CTL 5 4 1) else d)
  else
    let x := opStop m (d.abandonSlice b true) b 3
    let y := blockOut x.1 ((x.2.putF b R.BLK_CTL 5 4 code).setActive b false) b true
    (y.1, note (y.2.inboxOut b 1))

/-- FLTC_RFENCE: a region is shown until all its blocks are back in service (R419). -/
def Dev.rfenceShow (d : Dev) : Dev :=
  regions.foldl (fun (e : Dev) r =>
    if (blksOf r).any fun b => e.fenced b then e else e.putB fltc R.FLTC_RFENCE r.val false) d

/-- A write clears a fence, unless a reaction has set it in this cycle (R420): the block starts again from its soft-reset state (R44,
R421). -/
def Dev.unfence (d : Dev) (b : Blk) : Dev :=
  if (d.fence b = 1 ∨ d.fence b = 2) ∧ (b, 1) ∉ d.flt.fences then
    let d1 := d.putF b R.BLK_CTL 5 4 0
    if d1.inReset b then d1.rfenceShow else let d2 := d1.blockRenew b; (d2.setActive b (d2.getB b R.BLK_CTL 0)).rfenceShow
  else d

/-- HOST_FENCE (R44). -/
def execHostFence (b : Blk) (s : State) : Host.Outcome State Fault Refusal :=
  onLiveMem (fun m d => hostWriteMem m d b 0x008 fun x e => blockFence x e b 2) s

/-- FENCE_CLEAR (R44, R421). -/
def execFenceClear (b : Blk) (s : State) : Host.Outcome State Fault Refusal :=
  onLive (fun d => d.hostWrite b 0x008 fun e => e.unfence b) s

/-- A write of BLK_CTL as one word: EN, SRST and FENCE (R43, R44). The spec gives no order of the fields of one write: here
EN acts first, then FENCE, then SRST (log 52, DESIGN CHOICE). -/
def blkCtlWrite (m : Mem) (d : Dev) (b : Blk) (v : Word) : Mem × Dev :=
  let d1 := d.blockEn b (bit v 0)
  let x := match fld v 5 4 with
    | 0 => (m, d1.unfence b)
    | 2 => if d1.fence b = 0 then blockFence m d1 b 2 else (m, d1)
    | _ => (m, d1)
  if bit v 1 then softReset x.1 x.2 b else x

/-- A cell leaves service (R419, R421): a message that names no cell, a block whose cells do not serve separately, or
a full list fences the block. -/
def cellFence (m : Mem) (d : Dev) (b : Blk) (c : Option Nat) : Mem × Dev :=
  match c with
  | none => blockFence m d b 1
  | some c =>
    if ¬ cellsServe b then blockFence m d b 1
    else if neverFenced b ∨ d.fenced b ∨ d.cellFenced b c then (m, d)
    else match (List.finRange 64).find? fun i => d.flt.cf[i].isNone with
      | none =>
        let x := blockFence m d b 1
        (x.1, x.2.raise fltc none 3)
      | some i =>
        let d1 := d.reached b (some c)
        let d2 : Dev := { d1 with flt := { d1.flt with cf := d1.flt.cf.set i (some ⟨b, c⟩) } }
        (m, d2.cfShow.cellOut b c)

/-- A reaction (R46, R419, R420). -/
def react (m : Mem) (d : Dev) (code : Nat) (b : Blk) (c : Option Nat) : Mem × Dev :=
  if neverFenced b ∨ (code ≠ 3 ∧ d.fenced b ∧ (b, 2) ∉ d.flt.fences) then (m, d)
  else match code with
    | 1 => cellFence m d b c
    | 2 => blockFence m d b 1
    | 3 =>
      if b.region = 0 then blockFence m d b 1
      else
        let x := (blksOf b.region).foldl (fun (y : Mem × Dev) u => blockFence y.1 y.2 u 1) (m, d)
        (x.1, x.2.putB fltc R.FLTC_RFENCE b.region.val true)
    | 4 => softReset m d b
    | _ => (m, d)

end Sys2Proof.Machine
end

