-- ==== Sys2Proof/Machine/OpTable.lean ====
section
/-! DEFINITION. The operation table (R47, R50, R54 to R56): dispatch of queued operations, aborts, retirement, the table's
fault. -/

namespace Sys2Proof.Machine

/-- OPTAB. -/
def optab : Blk := blk .optab 0

/-- Entries in use. -/
def Dev.opsIn (d : Dev) : Nat := (d.ops.filter fun o => o.entry.isSome).length

/-- Operations without an entry. -/
def Dev.opsOut (d : Dev) : Nat := (d.ops.filter fun o => o.entry.isNone).length

/-- The lowest free entry. -/
def Dev.freeEntry (d : Dev) : Option Nat := (List.range 256).find? fun n => ¬ d.ops.any fun o => o.entry = some n

/-- The resources a queued operation needs are ready (R50 step 3): the block is not in reset, and no doffing runs already
when one is asked for (log 19, DEDUCED). -/
def Dev.opReady (d : Dev) (o : OpRec) : Bool := !d.inReset o.blk && !(o.blk = jrnl && o.code = 3 && d.jrn.doff)

/-- A start condition of the owning chapter is not met and the chapter publishes no code: a free one from 0x80 on (R50 step
10; log 19, DESIGN CHOICE). -/
def Dev.opRefuse (d : Dev) (b : Blk) : Dev := d.free.2.opFail b (0x80 + fld d.free.1 6 0)

/-- An operation that may take an entry now: ended without one, bound to fail for a fence, or ready. -/
def Dev.opTakes (d : Dev) (o : OpRec) : Bool :=
  o.entry.isNone && (d.opState o.blk ≠ 1 || d.fenced o.blk || d.opReady o)

/-- A running operation's start checks and its first effect. -/
def opBegin (m : Mem) (d : Dev) (o : OpRec) : Mem × Dev :=
  match blkKind o.blk with
  | some (.sdc, i) => d.migBegin m (Fin.ofNat 2 i) o.param
  | some (.servo, k) => (m, d.tuneBegin (Fin.ofNat 8 k) o.param)
  | some (.lane, n) => (m, if d.patReady (Fin.ofNat 40 n) then d.patBegin m (Fin.ofNat 40 n) else d.opRefuse o.blk)
  | some (.mspin, k) => (m, d.cmpBegin (Fin.ofNat 8 k) o.param)
  | some (.bchg, k) => (m, d.runBegin (Fin.ofNat 8 k))
  | some (.march, _) => (m, d.marchBegin o.param)
  | some (.lattice, _) => (m, d.latBegin o.code)
  | some (.jrnl, _) => (m, if ¬ d.jrn.found then d.opRefuse o.blk
      else if o.code = 1 then d.appendBegin m else if o.code = 3 then d.jDoff else d)
  | some (.headctl, h) => (m, if o.code = 2 then d.fetchBegin (Fin.ofNat 32 h) else d)
  | _ => (m, d)

/-- An operation takes an entry; the table may become full (R50, R56). -/
def Dev.opEnter (d : Dev) (o : OpRec) (n : Nat) : Dev :=
  let d1 : Dev := { d with ops := d.ops.map fun x => if x.blk = o.blk then { x with entry := some n } else x }
  if d1.opsIn = 256 then { d1 with fullAt := some d1.now, fullSaid := false } else d1

/-- The operation started first of those without an entry takes the lowest free one when it can (R50 steps 2, 3, 6 and 10):
the fence decides first, then the operands, then the block's conditions. -/
def opDispatch (m : Mem) (d : Dev) : Mem × Dev :=
  match d.freeEntry, d.ops.find? fun o => o.entry.isNone with
  | some n, some o =>
    let d1 := d.opEnter o n
    if ¬ d.opTakes o then (m, d)
    else if d.opState o.blk ≠ 1 then (m, d1)
    else if d.fenced o.blk then (m, (d1.opFail o.blk 3).opUnborn o.blk)
    else opBegin m (d1.opSet o.blk 2 0) o
  | _, _ => (m, d)

/-- OP_DISPATCH (R50): a pattern test does not begin in the cycle of an earlier step of its lane (R317). -/
def execOpDispatch (s : State) : Host.Outcome State Fault Refusal :=
  onLiveMem (fun m d =>
    if (List.finRange 40).any fun n => d.patNext n && d.outranked n s.pending 14 then (m, d) else opDispatch m d) s

/-- An abort written to OP_CMD (R50 steps 6 and 9): a queued operation ends at once, a running one at the end of the cycle,
since a completion in that cycle comes first (R51). -/
def opAbortWrite (m : Mem) (d : Dev) (b : Blk) : Mem × Dev :=
  if d.opState b = 1 then opStop m d b 2
  else if d.opState b = 2 then
    (m, { d with ops := d.ops.map fun o => if o.blk = b then { o with abortAt := some d.now } else o })
  else (m, d)

/-- The aborts written in the cycle that ends take effect on the operations that still run (R51). -/
def abortsDue (m : Mem) (d : Dev) : Mem × Dev :=
  (d.ops.filter fun o => o.abortAt.isSome).foldl (fun (x : Mem × Dev) o =>
    if x.2.opState o.blk = 2 then opStop x.1 x.2 o.blk 2 else x) (m, d)

/-- OP_ABORT (R50). -/
def execOpAbort (b : Blk) (s : State) : Host.Outcome State Fault Refusal :=
  onLiveMem (fun m d => hostWriteMem m d b 0x020 fun x e => opAbortWrite x e b) s

/-- A write of OP_CMD (R47): start, abort, or ignored. -/
def opCmdWrite (m : Mem) (d : Dev) (b : Blk) (v : Word) : Mem × Dev :=
  match fld v 31 28 with
  | 1 => (m, d.opStart b (fld v 15 8) (fld v 7 0) (fld v 27 16))
  | 2 => opAbortWrite m d b
  | _ => (m, d)

/-- A write of OPTAB_RETIRE (R55, R50 step 7). -/
def Dev.retire (d : Dev) (n : Nat) : Dev :=
  match d.ops.find? fun o => o.entry = some n with
  | some o =>
    if d.opBusy o.blk then (d.bumpF optab R.OPTAB_RETIRE_ERR 15 0).putF optab R.OPTAB_RETIRE_ERR 23 16 n
    else { d.put o.blk R.OP_STAT 0 with
      ops := d.ops.filter fun x => x.blk ≠ o.blk, fullAt := none, fullSaid := false }
  | none => (d.bumpF optab R.OPTAB_RETIRE_ERR 15 0).putF optab R.OPTAB_RETIRE_ERR 23 16 n

/-- OPTAB_RETIRE (R55). -/
def execOptabRetire (idx : BitVec 8) (s : State) : Host.Outcome State Fault Refusal :=
  onLive (fun d => d.hostWrite optab 0x104 fun e => e.retire idx.toNat) s

/-- TABLE_FULL (R56). -/
def execTableFull (s : State) : Host.Outcome State Fault Refusal :=
  onLive (fun d =>
    match d.fullAt with
    | some t => d.when (!d.fullSaid && d.past t 100000) fun d =>
        ({ d with fullSaid := true } : Dev).raise optab none 0 (min 65535 d.opsOut)
    | none => d) s

end Sys2Proof.Machine
end

