-- ==== Sys2Proof/Machine/Cycle.lean ====
section
/-! DEFINITION. A fabric cycle in which no command takes place (log 1, DESIGN CHOICE). -/

namespace Sys2Proof.Machine

/-- At a servo tick written values come into force (R154), cells leave and take TUNE (R175) and every head of a web-mode skein
samples its spindle (R148). -/
def Dev.tickStart (d : Dev) : Dev :=
  let d1 := (List.finRange 256).foldl (fun (e : Dev) i => e.cellBound i) { d with tim := d.tim.keep d.tick, prior := [] }
  if ¬ d.webLayer then d1
  else (List.finRange 32).foldl (fun (e : Dev) h =>
    if e.webHead h then
      let m : Fin 64 := Fin.ofNat 64 (e.getF (headB h) R.TRV_WEB_CTL 5 0)
      e.trvMod h fun t => { t with webAt := (e.tick, e.mpos m, e.mspeed m) :: t.webAt.take 7 }
    else e) d1

/-- 1.25 ns pass (R3): the PTP clock advances (R393), and at a servo tick its time is kept (R408). Every clock outside AON
stands in a reset and in a shutdown (R450, R484). -/
def Dev.cycle (d : Dev) : Dev :=
  if d.dead then d
  else
    let d1 : Dev := { d with
      now := d.now + 1, tim := d.tim.advance, rounds := [], early := [], flt := { d.flt with took := false, fences := [] } }
    if d1.now % 800 = 0 then d1.tickStart else d1

/-- The real-time write ports with what waits at each (R377): logs, archive and thumbnail of a pipeline, output of a layer pipeline. -/
def Dev.rtPorts (d : Dev) : List (Nat × List RtEnt) :=
  ((List.finRange 32).map fun h => (0, d.mpvs[h].logs)) ++ ((List.finRange 32).map fun h => (1, d.mpvs[h].arcs)) ++
    (List.finRange 2).map fun p => (2, d.lpipes[p].out)

/-- Panic of the write ports (R377): raised from SRAMP_RTP_CTL.HI eighths on, dropped at LO eighths or less. -/
def Dev.portPanic (d : Dev) : Dev :=
  let hi := d.getF (blk .sramp 0) R.SRAMP_RTP_CTL 3 0
  let lo := d.getF (blk .sramp 0) R.SRAMP_RTP_CTL 7 4
  let on_ (x : (Nat × List RtEnt) × Nat) : Bool :=
    !x.1.2.isEmpty && (let fill := 8 * rtBytes x.1.2
      hi * Config.portRoom x.1.1 ≤ fill || (x.2 ∈ d.pool.panic && lo * Config.portRoom x.1.1 < fill))
  d.poolMod fun p => { p with panic := (d.rtPorts.zipIdx.filter on_).map fun x => x.2 }

/-- The cycle ends with the aborts written in it (R51), the abandoned slices (R436), the command slots of SDRAM and the panic of the
write ports, then the next one begins. -/
def State.cycle (s : State) : State :=
  if s.dev.dead then s
  else
    let x := abortsDue s.mem s.dev
    let y := sdcSlots x.1 (regions.foldl (fun (e : Dev) r => e.sliceCut r) x.2)
    { s with mem := y.1, dev := y.2.portPanic.cycle }

end Sys2Proof.Machine
end

