-- ==== Sys2Proof/Machine/HostIf.lean ====
section
/-! DEFINITION. The host interface beside the registers (R33, R38, R41, R58, R497): BAR0 requests of another shape, the
BAR2 window, MSI-X vectors becoming open, and the gap between messages. -/

namespace Sys2Proof.Machine

/-- BAR0_BAD_SHAPE (R33). -/
def execBar0BadShape (addr : BitVec 24) (write : Bool) (s : State) : Host.Outcome State Fault Refusal :=
  onLive (fun d =>
    if ¬ d.hostOk then d
    else
      let d1 := d.logErr 8 addr.toNat false
      if write then d1 else d1.complete [0xFFFFFFFF#32] false) s

/-! BAR2 (R41). -/

/-- The SDRAM a BAR2 request is judged against: none before host-ready (R497). -/
def Dev.winSize (d : Dev) : Nat := if d.ready then d.installed else 0

/-- The base of the window (R41). -/
def Dev.winBase (d : Dev) : Nat := d.getF hif R.HIF_WIN_BASE 15 0 * 2 ^ 28

/-- Is the dword at `a` inside the installed SDRAM? -/
def Dev.winIn (d : Dev) (a : Nat) : Bool := a + 4 ≤ d.winSize

/-- Log what a BAR2 request met (R38, R39, R41): the status of its first failing dword inside the installed SDRAM, with that
dword's offset (log 44, DEDUCED: R39 does not say which dword), then once its first dword beyond. -/
def Dev.winLog (d : Dev) (m : Mem) (write : Bool) (base : Nat) (as : List Nat) : Dev :=
  let d1 := match as.find? fun a => d.winIn a ∧ d.sdStatus m a 4 write ≠ 0 with
    | some a => d.logErr (d.sdStatus m a 4 write) (a - base) true
    | none => d
  match as.find? fun a => ¬ d.winIn a with
  | some a => d1.logErr 9 (a - base) true
  | none => d1

/-- A dword of a BAR2 read: all ones beyond the installed SDRAM and where it is poisoned, else what SDRAM holds; a channel
out of service gives a value the manual leaves open (R38, R41; log 44, DESIGN CHOICE). -/
def Dev.winWord (d : Dev) (m : Mem) (a : Nat) : Word × Dev :=
  if ¬ d.winIn a then (0xFFFFFFFF#32, d)
  else match d.sdStatus m a 4 false with
    | 0 => (m.word a, d)
    | 4 => (0xFFFFFFFF#32, d)
    | _ => d.free

/-- A BAR2 read of the dwords at `as`, judged dword by dword; one poisoned dword poisons the completion (R38, R41). -/
def winRead (m : Mem) (d : Dev) (base : Nat) (as : List Nat) : Dev :=
  let bad : Bool := as.any fun a => d.winIn a && d.sdStatus m a 4 false = 4
  let x := as.foldl (fun (y : List Word × Dev) a => (y.1 ++ [(y.2.winWord m a).1], (y.2.winWord m a).2)) ([], d.winLog m false base as)
  x.2.complete x.1 bad

/-- Runs of enabled bytes, with their addresses, cut at the lines of SDRAM: each is a write of its own (R362, R369). -/
def runsOf (a : Nat) : List (Option Byte) → List (Nat × List Byte)
  | [] => []
  | none :: t => runsOf (a + 1) t
  | some b :: t => match runsOf (a + 1) t with
    | (x, bs) :: rest => if x = a + 1 ∧ x % 64 ≠ 0 then (a, b :: bs) :: rest else (a, [b]) :: (x, bs) :: rest
    | [] => [(a, [b])]

/-- A BAR2 write: what lies inside the installed SDRAM and in a channel in service is written, the rest is discarded and
logged (R38, R41). -/
def winWrite (m : Mem) (d : Dev) (base a : Nat) (bs : List (Option Byte)) (as : List Nat) : Mem × Dev :=
  ((runsOf a (bs.take (d.winSize - a))).foldl (fun (x : Mem) r => d.sdPut x r.1 r.2) m, d.winLog m true base as)

/-- BAR2_ACCESS (R41); no request passes the end of the window (log 52, DEDUCED). -/
def execBar2Access (ofs : BitVec 28) (acc : Bar2Acc) (s : State) : Host.Outcome State Fault Refusal :=
  onLiveMem (fun m d =>
    if ¬ d.hostOk then (m, d)
    else
      let base := d.winBase
      let a := base + ofs.toNat
      let room := 2 ^ 28 - ofs.toNat
      let dws (n : Nat) : List Nat := if n = 0 then [] else
        (List.range ((a + n - 1) / 4 + 1 - a / 4)).map fun i => (a / 4 + i) * 4
      match acc with
      | .read n => let k := min n room; (m, winRead m (d.sdMark hif a k) base (dws k))
      | .write bs => let ws := bs.take room; winWrite m (d.sdMark hif a ws.length) base a ws (dws ws.length)) s

/-! MSI-X (R58). -/

/-- Vectors that become open while their pending bit is set send their message (R58). -/
def Dev.vOpened (d was : Dev) : Dev :=
  (List.range 64).foldl (fun (e : Dev) v => if e.vOpen v && !was.vOpen v && e.vPend v then e.vSend v else e) d

/-- EVT_ENABLE (R58): the host enables a vector, or unmasks it in the MSI-X table. -/
def execEvtEnable (vec : Fin 64) (viaMask : Bool) (s : State) : Host.Outcome State Fault Refusal :=
  onLive (fun d =>
    let v := vec.val
    let r := if viaMask then R.MSIX_CTL else R.HIF_EVT_EN
    let i := if viaMask then v else v / 32
    d.hostWrite hif (r.ofs i 0) fun e =>
      (if viaMask then e.putB hif r 0 false i else e.putB hif r (v % 32) true i).vOpened e) s

/-- EVT_GAP_END (R58): a message held back by the gap is sent, whether or not the host has cleared the pending bit meanwhile
(log 14, DEDUCED); a vector no longer open sends when it opens again. -/
def execEvtGapEnd (vec : Fin 64) (s : State) : Host.Outcome State Fault Refusal :=
  onLive (fun d => d.when (d.vecs[vec].held && d.vGapOver vec && d.vOpen vec.val) fun d => d.vSend vec.val) s

end Sys2Proof.Machine
end

