-- ==== Sys2Proof/Machine/Faults.lean ====
section
/-! DEFINITION. Fault collection, reactions, forcing, ALIVE, the watchdog and self-test slices (R407 to R439). -/

namespace Sys2Proof.Machine

/-- Change the collector. -/
def Dev.fltMod (d : Dev) (f : Flt → Flt) : Dev := { d with flt := f d.flt }

/-- A field of a fault message (R407). -/
def mfld (m : BitVec 64) (lo n : Nat) : Nat := (m.extractLsb' lo n).toNat

/-! The collector (R408, R414 to R416). -/

/-- The source of a message. -/
def msgBlk (m : BitVec 64) : Blk := ⟨Fin.ofNat 16 (mfld m 0 4), Fin.ofNat 64 (mfld m 4 6)⟩

/-- The cell a message names. -/
def msgCell (m : BitVec 64) : Option Nat := if m.getLsbD 53 then some (mfld m 10 6) else none

/-- The time of a message (R408): that of the latest tick whose count modulo 1,024 is its TSTAMP. -/
def Dev.msgTime (d : Dev) (m : BitVec 64) : Nat :=
  let t := mfld m 54 10
  d.tim.at (d.tick - (d.tick + 1024 - t) % 1024)

/-- An entry of the queue for a message. -/
def Dev.entryOf (d : Dev) (m : BitVec 64) : FltEnt :=
  let ns := d.msgTime m
  ⟨m, wd (ns % 1000000000), wd (ns / 1000000000)⟩

/-- FLTC_STAT.QCNT. -/
def Dev.qShow (d : Dev) : Dev := d.putF fltc R.FLTC_STAT 10 0 d.flt.queue.length

/-- A message enters the queue. -/
def Dev.enqueue (d : Dev) (m : BitVec 64) : Dev :=
  let d1 := ((d.fltMod fun f => { f with queue := f.queue ++ [d.entryOf m] }).bump fltc R.FLTC_MSGS).qShow
  if m.getLsbD 49 then d1.bump fltc R.FLTC_SHADOW_CNT else d1

/-- The queue takes a message, or counts it as not queued (R415): the 1,023rd entry brings QUEUE_FULL with it. -/
def Dev.queueIn (d : Dev) (m : BitVec 64) : Dev :=
  let n := d.flt.queue.length
  if 1023 ≤ n then (d.bumpF fltc R.FLTC_LOST 31 16).vector 2
  else
    let d1 := d.enqueue m
    let d2 := if n = 0 then d1.vector 1 else d1
    if n + 1 = 1023 then
      let d3 := d2.put fltc R.FLT_STAT (d2.get fltc R.FLT_STAT ||| 1#32)
      if d3.getB fltc R.FLT_MASK 0 then d3
      else d3.enqueue (faultMsg fltc none 0 0 false (d3.shadowed fltc none) false false d3.tick)
    else d2

/-- Is a message armed, and does it react (R417, R418)? -/
def Dev.reacts (d : Dev) (m : BitVec 64) : Bool :=
  match blkKind (msgBlk m) with
  | none => false
  | some (t, _) =>
    let k := mfld m 16 8
    let armed : Bool := if k < 32 then d.getB fltc R.FLTC_ARM_KINDS k t.idx
      else decide (0x80 ≤ k ∧ k ≤ 0x82) && d.getB fltc R.FLTC_ARM_EXT (k - 0x80) t.idx
    armed && (m.getLsbD 51 || (m.getLsbD 50 && d.getB fltc R.FLTC_ARM_EXT 8 t.idx)) && !m.getLsbD 49 &&
      (!m.getLsbD 48 || d.getB fltc R.FLTC_CTL 0) && d.getF (msgBlk m) R.FLT_REACT 2 0 ≠ 0

/-- The source by which R414 compares messages. -/
def msgSrc (m : BitVec 64) : Nat × Bool := (mfld m 0 16, m.getLsbD 53)

/-- The collector handles a message (R414 to R419). -/
def collect (m : Mem) (d : Dev) (msg : BitVec 64) : Mem × Dev :=
  let busy := d.flt.handling.filter fun h => d.now < h.2 + 8
  if busy.any fun h => msgSrc h.1 = msgSrc msg then
    (m, ((d.fltMod fun f => { f with handling := busy }).bumpF fltc R.FLTC_LOST 15 0).vector 2)
  else
    let d1 := (d.fltMod fun f => { f with handling := busy ++ [(msg, d.now)] }).queueIn msg
    if d1.reacts msg then react m d1 (d1.getF (msgBlk msg) R.FLT_REACT 2 0) (msgBlk msg) (msgCell msg) else (m, d1)

/-- FAULT_MESSAGE (R414): the collector accepts the next message, one in a fabric cycle. -/
def execFaultMessage (s : State) : Host.Outcome State Fault Refusal :=
  onLiveMem (fun m d =>
    if d.flt.took then (m, d) else
    let isFault (b : Body) : Bool := match b with
      | .fault _ => true
      | _ => false
    match d.inReset fltc, d.inbox fltc isFault with
    | false, some x =>
      (match x.body with
        | .fault msg => collect m ((d.unpost x).fltMod fun f => { f with took := true }) msg
        | _ => (m, d))
    | _, _ => (m, d)) s

/-- A write of FLTC_POP (R416). -/
def Dev.fltPop (d : Dev) (v : Word) : Dev := if bit v 0 then (d.fltMod fun f => { f with queue := f.queue.drop 1 }).qShow else d

/-- FLTC_POP (R416). -/
def execFltcPop (v : Word) (s : State) : Host.Outcome State Fault Refusal :=
  onLive (fun d => d.hostWrite fltc 0x10C fun e => e.fltPop v) s

/-! Storms (R413). -/

/-- STORM_MILLISECOND (R413): a region enters or leaves storm for the millisecond that begins. -/
def execStormMillisecond (r : Fin 16) (s : State) : Host.Outcome State Fault Refusal :=
  onLive (fun d =>
    let x := d.flt.storm[r]
    let ms := d.tick / 1000
    d.when (decide (r ∈ regions ∧ x.ms < ms)) fun d =>
      let n := d.getF fltc R.FLTC_STORM 15 0
      let was := d.getB fltc R.FLTC_STORM_STAT r.val
      let now : Bool := d.getB fltc R.FLTC_CTL 1 && decide (n ≤ x.offered ∧ x.ms + 1 = ms)
      let d1 := (d.fltMod fun f => { f with storm := vmod f.storm r fun _ => ⟨0, [], ms⟩ }).putB fltc R.FLTC_STORM_STAT r.val now
      if now && !was then d1.raise fltc none 2 r.val else d1) s

/-! Forced faults (R427 to R429). -/

/-- Force bits that have gone to 1 raise their kinds from `base` on; `real` tells whose condition is present. -/
def Dev.forceRaise (d : Dev) (b : Blk) (base : Nat) (new real : Word) : Dev :=
  (List.range 32).foldl (fun (e : Dev) i =>
    if bit new i then e.detect b none (base + i) 0 false (!bit real i) (bit real i) else e) d

/-- BLK_CAP (R43). Where no chapter publishes it, LONGOP follows from the type's operations, HEADCTL and PLYAGT have no cells
(R13) and do have slices (R434), reserved bits read 0, and the rest is open (log 13, DESIGN CHOICE). -/
def blkCap (t : BT) : Word :=
  let o := Config.blkCapOpen t.code
  let bare : Bool := t = .headctl || t = .plyagt
  let cells := if bare then 0 else min 64 (fld o 6 0)
  t.cap.getD (wd (cells + (!(opCodes t).isEmpty).toNat * 128 + (bare || bit o 8).toNat * 256 + fld o 31 16 * 65536))

/-- The block has self-test slices (R43). -/
def hasBist (t : BT) : Bool := bit (blkCap t) 8

/-- A write of FLT_FORCE. -/
def Dev.forceWrite (d : Dev) (b : Blk) (v real : Word) : Dev :=
  match blkKind b with
  | none => d
  | some (t, _) =>
    let old := d.get b R.FLT_FORCE
    (d.put b R.FLT_FORCE (v &&& t.kinds)).forceRaise b 0 (v &&& t.kinds &&& ~~~old) real

/-- A write of BIST_CTL (R439): CFORCE in every block, PEN and REPAIR where there are slices. -/
def Dev.bistWrite (d : Dev) (b : Blk) (v real : Word) : Dev :=
  match blkKind b with
  | none => d
  | some (t, _) =>
    let old := d.get b R.BIST_CTL
    let low := if hasBist t then v &&& 3#32 else old &&& 3#32
    let new := wd (fld v 26 24 &&& (7 - fld old 26 24))
    (d.put b R.BIST_CTL (low ||| (v &&& fldMask 26 24))).forceRaise b 0x80 new real

/-- FAULT_FORCE (R427, R428): a write of FLT_FORCE, or of BIST_CTL for the common kinds. -/
def execFaultForce (b : Blk) (common : Bool) (v : Word) (real : Word) (s : State) : Host.Outcome State Fault Refusal :=
  onLive (fun d =>
    if common then d.hostWrite b 0x040 fun e => e.bistWrite b v real
    else d.hostWrite b 0x014 fun e => e.forceWrite b v real) s

/-! ALIVE and the watchdog (R430 to R432). -/

/-- ALIVE starts to toggle from its present level. -/
def Dev.aliveStart (d : Dev) : Dev := { d.putB fltc R.FLTC_STAT 16 true with aliveAt := d.now }

/-- ALIVE_TOGGLE (R430): a change of level every 500 µs. -/
def execAliveToggle (s : State) : Host.Outcome State Fault Refusal :=
  onLive (fun d => d.when (d.getB fltc R.FLTC_STAT 16 && d.past d.aliveAt 500) fun d =>
    { d with alive := !d.alive, aliveAt := d.now }) s

/-- A write of FLTC_ALIVE (R431). -/
def Dev.aliveRestart (d : Dev) (v : Word) : Dev :=
  if bit v 0 ∧ ¬ d.critAny ∧ ¬ d.getB fltc R.FLTC_STAT 19 ∧ d.ready then d.aliveStart else d

/-- RESTART (R431). -/
def execRestart (s : State) : Host.Outcome State Fault Refusal :=
  onLive (fun d => d.hostWrite fltc 0x120 fun e => e.aliveRestart 1#32) s

/-- The watchdog's period has passed (R432). -/
def Dev.wdogOver (d : Dev) : Bool :=
  match d.flt.wdogFrom with
  | some t => d.getF fltc R.FLTC_WDOG 15 0 ≠ 0 && d.past t (1000 * d.getF fltc R.FLTC_WDOG 15 0)
  | none => false

/-- A kick: one in the cycle of expiry is too late (R432). -/
def Dev.wdogKick (d : Dev) : Dev :=
  if d.wdogOver ∨ d.getF fltc R.FLTC_WDOG 15 0 = 0 ∨ d.flt.wdogFrom.isNone then d
  else d.fltMod fun f => { f with wdogFrom := some d.now }

/-- A write of FLTC_WDOG: a new period counts from now (R432). -/
def Dev.wdogSet (d : Dev) (v : Word) : Dev :=
  (d.put fltc R.FLTC_WDOG (v &&& 0xFFFF#32)).fltMod fun f => { f with
    wdogFrom := if fld v 15 0 = 0 then none else some d.now }

/-- FLTC_WDOG_KICK (R432). -/
def execFltcWdogKick (_v : Word) (s : State) : Host.Outcome State Fault Refusal :=
  onLive (fun d => d.hostWrite fltc 0x128 fun e => e.wdogKick) s

/-- WDOG_EXPIRED (R430, R432): critical, and ALIVE stops. -/
def execWdogExpired (s : State) : Host.Outcome State Fault Refusal :=
  onLive (fun d => d.when (d.wdogOver && !d.inReset fltc) fun d =>
    (((d.fltMod fun f => { f with wdogFrom := none }).putB fltc R.FLTC_STAT 19 true).raise fltc none 1).aliveStop) s

/-! Self-test slices (R433 to R438). -/

/-- The units of a block: its cells in ascending order, then its own logic. -/
def unitsOf (b : Blk) : List (Nat × Option Nat) :=
  match blkKind b with
  | some (t, _) => ((List.range (fld (blkCap t) 6 0)).map fun c => (b.block.val, some c)) ++ [(b.block.val, none)]
  | none => []

/-- The units of a region whose blocks permit slices. -/
def Dev.sliceUnits (d : Dev) (r : Fin 16) : List (Nat × Option Nat) :=
  (blksOf r).flatMap fun b => match blkKind b with
    | some (t, _) => if hasBist t && d.getB b R.BIST_CTL 0 then unitsOf b else []
    | none => []

/-- A bank under march (R385). -/
def Dev.marching (d : Dev) (bank : Nat) : Bool :=
  d.opState march = 2 && (let r := d.marchRange; r.1 + d.getN march R.OP_PART 0 = bank)

/-- Is a unit idle (R434)? -/
def Dev.unitIdle (d : Dev) (b : Blk) (c : Option Nat) : Bool :=
  !d.opBusy b && !d.inReset b && match blkKind b, c with
    | some (.servo, _), some c | some (.mspin, _), some c =>
      (match spindleOf b c with
        | some i => d.cells[i].st = 0 || d.cells[i].st = 5
        | none => false)
    | some (.lane, n), some _ => [0, 5, 6].contains (d.laneSt (Fin.ofNat 40 n))
    | some (.mpv, h), some _ => [0, 3].contains (d.mpvSt (Fin.ofNat 32 h))
    | some (.headctl, _), _ | some (.plyagt, _), _ => d.running.isNone && d.staged.isNone
    | some (.lattice, _), some _ => !d.latOn || (!d.latRuns && d.lat.recoat.isNone)
    | some (.bchg, k), some c => d.bchSpare (Fin.ofNat 8 k) = c && d.bch[Fin.ofNat 8 k].ho.isNone
    | some (.sramp, _), some p => p ≠ 2 && (List.range 6).all fun i => !d.marching (6 * p + i)
    | _, _ => true

/-- The scheduler's interval in cycles: mode A lowers the rate (R433, R449). -/
def Dev.sliceGap (d : Dev) : Nat := d.getF fltc R.FLTC_BIST_CTL 15 8 * 800000 * 8 / max 1 d.jNow

/-- SLICE_START (R433, R434): the next idle unit after the one tested last; units that are not idle are passed over. -/
def execSliceStart (r : Fin 16) (s : State) : Host.Outcome State Fault Refusal :=
  onLive (fun d =>
    let x := d.flt.slices[r]
    d.when (d.ready && d.getB fltc R.FLTC_BIST_CTL 0 && x.unit.isNone && decide (x.since + d.sliceGap ≤ d.now)) fun d =>
      let us := d.sliceUnits r
      let n := us.length
      let order := (List.range n).map fun i => (x.turn + i) % n
      let pick := order.find? fun i => match us[i]? with
        | some u => d.unitIdle ⟨r, Fin.ofNat 64 u.1⟩ u.2
        | none => false
      let set (u : Option (Nat × Option Nat)) (t : Nat) : Dev :=
        d.fltMod fun f => { f with slices := vmod f.slices r fun y => { y with unit := u, since := d.now, turn := t } }
      match pick with
      | none => set none x.turn
      | some i =>
        match us[i]? with
        | none => d
        | some u =>
          let b : Blk := ⟨r, Fin.ofNat 64 u.1⟩
          let d1 := (set (some u) ((i + 1) % n)).putB b R.BLK_STAT 2 true
          let old := d1.get b R.BIST_STAT
          d1.put b R.BIST_STAT (setFld (setFld (setFld (setFld old 1 0 1) 10 5 ((u.2.getD 0) % 64)) 11 11 u.2.isSome.toNat) 16 12
            (abandons x.fails u))) s

/-- The words of a unit's memory whose rows stand on its spare rows (R438). -/
def Dev.sparesOf (d : Dev) (b : Blk) (c : Option Nat) : List Nat :=
  match d.flt.spares.find? fun x => x.1 = b ∧ x.2.1 = c with
  | some x => x.2.2
  | none => []

/-- Map the rows of a unit's memory. -/
def Dev.setSpares (d : Dev) (b : Blk) (c : Option Nat) (ws : List Nat) : Dev :=
  d.fltMod fun f => { f with spares := (f.spares.filter fun x => ¬ (x.1 = b ∧ x.2.1 = c)) ++ [(b, c, ws)] }

/-- The journal record of a unit's row map (R438, R477; log 46, DESIGN CHOICE): the block's own memory has number 64. -/
def unitRec (b : Blk) (c : Option Nat) (ws : List Nat) : Nat × Word × List Byte :=
  (6, wd (b.region.val + b.block.val * 16 + (c.getD 64) * 1024), ws.flatMap (leBytes 2))

/-- A spare row is mapped by a slice, where one is left (R438; log 46, DEDUCED): 8 for an SRAM bank, else 2 per memory. -/
def Dev.sliceRepair (d : Dev) (b : Blk) (c : Option Nat) (word : Nat) : Dev :=
  let count (e : Dev) : Dev := (e.putB b R.BIST_STAT 4 true).bump fltc R.FLTC_BIST_REPAIRS
  match blkKind b, c with
  | some (.sramp, _), some p =>
    let bank := 6 * p + word / 8192
    let row := word % 8192 / 8
    let had := (spGet d.pool.rows bank).getD []
    if row ∈ had ∨ 8 ≤ had.length then d else count (d.bankRepair bank [row] true).1
  | _, _ =>
    let had := d.sparesOf b c
    if word ∈ had ∨ 2 ≤ had.length then d
    else (count (d.setSpares b c (had ++ [word]))).jAppend [unitRec b c (had ++ [word])]

/-- A slice of a unit has failed (R438). -/
def Dev.sliceFail (d : Dev) (b : Blk) (c : Option Nat) (word : BitVec 16) (bit_ : BitVec 7) (memory again : Bool) : Dev :=
  let bt := if memory then bit_.toNat else 0x7F
  let a := word.toNat + bt * 65536
  if again then d.raiseTrans b c 0x81 a
  else
    let d1 := ((d.putB b R.BIST_STAT 3 true).raise b c 0x81 a).bump fltc R.FLTC_BIST_FAILS
    let src := wd (b.region.val + b.block.val * 16 + (c.getD 0) % 64 * 1024 + c.isSome.toNat * 65536 + 2 ^ 31)
    let d2 := if d1.getB fltc R.FLTC_BIST_SRC 31 then d1
      else (d1.put fltc R.FLTC_BIST_SRC src).put fltc R.FLTC_BIST_ADDR (wd a)
    if memory ∧ d2.getB b R.BIST_CTL 1 then d2.sliceRepair b c word.toNat else d2

/-- SLICE_DONE (R435 to R438). -/
def execSliceDone (r : Fin 16) (res : SliceResult) (s : State) : Host.Outcome State Fault Refusal :=
  onLive (fun d =>
    match d.flt.slices[r].unit with
    | none => d
    | some u =>
      let b : Blk := ⟨r, Fin.ofNat 64 u.1⟩
      let d1 := d.fltMod fun f => { f with
        slices := vmod f.slices r fun y => { y with unit := none, cut := none, fails := setAbandons y.fails u 0 } }
      let st := d1.get b R.BIST_STAT
      let d2 := (d1.put b R.BIST_STAT (setFld (setFld (setFld st 1 0 0) 2 2 0) 16 12 0)).putB b R.BLK_STAT 2 false
      let d3 := match res with
        | .pass => d2
        | .fail w k mem again => d2.sliceFail b u.2 w k mem again
      if u.2.isNone then d3.bumpF b R.BIST_STAT 31 20 else d3) s

end Sys2Proof.Machine
end

