-- ==== Sys2Proof/Machine/Triggers.lean ====
section
/-! DEFINITION. Time triggers and the TMARK balls (R399 to R403, R405). -/

namespace Sys2Proof.Machine

/-- The programmed time of a trigger [ns]. -/
def Dev.trigTime (d : Dev) (t : Fin 8) : Nat :=
  (d.getN timeB R.TIME_TRIG_SEC_LO t.val + d.getN timeB R.TIME_TRIG_SEC_HI t.val * 2 ^ 32) * 1000000000 +
    d.getN timeB R.TIME_TRIG_NS t.val

/-- Change a trigger. -/
def Dev.trigMod (d : Dev) (t : Fin 8) (f : Trig → Trig) : Dev := d.timMod fun x => { x with trig := vmod x.trig t f }

/-- Change a ball. -/
def Dev.markMod (d : Dev) (i : Fin 4) (f : Mark → Mark) : Dev := d.timMod fun x => { x with marks := vmod x.marks i f }

/-- A trigger's time becomes current: one already reached fires late (R399). -/
def Dev.trigCur (d : Dev) (t : Fin 8) (next : Nat) : Dev := d.trigMod t fun _ => ⟨next, decide (next ≤ d.tim.ns)⟩

/-- A ball that no trigger claims is low (R401). -/
def Dev.marksLow (d : Dev) : Dev :=
  (List.finRange 4).foldl (fun (e : Dev) i =>
    if (e.holder timeB i.val).isSome then e else e.markMod i fun x => { x with level := false }) d

/-- A write of TIME_TRIG[t].CTL (R399, R401; log 47, DEDUCED). -/
def Dev.trigCtl (d : Dev) (t : Fin 8) (v0 : Word) : Dev :=
  let was := d.get timeB R.TIME_TRIG_CTL t.val
  let v := R.TIME_TRIG_CTL.write was v0
  let ball := fld v 6 5
  let wants := bit v 7 && decide (fld v 2 1 = 0)
  match if bit v 0 && wants then d.claimErr timeB ball timeB t.val else none with
  | some (code, h) =>
    let old := fldMask 7 5
    (d.put timeB R.TIME_TRIG_CTL (setBit ((v &&& ~~~old) ||| (was &&& old)) 0 false) t.val).put timeB R.TIME_CLAIM_ERR
      (claimWord code h ball)
  | none =>
    let d1 := (d.release timeB timeB t.val (if wants then some ball else none)).marksLow
    let d2 := (if bit v 0 && wants then d1.claim timeB ball timeB t.val else d1).put timeB R.TIME_TRIG_CTL v t.val
    if bit v 0 ∧ ¬ bit was 0 then (d2.put timeB R.TIME_TRIG_CNT 0 t.val).trigCur t (d2.trigTime t) else d2

/-- After a firing: the next time of a periodic trigger, or the end of the other (R399). -/
def Dev.trigNext (d : Dev) (t : Fin 8) : Dev :=
  if d.getB timeB R.TIME_TRIG_CTL 3 t.val then d.trigCur t (d.tim.trig[t].next + d.getN timeB R.TIME_TRIG_PERIOD t.val)
  else d.putB timeB R.TIME_TRIG_CTL 0 false t.val

/-- A firing is counted and reported (R400). -/
def Dev.trigCount (d : Dev) (t : Fin 8) : Dev :=
  let late := d.tim.trig[t].late
  let evt := d.getB timeB R.TIME_TRIG_CTL 4 t.val
  let d1 := d.bumpF timeB R.TIME_TRIG_CNT 15 0 1 t.val
  let d2 := if late then d1.bumpF timeB R.TIME_TRIG_CNT 23 16 1 t.val else d1
  let d3 := if evt then d2.timeEvent 4 else d2
  if evt && late then d3.timeEvent 5 else d3

/-- The action of a firing by KIND (R400). -/
def trigAct (m : Mem) (d : Dev) (t : Fin 8) : Mem × Dev :=
  match d.getF timeB R.TIME_TRIG_CTL 2 1 t.val with
  | 0 =>
    let i := Fin.ofNat 4 (d.getF timeB R.TIME_TRIG_CTL 6 5 t.val)
    (m, if d.holds timeB i.val timeB t.val then
      d.markMod i fun _ => ⟨true, d.now, d.getN timeB R.TIME_TRIG_WIDTH t.val⟩ else d)
  | 2 =>
    let w := d.get timeB R.TIME_TRIG_TARGET t.val
    let b : Blk := ⟨Fin.ofNat 16 (fld w 3 0), Fin.ofNat 64 (fld w 9 4)⟩
    let cmd := d.get timeB R.TIME_TRIG_OPCMD t.val
    let refused : Bool := fld cmd 31 28 = 1 && d.opState b ≠ 0
    let x := opCmdWrite m d b cmd
    (x.1, if refused then (x.2.bumpF timeB R.TIME_TRIG_CNT 31 24 1 t.val).raise timeB none 2 else x.2)
  | _ => (m, d)

/-- The clock reaches a trigger's time (R399, R400, R402): a cycle firing while a skein is staged or running is suppressed. -/
def trigFire (m : Mem) (d : Dev) (t : Fin 8) : Mem × Dev :=
  if ¬ d.up timeB ∨ ¬ d.getB timeB R.TIME_TRIG_CTL 0 t.val ∨ d.tim.ns < d.tim.trig[t].next then (m, d)
  else if d.getF timeB R.TIME_TRIG_CTL 2 1 t.val = 2 ∧ (d.staged.isSome ∨ d.running.isSome) then
    (m, (d.bumpF timeB R.TIME_TRIG_CNT 31 24 1 t.val).trigNext t)
  else
    let x := trigAct m (d.trigCount t) t
    (x.1, x.2.trigNext t)

/-- TRIGGER_FIRE (R399, R400, R402). -/
def execTriggerFire (t : Fin 8) (s : State) : Host.Outcome State Fault Refusal := onLiveMem (fun m d => trigFire m d t) s

/-- A firing of the cycle in which CTL is written with EN 0 takes effect (R403). -/
def fireFirst (m : Mem) (d : Dev) (t : Fin 8) (v : Word) (p : List Instr) : Mem × Dev :=
  if ¬ bit v 0 ∧ Instr.triggerFire t ∈ p then trigFire m d t else (m, d)

/-- TRIGGER_ARM (R399): a write of TIME_TRIG[t].CTL. -/
def execTriggerArm (t : Fin 8) (v : Word) (s : State) : Host.Outcome State Fault Refusal :=
  onLiveMem (fun m d =>
    let x := fireFirst m d t v s.pending
    (x.1, x.2.hostWrite timeB (0x200 + 0x20 * t.val) fun e => e.trigCtl t v)) s

/-- TMARK_PULSE_END (R400): WIDTH ns after the last firing the ball goes low. -/
def execTmarkPulseEnd (ball : Fin 4) (s : State) : Host.Outcome State Fault Refusal :=
  onLive (fun d =>
    let x := d.tim.marks[ball]
    d.when (x.level && d.pastNs x.since x.width) fun d => d.markMod ball fun y => { y with level := false }) s

/-- A write of TARGET: HEADCTL, SERVO, BCHG and PLYAGT, and blocks that do not exist, are refused (R402). -/
def Dev.trigTarget (d : Dev) (t : Fin 8) (v : Word) : Dev :=
  let bad : Bool := match blkKind ⟨Fin.ofNat 16 (fld v 3 0), Fin.ofNat 64 (fld v 9 4)⟩ with
    | none => true
    | some (k, _) => k = .headctl || k = .servo || k = .bchg || k = .plyagt
  if bad then d.put timeB R.TIME_CLAIM_ERR (claimWord 2 ⟨0, 0⟩ 0) else d.put timeB R.TIME_TRIG_TARGET (v &&& 0x3FF#32) t.val

/-- A write of another word of a trigger: discarded while EN is 1 (R399), kept where out of range (R405). -/
def Dev.trigWord (d : Dev) (t : Fin 8) (r : Reg) (v : Word) : Dev :=
  if d.getB timeB R.TIME_TRIG_CTL 0 t.val then d
  else if r = R.TIME_TRIG_TARGET then d.trigTarget t v
  else if r = R.TIME_TRIG_WIDTH then
    if 10 ≤ v.toNat ∧ v.toNat + 10 ≤ d.getN timeB R.TIME_TRIG_PERIOD t.val then d.put timeB r v t.val else d
  else d.put timeB r (r.write (d.get timeB r t.val) v) t.val

end Sys2Proof.Machine
end

