-- ==== Sys2Proof/Machine/Reset.lean ====
section
/-! DEFINITION. The reset inputs and chip reset (R484 to R486, R507): every unit outside AON returns to its power-on state,
and the start sequence begins at stage 1 (log 48, DEDUCED). -/

namespace Sys2Proof.Machine

/-- BOOT. -/
def bootB : Blk := blk .boot 0

/-- The device in power-on or chip reset: AON, the flash, the pins and the test access port stay. -/
def Dev.unitsReset (d : Dev) : Dev :=
  let f := d.flashCut
  let inAon (a : Nat) : Bool := badr aon 0 ≤ a && a < badr aon 0x1000
  { Dev.init with
    fresh := f.fresh
    cpl := d.cpl
    regs := f.regs.filter fun x => inAon x.1
    jrn := { Jrn.init with areas := f.jrn.areas, torn := f.jrn.torn, tail := f.jrn.tail }
    boot := { d.boot with edge := 0, stageAt := 0, fuseOk := false, lanesEnd := false, fillEnd := false, debugOn := false } }

/-- A migration does not outlive a reset: every rank is filled anew (R493). -/
def Mem.noMigs (m : Mem) : Mem := { m with migs := Vector.replicate 2 none }

/-- The reset of every unit outside AON. -/
def coreReset (m : Mem) (d : Dev) : Mem × Dev := (m.noMigs, d.unitsReset)

/-- The end of a reset: stage 1 begins where no other reset input holds the device (R484, R487). -/
def Dev.bootStart (d : Dev) (chip por test : Bool) : Dev :=
  if d.boot.porst && d.boot.chiprst && d.boot.supply then
    ({ d with boot := { d.boot with edge := d.now, stageAt := d.now } } : Dev).put bootB R.BOOT_STAT
      (wd (1 + test.toNat * 32 + chip.toNat * 128 + por.toNat * 256))
  else d

/-- Change a pin of the device. -/
def Dev.pins (d : Dev) (f : Boot → Boot) : Dev := { d with boot := f d.boot }

/-- PORST_N_ASSERT (R484). -/
def execPorstNAssert (s : State) : Host.Outcome State Fault Refusal :=
  onMem (fun m d => if d.boot.porst then coreReset m (d.pins fun b => { b with porst := false }) else (m, d)) s

/-- PORST_N_RELEASE (R484). -/
def execPorstNRelease (testReq : Bool) (s : State) : Host.Outcome State Fault Refusal :=
  onDev (fun d => if d.boot.porst then d else (d.pins fun b => { b with porst := true }).bootStart false true testReq) s

/-- CHIPRST_N_ASSERT (R484). -/
def execChiprstNAssert (s : State) : Host.Outcome State Fault Refusal :=
  onMem (fun m d => if d.boot.chiprst then coreReset m (d.pins fun b => { b with chiprst := false }) else (m, d)) s

/-- CHIPRST_N_RELEASE (R484). -/
def execChiprstNRelease (testReq : Bool) (s : State) : Host.Outcome State Fault Refusal :=
  onDev (fun d => if d.boot.chiprst then d else (d.pins fun b => { b with chiprst := true }).bootStart true false testReq) s

/-- SUPPLY_LOW (R507): as a falling PORST_N. -/
def execSupplyLow (s : State) : Host.Outcome State Fault Refusal :=
  onMem (fun m d => if d.boot.supply then coreReset m (d.pins fun b => { b with supply := false }) else (m, d)) s

/-- SUPPLY_RESTORED (R507): the start counts as one from PORST_N, and TEST_REQ is not sampled (log 48, DEDUCED). -/
def execSupplyRestored (s : State) : Host.Outcome State Fault Refusal :=
  onDev (fun d => if d.boot.supply then d else (d.pins fun b => { b with supply := true }).bootStart false true false) s

/-- A write of BOOT_RST (R486). -/
def rstWrite (m : Mem) (d : Dev) (v : Word) : Mem × Dev :=
  if v = 0x5A5A3200#32 then
    let x := coreReset m d
    (x.1, x.2.bootStart true false false)
  else (m, d)

/-- BOOT_RST (R486). -/
def execBootRst (v : Word) (s : State) : Host.Outcome State Fault Refusal :=
  onLiveMem (fun m d => hostWriteMem m d bootB 0x104 fun x e => rstWrite x e v) s

/-- PERST_N (R484): low, the endpoint's link and MSI-X table are reset; high, the link may train from the end of stage 1
on (log 48, DEDUCED). -/
def execPerstN (level : Bool) (linkUp : Option LinkUp) (s : State) : Host.Outcome State Fault Refusal :=
  onDev (fun d =>
    let d1 := d.pins fun b => { b with perst := level }
    if ¬ level then
      let e := d1.put hif R.HIF_LINK 0
      { e with regs := e.regs.filter fun x => ¬ (badr hif 0x800 ≤ x.1 ∧ x.1 < badr hif 0xC00) }
    else match linkUp with
      | none => d1
      | some l =>
        if ¬ d.dead ∧ d.boot.fuseOk then d1.put hif R.HIF_LINK (wd (l.speed.toNat + l.width.toNat * 16)) else d1) s

/-- The levels of LGATE[0] to LGATE[31]: the boundary register drives them while EXTEST is selected (R442). -/
def Dev.gates (d : Dev) : BitVec 32 :=
  match d.boot.extest with
  | some v => v
  | none => wd ((List.finRange 32).foldl (fun n h => n + (d.lgate h).toNat * 2 ^ h.val) 0)

/-- TAP_INSTRUCTION (R441, R442): what the selected register shifts out stands in `tap`. -/
def execTapInstruction (i : TapInstr) (s : State) : Host.Outcome State Fault Refusal :=
  let sel (f : Dev → Boot → Boot) : Host.Outcome State Fault Refusal := onDev (fun d => d.pins (f d)) s
  match i with
  | .bypass => sel fun _ b => { b with extest := none, tap := 0 }
  | .idcode => sel fun _ b => { b with
      extest := none
      tap := (Config.idRevision ++ (0x3200#16 ++ (Config.fuseManufacturer ++ 1#1))) }
  | .samplePreload v => sel fun d b => { b with extest := none, tap := d.gates, bsr := v }
  | .extest => sel fun d b => { b with extest := some b.bsr, tap := d.gates }
  | .scan =>
    if s.dev.boot.debugOn then .refused .internalScan else sel fun _ b => { b with extest := none, tap := 0 }

end Sys2Proof.Machine
end

