-- ==== Sys2Proof/Machine/Ready.lean ====
section
/-! DEFINITION. Stages of the start sequence and host-ready (R487, R495 to R499). -/

namespace Sys2Proof.Machine

/-- Microseconds since the reset edge. -/
def Dev.bootUs (d : Dev) : Nat := (d.now - d.boot.edge) / 800

/-- A stage ends: its time is taken, and the next stage begins (R487). -/
def Dev.stageEnd (d : Dev) (s next : Nat) : Dev :=
  let d1 := (d.put bootB R.BOOT_T (wd d.bootUs) s).putF bootB R.BOOT_STAT 3 0 next
  { d1 with boot := { d1.boot with stageAt := d1.now } }

/-- An event of the start sequence takes place in its stage only. -/
def Dev.inStage (d : Dev) (s : Nat) : Bool := d.stage = s

/-- The committed records of the live area, in order. -/
def Dev.replayRecs (d : Dev) : List JRec := d.jrn.areas[d.jLive].recs.map fun r => r.2

/-- A lane that no longer keeps stage 6 open (R495). -/
def Dev.laneSettled (d : Dev) (n : Fin 40) : Bool :=
  !bit (d.lget n R.LANE_CTL) 0 || [0, 1, 4, 5, 6].contains (d.laneSt n)

/-- The journal holds a repair map as it is. -/
def Dev.repairKnown (d : Dev) (r : Nat × Word × List Byte) : Bool :=
  match (d.replayRecs.filter fun x => x.type = 6 ∧ x.key = r.2.1).getLast? with
  | some x => x.data = r.2.2
  | none => false

/-- The repair maps found in stage 3 that the journal does not hold (R499). -/
def Dev.repairAppends (d : Dev) : Dev :=
  let maps := (d.pool.rows.filter fun x => x.2 ≠ []).map fun x => repairRec x.1 x.2
  let repl := d.pool.repl.map fun x => repairRec x.1 [0xFFFF, x.2]
  (maps ++ repl).foldl (fun (e : Dev) r => if d.repairKnown r then e else e.jAppend [r]) d

/-- Host-ready (R430, R454, R496, R499). -/
def Dev.hostReady (d : Dev) : Dev :=
  d.when (d.inStage 6 && d.boot.fillEnd && (d.boot.lanesEnd || (List.finRange 40).all fun n => d.laneSettled n)) fun d =>
    let d1 := ((d.stageEnd 6 7).putB bootB R.BOOT_STAT 4 true).put bootB R.BOOT_T (wd d.bootUs) 7
    let d2 := d1.aliveStart
    let d3 := regions.foldl (fun (e : Dev) r =>
      (blksOf r).foldl (fun (f : Dev) b => if f.fence b = 3 then f else f.wakeAsk b) e) d2
    d3.repairAppends

/-- A host write in the cycle of host-ready is served by the block (R497): host-ready waits in the queue and is due. -/
def Dev.readyFirst (d : Dev) (p : List Instr) : Dev := if ¬ d.ready ∧ Instr.hostReady ∈ p then d.hostReady else d

end Sys2Proof.Machine
end

