-- ==== Sys2Proof/Machine/RegWrite.lean ====
section
/-! DEFINITION. A host write to any register (R5, R33, R36 to R38, R53): what each register does with the value. Registers
whose writes have a command of their own do here what that command does. -/

namespace Sys2Proof.Machine

/-- A write of a register that stores what is written, within its bits and ranges (R5, R6). -/
def Dev.plainWrite (d : Dev) (b : Blk) (t : BT) (o : Nat) (v : Word) : Dev :=
  match regAt t o with
  | none => d
  | some (r, i, j) =>
    let old := d.get b r i j
    if r.acc = .rw then d.put b r ((old &&& ~~~r.mask) ||| r.write old v) i j
    else d.put b r (r.write old v) i j

/-- The header of a block (R42 to R47, R427, R439). -/
def headerWrite (m : Mem) (d : Dev) (b : Blk) (o : Nat) (v : Word) : Mem × Dev :=
  if o = 0x008 then blkCtlWrite m d b v
  else if o = 0x010 then (m, d.put b R.FLT_STAT (d.get b R.FLT_STAT &&& ~~~v))
  else if o = 0x014 then (m, d.forceWrite b v 0)
  else if o = 0x018 then (m, d.put b R.FLT_MASK (v &&& kindsOf b))
  else if o = 0x01C then (m, d.put b R.FLT_REACT (R.FLT_REACT.write (d.get b R.FLT_REACT) v))
  else if o = 0x020 then opCmdWrite m d b v
  else if o = 0x040 then (m, d.bistWrite b v 0)
  else (m, d)

/-- Bits of a word, in turn. -/
def Dev.eachBit (d : Dev) (n : Nat) (v : Word) (lo : Nat) (f : Dev → Nat → Dev) : Dev :=
  (List.range n).foldl (fun (e : Dev) i => if bit v (lo + i) then f e i else e) d

/-- HIF (R58, R59): vectors may become open; pending bits are cleared. -/
def Dev.hifWrite (d : Dev) (o : Nat) (v : Word) : Dev :=
  if o = 0x120 then d.vClear 0 v else if o = 0x124 then d.vClear 1 v else (d.plainWrite hif .hif o v).vOpened d

/-- CREEL (R80, R84, R85, R87, R90). -/
def creelWrite (m : Mem) (d : Dev) (o : Nat) (v : Word) : Mem × Dev :=
  if o = 0x200 then
    let d1 := if bit v 0 then d.skeinGo else d
    let d2 := if bit v 1 then d1.skeinAbort m else d1
    (m, if bit v 2 then d2.skeinDrop else d2)
  else if 0x100 ≤ o ∧ o < 0x200 ∧ o % 0x20 = 0x0C then (m, d.ringCtl m (Fin.ofNat 8 ((o - 0x100) / 0x20)) v)
  else if 0x100 ≤ o ∧ o < 0x200 ∧ o % 0x20 = 0x14 then (m, d.tailWrite (Fin.ofNat 8 ((o - 0x100) / 0x20)) v)
  else (m, d.plainWrite creelB .creel o v)

/-- KEYST (R75). -/
def Dev.keystWrite (d : Dev) (o : Nat) (v : Word) : Dev :=
  if 0x100 ≤ o ∧ o < 0x120 then { d with keyStage := d.keyStage.set ((o - 0x100) / 4) v }
  else if o = 0x120 then
    let k : Fin 32 := Fin.ofNat 32 (fld v 4 0)
    let d1 := if bit v 8 then d.keyLoad k else d
    if bit v 9 then d1.keyErase k else d1
  else d

/-- FLTC (R416, R417, R421, R431, R432, R443); bits of FLTC_ARM beyond a type's kinds are reserved (R6). -/
def Dev.fltcWrite (d : Dev) (o : Nat) (v : Word) : Dev :=
  if o = 0x10C then d.fltPop v
  else if o = 0x120 then d.aliveRestart v
  else if o = 0x124 then d.wdogSet v
  else if o = 0x128 then d.wdogKick
  else if o = 0x180 then d.cfClear ⟨Fin.ofNat 16 (fld v 3 0), Fin.ofNat 64 (fld v 9 4)⟩ (fld v 15 10)
  else if 0x400 ≤ o ∧ o % 8 = 0 then
    d.plainWrite fltc .fltc o (v &&& ((armTypes[(o - 0x400) / 8]?).map BT.kinds).getD 0)
  else d.plainWrite fltc .fltc o v

/-- TIME (R391, R395, R396, R399 to R405). -/
def Dev.timeWrite (d : Dev) (o : Nat) (v : Word) : Dev :=
  if o = 0x124 then if bit v 0 then d.setClock else d
  else if 0x200 ≤ o ∧ o < 0x300 then
    let t : Fin 8 := Fin.ofNat 8 ((o - 0x200) / 0x20)
    if o % 0x20 = 0 then d.trigCtl t v
    else match regAt .time o with
      | some (r, _, _) => d.trigWord t r v
      | none => d
  else
    let d1 := d.plainWrite timeB .time o v
    if o = 0x100 then (d1.portStarts d).portsChanged else if o = 0x12C ∨ o = 0x130 then d1.portsChanged else d1

/-- THERM (R448, R457). -/
def Dev.thermWrite (d : Dev) (o : Nat) (v : Word) : Dev :=
  let ok : Bool := fld v 7 0 < fld v 15 8 && fld v 15 8 < fld v 23 16 && fld v 23 16 ≤ 125 && 1 ≤ fld v 31 24 && fld v 31 24 ≤ 15
  if o = 0x100 then d.modeWrite v
  else if 0x400 ≤ o ∧ o < 0x500 then if ok then d.plainWrite therm .therm o v else d
  else d.plainWrite therm .therm o v

/-- AON (R451, R452, R459): STBY_LOST can only be cleared. -/
def Dev.aonWrite (d : Dev) (o : Nat) (v : Word) : Dev :=
  if o = 0x100 then d.put aon R.AON_STAT (d.get aon R.AON_STAT &&& (v ||| ~~~4#32))
  else if o = 0x104 then if bit v 0 then d.putB aon R.AON_STAT 0 false else d
  else d

/-- SDC (R360, R367, R376, R388): a rate lies on the steps of R360, and enabling the scrubber begins a pass. -/
def Dev.sdcWrite (d : Dev) (ch : Fin 2) (o : Nat) (v : Word) : Dev :=
  let b := sdcB ch
  if o = 0x100 then
    let rate := if fld v 31 16 % 400 = 0 then fld v 31 16 else d.getF b R.SDC_CFG 31 16
    d.plainWrite b .sdc o (setFld v 31 16 rate)
  else
    let d1 := d.plainWrite b .sdc o v
    if o = 0x144 ∧ ¬ d.getB b R.SDC_SCRUB 0 ∧ bit v 0 then d1.sdcMod ch fun c => { c with scrub := 0, scrubT := d.now }
    else if o = 0x10C then ((d1.putB b R.SDC_REF_CTL 0 (d.getB b R.SDC_REF_CTL 0)).refDis ch (bit v 0)) else d1

/-- A write of SRAMP_ACC_DATA (R381, R383). -/
def Dev.accWrite (d : Dev) (v : Word) : Dev :=
  let a := d.getF sramp R.SRAMP_ACC_ADDR 24 2 * 4
  let bank := a / 65536
  let d1 := d.putF sramp R.SRAMP_ACC_ADDR 24 2 (a / 4 + 1)
  if d.bankStatus bank ≠ 0 then d1.logErr (d.bankStatus bank) (badr sramp 0x110) false
  else if 16 ≤ bank ∧ bank < 48 then d1
  else d1.poolMod fun p => { p with words := spPut p.words a v }

/-- SRAMP (R383, R390). -/
def Dev.srampWrite (d : Dev) (o : Nat) (v : Word) : Dev :=
  if o = 0x110 then d.accWrite v
  else if o = 0x114 then if fld v 7 4 < fld v 3 0 then d.plainWrite sramp .sramp o v else d
  else d.plainWrite sramp .sramp o v

/-- LPIPE (R280, R284, R293, R295). -/
def Dev.lpipeWrite (d : Dev) (p : Fin 2) (o : Nat) (v : Word) : Dev :=
  if o = 0x100 then d.lpipeCtl p v
  else if o = 0x108 then d.bindWrite p v
  else if o = 0x10C then
    let d1 := if bit v 0 then d.bindNext p else d
    if bit v 1 then d1.armCheck p else d1
  else d.plainWrite (lpB p) .lpipe o v

/-- LIGHT (R287, R290, R294, R297). -/
def Dev.lightWrite (d : Dev) (o : Nat) (v : Word) : Dev :=
  if o = 0x200 then
    let d1 := d.eachBit 4 v 0 fun e i => e.lgtWant (Fin.ofNat 4 i)
    d1.eachBit 4 v 8 fun e i => e.putB light R.LGT_STAT 3 true i
  else if 0x100 ≤ o ∧ o < 0x200 ∧ o % 0x40 = 0 then d.lgtCfgWrite (Fin.ofNat 4 ((o - 0x100) / 0x40)) v
  else d.plainWrite light .light o v

/-- LATTICE (R250, R275): a new origin or pitch is pending until it is taken up. -/
def Dev.latticeWrite (d : Dev) (o : Nat) (v : Word) : Dev :=
  let a := badr latB o
  let d1 := (match regAt .lattice o with
    | some (r, i, j) => d.latKeep a (d.get latB r i j)
    | none => d).plainWrite latB .lattice o v
  if o = 0x10C ∨ o = 0x110 ∨ o = 0x114 then d1.putB latB R.LAT_STAT 3 true else d1

/-- A coefficient of a cell's shadow set is written: PEND is set (R177). -/
def Dev.shadowWrite (d : Dev) (b : Blk) (t : BT) (o c : Nat) (v : Word) : Dev :=
  let d1 := d.plainWrite b t o v
  if t = .servo then d1.putB b R.SRV_CSTAT 5 true c else d1

/-- SERVO (R175, R177, R183, R184). -/
def Dev.servoWrite (d : Dev) (k : Nat) (o : Nat) (v : Word) : Dev :=
  let b := blk .servo k
  if o = 0xD04 then d.applyWrite (24 * k) 24 v
  else if 0x100 ≤ o ∧ o < 0xD00 then
    let c := (o - 0x100) / 0x80
    let x := (o - 0x100) % 0x80
    if x = 0x50 then d.cctlWrite (Fin.ofNat 256 (24 * k + c)) v
    else if x < 0x48 then d.shadowWrite b .servo o c v
    else d.plainWrite b .servo o v
  else d.plainWrite b .servo o v

/-- MSPIN (R330, R341 to R343, R347, R350, R357, R358). -/
def mspinWrite (m : Mem) (d : Dev) (k : Nat) (o : Nat) (v : Word) (rv : List Rival) : Mem × Dev :=
  let b := blk .mspin k
  if o = 0x900 then (m, d.applyWrite (192 + 8 * k) 8 v)
  else if 0x100 ≤ o ∧ o < 0x900 then
    let c := (o - 0x100) / 0x100
    let x := o % 0x100
    let n : Fin 64 := Fin.ofNat 64 (8 * k + c)
    if x = 0x50 then (m, d.cctlWrite (mspI n) v)
    else if x = 0x58 then (m, d.mcfg n v rv)
    else if x = 0x60 then (m, d.mcmd n v)
    else if x = 0x70 then (m, d.mtarget n v)
    else if 0x74 ≤ x ∧ x ≤ 0x94 then (m, d.mprofWrite n ((x - 0x74) / 4) v)
    else if x = 0x98 then (m, if fld v 23 16 < fld v 31 24 then d.plainWrite b .mspin o v else d)
    else if x = 0xBC then cmpCtl m d n v rv
    else (m, d.plainWrite b .mspin o v)
  else (m, d.plainWrite b .mspin o v)

/-- A preset's taps are within the limits of R300. -/
def presetOk (v : Word) : Bool :=
  let pre := fld v 3 0
  let main := fld v 9 4
  let post := fld v 14 10
  24 ≤ main && pre + main + post ≤ 63

/-- LANE (R300, R317, R318, R325, R326). -/
def laneWrite (m : Mem) (d : Dev) (n : Fin 40) (o : Nat) (v : Word) : Mem × Dev :=
  let b := laneB n
  if o = 0x100 then laneCtl m d n v
  else if o = 0x108 then
    let d1 := if bit v 0 then d.trainCmd n else d
    let d2 := if bit v 1 then d1.retrainCmd m n else d1
    let d3 := if bit v 4 then d2.injHere n 1 else d2
    (m, if bit v 5 then d3.injHere n (d3.injBits n) else d3)
  else if 0x130 ≤ o ∧ o < 0x150 then (m, if presetOk v then d.plainWrite b .lane o v else d)
  else (m, d.plainWrite b .lane o v)

/-- The Traveller's registers whose writes take effect at the next servo tick (R154). -/
def tickRegs : List Reg :=
  [R.TRV_CTL, R.TRV_IDLE_CODE, R.TRV_VMIN, R.TRV_DEV_MAX, R.TRV_SETTLE_TOL, R.TRV_WEB_CTL, R.TRV_WEB_SCALE, R.TRV_WEB_DUR]

/-- HEADCTL (R109, R110, R154, R354). -/
def Dev.headWrite (d : Dev) (h : Fin 32) (o : Nat) (v : Word) : Dev :=
  if o = 0x110 then d.capWrite h v
  else
    let d0 := match tickRegs.find? fun r => r.off = o with
      | some r => d.keepPrior (headB h) r
      | none => d
    let d1 := d0.plainWrite (headB h) .headctl o v
    if o = 0x270 then d1.webForce else d1

/-- MPV (R222, R244, R247, R248): a guest is never the head itself. -/
def Dev.mpvWrite (d : Dev) (h : Fin 32) (o : Nat) (v : Word) : Dev :=
  if o = 0x100 then d.mpvCtl h v
  else if o = 0x134 then if bit v 0 then d.mpvCommit h else d
  else if o = 0x108 ∧ fld v 1 0 = h.val % 4 then
    d.plainWrite (mpvB h) .mpv o (setFld v 1 0 (d.getF (mpvB h) R.MPV_GUEST 1 0))
  else d.plainWrite (mpvB h) .mpv o v

/-- What a write of `v` to page offset `o` of a block does; `rv` are the claims that other commands of the cycle bring. -/
def writeReg (m : Mem) (d : Dev) (b : Blk) (o : Nat) (v : Word) (rv : List Rival := []) : Mem × Dev :=
  if o < 0x100 then headerWrite m d b o v
  else match blkKind b with
    | none => (m, d)
    | some (t, n) =>
      match t with
      | .hif => (m, d.hifWrite o v)
      | .optab => (m, if o = 0x104 then d.retire (fld v 7 0) else d)
      | .creel => creelWrite m d o v
      | .fltc => (m, d.fltcWrite o v)
      | .time => (m, d.timeWrite o v)
      | .therm => (m, d.thermWrite o v)
      | .boot => if o = 0x104 then rstWrite m d v else (m, d.plainWrite b .boot o v)
      | .aon => (m, d.aonWrite o v)
      | .sdc => (m, d.sdcWrite (Fin.ofNat 2 n) o v)
      | .sramp => (m, d.srampWrite o v)
      | .keyst => (m, d.keystWrite o v)
      | .lpipe => (m, d.lpipeWrite (Fin.ofNat 2 n) o v)
      | .light => (m, d.lightWrite o v)
      | .lattice => (m, d.latticeWrite o v)
      | .mspin => mspinWrite m d n o v rv
      | .lane => laneWrite m d (Fin.ofNat 40 n) o v
      | .headctl => (m, d.headWrite (Fin.ofNat 32 n) o v)
      | .servo => (m, d.servoWrite n o v)
      | .mpv => (m, d.mpvWrite (Fin.ofNat 32 n) o v)
      | .mpg =>
        let p : Fin 16 := Fin.ofNat 16 (4 * n + (o - 0x100) / 0x20)
        if 0x100 ≤ o ∧ o < 0x180 ∧ o % 0x20 = 0x0C then polChange m (d.plainWrite b t o v) p (d.portPol p) else (m, d.plainWrite b t o v)
      | .jrnl => (m, if o = 0x100 then (d.plainWrite b t o v).jFull else d.plainWrite b t o v)
      | .march | .csirx | .plyarb | .bchg | .plyagt => (m, d.plainWrite b t o v)

/-- The block of a BAR0 address (R34). -/
def addrBlk (a : Nat) : Blk := ⟨Fin.ofNat 16 (a / 0x100000), Fin.ofNat 64 (a % 0x100000 / 0x1000)⟩

/-- The address lies in no page of a block: above the 64 pages of its region (R36). -/
def addrAbsent (a : Nat) : Bool := 0x40000 ≤ a % 0x100000

/-- The status of an access to an address that lies in no page (R36, R489, R497). -/
def Dev.absentErr (d : Dev) : Nat := if d.stage = 8 ∨ ¬ d.ready then 2 else 3

/-- A write to LANE_CMD that only injects bits during a pattern test is served (R325; log 33, DEDUCED). -/
def Dev.injOnly (d : Dev) (b : Blk) (o : Nat) (v : Word) : Bool :=
  match blkKind b with
  | some (.lane, n) => o = 0x108 && d.laneSt (Fin.ofNat 40 n) = 7 && (bit v 4 || bit v 5)
  | _ => false

/-- A write of LANE_CMD loses RETRAIN where a waiting command of the cycle brings an earlier step of R317. -/
def Dev.laneLeft (d : Dev) (p : List Instr) (b : Blk) (o : Nat) (v : Word) : Word :=
  match blkKind b with
  | some (.lane, n) => if o = 0x108 ∧ d.outranked (Fin.ofNat 40 n) p 8 then v &&& ~~~2#32 else v
  | _ => v

/-- REGISTER_WRITE (R5, R33, R36, R38). -/
def execRegisterWrite (addr : BitVec 24) (v : Word) (s : State) : Host.Outcome State Fault Refusal :=
  onLiveMem (fun m d0 =>
    let d := d0.readyFirst s.pending
    let a := addr.toNat
    let b := addrBlk a
    let o := a % 0x1000
    if ¬ d.hostOk then (m, d)
    else if a % 4 ≠ 0 then (m, d.logErr 8 a false)
    else if addrAbsent a then (m, d.logErr d.absentErr a false)
    else if d.injOnly b o v then
      match blkKind b with
      | some (_, n) =>
        let l : Fin 40 := Fin.ofNat 40 n
        let d1 := if bit v 4 then d.laneInj l 1 s.pending else d
        (m, if bit v 5 then d1.laneInj l (d1.injBits l) s.pending else d1)
      | none => (m, d)
    else
      let y := if b = timeB ∧ 0x200 ≤ o ∧ o < 0x300 ∧ o % 0x20 = 0 then fireFirst m d (Fin.ofNat 8 ((o - 0x200) / 0x20)) v s.pending else (m, d)
      hostWriteMem y.1 y.2 b o fun x e => writeReg x e b o (e.laneLeft s.pending b o v) s.rivals) s

end Sys2Proof.Machine
end

