-- ==== Sys2Proof/Machine/RegRead.lean ====
section
/-! DEFINITION. A host read of any register (R5, R6, R33, R36 to R38, R52): the words that show what stands elsewhere in the
state, the reads that clear, and the reads that latch other words. -/

namespace Sys2Proof.Machine

/-! What registers show. -/

/-- The header (R42, R43, R439). -/
def Dev.headerView (d : Dev) (b : Blk) (t : BT) (n o : Nat) : Option Word :=
  match o with
  | 0x000 => some (wd (1 + n * 256 + t.code * 65536))
  | 0x004 => some (blkCap t)
  | 0x00C => some (setBit (setBit (d.get b R.BLK_STAT) 0 (d.opBusy b)) 3 (d.shadowBit b))
  | 0x040 => if hasBist t then none else some 0
  | 0x044 => if hasBist t then none else some 0
  | _ => none

/-- OPTAB (R54). -/
def Dev.optabView (d : Dev) (o : Nat) : Option Word :=
  let entry (n : Nat) : Option OpRec := d.ops.find? fun x => x.entry = some n
  if o = 0x100 then some (wd (d.opsIn + min 65535 d.opsOut * 65536))
  else if o = 0x108 then
    some (match d.fullAt with
      | some t => wd (min 0x1FFFF ((d.now - t) / 800000))
      | none => 0)
  else if 0x110 ≤ o ∧ o < 0x130 then
    some (wd ((List.range 32).foldl (fun n j => match entry (32 * ((o - 0x110) / 4) + j) with
      | some x => if d.opBusy x.blk then n else n + 2 ^ j
      | none => n) 0))
  else if 0x800 ≤ o then
    match entry ((o - 0x800) / 8), o % 8 with
    | some x, 0 => some (d.get x.blk R.OP_STAT)
    | some x, _ => some (wd (x.blk.region.val + x.blk.block.val * 16 + x.code * 65536 + 2 ^ 31))
    | none, _ => some 0
  else none

/-- HIF (R59): a bit of the pending bit array stands while its vector is pending and not open, or its message is held back by
the gap (log 14, PRESUMED). -/
def Dev.hifView (d : Dev) (o : Nat) : Option Word :=
  if o = 0x100 then some (0x3200#16 ++ Config.fuseVendor)
  else if 0xC00 ≤ o then
    let k := 32 * ((o - 0xC00) / 4)
    some (wd ((List.range 32).foldl (fun n j => n + (d.vPend (k + j) && !d.vOpen (k + j) || d.vecs[Fin.ofNat 64 (k + j)].held).toNat * 2 ^ j) 0))
  else none

/-- A word of a schedule entry (R133). -/
def entWord (e : Option Ent) (w : Nat) : Word :=
  match e with
  | none => 0
  | some e =>
    let a := uns 40 e.arc
    match w with
    | 0 => wd a
    | 1 => wd (a / 2 ^ 32 + e.kind % 16 * 256 + e.src.toNat * 4096 + e.adm.toNat * 8192 + e.pwr % 65536 * 65536)
    | 2 => wd (e.bob % 256)
    | _ => if e.kind = 6 then wd e.dur else 0

/-- Every entry that has not fired, in order (R133, R134): committed ones and a dwell's end among them. -/
def Trv.unfired (t : Trv) : List Ent :=
  ((t.edges.map (·.ent)).filter (fun e => e.kind ≠ 0) ++ (t.dwellAt.map (·.2)).toList).foldr (fun e l => insertEnt l e) t.sched

/-- HEADCTL (R121, R133, R154, R277). -/
def Dev.headView (d : Dev) (h : Fin 32) (o i : Nat) : Option Word :=
  let b := headB h
  let f := d.heads[h].drf
  let t := d.heads[h].trv
  if o = 0x104 then
    some (wd (f.st % 8 + min 63 f.moves.length * 256 + min 511 (f.fetch.length + f.items.length) * 65536 +
      (d.getB b R.DRF_STAT 25).toNat * 2 ^ 25))
  else if o = 0x204 then
    some (setFld (setFld (setBit (d.get b R.TRV_STAT) 3 t.gate) 14 8 t.unfired.length) 20 16
      (t.unfired.filter fun e => e.src).length)
  else if o = 0x30C then some (d.corFF h)
  else if 0x800 ≤ o ∧ o % 16 = 0 then some (entWord t.unfired[i]? 0)
  else none

/-- PLYARB (R216, R217). -/
def Dev.plyView (d : Dev) (o i j : Nat) : Option Word :=
  let h : Fin 32 := Fin.ofNat 32 i
  let x := d.ply.heads[h]
  if o = 0x104 then
    some (setBit (setFld (d.get plyB R.PLY_STAT) 12 8 (match d.ply.token with
      | some k => k.val
      | none => 0)) 15 d.ply.token.isSome)
  else if 0x200 ≤ o ∧ o < 0x280 then
    let st : Nat := if ¬ d.rep.present.getLsbD i then 0 else if d.rep.lost.getLsbD i then 4
      else if x.boxes ≠ [] then 3 else if x.req.isSome then 2 else 1
    some (wd (st + min 31 x.count * 256 + (decide (31 ≤ x.count)).toNat * 8192))
  else if 0x280 ≤ o ∧ o < 0x300 then some (wd (min (2 ^ 32 - 1) (d.rem h).floor.toNat))
  else if 0x400 ≤ o then
    let box : Option PBox := match x.boxes.getLast?, x.req with
      | some c, _ => some c
      | none, some r => some r.1
      | none, none => none
    some (match box with
      | none => 0
      | some c => wi (match j with
        | 0 => c.x0
        | 1 => c.y0
        | 2 => c.x1
        | _ => c.y1))
  else none

/-- AGT_STAT (R219). -/
def Dev.agtView (d : Dev) (k : Nat) (o i : Nat) : Option Word :=
  let h : Fin 32 := Fin.ofNat 32 (4 * k + i)
  let x := d.ply.heads[h]
  if 0x100 ≤ o ∧ o % 0x20 = 0 then
    let offer : Nat := if d.standing h then 2 else if d.slotOpen h then 1 else 0
    some (wd (offer + (!x.items.isEmpty).toNat * 4 + x.req.isSome.toNat * 8 + (!x.boxes.isEmpty).toNat * 16 +
      (d.running.isSome && d.rep.lost.getLsbD h.val).toNat * 32 + min 511 d.heads[h].drf.handOver.length * 64))
  else none

/-- MPG (R353, R359): the holder of each pin, and of each BiSS-C master. -/
def Dev.mpgView (d : Dev) (b : Blk) (o i : Nat) : Option Word :=
  let kind (ix : Nat) : Nat := match d.holder b ix with
    | none => 0
    | some c => if c.by_ = light then 4 else c.sub % 4 + 1
  if 0x100 ≤ o ∧ o < 0x180 ∧ o % 0x20 = 0x14 then
    some (wd ((List.range 4).foldl (fun n p => n + kind (4 * i + p) * 16 ^ p) 0))
  else if 0x200 ≤ o ∧ o % 8 = 4 then
    some (match d.holder b (16 + i) with
      | some c => setFld (setBit (d.get b R.MPG_BISS_STAT i) 2 true) 1 0 (c.sub / 4 % 4)
      | none => setFld (d.get b R.MPG_BISS_STAT i) 2 0 0)
  else none

/-- TIME (R393, R404, R405): an armed trigger shows the time of its next firing. -/
def Dev.timeView (d : Dev) (o i : Nat) : Option Word :=
  let t : Fin 8 := Fin.ofNat 8 i
  let on_ := d.getB timeB R.TIME_TRIG_CTL 0 i
  let next := d.tim.trig[t].next
  if o = 0x104 then some (setBit (d.get timeB R.TIME_STAT) 1 d.synced)
  else if o = 0x10C then some (wd (d.tim.ns / 1000000000))
  else if 0x200 ≤ o ∧ o < 0x300 ∧ on_ = true then
    match o % 0x20 with
    | 0x04 => some (wd (next / 1000000000))
    | 0x08 => some (wd (next / 1000000000 / 2 ^ 32))
    | 0x0C => some (wd (next % 1000000000))
    | _ => none
  else none

/-- A word of the oldest queue entry (R415). -/
def Dev.fltEnt (d : Dev) (j : Nat) : Word :=
  match d.flt.queue with
  | [] => 0
  | e :: _ =>
    match j with
    | 0 => e.msg.extractLsb' 0 32
    | 1 => e.msg.extractLsb' 32 32
    | 2 => e.ns
    | _ => e.sec

/-- FLTC (R415, R443). -/
def Dev.fltcView (d : Dev) (o : Nat) : Option Word :=
  if o = 0x104 then some (setBit (setBit (d.get fltc R.FLTC_STAT) 17 d.alive) 18 d.critAny)
  else if o = 0x110 then some (d.fltEnt 0)
  else none

/-- LAT_STAT.STATE (R275). -/
def Dev.latState (d : Dev) : Nat :=
  if ¬ d.latOn then 0 else if d.lat.recoat.isSome then 3 else if d.latRuns then 2 else 1

/-- CREEL (R85): what a ring, the running slot and a bobbin are doing. -/
def Dev.creelView (d : Dev) (m : Mem) (o i : Nat) : Option Word :=
  if 0x800 ≤ o then some (d.bobStat i (d.loadingBob m == some i))
  else if o = 0x204 then some (setFld (d.get creelB R.SKEIN_STAT) 3 0 d.runState)
  else if 0x100 ≤ o ∧ o < 0x200 ∧ o % 0x20 = 0x18 then some (setFld (d.get creelB R.CREEL_RSTAT i) 3 0 (d.ringWait m (Fin.ofNat 8 i)))
  else none

/-- MPV_STAT (R224, R248): sets sent and not in force. -/
def Dev.mpvView (d : Dev) (h : Fin 32) (o : Nat) : Option Word :=
  if o = 0x104 then some (setFld (d.get (mpvB h) R.MPV_STAT) 25 24 (min 3 (d.mpvs[h].unborn d.tick))) else none

/-- Real-time ports in panic now (R93, R377): the vector feed of a head, the hand-over fill, and the write ports. -/
def Dev.panics (d : Dev) : Nat :=
  let feed (h : Fin 32) : Bool := d.heads[h].drf.fetch.length < d.getF (headB h) R.DRF_FETCH_CTL 8 0
  let ring (h : Fin 32) : Bool := d.heads[h].drf.handOver.length < 64
  (List.finRange 32).countP feed + ((List.finRange 32).any ring).toNat + d.pool.panic.length

/-- What a register shows where its stored word does not say it. -/
def Dev.view (d : Dev) (m : Mem) (b : Blk) (t : BT) (n o i j : Nat) : Option Word :=
  if o < 0x100 then d.headerView b t n o
  else
    match t with
    | .optab => d.optabView o
    | .hif => d.hifView o
    | .creel => d.creelView m o i
    | .headctl => d.headView (Fin.ofNat 32 n) o i
    | .plyarb => d.plyView o i j
    | .plyagt => d.agtView n o i
    | .light => if 0x100 ≤ o ∧ o < 0x200 ∧ o % 0x40 = 0x2C then
        some (setFld (d.get b R.LGT_STAT i) 1 0 (d.lgtPhase (Fin.ofNat 4 i)))
      else none
    | .lattice => if o = 0x104 then some (setFld (d.get b R.LAT_STAT) 1 0 d.latState) else none
    | .mspin => if 0x100 ≤ o ∧ o < 0x900 ∧ o % 0x100 = 0x6C then
        some (wi (clampI (-2147483648) 2147483647 (d.mspeed (Fin.ofNat 64 (8 * n + i)))))
      else none
    | .mpg => d.mpgView b o i
    | .sramp => if o = 0x118 then some (wd (min 255 d.panics)) else none
    | .mpv => d.mpvView (Fin.ofNat 32 n) o
    | .time => d.timeView o i
    | .fltc => d.fltcView o
    | _ => none

/-! Latched words and clearing reads. -/

/-- The words that a read of page offset `o` latches: the register, its copy, and what it shows from then on (R52, R121,
R133, R154, R248, R295, R404, R443). -/
def Dev.latches (d : Dev) (b : Blk) (t : BT) (n o i : Nat) : List (Reg × Nat × Nat × Word) :=
  let words (r : Reg) (k l : Nat) : List (Reg × Nat × Nat × Word) := (List.range' k l).map fun w => (r, w, 0, d.get b r w)
  if o = 0x024 then words R.OP_PART 0 6
  else match t with
    | .headctl =>
      if o = 0x140 then [(R.DRF_ARC_HI, 0, 0, d.get b R.DRF_ARC_HI)]
      else if o = 0x224 then [(R.TRV_ARC_HI, 0, 0, d.get b R.TRV_ARC_HI)]
      else if 0x800 ≤ o ∧ o % 16 = 0 then
        (List.range' 1 3).map fun w => (R.TRV_SCHED, i, w, entWord d.heads[Fin.ofNat 32 n].trv.unfired[i]? w)
      else []
    | .mpv => if o = 0x1E0 then words R.MPV_LAST_FEAT 1 7 else []
    | .lpipe =>
      if o = 0x180 then words R.LPIPE_LAST_REC 1 15
      else if 0x300 ≤ o ∧ o % 16 = 0 then
        [R.LPIPE_WSTAT_G, R.LPIPE_WSTAT_B, R.LPIPE_WSTAT_SATCNT].map fun r => (r, i, 0, d.get b r i)
      else []
    | .time =>
      if o = 0x10C then
        let ns := d.tim.ns
        [(R.TIME_SEC_HI, 0, 0, wd (ns / 1000000000 / 2 ^ 32)), (R.TIME_NS, 0, 0, wd (ns % 1000000000))]
      else []
    | .fltc => if o = 0x110 then (List.range' 1 3).map fun w => (R.FLTC_ENT, w, 0, d.fltEnt w) else []
    | _ => []

/-- A word that only a read of another word renews. -/
def latched (t : BT) (o : Nat) : Bool :=
  (0x028 ≤ o && o < 0x040) || match t with
  | .headctl => o = 0x144 || o = 0x228 || (0x800 ≤ o && o % 16 ≠ 0)
  | .mpv => 0x1E4 ≤ o && o < 0x200
  | .lpipe => (0x184 ≤ o && o < 0x1C0) || (0x300 ≤ o && o % 16 ≠ 0)
  | .time => o = 0x110 || o = 0x114
  | .fltc => 0x114 ≤ o && o < 0x120
  | _ => false

/-- The monitor reading of a channel is known in the slot of its switch only (R463, R464). -/
def Dev.monKnown (d : Dev) (k j : Nat) : Bool :=
  match d.bch[Fin.ofNat 8 k].ho with
  | some h => h.ch.val = j && h.done.any fun t => t / 2 = d.slot
  | none => false

/-- A register whose value now depends on what the model leaves out: pins without a claim (R359), an Ethernet port's LINK (R404), a laser
channel's monitor reading (R461, R473), and the progress of a fill under way (R493); the mask of the open bits (log 44, DESIGN CHOICE). -/
def Dev.openBits (d : Dev) (t : BT) (n o : Nat) : Word :=
  match t with
  | .mpg => if 0x100 ≤ o ∧ o < 0x180 ∧ o % 0x20 = 0x10 then 0x1E0#32 else 0
  | .boot =>
    let filling : Bool := 6 ≤ d.stage && d.stage ≤ 7 && !d.getB bootB R.BOOT_FILL 16
    if o = 0x10C ∧ filling = true then 0xFFF0#32 else 0
  | .bchg => if 0x140 ≤ o ∧ o < 0x150 ∧ d.monKnown n ((o - 0x140) / 4) = false then 0xFFFF#32 else 0
  | .time => if o = 0x178 ∨ o = 0x198 then 1#32 else 0
  | _ => 0

/-- What a read of page offset `o` of a block gives. -/
def Dev.readWord (d : Dev) (m : Mem) (b : Blk) (o : Nat) : Word :=
  match blkKind b with
  | none => 0
  | some (t, n) =>
    match regAt t o with
    | none => 0
    | some (r, i, j) =>
      if r.acc = .wo then 0
      else if latched t o then (spGet d.snap (radr b r i j)).getD r.rst
      else
        let w := (d.view m b t n o i j).getD (d.get b r i j)
        let x := d.openBits t n o
        if x = 0 then w else (w &&& ~~~x) ||| (d.free.1 &&& x)

/-- What a read of page offset `o` of a block does. -/
def Dev.readEffect (d : Dev) (b : Blk) (o : Nat) : Dev :=
  match blkKind b with
  | none => d
  | some (t, n) =>
    match regAt t o with
    | none => d
    | some (r, i, j) =>
      let d1 := if d.openBits t n o = 0 then d else d.free.2
      let d2 := (d.latches b t n o i).foldl (fun (e : Dev) x => e.setSnap b x.1 x.2.2.2 x.2.1 x.2.2.1) d1
      let d3 := if r.acc = .rc then d2.put b r r.rst i j else d2
      if t = .hif ∧ o = 0x110 then d3.put hif R.HIF_ERR_CODE 0 else d3

/-- A read of SRAMP_ACC_DATA (R381, R383). -/
def Dev.accRead (d : Dev) : Dev :=
  let a := d.getF sramp R.SRAMP_ACC_ADDR 24 2 * 4
  let bank := a / 65536
  let d1 := d.putF sramp R.SRAMP_ACC_ADDR 24 2 (a / 4 + 1)
  if d.bankStatus bank ≠ 0 then d1.readFails sramp 0x110 (d.bankStatus bank)
  else if 16 ≤ bank ∧ bank < 48 then d1.complete [0] false
  else
    if d1.poolSick a then d1.readFails sramp 0x110 4
    else
      let x := d1.poolRead a
      x.2.complete [x.1] false

/-- REGISTER_READ (R5, R33, R36, R38, R52). -/
def execRegisterRead (addr : BitVec 24) (s : State) : Host.Outcome State Fault Refusal :=
  onLiveRead (fun m d =>
    let a := addr.toNat
    let b := addrBlk a
    let o := a % 0x1000
    if ¬ d.hostOk then d
    else if a % 4 ≠ 0 then (d.logErr 8 a false).complete [0xFFFFFFFF#32] false
    else if addrAbsent a then
      if d.absentErr = 3 then d.complete [0] false else (d.logErr d.absentErr a false).complete [0xFFFFFFFF#32] false
    else d.hostRead b o fun e =>
      if b = sramp ∧ o = 0x110 then e.accRead else (e.readEffect b o).complete [e.readWord m b o] false) s

end Sys2Proof.Machine
end

