-- ==== Sys2Proof/Machine/Longops.lean ====
section
/-! DEFINITION. LONGOP descriptors (R81 to R83, R50): the creel writes operands and OP_CMD to the target block. -/

namespace Sys2Proof.Machine

/-- A register write by a block of the device: discarded where a host write would be, without an entry of the access
error log, which is the host's (R39, R53; log 42, DEDUCED). -/
def blkWrite (m : Mem) (d : Dev) (b : Blk) (o : Nat) (v : Word) : Mem × Dev :=
  if o % 4 = 0 ∧ o < 0x1000 ∧ d.accErr b o = 0 ∧ ¬ (d.opBusy b ∧ o ∉ busyWritable) then writeReg m (d.touch b o) b o v
  else (m, d)

/-- The operands of a LONGOP, one after the other. -/
def operandWrites (m : Mem) (d : Dev) (b : Blk) : Nat → List Word → Mem × Dev
  | _, [] => (m, d)
  | o, v :: vs =>
    let x := blkWrite m d b o v
    operandWrites x.1 x.2 b (o + 4) vs

/-- LONGOP (R81, R82, R83). An accepted start that can take its operation table entry at once takes it, and ENTRY names it
(log 42, DEDUCED). -/
def execLongop (i : Fin 8) (s : State) : Host.Outcome State Fault Refusal :=
  onLiveMem (fun m d => serveRing m d i (fun k => k = 2) fun ws =>
    let w := ws.getD 4 0
    let b : Blk := ⟨Fin.ofNat 16 (fld w 3 0), Fin.ofNat 64 (fld w 9 4)⟩
    let cmd := ws.getD 5 0
    if 8 < fld w 31 28 then descDone m d i ws 0x0B 0xFF 0
    else if (blkKind b).isNone then descDone m d i ws 0x07 0xFF 0
    else
      let x := operandWrites m d b (fld w 27 16) ((ws.drop 6).take (fld w 31 28))
      let refused : Bool := fld cmd 31 28 = 1 && x.2.opState b ≠ 0
      let y := blkWrite x.1 x.2 b 0x020 cmd
      let started : Bool := fld cmd 31 28 = 1 && !refused && y.2.opState b ≠ 0
      let z := if started then opDispatch y.1 y.2 else y
      let entry := if started then ((z.2.ops.find? fun o => o.blk = b).bind fun o => o.entry).getD 0xFF else 0xFF
      descDone z.1 z.2 i ws (if refused then 0x07 else 0) entry 0) s

end Sys2Proof.Machine
end

