-- ==== Sys2Proof/Machine/Boot.lean ====
section
/-! DEFINITION. The start sequence (R487 to R500): the end of each stage, the repair maps, the replay of the journal, SDRAM
training and fill, host-ready (logs 48 and 49). -/

namespace Sys2Proof.Machine

/-- The start halts (R489). -/
def Dev.halt (d : Dev) (s : Nat) : Dev := (d.stageEnd s 8).putB bootB R.BOOT_STAT 6 true

/-! Stages 1 and 2. -/

/-- The initial trims of a converter cell, from fuses (R487). -/
def Dev.fuseTrim (d : Dev) (k : Fin 8) (c : Fin 5) : Dev :=
  let w (i : Nat) : Word := Config.factoryTrim k.val c.val i
  let b := bchB k
  let d1 := ((d.put b R.BCHG_TRIM_DAC (w 0) c.val).put b R.BCHG_TRIM_ADC (w 1) c.val).put b R.BCHG_TRIM_INFO (w 2) c.val
  d1.bchMod k fun x => { x with stored := x.stored.set c (w 0, w 1, w 2, 2) }

/-- REPAIR: rows that stage 3 has not mapped, as long as spare rows remain (R491). -/
def Dev.applyRepair (d : Dev) (key : Word) (ws : List Nat) : Dev :=
  let b : Blk := ⟨Fin.ofNat 16 (fld key 3 0), Fin.ofNat 64 (fld key 9 4)⟩
  let memNo := fld key 23 10
  if b = sramp then
    if ws.head? = some 0xFFFF ∨ 384 ≤ memNo then d
    else
      let had := (spGet d.pool.rows memNo).getD []
      let new := (ws.dedup.filter fun r => r ∉ had).take (8 - had.length)
      if new = [] then d
      else (d.poolMod fun p => { p with rows := spPut p.rows memNo (had ++ new) }).bump sramp R.SRAMP_REPAIRED new.length
  else
    let c := if memNo < 64 then some memNo else none
    let had := d.sparesOf b c
    let new := (ws.dedup.filter fun r => r ∉ had).take (2 - had.length)
    if new = [] then d else d.setSpares b c (had ++ new)

/-- FUSE_LOAD_DONE (R487, R489): with test mode not requested, stage 2 is skipped. -/
def execFuseLoadDone (ok : Bool) (s : State) : Host.Outcome State Fault Refusal :=
  onLive (fun d => d.when (d.inStage 1) fun d =>
    if ¬ ok then d.halt 1
    else
      let d1 : Dev := { d with boot := { d.boot with fuseOk := true } }
      let d2 := (List.finRange 8).foldl (fun (e : Dev) k => (List.finRange 5).foldl (fun (f : Dev) c => f.fuseTrim k c) e) d1
      let d3 := Config.factoryMaps.foldl (fun (e : Dev) x => e.applyRepair (wd x.1) x.2) d2
      if d3.getB bootB R.BOOT_STAT 5 then d3.stageEnd 1 2 else (d3.stageEnd 1 3).put bootB R.BOOT_T (wd d3.bootUs) 2) s

/-- SECRETS_CLEAR_DONE (R441): slots, staging and bobbins are erased before scan is enabled. -/
def execSecretsClearDone (s : State) : Host.Outcome State Fault Refusal :=
  onLive (fun d => d.when (d.inStage 2) fun d =>
    let d1 : Dev := { d with
      keys := Vector.replicate 32 none, keyStage := List.replicate 8 0, bobs := Vector.replicate 256 Bob.init
      boot := { d.boot with debugOn := true } }
    (d1.put keyst R.KEYST_VALID 0).stageEnd 2 3) s

/-! Stage 3 (R440, R487, R489, R490). -/

/-- A block fails its logic test beyond repair: FENCE 0b11, BIST_FAIL with the lasting flag, BOOT_UNUSABLE. -/
def Dev.blockUnusable (d : Dev) (b : Blk) : Dev :=
  if (blkKind b).isNone ∨ d.fence b = 3 then d
  else
    let d1 := (d.putF b R.BLK_CTL 5 4 3).putB b R.BIST_STAT 3 true
    let d2 := d1.putB bootB R.BOOT_UNUSABLE (b.block.val % 32) true (2 * b.region.val + b.block.val / 32)
    (d2.bumpF bootB R.BOOT_STAT 23 16).raise b none 0x81 0x7F0000

/-- Blocks without which the device cannot start (R489). -/
def vital (b : Blk) : Bool :=
  match blkKind b with
  | some (t, _) => t = .hif || t = .optab || t = .creel || t = .fltc || t = .boot
  | none => false

/-- Banks 12 to 15 all serve: sound, or replaced (R489). -/
def Dev.queueBanks (d : Dev) : Bool := (List.range' 12 4).all fun k => !d.bankBad k || (spGet d.pool.repl k).isSome

/-- Every bank has been marched destructively: the pool holds zeros (R379, R487). -/
def Dev.poolCleared (d : Dev) : Dev := d.poolMod fun p => { p with words := [], zero := List.range 384 }

/-- MARCH_BIST_DONE (R487, R489, R490). -/
def execMarchBistDone (r : BistResult) (s : State) : Host.Outcome State Fault Refusal :=
  onLive (fun d => d.when (d.inStage 3) fun d =>
    let d1 := r.banks.foldl (fun (e : Dev) b => (e.bankRepair b.1.val (b.2.map fun x => x.val) false).1) d.poolCleared
    let d2 := r.blocks.foldl (fun (e : Dev) b => e.blockUnusable b) d1
    if r.blocks.any vital ∨ ¬ d2.queueBanks then d2.halt 3 else d2.stageEnd 3 4) s

/-! Stage 4: the journal (R475 to R478, R491, R492). -/

/-- The enable fields that a CONFIG record leaves at 0 (R492). -/
def enableMask (t : BT) (o : Nat) : Word :=
  let one : Bool := match t with
    | .servo => 0x100 ≤ o && o < 0xD00 && (o - 0x100) % 0x80 = 0x50
    | .mspin => 0x100 ≤ o && o < 0x900 && (o % 0x100 = 0x50 || o % 0x100 = 0xBC)
    | .time => 0x200 ≤ o && o < 0x300 && o % 0x20 = 0
    | .creel => 0x100 ≤ o && o < 0x200 && o % 0x20 = 0x0C
    | .headctl => o = 0x100
    | _ => false
  if one then 1#32 else 0

/-- A CONFIG record may be applied to page offset `o` of a block (R492). -/
def Dev.cfgOk (d : Dev) (b : Blk) (o : Nat) : Bool :=
  match blkKind b with
  | none => false
  | some (t, _) =>
    d.fence b ≠ 3 && (o = 0x018 || o = 0x01C || o = 0x040 || (0x100 ≤ o && (match regAt t o with
      | some (r, _, _) => r.acc = .rw
      | none => false)))

/-- CONFIG (R492). -/
def applyConfig (m : Mem) (d : Dev) (key v : Word) : Mem × Dev :=
  let a := key.toNat
  let b := addrBlk a
  let o := a % 0x1000
  if 2 ^ 24 ≤ a ∨ addrAbsent a ∨ ¬ d.cfgOk b o then (m, d.bump bootB R.BOOT_CFG_SKIP)
  else
    let off := match blkKind b with
      | some (t, _) => enableMask t o
      | none => 0
    let x := writeReg m d b o (v &&& ~~~off)
    (x.1, x.2.bump bootB R.BOOT_CFG_APPLIED)

/-- BCH_TRIM: the journaled trim replaces the factory trim (R491). -/
def Dev.applyTrim (d : Dev) (key : Word) (ws : List Word) : Dev :=
  if 8 ≤ fld key 3 0 ∨ 5 ≤ fld key 6 4 then d
  else
    let k : Fin 8 := Fin.ofNat 8 (fld key 3 0)
    let c : Fin 5 := Fin.ofNat 5 (fld key 6 4)
    let w (i : Nat) : Word := ws.getD i 0
    let b := bchB k
    let d1 := ((d.put b R.BCHG_TRIM_DAC (w 0) c.val).put b R.BCHG_TRIM_ADC (w 1) c.val).put b R.BCHG_TRIM_INFO (w 2) c.val
    d1.bchMod k fun x => { x with stored := x.stored.set c (w 0, w 1, w 2, w 3) }

/-- Half-words of a payload. -/
def halves : List Byte → List Nat
  | a :: b :: t => leNat [a, b] :: halves t
  | _ => []

/-- One record of the journal is applied (R491). -/
def applyRec (m : Mem) (d : Dev) (r : JRec) : Mem × Dev :=
  match r.type with
  | 1 => applyConfig m d r.key (wd (leNat (r.data.take 4)))
  | 2 => (m, d.applyTrim r.key (bytesWords r.data))
  | 6 => (m, d.applyRepair r.key (halves r.data))
  | 3 | 4 | 5 => (m, d.jmod fun j => { j with
      trims := (r.type, r.key.toNat, r.data) :: j.trims.filter fun x => ¬ (x.1 = r.type ∧ x.2.1 = r.key.toNat) })
  | _ => (m, d)

/-- The live area: a valid header and the higher GEN (R476). -/
def Jrn.liveArea (j : Jrn) : Option (Fin 2) :=
  match j.areas[(0 : Fin 2)].valid, j.areas[(1 : Fin 2)].valid with
  | true, true => some (if j.areas[(0 : Fin 2)].gen < j.areas[(1 : Fin 2)].gen then 1 else 0)
  | true, false => some 0
  | false, true => some 1
  | false, false => none

/-- The device writes area 0 with GEN 1 and no records (R476). -/
def Dev.jFormat (d : Dev) : Dev :=
  let d1 := d.jmod fun j => { j with
    areas := #v[⟨true, 1, 0, [], j.esize⟩, ⟨false, 0, 0, [], 0⟩], seq := 0, torn := false, tail := 0 }
  ((d1.jmod fun j => { j with live := 0 }).putB jrnl R.JRNL_STAT 5 true).event jrnl R.JRNL_EVT R.JRNL_EVT_EN 16#32 61

/-- A torn tail is discarded and counted (R478). -/
def Dev.jTorn (d : Dev) : Dev :=
  if d.jrn.tail = 0 then d
  else ((d.put jrnl R.JRNL_TORN (wd d.jrn.tail)).event jrnl R.JRNL_EVT R.JRNL_EVT_EN 2#32 61).raise jrnl none 1

/-- The flash is identified and replayed (R475 to R478, R491). -/
def replay (m : Mem) (d : Dev) (f : FlashId) : Mem × Dev :=
  let d1 := (d.jmod fun j => { j with found := true, esize := f.erase, size := f.size }).put jrnl R.JRNL_SIZE (wd f.size)
  let d2 := d1.put jrnl R.JRNL_SFDP (wd (Nat.log2 f.erase + f.addr4.toNat * 256 + f.mode.toNat * 512))
  match d2.jrn.liveArea with
  | none => (m, (d2.jFormat.putB jrnl R.JRNL_STAT 1 true).jShow)
  | some a =>
    let d3 := d2.jmod fun j => { j with live := a }
    let area := d3.jrn.areas[a]
    let next := match area.recs.getLast? with
      | some r => (r.2.seq + 1) % 2 ^ 32
      | none => area.first
    let d4 := (d3.jmod fun j => { j with seq := next }).jTorn
    let x := d4.replayRecs.foldl (fun (y : Mem × Dev) r => applyRec y.1 y.2 r) (m, d4)
    (x.1, (x.2.putB jrnl R.JRNL_STAT 1 true).jShow)

/-- A flash the store accepts: at most 256 MiB, with an erase size of 4 KiB or more (R475). -/
def FlashId.usable (f : FlashId) : Bool := f.size ≤ 2 ^ 28 && 4096 ≤ f.erase && 2 * f.erase ≤ f.size

/-- JOURNAL_REPLAY_DONE (R487, R491). -/
def execJournalReplayDone (fl : Option FlashId) (s : State) : Host.Outcome State Fault Refusal :=
  onLiveMem (fun m d =>
    if ¬ d.inStage 4 then (m, d)
    else
      let x := match fl with
        | some f => if FlashId.usable f then replay m d f else (m, d.raise jrnl none 3)
        | none => (m, d.raise jrnl none 3)
      (x.1, x.2.stageEnd 4 5)) s

/-! Stage 5: SDRAM training (R364). -/

/-- Ranks of a list that hold `p`. -/
def ranksWith (p : Nat → Bool) : List Nat := (List.range 4).filter p

/-- A channel trains: SDC_STAT, SDC_TRAIN, SDC_RANKMAP, TRAIN_FAIL. -/
def Dev.trainCh (d : Dev) (ch : Fin 2) (res : Vector (Option Bool) 4) : Dev :=
  let b := sdcB ch
  let cfg := d.get b R.SDC_CFG
  let ranks := fld cfg 2 0
  let spareEn := bit cfg 3
  let spare := fld cfg 5 4
  let got (r : Nat) : Option Bool := if r < ranks then res.toList.getD r none else none
  let held : Bool := spareEn && got spare == some true
  let first := ranksWith fun r => got r == some true && !(held && r = spare)
  let take : Bool := held && first.length < ranks - spareEn.toNat
  let insvc := ranksWith fun r => got r == some true && (!(held && r = spare) || take)
  let failed := ranksWith fun r => got r == some false
  let sum (l : List Nat) (f : Nat → Nat) : Nat := (l.map f).sum
  let stat := sum insvc (fun r => 2 ^ (4 + r)) + sum failed (fun r => 2 ^ (8 + r)) + (held && !take).toNat * 2 ^ 16 +
    (insvc.isEmpty).toNat * 2 ^ 18 + 2 ^ 20 + (bit (d.get b R.SDC_REF_CTL) 0).toNat * 2 ^ 19
  let train := sum (List.range 4) fun r => (match got r with
    | none => 0
    | some true => 1
    | some false => 2) * 4 ^ r
  let map_ := sum (List.range 4) fun j => insvc.getD j j * 4 ^ j
  let d1 := (((d.setLiv b R.SDC_CFG cfg).put b R.SDC_STAT (wd stat)).put b R.SDC_TRAIN (wd train)).put b R.SDC_RANKMAP (wd map_)
  let d2 := d1.sdcMod ch fun x => { x with train := train, units := x.units.map fun u => { u with accr := d1.now } }
  let d3 := failed.foldl (fun (e : Dev) r => (e.event b R.SDC_EVT R.SDC_EVT_EN 16#32 60).raise b (some r) 5) d2
  if insvc.isEmpty then d3.raiseRank ch 6 else d3

/-- NR: the smaller count of ranks in service of the two channels (R364 step 5). -/
def Dev.setNr (d : Dev) : Dev :=
  let count (ch : Fin 2) : Nat := ((List.range 4).filter fun r => d.getB (sdcB ch) R.SDC_STAT (4 + r)).length
  let nr := min (count 0) (count 1)
  (d.putF (sdcB 0) R.SDC_STAT 2 0 nr).putF (sdcB 1) R.SDC_STAT 2 0 nr

/-- Lanes with EN 1 start from DETECT (R495). -/
def Dev.lanesStart (d : Dev) : Dev := (List.finRange 40).foldl (fun (e : Dev) n => e.laneBack n) d

/-- Logical ranks (SDC_STAT.NR). -/
def Dev.nrRanks (d : Dev) : Nat := d.getF (sdcB 0) R.SDC_STAT 2 0

/-- SDRAM_TRAINING_DONE (R364, R495): stage 6 begins, with nothing to fill where no rank serves (R494). -/
def execSdramTrainingDone (r : TrainResult) (s : State) : Host.Outcome State Fault Refusal :=
  onLive (fun d => d.when (d.inStage 5) fun d =>
    let d0 := (((d.trainCh 0 r.ch0).trainCh 1 r.ch1).setNr.stageEnd 5 6).lanesStart
    let d1 := if d0.nrRanks = 0 then d0.putB bootB R.BOOT_FILL 16 true else d0
    { d1 with boot := { d1.boot with lanesEnd := false, fillEnd := decide (d1.nrRanks = 0) } }) s

/-! Stage 6 and host-ready. -/

/-- LANEWAIT_EXPIRY (R495). -/
def execLanewaitExpiry (s : State) : Host.Outcome State Fault Refusal :=
  onLive (fun d => d.when (d.inStage 6 && d.past d.boot.stageAt (1000 * d.getF bootB R.BOOT_LANEWAIT 15 0)) fun d =>
    { d with boot := { d.boot with lanesEnd := true } }) s

/-- Zero a range of SDRAM, with valid check bits (R493). -/
def Mem.zeroRange (m : Mem) (a n : Nat) : Mem :=
  { m with
    cells := m.cells.filter fun c => ¬ (a ≤ c.1 ∧ c.1 < a + n)
    poison := m.poison.filter fun l => ¬ (a ≤ l * 64 ∧ l * 64 < a + n) }

/-- RANK_FILL_DONE (R493, R499): rank 0 in stage 6, the ranks above it after host-ready. -/
def execRankFillDone (s : State) : Host.Outcome State Fault Refusal :=
  onLiveMem (fun m d =>
    let f := d.getF bootB R.BOOT_FILL 2 0
    if (d.inStage 6 ∧ f = 0 ∧ 0 < d.nrRanks) ∨ (d.ready ∧ 0 < f ∧ f < d.nrRanks) then
      let d1 := d.put bootB R.BOOT_FILL (wd (f + 1 + (decide (f + 1 = d.nrRanks)).toNat * 65536))
      (m.zeroRange (f * d.rankBytes) d.rankBytes, { d1 with boot := { d1.boot with fillEnd := true } })
    else (m, d)) s

/-- HOST_READY (R430, R454, R496, R499). -/
def execHostReady (s : State) : Host.Outcome State Fault Refusal := onLive Dev.hostReady s

end Sys2Proof.Machine
end

