-- ==== Sys2Proof/Machine/Timeouts.lean ====
section
/-! DEFINITION. Requests that get no response within 100 µs (R26, R38, R119): the requester answers itself with status 0x5 and
reports RSP_TIMEOUT. A command stands for each of these accesses as a whole, and this one stands for an access that reached its
destination and was not answered; what the destination did with it is nothing (log 52, DEDUCED). -/

namespace Sys2Proof.Machine

/-- A BAR0 access that its block would serve, and does not answer (R38): code 5. -/
def Dev.barLate (d : Dev) (a : Nat) (k : Dev → Dev) : Dev :=
  let b := addrBlk a
  let o := a % 0x1000
  if ¬ d.hostOk ∨ a % 4 ≠ 0 ∨ addrAbsent a ∨ b = hif ∨ d.accErr b o ≠ 0 then d
  else k ((d.bareTimeout hif b).logErr 5 a false)

/-- Data of a poisoned completion that the rule does not state (R38). -/
def Dev.freeWords (d : Dev) (n : Nat) : List Word × Dev :=
  (List.range n).foldl (fun (x : List Word × Dev) _ => (x.1 ++ [x.2.free.1], x.2.free.2)) ([], d)

/-- A BAR2 access that a channel in service does not answer (R38): code 5; a read completes poisoned. -/
def Dev.winLate (d : Dev) (ofs len : Nat) (write : Bool) : Dev :=
  let a := d.winBase + ofs
  let b := sdcB (Fin.ofNat 2 (chanOf a))
  if ¬ d.hostOk ∨ len = 0 ∨ ¬ d.winIn (a / 4 * 4) ∨ ¬ d.up b then d
  else
    let d1 := (d.bareTimeout hif b).logErr 5 ofs true
    if write then d1
    else
      let x := d1.freeWords ((a + min len (2 ^ 28 - ofs) - 1) / 4 + 1 - a / 4)
      x.2.complete x.1 true

/-- RESPONSE_TIMEOUT (R26). -/
def execResponseTimeout (what : TimedOut) (s : State) : Host.Outcome State Fault Refusal :=
  onLive (fun d =>
    match what with
    | .request tag => d.reqTimeout tag
    | .hostRead addr => d.barLate addr.toNat fun e => e.complete [0xFFFFFFFF#32] false
    | .hostWrite addr => d.barLate addr.toNat id
    | .window ofs len write => d.winLate ofs.toNat len write
    | .fetch h =>
      let f := d.heads[h].drf
      let b := sdcB (Fin.ofNat 2 (chanOf (f.listAddr + 32 * f.nextRec)))
      d.when (d.taking h && f.nextRec < f.listLen && d.up b) fun e => (e.bareTimeout (headB h) b).fetchLate h
    | .ply h => d.when (d.up (agtB h) && d.up plyB && (d.slotOpen h || d.ply.heads[h].req.isSome)) fun e => e.bareTimeout (agtB h) plyB) s

end Sys2Proof.Machine
end

