-- ==== Sys2Proof/Machine/Dispatch.lean ====
section
/-! DEFINITION. The dispatch of the commands, in the order of spec/opcode_table.json: one arm per constructor. -/

namespace Sys2Proof.Machine

/-- The effect of one command on everything but the queue. -/
def exec (i : Instr) (s : State) : Host.Outcome State Fault Refusal :=
  match i with
  | .registerWrite addr v => Sys2Proof.Machine.execRegisterWrite addr v s
  | .bar0BadShape addr write => Sys2Proof.Machine.execBar0BadShape addr write s
  | .bar2Access ofs acc => Sys2Proof.Machine.execBar2Access ofs acc s
  | .arbitrationRound arb => Sys2Proof.Machine.execArbitrationRound arb s
  | .responseTimeout what => Sys2Proof.Machine.execResponseTimeout what s
  | .lateResponse tag => Sys2Proof.Machine.execLateResponse tag s
  | .enable b en => Sys2Proof.Machine.execEnable b en s
  | .wakeUp r => Sys2Proof.Machine.execWakeUp r s
  | .softReset b => Sys2Proof.Machine.execSoftReset b s
  | .softResetEnd b => Sys2Proof.Machine.execSoftResetEnd b s
  | .resetShadowEnd b => Sys2Proof.Machine.execResetShadowEnd b s
  | .hostFence b => Sys2Proof.Machine.execHostFence b s
  | .fenceClear b => Sys2Proof.Machine.execFenceClear b s
  | .opAbort b => Sys2Proof.Machine.execOpAbort b s
  | .opDispatch => Sys2Proof.Machine.execOpDispatch s
  | .optabRetire idx => Sys2Proof.Machine.execOptabRetire idx s
  | .tableFull => Sys2Proof.Machine.execTableFull s
  | .evtEnable vec viaMask => Sys2Proof.Machine.execEvtEnable vec viaMask s
  | .evtGapEnd vec => Sys2Proof.Machine.execEvtGapEnd vec s
  | .doorbell k v => Sys2Proof.Machine.execDoorbell k v s
  | .ringEnable k v => Sys2Proof.Machine.execRingEnable k v s
  | .ringDisable k v => Sys2Proof.Machine.execRingDisable k v s
  | .nop k => Sys2Proof.Machine.execNop k s
  | .skein k => Sys2Proof.Machine.execSkein k s
  | .longop k => Sys2Proof.Machine.execLongop k s
  | .bobbinLoad k => Sys2Proof.Machine.execBobbinLoad k s
  | .load slot => Sys2Proof.Machine.execLoad slot s
  | .erase slot => Sys2Proof.Machine.execErase slot s
  | .go => Sys2Proof.Machine.execGo s
  | .abort => Sys2Proof.Machine.execAbort s
  | .drop => Sys2Proof.Machine.execDrop s
  | .layerStart => Sys2Proof.Machine.execLayerStart s
  | .layerEnd => Sys2Proof.Machine.execLayerEnd s
  | .vectorFetch h => Sys2Proof.Machine.execVectorFetch h s
  | .moveQueueEntry h => Sys2Proof.Machine.execMoveQueueEntry h s
  | .drafterTick h => Sys2Proof.Machine.execDrafterTick h s
  | .holdreq h on => Sys2Proof.Machine.execHoldreq h on s
  | .drfAccCap h v => Sys2Proof.Machine.execDrfAccCap h v s
  | .drfAux h k v => Sys2Proof.Machine.execDrfAux h k v s
  | .travellerTick h => Sys2Proof.Machine.execTravellerTick h s
  | .staleTick h => Sys2Proof.Machine.execStaleTick h s
  | .entryFire h => Sys2Proof.Machine.execEntryFire h s
  | .dwellOff h => Sys2Proof.Machine.execDwellOff h s
  | .rampStep h => Sys2Proof.Machine.execRampStep h s
  | .stitchStep h => Sys2Proof.Machine.execStitchStep h s
  | .codeDefer h => Sys2Proof.Machine.execCodeDefer h s
  | .admissionGrant => Sys2Proof.Machine.execAdmissionGrant s
  | .fmapLoad h tag => Sys2Proof.Machine.execFmapLoad h tag s
  | .fmapLoadDone h => Sys2Proof.Machine.execFmapLoadDone h s
  | .fmapFetch h tag => Sys2Proof.Machine.execFmapFetch h tag s
  | .fmapFetchDone h => Sys2Proof.Machine.execFmapFetchDone h s
  | .productStart h => Sys2Proof.Machine.execProductStart h s
  | .driveFrame n => Sys2Proof.Machine.execDriveFrame n s
  | .feedbackFrame n f => Sys2Proof.Machine.execFeedbackFrame n f s
  | .controlDeadline h => Sys2Proof.Machine.execControlDeadline h s
  | .feedbackTimeout n k => Sys2Proof.Machine.execFeedbackTimeout n k s
  | .srvApply k v => Sys2Proof.Machine.execSrvApply k v s
  | .cellEnable c v => Sys2Proof.Machine.execCellEnable c v s
  | .tuning k tag param => Sys2Proof.Machine.execTuning k tag param s
  | .tuningChirp k => Sys2Proof.Machine.execTuningChirp k s
  | .tuningDone k r => Sys2Proof.Machine.execTuningDone k r s
  | .itemWindowEntry => Sys2Proof.Machine.execItemWindowEntry s
  | .offer h => Sys2Proof.Machine.execOffer h s
  | .standingOfferEval h => Sys2Proof.Machine.execStandingOfferEval h s
  | .grant h => Sys2Proof.Machine.execGrant h s
  | .itemCompletion h => Sys2Proof.Machine.execItemCompletion h s
  | .clearanceRequest h => Sys2Proof.Machine.execClearanceRequest h s
  | .extension h => Sys2Proof.Machine.execExtension h s
  | .boxRelease h => Sys2Proof.Machine.execBoxRelease h s
  | .meltPoolPosition => Sys2Proof.Machine.execMeltPoolPosition s
  | .cameraFrame h f => Sys2Proof.Machine.execCameraFrame h f s
  | .ringEntryWrite p => Sys2Proof.Machine.execRingEntryWrite p s
  | .senseFrame h tick pd pyro => Sys2Proof.Machine.execSenseFrame h tick pd pyro s
  | .commit h => Sys2Proof.Machine.execCommit h s
  | .settings h => Sys2Proof.Machine.execSettings h s
  | .calLoad h tag => Sys2Proof.Machine.execCalLoad h tag s
  | .calLoadDone h => Sys2Proof.Machine.execCalLoadDone h s
  | .guestStart h => Sys2Proof.Machine.execGuestStart h s
  | .guestEnd h => Sys2Proof.Machine.execGuestEnd h s
  | .mpvEnable h v => Sys2Proof.Machine.execMpvEnable h v s
  | .featureRecord h => Sys2Proof.Machine.execFeatureRecord h s
  | .deposit => Sys2Proof.Machine.execDeposit s
  | .latticeTick swept err => Sys2Proof.Machine.execLatticeTick swept err s
  | .recoatStepDone => Sys2Proof.Machine.execRecoatStepDone s
  | .predictionRequest => Sys2Proof.Machine.execPredictionRequest s
  | .prediction h => Sys2Proof.Machine.execPrediction h s
  | .latInit tag => Sys2Proof.Machine.execLatInit tag s
  | .latInitDone => Sys2Proof.Machine.execLatInitDone s
  | .latRead act => Sys2Proof.Machine.execLatRead act s
  | .latReadDone => Sys2Proof.Machine.execLatReadDone s
  | .latWrite tag => Sys2Proof.Machine.execLatWrite tag s
  | .latWriteDone => Sys2Proof.Machine.execLatWriteDone s
  | .layerFrame p f => Sys2Proof.Machine.execLayerFrame p f s
  | .csiLinkLoss p => Sys2Proof.Machine.execCsiLinkLoss p s
  | .lpipeBind p v => Sys2Proof.Machine.execLpipeBind p v s
  | .next p => Sys2Proof.Machine.execNext p s
  | .check p => Sys2Proof.Machine.execCheck p s
  | .recoatCheckArm p => Sys2Proof.Machine.execRecoatCheckArm p s
  | .send line => Sys2Proof.Machine.execSend line s
  | .lgtRefresh line => Sys2Proof.Machine.execLgtRefresh line s
  | .lightFrame line => Sys2Proof.Machine.execLightFrame line s
  | .statusPhase line bytes => Sys2Proof.Machine.execStatusPhase line bytes s
  | .diag line => Sys2Proof.Machine.execDiag line s
  | .diagPulseStart line => Sys2Proof.Machine.execDiagPulseStart line s
  | .diagPulseEnd line bytes => Sys2Proof.Machine.execDiagPulseEnd line bytes s
  | .lgtCfg line v => Sys2Proof.Machine.execLgtCfg line v s
  | .laneEnable n v => Sys2Proof.Machine.execLaneEnable n v s
  | .laneDisable n v => Sys2Proof.Machine.execLaneDisable n v s
  | .signalDetect n => Sys2Proof.Machine.execSignalDetect n s
  | .signalLost n => Sys2Proof.Machine.execSignalLost n s
  | .train n => Sys2Proof.Machine.execTrain n s
  | .retrain n => Sys2Proof.Machine.execRetrain n s
  | .lossOfLock n => Sys2Proof.Machine.execLossOfLock n s
  | .trainBlock n rates => Sys2Proof.Machine.execTrainBlock n rates s
  | .trialEnd n pass => Sys2Proof.Machine.execTrialEnd n pass s
  | .sweepRetry n => Sys2Proof.Machine.execSweepRetry n s
  | .timing n roundTripNs holdNs latchNs => Sys2Proof.Machine.execTiming n roundTripNs holdNs latchNs s
  | .desc n bytes => Sys2Proof.Machine.execDesc n bytes s
  | .vc3Timeout n => Sys2Proof.Machine.execVc3Timeout n s
  | .data n bytes => Sys2Proof.Machine.execData n bytes s
  | .leave n reason => Sys2Proof.Machine.execLeave n reason s
  | .nack n type => Sys2Proof.Machine.execNack n type s
  | .credit n vc1 vc2 vc3 => Sys2Proof.Machine.execCredit n vc1 vc2 vc3 s
  | .idleEntry n => Sys2Proof.Machine.execIdleEntry n s
  | .idleExit n byPartner => Sys2Proof.Machine.execIdleExit n byPartner s
  | .exitBurst n => Sys2Proof.Machine.execExitBurst n s
  | .exitTimeout n => Sys2Proof.Machine.execExitTimeout n s
  | .patTest n tag => Sys2Proof.Machine.execPatTest n tag s
  | .patTestDone n r => Sys2Proof.Machine.execPatTestDone n r s
  | .patTestNoAnswer n => Sys2Proof.Machine.execPatTestNoAnswer n s
  | .injBit n => Sys2Proof.Machine.execInjBit n s
  | .injBurst n => Sys2Proof.Machine.execInjBurst n s
  | .mspCfg m v => Sys2Proof.Machine.execMspCfg m v s
  | .mspTarget m v => Sys2Proof.Machine.execMspTarget m v s
  | .mspProfileWrite m k v => Sys2Proof.Machine.execMspProfileWrite m k v s
  | .motionTick m => Sys2Proof.Machine.execMotionTick m s
  | .home m => Sys2Proof.Machine.execHome m s
  | .stop m => Sys2Proof.Machine.execStop m s
  | .qstop m => Sys2Proof.Machine.execQstop m s
  | .quadratureEdge m a b => Sys2Proof.Machine.execQuadratureEdge m a b s
  | .hallChange m code => Sys2Proof.Machine.execHallChange m code s
  | .indexEdge m latched => Sys2Proof.Machine.execIndexEdge m latched s
  | .limitEdge m positive active => Sys2Proof.Machine.execLimitEdge m positive active s
  | .homeEdge m active position => Sys2Proof.Machine.execHomeEdge m active position s
  | .stepInput m dirHigh => Sys2Proof.Machine.execStepInput m dirHigh s
  | .bissFrame m f => Sys2Proof.Machine.execBissFrame m f s
  | .speedWindowEnd m => Sys2Proof.Machine.execSpeedWindowEnd m s
  | .standstill m => Sys2Proof.Machine.execStandstill m s
  | .compareEnable m v => Sys2Proof.Machine.execCompareEnable m v s
  | .comparePulseEnd m => Sys2Proof.Machine.execComparePulseEnd m s
  | .cmpLoad b tag param => Sys2Proof.Machine.execCmpLoad b tag param s
  | .cmpLoadDone b => Sys2Proof.Machine.execCmpLoadDone b s
  | .mspApply b v => Sys2Proof.Machine.execMspApply b v s
  | .sdramRequest ch r => Sys2Proof.Machine.execSdramRequest ch r s
  | .migrate ch act => Sys2Proof.Machine.execMigrate ch act s
  | .migrateDone ch targetErr => Sys2Proof.Machine.execMigrateDone ch targetErr s
  | .refreshAccrual ch rank bank => Sys2Proof.Machine.execRefreshAccrual ch rank bank s
  | .refreshIssue ch rank bank => Sys2Proof.Machine.execRefreshIssue ch rank bank s
  | .mr4Poll ch rank doubled => Sys2Proof.Machine.execMr4Poll ch rank doubled s
  | .refreshDisable ch dis => Sys2Proof.Machine.execRefreshDisable ch dis s
  | .scrubRead ch ecc => Sys2Proof.Machine.execScrubRead ch ecc s
  | .srampAccData rw ecc => Sys2Proof.Machine.execSrampAccData rw ecc s
  | .march act => Sys2Proof.Machine.execMarch act s
  | .marchDone => Sys2Proof.Machine.execMarchDone s
  | .sync p m => Sys2Proof.Machine.execSync p m s
  | .followUp p m => Sys2Proof.Machine.execFollowUp p m s
  | .delayReq p rx m => Sys2Proof.Machine.execDelayReq p rx m s
  | .delayResp p m => Sys2Proof.Machine.execDelayResp p m s
  | .announce p m => Sys2Proof.Machine.execAnnounce p m s
  | .ptpDiscard p => Sys2Proof.Machine.execPtpDiscard p s
  | .syncTransmit p => Sys2Proof.Machine.execSyncTransmit p s
  | .announceTransmit p => Sys2Proof.Machine.execAnnounceTransmit p s
  | .delayReqTransmit p => Sys2Proof.Machine.execDelayReqTransmit p s
  | .syncTimeout p => Sys2Proof.Machine.execSyncTimeout p s
  | .set => Sys2Proof.Machine.execSet s
  | .triggerArm t v => Sys2Proof.Machine.execTriggerArm t v s
  | .triggerFire t => Sys2Proof.Machine.execTriggerFire t s
  | .tmarkPulseEnd ball => Sys2Proof.Machine.execTmarkPulseEnd ball s
  | .faultMessage => Sys2Proof.Machine.execFaultMessage s
  | .stormMillisecond r => Sys2Proof.Machine.execStormMillisecond r s
  | .fltcPop v => Sys2Proof.Machine.execFltcPop v s
  | .fltcCfClr v => Sys2Proof.Machine.execFltcCfClr v s
  | .faultForce b common v real => Sys2Proof.Machine.execFaultForce b common v real s
  | .aliveToggle => Sys2Proof.Machine.execAliveToggle s
  | .restart => Sys2Proof.Machine.execRestart s
  | .fltcWdogKick v => Sys2Proof.Machine.execFltcWdogKick v s
  | .wdogExpired => Sys2Proof.Machine.execWdogExpired s
  | .sliceStart r => Sys2Proof.Machine.execSliceStart r s
  | .sliceDone r res => Sys2Proof.Machine.execSliceDone r res s
  | .sensorSample sensor smp => Sys2Proof.Machine.execSensorSample sensor smp s
  | .graceEnd => Sys2Proof.Machine.execGraceEnd s
  | .throttleStep => Sys2Proof.Machine.execThrottleStep s
  | .thermMode v => Sys2Proof.Machine.execThermMode v s
  | .shutdownRecordAppend => Sys2Proof.Machine.execShutdownRecordAppend s
  | .clear => Sys2Proof.Machine.execClear s
  | .vstbyApply => Sys2Proof.Machine.execVstbyApply s
  | .trackingDone k => Sys2Proof.Machine.execTrackingDone k s
  | .handOverSwitch k reading => Sys2Proof.Machine.execHandOverSwitch k reading s
  | .handOverDisconnect k => Sys2Proof.Machine.execHandOverDisconnect k s
  | .calGapwait k => Sys2Proof.Machine.execCalGapwait k s
  | .trimDone k r => Sys2Proof.Machine.execTrimDone k r s
  | .calRun k tag => Sys2Proof.Machine.execCalRun k tag s
  | .calRunDone k => Sys2Proof.Machine.execCalRunDone k s
  | .append tag => Sys2Proof.Machine.execAppend tag s
  | .appendDone => Sys2Proof.Machine.execAppendDone s
  | .read tag => Sys2Proof.Machine.execRead tag s
  | .readDone => Sys2Proof.Machine.execReadDone s
  | .doff tag => Sys2Proof.Machine.execDoff tag s
  | .doffingDone ok => Sys2Proof.Machine.execDoffingDone ok s
  | .journalProgramStart => Sys2Proof.Machine.execJournalProgramStart s
  | .journalProgramDone ok => Sys2Proof.Machine.execJournalProgramDone ok s
  | .porstNAssert => Sys2Proof.Machine.execPorstNAssert s
  | .porstNRelease testReq => Sys2Proof.Machine.execPorstNRelease testReq s
  | .chiprstNAssert => Sys2Proof.Machine.execChiprstNAssert s
  | .chiprstNRelease testReq => Sys2Proof.Machine.execChiprstNRelease testReq s
  | .perstN level linkUp => Sys2Proof.Machine.execPerstN level linkUp s
  | .bootRst v => Sys2Proof.Machine.execBootRst v s
  | .supplyLow => Sys2Proof.Machine.execSupplyLow s
  | .fuseLoadDone ok => Sys2Proof.Machine.execFuseLoadDone ok s
  | .secretsClearDone => Sys2Proof.Machine.execSecretsClearDone s
  | .marchBistDone r => Sys2Proof.Machine.execMarchBistDone r s
  | .journalReplayDone fl => Sys2Proof.Machine.execJournalReplayDone fl s
  | .sdramTrainingDone r => Sys2Proof.Machine.execSdramTrainingDone r s
  | .lanewaitExpiry => Sys2Proof.Machine.execLanewaitExpiry s
  | .rankFillDone => Sys2Proof.Machine.execRankFillDone s
  | .hostReady => Sys2Proof.Machine.execHostReady s
  | .registerRead addr => Sys2Proof.Machine.execRegisterRead addr s
  | .droppedLinkFrame n why vc => Sys2Proof.Machine.execDroppedLinkFrame n why vc s
  | .supplyRestored => Sys2Proof.Machine.execSupplyRestored s
  | .tapInstruction k => Sys2Proof.Machine.execTapInstruction k s

end Sys2Proof.Machine
end

