-- ==== Sys2Proof/Safety.lean ====
section
/-! DEFINITION. What counts as a safe state and a safe run, in the terms statements use. -/

namespace Sys2Proof.Machine

/-- The canonical form of SDRAM: byte cells at strictly rising addresses, none equal to 0, which is what an unlisted
address reads as (log 3, DESIGN CHOICE), and poisoned lines (R369) strictly rising. -/
abbrev Mem.wf (m : Mem) : Prop :=
  (m.cells.Pairwise fun x y => x.1 < y.1) ∧ (∀ c ∈ m.cells, c.2 ≠ 0) ∧ m.poison.Pairwise (· < ·)

/-- A run goes on: no fault and no refusal. -/
def State.goesOn (s : State) : Prop := ∃ t, step s = .next t

/-- Every register whose BAR0 offset fails `p` holds the word it held. -/
def Dev.regsKept (d d' : Dev) (p : Nat → Prop) : Prop := ∀ a, ¬ p a → spGet d'.regs a = spGet d.regs a

/-- The BAR0 offsets of a block's page (R34). -/
def onPage (b : Blk) (a : Nat) : Prop := badr b 0 ≤ a ∧ a < badr b 0x1000

/-- A host write to page offset `o` of a block is taken: the access succeeds (R38, R53) and no self-test slice runs in
the block's region, which it could abandon (R436). -/
def Dev.takes (d : Dev) (b : Blk) (o : Nat) : Prop := d.writable b o = true ∧ d.flt.slices[b.region].unit = none

/-- No host-ready of the device waits, which would come before a host write of its cycle (R497). -/
def State.settled (s : State) : Prop := s.dev.ready = true ∨ Instr.hostReady ∉ s.pending

/-- Nothing waits for the end of the cycle: no abort written, no self-test slice given up, no SDRAM request in flight, nothing at
a write port, and no port in panic. -/
def Dev.quietCycle (d : Dev) : Prop :=
  (∀ o ∈ d.ops, o.abortAt = none) ∧ (∀ r : Fin 16, d.flt.slices[r].unit = none) ∧ (∀ ch : Fin 2, d.sdc[ch].flight = []) ∧
  (∀ h : Fin 32, d.mpvs[h].logs = [] ∧ d.mpvs[h].arcs = []) ∧ (∀ p : Fin 2, d.lpipes[p].out = []) ∧ d.pool.panic = []

/-- No bobbin load waits in the queue, which would take effect before a binding of its cycle (R79). -/
def State.noLoads (s : State) : Prop := ∀ i, Instr.bobbinLoad i ∉ s.pending

/-- An access error is logged (R39): counted up to 0xFFFF, its code and BAR offset held, no other register changed. -/
def Dev.logsError (d d' : Dev) (code : Nat) (ofs : Word) : Prop :=
  d'.getF hif R.HIF_ERR_CNT 15 0 = min 0xFFFF (d.getF hif R.HIF_ERR_CNT 15 0 + 1) ∧
  d'.get hif R.HIF_ERR_CODE = wd code ∧ d'.get hif R.HIF_ERR_ADDR = ofs ∧
  d.regsKept d' fun a => a = radr hif R.HIF_ERR_CNT ∨ a = radr hif R.HIF_ERR_ADDR ∨ a = radr hif R.HIF_ERR_CODE

/-- Both SDRAM channels are in service with a rank (R366, R372). -/
def Dev.sdramUp (d : Dev) : Prop :=
  ∀ c : Fin 2, d.status (blk .sdc c) = 0 ∧ d.getB (blk .sdc c) R.SDC_STAT 18 = false

/-- Block types whose leaving service has no effect outside the block and its operation. -/
def standsAlone (t : BT) : Bool :=
  t ∈ [BT.hif, .optab, .creel, .fltc, .time, .therm, .jrnl, .boot, .aon, .sramp, .keyst, .march, .lpipe, .csirx, .light,
    .lattice, .plyarb, .mpg, .plyagt]

/-- The creel serves ring `i` next, whose descriptor holds `ws`, in SDRAM that takes its completion (R80 to R82). -/
def Dev.ringServes (d : Dev) (m : Mem) (i : Fin 8) (ws : List Word) : Prop :=
  d.dead = false ∧ d.ready = true ∧ d.up creelB = true ∧ d.ringWork i = true ∧ d.descRead m i = some ws ∧
  d.ringTurn m = some i ∧ d.sdramUp ∧ d.descAddr i + 64 ≤ d.installed

/-- A descriptor of ring `i` has completed with STATUS, ENTRY and RESULT (R81, R86): its last two dwords are written and
no other byte, the head has moved on, the completion is counted and WAIT is 0. -/
def Dev.served (s : State) (i : Fin 8) (ws : List Word) (status entry : Nat) (result : Word) (t : State) : Prop :=
  let a := s.dev.descAddr i
  t.mem.word (a + 0x38) = wd (2 ^ 31 + status * 65536 + entry) ∧ t.mem.word (a + 0x3C) = result ∧
  (∀ c, c < a + 0x38 ∨ a + 0x40 ≤ c → t.mem.byte c = s.mem.byte c) ∧
  t.dev.getF creelB R.CREEL_RHEAD 15 0 i.val = (s.dev.getF creelB R.CREEL_RHEAD 15 0 i.val + 1) % s.dev.ringSize i % 65536 ∧
  t.dev.get creelB R.CREEL_RDONE i.val = s.dev.get creelB R.CREEL_RDONE i.val + 1 ∧
  t.dev.getF creelB R.CREEL_RSTAT 3 0 i.val = 0 ∧ (bit (ws.getD 0 0) 8 = true → t.dev.vPend (8 + i.val) = true) ∧
  t.pending = s.pending

/-! Added for the statements. -/

/-- No two cleared boxes of different heads conflict (R200). -/
def Ply.exclusive (p : Ply) : Prop :=
  ∀ g h : Fin 32, g ≠ h → ∀ a ∈ p.heads[g].boxes, ∀ b ∈ p.heads[h].boxes, p.conflict a b = false

/-- Both heads expose and the melt pool of `h` lies in the plume of that of `g`, by the positions they reported last (R198, R203). -/
def Dev.inPlume (d : Dev) (h g : Fin 32) : Prop :=
  h ≠ g ∧ d.heads[h].trv.gate = true ∧ d.heads[g].trv.gate = true ∧
  ∃ q p : Rat × Rat, d.ply.heads[h].melt = some q ∧ d.ply.heads[g].melt = some p ∧
    let a := (q.1 - p.1) * d.ply.gx + (q.2 - p.2) * d.ply.gy
    let c := rabs ((q.1 - p.1) * d.ply.gy - (q.2 - p.2) * d.ply.gx)
    0 ≤ a ∧ a ≤ d.ply.dist ∧ c ≤ a * d.ply.tanH

/-- Port `p` took a Sync sent at `t1` and received at `t2` (R395): its stamps are a pair, it is no longer late, and if it was
the active port the clock is set to the offset, while SET_OPEN and AUTOSET are 1, or its rate is corrected; SYNCED tells
whether the offset is within the alarm (R396, R397). -/
def Dev.syncTaken (d d' : Dev) (p : Fin 2) (t1 t2 : Int) : Prop :=
  d' = { d with regs := d'.regs, vecs := d'.vecs, fabric := d'.fabric, tim := d'.tim } ∧
  d'.tim.ports = d.tim.ports.set p { d.tim.ports[p] with
    wait := none, t1 := t1, t2 := t2, paired := true, syncAt := d.now } ∧
  d'.getN timeB R.TIME_PORT_SYNCS p.val = min 0xFFFFFFFF (d.getN timeB R.TIME_PORT_SYNCS p.val + 1) ∧
  d'.portLate p = false ∧ d'.tim.path = d.tim.path ∧
  (d.activePort = some p →
    let o : Rat := ((t2 - t1 : Int) : Rat) - d.tim.path
    let m : Rat := (d.getN timeB R.TIME_SLEW_MAX : Nat)
    let acc := d.tim.acc + ((d.getI timeB R.TIME_KI : Int) : Rat) / 65536 * o
    let r := ((d.getI timeB R.TIME_KP : Int) : Rat) / 65536 * o + acc
    d'.get timeB R.TIME_OFFSET = satWord o ∧
    d'.getB timeB R.TIME_STAT 1 = decide (rabs o ≤ ((d.getN timeB R.TIME_OFS_ALARM : Nat) : Rat)) ∧
    d'.getB timeB R.TIME_STAT 2 = false ∧
    if d.getB timeB R.TIME_STAT 0 = true ∧ d.getB timeB R.TIME_CTL 5 = true then
      d'.tim.clock = ((d.tim.clock : Int) - (o * (q32 : Rat)).floor).toNat ∧ d'.getB timeB R.TIME_STAT 0 = false ∧
      d'.tim.rate = d.tim.rate
    else d'.tim.clock = d.tim.clock ∧ d'.tim.rate = clampR (-m) m r ∧
      d'.tim.acc = if -m < r ∧ r < m then acc else d.tim.acc)

/-- The commands that write a start to OP_CMD, with the block, the code, the tag and the parameter they write. -/
def hostStarts : Instr → Option (Blk × Nat × Nat × Nat)
  | .fmapLoad h tag => some (headB h, 1, tag.toNat, 0)
  | .fmapFetch h tag => some (headB h, 2, tag.toNat, 0)
  | .tuning k tag param => some (blk .servo k.val, 1, tag.toNat, param.toNat)
  | .calLoad h tag => some (mpvB h, 1, tag.toNat, 0)
  | .latInit tag => some (latB, 1, tag.toNat, 0)
  | .latRead (.start tag) => some (latB, 2, tag.toNat, 0)
  | .latWrite tag => some (latB, 3, tag.toNat, 0)
  | .patTest n tag => some (laneB n, 1, tag.toNat, 0)
  | .cmpLoad b tag param => some (blk .mspin b.val, 1, tag.toNat, param.toNat)
  | .migrate ch (.start tag param) => some (blk .sdc ch.val, 1, tag.toNat, param.toNat)
  | .march (.start tag param) => some (march, 1, tag.toNat, param.toNat)
  | .calRun k tag => some (blk .bchg k.val, 1, tag.toNat, 0)
  | .append tag => some (jrnl, 1, tag.toNat, 0)
  | .read tag => some (jrnl, 2, tag.toNat, 0)
  | .doff tag => some (jrnl, 3, tag.toNat, 0)
  | _ => none

/-- The conditions of R314, R317 and R322 under which a command moves a lane without a departure, with the state it takes; where
steps of one cycle are ordered, no command that comes first waits. -/
def laneMoves (s : State) (n : Fin 40) : Instr → Nat → Prop
  | .laneEnable m v, st => m = n ∧ st = 1 ∧ s.dev.takes (laneB n) 0x100 ∧ bit v 0 = true ∧ s.dev.laneSt n = 0 ∧
      s.dev.laneBarred n = false
  | .laneDisable m v, st => m = n ∧ st = 0 ∧ s.dev.takes (laneB n) 0x100 ∧ bit v 0 = false ∧ s.dev.laneSt n ∈ [1, 2, 3, 6, 7]
  | .signalDetect m, st => m = n ∧ st = 2 ∧ s.dev.dead = false ∧ s.dev.maxRate n ≤ 2 ∧
      (s.dev.laneSt n = 1 ∨ s.dev.laneSt n = 6 ∧ s.dev.lanes[n].lost = true)
  | .train m, st => m = n ∧ st = 2 ∧ s.dev.takes (laneB n) 0x108 ∧ s.dev.maxRate n ≤ 2 ∧ s.dev.laneSt n ∈ [1, 6]
  | .idleEntry m, st => m = n ∧ st = 5 ∧ s.dev.dead = false ∧ s.dev.laneUp n = true ∧ s.dev.mayIdle n = true ∧
      s.dev.outranked n s.pending 10 = false
  | .exitBurst m, st => m = n ∧ st = 4 ∧ s.dev.dead = false ∧ s.dev.laneSt n = 5 ∧
      ∃ t, s.dev.lanes[n].burst = some t ∧ s.dev.now ≤ t + 1600
  | .timing m rtt hold latch, st => m = n ∧ st = 3 ∧ s.dev.dead = false ∧ s.dev.laneSt n = 2 ∧
      s.dev.lanes[n].phase = .timing ∧ ((rtt - hold) / 2 + (latch.toNat : Rat)).ceil.toNat ≤ 300
  | _, _ => False

/-- The departures of R317 to R319: the command, its conditions, and the state the lane takes; where steps of one cycle are ordered,
no command that comes first waits. -/
def laneDeparts (s : State) (n : Fin 40) : Instr → Nat → Prop
  | .signalLost m, st => m = n ∧ st = 1 ∧ s.dev.dead = false ∧ s.dev.laneUp n = true ∧ s.dev.outranked n s.pending 9 = false
  | .leave m _, st => m = n ∧ st = 1 ∧ s.dev.dead = false ∧ s.dev.laneUp n = true ∧ s.dev.outranked n s.pending 9 = false ∧
      1 ≤ s.dev.lanes[n].grants[(2 : Fin 3)] ∧ ∀ r : Fin 16, s.dev.flt.slices[r].unit = none
  | .retrain m, st => m = n ∧ st = 2 ∧ s.dev.takes (laneB n) 0x108 ∧ s.dev.laneUp n = true ∧ s.dev.maxRate n ≤ 2 ∧
      s.dev.outranked n s.pending 8 = false
  | .lossOfLock m, st => m = n ∧ st = 2 ∧ s.dev.dead = false ∧ s.dev.laneUp n = true ∧
      bit (s.dev.lget n R.LANE_CTL) 9 = true ∧ s.dev.maxRate n ≤ 2 ∧ s.dev.outranked n s.pending 8 = false
  | .trainBlock m _, st => m = n ∧ st = 2 ∧ s.dev.dead = false ∧ s.dev.laneUp n = true ∧
      bit (s.dev.lget n R.LANE_CTL) 9 = true ∧ s.dev.maxRate n ≤ 2 ∧ s.dev.outranked n s.pending 8 = false
  | .exitTimeout m, st => m = n ∧ st = 2 ∧ s.dev.dead = false ∧ s.dev.laneSt n = 5 ∧ s.dev.maxRate n ≤ 2 ∧
      s.dev.outranked n s.pending 12 = false ∧ ∃ t, s.dev.lanes[n].burst = some t ∧ t + 1600 < s.dev.now
  | .laneDisable m v, st => m = n ∧ st = 0 ∧ s.dev.takes (laneB n) 0x100 ∧ bit v 0 = false ∧ s.dev.laneSt n ∈ [4, 5]
  | _, _ => False

end Sys2Proof.Machine
end

