-- ==== Sys2Proof/Certificates/Slice0/Obligations.lean ====
section
/-! DEFINITION. The statements for the provers. Each docstring names the rules of spec/ a statement formalises, or the
log entry of a choice of the model. -/

open Sys2Proof Sys2Proof.Machine

/-! The queue, reset, and invariants of every step. -/

/-- Log 1: step takes the command at the front of the queue and runs it with the queue's rest. -/
def Obligations.StepRunsTheFrontCommand : Prop :=
  ∀ (s : State) (c : Instr) (rest : List Instr), s.pending = c :: rest → step s = exec c { s with pending := rest }

/-- Log 1 (the model's choice): on an empty queue one fabric cycle passes. While the device is held in a reset or shut down
nothing changes. A cycle that does not end a microsecond and in which nothing waits for its end advances the cycle count and the
PTP clock, forgets what belonged to the cycle, and changes nothing else.

No command touches the queue of waiting commands. -/
def Obligations.QueueLeavesCommandsAndIdles : Prop :=
  (∀ s : State, s.pending = [] → step s = .next s.cycle) ∧ (∀ s : State, s.dev.dead = true → s.cycle = s) ∧
  (∀ s : State, s.dev.dead = false → s.dev.quietCycle → (s.dev.now + 1) % 800 ≠ 0 →
    s.cycle = { s with dev := { s.dev with
      now := s.dev.now + 1, tim := s.dev.tim.advance, rounds := [], early := []
      flt := { s.dev.flt with took := false, fences := [] } } }) ∧
  (∀ (c : Instr) (s t : State), exec c s = .next t → t.pending = s.pending)

/-- R7, R484: after power-on reset every register holds the reset value of its table; no command waits; SDRAM reads 0
where nothing is listed (log 3, DESIGN CHOICE, the model's choice); the start sequence stands at stage 0. -/
def Obligations.ResetHoldsTableValues : Prop :=
  State.reset.pending = [] ∧ (∀ b r i j, State.reset.dev.get b r i j = r.rst) ∧
  (∀ a, State.reset.mem.byte a = 0) ∧ State.reset.dev.stage = 0 ∧ State.reset.dev.dead = true

/-- The SDRAM of the state after reset has its canonical form. -/
def Obligations.ResetMemoryIsCanonical : Prop := State.reset.mem.wf

/-- Every step keeps the canonical form of SDRAM, from every state that has it. -/
def Obligations.StepKeepsMemoryCanonical : Prop :=
  ∀ s t : State, s.mem.wf → step s = .next t → t.mem.wf

/-- Every command completes in every state, whatever its operands: the one stop is internal scan (R441). -/
def Obligations.OnlyInternalScanStops : Prop :=
  (∀ (c : Instr) (s : State), ¬ (c = .tapInstruction .scan ∧ s.dev.boot.debugOn = true) → ∃ t, exec c s = .next t) ∧
  (∀ s : State, s.dev.boot.debugOn = true → exec (.tapInstruction .scan) s = .refused .internalScan)

/-! Host accesses (02). -/

/-- R5, R6, R33, R45: a taken write of FLT_MASK stores the bits of the block's kinds; a write of a read-write register of a
block whose writes do nothing else stores the written bits that exist and lie in their ranges; nothing else changes. JRNL_CTL
may start a doffing (R479) and MPG_POL inverts the inputs of a port (R359): they are not of this kind. -/
def Obligations.RegisterWriteStoresItsBits : Prop :=
  (∀ (s : State) (b : Blk) (v : Word), (blkKind b).isSome = true → s.dev.takes b 0x018 → s.settled →
    exec (.registerWrite (BitVec.ofNat 24 (badr b 0x018)) v) s =
      .next { s with dev := s.dev.put b R.FLT_MASK (v &&& kindsOf b) }) ∧
  ∀ (s : State) (b : Blk) (t : BT) (n o : Nat) (r : Reg) (i j : Nat) (v : Word),
    blkKind b = some (t, n) → t ∈ [BT.jrnl, .march, .csirx, .plyarb, .mpg, .bchg, .plyagt] →
    0x100 ≤ o → o < 0x1000 → o % 4 = 0 → regAt t o = some (r, i, j) → r.acc = .rw → s.dev.takes b o →
    ¬ (t = .jrnl ∧ o = 0x100) → ¬ (t = .mpg ∧ o < 0x180 ∧ o % 0x20 = 0x0C) →
    exec (.registerWrite (BitVec.ofNat 24 (badr b o)) v) s =
      .next { s with
        dev := s.dev.put b r ((s.dev.get b r i j &&& ~~~r.mask) ||| limApply (s.dev.get b r i j) r.lims (v &&& r.mask)) i j }

/-- R5, R33: a read of a register that shows its stored word completes with that word and changes nothing else. -/
def Obligations.RegisterReadReturnsStoredWord : Prop :=
  (∀ (s : State) (b : Blk), (blkKind b).isSome = true → s.dev.hostOk = true → s.dev.accErr b 0x018 = 0 →
    exec (.registerRead (BitVec.ofNat 24 (badr b 0x018))) s =
      .next { s with dev := s.dev.complete [s.dev.get b R.FLT_MASK] false }) ∧
  ∀ (s : State) (b : Blk) (t : BT) (n o : Nat) (r : Reg) (i j : Nat),
    blkKind b = some (t, n) → t ∈ [BT.jrnl, .march, .csirx, .bchg] → 0x100 ≤ o → o < 0x1000 → o % 4 = 0 →
    regAt t o = some (r, i, j) → r.acc = .rw ∨ r.acc = .ro → s.dev.hostOk = true → s.dev.accErr b o = 0 →
    s.dev.openBits t n o = 0 → s.dev.flt.slices[b.region].unit = none →
    exec (.registerRead (BitVec.ofNat 24 (badr b o))) s =
      .next { s with dev := s.dev.complete [s.dev.get b r i j] false }

/-- R33: a BAR0 request of another shape than one aligned dword is logged with code 0x8; a read completes with all
ones, a write is discarded. -/
def Obligations.OtherShapesAreLogged : Prop :=
  (∀ (s : State) (addr : BitVec 24) (write : Bool), s.dev.hostOk = true → ∃ d',
    exec (.bar0BadShape addr write) s = .next { s with dev := d' } ∧
    d' = { s.dev with regs := d'.regs, cpl := if write then s.dev.cpl else ⟨[0xFFFFFFFF#32], false⟩ } ∧
    s.dev.logsError d' 8 (wd addr.toNat)) ∧
  (∀ (s : State) (addr : BitVec 24) (v : Word), s.dev.hostOk = true → s.settled → addr.toNat % 4 ≠ 0 → ∃ d',
    exec (.registerWrite addr v) s = .next { s with dev := d' } ∧ d' = { s.dev with regs := d'.regs } ∧
    s.dev.logsError d' 8 (wd addr.toNat)) ∧
  ∀ (s : State) (addr : BitVec 24), s.dev.hostOk = true → addr.toNat % 4 ≠ 0 → ∃ d',
    exec (.registerRead addr) s = .next { s with dev := d' } ∧
    d' = { s.dev with regs := d'.regs, cpl := ⟨[0xFFFFFFFF#32], false⟩ } ∧ s.dev.logsError d' 8 (wd addr.toNat)

/-- R36: a page without a block reads 0, unlogged, and its writes are discarded and logged with code 0x3; BLK_ID of a
block reads nonzero. The device is host-ready (R497). -/
def Obligations.AbsentPagesReadZero : Prop :=
  (∀ (s : State) (addr : BitVec 24), s.dev.hostOk = true → s.dev.ready = true → s.dev.stage ≠ 8 → addr.toNat % 4 = 0 →
    addrAbsent addr.toNat = true ∨ blkKind (addrBlk addr.toNat) = none →
    exec (.registerRead addr) s = .next { s with dev := { s.dev with cpl := ⟨[0], false⟩ } } ∧
    ∀ v, ∃ d', exec (.registerWrite addr v) s = .next { s with dev := d' } ∧ d' = { s.dev with regs := d'.regs } ∧
      s.dev.logsError d' 3 (wd addr.toNat)) ∧
  ∀ (s : State) (b : Blk), (blkKind b).isSome = true → s.dev.hostOk = true → s.dev.accErr b 0 = 0 → ∃ w : Word,
    exec (.registerRead (BitVec.ofNat 24 (badr b 0))) s = .next { s with dev := { s.dev with cpl := ⟨[w], false⟩ } } ∧ w ≠ 0

/-- R41, R363, R369: with both channels in service, a BAR2 read inside the installed SDRAM completes with the dwords
that stand there; a write there changes the enabled bytes and no other byte. -/
def Obligations.Bar2ReachesInstalledSdram : Prop :=
  (∀ (s : State) (ofs : BitVec 28) (k : Nat), s.dev.hostOk = true → s.dev.ready = true → s.dev.sdramUp →
    0 < k → ofs.toNat % 4 = 0 → ofs.toNat + 4 * k ≤ 2 ^ 28 → s.dev.winBase + ofs.toNat + 4 * k ≤ s.dev.installed →
    s.mem.poison = [] →
    exec (.bar2Access ofs (.read (4 * k))) s =
      .next { s with dev := { s.dev with cpl := ⟨s.mem.words (s.dev.winBase + ofs.toNat) k, false⟩ } }) ∧
  ∀ (s : State) (ofs : BitVec 28) (bs : List (Option Byte)), s.dev.hostOk = true → s.dev.ready = true →
    s.dev.sdramUp → bs ≠ [] → ofs.toNat % 4 = 0 → bs.length % 4 = 0 → ofs.toNat + bs.length ≤ 2 ^ 28 →
    s.dev.winBase + ofs.toNat + bs.length ≤ s.dev.installed → ∃ m',
    exec (.bar2Access ofs (.write bs)) s = .next { s with mem := m' } ∧
    ∀ a, m'.byte a = if s.dev.winBase + ofs.toNat ≤ a then
      ((bs[a - (s.dev.winBase + ofs.toNat)]?).getD none).getD (s.mem.byte a) else s.mem.byte a

/-! The message fabric (01). -/

/-- R21, R22: the winner of a round is the oldest head past the age limit; with none past it, the oldest of the highest
class; of equal age, the one on the lower port.

R20 to R22, R10: the round of a cycle in which no message at the arbiter is for a unit out of service, and no storm is thinned
out, moves its winner one place on, its age restarting, makes the other heads a round older, and changes nothing else. A second
round in the same cycle moves nothing. -/
def Obligations.RoundsMoveTheirWinner : Prop :=
  (∀ (limit : Nat) (l : List Cand) (x : Cand), winner limit l = some x →
    x ∈ l ∧
    ((∃ y ∈ l, limit ≤ y.1.age) → limit ≤ x.1.age ∧ ∀ y ∈ l, limit ≤ y.1.age →
      y.1.age ≤ x.1.age ∧ (y.1.age = x.1.age → x.1.portNo ≤ y.1.portNo)) ∧
    ((∀ y ∈ l, y.1.age < limit) → ∀ y ∈ l, y.1.cls.prio ≤ x.1.cls.prio ∧ (y.1.cls.prio = x.1.cls.prio →
      y.1.age ≤ x.1.age ∧ (y.1.age = x.1.age → x.1.portNo ≤ y.1.portNo)))) ∧
  (∀ (s : State) (a : ArbId) (x : Cand), s.dev.dead = false → s.dev.getB fltc R.FLTC_CTL 1 = false →
    (∀ y ∈ s.dev.fabric, y.arb = some a → s.dev.unitStatus y.dst (bodyCell y) = 0) → a ∉ s.dev.rounds →
    (∀ b, a = .block b → s.dev.flt.slices[b.region].unit = none) →
    winner (ageLimit a) ((headsAt a s.dev.fabric.zipIdx []).filter fun y => s.dev.eligible a y.1) = some x →
    ∃ f, exec (.arbitrationRound a) s = .next { s with dev := { s.dev with fabric := f, rounds := a :: s.dev.rounds } } ∧
      f = ((s.dev.fabric.mapIdx fun i y =>
        if i ≠ x.2 ∧ ((headsAt a s.dev.fabric.zipIdx []).any fun h => h.2 = i) = true then { y with age := y.age + 1 } else y).eraseIdx x.2)
        ++ [{ x.1 with loc := nextLoc a x.1.dst, age := 0 }]) ∧
  ∀ (s : State) (a : ArbId), (∀ y ∈ s.dev.fabric, y.arb = some a → s.dev.unitStatus y.dst (bodyCell y) = 0) →
    a ∈ s.dev.rounds → exec (.arbitrationRound a) s = .next s

/-- R26, R409: a request without a response for 100 µs gets one of status 0x5, and its requester reports kind 0x80; a
late response is discarded and counted, and frees its tag.

R38: a BAR0 read that its block does not answer is logged with code 0x5 and completes with all ones; a write is logged. That the
access leaves its destination as it was is the model's choice (log 52). -/
def Obligations.TimedOutRequestsAreAnswered : Prop :=
  (∀ (s : State) (tag : Nat) (r : Pend), s.dev.dead = false →
    (s.dev.reqs.find? fun x => x.tag = tag ∧ ¬ x.timedOut ∧ s.dev.past x.sent 100) = some r →
    (blkKind r.src).isSome = true → ∃ f e,
    exec (.responseTimeout (.request tag)) s = .next { s with dev := { s.dev with
      reqs := s.dev.reqs.map fun (x : Pend) => if x.tag = tag then { x with timedOut := true } else x
      fabric := f } } ∧
    f = s.dev.fabric ++ [⟨.rsp, r.dst, r.src, none, .predRsp e 0, 5, tag, .inbox, 0⟩,
      ⟨.flt, r.src, fltc, none, .fault (faultMsg r.src none 0x80 (r.dst.region.val + r.dst.block.val * 16) false
        (s.dev.shadowed r.src none) false false s.dev.tick), 0, 0, .port (.block r.src) (ownPort r.src), 0⟩]) ∧
  (∀ (s : State) (tag : Nat) (x : Msg) (r : Pend), s.dev.dead = false →
    (s.dev.reqs.find? fun r => r.tag = tag ∧ r.timedOut) = some r → r.carried = true →
    (s.dev.fabric.find? fun x => x.tag = tag ∧ x.cls = .rsp ∧ x.loc = .inbox ∧ x.status ≠ 5) = some x →
    exec (.lateResponse tag) s = .next { s with dev := { s.dev with
      fabric := s.dev.fabric.erase x, reqs := s.dev.reqs.filter fun r => r.tag ≠ tag, lateRsp := s.dev.lateRsp + 1 } }) ∧
  (∀ (s : State) (tag : Nat) (r : Pend), s.dev.dead = false →
    (s.dev.reqs.find? fun r => r.tag = tag ∧ r.timedOut) = some r → r.carried = false →
    exec (.lateResponse tag) s = .next { s with dev := { s.dev with
      reqs := s.dev.reqs.filter fun r => r.tag ≠ tag, lateRsp := s.dev.lateRsp + 1 } }) ∧
  ∀ (s : State) (b : Blk) (o : Nat) (write : Bool), (blkKind b).isSome = true → b ≠ hif → o < 0x1000 → o % 4 = 0 →
    s.dev.hostOk = true → s.dev.accErr b o = 0 → ∃ d',
    exec (.responseTimeout (if write then .hostWrite (BitVec.ofNat 24 (badr b o)) else .hostRead (BitVec.ofNat 24 (badr b o)))) s =
      .next { s with dev := d' } ∧
    d' = { s.dev with
      regs := d'.regs
      cpl := if write then s.dev.cpl else ⟨[0xFFFFFFFF#32], false⟩
      reqs := s.dev.reqs ++ [⟨s.dev.freeTag, hif, b, s.dev.now - 80000, true, false⟩]
      fabric := s.dev.fabric ++ [⟨.flt, hif, fltc, none, .fault (faultMsg hif none 0x80 (b.region.val + b.block.val * 16) false
        (s.dev.shadowed hif none) false false s.dev.tick), 0, 0, .port (.block hif) (ownPort hif), 0⟩] } ∧
    s.dev.logsError d' 5 (wd (badr b o))

/-! Service of blocks (R42 to R44, R421, R422, R454). -/

/-- R454: enabling a block records its wake-up request, in order of time and region, with ACTIVE 0; disabling clears
EN and ACTIVE and forgets the request; a due wake-up makes the region's requesting blocks active where they are enabled and
in service. That EN 0 clears ACTIVE, and that a wake-up sets it only with EN 1, is the model's reading of R43 (log 21, DEDUCED). -/
def Obligations.EnabledBlocksWakeUp : Prop :=
  (∀ (s : State) (b : Blk), s.dev.takes b 0x008 → s.dev.getB b R.BLK_CTL 0 = false →
    (s.dev.wakeReq.any fun w => w.2 = b) = false → ∃ d',
    exec (.enable b true) s = .next { s with dev := d' } ∧
    d' = { s.dev with regs := d'.regs, wakeReq := insertWake (s.dev.now, b) s.dev.wakeReq } ∧
    d'.getB b R.BLK_CTL 0 = true ∧ d'.getB b R.BLK_STAT 1 = false ∧
    (∀ k, 0 < k → d'.getB b R.BLK_CTL k = s.dev.getB b R.BLK_CTL k) ∧
    s.dev.regsKept d' fun a => a = radr b R.BLK_CTL ∨ a = radr b R.BLK_STAT) ∧
  (∀ (s : State) (b : Blk), s.dev.takes b 0x008 → s.dev.getB b R.BLK_CTL 0 = true → ∃ d',
    exec (.enable b false) s = .next { s with dev := d' } ∧
    d' = { s.dev with regs := d'.regs, wakeReq := s.dev.wakeReq.filter fun w => w.2 ≠ b } ∧
    d'.getB b R.BLK_CTL 0 = false ∧ d'.getB b R.BLK_STAT 1 = false ∧
    (∀ k, 0 < k → d'.getB b R.BLK_CTL k = s.dev.getB b R.BLK_CTL k) ∧
    s.dev.regsKept d' fun a => a = radr b R.BLK_CTL ∨ a = radr b R.BLK_STAT) ∧
  ∀ (s : State) (r : Fin 16), s.dev.dead = false → s.dev.wakeDue r = true → ∃ d',
    exec (.wakeUp r) s = .next { s with dev := d' } ∧
    d' = { s.dev with
      regs := d'.regs, wakeReq := s.dev.wakeReq.filter fun w => w.2.region ≠ r, wakeLast := some (s.dev.now, r.val) } ∧
    (∀ w ∈ s.dev.wakeReq, w.2.region = r → d'.getB w.2 R.BLK_STAT 1 = (s.dev.up w.2 && s.dev.getB w.2 R.BLK_CTL 0)) ∧
    s.dev.regsKept d' fun a => ∃ w ∈ s.dev.wakeReq, w.2.region = r ∧ a = radr w.2 R.BLK_STAT

/-- R422, R423: a soft reset sets SRST and puts the block and the units it serves in shadow; a reset already under way
changes nothing.

R422, R425: the end of a soft reset clears SRST and EN, ends the block's shadows 10 µs later and asks for its
wake-up; shadows whose time has passed are forgotten. The block here holds nothing beside its registers. -/
def Obligations.SoftResetsCastShadows : Prop :=
  ((∀ (s : State) (b : Blk) (t : BT) (n : Nat), s.dev.takes b 0x008 → blkKind b = some (t, n) → standsAlone t = true →
    s.dev.inReset b = false → s.dev.opBusy b = false → s.dev.opDoneNow b = false → (∀ c, s.dev.cellFenced b c = false) →
    (∀ x ∈ s.dev.fabric, x.dst = b → x.loc ≠ .inbox) → (∀ x ∈ s.dev.reqs, x.src ≠ b ∧ x.dst ≠ b) → ∃ d',
    exec (.softReset b) s = .next { s with dev := d' } ∧
    d' = { s.dev with
      regs := d'.regs
      shadows := s.dev.shadows ++ (s.dev.downstream b).map fun u => ⟨b, u.1, u.2, s.dev.now, none⟩
      wakeReq := s.dev.wakeReq.filter fun w => w.2 ≠ b } ∧
    (b, none) ∈ s.dev.downstream b ∧ d'.inReset b = true ∧ d'.getB b R.BLK_STAT 1 = false ∧
    (∀ k, k ≠ 1 → d'.getB b R.BLK_CTL k = s.dev.getB b R.BLK_CTL k) ∧
    s.dev.regsKept d' fun a => a = radr b R.BLK_CTL ∨ a = radr b R.BLK_STAT) ∧
  ∀ (s : State) (b : Blk), s.dev.takes b 0x008 → s.dev.inReset b = true → exec (.softReset b) s = .next s) ∧
  ((∀ (s : State) (b : Blk) (t : BT) (n : Nat), s.dev.dead = false → blkKind b = some (t, n) →
    t ∈ [BT.optab, .boot, .sdc, .sramp, .march, .csirx, .mpg, .plyagt, .jrnl] → s.dev.inReset b = true →
    (s.dev.wakeReq.any fun w => w.2 = b) = false → ∃ d',
    exec (.softResetEnd b) s = .next { s with dev := d' } ∧
    d' = { s.dev with
      regs := d'.regs
      live := d'.live
      prior := d'.prior
      snap := d'.snap
      jrn := d'.jrn
      claims := s.dev.claims.filter fun c => c.by_ ≠ b
      shadows := s.dev.shadows.map fun x => if x.by_ = b ∧ x.ends = none then { x with ends := some s.dev.now } else x
      wakeReq := insertWake (s.dev.now, b) s.dev.wakeReq } ∧
    (t ≠ .jrnl → d'.jrn = s.dev.jrn) ∧ (∀ x ∈ d'.prior, x ∈ s.dev.prior) ∧
    d'.inReset b = false ∧ d'.getB b R.BLK_CTL 0 = false ∧ d'.get b R.FLT_MASK = s.dev.get b R.FLT_MASK ∧
    d'.get b R.OP_STAT = s.dev.get b R.OP_STAT ∧ s.dev.regsKept d' (onPage b)) ∧
  ∀ (s : State) (b : Blk), s.dev.dead = false →
    exec (.resetShadowEnd b) s = .next { s with dev := { s.dev with
      shadows := s.dev.shadows.filter fun x => x.blk ≠ b ∨ ∀ e, x.ends = some e → s.dev.now ≤ e + 8000 } })

/-- R44, R420: a host fence of a block in service sets FENCE to 0b10 with ACTIVE 0; HIF, OPTAB, CREEL, FLTC, BOOT and
AON are never fenced; writing 0 to a fence of 0b01 or 0b10 takes the block back into service in its soft-reset state, unless a
reaction has set the fence in this cycle. That EN and ACTIVE are 0 then is the model's reading (log 21, DEDUCED). -/
def Obligations.HostFencesAndClears : Prop :=
  (∀ (s : State) (b : Blk) (t : BT) (n : Nat), s.dev.takes b 0x008 → blkKind b = some (t, n) → standsAlone t = true →
    neverFenced b = false → s.dev.fence b = 0 → s.dev.opBusy b = false → s.dev.opDoneNow b = false →
    (∀ x ∈ s.dev.fabric, x.dst = b → x.loc ≠ .inbox) → (∀ x ∈ s.dev.reqs, x.dst ≠ b) → ∃ d',
    exec (.hostFence b) s = .next { s with dev := d' } ∧
    d' = { s.dev with regs := d'.regs, flt := { s.dev.flt with fences := (b, 2) :: s.dev.flt.fences } } ∧
    d'.fence b = 2 ∧ d'.getB b R.BLK_STAT 1 = false ∧
    s.dev.regsKept d' fun a => a = radr b R.BLK_CTL ∨ a = radr b R.BLK_STAT) ∧
  (∀ (s : State) (b : Blk), s.dev.takes b 0x008 → neverFenced b = true ∨ s.dev.fence b ≠ 0 →
    exec (.hostFence b) s = .next s) ∧
  (∀ b : Blk, neverFenced b = true ↔ blkKind b = none ∨ b ∈ [hif, optab, creelB, fltc, bootB, aon]) ∧
  (∀ (s : State) (b : Blk) (n : Nat), s.dev.takes b 0x008 → blkKind b = some (.march, n) ∨ blkKind b = some (.csirx, n) →
    s.dev.fence b = 1 ∨ s.dev.fence b = 2 → (b, 1) ∉ s.dev.flt.fences → s.dev.inReset b = false → ∃ d',
    exec (.fenceClear b) s = .next { s with dev := d' } ∧
    d' = { s.dev with
      regs := d'.regs, live := d'.live, prior := d'.prior, snap := d'.snap
      claims := s.dev.claims.filter fun c => c.by_ ≠ b } ∧
    d'.fence b = 0 ∧ d'.getB b R.BLK_CTL 0 = false ∧ d'.getB b R.BLK_STAT 1 = false ∧ (∀ x ∈ d'.prior, x ∈ s.dev.prior) ∧
    s.dev.regsKept d' fun a => onPage b a ∨ a = radr fltc R.FLTC_RFENCE) ∧
  ∀ (s : State) (b : Blk), s.dev.takes b 0x008 → s.dev.fence b = 0 ∨ s.dev.fence b = 3 ∨ (b, 1) ∈ s.dev.flt.fences →
    exec (.fenceClear b) s = .next s

/-! Long operations (R47 to R56). -/

/-- R55: a retire that names no valid entry, or one queued or running, is ignored and counted; one that names an ended
entry frees it and returns its block to idle. -/
def Obligations.RetireFreesEndedEntries : Prop :=
  (∀ (s : State) (n : BitVec 8), s.dev.takes optab 0x104 →
    (∀ o, (s.dev.ops.find? fun o => o.entry = some n.toNat) = some o → s.dev.opBusy o.blk = true) → ∃ d',
    exec (.optabRetire n) s = .next { s with dev := d' } ∧ d' = { s.dev with regs := d'.regs } ∧
    d'.getF optab R.OPTAB_RETIRE_ERR 15 0 = min 0xFFFF (s.dev.getF optab R.OPTAB_RETIRE_ERR 15 0 + 1) ∧
    d'.getF optab R.OPTAB_RETIRE_ERR 23 16 = n.toNat ∧
    s.dev.regsKept d' fun a => a = radr optab R.OPTAB_RETIRE_ERR) ∧
  ∀ (s : State) (n : BitVec 8) (o : OpRec), s.dev.takes optab 0x104 →
    (s.dev.ops.find? fun o => o.entry = some n.toNat) = some o → s.dev.opBusy o.blk = false → ∃ d',
    exec (.optabRetire n) s = .next { s with dev := d' } ∧
    d' = { s.dev with
      regs := d'.regs, ops := s.dev.ops.filter fun x => x.blk ≠ o.blk, fullAt := none, fullSaid := false } ∧
    d'.get o.blk R.OP_STAT = 0 ∧ s.dev.regsKept d' fun a => a = radr o.blk R.OP_STAT

/-- R50: the operation started first of those without an entry takes the lowest free one when it can, and fails with 0x03 in a
fenced block (step 10) or runs (step 3, for the operations whose start changes nothing else); an abort ends a queued
operation with 0x02 and keeps its tag and progress (step 6), and leaves one that has ended (step 9). A map operation that never
ran leaves its head no pending map (R127). A running operation is marked to end with the cycle (R51).

R56: a table that has been full for 100 ms raises TABLE_FULL once, with the operations that wait without an entry. -/
def Obligations.OperationsQueueRunAndAbort : Prop :=
  ((∀ (s : State) (n : Nat) (o : OpRec), s.dev.dead = false → s.dev.freeEntry = some n →
    (s.dev.ops.find? fun o => o.entry.isNone) = some o → s.dev.opTakes o = true → s.dev.opState o.blk = 1 →
    (∀ m, s.dev.patNext m = false) → s.dev.ops.length < 256 → ∃ d',
    (s.dev.fenced o.blk = true → exec .opDispatch s = .next { s with dev := d' } ∧
      d'.get o.blk R.OP_STAT = opWord 4 (s.dev.getF o.blk R.OP_STAT 27 16) 3 (s.dev.opTag o.blk)) ∧
    (s.dev.fenced o.blk = false → (∃ k, blkKind o.blk = some (.mpv, k)) ∨ (o.blk = jrnl ∧ o.code = 2 ∧ s.dev.jrn.found = true) →
      exec .opDispatch s = .next { s with dev := d' } ∧
      d'.get o.blk R.OP_STAT = opWord 2 (s.dev.getF o.blk R.OP_STAT 27 16) 0 (s.dev.opTag o.blk)) ∧
    (s.dev.fenced o.blk = true ∨ (∃ k, blkKind o.blk = some (.mpv, k)) ∨ (o.blk = jrnl ∧ o.code = 2 ∧ s.dev.jrn.found = true) →
      (∀ k, blkKind o.blk ≠ some (.headctl, k)) → d' = { s.dev with
        regs := d'.regs
        ops := s.dev.ops.map fun x => if x.blk = o.blk then { x with entry := some n } else x } ∧
      s.dev.regsKept d' fun a => a = radr o.blk R.OP_STAT)) ∧
  (∀ (s : State) (b : Blk), s.dev.takes b 0x020 → s.dev.opState b = 1 → ∃ d',
    exec (.opAbort b) s = .next { s with dev := d' } ∧ d' = { s.dev with regs := d'.regs, heads := d'.heads } ∧
    d'.get b R.OP_STAT = opWord 5 (s.dev.getF b R.OP_STAT 27 16) 2 (s.dev.opTag b) ∧
    ((∀ k, blkKind b ≠ some (.headctl, k)) → d'.heads = s.dev.heads ∧ s.dev.regsKept d' fun a => a = radr b R.OP_STAT) ∧
    ∀ h : Fin 32, b = headB h → d'.heads[h].trv.pend = none ∧ d'.getB b R.TRV_STAT 2 = false ∧
      ∀ g : Fin 32, g ≠ h → d'.heads[g] = s.dev.heads[g]) ∧
  (∀ (s : State) (b : Blk), s.dev.takes b 0x020 → s.dev.opState b = 2 →
    exec (.opAbort b) s = .next { s with dev := { s.dev with
      ops := s.dev.ops.map fun o => if o.blk = b then { o with abortAt := some s.dev.now } else o } }) ∧
  ∀ (s : State) (b : Blk), s.dev.takes b 0x020 → s.dev.opBusy b = false → exec (.opAbort b) s = .next s) ∧
  (∀ (s : State) (t : Nat), s.dev.dead = false → s.dev.fullAt = some t → s.dev.fullSaid = false →
    s.dev.past t 100000 = true → s.dev.getB optab R.FLT_MASK 0 = false → ∃ d',
    exec .tableFull s = .next { s with dev := d' } ∧
    d' = { s.dev with regs := d'.regs, fullSaid := true, fabric := s.dev.fabric ++ [⟨.flt, optab, fltc, none, .fault
      (faultMsg optab none 0 (min 65535 s.dev.opsOut) false (s.dev.shadowed optab none) false false s.dev.tick), 0, 0,
      .port (.block optab) (ownPort optab), 0⟩] } ∧
    d'.get optab R.FLT_STAT = s.dev.get optab R.FLT_STAT ||| 1#32 ∧
    s.dev.regsKept d' fun a => a = radr optab R.FLT_STAT)

/-! MSI-X vectors (R58). -/

/-- R58: enabling or unmasking a vector whose bit is pending sends one message once it is open and the gap has passed;
a message the gap held back is sent when it ends. -/
def Obligations.PendingVectorsSendWhenOpened : Prop :=
  (∀ (s : State) (v : Fin 64) (viaMask : Bool),
    s.dev.takes hif (if viaMask then 0x80C + 16 * v.val else 0x128 + 4 * (v.val / 32)) →
    s.dev.vPend v.val = true → s.dev.vGapOver v = true →
    (if viaMask then s.dev.getB hif R.HIF_EVT_EN (v.val % 32) (v.val / 32) = true ∧ s.dev.getB hif R.MSIX_CTL 0 v.val = true
      else s.dev.getB hif R.HIF_EVT_EN (v.val % 32) (v.val / 32) = false ∧ s.dev.getB hif R.MSIX_CTL 0 v.val = false) →
    ∃ d', exec (.evtEnable v viaMask) s = .next { s with dev := d' } ∧
    d' = { s.dev with regs := d'.regs, vecs := s.dev.vecs.set v ⟨false, some s.dev.now, s.dev.vecs[v].sent + 1, s.dev.vecs[v].evAt⟩ } ∧
    d'.vOpen v.val = true ∧ d'.vPend v.val = true ∧
    s.dev.regsKept d' fun a => a = radr hif (if viaMask then R.MSIX_CTL else R.HIF_EVT_EN) (if viaMask then v.val else v.val / 32)) ∧
  ∀ (s : State) (v : Fin 64), s.dev.dead = false → s.dev.vecs[v].held = true → s.dev.vGapOver v = true →
    s.dev.vOpen v.val = true →
    exec (.evtGapEnd v) s = .next { s with dev := { s.dev with
      vecs := s.dev.vecs.set v ⟨false, some s.dev.now, s.dev.vecs[v].sent + 1, s.dev.vecs[v].evAt⟩ } }

/-! Rings, skeins, bobbins, keys and layers (03). -/

/-- R80, R84: a doorbell inside the ring moves its tail, one outside is ignored and counted; enabling a ring clears its
HALT; disabling it clears EN alone, and a descriptor in progress still completes.

R81 to R83, R86, R87: a ring whose turn it is completes its descriptor with the STATUS and RESULT of its KIND: NOP;
SKEIN, which stages the skein its header gives; LONGOP without operands on an idle block, which queues the operation, or shows
the entry it takes at once (log 42, DEDUCED). -/
def Obligations.RingsTakeDoorbellsAndComplete : Prop :=
  ((∀ (s : State) (i : Fin 8) (v : Word), s.dev.takes creelB (0x114 + 0x20 * i.val) → ∃ d',
    exec (.doorbell i v) s = .next { s with dev := d' } ∧ d' = { s.dev with regs := d'.regs } ∧
    (fld v 15 0 < s.dev.ringSize i → d'.getN creelB R.CREEL_RTAIL i.val = fld v 15 0 ∧
      s.dev.regsKept d' fun a => a = radr creelB R.CREEL_RTAIL i.val) ∧
    (s.dev.ringSize i ≤ fld v 15 0 →
      d'.getF creelB R.CREEL_RSTAT 15 8 i.val = min 255 (s.dev.getF creelB R.CREEL_RSTAT 15 8 i.val + 1) ∧
      s.dev.regsKept d' fun a => a = radr creelB R.CREEL_RSTAT i.val)) ∧
  (∀ (s : State) (i : Fin 8) (v : Word), s.dev.takes creelB (0x10C + 0x20 * i.val) → bit v 0 = true → ∃ d',
    exec (.ringEnable i v) s = .next { s with dev := d' } ∧
    d' = { s.dev with regs := d'.regs, ringFin := s.dev.ringFin.erase i } ∧
    d'.get creelB R.CREEL_RCTL i.val = v &&& 0x701#32 ∧ d'.getB creelB R.CREEL_RSTAT 4 i.val = false ∧
    (∀ k, k ≠ 4 → d'.getB creelB R.CREEL_RSTAT k i.val = s.dev.getB creelB R.CREEL_RSTAT k i.val) ∧
    s.dev.regsKept d' fun a => a = radr creelB R.CREEL_RCTL i.val ∨ a = radr creelB R.CREEL_RSTAT i.val) ∧
  ∀ (s : State) (i : Fin 8) (v : Word), s.dev.takes creelB (0x10C + 0x20 * i.val) → bit v 0 = false → ∃ d',
    exec (.ringDisable i v) s = .next { s with dev := d' } ∧
    d' = { s.dev with
      regs := d'.regs
      ringFin := if s.dev.ringWait s.mem i = 0 ∨ s.dev.ringFin.contains i = true then s.dev.ringFin else i :: s.dev.ringFin } ∧
    d'.get creelB R.CREEL_RCTL i.val = v &&& 0x701#32 ∧
    s.dev.regsKept d' fun a => a = radr creelB R.CREEL_RCTL i.val) ∧
  (∀ (s : State) (i : Fin 8) (ws : List Word), s.dev.ringServes s.mem i ws → s.dev.permits i (descKind ws) = true →
    s.dev.descWait i ws = 0 →
    (descKind ws = 0 → ∃ t, exec (.nop i) s = .next t ∧ Dev.served s i ws 0 0 0 t ∧
      t.dev = { s.dev with
        regs := t.dev.regs, vecs := t.dev.vecs, ringLast := i.val, ringFin := s.dev.ringFin.erase i }) ∧
    (descKind ws = 1 → ∀ bs k, s.dev.inside (quadAt ws 8) 1024 1024 = true →
      s.dev.sdRead s.mem (quadAt ws 8) 1024 = .ok bs → s.dev.skeinCheck s.mem i bs = .ok k → k.web = false →
      s.dev.webLayer = false →
      ∃ t, exec (.skein i) s = .next t ∧ Dev.served s i ws 0 0 (wd (leNat ((bs.drop 8).take 4))) t ∧
        t.dev = { s.dev with
          regs := t.dev.regs, vecs := t.dev.vecs, ringLast := i.val, ringFin := s.dev.ringFin.erase i, staged := some k } ∧
        t.dev.getF creelB R.SKEIN_STAT 7 4 = (if bit k.flags 0 then 2 else 1) ∧
        t.dev.getF creelB R.SKEIN_STAT 15 12 = i.val) ∧
    (descKind ws = 2 → ∀ b, b = (⟨Fin.ofNat 16 (fld (ws.getD 4 0) 3 0), Fin.ofNat 64 (fld (ws.getD 4 0) 9 4)⟩ : Blk) →
      fld (ws.getD 4 0) 31 28 = 0 → fld (ws.getD 5 0) 31 28 = 1 → (blkKind b).isSome = true → s.dev.accErr b 0x20 = 0 →
      s.dev.opState b = 0 → (∀ k, blkKind b = some k → fld (ws.getD 5 0) 15 8 ∈ opCodes k.1) →
      s.dev.flt.slices[b.region].unit = none →
      (s.dev.freeEntry = none → ∃ t, exec (.longop i) s = .next t ∧ Dev.served s i ws 0 0xFF 0 t ∧
        t.dev = { s.dev with
          regs := t.dev.regs, vecs := t.dev.vecs, ringLast := i.val, ringFin := s.dev.ringFin.erase i
          ops := s.dev.ops ++ [⟨b, fld (ws.getD 5 0) 15 8, fld (ws.getD 5 0) 27 16, none, none, none⟩] } ∧
        t.dev.get b R.OP_STAT = opWord 1 0 0 (fld (ws.getD 5 0) 7 0)) ∧
      ∀ n, s.dev.freeEntry = some n → s.dev.ops.length < 255 → (∀ o ∈ s.dev.ops, o.entry.isSome = true ∧ o.blk ≠ b) →
        (∃ k, blkKind b = some (.mpv, k)) → s.dev.fenced b = false → s.dev.inReset b = false →
        ∃ t, exec (.longop i) s = .next t ∧ Dev.served s i ws 0 n 0 t ∧
          t.dev = { s.dev with
            regs := t.dev.regs, vecs := t.dev.vecs, ringLast := i.val, ringFin := s.dev.ringFin.erase i
            ops := s.dev.ops ++ [⟨b, fld (ws.getD 5 0) 15 8, fld (ws.getD 5 0) 27 16, some n, none, none⟩] } ∧
          t.dev.get b R.OP_STAT = opWord 2 0 0 (fld (ws.getD 5 0) 7 0)))

/-- R73, R77, R82, R83: a bobbin load of a plain image whose checks pass writes the bobbin's free buffer; with no running
skein that names the bobbin it becomes live with the next generation, else it waits; RESULT is the generation the image has or will have.

R75, R498: LOAD outside test mode puts the staged value in its slot, sets VALID and clears the staging; ERASE empties
its slot. -/
def Obligations.BobbinsAndKeysLoad : Prop :=
  (∀ (s : State) (i : Fin 8) (ws : List Word) (img : BobBuf) (n : Nat), s.dev.ringServes s.mem i ws → descKind ws = 3 →
    i ∉ s.dev.early → s.dev.permits i 3 = true → s.dev.descWait i ws = 0 → n = fld (ws.getD 4 0) 7 0 →
    s.dev.bobbinRead s.mem (quadAt ws 8) (bit (ws.getD 4 0) 8) = .ok img →
    ∃ t, exec (.bobbinLoad i) s = .next t ∧
      Dev.served s i ws 0 0 (wd (if (s.dev.bob n).gen = 0xFFFF then 1 else (s.dev.bob n).gen + 1)) t ∧
      t.dev = { s.dev with
        regs := t.dev.regs, vecs := t.dev.vecs, ringLast := i.val, ringFin := s.dev.ringFin.erase i, bobs := t.dev.bobs } ∧
      t.dev.bobBuf n (!(s.dev.bob n).live) = img ∧ t.dev.bobBuf n (s.dev.bob n).live = s.dev.bobBuf n (s.dev.bob n).live ∧
      (s.dev.named n = false → (t.dev.bob n).live = !(s.dev.bob n).live ∧ (t.dev.bob n).pend = false ∧
        (t.dev.bob n).gen = if (s.dev.bob n).gen = 0xFFFF then 1 else (s.dev.bob n).gen + 1) ∧
      (s.dev.named n = true → (t.dev.bob n).live = (s.dev.bob n).live ∧ (t.dev.bob n).pend = true ∧
        (t.dev.bob n).gen = (s.dev.bob n).gen) ∧
      ∀ j : Fin 256, j.val ≠ n → t.dev.bobs[j] = s.dev.bobs[j]) ∧
  ((∀ (s : State) (k : Fin 32), s.dev.takes keyst 0x120 → s.dev.getB bootB R.BOOT_STAT 5 = false → ∃ d',
    exec (.load k) s = .next { s with dev := d' } ∧
    d' = { s.dev with
      regs := d'.regs, keys := s.dev.keys.set k (some (keyOf s.dev.keyStage)), keyStage := List.replicate 8 0 } ∧
    (∀ j, j < 32 → d'.getB keyst R.KEYST_VALID j = (decide (j = k.val) || s.dev.getB keyst R.KEYST_VALID j)) ∧
    s.dev.regsKept d' fun a => a = radr keyst R.KEYST_VALID) ∧
  (∀ (s : State) (k : Fin 32), s.dev.takes keyst 0x120 → s.dev.getB bootB R.BOOT_STAT 5 = true →
    exec (.load k) s = .next s) ∧
  ∀ (s : State) (k : Fin 32), s.dev.takes keyst 0x120 → ∃ d',
    exec (.erase k) s = .next { s with dev := d' } ∧ d' = { s.dev with regs := d'.regs, keys := s.dev.keys.set k none } ∧
    (∀ j, j < 32 → d'.getB keyst R.KEYST_VALID j = (decide (j ≠ k.val) && s.dev.getB keyst R.KEYST_VALID j)) ∧
    s.dev.regsKept d' fun a => a = radr keyst R.KEYST_VALID)

/-- R87, R90: GO releases a staged skein that waits for it, and is ignored with an event where none does; DROP empties the
staged slot, or gives its event; ABORT without a running skein gives its event, and one that meets a skein about to start acts
once it runs (log 43, DEDUCED).

R88 to R90: a staged skein without a plan whose required heads are present starts: it leaves the staged slot for the
running one and its layer number shows; an abort marks the running layer; a running layer with no head at work and its
pool done ends: the report is written, the running slot is free and ENDED is set. -/
def Obligations.LayersAreStagedStartedAndEnded : Prop :=
  ((∀ (s : State) (k : Skein), s.dev.takes creelB 0x200 → s.dev.staged = some k → bit k.flags 0 = true → k.goSeen = false →
    ∃ d', exec .go s = .next { s with dev := d' } ∧
    d' = { s.dev with regs := d'.regs, staged := some { k with goSeen := true } } ∧
    d'.getF creelB R.SKEIN_STAT 7 4 = 1 ∧ s.dev.regsKept d' fun a => a = radr creelB R.SKEIN_STAT) ∧
  (∀ (s : State), s.dev.takes creelB 0x200 → s.dev.staged = none → ∃ d',
    exec .go s = .next { s with dev := d' } ∧ d' = { s.dev with regs := d'.regs } ∧
    d'.get creelB R.SKEIN_EVT = s.dev.get creelB R.SKEIN_EVT ||| 0x10#32 ∧
    s.dev.regsKept d' fun a => a = radr creelB R.SKEIN_EVT) ∧
  (∀ (s : State), s.dev.takes creelB 0x200 → ∃ d',
    exec .drop s = .next { s with dev := d' } ∧ d' = { s.dev with regs := d'.regs, staged := none } ∧
    (s.dev.staged.isSome = true → d'.getF creelB R.SKEIN_STAT 7 4 = 0 ∧
      s.dev.regsKept d' fun a => a = radr creelB R.SKEIN_STAT) ∧
    (s.dev.staged = none → d'.get creelB R.SKEIN_EVT = s.dev.get creelB R.SKEIN_EVT ||| 0x40#32 ∧
      s.dev.regsKept d' fun a => a = radr creelB R.SKEIN_EVT)) ∧
  (∀ (s : State), s.dev.takes creelB 0x200 → s.dev.running = none → s.dev.canStart = false → ∃ d',
    exec .abort s = .next { s with dev := d' } ∧ d' = { s.dev with regs := d'.regs } ∧
    d'.get creelB R.SKEIN_EVT = s.dev.get creelB R.SKEIN_EVT ||| 0x20#32 ∧
    s.dev.regsKept d' fun a => a = radr creelB R.SKEIN_EVT) ∧
  (∀ (s : State), s.dev.takes creelB 0x200 → s.dev.running = none → s.dev.canStart = true →
    exec .abort s = .next { s with dev := { s.dev with staged := s.dev.staged.map fun k => { k with abortSeen := true } } })) ∧
  ((∀ (s : State) (k : Skein), s.dev.dead = false → s.dev.ready = true → s.dev.running = none →
    s.dev.staged = some k → bit k.flags 0 = false ∨ k.goSeen = true → k.abortSeen = false → k.planAddr = 0 →
    k.reqMask &&& ~~~((List.finRange 32).foldl (fun (e : Dev) h => e.fmapPromote h) s.dev).presentSet s.pending = 0 → ∃ d',
    exec .layerStart s = .next { s with dev := d' } ∧ d'.staged = none ∧ d'.running = some k ∧
    d'.rep.present = ((List.finRange 32).foldl (fun (e : Dev) h => e.fmapPromote h) s.dev).presentSet s.pending ∧
    d'.getF creelB R.SKEIN_STAT 3 0 = 2 ∧ d'.get creelB R.SKEIN_LAYER = k.layer ∧
    d'.getB creelB R.SKEIN_EVT 0 = true ∧ d'.now = s.dev.now ∧ d'.cpl = s.dev.cpl ∧ d'.keys = s.dev.keys ∧
    d'.bobs = s.dev.bobs) ∧
  (∀ (s : State) (k : Skein), s.dev.takes creelB 0x200 → s.dev.running = some k → s.dev.runState ≠ 3 →
    s.dev.rep.aborted = false → ∃ d',
    exec .abort s = .next { s with dev := d' } ∧ d'.rep.aborted = true ∧ d'.getB creelB R.SKEIN_EVT 3 = true ∧
    d'.running = some k ∧ d'.staged = s.dev.staged) ∧
  ∀ (s : State) (k : Skein), s.dev.dead = false → s.dev.running = some k → k.web = false → s.dev.sdramUp →
    (∀ h : Fin 32, s.dev.headRuns h = false) → s.dev.poolRead_ = true → s.dev.ply.items = [] →
    (∀ t w, s.dev.rep.cut = some (t, w) → t ≠ s.dev.now) →
    k.repAddr + (repBytes k s.dev.rep (if s.dev.rep.aborted then 2 else if s.dev.rep.entries = [] then 0 else 1)
      s.dev.ptpNs).length ≤ s.dev.installed → ∃ t,
    exec .layerEnd s = .next t ∧ t.dev.running = none ∧ t.dev.layerEnd = some s.dev.now ∧
    t.dev.getF creelB R.SKEIN_STAT 3 0 = 0 ∧ t.dev.getB creelB R.SKEIN_EVT 1 = true ∧ t.dev.staged = s.dev.staged ∧
    ∀ a, t.mem.byte a =
      if k.repAddr ≤ a then
        ((repBytes k s.dev.rep (if s.dev.rep.aborted then 2 else if s.dev.rep.entries = [] then 0 else 1)
          s.dev.ptpNs)[a - k.repAddr]?).getD (s.mem.byte a)
      else s.mem.byte a)

/-! The Drafter (04). -/

/-- R93: one record of the head's list, read at its place, joins the fetch queue; nothing else changes.

R69, R94 to R96, R114: the next own record enters the queue: a jump of some length whose path is covered becomes a move to its
target, in which the head's path ends; a record of KIND 7 or above, one of KIND 7 with what its count names, is rejected, counted
and passed by. Other heads, SDRAM and the queue stay. While a wait point is queued no record enters (the model's reading of R98 and R192, log 35, DEDUCED). -/
def Obligations.RecordsAreFetchedIntoTheMoveQueue : Prop :=
  (∀ (s : State) (h : Fin 32), s.dev.dead = false → s.dev.taking h = true → s.dev.webLayer = false →
    s.dev.heads[h].drf.nextRec < s.dev.heads[h].drf.listLen → s.dev.heads[h].drf.fetch.length + s.dev.heads[h].drf.items.length < 256 →
    s.dev.sdStatus s.mem (s.dev.heads[h].drf.listAddr + 32 * s.dev.heads[h].drf.nextRec) 32 false = 0 →
    exec (.vectorFetch h) s = .next { s with dev := { s.dev with
      heads := s.dev.heads.set h { s.dev.heads[h] with drf := { s.dev.heads[h].drf with
        fetch := s.dev.heads[h].drf.fetch ++ [⟨bytesWords (s.mem.bytes (s.dev.heads[h].drf.listAddr +
          32 * s.dev.heads[h].drf.nextRec) 32), s.dev.heads[h].drf.nextRec, false, false⟩]
        nextRec := s.dev.heads[h].drf.nextRec + 1
        fetchBad := 0 } } } }) ∧
  ((∀ (s : State) (h : Fin 32) (r : FRec) (rest : List FRec) (bob : Nat), s.dev.dead = false → s.dev.taking h = true →
    s.dev.webLayer = false → s.dev.ply.heads[h].item = none → s.dev.heads[h].drf.poly = none →
    s.dev.heads[h].drf.fetch = r :: rest → r.poison = false → rkind r.w = 3 → bob = fld (r.w.getD 0 0) 11 4 →
    s.dev.named bob = true → s.dev.growth h = none →
    ((s.dev.bind bob).1.bobBuf bob (s.dev.bind bob).2).motionOk = true →
    s.dev.jumpCovered h (rp (rword r.w 4, rword r.w 5)) = true → s.dev.heads[h].drf.moves.length < 32 → s.noLoads →
    vlen ((rword r.w 4 : Int) - s.dev.heads[h].drf.endX) ((rword r.w 5 : Int) - s.dev.heads[h].drf.endY) ≠ 0 →
    s.dev.heads[h].held ≤ 48 → s.dev.heads[h].drf.waits = false → ∃ d',
    exec (.moveQueueEntry h) s = .next { s with dev := d' } ∧
    d' = { s.dev with
      regs := d'.regs, vecs := d'.vecs, bobs := d'.bobs, heads := d'.heads, reqs := d'.reqs, fabric := d'.fabric } ∧
    d'.heads[h].drf.fetch = rest ∧ d'.heads[h].drf.moves.length = s.dev.heads[h].drf.moves.length + 1 ∧
    d'.heads[h].drf.endX = (rword r.w 4 : Int) ∧ d'.heads[h].drf.endY = (rword r.w 5 : Int) ∧
    d'.heads[h].drf.runNo = s.dev.heads[h].drf.runNo + 1 ∧ ∀ g : Fin 32, g ≠ h → d'.heads[g] = s.dev.heads[g]) ∧
  (∀ (s : State) (h : Fin 32) (r : FRec) (rest : List FRec), s.dev.dead = false → s.dev.taking h = true →
    s.dev.webLayer = false → s.dev.ply.heads[h].item = none → s.dev.heads[h].drf.poly = none →
    s.dev.heads[h].drf.fetch = r :: rest → r.pool = false → r.poison = false → 7 ≤ rkind r.w →
    (rkind r.w = 7 → fld (r.w.getD 3 0) 19 8 = 0) → s.dev.growth h = none → s.noLoads →
    s.dev.corOn h = false → s.dev.heads[h].drf.waits = false → s.dev.heads[h].drf.inRun = false → ∃ d',
    exec (.moveQueueEntry h) s = .next { s with dev := d' } ∧
    d' = { s.dev with regs := d'.regs, vecs := d'.vecs, heads := d'.heads, rep := d'.rep } ∧
    d'.heads = s.dev.heads.set h { s.dev.heads[h] with drf := { s.dev.heads[h].drf with
      fetch := rest, ownDone := s.dev.heads[h].drf.ownDone + 1 } } ∧
    d'.rep.sums = s.dev.rep.sums.set h { s.dev.rep.sums[h] with rejected := s.dev.rep.sums[h].rejected + 1 } ∧
    d'.getB (headB h) R.DRF_EVT 2 = true ∧
    s.dev.regsKept d' fun a => a = radr (headB h) R.DRF_EVT ∨ a = radr hif R.HIF_EVT_PEND ((16 + h.val) / 32)) ∧
  ∀ (s : State) (h : Fin 32), s.dev.taking h = true → s.dev.webLayer = false → s.dev.ply.heads[h].item = none →
    s.dev.heads[h].drf.poly = none → s.dev.heads[h].drf.waits = true → s.dev.heads[h].drf.inRun = false → s.noLoads →
    s.dev.corOn h = false → exec (.moveQueueEntry h) s = .next s)

/-- R101, R111, R112: a tick inside a move that does not end in it sets the head where the move's profile is one tick
later, and shows the rounded setpoint; a head outside a layer keeps its setpoints without feed-forward; a second
tick in the same microsecond changes nothing.

R109, R113, R116: HOLDREQ sets DRF_CTL.HOLDREQ alone; a cap written is latched and stands in DRF_ACC_CAP with CAP_PEND set; an
auxiliary target stands in its register. -/
def Obligations.DrafterFollowsTheProfile : Prop :=
  ((∀ (s : State) (h : Fin 32) (m : Move) (ms : List Move), s.dev.dead = false → s.dev.up (headB h) = true →
    s.dev.heads[h].drf.tickAt ≠ some s.dev.tick → s.dev.heads[h].drf.inLayer = true → s.dev.webLayer = false →
    s.dev.headRuns h = true → s.dev.heads[h].drf.open_ = false ∨ ms ≠ [] → s.dev.heads[h].drf.moves = m :: ms → m.started = true → m.laser = false → m.kind = .jump ∨ m.kind = .runOut ∨ m.kind = .runIn →
    m.t + 1 < phasesTime m.phases → (s.dev.fmap h).isSome = true → s.dev.running.isSome = true → ∃ d',
    exec (.drafterTick h) s = .next { s with dev := d' } ∧
    d'.heads[h].drf.moves = { m with t := m.t + 1 } :: ms ∧
    d'.heads[h].drf.x = (m.seg.at m.len (phaseAt m.phases (m.t + 1)).1).1 ∧
    d'.heads[h].drf.y = (m.seg.at m.len (phaseAt m.phases (m.t + 1)).1).2.1 ∧
    d'.get (headB h) R.DRF_POS_X = wi (rnd d'.heads[h].drf.x) ∧ d'.get (headB h) R.DRF_POS_Y = wi (rnd d'.heads[h].drf.y) ∧
    d'.heads[h].drf.tickAt = some s.dev.tick ∧ (∀ g : Fin 32, g ≠ h → d'.heads[g] = s.dev.heads[g])) ∧
  (∀ (s : State) (h : Fin 32), s.dev.dead = false → s.dev.up (headB h) = true →
    s.dev.heads[h].drf.tickAt ≠ some s.dev.tick → s.dev.heads[h].drf.inLayer = false → s.dev.webLayer = false → ∃ d',
    exec (.drafterTick h) s = .next { s with dev := d' } ∧
    d' = { s.dev with heads := d'.heads, cells := d'.cells } ∧
    d'.heads[h].drf.x = s.dev.heads[h].drf.x ∧ d'.heads[h].drf.y = s.dev.heads[h].drf.y ∧
    d'.cells[headCell h 0].sp = s.dev.cells[headCell h 0].sp ∧ d'.cells[headCell h 0].spV = 0 ∧
    d'.cells[headCell h 1].sp = s.dev.cells[headCell h 1].sp ∧ d'.cells[headCell h 1].spV = 0 ∧
    (∀ g : Fin 32, g ≠ h → d'.heads[g] = s.dev.heads[g])) ∧
  ∀ (s : State) (h : Fin 32), s.dev.heads[h].drf.tickAt = some s.dev.tick → exec (.drafterTick h) s = .next s) ∧
  ((∀ (s : State) (h : Fin 32) (on_ : Bool), s.dev.takes (headB h) 0x100 → ∃ d',
    exec (.holdreq h on_) s = .next { s with dev := d' } ∧ d' = { s.dev with regs := d'.regs } ∧
    d'.getB (headB h) R.DRF_CTL 0 = on_ ∧ (∀ k, 0 < k → d'.getB (headB h) R.DRF_CTL k = s.dev.getB (headB h) R.DRF_CTL k) ∧
    s.dev.regsKept d' fun a => a = radr (headB h) R.DRF_CTL) ∧
  (∀ (s : State) (h : Fin 32) (v : Word), s.dev.takes (headB h) 0x110 → ∃ d',
    exec (.drfAccCap h v) s = .next { s with dev := d' } ∧
    d' = { s.dev with
      regs := d'.regs
      heads := s.dev.heads.set h { s.dev.heads[h] with drf := { s.dev.heads[h].drf with
        caps := s.dev.heads[h].drf.caps ++ [(s.dev.now, v.toNat)] } } } ∧
    d'.get (headB h) R.DRF_ACC_CAP = v ∧ d'.getB (headB h) R.DRF_STAT 25 = true ∧
    (∀ k, k ≠ 25 → d'.getB (headB h) R.DRF_STAT k = s.dev.getB (headB h) R.DRF_STAT k) ∧
    s.dev.regsKept d' fun a => a = radr (headB h) R.DRF_ACC_CAP ∨ a = radr (headB h) R.DRF_STAT) ∧
  ∀ (s : State) (h : Fin 32) (i : Fin 3) (v : Word), s.dev.takes (headB h) (0x120 + 4 * i.val) →
    exec (.drfAux h i v) s = .next { s with dev := s.dev.put (headB h) R.DRF_AUX v i.val })

/-! Long operations started by the host (R47, R50), in every chapter that has them. -/

/-- R47, R50 steps 1 and 8: a start written to an idle block queues its operation with PROGRESS 0 and its tag; one written to a block
that is not idle is refused and logged with code 0x7. That OP_PART is cleared at the start is the model's choice (log 52). -/
def Obligations.HostStartsQueueTheOperation : Prop :=
  (∀ (s : State) (c : Instr) (b : Blk) (code tag param : Nat), hostStarts c = some (b, code, tag, param) →
    s.dev.takes b 0x020 → s.dev.opState b = 0 → ∃ d',
    exec c s = .next { s with dev := d' } ∧
    d' = { s.dev with regs := d'.regs, ops := s.dev.ops ++ [⟨b, code, param, none, none, none⟩] } ∧
    d'.get b R.OP_STAT = opWord 1 0 0 tag ∧ (∀ i, i < 6 → d'.get b R.OP_PART i = 0) ∧
    s.dev.regsKept d' fun a => a = radr b R.OP_STAT ∨ ∃ i, i < 6 ∧ a = radr b R.OP_PART i) ∧
  ∀ (s : State) (c : Instr) (b : Blk) (code tag param : Nat), hostStarts c = some (b, code, tag, param) →
    s.dev.takes b 0x020 → s.dev.opState b ≠ 0 → ∃ d',
    exec c s = .next { s with dev := d' } ∧ d' = { s.dev with regs := d'.regs } ∧ s.dev.logsError d' 7 (wd (badr b 0x20))

/-! The Traveller (05). -/

/-- R124, R129, R132: a tick whose mirror angles have come in time puts the measured point where the live map and the
frame put them, to the nearest 2^-20 nm (log 20, DESIGN CHOICE); one that has not come in time is extrapolated and counted, the fifth in a row blind. Other heads stay. -/
def Obligations.TravellerTicksMeasureOrExtrapolate : Prop :=
  (∀ (s : State) (h : Fin 32) (k : Nat) (x y : Int × Int) (fm : FMap) (sk : Skein), s.dev.dead = false →
    s.dev.mirrors h = some (k, x, y) → s.dev.fmap h = some fm → s.dev.running = some sk → sk.web = false →
    s.dev.trvRuns h = true → s.dev.inTime h k = true → ∃ d',
    exec (.travellerTick h) s = .next { s with dev := d' } ∧
    d' = { s.dev with regs := d'.regs, vecs := d'.vecs, fabric := d'.fabric, heads := d'.heads } ∧
    d'.heads[h].trv.lastK = k ∧ d'.heads[h].trv.stale = 0 ∧ d'.heads[h].trv.blind = false ∧
    (d'.heads[h].trv.px, d'.heads[h].trv.py) =
      (let p := fm.fwd ((x.1 : Rat) / 256) ((y.1 : Rat) / 256); let q := sk.frame.bed p.x p.y; (fine q.1, fine q.2)) ∧
    d'.get (headB h) R.TRV_POS_X = wi (near d'.heads[h].trv.px) ∧
    d'.get (headB h) R.TRV_POS_Y = wi (near d'.heads[h].trv.py) ∧
    d'.getB (headB h) R.TRV_STAT 4 = false ∧ (∀ g : Fin 32, g ≠ h → d'.heads[g] = s.dev.heads[g])) ∧
  ∀ (s : State) (h : Fin 32), s.dev.dead = false → s.dev.trvRuns h = true →
    ((s.dev.mirrors h).any fun m => m.1 = s.dev.heads[h].trv.lastK + 1) = false →
    s.dev.inTime h (s.dev.heads[h].trv.lastK + 1) = false → ∃ d',
    exec (.staleTick h) s = .next { s with dev := d' } ∧
    d' = { s.dev with regs := d'.regs, vecs := d'.vecs, fabric := d'.fabric, heads := d'.heads } ∧
    d'.heads[h].trv.lastK = s.dev.heads[h].trv.lastK + 1 ∧
    d'.heads[h].trv.stale = s.dev.heads[h].trv.stale + 1 ∧
    d'.heads[h].trv.blind = decide (5 ≤ s.dev.heads[h].trv.stale + 1) ∧
    d'.heads[h].trv.px = s.dev.heads[h].trv.px + s.dev.heads[h].trv.vx ∧
    d'.heads[h].trv.py = s.dev.heads[h].trv.py + s.dev.heads[h].trv.vy ∧
    d'.getN (headB h) R.TRV_STALECNT = min 0xFFFFFFFF (s.dev.getN (headB h) R.TRV_STALECNT + 1) ∧
    ∀ g : Fin 32, g ≠ h → d'.heads[g] = s.dev.heads[g]

/-- R134, R138, R140: the first committed edge whose slot has come fires: a LASER_ON turns the exposure on with its power,
a LASER_OFF or the end of a dwell turns it off, LGATE following unless the outputs are held low; the firing is counted.

R142, R143, R211: a ramp or fade step of the exposure in force sets its index once its slot has come; a code that the
100 ns rule deferred is put out in its slot. Nothing of another head changes. -/
def Obligations.EdgesAndCodesDriveTheLaser : Prop :=
  ((∀ (s : State) (h : Fin 32) (x : Edge) (xs : List Edge), s.dev.dead = false → s.dev.heads[h].trv.edges = x :: xs →
    x.slot ≤ s.dev.slot → x.ent.kind = 4 ∨ x.ent.kind = 1 → ∃ d',
    exec (.entryFire h) s = .next { s with dev := d' } ∧
    d' = { s.dev with regs := d'.regs, vecs := d'.vecs, ply := d'.ply, rep := d'.rep, heads := d'.heads } ∧
    d'.heads[h].trv.edges = xs ∧ d'.heads[h].trv.on_ = decide (x.ent.kind = 4) ∧
    d'.heads[h].trv.gate = (decide (x.ent.kind = 4) && !s.dev.heads[h].trv.inhib) ∧
    (x.ent.kind = 4 → d'.heads[h].trv.pwr = x.ent.pwr) ∧
    d'.getB (headB h) R.TRV_STAT 3 = (decide (x.ent.kind = 4) && !s.dev.heads[h].trv.inhib) ∧
    d'.getN (headB h) R.TRV_FIRED = min 0xFFFFFFFF (s.dev.getN (headB h) R.TRV_FIRED + 1) ∧
    ∀ g : Fin 32, g ≠ h → d'.heads[g] = s.dev.heads[g]) ∧
  ∀ (s : State) (h : Fin 32) (n : Nat) (e : Ent), s.dev.dead = false → s.dev.heads[h].trv.dwellAt = some (n, e) →
    n ≤ s.dev.slot → e.kind = 6 → ∃ d',
    exec (.dwellOff h) s = .next { s with dev := d' } ∧
    d' = { s.dev with regs := d'.regs, vecs := d'.vecs, ply := d'.ply, rep := d'.rep, heads := d'.heads } ∧
    d'.heads[h].trv.dwellAt = none ∧ d'.heads[h].trv.on_ = false ∧ d'.heads[h].trv.gate = false ∧
    d'.getB (headB h) R.TRV_STAT 3 = false ∧ ∀ g : Fin 32, g ≠ h → d'.heads[g] = s.dev.heads[g]) ∧
  ((∀ (s : State) (h : Fin 32) (x : Machine.Step) (xs : List Machine.Step), s.dev.dead = false →
    s.dev.heads[h].trv.ramps = x :: xs → x.slot ≤ s.dev.slot →
    (s.dev.heads[h].trv.run.any fun r => r.num = x.num) = true → ∃ d',
    exec (.rampStep h) s = .next { s with dev := d' } ∧ d' = { s.dev with regs := d'.regs, heads := d'.heads } ∧
    d'.heads[h].trv.ramps = xs ∧
    (if x.on_ then d'.heads[h].trv.ri = x.index ∧ d'.heads[h].trv.rj = s.dev.heads[h].trv.rj
      else d'.heads[h].trv.rj = x.index ∧ d'.heads[h].trv.ri = s.dev.heads[h].trv.ri) ∧
    ∀ g : Fin 32, g ≠ h → d'.heads[g] = s.dev.heads[g]) ∧
  (∀ (s : State) (h : Fin 32) (x : Machine.Step) (xs : List Machine.Step), s.dev.dead = false →
    s.dev.heads[h].trv.fades = x :: xs → x.slot ≤ s.dev.slot →
    (s.dev.heads[h].trv.run.any fun r => r.num = x.num) = true → ∃ d',
    exec (.stitchStep h) s = .next { s with dev := d' } ∧ d' = { s.dev with regs := d'.regs, heads := d'.heads } ∧
    d'.heads[h].trv.fades = xs ∧
    (if x.on_ then d'.heads[h].trv.fi = (if x.index < 64 then some x.index else none) ∧ d'.heads[h].trv.fo = s.dev.heads[h].trv.fo
      else d'.heads[h].trv.fo = (if x.index < 64 then some x.index else none) ∧ d'.heads[h].trv.fi = s.dev.heads[h].trv.fi) ∧
    ∀ g : Fin 32, g ≠ h → d'.heads[g] = s.dev.heads[g]) ∧
  ∀ (s : State) (h : Fin 32) (at_ : Int) (c : Nat), s.dev.dead = false → s.dev.heads[h].trv.defer = some (at_, c) →
    at_ ≤ (s.dev.slot : Int) →
    exec (.codeDefer h) s = .next { s with dev := { s.dev with
      heads := s.dev.heads.set h { s.dev.heads[h] with trv := { s.dev.heads[h].trv with
        code := c, codeAt := at_, codes := (at_.toNat, c) :: s.dev.heads[h].trv.codes, defer := none, codeEnt := false } } } })

/-- R127: a field map operation that has read a valid image ends done, and with no running layer the image is the live
map: FMAP_VALID 1, FMAP_PEND 0, its CRC shown.

R150: a free head takes its first waiting product that can still be marked, from the first record and arc position 0. -/
def Obligations.FieldMapsAndProductsTakeTheirData : Prop :=
  ((∀ (s : State) (h : Fin 32) (bs : List Byte) (f : FMap), s.dev.dead = false → s.dev.opRunning (headB h) 1 = true →
    s.dev.sdRead s.mem (s.dev.addr2 (headB h) R.TRV_FMAP_ADDR_LO R.TRV_FMAP_ADDR_HI) fmapSize = .ok bs →
    fmapOf bs = some f → s.dev.running = none → ∃ d',
    exec (.fmapLoadDone h) s = .next { s with dev := d' } ∧
    d' = { s.dev with
      regs := d'.regs
      vecs := d'.vecs
      ops := s.dev.ops.map fun o => if o.blk = headB h then { o with doneAt := some s.dev.now, abortAt := none } else o
      heads := s.dev.heads.set h { s.dev.heads[h] with trv := { s.dev.heads[h].trv with live := some f, pend := none } } } ∧
    d'.get (headB h) R.OP_STAT = opWord 3 4095 0 (s.dev.opTag (headB h)) ∧ d'.getB (headB h) R.TRV_STAT 0 = true ∧
    d'.getB (headB h) R.TRV_STAT 2 = false ∧ d'.get (headB h) R.TRV_FMAP_CRC = f.crc) ∧
  ∀ (s : State) (h : Fin 32) (f : FMap), s.dev.dead = false → s.dev.opRunning (headB h) 2 = true →
    fmapSize ≤ s.dev.lanes[headLane h].store.length → fmapOf s.dev.lanes[headLane h].store = some f →
    s.dev.running = none → ∃ d',
    exec (.fmapFetchDone h) s = .next { s with dev := d' } ∧
    d' = { s.dev with
      regs := d'.regs, vecs := d'.vecs
      ops := s.dev.ops.map fun o => if o.blk = headB h then { o with doneAt := some s.dev.now, abortAt := none } else o
      lanes := s.dev.lanes.set (headLane h) { s.dev.lanes[headLane h] with store := [] }
      heads := s.dev.heads.set h { s.dev.heads[h] with trv := { s.dev.heads[h].trv with live := some f, pend := none } } } ∧
    d'.get (headB h) R.OP_STAT = opWord 3 4095 0 (s.dev.opTag (headB h)) ∧ d'.getB (headB h) R.TRV_STAT 0 = true ∧
    d'.getB (headB h) R.TRV_STAT 2 = false ∧ d'.get (headB h) R.TRV_FMAP_CRC = f.crc) ∧
  (∀ (s : State) (h : Fin 32) (p : Product) (rest : List Product), s.dev.dead = false → s.dev.webHead h = true →
    s.dev.trvRuns h = true → s.dev.heads[h].drf.st ≠ 7 → s.dev.heads[h].trv.webRun = false →
    s.dev.heads[h].trv.waiting = p :: rest → s.dev.webFits s.mem h p.trig = true → ∃ d',
    exec (.productStart h) s = .next { s with dev := d' } ∧ d' = { s.dev with regs := d'.regs, heads := d'.heads } ∧
    d'.heads[h].trv.product = some p ∧ d'.heads[h].trv.webRun = true ∧ d'.heads[h].trv.waiting = rest ∧
    d'.heads[h].trv.s = 0 ∧ d'.heads[h].drf.nextRec = 0 ∧ d'.heads[h].drf.arcEnd = 0 ∧
    d'.get (headB h) R.TRV_WEB_PEND = wd rest.length ∧ (∀ g : Fin 32, g ≠ h → d'.heads[g] = s.dev.heads[g]) ∧
    s.dev.regsKept d' fun a => a = radr (headB h) R.TRV_WEB_PEND)

/-! Spindle cells (06). -/

/-- R156, R305: once D(k) of a tick has come on a lane that is UP, the DRIVE frame on VC0 carries TICK and one word per
spindle: the command, EN, SEQ and the CRC-8 of R159. Each of these cells has the tick's sample outstanding; no other
cell and no other lane changes.

R167, R169, R305: a FEEDBACK frame of a head's lane marks its TICK and judges only head cells, whose amplifier
reports it takes; a word that has not come 2,000 ns after D(k) makes its sample bad. SDRAM is untouched. R313: a second frame
for a TICK is dropped and counted; how long a TICK is remembered, and that SLIP lies within a block, are the model's choices
(logs 33 and 31). -/
def Obligations.DriveAndFeedbackFramesPairUp : Prop :=
  (∀ (s : State) (n : Fin 40), s.dev.dead = false → s.dev.laneUp n = true →
    (∀ i ∈ s.dev.laneCells n, ∀ j t, s.dev.cells[i].kSent = some (j, t) → j < s.dev.driveTick n) → ∃ d' slip,
    exec (.driveFrame n) s = .next { s with dev := d' } ∧
    d' = { s.dev with regs := d'.regs, fresh := s.dev.fresh + 1, cells := d'.cells, lanes := d'.lanes } ∧
    slip < 132 / 2 ^ s.dev.getF (laneB n) R.LANE_STAT 5 4 ∧
    (d'.lanes[n].sent[(0 : Fin 4)].map fun f => (f.type, f.data)) =
      some (0, leBytes 4 (s.dev.driveTick n) ++ leBytes 4 slip ++ (s.dev.laneCells n).flatMap fun i =>
        bytes48 (driveWord s.dev.cells[i].cmd s.dev.cells[i].en (s.dev.driveTick n))) ∧
    (∀ i ∈ s.dev.laneCells n, d'.cells[i] = { s.dev.cells[i] with
      kSent := some (s.dev.driveTick n, s.dev.now)
      samples := s.dev.cells[i].samples ++ [⟨s.dev.driveTick n, s.dev.now, none⟩] }) ∧
    (∀ i, i ∉ s.dev.laneCells n → d'.cells[i] = s.dev.cells[i]) ∧
    ∀ k : Fin 40, k ≠ n → d'.lanes[k] = s.dev.lanes[k]) ∧
  ((∀ (s : State) (n : Fin 40) (f : FbFrame), s.dev.dead = false → n.val < 32 → s.dev.laneUp n = true →
    (∀ r : Fin 16, s.dev.flt.slices[r].unit = none) → ∃ d',
    exec (.feedbackFrame n f) s = .next { s with dev := d' } ∧
    if s.dev.lanes[n].fbTicks.any (fun t => t.1 = f.tick && s.dev.tick < t.2 + 256) = true then
      d' = { s.dev with
        regs := d'.regs, vecs := d'.vecs, fabric := d'.fabric
        lanes := s.dev.lanes.set n { s.dev.lanes[n] with violAt := some s.dev.now } } ∧
      d'.getN (laneB n) R.LANE_CREDVIOL = min 0xFFFFFFFF (s.dev.getN (laneB n) R.LANE_CREDVIOL + 1)
    else
      d' = { s.dev with
        regs := d'.regs, vecs := d'.vecs, fabric := d'.fabric, cells := d'.cells, tunes := d'.tunes
        lanes := s.dev.lanes.set n { s.dev.lanes[n] with
          fbTicks := (f.tick, s.dev.tick) :: s.dev.lanes[n].fbTicks.filter fun t => s.dev.tick < t.2 + 256 } } ∧
      (∀ i, s.dev.tunes[Fin.ofNat 8 (n.val / 4)] = none → i ∉ s.dev.laneCells n → d'.cells[i] = s.dev.cells[i])) ∧
  (∀ (s : State) (h : Fin 32) (tick : Word) (w : BitVec 48) (x : Samp), s.dev.dead = false →
    s.dev.laneUp (headLane h) = true → (∀ r : Fin 16, s.dev.flt.slices[r].unit = none) →
    s.dev.lanes[headLane h].fbTicks.any (fun t => t.1 = tick && s.dev.tick < t.2 + 256) = false →
    s.dev.inReset (blk .servo (h.val / 4)) = false → (crc8 w).toNat = w.toNat / 2 ^ 40 → w.getLsbD 31 = false →
    s.dev.cells[headCell h 0].bySeq (w.toNat / 2 ^ 32 % 16) = some x → s.dev.now * 5 ≤ x.sent * 5 + 8000 → ∃ d',
    exec (.feedbackFrame (headLane h) ⟨tick, [w]⟩) s = .next { s with dev := d' } ∧
    d'.cells[headCell h 0].bits = w.toNat / 2 ^ 24 % 128 ∧ d'.cells[headCell h 0].seq = w.toNat / 2 ^ 32 % 16 ∧
    ∀ y ∈ d'.cells[headCell h 0].samples, y.k = x.k → y.good.isSome = true) ∧
  ∀ (s : State) (n : Fin 40) (j : Fin 6) (i : Fin 256) (x : Samp), s.dev.dead = false →
    (s.dev.laneCells n)[j.val]? = some i → (s.dev.cells[i].samples.find? fun x => x.good.isNone) = some x →
    s.dev.pastNs x.sent 2000 = true → ∃ d',
    exec (.feedbackTimeout n j) s = .next { s with dev := d' } ∧
    d' = { s.dev with
      regs := d'.regs, vecs := d'.vecs, fabric := d'.fabric, cells := d'.cells, tunes := d'.tunes, msps := d'.msps } ∧
    ∀ y ∈ d'.cells[i].samples, y.k = x.k → y.good.isSome = true)

/-- R161, R163, R164, R168: at the control deadline a cell in RUN, HOLD, LASTING or TUNE computes the command of its next
drive word from the law in force, at most full scale, with EN 1: from the sample of its tick, else from the hold-over value, in
LASTING from the frozen one; no cell of another head and no SDRAM changes. The command is stated outside a tuning operation. -/
def Obligations.ControlDeadlinesComputeTheLaw : Prop :=
  ∀ (s : State) (h : Fin 32), s.dev.dead = false → s.dev.up (blk .servo (h.val / 4)) = true →
    s.dev.up (headB h) = true → ∃ d',
    exec (.controlDeadline h) s = .next { s with dev := d' } ∧
    d' = { s.dev with
      regs := d'.regs, live := d'.live, vecs := d'.vecs, fabric := d'.fabric, cells := d'.cells, tunes := d'.tunes
      fresh := d'.fresh } ∧
    (∀ (r : Fin 6) (k t : Nat), s.dev.cells[headCell h r].kSent = some (k, t) → s.dev.cells[headCell h r].kDone ≠ some k →
      s.dev.pastNs t 880 = true → runState s.dev.cells[headCell h r].st = true →
      let c := s.dev.cells[headCell h r]
      let e := d'.cells[headCell h r]
      e.kDone = some k ∧ e.en = true ∧ e.cmd.natAbs ≤ 524287 ∧ e.st = c.st ∧
      ((∀ q : Fin 6, s.dev.cells[headCell h q].due = []) → s.dev.tunes[Fin.ofNat 8 (h.val / 4)] = none →
        (∀ th, c.newest = some (k, th) → c.st ≠ 3 → e.cmd = (s.dev.law (headCell h r) th false 0 0).1.cmd ∧ e.th1 = th) ∧
        (c.newest.map Prod.fst ≠ some k ∨ c.st = 3 →
          e.cmd = (s.dev.law (headCell h r) (if c.st = 3 then c.frozen else c.th1 + c.om) true 0 0).1.cmd ∧
          e.th1 = if c.st = 3 then c.frozen else c.th1 + c.om))) ∧
    ∀ i : Fin 256, (∀ r : Fin 6, i ≠ headCell h r) → d'.cells[i] = s.dev.cells[i]

/-- R175 steps 1 and 10, R177: SRV_APPLY puts the written coefficients of the named cells in force and no others, or, for a cell
within a tick, waits until it has been computed (R176; log 30, the model's choice); a cell's control word is stored, and one with
EN 0 takes the cell to OFF with EN 0 and command 0.

R179 to R182: the chirp follows the step phase, whose results it shows, with OP_PART[0] 1 and progress of a quarter; the end
writes the results to SDRAM with the operation done, or fails with 0x82 and writes nothing where more than a hundredth of the
chirp's ticks clipped. -/
def Obligations.CellsSwitchApplyAndTune : Prop :=
  ((∀ (s : State) (k : Fin 8) (v : Word), s.dev.takes (blk .servo k.val) 0xD04 → ∃ d',
    exec (.srvApply k v) s = .next { s with dev := d' } ∧
    d' = { s.dev with regs := d'.regs, live := d'.live, cells := d'.cells } ∧
    (∀ (c : Fin 24), ∀ r ∈ shadowRegs, ∀ j < r.2, let i : Fin 256 := Fin.ofNat 256 (24 * k.val + c.val)
      if bit v c.val = false then d'.cliv i r.1 j = s.dev.cliv i r.1 j ∧ d'.cells[i] = s.dev.cells[i]
      else if s.dev.midTick i = true then
        d'.cliv i r.1 j = s.dev.cliv i r.1 j ∧ (cellAdr i r.1 j, s.dev.cget i r.1 j) ∈ d'.cells[i].due
      else d'.cliv i r.1 j = s.dev.cget i r.1 j ∧ d'.cells[i] = { s.dev.cells[i] with due := [] }) ∧
    s.dev.regsKept d' fun a => ∃ c, c < 24 ∧ a = radr (blk .servo k.val) R.SRV_CSTAT c) ∧
  (∀ (s : State) (c : CellId) (v : Word), s.dev.takes (cellBlk (cellOf c)) (cellAdr (cellOf c) R.SRV_CCTL - badr (cellBlk (cellOf c)) 0) →
    bit v 0 = true → ∃ d',
    exec (.cellEnable c v) s = .next { s with dev := d' } ∧ d' = { s.dev with regs := d'.regs, msps := d'.msps } ∧
    d'.msps = (match c with
      | .servo _ => s.dev.msps
      | .msp m => s.dev.msps.set m { s.dev.msps[m] with parked := false }) ∧
    d'.cget (cellOf c) R.SRV_CCTL = v &&& 0xF#32 ∧ s.dev.regsKept d' fun a => a = cellAdr (cellOf c) R.SRV_CCTL) ∧
  ∀ (s : State) (c : CellId) (v : Word), s.dev.takes (cellBlk (cellOf c)) (cellAdr (cellOf c) R.SRV_CCTL - badr (cellBlk (cellOf c)) 0) →
    bit v 0 = false → s.dev.cells[cellOf c].st ≠ 5 → s.dev.cells[cellOf c].st ≠ 0 → ∃ d',
    exec (.cellEnable c v) s = .next { s with dev := d' } ∧
    d' = { s.dev with
      regs := d'.regs, live := d'.live, vecs := d'.vecs, fabric := d'.fabric, cells := d'.cells, tunes := d'.tunes
      msps := d'.msps } ∧
    d'.cget (cellOf c) R.SRV_CCTL = v &&& 0xF#32 ∧ d'.cells[cellOf c].st = 0 ∧ d'.cells[cellOf c].en = false ∧
    d'.cells[cellOf c].cmd = 0) ∧
  ((∀ (s : State) (k : Fin 8) (t : Tune), s.dev.dead = false → s.dev.tunes[k] = some t →
    s.dev.opRunning (blk .servo k.val) 1 = true → t.chirp = false →
    2 * s.dev.getF (blk .servo k.val) R.SRV_TUNE_LEN 15 0 ≤ t.ticks → ∃ d' rise above settle turn,
    exec (.tuningChirp k) s = .next { s with dev := d' } ∧
    d' = { s.dev with
      regs := d'.regs, fresh := s.dev.fresh + 4
      tunes := s.dev.tunes.set k (some { t with
        chirp := true, ticks := 0, res := (rise, above, settle), turn := turn }) } ∧
    d'.get (blk .servo k.val) R.OP_PART = 1#32 ∧ d'.get (blk .servo k.val) R.OP_PART 1 = rise ∧
    d'.get (blk .servo k.val) R.OP_PART 2 = above ∧ d'.get (blk .servo k.val) R.OP_PART 3 = settle ∧
    d'.getF (blk .servo k.val) R.OP_STAT 27 16 = max (s.dev.getF (blk .servo k.val) R.OP_STAT 27 16) 1023 ∧
    s.dev.regsKept d' fun a => a = radr (blk .servo k.val) R.OP_STAT ∨ ∃ j < 4, a = radr (blk .servo k.val) R.OP_PART j) ∧
  (∀ (s : State) (k : Fin 8) (c : Fin 24) (t : Tune) (m' : Mem), s.dev.dead = false → s.dev.tunes[k] = some t →
    t.cell = c.val → s.dev.opRunning (blk .servo k.val) 1 = true → t.chirp = true →
    s.dev.chirpTicks (blk .servo k.val) ≤ t.ticks → t.clips * 100 ≤ s.dev.chirpTicks (blk .servo k.val) →
    s.dev.sdWrite s.mem (s.dev.tuneAddr (blk .servo k.val)) (tuneBytes
      (s.dev.getF (blk .servo k.val) R.SRV_TUNE_LEN 15 0) (s.dev.getF (blk .servo k.val) R.SRV_TUNE_PTS 8 0)
      (s.dev.get (blk .servo k.val) R.SRV_TUNE_STEP) t) = .ok m' →
    let i : Fin 256 := Fin.ofNat 256 (24 * k.val + t.cell)
    ∃ d', exec (.tuningDone k c) s = .next { s with mem := m', dev := d' } ∧
    d' = { s.dev with
      regs := d'.regs, ops := d'.ops, cells := s.dev.cells.set i { s.dev.cells[i] with tune := false }
      tunes := s.dev.tunes.set k none } ∧
    d'.ops = s.dev.ops.map (fun o =>
      if o.blk = blk .servo k.val then { o with doneAt := some s.dev.now, abortAt := none } else o) ∧
    d'.get (blk .servo k.val) R.OP_STAT = opWord 3 4095 0 (s.dev.opTag (blk .servo k.val)) ∧
    d'.get (blk .servo k.val) R.OP_PART = wd (2 + s.dev.getF (blk .servo k.val) R.SRV_TUNE_PTS 8 0 * 65536) ∧
    s.dev.regsKept d' fun a => a = radr (blk .servo k.val) R.OP_STAT ∨ a = radr (blk .servo k.val) R.OP_PART) ∧
  ∀ (s : State) (k : Fin 8) (c : Fin 24) (t : Tune), s.dev.dead = false → s.dev.tunes[k] = some t →
    t.cell = c.val → s.dev.opRunning (blk .servo k.val) 1 = true → t.chirp = true →
    s.dev.chirpTicks (blk .servo k.val) ≤ t.ticks → s.dev.chirpTicks (blk .servo k.val) < t.clips * 100 →
    let i : Fin 256 := Fin.ofNat 256 (24 * k.val + t.cell)
    ∃ d', exec (.tuningDone k c) s = .next { s with dev := d' } ∧
    d' = { s.dev with
      regs := d'.regs, cells := s.dev.cells.set i { s.dev.cells[i] with tune := false }, tunes := s.dev.tunes.set k none } ∧
    d'.getF (blk .servo k.val) R.OP_STAT 31 28 = 4 ∧ d'.getF (blk .servo k.val) R.OP_STAT 15 8 = 0x82 ∧
    s.dev.regsKept d' fun a => a = radr (blk .servo k.val) R.OP_STAT)

/-! Ply (07). -/

/-- R189, R190: an unsplit item whose header passes R69 and whose ends lie in its zone enters the window with the heads
that are eligible, in its zone and still running; with none of them it is listed with reason 0x03.

R192, R195 to R197: an offer is granted the first item that qualifies; a grant whose slot is still open puts the head on
the item, whose records go to its fetch queue, one whose slot has gone returns it; a completion report brings the records done of
each item of the head, or takes an item all of whose records are done from the window. -/
def Obligations.ItemsAreOfferedGrantedAndCompleted : Prop :=
  (∀ (s : State) (k : Skein) (r : List Word) (z : Zone), s.dev.dead = false → s.dev.up plyB = true →
    s.dev.running = some k → k.web = false → s.dev.ply.next < k.poolRecs → s.dev.ply.items.length < 1024 →
    s.dev.poolRec s.mem s.dev.ply.next = some r → s.dev.badHeader s.dev.ply.next r = false → hStitch r = 0 →
    s.dev.ply.zones[fld (r.getD 3 0) 7 0]? = some z →
    (let f := rfirst ((s.dev.poolRec s.mem (s.dev.ply.next + 1)).getD []); z.has f.1 f.2) = true →
    (let l := rlast ((s.dev.poolRec s.mem (s.dev.ply.next + hNvec r)).getD []); z.has l.1 l.2) = true →
    let e := s.dev.running_ (r.getD 2 0 &&& z.heads)
    let f := rfirst ((s.dev.poolRec s.mem (s.dev.ply.next + 1)).getD [])
    ∃ d', exec .itemWindowEntry s = .next { s with dev := d' } ∧
      (if e ≠ 0 then
        d' = { s.dev with regs := d'.regs, ply := { s.dev.ply with
          next := s.dev.ply.next + 1 + hNvec r
          items := s.dev.ply.items ++ [⟨s.dev.ply.next, r.getD 1 0, e, fld (r.getD 3 0) 7 0, s.dev.ply.next + 1, hNvec r,
            s.dev.ply.next + 1 + hNvec r, 0, 0, s.dev.now, 0, none, false, [], f.1, f.2⟩] } } ∧
        d'.getF plyB R.PLY_STAT 26 16 = s.dev.ply.items.length + 1 ∧
        s.dev.regsKept d' fun a => a = radr plyB R.PLY_STAT
      else
        d' = { s.dev with
          regs := d'.regs, rep := { s.dev.rep with entries := d'.rep.entries }
          ply := { s.dev.ply with next := s.dev.ply.next + 1 + hNvec r } } ∧
        (∃ x ∈ d'.rep.entries.getLast?, x.reason = 3 ∧ x.head = 0xFF ∧ x.pool = true ∧
          x.first + x.count = s.dev.ply.next + 1 + hNvec r) ∧
        d'.getN plyB R.PLY_UNEXEC = min 0xFFFFFFFF (s.dev.getN plyB R.PLY_UNEXEC + (1 + hNvec r)) ∧
        s.dev.regsKept d' fun a => a = radr plyB R.PLY_STAT ∨ a = radr plyB R.PLY_UNEXEC)) ∧
  ((∀ (s : State) (c : Instr) (h : Fin 32) (i : Item), s.dev.dead = false → s.dev.up plyB = true →
    s.dev.up (agtB h) = true → (c = .offer h ∧ s.dev.slotOpen h = true ∨ c = .standingOfferEval h ∧ s.dev.standing h = true) →
    (s.dev.ply.items.find? fun x => s.dev.qualifies h x) = some i → ∃ d',
    exec c s = .next { s with dev := d' } ∧
    d' = { s.dev with regs := d'.regs, ply := { s.dev.ply with
      items := s.dev.ply.items.map fun x => if x.ix = i.ix then
        { x with head := some h, begun := false, age0 := x.age0 + (s.dev.now - x.since) } else x
      heads := s.dev.ply.heads.set h { s.dev.ply.heads[h] with grant := some (i.ix, s.dev.slotNo h) } } } ∧
    d'.getN plyB R.PLY_GRANTS = min 0xFFFFFFFF (s.dev.getN plyB R.PLY_GRANTS + 1) ∧
    s.dev.regsKept d' fun a => a = radr plyB R.PLY_GRANTS) ∧
  (∀ (s : State) (h : Fin 32) (ix slot : Nat) (i : Item), s.dev.dead = false →
    s.dev.ply.heads[h].grant = some (ix, slot) → s.dev.up (agtB h) = true → s.dev.onItem h = false →
    (s.dev.ply.items.find? fun x => x.ix = ix) = some i → s.dev.taking h = true → s.dev.webLayer = false → s.dev.heads[h].drf.poly = none →
    s.dev.heads[h].drf.fetch = [] → s.dev.heads[h].drf.listLen ≤ s.dev.heads[h].drf.nextRec →
    s.dev.heads[h].drf.nextRec = slot → s.dev.heads[h].drf.moves = [] → ∃ d',
    exec (.grant h) s = .next { s with dev := d' } ∧
    d' = { s.dev with
      regs := d'.regs, heads := d'.heads, rep := d'.rep
      ply := { s.dev.ply with heads := s.dev.ply.heads.set h { s.dev.ply.heads[h] with
        grant := none, item := some ix, items := s.dev.ply.heads[h].items ++ [(ix, [])] } } } ∧
    d'.get (agtB h) R.AGT_ITEM_ID (h.val % 4) = i.id ∧ d'.get (agtB h) R.AGT_ITEM_REC (h.val % 4) = wd (i.nvec * 65536) ∧
    d'.rep = { s.dev.rep with
      sums := s.dev.rep.sums.set h { s.dev.rep.sums[h] with plyTaken := s.dev.rep.sums[h].plyTaken + 1 } } ∧
    d'.heads[h].drf.entered = 0 ∧ d'.heads[h].drf.first_ = true ∧ d'.heads[h].drf.pos = min 256 i.nvec ∧
    d'.heads[h].drf.items.length = min 256 i.nvec ∧ d'.heads[h].drf.handOver = [] ∧ (∀ g : Fin 32, g ≠ h → d'.heads[g] = s.dev.heads[g]) ∧
    s.dev.regsKept d' (onPage (agtB h))) ∧
  (∀ (s : State) (h : Fin 32) (ix slot : Nat), s.dev.dead = false → s.dev.ply.heads[h].grant = some (ix, slot) →
    s.dev.up (agtB h) = true → s.dev.slotNo h ≠ slot → ∃ d',
    exec (.grant h) s = .next { s with dev := d' } ∧
    d' = { s.dev with regs := d'.regs, ply := { s.dev.ply with
      items := s.dev.ply.items.map fun x => if x.ix = ix then { x with head := none, begun := false, since := s.dev.now } else x
      heads := s.dev.ply.heads.set h { s.dev.ply.heads[h] with grant := none } } } ∧
    d'.getN (agtB h) R.AGT_RETURNED (h.val % 4) = min 0xFFFFFFFF (s.dev.getN (agtB h) R.AGT_RETURNED (h.val % 4) + 1)) ∧
  ∀ (s : State) (h : Fin 32), s.dev.dead = false → s.dev.up plyB = true → s.dev.up (agtB h) = true →
    (s.dev.ply.items.map (·.ix)).Nodup → (s.dev.ply.heads[h].items.map (·.1)).Nodup →
    ∃ d', exec (.itemCompletion h) s = .next { s with dev := d' } ∧
      d' = { s.dev with regs := d'.regs, ply := { s.dev.ply with
        items := s.dev.ply.items.filterMap fun x => match s.dev.ply.heads[h].items.find? fun y => y.1 = x.ix with
          | none => some x
          | some y => if x.nvec ≤ y.2.length then none else some { x with done := y.2 }
        heads := s.dev.ply.heads.set h { s.dev.ply.heads[h] with
          item := d'.ply.heads[h].item
          items := s.dev.ply.heads[h].items.filter fun y =>
            ¬ s.dev.ply.items.any fun x => x.ix = y.1 && decide (x.nvec ≤ y.2.length) } } } ∧
      s.dev.regsKept d' fun a => a = radr plyB R.PLY_STAT)

/-- R199 to R206: a clearance request that conflicts with nothing is cleared at once, one that conflicts waits; an extension
grows the box of its run; boxes go PLY_LINGER after their last LASER_OFF. None of these, with the grants they let through,
ever leaves two conflicting boxes of different heads cleared. -/
def Obligations.ClearedBoxesNeverConflict : Prop :=
  (∀ (s : State) (h : Fin 32) (run : Nat), s.dev.dead = false → s.dev.wantsClear h = some run → s.dev.up plyB = true →
    s.dev.up (agtB h) = true → s.dev.headRuns h = true →
    let b := s.dev.runBox s.dev.heads[h].drf.moves run
    ∃ d', exec (.clearanceRequest h) s = .next { s with dev := d' } ∧
      d' = { s.dev with regs := d'.regs, ply := d'.ply } ∧ (s.dev.ply.exclusive → d'.ply.exclusive) ∧
      (if s.dev.ply.hitsBoxes h b = true ∨ s.dev.ply.hitsReqs h b = true then
        d'.ply.heads[h].boxes = s.dev.ply.heads[h].boxes ∧ d'.ply.heads[h].req = some (b, s.dev.now)
      else d'.ply.heads[h].boxes = s.dev.ply.heads[h].boxes ++ [b] ∧ d'.ply.heads[h].req = none ∧
        d'.getN plyB R.PLY_FREE_GR = min 0xFFFFFFFF (s.dev.getN plyB R.PLY_FREE_GR + 1)) ∧
      ∀ g : Fin 32, g ≠ h → d'.ply.heads[g] = s.dev.ply.heads[g]) ∧
  (∀ (s : State) (h : Fin 32) (b : PBox), s.dev.dead = false → s.dev.taking h = true → s.dev.growth h = some b →
    s.dev.up plyB = true → s.dev.ply.hitsBoxes h b = false → s.dev.ply.hitsHolder h b = false → ∃ d',
    exec (.extension h) s = .next { s with dev := d' } ∧
    d' = { s.dev with ply := { s.dev.ply with
      heads := s.dev.ply.heads.set h { s.dev.ply.heads[h] with
        boxes := s.dev.ply.heads[h].boxes.map fun x => if x.run = b.run then { b with off := x.off } else x } } } ∧
    (s.dev.ply.exclusive → d'.ply.exclusive)) ∧
  ∀ (s : State) (h : Fin 32) (b : PBox) (t : Nat), s.dev.dead = false → s.dev.up plyB = true →
    b ∈ s.dev.ply.heads[h].boxes → b.off = some t → s.dev.runOver h b.run = true → s.dev.past t (s.dev.getF plyB R.PLY_LINGER 15 0) = true → ∃ d',
    exec (.boxRelease h) s = .next { s with dev := d' } ∧
    d' = { s.dev with regs := d'.regs, vecs := d'.vecs, ply := d'.ply } ∧ (s.dev.ply.exclusive → d'.ply.exclusive) ∧
    ((∀ g : Fin 32, s.dev.ply.heads[g].req = none) → b ∉ d'.ply.heads[h].boxes) ∧
    d'.ply.items = s.dev.ply.items ∧ d'.ply.zones = s.dev.ply.zones

/-- R14, R203: the melt-pool positions that have reached the arbiter replace those reported before; after the check, a pair of
exposing heads is in a plume excursion exactly where one stands in the plume of the other; PLY_VIOL does not change where no
excursion begins. -/
def Obligations.PlumeExcursionsAreWatched : Prop :=
  ∀ s : State, s.dev.dead = false → s.dev.up plyB = true → s.dev.running.isSome = true → s.dev.exclOn = true → ∃ d',
    exec .meltPoolPosition s = .next { s with dev := d' } ∧
    d' = { s.dev with
      regs := d'.regs, vecs := d'.vecs, fabric := d'.fabric
      ply := { s.dev.ply with viol := d'.ply.viol, heads := d'.ply.heads } } ∧
    (∀ h : Fin 32, d'.ply.heads[h] = { s.dev.ply.heads[h] with melt := d'.ply.heads[h].melt }) ∧
    (∀ h : Fin 32, (∀ x ∈ s.dev.fabric, x.dst = plyB → x.loc = .inbox → x.src = headB h → ∀ a b, x.body ≠ .melt a b) →
      d'.ply.heads[h].melt = s.dev.ply.heads[h].melt) ∧
    (∀ x ∈ d'.fabric, x.dst = plyB → x.loc = .inbox → ∀ a b, x.body ≠ .melt a b) ∧
    (∀ h g : Fin 32, (h.val, g.val) ∈ d'.ply.viol ↔ s.dev.meltsIn.inPlume h g) ∧
    ((∀ h g : Fin 32, s.dev.meltsIn.inPlume h g → (h.val, g.val) ∈ s.dev.ply.viol) →
      d'.getN plyB R.PLY_VIOL = s.dev.getN plyB R.PLY_VIOL)

/-! Melt-pool vision (08). -/

/-- R222, R223, R308: an accepted COMMIT waits under the next SID, a refused one shows its reason and changes no set; the set
that waits goes out at the camera's next frame start in a SETTINGS frame, to take effect with the frame MPV_CAM_DLY later; sets
of more than 256 ticks ago are no longer kept (log 39, the model's choice).

R227, R228, R244, R247: a pipeline runs once enabled with its camera there and rests once disabled; a valid calibration is
in force at once outside a layer and a bad one fails with 0x80; a pipeline takes a fenced neighbour's camera and gives it back. -/
def Obligations.PipelinesAreSetUpAndHosted : Prop :=
  ((∀ (s : State) (h : Fin 32), s.dev.takes (mpvB h) 0x134 →
    let last := s.dev.getF (mpvB h) R.MPV_SET_STAT 7 0
    let sid := if last = 255 then 1 else last + 1
    let why := s.dev.commitCheck h (s.dev.shadowSet h sid)
    ∃ d', exec (.commit h) s = .next { s with dev := d' } ∧
      s.dev.regsKept d' (fun a => a = radr (mpvB h) R.MPV_SET_STAT ∨ a = radr (mpvB h) R.MPV_STAT) ∧
      if why = 0 then
        d' = { s.dev with
          regs := d'.regs
          mpvs := s.dev.mpvs.set h { s.dev.mpvs[h] with wait := some (s.dev.shadowSet h sid, s.dev.now) } } ∧
        d'.get (mpvB h) R.MPV_SET_STAT = wd (sid + s.dev.mpvs[h].wait.isSome.toNat * 4096)
      else
        d' = { s.dev with regs := d'.regs } ∧ d'.getB (mpvB h) R.MPV_SET_STAT 8 = true ∧
        d'.getF (mpvB h) R.MPV_SET_STAT 11 9 = why ∧ d'.getF (mpvB h) R.MPV_SET_STAT 7 0 = last) ∧
  ∀ (s : State) (h : Fin 32) (set : CamSet) (at_ : Nat), s.dev.dead = false → s.dev.mpvs[h].wait = some (set, at_) →
    s.dev.up (mpvB h) = true → s.dev.cameraHere h = true → s.dev.frameTick h = true →
    at_ * 5 < 4 * (1000 * s.dev.tick + (setAt s.dev.mpvs[h].force s.dev.mpvs[h].sent (s.dev.tick - 1)).phase) →
    s.dev.laneCan (headLane h) 1 32 = true → ∃ d',
    exec (.settings h) s = .next { s with dev := d' } ∧
    d' = { s.dev with
      regs := d'.regs, lanes := d'.lanes
      mpvs := s.dev.mpvs.set h { s.dev.mpvs[h].prune s.dev.tick with
        wait := none
        sent := (s.dev.mpvs[h].prune s.dev.tick).sent ++
          [(set, (s.dev.ownView h).later (fld (s.dev.liv (mpvB h) R.MPV_CAM_DLY) 1 0) s.dev.tick)] } } ∧
    (d'.lanes[headLane h].sent[(1 : Fin 4)].map fun f => (f.type, f.data)) = some (1, set.bytes s.dev.tick) ∧
    (∀ n : Fin 40, n ≠ headLane h → d'.lanes[n] = s.dev.lanes[n]) ∧
    s.dev.regsKept d' fun a => onPage (mpvB h) a ∨ onPage (laneB (headLane h)) a) ∧
  ((∀ (s : State) (h : Fin 32) (v : Word), s.dev.takes (mpvB h) 0x100 → bit v 0 = true → s.dev.mpvSt h = 0 →
    s.dev.cameraHere h = true → s.dev.laneUp (headLane h) = true → ∃ d',
    exec (.mpvEnable h v) s = .next { s with dev := d' } ∧ d' = { s.dev with regs := d'.regs } ∧ d'.mpvSt h = 1 ∧
    d'.getB (mpvB h) R.MPV_CTL 0 = true ∧
    s.dev.regsKept d' fun a => a = radr (mpvB h) R.MPV_CTL ∨ a = radr (mpvB h) R.MPV_STAT) ∧
  (∀ (s : State) (h : Fin 32) (v : Word), s.dev.takes (mpvB h) 0x100 → bit v 0 = false →
    s.dev.mpvSt h = 1 ∨ s.dev.mpvSt h = 2 → ∃ d',
    exec (.mpvEnable h v) s = .next { s with dev := d' } ∧
    d' = { s.dev with regs := d'.regs, mpvs := s.dev.mpvs.set h { s.dev.mpvs[h] with guest := none, was := none } } ∧
    d'.mpvSt h = 0) ∧
  (∀ (s : State) (h : Fin 32) (bs : List Byte), s.dev.dead = false → s.dev.opRunning (mpvB h) 1 = true →
    s.dev.sdRead s.mem (s.dev.addr2 (mpvB h) R.MPV_CAL_ADDR_LO R.MPV_CAL_ADDR_HI) 5376 = .ok bs → s.dev.running = none →
    s.dev.fenced (mpvB h) = false →
    ∃ d', exec (.calLoadDone h) s = .next { s with dev := d' } ∧
      match calOf bs with
      | some c =>
        d' = { s.dev with
          regs := d'.regs, vecs := d'.vecs, ops := d'.ops
          mpvs := s.dev.mpvs.set h { s.dev.mpvs[h] with cal := some c, calPend := none } } ∧
        d'.ops = s.dev.ops.map (fun o =>
          if o.blk = mpvB h then { o with doneAt := some s.dev.now, abortAt := none } else o) ∧
        d'.get (mpvB h) R.OP_STAT = opWord 3 4095 0 (s.dev.opTag (mpvB h)) ∧ d'.getB (mpvB h) R.MPV_STAT 3 = true ∧
        d'.getB (mpvB h) R.MPV_STAT 4 = false ∧ d'.getB (mpvB h) R.MPV_EVT 5 = true
      | none =>
        d' = { s.dev with regs := d'.regs } ∧ d'.getF (mpvB h) R.OP_STAT 31 28 = 4 ∧
        d'.getF (mpvB h) R.OP_STAT 15 8 = 0x80 ∧ s.dev.regsKept d' fun a => a = radr (mpvB h) R.OP_STAT) ∧
  (∀ (s : State) (h : Fin 32), s.dev.dead = false → s.dev.mayGuest h = true → s.dev.mpvSt h = 1 →
    (∀ p : Fin 32, p < h → p.val / 4 = h.val / 4 →
      ¬ (s.dev.guestHead p = s.dev.guestHead h ∧ s.dev.mayGuest p = true ∧ (s.dev.mpvSt p = 1 ∨ s.dev.mpvSt p = 2))) →
    s.dev.hostOf (s.dev.guestHead h) = none → s.dev.frameTick (s.dev.guestHead h) = true → ∃ d',
    exec (.guestStart h) s = .next { s with dev := d' } ∧
    d' = { s.dev with
      regs := d'.regs, vecs := d'.vecs
      mpvs := s.dev.mpvs.set h { s.dev.mpvs[h] with guest := some (Fin.ofNat 4 (s.dev.guestHead h).val, s.dev.tick) } } ∧
    d'.mpvSt h = 2 ∧ d'.getB (mpvB h) R.MPV_EVT 3 = true) ∧
  ∀ (s : State) (h : Fin 32) (i : Fin 4) (t : Nat), s.dev.dead = false → s.dev.mpvs[h].guest = some (i, t) → s.dev.mpvSt h = 2 →
    s.dev.fence (mpvB (Fin.ofNat 32 (h.val / 4 * 4 + i.val))) = 0 →
    s.dev.frameTick (Fin.ofNat 32 (h.val / 4 * 4 + i.val)) = true → ∃ d',
    exec (.guestEnd h) s = .next { s with dev := d' } ∧
    d' = { s.dev with
      regs := d'.regs, vecs := d'.vecs
      mpvs := s.dev.mpvs.set h { s.dev.mpvs[h] with guest := none, was := some (i, t, s.dev.tick) } } ∧
    d'.mpvSt h = 1 ∧ d'.getB (mpvB h) R.MPV_EVT 4 = true)

/-- R221, R225, R235, R236, R243, R309: a good frame is counted and, with records enabled, hands one feature record to the
correction unit; a frame with a failed CRC is counted as bad and hands over nothing; a SENSE frame brings its samples.

R240, R286: the first entry that waits for a ring is written at the ring's next place and at no other address, and WR
counts it; nothing else of the device changes. -/
def Obligations.FramesBecomeRecordsInTheirRings : Prop :=
  ((∀ (s : State) (h : Fin 32) (f : CamFrame), s.dev.dead = false → s.dev.laneUp (headLane h) = true →
    (∀ r : Fin 16, s.dev.flt.slices[r].unit = none) → 65 ≤ s.dev.lanes[headLane h].grants[(0 : Fin 3)] →
    let hd := frameHdr f.hdr.toList
    s.dev.pipeAt h (s.dev.fullTick hd.tick) = some h → f.crcOk = true → hd.ok = true → f.pixels.length = hd.w * hd.h → ∃ d',
    exec (.cameraFrame h f) s = .next { s with dev := d' } ∧
    d' = { s.dev with
      regs := d'.regs, vecs := d'.vecs, fabric := d'.fabric, mpvs := d'.mpvs, heads := d'.heads, rep := d'.rep
      lanes := s.dev.lanes.set (headLane h) { s.dev.lanes[headLane h] with back := some (0, 65) } } ∧
    d'.getN (mpvB h) R.MPV_FRAMES = min 0xFFFFFFFF (s.dev.getN (mpvB h) R.MPV_FRAMES + 1) ∧ d'.mpvs[h].bad = false ∧
    d'.mpvs[h].seq = some hd.seq ∧
    (if s.dev.getB (mpvB h) R.MPV_CTL 1 then
      ∃ r, r.tMid = 1000 * s.dev.fullTick hd.tick + hd.start + hd.exp / 2 ∧ r.last = s.dev.tick ∧ d'.heads[h] = { s.dev.heads[h] with cor := { s.dev.heads[h].cor with recs := s.dev.heads[h].cor.recs ++ [r] } }
    else d'.heads[h] = s.dev.heads[h]) ∧
    (∀ g : Fin 32, g ≠ h → d'.heads[g] = s.dev.heads[g] ∧ d'.mpvs[g] = s.dev.mpvs[g])) ∧
  (∀ (s : State) (h : Fin 32) (f : CamFrame), s.dev.dead = false → s.dev.laneUp (headLane h) = true →
    (∀ r : Fin 16, s.dev.flt.slices[r].unit = none) → 65 ≤ s.dev.lanes[headLane h].grants[(0 : Fin 3)] →
    let hd := frameHdr f.hdr.toList
    s.dev.pipeAt h (if hd.ok then s.dev.fullTick hd.tick else s.dev.tick) = some h → f.crcOk = false → ∃ d',
    exec (.cameraFrame h f) s = .next { s with dev := d' } ∧
    d' = { s.dev with
      regs := d'.regs, vecs := d'.vecs, fabric := d'.fabric, mpvs := d'.mpvs
      lanes := s.dev.lanes.set (headLane h) { s.dev.lanes[headLane h] with back := some (0, 65) } } ∧
    d'.getN (mpvB h) R.MPV_BADFRM = min 0xFFFFFFFF (s.dev.getN (mpvB h) R.MPV_BADFRM + 1) ∧ d'.mpvs[h].bad = true) ∧
  ∀ (s : State) (h : Fin 32) (tick : Word) (pd pyro : BitVec 16), s.dev.dead = false →
    s.dev.laneUp (headLane h) = true → bit (s.dev.desc (headLane h) 3) 3 = true → bit (s.dev.desc (headLane h) 3) 4 = true →
    (∀ r : Fin 16, s.dev.flt.slices[r].unit = none) → 1 ≤ s.dev.lanes[headLane h].grants[(1 : Fin 3)] →
    tick.toNat % 16 = 0 → ∃ d',
    exec (.senseFrame h tick pd pyro) s = .next { s with dev := d' } ∧
    d' = { s.dev with
      regs := d'.regs
      lanes := s.dev.lanes.set (headLane h) { s.dev.lanes[headLane h] with back := some (1, 1) }
      mpvs := s.dev.mpvs.set h { s.dev.mpvs[h] with
        pds := ((s.dev.fullTick tick, pd.toNat) :: s.dev.mpvs[h].pds).take 256 } } ∧
    d'.get (mpvB h) R.MPV_PYRO = wd pyro.toNat ∧ s.dev.regsKept d' fun a => a = radr (mpvB h) R.MPV_PYRO) ∧
  ((∀ (s : State) (h : Fin 32) (r : Nat) (p : RtPort) (e : RtEnt) (rest : List RtEnt) (m' : Mem), s.dev.dead = false →
    (p, r) ∈ [(RtPort.flog h, 0), (.slub h, 1), (.archive h, 2), (.thumb h, 3)] →
    takeRing (if r < 2 then s.dev.mpvs[h].logs else s.dev.mpvs[h].arcs) r = some (e, rest) →
    let size := if r = 0 then 32 else if r = 1 then 64 else 2 ^ s.dev.getF (mpvB h) R.MPV_RING_CFG 12 8 r
    let wr := s.dev.getN (mpvB h) R.MPV_RING_WR r
    let a := s.dev.addr2 (mpvB h) R.MPV_RING_BASE_LO R.MPV_RING_BASE_HI r +
      wr % 2 ^ s.dev.getF (mpvB h) R.MPV_RING_CFG 4 0 r * size
    s.dev.sdWrite s.mem a e.bytes = .ok m' → ∃ d',
    exec (.ringEntryWrite p) s = .next { s with mem := m', dev := d' } ∧
    d' = { s.dev with
      regs := d'.regs
      mpvs := s.dev.mpvs.set h (if r < 2 then { s.dev.mpvs[h] with logs := rest } else { s.dev.mpvs[h] with arcs := rest }) } ∧
    d'.get (mpvB h) R.MPV_RING_WR r = wd (wr + 1) ∧ (∀ c, c < a ∨ a + e.bytes.length ≤ c → m'.byte c = s.mem.byte c) ∧
    (∀ i < e.bytes.length, some (m'.byte (a + i)) = e.bytes[i]?) ∧
    s.dev.regsKept d' fun x => x = radr (mpvB h) R.MPV_RING_WR r) ∧
  ∀ (s : State) (p : Fin 2) (e : RtEnt) (rest : List RtEnt) (m' : Mem), s.dev.dead = false →
    s.dev.lpipes[p].out = e :: rest →
    let b := blk .lpipe p.val
    let size := if e.ring = 0 then 64 else 2 ^ s.dev.getF b R.LPIPE_RING_CFG 12 8 e.ring
    let wr := s.dev.getN b R.LPIPE_RING_WR e.ring
    let a := s.dev.addr2 b R.LPIPE_RING_BASE_LO R.LPIPE_RING_BASE_HI e.ring +
      wr % 2 ^ s.dev.getF b R.LPIPE_RING_CFG 4 0 e.ring * size
    s.dev.sdWrite s.mem a e.bytes = .ok m' → ∃ d',
    exec (.ringEntryWrite (.layer p)) s = .next { s with mem := m', dev := d' } ∧
    d' = { s.dev with regs := d'.regs, lpipes := s.dev.lpipes.set p { s.dev.lpipes[p] with out := rest } } ∧
    d'.get b R.LPIPE_RING_WR e.ring = wd (wr + 1) ∧ (∀ c, c < a ∨ a + e.bytes.length ≤ c → m'.byte c = s.mem.byte c) ∧
    s.dev.regsKept d' fun x => x = radr b R.LPIPE_RING_WR e.ring)

/-! Correction and the thermal lattice (09). -/

/-- R253, R256, R259, R261: a deposit that has arrived is held for the next tick; a tick gives every tile of the lattice its
heating, diffusion and cooling at once, from the values before it; one that is due too early counts an overrun and moves no
tile; the end of the recoat step gives every tile its decay and mix. -/
def Obligations.LatticeTicksMoveEveryTile : Prop :=
  (∀ (s : State) (x : Msg) (tile e m : Nat), s.dev.dead = false → s.dev.up latB = true →
    (s.dev.inbox latB fun b => match b with | .deposit _ _ _ => true | _ => false) = some x → x.body = .deposit tile e m →
    m ≤ 15 →
    exec .deposit s = .next { s with dev := { s.dev with
      fabric := s.dev.fabric.erase x
      lat := { s.dev.lat with deps := s.dev.lat.deps ++ [⟨tile, e, m, headOf x.src, s.dev.now⟩] } } }) ∧
  (∀ s : State, s.dev.dead = false → s.dev.latRuns = true → s.dev.latDue = true →
    let due := s.dev.lat.deps.filter fun x => x.k < s.dev.now
    let dt := (s.dev.now - s.dev.lat.sweptAt) * 5 / 4
    let hot (i : Nat) : Rat × Nat := s.dev.heated (s.dev.lat.tile i) (depsOf due i)
    ∃ d', exec (.latticeTick true none) s = .next { s with dev := d' } ∧
      d' = { s.dev with regs := d'.regs, live := d'.live, vecs := d'.vecs, lat := d'.lat } ∧
      (∀ i, i < 262144 → d'.lat.tile i =
        s.dev.diffuse (s.dev.lat.tile i) (depsOf due i).1 (hot i) ((neighbours i).map hot) dt) ∧
      d'.lat.deps = s.dev.lat.deps.filter (fun x => ¬ x.k < s.dev.now) ∧
      d'.getN latB R.LAT_TICKS = min 0xFFFFFFFF (s.dev.getN latB R.LAT_TICKS + 1)) ∧
  (∀ s : State, s.dev.dead = false → s.dev.latRuns = true → s.dev.latDue = true → ∃ d',
    exec (.latticeTick false none) s = .next { s with dev := d' } ∧
    d' = { s.dev with
      regs := d'.regs, live := d'.live, vecs := d'.vecs, fabric := d'.fabric
      lat := { s.dev.lat with dueAt := s.dev.now, over_ := true } } ∧
    d'.getN latB R.LAT_OVERRUN = min 0xFFFFFFFF (s.dev.getN latB R.LAT_OVERRUN + 1) ∧ d'.getB latB R.LAT_EVT 0 = true) ∧
  ∀ (s : State) (tr : Nat), s.dev.dead = false → s.dev.up latB = true → s.dev.lat.recoat = some tr → ∃ d',
    exec .recoatStepDone s = .next { s with dev := d' } ∧
    d' = { s.dev with regs := d'.regs, live := d'.live, vecs := d'.vecs, lat := d'.lat } ∧ d'.lat.recoat = none ∧
    (∀ i, d'.lat.tile i = s.dev.recoatTile tr (s.dev.lat.tile i)) ∧ d'.getB latB R.LAT_EVT 3 = true

/-- R272, R273: LAT_INIT makes every tile the tile of its settings; LAT_READ lays down one row of tiles after the other and
then ends; LAT_WRITE takes its rectangle from SDRAM and leaves every other tile.

R258, R263 to R265, R267, R268: a prediction request is answered with the tile's temperature; the answer scales its start
entry and frees its tag; a feature record that is used moves the integrator, held while frozen, and one that is not only
counts as skipped. R277: with COR_CTL.EN 0 both scales stay at 1.0 from the next record on (log 36, the model's choice of the
moment). No other head changes. -/
def Obligations.LatticeOperationsAndPredictions : Prop :=
  ((∀ s : State, s.dev.dead = false → s.dev.opRunning latB 1 = true → ∃ d',
    exec .latInitDone s = .next { s with dev := d' } ∧ d' = { s.dev with regs := d'.regs, ops := d'.ops, lat := d'.lat } ∧
    (∀ i, d'.lat.tile i = ⟨s.dev.getF latB R.LAT_INIT_TEMP 19 0, 0, s.dev.getF latB R.LAT_CTL 11 8, ageMax⟩) ∧
    d'.lat.pitch = s.dev.getN latB R.LAT_PITCH ∧ d'.get latB R.OP_STAT = opWord 3 4095 0 (s.dev.opTag latB) ∧
    s.dev.regsKept d' fun a => a = radr latB R.LAT_STAT ∨ a = radr latB R.OP_STAT) ∧
  (∀ (s : State) (m' : Mem), s.dev.dead = false → s.dev.opRunning latB 2 = true →
    let r := s.dev.latRect
    let n := s.dev.getN latB R.OP_PART 0
    let bs := (List.range r.2.2.1).flatMap fun c => (s.dev.lat.tile (r.1 + c + 512 * (r.2.1 + n))).bytes
    n < r.2.2.2 → (s.dev.latRuns = false ∨ s.dev.lat.rowTick < 8) →
    s.dev.sdWrite s.mem (s.dev.latAddr + 8 * r.2.2.1 * n) bs = .ok m' → ∃ d',
    exec (.latRead (.row none)) s = .next { s with mem := m', dev := d' } ∧
    d' = { s.dev with regs := d'.regs, lat := { s.dev.lat with rowTick := s.dev.lat.rowTick + 1 } } ∧
    d'.getN latB R.OP_PART 0 = n + 1 ∧ d'.get latB R.OP_PART 2 = s.dev.get latB R.LAT_TICKS ∧
    s.dev.regsKept d' fun a => a = radr latB R.OP_STAT ∨ ∃ i, i < 6 ∧ a = radr latB R.OP_PART i) ∧
  (∀ s : State, s.dev.dead = false → s.dev.opRunning latB 2 = true →
    s.dev.latRect.2.2.2 ≤ s.dev.getN latB R.OP_PART 0 → ∃ d',
    exec .latReadDone s = .next { s with dev := d' } ∧ d' = { s.dev with regs := d'.regs, ops := d'.ops } ∧
    d'.get latB R.OP_STAT = opWord 3 4095 0 (s.dev.opTag latB) ∧ s.dev.regsKept d' fun a => a = radr latB R.OP_STAT) ∧
  ∀ (s : State) (bs : List Byte), s.dev.dead = false → s.dev.opRunning latB 3 = true →
    let r := s.dev.latRect
    s.dev.sdRead s.mem s.dev.latAddr (8 * r.2.2.1 * r.2.2.2) = .ok bs → r.1 + r.2.2.1 ≤ 512 → ∃ d',
    exec .latWriteDone s = .next { s with dev := d' } ∧ d' = { s.dev with regs := d'.regs, ops := d'.ops, lat := d'.lat } ∧
    (∀ c q, c < r.2.2.1 → q < r.2.2.2 → d'.lat.tile (r.1 + c + 512 * (r.2.1 + q)) =
      tileOf (leNat ((bs.drop (8 * (c + r.2.2.1 * q))).take 8))) ∧
    (∀ i, (∀ c q, c < r.2.2.1 → q < r.2.2.2 → i ≠ r.1 + c + 512 * (r.2.1 + q)) → d'.lat.tile i = s.dev.lat.tile i) ∧
    d'.get latB R.OP_STAT = opWord 3 4095 0 (s.dev.opTag latB)) ∧
  ((∀ (s : State) (x : Msg) (e t : Nat), s.dev.dead = false → s.dev.up latB = true → s.dev.lat.recoat = none →
    (s.dev.wakeReq.any fun w => w.2 = latB) = false → (s.dev.inbox latB fun b => match b with | .predReq _ _ => true | _ => false) = some x → x.body = .predReq e t →
    exec .predictionRequest s = .next { s with dev := { s.dev with
      fabric := s.dev.fabric.erase x ++ [⟨.rsp, latB, x.src, none, .predRsp e (((s.dev.lat.tile t).temp + 5) / 10), 0, x.tag,
        .port (.block latB) (ownPort latB), 0⟩] } }) ∧
  (∀ (s : State) (h : Fin 32) (x : Msg) (rest : List Msg) (num temp : Nat) (e : Ent) (arc : Int), s.dev.dead = false →
    s.dev.up (headB h) = true → s.dev.fabric = x :: rest → x.dst = headB h → x.loc = .inbox →
    x.body = .predRsp num temp → x.status = 0 → (s.dev.reqs.any fun r => r.tag = x.tag && !r.timedOut) = true →
    (s.dev.heads[h].trv.corEnts.find? fun y => y.num = num) = some e →
    ((s.dev.heads[h].cor.await.find? fun a => a.1 = num).map (·.2)) = some arc → s.dev.heads[h].cor.queue = [] →
    let o := corOut (s.dev.bobBuf e.bob e.buf)
      (if s.dev.webLayer then 32768 else ffOf (s.dev.bobBuf e.bob e.buf) temp) s.dev.heads[h].cor.integ
    ∃ d', exec (.prediction h) s = .next { s with dev := d' } ∧
      d' = { s.dev with
        fabric := rest, heads := d'.heads, reqs := s.dev.reqs.filter fun r => r.tag ≠ x.tag } ∧
      (∀ y ∈ d'.heads[h].trv.sched, y.num = num → y.pwr = o.p ∧ y.spd = o.s) ∧
      d'.heads[h].cor.await = (s.dev.heads[h].cor.await.filter fun a => a.1 ≠ num) ∧ d'.heads[h].cor.failed = false ∧
      ∀ g : Fin 32, g ≠ h → d'.heads[g] = s.dev.heads[g]) ∧
  (∀ (s : State) (h : Fin 32) (r : FeatIn) (rest : List FeatIn), s.dev.dead = false → s.dev.up (headB h) = true →
    s.dev.heads[h].cor.recs = r :: rest → s.dev.recUse h r = none → ∃ d',
    exec (.featureRecord h) s = .next { s with dev := d' } ∧
    d' = { s.dev with
      regs := d'.regs
      heads := s.dev.heads.set h { s.dev.heads[h] with
        cor := { s.dev.heads[h].cor with recs := rest }
        trv := { s.dev.heads[h].trv with corr := if s.dev.corOn h then s.dev.heads[h].trv.corr else 32768 }
        drf := { s.dev.heads[h].drf with speedReq := if s.dev.corOn h then s.dev.heads[h].drf.speedReq else 1 } } } ∧
    d'.getN (headB h) R.COR_RECORDS = min 0xFFFFFFFF (s.dev.getN (headB h) R.COR_RECORDS + 1) ∧
    d'.getN (headB h) R.COR_SKIP = min 0xFFFFFFFF (s.dev.getN (headB h) R.COR_SKIP + 1) ∧
    s.dev.regsKept d' fun a =>
      a = radr (headB h) R.COR_RECORDS ∨ a = radr (headB h) R.COR_SKIP ∨ a = radr (headB h) R.COR_STAT) ∧
  ∀ (s : State) (h : Fin 32) (r : FeatIn) (rest : List FeatIn) (tgt meas : Nat), s.dev.dead = false →
    s.dev.up (headB h) = true → s.dev.heads[h].cor.recs = r :: rest → s.dev.recUse h r = some (tgt, meas) →
    let lead := (s.dev.bobAt h (r.sMid : Rat) r.bob).nat 0xD0
    let x := s.dev.bobAt h ((r.sMid + ((if lead = 0 then 150000 else lead : Nat) : Int) : Int) : Rat) r.bob
    let lim : Int := (x.nat 0xCC : Nat)
    let c := s.dev.heads[h].cor
    let i := if c.frozen then c.integ else clampI (-lim) lim (c.integ + mul16 (x.int 0xC8) (corErr tgt meas))
    ∃ d', exec (.featureRecord h) s = .next { s with dev := d' } ∧
      d' = { s.dev with regs := d'.regs, vecs := d'.vecs, fabric := d'.fabric, heads := d'.heads } ∧
      d'.heads[h].cor.recs = rest ∧ d'.heads[h].cor.integ = i ∧ d'.get (headB h) R.COR_INTEG = wi i ∧
      d'.getN (headB h) R.COR_USED = min 0xFFFFFFFF (s.dev.getN (headB h) R.COR_USED + 1) ∧
      ∀ g : Fin 32, g ≠ h → d'.heads[g] = s.dev.heads[g])

/-! Layer imaging and lighting (10). -/

/-- R279 to R285, R296: a good frame of the bound channel is counted at its port and pipeline and makes the armed check; one
with a CRC error is counted as bad and leaves the check armed; packets of another data type are discarded and counted; a lost
link clears CSI_STAT and raises kind 2.

R280, R284: a written binding and the next enabled channel are held for their frame start; CHECK, and the delay after a
layer end, arm the check, once for each layer end. -/
def Obligations.LayerFramesAndBindings : Prop :=
  ((∀ (s : State) (p : Fin 2) (f : CsiFrame), s.dev.dead = false → (∀ r : Fin 16, s.dev.flt.slices[r].unit = none) →
    s.dev.up (csiB p) = true → s.dev.getB (csiB p) R.CSI_CTL 0 = true → s.dev.getB (csiB p) R.CSI_VC_CFG 8 f.vc.val = true →
    s.dev.up (lpB p) = true → s.dev.getB (lpB p) R.LPIPE_CTL 0 = true → s.dev.lpipes[p].pend ≠ some f.vc →
    s.dev.getF (lpB p) R.LPIPE_STAT 1 0 = f.vc.val → f.hdrUncorr = false →
    s.dev.getF (csiB p) R.CSI_VC_CFG 7 0 f.vc.val ∈ [0x2A, 0x2B, 0x2C] →
    let used := f.lines.filter fun l => l.dataType.toNat = s.dev.getF (csiB p) R.CSI_VC_CFG 7 0 f.vc.val
    let bad := f.lines.any fun l => l.crcErr
    used.length = s.dev.getF (csiB p) R.CSI_VC_LINES 15 0 f.vc.val →
    (∀ l ∈ used, l.pixels.length = s.dev.getF (csiB p) R.CSI_VC_CFG 23 12 f.vc.val) → ∃ d',
    exec (.layerFrame p f) s = .next { s with dev := d' } ∧
    d' = { s.dev with
      regs := d'.regs, vecs := d'.vecs, fabric := d'.fabric, lights := d'.lights, lpipes := d'.lpipes, fresh := d'.fresh } ∧
    d'.get (csiB p) R.CSI_VC_FRAMES f.vc.val = s.dev.get (csiB p) R.CSI_VC_FRAMES f.vc.val + 1 ∧
    d'.getN (lpB p) R.LPIPE_FRAMES = min 0xFFFFFFFF (s.dev.getN (lpB p) R.LPIPE_FRAMES + 1) ∧
    d'.getN (csiB p) R.CSI_DISCARD =
      min 0xFFFFFFFF (s.dev.getN (csiB p) R.CSI_DISCARD + (f.lines.length - used.length)) ∧
    d'.lpipes[p].bad = bad ∧ (∀ q : Fin 2, q ≠ p → d'.lpipes[q] = s.dev.lpipes[q]) ∧
    if bad then
      d'.getN (lpB p) R.LPIPE_BADFRM = min 0xFFFFFFFF (s.dev.getN (lpB p) R.LPIPE_BADFRM + 1) ∧
      d'.lpipes[p].armed = s.dev.lpipes[p].armed
    else d'.lpipes[p].armed = false ∧
      (s.dev.lpipes[p].armed = true →
        d'.getN (lpB p) R.LPIPE_CHECKS = min 0xFFFFFFFF (s.dev.getN (lpB p) R.LPIPE_CHECKS + 1) ∧
        d'.getB (lpB p) R.LPIPE_STAT 3 = false)) ∧
  ∀ (s : State) (p : Fin 2), s.dev.dead = false → s.dev.up (csiB p) = true → s.dev.getB (csiB p) R.CSI_STAT 0 = true → ∃ d',
    exec (.csiLinkLoss p) s = .next { s with dev := d' } ∧
    d' = { s.dev with regs := d'.regs, vecs := d'.vecs, fabric := d'.fabric } ∧
    d'.getB (csiB p) R.CSI_STAT 0 = false ∧ d'.getB (csiB p) R.FLT_STAT 2 = true) ∧
  ((∀ (s : State) (p : Fin 2) (v : Word), s.dev.takes (lpB p) 0x108 → ∃ d',
    exec (.lpipeBind p v) s = .next { s with dev := d' } ∧
    d' = { s.dev with
      regs := d'.regs
      lpipes := s.dev.lpipes.set p { s.dev.lpipes[p] with pend := some (Fin.ofNat 4 (fld v 1 0)) } } ∧
    d'.get (lpB p) R.LPIPE_BIND = v &&& 3#32 ∧ d'.getB (lpB p) R.LPIPE_STAT 2 = true ∧
    s.dev.regsKept d' fun a => a = radr (lpB p) R.LPIPE_BIND ∨ a = radr (lpB p) R.LPIPE_STAT) ∧
  (∀ (s : State) (p : Fin 2), s.dev.takes (lpB p) 0x10C → s.dev.nextVc p = none → exec (.next p) s = .next s) ∧
  (∀ (s : State) (p : Fin 2) (v : Fin 4), s.dev.takes (lpB p) 0x10C → s.dev.nextVc p = some v → ∃ d',
    exec (.next p) s = .next { s with dev := d' } ∧
    d' = { s.dev with regs := d'.regs, lpipes := s.dev.lpipes.set p { s.dev.lpipes[p] with pend := some v } } ∧
    d'.getB (lpB p) R.LPIPE_STAT 2 = true ∧ s.dev.regsKept d' fun a => a = radr (lpB p) R.LPIPE_STAT) ∧
  (∀ (s : State) (p : Fin 2), s.dev.takes (lpB p) 0x10C → ∃ d',
    exec (.check p) s = .next { s with dev := d' } ∧
    d' = { s.dev with regs := d'.regs, lpipes := s.dev.lpipes.set p { s.dev.lpipes[p] with armed := true } } ∧
    d'.getB (lpB p) R.LPIPE_STAT 3 = true ∧ s.dev.regsKept d' fun a => a = radr (lpB p) R.LPIPE_STAT) ∧
  ∀ (s : State) (p : Fin 2) (t : Nat), s.dev.dead = false → t ∈ s.dev.lpipes[p].ends → s.dev.up (lpB p) = true →
    s.dev.getB (lpB p) R.LPIPE_RC_CTL 0 = true →
    s.dev.past t (1000 * s.dev.getF (lpB p) R.LPIPE_RC_CTL 31 16) = true → ∃ d',
    exec (.recoatCheckArm p) s = .next { s with dev := d' } ∧
    d' = { s.dev with
      regs := d'.regs, lpipes := s.dev.lpipes.set p { s.dev.lpipes[p] with
        armed := true
        ends := s.dev.lpipes[p].ends.filter fun x =>
          ¬ s.dev.past x (1000 * s.dev.getF (lpB p) R.LPIPE_RC_CTL 31 16) = true } } ∧
    d'.getB (lpB p) R.LPIPE_STAT 3 = true ∧ s.dev.regsKept d' fun a => a = radr (lpB p) R.LPIPE_STAT)

/-- R287 to R289, R294: SEND and the refresh ask for a frame; a claimed idle line sends the scaled duties as they stand; a
status phase sets every channel's state and ends the frame; a configuration whose pin is granted claims it, another keeps
its pin and shows the holder.

R290: DIAG is noted; outside a layer the pulse puts one duty on every channel of its claimed idle line, and its end
brings back the frame before it. -/
def Obligations.LightingAndDiagnosticPulses : Prop :=
  ((∀ (s : State) (i : Fin 4), s.dev.takes light 0x200 →
    exec (.send i) s = .next { s with dev := { s.dev with
      lights := s.dev.lights.set i { s.dev.lights[i] with want := true } } }) ∧
  (∀ (s : State) (i : Fin 4), s.dev.dead = false → s.dev.up light = true →
    s.dev.getF light R.LGT_REFRESH 15 0 i.val ≠ 0 →
    s.dev.past s.dev.lights[i].refAt (1000 * s.dev.getF light R.LGT_REFRESH 15 0 i.val) = true →
    exec (.lgtRefresh i) s = .next { s with dev := { s.dev with
      lights := s.dev.lights.set i { s.dev.lights[i] with want := true, refAt := s.dev.now } } }) ∧
  (∀ (s : State) (i : Fin 4), s.dev.dead = false → s.dev.up light = true → s.dev.lights[i].want = true →
    s.dev.lgtClaimed i = true → s.dev.lgtBusy i = false → s.dev.lights[i].diag = false → ∃ d',
    exec (.lightFrame i) s = .next { s with dev := d' } ∧ d' = { s.dev with regs := d'.regs, lights := d'.lights } ∧
    d'.lights[i].want = false ∧ d'.lights[i].frame = some (s.dev.now, s.dev.lgtBits i) ∧
    d'.lights[i].duty = s.dev.lgtSnap i ∧ d'.lights[i].stat = s.dev.lgtStatus i ∧
    (∀ j : Fin 4, j ≠ i → d'.lights[j] = s.dev.lights[j]) ∧
    d'.getN light R.LGT_FRAMES i.val = min 0xFFFFFFFF (s.dev.getN light R.LGT_FRAMES i.val + 1) ∧
    s.dev.regsKept d' fun a => a = radr light R.LGT_FRAMES i.val) ∧
  (∀ (s : State) (i : Fin 4) (bytes : List (BitVec 8)) (f : Nat × Nat), s.dev.dead = false → s.dev.up light = true →
    s.dev.lights[i].frame = some f → s.dev.lights[i].stat = true → s.dev.statusEnd i f ≤ s.dev.now → ∃ d',
    exec (.statusPhase i bytes) s = .next { s with dev := d' } ∧
    d' = { s.dev with
      regs := d'.regs, vecs := d'.vecs, fabric := d'.fabric
      lights := s.dev.lights.set i { s.dev.lights[i] with low := List.replicate 256 none, frame := none, stat := false } } ∧
    (∀ k, k < 256 → d'.getF light R.LGT_STATE (k % 16 * 2 + 1) (k % 16 * 2) i.val (k / 16) = s.dev.lampState i bytes k) ∧
    d'.getF light R.LGT_STAT 14 8 i.val = min bytes.length (s.dev.lgtMods i)) ∧
  ∀ (s : State) (i : Fin 4) (v : Word), s.dev.takes light (0x100 + 0x40 * i.val) →
    let was := s.dev.get light R.LGT_CFG i.val
    let w := R.LGT_CFG.write was v
    ∃ d', exec (.lgtCfg i v) s = .next { s with dev := d' } ∧
      match s.dev.claimErr (lgtPin i w).1 (lgtPin i w).2 light i.val with
      | none =>
        d' = { s.dev with regs := d'.regs, claims := d'.claims } ∧ d'.get light R.LGT_CFG i.val = w ∧
        d'.holds (lgtPin i w).1 (lgtPin i w).2 light i.val = true ∧ d'.lgtClaimed i = true ∧
        s.dev.regsKept d' fun a => a = radr light R.LGT_CFG i.val ∨ a = radr light R.LGT_STAT i.val
      | some (code, h) =>
        d' = { s.dev with regs := d'.regs, vecs := d'.vecs } ∧
        d'.getF light R.LGT_CFG 21 16 i.val = fld was 21 16 ∧ d'.getB light R.LGT_CFG 13 i.val = bit was 13 ∧
        d'.get light R.LGT_CLAIM_ERR i.val = claimWord code h (lgtPin i w).2 ∧ d'.getB light R.LGT_EVT 4 i.val = true) ∧
  ((∀ (s : State) (i : Fin 4), s.dev.takes light 0x200 → ∃ d',
    exec (.diag i) s = .next { s with dev := d' } ∧ d' = { s.dev with regs := d'.regs } ∧
    d'.getB light R.LGT_STAT 3 i.val = true ∧ s.dev.regsKept d' fun a => a = radr light R.LGT_STAT i.val) ∧
  (∀ (s : State) (i : Fin 4), s.dev.dead = false → s.dev.up light = true → s.dev.getB light R.LGT_STAT 3 i.val = true →
    s.dev.running = none → s.dev.lgtClaimed i = true → s.dev.lgtBusy i = false → s.dev.lights[i].diag = false → ∃ d',
    exec (.diagPulseStart i) s = .next { s with dev := d' } ∧ d' = { s.dev with regs := d'.regs, lights := d'.lights } ∧
    d'.lights[i].diag = true ∧ d'.lights[i].prev = s.dev.lights[i].duty ∧
    d'.lights[i].frame = some (s.dev.now, s.dev.lgtBits i) ∧
    d'.lights[i].duty = (List.range (4 * s.dev.lgtMods i)).map (fun k =>
      if k % 4 < s.dev.lgtCh i then s.dev.getF light R.LGT_DIAG 15 0 i.val % 2 ^ s.dev.lgtDepth i else 0) ∧
    d'.getB light R.LGT_STAT 3 i.val = false ∧ d'.getB light R.LGT_STAT 2 i.val = true ∧
    (∀ j : Fin 4, j ≠ i → d'.lights[j] = s.dev.lights[j]) ∧
    s.dev.regsKept d' fun a => a = radr light R.LGT_STAT i.val ∨ a = radr light R.LGT_FRAMES i.val) ∧
  ∀ (s : State) (i : Fin 4) (bytes : List (BitVec 8)) (f : Nat × Nat), s.dev.dead = false → s.dev.up light = true →
    s.dev.lights[i].frame = some f → s.dev.lights[i].diag = true →
    (if s.dev.lgtStatus i then s.dev.statusEnd i f else latchEnd f) + s.dev.getF light R.LGT_DIAG 31 16 i.val * 800000
      ≤ s.dev.now → ∃ d',
    exec (.diagPulseEnd i bytes) s = .next { s with dev := d' } ∧
    d' = { s.dev with regs := d'.regs, vecs := d'.vecs, fabric := d'.fabric, lights := d'.lights } ∧
    d'.lights[i].diag = false ∧ d'.getB light R.LGT_STAT 2 i.val = false ∧ d'.getB light R.LGT_EVT 2 i.val = true ∧
    (s.dev.lights[i].prev ≠ [] → d'.lights[i].duty = s.dev.lights[i].prev ∧
      d'.lights[i].frame = some (s.dev.now, s.dev.lgtBits i)) ∧
    ∀ j : Fin 4, j ≠ i → d'.lights[j] = s.dev.lights[j])

/-! The Norhal link (11). -/

/-- R314, R315, R317, R322: a lane takes its next state as the table of states has it, where that is no departure; within
TRAIN a trial that passes keeps its settings, one that fails goes on to the next preset or rate, and a sweep starts again
10 ms after it failed; an exit burst begins in IDLE. No other lane changes.

A trial passes once its bits have gone by, and not later than 20 µs after (R314; log 33, the model's choice of the bound).

R315, R317 to R320: a valid descriptor in DISCOVER makes the partner present with its descriptor and credits shown;
whatever takes a lane out of UP or IDLE counts a departure, after which no partner is present, its descriptor reads 0 and
no cell of its head runs. No other lane and no SDRAM changes. -/
def Obligations.LanesMoveAndPartnersArrive : Prop :=
  ((∀ (s : State) (n : Fin 40) (c : Instr) (st : Nat), laneMoves s n c st → ∃ d',
    exec c s = .next { s with dev := d' } ∧
    d' = { s.dev with regs := d'.regs, lanes := d'.lanes, mpvs := d'.mpvs } ∧ d'.laneSt n = st ∧
    (∀ k : Fin 40, k ≠ n → d'.lanes[k] = s.dev.lanes[k]) ∧
    (st = 2 → d'.lanes[n].phase = .trial s.dev.now ∧ d'.lanes[n].rate = s.dev.maxRate n ∧ d'.lanes[n].preset = 0) ∧
    (st = 3 → d'.lanes[n].vc3 = some ⟨0, s.dev.now, 1, decide (s.dev.lanes[n].cred3 = 0)⟩) ∧
    s.dev.regsKept d' fun a => onPage (laneB n) a ∨ ∃ h : Fin 32, h.val = n.val ∧ a = radr (mpvB h) R.MPV_STAT) ∧
  (∀ (s : State) (n : Fin 40) (rates : BitVec 3), s.dev.dead = false → s.dev.laneSt n = 2 →
    exec (.trainBlock n rates) s = .next { s with dev := { s.dev with
      lanes := s.dev.lanes.set n { s.dev.lanes[n] with rates := rates } } }) ∧
  (∀ (s : State) (n : Fin 40) (t : Nat), s.dev.dead = false → s.dev.laneSt n = 2 → s.dev.lanes[n].phase = .trial t →
    s.dev.trialDue n t = true → ∃ d',
    exec (.trialEnd n true) s = .next { s with dev := d' } ∧
    d' = { s.dev with
      regs := d'.regs, vecs := d'.vecs
      lanes := s.dev.lanes.set n { s.dev.lanes[n] with
        trained := some (s.dev.lanes[n].rate, s.dev.lanes[n].preset), phase := .timing } } ∧
    (s.dev.lanes[n].rate < s.dev.maxRate n → d'.getB (laneB n) R.LANE_EVT 5 = true)) ∧
  (∀ (s : State) (n : Fin 40) (pass : Bool) (t r : Nat), s.dev.dead = false → s.dev.laneSt n = 2 →
    s.dev.lanes[n].phase = .trial t → (pass = false ∨ s.dev.trialDue n t = false) →
    (s.dev.lanes[n].preset < 7 ∨ ((s.dev.sweepRates n).find? fun r => r < s.dev.lanes[n].rate) = some r) →
    exec (.trialEnd n pass) s = .next { s with dev := { s.dev with
      lanes := s.dev.lanes.set n (if s.dev.lanes[n].preset < 7
        then { s.dev.lanes[n] with phase := .trial s.dev.now, preset := s.dev.lanes[n].preset + 1 }
        else { s.dev.lanes[n] with phase := .trial s.dev.now, rate := r, preset := 0 }) } }) ∧
  (∀ (s : State) (n : Fin 40) (t r : Nat) (rs : List Nat), s.dev.dead = false → s.dev.laneSt n = 2 →
    s.dev.lanes[n].phase = .wait t → s.dev.past t 10000 = true → s.dev.sweepRates n = r :: rs →
    exec (.sweepRetry n) s = .next { s with dev := { s.dev with
      lanes := s.dev.lanes.set n { s.dev.lanes[n] with phase := .trial s.dev.now, rate := r, preset := 0 } } }) ∧
  ∀ (s : State) (n : Fin 40) (byPartner : Bool), s.dev.dead = false → s.dev.laneSt n = 5 →
    s.dev.lanes[n].burst = none → (byPartner = true ∨ s.dev.mayIdle n = false ∨ s.dev.wantsUp n = true) →
    exec (.idleExit n byPartner) s = .next { s with dev := { s.dev with
      lanes := s.dev.lanes.set n { s.dev.lanes[n] with burst := some s.dev.now } } }) ∧
  ((∀ (s : State) (n : Fin 40) (bytes : List (BitVec 8)), s.dev.dead = false → s.dev.laneSt n = 3 → bytes.length = 64 →
    (bytesWords bytes).getD 0 0 = 0x5A4E0001#32 → (bytesWords bytes).getD 15 0 = crc32 (bytes.take 60) →
    fld ((bytesWords bytes).getD 1 0) 7 0 = (if n.val < 32 then 1 else 2) →
    2 ≤ s.dev.lanes[n].grants[(2 : Fin 3)] → (∀ r : Fin 16, s.dev.flt.slices[r].unit = none) → ∃ d',
    exec (.desc n bytes) s = .next { s with dev := d' } ∧
    d' = { s.dev with
      regs := d'.regs, vecs := d'.vecs, fabric := d'.fabric, heads := d'.heads, mpvs := d'.mpvs, msps := d'.msps, jrn := d'.jrn
      lanes := d'.lanes } ∧ d'.laneSt n = 4 ∧ d'.present n = true ∧
    (∀ i, i < 16 → d'.desc n i = (bytesWords bytes).getD i 0) ∧
    d'.lanes[n].cred1 = fld ((bytesWords bytes).getD 5 0) 15 0 ∧
    d'.lanes[n].cred3 = fld ((bytesWords bytes).getD 5 0) 31 16 ∧
    d'.getN (laneB n) R.LANE_ARRIVALS = min 0xFFFFFFFF (s.dev.getN (laneB n) R.LANE_ARRIVALS + 1) ∧
    ∀ k : Fin 40, k ≠ n → d'.lanes[k] = s.dev.lanes[k]) ∧
  ∀ (s : State) (n : Fin 40) (c : Instr) (st : Nat), laneDeparts s n c st → ∃ d',
    exec c s = .next { s with dev := d' } ∧
    d' = { s.dev with
      regs := d'.regs, live := d'.live, vecs := d'.vecs, fabric := d'.fabric, heads := d'.heads, cells := d'.cells
      tunes := d'.tunes, msps := d'.msps, mpvs := d'.mpvs, ply := d'.ply, rep := d'.rep, thm := d'.thm, jrn := d'.jrn, lanes := d'.lanes } ∧
    d'.laneSt n = st ∧ d'.present n = false ∧
    d'.getN (laneB n) R.LANE_DEPARTURES = min 0xFFFFFFFF (s.dev.getN (laneB n) R.LANE_DEPARTURES + 1) ∧
    (∀ i, i < 16 → d'.desc n i = 0) ∧ (∀ k : Fin 40, k ≠ n → d'.lanes[k] = s.dev.lanes[k]) ∧
    (n.val < 32 → ∀ r : Fin 6, d'.cells[headCell (Fin.ofNat 32 n.val) r].st = 0 ∨ d'.cells[headCell (Fin.ofNat 32 n.val) r].st = 5))

/-- R302, R304, R311 to R313, R318: credits add to what the partner has left, and a request that waited for them goes out; DATA
joins the bytes fetched; a request that is refused or out of tries is over, one with tries left goes out again; a dropped frame
counts by its cause. Every received frame of VC1 to VC3 gives its credits back at once (log 33, the model's choice).

R323 to R325: an injection in UP waits for the next frame of its channel, in TEST it inverts the pattern behind the bits sent; a
pattern test ends done with what its checker counted, no error without an inverted bit and one for a single bit inverted in sync,
and leaves the lane in DETECT; without an answer from the far end it fails with 0x80. -/
def Obligations.LinkFramesAndPatternTests : Prop :=
  ((∀ (s : State) (n : Fin 40) (v1 v2 v3 : BitVec 16), s.dev.dead = false → (s.dev.laneUp n = true ∨ s.dev.laneSt n = 3) →
    (∀ r ∈ s.dev.lanes[n].vc3, r.held = false) → ∃ d',
    exec (.credit n v1 v2 v3) s = .next { s with dev := d' } ∧
    d' = { s.dev with
      regs := d'.regs
      lanes := s.dev.lanes.set n { s.dev.lanes[n] with
        cred1 := s.dev.lanes[n].cred1 + v1.toNat, cred3 := s.dev.lanes[n].cred3 + v3.toNat } } ∧
    s.dev.regsKept d' fun a => a = radr (laneB n) R.LANE_CREDIT) ∧
  (∀ (s : State) (n : Fin 40) (v1 v2 v3 : BitVec 16) (r : Vc3), s.dev.dead = false → s.dev.laneUp n = true →
    s.dev.lanes[n].vc3 = some r → r.held = true → 1 ≤ v3.toNat → ∃ d',
    exec (.credit n v1 v2 v3) s = .next { s with dev := d' } ∧ d' = { s.dev with regs := d'.regs, lanes := d'.lanes } ∧
    d'.lanes[n].vc3 = some ⟨r.type, s.dev.now, r.tries, false⟩ ∧ (d'.lanes[n].sent[(3 : Fin 4)].map (·.type)) = some r.type ∧
    d'.lanes[n].cred1 = s.dev.lanes[n].cred1 + v1.toNat ∧ d'.lanes[n].cred3 = s.dev.lanes[n].cred3 + v3.toNat - 1 ∧
    ∀ k : Fin 40, k ≠ n → d'.lanes[k] = s.dev.lanes[k]) ∧
  (∀ (s : State) (n : Fin 40) (bytes : List (BitVec 8)) (r : Vc3), s.dev.dead = false → bytes.length ≤ 512 →
    s.dev.laneUp n = true → s.dev.lanes[n].vc3 = some r → r.type = 2 → r.held = false →
    frameUnits bytes.length ≤ s.dev.lanes[n].grants[(2 : Fin 3)] → (∀ q : Fin 16, s.dev.flt.slices[q].unit = none) → ∃ d',
    exec (.data n bytes) s = .next { s with dev := d' } ∧ d' = { s.dev with regs := d'.regs, lanes := d'.lanes } ∧
    d'.lanes[n].store = s.dev.lanes[n].store ++
      bytes.take (min 512 ((s.dev.desc n 7).toNat - s.dev.lanes[n].store.length)) ∧
    d'.lanes[n].back = some (2, frameUnits bytes.length) ∧
    ∀ k : Fin 40, k ≠ n → d'.lanes[k] = s.dev.lanes[k]) ∧
  (∀ (s : State) (n : Fin 40) (type : BitVec 8) (r : Vc3), s.dev.dead = false → s.dev.lanes[n].vc3 = some r →
    r.type = type.toNat → r.type ≠ 0 → r.held = false → 1 ≤ s.dev.lanes[n].grants[(2 : Fin 3)] →
    (∀ q : Fin 16, s.dev.flt.slices[q].unit = none) → ∃ d',
    exec (.nack n type) s = .next { s with dev := d' } ∧
    d' = { s.dev with
      regs := d'.regs, heads := d'.heads
      lanes := s.dev.lanes.set n { s.dev.lanes[n] with vc3 := none, back := some (2, 1) } }) ∧
  (∀ (s : State) (n : Fin 40) (r : Vc3), s.dev.dead = false → s.dev.lanes[n].vc3 = some r → r.held = false → s.dev.past r.since 100 = true →
    ∃ d', exec (.vc3Timeout n) s = .next { s with dev := d' } ∧
      d' = { s.dev with
        regs := d'.regs, vecs := d'.vecs, fabric := d'.fabric, heads := d'.heads, jrn := d'.jrn, lanes := d'.lanes } ∧
      (r.type = 0 → r.tries < 3 → ∃ wait, d'.lanes[n].vc3 = some ⟨0, s.dev.now, r.tries + 1, wait⟩) ∧
      (r.type ≠ 0 → r.tries < 2 → ∃ wait, d'.lanes[n].vc3 = some ⟨2, s.dev.now, r.tries + 1, wait⟩) ∧
      (r.type ≠ 0 → 2 ≤ r.tries → d'.lanes[n].vc3 = none ∧ d'.getB (laneB n) R.FLT_STAT 5 = true) ∧
      ∀ k : Fin 40, k ≠ n → d'.lanes[k] = s.dev.lanes[k]) ∧
  (∀ (s : State) (n : Fin 40) (vc : BitVec 2), s.dev.dead = false → (s.dev.laneUp n = true ∨ s.dev.laneSt n = 3) → ∃ d',
    exec (.droppedLinkFrame n .credits vc) s = .next { s with dev := d' } ∧
    d' = { s.dev with
      regs := d'.regs, vecs := d'.vecs, fabric := d'.fabric
      lanes := s.dev.lanes.set n { s.dev.lanes[n] with violAt := some s.dev.now } } ∧
    d'.getN (laneB n) R.LANE_CREDVIOL = min 0xFFFFFFFF (s.dev.getN (laneB n) R.LANE_CREDVIOL + 1)) ∧
  (∀ (s : State) (n : Fin 40) (vc : BitVec 2), s.dev.dead = false → (s.dev.laneUp n = true ∨ s.dev.laneSt n = 3) →
    fld (s.dev.lget n R.LANE_RT_CTL) 7 0 = 0 → ∃ d',
    exec (.droppedLinkFrame n .crc vc) s = .next { s with dev := d' } ∧
    d' = { s.dev with
      regs := d'.regs
      lanes := s.dev.lanes.set n { s.dev.lanes[n] with
        crcAt := s.dev.now :: s.dev.lanes[n].crcAt.filter fun t => !s.dev.past t 1000 } } ∧
    d'.getN (laneB n) R.LANE_CRCERR = min 0xFFFFFFFF (s.dev.getN (laneB n) R.LANE_CRCERR + 1) ∧
    s.dev.regsKept d' fun a => a = radr (laneB n) R.LANE_CRCERR) ∧
  ∀ (s : State) (n : Fin 40) (why : DropWhy) (vc : BitVec 2), s.dev.dead = false →
    (s.dev.laneUp n = true ∨ s.dev.laneSt n = 3 ∨ s.dev.laneSt n = 2 ∧ why = .reservedBlock) → why ∈ [DropWhy.reservedType, .lenAbove512, .lenMismatch, .reservedBlock] → ∃ d',
    exec (.droppedLinkFrame n why vc) s = .next { s with dev := d' } ∧ d' = { s.dev with regs := d'.regs } ∧
    d'.getN (laneB n) R.LANE_DROP = min 0xFFFFFFFF (s.dev.getN (laneB n) R.LANE_DROP + 1) ∧
    s.dev.regsKept d' fun a => a = radr (laneB n) R.LANE_DROP) ∧
  ((∀ (s : State) (n : Fin 40) (c : Instr) (bits : Nat), s.dev.takes (laneB n) 0x108 →
    (c = .injBit n ∧ bits = 1 ∨ c = .injBurst n ∧ bits = max 1 (fld (s.dev.lget n R.LANE_PAT_CTL) 15 8)) →
    s.dev.laneUp n = true →
    exec c s = .next { s with dev := { s.dev with
      lanes := s.dev.lanes.set n { s.dev.lanes[n] with
        inj := s.dev.lanes[n].inj ++ [(fld (s.dev.lget n R.LANE_PAT_CTL) 17 16, bits)] } } }) ∧
  (∀ (s : State) (n : Fin 40) (c : Instr) (bits : Nat), s.dev.hostOk = true → s.dev.accErr (laneB n) 0x108 = 0 →
    s.dev.flt.slices[(laneB n).region].unit = none → s.dev.patEnding n s.pending = false →
    let at_ := (s.dev.lanes[n].patInj.map fun i => i.1 + i.2).foldl max (s.dev.patSent n)
    at_ < s.dev.patBits n →
    (c = .injBit n ∧ bits = 1 ∨ c = .injBurst n ∧ bits = max 1 (fld (s.dev.lget n R.LANE_PAT_CTL) 15 8)) →
    s.dev.laneSt n = 7 → ∃ d',
    exec c s = .next { s with dev := d' } ∧
    d' = { s.dev with
      regs := d'.regs
      lanes := s.dev.lanes.set n { s.dev.lanes[n] with patInj := s.dev.lanes[n].patInj ++ [(at_, bits)] } } ∧
    d'.getN (laneB n) R.LANE_INJCNT = min 0xFFFFFFFF (s.dev.getN (laneB n) R.LANE_INJCNT + 1) ∧
    d'.get (laneB n) R.OP_PART 3 = wd (s.dev.getN (laneB n) R.OP_PART 3 + bits) ∧
    s.dev.regsKept d' fun a => a = radr (laneB n) R.LANE_INJCNT ∨ a = radr (laneB n) R.OP_PART 3) ∧
  (∀ (s : State) (n : Fin 40) (r : PatResult), s.dev.dead = false → s.dev.opRunning (laneB n) 1 = true →
    s.dev.laneSt n = 7 → s.dev.lanes[n].farAsk = none → s.dev.patBits n ≤ s.dev.patSent n → ∃ d',
    exec (.patTestDone n r) s = .next { s with dev := d' } ∧
    d' = { s.dev with regs := d'.regs, ops := d'.ops, lanes := d'.lanes } ∧
    d'.get (laneB n) R.OP_STAT = opWord 3 4095 0 (s.dev.opTag (laneB n)) ∧ d'.laneSt n = 1 ∧
    d'.get (laneB n) R.OP_PART 0 = s.dev.get (laneB n) R.LANE_PAT_LEN ∧
    d'.get (laneB n) R.OP_PART 1 = wd (s.dev.patCheck n r.flips).errs ∧
    d'.get (laneB n) R.OP_PART 2 = wd (s.dev.patCheck n r.flips).losses ∧
    d'.get (laneB n) R.OP_PART 4 = wd ((s.dev.patCheck n r.flips).first.getD 0) ∧
    (s.dev.patFlips n r.flips = [] → d'.get (laneB n) R.OP_PART 1 = 0 ∧ d'.get (laneB n) R.OP_PART 2 = 0 ∧
      d'.get (laneB n) R.OP_PART 4 = 0) ∧
    (∀ p, s.dev.patFlips n r.flips = [p] → 64 ≤ p → p < s.dev.patBits n →
      d'.get (laneB n) R.OP_PART 1 = 1#32 ∧ d'.get (laneB n) R.OP_PART 2 = 0 ∧ d'.get (laneB n) R.OP_PART 4 = wd p) ∧
    d'.get (laneB n) R.OP_PART 5 = (if s.dev.lanes[n].far then r.farErrs else 0) ∧
    (∀ k : Fin 40, k ≠ n → d'.lanes[k] = s.dev.lanes[k]) ∧ s.dev.regsKept d' (onPage (laneB n))) ∧
  ∀ (s : State) (n : Fin 40) (t : Nat), s.dev.dead = false → s.dev.opRunning (laneB n) 1 = true → s.dev.laneSt n = 7 →
    s.dev.lanes[n].farAsk = some t → s.dev.past t 100 = true → ∃ d',
    exec (.patTestNoAnswer n) s = .next { s with dev := d' } ∧ d' = { s.dev with regs := d'.regs, lanes := d'.lanes } ∧
    d'.getF (laneB n) R.OP_STAT 31 28 = 4 ∧ d'.getF (laneB n) R.OP_STAT 15 8 = 0x80 ∧ d'.laneSt n = 1 ∧
    (∀ k : Fin 40, k ≠ n → d'.lanes[k] = s.dev.lanes[k]) ∧ s.dev.regsKept d' (onPage (laneB n)))

/-! Machine spindles (12). -/

/-- R330, R341, R342, R353: a permitted configuration takes effect with every output it needs claimed, another is refused with
code 2; a target joins the queue of four; a profile value in order waits for the next move start; one out of order, or a
target too many, only sets TARGET_REF.

R344 to R347: a limit that becomes active only shows where nothing moves toward it, and stops what does, with the queue
dropped and fault kind 6; the home switch latches the position of a search of method 0 and lets it stop. -/
def Obligations.SpindlesTakeValuesAndStopAtLimits : Prop :=
  ((∀ (s : State) (m : Fin 64) (v : Word), s.dev.takes (mspB m) (0x158 + 0x100 * mspC m) →
    let w := v &&& R.MSP_CFG.mask
    cfgOk m w = true → s.dev.webNamed m = false → (fld w 2 0 = 2 → fld w 5 4 ≠ 2) →
    (isLocal m = true → s.dev.fenced (mpgB m) = false ∧ (∀ c ∈ s.dev.claims, c.owner ≠ mpgB m) ∧
      ∀ r ∈ s.rivals, r.1 ≠ mpgB m) → ∃ d',
    exec (.mspCfg m v) s = .next { s with dev := d' } ∧ d' = { s.dev with regs := d'.regs, claims := d'.claims } ∧
    d'.mget m R.MSP_CFG = w ∧ (∀ x ∈ cfgWants m w, d'.holds (mpgB m) x.1 (mspB m) (mspSub m x.2) = true) ∧
    s.dev.regsKept d' fun a => a = radr (mspB m) R.MSP_CFG (mspC m) ∨ a = radr (mspB m) R.MSP_STAT (mspC m)) ∧
  (∀ (s : State) (m : Fin 64) (v : Word), s.dev.takes (mspB m) (0x158 + 0x100 * mspC m) →
    cfgOk m (v &&& R.MSP_CFG.mask) = false → ∃ d',
    exec (.mspCfg m v) s = .next { s with dev := d' } ∧ d' = { s.dev with regs := d'.regs } ∧
    d'.mget m R.MSP_CLAIM_ERR = claimWord 2 ⟨0, 0⟩ 0 ∧ bit (d'.mget m R.MSP_EVT) 5 = true ∧
    s.dev.regsKept d' fun a => a = radr (mspB m) R.MSP_CLAIM_ERR (mspC m) ∨ a = radr (mspB m) R.MSP_EVT (mspC m)) ∧
  (∀ (s : State) (m : Fin 64) (v : Word), s.dev.takes (mspB m) (0x170 + 0x100 * mspC m) → s.dev.mstepSrc m = false →
    s.dev.msps[m].blockP = false → s.dev.msps[m].blockN = false → ∃ d',
    exec (.mspTarget m v) s = .next { s with dev := d' } ∧
    (if s.dev.msps[m].queue.length < 4 then
      d' = { s.dev with
        regs := d'.regs
        msps := s.dev.msps.set m { s.dev.msps[m] with queue := s.dev.msps[m].queue ++ [v.toInt] } } ∧
      fld (d'.mget m R.MSP_STAT) 19 16 = s.dev.msps[m].queue.length + 1 ∧ bit (d'.mget m R.MSP_STAT) 11 = false ∧
      s.dev.regsKept d' fun a => a = radr (mspB m) R.MSP_STAT (mspC m)
    else d' = { s.dev with regs := d'.regs } ∧ bit (d'.mget m R.MSP_EVT) 6 = true ∧
      s.dev.regsKept d' fun a => a = radr (mspB m) R.MSP_EVT (mspC m))) ∧
  ∀ (s : State) (m : Fin 64) (i : Fin 9) (r : Reg) (v : Word), s.dev.takes (mspB m) (0x174 + 4 * i.val + 0x100 * mspC m) →
    profRegs[i.val]? = some r →
    let w (q : Reg) : Nat := if q = r then v.toNat else (s.dev.mget m q).toNat
    ∃ d', exec (.mspProfileWrite m i v) s = .next { s with dev := d' } ∧
      if w R.MSP_VS ≤ w R.MSP_VB ∧ w R.MSP_VB ≤ w R.MSP_VM ∧ w R.MSP_VE ≤ w R.MSP_VB ∧ (4 ≤ i.val → v ≠ 0) then
        d' = { s.dev with
          regs := d'.regs
          msps := s.dev.msps.set m { s.dev.msps[m] with
            profWas := if s.dev.msps[m].profWas.map (·.1) = some s.dev.now then s.dev.msps[m].profWas
              else some (s.dev.now, profRegs.map fun q => s.dev.mget m q) } } ∧
        d'.mget m r = v ∧ bit (d'.mget m R.MSP_STAT) 10 = true ∧
        s.dev.regsKept d' fun a => a = radr (mspB m) r (mspC m) ∨ a = radr (mspB m) R.MSP_STAT (mspC m)
      else d' = { s.dev with regs := d'.regs } ∧ bit (d'.mget m R.MSP_EVT) 6 = true ∧ s.dev.regsKept d' fun a => a = radr (mspB m) R.MSP_EVT (mspC m)) ∧
  ((∀ (s : State) (m : Fin 64) (pos : Bool), s.dev.dead = false → s.dev.mlive m = true →
    bit (s.dev.mget m R.MSP_STAT) (if pos then 8 else 7) = false → s.dev.msps[m].vel = 0 → ∃ d',
    exec (.limitEdge m pos true) s = .next { s with dev := d' } ∧ d' = { s.dev with regs := d'.regs } ∧
    bit (d'.mget m R.MSP_STAT) (if pos then 8 else 7) = true ∧
    s.dev.regsKept d' fun a => a = radr (mspB m) R.MSP_STAT (mspC m)) ∧
  (∀ (s : State) (m : Fin 64) (pos : Bool) (p : PMove), s.dev.dead = false → s.dev.mlive m = true →
    bit (s.dev.mget m R.MSP_STAT) (if pos then 8 else 7) = false → (if pos then 0 < s.dev.msps[m].vel else s.dev.msps[m].vel < 0) →
    s.dev.msps[m].home = none → s.dev.msps[m].prof = some p → p.kind = .move → bit (s.dev.mget m R.MSP_IN_CFG) 8 = true → ∃ d',
    exec (.limitEdge m pos true) s = .next { s with dev := d' } ∧
    d' = { s.dev with regs := d'.regs, vecs := d'.vecs, fabric := d'.fabric, msps := d'.msps } ∧
    d'.msps[m].queue = [] ∧ (d'.msps[m].prof.map fun q => q.kind) = some .fall ∧
    (if pos then d'.msps[m].blockP = true else d'.msps[m].blockN = true) ∧ bit (d'.mget m R.MSP_STAT) 11 = true ∧
    bit (d'.mget m R.MSP_EVT) 3 = true ∧ d'.getB (mspB m) R.FLT_STAT 6 = true ∧
    ∀ k : Fin 64, k ≠ m → d'.msps[k] = s.dev.msps[k]) ∧
  ∀ (s : State) (m : Fin 64) (pos start : Int), s.dev.dead = false → s.dev.mlive m = true →
    bit (s.dev.mget m R.MSP_STAT) 9 = false → s.dev.msps[m].home = some ⟨start, none⟩ →
    fld (s.dev.mget m R.MSP_HOME_STAT) 2 0 = 1 → fld (s.dev.mget m R.MSP_HOME_CFG) 1 0 = 0 → ∃ d',
    exec (.homeEdge m true pos) s = .next { s with dev := d' } ∧ d' = { s.dev with regs := d'.regs, msps := d'.msps } ∧
    d'.mget m R.MSP_LATCH = wi pos ∧ d'.mget m R.MSP_HOME_STAT = 3#32 ∧ d'.msps[m].home = some ⟨start, some pos⟩ ∧
    bit (d'.mget m R.MSP_STAT) 9 = true ∧ ∀ k : Fin 64, k ≠ m → d'.msps[k] = s.dev.msps[k])

/-- R343, R347, R349, R350, R358: HOME starts the search in state 4; STOP and QSTOP drop the queue and let the move fall to
rest; a compare list is copied from SDRAM, and enabling it stands at its first entry; MSP_APPLY puts the named cells' values
in force, within a tick once it has been computed (log 30, the model's choice). -/
def Obligations.SpindlesHomeStopAndCompare : Prop :=
  (∀ (s : State) (m : Fin 64), s.dev.takes (mspB m) (mcmdOfs m) → s.dev.mst m = 1 →
    s.dev.cells[mspI m].held ≠ some s.dev.tick → s.dev.msps[m].prof = none →
    s.dev.msps[m].queue = [] → (fld (s.dev.mget m R.MSP_HOME_CFG) 1 0 ≠ 0 → isLocal m = true → s.dev.mfb m = 1) → ∃ d',
    exec (.home m) s = .next { s with dev := d' } ∧
    d' = { s.dev with regs := d'.regs, live := d'.live, cells := d'.cells, msps := d'.msps } ∧ d'.mst m = 4 ∧
    d'.msps[m].home = some ⟨s.dev.mpos m, none⟩ ∧
    d'.mget m R.MSP_HOME_STAT = (if fld (s.dev.mget m R.MSP_HOME_CFG) 1 0 = 2 then 2#32 else 1#32) ∧
    (∀ k : Fin 64, k ≠ m → d'.msps[k] = s.dev.msps[k])) ∧
  (∀ (s : State) (m : Fin 64) (p : PMove) (c : Instr) (quick : Bool), (c, quick) ∈ [(Instr.stop m, false), (.qstop m, true)] →
    s.dev.takes (mspB m) (mcmdOfs m) → s.dev.mst m ≠ 4 → s.dev.msps[m].home = none → s.dev.msps[m].prof = some p →
    p.kind = .move →
    let f := s.dev.mprof m
    let q : Rat := ((s.dev.liv (mspB m) R.MSP_QSTOP (mspC m)).toNat : Rat) / 1000000000000
    let g : Prof := if quick then { f with d1 := q, d2 := q } else f
    let end_ := if s.dev.mdrive m = 1 then f.vE else 0
    ∃ d', exec c s = .next { s with dev := d' } ∧
      d' = { s.dev with
        regs := d'.regs
        msps := s.dev.msps.set m { s.dev.msps[m] with
          queue := []
          prof := some ⟨.fall, s.dev.msps[m].set, p.sign, fallPhases g (rabs s.dev.msps[m].vel) end_, 0, p.target⟩ } } ∧
      fld (d'.mget m R.MSP_STAT) 19 16 = 0 ∧ s.dev.regsKept d' fun a => a = radr (mspB m) R.MSP_STAT (mspC m)) ∧
  (∀ (s : State) (b : Fin 8) (o : OpRec) (bs : List Byte), s.dev.dead = false → s.dev.op (blk .mspin b.val) = some o →
    s.dev.opRunning (blk .mspin b.val) 1 = true →
    let n := cmpSpindle b o.param
    s.dev.sdRead s.mem (s.dev.addr2 (blk .mspin b.val) R.MSP_CMP_ADDR_LO R.MSP_CMP_ADDR_HI (mspC n))
      (8 * fld (s.dev.mget n R.MSP_CMP_LEN) 10 0) = .ok bs →
    ∃ d', exec (.cmpLoadDone b) s = .next { s with dev := d' } ∧
      if (cmpEntries (bytesWords bs)).any (fun e => e.2.1 = 3) then
        d' = { s.dev with regs := d'.regs } ∧ d'.getF (blk .mspin b.val) R.OP_STAT 15 8 = 0x81
      else
        d' = { s.dev with
          regs := d'.regs, ops := d'.ops, msps := s.dev.msps.set n { s.dev.msps[n] with list := cmpEntries (bytesWords bs) } } ∧
        d'.get (blk .mspin b.val) R.OP_STAT = opWord 3 4095 0 (s.dev.opTag (blk .mspin b.val))) ∧
  (∀ (s : State) (m : Fin 64) (v : Word) (e : Int × Nat × Bool) (es : List (Int × Nat × Bool)),
    s.dev.takes (mspB m) (0x1BC + 0x100 * mspC m) → bit v 0 = true → bit v 2 = false →
    bit (s.dev.mget m R.MSP_CMP_CTL) 0 = false → s.dev.msps[m].list = e :: es → e.2.1 = 1 → s.dev.mpos m < e.1 → ∃ d',
    exec (.compareEnable m v) s = .next { s with dev := d' } ∧
    d' = { s.dev with regs := d'.regs, claims := d'.claims, msps := d'.msps } ∧
    d'.mget m R.MSP_CMP_CTL = v &&& R.MSP_CMP_CTL.mask ∧ fld (d'.mget m R.MSP_CMP_IDX) 9 0 = 0 ∧
    d'.msps[m].ofs = 0 ∧ d'.msps[m].below = true ∧ (∀ k : Fin 64, k ≠ m → d'.msps[k] = s.dev.msps[k]) ∧
    s.dev.regsKept d' fun a => a = radr (mspB m) R.MSP_CMP_CTL (mspC m) ∨ a = radr (mspB m) R.MSP_CMP_IDX (mspC m)) ∧
  ∀ (s : State) (b : Fin 8) (v : Word), s.dev.takes (blk .mspin b.val) 0x900 → ∃ d',
    exec (.mspApply b v) s = .next { s with dev := d' } ∧ d' = { s.dev with live := d'.live, cells := d'.cells } ∧
    ∀ (c : Fin 8), ∀ r ∈ shadowRegs, ∀ j < r.2, let i : Fin 256 := Fin.ofNat 256 (192 + 8 * b.val + c.val)
      if bit v c.val = false then d'.cliv i r.1 j = s.dev.cliv i r.1 j ∧ d'.cells[i] = s.dev.cells[i]
      else if s.dev.midTick i = true then
        d'.cliv i r.1 j = s.dev.cliv i r.1 j ∧ (cellAdr i r.1 j, s.dev.cget i r.1 j) ∈ d'.cells[i].due
      else d'.cliv i r.1 j = s.dev.cget i r.1 j ∧ d'.cells[i] = { s.dev.cells[i] with due := [] }

/-- R331, R335 to R340, R351, R352: a tick carries the setpoint along its profile; a quadrature or hall step counts the
position by one, an index latches it; a step pulse moves the target by its size; a failed BiSS-C frame counts and a good one
is taken; the speed window measures its net counts; after the still time the speed is 0; a compare pulse ends. -/
def Obligations.PositionsAreCounted : Prop :=
  (∀ (s : State) (m : Fin 64) (p : PMove), s.dev.dead = false → isLocal m = true → s.dev.mlive m = true →
    s.dev.cells[mspI m].kDone ≠ some s.dev.tick → runState (s.dev.mst m) = true → s.dev.mdrive m = 0 →
    s.dev.mstepSrc m = false → s.dev.msps[m].home = none → s.dev.msps[m].prof = some p → p.t + 1 < phasesTime p.phases →
    let x := phaseAt p.phases (p.t + 1)
    let k : Rat := ((p.sign : Int) : Rat)
    ∃ d', exec (.motionTick m) s = .next { s with dev := d' } ∧
      d' = { s.dev with
        regs := d'.regs, cells := d'.cells
        msps := s.dev.msps.set m { s.dev.msps[m] with
          set := p.start + k * x.1, vel := k * x.2.1, acc := k * x.2.2, prof := some { p with t := p.t + 1 } } } ∧
      d'.mget m R.MSP_SETP = wi (p.start + k * x.1).floor ∧ bit (d'.mget m R.MSP_STAT) 4 = true ∧
      d'.cells[mspI m].kDone = some s.dev.tick ∧ d'.cells[mspI m].sp = rnd ((p.start + k * x.1) * 256) ∧
      ∀ i : Fin 256, i ≠ mspI m → d'.cells[i] = s.dev.cells[i]) ∧
  (∀ (s : State) (p : Fin 16) (a b : Bool) (step : Int), s.dev.dead = false → s.dev.mpgOn (portM p) = true →
    s.dev.mlive (portM p) = true → s.dev.mfb (portM p) = 1 → bit (s.dev.mget (portM p) R.MSP_CMP_CTL) 0 = false →
    let la := a != bit (s.dev.portPol p) 11
    let lb := b != bit (s.dev.portPol p) 12
    ((quadPhase la lb + 4 - quadPhase s.dev.msps[portM p].quad.1 s.dev.msps[portM p].quad.2) % 4, step) ∈ [(1, 1), (3, -1)] → ∃ d',
    exec (.quadratureEdge p a b) s = .next { s with dev := d' } ∧
    d' = { s.dev with regs := d'.regs, msps := d'.msps } ∧
    d'.mget (portM p) R.MSP_POS = wi (s.dev.mpos (portM p) + step) ∧ d'.msps[portM p].quad = (la, lb) ∧
    d'.msps[portM p].winNet = s.dev.msps[portM p].winNet + step ∧
    ∀ k : Fin 64, k ≠ portM p → d'.msps[k] = s.dev.msps[k]) ∧
  (∀ (s : State) (p : Fin 16) (h : BitVec 3) (step : Int), s.dev.dead = false → s.dev.mpgOn (portM p) = true →
    s.dev.mlive (portM p) = true → s.dev.mfb (portM p) = 3 → bit (s.dev.mget (portM p) R.MSP_CMP_CTL) 0 = false →
    let code := (h ^^^ (s.dev.portPol p).extractLsb' 8 3).toNat
    hallStep s.dev.msps[portM p].hall code = some step → ∃ d',
    exec (.hallChange p h) s = .next { s with dev := d' } ∧ d' = { s.dev with regs := d'.regs, msps := d'.msps } ∧
    d'.mget (portM p) R.MSP_POS = wi (s.dev.mpos (portM p) + step) ∧ d'.msps[portM p].hall = code ∧
    fld (d'.mget (portM p) R.MSP_STAT) 14 12 = code ∧
    ∀ k : Fin 64, k ≠ portM p → d'.msps[k] = s.dev.msps[k]) ∧
  (∀ (s : State) (m : Fin 64) (latched : Int), s.dev.dead = false → s.dev.mlive m = true → s.dev.msps[m].home = none →
    (isLocal m = true → s.dev.mfb m = 1 ∧ bit (s.dev.mget m R.MSP_IN_CFG) 12 = false) → ∃ d',
    exec (.indexEdge m latched) s = .next { s with dev := d' } ∧ d' = { s.dev with regs := d'.regs } ∧
    d'.mget m R.MSP_LATCH = wi (if isLocal m then s.dev.mpos m else latched) ∧
    s.dev.regsKept d' fun a => a = radr (mspB m) R.MSP_LATCH (mspC m)) ∧
  (∀ (s : State) (p : Fin 16) (up : Bool), s.dev.dead = false → s.dev.mpgOn (portM p) = true →
    s.dev.mlive (portM p) = true → s.dev.mstepSrc (portM p) = true →
    let size : Rat := ((fld (s.dev.mget (portM p) R.MSP_STEPIN) 15 0 : Nat) : Rat)
    ∃ d', exec (.stepInput p up) s = .next { s with dev := d' } ∧
      d' = { s.dev with regs := d'.regs, msps := d'.msps } ∧
      d'.msps[portM p].q = s.dev.msps[portM p].q + (if up != bit (s.dev.portPol p) 12 then size else -size) ∧
      d'.msps[portM p].set = s.dev.msps[portM p].q ∧ d'.msps[portM p].left = 256 ∧
      (∀ k : Fin 64, k ≠ portM p → d'.msps[k] = s.dev.msps[k]) ∧
      s.dev.regsKept d' fun a => a = radr (mspB (portM p)) R.MSP_MISC (mspC (portM p))) ∧
  (∀ (s : State) (p : Fin 16) (f : BissFrame), s.dev.dead = false → s.dev.mpgOn (portM p) = true →
    s.dev.mlive (portM p) = true → s.dev.mfb (portM p) = 2 → bit (s.dev.mget (portM p) R.MSP_CMP_CTL) 0 = false →
    let b := fld (s.dev.mget (portM p) R.MSP_CFG) 7 7
    ∃ d', exec (.bissFrame p f) s = .next { s with dev := d' } ∧
      d' = { s.dev with
        regs := d'.regs, vecs := d'.vecs, fabric := d'.fabric, cells := d'.cells, tunes := d'.tunes, msps := d'.msps } ∧
      if f.startOk && f.crcOk && f.nE then
        d'.msps[portM p].raw = some ((f.pos % 2 ^ s.dev.getF (mpgB (portM p)) R.MPG_BISS 5 0 b : Nat) : Int) ∧
        d'.msps[portM p].bissBad = !f.nW
      else d'.getF (mpgB (portM p)) R.MPG_BISS_STAT 31 16 b =
        min 0xFFFF (s.dev.getF (mpgB (portM p)) R.MPG_BISS_STAT 31 16 b + 1)) ∧
  (∀ (s : State) (m : Fin 64), s.dev.dead = false → s.dev.mlive m = true →
    let win := max 1 (fld (s.dev.mget m R.MSP_SPD_CFG) 15 0)
    s.dev.past s.dev.msps[m].winStart win = true → ∃ d',
    exec (.speedWindowEnd m) s = .next { s with dev := d' } ∧
    d' = { s.dev with
      regs := d'.regs
      msps := s.dev.msps.set m { s.dev.msps[m] with winEdges := 0, winNet := 0, winStart := s.dev.now } } ∧
    d'.mget m R.MSP_SPEED = wi ((s.dev.msps[m].winNet * 1000000).tdiv (win : Int)) ∧
    s.dev.regsKept d' fun a => a = radr (mspB m) R.MSP_SPEED (mspC m) ∨ a = radr (mspB m) R.MSP_STAT (mspC m)) ∧
  (∀ (s : State) (m : Fin 64) (t : Nat) (u : Bool), s.dev.dead = false → s.dev.mlive m = true →
    s.dev.msps[m].edgeAt = some (t, u) → s.dev.past t (s.dev.mget m R.MSP_STILL_US).toNat = true → ∃ d',
    exec (.standstill m) s = .next { s with dev := d' } ∧
    d' = { s.dev with
      regs := d'.regs, msps := s.dev.msps.set m { s.dev.msps[m] with edgeAt := none, period := none } } ∧
    d'.mget m R.MSP_SPEED = 0 ∧ bit (d'.mget m R.MSP_STAT) 5 = true) ∧
  ∀ (s : State) (m : Fin 64), s.dev.dead = false → s.dev.msps[m].pulseAt.isSome = true → s.dev.pulsing m = false →
    exec (.comparePulseEnd m) s = .next { s with dev := { s.dev with
      msps := s.dev.msps.set m { s.dev.msps[m] with pulseAt := none } } }

/-! Memory (13). -/

/-- R363, R372, R378: a request to a channel in service is in flight, or waits while 512 are, and SDC_INFLIGHT shows how many and their
peak; one beyond the installed SDRAM, or to a channel out of service or without a rank, is answered at once.

R362 to R367, R369, R378: a command slot serves panic first, oldest first, and no transaction is passed more than 16 times; a write
stores its bytes and no other, a read answers them without changing any, and what its ECC found is counted and decides the answer; the
scrubber reads the next line as ordinary traffic. A cycle without a command gives each channel one slot (log 22, DESIGN CHOICE).

R368, R371: a clean line copied moves the copy pointer and changes no byte; once all lines are copied the logical rank is
served by the target, the source is retired and the operation is done. -/
def Obligations.RequestsAreServedAndRanksMigrate : Prop :=
  ((∀ (s : State) (ch : Fin 2) (r : SdReq), s.dev.dead = false →
    let n := min r.len (64 - r.ofs.val)
    let a := lineAddr s.dev.rowBits ch.val 0 r.line + r.ofs.val
    let x : Flight := ⟨r.panic, r.rowHit, a, n, r.data.map fun l => (l ++ List.replicate n 0#8).take n, r.ecc, r.cmdErr, 0, false⟩
    let c := s.dev.sdc[ch]
    (n = 0 → exec (.sdramRequest ch r) s = .next s) ∧
    (0 < n → s.dev.installed < a + n → exec (.sdramRequest ch r) s = .next { s with
      dev := { s.dev with sdc := s.dev.sdc.set ch { c with answer := some (3, []) } } }) ∧
    (0 < n → a + n ≤ s.dev.installed → s.dev.up (sdcB ch) = false → exec (.sdramRequest ch r) s = .next { s with
      dev := { s.dev with sdc := s.dev.sdc.set ch { c with answer := some (s.dev.status (sdcB ch), []) } } }) ∧
    (0 < n → a + n ≤ s.dev.installed → s.dev.up (sdcB ch) = true → s.dev.getB (sdcB ch) R.SDC_STAT 18 = true →
      exec (.sdramRequest ch r) s = .next { s with
        dev := { s.dev with sdc := s.dev.sdc.set ch { c with answer := some (4, []) } } }) ∧
    (0 < n → a + n ≤ s.dev.installed → s.dev.up (sdcB ch) = true → s.dev.getB (sdcB ch) R.SDC_STAT 18 = false →
      (∀ r : Fin 16, s.dev.flt.slices[r].unit = none) →
      (c.wait = [] → c.flight.length < 512 → (r.panic = true ∨ c.flight.length < 448) → ∃ d',
        exec (.sdramRequest ch r) s = .next { s with dev := d' } ∧
        d' = { s.dev with regs := d'.regs, sdc := s.dev.sdc.set ch { c with flight := c.flight ++ [x] } } ∧
        d'.getF (sdcB ch) R.SDC_INFLIGHT 9 0 = c.flight.length + 1 ∧
        d'.getF (sdcB ch) R.SDC_INFLIGHT 25 16 = max (c.flight.length + 1) (s.dev.getF (sdcB ch) R.SDC_INFLIGHT 25 16) ∧
        s.dev.regsKept d' fun o => o = radr (sdcB ch) R.SDC_INFLIGHT) ∧
      (c.flight.length = 512 → ∃ d', exec (.sdramRequest ch r) s = .next { s with dev := d' } ∧
        d' = { s.dev with regs := d'.regs, sdc := s.dev.sdc.set ch { c with wait := c.wait ++ [x] } } ∧
        s.dev.regsKept d' fun o => o = radr (sdcB ch) R.SDC_INFLIGHT))) ∧
  (∀ (d : Dev) (m : Mem) (ch : Fin 2) (l : List Flight) (i : Nat) (x : Flight),
    let ok (y : Flight) : Prop := d.overLimit ch (d.flightRank m ch y) = false
    (l[i]? = some x → x.panic = true → ok x → (∀ j < i, ∀ y, l[j]? = some y → y.panic = true → ¬ ok y) →
      d.slotTo m ch l = some i) ∧
    (l[i]? = some x → (∀ y ∈ l, y.panic = false ∧ y.hit = false) → ok x → (∀ j < i, ∀ y, l[j]? = some y → ¬ ok y) →
      d.slotTo m ch l = some i) ∧
    (l[i]? = some x → (∀ y ∈ l, y.panic = false) → ok x → 16 ≤ x.passed → ∃ k ≤ i, d.slotTo m ch l = some k)) ∧
  (∀ (m : Mem) (d : Dev) (ch : Fin 2) (x : Flight), d.sdc[ch].flight = [x] → d.sdc[ch].wait = [] →
    x.addr + x.len ≤ d.installed → d.up (sdcB ch) = true → d.getB (sdcB ch) R.SDC_STAT 18 = false →
    d.overLimit ch (d.flightRank m ch x) = false → ∃ m' d', sdcSlot m d ch = (m', d') ∧ d'.sdc[ch].flight = [] ∧
    (∀ k : Fin 2, k ≠ ch → d'.sdc[k] = d.sdc[k]) ∧
    (∀ bs, x.data = some bs → bs.length = x.len → x.ecc = .clean →
      d' = { d with regs := d'.regs, sdc := d'.sdc, fresh := d'.fresh } ∧ d.regsKept d' (onPage (sdcB ch)) ∧
      (∀ i < x.len, some (m'.byte (x.addr + i)) = bs[i]?) ∧
      (∀ a, a < x.addr ∨ x.addr + x.len ≤ a → m'.byte a = m.byte a) ∧
      (∀ l, l ∈ m'.poison ↔ l ∈ m.poison ∧ ¬ (x.addr ≤ l * 64 ∧ l * 64 + 64 ≤ x.addr + x.len)) ∧
      (x.scrub = false → d'.sdc[ch].answer = some (0, []))) ∧
    (x.data = none → m' = m ∧
      (m.poisoned x.addr x.len = true → (x.scrub = false → d'.sdc[ch].answer = some (4, [])) ∧
        d'.getN (sdcB ch) R.SDC_POISON_RD = min 0xFFFFFFFF (d.getN (sdcB ch) R.SDC_POISON_RD + 1)) ∧
      (m.poisoned x.addr x.len = false →
        (x.scrub = false → x.ecc ≠ .lasting → d'.sdc[ch].answer = some (0, m.bytes x.addr x.len)) ∧
        (x.scrub = false → x.ecc = .lasting → d'.sdc[ch].answer = some (4, [])) ∧
        (x.ecc = .corrected → x.cmdErr = false →
          d'.getN (sdcB ch) R.SDC_CE_CNT = min 0xFFFFFFFF (d.getN (sdcB ch) R.SDC_CE_CNT + 1)) ∧
        (x.ecc = .transient →
          d'.getN (sdcB ch) R.SDC_TRANS_CNT = min 0xFFFFFFFF (d.getN (sdcB ch) R.SDC_TRANS_CNT + 1)) ∧
        (x.ecc = .lasting →
          d'.getN (sdcB ch) R.SDC_UE_CNT = min 0xFFFFFFFF (d.getN (sdcB ch) R.SDC_UE_CNT + 1) ∧
          d'.get (sdcB ch) R.SDC_ERR_ADDR_LO = wd x.addr ∧ d'.getB (sdcB ch) R.FLT_STAT x.cmdErr.toNat = true)))) ∧
  (∀ s : State, s.pending = [] → s.dev.dead = false → (∀ o ∈ s.dev.ops, o.abortAt = none) →
    (∀ r : Fin 16, s.dev.flt.slices[r].unit = none) →
    step s = .next s.cycle ∧ s.cycle.mem = (sdcSlots s.mem s.dev).1 ∧ s.cycle.dev.sdc = (sdcSlots s.mem s.dev).2.sdc) ∧
  ∀ (s : State) (ch : Fin 2), s.dev.dead = false → s.dev.getB (sdcB ch) R.SDC_SCRUB 0 = true →
    s.dev.up (sdcB ch) = true → s.dev.getB (sdcB ch) R.SDC_STAT 18 = false → (∀ r : Fin 16, s.dev.flt.slices[r].unit = none) →
    s.dev.sdc[ch].flight = [] → s.dev.sdc[ch].wait = [] →
    let n := s.dev.getF (blk .boot 0) R.BOOT_FILL 2 0 * s.dev.rankLines
    let i := s.dev.sdc[ch].scrub % n
    let a := lineAddr s.dev.rowBits ch.val (i / s.dev.rankLines) (i % s.dev.rankLines)
    0 < n → s.dev.scrubDue ch n = true → a + 64 ≤ s.dev.installed → ∃ d',
    exec (.scrubRead ch .clean) s = .next { s with dev := d' } ∧ d' = { s.dev with regs := d'.regs, sdc := d'.sdc } ∧
    d'.sdc[ch].scrub = (i + 1) % n ∧ d'.sdc[ch].flight = [⟨false, false, a, 64, none, .clean, false, 0, true⟩] ∧
    (∀ k : Fin 2, k ≠ ch → d'.sdc[k] = s.dev.sdc[k]) ∧ s.dev.regsKept d' (onPage (sdcB ch))) ∧
  ((∀ (s : State) (ch : Fin 2) (g : MigMem), s.dev.dead = false → s.mem.migs[ch] = some g →
    s.dev.opRunning (sdcB ch) 1 = true → g.p < s.dev.rankLines →
    s.mem.poisoned (lineAddr g.rb ch.val g.rank g.p) 64 = false → s.dev.mayCopy ch = true → ∃ d',
    exec (.migrate ch (.copy .clean)) s = .next { s with
      mem := { s.mem with migs := s.mem.migs.set ch (some { g with p := g.p + 1 }) }, dev := d' } ∧
    d' = { s.dev with
      regs := d'.regs
      sdc := s.dev.sdc.set ch { s.dev.sdc[ch] with
        copies := s.dev.sdc[ch].copies + (if s.dev.sdc[ch].flight = [] then 0 else 1) } } ∧
    d'.get (sdcB ch) R.OP_PART 0 = wd (g.p + 1) ∧
    s.dev.regsKept d' fun a => a = radr (sdcB ch) R.OP_STAT ∨ a = radr (sdcB ch) R.OP_PART) ∧
  ∀ (s : State) (ch : Fin 2) (g : MigMem), s.dev.dead = false → s.mem.migs[ch] = some g →
    s.dev.opRunning (sdcB ch) 1 = true → g.p = s.dev.rankLines → g.rank < 4 →
    let src := s.dev.getF (sdcB ch) R.OP_PART 5 4 3
    let tgt := s.dev.getF (sdcB ch) R.OP_PART 9 8 3
    src ≠ tgt → ∃ d',
    exec (.migrateDone ch false) s = .next { s with
      mem := { s.mem with migs := s.mem.migs.set ch none }, dev := d' } ∧
    d' = { s.dev with regs := d'.regs, vecs := d'.vecs, ops := d'.ops } ∧
    d'.getF (sdcB ch) R.SDC_RANKMAP (2 * g.rank + 1) (2 * g.rank) = tgt ∧
    d'.getB (sdcB ch) R.SDC_STAT 17 = false ∧ d'.getB (sdcB ch) R.SDC_STAT (8 + src) = true ∧
    d'.getB (sdcB ch) R.SDC_STAT (4 + src) = false ∧ d'.getB (sdcB ch) R.SDC_STAT (4 + tgt) = true ∧
    d'.getB (sdcB ch) R.SDC_EVT 1 = true ∧ d'.get (sdcB ch) R.OP_STAT = opWord 3 4095 0 (s.dev.opTag (sdcB ch)))

/-- R373 to R376: a live rank's unit owes one refresh more after tREFI and one less after a REFsb, which waits while a request to its
bank is in flight unless the limit is passed, and is counted where it is; a poll that finds the
doubled rate doubles what its units owe; DIS shows in SDC_STAT and raises kind 4 when it is set. -/
def Obligations.RefreshesAreOwedAndIssued : Prop :=
  (∀ (s : State) (ch : Fin 2) (r b : Fin 4), s.dev.dead = false → s.dev.rankLive ch r = true → s.dev.refOn ch = true →
    s.dev.pastNs s.dev.sdc[ch].units[unitIx r b].accr (if s.dev.rankDbl ch r then 1950 else 3900) = true → ∃ d',
    exec (.refreshAccrual ch r b) s = .next { s with dev := d' } ∧
    d' = { s.dev with
      regs := d'.regs
      sdc := s.dev.sdc.set ch { s.dev.sdc[ch] with
        units := s.dev.sdc[ch].units.set (unitIx r b) { s.dev.sdc[ch].units[unitIx r b] with
          owed := s.dev.sdc[ch].units[unitIx r b].owed + 1, accr := s.dev.now } } } ∧
    s.dev.regsKept d' fun a => a = radr (sdcB ch) R.SDC_REF_OWED) ∧
  (∀ (s : State) (ch : Fin 2) (r b : Fin 4), s.dev.dead = false → s.dev.rankLive ch r = true → s.dev.refOn ch = true →
    0 < s.dev.sdc[ch].units[unitIx r b].owed →
    (∀ t, s.dev.sdc[ch].units[unitIx r b].last = some t → s.dev.pastNs t (s.dev.getF (sdcB ch) R.SDC_TRFCSB 11 0) = true) →
    (∀ w, s.dev.sdc[ch].units[unitIx r b].was = some w → w.1 ≠ s.dev.now) →
    ((∀ x ∈ s.dev.sdc[ch].flight, bankOf x.addr = b.val → s.dev.flightRank s.mem ch x ≠ r) ∨
      s.dev.owedLimit ch r < s.dev.sdc[ch].units[unitIx r b].owed) → ∃ d',
    exec (.refreshIssue ch r b) s = .next { s with dev := d' } ∧
    d' = { s.dev with
      regs := d'.regs
      sdc := s.dev.sdc.set ch { s.dev.sdc[ch] with
        units := s.dev.sdc[ch].units.set (unitIx r b) { s.dev.sdc[ch].units[unitIx r b] with
          owed := s.dev.sdc[ch].units[unitIx r b].owed - 1, last := some s.dev.now } } } ∧
    d'.getN (sdcB ch) R.SDC_REF_FORCED = (if s.dev.owedLimit ch r < s.dev.sdc[ch].units[unitIx r b].owed then
      min 0xFFFFFFFF (s.dev.getN (sdcB ch) R.SDC_REF_FORCED + 1) else s.dev.getN (sdcB ch) R.SDC_REF_FORCED) ∧
    s.dev.regsKept d' fun a => a = radr (sdcB ch) R.SDC_REF_OWED ∨ a = radr (sdcB ch) R.SDC_REF_FORCED) ∧
  (∀ (s : State) (ch : Fin 2) (r : Fin 4), s.dev.dead = false → s.dev.rankLive ch r = true → s.dev.rankDbl ch r = false →
    s.dev.past s.dev.sdc[ch].polled[r] (s.dev.getF (sdcB ch) R.SDC_REF_CTL 15 8 * 1000) = true → ∃ d',
    exec (.mr4Poll ch r true) s = .next { s with dev := d' } ∧
    d' = { s.dev with regs := d'.regs, vecs := d'.vecs, sdc := d'.sdc } ∧ d'.rankDbl ch r = true ∧
    (∀ b, d'.sdc[ch].units[unitIx r b].owed = 2 * s.dev.sdc[ch].units[unitIx r b].owed) ∧
    d'.sdc[ch].polled[r] = s.dev.now ∧ d'.getB (sdcB ch) R.SDC_EVT 3 = true ∧
    d'.getN (sdcB ch) R.SDC_REF_RESTATE = min 0xFFFFFFFF (s.dev.getN (sdcB ch) R.SDC_REF_RESTATE + 1)) ∧
  ∀ (s : State) (ch : Fin 2) (dis : Bool), s.dev.takes (sdcB ch) 0x10C → ∃ d',
    exec (.refreshDisable ch dis) s = .next { s with dev := d' } ∧
    d' = { s.dev with regs := d'.regs, fabric := d'.fabric, fresh := d'.fresh } ∧ d'.refOn ch = !dis ∧
    d'.getB (sdcB ch) R.SDC_STAT 19 = dis ∧
    (dis = true → s.dev.refOn ch = true → d'.getB (sdcB ch) R.FLT_STAT 4 = true) ∧
    (dis = false → s.dev.regsKept d' fun a => a = radr (sdcB ch) R.SDC_REF_CTL ∨ a = radr (sdcB ch) R.SDC_STAT)

/-- R381, R383 to R387: a host write to a free pool word stores it and moves the address on, a read of it answers it; a
preserving march only counts what it finds, a destructive one leaves no word of its bank; the last bank ends the operation. -/
def Obligations.PoolWordsAndMarches : Prop :=
  (∀ (s : State) (v : Word), s.dev.takes sramp 0x110 →
    let a := s.dev.getF sramp R.SRAMP_ACC_ADDR 24 2 * 4
    s.dev.bankStatus (a / 65536) = 0 → (a / 65536 < 16 ∨ 48 ≤ a / 65536) → ∃ d',
    exec (.srampAccData (some v) .clean) s = .next { s with dev := d' } ∧
    d' = { s.dev with regs := d'.regs, pool := { s.dev.pool with words := spPut s.dev.pool.words a v } } ∧
    d'.getF sramp R.SRAMP_ACC_ADDR 24 2 = (a / 4 + 1) % 2 ^ 23 ∧
    s.dev.regsKept d' fun x => x = radr sramp R.SRAMP_ACC_ADDR) ∧
  (∀ (s : State) (v : Word), s.dev.takes sramp 0x110 →
    let a := s.dev.getF sramp R.SRAMP_ACC_ADDR 24 2 * 4
    s.dev.bankStatus (a / 65536) = 0 → (a / 65536 < 16 ∨ 48 ≤ a / 65536) → spGet s.dev.pool.words a = some v →
    s.dev.poolSick a = false → ∃ d',
    exec (.srampAccData none .clean) s = .next { s with dev := d' } ∧
    d' = { s.dev with regs := d'.regs, cpl := ⟨[v], false⟩ } ∧
    s.dev.regsKept d' fun x => x = radr sramp R.SRAMP_ACC_ADDR) ∧
  (∀ (s : State) (o : OpRec) (fails : List (Fin 8192 × Fin 72)), s.dev.dead = false →
    s.dev.op march = some o → s.dev.opRunning march 1 = true → s.dev.getN march R.OP_PART 0 < s.dev.marchRange.2 →
    o.param.testBit 0 = false → o.param.testBit 1 = false → ∃ d',
    exec (.march (.bank fails)) s = .next { s with dev := d' } ∧ d' = { s.dev with regs := d'.regs } ∧
    d'.getN march R.OP_PART 0 = s.dev.getN march R.OP_PART 0 + 1 ∧
    d'.get march R.OP_PART 1 = wd (s.dev.getN march R.OP_PART 1 + fails.length) ∧
    s.dev.regsKept d' fun a => a = radr march R.OP_STAT ∨ ∃ i, i < 6 ∧ a = radr march R.OP_PART i) ∧
  (∀ (s : State) (o : OpRec) (fails : List (Fin 8192 × Fin 72)), s.dev.dead = false →
    s.dev.op march = some o → s.dev.opRunning march 1 = true → s.dev.getN march R.OP_PART 0 < s.dev.marchRange.2 →
    o.param.testBit 0 = true → ∃ d',
    exec (.march (.bank fails)) s = .next { s with dev := d' } ∧
    (∀ x ∈ d'.pool.words, x.1 / 65536 ≠ s.dev.marchRange.1 + s.dev.getN march R.OP_PART 0) ∧
    d'.getN march R.OP_PART 0 = s.dev.getN march R.OP_PART 0 + 1) ∧
  ∀ s : State, s.dev.dead = false → s.dev.opRunning march 1 = true → s.dev.getN march R.OP_PART 0 = s.dev.marchRange.2 → ∃ d',
    exec .marchDone s = .next { s with dev := d' } ∧ d' = { s.dev with regs := d'.regs, ops := d'.ops } ∧
    d'.get march R.OP_STAT = opWord 3 4095 0 (s.dev.opTag march) ∧ s.dev.regsKept d' fun a => a = radr march R.OP_STAT

/-! Time (14). -/

/-- R391, R393 to R396, R404: a Sync, or the Follow_Up of one, gives a receiver's port a pair of stamps and the active port an
offset; a Delay_Req is answered by a transmitter; a Delay_Resp moves the path delay by a sixteenth; an Announce is shown; a
message discarded is counted; a host SET steps the clock while SET_OPEN is 1, and still in the cycle in which a skein start closes it.

R392, R395, R397, R404: at its interval a transmitter sends numbered Syncs and Announces and a receiver Delay_Reqs; a port
whose announce receipt timeout passes is late: the other receiver takes over, or the clock holds over. -/
def Obligations.NetworkTimeFollowsItsPorts : Prop :=
  ((∀ (s : State) (p : Fin 2) (m : SyncMsg), s.dev.dead = false → s.dev.portOn p = true → s.dev.portState p = 1 →
    s.dev.inDomain m.hdr = true →
    if m.twoStep then ∃ d', exec (.sync p m) s = .next { s with dev := d' } ∧
      d' = { s.dev with
        regs := d'.regs, vecs := d'.vecs
        tim := { s.dev.tim with
          ports := s.dev.tim.ports.set p { s.dev.tim.ports[p] with
            wait := some (m.hdr.seq, s.dev.rxNs p m.rx, m.corr), syncAt := s.dev.now } } } ∧
      d'.portLate p = false ∧ (s.dev.activePort = some p → d'.activePort = some p)
    else ∃ d', exec (.sync p m) s = .next { s with dev := d' } ∧
      s.dev.syncTaken d' p (s.dev.msgNs m.origin + m.corr) (s.dev.rxNs p m.rx)) ∧
  (∀ (s : State) (p : Fin 2) (m : FollowMsg) (t2 c : Int), s.dev.dead = false → s.dev.portOn p = true →
    s.dev.portState p = 1 → s.dev.inDomain m.hdr = true → s.dev.tim.ports[p].wait = some (m.hdr.seq, t2, c) → ∃ d',
    exec (.followUp p m) s = .next { s with dev := d' } ∧ s.dev.syncTaken d' p (s.dev.msgNs m.time + c + m.corr) t2) ∧
  (∀ (s : State) (p : Fin 2) (rx : PtpTime) (m : PtpHdr), s.dev.dead = false → s.dev.portOn p = true →
    s.dev.portState p = 2 → s.dev.inDomain m = true →
    let udp := if s.dev.getB timeB R.TIME_PORT_CFG 0 p.val then some (s.dev.get timeB R.TIME_PORT_IPV4 p.val) else none
    exec (.delayReq p rx m) s = .next { s with
      dev := { s.dev with
        tim := { s.dev.tim with
          sent := some ⟨p, 9, m.seq.toNat, s.dev.rxNs p rx, s.dev.getF timeB R.TIME_DOMAIN 7 0, udp, 0, 0⟩ } } }) ∧
  (∀ (s : State) (p : Fin 2) (m : FollowMsg) (t3 : Int), s.dev.dead = false → s.dev.portOn p = true →
    s.dev.portState p = 1 → s.dev.inDomain m.hdr = true → s.dev.tim.ports[p].dreq = some (m.hdr.seq, t3) →
    s.dev.activePort = some p → s.dev.tim.ports[p].paired = true →
    let x := s.dev.tim.ports[p]
    let mean : Rat := (((x.t2 - t3) + (s.dev.msgNs m.time - x.t1) - m.corr : Int) : Rat) / 2
    let path := s.dev.tim.path + (mean - s.dev.tim.path) / 16
    ∃ d', exec (.delayResp p m) s = .next { s with dev := d' } ∧
    d' = { s.dev with
      regs := d'.regs
      tim := { s.dev.tim with path := path, ports := s.dev.tim.ports.set p { x with dreq := none } } } ∧
    d'.get timeB R.TIME_PATH = satWord path ∧ s.dev.regsKept d' fun a => a = radr timeB R.TIME_PATH) ∧
  (∀ (s : State) (p : Fin 2) (m : AnnMsg), s.dev.dead = false → s.dev.portOn p = true →
    (s.dev.portState p = 1 ∨ s.dev.portState p = 3) → s.dev.inDomain m.hdr = true → ∃ d',
    exec (.announce p m) s = .next { s with dev := d' } ∧ d' = { s.dev with regs := d'.regs } ∧
    d'.getF timeB R.TIME_UTC_OFS 15 0 = m.utcOfs.toNat ∧ d'.getB timeB R.TIME_UTC_OFS 16 = m.utcValid ∧
    d'.get timeB R.TIME_GM_ID0 = m.gm0 ∧ d'.get timeB R.TIME_GM_ID1 = m.gm1 ∧
    s.dev.regsKept d' fun a => a = radr timeB R.TIME_UTC_OFS ∨ a = radr timeB R.TIME_GM_ID0 ∨ a = radr timeB R.TIME_GM_ID1) ∧
  (∀ (s : State) (p : Fin 2), s.dev.dead = false → s.dev.portOn p = true → ∃ d',
    exec (.ptpDiscard p) s = .next { s with dev := d' } ∧ d' = { s.dev with regs := d'.regs } ∧
    d'.getN timeB R.TIME_PORT_DROP p.val = min 0xFFFFFFFF (s.dev.getN timeB R.TIME_PORT_DROP p.val + 1) ∧
    s.dev.regsKept d' fun a => a = radr timeB R.TIME_PORT_DROP p.val) ∧
  ∀ s : State, s.dev.takes timeB 0x124 →
    if s.dev.getB timeB R.TIME_STAT 0 = true ∨ s.dev.tim.openTill = some s.dev.now then ∃ d',
      exec .set s = .next { s with dev := d' } ∧
      d' = { s.dev with
        regs := d'.regs
        tim := { s.dev.tim with
          clock := ((s.dev.getN timeB R.TIME_SET_SEC_LO + s.dev.getN timeB R.TIME_SET_SEC_HI * 2 ^ 32) * 1000000000 +
            s.dev.getN timeB R.TIME_SET_NS) * 2 ^ 32
          openTill := none } } ∧
      d'.getB timeB R.TIME_STAT 0 = false ∧ s.dev.regsKept d' fun a => a = radr timeB R.TIME_STAT
    else exec .set s = .next s) ∧
  ((∀ (s : State) (p : Fin 2), s.dev.dead = false → s.dev.portOn p = true →
    let x := s.dev.tim.ports[p]
    let dom := s.dev.getF timeB R.TIME_DOMAIN 7 0
    let udp := if s.dev.getB timeB R.TIME_PORT_CFG 0 p.val then some (s.dev.get timeB R.TIME_PORT_IPV4 p.val) else none
    (s.dev.portState p = 2 → (∀ t, x.tAt = some t → s.dev.logOver 1 (s.dev.getF timeB R.TIME_DOMAIN 15 8) t = true) →
      exec (.syncTransmit p) s = .next { s with
        dev := { s.dev with
          tim := { s.dev.tim with
            sent := some ⟨p, 0, x.tseq, s.dev.txNs p, dom, udp, 0, 0⟩
            ports := s.dev.tim.ports.set p { x with tseq := (x.tseq + 1) % 65536, tAt := some s.dev.now } } } }) ∧
    (s.dev.portState p = 2 → (∀ t, x.aAt = some t → s.dev.logOver 1 (s.dev.getF timeB R.TIME_DOMAIN 23 16) t = true) →
      exec (.announceTransmit p) s = .next { s with
        dev := { s.dev with
          tim := { s.dev.tim with
            sent := some ⟨p, 0xB, x.aseq, s.dev.txNs p, dom, udp, s.dev.get timeB R.TIME_CLOCK_Q, s.dev.get timeB R.TIME_PRIO⟩
            ports := s.dev.tim.ports.set p { x with aseq := (x.aseq + 1) % 65536, aAt := some s.dev.now } } } }) ∧
    (s.dev.portState p = 1 →
      (∀ t, x.dAt = some t → s.dev.logOver 1 (s.dev.getF timeB R.TIME_PORT_CFG 15 8 p.val) t = true) →
      exec (.delayReqTransmit p) s = .next { s with
        dev := { s.dev with
          tim := { s.dev.tim with
            sent := some ⟨p, 1, x.dseq, s.dev.txNs p, dom, udp, 0, 0⟩
            ports := s.dev.tim.ports.set p { x with
              dreq := some (BitVec.ofNat 16 x.dseq, s.dev.txNs p), dseq := (x.dseq + 1) % 65536
              dAt := some s.dev.now } } } })) ∧
  ∀ (s : State) (p : Fin 2), s.dev.dead = false → s.dev.portOn p = true → s.dev.portState p = 1 →
    s.dev.portLate p = false → s.dev.announceOver s.dev.tim.ports[p].syncAt = true → ∃ d',
    exec (.syncTimeout p) s = .next { s with dev := d' } ∧
    d' = { s.dev with regs := d'.regs, vecs := d'.vecs, fabric := d'.fabric } ∧ d'.portLate p = true ∧
    (s.dev.activePort = some p → d'.getB timeB R.TIME_STAT 1 = false) ∧
    if s.dev.portState (p + 1) = 1 ∧ s.dev.portLate (p + 1) = false then
      s.dev.activePort = some p → d'.getF timeB R.TIME_STAT 3 3 = (p + 1).val
    else d'.getB timeB R.TIME_STAT 2 = true ∧ d'.getB timeB R.TIME_EVT 1 = true ∧ d'.getB timeB R.FLT_STAT 0 = true)

/-- R399 to R402: a trigger that is enabled takes its programmed time and the ball it wants, unless another holds the ball; it
fires when the clock reaches its time: a ball goes high for WIDTH, an operation starts, unless a skein is staged or running;
then it waits a PERIOD or is disabled.

R403: a write of EN 0 disables it; a firing of that cycle still takes effect. -/
def Obligations.TriggersArmAndFire : Prop :=
  (∀ (s : State) (t : Fin 8) (v : Word), s.dev.takes timeB (0x200 + 0x20 * t.val) →
    let w := R.TIME_TRIG_CTL.write (s.dev.get timeB R.TIME_TRIG_CTL t.val) v
    let wants : Prop := bit w 7 = true ∧ fld w 2 1 = 0
    bit w 0 = true → s.dev.getB timeB R.TIME_TRIG_CTL 0 t.val = false →
    (wants → ∀ c, s.dev.holder timeB (fld w 6 5) = some c → c.by_ = timeB ∧ c.sub = t.val) → ∃ d',
    exec (.triggerArm t v) s = .next { s with dev := d' } ∧
    d' = { s.dev with regs := d'.regs, tim := d'.tim, claims := d'.claims } ∧
    d'.get timeB R.TIME_TRIG_CTL t.val = w ∧ d'.get timeB R.TIME_TRIG_CNT t.val = 0 ∧
    d'.tim.trig[t] = ⟨s.dev.trigTime t, decide (s.dev.trigTime t ≤ s.dev.tim.ns)⟩ ∧
    (wants → d'.holds timeB (fld w 6 5) timeB t.val = true) ∧
    (∀ u : Fin 8, u ≠ t → d'.tim.trig[u] = s.dev.tim.trig[u]) ∧
    s.dev.regsKept d' fun a => a = radr timeB R.TIME_TRIG_CTL t.val ∨ a = radr timeB R.TIME_TRIG_CNT t.val) ∧
  (∀ (s : State) (t : Fin 8) (v : Word) (c : Claim), s.dev.takes timeB (0x200 + 0x20 * t.val) →
    let w := R.TIME_TRIG_CTL.write (s.dev.get timeB R.TIME_TRIG_CTL t.val) v
    bit w 0 = true → bit w 7 = true → fld w 2 1 = 0 → s.dev.holder timeB (fld w 6 5) = some c →
    ¬ (c.by_ = timeB ∧ c.sub = t.val) → ∃ d',
    exec (.triggerArm t v) s = .next { s with dev := d' } ∧ d' = { s.dev with regs := d'.regs } ∧
    d'.getB timeB R.TIME_TRIG_CTL 0 t.val = false ∧
    d'.get timeB R.TIME_CLAIM_ERR = claimWord 1 c.by_ (fld w 6 5) ∧
    s.dev.regsKept d' fun a => a = radr timeB R.TIME_TRIG_CTL t.val ∨ a = radr timeB R.TIME_CLAIM_ERR) ∧
  (∀ (s : State) (t : Fin 8), s.dev.dead = false → s.dev.up timeB = true →
    s.dev.getB timeB R.TIME_TRIG_CTL 0 t.val = true → s.dev.tim.trig[t].next ≤ s.dev.tim.ns →
    s.dev.getF timeB R.TIME_TRIG_CTL 2 1 t.val = 0 →
    let i := Fin.ofNat 4 (s.dev.getF timeB R.TIME_TRIG_CTL 6 5 t.val)
    ∃ d', exec (.triggerFire t) s = .next { s with dev := d' } ∧
    d' = { s.dev with regs := d'.regs, vecs := d'.vecs, tim := d'.tim } ∧
    d'.getF timeB R.TIME_TRIG_CNT 15 0 t.val = min 65535 (s.dev.getF timeB R.TIME_TRIG_CNT 15 0 t.val + 1) ∧
    (s.dev.holds timeB i.val timeB t.val = true →
      d'.tim.marks[i] = ⟨true, s.dev.now, s.dev.getN timeB R.TIME_TRIG_WIDTH t.val⟩) ∧
    if s.dev.getB timeB R.TIME_TRIG_CTL 3 t.val then
      d'.tim.trig[t].next = s.dev.tim.trig[t].next + s.dev.getN timeB R.TIME_TRIG_PERIOD t.val
    else d'.getB timeB R.TIME_TRIG_CTL 0 t.val = false) ∧
  (∀ (s : State) (t : Fin 8) (bt : BT) (n : Nat), s.dev.dead = false → s.dev.up timeB = true →
    s.dev.getB timeB R.TIME_TRIG_CTL 0 t.val = true → s.dev.tim.trig[t].next ≤ s.dev.tim.ns →
    s.dev.getF timeB R.TIME_TRIG_CTL 2 1 t.val = 2 →
    let w := s.dev.get timeB R.TIME_TRIG_TARGET t.val
    let b : Blk := ⟨Fin.ofNat 16 (fld w 3 0), Fin.ofNat 64 (fld w 9 4)⟩
    let cmd := s.dev.get timeB R.TIME_TRIG_OPCMD t.val
    blkKind b = some (bt, n) → fld cmd 31 28 = 1 → fld cmd 15 8 ∈ opCodes bt → s.dev.opState b = 0 →
    if s.dev.staged.isSome ∨ s.dev.running.isSome then ∃ d',
      exec (.triggerFire t) s = .next { s with dev := d' } ∧ d' = { s.dev with regs := d'.regs, tim := d'.tim } ∧
      d'.getF timeB R.TIME_TRIG_CNT 31 24 t.val = min 255 (s.dev.getF timeB R.TIME_TRIG_CNT 31 24 t.val + 1)
    else ∃ d', exec (.triggerFire t) s = .next { s with dev := d' } ∧
      d'.get b R.OP_STAT = opWord 1 0 0 (fld cmd 7 0) ∧
      d'.ops = s.dev.ops ++ [⟨b, fld cmd 15 8, fld cmd 27 16, none, none, none⟩]) ∧
  (∀ (s : State) (t : Fin 8) (v : Word), s.dev.takes timeB (0x200 + 0x20 * t.val) → bit v 0 = false →
    (Instr.triggerFire t ∉ s.pending → ∃ d', exec (.triggerArm t v) s = .next { s with dev := d' } ∧
      d' = { s.dev with regs := d'.regs, tim := d'.tim, claims := d'.claims } ∧ d'.getB timeB R.TIME_TRIG_CTL 0 t.val = false ∧
      d'.tim.trig = s.dev.tim.trig ∧ s.dev.regsKept d' fun a => a = radr timeB R.TIME_TRIG_CTL t.val) ∧
    (Instr.triggerFire t ∈ s.pending → exec (.triggerArm t v) s = .next { s with
      mem := (trigFire s.mem s.dev t).1
      dev := (trigFire s.mem s.dev t).2.hostWrite timeB (0x200 + 0x20 * t.val) fun e => e.trigCtl t v })) ∧
  ∀ (s : State) (i : Fin 4), s.dev.dead = false → s.dev.tim.marks[i].level = true →
    s.dev.pastNs s.dev.tim.marks[i].since s.dev.tim.marks[i].width = true →
    exec (.tmarkPulseEnd i) s = .next { s with
      dev := { s.dev with
        tim := { s.dev.tim with
          marks := s.dev.tim.marks.set i { s.dev.tim.marks[i] with level := false } } } }

/-! Faults and self-test (15). -/

/-- R408, R413 to R419, R421: a message that the collector takes from its inbox, one a cycle, enters the queue with its time, and a reaction 2
that it brings fences its block; POP drops the oldest entry; a cleared cell leaves the list; a region is in storm for the
millisecond after one in which it offered FLTC_STORM messages. -/
def Obligations.MessagesAreCollected : Prop :=
  (∀ (s : State) (x : Msg) (m : BitVec 64), s.dev.dead = false → s.dev.inReset fltc = false → s.dev.flt.took = false →
    s.dev.inbox fltc (fun b => match b with
      | .fault _ => true
      | _ => false) = some x → x.body = .fault m →
    (∀ h ∈ s.dev.flt.handling, s.dev.now < h.2 + 8 → msgSrc h.1 ≠ msgSrc m) → s.dev.flt.queue.length < 1022 →
    (s.dev.reacts m = false → ∃ d',
      exec .faultMessage s = .next { s with dev := d' } ∧
      d' = { s.dev with
        regs := d'.regs, vecs := d'.vecs, fabric := s.dev.fabric.erase x
        flt := { s.dev.flt with queue := d'.flt.queue, handling := d'.flt.handling, took := true } } ∧
      d'.flt.queue = s.dev.flt.queue ++ [s.dev.entryOf m] ∧
      d'.getF fltc R.FLTC_STAT 10 0 = s.dev.flt.queue.length + 1 ∧
      d'.getN fltc R.FLTC_MSGS = min 0xFFFFFFFF (s.dev.getN fltc R.FLTC_MSGS + 1) ∧
      (s.dev.flt.queue = [] → d'.vPend 1 = true)) ∧
    (s.dev.reacts m = true → s.dev.getF (msgBlk m) R.FLT_REACT 2 0 = 2 → neverFenced (msgBlk m) = false → ∃ t,
      exec .faultMessage s = .next t ∧ t.dev.fenced (msgBlk m) = true)) ∧
  (∀ s : State, s.dev.flt.took = true → exec .faultMessage s = .next s) ∧
  (∀ (s : State) (v : Word), s.dev.takes fltc 0x10C →
    if bit v 0 then ∃ d',
      exec (.fltcPop v) s = .next { s with dev := d' } ∧
      d' = { s.dev with regs := d'.regs, flt := { s.dev.flt with queue := s.dev.flt.queue.drop 1 } } ∧
      (s.dev.flt.queue.length ≤ 1023 → d'.getF fltc R.FLTC_STAT 10 0 = s.dev.flt.queue.length - 1) ∧
      s.dev.regsKept d' fun a => a = radr fltc R.FLTC_STAT
    else exec (.fltcPop v) s = .next s) ∧
  (∀ (s : State) (v : Word), s.dev.takes fltc 0x180 →
    let b : Blk := ⟨Fin.ofNat 16 (fld v 3 0), Fin.ofNat 64 (fld v 9 4)⟩
    let c := fld v 15 10
    if s.dev.cellFenced b c then ∃ d',
      exec (.fltcCfClr v) s = .next { s with dev := d' } ∧ d'.cellFenced b c = false ∧
      ∀ i, spindleOf b c = some i → isHead i = true → s.dev.fenced b = false → d'.cells[i].st = 0
    else exec (.fltcCfClr v) s = .next s) ∧
  ∀ (s : State) (r : Fin 16), s.dev.dead = false → r ∈ regions → s.dev.flt.storm[r].ms < s.dev.tick / 1000 →
    let x := s.dev.flt.storm[r]
    let n := s.dev.getF fltc R.FLTC_STORM 15 0
    ∃ d', exec (.stormMillisecond r) s = .next { s with dev := d' } ∧
    d' = { s.dev with
      regs := d'.regs, vecs := d'.vecs, fabric := d'.fabric
      flt := { s.dev.flt with storm := s.dev.flt.storm.set r ⟨0, [], s.dev.tick / 1000⟩ } } ∧
    d'.getB fltc R.FLTC_STORM_STAT r.val =
      (s.dev.getB fltc R.FLTC_CTL 1 && decide (n ≤ x.offered ∧ x.ms + 1 = s.dev.tick / 1000)) ∧
    (d'.getB fltc R.FLTC_STORM_STAT r.val = true → s.dev.getB fltc R.FLTC_STORM_STAT r.val = false →
      d'.getB fltc R.FLT_STAT 2 = true)

/-- R427, R428, R439: a force bit that goes to 1 sets its kind in FLT_STAT; CFORCE is held in BIST_CTL.

R430 to R432: ALIVE changes its level every 500 us while it toggles; a restart is taken only with no critical line high and
no expiry latched; a kick in time starts a new period; an expiry is latched, raises kind 1 and stops ALIVE. -/
def Obligations.ForcedKindsAliveAndWatchdog : Prop :=
  (∀ (s : State) (b : Blk) (t : BT) (n : Nat) (v real : Word), blkKind b = some (t, n) →
    (s.dev.takes b 0x014 → ∃ d',
      exec (.faultForce b false v real) s = .next { s with dev := d' } ∧
      d' = { s.dev with regs := d'.regs, vecs := d'.vecs, fabric := d'.fabric } ∧ d'.get b R.FLT_FORCE = v &&& t.kinds ∧
      ∀ k < 32, bit (v &&& t.kinds) k = true → s.dev.getB b R.FLT_FORCE k = false → d'.getB b R.FLT_STAT k = true) ∧
    (s.dev.takes b 0x040 → ∃ d',
      exec (.faultForce b true v real) s = .next { s with dev := d' } ∧
      d' = { s.dev with regs := d'.regs, vecs := d'.vecs, fabric := d'.fabric } ∧
      d'.getF b R.BIST_CTL 26 24 = fld v 26 24 ∧ d'.get b R.FLT_STAT = s.dev.get b R.FLT_STAT)) ∧
  ((∀ s : State, s.dev.dead = false → s.dev.getB fltc R.FLTC_STAT 16 = true → s.dev.past s.dev.aliveAt 500 = true →
    exec .aliveToggle s = .next { s with dev := { s.dev with alive := !s.dev.alive, aliveAt := s.dev.now } }) ∧
  (∀ s : State, s.dev.takes fltc 0x120 →
    if s.dev.critAny = false ∧ s.dev.getB fltc R.FLTC_STAT 19 = false ∧ s.dev.ready = true then ∃ d',
      exec .restart s = .next { s with dev := d' } ∧ d' = { s.dev with regs := d'.regs, aliveAt := s.dev.now } ∧
      d'.getB fltc R.FLTC_STAT 16 = true ∧ s.dev.regsKept d' fun a => a = radr fltc R.FLTC_STAT
    else exec .restart s = .next s) ∧
  (∀ (s : State) (v : Word), s.dev.takes fltc 0x128 →
    exec (.fltcWdogKick v) s =
      if s.dev.wdogOver = false ∧ s.dev.getF fltc R.FLTC_WDOG 15 0 ≠ 0 ∧ s.dev.flt.wdogFrom.isSome = true then
        .next { s with dev := { s.dev with flt := { s.dev.flt with wdogFrom := some s.dev.now } } }
      else .next s) ∧
  ∀ s : State, s.dev.dead = false → s.dev.wdogOver = true → s.dev.inReset fltc = false → ∃ d',
    exec .wdogExpired s = .next { s with dev := d' } ∧
    d' = { s.dev with
      regs := d'.regs, vecs := d'.vecs, fabric := d'.fabric, flt := { s.dev.flt with wdogFrom := none } } ∧
    d'.getB fltc R.FLTC_STAT 19 = true ∧ d'.getB fltc R.FLTC_STAT 16 = false ∧ d'.getB fltc R.FLT_STAT 1 = true)

/-- R433 to R438: a region's scheduler tests an idle unit of a block that permits slices, or none where none is idle; a slice
that ends frees its unit; one that fails for good is latched and counted, one that passes is counted at the block's own logic. -/
def Obligations.SlicesTestIdleUnits : Prop :=
  (∀ (s : State) (r : Fin 16), s.dev.dead = false → s.dev.ready = true → s.dev.getB fltc R.FLTC_BIST_CTL 0 = true →
    s.dev.flt.slices[r].unit = none → s.dev.flt.slices[r].since + s.dev.sliceGap ≤ s.dev.now → ∃ d',
    exec (.sliceStart r) s = .next { s with dev := d' } ∧
    d' = { s.dev with
      regs := d'.regs
      flt := { s.dev.flt with
        slices := s.dev.flt.slices.set r { s.dev.flt.slices[r] with
          unit := d'.flt.slices[r].unit, since := s.dev.now, turn := d'.flt.slices[r].turn } } } ∧
    match d'.flt.slices[r].unit with
    | some u => u ∈ s.dev.sliceUnits r ∧ s.dev.unitIdle ⟨r, Fin.ofNat 64 u.1⟩ u.2 = true ∧
      d'.getB ⟨r, Fin.ofNat 64 u.1⟩ R.BLK_STAT 2 = true ∧ d'.getF ⟨r, Fin.ofNat 64 u.1⟩ R.BIST_STAT 1 0 = 1
    | none => d'.regs = s.dev.regs ∧ ∀ u ∈ s.dev.sliceUnits r, s.dev.unitIdle ⟨r, Fin.ofNat 64 u.1⟩ u.2 = false) ∧
  (∀ (s : State) (r : Fin 16) (u : Nat × Option Nat), s.dev.dead = false → s.dev.flt.slices[r].unit = some u →
    let b : Blk := ⟨r, Fin.ofNat 64 u.1⟩
    (∃ d', exec (.sliceDone r .pass) s = .next { s with dev := d' } ∧
      d' = { s.dev with
        regs := d'.regs
        flt := { s.dev.flt with
          slices := s.dev.flt.slices.set r { s.dev.flt.slices[r] with
            unit := none, cut := none, fails := setAbandons s.dev.flt.slices[r].fails u 0 } } } ∧
      d'.getB b R.BLK_STAT 2 = false ∧ d'.getF b R.BIST_STAT 1 0 = 0 ∧
      (u.2 = none → d'.getF b R.BIST_STAT 31 20 = min 4095 (s.dev.getF b R.BIST_STAT 31 20 + 1))) ∧
    ∀ (w : BitVec 16) (k : BitVec 7) (mem : Bool), ∃ d',
      exec (.sliceDone r (.fail w k mem false)) s = .next { s with dev := d' } ∧ d'.flt.slices[r].unit = none ∧
      d'.getB b R.BLK_STAT 2 = false ∧ d'.getB b R.BIST_STAT 3 = true ∧
      d'.getN fltc R.FLTC_BIST_FAILS = min 0xFFFFFFFF (s.dev.getN fltc R.FLTC_BIST_FAILS + 1))

/-! Temperature (16). -/

/-- R445 to R447, R450: THERM_STAT.LEVEL is the highest sensor level once every sample of a cycle is taken; a valid reading below a sensor's
thresholds is shown and leaves level 0; the eighth in a row at the shutdown threshold stops the device: STAGE 9, SDWN_N low, every
laser gate low and spindle disabled, the record kept by AON; a second invalid sample in a row makes the sensor BROKEN.

R451, R452, R459: the kept record is journaled, and the latest where it differs; CLEAR drops AON_STAT.REC; a new VSTBY returns
every register of AON to its reset value. -/
def Obligations.SamplesSetTheLevelAndRecordsAreKept : Prop :=
  ((∀ (s : State) (k : Fin 64) (x : SnsSample), s.dev.dead = false → s.dev.unitStatus therm (some k.val) = 0 →
    sampleWaits s.pending = false → ∃ d',
    exec (.sensorSample k x) s = .next { s with dev := d' } ∧ d'.getF therm R.THERM_STAT 6 4 = d'.levelNow) ∧
  (∀ (s : State) (k : Fin 64) (x : SnsSample), s.dev.dead = false → s.dev.unitStatus therm (some k.val) = 0 →
    snsCause x = 0 → s.dev.ready = true → s.dev.snsSt k.val = 0 →
    (∀ l, l = 1 ∨ l = 2 ∨ l = 3 → x.reading < s.dev.snsThr k.val l) →
    (∀ j : Fin 64, s.dev.snsSt j.val ≠ 3 ∧ s.dev.regionBroken (snsRegion j.val) = false) → ∃ d',
    exec (.sensorSample k x) s = .next { s with dev := d' } ∧ d'.shut = false ∧
    d'.getF therm R.THERM_SNS 11 0 k.val = uns 12 x.reading ∧ d'.snsSt k.val = 0 ∧
    d'.thm.sns[k].bad = 0 ∧ (∀ l : Fin 3, d'.thm.sns[k].above[l] = 0)) ∧
  (∀ (s : State) (k : Fin 64) (x : SnsSample), s.dev.dead = false → s.dev.unitStatus therm (some k.val) = 0 →
    snsCause x = 0 → s.dev.snsSt k.val < 3 → s.dev.snsThr k.val 3 ≤ x.reading →
    7 ≤ s.dev.thm.sns[k].above[(2 : Fin 3)] → sampleWaits s.pending = false → ∃ d',
    exec (.sensorSample k x) s = .next { s with dev := d' } ∧ d'.shut = true ∧ d'.sdwnN = false ∧
    d'.getB fltc R.FLTC_STAT 16 = false ∧ d'.getB aon R.AON_STAT 0 = true ∧
    d'.getN aon R.AON_SD_CNT = min 0xFFFFFFFF (s.dev.getN aon R.AON_SD_CNT + 1) ∧
    (∀ h : Fin 32, d'.heads[h].trv.gate = false) ∧ ∀ i : Fin 256, d'.cells[i].en = false) ∧
  ∀ (s : State) (k : Fin 64) (x : SnsSample), s.dev.dead = false → s.dev.unitStatus therm (some k.val) = 0 →
    snsCause x ≠ 0 → s.dev.snsSt k.val ≠ 4 → 1 ≤ s.dev.thm.sns[k].bad → ∃ d',
    exec (.sensorSample k x) s = .next { s with dev := d' } ∧ d'.snsSt k.val = 4 ∧
    d'.getF therm R.THERM_SNS 17 16 k.val = snsCause x ∧ d'.getB therm R.THERM_EVT 5 = true ∧
    d'.getB therm R.FLT_STAT 0 = true) ∧
  ((∀ s : State, s.dev.dead = false → s.dev.up therm = true → s.dev.getB aon R.AON_STAT 0 = true → 5 ≤ s.dev.stage →
    s.dev.jUsable = true → s.dev.jWindow = true → (∀ t ∈ s.dev.jrn.queue, t.from_ ≠ .shutdown) →
    (s.dev.jrn.queue.map JTx.size).sum ≤ 65408 →
    let rec_ (r : Reg) : List Word := (List.range 4).map fun i => s.dev.get aon r i
    let tx (ws : List Word) : JTx := ⟨[(7, 0, wordsBytes ws)], .shutdown⟩
    ∃ d', exec .shutdownRecordAppend s = .next { s with dev := d' } ∧
    d' = { s.dev with
      regs := d'.regs
      jrn := { s.dev.jrn with
        queue := s.dev.jrn.queue ++ [tx (rec_ R.AON_SD)] ++
          (if rec_ R.AON_SD = rec_ R.AON_SDL then [] else [tx (rec_ R.AON_SDL)]) } } ∧
    s.dev.regsKept d' (onPage jrnl)) ∧
  (∀ s : State, s.dev.takes aon 0x104 → ∃ d',
    exec .clear s = .next { s with dev := d' } ∧ d' = { s.dev with regs := d'.regs } ∧
    d'.getB aon R.AON_STAT 0 = false ∧ s.dev.regsKept d' fun a => a = radr aon R.AON_STAT) ∧
  ∀ s : State, ∃ d', exec .vstbyApply s = .next { s with dev := d' } ∧
    d' = { s.dev with
      regs := d'.regs, live := d'.live, prior := d'.prior, snap := d'.snap, boot := { s.dev.boot with vstby := true } } ∧
    (∀ a, onPage aon a → spGet d'.regs a = none) ∧ s.dev.regsKept d' (onPage aon))

/-- R448, R449: at the end of the grace, and on a change to mode A during it, J becomes 7; at level 2 J falls by 1 a step down to
its floor, below level 2 it rises by 1 a step up to 8, where mode A ends; the lattice follows J. Where samples of the same cycle bring the level
down, that comes before the end of the grace and a step down.

R455: the first request is granted while fewer than THERM_ADMIT.COUNT grants lie within the last 10 µs, and the head's
first entry that waits for admission may fire. -/
def Obligations.ThrottlingAndAdmission : Prop :=
  (let moved (d d' : Dev) (j : Nat) (a : Bool) : Prop :=
    d'.thm = { d.thm with grace := d'.thm.grace, modeA := a, jAt := d.now } ∧ d'.getF therm R.THERM_STAT 3 0 = j ∧
    d'.getF latB R.LAT_STAT 11 8 = j ∧ d'.getB latB R.LAT_STAT 2 = decide (j < 8)
  (∀ (s : State) (t : Nat), s.dev.dead = false → s.dev.thm.grace = some t → s.dev.up therm = true →
    s.dev.getF therm R.THERM_STAT 6 4 = 2 → s.dev.past t (1000 * s.dev.getF therm R.THERM_GRACE 15 0) = true →
    2 ≤ s.dev.levelSoon s.pending → ∃ d',
    exec .graceEnd s = .next { s with dev := d' } ∧
    d' = { s.dev with regs := d'.regs, vecs := d'.vecs, thm := d'.thm } ∧ moved s.dev d' 7 true ∧ d'.thm.grace = none ∧
    d'.getB therm R.THERM_STAT 7 = false ∧ d'.getB therm R.THERM_EVT 4 = true) ∧
  (∀ s : State, s.dev.levelSoon s.pending < 2 → exec .graceEnd s = .next s) ∧
  (∀ s : State, s.dev.dead = false → s.dev.up therm = true → s.dev.thm.modeA = true →
    let j := s.dev.getF therm R.THERM_STAT 3 0
    let step := 1000 * s.dev.getF therm R.THERM_STEP 15 0
    (s.dev.getF therm R.THERM_STAT 6 4 = 2 → s.dev.past s.dev.thm.jAt step = true → 2 ≤ s.dev.levelSoon s.pending →
      s.dev.getF therm R.THERM_CTL 11 8 < j → ∃ d',
      exec .throttleStep s = .next { s with dev := d' } ∧ d' = { s.dev with regs := d'.regs, thm := d'.thm } ∧
      moved s.dev d' (j - 1) true ∧ d'.thm.grace = s.dev.thm.grace) ∧
    (s.dev.getF therm R.THERM_STAT 6 4 < 2 → j < 8 → s.dev.past (max s.dev.thm.jAt s.dev.thm.fellAt) step = true → ∃ d',
      exec .throttleStep s = .next { s with dev := d' } ∧ d' = { s.dev with regs := d'.regs, thm := d'.thm } ∧
      moved s.dev d' (j + 1) (decide (j + 1 < 8)) ∧ d'.thm.grace = s.dev.thm.grace)) ∧
  ∀ (s : State) (v : Word), s.dev.takes therm 0x100 → ∃ d',
    exec (.thermMode v) s = .next { s with dev := d' } ∧ d' = { s.dev with regs := d'.regs, thm := d'.thm } ∧
    d'.get therm R.THERM_CTL = R.THERM_CTL.write (s.dev.get therm R.THERM_CTL) v ∧
    if s.dev.getB therm R.THERM_CTL 0 = true ∧ bit v 0 = false ∧ s.dev.thm.grace.isSome = true then
      moved s.dev d' 7 true ∧ d'.thm.grace = none
    else d'.thm = s.dev.thm ∧ s.dev.regsKept d' fun a => a = radr therm R.THERM_CTL) ∧
  (∀ (s : State) (t n : Nat) (rest : List (Nat × Nat)), s.dev.dead = false → s.dev.thm.waiting = (t, n) :: rest → n < 32 →
    (s.dev.thm.grants.filter fun g => s.dev.now < g + 8000).length < s.dev.getF therm R.THERM_ADMIT 5 0 → ∃ d',
    exec .admissionGrant s = .next { s with dev := d' } ∧
    d' = { s.dev with regs := d'.regs, heads := d'.heads, thm := { s.dev.thm with
      waiting := rest, grants := (s.dev.thm.grants.filter fun g => s.dev.now < g + 8000) ++ [s.dev.now] } } ∧
    d'.heads[Fin.ofNat 32 n].drf.admAsk = false ∧
    (∀ e, (s.dev.heads[Fin.ofNat 32 n].trv.sched.find? fun e => e.barred) = some e →
      ∃ y ∈ d'.heads[Fin.ofNat 32 n].trv.sched, y.num = e.num ∧ y.ok = true) ∧
    (t < s.dev.now → d'.getN therm R.THERM_ADM_WAITS = min 0xFFFFFFFF (s.dev.getN therm R.THERM_ADM_WAITS + 1)) ∧
    (∀ g : Fin 32, g.val ≠ n → d'.heads[g] = s.dev.heads[g]) ∧
    s.dev.regsKept d' fun a => a = radr therm R.THERM_ADM_WAITS ∨ a = radr therm R.THERM_ADM_MAXUS)

/-! Calibration and the journal (17). -/

/-- R464, R465, R471: tracking arms the switch; with the gate low and 40 quiet slots ahead the channel switches, or is lost where
the group has no spare; 10 ns later the spare cell serves the channel and the old pair is trimmed; an armed hand-over that
finds no gap ends, and the run with it.

R460, R466 to R468: a trim within the limits, of a reference in range, stores its words and frees its pair as the spare; any
other keeps the words, is counted and raises kind 0; a run whose cells are all trimmed ends and takes the temperature. -/
def Obligations.CalibrationMovesAndTrims : Prop :=
  ((∀ (s : State) (k : Fin 8) (h : Ho), s.dev.dead = false → s.dev.bch[k].ho = some h → h.armed = none →
    s.dev.pastNs h.since (s.dev.getF (bchB k) R.BCHG_TRACK 15 0) = true → ∃ d',
    exec (.trackingDone k) s = .next { s with dev := d' } ∧
    d' = { s.dev with
      regs := d'.regs
      bch := s.dev.bch.set k { s.dev.bch[k] with ho := some { h with armed := some s.dev.now } } } ∧
    d'.getB (bchB k) R.BCHG_STAT 8 = true ∧ s.dev.regsKept d' fun a => a = radr (bchB k) R.BCHG_STAT) ∧
  (∀ (s : State) (k : Fin 8) (h : Ho) (a : Nat) (v : BitVec 16), s.dev.dead = false → s.dev.bch[k].ho = some h →
    h.armed = some a → h.done = none →
    let t := s.dev.heads[chanHead k h.ch].trv
    t.gate = false →
    (h.spare = 7 → ∃ d', exec (.handOverSwitch k v) s = .next { s with dev := d' } ∧ d'.bch[k].lost[h.ch] = true ∧
      d'.getB (bchB k) R.BCHG_EVT 4 = true ∧ d'.getB (bchB k) R.FLT_STAT 3 = true) ∧
    (h.spare ≠ 7 → t.quiet (s.dev.liv (blk .headctl (chanHead k h.ch).val) R.TRV_DAC_SKEW).toInt s.dev.slot = true → ∃ d',
      exec (.handOverSwitch k v) s = .next { s with dev := d' } ∧
      d' = { s.dev with
        regs := d'.regs
        bch := s.dev.bch.set k { s.dev.bch[k] with ho := some { h with done := some s.dev.now } } } ∧
      d'.getB (bchB k) R.BCHG_STAT 8 = false ∧ d'.get (bchB k) R.BCH_MON h.ch.val = wd v.toNat)) ∧
  (∀ (s : State) (k : Fin 8) (h : Ho) (t : Nat), s.dev.dead = false → s.dev.bch[k].ho = some h → h.done = some t →
    h.spare < 8 → s.dev.pastNs t 10 = true → ∃ d',
    exec (.handOverDisconnect k) s = .next { s with dev := d' } ∧ d'.bchCell k h.ch = h.spare ∧
    d'.getN (bchB k) R.BCHG_HOCNT = min 0xFFFFFFFF (s.dev.getN (bchB k) R.BCHG_HOCNT + 1) ∧ d'.bchSpare k = 7 ∧
    (h.fence = false → d'.bch[k].ho = none ∧ d'.bch[k].trim = some (h.old, s.dev.now) ∧
      d'.getB (bchB k) R.BCHG_STAT 4 = true)) ∧
  ∀ (s : State) (k : Fin 8) (h : Ho) (a : Nat), s.dev.dead = false → s.dev.bch[k].ho = some h → h.armed = some a →
    h.done = none → h.fence = false → s.dev.past a (s.dev.getF (bchB k) R.BCHG_GAPWAIT 15 0 * 1000) = true → ∃ d',
    exec (.calGapwait k) s = .next { s with dev := d' } ∧ d'.bch[k].run = none ∧
    (s.dev.bch[k].wait = [] → d'.bch[k].ho = none) ∧ d'.getB (bchB k) R.BCHG_EVT 2 = true ∧
    d'.getB (bchB k) R.FLT_STAT 1 = true ∧
    (s.dev.bch[k].run.isSome = true → d'.opState (bchB k) = 4 ∧ d'.getF (bchB k) R.OP_STAT 15 8 = 0x82)) ∧
  ((∀ (s : State) (k : Fin 8) (c : Fin 5) (t0 : Nat) (r : TrimResult), s.dev.dead = false →
    s.dev.bch[k].trim = some (c.val, t0) →
    let b := bchB k
    let refOk : Prop := 24500 ≤ r.refin.toNat ∧ r.refin.toNat ≤ 25500
    let good : Prop := refOk ∧ r.residual.toNat ≤ s.dev.getF b R.BCHG_LIMIT 7 0 * 8 ∧
      s.dev.now ≤ t0 + 800 * s.dev.getF b R.BCHG_TIMEOUT 15 0
    ∃ d', exec (.trimDone k r) s = .next { s with dev := d' } ∧ d'.bch[k].trim = none ∧ d'.bch[k].age[c] = s.dev.now ∧
      d'.getN b R.BCHG_REFIN = r.refin.toNat ∧ (d'.getB b R.BCHG_STAT 16 = true ↔ refOk) ∧
      d'.getF b R.BCHG_TRIM_STAT 31 16 c.val = min 65535 (s.dev.getF b R.BCHG_TRIM_STAT 31 16 c.val + 1) ∧
      (good → d'.get b R.BCHG_TRIM_DAC c.val = r.dac &&& 0x03FF03FF#32 ∧
        d'.get b R.BCHG_TRIM_ADC c.val = r.adc &&& 0x03FF03FF#32 ∧
        (s.dev.bchUsable k c.val = true → d'.bchSpare k = c.val)) ∧
      (¬ good → d'.get b R.BCHG_TRIM_DAC c.val = s.dev.get b R.BCHG_TRIM_DAC c.val ∧
        d'.get b R.BCHG_TRIM_ADC c.val = s.dev.get b R.BCHG_TRIM_ADC c.val ∧
        d'.getN b R.BCHG_FAILS = min 0xFFFFFFFF (s.dev.getN b R.BCHG_FAILS + 1) ∧ d'.getB b R.FLT_STAT 0 = true ∧
        (¬ refOk → d'.getB b R.FLT_STAT 4 = true))) ∧
  ∀ (s : State) (k : Fin 8) (n : Nat) (well : List Nat), s.dev.dead = false → s.dev.bch[k].run = some ([], n, well) →
    s.dev.bch[k].ho = none → s.dev.bch[k].trim = none → ∃ d',
    exec (.calRunDone k) s = .next { s with dev := d' } ∧
    d' = { s.dev with
      regs := d'.regs, vecs := d'.vecs, fabric := d'.fabric, ops := d'.ops, jrn := d'.jrn
      bch := s.dev.bch.set k { s.dev.bch[k] with run := none } } ∧
    d'.getN (bchB k) R.BCHG_TLAST = s.dev.bchTemp k ∧
    d'.getN (bchB k) R.BCHG_RUNS = min 0xFFFFFFFF (s.dev.getN (bchB k) R.BCHG_RUNS + 1) ∧
    d'.getB (bchB k) R.BCHG_EVT 0 = true ∧ d'.get (bchB k) R.OP_STAT = opWord 3 4095 0 (s.dev.opTag (bchB k)))

/-- R477 to R482: inside the write window the first transaction is programmed, after a doffing where a torn tail was found or one was asked for; once
verified its records stand in the live area, numbered; a failed program is repeated once, then the area is doffed; a doffing
makes the other area live with the records it keeps; APPEND and READ end, a READ with the area's bytes in SDRAM. -/
def Obligations.TheJournalProgramsAndDoffs : Prop :=
  (∀ s : State, s.dev.dead = false → s.dev.jrn.queue ≠ [] → s.dev.jrn.busy = false → s.dev.jrn.doff = false →
    s.dev.jUsable = true → s.dev.jWindow = true → ∃ d',
    exec .journalProgramStart s = .next { s with dev := d' } ∧
    let first := s.dev.jrn.torn || s.dev.jrn.want
    d' = { s.dev with regs := d'.regs, jrn := { s.dev.jrn with busy := !first, doff := first, want := false } }) ∧
  (∀ (s : State) (t : JTx) (q : List JTx), s.dev.dead = false → s.dev.jrn.busy = true → s.dev.jrn.queue = t :: q →
    let a := s.dev.jrn.areas[s.dev.jLive]
    let p := placeRecs a.fill (t.number s.dev.jrn.seq)
    (∃ d', exec (.journalProgramDone true) s = .next { s with dev := d' } ∧
      d'.jrn.areas = s.dev.jrn.areas.set s.dev.jLive { a with recs := a.recs ++ p.1, fill := p.2 } ∧
      d'.jrn.queue = q ∧ d'.jrn.busy = false ∧ d'.jrn.seq = (s.dev.jrn.seq + t.recs.length + 1) % 2 ^ 32) ∧
    ∃ d', exec (.journalProgramDone false) s = .next { s with dev := d' } ∧ d'.jrn.queue = s.dev.jrn.queue ∧
      d'.getN jrnl R.JRNL_WFAIL = min 0xFFFFFFFF (s.dev.getN jrnl R.JRNL_WFAIL + 1) ∧
      if s.dev.jrn.retry then d'.jrn.busy = false ∧ (s.dev.jWindow = true → d'.jrn.doff = true) ∧
        (s.dev.jWindow = false → s.dev.jrn.doff = false → d'.jrn.want = true) ∧ d'.getB jrnl R.FLT_STAT 0 = true
      else d'.jrn.busy = true ∧ d'.jrn.retry = true ∧
        d'.jrn.areas = s.dev.jrn.areas.set s.dev.jLive { a with fill := a.fill + 16 }) ∧
  (∀ s : State, s.dev.dead = false → s.dev.jrn.doff = true →
    let a := s.dev.jrn.areas[s.dev.jLive]
    let z := s.dev.jLive + 1
    (∃ d', exec (.doffingDone true) s = .next { s with dev := d' } ∧ d'.jLive = z ∧ d'.jrn.doff = false ∧
      d'.jrn.areas[z].valid = true ∧ d'.jrn.areas[z].gen = (a.gen + 1) % 2 ^ 32 ∧
      (∀ r ∈ keptRecs (a.recs.map (·.2)), ∃ x ∈ d'.jrn.areas[z].recs, x.2.type = r.type ∧ x.2.key = r.key ∧ x.2.data = r.data) ∧
      d'.jrn.areas[s.dev.jLive] = a ∧
      d'.getN jrnl R.JRNL_DOFFS = min 0xFFFFFFFF (s.dev.getN jrnl R.JRNL_DOFFS + 1) ∧
      (s.dev.opRunning jrnl 3 = true → d'.get jrnl R.OP_STAT = opWord 3 4095 0 (s.dev.opTag jrnl))) ∧
    ∃ d', exec (.doffingDone false) s = .next { s with dev := d' } ∧
      d'.jrn = { s.dev.jrn with doff := false, ro := s.dev.jrn.ro || s.dev.jrn.failed } ∧
      d'.getB jrnl R.JRNL_STAT 2 = false ∧ (s.dev.jrn.failed = true → d'.getB jrnl R.JRNL_STAT 4 = true)) ∧
  (∀ s : State, s.dev.dead = false → s.dev.opRunning jrnl 1 = true → s.dev.jrn.opDone = true → ∃ d',
    exec .appendDone s = .next { s with dev := d' } ∧
    d' = { s.dev with regs := d'.regs, ops := d'.ops, jrn := { s.dev.jrn with opDone := false } } ∧
    d'.get jrnl R.OP_STAT = opWord 3 4095 0 (s.dev.opTag jrnl) ∧ s.dev.regsKept d' fun a => a = radr jrnl R.OP_STAT) ∧
  ∀ s : State, s.dev.dead = false → s.dev.opRunning jrnl 2 = true → s.dev.getB jrnl R.JRNL_STAT 3 = false →
    let n := min (s.dev.getN jrnl R.JRNL_OP_LEN) (s.dev.jrn.size / 2)
    let a := s.dev.jAddr
    s.dev.sdStatus s.mem a n true = 0 → ∃ m' d',
    exec .readDone s = .next { s with mem := m', dev := d' } ∧ d' = { s.dev with regs := d'.regs, ops := d'.ops } ∧
    (∀ i < n, some (m'.byte (a + i)) = (areaBytes s.dev.jrn.esize s.dev.jrn.areas[s.dev.jLive] n)[i]?) ∧
    (∀ x, x < a ∨ a + n ≤ x → m'.byte x = s.mem.byte x) ∧
    d'.get jrnl R.OP_STAT = opWord 3 4095 0 (s.dev.opTag jrnl) ∧ s.dev.regsKept d' fun x => x = radr jrnl R.OP_STAT

/-! Reset, test and the start sequence (18). -/

/-- R484, R485, R507, R514: a falling reset input, or a supply out of range, resets every unit outside AON and stops every clock:
gates low, spindles disabled, registers at their reset values; the AON registers and the committed journal stay.

R484, R486, R487, R507: the release of the last reset input, and BOOT_RST with its code, begin stage 1 with the cause and, at a
release, TEST_REQ in BOOT_STAT; another value in BOOT_RST has no effect. -/
def Obligations.ResetsStopAndReleasesStart : Prop :=
  (∀ (s : State) (c : Instr) (was : Bool), (c, was) ∈ [(Instr.porstNAssert, s.dev.boot.porst),
      (.chiprstNAssert, s.dev.boot.chiprst), (.supplyLow, s.dev.boot.supply)] → was = true → ∃ d',
    exec c s = .next { s with mem := s.mem.noMigs, dev := d' } ∧ d'.dead = true ∧ d'.fabric = [] ∧ d'.running = none ∧
    (∀ h : Fin 32, d'.heads[h].trv.gate = false) ∧ (∀ i : Fin 256, d'.cells[i].en = false) ∧
    (∀ a, ¬ onPage aon a → spGet d'.regs a = none) ∧
    (s.dev.jrn.busy = false → s.dev.jrn.doff = false → d'.jrn.areas = s.dev.jrn.areas ∧
      ∀ a, onPage aon a → spGet d'.regs a = spGet s.dev.regs a)) ∧
  ((∀ (s : State) (c : Instr) (b : Boot) (chip por test : Bool),
    (c, b, chip, por, test) ∈ [
      (Instr.porstNRelease test, { s.dev.boot with porst := true }, false, true, test),
      (.chiprstNRelease test, { s.dev.boot with chiprst := true }, true, false, test),
      (.supplyRestored, { s.dev.boot with supply := true }, false, true, false)] → b ≠ s.dev.boot →
    if b.porst = true ∧ b.chiprst = true ∧ b.supply = true then ∃ d',
      exec c s = .next { s with dev := d' } ∧
      d' = { s.dev with regs := d'.regs, boot := { b with edge := s.dev.now, stageAt := s.dev.now } } ∧
      d'.stage = 1 ∧ d'.dead = false ∧ d'.getB bootB R.BOOT_STAT 5 = test ∧ d'.getB bootB R.BOOT_STAT 7 = chip ∧
      d'.getB bootB R.BOOT_STAT 8 = por ∧ s.dev.regsKept d' fun a => a = radr bootB R.BOOT_STAT
    else exec c s = .next { s with dev := { s.dev with boot := b } }) ∧
  ∀ (s : State) (v : Word), s.dev.takes bootB 0x104 →
    if v = 0x5A5A3200#32 then ∃ d',
      exec (.bootRst v) s = .next { s with mem := s.mem.noMigs, dev := d' } ∧ d'.stage = 1 ∧ d'.dead = false ∧
      d'.getB bootB R.BOOT_STAT 7 = true ∧ d'.fabric = [] ∧ d'.running = none ∧
      (∀ h : Fin 32, d'.heads[h].trv.gate = false) ∧ ∀ i : Fin 256, d'.cells[i].en = false
    else exec (.bootRst v) s = .next s)

/-- R441, R442, R484: PERST_N low drops the link and the MSI-X table, high records the link that trains; the test access port
shifts out what its instruction selects. -/
def Obligations.EndpointResetAndTestPort : Prop :=
  (∀ (s : State) (l : Option LinkUp), ∃ d',
    exec (.perstN false l) s = .next { s with dev := d' } ∧
    d' = { s.dev with regs := d'.regs, boot := { s.dev.boot with perst := false } } ∧ d'.get hif R.HIF_LINK = 0 ∧
    s.dev.regsKept d' fun a => a = radr hif R.HIF_LINK ∨ (badr hif 0x800 ≤ a ∧ a < badr hif 0xC00)) ∧
  (∀ (s : State) (l : LinkUp), s.dev.dead = false → s.dev.boot.fuseOk = true → ∃ d',
    exec (.perstN true (some l)) s = .next { s with dev := d' } ∧
    d' = { s.dev with regs := d'.regs, boot := { s.dev.boot with perst := true } } ∧
    d'.getF hif R.HIF_LINK 3 0 = l.speed.toNat ∧ d'.getF hif R.HIF_LINK 9 4 = l.width.toNat ∧
    s.dev.regsKept d' fun a => a = radr hif R.HIF_LINK) ∧
  ∀ (s : State) (v : BitVec 32),
    let pins (b : Boot) : Host.Outcome State Fault Refusal := .next { s with dev := { s.dev with boot := b } }
    exec (.tapInstruction .bypass) s = pins { s.dev.boot with extest := none, tap := 0 } ∧
    exec (.tapInstruction .idcode) s = pins { s.dev.boot with
      extest := none, tap := Config.idRevision ++ (0x3200#16 ++ (Config.fuseManufacturer ++ 1#1)) } ∧
    exec (.tapInstruction (.samplePreload v)) s = pins { s.dev.boot with extest := none, tap := s.dev.gates, bsr := v } ∧
    exec (.tapInstruction .extest) s = pins { s.dev.boot with extest := some s.dev.boot.bsr, tap := s.dev.gates } ∧
    (s.dev.boot.debugOn = false → exec (.tapInstruction .scan) s = pins { s.dev.boot with extest := none, tap := 0 })

/-- R441, R487, R489, R490: stage 1 takes the fuses, and stage 2 is skipped without test mode; stage 2 erases the secrets before
scan opens; stage 3 leaves the pool zero; a failure of fuses or of a vital block halts the start.

R364, R476, R487, R491, R493, R495, R496, R499: an empty flash is formatted and none raises kind 3; training sets NR to the
smaller count of ranks in service; a filled rank reads zero and no other byte has changed; once rank 0 is filled and every lane
has settled, or the wait has expired, the device is ready and ALIVE toggles. -/
def Obligations.StagesLeadToHostReady : Prop :=
  ((∀ (s : State) (ok : Bool), s.dev.dead = false → s.dev.stage = 1 → ∃ d',
    exec (.fuseLoadDone ok) s = .next { s with dev := d' } ∧
    if ok then
      d'.stage = (if s.dev.getB bootB R.BOOT_STAT 5 then 2 else 3) ∧ d'.boot.fuseOk = true ∧
      ∀ (k : Fin 8) (c : Fin 5), d'.get (bchB k) R.BCHG_TRIM_DAC c.val = Config.factoryTrim k.val c.val 0 ∧
        d'.get (bchB k) R.BCHG_TRIM_ADC c.val = Config.factoryTrim k.val c.val 1
    else d'.stage = 8 ∧ d'.getB bootB R.BOOT_STAT 6 = true ∧
      d' = { s.dev with regs := d'.regs, boot := { s.dev.boot with stageAt := s.dev.now } }) ∧
  (∀ s : State, s.dev.dead = false → s.dev.stage = 2 → ∃ d',
    exec .secretsClearDone s = .next { s with dev := d' } ∧
    d' = { s.dev with
      regs := d'.regs, keys := Vector.replicate 32 none, keyStage := List.replicate 8 0
      bobs := Vector.replicate 256 Bob.init, boot := { s.dev.boot with debugOn := true, stageAt := s.dev.now } } ∧
    d'.stage = 3 ∧ d'.get keyst R.KEYST_VALID = 0) ∧
  (∀ s : State, s.dev.dead = false → s.dev.stage = 3 → s.dev.queueBanks = true → ∃ d',
    exec (.marchBistDone ⟨[], []⟩) s = .next { s with dev := d' } ∧
    d' = { s.dev with
      regs := d'.regs, pool := { s.dev.pool with words := [], zero := List.range 384 }
      boot := { s.dev.boot with stageAt := s.dev.now } } ∧ d'.stage = 4) ∧
  ∀ (s : State) (r : BistResult), s.dev.dead = false → s.dev.stage = 3 → r.blocks.any vital = true → ∃ d',
    exec (.marchBistDone r) s = .next { s with dev := d' } ∧ d'.stage = 8 ∧ d'.getB bootB R.BOOT_STAT 6 = true) ∧
  ((∀ s : State, s.dev.dead = false → s.dev.stage = 4 →
    (∃ d', exec (.journalReplayDone none) s = .next { s with dev := d' } ∧ d'.stage = 5 ∧
      d'.getB jrnl R.FLT_STAT 3 = true ∧ d'.jrn = s.dev.jrn) ∧
    ∀ f : FlashId, FlashId.usable f = true → ∃ t, exec (.journalReplayDone (some f)) s = .next t ∧ t.dev.stage = 5 ∧
      t.dev.getB jrnl R.JRNL_STAT 1 = true ∧
      (s.dev.jrn.liveArea = none → t.mem = s.mem ∧ t.dev.jLive = 0 ∧ t.dev.jrn.areas[(0 : Fin 2)] = ⟨true, 1, 0, [], f.erase⟩ ∧
        t.dev.getB jrnl R.JRNL_EVT 4 = true)) ∧
  (∀ (s : State) (r : TrainResult), s.dev.dead = false → s.dev.stage = 5 →
    let count (d : Dev) (ch : Fin 2) : Nat := ((List.range 4).filter fun j => d.getB (sdcB ch) R.SDC_STAT (4 + j)).length
    ∃ d', exec (.sdramTrainingDone r) s = .next { s with dev := d' } ∧ d'.stage = 6 ∧
      d'.nrRanks = min (count d' 0) (count d' 1) ∧
      (∀ ch : Fin 2, d'.getB (sdcB ch) R.SDC_STAT 18 = true ↔ count d' ch = 0)) ∧
  (∀ s : State, s.dev.dead = false → s.dev.stage = 6 →
    s.dev.past s.dev.boot.stageAt (1000 * s.dev.getF bootB R.BOOT_LANEWAIT 15 0) = true →
    exec .lanewaitExpiry s = .next { s with dev := { s.dev with boot := { s.dev.boot with lanesEnd := true } } }) ∧
  (∀ s : State, s.dev.dead = false →
    let f := s.dev.getF bootB R.BOOT_FILL 2 0
    let n := s.dev.rankBytes
    (s.dev.stage = 6 ∧ f = 0 ∨ s.dev.ready = true ∧ 0 < f) → f < s.dev.nrRanks → ∃ m' d',
    exec .rankFillDone s = .next { s with mem := m', dev := d' } ∧
    d' = { s.dev with regs := d'.regs, boot := { s.dev.boot with fillEnd := true } } ∧
    (∀ a, f * n ≤ a → a < f * n + n → m'.byte a = 0) ∧
    (∀ a, a < f * n ∨ f * n + n ≤ a → m'.byte a = s.mem.byte a) ∧
    d'.getF bootB R.BOOT_FILL 2 0 = f + 1 ∧ d'.getB bootB R.BOOT_FILL 16 = decide (f + 1 = s.dev.nrRanks) ∧
    s.dev.regsKept d' fun a => a = radr bootB R.BOOT_FILL) ∧
  ∀ s : State, s.dev.dead = false → s.dev.stage = 6 → s.dev.boot.fillEnd = true →
    (s.dev.boot.lanesEnd = true ∨ ∀ n : Fin 40, s.dev.laneSettled n = true) → ∃ d',
    exec .hostReady s = .next { s with dev := d' } ∧ d'.stage = 7 ∧ d'.ready = true ∧
    d'.getB fltc R.FLTC_STAT 16 = true ∧ d'.aliveAt = s.dev.now)
end

