-- ==== Sys2Proof/Laws/State.lean ====
section
/-! SUPPORT. What each update of the device leaves as it was: one lemma per field per update. -/

namespace Sys2Proof.Machine

variable (d : Dev) (b : Blk) (r : Reg) (v : Word) (a hi lo n k i j : Nat) (p : Bool) (ws : List Word)

@[simp] theorem Dev.rput_now : (d.rput a v).now = d.now := rfl
@[simp] theorem Dev.rput_fresh : (d.rput a v).fresh = d.fresh := rfl
@[simp] theorem Dev.rput_live : (d.rput a v).live = d.live := rfl
@[simp] theorem Dev.rput_snap : (d.rput a v).snap = d.snap := rfl
@[simp] theorem Dev.rput_cpl : (d.rput a v).cpl = d.cpl := rfl
@[simp] theorem Dev.rput_fabric : (d.rput a v).fabric = d.fabric := rfl
@[simp] theorem Dev.rput_prior : (d.rput a v).prior = d.prior := rfl
@[simp] theorem Dev.rput_reqs : (d.rput a v).reqs = d.reqs := rfl
@[simp] theorem Dev.rput_rounds : (d.rput a v).rounds = d.rounds := rfl
@[simp] theorem Dev.rput_lateRsp : (d.rput a v).lateRsp = d.lateRsp := rfl
@[simp] theorem Dev.rput_ops : (d.rput a v).ops = d.ops := rfl
@[simp] theorem Dev.rput_fullAt : (d.rput a v).fullAt = d.fullAt := rfl
@[simp] theorem Dev.rput_fullSaid : (d.rput a v).fullSaid = d.fullSaid := rfl
@[simp] theorem Dev.rput_vecs : (d.rput a v).vecs = d.vecs := rfl
@[simp] theorem Dev.rput_shadows : (d.rput a v).shadows = d.shadows := rfl
@[simp] theorem Dev.rput_wakeReq : (d.rput a v).wakeReq = d.wakeReq := rfl
@[simp] theorem Dev.rput_wakeLast : (d.rput a v).wakeLast = d.wakeLast := rfl
@[simp] theorem Dev.rput_flt : (d.rput a v).flt = d.flt := rfl
@[simp] theorem Dev.rput_alive : (d.rput a v).alive = d.alive := rfl
@[simp] theorem Dev.rput_aliveAt : (d.rput a v).aliveAt = d.aliveAt := rfl
@[simp] theorem Dev.rput_sdwnN : (d.rput a v).sdwnN = d.sdwnN := rfl
@[simp] theorem Dev.rput_boot : (d.rput a v).boot = d.boot := rfl
@[simp] theorem Dev.rput_bobs : (d.rput a v).bobs = d.bobs := rfl
@[simp] theorem Dev.rput_keyStage : (d.rput a v).keyStage = d.keyStage := rfl
@[simp] theorem Dev.rput_keys : (d.rput a v).keys = d.keys := rfl
@[simp] theorem Dev.rput_ringLast : (d.rput a v).ringLast = d.ringLast := rfl
@[simp] theorem Dev.rput_ringFin : (d.rput a v).ringFin = d.ringFin := rfl
@[simp] theorem Dev.rput_early : (d.rput a v).early = d.early := rfl
@[simp] theorem Dev.rput_staged : (d.rput a v).staged = d.staged := rfl
@[simp] theorem Dev.rput_running : (d.rput a v).running = d.running := rfl
@[simp] theorem Dev.rput_rep : (d.rput a v).rep = d.rep := rfl
@[simp] theorem Dev.rput_layerEnd : (d.rput a v).layerEnd = d.layerEnd := rfl
@[simp] theorem Dev.rput_heads : (d.rput a v).heads = d.heads := rfl
@[simp] theorem Dev.rput_cells : (d.rput a v).cells = d.cells := rfl
@[simp] theorem Dev.rput_tunes : (d.rput a v).tunes = d.tunes := rfl
@[simp] theorem Dev.rput_ply : (d.rput a v).ply = d.ply := rfl
@[simp] theorem Dev.rput_mpvs : (d.rput a v).mpvs = d.mpvs := rfl
@[simp] theorem Dev.rput_lat : (d.rput a v).lat = d.lat := rfl
@[simp] theorem Dev.rput_lpipes : (d.rput a v).lpipes = d.lpipes := rfl
@[simp] theorem Dev.rput_lights : (d.rput a v).lights = d.lights := rfl
@[simp] theorem Dev.rput_lanes : (d.rput a v).lanes = d.lanes := rfl
@[simp] theorem Dev.rput_msps : (d.rput a v).msps = d.msps := rfl
@[simp] theorem Dev.rput_sdc : (d.rput a v).sdc = d.sdc := rfl
@[simp] theorem Dev.rput_pool : (d.rput a v).pool = d.pool := rfl
@[simp] theorem Dev.rput_tim : (d.rput a v).tim = d.tim := rfl
@[simp] theorem Dev.rput_claims : (d.rput a v).claims = d.claims := rfl
@[simp] theorem Dev.rput_thm : (d.rput a v).thm = d.thm := rfl
@[simp] theorem Dev.rput_bch : (d.rput a v).bch = d.bch := rfl
@[simp] theorem Dev.rput_jrn : (d.rput a v).jrn = d.jrn := rfl

@[simp] theorem Dev.put_now : (d.put b r v i j).now = d.now := rfl
@[simp] theorem Dev.put_fresh : (d.put b r v i j).fresh = d.fresh := rfl
@[simp] theorem Dev.put_live : (d.put b r v i j).live = d.live := rfl
@[simp] theorem Dev.put_snap : (d.put b r v i j).snap = d.snap := rfl
@[simp] theorem Dev.put_cpl : (d.put b r v i j).cpl = d.cpl := rfl
@[simp] theorem Dev.put_fabric : (d.put b r v i j).fabric = d.fabric := rfl
@[simp] theorem Dev.put_prior : (d.put b r v i j).prior = d.prior := rfl
@[simp] theorem Dev.put_reqs : (d.put b r v i j).reqs = d.reqs := rfl
@[simp] theorem Dev.put_rounds : (d.put b r v i j).rounds = d.rounds := rfl
@[simp] theorem Dev.put_lateRsp : (d.put b r v i j).lateRsp = d.lateRsp := rfl
@[simp] theorem Dev.put_ops : (d.put b r v i j).ops = d.ops := rfl
@[simp] theorem Dev.put_fullAt : (d.put b r v i j).fullAt = d.fullAt := rfl
@[simp] theorem Dev.put_fullSaid : (d.put b r v i j).fullSaid = d.fullSaid := rfl
@[simp] theorem Dev.put_vecs : (d.put b r v i j).vecs = d.vecs := rfl
@[simp] theorem Dev.put_shadows : (d.put b r v i j).shadows = d.shadows := rfl
@[simp] theorem Dev.put_wakeReq : (d.put b r v i j).wakeReq = d.wakeReq := rfl
@[simp] theorem Dev.put_wakeLast : (d.put b r v i j).wakeLast = d.wakeLast := rfl
@[simp] theorem Dev.put_flt : (d.put b r v i j).flt = d.flt := rfl
@[simp] theorem Dev.put_alive : (d.put b r v i j).alive = d.alive := rfl
@[simp] theorem Dev.put_aliveAt : (d.put b r v i j).aliveAt = d.aliveAt := rfl
@[simp] theorem Dev.put_sdwnN : (d.put b r v i j).sdwnN = d.sdwnN := rfl
@[simp] theorem Dev.put_boot : (d.put b r v i j).boot = d.boot := rfl
@[simp] theorem Dev.put_bobs : (d.put b r v i j).bobs = d.bobs := rfl
@[simp] theorem Dev.put_keyStage : (d.put b r v i j).keyStage = d.keyStage := rfl
@[simp] theorem Dev.put_keys : (d.put b r v i j).keys = d.keys := rfl
@[simp] theorem Dev.put_ringLast : (d.put b r v i j).ringLast = d.ringLast := rfl
@[simp] theorem Dev.put_ringFin : (d.put b r v i j).ringFin = d.ringFin := rfl
@[simp] theorem Dev.put_early : (d.put b r v i j).early = d.early := rfl
@[simp] theorem Dev.put_staged : (d.put b r v i j).staged = d.staged := rfl
@[simp] theorem Dev.put_running : (d.put b r v i j).running = d.running := rfl
@[simp] theorem Dev.put_rep : (d.put b r v i j).rep = d.rep := rfl
@[simp] theorem Dev.put_layerEnd : (d.put b r v i j).layerEnd = d.layerEnd := rfl
@[simp] theorem Dev.put_heads : (d.put b r v i j).heads = d.heads := rfl
@[simp] theorem Dev.put_cells : (d.put b r v i j).cells = d.cells := rfl
@[simp] theorem Dev.put_tunes : (d.put b r v i j).tunes = d.tunes := rfl
@[simp] theorem Dev.put_ply : (d.put b r v i j).ply = d.ply := rfl
@[simp] theorem Dev.put_mpvs : (d.put b r v i j).mpvs = d.mpvs := rfl
@[simp] theorem Dev.put_lat : (d.put b r v i j).lat = d.lat := rfl
@[simp] theorem Dev.put_lpipes : (d.put b r v i j).lpipes = d.lpipes := rfl
@[simp] theorem Dev.put_lights : (d.put b r v i j).lights = d.lights := rfl
@[simp] theorem Dev.put_lanes : (d.put b r v i j).lanes = d.lanes := rfl
@[simp] theorem Dev.put_msps : (d.put b r v i j).msps = d.msps := rfl
@[simp] theorem Dev.put_sdc : (d.put b r v i j).sdc = d.sdc := rfl
@[simp] theorem Dev.put_pool : (d.put b r v i j).pool = d.pool := rfl
@[simp] theorem Dev.put_tim : (d.put b r v i j).tim = d.tim := rfl
@[simp] theorem Dev.put_claims : (d.put b r v i j).claims = d.claims := rfl
@[simp] theorem Dev.put_thm : (d.put b r v i j).thm = d.thm := rfl
@[simp] theorem Dev.put_bch : (d.put b r v i j).bch = d.bch := rfl
@[simp] theorem Dev.put_jrn : (d.put b r v i j).jrn = d.jrn := rfl

@[simp] theorem Dev.putF_now : (d.putF b r hi lo n i j).now = d.now := rfl
@[simp] theorem Dev.putF_fresh : (d.putF b r hi lo n i j).fresh = d.fresh := rfl
@[simp] theorem Dev.putF_live : (d.putF b r hi lo n i j).live = d.live := rfl
@[simp] theorem Dev.putF_snap : (d.putF b r hi lo n i j).snap = d.snap := rfl
@[simp] theorem Dev.putF_cpl : (d.putF b r hi lo n i j).cpl = d.cpl := rfl
@[simp] theorem Dev.putF_fabric : (d.putF b r hi lo n i j).fabric = d.fabric := rfl
@[simp] theorem Dev.putF_prior : (d.putF b r hi lo n i j).prior = d.prior := rfl
@[simp] theorem Dev.putF_reqs : (d.putF b r hi lo n i j).reqs = d.reqs := rfl
@[simp] theorem Dev.putF_rounds : (d.putF b r hi lo n i j).rounds = d.rounds := rfl
@[simp] theorem Dev.putF_lateRsp : (d.putF b r hi lo n i j).lateRsp = d.lateRsp := rfl
@[simp] theorem Dev.putF_ops : (d.putF b r hi lo n i j).ops = d.ops := rfl
@[simp] theorem Dev.putF_fullAt : (d.putF b r hi lo n i j).fullAt = d.fullAt := rfl
@[simp] theorem Dev.putF_fullSaid : (d.putF b r hi lo n i j).fullSaid = d.fullSaid := rfl
@[simp] theorem Dev.putF_vecs : (d.putF b r hi lo n i j).vecs = d.vecs := rfl
@[simp] theorem Dev.putF_shadows : (d.putF b r hi lo n i j).shadows = d.shadows := rfl
@[simp] theorem Dev.putF_wakeReq : (d.putF b r hi lo n i j).wakeReq = d.wakeReq := rfl
@[simp] theorem Dev.putF_wakeLast : (d.putF b r hi lo n i j).wakeLast = d.wakeLast := rfl
@[simp] theorem Dev.putF_flt : (d.putF b r hi lo n i j).flt = d.flt := rfl
@[simp] theorem Dev.putF_alive : (d.putF b r hi lo n i j).alive = d.alive := rfl
@[simp] theorem Dev.putF_aliveAt : (d.putF b r hi lo n i j).aliveAt = d.aliveAt := rfl
@[simp] theorem Dev.putF_sdwnN : (d.putF b r hi lo n i j).sdwnN = d.sdwnN := rfl
@[simp] theorem Dev.putF_boot : (d.putF b r hi lo n i j).boot = d.boot := rfl
@[simp] theorem Dev.putF_bobs : (d.putF b r hi lo n i j).bobs = d.bobs := rfl
@[simp] theorem Dev.putF_keyStage : (d.putF b r hi lo n i j).keyStage = d.keyStage := rfl
@[simp] theorem Dev.putF_keys : (d.putF b r hi lo n i j).keys = d.keys := rfl
@[simp] theorem Dev.putF_ringLast : (d.putF b r hi lo n i j).ringLast = d.ringLast := rfl
@[simp] theorem Dev.putF_ringFin : (d.putF b r hi lo n i j).ringFin = d.ringFin := rfl
@[simp] theorem Dev.putF_early : (d.putF b r hi lo n i j).early = d.early := rfl
@[simp] theorem Dev.putF_staged : (d.putF b r hi lo n i j).staged = d.staged := rfl
@[simp] theorem Dev.putF_running : (d.putF b r hi lo n i j).running = d.running := rfl
@[simp] theorem Dev.putF_rep : (d.putF b r hi lo n i j).rep = d.rep := rfl
@[simp] theorem Dev.putF_layerEnd : (d.putF b r hi lo n i j).layerEnd = d.layerEnd := rfl
@[simp] theorem Dev.putF_heads : (d.putF b r hi lo n i j).heads = d.heads := rfl
@[simp] theorem Dev.putF_cells : (d.putF b r hi lo n i j).cells = d.cells := rfl
@[simp] theorem Dev.putF_tunes : (d.putF b r hi lo n i j).tunes = d.tunes := rfl
@[simp] theorem Dev.putF_ply : (d.putF b r hi lo n i j).ply = d.ply := rfl
@[simp] theorem Dev.putF_mpvs : (d.putF b r hi lo n i j).mpvs = d.mpvs := rfl
@[simp] theorem Dev.putF_lat : (d.putF b r hi lo n i j).lat = d.lat := rfl
@[simp] theorem Dev.putF_lpipes : (d.putF b r hi lo n i j).lpipes = d.lpipes := rfl
@[simp] theorem Dev.putF_lights : (d.putF b r hi lo n i j).lights = d.lights := rfl
@[simp] theorem Dev.putF_lanes : (d.putF b r hi lo n i j).lanes = d.lanes := rfl
@[simp] theorem Dev.putF_msps : (d.putF b r hi lo n i j).msps = d.msps := rfl
@[simp] theorem Dev.putF_sdc : (d.putF b r hi lo n i j).sdc = d.sdc := rfl
@[simp] theorem Dev.putF_pool : (d.putF b r hi lo n i j).pool = d.pool := rfl
@[simp] theorem Dev.putF_tim : (d.putF b r hi lo n i j).tim = d.tim := rfl
@[simp] theorem Dev.putF_claims : (d.putF b r hi lo n i j).claims = d.claims := rfl
@[simp] theorem Dev.putF_thm : (d.putF b r hi lo n i j).thm = d.thm := rfl
@[simp] theorem Dev.putF_bch : (d.putF b r hi lo n i j).bch = d.bch := rfl
@[simp] theorem Dev.putF_jrn : (d.putF b r hi lo n i j).jrn = d.jrn := rfl

@[simp] theorem Dev.putB_now : (d.putB b r k p i j).now = d.now := rfl
@[simp] theorem Dev.putB_fresh : (d.putB b r k p i j).fresh = d.fresh := rfl
@[simp] theorem Dev.putB_live : (d.putB b r k p i j).live = d.live := rfl
@[simp] theorem Dev.putB_snap : (d.putB b r k p i j).snap = d.snap := rfl
@[simp] theorem Dev.putB_cpl : (d.putB b r k p i j).cpl = d.cpl := rfl
@[simp] theorem Dev.putB_fabric : (d.putB b r k p i j).fabric = d.fabric := rfl
@[simp] theorem Dev.putB_prior : (d.putB b r k p i j).prior = d.prior := rfl
@[simp] theorem Dev.putB_reqs : (d.putB b r k p i j).reqs = d.reqs := rfl
@[simp] theorem Dev.putB_rounds : (d.putB b r k p i j).rounds = d.rounds := rfl
@[simp] theorem Dev.putB_lateRsp : (d.putB b r k p i j).lateRsp = d.lateRsp := rfl
@[simp] theorem Dev.putB_ops : (d.putB b r k p i j).ops = d.ops := rfl
@[simp] theorem Dev.putB_fullAt : (d.putB b r k p i j).fullAt = d.fullAt := rfl
@[simp] theorem Dev.putB_fullSaid : (d.putB b r k p i j).fullSaid = d.fullSaid := rfl
@[simp] theorem Dev.putB_vecs : (d.putB b r k p i j).vecs = d.vecs := rfl
@[simp] theorem Dev.putB_shadows : (d.putB b r k p i j).shadows = d.shadows := rfl
@[simp] theorem Dev.putB_wakeReq : (d.putB b r k p i j).wakeReq = d.wakeReq := rfl
@[simp] theorem Dev.putB_wakeLast : (d.putB b r k p i j).wakeLast = d.wakeLast := rfl
@[simp] theorem Dev.putB_flt : (d.putB b r k p i j).flt = d.flt := rfl
@[simp] theorem Dev.putB_alive : (d.putB b r k p i j).alive = d.alive := rfl
@[simp] theorem Dev.putB_aliveAt : (d.putB b r k p i j).aliveAt = d.aliveAt := rfl
@[simp] theorem Dev.putB_sdwnN : (d.putB b r k p i j).sdwnN = d.sdwnN := rfl
@[simp] theorem Dev.putB_boot : (d.putB b r k p i j).boot = d.boot := rfl
@[simp] theorem Dev.putB_bobs : (d.putB b r k p i j).bobs = d.bobs := rfl
@[simp] theorem Dev.putB_keyStage : (d.putB b r k p i j).keyStage = d.keyStage := rfl
@[simp] theorem Dev.putB_keys : (d.putB b r k p i j).keys = d.keys := rfl
@[simp] theorem Dev.putB_ringLast : (d.putB b r k p i j).ringLast = d.ringLast := rfl
@[simp] theorem Dev.putB_ringFin : (d.putB b r k p i j).ringFin = d.ringFin := rfl
@[simp] theorem Dev.putB_early : (d.putB b r k p i j).early = d.early := rfl
@[simp] theorem Dev.putB_staged : (d.putB b r k p i j).staged = d.staged := rfl
@[simp] theorem Dev.putB_running : (d.putB b r k p i j).running = d.running := rfl
@[simp] theorem Dev.putB_rep : (d.putB b r k p i j).rep = d.rep := rfl
@[simp] theorem Dev.putB_layerEnd : (d.putB b r k p i j).layerEnd = d.layerEnd := rfl
@[simp] theorem Dev.putB_heads : (d.putB b r k p i j).heads = d.heads := rfl
@[simp] theorem Dev.putB_cells : (d.putB b r k p i j).cells = d.cells := rfl
@[simp] theorem Dev.putB_tunes : (d.putB b r k p i j).tunes = d.tunes := rfl
@[simp] theorem Dev.putB_ply : (d.putB b r k p i j).ply = d.ply := rfl
@[simp] theorem Dev.putB_mpvs : (d.putB b r k p i j).mpvs = d.mpvs := rfl
@[simp] theorem Dev.putB_lat : (d.putB b r k p i j).lat = d.lat := rfl
@[simp] theorem Dev.putB_lpipes : (d.putB b r k p i j).lpipes = d.lpipes := rfl
@[simp] theorem Dev.putB_lights : (d.putB b r k p i j).lights = d.lights := rfl
@[simp] theorem Dev.putB_lanes : (d.putB b r k p i j).lanes = d.lanes := rfl
@[simp] theorem Dev.putB_msps : (d.putB b r k p i j).msps = d.msps := rfl
@[simp] theorem Dev.putB_sdc : (d.putB b r k p i j).sdc = d.sdc := rfl
@[simp] theorem Dev.putB_pool : (d.putB b r k p i j).pool = d.pool := rfl
@[simp] theorem Dev.putB_tim : (d.putB b r k p i j).tim = d.tim := rfl
@[simp] theorem Dev.putB_claims : (d.putB b r k p i j).claims = d.claims := rfl
@[simp] theorem Dev.putB_thm : (d.putB b r k p i j).thm = d.thm := rfl
@[simp] theorem Dev.putB_bch : (d.putB b r k p i j).bch = d.bch := rfl
@[simp] theorem Dev.putB_jrn : (d.putB b r k p i j).jrn = d.jrn := rfl

@[simp] theorem Dev.bump_now : (d.bump b r n i j).now = d.now := rfl
@[simp] theorem Dev.bump_fresh : (d.bump b r n i j).fresh = d.fresh := rfl
@[simp] theorem Dev.bump_live : (d.bump b r n i j).live = d.live := rfl
@[simp] theorem Dev.bump_snap : (d.bump b r n i j).snap = d.snap := rfl
@[simp] theorem Dev.bump_cpl : (d.bump b r n i j).cpl = d.cpl := rfl
@[simp] theorem Dev.bump_fabric : (d.bump b r n i j).fabric = d.fabric := rfl
@[simp] theorem Dev.bump_prior : (d.bump b r n i j).prior = d.prior := rfl
@[simp] theorem Dev.bump_reqs : (d.bump b r n i j).reqs = d.reqs := rfl
@[simp] theorem Dev.bump_rounds : (d.bump b r n i j).rounds = d.rounds := rfl
@[simp] theorem Dev.bump_lateRsp : (d.bump b r n i j).lateRsp = d.lateRsp := rfl
@[simp] theorem Dev.bump_ops : (d.bump b r n i j).ops = d.ops := rfl
@[simp] theorem Dev.bump_fullAt : (d.bump b r n i j).fullAt = d.fullAt := rfl
@[simp] theorem Dev.bump_fullSaid : (d.bump b r n i j).fullSaid = d.fullSaid := rfl
@[simp] theorem Dev.bump_vecs : (d.bump b r n i j).vecs = d.vecs := rfl
@[simp] theorem Dev.bump_shadows : (d.bump b r n i j).shadows = d.shadows := rfl
@[simp] theorem Dev.bump_wakeReq : (d.bump b r n i j).wakeReq = d.wakeReq := rfl
@[simp] theorem Dev.bump_wakeLast : (d.bump b r n i j).wakeLast = d.wakeLast := rfl
@[simp] theorem Dev.bump_flt : (d.bump b r n i j).flt = d.flt := rfl
@[simp] theorem Dev.bump_alive : (d.bump b r n i j).alive = d.alive := rfl
@[simp] theorem Dev.bump_aliveAt : (d.bump b r n i j).aliveAt = d.aliveAt := rfl
@[simp] theorem Dev.bump_sdwnN : (d.bump b r n i j).sdwnN = d.sdwnN := rfl
@[simp] theorem Dev.bump_boot : (d.bump b r n i j).boot = d.boot := rfl
@[simp] theorem Dev.bump_bobs : (d.bump b r n i j).bobs = d.bobs := rfl
@[simp] theorem Dev.bump_keyStage : (d.bump b r n i j).keyStage = d.keyStage := rfl
@[simp] theorem Dev.bump_keys : (d.bump b r n i j).keys = d.keys := rfl
@[simp] theorem Dev.bump_ringLast : (d.bump b r n i j).ringLast = d.ringLast := rfl
@[simp] theorem Dev.bump_ringFin : (d.bump b r n i j).ringFin = d.ringFin := rfl
@[simp] theorem Dev.bump_early : (d.bump b r n i j).early = d.early := rfl
@[simp] theorem Dev.bump_staged : (d.bump b r n i j).staged = d.staged := rfl
@[simp] theorem Dev.bump_running : (d.bump b r n i j).running = d.running := rfl
@[simp] theorem Dev.bump_rep : (d.bump b r n i j).rep = d.rep := rfl
@[simp] theorem Dev.bump_layerEnd : (d.bump b r n i j).layerEnd = d.layerEnd := rfl
@[simp] theorem Dev.bump_heads : (d.bump b r n i j).heads = d.heads := rfl
@[simp] theorem Dev.bump_cells : (d.bump b r n i j).cells = d.cells := rfl
@[simp] theorem Dev.bump_tunes : (d.bump b r n i j).tunes = d.tunes := rfl
@[simp] theorem Dev.bump_ply : (d.bump b r n i j).ply = d.ply := rfl
@[simp] theorem Dev.bump_mpvs : (d.bump b r n i j).mpvs = d.mpvs := rfl
@[simp] theorem Dev.bump_lat : (d.bump b r n i j).lat = d.lat := rfl
@[simp] theorem Dev.bump_lpipes : (d.bump b r n i j).lpipes = d.lpipes := rfl
@[simp] theorem Dev.bump_lights : (d.bump b r n i j).lights = d.lights := rfl
@[simp] theorem Dev.bump_lanes : (d.bump b r n i j).lanes = d.lanes := rfl
@[simp] theorem Dev.bump_msps : (d.bump b r n i j).msps = d.msps := rfl
@[simp] theorem Dev.bump_sdc : (d.bump b r n i j).sdc = d.sdc := rfl
@[simp] theorem Dev.bump_pool : (d.bump b r n i j).pool = d.pool := rfl
@[simp] theorem Dev.bump_tim : (d.bump b r n i j).tim = d.tim := rfl
@[simp] theorem Dev.bump_claims : (d.bump b r n i j).claims = d.claims := rfl
@[simp] theorem Dev.bump_thm : (d.bump b r n i j).thm = d.thm := rfl
@[simp] theorem Dev.bump_bch : (d.bump b r n i j).bch = d.bch := rfl
@[simp] theorem Dev.bump_jrn : (d.bump b r n i j).jrn = d.jrn := rfl

@[simp] theorem Dev.bumpF_now : (d.bumpF b r hi lo n i j).now = d.now := rfl
@[simp] theorem Dev.bumpF_fresh : (d.bumpF b r hi lo n i j).fresh = d.fresh := rfl
@[simp] theorem Dev.bumpF_live : (d.bumpF b r hi lo n i j).live = d.live := rfl
@[simp] theorem Dev.bumpF_snap : (d.bumpF b r hi lo n i j).snap = d.snap := rfl
@[simp] theorem Dev.bumpF_cpl : (d.bumpF b r hi lo n i j).cpl = d.cpl := rfl
@[simp] theorem Dev.bumpF_fabric : (d.bumpF b r hi lo n i j).fabric = d.fabric := rfl
@[simp] theorem Dev.bumpF_prior : (d.bumpF b r hi lo n i j).prior = d.prior := rfl
@[simp] theorem Dev.bumpF_reqs : (d.bumpF b r hi lo n i j).reqs = d.reqs := rfl
@[simp] theorem Dev.bumpF_rounds : (d.bumpF b r hi lo n i j).rounds = d.rounds := rfl
@[simp] theorem Dev.bumpF_lateRsp : (d.bumpF b r hi lo n i j).lateRsp = d.lateRsp := rfl
@[simp] theorem Dev.bumpF_ops : (d.bumpF b r hi lo n i j).ops = d.ops := rfl
@[simp] theorem Dev.bumpF_fullAt : (d.bumpF b r hi lo n i j).fullAt = d.fullAt := rfl
@[simp] theorem Dev.bumpF_fullSaid : (d.bumpF b r hi lo n i j).fullSaid = d.fullSaid := rfl
@[simp] theorem Dev.bumpF_vecs : (d.bumpF b r hi lo n i j).vecs = d.vecs := rfl
@[simp] theorem Dev.bumpF_shadows : (d.bumpF b r hi lo n i j).shadows = d.shadows := rfl
@[simp] theorem Dev.bumpF_wakeReq : (d.bumpF b r hi lo n i j).wakeReq = d.wakeReq := rfl
@[simp] theorem Dev.bumpF_wakeLast : (d.bumpF b r hi lo n i j).wakeLast = d.wakeLast := rfl
@[simp] theorem Dev.bumpF_flt : (d.bumpF b r hi lo n i j).flt = d.flt := rfl
@[simp] theorem Dev.bumpF_alive : (d.bumpF b r hi lo n i j).alive = d.alive := rfl
@[simp] theorem Dev.bumpF_aliveAt : (d.bumpF b r hi lo n i j).aliveAt = d.aliveAt := rfl
@[simp] theorem Dev.bumpF_sdwnN : (d.bumpF b r hi lo n i j).sdwnN = d.sdwnN := rfl
@[simp] theorem Dev.bumpF_boot : (d.bumpF b r hi lo n i j).boot = d.boot := rfl
@[simp] theorem Dev.bumpF_bobs : (d.bumpF b r hi lo n i j).bobs = d.bobs := rfl
@[simp] theorem Dev.bumpF_keyStage : (d.bumpF b r hi lo n i j).keyStage = d.keyStage := rfl
@[simp] theorem Dev.bumpF_keys : (d.bumpF b r hi lo n i j).keys = d.keys := rfl
@[simp] theorem Dev.bumpF_ringLast : (d.bumpF b r hi lo n i j).ringLast = d.ringLast := rfl
@[simp] theorem Dev.bumpF_ringFin : (d.bumpF b r hi lo n i j).ringFin = d.ringFin := rfl
@[simp] theorem Dev.bumpF_early : (d.bumpF b r hi lo n i j).early = d.early := rfl
@[simp] theorem Dev.bumpF_staged : (d.bumpF b r hi lo n i j).staged = d.staged := rfl
@[simp] theorem Dev.bumpF_running : (d.bumpF b r hi lo n i j).running = d.running := rfl
@[simp] theorem Dev.bumpF_rep : (d.bumpF b r hi lo n i j).rep = d.rep := rfl
@[simp] theorem Dev.bumpF_layerEnd : (d.bumpF b r hi lo n i j).layerEnd = d.layerEnd := rfl
@[simp] theorem Dev.bumpF_heads : (d.bumpF b r hi lo n i j).heads = d.heads := rfl
@[simp] theorem Dev.bumpF_cells : (d.bumpF b r hi lo n i j).cells = d.cells := rfl
@[simp] theorem Dev.bumpF_tunes : (d.bumpF b r hi lo n i j).tunes = d.tunes := rfl
@[simp] theorem Dev.bumpF_ply : (d.bumpF b r hi lo n i j).ply = d.ply := rfl
@[simp] theorem Dev.bumpF_mpvs : (d.bumpF b r hi lo n i j).mpvs = d.mpvs := rfl
@[simp] theorem Dev.bumpF_lat : (d.bumpF b r hi lo n i j).lat = d.lat := rfl
@[simp] theorem Dev.bumpF_lpipes : (d.bumpF b r hi lo n i j).lpipes = d.lpipes := rfl
@[simp] theorem Dev.bumpF_lights : (d.bumpF b r hi lo n i j).lights = d.lights := rfl
@[simp] theorem Dev.bumpF_lanes : (d.bumpF b r hi lo n i j).lanes = d.lanes := rfl
@[simp] theorem Dev.bumpF_msps : (d.bumpF b r hi lo n i j).msps = d.msps := rfl
@[simp] theorem Dev.bumpF_sdc : (d.bumpF b r hi lo n i j).sdc = d.sdc := rfl
@[simp] theorem Dev.bumpF_pool : (d.bumpF b r hi lo n i j).pool = d.pool := rfl
@[simp] theorem Dev.bumpF_tim : (d.bumpF b r hi lo n i j).tim = d.tim := rfl
@[simp] theorem Dev.bumpF_claims : (d.bumpF b r hi lo n i j).claims = d.claims := rfl
@[simp] theorem Dev.bumpF_thm : (d.bumpF b r hi lo n i j).thm = d.thm := rfl
@[simp] theorem Dev.bumpF_bch : (d.bumpF b r hi lo n i j).bch = d.bch := rfl
@[simp] theorem Dev.bumpF_jrn : (d.bumpF b r hi lo n i j).jrn = d.jrn := rfl

@[simp] theorem Dev.setLiv_now : (d.setLiv b r v i j).now = d.now := rfl
@[simp] theorem Dev.setLiv_fresh : (d.setLiv b r v i j).fresh = d.fresh := rfl
@[simp] theorem Dev.setLiv_regs : (d.setLiv b r v i j).regs = d.regs := rfl
@[simp] theorem Dev.setLiv_snap : (d.setLiv b r v i j).snap = d.snap := rfl
@[simp] theorem Dev.setLiv_cpl : (d.setLiv b r v i j).cpl = d.cpl := rfl
@[simp] theorem Dev.setLiv_fabric : (d.setLiv b r v i j).fabric = d.fabric := rfl
@[simp] theorem Dev.setLiv_prior : (d.setLiv b r v i j).prior = d.prior := rfl
@[simp] theorem Dev.setLiv_reqs : (d.setLiv b r v i j).reqs = d.reqs := rfl
@[simp] theorem Dev.setLiv_rounds : (d.setLiv b r v i j).rounds = d.rounds := rfl
@[simp] theorem Dev.setLiv_lateRsp : (d.setLiv b r v i j).lateRsp = d.lateRsp := rfl
@[simp] theorem Dev.setLiv_ops : (d.setLiv b r v i j).ops = d.ops := rfl
@[simp] theorem Dev.setLiv_fullAt : (d.setLiv b r v i j).fullAt = d.fullAt := rfl
@[simp] theorem Dev.setLiv_fullSaid : (d.setLiv b r v i j).fullSaid = d.fullSaid := rfl
@[simp] theorem Dev.setLiv_vecs : (d.setLiv b r v i j).vecs = d.vecs := rfl
@[simp] theorem Dev.setLiv_shadows : (d.setLiv b r v i j).shadows = d.shadows := rfl
@[simp] theorem Dev.setLiv_wakeReq : (d.setLiv b r v i j).wakeReq = d.wakeReq := rfl
@[simp] theorem Dev.setLiv_wakeLast : (d.setLiv b r v i j).wakeLast = d.wakeLast := rfl
@[simp] theorem Dev.setLiv_flt : (d.setLiv b r v i j).flt = d.flt := rfl
@[simp] theorem Dev.setLiv_alive : (d.setLiv b r v i j).alive = d.alive := rfl
@[simp] theorem Dev.setLiv_aliveAt : (d.setLiv b r v i j).aliveAt = d.aliveAt := rfl
@[simp] theorem Dev.setLiv_sdwnN : (d.setLiv b r v i j).sdwnN = d.sdwnN := rfl
@[simp] theorem Dev.setLiv_boot : (d.setLiv b r v i j).boot = d.boot := rfl
@[simp] theorem Dev.setLiv_bobs : (d.setLiv b r v i j).bobs = d.bobs := rfl
@[simp] theorem Dev.setLiv_keyStage : (d.setLiv b r v i j).keyStage = d.keyStage := rfl
@[simp] theorem Dev.setLiv_keys : (d.setLiv b r v i j).keys = d.keys := rfl
@[simp] theorem Dev.setLiv_ringLast : (d.setLiv b r v i j).ringLast = d.ringLast := rfl
@[simp] theorem Dev.setLiv_ringFin : (d.setLiv b r v i j).ringFin = d.ringFin := rfl
@[simp] theorem Dev.setLiv_early : (d.setLiv b r v i j).early = d.early := rfl
@[simp] theorem Dev.setLiv_staged : (d.setLiv b r v i j).staged = d.staged := rfl
@[simp] theorem Dev.setLiv_running : (d.setLiv b r v i j).running = d.running := rfl
@[simp] theorem Dev.setLiv_rep : (d.setLiv b r v i j).rep = d.rep := rfl
@[simp] theorem Dev.setLiv_layerEnd : (d.setLiv b r v i j).layerEnd = d.layerEnd := rfl
@[simp] theorem Dev.setLiv_heads : (d.setLiv b r v i j).heads = d.heads := rfl
@[simp] theorem Dev.setLiv_cells : (d.setLiv b r v i j).cells = d.cells := rfl
@[simp] theorem Dev.setLiv_tunes : (d.setLiv b r v i j).tunes = d.tunes := rfl
@[simp] theorem Dev.setLiv_ply : (d.setLiv b r v i j).ply = d.ply := rfl
@[simp] theorem Dev.setLiv_mpvs : (d.setLiv b r v i j).mpvs = d.mpvs := rfl
@[simp] theorem Dev.setLiv_lat : (d.setLiv b r v i j).lat = d.lat := rfl
@[simp] theorem Dev.setLiv_lpipes : (d.setLiv b r v i j).lpipes = d.lpipes := rfl
@[simp] theorem Dev.setLiv_lights : (d.setLiv b r v i j).lights = d.lights := rfl
@[simp] theorem Dev.setLiv_lanes : (d.setLiv b r v i j).lanes = d.lanes := rfl
@[simp] theorem Dev.setLiv_msps : (d.setLiv b r v i j).msps = d.msps := rfl
@[simp] theorem Dev.setLiv_sdc : (d.setLiv b r v i j).sdc = d.sdc := rfl
@[simp] theorem Dev.setLiv_pool : (d.setLiv b r v i j).pool = d.pool := rfl
@[simp] theorem Dev.setLiv_tim : (d.setLiv b r v i j).tim = d.tim := rfl
@[simp] theorem Dev.setLiv_claims : (d.setLiv b r v i j).claims = d.claims := rfl
@[simp] theorem Dev.setLiv_thm : (d.setLiv b r v i j).thm = d.thm := rfl
@[simp] theorem Dev.setLiv_bch : (d.setLiv b r v i j).bch = d.bch := rfl
@[simp] theorem Dev.setLiv_jrn : (d.setLiv b r v i j).jrn = d.jrn := rfl

@[simp] theorem Dev.setSnap_now : (d.setSnap b r v i j).now = d.now := rfl
@[simp] theorem Dev.setSnap_fresh : (d.setSnap b r v i j).fresh = d.fresh := rfl
@[simp] theorem Dev.setSnap_regs : (d.setSnap b r v i j).regs = d.regs := rfl
@[simp] theorem Dev.setSnap_live : (d.setSnap b r v i j).live = d.live := rfl
@[simp] theorem Dev.setSnap_cpl : (d.setSnap b r v i j).cpl = d.cpl := rfl
@[simp] theorem Dev.setSnap_fabric : (d.setSnap b r v i j).fabric = d.fabric := rfl
@[simp] theorem Dev.setSnap_prior : (d.setSnap b r v i j).prior = d.prior := rfl
@[simp] theorem Dev.setSnap_reqs : (d.setSnap b r v i j).reqs = d.reqs := rfl
@[simp] theorem Dev.setSnap_rounds : (d.setSnap b r v i j).rounds = d.rounds := rfl
@[simp] theorem Dev.setSnap_lateRsp : (d.setSnap b r v i j).lateRsp = d.lateRsp := rfl
@[simp] theorem Dev.setSnap_ops : (d.setSnap b r v i j).ops = d.ops := rfl
@[simp] theorem Dev.setSnap_fullAt : (d.setSnap b r v i j).fullAt = d.fullAt := rfl
@[simp] theorem Dev.setSnap_fullSaid : (d.setSnap b r v i j).fullSaid = d.fullSaid := rfl
@[simp] theorem Dev.setSnap_vecs : (d.setSnap b r v i j).vecs = d.vecs := rfl
@[simp] theorem Dev.setSnap_shadows : (d.setSnap b r v i j).shadows = d.shadows := rfl
@[simp] theorem Dev.setSnap_wakeReq : (d.setSnap b r v i j).wakeReq = d.wakeReq := rfl
@[simp] theorem Dev.setSnap_wakeLast : (d.setSnap b r v i j).wakeLast = d.wakeLast := rfl
@[simp] theorem Dev.setSnap_flt : (d.setSnap b r v i j).flt = d.flt := rfl
@[simp] theorem Dev.setSnap_alive : (d.setSnap b r v i j).alive = d.alive := rfl
@[simp] theorem Dev.setSnap_aliveAt : (d.setSnap b r v i j).aliveAt = d.aliveAt := rfl
@[simp] theorem Dev.setSnap_sdwnN : (d.setSnap b r v i j).sdwnN = d.sdwnN := rfl
@[simp] theorem Dev.setSnap_boot : (d.setSnap b r v i j).boot = d.boot := rfl
@[simp] theorem Dev.setSnap_bobs : (d.setSnap b r v i j).bobs = d.bobs := rfl
@[simp] theorem Dev.setSnap_keyStage : (d.setSnap b r v i j).keyStage = d.keyStage := rfl
@[simp] theorem Dev.setSnap_keys : (d.setSnap b r v i j).keys = d.keys := rfl
@[simp] theorem Dev.setSnap_ringLast : (d.setSnap b r v i j).ringLast = d.ringLast := rfl
@[simp] theorem Dev.setSnap_ringFin : (d.setSnap b r v i j).ringFin = d.ringFin := rfl
@[simp] theorem Dev.setSnap_early : (d.setSnap b r v i j).early = d.early := rfl
@[simp] theorem Dev.setSnap_staged : (d.setSnap b r v i j).staged = d.staged := rfl
@[simp] theorem Dev.setSnap_running : (d.setSnap b r v i j).running = d.running := rfl
@[simp] theorem Dev.setSnap_rep : (d.setSnap b r v i j).rep = d.rep := rfl
@[simp] theorem Dev.setSnap_layerEnd : (d.setSnap b r v i j).layerEnd = d.layerEnd := rfl
@[simp] theorem Dev.setSnap_heads : (d.setSnap b r v i j).heads = d.heads := rfl
@[simp] theorem Dev.setSnap_cells : (d.setSnap b r v i j).cells = d.cells := rfl
@[simp] theorem Dev.setSnap_tunes : (d.setSnap b r v i j).tunes = d.tunes := rfl
@[simp] theorem Dev.setSnap_ply : (d.setSnap b r v i j).ply = d.ply := rfl
@[simp] theorem Dev.setSnap_mpvs : (d.setSnap b r v i j).mpvs = d.mpvs := rfl
@[simp] theorem Dev.setSnap_lat : (d.setSnap b r v i j).lat = d.lat := rfl
@[simp] theorem Dev.setSnap_lpipes : (d.setSnap b r v i j).lpipes = d.lpipes := rfl
@[simp] theorem Dev.setSnap_lights : (d.setSnap b r v i j).lights = d.lights := rfl
@[simp] theorem Dev.setSnap_lanes : (d.setSnap b r v i j).lanes = d.lanes := rfl
@[simp] theorem Dev.setSnap_msps : (d.setSnap b r v i j).msps = d.msps := rfl
@[simp] theorem Dev.setSnap_sdc : (d.setSnap b r v i j).sdc = d.sdc := rfl
@[simp] theorem Dev.setSnap_pool : (d.setSnap b r v i j).pool = d.pool := rfl
@[simp] theorem Dev.setSnap_tim : (d.setSnap b r v i j).tim = d.tim := rfl
@[simp] theorem Dev.setSnap_claims : (d.setSnap b r v i j).claims = d.claims := rfl
@[simp] theorem Dev.setSnap_thm : (d.setSnap b r v i j).thm = d.thm := rfl
@[simp] theorem Dev.setSnap_bch : (d.setSnap b r v i j).bch = d.bch := rfl
@[simp] theorem Dev.setSnap_jrn : (d.setSnap b r v i j).jrn = d.jrn := rfl

@[simp] theorem Dev.complete_now : (d.complete ws p).now = d.now := rfl
@[simp] theorem Dev.complete_fresh : (d.complete ws p).fresh = d.fresh := rfl
@[simp] theorem Dev.complete_regs : (d.complete ws p).regs = d.regs := rfl
@[simp] theorem Dev.complete_live : (d.complete ws p).live = d.live := rfl
@[simp] theorem Dev.complete_snap : (d.complete ws p).snap = d.snap := rfl
@[simp] theorem Dev.complete_fabric : (d.complete ws p).fabric = d.fabric := rfl
@[simp] theorem Dev.complete_prior : (d.complete ws p).prior = d.prior := rfl
@[simp] theorem Dev.complete_reqs : (d.complete ws p).reqs = d.reqs := rfl
@[simp] theorem Dev.complete_rounds : (d.complete ws p).rounds = d.rounds := rfl
@[simp] theorem Dev.complete_lateRsp : (d.complete ws p).lateRsp = d.lateRsp := rfl
@[simp] theorem Dev.complete_ops : (d.complete ws p).ops = d.ops := rfl
@[simp] theorem Dev.complete_fullAt : (d.complete ws p).fullAt = d.fullAt := rfl
@[simp] theorem Dev.complete_fullSaid : (d.complete ws p).fullSaid = d.fullSaid := rfl
@[simp] theorem Dev.complete_vecs : (d.complete ws p).vecs = d.vecs := rfl
@[simp] theorem Dev.complete_shadows : (d.complete ws p).shadows = d.shadows := rfl
@[simp] theorem Dev.complete_wakeReq : (d.complete ws p).wakeReq = d.wakeReq := rfl
@[simp] theorem Dev.complete_wakeLast : (d.complete ws p).wakeLast = d.wakeLast := rfl
@[simp] theorem Dev.complete_flt : (d.complete ws p).flt = d.flt := rfl
@[simp] theorem Dev.complete_alive : (d.complete ws p).alive = d.alive := rfl
@[simp] theorem Dev.complete_aliveAt : (d.complete ws p).aliveAt = d.aliveAt := rfl
@[simp] theorem Dev.complete_sdwnN : (d.complete ws p).sdwnN = d.sdwnN := rfl
@[simp] theorem Dev.complete_boot : (d.complete ws p).boot = d.boot := rfl
@[simp] theorem Dev.complete_bobs : (d.complete ws p).bobs = d.bobs := rfl
@[simp] theorem Dev.complete_keyStage : (d.complete ws p).keyStage = d.keyStage := rfl
@[simp] theorem Dev.complete_keys : (d.complete ws p).keys = d.keys := rfl
@[simp] theorem Dev.complete_ringLast : (d.complete ws p).ringLast = d.ringLast := rfl
@[simp] theorem Dev.complete_ringFin : (d.complete ws p).ringFin = d.ringFin := rfl
@[simp] theorem Dev.complete_early : (d.complete ws p).early = d.early := rfl
@[simp] theorem Dev.complete_staged : (d.complete ws p).staged = d.staged := rfl
@[simp] theorem Dev.complete_running : (d.complete ws p).running = d.running := rfl
@[simp] theorem Dev.complete_rep : (d.complete ws p).rep = d.rep := rfl
@[simp] theorem Dev.complete_layerEnd : (d.complete ws p).layerEnd = d.layerEnd := rfl
@[simp] theorem Dev.complete_heads : (d.complete ws p).heads = d.heads := rfl
@[simp] theorem Dev.complete_cells : (d.complete ws p).cells = d.cells := rfl
@[simp] theorem Dev.complete_tunes : (d.complete ws p).tunes = d.tunes := rfl
@[simp] theorem Dev.complete_ply : (d.complete ws p).ply = d.ply := rfl
@[simp] theorem Dev.complete_mpvs : (d.complete ws p).mpvs = d.mpvs := rfl
@[simp] theorem Dev.complete_lat : (d.complete ws p).lat = d.lat := rfl
@[simp] theorem Dev.complete_lpipes : (d.complete ws p).lpipes = d.lpipes := rfl
@[simp] theorem Dev.complete_lights : (d.complete ws p).lights = d.lights := rfl
@[simp] theorem Dev.complete_lanes : (d.complete ws p).lanes = d.lanes := rfl
@[simp] theorem Dev.complete_msps : (d.complete ws p).msps = d.msps := rfl
@[simp] theorem Dev.complete_sdc : (d.complete ws p).sdc = d.sdc := rfl
@[simp] theorem Dev.complete_pool : (d.complete ws p).pool = d.pool := rfl
@[simp] theorem Dev.complete_tim : (d.complete ws p).tim = d.tim := rfl
@[simp] theorem Dev.complete_claims : (d.complete ws p).claims = d.claims := rfl
@[simp] theorem Dev.complete_thm : (d.complete ws p).thm = d.thm := rfl
@[simp] theorem Dev.complete_bch : (d.complete ws p).bch = d.bch := rfl
@[simp] theorem Dev.complete_jrn : (d.complete ws p).jrn = d.jrn := rfl

@[simp] theorem Dev.complete_cpl : (d.complete ws p).cpl = ⟨ws, p⟩ := rfl

@[simp] theorem Dev.keepPrior_now : (d.keepPrior b r i j).now = d.now := rfl
@[simp] theorem Dev.keepPrior_fresh : (d.keepPrior b r i j).fresh = d.fresh := rfl
@[simp] theorem Dev.keepPrior_regs : (d.keepPrior b r i j).regs = d.regs := rfl
@[simp] theorem Dev.keepPrior_live : (d.keepPrior b r i j).live = d.live := rfl
@[simp] theorem Dev.keepPrior_snap : (d.keepPrior b r i j).snap = d.snap := rfl
@[simp] theorem Dev.keepPrior_cpl : (d.keepPrior b r i j).cpl = d.cpl := rfl
@[simp] theorem Dev.keepPrior_fabric : (d.keepPrior b r i j).fabric = d.fabric := rfl
@[simp] theorem Dev.keepPrior_reqs : (d.keepPrior b r i j).reqs = d.reqs := rfl
@[simp] theorem Dev.keepPrior_rounds : (d.keepPrior b r i j).rounds = d.rounds := rfl
@[simp] theorem Dev.keepPrior_lateRsp : (d.keepPrior b r i j).lateRsp = d.lateRsp := rfl
@[simp] theorem Dev.keepPrior_ops : (d.keepPrior b r i j).ops = d.ops := rfl
@[simp] theorem Dev.keepPrior_fullAt : (d.keepPrior b r i j).fullAt = d.fullAt := rfl
@[simp] theorem Dev.keepPrior_fullSaid : (d.keepPrior b r i j).fullSaid = d.fullSaid := rfl
@[simp] theorem Dev.keepPrior_vecs : (d.keepPrior b r i j).vecs = d.vecs := rfl
@[simp] theorem Dev.keepPrior_shadows : (d.keepPrior b r i j).shadows = d.shadows := rfl
@[simp] theorem Dev.keepPrior_wakeReq : (d.keepPrior b r i j).wakeReq = d.wakeReq := rfl
@[simp] theorem Dev.keepPrior_wakeLast : (d.keepPrior b r i j).wakeLast = d.wakeLast := rfl
@[simp] theorem Dev.keepPrior_flt : (d.keepPrior b r i j).flt = d.flt := rfl
@[simp] theorem Dev.keepPrior_alive : (d.keepPrior b r i j).alive = d.alive := rfl
@[simp] theorem Dev.keepPrior_aliveAt : (d.keepPrior b r i j).aliveAt = d.aliveAt := rfl
@[simp] theorem Dev.keepPrior_sdwnN : (d.keepPrior b r i j).sdwnN = d.sdwnN := rfl
@[simp] theorem Dev.keepPrior_boot : (d.keepPrior b r i j).boot = d.boot := rfl
@[simp] theorem Dev.keepPrior_bobs : (d.keepPrior b r i j).bobs = d.bobs := rfl
@[simp] theorem Dev.keepPrior_keyStage : (d.keepPrior b r i j).keyStage = d.keyStage := rfl
@[simp] theorem Dev.keepPrior_keys : (d.keepPrior b r i j).keys = d.keys := rfl
@[simp] theorem Dev.keepPrior_ringLast : (d.keepPrior b r i j).ringLast = d.ringLast := rfl
@[simp] theorem Dev.keepPrior_ringFin : (d.keepPrior b r i j).ringFin = d.ringFin := rfl
@[simp] theorem Dev.keepPrior_early : (d.keepPrior b r i j).early = d.early := rfl
@[simp] theorem Dev.keepPrior_staged : (d.keepPrior b r i j).staged = d.staged := rfl
@[simp] theorem Dev.keepPrior_running : (d.keepPrior b r i j).running = d.running := rfl
@[simp] theorem Dev.keepPrior_rep : (d.keepPrior b r i j).rep = d.rep := rfl
@[simp] theorem Dev.keepPrior_layerEnd : (d.keepPrior b r i j).layerEnd = d.layerEnd := rfl
@[simp] theorem Dev.keepPrior_heads : (d.keepPrior b r i j).heads = d.heads := rfl
@[simp] theorem Dev.keepPrior_cells : (d.keepPrior b r i j).cells = d.cells := rfl
@[simp] theorem Dev.keepPrior_tunes : (d.keepPrior b r i j).tunes = d.tunes := rfl
@[simp] theorem Dev.keepPrior_ply : (d.keepPrior b r i j).ply = d.ply := rfl
@[simp] theorem Dev.keepPrior_mpvs : (d.keepPrior b r i j).mpvs = d.mpvs := rfl
@[simp] theorem Dev.keepPrior_lat : (d.keepPrior b r i j).lat = d.lat := rfl
@[simp] theorem Dev.keepPrior_lpipes : (d.keepPrior b r i j).lpipes = d.lpipes := rfl
@[simp] theorem Dev.keepPrior_lights : (d.keepPrior b r i j).lights = d.lights := rfl
@[simp] theorem Dev.keepPrior_lanes : (d.keepPrior b r i j).lanes = d.lanes := rfl
@[simp] theorem Dev.keepPrior_msps : (d.keepPrior b r i j).msps = d.msps := rfl
@[simp] theorem Dev.keepPrior_sdc : (d.keepPrior b r i j).sdc = d.sdc := rfl
@[simp] theorem Dev.keepPrior_pool : (d.keepPrior b r i j).pool = d.pool := rfl
@[simp] theorem Dev.keepPrior_tim : (d.keepPrior b r i j).tim = d.tim := rfl
@[simp] theorem Dev.keepPrior_claims : (d.keepPrior b r i j).claims = d.claims := rfl
@[simp] theorem Dev.keepPrior_thm : (d.keepPrior b r i j).thm = d.thm := rfl
@[simp] theorem Dev.keepPrior_bch : (d.keepPrior b r i j).bch = d.bch := rfl
@[simp] theorem Dev.keepPrior_jrn : (d.keepPrior b r i j).jrn = d.jrn := rfl

@[simp] theorem Dev.free_now : d.free.2.now = d.now := rfl
@[simp] theorem Dev.free_regs : d.free.2.regs = d.regs := rfl
@[simp] theorem Dev.free_live : d.free.2.live = d.live := rfl
@[simp] theorem Dev.free_prior : d.free.2.prior = d.prior := rfl
@[simp] theorem Dev.free_snap : d.free.2.snap = d.snap := rfl
@[simp] theorem Dev.free_cpl : d.free.2.cpl = d.cpl := rfl
@[simp] theorem Dev.free_fabric : d.free.2.fabric = d.fabric := rfl
@[simp] theorem Dev.free_reqs : d.free.2.reqs = d.reqs := rfl
@[simp] theorem Dev.free_rounds : d.free.2.rounds = d.rounds := rfl
@[simp] theorem Dev.free_lateRsp : d.free.2.lateRsp = d.lateRsp := rfl
@[simp] theorem Dev.free_ops : d.free.2.ops = d.ops := rfl
@[simp] theorem Dev.free_fullAt : d.free.2.fullAt = d.fullAt := rfl
@[simp] theorem Dev.free_fullSaid : d.free.2.fullSaid = d.fullSaid := rfl
@[simp] theorem Dev.free_vecs : d.free.2.vecs = d.vecs := rfl
@[simp] theorem Dev.free_shadows : d.free.2.shadows = d.shadows := rfl
@[simp] theorem Dev.free_wakeReq : d.free.2.wakeReq = d.wakeReq := rfl
@[simp] theorem Dev.free_wakeLast : d.free.2.wakeLast = d.wakeLast := rfl
@[simp] theorem Dev.free_flt : d.free.2.flt = d.flt := rfl
@[simp] theorem Dev.free_alive : d.free.2.alive = d.alive := rfl
@[simp] theorem Dev.free_aliveAt : d.free.2.aliveAt = d.aliveAt := rfl
@[simp] theorem Dev.free_sdwnN : d.free.2.sdwnN = d.sdwnN := rfl
@[simp] theorem Dev.free_boot : d.free.2.boot = d.boot := rfl
@[simp] theorem Dev.free_bobs : d.free.2.bobs = d.bobs := rfl
@[simp] theorem Dev.free_keyStage : d.free.2.keyStage = d.keyStage := rfl
@[simp] theorem Dev.free_keys : d.free.2.keys = d.keys := rfl
@[simp] theorem Dev.free_ringLast : d.free.2.ringLast = d.ringLast := rfl
@[simp] theorem Dev.free_ringFin : d.free.2.ringFin = d.ringFin := rfl
@[simp] theorem Dev.free_early : d.free.2.early = d.early := rfl
@[simp] theorem Dev.free_staged : d.free.2.staged = d.staged := rfl
@[simp] theorem Dev.free_running : d.free.2.running = d.running := rfl
@[simp] theorem Dev.free_rep : d.free.2.rep = d.rep := rfl
@[simp] theorem Dev.free_layerEnd : d.free.2.layerEnd = d.layerEnd := rfl
@[simp] theorem Dev.free_heads : d.free.2.heads = d.heads := rfl
@[simp] theorem Dev.free_cells : d.free.2.cells = d.cells := rfl
@[simp] theorem Dev.free_tunes : d.free.2.tunes = d.tunes := rfl
@[simp] theorem Dev.free_ply : d.free.2.ply = d.ply := rfl
@[simp] theorem Dev.free_mpvs : d.free.2.mpvs = d.mpvs := rfl
@[simp] theorem Dev.free_lat : d.free.2.lat = d.lat := rfl
@[simp] theorem Dev.free_lpipes : d.free.2.lpipes = d.lpipes := rfl
@[simp] theorem Dev.free_lights : d.free.2.lights = d.lights := rfl
@[simp] theorem Dev.free_lanes : d.free.2.lanes = d.lanes := rfl
@[simp] theorem Dev.free_msps : d.free.2.msps = d.msps := rfl
@[simp] theorem Dev.free_sdc : d.free.2.sdc = d.sdc := rfl
@[simp] theorem Dev.free_pool : d.free.2.pool = d.pool := rfl
@[simp] theorem Dev.free_tim : d.free.2.tim = d.tim := rfl
@[simp] theorem Dev.free_claims : d.free.2.claims = d.claims := rfl
@[simp] theorem Dev.free_thm : d.free.2.thm = d.thm := rfl
@[simp] theorem Dev.free_bch : d.free.2.bch = d.bch := rfl
@[simp] theorem Dev.free_jrn : d.free.2.jrn = d.jrn := rfl

end Sys2Proof.Machine
end

