-- ==== Sys2Proof/Laws/Regs.lean ====
section
/-! SUPPORT. Sparse tables, bit fields and registers: what was put is read back, and nothing else changes. -/

namespace Sys2Proof.Machine

/-! Sparse tables. -/

@[simp] theorem spGet_spPut_same {α : Type} (l : List (Nat × α)) (a : Nat) (x : α) : spGet (spPut l a x) a = some x := by
  induction l with
  | nil => simp [spPut, spGet]
  | cons p t ih =>
    obtain ⟨k, v⟩ := p
    simp only [spPut]
    split
    · simp [spGet]
    · split
      · simp [spGet]
      · rename_i h1 h2
        simp [spGet, Ne.symm h2, ih]

theorem spGet_spPut_ne {α : Type} (l : List (Nat × α)) {a c : Nat} (x : α) (h : c ≠ a) :
    spGet (spPut l a x) c = spGet l c := by
  induction l with
  | nil => simp [spPut, spGet, Ne.symm h]
  | cons p t ih =>
    obtain ⟨k, v⟩ := p
    simp only [spPut]
    split
    · simp [spGet, Ne.symm h]
    · split
      · rename_i h1 h2
        subst h2
        simp [spGet, Ne.symm h]
      · simp only [spGet, ih]

theorem spGet_spDel_same {α : Type} (l : List (Nat × α)) (a : Nat) : spGet (spDel l a) a = none := by
  induction l with
  | nil => rfl
  | cons p t ih =>
    obtain ⟨k, v⟩ := p
    by_cases h : k = a
    · simp_all [spDel]
    · simp_all [spDel, spGet]

theorem spGet_spDel_ne {α : Type} (l : List (Nat × α)) {a c : Nat} (h : c ≠ a) : spGet (spDel l a) c = spGet l c := by
  induction l with
  | nil => rfl
  | cons p t ih =>
    obtain ⟨k, v⟩ := p
    by_cases hk : k = a
    · subst hk
      simp_all [spDel, spGet, Ne.symm h]
    · simp_all [spDel, spGet]

/-! Bits and fields of a word. -/

theorem fldMask_bit (hi lo i : Nat) (h : hi < 32) : (fldMask hi lo).getLsbD i = (decide (lo ≤ i) && decide (i ≤ hi)) := by
  simp only [fldMask, BitVec.getLsbD_ofNat, Nat.testBit_mul_two_pow, Nat.testBit_two_pow_sub_one]
  by_cases h1 : lo ≤ i <;> by_cases h2 : i ≤ hi <;> simp [h1, h2] <;> omega

theorem setFld_bit (w : Word) (hi lo n i : Nat) (h : hi < 32) :
    (setFld w hi lo n).getLsbD i = if lo ≤ i ∧ i ≤ hi then n.testBit (i - lo) else w.getLsbD i := by
  simp only [setFld, BitVec.getLsbD_or, BitVec.getLsbD_and, BitVec.getLsbD_not, fldMask_bit _ _ _ h,
    BitVec.getLsbD_ofNat, Nat.testBit_mul_two_pow]
  by_cases h1 : lo ≤ i <;> by_cases h2 : i ≤ hi <;> simp [h1, h2]
  · omega
  · intro hw; exact BitVec.lt_of_getLsbD hw
  · intro hw; exact BitVec.lt_of_getLsbD hw
  · intro hw; exact BitVec.lt_of_getLsbD hw

theorem fld_testBit (w : Word) (hi lo i : Nat) : (fld w hi lo).testBit i = (decide (i < hi + 1 - lo) && w.getLsbD (lo + i)) := by
  simp [fld, BitVec.testBit_toNat]

theorem fld_setFld_same (w : Word) (hi lo n : Nat) (h : hi < 32) (hl : lo ≤ hi) :
    fld (setFld w hi lo n) hi lo = n % 2 ^ (hi + 1 - lo) := by
  apply Nat.eq_of_testBit_eq
  intro i
  rw [fld_testBit, Nat.testBit_mod_two_pow, setFld_bit _ _ _ _ _ h]
  by_cases hi' : i < hi + 1 - lo
  · have h2 : lo ≤ lo + i ∧ lo + i ≤ hi := by omega
    rw [if_pos h2]
    simp
  · simp [hi']

theorem fld_setFld_ne (w : Word) (hi lo n hi' lo' : Nat) (h : hi < 32) (hd : hi' < lo ∨ hi < lo') :
    fld (setFld w hi lo n) hi' lo' = fld w hi' lo' := by
  apply Nat.eq_of_testBit_eq
  intro i
  rw [fld_testBit, fld_testBit, setFld_bit _ _ _ _ _ h]
  by_cases hi' : i < hi' + 1 - lo'
  · have h2 : ¬ (lo ≤ lo' + i ∧ lo' + i ≤ hi) := by omega
    rw [if_neg h2]
  · simp [hi']

theorem bit_setFld (w : Word) (hi lo n i : Nat) (h : hi < 32) :
    bit (setFld w hi lo n) i = if lo ≤ i ∧ i ≤ hi then n.testBit (i - lo) else bit w i := setFld_bit w hi lo n i h

theorem bit_setBit_same (w : Word) (k : Nat) (b : Bool) (h : k < 32) : bit (setFld w k k b.toNat) k = b := by
  rw [bit_setFld _ _ _ _ _ h]
  cases b <;> simp

theorem bit_setBit_ne (w : Word) (k i : Nat) (b : Bool) (h : k < 32) (hi : i ≠ k) :
    bit (setFld w k k b.toNat) i = bit w i := by
  rw [bit_setFld _ _ _ _ _ h, if_neg (by omega)]

theorem fld_lt (w : Word) (hi lo : Nat) : fld w hi lo < 2 ^ (hi + 1 - lo) := by
  simpa [fld] using (w.extractLsb' lo (hi + 1 - lo)).isLt

/-! Registers. -/

theorem Dev.rput_regs (d : Dev) (a : Nat) (v : Word) : (d.rput a v).regs = spPut d.regs a v := rfl

theorem Dev.put_regs (d : Dev) (b : Blk) (r : Reg) (v : Word) (i j : Nat) :
    (d.put b r v i j).regs = spPut d.regs (radr b r i j) v := rfl

theorem Dev.putF_regs (d : Dev) (b : Blk) (r : Reg) (hi lo n i j : Nat) :
    (d.putF b r hi lo n i j).regs = spPut d.regs (radr b r i j) (setFld (d.get b r i j) hi lo n) := rfl

theorem Dev.putB_regs (d : Dev) (b : Blk) (r : Reg) (k : Nat) (p : Bool) (i j : Nat) :
    (d.putB b r k p i j).regs = spPut d.regs (radr b r i j) (setFld (d.get b r i j) k k p.toNat) := rfl

theorem Dev.bump_regs (d : Dev) (b : Blk) (r : Reg) (n i j : Nat) :
    (d.bump b r n i j).regs = spPut d.regs (radr b r i j) (wd (satAdd 0xFFFFFFFF (d.getN b r i j) n)) := rfl

theorem Dev.bumpF_regs (d : Dev) (b : Blk) (r : Reg) (hi lo n i j : Nat) :
    (d.bumpF b r hi lo n i j).regs = spPut d.regs (radr b r i j)
      (setFld (d.get b r i j) hi lo (satAdd (2 ^ (hi + 1 - lo) - 1) (d.getF b r hi lo i j) n)) := rfl

/-- A register read depends on the stored words alone. -/
theorem Dev.get_of_regs {d d' : Dev} (b : Blk) (r : Reg) (i j : Nat)
    (h : spGet d'.regs (radr b r i j) = spGet d.regs (radr b r i j)) : d'.get b r i j = d.get b r i j := by
  simp only [Dev.get, Dev.rget, h]

@[simp] theorem Dev.get_put_same (d : Dev) (b : Blk) (r : Reg) (v : Word) (i j : Nat) :
    (d.put b r v i j).get b r i j = v := by
  simp [Dev.get, Dev.rget, Dev.put_regs]

theorem Dev.get_put_ne (d : Dev) (b b' : Blk) (r r' : Reg) (v : Word) (i j i' j' : Nat)
    (h : radr b' r' i' j' ≠ radr b r i j) : (d.put b r v i j).get b' r' i' j' = d.get b' r' i' j' := by
  apply Dev.get_of_regs
  rw [Dev.put_regs, spGet_spPut_ne _ _ h]

/-- Two registers of one block stand at different offsets of its page. -/
theorem radr_ne_of_ofs (b : Blk) (r r' : Reg) (i j i' j' : Nat) (h : r'.ofs i' j' ≠ r.ofs i j) :
    radr b r' i' j' ≠ radr b r i j := by
  unfold radr badr; omega

/-- Registers of two blocks stand on different pages. -/
theorem radr_ne_of_blk (b b' : Blk) (r r' : Reg) (i j i' j' : Nat) (h : b' ≠ b) (h1 : r'.ofs i' j' < 0x1000)
    (h2 : r.ofs i j < 0x1000) : radr b' r' i' j' ≠ radr b r i j := by
  obtain ⟨r1, n1⟩ := b
  obtain ⟨r2, n2⟩ := b'
  intro he
  apply h
  unfold radr badr at he
  have hr1 := r1.isLt
  have hr2 := r2.isLt
  have hn1 := n1.isLt
  have hn2 := n2.isLt
  simp only at he
  have e1 : r2.val = r1.val := by omega
  have e2 : n2.val = n1.val := by omega
  have f1 : r2 = r1 := Fin.ext e1
  have f2 : n2 = n1 := Fin.ext e2
  rw [f1, f2]

end Sys2Proof.Machine
end

