-- ==== Sys2Proof/Laws/Access.lean ====
section
/-! SUPPORT. What the shared operations of a host access, a conditional change, an event and a fault report do, said once
for each. -/

namespace Sys2Proof.Machine

variable (d : Dev) (b : Blk) (o : Nat)

/-! Conditional changes. -/

@[simp] theorem Dev.when_true (f : Dev → Dev) : d.when true f = f d := rfl
@[simp] theorem Dev.when_false (f : Dev → Dev) : d.when false f = d := rfl

theorem Dev.when_of {c : Bool} (f : Dev → Dev) (h : c = true) : d.when c f = f d := by subst h; rfl
theorem Dev.when_not {c : Bool} (f : Dev → Dev) (h : c = false) : d.when c f = d := by subst h; rfl

theorem onDev_next (f : Dev → Dev) (s : State) : onDev f s = .next { s with dev := f s.dev } := rfl

theorem onLive_next (f : Dev → Dev) (s : State) (h : s.dev.dead = false) :
    onLive f s = .next { s with dev := f s.dev } := by
  simp [onLive, onDev, h]

theorem onLiveRead_next (f : Mem → Dev → Dev) (s : State) (h : s.dev.dead = false) :
    onLiveRead f s = .next { s with dev := f s.mem s.dev } := by
  simp [onLiveRead, onDev, h]

theorem onLive_dead (f : Dev → Dev) (s : State) (h : s.dev.dead = true) : onLive f s = .next s := by
  simp [onLive, onDev, h]

theorem onLiveMem_next (f : Mem → Dev → Mem × Dev) (s : State) (h : s.dev.dead = false) :
    onLiveMem f s = .next { s with mem := (f s.mem s.dev).1, dev := (f s.mem s.dev).2 } := by
  simp [onLiveMem, onMem, h]

theorem onLiveMem_dead (f : Mem → Dev → Mem × Dev) (s : State) (h : s.dev.dead = true) : onLiveMem f s = .next s := by
  simp [onLiveMem, onMem, h]

/-- Every outcome of a change of the running device is a next state with the same queue and the same SDRAM. -/
theorem onLive_frame (f : Dev → Dev) (s : State) :
    ∃ d', onLive f s = .next { s with dev := d' } := ⟨_, rfl⟩

/-! Host writes. -/

theorem Dev.writable_hostOk (h : d.writable b o = true) : d.hostOk = true := by
  simp only [Dev.writable, Bool.and_eq_true] at h
  exact h.1.1

theorem Dev.hostOk_live (h : d.hostOk = true) : d.dead = false := by
  simp only [Dev.hostOk, Bool.and_eq_true, Bool.not_eq_true'] at h
  exact h.1.1.1

theorem Dev.takes_live (h : d.takes b o) : d.dead = false := d.hostOk_live (d.writable_hostOk b o h.1)

theorem Dev.abandonSlice_none (c : Bool) (h : d.flt.slices[b.region].unit = none) : d.abandonSlice b c = d := by
  simp only [Dev.abandonSlice, h]

theorem Dev.touch_none (h : d.flt.slices[b.region].unit = none) : d.touch b o = d := by
  simp [Dev.touch, Dev.abandonSlice_none d b true h]

/-- A write that is taken has its effect. -/
theorem Dev.hostWrite_takes (k : Dev → Dev) (h : d.takes b o) : d.hostWrite b o k = k d := by
  simp [Dev.hostWrite, h.1, Dev.touch_none d b o h.2]

theorem hostWriteMem_takes (m : Mem) (k : Mem → Dev → Mem × Dev) (h : d.takes b o) :
    hostWriteMem m d b o k = k m d := by
  simp [hostWriteMem, h.1, Dev.touch_none d b o h.2]

/-- A write that is not taken leaves the block alone. -/
theorem Dev.hostWrite_fails (k : Dev → Dev) (h : d.writable b o = false) : d.hostWrite b o k = d.writeFails b o := by
  simp [Dev.hostWrite, h]

/-! MSI-X vectors and events. -/

theorem Dev.vSend_frame (v : Nat) : d.vSend v = { d with vecs := (d.vSend v).vecs } := by
  simp only [Dev.vSend]; split <;> rfl

/-- On a pending vector an event leaves its cycle alone. -/
theorem Dev.vector_pending (v : Nat) (h : d.vPend v = true) :
    d.vector v = { d with vecs := vmod d.vecs (Fin.ofNat 64 v) fun x => { x with evAt := some d.now } } := by
  simp [Dev.vector, h]

/-- An event on a vector touches its pending bit and the vectors alone. -/
theorem Dev.vector_frame (v : Nat) : d.vector v = { d with regs := (d.vector v).regs, vecs := (d.vector v).vecs } := by
  simp only [Dev.vector]
  split
  · rfl
  · split
    · rw [Dev.vSend_frame]; rfl
    · rfl

theorem Dev.vSend_regs (v : Nat) : (d.vSend v).regs = d.regs := by rw [Dev.vSend_frame]

theorem Dev.vector_regs (v a : Nat) (h : a ≠ radr hif R.HIF_EVT_PEND (v / 32)) :
    spGet (d.vector v).regs a = spGet d.regs a := by
  simp only [Dev.vector]
  split
  · rfl
  · split
    · rw [Dev.vSend_regs, Dev.putB_regs, spGet_spPut_ne _ _ h]
    · rw [Dev.putB_regs, spGet_spPut_ne _ _ h]

/-- An event leaves its vector's bit pending. -/
theorem Dev.vector_sets (v : Nat) (_h : v < 64) : (d.vector v).vPend v = true := by
  simp only [Dev.vector]
  split
  · assumption
  · have hp : ∀ x : Dev, (x.putB hif R.HIF_EVT_PEND (v % 32) true (v / 32)).vPend v = true := by
      intro x
      simp only [Dev.vPend, Dev.getB, Dev.putB, Dev.putF, Dev.get_put_same]
      exact bit_setBit_same _ _ _ (Nat.mod_lt _ (by omega))
    split
    · have e : ∀ x : Dev, (x.vSend v).vPend v = x.vPend v := by
        intro x
        unfold Dev.vPend Dev.getB Dev.get Dev.rget
        rw [Dev.vSend_regs]
      rw [e, hp]
    · exact hp _

/-- Setting event bits touches the event register, the pending bit of the vector and the vectors alone. -/
theorem Dev.event_frame (r en : Reg) (m : Word) (vec i : Nat) :
    d.event b r en m vec i = { d with regs := (d.event b r en m vec i).regs, vecs := (d.event b r en m vec i).vecs } := by
  simp only [Dev.event]
  split
  · rfl
  · rw [Dev.vector_frame]; rfl

theorem Dev.event_regs (r en : Reg) (m : Word) (vec i a : Nat) (h : a ≠ radr b r i)
    (h2 : a ≠ radr hif R.HIF_EVT_PEND (vec / 32)) : spGet (d.event b r en m vec i).regs a = spGet d.regs a := by
  have hp : spGet (d.put b r (d.get b r i ||| m) i).regs a = spGet d.regs a := by
    rw [Dev.put_regs, spGet_spPut_ne _ _ h]
  simp only [Dev.event]
  split
  · exact hp
  · rw [Dev.vector_regs _ _ _ h2, hp]

/-! Faults. -/

theorem Dev.post_frame (c : Cls) (src dst : Blk) (cell port : Option Nat) (body : Body) (status : BitVec 4) (tag : Nat) :
    d.post c src dst cell port body status tag =
      { d with fabric := (d.post c src dst cell port body status tag).fabric } := rfl

/-- A detection touches registers, vectors and the fabric alone. -/
theorem Dev.detect_frame (c : Option Nat) (kind addr : Nat) (tr inj al : Bool) :
    d.detect b c kind addr tr inj al =
      { d with
        regs := (d.detect b c kind addr tr inj al).regs
        vecs := (d.detect b c kind addr tr inj al).vecs
        fabric := (d.detect b c kind addr tr inj al).fabric } := by
  unfold Dev.detect
  split
  · rfl
  · dsimp only
    have hv : ∀ x : Dev, (x.vector 0).aliveStop = { x with regs := (x.vector 0).aliveStop.regs, vecs := (x.vector 0).aliveStop.vecs } := by
      intro x
      rw [Dev.vector_frame]; rfl
    split <;> (try rw [Dev.post_frame]) <;> (split <;> [rw [hv]; skip]) <;> split <;> rfl

end Sys2Proof.Machine
end

