-- ==== Sys2Proof/Laws/Host.lean ====
section
/-! SUPPORT. Host accesses as commands: the address of a page offset, a taken write, a successful read. -/

namespace Sys2Proof.Machine

@[simp] theorem word_and_ones (w : Word) : w &&& 4294967295#32 = w := BitVec.and_allOnes

theorem badr_lt (b : Blk) (o : Nat) (h : o < 0x1000) : badr b o < 2^24 := by
  obtain ⟨r, n⟩ := b
  have := r.isLt; have := n.isLt
  simp only [badr]; omega
theorem badr_toNat (b : Blk) (o : Nat) (h : o < 0x1000) : (BitVec.ofNat 24 (badr b o)).toNat = badr b o := by
  rw [BitVec.toNat_ofNat, Nat.mod_eq_of_lt (badr_lt b o h)]
theorem addrBlk_badr (b : Blk) (o : Nat) (h : o < 0x1000) : addrBlk (badr b o) = b := by
  obtain ⟨r, n⟩ := b
  have h1 := r.isLt; have h2 := n.isLt
  simp only [addrBlk, badr]
  have e1 : (r.val * 0x100000 + n.val * 0x1000 + o) / 0x100000 = r.val := by omega
  have e2 : (r.val * 0x100000 + n.val * 0x1000 + o) % 0x100000 / 0x1000 = n.val := by omega
  rw [e1, e2]
  simp
theorem badr_mod (b : Blk) (o : Nat) (h : o < 0x1000) : badr b o % 0x1000 = o := by
  simp only [badr]; omega
theorem badr_abs (b : Blk) (o : Nat) (h : o < 0x1000) : addrAbsent (badr b o) = false := by
  have h2 := b.block.isLt
  have e : badr b o % 0x100000 = b.block.val * 0x1000 + o := by unfold badr; omega
  simp only [addrAbsent, e, decide_eq_false_iff_not]; omega
theorem badr_mod4 (b : Blk) (o : Nat) (h : o % 4 = 0) : badr b o % 4 = 0 := by
  simp only [badr]; omega

theorem injOnly_false (d : Dev) (b : Blk) (o : Nat) (v : Word) (h : o ≠ 0x108 ∨ ∀ n, blkKind b ≠ some (.lane, n)) : d.injOnly b o v = false := by
  unfold Dev.injOnly
  split
  · rename_i n hn
    rcases h with h | h
    · simp [h]
    · exact absurd hn (h n)
  · rfl

/-- Outside stage 6, or once the host is ready, nothing in the queue comes before a host write on this account (R497). -/
theorem readyFirst_idle (d : Dev) (p : List Instr) (h : d.ready = true ∨ d.stage ≠ 6) : d.readyFirst p = d := by
  unfold Dev.readyFirst
  split
  · rename_i hp
    rcases h with h | h
    · exact absurd h hp.1
    · simp [Dev.hostReady, Dev.inStage, Dev.when, h]
  · rfl

/-- A write that a block other than HIF and BOOT takes comes first in its cycle as far as host-ready goes (R497). -/
theorem readyFirst_taken (d : Dev) (p : List Instr) (b : Blk) (o : Nat) (h : d.takes b o) (h1 : b ≠ hif)
    (h2 : b ≠ blk .boot 0) : d.readyFirst p = d := by
  apply readyFirst_idle
  by_contra hc
  push Not at hc
  have ha : d.accErr b o = 0 := by
    have := h.1
    simp only [Dev.writable, Bool.and_eq_true, decide_eq_true_eq] at this
    exact this.1.2
  simp [Dev.accErr, hc.1, hc.2, h1, h2] at ha

theorem execRegisterWrite_takes (s : State) (addr : BitVec 24) (b : Blk) (o : Nat) (v : Word) (ha : addr.toNat = badr b o)
    (ho : o < 0x1000) (h4 : o % 4 = 0) (ht : s.dev.takes b o)
    (hi : o ≠ 0x108 ∨ ∀ n, blkKind b ≠ some (.lane, n)) (hr : s.dev.readyFirst s.pending = s.dev)
    (hf : b ≠ timeB ∨ o < 0x200 ∨ 0x300 ≤ o) :
    execRegisterWrite addr v s =
      .next { s with mem := (writeReg s.mem s.dev b o v s.rivals).1, dev := (writeReg s.mem s.dev b o v s.rivals).2 } := by
  unfold execRegisterWrite
  rw [onLiveMem_next _ _ (Dev.takes_live _ _ _ ht)]
  have e : ∀ f g : Mem × Dev, f = g → (Host.Outcome.next { s with mem := f.1, dev := f.2 } :
      Host.Outcome State Fault Refusal) = .next { s with mem := g.1, dev := g.2 } := by
    intro f g h; rw [h]
  apply e
  dsimp only
  have hl : s.dev.laneLeft s.pending b o v = v := by
    unfold Dev.laneLeft
    split
    · rename_i n hn
      rcases hi with hi | hi
      · simp [hi]
      · exact absurd hn (hi n)
    · rfl
  rw [hr, ha, addrBlk_badr b o ho, badr_mod b o ho, badr_abs b o ho, badr_mod4 b o h4, injOnly_false _ _ _ _ hi,
    s.dev.writable_hostOk b o ht.1]
  rw [if_neg (by simp), if_neg (by simp), if_neg (by simp), if_neg (by simp),
    if_neg (by rintro ⟨h1, h2, h3, -⟩; rcases hf with h | h | h <;> [exact h h1; omega; omega]),
    hostWriteMem_takes _ _ _ _ _ ht, hl]

theorem write_taken (s : State) (b : Blk) (o : Nat) (v : Word) (ho : o < 0x1000) (h4 : o % 4 = 0) (ht : s.dev.takes b o)
    (hi : o ≠ 0x108 ∨ ∀ n, blkKind b ≠ some (.lane, n)) (hr : s.dev.readyFirst s.pending = s.dev)
    (hf : b ≠ timeB ∨ o < 0x200 ∨ 0x300 ≤ o) :
    exec (.registerWrite (BitVec.ofNat 24 (badr b o)) v) s =
      .next { s with mem := (writeReg s.mem s.dev b o v s.rivals).1, dev := (writeReg s.mem s.dev b o v s.rivals).2 } :=
  execRegisterWrite_takes s _ b o v (badr_toNat b o ho) ho h4 ht hi hr hf

theorem hostRead_ok (d : Dev) (b : Blk) (o : Nat) (k : Dev → Dev) (h : d.hostOk = true) (he : d.accErr b o = 0) (hs : o < 0x100 ∨ d.flt.slices[b.region].unit = none) : d.hostRead b o k = k d := by
  have : d.touch b o = d := by
    rcases hs with hs | hs
    · simp [Dev.touch, hs]
    · exact d.touch_none b o hs
  simp [Dev.hostRead, h, he, this]

theorem read_ok (s : State) (b : Blk) (o : Nat) (ho : o < 0x1000) (h4 : o % 4 = 0) (h : s.dev.hostOk = true) (he : s.dev.accErr b o = 0) (hs : o < 0x100 ∨ s.dev.flt.slices[b.region].unit = none) (hn : ¬ (b = sramp ∧ o = 0x110)) :
  exec (.registerRead (BitVec.ofNat 24 (badr b o))) s = .next { s with dev := (s.dev.readEffect b o).complete [s.dev.readWord s.mem b o] false } := by
  simp only [exec, execRegisterRead]
  rw [onLiveRead_next _ _ (s.dev.hostOk_live h)]
  simp only [badr_toNat b o ho, addrBlk_badr b o ho, badr_mod b o ho, badr_abs b o ho, badr_mod4 b o h4, h, hostRead_ok _ _ _ _ h he hs, hn]
  simp


end Sys2Proof.Machine
end

