-- ==== Sys2Proof/Laws/Memory.lean ====
section
/-! SUPPORT. SDRAM: every operation keeps the canonical form, a byte written is read back, and every other byte stays. -/

namespace Sys2Proof.Machine

/-! Rising tables. -/

theorem mem_spPut {α : Type} {l : List (Nat × α)} {a : Nat} {x : α} {p : Nat × α} (h : p ∈ spPut l a x) :
    p = (a, x) ∨ p ∈ l := by
  induction l with
  | nil => simpa [spPut] using h
  | cons q t ih =>
    obtain ⟨k, v⟩ := q
    simp only [spPut] at h
    split at h
    · rcases List.mem_cons.mp h with h | h
      · exact .inl h
      · exact .inr h
    · split at h
      · rcases List.mem_cons.mp h with h | h
        · exact .inl h
        · exact .inr (List.mem_cons_of_mem _ h)
      · rcases List.mem_cons.mp h with h | h
        · exact .inr (h ▸ List.mem_cons_self)
        · rcases ih h with h | h
          · exact .inl h
          · exact .inr (List.mem_cons_of_mem _ h)

theorem pairwise_spPut {α : Type} (l : List (Nat × α)) (a : Nat) (x : α) (h : l.Pairwise fun p q => p.1 < q.1) :
    (spPut l a x).Pairwise fun p q => p.1 < q.1 := by
  induction l with
  | nil => simp [spPut]
  | cons q t ih =>
    obtain ⟨k, v⟩ := q
    rw [List.pairwise_cons] at h
    simp only [spPut]
    split
    · rename_i hk
      refine List.pairwise_cons.mpr ⟨?_, List.pairwise_cons.mpr h⟩
      intro p hp
      rcases List.mem_cons.mp hp with hp | hp
      · subst hp; exact hk
      · exact Nat.lt_trans hk (h.1 p hp)
    · split
      · rename_i hk
        subst hk
        exact List.pairwise_cons.mpr h
      · rename_i h1 h2
        refine List.pairwise_cons.mpr ⟨?_, ih h.2⟩
        intro p hp
        rcases mem_spPut hp with hp | hp
        · subst hp; simp only; omega
        · exact h.1 p hp

theorem pairwise_spDel {α : Type} (l : List (Nat × α)) (a : Nat) (h : l.Pairwise fun p q => p.1 < q.1) :
    (spDel l a).Pairwise fun p q => p.1 < q.1 := h.filter _

theorem mem_insertLine {l : List Nat} {n x : Nat} (h : x ∈ insertLine l n) : x = n ∨ x ∈ l := by
  induction l with
  | nil => simpa [insertLine] using h
  | cons k t ih =>
    simp only [insertLine] at h
    split at h
    · rcases List.mem_cons.mp h with h | h
      · exact .inl h
      · exact .inr h
    · split at h
      · exact .inr h
      · rcases List.mem_cons.mp h with h | h
        · exact .inr (h ▸ List.mem_cons_self)
        · rcases ih h with h | h
          · exact .inl h
          · exact .inr (List.mem_cons_of_mem _ h)

theorem pairwise_insertLine (l : List Nat) (n : Nat) (h : l.Pairwise (· < ·)) : (insertLine l n).Pairwise (· < ·) := by
  induction l with
  | nil => simp [insertLine]
  | cons k t ih =>
    rw [List.pairwise_cons] at h
    simp only [insertLine]
    split
    · rename_i hk
      refine List.pairwise_cons.mpr ⟨?_, List.pairwise_cons.mpr h⟩
      intro p hp
      rcases List.mem_cons.mp hp with hp | hp
      · subst hp; exact hk
      · exact Nat.lt_trans hk (h.1 p hp)
    · split
      · exact List.pairwise_cons.mpr h
      · rename_i h1 h2
        refine List.pairwise_cons.mpr ⟨?_, ih h.2⟩
        intro p hp
        rcases mem_insertLine hp with hp | hp
        · subst hp; omega
        · exact h.1 p hp

/-! Canonical form. -/

theorem Mem.wf_of_eq {m m' : Mem} (h : m.wf) (h1 : m'.cells = m.cells) (h2 : m'.poison = m.poison) : m'.wf := by
  simpa [Mem.wf, h1, h2] using h

theorem Mem.putByte_wf (m : Mem) (a : Nat) (v : Byte) (h : m.wf) : (m.putByte a v).wf := by
  obtain ⟨h1, h2, h3⟩ := h
  by_cases hv : v = 0
  · simp only [Mem.wf, Mem.putByte, hv, if_true]
    exact ⟨pairwise_spDel _ _ h1, fun c hc => h2 c (List.mem_of_mem_filter hc), h3⟩
  · simp only [Mem.wf, Mem.putByte, hv, if_false]
    refine ⟨pairwise_spPut _ _ _ h1, fun c hc => ?_, h3⟩
    rcases mem_spPut hc with hc | hc
    · subst hc; exact hv
    · exact h2 c hc

theorem Mem.rawWrite_wf (m : Mem) (a : Nat) (bs : List Byte) (h : m.wf) : (m.rawWrite a bs).wf := by
  induction bs generalizing m a with
  | nil => exact h
  | cons b t ih => exact ih _ _ (m.putByte_wf a b h)

theorem Mem.keepLine_cells (m : Mem) (l : Nat) : (m.keepLine l).cells = m.cells := by
  unfold Mem.keepLine
  dsimp only
  split
  · rfl
  · split <;> rfl

theorem Mem.keepLine_poison (m : Mem) (l : Nat) : (m.keepLine l).poison = m.poison := by
  unfold Mem.keepLine
  dsimp only
  split
  · rfl
  · split <;> rfl

theorem Mem.keepLines_eq (m : Mem) (ls : List Nat) :
    (ls.foldl Mem.keepLine m).cells = m.cells ∧ (ls.foldl Mem.keepLine m).poison = m.poison := by
  induction ls generalizing m with
  | nil => exact ⟨rfl, rfl⟩
  | cons l t ih =>
    obtain ⟨h1, h2⟩ := ih (m.keepLine l)
    exact ⟨h1.trans (m.keepLine_cells l), h2.trans (m.keepLine_poison l)⟩

theorem Mem.write_wf (m : Mem) (a : Nat) (bs : List Byte) (h : m.wf) : (m.write a bs).wf := by
  have hk := m.keepLines_eq (linesOf a bs.length)
  obtain ⟨h1, h2, h3⟩ := Mem.rawWrite_wf _ a bs (Mem.wf_of_eq h hk.1 hk.2)
  exact ⟨h1, h2, h3.filter _⟩

theorem Mem.mark_wf (m : Mem) (l : Nat) (h : m.wf) : (m.mark l).wf := ⟨h.1, h.2.1, pairwise_insertLine _ _ h.2.2⟩

theorem Mem.migDrop_wf (m : Mem) (ch : Fin 2) (h : m.wf) : (m.migDrop ch).wf := by
  unfold Mem.migDrop
  split
  · exact h
  · rename_i g _
    have h1 : ∀ (l : List (Nat × List Byte × Bool)) (x : Mem), x.wf →
        (l.foldl (fun x o => x.rawWrite (o.1 * 64) o.2.1) x).wf := by
      intro l
      induction l with
      | nil => intro x hx; exact hx
      | cons o t ih => intro x hx; exact ih _ (x.rawWrite_wf _ _ hx)
    have h2 : ∀ (l : List (Nat × List Byte × Bool)) (x : List Nat), x.Pairwise (· < ·) →
        (l.foldl (fun ls o => if o.2.2 then insertLine ls o.1 else ls.filter fun l => l ≠ o.1) x).Pairwise (· < ·) := by
      intro l
      induction l with
      | nil => intro x hx; exact hx
      | cons o t ih =>
        intro x hx
        refine ih _ ?_
        dsimp only
        split
        · exact pairwise_insertLine _ _ hx
        · exact hx.filter _
    have hw := h1 g.old m h
    exact ⟨hw.1, hw.2.1, h2 _ _ hw.2.2⟩

theorem Dev.sdWrite_wf (d : Dev) (m m' : Mem) (a : Nat) (bs : List Byte) (h : m.wf) (he : d.sdWrite m a bs = .ok m') :
    m'.wf := by
  unfold Dev.sdWrite at he
  split at he
  · cases he; exact m.write_wf a bs h
  · cases he

theorem Dev.sdPut_wf (d : Dev) (m : Mem) (a : Nat) (bs : List Byte) (h : m.wf) : (d.sdPut m a bs).wf := by
  unfold Dev.sdPut
  split
  · rename_i m' he; exact d.sdWrite_wf m m' a bs h he
  · exact h

theorem Mem.noMigs_wf (m : Mem) (h : m.wf) : m.noMigs.wf := Mem.wf_of_eq h rfl rfl

theorem Mem.zeroRange_wf (m : Mem) (a n : Nat) (h : m.wf) : (m.zeroRange a n).wf :=
  ⟨h.1.filter _, fun c hc => h.2.1 c (List.mem_of_mem_filter hc), h.2.2.filter _⟩

/-! Bytes. -/

theorem Mem.byte_putByte_same (m : Mem) (a : Nat) (v : Byte) : (m.putByte a v).byte a = v := by
  unfold Mem.byte Mem.putByte
  dsimp only
  split
  · rename_i hv; rw [spGet_spDel_same, hv]; rfl
  · rw [spGet_spPut_same]; rfl

theorem Mem.byte_putByte_ne (m : Mem) {a c : Nat} (v : Byte) (h : c ≠ a) : (m.putByte a v).byte c = m.byte c := by
  unfold Mem.byte Mem.putByte
  dsimp only
  split
  · rw [spGet_spDel_ne _ h]
  · rw [spGet_spPut_ne _ _ h]

theorem Mem.byte_rawWrite (m : Mem) (a c : Nat) (bs : List Byte) :
    (m.rawWrite a bs).byte c = if a ≤ c ∧ c < a + bs.length then bs.getD (c - a) 0 else m.byte c := by
  induction bs generalizing m a with
  | nil => simp [Mem.rawWrite]
  | cons b t ih =>
    simp only [Mem.rawWrite, ih, List.length_cons]
    by_cases h1 : a + 1 ≤ c ∧ c < a + 1 + t.length
    · have h2 : a ≤ c ∧ c < a + (t.length + 1) := by omega
      have e : c - a = (c - (a + 1)) + 1 := by omega
      rw [if_pos h1, if_pos h2, e]
      rfl
    · rw [if_neg h1]
      by_cases h3 : c = a
      · subst h3
        rw [Mem.byte_putByte_same, if_pos (by omega)]
        simp
      · rw [Mem.byte_putByte_ne _ _ h3, if_neg (by omega)]

theorem Mem.byte_of_cells {m m' : Mem} (c : Nat) (h : m'.cells = m.cells) : m'.byte c = m.byte c := by
  simp [Mem.byte, h]

/-- A write changes the bytes it covers and no other. -/
theorem Mem.byte_write (m : Mem) (a c : Nat) (bs : List Byte) :
    (m.write a bs).byte c = if a ≤ c ∧ c < a + bs.length then bs.getD (c - a) 0 else m.byte c := by
  have hk := m.keepLines_eq (linesOf a bs.length)
  have e : (m.write a bs).byte c = (((linesOf a bs.length).foldl Mem.keepLine m).rawWrite a bs).byte c := rfl
  rw [e, Mem.byte_rawWrite, Mem.byte_of_cells c hk.1]

end Sys2Proof.Machine
end

