-- ==== Sys2Proof/Machine/Pins.lean ====
section
/-! DEFINITION. What the output balls carry (12, 14, 16, 17 and 19): a view of the state, which holds nothing of its own. -/

namespace Sys2Proof.Machine

/-- What an output pin of a motion port carries: a steady level, a phase that floats, a PWM duty in 2^-40 of MPG_PWM_NS, the
STEP pulses or the MA clock of the unit that holds it, the bits of a lighting line. -/
inductive PinOut where
  | level (high : Bool)
  | floats
  | duty (u : Nat)
  | steps
  | ma
  | bits
deriving DecidableEq, Repr

/-- The high and the low phase (0 U, 1 V, 2 W) under a hall code for u > 0; none under codes 0 and 7 (R337). -/
def commutation (hall : Nat) : Option (Nat × Nat) :=
  match hall with
  | 1 => some (0, 1)
  | 3 => some (1, 0)
  | 2 => some (1, 2)
  | 6 => some (2, 1)
  | 4 => some (2, 0)
  | 5 => some (0, 2)
  | _ => none

/-- A phase of DRIVE 2 under a hall code and u (R337): the high phase has the duty |u|, the low phase is low, the third floats; for
u < 0 high and low are swapped; without a valid code every phase has duty 0. -/
def phaseOut (hall : Nat) (u : Int) (p : Nat) : PinOut :=
  match commutation hall with
  | none => .duty 0
  | some (hi, lo) =>
    let hl := if u < 0 then (lo, hi) else (hi, lo)
    if p = hl.1 then .duty u.natAbs else if p = hl.2 then .level false else .floats

/-- What the drive of a local spindle puts on pin OUTp (R330, R331); inactive where its cell is OFF or FENCED (R356). -/
def Dev.driveOut (d : Dev) (m : Fin 64) (p : Nat) : PinOut :=
  let c := d.cells[mspI m]
  if ¬ Machine.runState c.st then .level false
  else if p = 3 then .level true
  else match d.mdrive m, p with
    | 1, 0 => .steps
    | 1, 1 => .level (decide (0 ≤ d.msps[m].vel))
    | 2, _ => phaseOut d.msps[m].hall c.u p
    | 3, 0 => .duty c.u.natAbs
    | 3, 1 => .level (decide (c.u < 0))
    | _, _ => .level false

/-- What pin OUTp of a motion port carries before MPG_POL: that of its holder (R353), low where none holds it. -/
def Dev.pinOut (d : Dev) (q : Fin 16) (p : Fin 4) : PinOut :=
  match d.holder (mpgB (portM q)) (4 * (q.val % 4) + p.val) with
  | none => .level false
  | some c =>
    if c.by_ = light then .bits
    else match c.sub % 4 with
      | 0 => d.driveOut (portM q) p.val
      | 1 => .ma
      | _ => .level (d.pulsing (Fin.ofNat 64 (8 * c.by_.block.val + c.sub / 4)))

/-- The pin itself: MPG_POL inverts levels (R359). -/
def Dev.pinLevel (d : Dev) (q : Fin 16) (p : Fin 4) : PinOut :=
  match d.pinOut q p with
  | .level b => .level (b != bit (d.portPol q) p.val)
  | x => x

/-- The code that stands on BCHO[n]; 0 where the channel has no cell any more (R471, R511). -/
def Dev.bchoCode (d : Dev) (h : Fin 32) : Nat :=
  if d.bch[Fin.ofNat 8 (h.val / 4)].lost.toList.getD (h.val % 4) false then 0 else d.heads[h].trv.code

end Sys2Proof.Machine
end

