-- ==== Sys2Proof/Tests/Slice0.lean ====
section
/-! SUPPORT. The model's own tests: for every statement a state and operands that meet its hypotheses, one ill-formed
command for each check of Instr.wf, and small one-step tests whose expected values come from the spec. -/
namespace Sys2Proof.Tests
open Sys2Proof.Machine
set_option Elab.async false -- one kernel evaluation at a time

/-- The device after host-ready. -/
def on : Dev :=
  ({ Dev.init with boot := { Boot.init with porst := true, perst := true, fuseOk := true } } : Dev).put (blk .boot 0) R.BOOT_STAT 0x17#32
def st (d : Dev) : State := { State.reset with dev := d }
def at_ (d : Dev) (n : Nat) : Dev := { d with now := n }
def sd (d : Dev) : Dev := (d.putF bootB R.BOOT_FILL 2 0 1)
def stm (d : Dev) (m : Mem) : State := { State.reset with mem := m, dev := d }
def m0 : Mem := State.reset.mem
def W (l : List (Nat × Word)) (n : Nat) : List Word := (List.range n).map fun i => (spGet l i).getD 0
def ringOn (d : Dev) : Dev := ((d.put creelB R.CREEL_RCTL 0x701 0).put creelB R.CREEL_RSIZE 4 0).put creelB R.CREEL_RTAIL 1 0
def sk : Skein := { layer := 7, flags := 0, ox := 0, oy := 0, recoatUs := 0, headMask := 0, reqMask := 0, poolRecs := 0, poolAddr := 0, bobs := [0], planAddr := 0, repAddr := 0x1000, repSize := 0x480, lists := Vector.replicate 32 (0,0), ring := 0, goSeen := false, abortSeen := false }
def hd (d : Dev) (h : Fin 32) (f : Head → Head) : Dev := { d with heads := vmod d.heads h f }
def fm : FMap := ⟨17, -1000, 1000, -1000, 1000, (List.range 289).map fun m => ((m % 17 : Nat) * 1000 - 8000, (m / 17 : Nat) * 1000 - 8000, 0), 5⟩
def lay (web : Bool) : Dev :=
  hd { sd on with running := some { sk with flags := if web then 2 else 0, headMask := 1 }, rep := { Rep.init with present := 1 } } 0 fun x =>
    { x with drf := { x.drf with inLayer := true, st := 2 }, trv := { x.trv with live := some fm } }
def prof1 : Prof := ⟨1,1,1,1,1,1,1,1⟩
def mv : Move := { kind := .jump, seg := .line 0 0 100 0, len := 100, arc0 := 0, laser := false, ceil := 1, prof := prof1, cont := false, inLim := 1, outLim := 1, phases := [⟨1,0,100,100⟩], vOut := 1, started := true, t := 3, id := 0, idx := 0, pool := false, bob := 0, buf := false, pwr := 0, focus := 0, durNs := 0, zone := 0, blend := false, sky := false, done := 1, run := 1, fade := 0, turnS := 0, was := 0, late := false }
def en (k : Nat) : Ent := ⟨0, k, false, false, false, 77, 0, false, 0, 0, 1, 0, false, 1, 0⟩

/-! A checksummed image is built around its own CRC, which no proof evaluates. -/
theorem spGet_append {α : Type} (l k : List (Nat × α)) (a : Nat) : spGet (l ++ k) a = (spGet l a).or (spGet k a) := by
  induction l with
  | nil => rfl
  | cons x t ih =>
    obtain ⟨b, v⟩ := x
    simp only [List.cons_append, spGet, ih]
    split <;> simp
theorem spGet_absent {α : Type} {l : List (Nat × α)} {a : Nat} (h : ∀ x ∈ l, x.1 ≠ a) : spGet l a = none := by
  induction l with
  | nil => rfl
  | cons x t ih =>
    obtain ⟨b, v⟩ := x
    rw [spGet, if_neg (h (b, v) (by simp)), ih fun y hy => h y (by simp [hy])]
/-- SDRAM that lists the given cells. -/
def mc (l : List (Nat × Byte)) : Mem := { m0 with cells := l }
/-- The cells of a dword at `q`. -/
def crcCells (q : Nat) (c : Word) : List (Nat × Byte) :=
  [(q, BitVec.ofNat 8 c.toNat), (q + 1, BitVec.ofNat 8 (c.toNat / 256)), (q + 2, BitVec.ofNat 8 (c.toNat / 65536)),
   (q + 3, BitVec.ofNat 8 (c.toNat / 16777216))]
theorem byte_beside (l : List (Nat × Byte)) (q k : Nat) (c : Word) (h : k < q ∨ q + 4 ≤ k) :
    (mc (l ++ crcCells q c)).byte k = (mc l).byte k := by
  have e : spGet (crcCells q c) k = none := spGet_absent (by simp [crcCells]; omega)
  simp [mc, Mem.byte, spGet_append, e]
theorem word_crc (l : List (Nat × Byte)) (q : Nat) (c : Word) (h : ∀ x ∈ l, x.1 < q ∨ q + 4 ≤ x.1) :
    (mc (l ++ crcCells q c)).word q = c := by
  have e (i : Nat) (hi : i < 4) : spGet l (q + i) = none := spGet_absent fun x hx => by have := h x hx; omega
  have e0 := e 0 (by decide)
  have hr : List.range 4 = [0, 1, 2, 3] := rfl
  simp only [Nat.add_zero] at e0
  simp only [Mem.word, Mem.bytes, hr, List.map_cons, List.map_nil, mc, Mem.byte, spGet_append, Nat.add_zero, e0, e 1 (by decide), e 2 (by decide),
    e 3 (by decide), crcCells]
  simp [spGet, leNat, wd]
  apply BitVec.eq_of_toNat_eq
  simp
  omega
theorem bytes_congr {m m' : Mem} {a n : Nat} (h : ∀ i < n, m.byte (a + i) = m'.byte (a + i)) : m.bytes a n = m'.bytes a n :=
  List.map_congr_left fun i hi => h i (List.mem_range.mp hi)
theorem bytes_take (m : Mem) (a : Nat) {n p : Nat} (h : p ≤ n) : (m.bytes a n).take p = m.bytes a p := by
  simp [Mem.bytes, ← List.map_take, List.take_range, Nat.min_eq_left h]
theorem bytes_drop (m : Mem) (a n p : Nat) : (m.bytes a n).drop p = m.bytes (a + p) (n - p) := by
  apply List.ext_getElem
  · simp [Mem.bytes]
  · intro i h1 h2
    simp [Mem.bytes, Nat.add_assoc]
theorem word_at (bs : List Byte) (j : Nat) (h : 4 * j + 4 ≤ bs.length) :
    (bytesWords bs).getD j 0 = wd (leNat ((bs.drop (4 * j)).take 4)) := by
  induction j generalizing bs with
  | zero =>
    match bs, h with
    | a :: b :: c :: e :: t, _ => simp [bytesWords]
  | succ j ih =>
    match bs, h with
    | a :: b :: c :: e :: t, h =>
      have := ih t (by simp at h; omega)
      rw [show 4 * (j + 1) = 4 * j + 4 by omega]
      simpa [bytesWords] using this
theorem word_of_bytes (m : Mem) (a : Nat) {n j : Nat} (h : 4 * j + 4 ≤ n) :
    (bytesWords (m.bytes a n)).getD j 0 = m.word (a + 4 * j) := by
  rw [word_at _ _ (by simpa [Mem.bytes] using h), bytes_drop, bytes_take _ _ (by omega), Mem.word]
theorem sdRead_of_status {d : Dev} {m : Mem} {a n : Nat} (h : d.sdStatus m a n false = 0) :
    d.sdRead m a n = .ok (m.bytes a n) := by simp only [Dev.sdRead, h]

namespace Ch01
def hdB : Blk := headB 0
def ms (a : Nat) : Msg := ⟨.flt, blk .time 0, fltc, none, .fault 0, 0, 0, .port (.block (blk .time 0)) a, 3⟩
def opd (w : Word) (e : Option Nat) : Dev := { on.put march R.OP_STAT w with ops := [⟨march, 1, 0, e, none, none⟩] }
def md (i : Nat) : Msg := ⟨.ev, latB, blk .time 0, none, .predRsp 0 0, 0, i, .port (.block (blk .time 0)) i, 0⟩
def dr : Dev := { on.putB fltc R.FLTC_CTL 1 false with fabric := [md 0, md 1] }
def dt : Dev := { at_ on 10000000 with reqs := [⟨7, headB 3, latB, 0, false, true⟩] }

/-- States and operands that meet every hypothesis of StepRunsTheFrontCommand. -/
theorem witness_StepRunsTheFrontCommand :
    (∃ (s : State) (c : Instr) (rest : List Instr), s.pending = c :: rest) :=
  ⟨{ (st on) with pending := [.aliveToggle, .clear] }, .aliveToggle, [.clear], by decide +kernel⟩

/-- States and operands that meet every hypothesis of QueueLeavesCommandsAndIdles. -/
theorem witness_QueueLeavesCommandsAndIdles :
    (∃ (s : State), s.pending = []) ∧
    (∃ (s : State), s.dev.dead = true) ∧
    (∃ (s : State), s.dev.dead = false ∧ s.dev.quietCycle ∧ (s.dev.now + 1) % 800 ≠ 0) ∧
    (∃ (c : Instr) (s : State) (t : State), exec c s = .next t) :=
  ⟨⟨(st on), by decide +kernel⟩,
    ⟨State.reset, by decide +kernel⟩,
    ⟨(st on), by unfold Dev.quietCycle; decide +kernel⟩,
    ⟨.tapInstruction .bypass, State.reset, _, rfl⟩⟩

/-- States and operands that meet every hypothesis of StepKeepsMemoryCanonical. -/
theorem witness_StepKeepsMemoryCanonical :
    (∃ (s : State) (t : State), s.mem.wf ∧ step s = .next t) :=
  ⟨State.reset, _, ⟨by decide, by decide, by decide⟩, rfl⟩

/-- States and operands that meet every hypothesis of OnlyInternalScanStops. -/
theorem witness_OnlyInternalScanStops :
    (∃ (c : Instr) (s : State), ¬(c = Instr.tapInstruction TapInstr.scan ∧ s.dev.boot.debugOn = true)) ∧
    (∃ (s : State), s.dev.boot.debugOn = true) :=
  ⟨⟨.aliveToggle, (st on), by decide +kernel⟩,
    ⟨(st { on with boot := { on.boot with debugOn := true } }), by decide +kernel⟩⟩

/-- States and operands that meet every hypothesis of RegisterWriteStoresItsBits. -/
theorem witness_RegisterWriteStoresItsBits :
    (∃ (s : State) (b : Blk) (v : Word), (blkKind b).isSome = true ∧ s.dev.takes b 24 ∧ s.settled) ∧
    (∃ (s : State) (b : Blk) (t : BT) (n : ℕ) (o : ℕ) (r : Reg) (i : ℕ) (j : ℕ) (v : Word), blkKind b = some (t, n) ∧
      t ∈ [BT.jrnl, BT.march, BT.csirx, BT.plyarb, BT.mpg, BT.bchg, BT.plyagt] ∧ 256 ≤ o ∧ o < 4096 ∧ o % 4 = 0 ∧
      regAt t o = some (r, i, j) ∧ r.acc = Acc.rw ∧ s.dev.takes b o ∧ ¬(t = BT.jrnl ∧ o = 256) ∧ ¬(t = BT.mpg ∧ o <
      384 ∧ o % 32 = 12)) :=
  ⟨⟨(st on), sramp, 0x12345678, by unfold Dev.takes State.settled; decide +kernel⟩,
    ⟨(st on), (bchB 3), BT.bchg, 3, 0x118, R.BCHG_TRACK, 0, 0, 0x12345678, by unfold Dev.takes; decide +kernel⟩⟩

/-- States and operands that meet every hypothesis of RegisterReadReturnsStoredWord. -/
theorem witness_RegisterReadReturnsStoredWord :
    (∃ (s : State) (b : Blk), (blkKind b).isSome = true ∧ s.dev.hostOk = true ∧ s.dev.accErr b 24 = 0) ∧
    (∃ (s : State) (b : Blk) (t : BT) (n : ℕ) (o : ℕ) (r : Reg) (i : ℕ) (j : ℕ), blkKind b = some (t, n) ∧ t ∈
      [BT.jrnl, BT.march, BT.csirx, BT.bchg] ∧ 256 ≤ o ∧ o < 4096 ∧ o % 4 = 0 ∧ regAt t o = some (r, i, j) ∧ (r.acc =
      Acc.rw ∨ r.acc = Acc.ro) ∧ s.dev.hostOk = true ∧ s.dev.accErr b o = 0 ∧ s.dev.openBits t n o = 0 ∧
      s.dev.flt.slices[b.region].unit = none) :=
  ⟨⟨(st on), sramp, by decide +kernel⟩,
    ⟨(st on), (bchB 3), BT.bchg, 3, 0x118, R.BCHG_TRACK, 0, 0, by decide +kernel⟩⟩

/-- States and operands that meet every hypothesis of OtherShapesAreLogged. -/
theorem witness_OtherShapesAreLogged :
    (∃ (s : State) (addr : BitVec 24) (v : Word), s.dev.hostOk = true ∧ s.settled ∧ addr.toNat % 4 ≠ 0) :=
  ⟨(st on), 0x1235, 7, by unfold State.settled; decide +kernel⟩

/-- States and operands that meet every hypothesis of AbsentPagesReadZero. -/
theorem witness_AbsentPagesReadZero :
    (∃ (s : State) (addr : BitVec 24), s.dev.hostOk = true ∧ s.dev.ready = true ∧ s.dev.stage ≠ 8 ∧ addr.toNat % 4 = 0
      ∧ (addrAbsent addr.toNat = true ∨ blkKind (addrBlk addr.toNat) = none)) ∧
    (∃ (s : State) (b : Blk), (blkKind b).isSome = true ∧ s.dev.hostOk = true ∧ s.dev.accErr b 0 = 0) :=
  ⟨⟨(st on), 0xFFFFFC, by decide +kernel⟩,
    ⟨(st on), sramp, by decide +kernel⟩⟩

/-- States and operands that meet every hypothesis of Bar2ReachesInstalledSdram. -/
theorem witness_Bar2ReachesInstalledSdram :
    (∃ (s : State) (ofs : BitVec 28) (k : ℕ), s.dev.hostOk = true ∧ s.dev.ready = true ∧ s.dev.sdramUp ∧ 0 < k ∧
      ofs.toNat % 4 = 0 ∧ ofs.toNat + 4 * k ≤ 2 ^ 28 ∧ s.dev.winBase + ofs.toNat + 4 * k ≤ s.dev.installed ∧
      s.mem.poison = []) ∧
    (∃ (s : State) (ofs : BitVec 28) (bs : List (Option Byte)), s.dev.hostOk = true ∧ s.dev.ready = true ∧
      s.dev.sdramUp ∧ bs ≠ [] ∧ ofs.toNat % 4 = 0 ∧ bs.length % 4 = 0 ∧ ofs.toNat + bs.length ≤ 2 ^ 28 ∧ s.dev.winBase
      + ofs.toNat + bs.length ≤ s.dev.installed) :=
  ⟨⟨(st (sd on)), 0x40, 3, by unfold Dev.sdramUp; decide +kernel⟩,
    ⟨(st (sd on)), 0x40, [some 5, none, some 7, some 8], by unfold Dev.sdramUp; decide +kernel⟩⟩

/-- States and operands that meet every hypothesis of RoundsMoveTheirWinner. -/
theorem witness_RoundsMoveTheirWinner :
    (∃ (limit : ℕ) (l : List Cand) (x : Cand), winner limit l = some x ∧ ∃ y ∈ l, limit ≤ y.1.age) ∧
    (∃ (limit : ℕ) (l : List Cand) (x : Cand) (y : Cand), winner limit l = some x ∧ (∃ y ∈ l, limit ≤ y.1.age) ∧ y ∈ l
      ∧ limit ≤ y.1.age ∧ y.1.age = x.1.age) ∧
    (∃ (limit : ℕ) (l : List Cand) (x : Cand) (y : Cand), winner limit l = some x ∧ (∀ y ∈ l, y.1.age < limit) ∧ y ∈ l
      ∧ y.1.cls.prio = x.1.cls.prio ∧ y.1.age = x.1.age) ∧
    (∃ (s : State) (a : ArbId) (x : Cand), s.dev.dead = false ∧ s.dev.getB fltc R.FLTC_CTL 1 = false ∧ (∀ y ∈
      s.dev.fabric, y.arb = some a → s.dev.unitStatus y.dst (bodyCell y) = 0) ∧ a ∉ s.dev.rounds ∧ (∀ (b : Blk), a =
      ArbId.block b → s.dev.flt.slices[b.region].unit = none) ∧ winner (ageLimit a) (List.filter (fun (y : Cand) =>
      s.dev.eligible a y.1) (headsAt a s.dev.fabric.zipIdx [])) = some x) ∧
    (∃ (s : State) (a : ArbId), (∀ y ∈ s.dev.fabric, y.arb = some a → s.dev.unitStatus y.dst (bodyCell y) = 0) ∧ a ∈
      s.dev.rounds) :=
  ⟨⟨3, [((ms 0), 0), ((ms 1), 1)], ((ms 0), 0), by decide +kernel⟩,
    ⟨3, [((ms 0), 0), ((ms 1), 1)], ((ms 0), 0), ((ms 1), 1), by decide +kernel⟩,
    ⟨5, [((ms 0), 0), ((ms 1), 1)], ((ms 0), 0), ((ms 1), 1), by decide +kernel⟩,
    ⟨(st dr), (.block (blk .time 0)), ((md 0), 0), by decide +kernel, by decide +kernel, by decide +kernel, by decide +kernel, fun b _ => (by decide +kernel : ∀ r : Fin 16, (st dr).dev.flt.slices[r].unit = none) b.region, by decide +kernel⟩,
    ⟨(st { dr with rounds := [.block (blk .time 0)] }), (.block (blk .time 0)), by decide +kernel⟩⟩

/-- States and operands that meet every hypothesis of TimedOutRequestsAreAnswered. -/
theorem witness_TimedOutRequestsAreAnswered :
    (∃ (s : State) (tag : ℕ) (r : Pend), s.dev.dead = false ∧ List.find? (fun (x : Pend) => decide (x.tag = tag ∧
      ¬x.timedOut = true ∧ s.dev.past x.sent 100 = true)) s.dev.reqs = some r ∧ (blkKind r.src).isSome = true) ∧
    (∃ (s : State) (tag : ℕ) (x : Msg) (r : Pend), s.dev.dead = false ∧ List.find? (fun (r : Pend) => decide (r.tag =
      tag ∧ r.timedOut = true)) s.dev.reqs = some r ∧ r.carried = true ∧ List.find? (fun (x : Msg) => decide (x.tag =
      tag ∧ x.cls = Cls.rsp ∧ x.loc = Loc.inbox ∧ x.status ≠ 5)) s.dev.fabric = some x) ∧
    (∃ (s : State) (tag : ℕ) (r : Pend), s.dev.dead = false ∧ List.find? (fun (r : Pend) => decide (r.tag = tag ∧
      r.timedOut = true)) s.dev.reqs = some r ∧ r.carried = false) ∧
    (∃ (s : State) (b : Blk) (o : ℕ) (write : Bool), (blkKind b).isSome = true ∧ b ≠ hif ∧ o < 4096 ∧ o % 4 = 0 ∧
      s.dev.hostOk = true ∧ s.dev.accErr b o = 0) :=
  ⟨⟨(st dt), 7, ⟨7, headB 3, latB, 0, false, true⟩, by decide +kernel⟩,
    ⟨(st { on with reqs := [⟨3, hdB, blk .lattice 0, 0, true, true⟩], fabric := [{ ms 0 with cls := .rsp, loc := .inbox, tag := 3 }] }), 3, { ms 0 with cls := .rsp, loc := .inbox, tag := 3 }, ⟨3, hdB, blk .lattice 0, 0, true, true⟩, by decide +kernel⟩,
    ⟨(st { on with reqs := [⟨3, hif, march, 0, true, false⟩] }), 3, ⟨3, hif, march, 0, true, false⟩, by decide +kernel⟩,
    ⟨(st on), march, 0x100, true, by decide +kernel⟩⟩

/-- States and operands that meet every hypothesis of EnabledBlocksWakeUp. -/
theorem witness_EnabledBlocksWakeUp :
    (∃ (s : State) (b : Blk), s.dev.takes b 8 ∧ s.dev.getB b R.BLK_CTL 0 = false ∧ (s.dev.wakeReq.any fun (w : ℕ ×
      Blk) => decide (w.2 = b)) = false) ∧
    (∃ (s : State) (b : Blk), s.dev.takes b 8 ∧ s.dev.getB b R.BLK_CTL 0 = true) ∧
    (∃ (s : State) (r : Fin 16), s.dev.dead = false ∧ s.dev.wakeDue r = true) :=
  ⟨⟨(st on), sramp, by unfold Dev.takes; decide +kernel⟩,
    ⟨(st (on.putB sramp R.BLK_CTL 0 true)), sramp, by unfold Dev.takes; decide +kernel⟩,
    ⟨(st ((at_ on 100000).wakeAsk sramp)), sramp.region, by decide +kernel⟩⟩

/-- States and operands that meet every hypothesis of SoftResetsCastShadows. -/
theorem witness_SoftResetsCastShadows :
    (∃ (s : State) (b : Blk) (t : BT) (n : ℕ), s.dev.takes b 8 ∧ blkKind b = some (t, n) ∧ standsAlone t = true ∧
      s.dev.inReset b = false ∧ s.dev.opBusy b = false ∧ s.dev.opDoneNow b = false ∧ (∀ (c : ℕ), s.dev.cellFenced b c
      = false) ∧ (∀ x ∈ s.dev.fabric, x.dst = b → x.loc ≠ Loc.inbox) ∧ ∀ x ∈ s.dev.reqs, x.src ≠ b ∧ x.dst ≠ b) ∧
    (∃ (s : State) (b : Blk), s.dev.takes b 8 ∧ s.dev.inReset b = true) ∧
    (∃ (s : State) (b : Blk) (t : BT) (n : ℕ), s.dev.dead = false ∧ blkKind b = some (t, n) ∧ t ∈ [BT.optab, BT.boot,
      BT.sdc, BT.sramp, BT.march, BT.csirx, BT.mpg, BT.plyagt, BT.jrnl] ∧ s.dev.inReset b = true ∧ (s.dev.wakeReq.any
      fun (w : ℕ × Blk) => decide (w.2 = b)) = false) :=
  ⟨⟨st on, sramp, .sramp, 0, by unfold Dev.takes; decide +kernel, by decide, by decide, by decide +kernel, by decide +kernel, by decide +kernel, fun _ => rfl, by decide, by decide⟩,
    ⟨(st (on.putB sramp R.BLK_CTL 1 true)), sramp, by unfold Dev.takes; decide +kernel⟩,
    ⟨(st ((on.putB sramp R.BLK_CTL 1 true).put sramp R.SRAMP_ACC_ADDR 44)), sramp, .sramp, 0, by decide +kernel⟩⟩

/-- States and operands that meet every hypothesis of HostFencesAndClears. -/
theorem witness_HostFencesAndClears :
    (∃ (s : State) (b : Blk) (t : BT) (n : ℕ), s.dev.takes b 8 ∧ blkKind b = some (t, n) ∧ standsAlone t = true ∧
      neverFenced b = false ∧ s.dev.fence b = 0 ∧ s.dev.opBusy b = false ∧ s.dev.opDoneNow b = false ∧ (∀ x ∈
      s.dev.fabric, x.dst = b → x.loc ≠ Loc.inbox) ∧ ∀ x ∈ s.dev.reqs, x.dst ≠ b) ∧
    (∃ (s : State) (b : Blk), s.dev.takes b 8 ∧ (neverFenced b = true ∨ s.dev.fence b ≠ 0)) ∧
    (∃ (s : State) (b : Blk) (n : ℕ), s.dev.takes b 8 ∧ (blkKind b = some (BT.march, n) ∨ blkKind b = some (BT.csirx,
      n)) ∧ (s.dev.fence b = 1 ∨ s.dev.fence b = 2) ∧ (b, 1) ∉ s.dev.flt.fences ∧ s.dev.inReset b = false) ∧
    (∃ (s : State) (b : Blk), s.dev.takes b 8 ∧ (s.dev.fence b = 0 ∨ s.dev.fence b = 3 ∨ (b, 1) ∈ s.dev.flt.fences)) :=
  ⟨⟨(st on), sramp, .sramp, 0, by unfold Dev.takes; decide +kernel⟩,
    ⟨(st on), hif, by unfold Dev.takes; decide +kernel⟩,
    ⟨(st (on.putF march R.BLK_CTL 5 4 1)), march, 0, by unfold Dev.takes; decide +kernel⟩,
    ⟨(st on), march, by unfold Dev.takes; decide +kernel⟩⟩

/-- States and operands that meet every hypothesis of RetireFreesEndedEntries. -/
theorem witness_RetireFreesEndedEntries :
    (∃ (s : State) (n : BitVec 8), s.dev.takes optab 260 ∧ ∀ (o : OpRec), List.find? (fun (o : OpRec) => decide
      (o.entry = some n.toNat)) s.dev.ops = some o → s.dev.opBusy o.blk = true) ∧
    (∃ (s : State) (n : BitVec 8) (o : OpRec), s.dev.takes optab 260 ∧ List.find? (fun (o : OpRec) => decide (o.entry
      = some n.toNat)) s.dev.ops = some o ∧ s.dev.opBusy o.blk = false) :=
  ⟨⟨(st (opd 0x20000005 (some 4))), 4, by unfold Dev.takes; decide +kernel⟩,
    ⟨(st (opd 0x30000005 (some 4))), 4, ⟨march, 1, 0, some 4, none, none⟩, by unfold Dev.takes; decide +kernel⟩⟩

/-- States and operands that meet every hypothesis of OperationsQueueRunAndAbort. -/
theorem witness_OperationsQueueRunAndAbort :
    (∃ (s : State) (n : ℕ) (o : OpRec), s.dev.dead = false ∧ s.dev.freeEntry = some n ∧ List.find? (fun (o : OpRec) =>
      o.entry.isNone) s.dev.ops = some o ∧ s.dev.opTakes o = true ∧ s.dev.opState o.blk = 1 ∧ (∀ (m : Fin 40),
      s.dev.patNext m = false) ∧ s.dev.ops.length < 256) ∧
    (∃ (s : State) (b : Blk), s.dev.takes b 32 ∧ s.dev.opState b = 1) ∧
    (∃ (s : State) (b : Blk), s.dev.takes b 32 ∧ s.dev.opState b = 2) ∧
    (∃ (s : State) (b : Blk), s.dev.takes b 32 ∧ s.dev.opBusy b = false) ∧
    (∃ (s : State) (t : ℕ), s.dev.dead = false ∧ s.dev.fullAt = some t ∧ s.dev.fullSaid = false ∧ s.dev.past t 100000
      = true ∧ s.dev.getB optab R.FLT_MASK 0 = false) :=
  ⟨⟨(st (({ opd 0x10000005 none with now := 0 }).putF march R.BLK_CTL 5 4 1)), 0, ⟨march, 1, 0, none, none, none⟩, by decide +kernel⟩,
    ⟨(st (opd 0x10000005 none)), march, by unfold Dev.takes; decide +kernel⟩,
    ⟨(st (opd 0x20000005 (some 0))), march, by unfold Dev.takes; decide +kernel⟩,
    ⟨(st (opd 0x30000005 none)), march, by unfold Dev.takes; decide +kernel⟩,
    ⟨(st { at_ on 100000000 with fullAt := some 0 }), 0, by decide +kernel⟩⟩

/-- States and operands that meet every hypothesis of PendingVectorsSendWhenOpened. -/
theorem witness_PendingVectorsSendWhenOpened :
    (∃ (s : State) (v : Fin 64) (viaMask : Bool), s.dev.takes hif (if viaMask = true then 2060 + 16 * ↑v else 296 + 4
      * (↑v / 32)) ∧ s.dev.vPend ↑v = true ∧ s.dev.vGapOver v = true ∧ if viaMask = true then s.dev.getB hif
      R.HIF_EVT_EN (↑v % 32) (↑v / 32) = true ∧ s.dev.getB hif R.MSIX_CTL 0 ↑v = true else s.dev.getB hif R.HIF_EVT_EN
      (↑v % 32) (↑v / 32) = false ∧ s.dev.getB hif R.MSIX_CTL 0 ↑v = false) ∧
    (∃ (s : State) (v : Fin 64), s.dev.dead = false ∧ s.dev.vecs[v].held = true ∧ s.dev.vGapOver v = true ∧
      s.dev.vOpen ↑v = true) :=
  ⟨⟨(st ((on.putB hif R.HIF_EVT_PEND 3 true 0).putB hif R.HIF_EVT_EN 3 true 0)), 3, true, by unfold Dev.takes; decide +kernel⟩,
    ⟨(st (((({ on with vecs := on.vecs.set 3 ⟨true, none, 2, none⟩ } : Dev).putB hif R.HIF_EVT_PEND 3 true 0).putB hif R.HIF_EVT_EN 3 true 0).putB hif R.MSIX_CTL 0 false 3)), 3, by decide +kernel⟩⟩

end Ch01

namespace Ch03
def tgt (b : Blk) : Word := wd (b.region.val + b.block.val * 16)
def wL2 : List Word := W [(0,2),(4, tgt march),(5, 0x10000134)] 16
def wL3 : List Word := W [(0,2),(4, tgt (mpvB 0)),(5, 0x10000134)] 16
/-- The value of an answer, if it has one that meets the test. -/
def okWith {α ε : Type} (p : α → Bool) : Except ε α → Bool
  | .ok a => p a
  | .error _ => false
theorem okWith_iff {α ε : Type} {p : α → Bool} {x : Except ε α} (h : okWith p x = true) : ∃ a, x = .ok a ∧ p a = true := by
  cases x with
  | ok a => exact ⟨a, rfl, h⟩
  | error e => cases h
/-- The SDRAM of a plain bobbin image at 4096 and the descriptor that loads it; then the same with its CRC. -/
def lB : List (Nat × Byte) := [(0, 3), (9, 16), (16, 5), (4096, 1), (4098, 66), (4099, 90), (4100, 1), (4164, 1)]
def cB : Word := crc32 ((mc lB).bytes 4096 0xFFC)
def mB : Mem := mc (lB ++ crcCells 8188 cB)
theorem mB_image : imageOf (mB.bytes 4096 4096) false = .ok ⟨bytesWords (mB.bytes 4096 4096), false⟩ := by
  unfold imageOf
  dsimp only
  rw [word_of_bytes _ _ (by decide), word_of_bytes _ _ (by decide), word_of_bytes _ _ (by decide), bytes_take _ _ (by decide),
    show mB.bytes 4096 0xFFC = (mc lB).bytes 4096 0xFFC from bytes_congr fun i hi => byte_beside lB 8188 _ cB (.inl (by omega)), if_neg]
  rintro (h | h | h)
  · revert h; decide +kernel
  · revert h; decide +kernel
  · exact h (word_crc lB 8188 cB (by decide)).symm
theorem mB_read (d : Dev) (h : d.sdStatus mB 4096 4096 false = 0) :
    d.bobbinRead mB 4096 false = .ok ⟨bytesWords (mB.bytes 4096 4096), false⟩ := by
  unfold Dev.bobbinRead
  rw [if_neg (by decide)]
  simp only [Bool.false_eq_true, if_false, sdRead_of_status h]
  exact mB_image
def wB : List Word := W [(0,3),(2,0x1000),(4,5)] 16
/-- The SDRAM of a skein at 1024, its bobbin map at 256, the descriptor; then the same with its CRC. -/
def lS : List (Nat × Byte) := [(0, 1), (9, 4), (1024, 1), (1026, 83), (1027, 90), (1028, 1), (1032, 77), (1068, 1), (1081, 1),
  (1097, 32), (1104, 128), (1105, 4)]
def cS : Word := crc32 ((mc lS).bytes 1024 0x3FC)
def mS : Mem := mc (lS ++ crcCells 2044 cS)
def dSk : Dev := (sd (ringOn on)).bobMod 0 fun b => { b with gen := 1 }
theorem mS_skein : okWith (fun k => !k.web) (dSk.skeinCheck mS 0 (mS.bytes 1024 1024)) = true := by
  unfold Dev.skeinCheck
  dsimp only
  rw [if_neg]
  · decide +kernel
  · rw [word_of_bytes _ _ (by decide), word_of_bytes _ _ (by decide), word_of_bytes _ _ (by decide), bytes_take _ _ (by decide),
      show mS.bytes 1024 0x3FC = (mc lS).bytes 1024 0x3FC from bytes_congr fun i hi => byte_beside lS 2044 _ cS (.inl (by omega))]
    rintro (h | h | h)
    · revert h; decide +kernel
    · revert h; decide +kernel
    · exact h (word_crc lS 2044 cS (by decide)).symm

/-- A ring serves the load of a plain image whose checks pass. -/
theorem bobbin_meets : (∃ (s : State) (i : Fin 8) (ws : List Word) (img : BobBuf) (n : ℕ), s.dev.ringServes s.mem i ws ∧ descKind ws = 3 ∧ i ∉ s.dev.early ∧ s.dev.permits i 3 = true ∧ s.dev.descWait i ws = 0 ∧ n = fld (ws.getD 4 0) 7 0 ∧ s.dev.bobbinRead s.mem (quadAt ws 8) (bit (ws.getD 4 0) 8) = Except.ok img) := by
  refine ⟨stm (sd (ringOn on)) mB, 0, wB, _, 5, ?_, ?_, ?_, ?_, ?_, ?_, mB_read _ ?_⟩
  · unfold Dev.ringServes Dev.sdramUp; decide +kernel
  all_goals decide +kernel

/-- A ring serves a skein that passes every check. -/
theorem skein_meets : ∃ (s : State) (i : Fin 8) (ws : List Word) (bs : List Byte) (k : Skein), s.dev.ringServes s.mem i ws ∧ s.dev.permits i (descKind ws) = true ∧ s.dev.descWait i ws = 0 ∧ descKind ws = 1 ∧ s.dev.inside (quadAt ws 8) 1024 1024 = true ∧ s.dev.sdRead s.mem (quadAt ws 8) 1024 = .ok bs ∧ s.dev.skeinCheck s.mem i bs = .ok k ∧ k.web = false ∧ s.dev.webLayer = false := by
  obtain ⟨k, hk, hw⟩ := okWith_iff mS_skein
  have h : dSk.sdStatus mS 1024 1024 false = 0 := by decide +kernel
  refine ⟨stm dSk mS, 0, W [(0, 1), (2, 0x400)] 16, mS.bytes 1024 1024, k, ?_, ?_, ?_, ?_, ?_, sdRead_of_status h, hk,
    by simpa using hw, ?_⟩
  · unfold Dev.ringServes Dev.sdramUp; decide +kernel
  all_goals decide +kernel


/-- States and operands that meet every hypothesis of RingsTakeDoorbellsAndComplete. -/
theorem witness_RingsTakeDoorbellsAndComplete :
    (∃ (s : State) (i : Fin 8) (v : Word), s.dev.takes creelB (276 + 32 * ↑i)) ∧
    (∃ (s : State) (i : Fin 8) (v : Word), s.dev.takes creelB (268 + 32 * ↑i) ∧ bit v 0 = true) ∧
    (∃ (s : State) (i : Fin 8) (v : Word), s.dev.takes creelB (268 + 32 * ↑i) ∧ bit v 0 = false) ∧
    (∃ (s : State) (i : Fin 8) (ws : List Word), s.dev.ringServes s.mem i ws ∧ s.dev.permits i (descKind ws) = true ∧
      s.dev.descWait i ws = 0 ∧ descKind ws = 0) ∧
    (∃ (s : State) (i : Fin 8) (ws : List Word) (bs : List Byte) (k : Skein), s.dev.ringServes s.mem i ws ∧
      s.dev.permits i (descKind ws) = true ∧ s.dev.descWait i ws = 0 ∧ descKind ws = 1 ∧ s.dev.inside (quadAt ws 8)
      1024 1024 = true ∧ s.dev.sdRead s.mem (quadAt ws 8) 1024 = Except.ok bs ∧ s.dev.skeinCheck s.mem i bs =
      Except.ok k ∧ k.web = false ∧ s.dev.webLayer = false) ∧
    (∃ (s : State) (i : Fin 8) (ws : List Word) (b : Blk), s.dev.ringServes s.mem i ws ∧ s.dev.permits i (descKind ws)
      = true ∧ s.dev.descWait i ws = 0 ∧ descKind ws = 2 ∧ b = (⟨Fin.ofNat 16 (fld (ws.getD 4 0) 3 0), Fin.ofNat 64 (fld (ws.getD 4 0) 9 4)⟩ : Blk) ∧ fld (ws.getD 4 0) 31 28 = 0 ∧ fld (ws.getD 5 0) 31 28 = 1 ∧ (blkKind
      b).isSome = true ∧ s.dev.accErr b 32 = 0 ∧ s.dev.opState b = 0 ∧ (∀ (k : BT × ℕ), blkKind b = some k → fld
      (ws.getD 5 0) 15 8 ∈ opCodes k.1) ∧ s.dev.flt.slices[b.region].unit = none ∧ s.dev.freeEntry = none) ∧
    (∃ (s : State) (i : Fin 8) (ws : List Word) (b : Blk) (n : ℕ), s.dev.ringServes s.mem i ws ∧ s.dev.permits i
      (descKind ws) = true ∧ s.dev.descWait i ws = 0 ∧ descKind ws = 2 ∧ b = (⟨Fin.ofNat 16 (fld (ws.getD 4 0) 3 0), Fin.ofNat 64 (fld (ws.getD 4 0) 9 4)⟩ : Blk) ∧ fld (ws.getD 4 0) 31 28 = 0 ∧ fld (ws.getD 5 0) 31 28
      = 1 ∧ (blkKind b).isSome = true ∧ s.dev.accErr b 32 = 0 ∧ s.dev.opState b = 0 ∧ (∀ (k : BT × ℕ), blkKind b =
      some k → fld (ws.getD 5 0) 15 8 ∈ opCodes k.1) ∧ s.dev.flt.slices[b.region].unit = none ∧ s.dev.freeEntry = some
      n ∧ s.dev.ops.length < 255 ∧ (∀ o ∈ s.dev.ops, o.entry.isSome = true ∧ o.blk ≠ b) ∧ (∃ (k : ℕ), blkKind b = some
      (BT.mpv, k)) ∧ s.dev.fenced b = false ∧ s.dev.inReset b = false) :=
  ⟨⟨(st (ringOn on)), 0, 5, by unfold Dev.takes; decide +kernel⟩,
    ⟨(st (on.putB creelB R.CREEL_RSTAT 4 true 0)), 0, 0x101, by unfold Dev.takes; decide +kernel⟩,
    ⟨(st (ringOn on)), 0, 0x700, by unfold Dev.takes; decide +kernel⟩,
    ⟨(st (sd (ringOn on))), 0, (W [] 16), by unfold Dev.ringServes Dev.sdramUp; decide +kernel⟩,
    skein_meets,
    ⟨stm { sd (ringOn on) with ops := (List.range 256).map fun n => ⟨optab, 1, 0, some n, none, none⟩ } (m0.write 0 (wordsBytes wL2)), 0, wL2, march, by unfold Dev.ringServes Dev.sdramUp; decide +kernel, by decide +kernel, by decide +kernel, by decide +kernel, by decide +kernel, by decide +kernel, by decide +kernel, by decide +kernel, by decide +kernel, by decide +kernel, fun k hk => by cases (show some _ = some k from hk); decide, by decide +kernel, by decide +kernel⟩,
    ⟨stm (sd (ringOn on)) (m0.write 0 (wordsBytes wL3)), 0, wL3, mpvB 0, 0, by unfold Dev.ringServes Dev.sdramUp; decide +kernel, by decide +kernel, by decide +kernel, by decide +kernel, by decide +kernel, by decide +kernel, by decide +kernel, by decide +kernel, by decide +kernel, by decide +kernel, fun k hk => by cases (show some _ = some k from hk); decide, by decide +kernel, by decide +kernel, by decide +kernel, by decide +kernel, ⟨0, by decide⟩, by decide +kernel, by decide +kernel⟩⟩

/-- States and operands that meet every hypothesis of BobbinsAndKeysLoad. -/
theorem witness_BobbinsAndKeysLoad :
    (∃ (s : State) (i : Fin 8) (ws : List Word) (img : BobBuf) (n : ℕ), s.dev.ringServes s.mem i ws ∧ descKind ws = 3
      ∧ i ∉ s.dev.early ∧ s.dev.permits i 3 = true ∧ s.dev.descWait i ws = 0 ∧ n = fld (ws.getD 4 0) 7 0 ∧
      s.dev.bobbinRead s.mem (quadAt ws 8) (bit (ws.getD 4 0) 8) = Except.ok img) ∧
    (∃ (s : State) (k : Fin 32), s.dev.takes keyst 288 ∧ s.dev.getB bootB R.BOOT_STAT 5 = false) ∧
    (∃ (s : State) (k : Fin 32), s.dev.takes keyst 288 ∧ s.dev.getB bootB R.BOOT_STAT 5 = true) :=
  ⟨bobbin_meets,
    ⟨(st { on with keyStage := [1,2,3,4,5,6,7,8] }), 3, by unfold Dev.takes; decide +kernel⟩,
    ⟨(st (on.putB bootB R.BOOT_STAT 5 true)), 3, by unfold Dev.takes; decide +kernel⟩⟩

/-- States and operands that meet every hypothesis of LayersAreStagedStartedAndEnded. -/
theorem witness_LayersAreStagedStartedAndEnded :
    (∃ (s : State) (k : Skein), s.dev.takes creelB 512 ∧ s.dev.staged = some k ∧ bit k.flags 0 = true ∧ k.goSeen =
      false) ∧
    (∃ (s : State), s.dev.takes creelB 512 ∧ s.dev.staged = none) ∧
    (∃ (s : State), s.dev.takes creelB 512 ∧ s.dev.running = none ∧ s.dev.canStart = false) ∧
    (∃ (s : State), s.dev.takes creelB 512 ∧ s.dev.running = none ∧ s.dev.canStart = true) ∧
    (∃ (s : State) (k : Skein), s.dev.dead = false ∧ s.dev.ready = true ∧ s.dev.running = none ∧ s.dev.staged = some k
      ∧ (bit k.flags 0 = false ∨ k.goSeen = true) ∧ k.abortSeen = false ∧ k.planAddr = 0 ∧ k.reqMask &&&
      ~~~(List.foldl (fun (e : Dev) (h : Fin 32) => e.fmapPromote h) s.dev (List.finRange 32)).presentSet s.pending =
      0) ∧
    (∃ (s : State) (k : Skein), s.dev.takes creelB 512 ∧ s.dev.running = some k ∧ s.dev.runState ≠ 3 ∧
      s.dev.rep.aborted = false) ∧
    (∃ (s : State) (k : Skein), s.dev.dead = false ∧ s.dev.running = some k ∧ k.web = false ∧ s.dev.sdramUp ∧ (∀ (h :
      Fin 32), s.dev.headRuns h = false) ∧ s.dev.poolRead_ = true ∧ s.dev.ply.items = [] ∧ (∀ (t : ℕ) (w : Bool),
      s.dev.rep.cut = some (t, w) → t ≠ s.dev.now) ∧ k.repAddr + (repBytes k s.dev.rep (if s.dev.rep.aborted = true
      then 2 else if s.dev.rep.entries = [] then 0 else 1) s.dev.ptpNs).length ≤ s.dev.installed) :=
  ⟨⟨(st { on with staged := some { sk with flags := 1 } }), { sk with flags := 1 }, by unfold Dev.takes; decide +kernel⟩,
    ⟨(st on), by unfold Dev.takes; decide +kernel⟩,
    ⟨(st on), by unfold Dev.takes; decide +kernel⟩,
    ⟨(st { on with staged := some sk }), by unfold Dev.takes; decide +kernel⟩,
    ⟨(st { on with staged := some sk }), sk, by decide +kernel⟩,
    ⟨(st (lay false)), _, by unfold Dev.takes; decide +kernel, rfl, by decide +kernel, by decide +kernel⟩,
    ⟨(st { (sd on) with running := some sk }), sk, by decide +kernel, by decide +kernel, by decide +kernel, by unfold Dev.sdramUp; decide +kernel, by decide +kernel, by decide +kernel, by decide +kernel, by intro t w h; exact absurd ((show none = some (t, w) from h)) (by simp), by decide +kernel⟩⟩

end Ch03

namespace Ch04
def bobW : List Word := W [(0x11, 5), (0x14, 1), (0x15, 1000000),(0x16, 1000000),(0x17,1),(0x18,1000),(0x19,1000),(0x1A,1000),(0x1B,1000)] 1024
def layB : Dev := { (lay false).bobMod 0 fun b => { b with gen := 1, buf0 := ⟨bobW, false⟩ } with running := some { sk with headMask := 1, bobs := [0] } }
def fm2 : FMap := ⟨2, -1000, 1000, -1000, 1000, [(-8000, -8000, 0), (8000, -8000, 0), (-8000, 8000, 0), (8000, 8000, 0)], 5⟩
def jrec : FRec := ⟨[3, 9, 0, 0, 1, 0, 0, 0], 0, false, false⟩
def brec : FRec := ⟨[7, 9, 0, 0, 0, 0, 0, 0], 0, false, false⟩
def outs (d : Dev) (k : Nat) : Dev := (d.cellMod (headCell 0 0) fun c => { c with out := some (k, 2560, 0) }).cellMod (headCell 0 1) fun c => { c with out := some (k, 5120, 0) }
def eg (k : Nat) : Edge := ⟨en k, 0, false⟩
def rn : Run := ⟨0, 0, false, 0, 1⟩
def opr (d : Dev) (b : Blk) (c p : Nat) : Dev := { d.put b R.OP_STAT 0x20000009 with ops := [⟨b, c, p, some 0, none, none⟩] }
/-- A head that takes a jump of 1 nm. -/
def jS : State := st (hd layB 0 fun x => { x with drf := { x.drf with listLen := 1, nextRec := 1, fetch := [jrec] }, trv := { x.trv with live := some fm2 } })
theorem jump_covered : jS.dev.jumpCovered 0 (rp (rword jrec.w 4, rword jrec.w 5)) = true := by decide +kernel

/-- The correction unit of head 0 disabled. -/
def corOff : Dev := layB.put (headB 0) R.COR_CTL 0 0
def bS : State := st (hd corOff 0 fun x => { x with drf := { x.drf with listLen := 1, nextRec := 1, fetch := [brec] } })

/-- The SDRAM of a field map of 17 by 17 equal nodes at 0, without and with its CRC. -/
def lF : List (Nat × Byte) := [(0, 1), (2, 70), (3, 90), (4, 17), (12, 16), (20, 16)]
def cF : Word := crc32 ((mc lF).bytes 0 0x3C ++ (mc lF).bytes 0x40 (fmapSize - 0x40))
def mF : Mem := mc (lF ++ crcCells 0x3C cF)
theorem mF_map : ∃ f, fmapOf (mF.bytes 0 fmapSize) = some f := by
  unfold fmapOf
  dsimp only
  rw [bytes_take _ _ (Nat.le_refl _), if_neg]
  · exact ⟨_, rfl⟩
  · rw [bytes_take _ _ (by decide), bytes_drop, word_of_bytes _ _ (by decide), word_of_bytes _ _ (by decide), word_of_bytes _ _ (by decide),
      word_of_bytes _ _ (by decide), word_of_bytes _ _ (by decide), word_of_bytes _ _ (by decide), word_of_bytes _ _ (by decide),
      show mF.bytes 0 0x3C = (mc lF).bytes 0 0x3C from bytes_congr fun i hi => byte_beside lF 0x3C _ cF (.inl (by omega)),
      show mF.bytes (0 + 0x40) (fmapSize - 0x40) = (mc lF).bytes (0 + 0x40) (fmapSize - 0x40) from bytes_congr fun i hi => byte_beside lF 0x3C _ cF (.inr (by omega))]
    rintro (h | h | h | h | h | h | h)
    · simp [Mem.bytes] at h
    · revert h; decide +kernel
    · revert h; decide +kernel
    · revert h; decide +kernel
    · revert h; decide +kernel
    · revert h; decide +kernel
    · exact h (word_crc lF 0x3C cF (by decide))
/-- The head 0 lane's store holds the bytes while FMAP_FETCH runs. -/
def sF (l : List Byte) : State := st { opr on (headB 0) 2 0 with lanes := on.lanes.set 0 { on.lanes[0] with store := l } }
theorem sF_store (l : List Byte) : (sF l).dev.lanes[headLane 0].store = l := rfl

/-- A map is fetched from a lane and loaded from SDRAM. -/
theorem maps_meet : (∃ (s : State) (h : Fin 32) (f : FMap), s.dev.dead = false ∧ s.dev.opRunning (headB h) 2 = true ∧ fmapSize ≤ s.dev.lanes[headLane h].store.length ∧ fmapOf s.dev.lanes[headLane h].store = some f ∧ s.dev.running = none) ∧ (∃ (s : State) (h : Fin 32) (bs : List Byte) (f : FMap), s.dev.dead = false ∧ s.dev.opRunning (headB h) 1 = true ∧ s.dev.sdRead s.mem (s.dev.addr2 (headB h) R.TRV_FMAP_ADDR_LO R.TRV_FMAP_ADDR_HI) fmapSize = Except.ok bs ∧ fmapOf bs = some f ∧ s.dev.running = none) := by
  obtain ⟨f, hf⟩ := mF_map
  refine ⟨⟨sF (mF.bytes 0 fmapSize), 0, f, by decide +kernel, by decide +kernel, ?_, by rw [sF_store]; exact hf, by decide +kernel⟩,
    ⟨stm (opr (sd on) (headB 0) 1 0) mF, 0, mF.bytes 0 fmapSize, f, by decide +kernel, by decide +kernel,
      sdRead_of_status (by decide +kernel), hf, by decide +kernel⟩⟩
  rw [sF_store]
  simp [Mem.bytes]


/-- States and operands that meet every hypothesis of RecordsAreFetchedIntoTheMoveQueue. -/
theorem witness_RecordsAreFetchedIntoTheMoveQueue :
    (∃ (s : State) (h : Fin 32), s.dev.dead = false ∧ s.dev.taking h = true ∧ s.dev.webLayer = false ∧
      s.dev.heads[h].drf.nextRec < s.dev.heads[h].drf.listLen ∧ s.dev.heads[h].drf.fetch.length +
      s.dev.heads[h].drf.items.length < 256 ∧ s.dev.sdStatus s.mem (s.dev.heads[h].drf.listAddr + 32 *
      s.dev.heads[h].drf.nextRec) 32 false = 0) ∧
    (∃ (s : State) (h : Fin 32) (r : FRec) (rest : List FRec) (bob : ℕ), s.dev.dead = false ∧ s.dev.taking h = true ∧
      s.dev.webLayer = false ∧ s.dev.ply.heads[h].item = none ∧ s.dev.heads[h].drf.poly = none ∧
      s.dev.heads[h].drf.fetch = r :: rest ∧ r.poison = false ∧ rkind r.w = 3 ∧ bob = fld (r.w.getD 0 0) 11 4 ∧
      s.dev.named bob = true ∧ s.dev.growth h = none ∧ ((s.dev.bind bob).1.bobBuf bob (s.dev.bind bob).2).motionOk =
      true ∧ s.dev.jumpCovered h (rp (rword r.w 4, rword r.w 5)) = true ∧ s.dev.heads[h].drf.moves.length < 32 ∧
      s.noLoads ∧ vlen (↑(rword r.w 4) - s.dev.heads[h].drf.endX) (↑(rword r.w 5) - s.dev.heads[h].drf.endY) ≠ 0 ∧
      s.dev.heads[h].held ≤ 48 ∧ s.dev.heads[h].drf.waits = false) ∧
    (∃ (s : State) (h : Fin 32) (r : FRec) (rest : List FRec), s.dev.dead = false ∧ s.dev.taking h = true ∧
      s.dev.webLayer = false ∧ s.dev.ply.heads[h].item = none ∧ s.dev.heads[h].drf.poly = none ∧
      s.dev.heads[h].drf.fetch = r :: rest ∧ r.pool = false ∧ r.poison = false ∧ 7 ≤ rkind r.w ∧ (rkind r.w = 7 → fld
      (r.w.getD 3 0) 19 8 = 0) ∧ s.dev.growth h = none ∧ s.noLoads ∧ s.dev.corOn h = false ∧ s.dev.heads[h].drf.waits
      = false ∧ s.dev.heads[h].drf.inRun = false) ∧
    (∃ (s : State) (h : Fin 32), s.dev.taking h = true ∧ s.dev.webLayer = false ∧ s.dev.ply.heads[h].item = none ∧
      s.dev.heads[h].drf.poly = none ∧ s.dev.heads[h].drf.waits = true ∧ s.dev.heads[h].drf.inRun = false ∧ s.noLoads
      ∧ s.dev.corOn h = false) :=
  ⟨⟨(st (hd (lay false) 0 fun x => { x with drf := { x.drf with listLen := 3 } })), 0, by decide +kernel⟩,
    ⟨jS, 0, jrec, [], 0, by decide +kernel, by decide +kernel, by decide +kernel, by decide +kernel, by decide +kernel,
      by decide +kernel, by decide +kernel, by decide +kernel, by decide +kernel, by decide +kernel, by decide +kernel, by decide +kernel,
      jump_covered, by decide +kernel, by unfold State.noLoads; decide +kernel, by decide +kernel⟩,
    ⟨bS, 0, brec, [], by unfold State.noLoads; decide +kernel⟩,
    ⟨st (hd corOff 0 fun x => { x with drf := { x.drf with moves := [{ mv with kind := .wait }] } }), 0, by
      unfold State.noLoads; decide +kernel⟩⟩

/-- States and operands that meet every hypothesis of DrafterFollowsTheProfile. -/
theorem witness_DrafterFollowsTheProfile :
    (∃ (s : State) (h : Fin 32) (m : Move) (ms : List Move), s.dev.dead = false ∧ s.dev.up (headB h) = true ∧
      s.dev.heads[h].drf.tickAt ≠ some s.dev.tick ∧ s.dev.heads[h].drf.inLayer = true ∧ s.dev.webLayer = false ∧
      s.dev.headRuns h = true ∧ (s.dev.heads[h].drf.open_ = false ∨ ms ≠ []) ∧ s.dev.heads[h].drf.moves = m :: ms ∧
      m.started = true ∧ m.laser = false ∧ (m.kind = MKind.jump ∨ m.kind = MKind.runOut ∨ m.kind = MKind.runIn) ∧ m.t
      + 1 < phasesTime m.phases ∧ (s.dev.fmap h).isSome = true ∧ s.dev.running.isSome = true) ∧
    (∃ (s : State) (h : Fin 32), s.dev.dead = false ∧ s.dev.up (headB h) = true ∧ s.dev.heads[h].drf.tickAt ≠ some
      s.dev.tick ∧ s.dev.heads[h].drf.inLayer = false ∧ s.dev.webLayer = false) ∧
    (∃ (s : State) (h : Fin 32), s.dev.heads[h].drf.tickAt = some s.dev.tick) ∧
    (∃ (s : State) (h : Fin 32) (on_ : Bool), s.dev.takes (headB h) 256) ∧
    (∃ (s : State) (h : Fin 32) (v : Word), s.dev.takes (headB h) 272) ∧
    (∃ (s : State) (h : Fin 32) (i : Fin 3) (v : Word), s.dev.takes (headB h) (288 + 4 * ↑i)) :=
  ⟨⟨(st (hd (lay false) 0 fun x => { x with drf := { x.drf with moves := [mv] } })), 0, mv, [], by decide +kernel⟩,
    ⟨(st on), 3, by decide +kernel⟩,
    ⟨(st (hd on 3 fun x => { x with drf := { x.drf with tickAt := some 0 } })), 3, by decide +kernel⟩,
    ⟨(st on), 3, true, by unfold Dev.takes; decide +kernel⟩,
    ⟨(st on), 3, 55, by unfold Dev.takes; decide +kernel⟩,
    ⟨(st on), 3, 2, 55, by unfold Dev.takes; decide +kernel⟩⟩

/-- States and operands that meet every hypothesis of HostStartsQueueTheOperation. -/
theorem witness_HostStartsQueueTheOperation :
    (∃ (s : State) (c : Instr) (b : Blk) (code : ℕ) (tag : ℕ) (param : ℕ), hostStarts c = some (b, code, tag, param) ∧
      s.dev.takes b 32 ∧ s.dev.opState b = 0) ∧
    (∃ (s : State) (c : Instr) (b : Blk) (code : ℕ) (tag : ℕ) (param : ℕ), hostStarts c = some (b, code, tag, param) ∧
      s.dev.takes b 32 ∧ s.dev.opState b ≠ 0) :=
  ⟨⟨(st on), (.calRun 2 7), (bchB 2), 1, 7, 0, by unfold Dev.takes; decide +kernel⟩,
    ⟨st (on.put (bchB 2) R.OP_STAT 0x20000009), (.calRun 2 7), (bchB 2), 1, 7, 0, by unfold Dev.takes; decide +kernel⟩⟩

/-- States and operands that meet every hypothesis of TravellerTicksMeasureOrExtrapolate. -/
theorem witness_TravellerTicksMeasureOrExtrapolate :
    (∃ (s : State) (h : Fin 32) (k : ℕ) (x : ℤ × ℤ) (y : ℤ × ℤ) (fm : FMap) (sk : Skein), s.dev.dead = false ∧
      s.dev.mirrors h = some (k, x, y) ∧ s.dev.fmap h = some fm ∧ s.dev.running = some sk ∧ sk.web = false ∧
      s.dev.trvRuns h = true ∧ s.dev.inTime h k = true) ∧
    (∃ (s : State) (h : Fin 32), s.dev.dead = false ∧ s.dev.trvRuns h = true ∧ Option.any (fun (m : ℕ × (ℤ × ℤ) × ℤ ×
      ℤ) => decide (m.1 = s.dev.heads[h].trv.lastK + 1)) (s.dev.mirrors h) = false ∧ s.dev.inTime h
      (s.dev.heads[h].trv.lastK + 1) = false) :=
  ⟨⟨(st (outs (lay false) 1)), 0, 1, (2560,0), (5120,0), fm, { sk with headMask := 1 }, by decide +kernel⟩,
    ⟨(st (at_ (hd (lay false) 0 fun x => { x with trv := { x.trv with stale := 4, vx := 3, vy := 4 } }) 100000)), 0, by decide +kernel⟩⟩

/-- States and operands that meet every hypothesis of EdgesAndCodesDriveTheLaser. -/
theorem witness_EdgesAndCodesDriveTheLaser :
    (∃ (s : State) (h : Fin 32) (x : Edge) (xs : List Edge), s.dev.dead = false ∧ s.dev.heads[h].trv.edges = x :: xs ∧
      x.slot ≤ s.dev.slot ∧ (x.ent.kind = 4 ∨ x.ent.kind = 1)) ∧
    (∃ (s : State) (h : Fin 32) (n : ℕ) (e : Ent), s.dev.dead = false ∧ s.dev.heads[h].trv.dwellAt = some (n, e) ∧ n ≤
      s.dev.slot ∧ e.kind = 6) ∧
    (∃ (s : State) (h : Fin 32) (x : Step) (xs : List Step), s.dev.dead = false ∧ s.dev.heads[h].trv.ramps = x :: xs ∧
      x.slot ≤ s.dev.slot ∧ Option.any (fun (r : Run) => decide (r.num = x.num)) s.dev.heads[h].trv.run = true) ∧
    (∃ (s : State) (h : Fin 32) (x : Step) (xs : List Step), s.dev.dead = false ∧ s.dev.heads[h].trv.fades = x :: xs ∧
      x.slot ≤ s.dev.slot ∧ Option.any (fun (r : Run) => decide (r.num = x.num)) s.dev.heads[h].trv.run = true) ∧
    (∃ (s : State) (h : Fin 32) (at_ : ℤ) (c : ℕ), s.dev.dead = false ∧ s.dev.heads[h].trv.defer = some (at_, c) ∧ at_
      ≤ ↑s.dev.slot) :=
  ⟨⟨(st (hd (lay false) 0 fun x => { x with trv := { x.trv with edges := [eg 4] } })), 0, (eg 4), [], by decide +kernel⟩,
    ⟨(st (hd (lay false) 0 fun x => { x with trv := { x.trv with gate := true, on_ := true, dwellAt := some (0, en 6) } })), 0, 0, (en 6), by decide +kernel⟩,
    ⟨(st (hd (lay false) 0 fun x => { x with trv := { x.trv with run := some rn, ramps := [⟨0, true, 5, 1⟩] } })), 0, ⟨0, true, 5, 1⟩, [], by decide +kernel⟩,
    ⟨(st (hd (lay false) 0 fun x => { x with trv := { x.trv with run := some rn, fades := [⟨0, true, 64, 1⟩] } })), 0, ⟨0, true, 64, 1⟩, [], by decide +kernel⟩,
    ⟨(st (hd (lay false) 0 fun x => { x with trv := { x.trv with defer := some (0, 99) } })), 0, 0, 99, by decide +kernel⟩⟩

/-- States and operands that meet every hypothesis of FieldMapsAndProductsTakeTheirData. -/
theorem witness_FieldMapsAndProductsTakeTheirData :
    (∃ (s : State) (h : Fin 32) (bs : List Byte) (f : FMap), s.dev.dead = false ∧ s.dev.opRunning (headB h) 1 = true ∧
      s.dev.sdRead s.mem (s.dev.addr2 (headB h) R.TRV_FMAP_ADDR_LO R.TRV_FMAP_ADDR_HI) fmapSize = Except.ok bs ∧
      fmapOf bs = some f ∧ s.dev.running = none) ∧
    (∃ (s : State) (h : Fin 32) (f : FMap), s.dev.dead = false ∧ s.dev.opRunning (headB h) 2 = true ∧ fmapSize ≤
      s.dev.lanes[headLane h].store.length ∧ fmapOf s.dev.lanes[headLane h].store = some f ∧ s.dev.running = none) ∧
    (∃ (s : State) (h : Fin 32) (p : Product) (rest : List Product), s.dev.dead = false ∧ s.dev.webHead h = true ∧
      s.dev.trvRuns h = true ∧ s.dev.heads[h].drf.st ≠ 7 ∧ s.dev.heads[h].trv.webRun = false ∧
      s.dev.heads[h].trv.waiting = p :: rest ∧ s.dev.webFits s.mem h p.trig = true) :=
  ⟨maps_meet.2,
    maps_meet.1,
    ⟨(st (hd (lay true) 0 fun x => { x with trv := { x.trv with waiting := [⟨4, 0⟩, ⟨5, 0⟩] } })), 0, ⟨4,0⟩, [⟨5,0⟩], by decide +kernel⟩⟩

end Ch04

namespace Ch06
def up (n : Fin 40) (d : Dev) : Dev := d.putF (laneB n) R.LANE_STAT 3 0 4
def opr (d : Dev) (b : Blk) (c p : Nat) : Dev := { d.put b R.OP_STAT 0x20000009 with ops := [⟨b, c, p, some 0, none, none⟩] }
def tu (ch : Bool) (n clips : Nat) : Tune := ⟨3, ch, n, [], (1, 2, 3), 0, clips, []⟩
def tn (ch : Bool) (n clips : Nat) : Dev := { opr (sd on) (blk .servo 0) 1 3 with tunes := on.tunes.set 0 (some (tu ch n clips)) }
def tm : Mem :=
  let d := tn true 100000000 0
  match d.sdWrite m0 (d.tuneAddr (blk .servo 0)) (tuneBytes (d.getF (blk .servo 0) R.SRV_TUNE_LEN 15 0)
    (d.getF (blk .servo 0) R.SRV_TUNE_PTS 8 0) (d.get (blk .servo 0) R.SRV_TUNE_STEP) (tu true 100000000 0)) with
  | .ok m => m
  | _ => m0
def fbw : BitVec 48 := let w : BitVec 48 := 0x0000000500 ; w ||| (crc8 w).zeroExtend 48 <<< 40
def fbS : State := st ((up 0 on).cellMod (headCell 0 0) fun c => { c with samples := [⟨0, 0, none⟩] })

/-- States and operands that meet every hypothesis of ControlDeadlinesComputeTheLaw. -/
theorem witness_ControlDeadlinesComputeTheLaw :
    (∃ (s : State) (h : Fin 32), s.dev.dead = false ∧ s.dev.up (blk BT.servo (↑h / 4)) = true ∧ s.dev.up (headB h) =
      true) :=
  ⟨(st (at_ ((on.cellMod (headCell 0 0) fun c => { c with st := 1, kSent := some (1, 0), sp := 300 }).cellMod (headCell 0 1) fun c => { c with st := 3, kSent := some (1, 0), sp := -300 }) 2000)), 0, by decide +kernel⟩

/-- States and operands that meet every hypothesis of CellsSwitchApplyAndTune. -/
theorem witness_CellsSwitchApplyAndTune :
    (∃ (s : State) (k : Fin 8) (v : Word), s.dev.takes (blk BT.servo ↑k) 3332) ∧
    (∃ (s : State) (c : CellId) (v : Word), s.dev.takes (cellBlk (cellOf c)) (cellAdr (cellOf c) R.SRV_CCTL - badr
      (cellBlk (cellOf c)) 0) ∧ bit v 0 = true) ∧
    (∃ (s : State) (c : CellId) (v : Word), s.dev.takes (cellBlk (cellOf c)) (cellAdr (cellOf c) R.SRV_CCTL - badr
      (cellBlk (cellOf c)) 0) ∧ bit v 0 = false ∧ s.dev.cells[cellOf c].st ≠ 5 ∧ s.dev.cells[cellOf c].st ≠ 0) ∧
    (∃ (s : State) (k : Fin 8) (t : Tune), s.dev.dead = false ∧ s.dev.tunes[k] = some t ∧ s.dev.opRunning (blk
      BT.servo ↑k) 1 = true ∧ t.chirp = false ∧ 2 * s.dev.getF (blk BT.servo ↑k) R.SRV_TUNE_LEN 15 0 ≤ t.ticks) ∧
    (∃ (s : State) (k : Fin 8) (c : Fin 24) (t : Tune) (m' : Mem), s.dev.dead = false ∧ s.dev.tunes[k] = some t ∧
      t.cell = c.val ∧ s.dev.opRunning
      (blk BT.servo ↑k) 1 = true ∧ t.chirp = true ∧ s.dev.chirpTicks (blk BT.servo ↑k) ≤ t.ticks ∧ t.clips * 100 ≤
      s.dev.chirpTicks (blk BT.servo ↑k) ∧ s.dev.sdWrite s.mem (s.dev.tuneAddr (blk BT.servo ↑k)) (tuneBytes
      (s.dev.getF (blk BT.servo ↑k) R.SRV_TUNE_LEN 15 0) (s.dev.getF (blk BT.servo ↑k) R.SRV_TUNE_PTS 8 0) (s.dev.get
      (blk BT.servo ↑k) R.SRV_TUNE_STEP) t) = Except.ok m') ∧
    (∃ (s : State) (k : Fin 8) (c : Fin 24) (t : Tune), s.dev.dead = false ∧ s.dev.tunes[k] = some t ∧ t.cell = c.val ∧
      s.dev.opRunning (blk BT.servo ↑k) 1 = true ∧ t.chirp = true ∧ s.dev.chirpTicks (blk BT.servo ↑k) ≤ t.ticks ∧ s.dev.chirpTicks (blk
      BT.servo ↑k) < t.clips * 100) :=
  ⟨⟨(st (on.put (blk .servo 0) R.SRV_KP 5 3)), 0, 9, by unfold Dev.takes; decide +kernel⟩,
    ⟨(st on), (.servo 5), 0xFF, by unfold Dev.takes; decide +kernel⟩,
    ⟨(st (on.cellMod 5 fun c => { c with st := 1, en := true, cmd := 5 })), (.servo 5), 0xFE, by unfold Dev.takes; decide +kernel⟩,
    ⟨(st (tn false 1000000 0)), 0, tu false 1000000 0, by decide +kernel⟩,
    ⟨(st ((tn true 100000000 0).cellMod 3 fun c => { c with st := 4 })), 0, 3, tu true 100000000 0, tm, by decide +kernel⟩,
    ⟨(st (tn true 100000000 100000000)), 0, 3, tu true 100000000 100000000, by decide +kernel⟩⟩

/-- States and operands that meet every hypothesis of DriveAndFeedbackFramesPairUp. -/
theorem witness_DriveAndFeedbackFramesPairUp :
    (∃ (s : State) (n : Fin 40), s.dev.dead = false ∧ s.dev.laneUp n = true ∧ ∀ i ∈ s.dev.laneCells n, ∀ (j t : ℕ),
      s.dev.cells[i].kSent = some (j, t) → j < s.dev.driveTick n) ∧
    (∃ (s : State) (n : Fin 40) (f : FbFrame), s.dev.dead = false ∧ ↑n < 32 ∧ s.dev.laneUp n = true ∧ ∀ (r : Fin 16),
      s.dev.flt.slices[r].unit = none) ∧
    (∃ (s : State) (h : Fin 32) (tick : Word) (w : BitVec 48) (x : Samp), s.dev.dead = false ∧ s.dev.laneUp (headLane
      h) = true ∧ (∀ (r : Fin 16), s.dev.flt.slices[r].unit = none) ∧ (s.dev.lanes[headLane h].fbTicks.any fun (t :
      Word × ℕ) => decide (t.1 = tick) && decide (s.dev.tick < t.2 + 256)) = false ∧ s.dev.inReset (blk BT.servo (↑h /
      4)) = false ∧ (crc8 w).toNat = w.toNat / 2 ^ 40 ∧ w.getLsbD 31 = false ∧ s.dev.cells[headCell h 0].bySeq
      (w.toNat / 2 ^ 32 % 16) = some x ∧ s.dev.now * 5 ≤ x.sent * 5 + 8000) ∧
    (∃ (s : State) (n : Fin 40) (j : Fin 6) (i : Fin 256) (x : Samp), s.dev.dead = false ∧ (s.dev.laneCells n)[↑j]? =
      some i ∧ List.find? (fun (x : Samp) => x.good.isNone) s.dev.cells[i].samples = some x ∧ s.dev.pastNs x.sent 2000
      = true) :=
  ⟨⟨st (up 0 on), 0, by decide +kernel, by decide +kernel, fun i hi j t h => by
      have e : ∀ i ∈ (st (up 0 on)).dev.laneCells 0, ((st (up 0 on)).dev.cells[i].kSent).isNone = true := by decide +kernel
      have := e i hi
      rw [h] at this; cases this⟩,
    ⟨(st (up 0 on)), 0, ⟨5, [3,4]⟩, by decide +kernel⟩,
    ⟨fbS, 0, 0, fbw, ⟨0,0,none⟩, by decide +kernel⟩,
    ⟨(st (at_ (on.cellMod (headCell 0 0) fun c => { c with samples := [⟨0, 0, none⟩] }) 3000)), 0, 0, (headCell 0 0), ⟨0,0,none⟩, by decide +kernel⟩⟩

end Ch06

namespace Ch07
def zn : Zone := ⟨0xFFFFFFFF, [(-1000,-1000),(1000,-1000),(1000,1000),(-1000,1000)]⟩
def pm : Mem := m0.rawWrite 0 (([7,5,1,0x100,0,0,0,0, 0,1,0,0,100,100,0,0] : List Word)|> wordsBytes)
def ld : Dev := let d := lay false; { d with running := some { sk with headMask := 1, poolRecs := 2, poolAddr := 0 }, ply := { d.ply with zones := [zn] } }
def it0 : Item := ⟨0, 5, 1, 0, 1, 1, 2, 0, 0, 0, 0, none, false, [], 0, 0⟩
def ldi : Dev := { ld with ply := { ld.ply with next := 2, items := [it0] } }
def ldh : Dev := hd ldi 0 fun x => { x with drf := { x.drf with listLen := 0 } }
def ldg (slot : Nat) : Dev := { ld with ply := { ld.ply with next := 2, items := [{it0 with head := some 0}], heads := ld.ply.heads.set 0 { ld.ply.heads[0] with grant := some (0, slot) } } }
def ldc (n : Nat) : Dev := ({ ld with ply := { ld.ply with next := 2, items := [{it0 with head := some 0}], heads := ld.ply.heads.set 0 { ld.ply.heads[0] with item := some 0 } } } : Dev).putF (agtB 0) R.AGT_ITEM_REC 11 0 n 0
def xd : Dev := lay false |>.putF plyB R.PLY_CTL 0 0 1
def mk (run : Nat) : Move := { mv with kind := .mark, laser := true, started := false, run := run }
def cl (g : Bool) : Dev := let d := hd xd 0 fun x => { x with drf := { x.drf with moves := [mk 0] } }
  if g then { d with ply := { d.ply with dist := 1000, tanH := 1/2, heads := d.ply.heads.set 3 { d.ply.heads[3] with boxes := [⟨0,0,100,100,1,none⟩] } } } else d
def fr : FRec := ⟨[0, 9, 100, 0, 30000000, 0, 0, 0], 0, false, false⟩
def gr : Dev := let d := hd xd 0 fun x => { x with drf := { x.drf with st := 3, open_ := true, listLen := 4, nextRec := 1, endX := 100, endY := 0, fetch := [fr], moves := [mk 0] } }
  { d with ply := { d.ply with heads := d.ply.heads.set 0 { d.ply.heads[0] with boxes := [⟨-100,-100,200,100,0,none⟩] } } }
def br : Dev := let d := hd (at_ xd 100000000) 0 fun x => { x with drf := { x.drf with runNo := 1 } }
  { d with ply := { d.ply with heads := d.ply.heads.set 0 { d.ply.heads[0] with boxes := [⟨-100,-100,200,100,0,some 0⟩] } } }
def pe : Dev := let d := hd (hd xd 0 fun x => { x with trv := { x.trv with gate := true, px := 0 } }) 1 fun x => { x with trv := { x.trv with gate := true, px := 500 } }
  { d with ply := { d.ply with dist := 1000, tanH := 1/2 } }
def lds : Dev := hd ldi 0 fun x => { x with drf := { x.drf with st := 3 } }

/-- States and operands that meet every hypothesis of ItemsAreOfferedGrantedAndCompleted. -/
theorem witness_ItemsAreOfferedGrantedAndCompleted :
    (∃ (s : State) (k : Skein) (r : List Word) (z : Zone), s.dev.dead = false ∧ s.dev.up plyB = true ∧ s.dev.running =
      some k ∧ k.web = false ∧ s.dev.ply.next < k.poolRecs ∧ s.dev.ply.items.length < 1024 ∧ s.dev.poolRec s.mem
      s.dev.ply.next = some r ∧ s.dev.badHeader s.dev.ply.next r = false ∧ hStitch r = 0 ∧ s.dev.ply.zones[fld (r.getD
      3 0) 7 0]? = some z ∧ (have f := rfirst ((s.dev.poolRec s.mem (s.dev.ply.next + 1)).getD []); z.has f.1 f.2) =
      true ∧ (have l := rlast ((s.dev.poolRec s.mem (s.dev.ply.next + hNvec r)).getD []); z.has l.1 l.2) = true) ∧
    (∃ (s : State) (c : Instr) (h : Fin 32) (i : Item), s.dev.dead = false ∧ s.dev.up plyB = true ∧ s.dev.up (agtB h)
      = true ∧ (c = Instr.offer h ∧ s.dev.slotOpen h = true ∨ c = Instr.standingOfferEval h ∧ s.dev.standing h = true)
      ∧ List.find? (fun (x : Item) => s.dev.qualifies h x) s.dev.ply.items = some i) ∧
    (∃ (s : State) (h : Fin 32) (ix : ℕ) (slot : ℕ) (i : Item), s.dev.dead = false ∧ s.dev.ply.heads[h].grant = some
      (ix, slot) ∧ s.dev.up (agtB h) = true ∧ s.dev.onItem h = false ∧ List.find? (fun (x : Item) => decide (x.ix =
      ix)) s.dev.ply.items = some i ∧ s.dev.taking h = true ∧ s.dev.webLayer = false ∧ s.dev.heads[h].drf.poly = none
      ∧ s.dev.heads[h].drf.fetch = [] ∧ s.dev.heads[h].drf.listLen ≤ s.dev.heads[h].drf.nextRec ∧
      s.dev.heads[h].drf.nextRec = slot ∧ s.dev.heads[h].drf.moves = []) ∧
    (∃ (s : State) (h : Fin 32) (ix : ℕ) (slot : ℕ), s.dev.dead = false ∧ s.dev.ply.heads[h].grant = some (ix, slot) ∧
      s.dev.up (agtB h) = true ∧ s.dev.slotNo h ≠ slot) ∧
    (∃ (s : State) (h : Fin 32), s.dev.dead = false ∧ s.dev.up plyB = true ∧ s.dev.up (agtB h) = true ∧ (List.map (fun
      (x : Item) => x.ix) s.dev.ply.items).Nodup ∧ (List.map (fun (x : ℕ × List ℕ) => x.1)
      s.dev.ply.heads[h].items).Nodup) :=
  ⟨⟨(stm ld pm), { sk with headMask := 1, poolRecs := 2, poolAddr := 0 }, [7,5,1,0x100,0,0,0,0], zn, by decide +kernel⟩,
    ⟨(stm ldi pm), (.offer 0), 0, it0, by decide +kernel⟩,
    ⟨(stm (ldg 0) pm), 0, 0, 0, {it0 with head := some 0}, by decide +kernel⟩,
    ⟨(stm (ldg 3) pm), 0, 0, 3, by decide +kernel⟩,
    ⟨(stm (ldc 1) pm), 0, by decide +kernel⟩⟩

/-- States and operands that meet every hypothesis of ClearedBoxesNeverConflict. -/
theorem witness_ClearedBoxesNeverConflict :
    (∃ (s : State) (h : Fin 32) (run : ℕ), s.dev.dead = false ∧ s.dev.wantsClear h = some run ∧ s.dev.up plyB = true ∧
      s.dev.up (agtB h) = true ∧ s.dev.headRuns h = true) ∧
    (∃ (s : State) (h : Fin 32) (b : PBox), s.dev.dead = false ∧ s.dev.taking h = true ∧ s.dev.growth h = some b ∧
      s.dev.up plyB = true ∧ s.dev.ply.hitsBoxes h b = false ∧ s.dev.ply.hitsHolder h b = false) ∧
    (∃ (s : State) (h : Fin 32) (b : PBox) (t : ℕ), s.dev.dead = false ∧ s.dev.up plyB = true ∧ b ∈
      s.dev.ply.heads[h].boxes ∧ b.off = some t ∧ s.dev.runOver h b.run = true ∧ s.dev.past t (s.dev.getF plyB
      R.PLY_LINGER 15 0) = true) :=
  ⟨⟨(st (cl true)), 0, 0, by decide +kernel⟩,
    ⟨(st gr), 0, ((gr.growth 0).getD ⟨0,0,0,0,0,none⟩), by decide +kernel⟩,
    ⟨(st br), 0, ⟨-100,-100,200,100,0,some 0⟩, 0, by decide +kernel⟩⟩

/-- States and operands that meet every hypothesis of PlumeExcursionsAreWatched. -/
theorem witness_PlumeExcursionsAreWatched :
    (∃ (s : State), s.dev.dead = false ∧ s.dev.up plyB = true ∧ s.dev.running.isSome = true ∧ s.dev.exclOn = true) :=
  ⟨(st pe), by decide +kernel⟩

end Ch07

namespace Ch08
def here (n : Fin 40) (d : Dev) : Dev := ((d.putF (laneB n) R.LANE_STAT 3 0 4).putB (laneB n) R.LANE_STAT 6 true).put (laneB n) R.LANE_DESC 0xFF 3
def hh (n : Fin 40) (d : Dev) : Dev := ((here n d).put (laneB n) R.LANE_DESC 0x00010019 3).put (laneB n) R.LANE_DESC 0x01000100 4
def good (d : Dev) : Dev := (((d.put (mpvB 2) R.MPV_SHD_EXP 200).put (mpvB 2) R.MPV_SHD_GAIN 300).put (mpvB 2) R.MPV_SHD_ROI 0x10100000).put (mpvB 2) R.MPV_SHD_TIMING 100
def ws : Dev := let d := at_ (hh 2 on) 8000000
  { d with mpvs := vmod d.mpvs 2 fun x => { x with wait := some (CamSet.init, 0) }, lanes := vmod d.lanes 2 fun x => { x with cred1 := 5 } }
def run (h : Fin 32) (d : Dev) : Dev := ((hh (headLane h) d).putF (mpvB h) R.MPV_STAT 2 0 1).put (mpvB h) R.MPV_CTL 3
def opr (d : Dev) (b : Blk) (c p : Nat) : Dev := { d.put b R.OP_STAT 0x20000009 with ops := [⟨b, c, p, some 0, none, none⟩] }
def gs : Dev := let d := run 2 (hh 1 on)
  (d.put (mpvB 2) R.MPV_GUEST 0x11).putF (mpvB 1) R.BLK_CTL 5 4 2
def ge : Dev := let d := (run 2 (hh 1 on)).putF (mpvB 2) R.MPV_STAT 2 0 2
  { d with mpvs := vmod d.mpvs 2 fun x => { x with guest := some (1, 0) } }
def fhdr : Vector Byte 32 := .ofFn fun i => (wordsBytes [0x01000005, 400, 0, 0, 0x08080000, 64, 0, 0]).getD i.val 0
def cf : CamFrame := ⟨fhdr, (List.range 64), true, 400, false⟩
def lg (r : Nat) : Dev := let d := sd on
  { d with mpvs := vmod d.mpvs 2 fun x => { x with logs := [⟨r, [1,2,3,4]⟩], arcs := [⟨r, [1,2,3,4]⟩] } }
def lpz (r : Nat) : Dev := let d := sd on
  { d with lpipes := vmod d.lpipes 1 fun x => { x with out := [⟨r, [1,2,3,4]⟩] } }
/-- The SDRAM of a calibration image with superpixels of two pixels at 0, without and with its CRC. -/
def lC : List (Nat × Byte) := [(0, 1), (2, 67), (3, 90), (8, 2), (13, 1), (15, 1)]
def cC : Word := crc32 ((mc lC).bytes 0 0x3C ++ (mc lC).bytes 0x40 (5376 - 0x40))
def mC : Mem := mc (lC ++ crcCells 0x3C cC)
theorem mC_cal : ∃ c, calOf (mC.bytes 0 5376) = some c := by
  unfold calOf
  dsimp only
  rw [if_neg]
  · exact ⟨_, rfl⟩
  · rw [bytes_take _ _ (by decide), bytes_drop, word_of_bytes _ _ (by decide), word_of_bytes _ _ (by decide), word_of_bytes _ _ (by decide),
      word_of_bytes _ _ (by decide),
      show mC.bytes 0 0x3C = (mc lC).bytes 0 0x3C from bytes_congr fun i hi => byte_beside lC 0x3C _ cC (.inl (by omega)),
      show mC.bytes (0 + 0x40) (5376 - 0x40) = (mc lC).bytes (0 + 0x40) (5376 - 0x40) from bytes_congr fun i hi => byte_beside lC 0x3C _ cC (.inr (by omega))]
    rintro (h | h | h | h | h)
    · revert h; decide +kernel
    · revert h; decide +kernel
    · revert h; decide +kernel
    · exact h (word_crc lC 0x3C cC (by decide))
    · exact h (by rw [show fld (mC.word (0 + 4 * 1)) 10 0 = 0 by decide +kernel]; rfl)

/-- States and operands that meet every hypothesis of PipelinesAreSetUpAndHosted. -/
theorem witness_PipelinesAreSetUpAndHosted :
    (∃ (s : State) (h : Fin 32), s.dev.takes (mpvB h) 308) ∧
    (∃ (s : State) (h : Fin 32) (set : CamSet) (at_ : ℕ), s.dev.dead = false ∧ s.dev.mpvs[h].wait = some (set, at_) ∧
      s.dev.up (mpvB h) = true ∧ s.dev.cameraHere h = true ∧ s.dev.frameTick h = true ∧ at_ * 5 < 4 * (1000 *
      s.dev.tick + (setAt s.dev.mpvs[h].force s.dev.mpvs[h].sent (s.dev.tick - 1)).phase) ∧ s.dev.laneCan (headLane h)
      1 32 = true) ∧
    (∃ (s : State) (h : Fin 32) (v : Word), s.dev.takes (mpvB h) 256 ∧ bit v 0 = true ∧ s.dev.mpvSt h = 0 ∧
      s.dev.cameraHere h = true ∧ s.dev.laneUp (headLane h) = true) ∧
    (∃ (s : State) (h : Fin 32) (v : Word), s.dev.takes (mpvB h) 256 ∧ bit v 0 = false ∧ (s.dev.mpvSt h = 1 ∨
      s.dev.mpvSt h = 2)) ∧
    (∃ (s : State) (h : Fin 32) (bs : List Byte), s.dev.dead = false ∧ s.dev.opRunning (mpvB h) 1 = true ∧
      s.dev.sdRead s.mem (s.dev.addr2 (mpvB h) R.MPV_CAL_ADDR_LO R.MPV_CAL_ADDR_HI) 5376 = Except.ok bs ∧
      s.dev.running = none ∧ s.dev.fenced (mpvB h) = false) ∧
    (∃ (s : State) (h : Fin 32), s.dev.dead = false ∧ s.dev.mayGuest h = true ∧ s.dev.mpvSt h = 1 ∧ (∀ p < h, ↑p / 4 =
      ↑h / 4 → ¬(s.dev.guestHead p = s.dev.guestHead h ∧ s.dev.mayGuest p = true ∧ (s.dev.mpvSt p = 1 ∨ s.dev.mpvSt p
      = 2))) ∧ s.dev.hostOf (s.dev.guestHead h) = none ∧ s.dev.frameTick (s.dev.guestHead h) = true) ∧
    (∃ (s : State) (h : Fin 32) (i : Fin 4) (t : ℕ), s.dev.dead = false ∧ s.dev.mpvs[h].guest = some (i, t) ∧
      s.dev.mpvSt h = 2 ∧ s.dev.fence (mpvB (Fin.ofNat 32 (↑h / 4 * 4 + ↑i))) = 0 ∧ s.dev.frameTick (Fin.ofNat 32 (↑h
      / 4 * 4 + ↑i)) = true) :=
  ⟨⟨(st (good on)), 2, by unfold Dev.takes; decide +kernel⟩,
    ⟨(st ws), 2, CamSet.init, 0, by decide +kernel⟩,
    ⟨(st (hh 2 on)), 2, 3, by unfold Dev.takes; decide +kernel⟩,
    ⟨(st (run 2 on)), 2, 0, by unfold Dev.takes; decide +kernel⟩,
    ⟨stm (opr (sd on) (mpvB 2) 1 0) mC, 2, mC.bytes 0 5376, by decide +kernel, by decide +kernel,
      sdRead_of_status (by decide +kernel), by decide +kernel, by decide +kernel⟩,
    ⟨(st gs), 2, by decide +kernel⟩,
    ⟨(st ge), 2, 1, 0, by decide +kernel⟩⟩

/-- States and operands that meet every hypothesis of FramesBecomeRecordsInTheirRings. -/
theorem witness_FramesBecomeRecordsInTheirRings :
    (∃ (s : State) (h : Fin 32) (f : CamFrame), s.dev.dead = false ∧ s.dev.laneUp (headLane h) = true ∧ (∀ (r : Fin
      16), s.dev.flt.slices[r].unit = none) ∧ 65 ≤ s.dev.lanes[headLane h].grants[0] ∧ s.dev.pipeAt h (s.dev.fullTick
      (frameHdr f.hdr.toList).tick) = some h ∧ f.crcOk = true ∧ (frameHdr f.hdr.toList).ok = true ∧ f.pixels.length =
      (frameHdr f.hdr.toList).w * (frameHdr f.hdr.toList).h) ∧
    (∃ (s : State) (h : Fin 32) (f : CamFrame), s.dev.dead = false ∧ s.dev.laneUp (headLane h) = true ∧ (∀ (r : Fin
      16), s.dev.flt.slices[r].unit = none) ∧ 65 ≤ s.dev.lanes[headLane h].grants[0] ∧ s.dev.pipeAt h (if (frameHdr
      f.hdr.toList).ok = true then s.dev.fullTick (frameHdr f.hdr.toList).tick else s.dev.tick) = some h ∧ f.crcOk =
      false) ∧
    (∃ (s : State) (h : Fin 32) (tick : Word) (pd : BitVec 16) (pyro : BitVec 16), s.dev.dead = false ∧ s.dev.laneUp
      (headLane h) = true ∧ bit (s.dev.desc (headLane h) 3) 3 = true ∧ bit (s.dev.desc (headLane h) 3) 4 = true ∧ (∀
      (r : Fin 16), s.dev.flt.slices[r].unit = none) ∧ 1 ≤ s.dev.lanes[headLane h].grants[1] ∧ BitVec.toNat tick % 16
      = 0) ∧
    (∃ (s : State) (h : Fin 32) (r : ℕ) (p : RtPort) (e : RtEnt) (rest : List RtEnt) (m' : Mem), s.dev.dead = false ∧
      (p, r) ∈ [(RtPort.flog h, 0), (RtPort.slub h, 1), (RtPort.archive h, 2), (RtPort.thumb h, 3)] ∧ takeRing (if r <
      2 then s.dev.mpvs[h].logs else s.dev.mpvs[h].arcs) r = some (e, rest) ∧ s.dev.sdWrite s.mem (s.dev.addr2 (mpvB
      h) R.MPV_RING_BASE_LO R.MPV_RING_BASE_HI r + s.dev.getN (mpvB h) R.MPV_RING_WR r % 2 ^ s.dev.getF (mpvB h)
      R.MPV_RING_CFG 4 0 r * if r = 0 then 32 else if r = 1 then 64 else 2 ^ s.dev.getF (mpvB h) R.MPV_RING_CFG 12 8
      r) e.bytes = Except.ok m') ∧
    (∃ (s : State) (p : Fin 2) (e : RtEnt) (rest : List RtEnt) (m' : Mem), s.dev.dead = false ∧ s.dev.lpipes[p].out =
      e :: rest ∧ s.dev.sdWrite s.mem (s.dev.addr2 (blk BT.lpipe ↑p) R.LPIPE_RING_BASE_LO R.LPIPE_RING_BASE_HI e.ring
      + s.dev.getN (blk BT.lpipe ↑p) R.LPIPE_RING_WR e.ring % 2 ^ s.dev.getF (blk BT.lpipe ↑p) R.LPIPE_RING_CFG 4 0
      e.ring * if e.ring = 0 then 64 else 2 ^ s.dev.getF (blk BT.lpipe ↑p) R.LPIPE_RING_CFG 12 8 e.ring) e.bytes =
      Except.ok m') :=
  ⟨⟨(st (run 2 on)), 2, cf, by decide +kernel⟩,
    ⟨(st (run 2 on)), 2, {cf with crcOk := false}, by decide +kernel⟩,
    ⟨(st (run 2 on)), 2, 320, 77, 88, by decide +kernel⟩,
    ⟨(st (lg 0)), 2, 0, (.flog 2), ⟨0,[1,2,3,4]⟩, [], ((lg 0).sdPut m0 0 [1,2,3,4]), by decide +kernel⟩,
    ⟨(st (lpz 0)), 1, ⟨0,[1,2,3,4]⟩, [], ((lg 0).sdPut m0 0 [1,2,3,4]), by decide +kernel⟩⟩

end Ch08

namespace Ch09
def depM : Msg := ⟨.ev, headB 5, latB, none, .deposit 77 1000 2, 0, 0, .inbox, 0⟩
def lt : Dev := let d := (at_ (lay false) 10000000).putF latB R.LAT_CTL 0 0 1
  { d with lat := { d.lat with deps := [⟨5, 10^9, 3, 2, 0⟩, ⟨5, 10^8, 2, 0, 0⟩, ⟨700, 10^8, 2, 0, 0⟩, ⟨8, 10^8, 2, 0, 10000000⟩], tiles := [(1, ⟨30000, 5, 1, 50⟩)] } } |>.put latB R.LAT_MAT_H 5000000 3 |>.put latB R.LAT_MAT_D 5000 3 |>.put latB R.LAT_MAT_D 5000 0 |>.put latB R.LAT_MAT_C 300 0 |>.put latB R.LAT_MAT_C 300 3
def rc : Dev := { lt with lat := { lt.lat with recoat := some 1000000000, since := 5 } }
def opr (d : Dev) (b : Blk) (c p : Nat) : Dev := { d.put b R.OP_STAT 0x20000009 with ops := [⟨b, c, p, some 0, none, none⟩] }
def rdS : Dev := ((opr (sd lt) latB 2 0).put latB R.LAT_OP_RECT0 0x00000001).put latB R.LAT_OP_RECT1 0x00020004
def rdB : List Byte := (List.range 4).flatMap fun c => (lt.lat.tile (1+c)).bytes
def wrS : Dev := ((opr (sd lt) latB 3 0).put latB R.LAT_OP_RECT0 0x00000001).put latB R.LAT_OP_RECT1 0x00020003
def wm : Mem := m0.rawWrite 0 ((List.range 48).map fun i => (BitVec.ofNat 8 (i+1)))
def prM : Msg := ⟨.req, headB 5, latB, none, .predReq 3 1, 0, 9, .inbox, 0⟩
def rsM : Msg := ⟨.rsp, latB, headB 0, none, .predRsp 3 300, 0, 9, .inbox, 0⟩
def ee : Ent := { en 4 with num := 3, src := true }
def prS : Dev := hd { lay false with fabric := [rsM], reqs := [⟨9, headB 0, latB, 0, false, true⟩] } 0 fun x => { x with trv := { x.trv with sched := [ee, en 1] }, cor := { x.cor with await := [(3, 77)] } }
def fi : FeatIn := ⟨true, false, false, false, 0, 0, 50, 0, 0, 0⟩
def frS : Dev := hd (lay false) 0 fun x => { x with cor := { x.cor with recs := [fi] } }
def bim : List Word := (List.range 64).map fun i => if i = 48 then 1 else if i = 32 then 100 else if i = 50 then 65536 else if i = 51 then 1000 else if i = 52 then 0 else 0
def fuS : Dev := ({ frS with bobs := vmod frS.bobs 0 fun b => { b with buf0 := ⟨bim, false⟩, buf1 := ⟨bim, false⟩ } } : Dev).put (headB 0) R.COR_CTL 0xFFFF

/-- States and operands that meet every hypothesis of LatticeTicksMoveEveryTile. -/
theorem witness_LatticeTicksMoveEveryTile :
    (∃ (s : State) (x : Msg) (tile : ℕ) (e : ℕ) (m : ℕ), s.dev.dead = false ∧ s.dev.up latB = true ∧ (s.dev.inbox latB
      fun (b : Body) => match b with | Body.deposit tile energy mat => true | x => false) = some x ∧ x.body =
      Body.deposit tile e m ∧ m ≤ 15) ∧
    (∃ (s : State), s.dev.dead = false ∧ s.dev.latRuns = true ∧ s.dev.latDue = true) ∧
    (∃ (s : State) (tr : ℕ), s.dev.dead = false ∧ s.dev.up latB = true ∧ s.dev.lat.recoat = some tr) :=
  ⟨⟨(st { on with fabric := [depM] }), depM, 77, 1000, 2, by decide +kernel⟩,
    ⟨(st lt), by decide +kernel⟩,
    ⟨(st rc), 1000000000, by decide +kernel⟩⟩

/-- States and operands that meet every hypothesis of LatticeOperationsAndPredictions. -/
theorem witness_LatticeOperationsAndPredictions :
    (∃ (s : State), s.dev.dead = false ∧ s.dev.opRunning latB 1 = true) ∧
    (∃ (s : State) (m' : Mem), s.dev.dead = false ∧ s.dev.opRunning latB 2 = true ∧ s.dev.getN latB R.OP_PART <
      s.dev.latRect.2.2.2 ∧ (s.dev.latRuns = false ∨ s.dev.lat.rowTick < 8) ∧ s.dev.sdWrite s.mem (s.dev.latAddr + 8 *
      s.dev.latRect.2.2.1 * s.dev.getN latB R.OP_PART) (List.flatMap (fun (c : ℕ) => (s.dev.lat.tile (s.dev.latRect.1
      + c + 512 * (s.dev.latRect.2.1 + s.dev.getN latB R.OP_PART))).bytes) (List.range s.dev.latRect.2.2.1)) =
      Except.ok m') ∧
    (∃ (s : State), s.dev.dead = false ∧ s.dev.opRunning latB 2 = true ∧ s.dev.latRect.2.2.2 ≤ s.dev.getN latB
      R.OP_PART) ∧
    (∃ (s : State) (bs : List Byte), s.dev.dead = false ∧ s.dev.opRunning latB 3 = true ∧ s.dev.sdRead s.mem
      s.dev.latAddr (8 * s.dev.latRect.2.2.1 * s.dev.latRect.2.2.2) = Except.ok bs ∧ s.dev.latRect.1 +
      s.dev.latRect.2.2.1 ≤ 512) ∧
    (∃ (s : State) (x : Msg) (e : ℕ) (t : ℕ), s.dev.dead = false ∧ s.dev.up latB = true ∧ s.dev.lat.recoat = none ∧
      (s.dev.wakeReq.any fun (w : ℕ × Blk) => decide (w.2 = latB)) = false ∧ (s.dev.inbox latB fun (b : Body) => match
      b with | Body.predReq entry tile => true | x => false) = some x ∧ x.body = Body.predReq e t) ∧
    (∃ (s : State) (h : Fin 32) (x : Msg) (rest : List Msg) (num : ℕ) (temp : ℕ) (e : Ent) (arc : ℤ), s.dev.dead =
      false ∧ s.dev.up (headB h) = true ∧ s.dev.fabric = x :: rest ∧ x.dst = headB h ∧ x.loc = Loc.inbox ∧ x.body =
      Body.predRsp num temp ∧ x.status = 0 ∧ (s.dev.reqs.any fun (r : Pend) => decide (r.tag = x.tag) && !r.timedOut)
      = true ∧ List.find? (fun (y : Ent) => decide (y.num = num)) s.dev.heads[h].trv.corEnts = some e ∧ Option.map
      (fun (x : ℕ × ℤ) => x.2) (List.find? (fun (a : ℕ × ℤ) => decide (a.1 = num)) s.dev.heads[h].cor.await) = some
      arc ∧ s.dev.heads[h].cor.queue = []) ∧
    (∃ (s : State) (h : Fin 32) (r : FeatIn) (rest : List FeatIn), s.dev.dead = false ∧ s.dev.up (headB h) = true ∧
      s.dev.heads[h].cor.recs = r :: rest ∧ s.dev.recUse h r = none) ∧
    (∃ (s : State) (h : Fin 32) (r : FeatIn) (rest : List FeatIn) (tgt : ℕ) (meas : ℕ), s.dev.dead = false ∧ s.dev.up
      (headB h) = true ∧ s.dev.heads[h].cor.recs = r :: rest ∧ s.dev.recUse h r = some (tgt, meas)) :=
  ⟨⟨(st (opr (sd lt) latB 1 0)), by decide +kernel⟩,
    ⟨(st rdS), (rdS.sdPut m0 0 rdB), by decide +kernel⟩,
    ⟨(st (rdS.put latB R.OP_PART 2 0)), by decide +kernel⟩,
    ⟨(stm wrS wm), ((List.range 48).map fun i => (BitVec.ofNat 8 (i+1))), by decide +kernel⟩,
    ⟨(st { lt with fabric := [prM] }), prM, 3, 1, by decide +kernel⟩,
    ⟨(st prS), 0, rsM, [], 3, 300, ee, 77, by decide +kernel⟩,
    ⟨(st frS), 0, fi, [], by decide +kernel⟩,
    ⟨(st fuS), 0, fi, [], 100, 50, by decide +kernel⟩⟩

end Ch09

namespace Ch10
def cs : Dev := (((((on.put (csiB 1) R.CSI_CTL 1).put (csiB 1) R.CSI_VC_CFG 0x0000412A 2).put (csiB 1) R.CSI_VC_CFG 0x0000412A 0).put (csiB 1) R.CSI_VC_LINES 2 0).put (lpB 1) R.LPIPE_CTL 1)
def cs2 : Dev := cs.put (csiB 1) R.CSI_VC_CFG 0x0000412A 0
def lf : CsiFrame := ⟨0, [⟨0x2A, [1,2,3,4], false⟩, ⟨0x12, [9], false⟩, ⟨0x2A, [5,6,7,8], false⟩], false, 0⟩
def cs3 : Dev := (cs.put (csiB 1) R.CSI_VC_CFG 0x0000412A 0)
def cs4 : Dev := { cs3 with lpipes := vmod cs3.lpipes 1 fun x => { x with armed := true } }
def le : Dev := ({ at_ on 1000000000 with lpipes := vmod on.lpipes 0 fun x => { x with ends := [5] } } : Dev).put (lpB 0) R.LPIPE_RC_CTL 0x00010001
def lw (d : Dev) (i : Fin 4) (f : Light → Light) : Dev := { d with lights := vmod d.lights i f }
def lc : Dev := (on.putB light R.LGT_STAT 16 true 2).put light R.LGT_CFG 0x1041 2

/-- States and operands that meet every hypothesis of LayerFramesAndBindings. -/
theorem witness_LayerFramesAndBindings :
    (∃ (s : State) (p : Fin 2) (f : CsiFrame), s.dev.dead = false ∧ (∀ (r : Fin 16), s.dev.flt.slices[r].unit = none)
      ∧ s.dev.up (csiB p) = true ∧ s.dev.getB (csiB p) R.CSI_CTL 0 = true ∧ s.dev.getB (csiB p) R.CSI_VC_CFG 8 ↑f.vc =
      true ∧ s.dev.up (lpB p) = true ∧ s.dev.getB (lpB p) R.LPIPE_CTL 0 = true ∧ s.dev.lpipes[p].pend ≠ some f.vc ∧
      s.dev.getF (lpB p) R.LPIPE_STAT 1 0 = ↑f.vc ∧ f.hdrUncorr = false ∧ s.dev.getF (csiB p) R.CSI_VC_CFG 7 0 ↑f.vc ∈
      [42, 43, 44] ∧ (List.filter (fun (l : CsiLine) => decide (l.dataType.toNat = s.dev.getF (csiB p) R.CSI_VC_CFG 7
      0 ↑f.vc)) f.lines).length = s.dev.getF (csiB p) R.CSI_VC_LINES 15 0 ↑f.vc ∧ ∀ l ∈ List.filter (fun (l : CsiLine)
      => decide (l.dataType.toNat = s.dev.getF (csiB p) R.CSI_VC_CFG 7 0 ↑f.vc)) f.lines, l.pixels.length = s.dev.getF
      (csiB p) R.CSI_VC_CFG 23 12 ↑f.vc) ∧
    (∃ (s : State) (p : Fin 2), s.dev.dead = false ∧ s.dev.up (csiB p) = true ∧ s.dev.getB (csiB p) R.CSI_STAT 0 =
      true) ∧
    (∃ (s : State) (p : Fin 2) (v : Word), s.dev.takes (lpB p) 264) ∧
    (∃ (s : State) (p : Fin 2), s.dev.takes (lpB p) 268 ∧ s.dev.nextVc p = none) ∧
    (∃ (s : State) (p : Fin 2) (v : Fin 4), s.dev.takes (lpB p) 268 ∧ s.dev.nextVc p = some v) ∧
    (∃ (s : State) (p : Fin 2) (t : ℕ), s.dev.dead = false ∧ t ∈ s.dev.lpipes[p].ends ∧ s.dev.up (lpB p) = true ∧
      s.dev.getB (lpB p) R.LPIPE_RC_CTL 0 = true ∧ s.dev.past t (1000 * s.dev.getF (lpB p) R.LPIPE_RC_CTL 31 16) =
      true) :=
  ⟨⟨(st cs3), 1, lf, by decide +kernel⟩,
    ⟨(st (on.putB (csiB 1) R.CSI_STAT 0 true)), 1, by decide +kernel⟩,
    ⟨(st on), 1, 3, by unfold Dev.takes; decide +kernel⟩,
    ⟨(st on), 1, by unfold Dev.takes; decide +kernel⟩,
    ⟨(st (on.put (csiB 1) R.CSI_VC_CFG 0x0000412A 2)), 1, 2, by unfold Dev.takes; decide +kernel⟩,
    ⟨(st le), 0, 5, by decide +kernel⟩⟩

/-- States and operands that meet every hypothesis of LightingAndDiagnosticPulses. -/
theorem witness_LightingAndDiagnosticPulses :
    (∃ (s : State) (i : Fin 4), s.dev.takes light 512) ∧
    (∃ (s : State) (i : Fin 4), s.dev.dead = false ∧ s.dev.up light = true ∧ s.dev.getF light R.LGT_REFRESH 15 0 ↑i ≠
      0 ∧ s.dev.past s.dev.lights[i].refAt (1000 * s.dev.getF light R.LGT_REFRESH 15 0 ↑i) = true) ∧
    (∃ (s : State) (i : Fin 4), s.dev.dead = false ∧ s.dev.up light = true ∧ s.dev.lights[i].want = true ∧
      s.dev.lgtClaimed i = true ∧ s.dev.lgtBusy i = false ∧ s.dev.lights[i].diag = false) ∧
    (∃ (s : State) (i : Fin 4) (bytes : List (BitVec 8)) (f : ℕ × ℕ), s.dev.dead = false ∧ s.dev.up light = true ∧
      s.dev.lights[i].frame = some f ∧ s.dev.lights[i].stat = true ∧ s.dev.statusEnd i f ≤ s.dev.now) ∧
    (∃ (s : State) (i : Fin 4) (v : Word), s.dev.takes light (256 + 64 * ↑i)) ∧
    (∃ (s : State) (i : Fin 4), s.dev.dead = false ∧ s.dev.up light = true ∧ s.dev.getB light R.LGT_STAT 3 ↑i = true ∧
      s.dev.running = none ∧ s.dev.lgtClaimed i = true ∧ s.dev.lgtBusy i = false ∧ s.dev.lights[i].diag = false) ∧
    (∃ (s : State) (i : Fin 4) (bytes : List (BitVec 8)) (f : ℕ × ℕ), s.dev.dead = false ∧ s.dev.up light = true ∧
      s.dev.lights[i].frame = some f ∧ s.dev.lights[i].diag = true ∧ (if s.dev.lgtStatus i = true then s.dev.statusEnd
      i f else latchEnd f) + s.dev.getF light R.LGT_DIAG 31 16 ↑i * 800000 ≤ s.dev.now) :=
  ⟨⟨(st on), 2, by unfold Dev.takes; decide +kernel⟩,
    ⟨(st ((at_ on 100000000).put light R.LGT_REFRESH 1 2)), 2, by decide +kernel⟩,
    ⟨(st (lw lc 2 fun x => { x with want := true })), 2, by decide +kernel⟩,
    ⟨(st (at_ (lw lc 2 fun x => { x with frame := some (0, 10), stat := true }) 100000000)), 2, [3, 5], (0, 10), by decide +kernel⟩,
    ⟨(st on), 2, 0x1041, by unfold Dev.takes; decide +kernel⟩,
    ⟨(st ((lc.putB light R.LGT_STAT 3 true 2).put light R.LGT_DIAG 0x00010055 2)), 2, by decide +kernel⟩,
    ⟨(st (at_ (lw lc 2 fun x => { x with frame := some (0, 10), stat := true, diag := true, prev := [1,2] }) 100000000)), 2, [3], (0, 10), by decide +kernel⟩⟩

end Ch10

namespace Ch11
def up (n : Fin 40) (s : Nat) (d : Dev) : Dev := d.putF (laneB n) R.LANE_STAT 3 0 s
def ln (d : Dev) (n : Fin 40) (f : Lane → Lane) : Dev := { d with lanes := vmod d.lanes n f }
def pres (n : Fin 40) (d : Dev) : Dev := ((up n 4 d).putB (laneB n) R.LANE_STAT 6 true).put (laneB n) R.LANE_DESC 0x00010019 3
def dsc (k : Word) : List Byte := let a : List Word := [0x5A4E0001, k, 3, 0x00010019, 0, 0x00200010, 0, 0, 0, 0, 0, 0, 0, 0, 0]
  wordsBytes (a ++ [crc32 (wordsBytes a)])
def opr (d : Dev) (b : Blk) (c p : Nat) : Dev := { d.put b R.OP_STAT 0x20000009 with ops := [⟨b, c, p, some 0, none, none⟩] }

/-- Lane 3 in a trial that began at 0, whose bits have just passed. -/
def trS : State :=
  let d := ln (up 3 2 on) 3 fun x => { x with phase := .trial 0, preset := 2 }
  st (at_ d (2 ^ d.getF (laneB 3) R.LANE_TRAIN_BITS 5 0 / cycleBits d.lanes[3].rate + 1))

/-- States and operands that meet every hypothesis of LanesMoveAndPartnersArrive. -/
theorem witness_LanesMoveAndPartnersArrive :
    (∃ (s : State) (n : Fin 40) (c : Instr) (st : ℕ), laneMoves s n c st) ∧
    (∃ (s : State) (n : Fin 40) (t : ℕ), s.dev.dead = false ∧ s.dev.laneSt n = 2 ∧ s.dev.lanes[n].phase =
      TrainPhase.trial t ∧ s.dev.trialDue n t = true) ∧
    (∃ (s : State) (n : Fin 40) (pass : Bool) (t : ℕ) (r : ℕ), s.dev.dead = false ∧ s.dev.laneSt n = 2 ∧
      s.dev.lanes[n].phase = TrainPhase.trial t ∧ (pass = false ∨ s.dev.trialDue n t = false) ∧ (s.dev.lanes[n].preset
      < 7 ∨ List.find? (fun (r : ℕ) => decide (r < s.dev.lanes[n].rate)) (s.dev.sweepRates n) = some r)) ∧
    (∃ (s : State) (n : Fin 40) (t : ℕ) (r : ℕ) (rs : List ℕ), s.dev.dead = false ∧ s.dev.laneSt n = 2 ∧
      s.dev.lanes[n].phase = TrainPhase.wait t ∧ s.dev.past t 10000 = true ∧ s.dev.sweepRates n = r :: rs) ∧
    (∃ (s : State) (n : Fin 40) (byPartner : Bool), s.dev.dead = false ∧ s.dev.laneSt n = 5 ∧ s.dev.lanes[n].burst =
      none ∧ (byPartner = true ∨ s.dev.mayIdle n = false ∨ s.dev.wantsUp n = true)) ∧
    (∃ (s : State) (n : Fin 40) (bytes : List (BitVec 8)), s.dev.dead = false ∧ s.dev.laneSt n = 3 ∧ bytes.length = 64
      ∧ (bytesWords bytes).getD 0 0 = 1515061249#32 ∧ (bytesWords bytes).getD 15 0 = crc32 (List.take 60 bytes) ∧ (fld
      ((bytesWords bytes).getD 1 0) 7 0 = if ↑n < 32 then 1 else 2) ∧ 2 ≤ s.dev.lanes[n].grants[2] ∧ ∀ (r : Fin 16),
      s.dev.flt.slices[r].unit = none) ∧
    (∃ (s : State) (n : Fin 40) (c : Instr) (st : ℕ), laneDeparts s n c st) :=
  ⟨⟨(st on), 3, (.laneEnable 3 1), 1, by dsimp only [laneMoves]; unfold Dev.takes; decide +kernel⟩,
    ⟨trS, 3, 0, by decide +kernel⟩,
    ⟨trS, 3, false, 0, 0, by decide +kernel⟩,
    ⟨(st (at_ (ln (up 3 2 on) 3 fun x => { x with phase := .wait 0 }) 100000000)), 3, 0, 2, [1,0], by decide +kernel⟩,
    ⟨(st (up 3 5 on)), 3, true, by decide +kernel⟩,
    ⟨(st (up 3 3 on)), 3, (dsc 1), by decide +kernel⟩,
    ⟨(st (pres 3 on)), 3, (.signalLost 3), 1, by dsimp only [laneDeparts]; decide +kernel⟩⟩

/-- States and operands that meet every hypothesis of LinkFramesAndPatternTests. -/
theorem witness_LinkFramesAndPatternTests :
    (∃ (s : State) (n : Fin 40) (v1 : BitVec 16) (v2 : BitVec 16) (v3 : BitVec 16), s.dev.dead = false ∧ (s.dev.laneUp
      n = true ∨ s.dev.laneSt n = 3) ∧ ∀ r ∈ s.dev.lanes[n].vc3, r.held = false) ∧
    (∃ (s : State) (n : Fin 40) (v1 : BitVec 16) (v2 : BitVec 16) (v3 : BitVec 16) (r : Vc3), s.dev.dead = false ∧
      s.dev.laneUp n = true ∧ s.dev.lanes[n].vc3 = some r ∧ r.held = true ∧ 1 ≤ v3.toNat) ∧
    (∃ (s : State) (n : Fin 40) (bytes : List (BitVec 8)) (r : Vc3), s.dev.dead = false ∧ bytes.length ≤ 512 ∧
      s.dev.laneUp n = true ∧ s.dev.lanes[n].vc3 = some r ∧ r.type = 2 ∧ r.held = false ∧ frameUnits bytes.length ≤
      s.dev.lanes[n].grants[2] ∧ ∀ (q : Fin 16), s.dev.flt.slices[q].unit = none) ∧
    (∃ (s : State) (n : Fin 40) (type : BitVec 8) (r : Vc3), s.dev.dead = false ∧ s.dev.lanes[n].vc3 = some r ∧ r.type
      = type.toNat ∧ r.type ≠ 0 ∧ r.held = false ∧ 1 ≤ s.dev.lanes[n].grants[2] ∧ ∀ (q : Fin 16),
      s.dev.flt.slices[q].unit = none) ∧
    (∃ (s : State) (n : Fin 40) (r : Vc3), s.dev.dead = false ∧ s.dev.lanes[n].vc3 = some r ∧ r.held = false ∧
      s.dev.past r.since 100 = true) ∧
    (∃ (s : State) (n : Fin 40) (vc : BitVec 2), s.dev.dead = false ∧ (s.dev.laneUp n = true ∨ s.dev.laneSt n = 3) ∧
      fld (s.dev.lget n R.LANE_RT_CTL) 7 0 = 0) ∧
    (∃ (s : State) (n : Fin 40) (why : DropWhy) (vc : BitVec 2), s.dev.dead = false ∧ (s.dev.laneUp n = true ∨
      s.dev.laneSt n = 3 ∨ s.dev.laneSt n = 2 ∧ why = DropWhy.reservedBlock) ∧ why ∈ [DropWhy.reservedType,
      DropWhy.lenAbove512, DropWhy.lenMismatch, DropWhy.reservedBlock]) ∧
    (∃ (s : State) (n : Fin 40) (c : Instr) (bits : ℕ), s.dev.takes (laneB n) 264 ∧ (c = Instr.injBit n ∧ bits = 1 ∨ c
      = Instr.injBurst n ∧ bits = max 1 (fld (s.dev.lget n R.LANE_PAT_CTL) 15 8)) ∧ s.dev.laneUp n = true) ∧
    (∃ (s : State) (n : Fin 40) (c : Instr) (bits : ℕ), s.dev.hostOk = true ∧ s.dev.accErr (laneB n) 264 = 0 ∧
      s.dev.flt.slices[(laneB n).region].unit = none ∧ s.dev.patEnding n s.pending = false ∧ List.foldl max
      (s.dev.patSent n) (List.map (fun (i : ℕ × ℕ) => i.1 + i.2) s.dev.lanes[n].patInj) < s.dev.patBits n ∧ (c =
      Instr.injBit n ∧ bits = 1 ∨ c = Instr.injBurst n ∧ bits = max 1 (fld (s.dev.lget n R.LANE_PAT_CTL) 15 8)) ∧
      s.dev.laneSt n = 7) ∧
    (∃ (s : State) (n : Fin 40) (r : PatResult), s.dev.dead = false ∧ s.dev.opRunning (laneB n) 1 = true ∧
      s.dev.laneSt n = 7 ∧ s.dev.lanes[n].farAsk = none ∧ s.dev.patBits n ≤ s.dev.patSent n) ∧
    (∃ (s : State) (n : Fin 40) (t : ℕ), s.dev.dead = false ∧ s.dev.opRunning (laneB n) 1 = true ∧ s.dev.laneSt n = 7
      ∧ s.dev.lanes[n].farAsk = some t ∧ s.dev.past t 100 = true) :=
  ⟨⟨(st (up 3 4 on)), 3, 1, 2, 3, by decide +kernel⟩,
    ⟨(st (ln (up 3 4 on) 3 fun x => { x with vc3 := some ⟨2, 0, 0, true⟩ })), 3, 1, 2, 3, ⟨2, 0, 0, true⟩, by decide +kernel⟩,
    ⟨(st ((ln (up 3 4 on) 3 fun x => { x with vc3 := some ⟨2, 0, 1, false⟩ }).put (laneB 3) R.LANE_DESC 9 7)), 3, [1,2,3], ⟨2,0,1,false⟩, by decide +kernel⟩,
    ⟨(st ((ln (up 3 4 on) 3 fun x => { x with vc3 := some ⟨2, 0, 1, false⟩ }).put (laneB 3) R.LANE_DESC 2 7)), 3, 2, ⟨2,0,1,false⟩, by decide +kernel⟩,
    ⟨(st (at_ (ln (up 3 4 on) 3 fun x => { x with vc3 := some ⟨2, 0, 1, false⟩ }) 10000000)), 3, ⟨2,0,1,false⟩, by decide +kernel⟩,
    ⟨(st ((up 3 4 on).put (laneB 3) R.LANE_RT_CTL 0)), 3, 1, by decide +kernel⟩,
    ⟨(st (up 3 4 on)), 3, .lenMismatch, 1, by decide +kernel⟩,
    ⟨(st (up 3 4 on)), 3, (.injBurst 3), 1, by unfold Dev.takes; decide +kernel⟩,
    ⟨(st ((up 3 7 on).put (laneB 3) R.LANE_PAT_LEN 1)), 3, (.injBit 3), 1, by decide +kernel⟩,
    ⟨(st (at_ (opr (up 3 7 on) (laneB 3) 1 0) 100000000)), 3, ⟨[1, 5], 2⟩, by decide +kernel⟩,
    ⟨(st (at_ (ln (opr (up 3 7 on) (laneB 3) 1 0) 3 fun x => { x with farAsk := some 0 }) 10000000)), 3, 0, by decide +kernel⟩⟩

end Ch11

namespace Ch12
def mc (d : Dev) (m : Fin 64) (r : Reg) (v : Word) : Dev := d.mput m r v
def ms (d : Dev) (m : Fin 64) (f : Msp → Msp) : Dev := { d with msps := vmod d.msps m f }
def cl (d : Dev) (m : Fin 64) (f : SCell → SCell) : Dev := d.cellMod (mspI m) f
def pm (k : PKind) : PMove := ⟨k, 0, 1, [⟨1/1000,0,1000000,1000⟩], 5, 1000⟩
def mv1 (v : Rat) : Dev := mc (ms on 40 fun x => { x with vel := v, prof := some (pm .move), queue := [1,2] }) 40 R.MSP_IN_CFG 0x100
def hm : Dev := mc (mc (ms on 40 fun x => { x with home := some ⟨7, none⟩, prof := some (pm .search) }) 40 R.MSP_HOME_STAT 1) 40 R.MSP_HOME_CFG 0
def opr (d : Dev) (b : Blk) (c p : Nat) : Dev := { d.put b R.OP_STAT 0x20000009 with ops := [⟨b, c, p, some 0, none, none⟩] }
def cm (k : Word) : List Byte := wordsBytes [100, k, 200, k]
def cd : Dev := mc (opr (sd on) (blk .mspin 2) 1 3) (cmpSpindle 2 3) R.MSP_CMP_LEN 2
def mtq : Dev := cl (at_ (ms on 4 fun x => { x with prof := some (pm .move) }) 800) 4 fun c => { c with st := 1 }

/-- States and operands that meet every hypothesis of SpindlesTakeValuesAndStopAtLimits. -/
theorem witness_SpindlesTakeValuesAndStopAtLimits :
    (∃ (s : State) (m : Fin 64) (v : Word), s.dev.takes (mspB m) (344 + 256 * mspC m) ∧ cfgOk m (v &&& R.MSP_CFG.mask)
      = true ∧ s.dev.webNamed m = false ∧ (fld (v &&& R.MSP_CFG.mask) 2 0 = 2 → fld (v &&& R.MSP_CFG.mask) 5 4 ≠ 2) ∧
      (isLocal m = true → s.dev.fenced (mpgB m) = false ∧ (∀ c ∈ s.dev.claims, c.owner ≠ mpgB m) ∧ ∀ r ∈ s.rivals, r.1
      ≠ mpgB m)) ∧
    (∃ (s : State) (m : Fin 64) (v : Word), s.dev.takes (mspB m) (344 + 256 * mspC m) ∧ cfgOk m (v &&& R.MSP_CFG.mask)
      = false) ∧
    (∃ (s : State) (m : Fin 64) (v : Word), s.dev.takes (mspB m) (368 + 256 * mspC m) ∧ s.dev.mstepSrc m = false ∧
      s.dev.msps[m].blockP = false ∧ s.dev.msps[m].blockN = false) ∧
    (∃ (s : State) (m : Fin 64) (i : Fin 9) (r : Reg) (v : Word), s.dev.takes (mspB m) (372 + 4 * ↑i + 256 * mspC m) ∧
      profRegs[↑i]? = some r) ∧
    (∃ (s : State) (m : Fin 64) (pos : Bool), s.dev.dead = false ∧ s.dev.mlive m = true ∧ bit (s.dev.mget m
      R.MSP_STAT) (if pos = true then 8 else 7) = false ∧ s.dev.msps[m].vel = 0) ∧
    (∃ (s : State) (m : Fin 64) (pos : Bool) (p : PMove), s.dev.dead = false ∧ s.dev.mlive m = true ∧ bit (s.dev.mget
      m R.MSP_STAT) (if pos = true then 8 else 7) = false ∧ (if pos = true then 0 < s.dev.msps[m].vel else
      s.dev.msps[m].vel < 0) ∧ s.dev.msps[m].home = none ∧ s.dev.msps[m].prof = some p ∧ p.kind = PKind.move ∧ bit
      (s.dev.mget m R.MSP_IN_CFG) 8 = true) ∧
    (∃ (s : State) (m : Fin 64) (pos : ℤ) (start : ℤ), s.dev.dead = false ∧ s.dev.mlive m = true ∧ bit (s.dev.mget m
      R.MSP_STAT) 9 = false ∧ s.dev.msps[m].home = some { start := start, latched := none } ∧ fld (s.dev.mget m
      R.MSP_HOME_STAT) 2 0 = 1 ∧ fld (s.dev.mget m R.MSP_HOME_CFG) 1 0 = 0) :=
  ⟨⟨(st on), 5, 0x11, by unfold Dev.takes; decide +kernel⟩,
    ⟨(st on), 40, 0x21, by unfold Dev.takes; decide +kernel⟩,
    ⟨(st on), 40, 1000, by unfold Dev.takes; decide +kernel⟩,
    ⟨(st on), 40, 0, R.MSP_VS, 0, by unfold Dev.takes; decide +kernel⟩,
    ⟨(st on), 40, true, by decide +kernel⟩,
    ⟨(st (mv1 (1/1000))), 40, true, (pm .move), by decide +kernel⟩,
    ⟨(st hm), 40, 55, 7, by decide +kernel⟩⟩

/-- States and operands that meet every hypothesis of SpindlesHomeStopAndCompare. -/
theorem witness_SpindlesHomeStopAndCompare :
    (∃ (s : State) (m : Fin 64), s.dev.takes (mspB m) (mcmdOfs m) ∧ s.dev.mst m = 1 ∧ s.dev.cells[mspI m].held ≠ some
      s.dev.tick ∧ s.dev.msps[m].prof = none ∧ s.dev.msps[m].queue = [] ∧ (fld (s.dev.mget m R.MSP_HOME_CFG) 1 0 ≠ 0 →
      isLocal m = true → s.dev.mfb m = 1)) ∧
    (∃ (s : State) (m : Fin 64) (p : PMove) (c : Instr) (quick : Bool), (c, quick) ∈ [(Instr.stop m, false),
      (Instr.qstop m, true)] ∧ s.dev.takes (mspB m) (mcmdOfs m) ∧ s.dev.mst m ≠ 4 ∧ s.dev.msps[m].home = none ∧
      s.dev.msps[m].prof = some p ∧ p.kind = PKind.move) ∧
    (∃ (s : State) (b : Fin 8) (o : OpRec) (bs : List Byte), s.dev.dead = false ∧ s.dev.op (blk BT.mspin ↑b) = some o
      ∧ s.dev.opRunning (blk BT.mspin ↑b) 1 = true ∧ s.dev.sdRead s.mem (s.dev.addr2 (blk BT.mspin ↑b)
      R.MSP_CMP_ADDR_LO R.MSP_CMP_ADDR_HI (mspC (cmpSpindle b o.param))) (8 * fld (s.dev.mget (cmpSpindle b o.param)
      R.MSP_CMP_LEN) 10 0) = Except.ok bs) ∧
    (∃ (s : State) (m : Fin 64) (v : Word) (e : ℤ × ℕ × Bool) (es : List (ℤ × ℕ × Bool)), s.dev.takes (mspB m) (444 +
      256 * mspC m) ∧ bit v 0 = true ∧ bit v 2 = false ∧ bit (s.dev.mget m R.MSP_CMP_CTL) 0 = false ∧
      s.dev.msps[m].list = e :: es ∧ e.2.1 = 1 ∧ s.dev.mpos m < e.1) ∧
    (∃ (s : State) (b : Fin 8) (v : Word), s.dev.takes (blk BT.mspin ↑b) 2304) :=
  ⟨⟨(st (cl on 40 fun c => { c with st := 1 })), 40, by unfold Dev.takes; decide +kernel⟩,
    ⟨(st (cl (ms on 40 fun x => { x with prof := some (pm .move), vel := 1/1000, queue := [3] }) 40 fun c => { c with st := 1 })), 40, (pm .move), (.stop 40), false, by unfold Dev.takes; decide +kernel⟩,
    ⟨(stm cd (m0.rawWrite 0 (cm 1))), 2, ⟨blk .mspin 2, 1, 3, some 0, none, none⟩, (cm 1), by decide +kernel⟩,
    ⟨(st (ms on 4 fun x => { x with list := [(100, 1, false), (200, 1, true)] })), 4, 1, (100, 1, false), [(200, 1, true)], by unfold Dev.takes; decide +kernel⟩,
    ⟨(st (on.put (blk .mspin 2) R.MSP_KP 77 3)), 2, 0x0F, by unfold Dev.takes; decide +kernel⟩⟩

/-- States and operands that meet every hypothesis of PositionsAreCounted. -/
theorem witness_PositionsAreCounted :
    (∃ (s : State) (m : Fin 64) (p : PMove), s.dev.dead = false ∧ isLocal m = true ∧ s.dev.mlive m = true ∧
      s.dev.cells[mspI m].kDone ≠ some s.dev.tick ∧ runState (s.dev.mst m) = true ∧ s.dev.mdrive m = 0 ∧
      s.dev.mstepSrc m = false ∧ s.dev.msps[m].home = none ∧ s.dev.msps[m].prof = some p ∧ p.t + 1 < phasesTime
      p.phases) ∧
    (∃ (s : State) (p : Fin 16) (a : Bool) (b : Bool) (step : ℤ), s.dev.dead = false ∧ s.dev.mpgOn (portM p) = true ∧
      s.dev.mlive (portM p) = true ∧ s.dev.mfb (portM p) = 1 ∧ bit (s.dev.mget (portM p) R.MSP_CMP_CTL) 0 = false ∧
      ((quadPhase (a != bit (s.dev.portPol p) 11) (b != bit (s.dev.portPol p) 12) + 4 - quadPhase s.dev.msps[portM
      p].quad.1 s.dev.msps[portM p].quad.2) % 4, step) ∈ [(1, 1), (3, -1)]) ∧
    (∃ (s : State) (p : Fin 16) (h : BitVec 3) (step : ℤ), s.dev.dead = false ∧ s.dev.mpgOn (portM p) = true ∧
      s.dev.mlive (portM p) = true ∧ s.dev.mfb (portM p) = 3 ∧ bit (s.dev.mget (portM p) R.MSP_CMP_CTL) 0 = false ∧
      hallStep s.dev.msps[portM p].hall (h ^^^ BitVec.extractLsb' 8 3 (s.dev.portPol p)).toNat = some step) ∧
    (∃ (s : State) (m : Fin 64) (latched : ℤ), s.dev.dead = false ∧ s.dev.mlive m = true ∧ s.dev.msps[m].home = none ∧
      (isLocal m = true → s.dev.mfb m = 1 ∧ bit (s.dev.mget m R.MSP_IN_CFG) 12 = false)) ∧
    (∃ (s : State) (p : Fin 16) (up : Bool), s.dev.dead = false ∧ s.dev.mpgOn (portM p) = true ∧ s.dev.mlive (portM p)
      = true ∧ s.dev.mstepSrc (portM p) = true) ∧
    (∃ (s : State) (p : Fin 16) (f : BissFrame), s.dev.dead = false ∧ s.dev.mpgOn (portM p) = true ∧ s.dev.mlive
      (portM p) = true ∧ s.dev.mfb (portM p) = 2 ∧ bit (s.dev.mget (portM p) R.MSP_CMP_CTL) 0 = false) ∧
    (∃ (s : State) (m : Fin 64), s.dev.dead = false ∧ s.dev.mlive m = true ∧ s.dev.past s.dev.msps[m].winStart (max 1
      (fld (s.dev.mget m R.MSP_SPD_CFG) 15 0)) = true) ∧
    (∃ (s : State) (m : Fin 64) (t : ℕ) (u : Bool), s.dev.dead = false ∧ s.dev.mlive m = true ∧ s.dev.msps[m].edgeAt =
      some (t, u) ∧ s.dev.past t (BitVec.toNat (s.dev.mget m R.MSP_STILL_US)) = true) ∧
    (∃ (s : State) (m : Fin 64), s.dev.dead = false ∧ s.dev.msps[m].pulseAt.isSome = true ∧ s.dev.pulsing m = false) :=
  ⟨⟨(st mtq), 4, (pm .move), by decide +kernel⟩,
    ⟨(st (mc on 4 R.MSP_CFG 0x10)), 4, true, false, 1, by decide +kernel⟩,
    ⟨(st (mc (ms on 4 fun x => { x with hall := 1 }) 4 R.MSP_CFG 0x30)), 4, 3, 1, by decide +kernel⟩,
    ⟨(st (mc on 4 R.MSP_CFG 0x10)), 4, 5, by decide +kernel⟩,
    ⟨(st (mc (mc on 4 R.MSP_CFG 0x40) 4 R.MSP_STEPIN 77)), 4, true, by decide +kernel⟩,
    ⟨(st (mc (mc on 4 R.MSP_CFG 0x20) 4 R.MSP_STEPIN 77)), 4, ⟨99, true, true, true, true⟩, by decide +kernel⟩,
    ⟨(st (at_ (ms on 4 fun x => { x with winNet := -7 }) 1000000000)), 4, by decide +kernel⟩,
    ⟨(st (at_ (ms on 4 fun x => { x with edgeAt := some (0, true) }) 1000000000)), 4, 0, true, by decide +kernel⟩,
    ⟨(st (at_ (ms on 4 fun x => { x with pulseAt := some 0 }) 1000000000)), 4, by decide +kernel⟩⟩

end Ch12

namespace Ch13
def pz : Mem := { m0 with poison := [0, 5, 9] }
def opr (d : Dev) (b : Blk) (c p : Nat) : Dev := { d.put b R.OP_STAT 0x20000009 with ops := [⟨b, c, p, some 0, none, none⟩] }
def g (p : Nat) : MigMem := ⟨1, 16, p, []⟩
def mm (p : Nat) : Mem := { m0 with migs := Vector.replicate 2 (some (g p)) }
def rl : Nat := (sd on).rankLines
def md : Dev := (opr (sd on) (sdcB 1) 1 0).put (sdcB 1) R.OP_PART 0x210 3
def lv : Dev :=
  let d := (at_ (sd on) 1000000).put (sdcB 1) R.SDC_STAT 0x000000F0
  { d with sdc := vmod d.sdc 1 fun x => { x with train := 0x10 } }
def lo : Dev := { lv with sdc := vmod lv.sdc 1 fun x => { x with units := x.units.set 11 ⟨2, 0, none, none⟩ } }
def mo (p : Nat) : OpRec := ⟨march, 1, p, some 0, none, none⟩

def rq (line : Nat) (ofs : Fin 64) (n : Nat) : SdReq := ⟨false, true, line, ofs, n, none, .clean, false⟩
def fl (a passed : Nat) : Flight := ⟨false, false, a, 64, none, .clean, false, passed, false⟩
def fli (l : List Flight) : Dev := { sd on with sdc := vmod on.sdc 0 fun x => { x with flight := l } }

/-- States and operands that meet every hypothesis of RequestsAreServedAndRanksMigrate. -/
theorem witness_RequestsAreServedAndRanksMigrate :
    (∃ (s : State) (ch : Fin 2) (r : SdReq), s.dev.dead = false ∧ min r.len (64 - ↑r.ofs) = 0) ∧
    (∃ (s : State) (ch : Fin 2) (r : SdReq), s.dev.dead = false ∧ 0 < min r.len (64 - ↑r.ofs) ∧ s.dev.installed <
      lineAddr s.dev.rowBits (↑ch) 0 r.line + ↑r.ofs + min r.len (64 - ↑r.ofs)) ∧
    (∃ (s : State) (ch : Fin 2) (r : SdReq), s.dev.dead = false ∧ 0 < min r.len (64 - ↑r.ofs) ∧ lineAddr s.dev.rowBits
      (↑ch) 0 r.line + ↑r.ofs + min r.len (64 - ↑r.ofs) ≤ s.dev.installed ∧ s.dev.up (sdcB ch) = false) ∧
    (∃ (s : State) (ch : Fin 2) (r : SdReq), s.dev.dead = false ∧ 0 < min r.len (64 - ↑r.ofs) ∧ lineAddr s.dev.rowBits
      (↑ch) 0 r.line + ↑r.ofs + min r.len (64 - ↑r.ofs) ≤ s.dev.installed ∧ s.dev.up (sdcB ch) = true ∧ s.dev.getB
      (sdcB ch) R.SDC_STAT 18 = true) ∧
    (∃ (s : State) (ch : Fin 2) (r : SdReq), s.dev.dead = false ∧ 0 < min r.len (64 - ↑r.ofs) ∧ lineAddr s.dev.rowBits
      (↑ch) 0 r.line + ↑r.ofs + min r.len (64 - ↑r.ofs) ≤ s.dev.installed ∧ s.dev.up (sdcB ch) = true ∧ s.dev.getB
      (sdcB ch) R.SDC_STAT 18 = false ∧ (∀ (r : Fin 16), s.dev.flt.slices[r].unit = none) ∧ s.dev.sdc[ch].wait = [] ∧
      s.dev.sdc[ch].flight.length < 512 ∧ (r.panic = true ∨ s.dev.sdc[ch].flight.length < 448)) ∧
    (∃ (s : State) (ch : Fin 2) (r : SdReq), s.dev.dead = false ∧ 0 < min r.len (64 - ↑r.ofs) ∧ lineAddr s.dev.rowBits
      (↑ch) 0 r.line + ↑r.ofs + min r.len (64 - ↑r.ofs) ≤ s.dev.installed ∧ s.dev.up (sdcB ch) = true ∧ s.dev.getB
      (sdcB ch) R.SDC_STAT 18 = false ∧ (∀ (r : Fin 16), s.dev.flt.slices[r].unit = none) ∧
      s.dev.sdc[ch].flight.length = 512) ∧
    (∃ (d : Dev) (m : Mem) (ch : Fin 2) (l : List Flight) (i : ℕ) (x : Flight), l[i]? = some x ∧ x.panic = true ∧ (fun
      (y : Flight) => d.overLimit ch (d.flightRank m ch y) = false) x ∧ ∀ j < i, ∀ (y : Flight), l[j]? = some y →
      y.panic = true → ¬(fun (y : Flight) => d.overLimit ch (d.flightRank m ch y) = false) y) ∧
    (∃ (d : Dev) (m : Mem) (ch : Fin 2) (l : List Flight) (i : ℕ) (x : Flight), l[i]? = some x ∧ (∀ y ∈ l, y.panic =
      false ∧ y.hit = false) ∧ (fun (y : Flight) => d.overLimit ch (d.flightRank m ch y) = false) x ∧ ∀ j < i, ∀ (y :
      Flight), l[j]? = some y → ¬(fun (y : Flight) => d.overLimit ch (d.flightRank m ch y) = false) y) ∧
    (∃ (d : Dev) (m : Mem) (ch : Fin 2) (l : List Flight) (i : ℕ) (x : Flight), l[i]? = some x ∧ (∀ y ∈ l, y.panic =
      false) ∧ (fun (y : Flight) => d.overLimit ch (d.flightRank m ch y) = false) x ∧ 16 ≤ x.passed) ∧
    (∃ (m : Mem) (d : Dev) (ch : Fin 2) (x : Flight), d.sdc[ch].flight = [x] ∧ d.sdc[ch].wait = [] ∧ x.addr + x.len ≤
      d.installed ∧ d.up (sdcB ch) = true ∧ d.getB (sdcB ch) R.SDC_STAT 18 = false ∧ d.overLimit ch (d.flightRank m ch
      x) = false) ∧
    (∃ (s : State), s.pending = [] ∧ s.dev.dead = false ∧ (∀ o ∈ s.dev.ops, o.abortAt = none) ∧ ∀ (r : Fin 16),
      s.dev.flt.slices[r].unit = none) ∧
    (∃ (s : State) (ch : Fin 2), s.dev.dead = false ∧ s.dev.getB (sdcB ch) R.SDC_SCRUB 0 = true ∧ s.dev.up (sdcB ch) =
      true ∧ s.dev.getB (sdcB ch) R.SDC_STAT 18 = false ∧ (∀ (r : Fin 16), s.dev.flt.slices[r].unit = none) ∧
      s.dev.sdc[ch].flight = [] ∧ s.dev.sdc[ch].wait = [] ∧ 0 < s.dev.getF (blk BT.boot 0) R.BOOT_FILL 2 0 *
      s.dev.rankLines ∧ s.dev.scrubDue ch (s.dev.getF (blk BT.boot 0) R.BOOT_FILL 2 0 * s.dev.rankLines) = true ∧
      lineAddr s.dev.rowBits (↑ch) (s.dev.sdc[ch].scrub % (s.dev.getF (blk BT.boot 0) R.BOOT_FILL 2 0 *
      s.dev.rankLines) / s.dev.rankLines) (s.dev.sdc[ch].scrub % (s.dev.getF (blk BT.boot 0) R.BOOT_FILL 2 0 *
      s.dev.rankLines) % s.dev.rankLines) + 64 ≤ s.dev.installed) ∧
    (∃ (s : State) (ch : Fin 2) (g : MigMem), s.dev.dead = false ∧ s.mem.migs[ch] = some g ∧ s.dev.opRunning (sdcB ch)
      1 = true ∧ g.p < s.dev.rankLines ∧ s.mem.poisoned (lineAddr g.rb (↑ch) g.rank g.p) 64 = false ∧ s.dev.mayCopy ch
      = true) ∧
    (∃ (s : State) (ch : Fin 2) (g : MigMem), s.dev.dead = false ∧ s.mem.migs[ch] = some g ∧ s.dev.opRunning (sdcB ch)
      1 = true ∧ g.p = s.dev.rankLines ∧ g.rank < 4 ∧ s.dev.getF (sdcB ch) R.OP_PART 5 4 3 ≠ s.dev.getF (sdcB ch)
      R.OP_PART 9 8 3) :=
  ⟨⟨st (sd on), 0, rq 0 0 0, by decide +kernel⟩,
    ⟨st (sd on), 0, rq 0x40000000 0 4, by decide +kernel⟩,
    ⟨st ((sd on).putF (sdcB 0) R.BLK_CTL 5 4 2), 0, rq 3 60 8, by decide +kernel⟩,
    ⟨st ((sd on).putB (sdcB 0) R.SDC_STAT 18 true), 0, rq 3 60 8, by decide +kernel⟩,
    ⟨st (sd on), 0, rq 3 60 8, by decide +kernel⟩,
    ⟨st (fli (List.replicate 512 (fl 0 0))), 0, rq 3 60 8, by decide +kernel⟩,
    ⟨sd on, m0, 0, [fl 0 0, { fl 64 0 with panic := true }], 1, { fl 64 0 with panic := true }, by decide +kernel, by decide +kernel,
      by decide +kernel, fun j hj y hy => by obtain rfl : j = 0 := by omega
                                             obtain rfl : fl 0 0 = y := by simpa using hy
                                             simp [fl]⟩,
    ⟨sd on, m0, 0, [fl 0 0], 0, fl 0 0, by decide +kernel, by decide +kernel, by decide +kernel, fun j hj => by omega⟩,
    ⟨sd on, m0, 0, [fl 0 3, fl 64 16], 1, fl 64 16, by decide +kernel, by decide +kernel, by decide +kernel, by decide +kernel⟩,
    ⟨pz, fli [fl 0 0], 0, fl 0 0, by decide +kernel⟩,
    ⟨st on, by decide +kernel⟩,
    ⟨(st ((sd on).put (sdcB 1) R.SDC_SCRUB 1)), 1, by decide +kernel⟩,
    ⟨(stm (opr (sd on) (sdcB 1) 1 0) (mm 7)), 1, (g 7), by decide +kernel⟩,
    ⟨(stm md (mm rl)), 1, (g rl), by decide +kernel⟩⟩

/-- States and operands that meet every hypothesis of RefreshesAreOwedAndIssued. -/
theorem witness_RefreshesAreOwedAndIssued :
    (∃ (s : State) (ch : Fin 2) (r : Fin 4) (b : Fin 4), s.dev.dead = false ∧ s.dev.rankLive ch r = true ∧ s.dev.refOn
      ch = true ∧ s.dev.pastNs s.dev.sdc[ch].units[unitIx r b].accr (if s.dev.rankDbl ch r = true then 1950 else 3900)
      = true) ∧
    (∃ (s : State) (ch : Fin 2) (r : Fin 4) (b : Fin 4), s.dev.dead = false ∧ s.dev.rankLive ch r = true ∧ s.dev.refOn
      ch = true ∧ 0 < s.dev.sdc[ch].units[unitIx r b].owed ∧ (∀ (t : ℕ), s.dev.sdc[ch].units[unitIx r b].last = some t
      → s.dev.pastNs t (s.dev.getF (sdcB ch) R.SDC_TRFCSB 11 0) = true) ∧ (∀ (w : ℕ × ℕ), s.dev.sdc[ch].units[unitIx r
      b].was = some w → w.1 ≠ s.dev.now) ∧ ((∀ x ∈ s.dev.sdc[ch].flight, bankOf x.addr = ↑b → s.dev.flightRank s.mem
      ch x ≠ r) ∨ s.dev.owedLimit ch r < s.dev.sdc[ch].units[unitIx r b].owed)) ∧
    (∃ (s : State) (ch : Fin 2) (r : Fin 4), s.dev.dead = false ∧ s.dev.rankLive ch r = true ∧ s.dev.rankDbl ch r =
      false ∧ s.dev.past s.dev.sdc[ch].polled[r] (s.dev.getF (sdcB ch) R.SDC_REF_CTL 15 8 * 1000) = true) ∧
    (∃ (s : State) (ch : Fin 2) (dis : Bool), s.dev.takes (sdcB ch) 268) :=
  ⟨⟨(st lv), 1, 2, 3, by decide +kernel⟩,
    ⟨(st lo), 1, 2, 3, by decide +kernel⟩,
    ⟨(st (at_ lo 1000000000)), 1, 2, by decide +kernel⟩,
    ⟨(st lo), 1, true, by unfold Dev.takes; decide +kernel⟩⟩

/-- States and operands that meet every hypothesis of PoolWordsAndMarches. -/
theorem witness_PoolWordsAndMarches :
    (∃ (s : State) (v : Word), s.dev.takes sramp 272 ∧ s.dev.bankStatus (s.dev.getF sramp R.SRAMP_ACC_ADDR 24 2 * 4 /
      65536) = 0 ∧ (s.dev.getF sramp R.SRAMP_ACC_ADDR 24 2 * 4 / 65536 < 16 ∨ 48 ≤ s.dev.getF sramp R.SRAMP_ACC_ADDR
      24 2 * 4 / 65536) ∧ spGet s.dev.pool.words (s.dev.getF sramp R.SRAMP_ACC_ADDR 24 2 * 4) = some v ∧
      s.dev.poolSick (s.dev.getF sramp R.SRAMP_ACC_ADDR 24 2 * 4) = false) ∧
    (∃ (s : State) (o : OpRec) (fails : List (Fin 8192 × Fin 72)), s.dev.dead = false ∧ s.dev.op march = some o ∧
      s.dev.opRunning march 1 = true ∧ s.dev.getN march R.OP_PART < s.dev.marchRange.2 ∧ o.param.testBit 0 = false ∧
      o.param.testBit 1 = false) ∧
    (∃ (s : State) (o : OpRec) (fails : List (Fin 8192 × Fin 72)), s.dev.dead = false ∧ s.dev.op march = some o ∧
      s.dev.opRunning march 1 = true ∧ s.dev.getN march R.OP_PART < s.dev.marchRange.2 ∧ o.param.testBit 0 = true) ∧
    (∃ (s : State), s.dev.dead = false ∧ s.dev.opRunning march 1 = true ∧ s.dev.getN march R.OP_PART =
      s.dev.marchRange.2) :=
  ⟨⟨(st ({on with pool := {on.pool with words := [(0xF00000, 5)]}}.put sramp R.SRAMP_ACC_ADDR 0x00F00000)), 5, by unfold Dev.takes; decide +kernel⟩,
    ⟨(st ((opr on march 1 0).put march R.MARCH_FIRST 5)), (mo 0), [(1,2),(3,4)], by decide +kernel⟩,
    ⟨(st ({ (opr on march 1 1) with pool := {on.pool with words := [(0x0, 5), (4, 7)]}})), (mo 1), [(1,2),(3,4)], by decide +kernel⟩,
    ⟨(st ((opr on march 1 0).put march R.OP_PART (wd (opr on march 1 0).marchRange.2) 0)), by decide +kernel⟩⟩

end Ch13

namespace Ch14
def rcv : Dev := (on.putF timeB R.TIME_CTL 1 0 1).putB timeB R.TIME_CTL 5 true
def hdr : PtpHdr := ⟨0, 5, 0⟩
def syn (two : Bool) : SyncMsg := ⟨hdr, two, ⟨10, 500⟩, ⟨10, 100⟩, 3⟩

/-- States and operands that meet every hypothesis of NetworkTimeFollowsItsPorts. -/
theorem witness_NetworkTimeFollowsItsPorts :
    (∃ (s : State) (p : Fin 2) (m : SyncMsg), s.dev.dead = false ∧ s.dev.portOn p = true ∧ s.dev.portState p = 1 ∧
      s.dev.inDomain m.hdr = true ∧ m.twoStep = true) ∧
    (∃ (s : State) (p : Fin 2) (m : SyncMsg), s.dev.dead = false ∧ s.dev.portOn p = true ∧ s.dev.portState p = 1 ∧
      s.dev.inDomain m.hdr = true ∧ ¬m.twoStep = true) ∧
    (∃ (s : State) (p : Fin 2) (m : FollowMsg) (t2 : ℤ) (c : ℤ), s.dev.dead = false ∧ s.dev.portOn p = true ∧
      s.dev.portState p = 1 ∧ s.dev.inDomain m.hdr = true ∧ s.dev.tim.ports[p].wait = some (m.hdr.seq, t2, c)) ∧
    (∃ (s : State) (p : Fin 2) (rx : PtpTime) (m : PtpHdr), s.dev.dead = false ∧ s.dev.portOn p = true ∧
      s.dev.portState p = 2 ∧ s.dev.inDomain m = true) ∧
    (∃ (s : State) (p : Fin 2) (m : FollowMsg) (t3 : ℤ), s.dev.dead = false ∧ s.dev.portOn p = true ∧ s.dev.portState
      p = 1 ∧ s.dev.inDomain m.hdr = true ∧ s.dev.tim.ports[p].dreq = some (m.hdr.seq, t3) ∧ s.dev.activePort = some p
      ∧ s.dev.tim.ports[p].paired = true) ∧
    (∃ (s : State) (p : Fin 2) (m : AnnMsg), s.dev.dead = false ∧ s.dev.portOn p = true ∧ (s.dev.portState p = 1 ∨
      s.dev.portState p = 3) ∧ s.dev.inDomain m.hdr = true) ∧
    (∃ (s : State), s.dev.takes timeB 292 ∧ (s.dev.getB timeB R.TIME_STAT 0 = true ∨ s.dev.tim.openTill = some
      s.dev.now)) ∧
    (∃ (s : State), s.dev.takes timeB 292 ∧ ¬(s.dev.getB timeB R.TIME_STAT 0 = true ∨ s.dev.tim.openTill = some
      s.dev.now)) ∧
    (∃ (s : State) (p : Fin 2), s.dev.dead = false ∧ s.dev.portOn p = true ∧ s.dev.portState p = 2 ∧ ∀ (t : ℕ),
      s.dev.tim.ports[p].tAt = some t → s.dev.logOver 1 (s.dev.getF timeB R.TIME_DOMAIN 15 8) t = true) ∧
    (∃ (s : State) (p : Fin 2), s.dev.dead = false ∧ s.dev.portOn p = true ∧ s.dev.portState p = 2 ∧ ∀ (t : ℕ),
      s.dev.tim.ports[p].aAt = some t → s.dev.logOver 1 (s.dev.getF timeB R.TIME_DOMAIN 23 16) t = true) ∧
    (∃ (s : State) (p : Fin 2), s.dev.dead = false ∧ s.dev.portOn p = true ∧ s.dev.portState p = 1 ∧ ∀ (t : ℕ),
      s.dev.tim.ports[p].dAt = some t → s.dev.logOver 1 (s.dev.getF timeB R.TIME_PORT_CFG 15 8 ↑p) t = true) ∧
    (∃ (s : State) (p : Fin 2), s.dev.dead = false ∧ s.dev.portOn p = true ∧ s.dev.portState p = 1 ∧ s.dev.portLate p
      = false ∧ s.dev.announceOver s.dev.tim.ports[p].syncAt = true) :=
  ⟨⟨(st rcv), 0, (syn true), by decide +kernel⟩,
    ⟨(st rcv), 0, (syn false), by decide +kernel⟩,
    ⟨(st ((rcv.putB timeB R.TIME_STAT 0 false).portMod 0 fun x => { x with wait := some (5, 900, 2) })), 0, ⟨hdr, ⟨10, 7⟩, 1⟩, 900, 2, by decide +kernel⟩,
    ⟨(st (on.putF timeB R.TIME_CTL 1 0 2)), 0, ⟨10, 500⟩, hdr, by decide +kernel⟩,
    ⟨(st (rcv.portMod 0 fun x => { x with dreq := some (5, 77), paired := true, t1 := 5, t2 := 9 })), 0, ⟨hdr, ⟨10, 7⟩, 1⟩, 77, by decide +kernel⟩,
    ⟨(st rcv), 0, ⟨hdr, 37, true, 5, 6⟩, by decide +kernel⟩,
    ⟨(st ((rcv.put timeB R.TIME_SET_SEC_LO 5).put timeB R.TIME_SET_NS 7)), by unfold Dev.takes; decide +kernel⟩,
    ⟨(st (((rcv.put timeB R.TIME_SET_SEC_LO 5).put timeB R.TIME_SET_NS 7).putB timeB R.TIME_STAT 0 false)), by unfold Dev.takes; decide +kernel⟩,
    ⟨(st (at_ (on.putF timeB R.TIME_CTL 1 0 2) 80000000000)), 0, by unfold Dev.logOver; decide +kernel⟩,
    ⟨(st (at_ (on.putF timeB R.TIME_CTL 1 0 2) 80000000000)), 0, by unfold Dev.logOver; decide +kernel⟩,
    ⟨(st (at_ rcv 80000000000)), 0, by decide +kernel⟩,
    ⟨(st (at_ rcv 80000000000)), 0, by decide +kernel⟩⟩

end Ch14

namespace Ch15
def ton : Dev := (at_ on 1000000)
def tk (d : Dev) (ns : Nat) : Dev := { d with tim := { d.tim with clock := ns * 2^32 } }
def tf (v : Word) : Dev := { (tk on 500).put timeB R.TIME_TRIG_CTL v 3 with claims := [⟨timeB, 1, timeB, 3⟩] }
def to_ (d : Dev) : Dev := ((d.put timeB R.TIME_TRIG_CTL 0x5 3).put timeB R.TIME_TRIG_TARGET (wd (latB.region.val + 16 * latB.block.val)) 3).put timeB R.TIME_TRIG_OPCMD 0x10000109 3
def fm0 : BitVec 64 := faultMsg latB none 1 5 false false false false 0
def fmS (d : Dev) : Dev := { d with fabric := [⟨.flt, latB, fltc, none, .fault fm0, 0, 0, .inbox, 0⟩] }
def q1 : Dev := { on with flt := { on.flt with queue := [on.entryOf fm0, on.entryOf fm0] } }
def cf1 : Dev := { on.cellMod (headCell 0 3) fun c => { c with st := 5 } with flt := { on.flt with cf := on.flt.cf.set 3 (some ⟨blk .servo 0, 3⟩) } }
def sm (o : Nat) : Dev := at_ ({ on with flt := { on.flt with storm := on.flt.storm.set 3 ⟨o, [], 0⟩ } } : Dev) 800000
def wd1 : Dev := { (at_ on 1000).put fltc R.FLTC_WDOG 1 with flt := { on.flt with wdogFrom := some 0 } }
def sl : Dev := (at_ (on.putB fltc R.FLTC_BIST_CTL 0 true) 1000000000)
def su (u : Nat × Option Nat) : Dev := { on with flt := { on.flt with slices := on.flt.slices.set 4 ⟨some u, 0, 0, [], none⟩ } }

/-- States and operands that meet every hypothesis of TriggersArmAndFire. -/
theorem witness_TriggersArmAndFire :
    (∃ (s : State) (t : Fin 8) (v : Word), s.dev.takes timeB (512 + 32 * ↑t) ∧ bit (R.TIME_TRIG_CTL.write (s.dev.get
      timeB R.TIME_TRIG_CTL ↑t) v) 0 = true ∧ s.dev.getB timeB R.TIME_TRIG_CTL 0 ↑t = false ∧ (bit
      (R.TIME_TRIG_CTL.write (s.dev.get timeB R.TIME_TRIG_CTL ↑t) v) 7 = true ∧ fld (R.TIME_TRIG_CTL.write (s.dev.get
      timeB R.TIME_TRIG_CTL ↑t) v) 2 1 = 0 → ∀ (c : Claim), s.dev.holder timeB (fld (R.TIME_TRIG_CTL.write (s.dev.get
      timeB R.TIME_TRIG_CTL ↑t) v) 6 5) = some c → c.by_ = timeB ∧ c.sub = ↑t)) ∧
    (∃ (s : State) (t : Fin 8) (v : Word) (c : Claim), s.dev.takes timeB (512 + 32 * ↑t) ∧ bit (R.TIME_TRIG_CTL.write
      (s.dev.get timeB R.TIME_TRIG_CTL ↑t) v) 0 = true ∧ bit (R.TIME_TRIG_CTL.write (s.dev.get timeB R.TIME_TRIG_CTL
      ↑t) v) 7 = true ∧ fld (R.TIME_TRIG_CTL.write (s.dev.get timeB R.TIME_TRIG_CTL ↑t) v) 2 1 = 0 ∧ s.dev.holder
      timeB (fld (R.TIME_TRIG_CTL.write (s.dev.get timeB R.TIME_TRIG_CTL ↑t) v) 6 5) = some c ∧ ¬(c.by_ = timeB ∧
      c.sub = ↑t)) ∧
    (∃ (s : State) (t : Fin 8), s.dev.dead = false ∧ s.dev.up timeB = true ∧ s.dev.getB timeB R.TIME_TRIG_CTL 0 ↑t =
      true ∧ s.dev.tim.trig[t].next ≤ s.dev.tim.ns ∧ s.dev.getF timeB R.TIME_TRIG_CTL 2 1 ↑t = 0) ∧
    (∃ (s : State) (t : Fin 8) (bt : BT) (n : ℕ), s.dev.dead = false ∧ s.dev.up timeB = true ∧ s.dev.getB timeB
      R.TIME_TRIG_CTL 0 ↑t = true ∧ s.dev.tim.trig[t].next ≤ s.dev.tim.ns ∧ s.dev.getF timeB R.TIME_TRIG_CTL 2 1 ↑t =
      2 ∧ blkKind (⟨Fin.ofNat 16 (fld (s.dev.get timeB R.TIME_TRIG_TARGET ↑t) 3 0), Fin.ofNat 64 (fld (s.dev.get timeB R.TIME_TRIG_TARGET ↑t) 9 4)⟩ : Blk) = some (bt, n) ∧ fld (s.dev.get timeB R.TIME_TRIG_OPCMD ↑t)
      31 28 = 1 ∧ fld (s.dev.get timeB R.TIME_TRIG_OPCMD ↑t) 15 8 ∈ opCodes bt ∧ s.dev.opState (⟨Fin.ofNat 16 (fld (s.dev.get timeB R.TIME_TRIG_TARGET ↑t) 3 0), Fin.ofNat 64 (fld (s.dev.get timeB R.TIME_TRIG_TARGET ↑t) 9 4)⟩ : Blk) = 0 ∧ (s.dev.staged.isSome = true ∨ s.dev.running.isSome = true)) ∧
    (∃ (s : State) (t : Fin 8) (bt : BT) (n : ℕ), s.dev.dead = false ∧ s.dev.up timeB = true ∧ s.dev.getB timeB
      R.TIME_TRIG_CTL 0 ↑t = true ∧ s.dev.tim.trig[t].next ≤ s.dev.tim.ns ∧ s.dev.getF timeB R.TIME_TRIG_CTL 2 1 ↑t =
      2 ∧ blkKind (⟨Fin.ofNat 16 (fld (s.dev.get timeB R.TIME_TRIG_TARGET ↑t) 3 0), Fin.ofNat 64 (fld (s.dev.get timeB R.TIME_TRIG_TARGET ↑t) 9 4)⟩ : Blk) = some (bt, n) ∧ fld (s.dev.get timeB R.TIME_TRIG_OPCMD ↑t)
      31 28 = 1 ∧ fld (s.dev.get timeB R.TIME_TRIG_OPCMD ↑t) 15 8 ∈ opCodes bt ∧ s.dev.opState (⟨Fin.ofNat 16 (fld (s.dev.get timeB R.TIME_TRIG_TARGET ↑t) 3 0), Fin.ofNat 64 (fld (s.dev.get timeB R.TIME_TRIG_TARGET ↑t) 9 4)⟩ : Blk) = 0 ∧ ¬(s.dev.staged.isSome = true ∨ s.dev.running.isSome = true)) ∧
    (∃ (s : State) (t : Fin 8) (v : Word), s.dev.takes timeB (512 + 32 * ↑t) ∧ bit v 0 = false ∧ Instr.triggerFire t ∉
      s.pending) ∧
    (∃ (s : State) (t : Fin 8) (v : Word), s.dev.takes timeB (512 + 32 * ↑t) ∧ bit v 0 = false ∧ Instr.triggerFire t ∈
      s.pending) ∧
    (∃ (s : State) (i : Fin 4), s.dev.dead = false ∧ s.dev.tim.marks[i].level = true ∧ s.dev.pastNs
      s.dev.tim.marks[i].since s.dev.tim.marks[i].width = true) :=
  ⟨⟨(st (((tk on 500).put timeB R.TIME_TRIG_NS 700 3))), 3, 0xA1, by unfold Dev.takes; decide +kernel⟩,
    ⟨(st ({ on with claims := [⟨timeB, 1, timeB, 5⟩] })), 3, 0xA1, ⟨timeB, 1, timeB, 5⟩, by unfold Dev.takes; decide +kernel⟩,
    ⟨(st (tf 0xA1)), 3, by decide +kernel⟩,
    ⟨(st (to_ (tk (lay false) 500))), 3, .lattice, 0, by decide +kernel⟩,
    ⟨(st (to_ (tk on 500))), 3, .lattice, 0, by decide +kernel⟩,
    ⟨(st (tf 0xA1)), 3, 0xA0, by unfold Dev.takes; decide +kernel⟩,
    ⟨{ st (tf 0xA1) with pending := [.triggerFire 3] }, 3, 0xA0, by unfold Dev.takes; decide +kernel⟩,
    ⟨(st (at_ { on with tim := { on.tim with marks := on.tim.marks.set 1 ⟨true, 0, 100⟩ } } 1000)), 1, by decide +kernel⟩⟩

/-- States and operands that meet every hypothesis of MessagesAreCollected. -/
theorem witness_MessagesAreCollected :
    (∃ (s : State) (x : Msg) (m : BitVec 64), s.dev.dead = false ∧ s.dev.inReset fltc = false ∧ s.dev.flt.took = false
      ∧ (s.dev.inbox fltc fun (b : Body) => match b with | Body.fault m => true | x => false) = some x ∧ x.body =
      Body.fault m ∧ (∀ h ∈ s.dev.flt.handling, s.dev.now < h.2 + 8 → msgSrc h.1 ≠ msgSrc m) ∧ s.dev.flt.queue.length
      < 1022 ∧ s.dev.reacts m = false) ∧
    (∃ (s : State) (x : Msg) (m : BitVec 64), s.dev.dead = false ∧ s.dev.inReset fltc = false ∧ s.dev.flt.took = false
      ∧ (s.dev.inbox fltc fun (b : Body) => match b with | Body.fault m => true | x => false) = some x ∧ x.body =
      Body.fault m ∧ (∀ h ∈ s.dev.flt.handling, s.dev.now < h.2 + 8 → msgSrc h.1 ≠ msgSrc m) ∧ s.dev.flt.queue.length
      < 1022 ∧ s.dev.reacts m = true ∧ s.dev.getF (msgBlk m) R.FLT_REACT 2 0 = 2 ∧ neverFenced (msgBlk m) = false) ∧
    (∃ (s : State), s.dev.flt.took = true) ∧
    (∃ (s : State) (v : Word), s.dev.takes fltc 268 ∧ bit v 0 = true) ∧
    (∃ (s : State) (v : Word), s.dev.takes fltc 268 ∧ ¬bit v 0 = true) ∧
    (∃ (s : State) (v : Word), s.dev.takes fltc 384 ∧ s.dev.cellFenced (⟨Fin.ofNat 16 (fld v 3 0), Fin.ofNat 64 (fld v 9 4)⟩ : Blk) (fld v 15 10) = true) ∧
    (∃ (s : State) (v : Word), s.dev.takes fltc 384 ∧ ¬s.dev.cellFenced (⟨Fin.ofNat 16 (fld v 3 0), Fin.ofNat 64 (fld v 9 4)⟩ : Blk) (fld v 15 10) = true) ∧
    (∃ (s : State) (r : Fin 16), s.dev.dead = false ∧ r ∈ regions ∧ s.dev.flt.storm[r].ms < s.dev.tick / 1000) :=
  ⟨⟨(st (fmS on)), ⟨.flt, latB, fltc, none, .fault fm0, 0, 0, .inbox, 0⟩, fm0, by decide +kernel⟩,
    ⟨(st (fmS ((on.put fltc R.FLTC_ARM_KINDS 0xFF BT.lattice.idx).put latB R.FLT_REACT 2))), ⟨.flt, latB, fltc, none, .fault fm0, 0, 0, .inbox, 0⟩, fm0, by decide +kernel⟩,
    ⟨(st { on with flt := { on.flt with took := true } }), by decide +kernel⟩,
    ⟨(st q1), 1, by unfold Dev.takes; decide +kernel⟩,
    ⟨(st q1), 0, by unfold Dev.takes; decide +kernel⟩,
    ⟨(st cf1), (wd ((blk .servo 0).region.val + 16 * (blk .servo 0).block.val + 1024 * 3)), by unfold Dev.takes; decide +kernel⟩,
    ⟨(st cf1), (wd ((blk .servo 0).region.val + 16 * (blk .servo 0).block.val + 1024 * 2)), by unfold Dev.takes; decide +kernel⟩,
    ⟨(st ((sm 100000).putB fltc R.FLTC_CTL 1 true)), 3, by decide +kernel⟩⟩

/-- States and operands that meet every hypothesis of ForcedKindsAliveAndWatchdog. -/
theorem witness_ForcedKindsAliveAndWatchdog :
    (∃ (s : State) (b : Blk) (t : BT) (n : ℕ) (v : Word) (real : Word), blkKind b = some (t, n) ∧ s.dev.takes b 20) ∧
    (∃ (s : State) (b : Blk) (t : BT) (n : ℕ) (v : Word) (real : Word), blkKind b = some (t, n) ∧ s.dev.takes b 64) ∧
    (∃ (s : State), s.dev.dead = false ∧ s.dev.getB fltc R.FLTC_STAT 16 = true ∧ s.dev.past s.dev.aliveAt 500 = true) ∧
    (∃ (s : State), s.dev.takes fltc 288 ∧ s.dev.critAny = false ∧ s.dev.getB fltc R.FLTC_STAT 19 = false ∧
      s.dev.ready = true) ∧
    (∃ (s : State), s.dev.takes fltc 288 ∧ ¬(s.dev.critAny = false ∧ s.dev.getB fltc R.FLTC_STAT 19 = false ∧
      s.dev.ready = true)) ∧
    (∃ (s : State) (v : Word), s.dev.takes fltc 296) ∧
    (∃ (s : State), s.dev.dead = false ∧ s.dev.wdogOver = true ∧ s.dev.inReset fltc = false) :=
  ⟨⟨(st on), latB, .lattice, 0, 3, 0, by unfold Dev.takes; decide +kernel⟩,
    ⟨(st on), latB, .lattice, 0, 3, 0, by unfold Dev.takes; decide +kernel⟩,
    ⟨(st (at_ (on.putB fltc R.FLTC_STAT 16 true) 1000000)), by decide +kernel⟩,
    ⟨(st on), by unfold Dev.takes; decide +kernel⟩,
    ⟨(st (on.putB fltc R.FLTC_STAT 19 true)), by unfold Dev.takes; decide +kernel⟩,
    ⟨(st wd1), 7, by unfold Dev.takes; decide +kernel⟩,
    ⟨(st (at_ wd1 1000000000)), by decide +kernel⟩⟩

/-- States and operands that meet every hypothesis of SlicesTestIdleUnits. -/
theorem witness_SlicesTestIdleUnits :
    (∃ (s : State) (r : Fin 16), s.dev.dead = false ∧ s.dev.ready = true ∧ s.dev.getB fltc R.FLTC_BIST_CTL 0 = true ∧
      s.dev.flt.slices[r].unit = none ∧ s.dev.flt.slices[r].since + s.dev.sliceGap ≤ s.dev.now) ∧
    (∃ (s : State) (r : Fin 16) (u : ℕ × Option ℕ), s.dev.dead = false ∧ s.dev.flt.slices[r].unit = some u) :=
  ⟨⟨(st sl), 4, by decide +kernel⟩,
    ⟨(st (su (3, none))), 4, (3, none), by decide +kernel⟩⟩

end Ch15

namespace Ch16
def sm (r : Int) : SnsSample := ⟨r, none, none⟩
def sb : SnsSample := ⟨1000, none, none⟩
def hot : Dev := { on with thm := { on.thm with sns := on.thm.sns.set 5 ⟨Vector.replicate 3 7, Vector.replicate 3 0, 0, 0⟩ } }
def bad1 : Dev := { on with thm := { on.thm with sns := on.thm.sns.set 5 ⟨Vector.replicate 3 0, Vector.replicate 3 0, 1, 0⟩ } }
def sr (same : Bool) : Dev := let d := (on.putB aon R.AON_STAT 0 true).putB jrnl R.JRNL_CTL 0 true
  let d : Dev := { d with jrn := { d.jrn with found := true } }
  if same then d else d.put aon R.AON_SD 5 2
def gr (l : Nat) : Dev := let d := at_ (on.putF therm R.THERM_STAT 6 4 l) 1000000000
  { d with thm := { d.thm with grace := some 0 } }.putF therm R.THERM_SNS 14 12 l 5
def ma (l j : Nat) : Dev := let d := at_ ((on.putF therm R.THERM_STAT 6 4 l).putF therm R.THERM_STAT 3 0 j) 10000000000
  { d with thm := { d.thm with modeA := true } }.putF therm R.THERM_SNS 14 12 l 5
def ag : Dev := let d := at_ (lay false) 1000
  { d with thm := { d.thm with waiting := [(0, 0), (5, 1)] } }

/-- States and operands that meet every hypothesis of SamplesSetTheLevelAndRecordsAreKept. -/
theorem witness_SamplesSetTheLevelAndRecordsAreKept :
    (∃ (s : State) (k : Fin 64) (x : SnsSample), s.dev.dead = false ∧ s.dev.unitStatus therm (some ↑k) = 0 ∧ snsCause
      x = 0 ∧ s.dev.ready = true ∧ s.dev.snsSt ↑k = 0 ∧ (∀ (l : ℕ), l = 1 ∨ l = 2 ∨ l = 3 → x.reading < s.dev.snsThr
      (↑k) l) ∧ ∀ (j : Fin 64), s.dev.snsSt ↑j ≠ 3 ∧ s.dev.regionBroken (snsRegion ↑j) = false) ∧
    (∃ (s : State) (k : Fin 64) (x : SnsSample), s.dev.dead = false ∧ s.dev.unitStatus therm (some ↑k) = 0 ∧ snsCause
      x = 0 ∧ s.dev.snsSt ↑k < 3 ∧ s.dev.snsThr (↑k) 3 ≤ x.reading ∧ 7 ≤ s.dev.thm.sns[k].above[2] ∧ sampleWaits
      s.pending = false) ∧
    (∃ (s : State) (k : Fin 64) (x : SnsSample), s.dev.dead = false ∧ s.dev.unitStatus therm (some ↑k) = 0 ∧ snsCause
      x ≠ 0 ∧ s.dev.snsSt ↑k ≠ 4 ∧ 1 ≤ s.dev.thm.sns[k].bad) ∧
    (∃ (s : State), s.dev.dead = false ∧ s.dev.up therm = true ∧ s.dev.getB aon R.AON_STAT 0 = true ∧ 5 ≤ s.dev.stage
      ∧ s.dev.jUsable = true ∧ s.dev.jWindow = true ∧ (∀ t ∈ s.dev.jrn.queue, t.from_ ≠ JFrom.shutdown) ∧ (List.map
      JTx.size s.dev.jrn.queue).sum ≤ 65408) ∧
    (∃ (s : State), s.dev.takes aon 260) :=
  ⟨⟨st on, 5, sm 100, by decide +kernel, by decide +kernel, by decide +kernel, by decide +kernel, by decide +kernel, by
      rintro l (rfl | rfl | rfl) <;> decide +kernel, by decide +kernel⟩,
    ⟨(st hot), 5, (sm 590), by decide +kernel⟩,
    ⟨(st bad1), 5, sb, by decide +kernel⟩,
    ⟨(st (sr true)), by decide +kernel⟩,
    ⟨(st (sr false)), by unfold Dev.takes; decide +kernel⟩⟩

/-- States and operands that meet every hypothesis of ThrottlingAndAdmission. -/
theorem witness_ThrottlingAndAdmission :
    (∃ (s : State) (t : ℕ), s.dev.dead = false ∧ s.dev.thm.grace = some t ∧ s.dev.up therm = true ∧ s.dev.getF therm
      R.THERM_STAT 6 4 = 2 ∧ s.dev.past t (1000 * s.dev.getF therm R.THERM_GRACE 15 0) = true ∧ 2 ≤ s.dev.levelSoon
      s.pending) ∧
    (∃ (s : State), s.dev.levelSoon s.pending < 2) ∧
    (∃ (s : State), s.dev.dead = false ∧ s.dev.up therm = true ∧ s.dev.thm.modeA = true ∧ s.dev.getF therm
      R.THERM_STAT 6 4 = 2 ∧ s.dev.past s.dev.thm.jAt (1000 * s.dev.getF therm R.THERM_STEP 15 0) = true ∧ 2 ≤
      s.dev.levelSoon s.pending ∧ s.dev.getF therm R.THERM_CTL 11 8 < s.dev.getF therm R.THERM_STAT 3 0) ∧
    (∃ (s : State), s.dev.dead = false ∧ s.dev.up therm = true ∧ s.dev.thm.modeA = true ∧ s.dev.getF therm
      R.THERM_STAT 6 4 < 2 ∧ s.dev.getF therm R.THERM_STAT 3 0 < 8 ∧ s.dev.past (max s.dev.thm.jAt s.dev.thm.fellAt)
      (1000 * s.dev.getF therm R.THERM_STEP 15 0) = true) ∧
    (∃ (s : State) (v : Word), s.dev.takes therm 256) ∧
    (∃ (s : State) (t : ℕ) (n : ℕ) (rest : List (ℕ × ℕ)), s.dev.dead = false ∧ s.dev.thm.waiting = (t, n) :: rest ∧ n
      < 32 ∧ (List.filter (fun (g : ℕ) => decide (s.dev.now < g + 8000)) s.dev.thm.grants).length < s.dev.getF therm
      R.THERM_ADMIT 5 0) :=
  ⟨⟨(st (gr 2)), 0, by decide +kernel⟩,
    ⟨(st (gr 1)), by decide +kernel⟩,
    ⟨(st (ma 2 7)), by decide +kernel⟩,
    ⟨(st (ma 1 7)), by decide +kernel⟩,
    ⟨(st (gr 2)), 0, by unfold Dev.takes; decide +kernel⟩,
    ⟨(st ag), 0, 0, [(5,1)], by decide +kernel⟩⟩

end Ch16

namespace Ch17
def bm (d : Dev) (k : Fin 8) (f : Bch → Bch) : Dev := { d with bch := vmod d.bch k f }
def ho (sp : Nat) (arm dn : Option Nat) : Ho := ⟨2, sp, 2, 0, arm, dn, false⟩
def now : Dev := at_ on 10000000
def tr (g : Bool) : TrimResult := ⟨25000, if g then 0 else 60000, 0xFFFFFFFF, 0x01020304⟩
def tb : Dev := bm (now.putB (bchB 3) R.BCHG_TRIM_STAT 1 true 2) 3 fun x => { x with trim := some (2, 7), run := some ([1], 3, []) }
def jn (f : Jrn → Jrn) : Dev := let d := on.putB jrnl R.JRNL_CTL 0 true
  { d with jrn := f { d.jrn with found := true } }
def tx : JTx := ⟨[(7, 0, [1,2,3]), (0x80, 5, [])], .append⟩
def ars : Vector JArea 2 := (Vector.replicate 2 ⟨false, 0, 0, [], 0⟩).set 0 ⟨true, 3, 0, [(4096, ⟨7, 0, 0, [1]⟩), (4200, ⟨0x80, 5, 1, [2]⟩), (4300, ⟨0x80, 5, 2, [3]⟩)], 5000⟩
def opr (d : Dev) (b : Blk) (c p : Nat) : Dev := { d.put b R.OP_STAT 0x20000009 with ops := [⟨b, c, p, some 0, none, none⟩] }
def rd : Dev := (opr (sd (jn fun j => { j with areas := ars })) jrnl 2 0).put jrnl R.JRNL_OP_LEN 20 |>.put jrnl R.JRNL_SIZE 65536

/-- States and operands that meet every hypothesis of CalibrationMovesAndTrims. -/
theorem witness_CalibrationMovesAndTrims :
    (∃ (s : State) (k : Fin 8) (h : Ho), s.dev.dead = false ∧ s.dev.bch[k].ho = some h ∧ h.armed = none ∧ s.dev.pastNs
      h.since (s.dev.getF (bchB k) R.BCHG_TRACK 15 0) = true) ∧
    (∃ (s : State) (k : Fin 8) (h : Ho) (a : ℕ) (v : BitVec 16), s.dev.dead = false ∧ s.dev.bch[k].ho = some h ∧
      h.armed = some a ∧ h.done = none ∧ s.dev.heads[chanHead k h.ch].trv.gate = false ∧ h.spare = 7) ∧
    (∃ (s : State) (k : Fin 8) (h : Ho) (a : ℕ) (v : BitVec 16), s.dev.dead = false ∧ s.dev.bch[k].ho = some h ∧
      h.armed = some a ∧ h.done = none ∧ s.dev.heads[chanHead k h.ch].trv.gate = false ∧ h.spare ≠ 7 ∧
      s.dev.heads[chanHead k h.ch].trv.quiet (BitVec.toInt (s.dev.liv (blk BT.headctl ↑(chanHead k h.ch))
      R.TRV_DAC_SKEW)) s.dev.slot = true) ∧
    (∃ (s : State) (k : Fin 8) (h : Ho) (t : ℕ), s.dev.dead = false ∧ s.dev.bch[k].ho = some h ∧ h.done = some t ∧
      h.spare < 8 ∧ s.dev.pastNs t 10 = true) ∧
    (∃ (s : State) (k : Fin 8) (h : Ho) (a : ℕ), s.dev.dead = false ∧ s.dev.bch[k].ho = some h ∧ h.armed = some a ∧
      h.done = none ∧ h.fence = false ∧ s.dev.past a (s.dev.getF (bchB k) R.BCHG_GAPWAIT 15 0 * 1000) = true) ∧
    (∃ (s : State) (k : Fin 8) (c : Fin 5) (t0 : ℕ) (r : TrimResult), s.dev.dead = false ∧ s.dev.bch[k].trim = some
      (↑c, t0)) ∧
    (∃ (s : State) (k : Fin 8) (n : ℕ) (well : List ℕ), s.dev.dead = false ∧ s.dev.bch[k].run = some ([], n, well) ∧
      s.dev.bch[k].ho = none ∧ s.dev.bch[k].trim = none) :=
  ⟨⟨(st (bm now 3 fun x => { x with ho := some (ho 4 none none) })), 3, (ho 4 none none), by decide +kernel⟩,
    ⟨(st (bm now 3 fun x => { x with ho := some (ho 7 (some 5) none) })), 3, (ho 7 (some 5) none), 5, 77, by decide +kernel⟩,
    ⟨(st (bm now 3 fun x => { x with ho := some (ho 4 (some 5) none) })), 3, (ho 4 (some 5) none), 5, 77, by decide +kernel⟩,
    ⟨(st (bm now 3 fun x => { x with ho := some (ho 4 (some 5) (some 6)) })), 3, (ho 4 (some 5) (some 6)), 6, by decide +kernel⟩,
    ⟨(st (bm (at_ on 100000000000) 3 fun x => { x with ho := some (ho 4 (some 5) none), run := some ([1], 3, []) })), 3, (ho 4 (some 5) none), 5, by decide +kernel⟩,
    ⟨(st tb), 3, 2, 7, (tr true), by decide +kernel⟩,
    ⟨(st (bm now 3 fun x => { x with run := some ([], 3, [1,2]) })), 3, 3, [1,2], by decide +kernel⟩⟩

/-- States and operands that meet every hypothesis of TheJournalProgramsAndDoffs. -/
theorem witness_TheJournalProgramsAndDoffs :
    (∃ (s : State), s.dev.dead = false ∧ s.dev.jrn.queue ≠ [] ∧ s.dev.jrn.busy = false ∧ s.dev.jrn.doff = false ∧
      s.dev.jUsable = true ∧ s.dev.jWindow = true) ∧
    (∃ (s : State) (t : JTx) (q : List JTx), s.dev.dead = false ∧ s.dev.jrn.busy = true ∧ s.dev.jrn.queue = t :: q) ∧
    (∃ (s : State), s.dev.dead = false ∧ s.dev.jrn.doff = true) ∧
    (∃ (s : State), s.dev.dead = false ∧ s.dev.opRunning jrnl 1 = true ∧ s.dev.jrn.opDone = true) ∧
    (∃ (s : State), s.dev.dead = false ∧ s.dev.opRunning jrnl 2 = true ∧ s.dev.getB jrnl R.JRNL_STAT 3 = false ∧
      s.dev.sdStatus s.mem s.dev.jAddr (min (s.dev.getN jrnl R.JRNL_OP_LEN) (s.dev.jrn.size / 2)) true = 0) :=
  ⟨⟨(st (jn fun j => { j with queue := [tx] })), by decide +kernel⟩,
    ⟨(st (jn fun j => { j with queue := [tx, tx], busy := true })), tx, [tx], by decide +kernel⟩,
    ⟨(st (jn fun j => { j with doff := true, areas := ars })), by decide +kernel⟩,
    ⟨(st (opr (jn fun j => { j with opDone := true }) jrnl 1 0)), by decide +kernel⟩,
    ⟨(st rd), by decide +kernel⟩⟩

end Ch17

namespace Ch18
def b0 : Boot := { on.boot with porst := false }
def b1 : Boot := { on.boot with chiprst := false }
def b2 : Boot := { on.boot with supply := false }
def off (b : Boot) : Dev := { (at_ Dev.init 500) with boot := b }
def bs (n : Nat) : Dev := { (at_ Dev.init 500) with boot := { on.boot with fuseOk := true } } |>.putF bootB R.BOOT_STAT 3 0 n
def ars : Vector JArea 2 := (Vector.replicate 2 ⟨false, 0, 0, [], 0⟩).set 0 ⟨true, 3, 0, [(4096, ⟨7, 0, 0, [1]⟩), (4200, ⟨0x80, 5, 1, [2]⟩), (4300, ⟨0x80, 5, 2, [3]⟩)], 5000⟩

/-- States and operands that meet every hypothesis of ResetsStopAndReleasesStart. -/
theorem witness_ResetsStopAndReleasesStart :
    (∃ (s : State) (c : Instr) (was : Bool), (c, was) ∈ [(Instr.porstNAssert, s.dev.boot.porst),
      (Instr.chiprstNAssert, s.dev.boot.chiprst), (Instr.supplyLow, s.dev.boot.supply)] ∧ was = true) ∧
    (∃ (s : State) (c : Instr) (b : Boot) (chip : Bool) (por : Bool) (test : Bool), (c, b, chip, por, test) ∈
      [(Instr.porstNRelease test, { s.dev.boot with porst := true }, false, true, test),
        (Instr.chiprstNRelease test, { s.dev.boot with chiprst := true }, true, false, test),
        (Instr.supplyRestored, { s.dev.boot with supply := true }, false, true, false)] ∧ b ≠ s.dev.boot ∧
      b.porst = true ∧ b.chiprst = true ∧ b.supply = true) ∧
    (∃ (s : State) (c : Instr) (b : Boot) (chip : Bool) (por : Bool) (test : Bool), (c, b, chip, por, test) ∈
      [(Instr.porstNRelease test, { s.dev.boot with porst := true }, false, true, test),
        (Instr.chiprstNRelease test, { s.dev.boot with chiprst := true }, true, false, test),
        (Instr.supplyRestored, { s.dev.boot with supply := true }, false, true, false)] ∧ b ≠ s.dev.boot ∧
      ¬(b.porst = true ∧ b.chiprst = true ∧ b.supply = true)) ∧
    (∃ (s : State) (v : Word), s.dev.takes bootB 260 ∧ v = 1515860480#32) ∧
    (∃ (s : State) (v : Word), s.dev.takes bootB 260 ∧ ¬v = 1515860480#32) :=
  ⟨⟨(st (lay false)), .porstNAssert, true, by decide +kernel⟩,
    ⟨(st (off b0)), (.porstNRelease true), { b0 with porst := true }, false, true, true, by decide +kernel⟩,
    ⟨(st (off { b0 with chiprst := false })), (.porstNRelease true), { b0 with porst := true, chiprst := false }, false, true, true, by decide +kernel⟩,
    ⟨(st (lay false)), 0x5A5A3200, by unfold Dev.takes; decide +kernel⟩,
    ⟨(st (lay false)), 0x5A5A3201, by unfold Dev.takes; decide +kernel⟩⟩

/-- States and operands that meet every hypothesis of EndpointResetAndTestPort. -/
theorem witness_EndpointResetAndTestPort :
    (∃ (s : State) (l : LinkUp), s.dev.dead = false ∧ s.dev.boot.fuseOk = true) ∧
    (∃ (s : State) (v : BitVec 32), s.dev.boot.debugOn = false) :=
  ⟨⟨(st (lay false)), ⟨4, 8⟩, by decide +kernel⟩,
    ⟨st on, by decide⟩⟩

/-- States and operands that meet every hypothesis of StagesLeadToHostReady. -/
theorem witness_StagesLeadToHostReady :
    (∃ (s : State) (ok : Bool), s.dev.dead = false ∧ s.dev.stage = 1) ∧
    (∃ (s : State), s.dev.dead = false ∧ s.dev.stage = 2) ∧
    (∃ (s : State), s.dev.dead = false ∧ s.dev.stage = 3 ∧ s.dev.queueBanks = true) ∧
    (∃ (s : State) (r : BistResult), s.dev.dead = false ∧ s.dev.stage = 3 ∧ r.blocks.any vital = true) ∧
    (∃ (s : State) (f : FlashId), s.dev.dead = false ∧ s.dev.stage = 4 ∧ FlashId.usable f = true) ∧
    (∃ (s : State) (r : TrainResult), s.dev.dead = false ∧ s.dev.stage = 5) ∧
    (∃ (s : State), s.dev.dead = false ∧ s.dev.stage = 6 ∧ s.dev.past s.dev.boot.stageAt (1000 * s.dev.getF bootB
      R.BOOT_LANEWAIT 15 0) = true) ∧
    (∃ (s : State), s.dev.dead = false ∧ (s.dev.stage = 6 ∧ s.dev.getF bootB R.BOOT_FILL 2 0 = 0 ∨ s.dev.ready = true
      ∧ 0 < s.dev.getF bootB R.BOOT_FILL 2 0) ∧ s.dev.getF bootB R.BOOT_FILL 2 0 < s.dev.nrRanks) ∧
    (∃ (s : State), s.dev.dead = false ∧ s.dev.stage = 6 ∧ s.dev.boot.fillEnd = true ∧ (s.dev.boot.lanesEnd = true ∨ ∀
      (n : Fin 40), s.dev.laneSettled n = true)) :=
  ⟨⟨(st (bs 1)), false, by decide +kernel⟩,
    ⟨(st (bs 2)), by decide +kernel⟩,
    ⟨(st (bs 3)), by decide +kernel⟩,
    ⟨(st (bs 3)), ⟨[blk .hif 0], []⟩, by decide +kernel⟩,
    ⟨(st (bs 4)), ⟨2 ^ 24, 4096, false, 0⟩, by decide +kernel⟩,
    ⟨(st (bs 5)), ⟨#v[some true, some true, none, some false], #v[some true, none, none, none]⟩, by decide +kernel⟩,
    ⟨(st (at_ (bs 6) 1000000000000)), by decide +kernel⟩,
    ⟨(st ((bs 6).putF (sdcB 0) R.SDC_STAT 2 0 2)), by decide +kernel⟩,
    ⟨(st { bs 6 with boot := { (bs 6).boot with fillEnd := true } }), by decide +kernel⟩⟩

end Ch18

/-! Ill-formed commands: one for each check of Instr.wf. -/
namespace Shape
/-- A request of `n` bytes from byte `o` of a line. -/
def rq (o : Fin 64) (n : Nat) (w : Option (List Byte)) : SdReq := ⟨false, false, 2, o, n, w, .clean, false⟩
def hdr : PtpHdr := ⟨0, 0, 0⟩
def good : PtpTime := ⟨5, 999999999⟩
def late : PtpTime := ⟨5, 1000000000⟩
def csi (t : BitVec 8) (v : Nat) : CsiFrame := ⟨0, [⟨t, [v], false⟩], false, 0⟩

theorem test_wf_bar2_empty : (Instr.bar2Access 0 (.read 0)).wf = false ∧ (Instr.bar2Access 0 (.write [])).wf = false := by decide
theorem test_wf_bar2_beyond : (Instr.bar2Access 0xFFFFFFC (.read 8)).wf = false ∧
    (Instr.bar2Access 0xFFFFFFF (.write [none, none])).wf = false ∧ (Instr.bar2Access 0xFFFFFFC (.read 4)).wf = true := by decide
theorem test_wf_feedback_words : (Instr.feedbackFrame 0 ⟨0, List.replicate 7 0⟩).wf = false ∧
    (Instr.feedbackFrame 0 ⟨0, List.replicate 6 0⟩).wf = true := by decide
theorem test_wf_pixel_depth : (Instr.layerFrame 0 (csi 0x2A 256)).wf = false ∧ (Instr.layerFrame 0 (csi 0x2C 4096)).wf = false ∧
    (Instr.layerFrame 0 (csi 0x2B 1024)).wf = false ∧ (Instr.layerFrame 0 (csi 0x2B 1023)).wf = true ∧
    (Instr.layerFrame 0 (csi 0x12 4096)).wf = true := by decide
theorem test_wf_request : (Instr.sdramRequest 0 (rq 0 0 none)).wf = false ∧ (Instr.sdramRequest 0 (rq 60 8 none)).wf = false ∧
    (Instr.sdramRequest 0 (rq 0 2 (some [1]))).wf = false ∧ (Instr.sdramRequest 1 (rq 0 2 (some [1, 2]))).wf = true := by decide
theorem test_wf_sync_times : (Instr.sync 0 ⟨hdr, false, late, good, 0⟩).wf = false ∧
    (Instr.sync 0 ⟨hdr, false, good, late, 0⟩).wf = false ∧ (Instr.sync 0 ⟨hdr, false, good, good, 0⟩).wf = true := by decide
theorem test_wf_follow_up_time : (Instr.followUp 0 ⟨hdr, late, 0⟩).wf = false := by decide
theorem test_wf_delay_req_time : (Instr.delayReq 0 late hdr).wf = false := by decide
theorem test_wf_delay_resp_time : (Instr.delayResp 0 ⟨hdr, late, 0⟩).wf = false := by decide
theorem test_wf_link_payload : (Instr.desc 0 (List.replicate 513 0)).wf = false ∧ (Instr.data 0 (List.replicate 513 0)).wf = false ∧
    (Instr.data 0 (List.replicate 512 0)).wf = true := by decide +kernel
end Shape

/-! One step each; where a comment names an example, the values are those of the spec's worked example. -/
namespace One
/-- The device after a command; unchanged where the command stops. -/
def run (c : Instr) (d : Dev) : Dev := match exec c (st d) with
  | .next t => t.dev
  | _ => d
def sv1 : Blk := blk .servo 1

/-- R34: the addresses of the examples in the scope chapter and in 02. -/
theorem test_addresses : badr (blk .servo 2) 0x024 = 0x00A04024 ∧ badr sv1 0x020 = 0x00904020 := by decide
/-- The example of 02, step 1: the tuning operation is queued. -/
theorem test_tuning_queues : (run (.tuning 1 0x2A 6) on).get sv1 R.OP_STAT = 0x1000002A#32 := by decide +kernel
def tunable : Dev := ((((((((sd on).put sv1 R.SRV_TUNE_STEP 1000).put sv1 R.SRV_TUNE_LEN 100).put sv1 R.SRV_TUNE_F0 10).put sv1 R.SRV_TUNE_F1
  1000).put sv1 R.SRV_TUNE_AMP 1).put sv1 R.SRV_TUNE_CHIRP 1).put sv1 R.SRV_TUNE_PTS 16).cellMod 30 fun c => { c with st := 1, en := true }
def tuning : Dev := run .opDispatch (run (.tuning 1 0x2A 6) tunable)
/-- The example of 02, steps 2, 5 and the first resulting value. -/
theorem test_tuning_runs : tuning.get sv1 R.OP_STAT = 0x2000002A#32 ∧
    (run (.registerRead 0x001804) tuning).cpl = ⟨[0x80010049#32], false⟩ := by decide +kernel
theorem test_write_while_running_is_logged : let d := run (.registerWrite 0x904100 5) tuning
    d.get hif R.HIF_ERR_CODE = 6 ∧ d.get hif R.HIF_ERR_ADDR = 0x904100#32 ∧ d.get hif R.HIF_ERR_CNT = 1 := by decide +kernel
/-- The example of 02, step 8. -/
theorem test_retire_frees : let d := run (.optabRetire 0) { tuning.put sv1 R.OP_STAT 0x3FFF002A with tunes := on.tunes }
    d.get sv1 R.OP_STAT = 0 ∧ (run (.registerRead 0x001804) d).cpl.data = [0] := by decide +kernel
/-- R55: a retire of an entry that is not valid. -/
theorem test_retire_ignored : (run (.optabRetire 7) on).get optab R.OPTAB_RETIRE_ERR = 0x00070001#32 := by decide +kernel
/-- R33, R39: an odd-shaped BAR0 read answers all ones and is logged with code 8. -/
theorem test_bad_shape : let d := run (.bar0BadShape 0x1235 false) on
    d.cpl = ⟨[0xFFFFFFFF#32], false⟩ ∧ d.get hif R.HIF_ERR_CODE = 8 ∧ d.get hif R.HIF_ERR_ADDR = 0x1235#32 := by decide +kernel
/-- R80, R84: a doorbell sets the tail; one at or beyond the size of the ring is ignored. -/
theorem test_doorbell : (run (.doorbell 0 3) (ringOn on)).get creelB R.CREEL_RTAIL 0 = 3 ∧
    (run (.doorbell 0 16) (ringOn on)).get creelB R.CREEL_RTAIL 0 = 1 := by decide +kernel
/-- R454: EN rises and a wake-up is asked for. -/
theorem test_enable : let d := run (.enable sramp true) on
    d.getB sramp R.BLK_CTL 0 = true ∧ (d.wakeReq.any fun w => w.2 = sramp) = true := by decide +kernel
/-- R44: a host fence writes 0b10 and ends ACTIVE. -/
theorem test_host_fence : let d := run (.hostFence march) on
    d.fence march = 2 ∧ d.getB march R.BLK_STAT 1 = false := by decide +kernel
/-- R407: the words of the example of 15, steps 3 and 6. -/
theorem test_fault_words : faultMsg sv1 (some 6) 4 0 false true false false 0x201 = 0x806A000000041849#64 ∧
    faultMsg sv1 (some 7) 0 0 false false false false 0x20E = 0x83A8000000001C49#64 := by decide +kernel
def unit (n : Nat) : Dev := at_ { (sd on).put (sdcB 0) R.SDC_TRFCSB 130 with
  sdc := on.sdc.set 0 { on.sdc[(0 : Fin 2)] with train := 4, units := on.sdc[(0 : Fin 2)].units.set (unitIx 1 2) { on.sdc[(0 : Fin 2)].units[unitIx 1 2] with owed := n } } } 100000000
/-- The example of 13, steps 1 and 3: an issue counts; the doubled rate restates 3 owed to 6. -/
theorem test_refresh_issue : (run (.refreshIssue 0 1 2) (unit 6)).sdc[(0 : Fin 2)].units[unitIx 1 2].owed = 5 := by decide +kernel
theorem test_refresh_restated : let d := run (.mr4Poll 0 1 true) (unit 3)
    d.sdc[(0 : Fin 2)].units[unitIx 1 2].owed = 6 ∧ d.get (sdcB 0) R.SDC_REF_RESTATE = 1 ∧ d.get (sdcB 0) R.SDC_EVT = 8 := by decide +kernel
/-- The example of 10: twelve modules of three channels at 12 bits, module 0's channel 0 too short to verify. -/
def line0 : Dev := ((List.range 12).foldl (fun d m => (d.put light R.LGT_DUTY 0x01900190 0 (2 * m)).put light R.LGT_DUTY 0x190 0 (2 * m + 1))
  ((on.put light R.LGT_PWM_NS 50000).put light R.LGT_DIAGWIN 2000)).put light R.LGT_DUTY 0x01900078
def lamps : Dev := run (.statusPhase 0 (List.replicate 12 7)) (at_ (run (.lightFrame 0) (run (.send 0) (run (.lgtCfg 0 0x148B) line0))) 600010)
theorem test_lamp_states : lamps.get light R.LGT_STATE = 0xC0C0C0C2#32 ∧ lamps.get light R.LGT_STATE 0 1 = 0xC0C0C0C0#32 ∧
    lamps.get light R.LGT_STATE 0 3 = 0xFFFFFFFF#32 ∧ lamps.get light R.LGT_STAT = 0x10C00#32 ∧ lamps.get light R.LGT_FRAMES = 1 := by
  decide +kernel
/-- The example of 09: the prediction's pre-scale, and the errors, integrals and scales of the two records. -/
def downskin : BobBuf := ⟨W [(0x30, 0xD), (0x31, 0x8000), (0x32, 0xCCD), (0x33, 0x4CCD), (0x35, 0x999A4000), (0x36, 0x6666), (0x41, 4000),
  (0x42, 20), (0x255, 0x60000000), (0x256, 0x5F80)] 1024, false⟩
theorem test_prediction_scale : ffOf downskin 7431 = 0x5FBA := by decide +kernel
theorem test_correction_errors : corErr 9000 11700 = -19661 ∧ corErr 9000 10200 = -8738 := by decide +kernel
theorem test_correction_integral : mul16 0xCCD (-19661) = -983 ∧ -983 + mul16 0xCCD (-8738) = -1420 := by decide +kernel
theorem test_correction_scales : corOut downskin 0x5FBA (-10813) = ⟨0x4FEF, 0x8000, false, false⟩ ∧
    corOut downskin 0x5FBA (-5789) = ⟨0x5745, 0x8000, false, false⟩ := by decide +kernel
/-- The example of 16, step 3: the grace ends at level 2 in mode B. -/
theorem test_grace_end : let d := run .graceEnd (at_ { ((on.put therm R.THERM_CTL 0x201).put therm R.THERM_STAT 0xA8).putF therm R.THERM_SNS 14 12 2 22 with
      thm := { on.thm with grace := some 0 } } 400000008)
    d.get therm R.THERM_STAT = 0x27#32 ∧ d.getF latB R.LAT_STAT 11 8 = 7 := by decide +kernel
/-- The example of 17, step 7: what the trim of cell 1 leaves. -/
theorem test_trim_info : let d := run (.trimDone 1 ⟨25000, 10, 0, 0⟩) { ((((at_ on 10000000).put therm R.THERM_SNS 0x1109 22).put (bchB 1)
      R.BCHG_MAP 0x6A0).putB (bchB 1) R.BCHG_TRIM_STAT 1 true 1) with bch := vmod on.bch 1 fun x => { x with trim := some (1, 0) } }
    d.get (bchB 1) R.BCHG_TRIM_INFO 1 = 0x000A0109#32 ∧ d.getB (bchB 1) R.BCHG_TRIM_STAT 0 1 = true := by decide +kernel
/-- The example of 14, steps 1 and 2: a trigger armed late fires at once, then at its next time. -/
def strobe : Dev := { (((on.put timeB R.TIME_TRIG_SEC_LO 100).put timeB R.TIME_TRIG_NS 999998000).put timeB R.TIME_TRIG_PERIOD 1000000).put timeB
  R.TIME_TRIG_WIDTH 10000 with tim := { on.tim with clock := 100999999000 * q32 } }
def strobe1 : Dev := run (.triggerFire 0) (run (.triggerArm 0 0x99) strobe)
theorem test_trigger_late : strobe1.get timeB R.TIME_TRIG_CNT = 0x00010001#32 ∧ strobe1.tim.trig[(0 : Fin 8)].next = 101000998000 ∧
    strobe1.get timeB R.TIME_EVT = 0x30#32 := by decide +kernel
theorem test_trigger_next : let d := run (.triggerFire 0) { strobe1 with tim := { strobe1.tim with clock := 101000998000 * q32 } }
    d.get timeB R.TIME_TRIG_CNT = 0x00010002#32 ∧ d.tim.trig[(0 : Fin 8)].next = 101001998000 := by decide +kernel
/-- The example of 07, step 3: the box downwind of the requested box conflicts with it. -/
theorem test_boxes_conflict : ({ on.ply with gx := -1, gy := 0, dist := 30000000, tanH := 1763 / 10000 } : Ply).conflict
    ⟨199950000, 419950000, 212050000, 420050000, 0, none⟩ ⟨177950000, 419850000, 196050000, 420150000, 0, none⟩ = true := by decide +kernel
/-- The example of 11, step 9: L is 140 + 40 ns of a round trip of 300 ns with 20 ns held. -/
theorem test_lane_latency : let d := run (.timing 5 300 20 40) { (on.putF (laneB 5) R.LANE_STAT 3 0 2) with
      lanes := vmod on.lanes 5 fun x => { x with phase := .timing } }
    d.get (laneB 5) R.LANE_LAT = 0x012C00B4#32 ∧ d.laneSt 5 = 3 := by decide +kernel
/-- R335: A and B that change together are an error and no count. -/
theorem test_quadrature_error : let d := run (.quadratureEdge 0 true true) (on.mput 0 R.MSP_CFG 0x10)
    d.mget 0 R.MSP_POS = 0 ∧ d.mget 0 R.MSP_QERR = 1 := by decide +kernel
/-- R487: fuses that fail their check halt the device in stage 1. -/
theorem test_bad_fuses_halt : let d := run (.fuseLoadDone false) (({ at_ Dev.init 2400000 with boot := { Boot.init with porst := true } } :
    Dev).putF bootB R.BOOT_STAT 3 0 1)
    d.getB bootB R.BOOT_STAT 6 = true ∧ d.getF bootB R.BOOT_STAT 3 0 = 8 := by decide +kernel
/-- R430: ALIVE changes level 500 µs after its last change, not before. -/
theorem test_alive_toggles : let d := { on.putB fltc R.FLTC_STAT 16 true with aliveAt := 0 }
    (run .aliveToggle (at_ d 400000)).alive = !on.alive ∧ (run .aliveToggle (at_ d 399999)).alive = on.alive := by decide +kernel
/-- The register table of 04: HOLDREQ is bit 0 of DRF_CTL. -/
theorem test_holdreq : (run (.holdreq 3 true) on).get (headB 3) R.DRF_CTL ^^^ on.get (headB 3) R.DRF_CTL = 1 := by decide +kernel
/-- CRC-32 (IEEE 802.3) of the nine digits, the polynomial's published check value. -/
theorem test_crc32 : crc32 [0x31, 0x32, 0x33, 0x34, 0x35, 0x36, 0x37, 0x38, 0x39] = 0xCBF43926#32 := by decide +kernel
/-- FIPS 197, appendix C.3: the 256-bit key 00 to 1F and the block 00112233 to CCDDEEFF. -/
theorem test_aes_256 : aesBlock (aesKeys ((List.range 32).map (BitVec.ofNat 8))) ((List.range 16).map fun i => BitVec.ofNat 8 (17 * i)) =
    beBytes 16 0x8EA2B7CA516745BFEAFC49904B496089 := by decide +kernel
/-- R337: under code 6 W is high and V low, V high and W low for u < 0; under code 7 every phase has duty 0. -/
theorem test_commutation : (List.range 3).map (phaseOut 6 5) = [.floats, .level false, .duty 5] ∧
    (List.range 3).map (phaseOut 6 (-5)) = [.floats, .duty 5, .level false] ∧
    (List.range 3).map (phaseOut 7 5) = [.duty 0, .duty 0, .duty 0] := by decide +kernel
/-- R441: IDCODE holds 1 in bit 0 and 0x3200 in [27:12]; BYPASS is one bit, 0. -/
theorem test_bypass : (run (.tapInstruction .bypass) on).boot.tap = 0 := by decide +kernel
/-- R484: nothing happens in a device without its supply, and a step without a waiting command only lets time pass. -/
theorem test_idle_step : (match step (st on) with
  | .next t => t.dev.now
  | _ => 0) = 1 := by decide +kernel
theorem test_reset_is_dead : State.reset.dev.dead = true ∧ State.reset.dev.stage = 0 ∧ State.reset.pending = [] := by decide +kernel
end One

end Sys2Proof.Tests
end

section
/-! SUPPORT. The host's access error log (R39), said once: what it holds after an access and what it leaves alone. -/

namespace Sys2Proof.Machine

/-! Counters and the access error log. -/

/-- A counter field counts up and stops at all ones. -/
theorem Dev.getF_bumpF_same (d : Dev) (b : Blk) (r : Reg) {hi lo : Nat} (n i j : Nat) (h : hi < 32) (hl : lo ≤ hi) :
    (d.bumpF b r hi lo n i j).getF b r hi lo i j = min (2 ^ (hi + 1 - lo) - 1) (d.getF b r hi lo i j + n) := by
  have hpos : 0 < 2 ^ (hi + 1 - lo) := Nat.two_pow_pos _
  unfold Dev.bumpF Dev.putF Dev.getF
  rw [Dev.get_put_same, fld_setFld_same _ _ _ _ h hl]
  exact Nat.mod_eq_of_lt (by simp only [satAdd]; omega)

theorem Dev.regsKept_refl (d : Dev) (p : Nat → Prop) : d.regsKept d p := fun _ _ => rfl

/-- A register written is one more whose word may have changed. -/
theorem Dev.regsKept.put {d e : Dev} {p : Nat → Prop} (b : Blk) (r : Reg) (v : Word) (i j : Nat) (h : d.regsKept e p)
    (hp : p (radr b r i j)) : d.regsKept (e.put b r v i j) p := by
  intro a ha
  have hne : a ≠ radr b r i j := fun heq => ha (heq ▸ hp)
  rw [Dev.put_regs, spGet_spPut_ne _ _ hne, h a ha]

theorem Dev.logErr_frame (d : Dev) (code ofs : Nat) (bar2 : Bool) :
    d.logErr code ofs bar2 = { d with regs := (d.logErr code ofs bar2).regs } := rfl

/-- R39: the log of a BAR0 access holds its code and its offset, counts it, and touches no other register. -/
theorem Dev.logErr_logsError (d : Dev) (code ofs : Nat) (h : ofs < 2 ^ 28) :
    d.logsError (d.logErr code ofs false) code (wd ofs) := by
  have hcode : radr hif R.HIF_ERR_CNT ≠ radr hif R.HIF_ERR_CODE := by decide
  have haddr : radr hif R.HIF_ERR_CNT ≠ radr hif R.HIF_ERR_ADDR := by decide
  have hlast : radr hif R.HIF_ERR_ADDR ≠ radr hif R.HIF_ERR_CODE := by decide
  refine ⟨?count, ?code, ?addr, ?kept⟩
  case count =>
    have hkeep : (d.logErr code ofs false).get hif R.HIF_ERR_CNT =
        (d.bumpF hif R.HIF_ERR_CNT 15 0).get hif R.HIF_ERR_CNT := by
      unfold Dev.logErr
      rw [Dev.get_put_ne _ _ _ _ _ _ _ _ _ _ hcode, Dev.get_put_ne _ _ _ _ _ _ _ _ _ _ haddr]
    unfold Dev.getF
    rw [hkeep]
    exact d.getF_bumpF_same hif R.HIF_ERR_CNT 1 0 0 (by decide) (by decide)
  case code => exact Dev.get_put_same _ _ _ _ _ _
  case addr =>
    unfold Dev.logErr
    rw [Dev.get_put_ne _ _ _ _ _ _ _ _ _ _ hlast, Dev.get_put_same, Nat.mod_eq_of_lt h]
    rfl
  case kept =>
    exact (((d.regsKept_refl _).put _ _ _ _ _ (.inl rfl)).put _ _ _ _ _ (.inr (.inl rfl))).put _ _ _ _ _ (.inr (.inr rfl))

theorem Dev.logErr_complete_frame (d : Dev) (code ofs : Nat) (bar2 : Bool) (ws : List Word) (poison : Bool) :
    (d.logErr code ofs bar2).complete ws poison =
      { d with regs := ((d.logErr code ofs bar2).complete ws poison).regs, cpl := ⟨ws, poison⟩ } := rfl

/-- The error log of an access to a BAR0 address, whose 24 bits always fit HIF_ERR_ADDR. -/
theorem Dev.logErr_logs_bar0 (d : Dev) (code : Nat) (addr : BitVec 24) :
    d.logsError (d.logErr code addr.toNat false) code (wd addr.toNat) :=
  d.logErr_logsError code addr.toNat (by have := addr.isLt; omega)

/-- What a completion returns to the host stands in no register. -/
theorem Dev.logsError.complete {d e : Dev} {code : Nat} {ofs : Word} (h : d.logsError e code ofs) (ws : List Word)
    (poison : Bool) : d.logsError (e.complete ws poison) code ofs := h

end Sys2Proof.Machine
end

section
/-! Accesses of another shape (R33): each ends in the error log, whatever its address names. -/

namespace Sys2Proof.Machine

theorem State.settled_readyFirst {s : State} (h : s.settled) : s.dev.readyFirst s.pending = s.dev := by
  rcases h with hready | hqueue
  · exact readyFirst_idle _ _ (.inl hready)
  · exact if_neg fun hc => hqueue hc.2

theorem exec_bar0BadShape (s : State) (addr : BitVec 24) (write : Bool) (h : s.dev.hostOk = true) :
    exec (.bar0BadShape addr write) s = .next { s with
      dev := if write then s.dev.logErr 8 addr.toNat false
        else (s.dev.logErr 8 addr.toNat false).complete [0xFFFFFFFF#32] false } := by
  change execBar0BadShape addr write s = _
  unfold execBar0BadShape
  rw [onLive_next _ _ (s.dev.hostOk_live h)]
  simp only [h, not_true, if_false]

theorem exec_registerWrite_unaligned (s : State) (addr : BitVec 24) (v : Word) (h : s.dev.hostOk = true)
    (hs : s.settled) (h4 : addr.toNat % 4 ≠ 0) :
    exec (.registerWrite addr v) s = .next { s with dev := s.dev.logErr 8 addr.toNat false } := by
  change execRegisterWrite addr v s = _
  unfold execRegisterWrite
  rw [onLiveMem_next _ _ (s.dev.hostOk_live h)]
  simp only [State.settled_readyFirst hs, h, h4, not_true, if_false, ne_eq, not_false_eq_true, if_true]

theorem exec_registerRead_unaligned (s : State) (addr : BitVec 24) (h : s.dev.hostOk = true) (h4 : addr.toNat % 4 ≠ 0) :
    exec (.registerRead addr) s =
      .next { s with dev := (s.dev.logErr 8 addr.toNat false).complete [0xFFFFFFFF#32] false } := by
  change execRegisterRead addr s = _
  unfold execRegisterRead
  rw [onLiveRead_next _ _ (s.dev.hostOk_live h)]
  simp only [h, h4, not_true, if_false, ne_eq, not_false_eq_true, if_true]

/-- Settles O9: each access of another shape ends in the error log, and a read also in a completion with all ones. -/
theorem otherShapesAreLogged : Obligations.OtherShapesAreLogged := by
  refine ⟨?shape, ?write, ?read⟩
  case shape =>
    intro s addr write h
    refine ⟨_, exec_bar0BadShape s addr write h, ?_⟩
    cases write with
    | true => exact ⟨s.dev.logErr_frame _ _ _, s.dev.logErr_logs_bar0 8 addr⟩
    | false => exact ⟨s.dev.logErr_complete_frame _ _ _ _ _, (s.dev.logErr_logs_bar0 8 addr).complete _ _⟩
  case write =>
    intro s addr v h hs h4
    exact ⟨_, exec_registerWrite_unaligned s addr v h hs h4, s.dev.logErr_frame _ _ _, s.dev.logErr_logs_bar0 8 addr⟩
  case read =>
    intro s addr h h4
    exact ⟨_, exec_registerRead_unaligned s addr h h4, s.dev.logErr_complete_frame _ _ _ _ _,
      (s.dev.logErr_logs_bar0 8 addr).complete _ _⟩

end Sys2Proof.Machine
end

section
/-! Pages without a block, and the BLK_ID of those with one (R36). -/

namespace Sys2Proof.Machine

/-! Accesses to a page without a block. -/

/-- An address in one of the 64 pages of its region is its page and its offset there (R34). -/
theorem badr_addrBlk {a : Nat} (h : a < 2 ^ 24) (hp : addrAbsent a = false) : badr (addrBlk a) (a % 0x1000) = a := by
  simp only [addrAbsent, decide_eq_false_iff_not] at hp
  simp only [badr, addrBlk, Fin.val_ofNat]
  omega

theorem Dev.absentErr_ready (d : Dev) (hr : d.ready = true) (hst : d.stage ≠ 8) : d.absentErr = 3 := by
  simp [Dev.absentErr, hr, hst]

theorem Dev.accErr_noBlock (d : Dev) {b : Blk} (o : Nat) (hr : d.ready = true) (hst : d.stage ≠ 8)
    (hb : blkKind b = none) : d.accErr b o = 3 := by
  simp [Dev.accErr, hr, hst, hb]

theorem Dev.hostRead_noBlock (d : Dev) {b : Blk} (o : Nat) (k : Dev → Dev) (h : d.hostOk = true) (hr : d.ready = true)
    (hst : d.stage ≠ 8) (hb : blkKind b = none) : d.hostRead b o k = d.complete [0] false := by
  simp [Dev.hostRead, Dev.readFails, h, d.accErr_noBlock o hr hst hb]

theorem hostWriteMem_noBlock (m : Mem) (d : Dev) {b : Blk} (o : Nat) (k : Mem → Dev → Mem × Dev) (h : d.hostOk = true)
    (hr : d.ready = true) (hst : d.stage ≠ 8) (hb : blkKind b = none) :
    hostWriteMem m d b o k = (m, d.logErr 3 (badr b o) false) := by
  have hacc := d.accErr_noBlock o hr hst hb
  simp [hostWriteMem, Dev.writable, Dev.writeFails, Dev.logStatus, h, hacc]

theorem exec_registerRead_absent (s : State) (addr : BitVec 24) (h : s.dev.hostOk = true) (hr : s.dev.ready = true)
    (hst : s.dev.stage ≠ 8) (h4 : addr.toNat % 4 = 0)
    (ha : addrAbsent addr.toNat = true ∨ blkKind (addrBlk addr.toNat) = none) :
    exec (.registerRead addr) s = .next { s with dev := s.dev.complete [0] false } := by
  change execRegisterRead addr s = _
  unfold execRegisterRead
  rw [onLiveRead_next _ _ (s.dev.hostOk_live h)]
  cases hp : addrAbsent addr.toNat with
  | true => simp [h, h4, hp, s.dev.absentErr_ready hr hst]
  | false =>
    have hb : blkKind (addrBlk addr.toNat) = none := by simpa [hp] using ha
    simp [h, h4, hp, s.dev.hostRead_noBlock _ _ h hr hst hb]

theorem exec_registerWrite_absent (s : State) (addr : BitVec 24) (v : Word) (h : s.dev.hostOk = true)
    (hr : s.dev.ready = true) (hst : s.dev.stage ≠ 8) (h4 : addr.toNat % 4 = 0)
    (ha : addrAbsent addr.toNat = true ∨ blkKind (addrBlk addr.toNat) = none) :
    exec (.registerWrite addr v) s = .next { s with dev := s.dev.logErr 3 addr.toNat false } := by
  change execRegisterWrite addr v s = _
  unfold execRegisterWrite
  rw [onLiveMem_next _ _ (s.dev.hostOk_live h)]
  simp only [readyFirst_idle s.dev s.pending (.inl hr)]
  cases hp : addrAbsent addr.toNat with
  | true => simp [h, h4, s.dev.absentErr_ready hr hst]
  | false =>
    have hb : blkKind (addrBlk addr.toNat) = none := by simpa [hp] using ha
    have htime : addrBlk addr.toNat ≠ timeB := fun e => absurd (e ▸ hb) (by decide)
    have hinj : s.dev.injOnly (addrBlk addr.toNat) (addr.toNat % 0x1000) v = false :=
      injOnly_false _ _ _ _ (.inr fun n => by simp [hb])
    simp [h, h4, hinj, htime, hostWriteMem_noBlock _ _ _ _ h hr hst hb, badr_addrBlk addr.isLt hp]

/-! BLK_ID (R36, R43). -/

theorem Dev.latches_blkId (d : Dev) (b : Blk) (t : BT) (n i : Nat) : d.latches b t n 0 i = [] := by cases t <;> rfl

theorem Dev.openBits_blkId (d : Dev) (t : BT) (n : Nat) : d.openBits t n 0 = 0 := by cases t <;> rfl

theorem latched_blkId (t : BT) : latched t 0 = false := by cases t <;> rfl

theorem regAt_blkId (t : BT) : regAt t 0 = some (R.BLK_ID, 0, 0) := rfl

theorem Dev.readEffect_blkId (d : Dev) (b : Blk) : d.readEffect b 0 = d := by
  unfold Dev.readEffect
  cases hb : blkKind b with
  | none => rfl
  | some k =>
    obtain ⟨t, n⟩ := k
    simp [regAt_blkId, d.openBits_blkId, d.latches_blkId, R.BLK_ID]

/-- BLK_ID holds revision 1, the number of the block among its type, and the type code (R43). -/
theorem Dev.readWord_blkId (d : Dev) (m : Mem) {b : Blk} {t : BT} {n : Nat} (hb : blkKind b = some (t, n)) :
    d.readWord m b 0 = wd (1 + n * 256 + t.code * 65536) := by
  simp [Dev.readWord, hb, regAt_blkId, latched_blkId, d.openBits_blkId, Dev.view, Dev.headerView, R.BLK_ID]

/-- The revision in its low byte keeps BLK_ID from 0 (R43). -/
theorem blkId_ne_zero (n c : Nat) : wd (1 + n * 256 + c * 65536) ≠ 0 := by
  intro h
  have hnat : (1 + n * 256 + c * 65536) % 2 ^ 32 = 0 := by simpa [wd] using congrArg BitVec.toNat h
  omega

/-- Settles O10: absent pages answer 0 and log writes with code 3, and a block's BLK_ID carries its revision. -/
theorem absentPagesReadZero : Obligations.AbsentPagesReadZero := by
  refine ⟨?absent, ?blkId⟩
  case absent =>
    intro s addr h hr hst h4 ha
    exact ⟨exec_registerRead_absent s addr h hr hst h4 ha, fun v =>
      ⟨_, exec_registerWrite_absent s addr v h hr hst h4 ha, s.dev.logErr_frame _ _ _, s.dev.logErr_logs_bar0 3 addr⟩⟩
  case blkId =>
    intro s b hb h hacc
    obtain ⟨⟨t, n⟩, hk⟩ := Option.isSome_iff_exists.mp hb
    refine ⟨wd (1 + n * 256 + t.code * 65536), ?_, blkId_ne_zero n t.code⟩
    rw [read_ok s b 0 (by decide) (by decide) h hacc (.inl (by decide)) (by simp), Dev.readEffect_blkId,
      Dev.readWord_blkId _ _ hk]
    rfl

end Sys2Proof.Machine
end

section
/-! A retire of an operation table entry (R55): ignored and counted, or the entry freed. -/

namespace Sys2Proof.Machine

/-- A retire that is ignored is counted, with the entry it names (R55). -/
def Dev.retireIgnored (d : Dev) (n : Nat) : Dev :=
  (d.bumpF optab R.OPTAB_RETIRE_ERR 15 0).putF optab R.OPTAB_RETIRE_ERR 23 16 n

/-- The entry of an ended operation is freed and its block idle again (R50 step 7, R55). -/
def Dev.retireFreed (d : Dev) (b : Blk) : Dev :=
  { d.put b R.OP_STAT 0 with ops := d.ops.filter fun x => x.blk ≠ b, fullAt := none, fullSaid := false }

theorem Dev.retire_ignored (d : Dev) (n : Nat)
    (h : ∀ o, (d.ops.find? fun o => o.entry = some n) = some o → d.opBusy o.blk = true) :
    d.retire n = d.retireIgnored n := by
  unfold Dev.retire
  split
  · next o ho => exact if_pos (h o ho)
  · rfl

theorem Dev.retire_freed (d : Dev) (n : Nat) (o : OpRec)
    (ho : (d.ops.find? fun o => o.entry = some n) = some o) (hb : d.opBusy o.blk = false) :
    d.retire n = d.retireFreed o.blk := by
  simp only [Dev.retire, ho, hb]
  rfl

theorem Dev.retireIgnored_get (d : Dev) (n : Nat) : (d.retireIgnored n).get optab R.OPTAB_RETIRE_ERR =
    setFld ((d.bumpF optab R.OPTAB_RETIRE_ERR 15 0).get optab R.OPTAB_RETIRE_ERR) 23 16 n := Dev.get_put_same _ _ _ _ _ _

/-- The count of ignored retires stops at 0xFFFF; the index written beside it does not disturb it. -/
theorem Dev.retireIgnored_count (d : Dev) (n : Nat) : (d.retireIgnored n).getF optab R.OPTAB_RETIRE_ERR 15 0 =
    min 0xFFFF (d.getF optab R.OPTAB_RETIRE_ERR 15 0 + 1) := by
  unfold Dev.getF
  rw [Dev.retireIgnored_get, fld_setFld_ne _ _ _ _ _ _ (by decide) (.inl (by decide))]
  exact d.getF_bumpF_same optab R.OPTAB_RETIRE_ERR 1 0 0 (by decide) (by decide)

theorem Dev.retireIgnored_index (d : Dev) {n : Nat} (h : n < 256) :
    (d.retireIgnored n).getF optab R.OPTAB_RETIRE_ERR 23 16 = n := by
  unfold Dev.getF
  rw [Dev.retireIgnored_get, fld_setFld_same _ _ _ _ (by decide) (by decide)]
  exact Nat.mod_eq_of_lt h

theorem Dev.retireIgnored_kept (d : Dev) (n : Nat) :
    d.regsKept (d.retireIgnored n) fun a => a = radr optab R.OPTAB_RETIRE_ERR :=
  ((d.regsKept_refl fun a => a = radr optab R.OPTAB_RETIRE_ERR).put optab R.OPTAB_RETIRE_ERR _ 0 0 rfl).put
    optab R.OPTAB_RETIRE_ERR _ 0 0 rfl

theorem exec_optabRetire (s : State) (n : BitVec 8) (h : s.dev.takes optab 0x104) :
    exec (.optabRetire n) s = .next { s with dev := s.dev.retire n.toNat } := by
  change execOptabRetire n s = _
  unfold execOptabRetire
  rw [onLive_next _ _ (s.dev.takes_live _ _ h), s.dev.hostWrite_takes _ _ _ h]

/-- Settles O17: the entry that the retire names decides between the two outcomes. -/
theorem retireFreesEndedEntries : Obligations.RetireFreesEndedEntries := by
  refine ⟨?ignored, ?freed⟩
  case ignored =>
    intro s n ht hbusy
    refine ⟨s.dev.retireIgnored n.toNat, ?_, rfl, s.dev.retireIgnored_count _, s.dev.retireIgnored_index n.isLt,
      s.dev.retireIgnored_kept _⟩
    rw [exec_optabRetire s n ht, s.dev.retire_ignored _ hbusy]
  case freed =>
    intro s n o ht ho hidle
    refine ⟨s.dev.retireFreed o.blk, ?_, rfl, Dev.get_put_same s.dev o.blk R.OP_STAT 0 0 0,
      (s.dev.regsKept_refl _).put o.blk R.OP_STAT 0 0 0 rfl⟩
    rw [exec_optabRetire s n ht, s.dev.retire_freed _ o ho hidle]

end Sys2Proof.Machine
end

section
/-! The canonical form of SDRAM through every operation on memory, in the order of the model's definitions. -/

namespace Sys2Proof.Machine

/-- SDRAM as a command leaves it beside the device has its canonical form. -/
def memWf (x : Mem × Dev) : Prop := x.1.wf

theorem memWf_pair {m : Mem} (h : m.wf) (d : Dev) : memWf (m, d) := h

theorem memWf_fst {x : Mem × Dev} (h : memWf x) (d : Dev) : memWf (x.1, d) := h

theorem foldl_fst_wf {α : Type} {f : Mem × Dev → α → Mem × Dev} (hf : ∀ x a, memWf x → memWf (f x a)) (l : List α)
    (x : Mem × Dev) (h : memWf x) : memWf (l.foldl f x) := by
  induction l generalizing x with
  | nil => exact h
  | cons a t ih => exact ih _ (hf x a h)

theorem ite_fst_wf {c : Prop} [Decidable c] {x y : Mem × Dev} (hx : memWf x) (hy : memWf y) : memWf (if c then x else y) := by
  split <;> assumption

section
variable {m : Mem} (h : m.wf) (d : Dev) (b : Blk) (n : Fin 64)
include h

/-! Long operations (R44, R50, R371). -/

theorem Dev.migKill_wf (ch : Fin 2) (f : Bool) : memWf (d.migKill m ch f) := by
  unfold Dev.migKill
  split
  · exact m.migDrop_wf ch h
  · exact h

theorem Dev.migBegin_wf (ch : Fin 2) (p : Nat) : memWf (d.migBegin m ch p) := by
  unfold Dev.migBegin
  dsimp only
  split
  · exact h
  · split <;> exact h

theorem Dev.migCopy_wf (ch : Fin 2) (e : EccOutcome) : memWf (d.migCopy m ch e) := by
  unfold Dev.migCopy
  split
  · exact h
  · refine ite_fst_wf h (Mem.wf_of_eq (m := if _ then m.mark _ else m) ?_ rfl rfl)
    split
    · exact m.mark_wf _ h
    · exact h

theorem opCut_wf : memWf (opCut m d b) := by
  unfold opCut
  split
  · exact d.migKill_wf h _ _
  all_goals exact h

theorem opStop_wf (e : Nat) : memWf (opStop m d b e) := by
  unfold opStop
  split
  · exact opCut_wf h _ b
  · split <;> exact h

theorem opAbortWrite_wf : memWf (opAbortWrite m d b) := by
  unfold opAbortWrite
  split
  · exact opStop_wf h d b 2
  · split <;> exact h

theorem opCmdWrite_wf (v : Word) : memWf (opCmdWrite m d b v) := by
  unfold opCmdWrite
  split
  case h_2 => exact opAbortWrite_wf h d b
  all_goals exact h

theorem opBegin_wf (o : OpRec) : memWf (opBegin m d o) := by
  unfold opBegin
  split
  · exact d.migBegin_wf h _ _
  all_goals exact h

theorem opDispatch_wf : memWf (opDispatch m d) := by
  unfold opDispatch
  split
  · dsimp only
    split
    · exact h
    · split
      · exact h
      · split
        · exact h
        · exact opBegin_wf h _ _
  · exact h

/-! Service of blocks (R44, R420 to R422). -/

theorem blockOut_wf (f : Bool) : memWf (blockOut m d b f) := by
  unfold blockOut
  extract_lets
  split <;> exact h

theorem softReset_wf : memWf (softReset m d b) := by
  unfold softReset
  split
  · exact h
  · exact blockOut_wf (opStop_wf h _ b 4) _ b false

theorem blockFence_wf (c : Nat) : memWf (blockFence m d b c) := by
  unfold blockFence
  refine ite_fst_wf h (ite_fst_wf h ?_)
  exact blockOut_wf (opStop_wf h _ b 3) _ b true

theorem cellFence_wf (c : Option Nat) : memWf (cellFence m d b c) := by
  unfold cellFence
  split
  · exact blockFence_wf h d b 1
  · refine ite_fst_wf (blockFence_wf h d b 1) (ite_fst_wf h ?_)
    split
    · exact blockFence_wf h d b 1
    · exact h

theorem react_wf (code : Nat) (c : Option Nat) : memWf (react m d code b c) := by
  unfold react
  refine ite_fst_wf h ?_
  split
  · exact cellFence_wf h d b c
  · exact blockFence_wf h d b 1
  · exact ite_fst_wf (blockFence_wf h d b 1)
      (foldl_fst_wf (fun x u hx => blockFence_wf hx x.2 u 1) (blksOf b.region) (m, d) h)
  · exact softReset_wf h d b
  · exact h

theorem collect_wf (msg : BitVec 64) : memWf (collect m d msg) :=
  ite_fst_wf h (ite_fst_wf (react_wf h _ _ _ _) h)

theorem coreReset_wf : memWf (coreReset m d) := m.noMigs_wf h

theorem rstWrite_wf (v : Word) : memWf (rstWrite m d v) := ite_fst_wf (coreReset_wf h d) h

theorem blkCtlWrite_wf (v : Word) : memWf (blkCtlWrite m d b v) := by
  have hx : (match fld v 5 4 with
      | 0 => (m, (d.blockEn b (bit v 0)).unfence b)
      | 2 => if (d.blockEn b (bit v 0)).fence b = 0 then blockFence m (d.blockEn b (bit v 0)) b 2 else (m, d.blockEn b (bit v 0))
      | _ => (m, d.blockEn b (bit v 0))).1.wf := by
    split
    · exact h
    · exact ite_fst_wf (blockFence_wf h _ b 2) h
    · exact h
  exact ite_fst_wf (softReset_wf hx _ b) hx

/-! Machine spindles and products (R148 to R151, R331 to R351). -/

theorem webMiss_wf (g : Fin 32) (ord : Word) (kind recs : Nat) : memWf (webMiss m d g ord kind recs) := by
  unfold webMiss
  exact Dev.sdPut_wf _ m _ _ h

theorem webTrigger_wf (g : Fin 32) (pos : Int) : memWf (webTrigger m d g pos) := ite_fst_wf (webMiss_wf h _ _ _ _ _) h

theorem webTriggers_wf (k : Nat) (pos : Int) : memWf (webTriggers m d k pos) :=
  foldl_fst_wf (fun _ _ hx => ite_fst_wf (webTrigger_wf hx _ _ _) hx) _ _ h

theorem webTake_wf (f : Nat) (g : Fin 32) : memWf (webTake f m d g) := by
  induction f generalizing m d with
  | zero => exact h
  | succ f ih =>
    unfold webTake
    split
    · exact h
    · exact ite_fst_wf h (ih (webMiss_wf h _ _ _ _ _) _)

theorem cmpFire_wf (p l : Bool) : memWf (cmpFire m d n p l) := by
  unfold cmpFire
  exact webTriggers_wf h _ _ _

theorem cmpLoop_wf (f : Nat) (new : Bool) : memWf (cmpLoop f m d n new) := by
  induction f generalizing m d new with
  | zero => exact h
  | succ f ih =>
    unfold cmpLoop
    extract_lets
    split
    · exact h
    · have hc := fun e : Dev => cmpFire_wf h e n
      exact ite_fst_wf h (ite_fst_wf h (ite_fst_wf (ih (hc _ _ _) _ _) (ite_fst_wf (ih (hc _ _ _) _ _)
        (memWf_fst (hc _ _ _) _))))

theorem cmpSample_wf : memWf (cmpSample m d n) := cmpLoop_wf h d n _ false

theorem cmpCtl_wf (v : Word) (rv : List Rival) : memWf (cmpCtl m d n v rv) := by
  unfold cmpCtl
  dsimp only
  split
  · exact h
  · exact ite_fst_wf (cmpLoop_wf h _ n _ true) h

theorem posMove_wf (delta : Int) : memWf (posMove m d n delta) := cmpSample_wf h _ n

theorem bissPos_wf (bits pos : Nat) : memWf (bissPos m d n bits pos) := by
  unfold bissPos
  refine ite_fst_wf (cmpSample_wf h _ n) ?_
  split
  · exact h
  · exact posMove_wf h _ n _

theorem stepOut_wf : memWf (stepOut m d n) := ite_fst_wf h (ite_fst_wf (cmpSample_wf h _ n) h)

theorem motionTick_wf : memWf (motionTick m d n) := by
  unfold motionTick
  split
  · exact h
  · exact ite_fst_wf h (ite_fst_wf h (memWf_fst (ite_fst_wf (stepOut_wf h _ n) (cmpSample_wf (stepOut_wf h _ n) _ n)) _))

theorem quadIn_wf (p : Fin 16) (a c : Bool) : memWf (quadIn m d p a c) := by
  unfold quadIn
  refine ite_fst_wf h ?_
  split
  · exact h
  · exact posMove_wf h _ _ _
  · exact posMove_wf h _ _ _
  · exact h

theorem hallIn_wf (p : Fin 16) (c : Nat) : memWf (hallIn m d p c) := by
  unfold hallIn
  refine ite_fst_wf h (ite_fst_wf h ?_)
  split
  · exact h
  · exact ite_fst_wf (posMove_wf h _ _ _) h

theorem polChange_wf (p : Fin 16) (was : Word) : memWf (polChange m d p was) :=
  hallIn_wf (ite_fst_wf (quadIn_wf h d p _ _) (memWf_pair h d)) _ p _

theorem modWord_wf (w : BitVec 48) : memWf (modWord m d n w) := by
  unfold modWord
  dsimp only
  split
  · exact h
  · exact posMove_wf h _ n _

theorem fbWord_wf (i : Fin 256) (tick : Word) (w : BitVec 48) : memWf (fbWord m d i tick w) := by
  unfold fbWord
  dsimp only
  split
  · exact ite_fst_wf h (ite_fst_wf h (modWord_wf h d _ w))
  · exact h

theorem mspinWrite_wf (k o : Nat) (v : Word) (rv : List Rival) : memWf (mspinWrite m d k o v rv) := by
  unfold mspinWrite
  refine ite_fst_wf h (ite_fst_wf ?_ h)
  iterate 6 refine ite_fst_wf h ?_
  exact ite_fst_wf (cmpCtl_wf h d _ v rv) h

/-! Register writes (R5, R33). -/

theorem headerWrite_wf (o : Nat) (v : Word) : memWf (headerWrite m d b o v) := by
  unfold headerWrite
  refine ite_fst_wf (blkCtlWrite_wf h d b v) ?_
  iterate 4 refine ite_fst_wf h ?_
  exact ite_fst_wf (opCmdWrite_wf h d b v) (ite_fst_wf h h)

theorem creelWrite_wf (o : Nat) (v : Word) : memWf (creelWrite m d o v) :=
  ite_fst_wf h (ite_fst_wf h (ite_fst_wf h h))

theorem laneCtl_wf (l : Fin 40) (v : Word) : memWf (laneCtl m d l v) := h

theorem laneWrite_wf (l : Fin 40) (o : Nat) (v : Word) : memWf (laneWrite m d l o v) :=
  ite_fst_wf (laneCtl_wf h d l v) (ite_fst_wf h (ite_fst_wf h h))

theorem writeReg_wf (o : Nat) (v : Word) (rv : List Rival) : memWf (writeReg m d b o v rv) := by
  unfold writeReg
  refine ite_fst_wf (headerWrite_wf h d b o v) ?_
  split
  · exact h
  · rename_i t k _
    cases t
    case creel => exact creelWrite_wf h d o v
    case boot => exact ite_fst_wf (rstWrite_wf h d v) h
    case mspin => exact mspinWrite_wf h d k o v rv
    case lane => exact laneWrite_wf h d _ o v
    case mpg => exact ite_fst_wf (polChange_wf h _ _ _) h
    all_goals exact h

theorem blkWrite_wf (o : Nat) (v : Word) : memWf (blkWrite m d b o v) := ite_fst_wf (writeReg_wf h _ b o v _) h

theorem operandWrites_wf (o : Nat) (vs : List Word) : memWf (operandWrites m d b o vs) := by
  induction vs generalizing m d o with
  | nil => exact h
  | cons v vs ih => exact ih (blkWrite_wf h d b o v) _ _

theorem hostWriteMem_wf (o : Nat) {k : Mem → Dev → Mem × Dev} (hk : ∀ e, memWf (k m e)) : memWf (hostWriteMem m d b o k) :=
  ite_fst_wf (hk _) h

/-! Time triggers (R402). -/

theorem trigAct_wf (t : Fin 8) : memWf (trigAct m d t) := by
  unfold trigAct
  split
  · exact h
  · exact memWf_fst (opCmdWrite_wf h d _ _) _
  · exact h

theorem trigFire_wf (t : Fin 8) : memWf (trigFire m d t) :=
  ite_fst_wf h (ite_fst_wf h (memWf_fst (trigAct_wf h _ t) _))

theorem fireFirst_wf (t : Fin 8) (v : Word) (p : List Instr) : memWf (fireFirst m d t v p) :=
  ite_fst_wf (trigFire_wf h d t) h

/-! The creel (R80 to R91). -/

omit h in
/-- A descriptor whose RESULT reaches SDRAM. The body is exposed under the function's name: the kernel would otherwise
run the write to compare the two sides. -/
theorem descDone_mem {m1 : Mem} (i : Fin 8) (ws : List Word) (status entry : Nat) (result : Word)
    (hw : d.sdWrite m (d.descAddr i + 0x3C) (leBytes 4 result.toNat) = .ok m1) :
    (descDone m d i ws status entry result).1 =
      d.sdPut m1 (d.descAddr i + 0x38) (leBytes 4 (2 ^ 31 + status * 65536 + entry)) := by
  generalize hf : descDone = f
  delta descDone at hf
  subst hf
  simp only [hw]

omit h in
theorem descDone_halt {e : Nat} (i : Fin 8) (ws : List Word) (status entry : Nat) (result : Word)
    (hw : d.sdWrite m (d.descAddr i + 0x3C) (leBytes 4 result.toNat) = .error e) :
    descDone m d i ws status entry result = (m, d.ringHalt i) := by
  generalize hf : descDone = f
  delta descDone at hf
  subst hf
  simp only [hw]

theorem descDone_wf (i : Fin 8) (ws : List Word) (status entry : Nat) (result : Word) :
    memWf (descDone m d i ws status entry result) := by
  cases hw : d.sdWrite m (d.descAddr i + 0x3C) (leBytes 4 result.toNat) with
  | error e => rw [descDone_halt d i ws status entry result hw]; exact h
  | ok m1 =>
    rw [memWf, descDone_mem d i ws status entry result hw]
    exact Dev.sdPut_wf _ m1 _ _ (Dev.sdWrite_wf _ _ _ _ _ h hw)

theorem serveRing_wf (i : Fin 8) (mine : Nat → Bool) {k : List Word → Mem × Dev} (hk : ∀ ws, memWf (k ws)) :
    memWf (serveRing m d i mine k) := by
  unfold serveRing
  refine ite_fst_wf h ?_
  split
  · exact ite_fst_wf h h
  · refine ite_fst_wf h (ite_fst_wf h (ite_fst_wf h (ite_fst_wf (hk _) ?_)))
    split <;> exact descDone_wf h _ _ _ _ _ _

theorem loadRing_wf (i : Fin 8) : memWf (loadRing m d i) := by
  unfold loadRing
  refine serveRing_wf h d i _ fun ws => ?_
  extract_lets
  split <;> exact descDone_wf h _ _ _ _ _ _

theorem loadsFirst_wf (k : Nat) (p : List Instr) : memWf (loadsFirst m d k p) := by
  fun_induction loadsFirst m d k p with
  | case1 => exact h
  | case2 _ _ _ _ _ _ ih => exact ih (loadRing_wf h _ _)
  | case3 _ _ _ _ _ ih => exact ih h
  | case4 _ _ _ _ _ ih => exact ih h

theorem bindLoads_wf (g : Fin 32) (p : List Instr) : memWf (bindLoads m d g p) :=
  ite_fst_wf h (foldl_fst_wf (fun _ _ hx => loadsFirst_wf hx _ _ _) _ _ h)

theorem notStarted_wf (k : Skein) (present : Word) : memWf (notStarted m d k present) := by
  unfold notStarted
  exact memWf_pair (Dev.sdPut_wf _ m _ _ h) _

theorem layerGo_wf (k : Skein) (present : Word) (plan : Option (List Zone × Vector Nat 32)) :
    memWf (layerGo m d k present plan) := by
  unfold layerGo
  exact memWf_pair h _

theorem layerOver_wf (k : Skein) : memWf (layerOver m d k) := by
  unfold layerOver
  exact memWf_pair (Dev.sdPut_wf _ m _ _ h) _

/-! Rings of the real-time write ports, and BAR2 (R41, R377). -/

theorem ringPut_wf (lo hi cfg wr : Reg) (r size : Nat) (bytes : List Byte) :
    memWf (ringPut m d b lo hi cfg wr r size bytes) := by
  unfold ringPut
  exact memWf_pair (Dev.sdPut_wf _ m _ _ h) _

theorem lpipeRing_wf (p : Fin 2) : memWf (lpipeRing m d p) := by
  unfold lpipeRing
  extract_lets
  split
  · exact h
  · exact ringPut_wf h _ _ _ _ _ _ _ _ _

theorem mpvRing_wf (g : Fin 32) (r : Nat) : memWf (mpvRing m d g r) := by
  unfold mpvRing
  extract_lets
  split
  · exact h
  · exact ringPut_wf h _ _ _ _ _ _ _ _ _

theorem winWrite_wf (base a : Nat) (bs : List (Option Byte)) (as : List Nat) : memWf (winWrite m d base a bs as) := by
  refine memWf_pair ?_ _
  generalize runsOf a (bs.take (d.winSize - a)) = rs
  induction rs generalizing m with
  | nil => exact h
  | cons r t ih => exact ih (d.sdPut_wf m _ _ h)

theorem Dev.latRow_wf (err : Option TileErr) : memWf (d.latRow m err) := by
  unfold Dev.latRow
  refine ite_fst_wf h ?_
  extract_lets
  split
  · exact h
  · rename_i hw
    exact memWf_pair (Dev.sdWrite_wf _ _ _ _ _ h hw) _

/-! The journal's replay (R476). -/

theorem applyConfig_wf (key v : Word) : memWf (applyConfig m d key v) :=
  ite_fst_wf h (memWf_fst (writeReg_wf h _ _ _ _ _) _)

theorem applyRec_wf (r : JRec) : memWf (applyRec m d r) := by
  unfold applyRec
  split
  · exact applyConfig_wf h d _ _
  all_goals exact h

theorem replay_wf (f : FlashId) : memWf (replay m d f) := by
  unfold replay
  extract_lets
  split
  · exact h
  · exact memWf_fst (foldl_fst_wf (fun _ _ hx => applyRec_wf hx _ _) _ _ (memWf_pair h _)) _

/-! The end of a cycle (R51, R378). -/

theorem abortsDue_wf : memWf (abortsDue m d) :=
  foldl_fst_wf (fun _ _ hx => ite_fst_wf (opStop_wf hx _ _ _) hx) _ _ h

theorem Dev.serveLine_wf (ch : Fin 2) (panic : Bool) (a k : Nat) (data : Option (List Byte)) (ecc : EccOutcome) (cmd : Bool) :
    (d.serveLine m ch panic a k data ecc cmd).2.1.wf := by
  unfold Dev.serveLine
  extract_lets
  split
  · exact h
  · split
    · exact h
    · split
      · exact h
      · split
        · split <;> exact h
        · split
          · exact m.write_wf a _ h
          · exact h

theorem sdcSlot_wf (ch : Fin 2) : memWf (sdcSlot m d ch) := by
  unfold sdcSlot
  refine ite_fst_wf h ?_
  extract_lets
  split
  · exact h
  · split
    · exact h
    · exact memWf_pair (Dev.serveLine_wf h _ _ _ _ _ _ _ _) _

theorem sdcSlots_wf : memWf (sdcSlots m d) := sdcSlot_wf (sdcSlot_wf h d 0) _ 1

end

theorem State.cycle_wf {s : State} (h : s.mem.wf) : s.cycle.mem.wf := by
  unfold State.cycle
  split
  · exact h
  · extract_lets x y
    have hy : memWf y := sdcSlots_wf (abortsDue_wf h s.dev) _
    clear_value y
    exact hy

end Sys2Proof.Machine
end

section
/-! What every command leaves (log 1): it completes in a state with the same queue, whose SDRAM is canonical where it was.
Internal scan is the one stop (R441). -/

namespace Sys2Proof.Machine

/-- The outcome is a next state with the same queue of waiting commands, whose SDRAM is canonical where it was. -/
def completes (s : State) (o : Host.Outcome State Fault Refusal) : Prop :=
  ∃ m d, o = .next { s with mem := m, dev := d } ∧ (s.mem.wf → m.wf)

theorem onDev_completes (f : Dev → Dev) (s : State) : completes s (onDev f s) := ⟨_, _, rfl, id⟩

theorem onLive_completes (f : Dev → Dev) (s : State) : completes s (onLive f s) := ⟨_, _, rfl, id⟩

theorem onLiveRead_completes (f : Mem → Dev → Dev) (s : State) : completes s (onLiveRead f s) := ⟨_, _, rfl, id⟩

theorem onMem_completes {f : Mem → Dev → Mem × Dev} (hf : ∀ m d, m.wf → memWf (f m d)) (s : State) :
    completes s (onMem f s) := ⟨_, _, rfl, hf s.mem s.dev⟩

theorem onLiveMem_completes {f : Mem → Dev → Mem × Dev} (hf : ∀ m d, m.wf → memWf (f m d)) (s : State) :
    completes s (onLiveMem f s) :=
  onMem_completes (fun m d h => ite_fst_wf (memWf_pair h d) (hf m d h)) s

theorem execTapInstruction_completes (k : TapInstr) (s : State) (hk : ¬ (k = .scan ∧ s.dev.boot.debugOn = true)) :
    completes s (execTapInstruction k s) := by
  cases k with
  | scan =>
    have hd : s.dev.boot.debugOn ≠ true := fun e => hk ⟨rfl, e⟩
    exact ⟨_, _, if_neg hd, id⟩
  | bypass | idcode | samplePreload v | extest => exact ⟨_, _, rfl, id⟩

/-! The commands that may write SDRAM, one lemma each. -/

section
variable (s : State)

theorem execRegisterWrite_completes (a : BitVec 24) (v : Word) : completes s (execRegisterWrite a v s) := by
  refine onLiveMem_completes (fun m d h => ?_) s
  refine ite_fst_wf h (ite_fst_wf h (ite_fst_wf h (ite_fst_wf ?_ ?_)))
  · split <;> exact h
  · refine hostWriteMem_wf ?_ _ _ _ fun e => writeReg_wf ?_ _ _ _ _ _ <;>
    exact ite_fst_wf (fireFirst_wf h _ _ _ _) (memWf_pair h _)

theorem execBar2Access_completes (ofs : BitVec 28) (acc : Bar2Acc) : completes s (execBar2Access ofs acc s) := by
  refine onLiveMem_completes (fun m d h => ?_) s
  refine ite_fst_wf h ?_
  cases acc with
  | read n => exact h
  | write bs => exact winWrite_wf h _ _ _ _ _

theorem execSkein_completes (i : Fin 8) : completes s (execSkein i s) := by
  refine onLiveMem_completes (fun m d h => ?_) s
  refine serveRing_wf h d i _ fun ws => ?_
  refine ite_fst_wf (descDone_wf h _ _ _ _ _ _) ?_
  split
  · exact descDone_wf h _ _ _ _ _ _
  · extract_lets
    split <;> exact descDone_wf h _ _ _ _ _ _

theorem execLongop_completes (i : Fin 8) : completes s (execLongop i s) := by
  refine onLiveMem_completes (fun m d h => ?_) s
  refine serveRing_wf h d i _ fun ws => ?_
  extract_lets w b cmd x refused y started z entry
  refine ite_fst_wf (descDone_wf h _ _ _ _ _ _) (ite_fst_wf (descDone_wf h _ _ _ _ _ _) ?_)
  have hy : memWf y := blkWrite_wf (operandWrites_wf h d b _ _) _ b _ cmd
  have hz : memWf z := ite_fst_wf (opDispatch_wf hy _) hy
  exact descDone_wf hz _ _ _ _ _ _

theorem execRingEnable_completes (i : Fin 8) (v : Word) : completes s (execRingEnable i v s) := by
  refine onLiveMem_completes (fun m d h => ?_) s
  exact hostWriteMem_wf h d _ _ fun _ => memWf_pair h _

theorem execRingDisable_completes (i : Fin 8) (v : Word) : completes s (execRingDisable i v s) :=
  execRingEnable_completes s i v

theorem execNop_completes (i : Fin 8) : completes s (execNop i s) := by
  refine onLiveMem_completes (fun m d h => ?_) s
  exact serveRing_wf h d i _ fun ws => descDone_wf h _ _ _ _ _ _

theorem execCompareEnable_completes (n : Fin 64) (v : Word) : completes s (execCompareEnable n v s) := by
  refine onLiveMem_completes (fun m d h => ?_) s
  exact hostWriteMem_wf h d _ _ fun e => cmpCtl_wf h e n v s.rivals

theorem execLaneEnable_completes (n : Fin 40) (v : Word) : completes s (execLaneEnable n v s) := by
  refine onLiveMem_completes (fun m d h => ?_) s
  exact hostWriteMem_wf h d _ _ fun e => laneCtl_wf h e n v

theorem execLaneDisable_completes (n : Fin 40) (v : Word) : completes s (execLaneDisable n v s) :=
  execLaneEnable_completes s n v

theorem execRetrain_completes (n : Fin 40) : completes s (execRetrain n s) := by
  refine onLiveMem_completes (fun m d h => ?_) s
  exact hostWriteMem_wf h d _ _ fun _ => memWf_pair h _

theorem execAbort_completes : completes s (execAbort s) := by
  refine onLiveMem_completes (fun m d h => ?_) s
  exact hostWriteMem_wf h d _ _ fun _ => memWf_pair h _

theorem execSoftReset_completes (b : Blk) : completes s (execSoftReset b s) := by
  refine onLiveMem_completes (fun m d h => ?_) s
  exact hostWriteMem_wf h d _ _ fun e => softReset_wf h e b

theorem execHostFence_completes (b : Blk) : completes s (execHostFence b s) := by
  refine onLiveMem_completes (fun m d h => ?_) s
  exact hostWriteMem_wf h d _ _ fun e => blockFence_wf h e b 2

theorem execOpAbort_completes (b : Blk) : completes s (execOpAbort b s) := by
  refine onLiveMem_completes (fun m d h => ?_) s
  exact hostWriteMem_wf h d _ _ fun e => opAbortWrite_wf h e b

theorem execBootRst_completes (v : Word) : completes s (execBootRst v s) := by
  refine onLiveMem_completes (fun m d h => ?_) s
  exact hostWriteMem_wf h d _ _ fun e => rstWrite_wf h e v

theorem execLayerStart_completes : completes s (execLayerStart s) := by
  refine onLiveMem_completes (fun m d h => ?_) s
  split
  · exact h
  · exact ite_fst_wf h (ite_fst_wf (notStarted_wf h _ _ _) (ite_fst_wf (notStarted_wf h _ _ _) (layerGo_wf h _ _ _ _)))

theorem execLayerEnd_completes : completes s (execLayerEnd s) := by
  refine onLiveMem_completes (fun m d h => ?_) s
  split
  · exact h
  · exact ite_fst_wf (layerOver_wf h _ _) h

theorem execMoveQueueEntry_completes (g : Fin 32) : completes s (execMoveQueueEntry g s) := by
  refine onLiveMem_completes (fun m d h => ?_) s
  refine ite_fst_wf h ?_
  extract_lets
  split
  · exact h
  · exact memWf_fst (bindLoads_wf h _ _ _) _

theorem execFeedbackFrame_completes (n : Fin 40) (f : FbFrame) : completes s (execFeedbackFrame n f s) := by
  refine onLiveMem_completes (fun m d h => ?_) s
  refine ite_fst_wf h (ite_fst_wf h ?_)
  exact foldl_fst_wf (fun _ _ hx => ite_fst_wf hx (fbWord_wf hx _ _ _ _)) _ _ (memWf_pair h _)

theorem execTuningDone_completes (k : Fin 8) (c : Fin 24) : completes s (execTuningDone k c s) := by
  refine onLiveMem_completes (fun m d h => ?_) s
  extract_lets
  split
  · exact h
  · refine ite_fst_wf h (ite_fst_wf h ?_)
    extract_lets
    split
    · exact h
    · rename_i hw
      exact memWf_pair (Dev.sdWrite_wf _ _ _ _ _ h hw) _

theorem execReadDone_completes : completes s (execReadDone s) := by
  refine onLiveMem_completes (fun m d h => ?_) s
  refine ite_fst_wf ?_ h
  extract_lets
  split
  · rename_i hw
    exact memWf_pair (Dev.sdWrite_wf _ _ _ _ _ h hw) _
  · exact h

theorem execMigrate_completes (ch : Fin 2) (act : MigAct) : completes s (execMigrate ch act s) := by
  cases act with
  | start tag rank => exact onLive_completes _ s
  | copy ecc => exact onLiveMem_completes (fun m d h => d.migCopy_wf h ch ecc) s

theorem execMigrateDone_completes (ch : Fin 2) (err : Bool) : completes s (execMigrateDone ch err s) := by
  refine onLiveMem_completes (fun m d h => ?_) s
  extract_lets
  split
  · exact h
  · exact ite_fst_wf h (ite_fst_wf (memWf_fst (d.migKill_wf h ch false) _) (ite_fst_wf h h))

theorem execMarch_completes (act : MarchAct) : completes s (execMarch act s) := by
  cases act <;> exact onLive_completes _ s

theorem execQuadratureEdge_completes (p : Fin 16) (a b : Bool) : completes s (execQuadratureEdge p a b s) := by
  refine onLiveMem_completes (fun m d h => ?_) s
  exact ite_fst_wf h (quadIn_wf h d p _ _)

theorem execHallChange_completes (p : Fin 16) (code : BitVec 3) : completes s (execHallChange p code s) := by
  refine onLiveMem_completes (fun m d h => ?_) s
  exact ite_fst_wf h (hallIn_wf h d p _)

theorem execBissFrame_completes (p : Fin 16) (f : BissFrame) : completes s (execBissFrame p f s) := by
  refine onLiveMem_completes (fun m d h => ?_) s
  refine ite_fst_wf h (ite_fst_wf h ?_)
  exact memWf_fst (bissPos_wf h d _ _ _) _

theorem execFaultMessage_completes : completes s (execFaultMessage s) := by
  refine onLiveMem_completes (fun m d h => ?_) s
  refine ite_fst_wf h ?_
  extract_lets
  split
  · split
    · exact collect_wf h _ _
    · exact h
  · exact h

theorem execTriggerArm_completes (t : Fin 8) (v : Word) : completes s (execTriggerArm t v s) := by
  refine onLiveMem_completes (fun m d h => ?_) s
  exact memWf_fst (fireFirst_wf h d t v s.pending) _

theorem execRingEntryWrite_completes (p : RtPort) : completes s (execRingEntryWrite p s) := by
  refine onLiveMem_completes (fun m d h => ?_) s
  cases p with
  | layer p => exact lpipeRing_wf h d p
  | _ => exact mpvRing_wf h d _ _

theorem execLatRead_completes (act : RowAct) : completes s (execLatRead act s) := by
  refine onLiveMem_completes (fun m d h => ?_) s
  cases act with
  | start tag => exact h
  | row err => exact ite_fst_wf (d.latRow_wf h err) h

theorem execDrafterTick_completes (g : Fin 32) : completes s (execDrafterTick g s) := by
  refine onLiveMem_completes (fun m d h => ?_) s
  exact ite_fst_wf h (ite_fst_wf (webMiss_wf h _ _ _ _ _) h)

theorem execProductStart_completes (g : Fin 32) : completes s (execProductStart g s) := by
  refine onLiveMem_completes (fun m d h => ?_) s
  exact ite_fst_wf h (ite_fst_wf h (webTake_wf h _ _ _))

theorem execJournalReplayDone_completes (fl : Option FlashId) : completes s (execJournalReplayDone fl s) := by
  refine onLiveMem_completes (fun m d h => ?_) s
  refine ite_fst_wf h (memWf_fst ?_ _)
  cases fl with
  | none => exact h
  | some f => exact ite_fst_wf (replay_wf h d f) (memWf_pair h _)

theorem execRankFillDone_completes : completes s (execRankFillDone s) := by
  refine onLiveMem_completes (fun m d h => ?_) s
  exact ite_fst_wf (memWf_pair (m.zeroRange_wf _ _ h) _) h

theorem execBobbinLoad_completes (i : Fin 8) : completes s (execBobbinLoad i s) := by
  refine onLiveMem_completes (fun m d h => ?_) s
  exact ite_fst_wf h (loadRing_wf h d i)

theorem execOpDispatch_completes : completes s (execOpDispatch s) := by
  refine onLiveMem_completes (fun m d h => ?_) s
  exact ite_fst_wf h (opDispatch_wf h d)

/-! The commands that read SDRAM, and leave it as it is. -/

theorem execCmpLoadDone_completes (b : Fin 8) : completes s (execCmpLoadDone b s) := by
  refine onLiveMem_completes (fun m d h => ?_) s
  extract_lets
  split
  · exact h
  · refine ite_fst_wf h ?_
    extract_lets
    split
    · exact h
    · exact ite_fst_wf h h

theorem execLatWriteDone_completes : completes s (execLatWriteDone s) := by
  refine onLiveMem_completes (fun m d h => ?_) s
  refine ite_fst_wf h ?_
  extract_lets
  split <;> exact h

theorem execCalLoadDone_completes (g : Fin 32) : completes s (execCalLoadDone g s) := by
  refine onLiveMem_completes (fun m d h => ?_) s
  refine ite_fst_wf h ?_
  split
  · exact h
  · split <;> exact h

theorem execFmapLoadDone_completes (g : Fin 32) : completes s (execFmapLoadDone g s) := by
  refine onLiveMem_completes (fun m d h => ?_) s
  refine ite_fst_wf h ?_
  split <;> exact h

theorem execGrant_completes (g : Fin 32) : completes s (execGrant g s) := by
  refine onLiveMem_completes (fun m d h => ?_) s
  split
  · exact h
  · exact ite_fst_wf h (ite_fst_wf h (memWf_pair h _))

theorem execVectorFetch_completes (g : Fin 32) : completes s (execVectorFetch g s) := by
  refine onLiveMem_completes (fun m d h => ?_) s
  exact ite_fst_wf h (ite_fst_wf h h)

theorem execItemWindowEntry_completes : completes s (execItemWindowEntry s) := by
  refine onLiveMem_completes (fun m d h => ?_) s
  exact ite_fst_wf h (ite_fst_wf h h)

theorem execSignalLost_completes (n : Fin 40) : completes s (execSignalLost n s) := by
  refine onLiveMem_completes (fun m d h => ?_) s
  exact ite_fst_wf h (ite_fst_wf h h)

theorem execLossOfLock_completes (n : Fin 40) : completes s (execLossOfLock n s) := by
  refine onLiveMem_completes (fun m d h => ?_) s
  exact ite_fst_wf h (ite_fst_wf h h)

theorem execTrainBlock_completes (n : Fin 40) (r : BitVec 3) : completes s (execTrainBlock n r s) := by
  refine onLiveMem_completes (fun m d h => ?_) s
  exact ite_fst_wf (ite_fst_wf h h) (ite_fst_wf h (ite_fst_wf h h))

theorem execDroppedLinkFrame_completes (n : Fin 40) (why : DropWhy) (vc : BitVec 2) :
    completes s (execDroppedLinkFrame n why vc s) := by
  refine onLiveMem_completes (fun m d h => ?_) s
  refine ite_fst_wf h ?_
  cases why with
  | crc => exact ite_fst_wf h h
  | _ => exact h

theorem execExitTimeout_completes (n : Fin 40) : completes s (execExitTimeout n s) := by
  refine onLiveMem_completes (fun m d h => ?_) s
  split
  · exact h
  · exact ite_fst_wf h h

end

/-- Every command completes with the queue as it was, but for internal scan: the others only change the device. -/
theorem exec_completes (c : Instr) (s : State) (hc : ¬ (c = .tapInstruction .scan ∧ s.dev.boot.debugOn = true)) :
    completes s (exec c s) := by
  cases c <;> dsimp only [exec]
  case registerWrite addr v => exact execRegisterWrite_completes s addr v
  case bar2Access ofs acc => exact execBar2Access_completes s ofs acc
  case skein i => exact execSkein_completes s i
  case longop i => exact execLongop_completes s i
  case layerStart => exact execLayerStart_completes s
  case layerEnd => exact execLayerEnd_completes s
  case moveQueueEntry h => exact execMoveQueueEntry_completes s h
  case feedbackFrame n f => exact execFeedbackFrame_completes s n f
  case tuningDone k cell => exact execTuningDone_completes s k cell
  case readDone => exact execReadDone_completes s
  case migrate ch act => exact execMigrate_completes s ch act
  case migrateDone ch targetErr => exact execMigrateDone_completes s ch targetErr
  case march act => exact execMarch_completes s act
  case quadratureEdge m a b => exact execQuadratureEdge_completes s m a b
  case hallChange m code => exact execHallChange_completes s m code
  case bissFrame m f => exact execBissFrame_completes s m f
  case faultMessage => exact execFaultMessage_completes s
  case triggerArm t v => exact execTriggerArm_completes s t v
  case ringEntryWrite p => exact execRingEntryWrite_completes s p
  case latRead act => exact execLatRead_completes s act
  case drafterTick h => exact execDrafterTick_completes s h
  case productStart h => exact execProductStart_completes s h
  case journalReplayDone fl => exact execJournalReplayDone_completes s fl
  case rankFillDone => exact execRankFillDone_completes s
  case bobbinLoad i => exact execBobbinLoad_completes s i
  case opDispatch => exact execOpDispatch_completes s
  case cmpLoadDone b => exact execCmpLoadDone_completes s b
  case latWriteDone => exact execLatWriteDone_completes s
  case calLoadDone h => exact execCalLoadDone_completes s h
  case fmapLoadDone h => exact execFmapLoadDone_completes s h
  case grant h => exact execGrant_completes s h
  case vectorFetch h => exact execVectorFetch_completes s h
  case itemWindowEntry => exact execItemWindowEntry_completes s
  case signalLost n => exact execSignalLost_completes s n
  case lossOfLock n => exact execLossOfLock_completes s n
  case trainBlock n rates => exact execTrainBlock_completes s n rates
  case droppedLinkFrame n why vc => exact execDroppedLinkFrame_completes s n why vc
  case exitTimeout n => exact execExitTimeout_completes s n
  case ringEnable i v => exact execRingEnable_completes s i v
  case ringDisable i v => exact execRingDisable_completes s i v
  case nop i => exact execNop_completes s i
  case compareEnable m v => exact execCompareEnable_completes s m v
  case laneEnable n v => exact execLaneEnable_completes s n v
  case laneDisable n v => exact execLaneDisable_completes s n v
  case retrain n => exact execRetrain_completes s n
  case abort => exact execAbort_completes s
  case softReset b => exact execSoftReset_completes s b
  case hostFence b => exact execHostFence_completes s b
  case opAbort b => exact execOpAbort_completes s b
  case bootRst v => exact execBootRst_completes s v
  case motionTick n => exact onLiveMem_completes (fun _ d h => motionTick_wf h d n) s
  case triggerFire t => exact onLiveMem_completes (fun _ d h => trigFire_wf h d t) s
  case refreshIssue ch r b => exact onLiveMem_completes (fun _ _ h => memWf_pair h _) s
  case leave n r => exact onLiveMem_completes (fun _ _ h => memWf_pair h _) s
  case porstNAssert =>
    exact onMem_completes (fun _ d h => ite_fst_wf (coreReset_wf h _) (memWf_pair h d)) s
  case chiprstNAssert =>
    exact onMem_completes (fun _ d h => ite_fst_wf (coreReset_wf h _) (memWf_pair h d)) s
  case supplyLow =>
    exact onMem_completes (fun _ d h => ite_fst_wf (coreReset_wf h _) (memWf_pair h d)) s
  case tapInstruction k => exact execTapInstruction_completes k s fun e => hc ⟨congrArg _ e.1, e.2⟩
  case registerRead a => exact onLiveRead_completes _ s
  case vstbyApply => exact onDev_completes _ s
  case porstNRelease t => exact onDev_completes _ s
  case chiprstNRelease t => exact onDev_completes _ s
  case perstN l u => exact onDev_completes _ s
  case supplyRestored => exact onDev_completes _ s
  all_goals exact onLive_completes _ s

theorem exec_scan_stops (s : State) (hd : s.dev.boot.debugOn = true) : exec (.tapInstruction .scan) s = .refused .internalScan :=
  if_pos hd

/-- Settles O6: a command other than internal scan completes by `exec_completes`. -/
theorem onlyInternalScanStops : Obligations.OnlyInternalScanStops := by
  refine ⟨fun c s hc => ?_, exec_scan_stops⟩
  obtain ⟨m, d, hm, -⟩ := exec_completes c s hc
  exact ⟨_, hm⟩

/-- A command that completes keeps the queue, and SDRAM canonical. -/
theorem exec_next {c : Instr} {s t : State} (h : exec c s = .next t) : t.pending = s.pending ∧ (s.mem.wf → t.mem.wf) := by
  have hc : ¬ (c = .tapInstruction .scan ∧ s.dev.boot.debugOn = true) := by
    rintro ⟨rfl, hd⟩
    rw [exec_scan_stops s hd] at h
    cases h
  obtain ⟨m, d, hm, hw⟩ := exec_completes c s hc
  obtain rfl : { s with mem := m, dev := d } = t := by simpa [h] using hm.symm
  exact ⟨rfl, hw⟩

/-- Settles O5: a step is a command, which keeps SDRAM canonical, or the end of a cycle, which serves SDRAM requests. -/
theorem stepKeepsMemoryCanonical : Obligations.StepKeepsMemoryCanonical := by
  intro s t hs h
  unfold step at h
  split at h
  · exact (exec_next h).2 hs
  · obtain rfl : s.cycle = t := by simpa using h
    exact State.cycle_wf hs

end Sys2Proof.Machine
end

section
/-! The queue and the quiet cycle (log 1): what a cycle does when nothing waits for its end. -/

namespace Sys2Proof.Machine

variable {d : Dev}

theorem abortsDue_none (m : Mem) (h : ∀ o ∈ d.ops, o.abortAt = none) : abortsDue m d = (m, d) := by
  have hn : (d.ops.filter fun o => o.abortAt.isSome) = [] := List.filter_eq_nil_iff.mpr fun o ho => by simp [h o ho]
  simp [abortsDue, hn]

theorem Dev.sliceCut_none (r : Fin 16) (h : d.flt.slices[r].unit = none) : d.sliceCut r = d := by
  simp only [Dev.sliceCut, h]

theorem sliceCuts_none (h : ∀ r : Fin 16, d.flt.slices[r].unit = none) (l : List (Fin 16)) :
    l.foldl (fun (e : Dev) r => e.sliceCut r) d = d := by
  induction l with
  | nil => rfl
  | cons r t ih => rw [List.foldl_cons, Dev.sliceCut_none r (h r), ih]

theorem sdcSlot_idle (m : Mem) (ch : Fin 2) (h : d.sdc[ch].flight = []) : sdcSlot m d ch = (m, d) := by
  unfold sdcSlot
  exact if_pos (List.isEmpty_iff.mpr h)

theorem sdcSlots_idle (m : Mem) (h : ∀ ch : Fin 2, d.sdc[ch].flight = []) : sdcSlots m d = (m, d) := by
  simp only [sdcSlots, sdcSlot_idle m _ (h _)]

theorem Dev.rtPorts_empty (hm : ∀ h : Fin 32, d.mpvs[h].logs = [] ∧ d.mpvs[h].arcs = [])
    (hp : ∀ p : Fin 2, d.lpipes[p].out = []) {x : Nat × List RtEnt} (hx : x ∈ d.rtPorts) : x.2 = [] := by
  simp only [Dev.rtPorts, List.mem_append, List.mem_map] at hx
  rcases hx with (⟨h, -, rfl⟩ | ⟨h, -, rfl⟩) | ⟨p, -, rfl⟩
  · exact (hm h).1
  · exact (hm h).2
  · exact hp p

theorem Dev.portPanic_empty (hx : ∀ x ∈ d.rtPorts, x.2 = []) (hp : d.pool.panic = []) : d.portPanic = d := by
  have hn : ∀ f : (Nat × List RtEnt) × Nat → Bool, (d.rtPorts.zipIdx.filter fun x => !x.1.2.isEmpty && f x) = [] := by
    intro f
    refine List.filter_eq_nil_iff.mpr fun y hy => ?_
    simp [hx y.1 (List.fst_mem_of_mem_zipIdx hy)]
  unfold Dev.portPanic
  extract_lets hi lo on_
  have he : d.rtPorts.zipIdx.filter on_ = [] := hn _
  rw [he, Dev.poolMod, List.map_nil, ← hp]

theorem State.cycle_dead (s : State) (h : s.dev.dead = true) : s.cycle = s := if_pos h

theorem Dev.cycle_midTick (hd : d.dead = false) (ht : (d.now + 1) % 800 ≠ 0) : d.cycle = { d with
    now := d.now + 1, tim := d.tim.advance, rounds := [], early := [], flt := { d.flt with took := false, fences := [] } } := by
  simp [Dev.cycle, hd, ht]

theorem State.cycle_quiet (s : State) (hd : s.dev.dead = false) (hq : s.dev.quietCycle) :
    s.cycle = { s with dev := s.dev.cycle } := by
  obtain ⟨hops, hslices, hflight, hports, hout, hpanic⟩ := hq
  have hrt : s.dev.portPanic = s.dev := Dev.portPanic_empty (fun x => Dev.rtPorts_empty hports hout) hpanic
  simp [State.cycle, hd, abortsDue_none _ hops, sliceCuts_none hslices, sdcSlots_idle _ hflight, hrt]

/-- Settles O2: a quiet cycle by `State.cycle_quiet`, the queue by `exec_next`. -/
theorem queueLeavesCommandsAndIdles : Obligations.QueueLeavesCommandsAndIdles := by
  refine ⟨fun s h => ?_, State.cycle_dead, fun s hd hq ht => ?_, fun c s t h => (exec_next h).1⟩
  · simp only [step, h]
  · rw [State.cycle_quiet s hd hq, Dev.cycle_midTick hd ht]

end Sys2Proof.Machine
end

section
/-! The step and the state after reset (log 1, R7, R484). -/

namespace Sys2Proof.Machine

/-- Settles O1: the queue's front selects the command. -/
theorem stepRunsTheFrontCommand : Obligations.StepRunsTheFrontCommand := by
  intro s c rest h
  simp only [step, h]

/-- No word is stored at reset, so that every register reads as its table gives it. -/
theorem Dev.get_reset (b : Blk) (r : Reg) (i j : Nat) : State.reset.dev.get b r i j = r.rst := rfl

theorem Mem.byte_reset (a : Nat) : State.reset.mem.byte a = 0 := rfl

/-- Settles O3: nothing is stored in registers or SDRAM at reset, and both reset inputs are low. -/
theorem resetHoldsTableValues : Obligations.ResetHoldsTableValues :=
  ⟨rfl, Dev.get_reset, Mem.byte_reset, by decide, by decide⟩

/-- Settles O4: SDRAM lists no byte and no line at reset. -/
theorem resetMemoryIsCanonical : Obligations.ResetMemoryIsCanonical :=
  ⟨List.Pairwise.nil, fun _ hc => absurd hc List.not_mem_nil, List.Pairwise.nil⟩

end Sys2Proof.Machine
end

section
/-! Plain registers (R5, R6, R33, R45): what a taken write stores, and what a read returns. -/

namespace Sys2Proof.Machine

/-! Writes. -/

theorem Dev.plainWrite_rw (d : Dev) (b : Blk) {t : BT} {o : Nat} {r : Reg} {i j : Nat} (v : Word)
    (hr : regAt t o = some (r, i, j)) (ha : r.acc = .rw) : d.plainWrite b t o v =
      d.put b r ((d.get b r i j &&& ~~~r.mask) ||| limApply (d.get b r i j) r.lims (v &&& r.mask)) i j := by
  simp [Dev.plainWrite, Reg.write, hr, ha]

/-- Blocks whose own registers take a write and do nothing else, but for JRNL_CTL and MPG_POL (R359, R479). -/
theorem writeReg_plain (m : Mem) (d : Dev) {b : Blk} {t : BT} {n o : Nat} (v : Word) (rv : List Rival)
    (hb : blkKind b = some (t, n)) (ht : t ∈ [BT.jrnl, .march, .csirx, .plyarb, .mpg, .bchg, .plyagt]) (ho : 0x100 ≤ o)
    (hj : ¬ (t = .jrnl ∧ o = 0x100)) (hm : ¬ (t = .mpg ∧ o < 0x180 ∧ o % 0x20 = 0x0C)) :
    writeReg m d b o v rv = (m, d.plainWrite b t o v) := by
  simp only [List.mem_cons, List.not_mem_nil, or_false] at ht
  rcases ht with rfl | rfl | rfl | rfl | rfl | rfl | rfl
  case inl =>
    have h1 : o ≠ 0x100 := fun e => hj ⟨rfl, e⟩
    simp [writeReg, Nat.not_lt.mpr ho, hb, h1]
  case inr.inr.inr.inr.inl =>
    have h1 : o < 0x180 → ¬ o % 0x20 = 0x0C := fun h e => hm ⟨rfl, h, e⟩
    simp only [writeReg, Nat.not_lt.mpr ho, hb, if_false]
    exact if_neg fun h => h1 h.2.1 h.2.2
  all_goals simp only [writeReg, Nat.not_lt.mpr ho, hb, if_false]

theorem writeReg_fltMask (m : Mem) (d : Dev) (b : Blk) (v : Word) (rv : List Rival) :
    writeReg m d b 0x018 v rv = (m, d.put b R.FLT_MASK (v &&& kindsOf b)) := rfl

/-- Settles O7: the write is taken (`write_taken`), and its register stores what `plainWrite` gives. -/
theorem registerWriteStoresItsBits : Obligations.RegisterWriteStoresItsBits := by
  refine ⟨fun s b v _ ht hs => ?_, fun s b t n o r i j v hb hmem ho hlt h4 hr ha ht hj hm => ?_⟩
  · rw [write_taken s b 0x018 v (by decide) (by decide) ht (.inl (by decide)) (State.settled_readyFirst hs) (.inr (.inl (by decide))),
      writeReg_fltMask]
  · have hne : ∀ {c : Blk} {u : BT} {k : Nat}, blkKind c = some (u, k) →
        u ∉ [BT.jrnl, .march, .csirx, .plyarb, .mpg, .bchg, .plyagt] → b ≠ c := by
      rintro c u k hc hu rfl
      rw [hb] at hc
      obtain ⟨rfl, -⟩ := Prod.mk.inj (Option.some.inj hc)
      exact hu hmem
    have hlane : ∀ k, blkKind b ≠ some (.lane, k) := fun k e => hne e (by decide) rfl
    have hready : s.dev.readyFirst s.pending = s.dev :=
      readyFirst_taken s.dev s.pending b o ht (hne (u := .hif) (k := 0) (by decide) (by decide))
        (hne (u := .boot) (k := 0) (by decide) (by decide))
    rw [write_taken s b o v hlt h4 ht (.inr hlane) hready (.inl (hne (u := .time) (k := 0) (by decide) (by decide))),
      writeReg_plain s.mem s.dev v s.rivals hb hmem ho hj hm, s.dev.plainWrite_rw b v hr ha]

/-! Reads. -/

/-- A read of a register that shows its stored word, latches no other and does not clear it. -/
theorem Dev.read_plain (d : Dev) (m : Mem) {b : Blk} {t : BT} {n o : Nat} {r : Reg} {i j : Nat}
    (hb : blkKind b = some (t, n)) (hr : regAt t o = some (r, i, j)) (ha : r.acc = .rw ∨ r.acc = .ro)
    (hopen : d.openBits t n o = 0) (hview : d.view m b t n o i j = none) (hlat : latched t o = false)
    (hlats : d.latches b t n o i = []) (hhif : ¬ (t = .hif ∧ o = 0x110)) :
    d.readEffect b o = d ∧ d.readWord m b o = d.get b r i j := by
  have hwo : r.acc ≠ .wo := by rcases ha with h | h <;> simp [h]
  have hrc : r.acc ≠ .rc := by rcases ha with h | h <;> simp [h]
  constructor
  · simp [Dev.readEffect, hb, hr, hopen, hlats, hrc, hhif]
  · simp [Dev.readWord, hb, hr, hopen, hview, hlat, hwo]

/-- The journal, the march unit, the CSI receivers and the calibration groups show and latch nothing beside their words. -/
theorem plainBlock_shows (d : Dev) (m : Mem) (b : Blk) {t : BT} (n : Nat) {o : Nat} (i j : Nat)
    (ht : t ∈ [BT.jrnl, .march, .csirx, .bchg]) (ho : 0x100 ≤ o) :
    d.view m b t n o i j = none ∧ latched t o = false ∧ d.latches b t n o i = [] := by
  have h1 : ¬ o < 0x40 := by omega
  have h2 : o ≠ 0x24 := by omega
  simp only [List.mem_cons, List.not_mem_nil, or_false] at ht
  rcases ht with rfl | rfl | rfl | rfl <;> simp [Dev.view, latched, Dev.latches, Nat.not_lt.mpr ho, h1, h2]

/-- Settles O8: the access succeeds (`read_ok`), and the register shows its stored word (`read_plain`). -/
theorem registerReadReturnsStoredWord : Obligations.RegisterReadReturnsStoredWord := by
  refine ⟨fun s b hb hok hacc => ?_, fun s b t n o r i j hb hmem ho hlt h4 hr ha hok hacc hopen hslice => ?_⟩
  · obtain ⟨⟨t, n⟩, hk⟩ := Option.isSome_iff_exists.mp hb
    have hr : regAt t 0x018 = some (R.FLT_MASK, 0, 0) := rfl
    have hopen : s.dev.openBits t n 0x018 = 0 := by cases t <;> rfl
    have hlat : latched t 0x018 = false := by cases t <;> rfl
    have hlats : s.dev.latches b t n 0x018 0 = [] := by cases t <;> rfl
    obtain ⟨he, hw⟩ := s.dev.read_plain s.mem hk hr (.inl rfl) hopen rfl hlat hlats (by simp)
    rw [read_ok s b 0x018 (by decide) (by decide) hok hacc (.inl (by decide)) (by simp), he, hw]
  · obtain ⟨hview, hlat, hlats⟩ := plainBlock_shows s.dev s.mem b n i j hmem ho
    have hhif : ¬ (t = .hif ∧ o = 0x110) := by rintro ⟨rfl, -⟩; exact absurd hmem (by decide)
    have hsramp : ¬ (b = sramp ∧ o = 0x110) := by
      rintro ⟨rfl, -⟩
      obtain rfl : BT.sramp = t := congrArg Prod.fst (Option.some.inj hb)
      exact absurd hmem (by decide)
    obtain ⟨he, hw⟩ := s.dev.read_plain s.mem hb hr ha hopen hview hlat hlats hhif
    rw [read_ok s b o hlt h4 hok hacc (.inr hslice) hsramp, he, hw]

end Sys2Proof.Machine
end

section
/-! SDRAM in service (R363, R366, R369): requests inside the installed size are served. -/

namespace Sys2Proof.Machine

variable {d : Dev} (h : d.sdramUp) (m : Mem)
include h

theorem Dev.sdStatus_up {a n : Nat} (write : Bool) (ha : a + n ≤ d.installed) (hp : write = true ∨ m.poisoned a n = false) :
    d.sdStatus m a n write = 0 := by
  obtain ⟨hs0, hb0⟩ := h 0
  obtain ⟨hs1, hb1⟩ := h 1
  have hp' : ¬ (¬ write = true ∧ m.poisoned a n = true) := by
    rintro ⟨h1, h2⟩
    rcases hp with h | h
    · exact h1 h
    · simp [h] at h2
  simp only [Fin.val_zero, Fin.val_one] at hs0 hb0 hs1 hb1
  simp only [Dev.sdStatus, hs0, hb0, hs1, hb1, Nat.not_lt.mpr ha, hp', if_false, ne_eq, not_true_eq_false, ite_self, Bool.false_eq_true]

theorem Dev.sdWrite_up {a : Nat} (bs : List Byte) (ha : a + bs.length ≤ d.installed) :
    d.sdWrite m a bs = .ok (m.write a bs) := by
  simp only [Dev.sdWrite, Dev.sdStatus_up h m true ha (.inl rfl)]

theorem Dev.sdPut_up {a : Nat} (bs : List Byte) (ha : a + bs.length ≤ d.installed) : d.sdPut m a bs = m.write a bs := by
  simp only [Dev.sdPut, Dev.sdWrite_up h m bs ha]

/-- No channel is in reset, whose shadow a request would cast (R423). -/
theorem Dev.sdMark_up (user : Blk) (a n : Nat) : d.sdMark user a n = d := by
  have hs0 := (h 0).1
  have hs1 := (h 1).1
  simp only [Fin.val_zero, Fin.val_one] at hs0 hs1
  simp [Dev.sdMark, hs0, hs1]

omit h in
theorem Mem.not_poisoned {m : Mem} (hp : m.poison = []) (a n : Nat) : m.poisoned a n = false := by
  simp [Mem.poisoned, hp]

end Sys2Proof.Machine
end

section
/-! The BAR2 window (R41): a request inside the installed SDRAM, dword by dword and run by run. -/

namespace Sys2Proof.Machine

/-! Runs of enabled bytes. -/

/-- The byte at an address after writes of the runs, where it was `o` before. -/
def runsByte : List (Nat × List Byte) → Nat → Byte → Byte
  | [], _, o => o
  | r :: rs, c, o => runsByte rs c (if r.1 ≤ c ∧ c < r.1 + r.2.length then r.2.getD (c - r.1) 0 else o)

/-- A byte put before a run that begins behind it. -/
theorem runsByte_extend (a c : Nat) (b : Byte) (bs : List Byte) (rs : List (Nat × List Byte)) (o : Byte) :
    runsByte ((a, b :: bs) :: rs) c o = runsByte ((a + 1, bs) :: rs) c (if c = a then b else o) := by
  simp only [runsByte, List.length_cons]
  congr 1
  by_cases hc : c = a
  · subst hc
    simp
  · by_cases h1 : a + 1 ≤ c ∧ c < a + 1 + bs.length
    · obtain ⟨k, rfl⟩ : ∃ k, c = a + 1 + k := ⟨c - (a + 1), by omega⟩
      rw [if_pos h1, if_pos (by omega), show a + 1 + k - a = k + 1 by omega, show a + 1 + k - (a + 1) = k by omega]
      rfl
    · rw [if_neg h1, if_neg (by omega), if_neg hc]

theorem runsByte_single (a c : Nat) (b : Byte) (rs : List (Nat × List Byte)) (o : Byte) :
    runsByte ((a, [b]) :: rs) c o = runsByte rs c (if c = a then b else o) := by
  simp only [runsByte, List.length_cons, List.length_nil]
  congr 1
  by_cases hc : c = a
  · subst hc
    simp
  · rw [if_neg (by omega), if_neg hc]

/-- The runs put every enabled byte at its address, and nothing else. -/
theorem runsByte_runsOf (bs : List (Option Byte)) (a c : Nat) (o : Byte) : runsByte (runsOf a bs) c o =
    if a ≤ c then ((bs[c - a]?).getD none).getD o else o := by
  induction bs generalizing a o with
  | nil => simp [runsOf, runsByte]
  | cons x t ih =>
    have hnext : ∀ o, (if a + 1 ≤ c then ((t[c - (a + 1)]?).getD none).getD o else o) =
        if c = a then o else if a ≤ c then (((x :: t)[c - a]?).getD none).getD o else o := by
      intro o
      by_cases h1 : a + 1 ≤ c
      · rw [if_pos h1, if_neg (by omega), if_pos (by omega), show c - a = c - (a + 1) + 1 by omega, List.getElem?_cons_succ]
      · by_cases hc : c = a
        · rw [if_neg h1, if_pos hc]
        · rw [if_neg h1, if_neg hc, if_neg (by omega)]
    cases x with
    | none =>
      rw [runsOf, ih, hnext]
      by_cases hc : c = a
      · subst hc; simp
      · rw [if_neg hc]
    | some b =>
      have hput : runsByte (runsOf a (some b :: t)) c o = runsByte (runsOf (a + 1) t) c (if c = a then b else o) := by
        simp only [runsOf]
        split
        · next y bs rest hrs =>
          split
          · next hy => rw [hrs, hy.1, runsByte_extend]
          · rw [runsByte_single, hrs]
        · next hrs => rw [runsByte_single, hrs]
      rw [hput, ih, hnext]
      by_cases hc : c = a
      · subst hc; simp
      · rw [if_neg hc, if_neg hc]

/-- A run lies where the bytes lie that it was made of. -/
theorem runsOf_bound (bs : List (Option Byte)) (a : Nat) : ∀ r ∈ runsOf a bs, r.1 + r.2.length ≤ a + bs.length := by
  induction bs generalizing a with
  | nil => simp [runsOf]
  | cons x t ih =>
    have ht : ∀ r ∈ runsOf (a + 1) t, r.1 + r.2.length ≤ a + (x :: t).length := by
      intro r hr
      have := ih (a + 1) r hr
      simp only [List.length_cons]
      omega
    cases x with
    | none => exact ht
    | some b =>
      have h1 : ∀ n, n ≤ t.length → a + (n + 1) ≤ a + (some b :: t).length := by simp
      simp only [runsOf]
      split
      · next y ws rest hrs =>
        rw [hrs] at ht
        obtain ⟨hy, hrest⟩ := List.forall_mem_cons.mp ht
        split
        · next hm =>
          refine List.forall_mem_cons.mpr ⟨?_, hrest⟩
          simp only [List.length_cons] at hy ⊢
          omega
        · exact List.forall_mem_cons.mpr ⟨h1 0 (Nat.zero_le _), List.forall_mem_cons.mpr ⟨hy, hrest⟩⟩
      · exact List.forall_mem_cons.mpr ⟨h1 0 (Nat.zero_le _), by simp⟩

variable {d : Dev} (h : d.sdramUp)
include h

/-- SDRAM after runs of writes inside the installed size. -/
theorem Dev.byte_sdPuts (rs : List (Nat × List Byte)) (m : Mem) (hrs : ∀ r ∈ rs, r.1 + r.2.length ≤ d.installed) (c : Nat) :
    (rs.foldl (fun (x : Mem) r => d.sdPut x r.1 r.2) m).byte c = runsByte rs c (m.byte c) := by
  induction rs generalizing m with
  | nil => rfl
  | cons r rs ih =>
    obtain ⟨hr, ht⟩ := List.forall_mem_cons.mp hrs
    rw [List.foldl_cons, Dev.sdPut_up h m r.2 hr, ih _ ht, m.byte_write r.1 c r.2, runsByte]

/-! The window. -/

theorem Dev.winLog_up (hr : d.ready = true) (m : Mem) (write : Bool) (base : Nat) (as : List Nat)
    (ha : ∀ a ∈ as, a + 4 ≤ d.installed) (hp : write = true ∨ m.poison = []) : d.winLog m write base as = d := by
  have hin : ∀ a ∈ as, d.winIn a = true := fun a h => by simp [Dev.winIn, Dev.winSize, hr, ha a h]
  have hst : ∀ a ∈ as, d.sdStatus m a 4 write = 0 := fun a hm =>
    Dev.sdStatus_up h m write (ha a hm) (hp.imp_right fun h => Mem.not_poisoned h a 4)
  have h1 : (as.find? fun a => d.winIn a ∧ d.sdStatus m a 4 write ≠ 0) = none :=
    List.find?_eq_none.mpr fun a hm => by simp [hst a hm]
  have h2 : (as.find? fun a => ¬ d.winIn a) = none := List.find?_eq_none.mpr fun a hm => by simp [hin a hm]
  simp only [Dev.winLog, h1, h2]

theorem Dev.winWord_up (hr : d.ready = true) (m : Mem) {a : Nat} (ha : a + 4 ≤ d.installed) (hp : m.poison = []) :
    d.winWord m a = (m.word a, d) := by
  have hin : d.winIn a = true := by simp [Dev.winIn, Dev.winSize, hr, ha]
  simp only [Dev.winWord, hin, Dev.sdStatus_up h m false ha (.inr (Mem.not_poisoned hp a 4)), not_true_eq_false, if_false]

theorem winRead_up (hr : d.ready = true) (m : Mem) (base : Nat) (as : List Nat) (ha : ∀ a ∈ as, a + 4 ≤ d.installed)
    (hp : m.poison = []) : winRead m d base as = d.complete (as.map m.word) false := by
  have hbad : (as.any fun a => d.winIn a && d.sdStatus m a 4 false = 4) = false :=
    List.any_eq_false.mpr fun a hm => by
      simp [Dev.sdStatus_up h m false (ha a hm) (.inr (Mem.not_poisoned hp a 4))]
  have hws : ∀ (l : List Nat) (ws : List Word), (∀ a ∈ l, a + 4 ≤ d.installed) →
      l.foldl (fun (y : List Word × Dev) a => (y.1 ++ [(y.2.winWord m a).1], (y.2.winWord m a).2)) (ws, d) =
        (ws ++ l.map m.word, d) := by
    intro l
    induction l with
    | nil => simp
    | cons a t ih =>
      intro ws hl
      obtain ⟨hhead, htail⟩ := List.forall_mem_cons.mp hl
      simp only [List.foldl_cons, Dev.winWord_up h hr m hhead hp, List.map_cons]
      rw [ih _ htail, List.append_assoc, List.singleton_append]
  simp only [winRead, hbad, Dev.winLog_up h hr m false base as ha (.inr hp), hws as [] ha, List.nil_append]

omit h in
/-- The dwords of a request of whole dwords. -/
theorem dwords_aligned {a : Nat} (k : Nat) (h4 : a % 4 = 0) :
    (if 4 * k = 0 then [] else (List.range ((a + 4 * k - 1) / 4 + 1 - a / 4)).map fun i => (a / 4 + i) * 4) =
      (List.range k).map fun i => a + 4 * i := by
  by_cases hk : k = 0
  · simp [hk]
  · have hn : (a + 4 * k - 1) / 4 + 1 - a / 4 = k := by omega
    rw [if_neg (by omega), hn]
    exact List.map_congr_left fun i _ => by omega

omit h in
theorem Dev.winBase_aligned (d : Dev) : d.winBase % 4 = 0 := by
  simp only [Dev.winBase]
  omega

end Sys2Proof.Machine
end

section
namespace Sys2Proof.Machine

variable {s : State} (hok : s.dev.hostOk = true) (hr : s.dev.ready = true) (hup : s.dev.sdramUp)
include hok hr hup

theorem exec_bar2Read {ofs : BitVec 28} {k : Nat} (h4 : ofs.toNat % 4 = 0) (hwin : ofs.toNat + 4 * k ≤ 2 ^ 28)
    (hin : s.dev.winBase + ofs.toNat + 4 * k ≤ s.dev.installed) (hp : s.mem.poison = []) :
    exec (.bar2Access ofs (.read (4 * k))) s =
      .next { s with dev := s.dev.complete (s.mem.words (s.dev.winBase + ofs.toNat) k) false } := by
  have hal : (s.dev.winBase + ofs.toNat) % 4 = 0 := by have := s.dev.winBase_aligned; omega
  have hmin : min (4 * k) (2 ^ 28 - ofs.toNat) = 4 * k := by omega
  have has : ∀ a ∈ (List.range k).map fun i => s.dev.winBase + ofs.toNat + 4 * i, a + 4 ≤ s.dev.installed := by
    intro a ha
    obtain ⟨i, hi, rfl⟩ := List.mem_map.mp ha
    have := List.mem_range.mp hi
    omega
  change execBar2Access ofs (.read (4 * k)) s = _
  unfold execBar2Access
  rw [onLiveMem_next _ _ (s.dev.hostOk_live hok)]
  simp only [hok, not_true_eq_false, if_false, hmin, Dev.sdMark_up hup, dwords_aligned k hal,
    winRead_up hup hr s.mem _ _ has hp, List.map_map]
  rfl

theorem exec_bar2Write {ofs : BitVec 28} {bs : List (Option Byte)} (h4 : ofs.toNat % 4 = 0) (hlen : bs.length % 4 = 0)
    (hwin : ofs.toNat + bs.length ≤ 2 ^ 28) (hin : s.dev.winBase + ofs.toNat + bs.length ≤ s.dev.installed) :
    exec (.bar2Access ofs (.write bs)) s = .next { s with
      mem := (runsOf (s.dev.winBase + ofs.toNat) bs).foldl (fun (x : Mem) r => s.dev.sdPut x r.1 r.2) s.mem } := by
  obtain ⟨k, hk⟩ : ∃ k, bs.length = 4 * k := ⟨bs.length / 4, by omega⟩
  have hal : (s.dev.winBase + ofs.toNat) % 4 = 0 := by have := s.dev.winBase_aligned; omega
  have htake : bs.take (2 ^ 28 - ofs.toNat) = bs := List.take_of_length_le (by omega)
  have htake2 : bs.take (s.dev.winSize - (s.dev.winBase + ofs.toNat)) = bs := by
    refine List.take_of_length_le ?_
    simp only [Dev.winSize, hr, if_true]
    omega
  have has : ∀ a ∈ (List.range k).map fun i => s.dev.winBase + ofs.toNat + 4 * i, a + 4 ≤ s.dev.installed := by
    intro a ha
    obtain ⟨i, hi, rfl⟩ := List.mem_map.mp ha
    have := List.mem_range.mp hi
    omega
  change execBar2Access ofs (.write bs) s = _
  unfold execBar2Access
  rw [onLiveMem_next _ _ (s.dev.hostOk_live hok)]
  simp only [hok, not_true_eq_false, if_false, htake, Dev.sdMark_up hup, winWrite, htake2]
  rw [hk, dwords_aligned k hal, Dev.winLog_up hup hr s.mem true _ _ has (.inl rfl)]

end Sys2Proof.Machine
end

section
namespace Sys2Proof.Machine

/-- Settles O11: a read by its dwords, a write by its runs of enabled bytes. -/
theorem bar2ReachesInstalledSdram : Obligations.Bar2ReachesInstalledSdram := by
  refine ⟨fun s ofs k hok hr hup _ h4 hwin hin hp => exec_bar2Read hok hr hup h4 hwin hin hp,
    fun s ofs bs hok hr hup _ h4 hlen hwin hin => ⟨_, exec_bar2Write hok hr hup h4 hlen hwin hin, fun a => ?_⟩⟩
  rw [Dev.byte_sdPuts hup _ s.mem (fun r hr => (runsOf_bound bs _ r hr).trans hin), runsByte_runsOf]

end Sys2Proof.Machine
end

section
/-! The message fabric (R10, R20 to R26): the winner of a round, and how it moves. -/

namespace Sys2Proof.Machine

/-! The winner (R21). -/

/-- `x` comes before `y` in a round: it is older, or as old and on a port no higher. -/
def Cand.before (x y : Cand) : Prop := y.1.age ≤ x.1.age ∧ (y.1.age = x.1.age → x.1.portNo ≤ y.1.portNo)

theorem Cand.before_refl (x : Cand) : x.before x := ⟨Nat.le_refl _, fun _ => Nat.le_refl _⟩

theorem Cand.before_trans {x y z : Cand} (h : x.before y) (h' : y.before z) : x.before z := by
  obtain ⟨ha, hp⟩ := h
  obtain ⟨ha', hp'⟩ := h'
  exact ⟨Nat.le_trans ha' ha, fun e => by
    have e1 : y.1.age = x.1.age := by omega
    exact Nat.le_trans (hp e1) (hp' (e.trans e1.symm))⟩

theorem older_before (x y : Cand) : (older x y = x ∨ older x y = y) ∧ (older x y).before x ∧ (older x y).before y := by
  unfold older
  split
  · next h => exact ⟨.inl rfl, x.before_refl, by omega, fun e => by omega⟩
  · next h => exact ⟨.inr rfl, ⟨by omega, fun e => by omega⟩, y.before_refl⟩

theorem oldest_spec {l : List Cand} {x : Cand} (h : oldest l = some x) : x ∈ l ∧ ∀ y ∈ l, x.before y := by
  induction l generalizing x with
  | nil => simp [oldest] at h
  | cons z t ih =>
    simp only [oldest] at h
    split at h
    · next w hw =>
      obtain rfl := Option.some.inj h
      obtain ⟨hmem, hall⟩ := ih hw
      obtain ⟨hor, hz, hw'⟩ := older_before z w
      refine ⟨?_, List.forall_mem_cons.mpr ⟨hz, fun y hy => Cand.before_trans hw' (hall y hy)⟩⟩
      rcases hor with h | h <;> rw [h]
      · exact List.mem_cons_self
      · exact List.mem_cons_of_mem _ hmem
    · next hw =>
      obtain rfl := Option.some.inj h
      cases t with
      | nil => exact ⟨List.mem_cons_self, by simpa using z.before_refl⟩
      | cons w t =>
        simp only [oldest] at hw
        split at hw <;> cases hw

theorem oldest_nil_of_none {l : List Cand} (h : oldest l = none) : l = [] := by
  cases l with
  | nil => rfl
  | cons z t =>
    simp only [oldest] at h
    split at h <;> cases h

/-- The highest class among the candidates. -/
theorem le_foldl_max (l : List Nat) (k : Nat) : k ≤ l.foldl max k ∧ ∀ n ∈ l, n ≤ l.foldl max k := by
  induction l generalizing k with
  | nil => simp
  | cons a t ih =>
    obtain ⟨h1, h2⟩ := ih (max k a)
    exact ⟨(Nat.le_max_left k a).trans h1, List.forall_mem_cons.mpr ⟨(Nat.le_max_right k a).trans h1, h2⟩⟩

/-- Some head is past the limit: the oldest of those wins. -/
theorem winner_aged {limit : Nat} {l : List Cand} {x : Cand} (h : winner limit l = some x) (hl : ∃ y ∈ l, limit ≤ y.1.age) :
    oldest (l.filter fun x => limit ≤ x.1.age) = some x := by
  unfold winner at h
  split at h
  · next y hy => rw [hy, h]
  · next hn =>
    obtain ⟨y, hy, hlim⟩ := hl
    have hmem : y ∈ l.filter fun x => limit ≤ x.1.age := List.mem_filter.mpr ⟨hy, by simpa using hlim⟩
    rw [oldest_nil_of_none hn] at hmem
    exact absurd hmem List.not_mem_nil

/-- No head is past the limit: the oldest of the highest class wins. -/
theorem winner_fresh {limit : Nat} {l : List Cand} {x : Cand} (h : winner limit l = some x) (hl : ∀ y ∈ l, y.1.age < limit) :
    oldest (l.filter fun y => y.1.cls.prio = (l.map fun z => z.1.cls.prio).foldl max 0) = some x := by
  have hn : (l.filter fun x => limit ≤ x.1.age) = [] :=
    List.filter_eq_nil_iff.mpr fun y hy => by have := hl y hy; simp [Nat.not_le.mpr this]
  simpa [winner, hn, oldest] using h

theorem winner_spec {limit : Nat} {l : List Cand} {x : Cand} (h : winner limit l = some x) :
    x ∈ l ∧
    ((∃ y ∈ l, limit ≤ y.1.age) → limit ≤ x.1.age ∧ ∀ y ∈ l, limit ≤ y.1.age →
      y.1.age ≤ x.1.age ∧ (y.1.age = x.1.age → x.1.portNo ≤ y.1.portNo)) ∧
    ((∀ y ∈ l, y.1.age < limit) → ∀ y ∈ l, y.1.cls.prio ≤ x.1.cls.prio ∧ (y.1.cls.prio = x.1.cls.prio →
      y.1.age ≤ x.1.age ∧ (y.1.age = x.1.age → x.1.portNo ≤ y.1.portNo))) := by
  have hold : (∃ y ∈ l, limit ≤ y.1.age) → x ∈ l ∧ limit ≤ x.1.age ∧ ∀ y ∈ l, limit ≤ y.1.age → x.before y := by
    intro hl
    obtain ⟨hmem, hall⟩ := oldest_spec (winner_aged h hl)
    obtain ⟨hx, hlim⟩ := List.mem_filter.mp hmem
    exact ⟨hx, by simpa using hlim, fun y hy hy' => hall y (List.mem_filter.mpr ⟨hy, by simpa using hy'⟩)⟩
  have hnew : (∀ y ∈ l, y.1.age < limit) → x ∈ l ∧ ∀ y ∈ l, y.1.cls.prio ≤ x.1.cls.prio ∧
      (y.1.cls.prio = x.1.cls.prio → x.before y) := by
    intro hl
    obtain ⟨hmem, hall⟩ := oldest_spec (winner_fresh h hl)
    obtain ⟨hx, htop⟩ := List.mem_filter.mp hmem
    have htop : x.1.cls.prio = (l.map fun z => z.1.cls.prio).foldl max 0 := by simpa using htop
    refine ⟨hx, fun y hy => ⟨?_, fun e => hall y (List.mem_filter.mpr ⟨hy, by simp [e, htop]⟩)⟩⟩
    rw [htop]
    exact (le_foldl_max _ 0).2 _ (List.mem_map_of_mem hy)
  refine ⟨?_, fun hl => (hold hl).2, fun hl => (hnew hl).2⟩
  by_cases hl : ∃ y ∈ l, limit ≤ y.1.age
  · exact (hold hl).1
  · exact (hnew fun y hy => Nat.lt_of_not_le fun h => hl ⟨y, hy, h⟩).1

/-! The round. -/

theorem Dev.turnAll_inService (d : Dev) (a : ArbId)
    (h : ∀ y ∈ d.fabric, y.arb = some a → d.unitStatus y.dst (bodyCell y) = 0) : d.turnAll a = d := by
  have hn : (d.fabric.filter fun x => x.arb = some a ∧ (x.cls = .req ∨ x.cls = .ev) ∧
      d.unitStatus x.dst (bodyCell x) ≠ 0) = [] :=
    List.filter_eq_nil_iff.mpr fun y hy => by
      simp only [decide_eq_true_eq]
      rintro ⟨ha, -, hs⟩
      exact hs (h y hy ha)
  simp only [Dev.turnAll, hn, List.foldl_nil]

theorem Dev.reached_none (d : Dev) (b : Blk) (c : Option Nat) (h : d.flt.slices[b.region].unit = none) : d.reached b c = d := by
  simp only [Dev.reached, h]

/-- A granted message moves on, where no storm is thinned out and no self-test slice is disturbed. -/
theorem Dev.grant_moves (d : Dev) (a : ArbId) (x : Cand) (hs : d.getB fltc R.FLTC_CTL 1 = false)
    (hb : ∀ b, a = .block b → d.flt.slices[b.region].unit = none) : d.grant_ a x =
      { d with fabric := d.fabric.eraseIdx x.2 ++ [{ x.1 with loc := nextLoc a x.1.dst, age := 0 }] } := by
  cases a with
  | chip => rfl
  | region r => simp [Dev.grant_, Dev.concentrate, hs]
  | block b =>
    have hunit := hb b rfl
    simp only [Dev.grant_]
    split
    · exact Dev.reached_none _ _ _ hunit
    · rfl

section
variable (s : State) (a : ArbId) (hlive : s.dev.dead = false)
  (h : ∀ y ∈ s.dev.fabric, y.arb = some a → s.dev.unitStatus y.dst (bodyCell y) = 0)
include hlive h

theorem exec_round_again (hr : a ∈ s.dev.rounds) : exec (.arbitrationRound a) s = .next s := by
  change execArbitrationRound a s = _
  unfold execArbitrationRound
  rw [onLive_next _ _ hlive]
  simp only [s.dev.turnAll_inService a h, if_pos hr]

theorem exec_round_first {x : Cand} (hr : a ∉ s.dev.rounds)
    (hx : winner (ageLimit a) ((headsAt a s.dev.fabric.zipIdx []).filter fun y => s.dev.eligible a y.1) = some x) :
    exec (.arbitrationRound a) s = .next { s with dev :=
      { (s.dev.ageHeads (headsAt a s.dev.fabric.zipIdx []) x).grant_ a x with rounds := a :: s.dev.rounds } } := by
  change execArbitrationRound a s = _
  unfold execArbitrationRound
  rw [onLive_next _ _ hlive]
  simp only [s.dev.turnAll_inService a h, if_neg hr, hx]

end

/-- Settles O12: the winner by `winner_spec`, its round by `grant_moves`. -/
theorem roundsMoveTheirWinner : Obligations.RoundsMoveTheirWinner := by
  refine ⟨fun limit l x h => winner_spec h, fun s a x hlive hstorm hst hround hslice hwin => ?_, fun s a hst hround => ?_⟩
  · refine ⟨_, ?_, rfl⟩
    rw [exec_round_first s a hlive hst hround hwin, Dev.grant_moves (s.dev.ageHeads _ x) a x hstorm hslice]
    rfl
  · cases hlive : s.dev.dead with
    | true =>
      change execArbitrationRound a s = _
      exact onLive_dead _ s hlive
    | false => exact exec_round_again s a hlive hst hround

end Sys2Proof.Machine
end

section
/-! Requests without a response (R26, R38, R409). -/

namespace Sys2Proof.Machine

/-- A kind that the block has no bit for is always reported, and changes nothing but the fabric (R409). -/
theorem Dev.raise_own (d : Dev) {b : Blk} (c : Option Nat) {kind : Nat} (addr : Nat) (hb : (blkKind b).isSome = true)
    (hk : 32 ≤ kind) : d.raise b c kind addr =
      d.post .flt b fltc none c (.fault (faultMsg b c kind addr false (d.shadowed b c) false false d.tick)) 0 0 := by
  obtain ⟨⟨t, n⟩, ht⟩ := Option.isSome_iff_exists.mp hb
  have hk' : ¬ kind < 32 := by omega
  simp [Dev.raise, Dev.detect, ht, hk']

theorem Dev.reqTimeout_due (d : Dev) {tag : Nat} {r : Pend}
    (hr : (d.reqs.find? fun x => x.tag = tag ∧ ¬ x.timedOut ∧ d.past x.sent 100) = some r) :
    ∃ e, d.reqTimeout tag = ({ d with
      reqs := d.reqs.map fun (x : Pend) => if x.tag = tag then { x with timedOut := true } else x
      fabric := d.fabric ++ [⟨.rsp, r.dst, r.src, none, .predRsp e 0, 5, tag, .inbox, 0⟩] } : Dev).noAnswer r.src r.dst := by
  refine ⟨((d.fabric.find? fun x => x.tag = tag ∧ (x.cls = .req ∨ x.cls = .rsp)).map msgEntry).getD 0, ?_⟩
  simp only [Dev.reqTimeout, hr]

/-- LATE_RESPONSE: the tag is free again, and the late response counted. -/
def Dev.tagFreed (d : Dev) (tag : Nat) : Dev :=
  { d with reqs := d.reqs.filter fun r => r.tag ≠ tag, lateRsp := d.lateRsp + 1 }

theorem exec_lateResponse_carried (s : State) {tag : Nat} {r : Pend} {x : Msg} (hlive : s.dev.dead = false)
    (hr : (s.dev.reqs.find? fun r => r.tag = tag ∧ r.timedOut) = some r) (hc : r.carried = true)
    (hx : (s.dev.fabric.find? fun x => x.tag = tag ∧ x.cls = .rsp ∧ x.loc = .inbox ∧ x.status ≠ 5) = some x) :
    exec (.lateResponse tag) s =
      .next { s with dev := ({ s.dev with fabric := s.dev.fabric.erase x } : Dev).tagFreed tag } := by
  change execLateResponse tag s = _
  unfold execLateResponse
  rw [onLive_next _ _ hlive]
  simp only [hr, hc, hx, not_true_eq_false, if_false]
  rfl

theorem exec_lateResponse_whole (s : State) {tag : Nat} {r : Pend} (hlive : s.dev.dead = false)
    (hr : (s.dev.reqs.find? fun r => r.tag = tag ∧ r.timedOut) = some r) (hc : r.carried = false) :
    exec (.lateResponse tag) s = .next { s with dev := s.dev.tagFreed tag } := by
  change execLateResponse tag s = _
  unfold execLateResponse
  rw [onLive_next _ _ hlive]
  simp only [hr, hc, Bool.false_eq_true, not_false_eq_true, if_true]
  rfl

/-- A BAR0 access that its block does not answer is reported by HIF and logged with code 5 (R38). -/
theorem Dev.barLate_unanswered (d : Dev) {b : Blk} {o : Nat} (k : Dev → Dev) (hne : b ≠ hif) (ho : o < 0x1000)
    (h4 : o % 4 = 0) (hok : d.hostOk = true) (hacc : d.accErr b o = 0) :
    d.barLate (badr b o) k = k ((d.bareTimeout hif b).logErr 5 (badr b o) false) := by
  simp [Dev.barLate, addrBlk_badr b o ho, badr_mod b o ho, badr_abs b o ho, badr_mod4 b o h4, hok, hacc, hne]

/-- Settles O13: the report by `raise_own`, the log by `logErr_logsError`. -/
theorem timedOutRequestsAreAnswered : Obligations.TimedOutRequestsAreAnswered := by
  refine ⟨fun s tag r hlive hr hsrc => ?_, fun s tag x r hlive hr hc hx => exec_lateResponse_carried s hlive hr hc hx,
    fun s tag r hlive hr hc => exec_lateResponse_whole s hlive hr hc,
    fun s b o write _ hne ho h4 hok hacc => ?_⟩
  · obtain ⟨e, he⟩ := s.dev.reqTimeout_due hr
    refine ⟨_, e, ?_, rfl⟩
    change execResponseTimeout (.request tag) s = _
    unfold execResponseTimeout
    rw [onLive_next _ _ hlive]
    simp only [he, Dev.noAnswer, Dev.raise_own _ none _ hsrc (by decide : 32 ≤ 0x80)]
    simp only [Dev.post, List.append_assoc, List.singleton_append, Option.getD_none]
    rfl
  · have hlog := (s.dev.bareTimeout hif b).logErr_logsError 5 (badr b o) (by have := badr_lt b o ho; omega)
    have hbare : s.dev.bareTimeout hif b = { s.dev with
        reqs := s.dev.reqs ++ [⟨s.dev.freeTag, hif, b, s.dev.now - 80000, true, false⟩]
        fabric := s.dev.fabric ++ [⟨.flt, hif, fltc, none, .fault (faultMsg hif none 0x80 (b.region.val + b.block.val * 16) false
          (s.dev.shadowed hif none) false false s.dev.tick), 0, 0, .port (.block hif) (ownPort hif), 0⟩] } := by
      simp only [Dev.bareTimeout, Dev.noAnswer, Dev.raise_own _ none _ (by decide : (blkKind hif).isSome = true) (by decide : 32 ≤ 0x80)]
      rfl
    rw [hbare] at hlog
    cases write with
    | true =>
      refine ⟨_, ?_, ?_, hlog⟩
      · change execResponseTimeout (.hostWrite (BitVec.ofNat 24 (badr b o))) s = _
        unfold execResponseTimeout
        rw [onLive_next _ _ (s.dev.hostOk_live hok)]
        simp only [badr_toNat b o ho, s.dev.barLate_unanswered _ hne ho h4 hok hacc, hbare, id]
      · rfl
    | false =>
      refine ⟨_, ?_, ?_, hlog.complete [0xFFFFFFFF#32] false⟩
      · change execResponseTimeout (.hostRead (BitVec.ofNat 24 (badr b o))) s = _
        unfold execResponseTimeout
        rw [onLive_next _ _ (s.dev.hostOk_live hok)]
        simp only [badr_toNat b o ho, s.dev.barLate_unanswered _ hne ho h4 hok hacc, hbare]
      · rfl

end Sys2Proof.Machine
end

section
/-! SUPPORT. Bits and fields of registers under writes to the same and to other registers, said once. -/

namespace Sys2Proof.Machine

section
variable (d : Dev) (b c : Blk) (r q : Reg)

/-! Another register. -/

variable {b c r q} in
theorem Dev.getB_put_ne {i j i' j' : Nat} (v : Word) (k : Nat) (h : radr c q i' j' ≠ radr b r i j) :
    (d.put b r v i j).getB c q k i' j' = d.getB c q k i' j' := by
  simp only [Dev.getB, Dev.get_put_ne _ _ _ _ _ _ _ _ _ _ h]

variable {b c r q} in
theorem Dev.getF_put_ne {i j i' j' : Nat} (v : Word) (hi lo : Nat) (h : radr c q i' j' ≠ radr b r i j) :
    (d.put b r v i j).getF c q hi lo i' j' = d.getF c q hi lo i' j' := by
  simp only [Dev.getF, Dev.get_put_ne _ _ _ _ _ _ _ _ _ _ h]

variable {b c r q} in
theorem Dev.get_putF_ne {i j i' j' : Nat} (hi lo n : Nat) (h : radr c q i' j' ≠ radr b r i j) :
    (d.putF b r hi lo n i j).get c q i' j' = d.get c q i' j' := Dev.get_put_ne _ _ _ _ _ _ _ _ _ _ h

variable {b c r q} in
theorem Dev.get_putB_ne {i j i' j' : Nat} (k : Nat) (v : Bool) (h : radr c q i' j' ≠ radr b r i j) :
    (d.putB b r k v i j).get c q i' j' = d.get c q i' j' := Dev.get_put_ne _ _ _ _ _ _ _ _ _ _ h

variable {b c r q} in
theorem Dev.getB_putB_ne {i j i' j' : Nat} (k k' : Nat) (v : Bool) (h : radr c q i' j' ≠ radr b r i j) :
    (d.putB b r k v i j).getB c q k' i' j' = d.getB c q k' i' j' := d.getB_put_ne _ _ h

variable {b c r q} in
theorem Dev.getF_putB_ne {i j i' j' : Nat} (k : Nat) (v : Bool) (hi lo : Nat) (h : radr c q i' j' ≠ radr b r i j) :
    (d.putB b r k v i j).getF c q hi lo i' j' = d.getF c q hi lo i' j' := d.getF_put_ne _ _ _ h

variable {b c r q} in
theorem Dev.getF_putF_ne {i j i' j' : Nat} (hi lo n hi' lo' : Nat) (h : radr c q i' j' ≠ radr b r i j) :
    (d.putF b r hi lo n i j).getF c q hi' lo' i' j' = d.getF c q hi' lo' i' j' := d.getF_put_ne _ _ _ h

variable {b c r q} in
theorem Dev.getB_putF_ne {i j i' j' : Nat} (hi lo n k : Nat) (h : radr c q i' j' ≠ radr b r i j) :
    (d.putF b r hi lo n i j).getB c q k i' j' = d.getB c q k i' j' := d.getB_put_ne _ _ h

/-! The same register. -/

variable (i j : Nat)

@[simp] theorem Dev.get_putF_same (hi lo n : Nat) :
    (d.putF b r hi lo n i j).get b r i j = setFld (d.get b r i j) hi lo n := Dev.get_put_same _ _ _ _ _ _

@[simp] theorem Dev.get_putB_same (k : Nat) (v : Bool) :
    (d.putB b r k v i j).get b r i j = setFld (d.get b r i j) k k v.toNat := Dev.get_put_same _ _ _ _ _ _

theorem Dev.getF_putF_same {hi lo : Nat} (n : Nat) (h : hi < 32) (hl : lo ≤ hi) :
    (d.putF b r hi lo n i j).getF b r hi lo i j = n % 2 ^ (hi + 1 - lo) := by
  simp only [Dev.getF, Dev.get_putF_same, fld_setFld_same _ _ _ _ h hl]

theorem Dev.getF_putF_other {hi lo hi' lo' : Nat} (n : Nat) (h : hi < 32) (hd : hi' < lo ∨ hi < lo') :
    (d.putF b r hi lo n i j).getF b r hi' lo' i j = d.getF b r hi' lo' i j := by
  simp only [Dev.getF, Dev.get_putF_same, fld_setFld_ne _ _ _ _ _ _ h hd]

theorem Dev.getB_putB_same {k : Nat} (v : Bool) (h : k < 32) : (d.putB b r k v i j).getB b r k i j = v := by
  simp only [Dev.getB, Dev.get_putB_same, bit_setBit_same _ _ _ h]

theorem Dev.getB_putB_other {k k' : Nat} (v : Bool) (h : k < 32) (hk : k' ≠ k) :
    (d.putB b r k v i j).getB b r k' i j = d.getB b r k' i j := by
  simp only [Dev.getB, Dev.get_putB_same, bit_setBit_ne _ _ _ _ h hk]

theorem Dev.getF_putB_other {k hi lo : Nat} (v : Bool) (h : k < 32) (hd : hi < k ∨ k < lo) :
    (d.putB b r k v i j).getF b r hi lo i j = d.getF b r hi lo i j := d.getF_putF_other b r i j _ h hd

theorem Dev.getB_putF_other {hi lo k : Nat} (n : Nat) (h : hi < 32) (hd : k < lo ∨ hi < k) :
    (d.putF b r hi lo n i j).getB b r k i j = d.getB b r k i j := by
  simp only [Dev.getB, Dev.get_putF_same, bit_setFld _ _ _ _ _ h]
  exact if_neg (by omega)

end

/-! Registers written one after the other. -/

theorem Dev.regsKept.trans {d e f : Dev} {p : Nat → Prop} (h : d.regsKept e p) (h' : e.regsKept f p) : d.regsKept f p :=
  fun a ha => (h' a ha).trans (h a ha)

theorem Dev.regsKept.mono {d e : Dev} {p q : Nat → Prop} (h : d.regsKept e p) (hpq : ∀ a, p a → q a) : d.regsKept e q :=
  fun a ha => h a fun hp => ha (hpq a hp)

/-- A register that is not among those that may change reads as before. -/
theorem Dev.regsKept.get {d e : Dev} {p : Nat → Prop} (h : d.regsKept e p) (b : Blk) (r : Reg) (i j : Nat)
    (hp : ¬ p (radr b r i j)) : e.get b r i j = d.get b r i j := Dev.get_of_regs b r i j (h _ hp)

/-- A write to one register, whatever the rest of the state. -/
theorem Dev.regsKept_put (d : Dev) (b : Blk) (r : Reg) (v : Word) (i j : Nat) {p : Nat → Prop} (hp : p (radr b r i j)) :
    d.regsKept (d.put b r v i j) p := (d.regsKept_refl p).put b r v i j hp

/-- Registers at different offsets of their pages, whatever the blocks. -/
theorem radr_ne_of_page (b c : Blk) (r q : Reg) (i j i' j' : Nat) (h : q.ofs i' j' % 0x1000 ≠ r.ofs i j % 0x1000) :
    radr c q i' j' ≠ radr b r i j := by
  unfold radr badr
  omega

theorem blkCtl_ne_blkStat (b c : Blk) : radr c R.BLK_CTL ≠ radr b R.BLK_STAT := radr_ne_of_page b c _ _ 0 0 0 0 (by decide)

end Sys2Proof.Machine
end

section
/-! Enabling and wake-ups (R454; log 21, DEDUCED). -/

namespace Sys2Proof.Machine

/-! What ACTIVE does not touch. -/

section
variable (d : Dev) (b c : Blk) (v : Bool)

theorem Dev.setActive_get {r : Reg} (i j : Nat) (h : radr c r i j ≠ radr b R.BLK_STAT) :
    (d.setActive b v).get c r i j = d.get c r i j := d.get_putB_ne 1 v h

@[simp] theorem Dev.setActive_blkCtl : (d.setActive b v).get c R.BLK_CTL = d.get c R.BLK_CTL :=
  d.setActive_get b c v 0 0 (blkCtl_ne_blkStat b c)

@[simp] theorem Dev.setActive_blkCtlBit (k : Nat) : (d.setActive b v).getB c R.BLK_CTL k = d.getB c R.BLK_CTL k := by
  simp only [Dev.getB, Dev.setActive_blkCtl]

@[simp] theorem Dev.setActive_same : (d.setActive b v).getB b R.BLK_STAT 1 = v := d.getB_putB_same b _ 0 0 v (by decide)

theorem Dev.setActive_other (h : c ≠ b) : (d.setActive b v).getB c R.BLK_STAT 1 = d.getB c R.BLK_STAT 1 :=
  d.getB_putB_ne 1 1 v (radr_ne_of_blk b c _ _ 0 0 0 0 h (by decide) (by decide))

theorem Dev.setActive_kept {p : Nat → Prop} (hp : p (radr b R.BLK_STAT)) : d.regsKept (d.setActive b v) p :=
  d.regsKept_put b R.BLK_STAT _ 0 0 hp

/-- The service state of a block stands in BLK_CTL and the cell fence list. -/
theorem Dev.unitStatus_of_ctl {d e : Dev} (b : Blk) (c : Option Nat) (h : e.get b R.BLK_CTL = d.get b R.BLK_CTL)
    (hcf : e.flt.cf = d.flt.cf) : e.unitStatus b c = d.unitStatus b c := by
  have hcode : e.fence b = d.fence b := by simp only [Dev.fence, Dev.getF, h]
  have hfence : e.fenced b = d.fenced b := by rw [Dev.fenced, Dev.fenced, hcode]
  have hreset : e.inReset b = d.inReset b := by simp only [Dev.inReset, Dev.getB, h]
  have hcell : ∀ k, e.cellFenced b k = d.cellFenced b k := fun k => by simp only [Dev.cellFenced, hcf]
  simp only [Dev.unitStatus, hfence, hreset, hcell]

@[simp] theorem Dev.setActive_up : (d.setActive b v).up c = d.up c := by
  have hst : (d.setActive b v).status c = d.status c := Dev.unitStatus_of_ctl c none (d.setActive_blkCtl b c v) rfl
  rw [Dev.up, Dev.up, hst]

end

/-! BLK_CTL.EN. -/

theorem Dev.blockEn_on (d : Dev) (b : Blk) (hen : d.getB b R.BLK_CTL 0 = false) (hw : (d.wakeReq.any fun w => w.2 = b) = false) :
    d.blockEn b true = { (d.putB b R.BLK_CTL 0 true).setActive b false with wakeReq := insertWake (d.now, b) d.wakeReq } := by
  simp only [Dev.blockEn, hen]
  exact if_neg (Bool.eq_false_iff.mp hw)

theorem Dev.blockEn_off (d : Dev) (b : Blk) (hen : d.getB b R.BLK_CTL 0 = true) :
    d.blockEn b false = { (d.putB b R.BLK_CTL 0 false).setActive b false with wakeReq := d.wakeReq.filter fun w => w.2 ≠ b } := by
  simp only [Dev.blockEn, hen]
  rfl

/-- EN is written and ACTIVE cleared: what the two registers hold, and that no other changes. -/
theorem Dev.enWritten (d : Dev) (b : Blk) (en : Bool) :
    ((d.putB b R.BLK_CTL 0 en).setActive b false).getB b R.BLK_CTL 0 = en ∧
    ((d.putB b R.BLK_CTL 0 en).setActive b false).getB b R.BLK_STAT 1 = false ∧
    (∀ k, 0 < k → ((d.putB b R.BLK_CTL 0 en).setActive b false).getB b R.BLK_CTL k = d.getB b R.BLK_CTL k) ∧
    d.regsKept ((d.putB b R.BLK_CTL 0 en).setActive b false) fun a => a = radr b R.BLK_CTL ∨ a = radr b R.BLK_STAT := by
  refine ⟨?_, Dev.setActive_same _ _ _, fun k hk => ?_, ?_⟩
  · rw [Dev.setActive_blkCtlBit, Dev.getB_putB_same _ _ _ _ _ _ (by decide)]
  · rw [Dev.setActive_blkCtlBit, Dev.getB_putB_other _ _ _ _ _ _ (by decide) (by omega)]
  · exact (d.regsKept_put b R.BLK_CTL _ 0 0 (.inl rfl)).trans (Dev.setActive_kept _ b false (.inr rfl))

theorem exec_enable (s : State) (b : Blk) (en : Bool) (h : s.dev.takes b 0x008) :
    exec (.enable b en) s = .next { s with dev := s.dev.blockEn b en } := by
  change execEnable b en s = _
  unfold execEnable
  rw [onLive_next _ _ (s.dev.takes_live _ _ h), s.dev.hostWrite_takes _ _ _ h]

/-! Wake-ups. -/

/-- The blocks of a list of requests become active where they are enabled and in service. -/
def Dev.wakeAll (d : Dev) (l : List (Nat × Blk)) : Dev :=
  l.foldl (fun (e : Dev) w => e.setActive w.2 (e.up w.2 && e.getB w.2 R.BLK_CTL 0)) d

/-- What a wake-up may give a block: nothing but ACTIVE. -/
theorem Dev.wakeAll_spec (l : List (Nat × Blk)) (d : Dev) :
    d.wakeAll l = { d with regs := (d.wakeAll l).regs } ∧
    (∀ b, (∃ w ∈ l, w.2 = b) → (d.wakeAll l).getB b R.BLK_STAT 1 = (d.up b && d.getB b R.BLK_CTL 0)) ∧
    (∀ b, (¬ ∃ w ∈ l, w.2 = b) → (d.wakeAll l).getB b R.BLK_STAT 1 = d.getB b R.BLK_STAT 1) ∧
    d.regsKept (d.wakeAll l) fun a => ∃ w ∈ l, a = radr w.2 R.BLK_STAT := by
  induction l generalizing d with
  | nil => exact ⟨rfl, by simp, fun _ _ => rfl, d.regsKept_refl _⟩
  | cons w t ih =>
    obtain ⟨hframe, hin, hout, hkept⟩ := ih (d.setActive w.2 (d.up w.2 && d.getB w.2 R.BLK_CTL 0))
    have hcons : d.wakeAll (w :: t) = (d.setActive w.2 (d.up w.2 && d.getB w.2 R.BLK_CTL 0)).wakeAll t := rfl
    rw [hcons]
    refine ⟨by rw [hframe]; rfl, fun b hb => ?_, fun b hb => ?_, ?_⟩
    · by_cases ht : ∃ w ∈ t, w.2 = b
      · rw [hin b ht, Dev.setActive_up, Dev.setActive_blkCtlBit]
      · obtain rfl : w.2 = b := by
          obtain ⟨x, hx, rfl⟩ := hb
          rcases List.mem_cons.mp hx with rfl | hx
          · rfl
          · exact absurd ⟨x, hx, rfl⟩ ht
        rw [hout _ ht, Dev.setActive_same]
    · have hw : b ≠ w.2 := fun e => hb ⟨w, List.mem_cons_self, e.symm⟩
      rw [hout b fun ⟨x, hx, e⟩ => hb ⟨x, List.mem_cons_of_mem _ hx, e⟩, Dev.setActive_other _ _ _ _ hw]
    · exact (Dev.setActive_kept d w.2 _ ⟨w, List.mem_cons_self, rfl⟩).trans
        (hkept.mono fun a ⟨x, hx, e⟩ => ⟨x, List.mem_cons_of_mem _ hx, e⟩)

theorem exec_wakeUp (s : State) (r : Fin 16) (hlive : s.dev.dead = false) (hdue : s.dev.wakeDue r = true) :
    exec (.wakeUp r) s = .next { s with dev := { s.dev.wakeAll (s.dev.wakeReq.filter fun w => w.2.region = r) with
      wakeReq := s.dev.wakeReq.filter fun w => w.2.region ≠ r, wakeLast := some (s.dev.now, r.val) } } := by
  change execWakeUp r s = _
  unfold execWakeUp
  rw [onLive_next _ _ hlive, Dev.when_of _ _ hdue]
  rfl

/-- Settles O14: EN by `blockEn_on` and `blockEn_off`, the wake-up by `wakeAll_spec`. -/
theorem enabledBlocksWakeUp : Obligations.EnabledBlocksWakeUp := by
  refine ⟨fun s b ht hen hw => ?_, fun s b ht hen => ?_, fun s r hlive hdue => ?_⟩
  · refine ⟨_, exec_enable s b true ht, ?_⟩
    rw [s.dev.blockEn_on b hen hw]
    exact ⟨rfl, s.dev.enWritten b true⟩
  · refine ⟨_, exec_enable s b false ht, ?_⟩
    rw [s.dev.blockEn_off b hen]
    exact ⟨rfl, s.dev.enWritten b false⟩
  · obtain ⟨hframe, hin, -, hkept⟩ := Dev.wakeAll_spec (s.dev.wakeReq.filter fun w => w.2.region = r) s.dev
    refine ⟨_, exec_wakeUp s r hlive hdue, by rw [hframe], fun w hw hr => ?_, hkept.mono fun a ha => ?_⟩
    · exact hin w.2 ⟨w, List.mem_filter.mpr ⟨hw, by simpa using hr⟩, rfl⟩
    · obtain ⟨w, hw, rfl⟩ := ha
      obtain ⟨hmem, hr⟩ := List.mem_filter.mp hw
      exact ⟨w, hmem, by simpa using hr, rfl⟩

end Sys2Proof.Machine
end

section
/-! The end of a soft reset of JRNL (R7, R422): a program under way is cut, and what the flash holds of it is a free value. -/

namespace Sys2Proof.Machine

/-- JRNL is in reset, with a program under way and no transaction queued. -/
def resetInProgram : State := { State.reset with dev :=
  ({ Dev.init with boot := { Boot.init with porst := true }, jrn := { Jrn.init with busy := true } } : Dev).put jrnl R.BLK_CTL 2#32 }

/-- A program that is cut draws a free value (log 48). -/
theorem Dev.flashCut_fresh (d : Dev) (hb : d.jrn.busy = true) (hq : d.jrn.queue = []) : d.flashCut.fresh = d.fresh + 1 := by
  simp only [Dev.flashCut, hb, if_true]
  split
  · simp only [Dev.jCommit, Dev.free_jrn, hq]
    rfl
  · rfl

theorem Dev.jRenew_fresh (d : Dev) (hb : d.jrn.busy = true) (hq : d.jrn.queue = []) : d.jRenew.fresh = d.fresh + 1 :=
  d.flashCut_fresh hb hq

theorem Dev.wakeAsk_fresh (d : Dev) (b : Blk) : (d.wakeAsk b).fresh = d.fresh := by
  unfold Dev.wakeAsk
  split <;> rfl

/-- The shadows that a block casts end 10 µs from now (R422). -/
def Dev.shadowsEnd (d : Dev) (b : Blk) : Dev :=
  { d with shadows := d.shadows.map fun x => if x.by_ = b ∧ x.ends = none then { x with ends := some d.now } else x }

theorem exec_softResetEnd (s : State) (b : Blk) (hlive : s.dev.dead = false) (hr : s.dev.inReset b = true) :
    exec (.softResetEnd b) s =
      .next { s with dev := (((s.dev.putB b R.BLK_CTL 1 false).blockRenew b).shadowsEnd b).wakeAsk b } := by
  change execSoftResetEnd b s = _
  unfold execSoftResetEnd
  rw [onLive_next _ _ hlive, Dev.when_of _ _ hr]
  rfl

/-- Refutes O15: `resetInProgram` meets the hypotheses of the end of a soft reset of JRNL, and the cut program draws a free value,
so that the counter of free values does not keep its value. -/
theorem not_softResetsCastShadows : ¬ Obligations.SoftResetsCastShadows := by
  rintro ⟨-, hend, -⟩
  have hlive : resetInProgram.dev.dead = false := by decide
  have hreset : resetInProgram.dev.inReset jrnl = true := by decide
  obtain ⟨d', hex, hframe, -⟩ := hend resetInProgram jrnl .jrnl 0 hlive rfl (by decide) hreset rfl
  have hkept : d'.fresh = 0 := congrArg Dev.fresh hframe
  rw [exec_softResetEnd _ _ hlive hreset] at hex
  have hdrawn : d'.fresh = 1 := by
    obtain rfl := congrArg State.dev (Host.Outcome.next.inj hex)
    rw [Dev.wakeAsk_fresh]
    exact Dev.jRenew_fresh _ rfl rfl
  omega

end Sys2Proof.Machine
end

section
/-! SUPPORT. The block map (R35), and the registers of a block that a reset forgets (R7, R42). -/

namespace Sys2Proof.Machine

/-- The map of R35 read both ways, over its 1,024 pages. -/
theorem blk_kinds : ∀ (r : Fin 16) (k : Fin 64), (blkKind ⟨r, k⟩).all (fun x => blk x.1 x.2 = ⟨r, k⟩) = true := by
  decide +kernel

/-- A block is named by its type and number. -/
theorem blk_of_kind {b : Blk} {t : BT} {n : Nat} (h : blkKind b = some (t, n)) : b = blk t n := by
  have hall := blk_kinds b.region b.block
  rw [show (⟨b.region, b.block⟩ : Blk) = b from rfl, h] at hall
  simpa using (of_decide_eq_true hall).symm

/-- Filtering a sparse table by its keys. -/
theorem spGet_filter {α : Type} (l : List (Nat × α)) (p : Nat → Bool) (a : Nat) :
    spGet (l.filter fun x => p x.1) a = if p a = true then spGet l a else none := by
  induction l with
  | nil => simp [spGet]
  | cons x t ih =>
    obtain ⟨k, v⟩ := x
    by_cases hk : p k = true
    · simp only [List.filter_cons, hk, if_true, spGet, ih]
      by_cases ha : k = a
      · subst ha; simp [hk]
      · simp [ha]
    · simp only [List.filter_cons, hk, if_false, spGet, ih, Bool.false_eq_true]
      by_cases ha : k = a
      · subst ha; simp [hk]
      · simp [ha]

section
variable (d : Dev) (b : Blk) (keep : Nat → Bool)

theorem Dev.regsReset_prior {x : Nat × Word} (h : x ∈ (d.regsReset b keep).prior) : x ∈ d.prior := (List.mem_filter.mp h).1

theorem Dev.regsReset_kept : d.regsKept (d.regsReset b keep) (onPage b) := by
  intro a ha
  have hout : (!(decide (badr b 0 ≤ a) && decide (a < badr b 0x1000) && !keep (a - badr b 0))) = true := by
    by_contra hc
    refine ha ?_
    simp only [Bool.not_eq_true', Bool.not_eq_false, Bool.and_eq_true, decide_eq_true_eq] at hc
    exact hc.1
  simp only [Dev.regsReset]
  rw [spGet_filter d.regs (fun a => !(decide (badr b 0 ≤ a) && decide (a < badr b 0x1000) && !keep (a - badr b 0))) a, if_pos hout]

/-- A register that a reset keeps. -/
theorem Dev.regsReset_get {r : Reg} (i j : Nat) (h : keep (r.ofs i j) = true) :
    (d.regsReset b keep).get b r i j = d.get b r i j := by
  have hofs : radr b r i j - badr b 0 = r.ofs i j := by unfold radr badr; omega
  refine Dev.get_of_regs b r i j ?_
  simp only [Dev.regsReset]
  rw [spGet_filter d.regs (fun a => !(decide (badr b 0 ≤ a) && decide (a < badr b 0x1000) && !keep (a - badr b 0))) (radr b r i j),
    if_pos (by simp only [hofs, h, Bool.not_true, Bool.and_false, Bool.not_false])]

end

end Sys2Proof.Machine
end

section
/-! Host fences (R44, R420) of blocks that stand alone, and blocks that come back with nothing but registers. -/

namespace Sys2Proof.Machine

/-! Nothing to end, and nothing on its way. -/

section
variable {d : Dev} {b : Blk}

theorem opStop_idle (m : Mem) (err : Nat) (hb : d.opBusy b = false) (hn : d.opDoneNow b = false) : opStop m d b err = (m, d) := by
  have h1 : d.opState b ≠ 1 := fun h => by simp [Dev.opBusy, h] at hb
  have h2 : d.opState b ≠ 2 := fun h => by simp [Dev.opBusy, h] at hb
  have hkill : d.opKill b err = d := if_neg (by simp [h1, h2, hn])
  simp [opStop, hkill, h1, h2, hn]

/-- Leaving service moves nothing outside a block that stands alone. -/
theorem blockOut_alone (m : Mem) (d : Dev) {t : BT} {n : Nat} (fence : Bool) (hb : blkKind b = some (t, n))
    (ht : standsAlone t = true) : blockOut m d b fence = (m, d) := by
  cases t with
  | headctl | servo | mspin | lane | mpv | sdc => simp [standsAlone] at ht
  | _ => simp only [blockOut, hb]

theorem Dev.inboxOut_empty (st : Nat) (hf : ∀ x ∈ d.fabric, x.dst = b → x.loc ≠ .inbox) (hr : ∀ x ∈ d.reqs, x.dst ≠ b) :
    d.inboxOut b st = d := by
  have hgone : (d.reqs.filter fun r => r.timedOut ∧ r.dst = b) = [] :=
    List.filter_eq_nil_iff.mpr fun r hm => by simp [hr r hm]
  have hreqs : (d.reqs.filter fun r => ¬ (r.timedOut ∧ r.dst = b)) = d.reqs :=
    List.filter_eq_self.mpr fun r hm => by simp [hr r hm]
  have hin : (d.fabric.filter fun x => x.dst = b ∧ x.loc = .inbox ∧ (x.cls = .req ∨ x.cls = .ev)) = [] :=
    List.filter_eq_nil_iff.mpr fun x hm => by
      have := hf x hm
      simp only [decide_eq_true_eq]
      exact fun h => this h.1 h.2.1
  have hall : ∀ l : List Msg, (l.filter fun x => ¬ (x.tag ∈ ([] : List Nat) ∧ (x.cls = .req ∨ x.cls = .rsp) ∧ x.status ≠ 5)) = l :=
    fun l => List.filter_eq_self.mpr fun x _ => by simp
  simp only [Dev.inboxOut, hgone, hreqs, List.map_nil, hall, hin, List.foldl_nil]

end

/-! Fences. -/

theorem exec_hostFence (s : State) (b : Blk) (h : s.dev.takes b 0x008) :
    exec (.hostFence b) s =
      .next { s with mem := (blockFence s.mem s.dev b 2).1, dev := (blockFence s.mem s.dev b 2).2 } := by
  change execHostFence b s = _
  unfold execHostFence
  rw [onLiveMem_next _ _ (s.dev.takes_live _ _ h), hostWriteMem_takes _ _ _ _ _ h]

theorem exec_fenceClear (s : State) (b : Blk) (h : s.dev.takes b 0x008) :
    exec (.fenceClear b) s = .next { s with dev := s.dev.unfence b } := by
  change execFenceClear b s = _
  unfold execFenceClear
  rw [onLive_next _ _ (s.dev.takes_live _ _ h), s.dev.hostWrite_takes _ _ _ h]

/-- FENCE is written and ACTIVE cleared, and the fence is noted for its cycle (R420). -/
def Dev.fenceSet (d : Dev) (b : Blk) (code : Nat) : Dev :=
  { (d.putF b R.BLK_CTL 5 4 code).setActive b false with flt := { d.flt with fences := (b, code) :: d.flt.fences } }

theorem blockFence_alone (m : Mem) {d : Dev} {b : Blk} {t : BT} {n : Nat} (code : Nat) (hb : blkKind b = some (t, n))
    (ht : standsAlone t = true) (hn : neverFenced b = false) (hf : d.fence b = 0) (hs : d.flt.slices[b.region].unit = none)
    (hop : d.opBusy b = false) (hd : d.opDoneNow b = false) (hin : ∀ x ∈ d.fabric, x.dst = b → x.loc ≠ .inbox)
    (hr : ∀ x ∈ d.reqs, x.dst ≠ b) : blockFence m d b code = (m, d.fenceSet b code) := by
  have hfenced : d.fenced b = false := by simp [Dev.fenced, hf]
  have hout := Dev.inboxOut_empty (d := (d.putF b R.BLK_CTL 5 4 code).setActive b false) (b := b) 1 hin hr
  simp only [blockFence, hn, hfenced, d.abandonSlice_none b true hs, opStop_idle m 3 hop hd, blockOut_alone m _ true hb ht, hout,
    if_false, Bool.false_eq_true]
  rfl

/-- A host fence of a block never fenced, or fenced already, does nothing. -/
theorem blockFence_host_none (m : Mem) (d : Dev) (b : Blk) (h : neverFenced b = true ∨ d.fence b ≠ 0) :
    blockFence m d b 2 = (m, d) := by
  unfold blockFence
  rcases h with h | h
  · exact if_pos h
  · have hfenced : d.fenced b = true := by simp [Dev.fenced, h]
    simp [hfenced]

theorem neverFenced_iff (b : Blk) : neverFenced b = true ↔ blkKind b = none ∨ b ∈ [hif, optab, creelB, fltc, bootB, aon] := by
  constructor
  · intro h
    cases hb : blkKind b with
    | none => exact .inl rfl
    | some x =>
      obtain ⟨t, n⟩ := x
      obtain rfl := blk_of_kind hb
      simp only [neverFenced, hb] at h
      cases t with
      | hif | optab | creel | fltc | boot | aon => exact .inr (by simp [hif, optab, creelB, fltc, bootB, aon, blk])
      | _ => simp at h
  · rintro (h | h)
    · simp [neverFenced, h]
    · simp only [List.mem_cons, List.not_mem_nil, or_false] at h
      rcases h with rfl | rfl | rfl | rfl | rfl | rfl <;> decide

/-! The end of a fence (R44, R421). -/

/-- FLTC_RFENCE is all that follows the fences of a region. -/
theorem Dev.rfenceShow_spec (d : Dev) : d.rfenceShow = { d with regs := d.rfenceShow.regs } ∧
    d.regsKept d.rfenceShow fun a => a = radr fltc R.FLTC_RFENCE := by
  unfold Dev.rfenceShow
  generalize regions = l
  induction l generalizing d with
  | nil => exact ⟨rfl, d.regsKept_refl _⟩
  | cons r t ih =>
    rw [List.foldl_cons]
    split
    · exact ih d
    · obtain ⟨hframe, hkept⟩ := ih (d.putB fltc R.FLTC_RFENCE r.val false)
      have hput : d.regsKept (d.putB fltc R.FLTC_RFENCE r.val false) fun a => a = radr fltc R.FLTC_RFENCE :=
        d.regsKept_put fltc R.FLTC_RFENCE _ 0 0 rfl
      exact ⟨by rw [hframe]; rfl, hput.trans hkept⟩

/-- A block that holds nothing beside its registers starts again from their reset values, with EN 0. -/
theorem Dev.blockRenew_registers (d : Dev) {b : Blk} {t : BT} {n : Nat} (hb : blkKind b = some (t, n))
    (ht : t = .march ∨ t = .csirx) : d.blockRenew b =
      { (d.regsReset b fun o => headerKept (d.opEnded b) o || (0x100 ≤ o && ownKept t o)).putB b R.BLK_CTL 0 false with
        claims := d.claims.filter fun c => c.by_ ≠ b } := by
  rcases ht with rfl | rfl <;> simp only [Dev.blockRenew, hb, Dev.stateRenew] <;> rfl

/-- A fence set before this cycle is cleared by a write: the block starts again from its soft-reset state. -/
theorem Dev.unfence_registers (d : Dev) {b : Blk} {t : BT} {n : Nat} (hb : blkKind b = some (t, n)) (ht : t = .march ∨ t = .csirx)
    (hf : d.fence b = 1 ∨ d.fence b = 2) (hr : (b, 1) ∉ d.flt.fences) (hreset : d.inReset b = false) :
    d.unfence b = (((d.putF b R.BLK_CTL 5 4 0).blockRenew b).setActive b false).rfenceShow := by
  have hin : (d.putF b R.BLK_CTL 5 4 0).inReset b = false := by
    rw [Dev.inReset, Dev.getB_putF_other _ _ _ _ _ _ (by decide) (by decide)]
    exact hreset
  have hen : ((d.putF b R.BLK_CTL 5 4 0).blockRenew b).getB b R.BLK_CTL 0 = false := by
    rw [Dev.blockRenew_registers _ hb ht]
    exact Dev.getB_putB_same _ b _ 0 0 false (by decide)
  simp only [Dev.unfence, hf, hr, hin, hen, not_false_eq_true, and_self, if_true, if_false, Bool.false_eq_true]

theorem onPage_radr (b : Blk) {r : Reg} (i j : Nat) (h : r.ofs i j < 0x1000) : onPage b (radr b r i j) := by
  constructor <;> unfold radr badr <;> omega

/-- What the registers of a block hold after its fence is cleared. -/
theorem Dev.unfenced_registers (d : Dev) {b : Blk} {t : BT} {n : Nat} (hb : blkKind b = some (t, n)) (ht : t = .march ∨ t = .csirx) :
    let e := (((d.putF b R.BLK_CTL 5 4 0).blockRenew b).setActive b false).rfenceShow
    e = { d with
      regs := e.regs, live := e.live, prior := e.prior, snap := e.snap, claims := d.claims.filter fun c => c.by_ ≠ b } ∧
    e.fence b = 0 ∧ e.getB b R.BLK_CTL 0 = false ∧ e.getB b R.BLK_STAT 1 = false ∧ (∀ x ∈ e.prior, x ∈ d.prior) ∧
    d.regsKept e fun a => onPage b a ∨ a = radr fltc R.FLTC_RFENCE := by
  have hne : b ≠ fltc := by
    rintro rfl
    rcases ht with rfl | rfl <;> cases hb
  obtain ⟨hframe, hkept⟩ := Dev.rfenceShow_spec (((d.putF b R.BLK_CTL 5 4 0).blockRenew b).setActive b false)
  rw [Dev.blockRenew_registers _ hb ht] at hframe hkept ⊢
  set keep := fun o => headerKept ((d.putF b R.BLK_CTL 5 4 0).opEnded b) o || (0x100 ≤ o && ownKept t o) with hkeep
  have hctl : ((d.putF b R.BLK_CTL 5 4 0).regsReset b keep).get b R.BLK_CTL = setFld (d.get b R.BLK_CTL) 5 4 0 := by
    rw [Dev.regsReset_get _ b keep 0 0 rfl, Dev.get_putF_same]
  have hget := hkept.get b R.BLK_CTL 0 0 (radr_ne_of_blk fltc b _ _ 0 0 0 0 hne (by decide) (by decide))
  rw [Dev.setActive_blkCtl] at hget
  change _ = (((d.putF b R.BLK_CTL 5 4 0).regsReset b keep).putB b R.BLK_CTL 0 false).get b R.BLK_CTL at hget
  rw [Dev.get_putB_same, hctl] at hget
  refine ⟨by rw [hframe]; rfl, ?fence, ?en, ?active, fun x hx => ?_, ?kept⟩
  case fence =>
    rw [Dev.fence, Dev.getF, hget, fld_setFld_ne _ _ _ _ _ _ (by decide) (.inr (by decide)), fld_setFld_same _ _ _ _ (by decide) (by decide)]
    rfl
  case en => rw [Dev.getB, hget, bit_setBit_same _ _ _ (by decide)]
  case active =>
    have hstat := hkept.get b R.BLK_STAT 0 0 (radr_ne_of_blk fltc b _ _ 0 0 0 0 hne (by decide) (by decide))
    rw [Dev.getB, hstat]
    exact Dev.setActive_same _ b false
  case kept =>
    have h1 : d.regsKept (d.putF b R.BLK_CTL 5 4 0) fun a => onPage b a ∨ a = radr fltc R.FLTC_RFENCE :=
      d.regsKept_put b R.BLK_CTL _ 0 0 (.inl (onPage_radr b 0 0 (by decide)))
    have h2 : (d.putF b R.BLK_CTL 5 4 0).regsKept ((d.putF b R.BLK_CTL 5 4 0).regsReset b keep) fun a =>
        onPage b a ∨ a = radr fltc R.FLTC_RFENCE := (Dev.regsReset_kept _ b keep).mono fun _ => .inl
    have h3 : d.regsKept (((d.putF b R.BLK_CTL 5 4 0).regsReset b keep).putB b R.BLK_CTL 0 false) fun a =>
        onPage b a ∨ a = radr fltc R.FLTC_RFENCE :=
      (h1.trans h2).put b R.BLK_CTL _ 0 0 (.inl (onPage_radr b 0 0 (by decide)))
    have h4 := h3.trans (Dev.setActive_kept _ b false (.inl (onPage_radr b 0 0 (by decide))))
    exact h4.trans (hkept.mono fun _ => .inr)
  · rw [congrArg Dev.prior hframe] at hx
    exact Dev.regsReset_prior _ b keep hx

theorem Dev.unfence_none (d : Dev) (b : Blk) (h : d.fence b = 0 ∨ d.fence b = 3 ∨ (b, 1) ∈ d.flt.fences) : d.unfence b = d := by
  refine if_neg ?_
  rintro ⟨hf, hr⟩
  rcases h with h | h | h
  · omega
  · omega
  · exact hr h

/-- Settles O16: the fence by `blockFence_alone`, its end by `unfence_registers`. -/
theorem hostFencesAndClears : Obligations.HostFencesAndClears := by
  refine ⟨fun s b t n ht hb hal hn hf hop hd hin hr => ?_, fun s b ht h => ?_, neverFenced_iff,
    fun s b n ht hb hf hr hreset => ?_, fun s b ht h => ?_⟩
  · refine ⟨s.dev.fenceSet b 2, ?_, rfl, ?_, Dev.setActive_same _ _ _, ?_⟩
    · rw [exec_hostFence s b ht, blockFence_alone s.mem 2 hb hal hn hf ht.2 hop hd hin hr]
    · change ((s.dev.putF b R.BLK_CTL 5 4 2).setActive b false).fence b = 2
      rw [Dev.fence, Dev.getF, Dev.setActive_blkCtl]
      exact s.dev.getF_putF_same b R.BLK_CTL 0 0 2 (by decide) (by decide)
    · exact (s.dev.regsKept_put b R.BLK_CTL _ 0 0 (.inl rfl)).trans (Dev.setActive_kept _ b false (.inr rfl))
  · rw [exec_hostFence s b ht, blockFence_host_none s.mem s.dev b h]
  · obtain ⟨t, hk, hmc⟩ : ∃ t, blkKind b = some (t, n) ∧ (t = .march ∨ t = .csirx) := by
      rcases hb with h | h
      · exact ⟨_, h, .inl rfl⟩
      · exact ⟨_, h, .inr rfl⟩
    rw [exec_fenceClear s b ht, s.dev.unfence_registers hk hmc hf hr hreset]
    exact ⟨_, rfl, s.dev.unfenced_registers hk hmc⟩
  · rw [exec_fenceClear s b ht, s.dev.unfence_none b h]

end Sys2Proof.Machine
end

section
/-! SUPPORT. A record of a table under changes, heads, fault kinds without a critical line, state words (R48). -/

namespace Sys2Proof.Machine

/-! Tables with one record per unit. -/

section
variable {α : Type} {n : Nat} (v : Vector α n) (i j : Fin n) (f : α → α) (x : α)

@[simp] theorem vset_same : (v.set i x)[i] = x := Vector.getElem_set_self i.isLt

variable {i j} in
theorem vset_ne (h : j ≠ i) : (v.set i x)[j] = v[j] :=
  Vector.getElem_set_ne i.isLt j.isLt fun he => h (Fin.ext he.symm)

@[simp] theorem vmod_same : (vmod v i f)[i] = f v[i] := vset_same v i _

variable {i j} in
theorem vmod_ne (h : j ≠ i) : (vmod v i f)[j] = v[j] := vset_ne v _ h

end

/-! Heads. -/

@[simp] theorem blkKind_headB (h : Fin 32) : blkKind (headB h) = some (.headctl, h.val) := by
  revert h; decide

@[simp] theorem fin_ofNat_val {n : Nat} [NeZero n] (i : Fin n) : Fin.ofNat n i.val = i := Fin.ext (Nat.mod_eq_of_lt i.isLt)

/-! Bits. -/

theorem bit_and_pow (w : Word) {k : Nat} (hk : k < 32) : w &&& wd (2 ^ k) ≠ 0 ↔ bit w k = true := by
  have hb : ∀ i, (wd (2 ^ k)).getLsbD i = (decide (i < 32) && decide (k = i)) := fun i => by
    rw [wd, BitVec.getLsbD_ofNat, Nat.testBit_two_pow]
  rw [← not_iff_not, not_not, bit, Bool.not_eq_true]
  constructor
  · intro h
    have hat := congrArg (fun x => BitVec.getLsbD x k) h
    rw [BitVec.getLsbD_and, hb] at hat
    simpa [hk] using hat
  · intro h
    refine BitVec.eq_of_getLsbD_eq fun i hi => ?_
    by_cases hki : k = i
    · subst hki; simp [h]
    · simp [hb, hki]

/-! Faults (R411, R424). -/

/-- A detected kind that drives no critical line and is not masked. -/
theorem Dev.detect_open (d : Dev) {b : Blk} {t : BT} {n : Nat} (c : Option Nat) {kind : Nat} (addr : Nat) (trans inj alsof : Bool)
    (hb : blkKind b = some (t, n)) (hk : kind < 32) (hc : bit t.crit kind = false) (hm : d.getB b R.FLT_MASK kind = false) :
    d.detect b c kind addr trans inj alsof = (d.put b R.FLT_STAT (d.get b R.FLT_STAT ||| wd (2 ^ kind))).post .flt b fltc none c
      (.fault (faultMsg b c kind addr inj (d.shadowed b c) trans alsof d.tick)) 0 0 := by
  have hcrit : ¬ (t.crit &&& wd (2 ^ kind) ≠ 0) := by rw [bit_and_pow _ hk, hc]; exact Bool.false_ne_true
  have hmask : ¬ (d.get b R.FLT_MASK &&& wd (2 ^ kind) ≠ 0) := by
    rw [bit_and_pow _ hk, show bit (d.get b R.FLT_MASK) kind = false from hm]; exact Bool.false_ne_true
  simp only [Dev.detect, hb, hk, hcrit, hmask, decide_true, decide_false, Bool.and_false, Bool.false_and, Bool.and_true,
    if_true, if_false, Bool.false_eq_true, Bool.not_false]

/-! The map that a head waits for (R127). -/

section
variable (d : Dev) (h g : Fin 32)

theorem Dev.fmapShow_frame : d.fmapShow h = { d with regs := (d.fmapShow h).regs } := rfl

theorem Dev.fmapShow_kept : d.regsKept (d.fmapShow h) fun a => a = radr (headB h) R.TRV_STAT ∨ a = radr (headB h) R.TRV_FMAP_CRC := by
  unfold Dev.fmapShow Dev.putB Dev.putF
  exact ((((d.regsKept_refl _).put _ _ _ _ _ (.inl rfl)).put _ _ _ _ _ (.inl rfl)).put _ _ _ _ _ (.inl rfl)).put _ _ _ _ _ (.inr rfl)

theorem Dev.fmapShow_valid : (d.fmapShow h).getB (headB h) R.TRV_STAT 0 = d.heads[h].trv.live.isSome := by
  have hne : radr (headB h) R.TRV_STAT ≠ radr (headB h) R.TRV_FMAP_CRC := radr_ne_of_ofs _ _ _ _ _ _ _ (by decide)
  simp only [Dev.fmapShow]
  rw [Dev.getB_put_ne _ _ _ hne, Dev.getB_putB_other _ _ _ _ _ _ (by decide) (by decide),
    Dev.getB_putB_other _ _ _ _ _ _ (by decide) (by decide), Dev.getB_putB_same _ _ _ _ _ _ (by decide)]

theorem Dev.fmapShow_pend : (d.fmapShow h).getB (headB h) R.TRV_STAT 2 = d.heads[h].trv.pend.isSome := by
  have hne : radr (headB h) R.TRV_STAT ≠ radr (headB h) R.TRV_FMAP_CRC := radr_ne_of_ofs _ _ _ _ _ _ _ (by decide)
  simp only [Dev.fmapShow]
  rw [Dev.getB_put_ne _ _ _ hne, Dev.getB_putB_same _ _ _ _ _ _ (by decide)]

theorem Dev.fmapNone_heads : (d.fmapNone h).heads = vmod d.heads h fun x => { x with trv := { x.trv with pend := none } } := rfl

theorem Dev.fmapNone_pend : (d.fmapNone h).heads[h].trv.pend = none := by rw [Dev.fmapNone_heads, vmod_same]

theorem Dev.fmapNone_other (hg : g ≠ h) : (d.fmapNone h).heads[g] = d.heads[g] := by rw [Dev.fmapNone_heads, vmod_ne _ _ hg]

theorem Dev.fmapNone_kept : d.regsKept (d.fmapNone h) fun a => a = radr (headB h) R.TRV_STAT ∨ a = radr (headB h) R.TRV_FMAP_CRC :=
  Dev.fmapShow_kept (d.trvMod h fun t => { t with pend := none }) h

theorem Dev.fmapNone_stat : (d.fmapNone h).getB (headB h) R.TRV_STAT 2 = false := by
  rw [Dev.fmapNone, Dev.fmapShow_pend]
  change (vmod d.heads h fun x => { x with trv := { x.trv with pend := none } })[h].trv.pend.isSome = false
  rw [vmod_same]
  rfl

end

/-! Operations that end before they ran. -/

section
variable (d : Dev) (b : Blk)

@[simp] theorem Dev.opSet_word (st err : Nat) :
    (d.opSet b st err).get b R.OP_STAT = opWord st (d.getF b R.OP_STAT 27 16) err (d.opTag b) := Dev.get_put_same _ _ _ _ _ _

theorem Dev.opSet_kept (st err : Nat) {p : Nat → Prop} (hp : p (radr b R.OP_STAT)) : d.regsKept (d.opSet b st err) p :=
  d.regsKept_put b R.OP_STAT _ 0 0 hp

theorem Dev.opUnborn_frame : d.opUnborn b = { d with regs := (d.opUnborn b).regs, heads := (d.opUnborn b).heads } := by
  unfold Dev.opUnborn
  split <;> rfl

variable {b} in
theorem Dev.opUnborn_none (h : ∀ k, blkKind b ≠ some (.headctl, k)) : d.opUnborn b = d := by
  unfold Dev.opUnborn
  split
  · rename_i k hk; exact absurd hk (h k)
  · rfl

theorem Dev.opUnborn_head (h : Fin 32) : d.opUnborn (headB h) = d.fmapNone h := by
  simp only [Dev.opUnborn, blkKind_headB, fin_ofNat_val]

theorem Dev.opUnborn_word : (d.opUnborn b).get b R.OP_STAT = d.get b R.OP_STAT := by
  by_cases hb : ∃ k, blkKind b = some (.headctl, k)
  · obtain ⟨k, hk⟩ := hb
    simp only [Dev.opUnborn, hk]
    refine (d.fmapNone_kept _).get b R.OP_STAT 0 0 ?_
    rintro (h | h)
    · exact radr_ne_of_page (headB (Fin.ofNat 32 k)) b R.TRV_STAT R.OP_STAT 0 0 0 0 (by decide) h
    · exact radr_ne_of_page (headB (Fin.ofNat 32 k)) b R.TRV_FMAP_CRC R.OP_STAT 0 0 0 0 (by decide) h
  · rw [d.opUnborn_none fun k hk => hb ⟨k, hk⟩]

end

end Sys2Proof.Machine
end

section
/-! Dispatch, abort and the full table (R50, R51, R56). -/

namespace Sys2Proof.Machine

/-! What the service state and the state words read when only the table of operations changes. -/

theorem Dev.opEnter_small (d : Dev) (o : OpRec) (n : Nat) (h : d.ops.length < 256) : d.opEnter o n =
    { d with ops := d.ops.map fun x => if x.blk = o.blk then { x with entry := some n } else x } := by
  have hle : (({ d with ops := d.ops.map fun x => if x.blk = o.blk then { x with entry := some n } else x } : Dev)).opsIn < 256 :=
    lt_of_le_of_lt (List.length_filter_le _ _) (by simpa using h)
  exact if_neg (Nat.ne_of_lt hle)

theorem exec_opDispatch (s : State) {n : Nat} {o : OpRec} (hl : s.dev.dead = false) (hn : s.dev.freeEntry = some n)
    (ho : (s.dev.ops.find? fun o => o.entry.isNone) = some o) (ht : s.dev.opTakes o = true) (hq : s.dev.opState o.blk = 1)
    (hp : ∀ m, s.dev.patNext m = false) : exec .opDispatch s =
      let d1 := s.dev.opEnter o n
      let x := if s.dev.fenced o.blk then (s.mem, (d1.opFail o.blk 3).opUnborn o.blk) else opBegin s.mem (d1.opSet o.blk 2 0) o
      .next { s with mem := x.1, dev := x.2 } := by
  change execOpDispatch s = _
  unfold execOpDispatch
  rw [onLiveMem_next _ _ hl]
  have hno : ((List.finRange 40).any fun n => s.dev.patNext n && s.dev.outranked n s.pending 14) = false :=
    List.any_eq_false.mpr fun m _ => by simp [hp m]
  simp only [hno, opDispatch, hn, ho, ht, hq, if_false, not_true_eq_false, ne_eq, Bool.false_eq_true]

/-- The operations whose start changes nothing else. -/
theorem opBegin_plain (m : Mem) (d : Dev) (o : OpRec)
    (h : (∃ k, blkKind o.blk = some (.mpv, k)) ∨ (o.blk = jrnl ∧ o.code = 2 ∧ d.jrn.found = true)) : opBegin m d o = (m, d) := by
  rcases h with ⟨k, hk⟩ | ⟨hb, hc, hf⟩
  · simp only [opBegin, hk]
  · have hk : blkKind o.blk = some (.jrnl, 0) := by rw [hb]; decide
    simp [opBegin, hk, hc, hf]

theorem exec_opAbort (s : State) (b : Blk) (h : s.dev.takes b 0x020) : exec (.opAbort b) s =
    .next { s with mem := (opAbortWrite s.mem s.dev b).1, dev := (opAbortWrite s.mem s.dev b).2 } := by
  change execOpAbort b s = _
  unfold execOpAbort
  rw [onLiveMem_next _ _ (s.dev.takes_live _ _ h), hostWriteMem_takes _ _ _ _ _ h]

theorem opAbortWrite_queued (m : Mem) (d : Dev) (b : Blk) (h : d.opState b = 1) :
    opAbortWrite m d b = (m, (d.opSet b 5 2).opUnborn b) := by
  have hkill : d.opKill b 2 = d.opSet b 5 2 := if_pos (.inl h)
  simp [opAbortWrite, opStop, h, hkill]

theorem exec_tableFull (s : State) {t : Nat} (hl : s.dev.dead = false) (hf : s.dev.fullAt = some t) (hs : s.dev.fullSaid = false)
    (hp : s.dev.past t 100000 = true) : exec .tableFull s = .next { s with
      dev := ({ s.dev with fullSaid := true } : Dev).raise optab none 0 (min 65535 s.dev.opsOut) } := by
  change execTableFull s = _
  unfold execTableFull
  rw [onLive_next _ _ hl]
  simp only [hf, hs, hp, Dev.when, Bool.not_false, Bool.and_true, if_true]

/-- Settles O18: dispatch by `exec_opDispatch`, an abort by the state of the operation, the full table by `detect_open`. -/
theorem operationsQueueRunAndAbort : Obligations.OperationsQueueRunAndAbort := by
  refine ⟨⟨fun s n o hl hn ho ht hq hp hlen => ?dispatch, fun s b ht hq => ?queued, fun s b ht hr => ?running, fun s b ht hi => ?idle⟩,
    fun s t hl hf hsaid hpast hm => ?full⟩
  case dispatch =>
    have hexec := exec_opDispatch s hl hn ho ht hq hp
    rw [s.dev.opEnter_small o n hlen] at hexec
    set d1 : Dev := { s.dev with ops := s.dev.ops.map fun x => if x.blk = o.blk then { x with entry := some n } else x } with hd1
    by_cases hfen : s.dev.fenced o.blk = true
    · refine ⟨(d1.opSet o.blk 4 3).opUnborn o.blk, fun _ => ⟨?_, ?_⟩, fun h => ?_, fun _ hnh => ?_⟩
      · rw [hexec]; simp only [hfen, if_true]; rfl
      · rw [Dev.opUnborn_word, Dev.opSet_word]; rfl
      · rw [hfen] at h; cases h
      · rw [Dev.opUnborn_none _ hnh]
        exact ⟨rfl, Dev.opSet_kept d1 o.blk 4 3 rfl⟩
    · refine ⟨d1.opSet o.blk 2 0, fun h => absurd h hfen, fun _ hplain => ⟨?_, Dev.opSet_word d1 o.blk 2 0⟩, fun _ _ =>
        ⟨rfl, Dev.opSet_kept d1 o.blk 2 0 rfl⟩⟩
      rw [hexec]
      simp only [hfen]
      rw [opBegin_plain s.mem (d1.opSet o.blk 2 0) o hplain]
      rfl
  case queued =>
    refine ⟨(s.dev.opSet b 5 2).opUnborn b, ?_, Dev.opUnborn_frame _ _, ?_, fun hnh => ?_, fun h hb => ?_⟩
    · rw [exec_opAbort s b ht, opAbortWrite_queued _ _ _ hq]
    · rw [Dev.opUnborn_word, Dev.opSet_word]
    · rw [Dev.opUnborn_none _ hnh]
      exact ⟨rfl, Dev.opSet_kept s.dev b 5 2 rfl⟩
    · subst hb
      rw [Dev.opUnborn_head]
      exact ⟨Dev.fmapNone_pend _ h, Dev.fmapNone_stat _ h, fun g hg => Dev.fmapNone_other _ h g hg⟩
  case running => rw [exec_opAbort s b ht]; simp [opAbortWrite, hr]
  case idle =>
    have hi' : s.dev.opState b ≠ 1 ∧ s.dev.opState b ≠ 2 := by simpa [Dev.opBusy] using hi
    rw [exec_opAbort s b ht]
    simp [opAbortWrite, hi'.1, hi'.2]
  case full =>
    refine ⟨_, by
      rw [exec_tableFull s hl hf hsaid hpast, Dev.raise,
        Dev.detect_open ({ s.dev with fullSaid := true } : Dev) none _ _ _ _ (show blkKind optab = some (.optab, 0) by decide)
          (by decide) (by decide) hm], rfl, ?_, ?_⟩
    · exact Dev.get_put_same ({ s.dev with fullSaid := true } : Dev) optab R.FLT_STAT _ 0 0
    · exact Dev.regsKept_put ({ s.dev with fullSaid := true } : Dev) optab R.FLT_STAT _ 0 0 rfl

end Sys2Proof.Machine
end

section
/-! Pending vectors that open, and messages the gap held back (R58). -/

namespace Sys2Proof.Machine

/-- A fold in which one step of the list acts, once. -/
theorem foldl_single {α β : Type} (f : β → α → β) {l : List α} {v : α} (d : β) (hn : l.Nodup) (hv : v ∈ l)
    (h : ∀ i ∈ l, i ≠ v → f d i = d) (h' : ∀ i ∈ l, i ≠ v → f (f d v) i = f d v) : l.foldl f d = f d v := by
  have hfix : ∀ (t : List α) (e : β), (∀ i ∈ t, f e i = e) → t.foldl f e = e := by
    intro t e ht
    induction t with
    | nil => rfl
    | cons x t ih => rw [List.foldl_cons, ht x List.mem_cons_self, ih fun i hi => ht i (List.mem_cons_of_mem x hi)]
  obtain ⟨a, c, rfl⟩ := List.append_of_mem hv
  have hna : v ∉ a := fun hm => (List.nodup_append.mp hn).2.2 v hm v List.mem_cons_self rfl
  have hnc : v ∉ c := (List.nodup_cons.mp (List.nodup_append.mp hn).2.1).1
  rw [List.foldl_append, hfix a d fun i hi => h i (List.mem_append_left _ hi) fun he => hna (he ▸ hi), List.foldl_cons,
    hfix c _ fun i hi => h' i (List.mem_append_right _ (List.mem_cons_of_mem v hi)) fun he => hnc (he ▸ hi)]

/-- A vector enabled in HIF_EVT_EN, or unmasked in the MSI-X table. -/
def Dev.vEnabled (d : Dev) (v : Fin 64) (viaMask : Bool) : Dev :=
  if viaMask then d.putB hif R.MSIX_CTL 0 false v.val else d.putB hif R.HIF_EVT_EN (v.val % 32) true (v.val / 32)

section
variable (d : Dev) (v : Fin 64) (m : Bool)

theorem Dev.vEnabled_frame : d.vEnabled v m = { d with regs := (d.vEnabled v m).regs } := by unfold Dev.vEnabled; split <;> rfl

theorem Dev.vEnabled_kept : d.regsKept (d.vEnabled v m) fun a =>
    a = radr hif (if m then R.MSIX_CTL else R.HIF_EVT_EN) (if m then v.val else v.val / 32) := by
  cases m
  · exact d.regsKept_put hif R.HIF_EVT_EN _ _ 0 rfl
  · exact d.regsKept_put hif R.MSIX_CTL _ _ 0 rfl

theorem Dev.vEnabled_pend (u : Nat) (hu : u < 64) : (d.vEnabled v m).vPend u = d.vPend u := by
  have hv := v.isLt
  unfold Dev.vPend Dev.getB
  rw [(d.vEnabled_kept v m).get hif R.HIF_EVT_PEND (u / 32) 0]
  cases m <;> exact fun h => radr_ne_of_ofs hif _ _ _ _ _ _ (by simp [Reg.ofs, R.HIF_EVT_PEND, R.HIF_EVT_EN, R.MSIX_CTL]; omega) h

/-- The other vectors are as open as before. -/
theorem Dev.vEnabled_open_other (u : Nat) (hu : u < 64) (hne : u ≠ v.val) : (d.vEnabled v m).vOpen u = d.vOpen u := by
  have hv := v.isLt
  unfold Dev.vOpen
  cases m with
  | true =>
    have hen : radr hif R.HIF_EVT_EN (u / 32) ≠ radr hif R.MSIX_CTL v.val :=
      radr_ne_of_ofs hif _ _ _ _ _ _ (by simp [Reg.ofs, R.HIF_EVT_EN, R.MSIX_CTL]; omega)
    have hctl : radr hif R.MSIX_CTL u ≠ radr hif R.MSIX_CTL v.val :=
      radr_ne_of_ofs hif _ _ _ _ _ _ (by simp [Reg.ofs, R.MSIX_CTL]; omega)
    rw [show d.vEnabled v true = d.putB hif R.MSIX_CTL 0 false v.val from rfl, Dev.getB_putB_ne _ _ _ _ hen,
      Dev.getB_putB_ne _ _ _ _ hctl]
  | false =>
    have hctl : radr hif R.MSIX_CTL u ≠ radr hif R.HIF_EVT_EN (v.val / 32) :=
      radr_ne_of_ofs hif _ _ _ _ _ _ (by simp [Reg.ofs, R.HIF_EVT_EN, R.MSIX_CTL]; omega)
    rw [show d.vEnabled v false = d.putB hif R.HIF_EVT_EN (v.val % 32) true (v.val / 32) from rfl, Dev.getB_putB_ne _ _ _ _ hctl]
    by_cases hq : u / 32 = v.val / 32
    · rw [hq, Dev.getB_putB_other _ _ _ _ _ _ (by omega) (by omega)]
    · rw [Dev.getB_putB_ne]
      exact radr_ne_of_ofs hif _ _ _ _ _ _ (by simp [Reg.ofs, R.HIF_EVT_EN]; omega)

/-- The vector is open where the other of its two conditions held. -/
theorem Dev.vEnabled_open (h : if m then d.getB hif R.HIF_EVT_EN (v.val % 32) (v.val / 32) = true ∧ d.getB hif R.MSIX_CTL 0 v.val = true
    else d.getB hif R.HIF_EVT_EN (v.val % 32) (v.val / 32) = false ∧ d.getB hif R.MSIX_CTL 0 v.val = false) :
    (d.vEnabled v m).vOpen v.val = true ∧ d.vOpen v.val = false := by
  have hv := v.isLt
  have hne : radr hif R.HIF_EVT_EN (v.val / 32) ≠ radr hif R.MSIX_CTL v.val :=
    radr_ne_of_ofs hif _ _ _ _ _ _ (by simp [Reg.ofs, R.HIF_EVT_EN, R.MSIX_CTL]; omega)
  unfold Dev.vOpen
  cases m with
  | true =>
    rw [if_pos rfl] at h
    rw [show d.vEnabled v true = d.putB hif R.MSIX_CTL 0 false v.val from rfl, Dev.getB_putB_ne _ _ _ _ hne,
      Dev.getB_putB_same _ _ _ _ _ _ (by decide), h.1, h.2]
    exact ⟨rfl, rfl⟩
  | false =>
    rw [if_neg (by decide)] at h
    rw [show d.vEnabled v false = d.putB hif R.HIF_EVT_EN (v.val % 32) true (v.val / 32) from rfl,
      Dev.getB_putB_same _ _ _ _ _ _ (by omega), Dev.getB_putB_ne _ _ _ _ hne.symm, h.1, h.2]
    exact ⟨rfl, rfl⟩

/-- Sending a message, once the gap has passed. -/
theorem Dev.vSend_now (h : d.vGapOver v = true) : d.vSend v.val = { d with
    vecs := d.vecs.set v ⟨false, some d.now, d.vecs[v].sent + 1, d.vecs[v].evAt⟩ } := by
  simp only [Dev.vSend, fin_ofNat_val, h, if_true, vmod]

/-- A vector that opens while its bit is pending sends, and no other. -/
theorem Dev.vOpened_one (e : Dev) (hp : e.vPend v.val = true) (ho : e.vOpen v.val = true) (hw : d.vOpen v.val = false)
    (hx : ∀ u < 64, u ≠ v.val → e.vOpen u = d.vOpen u) : e.vOpened d = e.vSend v.val := by
  have hact : (if e.vOpen v.val && !d.vOpen v.val && e.vPend v.val then e.vSend v.val else e) = e.vSend v.val := by simp [hp, ho, hw]
  have hopen : ∀ u, (e.vSend v.val).vOpen u = e.vOpen u := fun u => by rw [Dev.vSend_frame]; rfl
  unfold Dev.vOpened
  rw [foldl_single _ e List.nodup_range (List.mem_range.mpr v.isLt) (fun u hu hne => ?_) (fun u hu hne => ?_), hact]
  · simp [hx u (List.mem_range.mp hu) hne]
  · simp only [hact, hopen, hx u (List.mem_range.mp hu) hne]
    simp

end

theorem exec_evtEnable (s : State) (v : Fin 64) (m : Bool)
    (h : s.dev.takes hif (if m then 0x80C + 16 * v.val else 0x128 + 4 * (v.val / 32))) :
    exec (.evtEnable v m) s = .next { s with dev := (s.dev.vEnabled v m).vOpened s.dev } := by
  change execEvtEnable v m s = _
  have hofs : (if m then R.MSIX_CTL else R.HIF_EVT_EN).ofs (if m then v.val else v.val / 32) 0 =
      if m then 0x80C + 16 * v.val else 0x128 + 4 * (v.val / 32) := by cases m <;> simp [Reg.ofs, R.MSIX_CTL, R.HIF_EVT_EN]
  unfold execEvtEnable
  rw [onLive_next _ _ (s.dev.takes_live _ _ h)]
  simp only [hofs, s.dev.hostWrite_takes _ _ _ h]
  cases m <;> rfl

theorem exec_evtGapEnd (s : State) (v : Fin 64) (hl : s.dev.dead = false) (hh : s.dev.vecs[v].held = true)
    (hg : s.dev.vGapOver v = true) (ho : s.dev.vOpen v.val = true) :
    exec (.evtGapEnd v) s = .next { s with dev := s.dev.vSend v.val } := by
  change execEvtGapEnd v s = _
  unfold execEvtGapEnd
  rw [onLive_next _ _ hl, Dev.when_of _ _ (by simp only [hh, hg, ho, Bool.and_true])]

/-- Settles O19: the vector that opens is the only one that does, and its message goes out. -/
theorem pendingVectorsSendWhenOpened : Obligations.PendingVectorsSendWhenOpened := by
  refine ⟨fun s v m ht hp hg hopen => ?_, fun s v hl hh hg ho => ?_⟩
  · obtain ⟨ho, hw⟩ := s.dev.vEnabled_open v m hopen
    have hsend : (s.dev.vEnabled v m).vOpened s.dev = (s.dev.vEnabled v m).vSend v.val :=
      Dev.vOpened_one s.dev v _ (by rw [Dev.vEnabled_pend _ _ _ _ v.isLt, hp]) ho hw fun u hu hne => Dev.vEnabled_open_other _ _ _ u hu hne
    have hgap : (s.dev.vEnabled v m).vGapOver v = true := by
      have hkept := (s.dev.vEnabled_kept v m).get hif R.HIF_EVT_GAP 0 0
        (fun h => by
          have hv := v.isLt
          cases m <;> exact radr_ne_of_ofs hif _ _ _ _ _ _ (by simp [Reg.ofs, R.HIF_EVT_GAP, R.HIF_EVT_EN, R.MSIX_CTL]; omega) h)
      have hgv : (s.dev.vEnabled v m).vGapOver v = s.dev.vGapOver v := by
        unfold Dev.vGapOver Dev.getF
        rw [hkept, Dev.vEnabled_frame]
        rfl
      rw [hgv, hg]
    have hdev := Dev.vSend_now (s.dev.vEnabled v m) v hgap
    refine ⟨(s.dev.vEnabled v m).vSend v.val, by rw [exec_evtEnable s v m ht, hsend], ?_, ?_, ?_, ?_⟩
    · rw [hdev]; cases m <;> rfl
    · rw [hdev]; exact ho
    · rw [hdev]; exact (Dev.vEnabled_pend _ _ _ _ v.isLt).trans hp
    · rw [hdev]; exact s.dev.vEnabled_kept v m
  · rw [exec_evtGapEnd s v hl hh hg ho, Dev.vSend_now _ _ hg]

end Sys2Proof.Machine
end

section
/-! A LONGOP descriptor where the table of operations is full (R81, R83). -/

namespace Sys2Proof.Machine

/-- The descriptor of a march, without operands. -/
def marchDesc : List Word := (2#32 :: List.replicate 3 0) ++ wd (march.region.val + march.block.val * 16) :: 0x10000134#32 :: List.replicate 10 0

/-- Ring 0 holds `marchDesc`; the march is idle, yet every entry of the table names it. -/
def fullOfMarch : State := { State.reset with
  mem := State.reset.mem.write 0 (wordsBytes marchDesc)
  dev := { ((((({ Dev.init with boot := { Boot.init with porst := true, perst := true, fuseOk := true } } : Dev).put bootB R.BOOT_STAT
    0x17#32).putF bootB R.BOOT_FILL 2 0 1).put creelB R.CREEL_RCTL 0x701#32 0).put creelB R.CREEL_RTAIL 1#32 0) with
      ops := (List.range 256).map fun n => ⟨march, 1, 0, some n, none, none⟩ } }

theorem fullOfMarch_serves : fullOfMarch.dev.ringServes fullOfMarch.mem 0 marchDesc := by
  unfold Dev.ringServes Dev.sdramUp
  decide +kernel

/-- The word that says DONE, with STATUS and ENTRY. -/
def doneWord : Host.Outcome State Fault Refusal → Word
  | .next t => t.mem.word 0x38
  | _ => 0

/-- ENTRY names the entry that stands for the block before the operation just queued. -/
theorem fullOfMarch_entry : doneWord (exec (.longop 0) fullOfMarch) = 0x80000000#32 := by decide +kernel

/-- Refutes O20: in `fullOfMarch` no entry is free, yet the march holds entry 0 before its start, and ENTRY reads 0 in place of
0xFF. The last clause asks that no operation stand for the block; this one does not. -/
theorem not_ringsTakeDoorbellsAndComplete : ¬ Obligations.RingsTakeDoorbellsAndComplete := by
  rintro ⟨-, hrings⟩
  obtain ⟨-, -, hlong⟩ := hrings fullOfMarch 0 marchDesc fullOfMarch_serves (by decide +kernel) (by decide +kernel)
  obtain ⟨hfull, -⟩ := hlong (by decide +kernel) march (by decide +kernel) (by decide +kernel) (by decide +kernel) (by decide +kernel)
    (by decide +kernel) (by decide +kernel) (fun k hk => by cases (show some _ = some k from hk); decide) (by decide +kernel)
  obtain ⟨t, hex, ⟨hword, -⟩, -⟩ := hfull (by decide +kernel)
  have hentry := fullOfMarch_entry
  rw [hex] at hentry
  have haddr : fullOfMarch.dev.descAddr 0 = 0 := by decide +kernel
  rw [haddr] at hword
  exact absurd (hentry.symm.trans hword) (by decide)

end Sys2Proof.Machine
end

section
/-! SUPPORT. Dwords in SDRAM after a write, and the completion of a descriptor (R81, R86). -/

namespace Sys2Proof.Machine

@[simp] theorem leBytes_length (k n : Nat) : (leBytes k n).length = k := by
  induction k generalizing n with
  | zero => rfl
  | succ k ih => simp [leBytes, ih]

theorem leNat_leBytes (k n : Nat) : leNat (leBytes k n) = n % 256 ^ k := by
  induction k generalizing n with
  | zero => simp [leBytes, leNat, Nat.mod_one]
  | succ k ih => rw [leBytes, leNat, ih, Nat.pow_succ', Nat.mod_mul]; simp

namespace Mem

variable (m : Mem) (a : Nat)

theorem bytes_congr {m m' : Mem} {a n : Nat} (h : ∀ c, a ≤ c → c < a + n → m'.byte c = m.byte c) : m'.bytes a n = m.bytes a n :=
  List.map_congr_left fun i hi => h _ (by omega) (by have := List.mem_range.mp hi; omega)

theorem bytes_write_same (bs : List Byte) : (m.write a bs).bytes a bs.length = bs := by
  refine List.ext_getElem (by simp [Mem.bytes]) fun i hi hb => ?_
  simp only [Mem.bytes, List.getElem_map, List.getElem_range]
  rw [Mem.byte_write, if_pos ⟨by omega, by omega⟩, Nat.add_sub_cancel_left, List.getD_eq_getElem?_getD, List.getElem?_eq_getElem hb]
  rfl

theorem word_write_same (n : Nat) : (m.write a (leBytes 4 n)).word a = wd n := by
  have hb := m.bytes_write_same a (leBytes 4 n)
  rw [leBytes_length] at hb
  rw [Mem.word, hb, leNat_leBytes]
  exact BitVec.eq_of_toNat_eq (by simp [wd])

variable {a} in
theorem word_write_ne {c : Nat} (bs : List Byte) (h : c + 4 ≤ a ∨ a + bs.length ≤ c) : (m.write a bs).word c = m.word c := by
  rw [Mem.word, Mem.word, Mem.bytes_congr fun k hk hk' => ?_]
  rw [Mem.byte_write, if_neg (by omega)]

end Mem

@[simp] theorem wd_toNat (w : Word) : wd w.toNat = w := BitVec.eq_of_toNat_eq (by simp [wd])

/-- A vector touches no register outside HIF. -/
theorem Dev.vector_get (d : Dev) {v : Nat} (hv : v < 64) {b : Blk} {r : Reg} (i j : Nat) (hb : b ≠ hif) (ho : r.ofs i j < 0x1000) :
    (d.vector v).get b r i j = d.get b r i j :=
  Dev.get_of_regs b r i j (d.vector_regs v _ (radr_ne_of_blk hif b _ _ _ _ _ _ hb ho (by simp [Reg.ofs, R.HIF_EVT_PEND]; omega)))

/-- What a completed descriptor leaves of its ring and its vector. -/
def Dev.descOut (d : Dev) (i : Fin 8) (ws : List Word) : Dev :=
  let d1 := (d.putF creelB R.CREEL_RHEAD 15 0 ((d.getF creelB R.CREEL_RHEAD 15 0 i.val + 1) % d.ringSize i) i.val).put creelB
    R.CREEL_RDONE (d.get creelB R.CREEL_RDONE i.val + 1) i.val
  let d2 := (d1.putF creelB R.CREEL_RSTAT 3 0 0 i.val).ringIdle i
  if bit (ws.getD 0 0) 8 then d2.vector (8 + i.val) else d2

theorem descDone_up (m : Mem) {d : Dev} {i : Fin 8} (ws : List Word) (status entry : Nat) (result : Word) (h : d.sdramUp)
    (hin : d.descAddr i + 64 ≤ d.installed) : descDone m d i ws status entry result =
      ((m.write (d.descAddr i + 0x3C) (leBytes 4 result.toNat)).write (d.descAddr i + 0x38)
        (leBytes 4 (2 ^ 31 + status * 65536 + entry)), d.descOut i ws) := by
  have hw : d.sdWrite m (d.descAddr i + 0x3C) (leBytes 4 result.toNat) = .ok (m.write (d.descAddr i + 0x3C) (leBytes 4 result.toNat)) :=
    Dev.sdWrite_up h m _ (by rw [leBytes_length]; omega)
  generalize hf : descDone = f
  delta descDone at hf
  subst hf
  simp only [hw]
  rw [Dev.sdPut_up h _ _ (by rw [leBytes_length]; omega)]
  rfl

section
variable (d : Dev) (i : Fin 8) (ws : List Word)

theorem Dev.descOut_frame : d.descOut i ws = { d with
    regs := (d.descOut i ws).regs, vecs := (d.descOut i ws).vecs, ringLast := i.val, ringFin := d.ringFin.erase i } := by
  unfold Dev.descOut
  dsimp only
  split
  · rw [Dev.vector_frame]; rfl
  · rfl

theorem Dev.descOut_pend (h : bit (ws.getD 0 0) 8 = true) : (d.descOut i ws).vPend (8 + i.val) = true := by
  simp only [Dev.descOut, h, if_true]
  exact Dev.vector_sets _ _ (by omega)

/-- A register of the creel is what the ring's own writes leave in it. -/
theorem Dev.descOut_get {r : Reg} (h : r.ofs i.val 0 < 0x1000) : (d.descOut i ws).get creelB r i.val =
    (((d.putF creelB R.CREEL_RHEAD 15 0 ((d.getF creelB R.CREEL_RHEAD 15 0 i.val + 1) % d.ringSize i) i.val).put creelB
      R.CREEL_RDONE (d.get creelB R.CREEL_RDONE i.val + 1) i.val).putF creelB R.CREEL_RSTAT 3 0 0 i.val).get creelB r i.val := by
  have hi := i.isLt
  unfold Dev.descOut
  dsimp only
  split
  · rw [Dev.vector_get _ (by omega) _ _ (by decide) h]; rfl
  · rfl

theorem Dev.descOut_head : (d.descOut i ws).getF creelB R.CREEL_RHEAD 15 0 i.val =
    (d.getF creelB R.CREEL_RHEAD 15 0 i.val + 1) % d.ringSize i % 65536 := by
  rw [Dev.getF, Dev.descOut_get _ _ _ (by simp [Reg.ofs, R.CREEL_RHEAD]; omega), Dev.get_putF_ne _ _ _ _ (radr_ne_of_ofs _ _ _ _ _ _ _ (by simp [Reg.ofs, R.CREEL_RHEAD, R.CREEL_RSTAT])),
    Dev.get_put_ne _ _ _ _ _ _ _ _ _ _ (radr_ne_of_ofs _ _ _ _ _ _ _ (by simp [Reg.ofs, R.CREEL_RHEAD, R.CREEL_RDONE]))]
  exact Dev.getF_putF_same d creelB R.CREEL_RHEAD i.val 0 _ (by decide) (by decide)

theorem Dev.descOut_count : (d.descOut i ws).get creelB R.CREEL_RDONE i.val = d.get creelB R.CREEL_RDONE i.val + 1 := by
  rw [Dev.descOut_get _ _ _ (by simp [Reg.ofs, R.CREEL_RDONE]; omega), Dev.get_putF_ne _ _ _ _ (radr_ne_of_ofs _ _ _ _ _ _ _ (by simp [Reg.ofs, R.CREEL_RDONE, R.CREEL_RSTAT])),
    Dev.get_put_same]

theorem Dev.descOut_wait : (d.descOut i ws).getF creelB R.CREEL_RSTAT 3 0 i.val = 0 := by
  rw [Dev.getF, Dev.descOut_get _ _ _ (by simp [Reg.ofs, R.CREEL_RSTAT]; omega)]
  exact (Dev.getF_putF_same _ creelB R.CREEL_RSTAT i.val 0 0 (by decide) (by decide)).trans rfl

end

/-- A descriptor completes in SDRAM in service; its command may have changed the bobbins. -/
theorem descDone_served {s : State} {i : Fin 8} (bobs : Vector Bob 256) (ws : List Word) (status entry : Nat) (result : Word)
    (h : s.dev.sdramUp) (hin : s.dev.descAddr i + 64 ≤ s.dev.installed) :
    let d : Dev := { s.dev with bobs := bobs }
    Dev.served s i ws status entry result { s with
      mem := (descDone s.mem d i ws status entry result).1, dev := (descDone s.mem d i ws status entry result).2 } ∧
    (descDone s.mem d i ws status entry result).2 = d.descOut i ws := by
  intro d
  have haddr : d.descAddr i = s.dev.descAddr i := rfl
  have hup : d.sdramUp := h
  have hinst : d.installed = s.dev.installed := rfl
  have hdone := descDone_up s.mem ws status entry result hup (by rw [haddr, hinst]; exact hin)
  rw [hdone]
  refine ⟨⟨?_, ?_, fun c hc => ?_, ?_, ?_, d.descOut_wait i ws, d.descOut_pend i ws, rfl⟩, rfl⟩
  · simp only [haddr, Mem.word_write_same]
  · simp only [haddr]
    rw [Mem.word_write_ne _ _ (by rw [leBytes_length]; omega), Mem.word_write_same, wd_toNat]
  · simp only [haddr]
    rw [Mem.byte_write, leBytes_length, if_neg (by omega), Mem.byte_write, leBytes_length, if_neg (by omega)]
  · exact d.descOut_head i ws
  · exact d.descOut_count i ws

end Sys2Proof.Machine
end

section
/-! Bobbin loads and the key store (R73 to R78, R81 to R83, R498). -/

namespace Sys2Proof.Machine

theorem serveRing_turn {s : State} {i : Fin 8} {ws : List Word} {mine : Nat → Bool} (k : List Word → Mem × Dev)
    (h : s.dev.ringServes s.mem i ws) (hm : mine (descKind ws) = true) (hp : s.dev.permits i (descKind ws) = true)
    (hw : s.dev.descWait i ws = 0) : serveRing s.mem s.dev i mine k = k ws := by
  obtain ⟨-, hready, hup, hwork, hread, hturn, -⟩ := h
  simp only [serveRing, hready, hup, hwork, hread, hm, hw, hturn, hp, not_true_eq_false, or_self, if_false, if_true, ne_eq]

section
variable (d : Dev) (n : Nat) (img : BobBuf)

/-- The generation after the present one (R73). -/
def nextGen (g : Nat) : Nat := if g = 0xFFFF then 1 else g + 1

theorem Dev.loadImage_frame : d.loadImage n img = { d with bobs := (d.loadImage n img).bobs } := by
  unfold Dev.loadImage
  dsimp only
  split <;> rfl

/-- An image stands in the free buffer. -/
def Bob.loaded (x : Bob) (img : BobBuf) : Bob := if x.live then { x with buf0 := img, pend := true } else { x with buf1 := img, pend := true }

/-- The free buffer is the live one. -/
def Bob.promoted (x : Bob) : Bob := { x with gen := nextGen x.gen, live := !x.live, pend := false }

theorem Bob.loaded_rest (x : Bob) : (x.loaded img).gen = x.gen ∧ (x.loaded img).live = x.live ∧ (x.loaded img).pend = true := by
  unfold Bob.loaded
  split <;> exact ⟨rfl, rfl, rfl⟩

/-- A bobbin that the running skein names waits with its new image. -/
theorem Dev.loadImage_bob : (d.loadImage n img).bob n =
    if d.named n then (d.bob n).loaded img else ((d.bob n).loaded img).promoted := by
  cases h : d.named n <;> simp only [Dev.loadImage, h, if_true, if_false, Bool.false_eq_true, Dev.bob, Dev.promote, Dev.bobMod, vmod_same] <;>
    rfl

/-- The buffers after a load, by the buffer that was live. -/
theorem Dev.loadImage_bufs (b : Bool) : (d.loadImage n img).bobBuf n b = if b = (d.bob n).live then d.bobBuf n b else img := by
  unfold Dev.bobBuf
  rw [Dev.loadImage_bob]
  cases d.named n <;> cases hl : (d.bob n).live <;> cases b <;> simp [Bob.promoted, Bob.loaded, hl]

theorem Dev.loadImage_other (hn : n < 256) (j : Fin 256) (hj : j.val ≠ n) : (d.loadImage n img).bobs[j] = d.bobs[j] := by
  have hne : j ≠ Fin.ofNat 256 n := fun he => hj (by rw [he]; exact Nat.mod_eq_of_lt hn)
  unfold Dev.loadImage
  dsimp only
  split <;> simp only [Dev.promote, Dev.bobMod, vmod_ne _ _ hne]

end

section
variable {s : State} {i : Fin 8} {ws : List Word} {img : BobBuf}

/-- A load whose image passes its checks completes with the generation that the image has or will have (R77, R83). -/
theorem loadRing_takes (h : s.dev.ringServes s.mem i ws) (hk : descKind ws = 3) (hp : s.dev.permits i 3 = true)
    (hw : s.dev.descWait i ws = 0) (hr : s.dev.bobbinRead s.mem (quadAt ws 8) (bit (ws.getD 4 0) 8) = .ok img) :
    loadRing s.mem s.dev i = descDone s.mem (s.dev.loadImage (fld (ws.getD 4 0) 7 0) img) i ws 0 0
      (wd (nextGen (s.dev.bob (fld (ws.getD 4 0) 7 0)).gen)) := by
  have hrest := Bob.loaded_rest img (s.dev.bob (fld (ws.getD 4 0) 7 0))
  obtain ⟨hgen, -, hpend⟩ := hrest
  delta loadRing
  generalize descDone = f
  rw [serveRing_turn _ h (by rw [hk]; rfl) (by rw [hk]; exact hp) hw]
  simp only [hr, Dev.loadImage_bob]
  congr 1
  cases s.dev.named (fld (ws.getD 4 0) 7 0) with
  | true => simp only [if_true, hpend, hgen, nextGen]
  | false => simp only [if_false, Bool.false_eq_true, Bob.promoted, hgen]

theorem exec_bobbinLoad (hl : s.dev.dead = false) (he : i ∉ s.dev.early) :
    exec (.bobbinLoad i) s = .next { s with mem := (loadRing s.mem s.dev i).1, dev := (loadRing s.mem s.dev i).2 } := by
  change execBobbinLoad i s = _
  have hearly : s.dev.early.contains i = false := by simpa using he
  unfold execBobbinLoad
  rw [onLiveMem_next _ _ hl]
  simp only [hearly, if_false, Bool.false_eq_true]

end

theorem exec_load (s : State) (k : Fin 32) (h : s.dev.takes keyst 0x120) : exec (.load k) s = .next { s with dev := s.dev.keyLoad k } := by
  change execLoad k s = _
  unfold execLoad
  rw [onLive_next _ _ (s.dev.takes_live _ _ h), s.dev.hostWrite_takes _ _ _ h]

theorem exec_erase (s : State) (k : Fin 32) (h : s.dev.takes keyst 0x120) :
    exec (.erase k) s = .next { s with dev := s.dev.keyErase k } := by
  change execErase k s = _
  unfold execErase
  rw [onLive_next _ _ (s.dev.takes_live _ _ h), s.dev.hostWrite_takes _ _ _ h]

/-- Settles O21: the load by `loadImage_named` and `loadImage_free`, its completion by `descDone_served`. -/
theorem bobbinsAndKeysLoad : Obligations.BobbinsAndKeysLoad := by
  refine ⟨fun s i ws img n hs hk he hp hw hn hr => ?load, fun s k ht htest => ?key, fun s k ht htest => ?test, fun s k ht => ?erase⟩
  case load =>
    subst hn
    set n := fld (ws.getD 4 0) 7 0 with hn
    have hlt : n < 256 := fld_lt _ 7 0
    have hexec := exec_bobbinLoad hs.1 he
    rw [loadRing_takes hs hk hp hw hr, ← hn, s.dev.loadImage_frame n img] at hexec
    obtain ⟨-, -, -, -, -, -, hup, hin⟩ := hs
    have hrest := Bob.loaded_rest img (s.dev.bob n)
    obtain ⟨hgen, hlive, hpend⟩ := hrest
    obtain ⟨hserved, hdev⟩ := descDone_served (s := s) (s.dev.loadImage n img).bobs ws 0 0 (wd (nextGen (s.dev.bob n).gen)) hup hin
    have hframe := Dev.descOut_frame ({ s.dev with bobs := (s.dev.loadImage n img).bobs } : Dev) i ws
    refine ⟨_, hexec, hserved, by rw [hdev, hframe], ?_, ?_, fun hnm => ?_, fun hnm => ?_, fun j hj => ?_⟩
    all_goals rw [hdev, hframe]
    · exact (s.dev.loadImage_bufs n img _).trans (if_neg (by simp))
    · exact (s.dev.loadImage_bufs n img _).trans (if_pos rfl)
    · change ((s.dev.loadImage n img).bob n).live = _ ∧ ((s.dev.loadImage n img).bob n).pend = _ ∧ ((s.dev.loadImage n img).bob n).gen = _
      rw [s.dev.loadImage_bob n img, hnm]
      exact ⟨congrArg (!·) hlive, rfl, congrArg nextGen hgen⟩
    · change ((s.dev.loadImage n img).bob n).live = _ ∧ ((s.dev.loadImage n img).bob n).pend = _ ∧ ((s.dev.loadImage n img).bob n).gen = _
      rw [s.dev.loadImage_bob n img, hnm]
      exact ⟨hlive, hpend, hgen⟩
    · exact s.dev.loadImage_other n img hlt j hj
  case key =>
    set d : Dev := { s.dev with keys := s.dev.keys.set k (some (keyOf s.dev.keyStage)), keyStage := List.replicate 8 0 } with hd
    have hload : s.dev.keyLoad k = d.putB keyst R.KEYST_VALID k.val true :=
      if_neg fun htrue => Bool.false_ne_true (htest.symm.trans htrue)
    refine ⟨d.putB keyst R.KEYST_VALID k.val true, by rw [exec_load s k ht, hload], rfl, fun j hj => ?_,
      Dev.regsKept_put d keyst R.KEYST_VALID _ 0 0 rfl⟩
    by_cases hjk : j = k.val
    · rw [hjk, Dev.getB_putB_same _ _ _ _ _ _ k.isLt, decide_eq_true rfl, Bool.true_or]
    · rw [Dev.getB_putB_other _ _ _ _ _ _ k.isLt hjk, decide_eq_false hjk, Bool.false_or]
      rfl
  case test => rw [exec_load s k ht, show s.dev.keyLoad k = s.dev from if_pos htest]
  case erase =>
    set d : Dev := { s.dev with keys := s.dev.keys.set k none } with hd
    refine ⟨d.putB keyst R.KEYST_VALID k.val false, exec_erase s k ht, rfl, fun j hj => ?_,
      Dev.regsKept_put d keyst R.KEYST_VALID _ 0 0 rfl⟩
    by_cases hjk : j = k.val
    · rw [hjk, Dev.getB_putB_same _ _ _ _ _ _ k.isLt, decide_eq_false (by simp), Bool.false_and]
    · rw [Dev.getB_putB_other _ _ _ _ _ _ k.isLt hjk, decide_eq_true hjk, Bool.true_and]
      rfl

end Sys2Proof.Machine
end

section
/-! SUPPORT. What the work of a layer leaves alone: the slots of the creel, its skein registers, keys, bobbins and the clock. One
rule for each operation on the state, then one for each function that a layer's start, abort or end calls. -/

namespace Sys2Proof.Machine

/-- The slots of the creel, with what its skein registers show. -/
structure LayerView where
  staged : Option Skein
  running : Option Skein
  present : Word
  aborted : Bool
  layerEnd : Option Nat
  now : Nat
  cpl : Cpl
  keys : Vector (Option (BitVec 256)) 32
  bobs : Vector Bob 256
  stat : Word
  layer : Word
  evt : Word

def Dev.layerView (d : Dev) : LayerView :=
  ⟨d.staged, d.running, d.rep.present, d.rep.aborted, d.layerEnd, d.now, d.cpl, d.keys, d.bobs, d.get creelB R.SKEIN_STAT,
    d.get creelB R.SKEIN_LAYER, d.get creelB R.SKEIN_EVT⟩

/-- The slots and the skein registers read as before. -/
def Dev.layerSame (d e : Dev) : Prop := e.layerView = d.layerView

/-! Blocks other than the creel. -/

theorem headB_ne_creel (h : Fin 32) : headB h ≠ creelB := by revert h; decide
theorem mpvB_ne_creel (h : Fin 32) : mpvB h ≠ creelB := by revert h; decide
theorem agtB_ne_creel (h : Fin 32) : agtB h ≠ creelB := by revert h; decide
theorem mspB_ne_creel (m : Fin 64) : mspB m ≠ creelB := by revert m; decide
theorem lpB_ne_creel (p : Fin 2) : lpB p ≠ creelB := by revert p; decide
theorem servo_ne_creel (k : Fin 8) : blk .servo k.val ≠ creelB := by revert k; decide
theorem cellBlk_ne_creel (i : Fin 256) : cellBlk i ≠ creelB := by revert i; decide +kernel

theorem cellIx_lt (i : Fin 256) : cellIx i < 24 := by
  unfold cellIx
  split <;> omega

theorem cellIx_machine {i : Fin 256} (h : ¬ isHead i) : cellIx i < 8 := by
  rw [cellIx, if_neg h]
  omega

namespace Dev.layerSame

section
variable {d e : Dev} {b : Blk} (h : d.layerSame e) (hb : b ≠ creelB)

theorem refl (d : Dev) : d.layerSame d := rfl

theorem trans {f : Dev} (h : d.layerSame e) (h' : e.layerSame f) : d.layerSame f := Eq.trans h' h

theorem ite {f : Dev} {c : Prop} [Decidable c] (h : d.layerSame e) (h' : d.layerSame f) : d.layerSame (if c then e else f) := by
  split <;> assumption

theorem foldl {α : Type} {f : Dev → α → Dev} (l : List α) (h : d.layerSame e) (hf : ∀ x a, d.layerSame x → d.layerSame (f x a)) :
    d.layerSame (l.foldl f e) := by
  induction l generalizing e with
  | nil => exact h
  | cons a l ih => exact ih (hf e a h)

/-- A change of registers that leaves the creel's alone. -/
theorem of_regs {f : Dev} (h : d.layerSame e) (hf : f = { e with
      regs := f.regs, vecs := f.vecs, fabric := f.fabric })
    (hr : ∀ r : Reg, r.ofs 0 0 < 0x1000 → f.get creelB r = e.get creelB r) : d.layerSame f := by
  have hv : f.layerView = e.layerView := by
    rw [Dev.layerView, hr _ (by decide), hr _ (by decide), hr _ (by decide), hf]
    rfl
  exact hv.trans h

include h

theorem vector {v : Nat} (hv : v < 64) : d.layerSame (e.vector v) :=
  h.of_regs (by rw [Dev.vector_frame]) fun _ hr => e.vector_get hv 0 0 (by decide) hr

include hb

theorem put {r : Reg} {i j : Nat} (v : Word) (ho : r.ofs i j < 0x1000) : d.layerSame (e.put b r v i j) :=
  h.of_regs rfl fun q hq => Dev.get_put_ne e b creelB r q v i j 0 0 (radr_ne_of_blk b creelB _ _ _ _ _ _ (Ne.symm hb) hq ho)

theorem putF {r : Reg} {i j : Nat} {hi lo n : Nat} (ho : r.ofs i j < 0x1000) : d.layerSame (e.putF b r hi lo n i j) := h.put hb _ ho

theorem putB {r : Reg} {i j : Nat} {k : Nat} {v : Bool} (ho : r.ofs i j < 0x1000) : d.layerSame (e.putB b r k v i j) := h.put hb _ ho

theorem bump {r : Reg} {i j : Nat} {n : Nat} (ho : r.ofs i j < 0x1000) : d.layerSame (e.bump b r n i j) := h.put hb _ ho

theorem eventQuiet {r : Reg} {m : Word} {i : Nat} (ho : r.ofs i 0 < 0x1000) : d.layerSame (e.eventQuiet b r m i) := h.put hb _ ho

theorem event {r en : Reg} {m : Word} {v i : Nat} (hv : v < 64) (ho : r.ofs i 0 < 0x1000) : d.layerSame (e.event b r en m v i) := by
  unfold Dev.event
  exact .ite (h.put hb _ ho) ((h.put hb _ ho).vector hv)

theorem detect {c : Option Nat} {kind addr : Nat} {trans inj alsof : Bool} : d.layerSame (e.detect b c kind addr trans inj alsof) := by
  have hput : d.layerSame (if kind < 32 then e.put b R.FLT_STAT (e.get b R.FLT_STAT ||| wd (2 ^ kind)) else e) :=
    .ite (h.put hb _ (by decide)) h
  unfold Dev.detect
  split
  · exact h
  · have hcrit : ∀ x, d.layerSame x → d.layerSame (x.vector 0).aliveStop := fun x hx =>
      (hx.vector (by decide)).putB (by decide : fltc ≠ creelB) (by decide)
    dsimp only
    refine .ite (.ite (hcrit _ hput) hput) ?_
    exact (show d.layerSame (if _ then _ else _) from .ite (hcrit _ hput) hput)

end

/-! Functions of the layer's work. -/

section
variable {d e : Dev} (h : d.layerSame e)
include h

theorem zeros {b : Blk} (hb : b ≠ creelB) (rs : List Reg) (i : Nat) (hr : ∀ r ∈ rs, r.ofs i 0 < 0x1000) : d.layerSame (e.zeros b rs i) := by
  unfold Dev.zeros
  induction rs generalizing e with
  | nil => exact h
  | cons r rs ih =>
    rw [List.foldl_cons]
    exact ih (h.put hb _ (hr r List.mem_cons_self)) fun q hq => hr q (List.mem_cons_of_mem r hq)

/-! Pool, items and tokens (R192 to R206). -/

theorem list {id : Word} {reason hd : Nat} {pool : Bool} {first count : Nat} : d.layerSame (e.list id reason hd pool first count) := .ite h h

theorem plyShow : d.layerSame e.plyShow := by
  unfold Dev.plyShow
  exact (h.putF (by decide) (by decide)).putF (by decide) (by decide)

theorem itemGone {ix : Nat} : d.layerSame (e.itemGone ix) := plyShow (e := e.plyMod fun p => { p with items := _ }) h

theorem poolNext {ix : Nat} : d.layerSame (e.poolNext ix) := plyShow (e := e.plyMod fun p => { p with next := ix }) h

theorem poolList {id : Word} {reason hd first count : Nat} : d.layerSame (e.poolList id reason hd first count) :=
  h.list.bump (by decide) (by decide)

theorem poolAbort (m : Mem) : d.layerSame (e.poolAbort m) := by
  unfold Dev.poolAbort
  extract_lets d1 next id
  have h1 : d.layerSame d1 := foldl _ h fun x i hx => hx.poolList.itemGone
  exact .ite h1 h1.poolList.poolNext

theorem plyEvent {k : Nat} : d.layerSame (e.plyEvent k) := h.event (by decide) (by decide) (by decide)

theorem tokenGrant {g : Fin 32} {b : PBox} : d.layerSame (e.tokenGrant g b) := by
  unfold Dev.tokenGrant
  extract_lets d1 senior
  have h1 : d.layerSame d1 := bump (e := e.clear g b) h (by decide : plyB ≠ creelB) (by decide)
  exact (show d.layerSame (if senior then d1.plyEvent 5 else d1) from .ite h1.plyEvent h1)

theorem tokenServe (n : Nat) : d.layerSame (Sys2Proof.Machine.tokenServe n e) := by
  induction n generalizing e with
  | zero => exact h
  | succ n ih =>
    unfold Sys2Proof.Machine.tokenServe
    split
    · exact h
    · split
      · exact h
      · exact .ite h (ih h.tokenGrant)

theorem freeServe : d.layerSame e.freeServe := by
  unfold Dev.freeServe
  refine foldl _ h fun x g hx => ?_
  split
  · exact hx
  · exact .ite hx (bump (e := x.clear g _) hx (by decide) (by decide))

theorem plyServe : d.layerSame e.plyServe := freeServe (tokenServe (e := e.tokenMove) h 64)

/-! Heads (R99 to R117, R134). -/

theorem drfMod {g : Fin 32} {f : Drf → Drf} : d.layerSame (e.drfMod g f) := h

theorem trvMod {g : Fin 32} {f : Trv → Trv} : d.layerSame (e.trvMod g f) := h

theorem corMod {g : Fin 32} {f : Cor → Cor} : d.layerSame (e.corMod g f) := h

theorem phMod {g : Fin 32} {f : PHead → PHead} : d.layerSame (e.phMod g f) := h

theorem push {g : Fin 32} {m : Move} : d.layerSame (e.push g m) := h

theorem withdrawEnts {g : Fin 32} {fin : Rat} {keep : Ent → Bool} : d.layerSame (e.withdrawEnts g fin keep) := h

theorem post_ {g : Fin 32} {x : Ent} : d.layerSame (e.post_ g x) := h

theorem trvEvent {g : Fin 32} {k : Nat} : d.layerSame (e.trvEvent g k) := h.event (headB_ne_creel g) (by omega) (by decide)

theorem drfEvent {g : Fin 32} {k : Nat} : d.layerSame (e.drfEvent g k) := h.event (headB_ne_creel g) (by omega) (by decide)

theorem underrunEnd {g : Fin 32} : d.layerSame (e.underrunEnd g) := by
  unfold Dev.underrunEnd
  split
  · exact h
  · exact (h.bump (headB_ne_creel g) (by decide)).drfEvent

theorem planAll {g : Fin 32} : d.layerSame (e.planAll g) := by
  unfold Dev.planAll
  have hmoves : d.layerSame (e.drfMod g fun x =>
    { x with moves := (replan e.heads[g].drf.cap ((e.heads[g].drf.trail.getLast?.map (·.vOut)).getD 0) e.heads[g].drf.moves).1 }) := h
  exact .ite hmoves (hmoves.bump (headB_ne_creel g) (by decide)).drfEvent

theorem headAbort (m : Mem) {g : Fin 32} : d.layerSame (e.headAbort m g) := by
  unfold Dev.headAbort
  extract_lets f first id d0 d1 d4 d5 src d6
  refine .ite h ?_
  have h0 : d.layerSame d0 := .ite h.underrunEnd h
  have h1 : d.layerSame d1 := by
    unfold d1
    split
    · exact h0.withdrawEnts
    · refine .ite h0.withdrawEnts.drfMod ?_
      extract_lets fin e1 own d1a d2 has d3 p
      have h3 : d.layerSame d3 := .ite h0.withdrawEnts.drfMod.post_ h0.withdrawEnts.drfMod
      exact .ite h3.push.push.planAll h3
  have h4 : d.layerSame d4 := foldl _ h1 fun x i hx => hx.list.itemGone
  have h5 : d.layerSame d5 := (h4.list : d.layerSame (d4.listRest g 5 first id)).drfMod
  have h6 : d.layerSame d6 := h5
  exact (h6.phMod : d.layerSame (d6.withdraw g)).phMod

/-! The parts of a layer's start (R88, R128, R154). -/

theorem fmapShow {g : Fin 32} : d.layerSame (e.fmapShow g) := by
  have hg := headB_ne_creel g
  unfold Dev.fmapShow
  exact (((h.putB hg (by decide)).putB hg (by decide)).putB hg (by decide)).put hg _ (by decide)

theorem fmapPromote {g : Fin 32} : d.layerSame (e.fmapPromote g) := by
  unfold Dev.fmapPromote
  split
  · exact h
  · exact h.trvMod.fmapShow.trvEvent

theorem webShow {g : Fin 32} : d.layerSame (e.webShow g) := h.put (headB_ne_creel g) _ (by decide)

theorem tuneEnd {k : Fin 8} : d.layerSame (e.tuneEnd k) := by
  unfold Dev.tuneEnd
  split <;> exact h

theorem tuneFail {k : Fin 8} {err : Nat} : d.layerSame (e.tuneFail k err) := by
  unfold Dev.tuneFail
  split
  · exact h
  · exact (h.put (servo_ne_creel k) _ (by decide) : d.layerSame (e.opFail (blk .servo k.val) err)).tuneEnd

theorem tuneLayer {g : Fin 32} : d.layerSame (e.tuneLayer g) := by
  unfold Dev.tuneLayer
  extract_lets k
  split
  · exact .ite h.tuneFail h
  · exact h

theorem fmapCheck {g : Fin 32} : d.layerSame (e.fmapCheck g) := by
  unfold Dev.fmapCheck
  exact .ite (h.trvEvent.detect (headB_ne_creel g)) h

theorem setLiv {b : Blk} {r : Reg} {v : Word} {i j : Nat} : d.layerSame (e.setLiv b r v i j) := h

theorem headStart {g : Fin 32} {k : Skein} : d.layerSame (e.headStart g k) := by
  unfold Dev.headStart
  extract_lets b at_ l d1 src d2 d3 d4 d5
  have h1 : d.layerSame d1 := h.fmapCheck.tuneLayer
  have h2 : d.layerSame d2 := h1.drfMod
  have h3 : d.layerSame d3 := h2.trvMod
  have h4 : d.layerSame d4 := h3.corMod.put (headB_ne_creel g) _ (by decide)
  have h5 : d.layerSame d5 := h4.setLiv.setLiv.setLiv
  exact (h5.putB (headB_ne_creel g) (by decide)).webShow

theorem calPromote {g : Fin 32} : d.layerSame (e.calPromote g) := by
  have hg := mpvB_ne_creel g
  unfold Dev.calPromote
  split
  · exact h
  · refine .ite h (event ?_ hg (by omega) (by decide))
    exact putB (putB (e := e.mpvMod g _) h hg (by decide)) hg (by decide)

theorem setCloses : d.layerSame e.setCloses := .ite (putB (e := e.timMod _) h (by decide) (by decide)) h

theorem lgtSend {i : Fin 4} {duty : List Nat} {status : Bool} : d.layerSame (e.lgtSend i duty status) := by
  unfold Dev.lgtSend
  extract_lets ds
  have hs : d.layerSame ds := .ite h h
  exact .ite h (hs.bump (by decide) (by simp [Reg.ofs, R.LGT_FRAMES]; omega))

theorem diagBack {i : Fin 4} : d.layerSame (e.diagBack i) := by
  have hput : d.layerSame (e.putB light R.LGT_STAT 2 false i.val) := h.putB (by decide) (by simp [Reg.ofs, R.LGT_STAT]; omega)
  unfold Dev.diagBack
  exact lgtSend (e := Dev.lgtMod _ i _) hput

theorem diagCut : d.layerSame e.diagCut := by
  unfold Dev.diagCut
  refine foldl _ h fun x i hx => .ite (hx.diagBack.event (by decide) (by decide) (by simp [Reg.ofs, R.LGT_EVT]; omega)) hx

theorem recoatStart {us : Nat} : d.layerSame (e.recoatStart us) := by
  unfold Dev.recoatStart
  exact put (e := e.latMod _) h (by decide) _ (by decide)

theorem plyStart {plan : Option (List Zone × Vector Nat 32)} : d.layerSame (e.plyStart plan) := by
  unfold Dev.plyStart
  extract_lets dir p d1
  have h1 : d.layerSame d1 := h
  exact (h1.putB (by decide : plyB ≠ creelB) (by decide)).plyShow

theorem layerZeros : d.layerSame e.layerZeros := by
  unfold Dev.layerZeros
  extract_lets d1 d2 d3
  have h1 : d.layerSame d1 := foldl _ h fun x g hx =>
    ((hx.zeros (headB_ne_creel g) _ 0 (by decide)).zeros (mpvB_ne_creel g) _ 0 (by decide)).zeros (agtB_ne_creel g) _ _ (by
      have hg : g.val % 4 < 4 := Nat.mod_lt _ (by decide)
      simp [Reg.ofs, R.AGT_TAKEN, R.AGT_RETURNED, R.AGT_CLRWAIT_US, R.AGT_EXTREF]
      omega)
  have h3 : d.layerSame d3 := (h1.zeros (by decide) _ 0 (by decide)).zeros (by decide) _ 0 (by decide)
  exact foldl _ h3 fun x p hx => hx.zeros (lpB_ne_creel p) _ 0 (by decide)

theorem listAbsent (m : Mem) {k : Skein} : d.layerSame (e.listAbsent m k) := foldl _ h fun _ _ hx => .ite hx.list hx

/-! Machine spindles that a web-mode skein takes (R354, R355). -/

theorem mput {m : Fin 64} {r : Reg} {v : Word} (ho : ∀ i < 8, r.ofs i 0 < 0x1000) : d.layerSame (e.mput m r v) :=
  h.put (mspB_ne_creel m) v (ho _ (Nat.mod_lt _ (by decide)))

theorem mstat {m : Fin 64} {k : Nat} {v : Bool} : d.layerSame (e.mstat m k v) :=
  h.mput (m := m) (r := R.MSP_STAT) fun i hi => by simp [Reg.ofs, R.MSP_STAT]; omega

theorem homeBad {m : Fin 64} {reason : Nat} : d.layerSame (e.homeBad m reason) := by
  unfold Dev.homeBad
  extract_lets d1 d2
  have h1 : d.layerSame d1 := h
  have h2 : d.layerSame d2 := h1.mstat.mput fun i hi => by simp [Reg.ofs, R.MSP_HOME_STAT]; omega
  have h3 : d.layerSame (d2.mevent m 2) := h2.mput (m := m) (r := R.MSP_EVT) fun i hi => by simp [Reg.ofs, R.MSP_EVT]; omega
  exact h3.detect (mspB_ne_creel m)

theorem mqueueDrop {m : Fin 64} : d.layerSame (e.mqueueDrop m) :=
  mput (e := e.mspMod m _) (m := m) (r := R.MSP_STAT) h fun i hi => by simp [Reg.ofs, R.MSP_STAT]; omega

theorem mspLeave {m : Fin 64} {a b : Nat} : d.layerSame (e.mspLeave m a b) := by
  unfold Dev.mspLeave
  extract_lets d1 d2
  have h1 : d.layerSame d1 := .ite h.mqueueDrop h
  have h2 : d.layerSame d2 := mstat (e := d1.mspMod m _) h1
  exact .ite (.ite h2.homeBad h2) h1

theorem takeDue {i : Fin 256} : d.layerSame (e.takeDue i) := .ite h h

theorem cellReg {i : Fin 256} {r : Reg} (v : Word) (ho : r.ofs (cellIx i) 0 < 0x1000) :
    d.layerSame (e.put (cellBlk i) r v (cellIx i)) := h.put (cellBlk_ne_creel i) v ho

theorem stateShow {i : Fin 256} {st : Nat} : d.layerSame (e.stateShow i st) := by
  unfold Dev.stateShow
  split
  · exact h.cellReg (r := R.SRV_CSTAT) _ (by have := cellIx_lt i; simp [Reg.ofs, R.SRV_CSTAT]; omega)
  · rename_i hi
    exact h.cellReg (r := R.MSP_STAT) _ (by have := cellIx_machine hi; simp [Reg.ofs, R.MSP_STAT]; omega)

theorem cellEvent {i : Fin 256} : d.layerSame (e.cellEvent i) := by
  unfold Dev.cellEvent
  split
  · exact h.event (cellBlk_ne_creel i) (by omega) (by decide)
  · rename_i hi
    exact h.cellReg (r := R.MSP_EVT) _ (by have := cellIx_machine hi; simp [Reg.ofs, R.MSP_EVT]; omega)

theorem cellMod {i : Fin 256} {f : SCell → SCell} : d.layerSame (e.cellMod i f) := h

theorem cellState {i : Fin 256} {st : Nat} : d.layerSame (e.cellState i st) := by
  unfold Dev.cellState
  extract_lets old off d0 d1 d2
  have h0 : d.layerSame d0 := .ite h.takeDue h
  have h1 : d.layerSame d1 := h0.cellMod
  have h2 : d.layerSame d2 := .ite h1.mspLeave (.ite
    (h1.cellReg (r := R.SRV_CSTAT) _ (by have := cellIx_lt i; simp [Reg.ofs, R.SRV_CSTAT]; omega)) h1)
  exact .ite h h2.stateShow.cellEvent

theorem mspOut {m : Fin 64} {st : Nat} : d.layerSame (e.mspOut m st) := by
  unfold Dev.mspOut
  extract_lets i
  exact .ite h h.cellMod.cellState

theorem webForce : d.layerSame e.webForce := by
  unfold Dev.webForce
  refine foldl _ h fun x m hx => ?_
  extract_lets cfg e1
  have h1 : d.layerSame e1 := .ite hx (mput (e := x.release _ _ _ _) hx fun i hi => by simp [Reg.ofs, R.MSP_CFG]; omega)
  exact .ite h1.mspOut hx

end

end Dev.layerSame

end Sys2Proof.Machine
end

section
/-! Staging, start, abort and end of a layer (R87 to R92). -/

namespace Sys2Proof.Machine

/-! The layer's end. -/

namespace Dev.layerSame

section
variable {d e : Dev} (h : d.layerSame e) {g : Fin 32}
include h

theorem corForce {p q : Nat} : d.layerSame (e.corForce g p q) := by
  unfold Dev.corForce
  exact put (e := Dev.drfMod (Dev.trvMod e g _) g _) h (headB_ne_creel g) _ (by decide)

theorem corIdle : d.layerSame (e.corIdle g) := .ite h h.corForce

theorem post {c : Cls} {src dst : Blk} {cell port : Option Nat} {body : Body} {status : BitVec 4} {tag : Nat} :
    d.layerSame (e.post c src dst cell port body status tag) := h

theorem depositSend : d.layerSame (e.depositSend g) := by
  unfold Dev.depositSend
  extract_lets c nj d1
  split
  · exact h
  · have h1 : d.layerSame d1 := h.corIdle.corMod
    exact (h1.put (headB_ne_creel g) _ (by decide)).post

theorem depositPart {tile a b : Nat} {fall : Bool} : d.layerSame (e.depositPart g tile a b fall) := by
  unfold Dev.depositPart
  extract_lets x d1
  have h1 : d.layerSame d1 := .ite h h.corMod
  exact .ite h1.depositSend h1

theorem depositTick {k : Nat} : d.layerSame (e.depositTick g k) := by
  unfold Dev.depositTick
  extract_lets t a b on_ d0 tile d1 cuts
  have h0 : d.layerSame d0 := h.corMod
  have h1 : d.layerSame d1 := .ite h0 h0.depositSend
  refine .ite h (.ite h0.corMod (.ite (.ite h0 h0.depositSend) ?_))
  clear_value tile
  cases tile with
  | none => exact (h1.bump (by decide) (by decide)).event (by decide) (by decide) (by decide)
  | some i =>
    have h2 := foldl (f := fun (e : Dev) (p : Nat × Nat) => e.depositPart g i p.1 p.2 true) (([a] ++ cuts).zip cuts) h1
      fun _ _ hx => hx.depositPart
    exact .ite h2.depositPart.depositSend h2.depositPart

theorem depositFlush : d.layerSame (e.depositFlush g) := by
  unfold Dev.depositFlush
  extract_lets k
  exact .ite h (foldl _ h fun _ _ hx => hx.depositTick).depositSend

theorem headEnd : d.layerSame (e.headEnd g) := by
  have hg := headB_ne_creel g
  unfold Dev.headEnd
  extract_lets d1 d2
  have h2 : d.layerSame d2 := h.depositFlush.drfMod.trvMod
  exact ((h2.putB hg (by decide)).putB hg (by decide)).webShow

end

end Dev.layerSame

/-! Skein events and the slot shown. -/

theorem Dev.regsKept.putF {d e : Dev} {p : Nat → Prop} (b : Blk) (r : Reg) (hi lo n i j : Nat) (h : d.regsKept e p)
    (hp : p (radr b r i j)) : d.regsKept (e.putF b r hi lo n i j) p := h.put b r _ i j hp

theorem Dev.regsKept_putF (d : Dev) (b : Blk) (r : Reg) (hi lo n i j : Nat) {p : Nat → Prop} (hp : p (radr b r i j)) :
    d.regsKept (d.putF b r hi lo n i j) p := d.regsKept_put b r _ i j hp

theorem bit_or_pow (w : Word) {k : Nat} (hk : k < 32) : bit (w ||| wd (2 ^ k)) k = true := by
  rw [bit, BitVec.getLsbD_or, wd, BitVec.getLsbD_ofNat, Nat.testBit_two_pow_self, decide_eq_true hk, Bool.and_self, Bool.or_true]

section
variable (d : Dev) (k : Nat) (ring : Option (Fin 8))

theorem Dev.skeinEvent_frame : d.skeinEvent k ring = { d with regs := (d.skeinEvent k ring).regs, vecs := (d.skeinEvent k ring).vecs } := by
  unfold Dev.skeinEvent
  extract_lets d1
  split
  · rw [Dev.vector_frame]; rfl
  · rfl

theorem Dev.skeinEvent_evt : (d.skeinEvent k ring).get creelB R.SKEIN_EVT = d.get creelB R.SKEIN_EVT ||| wd (2 ^ k) := by
  unfold Dev.skeinEvent
  extract_lets d1
  have h1 : d1.get creelB R.SKEIN_EVT = d.get creelB R.SKEIN_EVT ||| wd (2 ^ k) := Dev.get_put_same _ _ _ _ _ _
  split
  · rw [Dev.vector_get _ (by omega) _ _ (by decide) (by decide), h1]
  · exact h1

variable {k} in
theorem Dev.skeinEvent_bit (hk : k < 32) : (d.skeinEvent k ring).getB creelB R.SKEIN_EVT k = true := by
  rw [Dev.getB, Dev.skeinEvent_evt]
  exact bit_or_pow _ hk

theorem Dev.skeinEvent_get {r : Reg} (hr : r.ofs 0 0 < 0x1000) (hne : r.ofs 0 0 ≠ R.SKEIN_EVT.ofs 0 0) :
    (d.skeinEvent k ring).get creelB r = d.get creelB r := by
  unfold Dev.skeinEvent
  extract_lets d1
  have h1 : d1.get creelB r = d.get creelB r := Dev.get_put_ne _ _ _ _ _ _ _ _ _ _ (radr_ne_of_ofs _ _ _ _ _ _ _ hne)
  split
  · rw [Dev.vector_get _ (by omega) _ _ (by decide) hr, h1]
  · exact h1

theorem Dev.skeinEvent_none : d.regsKept (d.skeinEvent k none) fun a => a = radr creelB R.SKEIN_EVT :=
  d.regsKept_put creelB R.SKEIN_EVT _ 0 0 rfl

theorem Dev.stagedShow_frame : d.stagedShow = { d with regs := d.stagedShow.regs } := by
  unfold Dev.stagedShow
  split <;> rfl

theorem Dev.stagedShow_kept : d.regsKept d.stagedShow fun a => a = radr creelB R.SKEIN_STAT := by
  unfold Dev.stagedShow
  have hput : ∀ n, d.regsKept (d.putF creelB R.SKEIN_STAT 7 4 n) fun a => a = radr creelB R.SKEIN_STAT := fun n =>
    d.regsKept_putF creelB R.SKEIN_STAT 7 4 n 0 0 rfl
  split <;> exact (hput _).putF creelB R.SKEIN_STAT 15 12 _ 0 0 rfl

/-- SKEIN_STAT.STAGED of a skein that does not wait for GO. -/
theorem Dev.stagedShow_free {k : Skein} (hs : d.staged = some k) (hk : ¬ (bit k.flags 0 ∧ ¬ k.goSeen)) :
    d.stagedShow.getF creelB R.SKEIN_STAT 7 4 = 1 := by
  simp only [Dev.stagedShow, hs]
  rw [if_neg hk, Dev.getF_putF_other _ _ _ _ _ _ (by decide) (by decide), Dev.getF_putF_same _ _ _ _ _ _ (by decide) (by decide)]
  rfl

theorem Dev.stagedShow_empty (hs : d.staged = none) : d.stagedShow.getF creelB R.SKEIN_STAT 7 4 = 0 := by
  simp only [Dev.stagedShow, hs]
  rw [Dev.getF_putF_other _ _ _ _ _ _ (by decide) (by decide), Dev.getF_putF_same _ _ _ _ _ _ (by decide) (by decide)]
  rfl

end

/-! The commands. -/

section
variable (s : State)

theorem exec_go (h : s.dev.takes creelB 0x200) : exec .go s = .next { s with dev := s.dev.skeinGo } := by
  change execGo s = _
  unfold execGo
  rw [onLive_next _ _ (s.dev.takes_live _ _ h), s.dev.hostWrite_takes _ _ _ h]

theorem exec_drop (h : s.dev.takes creelB 0x200) : exec .drop s = .next { s with dev := s.dev.skeinDrop } := by
  change execDrop s = _
  unfold execDrop
  rw [onLive_next _ _ (s.dev.takes_live _ _ h), s.dev.hostWrite_takes _ _ _ h]

theorem exec_abort (h : s.dev.takes creelB 0x200) : exec .abort s = .next { s with dev := s.dev.skeinAbort s.mem } := by
  change execAbort s = _
  unfold execAbort
  rw [onLiveMem_next _ _ (s.dev.takes_live _ _ h), hostWriteMem_takes _ _ _ _ _ h]

/-- The maps that wait at a layer's start become live (R127). -/
def Dev.mapsLive (d : Dev) : Dev := (List.finRange 32).foldl (fun (e : Dev) h => e.fmapPromote h) d

theorem exec_layerStart {k : Skein} (hl : s.dev.dead = false) (hr : s.dev.ready = true) (hrun : s.dev.running = none)
    (hs : s.dev.staged = some k) (hgo : bit k.flags 0 = false ∨ k.goSeen = true) (hp : k.planAddr = 0)
    (hreq : k.reqMask &&& ~~~s.dev.mapsLive.presentSet s.pending = 0) : exec .layerStart s = .next { s with
      mem := (layerGo s.mem s.dev.mapsLive k (s.dev.mapsLive.presentSet s.pending) none).1
      dev := (layerGo s.mem s.dev.mapsLive k (s.dev.mapsLive.presentSet s.pending) none).2 } := by
  have hstart : s.dev.canStart = true := by
    rcases hgo with h | h <;> simp [Dev.canStart, hs, h]
  change execLayerStart s = _
  unfold execLayerStart
  rw [onLiveMem_next _ _ hl]
  simp only [hs, hr, hrun, hstart, Option.isSome_none, not_true_eq_false, Bool.false_eq_true, or_self, if_false, hp, ne_eq,
    false_and, if_true]
  unfold Dev.mapsLive at hreq ⊢
  rw [if_neg (not_not.mpr hreq)]

end

/-- What a layer's start writes before its heads begin. -/
def Dev.layerOpen (d : Dev) (k : Skein) (present : Word) : Dev :=
  let ns := d.ptpNs
  let d1 : Dev := ({ d with
    staged := none, running := some k, rep := { Rep.init with
      present := present, startS := ns / 1000000000, startNs := ns % 1000000000, ox := k.ox, oy := k.oy, flags := k.flags } } : Dev)
  (((d1.stagedShow.putF creelB R.SKEIN_STAT 3 0 2).putF creelB R.SKEIN_STAT 11 8 k.ring.val).put creelB R.SKEIN_LAYER
    k.layer).skeinEvent 0 (some k.ring)

/-- The heads begin without touching the slots. -/
theorem layerGo_same (m : Mem) (d : Dev) {k : Skein} (present : Word) (plan : Option (List Zone × Vector Nat 32))
    (ha : k.abortSeen = false) : (d.layerOpen k present).layerSame (layerGo m d k present plan).2 := by
  unfold layerGo
  rw [ha]
  extract_lets ns rep0 d1 d2 d2a d3 d4 d5
  have hd2 : d.layerOpen k present = d2 := rfl
  rw [hd2]
  clear_value d2
  have h2a : d2.layerSame d2a := (Dev.layerSame.refl d2).layerZeros.plyStart
  have h3 : d2.layerSame d3 := (Dev.layerSame.ite h2a h2a.recoatStart : d2.layerSame (if k.web then d2a else d2a.recoatStart k.recoatUs)).diagCut.setCloses
  have h4 : d2.layerSame d4 := .foldl _ h3 fun x g hx => .ite hx.calPromote.setLiv.headStart hx.calPromote.setLiv
  have h5 : d2.layerSame d5 := (h4.listAbsent m).webForce
  clear_value d5
  rw [if_neg Bool.false_ne_true]
  exact h5

section
variable (d : Dev) (k : Skein) (present : Word)

theorem Dev.layerOpen_frame : d.layerOpen k present = { d with
    regs := (d.layerOpen k present).regs, vecs := (d.layerOpen k present).vecs, staged := none, running := some k
    rep := (d.layerOpen k present).rep } := by
  unfold Dev.layerOpen
  extract_lets ns rep0 d1
  rw [Dev.skeinEvent_frame, Dev.stagedShow_frame]
  rfl

theorem Dev.layerOpen_present : (d.layerOpen k present).rep.present = present := by
  unfold Dev.layerOpen
  extract_lets ns rep0 d1
  rw [Dev.skeinEvent_frame, Dev.stagedShow_frame]
  rfl

theorem Dev.layerOpen_run : (d.layerOpen k present).getF creelB R.SKEIN_STAT 3 0 = 2 := by
  unfold Dev.layerOpen
  extract_lets ns rep0 d1
  rw [Dev.getF, Dev.skeinEvent_get _ _ _ (by decide) (by decide),
    Dev.get_put_ne _ _ _ _ _ _ _ _ _ _ (radr_ne_of_ofs _ _ _ _ _ _ _ (by decide))]
  exact (Dev.getF_putF_other _ creelB R.SKEIN_STAT 0 0 _ (by decide) (by decide)).trans
    (Dev.getF_putF_same _ creelB R.SKEIN_STAT 0 0 2 (by decide) (by decide))

theorem Dev.layerOpen_layer : (d.layerOpen k present).get creelB R.SKEIN_LAYER = k.layer := by
  unfold Dev.layerOpen
  extract_lets ns rep0 d1
  rw [Dev.skeinEvent_get _ _ _ (by decide) (by decide), Dev.get_put_same]

theorem Dev.layerOpen_started : (d.layerOpen k present).getB creelB R.SKEIN_EVT 0 = true := Dev.skeinEvent_bit _ _ (by decide)

end

/-- What an abort of the running layer does to its heads, its pool and its arbiter (R90, R117, R206). -/
def Dev.layerCut (d : Dev) (m : Mem) : Dev :=
  let d1 : Dev := { d with rep := { d.rep with aborted := true, cut := some (d.now, d.getB creelB R.SKEIN_EVT 3) } }
  let d2 := (List.finRange 32).foldl (fun (e : Dev) h => if e.headRuns h then e.headAbort m h else e) d1
  (d2.poolAbort m).plyServe

theorem Dev.skeinAbort_running (d : Dev) (m : Mem) {k : Skein} (hr : d.running = some k) (h3 : d.runState ≠ 3) (ha : d.rep.aborted = false) :
    d.skeinAbort m = (d.layerCut m).skeinEvent 3 (some k.ring) := by
  unfold Dev.skeinAbort
  split
  · rename_i hnone
    exact absurd (hr.symm.trans hnone) (by simp)
  · rename_i k' hk
    obtain rfl : k' = k := Option.some.inj (hk.symm.trans hr)
    rw [if_neg h3, if_neg (by simp [ha])]
    rfl

/-- An abort reaches every running head and leaves the slots as they were. -/
theorem Dev.layerCut_same (d : Dev) (m : Mem) : ({ d with rep := { d.rep with
    aborted := true, cut := some (d.now, d.getB creelB R.SKEIN_EVT 3) } } : Dev).layerSame (d.layerCut m) := by
  unfold Dev.layerCut
  extract_lets rep0 d1 d2
  have h2 : d1.layerSame d2 := .foldl _ (.refl d1) fun x g hx => .ite (hx.headAbort m) hx
  exact (h2.poolAbort m).plyServe

theorem Dev.bobsPromote_frame (d : Dev) : d.bobsPromote = { d with bobs := d.bobsPromote.bobs } := by
  unfold Dev.bobsPromote
  generalize List.range 256 = l
  induction l generalizing d with
  | nil => rfl
  | cons b l ih =>
    rw [List.foldl_cons]
    split
    · rw [ih]; rfl
    · exact ih d

/-- A layer without web mode whose heads have left and whose pool is done is over (R89). -/
theorem Dev.layerDone_of (d : Dev) {k : Skein} (hw : k.web = false) (hh : ∀ h, d.headRuns h = false) (hp : d.poolRead_ = true)
    (hi : d.ply.items = []) : d.layerDone k = true := by
  simp [Dev.layerDone, Dev.headOver, hw, hh, hp, hi]

theorem Dev.lateAbort_none (d : Dev) (h : ∀ t w, d.rep.cut = some (t, w) → t ≠ d.now) : d.lateAbort = d := by
  unfold Dev.lateAbort
  split
  · rename_i t w hc
    rw [if_neg]
    exact fun hx => h t w hc hx.1
  · rfl

theorem exec_layerEnd (s : State) {k : Skein} (hl : s.dev.dead = false) (hr : s.dev.running = some k) (hw : k.web = false)
    (hd : s.dev.layerDone k = true) (hc : s.dev.lateAbort = s.dev) : exec .layerEnd s = .next { s with
      mem := (layerOver s.mem s.dev k).1, dev := (layerOver s.mem s.dev k).2 } := by
  have hfreed : s.dev.webFreed k = s.dev := by simp [Dev.webFreed, hw]
  change execLayerEnd s = _
  unfold execLayerEnd
  rw [onLiveMem_next _ _ hl]
  simp only [hr, hfreed, hd, if_true, hc]

/-- The status of a layer report (R91). -/
def Rep.status (r : Rep) : Nat := if r.aborted then 2 else if r.entries = [] then 0 else 1

theorem layerOver_mem (m : Mem) (d : Dev) (k : Skein) :
    (layerOver m d k).1 = d.sdPut m k.repAddr (repBytes k d.rep d.rep.status d.ptpNs) := by
  generalize hf : layerOver = f
  delta layerOver at hf
  subst hf
  rfl

/-- The slots and registers after a layer's end. -/
theorem layerOver_slots (m : Mem) (d : Dev) (k : Skein) :
    (layerOver m d k).2.running = none ∧ (layerOver m d k).2.layerEnd = some d.now ∧ (layerOver m d k).2.staged = d.staged ∧
    (layerOver m d k).2.getF creelB R.SKEIN_STAT 3 0 = 0 ∧ (layerOver m d k).2.getB creelB R.SKEIN_EVT 1 = true := by
  unfold layerOver
  extract_lets status m1 d1 d2 d3
  have h2 : d1.layerSame d2 := .foldl _ (.refl d1) fun x g hx => .ite hx.headEnd hx
  have hrun : d2.running = none := congrArg LayerView.running h2
  have hend : d2.layerEnd = some d.now := congrArg LayerView.layerEnd h2
  have hst : d2.staged = d.staged := congrArg LayerView.staged h2
  clear_value d2
  set x : Dev := ((d2.latMod fun l => { l with since := d.now }).putF plyB R.PLY_STAT 1 0 0).putF creelB R.SKEIN_STAT 3 0 0 with hx
  have h3 : d3 = _ := x.bobsPromote_frame
  have hstat : x.getF creelB R.SKEIN_STAT 3 0 = 0 := Dev.getF_putF_same _ creelB R.SKEIN_STAT 0 0 0 (by decide) (by decide)
  have hrun' : x.running = none := hrun
  have hend' : x.layerEnd = some d.now := hend
  have hst' : x.staged = d.staged := hst
  clear_value x d3
  refine ⟨?_, ?_, ?_, ?_, Dev.skeinEvent_bit _ _ (by decide)⟩
  · rw [Dev.skeinEvent_frame, h3]; exact hrun'
  · rw [Dev.skeinEvent_frame, h3]; exact hend'
  · rw [Dev.skeinEvent_frame, h3]; exact hst'
  · rw [Dev.getF, Dev.skeinEvent_get _ _ _ (by decide) (by decide), Dev.get_of_regs creelB R.SKEIN_STAT 0 0 (d := x) (by rw [h3])]
    exact hstat

/-- The maps that become live touch no slot. -/
theorem Dev.mapsLive_same (d : Dev) : d.layerSame d.mapsLive := .foldl _ (.refl d) fun _ _ hx => hx.fmapPromote

theorem repByte (bs : List Byte) (a c : Nat) (o : Byte) :
    (if a ≤ c ∧ c < a + bs.length then bs.getD (c - a) 0 else o) = if a ≤ c then (bs[c - a]?).getD o else o := by
  by_cases hc : a ≤ c
  · by_cases hl : c < a + bs.length
    · rw [if_pos ⟨hc, hl⟩, if_pos hc, List.getD_eq_getElem?_getD, List.getElem?_eq_getElem (by omega)]
      rfl
    · rw [if_neg (by omega), if_pos hc, List.getElem?_eq_none (by omega)]
      rfl
  · rw [if_neg (by omega), if_neg hc]

/-- Settles O22: GO, DROP and ABORT by the staged slot, start, abort and end by `layerSame`. -/
theorem layersAreStagedStartedAndEnded : Obligations.LayersAreStagedStartedAndEnded := by
  refine ⟨⟨fun s k ht hs hf hg => ?go, fun s ht hs => ?goNone, fun s ht => ?drop, fun s ht hr hc => ?abortNone,
    fun s ht hr hc => ?abortStart⟩, fun s k hl hrd hr hs hgo ha hp hreq => ?start, fun s k ht hr h3 ha => ?abort,
    fun s k hl hr hw hup hh hp hi hc hin => ?ends⟩
  case go =>
    set d : Dev := { s.dev with staged := some { k with goSeen := true } } with hd
    have hgo : s.dev.skeinGo = d.stagedShow := by
      simp only [Dev.skeinGo, hs, hf, hg, Bool.false_eq_true, not_false_eq_true, and_self, if_true]
      rfl
    refine ⟨d.stagedShow, by rw [exec_go s ht, hgo], d.stagedShow_frame, ?_, d.stagedShow_kept⟩
    exact Dev.stagedShow_free d (k := { k with goSeen := true }) rfl (by simp)
  case goNone =>
    have hgo : s.dev.skeinGo = s.dev.skeinEvent 4 none := by simp only [Dev.skeinGo, hs]
    exact ⟨s.dev.skeinEvent 4 none, by rw [exec_go s ht, hgo], rfl, s.dev.skeinEvent_evt 4 none, s.dev.skeinEvent_none 4⟩
  case drop =>
    cases hs : s.dev.staged with
    | none =>
      have hdrop : s.dev.skeinDrop = s.dev.skeinEvent 6 none := by simp only [Dev.skeinDrop, hs]
      refine ⟨s.dev.skeinEvent 6 none, by rw [exec_drop s ht, hdrop], ?_, fun h => (by cases h), fun _ =>
        ⟨s.dev.skeinEvent_evt 6 none, s.dev.skeinEvent_none 6⟩⟩
      rw [← hs]; rfl
    | some k =>
      set d : Dev := { s.dev with staged := none } with hd
      have hdrop : s.dev.skeinDrop = d.stagedShow := by
        simp only [Dev.skeinDrop, hs]
        rfl
      exact ⟨d.stagedShow, by rw [exec_drop s ht, hdrop], d.stagedShow_frame, fun _ => ⟨d.stagedShow_empty rfl, d.stagedShow_kept⟩,
        fun h => by cases h⟩
  case abortNone =>
    have habort : s.dev.skeinAbort s.mem = s.dev.skeinEvent 5 none := by simp [Dev.skeinAbort, hr, hc]
    exact ⟨s.dev.skeinEvent 5 none, by rw [exec_abort s ht, habort], rfl, s.dev.skeinEvent_evt 5 none, s.dev.skeinEvent_none 5⟩
  case abortStart =>
    rw [exec_abort s ht]
    simp [Dev.skeinAbort, hr, hc]
  case start =>
    have hsame := layerGo_same s.mem s.dev.mapsLive (s.dev.mapsLive.presentSet s.pending) none ha
    have hmaps := s.dev.mapsLive_same
    refine ⟨_, exec_layerStart s hl hrd hr hs hgo hp hreq, ?_⟩
    change _ ∧ _ ∧ _ = s.dev.mapsLive.presentSet s.pending ∧ _
    generalize s.dev.mapsLive = d0 at hsame hmaps ⊢
    generalize (layerGo s.mem d0 k (d0.presentSet s.pending) none).2 = e at hsame ⊢
    have hget : ∀ f : LayerView → Word, f e.layerView = f (d0.layerOpen k (d0.presentSet s.pending)).layerView :=
      fun f => congrArg f hsame
    have hframe := d0.layerOpen_frame k (d0.presentSet s.pending)
    refine ⟨?_, ?_, ?_, ?_, ?_, ?_, ?_, ?_, ?_, ?_⟩
    · exact (congrArg LayerView.staged hsame).trans (by rw [hframe]; rfl)
    · exact (congrArg LayerView.running hsame).trans (by rw [hframe]; rfl)
    · exact (congrArg LayerView.present hsame).trans (d0.layerOpen_present k _)
    · exact (congrArg (fld · 3 0) (hget LayerView.stat)).trans (d0.layerOpen_run k _)
    · exact (hget LayerView.layer).trans (d0.layerOpen_layer k _)
    · exact (congrArg (bit · 0) (hget LayerView.evt)).trans (d0.layerOpen_started k _)
    · exact (congrArg LayerView.now hsame).trans ((by rw [hframe]; rfl : _ = d0.now).trans (congrArg LayerView.now hmaps))
    · exact (congrArg LayerView.cpl hsame).trans ((by rw [hframe]; rfl : _ = d0.cpl).trans (congrArg LayerView.cpl hmaps))
    · exact (congrArg LayerView.keys hsame).trans ((by rw [hframe]; rfl : _ = d0.keys).trans (congrArg LayerView.keys hmaps))
    · exact (congrArg LayerView.bobs hsame).trans ((by rw [hframe]; rfl : _ = d0.bobs).trans (congrArg LayerView.bobs hmaps))
  case abort =>
    have habort := s.dev.skeinAbort_running s.mem hr h3 ha
    have hcut := s.dev.layerCut_same s.mem
    refine ⟨_, by rw [exec_abort s ht, habort], ?_, Dev.skeinEvent_bit _ _ (by decide), ?_, ?_⟩
    all_goals rw [Dev.skeinEvent_frame]
    · exact congrArg LayerView.aborted hcut
    · exact (congrArg LayerView.running hcut).trans hr
    · exact congrArg LayerView.staged hcut
  case ends =>
    obtain ⟨hrun, hend, hst, hstat, hevt⟩ := layerOver_slots s.mem s.dev k
    refine ⟨_, exec_layerEnd s hl hr hw (s.dev.layerDone_of hw hh hp hi) (s.dev.lateAbort_none hc), hrun, hend, hstat, hevt, hst,
      fun a => ?_⟩
    change (layerOver s.mem s.dev k).1.byte a = _
    change k.repAddr + (repBytes k s.dev.rep s.dev.rep.status s.dev.ptpNs).length ≤ s.dev.installed at hin
    rw [layerOver_mem, Dev.sdPut_up hup s.mem _ hin, Mem.byte_write, repByte]
    rfl

end Sys2Proof.Machine
end

section
/-! SUPPORT. Frames: which parts of the device an operation may change. `d.changes F e` says that at most the parts in `F` differ,
so that frames compose by transitivity and a frame of few parts serves where more may change. -/

namespace Sys2Proof.Machine

/-- The parts of the device. -/
inductive Part where
  | now | fresh | regs | live | prior | snap | cpl | fabric | reqs | rounds | lateRsp | ops | fullAt | fullSaid | vecs
  | shadows | wakeReq | wakeLast | flt | alive | aliveAt | sdwnN | boot | bobs | keyStage | keys | ringLast | ringFin
  | early | staged | running | rep | layerEnd | heads | cells | tunes | ply | mpvs | lat | lpipes | lights | lanes |
  msps | sdc | pool | tim | claims | thm | bch | jrn
deriving DecidableEq

/-- `c` for a part in `F`, else what it holds. -/
def pick {α : Type} (F : List Part) (p : Part) (c x : α) : α := if p ∈ F then c else x

theorem pick_pick {α : Type} {F G : List Part} (h : F ⊆ G) (p : Part) (c x : α) : pick G p c (pick F p c x) = pick G p c x := by
  unfold pick
  by_cases hg : p ∈ G
  · rw [if_pos hg, if_pos hg]
  · rw [if_neg hg, if_neg hg, if_neg fun hf => hg (h hf)]

/-- The device with the parts in `F` put out of sight. -/
def Dev.hide (F : List Part) (d : Dev) : Dev :=
  let z := Dev.init
  ⟨pick F .now z.now d.now, pick F .fresh z.fresh d.fresh, pick F .regs z.regs d.regs, pick F .live z.live d.live,
    pick F .prior z.prior d.prior, pick F .snap z.snap d.snap, pick F .cpl z.cpl d.cpl, pick F .fabric z.fabric
    d.fabric, pick F .reqs z.reqs d.reqs, pick F .rounds z.rounds d.rounds, pick F .lateRsp z.lateRsp d.lateRsp,
    pick F .ops z.ops d.ops, pick F .fullAt z.fullAt d.fullAt, pick F .fullSaid z.fullSaid d.fullSaid, pick F .vecs
    z.vecs d.vecs, pick F .shadows z.shadows d.shadows, pick F .wakeReq z.wakeReq d.wakeReq, pick F .wakeLast
    z.wakeLast d.wakeLast, pick F .flt z.flt d.flt, pick F .alive z.alive d.alive, pick F .aliveAt z.aliveAt
    d.aliveAt, pick F .sdwnN z.sdwnN d.sdwnN, pick F .boot z.boot d.boot, pick F .bobs z.bobs d.bobs, pick F
    .keyStage z.keyStage d.keyStage, pick F .keys z.keys d.keys, pick F .ringLast z.ringLast d.ringLast, pick F
    .ringFin z.ringFin d.ringFin, pick F .early z.early d.early, pick F .staged z.staged d.staged, pick F .running
    z.running d.running, pick F .rep z.rep d.rep, pick F .layerEnd z.layerEnd d.layerEnd, pick F .heads z.heads
    d.heads, pick F .cells z.cells d.cells, pick F .tunes z.tunes d.tunes, pick F .ply z.ply d.ply, pick F .mpvs
    z.mpvs d.mpvs, pick F .lat z.lat d.lat, pick F .lpipes z.lpipes d.lpipes, pick F .lights z.lights d.lights, pick
    F .lanes z.lanes d.lanes, pick F .msps z.msps d.msps, pick F .sdc z.sdc d.sdc, pick F .pool z.pool d.pool, pick
    F .tim z.tim d.tim, pick F .claims z.claims d.claims, pick F .thm z.thm d.thm, pick F .bch z.bch d.bch, pick F
    .jrn z.jrn d.jrn⟩

/-- At most the parts in `F` differ. -/
def Dev.changes (d : Dev) (F : List Part) (e : Dev) : Prop := e.hide F = d.hide F

theorem Dev.hide_hide {F G : List Part} (h : F ⊆ G) (d : Dev) : (d.hide F).hide G = d.hide G := by
  simp only [Dev.hide, pick_pick h]

namespace Dev.changes

variable {d e f : Dev} {F G : List Part}

theorem refl (d : Dev) (F : List Part) : d.changes F d := rfl

theorem mono (h : d.changes F e) (hs : F ⊆ G) : d.changes G e := by
  rw [Dev.changes, ← Dev.hide_hide hs e, ← Dev.hide_hide hs d, show e.hide F = d.hide F from h]

theorem trans (h : d.changes F e) (h' : e.changes F f) : d.changes F f := Eq.trans h' h

/-- A further step, of a smaller frame. -/
theorem step (h : d.changes G e) (h' : e.changes F f) (hs : F ⊆ G) : d.changes G f := h.trans (h'.mono hs)

/-- A part that is not in the frame, read on both sides. -/
theorem get {α : Type} (h : d.changes F e) (p : Dev → α) : p (e.hide F) = p (d.hide F) := congrArg p h

theorem ite {c : Prop} [Decidable c] (h : d.changes F e) (h' : d.changes F f) : d.changes F (if c then e else f) := by
  split <;> assumption

theorem foldl {α : Type} {k : Dev → α → Dev} (l : List α) (h : d.changes F e) (hk : ∀ x a, d.changes F x → d.changes F (k x a)) :
    d.changes F (l.foldl k e) := by
  induction l generalizing e with
  | nil => exact h
  | cons a l ih => exact ih (hk e a h)

end Dev.changes

/-! The operations on the state. -/

section
variable (d : Dev) (b : Blk)

theorem Dev.put_changes (r : Reg) (v : Word) (i j : Nat) : d.changes [.regs] (d.put b r v i j) := rfl

theorem Dev.vector_changes (v : Nat) : d.changes [.regs, .vecs] (d.vector v) := by rw [Dev.vector_frame]; rfl

theorem Dev.event_changes (r en : Reg) (m : Word) (v i : Nat) : d.changes [.regs, .vecs] (d.event b r en m v i) := by
  rw [Dev.event_frame]; rfl

theorem Dev.post_changes (c : Cls) (dst : Blk) (cell port : Option Nat) (body : Body) (st : BitVec 4) (tag : Nat) :
    d.changes [.fabric] (d.post c b dst cell port body st tag) := rfl

theorem Dev.detect_changes (c : Option Nat) (kind addr : Nat) (trans inj alsof : Bool) :
    d.changes [.regs, .vecs, .fabric] (d.detect b c kind addr trans inj alsof) := by
  rw [Dev.detect_frame]; rfl

end

end Sys2Proof.Machine
end

section
/-! Records become moves (R93 to R98, R114). -/

namespace Sys2Proof.Machine

/-! Work on one head. -/

/-- At most the parts in `F` differ, and of the heads only `h`. -/
def Dev.headWork (d : Dev) (h : Fin 32) (F : List Part) (e : Dev) : Prop :=
  d.changes F e ∧ ∀ g : Fin 32, g ≠ h → e.heads[g] = d.heads[g]

namespace Dev.headWork

variable {d e f : Dev} {h : Fin 32} {F G : List Part}

theorem refl (d : Dev) (h : Fin 32) (F : List Part) : d.headWork h F d := ⟨rfl, fun _ _ => rfl⟩

theorem trans (k : d.headWork h F e) (k' : e.headWork h F f) : d.headWork h F f :=
  ⟨k.1.trans k'.1, fun g hg => (k'.2 g hg).trans (k.2 g hg)⟩

theorem step (k : d.headWork h G e) (k' : e.headWork h F f) (hs : F ⊆ G) : d.headWork h G f := k.trans ⟨k'.1.mono hs, k'.2⟩

/-- A step that leaves the heads alone. -/
theorem beside (k : d.headWork h G e) (k' : e.changes F f) (hs : F ⊆ G) (hh : f.heads = e.heads) : d.headWork h G f :=
  k.trans ⟨k'.mono hs, fun g _ => by rw [hh]⟩

theorem ite {c : Prop} [Decidable c] (k : d.headWork h F e) (k' : d.headWork h F f) : d.headWork h F (if c then e else f) := by
  split <;> assumption

end Dev.headWork

section
variable (d : Dev) (h : Fin 32)

/-- A change of one head. -/
theorem Dev.headMod_work (f : Head → Head) : d.headWork h [.heads] { d with heads := vmod d.heads h f } :=
  ⟨rfl, fun _ hg => vmod_ne _ _ hg⟩

theorem Dev.drfMod_work (f : Drf → Drf) : d.headWork h [.heads] (d.drfMod h f) := d.headMod_work h _
theorem Dev.trvMod_work (f : Trv → Trv) : d.headWork h [.heads] (d.trvMod h f) := d.headMod_work h _
theorem Dev.corMod_work (f : Cor → Cor) : d.headWork h [.heads] (d.corMod h f) := d.headMod_work h _

@[simp] theorem Dev.drfMod_drf (f : Drf → Drf) : (d.drfMod h f).heads[h].drf = f d.heads[h].drf := by
  simp only [Dev.drfMod, vmod_same]
@[simp] theorem Dev.drfMod_trv (f : Drf → Drf) : (d.drfMod h f).heads[h].trv = d.heads[h].trv := by
  simp only [Dev.drfMod, vmod_same]
@[simp] theorem Dev.trvMod_drf (f : Trv → Trv) : (d.trvMod h f).heads[h].drf = d.heads[h].drf := by
  simp only [Dev.trvMod, vmod_same]
@[simp] theorem Dev.trvMod_trv (f : Trv → Trv) : (d.trvMod h f).heads[h].trv = f d.heads[h].trv := by
  simp only [Dev.trvMod, vmod_same]
@[simp] theorem Dev.corMod_drf (f : Cor → Cor) : (d.corMod h f).heads[h].drf = d.heads[h].drf := by
  simp only [Dev.corMod, vmod_same]

theorem Dev.event_heads (b : Blk) (r en : Reg) (m : Word) (v i : Nat) : (d.event b r en m v i).heads = d.heads := by
  rw [Dev.event_frame]

end

/-! Prediction requests and start entries leave the Drafter alone (R16, R263). -/

/-- Work of the correction unit of a head. -/
def Dev.corWork (d : Dev) (h : Fin 32) (e : Dev) : Prop :=
  d.headWork h [.regs, .vecs, .fabric, .reqs, .heads] e ∧ e.heads[h].drf = d.heads[h].drf

namespace Dev.corWork

variable {d e : Dev} {h : Fin 32}

theorem refl (d : Dev) (h : Fin 32) : d.corWork h d := ⟨.refl d h _, rfl⟩

theorem ite {f : Dev} {c : Prop} [Decidable c] (k : d.corWork h e) (k' : d.corWork h f) : d.corWork h (if c then e else f) := by
  split <;> assumption

theorem foldl {α : Type} {f : Dev → α → Dev} (l : List α) (k : d.corWork h e) (hf : ∀ x a, d.corWork h x → d.corWork h (f x a)) :
    d.corWork h (l.foldl f e) := by
  induction l generalizing e with
  | nil => exact k
  | cons a l ih => exact ih (hf e a k)

variable (k : d.corWork h e)
include k

theorem corMod (f : Cor → Cor) : d.corWork h (e.corMod h f) :=
  ⟨k.1.step (e.corMod_work h f) (by decide), (e.corMod_drf h f).trans k.2⟩

theorem trvMod (f : Trv → Trv) : d.corWork h (e.trvMod h f) :=
  ⟨k.1.step (e.trvMod_work h f) (by decide), (e.trvMod_drf h f).trans k.2⟩

theorem beside {f : Dev} {F : List Part} (k' : e.changes F f) (hs : F ⊆ [.regs, .vecs, .fabric, .reqs, .heads]) (hh : f.heads = e.heads) :
    d.corWork h f := ⟨k.1.beside k' hs hh, by rw [hh, k.2]⟩

theorem put (b : Blk) (r : Reg) (v : Word) (i j : Nat) : d.corWork h (e.put b r v i j) :=
  k.beside (e.put_changes b r v i j) (by decide) rfl

theorem corEvent (n : Nat) : d.corWork h (e.corEvent h n) :=
  k.beside (e.event_changes _ _ _ _ _ _) (by decide) (e.event_heads _ _ _ _ _ _)

theorem corIssue (n : Nat) : d.corWork h (Sys2Proof.Machine.corIssue n e h) := by
  induction n generalizing e with
  | zero => exact k
  | succ n ih =>
    unfold Sys2Proof.Machine.corIssue
    split
    · exact k
    · rename_i num tile arc rest hq
      refine ite k (ih ?_)
      set d1 : Dev := { e with reqs := e.reqs ++ [⟨e.freeTag, headB h, latB, e.now, false, true⟩] }
      have h1 : d.corWork h d1 := k.beside (F := [.reqs]) rfl (by decide) rfl
      have h2 := h1.corMod fun c => { c with queue := rest, await := c.await ++ [(num, arc)] }
      exact h2.beside (F := [.fabric]) rfl (by decide) rfl

theorem corStart (x : Ent) (p : Rat × Rat) : d.corWork h (e.corStart h x p) := by
  unfold Dev.corStart
  extract_lets b note o num start d1
  have h1 : d.corWork h d1 := ((k.corMod note).trvMod _).put _ _ _ _ _
  refine ite (((k.corMod note).put _ _ _ _ _).corEvent 2) ?_
  split
  · exact (h1.corMod _).corIssue _
  · exact h1

theorem corAsk : d.corWork h (e.corAsk h) := by
  unfold Dev.corAsk
  extract_lets ms
  refine ite k (foldl _ k fun x m hx => ?_)
  split
  · exact ite (hx.corStart _ _) hx
  · exact hx

end Dev.corWork

/-! Re-planning keeps the moves and their kinds (R106). -/

theorem planPass_kinds (c : Nat) (u : Rat) (ms : List Move) (vs : List Rat) :
    (planPass c u ms vs).1.map Move.kind = ms.map Move.kind := by
  induction ms generalizing u vs with
  | nil => cases vs <;> rfl
  | cons m ms ih =>
    cases vs with
    | nil => rfl
    | cons v vs =>
      unfold planPass
      exact congrArg (m.kind :: ·) (ih _ vs)

theorem replan_kinds (c : Nat) (u : Rat) (ms : List Move) : (replan c u ms).1.map Move.kind = ms.map Move.kind := by
  unfold replan
  split
  · rename_i m rest
    split
    · exact congrArg (m.kind :: ·) (planPass_kinds _ _ _ _)
    · exact planPass_kinds _ _ _ _
  · rfl

end Sys2Proof.Machine
end

section
/-! Fetching records and entering them (R69, R93 to R98, R114). -/

namespace Sys2Proof.Machine

/-! Entries that the Drafter holds. -/

theorem insertEnt_perm (l : List Ent) (e : Ent) : (insertEnt l e).Perm (e :: l) := by
  induction l with
  | nil => exact .refl _
  | cons x t ih =>
    unfold insertEnt
    split
    · exact .refl _
    · exact (ih.cons x).trans (List.Perm.swap e x t)

/-- Closing a run turns the entry kept in hand into one that is posted. -/
theorem Dev.closeRun_head (d : Dev) (h : Fin 32) : (d.closeRun h).heads[h].drf = { d.heads[h].drf with open_ := false } ∧
    (d.closeRun h).heads[h].held ≤ d.heads[h].held := by
  unfold Dev.closeRun
  extract_lets f
  by_cases ho : f.open_ = true
  · rw [if_neg (by simp [ho])]
    have hone : f.open_.toNat = 1 := by rw [ho]; rfl
    split
    · rename_i m hm
      refine ⟨by rw [Dev.drfMod_drf, Dev.post_, Dev.trvMod_drf], ?_⟩
      simp only [Head.held, Trv.drfEnts, Dev.drfMod_drf, Dev.drfMod_trv, Dev.post_, Dev.trvMod_trv, Bool.toNat_false]
      rw [(insertEnt_perm _ _).filter _ |>.length_eq]
      simp only [List.filter_cons, entOf, Bool.not_false, if_true, List.length_cons]
      have hopen : d.heads[h].drf.open_.toNat = 1 := hone
      omega
    · refine ⟨by rw [Dev.drfMod_drf], ?_⟩
      simp only [Head.held, Dev.drfMod_drf, Dev.drfMod_trv, Bool.toNat_false]
      omega
  · have hf : f.open_ = false := by simpa using ho
    rw [if_pos ho]
    refine ⟨?_, le_refl _⟩
    change f = { f with open_ := false }
    rw [← hf]

theorem Dev.closeRun_work (d : Dev) (h : Fin 32) : d.headWork h [.heads] (d.closeRun h) := by
  unfold Dev.closeRun
  extract_lets f
  refine .ite (.refl d h _) ?_
  split
  · exact (d.trvMod_work h _).trans (Dev.drfMod_work _ h _)
  · exact d.drfMod_work h _

theorem Dev.planAll_drf (d : Dev) (h : Fin 32) : ∃ ms, ms.map Move.kind = d.heads[h].drf.moves.map Move.kind ∧
    (d.planAll h).heads[h].drf = { d.heads[h].drf with moves := ms } := by
  unfold Dev.planAll
  extract_lets f r d1
  refine ⟨r.1, replan_kinds _ _ _, ?_⟩
  have h1 : d1.heads[h].drf = { d.heads[h].drf with moves := r.1 } := d.drfMod_drf h _
  split
  · exact h1
  · simp only [Dev.drfEvent, Dev.event_heads]
    exact h1

theorem Dev.planAll_work (d : Dev) (h : Fin 32) : d.headWork h [.regs, .vecs, .heads] (d.planAll h) := by
  unfold Dev.planAll
  extract_lets f r d1
  have h1 : d.headWork h [.regs, .vecs, .heads] d1 := ⟨(d.drfMod_work h _).1.mono (by decide), (d.drfMod_work h _).2⟩
  refine .ite h1 (h1.beside (F := [.regs, .vecs]) ?_ (by decide) (Dev.event_heads _ _ _ _ _ _ _))
  exact (Dev.put_changes d1 _ _ _ _ _).mono (by decide) |>.trans (Dev.event_changes _ _ _ _ _ _ _)

theorem quant_int (n : Int) : quant ((n : Int) : Rat) = n := by
  unfold quant
  have hq : ((q32 : Nat) : Rat) ≠ 0 := by norm_num [q32]
  have hfl : (((n : Rat) * ((q32 : Nat) : Rat)).floor : Int) = n * (q32 : Nat) := by
    have := Rat.floor_intCast (n * ((q32 : Nat) : Int))
    rw [← this]
    push_cast
    rfl
  rw [hfl]
  push_cast
  field_simp

/-- A line ends where it goes to. -/
theorem Seg.line_end (x0 y0 : Rat) (x1 y1 : Int) {len : Rat} (h : len ≠ 0) :
    ((Seg.line x0 y0 x1 y1).at len len).1 = x1 ∧ ((Seg.line x0 y0 x1 y1).at len len).2.1 = y1 := by
  have hx : ∀ a b : Rat, a + (b - a) * len / len = b := fun a b => by field_simp; ring
  simp only [Seg.at, if_neg h, hx, quant_int, and_self]

/-! The commands. -/

/-- Without a load among the waiting commands no bobbin is loaded first (R79). -/
theorem loadsFirst_none (m : Mem) (d : Dev) (b : Nat) (p : List Instr) (h : ∀ i, Instr.bobbinLoad i ∉ p) : loadsFirst m d b p = (m, d) := by
  induction p with
  | nil => rfl
  | cons c p ih =>
    have hp := ih fun i hi => h i (List.mem_cons_of_mem c hi)
    unfold loadsFirst
    split
    · rename_i heq; cases heq
    · rename_i i rest heq
      cases heq
      exact absurd List.mem_cons_self (h i)
    · rename_i x rest hx heq
      cases heq
      exact hp

theorem bindLoads_none (m : Mem) (d : Dev) (h : Fin 32) (p : List Instr) (hp : ∀ i, Instr.bobbinLoad i ∉ p) : bindLoads m d h p = (m, d) := by
  have hfold : ∀ l : List Nat, l.foldl (fun (x : Mem × Dev) b => loadsFirst x.1 x.2 b p) (m, d) = (m, d) := by
    intro l
    induction l with
    | nil => rfl
    | cons b l ih => rw [List.foldl_cons, loadsFirst_none m d b p hp, ih]
  unfold bindLoads
  split
  · rfl
  · exact hfold _

section
variable {s : State} {h : Fin 32}

/-- The head takes from its own list. -/
theorem Dev.onItem_none {d : Dev} (hi : d.ply.heads[h].item = none) : d.onItem h = false := by simp only [Dev.onItem, hi]

theorem Dev.ringFill_none {d : Dev} (m : Mem) (hi : d.ply.heads[h].item = none) : d.ringFill m h = d := by simp only [Dev.ringFill, hi]

theorem exec_moveQueueEntry (hl : s.dev.dead = false) (ht : s.dev.taking h = true) (hw : s.dev.webLayer = false)
    (hi : s.dev.ply.heads[h].item = none) (hg : s.dev.growth h = none) (hn : s.noLoads) :
    exec (.moveQueueEntry h) s = .next { s with dev := ((s.dev.nextEntry h).listEnd h).corAsk h } := by
  change execMoveQueueEntry h s = _
  unfold execMoveQueueEntry
  rw [onLiveMem_next _ _ hl]
  simp only [ht, hw, Dev.ringFill_none s.mem hi, hg, bindLoads_none s.mem s.dev h s.pending hn, not_true_eq_false, Bool.false_eq_true,
    false_and, or_self, if_false]

theorem exec_vectorFetch (hl : s.dev.dead = false) (ht : s.dev.taking h = true) (hw : s.dev.webLayer = false)
    (hn : s.dev.heads[h].drf.nextRec < s.dev.heads[h].drf.listLen)
    (hc : s.dev.heads[h].drf.fetch.length + s.dev.heads[h].drf.items.length < 256)
    (hs : s.dev.sdStatus s.mem (s.dev.heads[h].drf.listAddr + 32 * s.dev.heads[h].drf.nextRec) 32 false = 0) :
    exec (.vectorFetch h) s = .next { s with dev := s.dev.drfMod h fun x => { x with
      fetch := x.fetch ++ [⟨bytesWords (s.mem.bytes (s.dev.heads[h].drf.listAddr + 32 * s.dev.heads[h].drf.nextRec) 32),
        s.dev.heads[h].drf.nextRec, false, false⟩]
      nextRec := x.nextRec + 1, fetchBad := 0 } } := by
  change execVectorFetch h s = _
  unfold execVectorFetch
  rw [onLiveMem_next _ _ hl]
  simp only [ht, hw, hs, not_true_eq_false, Bool.false_eq_true, false_and, or_false, false_or]
  rw [if_neg (by omega)]
  rfl

end

/-- No run is to end before a wait or a rejected record. -/
theorem Dev.listEnd_none (d : Dev) (h : Fin 32) (hr : d.heads[h].drf.inRun = false) : d.listEnd h = d := by
  simp only [Dev.listEnd, hr, Bool.false_eq_true, false_and, if_false]

theorem Dev.corAsk_off (d : Dev) (h : Fin 32) (hc : d.corOn h = false) : d.corAsk h = d := by
  simp only [Dev.corAsk, hc, Bool.false_eq_true, not_false_eq_true, if_true]

theorem Dev.drfMod_congr (d : Dev) (h : Fin 32) {f g : Drf → Drf} (he : f d.heads[h].drf = g d.heads[h].drf) :
    d.drfMod h f = d.drfMod h g := by
  simp only [Dev.drfMod, vmod, he]

section
variable (d : Dev) (h : Fin 32) {r : FRec} {rest : List FRec} (hi : d.ply.heads[h].item = none) (hp : d.heads[h].drf.poly = none)
  (hf : d.heads[h].drf.fetch = r :: rest) (hpo : r.poison = false) (hw : d.heads[h].drf.waits = false)
include hi hf

/-- Taking the first record of the head's own list. -/
theorem Dev.take_one : d.take h 1 = d.drfMod h fun x => { x with fetch := rest } := by
  have hon : d.onItem h = false := Dev.onItem_none hi
  simp only [Dev.take, hon, Bool.false_eq_true, if_false]
  exact d.drfMod_congr h (by rw [hf]; rfl)

theorem Dev.skip_one : d.skipRecs h 1 = d.drfMod h fun x => { x with fetch := rest } := by
  have hon : d.onItem h = false := Dev.onItem_none hi
  simp only [Dev.skipRecs, hon, Bool.false_eq_true, if_false]
  exact d.drfMod_congr h (by rw [hf]; simp)

include hp hpo hw

/-- A record that cannot enter (R69, R96). -/
theorem Dev.nextEntry_rejects (hk : 7 ≤ rkind r.w) (h7 : rkind r.w = 7 → fld (r.w.getD 3 0) 19 8 = 0) :
    d.nextEntry h = (d.drfMod h fun x => { x with fetch := rest }).reject h r 1 := by
  have hon : d.onItem h = false := Dev.onItem_none hi
  have hready : d.ready_ h = r :: rest := by simp only [Dev.ready_, hon, hf, Bool.false_eq_true, if_false]
  simp only [Dev.nextEntry, hp, hw, hready, hpo, Bool.false_eq_true, not_false_eq_true, true_and, if_false, false_or]
  by_cases hk7 : rkind r.w = 7
  · rw [if_pos hk7, h7 hk7, Nat.zero_min, d.skip_one h hi hf]
  · rw [if_neg hk7, if_pos (.inr (.inr (.inl hk))), d.take_one h hi hf]

/-- A jump whose bobbin the running skein names. -/
theorem Dev.nextEntry_jump (hk : rkind r.w = 3) (hb : d.named (fld (r.w.getD 0 0) 11 4) = true) : d.nextEntry h = d.takeJump h r := by
  have hon : d.onItem h = false := Dev.onItem_none hi
  have hready : d.ready_ h = r :: rest := by simp only [Dev.ready_, hon, hf, Bool.false_eq_true, if_false]
  simp only [Dev.nextEntry, hp, hw, hready, hpo, hk, hb, Bool.false_eq_true, not_false_eq_true, true_and, if_false, false_or,
    or_true, not_true_eq_false, false_and]
  rfl

end

theorem Dev.drfMod_heads (d : Dev) (h : Fin 32) (f : Drf → Drf) :
    (d.drfMod h f).heads = vmod d.heads h fun x => { x with drf := f x.drf } := rfl

/-! Event registers (R58, R86). -/

section
variable (d : Dev) (b : Blk) (r en : Reg) (m : Word) (v i : Nat)

theorem Dev.event_kept : d.regsKept (d.event b r en m v i) fun a => a = radr b r i ∨ a = radr hif R.HIF_EVT_PEND (v / 32) := fun a ha => by
  rw [not_or] at ha
  exact d.event_regs b r en m v i a ha.1 ha.2

variable {v b r i} in
theorem Dev.event_get (hv : v < 64) (hb : b ≠ hif) (ho : r.ofs i 0 < 0x1000) : (d.event b r en m v i).get b r i = d.get b r i ||| m := by
  unfold Dev.event
  extract_lets old d1
  have h1 : d1.get b r i = d.get b r i ||| m := Dev.get_put_same _ _ _ _ _ _
  split
  · exact h1
  · rw [Dev.vector_get _ hv _ _ hb ho, h1]

end

theorem headB_ne_hif (h : Fin 32) : headB h ≠ hif := by revert h; decide

/-- What a rejected record of the head's own list leaves (R69, R91, R122). -/
theorem Dev.reject_own (d : Dev) (h : Fin 32) {r : FRec} (hpool : r.pool = false) (hpo : r.poison = false) :
    d.headWork h [.regs, .vecs, .heads, .rep] (d.reject h r 1) ∧
    (d.reject h r 1).heads = vmod d.heads h (fun x => { x with drf := { x.drf with ownDone := x.drf.ownDone + 1 } }) ∧
    (d.reject h r 1).rep.sums = vmod d.rep.sums h (fun x => { x with rejected := x.rejected + 1 }) ∧
    (d.reject h r 1).getB (headB h) R.DRF_EVT 2 = true ∧
    d.regsKept (d.reject h r 1) fun a => a = radr (headB h) R.DRF_EVT ∨ a = radr hif R.HIF_EVT_PEND ((16 + h.val) / 32) := by
  set d1 := (d.sumMod h fun x => { x with rejected := x.rejected + 1 }).list (r.w.getD 1 0) 4 h.val r.pool r.idx 1 with hd1
  have hrej : d.reject h r 1 = (d1.drfEvent h 2).drfMod h fun x => { x with ownDone := x.ownDone + 1 } := by
    simp only [Dev.reject, hpool, hpo, Bool.false_eq_true, if_false, hd1]
  have h1 : d.changes [.rep] d1 := rfl
  have hs1 : d1.rep.sums = vmod d.rep.sums h fun x => { x with rejected := x.rejected + 1 } := rfl
  have hh1 : d1.heads = d.heads := rfl
  have hr1 : d1.regs = d.regs := rfl
  clear_value d1
  have hev : (d1.drfEvent h 2).heads = d1.heads := Dev.event_heads _ _ _ _ _ _ _
  rw [hrej]
  refine ⟨?_, ?_, ?_, ?_, ?_⟩
  · have h0 : d.headWork h [.regs, .vecs, .heads, .rep] d1 := ⟨h1.mono (by decide), fun g _ => by rw [hh1]⟩
    exact (h0.beside (F := [.regs, .vecs]) (Dev.event_changes _ _ _ _ _ _ _) (by decide) hev).step (Dev.drfMod_work _ h _) (by decide)
  · rw [Dev.drfMod_heads, hev, hh1]
  · change (d1.drfEvent h 2).rep.sums = _
    rw [Dev.drfEvent, Dev.event_frame]
    exact hs1
  · change bit ((d1.drfEvent h 2).get (headB h) R.DRF_EVT) 2 = true
    rw [Dev.drfEvent, Dev.event_get _ _ _ (by omega) (headB_ne_hif h) (by decide)]
    exact bit_or_pow _ (by decide)
  · have hk := d1.event_kept (headB h) R.DRF_EVT R.DRF_EVT_EN (wd (2 ^ 2)) (16 + h.val) 0
    exact fun a ha => (hk a ha).trans (by rw [hr1])

/-- A jump closes the run, goes to its target and takes its place at the end of the queue (R95, R114). -/
theorem Dev.pushJump_drf (d : Dev) (h : Fin 32) (x y : Int) (b : BobBuf) (id : Word) (idx : Nat) (pool : Bool) (bob : Nat) (buf : Bool)
    (focus : Int) (done : Nat) (hv : vlen (x - d.heads[h].drf.endX) (y - d.heads[h].drf.endY) ≠ 0) :
    ∃ m : Move, m.kind = .jump ∧ ∃ arc, (d.pushJump h x y b id idx pool bob buf focus done).heads[h].drf = { d.heads[h].drf with
      open_ := false, moves := d.heads[h].drf.moves ++ [m], arcEnd := arc, endX := x, endY := y, runNo := d.heads[h].drf.runNo + 1 } := by
  obtain ⟨hclose, -⟩ := d.closeRun_head h
  set f := d.heads[h].drf with hfd
  obtain ⟨he1, he2⟩ := Seg.line_end f.endX f.endY x y hv
  refine ⟨{ mkMove .jump (.line f.endX f.endY x y) (vlen (x - f.endX) (y - f.endY)) b.prof.vM b id idx pool bob buf focus with
    done := done, arc0 := f.arcEnd, was := f.cap, late := false }, rfl, f.arcEnd + vlen (x - f.endX) (y - f.endY), ?_⟩
  simp only [Dev.pushJump, Dev.push, Dev.drfMod_drf, hclose, mkMove, he1, he2]

theorem Dev.pushJump_held (d : Dev) (h : Fin 32) (x y : Rat) (b : BobBuf) (id : Word) (idx : Nat) (pool : Bool) (bob : Nat) (buf : Bool)
    (focus : Int) (done : Nat) : (d.pushJump h x y b id idx pool bob buf focus done).heads[h].held ≤ d.heads[h].held := by
  obtain ⟨-, hheld⟩ := d.closeRun_head h
  refine le_trans (le_of_eq ?_) hheld
  simp only [Dev.pushJump, Dev.push, Head.held, Dev.drfMod_drf, Dev.drfMod_trv]

theorem Dev.pushJump_work (d : Dev) (h : Fin 32) (x y : Rat) (b : BobBuf) (id : Word) (idx : Nat) (pool : Bool) (bob : Nat) (buf : Bool)
    (focus : Int) (done : Nat) : d.headWork h [.heads] (d.pushJump h x y b id idx pool bob buf focus done) :=
  ((d.closeRun_work h).trans (Dev.drfMod_work _ h _)).trans (Dev.drfMod_work _ h _)

theorem Dev.bind_changes (d : Dev) (b : Nat) : d.changes [.bobs] (d.bind b).1 := by
  unfold Dev.bind
  exact .ite rfl (.refl d _)

/-- A jump that fits enters the queue, from a state `e` in which its bobbin is bound. -/
theorem Dev.jump_enters (d e : Dev) (h : Fin 32) {r : FRec} {rest : List FRec} (bob : Nat) (buf : Bool)
    (x : BobBuf) (hbind : d.changes [.bobs] e) (hi : d.ply.heads[h].item = none)
    (hf : d.heads[h].drf.fetch = r :: rest) (hlen : d.heads[h].drf.moves.length < 32) (hheld : d.heads[h].held ≤ 48)
    (hv : vlen ((rword r.w 4 : Int) - d.heads[h].drf.endX) ((rword r.w 5 : Int) - d.heads[h].drf.endY) ≠ 0) :
    d.headWork h [.regs, .vecs, .bobs, .heads] (d.fits ((e.pushJump h (rword r.w 4 : Int) (rword r.w 5 : Int) x (r.w.getD 1 0) r.idx
      r.pool bob buf (x.int 0x48) 1).take h 1) h) ∧ ∃ ms : List Move,
      ms.map Move.kind = d.heads[h].drf.moves.map Move.kind ++ [.jump] ∧
      ∃ arc, (d.fits ((e.pushJump h (rword r.w 4 : Int) (rword r.w 5 : Int) x (r.w.getD 1 0) r.idx
        r.pool bob buf (x.int 0x48) 1).take h 1) h).heads[h].drf = { d.heads[h].drf with
        open_ := false, moves := ms, arcEnd := arc, endX := (rword r.w 4 : Int), endY := (rword r.w 5 : Int)
        runNo := d.heads[h].drf.runNo + 1, fetch := rest, full := false } := by
  have hheads : e.heads = d.heads := hbind.get Dev.heads
  have hply : e.ply = d.ply := hbind.get Dev.ply
  have hv' : vlen ((rword r.w 4 : Int) - e.heads[h].drf.endX) ((rword r.w 5 : Int) - e.heads[h].drf.endY) ≠ 0 := by
    simp only [hheads]; exact hv
  obtain ⟨m, hmk, arc, hdrf⟩ := e.pushJump_drf h (rword r.w 4) (rword r.w 5) x (r.w.getD 1 0) r.idx r.pool bob buf (x.int 0x48) 1 hv'
  have hheld2 := e.pushJump_held h (rword r.w 4 : Int) (rword r.w 5 : Int) x (r.w.getD 1 0) r.idx r.pool bob buf (x.int 0x48) 1
  have hwork := e.pushJump_work h (rword r.w 4 : Int) (rword r.w 5 : Int) x (r.w.getD 1 0) r.idx r.pool bob buf (x.int 0x48) 1
  simp only [hheads] at hdrf hheld2
  generalize e.pushJump h (rword r.w 4 : Int) (rword r.w 5 : Int) x (r.w.getD 1 0) r.idx r.pool bob buf (x.int 0x48) 1 = p
    at hdrf hheld2 hwork
  have hpp : p.ply = d.ply := (hwork.1.get Dev.ply).trans hply
  have htake : p.take h 1 = p.drfMod h fun x => { x with fetch := rest } :=
    p.take_one h (by simp only [hpp]; exact hi) (by rw [hdrf]; exact hf)
  rw [htake]
  generalize hq : (p.drfMod h fun x => { x with fetch := rest }) = q
  have hqd : q.heads[h].drf = { p.heads[h].drf with fetch := rest } := by simp only [← hq, Dev.drfMod_drf]
  have hqh : q.heads[h].held = p.heads[h].held := by simp only [← hq, Head.held, Dev.drfMod_drf, Dev.drfMod_trv]
  have hqw : p.headWork h [.heads] q := hq ▸ p.drfMod_work h _
  have hfits : d.fits q h = (q.drfMod h fun x => { x with full := false }).planAll h := by
    refine if_pos ⟨?_, ?_⟩
    · rw [hqd, hdrf]
      simp only [List.length_append, List.length_singleton]
      omega
    · rw [hqh]
      exact le_trans hheld2 hheld
  obtain ⟨ms, hms, hplan⟩ := (q.drfMod h fun x => { x with full := false }).planAll_drf h
  rw [hfits]
  have h0 : d.headWork h [.regs, .vecs, .bobs, .heads] e := ⟨hbind.mono (by decide), fun g _ => by simp only [hheads]⟩
  refine ⟨(((h0.step hwork (by decide)).step hqw (by decide)).step (q.drfMod_work h _) (by decide)).step (Dev.planAll_work _ h) (by decide),
    ms, ?_, arc, ?_⟩
  · rw [hms, Dev.drfMod_drf, hqd, hdrf]
    simp only [List.map_append, List.map_cons, List.map_nil, hmk]
  · rw [hplan, Dev.drfMod_drf, hqd, hdrf]

/-- A jump of the queue whose path is covered. -/
theorem Dev.takeJump_covered (d : Dev) (h : Fin 32) {r : FRec}
    (hm : ((d.bind (fld (r.w.getD 0 0) 11 4)).1.bobBuf (fld (r.w.getD 0 0) 11 4) (d.bind (fld (r.w.getD 0 0) 11 4)).2).motionOk = true)
    (hc : d.jumpCovered h (rp (rword r.w 4, rword r.w 5)) = true) : ∃ x : BobBuf, d.takeJump h r =
      d.fits (((d.bind (fld (r.w.getD 0 0) 11 4)).1.pushJump h (rword r.w 4 : Int) (rword r.w 5 : Int) x (r.w.getD 1 0) r.idx r.pool
        (fld (r.w.getD 0 0) 11 4) (d.bind (fld (r.w.getD 0 0) 11 4)).2 (x.int 0x48) 1).take h 1) h := by
  refine ⟨(d.bind (fld (r.w.getD 0 0) 11 4)).1.bobBuf (fld (r.w.getD 0 0) 11 4) (d.bind (fld (r.w.getD 0 0) 11 4)).2, ?_⟩
  simp only [Dev.takeJump, hm, hc, not_true_eq_false, or_self, if_false]
  rfl

/-- Settles O23: the fetch by `exec_vectorFetch`, the jump by `takeJump_enters`, the rejected record by `reject_own`. -/
theorem recordsAreFetchedIntoTheMoveQueue : Obligations.RecordsAreFetchedIntoTheMoveQueue := by
  refine ⟨fun s h hl ht hw hn hc hs => exec_vectorFetch hl ht hw hn hc hs,
    fun s h r rest bob hl ht hw hi hp hf hpo hk hbob hnm hg hmo hcov hlen hno hv hheld hwt => ?jump,
    fun s h r rest hl ht hw hi hp hf hpool hpo hk h7 hg hno hcor hwt hrun => ?rejected,
    fun s h ht hw hi hp hwt hrun hno hcor => ?waits⟩
  case jump =>
    subst hbob
    obtain ⟨x, hjump⟩ := s.dev.takeJump_covered h hmo hcov
    obtain ⟨hwork, ms, hms, arc, hdrf⟩ := s.dev.jump_enters _ h (fld (r.w.getD 0 0) 11 4) (s.dev.bind (fld (r.w.getD 0 0) 11 4)).2 x
      (s.dev.bind_changes _) hi hf hlen hheld hv
    rw [exec_moveQueueEntry hl ht hw hi hg hno, s.dev.nextEntry_jump h hi hp hf hpo hwt hk hnm]
    rw [← hjump] at hwork hdrf
    clear hjump
    generalize s.dev.takeJump h r = e at hwork hdrf ⊢
    have hend : e.listEnd h = e := by
      refine e.listEnd_none h ?_
      have hlast : (ms.getLast?).map Move.kind = some .jump := by rw [← List.getLast?_map, hms, List.getLast?_concat]
      obtain ⟨m, hm, hmk⟩ := Option.map_eq_some_iff.mp hlast
      simp only [Drf.inRun, hdrf, hm, hmk]
      rfl
    rw [hend]
    obtain ⟨hcw, hcd⟩ := (Dev.corWork.refl e h).corAsk
    generalize e.corAsk h = f at hcw hcd ⊢
    have hall : s.dev.headWork h [.regs, .vecs, .bobs, .heads, .reqs, .fabric] f :=
      (show s.dev.headWork h [.regs, .vecs, .bobs, .heads, .reqs, .fabric] e from ⟨hwork.1.mono (by decide), hwork.2⟩).step hcw (by decide)
    have hlenms : ms.length = s.dev.heads[h].drf.moves.length + 1 := by
      have hl := congrArg List.length hms
      simpa using hl
    refine ⟨f, rfl, ?_, ?_, ?_, ?_, ?_, ?_, hall.2⟩
    · exact congrArg (fun x : Dev => { x with
        regs := f.regs, vecs := f.vecs, bobs := f.bobs, heads := f.heads, reqs := f.reqs, fabric := f.fabric }) hall.1
    · rw [hcd, hdrf]
    · rw [hcd, hdrf]; exact hlenms
    · rw [hcd, hdrf]
    · rw [hcd, hdrf]
    · rw [hcd, hdrf]
  case rejected =>
    rw [exec_moveQueueEntry hl ht hw hi hg hno, s.dev.nextEntry_rejects h hi hp hf hpo hwt hk h7]
    obtain ⟨hwork, hheads, hsums, hbit, hkept⟩ := (s.dev.drfMod h fun x => { x with fetch := rest }).reject_own h hpool hpo
    have hd0 : s.dev.changes [.heads] (s.dev.drfMod h fun x => { x with fetch := rest }) := rfl
    have hheads' := hheads.trans (congrArg (vmod · h _) (s.dev.drfMod_heads h _))
    have hr0 : (s.dev.drfMod h fun x => { x with fetch := rest }).regs = s.dev.regs := rfl
    have hs0 : (s.dev.drfMod h fun x => { x with fetch := rest }).rep = s.dev.rep := rfl
    rw [hs0] at hsums
    generalize (s.dev.drfMod h fun x => { x with fetch := rest }) = d0 at *
    generalize d0.reject h r 1 = e at *
    have hdrf : e.heads[h].drf = { s.dev.heads[h].drf with fetch := rest, ownDone := s.dev.heads[h].drf.ownDone + 1 } := by
      simp only [hheads', vmod_same]
    have hkept' : s.dev.regsKept e fun a => a = radr (headB h) R.DRF_EVT ∨ a = radr hif R.HIF_EVT_PEND ((16 + h.val) / 32) :=
      fun a ha => (hkept a ha).trans (by rw [hr0])
    rw [e.listEnd_none h (by rw [hdrf]; exact hrun), e.corAsk_off h ?_]
    · refine ⟨e, rfl, ?_, ?_, hsums, hbit, hkept'⟩
      · exact congrArg (fun x : Dev => { x with regs := e.regs, vecs := e.vecs, heads := e.heads, rep := e.rep })
          ((hd0.mono (by decide)).trans hwork.1)
      · simp only [hheads', vmod, Vector.set_set, Fin.getElem_fin, Vector.getElem_set_self]
    · rw [← hcor]
      have h2 : (16 + h.val) / 32 < 2 := by omega
      refine congrArg (bit · 0) (hkept'.get (headB h) R.COR_CTL 0 0 (not_or.mpr ⟨radr_ne_of_ofs _ _ _ 0 0 0 0 (by decide), ?_⟩))
      refine radr_ne_of_blk _ _ _ _ _ 0 0 0 (headB_ne_hif h) (by decide) ?_
      generalize (16 + h.val) / 32 = i at h2 ⊢
      revert i
      decide
  case waits =>
    by_cases hl : s.dev.dead = true
    · change execMoveQueueEntry h s = _
      unfold execMoveQueueEntry
      exact onLiveMem_dead _ _ hl
    · have hl' : s.dev.dead = false := by simpa using hl
      have hnext : s.dev.nextEntry h = s.dev := by
        simp only [Dev.nextEntry, hp, hwt, if_true]
      change execMoveQueueEntry h s = _
      unfold execMoveQueueEntry
      rw [onLiveMem_next _ _ hl']
      simp only [ht, hw, Dev.ringFill_none s.mem hi, bindLoads_none s.mem s.dev h s.pending hno, not_true_eq_false, Bool.false_eq_true,
        false_and, or_self, if_false, hnext, s.dev.listEnd_none h hrun, s.dev.corAsk_off h hcor]
      split <;> rfl

end Sys2Proof.Machine
end

section
/-! Setpoints, holds and caps of the Drafter (R101, R109 to R113, R116). -/

namespace Sys2Proof.Machine

/-! Registers of the Drafter that the host writes. -/

section
variable (d : Dev) (h : Fin 32)

/-- A cap written is latched with its cycle (R109, R110). -/
theorem Dev.capWrite_spec (v : Word) :
    d.capWrite h v = { d with
      regs := (d.capWrite h v).regs
      heads := d.heads.set h { d.heads[h] with drf := { d.heads[h].drf with caps := d.heads[h].drf.caps ++ [(d.now, v.toNat)] } } } ∧
    (d.capWrite h v).get (headB h) R.DRF_ACC_CAP = v ∧ (d.capWrite h v).getB (headB h) R.DRF_STAT 25 = true ∧
    (∀ k, k ≠ 25 → (d.capWrite h v).getB (headB h) R.DRF_STAT k = d.getB (headB h) R.DRF_STAT k) ∧
    d.regsKept (d.capWrite h v) fun a => a = radr (headB h) R.DRF_ACC_CAP ∨ a = radr (headB h) R.DRF_STAT := by
  have hne : radr (headB h) R.DRF_ACC_CAP ≠ radr (headB h) R.DRF_STAT := radr_ne_of_ofs _ _ _ 0 0 0 0 (by decide)
  set d1 := (d.put (headB h) R.DRF_ACC_CAP v).drfMod h fun x => { x with caps := x.caps ++ [(d.now, v.toNat)] }
  have hd : d.capWrite h v = d1.putB (headB h) R.DRF_STAT 25 true := rfl
  have h1 : ∀ k, d1.getB (headB h) R.DRF_STAT k = d.getB (headB h) R.DRF_STAT k := fun k => d.getB_put_ne v k hne.symm
  refine ⟨rfl, ?_, ?_, fun k hk => ?_, ?_⟩
  · rw [hd, Dev.get_putB_ne _ _ _ hne]
    exact Dev.get_put_same _ _ _ _ _ _
  · rw [hd, Dev.getB_putB_same _ _ _ _ _ _ (by omega)]
  · rw [hd, Dev.getB_putB_other _ _ _ _ _ _ (by omega) hk, h1]
  · have hk : d.regsKept d1 fun a => a = radr (headB h) R.DRF_ACC_CAP ∨ a = radr (headB h) R.DRF_STAT := d.regsKept_put _ _ _ _ _ (.inl rfl)
    exact hk.trans (d1.regsKept_put _ _ _ _ _ (.inr rfl))

end

/-! Cells of a head. -/

section
variable (d : Dev) (i : Fin 256) (f : SCell → SCell)

@[simp] theorem Dev.cellMod_same : (d.cellMod i f).cells[i] = f d.cells[i] := by simp only [Dev.cellMod, vmod_same]

variable {i} in
theorem Dev.cellMod_ne {j : Fin 256} (h : j ≠ i) : (d.cellMod i f).cells[j] = d.cells[j] := by simp only [Dev.cellMod, vmod_ne _ _ h]

/-- What a change of one cell keeps of it, it keeps of every cell. -/
theorem Dev.cellMod_keeps {α : Type} (p : SCell → α) (hf : ∀ c, p (f c) = p c) (j : Fin 256) : p (d.cellMod i f).cells[j] = p d.cells[j] := by
  by_cases h : j = i
  · subst h
    rw [Dev.cellMod_same, hf]
  · rw [d.cellMod_ne f h]

end

theorem headCell_inj (h : Fin 32) {a b : Nat} (ha : a < 6) (hb : b < 6) (he : headCell h a = headCell h b) : a = b := by
  have := congrArg Fin.val he
  simp only [headCell, Fin.val_ofNat] at this
  omega

/-! One servo tick. -/

/-- Work of a Drafter tick that leaves the head's moves and place, and the map that its setpoints go through. -/
structure Dev.tickWork (d : Dev) (h : Fin 32) (e : Dev) : Prop where
  work : d.headWork h [.regs, .heads, .cells, .rep, .ply] e
  moves : e.heads[h].drf.moves = d.heads[h].drf.moves
  x : e.heads[h].drf.x = d.heads[h].drf.x
  y : e.heads[h].drf.y = d.heads[h].drf.y
  tickAt : e.heads[h].drf.tickAt = d.heads[h].drf.tickAt
  live : e.heads[h].trv.live = d.heads[h].trv.live

namespace Dev.tickWork

variable {d e f : Dev} {h : Fin 32}

theorem refl (d : Dev) (h : Fin 32) : d.tickWork h d := ⟨.refl d h _, rfl, rfl, rfl, rfl, rfl⟩

theorem ite {c : Prop} [Decidable c] (k : d.tickWork h e) (k' : d.tickWork h f) : d.tickWork h (if c then e else f) := by
  split <;> assumption

theorem foldl {α : Type} {g : Dev → α → Dev} (l : List α) (k : d.tickWork h e) (hg : ∀ x a, d.tickWork h x → d.tickWork h (g x a)) :
    d.tickWork h (l.foldl g e) := by
  induction l generalizing e with
  | nil => exact k
  | cons a l ih => exact ih (hg e a k)

variable (k : d.tickWork h e)
include k

theorem trans (k' : e.tickWork h f) : d.tickWork h f :=
  ⟨k.work.trans k'.work, k'.moves.trans k.moves, k'.x.trans k.x, k'.y.trans k.y, k'.tickAt.trans k.tickAt, k'.live.trans k.live⟩

/-- A step that leaves the heads alone. -/
theorem beside {F : List Part} (k' : e.changes F f) (hs : F ⊆ [.regs, .heads, .cells, .rep, .ply]) (hh : f.heads = e.heads) : d.tickWork h f :=
  k.trans ⟨⟨k'.mono hs, fun g _ => by rw [hh]⟩, by rw [hh], by rw [hh], by rw [hh], by rw [hh], by rw [hh]⟩

theorem put (b : Blk) (r : Reg) (v : Word) (i j : Nat) : d.tickWork h (e.put b r v i j) := k.beside (e.put_changes b r v i j) (by decide) rfl

theorem cellMod (i : Fin 256) (g : SCell → SCell) : d.tickWork h (e.cellMod i g) := k.beside (F := [.cells]) rfl (by decide) rfl

theorem drfMod {g : Drf → Drf} (hg : ∀ x, (g x).moves = x.moves ∧ (g x).x = x.x ∧ (g x).y = x.y ∧ (g x).tickAt = x.tickAt) :
    d.tickWork h (e.drfMod h g) := by
  obtain ⟨h1, h2, h3, h4⟩ := hg e.heads[h].drf
  exact k.trans ⟨.step (.refl e h _) (e.drfMod_work h g) (by decide), by rw [Dev.drfMod_drf, h1], by rw [Dev.drfMod_drf, h2],
    by rw [Dev.drfMod_drf, h3], by rw [Dev.drfMod_drf, h4], by rw [Dev.drfMod_trv]⟩

theorem trvMod {g : Trv → Trv} (hg : ∀ x, (g x).live = x.live) : d.tickWork h (e.trvMod h g) :=
  k.trans ⟨.step (.refl e h _) (e.trvMod_work h g) (by decide), by rw [Dev.trvMod_drf], by rw [Dev.trvMod_drf],
    by rw [Dev.trvMod_drf], by rw [Dev.trvMod_drf], by rw [Dev.trvMod_trv, hg]⟩

theorem idleCode : d.tickWork h (e.idleCode h) := by
  unfold Dev.idleCode
  exact ite k (ite (k.trvMod fun _ => rfl) (k.trvMod fun _ => rfl))

theorem closeRun : d.tickWork h (e.closeRun h) := by
  unfold Dev.closeRun
  refine ite k ?_
  split
  · refine drfMod ?_ fun _ => ⟨rfl, rfl, rfl, rfl⟩
    exact k.trvMod fun _ => rfl
  · exact k.drfMod fun _ => ⟨rfl, rfl, rfl, rfl⟩

theorem listEnd : d.tickWork h (e.listEnd h) := by
  unfold Dev.listEnd
  exact ite (k.closeRun.drfMod fun _ => ⟨rfl, rfl, rfl, rfl⟩) k

theorem axes : d.tickWork h (e.axes h) := by
  unfold Dev.axes
  refine drfMod ?_ fun _ => ⟨rfl, rfl, rfl, rfl⟩
  exact ite (k.drfMod fun _ => ⟨rfl, rfl, rfl, rfl⟩) k

theorem setSp (i : Fin 256) (sp v a : Rat) : d.tickWork h (e.setSp i sp v a) := k.cellMod i _

theorem idleSp : d.tickWork h (e.idleSp h) := k.foldl _ fun _ _ k => k.cellMod _ _

theorem auxSend : d.tickWork h (e.auxSend h) := k.foldl _ fun _ _ k => k.setSp _ _ _ _

theorem agtDone (idx n : Nat) : d.tickWork h (e.agtDone h idx n) := by
  unfold Dev.agtDone
  split
  · exact k
  · have h1 : ∀ g, d.tickWork h (e.phMod h g) := fun g => k.beside (F := [.ply]) rfl (by decide) rfl
    exact ite ((h1 _).put _ _ _ _ _) (h1 _)

theorem recordDone (pool : Bool) (idx n : Nat) : d.tickWork h (e.recordDone h pool idx n) := by
  unfold Dev.recordDone
  have h1 : ∀ g, d.tickWork h (e.sumMod h g) := fun g => k.beside (F := [.rep]) rfl (by decide) rfl
  exact ite ((h1 _).agtDone _ _) ((h1 _).drfMod fun _ => ⟨rfl, rfl, rfl, rfl⟩)

theorem completions : d.tickWork h (e.completions h) := by
  unfold Dev.completions
  exact (k.foldl _ fun _ _ k => k.recordDone _ _ _).drfMod fun _ => ⟨rfl, rfl, rfl, rfl⟩

end Dev.tickWork

end Sys2Proof.Machine
end

section
/-! Drafter ticks (R101, R111, R112, R165). -/

namespace Sys2Proof.Machine

section
variable (d : Dev) (h : Fin 32)

theorem Dev.adoptCells_work (l : List Nat) (g : Nat → SCell → SCell) :
    d.headWork h [.heads, .cells] (l.foldl (fun (e : Dev) r => e.cellMod (headCell h (3 + r)) (g r)) d) ∧
    (l.foldl (fun (e : Dev) r => e.cellMod (headCell h (3 + r)) (g r)) d).heads = d.heads := by
  induction l generalizing d with
  | nil => exact ⟨.refl d h _, rfl⟩
  | cons a l ih =>
    obtain ⟨hw, hh⟩ := ih (d.cellMod (headCell h (3 + a)) (g a))
    exact ⟨Dev.headWork.trans ⟨Dev.changes.mono (F := [.cells]) rfl (by decide), fun _ _ => rfl⟩ hw, hh⟩

/-- Measured angles are adopted by the axes and the focus; a head with a move queued, or outside a layer, keeps its path (R165). -/
theorem Dev.adopt_spec (hc : d.heads[h].drf.inLayer = false ∨ d.heads[h].drf.moves ≠ []) :
    d.headWork h [.heads, .cells] (d.adopt h) ∧ (d.adopt h).heads[h].trv = d.heads[h].trv ∧
    ∃ a z, (d.adopt h).heads[h].drf = { d.heads[h].drf with auxNow := a, z := z } := by
  unfold Dev.adopt
  extract_lets new d1 d2 f d3
  have h1 : d.headWork h [.heads, .cells] d1 := (Dev.headWork.refl d h _).step (d.drfMod_work h _) (by decide)
  obtain ⟨hw, hh⟩ := d1.adoptCells_work h (List.range 3) fun _ c => { c with adopt := false }
  have h2 : d.headWork h [.heads, .cells] d2 := h1.trans hw
  have hd2 : d2.heads = d1.heads := hh
  obtain ⟨a, hdrf⟩ : ∃ a, d2.heads[h].drf = { f with auxNow := a } := ⟨_, by simp only [hd2, d1, Dev.drfMod_drf]; rfl⟩
  have htrv : d2.heads[h].trv = d.heads[h].trv := by simp only [hd2, d1, Dev.drfMod_trv]
  have hmain : d.headWork h [.heads, .cells] d2 ∧ d2.heads[h].trv = d.heads[h].trv ∧
      ∃ a z, d2.heads[h].drf = { f with auxNow := a, z := z } := ⟨h2, htrv, a, f.z, hdrf⟩
  split
  · rename_i k hk
    by_cases hl : f.inLayer = true
    · have hm : f.moves.isEmpty = false := by
        have := hc.resolve_left (by rw [show d.heads[h].drf = f from rfl, hl]; decide)
        cases hmv : f.moves with
        | nil => exact absurd hmv this
        | cons => rfl
      rw [if_neg (by simp [hl])]
      simp only [hm, Bool.false_eq_true, and_false, if_false]
      by_cases hn : new 2 = true
      · rw [show d3 = d2.drfMod h fun x => { x with z := d.focusAt h } from if_pos hn]
        refine ⟨h2.step (d2.drfMod_work h _) (by decide), by rw [Dev.drfMod_trv, htrv], a, d.focusAt h, ?_⟩
        rw [Dev.drfMod_drf, hdrf]
      · rw [show d3 = d2 from if_neg hn]
        exact hmain
    · rw [if_pos hl]
      exact hmain
  · exact hmain

/-- A move in progress that the tick does not end advances by the tick (R101). -/
theorem runMoves_inside (n : Nat) {m : Move} {ms : List Move} (hm : d.heads[h].drf.moves = m :: ms) (hs : m.started = true)
    (hl : m.laser = false) (hk : m.kind = .jump ∨ m.kind = .runOut ∨ m.kind = .runIn) (ht : m.t + 1 < phasesTime m.phases)
    (hr : ms = [] → d.heads[h].drf.inRun = false) :
    runMoves (n + 1) d h 1 = d.drfMod h fun x => { x with moves := { m with t := m.t + 1 } :: x.moves.drop 1 } := by
  have hsup : ∀ t0 t1, d.supply h t0 t1 = d := fun t0 t1 => by
    unfold Dev.supply
    extract_lets f
    split
    · rename_i m' hm'
      have hm0 : m :: ms = [m'] := hm.symm.trans hm'
      have hf : f.inRun = false := hr (List.cons.inj hm0).2
      simp only [hf, Bool.false_eq_true, false_and, not_false_eq_true, if_true]
    · rfl
  unfold runMoves
  rcases hk with hk | hk | hk <;>
    simp only [hm, hs, hl, hk, hsup, not_true_eq_false, Bool.false_eq_true, if_false, mul_one, if_neg (not_le.mpr ht)]

/-- A head with moves in its queue does not rest (R116). -/
theorem Dev.restTick_busy (hm : d.heads[h].drf.moves ≠ []) : d.restTick h = d := by
  have hm' : d.heads[h].drf.moves.isEmpty = false := by simpa using hm
  simp only [Dev.restTick, hm', Bool.false_eq_true, not_false_eq_true, true_or, if_true]

/-- The sample of a move in progress without laser (R101). -/
theorem Dev.sample_inside {m : Move} {ms : List Move} (hm : d.heads[h].drf.moves = m :: ms) (hs : m.started = true) :
    d.headWork h [.regs, .heads] (d.sample h) ∧ (d.sample h).heads[h].trv.live = d.heads[h].trv.live ∧
    (d.sample h).heads[h].drf.moves = d.heads[h].drf.moves ∧ (d.sample h).heads[h].drf.tickAt = d.heads[h].drf.tickAt ∧
    (d.sample h).heads[h].drf.x = (m.seg.at m.len (phaseAt m.phases m.t).1).1 ∧
    (d.sample h).heads[h].drf.y = (m.seg.at m.len (phaseAt m.phases m.t).1).2.1 := by
  have hsample : ∃ g v w, d.sample h = ((d.drfMod h g).put (headB h) R.DRF_ARC_LO v).put (headB h) R.DRF_ARC_HI w ∧
      (g d.heads[h].drf).moves = d.heads[h].drf.moves ∧ (g d.heads[h].drf).tickAt = d.heads[h].drf.tickAt ∧
      (g d.heads[h].drf).x = (m.seg.at m.len (phaseAt m.phases m.t).1).1 ∧
      (g d.heads[h].drf).y = (m.seg.at m.len (phaseAt m.phases m.t).1).2.1 := by
    unfold Dev.sample
    simp only [hm, hs, not_true_eq_false, if_false]
    exact ⟨_, _, _, rfl, hm, rfl, rfl, rfl⟩
  obtain ⟨g, v, w, he, hg⟩ := hsample
  have hdrf : (d.sample h).heads[h].drf = g d.heads[h].drf := by rw [he]; exact d.drfMod_drf h g
  rw [hdrf]
  refine ⟨?_, by rw [he]; exact congrArg Trv.live (d.drfMod_trv h g), hg⟩
  rw [he]
  exact ((Dev.headWork.refl d h _).step (d.drfMod_work h g) (by decide)).trans ⟨rfl, fun _ _ => rfl⟩

theorem Dev.sendSp_spec {fm : FMap} {k : Skein} (hf : d.fmap h = some fm) (hr : d.running = some k) :
    d.tickWork h (d.sendSp h) ∧ (d.sendSp h).get (headB h) R.DRF_POS_X = wi (rnd d.heads[h].drf.x) ∧
    (d.sendSp h).get (headB h) R.DRF_POS_Y = wi (rnd d.heads[h].drf.y) := by
  unfold Dev.sendSp
  simp only [hf, hr]
  refine ⟨((((((Dev.tickWork.refl d h).setSp _ _ _ _).setSp _ _ _ _).setSp _ _ _ _).put _ _ _ _ _).put _ _ _ _ _).put _ _ _ _ _, ?_, ?_⟩
  · rw [Dev.get_put_ne _ _ _ _ _ _ _ _ _ _ (radr_ne_of_ofs _ _ _ 0 0 0 0 (by decide)),
      Dev.get_put_ne _ _ _ _ _ _ _ _ _ _ (radr_ne_of_ofs _ _ _ 0 0 0 0 (by decide)), Dev.get_put_same]
  · rw [Dev.get_put_ne _ _ _ _ _ _ _ _ _ _ (radr_ne_of_ofs _ _ _ 0 0 0 0 (by decide)), Dev.get_put_same]

end

theorem headB_ne_agt (h : Fin 32) : headB h ≠ agtB h := by revert h; decide

/-- The setpoint shown stays where records complete (R196). -/
theorem Dev.completions_get (d : Dev) (h : Fin 32) (r : Reg) (hr : r.ofs 0 0 < 0x1000) :
    (d.completions h).get (headB h) r = d.get (headB h) r := by
  have hofs : ∀ j, j < 4 → (R.AGT_ITEM_REC).ofs j 0 < 0x1000 := by decide
  have hdone : ∀ (e : Dev) (pool : Bool) (idx n : Nat), (e.recordDone h pool idx n).get (headB h) r = e.get (headB h) r := by
    intro e pool idx n
    unfold Dev.recordDone
    extract_lets d1
    split
    · unfold Dev.agtDone
      split
      · rfl
      · extract_lets d2
        split
        · exact Dev.get_put_ne _ _ _ _ _ _ _ _ _ _ (radr_ne_of_blk _ _ _ _ _ _ _ _ (headB_ne_agt h) hr (hofs _ (Nat.mod_lt _ (by decide))))
        · rfl
    · rfl
  have hfold : ∀ (l : List Move) (e : Dev), (l.foldl (fun (e : Dev) m => e.recordDone h m.pool m.idx m.done) e).get (headB h) r =
      e.get (headB h) r := by
    intro l
    induction l with
    | nil => exact fun _ => rfl
    | cons m l ih => exact fun e => (ih _).trans (hdone e _ _ _)
  exact hfold _ d

end Sys2Proof.Machine
end

section
/-! The Drafter follows the profile (R101, R109 to R113, R116). -/

namespace Sys2Proof.Machine

section
variable (d : Dev) (h : Fin 32)

/-- What a tick begins with: adopted angles, and the tick noted. -/
theorem Dev.tickBegins (hc : d.heads[h].drf.inLayer = false ∨ d.heads[h].drf.moves ≠ []) : ∃ e,
    e = (d.adopt h).drfMod h (fun x => { x with tickAt := some d.tick }) ∧ d.headWork h [.heads, .cells] e ∧
    e.heads[h].trv = d.heads[h].trv ∧
    ∃ a z, e.heads[h].drf = { d.heads[h].drf with auxNow := a, z := z, tickAt := some d.tick } := by
  obtain ⟨hw, ht, a, z, hd⟩ := d.adopt_spec h hc
  refine ⟨_, rfl, hw.step ((d.adopt h).drfMod_work h _) (by decide), by rw [Dev.drfMod_trv, ht], a, z, ?_⟩
  rw [Dev.drfMod_drf, hd]

/-- A tick inside a move that does not end in it (R101, R111). -/
theorem Dev.drafterTick_inside {m : Move} {ms : List Move} {fm : FMap} {k : Skein} (hl : d.heads[h].drf.inLayer = true)
    (hrun : d.headRuns h = true) (ho : d.heads[h].drf.open_ = false ∨ ms ≠ []) (hm : d.heads[h].drf.moves = m :: ms)
    (hs : m.started = true) (hlas : m.laser = false) (hk : m.kind = .jump ∨ m.kind = .runOut ∨ m.kind = .runIn)
    (ht : m.t + 1 < phasesTime m.phases) (hf : d.fmap h = some fm) (hr : d.running = some k) :
    d.headWork h [.regs, .heads, .cells, .rep, .ply] (d.drafterTick h) ∧
    (d.drafterTick h).heads[h].drf.moves = { m with t := m.t + 1 } :: ms ∧
    (d.drafterTick h).heads[h].drf.x = (m.seg.at m.len (phaseAt m.phases (m.t + 1)).1).1 ∧
    (d.drafterTick h).heads[h].drf.y = (m.seg.at m.len (phaseAt m.phases (m.t + 1)).1).2.1 ∧
    (d.drafterTick h).heads[h].drf.tickAt = some d.tick ∧
    (d.drafterTick h).get (headB h) R.DRF_POS_X = wi (rnd (d.drafterTick h).heads[h].drf.x) ∧
    (d.drafterTick h).get (headB h) R.DRF_POS_Y = wi (rnd (d.drafterTick h).heads[h].drf.y) := by
  obtain ⟨e, he, hew, het, a, z, hed⟩ := d.tickBegins h (.inr (by rw [hm]; exact List.cons_ne_nil _ _))
  have hem : e.heads[h].drf.moves = m :: ms := by rw [hed]; exact hm
  have hel : e.heads[h].drf.inLayer = true := by rw [hed]; exact hl
  have herun : e.headRuns h = true := by rw [← hrun]; exact hew.1.get fun x => x.headRuns h
  have hlast : ms = [] → e.heads[h].drf.inRun = false := fun hn => by
    have hopen : e.heads[h].drf.open_ = false := by rw [hed]; exact ho.resolve_right fun hne => hne hn
    have hdw : ¬ m.kind = .dwell := by rintro hd; rw [hd] at hk; simp at hk
    simp only [Drf.inRun, hem, hn, hopen, List.getLast?_singleton, hdw, decide_false, Bool.false_and, Bool.or_false]
  -- The end of a list closes a run and moves nothing.
  have hk0 : e.tickWork h (e.listEnd h) := (Dev.tickWork.refl e h).listEnd
  have hlast0 : ms = [] → (e.listEnd h).heads[h].drf.inRun = false := fun hn => by rw [e.listEnd_none h (hlast hn)]; exact hlast hn
  set d0 := e.listEnd h with hd0
  have hm0 : d0.heads[h].drf.moves = m :: ms := hk0.moves.trans hem
  set d1 := d0.drfMod h fun x => { x with speed := d0.heads[h].drf.speedReq } with hd1
  have hk1 : e.tickWork h d1 := hk0.drfMod fun _ => ⟨rfl, rfl, rfl, rfl⟩
  have hd1d : d1.heads[h].drf = { d0.heads[h].drf with speed := d0.heads[h].drf.speedReq } := by rw [hd1, Dev.drfMod_drf]
  have hm1 : d1.heads[h].drf.moves = m :: ms := by rw [hd1d]; exact hm0
  set d2 := d1.drfMod h fun x => { x with moves := { m with t := m.t + 1 } :: x.moves.drop 1 } with hd2
  have hm2 : d2.heads[h].drf.moves = { m with t := m.t + 1 } :: ms := by rw [hd2, Dev.drfMod_drf, hm1]; rfl
  have hrm : runMoves 70 d1 h 1 = d2 := runMoves_inside d1 h 69 hm1 hs hlas hk ht fun hn => by
    rw [hd1d]
    exact hlast0 hn
  have hw2 : d.headWork h [.regs, .heads, .cells, .rep, .ply] d2 :=
    (((Dev.headWork.refl d h _).step hew (by decide)).trans hk1.work).step (d1.drfMod_work h _) (by decide)
  have ht2 : d2.heads[h].drf.tickAt = some d.tick := by
    rw [hd2, Dev.drfMod_drf]
    exact hk1.tickAt.trans (by rw [hed])
  have hv2 : d2.heads[h].trv.live = d.heads[h].trv.live := by
    rw [hd2, Dev.drfMod_trv, hk1.live, het]
  have hrest : d2.restTick h = d2 := d2.restTick_busy h (by rw [hm2]; exact List.cons_ne_nil _ _)
  clear_value d2
  set d3 := (if d2.heads[h].drf.st = 3 ∧ d2.exclOn ∧ ¬ d2.heads[h].drf.moves.isEmpty ∧ d2.ply.heads[h].req.isSome then
    d2.agtBump h R.AGT_CLRWAIT_US else d2) with hd3
  have hk3 : d2.tickWork h d3 := .ite ((Dev.tickWork.refl d2 h).put _ _ _ _ _) (.refl d2 h)
  have hm3 : d3.heads[h].drf.moves = { m with t := m.t + 1 } :: ms := hk3.moves.trans hm2
  obtain ⟨hws, hls, hms, hts, hxs, hys⟩ := d3.sample_inside h hm3 hs
  have hk4 : (d3.sample h).tickWork h (((d3.sample h).axes h).auxSend h) := (Dev.tickWork.refl _ h).axes.auxSend
  have htick : d.drafterTick h = ((((d3.sample h).axes h).auxSend h).sendSp h).completions h := by
    unfold Dev.drafterTick
    simp only [← he, hel, herun, not_true_eq_false, if_false, ← hd0, hm0, hlas, Bool.false_eq_true, and_false, ← hd1, hrm, hrest]
    rfl
  clear_value d3
  generalize ((d3.sample h).axes h).auxSend h = d4 at hk4 htick
  have hw4 : d.headWork h [.regs, .heads, .cells, .rep, .ply] d4 := ((hw2.trans hk3.work).step hws (by decide)).trans hk4.work
  have hlive : d4.heads[h].trv.live = d.heads[h].trv.live := by rw [hk4.live, hls, hk3.live, hv2]
  obtain ⟨hk5, hpx, hpy⟩ := d4.sendSp_spec h (fm := fm) (k := k) (hlive.trans hf) ((hw4.1.get Dev.running).trans hr)
  have hk6 : d4.tickWork h ((d4.sendSp h).completions h) := hk5.completions
  rw [htick, Dev.completions_get _ _ _ (by decide), Dev.completions_get _ _ _ (by decide), hk6.moves, hk6.x, hk6.y, hk6.tickAt, hpx, hpy]
  exact ⟨hw4.trans hk6.work, by rw [hk4.moves, hms, hm3], by rw [hk4.x, hxs], by rw [hk4.y, hys],
    by rw [hk4.tickAt, hts, hk3.tickAt, ht2], rfl, rfl⟩

/-! A head outside a layer (R165). -/

theorem Dev.idleSp_spec : (d.idleSp h).heads = d.heads ∧ d.changes [.cells] (d.idleSp h) ∧
    (∀ i : Fin 256, (d.idleSp h).cells[i].sp = d.cells[i].sp) ∧ ∀ r, r < 6 → (d.idleSp h).cells[headCell h r].spV = 0 := by
  have hfold : ∀ (l : List Nat) (e : Dev),
      let f := l.foldl (fun (e : Dev) r => e.cellMod (headCell h r) fun c => { c with adopt := false, spV := 0, spA := 0 }) e
      f.heads = e.heads ∧ e.changes [.cells] f ∧ (∀ i : Fin 256, f.cells[i].sp = e.cells[i].sp) ∧
      ∀ r, r ∈ l ∨ e.cells[headCell h r].spV = 0 → f.cells[headCell h r].spV = 0 := by
    intro l
    induction l with
    | nil => exact fun e => ⟨rfl, rfl, fun _ => rfl, fun r hr => hr.resolve_left List.not_mem_nil⟩
    | cons a l ih =>
      intro e
      obtain ⟨h1, h2, h3, h4⟩ := ih (e.cellMod (headCell h a) fun c => { c with adopt := false, spV := 0, spA := 0 })
      refine ⟨h1, Dev.changes.trans rfl h2, fun i => (h3 i).trans (e.cellMod_keeps _ _ SCell.sp (fun _ => by rfl) i), fun r hr => h4 r ?_⟩
      by_cases hra : headCell h r = headCell h a
      · exact .inr (by simp only [hra, Dev.cellMod_same])
      · rcases hr with hr | hr
        · exact .inl ((List.mem_cons.mp hr).resolve_left fun he => hra (by rw [he]))
        · exact .inr (by rw [e.cellMod_ne _ hra]; exact hr)
  obtain ⟨h1, h2, h3, h4⟩ := hfold (List.range 6) d
  exact ⟨h1, h2, h3, fun r hr => h4 r (.inl (List.mem_range.mpr hr))⟩

theorem Dev.auxSend_spec : (d.auxSend h).heads = d.heads ∧ d.changes [.cells] (d.auxSend h) ∧
    ∀ r, r < 3 → (d.auxSend h).cells[headCell h r] = d.cells[headCell h r] := by
  have hfold : ∀ (l : List (Fin 3)) (e : Dev),
      let f := l.foldl (fun (e : Dev) i => e.setSp (headCell h (3 + i.val)) ((e.heads[h].drf.auxNow[i] : Int) : Rat) 0 0) e
      f.heads = e.heads ∧ e.changes [.cells] f ∧ ∀ r, r < 3 → f.cells[headCell h r] = e.cells[headCell h r] := by
    intro l
    induction l with
    | nil => exact fun e => ⟨rfl, rfl, fun _ _ => rfl⟩
    | cons a l ih =>
      intro e
      obtain ⟨h1, h2, h3⟩ := ih (e.setSp (headCell h (3 + a.val)) ((e.heads[h].drf.auxNow[a] : Int) : Rat) 0 0)
      refine ⟨h1, Dev.changes.trans rfl h2, fun r hr => (h3 r hr).trans (e.cellMod_ne _ fun he => ?_)⟩
      have := headCell_inj h (by omega) (by omega) he
      omega
  exact hfold _ d

theorem Dev.axes_spec : d.headWork h [.heads] (d.axes h) ∧ (d.axes h).heads[h].drf.x = d.heads[h].drf.x ∧
    (d.axes h).heads[h].drf.y = d.heads[h].drf.y := by
  have hk : d.tickWork h (d.axes h) := (Dev.tickWork.refl d h).axes
  refine ⟨?_, hk.x, hk.y⟩
  unfold Dev.axes
  have h0 : d.headWork h [.heads] (if d.heads[h].drf.moves.isEmpty then d.takeAux h else d) := .ite (d.drfMod_work h _) (.refl d h _)
  exact h0.trans (Dev.drfMod_work _ h _)

end

theorem Dev.idleCode_spec (d : Dev) (h : Fin 32) : d.headWork h [.heads] (d.idleCode h) ∧
    (d.idleCode h).heads[h].drf = d.heads[h].drf ∧ (d.idleCode h).heads[h].trv.live = d.heads[h].trv.live := by
  refine ⟨?_, ?_, (Dev.tickWork.refl d h).idleCode.live⟩ <;> unfold Dev.idleCode <;> dsimp only
  · exact .ite (.refl d h _) (.ite (d.trvMod_work h _) (d.trvMod_work h _))
  · split
    · rfl
    · split <;> rw [Dev.trvMod_drf]

/-- Adopting a measured angle moves no setpoint of a cell. -/
theorem Dev.adopt_sp (d : Dev) (h : Fin 32) (i : Fin 256) : (d.adopt h).cells[i].sp = d.cells[i].sp := by
  have hfold : ∀ (l : List Nat) (e : Dev),
      (l.foldl (fun (e : Dev) r => e.cellMod (headCell h (3 + r)) fun c => { c with adopt := false }) e).cells[i].sp = e.cells[i].sp := by
    intro l
    induction l with
    | nil => exact fun _ => rfl
    | cons a l ih => exact fun e => (ih _).trans (e.cellMod_keeps _ _ SCell.sp (fun _ => by rfl) i)
  unfold Dev.adopt
  extract_lets new d1 d2 f d3
  have h2 : d2.cells[i].sp = d.cells[i].sp := hfold (List.range 3) d1
  have h3 : d3.cells = d2.cells := by
    simp only [d3]
    split <;> rfl
  split
  · split
    · exact h2
    · have h3i : d3.cells[i].sp = d.cells[i].sp := by simp only [h3]; exact h2
      split <;> exact h3i
  · exact h2

/-- A tick that is due runs, and ends there outside web mode. -/
theorem exec_drafterTick {s : State} {h : Fin 32} (hl : s.dev.dead = false) (hup : s.dev.up (headB h) = true)
    (ht : s.dev.heads[h].drf.tickAt ≠ some s.dev.tick) (hw : ((s.dev.idleCode h).drafterTick h).webLayer = false) :
    exec (.drafterTick h) s = .next { s with dev := (s.dev.idleCode h).drafterTick h } := by
  change execDrafterTick h s = _
  unfold execDrafterTick
  have hout : ((s.dev.idleCode h).drafterTick h).webOut h = false := by simp only [Dev.webOut, hw, Bool.false_and]
  rw [onLiveMem_next _ _ hl, if_neg (by simp only [hup, ht, not_true_eq_false, or_self, not_false_eq_true])]
  simp only [hout, Bool.false_eq_true, if_false]

/-- Settles O24: a tick inside a move by `drafterTick_inside`, the idle head by the rules for its setpoints. -/
theorem drafterFollowsTheProfile : Obligations.DrafterFollowsTheProfile := by
  refine ⟨⟨fun s h m ms hl hup htick hin hweb hrun ho hm hs hlas hk ht hf hr => ?inside, fun s h hl hup htick hin hweb => ?idle,
    fun s h htick => ?again⟩, fun s h on_ ht => ?hold, fun s h v ht => ?cap, fun s h i v ht => ?aux⟩
  case inside =>
    obtain ⟨fm, hfm⟩ := Option.isSome_iff_exists.mp hf
    obtain ⟨k, hk'⟩ := Option.isSome_iff_exists.mp hr
    obtain ⟨hiw, hid, hil⟩ := s.dev.idleCode_spec h
    have hiweb : (s.dev.idleCode h).headRuns h = true := (hiw.1.get fun x => x.headRuns h).trans hrun
    have hitick : (s.dev.idleCode h).tick = s.dev.tick := hiw.1.get Dev.tick
    obtain ⟨hw, hmv, hx, hy, hta, hpx, hpy⟩ := (s.dev.idleCode h).drafterTick_inside h (by rw [hid]; exact hin) hiweb (by rw [hid]; exact ho)
      (by rw [hid]; exact hm) hs hlas hk ht (fm := fm) (k := k) (hil.trans hfm) ((hiw.1.get Dev.running).trans hk')
    have hall := ((Dev.headWork.refl s.dev h _).step hiw (by decide)).trans hw
    refine ⟨_, exec_drafterTick hl hup htick ?_, hmv, hx, hy, hpx, hpy, by rw [hta, hitick], hall.2⟩
    exact (hall.1.get Dev.webLayer).trans hweb
  case idle =>
    obtain ⟨hiw, hid, hil⟩ := s.dev.idleCode_spec h
    set d := s.dev.idleCode h with hd
    have hin' : d.heads[h].drf.inLayer = false := by rw [hid]; exact hin
    obtain ⟨e, he, hew, het, a, z, hed⟩ := d.tickBegins h (.inl hin')
    have hsp : ∀ i : Fin 256, e.cells[i].sp = s.dev.cells[i].sp := fun i => by
      have hic : d.cells = s.dev.cells := hiw.1.get Dev.cells
      rw [← hic, he]
      exact d.adopt_sp h i
    have hel : e.heads[h].drf.inLayer = false := by rw [hed]; exact hin'
    obtain ⟨h1, h2, h3, h4⟩ := e.idleSp_spec h
    obtain ⟨h5, h6, h7⟩ := (e.idleSp h).axes_spec h
    obtain ⟨h8, h9, h10⟩ := ((e.idleSp h).axes h).auxSend_spec h
    have htick' : d.drafterTick h = ((e.idleSp h).axes h).auxSend h := by
      unfold Dev.drafterTick
      simp only [← he, hel, Bool.false_eq_true, not_false_eq_true, if_true]
    have hcells : ((e.idleSp h).axes h).cells = (e.idleSp h).cells := h5.1.get Dev.cells
    have hall : s.dev.headWork h [.heads, .cells] (d.drafterTick h) := by
      rw [htick']
      exact (((((Dev.headWork.refl s.dev h _).step hiw (by decide)).trans hew).beside h2 (by decide) h1).step h5 (by decide)).beside
        h9 (by decide) h8
    have hx := exec_drafterTick hl hup htick (by
      rw [← hd]
      generalize d.drafterTick h = t at hall
      exact (hall.1.get Dev.webLayer).trans hweb)
    rw [← htick'] at h8 h10
    rw [← hd] at hx
    generalize d.drafterTick h = t at hx hall h8 h10
    refine ⟨t, hx, congrArg (fun x : Dev => { x with heads := t.heads, cells := t.cells }) hall.1, ?_, ?_, ?_, ?_, ?_, ?_, hall.2⟩
    · rw [h8, h6, h1, hed, hid]
    · rw [h8, h7, h1, hed, hid]
    · rw [h10 0 (by omega), hcells, h3, hsp]
    · rw [h10 0 (by omega), hcells, h4 0 (by omega)]
    · rw [h10 1 (by omega), hcells, h3, hsp]
    · rw [h10 1 (by omega), hcells, h4 1 (by omega)]
  case again =>
    change execDrafterTick h s = _
    unfold execDrafterTick
    by_cases hl : s.dev.dead = true
    · exact onLiveMem_dead _ _ hl
    · rw [onLiveMem_next _ _ (by simpa using hl), if_pos (.inr htick)]
  case hold =>
    refine ⟨s.dev.putB (headB h) R.DRF_CTL 0 on_, ?_, rfl, ?_, fun k hk => ?_, s.dev.regsKept_put _ _ _ _ _ rfl⟩
    · change execHoldreq h on_ s = _
      unfold execHoldreq
      rw [onLive_next _ _ (Dev.takes_live _ _ _ ht), Dev.hostWrite_takes _ _ _ _ ht]
    · exact Dev.getB_putB_same _ _ _ _ _ _ (by omega)
    · exact Dev.getB_putB_other _ _ _ _ _ _ (by omega) (by omega)
  case cap =>
    refine ⟨s.dev.capWrite h v, ?_, s.dev.capWrite_spec h v⟩
    change execDrfAccCap h v s = _
    unfold execDrfAccCap
    rw [onLive_next _ _ (Dev.takes_live _ _ _ ht), Dev.hostWrite_takes _ _ _ _ ht]
  case aux =>
    change execDrfAux h i v s = _
    unfold execDrfAux
    rw [onLive_next _ _ (Dev.takes_live _ _ _ ht), Dev.hostWrite_takes _ _ _ _ ht]

end Sys2Proof.Machine
end

section
/-! Long operations started by the host (R47, R50). -/

namespace Sys2Proof.Machine

/-- The block of a start has operations of that code (R47). -/
theorem hostStarts_code {c : Instr} {b : Blk} {code tag param : Nat} (hc : hostStarts c = some (b, code, tag, param)) :
    ∃ x, blkKind b = some x ∧ code ∈ opCodes x.1 := by
  have hhead : ∀ h : Fin 32, ∃ x, blkKind (headB h) = some x ∧ opCodes x.1 = [1, 2] := fun h => ⟨_, blkKind_headB h, rfl⟩
  have hservo : ∀ k : Fin 8, (blkKind (blk .servo k.val)).map (opCodes ·.1) = some [1] := by decide
  have hmpv : ∀ h : Fin 32, (blkKind (mpvB h)).map (opCodes ·.1) = some [1] := by decide
  have hlane : ∀ n : Fin 40, (blkKind (laneB n)).map (opCodes ·.1) = some [1] := by decide
  have hmsp : ∀ b : Fin 8, (blkKind (blk .mspin b.val)).map (opCodes ·.1) = some [1] := by decide
  have hsdc : ∀ ch : Fin 2, (blkKind (blk .sdc ch.val)).map (opCodes ·.1) = some [1] := by decide
  have hbch : ∀ k : Fin 8, (blkKind (blk .bchg k.val)).map (opCodes ·.1) = some [1] := by decide
  have hmap : ∀ {b : Blk} {l : List Nat}, (blkKind b).map (opCodes ·.1) = some l → ∀ {n : Nat}, n ∈ l →
      ∃ x, blkKind b = some x ∧ n ∈ opCodes x.1 := fun hb n hn => by
    obtain ⟨x, hx, hl⟩ := Option.map_eq_some_iff.mp hb
    exact ⟨x, hx, by rw [hl]; exact hn⟩
  have hlat : (blkKind latB).map (opCodes ·.1) = some [1, 2, 3] := by decide
  have hmarch : (blkKind march).map (opCodes ·.1) = some [1] := by decide
  have hjrnl : (blkKind jrnl).map (opCodes ·.1) = some [1, 2, 3] := by decide
  have hheadm : ∀ h : Fin 32, (blkKind (headB h)).map (opCodes ·.1) = some [1, 2] := fun h => by rw [blkKind_headB]; rfl
  unfold hostStarts at hc
  split at hc <;> cases hc
  · exact hmap (hheadm _) (by decide)
  · exact hmap (hheadm _) (by decide)
  · exact hmap (hservo _) (by decide)
  · exact hmap (hmpv _) (by decide)
  · exact hmap hlat (by decide)
  · exact hmap hlat (by decide)
  · exact hmap hlat (by decide)
  · exact hmap (hlane _) (by decide)
  · exact hmap (hmsp _) (by decide)
  · exact hmap (hsdc _) (by decide)
  · exact hmap hmarch (by decide)
  · exact hmap (hbch _) (by decide)
  · exact hmap hjrnl (by decide)
  · exact hmap hjrnl (by decide)
  · exact hmap hjrnl (by decide)

/-- A start is a write to OP_CMD of its block. -/
theorem exec_hostStarts {c : Instr} {s : State} {b : Blk} {code tag param : Nat} (hc : hostStarts c = some (b, code, tag, param))
    (ht : s.dev.takes b 0x020) : exec c s = .next { s with dev := s.dev.opStart b code tag param } := by
  have hlive : s.dev.dead = false := s.dev.takes_live _ _ ht
  have hw : s.dev.hostStart b code tag param = s.dev.opStart b code tag param := s.dev.hostWrite_takes _ _ _ ht
  have hon : onLive (fun d => d.hostStart b code tag param) s = .next { s with dev := s.dev.opStart b code tag param } := by
    rw [onLive_next _ _ hlive, hw]
  unfold hostStarts at hc
  split at hc <;> cases hc
  case h_6 =>
    rename_i tag
    change execLatRead (.start tag) s = _
    unfold execLatRead
    rw [onLiveMem_next _ _ hlive]
    simp only [hw]
  all_goals exact hon

/-- OP_PART of a block cleared at the places of a list. -/
def Dev.clearParts (d : Dev) (b : Blk) (l : List Nat) : Dev := l.foldl (fun e i => e.opPart b i 0) d

/-- A start clears the operation's progress words (log 52). -/
theorem Dev.clearParts_spec (d : Dev) (b : Blk) (l : List Nat) :
    d.clearParts b l = { d with regs := (d.clearParts b l).regs } ∧
    (∀ i, i ∈ l ∨ d.get b R.OP_PART i = 0 → (d.clearParts b l).get b R.OP_PART i = 0) ∧
    d.regsKept (d.clearParts b l) (fun a => ∃ i, i ∈ l ∧ a = radr b R.OP_PART i) := by
  induction l generalizing d with
  | nil => exact ⟨rfl, fun i hi => hi.resolve_left List.not_mem_nil, d.regsKept_refl _⟩
  | cons a l ih =>
    obtain ⟨h1, h2, h3⟩ := ih (d.opPart b a 0)
    refine ⟨h1, fun i hi => h2 i ?_, ?_⟩
    · by_cases hia : i = a
      · exact .inr (by rw [hia]; exact Dev.get_put_same _ _ _ _ _ _)
      · refine hi.imp (fun hm => (List.mem_cons.mp hm).resolve_left hia) fun hz => ?_
        refine (Dev.get_put_ne _ _ _ _ _ _ _ _ _ _ (radr_ne_of_ofs _ _ _ _ _ _ _ ?_)).trans hz
        simp only [R.OP_PART, Reg.ofs]
        omega
    · have hp : d.regsKept (d.opPart b a 0) fun x => ∃ i, i ∈ a :: l ∧ x = radr b R.OP_PART i :=
        d.regsKept_put _ _ _ _ _ ⟨a, List.mem_cons_self, rfl⟩
      exact hp.trans (h3.mono fun x ⟨i, hi, hx⟩ => ⟨i, List.mem_cons_of_mem _ hi, hx⟩)

theorem Dev.get_withOps (d : Dev) (l : List OpRec) (b : Blk) (r : Reg) (i j : Nat) : ({ d with ops := l } : Dev).get b r i j = d.get b r i j := rfl

/-- A start at an idle block. -/
theorem Dev.opStart_idle (d : Dev) {b : Blk} {code tag param : Nat} {x : BT × Nat} (hx : blkKind b = some x) (hcode : code ∈ opCodes x.1)
    (hs : d.abandonSlice b true = d) (hidle : d.opState b = 0) :
    d.opStart b code tag param = { d with
      regs := (d.opStart b code tag param).regs, ops := d.ops ++ [⟨b, code, param, none, none, none⟩] } ∧
    (d.opStart b code tag param).get b R.OP_STAT = opWord 1 0 0 tag ∧
    (∀ i, i < 6 → (d.opStart b code tag param).get b R.OP_PART i = 0) ∧
    d.regsKept (d.opStart b code tag param) fun a => a = radr b R.OP_STAT ∨ ∃ i, i < 6 ∧ a = radr b R.OP_PART i := by
  obtain ⟨t, n⟩ := x
  obtain ⟨h1, h2, h3⟩ := (d.put b R.OP_STAT (opWord 1 0 0 tag)).clearParts_spec b (List.range 6)
  obtain ⟨e, he⟩ : ∃ e, e = (d.put b R.OP_STAT (opWord 1 0 0 tag)).clearParts b (List.range 6) := ⟨_, rfl⟩
  obtain ⟨l, hl⟩ : ∃ l, l = e.ops ++ [⟨b, code, param, none, none, none⟩] := ⟨_, rfl⟩
  have hstart : d.opStart b code tag param = { e with ops := l } := by
    unfold Dev.opStart
    rw [if_neg (by rw [hidle]; decide), hx]
    simp only [hs, hcode, decide_true, if_true, he, hl, Dev.clearParts]
  rw [hstart]
  rw [← he] at h1 h2 h3
  clear hstart he
  have hk0 : d.regsKept (d.put b R.OP_STAT (opWord 1 0 0 tag)) fun a => a = radr b R.OP_STAT ∨ ∃ i, i < 6 ∧ a = radr b R.OP_PART i :=
    d.regsKept_put b R.OP_STAT (opWord 1 0 0 tag) 0 0 (.inl rfl)
  have hget0 : (d.put b R.OP_STAT (opWord 1 0 0 tag)).get b R.OP_STAT = opWord 1 0 0 tag := Dev.get_put_same _ _ _ _ _ _
  have hfr : d.put b R.OP_STAT (opWord 1 0 0 tag) = { d with regs := (d.put b R.OP_STAT (opWord 1 0 0 tag)).regs } := rfl
  generalize d.put b R.OP_STAT (opWord 1 0 0 tag) = d0 at h1 h2 h3 hk0 hget0 hfr
  have hk : d.regsKept e fun a => a = radr b R.OP_STAT ∨ ∃ i, i < 6 ∧ a = radr b R.OP_PART i :=
    hk0.trans (h3.mono fun a ⟨i, hi, ha⟩ => .inr ⟨i, List.mem_range.mp hi, ha⟩)
  have hstat : e.get b R.OP_STAT = opWord 1 0 0 tag := by
    refine (h3.get b R.OP_STAT 0 0 ?_).trans hget0
    rintro ⟨i, hi, ha⟩
    exact radr_ne_of_ofs _ _ _ _ _ _ _ (by simp only [R.OP_PART, R.OP_STAT, Reg.ofs]; omega) ha
  have hops : e.ops = d.ops := by rw [h1, hfr]
  refine ⟨?_, ?_, fun i hi => ?_, ?_⟩
  · rw [← hops, ← hl, h1, hfr]
  · rw [Dev.get_withOps, hstat]
  · rw [Dev.get_withOps, h2 i (.inl (List.mem_range.mpr hi))]
  · exact hk

/-- Settles O25: an idle block by the rules for OP_STAT and OP_PART, another by `logErr_logsError`. -/
theorem hostStartsQueueTheOperation : Obligations.HostStartsQueueTheOperation := by
  refine ⟨fun s c b code tag param hc ht hidle => ?_, fun s c b code tag param hc ht hbusy => ?_⟩
  · obtain ⟨x, hx, hcode⟩ := hostStarts_code hc
    have hslice : s.dev.abandonSlice b true = s.dev := Dev.abandonSlice_none _ _ _ ht.2
    exact ⟨s.dev.opStart b code tag param, exec_hostStarts hc ht, s.dev.opStart_idle hx hcode hslice hidle⟩
  · refine ⟨s.dev.logErr 7 (badr b 0x20) false, ?_, s.dev.logErr_frame _ _ _,
      s.dev.logErr_logsError _ _ (by have := badr_lt b 0x20 (by omega); omega)⟩
    rw [exec_hostStarts hc ht]
    simp only [Dev.opStart, hbusy, not_false_eq_true, ne_eq, if_true]

end Sys2Proof.Machine
end

section
/-! Work on one head that leaves what its Traveller shows (R129 to R143). -/

namespace Sys2Proof.Machine

/-- Registers of the Traveller that show where its head stands and what it has fired. -/
def shownRegs : List Reg := [R.TRV_POS_X, R.TRV_POS_Y, R.TRV_STALECNT, R.TRV_FIRED, R.TRV_STAT]

/-- Work on a head that leaves what `v` sees of it, the shown registers and bit `k` of TRV_STAT. -/
structure Dev.headKeeps {α : Type} (F : List Part) (v : Head → α) (k : Nat) (h : Fin 32) (d e : Dev) : Prop where
  work : d.headWork h F e
  view : v e.heads[h] = v d.heads[h]
  regs : ∀ q ∈ shownRegs, q ≠ R.TRV_STAT → e.get (headB h) q = d.get (headB h) q
  stat : e.getB (headB h) R.TRV_STAT k = d.getB (headB h) R.TRV_STAT k

/-- A register of the same head that is none of those shown. -/
theorem shown_ne (h : Fin 32) {r : Reg} {i j : Nat} (hd : ∀ q ∈ shownRegs, q.ofs 0 0 ≠ r.ofs i j) :
    ∀ q ∈ shownRegs, radr (headB h) q ≠ radr (headB h) r i j := fun q hq => radr_ne_of_ofs _ _ _ _ _ _ _ (hd q hq)

theorem shown_ne_blk {h : Fin 32} {b : Blk} {r : Reg} {i j : Nat} (hb : headB h ≠ b) (ho : r.ofs i j < 0x1000) :
    ∀ q ∈ shownRegs, radr (headB h) q ≠ radr b r i j := fun q hq =>
  radr_ne_of_blk _ _ _ _ _ _ _ _ hb ((by decide : ∀ q ∈ shownRegs, q.ofs 0 0 < 0x1000) q hq) ho

/-- What `v` sees of a head is not the code put out, nor the scales of the correction unit. -/
def codesUnseen {α : Type} (v : Head → α) : Prop := ∀ (x : Head) (c : Nat) (a : Int) (cs : List (Nat × Nat)) (df : Option (Int × Nat))
  (ce : Bool) (p : Nat) (s : Rat), v { x with
    trv := { x.trv with code := c, codeAt := a, codes := cs, defer := df, codeEnt := ce, corr := p }
    drf := { x.drf with speedReq := s } } = v x

namespace Dev.headKeeps

variable {α : Type} {F : List Part} {v : Head → α} {k : Nat} {h : Fin 32} {d e f : Dev}

theorem refl (d : Dev) : headKeeps F v k h d d := ⟨.refl d h _, rfl, fun _ _ _ => rfl, rfl⟩

theorem ite {c : Prop} [Decidable c] (r : headKeeps F v k h d e) (r' : headKeeps F v k h d f) : headKeeps F v k h d (if c then e else f) := by
  split <;> assumption

theorem foldl {β : Type} {g : Dev → β → Dev} (l : List β) (r : headKeeps F v k h d e)
    (hg : ∀ x a, headKeeps F v k h d x → headKeeps F v k h d (g x a)) : headKeeps F v k h d (l.foldl g e) := by
  induction l generalizing e with
  | nil => exact r
  | cons a l ih => exact ih (hg e a r)

variable (r : headKeeps F v k h d e)

include r

theorem trans (r' : headKeeps F v k h e f) : headKeeps F v k h d f :=
  ⟨r.work.trans r'.work, r'.view.trans r.view, fun q hq hs => (r'.regs q hq hs).trans (r.regs q hq hs), r'.stat.trans r.stat⟩

/-- A step that touches neither heads nor registers. -/
theorem beside {G : List Part} (r' : e.changes G f) (hs : G ⊆ F) (hh : f.heads = e.heads) (hr : f.regs = e.regs) : headKeeps F v k h d f :=
  r.trans ⟨⟨r'.mono hs, fun g _ => by rw [hh]⟩, by rw [hh], fun q _ _ => Dev.get_of_regs _ _ _ _ (by rw [hr]),
    congrArg (bit · k) (Dev.get_of_regs _ _ _ _ (by rw [hr]))⟩

theorem post (hF : .fabric ∈ F) (c : Cls) (src dst : Blk) (cell port : Option Nat) (body : Body) (st : BitVec 4) (tag : Nat) :
    headKeeps F v k h d (e.post c src dst cell port body st tag) :=
  r.beside (e.post_changes src c dst cell port body st tag) (by simpa using hF) rfl rfl

/-- A step that leaves the heads and the shown registers. -/
theorem ofRegs {G : List Part} (hs : G ⊆ F) (r' : e.changes G f) (hh : f.heads = e.heads) (hr : ∀ q ∈ shownRegs, f.get (headB h) q = e.get (headB h) q) :
    headKeeps F v k h d f :=
  r.trans ⟨⟨r'.mono hs, fun g _ => by rw [hh]⟩, by rw [hh], fun q hq _ => hr q hq, by
    simp only [Dev.getB, hr R.TRV_STAT (by decide)]⟩

variable (hF : [.regs, .heads] ⊆ F)
include hF

theorem put {b : Blk} {g : Reg} {i j : Nat} (hr : ∀ q ∈ shownRegs, radr (headB h) q ≠ radr b g i j) (w : Word) :
    headKeeps F v k h d (e.put b g w i j) :=
  r.ofRegs (fun _ hp => hF (by revert hp; simp; tauto)) (e.put_changes b g w i j) rfl fun q hq => Dev.get_put_ne _ _ _ _ _ _ _ _ _ _ (hr q hq)

theorem vector (hV : .vecs ∈ F) (n : Nat) (hn : n < 64) : headKeeps F v k h d (e.vector n) :=
  r.ofRegs (fun p hp => by rcases List.mem_pair.mp hp with rfl | rfl; exacts [hF (by decide), hV]) (e.vector_changes n) (by rw [Dev.vector_frame]) fun q hq =>
    e.vector_get hn 0 0 (headB_ne_hif h) ((by decide : ∀ q ∈ shownRegs, q.ofs 0 0 < 0x1000) q hq)

theorem event (hV : .vecs ∈ F) {b : Blk} {g en : Reg} {i : Nat} (hr : ∀ q ∈ shownRegs, radr (headB h) q ≠ radr b g i) (m : Word) (n : Nat) (hn : n < 64) :
    headKeeps F v k h d (e.event b g en m n i) := by
  unfold Dev.event
  exact .ite (r.put hF hr _) ((r.put hF hr _).vector hF hV n hn)

theorem trvEvent (hV : .vecs ∈ F) (n : Nat) : headKeeps F v k h d (e.trvEvent h n) := r.event hF hV (shown_ne h (by decide)) _ _ (by omega)

/-- A bit of TRV_STAT other than `k`. -/
theorem putStat (j : Nat) (b : Bool) (hj : j < 32) (hk : k ≠ j) : headKeeps F v k h d (e.putB (headB h) R.TRV_STAT j b) := by
  have hs : [Part.regs] ⊆ F := fun _ hp => hF (by revert hp; simp; tauto)
  refine r.trans ⟨⟨(e.put_changes _ _ _ 0 0).mono hs, fun _ _ => rfl⟩, rfl, fun q hq hne => ?_, Dev.getB_putB_other _ _ _ _ _ _ hj hk⟩
  exact Dev.get_put_ne _ _ _ _ _ _ _ _ _ _ (radr_ne_of_ofs _ _ _ _ _ _ _
    ((by decide : ∀ q ∈ shownRegs, q ≠ R.TRV_STAT → q.ofs 0 0 ≠ R.TRV_STAT.ofs 0 0) q hq hne))

/-- A change of the head that `v` does not see. -/
theorem headMod {g : Head → Head} (hg : ∀ x, v (g x) = v x) : headKeeps F v k h d { e with heads := vmod e.heads h g } := by
  have hs : [Part.heads] ⊆ F := fun _ hp => hF (by revert hp; simp; tauto)
  exact r.trans ⟨(Dev.headWork.refl e h _).step (e.headMod_work h g) hs, by simp only [vmod_same]; exact hg _, fun _ _ _ => rfl, rfl⟩

theorem trvMod {g : Trv → Trv} (hg : ∀ x : Head, v { x with trv := g x.trv } = v x) : headKeeps F v k h d (e.trvMod h g) :=
  r.headMod hF hg

theorem drfMod {g : Drf → Drf} (hg : ∀ x : Head, v { x with drf := g x.drf } = v x) : headKeeps F v k h d (e.drfMod h g) :=
  r.headMod hF hg

theorem corMod {g : Cor → Cor} (hg : ∀ x : Head, v { x with cor := g x.cor } = v x) : headKeeps F v k h d (e.corMod h g) :=
  r.headMod hF hg

variable (hc : codesUnseen v)
include hc

theorem corForce (p s : Nat) : headKeeps F v k h d (e.corForce h p s) := by
  unfold Dev.corForce
  refine ((r.trvMod hF fun x => ?_).drfMod hF fun x => ?_).put hF (shown_ne h (by decide)) _
  · exact hc x x.trv.code x.trv.codeAt x.trv.codes x.trv.defer x.trv.codeEnt p x.drf.speedReq
  · exact hc x x.trv.code x.trv.codeAt x.trv.codes x.trv.defer x.trv.codeEnt x.trv.corr _

/-- The code put out changes. -/
theorem codeTo {t : Trv} (ht : ∃ c a cs df ce, t = { e.heads[h].trv with code := c, codeAt := a, codes := cs, defer := df, codeEnt := ce }) :
    headKeeps F v k h d (e.trvMod h fun _ => t) := by
  obtain ⟨c, a, cs, df, ce, rfl⟩ := ht
  have hs : [Part.heads] ⊆ F := fun _ hp => hF (by revert hp; simp; tauto)
  refine r.trans ⟨(Dev.headWork.refl e h _).step (e.trvMod_work h _) hs, ?_, fun _ _ _ => rfl, rfl⟩
  simp only [Dev.trvMod, vmod_same]
  exact hc e.heads[h] c a cs df ce e.heads[h].trv.corr e.heads[h].drf.speedReq

theorem codeAsk (slot : Int) (c : Nat) (ent : Bool) : headKeeps F v k h d (e.codeAsk h slot c ent) := by
  unfold Dev.codeAsk
  extract_lets t0 t1 merge
  have ht1 : ∃ c a cs df ce, t1 = { e.heads[h].trv with code := c, codeAt := a, codes := cs, defer := df, codeEnt := ce } := by
    simp only [t1]
    split
    · split
      · exact ⟨_, _, _, _, _, rfl⟩
      · exact ⟨_, _, _, _, _, rfl⟩
    · exact ⟨_, _, _, _, _, rfl⟩
  have hmerge : ∀ x b, headKeeps F v k h d x → headKeeps F v k h d (merge x b) := fun x b hx =>
    .ite (hx.put hF (shown_ne h (by decide)) _) hx
  clear_value t1
  obtain ⟨c1, a1, cs1, df1, ce1, rfl⟩ := ht1
  exact .ite (r.codeTo hF hc ⟨_, _, _, _, _, rfl⟩) (.ite (hmerge _ _ (r.codeTo hF hc ⟨_, _, _, _, _, rfl⟩))
    (.ite (hmerge _ _ (r.codeTo hF hc ⟨_, _, _, _, _, rfl⟩)) (r.codeTo hF hc ⟨_, _, _, _, _, rfl⟩)))

theorem reCode (slot : Nat) (ent : Bool) : headKeeps F v k h d (e.reCode h slot ent) := by
  unfold Dev.reCode
  refine .ite (codeAsk ?_ hF hc _ _ _) (r.codeAsk hF hc _ _ _)
  exact .ite (r.put hF (shown_ne h (by decide)) _) r

end Dev.headKeeps

end Sys2Proof.Machine
end

section
/-! Traveller ticks (R124, R129 to R132). -/

namespace Sys2Proof.Machine

/-- What a tick leaves of the measured point. -/
def Head.point (x : Head) : Nat × Nat × Bool × Rat × Rat × Rat × Rat :=
  (x.trv.lastK, x.trv.stale, x.trv.blind, x.trv.px, x.trv.py, x.trv.vx, x.trv.vy)

/-- Work on a head that leaves its measured point. -/
abbrev Dev.pointKept (h : Fin 32) (d e : Dev) : Prop := Dev.headKeeps [.regs, .vecs, .fabric, .heads] Head.point 4 h d e

theorem point_frame : [Part.regs, .heads] ⊆ [Part.regs, .vecs, .fabric, .heads] := by decide

theorem point_codes : codesUnseen Head.point := fun _ _ _ _ _ _ _ _ => rfl

theorem headB_ne_lat (h : Fin 32) : headB h ≠ latB := by revert h; decide

theorem headB_ne_fltc (h : Fin 32) : headB h ≠ fltc := by revert h; decide

namespace Dev.pointKept

variable {h : Fin 32} {d e : Dev} (r : Dev.pointKept h d e)
include r

theorem put {b : Blk} {g : Reg} {i j : Nat} (hr : ∀ q ∈ shownRegs, radr (headB h) q ≠ radr b g i j) (w : Word) :
    Dev.pointKept h d (e.put b g w i j) := Dev.headKeeps.put r point_frame hr w

/-- A register of the head's own block that is none of those shown. -/
theorem own {g : Reg} {i j : Nat} (hd : ∀ q ∈ shownRegs, q.ofs 0 0 ≠ g.ofs i j) (w : Word) : Dev.pointKept h d (e.put (headB h) g w i j) :=
  put r (shown_ne h hd) w

theorem trv {g : Trv → Trv} (hg : ∀ x : Head, Head.point { x with trv := g x.trv } = Head.point x) : Dev.pointKept h d (e.trvMod h g) :=
  Dev.headKeeps.trvMod r point_frame hg

theorem drf (g : Drf → Drf) : Dev.pointKept h d (e.drfMod h g) := Dev.headKeeps.drfMod r point_frame fun _ => rfl

theorem cor (g : Cor → Cor) : Dev.pointKept h d (e.corMod h g) := Dev.headKeeps.corMod r point_frame fun _ => rfl

theorem event (n : Nat) : Dev.pointKept h d (e.trvEvent h n) := Dev.headKeeps.trvEvent r point_frame (by decide) n

theorem raise (kind : Nat) : Dev.pointKept h d (e.raise (headB h) none kind) := by
  have hput : Dev.pointKept h d (if kind < 32 then e.put (headB h) R.FLT_STAT (e.get (headB h) R.FLT_STAT ||| wd (2 ^ kind)) else e) :=
    Dev.headKeeps.ite (own r (by decide) _) r
  have hstop : ∀ x, Dev.pointKept h d x → Dev.pointKept h d (x.vector 0).aliveStop := fun x hx =>
    put (Dev.headKeeps.vector hx point_frame (by decide) 0 (by decide)) (shown_ne_blk (headB_ne_fltc h) (by decide)) _
  unfold Dev.raise Dev.detect
  split
  · exact r
  · dsimp only
    refine Dev.headKeeps.ite (Dev.headKeeps.ite (hstop _ hput) hput) (Dev.headKeeps.post ?_ (by decide) _ _ _ _ _ _ _ _)
    exact (show Dev.pointKept h d (if _ then _ else _) from Dev.headKeeps.ite (hstop _ hput) hput)

theorem reCode (slot : Nat) (ent : Bool) : Dev.pointKept h d (e.reCode h slot ent) := Dev.headKeeps.reCode r point_frame point_codes slot ent

theorem depositSend : Dev.pointKept h d (e.depositSend h) := by
  unfold Dev.depositSend
  dsimp only
  split
  · exact r
  · have h1 : Dev.pointKept h d (e.corIdle h) := Dev.headKeeps.ite r (Dev.headKeeps.corForce r point_frame point_codes _ _)
    exact Dev.headKeeps.post (own (cor h1 _) (by decide) _) (by decide) _ _ _ _ _ _ _ _

theorem depositPart (tile a b : Nat) (fall : Bool) : Dev.pointKept h d (e.depositPart h tile a b fall) := by
  unfold Dev.depositPart
  dsimp only
  have h1 : ∀ (c : Prop) [Decidable c] (g : Cor → Cor), Dev.pointKept h d (if c then e else e.corMod h g) := fun c _ g =>
    Dev.headKeeps.ite r (cor r g)
  exact Dev.headKeeps.ite (depositSend (h1 _ _)) (h1 _ _)

theorem depositTick (n : Nat) : Dev.pointKept h d (e.depositTick h n) := by
  unfold Dev.depositTick
  extract_lets t a b on_ d0 tile d1 cuts
  have h0 : Dev.pointKept h d d0 := cor r _
  have h1 : Dev.pointKept h d d1 := Dev.headKeeps.ite h0 (depositSend h0)
  refine Dev.headKeeps.ite r (Dev.headKeeps.ite (cor h0 _) (Dev.headKeeps.ite (Dev.headKeeps.ite h0 (depositSend h0)) ?_))
  clear_value d1 tile
  split
  · exact Dev.headKeeps.event (put h1 (shown_ne_blk (headB_ne_lat h) (by decide)) _) point_frame (by decide)
      (shown_ne_blk (headB_ne_lat h) (by decide)) _ _ (by decide)
  · have h3 := fun i j k => depositPart (Dev.headKeeps.foldl (([a] ++ cuts).zip cuts) h1 fun _ p hx => depositPart hx i p.1 p.2 true) i j k false
    exact Dev.headKeeps.ite (depositSend (h3 _ _ _)) (h3 _ _ _)

theorem inhibit (slot : Nat) : Dev.pointKept h d (e.inhibit h slot) := by
  unfold Dev.inhibit
  exact Dev.headKeeps.ite r (trv r fun _ => rfl)

theorem forget (n : Nat) : Dev.pointKept h d (e.forget h n) := by
  unfold Dev.forget
  exact cor (drf (trv r fun _ => rfl) _) _

theorem blindAdmit : Dev.pointKept h d (e.blindAdmit h) := by
  unfold Dev.blindAdmit
  dsimp only
  split
  · exact drf r _
  · exact trv r fun _ => rfl

theorem judgeTick (w : Win) : Dev.pointKept h d (e.judgeTick h w) := by
  unfold Dev.judgeTick
  dsimp only
  have h1 : ∀ l m b, Dev.pointKept h d ((e.trvMod h fun t => { t with sched := l, edges := t.edges ++ m, held := b }).putB (headB h) R.TRV_STAT 5 b) :=
    fun l m b => Dev.headKeeps.putStat (trv r fun _ => rfl) point_frame 5 b (by decide) (by decide)
  exact Dev.headKeeps.ite (event (own (h1 _ _ _) (by decide) _) _) (h1 _ _ _)

theorem ramps (w : Win) : Dev.pointKept h d (e.ramps h w) := by
  refine Dev.headKeeps.foldl _ r fun x a hx => ?_
  unfold Dev.rampsOf
  extract_lets
  split
  · exact trv hx fun _ => rfl
  · exact trv hx fun _ => rfl

end Dev.pointKept

theorem Dev.getN_bump (d : Dev) (b : Blk) (r : Reg) (i j : Nat) : (d.bump b r 1 i j).getN b r i j = min 0xFFFFFFFF (d.getN b r i j + 1) := by
  unfold Dev.bump Dev.getN
  rw [Dev.get_put_same, satAdd, wd, BitVec.toNat_ofNat]
  omega

end Sys2Proof.Machine
end

section
/-! What a Traveller tick leaves (R129 to R132). -/

namespace Sys2Proof.Machine

/-- The shown registers of a tick. -/
def Dev.showPoint (e : Dev) (b : Blk) (lo hi dev px py vel : Word) (stale blind : Bool) : Dev :=
  let d2 := ((e.put b R.TRV_ARC_LO lo).put b R.TRV_ARC_HI hi).put b R.TRV_DEV dev
  let d3 := ((d2.put b R.TRV_POS_X px).put b R.TRV_POS_Y py).put b R.TRV_VEL vel
  (if stale then d3.bump b R.TRV_STALECNT else d3).putB b R.TRV_STAT 4 blind

theorem Dev.get_put_off (d : Dev) (b : Blk) (r : Reg) (w : Word) {q : Reg} (h : q.ofs 0 0 ≠ r.ofs 0 0) : (d.put b r w).get b q = d.get b q :=
  Dev.get_put_ne _ _ _ _ _ _ _ _ _ _ (radr_ne_of_ofs _ _ _ 0 0 0 0 h)

theorem Dev.showPoint_spec (e : Dev) (b : Blk) (lo hi dev px py vel : Word) (stale blind : Bool) :
    let f := e.showPoint b lo hi dev px py vel stale blind
    e.changes [.regs] f ∧ f.heads = e.heads ∧ f.get b R.TRV_POS_X = px ∧ f.get b R.TRV_POS_Y = py ∧ f.getB b R.TRV_STAT 4 = blind ∧
    (stale = true → f.getN b R.TRV_STALECNT = min 0xFFFFFFFF (e.getN b R.TRV_STALECNT + 1)) := by
  unfold Dev.showPoint
  extract_lets d2 d3 d4
  have hx : d3.get b R.TRV_POS_X = px := by
    rw [Dev.get_put_off _ _ _ _ (by decide), Dev.get_put_off _ _ _ _ (by decide), Dev.get_put_same]
  have hy : d3.get b R.TRV_POS_Y = py := by rw [Dev.get_put_off _ _ _ _ (by decide), Dev.get_put_same]
  have hc : d3.get b R.TRV_STALECNT = e.get b R.TRV_STALECNT := by
    rw [Dev.get_put_off _ _ _ _ (by decide), Dev.get_put_off _ _ _ _ (by decide), Dev.get_put_off _ _ _ _ (by decide),
      Dev.get_put_off _ _ _ _ (by decide), Dev.get_put_off _ _ _ _ (by decide), Dev.get_put_off _ _ _ _ (by decide)]
  have h3 : e.changes [.regs] d3 := rfl
  have hh3 : d3.heads = e.heads := rfl
  clear_value d3
  cases stale with
  | false =>
    exact ⟨h3.trans rfl, hh3, (Dev.get_put_off _ _ _ _ (by decide)).trans hx, (Dev.get_put_off _ _ _ _ (by decide)).trans hy,
      Dev.getB_putB_same _ _ _ _ _ _ (by decide), fun h => by cases h⟩
  | true =>
    have h4 : e.changes [.regs] (d3.bump b R.TRV_STALECNT) := h3.trans rfl
    have hx4 : (d3.bump b R.TRV_STALECNT).get b R.TRV_POS_X = px := (Dev.get_put_off _ _ _ _ (by decide)).trans hx
    have hy4 : (d3.bump b R.TRV_STALECNT).get b R.TRV_POS_Y = py := (Dev.get_put_off _ _ _ _ (by decide)).trans hy
    have hc4 : (d3.bump b R.TRV_STALECNT).getN b R.TRV_STALECNT = min 0xFFFFFFFF (e.getN b R.TRV_STALECNT + 1) := by
      rw [Dev.getN_bump]
      simp only [Dev.getN, hc]
    have hh4 : (d3.bump b R.TRV_STALECNT).heads = e.heads := hh3
    have hd4 : d4 = (d3.bump b R.TRV_STALECNT).putB b R.TRV_STAT 4 blind := rfl
    rw [hd4]
    generalize d3.bump b R.TRV_STALECNT = d5 at h4 hx4 hy4 hc4 hh4 ⊢
    exact ⟨h4.trans rfl, hh4, (Dev.get_put_off _ _ _ _ (by decide)).trans hx4, (Dev.get_put_off _ _ _ _ (by decide)).trans hy4,
      Dev.getB_putB_same _ _ _ _ _ _ (by decide), fun _ => (congrArg BitVec.toNat (Dev.get_put_off _ _ _ _ (by decide))).trans hc4⟩

/-- A tick takes its point, shows it and counts it where it is stale (R129, R132). -/
theorem Dev.travel_spec (d : Dev) (h : Fin 32) (k : Nat) (x y vx vy : Rat) (stale : Bool) :
    let e := d.travel h k x y vx vy stale
    let run := if stale then d.heads[h].trv.stale + 1 else 0
    d.headWork h [.regs, .vecs, .fabric, .heads] e ∧ e.heads[h].point = (k, run, decide (5 ≤ run), x, y, vx, vy) ∧
    e.get (headB h) R.TRV_POS_X = wi (near x) ∧ e.get (headB h) R.TRV_POS_Y = wi (near y) ∧
    e.getB (headB h) R.TRV_STAT 4 = decide (5 ≤ run) ∧
    (stale = true → e.getN (headB h) R.TRV_STALECNT = min 0xFFFFFFFF (d.getN (headB h) R.TRV_STALECNT + 1)) := by
  unfold Dev.travel
  extract_lets b d0 old sh p v a run blind out d1 n d2 d3 d4 d5 d6 d7 d8 t0 w d9 d10 d11 e run'
  have h0 : Dev.pointKept h d d0 := Dev.pointKept.depositTick (.refl d) _
  have hold : old.stale = d.heads[h].trv.stale := congrArg (fun v => v.2.1) h0.view
  have h1 : d1.heads[h].point = (k, run, blind, x, y, vx, vy) := by simp only [d1, Head.point, Dev.trvMod_trv]
  have hw1 : d.headWork h [.regs, .vecs, .fabric, .heads] d1 := h0.work.step (d0.trvMod_work h _) (by decide)
  have hc1 : d1.get b R.TRV_STALECNT = d.get b R.TRV_STALECNT := h0.regs R.TRV_STALECNT (by decide) (by decide)
  obtain ⟨h4, hh4, hx4, hy4, hs4, hc4⟩ := d1.showPoint_spec b (wd n) (wd (n / 2 ^ 32 % 256)) (wd (near p.2.1).toNat) (wi (near x))
    (wi (near y)) (wi (near (v * 1000))) stale blind
  have hd4 : d1.showPoint b (wd n) (wd (n / 2 ^ 32 % 256)) (wd (near p.2.1).toNat) (wi (near x))
    (wi (near y)) (wi (near (v * 1000))) stale blind = d4 := rfl
  rw [hd4] at h4 hh4 hx4 hy4 hs4 hc4
  clear hd4
  clear_value d1
  have hpt : d4.heads[h].point = (k, run, blind, x, y, vx, vy) := by simp only [hh4, h1]
  have hw4 : d.headWork h [.regs, .vecs, .fabric, .heads] d4 := hw1.beside h4 (by decide) hh4
  have hc4 : stale = true → d4.getN b R.TRV_STALECNT = min 0xFFFFFFFF (d.getN b R.TRV_STALECNT + 1) := fun hst => by
    rw [hc4 hst]
    simp only [Dev.getN, hc1]
  clear_value d4
  -- What follows leaves them.
  have h5 : Dev.pointKept h d4 d5 := .ite (Dev.pointKept.own (.refl d4) (by decide) _) (.refl d4)
  have h6 : Dev.pointKept h d4 d6 := .ite (Dev.pointKept.event (Dev.pointKept.raise h5 _) _) h5
  have h7 : Dev.pointKept h d4 d7 := .ite (Dev.pointKept.blindAdmit h6) h6
  have h8 : Dev.pointKept h d4 d8 := .ite (Dev.pointKept.event (Dev.pointKept.raise h7 _) _) h7
  have h9 : Dev.pointKept h d4 d9 := Dev.pointKept.forget (Dev.pointKept.inhibit h8 _) k
  have h10 : Dev.pointKept h d4 d10 := .ite (Dev.headKeeps.post h9 (by decide) _ _ _ _ _ _ _ _) h9
  have h11 : Dev.pointKept h d4 d11 := .ite h10 (Dev.pointKept.ramps (Dev.pointKept.judgeTick h10 w) w)
  have hall : Dev.pointKept h d4 e := .ite h11 (Dev.pointKept.reCode h11 _ _)
  have hrun : run' = run := by simp only [run, run', hold]
  rw [hrun]
  clear_value e
  refine ⟨hw4.trans hall.work, hall.view.trans hpt, (hall.regs _ (by decide) (by decide)).trans hx4,
    (hall.regs _ (by decide) (by decide)).trans hy4, hall.stat.trans hs4, fun hst => ?_⟩
  exact (congrArg BitVec.toNat (hall.regs R.TRV_STALECNT (by decide) (by decide))).trans (hc4 hst)

/-- The bed point of measured angles (R124, R129). -/
def measured (fm : FMap) (fr : Frame) (x y : Int × Int) : Rat × Rat :=
  let p := fm.fwd ((x.1 : Rat) / 256) ((y.1 : Rat) / 256)
  let q := fr.bed p.x p.y
  (fine q.1, fine q.2)

/-- Its velocity. -/
def measuredDir (fm : FMap) (fr : Frame) (x y : Int × Int) : Rat × Rat :=
  let p := fm.fwd ((x.1 : Rat) / 256) ((y.1 : Rat) / 256)
  let u := ((x.2 : Rat) / 256, (y.2 : Rat) / 256)
  let v := fr.bedDir (p.xa * u.1 + p.xb * u.2) (p.ya * u.1 + p.yb * u.2)
  (quant v.1, quant v.2)

/-- Settles O26: both ticks by `travel_spec`. -/
theorem travellerTicksMeasureOrExtrapolate : Obligations.TravellerTicksMeasureOrExtrapolate := by
  refine ⟨fun s h k x y fm sk hl hm hf hr hw hruns ht => ?_, fun s h hl hruns hhere ht => ?_⟩
  · obtain ⟨hwork, hp, hx, hy, hst, -⟩ := s.dev.travel_spec h k (measured fm sk.frame x y).1 (measured fm sk.frame x y).2
      (measuredDir fm sk.frame x y).1 (measuredDir fm sk.frame x y).2 false
    have hstep : exec (.travellerTick h) s = .next { s with dev := (s.dev.travel h k (measured fm sk.frame x y).1
        (measured fm sk.frame x y).2 (measuredDir fm sk.frame x y).1 (measuredDir fm sk.frame x y).2 false) } := by
      change execTravellerTick h s = _
      unfold execTravellerTick
      have hframe : s.dev.layerFrame = sk.frame := by simp only [Dev.layerFrame, hr]
      rw [onLive_next _ _ hl]
      simp only [hm, hf, hruns, if_true, Dev.when_of _ _ ht, hframe]
      rfl
    generalize s.dev.travel h k (measured fm sk.frame x y).1 (measured fm sk.frame x y).2
        (measuredDir fm sk.frame x y).1 (measuredDir fm sk.frame x y).2 false = e at hwork hp hx hy hst hstep
    simp only [Head.point, Prod.mk.injEq] at hp
    obtain ⟨hk, hs, hb, hpx, hpy, -, -⟩ := hp
    refine ⟨e, hstep, ?_, hk, hs, hb, ?_, ?_, ?_, hst, hwork.2⟩
    · exact congrArg (fun x : Dev => { x with regs := e.regs, vecs := e.vecs, fabric := e.fabric, heads := e.heads }) hwork.1
    · rw [hpx, hpy]; rfl
    · rw [hx, hpx]
    · rw [hy, hpy]
  · obtain ⟨hwork, hp, -, -, -, hcount⟩ := s.dev.travel_spec h (s.dev.heads[h].trv.lastK + 1)
      (s.dev.heads[h].trv.px + s.dev.heads[h].trv.vx) (s.dev.heads[h].trv.py + s.dev.heads[h].trv.vy) s.dev.heads[h].trv.vx
      s.dev.heads[h].trv.vy true
    have hstep : exec (.staleTick h) s = .next { s with dev := (s.dev.travel h (s.dev.heads[h].trv.lastK + 1)
        (s.dev.heads[h].trv.px + s.dev.heads[h].trv.vx) (s.dev.heads[h].trv.py + s.dev.heads[h].trv.vy) s.dev.heads[h].trv.vx
        s.dev.heads[h].trv.vy true) } := by
      change execStaleTick h s = _
      unfold execStaleTick
      rw [onLive_next _ _ hl]
      have hc : (s.dev.trvRuns h && !((s.dev.mirrors h).any fun m => m.1 = s.dev.heads[h].trv.lastK + 1) &&
          !s.dev.inTime h (s.dev.heads[h].trv.lastK + 1)) = true := by rw [hruns, hhere, ht]; rfl
      exact congrArg (fun e => Host.Outcome.next { s with dev := e }) (Dev.when_of _ _ hc)
    generalize s.dev.travel h (s.dev.heads[h].trv.lastK + 1)
      (s.dev.heads[h].trv.px + s.dev.heads[h].trv.vx) (s.dev.heads[h].trv.py + s.dev.heads[h].trv.vy) s.dev.heads[h].trv.vx
      s.dev.heads[h].trv.vy true = e at hwork hp hcount hstep
    simp only [Head.point, if_true, Prod.mk.injEq] at hp
    obtain ⟨hk, hs, hb, hpx, hpy, -, -⟩ := hp
    refine ⟨e, hstep, ?_, hk, hs, hb, hpx, hpy, hcount rfl, hwork.2⟩
    exact congrArg (fun x : Dev => { x with regs := e.regs, vecs := e.vecs, fabric := e.fabric, heads := e.heads }) hwork.1

end Sys2Proof.Machine
end

section
/-! Edges, dwells and codes (R134, R138, R140 to R144, R211). -/

namespace Sys2Proof.Machine

/-- What a firing leaves of the laser: the edges to come, the outputs and the power. -/
def Head.laser (x : Head) : List Edge × Option (Nat × Ent) × Bool × Bool × Bool × Nat :=
  (x.trv.edges, x.trv.dwellAt, x.trv.on_, x.trv.gate, x.trv.inhib, x.trv.pwr)

/-- Work on a head that leaves its laser. -/
abbrev Dev.laserKept (h : Fin 32) (d e : Dev) : Prop := Dev.headKeeps [.regs, .vecs, .ply, .rep, .heads] Head.laser 3 h d e

theorem laser_frame : [Part.regs, .heads] ⊆ [Part.regs, .vecs, .ply, .rep, .heads] := by decide

theorem laser_codes : codesUnseen Head.laser := fun _ _ _ _ _ _ _ _ => rfl

namespace Dev.laserKept

variable {h : Fin 32} {d e : Dev} (r : Dev.laserKept h d e)
include r

theorem trv {g : Trv → Trv} (hg : ∀ x : Head, Head.laser { x with trv := g x.trv } = Head.laser x) : Dev.laserKept h d (e.trvMod h g) :=
  Dev.headKeeps.trvMod r laser_frame hg

theorem own {g : Reg} {i j : Nat} (hd : ∀ q ∈ shownRegs, q.ofs 0 0 ≠ g.ofs i j) (w : Word) : Dev.laserKept h d (e.put (headB h) g w i j) :=
  Dev.headKeeps.put r laser_frame (shown_ne h hd) w

theorem corInteg (i : Int) : Dev.laserKept h d (e.corInteg h i) :=
  own (Dev.headKeeps.corMod r laser_frame fun _ => rfl) (by decide) _

theorem gatePair (slot kind : Nat) : Dev.laserKept h d (e.gatePair h slot kind) := by
  unfold Dev.gatePair
  split
  · refine Dev.headKeeps.ite ?_ (trv r fun _ => rfl)
    exact Dev.headKeeps.trvEvent (own (trv r fun _ => rfl) (by decide) _) laser_frame (by decide) 4
  · exact trv r fun _ => rfl

theorem agtDone (idx n : Nat) : Dev.laserKept h d (e.agtDone h idx n) := by
  have hofs : ∀ j, j < 4 → (R.AGT_ITEM_REC).ofs j 0 < 0x1000 := by decide
  unfold Dev.agtDone
  split
  · exact r
  · have h1 : ∀ g, Dev.laserKept h d (e.phMod h g) := fun g => Dev.headKeeps.beside r (G := [.ply]) rfl (by decide) rfl rfl
    exact Dev.headKeeps.ite (Dev.headKeeps.put (h1 _) laser_frame (shown_ne_blk (headB_ne_agt h) (hofs _ (Nat.mod_lt _ (by decide)))) _) (h1 _)

theorem recordDone (pool : Bool) (idx n : Nat) : Dev.laserKept h d (e.recordDone h pool idx n) := by
  have h1 : ∀ g, Dev.laserKept h d (e.sumMod h g) := fun g => Dev.headKeeps.beside r (G := [.rep]) rfl (by decide) rfl rfl
  unfold Dev.recordDone
  exact Dev.headKeeps.ite (agtDone (h1 _) _ _) (Dev.headKeeps.drfMod (h1 _) laser_frame fun _ => rfl)

theorem completions : Dev.laserKept h d (e.completions h) := by
  unfold Dev.completions
  exact Dev.headKeeps.drfMod (Dev.headKeeps.foldl _ r fun _ _ hx => recordDone hx _ _ _) laser_frame fun _ => rfl

theorem reCode (slot : Nat) (ent : Bool) : Dev.laserKept h d (e.reCode h slot ent) := Dev.headKeeps.reCode r laser_frame laser_codes slot ent

end Dev.laserKept

/-- The laser as one firing leaves it: what it turned on, with LGATE following (R134, R140). -/
structure Dev.laserTo (d : Dev) (h : Fin 32) (on_ : Bool) (pwr : Nat) (e : Dev) : Prop where
  work : d.headWork h [.regs, .vecs, .ply, .rep, .heads] e
  laser : e.heads[h].laser = (d.heads[h].trv.edges, d.heads[h].trv.dwellAt, on_, on_ && !d.heads[h].trv.inhib, d.heads[h].trv.inhib, pwr)
  stat : e.getB (headB h) R.TRV_STAT 3 = (on_ && !d.heads[h].trv.inhib)
  fired : e.get (headB h) R.TRV_FIRED = d.get (headB h) R.TRV_FIRED

theorem Dev.laserTo.keeps {d e f : Dev} {h : Fin 32} {on_ : Bool} {pwr : Nat} (r : d.laserTo h on_ pwr e) (k : Dev.laserKept h e f) :
    d.laserTo h on_ pwr f :=
  ⟨r.work.trans k.work, k.view.trans r.laser, k.stat.trans r.stat, (k.regs _ (by decide) (by decide)).trans r.fired⟩

section
variable (d : Dev) (h : Fin 32)

/-- LGATE takes the level of the state in force. -/
theorem Dev.gateNow_spec (slot : Nat) : d.laserTo h d.heads[h].trv.on_ d.heads[h].trv.pwr (d.gateNow h slot) := by
  unfold Dev.gateNow
  extract_lets t x
  refine ⟨?_, ?_, Dev.getB_putB_same _ _ _ _ _ _ (by decide), ?_⟩
  · exact ((Dev.headWork.refl d h _).step (d.trvMod_work h _) (by decide)).beside (F := [.regs]) (Dev.put_changes _ _ _ _ 0 0) (by decide) rfl
  · have hg := d.trvMod_trv h fun t => t.gateTo slot t.level (min 0x10000 (x.nat 0x100)) (fld (x.word 8) 7 0)
    exact congrArg (fun t : Trv => (t.edges, t.dwellAt, t.on_, t.gate, t.inhib, t.pwr)) hg
  · exact Dev.get_putB_ne _ _ _ (radr_ne_of_ofs _ _ _ 0 0 0 0 (by decide))

/-- A firing that changes what is on, then LGATE, code and pair. -/
theorem Dev.laserTo_fires {e : Dev} {on_ : Bool} {pwr : Nat} (hw : d.headWork h [.regs, .vecs, .ply, .rep, .heads] e)
    (hl : ∃ g, e.heads[h].laser = (d.heads[h].trv.edges, d.heads[h].trv.dwellAt, on_, g, d.heads[h].trv.inhib, pwr))
    (hf : e.get (headB h) R.TRV_FIRED = d.get (headB h) R.TRV_FIRED) (slot kind : Nat) (ent : Bool) :
    d.laserTo h on_ pwr (((e.gateNow h slot).reCode h slot ent).gatePair h slot kind) := by
  obtain ⟨g, hl⟩ := hl
  simp only [Head.laser, Prod.mk.injEq] at hl
  obtain ⟨h1, h2, h3, h4, h5, h6⟩ := hl
  obtain ⟨gw, gl, gs, gf⟩ := e.gateNow_spec h slot
  have hg : d.laserTo h on_ pwr (e.gateNow h slot) := ⟨hw.trans gw, by rw [gl, h1, h2, h3, h5, h6], by rw [gs, h3, h5], gf.trans hf⟩
  exact hg.keeps (Dev.laserKept.gatePair (Dev.laserKept.reCode (.refl _) slot ent) slot kind)

/-- The laser goes off (R134). -/
theorem Dev.fireOff_spec (e : Ent) (slot : Nat) : d.laserTo h false d.heads[h].trv.pwr (d.fireOff h e slot) := by
  unfold Dev.fireOff
  extract_lets keep d1 d2 d3
  set d0 := d.trvMod h fun t => { t with on_ := false, run := none, fi := none, fo := none } with hd0
  have h0 : d.headWork h [.regs, .vecs, .ply, .rep, .heads] d0 := (Dev.headWork.refl d h _).step (d.trvMod_work h _) (by decide)
  have h1 : Dev.laserKept h d0 d1 := Dev.headKeeps.corForce (.refl d0) laser_frame laser_codes _ _
  have h2 : Dev.laserKept h d0 d2 := Dev.headKeeps.ite (Dev.laserKept.corInteg h1 _) h1
  have h3 : Dev.laserKept h d0 d3 := Dev.headKeeps.beside h2 (G := [.ply]) rfl (by decide) rfl rfl
  refine d.laserTo_fires h (h0.trans h3.work) ⟨d.heads[h].trv.gate, h3.view.trans ?_⟩ ?_ slot e.kind false
  · simp only [Head.laser, hd0, Dev.trvMod_trv]
  · exact h3.regs _ (by decide) (by decide)

/-- The laser goes on for a mark (R134). -/
theorem Dev.fireOn_spec (e : Ent) (slot : Nat) (hk : e.kind = 4) : d.laserTo h true e.pwr (d.fireOn h e slot) := by
  unfold Dev.fireOn
  extract_lets r step off rj fo d1 d2 dw d3
  have h1 : d.headWork h [.regs, .vecs, .ply, .rep, .heads] d1 := (Dev.headWork.refl d h _).step (d.trvMod_work h _) (by decide)
  have hl1 : d1.heads[h].laser = (d.heads[h].trv.edges, d.heads[h].trv.dwellAt, true, d.heads[h].trv.gate, d.heads[h].trv.inhib, e.pwr) := by
    simp only [Head.laser, d1, Dev.trvMod_trv]
  have hf1 : d1.get (headB h) R.TRV_FIRED = d.get (headB h) R.TRV_FIRED := rfl
  have h2 : Dev.laserKept h d1 d2 := by
    simp only [d2]
    split
    · exact Dev.headKeeps.beside (.refl d1) (G := [.ply]) rfl (by decide) rfl rfl
    · exact .refl d1
  have h3 : d3 = d2 := by
    simp only [d3, hk]
  rw [h3]
  clear_value d1 d2
  exact d.laserTo_fires h (h1.trans h2.work) ⟨_, h2.view.trans hl1⟩ ((h2.regs _ (by decide) (by decide)).trans hf1) slot e.kind true

/-- An entry that turns the laser on or off: counted, and what is done with it (R134, R140). -/
theorem Dev.fire_spec (x : Edge) (hk : x.ent.kind = 4 ∨ x.ent.kind = 1 ∨ x.ent.kind = 6) :
    ∃ pwr, d.headWork h [.regs, .vecs, .ply, .rep, .heads] (d.fire h x) ∧
    (d.fire h x).heads[h].laser = (d.heads[h].trv.edges, d.heads[h].trv.dwellAt, decide (x.ent.kind = 4),
      decide (x.ent.kind = 4) && !d.heads[h].trv.inhib, d.heads[h].trv.inhib, pwr) ∧
    (x.ent.kind = 4 → pwr = x.ent.pwr) ∧
    (d.fire h x).getB (headB h) R.TRV_STAT 3 = (decide (x.ent.kind = 4) && !d.heads[h].trv.inhib) ∧
    (d.fire h x).getN (headB h) R.TRV_FIRED = min 0xFFFFFFFF (d.getN (headB h) R.TRV_FIRED + 1) := by
  set d1 := d.bump (headB h) R.TRV_FIRED with hd1
  have h1w : d.headWork h [.regs, .vecs, .ply, .rep, .heads] d1 :=
    (Dev.headWork.refl d h _).beside (F := [.regs]) (Dev.put_changes _ _ _ _ 0 0) (by decide) rfl
  have hh1 : d1.heads = d.heads := rfl
  have hf1 : d1.getN (headB h) R.TRV_FIRED = min 0xFFFFFFFF (d.getN (headB h) R.TRV_FIRED + 1) := Dev.getN_bump _ _ _ _ _
  set d2 := if x.late then (d1.bump (headB h) R.TRV_LATECNT).trvEvent h 0 else d1 with hd2
  have h2 : Dev.laserKept h d1 d2 := Dev.headKeeps.ite
    (Dev.headKeeps.trvEvent (Dev.laserKept.own (.refl d1) (by decide) _) laser_frame (by decide) 0) (.refl d1)
  have hv2 := h2.view
  simp only [Head.laser, hh1, Prod.mk.injEq] at hv2
  obtain ⟨v1, v2, v3, v4, v5, v6⟩ := hv2
  -- What is done with the entry, and the completions after it.
  have hfin : ∀ {on_ : Bool} {pwr : Nat} {e : Dev}, d2.laserTo h on_ pwr e → (x.ent.kind = 4 → pwr = x.ent.pwr) → on_ = decide (x.ent.kind = 4) →
      d.fire h x = e.completions h → ∃ pwr, d.headWork h [.regs, .vecs, .ply, .rep, .heads] (d.fire h x) ∧
      (d.fire h x).heads[h].laser = (d.heads[h].trv.edges, d.heads[h].trv.dwellAt, decide (x.ent.kind = 4),
        decide (x.ent.kind = 4) && !d.heads[h].trv.inhib, d.heads[h].trv.inhib, pwr) ∧
      (x.ent.kind = 4 → pwr = x.ent.pwr) ∧
      (d.fire h x).getB (headB h) R.TRV_STAT 3 = (decide (x.ent.kind = 4) && !d.heads[h].trv.inhib) ∧
      (d.fire h x).getN (headB h) R.TRV_FIRED = min 0xFFFFFFFF (d.getN (headB h) R.TRV_FIRED + 1) := by
    intro on_ pwr e he hp hon hx
    have hc : d2.laserTo h on_ pwr (e.completions h) := he.keeps (Dev.laserKept.completions (.refl e))
    rw [hx]
    refine ⟨pwr, (h1w.trans h2.work).trans hc.work, ?_, hp, ?_, ?_⟩
    · rw [hc.laser, v1, v2, v5, hon]
    · rw [hc.stat, v5, hon]
    · exact (congrArg BitVec.toNat (hc.fired.trans (h2.regs _ (by decide) (by decide)))).trans hf1
  rcases hk with hk | hk | hk
  · refine hfin (d2.fireOn_spec h x.ent x.slot hk) (fun _ => rfl) (by rw [hk]; rfl) ?_
    unfold Dev.fire
    simp only [hk, ← hd1, ← hd2]
  · refine hfin (d2.fireOff_spec h x.ent x.slot) (fun h4 => by rw [hk] at h4; cases h4) (by rw [hk]; rfl) ?_
    unfold Dev.fire
    simp only [hk, ← hd1, ← hd2]
  · refine hfin (d2.fireOff_spec h x.ent x.slot) (fun h4 => by rw [hk] at h4; cases h4) (by rw [hk]; rfl) ?_
    unfold Dev.fire
    simp only [hk, ← hd1, ← hd2]

end

/-- The first step of a ramp or fade, and the code that follows it. -/
theorem Dev.stepCode (d : Dev) (h : Fin 32) {α : Type} (v : Head → α) (hc : codesUnseen v) (g : Trv → Trv) (w : α) (slot : Nat)
    (hv : ∀ x : Head, x.trv = g d.heads[h].trv → v x = w) :
    let e := d.trvMod h g
    let f := if e.heads[h].trv.level then e.reCode h slot false else e
    f = { d with regs := f.regs, heads := f.heads } ∧ v f.heads[h] = w ∧ ∀ g : Fin 32, g ≠ h → f.heads[g] = d.heads[g] := by
  extract_lets e f
  have he : d.headWork h [.regs, .heads] e := (Dev.headWork.refl d h _).step (d.trvMod_work h g) (by decide)
  have hve : v e.heads[h] = w := hv _ (d.trvMod_trv h g)
  have hf : Dev.headKeeps [.regs, .heads] v 3 h e f := .ite (Dev.headKeeps.reCode (.refl e) (by decide) hc slot false) (.refl e)
  clear_value f e
  have hw := he.trans hf.work
  exact ⟨congrArg (fun x : Dev => { x with regs := f.regs, heads := f.heads }) hw.1, hf.view.trans hve, hw.2⟩

/-- Settles O27: firings by `fire_spec`, steps by `stepCode`. -/
theorem edgesAndCodesDriveTheLaser : Obligations.EdgesAndCodesDriveTheLaser := by
  refine ⟨⟨fun s h x xs hl he ht hk => ?edge, fun s h n e hl hd ht hk => ?dwell⟩, fun s h x xs hl hr ht hmine => ?ramp,
    fun s h x xs hl hr ht hmine => ?fade, fun s h at_ c hl hd ht => ?code⟩
  case edge =>
    obtain ⟨pwr, hw, hlas, hp, hst, hf⟩ := (s.dev.trvMod h fun t => { t with edges := xs }).fire_spec h x (hk.imp_right .inl)
    have hstep : exec (.entryFire h) s = .next { s with dev := (s.dev.trvMod h fun t => { t with edges := xs }).fire h x } := by
      change execEntryFire h s = _
      unfold execEntryFire
      rw [onLive_next _ _ hl]
      simp only [he, Dev.when_of _ _ (decide_eq_true ht)]
    have h0 := s.dev.trvMod_work h fun t => { t with edges := xs }
    have hall := ((Dev.headWork.refl s.dev h [.regs, .vecs, .ply, .rep, .heads]).step h0 (by decide)).trans hw
    have hf0 : (s.dev.trvMod h fun t => { t with edges := xs }).getN (headB h) R.TRV_FIRED = s.dev.getN (headB h) R.TRV_FIRED := rfl
    rw [Dev.trvMod_trv] at hlas hst
    simp only [Head.laser, Prod.mk.injEq] at hlas
    obtain ⟨h1, -, h3, h4, -, h6⟩ := hlas
    generalize (s.dev.trvMod h fun t => { t with edges := xs }).fire h x = f at *
    refine ⟨f, hstep, ?_, h1, h3, h4, fun h => h6.trans (hp h), hst, hf.trans (by rw [hf0]), hall.2⟩
    exact congrArg (fun x : Dev => { x with regs := f.regs, vecs := f.vecs, ply := f.ply, rep := f.rep, heads := f.heads }) hall.1
  case dwell =>
    obtain ⟨pwr, hw, hlas, -, hst, -⟩ := (s.dev.trvMod h fun t => { t with dwellAt := none }).fire_spec h ⟨e, n, false⟩ (.inr (.inr hk))
    have hstep : exec (.dwellOff h) s = .next { s with dev := (s.dev.trvMod h fun t => { t with dwellAt := none }).fire h ⟨e, n, false⟩ } := by
      change execDwellOff h s = _
      unfold execDwellOff
      rw [onLive_next _ _ hl]
      simp only [hd, Dev.when_of _ _ (decide_eq_true ht)]
    have h0 := s.dev.trvMod_work h fun t => { t with dwellAt := none }
    have hall := ((Dev.headWork.refl s.dev h [.regs, .vecs, .ply, .rep, .heads]).step h0 (by decide)).trans hw
    rw [Dev.trvMod_trv] at hlas hst
    simp only [Head.laser, Prod.mk.injEq, hk] at hlas
    obtain ⟨-, h2, h3, h4, -, -⟩ := hlas
    simp only [hk] at hst
    generalize (s.dev.trvMod h fun t => { t with dwellAt := none }).fire h ⟨e, n, false⟩ = f at *
    refine ⟨f, hstep, ?_, h2, h3, h4, hst, hall.2⟩
    exact congrArg (fun x : Dev => { x with regs := f.regs, vecs := f.vecs, ply := f.ply, rep := f.rep, heads := f.heads }) hall.1
  case ramp =>
    set d1 := s.dev.trvMod h fun t => { t with ramps := xs } with hd1
    have ht1 : d1.heads[h].trv = { s.dev.heads[h].trv with ramps := xs } := s.dev.trvMod_trv h _
    have hw1 := s.dev.trvMod_work h fun t => { t with ramps := xs }
    obtain ⟨hfr, hv, ho⟩ := d1.stepCode h (fun x : Head => (x.trv.ramps, x.trv.ri, x.trv.rj)) (fun _ _ _ _ _ _ _ _ => rfl)
      (fun t => if x.on_ then { t with ri := x.index } else { t with rj := x.index })
      (xs, if x.on_ then x.index else s.dev.heads[h].trv.ri, if x.on_ then s.dev.heads[h].trv.rj else x.index) x.slot
      (fun y hy => by
        rw [hy, ht1]
        split <;> rfl)
    have hstep : exec (.rampStep h) s = .next { s with dev := (
        if (d1.trvMod h fun t => if x.on_ then { t with ri := x.index } else { t with rj := x.index }).heads[h].trv.level then
          (d1.trvMod h fun t => if x.on_ then { t with ri := x.index } else { t with rj := x.index }).reCode h x.slot false
        else d1.trvMod h fun t => if x.on_ then { t with ri := x.index } else { t with rj := x.index }) } := by
      change execRampStep h s = _
      unfold execRampStep
      rw [onLive_next _ _ hl]
      simp only [hr, Dev.when_of _ _ (decide_eq_true ht), hmine, not_true_eq_false, if_false, hd1]
    generalize (if (d1.trvMod h fun t => if x.on_ then { t with ri := x.index } else { t with rj := x.index }).heads[h].trv.level then
        (d1.trvMod h fun t => if x.on_ then { t with ri := x.index } else { t with rj := x.index }).reCode h x.slot false
      else d1.trvMod h fun t => if x.on_ then { t with ri := x.index } else { t with rj := x.index }) = f at hfr hv ho hstep
    simp only [Prod.mk.injEq] at hv
    obtain ⟨hv1, hv2, hv3⟩ := hv
    refine ⟨f, hstep, hfr, hv1, ?_, fun g hg => (ho g hg).trans (hw1.2 g hg)⟩
    split
    · rename_i hx
      exact ⟨hv2.trans (if_pos hx), hv3.trans (if_pos hx)⟩
    · rename_i hx
      exact ⟨hv3.trans (if_neg hx), hv2.trans (if_neg hx)⟩
  case fade =>
    set d1 := s.dev.trvMod h fun t => { t with fades := xs } with hd1
    have ht1 : d1.heads[h].trv = { s.dev.heads[h].trv with fades := xs } := s.dev.trvMod_trv h _
    have hw1 := s.dev.trvMod_work h fun t => { t with fades := xs }
    obtain ⟨hfr, hv, ho⟩ := d1.stepCode h (fun x : Head => (x.trv.fades, x.trv.fi, x.trv.fo)) (fun _ _ _ _ _ _ _ _ => rfl)
      (fun t => if x.on_ then { t with fi := (if x.index < 64 then some x.index else none) } else { t with fo := (if x.index < 64 then some x.index else none) })
      (xs, if x.on_ then (if x.index < 64 then some x.index else none) else s.dev.heads[h].trv.fi, if x.on_ then s.dev.heads[h].trv.fo else (if x.index < 64 then some x.index else none)) x.slot
      (fun y hy => by
        rw [hy, ht1]
        split <;> rfl)
    have hstep : exec (.stitchStep h) s = .next { s with dev := (
        if (d1.trvMod h fun t => if x.on_ then { t with fi := (if x.index < 64 then some x.index else none) } else { t with fo := (if x.index < 64 then some x.index else none) }).heads[h].trv.level then
          (d1.trvMod h fun t => if x.on_ then { t with fi := (if x.index < 64 then some x.index else none) } else { t with fo := (if x.index < 64 then some x.index else none) }).reCode h x.slot false
        else d1.trvMod h fun t => if x.on_ then { t with fi := (if x.index < 64 then some x.index else none) } else { t with fo := (if x.index < 64 then some x.index else none) }) } := by
      change execStitchStep h s = _
      unfold execStitchStep
      rw [onLive_next _ _ hl]
      simp only [hr, Dev.when_of _ _ (decide_eq_true ht), hmine, not_true_eq_false, if_false, hd1]
    generalize (if (d1.trvMod h fun t => if x.on_ then { t with fi := (if x.index < 64 then some x.index else none) } else { t with fo := (if x.index < 64 then some x.index else none) }).heads[h].trv.level then
        (d1.trvMod h fun t => if x.on_ then { t with fi := (if x.index < 64 then some x.index else none) } else { t with fo := (if x.index < 64 then some x.index else none) }).reCode h x.slot false
      else d1.trvMod h fun t => if x.on_ then { t with fi := (if x.index < 64 then some x.index else none) } else { t with fo := (if x.index < 64 then some x.index else none) }) = f at hfr hv ho hstep
    simp only [Prod.mk.injEq] at hv
    obtain ⟨hv1, hv2, hv3⟩ := hv
    refine ⟨f, hstep, hfr, hv1, ?_, fun g hg => (ho g hg).trans (hw1.2 g hg)⟩
    split
    · rename_i hx
      exact ⟨hv2.trans (if_pos hx), hv3.trans (if_pos hx)⟩
    · rename_i hx
      exact ⟨hv3.trans (if_neg hx), hv2.trans (if_neg hx)⟩
  case code =>
    change execCodeDefer h s = _
    unfold execCodeDefer
    rw [onLive_next _ _ hl]
    simp only [hd, Dev.when_of _ _ (decide_eq_true ht)]
    rfl

end Sys2Proof.Machine
end

section
/-! Field maps and products (R127, R150). -/

namespace Sys2Proof.Machine

theorem Dev.changes_of_regs {d e : Dev} (h : e = { d with regs := e.regs }) : d.changes [.regs] e := by
  generalize e.regs = r at h
  rw [h]
  rfl

theorem Dev.opDone_changes (d : Dev) (b : Blk) : d.changes [.regs, .ops] (d.opDone b) :=
  ((d.put_changes b R.OP_STAT _ 0 0).mono (by decide)).trans rfl

/-! What a read of SDRAM depends on (R36, R41). -/

theorem Dev.sdRead_same {d e : Dev} (hl : e.live = d.live)
    (hg : ∀ (b : Blk) (r : Reg), r ∈ [R.BLK_CTL, R.SDC_STAT, R.BOOT_FILL] → e.get b r = d.get b r) (m : Mem) (a n : Nat) :
    e.sdRead m a n = d.sdRead m a n := by
  have hctl : ∀ b, e.get b R.BLK_CTL = d.get b R.BLK_CTL := fun b => hg b _ (by decide)
  have hsdc : ∀ b, e.get b R.SDC_STAT = d.get b R.SDC_STAT := fun b => hg b _ (by decide)
  have hfill : e.get (blk .boot 0) R.BOOT_FILL = d.get (blk .boot 0) R.BOOT_FILL := hg _ _ (by decide)
  have hin : e.installed = d.installed := by
    simp only [Dev.installed, Dev.getF, hfill, Dev.rankBytes, Dev.rowBits, Dev.liv, hl]
    rfl
  have hst : ∀ b, e.status b = d.status b := fun b => by
    simp only [Dev.status, Dev.unitStatus, Dev.fenced, Dev.fence, Dev.inReset, Dev.getF, Dev.getB, hctl]
    rfl
  simp only [Dev.sdRead, Dev.sdStatus, hin, hst, Dev.getB, hsdc]
  rfl

/-! The product that a head takes (R150). -/

section
variable (d : Dev) (h : Fin 32) (rest : List Product)

/-- A product leaves the queue, whose length shows. -/
theorem Dev.webTaken_get (b : Blk) (r : Reg) (i : Nat) (hr : radr b r i ≠ radr (headB h) R.TRV_WEB_PEND) :
    ((d.trvMod h fun t => { t with waiting := rest }).webShow h).get b r i = d.get b r i :=
  Dev.get_put_ne _ _ _ _ _ _ _ _ _ _ hr

theorem headB_ne_msp (h : Fin 32) (m : Fin 64) : mspB m ≠ headB h := by revert h m; decide +kernel

theorem mspC_lt (m : Fin 64) : mspC m < 8 := by unfold mspC; omega

/-- What fits a product fits it once it has left the queue (R150). -/
theorem Dev.webTaken_fits (m : Mem) (trig : Int) :
    ((d.trvMod h fun t => { t with waiting := rest }).webShow h).webFits m h trig = d.webFits m h trig := by
  have hg := d.webTaken_get h rest
  set e := (d.trvMod h fun t => { t with waiting := rest }).webShow h with he
  have hmsp : ∀ c (r : Reg), r ∈ [R.MSP_POS, R.MSP_SPEED, R.MSP_STAT] → e.mget c r = d.mget c r := fun c r hr =>
    hg _ _ _ (radr_ne_of_blk _ _ _ _ _ _ _ _ (headB_ne_msp h c)
      ((by decide : ∀ r ∈ [R.MSP_POS, R.MSP_SPEED, R.MSP_STAT], ∀ i, i < 8 → r.ofs i 0 < 0x1000) r hr _ (mspC_lt c)) (by decide))
  have hpos : ∀ c, e.mpos c = d.mpos c := fun c => by simp only [Dev.mpos, hmsp c _ (show R.MSP_POS ∈ _ by decide)]
  have hspeed : ∀ c, e.mspeed c = d.mspeed c := fun c => by
    simp only [Dev.mspeed, hmsp c _ (show R.MSP_SPEED ∈ _ by decide), hmsp c _ (show R.MSP_STAT ∈ _ by decide)]
    rfl
  have htget : ∀ (r : Reg), r.ofs 0 0 ≠ R.TRV_WEB_PEND.ofs 0 0 → e.tget (headB h) r = d.tget (headB h) r := fun r hr => by
    simp only [Dev.tget, hg _ _ _ (radr_ne_of_ofs (headB h) _ _ 0 0 0 0 hr)]
    rfl
  have htrv : e.heads[h].trv = { d.heads[h].trv with waiting := rest } := d.trvMod_trv h fun t => { t with waiting := rest }
  have hrun : e.running = d.running := rfl
  have htick : e.tick = d.tick := rfl
  have hread : ∀ a n, e.sdRead m a n = d.sdRead m a n := Dev.sdRead_same (d := d) (e := e) rfl (fun b r hr => hg b r 0 (radr_ne_of_page _ _ _ _ _ _ _ _
    ((by decide : ∀ r ∈ [R.BLK_CTL, R.SDC_STAT, R.BOOT_FILL], r.ofs 0 0 % 0x1000 ≠ R.TRV_WEB_PEND.ofs 0 0 % 0x1000) r hr))) m
  clear_value e
  simp only [Dev.webFits, Dev.webSample, Dev.webDir, Dev.fmap, Dev.listPts, Dev.listOf, htrv, hrun, htick, hread, hpos, hspeed,
    htget R.TRV_WEB_CTL (by decide), htget R.TRV_WEB_SCALE (by decide), htget R.TRV_WEB_DUR (by decide)]
  rfl

end

/-! The image that a field map operation has read (R127). -/

section
variable (d : Dev) (h : Fin 32)

/-- A pending map that becomes live. -/
theorem Dev.fmapEnd_spec {bs : List Byte} {f : FMap} (hf : fmapOf bs = some f) (hr : d.running = none) :
    d.fmapEnd h bs = { d with
      regs := (d.fmapEnd h bs).regs, vecs := (d.fmapEnd h bs).vecs
      ops := d.ops.map fun o => if o.blk = headB h then { o with doneAt := some d.now, abortAt := none } else o
      heads := d.heads.set h { d.heads[h] with trv := { d.heads[h].trv with live := some f, pend := none } } } ∧
    (d.fmapEnd h bs).get (headB h) R.OP_STAT = opWord 3 4095 0 (d.opTag (headB h)) ∧
    (d.fmapEnd h bs).getB (headB h) R.TRV_STAT 0 = true ∧ (d.fmapEnd h bs).getB (headB h) R.TRV_STAT 2 = false ∧
    (d.fmapEnd h bs).get (headB h) R.TRV_FMAP_CRC = f.crc := by
  set d1 := (d.trvMod h fun t => { t with pend := some f }).fmapShow h with hd1
  set d2 := d1.opDone (headB h) with hd2
  set d3 := d2.trvMod h fun t => { t with live := some f, pend := none } with hd3
  set d4 := d3.fmapShow h with hd4
  have hend : d.fmapEnd h bs = d4.trvEvent h 5 := by
    have hp : d2.heads[h].trv.pend = some f := by
      have h2 : d2.heads[h].trv = { d.heads[h].trv with pend := some f } := d.trvMod_trv h fun t => { t with pend := some f }
      rw [h2]
    have hr2 : d2.running.isSome = false := by
      have h2 : d2.running = d.running := rfl
      rw [h2, hr]
      rfl
    have hprom : d2.fmapPromote h = d4.trvEvent h 5 := by simp only [Dev.fmapPromote, hp, hd4, hd3]
    simp only [Dev.fmapEnd, hf, ← hd1, ← hd2, hr2, hprom, Bool.false_eq_true, if_false]
  have hframe : d4 = { d with
      regs := d4.regs
      ops := d.ops.map fun o => if o.blk = headB h then { o with doneAt := some d.now, abortAt := none } else o
      heads := d.heads.set h { d.heads[h] with trv := { d.heads[h].trv with live := some f, pend := none } } } := by
    have hheads : d4.heads = d.heads.set h { d.heads[h] with trv := { d.heads[h].trv with live := some f, pend := none } } := by
      change vmod (vmod d.heads h fun x => { x with trv := { x.trv with pend := some f } }) h (fun x =>
        { x with trv := { x.trv with live := some f, pend := none } }) = _
      simp only [vmod, Vector.set_set, Fin.getElem_fin, Vector.getElem_set_self]
    have h1 : d.changes [.regs, .ops, .heads] d1 :=
      ((Dev.trvMod_work d h _).1.mono (by decide)).step (Dev.changes_of_regs (Dev.fmapShow_frame _ h)) (by decide)
    have h2 : d1.changes [.regs, .ops, .heads] d2 := (d1.opDone_changes (headB h)).mono (by decide)
    have h3 : d2.changes [.regs, .ops, .heads] d4 :=
      ((Dev.trvMod_work d2 h _).1.mono (by decide)).step (Dev.changes_of_regs (Dev.fmapShow_frame _ h)) (by decide)
    have hops : d4.ops = d.ops.map fun o => if o.blk = headB h then { o with doneAt := some d.now, abortAt := none } else o := rfl
    rw [← hheads, ← hops]
    have hch := (h1.trans h2).trans h3
    clear_value d4
    exact congrArg (fun x : Dev => { x with regs := d4.regs, ops := d4.ops, heads := d4.heads }) hch
  have htrv : d3.heads[h].trv.live = some f ∧ d3.heads[h].trv.pend = none := by rw [hd3, Dev.trvMod_trv]; exact ⟨rfl, rfl⟩
  have hkept4 := d3.fmapShow_kept h
  rw [← hd4] at hkept4
  have hne : ∀ r : Reg, r.ofs 0 0 ≠ R.TRV_STAT.ofs 0 0 → r.ofs 0 0 ≠ R.TRV_FMAP_CRC.ofs 0 0 →
      ¬ (radr (headB h) r = radr (headB h) R.TRV_STAT ∨ radr (headB h) r = radr (headB h) R.TRV_FMAP_CRC) := fun r h1 h2 =>
    not_or.mpr ⟨radr_ne_of_ofs _ _ _ 0 0 0 0 h1, radr_ne_of_ofs _ _ _ 0 0 0 0 h2⟩
  have hop : d4.get (headB h) R.OP_STAT = opWord 3 4095 0 (d.opTag (headB h)) := by
    rw [hkept4.get _ _ _ _ (hne _ (by decide) (by decide))]
    have htag : d1.opTag (headB h) = d.opTag (headB h) :=
      congrArg (fld · 7 0) ((Dev.fmapShow_kept _ h).get (headB h) R.OP_STAT 0 0 (hne _ (by decide) (by decide)))
    rw [← htag]
    exact Dev.get_put_same _ _ _ _ _ _
  have hcrc : d4.get (headB h) R.TRV_FMAP_CRC = f.crc := by
    rw [hd4, Dev.fmapShow, htrv.1]
    exact Dev.get_put_same _ _ _ _ _ _
  have hvalid : d4.getB (headB h) R.TRV_STAT 0 = true := by rw [hd4, Dev.fmapShow_valid, htrv.1]; rfl
  have hpend : d4.getB (headB h) R.TRV_STAT 2 = false := by rw [hd4, Dev.fmapShow_pend, htrv.2]; rfl
  clear_value d4
  have hev : ∀ r : Reg, r.ofs 0 0 ≠ R.TRV_EVT.ofs 0 0 → r.ofs 0 0 < 0x1000 → (d4.trvEvent h 5).get (headB h) r = d4.get (headB h) r :=
    fun r h1 h2 => (d4.event_kept _ _ _ _ _ _).get _ _ _ _ (not_or.mpr ⟨radr_ne_of_ofs _ _ _ 0 0 0 0 h1,
      radr_ne_of_blk _ _ _ _ _ _ _ _ (headB_ne_hif h) h2 (by
        have : (16 + h.val) / 32 < 2 := by omega
        revert this
        generalize (16 + h.val) / 32 = i
        revert i
        decide)⟩)
  rw [hend]
  refine ⟨?_, (hev _ (by decide) (by decide)).trans hop, (congrArg (bit · 0) (hev _ (by decide) (by decide))).trans hvalid,
    (congrArg (bit · 2) (hev _ (by decide) (by decide))).trans hpend, (hev _ (by decide) (by decide)).trans hcrc⟩
  have hefr : d4.trvEvent h 5 = { d4 with regs := (d4.trvEvent h 5).regs, vecs := (d4.trvEvent h 5).vecs } := Dev.event_frame _ _ _ _ _ _ _
  generalize d4.trvEvent h 5 = e at hefr ⊢
  rw [hefr, hframe]

end

end Sys2Proof.Machine
end

section
/-! Field maps and products take their data (R127, R150). -/

namespace Sys2Proof.Machine

/-- A head without a product takes the first that fits (R150). -/
theorem webTake_first {m : Mem} {d : Dev} {h : Fin 32} {p : Product} {rest : List Product} (n : Nat)
    (hw : d.heads[h].trv.waiting = p :: rest) (hf : d.webFits m h p.trig = true) :
    webTake (n + 1) m d h = (m, ((d.trvMod h fun t => { t with waiting := rest }).webShow h).webStart h p) := by
  unfold webTake
  simp only [hw, d.webTaken_fits h rest, hf, if_true]

/-- What the start of a product leaves (R150). -/
theorem Dev.webStart_spec (d : Dev) (h : Fin 32) (p : Product) :
    d.headWork h [.heads] (d.webStart h p) ∧ (d.webStart h p).regs = d.regs ∧
    (d.webStart h p).heads[h].trv.product = some p ∧ (d.webStart h p).heads[h].trv.webRun = true ∧
    (d.webStart h p).heads[h].trv.waiting = d.heads[h].trv.waiting ∧ (d.webStart h p).heads[h].trv.s = 0 ∧
    (d.webStart h p).heads[h].drf.nextRec = 0 ∧ (d.webStart h p).heads[h].drf.arcEnd = 0 := by
  unfold Dev.webStart
  refine ⟨(d.drfMod_work h _).trans (Dev.trvMod_work _ h _), rfl, ?_, ?_, ?_, ?_, ?_, ?_⟩ <;>
    simp only [Dev.trvMod_trv, Dev.trvMod_drf, Dev.drfMod_drf, Dev.drfMod_trv]

/-- Settles O28: images by `fmapEnd_spec`, products by `webTake_first` and `webStart_spec`. -/
theorem fieldMapsAndProductsTakeTheirData : Obligations.FieldMapsAndProductsTakeTheirData := by
  refine ⟨⟨fun s h bs f hl ho hs hf hr => ?load, fun s h f hl ho hlen hf hr => ?fetch⟩, fun s h p rest hl hweb hruns hst hfree hw hfits => ?product⟩
  case load =>
    obtain ⟨h1, h2, h3, h4, h5⟩ := s.dev.fmapEnd_spec h hf hr
    refine ⟨s.dev.fmapEnd h bs, ?_, h1, h2, h3, h4, h5⟩
    change execFmapLoadDone h s = _
    unfold execFmapLoadDone
    rw [onLiveMem_next _ _ hl]
    simp only [ho, not_true_eq_false, if_false, hs]
  case fetch =>
    obtain ⟨h1, h2, h3, h4, h5⟩ := s.dev.fmapEnd_spec h hf hr
    have hstep : exec (.fmapFetchDone h) s = .next { s with dev := ((s.dev.fmapEnd h s.dev.lanes[headLane h].store).laneMod
        (headLane h) fun l => { l with store := [] }) } := by
      change execFmapFetchDone h s = _
      unfold execFmapFetchDone
      rw [onLive_next _ _ hl]
      have hc : (s.dev.opRunning (headB h) 2 && decide (fmapSize ≤ s.dev.lanes[headLane h].store.length)) = true := by
        rw [ho, decide_eq_true hlen]; rfl
      exact congrArg (fun e => Host.Outcome.next { s with dev := e }) (Dev.when_of _ _ hc)
    generalize s.dev.fmapEnd h s.dev.lanes[headLane h].store = e at h1 h2 h3 h4 h5 hstep
    refine ⟨e.laneMod (headLane h) fun l => { l with store := [] }, hstep, ?_, h2, h3, h4, h5⟩
    have hlanes : e.lanes = s.dev.lanes := by rw [h1]
    unfold Dev.laneMod
    rw [hlanes, h1]
    rfl
  case product =>
    set d1 := (s.dev.trvMod h fun t => { t with waiting := rest }).webShow h with hd1
    have htrv : d1.heads[h].trv = { s.dev.heads[h].trv with waiting := rest } := s.dev.trvMod_trv h fun t => { t with waiting := rest }
    have hwork : s.dev.headWork h [.regs, .heads] d1 :=
      ((Dev.headWork.refl s.dev h _).step (s.dev.trvMod_work h _) (by decide)).beside (F := [.regs]) (Dev.put_changes _ _ _ _ 0 0) (by decide) rfl
    have hkept : s.dev.regsKept d1 fun a => a = radr (headB h) R.TRV_WEB_PEND :=
      (s.dev.trvMod h fun t => { t with waiting := rest }).regsKept_put _ _ _ 0 0 rfl
    have hpend : d1.get (headB h) R.TRV_WEB_PEND = wd rest.length := by
      refine (Dev.get_put_same _ _ _ _ _ _).trans ?_
      rw [Dev.trvMod_trv]
    have hstep : exec (.productStart h) s = .next { s with dev := d1.webStart h p } := by
      change execProductStart h s = _
      unfold execProductStart
      have hf : s.dev.webFree h = s.dev := by
        have hn : s.dev.webOver h = false := by simp only [Dev.webOver, hfree, Bool.false_and]
        simp only [Dev.webFree, hn, Bool.false_eq_true, if_false]
      rw [onLiveMem_next _ _ hl, if_neg (by simp only [hweb, hruns, hst, not_true_eq_false, or_self, not_false_eq_true])]
      simp only [hf, hfree, Bool.false_eq_true, if_false, webTake_first 15 hw hfits, hd1]
    obtain ⟨h1, h2, h3, h4, h5, h6, h7, h8⟩ := d1.webStart_spec h p
    generalize d1.webStart h p = e at *
    have hall := hwork.step h1 (by decide)
    refine ⟨e, hstep, congrArg (fun x : Dev => { x with regs := e.regs, heads := e.heads }) hall.1, h3, h4, ?_, h6, h7, h8, ?_, hall.2, ?_⟩
    · rw [h5, htrv]
    · exact (Dev.get_of_regs _ _ _ _ (by rw [h2])).trans hpend
    · exact fun a ha => (by rw [h2] : spGet e.regs a = spGet d1.regs a).trans (hkept a ha)

end Sys2Proof.Machine
end

section
/-! Judging the samples of a cell (R166 to R171, R175). -/

namespace Sys2Proof.Machine

/-- The SERVO block of a head cell. -/
def cellServo (i : Fin 256) : Fin 8 := Fin.ofNat 8 (i.val / 24)

/-- Work on cell `i`: at most the parts named differ; of a head cell no machine spindle, and outside a tuning operation of its block
no other cell; a sample judged stays judged, and none is added. -/
structure Dev.cellWork (i : Fin 256) (d e : Dev) : Prop where
  work : d.changes [.regs, .vecs, .fabric, .cells, .tunes, .msps] e
  msps : isHead i = true → e.msps = d.msps
  quiet : isHead i = true → d.tunes[cellServo i] = none → e.tunes[cellServo i] = none ∧ ∀ j : Fin 256, j ≠ i → e.cells[j] = d.cells[j]
  samples : ∀ y ∈ e.cells[i].samples, ∃ x ∈ d.cells[i].samples, y.k = x.k ∧ (x.good.isSome = true → y.good.isSome = true)

namespace Dev.cellWork

variable {i : Fin 256} {d e f : Dev}

theorem refl (i : Fin 256) (d : Dev) : cellWork i d d := ⟨.refl d _, fun _ => rfl, fun _ h => ⟨h, fun _ _ => rfl⟩, fun y hy => ⟨y, hy, rfl, id⟩⟩

theorem ite {c : Prop} [Decidable c] (r : cellWork i d e) (r' : cellWork i d f) : cellWork i d (if c then e else f) := by
  split <;> assumption

variable (r : cellWork i d e)
include r

theorem trans (r' : cellWork i e f) : cellWork i d f where
  work := r.work.trans r'.work
  msps h := (r'.msps h).trans (r.msps h)
  quiet h ht :=
    have hr := r.quiet h ht
    have hr' := r'.quiet h hr.1
    ⟨hr'.1, fun j hj => (hr'.2 j hj).trans (hr.2 j hj)⟩
  samples y hy := by
    obtain ⟨x, hx, h1, h2⟩ := r'.samples y hy
    obtain ⟨w, hw, h3, h4⟩ := r.samples x hx
    exact ⟨w, hw, h1.trans h3, fun h => h2 (h4 h)⟩

/-- A step beside the cells, the tuning operations and the machine spindles. -/
theorem beside (r' : e.changes [.regs, .vecs, .fabric] f) : cellWork i d f := by
  have hc : f.cells = e.cells := r'.get Dev.cells
  have ht : f.tunes = e.tunes := r'.get Dev.tunes
  exact r.trans ⟨r'.mono (by decide), fun _ => r'.get Dev.msps, fun _ h => ⟨by rw [ht]; exact h, fun j _ => by rw [hc]⟩,
    fun y hy => ⟨y, by rw [← hc]; exact hy, rfl, id⟩⟩

theorem put (b : Blk) (g : Reg) (w : Word) (j k : Nat) : cellWork i d (e.put b g w j k) :=
  r.beside ((e.put_changes b g w j k).mono (by decide))

theorem cellEvent (j : Fin 256) : cellWork i d (e.cellEvent j) := by
  unfold Dev.cellEvent
  exact .ite (r.beside ((e.event_changes _ _ _ _ _ _).mono (by decide))) (r.put _ _ _ _ _)

theorem raise (b : Blk) (c : Option Nat) (kind addr : Nat) : cellWork i d (e.raise b c kind addr) :=
  r.beside (e.detect_changes b c kind addr _ _ _)

theorem cellFault (j : Fin 256) (kind : Nat) : cellWork i d (e.cellFault j kind) := by
  unfold Dev.cellFault
  exact .ite ((r.raise _ _ _ _).cellEvent j) (r.raise _ _ _ _)

/-- A change of the cell. -/
theorem cellMod {g : SCell → SCell} (hg : ∀ c, ∀ y ∈ (g c).samples, ∃ x ∈ c.samples, y.k = x.k ∧ (x.good.isSome = true → y.good.isSome = true)) :
    cellWork i d (e.cellMod i g) :=
  r.trans ⟨Dev.changes.mono (F := [.cells]) rfl (by decide), fun _ => rfl, fun _ h => ⟨h, fun _ hj => e.cellMod_ne g hj⟩, fun y hy => by
    rw [Dev.cellMod_same] at hy
    exact hg _ y hy⟩

/-- One that leaves its samples. -/
theorem cellSet {g : SCell → SCell} (hg : ∀ c, (g c).samples = c.samples) : cellWork i d (e.cellMod i g) :=
  r.cellMod fun c y hy => ⟨y, by rw [← hg c]; exact hy, rfl, id⟩

theorem mspMod (hh : isHead i = false) (m : Fin 64) (g : Msp → Msp) : cellWork i d (e.mspMod m g) :=
  r.trans ⟨Dev.changes.mono (F := [.msps]) rfl (by decide), fun h => (by rw [hh] at h; cases h), fun _ h => ⟨h, fun _ _ => rfl⟩,
    fun y hy => ⟨y, hy, rfl, id⟩⟩

/-- A tuning operation ends. -/
theorem tuneCellFail (err : Nat) : cellWork i d (e.tuneCellFail i err) := by
  unfold Dev.tuneCellFail Dev.tuneFail
  refine .ite ?_ r
  split
  · exact r
  · rename_i t ht
    have h1 : cellWork i d (e.opFail (blk .servo (cellServo i).val) err) := r.put _ _ _ _ _
    have ht1 : (e.opFail (blk .servo (cellServo i).val) err).tunes = e.tunes := rfl
    change cellWork i d ((e.opFail (blk .servo (cellServo i).val) err).tuneEnd (cellServo i))
    generalize e.opFail (blk .servo (cellServo i).val) err = e1 at h1 ht1 ⊢
    unfold Dev.tuneEnd
    split
    · exact h1
    · rename_i t1 ht1'
      refine h1.trans ⟨?_, fun _ => rfl, fun _ h => (by rw [ht1'] at h; cases h), fun y hy => ⟨y, ?_, rfl, id⟩⟩
      · exact (Dev.changes.mono (F := [.tunes, .cells]) rfl (by decide))
      · rw [Dev.cellMod_keeps _ _ _ SCell.samples (fun _ => by rfl)] at hy
        exact hy

/-- A change of state to one that evaluates the law (R175). -/
theorem cellState {st : Nat} (hs : 1 ≤ st ∧ st ≤ 4) : cellWork i d (e.cellState i st) := by
  unfold Dev.cellState
  refine .ite r ?_
  have hoff : (decide (st = 0) || decide (st = 5)) = false := by simp only [Bool.or_eq_false_iff, decide_eq_false_iff_not]; omega
  simp only [hoff, Bool.false_eq_true, if_false]
  have h1 : cellWork i d (e.cellMod i fun c => { c with st := st }) := r.cellSet fun _ => by rfl
  generalize e.cellMod i (fun c => { c with st := st }) = e1 at h1 ⊢
  have h2 : ∀ e', cellWork i d e' → cellWork i d ((e'.stateShow i st).cellEvent i) := fun e' h => by
    refine cellEvent ?_ i
    unfold Dev.stateShow
    exact .ite (h.put _ _ _ _ _) (h.put _ _ _ _ _)
  apply h2
  by_cases hh : isHead i = true
  · rw [if_neg (by rw [hh]; decide)]
    exact h1
  · have hh' : isHead i = false := by simpa using hh
    rw [if_pos (by rw [hh']; decide)]
    unfold Dev.mspLeave
    have h3 : ∀ c : Prop, [Decidable c] → cellWork i d (if c then e1.mqueueDrop (mspOf i) else e1) := fun c _ =>
      .ite ((h1.mspMod hh' _ _).put _ _ _ _ _) h1
    dsimp only
    rw [if_neg (by omega)]
    exact h3 _

theorem enterRun (th : Int) : cellWork i d (e.enterRun i th) := by
  unfold Dev.enterRun
  dsimp only
  have h1 := (r.cellSet (g := fun c => { c with
    integ := 0, xa := (0, 0), ya := (0, 0), xb := (0, 0), yb := (0, 0), th1 := th, th2 := th, om := 0, first := true,
    recov := false, clipped := false, sp := th, spV := 0, spA := 0, adopt := true }) fun _ => by rfl).cellState (st := 1) (by decide)
  by_cases hh : isHead i = true
  · rw [if_pos hh]; exact h1
  · rw [if_neg hh]; exact h1.mspMod (by simpa using hh) _ _

theorem mspLasting : cellWork i d (e.mspLasting i) := by
  unfold Dev.mspLasting
  by_cases hh : isHead i = true
  · rw [if_pos hh]; exact r
  · have hh' : isHead i = false := by simpa using hh
    rw [if_neg hh]
    extract_lets m abs d1
    have h0 : cellWork i d (if abs then e else e.mstat m 3 false) := .ite r (r.put _ _ _ _ _)
    have h1 : cellWork i d d1 := h0.mspMod hh' _ _
    clear_value d1
    have hfall : ∀ x, cellWork i d x → cellWork i d (x.mfall m false) := fun x hx => by
      unfold Dev.mfall
      dsimp only
      split
      · exact hx
      · exact hx.mspMod hh' _ _
    have hbad : cellWork i d (d1.homeBad m 3) := by
      have h2 : cellWork i d ((d1.mspMod m fun x => { x with home := none }).cellMod (mspI m) fun c => { c with tune := false }) := by
        refine (h1.mspMod hh' m fun x => { x with home := none }).trans ⟨Dev.changes.mono (F := [.cells]) rfl (by decide), fun _ => rfl,
          fun h => (by rw [hh'] at h; cases h), fun y hy => ⟨y, ?_, rfl, id⟩⟩
        rw [Dev.cellMod_keeps _ _ _ SCell.samples (fun _ => by rfl)] at hy
        exact hy
      exact (((h2.put _ _ _ _ _).put _ _ _ _ _).put _ _ _ _ _).raise _ _ _ _
    exact .ite (hfall _ hbad) h1

theorem badCount : cellWork i d (e.badCount i) := by
  unfold Dev.badCount
  exact .ite (r.put _ _ _ _ _) (r.put _ _ _ _ _)

theorem transCount : cellWork i d (e.transCount i) := by
  unfold Dev.transCount
  exact .ite (r.put _ _ _ _ _) (r.put _ _ _ _ _)

theorem lastCount : cellWork i d (e.lastCount i) := by
  unfold Dev.lastCount
  exact .ite (r.put _ _ _ _ _) (r.put _ _ _ _ _)

/-- A judged sample takes its place (R169). -/
theorem classify (k : Nat) (good : Bool) : cellWork i d (e.classify i k good) := by
  unfold Dev.classify
  dsimp only
  split
  · exact .ite (r.enterRun _) r
  · refine .ite ?_ ?_
    · exact (r.cellState (by split <;> decide)).transCount
    · exact mspLasting (tuneCellFail (cellFault (lastCount (badCount (cellState (r.cellSet fun _ => by rfl) (by decide)))) i 0) _)
  · refine .ite ?_ ?_
    · refine .ite (cellState (r.cellSet fun _ => by rfl) (by decide)) (r.cellSet fun _ => by rfl)
    · exact badCount (r.cellSet fun _ => by rfl)
  · exact r
  · exact .ite r (badCount (r.cellState (by decide)))

theorem classifyFront (n : Nat) : cellWork i d (Sys2Proof.Machine.classifyFront n e i) := by
  induction n generalizing e with
  | zero => exact r
  | succ n ih =>
    unfold Sys2Proof.Machine.classifyFront
    split
    · exact r
    · rename_i x xs hx
      split
      · exact r
      · refine ih (classify (r.trans ?_) _ _)
        refine ⟨Dev.changes.mono (F := [.cells]) rfl (by decide), fun _ => rfl, fun _ h => ⟨h, fun _ hj => e.cellMod_ne _ hj⟩, fun y hy => ?_⟩
        rw [Dev.cellMod_same] at hy
        exact ⟨y, by rw [hx]; exact List.mem_cons_of_mem x hy, rfl, id⟩

theorem judge (k : Nat) (good : Bool) : cellWork i d (e.judge i k good) := by
  unfold Dev.judge
  refine classifyFront (r.cellMod fun c y hy => ?_) _
  obtain ⟨x, hx, rfl⟩ := List.mem_map.mp hy
  refine ⟨x, hx, ?_, ?_⟩ <;> split
  · rfl
  · rfl
  · exact fun _ => rfl
  · exact id

theorem passHeld (k : Nat) : cellWork i d (e.passHeld i k) := by
  unfold Dev.passHeld
  exact .ite (r.cellSet fun _ => by rfl) r

end Dev.cellWork

/-- What is judged is judged: no sample of that tick waits any more (R167, R169). -/
theorem Dev.judge_judged (d : Dev) (i : Fin 256) (k : Nat) (good : Bool) {e : Dev} (r : Dev.cellWork i (d.judge i k good) e) :
    ∀ y ∈ e.cells[i].samples, y.k = k → y.good.isSome = true := by
  intro y hy hk
  unfold Dev.judge at r
  set d1 := d.cellMod i fun c => { c with
    samples := c.samples.map fun x => if x.k = k ∧ x.good.isNone then { x with good := some good } else x } with hd1
  have r1 : Dev.cellWork i d1 e := ((Dev.cellWork.refl i d1).classifyFront _).trans r
  obtain ⟨x, hx, h1, h2⟩ := r1.samples y hy
  rw [hd1, Dev.cellMod_same] at hx
  obtain ⟨w, hw, rfl⟩ := List.mem_map.mp hx
  apply h2
  split
  · rfl
  · rename_i hc
    rw [if_neg hc] at h1
    rw [not_and, Bool.not_eq_true, Option.isNone_eq_false_iff] at hc
    exact hc (h1.symm.trans hk)

end Sys2Proof.Machine
end

section
/-! Drive and feedback frames (R156, R167, R305, R313). -/

namespace Sys2Proof.Machine

theorem laneCells_nodup (d : Dev) (n : Fin 40) : (d.laneCells n).Nodup := by
  unfold Dev.laneCells
  have hmap : ∀ (m : Nat) (f : Nat → Nat), m ≤ 6 → (∀ r, r < 6 → f r < 256) → (∀ r s, r < 6 → s < 6 → f r = f s → r = s) →
      ((List.range m).map fun r => Fin.ofNat 256 (f r)).Nodup := by
    intro m f hm hf hi
    refine List.Nodup.map_on (fun r hr s hs he => ?_) List.nodup_range
    have hr' := List.mem_range.mp hr
    have hs' := List.mem_range.mp hs
    have h1 := congrArg Fin.val he
    simp only [Fin.val_ofNat] at h1
    rw [Nat.mod_eq_of_lt (hf r (by omega)), Nat.mod_eq_of_lt (hf s (by omega))] at h1
    exact hi r s (by omega) (by omega) h1
  split
  · exact hmap 6 _ (le_refl _) (fun _ _ => by omega) fun _ _ _ _ _ => by omega
  · exact hmap _ _ (by omega) (fun _ _ => by omega) fun _ _ _ _ _ => by omega

/-- The cells of a head's lane. -/
theorem laneCells_head {d : Dev} {n : Fin 40} (hn : n.val < 32) {i : Fin 256} (hi : i ∈ d.laneCells n) :
    isHead i = true ∧ i.val / 24 = n.val / 4 := by
  rw [Dev.laneCells, if_pos hn] at hi
  obtain ⟨r, hr, rfl⟩ := List.mem_map.mp hi
  have hr' := List.mem_range.mp hr
  have hlt : 6 * n.val + r < 256 := by omega
  simp only [isHead, Fin.val_ofNat, decide_eq_true_eq, Nat.mod_eq_of_lt hlt]
  omega

section
variable (d : Dev)

/-- The drive words of a tick are out: each cell of the lane waits for its sample (R156). -/
theorem Dev.driveCells (l : List (Fin 256)) (hl : l.Nodup) (k : Nat) :
    let e := l.foldl (fun (e : Dev) i => (e.cellMod i fun c => { c with
      kSent := some (k, e.now), samples := c.samples ++ [⟨k, e.now, none⟩] }).cmdShow i) d
    d.changes [.regs, .cells] e ∧
    (∀ i ∈ l, e.cells[i] = { d.cells[i] with kSent := some (k, d.now), samples := d.cells[i].samples ++ [⟨k, d.now, none⟩] }) ∧
    ∀ i, i ∉ l → e.cells[i] = d.cells[i] := by
  induction l generalizing d with
  | nil => exact ⟨.refl d _, fun _ h => (List.not_mem_nil h).elim, fun _ _ => rfl⟩
  | cons a l ih =>
    obtain ⟨ha, hl'⟩ := List.nodup_cons.mp hl
    set d1 := (d.cellMod a fun c => { c with
      kSent := some (k, d.now), samples := c.samples ++ [⟨k, d.now, none⟩] }).cmdShow a with hd1
    have h1 : d.changes [.regs, .cells] d1 := by
      rw [hd1]
      unfold Dev.cmdShow
      have h0 : d.changes [.regs, .cells] (d.cellMod a fun c => { c with
        kSent := some (k, d.now), samples := c.samples ++ [⟨k, d.now, none⟩] }) := Dev.changes.mono (F := [.cells]) rfl (by decide)
      exact .ite (h0.step (Dev.put_changes _ _ _ _ _ _) (by decide)) h0
    have hc1 : d1.cells = (d.cellMod a fun c => { c with
        kSent := some (k, d.now), samples := c.samples ++ [⟨k, d.now, none⟩] }).cells := by
      rw [hd1]
      unfold Dev.cmdShow
      split <;> rfl
    obtain ⟨h2, h3, h4⟩ := ih d1 hl'
    have hnow : d1.now = d.now := h1.get Dev.now
    refine ⟨h1.trans h2, fun i hi => ?_, fun i hi => ?_⟩
    · rcases List.mem_cons.mp hi with rfl | hi
      · refine (h4 i ha).trans ?_
        simp only [hc1, Dev.cellMod_same]
      · have hne : i ≠ a := fun he => ha (he ▸ hi)
        refine (h3 i hi).trans ?_
        simp only [hc1, hnow, Dev.cellMod_ne _ _ hne]
    · obtain ⟨hne, hni⟩ := not_or.mp (fun h => hi (List.mem_cons.mpr h))
      refine (h4 i hni).trans ?_
      simp only [hc1, Dev.cellMod_ne _ _ hne]

theorem Dev.laneMod_changes (n : Fin 40) (f : Lane → Lane) : d.changes [.lanes] (d.laneMod n f) := rfl

/-- A frame goes out on a lane (R311). -/
theorem Dev.laneSend_spec (n : Fin 40) (vc : Fin 4) (type : Nat) (data : List Byte) :
    d.changes [.regs, .lanes] (d.laneSend n vc type data) ∧
    ((d.laneSend n vc type data).lanes[n].sent[vc].map fun f => (f.type, f.data)) = some (type, data) ∧
    ∀ k : Fin 40, k ≠ n → (d.laneSend n vc type data).lanes[k] = d.lanes[k] := by
  unfold Dev.laneSend
  extract_lets u spoil d0
  have h0 : d.changes [.regs, .lanes] d0 := .ite ((Dev.put_changes _ _ _ _ _ _).mono (by decide)) (.refl d _)
  have hl0 : d0.lanes = d.lanes := by simp only [d0]; split <;> rfl
  clear_value d0
  have hshow : ∀ e : Dev, (e.creditShow n).lanes = e.lanes ∧ e.changes [.regs] (e.creditShow n) := fun e => ⟨rfl, rfl⟩
  refine ⟨?_, ?_, fun k hk => ?_⟩
  · exact (h0.step (d0.laneMod_changes n _) (by decide)).step (hshow _).2 (by decide)
  · simp only [(hshow _).1, Dev.laneMod, vmod_same]
    simp only [Fin.getElem_fin, Vector.getElem_set_self, Option.map_some]
  · simp only [(hshow _).1, Dev.laneMod, vmod_ne _ _ hk, hl0]

end

/-! Feedback words. -/

/-- A good position of a sample is taken (R166 to R168). -/
theorem Dev.goodSample_spec (d : Dev) (i : Fin 256) (k : Nat) (th : Int) (late : Bool) :
    Dev.cellWork i d (d.goodSample i k th late) ∧ ∀ e, Dev.cellWork i (d.goodSample i k th late) e →
      ∀ y ∈ e.cells[i].samples, y.k = k → y.good.isSome = true := by
  unfold Dev.goodSample
  extract_lets c done gone prev om d1 d2 d3 st d4
  have h1 : Dev.cellWork i d d1 := (Dev.cellWork.refl i d).cellSet fun _ => by rfl
  have h2 : Dev.cellWork i d d2 := .ite (h1.put _ _ _ _ _) h1
  have h4 : Dev.cellWork i d3 d4 := .ite (.refl i d3) (.ite ((Dev.cellWork.refl i d3).cellSet fun _ => by rfl)
    (.ite ((Dev.cellWork.refl i d3).cellSet fun _ => by rfl) (.refl i d3)))
  have hpass : ∀ c : SCell, (c.pass k th om).samples = c.samples := fun c => by
    unfold SCell.pass
    split
    · split <;> rfl
    · rfl
  have h5 : Dev.cellWork i d3 (if st = 1 ∨ st = 2 ∨ st = 4 then d4.cellMod i fun c => c.pass k th om else d4) :=
    .ite (h4.cellSet hpass) h4
  have h3 : Dev.cellWork i d2 d3 := (Dev.cellWork.refl i d2).judge k true
  exact ⟨(h2.trans h3).trans h5, fun e he => d2.judge_judged i k true (h5.trans he)⟩

/-- The amplifier's reports (R171). -/
theorem Dev.ampReports_spec (d : Dev) (i : Fin 256) (bits seq : Nat) :
    Dev.cellWork i d (d.ampReports i bits seq) ∧ (d.ampReports i bits seq).cells[i].bits = bits ∧
    (d.ampReports i bits seq).cells[i].seq = seq := by
  unfold Dev.ampReports
  extract_lets c rose off d1 d2
  have h1 : Dev.cellWork i d d1 := (Dev.cellWork.refl i d).cellSet fun _ => by rfl
  have h2 : Dev.cellWork i d1 d2 := .ite ((Dev.cellWork.refl i d1).put _ _ _ _ _) (.refl i d1)
  have hc2 : d2.cells = d1.cells := by simp only [d2]; split <;> rfl
  have hc1 : d1.cells[i].bits = bits ∧ d1.cells[i].seq = seq := by simp only [d1, Dev.cellMod_same, and_self]
  have hfault : (d2.cellFault i 3).cells = d2.cells := by
    unfold Dev.cellFault Dev.cellEvent Dev.raise
    have hd := (d2.detect_changes (cellBlk i) (some (cellIx i)) 3 0 false false false).get Dev.cells
    dsimp only
    split
    · exact ((Dev.event_changes _ _ _ _ _ _ _).get Dev.cells).trans hd
    · exact hd
  have hall : Dev.cellWork i d (if rose 1 || rose 2 || rose 3 || off = 8 then d2.cellFault i 3 else d2) :=
    .ite ((h1.trans h2).cellFault i 3) (h1.trans h2)
  refine ⟨hall, ?_⟩
  split
  · simp only [hfault, hc2, hc1, and_self]
  · simp only [hc2, hc1, and_self]

/-- A feedback word of a head cell (R167). -/
theorem fbWord_head (m : Mem) (d : Dev) {i : Fin 256} (hi : isHead i = true) (tick : Word) (w : BitVec 48) :
    (fbWord m d i tick w).1 = m ∧ Dev.cellWork i d (fbWord m d i tick w).2 := by
  unfold fbWord
  dsimp only
  split
  · rename_i x _ hx
    by_cases ht : x.sent * 5 + 8000 < d.now * 5
    · rw [if_pos ht]
      exact ⟨rfl, ((Dev.cellWork.refl i d).judge _ _).passHeld _⟩
    · rw [if_neg ht]
      simp only [hi, if_true]
      exact ⟨trivial, (d.goodSample_spec i _ _ _).1.trans (Dev.ampReports_spec _ i _ _).1⟩
  · refine ⟨rfl, ?_⟩
    unfold Dev.badWord
    split
    · exact .refl i d
    · exact ((Dev.cellWork.refl i d).judge _ _).passHeld _

/-- One in time whose sample is there is judged, and its reports show (R167, R171). -/
theorem fbWord_good (m : Mem) (d : Dev) {i : Fin 256} (hi : isHead i = true) (tick : Word) (w : BitVec 48) {x : Samp}
    (hc : (crc8 w).toNat = w.toNat / 2 ^ 40) (hb : w.getLsbD 31 = false) (hx : d.cells[i].bySeq (w.toNat / 2 ^ 32 % 16) = some x)
    (ht : d.now * 5 ≤ x.sent * 5 + 8000) :
    (fbWord m d i tick w).2.cells[i].bits = w.toNat / 2 ^ 24 % 128 ∧ (fbWord m d i tick w).2.cells[i].seq = w.toNat / 2 ^ 32 % 16 ∧
    ∀ y ∈ (fbWord m d i tick w).2.cells[i].samples, y.k = x.k → y.good.isSome = true := by
  have hok : (decide ((crc8 w).toNat = w.toNat / 2 ^ 40) && !w.getLsbD 31) = true := by rw [hb, decide_eq_true hc]; rfl
  obtain ⟨late, th, hw⟩ : ∃ late th, fbWord m d i tick w = (m, (d.goodSample i x.k th late).ampReports i (w.toNat / 2 ^ 24 % 128)
      (w.toNat / 2 ^ 32 % 16)) := by
    refine ⟨d.pastNs x.sent 880 && !(x.sent * 5 + 3520 = d.now * 5), d.decodePos i (sgn 24 (w.toNat % 2 ^ 24)), ?_⟩
    unfold fbWord
    simp only [hok, hx, if_neg (not_lt.mpr ht), hi, if_true]
  rw [hw]
  obtain ⟨h1, h2, h3⟩ := (d.goodSample i x.k th late).ampReports_spec i (w.toNat / 2 ^ 24 % 128) (w.toNat / 2 ^ 32 % 16)
  exact ⟨h2, h3, (d.goodSample_spec i x.k th late).2 _ h1⟩

theorem Dev.changes.keepMsps {d e : Dev} (h : d.changes [.regs, .vecs, .fabric, .cells, .tunes, .msps] e) (hm : e.msps = d.msps) :
    d.changes [.regs, .vecs, .fabric, .cells, .tunes] e := by
  have h' := congrArg (fun x : Dev => { x with msps := e.msps }) h
  refine Eq.trans (b := ({ d.hide [.regs, .vecs, .fabric, .cells, .tunes, .msps] with msps := e.msps } : Dev)) h' ?_
  rw [hm]
  rfl

/-- Words of head cells of one SERVO block, one after the other. -/
theorem fbWords_head (m : Mem) (d : Dev) (tick : Word) (hs : ∀ r : Fin 16, d.flt.slices[r].unit = none)
    (k : Fin 8) (l : List (Fin 256 × BitVec 48)) (hl : ∀ c ∈ l, isHead c.1 = true ∧ cellServo c.1 = k) :
    ∃ e, l.foldl (fun (x : Mem × Dev) c =>
      if x.2.inReset (cellBlk c.1) then x else fbWord x.1 (x.2.reached (cellBlk c.1) (some (cellIx c.1))) c.1 tick c.2) (m, d) = (m, e) ∧
    d.changes [.regs, .vecs, .fabric, .cells, .tunes] e ∧
    (d.tunes[k] = none → ∀ i : Fin 256, (∀ c ∈ l, i ≠ c.1) → e.cells[i] = d.cells[i]) := by
  induction l generalizing d with
  | nil => exact ⟨d, rfl, .refl d _, fun _ _ _ => rfl⟩
  | cons c l ih =>
    obtain ⟨hc, hk⟩ := hl c List.mem_cons_self
    have hl' : ∀ c ∈ l, isHead c.1 = true ∧ cellServo c.1 = k := fun c hm => hl c (List.mem_cons_of_mem _ hm)
    rw [List.foldl_cons]
    by_cases hr : d.inReset (cellBlk c.1) = true
    · simp only [hr, if_true]
      obtain ⟨e, h1, h2, h3⟩ := ih d hs hl'
      exact ⟨e, h1, h2, fun ht i hi => h3 ht i fun c hm => hi c (List.mem_cons_of_mem _ hm)⟩
    · have hreach : d.reached (cellBlk c.1) (some (cellIx c.1)) = d := by
        unfold Dev.reached
        rw [hs]
      simp only [hr, hreach, Bool.false_eq_true, if_false]
      obtain ⟨hm, hw⟩ := fbWord_head m d hc tick c.2
      generalize hx : fbWord m d c.1 tick c.2 = x at hm hw ⊢
      obtain ⟨m', f⟩ := x
      dsimp only at hm hw ⊢
      subst hm
      have hf := hw.work.keepMsps (hw.msps hc)
      obtain ⟨e, h1, h2, h3⟩ := ih f (fun r => by rw [show f.flt = d.flt from hf.get Dev.flt]; exact hs r) hl'
      refine ⟨e, h1, hf.trans h2, fun ht i hi => ?_⟩
      obtain ⟨hq, ho⟩ := hw.quiet hc (by simp only [hk]; exact ht)
      simp only [hk] at hq
      exact (h3 hq i fun c hm => hi c (List.mem_cons_of_mem _ hm)).trans (ho i (hi c List.mem_cons_self))

end Sys2Proof.Machine
end

section
/-! Frames pair up (R156, R167, R305, R313). -/

namespace Sys2Proof.Machine

/-! Registers that events and faults leave. -/

section
variable (d : Dev) {b q : Blk} {r : Reg} {i j : Nat} (hh : q ≠ hif) (ho : r.ofs i j < 0x1000)
include hh ho

theorem Dev.event_get_ne {g : Reg} {k : Nat} (en : Reg) (m : Word) {v : Nat} (hv : v < 64) (hne : radr q r i j ≠ radr b g k) :
    (d.event b g en m v k).get q r i j = d.get q r i j := by
  have hput := Dev.get_put_ne d b q g r (d.get b g k ||| m) k 0 i j hne
  unfold Dev.event
  dsimp only
  split
  · exact hput
  · exact (Dev.vector_get _ hv i j hh ho).trans hput

theorem Dev.detect_get (c : Option Nat) (kind addr : Nat) (trans inj alsof : Bool) (hf : q ≠ fltc) (hne : radr q r i j ≠ radr b R.FLT_STAT) :
    (d.detect b c kind addr trans inj alsof).get q r i j = d.get q r i j := by
  unfold Dev.detect
  split
  · rfl
  · extract_lets km own crit was d1 d2
    have h1 : d1.get q r i j = d.get q r i j := by
      simp only [d1]
      split
      · exact Dev.get_put_ne _ _ _ _ _ _ _ _ _ _ hne
      · rfl
    have h2 : d2.get q r i j = d.get q r i j := by
      simp only [d2]
      split
      · refine (Dev.get_putB_ne _ _ _ (radr_ne_of_blk _ _ _ _ _ _ _ _ hf ho (by decide))).trans ?_
        exact (Dev.vector_get _ (by decide) i j hh ho).trans h1
      · exact h1
    split
    · exact h2
    · exact h2

end

theorem laneB_ne_hif (n : Fin 40) : laneB n ≠ hif := by revert n; decide +kernel

theorem laneB_ne_fltc (n : Fin 40) : laneB n ≠ fltc := by revert n; decide +kernel

/-- A credit violation is counted and noted (R313). -/
theorem Dev.creditViol_spec (d : Dev) (n : Fin 40) :
    d.creditViol n = { d with
      regs := (d.creditViol n).regs, vecs := (d.creditViol n).vecs, fabric := (d.creditViol n).fabric
      lanes := d.lanes.set n { d.lanes[n] with violAt := some d.now } } ∧
    (d.creditViol n).getN (laneB n) R.LANE_CREDVIOL = min 0xFFFFFFFF (d.getN (laneB n) R.LANE_CREDVIOL + 1) := by
  have hv : (if n.val < 32 then 16 + n.val else 48 + n.val - 32) < 64 := by split <;> omega
  set d1 := d.bump (laneB n) R.LANE_CREDVIOL with hd1
  have hc1 : d1.getN (laneB n) R.LANE_CREDVIOL = min 0xFFFFFFFF (d.getN (laneB n) R.LANE_CREDVIOL + 1) := Dev.getN_bump _ _ _ _ _
  have h1 : d.changes [.regs, .vecs, .fabric] d1 := (Dev.put_changes _ _ _ _ _ _).mono (by decide)
  set d2 := d1.laneEvent n 64#32 with hd2
  have h2 : d.changes [.regs, .vecs, .fabric] d2 := h1.step (Dev.event_changes _ _ _ _ _ _ _) (by decide)
  have hc2 : d2.getN (laneB n) R.LANE_CREDVIOL = d1.getN (laneB n) R.LANE_CREDVIOL :=
    congrArg BitVec.toNat (d1.event_get_ne (laneB_ne_hif n) (by decide) _ _ hv (radr_ne_of_ofs _ _ _ 0 0 0 0 (by decide)))
  have hl2 : d2.lanes = d.lanes := h2.get Dev.lanes
  have hn2 : d2.now = d.now := h2.get Dev.now
  set d3 := d2.laneMod n fun l => { l with violAt := some d.now } with hd3
  have hc3 : d3.getN (laneB n) R.LANE_CREDVIOL = d2.getN (laneB n) R.LANE_CREDVIOL := rfl
  have hl3 : d3.lanes = d.lanes.set n { d.lanes[n] with violAt := some d.now } := by rw [hd3, Dev.laneMod, vmod, hl2]
  have h3 : d.changes [.regs, .vecs, .fabric, .lanes] d3 := (h2.mono (by decide)).step (Dev.laneMod_changes _ n _) (by decide)
  have hdef : d.creditViol n = if (d.lanes[n].violAt.map fun t => d.past t 1000).getD true then d3.raise (laneB n) (some 0) 1 else d3 := rfl
  clear_value d3
  have hr : d3.changes [.regs, .vecs, .fabric] (d.creditViol n) := by
    rw [hdef]
    exact .ite (Dev.detect_changes _ _ _ _ _ _ _ _) (.refl d3 _)
  have hcr : (d.creditViol n).getN (laneB n) R.LANE_CREDVIOL = d3.getN (laneB n) R.LANE_CREDVIOL := by
    rw [hdef]
    split
    · exact congrArg BitVec.toNat (d3.detect_get (laneB_ne_hif n) (by decide) _ _ _ _ _ _ (laneB_ne_fltc n)
        (radr_ne_of_ofs _ _ _ 0 0 0 0 (by decide)))
    · rfl
  generalize d.creditViol n = e at hr hcr ⊢
  refine ⟨?_, by rw [hcr, hc3, hc2, hc1]⟩
  have hle : e.lanes = d.lanes.set n { d.lanes[n] with violAt := some d.now } := (hr.get Dev.lanes).trans hl3
  rw [← hle]
  exact congrArg (fun x : Dev => { x with regs := e.regs, vecs := e.vecs, fabric := e.fabric, lanes := e.lanes }) (h3.step hr (by decide))

theorem cellBlk_headCell (h : Fin 32) : cellBlk (headCell h 0) = blk .servo (h.val / 4) := by revert h; decide

theorem isHead_headCell (h : Fin 32) : isHead (headCell h 0) = true := by revert h; decide

/-- Settles O29: drive frames by `driveCells` and `laneSend_spec`, feedback by the rules for judged samples. -/
theorem driveAndFeedbackFramesPairUp : Obligations.DriveAndFeedbackFramesPairUp := by
  refine ⟨fun s n hl hup hsent => ?drive, fun s n f hl hn hup hsl => ?frame, fun s h tick w x hl hup hsl hdup hrst hcrc hb hx ht => ?word,
    fun s n j i x hl hi hx ht => ?timeout⟩
  case drive =>
    set slip := (Config.freeWord s.dev.fresh).toNat % (132 / 2 ^ s.dev.getF (laneB n) R.LANE_STAT 5 4) with hslip
    set data := leBytes 4 (s.dev.driveTick n) ++ leBytes 4 slip ++ (s.dev.laneCells n).flatMap fun i =>
        bytes48 (driveWord s.dev.cells[i].cmd s.dev.cells[i].en (s.dev.driveTick n)) with hdata
    set d0 : Dev := { s.dev with fresh := s.dev.fresh + 1 } with hd0
    obtain ⟨h1, h2, h3⟩ := d0.laneSend_spec n 0 0 data
    set d1 := d0.laneSend n 0 0 data with hd1
    obtain ⟨h4, h5, h6⟩ := d1.driveCells (s.dev.laneCells n) (laneCells_nodup _ n) (s.dev.driveTick n)
    have hstep : exec (.driveFrame n) s = .next { s with dev := ((s.dev.laneCells n).foldl (fun (e : Dev) i => (e.cellMod i fun c => { c with
        kSent := some (s.dev.driveTick n, e.now)
        samples := c.samples ++ [⟨s.dev.driveTick n, e.now, none⟩] }).cmdShow i) d1) } := by
      have hdone : ((s.dev.laneCells n).any fun i => match s.dev.cells[i].kSent with
          | some (j, _) => s.dev.driveTick n ≤ j
          | none => false) = false := by
        rw [List.any_eq_false]
        intro i hi
        split
        · rename_i j t hk
          have := hsent i hi j t hk
          rw [decide_eq_true_eq]
          omega
        · decide
      change execDriveFrame n s = _
      unfold execDriveFrame
      rw [onLive_next _ _ hl]
      have hc : (s.dev.laneUp n && !((s.dev.laneCells n).any fun i => match s.dev.cells[i].kSent with
          | some (j, _) => decide (s.dev.driveTick n ≤ j)
          | none => false)) = true := by rw [hup, hdone]; rfl
      exact congrArg (fun e => Host.Outcome.next { s with dev := e }) (Dev.when_of _ _ hc)
    have hcells : d1.cells = s.dev.cells := h1.get Dev.cells
    have hnow : d1.now = s.dev.now := h1.get Dev.now
    rw [hnow] at h5
    clear_value d1
    generalize (s.dev.laneCells n).foldl (fun (e : Dev) i => (e.cellMod i fun c => { c with
        kSent := some (s.dev.driveTick n, e.now)
        samples := c.samples ++ [⟨s.dev.driveTick n, e.now, none⟩] }).cmdShow i) d1 = e at h4 h5 h6 hstep
    have hlanes : e.lanes = d1.lanes := h4.get Dev.lanes
    refine ⟨e, slip, hstep, ?_, ?_, ?_, fun i hi => ?_, fun i hi => ?_, fun k hk => ?_⟩
    · exact congrArg (fun x : Dev => { x with regs := e.regs, cells := e.cells, lanes := e.lanes })
        ((h1.mono (G := [.regs, .cells, .lanes]) (by decide)).step h4 (by decide))
    · refine Nat.mod_lt _ (Nat.div_pos ?_ (Nat.two_pow_pos _))
      have hlt : s.dev.getF (laneB n) R.LANE_STAT 5 4 < 4 := fld_lt _ 5 4
      calc 2 ^ s.dev.getF (laneB n) R.LANE_STAT 5 4 ≤ 2 ^ 3 := Nat.pow_le_pow_right (by decide) (by omega)
        _ ≤ 132 := by decide
    · simp only [hlanes, h2]
      rfl
    · refine (h5 i hi).trans ?_
      simp only [hcells]
    · refine (h6 i hi).trans ?_
      simp only [hcells]
    · simp only [hlanes, h3 k hk]
      rfl
  case frame =>
    by_cases hdup : s.dev.lanes[n].fbTicks.any (fun t => t.1 = f.tick && s.dev.tick < t.2 + 256) = true
    · obtain ⟨h1, h2⟩ := s.dev.creditViol_spec n
      refine ⟨s.dev.creditViol n, ?_, ?_⟩
      · change execFeedbackFrame n f s = _
        unfold execFeedbackFrame
        rw [onLiveMem_next _ _ hl]
        simp only [hup, not_true_eq_false, if_false, hdup, if_true]
      · rw [if_pos hdup]
        exact ⟨h1, h2⟩
    · set d1 := s.dev.laneMod n fun l => { l with
          fbTicks := (f.tick, s.dev.tick) :: l.fbTicks.filter fun t => s.dev.tick < t.2 + 256 } with hd1
      have hk : ∀ c ∈ (d1.laneCells n).zip f.words, isHead c.1 = true ∧ cellServo c.1 = Fin.ofNat 8 (n.val / 4) := fun c hc => by
        obtain ⟨hh, h24⟩ := laneCells_head hn (List.of_mem_zip hc).1
        exact ⟨hh, by rw [cellServo, h24]⟩
      obtain ⟨e, h1, h2, h3⟩ := fbWords_head s.mem d1 f.tick hsl (Fin.ofNat 8 (n.val / 4)) ((d1.laneCells n).zip f.words) hk
      refine ⟨e, ?_, ?_⟩
      · change execFeedbackFrame n f s = _
        unfold execFeedbackFrame
        rw [onLiveMem_next _ _ hl]
        simp only [hup, not_true_eq_false, if_false, hdup, Bool.false_eq_true, ← hd1, h1]
      · rw [if_neg hdup]
        have hlanes : e.lanes = d1.lanes := h2.get Dev.lanes
        refine ⟨?_, fun i ht hi => h3 ht i fun c hc he => hi ?_⟩
        · have hl1 : s.dev.lanes.set n { s.dev.lanes[n] with
              fbTicks := (f.tick, s.dev.tick) :: s.dev.lanes[n].fbTicks.filter fun t => s.dev.tick < t.2 + 256 } = e.lanes := by
            rw [hlanes, hd1]
            rfl
          rw [hl1]
          exact congrArg (fun x : Dev => { x with
            regs := e.regs, vecs := e.vecs, fabric := e.fabric, cells := e.cells, tunes := e.tunes, lanes := e.lanes })
            ((s.dev.laneMod_changes n _).mono (G := [.regs, .vecs, .fabric, .cells, .tunes, .lanes]) (by decide) |>.step h2 (by decide))
        · rw [he]
          exact (List.of_mem_zip hc).1
  case word =>
    set d1 := s.dev.laneMod (headLane h) fun l => { l with
        fbTicks := (tick, s.dev.tick) :: l.fbTicks.filter fun t => s.dev.tick < t.2 + 256 } with hd1
    have hblk := cellBlk_headCell h
    have hhead := isHead_headCell h
    have hcells : d1.laneCells (headLane h) = headCell h 0 :: (List.range 5).map fun r => Fin.ofNat 256 (6 * h.val + (r + 1)) := by
      rw [Dev.laneCells, if_pos (show (headLane h).val < 32 from h.isLt)]
      rfl
    obtain ⟨h1, h2, h3⟩ := fbWord_good s.mem d1 hhead tick w hcrc hb hx ht
    obtain ⟨hm, -⟩ := fbWord_head s.mem d1 hhead tick w
    have hreach : d1.reached (cellBlk (headCell h 0)) (some (cellIx (headCell h 0))) = d1 := by
      unfold Dev.reached
      rw [show d1.flt = s.dev.flt from rfl, hsl]
    refine ⟨(fbWord s.mem d1 (headCell h 0) tick w).2, ?_, h1, h2, h3⟩
    change execFeedbackFrame (headLane h) ⟨tick, [w]⟩ s = _
    unfold execFeedbackFrame
    rw [onLiveMem_next _ _ hl]
    have hrst1 : d1.inReset (cellBlk (headCell h 0)) = false := by rw [hblk]; exact hrst
    simp only [hup, not_true_eq_false, if_false, hdup, Bool.false_eq_true, ← hd1, hcells, List.zip_cons_cons, List.zip_nil_right,
      List.foldl_cons, List.foldl_nil, hrst1, hreach, hm]
  case timeout =>
    have hw := ((Dev.cellWork.refl i s.dev).judge x.k false).passHeld x.k
    have hj := s.dev.judge_judged i x.k false ((Dev.cellWork.refl i _).passHeld x.k)
    have hstep : exec (.feedbackTimeout n j) s = .next { s with dev := (s.dev.judge i x.k false).passHeld i x.k } := by
      change execFeedbackTimeout n j s = _
      unfold execFeedbackTimeout
      rw [onLive_next _ _ hl]
      simp only [hi, hx, Dev.when_of _ _ ht]
    generalize (s.dev.judge i x.k false).passHeld i x.k = e at hw hj hstep
    exact ⟨e, hstep, congrArg (fun x : Dev => { x with
      regs := e.regs, vecs := e.vecs, fabric := e.fabric, cells := e.cells, tunes := e.tunes, msps := e.msps }) hw.work, hj⟩

end Sys2Proof.Machine
end

section
/-! The control deadline (R161 to R164, R168). -/

namespace Sys2Proof.Machine

/-! What the law rests on. -/

theorem Dev.measure_tunes (n : Nat) (d : Dev) : (d.measure n).2.tunes = d.tunes := by
  induction n generalizing d with
  | zero => rfl
  | succ n ih => exact ih d.free.2

/-- BLK_CTL of a block and the control word of a cell: on them rest a block's service and the law. -/
def lawReg (a : Nat) : Prop := a % 0x1000 = 8 ∨ a % 0x80 = 0x50

/-- Work of a control deadline at head cell `i`, which keeps `p` of the cell. -/
structure Dev.lawWork {α : Type} (p : SCell → α) (i : Fin 256) (d e : Dev) : Prop where
  work : d.changes [.regs, .live, .vecs, .fabric, .cells, .tunes, .fresh] e
  regs : d.regsKept e fun a => ¬ lawReg a
  others : ∀ j : Fin 256, j ≠ i → e.cells[j] = d.cells[j]
  live : d.cells[i].due = [] → e.cells[i].due = [] ∧ e.live = d.live
  tunes : d.tunes[cellServo i] = none → e.tunes = d.tunes
  part : p e.cells[i] = p d.cells[i]

namespace Dev.lawWork

variable {α : Type} {p : SCell → α} {i : Fin 256} {d e f : Dev}

theorem refl (p : SCell → α) (i : Fin 256) (d : Dev) : lawWork p i d d :=
  ⟨.refl d _, d.regsKept_refl _, fun _ _ => rfl, fun h => ⟨h, rfl⟩, fun _ => rfl, rfl⟩

theorem ite {c : Prop} [Decidable c] (r : lawWork p i d e) (r' : lawWork p i d f) : lawWork p i d (if c then e else f) := by
  split <;> assumption

variable (r : lawWork p i d e)
include r

theorem trans (r' : lawWork p i e f) : lawWork p i d f where
  work := r.work.trans r'.work
  regs := r.regs.trans r'.regs
  others j hj := (r'.others j hj).trans (r.others j hj)
  live h := ⟨(r'.live (r.live h).1).1, (r'.live (r.live h).1).2.trans (r.live h).2⟩
  tunes h := (r'.tunes (by rw [r.tunes h]; exact h)).trans (r.tunes h)
  part := r'.part.trans r.part

/-- A step beside the cells. -/
theorem beside (r' : e.changes [.regs, .vecs, .fabric, .fresh] f) (hk : e.regsKept f fun a => ¬ lawReg a) : lawWork p i d f := by
  have hc : f.cells = e.cells := r'.get Dev.cells
  have hl : f.live = e.live := r'.get Dev.live
  have ht : f.tunes = e.tunes := r'.get Dev.tunes
  exact r.trans ⟨r'.mono (by decide), hk, fun j _ => by rw [hc], fun h => ⟨by rw [hc]; exact h, hl⟩, fun _ => ht, by rw [hc]⟩

theorem put (b : Blk) (g : Reg) (w : Word) (j k : Nat) (hg : g.ofs j k % 0x1000 ≠ 8 ∧ g.ofs j k % 0x80 ≠ 0x50) :
    lawWork p i d (e.put b g w j k) :=
  r.beside ((e.put_changes b g w j k).mono (by decide)) (e.regsKept_put _ _ _ _ _ (by unfold lawReg radr badr; omega))

/-- A write of a register that every cell has. -/
theorem putCell (g : Reg) (w : Word) (hs : g.s0 = 0x80 ∧ g.s1 = 0 ∧ 0x100 ≤ g.off ∧ g.off < 0x180 ∧ g.off ≠ 0x150) :
    lawWork p i d (e.put (cellBlk i) g w (cellIx i)) := by
  obtain ⟨h0, h1, h2, h3, h4⟩ := hs
  refine r.put _ _ _ _ _ ?_
  rw [Reg.ofs, h0, h1]
  have : cellIx i < 24 := by unfold cellIx; split <;> omega
  omega

theorem vector (v : Nat) (hv : v < 64) : lawWork p i d (e.vector v) :=
  r.beside ((e.vector_changes v).mono (by decide)) fun a ha => e.vector_regs v a fun he => ha <| by
    rw [he]
    have : (R.HIF_EVT_PEND).ofs (v / 32) 0 = 0x120 + 4 * (v / 32) := by change 0x120 + 4 * (v / 32) + 0 * 0 = _; omega
    unfold lawReg radr badr
    rw [this]
    omega

theorem event (b : Blk) (g en : Reg) (m : Word) (v k : Nat) (hg : g.ofs k 0 % 0x1000 ≠ 8 ∧ g.ofs k 0 % 0x80 ≠ 0x50) (hv : v < 64) :
    lawWork p i d (e.event b g en m v k) := by
  unfold Dev.event
  exact .ite (r.put _ _ _ _ _ hg) ((r.put _ _ _ _ _ hg).vector v hv)

theorem raise (b : Blk) (c : Option Nat) (kind addr : Nat) : lawWork p i d (e.raise b c kind addr) := by
  unfold Dev.raise Dev.detect
  split
  · exact r
  · extract_lets km own crit was d1 d2
    have h1 : lawWork p i d d1 := .ite (r.put _ _ _ _ _ (by decide)) r
    have h2 : lawWork p i d d2 := .ite ((h1.vector 0 (by decide)).put _ _ _ _ _ (by decide)) h1
    clear_value d1 d2
    exact .ite h2 (h2.beside ((d2.post_changes _ _ _ _ _ _ _ _).mono (by decide)) fun _ _ => rfl)

theorem cellFault (j : Fin 256) (kind : Nat) : lawWork p i d (e.cellFault j kind) := by
  unfold Dev.cellFault Dev.cellEvent
  have h1 := r.raise (cellBlk j) (some (cellIx j)) kind 0
  dsimp only
  split
  · exact h1.event _ _ _ _ _ _ (by decide) (by omega)
  · exact h1

/-- A change of the cell that keeps `p` and the coefficients that wait. -/
theorem cellMod {g : SCell → SCell} (hg : p (g e.cells[i]) = p e.cells[i]) (hd : (g e.cells[i]).due = e.cells[i].due) :
    lawWork p i d (e.cellMod i g) :=
  r.trans ⟨Dev.changes.mono (F := [.cells]) rfl (by decide), fun _ _ => rfl, fun _ hj => e.cellMod_ne g hj,
    fun h => ⟨by rw [Dev.cellMod_same, hd]; exact h, rfl⟩, fun _ => rfl, by rw [Dev.cellMod_same]; exact hg⟩

theorem setTunes {t : Tune} (k : Tune) (ht : e.tunes[cellServo i] = some t) :
    lawWork p i d { e with tunes := e.tunes.set (cellServo i) (some k) } :=
  r.trans ⟨Dev.changes.mono (F := [.tunes]) rfl (by decide), fun _ _ => rfl, fun _ _ => rfl, fun h => ⟨h, rfl⟩,
    fun h => (by rw [ht] at h; cases h), rfl⟩

theorem measure (n : Nat) : lawWork p i d (e.measure n).2 := by
  induction n generalizing e with
  | zero => exact r
  | succ n ih => exact ih (r.beside (Dev.changes.mono (F := [.fresh]) rfl (by decide)) fun _ _ => rfl)

theorem tunePoint (t : Tune) {t' : Tune} (ht : e.tunes[cellServo i] = some t') : lawWork p i d (e.tunePoint (cellServo i) t) := by
  unfold Dev.tunePoint
  dsimp only
  split
  · rename_i f g q c w d1 hm
    have h1 : lawWork p i e (e.measure 5).2 := (refl p i e).measure 5
    rw [hm] at h1
    have ht1 : d1.tunes[cellServo i] = some t' := by
      have h2 := Dev.measure_tunes 5 e
      rw [hm] at h2
      rw [show d1.tunes = e.tunes from h2]
      exact ht
    exact ((((r.trans h1).setTunes _ ht1).put _ _ _ _ _ (by decide)).put _ _ _ _ _ (by decide)).put _ _ _ _ _ (by decide)
      |>.put _ _ _ _ _ (by decide)
  · exact r

/-- A computed tick of the tuning operation is recorded (R179). -/
theorem tuneTick (clip : Bool) : lawWork p i d (e.tuneTick i clip) := by
  unfold Dev.tuneTick
  split
  · rename_i t ht
    have ht' : e.tunes[cellServo i] = some t := by
      unfold Dev.tuneOf at ht
      dsimp only at ht
      split at ht
      · exact ht
      · cases ht
    dsimp only
    refine .ite (.ite r (.ite ?_ (r.setTunes _ ht'))) (.ite r ((r.setTunes _ ht').put _ _ _ _ _ (by decide)))
    exact (r.setTunes _ ht').tunePoint _ (t' := _) (vset_same _ _ _)
  · exact r

/-- The checks of following error and saturation (R164, R172, R173). -/
theorem lawChecks (hp : ∀ c a b x y, p { c with feRun := a, feSaid := b, satRun := x, satSaid := y } = p c) (v : Int) (clip sat : Bool) :
    lawWork p i d (e.lawChecks i v clip sat) := by
  unfold Dev.lawChecks
  extract_lets b c ticks max big check feRun opn feSaid satRun full d1 w d2 d3 d4 d5
  have h1 : lawWork p i d d1 := r.cellMod (hp _ _ _ _ _) rfl
  clear_value d1
  have h2 : lawWork p i d d2 := ((h1.putCell _ _ (by decide)).putCell _ _ (by decide)).putCell _ _ (by decide)
  have h3 : lawWork p i d d3 := h2.putCell _ _ (by decide)
  have h4 : lawWork p i d d4 := .ite (.ite (h3.putCell _ _ (by decide)) h3) h1
  clear_value d4
  have h5 : lawWork p i d d5 := .ite (h4.cellFault i 1) h4
  exact .ite (h5.cellFault i 2) h5

/-- Coefficients that waited for the end of the computation go live (R177). -/
theorem takeDue (hp : ∀ c l, p { c with due := l } = p c) : lawWork p i d (e.takeDue i) := by
  unfold Dev.takeDue
  dsimp only
  split
  · exact r
  · rename_i hd
    exact r.trans ⟨Dev.changes.mono (F := [.live, .cells]) rfl (by decide), fun _ _ => rfl, fun _ hj => Dev.cellMod_ne _ _ hj,
      fun h => absurd (by rw [h]; rfl) hd, fun _ => rfl, by rw [Dev.cellMod_same]; exact hp _ _⟩

end Dev.lawWork

/-! One cell. -/

/-- What of a cell its drive word, state and angle are. -/
def SCell.drive (c : SCell) : Option Nat × Bool × Int × Nat × Int := (c.kDone, c.en, c.cmd, c.st, c.th1)

/-- The measured angle a cell's computation of tick `k` starts from, none where it holds over (R161, R168). -/
def SCell.measured (c : SCell) (k : Nat) : Option Int :=
  match c.newest with
  | some (j, th) => if j = k ∧ c.st ≠ 3 then some th else none
  | none => none

/-- The angle its law is evaluated at. -/
def SCell.angle (c : SCell) (k : Nat) : Int :=
  match c.measured k with
  | some v => v
  | none => if c.st = 3 then c.frozen else c.th1 + c.om

section
variable (d : Dev) (i : Fin 256)

/-- A cell computes: its law, then work that keeps the drive word (R161, R168). -/
theorem Dev.cellTick_law (k : Nat) (hr : Machine.runState d.cells[i].st = true) :
    let x := d.law i (d.cells[i].angle k) (d.cells[i].measured k).isNone (d.tuneInputs i).1 (d.tuneInputs i).2
    Dev.lawWork SCell.drive i (d.cellMod i fun _ => { x.1 with kDone := some k }) (d.cellTick i k) := by
  unfold Dev.cellTick
  rw [if_neg (by simpa using hr)]
  exact (((Dev.lawWork.refl _ i _).lawChecks (fun _ _ _ _ _ => rfl) _ _ _).tuneTick _).takeDue fun _ _ => rfl

theorem rnd_le {x : Rat} {n : Nat} (h1 : -(n : Rat) ≤ x) (h2 : x ≤ n) : (rnd x).natAbs ≤ n := by
  have hup : ∀ y : Rat, y ≤ n → ⌊y + 1 / 2⌋ ≤ n := fun y hy => by
    have : ⌊y + 1 / 2⌋ < (n : Int) + 1 := Int.floor_lt.mpr (by push_cast; linarith)
    omega
  unfold rnd
  split
  · have h0 : 0 ≤ ⌊-x + 1 / 2⌋ := Int.le_floor.mpr (by push_cast; linarith)
    have := hup (-x) (by linarith)
    change (-⌊-x + 1 / 2⌋).natAbs ≤ n
    omega
  · have h0 : 0 ≤ ⌊x + 1 / 2⌋ := Int.le_floor.mpr (by push_cast; linarith)
    have := hup x h2
    change (⌊x + 1 / 2⌋).natAbs ≤ n
    omega

/-- The law gives EN 1 and a command within full scale, at the angle measured; the state and what waits stay (R163, R164). -/
theorem Dev.law_cell (th : Int) (held : Bool) (ofs test : Int) :
    let c := (d.law i th held ofs test).1
    c.en = true ∧ c.cmd.natAbs ≤ 524287 ∧ c.st = d.cells[i].st ∧ c.th1 = th ∧ c.due = d.cells[i].due := by
  refine ⟨rfl, ?_, rfl, rfl, rfl⟩
  unfold Dev.law
  extract_lets c k lim ilim clim cctl prev e integ uff raw x1 n1 n2 s u om
  have hc : 0 ≤ clim ∧ clim ≤ 65535 * 2 ^ 24 := by
    have := fld_lt lim 15 0
    simp only [clim]
    omega
  have hu : -clim ≤ u ∧ u ≤ clim := by simp only [u, clampI]; omega
  clear_value u clim
  apply rnd_le
  all_goals
    have h1 : (-(65535 * 2 ^ 24) : Rat) ≤ u := by exact_mod_cast (by omega : (-(65535 * 2 ^ 24) : Int) ≤ u)
    have h2 : (u : Rat) ≤ 65535 * 2 ^ 24 := by exact_mod_cast (by omega : u ≤ (65535 * 2 ^ 24 : Int))
    have h3 : (FS : Rat) = 2 ^ 40 := by norm_num [FS]
    rw [h3]
    linarith

/-- The law rests on the coefficients in force, the cell's control word and the cell; not on the mark of a missing setpoint. -/
theorem Dev.law_congr {d e : Dev} {i : Fin 256} (m : Bool) (hl : e.live = d.live) (hc : e.cget i R.SRV_CCTL = d.cget i R.SRV_CCTL)
    (hcell : e.cells[i] = { d.cells[i] with spMiss := m }) (th : Int) (held : Bool) (ofs test : Int) :
    (e.law i th held ofs test).1.cmd = (d.law i th held ofs test).1.cmd := by
  have hlim : ∀ r, e.cliv i r = d.cliv i r := fun r => by simp only [Dev.cliv, hl]
  have hco : ∀ r j, e.coef i r j = d.coef i r j := fun r j => by simp only [Dev.coef, Dev.cliv, hl]
  refine congrArg (fun u : Int => rnd ((u : Rat) * 524287 / (FS : Rat))) ?_
  simp only [hco, hlim, hc, hcell]

/-- A cell computes, if it evaluates the law at all (R168). -/
theorem Dev.cellTick_work (k : Nat) : Dev.lawWork SCell.st i d (d.cellTick i k) := by
  by_cases hr : Machine.runState d.cells[i].st = true
  · have h := d.cellTick_law i k hr
    generalize hx : d.law i (d.cells[i].angle k) (d.cells[i].measured k).isNone (d.tuneInputs i).1 (d.tuneInputs i).2 = x at h
    have hl := d.law_cell i (d.cells[i].angle k) (d.cells[i].measured k).isNone (d.tuneInputs i).1 (d.tuneInputs i).2
    rw [hx] at hl
    obtain ⟨-, -, hst, -, hdue⟩ := hl
    refine ((Dev.lawWork.refl SCell.st i d).cellMod (g := fun _ => { x.1 with kDone := some k }) hst hdue).trans ?_
    exact ⟨h.work, h.regs, h.others, h.live, h.tunes, congrArg (fun y => y.2.2.2.1) h.part⟩
  · rw [Dev.cellTick, if_pos hr]
    exact .refl _ _ _

/-- What a cell computes shows in it (R161, R163, R168). -/
theorem Dev.cellTick_spec (k : Nat) (hr : Machine.runState d.cells[i].st = true) :
    let x := d.law i (d.cells[i].angle k) (d.cells[i].measured k).isNone (d.tuneInputs i).1 (d.tuneInputs i).2
    (d.cellTick i k).cells[i].drive = (some k, true, x.1.cmd, d.cells[i].st, d.cells[i].angle k) ∧ x.1.cmd.natAbs ≤ 524287 := by
  obtain ⟨hen, hcmd, hst, hth, -⟩ := d.law_cell i (d.cells[i].angle k) (d.cells[i].measured k).isNone (d.tuneInputs i).1 (d.tuneInputs i).2
  refine ⟨(d.cellTick_law i k hr).part.trans ?_, hcmd⟩
  rw [Dev.cellMod_same]
  simp only [SCell.drive, hen, hst, hth]

end

/-! A head's cells. -/

/-- A cell's part of a control deadline. -/
def Dev.deadlineCell (h : Fin 32) (e : Dev) (r : Nat) : Dev :=
  match e.cells[headCell h r].kSent with
  | none => e
  | some (k, t) =>
    if e.cells[headCell h r].kDone ≠ some k ∧ e.pastNs t 880 then (e.spMissing h (headCell h r) k).cellTick (headCell h r) k else e

theorem exec_controlDeadline (h : Fin 32) (s : State) (hlive : s.dev.dead = false) (hup : s.dev.up (blk .servo (h.val / 4)) = true) :
    exec (.controlDeadline h) s = .next { s with dev := ((List.range 6).foldl (Dev.deadlineCell h) s.dev) } := by
  change execControlDeadline h s = _
  unfold execControlDeadline
  rw [onLive_next _ _ hlive]
  exact congrArg (fun e => Host.Outcome.next { s with dev := e }) (Dev.when_of _ _ hup)

section
variable (d : Dev) (h : Fin 32)

theorem Dev.up_of_regs {d e : Dev} {b : Blk} (hr : spGet e.regs (radr b R.BLK_CTL) = spGet d.regs (radr b R.BLK_CTL)) : e.up b = d.up b := by
  have hg : e.get b R.BLK_CTL = d.get b R.BLK_CTL := Dev.get_of_regs b _ _ _ hr
  simp only [Dev.up, Dev.status, Dev.unitStatus, Dev.fenced, Dev.fence, Dev.inReset, Dev.getF, Dev.getB, hg]
  rfl

/-- The cell's setpoint is found missing, or not (R165). -/
theorem Dev.spMissing_work (i : Fin 256) (k : Nat) : Dev.lawWork SCell.st i d (d.spMissing h i k) := by
  unfold Dev.spMissing
  have h0 := Dev.lawWork.refl SCell.st i d
  refine .ite (h0.cellMod rfl rfl) (.ite ?_ h0)
  have h1 := h0.cellMod (g := fun c => { c with spV := 0, spA := 0, spMiss := true }) rfl rfl
  exact .ite h1 (h1.cellFault i 4)

theorem Dev.deadlineCell_work (r : Nat) : Dev.lawWork SCell.st (headCell h r) d (d.deadlineCell h r) := by
  unfold Dev.deadlineCell
  split
  · exact .refl _ _ _
  · exact .ite ((d.spMissing_work h _ _).trans (Dev.cellTick_work _ _ _)) (.refl _ _ _)

/-- A cell whose tick is due, while its head's setpoints come: it computes (R161, R168). -/
theorem Dev.deadlineCell_due {r k t : Nat} (hs : d.cells[headCell h r].kSent = some (k, t)) (hk : d.cells[headCell h r].kDone ≠ some k)
    (hp : d.pastNs t 880 = true) (hr : Machine.runState d.cells[headCell h r].st = true) (hup : d.up (headB h) = true) :
    let c := d.cells[headCell h r]
    let o := d.tuneInputs (headCell h r)
    let cmd := (d.law (headCell h r) (c.angle k) (c.measured k).isNone o.1 o.2).1.cmd
    (d.deadlineCell h r).cells[headCell h r].drive = (some k, true, cmd, c.st, c.angle k) ∧ cmd.natAbs ≤ 524287 := by
  intro c o cmd
  have hd : d.deadlineCell h r = (d.cellMod (headCell h r) fun c => { c with spMiss := false }).cellTick (headCell h r) k := by
    unfold Dev.deadlineCell
    rw [hs]
    dsimp only
    rw [if_pos ⟨hk, hp⟩, Dev.spMissing, if_pos (.inl hup)]
  set d1 := d.cellMod (headCell h r) fun c => { c with spMiss := false } with hd1
  have hc : d1.cells[headCell h r] = { c with spMiss := false } := Dev.cellMod_same _ _ _
  have ho : d1.tuneInputs (headCell h r) = o := by
    simp only [Dev.tuneInputs, Dev.tuneOf, hc]
    rfl
  have := d1.cellTick_spec (headCell h r) k (by rw [hc]; exact hr)
  rw [ho, hc] at this
  dsimp only at this
  rw [Dev.law_congr (d := d) (e := d1) false rfl rfl hc] at this
  rw [hd]
  exact this

theorem isHead_of_lt (r : Fin 6) : isHead (headCell h r) = true := by
  refine decide_eq_true ?_
  have hlt : 6 * h.val + r.val < 256 := by omega
  simp only [headCell, Fin.val_ofNat, Nat.mod_eq_of_lt hlt]
  omega

theorem cctl_mod (i : Fin 256) (hi : isHead i = true) : cellAdr i R.SRV_CCTL % 0x80 = 0x50 := by
  unfold cellAdr
  rw [if_pos hi]
  change ((cellBlk i).region.val * 0x100000 + (cellBlk i).block.val * 0x1000 + (0x150 + 0x80 * cellIx i + 0 * 0)) % 0x80 = 0x50
  omega

/-- What some cells of a head have done at a control deadline leaves of the rest. -/
structure Dev.deadlineReach (h : Fin 32) (d e : Dev) : Prop where
  work : d.changes [.regs, .live, .vecs, .fabric, .cells, .tunes, .fresh] e
  regs : d.regsKept e fun a => ¬ lawReg a
  others : ∀ i : Fin 256, (∀ r : Fin 6, i ≠ headCell h r) → e.cells[i] = d.cells[i]
  quiet : (∀ q : Fin 6, d.cells[headCell h q].due = []) → d.tunes[(Fin.ofNat 8 (h.val / 4) : Fin 8)] = none →
    (∀ q : Fin 6, e.cells[headCell h q].due = []) ∧ e.live = d.live ∧ e.tunes = d.tunes

theorem cellServo_headCell {r : Nat} (hr : r < 6) : cellServo (headCell h r) = Fin.ofNat 8 (h.val / 4) := by
  apply Fin.ext
  have hlt : 6 * h.val + r < 256 := by omega
  simp only [cellServo, headCell, Fin.val_ofNat, Nat.mod_eq_of_lt hlt]
  omega

theorem Dev.deadlineReach.cell {h : Fin 32} {d e f : Dev} (k : d.deadlineReach h e) {r : Nat} (hr : r < 6)
    (w : Dev.lawWork SCell.st (headCell h r) e f) : d.deadlineReach h f where
  work := k.work.trans w.work
  regs := k.regs.trans w.regs
  others i hi := (w.others i (hi ⟨r, hr⟩)).trans (k.others i hi)
  quiet hd ht := by
    obtain ⟨h1, h2, h3⟩ := k.quiet hd ht
    obtain ⟨h4, h5⟩ := w.live (h1 ⟨r, hr⟩)
    have h6 := w.tunes (by simp only [cellServo_headCell h hr, h3]; exact ht)
    refine ⟨fun q => ?_, h5.trans h2, h6.trans h3⟩
    by_cases hq : headCell h q = headCell h r
    · simp only [hq]
      exact h4
    · rw [w.others _ hq]
      exact h1 q

/-- The cells compute one after the other, each from the state the ones before it have left. -/
theorem Dev.deadline_cells (l : List Nat) (hl : l.Nodup) (h6 : ∀ r ∈ l, r < 6) :
    let e := l.foldl (Dev.deadlineCell h) d
    d.deadlineReach h e ∧ (∀ r < 6, r ∉ l → e.cells[headCell h r] = d.cells[headCell h r]) ∧
    ∀ r ∈ l, ∃ x : Dev, d.deadlineReach h x ∧ x.cells[headCell h r] = d.cells[headCell h r] ∧
      e.cells[headCell h r] = (x.deadlineCell h r).cells[headCell h r] := by
  induction l using List.reverseRecOn with
  | nil => exact ⟨⟨.refl d _, d.regsKept_refl _, fun _ _ => rfl, fun hd _ => ⟨hd, rfl, rfl⟩⟩, fun _ _ _ => rfl, fun r hr => (List.not_mem_nil hr).elim⟩
  | append_singleton l r ih =>
    have hnd := List.nodup_append.mp hl
    have hr : r ∉ l := fun hm => hnd.2.2 r hm r List.mem_cons_self rfl
    have hr6 : r < 6 := h6 r (List.mem_append_right _ List.mem_cons_self)
    have hother : ∀ q, q < 6 → q ≠ r → headCell h q ≠ headCell h r := fun q hq hne he => hne (headCell_inj h hq hr6 he)
    obtain ⟨h1, h2, h3⟩ := ih hnd.1 fun q hq => h6 q (List.mem_append_left _ hq)
    rw [List.foldl_append, List.foldl_cons, List.foldl_nil]
    set e := l.foldl (Dev.deadlineCell h) d
    have hw := e.deadlineCell_work h r
    refine ⟨h1.cell hr6 hw, fun q hq hn => ?_, fun q hq => ?_⟩
    · have hq' := not_or.mp fun hm => hn (List.mem_append.mpr hm)
      rw [hw.others _ (hother q hq (by simpa using hq'.2))]
      exact h2 q hq hq'.1
    · rcases List.mem_append.mp hq with hq | hq
      · obtain ⟨x, hx, hxc, hxe⟩ := h3 q hq
        refine ⟨x, hx, hxc, ?_⟩
        rw [hw.others _ (hother q (h6 q (List.mem_append_left _ hq)) fun he => hr (he ▸ hq))]
        exact hxe
      · obtain rfl := List.mem_singleton.mp hq
        exact ⟨e, h1, h2 q hr6 hr, rfl⟩

end

/-- Settles O30: each cell whose tick is due computes from a state that the cells before it have left its cell, its control word, its
head's service and, outside a tuning operation and with no coefficients waiting, the coefficients as they were. -/
theorem controlDeadlinesComputeTheLaw : Obligations.ControlDeadlinesComputeTheLaw := by
  intro s h hlive hservo hup
  refine ⟨_, exec_controlDeadline h s hlive hservo, ?_⟩
  obtain ⟨hreach, -, hcells⟩ := s.dev.deadline_cells h (List.range 6) List.nodup_range fun r hr => List.mem_range.mp hr
  generalize (List.range 6).foldl (Dev.deadlineCell h) s.dev = e at hreach hcells
  refine ⟨congrArg (fun x : Dev => { x with
    regs := e.regs, live := e.live, vecs := e.vecs, fabric := e.fabric, cells := e.cells, tunes := e.tunes, fresh := e.fresh })
    hreach.work, fun r k t hs hk hp hr => ?_, hreach.others⟩
  obtain ⟨x, hx, hxc, hxe⟩ := hcells r (List.mem_range.mpr r.isLt)
  have hctl : ∀ b : Blk, lawReg (radr b R.BLK_CTL) := fun b => by
    change (b.region.val * 0x100000 + b.block.val * 0x1000 + 8) % 0x1000 = 8 ∨ _
    omega
  obtain ⟨hdrive, hcmd⟩ := x.deadlineCell_due h (r := r) (k := k) (t := t) (by rw [hxc]; exact hs) (by rw [hxc]; exact hk)
    (by rw [Dev.pastNs, show x.now = s.dev.now from hx.work.get Dev.now]; exact hp) (by rw [hxc]; exact hr)
    (by rw [Dev.up_of_regs (hx.regs _ (not_not_intro (hctl _)))]; exact hup)
  rw [← hxe] at hdrive
  obtain ⟨hkd, hen, hc, hst, hth⟩ : e.cells[headCell h r].kDone = _ ∧ e.cells[headCell h r].en = _ ∧ e.cells[headCell h r].cmd = _ ∧
    e.cells[headCell h r].st = _ ∧ e.cells[headCell h r].th1 = _ := by simpa only [SCell.drive, Prod.mk.injEq] using hdrive
  rw [hxc] at hst
  refine ⟨hkd, hen, by rw [hc]; exact hcmd, hst, fun hdue htune => ?_⟩
  obtain ⟨-, hlive', htunes⟩ := hx.quiet hdue htune
  have hcctl : x.cget (headCell h r) R.SRV_CCTL = s.dev.cget (headCell h r) R.SRV_CCTL :=
    congrArg (Option.getD · _) (hx.regs _ (not_not_intro (.inr (cctl_mod (headCell h r) (isHead_of_lt h r)))))
  have hin : x.tuneInputs (headCell h r) = (0, 0) := by
    have hnone : x.tuneOf (headCell h r) = none := by
      have hk : x.tunes[cellServo (headCell h r)] = none := by simp only [htunes, cellServo_headCell h r.isLt]; exact htune
      unfold Dev.tuneOf
      dsimp only
      split
      · exact hk
      · rfl
    unfold Dev.tuneInputs
    rw [hnone]
  have hlaw := Dev.law_congr (d := s.dev) (e := x) s.dev.cells[headCell h r].spMiss hlive' hcctl hxc
  rw [hxc, hin, hlaw] at hc
  rw [hxc] at hth
  have hnone : (∀ th, s.dev.cells[headCell h r].newest = some (k, th) → s.dev.cells[headCell h r].st = 3) →
      s.dev.cells[headCell h r].measured k = none := fun hno => by
    unfold SCell.measured
    split
    · rename_i j th hn
      refine if_neg fun hjk => hjk.2 (hno th ?_)
      rw [hn, hjk.1]
    · rfl
  refine ⟨fun th hn hne => ?_, fun hno => ?_⟩
  · have hm : s.dev.cells[headCell h r].measured k = some th := by
      unfold SCell.measured
      rw [hn]
      exact if_pos ⟨rfl, hne⟩
    simp only [SCell.angle, hm] at hc hth
    exact ⟨hc, hth⟩
  · have hm := hnone fun th hn => by
      rcases hno with hno | hno
      · rw [hn] at hno
        exact absurd rfl hno
      · exact hno
    simp only [SCell.angle, hm] at hc hth
    exact ⟨hc, hth⟩

end Sys2Proof.Machine
end

section
/-! Coefficients that go live (R177, R358). -/

namespace Sys2Proof.Machine

/-- What several writes leave at an address: the value written, where all writes there agree. -/
theorem spGet_foldl_spPut {α : Type} (s : List (Nat × α)) (l : List (Nat × α)) (a : Nat) (v : α)
    (h : ∀ x ∈ s, x.1 = a → x.2 = v) (hm : (∃ x ∈ s, x.1 = a) ∨ spGet l a = some v) :
    spGet (s.foldl (fun l x => spPut l x.1 x.2) l) a = some v := by
  induction s generalizing l with
  | nil =>
    rcases hm with ⟨x, hx, -⟩ | hm
    · exact (List.not_mem_nil hx).elim
    · exact hm
  | cons x s ih =>
    refine ih _ (fun y hy => h y (List.mem_cons_of_mem x hy)) ?_
    by_cases hx : x.1 = a
    · right
      dsimp only
      rw [hx, spGet_spPut_same, h x List.mem_cons_self hx]
    · rcases hm with ⟨y, hy, hya⟩ | hm
      · rcases List.mem_cons.mp hy with rfl | hy
        · exact absurd hya hx
        · exact .inl ⟨y, hy, hya⟩
      · right
        exact (spGet_spPut_ne _ _ (Ne.symm hx)).trans hm

theorem spGet_foldl_spPut_ne {α : Type} (s : List (Nat × α)) (l : List (Nat × α)) (a : Nat) (h : ∀ x ∈ s, x.1 ≠ a) :
    spGet (s.foldl (fun l x => spPut l x.1 x.2) l) a = spGet l a := by
  induction s generalizing l with
  | nil => rfl
  | cons x s ih =>
    refine (ih _ fun y hy => h y (List.mem_cons_of_mem x hy)).trans ?_
    exact spGet_spPut_ne _ _ (Ne.symm (h x List.mem_cons_self))

/-- The registers of the shadow set of a cell of either kind, and their words. -/
def Dev.coefSet (d : Dev) (i : Fin 256) : List (Nat × Word) :=
  shadowRegs.flatMap fun r => (List.range r.2).map fun j => (cellAdr i r.1 j, d.cget i r.1 j)

/-- Where in a cell's registers the shadow set stands. -/
theorem shadowRegs_place : ∀ r ∈ shadowRegs, ∀ j < r.2, r.1.s0 = 0x80 ∧ 0x100 ≤ r.1.off + r.1.s1 * j ∧ r.1.off + r.1.s1 * j < 0x148 := by
  decide

theorem shadowRegs_rst : ∀ r ∈ shadowRegs, ∀ j < r.2, ∀ q ∈ shadowRegs, ∀ k < q.2, q.1.off + q.1.s1 * k = r.1.off + r.1.s1 * j → q.1.rst = r.1.rst := by
  decide

/-- The address of a shadow register of a cell. -/
theorem cellAdr_shadow (i : Fin 256) {r : Reg × Nat} (hr : r ∈ shadowRegs) {j : Nat} (hj : j < r.2) :
    cellAdr i r.1 j = badr (cellBlk i) ((if isHead i then 0x80 else 0x100) * cellIx i + (r.1.off + r.1.s1 * j)) := by
  obtain ⟨h0, h1, -⟩ := shadowRegs_place r hr j hj
  have h2 : ∀ r ∈ shadowRegs, 0x100 ≤ r.1.off := by decide
  have h2 := h2 r hr
  unfold cellAdr radr badr Reg.ofs
  split
  · rw [h0]; omega
  · omega

section
variable (d : Dev) (i : Fin 256)

theorem Dev.mem_coefSet {r : Reg × Nat} (hr : r ∈ shadowRegs) {j : Nat} (hj : j < r.2) :
    (cellAdr i r.1 j, d.cget i r.1 j) ∈ d.coefSet i :=
  List.mem_flatMap.mpr ⟨r, hr, List.mem_map.mpr ⟨j, List.mem_range.mpr hj, rfl⟩⟩

theorem Dev.of_mem_coefSet {x : Nat × Word} (hx : x ∈ d.coefSet i) :
    ∃ r ∈ shadowRegs, ∃ j < r.2, x = (cellAdr i r.1 j, d.cget i r.1 j) := by
  obtain ⟨r, hr, hx⟩ := List.mem_flatMap.mp hx
  obtain ⟨j, hj, rfl⟩ := List.mem_map.mp hx
  exact ⟨r, hr, j, List.mem_range.mp hj, rfl⟩

/-- The shadow set of a cell in force. -/
theorem Dev.cliv_coefSet {r : Reg × Nat} (hr : r ∈ shadowRegs) {j : Nat} (hj : j < r.2) (l : List (Nat × Word)) :
    spGet ((d.coefSet i).foldl (fun l x => spPut l x.1 x.2) l) (cellAdr i r.1 j) = some (d.cget i r.1 j) := by
  refine spGet_foldl_spPut _ _ _ _ (fun x hx hxa => ?_) (.inl ⟨_, d.mem_coefSet i hr hj, rfl⟩)
  obtain ⟨q, hq, k, hk, rfl⟩ := d.of_mem_coefSet i hx
  dsimp only at hxa ⊢
  have hrst : q.1.rst = r.1.rst := by
    refine shadowRegs_rst r hr j hj q hq k hk ?_
    rw [cellAdr_shadow i hr hj, cellAdr_shadow i hq hk] at hxa
    unfold badr at hxa
    omega
  simp only [Dev.cget, hxa, hrst]

/-- The set of another cell of the block stands elsewhere. -/
theorem cellAdr_shadow_ne {i j : Fin 256} (hb : cellBlk i = cellBlk j) (hh : isHead i = isHead j) (hne : cellIx i ≠ cellIx j)
    {r q : Reg × Nat} (hr : r ∈ shadowRegs) (hq : q ∈ shadowRegs) {a b : Nat} (ha : a < r.2) (hb' : b < q.2) :
    cellAdr i r.1 a ≠ cellAdr j q.1 b := by
  rw [cellAdr_shadow i hr ha, cellAdr_shadow j hq hb', hb, hh]
  have h1 := shadowRegs_place r hr a ha
  have h2 := shadowRegs_place q hq b hb'
  unfold badr
  split <;> omega

/-- What SRV_APPLY or MSP_APPLY makes of a cell it names (R176, R177): its set is in force, or waits within a tick. -/
def Dev.setApplied (d e : Dev) (i : Fin 256) : Prop :=
  ∀ r ∈ shadowRegs, ∀ j < r.2,
    if d.midTick i = true then e.cliv i r.1 j = d.cliv i r.1 j ∧ (cellAdr i r.1 j, d.cget i r.1 j) ∈ e.cells[i].due
    else e.cliv i r.1 j = d.cget i r.1 j ∧ e.cells[i] = { d.cells[i] with due := [] }

/-- A cell and its set as they were. -/
def Dev.setKept (d e : Dev) (i : Fin 256) : Prop :=
  e.cells[i] = d.cells[i] ∧ ∀ r ∈ shadowRegs, ∀ j < r.2, e.cliv i r.1 j = d.cliv i r.1 j

variable {d i} in
theorem Dev.setApplied.kept {e f : Dev} (h : d.setApplied e i) (k : e.setKept f i) : d.setApplied f i := fun r hr j hj => by
  have := h r hr j hj
  rw [k.1, k.2 r hr j hj]
  exact this

variable {d i} in
theorem Dev.setKept.trans {e f : Dev} (h : d.setKept e i) (k : e.setKept f i) : d.setKept f i :=
  ⟨k.1.trans h.1, fun r hr j hj => (k.2 r hr j hj).trans (h.2 r hr j hj)⟩

theorem Dev.coefSet_ne : (d.coefSet i).isEmpty = false := by
  have hm := d.mem_coefSet i (r := (R.SRV_KP, 1)) (by decide) (j := 0) (by decide)
  cases h : d.coefSet i with
  | nil => rw [h] at hm; exact (List.not_mem_nil hm).elim
  | cons x l => rfl

theorem Dev.takeDue_some {l : List (Nat × Word)} (hd : d.cells[i].due = l) (hl : l.isEmpty = false) :
    d.takeDue i = { d with
      live := l.foldl (fun l x => spPut l x.1 x.2) d.live
      cells := (d.cellMod i fun c => { c with due := [] }).cells } := by
  unfold Dev.takeDue
  dsimp only
  rw [hd, if_neg (by rw [hl]; decide)]
  rfl

/-- One cell applies (R176, R177). -/
theorem Dev.applyCell_spec :
    let e := d.applyCell i
    d.changes [.regs, .live, .cells] e ∧ (isHead i = false → e.regs = d.regs) ∧
    (d.regsKept e fun a => isHead i = true ∧ a = radr (cellBlk i) R.SRV_CSTAT (cellIx i)) ∧ d.setApplied e i ∧
    ∀ j : Fin 256, cellBlk j = cellBlk i → isHead j = isHead i → cellIx j ≠ cellIx i → d.setKept e j := by
  intro e
  set d1 := d.cellMod i fun c => { c with due := d.coefSet i } with hd1
  set d2 := if d1.midTick i then d1 else d1.takeDue i with hd2
  have he : e = if isHead i then d2.putB (cellBlk i) R.SRV_CSTAT 5 false (cellIx i) else d2 := rfl
  have hc1 : d1.cells[i] = { d.cells[i] with due := d.coefSet i } := Dev.cellMod_same _ _ _
  have hmid : d1.midTick i = d.midTick i := by
    simp only [Dev.midTick, hc1]
    rfl
  have htake := d1.takeDue_some i (l := d.coefSet i) (by rw [hc1]) (d.coefSet_ne i)
  have hin := fun (r : Reg × Nat) (hr : r ∈ shadowRegs) (j : Nat) (hj : j < r.2) => d.cliv_coefSet i hr hj d1.live
  have hout := fun a h => spGet_foldl_spPut_ne (d.coefSet i) d1.live a h
  generalize (d.coefSet i).foldl (fun l x => spPut l x.1 x.2) d1.live = L at htake hin hout
  have hset : ∀ (x : Dev) l c, x.changes [.live, .cells] { x with live := l, cells := c } := fun _ _ _ => rfl
  have hne : ∀ {j : Fin 256}, cellIx j ≠ cellIx i → j ≠ i := fun hj he => hj (he ▸ rfl)
  have h2 : d.changes [.live, .cells] d2 ∧ d.setApplied d2 i ∧
      ∀ j : Fin 256, cellBlk j = cellBlk i → isHead j = isHead i → cellIx j ≠ cellIx i → d.setKept d2 j := by
    have h1 : d.changes [.live, .cells] d1 := Dev.changes.mono (F := [.cells]) rfl (by decide)
    rw [hd2, hmid]
    by_cases hm : d.midTick i = true
    · rw [if_pos hm]
      refine ⟨h1, fun r hr j hj => ?_, fun j _ _ hj => ⟨Dev.cellMod_ne _ _ (hne hj), fun _ _ _ _ => rfl⟩⟩
      rw [if_pos hm]
      refine ⟨rfl, ?_⟩
      rw [hc1]
      exact d.mem_coefSet i hr hj
    · rw [if_neg hm, htake]
      refine ⟨h1.trans (hset d1 _ _), fun r hr j hj => ?_, fun j hb hh hj => ⟨?_, fun r hr k hk => ?_⟩⟩
      · rw [if_neg hm]
        refine ⟨?_, ?_⟩
        · change (spGet L _).getD _ = _
          rw [hin r hr j hj]
          rfl
        · change (d1.cellMod i fun c => { c with due := [] }).cells[i] = _
          rw [Dev.cellMod_same, hc1]
      · change (d1.cellMod i fun c => { c with due := [] }).cells[j] = _
        rw [Dev.cellMod_ne _ _ (hne hj)]
        exact Dev.cellMod_ne _ _ (hne hj)
      · refine congrArg (Option.getD · _) (hout _ fun x hx => ?_)
        obtain ⟨q, hq, b, hb', rfl⟩ := d.of_mem_coefSet i hx
        exact cellAdr_shadow_ne hb.symm hh.symm (Ne.symm hj) hq hr hb' hk
  clear_value d2
  obtain ⟨hw, ha, hk⟩ := h2
  have hregs : d2.regs = d.regs := hw.get Dev.regs
  have hw' : d.changes [.regs, .live, .cells] d2 := hw.mono (by decide)
  rw [he]
  by_cases hh : isHead i = true
  · rw [if_pos hh]
    refine ⟨hw'.step (Dev.put_changes _ _ _ _ _ _) (by decide), fun h => (by rw [hh] at h; cases h), ?_, ha, hk⟩
    have h0 : d.regsKept d2 fun a => isHead i = true ∧ a = radr (cellBlk i) R.SRV_CSTAT (cellIx i) := fun a _ => by rw [hregs]
    exact h0.trans (d2.regsKept_put _ _ _ _ _ ⟨hh, rfl⟩)
  · rw [if_neg hh]
    exact ⟨hw', fun _ => hregs, fun a _ => by rw [hregs], ha, hk⟩

end

theorem Dev.regsKept.cget {d e : Dev} {b : Blk} {i : Fin 256} {c : Nat} (h : d.regsKept e fun a => ∃ c < 24, a = radr b R.SRV_CSTAT c)
    {r : Reg × Nat} (hr : r ∈ shadowRegs) {j : Nat} (hj : j < r.2) (hb : cellBlk i = b) (hi : cellIx i = c) :
    e.cget i r.1 j = d.cget i r.1 j := by
  refine congrArg (Option.getD · _) (h _ ?_)
  rintro ⟨c', hc', he⟩
  rw [cellAdr_shadow i hr hj, hb] at he
  have h1 := shadowRegs_place r hr j hj
  change badr b _ = badr b (0x154 + 0x80 * c' + 0 * 0) at he
  unfold badr at he
  split at he <;> omega

/-- A cell that stood as before applies. -/
theorem Dev.setKept.applied {d x e : Dev} {i : Fin 256} (h : d.setKept x i) (hnow : x.now = d.now)
    (hget : ∀ r ∈ shadowRegs, ∀ j < r.2, x.cget i r.1 j = d.cget i r.1 j) (k : x.setApplied e i) : d.setApplied e i := fun r hr j hj => by
  have hm : x.midTick i = d.midTick i := by
    simp only [Dev.midTick, h.1, Dev.pastNs, hnow]
  have := k r hr j hj
  rw [hm, h.1, h.2 r hr j hj, hget r hr j hj] at this
  exact this

/-- The cells of a block that a mask names apply, and no others (R177, R358). -/
theorem Dev.applyWrite_spec (d : Dev) {b : Blk} {hh : Bool} {base n : Nat} (v : Word) (hn : n ≤ 24)
    (hcells : ∀ c < n, isHead (Fin.ofNat 256 (base + c)) = hh ∧ cellBlk (Fin.ofNat 256 (base + c)) = b ∧ cellIx (Fin.ofNat 256 (base + c)) = c) :
    let e := d.applyWrite base n v
    d.changes [.regs, .live, .cells] e ∧ (hh = false → e.regs = d.regs) ∧
    (d.regsKept e fun a => ∃ c < 24, a = radr b R.SRV_CSTAT c) ∧
    ∀ c < n, if bit v c = false then d.setKept e (Fin.ofNat 256 (base + c)) else d.setApplied e (Fin.ofNat 256 (base + c)) := by
  have key : ∀ l : List Nat, l.Nodup → (∀ c ∈ l, c < n) →
      let e := l.foldl (fun (e : Dev) c => if bit v c then e.applyCell (Fin.ofNat 256 (base + c)) else e) d
      d.changes [.regs, .live, .cells] e ∧ (hh = false → e.regs = d.regs) ∧
      (d.regsKept e fun a => ∃ c < 24, a = radr b R.SRV_CSTAT c) ∧
      ∀ c < n, if bit v c = false ∨ c ∉ l then d.setKept e (Fin.ofNat 256 (base + c)) else d.setApplied e (Fin.ofNat 256 (base + c)) := by
    intro l hl hln
    induction l using List.reverseRecOn with
    | nil => exact ⟨.refl d _, fun _ => rfl, d.regsKept_refl _, fun c _ => by
        rw [if_pos (.inr List.not_mem_nil)]
        exact ⟨rfl, fun _ _ _ _ => rfl⟩⟩
    | append_singleton l a ih =>
      have hnd := List.nodup_append.mp hl
      have ha : a ∉ l := fun hm => hnd.2.2 a hm a List.mem_cons_self rfl
      have han : a < n := hln a (List.mem_append_right _ List.mem_cons_self)
      obtain ⟨h1, h2, h3, h4⟩ := ih hnd.1 fun q hq => hln q (List.mem_append_left _ hq)
      intro e
      have he : e = if bit v a then (l.foldl (fun (e : Dev) c => if bit v c then e.applyCell (Fin.ofNat 256 (base + c)) else e) d).applyCell
          (Fin.ofNat 256 (base + a)) else l.foldl (fun (e : Dev) c => if bit v c then e.applyCell (Fin.ofNat 256 (base + c)) else e) d := by
        simp only [e, List.foldl_append, List.foldl_cons, List.foldl_nil]
      rw [he]
      generalize l.foldl (fun (e : Dev) c => if bit v c then e.applyCell (Fin.ofNat 256 (base + c)) else e) d = x at h1 h2 h3 h4
      by_cases hv : bit v a = true
      · rw [if_pos hv]
        obtain ⟨hha, hba, hia⟩ := hcells a han
        obtain ⟨k1, k2, k3, k4, k5⟩ := x.applyCell_spec (Fin.ofNat 256 (base + a))
        refine ⟨h1.trans k1, fun h => (k2 (by rw [hha, h])).trans (h2 h), h3.trans (k3.mono fun y hy => ⟨a, by omega, ?_⟩), fun c hc => ?_⟩
        · rw [hy.2, hba, hia]
        · have h4c := h4 c hc
          by_cases hca : c = a
          · subst hca
            rw [if_pos (.inr ha)] at h4c
            rw [if_neg (by simp [hv])]
            exact h4c.applied (h1.get Dev.now) (fun r hr j hj => h3.cget hr hj hba hia) (k4)
          · obtain ⟨hhc, hbc, hic⟩ := hcells c hc
            have hk := k5 (Fin.ofNat 256 (base + c)) (by rw [hbc, hba]) (by rw [hhc, hha]) (by rw [hic, hia]; exact hca)
            simp only [List.mem_append, List.mem_singleton, hca, or_false] at h4c ⊢
            split at h4c
            · rename_i hif; rw [if_pos hif]; exact h4c.trans hk
            · rename_i hif; rw [if_neg hif]; exact h4c.kept hk
      · rw [if_neg hv]
        refine ⟨h1, h2, h3, fun c hc => ?_⟩
        have h4c := h4 c hc
        by_cases hca : c = a
        · subst hca
          rw [if_pos (.inr ha)] at h4c
          rw [if_pos (.inl (by simpa using hv))]
          exact h4c
        · simpa only [List.mem_append, List.mem_singleton, hca, or_false] using h4c
  obtain ⟨h1, h2, h3, h4⟩ := key (List.range n) List.nodup_range fun c hc => List.mem_range.mp hc
  refine ⟨h1, h2, h3, fun c hc => ?_⟩
  have h4c := h4 c hc
  simp only [List.mem_range, hc, not_true_eq_false, or_false] at h4c
  exact h4c

end Sys2Proof.Machine
end

section
/-! Cells that go to OFF (R175, R356). -/

namespace Sys2Proof.Machine

/-- State and drive word of a cell. -/
def SCell.word (c : SCell) : Nat × Bool × Int := (c.st, c.en, c.cmd)

/-- Work beside a cell's way out: it keeps the state and the drive word of every cell, and every control word. -/
structure Dev.leaveWork (d e : Dev) : Prop where
  work : d.changes [.regs, .live, .vecs, .fabric, .cells, .tunes, .msps] e
  regs : d.regsKept e fun a => ¬ lawReg a
  cells : ∀ j : Fin 256, e.cells[j].word = d.cells[j].word

namespace Dev.leaveWork

variable {d e f : Dev}

theorem refl (d : Dev) : leaveWork d d := ⟨.refl d _, d.regsKept_refl _, fun _ => rfl⟩

theorem ite {c : Prop} [Decidable c] (r : leaveWork d e) (r' : leaveWork d f) : leaveWork d (if c then e else f) := by
  split <;> assumption

variable (r : leaveWork d e)
include r

theorem trans (r' : leaveWork e f) : leaveWork d f :=
  ⟨r.work.trans r'.work, r.regs.trans r'.regs, fun j => (r'.cells j).trans (r.cells j)⟩

/-- A step beside the cells. -/
theorem beside {F : List Part} (r' : e.changes F f) (hF : F ⊆ [.regs, .live, .vecs, .fabric, .tunes, .msps])
    (hk : e.regsKept f fun a => ¬ lawReg a) : leaveWork d f := by
  have hc : f.cells = e.cells := (r'.mono hF).get Dev.cells
  exact r.trans ⟨(r'.mono hF).mono (by decide), hk, fun j => by rw [hc]⟩

theorem put (b : Blk) (g : Reg) (w : Word) (j k : Nat) (hg : g.ofs j k % 0x1000 ≠ 8 ∧ g.ofs j k % 0x80 ≠ 0x50) :
    leaveWork d (e.put b g w j k) :=
  r.beside (e.put_changes b g w j k) (by decide) ((Dev.lawWork.refl (fun _ => ()) 0 e).put b g w j k hg).regs

/-- A write of a register that every machine spindle has. -/
theorem putMsp (g : Reg) (w : Word) (m : Fin 64)
    (hs : g.s0 = 0x100 ∧ g.s1 = 0 ∧ 0x100 ≤ g.off ∧ g.off < 0x200 ∧ g.off % 0x80 ≠ 0x50) : leaveWork d (e.put (mspB m) g w (mspC m)) := by
  obtain ⟨h0, h1, h2, h3, h4⟩ := hs
  refine r.put _ _ _ _ _ ?_
  rw [Reg.ofs, h0, h1]
  have : mspC m < 8 := Nat.mod_lt _ (by decide)
  omega

theorem raise (b : Blk) (c : Option Nat) (kind addr : Nat) : leaveWork d (e.raise b c kind addr) :=
  r.beside (e.detect_changes b c kind addr _ _ _) (by decide) ((Dev.lawWork.refl (fun _ => ()) 0 e).raise b c kind addr).regs

theorem cellMod (i : Fin 256) {g : SCell → SCell} (hg : ∀ c, (g c).word = c.word) : leaveWork d (e.cellMod i g) :=
  r.trans ⟨Dev.changes.mono (F := [.cells]) rfl (by decide), fun _ _ => rfl, fun j => Dev.cellMod_keeps _ _ _ SCell.word hg j⟩

theorem mspMod (m : Fin 64) (g : Msp → Msp) : leaveWork d (e.mspMod m g) := r.beside (F := [.msps]) rfl (by decide) fun _ _ => rfl

theorem cellEvent (j : Fin 256) : leaveWork d (e.cellEvent j) := by
  unfold Dev.cellEvent
  split
  · exact r.beside (e.event_changes _ _ _ _ _ _) (by decide)
      ((Dev.lawWork.refl (fun _ => ()) 0 e).event _ _ _ _ _ 0 (by decide) (by omega)).regs
  · rename_i hj
    unfold Dev.eventQuiet
    refine r.put _ _ _ _ _ ?_
    have : cellIx j < 8 := by rw [cellIx, if_neg hj]; omega
    change (0x1F8 + 0x100 * cellIx j + 0 * 0) % 0x1000 ≠ 8 ∧ (0x1F8 + 0x100 * cellIx j + 0 * 0) % 0x80 ≠ 0x50
    omega

theorem takeDue (i : Fin 256) : leaveWork d (e.takeDue i) := by
  unfold Dev.takeDue
  dsimp only
  split
  · exact r
  · refine r.trans ⟨Dev.changes.mono (F := [.live, .cells]) rfl (by decide), fun _ _ => rfl, fun j => ?_⟩
    exact Dev.cellMod_keeps _ _ _ SCell.word (fun _ => by rfl) j

theorem tuneCellFail (i : Fin 256) (err : Nat) : leaveWork d (e.tuneCellFail i err) := by
  unfold Dev.tuneCellFail Dev.tuneFail
  refine .ite ?_ r
  split
  · exact r
  · have h1 : leaveWork d (e.opFail (blk .servo (cellServo i).val) err) := r.put _ _ _ _ _ (by decide)
    change leaveWork d ((e.opFail (blk .servo (cellServo i).val) err).tuneEnd (cellServo i))
    generalize e.opFail (blk .servo (cellServo i).val) err = e1 at h1 ⊢
    unfold Dev.tuneEnd
    split
    · exact h1
    · have h2 : leaveWork d { e1 with tunes := e1.tunes.set (cellServo i) none } :=
        h1.beside (F := [.tunes]) rfl (by decide) fun _ _ => rfl
      exact h2.cellMod _ fun _ => by rfl

theorem homeBad (m : Fin 64) (reason : Nat) : leaveWork d (e.homeBad m reason) := by
  unfold Dev.homeBad Dev.mstat Dev.mput Dev.mevent Dev.mfault
  have h1 := (r.mspMod m fun x => { x with home := none }).cellMod (mspI m) (g := fun c => { c with tune := false }) fun _ => by rfl
  exact (((h1.putMsp R.MSP_STAT _ m (by decide)).putMsp R.MSP_HOME_STAT _ m (by decide)).putMsp R.MSP_EVT _ m (by decide)).raise _ _ _ _

theorem mspLeave (m : Fin 64) (a b : Nat) : leaveWork d (e.mspLeave m a b) := by
  unfold Dev.mspLeave Dev.mqueueDrop Dev.mstat
  extract_lets d1 d2
  have h1 : leaveWork d d1 := .ite ((r.mspMod m _).putMsp R.MSP_STAT _ m (by decide)) r
  clear_value d1
  have h2 : leaveWork d d2 := (h1.mspMod m _).putMsp R.MSP_STAT _ m (by decide)
  exact .ite (.ite (h2.homeBad m 4) h2) h1

theorem stateShow (i : Fin 256) (st : Nat) : leaveWork d (e.stateShow i st) := by
  unfold Dev.stateShow
  split
  · rename_i hi
    have : cellIx i < 24 := by rw [cellIx, if_pos hi]; omega
    refine r.put _ _ _ _ _ ?_
    change (0x154 + 0x80 * cellIx i + 0 * 0) % 0x1000 ≠ 8 ∧ (0x154 + 0x80 * cellIx i + 0 * 0) % 0x80 ≠ 0x50
    omega
  · rename_i hi
    have : cellIx i < 8 := by rw [cellIx, if_neg hi]; omega
    refine r.put _ _ _ _ _ ?_
    change (0x15C + 0x100 * cellIx i + 0 * 0) % 0x1000 ≠ 8 ∧ (0x15C + 0x100 * cellIx i + 0 * 0) % 0x80 ≠ 0x50
    omega

end Dev.leaveWork

theorem mspI_mspOf {i : Fin 256} (hi : ¬ isHead i = true) : mspI (mspOf i) = i := by
  have h1 : ¬ i.val < 192 := fun h => hi (decide_eq_true h)
  apply Fin.ext
  simp only [mspI, mspOf, Fin.val_ofNat]
  omega

/-- A cell goes to OFF or FENCED (R175): its drive word is EN 0, CMD 0. -/
theorem Dev.cellState_off (d : Dev) (i : Fin 256) {st : Nat} (hs : st = 0 ∨ st = 5) (hne : d.cells[i].st ≠ st) :
    ∃ x : Dev, Dev.leaveWork (x.cellMod i fun c => { c with
      st := st, cmd := 0, en := false, u := 0, out := none, feRun := 0, feSaid := false, satRun := 0, satSaid := false }) (d.cellState i st) ∧
      Dev.leaveWork d x := by
  unfold Dev.cellState
  have hoff : (decide (st = 0) || decide (st = 5)) = true := by simpa using hs
  simp only [hoff, if_neg hne, if_true]
  refine ⟨d.takeDue i, ?_, (Dev.leaveWork.refl d).takeDue i⟩
  generalize (d.takeDue i).cellMod i _ = e1
  have h0 := Dev.leaveWork.refl e1
  refine Dev.leaveWork.cellEvent (Dev.leaveWork.stateShow ?_ i st) i
  by_cases hi : isHead i = true
  · rw [if_neg (by rw [hi]; decide)]
    have : cellIx i < 24 := by rw [cellIx, if_pos hi]; omega
    refine h0.put _ _ _ _ _ ?_
    change (0x154 + 0x80 * cellIx i + 0 * 0) % 0x1000 ≠ 8 ∧ (0x154 + 0x80 * cellIx i + 0 * 0) % 0x80 ≠ 0x50
    omega
  · rw [if_pos hi]
    exact h0.mspLeave _ _ _

/-- CELL_ENABLE of a cell that the host switches off (R175 step 10, R355). -/
theorem Dev.cellOff_spec (d : Dev) (i : Fin 256) (h5 : d.cells[i].st ≠ 5) (h0 : d.cells[i].st ≠ 0) :
    let e := if isHead i then d.headCellOut i 0 else d.mspOut (mspOf i) 0
    d.changes [.regs, .live, .vecs, .fabric, .cells, .tunes, .msps] e ∧ (d.regsKept e fun a => ¬ lawReg a) ∧
    e.cells[i].word = (0, false, 0) := by
  have hkey : ∀ x : Dev, Dev.leaveWork d x → d.changes [.regs, .live, .vecs, .fabric, .cells, .tunes, .msps] (x.cellState i 0) ∧
      (d.regsKept (x.cellState i 0) fun a => ¬ lawReg a) ∧ (x.cellState i 0).cells[i].word = (0, false, 0) := fun x hx => by
    have hst : x.cells[i].st ≠ 0 := by
      rw [show x.cells[i].st = d.cells[i].st from congrArg Prod.fst (hx.cells i)]
      exact h0
    obtain ⟨y, hy, hxy⟩ := x.cellState_off i (.inl rfl) hst
    generalize x.cellState i 0 = e at hy
    refine ⟨((hx.trans hxy).work.step (F := [.cells]) rfl (by decide)).trans hy.work, ((hx.trans hxy).regs.trans fun _ _ => rfl).trans hy.regs, ?_⟩
    rw [hy.cells, Dev.cellMod_same]
    rfl
  have hr := Dev.leaveWork.refl d
  dsimp only
  split
  · unfold Dev.headCellOut
    rw [if_neg fun h => h5 h.1]
    exact hkey _ ((hr.tuneCellFail i 0x80).cellMod i fun _ => rfl)
  · rename_i hi
    have hm : mspI (mspOf i) = i := mspI_mspOf hi
    generalize mspOf i = m at hm
    subst hm
    unfold Dev.mspOut
    rw [if_neg fun h => h5 h.1]
    exact hkey _ (hr.cellMod _ fun _ => rfl)

end Sys2Proof.Machine
end

section
/-! Cells switch, apply and tune (R175 to R182). -/

namespace Sys2Proof.Machine

theorem cell_of_lt (k : Fin 8) {c : Nat} (hc : c < 24) :
    isHead (Fin.ofNat 256 (24 * k.val + c)) = true ∧ cellBlk (Fin.ofNat 256 (24 * k.val + c)) = blk .servo k.val ∧
    cellIx (Fin.ofNat 256 (24 * k.val + c)) = c := by
  have hlt : 24 * k.val + c < 256 := by omega
  have hh : isHead (Fin.ofNat 256 (24 * k.val + c)) = true := by
    refine decide_eq_true ?_
    simp only [Fin.val_ofNat, Nat.mod_eq_of_lt hlt]
    omega
  have hd : (24 * k.val + c) / 24 = k.val := by omega
  have hm : (24 * k.val + c) % 24 = c := by omega
  refine ⟨hh, ?_, ?_⟩
  · rw [cellBlk, if_pos hh]
    simp only [Fin.val_ofNat, Nat.mod_eq_of_lt hlt, hd]
  · rw [cellIx, if_pos hh]
    simp only [Fin.val_ofNat, Nat.mod_eq_of_lt hlt, hm]

/-- SRV_APPLY (R176, R177). -/
theorem exec_srvApply_spec (s : State) (k : Fin 8) (v : Word) (ht : s.dev.takes (blk .servo k.val) 0xD04) :
    exec (.srvApply k v) s = .next { s with dev := (s.dev.applyWrite (24 * k.val) 24 v) } := by
  change execSrvApply k v s = _
  unfold execSrvApply
  rw [onLive_next _ _ (Dev.takes_live _ _ _ ht), Dev.hostWrite_takes _ _ _ _ ht]

/-- CELL_ENABLE (R175). -/
theorem exec_cellEnable (s : State) (c : CellId) (v : Word)
    (ht : s.dev.takes (cellBlk (cellOf c)) (cellAdr (cellOf c) R.SRV_CCTL - badr (cellBlk (cellOf c)) 0)) :
    exec (.cellEnable c v) s = .next { s with dev := (s.dev.cctlWrite (cellOf c) v) } := by
  change execCellEnable c v s = _
  unfold execCellEnable
  rw [onLive_next _ _ (Dev.takes_live _ _ _ ht)]
  dsimp only
  rw [Dev.hostWrite_takes _ _ _ _ ht]

theorem mspOf_mspI (m : Fin 64) : mspOf (mspI m) = m := by
  apply Fin.ext
  simp only [mspI, mspOf, Fin.val_ofNat]
  omega

theorem isHead_mspI (m : Fin 64) : isHead (mspI m) = false := by
  refine decide_eq_false ?_
  simp only [mspI, Fin.val_ofNat]
  omega

theorem cctl_mod_all (i : Fin 256) : cellAdr i R.SRV_CCTL % 0x80 = 0x50 := by
  by_cases hi : isHead i = true
  · exact cctl_mod i hi
  · unfold cellAdr
    rw [if_neg hi]
    change ((cellBlk i).region.val * 0x100000 + (cellBlk i).block.val * 0x1000 + (0x100 + 0x100 * cellIx i + (0x150 - 0x100) + 0 * 0)) % 0x80 = 0x50
    omega

section
variable (d : Dev)

/-- A control word written is there (R175 step 1). -/
theorem Dev.cget_rput (i : Fin 256) (w : Word) : (d.rput (cellAdr i R.SRV_CCTL) w).cget i R.SRV_CCTL = w := by
  unfold Dev.cget Dev.rget Dev.rput
  rw [spGet_spPut_same]
  rfl

theorem Dev.rput_kept (a : Nat) (w : Word) : d.regsKept (d.rput a w) fun x => x = a := fun _ hx => spGet_spPut_ne _ _ hx

/-- A cell enabled (R175 step 1). -/
theorem Dev.cctlWrite_on (c : CellId) {v : Word} (hv : bit v 0 = true) :
    let e := d.cctlWrite (cellOf c) v
    e = { d with
      regs := e.regs
      msps := match c with
        | .servo _ => d.msps
        | .msp m => d.msps.set m { d.msps[m] with parked := false } } ∧
    e.regs = (d.rput (cellAdr (cellOf c) R.SRV_CCTL) (v &&& 0xF#32)).regs := by
  cases c with
  | servo i =>
    have hi : isHead (cellOf (.servo i)) = true := decide_eq_true i.isLt
    unfold Dev.cctlWrite
    dsimp only
    rw [if_pos hv, if_pos hi]
    exact ⟨rfl, rfl⟩
  | msp m =>
    unfold Dev.cctlWrite
    dsimp only
    rw [if_pos hv, if_neg (by rw [cellOf, isHead_mspI]; decide), cellOf, mspOf_mspI]
    exact ⟨rfl, rfl⟩

/-- Its control word with EN 0 (R175 step 10). -/
theorem Dev.cctlWrite_off (i : Fin 256) {v : Word} (hv : bit v 0 = false) (h5 : d.cells[i].st ≠ 5) (h0 : d.cells[i].st ≠ 0) :
    let e := d.cctlWrite i v
    d.changes [.regs, .live, .vecs, .fabric, .cells, .tunes, .msps] e ∧ e.cget i R.SRV_CCTL = v &&& 0xF#32 ∧
    e.cells[i].word = (0, false, 0) := by
  unfold Dev.cctlWrite
  dsimp only
  rw [if_neg (by rw [hv]; decide)]
  obtain ⟨h1, h2, h3⟩ := (d.rput (cellAdr i R.SRV_CCTL) (v &&& 0xF#32)).cellOff_spec i h5 h0
  refine ⟨(Dev.changes.mono (F := [.regs]) rfl (by decide) : d.changes _ (d.rput _ _)).trans h1, ?_, h3⟩
  refine Eq.trans (congrArg (Option.getD · _) (h2 _ (not_not_intro (.inr ?_)))) (d.cget_rput i _)
  exact cctl_mod_all i

/-! The progress and the partial results of an operation (R49). -/

section
variable (b : Blk)

theorem opPart_ne {i j : Nat} (h : i ≠ j) : radr b R.OP_PART i ≠ radr b R.OP_PART j :=
  radr_ne_of_ofs _ _ _ _ _ _ _ (by change 0x28 + 4 * i + 0 * 0 ≠ 0x28 + 4 * j + 0 * 0; omega)

theorem opPart_ne_opStat (i : Nat) : radr b R.OP_PART i ≠ radr b R.OP_STAT :=
  radr_ne_of_ofs _ _ _ _ _ _ _ (by change 0x28 + 4 * i + 0 * 0 ≠ 0x24 + 0 * 0 + 0 * 0; omega)

@[simp] theorem Dev.opPart_get_same (i v : Nat) : (d.opPart b i v).get b R.OP_PART i = wd v := Dev.get_put_same _ _ _ _ _ _

theorem Dev.opPart_get_ne {i j : Nat} (v : Nat) (h : j ≠ i) : (d.opPart b i v).get b R.OP_PART j = d.get b R.OP_PART j :=
  Dev.get_put_ne _ _ _ _ _ _ _ _ _ _ (opPart_ne b h)

@[simp] theorem Dev.opPart_getF_stat (i v hi lo : Nat) : (d.opPart b i v).getF b R.OP_STAT hi lo = d.getF b R.OP_STAT hi lo :=
  d.getF_put_ne _ _ _ (opPart_ne_opStat b i).symm

@[simp] theorem Dev.opProg_get_part (p i : Nat) : (d.opProg b p).get b R.OP_PART i = d.get b R.OP_PART i :=
  Dev.get_put_ne _ _ _ _ _ _ _ _ _ _ (opPart_ne_opStat b i)

@[simp] theorem Dev.opProg_getF (p : Nat) : (d.opProg b p).getF b R.OP_STAT 27 16 = max (d.getF b R.OP_STAT 27 16) (min p 4095) := by
  have h : d.getF b R.OP_STAT 27 16 < 4096 := fld_lt _ 27 16
  rw [Dev.opProg, Dev.getF_putF_same _ _ _ _ _ _ (by decide) (by decide)]
  exact Nat.mod_eq_of_lt (by omega)

end

theorem fld_toNat (w : Word) (hi lo : Nat) : fld w hi lo = w.toNat / 2 ^ lo % 2 ^ (hi + 1 - lo) := by
  simp only [fld, BitVec.extractLsb'_toNat, Nat.shiftRight_eq_div_pow]

theorem opWord_toNat (state prog err tag : Nat) :
    (opWord state prog err tag).toNat = tag % 256 + err % 256 * 2 ^ 8 + prog % 4096 * 2 ^ 16 + state % 16 * 2 ^ 28 := by
  rw [opWord, wd, BitVec.toNat_ofNat]
  exact Nat.mod_eq_of_lt (by omega)

theorem opWord_state (state prog err tag : Nat) : fld (opWord state prog err tag) 31 28 = state % 16 := by
  rw [fld_toNat, opWord_toNat]
  omega

theorem opWord_err (state prog err tag : Nat) : fld (opWord state prog err tag) 15 8 = err % 256 := by
  rw [fld_toNat, opWord_toNat]
  omega

theorem wd_toNat_self (w : Word) : wd w.toNat = w := by
  rw [wd, BitVec.ofNat_toNat, BitVec.setWidth_eq]

/-- The step phase of a tuning operation is over (R179, R180). -/
theorem Dev.tuningChirp_spec (k : Fin 8) (t : Tune) (a b c w : Word) :
    let u := blk .servo k.val
    let e := (((((({ d with fresh := d.fresh + 4, tunes := d.tunes.set k (some { t with
      chirp := true, ticks := 0, res := (a, b, c), turn := w }) } : Dev).opPart u 0 1).opPart u 1 a.toNat).opPart u 2 b.toNat).opPart u 3
      c.toNat).opProg u 1023)
    e = { d with regs := e.regs, fresh := d.fresh + 4, tunes := d.tunes.set k (some { t with
      chirp := true, ticks := 0, res := (a, b, c), turn := w }) } ∧
    e.get u R.OP_PART = 1#32 ∧ e.get u R.OP_PART 1 = a ∧ e.get u R.OP_PART 2 = b ∧ e.get u R.OP_PART 3 = c ∧
    e.getF u R.OP_STAT 27 16 = max (d.getF u R.OP_STAT 27 16) 1023 ∧
    d.regsKept e fun x => x = radr u R.OP_STAT ∨ ∃ j < 4, x = radr u R.OP_PART j := by
  intro u e
  set d0 : Dev := { d with fresh := d.fresh + 4, tunes := d.tunes.set k (some { t with
      chirp := true, ticks := 0, res := (a, b, c), turn := w }) }
  set d4 := (((d0.opPart u 0 1).opPart u 1 a.toNat).opPart u 2 b.toNat).opPart u 3 c.toNat with hd4
  have h0 : d.regsKept d0 fun x => x = radr u R.OP_STAT ∨ ∃ j < 4, x = radr u R.OP_PART j := fun _ _ => rfl
  have hp : ∀ x : Dev, d.regsKept x (fun y => y = radr u R.OP_STAT ∨ ∃ j < 4, y = radr u R.OP_PART j) → ∀ i < 4, ∀ v,
      d.regsKept (x.opPart u i v) fun y => y = radr u R.OP_STAT ∨ ∃ j < 4, y = radr u R.OP_PART j := fun x hx i hi v =>
    hx.trans (x.regsKept_put _ _ _ _ _ (.inr ⟨i, hi, rfl⟩))
  have h4 := hp _ (hp _ (hp _ (hp _ h0 0 (by decide) 1) 1 (by decide) a.toNat) 2 (by decide) b.toNat) 3 (by decide) c.toNat
  refine ⟨rfl, ?_, ?_, ?_, ?_, ?_, h4.trans (Dev.regsKept_put _ _ _ _ _ _ (.inl rfl))⟩
  · simp only [e, Dev.opProg_get_part]
    rw [Dev.opPart_get_ne _ _ _ (by decide), Dev.opPart_get_ne _ _ _ (by decide), Dev.opPart_get_ne _ _ _ (by decide), Dev.opPart_get_same]
    rfl
  · simp only [e, Dev.opProg_get_part]
    rw [Dev.opPart_get_ne _ _ _ (by decide), Dev.opPart_get_ne _ _ _ (by decide), Dev.opPart_get_same, wd_toNat_self]
  · simp only [e, Dev.opProg_get_part]
    rw [Dev.opPart_get_ne _ _ _ (by decide), Dev.opPart_get_same, wd_toNat_self]
  · simp only [e, Dev.opProg_get_part]
    rw [Dev.opPart_get_same, wd_toNat_self]
  · simp only [e, Dev.opProg_getF, Dev.opPart_getF_stat]
    rfl

theorem exec_tuningChirp_spec (s : State) (k : Fin 8) (t : Tune) (hlive : s.dev.dead = false) (ht : s.dev.tunes[k] = some t)
    (hrun : s.dev.opRunning (blk .servo k.val) 1 = true) (hc : t.chirp = false)
    (hn : 2 * s.dev.getF (blk .servo k.val) R.SRV_TUNE_LEN 15 0 ≤ t.ticks) :
    ∃ a b c w : Word, exec (.tuningChirp k) s = .next { s with dev := (((((({ s.dev with
      fresh := s.dev.fresh + 4, tunes := s.dev.tunes.set k (some { t with chirp := true, ticks := 0, res := (a, b, c), turn := w }) } : Dev).opPart
        (blk .servo k.val) 0 1).opPart (blk .servo k.val) 1 a.toNat).opPart (blk .servo k.val) 2 b.toNat).opPart (blk .servo k.val) 3
        c.toNat).opProg (blk .servo k.val) 1023) } := by
  refine ⟨Config.freeWord s.dev.fresh, Config.freeWord (s.dev.fresh + 1), Config.freeWord (s.dev.fresh + 2), Config.freeWord (s.dev.fresh + 3), ?_⟩
  change execTuningChirp k s = _
  unfold execTuningChirp
  rw [onLive_next _ _ hlive]
  dsimp only
  rw [ht]
  have hcond : (s.dev.opRunning (blk .servo k.val) 1 && !t.chirp && decide (2 * s.dev.getF (blk .servo k.val) R.SRV_TUNE_LEN 15 0 ≤ t.ticks)) = true := by
    rw [hrun, hc, decide_eq_true hn]; rfl
  exact congrArg (fun e => Host.Outcome.next { s with dev := e }) (Dev.when_of _ _ hcond)

section
variable (s : State) (k : Fin 8) (c : Fin 24) (t : Tune) (hlive : s.dev.dead = false) (ht : s.dev.tunes[k] = some t)
  (hcell : t.cell = c.val) (hrun : s.dev.opRunning (blk .servo k.val) 1 = true) (hc : t.chirp = true)
  (hn : s.dev.chirpTicks (blk .servo k.val) ≤ t.ticks)

include hcell hrun hc hn in
theorem tuningDone_ready :
    ¬(¬s.dev.opRunning (blk .servo k.val) 1 = true ∨ t.cell ≠ c.val ∨ ¬t.chirp = true ∨ t.ticks < s.dev.chirpTicks (blk .servo k.val)) := by
  rw [hrun, hc, hcell]
  simpa using hn

include hlive ht hcell hrun hc hn

/-- A tuning operation whose chirp clipped too often fails (R180). -/
theorem exec_tuningDone_clipped (hclip : s.dev.chirpTicks (blk .servo k.val) < t.clips * 100) :
    exec (.tuningDone k c) s = .next { s with dev := (s.dev.tuneFail k 0x82) } := by
  have hready := tuningDone_ready s k c t hcell hrun hc hn
  change execTuningDone k c s = _
  unfold execTuningDone
  rw [onLiveMem_next _ _ hlive]
  dsimp only
  rw [ht]
  dsimp only
  rw [if_neg hready, if_pos hclip]

/-- A tuning operation lays down its results (R181). -/
theorem exec_tuningDone_ok {m : Mem} (hclip : t.clips * 100 ≤ s.dev.chirpTicks (blk .servo k.val))
    (hw : s.dev.sdWrite s.mem (s.dev.tuneAddr (blk .servo k.val)) (tuneBytes
      (s.dev.getF (blk .servo k.val) R.SRV_TUNE_LEN 15 0) (s.dev.getF (blk .servo k.val) R.SRV_TUNE_PTS 8 0)
      (s.dev.get (blk .servo k.val) R.SRV_TUNE_STEP) t) = .ok m) :
    exec (.tuningDone k c) s = .next { s with mem := m, dev := (((s.dev.opPart (blk .servo k.val) 0
      (2 + s.dev.getF (blk .servo k.val) R.SRV_TUNE_PTS 8 0 * 65536)).opDone (blk .servo k.val)).tuneEnd k) } := by
  have hready := tuningDone_ready s k c t hcell hrun hc hn
  change execTuningDone k c s = _
  unfold execTuningDone
  rw [onLiveMem_next _ _ hlive]
  dsimp only
  rw [ht]
  dsimp only
  rw [if_neg hready, if_neg (Nat.not_lt.mpr hclip), hw]

end

/-- The end of a tuning operation's use of its cell. -/
theorem Dev.tuneEnd_some {k : Fin 8} {t : Tune} (ht : d.tunes[k] = some t) :
    d.tuneEnd k = { d with
      cells := d.cells.set (Fin.ofNat 256 (24 * k.val + t.cell)) { d.cells[(Fin.ofNat 256 (24 * k.val + t.cell) : Fin 256)] with tune := false }
      tunes := d.tunes.set k none } := by
  unfold Dev.tuneEnd
  rw [ht]
  rfl

end

/-- Settles O31: registers by the rules for cells, the phases of tuning by the rules for an operation's progress and results. -/
theorem cellsSwitchApplyAndTune : Obligations.CellsSwitchApplyAndTune := by
  refine ⟨⟨fun s k v ht => ?_, fun s c v ht hv => ?_, fun s c v ht hv h5 h0 => ?_⟩, fun s k t hlive ht hrun hc hn => ?_,
    fun s k c t m' hlive ht hcell hrun hc hn hclip hw => ?_, fun s k c t hlive ht hcell hrun hc hn hclip => ?_⟩
  · obtain ⟨hw, -, hregs, hcells⟩ := s.dev.applyWrite_spec (n := 24) v (by decide) fun c hc => cell_of_lt k hc
    refine ⟨_, exec_srvApply_spec s k v ht, ?_⟩
    generalize s.dev.applyWrite (24 * k.val) 24 v = e at hw hregs hcells
    refine ⟨congrArg (fun x : Dev => { x with regs := e.regs, live := e.live, cells := e.cells }) hw, fun c r hr j hj => ?_, hregs⟩
    have hcell := hcells c.val c.isLt
    dsimp only
    split
    · rename_i hv
      rw [if_pos hv] at hcell
      exact ⟨hcell.2 r hr j hj, hcell.1⟩
    · rename_i hv
      rw [if_neg hv] at hcell
      exact hcell r hr j hj
  · obtain ⟨hw, hregs⟩ := s.dev.cctlWrite_on c hv
    refine ⟨_, exec_cellEnable s c v ht, ?_⟩
    generalize s.dev.cctlWrite (cellOf c) v = e at hw hregs
    have hms := congrArg Dev.msps hw
    refine ⟨?_, hms, ?_, fun a ha => ?_⟩
    · rw [hms]
      exact hw
    · unfold Dev.cget Dev.rget
      rw [hregs]
      exact s.dev.cget_rput _ _
    · rw [hregs]
      exact s.dev.rput_kept _ _ a ha
  · obtain ⟨hw, hget, hcell⟩ := s.dev.cctlWrite_off (cellOf c) hv h5 h0
    refine ⟨_, exec_cellEnable s c v ht, ?_⟩
    generalize s.dev.cctlWrite (cellOf c) v = e at hw hget hcell
    refine ⟨congrArg (fun x : Dev => { x with
      regs := e.regs, live := e.live, vecs := e.vecs, fabric := e.fabric, cells := e.cells, tunes := e.tunes, msps := e.msps }) hw, hget,
      congrArg Prod.fst hcell, congrArg (fun x => x.2.1) hcell, congrArg (fun x => x.2.2) hcell⟩
  · obtain ⟨a, b, c, w, he⟩ := exec_tuningChirp_spec s k t hlive ht hrun hc hn
    exact ⟨_, a, b, c, w, he, s.dev.tuningChirp_spec k t a b c w⟩
  · refine ⟨_, exec_tuningDone_ok s k c t hlive ht hcell hrun hc hn hclip hw, ?_⟩
    generalize hv : 2 + s.dev.getF (blk .servo k.val) R.SRV_TUNE_PTS 8 0 * 65536 = v
    rw [Dev.tuneEnd_some ((s.dev.opPart (blk .servo k.val) 0 v).opDone (blk .servo k.val)) (t := t) ht]
    refine ⟨rfl, rfl, ?_, ?_, ?_⟩
    · exact (Dev.get_put_same _ _ _ _ _ _).trans (congrArg _ (Dev.opPart_getF_stat _ _ _ _ _ _))
    · exact (Dev.get_put_ne _ _ _ _ _ _ _ _ _ _ (opPart_ne_opStat _ 0)).trans (Dev.opPart_get_same _ _ _ _)
    · exact (s.dev.regsKept_put _ _ _ _ _ (.inr rfl)).trans (Dev.regsKept_put _ _ _ _ _ _ (.inl rfl))
  · refine ⟨_, exec_tuningDone_clipped s k c t hlive ht hcell hrun hc hn hclip, ?_⟩
    unfold Dev.tuneFail
    rw [ht]
    dsimp only
    rw [Dev.tuneEnd_some (s.dev.opFail (blk .servo k.val) 0x82) (t := t) ht]
    refine ⟨rfl, ?_, ?_, Dev.regsKept_put _ _ _ _ _ _ rfl⟩
    · exact (congrArg (fld · 31 28) (s.dev.opSet_word _ _ _)).trans (opWord_state _ _ _ _)
    · exact (congrArg (fld · 15 8) (s.dev.opSet_word _ _ _)).trans (opWord_err _ _ _ _)

end Sys2Proof.Machine
end

section
/-! Items of the pool: window, offers, grants and reports (R189 to R197). -/

namespace Sys2Proof.Machine

theorem Dev.getN_bump_by (d : Dev) (b : Blk) (r : Reg) (n i j : Nat) :
    (d.bump b r n i j).getN b r i j = min 0xFFFFFFFF (d.getN b r i j + n) := by
  unfold Dev.bump Dev.getN
  rw [Dev.get_put_same, satAdd, wd, BitVec.toNat_ofNat]
  omega

/-! The window (R189, R190). -/

/-- The window's item of an unsplit header at pool index `ix`, its heads `e`. -/
def windowItem (ix : Nat) (r : List Word) (e : Word) (now : Nat) (f : Int × Int) : Item :=
  ⟨ix, r.getD 1 0, e, fld (r.getD 3 0) 7 0, ix + 1, hNvec r, ix + 1 + hNvec r, 0, 0, now, 0, none, false, [], f.1, f.2⟩

section
variable (d : Dev) (m : Mem)

/-- An unsplit item in its zone: it enters the window with its eligible heads, or is listed where there is none. -/
theorem Dev.windowEntry_unsplit {r : List Word} {z : Zone} (hr : d.poolRec m d.ply.next = some r) (hb : d.badHeader d.ply.next r = false)
    (hs : hStitch r = 0) (hz : d.ply.zones[fld (r.getD 3 0) 7 0]? = some z)
    (hf : z.has (rfirst ((d.poolRec m (d.ply.next + 1)).getD [])).1 (rfirst ((d.poolRec m (d.ply.next + 1)).getD [])).2 = true)
    (hl : z.has (rlast ((d.poolRec m (d.ply.next + hNvec r)).getD [])).1 (rlast ((d.poolRec m (d.ply.next + hNvec r)).getD [])).2 = true) :
    d.windowEntry m =
      if d.running_ (r.getD 2 0 &&& z.heads) = 0 then
        (d.poolList (r.getD 1 0) 3 0xFF d.ply.next (1 + hNvec r)).poolNext (d.ply.next + 1 + hNvec r)
      else (d.plyMod fun p => { p with items := p.items ++ [windowItem d.ply.next r (d.running_ (r.getD 2 0 &&& z.heads)) d.now
        (rfirst ((d.poolRec m (d.ply.next + 1)).getD []))] }).poolNext (d.ply.next + 1 + hNvec r) := by
  unfold Dev.windowEntry
  dsimp only
  rw [hr]
  dsimp only
  rw [hb, hz]
  simp only [hs, hf, hl]
  rfl

/-- The pool pointer moves, and PLY_STAT shows it. -/
theorem Dev.poolNext_spec (ix : Nat) :
    let e := d.poolNext ix
    e = { d with regs := e.regs, ply := { d.ply with next := ix } } ∧ e.getF plyB R.PLY_STAT 26 16 = d.ply.items.length % 2048 ∧
    d.regsKept e fun a => a = radr plyB R.PLY_STAT := by
  refine ⟨rfl, ?_, ?_⟩
  · unfold Dev.poolNext Dev.plyShow
    exact Dev.getF_putF_same _ _ _ _ _ _ (by decide) (by decide)
  · unfold Dev.poolNext Dev.plyShow
    have h0 : d.regsKept (d.plyMod fun p => { p with next := ix }) fun a => a = radr plyB R.PLY_STAT := fun _ _ => rfl
    exact (h0.trans (Dev.regsKept_put _ _ _ _ _ _ rfl)).trans (Dev.regsKept_put _ _ _ _ _ _ rfl)

/-- An entry of the report ends with the records listed last (R91). -/
theorem Dev.list_spec (id : Word) (reason head first : Nat) (pool : Bool) {count : Nat} (hc : count ≠ 0) :
    let e := d.list id reason head pool first count
    e = { d with rep := { d.rep with entries := e.rep.entries } } ∧
    ∃ x ∈ e.rep.entries.getLast?, x.reason = reason ∧ x.head = head ∧ x.pool = pool ∧ x.first + x.count = first + count := by
  unfold Dev.list
  rw [if_neg hc]
  dsimp only
  refine ⟨rfl, ?_⟩
  cases hl : d.rep.entries.getLast? with
  | none => exact ⟨_, by rw [List.getLast?_append]; rfl, rfl, rfl, rfl, rfl⟩
  | some x =>
    dsimp only
    by_cases hj : x.pool = pool ∧ x.head = head ∧ x.reason = reason ∧ x.first + x.count = first
    · rw [if_pos hj]
      obtain ⟨h1, h2, h3, h4⟩ := hj
      exact ⟨{ x with count := x.count + count }, by rw [List.getLast?_append]; rfl, h3, h2, h1, by dsimp only; omega⟩
    · rw [if_neg hj]
      exact ⟨_, by rw [List.getLast?_append]; rfl, rfl, rfl, rfl, rfl⟩

/-- The arbiter lists pool records and moves on. -/
theorem Dev.poolList_next (id : Word) (reason head first next : Nat) {count : Nat} (hc : count ≠ 0) :
    let e := (d.poolList id reason head first count).poolNext next
    e = { d with regs := e.regs, rep := { d.rep with entries := e.rep.entries }, ply := { d.ply with next := next } } ∧
    (∃ x ∈ e.rep.entries.getLast?, x.reason = reason ∧ x.head = head ∧ x.pool = true ∧ x.first + x.count = first + count) ∧
    e.getN plyB R.PLY_UNEXEC = min 0xFFFFFFFF (d.getN plyB R.PLY_UNEXEC + count) ∧
    d.regsKept e fun a => a = radr plyB R.PLY_STAT ∨ a = radr plyB R.PLY_UNEXEC := by
  obtain ⟨h1, h2⟩ := d.list_spec id reason head first true hc
  unfold Dev.poolList
  generalize d.list id reason head true first count = l at h1 h2
  obtain ⟨h3, -, h4⟩ := (l.bump plyB R.PLY_UNEXEC count).poolNext_spec next
  generalize (l.bump plyB R.PLY_UNEXEC count).poolNext next = e at h3 h4
  have hrep : e.rep = l.rep := by rw [h3]; rfl
  have hregs : l.regs = d.regs := by rw [h1]
  refine ⟨?_, by rw [hrep]; exact h2, ?_, fun a ha => ?_⟩
  · rw [hrep]
    refine h3.trans ?_
    rw [h1]
    rfl
  · have hN : e.getN plyB R.PLY_UNEXEC = (l.bump plyB R.PLY_UNEXEC count).getN plyB R.PLY_UNEXEC :=
      congrArg BitVec.toNat (h4.get plyB R.PLY_UNEXEC 0 0 (by decide))
    rw [hN, Dev.getN_bump_by]
    exact congrArg (fun w : Word => min 0xFFFFFFFF (w.toNat + count)) (Dev.get_of_regs _ _ _ _ (by rw [hregs]))
  · rw [h4 a fun h => ha (.inl h), show spGet (l.bump plyB R.PLY_UNEXEC count).regs a = spGet l.regs a from
      spGet_spPut_ne _ _ fun h => ha (.inr h), hregs]

end

/-- ITEM_WINDOW_ENTRY in a vector layer (R189). -/
theorem exec_itemWindowEntry (s : State) {k : Skein} (hlive : s.dev.dead = false) (hup : s.dev.up plyB = true) (hrun : s.dev.running = some k)
    (hweb : k.web = false) (hn : s.dev.ply.next < k.poolRecs) (hl : s.dev.ply.items.length < 1024) :
    exec .itemWindowEntry s = .next { s with dev := (s.dev.windowEntry s.mem) } := by
  have hread : s.dev.poolRead_ = false := by
    simp only [Dev.poolRead_, Dev.poolLen, hrun]
    exact decide_eq_false (by omega)
  have hw : s.dev.webLayer = false := by simp only [Dev.webLayer, hrun, hweb]
  change execItemWindowEntry s = _
  unfold execItemWindowEntry
  rw [onLiveMem_next _ _ hlive, if_neg (by rw [hup, hrun, hread]; simp; omega), if_neg (by rw [hw]; decide)]

/-! Offers and grants (R192, R195 to R197). -/

section
variable (s : State) (h : Fin 32)

/-- An offer is granted the first item that qualifies (R195). -/
theorem Dev.offer_some (d : Dev) {i : Item} (slot : Nat) (hi : (d.ply.items.find? fun x => d.qualifies h x) = some i) :
    let e := d.offer h slot
    e = { d with regs := e.regs, ply := { d.ply with
      items := d.ply.items.map fun x => if x.ix = i.ix then
        { x with head := some h, begun := false, age0 := x.age0 + (d.now - x.since) } else x
      heads := d.ply.heads.set h { d.ply.heads[h] with grant := some (i.ix, slot) } } } ∧
    e.getN plyB R.PLY_GRANTS = min 0xFFFFFFFF (d.getN plyB R.PLY_GRANTS + 1) ∧ d.regsKept e fun a => a = radr plyB R.PLY_GRANTS := by
  unfold Dev.offer
  rw [hi]
  dsimp only
  refine ⟨rfl, Dev.getN_bump _ _ _ _ _, ?_⟩
  exact fun a ha => spGet_spPut_ne _ _ ha

theorem exec_offers {c : Instr} (hlive : s.dev.dead = false) (hply : s.dev.up plyB = true) (hagt : s.dev.up (agtB h) = true)
    (hc : c = .offer h ∧ s.dev.slotOpen h = true ∨ c = .standingOfferEval h ∧ s.dev.standing h = true) :
    exec c s = .next { s with dev := (s.dev.offer h (s.dev.slotNo h)) } := by
  rcases hc with ⟨rfl, ho⟩ | ⟨rfl, ho⟩
  · change execOffer h s = _
    unfold execOffer
    rw [onLive_next _ _ hlive]
    have hcond : (s.dev.up plyB && s.dev.up (agtB h) && s.dev.slotOpen h) = true := by rw [hply, hagt, ho]; rfl
    exact congrArg (fun e => Host.Outcome.next { s with dev := e }) (Dev.when_of _ _ hcond)
  · change execStandingOfferEval h s = _
    unfold execStandingOfferEval
    rw [onLive_next _ _ hlive]
    have hcond : (s.dev.up plyB && s.dev.up (agtB h) && s.dev.standing h) = true := by rw [hply, hagt, ho]; rfl
    exact congrArg (fun e => Host.Outcome.next { s with dev := e }) (Dev.when_of _ _ hcond)

/-- A grant whose slot has gone goes back (R197). -/
theorem exec_grant_returned {ix slot : Nat} (hlive : s.dev.dead = false) (hg : s.dev.ply.heads[h].grant = some (ix, slot))
    (hup : s.dev.up (agtB h) = true) (hs : s.dev.slotNo h ≠ slot) :
    exec (.grant h) s = .next { s with dev := (((s.dev.phMod h fun x => { x with grant := none }).itemBack ix).agtBump h R.AGT_RETURNED) } := by
  change execGrant h s = _
  unfold execGrant
  rw [onLiveMem_next _ _ hlive]
  have hslot : ∀ b : Bool, ¬(b && decide ((s.dev.phMod h fun x => { x with grant := none }).slotNo h = slot)) = true := fun b => by
    rw [show (s.dev.phMod h fun x => { x with grant := none }).slotNo h = s.dev.slotNo h from rfl, decide_eq_false hs, Bool.and_false]
    decide
  dsimp only
  rw [hg]
  dsimp only
  rw [if_neg (by rw [hup]; decide), if_pos (hslot _)]

/-- The state in which an agent takes a granted item, ahead of its records. -/
def Dev.grantTaken (d : Dev) (h : Fin 32) (ix : Nat) (i : Item) : Dev :=
  (((((d.phMod h fun x => { x with grant := none }).phMod h fun x => { x with item := some ix, items := x.items ++ [(ix, [])] }).drfMod h
    fun x => { x with entered := 0, pos := 0, items := [], handOver := [], first_ := true }).put (agtB h) R.AGT_ITEM_ID i.id (h.val % 4)).put
    (agtB h) R.AGT_ITEM_REC (wd (i.nvec * 65536)) (h.val % 4)).agtBump h R.AGT_TAKEN |>.sumMod h fun x => { x with plyTaken := x.plyTaken + 1 }

/-- A grant whose slot is still open, at the end of the head's own records (R196). -/
theorem exec_grant_taken {ix slot : Nat} {i : Item} (hlive : s.dev.dead = false) (hg : s.dev.ply.heads[h].grant = some (ix, slot))
    (hup : s.dev.up (agtB h) = true) (hon : s.dev.onItem h = false) (hi : (s.dev.ply.items.find? fun x => x.ix = ix) = some i)
    (ht : s.dev.taking h = true) (hw : s.dev.webLayer = false) (hp : s.dev.heads[h].drf.poly = none) (hf : s.dev.heads[h].drf.fetch = [])
    (hl : s.dev.heads[h].drf.listLen ≤ s.dev.heads[h].drf.nextRec) (hs : s.dev.heads[h].drf.nextRec = slot)
    (hm : s.dev.heads[h].drf.moves = []) :
    exec (.grant h) s = .next { s with dev := ((s.dev.grantTaken h ix i).ringFill s.mem h) } := by
  set d1 := s.dev.phMod h fun x => { x with grant := none } with hd1
  have hh : d1.heads = s.dev.heads := rfl
  have hitem : d1.ply.heads[h].item = s.dev.ply.heads[h].item := by
    simp only [d1, Dev.phMod, Dev.plyMod, vmod_same]
  have hon1 : d1.onItem h = false := by
    have he : d1.onItem h = s.dev.onItem h := by
      simp only [Dev.onItem, Dev.itemOf, hitem, hh]
      rfl
    rw [he, hon]
  have hgr : d1.ply.heads[h].grant = none := by simp only [d1, Dev.phMod, Dev.plyMod, vmod_same]
  have hopen : d1.slotOpen h = true := by
    have ht1 : d1.taking h = true := ht
    have hw1 : d1.webLayer = false := hw
    unfold Dev.slotOpen
    simp only [hh, hp, hf, Drf.waits, hm, hon1, hgr, ht1, hw1]
    simpa using hl
  have hno : d1.slotNo h = slot := by
    simp only [Dev.slotNo, hh, Drf.atWait, hm, hf]
    exact hs
  have hback : d1.heads[h].drf.atWait = none := by simp only [hh, Drf.atWait, hm]
  set d2 := (d1.phMod h fun x => { x with item := some ix, items := x.items ++ [(ix, [])] }).drfMod h fun x => { x with
    entered := 0, pos := 0, items := [], handOver := [], first_ := true } with hd2
  have hof : d2.itemOf h = some i := by
    have h1 : d2.ply.heads[h].item = some ix := by simp only [d2, Dev.phMod, Dev.plyMod, Dev.drfMod, vmod_same]
    have h2 : d2.ply.items = s.dev.ply.items := rfl
    rw [Dev.itemOf, h1]
    dsimp only
    rw [h2, hi]
  change execGrant h s = _
  unfold execGrant
  rw [onLiveMem_next _ _ hlive]
  dsimp only
  rw [hg]
  dsimp only
  rw [if_neg (by rw [hup]; decide), if_neg (by rw [← hd1, hopen, hno]; simp), ← hd1, hback, ← hd2, hof]
  rfl

end

end Sys2Proof.Machine
end

section
/-! What a grant leaves, and the reports of a head's items (R196). -/

namespace Sys2Proof.Machine

theorem vmod_vmod {α : Type} {n : Nat} (v : Vector α n) (i : Fin n) (f g : α → α) : vmod (vmod v i f) i g = v.set i (g (f v[i])) := by
  unfold vmod
  simp only [Fin.getElem_fin, Vector.getElem_set_self, Vector.set_set]

section
variable (d : Dev) (h : Fin 32)

theorem agtReg_ne {r q : Reg} (hr : r.s0 = 0x20 ∧ r.s1 = 0) (hq : q.s0 = 0x20 ∧ q.s1 = 0) (hne : q.off ≠ r.off) :
    radr (agtB h) q (h.val % 4) ≠ radr (agtB h) r (h.val % 4) := by
  refine radr_ne_of_ofs _ _ _ _ _ _ _ ?_
  unfold Reg.ofs
  rw [hr.1, hr.2, hq.1, hq.2]
  omega

theorem agtReg_page {r : Reg} (hr : r.s0 = 0x20 ∧ r.s1 = 0 ∧ r.off < 0x800) : onPage (agtB h) (radr (agtB h) r (h.val % 4)) := by
  refine onPage_radr _ _ _ ?_
  unfold Reg.ofs
  rw [hr.1, hr.2.1]
  omega

/-- The agent shows an item taken and counts it (R196, R219). -/
theorem Dev.taken_shown (i : Item) :
    let e := (((d.put (agtB h) R.AGT_ITEM_ID i.id (h.val % 4)).put (agtB h) R.AGT_ITEM_REC (wd (i.nvec * 65536)) (h.val % 4)).agtBump h
      R.AGT_TAKEN).sumMod h fun x => { x with plyTaken := x.plyTaken + 1 }
    e = { d with
      regs := e.regs, rep := { d.rep with sums := d.rep.sums.set h { d.rep.sums[h] with plyTaken := d.rep.sums[h].plyTaken + 1 } } } ∧
    e.get (agtB h) R.AGT_ITEM_ID (h.val % 4) = i.id ∧ e.get (agtB h) R.AGT_ITEM_REC (h.val % 4) = wd (i.nvec * 65536) ∧
    d.regsKept e (onPage (agtB h)) := by
  refine ⟨rfl, ?_, ?_, ?_⟩
  · have h1 := agtReg_ne h (r := R.AGT_TAKEN) (q := R.AGT_ITEM_ID) (by decide) (by decide) (by decide)
    have h2 := agtReg_ne h (r := R.AGT_ITEM_REC) (q := R.AGT_ITEM_ID) (by decide) (by decide) (by decide)
    refine Eq.trans (Dev.get_put_ne _ _ _ _ _ _ _ _ _ _ h1) ?_
    exact (Dev.get_put_ne _ _ _ _ _ _ _ _ _ _ h2).trans (Dev.get_put_same _ _ _ _ _ _)
  · have h1 := agtReg_ne h (r := R.AGT_TAKEN) (q := R.AGT_ITEM_REC) (by decide) (by decide) (by decide)
    exact (Dev.get_put_ne _ _ _ _ _ _ _ _ _ _ h1).trans (Dev.get_put_same _ _ _ _ _ _)
  · have h1 := (d.regsKept_refl (onPage (agtB h))).put (agtB h) R.AGT_ITEM_ID i.id (h.val % 4) 0 (agtReg_page h (by decide))
    have h2 := h1.put (agtB h) R.AGT_ITEM_REC (wd (i.nvec * 65536)) (h.val % 4) 0 (agtReg_page h (by decide))
    exact h2.put (agtB h) R.AGT_TAKEN _ (h.val % 4) 0 (agtReg_page h (by decide))

/-- A granted item at its agent. -/
theorem Dev.grantTaken_spec (ix : Nat) (i : Item) :
    let e := d.grantTaken h ix i
    e = { d with
      regs := e.regs
      heads := vmod d.heads h (fun x => { x with drf := { x.drf with entered := 0, pos := 0, items := [], handOver := [], first_ := true } })
      rep := { d.rep with sums := d.rep.sums.set h { d.rep.sums[h] with plyTaken := d.rep.sums[h].plyTaken + 1 } }
      ply := { d.ply with heads := d.ply.heads.set h { d.ply.heads[h] with
        grant := none, item := some ix, items := d.ply.heads[h].items ++ [(ix, [])] } } } ∧
    e.get (agtB h) R.AGT_ITEM_ID (h.val % 4) = i.id ∧ e.get (agtB h) R.AGT_ITEM_REC (h.val % 4) = wd (i.nvec * 65536) ∧
    d.regsKept e (onPage (agtB h)) := by
  have hph : ((d.phMod h fun x => { x with grant := none }).phMod h fun x => { x with item := some ix, items := x.items ++ [(ix, [])] }).drfMod h
      (fun x => { x with entered := 0, pos := 0, items := [], handOver := [], first_ := true }) = { d with
      heads := vmod d.heads h (fun x => { x with drf := { x.drf with entered := 0, pos := 0, items := [], handOver := [], first_ := true } })
      ply := { d.ply with heads := d.ply.heads.set h { d.ply.heads[h] with
        grant := none, item := some ix, items := d.ply.heads[h].items ++ [(ix, [])] } } } := by
    simp only [Dev.phMod, Dev.plyMod, vmod_vmod, Dev.drfMod]
  unfold Dev.grantTaken
  rw [hph]
  exact Dev.taken_shown _ h i

/-- An item's first records go to the head's ring (R189, R196). -/
theorem Dev.ringFill_fresh (m : Mem) {ix : Nat} {i : Item} (hit : d.ply.heads[h].item = some ix) (hof : d.itemOf h = some i)
    (hf : d.heads[h].drf.handOver = []) (hi : d.heads[h].drf.items = []) (hp : d.heads[h].drf.pos = 0) :
    let e := d.ringFill m h
    e = { d with heads := e.heads } ∧ (∀ g : Fin 32, g ≠ h → e.heads[g] = d.heads[g]) ∧
    e.heads[h].drf.entered = d.heads[h].drf.entered ∧ e.heads[h].drf.first_ = d.heads[h].drf.first_ ∧
    e.heads[h].drf.pos = min 256 i.nvec ∧ e.heads[h].drf.items.length = min 256 i.nvec ∧ e.heads[h].drf.handOver = [] := by
  unfold Dev.ringFill
  rw [hit, hof]
  dsimp only
  have hlen : ∀ f : Nat → FRec, ((List.range (min (256 - 0) (i.nvec - 0))).map f).length = min 256 i.nvec := fun f => by
    rw [List.length_map, List.length_range]
    omega
  refine ⟨rfl, fun g hg => vmod_ne _ _ hg, ?_⟩
  rw [Dev.drfMod_drf]
  dsimp only
  rw [hf, hi, hp]
  simp only [List.nil_append, List.length_nil, Nat.zero_add, Nat.sub_zero] at hlen ⊢
  refine ⟨trivial, trivial, trivial, ?_, ?_⟩
  · rw [List.length_take, hlen]
    omega
  · exact List.drop_eq_nil_of_le (by rw [hlen]; omega)

end

/-! Reports (R196). -/

/-- What a head's reports leave of an item in the window. -/
def reported (l : List (Nat × List Nat)) (x : Item) : Option Item :=
  match l.find? fun y => y.1 = x.ix with
  | none => some x
  | some y => if x.nvec ≤ y.2.length then none else some { x with done := y.2 }

theorem reported_nil (x : Item) : reported [] x = some x := rfl

theorem reported_cons (y : Nat × List Nat) (l : List (Nat × List Nat)) (x : Item) :
    reported (y :: l) x =
      if y.1 = x.ix then (if x.nvec ≤ y.2.length then none else some { x with done := y.2 }) else reported l x := by
  unfold reported
  rw [List.find?_cons]
  by_cases h : y.1 = x.ix
  · rw [if_pos h, decide_eq_true h]
  · rw [if_neg h, decide_eq_false h]

/-- A report names an item of the window whose records are all done. -/
def finished (items : List Item) (l : List (Nat × List Nat)) (k : Nat) : Bool :=
  l.any fun y => y.1 = k && items.any fun x => x.ix = k && decide (x.nvec ≤ y.2.length)

theorem reported_none_of_not_mem {l : List (Nat × List Nat)} {x : Item} (h : x.ix ∉ l.map (·.1)) : reported l x = some x := by
  unfold reported
  rw [List.find?_eq_none.mpr fun y hy => by
    intro he
    exact h (List.mem_map.mpr ⟨y, hy, of_decide_eq_true he⟩)]

/-- One report ahead of others. -/
theorem reported_bind {a : Nat × List Nat} {l : List (Nat × List Nat)} (ha : a.1 ∉ l.map (·.1)) (x : Item) :
    (reported [a] x).bind (reported l) = reported (a :: l) x := by
  rw [reported_cons, reported_cons, reported_nil]
  by_cases h : a.1 = x.ix
  · rw [if_pos h, if_pos h]
    split
    · rfl
    · rw [Option.bind_some, reported_none_of_not_mem]
      rw [← show a.1 = _ from h]
      exact ha
  · rw [if_neg h, if_neg h, Option.bind_some]

theorem reported_ix {l : List (Nat × List Nat)} {x y : Item} (h : reported l x = some y) : y.ix = x.ix ∧ y.nvec = x.nvec := by
  unfold reported at h
  split at h
  · cases h; exact ⟨rfl, rfl⟩
  · split at h
    · cases h
    · cases h; exact ⟨rfl, rfl⟩

/-- Indices of the window stay distinct. -/
theorem reported_nodup {l : List (Nat × List Nat)} {items : List Item} (h : (items.map (·.ix)).Nodup) :
    ((items.filterMap (reported l)).map (·.ix)).Nodup := by
  refine List.Nodup.sublist ?_ h
  induction items with
  | nil => exact .slnil
  | cons x t ih =>
    have ih' := ih (List.nodup_cons.mp h).2
    rw [List.filterMap_cons]
    split
    · exact .cons _ ih'
    · rename_i y hy
      rw [List.map_cons, List.map_cons, (reported_ix hy).1]
      exact .cons_cons _ ih'

theorem any_congr_mem {α : Type} {l : List α} {p q : α → Bool} (h : ∀ x ∈ l, p x = q x) : l.any p = l.any q := by
  have hm : ∀ r : α → Bool, l.any r = (l.map r).any id := fun r => by rw [List.any_map]; rfl
  rw [hm p, hm q, List.map_congr_left h]

/-- A report of one item leaves what the others find. -/
theorem finished_cons {a : Nat × List Nat} {l : List (Nat × List Nat)} (ha : a.1 ∉ l.map (·.1)) (items : List Item) (k : Nat) :
    finished items (a :: l) k = (finished items [a] k || finished (items.filterMap (reported [a])) l k) := by
  unfold finished
  rw [List.any_cons, List.any_cons, List.any_nil, Bool.or_false]
  refine congrArg _ (any_congr_mem fun y hy => ?_)
  by_cases hk : y.1 = k
  · have hne : a.1 ≠ k := fun he => ha (by rw [he, ← hk]; exact List.mem_map_of_mem hy)
    rw [List.any_filterMap]
    refine congrArg _ (any_congr_mem fun x _ => ?_)
    rw [reported_cons, reported_nil]
    by_cases hx : a.1 = x.ix
    · have : x.ix ≠ k := fun he => hne (hx.trans he)
      rw [if_pos hx, decide_eq_false this]
      by_cases hn : x.nvec ≤ a.2.length
      · rw [if_pos hn, Bool.false_and]
      · rw [if_neg hn]
        dsimp only
        rw [decide_eq_false this]
    · rw [if_neg hx]
  · rw [decide_eq_false hk, Bool.false_and, Bool.false_and]

/-- Among distinct reports, the one of an item decides. -/
theorem finished_self {items : List Item} {l : List (Nat × List Nat)} (hl : (l.map (·.1)).Nodup) {z : Nat × List Nat} (hz : z ∈ l) :
    finished items l z.1 = items.any fun x => x.ix = z.1 && decide (x.nvec ≤ z.2.length) := by
  unfold finished
  rw [Bool.eq_iff_iff, List.any_eq_true]
  constructor
  · rintro ⟨y, hy, hyz⟩
    rw [Bool.and_eq_true] at hyz
    obtain rfl : y = z := List.inj_on_of_nodup_map hl hy hz (of_decide_eq_true hyz.1)
    exact hyz.2
  · exact fun h => ⟨z, hz, by rw [Bool.and_eq_true]; exact ⟨decide_eq_true rfl, h⟩⟩

section
variable (d : Dev) (h : Fin 32)

/-- One report. -/
theorem Dev.itemReport_spec (y : Nat × List Nat) (hnd : (d.ply.items.map (·.ix)).Nodup) :
    let e := d.itemReport h y.1 y.2
    e = { d with regs := e.regs, ply := { d.ply with
      items := d.ply.items.filterMap (reported [y])
      heads := d.ply.heads.set h { d.ply.heads[h] with
        item := e.ply.heads[h].item
        items := d.ply.heads[h].items.filter fun z => ¬ finished d.ply.items [y] z.1 } } } ∧
    d.regsKept e fun a => a = radr plyB R.PLY_STAT := by
  have hone : ∀ x, reported [y] x = if y.1 = x.ix then (if x.nvec ≤ y.2.length then none else some { x with done := y.2 }) else some x :=
    fun x => by rw [reported_cons, reported_nil]
  have hfin : ∀ k, finished d.ply.items [y] k = (decide (y.1 = k) && d.ply.items.any fun x => x.ix = k && decide (x.nvec ≤ y.2.length)) :=
    fun k => by rw [finished, List.any_cons, List.any_nil, Bool.or_false]
  have hself : d.ply.heads.set h { d.ply.heads[h] with item := d.ply.heads[h].item, items := d.ply.heads[h].items } = d.ply.heads :=
    Vector.set_getElem_self _
  unfold Dev.itemReport
  cases hi : d.ply.items.find? fun x => x.ix = y.1 with
  | none =>
    have hno : ∀ x ∈ d.ply.items, x.ix ≠ y.1 := fun x hx he => by
      have := List.find?_eq_none.mp hi x hx
      simp [he] at this
    have h1 : d.ply.items.filterMap (reported [y]) = d.ply.items := by
      rw [List.filterMap_congr fun x hx => (hone x).trans (if_neg (Ne.symm (hno x hx))), List.filterMap_some]
    have h2 : (d.ply.heads[h].items.filter fun z => ¬ finished d.ply.items [y] z.1) = d.ply.heads[h].items := by
      refine List.filter_eq_self.mpr fun z _ => decide_eq_true fun hf => ?_
      rw [hfin, Bool.and_eq_true, List.any_eq_true] at hf
      obtain ⟨hyz, x, hx, hxz⟩ := hf
      exact hno x hx (by have := of_decide_eq_true hyz; simp at hxz; omega)
    dsimp only
    rw [h1, h2]
    exact ⟨(congrArg (fun v => ({ d with ply := { d.ply with heads := v } } : Dev)) hself).symm, d.regsKept_refl _⟩
  | some i =>
    have himem := List.mem_of_find?_eq_some hi
    have hix : i.ix = y.1 := by simpa using List.find?_some hi
    have huniq : ∀ x ∈ d.ply.items, x.ix = y.1 → x = i := fun x hx he =>
      List.inj_on_of_nodup_map hnd hx himem (he.trans hix.symm)
    dsimp only
    by_cases hn : i.nvec ≤ y.2.length
    · rw [if_pos hn]
      have h1 : d.ply.items.filterMap (reported [y]) = d.ply.items.filter fun x => x.ix ≠ y.1 := by
        rw [← List.filterMap_eq_filter]
        refine List.filterMap_congr fun x hx => (hone x).trans ?_
        by_cases he : x.ix = y.1
        · obtain rfl := huniq x hx he
          simp [he, hn, Option.guard]
        · simp [he, Ne.symm he, Option.guard]
      have h2 : (d.ply.heads[h].items.filter fun z => ¬ finished d.ply.items [y] z.1) = d.ply.heads[h].items.filter fun z => z.1 ≠ y.1 := by
        refine congrArg (List.filter · _) (funext fun z => ?_)
        rw [hfin]
        by_cases hz : z.1 = y.1
        · have hany : (d.ply.items.any fun x => x.ix = z.1 && decide (x.nvec ≤ y.2.length)) = true :=
            List.any_eq_true.mpr ⟨i, himem, by simp [hix, hz, hn]⟩
          rw [hany]
          simp [hz]
        · simp [hz, Ne.symm hz]
      rw [h1, h2]
      refine ⟨?_, ?_⟩
      · have hitem : (((d.itemGone y.1).phMod h fun x => { x with
            item := if x.item = some y.1 then none else x.item, items := x.items.filter fun z => z.1 ≠ y.1 }).ply.heads[h]).item =
            if d.ply.heads[h].item = some y.1 then none else d.ply.heads[h].item := by
          simp only [Dev.phMod, Dev.plyMod, vmod_same]
          rfl
        rw [hitem]
        rfl
      · have h0 : d.regsKept (d.plyMod fun p => { p with items := p.items.filter fun x => x.ix ≠ y.1 }) fun a => a = radr plyB R.PLY_STAT :=
          fun _ _ => rfl
        exact ((h0.trans (Dev.regsKept_put _ _ _ _ _ _ rfl)).trans (Dev.regsKept_put _ _ _ _ _ _ rfl)).trans fun _ _ => rfl
    · rw [if_neg hn]
      have h1 : d.ply.items.filterMap (reported [y]) = d.ply.items.map fun x => if x.ix = y.1 then { x with done := y.2 } else x := by
        rw [← List.filterMap_eq_map]
        refine List.filterMap_congr fun x hx => (hone x).trans ?_
        by_cases he : x.ix = y.1
        · obtain rfl := huniq x hx he
          simp [he, hn]
        · simp [he, Ne.symm he]
      have h2 : (d.ply.heads[h].items.filter fun z => ¬ finished d.ply.items [y] z.1) = d.ply.heads[h].items := by
        refine List.filter_eq_self.mpr fun z _ => decide_eq_true fun hf => ?_
        rw [hfin, Bool.and_eq_true, List.any_eq_true] at hf
        obtain ⟨hyz, x, hx, hxz⟩ := hf
        rw [Bool.and_eq_true] at hxz
        obtain rfl := huniq x hx ((of_decide_eq_true hxz.1).trans (of_decide_eq_true hyz).symm)
        exact hn (of_decide_eq_true hxz.2)
      rw [h1, h2]
      exact ⟨(congrArg (fun v => ({ d with ply := { d.ply with
        items := d.ply.items.map fun x => if x.ix = y.1 then { x with done := y.2 } else x, heads := v } } : Dev)) hself).symm, fun _ _ => rfl⟩

/-- The reports of a head, one after the other. -/
theorem Dev.itemReports_spec (l : List (Nat × List Nat)) (hl : (l.map (·.1)).Nodup) (hnd : (d.ply.items.map (·.ix)).Nodup) :
    let e := l.foldl (fun (e : Dev) x => e.itemReport h x.1 x.2) d
    e = { d with regs := e.regs, ply := { d.ply with
      items := d.ply.items.filterMap (reported l)
      heads := d.ply.heads.set h { d.ply.heads[h] with
        item := e.ply.heads[h].item
        items := d.ply.heads[h].items.filter fun z => ¬ finished d.ply.items l z.1 } } } ∧
    d.regsKept e fun a => a = radr plyB R.PLY_STAT := by
  induction l generalizing d with
  | nil =>
    refine ⟨?_, d.regsKept_refl _⟩
    have h1 : d.ply.items.filterMap (reported []) = d.ply.items := by
      rw [show reported [] = some from rfl, List.filterMap_some]
    have h2 : (d.ply.heads[h].items.filter fun z => ¬ finished d.ply.items [] z.1) = d.ply.heads[h].items :=
      List.filter_eq_self.mpr fun _ _ => rfl
    rw [h1, h2]
    exact congrArg (fun v => ({ d with ply := { d.ply with heads := v } } : Dev)) (Vector.set_getElem_self _).symm
  | cons a l ih =>
    obtain ⟨ha, hl'⟩ := List.nodup_cons.mp hl
    obtain ⟨h1, h2⟩ := d.itemReport_spec h a hnd
    rw [List.foldl_cons]
    generalize d.itemReport h a.1 a.2 = x at h1 h2
    have hitems : x.ply.items = d.ply.items.filterMap (reported [a]) := by rw [h1]
    have hheads : x.ply.heads = d.ply.heads.set h { d.ply.heads[h] with
        item := x.ply.heads[h].item
        items := d.ply.heads[h].items.filter fun z => ¬ finished d.ply.items [a] z.1 } := congrArg (fun y => y.ply.heads) h1
    obtain ⟨h3, h4⟩ := ih x hl' (by rw [hitems]; exact reported_nodup hnd)
    generalize l.foldl (fun (e : Dev) x => e.itemReport h x.1 x.2) x = e at h3 h4
    refine ⟨?_, h2.trans h4⟩
    have hfm : x.ply.items.filterMap (reported l) = d.ply.items.filterMap (reported (a :: l)) := by
      rw [hitems, List.filterMap_filterMap]
      exact congrArg (List.filterMap · _) (funext fun y => reported_bind ha y)
    have hfi : (x.ply.heads[h].items.filter fun z => ¬ finished x.ply.items l z.1) =
        d.ply.heads[h].items.filter fun z => ¬ finished d.ply.items (a :: l) z.1 := by
      have hx : x.ply.heads[h].items = d.ply.heads[h].items.filter fun z => ¬ finished d.ply.items [a] z.1 := by
        rw [hheads]
        simp only [Fin.getElem_fin, Vector.getElem_set_self]
      rw [hx, List.filter_filter, hitems]
      refine congrArg (List.filter · _) (funext fun z => ?_)
      rw [finished_cons ha]
      generalize finished d.ply.items [a] z.1 = u
      generalize finished (d.ply.items.filterMap (reported [a])) l z.1 = v
      revert u v
      decide
    have hset : x.ply.heads.set h { x.ply.heads[h] with
        item := e.ply.heads[h].item
        items := x.ply.heads[h].items.filter fun z => ¬ finished x.ply.items l z.1 } = d.ply.heads.set h { d.ply.heads[h] with
        item := e.ply.heads[h].item
        items := d.ply.heads[h].items.filter fun z => ¬ finished d.ply.items (a :: l) z.1 } := by
      rw [hfi, hheads]
      simp only [Fin.getElem_fin, Vector.getElem_set_self, Vector.set_set]
    rw [hfm, hset] at h3
    refine h3.trans ?_
    rw [h1]

end

/-- Settles O32: the window by `windowEntry_unsplit`, grants by `grantTaken_spec` and `ringFill_fresh`, reports by `itemReports_spec`. -/
theorem itemsAreOfferedGrantedAndCompleted : Obligations.ItemsAreOfferedGrantedAndCompleted := by
  refine ⟨fun s k r z hlive hup hrun hweb hn hlen hr hb hs hz hf hl => ?_, fun s c h i hlive hply hagt hc hi => ?_,
    fun s h ix slot i hlive hg hup hon hi ht hw hp hf hl hs hm => ?_, fun s h ix slot hlive hg hup hs => ?_,
    fun s h hlive hply hagt hnd hl => ?_⟩
  · intro e f
    refine ⟨_, exec_itemWindowEntry s hlive hup hrun hweb hn hlen, ?_⟩
    rw [s.dev.windowEntry_unsplit s.mem hr hb hs hz hf hl]
    change if e ≠ 0 then _ else _
    by_cases he : e = 0
    · rw [if_neg (not_not_intro he), if_pos he]
      obtain ⟨h1, h2, h3, h4⟩ := s.dev.poolList_next (r.getD 1 0) 3 0xFF s.dev.ply.next (s.dev.ply.next + 1 + hNvec r) (count := 1 + hNvec r)
        (by omega)
      refine ⟨h1, ?_, h3, h4⟩
      obtain ⟨x, hx, hx1, hx2, hx3, hx4⟩ := h2
      exact ⟨x, hx, hx1, hx2, hx3, by omega⟩
    · rw [if_pos he, if_neg he]
      obtain ⟨h1, h2, h3⟩ := (s.dev.plyMod fun p => { p with items := p.items ++ [windowItem s.dev.ply.next r e s.dev.now f] }).poolNext_spec
        (s.dev.ply.next + 1 + hNvec r)
      refine ⟨h1, ?_, fun a ha => h3 a ha⟩
      refine h2.trans ?_
      change (s.dev.ply.items ++ [_]).length % 2048 = _
      rw [List.length_append, List.length_singleton, Nat.mod_eq_of_lt (by omega)]
  · exact ⟨_, exec_offers s h hlive hply hagt hc, s.dev.offer_some h _ hi⟩
  · refine ⟨_, exec_grant_taken s h hlive hg hup hon hi ht hw hp hf hl hs hm, ?_⟩
    obtain ⟨h1, h2, h3, h4⟩ := s.dev.grantTaken_spec h ix i
    generalize s.dev.grantTaken h ix i = x at h1 h2 h3 h4
    have hdrf : x.heads[h].drf = { s.dev.heads[h].drf with entered := 0, pos := 0, items := [], handOver := [], first_ := true } := by
      rw [h1]
      simp only [vmod_same]
    have hit : x.ply.heads[h].item = some ix := by
      rw [h1]
      simp only [Fin.getElem_fin, Vector.getElem_set_self]
    have hof : x.itemOf h = some i := by
      rw [Dev.itemOf, hit]
      dsimp only
      rw [show x.ply.items = s.dev.ply.items by rw [h1], hi]
    obtain ⟨k1, k2, k3, k4, k5, k6, k7⟩ := x.ringFill_fresh h s.mem hit hof (by rw [hdrf]) (by rw [hdrf]) (by rw [hdrf])
    generalize x.ringFill s.mem h = e at k1 k2 k3 k4 k5 k6 k7
    have hregs : e.regs = x.regs := by rw [k1]
    have hrep := (show e.rep = x.rep by rw [k1]).trans (congrArg Dev.rep h1)
    refine ⟨?_, ?_, ?_, ?_, ?_, ?_, k5, k6, k7, fun g hg => ?_, fun a ha => by rw [hregs]; exact h4 a ha⟩
    · rw [hregs, show e.rep = _ from hrep]
      exact k1.trans (congrArg (fun y : Dev => { y with heads := e.heads }) h1)
    · exact (Dev.get_of_regs _ _ _ _ (by rw [hregs])).trans h2
    · exact (Dev.get_of_regs _ _ _ _ (by rw [hregs])).trans h3
    · exact hrep
    · rw [k3, hdrf]
    · rw [k4, hdrf]
    · rw [k2 g hg, h1]
      exact vmod_ne _ _ hg
  · refine ⟨_, exec_grant_returned s h hlive hg hup hs, rfl, Dev.getN_bump _ _ _ _ _⟩
  · have he : exec (.itemCompletion h) s = .next { s with dev := (s.dev.ply.heads[h].items.foldl
        (fun (e : Dev) x => e.itemReport h x.1 x.2) s.dev) } := by
      have hcond : (s.dev.up plyB && s.dev.up (agtB h)) = true := by rw [hply, hagt]; rfl
      change execItemCompletion h s = _
      unfold execItemCompletion
      rw [onLive_next _ _ hlive]
      exact congrArg (fun e => Host.Outcome.next { s with dev := e }) (Dev.when_of _ _ hcond)
    refine ⟨_, he, ?_⟩
    obtain ⟨h1, h2⟩ := s.dev.itemReports_spec h s.dev.ply.heads[h].items hl hnd
    generalize s.dev.ply.heads[h].items.foldl (fun (e : Dev) x => e.itemReport h x.1 x.2) s.dev = e at h1 h2
    refine ⟨?_, h2⟩
    have hfil : (s.dev.ply.heads[h].items.filter fun z => ¬ finished s.dev.ply.items s.dev.ply.heads[h].items z.1) =
        s.dev.ply.heads[h].items.filter fun y => ¬ s.dev.ply.items.any fun x => x.ix = y.1 && decide (x.nvec ≤ y.2.length) := by
      refine List.filter_congr fun z hz => ?_
      rw [finished_self hl hz]
    rw [hfil] at h1
    exact h1

end Sys2Proof.Machine
end

section
/-! Cleared boxes (R199 to R208). -/

namespace Sys2Proof.Machine

/-! Conflicts. -/

/-- Gas and plume, items and zones: what clearing boxes leaves of the arbiter. -/
def Ply.setting (p : Ply) : (Rat × Rat × Rat × Rat) × List Item × List Zone := ((p.gx, p.gy, p.dist, p.tanH), p.items, p.zones)

theorem Ply.conflict_congr {p q : Ply} (h : q.setting = p.setting) (a b : PBox) : q.conflict a b = p.conflict a b := by
  simp only [Ply.setting, Prod.mk.injEq] at h
  obtain ⟨⟨h1, h2, h3, h4⟩, -, -⟩ := h
  simp only [Ply.conflict, Ply.plumeHits, h1, h2, h3, h4]

theorem Ply.conflict_comm (p : Ply) (a b : PBox) : p.conflict a b = p.conflict b a := Bool.or_comm _ _

/-- Fewer boxes conflict no more. -/
theorem Ply.exclusive.of_subset {p q : Ply} (h : p.exclusive) (hs : q.setting = p.setting)
    (hb : ∀ g : Fin 32, ∀ b ∈ q.heads[g].boxes, b ∈ p.heads[g].boxes) : q.exclusive := fun g k hgk a ha b hb' => by
  rw [Ply.conflict_congr hs]
  exact h g k hgk a (hb g a ha) b (hb k b hb')

/-- A head's boxes change to ones that conflict with no other head's. -/
theorem Ply.exclusive.of_head {p q : Ply} (h : p.exclusive) (hs : q.setting = p.setting) (k : Fin 32)
    (hother : ∀ g : Fin 32, g ≠ k → q.heads[g].boxes = p.heads[g].boxes)
    (hk : ∀ b ∈ q.heads[k].boxes, ∀ g : Fin 32, g ≠ k → ∀ x ∈ p.heads[g].boxes, p.conflict b x = false) : q.exclusive := by
  intro g l hgl a ha b hb
  rw [Ply.conflict_congr hs]
  by_cases hg : g = k
  · subst hg
    rw [hother l (Ne.symm hgl)] at hb
    exact hk a ha l (Ne.symm hgl) b hb
  · by_cases hl : l = k
    · subst hl
      rw [hother g hg] at ha
      rw [Ply.conflict_comm]
      exact hk b hb g hg a ha
    · rw [hother g hg] at ha
      rw [hother l hl] at hb
      exact h g l hgl a ha b hb

theorem Ply.hitsBoxes_false {p : Ply} {h : Fin 32} {b : PBox} :
    p.hitsBoxes h b = false ↔ ∀ g : Fin 32, g ≠ h → ∀ x ∈ p.heads[g].boxes, p.conflict b x = false := by
  simp [Ply.hitsBoxes, List.any_eq_false]

/-! Work of the arbiter that clears boxes. -/

/-- At most registers, vectors and the arbiter change, of it neither setting, items nor zones, and boxes without conflict stay so. -/
structure Dev.clears (d e : Dev) : Prop where
  work : d.changes [.regs, .vecs, .ply] e
  setting : e.ply.setting = d.ply.setting
  exclusive : d.ply.exclusive → e.ply.exclusive

namespace Dev.clears

variable {d e f : Dev}

theorem refl (d : Dev) : clears d d := ⟨.refl d _, rfl, id⟩

theorem ite {c : Prop} [Decidable c] (r : clears d e) (r' : clears d f) : clears d (if c then e else f) := by
  split <;> assumption

variable (r : clears d e)
include r

theorem trans (r' : clears e f) : clears d f := ⟨r.work.trans r'.work, r'.setting.trans r.setting, fun h => r'.exclusive (r.exclusive h)⟩

/-- A step beside the arbiter's state. -/
theorem beside (r' : e.changes [.regs, .vecs] f) : clears d f := by
  have hp : f.ply = e.ply := r'.get Dev.ply
  exact r.trans ⟨r'.mono (by decide), by rw [hp], by rw [hp]; exact id⟩

theorem put (b : Blk) (g : Reg) (w : Word) (i j : Nat) : clears d (e.put b g w i j) := r.beside ((e.put_changes b g w i j).mono (by decide))

theorem plyEvent (k : Nat) : clears d (e.plyEvent k) := r.beside ((e.event_changes _ _ _ _ _ _).mono (by decide))

/-- A change of the arbiter that adds no box. -/
theorem plyMod {g : Ply → Ply} (hs : (g e.ply).setting = e.ply.setting) (hb : ∀ h : Fin 32, ∀ b ∈ (g e.ply).heads[h].boxes, b ∈ e.ply.heads[h].boxes) :
    clears d (e.plyMod g) :=
  r.trans ⟨Dev.changes.mono (F := [.ply]) rfl (by decide), hs, fun h => h.of_subset hs hb⟩

theorem phMod (h : Fin 32) {g : PHead → PHead} (hb : ∀ b ∈ (g e.ply.heads[h]).boxes, b ∈ e.ply.heads[h].boxes) : clears d (e.phMod h g) :=
  r.plyMod rfl fun k b hk => by
    by_cases hkh : k = h
    · subst hkh
      simp only [vmod_same] at hk
      exact hb b hk
    · simp only [vmod_ne _ _ hkh] at hk
      exact hk

theorem tokenMove : clears d e.tokenMove := by
  unfold Dev.tokenMove
  refine r.plyMod ?_ ?_
  · split
    · split <;> rfl
    · rfl
  · split
    · split
      · exact fun _ _ hb => hb
      · exact fun _ _ hb => hb
    · exact fun _ _ hb => hb

/-- A box that conflicts with none of another head is cleared. -/
theorem clear (h : Fin 32) {b : PBox} (hb : e.ply.hitsBoxes h b = false) : clears d (e.clear h b) := by
  refine r.trans ⟨Dev.changes.mono (F := [.ply]) rfl (by decide), rfl, fun hx => hx.of_head rfl h (fun g hg => ?_) fun a ha g hg x hx' => ?_⟩
  · simp only [Dev.clear, Dev.phMod, Dev.plyMod, vmod_ne _ _ hg]
  · simp only [Dev.clear, Dev.phMod, Dev.plyMod, vmod_same, List.mem_append, List.mem_singleton] at ha
    rcases ha with ha | rfl
    · exact hx h g (Ne.symm hg) a ha x hx'
    · exact Ply.hitsBoxes_false.mp hb g hg x hx'

theorem tokenGrant (h : Fin 32) {b : PBox} (hb : e.ply.hitsBoxes h b = false) : clears d (e.tokenGrant h b) := by
  unfold Dev.tokenGrant
  have h1 := (r.clear h hb).put plyB R.PLY_TOKEN_GR (wd (satAdd 0xFFFFFFFF ((e.clear h b).getN plyB R.PLY_TOKEN_GR) 1)) 0 0
  have h2 := h1.plyMod (g := fun p => { p with heads := p.heads.map fun x => if x.req.isSome then { x with count := x.count + 1 } else x }) rfl
    fun k a ha => by
      simp only [Fin.getElem_fin, Vector.getElem_map] at ha
      split at ha <;> exact ha
  exact (ite (h2.plyEvent 5) h2).tokenMove

theorem tokenServe (n : Nat) : clears d (Sys2Proof.Machine.tokenServe n e) := by
  induction n generalizing e with
  | zero => exact r
  | succ n ih =>
    unfold Sys2Proof.Machine.tokenServe
    split
    · exact r
    · split
      · exact r
      · split
        · exact r
        · rename_i hb
          exact ih (r.tokenGrant _ (by simpa using hb))

theorem freeServe : clears d e.freeServe := by
  unfold Dev.freeServe
  refine tokenMove ?_
  generalize ((((List.finRange 32).filterMap fun g => e.ply.heads[g].req.map fun r => (r.2, g)).mergeSort fun a b => a.1 ≤ b.1).map (·.2)) = l
  induction l generalizing e with
  | nil => exact r
  | cons h l ih =>
    refine ih ?_
    dsimp only
    split
    · exact r
    · split
      · exact r
      · rename_i hb
        exact (r.clear h (by simpa using (not_or.mp hb).1)).put _ _ _ _ _

theorem plyServe : clears d e.plyServe := (r.tokenMove.tokenServe 64).freeServe

end Dev.clears

/-! With no request waiting nothing is granted. -/

section
variable (d : Dev)

theorem Dev.tokenMove_heads : d.tokenMove.ply.heads = d.ply.heads := by
  unfold Dev.tokenMove Dev.plyMod
  dsimp only
  split
  · split <;> rfl
  · rfl

theorem tokenServe_none (n : Nat) (h : ∀ g : Fin 32, d.ply.heads[g].req = none) : tokenServe n d = d := by
  cases n with
  | zero => rfl
  | succ n =>
    unfold tokenServe
    split
    · rfl
    · rw [h]

theorem Dev.plyServe_none (h : ∀ g : Fin 32, d.ply.heads[g].req = none) : d.plyServe.ply.heads = d.ply.heads := by
  have h1 : ∀ g : Fin 32, d.tokenMove.ply.heads[g].req = none := fun g => by rw [d.tokenMove_heads]; exact h g
  unfold Dev.plyServe
  rw [tokenServe_none _ _ h1]
  have hnil : ((List.finRange 32).filterMap fun g => d.tokenMove.ply.heads[g].req.map fun r => (r.2, g)) = [] :=
    List.filterMap_eq_nil_iff.mpr fun g _ => by rw [h1]; rfl
  unfold Dev.freeServe
  rw [hnil]
  dsimp only
  rw [List.mergeSort_nil, List.map_nil, List.foldl_nil, Dev.tokenMove_heads, Dev.tokenMove_heads]

end

/-! The commands. -/

section
variable (s : State) (h : Fin 32)

/-- A clearance request (R205): cleared, or it waits. -/
theorem Dev.request_spec (d : Dev) (b : PBox) :
    let e := d.request h b
    Dev.clears d e ∧ e.vecs = d.vecs ∧
    (if d.ply.hitsBoxes h b = true ∨ d.ply.hitsReqs h b = true then
      e.ply.heads[h].boxes = d.ply.heads[h].boxes ∧ e.ply.heads[h].req = some (b, d.now)
    else e.ply.heads[h].boxes = d.ply.heads[h].boxes ++ [b] ∧ e.ply.heads[h].req = none ∧
      e.getN plyB R.PLY_FREE_GR = min 0xFFFFFFFF (d.getN plyB R.PLY_FREE_GR + 1)) ∧
    ∀ g : Fin 32, g ≠ h → e.ply.heads[g] = d.ply.heads[g] := by
  have hr := Dev.clears.refl d
  unfold Dev.request
  dsimp only
  by_cases hc : d.ply.hitsBoxes h b = true ∨ d.ply.hitsReqs h b = true
  · rw [if_pos hc, if_pos hc]
    refine ⟨(hr.phMod h (g := fun x => { x with req := some (b, d.now), count := 0 }) fun _ hx => hx).tokenMove, rfl, ?_, fun g hg => ?_⟩
    · simp only [Dev.tokenMove_heads]
      simp only [Dev.phMod, Dev.plyMod, vmod_same]
      trivial
    · simp only [Dev.tokenMove_heads]
      exact vmod_ne _ _ hg
  · rw [if_neg hc, if_neg hc]
    refine ⟨(hr.clear h (by simpa using (not_or.mp hc).1)).put _ _ _ _ _, rfl, ⟨?_, ?_, Dev.getN_bump _ _ _ _ _⟩, fun g hg => vmod_ne _ _ hg⟩
    · exact congrArg PHead.boxes (vmod_same _ _ _)
    · exact congrArg PHead.req (vmod_same _ _ _)

theorem exec_clearanceRequest {run : Nat} (hlive : s.dev.dead = false) (hw : s.dev.wantsClear h = some run) (hply : s.dev.up plyB = true)
    (hagt : s.dev.up (agtB h) = true) (hr : s.dev.headRuns h = true) :
    exec (.clearanceRequest h) s = .next { s with dev := (s.dev.request h (s.dev.runBox s.dev.heads[h].drf.moves run)) } := by
  change execClearanceRequest h s = _
  unfold execClearanceRequest
  rw [onLive_next _ _ hlive, hw]
  have hcond : (s.dev.up plyB && s.dev.up (agtB h) && s.dev.headRuns h) = true := by rw [hply, hagt, hr]; rfl
  exact congrArg (fun e => Host.Outcome.next { s with dev := e }) (Dev.when_of _ _ hcond)

/-- The extension of a cleared box that meets nothing (R201). -/
theorem exec_extension {b : PBox} (hlive : s.dev.dead = false) (ht : s.dev.taking h = true) (hg : s.dev.growth h = some b)
    (hply : s.dev.up plyB = true) (h1 : s.dev.ply.hitsBoxes h b = false) (h2 : s.dev.ply.hitsHolder h b = false) :
    exec (.extension h) s = .next { s with dev := (s.dev.phMod h fun x => { x with
      boxes := x.boxes.map fun y => if y.run = b.run then { b with off := y.off } else y }) } := by
  change execExtension h s = _
  unfold execExtension
  rw [onLive_next _ _ hlive, ht, hg]
  refine congrArg (fun e => Host.Outcome.next { s with dev := e }) ((Dev.when_of _ _ hply).trans ?_)
  rw [if_neg (by rw [h1, h2]; decide)]

/-- The box of a run whose linger has passed (R202). -/
def Dev.boxDue (d : Dev) (h : Fin 32) (b : PBox) : Bool :=
  match b.off with
  | some t => d.runOver h b.run && d.past t (d.getF plyB R.PLY_LINGER 15 0)
  | none => false

theorem exec_boxRelease {b : PBox} (hlive : s.dev.dead = false) (hply : s.dev.up plyB = true) (hb : b ∈ s.dev.ply.heads[h].boxes)
    (hdue : s.dev.boxDue h b = true) :
    exec (.boxRelease h) s = .next { s with dev := ((s.dev.phMod h fun x => { x with
      boxes := x.boxes.filter fun y => !s.dev.boxDue h y }).plyServe) } := by
  change execBoxRelease h s = _
  unfold execBoxRelease
  rw [onLive_next _ _ hlive]
  have hcond : (s.dev.up plyB && s.dev.ply.heads[h].boxes.any (s.dev.boxDue h)) = true := by
    rw [hply, List.any_eq_true.mpr ⟨b, hb, hdue⟩]; rfl
  exact congrArg (fun e => Host.Outcome.next { s with dev := e }) (Dev.when_of _ _ hcond)

end

/-- Settles O33: every step of the arbiter clears only boxes that conflict with no cleared one (`Dev.clears`). -/
theorem clearedBoxesNeverConflict : Obligations.ClearedBoxesNeverConflict := by
  refine ⟨fun s h run hlive hw hply hagt hr => ?_, fun s h b hlive ht hg hply h1 h2 => ?_, fun s h b t hlive hply hb hoff hover hpast => ?_⟩
  · intro b
    refine ⟨_, exec_clearanceRequest s h hlive hw hply hagt hr, ?_⟩
    obtain ⟨h1, h2, h3, h4⟩ := Dev.request_spec h s.dev b
    generalize s.dev.request h b = e at h1 h2 h3 h4
    refine ⟨?_, h1.exclusive, h3, h4⟩
    have hw : e = { s.dev with regs := e.regs, vecs := e.vecs, ply := e.ply } :=
      congrArg (fun x : Dev => { x with regs := e.regs, vecs := e.vecs, ply := e.ply }) h1.work
    rw [h2] at hw
    exact hw
  · refine ⟨_, exec_extension s h hlive ht hg hply h1 h2, rfl, fun hx => hx.of_head rfl h (fun g hg => ?_) fun a ha g hg x hx' => ?_⟩
    · exact congrArg PHead.boxes (vmod_ne _ _ hg)
    · simp only [Dev.phMod, Dev.plyMod, vmod_same] at ha
      obtain ⟨y, hy, rfl⟩ := List.mem_map.mp ha
      by_cases hr : y.run = b.run
      · rw [if_pos hr]
        exact Ply.hitsBoxes_false.mp h1 g hg x hx'
      · rw [if_neg hr]
        exact hx h g (Ne.symm hg) y hy x hx'
  · have hdue : s.dev.boxDue h b = true := by
      unfold Dev.boxDue
      rw [hoff]
      dsimp only
      rw [hover, hpast]
      rfl
    refine ⟨_, exec_boxRelease s h hlive hply hb hdue, ?_⟩
    have hr := (Dev.clears.refl s.dev).phMod h (g := fun x => { x with boxes := x.boxes.filter fun y => !s.dev.boxDue h y })
      fun _ hx => (List.mem_filter.mp hx).1
    have hserve := hr.plyServe
    have hnone := Dev.plyServe_none (s.dev.phMod h fun x => { x with boxes := x.boxes.filter fun y => !s.dev.boxDue h y })
    generalize (s.dev.phMod h fun x => { x with boxes := x.boxes.filter fun y => !s.dev.boxDue h y }).plyServe = e at hserve hnone
    refine ⟨congrArg (fun x : Dev => { x with regs := e.regs, vecs := e.vecs, ply := e.ply }) hserve.work, hserve.exclusive, fun hreq hm => ?_,
      congrArg (fun x => x.2.1) hserve.setting, congrArg (fun x => x.2.2) hserve.setting⟩
    rw [hnone fun g => ?_] at hm
    · simp only [Dev.phMod, Dev.plyMod, vmod_same] at hm
      have := (List.mem_filter.mp hm).2
      rw [hdue] at this
      cases this
    · by_cases hg : g = h
      · subst hg
        simp only [Dev.phMod, Dev.plyMod, vmod_same]
        exact hreq g
      · exact (congrArg PHead.req (vmod_ne _ _ hg)).trans (hreq g)

end Sys2Proof.Machine
end

section
/-! Plume excursions (R14, R203). -/

namespace Sys2Proof.Machine

/-! Reported positions. -/

/-- The position that a message at the arbiter reports. -/
def Msg.melt (x : Msg) : Option (Rat × Rat) :=
  if x.dst = plyB ∧ x.loc = .inbox then (match x.body with
    | .melt a b => some (a, b)
    | _ => none) else none

theorem Msg.melt_none {x : Msg} (h : x.melt = none) (hd : x.dst = plyB) (hl : x.loc = .inbox) (a b : Rat) : x.body ≠ .melt a b := fun he => by
  rw [Msg.melt, if_pos ⟨hd, hl⟩, he] at h
  cases h

theorem Msg.melt_of_body {x : Msg} (h : x.dst = plyB → x.loc = .inbox → ∀ a b, x.body ≠ .melt a b) : x.melt = none := by
  unfold Msg.melt
  split
  · rename_i hx
    split
    · rename_i a b hb
      exact absurd hb (h hx.1 hx.2 a b)
    · rfl
  · rfl

/-- A message's position reaches its head's place. -/
def Dev.meltTake (d : Dev) (x : Msg) : Dev :=
  match x.melt, blkKind x.src with
  | some p, some (.headctl, n) => d.phMod (Fin.ofNat 32 n) fun y => { y with melt := some p }
  | _, _ => d

theorem headctl_lt {b : Blk} {n : Nat} (h : blkKind b = some (.headctl, n)) : n < 32 := by
  have hall : ∀ r : Fin 16, ∀ k : Fin 64, (match blkKind ⟨r, k⟩ with | some (.headctl, n) => decide (n < 32) | _ => true) = true := by
    decide +kernel
  have := hall b.region b.block
  rw [show (⟨b.region, b.block⟩ : Blk) = b from rfl, h] at this
  exact of_decide_eq_true this

/-- Messages change nothing but the heads' positions, each that of its source. -/
theorem Dev.meltTakes (l : List Msg) (d : Dev) :
    let e := l.foldl Dev.meltTake d
    e = { d with ply := { d.ply with heads := e.ply.heads } } ∧
    (∀ h : Fin 32, e.ply.heads[h] = { d.ply.heads[h] with melt := e.ply.heads[h].melt }) ∧
    ∀ h : Fin 32, (∀ x ∈ l, x.src = headB h → x.melt = none) → e.ply.heads[h].melt = d.ply.heads[h].melt := by
  induction l generalizing d with
  | nil => exact ⟨rfl, fun _ => rfl, fun _ _ => rfl⟩
  | cons x l ih =>
    obtain ⟨h1, h2, h3⟩ := ih (d.meltTake x)
    have hx : d.meltTake x = { d with ply := { d.ply with heads := (d.meltTake x).ply.heads } } ∧
        (∀ h : Fin 32, (d.meltTake x).ply.heads[h] = { d.ply.heads[h] with melt := (d.meltTake x).ply.heads[h].melt }) ∧
        ∀ h : Fin 32, (x.src = headB h → x.melt = none) → (d.meltTake x).ply.heads[h].melt = d.ply.heads[h].melt := by
      unfold Dev.meltTake
      split
      · rename_i p n hp hk
        refine ⟨rfl, fun h => ?_, fun h hn => ?_⟩
        · by_cases hh : h = Fin.ofNat 32 n
          · subst hh
            simp only [Dev.phMod, Dev.plyMod, vmod_same]
          · simp only [Dev.phMod, Dev.plyMod, vmod_ne _ _ hh]
        · refine congrArg PHead.melt (vmod_ne _ _ fun hh => ?_)
          subst hh
          have hsrc : x.src = headB (Fin.ofNat 32 n) := by
            rw [blk_of_kind hk, headB, Fin.val_ofNat, Nat.mod_eq_of_lt (headctl_lt hk)]
          rw [hn hsrc] at hp
          cases hp
      · exact ⟨rfl, fun _ => rfl, fun _ _ => rfl⟩
    obtain ⟨k1, k2, k3⟩ := hx
    rw [List.foldl_cons]
    generalize d.meltTake x = y at h1 h2 h3 k1 k2 k3
    generalize l.foldl Dev.meltTake y = e at h1 h2 h3
    refine ⟨?_, fun h => ?_, fun h hn => ?_⟩
    · refine h1.trans ?_
      rw [k1]
    · rw [h2 h, k2 h]
    · rw [h3 h fun z hz => hn z (List.mem_cons_of_mem x hz), k3 h (hn x List.mem_cons_self)]

/-- The positions that have reached the arbiter (R14). -/
theorem Dev.meltsIn_spec (d : Dev) :
    let e := d.meltsIn
    e = { d with fabric := e.fabric, ply := { d.ply with heads := e.ply.heads } } ∧
    (∀ h : Fin 32, e.ply.heads[h] = { d.ply.heads[h] with melt := e.ply.heads[h].melt }) ∧
    (∀ h : Fin 32, (∀ x ∈ d.fabric, x.src = headB h → x.melt = none) → e.ply.heads[h].melt = d.ply.heads[h].melt) ∧
    ∀ x ∈ e.fabric, x.melt = none := by
  obtain ⟨h1, h2, h3⟩ := Dev.meltTakes d.fabric d
  have he : d.meltsIn = { d.fabric.foldl Dev.meltTake d with fabric := d.fabric.filter fun x => x.melt.isNone } := rfl
  rw [he]
  generalize d.fabric.foldl Dev.meltTake d = e at h1 h2 h3
  refine ⟨?_, h2, h3, fun x hx => by simpa using (List.mem_filter.mp hx).2⟩
  exact congrArg (fun y : Dev => { y with fabric := d.fabric.filter fun x => x.melt.isNone }) h1

/-! The check of the pairs. -/

/-- One ordered pair of heads is checked: `now` tells whether the first stands in the plume of the second. -/
def Dev.plumePair (now : Bool) (p : Fin 32 × Fin 32) (e : Dev) : Dev :=
  let was : Bool := (p.1.val, p.2.val) ∈ e.ply.viol
  if now && !was then
    (((e.plyMod fun q => { q with viol := (p.1.val, p.2.val) :: q.viol }).bump plyB R.PLY_VIOL).put plyB R.PLY_LAST_VIOL
      (wd (p.1.val + p.2.val * 256))).plyEvent 0 |>.raise plyB none 1
  else if was && !now then e.plyMod fun q => { q with viol := q.viol.filter fun x => x ≠ (p.1.val, p.2.val) }
  else e

/-- What pairs checked leave. -/
structure Dev.plumeWork (d e : Dev) : Prop where
  work : d.changes [.regs, .vecs, .fabric, .ply] e
  ply : e.ply = { d.ply with viol := e.ply.viol }
  fabric : (∀ x ∈ d.fabric, x.melt = none) → ∀ x ∈ e.fabric, x.melt = none

theorem Dev.plumeWork.trans {d e f : Dev} (h : d.plumeWork e) (h' : e.plumeWork f) : d.plumeWork f :=
  ⟨h.work.trans h'.work, by rw [h'.ply, h.ply], fun hx => h'.fabric (h.fabric hx)⟩

/-- A fault posts its message to the collector, if any. -/
theorem Dev.detect_fabric (d : Dev) (b : Blk) (c : Option Nat) (kind addr : Nat) (trans inj alsof : Bool) :
    ∀ x ∈ (d.detect b c kind addr trans inj alsof).fabric, x ∈ d.fabric ∨ x.dst = fltc := by
  unfold Dev.detect
  split
  · exact fun x hx => .inl hx
  · extract_lets km own crit was d1 d2
    have h1 : d1.fabric = d.fabric := by simp only [d1]; split <;> rfl
    have h2 : d2.fabric = d.fabric := by
      rw [← h1]
      simp only [d2]
      split
      · exact ((d1.vector_changes 0).trans ((Dev.put_changes _ _ _ _ _ _).mono (by decide)) : d1.changes _ (d1.vector 0).aliveStop).get Dev.fabric
      · rfl
    clear_value d1 d2
    split
    · exact fun x hx => .inl (by rw [← h2]; exact hx)
    · intro x hx
      rcases List.mem_append.mp hx with hx | hx
      · exact .inl (by rw [← h2]; exact hx)
      · exact .inr (by rw [List.mem_singleton.mp hx])

section
variable (e : Dev) (p : Fin 32 × Fin 32)

theorem Dev.plumePair_spec (now : Bool) :
    let f := e.plumePair now p
    e.plumeWork f ∧ ((p.1.val, p.2.val) ∈ f.ply.viol ↔ now = true) ∧
    (∀ q : Fin 32 × Fin 32, q ≠ p → ((q.1.val, q.2.val) ∈ f.ply.viol ↔ (q.1.val, q.2.val) ∈ e.ply.viol)) ∧
    ((now = true → (p.1.val, p.2.val) ∈ e.ply.viol) → f.getN plyB R.PLY_VIOL = e.getN plyB R.PLY_VIOL) := by
  have hother : ∀ q : Fin 32 × Fin 32, q ≠ p → (q.1.val, q.2.val) ≠ (p.1.val, p.2.val) := fun q hq he => hq <| by
    rw [Prod.mk.injEq] at he
    exact Prod.ext (Fin.ext he.1) (Fin.ext he.2)
  unfold Dev.plumePair
  dsimp only
  by_cases hw : (p.1.val, p.2.val) ∈ e.ply.viol
  · rw [decide_eq_true hw]
    cases now
    · refine ⟨⟨Dev.changes.mono (F := [.ply]) rfl (by decide), rfl, id⟩, ?_, fun q hq => ?_, fun _ => rfl⟩
      · simp [Dev.plyMod]
      · have := hother q hq
        simp only [Dev.plyMod, Bool.not_true, Bool.false_and, Bool.true_and, Bool.not_false, if_true]
        simp [this]
    · exact ⟨⟨.refl e _, rfl, id⟩, by simpa using hw, fun _ _ => Iff.rfl, fun _ => rfl⟩
  · rw [decide_eq_false hw]
    cases now
    · exact ⟨⟨.refl e _, rfl, id⟩, by simpa using hw, fun _ _ => Iff.rfl, fun _ => rfl⟩
    · simp only [Bool.not_false, Bool.and_self, if_true]
      set e1 := ((e.plyMod fun q => { q with viol := (p.1.val, p.2.val) :: q.viol }).bump plyB R.PLY_VIOL).put plyB R.PLY_LAST_VIOL
        (wd (p.1.val + p.2.val * 256)) with he1
      have h1 : e.changes [.regs, .vecs, .fabric, .ply] e1 := Dev.changes.mono (F := [.regs, .ply]) rfl (by decide)
      have hply1 : e1.ply = { e.ply with viol := (p.1.val, p.2.val) :: e.ply.viol } := rfl
      have hfab1 : e1.fabric = e.fabric := rfl
      clear_value e1
      have h2 := e1.event_changes plyB R.PLY_EVT R.PLY_EVT_EN (wd (2 ^ 0)) 56 0
      change e1.changes _ (e1.plyEvent 0) at h2
      generalize e1.plyEvent 0 = e2 at h2
      have h3 := e2.detect_changes plyB none 1 0 false false false
      have h4 := e2.detect_fabric plyB none 1 0 false false false
      change e2.changes _ (e2.raise plyB none 1) at h3
      change ∀ x ∈ (e2.raise plyB none 1).fabric, _ at h4
      generalize e2.raise plyB none 1 = e3 at h3 h4
      have hply : e3.ply = { e.ply with viol := (p.1.val, p.2.val) :: e.ply.viol } :=
        ((h3.get Dev.ply).trans (h2.get Dev.ply)).trans hply1
      have hfab2 : e2.fabric = e.fabric := (h2.get Dev.fabric).trans hfab1
      refine ⟨⟨(h1.trans (h2.mono (by decide))).trans (h3.mono (by decide)), by rw [hply], fun hx x hx3 => ?_⟩, ?_, fun q hq => ?_, fun hn => absurd (hn trivial) hw⟩
      · rcases h4 x hx3 with h | h
        · exact hx x (by rw [← hfab2]; exact h)
        · exact Msg.melt_of_body fun hd => absurd (h.symm.trans hd) (by decide)
      · rw [hply]; simp
      · have := hother q hq
        rw [hply]
        simp [this]

end

/-- All pairs, one after the other. -/
theorem Dev.plumePairs_spec (now : Fin 32 × Fin 32 → Bool) (l : List (Fin 32 × Fin 32)) (hl : l.Nodup) (d : Dev) :
    let e := l.foldl (fun e p => e.plumePair (now p) p) d
    d.plumeWork e ∧ (∀ p ∈ l, (p.1.val, p.2.val) ∈ e.ply.viol ↔ now p = true) ∧
    (∀ q, q ∉ l → ((q.1.val, q.2.val) ∈ e.ply.viol ↔ (q.1.val, q.2.val) ∈ d.ply.viol)) ∧
    ((∀ p ∈ l, now p = true → (p.1.val, p.2.val) ∈ d.ply.viol) → e.getN plyB R.PLY_VIOL = d.getN plyB R.PLY_VIOL) := by
  induction l generalizing d with
  | nil => exact ⟨⟨.refl d _, rfl, id⟩, fun _ h => (List.not_mem_nil h).elim, fun _ _ => Iff.rfl, fun _ => rfl⟩
  | cons a l ih =>
    obtain ⟨ha, hl'⟩ := List.nodup_cons.mp hl
    obtain ⟨h1, h2, h3, h4⟩ := d.plumePair_spec a (now a)
    rw [List.foldl_cons]
    generalize d.plumePair (now a) a = x at h1 h2 h3 h4
    obtain ⟨k1, k2, k3, k4⟩ := ih hl' x
    generalize l.foldl (fun e p => e.plumePair (now p) p) x = e at k1 k2 k3 k4
    refine ⟨h1.trans k1, fun p hp => ?_, fun q hq => ?_, fun hn => ?_⟩
    · rcases List.mem_cons.mp hp with rfl | hp
      · exact (k3 p ha).trans h2
      · exact k2 p hp
    · obtain ⟨hqa, hql⟩ := not_or.mp fun h => hq (List.mem_cons.mpr h)
      exact (k3 q hql).trans (h3 q hqa)
    · refine (k4 fun p hp hnp => ?_).trans (h4 (hn a List.mem_cons_self))
      have hne : p ≠ a := fun he => ha (he ▸ hp)
      exact (h3 p hne).mpr (hn p (List.mem_cons_of_mem a hp) hnp)

/-- Does the first head of a pair stand in the plume of the second (R198, R203)? -/
def Dev.plumeNow (d : Dev) (p : Fin 32 × Fin 32) : Bool :=
  match d.meltOf p.1, d.meltOf p.2 with
  | some q, some r =>
    let a := (q.1 - r.1) * d.ply.gx + (q.2 - r.2) * d.ply.gy
    let c := rabs ((q.1 - r.1) * d.ply.gy - (q.2 - r.2) * d.ply.gx)
    p.1 ≠ p.2 && decide (0 ≤ a) && decide (a ≤ d.ply.dist) && decide (c ≤ a * d.ply.tanH)
  | _, _ => false

theorem Dev.plumeNow_iff (d : Dev) (p : Fin 32 × Fin 32) : d.plumeNow p = true ↔ d.inPlume p.1 p.2 := by
  unfold Dev.plumeNow Dev.inPlume Dev.meltOf
  generalize d.heads[p.1].trv.gate = ga
  generalize d.heads[p.2].trv.gate = gb
  generalize d.ply.heads[p.1].melt = ma
  generalize d.ply.heads[p.2].melt = mb
  cases ga
  · simp
  · cases gb
    · simp
    · cases ma with
      | none => simp
      | some q =>
        cases mb with
        | none => simp
        | some r => simp [and_assoc]

theorem exec_meltPoolPosition (s : State) (hlive : s.dev.dead = false) (hup : s.dev.up plyB = true) (hrun : s.dev.running.isSome = true)
    (hex : s.dev.exclOn = true) :
    exec .meltPoolPosition s = .next { s with dev :=
      ((List.finRange 32 ×ˢ List.finRange 32).foldl (fun e p => e.plumePair (s.dev.meltsIn.plumeNow p) p) s.dev.meltsIn) } := by
  obtain ⟨h1, -, -, -⟩ := s.dev.meltsIn_spec
  have hr : s.dev.meltsIn.running = s.dev.running := by rw [h1]
  have hx : s.dev.meltsIn.exclOn = s.dev.exclOn := by rw [h1]; rfl
  change execMeltPoolPosition s = _
  unfold execMeltPoolPosition
  rw [onLive_next _ _ hlive]
  refine congrArg (fun e => Host.Outcome.next { s with dev := e }) ((Dev.when_of _ _ hup).trans ?_)
  dsimp only
  rw [if_neg (not_not_intro (by rw [hr, hx]; exact ⟨hrun, hex⟩))]
  generalize s.dev.meltsIn = d
  have hprod : ∀ (f : Dev → Fin 32 → Fin 32 → Dev) (l k : List (Fin 32)) (e : Dev),
      l.foldl (fun e h => k.foldl (fun e g => f e h g) e) e = (l ×ˢ k).foldl (fun e p => f e p.1 p.2) e := by
    intro f l k
    induction l with
    | nil => exact fun _ => rfl
    | cons a l ih =>
      intro e
      rw [List.foldl_cons, ih, List.product_cons, List.foldl_append, List.foldl_map]
  exact hprod (fun e h g => e.plumePair (d.plumeNow (h, g)) (h, g)) _ _ _

/-- Settles O34: the positions by `meltsIn_spec`, the pairs by `plumePairs_spec`. -/
theorem plumeExcursionsAreWatched : Obligations.PlumeExcursionsAreWatched := by
  intro s hlive hup hrun hex
  refine ⟨_, exec_meltPoolPosition s hlive hup hrun hex, ?_⟩
  obtain ⟨h1, h2, h3, h4⟩ := s.dev.meltsIn_spec
  have hnd : (List.finRange 32 ×ˢ List.finRange 32).Nodup := (List.nodup_finRange 32).product (List.nodup_finRange 32)
  obtain ⟨k1, k2, -, k4⟩ := Dev.plumePairs_spec s.dev.meltsIn.plumeNow _ hnd s.dev.meltsIn
  have hmem : ∀ p : Fin 32 × Fin 32, p ∈ List.finRange 32 ×ˢ List.finRange 32 := fun p =>
    List.mem_product.mpr ⟨List.mem_finRange _, List.mem_finRange _⟩
  have hviol0 : s.dev.meltsIn.ply.viol = s.dev.ply.viol := by rw [h1]
  have hregs0 : s.dev.meltsIn.regs = s.dev.regs := by rw [h1]
  have hnow := s.dev.meltsIn.plumeNow_iff
  generalize s.dev.meltsIn.plumeNow = now at k1 k2 k4 hnow
  generalize s.dev.meltsIn = d at h1 h2 h3 h4 k1 k2 k4 hnow hviol0 hregs0
  generalize (List.finRange 32 ×ˢ List.finRange 32).foldl (fun e p => e.plumePair (now p) p) d = e at k1 k2 k4
  obtain ⟨hwork, hply, hfab⟩ := k1
  have hheads : e.ply.heads = d.ply.heads := by rw [hply]
  refine ⟨?_, fun h => ?_, fun h hn => ?_, fun x hx hd hl a b => ?_, fun h g => ?_, fun hn => ?_⟩
  · have hwk : e = { d with regs := e.regs, vecs := e.vecs, fabric := e.fabric, ply := e.ply } :=
      congrArg (fun x : Dev => { x with regs := e.regs, vecs := e.vecs, fabric := e.fabric, ply := e.ply }) hwork
    have hp : e.ply = { s.dev.ply with viol := e.ply.viol, heads := e.ply.heads } := by
      rw [hheads]
      exact hply.trans (congrArg (fun x : Dev => { x.ply with viol := e.ply.viol, heads := d.ply.heads }) h1)
    rw [← hp]
    exact hwk.trans (congrArg (fun x : Dev => { x with regs := e.regs, vecs := e.vecs, fabric := e.fabric, ply := e.ply }) h1)
  · rw [hheads]
    exact h2 h
  · rw [hheads]
    exact h3 h fun x hx hs => Msg.melt_of_body fun hd hl a b => hn x hx hd hl hs a b
  · exact Msg.melt_none (hfab h4 x hx) hd hl a b
  · exact (k2 (h, g) (hmem _)).trans (hnow (h, g))
  · rw [k4 fun p _ hp => by rw [hviol0]; exact hn p.1 p.2 ((hnow p).mp hp)]
    exact congrArg BitVec.toNat (Dev.get_of_regs _ _ _ _ (by rw [hregs0]))

end Sys2Proof.Machine
end

section
/-! Pipelines: settings, states, calibration and guests (R222 to R228, R244, R247). -/

namespace Sys2Proof.Machine

/-- A block whose own registers take a host's write is in service (R37, R38). -/
theorem Dev.takes_up {d : Dev} {b : Blk} {o : Nat} (h : d.takes b o) (ho : 0x100 ≤ o) (hb : b ≠ blk .boot 0) : d.up b = true := by
  have hw := h.1
  unfold Dev.writable at hw
  simp only [Bool.and_eq_true, decide_eq_true_eq] at hw
  have herr := hw.1.2
  unfold Dev.accErr at herr
  split at herr
  · rw [if_neg (by rintro (h | ⟨-, -, h⟩); exacts [hb h, by omega])] at herr
    cases herr
  · split at herr
    · cases herr
    · split at herr
      · cases herr
      · rw [if_neg (by omega)] at herr
        exact decide_eq_true herr

theorem mpvB_ne_hif (h : Fin 32) : mpvB h ≠ hif := by revert h; decide

theorem mpvB_ne_boot (h : Fin 32) : mpvB h ≠ blk .boot 0 := by revert h; decide

section
variable (d : Dev)

/-- A frame that goes out changes registers of its lane alone (R311, R312). -/
theorem Dev.laneSend_regs (n : Fin 40) (vc : Fin 4) (type : Nat) (data : List Byte) :
    d.regsKept (d.laneSend n vc type data) (onPage (laneB n)) := by
  unfold Dev.laneSend
  extract_lets u spoil d0
  have h0 : d.regsKept d0 (onPage (laneB n)) := by
    simp only [d0]
    split
    · exact d.regsKept_put _ _ _ _ _ (onPage_radr _ _ _ (by decide))
    · exact d.regsKept_refl _
  clear_value d0
  exact (h0.trans fun _ _ => rfl).trans (Dev.regsKept_put _ _ _ _ _ _ (onPage_radr _ _ _ (by decide)))

/-! Commits (R222, R223). -/

variable (h : Fin 32)

theorem mpvStat_ne_setStat : radr (mpvB h) R.MPV_STAT ≠ radr (mpvB h) R.MPV_SET_STAT := radr_ne_of_ofs _ _ _ 0 0 0 0 (by decide)

/-- The SID of the next commit. -/
def Dev.nextSid (d : Dev) (h : Fin 32) : Nat :=
  if d.getF (mpvB h) R.MPV_SET_STAT 7 0 = 255 then 1 else d.getF (mpvB h) R.MPV_SET_STAT 7 0 + 1

theorem Dev.mpvCommit_ok (hw : d.commitCheck h (d.shadowSet h (d.nextSid h)) = 0) :
    let e := d.mpvCommit h
    e = { d with
      regs := e.regs
      mpvs := d.mpvs.set h { d.mpvs[h] with wait := some (d.shadowSet h (d.nextSid h), d.now) } } ∧
    e.get (mpvB h) R.MPV_SET_STAT = wd (d.nextSid h + d.mpvs[h].wait.isSome.toNat * 4096) ∧
    d.regsKept e fun a => a = radr (mpvB h) R.MPV_SET_STAT ∨ a = radr (mpvB h) R.MPV_STAT := by
  unfold Dev.mpvCommit
  dsimp only
  rw [show (if d.getF (mpvB h) R.MPV_SET_STAT 7 0 = 255 then 1 else d.getF (mpvB h) R.MPV_SET_STAT 7 0 + 1) = d.nextSid h from rfl,
    if_neg (not_not_intro hw)]
  generalize wd (d.nextSid h + d.mpvs[h].wait.isSome.toNat * 4096) = w
  refine ⟨rfl, ?_, ?_⟩
  · unfold Dev.setShow
    rw [Dev.get_putF_ne]
    · exact Dev.get_put_same _ _ _ _ _ _
    · exact (mpvStat_ne_setStat h).symm
  · have h0 : d.regsKept (d.mpvMod h fun x => { x with wait := some (d.shadowSet h (d.nextSid h), d.now) })
      fun a => a = radr (mpvB h) R.MPV_SET_STAT ∨ a = radr (mpvB h) R.MPV_STAT := fun _ _ => rfl
    exact (h0.trans (Dev.regsKept_put _ _ _ _ _ _ (.inl rfl))).trans (Dev.regsKept_put _ _ _ _ _ _ (.inr rfl))

theorem Dev.commitCheck_lt (s : CamSet) : d.commitCheck h s < 8 := by
  unfold Dev.commitCheck
  dsimp only
  iterate 5 (split; · decide)
  decide

theorem Dev.mpvCommit_refused (hw : d.commitCheck h (d.shadowSet h (d.nextSid h)) ≠ 0) :
    let e := d.mpvCommit h
    e = { d with regs := e.regs } ∧ e.getB (mpvB h) R.MPV_SET_STAT 8 = true ∧
    e.getF (mpvB h) R.MPV_SET_STAT 11 9 = d.commitCheck h (d.shadowSet h (d.nextSid h)) ∧
    e.getF (mpvB h) R.MPV_SET_STAT 7 0 = d.getF (mpvB h) R.MPV_SET_STAT 7 0 ∧
    d.regsKept e fun a => a = radr (mpvB h) R.MPV_SET_STAT ∨ a = radr (mpvB h) R.MPV_STAT := by
  unfold Dev.mpvCommit
  dsimp only
  rw [show (if d.getF (mpvB h) R.MPV_SET_STAT 7 0 = 255 then 1 else d.getF (mpvB h) R.MPV_SET_STAT 7 0 + 1) = d.nextSid h from rfl,
    if_pos hw]
  have hlt := d.commitCheck_lt h (d.shadowSet h (d.nextSid h))
  generalize d.commitCheck h (d.shadowSet h (d.nextSid h)) = w at hlt
  refine ⟨rfl, ?_, ?_, ?_, ?_⟩
  · rw [Dev.getB_putF_other _ _ _ _ _ _ (by decide) (by decide), Dev.getB_putB_same _ _ _ _ _ _ (by decide)]
  · rw [Dev.getF_putF_same _ _ _ _ _ _ (by decide) (by decide)]
    exact Nat.mod_eq_of_lt hlt
  · rw [Dev.getF_putF_other _ _ _ _ _ _ (by decide) (by decide), Dev.getF_putB_other _ _ _ _ _ _ (by decide) (by decide)]
  · exact (d.regsKept_put _ _ _ _ _ (.inl rfl)).trans (Dev.regsKept_put _ _ _ _ _ _ (.inl rfl))

theorem exec_commit (s : State) (ht : s.dev.takes (mpvB h) 0x134) : exec (.commit h) s = .next { s with dev := (s.dev.mpvCommit h) } := by
  change execCommit h s = _
  unfold execCommit
  rw [onLive_next _ _ (Dev.takes_live _ _ _ ht), Dev.hostWrite_takes _ _ _ _ ht]

/-- SETTINGS at a camera's frame start (R223, R308). -/
theorem exec_settings (s : State) {set : CamSet} {at_ : Nat} (hlive : s.dev.dead = false) (hw : s.dev.mpvs[h].wait = some (set, at_))
    (hup : s.dev.up (mpvB h) = true) (hcam : s.dev.cameraHere h = true) (hf : s.dev.frameTick h = true)
    (hat : at_ * 5 < 4 * (1000 * s.dev.tick + (setAt s.dev.mpvs[h].force s.dev.mpvs[h].sent (s.dev.tick - 1)).phase))
    (hl : s.dev.laneCan (headLane h) 1 32 = true) :
    exec (.settings h) s = .next { s with dev := (((s.dev.mpvMod h fun y => { (y.prune s.dev.tick) with
      wait := none
      sent := (y.prune s.dev.tick).sent ++ [(set, (s.dev.ownView h).later (fld (s.dev.liv (mpvB h) R.MPV_CAM_DLY) 1 0) s.dev.tick)] }).laneSend
      (headLane h) 1 1 (set.bytes s.dev.tick)).setShow h) } := by
  change execSettings h s = _
  unfold execSettings
  rw [onLive_next _ _ hlive]
  dsimp only
  rw [hw]
  have hcond : (s.dev.up (mpvB h) && s.dev.cameraHere h && s.dev.frameTick h &&
      decide (at_ * 5 < 4 * (1000 * s.dev.tick + (setAt s.dev.mpvs[h].force s.dev.mpvs[h].sent (s.dev.tick - 1)).phase)) &&
      s.dev.laneCan (headLane h) 1 32) = true := by
    rw [hup, hcam, hf, hl, decide_eq_true hat]; rfl
  exact congrArg (fun e => Host.Outcome.next { s with dev := e }) (Dev.when_of _ _ hcond)

/-- A pipeline's own state changes, then a SETTINGS frame goes out. -/
theorem Dev.settingsSent (f : Mpv → Mpv) (type : Nat) (data : List Byte) :
    let e := ((d.mpvMod h f).laneSend (headLane h) 1 type data).setShow h
    e = { d with regs := e.regs, lanes := e.lanes, mpvs := d.mpvs.set h (f d.mpvs[h]) } ∧
    (e.lanes[headLane h].sent[(1 : Fin 4)].map fun f => (f.type, f.data)) = some (type, data) ∧
    (∀ n : Fin 40, n ≠ headLane h → e.lanes[n] = d.lanes[n]) ∧
    d.regsKept e fun a => onPage (mpvB h) a ∨ onPage (laneB (headLane h)) a := by
  obtain ⟨h1, h2, h3⟩ := (d.mpvMod h f).laneSend_spec (headLane h) 1 type data
  have h4 := (d.mpvMod h f).laneSend_regs (headLane h) 1 type data
  generalize (d.mpvMod h f).laneSend (headLane h) 1 type data = x at h1 h2 h3 h4
  have h5 : x.changes [.regs, .lanes] (x.setShow h) := Dev.changes.mono (F := [.regs]) rfl (by decide)
  have hlanes : (x.setShow h).lanes = x.lanes := rfl
  refine ⟨?_, by rw [hlanes]; exact h2, fun n hn => by rw [hlanes]; exact h3 n hn, ?_⟩
  · exact congrArg (fun y : Dev => { y with regs := (x.setShow h).regs, lanes := (x.setShow h).lanes }) (h1.trans h5)
  · have h0 : d.regsKept (d.mpvMod h f) fun a => onPage (mpvB h) a ∨ onPage (laneB (headLane h)) a := fun _ _ => rfl
    refine (h0.trans (h4.mono fun _ => .inr)).trans (x.regsKept_put _ _ _ _ _ (.inl (onPage_radr _ _ _ (by decide))))

/-! States (R247). -/

theorem mpvStat_ne_ctl : radr (mpvB h) R.MPV_STAT ≠ radr (mpvB h) R.MPV_CTL := radr_ne_of_ofs _ _ _ 0 0 0 0 (by decide)

/-- MPV_CTL holds what is written of its bits. -/
theorem Dev.mpvCtl_word (v : Word) : R.MPV_CTL.write (d.get (mpvB h) R.MPV_CTL) v = v &&& 0x1FF#32 := rfl

/-- What a pipeline's states rest on stands outside its MPV_CTL. -/
theorem Dev.mpvCtl_rest (v : Word) :
    let e := d.put (mpvB h) R.MPV_CTL (v &&& 0x1FF#32)
    e.up (mpvB h) = d.up (mpvB h) ∧ e.cameraHere h = d.cameraHere h ∧ e.laneUp (headLane h) = d.laneUp (headLane h) ∧ e.mpvSt h = d.mpvSt h ∧
    e.getB (mpvB h) R.MPV_CTL 0 = bit v 0 := by
  have hl : ∀ (r : Reg) (i : Nat), r.ofs i 0 < 0x1000 → radr (laneB (headLane h)) r i ≠ radr (mpvB h) R.MPV_CTL := fun r i hr =>
    radr_ne_of_blk _ _ _ _ _ _ _ _ (by revert h; decide) hr (by decide)
  refine ⟨?_, ?_, ?_, d.getF_put_ne _ _ _ (mpvStat_ne_ctl h), ?_⟩
  · exact Dev.up_of_regs (spGet_spPut_ne _ _ (radr_ne_of_ofs _ _ _ 0 0 0 0 (by decide)))
  · have h1 : ∀ i, i < 5 → (d.put (mpvB h) R.MPV_CTL (v &&& 0x1FF#32)).desc (headLane h) i = d.desc (headLane h) i := fun i hi =>
      Dev.get_put_ne _ _ _ _ _ _ _ _ _ _ (hl _ _ (by change 0x160 + 4 * i + 0 * 0 < 0x1000; omega))
    have h2 : (d.put (mpvB h) R.MPV_CTL (v &&& 0x1FF#32)).present (headLane h) = d.present (headLane h) :=
      d.getB_put_ne _ _ (hl _ 0 (by decide))
    simp only [Dev.cameraHere, Dev.headHere, h1 3 (by decide), h2]
  · exact congrArg (fun w : Word => decide (fld w _ _ = 4)) (Dev.get_put_ne _ _ _ _ _ _ _ _ _ _ (hl _ 0 (by decide)))
  · refine (congrArg (bit · 0) (Dev.get_put_same _ _ _ _ _ _)).trans ?_
    rw [bit, BitVec.getLsbD_and]
    exact Bool.and_true _

/-- A pipeline enabled with its camera there runs (R247 step 1). -/
theorem Dev.mpvCtl_on (v : Word) (hv : bit v 0 = true) (hst : d.mpvSt h = 0) (hcam : d.cameraHere h = true)
    (hl : d.laneUp (headLane h) = true) (hup : d.up (mpvB h) = true) :
    let e := d.mpvCtl h v
    e = { d with regs := e.regs } ∧ e.mpvSt h = 1 ∧ e.getB (mpvB h) R.MPV_CTL 0 = true ∧
    d.regsKept e fun a => a = radr (mpvB h) R.MPV_CTL ∨ a = radr (mpvB h) R.MPV_STAT := by
  obtain ⟨h1, h2, h3, h4, h5⟩ := d.mpvCtl_rest h v
  have hk := d.regsKept_put (mpvB h) R.MPV_CTL (v &&& 0x1FF#32) 0 0
    (p := fun a => a = radr (mpvB h) R.MPV_CTL ∨ a = radr (mpvB h) R.MPV_STAT) (.inl rfl)
  have hframe : d.put (mpvB h) R.MPV_CTL (v &&& 0x1FF#32) = { d with regs := (d.put (mpvB h) R.MPV_CTL (v &&& 0x1FF#32)).regs } := rfl
  unfold Dev.mpvCtl
  rw [Dev.mpvCtl_word]
  generalize d.put (mpvB h) R.MPV_CTL (v &&& 0x1FF#32) = x at h1 h2 h3 h4 h5 hk hframe
  have hwith : ∀ w, ({ x with regs := w } : Dev) = { d with regs := w } := fun w => congrArg (fun y : Dev => { y with regs := w }) hframe
  unfold Dev.mpvEval
  dsimp only
  rw [h1, h2, h3, h4, h5, hup, hst, hcam, hl, hv, if_neg (by decide), if_pos (by decide)]
  unfold Dev.mpvTo
  refine ⟨?_, ?_, ?_, ?_⟩
  · exact hwith _
  · exact Dev.getF_putF_same _ _ _ _ _ _ (by decide) (by decide)
  · rw [Dev.getB_putF_ne, Dev.getB_putB_ne, h5, hv]
    · exact (mpvStat_ne_ctl h).symm
    · exact (mpvStat_ne_ctl h).symm
  · exact (hk.trans (Dev.regsKept_put _ _ _ _ _ _ (.inr rfl))).trans (Dev.regsKept_put _ _ _ _ _ _ (.inr rfl))

/-- A pipeline disabled rests, its guest binding ended (R247 step 6). -/
theorem Dev.mpvCtl_off (v : Word) (hv : bit v 0 = false) (hst : d.mpvSt h = 1 ∨ d.mpvSt h = 2) (hup : d.up (mpvB h) = true) :
    let e := d.mpvCtl h v
    e = { d with regs := e.regs, mpvs := d.mpvs.set h { d.mpvs[h] with guest := none, was := none } } ∧ e.mpvSt h = 0 := by
  obtain ⟨h1, h2, h3, h4, h5⟩ := d.mpvCtl_rest h v
  have hframe : d.put (mpvB h) R.MPV_CTL (v &&& 0x1FF#32) = { d with regs := (d.put (mpvB h) R.MPV_CTL (v &&& 0x1FF#32)).regs } := rfl
  unfold Dev.mpvCtl
  rw [Dev.mpvCtl_word]
  generalize d.put (mpvB h) R.MPV_CTL (v &&& 0x1FF#32) = x at h1 h2 h3 h4 h5 hframe
  unfold Dev.mpvEval
  dsimp only
  rw [h1, h4, h5, hup, hv, if_neg (by decide), if_neg (by simp), if_pos (by simp [hst])]
  refine ⟨?_, Dev.getF_putF_same _ _ _ _ _ _ (by decide) (by decide)⟩
  have hwith : ∀ w v, ({ x with regs := w, mpvs := v } : Dev) = { d with regs := w, mpvs := v } := fun w v =>
    congrArg (fun y : Dev => { y with regs := w, mpvs := v }) hframe
  have hm : x.mpvs = d.mpvs := by rw [hframe]
  rw [← hm]
  exact hwith _ _

theorem exec_mpvEnable (s : State) (v : Word) (ht : s.dev.takes (mpvB h) 0x100) :
    exec (.mpvEnable h v) s = .next { s with dev := (s.dev.mpvCtl h v) } := by
  change execMpvEnable h v s = _
  unfold execMpvEnable
  rw [onLive_next _ _ (Dev.takes_live _ _ _ ht), Dev.hostWrite_takes _ _ _ _ ht]

end

end Sys2Proof.Machine
end

section
/-! Calibration and guests of the pipelines (R227, R228, R244 to R246). -/

namespace Sys2Proof.Machine

section
variable (d : Dev) (h : Fin 32)

/-- An event of a pipeline, on the vector of a camera's head (R249). -/
theorem Dev.mpvEvent_spec (cam : Fin 32) {k : Nat} (hk : k < 32) :
    let e := d.mpvEvent h cam k
    e = { d with regs := e.regs, vecs := e.vecs } ∧ e.getB (mpvB h) R.MPV_EVT k = true ∧
    ∀ (r : Reg), r.ofs 0 0 < 0x1000 → r.ofs 0 0 ≠ 0x1C8 → e.get (mpvB h) r = d.get (mpvB h) r := by
  unfold Dev.mpvEvent
  have hv : 16 + cam.val < 64 := by omega
  refine ⟨Dev.event_frame _ _ _ _ _ _ _, ?_, fun r hr hne => ?_⟩
  · refine (congrArg (bit · k) (Dev.event_get (hv := hv) (hb := mpvB_ne_hif h) (ho := by decide) ..)).trans ?_
    exact bit_or_pow _ hk
  · exact Dev.event_get_ne _ (mpvB_ne_hif h) hr _ _ hv (radr_ne_of_ofs _ _ _ _ _ _ _ hne)

/-- Registers of a block whose operation is done (R49, R51). -/
theorem Dev.opDone_get (b c : Blk) (r : Reg) (i j : Nat) :
    (d.opDone b).get c r i j = (d.put b R.OP_STAT (opWord 3 4095 0 (d.opTag b))).get c r i j := by
  unfold Dev.opDone
  exact Dev.get_withOps _ _ _ _ _ _

/-- A pending calibration comes into force (R228). -/
theorem Dev.calPromote_some {c : Cal} (hp : d.mpvs[h].calPend = some c) (hf : d.fenced (mpvB h) = false) :
    let e := d.calPromote h
    e = { d with regs := e.regs, vecs := e.vecs, mpvs := vmod d.mpvs h fun x => { x with cal := some c, calPend := none } } ∧
    e.get (mpvB h) R.OP_STAT = d.get (mpvB h) R.OP_STAT ∧ e.getB (mpvB h) R.MPV_STAT 3 = true ∧
    e.getB (mpvB h) R.MPV_STAT 4 = false ∧ e.getB (mpvB h) R.MPV_EVT 5 = true := by
  have hstat : ∀ (x : Dev) (k : Nat) (v : Bool), (x.putB (mpvB h) R.MPV_STAT k v).get (mpvB h) R.OP_STAT = x.get (mpvB h) R.OP_STAT :=
    fun x k v => Dev.get_putB_ne _ _ _ (radr_ne_of_ofs _ _ _ 0 0 0 0 (by decide))
  set d1 := d.mpvMod h fun x => { x with cal := some c, calPend := none } with hd1
  have he : d.calPromote h = ((d1.putB (mpvB h) R.MPV_STAT 3 true).putB (mpvB h) R.MPV_STAT 4 false).mpvEvent h h 5 := by
    unfold Dev.calPromote
    rw [hp]
    exact if_neg (by rw [hf]; decide)
  have h1 : d1.get (mpvB h) R.OP_STAT = d.get (mpvB h) R.OP_STAT := rfl
  have hframe : d1 = { d with mpvs := vmod d.mpvs h fun x => { x with cal := some c, calPend := none } } := rfl
  rw [he]
  clear_value d1
  have h2 := (hstat (d1.putB (mpvB h) R.MPV_STAT 3 true) 4 false).trans ((hstat d1 3 true).trans h1)
  have h3 : ((d1.putB (mpvB h) R.MPV_STAT 3 true).putB (mpvB h) R.MPV_STAT 4 false).getB (mpvB h) R.MPV_STAT 3 = true := by
    rw [Dev.getB_putB_other _ _ _ _ _ _ (by decide) (by decide), Dev.getB_putB_same _ _ _ _ _ _ (by decide)]
  have h4 : ((d1.putB (mpvB h) R.MPV_STAT 3 true).putB (mpvB h) R.MPV_STAT 4 false).getB (mpvB h) R.MPV_STAT 4 = false :=
    Dev.getB_putB_same _ _ _ _ _ _ (by decide)
  have h5 : (d1.putB (mpvB h) R.MPV_STAT 3 true).putB (mpvB h) R.MPV_STAT 4 false =
      { d1 with regs := ((d1.putB (mpvB h) R.MPV_STAT 3 true).putB (mpvB h) R.MPV_STAT 4 false).regs } := rfl
  generalize (d1.putB (mpvB h) R.MPV_STAT 3 true).putB (mpvB h) R.MPV_STAT 4 false = d2 at h2 h3 h4 h5
  obtain ⟨k1, k2, k3⟩ := d2.mpvEvent_spec h h (k := 5) (by decide)
  generalize d2.mpvEvent h h 5 = f at k1 k2 k3
  refine ⟨?_, (k3 _ (by decide) (by decide)).trans h2, (congrArg (bit · 3) (k3 R.MPV_STAT (by decide) (by decide))).trans h3,
    (congrArg (bit · 4) (k3 R.MPV_STAT (by decide) (by decide))).trans h4, k2⟩
  refine (k1.trans (congrArg (fun y : Dev => { y with regs := f.regs, vecs := f.vecs }) h5)).trans ?_
  exact congrArg (fun y : Dev => { y with regs := f.regs, vecs := f.vecs }) hframe

/-- A calibration loaded outside a layer is in force at once (R227, R228). -/
theorem Dev.calTaken_spec (c : Cal) (hf : d.fenced (mpvB h) = false) :
    let e := (((d.mpvMod h fun x => { x with calPend := some c }).putB (mpvB h) R.MPV_STAT 4 true).opDone (mpvB h)).calPromote h
    e = { d with
      regs := e.regs, vecs := e.vecs, ops := e.ops
      mpvs := d.mpvs.set h { d.mpvs[h] with cal := some c, calPend := none } } ∧
    e.ops = d.ops.map (fun o => if o.blk = mpvB h then { o with doneAt := some d.now, abortAt := none } else o) ∧
    e.get (mpvB h) R.OP_STAT = opWord 3 4095 0 (d.opTag (mpvB h)) ∧ e.getB (mpvB h) R.MPV_STAT 3 = true ∧
    e.getB (mpvB h) R.MPV_STAT 4 = false ∧ e.getB (mpvB h) R.MPV_EVT 5 = true := by
  obtain ⟨l, hl⟩ : ∃ l, l = d.ops.map (fun o => if o.blk = mpvB h then { o with doneAt := some d.now, abortAt := none } else o) := ⟨_, rfl⟩
  obtain ⟨v, hv⟩ : ∃ v, v = vmod d.mpvs h fun x => { x with calPend := some c } := ⟨_, rfl⟩
  set d0 := (d.mpvMod h fun x => { x with calPend := some c }).putB (mpvB h) R.MPV_STAT 4 true with hd0
  have hframe0 : d0 = { d with regs := d0.regs, mpvs := v } := by rw [hv]; rfl
  have hget0 : ∀ r : Reg, r.ofs 0 0 ≠ 0x104 → d0.get (mpvB h) r = d.get (mpvB h) r := fun r h2 =>
    Dev.get_put_ne _ _ _ _ _ _ _ _ _ _ (radr_ne_of_ofs _ _ _ 0 0 0 0 h2)
  clear_value d0
  have hops1 : (d0.opDone (mpvB h)).ops = d0.ops.map (fun o => if o.blk = mpvB h then
      { o with doneAt := some d0.now, abortAt := none } else o) := rfl
  have hframe1 : d0.opDone (mpvB h) = { d0 with regs := (d0.opDone (mpvB h)).regs, ops := (d0.opDone (mpvB h)).ops } :=
    congrArg (fun x : Dev => { x with regs := (d0.opDone (mpvB h)).regs, ops := (d0.opDone (mpvB h)).ops }) (d0.opDone_changes (mpvB h))
  have hop : (d0.opDone (mpvB h)).get (mpvB h) R.OP_STAT = opWord 3 4095 0 (d.opTag (mpvB h)) :=
    (d0.opDone_get _ _ _ _ _).trans ((Dev.get_put_same _ _ _ _ _ _).trans (congrArg (fun w : Word => opWord 3 4095 0 (fld w 7 0)) (hget0 R.OP_STAT (by decide))))
  have hget : ∀ r : Reg, r.ofs 0 0 ≠ 0x24 → r.ofs 0 0 ≠ 0x104 → (d0.opDone (mpvB h)).get (mpvB h) r = d.get (mpvB h) r := fun r h1 h2 =>
    (d0.opDone_get _ _ _ _ _).trans ((Dev.get_put_ne _ _ _ _ _ _ _ _ _ _ (radr_ne_of_ofs _ _ _ 0 0 0 0 h1)).trans (hget0 r h2))
  generalize d0.opDone (mpvB h) = d1 at hops1 hframe1 hop hget
  have ho0 : d0.ops = d.ops := by rw [hframe0]
  have hn0 : d0.now = d.now := by rw [hframe0]
  rw [ho0, hn0, ← hl] at hops1
  have hframe : d1 = { d with regs := d1.regs, ops := l, mpvs := v } := by
    rw [hops1] at hframe1
    exact hframe1.trans (congrArg (fun y : Dev => { y with regs := d1.regs, ops := l }) hframe0)
  have hpend : d1.mpvs[h].calPend = some c := by rw [hframe, hv]; exact congrArg Mpv.calPend (vmod_same _ _ _)
  have hfence : d1.fenced (mpvB h) = false := by
    rw [← hf]
    simp only [Dev.fenced, Dev.fence, Dev.getF, hget R.BLK_CTL (by decide) (by decide)]
    rfl
  obtain ⟨k1, k2, k3, k4, k5⟩ := d1.calPromote_some h hpend hfence
  generalize d1.calPromote h = e at k1 k2 k3 k4 k5
  have hops : e.ops = l := by rw [k1, hframe]
  refine ⟨?_, hops.trans hl, k2.trans hop, k3, k4, k5⟩
  have hm : d.mpvs.set h { d.mpvs[h] with cal := some c, calPend := none } =
      vmod d1.mpvs h fun x => { x with cal := some c, calPend := none } := by
    rw [hframe]
    dsimp only
    rw [hv, vmod_vmod]
  rw [hm, hops]
  exact k1.trans (congrArg (fun y : Dev => { y with
    regs := e.regs, vecs := e.vecs, mpvs := vmod d1.mpvs h fun x => { x with cal := some c, calPend := none } }) hframe)

/-- A command with memory whose outcome is known. -/
theorem onLiveMem_eq {f : Mem → Dev → Mem × Dev} {s : State} {x : Mem × Dev} (hlive : s.dev.dead = false) (hf : f s.mem s.dev = x) :
    onLiveMem f s = .next { s with mem := x.1, dev := x.2 } := by
  rw [onLiveMem_next _ _ hlive, hf]

/-- What CAL_LOAD_DONE makes of an image read (R227). -/
theorem exec_calLoadDone (s : State) {bs : List Byte} (hlive : s.dev.dead = false) (hrun : s.dev.opRunning (mpvB h) 1 = true)
    (hr : s.dev.sdRead s.mem (s.dev.addr2 (mpvB h) R.MPV_CAL_ADDR_LO R.MPV_CAL_ADDR_HI) 5376 = .ok bs) (hl : s.dev.running = none) :
    exec (.calLoadDone h) s = .next { s with dev := (match calOf bs with
      | some c => (((s.dev.mpvMod h fun x => { x with calPend := some c }).putB (mpvB h) R.MPV_STAT 4 true).opDone (mpvB h)).calPromote h
      | none => s.dev.opFail (mpvB h) 0x80) } := by
  have hc : ¬¬s.dev.opRunning (mpvB h) 1 = true := by rw [hrun]; decide
  generalize hX : (match calOf bs with
      | some c => (((s.dev.mpvMod h fun x => { x with calPend := some c }).putB (mpvB h) R.MPV_STAT 4 true).opDone (mpvB h)).calPromote h
      | none => s.dev.opFail (mpvB h) 0x80) = X
  change execCalLoadDone h s = _
  unfold execCalLoadDone
  refine onLiveMem_eq (x := (s.mem, X)) hlive ?_
  refine (if_neg hc).trans ?_
  rw [hr]
  dsimp only
  rw [← hX]
  have hr : ∀ (x : Dev) (b : Blk), (x.opDone b).running = x.running := fun _ _ => rfl
  have hp : ∀ (x : Dev) (b : Blk) (r : Reg) (k : Nat) (v : Bool), (x.putB b r k v).running = x.running := fun _ _ _ _ _ => rfl
  have hm : ∀ (x : Dev) (f : Mpv → Mpv), (x.mpvMod h f).running = x.running := fun _ _ => rfl
  cases calOf bs with
  | none => rfl
  | some c =>
    have hnone : ¬(((s.dev.mpvMod h fun x => { x with calPend := some c }).putB (mpvB h) R.MPV_STAT 4 true).opDone (mpvB h)).running.isSome = true := by
      rw [hr, hp, hm, hl]
      decide
    exact congrArg (Prod.mk s.mem) (if_neg hnone)

/-! Guests (R244). -/

/-- A pipeline changes its state and tells it (R249). -/
theorem Dev.guestShown (x : Dev) (st : Nat) (g : Fin 32) {k : Nat} (hk : k < 32) (hs : st < 8) :
    let e := (x.mpvTo h st).mpvEvent h g k
    e = { x with regs := e.regs, vecs := e.vecs } ∧ e.mpvSt h = st ∧ e.getB (mpvB h) R.MPV_EVT k = true := by
  have h1 : (x.mpvTo h st).mpvSt h = st := by
    refine (Dev.getF_putF_same _ _ _ _ _ _ (by decide) (by decide)).trans (Nat.mod_eq_of_lt hs)
  have hframe : x.mpvTo h st = { x with regs := (x.mpvTo h st).regs } := rfl
  generalize x.mpvTo h st = y at h1 hframe
  obtain ⟨k1, k2, k3⟩ := y.mpvEvent_spec h g hk
  generalize y.mpvEvent h g k = e at k1 k2 k3
  refine ⟨?_, (congrArg (fld · 2 0) (k3 R.MPV_STAT (by decide) (by decide))).trans h1, k2⟩
  exact k1.trans (congrArg (fun z : Dev => { z with regs := e.regs, vecs := e.vecs }) hframe)

theorem exec_guestStart (s : State) (hlive : s.dev.dead = false) (hm : s.dev.mayGuest h = true) (hst : s.dev.mpvSt h = 1)
    (hfirst : ∀ p : Fin 32, p < h → p.val / 4 = h.val / 4 →
      ¬ (s.dev.guestHead p = s.dev.guestHead h ∧ s.dev.mayGuest p = true ∧ (s.dev.mpvSt p = 1 ∨ s.dev.mpvSt p = 2)))
    (hhost : s.dev.hostOf (s.dev.guestHead h) = none) (hf : s.dev.frameTick (s.dev.guestHead h) = true) :
    exec (.guestStart h) s = .next { s with dev := (((s.dev.mpvMod h fun x => { x with
      guest := some (Fin.ofNat 4 (s.dev.guestHead h).val, s.dev.tick) }).mpvTo h 2).mpvEvent h (s.dev.guestHead h) 3) } := by
  change execGuestStart h s = _
  unfold execGuestStart
  rw [onLive_next _ _ hlive]
  refine congrArg (fun e => Host.Outcome.next { s with dev := e }) (Dev.when_of _ _ ?_)
  rw [hm, hst, hhost, hf]
  simp only [decide_true, Bool.true_and, Bool.and_true, Option.isNone_none, List.all_eq_true]
  intro i hi
  have hi4 := List.mem_range.mp hi
  have hlt : h.val / 4 * 4 + i < 32 := by omega
  by_cases hp : Fin.ofNat 32 (h.val / 4 * 4 + i) < h
  · have := hfirst _ hp (by simp only [Fin.val_ofNat, Nat.mod_eq_of_lt hlt]; omega)
    generalize Fin.ofNat 32 (h.val / 4 * 4 + i) = p at this hp
    simp only [decide_eq_true hp]
    simp only [Bool.not_eq_true', Bool.and_eq_false_imp, Bool.true_and]
    by_cases h1 : s.dev.guestHead p = s.dev.guestHead h
    · simpa [h1] using fun h2 => not_or.mp fun h3 => this ⟨h1, h2, h3⟩
    · simp [h1]
  · simp only [decide_eq_false hp, Bool.false_and, Bool.not_false]

theorem exec_guestEnd (s : State) {i : Fin 4} {t : Nat} (hlive : s.dev.dead = false) (hg : s.dev.mpvs[h].guest = some (i, t))
    (hst : s.dev.mpvSt h = 2) (hfence : s.dev.fence (mpvB (Fin.ofNat 32 (h.val / 4 * 4 + i.val))) = 0)
    (hf : s.dev.frameTick (Fin.ofNat 32 (h.val / 4 * 4 + i.val)) = true) :
    exec (.guestEnd h) s = .next { s with dev := (((s.dev.mpvOut h 1).mpvMod h fun x => { x with
      was := some (i, t, s.dev.tick) }).mpvEvent h (Fin.ofNat 32 (h.val / 4 * 4 + i.val)) 4) } := by
  change execGuestEnd h s = _
  unfold execGuestEnd
  rw [onLive_next _ _ hlive]
  dsimp only
  rw [hg]
  refine congrArg (fun e => Host.Outcome.next { s with dev := e }) (Dev.when_of _ _ ?_)
  rw [hst, hfence, hf]
  rfl

end

/-- Settles O35: settings by `mpvCommit_ok` and `settingsSent`, states by `mpvCtl_on` and `mpvCtl_off`, calibration by `calTaken_spec`,
guests by `guestShown`. -/
theorem pipelinesAreSetUpAndHosted : Obligations.PipelinesAreSetUpAndHosted := by
  refine ⟨⟨fun s h ht => ?_, fun s h set at_ hlive hw hup hcam hf hat hl => ?_⟩, fun s h v ht hv hst hcam hl => ?_,
    fun s h v ht hv hst => ?_, fun s h bs hlive hrun hr hl hf => ?_, fun s h hlive hm hst hfirst hhost hf => ?_,
    fun s h i t hlive hg hst hfence hf => ?_⟩
  · intro last sid why
    refine ⟨_, exec_commit h s ht, ?_⟩
    by_cases hw : why = 0
    · obtain ⟨h1, h2, h3⟩ := s.dev.mpvCommit_ok h hw
      rw [if_pos hw]
      exact ⟨h3, h1, h2⟩
    · obtain ⟨h1, h2, h3, h4, h5⟩ := s.dev.mpvCommit_refused h hw
      rw [if_neg hw]
      exact ⟨h5, h1, h2, h3, h4⟩
  · exact ⟨_, exec_settings h s hlive hw hup hcam hf hat hl, s.dev.settingsSent h _ 1 _⟩
  · exact ⟨_, exec_mpvEnable h s v ht, s.dev.mpvCtl_on h v hv hst hcam hl (Dev.takes_up ht (by decide) (mpvB_ne_boot h))⟩
  · exact ⟨_, exec_mpvEnable h s v ht, s.dev.mpvCtl_off h v hv hst (Dev.takes_up ht (by decide) (mpvB_ne_boot h))⟩
  · refine ⟨_, exec_calLoadDone h s hlive hrun hr hl, ?_⟩
    cases calOf bs with
    | some c => exact s.dev.calTaken_spec h c hf
    | none =>
      refine ⟨rfl, ?_, ?_, s.dev.regsKept_put _ _ _ _ _ rfl⟩
      · exact (congrArg (fld · 31 28) (s.dev.opSet_word _ _ _)).trans (opWord_state _ _ _ _)
      · exact (congrArg (fld · 15 8) (s.dev.opSet_word _ _ _)).trans (opWord_err _ _ _ _)
  · refine ⟨_, exec_guestStart h s hlive hm hst hfirst hhost hf, ?_⟩
    exact Dev.guestShown h (s.dev.mpvMod h _) 2 (s.dev.guestHead h) (k := 3) (by decide) (by decide)
  · refine ⟨_, exec_guestEnd h s hlive hg hst hfence hf, ?_⟩
    have hm : ((s.dev.mpvOut h 1).mpvMod h fun x => { x with was := some (i, t, s.dev.tick) }) =
        (s.dev.mpvMod h fun x => { x with guest := none, was := some (i, t, s.dev.tick) }).mpvTo h 1 :=
      congrArg (fun v => ({ s.dev with regs := (s.dev.mpvTo h 1).regs, mpvs := v } : Dev)) (vmod_vmod s.dev.mpvs h
        (fun x => { x with guest := none, was := none }) fun x => { x with was := some (i, t, s.dev.tick) })
    rw [hm]
    exact Dev.guestShown h (s.dev.mpvMod h _) 1 _ (k := 4) (by decide) (by decide)

end Sys2Proof.Machine
end

section
/-! Ticks of the lattice and the recoat step (R253, R256 to R261). -/

namespace Sys2Proof.Machine

theorem latB_ne_hif : latB ≠ hif := by decide

theorem latB_ne_fltc : latB ≠ fltc := by decide

/-! Tiles in a list. -/

section
variable {α : Type}

theorem spGet_mem {l : List (Nat × α)} {a : Nat} {x : α} (h : spGet l a = some x) : (a, x) ∈ l := by
  induction l with
  | nil => cases h
  | cons y l ih =>
    obtain ⟨k, v⟩ := y
    by_cases hk : k = a
    · rw [spGet, if_pos hk] at h
      cases h
      rw [hk]
      exact List.mem_cons_self
    · rw [spGet, if_neg hk] at h
      exact List.mem_cons_of_mem _ (ih h)

theorem spGet_none {l : List (Nat × α)} {a : Nat} (h : a ∉ l.map (·.1)) : spGet l a = none := by
  cases hx : spGet l a with
  | none => rfl
  | some x => exact absurd (List.mem_map_of_mem (spGet_mem hx)) h

/-- Every entry of a list mapped. -/
theorem spGet_map (f : α → α) (l : List (Nat × α)) (a : Nat) : spGet (l.map fun x => (x.1, f x.2)) a = (spGet l a).map f := by
  induction l with
  | nil => rfl
  | cons y l ih =>
    obtain ⟨k, v⟩ := y
    rw [List.map_cons]
    by_cases hk : k = a
    · simp only [spGet, if_pos hk, Option.map_some]
    · simp only [spGet, if_neg hk]
      exact ih

/-- Entries computed for some keys, those of a default value left out. -/
theorem spGet_computed [DecidableEq α] (l : List Nat) (f : Nat → α) (base : α) {a : Nat} (ha : a ∈ l) :
    (spGet ((l.map fun i => (i, f i)).filter fun x => x.2 ≠ base) a).getD base = f a := by
  induction l with
  | nil => exact (List.not_mem_nil ha).elim
  | cons k l ih =>
    rw [List.map_cons, List.filter_cons]
    by_cases hk : k = a
    · subst hk
      by_cases hb : f k = base
      · rw [if_neg (by simpa using hb)]
        by_cases hl : k ∈ l
        · exact ih hl
        · rw [spGet_none fun hm => hl ?_]
          · exact hb.symm
          · obtain ⟨x, hx, hxk⟩ := List.mem_map.mp hm
            obtain ⟨i, hi, rfl⟩ := List.mem_map.mp (List.mem_filter.mp hx).1
            exact hxk ▸ hi
      · rw [if_pos (by simpa using hb), spGet, if_pos rfl]
        rfl
    · have hal : a ∈ l := (List.mem_cons.mp ha).resolve_left (Ne.symm hk)
      split
      · rw [spGet, if_neg hk]
        exact ih hal
      · exact ih hal

end

/-! Neighbours (R256). -/

theorem neighbours_symm {i q : Nat} (hi : i < 262144) (h : q ∈ neighbours i) : i ∈ neighbours q := by
  simp only [neighbours, List.mem_append, List.mem_ite_nil_left, List.mem_singleton] at h ⊢
  omega

section
variable (d : Dev)

/-- A tile whose neighbours stand as warm as it does exchanges nothing with them. -/
theorem Dev.diffuse_level (t : Tile) (dep : Nat) (own : Rat × Nat) (nbs : List (Rat × Nat)) (dt : Nat) (h : ∀ q ∈ nbs, q.1 = own.1) :
    d.diffuse t dep own nbs dt = d.diffuse t dep own [] dt := by
  have hz : ∀ l : List (Rat × Nat), (∀ q ∈ l, q.1 = own.1) → ∀ s : Rat,
      l.foldl (fun (s : Rat) q => s + ((d.latCoef own.2).1 + (d.latCoef q.2).1) / 2 * (q.1 - own.1)) s = s := by
    intro l
    induction l with
    | nil => exact fun _ _ => rfl
    | cons q l ih =>
      intro hl s
      rw [List.foldl_cons, hl q List.mem_cons_self, sub_self, mul_zero, add_zero]
      exact ih (fun q hq => hl q (List.mem_cons_of_mem _ hq)) s
  unfold Dev.diffuse
  dsimp only
  rw [hz nbs h]
  rfl

theorem depsOf_none {l : List Dep} {i : Nat} (h : i ∉ l.map (·.tile)) : depsOf l i = (0, none) := by
  have hf : l.filter (fun x => x.tile = i) = [] := List.filter_eq_nil_iff.mpr fun x hx he =>
    h (List.mem_map.mpr ⟨x, hx, of_decide_eq_true he⟩)
  unfold depsOf
  rw [hf]
  rfl

/-- The tiles that a tick computes one by one. -/
def Dev.latKeys (d : Dev) : List Nat :=
  let keys := (d.lat.tiles.map (·.1)) ++ (d.lat.deps.filter fun x => x.k < d.now).map (·.tile)
  (keys ++ keys.flatMap neighbours).mergeSort.eraseDups

/-- A tile after a tick (R256). -/
def Dev.latNew (d : Dev) (i : Nat) : Tile :=
  let due := d.lat.deps.filter fun x => x.k < d.now
  let hot (i : Nat) : Rat × Nat := d.heated (d.lat.tile i) (depsOf due i)
  d.diffuse (d.lat.tile i) (depsOf due i).1 (hot i) ((neighbours i).map hot) ((d.now - d.lat.sweptAt) * 5 / 4)

/-- The tile that stands for all that are not listed. -/
def Dev.latBase (d : Dev) : Tile :=
  d.diffuse d.lat.base 0 (d.heated d.lat.base (0, none)) [] ((d.now - d.lat.sweptAt) * 5 / 4)

theorem Dev.mem_latKeys {i : Nat} : i ∈ d.latKeys ↔
    (i ∈ d.lat.tiles.map (·.1) ∨ i ∈ (d.lat.deps.filter fun x => x.k < d.now).map (·.tile)) ∨
    ∃ q, (q ∈ d.lat.tiles.map (·.1) ∨ q ∈ (d.lat.deps.filter fun x => x.k < d.now).map (·.tile)) ∧ i ∈ neighbours q := by
  unfold Dev.latKeys
  simp only [List.mem_eraseDups, List.mem_mergeSort, List.mem_append, List.mem_flatMap]

/-- A tile that is not computed, and whose neighbours are neither, stands for itself as the base does. -/
theorem Dev.latNew_other {i : Nat} (hi : i < 262144) (h : i ∉ d.latKeys) : d.latNew i = d.latBase := by
  have hkey : ∀ q, q ∉ d.lat.tiles.map (·.1) ∧ q ∉ (d.lat.deps.filter fun x => x.k < d.now).map (·.tile) →
      d.lat.tile q = d.lat.base ∧ depsOf (d.lat.deps.filter fun x => x.k < d.now) q = (0, none) := fun q hq =>
    ⟨by rw [Lat.tile, spGet_none hq.1]; rfl, depsOf_none hq.2⟩
  rw [d.mem_latKeys, not_or, not_or] at h
  obtain ⟨h1, h2⟩ := hkey i h.1
  have hn : ∀ q ∈ neighbours i, d.lat.tile q = d.lat.base ∧ depsOf (d.lat.deps.filter fun x => x.k < d.now) q = (0, none) := fun q hq =>
    hkey q (not_or.mp fun hk => h.2 ⟨q, hk, neighbours_symm hi hq⟩)
  unfold Dev.latNew
  dsimp only
  rw [h1, h2, d.diffuse_level]
  · rfl
  · intro x hx
    obtain ⟨q, hq, rfl⟩ := List.mem_map.mp hx
    rw [(hn q hq).1, (hn q hq).2]

end

end Sys2Proof.Machine
end

section
/-! The lattice's commands (R253, R256 to R261). -/

namespace Sys2Proof.Machine

section
variable (d : Dev)

theorem Dev.latEvent_changes (k : Nat) : d.changes [.regs, .vecs] (d.latEvent k) := d.event_changes _ _ _ _ _ _

theorem Dev.latEvent_lat (k : Nat) : (d.latEvent k).lat = d.lat := by
  unfold Dev.latEvent
  rw [Dev.event_frame]

theorem Dev.latEvent_set {k : Nat} (hk : k < 32) : (d.latEvent k).getB latB R.LAT_EVT k = true := by
  rw [Dev.getB, Dev.latEvent, Dev.event_get (hv := by decide) (hb := latB_ne_hif) (ho := by decide)]
  exact bit_or_pow _ hk

theorem Dev.latEvent_get {q : Reg} {i : Nat} (k : Nat) (ho : q.ofs i 0 < 0x1000) (hne : radr latB q i 0 ≠ radr latB R.LAT_EVT) :
    (d.latEvent k).get latB q i = d.get latB q i := d.event_get_ne latB_ne_hif ho _ _ (by decide) hne

theorem Dev.latHot_spec : d.changes [.regs, .vecs] d.latHot ∧ d.latHot.lat = d.lat ∧
    d.latHot.get latB R.LAT_TICKS = d.get latB R.LAT_TICKS := by
  unfold Dev.latHot
  extract_lets lim listed free first
  split
  · exact ⟨.refl _ _, rfl, rfl⟩
  · cases first with
    | some i =>
      refine ⟨((d.put_changes _ _ _ _ _).mono (by decide)).trans (Dev.latEvent_changes _ _), Dev.latEvent_lat _ _, ?_⟩
      dsimp only
      rw [Dev.latEvent_get _ _ (by decide) (by decide), Dev.get_put_ne _ _ _ _ _ _ _ _ _ _ (by decide)]
    | none => exact ⟨.refl _ _, rfl, rfl⟩

/-- What a tick leaves in the lattice. -/
def Dev.latAfter (d : Dev) : Lat :=
  { d.lat with
    base := d.latBase, tiles := (d.latKeys.map fun i => (i, d.latNew i)).filter fun x => x.2 ≠ d.latBase
    deps := d.lat.deps.filter fun x => ¬ x.k < d.now
    sweptAt := d.now, dueAt := d.now, over_ := false, rowTick := 0 }

theorem Dev.latAfter_tile {i : Nat} (hi : i < 262144) : d.latAfter.tile i = d.latNew i := by
  unfold Lat.tile Dev.latAfter
  by_cases hk : i ∈ d.latKeys
  · exact spGet_computed _ _ _ hk
  · rw [spGet_none, d.latNew_other hi hk]
    · rfl
    · intro hm
      obtain ⟨x, hx, rfl⟩ := List.mem_map.mp hm
      obtain ⟨q, hq, rfl⟩ := List.mem_map.mp (List.mem_filter.mp hx).1
      exact hk hq

theorem Dev.latTick_spec : d.changes [.regs, .live, .vecs, .lat] d.latTick ∧ d.latTick.lat = d.latAfter ∧
    d.latTick.getN latB R.LAT_TICKS = min 0xFFFFFFFF (d.getN latB R.LAT_TICKS + 1) := by
  unfold Dev.latTick
  extract_lets due later dt keys all hot base new held d1 d2
  have h1 : d.changes [.lat] d1 := rfl
  have hl1 : d1.lat = d.latAfter := rfl
  have hg1 : d1.get latB R.LAT_TICKS = d.get latB R.LAT_TICKS := rfl
  clear_value d1
  obtain ⟨d1', hd1'⟩ : ∃ x, x = if held then d1.bump latB R.LAT_CLAMPS else d1 := ⟨_, rfl⟩
  have h2 : d1.changes [.regs] d1' ∧ d1'.lat = d1.lat ∧ d1'.get latB R.LAT_TICKS = d1.get latB R.LAT_TICKS := by
    subst hd1'
    split
    · exact ⟨rfl, rfl, Dev.get_put_ne _ _ _ _ _ _ _ _ _ _ (by decide)⟩
    · exact ⟨rfl, rfl, rfl⟩
  have hd2 : d2 = (d1'.bump latB R.LAT_TICKS).bump latB R.LAT_DEPOSITS due.length := by rw [hd1']
  have h3 : d1'.changes [.regs] d2 ∧ d2.lat = d1'.lat ∧ d2.getN latB R.LAT_TICKS = min 0xFFFFFFFF (d1'.getN latB R.LAT_TICKS + 1) := by
    rw [hd2]
    refine ⟨rfl, rfl, ?_⟩
    rw [← Dev.getN_bump]
    exact congrArg BitVec.toNat (Dev.get_put_ne _ _ _ _ _ _ _ _ _ _ (by decide))
  clear_value d2
  obtain ⟨h4, hl4, hg4⟩ := d2.latHot_spec
  generalize d2.latHot = d3 at h4 hl4 hg4 ⊢
  refine ⟨?_, (hl4.trans (h3.2.1.trans (h2.2.1.trans hl1)) : _), ?_⟩
  · exact ((((h1.mono (by decide)).step h2.1 (by decide)).step h3.1 (by decide)).step h4 (by decide)).trans rfl
  · exact (congrArg BitVec.toNat hg4).trans (h3.2.2.trans (by rw [Dev.getN, h2.2.2, hg1, Dev.getN]))

end

/-- A deposit that has arrived waits for the next tick. -/
theorem exec_deposit (s : State) (x : Msg) (tile e m : Nat) (hlive : s.dev.dead = false) (hup : s.dev.up latB = true)
    (hin : (s.dev.inbox latB fun b => match b with | .deposit _ _ _ => true | _ => false) = some x)
    (hx : x.body = .deposit tile e m) (hm : m ≤ 15) :
    exec .deposit s = .next { s with dev := { s.dev with
      fabric := s.dev.fabric.erase x
      lat := { s.dev.lat with deps := s.dev.lat.deps ++ [⟨tile, e, m, headOf x.src, s.dev.now⟩] } } } := by
  change execDeposit s = _
  unfold execDeposit
  rw [onLive_next _ _ hlive]
  refine congrArg (fun e => Host.Outcome.next { s with dev := e }) ?_
  dsimp only
  generalize hg : s.dev.inbox latB _ = o
  have ho : o = some x := hg.symm.trans hin
  rw [hup, ho]
  simp only [hx]
  unfold Dev.depositIn
  simp only [if_neg (Nat.not_lt.mpr hm)]
  rfl

/-- A tick that is due too early counts an overrun. -/
theorem exec_latticeOverrun (s : State) (hlive : s.dev.dead = false) (hruns : s.dev.latRuns = true) (hdue : s.dev.latDue = true) :
    ∃ d', exec (.latticeTick false none) s = .next { s with dev := d' } ∧
    d' = { s.dev with
      regs := d'.regs, live := d'.live, vecs := d'.vecs, fabric := d'.fabric
      lat := { s.dev.lat with dueAt := s.dev.now, over_ := true } } ∧
    d'.getN latB R.LAT_OVERRUN = min 0xFFFFFFFF (s.dev.getN latB R.LAT_OVERRUN + 1) ∧ d'.getB latB R.LAT_EVT 0 = true := by
  have hcond : (s.dev.latRuns && s.dev.latDue) = true := by rw [hruns, hdue]; rfl
  obtain ⟨d0, hd0⟩ : ∃ x, x = (s.dev.latPeriod.latMod fun l => { l with dueAt := s.dev.now, over_ := true }).bump latB R.LAT_OVERRUN :=
    ⟨_, rfl⟩
  obtain ⟨d2, hd2⟩ : ∃ x, x = if s.dev.lat.over_ then d0.latEvent 0 else (d0.latEvent 0).raise latB none 0 := ⟨_, rfl⟩
  have hexec : exec (.latticeTick false none) s = .next { s with dev := d2 } := by
    change execLatticeTick false none s = _
    unfold execLatticeTick
    rw [onLive_next _ _ hlive, hd2, hd0]
    exact congrArg (fun e => Host.Outcome.next { s with dev := e }) (Dev.when_of _ _ hcond)
  refine ⟨d2, hexec, ?_⟩
  clear hexec
  have h0 : d0 = { s.dev with regs := d0.regs, live := d0.live, lat := { s.dev.lat with dueAt := s.dev.now, over_ := true } } := by
    rw [hd0]
    rfl
  have hg0 : d0.getN latB R.LAT_OVERRUN = min 0xFFFFFFFF (s.dev.getN latB R.LAT_OVERRUN + 1) := by
    rw [hd0, Dev.getN_bump]
    rfl
  clear hd0
  have h1 : d0.changes [.regs, .vecs] (d0.latEvent 0) := d0.latEvent_changes 0
  have hl1 : (d0.latEvent 0).getB latB R.LAT_EVT 0 = true := d0.latEvent_set (by decide)
  have hg1 : (d0.latEvent 0).getN latB R.LAT_OVERRUN = d0.getN latB R.LAT_OVERRUN :=
    congrArg BitVec.toNat (d0.latEvent_get 0 (by decide) (by decide))
  generalize d0.latEvent 0 = d1 at h1 hl1 hg1 hd2
  have h2 : d1.changes [.regs, .vecs, .fabric] d2 ∧ ∀ q : Reg, q.ofs 0 0 < 0x1000 → radr latB q 0 0 ≠ radr latB R.FLT_STAT → d2.get latB q = d1.get latB q := by
    rw [hd2]
    split
    · exact ⟨.refl _ _, fun _ _ _ => rfl⟩
    · exact ⟨d1.detect_changes _ _ _ _ _ _ _, fun q ho hq => d1.detect_get (by decide) ho _ _ _ _ _ _ latB_ne_fltc hq⟩
  clear hd2
  refine ⟨?_, ?_, ?_⟩
  · have h := (h1.mono (by decide)).trans h2.1
    rw [h0] at h
    exact congrArg (fun x : Dev => { x with regs := d2.regs, vecs := d2.vecs, fabric := d2.fabric, live := d2.live }) h
  · rw [Dev.getN, h2.2 _ (by decide) (by decide), ← Dev.getN, hg1, hg0]
  · rw [Dev.getB, h2.2 _ (by decide) (by decide)]
    exact hl1

/-- The end of the recoat step. -/
theorem exec_recoatStepDone (s : State) (tr : Nat) (hlive : s.dev.dead = false) (hup : s.dev.up latB = true)
    (hr : s.dev.lat.recoat = some tr) :
    ∃ d', exec .recoatStepDone s = .next { s with dev := d' } ∧
    d' = { s.dev with regs := d'.regs, live := d'.live, vecs := d'.vecs, lat := d'.lat } ∧ d'.lat.recoat = none ∧
    (∀ i, d'.lat.tile i = s.dev.recoatTile tr (s.dev.lat.tile i)) ∧ d'.getB latB R.LAT_EVT 3 = true := by
  obtain ⟨d0, hd0⟩ : ∃ x, x = s.dev.latPeriod.latMod fun l => { l with
    base := s.dev.recoatTile tr l.base, tiles := l.tiles.map fun x => (x.1, s.dev.recoatTile tr x.2), recoat := none
    sweptAt := s.dev.now, dueAt := s.dev.now } := ⟨_, rfl⟩
  refine ⟨d0.latEvent 3, ?_, ?_, ?_, fun i => ?_, d0.latEvent_set (by decide)⟩
  · change execRecoatStepDone s = _
    unfold execRecoatStepDone
    rw [onLive_next _ _ hlive]
    refine congrArg (fun e => Host.Outcome.next { s with dev := e }) ?_
    rw [hup, hr, hd0]
  · have h : s.dev.changes [.regs, .live, .vecs, .lat] (d0.latEvent 3) := by
      refine Dev.changes.trans ?_ ((d0.latEvent_changes 3).mono (by decide))
      rw [hd0]
      rfl
    generalize d0.latEvent 3 = e at h ⊢
    exact congrArg (fun x : Dev => { x with regs := e.regs, live := e.live, vecs := e.vecs, lat := e.lat }) h
  · rw [Dev.latEvent_lat, hd0]
    rfl
  · rw [Dev.latEvent_lat, hd0]
    unfold Lat.tile
    change (spGet (s.dev.lat.tiles.map fun x => (x.1, s.dev.recoatTile tr x.2)) i).getD _ = _
    rw [spGet_map]
    cases spGet s.dev.lat.tiles i <;> rfl

/-- Settles O37: a tile that a tick does not compute has only neighbours that stand for the base, as it does itself, so
it becomes the new base. -/
theorem latticeTicksMoveEveryTile : Obligations.LatticeTicksMoveEveryTile := by
  unfold Obligations.LatticeTicksMoveEveryTile
  refine ⟨exec_deposit, fun s hlive hruns hdue => ?_, exec_latticeOverrun, exec_recoatStepDone⟩
  have hcond : (s.dev.latRuns && s.dev.latDue) = true := by rw [hruns, hdue]; rfl
  obtain ⟨hc, hl, hg⟩ := s.dev.latTick_spec
  refine ⟨s.dev.latTick, ?_, ?_, fun i hi => ?_, ?_, hg⟩
  · change execLatticeTick true none s = _
    unfold execLatticeTick
    rw [onLive_next _ _ hlive]
    exact congrArg (fun e => Host.Outcome.next { s with dev := e }) (Dev.when_of _ _ hcond)
  · generalize s.dev.latTick = e at hc ⊢
    exact congrArg (fun x : Dev => { x with regs := e.regs, live := e.live, vecs := e.vecs, lat := e.lat }) hc
  · rw [hl]
    exact s.dev.latAfter_tile hi
  · rw [hl]
    rfl

end Sys2Proof.Machine
end

section
/-! The lattice's operations and its predictions (R258, R263, R272, R273). -/

namespace Sys2Proof.Machine

section
variable (d : Dev)

theorem Dev.opDone_regs (b : Blk) : (d.opDone b).regs = (d.put b R.OP_STAT (opWord 3 4095 0 (d.opTag b))).regs := rfl

theorem Dev.opDone_lat (b : Blk) : (d.opDone b).lat = d.lat := rfl

/-- OP_STAT of an operation that has ended. -/
theorem Dev.opDone_stat (b : Blk) : (d.opDone b).get b R.OP_STAT = opWord 3 4095 0 (d.opTag b) :=
  (d.opDone_get b b R.OP_STAT 0 0).trans (Dev.get_put_same _ _ _ _ _ _)

theorem Dev.opDone_kept (b : Blk) {p : Nat → Prop} (hp : p (radr b R.OP_STAT)) : d.regsKept (d.opDone b) p := fun a ha => by
  rw [Dev.opDone_regs]
  exact (d.regsKept_put b R.OP_STAT _ 0 0 hp) a ha

theorem Dev.latGeom_lat : d.latGeom.lat = { d.lat with
    ox := d.getI latB R.LAT_ORIGIN_X, oy := d.getI latB R.LAT_ORIGIN_Y, pitch := d.getN latB R.LAT_PITCH, since := d.now } := rfl

theorem Dev.latGeom_changes : d.changes [.regs, .lat] d.latGeom := rfl

theorem Dev.latGeom_tag : d.latGeom.opTag latB = d.opTag latB := by
  unfold Dev.latGeom Dev.opTag
  rw [Dev.getF_putB_ne _ _ _ _ _ (by decide)]
  rfl

theorem Dev.latGeom_kept : d.regsKept d.latGeom fun a => a = radr latB R.LAT_STAT := by
  unfold Dev.latGeom
  exact (show d.regsKept (d.latMod _) _ from fun _ _ => rfl).put latB R.LAT_STAT _ 0 0 rfl

end

/-- LAT_INIT ends: every tile is the tile of the settings (R272). -/
theorem exec_latInitDone (s : State) (hlive : s.dev.dead = false) (hrun : s.dev.opRunning latB 1 = true) : ∃ d',
    exec .latInitDone s = .next { s with dev := d' } ∧ d' = { s.dev with regs := d'.regs, ops := d'.ops, lat := d'.lat } ∧
    (∀ i, d'.lat.tile i = ⟨s.dev.getF latB R.LAT_INIT_TEMP 19 0, 0, s.dev.getF latB R.LAT_CTL 11 8, ageMax⟩) ∧
    d'.lat.pitch = s.dev.getN latB R.LAT_PITCH ∧ d'.get latB R.OP_STAT = opWord 3 4095 0 (s.dev.opTag latB) ∧
    s.dev.regsKept d' fun a => a = radr latB R.LAT_STAT ∨ a = radr latB R.OP_STAT := by
  obtain ⟨t, ht⟩ : ∃ x : Tile, x = ⟨s.dev.getF latB R.LAT_INIT_TEMP 19 0, 0, s.dev.getF latB R.LAT_CTL 11 8, ageMax⟩ := ⟨_, rfl⟩
  obtain ⟨d0, hd0⟩ : ∃ x, x = s.dev.latMod fun l => { l with base := t, tiles := [] } := ⟨_, rfl⟩
  obtain ⟨d1, hd1⟩ : ∃ x, x = d0.latGeom.putB latB R.LAT_STAT 16 true := ⟨_, rfl⟩
  have hexec : exec .latInitDone s = .next { s with dev := d1.opDone latB } := by
    change execLatInitDone s = _
    unfold execLatInitDone
    rw [onLive_next _ _ hlive, hd1, hd0, ht]
    exact congrArg (fun e => Host.Outcome.next { s with dev := e }) (Dev.when_of _ _ hrun)
  rw [← ht]
  have hl : d1.lat = d0.latGeom.lat := by rw [hd1]; rfl
  have hc : s.dev.changes [.regs, .lat] d1 := by
    rw [hd1]
    exact (Dev.changes.trans (by rw [hd0]; rfl) d0.latGeom_changes).trans rfl
  have hk : s.dev.regsKept d1 fun a => a = radr latB R.LAT_STAT ∨ a = radr latB R.OP_STAT := by
    rw [hd1]
    exact ((show s.dev.regsKept d0 _ by rw [hd0]; exact fun _ _ => rfl).trans (d0.latGeom_kept.mono fun _ h => .inl h)).put _ _ _ _ _ (.inl rfl)
  have htag : d1.opTag latB = s.dev.opTag latB := by
    rw [hd1]
    unfold Dev.opTag
    rw [Dev.getF_putB_ne _ _ _ _ _ (by decide)]
    refine d0.latGeom_tag.trans ?_
    rw [hd0]
    rfl
  have hlat : d1.lat.base = t ∧ d1.lat.tiles = [] ∧ d1.lat.pitch = s.dev.getN latB R.LAT_PITCH := by
    rw [hl, d0.latGeom_lat, hd0]
    exact ⟨rfl, rfl, rfl⟩
  clear hd1 hd0 hl
  refine ⟨d1.opDone latB, hexec, ?_, fun i => ?_, ?_, ?_, ?_⟩
  · have h := (hc.mono (G := [.regs, .ops, .lat]) (by decide)).step (d1.opDone_changes latB) (by decide)
    generalize d1.opDone latB = e at h ⊢
    exact congrArg (fun x : Dev => { x with regs := e.regs, ops := e.ops, lat := e.lat }) h
  · rw [Dev.opDone_lat, Lat.tile, hlat.1, hlat.2.1]
    rfl
  · rw [Dev.opDone_lat]
    exact hlat.2.2
  · rw [Dev.opDone_stat, htag]
  · exact hk.trans (d1.opDone_kept latB (.inr rfl))

/-- LAT_READ ends after its last row (R273). -/
theorem exec_latReadDone (s : State) (hlive : s.dev.dead = false) (hrun : s.dev.opRunning latB 2 = true)
    (hn : s.dev.latRect.2.2.2 ≤ s.dev.getN latB R.OP_PART 0) : ∃ d',
    exec .latReadDone s = .next { s with dev := d' } ∧ d' = { s.dev with regs := d'.regs, ops := d'.ops } ∧
    d'.get latB R.OP_STAT = opWord 3 4095 0 (s.dev.opTag latB) ∧ s.dev.regsKept d' fun a => a = radr latB R.OP_STAT := by
  have hcond : (s.dev.opRunning latB 2 && s.dev.latRect.2.2.2 ≤ s.dev.getN latB R.OP_PART 0) = true := by
    rw [hrun, decide_eq_true hn]
    rfl
  refine ⟨s.dev.opDone latB, ?_, ?_, s.dev.opDone_stat latB, s.dev.opDone_kept latB (by rfl)⟩
  · change execLatReadDone s = _
    unfold execLatReadDone
    rw [onLive_next _ _ hlive]
    exact congrArg (fun e => Host.Outcome.next { s with dev := e }) (Dev.when_of _ _ hcond)
  · have h := s.dev.opDone_changes latB
    generalize s.dev.opDone latB = e at h ⊢
    exact congrArg (fun x : Dev => { x with regs := e.regs, ops := e.ops }) h

/-! Rows read (R273). -/

/-- What a row read shows of the operation. -/
def Dev.rowShown (d : Dev) (first : Bool) (n ticks b1 b2 e p : Nat) : Dev :=
  ((((((if first then d.opPart latB 1 ticks else d).opPart latB 0 (n + 1)).opPart latB 2 ticks).opPart latB 3 b1).opPart latB 4 b2).opPart
    latB 5 e).opProg latB p

section
variable (d : Dev) (first : Bool) (n ticks b1 b2 e p : Nat)

theorem Dev.rowShown_changes : d.changes [.regs] (d.rowShown first n ticks b1 b2 e p) := by
  have h : d.changes [.regs] (if first then d.opPart latB 1 ticks else d) := .ite rfl rfl
  have hp : ∀ {x : Dev} (i v : Nat), d.changes [.regs] x → d.changes [.regs] (x.opPart latB i v) := fun _ _ h => h.trans rfl
  exact (hp _ _ (hp _ _ (hp _ _ (hp _ _ (hp _ _ h))))).trans (Dev.put_changes _ _ _ _ _ _)

theorem Dev.rowShown_rows : (d.rowShown first n ticks b1 b2 e p).get latB R.OP_PART 0 = wd (n + 1) := by
  unfold Dev.rowShown
  rw [Dev.opProg_get_part, Dev.opPart_get_ne _ _ _ (by decide), Dev.opPart_get_ne _ _ _ (by decide), Dev.opPart_get_ne _ _ _ (by decide),
    Dev.opPart_get_ne _ _ _ (by decide), Dev.opPart_get_same]

theorem Dev.rowShown_ticks : (d.rowShown first n ticks b1 b2 e p).get latB R.OP_PART 2 = wd ticks := by
  unfold Dev.rowShown
  rw [Dev.opProg_get_part, Dev.opPart_get_ne _ _ _ (by decide), Dev.opPart_get_ne _ _ _ (by decide), Dev.opPart_get_ne _ _ _ (by decide),
    Dev.opPart_get_same]

theorem Dev.rowShown_kept : d.regsKept (d.rowShown first n ticks b1 b2 e p) fun a =>
    a = radr latB R.OP_STAT ∨ ∃ i, i < 6 ∧ a = radr latB R.OP_PART i := by
  have hp : ∀ {x : Dev} (i v : Nat), i < 6 → (d.regsKept x fun a => a = radr latB R.OP_STAT ∨ ∃ i, i < 6 ∧ a = radr latB R.OP_PART i) →
      d.regsKept (x.opPart latB i v) fun a => a = radr latB R.OP_STAT ∨ ∃ i, i < 6 ∧ a = radr latB R.OP_PART i :=
    fun i v hi h => h.put latB R.OP_PART (wd v) i 0 (.inr ⟨i, hi, rfl⟩)
  have h : d.regsKept (if first then d.opPart latB 1 ticks else d) fun a => a = radr latB R.OP_STAT ∨ ∃ i, i < 6 ∧ a = radr latB R.OP_PART i := by
    split
    · exact hp 1 ticks (by decide) (d.regsKept_refl _)
    · exact d.regsKept_refl _
  exact (hp 5 e (by decide) (hp 4 b2 (by decide) (hp 3 b1 (by decide) (hp 2 ticks (by decide) (hp 0 (n + 1) (by decide) h))))).put _ _ _ _ _ (.inl rfl)

end

/-- LAT_READ lays down its next row (R273). -/
theorem exec_latReadRow (s : State) (m' : Mem) (hlive : s.dev.dead = false) (hrun : s.dev.opRunning latB 2 = true)
    (hn : s.dev.getN latB R.OP_PART 0 < s.dev.latRect.2.2.2) (hrow : s.dev.latRuns = false ∨ s.dev.lat.rowTick < 8)
    (hw : s.dev.sdWrite s.mem (s.dev.latAddr + 8 * s.dev.latRect.2.2.1 * s.dev.getN latB R.OP_PART 0)
      ((List.range s.dev.latRect.2.2.1).flatMap fun c =>
        (s.dev.lat.tile (s.dev.latRect.1 + c + 512 * (s.dev.latRect.2.1 + s.dev.getN latB R.OP_PART 0))).bytes) = .ok m') : ∃ d',
    exec (.latRead (.row none)) s = .next { s with mem := m', dev := d' } ∧
    d' = { s.dev with regs := d'.regs, lat := { s.dev.lat with rowTick := s.dev.lat.rowTick + 1 } } ∧
    d'.getN latB R.OP_PART 0 = s.dev.getN latB R.OP_PART 0 + 1 ∧ d'.get latB R.OP_PART 2 = s.dev.get latB R.LAT_TICKS ∧
    s.dev.regsKept d' fun a => a = radr latB R.OP_STAT ∨ ∃ i, i < 6 ∧ a = radr latB R.OP_PART i := by
  obtain ⟨b1, b2, e, he⟩ : ∃ b1 b2 e, s.dev.latRow s.mem none = (m',
      (s.dev.rowShown (decide (s.dev.getN latB R.OP_PART 0 = 0)) (s.dev.getN latB R.OP_PART 0) (s.dev.getN latB R.LAT_TICKS) b1 b2 e
        ((s.dev.getN latB R.OP_PART 0 + 1) * 4095 / s.dev.latRect.2.2.2)).latMod fun l => { l with rowTick := l.rowTick + 1 }) := by
    have hcond : ¬(s.dev.latRect.2.2.2 ≤ s.dev.getN latB R.OP_PART 0 ∨ (s.dev.latRuns ∧ 8 ≤ s.dev.lat.rowTick)) := by
      rintro (h | ⟨h1, h2⟩)
      · omega
      · rcases hrow with h | h
        · exact absurd h1 (by rw [h]; decide)
        · omega
    unfold Dev.latRow
    extract_lets r n row d ts
    rw [if_neg hcond, show d.sdWrite s.mem (d.latAddr + 8 * r.2.2.1 * n) (ts.flatMap fun t => t.2.bytes) = .ok m' by
      rw [← hw, List.flatMap_map]]
    unfold Dev.rowShown
    simp only [decide_eq_true_eq]
    exact ⟨_, _, _, rfl⟩
  obtain ⟨d1, hd1⟩ : ∃ x, x = s.dev.rowShown (decide (s.dev.getN latB R.OP_PART 0 = 0)) (s.dev.getN latB R.OP_PART 0)
    (s.dev.getN latB R.LAT_TICKS) b1 b2 e ((s.dev.getN latB R.OP_PART 0 + 1) * 4095 / s.dev.latRect.2.2.2) := ⟨_, rfl⟩
  rw [← hd1] at he
  have hc : s.dev.changes [.regs] d1 := by rw [hd1]; exact s.dev.rowShown_changes _ _ _ _ _ _ _
  have h0 : d1.get latB R.OP_PART 0 = wd (s.dev.getN latB R.OP_PART 0 + 1) := by rw [hd1]; exact s.dev.rowShown_rows _ _ _ _ _ _ _
  have h2 : d1.get latB R.OP_PART 2 = wd (s.dev.getN latB R.LAT_TICKS) := by rw [hd1]; exact s.dev.rowShown_ticks _ _ _ _ _ _ _
  have hk := s.dev.rowShown_kept (decide (s.dev.getN latB R.OP_PART 0 = 0)) (s.dev.getN latB R.OP_PART 0)
    (s.dev.getN latB R.LAT_TICKS) b1 b2 e ((s.dev.getN latB R.OP_PART 0 + 1) * 4095 / s.dev.latRect.2.2.2)
  rw [← hd1] at hk
  clear hd1
  have hrows : s.dev.latRect.2.2.2 < 1024 := fld_lt _ 25 16
  refine ⟨d1.latMod fun l => { l with rowTick := l.rowTick + 1 }, ?_, ?_, ?_, ?_, hk⟩
  · change execLatRead (.row none) s = _
    unfold execLatRead
    exact onLiveMem_eq (x := (m', _)) hlive ((if_pos hrun).trans he)
  · have h := congrArg (fun x : Dev => ({ x with regs := d1.regs }.latMod fun l => { l with rowTick := l.rowTick + 1 })) hc
    exact h
  · change (d1.get latB R.OP_PART 0).toNat = _
    rw [h0, wd, BitVec.toNat_ofNat]
    omega
  · exact h2.trans (wd_toNat_self _)

end Sys2Proof.Machine
end

section
/-! LAT_WRITE and prediction requests (R258, R272). -/

namespace Sys2Proof.Machine

theorem Dev.changes.latOps {d e : Dev} (h : d.changes [.regs, .ops, .lat] e) : e = { d with regs := e.regs, ops := e.ops, lat := e.lat } :=
  congrArg (fun x : Dev => { x with regs := e.regs, ops := e.ops, lat := e.lat }) h

/-- Tiles set one after the other. -/
theorem Lat.setTiles_tiles (is : List Nat) (f : Nat → Nat) (t : Nat → Tile) (l : Lat) :
    is.foldl (fun l i => l.setTile (f i) (t i)) l =
      { l with tiles := (is.map fun i => (f i, t i)).foldl (fun l x => spPut l x.1 x.2) l.tiles } := by
  induction is generalizing l with
  | nil => rfl
  | cons i is ih =>
    rw [List.foldl_cons, ih]
    rfl

theorem Lat.setTiles_same (is : List Nat) (f : Nat → Nat) (t : Nat → Tile) (l : Lat) {i : Nat} (hi : i ∈ is)
    (hinj : ∀ j ∈ is, f j = f i → j = i) : (is.foldl (fun l i => l.setTile (f i) (t i)) l).tile (f i) = t i := by
  rw [Lat.setTiles_tiles, Lat.tile]
  dsimp only
  rw [spGet_foldl_spPut _ _ _ (t i)]
  · rfl
  · intro x hx he
    obtain ⟨j, hj, rfl⟩ := List.mem_map.mp hx
    rw [hinj j hj he]
  · exact .inl ⟨_, List.mem_map_of_mem hi, rfl⟩

theorem Lat.setTiles_other (is : List Nat) (f : Nat → Nat) (t : Nat → Tile) (l : Lat) {a : Nat} (h : ∀ i ∈ is, f i ≠ a) :
    (is.foldl (fun l i => l.setTile (f i) (t i)) l).tile a = l.tile a := by
  rw [Lat.setTiles_tiles, Lat.tile]
  dsimp only
  rw [spGet_foldl_spPut_ne]
  · rfl
  · intro x hx
    obtain ⟨j, hj, rfl⟩ := List.mem_map.mp hx
    exact h j hj

/-- The tile of the rectangle that the `i`th of its words is for. -/
def rectTile (r : Nat × Nat × Nat × Nat) (i : Nat) : Nat := r.1 + i % r.2.2.1 + 512 * (r.2.1 + i / r.2.2.1)

theorem rectTile_at (r : Nat × Nat × Nat × Nat) {c : Nat} (q : Nat) (hc : c < r.2.2.1) :
    rectTile r (c + r.2.2.1 * q) = r.1 + c + 512 * (r.2.1 + q) := by
  rw [rectTile, Nat.add_mul_mod_self_left, Nat.mod_eq_of_lt hc, Nat.add_mul_div_left _ _ (by omega), Nat.div_eq_of_lt hc, Nat.zero_add]

theorem rectTile_inj {r : Nat × Nat × Nat × Nat} (hw : r.1 + r.2.2.1 ≤ 512) (hc : 0 < r.2.2.1) {i j : Nat} (h : rectTile r j = rectTile r i) :
    j = i := by
  have hi := Nat.mod_lt i hc
  have hj := Nat.mod_lt j hc
  unfold rectTile at h
  have hd : j / r.2.2.1 = i / r.2.2.1 := by omega
  have hm : j % r.2.2.1 = i % r.2.2.1 := by omega
  rw [← Nat.div_add_mod j r.2.2.1, ← Nat.div_add_mod i r.2.2.1, hd, hm]

section
variable (l : Lat) (r : Nat × Nat × Nat × Nat) (t : Nat → Tile)

/-- The tiles of a rectangle, set one after the other. -/
def Lat.setRect (l : Lat) (r : Nat × Nat × Nat × Nat) (t : Nat → Tile) : Lat :=
  (List.range (r.2.2.1 * r.2.2.2)).foldl (fun l i => l.setTile (rectTile r i) (t i)) l

theorem Lat.setRect_inside (hw : r.1 + r.2.2.1 ≤ 512) {c q : Nat} (hc : c < r.2.2.1) (hq : q < r.2.2.2) :
    (l.setRect r t).tile (r.1 + c + 512 * (r.2.1 + q)) = t (c + r.2.2.1 * q) := by
  rw [← rectTile_at _ q hc]
  refine Lat.setTiles_same _ (rectTile r) t l ?_ fun j _ hj => rectTile_inj hw (by omega) hj
  rw [List.mem_range]
  calc c + r.2.2.1 * q < r.2.2.1 * (q + 1) := by rw [Nat.mul_succ]; omega
    _ ≤ _ := Nat.mul_le_mul_left _ hq

theorem Lat.setRect_outside {i : Nat} (hi : ∀ c q, c < r.2.2.1 → q < r.2.2.2 → i ≠ r.1 + c + 512 * (r.2.1 + q)) :
    (l.setRect r t).tile i = l.tile i := by
  refine Lat.setTiles_other _ (rectTile r) t l fun j hj => ?_
  rw [List.mem_range] at hj
  have hpos : 0 < r.2.2.1 := Nat.pos_of_ne_zero fun h => by rw [h, Nat.zero_mul] at hj; omega
  exact Ne.symm (hi _ _ (Nat.mod_lt j hpos) (Nat.div_lt_of_lt_mul hj))

end

section
variable (d : Dev) (f : Lat → Lat)

theorem Dev.latMod_tag (b : Blk) : (d.latMod f).opTag b = d.opTag b := rfl
theorem Dev.latMod_changes : d.changes [.lat] (d.latMod f) := rfl
theorem Dev.latMod_lat : (d.latMod f).lat = f d.lat := rfl

end

/-- LAT_WRITE takes its rectangle from SDRAM (R272). -/
theorem exec_latWriteDone (s : State) (bs : List Byte) (r : Nat × Nat × Nat × Nat) (hr : s.dev.latRect = r) (hlive : s.dev.dead = false)
    (hrun : s.dev.opRunning latB 3 = true) (hrd : s.dev.sdRead s.mem s.dev.latAddr (8 * r.2.2.1 * r.2.2.2) = .ok bs) :
    exec .latWriteDone s = .next { s with dev := ((s.dev.latMod fun l =>
      l.setRect r fun i => tileOf (leNat ((bs.drop (8 * i)).take 8))).latGeom.opDone latB) } := by
  have hc : ¬¬s.dev.opRunning latB 3 = true := not_not_intro hrun
  generalize hX : Dev.opDone _ _ = X
  change execLatWriteDone s = _
  unfold execLatWriteDone
  refine onLiveMem_eq (x := (s.mem, X)) hlive ?_
  refine (if_neg hc).trans ?_
  rw [hr]
  dsimp only
  rw [hrd, ← hX]
  rfl

theorem latWriteDone_takes (s : State) (bs : List Byte) (r : Nat × Nat × Nat × Nat) (hr : s.dev.latRect = r) (hlive : s.dev.dead = false)
    (hrun : s.dev.opRunning latB 3 = true) (hrd : s.dev.sdRead s.mem s.dev.latAddr (8 * r.2.2.1 * r.2.2.2) = .ok bs)
    (hw : r.1 + r.2.2.1 ≤ 512) : ∃ d',
    exec .latWriteDone s = .next { s with dev := d' } ∧ d' = { s.dev with regs := d'.regs, ops := d'.ops, lat := d'.lat } ∧
    (∀ c q, c < r.2.2.1 → q < r.2.2.2 → d'.lat.tile (r.1 + c + 512 * (r.2.1 + q)) =
      tileOf (leNat ((bs.drop (8 * (c + r.2.2.1 * q))).take 8))) ∧
    (∀ i, (∀ c q, c < r.2.2.1 → q < r.2.2.2 → i ≠ r.1 + c + 512 * (r.2.1 + q)) → d'.lat.tile i = s.dev.lat.tile i) ∧
    d'.get latB R.OP_STAT = opWord 3 4095 0 (s.dev.opTag latB) := by
  have hexec := exec_latWriteDone s bs r hr hlive hrun hrd
  obtain ⟨d0, hd0⟩ : ∃ x, x = s.dev.latMod fun l => l.setRect r fun i => tileOf (leNat ((bs.drop (8 * i)).take 8)) := ⟨_, rfl⟩
  rw [← hd0] at hexec
  have hlat : (d0.latGeom.opDone latB).lat.tiles = d0.lat.tiles ∧ (d0.latGeom.opDone latB).lat.base = d0.lat.base := by
    rw [Dev.opDone_lat, Dev.latGeom_lat]
    exact ⟨rfl, rfl⟩
  have hstat : (d0.latGeom.opDone latB).get latB R.OP_STAT = opWord 3 4095 0 (s.dev.opTag latB) := by
    rw [Dev.opDone_stat, Dev.latGeom_tag, hd0, Dev.latMod_tag]
  have hframe : s.dev.changes [.regs, .ops, .lat] (d0.latGeom.opDone latB) :=
    (Dev.changes.step (show s.dev.changes [.regs, .ops, .lat] d0 by rw [hd0]; exact (s.dev.latMod_changes _).mono (by decide)) d0.latGeom_changes (by decide)).step
      (d0.latGeom.opDone_changes latB) (by decide)
  have hl0 : d0.lat = s.dev.lat.setRect r fun i => tileOf (leNat ((bs.drop (8 * i)).take 8)) := by rw [hd0, Dev.latMod_lat]
  generalize d0.latGeom.opDone latB = d' at hexec hlat hstat hframe
  have htile : ∀ a, d'.lat.tile a = d0.lat.tile a := fun a => by rw [Lat.tile, Lat.tile, hlat.1, hlat.2]
  refine ⟨d', hexec, hframe.latOps, fun c q hc hq => ?_,
    fun i hi => ?_, hstat⟩
  · rw [htile, hl0, Lat.setRect_inside _ _ _ hw hc hq]
  · rw [htile, hl0, Lat.setRect_outside _ _ _ hi]

/-- A prediction request is answered with the tile's temperature. -/
theorem exec_predictionRequest (s : State) (x : Msg) (e t : Nat) (hlive : s.dev.dead = false) (hup : s.dev.up latB = true)
    (hrec : s.dev.lat.recoat = none) (hwake : (s.dev.wakeReq.any fun w => w.2 = latB) = false)
    (hin : (s.dev.inbox latB fun b => match b with | .predReq _ _ => true | _ => false) = some x) (hx : x.body = .predReq e t) :
    exec .predictionRequest s = .next { s with dev := { s.dev with
      fabric := s.dev.fabric.erase x ++ [⟨.rsp, latB, x.src, none, .predRsp e (((s.dev.lat.tile t).temp + 5) / 10), 0, x.tag,
        .port (.block latB) (ownPort latB), 0⟩] } } := by
  change execPredictionRequest s = _
  unfold execPredictionRequest
  rw [onLive_next _ _ hlive]
  refine congrArg (fun e => Host.Outcome.next { s with dev := e }) ?_
  dsimp only
  generalize hg : s.dev.inbox latB _ = o
  have ho : o = some x := hg.symm.trans hin
  obtain ⟨cls, src, dst, cell, body, status, tag, loc, age⟩ := x
  cases hx
  rw [hup, ho, hrec, hwake]
  rfl

end Sys2Proof.Machine
end

section
/-! Predictions and feature records at the correction unit (R263 to R271, R277). -/

namespace Sys2Proof.Machine

section
variable (d : Dev) (h : Fin 32)

/-! Both scales at 1.0 (R277). -/

theorem Dev.corIdle_spec : d.corIdle h = { d with
    regs := (d.corIdle h).regs
    heads := vmod d.heads h fun x => { x with
      trv := { x.trv with corr := if d.corOn h then x.trv.corr else 32768 }
      drf := { x.drf with speedReq := if d.corOn h then x.drf.speedReq else 1 } } } ∧
    d.regsKept (d.corIdle h) fun a => a = radr (headB h) R.COR_STAT := by
  have hsame : vmod d.heads h (fun x => x) = d.heads := Vector.set_getElem_self _
  unfold Dev.corIdle
  by_cases hon : d.corOn h = true
  · rw [if_pos (.inl hon)]
    simp only [if_pos hon]
    rw [hsame]
    exact ⟨rfl, d.regsKept_refl _⟩
  · simp only [if_neg hon]
    split
    case isTrue hone =>
      obtain ⟨hc, hs⟩ := hone.resolve_left hon
      refine ⟨?_, d.regsKept_refl _⟩
      have hv : (vmod d.heads h fun x => { x with trv := { x.trv with corr := 32768 }, drf := { x.drf with speedReq := 1 } }) = d.heads := by
        rw [← hc, ← hs]
        exact hsame
      rw [hv]
    case isFalse =>
      refine ⟨?_, Dev.regsKept.put (headB h) R.COR_STAT _ 0 0 (fun _ _ => rfl) rfl⟩
      have hone : (((32768 : Nat) : Rat)) / 32768 = 1 := by norm_num
      unfold Dev.corForce Dev.drfMod Dev.trvMod
      rw [hone, vmod_vmod]
      rfl

/-! What a record reads is not what it changes. -/

/-- The bobbin bound to a position depends on the path and the bobbins alone. -/
theorem Dev.bobAt_congr {d e : Dev} {h : Fin 32} (ht : e.heads[h].drf.trail = d.heads[h].drf.trail) (hm : e.heads[h].drf.moves = d.heads[h].drf.moves)
    (hb : e.bobs = d.bobs) (x : Rat) (b : Nat) : e.bobAt h x b = d.bobAt h x b := by
  unfold Dev.bobAt Drf.moveAt Dev.bobBuf Dev.bob
  rw [ht, hm, hb]

theorem Dev.recUse_congr {d e : Dev} {h : Fin 32} (ht : e.heads[h].drf.trail = d.heads[h].drf.trail) (hm : e.heads[h].drf.moves = d.heads[h].drf.moves)
    (hb : e.bobs = d.bobs) (hon : e.corOn h = d.corOn h) (r : FeatIn) : e.recUse h r = d.recUse h r := by
  unfold Dev.recUse
  rw [Dev.bobAt_congr ht hm hb, hon]

end

/-- Work of a feature record after its integration: what it has taken stands. -/
structure Dev.placed (h : Fin 32) (d e : Dev) : Prop where
  work : d.headWork h [.regs, .vecs, .fabric, .heads] e
  recs : e.heads[h].cor.recs = d.heads[h].cor.recs
  integ : e.heads[h].cor.integ = d.heads[h].cor.integ
  regs : ∀ q ∈ [R.COR_INTEG, R.COR_USED], e.get (headB h) q = d.get (headB h) q

namespace Dev.placed

variable {h : Fin 32} {d e f : Dev}

theorem refl (d : Dev) : placed h d d := ⟨.refl d h _, rfl, rfl, fun _ _ => rfl⟩

theorem ite {c : Prop} [Decidable c] (k : placed h d e) (k' : placed h d f) : placed h d (if c then e else f) := by
  split <;> assumption

theorem trans (k : placed h d e) (k' : placed h e f) : placed h d f :=
  ⟨k.work.trans k'.work, k'.recs.trans k.recs, k'.integ.trans k.integ, fun q hq => (k'.regs q hq).trans (k.regs q hq)⟩

/-- A step that leaves the heads and the two registers. -/
theorem beside {F : List Part} (k : placed h d e) (k' : e.changes F f) (hs : F ⊆ [.regs, .vecs, .fabric]) (hh : f.heads = e.heads)
    (hr : ∀ q ∈ [R.COR_INTEG, R.COR_USED], f.get (headB h) q = e.get (headB h) q) : placed h d f :=
  k.trans ⟨⟨k'.mono (List.Subset.trans hs (by decide)), fun _ _ => by rw [hh]⟩, by rw [hh], by rw [hh], hr⟩

variable (k : placed h d e)
include k

theorem bump {r : Reg} (hd : ∀ q ∈ [R.COR_INTEG, R.COR_USED], q.ofs 0 0 ≠ r.ofs 0 0) : placed h d (e.bump (headB h) r) :=
  k.beside (e.put_changes _ _ _ _ _) (by decide) rfl fun q hq => Dev.get_put_ne _ _ _ _ _ _ _ _ _ _ (radr_ne_of_ofs _ _ _ _ _ _ _ (hd q hq))

theorem corEvent (n : Nat) : placed h d (e.corEvent h n) :=
  k.beside (e.event_changes _ _ _ _ _ _) (by decide) (Dev.event_heads _ _ _ _ _ _ _) fun q hq =>
    e.event_get_ne (headB_ne_hif h) ((by decide : ∀ q ∈ [R.COR_INTEG, R.COR_USED], q.ofs 0 0 < 0x1000) q hq) _ _ (by omega)
      (radr_ne_of_ofs _ _ _ _ _ _ _ ((by decide : ∀ q ∈ [R.COR_INTEG, R.COR_USED], q.ofs 0 0 ≠ R.COR_EVT.ofs 0 0) q hq))

theorem raise (n : Nat) : placed h d (e.raise (headB h) none n) :=
  k.beside (e.detect_changes _ _ _ _ _ _ _) (by decide) (by rw [Dev.raise, Dev.detect_frame]) fun q hq =>
    e.detect_get (headB_ne_hif h) ((by decide : ∀ q ∈ [R.COR_INTEG, R.COR_USED], q.ofs 0 0 < 0x1000) q hq) _ _ _ _ _ _ (headB_ne_fltc h)
      (radr_ne_of_ofs _ _ _ _ _ _ _ ((by decide : ∀ q ∈ [R.COR_INTEG, R.COR_USED], q.ofs 0 0 ≠ R.FLT_STAT.ofs 0 0) q hq))

theorem headMod {g : Head → Head} (hg : ∀ x, (g x).cor.recs = x.cor.recs ∧ (g x).cor.integ = x.cor.integ) :
    placed h d { e with heads := vmod e.heads h g } :=
  k.trans ⟨(Dev.headWork.refl e h _).step (e.headMod_work h g) (by decide), by simp only [vmod_same]; exact (hg _).1,
    by simp only [vmod_same]; exact (hg _).2, fun _ _ => rfl⟩

theorem corMod {g : Cor → Cor} (hg : ∀ x, (g x).recs = x.recs ∧ (g x).integ = x.integ) : placed h d (e.corMod h g) := k.headMod fun x => hg x.cor

theorem trvMod (g : Trv → Trv) : placed h d (e.trvMod h g) := k.headMod fun _ => ⟨rfl, rfl⟩

/-- The result of a record is placed (R269). -/
theorem corPlace (r : FeatIn) (pt : Int) (o : CorOut) (x : BobBuf) : placed h d (e.corPlace h r pt o x) := by
  unfold Dev.corPlace
  extract_lets b t sc newest st ref band fires near_ d1 d0
  have h0 : placed h d d0 := k.corMod fun _ => ⟨rfl, rfl⟩
  split
  · exact k.bump (by decide)
  · split
    · have h1 : placed h d d1 := (k.bump (by decide)).corEvent 0
      exact Dev.placed.corMod (.ite h1 (h1.raise 17)) fun _ => ⟨rfl, rfl⟩
    · split
      · exact h0
      · cases near_ with
        | some y => exact h0.trvMod _
        | none =>
          dsimp only
          split
          · exact (h0.bump (by decide)).corEvent 2
          · exact (h0.trvMod _).bump (by decide)

end Dev.placed

section
variable (s : State) (h : Fin 32) (r : FeatIn) (rest : List FeatIn)

/-- The device a record is judged by: it is taken, and the scales stand at 1.0 while COR_CTL.EN is 0. -/
def Dev.recTaken (d : Dev) (h : Fin 32) (rest : List FeatIn) : Dev :=
  ((d.corMod h fun c => { c with recs := rest }).corIdle h).bump (headB h) R.COR_RECORDS

theorem Dev.recTaken_spec (d : Dev) : d.recTaken h rest = { d with
      regs := (d.recTaken h rest).regs
      heads := d.heads.set h { d.heads[h] with
        cor := { d.heads[h].cor with recs := rest }
        trv := { d.heads[h].trv with corr := if d.corOn h then d.heads[h].trv.corr else 32768 }
        drf := { d.heads[h].drf with speedReq := if d.corOn h then d.heads[h].drf.speedReq else 1 } } } ∧
    d.regsKept (d.recTaken h rest) (fun a => a = radr (headB h) R.COR_RECORDS ∨ a = radr (headB h) R.COR_STAT) ∧
    (d.recTaken h rest).getN (headB h) R.COR_RECORDS = min 0xFFFFFFFF (d.getN (headB h) R.COR_RECORDS + 1) := by
  obtain ⟨hf, hk⟩ := (d.corMod h fun c => { c with recs := rest }).corIdle_spec h
  have hon : (d.corMod h fun c => { c with recs := rest }).corOn h = d.corOn h := rfl
  rw [hon] at hf
  have hk' : d.regsKept ((d.corMod h fun c => { c with recs := rest }).corIdle h) (fun a => a = radr (headB h) R.COR_STAT) := hk
  have hv := vmod_vmod d.heads h (fun x => { x with cor := { x.cor with recs := rest } }) fun x => { x with
    trv := { x.trv with corr := if d.corOn h then x.trv.corr else 32768 }
    drf := { x.drf with speedReq := if d.corOn h then x.drf.speedReq else 1 } }
  have hf' : (d.corMod h fun c => { c with recs := rest }).corIdle h = { d with
      regs := ((d.corMod h fun c => { c with recs := rest }).corIdle h).regs
      heads := d.heads.set h { d.heads[h] with
        cor := { d.heads[h].cor with recs := rest }
        trv := { d.heads[h].trv with corr := if d.corOn h then d.heads[h].trv.corr else 32768 }
        drf := { d.heads[h].drf with speedReq := if d.corOn h then d.heads[h].drf.speedReq else 1 } } } :=
    hf.trans (congrArg (fun v => { d with regs := ((d.corMod h fun c => { c with recs := rest }).corIdle h).regs, heads := v }) hv)
  clear hk hv hf
  unfold Dev.recTaken
  generalize (d.corMod h fun c => { c with recs := rest }).corIdle h = e at hf' hk' ⊢
  refine ⟨?_, (hk'.mono fun _ => .inr).put _ _ _ _ _ (.inl rfl), ?_⟩
  · conv_lhs => rw [hf']
    rfl
  · rw [Dev.getN_bump, Dev.getN, hk'.get _ _ 0 0 (radr_ne_of_ofs _ _ _ _ _ _ _ (by decide))]
    rfl

theorem exec_featureRecord (hlive : s.dev.dead = false) (hup : s.dev.up (headB h) = true) (hrecs : s.dev.heads[h].cor.recs = r :: rest) :
    exec (.featureRecord h) s = .next { s with dev := (s.dev.corMod h fun c => { c with recs := rest }).featRecord h r } := by
  change execFeatureRecord h s = _
  unfold execFeatureRecord
  rw [onLive_next _ _ hlive]
  refine congrArg (fun e => Host.Outcome.next { s with dev := e }) ?_
  rw [hrecs]
  exact Dev.when_of _ _ hup

/-- What the record reads is what it would have read before it was taken. -/
theorem Dev.recTaken_reads (d : Dev) : (∀ x b, (d.recTaken h rest).bobAt h x b = d.bobAt h x b) ∧
    (∀ r, (d.recTaken h rest).recUse h r = d.recUse h r) ∧ (d.recTaken h rest).heads[h].cor.integ = d.heads[h].cor.integ ∧
    (d.recTaken h rest).heads[h].cor.frozen = d.heads[h].cor.frozen ∧ (d.recTaken h rest).heads[h].cor.recs = rest := by
  obtain ⟨hf, hk, -⟩ := d.recTaken_spec h rest
  generalize d.recTaken h rest = e at hf hk
  have hh : e.heads[h] = { d.heads[h] with
        cor := { d.heads[h].cor with recs := rest }
        trv := { d.heads[h].trv with corr := if d.corOn h then d.heads[h].trv.corr else 32768 }
        drf := { d.heads[h].drf with speedReq := if d.corOn h then d.heads[h].drf.speedReq else 1 } } := by
    rw [hf]
    exact vset_same _ _ _
  have hb : e.bobs = d.bobs := by rw [hf]
  have hon : e.corOn h = d.corOn h := congrArg (bit · 0) (hk.get _ _ 0 0 (by
    rintro (he | he)
    · exact absurd he (radr_ne_of_ofs _ _ _ _ _ _ _ (by decide))
    · exact absurd he (radr_ne_of_ofs _ _ _ _ _ _ _ (by decide))))
  rw [hh]
  exact ⟨fun x b => Dev.bobAt_congr (by rw [hh]) (by rw [hh]) hb x b, fun r => Dev.recUse_congr (by rw [hh]) (by rw [hh]) hb hon r, rfl, rfl, rfl⟩

end

end Sys2Proof.Machine
end

section
/-! Lattice operations and predictions, settled. -/

namespace Sys2Proof.Machine

theorem Dev.changes.headParts {d e : Dev} (h : d.changes [.regs, .vecs, .fabric, .heads] e) :
    e = { d with regs := e.regs, vecs := e.vecs, fabric := e.fabric, heads := e.heads } :=
  congrArg (fun x : Dev => { x with regs := e.regs, vecs := e.vecs, fabric := e.fabric, heads := e.heads }) h

section
variable (s : State) (h : Fin 32) (r : FeatIn) (rest : List FeatIn)

/-- A record that is not used counts as skipped (R267). -/
theorem exec_featureSkipped (hlive : s.dev.dead = false) (hup : s.dev.up (headB h) = true) (hrecs : s.dev.heads[h].cor.recs = r :: rest)
    (huse : s.dev.recUse h r = none) : ∃ d',
    exec (.featureRecord h) s = .next { s with dev := d' } ∧
    d' = { s.dev with
      regs := d'.regs
      heads := s.dev.heads.set h { s.dev.heads[h] with
        cor := { s.dev.heads[h].cor with recs := rest }
        trv := { s.dev.heads[h].trv with corr := if s.dev.corOn h then s.dev.heads[h].trv.corr else 32768 }
        drf := { s.dev.heads[h].drf with speedReq := if s.dev.corOn h then s.dev.heads[h].drf.speedReq else 1 } } } ∧
    d'.getN (headB h) R.COR_RECORDS = min 0xFFFFFFFF (s.dev.getN (headB h) R.COR_RECORDS + 1) ∧
    d'.getN (headB h) R.COR_SKIP = min 0xFFFFFFFF (s.dev.getN (headB h) R.COR_SKIP + 1) ∧
    s.dev.regsKept d' fun a =>
      a = radr (headB h) R.COR_RECORDS ∨ a = radr (headB h) R.COR_SKIP ∨ a = radr (headB h) R.COR_STAT := by
  have he : (s.dev.corMod h fun c => { c with recs := rest }).featRecord h r = (s.dev.recTaken h rest).bump (headB h) R.COR_SKIP := by
    unfold Dev.featRecord
    extract_lets b d0
    rw [show d0.recUse h r = none from ((s.dev.recTaken_reads h rest).2.1 r).trans huse]
    rfl
  obtain ⟨hf, hk, hn⟩ := s.dev.recTaken_spec h rest
  refine ⟨_, (exec_featureRecord s h r rest hlive hup hrecs).trans (by rw [he]), ?_⟩
  generalize s.dev.recTaken h rest = e at hf hk hn
  refine ⟨?_, ?_, ?_, ?_⟩
  · conv_lhs => rw [hf]
    rfl
  · rw [← hn]
    exact congrArg BitVec.toNat (Dev.get_put_ne _ _ _ _ _ _ _ _ _ _ (radr_ne_of_ofs _ _ _ _ _ _ _ (by decide)))
  · rw [Dev.getN_bump, Dev.getN, hk.get _ _ 0 0 (not_or.mpr ⟨radr_ne_of_ofs _ _ _ _ _ _ _ (by decide), radr_ne_of_ofs _ _ _ _ _ _ _ (by decide)⟩)]
    rfl
  · exact (hk.mono fun a ha => ha.imp_right .inr).put _ _ _ _ _ (.inr (.inl rfl))

/-- What a used record makes of the head before its result is placed (R268). -/
def Dev.recMoved (d : Dev) (h : Fin 32) (i : Int) (frozen : Bool) : Dev :=
  ((d.bump (headB h) R.COR_USED).corInteg h i).corMod h fun c => { c with frozen := frozen }

theorem Dev.recMoved_spec (d : Dev) (i : Int) (fz : Bool) : d.headWork h [.regs, .heads] (d.recMoved h i fz) ∧
    (d.recMoved h i fz).heads[h].cor.recs = d.heads[h].cor.recs ∧ (d.recMoved h i fz).heads[h].cor.integ = i ∧
    (d.recMoved h i fz).get (headB h) R.COR_INTEG = wi i ∧
    (d.recMoved h i fz).getN (headB h) R.COR_USED = min 0xFFFFFFFF (d.getN (headB h) R.COR_USED + 1) := by
  obtain ⟨e, he⟩ : ∃ e, e = d.bump (headB h) R.COR_USED := ⟨_, rfl⟩
  have h1 : d.headWork h [.regs, .heads] e := he ▸ ⟨rfl, fun _ _ => rfl⟩
  have hv := vmod_vmod e.heads h (fun x => { x with cor := { x.cor with integ := i } }) fun x => { x with cor := { x.cor with frozen := fz } }
  have hh : (d.recMoved h i fz).heads = e.heads.set h { e.heads[h] with cor := { e.heads[h].cor with integ := i, frozen := fz } } := by
    rw [he]
    exact (he ▸ hv : _)
  have hc : (d.recMoved h i fz).heads[h].cor = { e.heads[h].cor with integ := i, frozen := fz } := by
    rw [hh]
    exact congrArg Head.cor (vset_same _ _ _)
  refine ⟨⟨rfl, fun g hg => ?_⟩, ?_, ?_, ?_, ?_⟩
  · rw [hh, he]
    exact vset_ne _ _ hg
  · rw [hc, he]
    rfl
  · rw [hc]
  · exact Dev.get_put_same _ _ _ _ _ _
  · rw [← Dev.getN_bump]
    exact congrArg BitVec.toNat (Dev.get_put_ne (d.bump (headB h) R.COR_USED) (headB h) (headB h) R.COR_INTEG R.COR_USED (wi i) 0 0 0 0
      (radr_ne_of_ofs _ _ _ _ _ _ _ (by decide)))

/-- A record that is used moves the integrator (R267, R268). -/
theorem exec_featureUsed (tgt meas : Nat) (hlive : s.dev.dead = false) (hup : s.dev.up (headB h) = true)
    (hrecs : s.dev.heads[h].cor.recs = r :: rest) (huse : s.dev.recUse h r = some (tgt, meas)) :
    let lead := (s.dev.bobAt h (r.sMid : Rat) r.bob).nat 0xD0
    let x := s.dev.bobAt h ((r.sMid + ((if lead = 0 then 150000 else lead : Nat) : Int) : Int) : Rat) r.bob
    let lim : Int := (x.nat 0xCC : Nat)
    let c := s.dev.heads[h].cor
    let i := if c.frozen then c.integ else clampI (-lim) lim (c.integ + mul16 (x.int 0xC8) (corErr tgt meas))
    ∃ d', exec (.featureRecord h) s = .next { s with dev := d' } ∧
      d' = { s.dev with regs := d'.regs, vecs := d'.vecs, fabric := d'.fabric, heads := d'.heads } ∧
      d'.heads[h].cor.recs = rest ∧ d'.heads[h].cor.integ = i ∧ d'.get (headB h) R.COR_INTEG = wi i ∧
      d'.getN (headB h) R.COR_USED = min 0xFFFFFFFF (s.dev.getN (headB h) R.COR_USED + 1) ∧
      ∀ g : Fin 32, g ≠ h → d'.heads[g] = s.dev.heads[g] := by
  intro lead x lim c i
  obtain ⟨hf, hk, hn⟩ := s.dev.recTaken_spec h rest
  obtain ⟨hbob, hu, hi, hfz, hr⟩ := s.dev.recTaken_reads h rest
  obtain ⟨fz, hp⟩ : ∃ fz : Bool, Dev.placed h ((s.dev.recTaken h rest).recMoved h i fz)
      ((s.dev.corMod h fun c => { c with recs := rest }).featRecord h r) := by
    unfold Dev.featRecord
    extract_lets b d0 x0 lead' pt x' c' lim' smin
    rw [show d0.recUse h r = some (tgt, meas) from (hu r).trans huse]
    dsimp -zeta only
    extract_lets e i' u o fz d1 d2
    have hx0 : x0 = s.dev.bobAt h (r.sMid : Rat) r.bob := hbob _ _
    have hlead : lead' = lead := congrArg (BobBuf.nat · 0xD0) hx0
    have hpt : pt = r.sMid + ((if lead = 0 then 150000 else lead : Nat) : Int) := by rw [← hlead]
    have hx : x' = x := (hbob _ _).trans (by rw [hpt])
    have hi' : i' = i := by
      have h1 : c'.frozen = c.frozen := hfz
      have h2 : c'.integ = c.integ := hi
      have h3 : lim' = lim := by simp only [lim', lim, hx]
      simp only [i', i, h1, h2, h3, hx]
      rfl
    refine ⟨fz, Dev.placed.corPlace (.ite (Dev.placed.bump ?_ (by decide)) ?_) r pt o x'⟩
    all_goals
      rw [← hi']
      exact .refl _
  have he := exec_featureRecord s h r rest hlive hup hrecs
  generalize (s.dev.corMod h fun c => { c with recs := rest }).featRecord h r = d' at he hp
  clear_value i
  obtain ⟨hw1, hr1, hi1, hg1, hn1⟩ := (s.dev.recTaken h rest).recMoved_spec h i fz
  have hw0 : s.dev.headWork h [.regs, .heads] (s.dev.recTaken h rest) := by
    generalize s.dev.recTaken h rest = e at hf
    rw [hf]
    exact ⟨rfl, fun g hg => vset_ne _ _ hg⟩
  have hn0 : (s.dev.recTaken h rest).getN (headB h) R.COR_USED = s.dev.getN (headB h) R.COR_USED :=
    congrArg BitVec.toNat (hk.get _ _ 0 0 (not_or.mpr ⟨radr_ne_of_ofs _ _ _ _ _ _ _ (by decide), radr_ne_of_ofs _ _ _ _ _ _ _ (by decide)⟩))
  have hw : s.dev.headWork h [.regs, .vecs, .fabric, .heads] d' :=
    (((Dev.headWork.refl s.dev h _).step (hw0.trans hw1) (by decide)).trans hp.work)
  refine ⟨d', he, hw.1.headParts, hp.recs.trans (hr1.trans hr), hp.integ.trans hi1, (hp.regs _ (by decide)).trans hg1, ?_, hw.2⟩
  rw [Dev.getN, hp.regs _ (by decide), ← Dev.getN, hn1, hn0]

end

theorem vmod_vset {α : Type} {n : Nat} (v : Vector α n) (i : Fin n) (x : α) (f : α → α) : vmod (v.set i x) i f = v.set i (f x) := by
  unfold vmod
  simp only [Fin.getElem_fin, Vector.getElem_set_self, Vector.set_set]

section
variable (d : Dev) (h : Fin 32) {num temp : Nat} {e : Ent} {arc : Int}

/-- A prediction that comes in time (R264, R265). -/
theorem Dev.predIn_taken (he : (d.heads[h].trv.corEnts.find? fun y => y.num = num) = some e)
    (ha : ((d.heads[h].cor.await.find? fun a => a.1 = num).map (·.2)) = some arc) :
    let ff := if d.webLayer then 32768 else ffOf (d.bobBuf e.bob e.buf) temp
    let o := corOut (d.bobBuf e.bob e.buf) ff d.heads[h].cor.integ
    d.predIn h num temp 0 = { d with heads := d.heads.set h { d.heads[h] with
      cor := { d.heads[h].cor with
        await := d.heads[h].cor.await.filter fun a => a.1 ≠ num, failed := false
        ffs := d.heads[h].cor.ffs.map fun f => if f.1 = arc then (arc, ff, temp) else f }
      trv := d.heads[h].trv.entMod num fun y => { y with pwr := o.p, spd := o.s } } } := by
  intro ff o
  unfold Dev.predIn
  extract_lets b c arc' ent d1
  rw [show arc' = some arc from ha, show ent = some e from he]
  have hv := vmod_vmod d.heads h (fun x => { x with cor := { x.cor with await := x.cor.await.filter fun a => a.1 ≠ num } })
    fun x => { x with cor := { x.cor with failed := false, ffs := x.cor.ffs.map fun f => if f.1 = arc then (arc, ff, temp) else f } }
  exact congrArg (fun v => { d with heads := v }) ((congrArg (fun v => vmod v h fun x => { x with
    trv := x.trv.entMod num fun y => { y with pwr := o.p, spd := o.s } }) hv).trans (vmod_vset _ _ _ _))

end

theorem Trv.entMod_sched (t : Trv) (num p v : Nat) : ∀ y ∈ (t.entMod num fun y => { y with pwr := p, spd := v }).sched,
    y.num = num → y.pwr = p ∧ y.spd = v := by
  intro y hy hn
  obtain ⟨x, hx, rfl⟩ := List.mem_map.mp hy
  by_cases hx' : x.num = num
  · rw [if_pos hx']
    exact ⟨rfl, rfl⟩
  · rw [if_neg hx'] at hn
    exact absurd hn hx'

/-- A prediction scales its start entry and frees its tag (R264, R265). -/
theorem exec_prediction (s : State) (h : Fin 32) (x : Msg) (rest : List Msg) (num temp : Nat) (e : Ent) (arc : Int)
    (hlive : s.dev.dead = false) (hup : s.dev.up (headB h) = true) (hfab : s.dev.fabric = x :: rest) (hdst : x.dst = headB h)
    (hloc : x.loc = .inbox) (hbody : x.body = .predRsp num temp) (hst : x.status = 0)
    (hreq : (s.dev.reqs.any fun r => r.tag = x.tag && !r.timedOut) = true)
    (he : (s.dev.heads[h].trv.corEnts.find? fun y => y.num = num) = some e)
    (ha : ((s.dev.heads[h].cor.await.find? fun a => a.1 = num).map (·.2)) = some arc) (hq : s.dev.heads[h].cor.queue = []) :
    let o := corOut (s.dev.bobBuf e.bob e.buf)
      (if s.dev.webLayer then 32768 else ffOf (s.dev.bobBuf e.bob e.buf) temp) s.dev.heads[h].cor.integ
    ∃ d', exec (.prediction h) s = .next { s with dev := d' } ∧
      d' = { s.dev with
        fabric := rest, heads := d'.heads, reqs := s.dev.reqs.filter fun r => r.tag ≠ x.tag } ∧
      (∀ y ∈ d'.heads[h].trv.sched, y.num = num → y.pwr = o.p ∧ y.spd = o.s) ∧
      d'.heads[h].cor.await = (s.dev.heads[h].cor.await.filter fun a => a.1 ≠ num) ∧ d'.heads[h].cor.failed = false ∧
      ∀ g : Fin 32, g ≠ h → d'.heads[g] = s.dev.heads[g] := by
  intro o
  obtain ⟨d2, hd2⟩ : ∃ y : Dev, y = { s.dev with fabric := rest, reqs := s.dev.reqs.filter fun r => r.tag ≠ x.tag } := ⟨_, rfl⟩
  have hheads : d2.heads = s.dev.heads := by rw [hd2]
  have hp := d2.predIn_taken h (num := num) (temp := temp) (e := e) (arc := arc) (by rw [hheads]; exact he) (by rw [hheads]; exact ha)
  have ho : corOut (d2.bobBuf e.bob e.buf) (if d2.webLayer then 32768 else ffOf (d2.bobBuf e.bob e.buf) temp) d2.heads[h].cor.integ = o := by
    rw [hd2]
    rfl
  dsimp only at hp
  rw [ho, hheads] at hp
  generalize hd3 : d2.predIn h num temp 0 = d3 at hp
  have hh : d3.heads[h] = _ := (congrArg (fun v : Vector Head 32 => v[h]) (congrArg Dev.heads hp)).trans (vset_same _ _ _)
  have hissue : d3.corIssue h = d3 := by
    unfold Dev.corIssue
    rw [show d3.heads[h].cor.queue.length = 0 by rw [hh]; exact congrArg List.length hq]
    rfl
  have hexec : exec (.prediction h) s = .next { s with dev := d3 } := by
    change execPrediction h s = _
    unfold execPrediction
    rw [onLive_next _ _ hlive]
    refine congrArg (fun e => Host.Outcome.next { s with dev := e }) ?_
    extract_lets b isRsp live
    have hx : (decide (x.dst = b ∧ x.loc = .inbox ∧ isRsp x.body ∧ live x)) = true := by
      have hlv : live x = true := by simp only [live, hreq, Bool.or_true]
      have hrsp : isRsp x.body = true := by rw [hbody]
      exact decide_eq_true ⟨hdst, hloc, hrsp, hlv⟩
    rw [show (s.dev.fabric.find? fun x => x.dst = b ∧ x.loc = .inbox ∧ isRsp x.body ∧ live x) = some x by
      rw [hfab]; exact List.find?_cons_of_pos hx]
    dsimp only
    rw [Dev.when_of _ _ hup]
    have hun : s.dev.unpost x = { s.dev with fabric := rest } := by
      unfold Dev.unpost
      rw [hfab, List.erase_cons_head]
    have h5 : ¬(x.status = 5) := by rw [hst]; decide
    rw [hbody, if_neg h5, hun, hst]
    dsimp only
    rw [← hissue, ← hd3, hd2]
    rfl
  refine ⟨d3, hexec, ?_, ?_, ?_, ?_, fun g hg => ?_⟩
  · have hf : d3 = { d2 with heads := d3.heads } := by rw [hp]
    rw [hd2] at hf
    exact hf
  · rw [hh]
    exact Trv.entMod_sched _ _ _ _
  · rw [hh]
  · rw [hh]
  · exact (congrArg (fun v : Vector Head 32 => v[g]) (congrArg Dev.heads hp)).trans (vset_ne _ _ hg)

/-- Settles O38: the operations of the lattice, then predictions and feature records. -/
theorem latticeOperationsAndPredictions : Obligations.LatticeOperationsAndPredictions := by
  unfold Obligations.LatticeOperationsAndPredictions
  exact ⟨⟨exec_latInitDone, fun s m' hlive hrun hn hrow hw => exec_latReadRow s m' hlive hrun hn hrow hw, exec_latReadDone,
    fun s bs hlive hrun hrd hw => latWriteDone_takes s bs _ rfl hlive hrun hrd hw⟩, exec_predictionRequest, exec_prediction,
    exec_featureSkipped, fun s h r rest tgt meas hlive hup hrecs huse => exec_featureUsed s h r rest tgt meas hlive hup hrecs huse⟩

end Sys2Proof.Machine
end

section
/-! Bindings, checks and a lost link (R280, R284, R296). -/

namespace Sys2Proof.Machine

section
variable (d : Dev) {b : Blk} {t : BT} {n : Nat}

/-- A fault of the block's own kinds shows in FLT_STAT (R409). -/
theorem Dev.detect_stat (hb : blkKind b = some (t, n)) (hh : b ≠ hif) (hf : b ≠ fltc) (c : Option Nat) {kind : Nat} (hk : kind < 32)
    (addr : Nat) (trans inj alsof : Bool) : (d.detect b c kind addr trans inj alsof).getB b R.FLT_STAT kind = true := by
  unfold Dev.detect
  rw [hb]
  dsimp -zeta only
  extract_lets km own crit was d1 d2
  have h1 : d1.get b R.FLT_STAT = d.get b R.FLT_STAT ||| km := by
    rw [show d1 = d.put b R.FLT_STAT (d.get b R.FLT_STAT ||| km) from if_pos hk]
    exact Dev.get_put_same _ _ _ _ _ _
  have h2 : d2.get b R.FLT_STAT = d.get b R.FLT_STAT ||| km := by
    simp only [d2]
    split
    · refine (Dev.get_putB_ne _ _ _ (radr_ne_of_blk _ _ _ _ _ _ _ _ hf (by decide) (by decide))).trans ?_
      exact (Dev.vector_get _ (by decide) 0 0 hh (by decide)).trans h1
    · exact h1
  have h3 : bit (d2.get b R.FLT_STAT) kind = true := by
    rw [h2]
    exact bit_or_pow _ hk
  split
  · exact h3
  · exact h3

end

theorem csiB_ne_hif (p : Fin 2) : csiB p ≠ hif := by revert p; decide
theorem csiB_ne_fltc (p : Fin 2) : csiB p ≠ fltc := by revert p; decide
theorem csiB_kind (p : Fin 2) : blkKind (csiB p) = some (.csirx, p.val) := by revert p; decide
theorem lpB_ne_hif (p : Fin 2) : lpB p ≠ hif := by revert p; decide
theorem lpB_ne_fltc (p : Fin 2) : lpB p ≠ fltc := by revert p; decide
theorem lpB_ne_csi (p : Fin 2) : lpB p ≠ csiB p := by revert p; decide
theorem lpB_ne_light (p : Fin 2) : lpB p ≠ light := by revert p; decide
theorem csiB_ne_light (p : Fin 2) : csiB p ≠ light := by revert p; decide

theorem Dev.changes.faultParts {d e : Dev} (h : d.changes [.regs, .vecs, .fabric] e) :
    e = { d with regs := e.regs, vecs := e.vecs, fabric := e.fabric } :=
  congrArg (fun x : Dev => { x with regs := e.regs, vecs := e.vecs, fabric := e.fabric }) h

/-- A lost link clears CSI_STAT and raises kind 2 (R296). -/
theorem exec_csiLinkLoss (s : State) (p : Fin 2) (hlive : s.dev.dead = false) (hup : s.dev.up (csiB p) = true)
    (hst : s.dev.getB (csiB p) R.CSI_STAT 0 = true) : ∃ d',
    exec (.csiLinkLoss p) s = .next { s with dev := d' } ∧
    d' = { s.dev with regs := d'.regs, vecs := d'.vecs, fabric := d'.fabric } ∧
    d'.getB (csiB p) R.CSI_STAT 0 = false ∧ d'.getB (csiB p) R.FLT_STAT 2 = true := by
  have hcond : (s.dev.up (csiB p) && s.dev.getB (csiB p) R.CSI_STAT 0) = true := by rw [hup, hst]; rfl
  obtain ⟨d1, hd1⟩ : ∃ x, x = s.dev.putB (csiB p) R.CSI_STAT 0 false := ⟨_, rfl⟩
  have hc1 : s.dev.changes [.regs, .vecs, .fabric] d1 := by
    rw [hd1]
    exact (s.dev.put_changes _ _ _ 0 0).mono (by decide)
  have hb1 : d1.getB (csiB p) R.CSI_STAT 0 = false := by
    rw [hd1]
    exact Dev.getB_putB_same _ _ _ _ _ _ (by decide)
  refine ⟨d1.raise (csiB p) none 2, ?_, (hc1.trans (d1.detect_changes _ _ _ _ _ _ _)).faultParts, ?_,
    d1.detect_stat (csiB_kind p) (csiB_ne_hif p) (csiB_ne_fltc p) _ (by decide) _ _ _ _⟩
  · change execCsiLinkLoss p s = _
    unfold execCsiLinkLoss
    rw [onLive_next _ _ hlive, hd1]
    exact congrArg (fun e => Host.Outcome.next { s with dev := e }) (Dev.when_of _ _ hcond)
  · rw [← hb1]
    exact congrArg (bit · 0) (d1.detect_get (csiB_ne_hif p) (by decide) _ _ _ _ _ _ (csiB_ne_fltc p) (radr_ne_of_ofs _ _ _ _ _ _ _ (by decide)))

/-! Bindings (R280). -/

section
variable (d : Dev) (p : Fin 2)

theorem Dev.bindTo_spec (v : Fin 4) :
    d.bindTo p v = { d with regs := (d.bindTo p v).regs, lpipes := d.lpipes.set p { d.lpipes[p] with pend := some v } } ∧
    (d.bindTo p v).getB (lpB p) R.LPIPE_STAT 2 = true ∧ d.regsKept (d.bindTo p v) fun a => a = radr (lpB p) R.LPIPE_STAT :=
  ⟨rfl, Dev.getB_putB_same _ _ _ _ _ _ (by decide), (show d.regsKept (d.lpMod p fun x => { x with pend := some v }) _ from fun _ _ => rfl).put _ _ _ _ _ rfl⟩

theorem Dev.armCheck_spec :
    d.armCheck p = { d with regs := (d.armCheck p).regs, lpipes := d.lpipes.set p { d.lpipes[p] with armed := true } } ∧
    (d.armCheck p).getB (lpB p) R.LPIPE_STAT 3 = true ∧ d.regsKept (d.armCheck p) fun a => a = radr (lpB p) R.LPIPE_STAT :=
  ⟨rfl, Dev.getB_putB_same _ _ _ _ _ _ (by decide), (show d.regsKept (d.lpMod p fun x => { x with armed := true }) _ from fun _ _ => rfl).put _ _ _ _ _ rfl⟩

end

section
variable (s : State) (p : Fin 2)

theorem exec_lpipeBind (v : Word) (ht : s.dev.takes (lpB p) 0x108) : ∃ d',
    exec (.lpipeBind p v) s = .next { s with dev := d' } ∧
    d' = { s.dev with
      regs := d'.regs
      lpipes := s.dev.lpipes.set p { s.dev.lpipes[p] with pend := some (Fin.ofNat 4 (fld v 1 0)) } } ∧
    d'.get (lpB p) R.LPIPE_BIND = v &&& 3#32 ∧ d'.getB (lpB p) R.LPIPE_STAT 2 = true ∧
    s.dev.regsKept d' fun a => a = radr (lpB p) R.LPIPE_BIND ∨ a = radr (lpB p) R.LPIPE_STAT := by
  obtain ⟨hf, hb, hk⟩ := (s.dev.put (lpB p) R.LPIPE_BIND (v &&& 3)).bindTo_spec p (Fin.ofNat 4 (fld v 1 0))
  refine ⟨_, ?_, hf, ?_, hb, ?_⟩
  · change execLpipeBind p v s = _
    unfold execLpipeBind
    rw [onLive_next _ _ (Dev.takes_live _ _ _ ht), Dev.hostWrite_takes _ _ _ _ ht]
    rfl
  · exact (hk.get _ _ 0 0 (radr_ne_of_ofs _ _ _ _ _ _ _ (by decide))).trans (Dev.get_put_same _ _ _ _ _ _)
  · exact (s.dev.regsKept_put _ _ _ 0 0 (.inl rfl)).trans (hk.mono fun _ => .inr)

theorem exec_next_none (ht : s.dev.takes (lpB p) 0x10C) (hn : s.dev.nextVc p = none) : exec (.next p) s = .next s := by
  change execNext p s = _
  unfold execNext
  rw [onLive_next _ _ (Dev.takes_live _ _ _ ht), Dev.hostWrite_takes _ _ _ _ ht]
  unfold Dev.bindNext
  rw [hn]

theorem exec_next_some (v : Fin 4) (ht : s.dev.takes (lpB p) 0x10C) (hn : s.dev.nextVc p = some v) : ∃ d',
    exec (.next p) s = .next { s with dev := d' } ∧
    d' = { s.dev with regs := d'.regs, lpipes := s.dev.lpipes.set p { s.dev.lpipes[p] with pend := some v } } ∧
    d'.getB (lpB p) R.LPIPE_STAT 2 = true ∧ s.dev.regsKept d' fun a => a = radr (lpB p) R.LPIPE_STAT := by
  refine ⟨s.dev.bindTo p v, ?_, s.dev.bindTo_spec p v⟩
  change execNext p s = _
  unfold execNext
  rw [onLive_next _ _ (Dev.takes_live _ _ _ ht), Dev.hostWrite_takes _ _ _ _ ht]
  unfold Dev.bindNext
  rw [hn]

theorem exec_check (ht : s.dev.takes (lpB p) 0x10C) : ∃ d',
    exec (.check p) s = .next { s with dev := d' } ∧
    d' = { s.dev with regs := d'.regs, lpipes := s.dev.lpipes.set p { s.dev.lpipes[p] with armed := true } } ∧
    d'.getB (lpB p) R.LPIPE_STAT 3 = true ∧ s.dev.regsKept d' fun a => a = radr (lpB p) R.LPIPE_STAT := by
  refine ⟨s.dev.armCheck p, ?_, s.dev.armCheck_spec p⟩
  change execCheck p s = _
  unfold execCheck
  rw [onLive_next _ _ (Dev.takes_live _ _ _ ht), Dev.hostWrite_takes _ _ _ _ ht]

/-- The delay after a layer end arms the check, once for each layer end (R284). -/
theorem exec_recoatCheckArm (t : Nat) (hlive : s.dev.dead = false) (hmem : t ∈ s.dev.lpipes[p].ends) (hup : s.dev.up (lpB p) = true)
    (hen : s.dev.getB (lpB p) R.LPIPE_RC_CTL 0 = true) (hpast : s.dev.past t (1000 * s.dev.getF (lpB p) R.LPIPE_RC_CTL 31 16) = true) : ∃ d',
    exec (.recoatCheckArm p) s = .next { s with dev := d' } ∧
    d' = { s.dev with
      regs := d'.regs, lpipes := s.dev.lpipes.set p { s.dev.lpipes[p] with
        armed := true
        ends := s.dev.lpipes[p].ends.filter fun x =>
          ¬ s.dev.past x (1000 * s.dev.getF (lpB p) R.LPIPE_RC_CTL 31 16) = true } } ∧
    d'.getB (lpB p) R.LPIPE_STAT 3 = true ∧ s.dev.regsKept d' fun a => a = radr (lpB p) R.LPIPE_STAT := by
  have hne : (s.dev.endsDue p).isEmpty = false := by
    rw [List.isEmpty_eq_false_iff]
    exact List.ne_nil_of_mem (List.mem_filter.mpr ⟨hmem, hpast⟩)
  have hcond : (s.dev.up (lpB p) && !(s.dev.endsDue p).isEmpty) = true := by rw [hup, hne]; rfl
  have hends : (s.dev.lpipes[p].ends.filter fun t => t ∉ s.dev.endsDue p) =
      s.dev.lpipes[p].ends.filter fun x => ¬ s.dev.past x (1000 * s.dev.getF (lpB p) R.LPIPE_RC_CTL 31 16) = true :=
    List.filter_congr fun x hx => decide_eq_decide.mpr (not_congr (by rw [Dev.endsDue, List.mem_filter]; exact and_iff_right hx))
  obtain ⟨d1, hd1⟩ : ∃ x, x = s.dev.lpMod p fun x => { x with ends := x.ends.filter fun t => t ∉ s.dev.endsDue p } := ⟨_, rfl⟩
  obtain ⟨hf, hb, hk⟩ := d1.armCheck_spec p
  have hexec : exec (.recoatCheckArm p) s = .next { s with dev := d1.armCheck p } := by
    change execRecoatCheckArm p s = _
    unfold execRecoatCheckArm
    rw [onLive_next _ _ hlive, hd1]
    refine congrArg (fun e => Host.Outcome.next { s with dev := e }) ?_
    rw [Dev.when_of _ _ hcond]
    exact if_pos hen
  have hk1 : s.dev.regsKept d1 fun a => a = radr (lpB p) R.LPIPE_STAT := by rw [hd1]; exact fun _ _ => rfl
  have hl : d1.lpipes.set p { d1.lpipes[p] with armed := true } = s.dev.lpipes.set p { s.dev.lpipes[p] with
        armed := true
        ends := s.dev.lpipes[p].ends.filter fun x =>
          ¬ s.dev.past x (1000 * s.dev.getF (lpB p) R.LPIPE_RC_CTL 31 16) = true } := by
    rw [hd1, ← hends]
    exact vmod_vmod s.dev.lpipes p (fun x => { x with ends := x.ends.filter fun t => t ∉ s.dev.endsDue p }) fun x => { x with armed := true }
  have hc : d1 = { s.dev with lpipes := d1.lpipes } := by rw [hd1]; rfl
  refine ⟨d1.armCheck p, hexec, ?_, hb, hk1.trans hk⟩
  generalize d1.armCheck p = e at hf
  rw [hl] at hf
  clear hl hd1
  rw [hc] at hf
  exact hf

end

end Sys2Proof.Machine
end

section
/-! Work of a layer pipeline on a frame (R281 to R286, R291). -/

namespace Sys2Proof.Machine

/-- Work of a layer pipeline that leaves its port and the other pipeline. -/
structure Dev.lpWork (p : Fin 2) (d e : Dev) : Prop where
  frame : d.changes [.regs, .vecs, .fabric, .lights, .lpipes, .fresh] e
  other : ∀ q : Fin 2, q ≠ p → e.lpipes[q] = d.lpipes[q]
  port : ∀ (r : Reg) (i j : Nat), r.ofs i j < 0x1000 → e.get (csiB p) r i j = d.get (csiB p) r i j

theorem Dev.lpWork.trans {p : Fin 2} {d e f : Dev} (k : Dev.lpWork p d e) (k' : Dev.lpWork p e f) : Dev.lpWork p d f :=
  ⟨k.frame.trans k'.frame, fun q hq => (k'.other q hq).trans (k.other q hq), fun r i j ho => (k'.port r i j ho).trans (k.port r i j ho)⟩

/-- Work of a layer pipeline that also leaves the registers `W`, the armed check and the mark of a bad frame. -/
structure Dev.lpKeeps (W : List Reg) (p : Fin 2) (d e : Dev) : Prop extends Dev.lpWork p d e where
  own : e.lpipes[p].bad = d.lpipes[p].bad ∧ e.lpipes[p].armed = d.lpipes[p].armed
  regs : ∀ r ∈ W, e.get (lpB p) r = d.get (lpB p) r

namespace Dev.lpKeeps

variable {W : List Reg} {p : Fin 2} {d e f : Dev}

theorem refl (d : Dev) : lpKeeps W p d d := ⟨⟨.refl _ _, fun _ _ => rfl, fun _ _ _ _ => rfl⟩, ⟨rfl, rfl⟩, fun _ _ => rfl⟩

theorem trans (k : lpKeeps W p d e) (k' : lpKeeps W p e f) : lpKeeps W p d f :=
  ⟨k.tolpWork.trans k'.tolpWork, ⟨k'.own.1.trans k.own.1, k'.own.2.trans k.own.2⟩, fun r hr => (k'.regs r hr).trans (k.regs r hr)⟩

theorem mono {V : List Reg} (k : lpKeeps W p d e) (h : V ⊆ W) : lpKeeps V p d e :=
  ⟨k.tolpWork, k.own, fun r hr => k.regs r (h hr)⟩

theorem ite {c : Prop} [Decidable c] (k : lpKeeps W p d e) (k' : lpKeeps W p d f) : lpKeeps W p d (if c then e else f) := by
  split <;> assumption

theorem foldl {α : Type} {g : Dev → α → Dev} (l : List α) (k : lpKeeps W p d e) (hg : ∀ x, ∀ a ∈ l, lpKeeps W p d x → lpKeeps W p d (g x a)) :
    lpKeeps W p d (l.foldl g e) := by
  induction l generalizing e with
  | nil => exact k
  | cons a l ih =>
    exact ih (hg e a List.mem_cons_self k) fun x b hb => hg x b (List.mem_cons_of_mem a hb)

variable (k : lpKeeps W p d e)
include k

/-- A step that leaves the pipelines. -/
theorem beside {F : List Part} (k' : e.changes F f) (hs : F ⊆ [.regs, .vecs, .fabric, .lights, .lpipes, .fresh]) (hl : f.lpipes = e.lpipes)
    (hp : ∀ (r : Reg) (i j : Nat), r.ofs i j < 0x1000 → f.get (csiB p) r i j = e.get (csiB p) r i j)
    (hr : ∀ r ∈ W, f.get (lpB p) r = e.get (lpB p) r) : lpKeeps W p d f :=
  k.trans ⟨⟨k'.mono hs, fun _ _ => by rw [hl], hp⟩, ⟨by rw [hl], by rw [hl]⟩, hr⟩

/-- A write to a register of another block than the port, none of those kept. -/
theorem put {b : Blk} {r : Reg} {i j : Nat} (hb : csiB p ≠ b) (ho : r.ofs i j < 0x1000) (hd : ∀ q ∈ W, radr (lpB p) q ≠ radr b r i j) (v : Word) :
    lpKeeps W p d (e.put b r v i j) :=
  k.beside (e.put_changes b r v i j) (by decide) rfl
    (fun _ _ _ hq => Dev.get_put_ne _ _ _ _ _ _ _ _ _ _ (radr_ne_of_blk _ _ _ _ _ _ _ _ hb hq ho))
    fun q hq => Dev.get_put_ne _ _ _ _ _ _ _ _ _ _ (hd q hq)

theorem own_put {r : Reg} {i j : Nat} (ho : r.ofs i j < 0x1000) (hd : ∀ q ∈ W, q.ofs 0 0 ≠ r.ofs i j) (v : Word) :
    lpKeeps W p d (e.put (lpB p) r v i j) :=
  k.put (lpB_ne_csi p).symm ho (fun q hq => radr_ne_of_ofs _ _ _ _ _ _ _ (hd q hq)) v

variable (hW : ∀ q ∈ W, q.ofs 0 0 < 0x1000)

theorem lights (g : Light → Light) (i : Fin 4) : lpKeeps W p d (e.lgtMod i g) :=
  k.beside (F := [.lights]) rfl (by decide) rfl (fun _ _ _ _ => rfl) fun _ _ => rfl

theorem lpMod {g : Lpipe → Lpipe} (hg : ∀ x, (g x).bad = x.bad ∧ (g x).armed = x.armed) : lpKeeps W p d (e.lpMod p g) := by
  have hs : (e.lpMod p g).lpipes[p] = g e.lpipes[p] := vmod_same _ _ _
  exact k.trans ⟨⟨rfl, fun q hq => vmod_ne _ _ hq, fun _ _ _ _ => rfl⟩, by rw [hs]; exact hg _, fun _ _ => rfl⟩

include hW

theorem light_put {r : Reg} {i j : Nat} (ho : r.ofs i j < 0x1000) (v : Word) : lpKeeps W p d (e.put light r v i j) :=
  k.put (csiB_ne_light p) ho (fun q hq => radr_ne_of_blk _ _ _ _ _ _ _ _ (lpB_ne_light p) (hW q hq) ho) v

theorem lgtEvent (i : Fin 4) (n : Nat) : lpKeeps W p d (e.lgtEvent i n) := by
  have ho : R.LGT_EVT.ofs i.val 0 < 0x1000 := by revert i; decide
  exact k.beside (e.event_changes _ _ _ _ _ _) (by decide) (by rw [Dev.lgtEvent, Dev.event_frame])
    (fun q a b hq => e.event_get_ne (csiB_ne_hif p) hq _ _ (by decide) (radr_ne_of_blk _ _ _ _ _ _ _ _ (csiB_ne_light p) hq ho))
    fun q hq => e.event_get_ne (lpB_ne_hif p) (hW q hq) _ _ (by decide) (radr_ne_of_blk _ _ _ _ _ _ _ _ (lpB_ne_light p) (hW q hq) ho)

theorem lpEvent (hd : ∀ q ∈ W, q.ofs 0 0 ≠ R.LPIPE_EVT.ofs 0 0) (n : Nat) : lpKeeps W p d (e.lpEvent p n) :=
  k.beside (e.event_changes _ _ _ _ _ _) (by decide) (by rw [Dev.lpEvent, Dev.event_frame])
    (fun q a b hq => e.event_get_ne (csiB_ne_hif p) hq _ _ (by decide) (radr_ne_of_blk _ _ _ _ _ _ _ _ (lpB_ne_csi p).symm hq (by decide)))
    fun q hq => e.event_get_ne (lpB_ne_hif p) (hW q hq) _ _ (by decide) (radr_ne_of_ofs _ _ _ _ _ _ _ (hd q hq))

theorem detect (hd : ∀ q ∈ W, q.ofs 0 0 ≠ R.FLT_STAT.ofs 0 0) (n a : Nat) (tr inj al : Bool) :
    lpKeeps W p d (e.detect (lpB p) none n a tr inj al) :=
  k.beside (e.detect_changes _ _ _ _ _ _ _) (by decide) (by rw [Dev.detect_frame])
    (fun q i j hq => e.detect_get (csiB_ne_hif p) hq _ _ _ _ _ _ (csiB_ne_fltc p)
      (radr_ne_of_blk _ _ _ _ _ _ _ _ (lpB_ne_csi p).symm hq (by decide)))
    fun q hq => e.detect_get (lpB_ne_hif p) (hW q hq) _ _ _ _ _ _ (lpB_ne_fltc p) (radr_ne_of_ofs _ _ _ _ _ _ _ (hd q hq))

end Dev.lpKeeps

/-- Registers that count frames and checks, and LPIPE_STAT. -/
def lpShown : List Reg := [R.LPIPE_FRAMES, R.LPIPE_BADFRM, R.LPIPE_CHECKS, R.LPIPE_STAT]

theorem lpShown_page : ∀ q ∈ lpShown, q.ofs 0 0 < 0x1000 := by decide

section
variable {p : Fin 2} {d e : Dev} (k : Dev.lpKeeps lpShown p d e)
include k

theorem Dev.lpKeeps.shownEvent (n : Nat) : Dev.lpKeeps lpShown p d (e.lpEvent p n) := k.lpEvent lpShown_page (by decide) n

theorem Dev.lpKeeps.badBefore (good : Bool) : Dev.lpKeeps lpShown p d (e.lpBadBefore p good) := by
  unfold Dev.lpBadBefore
  refine .ite k (Dev.lpKeeps.shownEvent (.ite ?_ ?_) 2)
  · exact k.detect lpShown_page (by decide) _ _ _ _ _
  · exact k.detect lpShown_page (by decide) _ _ _ _ _

/-- A statistics window of a frame (R283). -/
theorem Dev.lpKeeps.winStat (bits : Nat) (raw lines : List (List Nat)) {w : Nat} (hw : w < 16) :
    Dev.lpKeeps lpShown p d (e.winStat p bits raw lines w) := by
  have hr : ∀ q ∈ lpShown, q.ofs 0 0 < 0x200 := by decide
  have h0 : R.LPIPE_WSTAT_R.ofs w 0 = 0x300 + 0x10 * w := rfl
  have h1 : R.LPIPE_WSTAT_G.ofs w 0 = 0x304 + 0x10 * w := rfl
  have h2 : R.LPIPE_WSTAT_B.ofs w 0 = 0x308 + 0x10 * w := rfl
  have h3 : R.LPIPE_WSTAT_SATCNT.ofs w 0 = 0x30C + 0x10 * w := rfl
  unfold Dev.winStat
  extract_lets b r0 r1 ps m mean sat
  have hp : ∀ {f : Dev} (r : Reg) (o : Nat) (v : Word), r.ofs w 0 = o + 0x10 * w → 0x300 ≤ o → o < 0x310 → Dev.lpKeeps lpShown p d f →
      Dev.lpKeeps lpShown p d (f.put (lpB p) r v w) := fun r o v ho h3 h4 hk =>
    hk.own_put (by omega) (fun q hq => by have := hr q hq; omega) v
  exact hp _ _ _ h3 (by decide) (by decide) (hp _ _ _ h2 (by decide) (by decide) (hp _ _ _ h1 (by decide) (by decide)
    (hp _ _ _ h0 (by decide) (by decide) k)))

/-- A frame reaches the feedback of a line (R291). -/
theorem Dev.lpKeeps.fbFrame (vc i : Fin 4) : Dev.lpKeeps lpShown p d (e.fbFrame p vc i) := by
  have ho : R.LGT_SCALE0.ofs i.val 0 < 0x1000 ∧ R.LGT_SCALE1.ofs i.val 0 < 0x1000 ∧ R.LGT_FBSKIP.ofs 0 0 < 0x1000 := by revert i; decide
  unfold Dev.fbFrame
  extract_lets fb s w0 w1 d1
  have h1 : Dev.lpKeeps lpShown p d d1 := k.beside (F := [.fresh]) rfl (by decide) rfl (fun _ _ _ _ => rfl) fun _ _ => rfl
  refine .ite k (.ite ((k.light_put lpShown_page ho.2.2 _).lgtEvent lpShown_page i 5) (.ite h1 ?_))
  exact ((h1.light_put lpShown_page ho.1 _).light_put lpShown_page ho.2.1 _).lights _ i

/-- The archive of a frame (R286). -/
theorem Dev.lpKeeps.archive (vc : Fin 4) (bits : Nat) (raw : List (List Nat)) (ws : List Word) :
    Dev.lpKeeps lpShown p d (e.lpArchive p vc bits raw ws) := by
  unfold Dev.lpArchive
  extract_lets b div due d1 bytes
  have h1 : Dev.lpKeeps lpShown p d d1 := k.lpMod fun _ => ⟨rfl, rfl⟩
  exact .ite k (.ite (h1.own_put (by decide) (by decide) _) (h1.lpMod fun _ => ⟨rfl, rfl⟩))

end

/-- The frame count of a pipeline's check: its record's words. -/
theorem recoatWords_length (d : Dev) (p : Fin 2) (vc : Fin 4) (c : Option Recoat) : (d.recoatWords p vc c).length = 16 := by
  unfold Dev.recoatWords
  simp

end Sys2Proof.Machine
end

section
/-! A frame of the bound channel (R279 to R285, R296). -/

namespace Sys2Proof.Machine

section
variable (d : Dev) (p : Fin 2)

/-- A count goes up by one; the other registers shown stay. -/
theorem Dev.bump_lpWork {r : Reg} (ho : r.ofs 0 0 < 0x1000) :
    Dev.lpWork p d (d.bump (lpB p) r) ∧ (d.bump (lpB p) r).lpipes = d.lpipes ∧
    (d.bump (lpB p) r).getN (lpB p) r = min 0xFFFFFFFF (d.getN (lpB p) r + 1) ∧
    ∀ q : Reg, q.ofs 0 0 ≠ r.ofs 0 0 → (d.bump (lpB p) r).get (lpB p) q = d.get (lpB p) q := by
  have h : Dev.lpKeeps [] p d (d.bump (lpB p) r) := (Dev.lpKeeps.refl d).own_put ho (fun _ hq => (List.not_mem_nil hq).elim) _
  exact ⟨h.tolpWork, rfl, Dev.getN_bump _ _ _ _ _, fun q hq => Dev.get_put_ne _ _ _ _ _ _ _ _ _ _ (radr_ne_of_ofs _ _ _ _ _ _ _ hq)⟩

/-- A check that was made (R285). -/
theorem Dev.recoatDone_spec {ws : List Word} (hws : ws.length = 16) :
    Dev.lpWork p d (d.recoatDone p ws) ∧
    (d.recoatDone p ws).lpipes[p].bad = d.lpipes[p].bad ∧ (d.recoatDone p ws).lpipes[p].armed = false ∧
    (d.recoatDone p ws).get (lpB p) R.LPIPE_FRAMES = d.get (lpB p) R.LPIPE_FRAMES ∧
    (d.recoatDone p ws).getN (lpB p) R.LPIPE_CHECKS = min 0xFFFFFFFF (d.getN (lpB p) R.LPIPE_CHECKS + 1) ∧
    (d.recoatDone p ws).getB (lpB p) R.LPIPE_STAT 3 = false := by
  have hr : ∀ q ∈ lpShown, q.ofs 0 0 < 0x180 := by decide
  unfold Dev.recoatDone
  extract_lets b d1 d2 d3
  have hl1 : d1.lpipes[p] = _ := vmod_same d.lpipes p _
  have h1 : Dev.lpWork p d d1 ∧ d1.lpipes[p].bad = d.lpipes[p].bad ∧ d1.lpipes[p].armed = false ∧
      (∀ q ∈ [R.LPIPE_FRAMES, R.LPIPE_CHECKS], d1.get (lpB p) q = d.get (lpB p) q) ∧ d1.getB (lpB p) R.LPIPE_STAT 3 = false := by
    have hport : ∀ (r : Reg) (i j : Nat), r.ofs i j < 0x1000 → d1.get (csiB p) r i j = d.get (csiB p) r i j := fun r i j ho =>
      Dev.get_put_ne _ _ _ _ _ _ _ _ _ _ (radr_ne_of_blk _ _ _ _ _ _ _ _ (lpB_ne_csi p).symm ho (by decide))
    refine ⟨⟨rfl, fun q hq => vmod_ne _ _ hq, hport⟩, ?_, ?_, fun q hq => ?_, ?_⟩
    · rw [hl1]
    · rw [hl1]
    · exact Dev.get_put_ne _ _ _ _ _ _ _ _ _ _ (radr_ne_of_ofs _ _ _ _ _ _ _
        ((by decide : ∀ q ∈ [R.LPIPE_FRAMES, R.LPIPE_CHECKS], q.ofs 0 0 ≠ R.LPIPE_STAT.ofs 0 0) q hq))
    · exact Dev.getB_putB_same _ _ _ _ _ _ (by decide)
  clear_value d1
  obtain ⟨hw1, hb1, ha1, hg1, hs1⟩ := h1
  obtain ⟨e, he⟩ : ∃ x, x = ws.zipIdx.foldl (fun (e : Dev) x => e.put (lpB p) R.LPIPE_LAST_REC x.1 x.2) d1 := ⟨_, rfl⟩
  have hke : Dev.lpKeeps lpShown p d1 e := by
    rw [he]
    refine Dev.lpKeeps.foldl _ (.refl _) fun x a ha hx => ?_
    have hlt : a.2 < 16 := by have := List.snd_lt_of_mem_zipIdx ha; omega
    have ho : R.LPIPE_LAST_REC.ofs a.2 0 = 0x180 + 4 * a.2 := rfl
    exact hx.own_put (by omega) (fun q hq => by have := hr q hq; omega) _
  have hd2 : d2 = e.bump (lpB p) R.LPIPE_CHECKS := by rw [he]
  clear_value d2
  obtain ⟨hw2, hl2, hn2, hg2⟩ := e.bump_lpWork p (r := R.LPIPE_CHECKS) (by decide)
  rw [← hd2] at hw2 hl2 hn2 hg2
  have hk3 : Dev.lpKeeps lpShown p d2 (d3.lpEvent p 1) := by
    refine Dev.lpKeeps.shownEvent ?_ 1
    simp only [d3]
    exact .ite (((Dev.lpKeeps.refl d2).own_put (by decide) (by decide) _).shownEvent 0) (.refl _)
  generalize d3.lpEvent p 1 = f at hk3 ⊢
  refine ⟨(hw1.trans hke.tolpWork).trans (hw2.trans hk3.tolpWork), ?_, ?_, ?_, ?_, ?_⟩
  · rw [hk3.own.1, hl2, hke.own.1, hb1]
  · rw [hk3.own.2, hl2, hke.own.2, ha1]
  · rw [hk3.regs _ (by decide), hg2 _ (by decide), hke.regs _ (by decide), hg1 _ (by decide)]
  · rw [Dev.getN, hk3.regs _ (by decide), ← Dev.getN, hn2, Dev.getN, hke.regs _ (by decide), hg1 _ (by decide), Dev.getN]
  · rw [Dev.getB, hk3.regs _ (by decide), hg2 _ (by decide), hke.regs _ (by decide)]
    exact hs1

/-- A frame of the bound channel is counted, and marked as bad or good. -/
def Dev.frameCounted (d : Dev) (p : Fin 2) (good : Bool) : Dev :=
  ((d.lpBadBefore p good).lpMod p fun x => { x with bad := !good }).bump (lpB p) R.LPIPE_FRAMES

theorem Dev.frameCounted_spec (good : Bool) :
    Dev.lpWork p d (d.frameCounted p good) ∧ (d.frameCounted p good).lpipes[p].bad = !good ∧
    (d.frameCounted p good).lpipes[p].armed = d.lpipes[p].armed ∧
    (d.frameCounted p good).getN (lpB p) R.LPIPE_FRAMES = min 0xFFFFFFFF (d.getN (lpB p) R.LPIPE_FRAMES + 1) ∧
    ∀ q ∈ [R.LPIPE_BADFRM, R.LPIPE_CHECKS], (d.frameCounted p good).get (lpB p) q = d.get (lpB p) q := by
  obtain ⟨d0, hd0⟩ : ∃ x, x = (d.lpBadBefore p good).lpMod p fun x => { x with bad := !good } := ⟨_, rfl⟩
  have hk0 : Dev.lpKeeps lpShown p d (d.lpBadBefore p good) := (Dev.lpKeeps.refl d).badBefore good
  unfold Dev.frameCounted
  rw [← hd0]
  generalize d.lpBadBefore p good = dB at hk0 hd0
  have hl0 : d0.lpipes[p] = { dB.lpipes[p] with bad := !good } := by
    rw [hd0]
    exact vmod_same _ _ _
  have hw0 : Dev.lpWork p d d0 := by
    refine hk0.tolpWork.trans ?_
    rw [hd0]
    exact ⟨rfl, fun q hq => vmod_ne _ _ hq, fun _ _ _ _ => rfl⟩
  have hg0 : ∀ q ∈ lpShown, d0.get (lpB p) q = d.get (lpB p) q := fun q hq => by
    rw [← hk0.regs q hq, hd0]
    rfl
  obtain ⟨hw1, hl1, hn1, hg1⟩ := d0.bump_lpWork p (r := R.LPIPE_FRAMES) (by decide)
  generalize d0.bump (lpB p) R.LPIPE_FRAMES = d1 at hw1 hl1 hn1 hg1 ⊢
  refine ⟨hw0.trans hw1, by rw [hl1, hl0], ?_, ?_, fun q hq => ?_⟩
  · rw [hl1, hl0]
    exact hk0.own.2
  · rw [hn1, Dev.getN, hg0 _ (by decide), Dev.getN]
  · rw [hg1 q ((by decide : ∀ q ∈ [R.LPIPE_BADFRM, R.LPIPE_CHECKS], q.ofs 0 0 ≠ R.LPIPE_FRAMES.ofs 0 0) q hq)]
    exact hg0 q ((by decide : [R.LPIPE_BADFRM, R.LPIPE_CHECKS] ⊆ lpShown) hq)

variable (vc : Fin 4) (bits : Nat) (raw : List (List Nat))

/-- A bad frame is counted and leaves the check armed (R281). -/
theorem Dev.lpFrame_bad :
    let e := d.lpFrame p vc bits raw false
    Dev.lpWork p d e ∧ e.lpipes[p].bad = true ∧ e.lpipes[p].armed = d.lpipes[p].armed ∧
    e.getN (lpB p) R.LPIPE_FRAMES = min 0xFFFFFFFF (d.getN (lpB p) R.LPIPE_FRAMES + 1) ∧
    e.getN (lpB p) R.LPIPE_BADFRM = min 0xFFFFFFFF (d.getN (lpB p) R.LPIPE_BADFRM + 1) := by
  intro e
  obtain ⟨hw, hb, ha, hn, hg⟩ := d.frameCounted_spec p false
  have he : e = ((d.frameCounted p false).bump (lpB p) R.LPIPE_BADFRM).lpArchive p vc bits raw ((d.frameCounted p false).recoatWords p vc none) := rfl
  generalize d.frameCounted p false = d1 at hw hb ha hn hg he
  clear_value e
  obtain ⟨hw1, hl1, hn1, hg1⟩ := d1.bump_lpWork p (r := R.LPIPE_BADFRM) (by decide)
  have hk : Dev.lpKeeps lpShown p (d1.bump (lpB p) R.LPIPE_BADFRM) e := by
    rw [he]
    exact (Dev.lpKeeps.refl _).archive vc bits raw _
  refine ⟨hw.trans (hw1.trans hk.tolpWork), ?_, ?_, ?_, ?_⟩
  · rw [hk.own.1, hl1, hb]
    rfl
  · rw [hk.own.2, hl1, ha]
  · rw [Dev.getN, hk.regs _ (by decide), hg1 _ (by decide), ← Dev.getN, hn]
  · rw [Dev.getN, hk.regs _ (by decide), ← Dev.getN, hn1, Dev.getN, hg _ (by decide), Dev.getN]

/-- A good frame makes the armed check (R284, R285). -/
theorem Dev.lpFrame_good :
    let e := d.lpFrame p vc bits raw true
    Dev.lpWork p d e ∧ e.lpipes[p].bad = false ∧ e.lpipes[p].armed = false ∧
    e.getN (lpB p) R.LPIPE_FRAMES = min 0xFFFFFFFF (d.getN (lpB p) R.LPIPE_FRAMES + 1) ∧
    (d.lpipes[p].armed = true → e.getN (lpB p) R.LPIPE_CHECKS = min 0xFFFFFFFF (d.getN (lpB p) R.LPIPE_CHECKS + 1) ∧
      e.getB (lpB p) R.LPIPE_STAT 3 = false) := by
  intro e
  obtain ⟨hw, hb, ha, hn, hg⟩ := d.frameCounted_spec p true
  obtain ⟨lines, d3, ws, hws, hk3, he⟩ : ∃ (lines : List (List Nat)) (d3 : Dev) (ws : List Word), ws.length = 16 ∧
      Dev.lpKeeps lpShown p (d.frameCounted p true) d3 ∧ e = (if d.lpipes[p].armed then d3.recoatDone p ws else d3).lpArchive p vc bits raw ws := by
    refine ⟨raw.map fun l => l.map fun v => v - d.getF (lpB p) R.LPIPE_BLACK 11 0, _, _, recoatWords_length _ _ _ _, ?_, rfl⟩
    refine Dev.lpKeeps.foldl _ (Dev.lpKeeps.foldl _ (.refl _) fun x w hmem hx => ?_) fun x i _ hx => hx.fbFrame vc i
    exact hx.winStat bits raw _ (List.mem_range.mp hmem)
  generalize d.frameCounted p true = d1 at hw hb ha hn hg hk3
  clear_value e
  obtain ⟨d4, hd4⟩ : ∃ x, x = if d.lpipes[p].armed then d3.recoatDone p ws else d3 := ⟨_, rfl⟩
  rw [← hd4] at he
  have hk : Dev.lpKeeps lpShown p d4 e := by
    rw [he]
    exact (Dev.lpKeeps.refl _).archive vc bits raw _
  have h4 : Dev.lpWork p d3 d4 ∧ d4.lpipes[p].bad = d3.lpipes[p].bad ∧ d4.lpipes[p].armed = false ∧
      d4.get (lpB p) R.LPIPE_FRAMES = d3.get (lpB p) R.LPIPE_FRAMES ∧
      (d.lpipes[p].armed = true → d4.getN (lpB p) R.LPIPE_CHECKS = min 0xFFFFFFFF (d3.getN (lpB p) R.LPIPE_CHECKS + 1) ∧
        d4.getB (lpB p) R.LPIPE_STAT 3 = false) := by
    by_cases harm : d.lpipes[p].armed = true
    · rw [if_pos harm] at hd4
      obtain ⟨h1, h2, h3, h5, h6, h7⟩ := d3.recoatDone_spec p hws
      rw [← hd4] at h1 h2 h3 h5 h6 h7
      exact ⟨h1, h2, h3, h5, fun _ => ⟨h6, h7⟩⟩
    · rw [if_neg harm] at hd4
      subst hd4
      exact ⟨(Dev.lpKeeps.refl (W := []) d4).tolpWork, rfl, by rw [hk3.own.2, ha]; exact Bool.eq_false_iff.mpr harm, rfl, fun h => absurd h harm⟩
  obtain ⟨hw4, hb4, ha4, hn4, hc4⟩ := h4
  refine ⟨((hw.trans hk3.tolpWork).trans hw4).trans hk.tolpWork, ?_, ?_, ?_, fun harm => ⟨?_, ?_⟩⟩
  · rw [hk.own.1, hb4, hk3.own.1, hb]
    rfl
  · rw [hk.own.2, ha4]
  · rw [Dev.getN, hk.regs _ (by decide), hn4, hk3.regs _ (by decide), ← Dev.getN, hn]
  · rw [Dev.getN, hk.regs _ (by decide), ← Dev.getN, (hc4 harm).1, Dev.getN, hk3.regs _ (by decide), hg _ (by decide), Dev.getN]
  · rw [Dev.getB, hk.regs _ (by decide)]
    exact (hc4 harm).2

end

/-! The port (R279, R296). -/

/-- Work of a port on a frame that leaves its frame count, its count of packets discarded and the pipeline. -/
structure Dev.csiKeeps (p : Fin 2) (vc : Fin 4) (d e : Dev) : Prop where
  frame : d.changes [.regs, .vecs, .fabric] e
  pipe : ∀ q : Reg, q.ofs 0 0 < 0x1000 → q.ofs 0 0 ≠ R.FLT_STAT.ofs 0 0 → e.get (lpB p) q = d.get (lpB p) q
  frames : e.get (csiB p) R.CSI_VC_FRAMES vc.val = d.get (csiB p) R.CSI_VC_FRAMES vc.val
  discard : e.get (csiB p) R.CSI_DISCARD = d.get (csiB p) R.CSI_DISCARD

namespace Dev.csiKeeps

variable {p : Fin 2} {vc : Fin 4} {d e f : Dev}

theorem refl (d : Dev) : csiKeeps p vc d d := ⟨.refl _ _, fun _ _ _ => rfl, rfl, rfl⟩

theorem trans (k : csiKeeps p vc d e) (k' : csiKeeps p vc e f) : csiKeeps p vc d f :=
  ⟨k.frame.trans k'.frame, fun q h h' => (k'.pipe q h h').trans (k.pipe q h h'), k'.frames.trans k.frames, k'.discard.trans k.discard⟩

variable (k : csiKeeps p vc d e)
include k

theorem put {r : Reg} {i : Nat} (ho : r.ofs i 0 < 0x1000) (hf : R.CSI_VC_FRAMES.ofs vc.val 0 ≠ r.ofs i 0) (hd : R.CSI_DISCARD.ofs 0 0 ≠ r.ofs i 0)
    (v : Word) : csiKeeps p vc d (e.put (csiB p) r v i 0) :=
  k.trans ⟨(e.put_changes _ _ _ i 0).mono (by decide), fun _ h _ => Dev.get_put_ne _ _ _ _ _ _ _ _ _ _ (radr_ne_of_blk _ _ _ _ _ _ _ _ (lpB_ne_csi p) h ho),
    Dev.get_put_ne _ _ _ _ _ _ _ _ _ _ (radr_ne_of_ofs _ _ _ _ _ _ _ hf), Dev.get_put_ne _ _ _ _ _ _ _ _ _ _ (radr_ne_of_ofs _ _ _ _ _ _ _ hd)⟩

theorem raise (n : Nat) : csiKeeps p vc d (e.raise (csiB p) none n) := by
  have ho : R.CSI_VC_FRAMES.ofs vc.val 0 < 0x1000 ∧ R.CSI_VC_FRAMES.ofs vc.val 0 ≠ R.FLT_STAT.ofs 0 0 :=
    (by decide : ∀ v : Fin 4, R.CSI_VC_FRAMES.ofs v.val 0 < 0x1000 ∧ R.CSI_VC_FRAMES.ofs v.val 0 ≠ R.FLT_STAT.ofs 0 0) vc
  refine k.trans ⟨e.detect_changes _ _ _ _ _ _ _, fun q h _ => ?_, ?_, ?_⟩
  · exact e.detect_get (lpB_ne_hif p) h _ _ _ _ _ _ (lpB_ne_fltc p) (radr_ne_of_blk _ _ _ _ _ _ _ _ (lpB_ne_csi p) h (by decide))
  · exact e.detect_get (csiB_ne_hif p) ho.1 _ _ _ _ _ _ (csiB_ne_fltc p) (radr_ne_of_ofs _ _ _ _ _ _ _ ho.2)
  · exact e.detect_get (csiB_ne_hif p) (by decide) _ _ _ _ _ _ (csiB_ne_fltc p) (radr_ne_of_ofs _ _ _ _ _ _ _ (by decide))

/-- Lines with a CRC error are counted and raise kind 1. -/
theorem crcErrs (l : List CsiLine) (hf : R.CSI_VC_FRAMES.ofs vc.val 0 ≠ R.CSI_CRCERR.ofs 0 0) :
    csiKeeps p vc d (l.foldl (fun (e : Dev) _ => (e.bump (csiB p) R.CSI_CRCERR).raise (csiB p) none 1) e) := by
  induction l generalizing e with
  | nil => exact k
  | cons _ l ih => exact ih ((k.put (by decide) hf (by decide) _).raise 1)

end Dev.csiKeeps

/-- What a port does with a frame leaves everything but its counts, and posts its faults. -/
theorem Dev.csiFrame_spec (d : Dev) (p : Fin 2) (f : CsiFrame) (hh : f.hdrUncorr = false) :
    let x := d.csiFrame p f
    x.2 = (f.lines.filter (d.csiTakes p f.vc)).map (fun l => l.pixels.map (· % 2 ^ d.csiBits p f.vc)) ∧
    d.changes [.regs, .vecs, .fabric] x.1 ∧
    (∀ q : Reg, q.ofs 0 0 < 0x1000 → q.ofs 0 0 ≠ R.FLT_STAT.ofs 0 0 → x.1.get (lpB p) q = d.get (lpB p) q) ∧
    x.1.get (csiB p) R.CSI_VC_FRAMES f.vc.val = d.get (csiB p) R.CSI_VC_FRAMES f.vc.val + 1 ∧
    x.1.getN (csiB p) R.CSI_DISCARD = min 0xFFFFFFFF (d.getN (csiB p) R.CSI_DISCARD +
      (f.lines.length - (f.lines.filter (d.csiTakes p f.vc)).length)) := by
  have ho : ∀ v : Fin 4, R.CSI_VC_FRAMES.ofs v.val 0 < 0x1000 ∧ R.CSI_VC_LINES.ofs v.val 0 < 0x1000 ∧
      R.CSI_VC_FRAMES.ofs v.val 0 ≠ R.CSI_STAT.ofs 0 0 ∧ R.CSI_VC_FRAMES.ofs v.val 0 ≠ R.CSI_VC_LINES.ofs v.val 0 ∧
      R.CSI_VC_FRAMES.ofs v.val 0 ≠ R.CSI_ECCFIX.ofs 0 0 ∧ R.CSI_VC_FRAMES.ofs v.val 0 ≠ R.CSI_CRCERR.ofs 0 0 ∧
      R.CSI_VC_FRAMES.ofs v.val 0 ≠ R.CSI_DISCARD.ofs 0 0 ∧ R.CSI_DISCARD.ofs 0 0 ≠ R.CSI_VC_LINES.ofs v.val 0 := by decide
  obtain ⟨h0, h1, h2, h3, h4, h5, h6, h7⟩ := ho f.vc
  unfold Dev.csiFrame
  extract_lets c v used lines d1 d2 d3 d4 d5
  have hk1 : Dev.csiKeeps p f.vc d d1 := (Dev.csiKeeps.put (.refl d) (by decide) h2 (by decide) _).put (by decide) h2 (by decide) _
  clear_value d1
  obtain ⟨e, he⟩ : ∃ x, x = d1.put (csiB p) R.CSI_VC_FRAMES (d.get (csiB p) R.CSI_VC_FRAMES f.vc.val + 1) f.vc.val := ⟨_, rfl⟩
  have hfr : e.get (csiB p) R.CSI_VC_FRAMES f.vc.val = d.get (csiB p) R.CSI_VC_FRAMES f.vc.val + 1 := by
    rw [he]
    exact Dev.get_put_same _ _ _ _ _ _
  have hce : d1.changes [.regs, .vecs, .fabric] e := by
    rw [he]
    exact (d1.put_changes _ _ _ _ _).mono (by decide)
  have hpe : ∀ q : Reg, q.ofs 0 0 < 0x1000 → e.get (lpB p) q = d1.get (lpB p) q := fun q hq => by
    rw [he]
    exact Dev.get_put_ne _ _ _ _ _ _ _ _ _ _ (radr_ne_of_blk _ _ _ _ _ _ _ _ (lpB_ne_csi p) hq h0)
  have hde : e.get (csiB p) R.CSI_DISCARD = d1.get (csiB p) R.CSI_DISCARD := by
    rw [he]
    exact Dev.get_put_ne _ _ _ _ _ _ _ _ _ _ (radr_ne_of_ofs _ _ _ _ _ _ _ h6.symm)
  have hd4 : d4 = d3 := if_neg (by rw [hh]; decide)
  have hd2 : d2 = e.putF (csiB p) R.CSI_VC_LINES 31 16 (min 0xFFFF lines.length) f.vc.val := by rw [he]
  have hk5 : Dev.csiKeeps p f.vc e d5 := by
    simp only [d5]
    rw [hd4]
    refine Dev.csiKeeps.crcErrs ?_ _ h5
    simp only [d3]
    rw [hd2]
    exact (Dev.csiKeeps.put (.refl e) h1 h3 h7 _).put (by decide) h4 (by decide) _
  clear_value d5
  refine ⟨rfl, ?_, fun q hq hf => ?_, ?_, ?_⟩
  · exact ((hk1.frame.trans hce).trans hk5.frame).trans ((d5.put_changes _ _ _ _ _).mono (by decide))
  · refine (Dev.get_put_ne _ _ _ _ _ _ _ _ _ _ (radr_ne_of_blk _ _ _ _ _ _ _ _ (lpB_ne_csi p) hq (by decide))).trans ?_
    rw [hk5.pipe q hq hf, hpe q hq, hk1.pipe q hq hf]
  · refine (Dev.get_put_ne _ _ _ _ _ _ _ _ _ _ (radr_ne_of_ofs _ _ _ _ _ _ _ h6)).trans ?_
    rw [hk5.frames, hfr]
  · rw [Dev.getN_bump_by, Dev.getN, hk5.discard, hde, hk1.discard, Dev.getN]

end Sys2Proof.Machine
end

section
/-! Layer frames, settled. -/

namespace Sys2Proof.Machine

theorem rawBits_ne {n : Nat} (h : n ∈ [0x2A, 0x2B, 0x2C]) : rawBits (BitVec.ofNat 8 n) ≠ 0 := by
  revert n
  decide

/-- LAYER_FRAME for the bound channel: the port's counts, then the frame at the pipeline. -/
theorem exec_layerFrame (s : State) (p : Fin 2) (f : CsiFrame) (hlive : s.dev.dead = false)
    (hsl : ∀ r : Fin 16, s.dev.flt.slices[r].unit = none) (hup : s.dev.up (csiB p) = true) (hctl : s.dev.getB (csiB p) R.CSI_CTL 0 = true)
    (hvc : s.dev.getB (csiB p) R.CSI_VC_CFG 8 f.vc.val = true) (hlp : s.dev.up (lpB p) = true) (hon : s.dev.getB (lpB p) R.LPIPE_CTL 0 = true)
    (hpend : s.dev.lpipes[p].pend ≠ some f.vc) (hbound : s.dev.getF (lpB p) R.LPIPE_STAT 1 0 = f.vc.val) (hh : f.hdrUncorr = false)
    (hlen : (f.lines.filter (s.dev.csiTakes p f.vc)).length = s.dev.getF (csiB p) R.CSI_VC_LINES 15 0 f.vc.val)
    (hpix : ∀ l ∈ f.lines.filter (s.dev.csiTakes p f.vc), l.pixels.length = s.dev.getF (csiB p) R.CSI_VC_CFG 23 12 f.vc.val) :
    exec (.layerFrame p f) s = .next { s with dev := ((s.dev.csiFrame p f).1.lpFrame p f.vc (s.dev.csiBits p f.vc) (s.dev.csiFrame p f).2
      (!f.lines.any fun l => l.crcErr)) } := by
  have hcond : (s.dev.up (csiB p) && s.dev.getB (csiB p) R.CSI_CTL 0 && s.dev.getB (csiB p) R.CSI_VC_CFG 8 f.vc.val) = true := by
    rw [hup, hctl, hvc]
    rfl
  obtain ⟨hlines, hc, hpipe, -, -⟩ := s.dev.csiFrame_spec p f hh
  generalize hx : s.dev.csiFrame p f = x at hlines hc hpipe
  have hbind : x.1.bindNow p f.vc = x.1 := by
    unfold Dev.bindNow
    exact if_neg (by rw [hc.faultParts]; exact hpend)
  have hgood : (!(f.lines.any fun l => l.crcErr) && !f.hdrUncorr && decide (x.2.length = s.dev.getF (csiB p) R.CSI_VC_LINES 15 0 f.vc.val) &&
      x.2.all fun l => decide (l.length = s.dev.getF (csiB p) R.CSI_VC_CFG 23 12 f.vc.val)) = !f.lines.any fun l => l.crcErr := by
    have hall : (x.2.all fun l => decide (l.length = s.dev.getF (csiB p) R.CSI_VC_CFG 23 12 f.vc.val)) = true := by
      rw [hlines, List.all_eq_true]
      intro l hl
      obtain ⟨y, hy, rfl⟩ := List.mem_map.mp hl
      exact decide_eq_true (by rw [List.length_map]; exact hpix y hy)
    rw [hh, hall, hlines, List.length_map, decide_eq_true hlen]
    simp
  have hstat : x.1.getB (lpB p) R.LPIPE_CTL 0 ∧ x.1.getF (lpB p) R.LPIPE_STAT 1 0 = f.vc.val := by
    rw [Dev.getB, Dev.getF, hpipe _ (by decide) (by decide), hpipe _ (by decide) (by decide)]
    exact ⟨hon, hbound⟩
  change execLayerFrame p f s = _
  unfold execLayerFrame
  rw [onLive_next _ _ hlive]
  refine congrArg (fun e => Host.Outcome.next { s with dev := e }) ?_
  extract_lets c
  rw [Dev.when_of _ _ hcond, Dev.reached_none s.dev c none (hsl _), Dev.reached_none s.dev (lpB p) none (hsl _), hx]
  extract_lets y good d1
  rw [if_neg (not_not_intro hlp), show good = !f.lines.any fun l => l.crcErr from hgood]
  rw [show d1 = x.1 from hbind]
  exact if_pos hstat

theorem Dev.changes.pipeParts {d e : Dev} (h : d.changes [.regs, .vecs, .fabric, .lights, .lpipes, .fresh] e) :
    e = { d with regs := e.regs, vecs := e.vecs, fabric := e.fabric, lights := e.lights, lpipes := e.lpipes, fresh := e.fresh } :=
  congrArg (fun x : Dev => { x with
    regs := e.regs, vecs := e.vecs, fabric := e.fabric, lights := e.lights, lpipes := e.lpipes, fresh := e.fresh }) h

/-- Settles O39: the counts of a port, then of its pipeline, and the check that a good frame makes. -/
theorem layerFramesAndBindings : Obligations.LayerFramesAndBindings := by
  unfold Obligations.LayerFramesAndBindings
  refine ⟨⟨fun s p f hlive hsl hup hctl hvc hlp hon hpend hbound hh htype => ?_, exec_csiLinkLoss⟩, exec_lpipeBind, exec_next_none,
    exec_next_some, exec_check, exec_recoatCheckArm⟩
  have htakes : s.dev.csiTakes p f.vc = fun l => decide (l.dataType.toNat = s.dev.getF (csiB p) R.CSI_VC_CFG 7 0 f.vc.val) := by
    funext l
    have hne : s.dev.csiBits p f.vc ≠ 0 := rawBits_ne htype
    unfold Dev.csiTakes
    rw [decide_eq_true hne, Bool.true_and]
  intro used bad hlen hpix
  have hu : used = f.lines.filter (s.dev.csiTakes p f.vc) := by rw [htakes]
  have hexec := exec_layerFrame s p f hlive hsl hup hctl hvc hlp hon hpend hbound hh (by rw [← hu]; exact hlen) (by rw [← hu]; exact hpix)
  obtain ⟨-, hc, hpipe, hfr, hdis⟩ := s.dev.csiFrame_spec p f hh
  rw [← hu] at hdis
  have hl : (s.dev.csiFrame p f).1.lpipes = s.dev.lpipes := by
    generalize s.dev.csiFrame p f = x at hc
    rw [hc.faultParts]
  have hN : ∀ q : Reg, q.ofs 0 0 < 0x1000 → q.ofs 0 0 ≠ R.FLT_STAT.ofs 0 0 → (s.dev.csiFrame p f).1.getN (lpB p) q = s.dev.getN (lpB p) q :=
    fun q h h' => congrArg BitVec.toNat (hpipe q h h')
  have hno : R.CSI_VC_FRAMES.ofs f.vc.val 0 < 0x1000 := (by decide : ∀ v : Fin 4, R.CSI_VC_FRAMES.ofs v.val 0 < 0x1000) _
  change exec (.layerFrame p f) s = .next { s with dev := Dev.lpFrame _ p f.vc _ _ (!bad) } at hexec
  generalize s.dev.csiFrame p f = x at hexec hc hpipe hfr hdis hl hN
  cases hb : bad with
  | true =>
    rw [hb] at hexec
    obtain ⟨hw, h1, h2, h3, h4⟩ := x.1.lpFrame_bad p f.vc (s.dev.csiBits p f.vc) x.2
    refine ⟨_, hexec, ((hc.mono (by decide)).trans hw.frame).pipeParts, ?_, ?_, ?_, h1, fun q hq => (hw.other q hq).trans (by rw [hl]), ?_, ?_⟩
    · exact (hw.port _ _ _ hno).trans hfr
    · exact h3.trans (by rw [hN _ (by decide) (by decide)])
    · exact (congrArg BitVec.toNat (hw.port _ _ _ (by decide))).trans hdis
    · exact h4.trans (by rw [hN _ (by decide) (by decide)])
    · exact h2.trans (by rw [hl])
  | false =>
    rw [hb] at hexec
    obtain ⟨hw, h1, h2, h3, h4⟩ := x.1.lpFrame_good p f.vc (s.dev.csiBits p f.vc) x.2
    refine ⟨_, hexec, ((hc.mono (by decide)).trans hw.frame).pipeParts, ?_, ?_, ?_, h1, fun q hq => (hw.other q hq).trans (by rw [hl]), h2, fun harm => ?_⟩
    · exact (hw.port _ _ _ hno).trans hfr
    · exact h3.trans (by rw [hN _ (by decide) (by decide)])
    · exact (congrArg BitVec.toNat (hw.port _ _ _ (by decide))).trans hdis
    · obtain ⟨h5, h6⟩ := h4 (by rw [hl]; exact harm)
      exact ⟨h5.trans (by rw [hN _ (by decide) (by decide)]), h6⟩

end Sys2Proof.Machine
end

section
/-! Lighting lines (R287 to R289, R294). -/

namespace Sys2Proof.Machine

theorem light_ne_hif : light ≠ hif := by decide
theorem light_ne_fltc : light ≠ fltc := by decide

/-- Registers of one line stand apart from one another and from FLT_STAT. -/
theorem lgtReg_ne (i : Fin 4) : ∀ q ∈ [R.LGT_CFG, R.LGT_STAT, R.LGT_CLAIM_ERR, R.LGT_FRAMES, R.LGT_EVT], q.ofs i.val 0 < 0x1000 ∧
    q.ofs i.val 0 ≠ R.FLT_STAT.ofs 0 0 ∧ ∀ r ∈ [R.LGT_CFG, R.LGT_STAT, R.LGT_CLAIM_ERR, R.LGT_FRAMES, R.LGT_EVT], q = r ∨ q.ofs i.val 0 ≠ r.ofs i.val 0 := by
  revert i
  decide

section
variable (d : Dev) (i : Fin 4)

theorem Dev.lgtMod_same (f : Light → Light) : (d.lgtMod i f).lights[i] = f d.lights[i] := vmod_same _ _ _

theorem Dev.lgtMod_other (f : Light → Light) {j : Fin 4} (h : j ≠ i) : (d.lgtMod i f).lights[j] = d.lights[j] := vmod_ne _ _ h

theorem Dev.lgtEvent_lights (k : Nat) : (d.lgtEvent i k).lights = d.lights := by rw [Dev.lgtEvent, Dev.event_frame]

theorem Dev.lgtEvent_set {k : Nat} (hk : k < 32) : (d.lgtEvent i k).getB light R.LGT_EVT k i.val = true := by
  have ho := (lgtReg_ne i R.LGT_EVT (by decide)).1
  rw [Dev.getB, Dev.lgtEvent, Dev.event_get (hv := by decide) (hb := light_ne_hif) (ho := ho)]
  exact bit_or_pow _ hk

/-- A line sends duties (R287). -/
theorem Dev.lgtSend_spec {duty : List Nat} (status : Bool) (h : duty ≠ []) :
    d.lgtSend i duty status = { d with regs := (d.lgtSend i duty status).regs, lights := (d.lgtSend i duty status).lights } ∧
    (d.lgtSend i duty status).lights[i] = { d.lights[i] with
      duty := duty, frame := some (d.now, d.lgtBits i), stat := status, low := (d.lgtSend i duty status).lights[i].low } ∧
    (∀ j : Fin 4, j ≠ i → (d.lgtSend i duty status).lights[j] = d.lights[j]) ∧
    (d.lgtSend i duty status).getN light R.LGT_FRAMES i.val = min 0xFFFFFFFF (d.getN light R.LGT_FRAMES i.val + 1) ∧
    d.regsKept (d.lgtSend i duty status) fun a => a = radr light R.LGT_FRAMES i.val := by
  unfold Dev.lgtSend
  rw [if_neg h, if_neg h]
  dsimp only
  refine ⟨rfl, ?_, fun j hj => d.lgtMod_other i _ hj, Dev.getN_bump _ _ _ _ _, ?_⟩
  · have hs : ∀ f : Light → Light, ((d.lgtMod i f).bump light R.LGT_FRAMES 1 i.val).lights[i] = f d.lights[i] := fun f => d.lgtMod_same i f
    rw [hs]
  · exact (show d.regsKept (d.lgtMod i _) _ from fun _ _ => rfl).put _ _ _ _ _ rfl

theorem Dev.lgtSnap_ne : d.lgtSnap i ≠ [] := by
  refine List.ne_nil_of_length_pos ?_
  rw [Dev.lgtSnap, List.length_map, List.length_range, Dev.lgtMods]
  omega

end

section
variable (s : State) (i : Fin 4)

theorem exec_send (ht : s.dev.takes light 0x200) : exec (.send i) s = .next { s with dev := { s.dev with
      lights := s.dev.lights.set i { s.dev.lights[i] with want := true } } } := by
  change execSend i s = _
  unfold execSend
  rw [onLive_next _ _ (Dev.takes_live _ _ _ ht), Dev.hostWrite_takes _ _ _ _ ht]
  rfl

theorem exec_lgtRefresh (hlive : s.dev.dead = false) (hup : s.dev.up light = true) (hms : s.dev.getF light R.LGT_REFRESH 15 0 i.val ≠ 0)
    (hpast : s.dev.past s.dev.lights[i].refAt (1000 * s.dev.getF light R.LGT_REFRESH 15 0 i.val) = true) :
    exec (.lgtRefresh i) s = .next { s with dev := { s.dev with
      lights := s.dev.lights.set i { s.dev.lights[i] with want := true, refAt := s.dev.now } } } := by
  have hcond : (s.dev.up light && s.dev.getF light R.LGT_REFRESH 15 0 i.val ≠ 0 &&
      s.dev.past s.dev.lights[i].refAt (1000 * s.dev.getF light R.LGT_REFRESH 15 0 i.val)) = true := by
    rw [hup, decide_eq_true hms, hpast]
    rfl
  have hv := vmod_vmod s.dev.lights i (fun x => { x with refAt := s.dev.now }) fun x => { x with want := true }
  change execLgtRefresh i s = _
  unfold execLgtRefresh
  rw [onLive_next _ _ hlive]
  refine congrArg (fun e => Host.Outcome.next { s with dev := e }) ?_
  exact (Dev.when_of _ _ hcond).trans (congrArg (fun v => { s.dev with lights := v }) hv)

/-- A claimed idle line sends its scaled duties (R287, R288). -/
theorem exec_lightFrame (hlive : s.dev.dead = false) (hup : s.dev.up light = true) (hw : s.dev.lights[i].want = true)
    (hcl : s.dev.lgtClaimed i = true) (hbusy : s.dev.lgtBusy i = false) (hdiag : s.dev.lights[i].diag = false) : ∃ d',
    exec (.lightFrame i) s = .next { s with dev := d' } ∧ d' = { s.dev with regs := d'.regs, lights := d'.lights } ∧
    d'.lights[i].want = false ∧ d'.lights[i].frame = some (s.dev.now, s.dev.lgtBits i) ∧
    d'.lights[i].duty = s.dev.lgtSnap i ∧ d'.lights[i].stat = s.dev.lgtStatus i ∧
    (∀ j : Fin 4, j ≠ i → d'.lights[j] = s.dev.lights[j]) ∧
    d'.getN light R.LGT_FRAMES i.val = min 0xFFFFFFFF (s.dev.getN light R.LGT_FRAMES i.val + 1) ∧
    s.dev.regsKept d' fun a => a = radr light R.LGT_FRAMES i.val := by
  have hcond : (s.dev.up light && s.dev.lights[i].want && s.dev.lgtClaimed i && !s.dev.lgtBusy i && !s.dev.lights[i].diag) = true := by
    rw [hup, hw, hcl, hbusy, hdiag]
    rfl
  obtain ⟨d1, hd1⟩ : ∃ x, x = s.dev.lgtMod i fun x => { x with want := false } := ⟨_, rfl⟩
  have hl1 : d1.lights[i] = { s.dev.lights[i] with want := false } := by
    rw [hd1]
    exact s.dev.lgtMod_same i _
  have ho1 : ∀ j : Fin 4, j ≠ i → d1.lights[j] = s.dev.lights[j] := fun j hj => by
    rw [hd1]
    exact s.dev.lgtMod_other i _ hj
  obtain ⟨hf, hl, ho, hn, hk⟩ := d1.lgtSend_spec i (s.dev.lgtStatus i) (s.dev.lgtSnap_ne i)
  have hexec : exec (.lightFrame i) s = .next { s with dev := d1.lgtSend i (s.dev.lgtSnap i) (s.dev.lgtStatus i) } := by
    change execLightFrame i s = _
    unfold execLightFrame
    rw [onLive_next _ _ hlive, hd1]
    exact congrArg (fun e => Host.Outcome.next { s with dev := e }) (Dev.when_of _ _ hcond)
  generalize d1.lgtSend i (s.dev.lgtSnap i) (s.dev.lgtStatus i) = e at hexec hf hl ho hn hk
  refine ⟨e, hexec, ?_, ?_, ?_, ?_, ?_, fun j hj => (ho j hj).trans (ho1 j hj), ?_, ?_⟩
  · rw [hd1] at hf
    exact hf
  · rw [hl, hl1]
  · rw [hl, hd1]
    rfl
  · rw [hl]
  · rw [hl]
  · rw [hn, hd1]
    rfl
  · exact (show s.dev.regsKept d1 _ by rw [hd1]; exact fun _ _ => rfl).trans hk

end

/-! Status phases (R289). -/

section
variable (d : Dev) (i : Fin 4) (bytes : List (BitVec 8))

theorem lampState_lt (k : Nat) : d.lampState i bytes k < 4 := by
  unfold Dev.lampState
  extract_lets c
  split
  · decide
  · split
    · decide
    · split
      · decide
      · split
        · decide
        · split <;> decide

/-- The state of one channel is set; a lamp newly found open raises kind 0. -/
def Dev.lampSet (d e : Dev) (i : Fin 4) (bytes : List (BitVec 8)) (k : Nat) : Dev :=
  let e1 := e.putF light R.LGT_STATE (k % 16 * 2 + 1) (k % 16 * 2) (d.lampState i bytes k) i.val (k / 16)
  if d.lampState i bytes k = 1 ∧ e.getF light R.LGT_STATE (k % 16 * 2 + 1) (k % 16 * 2) i.val (k / 16) ≠ 1 then (e1.raise light none 0).lgtEvent i 0 else e1

theorem lgtState_ne {w : Nat} (hw : w < 16) : R.LGT_STATE.ofs i.val w < 0x1000 ∧ R.LGT_STATE.ofs i.val w ≠ R.FLT_STAT.ofs 0 0 ∧
    R.LGT_STATE.ofs i.val w ≠ R.LGT_EVT.ofs i.val 0 ∧ R.LGT_STATE.ofs i.val w ≠ R.LGT_STAT.ofs i.val 0 := by
  have h1 : R.LGT_STATE.ofs i.val w = 0xC00 + 0x40 * i.val + 4 * w := rfl
  have h2 : R.LGT_EVT.ofs i.val 0 = 0x138 + 0x40 * i.val + 0 := rfl
  have h3 : R.LGT_STAT.ofs i.val 0 = 0x12C + 0x40 * i.val + 0 := rfl
  have h4 : R.FLT_STAT.ofs 0 0 = 0x10 := rfl
  have hi := i.isLt
  omega

/-- Events and faults leave the states of the channels. -/
theorem Dev.lampNoted_get (e : Dev) {w : Nat} (hw : w < 16) (n k : Nat) :
    ((e.raise light none n).lgtEvent i k).get light R.LGT_STATE i.val w = e.get light R.LGT_STATE i.val w := by
  obtain ⟨h0, h1, h2, -⟩ := lgtState_ne i hw
  refine (Dev.event_get_ne _ light_ne_hif h0 _ _ (by decide) (radr_ne_of_ofs _ _ _ _ _ _ _ h2)).trans ?_
  exact e.detect_get light_ne_hif h0 _ _ _ _ _ _ light_ne_fltc (radr_ne_of_ofs _ _ _ _ _ _ _ h1)

theorem Dev.lampNoted_changes (e : Dev) (n k : Nat) : e.changes [.regs, .vecs, .fabric] ((e.raise light none n).lgtEvent i k) :=
  (e.detect_changes _ _ _ _ _ _ _).step (Dev.event_changes _ _ _ _ _ _ _) (by decide)

theorem Dev.lampSet_changes (e : Dev) (k : Nat) : e.changes [.regs, .vecs, .fabric] (d.lampSet e i bytes k) := by
  unfold Dev.lampSet
  extract_lets e1
  have h1 : e.changes [.regs, .vecs, .fabric] e1 := (e.put_changes _ _ _ _ _).mono (by decide)
  exact .ite (h1.trans (Dev.lampNoted_changes i e1 0 0)) h1

/-- The state of a channel after one is set. -/
theorem Dev.lampSet_get (e : Dev) {k k' : Nat} (hk : k < 256) (hk' : k' < 256) :
    (d.lampSet e i bytes k).getF light R.LGT_STATE (k' % 16 * 2 + 1) (k' % 16 * 2) i.val (k' / 16) =
      if k' = k then d.lampState i bytes k else e.getF light R.LGT_STATE (k' % 16 * 2 + 1) (k' % 16 * 2) i.val (k' / 16) := by
  have hlt := lampState_lt d i bytes k
  unfold Dev.lampSet
  extract_lets e1
  have h1 : e1.getF light R.LGT_STATE (k' % 16 * 2 + 1) (k' % 16 * 2) i.val (k' / 16) =
      if k' = k then d.lampState i bytes k else e.getF light R.LGT_STATE (k' % 16 * 2 + 1) (k' % 16 * 2) i.val (k' / 16) := by
    by_cases hkk : k' = k
    · subst hkk
      rw [if_pos rfl]
      simp only [e1]
      rw [Dev.getF_putF_same _ _ _ _ _ _ (by omega) (by omega), show k' % 16 * 2 + 1 + 1 - k' % 16 * 2 = 2 by omega]
      exact Nat.mod_eq_of_lt hlt
    · rw [if_neg hkk]
      simp only [e1]
      by_cases hw : k' / 16 = k / 16
      · rw [hw]
        exact Dev.getF_putF_other _ _ _ _ _ _ (by omega) (by omega)
      · refine Dev.getF_putF_ne _ _ _ _ _ _ (radr_ne_of_ofs _ _ _ _ _ _ _ ?_)
        change 0xC00 + 0x40 * i.val + 4 * (k' / 16) ≠ 0xC00 + 0x40 * i.val + 4 * (k / 16)
        omega
  clear_value e1
  split
  · rw [← h1, Dev.getF, Dev.lampNoted_get i e1 (by omega), Dev.getF]
  · exact h1

/-- Every channel's state is set. -/
theorem Dev.lampsSet_spec (n : Nat) (hn : n ≤ 256) :
    d.changes [.regs, .vecs, .fabric] ((List.range n).foldl (fun e k => d.lampSet e i bytes k) d) ∧
    ∀ k, k < n → ((List.range n).foldl (fun e k => d.lampSet e i bytes k) d).getF light R.LGT_STATE (k % 16 * 2 + 1) (k % 16 * 2) i.val (k / 16) =
      d.lampState i bytes k := by
  induction n with
  | zero => exact ⟨.refl _ _, fun k hk => absurd hk (by omega)⟩
  | succ n ih =>
    obtain ⟨hc, hs⟩ := ih (by omega)
    rw [List.range_succ, List.foldl_append, List.foldl_cons, List.foldl_nil]
    refine ⟨hc.trans (d.lampSet_changes i bytes _ n), fun k hk => ?_⟩
    rw [d.lampSet_get i bytes _ (by omega) (by omega)]
    split
    case isTrue h => rw [h]
    case isFalse h => exact hs k (by omega)

theorem lgtMods_lt : d.lgtMods i ≤ 64 := by
  have : d.getF light R.LGT_CFG 5 0 i.val < 64 := fld_lt _ 5 0
  unfold Dev.lgtMods
  omega

/-- A status phase ends its frame, with the states of all channels set (R289). -/
theorem Dev.lgtJudge_spec :
    d.lgtJudge i bytes = { d with
      regs := (d.lgtJudge i bytes).regs, vecs := (d.lgtJudge i bytes).vecs, fabric := (d.lgtJudge i bytes).fabric
      lights := d.lights.set i { d.lights[i] with low := List.replicate 256 none, frame := none, stat := false } } ∧
    (∀ k, k < 256 → (d.lgtJudge i bytes).getF light R.LGT_STATE (k % 16 * 2 + 1) (k % 16 * 2) i.val (k / 16) = d.lampState i bytes k) ∧
    (d.lgtJudge i bytes).getF light R.LGT_STAT 14 8 i.val = min bytes.length (d.lgtMods i) := by
  obtain ⟨hc, hs⟩ := d.lampsSet_spec i bytes 256 (le_refl _)
  obtain ⟨d1, hd1⟩ : ∃ x, x = (List.range 256).foldl (fun e k => d.lampSet e i bytes k) d := ⟨_, rfl⟩
  rw [← hd1] at hc hs
  obtain ⟨d2, hd2⟩ : ∃ x, x = if bytes.length < d.lgtMods i then (d1.raise light none 1).lgtEvent i 1 else d1 := ⟨_, rfl⟩
  have he : d.lgtJudge i bytes = (d2.putF light R.LGT_STAT 14 8 (min bytes.length (d.lgtMods i)) i.val).lgtMod i fun x =>
      { x with low := List.replicate 256 none, frame := none, stat := false } := by
    rw [hd2, hd1]
    rfl
  have hc2 : d.changes [.regs, .vecs, .fabric] d2 := by
    rw [hd2]
    exact .ite (hc.trans (Dev.lampNoted_changes i d1 1 1)) hc
  have hs2 : ∀ k, k < 256 → d2.getF light R.LGT_STATE (k % 16 * 2 + 1) (k % 16 * 2) i.val (k / 16) = d.lampState i bytes k := fun k hk => by
    rw [hd2, ← hs k hk]
    split
    · rw [Dev.getF, Dev.lampNoted_get i d1 (by omega), Dev.getF]
    · rfl
  clear hd2
  have hf := hc2.faultParts
  rw [he]
  refine ⟨?_, fun k hk => ?_, ?_⟩
  · conv_lhs => rw [hf]
    rfl
  · rw [← hs2 k hk]
    exact Dev.getF_putF_ne _ _ _ _ _ _ (radr_ne_of_ofs _ _ _ _ _ _ _ (lgtState_ne i (by omega)).2.2.2)
  · have hm := lgtMods_lt d i
    refine (Dev.getF_putF_same d2 light R.LGT_STAT i.val 0 (min bytes.length (d.lgtMods i)) (by decide) (by decide)).trans ?_
    exact Nat.mod_eq_of_lt (by omega)

/-- A status phase leaves how long a frame of its line is. -/
theorem Dev.lgtJudge_bits : (d.lgtJudge i bytes).lgtBits i = d.lgtBits i := by
  have hcfg : ∀ w, w < 16 → R.LGT_CFG.ofs i.val 0 ≠ R.LGT_STATE.ofs i.val w := fun w _ => by
    change 0x100 + 0x40 * i.val + 0 ≠ 0xC00 + 0x40 * i.val + 4 * w
    omega
  obtain ⟨ho, hf, hr⟩ := lgtReg_ne i R.LGT_CFG (by decide)
  have hnote : ∀ (e : Dev) n k, ((e.raise light none n).lgtEvent i k).get light R.LGT_CFG i.val = e.get light R.LGT_CFG i.val := fun e n k =>
    (Dev.event_get_ne _ light_ne_hif ho _ _ (by decide) (radr_ne_of_ofs _ _ _ _ _ _ _ ((hr R.LGT_EVT (by decide)).resolve_left (by decide)))).trans
      (e.detect_get light_ne_hif ho _ _ _ _ _ _ light_ne_fltc (radr_ne_of_ofs _ _ _ _ _ _ _ hf))
  have hset : ∀ (e : Dev) k, k < 256 → (d.lampSet e i bytes k).get light R.LGT_CFG i.val = e.get light R.LGT_CFG i.val := fun e k hk => by
    have hp : (e.putF light R.LGT_STATE (k % 16 * 2 + 1) (k % 16 * 2) (d.lampState i bytes k) i.val (k / 16)).get light R.LGT_CFG i.val =
        e.get light R.LGT_CFG i.val := Dev.get_putF_ne _ _ _ _ (radr_ne_of_ofs _ _ _ _ _ _ _ (hcfg _ (by omega)))
    unfold Dev.lampSet
    extract_lets e1
    split
    · exact (hnote e1 0 0).trans hp
    · exact hp
  have hall : ∀ n, n ≤ 256 → ((List.range n).foldl (fun e k => d.lampSet e i bytes k) d).get light R.LGT_CFG i.val = d.get light R.LGT_CFG i.val := by
    intro n
    induction n with
    | zero => exact fun _ => rfl
    | succ n ih =>
      intro hn
      rw [List.range_succ, List.foldl_append, List.foldl_cons, List.foldl_nil, hset _ n (by omega)]
      exact ih (by omega)
  have hg : (d.lgtJudge i bytes).get light R.LGT_CFG i.val = d.get light R.LGT_CFG i.val := by
    obtain ⟨d1, hd1⟩ : ∃ x, x = (List.range 256).foldl (fun e k => d.lampSet e i bytes k) d := ⟨_, rfl⟩
    have h1 := hall 256 (le_refl _)
    rw [← hd1] at h1
    obtain ⟨d2, hd2⟩ : ∃ x, x = if bytes.length < d.lgtMods i then (d1.raise light none 1).lgtEvent i 1 else d1 := ⟨_, rfl⟩
    have he : d.lgtJudge i bytes = (d2.putF light R.LGT_STAT 14 8 (min bytes.length (d.lgtMods i)) i.val).lgtMod i fun x =>
        { x with low := List.replicate 256 none, frame := none, stat := false } := by
      rw [hd2, hd1]
      rfl
    have h2 : d2.get light R.LGT_CFG i.val = d1.get light R.LGT_CFG i.val := by
      rw [hd2]
      split
      · exact hnote d1 1 1
      · rfl
    rw [he, ← h1, ← h2]
    exact Dev.get_putF_ne _ _ _ _ (radr_ne_of_ofs _ _ _ _ _ _ _ ((hr R.LGT_STAT (by decide)).resolve_left (by decide)))
  simp only [Dev.lgtBits, Dev.lgtMods, Dev.lgtCh, Dev.lgtDepth, Dev.getF, hg]

end

end Sys2Proof.Machine
end

section
/-! Claims of lines and diagnostic pulses (R290, R294). -/

namespace Sys2Proof.Machine

section
variable (s : State) (i : Fin 4)

theorem exec_statusPhase (bytes : List (BitVec 8)) (f : Nat × Nat) (hlive : s.dev.dead = false) (hup : s.dev.up light = true)
    (hf : s.dev.lights[i].frame = some f) (hst : s.dev.lights[i].stat = true) (hend : s.dev.statusEnd i f ≤ s.dev.now) :
    exec (.statusPhase i bytes) s = .next { s with dev := s.dev.lgtJudge i bytes } := by
  have hcond : (s.dev.up light && s.dev.lights[i].stat && decide (s.dev.statusEnd i f ≤ s.dev.now)) = true := by
    rw [hup, hst, decide_eq_true hend]
    rfl
  change execStatusPhase i bytes s = _
  unfold execStatusPhase
  rw [onLive_next _ _ hlive, hf]
  exact congrArg (fun e => Host.Outcome.next { s with dev := e }) (Dev.when_of _ _ hcond)

/-! Claims (R294). -/

theorem Dev.claim_holds (d : Dev) (owner : Blk) (ix : Nat) (b : Blk) (sub : Nat) : (d.claim owner ix b sub).holds owner ix b sub = true := by
  unfold Dev.claim
  split
  · assumption
  · simp [Dev.holds]

theorem Dev.claim_frame (d : Dev) (owner : Blk) (ix : Nat) (b : Blk) (sub : Nat) :
    d.claim owner ix b sub = { d with claims := (d.claim owner ix b sub).claims } := by
  unfold Dev.claim
  split <;> rfl

/-- The bits of a configuration that a refusal keeps. -/
theorem lgtKeep_fields (v was : Word) :
    fld ((v &&& ~~~(fldMask 13 13 ||| fldMask 21 16)) ||| (was &&& (fldMask 13 13 ||| fldMask 21 16))) 21 16 = fld was 21 16 ∧
    bit ((v &&& ~~~(fldMask 13 13 ||| fldMask 21 16)) ||| (was &&& (fldMask 13 13 ||| fldMask 21 16))) 13 = bit was 13 := by
  have hm : ∀ j : Fin 32, (fldMask 13 13 ||| fldMask 21 16).getLsbD j.val = decide (j.val = 13 ∨ (16 ≤ j.val ∧ j.val ≤ 21)) := by decide
  have hb : ∀ j, j < 32 → (j = 13 ∨ (16 ≤ j ∧ j ≤ 21)) →
      ((v &&& ~~~(fldMask 13 13 ||| fldMask 21 16)) ||| (was &&& (fldMask 13 13 ||| fldMask 21 16))).getLsbD j = was.getLsbD j := by
    intro j hj h
    have hmj : (fldMask 13 13 ||| fldMask 21 16).getLsbD j = true := (hm ⟨j, hj⟩).trans (decide_eq_true h)
    rw [BitVec.getLsbD_or, BitVec.getLsbD_and, BitVec.getLsbD_and, BitVec.getLsbD_not, hmj]
    simp
  refine ⟨?_, hb 13 (by decide) (.inl rfl)⟩
  unfold fld
  refine congrArg BitVec.toNat (BitVec.eq_of_getLsbD_eq fun j hj => ?_)
  rw [BitVec.getLsbD_extractLsb', BitVec.getLsbD_extractLsb', hb (16 + j) (by omega) (by omega)]

theorem Dev.changes.eventParts {d e : Dev} (h : d.changes [.regs, .vecs] e) : e = { d with regs := e.regs, vecs := e.vecs } :=
  congrArg (fun x : Dev => { x with regs := e.regs, vecs := e.vecs }) h

theorem Dev.changes.claimParts {d e : Dev} (h : d.changes [.regs, .claims] e) : e = { d with regs := e.regs, claims := e.claims } :=
  congrArg (fun x : Dev => { x with regs := e.regs, claims := e.claims }) h

/-- A configuration whose pin is granted (R294). -/
theorem Dev.lgtCfgWrite_granted (d : Dev) (v : Word)
    (hc : d.claimErr (lgtPin i (R.LGT_CFG.write (d.get light R.LGT_CFG i.val) v)).1
      (lgtPin i (R.LGT_CFG.write (d.get light R.LGT_CFG i.val) v)).2 light i.val = none) :
    let w := R.LGT_CFG.write (d.get light R.LGT_CFG i.val) v
    let e := d.lgtCfgWrite i v
    e = { d with regs := e.regs, claims := e.claims } ∧ e.get light R.LGT_CFG i.val = w ∧
    e.holds (lgtPin i w).1 (lgtPin i w).2 light i.val = true ∧ e.lgtClaimed i = true ∧
    d.regsKept e fun a => a = radr light R.LGT_CFG i.val ∨ a = radr light R.LGT_STAT i.val := by
  intro w e
  obtain ⟨d1, hd1⟩ : ∃ x : Dev, x = { d with claims := d.claims.filter fun c => ¬ (c.by_ = light ∧ c.sub = i.val ∧ (c.owner, c.ix) ≠ lgtPin i w) } := ⟨_, rfl⟩
  have he : e = ((d1.claim (lgtPin i w).1 (lgtPin i w).2 light i.val).put light R.LGT_CFG w i.val).putB light R.LGT_STAT 16 true i.val := by
    simp only [e]
    unfold Dev.lgtCfgWrite
    extract_lets was' v' pin keep d1'
    rw [show d.claimErr pin.1 pin.2 light i.val = none from hc, hd1]
  have hcl := d1.claim_holds (lgtPin i w).1 (lgtPin i w).2 light i.val
  have hcf := d1.claim_frame (lgtPin i w).1 (lgtPin i w).2 light i.val
  generalize d1.claim (lgtPin i w).1 (lgtPin i w).2 light i.val = d2 at he hcl hcf
  have hk2 : d.regsKept d2 fun a => a = radr light R.LGT_CFG i.val ∨ a = radr light R.LGT_STAT i.val := by
    rw [hcf, hd1]
    exact fun _ _ => rfl
  have hf2 : d2 = { d with claims := d2.claims } := by
    rw [hd1] at hcf
    exact hcf
  have hne := (((lgtReg_ne i R.LGT_CFG (by decide)).2.2 R.LGT_STAT (by decide)).resolve_left (by decide))
  rw [he]
  refine ⟨?_, ?_, hcl, Dev.getB_putB_same _ _ _ _ _ _ (by decide), (hk2.put _ _ _ _ _ (.inl rfl)).put _ _ _ _ _ (.inr rfl)⟩
  · have h2 : d.changes [.regs, .claims] d2 := by
      rw [hf2]
      rfl
    have h4 := (h2.step (d2.put_changes light R.LGT_CFG w i.val 0) (by decide)).step
      (Dev.put_changes _ light R.LGT_STAT (setBit ((d2.put light R.LGT_CFG w i.val).get light R.LGT_STAT i.val) 16 true) i.val 0) (by decide)
    exact h4.claimParts
  · exact (Dev.get_put_ne _ _ _ _ _ _ _ _ _ _ (radr_ne_of_ofs _ _ _ _ _ _ _ hne)).trans (Dev.get_put_same _ _ _ _ _ _)

/-- A configuration whose pin is refused keeps its pin and shows the holder (R294). -/
theorem Dev.lgtCfgWrite_refused (d : Dev) (v : Word) {code : Nat} {h : Blk}
    (hc : d.claimErr (lgtPin i (R.LGT_CFG.write (d.get light R.LGT_CFG i.val) v)).1
      (lgtPin i (R.LGT_CFG.write (d.get light R.LGT_CFG i.val) v)).2 light i.val = some (code, h)) :
    let was := d.get light R.LGT_CFG i.val
    let e := d.lgtCfgWrite i v
    e = { d with regs := e.regs, vecs := e.vecs } ∧
    e.getF light R.LGT_CFG 21 16 i.val = fld was 21 16 ∧ e.getB light R.LGT_CFG 13 i.val = bit was 13 ∧
    e.get light R.LGT_CLAIM_ERR i.val = claimWord code h (lgtPin i (R.LGT_CFG.write was v)).2 ∧ e.getB light R.LGT_EVT 4 i.val = true := by
  intro was e
  obtain ⟨w, hw⟩ : ∃ w, w = R.LGT_CFG.write was v := ⟨_, rfl⟩
  obtain ⟨x, hx⟩ : ∃ x, x = (w &&& ~~~(fldMask 13 13 ||| fldMask 21 16)) ||| (was &&& (fldMask 13 13 ||| fldMask 21 16)) := ⟨_, rfl⟩
  obtain ⟨d2, hd2⟩ : ∃ y, y = (d.put light R.LGT_CFG x i.val).put light R.LGT_CLAIM_ERR (claimWord code h (lgtPin i w).2) i.val := ⟨_, rfl⟩
  have he : e = d2.lgtEvent i 4 := by
    simp only [e]
    unfold Dev.lgtCfgWrite
    extract_lets v' pin keep d1'
    rw [show d.claimErr pin.1 pin.2 light i.val = some (code, h) from hc, hd2, hx, hw]
  have hcfg : d2.get light R.LGT_CFG i.val = x := by
    rw [hd2]
    refine (Dev.get_put_ne _ _ _ _ _ _ _ _ _ _ (radr_ne_of_ofs _ _ _ _ _ _ _ ?_)).trans (Dev.get_put_same _ _ _ _ _ _)
    exact ((lgtReg_ne i R.LGT_CFG (by decide)).2.2 R.LGT_CLAIM_ERR (by decide)).resolve_left (by decide)
  have herr : d2.get light R.LGT_CLAIM_ERR i.val = claimWord code h (lgtPin i w).2 := by
    rw [hd2]
    exact Dev.get_put_same _ _ _ _ _ _
  have hf2 : d.changes [.regs, .vecs] d2 := by
    rw [hd2]
    exact ((d.put_changes _ _ _ _ _).mono (by decide)).step (Dev.put_changes _ _ _ _ _ _) (by decide)
  have hev : ∀ q ∈ [R.LGT_CFG, R.LGT_CLAIM_ERR], (d2.lgtEvent i 4).get light q i.val = d2.get light q i.val := fun q hq => by
    obtain ⟨ho, -, hr⟩ := lgtReg_ne i q ((by decide : [R.LGT_CFG, R.LGT_CLAIM_ERR] ⊆ [R.LGT_CFG, R.LGT_STAT, R.LGT_CLAIM_ERR, R.LGT_FRAMES, R.LGT_EVT]) hq)
    exact Dev.event_get_ne _ light_ne_hif ho _ _ (by decide) (radr_ne_of_ofs _ _ _ _ _ _ _
      ((hr R.LGT_EVT (by decide)).resolve_left ((by decide : ∀ q ∈ [R.LGT_CFG, R.LGT_CLAIM_ERR], q ≠ R.LGT_EVT) q hq)))
  have hf3 : d.changes [.regs, .vecs] (d2.lgtEvent i 4) := hf2.trans (d2.event_changes _ _ _ _ _ _)
  have hs := d2.lgtEvent_set i (k := 4) (by decide)
  have hk := lgtKeep_fields w was
  rw [← hx] at hk
  rw [he, ← hw]
  generalize d2.lgtEvent i 4 = y at hev hf3 hs
  refine ⟨hf3.eventParts, ?_, ?_, ?_, hs⟩
  · rw [Dev.getF, hev _ (by decide), hcfg]
    exact hk.1
  · rw [Dev.getB, hev _ (by decide), hcfg]
    exact hk.2
  · rw [hev _ (by decide), herr]

/-! Diagnostic pulses (R290). -/

theorem exec_diag (ht : s.dev.takes light 0x200) : ∃ d',
    exec (.diag i) s = .next { s with dev := d' } ∧ d' = { s.dev with regs := d'.regs } ∧
    d'.getB light R.LGT_STAT 3 i.val = true ∧ s.dev.regsKept d' fun a => a = radr light R.LGT_STAT i.val := by
  refine ⟨s.dev.putB light R.LGT_STAT 3 true i.val, ?_, rfl, Dev.getB_putB_same _ _ _ _ _ _ (by decide), s.dev.regsKept_put _ _ _ _ _ rfl⟩
  change execDiag i s = _
  unfold execDiag
  rw [onLive_next _ _ (Dev.takes_live _ _ _ ht), Dev.hostWrite_takes _ _ _ _ ht]

theorem lgtStat_ne_frames : radr light R.LGT_STAT i.val ≠ radr light R.LGT_FRAMES i.val :=
  radr_ne_of_ofs _ _ _ _ _ _ _ (((lgtReg_ne i R.LGT_STAT (by decide)).2.2 R.LGT_FRAMES (by decide)).resolve_left (by decide))

/-- Outside a layer the pulse puts one duty on every channel of its claimed idle line. -/
theorem exec_diagPulseStart (hlive : s.dev.dead = false) (hup : s.dev.up light = true) (hst : s.dev.getB light R.LGT_STAT 3 i.val = true)
    (hrun : s.dev.running = none) (hcl : s.dev.lgtClaimed i = true) (hbusy : s.dev.lgtBusy i = false) (hdiag : s.dev.lights[i].diag = false) : ∃ d',
    exec (.diagPulseStart i) s = .next { s with dev := d' } ∧ d' = { s.dev with regs := d'.regs, lights := d'.lights } ∧
    d'.lights[i].diag = true ∧ d'.lights[i].prev = s.dev.lights[i].duty ∧
    d'.lights[i].frame = some (s.dev.now, s.dev.lgtBits i) ∧
    d'.lights[i].duty = (List.range (4 * s.dev.lgtMods i)).map (fun k =>
      if k % 4 < s.dev.lgtCh i then s.dev.getF light R.LGT_DIAG 15 0 i.val % 2 ^ s.dev.lgtDepth i else 0) ∧
    d'.getB light R.LGT_STAT 3 i.val = false ∧ d'.getB light R.LGT_STAT 2 i.val = true ∧
    (∀ j : Fin 4, j ≠ i → d'.lights[j] = s.dev.lights[j]) ∧
    s.dev.regsKept d' fun a => a = radr light R.LGT_STAT i.val ∨ a = radr light R.LGT_FRAMES i.val := by
  have hcond : (s.dev.up light && s.dev.getB light R.LGT_STAT 3 i.val && s.dev.running.isNone && s.dev.lgtClaimed i && !s.dev.lgtBusy i &&
      !s.dev.lights[i].diag) = true := by
    rw [hup, hst, hrun, hcl, hbusy, hdiag]
    rfl
  obtain ⟨all, hall⟩ : ∃ x, x = (List.range (4 * s.dev.lgtMods i)).map (fun k =>
      if k % 4 < s.dev.lgtCh i then s.dev.getF light R.LGT_DIAG 15 0 i.val % 2 ^ s.dev.lgtDepth i else 0) := ⟨_, rfl⟩
  have hne : all ≠ [] := by
    refine List.ne_nil_of_length_pos ?_
    rw [hall, List.length_map, List.length_range, Dev.lgtMods]
    omega
  obtain ⟨d1, hd1⟩ : ∃ x, x = (s.dev.putB light R.LGT_STAT 3 false i.val).putB light R.LGT_STAT 2 true i.val := ⟨_, rfl⟩
  obtain ⟨d2, hd2⟩ : ∃ x, x = d1.lgtMod i fun x => { x with diag := true, prev := x.duty } := ⟨_, rfl⟩
  have h3 : d1.getB light R.LGT_STAT 3 i.val = false := by
    rw [hd1, Dev.getB_putB_other _ _ _ _ _ _ (by decide) (by decide)]
    exact Dev.getB_putB_same _ _ _ _ _ _ (by decide)
  have h2 : d1.getB light R.LGT_STAT 2 i.val = true := by
    rw [hd1]
    exact Dev.getB_putB_same _ _ _ _ _ _ (by decide)
  have hk1 : s.dev.regsKept d1 fun a => a = radr light R.LGT_STAT i.val ∨ a = radr light R.LGT_FRAMES i.val := by
    rw [hd1]
    exact (s.dev.regsKept_put _ _ _ _ _ (.inl rfl)).put _ _ _ _ _ (.inl rfl)
  have hcfg : radr light R.LGT_CFG i.val ≠ radr light R.LGT_STAT i.val :=
    radr_ne_of_ofs _ _ _ _ _ _ _ (((lgtReg_ne i R.LGT_CFG (by decide)).2.2 R.LGT_STAT (by decide)).resolve_left (by decide))
  have hbits : d1.lgtBits i = s.dev.lgtBits i := by
    have hg : d1.get light R.LGT_CFG i.val = s.dev.get light R.LGT_CFG i.val := by
      rw [hd1, Dev.get_putB_ne _ _ _ hcfg, Dev.get_putB_ne _ _ _ hcfg]
    simp only [Dev.lgtBits, Dev.lgtMods, Dev.lgtCh, Dev.lgtDepth, Dev.getF, hg]
  have hl1 : d1.lights = s.dev.lights ∧ d1 = { s.dev with regs := d1.regs } := by
    rw [hd1]
    exact ⟨rfl, rfl⟩
  have hl2 : d2.lights[i] = { s.dev.lights[i] with diag := true, prev := s.dev.lights[i].duty } := by
    rw [hd2]
    exact (d1.lgtMod_same i _).trans (by rw [hl1.1])
  have ho2 : ∀ j : Fin 4, j ≠ i → d2.lights[j] = s.dev.lights[j] := fun j hj => by
    rw [hd2]
    exact (d1.lgtMod_other i _ hj).trans (by rw [hl1.1])
  obtain ⟨hf, hl, ho, -, hk⟩ := d2.lgtSend_spec i false hne
  have hexec : exec (.diagPulseStart i) s = .next { s with dev := d2.lgtSend i all false } := by
    change execDiagPulseStart i s = _
    unfold execDiagPulseStart
    rw [onLive_next _ _ hlive, hd2, hd1, hall]
    exact congrArg (fun e => Host.Outcome.next { s with dev := e }) (Dev.when_of _ _ hcond)
  generalize d2.lgtSend i all false = e at hexec hf hl ho hk
  have hst : e.get light R.LGT_STAT i.val = d1.get light R.LGT_STAT i.val := by
    rw [hk.get _ _ i.val 0 (lgtStat_ne_frames i), hd2]
    rfl
  refine ⟨e, hexec, ?_, ?_, ?_, ?_, ?_, ?_, ?_, fun j hj => (ho j hj).trans (ho2 j hj), ?_⟩
  · rw [hd2] at hf
    refine hf.trans ?_
    conv_lhs => rw [hl1.2]
    rfl
  · rw [hl, hl2]
  · rw [hl, hl2]
  · rw [hl, ← hbits, hd2]
    have hnow : d1.now = s.dev.now := by rw [hl1.2]
    rw [← hnow]
    rfl
  · rw [hl, hall]
  · rw [Dev.getB, hst]
    exact h3
  · rw [Dev.getB, hst]
    exact h2
  · exact (hk1.trans (show d1.regsKept d2 _ by rw [hd2]; exact fun _ _ => rfl)).trans (hk.mono fun _ => .inr)

/-- What the end of a pulse brings back (R290). -/
theorem Dev.diagBack_spec (d : Dev) :
    d.changes [.regs, .lights] (d.diagBack i) ∧ (d.diagBack i).lights[i].diag = false ∧
    (d.diagBack i).getB light R.LGT_STAT 2 i.val = false ∧
    (d.lights[i].prev ≠ [] → (d.diagBack i).lights[i].duty = d.lights[i].prev ∧ (d.diagBack i).lights[i].frame = some (d.now, d.lgtBits i)) ∧
    ∀ j : Fin 4, j ≠ i → (d.diagBack i).lights[j] = d.lights[j] := by
  have hcfg : radr light R.LGT_CFG i.val ≠ radr light R.LGT_STAT i.val :=
    radr_ne_of_ofs _ _ _ _ _ _ _ (((lgtReg_ne i R.LGT_CFG (by decide)).2.2 R.LGT_STAT (by decide)).resolve_left (by decide))
  obtain ⟨d1, hd1⟩ : ∃ x, x = d.putB light R.LGT_STAT 2 false i.val := ⟨_, rfl⟩
  obtain ⟨d2, hd2⟩ : ∃ x, x = d1.lgtMod i fun x => { x with diag := false, prev := [], frame := none } := ⟨_, rfl⟩
  have hst : d2.getB light R.LGT_STAT 2 i.val = false := by
    rw [hd2, hd1]
    exact Dev.getB_putB_same d light R.LGT_STAT i.val 0 false (by decide)
  have hc : d.changes [.regs, .lights] d2 := by
    rw [hd2, hd1]
    exact ((d.put_changes _ _ _ _ _).mono (by decide)).trans rfl
  have hl1 : d1.lights = d.lights := by rw [hd1]; rfl
  have hl2 : d2.lights[i] = { d.lights[i] with diag := false, prev := [], frame := none } := by
    rw [hd2]
    exact (d1.lgtMod_same i _).trans (by rw [hl1])
  have ho2 : ∀ j : Fin 4, j ≠ i → d2.lights[j] = d.lights[j] := fun j hj => by
    rw [hd2]
    exact (d1.lgtMod_other i _ hj).trans (by rw [hl1])
  have hbits : d2.lgtBits i = d.lgtBits i := by
    have hg : d2.get light R.LGT_CFG i.val = d.get light R.LGT_CFG i.val := by
      rw [hd2, hd1]
      exact Dev.get_putB_ne _ _ _ hcfg
    simp only [Dev.lgtBits, Dev.lgtMods, Dev.lgtCh, Dev.lgtDepth, Dev.getF, hg]
  have hnow : d2.now = d.now := by rw [hd2, hd1]; rfl
  have he : d.diagBack i = d2.lgtSend i d.lights[i].prev (d.lgtStatus i) := by rw [hd2, hd1]; rfl
  rw [he]
  by_cases hp : d.lights[i].prev = []
  · have hs : d2.lgtSend i d.lights[i].prev (d.lgtStatus i) = d2 := by
      unfold Dev.lgtSend
      exact if_pos hp
    rw [hs]
    exact ⟨hc, by rw [hl2], hst, fun h => absurd hp h, ho2⟩
  · obtain ⟨hf, hl, ho, -, hk⟩ := d2.lgtSend_spec i (d.lgtStatus i) hp
    generalize d2.lgtSend i d.lights[i].prev (d.lgtStatus i) = e at hf hl ho hk
    refine ⟨hc.trans (by rw [hf]; rfl), by rw [hl, hl2], ?_, fun _ => ⟨by rw [hl], by rw [hl, hbits, hnow]⟩, fun j hj => (ho j hj).trans (ho2 j hj)⟩
    rw [← hst]
    exact congrArg (bit · 2) (hk.get _ _ i.val 0 (lgtStat_ne_frames i))

theorem Dev.changes.lightParts {d e : Dev} (h : d.changes [.regs, .vecs, .fabric, .lights] e) :
    e = { d with regs := e.regs, vecs := e.vecs, fabric := e.fabric, lights := e.lights } :=
  congrArg (fun x : Dev => { x with regs := e.regs, vecs := e.vecs, fabric := e.fabric, lights := e.lights }) h

/-- The end of a pulse (R290). -/
theorem exec_diagPulseEnd (bytes : List (BitVec 8)) (f : Nat × Nat) (hlive : s.dev.dead = false) (hup : s.dev.up light = true)
    (hf : s.dev.lights[i].frame = some f) (hdiag : s.dev.lights[i].diag = true)
    (hdue : (if s.dev.lgtStatus i then s.dev.statusEnd i f else latchEnd f) + s.dev.getF light R.LGT_DIAG 31 16 i.val * 800000 ≤ s.dev.now) : ∃ d',
    exec (.diagPulseEnd i bytes) s = .next { s with dev := d' } ∧
    d' = { s.dev with regs := d'.regs, vecs := d'.vecs, fabric := d'.fabric, lights := d'.lights } ∧
    d'.lights[i].diag = false ∧ d'.getB light R.LGT_STAT 2 i.val = false ∧ d'.getB light R.LGT_EVT 2 i.val = true ∧
    (s.dev.lights[i].prev ≠ [] → d'.lights[i].duty = s.dev.lights[i].prev ∧
      d'.lights[i].frame = some (s.dev.now, s.dev.lgtBits i)) ∧
    ∀ j : Fin 4, j ≠ i → d'.lights[j] = s.dev.lights[j] := by
  have hdue' : (if s.dev.lgtStatus i then s.dev.statusEnd i f + s.dev.diagHold i else latchEnd f + s.dev.diagHold i) ≤ s.dev.now := by
    refine le_trans (le_of_eq ?_) hdue
    unfold Dev.diagHold
    split <;> rfl
  have hcond : (s.dev.up light && s.dev.lights[i].diag &&
      decide ((if s.dev.lgtStatus i then s.dev.statusEnd i f + s.dev.diagHold i else latchEnd f + s.dev.diagHold i) ≤ s.dev.now)) = true := by
    rw [hup, hdiag, decide_eq_true hdue']
    rfl
  obtain ⟨d1, hd1⟩ : ∃ x, x = if s.dev.lgtStatus i then s.dev.lgtJudge i bytes else s.dev := ⟨_, rfl⟩
  have h1 : s.dev.changes [.regs, .vecs, .fabric, .lights] d1 ∧ d1.lights[i].prev = s.dev.lights[i].prev ∧
      d1.lgtBits i = s.dev.lgtBits i ∧ ∀ j : Fin 4, j ≠ i → d1.lights[j] = s.dev.lights[j] := by
    rw [hd1]
    split
    · obtain ⟨hj, -, -⟩ := s.dev.lgtJudge_spec i bytes
      have hb := s.dev.lgtJudge_bits i bytes
      generalize s.dev.lgtJudge i bytes = e at hj hb
      rw [hj]
      refine ⟨rfl, (congrArg Light.prev (vset_same s.dev.lights i _)).trans rfl, ?_, fun j hne => vset_ne _ _ hne⟩
      rw [← hj]
      exact hb
    · exact ⟨.refl _ _, rfl, rfl, fun _ _ => rfl⟩
  obtain ⟨hc1, hp1, hb1, ho1⟩ := h1
  have hnow : d1.now = s.dev.now := by rw [hc1.lightParts]
  obtain ⟨hc2, hg2, hs2, hd2, ho2⟩ := d1.diagBack_spec i
  have hexec : exec (.diagPulseEnd i bytes) s = .next { s with dev := (d1.diagBack i).lgtEvent i 2 } := by
    change execDiagPulseEnd i bytes s = _
    unfold execDiagPulseEnd
    rw [onLive_next _ _ hlive, hf, hd1]
    exact congrArg (fun e => Host.Outcome.next { s with dev := e }) (Dev.when_of _ _ hcond)
  generalize d1.diagBack i = e at hexec hc2 hg2 hs2 hd2 ho2
  have hl := e.lgtEvent_lights i 2
  have hev := e.lgtEvent_set i (k := 2) (by decide)
  have hce : e.changes [.regs, .vecs] (e.lgtEvent i 2) := e.event_changes _ _ _ _ _ _
  have hst : (e.lgtEvent i 2).get light R.LGT_STAT i.val = e.get light R.LGT_STAT i.val :=
    e.event_get_ne light_ne_hif (lgtReg_ne i R.LGT_STAT (by decide)).1 _ _ (by decide) (radr_ne_of_ofs _ _ _ _ _ _ _
      (((lgtReg_ne i R.LGT_STAT (by decide)).2.2 R.LGT_EVT (by decide)).resolve_left (by decide)))
  generalize e.lgtEvent i 2 = d' at hexec hl hev hce hst
  refine ⟨d', hexec, ((hc1.step hc2 (by decide)).step hce (by decide)).lightParts, by rw [hl]; exact hg2, ?_, hev, fun hp => ?_,
    fun j hj => by rw [hl, ho2 j hj, ho1 j hj]⟩
  · rw [Dev.getB, hst]
    exact hs2
  · rw [hl, ← hp1, ← hnow, ← hb1]
    exact hd2 (by rw [hp1]; exact hp)

end

/-- Settles O40: frames and claims of lines, then diagnostic pulses. -/
theorem lightingAndDiagnosticPulses : Obligations.LightingAndDiagnosticPulses := by
  unfold Obligations.LightingAndDiagnosticPulses
  refine ⟨⟨exec_send, exec_lgtRefresh, exec_lightFrame, fun s i bytes f hlive hup hf hst hend => ?_, fun s i v ht => ?_⟩, exec_diag,
    exec_diagPulseStart, exec_diagPulseEnd⟩
  · obtain ⟨h1, h2, h3⟩ := s.dev.lgtJudge_spec i bytes
    exact ⟨_, exec_statusPhase s i bytes f hlive hup hf hst hend, h1, h2, h3⟩
  · intro was w
    refine ⟨s.dev.lgtCfgWrite i v, ?_, ?_⟩
    · change execLgtCfg i v s = _
      unfold execLgtCfg
      rw [onLive_next _ _ (Dev.takes_live _ _ _ ht), Dev.hostWrite_takes _ _ _ _ ht]
    · generalize hc : s.dev.claimErr (lgtPin i w).1 (lgtPin i w).2 light i.val = o
      cases o with
      | none => exact s.dev.lgtCfgWrite_granted i v hc
      | some x => exact s.dev.lgtCfgWrite_refused i v hc

end Sys2Proof.Machine
end

section
/-! SUPPORT. Work that leaves watched registers alone, whatever else it does: what a departure does beside its lane. -/

namespace Sys2Proof.Machine

/-- Kinds of the blocks that heads, spindles, the arbiter, the journal and the collector are in. -/
def sharedKinds : List BT := [.hif, .fltc, .headctl, .servo, .mspin, .mpv, .plyarb, .lattice, .jrnl]

/-- Registers that are watched: the whole page of a block, or its control word BLK_CTL alone. -/
structure Watch where
  blk : Blk
  ctl : Bool

/-- The page of a block. -/
def pageOf (b : Blk) : Watch := ⟨b, false⟩

/-- The control word of a block. -/
def ctlOf (b : Blk) : Watch := ⟨b, true⟩

/-- No watched register of the block but perhaps its control word. -/
def Clear (w : Watch) (b : Blk) : Prop := w.ctl = false → b ≠ w.blk

/-- The offset of a register of a page other than BLK_CTL. -/
abbrev ownOfs (o : Nat) : Prop := o < 0x1000 ∧ o ≠ 8

/-- The watched registers are of a block of another kind, or are a control word outside HIF and FLTC. -/
structure Apart (w : Watch) : Prop where
  kind : ∃ t n, blkKind w.blk = some (t, n) ∧ t ∉ (if w.ctl then [.hif, .fltc] else sharedKinds)

theorem apart_page {b : Blk} {t : BT} {n : Nat} (hk : blkKind b = some (t, n)) (ht : t ∉ sharedKinds) : Apart (pageOf b) := ⟨t, n, hk, ht⟩

theorem apart_ctl {b : Blk} {t : BT} {n : Nat} (hk : blkKind b = some (t, n)) (ht : t ∉ [BT.hif, .fltc]) : Apart (ctlOf b) := ⟨t, n, hk, ht⟩

namespace Apart

variable {w : Watch} (h : Apart w)
include h

theorem ne {b : Blk} {t : BT} {n : Nat} (hk : blkKind b = some (t, n)) (ht : t ∈ if w.ctl then [.hif, .fltc] else sharedKinds) : b ≠ w.blk := by
  rintro rfl
  obtain ⟨t', n', hk', ht'⟩ := h.kind
  rw [hk] at hk'
  cases hk'
  exact ht' ht

theorem clear {b : Blk} {t : BT} {n : Nat} (hk : blkKind b = some (t, n)) (ht : t ∈ sharedKinds) : Clear w b :=
  fun hw => h.ne hk (by rw [if_neg (by rw [hw]; decide)]; exact ht)

theorem hif : w.blk ≠ Machine.hif := (h.ne (t := .hif) (n := 0) (by decide) (by split <;> decide)).symm
theorem fltc : w.blk ≠ Machine.fltc := (h.ne (t := .fltc) (n := 0) (by decide) (by split <;> decide)).symm
theorem ply : Clear w plyB := h.clear (t := .plyarb) (n := 0) (by decide) (by decide)
theorem lat : Clear w latB := h.clear (t := .lattice) (n := 0) (by decide) (by decide)
theorem jrnl : Clear w Machine.jrnl := h.clear (t := .jrnl) (n := 0) (by decide) (by decide)
theorem head (g : Fin 32) : Clear w (headB g) := h.clear ((by decide : ∀ g : Fin 32, blkKind (headB g) = some (.headctl, g.val)) g) (by decide)
theorem mpv (g : Fin 32) : Clear w (mpvB g) := h.clear ((by decide : ∀ g : Fin 32, blkKind (mpvB g) = some (.mpv, g.val)) g) (by decide)
theorem msp (m : Fin 64) : Clear w (mspB m) := h.clear ((by decide : ∀ m : Fin 64, blkKind (mspB m) = some (.mspin, m.val / 8)) m) (by decide)
theorem servo (k : Fin 8) : Clear w (blk .servo k.val) := h.clear ((by decide : ∀ k : Fin 8, blkKind (blk .servo k.val) = some (.servo, k.val)) k) (by decide)

theorem cell (i : Fin 256) : Clear w (cellBlk i) := by
  by_cases hi : isHead i = true
  · rw [cellBlk, if_pos hi]
    have : i.val < 192 := of_decide_eq_true hi
    exact h.servo ⟨i.val / 24, by omega⟩
  · have h1 : ¬i.val < 192 := fun hlt => hi (decide_eq_true hlt)
    have hm := h.msp (mspOf i)
    rw [cellBlk, if_neg hi]
    have hv : (mspOf i).val = i.val - 192 := by
      simp only [mspOf, Fin.val_ofNat]
      omega
    rw [mspB, hv] at hm
    exact hm

end Apart

theorem Part.only {p : Part} {F : List Part} (h : p ∈ F) : [p] ⊆ F := by simpa using h

/-- At most the parts in `F` differ, and no watched register. -/
structure Dev.aside (w : Watch) (F : List Part) (d e : Dev) : Prop where
  frame : d.changes F e
  kept : ∀ (r : Reg) (i j : Nat), r.ofs i j < 0x1000 → (w.ctl = true → r.ofs i j = 8) → e.get w.blk r i j = d.get w.blk r i j

/-- Every other register stands at another address than a watched one. -/
theorem Clear.radr_ne {w : Watch} {b : Blk} (hb : Clear w b) {q r : Reg} {i j i' j' : Nat} (hq : q.ofs i j < 0x1000) (hw : w.ctl = true → q.ofs i j = 8)
    (ho : ownOfs (r.ofs i' j')) : radr w.blk q i j ≠ radr b r i' j' := by
  by_cases he : b = w.blk
  · rw [he]
    have hw' : w.ctl = true := by
      cases hc : w.ctl
      · exact absurd he (hb hc)
      · rfl
    exact radr_ne_of_ofs _ _ _ _ _ _ _ (by rw [hw hw']; exact ho.2.symm)
  · exact radr_ne_of_blk _ _ _ _ _ _ _ _ (Ne.symm he) hq ho.1

/-- The parts that the departure of a partner may change, beside those of its lane. -/
def goneParts : List Part := [.regs, .live, .vecs, .fabric, .heads, .cells, .tunes, .msps, .mpvs, .ply, .rep, .thm, .jrn]

namespace Dev.aside

section
variable {w : Watch} {F : List Part} {d e f : Dev}

theorem page {b : Blk} (k : aside (pageOf b) F d e) (r : Reg) (i j : Nat) (ho : r.ofs i j < 0x1000) : e.get b r i j = d.get b r i j :=
  k.kept r i j ho fun h => nomatch h

theorem ctlWord {b : Blk} (k : aside (ctlOf b) F d e) : e.get b R.BLK_CTL = d.get b R.BLK_CTL := k.kept R.BLK_CTL 0 0 (by decide) fun _ => rfl

theorem refl (d : Dev) : aside w F d d := ⟨.refl _ _, fun _ _ _ _ _ => rfl⟩

theorem trans (k : aside w F d e) (k' : aside w F e f) : aside w F d f :=
  ⟨k.frame.trans k'.frame, fun r i j ho hw => (k'.kept r i j ho hw).trans (k.kept r i j ho hw)⟩

theorem mono {G : List Part} (k : aside w F d e) (h : F ⊆ G) : aside w G d e := ⟨k.frame.mono h, k.kept⟩

theorem ite {c : Prop} [Decidable c] (k : aside w F d e) (k' : aside w F d f) : aside w F d (if c then e else f) := by
  split <;> assumption

theorem foldl {α : Type} {g : Dev → α → Dev} (l : List α) (k : aside w F d e) (hg : ∀ x a, aside w F d x → aside w F d (g x a)) :
    aside w F d (l.foldl g e) := by
  induction l generalizing e with
  | nil => exact k
  | cons a l ih => exact ih (hg e a k)

variable (k : aside w F d e)
include k

/-- A step that leaves all registers. -/
theorem beside {G : List Part} (k' : e.changes G f) (hs : G ⊆ F) (hr : f.regs = e.regs) : aside w F d f :=
  k.trans ⟨k'.mono hs, fun r i j _ _ => Dev.get_of_regs _ _ _ _ (by rw [hr])⟩

variable {b : Blk} (hb : Clear w b)
include hb

theorem put {r : Reg} {i j : Nat} (v : Word) (hF : .regs ∈ F) (ho : ownOfs (r.ofs i j)) : aside w F d (e.put b r v i j) :=
  k.trans ⟨(e.put_changes b r v i j).mono (Part.only hF),
    fun _ _ _ hq hw => Dev.get_put_ne _ _ _ _ _ _ _ _ _ _ (hb.radr_ne hq hw ho)⟩

theorem bump {r : Reg} {i j n : Nat} (hF : .regs ∈ F) (ho : ownOfs (r.ofs i j)) : aside w F d (e.bump b r n i j) := k.put hb _ hF ho

theorem putB {r : Reg} {i j n : Nat} {v : Bool} (hF : .regs ∈ F) (ho : ownOfs (r.ofs i j)) : aside w F d (e.putB b r n v i j) := k.put hb _ hF ho

theorem putF {r : Reg} {i j hi lo n : Nat} (hF : .regs ∈ F) (ho : ownOfs (r.ofs i j)) : aside w F d (e.putF b r hi lo n i j) := k.put hb _ hF ho

variable (hp : Apart w)
include hp

theorem event {r en : Reg} {m : Word} {v i : Nat} (hF : [.regs, .vecs] ⊆ F) (hv : v < 64) (ho : ownOfs (r.ofs i 0)) :
    aside w F d (e.event b r en m v i) :=
  k.trans ⟨(e.event_changes _ _ _ _ _ _).mono hF,
    fun _ _ _ hq hw => e.event_get_ne hp.hif hq _ _ hv (hb.radr_ne hq hw ho)⟩

theorem detect {c : Option Nat} {n a : Nat} {tr inj al : Bool} (hF : [.regs, .vecs, .fabric] ⊆ F) : aside w F d (e.detect b c n a tr inj al) :=
  k.trans ⟨(e.detect_changes _ _ _ _ _ _ _).mono hF,
    fun _ _ _ hq hw => e.detect_get hp.hif hq _ _ _ _ _ _ hp.fltc (hb.radr_ne hq hw (by decide))⟩

theorem raise {c : Option Nat} {n a : Nat} (hF : [.regs, .vecs, .fabric] ⊆ F) : aside w F d (e.raise b c n a) := k.detect hb hp hF

end

/-! Journal and pipelines. -/

section
variable {w : Watch} {F : List Part} {d e : Dev} (k : aside w F d e) (hp : Apart w)
include k hp

theorem laneLog (hF : [.regs, .vecs, .fabric, .jrn] ⊆ F) (n : Fin 40) (ev : Nat) (ser : List Word) : aside w F d (e.laneLog n ev ser) := by
  have hr : Part.regs ∈ F := hF (by decide)
  have hj : ∀ {x : Dev} (g : Jrn → Jrn), aside w F d x → aside w F d (x.jmod g) := fun g hx =>
    hx.beside (G := [.jrn]) rfl (Part.only (hF (by decide))) rfl
  have hs : ∀ {x : Dev}, aside w F d x → aside w F d x.jShow := fun hx => by
    unfold Dev.jShow
    exact ((((((hx.put hp.jrnl _ hr (by decide)).put hp.jrnl _ hr (by decide)).put hp.jrnl _ hr (by decide)).putF hp.jrnl hr (by decide)).putB
      hp.jrnl hr (by decide)).putF hp.jrnl hr (by decide)).putF hp.jrnl hr (by decide)
  unfold Dev.laneLog Dev.jAppend Dev.jQueue
  refine .ite k (.ite k ?_)
  split
  · exact k
  · split
    · exact (k.bump hp.jrnl hr (by decide)).raise hp.jrnl hp (List.Subset.trans (by decide) hF)
    · exact hs (hj _ k)

theorem mpvEval (hF : [.regs, .mpvs] ⊆ F) (g : Fin 32) : aside w F d (e.mpvEval g) := by
  have hr : Part.regs ∈ F := hF (by decide)
  have h1 := k.putB (r := R.MPV_STAT) (i := 0) (j := 0) (n := 5) (v := e.cameraHere g) (hp.mpv g) hr (by decide)
  unfold Dev.mpvEval
  refine .ite h1 (.ite (h1.putF (r := R.MPV_STAT) (i := 0) (j := 0) (hp.mpv g) hr (by decide)) (.ite ?_ h1))
  have h2 : aside w F d (((e.putB (mpvB g) R.MPV_STAT 5 (e.cameraHere g))).mpvMod g fun x => { x with guest := none, was := none }) :=
    h1.beside (G := [.mpvs]) rfl (Part.only (hF (by decide))) rfl
  exact h2.putF (r := R.MPV_STAT) (i := 0) (j := 0) (hp.mpv g) hr (by decide)

theorem linkLat (hr : .regs ∈ F) (g : Fin 32) : aside w F d (e.linkLat g) := by
  refine k.put (hp.servo ⟨g.val / 4, by omega⟩) _ hr ?_
  revert g
  decide

theorem fmapShow (hr : .regs ∈ F) (g : Fin 32) : aside w F d (e.fmapShow g) := by
  unfold Dev.fmapShow
  exact (((k.putB (hp.head g) hr (by decide)).putB (hp.head g) hr (by decide)).putB (hp.head g) hr (by decide)).put (hp.head g) _ hr (by decide)

omit hp in
theorem trvMod (hF : .heads ∈ F) (g : Fin 32) (u : Trv → Trv) : aside w F d (e.trvMod g u) :=
  k.beside (G := [.heads]) rfl (Part.only hF) rfl

omit hp in
theorem modArrive (hF : .msps ∈ F) (n : Fin 40) : aside w F d (e.modArrive n) := by
  unfold Dev.modArrive
  exact .ite k (.foldl _ k fun x r hx => hx.beside (G := [.msps]) rfl (Part.only hF) rfl)

end

/-! Heads and spindles. -/

section
variable {w : Watch} {d e : Dev} (k : aside w goneParts d e) (hp : Apart w)
include k

theorem cellMod (i : Fin 256) (u : SCell → SCell) : aside w goneParts d (e.cellMod i u) := k.beside (G := [.cells]) rfl (by decide) rfl
theorem mspMod (m : Fin 64) (u : Msp → Msp) : aside w goneParts d (e.mspMod m u) := k.beside (G := [.msps]) rfl (by decide) rfl
include hp

theorem mspReg (m : Fin 64) {r : Reg} (v : Word) (hs : r.s0 = 0x100 ∧ r.s1 = 0 ∧ 8 < r.off ∧ r.off < 0x200) : aside w goneParts d (e.put (mspB m) r v (mspC m)) := by
  obtain ⟨h0, h1, h2, h3⟩ := hs
  refine k.put (hp.msp m) _ (by decide) ?_
  rw [Reg.ofs, h0, h1]
  have : mspC m < 8 := Nat.mod_lt _ (by decide)
  omega

omit hp in
theorem takeDue (i : Fin 256) : aside w goneParts d (e.takeDue i) := by
  unfold Dev.takeDue
  have h1 : aside w goneParts d { e with live := e.cells[i].due.foldl (fun l x => spPut l x.1 x.2) e.live } :=
    k.beside (G := [.live]) rfl (by decide) rfl
  exact .ite k (h1.cellMod i _)

theorem tuneCellFail (i : Fin 256) (err : Nat) : aside w goneParts d (e.tuneCellFail i err) := by
  unfold Dev.tuneCellFail Dev.tuneFail
  refine .ite ?_ k
  split
  · exact k
  · have h1 : aside w goneParts d (e.opFail (blk .servo (Fin.ofNat 8 (i.val / 24)).val) err) := k.put (hp.servo _) _ (by decide) (by decide)
    generalize e.opFail (blk .servo (Fin.ofNat 8 (i.val / 24)).val) err = e1 at h1 ⊢
    unfold Dev.tuneEnd
    split
    · exact h1
    · have h2 : aside w goneParts d { e1 with tunes := e1.tunes.set (Fin.ofNat 8 (i.val / 24)) none } :=
        h1.beside (G := [.tunes]) rfl (by decide) rfl
      exact h2.cellMod _ _

theorem homeBad (m : Fin 64) (reason : Nat) : aside w goneParts d (e.homeBad m reason) := by
  unfold Dev.homeBad Dev.mstat Dev.mput Dev.mevent Dev.mfault
  exact (((((k.mspMod m _).cellMod _ _).mspReg hp m _ (by decide)).mspReg hp m _ (by decide)).mspReg hp m _ (by decide)).raise (hp.msp m) hp (by decide)

theorem mqueueDrop (m : Fin 64) : aside w goneParts d (e.mqueueDrop m) := (k.mspMod m _).mspReg hp m _ (by decide)

theorem mspLeave (m : Fin 64) (a b : Nat) : aside w goneParts d (e.mspLeave m a b) := by
  unfold Dev.mspLeave Dev.mstat
  extract_lets d1 d2
  have h1 : aside w goneParts d d1 := .ite (k.mqueueDrop hp m) k
  clear_value d1
  have h2 : aside w goneParts d d2 := (h1.mspMod m _).mspReg hp m _ (by decide)
  exact .ite (.ite (h2.homeBad hp m 4) h2) h1

theorem cellState (i : Fin 256) (st : Nat) : aside w goneParts d (e.cellState i st) := by
  have hs : ∀ hi : isHead i = true, cellIx i < 24 := fun hi => by rw [cellIx, if_pos hi]; omega
  have hm : ∀ hi : ¬isHead i = true, cellIx i < 8 := fun hi => by rw [cellIx, if_neg hi]; omega
  have hput : ∀ {x : Dev} (r : Reg) (v : Word), aside w goneParts d x → ownOfs (r.ofs (cellIx i) 0) → aside w goneParts d (x.put (cellBlk i) r v (cellIx i)) :=
    fun r v hx ho => hx.put (hp.cell i) v (by decide) ho
  have hshow : ∀ {x : Dev}, aside w goneParts d x → aside w goneParts d (x.stateShow i st) := fun hx => by
    unfold Dev.stateShow
    split
    · rename_i hi
      exact hput _ _ hx (by have := hs hi; change ownOfs (0x154 + 0x80 * cellIx i + 0 * 0); omega)
    · rename_i hi
      exact hput _ _ hx (by have := hm hi; change ownOfs (0x15C + 0x100 * cellIx i + 0 * 0); omega)
  have hev : ∀ {x : Dev}, aside w goneParts d x → aside w goneParts d (x.cellEvent i) := fun hx => by
    unfold Dev.cellEvent Dev.eventQuiet
    split
    · exact hx.event (hp.cell i) hp (by decide) (by omega) (by decide)
    · rename_i hi
      exact hput _ _ hx (by have := hm hi; change ownOfs (0x1F8 + 0x100 * cellIx i + 0 * 0); omega)
  unfold Dev.cellState
  extract_lets old off d0 d1 d2
  have h0 : aside w goneParts d d0 := .ite (k.takeDue i) k
  clear_value d0
  have h1 : aside w goneParts d d1 := h0.cellMod i _
  clear_value d1
  have h2 : aside w goneParts d d2 := by
    simp only [d2]
    split
    · exact h1.mspLeave hp _ _ _
    · split
      · rename_i hi _
        exact hput _ _ h1 (by have := hs (not_not.mp hi); change ownOfs (0x154 + 0x80 * cellIx i + 0 * 0); omega)
      · exact h1
  exact .ite k (hev (hshow h2))

theorem headCellOut (i : Fin 256) (st : Nat) : aside w goneParts d (e.headCellOut i st) := by
  unfold Dev.headCellOut
  exact .ite k (((k.tuneCellFail hp i 0x80).cellMod i _).cellState hp i st)

theorem modDepart (n : Fin 40) : aside w goneParts d (e.modDepart n) := by
  unfold Dev.modDepart
  refine .ite k (.foldl _ k fun x r hx => ?_)
  extract_lets m was e1 e2
  have ho : ∀ {y : Dev}, aside w goneParts d y → aside w goneParts d (y.mspOut m 0) := fun hy => by
    unfold Dev.mspOut
    exact .ite hy ((hy.cellMod _ _).cellState hp _ _)
  have h1 : aside w goneParts d e1 := (ho (hx.mqueueDrop hp m)).mspReg hp m _ (by decide)
  have h2 : aside w goneParts d e2 := h1.mspMod m _
  exact .ite h2 (h2.raise (hp.msp m) hp (by decide))

end

end Dev.aside

end Sys2Proof.Machine
end

section
/-! SUPPORT. The loss of a head (R212, R321) leaves the blocks of other kinds, the cells and the lanes alone. -/

namespace Sys2Proof.Machine

/-- The parts that the loss of a head may change. -/
def lostParts : List Part := [.regs, .vecs, .fabric, .heads, .ply, .rep, .thm]

namespace Dev.aside

section
variable {w : Watch} {d e : Dev} (k : aside w lostParts d e) (hp : Apart w)
include k

theorem drfMod (g : Fin 32) (u : Drf → Drf) : aside w lostParts d (e.drfMod g u) := k.beside (G := [.heads]) rfl (by decide) rfl
theorem corMod (g : Fin 32) (u : Cor → Cor) : aside w lostParts d (e.corMod g u) := k.beside (G := [.heads]) rfl (by decide) rfl
theorem plyMod (u : Ply → Ply) : aside w lostParts d (e.plyMod u) := k.beside (G := [.ply]) rfl (by decide) rfl
theorem phMod (g : Fin 32) (u : PHead → PHead) : aside w lostParts d (e.phMod g u) := k.plyMod _

theorem post {c : Cls} {src dst : Blk} {cell port : Option Nat} {body : Body} {st : BitVec 4} {tag : Nat} :
    aside w lostParts d (e.post c src dst cell port body st tag) := k.beside (G := [.fabric]) rfl (by decide) rfl

theorem list {id : Word} {reason hd : Nat} {pool : Bool} {first count : Nat} : aside w lostParts d (e.list id reason hd pool first count) :=
  .ite k (k.beside (G := [.rep]) rfl (by decide) rfl)

include hp

/-! Pool and items. -/

theorem plyPut {r : Reg} {i j : Nat} (v : Word) (ho : ownOfs (r.ofs i j)) : aside w lostParts d (e.put plyB r v i j) := k.put hp.ply v (by decide) ho

theorem plyEvent (n : Nat) : aside w lostParts d (e.plyEvent n) := k.event hp.ply hp (by decide) (by decide) (by decide)

theorem plyShow : aside w lostParts d e.plyShow := (k.plyPut hp _ (by decide)).plyPut hp _ (by decide)

theorem poolList (id : Word) (reason hd first count : Nat) : aside w lostParts d (e.poolList id reason hd first count) :=
  k.list.plyPut hp _ (by decide)

theorem itemGone (ix : Nat) : aside w lostParts d (e.itemGone ix) := (k.plyMod _).plyShow hp

omit hp in
theorem itemBack (ix : Nat) : aside w lostParts d (e.itemBack ix) := by
  unfold Dev.itemBack Dev.itemMod
  exact k.plyMod _

theorem itemLost (m : Mem) (h : Fin 32) (i : Item) : aside w lostParts d (e.itemLost m h i) := by
  unfold Dev.itemLost
  extract_lets el all kx at_ restN d1 reply p d2 d2'
  have h1 : aside w lostParts d d1 := k.poolList hp _ _ _ _ _
  have h2 : aside w lostParts d d2 := h1.plyMod _
  have h2' : aside w lostParts d d2' := (h1.poolList hp _ _ _ _ _).itemGone hp _
  exact .ite (k.itemGone hp _) (.ite (k.itemBack _) (.ite (h1.itemGone hp _) (.ite ((h2.plyPut hp _ (by decide)).plyEvent hp 2)
    (.ite h2' (h2'.plyEvent hp 3)))))

/-! Token and boxes. -/

theorem tokenGrant (g : Fin 32) (b : PBox) : aside w lostParts d (e.tokenGrant g b) := by
  unfold Dev.tokenGrant
  extract_lets d1 senior
  have h1 : aside w lostParts d d1 := ((k.phMod g _).plyPut hp _ (by decide)).plyMod _
  have h2 : aside w lostParts d (if senior then d1.plyEvent 5 else d1) := .ite (h1.plyEvent hp 5) h1
  exact h2.plyMod _

theorem tokenServe (n : Nat) : aside w lostParts d (Machine.tokenServe n e) := by
  induction n generalizing e with
  | zero => exact k
  | succ n ih =>
    unfold Machine.tokenServe
    split
    · exact k
    · split
      · exact k
      · exact .ite k (ih (k.tokenGrant hp _ _))

theorem freeServe : aside w lostParts d e.freeServe := by
  unfold Dev.freeServe
  extract_lets ws ord
  refine plyMod (.foldl ord k fun x g hx => ?_) _
  split
  · exact hx
  · exact .ite hx ((hx.phMod g _).plyPut hp _ (by decide))

theorem plyServe : aside w lostParts d e.plyServe := ((k.plyMod _).tokenServe hp 64).freeServe hp

/-! Deposits. -/

theorem headPut (g : Fin 32) {r : Reg} (v : Word) (ho : ownOfs (r.ofs 0 0)) : aside w lostParts d (e.put (headB g) r v) := k.put (hp.head g) v (by decide) ho

theorem depositSend (g : Fin 32) : aside w lostParts d (e.depositSend g) := by
  have hf : aside w lostParts d (e.corForce g 32768 32768) := by
    unfold Dev.corForce
    exact ((k.trvMod (by decide) g _).drfMod g _).headPut hp g _ (by decide)
  unfold Dev.depositSend Dev.corIdle
  extract_lets c nj d1
  split
  · exact k
  · have hi : aside w lostParts d (e.corIdle g) := .ite k hf
    exact ((hi.corMod g _).headPut hp g _ (by decide)).post

theorem depositPart (g : Fin 32) (tile a b : Nat) (fall : Bool) : aside w lostParts d (e.depositPart g tile a b fall) := by
  unfold Dev.depositPart
  extract_lets x d1
  have h1 : aside w lostParts d d1 := .ite k (k.corMod g _)
  exact .ite (h1.depositSend hp g) h1

theorem depositTick (g : Fin 32) (n : Nat) : aside w lostParts d (e.depositTick g n) := by
  unfold Dev.depositTick
  extract_lets t a b on_ d0 tile d1 cuts
  have h0 : aside w lostParts d d0 := k.corMod g _
  have h1 : aside w lostParts d d1 := .ite h0 (h0.depositSend hp g)
  refine .ite k (.ite (h0.corMod g _) (.ite (.ite h0 (h0.depositSend hp g)) ?_))
  clear_value tile d1
  cases tile with
  | none => exact (h1.put hp.lat _ (by decide) (by decide)).event hp.lat hp (by decide) (by decide) (by decide)
  | some i =>
    have h2 := foldl (g := fun (e : Dev) (p : Nat × Nat) => e.depositPart g i p.1 p.2 true) (([a] ++ cuts).zip cuts) h1
      fun _ _ hx => hx.depositPart hp g _ _ _ _
    exact .ite ((h2.depositPart hp g _ _ _ _).depositSend hp g) (h2.depositPart hp g _ _ _ _)

theorem depositFlush (g : Fin 32) : aside w lostParts d (e.depositFlush g) := by
  unfold Dev.depositFlush
  extract_lets n
  exact .ite k ((foldl _ k fun _ _ hx => hx.depositTick hp g _).depositSend hp g)

/-! The loss. -/

theorem headLost (m : Mem) (h : Fin 32) : aside w lostParts d (e.headLost m h) := by
  unfold Dev.headLost
  extract_lets first id open_ own bit_ rep d1 d2 d3 d4 dead d5 d6 d7 thm d8
  have h1 : aside w lostParts d d1 := k.beside (G := [.rep]) rfl (by decide) rfl
  have h2 : aside w lostParts d d2 := (h1.phMod h _).phMod h _
  clear_value d2
  have h3 : aside w lostParts d d3 := (foldl own h2 fun x i hx => hx.itemLost hp m h i).phMod h _
  clear_value d3
  have h4 : aside w lostParts d d4 := h3.plyMod _
  clear_value d4
  have h5 : aside w lostParts d d5 := .foldl dead h4 fun x i hx => (hx.poolList hp _ _ _ _ _).itemGone hp _
  clear_value d5
  have h6 : aside w lostParts d d6 := .ite (h5.list.drfMod h _) h5
  clear_value d6
  have h7 : aside w lostParts d d7 := (((h6.trvMod (by decide) h _).trvMod (by decide) h _).depositFlush hp h).drfMod h _
  clear_value d7
  have h8 : aside w lostParts d d8 := h7.beside (G := [.thm]) rfl (by decide) rfl
  exact .ite k (((h8.plyEvent hp 1).raise hp.ply hp (by decide)).plyServe hp)

end

end Dev.aside

end Sys2Proof.Machine
end

section
/-! SUPPORT. The states a lane takes, its training, and what the departure of its partner leaves (R314 to R319). -/

namespace Sys2Proof.Machine

theorem apart_lane (n : Fin 40) : Apart (pageOf (laneB n)) :=
  apart_page (t := .lane) ((by decide : ∀ n : Fin 40, blkKind (laneB n) = some (.lane, n.val)) n) (by decide)

/-! A lane takes a state. -/

/-- Lane `n` is in state `st`, its partner as before; of the registers only LANE_STAT differs, and no other lane. -/
structure Dev.laneAt (n : Fin 40) (st : Nat) (d e : Dev) : Prop where
  frame : d.changes [.regs, .lanes] e
  state : e.laneSt n = st
  here : e.present n = d.present n
  regs : d.regsKept e fun a => a = radr (laneB n) R.LANE_STAT
  others : ∀ k : Fin 40, k ≠ n → e.lanes[k] = d.lanes[k]

namespace Dev.laneAt

variable {n : Fin 40} {st : Nat} {d e : Dev} (h : laneAt n st d e)
include h

theorem laneMod (f : Lane → Lane) : laneAt n st d (e.laneMod n f) :=
  ⟨h.frame.trans ((e.laneMod_changes n f).mono (by decide)), h.state, h.here, h.regs, fun k hk => (vmod_ne e.lanes f hk).trans (h.others k hk)⟩

/-- A field of LANE_STAT above the partner's bit. -/
theorem note {hi lo : Nat} (v : Nat) (hl : 6 < lo) (hh : hi < 32) : laneAt n st d (e.putF (laneB n) R.LANE_STAT hi lo v) :=
  ⟨h.frame.trans ((e.put_changes _ _ _ _ _).mono (by decide)), (e.getF_putF_other _ _ 0 0 v hh (.inl (by omega))).trans h.state,
    (e.getB_putF_other _ _ 0 0 v hh (.inl hl)).trans h.here, h.regs.trans (e.regsKept_putF _ _ _ _ _ _ _ rfl), h.others⟩

end Dev.laneAt

section
variable (d : Dev) (n : Fin 40)

theorem Dev.laneShow_at {st : Nat} (hst : st < 16) (rate preset : Nat) : Dev.laneAt n st d (d.laneShow n st rate preset) := by
  unfold Dev.laneShow
  extract_lets use d1
  have h0 : Dev.laneAt n st d (d.putF (laneB n) R.LANE_STAT 3 0 st) :=
    ⟨(d.put_changes _ _ _ _ _).mono (by decide), (d.getF_putF_same _ _ 0 0 st (by decide) (by decide)).trans (Nat.mod_eq_of_lt hst),
      d.getB_putF_other _ _ 0 0 st (by decide) (.inr (by decide)), d.regsKept_putF _ _ _ _ _ _ _ rfl, fun _ _ => rfl⟩
  have h1 : Dev.laneAt n st d d1 := h0.note _ (by decide) (by decide)
  clear_value d1
  have h2 : ∀ v, Dev.laneAt n st d (d1.putF (laneB n) R.LANE_STAT 5 4 v) := fun v =>
    ⟨h1.frame.trans ((d1.put_changes _ _ _ _ _).mono (by decide)), (d1.getF_putF_other _ _ 0 0 v (by decide) (.inl (by decide))).trans h1.state,
      (d1.getB_putF_other _ _ 0 0 v (by decide) (.inr (by decide))).trans h1.here, h1.regs.trans (d1.regsKept_putF _ _ _ _ _ _ _ rfl), h1.others⟩
  exact (h2 _).note _ (by decide) (by decide)

theorem Dev.laneTo_at {st : Nat} (hst : st < 16) : Dev.laneAt n st d (d.laneTo n st) := (d.laneShow_at n hst _ _).laneMod _

/-- What a transition leaves of the lane's own state (R311, R317). -/
theorem Dev.laneTo_lane (st : Nat) : (d.laneTo n st).lanes[n] = { d.lanes[n] with
    vc3 := if (d.laneSt n = 4 && st = 5) || (d.laneSt n = 5 && st = 4) then d.lanes[n].vc3 else none
    burst := none, farAsk := none, far := false } := vmod_same d.lanes n _

/-- The settings of the lane read as before its transition. -/
theorem Dev.laneAt.lget {n : Fin 40} {st : Nat} {d e : Dev} (h : Dev.laneAt n st d e) {r : Reg} (hr : r.ofs 0 0 ≠ R.LANE_STAT.ofs 0 0) :
    e.lget n r = d.lget n r := h.regs.get _ _ _ _ (radr_ne_of_ofs _ _ _ 0 0 0 0 hr)

/-! Training. -/

/-- The fastest rate of a sweep is MAXRATE, where all are allowed. -/
theorem Dev.sweepRates_head (h2 : d.maxRate n ≤ 2) (hr : d.lanes[n].rates = 7) : ∃ rs, d.sweepRates n = d.maxRate n :: rs := by
  have hmin : d.minRate n ≤ d.maxRate n := Nat.min_le_left _ _
  unfold Dev.sweepRates
  rw [hr]
  generalize d.minRate n = lo at hmin ⊢
  generalize d.maxRate n = hi at h2 hmin ⊢
  have hkey : ∀ hi lo : Fin 3, lo ≤ hi → ([2, 1, 0].filter fun r => lo.val ≤ r ∧ r ≤ hi.val ∧ (7 : BitVec 3).getLsbD r).head? = some hi.val := by
    decide
  exact List.head?_eq_some_iff.mp (hkey ⟨hi, by omega⟩ ⟨lo, by omega⟩ hmin)

theorem Dev.laneTrain_at (h2 : d.maxRate n ≤ 2) : Dev.laneAt n 2 d (d.laneTrain n) ∧
    (d.laneTrain n).lanes[n].phase = .trial d.now ∧ (d.laneTrain n).lanes[n].rate = d.maxRate n ∧ (d.laneTrain n).lanes[n].preset = 0 := by
  unfold Dev.laneTrain
  extract_lets d1
  have h1 : Dev.laneAt n 2 d d1 := ((d.laneTo_at n (by decide)).note _ (by decide) (by decide)).note _ (by decide) (by decide)
  clear_value d1
  generalize hd2 : d1.laneMod n _ = e
  have he : Dev.laneAt n 2 d e := hd2 ▸ h1.laneMod _
  have hrt : e.lanes[n].rates = 7 := by
    rw [← hd2]
    exact congrArg Lane.rates (vmod_same d1.lanes n _)
  have hm : e.maxRate n = d.maxRate n := congrArg (fun w => fld w 2 1) (he.lget (r := R.LANE_CTL) (by decide))
  obtain ⟨rs, hrs⟩ := e.sweepRates_head n (hm ▸ h2) hrt
  have hst : e.sweepStart n = e.laneMod n fun l => { l with phase := .trial e.now, rate := e.maxRate n, preset := 0 } := by
    unfold Dev.sweepStart
    rw [hrs]
  have hl := vmod_same e.lanes n fun l => { l with phase := .trial e.now, rate := e.maxRate n, preset := 0 }
  rw [hst]
  refine ⟨he.laneMod _, (congrArg Lane.phase hl).trans (congrArg TrainPhase.trial (he.frame.get Dev.now)), (congrArg Lane.rate hl).trans hm, congrArg Lane.preset hl⟩

/-! The registers that show the partner's descriptor. -/

theorem Dev.descPuts_spec (f : Nat → Word) (m : Nat) :
    let e := (List.range m).foldl (fun (e : Dev) i => e.put (laneB n) R.LANE_DESC (f i) i) d
    d.changes [.regs] e ∧ (∀ i, i < m → e.desc n i = f i) ∧ d.regsKept e fun a => ∃ i < m, a = radr (laneB n) R.LANE_DESC i := by
  induction m with
  | zero => exact ⟨.refl d _, fun i hi => absurd hi (by omega), d.regsKept_refl _⟩
  | succ m ih =>
    dsimp only at ih ⊢
    rw [List.range_succ, List.foldl_append]
    generalize (List.range m).foldl (fun (e : Dev) i => e.put (laneB n) R.LANE_DESC (f i) i) d = x at ih ⊢
    obtain ⟨h1, h2, h3⟩ := ih
    refine ⟨h1.trans (x.put_changes _ _ _ _ _), fun i hi => ?_, ?_⟩
    · by_cases him : i = m
      · subst him
        exact Dev.get_put_same _ _ _ _ _ _
      · refine (Dev.get_put_ne _ _ _ _ _ _ _ _ _ _ (radr_ne_of_ofs _ _ _ _ _ _ _ ?_)).trans (h2 i (by omega))
        change 0x160 + 4 * i + 0 * 0 ≠ 0x160 + 4 * m + 0 * 0
        omega
    · exact (h3.mono fun a ⟨i, hi, ha⟩ => ⟨i, by omega, ha⟩).trans (x.regsKept_put _ _ _ _ _ ⟨m, by omega, rfl⟩)

end

/-! Cells of a head that has left. -/

/-- A head's cell is taken out: it is OFF or FENCED then, and any other cell as it was or OFF. -/
theorem Dev.headCellOut_st (d : Dev) (i : Fin 256) :
    ((d.headCellOut i 0).cells[i].st = 0 ∨ (d.headCellOut i 0).cells[i].st = 5) ∧
    ∀ j : Fin 256, (d.headCellOut i 0).cells[j].st = d.cells[j].st ∨ (d.headCellOut i 0).cells[j].st = 0 := by
  have hst : ∀ {x y : Dev}, Dev.leaveWork x y → ∀ j : Fin 256, y.cells[j].st = x.cells[j].st := fun h j => congrArg Prod.fst (h.cells j)
  unfold Dev.headCellOut
  split
  · rename_i h5
    exact ⟨.inr h5.1, fun j => .inl rfl⟩
  · have h1 : Dev.leaveWork d ((d.tuneCellFail i 0x80).cellMod i fun c => { c with samples := [], newest := none, kDone := none, held := some d.tick }) :=
      ((Dev.leaveWork.refl d).tuneCellFail i 0x80).cellMod i fun _ => by rfl
    generalize (d.tuneCellFail i 0x80).cellMod i _ = x at h1 ⊢
    by_cases h0 : x.cells[i].st = 0
    · have hx : x.cellState i 0 = x := by
        unfold Dev.cellState
        exact if_pos h0
      rw [hx]
      exact ⟨.inl h0, fun j => .inl (hst h1 j)⟩
    · obtain ⟨y, hy, hxy⟩ := x.cellState_off i (.inl rfl) h0
      have hset := hst hy
      refine ⟨.inl ((hset i).trans (congrArg SCell.st (vmod_same y.cells i _))), fun j => ?_⟩
      by_cases hj : j = i
      · subst hj
        exact .inr ((hset j).trans (congrArg SCell.st (vmod_same y.cells j _)))
      · exact .inl ((hset j).trans ((congrArg SCell.st (vmod_ne y.cells _ hj)).trans ((hst hxy j).trans (hst h1 j))))

/-- After the cells of a head are taken out, each is OFF or FENCED. -/
theorem Dev.headCellsOut_st (d : Dev) (g : Fin 32) (l : List Nat) :
    let e := l.foldl (fun (e : Dev) r => e.headCellOut (headCell g r) 0) d
    (∀ r ∈ l, e.cells[headCell g r].st = 0 ∨ e.cells[headCell g r].st = 5) ∧
    ∀ j : Fin 256, e.cells[j].st = d.cells[j].st ∨ e.cells[j].st = 0 := by
  induction l generalizing d with
  | nil => exact ⟨fun r hr => absurd hr List.not_mem_nil, fun j => .inl rfl⟩
  | cons r l ih =>
    dsimp only at ih ⊢
    rw [List.foldl_cons]
    obtain ⟨h1, h2⟩ := d.headCellOut_st (headCell g r)
    obtain ⟨h3, h4⟩ := ih (d.headCellOut (headCell g r) 0)
    generalize d.headCellOut (headCell g r) 0 = x at h1 h2 h3 h4 ⊢
    refine ⟨fun q hq => ?_, fun j => ?_⟩
    · rcases List.mem_cons.mp hq with rfl | hq
      · rcases h4 (headCell g q) with h | h
        · rw [h]
          exact h1
        · exact .inl h
      · exact h3 q hq
    · rcases h4 j with h | h
      · rw [h]
        exact h2 j
      · exact .inr h

/-! The departure. -/

/-- A partner has departed from lane `n` (R319). -/
structure Dev.gone (n : Fin 40) (d e : Dev) : Prop where
  frame : d.changes goneParts e
  here : e.present n = false
  counted : e.getN (laneB n) R.LANE_DEPARTURES = min 0xFFFFFFFF (d.getN (laneB n) R.LANE_DEPARTURES + 1)
  desc : ∀ i, i < 16 → e.desc n i = 0
  ctl : e.lget n R.LANE_CTL = d.lget n R.LANE_CTL
  cells : n.val < 32 → ∀ r : Fin 6, e.cells[headCell (Fin.ofNat 32 n.val) r].st = 0 ∨ e.cells[headCell (Fin.ofNat 32 n.val) r].st = 5

/-- What follows without the lane's registers and the cells. -/
theorem Dev.gone.beside {n : Fin 40} {d e f : Dev} (h : Dev.gone n d e) {F : List Part} (k : Dev.aside (pageOf (laneB n)) F e f) (hF : F ⊆ goneParts)
    (hc : .cells ∉ F) : Dev.gone n d f := by
  have hcells : f.cells = e.cells := by
    have hh := congrArg Dev.cells (show f.hide F = e.hide F from k.frame)
    simpa only [Dev.hide, pick, if_neg hc] using hh
  refine ⟨h.frame.trans (k.frame.mono hF), (congrArg (fun w => bit w 6) (k.page _ _ _ (by decide))).trans h.here,
    (congrArg BitVec.toNat (k.page _ _ _ (by decide))).trans h.counted, fun i hi => (k.page _ _ _ ?_).trans (h.desc i hi),
    (k.page _ _ _ (by decide)).trans h.ctl, ?_⟩
  · change 0x160 + 4 * i + 0 * 0 < 0x1000
    omega
  · rw [hcells]
    exact h.cells

end Sys2Proof.Machine
end

section
/-! SUPPORT. A departure (R319): what it leaves, whatever ran on the lane. -/

namespace Sys2Proof.Machine

/-- A departure is counted and the partner is not present; its descriptor may still show. -/
structure Dev.left (n : Fin 40) (d e : Dev) : Prop where
  frame : d.changes goneParts e
  here : e.present n = false
  counted : e.getN (laneB n) R.LANE_DEPARTURES = min 0xFFFFFFFF (d.getN (laneB n) R.LANE_DEPARTURES + 1)
  ctl : e.lget n R.LANE_CTL = d.lget n R.LANE_CTL

namespace Dev.left

variable {n : Fin 40} {d e f : Dev} (h : left n d e)
include h

theorem keep (hc : e.changes goneParts f) (hk : ∀ r : Reg, r.s0 = 0 → r.s1 = 0 → r.off < 0x12C → r.off ≠ 0 → f.get (laneB n) r = e.get (laneB n) r) :
    left n d f :=
  ⟨h.frame.trans hc, (congrArg (fun w => bit w 6) (hk R.LANE_STAT rfl rfl (by decide) (by decide))).trans h.here,
    (congrArg BitVec.toNat (hk R.LANE_DEPARTURES rfl rfl (by decide) (by decide))).trans h.counted,
    (hk R.LANE_CTL rfl rfl (by decide) (by decide)).trans h.ctl⟩

theorem aside (k : Dev.aside (pageOf (laneB n)) goneParts e f) : left n d f :=
  h.keep k.frame fun r h0 h1 h2 _ => k.page _ _ _ (by rw [Reg.ofs, h0, h1]; omega)

theorem put {r : Reg} {i : Nat} (v : Word) (ho : 0x12C ≤ r.ofs i 0) : left n d (e.put (laneB n) r v i) :=
  h.keep ((e.put_changes _ _ _ _ _).mono (by decide)) fun q h0 h1 h2 _ => Dev.get_put_ne _ _ _ _ _ _ _ _ _ _
    (radr_ne_of_ofs _ _ _ _ _ _ _ (by rw [Reg.ofs, h0, h1]; omega))

/-- The descriptor cleared, and the cells of the head out, it is gone. -/
theorem cleared (hcells : n.val < 32 → ∀ r : Fin 6, e.cells[headCell (Fin.ofNat 32 n.val) r].st = 0 ∨ e.cells[headCell (Fin.ofNat 32 n.val) r].st = 5) :
    gone n d ((List.range 16).foldl (fun (e : Dev) i => e.put (laneB n) R.LANE_DESC 0 i) e) := by
  obtain ⟨h1, h2, h3⟩ := e.descPuts_spec n (fun _ => 0) 16
  generalize (List.range 16).foldl (fun (e : Dev) i => e.put (laneB n) R.LANE_DESC 0 i) e = x at h1 h2 h3 ⊢
  have hl : left n d x := h.keep (h1.mono (by decide)) fun r h0 h1 h2 _ => h3.get _ _ _ _ fun ⟨i, hi, ha⟩ => by
    refine radr_ne_of_ofs (laneB n) r R.LANE_DESC 0 0 i 0 ?_ ha.symm
    change 0x160 + 4 * i + 0 * 0 ≠ r.off + r.s0 * 0 + r.s1 * 0
    omega
  refine ⟨hl.frame, hl.here, hl.counted, h2, hl.ctl, ?_⟩
  rw [show x.cells = e.cells from h1.get Dev.cells]
  exact hcells

end Dev.left

section
variable (d : Dev) (m : Mem) (n : Fin 40)

theorem Dev.left_base : Dev.left n d ((((d.putB (laneB n) R.LANE_STAT 6 false).putF (laneB n) R.LANE_STAT 23 20 0).bump (laneB n)
    R.LANE_DEPARTURES).laneEvent n 2#32) := by
  generalize hx : (d.putB (laneB n) R.LANE_STAT 6 false).putF (laneB n) R.LANE_STAT 23 20 0 = x
  have h1 : d.changes [.regs] x := by
    rw [← hx]
    exact (d.put_changes _ _ _ _ _).trans (Dev.put_changes _ _ _ _ _ _)
  have h2 : x.present n = false := by
    rw [← hx]
    exact (Dev.getB_putF_other _ _ _ 0 0 0 (by decide) (.inl (by decide))).trans (d.getB_putB_same _ _ 0 0 false (by decide))
  have h3 : ∀ r : Reg, r.ofs 0 0 ≠ R.LANE_STAT.ofs 0 0 → x.get (laneB n) r = d.get (laneB n) r := fun r hr => by
    rw [← hx]
    exact (Dev.get_put_off _ _ _ _ hr).trans (d.get_put_off _ _ _ hr)
  clear hx
  have hb : ∀ r : Reg, r.ofs 0 0 ≠ R.LANE_DEPARTURES.ofs 0 0 → (x.bump (laneB n) R.LANE_DEPARTURES).get (laneB n) r = x.get (laneB n) r :=
    fun r hr => x.get_put_off _ _ _ hr
  have hn : (x.bump (laneB n) R.LANE_DEPARTURES).getN (laneB n) R.LANE_DEPARTURES = min 0xFFFFFFFF (d.getN (laneB n) R.LANE_DEPARTURES + 1) :=
    (x.getN_bump _ _ _ _).trans (congrArg (fun w => min 0xFFFFFFFF (w + 1)) (congrArg BitVec.toNat (h3 R.LANE_DEPARTURES (by decide))))
  have hl : Dev.left n d (x.bump (laneB n) R.LANE_DEPARTURES) :=
    ⟨(h1.trans (x.put_changes _ _ _ _ _)).mono (by decide), (congrArg (fun w => bit w 6) (hb R.LANE_STAT (by decide))).trans h2, hn,
      (hb R.LANE_CTL (by decide)).trans (h3 R.LANE_CTL (by decide))⟩
  refine hl.keep ((Dev.event_changes _ _ _ _ _ _ _).mono (by decide)) fun r h0 hs h2 _ => ?_
  refine Dev.event_get_ne _ (laneB_ne_hif n) (by rw [Reg.ofs, h0, hs]; omega) _ _ (by split <;> omega) (radr_ne_of_ofs _ _ _ _ _ _ _ ?_)
  rw [Reg.ofs, h0, hs]
  change r.off + 0 * 0 + 0 * 0 ≠ 0x1B0
  omega

theorem Dev.laneGone_gone : Dev.gone n d (d.laneGone m n) := by
  have hp := apart_lane n
  unfold Dev.laneGone
  extract_lets b ser d1 d2
  have h1 : Dev.left n d d1 := d.left_base n
  clear_value d1
  have h2 : Dev.left n d d2 := by
    have hs : ∀ (l : List (Word × Nat)) (e : Dev), Dev.left n d e → Dev.left n d (l.foldl (fun (e : Dev) w => e.put b R.LANE_SERIAL_LAST w.1 w.2) e) := by
      intro l
      induction l with
      | nil => exact fun _ he => he
      | cons w l ih => exact fun e he => ih _ (he.put _ (by change 0x12C ≤ 0x1A0 + 4 * w.2 + 0 * 0; omega))
    exact hs _ _ (h1.aside ((Dev.aside.refl d1).laneLog hp (by decide) n 1 ser))
  clear_value d2
  split
  · rename_i hn
    extract_lets hd d3 d4 d5a d5
    have hg : Fin.ofNat 32 n.val = hd := Fin.ext (Nat.mod_eq_of_lt hn)
    have h3 : Dev.left n d d3 := h2.aside (.foldl (List.range 6) (.refl d2) fun x r hx => hx.headCellOut hp _ 0)
    have hcells := (d2.headCellsOut_st (Fin.ofNat 32 n.val) (List.range 6)).1
    have hd3 : d3 = (List.range 6).foldl (fun (e : Dev) r => e.headCellOut (headCell (Fin.ofNat 32 n.val) r) 0) d2 := by rw [hg]
    have h4 : Dev.gone n d d4 := h3.cleared fun _ => by
      intro r
      rw [hd3]
      exact hcells r.val (List.mem_range.mpr r.isLt)
    clear_value d4
    have h5a : Dev.gone n d d5a := h4.beside (F := [.regs, .mpvs]) (((Dev.aside.refl d4).linkLat hp (by decide) hd).mpvEval hp (by decide) hd)
      (by decide) (by decide)
    clear_value d5a
    have h5 : Dev.gone n d d5 := by
      simp only [d5]
      split
      · exact h5a
      · exact h5a.beside ((Dev.aside.refl d5a).headLost hp m hd) (by decide) (by decide)
    clear_value d5
    split
    · exact h5.beside (F := [.regs, .heads]) ((((Dev.aside.refl d5).put (hp.head hd) _ (by decide) (by decide)).trvMod (by decide) hd _).fmapShow hp
        (by decide) hd) (by decide) (by decide)
    · exact h5
  · rename_i hn
    exact (h2.aside ((Dev.aside.refl d2).modDepart hp n)).cleared fun h => absurd h hn

end

end Sys2Proof.Machine
end

section
/-! SUPPORT. Lanes that move without a departure (R311 to R322). -/

namespace Sys2Proof.Machine

/-- Lane `n` has moved to state `st`: what the moves of R317 without a departure may change. -/
structure Dev.moved (n : Fin 40) (st : Nat) (d e : Dev) : Prop where
  frame : d.changes [.regs, .lanes, .mpvs] e
  state : e.laneSt n = st
  others : ∀ k : Fin 40, k ≠ n → e.lanes[k] = d.lanes[k]
  regs : d.regsKept e fun a => onPage (laneB n) a ∨ ∃ h : Fin 32, h.val = n.val ∧ a = radr (mpvB h) R.MPV_STAT

/-- A register of the lane is on its page. -/
theorem lanePage (n : Fin 40) {r : Reg} {i j : Nat} (h : r.ofs i j < 0x1000) : onPage (laneB n) (radr (laneB n) r i j) := onPage_radr _ _ _ h

theorem Dev.laneAt.moved {n : Fin 40} {st : Nat} {d e : Dev} (h : Dev.laneAt n st d e) : Dev.moved n st d e :=
  ⟨h.frame.mono (by decide), h.state, h.others, h.regs.mono fun _ ha => .inl (ha ▸ lanePage n (by decide))⟩

namespace Dev.moved

variable {n : Fin 40} {st : Nat} {d e f : Dev} (h : moved n st d e)
include h

theorem laneMod (u : Lane → Lane) : moved n st d (e.laneMod n u) :=
  ⟨h.frame.trans ((e.laneMod_changes n u).mono (by decide)), h.state, fun k hk => (vmod_ne e.lanes u hk).trans (h.others k hk), h.regs⟩

/-- A register of the lane other than LANE_STAT. -/
theorem put {r : Reg} (v : Word) (ho : r.ofs 0 0 < 0x1000) (hr : R.LANE_STAT.ofs 0 0 ≠ r.ofs 0 0) : moved n st d (e.put (laneB n) r v) :=
  ⟨h.frame.trans ((e.put_changes _ _ _ _ _).mono (by decide)), (congrArg (fun w => fld w 3 0) (e.get_put_off _ _ _ hr)).trans h.state, h.others,
    h.regs.trans (e.regsKept_put _ _ _ _ _ (.inl (lanePage n ho)))⟩

theorem laneSend (vc : Fin 4) (type : Nat) (data : List Byte) : moved n st d (e.laneSend n vc type data) := by
  have h0 : moved n st d (if e.lanes[n].spoils vc then e.bump (laneB n) R.LANE_INJCNT (e.lanes[n].inj.countP fun i => i.1 = vc.val) else e) := by
    split
    · exact h.put _ (by decide) (by decide)
    · exact h
  unfold Dev.laneSend
  exact (h0.laneMod _).put _ (by decide) (by decide)

theorem vc3Ask (type tries : Nat) : moved n st d (e.vc3Ask n type tries) := by
  unfold Dev.vc3Ask
  extract_lets data goes d1
  have h1 : moved n st d d1 := h.laneMod _
  split
  · exact h1.laneSend _ _ _
  · exact h1

theorem vc3Go : moved n st d (e.vc3Go n) := by
  unfold Dev.vc3Go
  split
  · split
    · exact h.vc3Ask _ _
    · exact h
  · exact h

/-- The head's pipeline looks at its camera. -/
theorem mpvEval (g : Fin 32) (hg : g.val = n.val) : moved n st d (e.mpvEval g) := by
  have hk := (Dev.aside.refl (w := pageOf (laneB n)) (F := [.regs, .mpvs]) e).mpvEval (apart_lane n) (by decide) g
  have hp : ∀ a, a = radr (mpvB g) R.MPV_STAT → onPage (laneB n) a ∨ ∃ h : Fin 32, h.val = n.val ∧ a = radr (mpvB h) R.MPV_STAT :=
    fun a ha => .inr ⟨g, hg, ha⟩
  have hr : e.regsKept (e.mpvEval g) fun a => a = radr (mpvB g) R.MPV_STAT := by
    unfold Dev.mpvEval
    extract_lets en here d1 st'
    have h1 : e.regsKept d1 fun a => a = radr (mpvB g) R.MPV_STAT := e.regsKept_putF _ _ _ _ _ _ _ rfl
    clear_value d1
    split
    · exact h1
    · split
      · exact h1.trans (d1.regsKept_putF _ _ _ _ _ _ _ rfl)
      · split
        · refine h1.trans (Dev.regsKept_putF (d1.mpvMod g fun x => { x with guest := none, was := none }) _ _ _ _ _ _ _ rfl)
        · exact h1
  exact ⟨h.frame.trans (hk.frame.mono (by decide)), (congrArg (fun w => fld w 3 0) (hk.page _ _ _ (by decide))).trans h.state,
    fun k hk' => by rw [show (e.mpvEval g).lanes = e.lanes from hk.frame.get Dev.lanes]; exact h.others k hk', h.regs.trans (hr.mono hp)⟩

end Dev.moved

theorem Dev.changes.laneParts {d e : Dev} (h : d.changes [.regs, .lanes, .mpvs] e) :
    e = { d with regs := e.regs, lanes := e.lanes, mpvs := e.mpvs } :=
  congrArg (fun x : Dev => { x with regs := e.regs, lanes := e.lanes, mpvs := e.mpvs }) h

/-! A management request. -/

/-- DESC_REQ in DISCOVER (R311): awaited from now on, held where the partner has no credit left. -/
theorem Dev.descReq_vc3 (d : Dev) (n : Fin 40) (h3 : d.laneSt n = 3) :
    (d.descReq n 1).lanes[n].vc3 = some ⟨0, d.now, 1, decide (d.lanes[n].cred3 = 0)⟩ := by
  have hgoes : (d.laneCan n 3 (d.vc3Data n 0).length || (d.laneSt n = 3 && frameUnits (d.vc3Data n 0).length ≤ d.lanes[n].cred3)) =
      decide (1 ≤ d.lanes[n].cred3) := by
    have hlen : (d.vc3Data n 0).length = 6 := rfl
    have hup : d.laneUp n = false := decide_eq_false (by omega)
    rw [Dev.laneCan, hup, hlen, Bool.false_and, Bool.false_or, decide_eq_true h3, Bool.true_and]
    rfl
  have hheld : (!decide (1 ≤ d.lanes[n].cred3)) = decide (d.lanes[n].cred3 = 0) := by
    rw [← decide_not]
    exact decide_eq_decide.mpr (by omega)
  unfold Dev.descReq Dev.vc3Ask
  extract_lets data goes d1
  have hg : goes = decide (1 ≤ d.lanes[n].cred3) := hgoes
  have h1 : d1.lanes[n].vc3 = some ⟨0, d.now, 1, !goes⟩ := congrArg Lane.vc3 (vmod_same d.lanes n _)
  rw [hg, hheld] at h1
  clear_value d1
  split
  · rw [← h1]
    have hsend : ∀ (x : Dev) (vc : Fin 4) type dat, (x.laneSend n vc type dat).lanes[n].vc3 = x.lanes[n].vc3 := fun x vc type dat => by
      unfold Dev.laneSend
      extract_lets u spoil d0
      have h0 : d0.lanes = x.lanes := by simp only [d0]; split <;> rfl
      clear_value d0
      exact (congrArg Lane.vc3 (vmod_same d0.lanes n _)).trans (by rw [h0])
    exact hsend _ _ _ _
  · exact h1

end Sys2Proof.Machine
end

section
/-! SUPPORT. The commands that move a lane (R314 to R322). -/

namespace Sys2Proof.Machine

section
variable (s : State) (n : Fin 40)

/-- A command that does `e` to lane `n` moves it to `st`. -/
def laneMoved (c : Instr) (st : Nat) : Prop := ∃ d' : Dev, exec c s = .next { s with dev := d' } ∧ Dev.moved n st s.dev d' ∧
  (st = 2 → d'.lanes[n].phase = .trial s.dev.now ∧ d'.lanes[n].rate = s.dev.maxRate n ∧ d'.lanes[n].preset = 0) ∧
  (st = 3 → d'.lanes[n].vc3 = some ⟨0, s.dev.now, 1, decide (s.dev.lanes[n].cred3 = 0)⟩)

/-- A bit outside the fields with a range is the one written. -/
theorem limApply_bit (old : Word) (k : Nat) (ls : List Lim) (v : Word) (h : ∀ l ∈ ls, k < l.lo ∧ l.hi < 32) :
    bit (limApply old ls v) k = bit v k := by
  induction ls generalizing v with
  | nil => rfl
  | cons l ls ih =>
    obtain ⟨h1, h2⟩ := h l List.mem_cons_self
    refine (ih _ fun q hq => h q (List.mem_cons_of_mem l hq)).trans ?_
    split
    · rfl
    · rw [bit_setFld _ _ _ _ _ h2]
      exact if_neg (by omega)

/-- LANE_CTL is written. -/
theorem Dev.laneCtl_put (d : Dev) (v : Word) : Dev.moved n (d.laneSt n) d (d.put (laneB n) R.LANE_CTL (R.LANE_CTL.write (d.lget n R.LANE_CTL) v)) ∧
    bit ((d.put (laneB n) R.LANE_CTL (R.LANE_CTL.write (d.lget n R.LANE_CTL) v)).lget n R.LANE_CTL) 0 = bit v 0 := by
  refine ⟨Dev.moved.put ⟨.refl d _, rfl, fun _ _ => rfl, d.regsKept_refl _⟩ _ (by decide) (by decide), ?_⟩
  unfold Dev.lget
  rw [Dev.get_put_same]
  generalize d.get (laneB n) R.LANE_CTL = w
  refine (limApply_bit w 0 _ (v &&& R.LANE_CTL.mask) (by decide)).trans ?_
  rw [bit, bit, BitVec.getLsbD_and, show R.LANE_CTL.mask.getLsbD 0 = true from by decide, Bool.and_true]

theorem laneEnable_moved (v : Word) (ht : s.dev.takes (laneB n) 0x100) (hv : bit v 0 = true) (h0 : s.dev.laneSt n = 0) (hb : s.dev.laneBarred n = false) :
    laneMoved s n (.laneEnable n v) 1 := by
  obtain ⟨h1, hbit⟩ := s.dev.laneCtl_put n v
  generalize hd1 : s.dev.put (laneB n) R.LANE_CTL (R.LANE_CTL.write (s.dev.lget n R.LANE_CTL) v) = d1 at h1 hbit
  have hfence : ∀ b, d1.fence b = s.dev.fence b := fun b => by
    rw [← hd1]
    exact s.dev.getF_put_ne _ _ _ (radr_ne_of_page _ _ _ _ _ _ _ _ (by decide))
  have hcond : d1.laneSt n = 0 ∧ bit (d1.lget n R.LANE_CTL) 0 ∧ d1.up (laneB n) ∧ ¬ d1.laneBarred n := by
    refine ⟨h1.state.trans h0, hbit.trans hv, ?_, ?_⟩
    · rw [← hd1]
      exact (Dev.up_of_regs (spGet_spPut_ne _ _ (radr_ne_of_page _ _ _ _ _ _ _ _ (by decide)))).trans (Dev.takes_up ht (by decide) ((by decide : ∀ n : Fin 40, laneB n ≠ blk .boot 0) n))
    · unfold Dev.laneBarred at hb ⊢
      simp only [hfence]
      simpa using hb
  have h2 := d1.laneTo_at n (st := 1) (by decide)
  refine ⟨d1.laneTo n 1, ?_, ⟨h1.frame.trans h2.moved.frame, h2.state, fun k hk => (h2.others k hk).trans (h1.others k hk), h1.regs.trans h2.moved.regs⟩,
    fun h => absurd h (by decide), fun h => absurd h (by decide)⟩
  have hf : hostWriteMem s.mem s.dev (laneB n) 0x100 (fun x e => laneCtl x e n v) = (s.mem, d1.laneTo n 1) := by
    rw [hostWriteMem_takes _ _ _ _ _ ht]
    unfold laneCtl
    dsimp only
    rw [hd1, if_pos hv]
    exact congrArg _ (if_pos hcond)
  exact onLiveMem_eq (f := fun m d => hostWriteMem m d (laneB n) 0x100 fun x e => laneCtl x e n v) (Dev.takes_live _ _ _ ht) hf

theorem laneDisable_moved (v : Word) (ht : s.dev.takes (laneB n) 0x100) (hv : bit v 0 = false) (hst : s.dev.laneSt n ∈ [1, 2, 3, 6, 7]) :
    laneMoved s n (.laneDisable n v) 0 := by
  obtain ⟨h1, -⟩ := s.dev.laneCtl_put n v
  generalize hd1 : s.dev.put (laneB n) R.LANE_CTL (R.LANE_CTL.write (s.dev.lget n R.LANE_CTL) v) = d1 at h1
  have hst1 : d1.laneSt n ∈ [1, 2, 3, 6, 7] := h1.state.symm ▸ hst
  have hne : d1.laneSt n ≠ 0 ∧ ¬ (d1.laneSt n = 4 ∨ d1.laneSt n = 5) := by
    simp only [List.mem_cons, List.not_mem_nil, or_false] at hst1
    omega
  have h2 := d1.laneTo_at n (st := 0) (by decide)
  refine ⟨d1.laneTo n 0, ?_, ⟨h1.frame.trans h2.moved.frame, h2.state, fun k hk => (h2.others k hk).trans (h1.others k hk), h1.regs.trans h2.moved.regs⟩,
    fun h => absurd h (by decide), fun h => absurd h (by decide)⟩
  have hf : hostWriteMem s.mem s.dev (laneB n) 0x100 (fun x e => laneCtl x e n v) = (s.mem, d1.laneTo n 0) := by
    rw [hostWriteMem_takes _ _ _ _ _ ht]
    unfold laneCtl Dev.laneOut Dev.laneLeave
    dsimp only
    rw [hd1, if_neg (by rw [hv]; decide), if_neg hne.1, if_neg hne.2]
  exact onLiveMem_eq (f := fun m d => hostWriteMem m d (laneB n) 0x100 fun x e => laneCtl x e n v) (Dev.takes_live _ _ _ ht) hf

theorem train_moved (hm : s.dev.maxRate n ≤ 2) {c : Instr} (hexec : exec c s = .next { s with dev := s.dev.laneTrain n }) : laneMoved s n c 2 := by
  obtain ⟨h1, h2⟩ := s.dev.laneTrain_at n hm
  exact ⟨_, hexec, h1.moved, fun _ => h2, fun h => absurd h (by decide)⟩

theorem signalDetect_moved (hlive : s.dev.dead = false) (hm : s.dev.maxRate n ≤ 2)
    (hst : s.dev.laneSt n = 1 ∨ s.dev.laneSt n = 6 ∧ s.dev.lanes[n].lost = true) : laneMoved s n (.signalDetect n) 2 := by
  have hcond : (s.dev.laneSt n = 1 || (s.dev.laneSt n = 6 && s.dev.lanes[n].lost)) = true := by
    rcases hst with h | ⟨h, hl⟩
    · rw [decide_eq_true h]
      rfl
    · rw [decide_eq_true h, hl, Bool.and_self, Bool.or_true]
  refine train_moved s n hm ?_
  change execSignalDetect n s = _
  unfold execSignalDetect
  rw [onLive_next _ _ hlive]
  exact congrArg (fun e => Host.Outcome.next { s with dev := e }) (Dev.when_of _ _ hcond)

theorem trainCmd_moved (ht : s.dev.takes (laneB n) 0x108) (hm : s.dev.maxRate n ≤ 2) (hst : s.dev.laneSt n ∈ [1, 6]) :
    laneMoved s n (.train n) 2 := by
  have hcond : s.dev.laneSt n = 1 ∨ s.dev.laneSt n = 6 := by simpa using hst
  refine train_moved s n hm ?_
  change execTrain n s = _
  unfold execTrain
  rw [onLive_next _ _ (Dev.takes_live _ _ _ ht), Dev.hostWrite_takes _ _ _ _ ht]
  exact congrArg (fun e => Host.Outcome.next { s with dev := e }) (if_pos hcond)

theorem idleEntry_moved (hlive : s.dev.dead = false) (hup : s.dev.laneUp n = true) (hidle : s.dev.mayIdle n = true)
    (hfirst : s.dev.outranked n s.pending 10 = false) : laneMoved s n (.idleEntry n) 5 := by
  have hcond : (s.dev.laneUp n && s.dev.mayIdle n && !s.dev.outranked n s.pending 10) = true := by rw [hup, hidle, hfirst]; rfl
  refine ⟨s.dev.laneTo n 5, ?_, (s.dev.laneTo_at n (by decide)).moved, fun h => absurd h (by decide), fun h => absurd h (by decide)⟩
  change execIdleEntry n s = _
  unfold execIdleEntry
  rw [onLive_next _ _ hlive]
  exact congrArg (fun e => Host.Outcome.next { s with dev := e }) (Dev.when_of _ _ hcond)

theorem exitBurst_moved (hlive : s.dev.dead = false) (hst : s.dev.laneSt n = 5) {t : Nat} (hb : s.dev.lanes[n].burst = some t)
    (ht : s.dev.now ≤ t + 1600) : laneMoved s n (.exitBurst n) 4 := by
  have hcond : (s.dev.laneSt n = 5 && decide (s.dev.now ≤ t + 1600)) = true := by rw [decide_eq_true hst, decide_eq_true ht]; rfl
  have h1 : Dev.moved n 4 s.dev ((s.dev.laneTo n 4).vc3Go n) := (s.dev.laneTo_at n (by decide)).moved.vc3Go
  have hrun : exec (.exitBurst n) s = .next { s with dev :=
      (if h : n.val < 32 then ((s.dev.laneTo n 4).vc3Go n).mpvEval ⟨n.val, h⟩ else (s.dev.laneTo n 4).vc3Go n) } := by
    change execExitBurst n s = _
    unfold execExitBurst
    rw [onLive_next _ _ hlive, hb]
    exact congrArg (fun e => Host.Outcome.next { s with dev := e }) (Dev.when_of _ _ hcond)
  refine ⟨_, hrun, ?_, fun h => absurd h (by decide), fun h => absurd h (by decide)⟩
  split
  · exact h1.mpvEval _ rfl
  · exact h1

theorem timing_moved (rtt hold : Rat) (latch : BitVec 8) (hlive : s.dev.dead = false) (hst : s.dev.laneSt n = 2)
    (hp : s.dev.lanes[n].phase = .timing) (hl : ((rtt - hold) / 2 + (latch.toNat : Rat)).ceil.toNat ≤ 300) :
    laneMoved s n (.timing n rtt hold latch) 3 := by
  have hcond : (s.dev.laneSt n = 2 && decide (s.dev.lanes[n].phase = .timing)) = true := by rw [decide_eq_true hst, decide_eq_true hp]; rfl
  generalize hL : ((rtt - hold) / 2 + (latch.toNat : Rat)).ceil.toNat = l at hl
  obtain ⟨d1, hd1⟩ : ∃ x, x = s.dev.put (laneB n) R.LANE_LAT (wd (min 4095 l + min 4095 rtt.floor.toNat * 65536)) := ⟨_, rfl⟩
  have h1 : Dev.moved n (s.dev.laneSt n) s.dev d1 := by
    rw [hd1]
    exact Dev.moved.put ⟨.refl s.dev _, rfl, fun _ _ => rfl, s.dev.regsKept_refl _⟩ _ (by decide) (by decide)
  have hl1 : d1.lanes = s.dev.lanes := by rw [hd1]; rfl
  have hn1 : d1.now = s.dev.now := by rw [hd1]; rfl
  have hexec : exec (.timing n rtt hold latch) s = .next { s with dev := (d1.laneTo n 3).descReq n 1 } := by
    change execTiming n rtt hold latch s = _
    unfold execTiming
    rw [onLive_next _ _ hlive]
    refine congrArg (fun e => Host.Outcome.next { s with dev := e }) ((Dev.when_of _ _ hcond).trans ?_)
    dsimp only
    rw [hL, ← hd1]
    exact if_neg (by omega)
  clear hd1
  have h2 := d1.laneTo_at n (st := 3) (by decide)
  have hc2 : (d1.laneTo n 3).lanes[n].cred3 = s.dev.lanes[n].cred3 := (congrArg Lane.cred3 (d1.laneTo_lane n 3)).trans (by rw [hl1])
  have hn2 : (d1.laneTo n 3).now = s.dev.now := (h2.frame.get Dev.now).trans hn1
  have h3 := (d1.laneTo n 3).descReq_vc3 n h2.state
  rw [hc2, hn2] at h3
  have h4 : Dev.moved n 3 d1 ((d1.laneTo n 3).descReq n 1) := h2.moved.vc3Ask _ _
  exact ⟨_, hexec, ⟨h1.frame.trans h4.frame, h4.state, fun k hk => (h4.others k hk).trans (h1.others k hk), h1.regs.trans h4.regs⟩,
    fun h => absurd h (by decide), fun _ => h3⟩

theorem laneMoves_moved {c : Instr} {st : Nat} (h : laneMoves s n c st) : laneMoved s n c st := by
  unfold laneMoves at h
  split at h
  case h_1 => obtain ⟨rfl, rfl, h1, h2, h3, h4⟩ := h; exact laneEnable_moved s _ _ h1 h2 h3 h4
  case h_2 => obtain ⟨rfl, rfl, h1, h2, h3⟩ := h; exact laneDisable_moved s _ _ h1 h2 h3
  case h_3 => obtain ⟨rfl, rfl, h1, h2, h3⟩ := h; exact signalDetect_moved s _ h1 h2 h3
  case h_4 => obtain ⟨rfl, rfl, h1, h2, h3⟩ := h; exact trainCmd_moved s _ h1 h2 h3
  case h_5 => obtain ⟨rfl, rfl, h1, h2, h3, h4⟩ := h; exact idleEntry_moved s _ h1 h2 h3 h4
  case h_6 => obtain ⟨rfl, rfl, h1, h2, t, h3, h4⟩ := h; exact exitBurst_moved s _ h1 h2 h3 h4
  case h_7 => obtain ⟨rfl, rfl, h1, h2, h3, h4⟩ := h; exact timing_moved s _ _ _ _ h1 h2 h3 h4
  case h_8 => exact h.elim

end

end Sys2Proof.Machine
end

section
/-! SUPPORT. The commands that end a partner's presence (R317 to R319). -/

namespace Sys2Proof.Machine

/-- The partner of lane `n` has departed, and the lane is in state `st`. -/
structure Dev.departed (n : Fin 40) (st : Nat) (d e : Dev) : Prop where
  frame : d.changes (.lanes :: goneParts) e
  state : e.laneSt n = st
  here : e.present n = false
  counted : e.getN (laneB n) R.LANE_DEPARTURES = min 0xFFFFFFFF (d.getN (laneB n) R.LANE_DEPARTURES + 1)
  desc : ∀ i, i < 16 → e.desc n i = 0
  others : ∀ k : Fin 40, k ≠ n → e.lanes[k] = d.lanes[k]
  cells : n.val < 32 → ∀ r : Fin 6, e.cells[headCell (Fin.ofNat 32 n.val) r].st = 0 ∨ e.cells[headCell (Fin.ofNat 32 n.val) r].st = 5

section
variable {n : Fin 40} {st : Nat} {d e f : Dev}

/-- After a departure the lane takes its next state. -/
theorem Dev.gone.departed (h : Dev.gone n d e) (k : Dev.laneAt n st e f) : Dev.departed n st d f := by
  have hk : ∀ {r : Reg} {i : Nat}, r.ofs i 0 ≠ 0x104 → f.get (laneB n) r i = e.get (laneB n) r i := fun {r i} hr =>
    k.regs.get _ _ _ _ (radr_ne_of_ofs (laneB n) R.LANE_STAT r 0 0 i 0 hr)
  have hl : e.lanes = d.lanes := h.frame.get Dev.lanes
  have hc : f.cells = e.cells := k.frame.get Dev.cells
  refine ⟨(h.frame.mono (List.subset_cons_self _ _)).trans (k.frame.mono (by decide)), k.state, k.here.trans h.here,
    (congrArg BitVec.toNat (hk (r := R.LANE_DEPARTURES) (by decide))).trans h.counted, fun i hi => (hk ?_).trans (h.desc i hi),
    fun j hj => (k.others j hj).trans (by rw [hl]), by rw [hc]; exact h.cells⟩
  change 0x160 + 4 * i + 0 * 0 ≠ 0x104
  omega

/-- A change of the lane's own state after it. -/
theorem Dev.departed.laneMod (h : Dev.departed n st d e) (u : Lane → Lane) : Dev.departed n st d (e.laneMod n u) :=
  ⟨h.frame.trans ((e.laneMod_changes n u).mono (by decide)), h.state, h.here, h.counted, h.desc,
    fun k hk => (vmod_ne e.lanes u hk).trans (h.others k hk), h.cells⟩

/-- What came before it. -/
theorem Dev.departed.after (h : Dev.departed n st e f) (hc : d.changes [.regs, .lanes] e)
    (hn : e.getN (laneB n) R.LANE_DEPARTURES = d.getN (laneB n) R.LANE_DEPARTURES) (ho : ∀ k : Fin 40, k ≠ n → e.lanes[k] = d.lanes[k]) :
    Dev.departed n st d f :=
  ⟨(hc.mono (by decide)).trans h.frame, h.state, h.here, h.counted.trans (by rw [hn]), h.desc, fun k hk => (h.others k hk).trans (ho k hk), h.cells⟩

/-- The retrainings counted, with their event. -/
theorem Dev.gone.retrains (h : Dev.gone n d e) : Dev.gone n d ((e.bump (laneB n) R.LANE_RETRAINS).laneEvent n 16#32) := by
  have hev : ∀ (x : Dev) (r : Reg) (i : Nat), r.ofs i 0 ≠ 0x1B0 → r.ofs i 0 < 0x1000 → (x.laneEvent n 16#32).get (laneB n) r i = x.get (laneB n) r i :=
    fun x r i h1 h2 => Dev.event_get_ne _ (laneB_ne_hif n) h2 _ _ (by split <;> omega) (radr_ne_of_ofs (laneB n) R.LANE_EVT r 0 0 i 0 h1)
  have hk : ∀ {r : Reg} {i : Nat}, r.ofs i 0 ≠ 0x120 → r.ofs i 0 ≠ 0x1B0 → r.ofs i 0 < 0x1000 →
      ((e.bump (laneB n) R.LANE_RETRAINS).laneEvent n 16#32).get (laneB n) r i = e.get (laneB n) r i := fun {r i} h1 h2 h3 =>
    (hev _ r i h2 h3).trans (Dev.get_put_ne _ _ _ _ _ _ _ _ _ _ (radr_ne_of_ofs (laneB n) R.LANE_RETRAINS r 0 0 i 0 h1))
  have hc : e.changes [.regs, .vecs] ((e.bump (laneB n) R.LANE_RETRAINS).laneEvent n 16#32) :=
    ((e.put_changes _ _ _ _ _).mono (by decide)).trans (Dev.event_changes _ _ _ _ _ _ _)
  generalize (e.bump (laneB n) R.LANE_RETRAINS).laneEvent n 16#32 = x at hk hc
  refine ⟨h.frame.trans (hc.mono (by decide)), (congrArg (fun w => bit w 6) (hk (by decide) (by decide) (by decide))).trans h.here,
    (congrArg BitVec.toNat (hk (by decide) (by decide) (by decide))).trans h.counted,
    fun i hi => (hk ?_ ?_ ?_).trans (h.desc i hi), (hk (by decide) (by decide) (by decide)).trans h.ctl, ?_⟩
  · change 0x160 + 4 * i + 0 * 0 ≠ 0x120
    omega
  · change 0x160 + 4 * i + 0 * 0 ≠ 0x1B0
    omega
  · change 0x160 + 4 * i + 0 * 0 < 0x1000
    omega
  · rw [show x.cells = e.cells from hc.get Dev.cells]
    exact h.cells

theorem Dev.gone.maxRate (h : Dev.gone n d e) : e.maxRate n = d.maxRate n := congrArg (fun w => fld w 2 1) h.ctl

theorem Dev.laneRetrain_departed (d : Dev) (m : Mem) (h2 : d.maxRate n ≤ 2) : Dev.departed n 2 d (d.laneRetrain m n) := by
  have h1 := (d.laneGone_gone m n).retrains
  unfold Dev.laneRetrain
  generalize ((d.laneGone m n).bump (laneB n) R.LANE_RETRAINS).laneEvent n 16#32 = x at h1
  exact h1.departed (x.laneTrain_at n (h1.maxRate ▸ h2)).1

theorem Dev.laneLost_departed (d : Dev) (m : Mem) (n : Fin 40) : Dev.departed n 1 d ((d.laneGone m n).laneTo n 1) :=
  (d.laneGone_gone m n).departed (Dev.laneTo_at _ n (by decide))

/-- A command takes the partner of lane `n` away. -/
def laneDeparted (s : State) (n : Fin 40) (c : Instr) (st : Nat) : Prop :=
  ∃ d' : Dev, exec c s = .next { s with dev := d' } ∧ Dev.departed n st s.dev d'

end

section
variable (s : State) (n : Fin 40)

theorem signalLost_departed (hlive : s.dev.dead = false) (hup : s.dev.laneUp n = true) (hfirst : s.dev.outranked n s.pending 9 = false) :
    laneDeparted s n (.signalLost n) 1 := by
  refine ⟨_, ?_, s.dev.laneLost_departed s.mem n⟩
  change execSignalLost n s = _
  unfold execSignalLost
  rw [onLiveMem_next _ _ hlive]
  simp only [if_pos hup, hfirst, Bool.false_eq_true, if_false]

theorem lossOfLock_departed (hlive : s.dev.dead = false) (hup : s.dev.laneUp n = true) (hauto : bit (s.dev.lget n R.LANE_CTL) 9 = true)
    (h2 : s.dev.maxRate n ≤ 2) (hfirst : s.dev.outranked n s.pending 8 = false) : laneDeparted s n (.lossOfLock n) 2 := by
  refine ⟨_, ?_, s.dev.laneRetrain_departed s.mem h2⟩
  change execLossOfLock n s = _
  unfold execLossOfLock
  rw [onLiveMem_next _ _ hlive]
  simp only [hup, not_true_eq_false, if_false, if_pos hauto, hfirst, Bool.false_eq_true]

theorem trainBlock_departed (rates : BitVec 3) (hlive : s.dev.dead = false) (hup : s.dev.laneUp n = true)
    (hauto : bit (s.dev.lget n R.LANE_CTL) 9 = true) (h2 : s.dev.maxRate n ≤ 2) (hfirst : s.dev.outranked n s.pending 8 = false) :
    laneDeparted s n (.trainBlock n rates) 2 := by
  refine ⟨_, ?_, (s.dev.laneRetrain_departed s.mem h2).laneMod fun l => { l with rates := rates }⟩
  change execTrainBlock n rates s = _
  unfold execTrainBlock
  rw [onLiveMem_next _ _ hlive]
  simp only [if_pos hup, hauto, hfirst, Bool.false_eq_true, not_false_eq_true, and_self, if_true]

theorem exitTimeout_departed (hlive : s.dev.dead = false) (hst : s.dev.laneSt n = 5) (h2 : s.dev.maxRate n ≤ 2)
    (hfirst : s.dev.outranked n s.pending 12 = false) {t : Nat} (hb : s.dev.lanes[n].burst = some t) (ht : t + 1600 < s.dev.now) :
    laneDeparted s n (.exitTimeout n) 2 := by
  have h1 := s.dev.laneGone_gone s.mem n
  refine ⟨(s.dev.laneGone s.mem n).laneTrain n, ?_, h1.departed (Dev.laneTrain_at _ n (h1.maxRate ▸ h2)).1⟩
  have hcond : s.dev.laneSt n = 5 ∧ t + 1600 < s.dev.now ∧ ¬ s.dev.outranked n s.pending 12 = true := ⟨hst, ht, by rw [hfirst]; decide⟩
  change execExitTimeout n s = _
  unfold execExitTimeout
  rw [onLiveMem_next _ _ hlive, hb]
  simp only [if_pos hcond]

theorem retrain_departed (ht : s.dev.takes (laneB n) 0x108) (hup : s.dev.laneUp n = true) (h2 : s.dev.maxRate n ≤ 2)
    (hfirst : s.dev.outranked n s.pending 8 = false) : laneDeparted s n (.retrain n) 2 := by
  refine ⟨_, ?_, s.dev.laneRetrain_departed s.mem h2⟩
  change execRetrain n s = _
  unfold execRetrain
  rw [onLiveMem_next _ _ (Dev.takes_live _ _ _ ht), hostWriteMem_takes _ _ _ _ _ ht]
  simp only [hfirst, Bool.false_eq_true, if_false, Dev.retrainCmd, if_pos hup]

theorem laneDisable_departed (v : Word) (ht : s.dev.takes (laneB n) 0x100) (hv : bit v 0 = false) (hst : s.dev.laneSt n ∈ [4, 5]) :
    laneDeparted s n (.laneDisable n v) 0 := by
  obtain ⟨h1, -⟩ := s.dev.laneCtl_put n v
  have hn1 : (s.dev.put (laneB n) R.LANE_CTL (R.LANE_CTL.write (s.dev.lget n R.LANE_CTL) v)).getN (laneB n) R.LANE_DEPARTURES =
      s.dev.getN (laneB n) R.LANE_DEPARTURES := congrArg BitVec.toNat (s.dev.get_put_off _ _ _ (by decide))
  have hc1 := (s.dev.put_changes (laneB n) R.LANE_CTL (R.LANE_CTL.write (s.dev.lget n R.LANE_CTL) v) 0 0).mono (G := [.regs, .lanes]) (by decide)
  generalize hd1 : s.dev.put (laneB n) R.LANE_CTL (R.LANE_CTL.write (s.dev.lget n R.LANE_CTL) v) = d1 at h1 hn1 hc1
  have hst1 : d1.laneSt n = 4 ∨ d1.laneSt n = 5 := by
    rw [h1.state]
    simpa using hst
  refine ⟨(d1.laneGone s.mem n).laneTo n 0, ?_, ((d1.laneGone_gone s.mem n).departed (Dev.laneTo_at _ n (by decide))).after hc1 hn1 h1.others⟩
  change execLaneDisable n v s = _
  unfold execLaneDisable
  have hf : hostWriteMem s.mem s.dev (laneB n) 0x100 (fun x e => laneCtl x e n v) = (s.mem, (d1.laneGone s.mem n).laneTo n 0) := by
    rw [hostWriteMem_takes _ _ _ _ _ ht]
    unfold laneCtl Dev.laneOut Dev.laneLeave
    dsimp only
    rw [hd1, if_neg (by rw [hv]; decide), if_neg (by omega), if_pos hst1]
  exact onLiveMem_eq (f := fun m d => hostWriteMem m d (laneB n) 0x100 fun x e => laneCtl x e n v) (Dev.takes_live _ _ _ ht) hf

end

end Sys2Proof.Machine
end

section
/-! SUPPORT. Frames of VC3 that end or begin a partner's presence (R302, R312, R315, R319). -/

namespace Sys2Proof.Machine

section
variable (d : Dev) (n : Fin 40)

/-- What falls in a cycle does not depend on the credits to give back. -/
theorem Dev.laneStep_lanes (L : Vector Lane 40) (hc : L[n].crcAt = d.lanes[n].crcAt) (hb : L[n].burst = d.lanes[n].burst) (c : Instr) :
    ({ d with lanes := L } : Dev).laneStep n c = d.laneStep n c := by
  unfold Dev.laneStep
  rw [← hc, ← hb]
  rfl

theorem Dev.outranked_lanes (L : Vector Lane 40) (hc : L[n].crcAt = d.lanes[n].crcAt) (hb : L[n].burst = d.lanes[n].burst) (p : List Instr) (k : Nat) :
    ({ d with lanes := L } : Dev).outranked n p k = d.outranked n p k := by
  unfold Dev.outranked
  congr 1
  funext c
  rw [d.laneStep_lanes n L hc hb c]

/-- A frame within the credits passes, and its credits go back (R312). -/
theorem Dev.received_ok (vc : Fin 3) {len u : Nat} (hu : frameUnits len = u) (k : Dev → Dev) (hg : u ≤ d.lanes[n].grants[vc])
    (hsl : ∀ r : Fin 16, d.flt.slices[r].unit = none) :
    d.received n vc len k = k (d.laneMod n fun l => { l with back := some (vc, u) }) := by
  unfold Dev.received
  rw [hu, if_neg (by omega)]
  exact congrArg k (Dev.reached_none _ _ _ (hsl _))

end

theorem leave_departed (s : State) (n : Fin 40) (reason : BitVec 8) (hlive : s.dev.dead = false) (hup : s.dev.laneUp n = true)
    (hfirst : s.dev.outranked n s.pending 9 = false) (hg : 1 ≤ s.dev.lanes[n].grants[(2 : Fin 3)]) (hsl : ∀ r : Fin 16, s.dev.flt.slices[r].unit = none) :
    laneDeparted s n (.leave n reason) 1 := by
  obtain ⟨d1, hd1⟩ : ∃ x, x = s.dev.laneMod n fun l => { l with back := some ((2 : Fin 3), 1) } := ⟨_, rfl⟩
  have hl := vmod_same s.dev.lanes n fun l => { l with back := some ((2 : Fin 3), 1) }
  have hf1 : d1.outranked n s.pending 9 = false := by
    rw [hd1]
    exact (s.dev.outranked_lanes n _ ((congrArg Lane.crcAt hl).trans rfl) ((congrArg Lane.burst hl).trans rfl) _ _).trans hfirst
  have ho : ∀ k : Fin 40, k ≠ n → d1.lanes[k] = s.dev.lanes[k] := fun k hk => by
    rw [hd1]
    exact vmod_ne s.dev.lanes _ hk
  have hc : s.dev.changes [.regs, .lanes] d1 := by
    rw [hd1]
    exact (s.dev.laneMod_changes n _).mono (by decide)
  have hr : d1.regs = s.dev.regs := by rw [hd1]; rfl
  refine ⟨(d1.laneGone s.mem n).laneTo n 1, ?_, (d1.laneLost_departed s.mem n).after hc
    (congrArg BitVec.toNat (Dev.get_of_regs _ _ _ _ (by rw [hr]))) ho⟩
  change execLeave n reason s = _
  unfold execLeave
  have hrec : (s.dev.when (s.dev.laneUp n) fun d => d.received n 2 1 fun d => if d.outranked n s.pending 9 then d else (d.laneGone s.mem n).laneTo n 1) =
      (d1.laneGone s.mem n).laneTo n 1 := by
    rw [Dev.when_of _ _ hup, s.dev.received_ok n 2 (u := 1) rfl _ hg hsl, ← hd1, hf1]
    rfl
  rw [onLiveMem_next _ _ hlive]
  simp only [hrec]

theorem laneDeparts_departed (s : State) (n : Fin 40) {c : Instr} {st : Nat} (h : laneDeparts s n c st) : laneDeparted s n c st := by
  unfold laneDeparts at h
  split at h
  case h_1 => obtain ⟨rfl, rfl, h1, h2, h3⟩ := h; exact signalLost_departed s _ h1 h2 h3
  case h_2 => obtain ⟨rfl, rfl, h1, h2, h3, h4, h5⟩ := h; exact leave_departed s _ _ h1 h2 h3 h4 h5
  case h_3 => obtain ⟨rfl, rfl, h1, h2, h3, h4⟩ := h; exact retrain_departed s _ h1 h2 h3 h4
  case h_4 => obtain ⟨rfl, rfl, h1, h2, h3, h4, h5⟩ := h; exact lossOfLock_departed s _ h1 h2 h3 h4 h5
  case h_5 => obtain ⟨rfl, rfl, h1, h2, h3, h4, h5⟩ := h; exact trainBlock_departed s _ _ h1 h2 h3 h4 h5
  case h_6 => obtain ⟨rfl, rfl, h1, h2, h3, h4, t, h5, h6⟩ := h; exact exitTimeout_departed s _ h1 h2 h3 h4 h5 h6
  case h_7 => obtain ⟨rfl, rfl, h1, h2, h3⟩ := h; exact laneDisable_departed s _ _ h1 h2 h3
  case h_8 => exact h.elim

/-! Arrival. -/

/-- The parts that an arrival may change. -/
def arriveParts : List Part := [.regs, .vecs, .fabric, .heads, .mpvs, .msps, .jrn, .lanes]

/-- The partner of lane `n` with descriptor `ws` has arrived (R315, R320). -/
structure Dev.arrived (n : Fin 40) (ws : List Word) (d e : Dev) : Prop where
  frame : d.changes arriveParts e
  state : e.laneSt n = 4
  here : e.present n = true
  desc : ∀ i, i < 16 → e.desc n i = ws.getD i 0
  counted : e.getN (laneB n) R.LANE_ARRIVALS = min 0xFFFFFFFF (d.getN (laneB n) R.LANE_ARRIVALS + 1)
  cred1 : e.lanes[n].cred1 = fld (ws.getD 5 0) 15 0
  cred3 : e.lanes[n].cred3 = fld (ws.getD 5 0) 31 16
  others : ∀ k : Fin 40, k ≠ n → e.lanes[k] = d.lanes[k]

/-- What an arrival does beside the lane. -/
theorem Dev.arrived.aside {n : Fin 40} {ws : List Word} {d e f : Dev} (h : Dev.arrived n ws d e) {F : List Part} (k : Dev.aside (pageOf (laneB n)) F e f)
    (hF : F ⊆ arriveParts) (hl : .lanes ∉ F) : Dev.arrived n ws d f := by
  have hlanes : f.lanes = e.lanes := by
    have hh := congrArg Dev.lanes (show f.hide F = e.hide F from k.frame)
    simpa only [Dev.hide, pick, if_neg hl] using hh
  refine ⟨h.frame.trans (k.frame.mono hF), (congrArg (fun w => fld w 3 0) (k.page _ _ _ (by decide))).trans h.state,
    (congrArg (fun w => bit w 6) (k.page _ _ _ (by decide))).trans h.here, fun i hi => (k.page _ _ _ ?_).trans (h.desc i hi),
    (congrArg BitVec.toNat (k.page _ _ _ (by decide))).trans h.counted, by rw [hlanes]; exact h.cred1, by rw [hlanes]; exact h.cred3,
    fun k hk => by rw [hlanes]; exact h.others k hk⟩
  change 0x160 + 4 * i + 0 * 0 < 0x1000
  omega

/-- The descriptor shows, and the lane is UP; the arrival is not yet counted. -/
structure Dev.arriving (n : Fin 40) (ws : List Word) (d e : Dev) : Prop where
  frame : d.changes arriveParts e
  state : e.laneSt n = 4
  desc : ∀ i, i < 16 → e.desc n i = ws.getD i 0
  count : e.get (laneB n) R.LANE_ARRIVALS = d.get (laneB n) R.LANE_ARRIVALS
  others : ∀ k : Fin 40, k ≠ n → e.lanes[k] = d.lanes[k]

theorem Dev.descShown_arriving (d : Dev) (n : Fin 40) (ws : List Word) :
    Dev.arriving n ws d ((List.range 16).foldl (fun (e : Dev) i => e.put (laneB n) R.LANE_DESC (ws.getD i 0) i) (d.laneTo n 4)) := by
  have h0 := d.laneTo_at n (st := 4) (by decide)
  generalize d.laneTo n 4 = x at h0
  obtain ⟨h1, h2, h3⟩ := x.descPuts_spec n (fun i => ws.getD i 0) 16
  generalize (List.range 16).foldl (fun (e : Dev) i => e.put (laneB n) R.LANE_DESC (ws.getD i 0) i) x = y at h1 h2 h3
  have hoff : ∀ r : Reg, r.s0 = 0 → r.s1 = 0 → r.off < 0x160 → y.get (laneB n) r = x.get (laneB n) r := fun r e0 e1 ho =>
    h3.get _ _ _ _ fun ⟨i, _, ha⟩ => by
      refine radr_ne_of_ofs (laneB n) r R.LANE_DESC 0 0 i 0 ?_ ha.symm
      change 0x160 + 4 * i + 0 * 0 ≠ r.off + r.s0 * 0 + r.s1 * 0
      rw [e0, e1]
      omega
  refine ⟨(h0.frame.trans (h1.mono (by decide))).mono (by decide), (congrArg (fun w => fld w 3 0) (hoff R.LANE_STAT rfl rfl (by decide))).trans h0.state,
    h2, (hoff R.LANE_ARRIVALS rfl rfl (by decide)).trans (h0.regs.get _ _ _ _ (radr_ne_of_ofs _ _ _ 0 0 0 0 (by decide))), fun k hk => ?_⟩
  rw [show y.lanes = x.lanes from h1.get Dev.lanes]
  exact h0.others k hk

/-- The partner is shown present, with its version. -/
theorem Dev.arriving.shown {n : Fin 40} {ws : List Word} {d e : Dev} (h : Dev.arriving n ws d e) (v : Nat) :
    Dev.arriving n ws d ((e.putB (laneB n) R.LANE_STAT 6 true).putF (laneB n) R.LANE_STAT 23 20 v) ∧
    ((e.putB (laneB n) R.LANE_STAT 6 true).putF (laneB n) R.LANE_STAT 23 20 v).present n = true := by
  have hoff : ∀ (r : Reg) (i : Nat), r.ofs i 0 ≠ 0x104 →
      ((e.putB (laneB n) R.LANE_STAT 6 true).putF (laneB n) R.LANE_STAT 23 20 v).get (laneB n) r i = e.get (laneB n) r i := fun r i hr =>
    (Dev.get_putF_ne _ _ _ _ (radr_ne_of_ofs (laneB n) R.LANE_STAT r 0 0 i 0 hr)).trans
      (Dev.get_putB_ne _ _ _ (radr_ne_of_ofs (laneB n) R.LANE_STAT r 0 0 i 0 hr))
  refine ⟨⟨h.frame.trans (((e.put_changes _ _ _ _ _).trans (Dev.put_changes _ _ _ _ _ _)).mono (by decide)),
    (Dev.getF_putF_other _ _ _ 0 0 _ (by decide) (.inl (by decide))).trans
      ((Dev.getF_putB_other _ _ _ 0 0 _ (by decide) (.inl (by decide))).trans h.state), fun i hi => (hoff _ _ ?_).trans (h.desc i hi),
    (hoff _ _ (by decide)).trans h.count, h.others⟩,
    (Dev.getB_putF_other _ _ _ 0 0 _ (by decide) (.inl (by decide))).trans (e.getB_putB_same _ _ 0 0 true (by decide))⟩
  change 0x160 + 4 * i + 0 * 0 ≠ 0x104
  omega

/-- Its credits are taken, and the arrival is counted, with its event. -/
theorem Dev.arriving.counted {n : Fin 40} {ws : List Word} {d e : Dev} (h : Dev.arriving n ws d e) (hp : e.present n = true) (t : Nat) (ev : Word) :
    Dev.arrived n ws d ((((e.laneMod n fun l => { l with cred1 := fld (ws.getD 5 0) 15 0, cred3 := fld (ws.getD 5 0) 31 16, since := some t }).creditShow
      n).bump (laneB n) R.LANE_ARRIVALS).laneEvent n ev) := by
  have hl := vmod_same e.lanes n fun l => { l with cred1 := fld (ws.getD 5 0) 15 0, cred3 := fld (ws.getD 5 0) 31 16, since := some t }
  have ho := fun k (hk : k ≠ n) =>
    vmod_ne e.lanes (fun l => { l with cred1 := fld (ws.getD 5 0) 15 0, cred3 := fld (ws.getD 5 0) 31 16, since := some t }) hk
  obtain ⟨x, hx⟩ : ∃ x, x = e.laneMod n fun l => { l with cred1 := fld (ws.getD 5 0) 15 0, cred3 := fld (ws.getD 5 0) 31 16, since := some t } := ⟨_, rfl⟩
  have hxc : e.changes [.lanes] x := by
    rw [hx]
    exact e.laneMod_changes n _
  have hxl : x.lanes[n].cred1 = fld (ws.getD 5 0) 15 0 ∧ x.lanes[n].cred3 = fld (ws.getD 5 0) 31 16 ∧ ∀ k : Fin 40, k ≠ n → x.lanes[k] = e.lanes[k] := by
    rw [hx]
    exact ⟨congrArg Lane.cred1 hl, congrArg Lane.cred3 hl, ho⟩
  have hxr : x.regs = e.regs := hxc.get Dev.regs
  rw [← hx]
  clear hx hl ho
  generalize hy : (x.creditShow n).bump (laneB n) R.LANE_ARRIVALS = y
  have hyc : x.changes [.regs] y := by
    rw [← hy]
    exact (x.put_changes _ _ _ _ _).trans (Dev.put_changes _ _ _ _ _ _)
  have hyoff : ∀ (r : Reg) (i : Nat), r.ofs i 0 ≠ 0x1B8 → r.ofs i 0 ≠ 0x124 → y.get (laneB n) r i = x.get (laneB n) r i := fun r i h1 h2 => by
    rw [← hy]
    exact (Dev.get_put_ne _ _ _ _ _ _ _ _ _ _ (radr_ne_of_ofs (laneB n) R.LANE_ARRIVALS r 0 0 i 0 h2)).trans
      (Dev.get_put_ne _ _ _ _ _ _ _ _ _ _ (radr_ne_of_ofs (laneB n) R.LANE_CREDIT r 0 0 i 0 h1))
  have hycount : y.getN (laneB n) R.LANE_ARRIVALS = min 0xFFFFFFFF (d.getN (laneB n) R.LANE_ARRIVALS + 1) := by
    rw [← hy, Dev.getN_bump]
    unfold Dev.getN
    rw [show (x.creditShow n).get (laneB n) R.LANE_ARRIVALS = x.get (laneB n) R.LANE_ARRIVALS from x.get_put_off _ _ _ (by decide),
      show x.get (laneB n) R.LANE_ARRIVALS = e.get (laneB n) R.LANE_ARRIVALS from Dev.get_of_regs _ _ _ _ (by rw [hxr]), h.count]
  clear hy
  have hev : ∀ (r : Reg) (i : Nat), r.ofs i 0 ≠ 0x1B0 → r.ofs i 0 < 0x1000 → (y.laneEvent n ev).get (laneB n) r i = y.get (laneB n) r i :=
    fun r i h1 h2 => Dev.event_get_ne _ (laneB_ne_hif n) h2 _ _ (by split <;> omega) (radr_ne_of_ofs (laneB n) R.LANE_EVT r 0 0 i 0 h1)
  have hevc : y.changes [.regs, .vecs] (y.laneEvent n ev) := Dev.event_changes _ _ _ _ _ _ _
  generalize y.laneEvent n ev = z at hev hevc
  have hk : ∀ {r : Reg} {i : Nat}, r.ofs i 0 ≠ 0x1B0 → r.ofs i 0 < 0x1000 → r.ofs i 0 ≠ 0x1B8 → r.ofs i 0 ≠ 0x124 →
      z.get (laneB n) r i = e.get (laneB n) r i := fun {r i} h1 h2 h3 h4 =>
    (hev r i h1 h2).trans ((hyoff r i h3 h4).trans (Dev.get_of_regs _ _ _ _ (by rw [hxr])))
  have hlz : z.lanes = x.lanes := (hevc.get Dev.lanes).trans (hyc.get Dev.lanes)
  refine ⟨h.frame.trans (((hxc.mono (by decide)).trans (hyc.mono (by decide))).trans (hevc.mono (by decide))),
    (congrArg (fun w => fld w 3 0) (hk (by decide) (by decide) (by decide) (by decide))).trans h.state,
    (congrArg (fun w => bit w 6) (hk (by decide) (by decide) (by decide) (by decide))).trans hp, fun i hi => (hk ?_ ?_ ?_ ?_).trans (h.desc i hi),
    (congrArg BitVec.toNat (hev _ _ (by decide) (by decide))).trans hycount, by rw [hlz]; exact hxl.1, by rw [hlz]; exact hxl.2.1,
    fun k hk' => by rw [hlz]; exact (hxl.2.2 k hk').trans (h.others k hk')⟩
  · change 0x160 + 4 * i + 0 * 0 ≠ 0x1B0
    omega
  · change 0x160 + 4 * i + 0 * 0 < 0x1000
    omega
  · change 0x160 + 4 * i + 0 * 0 ≠ 0x1B8
    omega
  · change 0x160 + 4 * i + 0 * 0 ≠ 0x124
    omega

theorem Dev.laneArrive_arrived (d : Dev) (n : Fin 40) (ws : List Word) : Dev.arrived n ws d (d.laneArrive n ws) := by
  have hp := apart_lane n
  unfold Dev.laneArrive
  extract_lets b w last ser replaced d1 d2 d3 d4
  have h1 : Dev.arriving n ws d d1 := d.descShown_arriving n ws
  clear_value d1
  obtain ⟨h2, p2⟩ : Dev.arriving n ws d d2 ∧ d2.present n = true := h1.shown _
  clear_value d2
  have h3 : Dev.arrived n ws d ((d3.bump b R.LANE_ARRIVALS).laneEvent n (if replaced then 5#32 else 1#32)) := h2.counted p2 d.now _
  have h4 : Dev.arrived n ws d d4 := h3.aside ((Dev.aside.refl _).laneLog hp (F := [.regs, .vecs, .fabric, .jrn]) (by decide) n 0 ser) (by decide) (by decide)
  clear_value d4
  split
  · rename_i hn
    extract_lets hd d6
    have hd6 : Dev.aside (pageOf (laneB n)) [.regs, .heads, .mpvs] d4 d6 :=
      (((((Dev.aside.refl d4).trvMod (by decide) hd _).fmapShow hp (by decide) hd).put (hp.head hd) _ (by decide) (by decide)).fmapShow hp (by decide) hd)
    exact h4.aside ((hd6.linkLat hp (by decide) hd).mpvEval hp (by decide) hd) (by decide) (by decide)
  · exact h4.aside ((Dev.aside.refl d4).modArrive (F := [.msps]) (by decide) n) (by decide) (by decide)

end Sys2Proof.Machine
end

section
/-! Lanes: moves, trials, arrivals and departures (R314 to R322). -/

namespace Sys2Proof.Machine

section
variable (s : State) (n : Fin 40)

/-- A valid descriptor in DISCOVER (R315). -/
theorem desc_arrived (bytes : List (BitVec 8)) (hlive : s.dev.dead = false) (hst : s.dev.laneSt n = 3) (hlen : bytes.length = 64)
    (h0 : (bytesWords bytes).getD 0 0 = 0x5A4E0001#32) (h15 : (bytesWords bytes).getD 15 0 = crc32 (bytes.take 60))
    (h1 : fld ((bytesWords bytes).getD 1 0) 7 0 = (if n.val < 32 then 1 else 2)) (hg : 2 ≤ s.dev.lanes[n].grants[(2 : Fin 3)])
    (hsl : ∀ r : Fin 16, s.dev.flt.slices[r].unit = none) :
    ∃ d', exec (.desc n bytes) s = .next { s with dev := d' } ∧ Dev.arrived n (bytesWords bytes) s.dev d' := by
  obtain ⟨d1, hd1⟩ : ∃ x, x = s.dev.laneMod n fun l => { l with back := some ((2 : Fin 3), 2) } := ⟨_, rfl⟩
  have hrec := s.dev.received_ok n 2 (len := bytes.length) (u := 2) (by rw [hlen]; rfl) (fun d =>
        if bytes.length ≠ 64 ∨ (bytesWords bytes).getD 0 0 ≠ 0x5A4E0001#32 ∨ (bytesWords bytes).getD 15 0 ≠ crc32 (bytes.take 60) then
          (d.laneFail n 2).raise (laneB n) (some 0) 3
        else if fld ((bytesWords bytes).getD 1 0) 7 0 ≠ (if n.val < 32 then 1 else 2) then (d.laneFail n 3).raise (laneB n) (some 0) 4
        else d.laneArrive n (bytesWords bytes)) hg hsl
  have hbad : ¬ (bytes.length ≠ 64 ∨ (bytesWords bytes).getD 0 0 ≠ 0x5A4E0001#32 ∨ (bytesWords bytes).getD 15 0 ≠ crc32 (bytes.take 60)) := by
    rintro (h | h | h)
    · exact h hlen
    · exact h h0
    · exact h h15
  rw [← hd1, if_neg hbad, if_neg (not_not.mpr h1)] at hrec
  have hexec : exec (.desc n bytes) s = .next { s with dev := d1.laneArrive n (bytesWords bytes) } := by
    change execDesc n bytes s = _
    unfold execDesc
    rw [onLive_next _ _ hlive]
    dsimp only
    rw [if_neg (by omega), Dev.when_of _ _ (decide_eq_true hst), hrec]
  have ha := d1.laneArrive_arrived n (bytesWords bytes)
  generalize d1.laneArrive n (bytesWords bytes) = e at hexec ha
  have hc : s.dev.changes [.lanes] d1 := by
    rw [hd1]
    exact s.dev.laneMod_changes n _
  have ho : ∀ k : Fin 40, k ≠ n → d1.lanes[k] = s.dev.lanes[k] := fun k hk => by
    rw [hd1]
    exact vmod_ne s.dev.lanes _ hk
  have hcount : d1.getN (laneB n) R.LANE_ARRIVALS = s.dev.getN (laneB n) R.LANE_ARRIVALS :=
    congrArg BitVec.toNat (Dev.get_of_regs _ _ _ _ (by rw [show d1.regs = s.dev.regs from hc.get Dev.regs]))
  exact ⟨e, hexec, (hc.mono (by decide)).trans ha.frame, ha.state, ha.here, ha.desc, by rw [← hcount]; exact ha.counted, ha.cred1, ha.cred3,
    fun k hk => (ha.others k hk).trans (ho k hk)⟩

/-! Trials (R314). -/

theorem exec_trainBlock (rates : BitVec 3) (hlive : s.dev.dead = false) (hst : s.dev.laneSt n = 2) :
    exec (.trainBlock n rates) s = .next { s with dev := s.dev.laneMod n fun l => { l with rates := rates } } := by
  have hup : ¬ s.dev.laneUp n = true := by
    rw [Dev.laneUp, decide_eq_false (by omega)]
    decide
  change execTrainBlock n rates s = _
  unfold execTrainBlock
  rw [onLiveMem_next _ _ hlive]
  simp only [if_neg hup, if_pos hst]

theorem exec_trialEnd_pass {t : Nat} (hlive : s.dev.dead = false) (hst : s.dev.laneSt n = 2) (hp : s.dev.lanes[n].phase = .trial t)
    (hdue : s.dev.trialDue n t = true) :
    exec (.trialEnd n true) s = .next { s with dev := (
      if s.dev.lanes[n].rate < s.dev.maxRate n
      then (s.dev.laneMod n fun x => { x with trained := some (s.dev.lanes[n].rate, s.dev.lanes[n].preset), phase := .timing }).laneEvent n 32#32
      else s.dev.laneMod n fun x => { x with trained := some (s.dev.lanes[n].rate, s.dev.lanes[n].preset), phase := .timing }) } := by
  change execTrialEnd n true s = _
  unfold execTrialEnd
  rw [onLive_next _ _ hlive]
  dsimp only
  rw [hp]
  refine congrArg (fun e => Host.Outcome.next { s with dev := e }) ?_
  dsimp only
  rw [Dev.when_of _ _ (decide_eq_true hst)]
  exact if_pos ⟨rfl, hdue⟩

theorem exec_trialEnd_fail (pass : Bool) {t r : Nat} (hlive : s.dev.dead = false) (hst : s.dev.laneSt n = 2) (hp : s.dev.lanes[n].phase = .trial t)
    (hfail : pass = false ∨ s.dev.trialDue n t = false)
    (hnext : s.dev.lanes[n].preset < 7 ∨ ((s.dev.sweepRates n).find? fun r => r < s.dev.lanes[n].rate) = some r) :
    exec (.trialEnd n pass) s = .next { s with dev := { s.dev with
      lanes := s.dev.lanes.set n (if s.dev.lanes[n].preset < 7
        then { s.dev.lanes[n] with phase := .trial s.dev.now, preset := s.dev.lanes[n].preset + 1 }
        else { s.dev.lanes[n] with phase := .trial s.dev.now, rate := r, preset := 0 }) } } := by
  have hno : ¬ (pass = true ∧ s.dev.trialDue n t = true) := by
    rintro ⟨h1, h2⟩
    rcases hfail with h | h
    · exact absurd (h1.symm.trans h) (by decide)
    · exact absurd (h2.symm.trans h) (by decide)
  change execTrialEnd n pass s = _
  unfold execTrialEnd
  rw [onLive_next _ _ hlive]
  dsimp only
  rw [hp]
  refine congrArg (fun e => Host.Outcome.next { s with dev := e }) ?_
  dsimp only
  rw [Dev.when_of _ _ (decide_eq_true hst), if_neg hno]
  by_cases h7 : s.dev.lanes[n].preset < 7
  · rw [if_pos h7, if_pos h7]
    rfl
  · rw [if_neg h7, if_neg h7, hnext.resolve_left h7]
    rfl

theorem exec_sweepRetry {t r : Nat} {rs : List Nat} (hlive : s.dev.dead = false) (hst : s.dev.laneSt n = 2) (hp : s.dev.lanes[n].phase = .wait t)
    (ht : s.dev.past t 10000 = true) (hr : s.dev.sweepRates n = r :: rs) :
    exec (.sweepRetry n) s = .next { s with dev := s.dev.laneMod n fun l => { l with phase := .trial s.dev.now, rate := r, preset := 0 } } := by
  have hcond : (decide (s.dev.laneSt n = 2) && s.dev.past t 10000) = true := by rw [decide_eq_true hst, ht]; rfl
  change execSweepRetry n s = _
  unfold execSweepRetry
  rw [onLive_next _ _ hlive]
  rw [hp]
  refine congrArg (fun e => Host.Outcome.next { s with dev := e }) ((Dev.when_of _ _ hcond).trans ?_)
  unfold Dev.sweepStart
  rw [hr]

theorem exec_idleExit (byPartner : Bool) (hlive : s.dev.dead = false) (hst : s.dev.laneSt n = 5) (hb : s.dev.lanes[n].burst = none)
    (hwhy : byPartner = true ∨ s.dev.mayIdle n = false ∨ s.dev.wantsUp n = true) :
    exec (.idleExit n byPartner) s = .next { s with dev := s.dev.laneMod n fun l => { l with burst := some s.dev.now } } := by
  have hcond : (decide (s.dev.laneSt n = 5) && s.dev.lanes[n].burst.isNone && (byPartner || !s.dev.mayIdle n || s.dev.wantsUp n)) = true := by
    rw [decide_eq_true hst, hb, Option.isNone_none, Bool.true_and, Bool.true_and]
    rcases hwhy with h | h | h <;> simp [h]
  change execIdleExit n byPartner s = _
  unfold execIdleExit
  rw [onLive_next _ _ hlive]
  exact congrArg (fun e => Host.Outcome.next { s with dev := e }) (Dev.when_of _ _ hcond)

end

theorem Dev.changes.arriveFrame {d e : Dev} (h : d.changes arriveParts e) :
    e = { d with regs := e.regs, vecs := e.vecs, fabric := e.fabric, heads := e.heads, mpvs := e.mpvs, msps := e.msps, jrn := e.jrn, lanes := e.lanes } :=
  congrArg (fun x : Dev => { x with
    regs := e.regs, vecs := e.vecs, fabric := e.fabric, heads := e.heads, mpvs := e.mpvs, msps := e.msps, jrn := e.jrn, lanes := e.lanes }) h

theorem Dev.changes.departFrame {d e : Dev} (h : d.changes (.lanes :: goneParts) e) :
    e = { d with
      regs := e.regs, live := e.live, vecs := e.vecs, fabric := e.fabric, heads := e.heads, cells := e.cells
      tunes := e.tunes, msps := e.msps, mpvs := e.mpvs, ply := e.ply, rep := e.rep, thm := e.thm, jrn := e.jrn, lanes := e.lanes } :=
  congrArg (fun x : Dev => { x with
      regs := e.regs, live := e.live, vecs := e.vecs, fabric := e.fabric, heads := e.heads, cells := e.cells
      tunes := e.tunes, msps := e.msps, mpvs := e.mpvs, ply := e.ply, rep := e.rep, thm := e.thm, jrn := e.jrn, lanes := e.lanes }) h

/-- The event of a lane trained below its MAXRATE. -/
theorem Dev.laneEvent_set (d : Dev) (n : Fin 40) {k : Nat} (hk : k < 32) : (d.laneEvent n (wd (2 ^ k))).getB (laneB n) R.LANE_EVT k = true := by
  unfold Dev.laneEvent Dev.getB
  rw [Dev.event_get (hv := by split <;> omega) (hb := laneB_ne_hif n) (ho := by decide)]
  exact bit_or_pow _ hk

/-- Settles O41: moves by `Dev.moved`, departures by `Dev.laneGone_gone`, arrivals by `Dev.laneArrive_arrived`. -/
theorem lanesMoveAndPartnersArrive : Obligations.LanesMoveAndPartnersArrive := by
  unfold Obligations.LanesMoveAndPartnersArrive
  refine ⟨⟨fun s n c st h => ?_, fun s n rates hl hst => exec_trainBlock s n rates hl hst, fun s n t hl hst hp hdue => ?_,
    fun s n pass t r hl hst hp hf hx => exec_trialEnd_fail s n pass hl hst hp hf hx,
    fun s n t r rs hl hst hp ht hr => exec_sweepRetry s n hl hst hp ht hr, fun s n p hl hst hb hw => exec_idleExit s n p hl hst hb hw⟩,
    fun s n bytes hl hst hlen h0 h15 h1 hg hsl => ?_, fun s n c st h => ?_⟩
  · obtain ⟨d', h1, h2, h3, h4⟩ := laneMoves_moved s n h
    exact ⟨d', h1, h2.frame.laneParts, h2.state, h2.others, h3, h4, h2.regs⟩
  · refine ⟨_, exec_trialEnd_pass s n hl hst hp hdue, ?_, fun hlt => ?_⟩
    · split
      · have hc := (s.dev.laneMod n fun x => { x with trained := some (s.dev.lanes[n].rate, s.dev.lanes[n].preset), phase := .timing }).event_frame
          (laneB n) R.LANE_EVT R.LANE_EVT_EN 32#32 (if n.val < 32 then 16 + n.val else 48 + n.val - 32) 0
        exact hc
      · rfl
    · rw [if_pos hlt]
      exact Dev.laneEvent_set _ n (k := 5) (by decide)
  · obtain ⟨d', h1, h2⟩ := desc_arrived s n bytes hl hst hlen h0 h15 h1 hg hsl
    exact ⟨d', h1, h2.frame.arriveFrame, h2.state, h2.here, h2.desc, h2.cred1, h2.cred3, h2.counted, h2.others⟩
  · obtain ⟨d', h1, h2⟩ := laneDeparts_departed s n h
    exact ⟨d', h1, h2.frame.departFrame, h2.state, h2.here, h2.counted, h2.desc, h2.others, h2.cells⟩

end Sys2Proof.Machine
end

section
/-! SUPPORT. Credits, management requests and dropped frames (R302 to R313). -/

namespace Sys2Proof.Machine

theorem Dev.changes.regLanes {d e : Dev} (h : d.changes [.regs, .lanes] e) : e = { d with regs := e.regs, lanes := e.lanes } :=
  congrArg (fun x : Dev => { x with regs := e.regs, lanes := e.lanes }) h

section
variable (d : Dev) (n : Fin 40)

/-- What a frame sent leaves of the lane's own state. -/
theorem Dev.laneSend_lane (vc : Fin 4) (type : Nat) (data : List Byte) : (d.laneSend n vc type data).lanes[n] = { d.lanes[n] with
    seqs := vmod d.lanes[n].seqs vc fun s => (s + 1) % 256
    sent := d.lanes[n].sent.set vc (some ⟨type, d.lanes[n].seqs[vc], data, d.lanes[n].spoils vc⟩)
    inj := d.lanes[n].inj.filter fun i => i.1 ≠ vc.val
    cred1 := if vc = 1 then d.lanes[n].cred1 - frameUnits data.length else d.lanes[n].cred1
    cred3 := if vc = 3 then d.lanes[n].cred3 - frameUnits data.length else d.lanes[n].cred3 } := by
  unfold Dev.laneSend
  extract_lets u spoil d0
  have h0 : d0.lanes = d.lanes := by simp only [d0]; split <;> rfl
  clear_value d0
  refine (vmod_same d0.lanes n _).trans ?_
  rw [h0]

/-- A management request is awaited, or waits; what else it leaves of the lane (R311). -/
theorem Dev.vc3Ask_spec (type tries : Nat) :
    let e := d.vc3Ask n type tries
    d.changes [.regs, .lanes] e ∧ (∃ wait, e.lanes[n].vc3 = some ⟨type, d.now, tries, wait⟩) ∧ e.lanes[n].store = d.lanes[n].store ∧
    e.lanes[n].back = d.lanes[n].back ∧ ∀ k : Fin 40, k ≠ n → e.lanes[k] = d.lanes[k] := by
  unfold Dev.vc3Ask
  extract_lets data goes d1 e
  have hl : d1.lanes[n] = { d.lanes[n] with vc3 := some ⟨type, d.now, tries, !goes⟩ } := vmod_same d.lanes n _
  have ho : ∀ k : Fin 40, k ≠ n → d1.lanes[k] = d.lanes[k] := fun k hk => vmod_ne d.lanes _ hk
  have hc : d.changes [.regs, .lanes] d1 := (d.laneMod_changes n _).mono (by decide)
  clear_value d1
  by_cases hg : goes = true
  · rw [show e = d1.laneSend n 3 type data from if_pos hg]
    obtain ⟨h1, -, h3⟩ := d1.laneSend_spec n 3 type data
    have h2 := d1.laneSend_lane n 3 type data
    generalize d1.laneSend n 3 type data = f at h1 h2 h3
    rw [h2, hl]
    exact ⟨hc.trans h1, ⟨_, rfl⟩, rfl, rfl, fun k hk => (h3 k hk).trans (ho k hk)⟩
  · rw [show e = d1 from if_neg hg, hl]
    exact ⟨hc, ⟨_, rfl⟩, rfl, rfl, ho⟩

/-- A management request in UP for which credits are left goes out at once. -/
theorem Dev.vc3Ask_goes (type tries : Nat) (hup : d.laneUp n = true) (hc : 1 ≤ d.lanes[n].cred3) :
    ∃ data, data.length ≤ 8 ∧ d.vc3Ask n type tries = (d.laneMod n fun l => { l with vc3 := some ⟨type, d.now, tries, false⟩ }).laneSend n 3 type data ∧
      frameUnits data.length = 1 := by
  have hu : (d.vc3Data n type).length ≤ 8 ∧ frameUnits (d.vc3Data n type).length = 1 := by
    unfold Dev.vc3Data
    split
    · exact ⟨by decide, rfl⟩
    · exact ⟨by rw [List.length_append, leBytes_length, leBytes_length], by rw [List.length_append, leBytes_length, leBytes_length]; rfl⟩
  refine ⟨d.vc3Data n type, hu.1, ?_, hu.2⟩
  have hcan : d.laneCan n 3 (d.vc3Data n type).length = true := by
    unfold Dev.laneCan
    rw [hup, hu.2]
    exact decide_eq_true hc
  unfold Dev.vc3Ask
  dsimp only
  rw [hcan, Bool.true_or]
  rfl

end

section
variable (s : State) (n : Fin 40) (hlive : s.dev.dead = false)
include hlive

/-- CREDIT (R302, R312). -/
theorem exec_credit (v1 v2 v3 : BitVec 16) (hst : s.dev.laneUp n = true ∨ s.dev.laneSt n = 3) :
    exec (.credit n v1 v2 v3) s = .next { s with dev := (((s.dev.laneMod n fun l =>
      { l with cred1 := l.cred1 + v1.toNat, cred3 := l.cred3 + v3.toNat }).creditShow n).vc3Go n) } := by
  have hcond : (s.dev.laneUp n || decide (s.dev.laneSt n = 3)) = true := by
    rcases hst with h | h
    · rw [h, Bool.true_or]
    · rw [decide_eq_true h, Bool.or_true]
  change execCredit n v1 v2 v3 s = _
  unfold execCredit
  rw [onLive_next _ _ hlive]
  exact congrArg (fun e => Host.Outcome.next { s with dev := e }) (Dev.when_of _ _ hcond)

/-- Credits add up where no request waits for them. -/
theorem credit_quiet (v1 v2 v3 : BitVec 16) (hst : s.dev.laneUp n = true ∨ s.dev.laneSt n = 3) (hq : ∀ r ∈ s.dev.lanes[n].vc3, r.held = false) :
    ∃ d', exec (.credit n v1 v2 v3) s = .next { s with dev := d' } ∧
    d' = { s.dev with
      regs := d'.regs
      lanes := s.dev.lanes.set n { s.dev.lanes[n] with
        cred1 := s.dev.lanes[n].cred1 + v1.toNat, cred3 := s.dev.lanes[n].cred3 + v3.toNat } } ∧
    s.dev.regsKept d' fun a => a = radr (laneB n) R.LANE_CREDIT := by
  obtain ⟨d1, hd1⟩ : ∃ x, x = s.dev.laneMod n fun l => { l with cred1 := l.cred1 + v1.toNat, cred3 := l.cred3 + v3.toNat } := ⟨_, rfl⟩
  have hvc : (d1.creditShow n).lanes[n].vc3 = s.dev.lanes[n].vc3 := by
    rw [hd1]
    exact (congrArg Lane.vc3 (vmod_same s.dev.lanes n _)).trans rfl
  have hgo : (d1.creditShow n).vc3Go n = d1.creditShow n := by
    unfold Dev.vc3Go
    rw [hvc]
    split
    · rename_i r hr
      rw [hq r hr]
      rfl
    · rfl
  refine ⟨d1.creditShow n, ?_, by rw [hd1]; rfl, ?_⟩
  · rw [exec_credit s n hlive v1 v2 v3 hst, ← hd1, hgo]
  · rw [hd1]
    exact Dev.regsKept_put _ _ _ _ _ _ rfl

/-- A request that waited for credits goes out. -/
theorem credit_goes (v1 v2 v3 : BitVec 16) {r : Vc3} (hup : s.dev.laneUp n = true) (hr : s.dev.lanes[n].vc3 = some r) (hheld : r.held = true)
    (hv : 1 ≤ v3.toNat) : ∃ d',
    exec (.credit n v1 v2 v3) s = .next { s with dev := d' } ∧ d' = { s.dev with regs := d'.regs, lanes := d'.lanes } ∧
    d'.lanes[n].vc3 = some ⟨r.type, s.dev.now, r.tries, false⟩ ∧ (d'.lanes[n].sent[(3 : Fin 4)].map (·.type)) = some r.type ∧
    d'.lanes[n].cred1 = s.dev.lanes[n].cred1 + v1.toNat ∧ d'.lanes[n].cred3 = s.dev.lanes[n].cred3 + v3.toNat - 1 ∧
    ∀ k : Fin 40, k ≠ n → d'.lanes[k] = s.dev.lanes[k] := by
  have hexec := exec_credit s n hlive v1 v2 v3 (.inl hup)
  generalize hd1 : (s.dev.laneMod n fun l => { l with cred1 := l.cred1 + v1.toNat, cred3 := l.cred3 + v3.toNat }).creditShow n = d1 at hexec
  have hl1 : d1.lanes[n] = { s.dev.lanes[n] with cred1 := s.dev.lanes[n].cred1 + v1.toNat, cred3 := s.dev.lanes[n].cred3 + v3.toNat } := by
    rw [← hd1]
    exact vmod_same s.dev.lanes n _
  have ho1 : ∀ k : Fin 40, k ≠ n → d1.lanes[k] = s.dev.lanes[k] := fun k hk => by
    rw [← hd1]
    exact vmod_ne s.dev.lanes _ hk
  have hc1 : s.dev.changes [.regs, .lanes] d1 := by
    rw [← hd1]
    exact ((s.dev.laneMod_changes n _).mono (by decide)).trans ((Dev.put_changes _ _ _ _ _ _).mono (by decide))
  have hup1 : d1.laneUp n = true := by
    rw [← hd1]
    refine (congrArg (fun w => decide (fld w 3 0 = 4)) ?_).trans hup
    exact Dev.get_put_off _ _ _ _ (by decide)
  clear hd1
  have hgo : d1.vc3Go n = d1.vc3Ask n r.type r.tries := by
    unfold Dev.vc3Go
    rw [show d1.lanes[n].vc3 = some r by rw [hl1]; exact hr]
    exact if_pos hheld
  have hcr : 1 ≤ d1.lanes[n].cred3 := by
    rw [hl1]
    exact Nat.le_trans hv (Nat.le_add_left _ _)
  obtain ⟨data, -, hask, hu⟩ := d1.vc3Ask_goes n r.type r.tries hup1 hcr
  rw [hgo, hask] at hexec
  generalize hd2 : (d1.laneMod n fun l => { l with vc3 := some ⟨r.type, d1.now, r.tries, false⟩ }) = d2 at hexec
  have hl2 : d2.lanes[n] = { d1.lanes[n] with vc3 := some ⟨r.type, d1.now, r.tries, false⟩ } := by
    rw [← hd2]
    exact vmod_same d1.lanes n _
  have ho2 : ∀ k : Fin 40, k ≠ n → d2.lanes[k] = d1.lanes[k] := fun k hk => by
    rw [← hd2]
    exact vmod_ne d1.lanes _ hk
  have hc2 : d1.changes [.regs, .lanes] d2 := by
    rw [← hd2]
    exact (d1.laneMod_changes n _).mono (by decide)
  clear hd2
  obtain ⟨h1, h2, h3⟩ := d2.laneSend_spec n 3 r.type data
  have h4 := d2.laneSend_lane n 3 r.type data
  generalize d2.laneSend n 3 r.type data = e at hexec h1 h2 h3 h4
  have hnow : d1.now = s.dev.now := hc1.get Dev.now
  refine ⟨e, hexec, ((hc1.trans hc2).trans h1).regLanes, ?_, ?_, ?_, ?_, fun k hk => (h3 k hk).trans ((ho2 k hk).trans (ho1 k hk))⟩
  · rw [h4, hl2, hnow]
  · have := congrArg (Option.map Prod.fst) h2
    rw [Option.map_map] at this
    exact this
  · rw [h4, hl2, hl1]
    rfl
  · rw [h4, hl2, hl1, hu]
    rfl

/-- DATA (R304, R311). -/
theorem data_joins (bytes : List (BitVec 8)) {r : Vc3} (hlen : bytes.length ≤ 512) (hup : s.dev.laneUp n = true) (hr : s.dev.lanes[n].vc3 = some r)
    (ht : r.type = 2) (hheld : r.held = false) (hg : frameUnits bytes.length ≤ s.dev.lanes[n].grants[(2 : Fin 3)])
    (hsl : ∀ q : Fin 16, s.dev.flt.slices[q].unit = none) : ∃ d',
    exec (.data n bytes) s = .next { s with dev := d' } ∧ d' = { s.dev with regs := d'.regs, lanes := d'.lanes } ∧
    d'.lanes[n].store = s.dev.lanes[n].store ++
      bytes.take (min 512 ((s.dev.desc n 7).toNat - s.dev.lanes[n].store.length)) ∧
    d'.lanes[n].back = some (2, frameUnits bytes.length) ∧
    ∀ k : Fin 40, k ≠ n → d'.lanes[k] = s.dev.lanes[k] := by
  have hcond : (s.dev.laneUp n && decide (r.type = 2) && !r.held) = true := by rw [hup, decide_eq_true ht, hheld]; rfl
  obtain ⟨d1, hd1⟩ : ∃ x, x = s.dev.laneMod n fun l => { l with back := some ((2 : Fin 3), frameUnits bytes.length) } := ⟨_, rfl⟩
  have hl1 : d1.lanes[n] = { s.dev.lanes[n] with back := some ((2 : Fin 3), frameUnits bytes.length) } := by
    rw [hd1]
    exact vmod_same s.dev.lanes n _
  have ho1 : ∀ k : Fin 40, k ≠ n → d1.lanes[k] = s.dev.lanes[k] := fun k hk => by
    rw [hd1]
    exact vmod_ne s.dev.lanes _ hk
  have hc1 : s.dev.changes [.regs, .lanes] d1 := by
    rw [hd1]
    exact (s.dev.laneMod_changes n _).mono (by decide)
  have hdesc : d1.desc n 7 = s.dev.desc n 7 := by rw [hd1]; rfl
  obtain ⟨d2, hd2⟩ : ∃ x, x = d1.laneMod n fun l => { l with
      vc3 := none, store := l.store ++ bytes.take (min 512 ((d1.desc n 7).toNat - d1.lanes[n].store.length)) } := ⟨_, rfl⟩
  have hl2 : d2.lanes[n] = { d1.lanes[n] with
      vc3 := none, store := d1.lanes[n].store ++ bytes.take (min 512 ((d1.desc n 7).toNat - d1.lanes[n].store.length)) } := by
    rw [hd2]
    exact vmod_same d1.lanes n _
  have ho2 : ∀ k : Fin 40, k ≠ n → d2.lanes[k] = d1.lanes[k] := fun k hk => by
    rw [hd2]
    exact vmod_ne d1.lanes _ hk
  have hc2 : d1.changes [.regs, .lanes] d2 := by
    rw [hd2]
    exact (d1.laneMod_changes n _).mono (by decide)
  have hrun : ∃ e, exec (.data n bytes) s = .next { s with dev := e } ∧ (e = d2 ∨ e = d2.storeRead n 1) := by
    have hf : ∀ k : Dev → Dev, s.dev.received n 2 bytes.length k = k d1 := fun k => by
      rw [hd1]
      exact s.dev.received_ok n 2 rfl k hg hsl
    refine ⟨(if h : n.val < 32 then
          if d2.opRunning (headB ⟨n.val, h⟩) 2 ∧ d2.lanes[n].store.length < fmapSize then d2.storeRead n 1 else d2
        else d2), ?_, ?_⟩
    · change execData n bytes s = _
      unfold execData
      rw [onLive_next _ _ hlive]
      dsimp only
      rw [if_neg (by omega), hr]
      refine congrArg (fun e => Host.Outcome.next { s with dev := e }) ?_
      change s.dev.when (s.dev.laneUp n && decide (r.type = 2) && !r.held) _ = _
      rw [Dev.when_of _ _ hcond, hf, ← hd2]
    · split
      · split
        · exact .inr rfl
        · exact .inl rfl
      · exact .inl rfl
  have hstore : d2.lanes[n].store = s.dev.lanes[n].store ++ bytes.take (min 512 ((s.dev.desc n 7).toNat - s.dev.lanes[n].store.length)) := by
    rw [hl2, hdesc, hl1]
  have hback : d2.lanes[n].back = some (2, frameUnits bytes.length) := by rw [hl2, hl1]
  obtain ⟨e, hexec, rfl | he⟩ := hrun
  · exact ⟨e, hexec, (hc1.trans hc2).regLanes, hstore, hback, fun k hk => (ho2 k hk).trans (ho1 k hk)⟩
  · obtain ⟨h1, -, h3, h4, h5⟩ := d2.vc3Ask_spec n 2 1
    change d2.changes [.regs, .lanes] (d2.storeRead n 1) at h1
    rw [show d2.vc3Ask n 2 1 = e from he.symm] at h3 h4 h5
    rw [← he] at h1
    exact ⟨e, hexec, ((hc1.trans hc2).trans h1).regLanes, h3.trans hstore, h4.trans hback, fun k hk => (h5 k hk).trans ((ho2 k hk).trans (ho1 k hk))⟩

end

end Sys2Proof.Machine
end

section
/-! SUPPORT. Requests refused or out of tries, and dropped frames (R304, R311, R313, R318). -/

namespace Sys2Proof.Machine

section
variable (d : Dev) (n : Fin 40)

theorem Dev.fmapNone_changes (h : Fin 32) : d.changes [.regs, .heads] (d.fmapNone h) := rfl

/-- A request other than DESC_REQ has failed (R311). -/
theorem Dev.vc3Fail_frame {type : Nat} (ht : type ≠ 0) : d.vc3Fail n type = { d with
    regs := (d.vc3Fail n type).regs, heads := (d.vc3Fail n type).heads, lanes := d.lanes.set n { d.lanes[n] with vc3 := none } } := by
  have h1 : d.vc3Fail n type = if h : n.val < 32 then
      if (d.laneMod n fun l => { l with vc3 := none }).opRunning (headB ⟨n.val, h⟩) 2
      then ((d.laneMod n fun l => { l with vc3 := none }).opFail (headB ⟨n.val, h⟩) 0x81).fmapNone ⟨n.val, h⟩
      else d.laneMod n fun l => { l with vc3 := none }
    else d.laneMod n fun l => { l with vc3 := none } := if_neg ht
  generalize hx : (d.laneMod n fun l => { l with vc3 := none }) = x at h1
  have hc : x.changes [.regs, .heads] (d.vc3Fail n type) := by
    rw [h1]
    split
    · split
      · exact ((x.put_changes _ _ _ _ _).mono (by decide)).trans (Dev.fmapNone_changes _ _)
      · exact .refl x _
    · exact .refl x _
  generalize d.vc3Fail n type = e at hc
  have he : e = { x with regs := e.regs, heads := e.heads } := congrArg (fun y : Dev => { y with regs := e.regs, heads := e.heads }) hc
  rw [he, ← hx]
  rfl

/-- A lane fails; the other lanes stay. -/
theorem Dev.laneFail_changes (reason : Nat) : d.changes [.regs, .vecs, .fabric, .jrn, .lanes] (d.laneFail n reason) ∧
    ∀ k : Fin 40, k ≠ n → (d.laneFail n reason).lanes[k] = d.lanes[k] := by
  have h0 := ((d.laneTo_at n (st := 6) (by decide)).note (hi := 19) (lo := 16) reason (by decide) (by decide)).laneMod fun l => { l with lost := false }
  unfold Dev.laneFail
  generalize ((d.laneTo n 6).putF (laneB n) R.LANE_STAT 19 16 reason).laneMod n (fun l => { l with lost := false }) = x at h0
  have h1 : x.changes [.regs, .vecs, .fabric, .jrn] (((x.laneEvent n 8#32).raise (laneB n) (some 0) 0).laneLog n 3 []) :=
    (((Dev.event_changes _ _ _ _ _ _ _).mono (by decide)).trans ((Dev.detect_changes _ _ _ _ _ _ _ _).mono (by decide))).trans
      ((Dev.aside.refl (w := pageOf (laneB n)) _).laneLog (apart_lane n) (by decide) n 3 []).frame
  generalize ((x.laneEvent n 8#32).raise (laneB n) (some 0) 0).laneLog n 3 [] = y at h1
  refine ⟨(h0.frame.mono (by decide)).trans (h1.mono (by decide)), fun k hk => ?_⟩
  rw [show y.lanes = x.lanes from h1.get Dev.lanes]
  exact h0.others k hk

end

theorem Dev.changes.mgmtParts {d e : Dev} (h : d.changes [.regs, .vecs, .fabric, .heads, .jrn, .lanes] e) : e = { d with
    regs := e.regs, vecs := e.vecs, fabric := e.fabric, heads := e.heads, jrn := e.jrn, lanes := e.lanes } :=
  congrArg (fun x : Dev => { x with
    regs := e.regs, vecs := e.vecs, fabric := e.fabric, heads := e.heads, jrn := e.jrn, lanes := e.lanes }) h

section
variable (s : State) (n : Fin 40) (hlive : s.dev.dead = false)
include hlive

/-- NACK (R311). -/
theorem nack_over (type : BitVec 8) {r : Vc3} (hr : s.dev.lanes[n].vc3 = some r) (ht : r.type = type.toNat) (h0 : r.type ≠ 0)
    (hheld : r.held = false) (hg : 1 ≤ s.dev.lanes[n].grants[(2 : Fin 3)]) (hsl : ∀ q : Fin 16, s.dev.flt.slices[q].unit = none) : ∃ d',
    exec (.nack n type) s = .next { s with dev := d' } ∧
    d' = { s.dev with
      regs := d'.regs, heads := d'.heads
      lanes := s.dev.lanes.set n { s.dev.lanes[n] with vc3 := none, back := some (2, 1) } } := by
  have hcond : (decide (r.type = type.toNat) && !r.held) = true := by rw [decide_eq_true ht, hheld]; rfl
  have hrec := s.dev.received_ok n 2 (len := 1) (u := 1) rfl (fun d => d.vc3Fail n r.type) hg hsl
  have hf := (s.dev.laneMod n fun l => { l with back := some ((2 : Fin 3), 1) }).vc3Fail_frame n h0
  have hl : (s.dev.laneMod n fun l => { l with back := some ((2 : Fin 3), 1) }).lanes.set n
      { (s.dev.laneMod n fun l => { l with back := some ((2 : Fin 3), 1) }).lanes[n] with vc3 := none } =
      s.dev.lanes.set n { s.dev.lanes[n] with vc3 := none, back := some (2, 1) } :=
    vmod_vmod s.dev.lanes n (fun l => { l with back := some ((2 : Fin 3), 1) }) fun l => { l with vc3 := none }
  rw [hl] at hf
  have hexec : exec (.nack n type) s = .next { s with dev := ((s.dev.laneMod n fun l => { l with back := some ((2 : Fin 3), 1) }).vc3Fail n r.type) } := by
    change execNack n type s = _
    unfold execNack
    rw [onLive_next _ _ hlive, hr]
    refine congrArg (fun e => Host.Outcome.next { s with dev := e }) ?_
    exact (Dev.when_of _ (fun d => d.received n 2 1 fun d => d.vc3Fail n r.type) hcond).trans hrec
  generalize (s.dev.laneMod n fun l => { l with back := some ((2 : Fin 3), 1) }).vc3Fail n r.type = e at hexec hf
  exact ⟨e, hexec, hf⟩

/-- VC3_TIMEOUT (R311). -/
theorem exec_vc3Timeout {r : Vc3} (hr : s.dev.lanes[n].vc3 = some r) (hheld : r.held = false) (hp : s.dev.past r.since 100 = true) :
    exec (.vc3Timeout n) s = .next { s with dev := (
      if r.type = 0 then if r.tries < 3 then s.dev.vc3Ask n 0 (r.tries + 1) else s.dev.vc3Fail n 0
      else if r.tries < 2 then s.dev.vc3Ask n 2 (r.tries + 1)
      else (s.dev.vc3Fail n r.type).raise (laneB n) (some 0) 5) } := by
  have hcond : (!r.held && s.dev.past r.since 100) = true := by rw [hheld, hp]; rfl
  change execVc3Timeout n s = _
  unfold execVc3Timeout
  rw [onLive_next _ _ hlive, hr]
  exact congrArg (fun e => Host.Outcome.next { s with dev := e }) (Dev.when_of _ _ hcond)

theorem vc3Timeout_spec {r : Vc3} (hr : s.dev.lanes[n].vc3 = some r) (hheld : r.held = false) (hp : s.dev.past r.since 100 = true) :
    ∃ d', exec (.vc3Timeout n) s = .next { s with dev := d' } ∧
      d' = { s.dev with
        regs := d'.regs, vecs := d'.vecs, fabric := d'.fabric, heads := d'.heads, jrn := d'.jrn, lanes := d'.lanes } ∧
      (r.type = 0 → r.tries < 3 → ∃ wait, d'.lanes[n].vc3 = some ⟨0, s.dev.now, r.tries + 1, wait⟩) ∧
      (r.type ≠ 0 → r.tries < 2 → ∃ wait, d'.lanes[n].vc3 = some ⟨2, s.dev.now, r.tries + 1, wait⟩) ∧
      (r.type ≠ 0 → 2 ≤ r.tries → d'.lanes[n].vc3 = none ∧ d'.getB (laneB n) R.FLT_STAT 5 = true) ∧
      ∀ k : Fin 40, k ≠ n → d'.lanes[k] = s.dev.lanes[k] := by
  refine ⟨_, exec_vc3Timeout s n hlive hr hheld hp, ?_⟩
  by_cases h0 : r.type = 0
  · rw [if_pos h0]
    by_cases hlt : r.tries < 3
    · rw [if_pos hlt]
      obtain ⟨h1, h2, -, -, h5⟩ := s.dev.vc3Ask_spec n 0 (r.tries + 1)
      generalize s.dev.vc3Ask n 0 (r.tries + 1) = e at h1 h2 h5
      exact ⟨(h1.mono (by decide)).mgmtParts, fun _ _ => h2, fun hn => absurd h0 hn, fun hn => absurd h0 hn, h5⟩
    · rw [if_neg hlt]
      have hf : s.dev.changes [.regs, .vecs, .fabric, .jrn, .lanes] (s.dev.vc3Fail n 0) ∧
          ∀ k : Fin 40, k ≠ n → (s.dev.vc3Fail n 0).lanes[k] = s.dev.lanes[k] := by
        have hdef : s.dev.vc3Fail n 0 = if s.dev.laneSt n = 3 then (s.dev.laneFail n 2).raise (laneB n) (some 0) 3 else s.dev := rfl
        by_cases h3 : s.dev.laneSt n = 3
        · rw [hdef.trans (if_pos h3)]
          obtain ⟨h1, h2⟩ := s.dev.laneFail_changes n 2
          clear hdef
          generalize s.dev.laneFail n 2 = x at h1 h2
          have hd : x.changes [.regs, .vecs, .fabric] (x.raise (laneB n) (some 0) 3) := x.detect_changes _ _ _ _ _ _ _
          refine ⟨h1.trans (hd.mono (by decide)), fun k hk => ?_⟩
          rw [show (x.raise (laneB n) (some 0) 3).lanes = x.lanes from hd.get Dev.lanes]
          exact h2 k hk
        · rw [hdef.trans (if_neg h3)]
          exact ⟨.refl _ _, fun _ _ => rfl⟩
      generalize s.dev.vc3Fail n 0 = e at hf
      exact ⟨(hf.1.mono (by decide)).mgmtParts, fun _ h => absurd h hlt, fun hn => absurd h0 hn, fun hn => absurd h0 hn, hf.2⟩
  · rw [if_neg h0]
    by_cases h2 : r.tries < 2
    · rw [if_pos h2]
      obtain ⟨h1, h4, -, -, h5⟩ := s.dev.vc3Ask_spec n 2 (r.tries + 1)
      generalize s.dev.vc3Ask n 2 (r.tries + 1) = e at h1 h4 h5
      exact ⟨(h1.mono (by decide)).mgmtParts, fun hn => absurd hn h0, fun _ _ => h4, fun _ h => absurd h2 (by omega), h5⟩
    · rw [if_neg h2]
      have hf := s.dev.vc3Fail_frame n h0
      generalize s.dev.vc3Fail n r.type = x at hf
      have hl : x.lanes = s.dev.lanes.set n { s.dev.lanes[n] with vc3 := none } := by rw [hf]
      have hc : s.dev.changes [.regs, .vecs, .fabric, .heads, .jrn, .lanes] x := by
        rw [hf]
        rfl
      clear hf
      have hd : x.changes [.regs, .vecs, .fabric] (x.raise (laneB n) (some 0) 5) := x.detect_changes _ _ _ _ _ _ _
      have hst : (x.raise (laneB n) (some 0) 5).getB (laneB n) R.FLT_STAT 5 = true :=
        x.detect_stat ((by decide : ∀ n : Fin 40, blkKind (laneB n) = some (.lane, n.val)) n) (laneB_ne_hif n) (laneB_ne_fltc n) _ (by decide) _ _ _ _
      generalize x.raise (laneB n) (some 0) 5 = e at hd hst
      have hle : e.lanes = s.dev.lanes.set n { s.dev.lanes[n] with vc3 := none } := (hd.get Dev.lanes).trans hl
      refine ⟨(hc.trans (hd.mono (by decide))).mgmtParts, fun hn => absurd hn h0, fun _ h => absurd h h2, fun _ _ => ⟨?_, hst⟩, fun k hk => ?_⟩
      · rw [hle]
        exact congrArg Lane.vc3 (vset_same s.dev.lanes n _)
      · rw [hle]
        exact vset_ne s.dev.lanes _ hk

/-! Dropped frames. -/

theorem dropped_credits (vc : BitVec 2) (hst : s.dev.laneUp n = true ∨ s.dev.laneSt n = 3) :
    exec (.droppedLinkFrame n .credits vc) s = .next { s with dev := s.dev.creditViol n } := by
  have hcond : ¬¬ (s.dev.laneUp n = true ∨ s.dev.laneSt n = 3 ∨ (s.dev.laneSt n = 2 ∧ DropWhy.credits = .reservedBlock)) :=
    not_not.mpr (hst.imp_right .inl)
  change execDroppedLinkFrame n .credits vc s = _
  unfold execDroppedLinkFrame
  rw [onLiveMem_next _ _ hlive]
  simp only [if_neg hcond]

theorem dropped_crc (vc : BitVec 2) (hst : s.dev.laneUp n = true ∨ s.dev.laneSt n = 3) (hlim : fld (s.dev.lget n R.LANE_RT_CTL) 7 0 = 0) : ∃ d',
    exec (.droppedLinkFrame n .crc vc) s = .next { s with dev := d' } ∧
    d' = { s.dev with
      regs := d'.regs
      lanes := s.dev.lanes.set n { s.dev.lanes[n] with
        crcAt := s.dev.now :: s.dev.lanes[n].crcAt.filter fun t => !s.dev.past t 1000 } } ∧
    d'.getN (laneB n) R.LANE_CRCERR = min 0xFFFFFFFF (s.dev.getN (laneB n) R.LANE_CRCERR + 1) ∧
    s.dev.regsKept d' fun a => a = radr (laneB n) R.LANE_CRCERR := by
  have hcond : ¬¬ (s.dev.laneUp n = true ∨ s.dev.laneSt n = 3 ∨ (s.dev.laneSt n = 2 ∧ DropWhy.crc = .reservedBlock)) :=
    not_not.mpr (hst.imp_right .inl)
  refine ⟨(s.dev.bump (laneB n) R.LANE_CRCERR).laneMod n fun l => { l with
    crcAt := s.dev.now :: s.dev.lanes[n].crcAt.filter fun t => !s.dev.past t 1000 }, ?_, rfl, s.dev.getN_bump _ _ 0 0, ?_⟩
  · change execDroppedLinkFrame n .crc vc s = _
    unfold execDroppedLinkFrame
    rw [onLiveMem_next _ _ hlive]
    simp only [if_neg hcond, hlim, true_or, if_true]
  · exact s.dev.regsKept_put (laneB n) R.LANE_CRCERR _ 0 0 rfl

theorem dropped_other (why : DropWhy) (vc : BitVec 2) (hst : s.dev.laneUp n = true ∨ s.dev.laneSt n = 3 ∨ s.dev.laneSt n = 2 ∧ why = .reservedBlock)
    (hw : why ∈ [DropWhy.reservedType, .lenAbove512, .lenMismatch, .reservedBlock]) :
    exec (.droppedLinkFrame n why vc) s = .next { s with dev := s.dev.bump (laneB n) R.LANE_DROP } := by
  change execDroppedLinkFrame n why vc s = _
  unfold execDroppedLinkFrame
  rw [onLiveMem_next _ _ hlive]
  simp only [if_neg (not_not.mpr hst)]
  cases why with
  | crc => exact absurd hw (by decide)
  | credits => exact absurd hw (by decide)
  | reservedType => rfl
  | lenAbove512 => rfl
  | lenMismatch => rfl
  | reservedBlock => rfl

end

end Sys2Proof.Machine
end

section
/-! Error injection and pattern tests (R323 to R325), and the frames of the link. -/

namespace Sys2Proof.Machine

/-! The checker (R323). -/

/-- What the checker has counted. -/
def Checker.counts (c : Checker) : Nat × Nat × Option Nat := (c.errs, c.losses, c.first)

theorem Checker.pass_counts (c : Checker) (k : Nat) : (c.pass k).counts = c.counts := by
  unfold Checker.pass
  split
  · split <;> rfl
  · rfl

theorem patNextBit_zero (poly : Nat) : patNextBit poly 0 = false := by simp [patNextBit]

theorem patShift_zero : patShift 0 false = 0 := rfl

/-- In sync with nothing inverted in its generator, a checker that is sent no inverted bit any more counts nothing more. -/
theorem Checker.run_inSync (poly len fuel at_ : Nat) (c : Checker) (h : c.own = some 0) :
    (Checker.run poly len fuel at_ [] c).counts = c.counts := by
  induction fuel generalizing at_ c with
  | zero => rfl
  | succ f ih =>
    have hb : Checker.bit poly at_ c false = { c with last := patShift c.last false, own := some 0 } := by
      unfold Checker.bit
      rw [h]
      simp only [patNextBit_zero, patShift_zero, if_true]
    unfold Checker.run
    split
    · rfl
    · split
      · exact c.pass_counts _
      · change (Checker.run poly len f (at_ + 1) [] (Checker.bit poly at_ c false)).counts = c.counts
        rw [hb]
        exact ih _ _ rfl

/-- Without an inverted bit the checker counts nothing. -/
theorem Checker.run_clean (poly len fuel : Nat) : (Checker.run poly len fuel 0 [] Checker.init).counts = (0, 0, none) := by
  cases fuel with
  | zero => rfl
  | succ f =>
    unfold Checker.run
    split
    · rfl
    · exact (if_pos ⟨rfl, rfl⟩ : (if Checker.init.last = 0 ∧ Checker.init.own.getD 0 = 0 then _ else _) = _) ▸ Checker.pass_counts _ _

/-- One bit inverted in sync is one error, at its place. -/
theorem Checker.run_single (poly len fuel p : Nat) (h64 : 64 ≤ p) (hp : p < len) :
    (Checker.run poly len (fuel + 2) 0 [p] Checker.init).counts = (1, 0, some p) := by
  have hmin : min p len = p := Nat.min_eq_left (by omega)
  obtain ⟨c1, hc1⟩ : ∃ x, x = Checker.init.pass p := ⟨_, rfl⟩
  have h1 : c1 = { Checker.init with own := some 0 } := by
    rw [hc1]
    unfold Checker.pass
    exact if_pos (by change 64 ≤ 0 + p; omega)
  have hstep1 : Checker.run poly len (fuel + 2) 0 [p] Checker.init = Checker.run poly len (fuel + 1) p [p] c1 := by
    rw [hc1, Checker.run, if_neg (by omega), if_pos ⟨rfl, rfl⟩]
    change (if 0 < p then _ else _) = _
    rw [if_pos (by omega), hmin, Nat.sub_zero]
  have hbit : Checker.bit poly p c1 true = { c1 with last := patShift 0 true, own := some 0, errs := 1, first := some p, recent := [p] } := by
    rw [h1]
    unfold Checker.bit
    simp only [Checker.init, patNextBit_zero, patShift_zero]
    rfl
  have hstep2 : Checker.run poly len (fuel + 1) p [p] c1 = Checker.run poly len fuel (p + 1) [] (Checker.bit poly p c1 true) := by
    rw [Checker.run, if_neg (by omega), if_pos (by rw [h1]; exact ⟨rfl, rfl⟩)]
    change (if p < p then _ else if p = p then _ else _) = _
    rw [if_neg (by omega), if_pos rfl]
  rw [hstep1, hstep2, hbit, Checker.run_inSync _ _ _ _ _ rfl, h1]
  rfl

theorem Dev.patCheck_clean (d : Dev) (n : Fin 40) (line : List Nat) (h : d.patFlips n line = []) : (d.patCheck n line).counts = (0, 0, none) := by
  unfold Dev.patCheck
  rw [h]
  exact Checker.run_clean _ _ _

theorem Dev.patCheck_single (d : Dev) (n : Fin 40) (line : List Nat) {p : Nat} (h : d.patFlips n line = [p]) (h64 : 64 ≤ p) (hp : p < d.patBits n) :
    (d.patCheck n line).counts = (1, 0, some p) := by
  unfold Dev.patCheck
  rw [h]
  generalize d.patBits n = len at hp
  exact Checker.run_single _ len (2 * len + 2) p h64 hp

/-! Injection. -/

section
variable (s : State) (n : Fin 40)

/-- INJ_BIT or INJ_BURST, whichever is written (R325). -/
theorem exec_inj {c : Instr} {bits : Nat} (hlive : s.dev.dead = false)
    (hc : c = .injBit n ∧ bits = 1 ∨ c = .injBurst n ∧ bits = max 1 (fld (s.dev.lget n R.LANE_PAT_CTL) 15 8)) :
    exec c s = .next { s with dev := s.dev.laneInj n bits s.pending } := by
  rcases hc with ⟨rfl, rfl⟩ | ⟨rfl, rfl⟩
  · change execInjBit n s = _
    unfold execInjBit
    rw [onLive_next _ _ hlive]
  · change execInjBurst n s = _
    unfold execInjBurst
    rw [onLive_next _ _ hlive]
    rfl

theorem inj_up {c : Instr} {bits : Nat} (ht : s.dev.takes (laneB n) 0x108)
    (hc : c = .injBit n ∧ bits = 1 ∨ c = .injBurst n ∧ bits = max 1 (fld (s.dev.lget n R.LANE_PAT_CTL) 15 8)) (hup : s.dev.laneUp n = true) :
    exec c s = .next { s with dev := s.dev.laneMod n fun l => { l with inj := l.inj ++ [(fld (s.dev.lget n R.LANE_PAT_CTL) 17 16, bits)] } } := by
  have h4 : s.dev.laneSt n = 4 := of_decide_eq_true hup
  rw [exec_inj s n (Dev.takes_live _ _ _ ht) hc]
  refine congrArg (fun e => Host.Outcome.next { s with dev := e }) ?_
  unfold Dev.laneInj
  dsimp only
  rw [if_neg (by rw [h4]; exact fun h => absurd h.2 (by decide)), Dev.hostWrite_takes _ _ _ _ ht]
  exact if_pos hup

theorem inj_test {c : Instr} {bits : Nat} (hok : s.dev.hostOk = true) (hacc : s.dev.accErr (laneB n) 0x108 = 0)
    (hsl : s.dev.flt.slices[(laneB n).region].unit = none) (hend : s.dev.patEnding n s.pending = false)
    (hat : (s.dev.lanes[n].patInj.map fun i => i.1 + i.2).foldl max (s.dev.patSent n) < s.dev.patBits n)
    (hc : c = .injBit n ∧ bits = 1 ∨ c = .injBurst n ∧ bits = max 1 (fld (s.dev.lget n R.LANE_PAT_CTL) 15 8)) (h7 : s.dev.laneSt n = 7) : ∃ d',
    exec c s = .next { s with dev := d' } ∧
    d' = { s.dev with
      regs := d'.regs
      lanes := s.dev.lanes.set n { s.dev.lanes[n] with
        patInj := s.dev.lanes[n].patInj ++ [((s.dev.lanes[n].patInj.map fun i => i.1 + i.2).foldl max (s.dev.patSent n), bits)] } } ∧
    d'.getN (laneB n) R.LANE_INJCNT = min 0xFFFFFFFF (s.dev.getN (laneB n) R.LANE_INJCNT + 1) ∧
    d'.get (laneB n) R.OP_PART 3 = wd (s.dev.getN (laneB n) R.OP_PART 3 + bits) ∧
    s.dev.regsKept d' fun a => a = radr (laneB n) R.LANE_INJCNT ∨ a = radr (laneB n) R.OP_PART 3 := by
  generalize hat' : (s.dev.lanes[n].patInj.map fun i => i.1 + i.2).foldl max (s.dev.patSent n) = at_ at hat
  obtain ⟨d1, hd1⟩ : ∃ x, x = s.dev.laneMod n fun l => { l with patInj := l.patInj ++ [(at_, bits)] } := ⟨_, rfl⟩
  have hr1 : d1.regs = s.dev.regs := by rw [hd1]; rfl
  have hne : radr (laneB n) R.LANE_INJCNT ≠ radr (laneB n) R.OP_PART 3 := radr_ne_of_ofs _ _ _ _ _ _ _ (by decide)
  have hlive : s.dev.dead = false := Dev.hostOk_live _ hok
  have hcond : (s.dev.hostOk && decide (s.dev.accErr (laneB n) 0x108 = 0)) = true := by rw [hok, decide_eq_true hacc]; rfl
  refine ⟨(d1.bump (laneB n) R.LANE_INJCNT).opPart (laneB n) 3 (s.dev.getN (laneB n) R.OP_PART 3 + bits), ?_, by rw [hd1]; rfl, ?_,
    Dev.opPart_get_same _ _ _ _, ?_⟩
  · rw [exec_inj s n hlive hc]
    refine congrArg (fun e => Host.Outcome.next { s with dev := e }) ?_
    unfold Dev.laneInj
    dsimp only
    rw [if_pos ⟨hcond, h7⟩, Dev.touch_none _ _ _ hsl, hend, if_neg Bool.false_ne_true]
    unfold Dev.patInject
    dsimp only
    rw [hat', if_neg (by omega), ← hd1]
  · refine (congrArg BitVec.toNat (Dev.get_put_ne _ _ _ _ _ _ _ _ _ _ hne)).trans ((d1.getN_bump _ _ 0 0).trans ?_)
    unfold Dev.getN
    rw [show d1.get (laneB n) R.LANE_INJCNT = s.dev.get (laneB n) R.LANE_INJCNT from Dev.get_of_regs _ _ _ _ (by rw [hr1])]
  · have hk : s.dev.regsKept d1 fun a => a = radr (laneB n) R.LANE_INJCNT ∨ a = radr (laneB n) R.OP_PART 3 := fun a _ => by rw [hr1]
    exact (hk.put _ _ _ 0 0 (.inl rfl)).put _ _ _ 3 0 (.inr rfl)

/-! Pattern tests. -/

/-- The results of a pattern test stand (R324). -/
def Dev.patShown (d : Dev) (b : Blk) (bits errs losses first far : Nat) : Dev :=
  ((((d.opPart b 0 bits).opPart b 1 errs).opPart b 2 losses).opPart b 4 first).opPart b 5 far

theorem Dev.patShown_spec (d : Dev) (b : Blk) (bits errs losses first far : Nat) :
    let e := d.patShown b bits errs losses first far
    e = { d with regs := e.regs } ∧ e.get b R.OP_PART 0 = wd bits ∧ e.get b R.OP_PART 1 = wd errs ∧ e.get b R.OP_PART 2 = wd losses ∧
    e.get b R.OP_PART 4 = wd first ∧ e.get b R.OP_PART 5 = wd far ∧ e.opTag b = d.opTag b ∧ d.regsKept e (onPage b) := by
  have hp : ∀ i, i < 6 → onPage b (radr b R.OP_PART i) := fun i hi => onPage_radr _ _ _ (by change 0x28 + 4 * i + 0 * 0 < 0x1000; omega)
  refine ⟨rfl, ?_, ?_, ?_, ?_, Dev.opPart_get_same _ _ _ _, ?_, ?_⟩
  · unfold Dev.patShown
    rw [Dev.opPart_get_ne _ _ _ (by decide), Dev.opPart_get_ne _ _ _ (by decide), Dev.opPart_get_ne _ _ _ (by decide),
      Dev.opPart_get_ne _ _ _ (by decide), Dev.opPart_get_same]
  · unfold Dev.patShown
    rw [Dev.opPart_get_ne _ _ _ (by decide), Dev.opPart_get_ne _ _ _ (by decide), Dev.opPart_get_ne _ _ _ (by decide), Dev.opPart_get_same]
  · unfold Dev.patShown
    rw [Dev.opPart_get_ne _ _ _ (by decide), Dev.opPart_get_ne _ _ _ (by decide), Dev.opPart_get_same]
  · unfold Dev.patShown
    rw [Dev.opPart_get_ne _ _ _ (by decide), Dev.opPart_get_same]
  · unfold Dev.patShown Dev.opTag
    simp only [Dev.opPart_getF_stat]
  · exact (((((d.regsKept_refl _).put _ _ _ 0 0 (hp 0 (by decide))).put _ _ _ 1 0 (hp 1 (by decide))).put _ _ _ 2 0 (hp 2 (by decide))).put _ _ _ 4 0
      (hp 4 (by decide))).put _ _ _ 5 0 (hp 5 (by decide))

/-- Registers other than LANE_STAT after a transition. -/
theorem Dev.laneAt.get {n : Fin 40} {st : Nat} {d e : Dev} (h : Dev.laneAt n st d e) {r : Reg} {i : Nat} (hr : r.ofs i 0 ≠ 0x104) :
    e.get (laneB n) r i = d.get (laneB n) r i := h.regs.get _ _ _ _ (radr_ne_of_ofs (laneB n) R.LANE_STAT r 0 0 i 0 hr)

theorem opPart_ofs {i : Nat} (h : i < 6) : R.OP_PART.ofs i 0 ≠ 0x104 := by
  change 0x28 + 4 * i + 0 * 0 ≠ 0x104
  omega

theorem Dev.changes.regOpsLanes {d e : Dev} (h : d.changes [.regs, .ops, .lanes] e) : e = { d with regs := e.regs, ops := e.ops, lanes := e.lanes } :=
  congrArg (fun x : Dev => { x with regs := e.regs, ops := e.ops, lanes := e.lanes }) h

/-- PAT_TEST_DONE (R323, R324). -/
theorem patTestDone_spec (r : PatResult) (hlive : s.dev.dead = false) (hrun : s.dev.opRunning (laneB n) 1 = true) (h7 : s.dev.laneSt n = 7)
    (hfar : s.dev.lanes[n].farAsk = none) (hsent : s.dev.patBits n ≤ s.dev.patSent n) : ∃ d',
    exec (.patTestDone n r) s = .next { s with dev := d' } ∧
    d' = { s.dev with regs := d'.regs, ops := d'.ops, lanes := d'.lanes } ∧
    d'.get (laneB n) R.OP_STAT = opWord 3 4095 0 (s.dev.opTag (laneB n)) ∧ d'.laneSt n = 1 ∧
    d'.get (laneB n) R.OP_PART 0 = s.dev.get (laneB n) R.LANE_PAT_LEN ∧
    d'.get (laneB n) R.OP_PART 1 = wd (s.dev.patCheck n r.flips).errs ∧
    d'.get (laneB n) R.OP_PART 2 = wd (s.dev.patCheck n r.flips).losses ∧
    d'.get (laneB n) R.OP_PART 4 = wd ((s.dev.patCheck n r.flips).first.getD 0) ∧
    d'.get (laneB n) R.OP_PART 5 = (if s.dev.lanes[n].far then r.farErrs else 0) ∧
    (∀ k : Fin 40, k ≠ n → d'.lanes[k] = s.dev.lanes[k]) ∧ s.dev.regsKept d' (onPage (laneB n)) := by
  have hcond : (s.dev.opRunning (laneB n) 1 && decide (s.dev.laneSt n = 7) && s.dev.lanes[n].farAsk.isNone &&
      decide (s.dev.patBits n ≤ s.dev.patSent n)) = true := by
    rw [hrun, decide_eq_true h7, hfar, decide_eq_true hsent]
    rfl
  have hexec : exec (.patTestDone n r) s = .next { s with dev := (((s.dev.patShown (laneB n) (s.dev.getN (laneB n) R.LANE_PAT_LEN)
      (s.dev.patCheck n r.flips).errs (s.dev.patCheck n r.flips).losses ((s.dev.patCheck n r.flips).first.getD 0)
      (if s.dev.lanes[n].far then r.farErrs.toNat else 0)).opDone (laneB n)).laneTo n 1) } := by
    change execPatTestDone n r s = _
    unfold execPatTestDone
    rw [onLive_next _ _ hlive]
    exact congrArg (fun e => Host.Outcome.next { s with dev := e }) (Dev.when_of _ _ hcond)
  have hw : wd (if s.dev.lanes[n].far then r.farErrs.toNat else 0) = if s.dev.lanes[n].far then r.farErrs else 0 := by
    split
    · exact wd_toNat_self _
    · rfl
  obtain ⟨h1, p0, p1, p2, p4, p5, htag, hk1⟩ := s.dev.patShown_spec (laneB n) (s.dev.getN (laneB n) R.LANE_PAT_LEN)
      (s.dev.patCheck n r.flips).errs (s.dev.patCheck n r.flips).losses ((s.dev.patCheck n r.flips).first.getD 0)
      (if s.dev.lanes[n].far then r.farErrs.toNat else 0)
  generalize s.dev.patShown (laneB n) (s.dev.getN (laneB n) R.LANE_PAT_LEN) (s.dev.patCheck n r.flips).errs (s.dev.patCheck n r.flips).losses
    ((s.dev.patCheck n r.flips).first.getD 0) (if s.dev.lanes[n].far then r.farErrs.toNat else 0) = x at hexec h1 p0 p1 p2 p4 p5 htag hk1
  have hc1 : s.dev.changes [.regs, .ops, .lanes] x := by
    rw [h1]
    rfl
  have hx : ∀ i, (x.opDone (laneB n)).get (laneB n) R.OP_PART i = x.get (laneB n) R.OP_PART i := fun i =>
    (x.opDone_get _ _ _ _ _).trans (Dev.get_put_ne _ _ _ _ _ _ _ _ _ _ (opPart_ne_opStat _ i))
  have hs := x.opDone_stat (laneB n)
  have hk2 : x.regsKept (x.opDone (laneB n)) (onPage (laneB n)) := x.opDone_kept _ (onPage_radr _ _ _ (by decide))
  have hc2 := x.opDone_changes (laneB n)
  generalize x.opDone (laneB n) = y at hexec hx hs hk2 hc2
  have h3 := y.laneTo_at n (st := 1) (by decide)
  generalize y.laneTo n 1 = z at hexec h3
  have hl : y.lanes = s.dev.lanes := (show y.lanes = x.lanes from hc2.get Dev.lanes).trans (by rw [h1])
  have hz : ∀ {i}, i < 6 → z.get (laneB n) R.OP_PART i = x.get (laneB n) R.OP_PART i := fun hi => (h3.get (opPart_ofs hi)).trans (hx _)
  refine ⟨z, hexec, ((hc1.trans (hc2.mono (by decide))).trans (h3.frame.mono (by decide))).regOpsLanes, ?_, h3.state, ?_,
    (hz (by decide)).trans p1, (hz (by decide)).trans p2, (hz (by decide)).trans p4, ((hz (by decide)).trans p5).trans hw,
    fun k hk => (h3.others k hk).trans (by rw [hl]), (hk1.trans hk2).trans (h3.regs.mono fun _ ha => ha ▸ lanePage n (by decide))⟩
  · rw [h3.get (by decide), hs, htag]
  · exact ((hz (by decide)).trans p0).trans (wd_toNat_self _)

theorem patTestNoAnswer_spec {t : Nat} (hlive : s.dev.dead = false) (hrun : s.dev.opRunning (laneB n) 1 = true) (h7 : s.dev.laneSt n = 7)
    (hfar : s.dev.lanes[n].farAsk = some t) (hp : s.dev.past t 100 = true) : ∃ d',
    exec (.patTestNoAnswer n) s = .next { s with dev := d' } ∧ d' = { s.dev with regs := d'.regs, lanes := d'.lanes } ∧
    d'.getF (laneB n) R.OP_STAT 31 28 = 4 ∧ d'.getF (laneB n) R.OP_STAT 15 8 = 0x80 ∧ d'.laneSt n = 1 ∧
    (∀ k : Fin 40, k ≠ n → d'.lanes[k] = s.dev.lanes[k]) ∧ s.dev.regsKept d' (onPage (laneB n)) := by
  have hcond : (s.dev.opRunning (laneB n) 1 && decide (s.dev.laneSt n = 7) && s.dev.past t 100) = true := by
    rw [hrun, decide_eq_true h7, hp]
    rfl
  have hexec : exec (.patTestNoAnswer n) s = .next { s with dev := (s.dev.opFail (laneB n) 0x80).laneTo n 1 } := by
    change execPatTestNoAnswer n s = _
    unfold execPatTestNoAnswer
    rw [onLive_next _ _ hlive, hfar]
    exact congrArg (fun e => Host.Outcome.next { s with dev := e }) (Dev.when_of _ _ hcond)
  have hw : (s.dev.opFail (laneB n) 0x80).get (laneB n) R.OP_STAT = opWord 4 (s.dev.getF (laneB n) R.OP_STAT 27 16) 0x80 (s.dev.opTag (laneB n)) :=
    Dev.opSet_word _ _ _ _
  have hc : s.dev.changes [.regs] (s.dev.opFail (laneB n) 0x80) := s.dev.put_changes _ _ _ _ _
  have hk : s.dev.regsKept (s.dev.opFail (laneB n) 0x80) (onPage (laneB n)) := s.dev.opSet_kept _ _ _ (onPage_radr _ _ _ (by decide))
  generalize s.dev.opFail (laneB n) 0x80 = x at hexec hw hc hk
  have h3 := x.laneTo_at n (st := 1) (by decide)
  generalize x.laneTo n 1 = z at hexec h3
  have hs : z.get (laneB n) R.OP_STAT = x.get (laneB n) R.OP_STAT := h3.get (by decide)
  refine ⟨z, hexec, ((hc.mono (by decide)).trans h3.frame).regLanes, ?_, ?_, h3.state, fun k hk' => (h3.others k hk').trans ?_,
    hk.trans (h3.regs.mono fun _ ha => ha ▸ lanePage n (by decide))⟩
  · unfold Dev.getF
    rw [hs, hw, opWord_state]
  · unfold Dev.getF
    rw [hs, hw, opWord_err]
  · rw [show x.lanes = s.dev.lanes from hc.get Dev.lanes]

end

/-- Settles O42: frames by `Dev.vc3Ask_spec` and its rules, pattern tests by `Checker.run_clean` and `Checker.run_single`. -/
theorem linkFramesAndPatternTests : Obligations.LinkFramesAndPatternTests := by
  unfold Obligations.LinkFramesAndPatternTests
  refine ⟨⟨fun s n v1 v2 v3 hl hst hq => credit_quiet s n hl v1 v2 v3 hst hq, fun s n v1 v2 v3 r hl hup hr hh hv => credit_goes s n hl v1 v2 v3 hup hr hh hv,
    fun s n bytes r hl hlen hup hr ht hh hg hsl => data_joins s n hl bytes hlen hup hr ht hh hg hsl,
    fun s n type r hl hr ht h0 hh hg hsl => nack_over s n hl type hr ht h0 hh hg hsl, fun s n r hl hr hh hp => vc3Timeout_spec s n hl hr hh hp,
    fun s n vc hl hst => ⟨_, dropped_credits s n hl vc hst, s.dev.creditViol_spec n⟩, fun s n vc hl hst hlim => dropped_crc s n hl vc hst hlim,
    fun s n why vc hl hst hw => ⟨_, dropped_other s n hl why vc hst hw, rfl, s.dev.getN_bump _ _ 0 0, s.dev.regsKept_put _ _ _ 0 0 rfl⟩⟩,
    fun s n c bits ht hc hup => inj_up s n ht hc hup,
    fun s n c bits hok hacc hsl hend => fun hat hc h7 => inj_test s n hok hacc hsl hend hat hc h7, fun s n r hl hrun h7 hfar hsent => ?_,
    fun s n t hl hrun h7 hfar hp => patTestNoAnswer_spec s n hl hrun h7 hfar hp⟩
  obtain ⟨d', h1, h2, h3, h4, p0, p1, p2, p4, p5, h5, h6⟩ := patTestDone_spec s n r hl hrun h7 hfar hsent
  refine ⟨d', h1, h2, h3, h4, p0, p1, p2, p4, fun hno => ?_, fun p hone h64 hp => ?_, p5, h5, h6⟩
  · have hc := s.dev.patCheck_clean n r.flips hno
    generalize s.dev.patCheck n r.flips = c at hc p1 p2 p4
    injection hc with he hc
    injection hc with hlo hf
    rw [p1, p2, p4, he, hlo, hf]
    exact ⟨rfl, rfl, rfl⟩
  · have hc := s.dev.patCheck_single n r.flips hone h64 hp
    generalize s.dev.patCheck n r.flips = c at hc p1 p2 p4
    injection hc with he hc
    injection hc with hlo hf
    rw [p1, p2, p4, he, hlo, hf]
    exact ⟨rfl, rfl, rfl⟩

end Sys2Proof.Machine
end

section
/-! SUPPORT. The registers of a machine spindle (R328 to R359): what each step on them leaves. -/

namespace Sys2Proof.Machine

/-- A register that every machine spindle has. -/
abbrev mreg (r : Reg) : Prop := r.s0 = 0x100 ∧ r.s1 = 0 ∧ 0x100 ≤ r.off ∧ r.off < 0x200

theorem mspB_ne_hif (m : Fin 64) : mspB m ≠ hif := by revert m; decide +kernel
theorem mspB_ne_fltc (m : Fin 64) : mspB m ≠ fltc := by revert m; decide +kernel
theorem mspB_kind (m : Fin 64) : blkKind (mspB m) = some (.mspin, m.val / 8) := by revert m; decide +kernel

theorem mreg_ofs {r : Reg} (h : mreg r) (m : Fin 64) : r.ofs (mspC m) 0 = r.off + 0x100 * mspC m := by
  obtain ⟨h0, h1, -, -⟩ := h
  rw [Reg.ofs, h0, h1]
  omega

theorem mreg_lt {r : Reg} (h : mreg r) (m : Fin 64) : r.ofs (mspC m) 0 < 0x1000 := by
  have := mspC_lt m
  rw [mreg_ofs h]
  obtain ⟨-, -, -, h3⟩ := h
  omega

theorem mreg_ne {r q : Reg} (hr : mreg r) (hq : mreg q) (h : r.off ≠ q.off) (m : Fin 64) :
    radr (mspB m) r (mspC m) ≠ radr (mspB m) q (mspC m) := by
  refine radr_ne_of_ofs _ _ _ _ _ _ _ ?_
  rw [mreg_ofs hr, mreg_ofs hq]
  omega

/-- A register of the block's common page is none of a spindle's. -/
theorem mreg_ne_low {r q : Reg} (hr : mreg r) (hq : q.off < 0x100) (m : Fin 64) :
    radr (mspB m) r (mspC m) ≠ radr (mspB m) q := by
  refine radr_ne_of_ofs _ _ _ _ _ _ _ ?_
  rw [mreg_ofs hr]
  obtain ⟨-, -, h2, -⟩ := hr
  change _ ≠ q.off + q.s0 * 0 + q.s1 * 0
  omega

section
variable (d : Dev) (m : Fin 64)

@[simp] theorem Dev.mget_mput_same (r : Reg) (v : Word) : (d.mput m r v).mget m r = v := Dev.get_put_same _ _ _ _ _ _

theorem Dev.mget_mput_ne {r q : Reg} (v : Word) (h : radr (mspB m) q (mspC m) ≠ radr (mspB m) r (mspC m)) : (d.mput m r v).mget m q = d.mget m q :=
  Dev.get_put_ne _ _ _ _ _ _ _ _ _ _ h

theorem Dev.mget_mstat_same {k : Nat} (v : Bool) (hk : k < 32) : bit ((d.mstat m k v).mget m R.MSP_STAT) k = v := d.getB_putB_same _ _ _ _ v hk

theorem Dev.fld_mstat_other {k hi lo : Nat} (v : Bool) (hk : k < 32) (hj : hi < k ∨ k < lo) :
    fld ((d.mstat m k v).mget m R.MSP_STAT) hi lo = fld (d.mget m R.MSP_STAT) hi lo := d.getF_putB_other _ _ _ _ v hk hj

theorem Dev.mget_mstat_ne {q : Reg} (k : Nat) (v : Bool) (h : radr (mspB m) q (mspC m) ≠ radr (mspB m) R.MSP_STAT (mspC m)) :
    (d.mstat m k v).mget m q = d.mget m q := Dev.get_put_ne _ _ _ _ _ _ _ _ _ _ h

theorem Dev.mget_mevent_same {k : Nat} (hk : k < 32) : bit ((d.mevent m k).mget m R.MSP_EVT) k = true := by
  unfold Dev.mevent Dev.eventQuiet Dev.mget
  rw [Dev.get_put_same]
  exact bit_or_pow _ hk

theorem Dev.mget_mevent_ne {q : Reg} (k : Nat) (h : radr (mspB m) q (mspC m) ≠ radr (mspB m) R.MSP_EVT (mspC m)) : (d.mevent m k).mget m q = d.mget m q :=
  Dev.get_put_ne _ _ _ _ _ _ _ _ _ _ h

theorem Dev.mget_mfault {q : Reg} (kind : Nat) (hq : mreg q) : (d.mfault m kind).mget m q = d.mget m q :=
  d.detect_get (mspB_ne_hif m) (mreg_lt hq m) _ _ _ _ _ _ (mspB_ne_fltc m) (mreg_ne_low hq (by decide) m)

theorem Dev.mfault_stat {kind : Nat} (hk : kind < 32) : (d.mfault m kind).getB (mspB m) R.FLT_STAT kind = true :=
  d.detect_stat (mspB_kind m) (mspB_ne_hif m) (mspB_ne_fltc m) _ hk _ _ _ _

theorem Dev.mspMod_same (f : Msp → Msp) : (d.mspMod m f).msps[m] = f d.msps[m] := vmod_same d.msps m f

theorem Dev.mspMod_ne {k : Fin 64} (f : Msp → Msp) (h : k ≠ m) : (d.mspMod m f).msps[k] = d.msps[k] := vmod_ne d.msps f h

/-- The move falls to rest, or to the jump speed of a stepper (R343). -/
theorem Dev.mfall_some (quick : Bool) {p : PMove} (hp : d.msps[m].prof = some p) : ∃ ps,
    d.mfall m quick = d.mspMod m fun x => { x with prof := some ⟨.fall, x.set, p.sign, ps, 0, p.target⟩ } := by
  unfold Dev.mfall
  dsimp only
  rw [hp]
  exact ⟨_, rfl⟩

theorem Dev.mfall_home (quick : Bool) :
    d.mfall m quick = { d with msps := (d.mfall m quick).msps } ∧ (d.mfall m quick).msps[m].home = d.msps[m].home ∧
    ∀ k : Fin 64, k ≠ m → (d.mfall m quick).msps[k] = d.msps[k] := by
  cases hp : d.msps[m].prof with
  | none =>
    have h : d.mfall m quick = d := by
      unfold Dev.mfall
      dsimp only
      rw [hp]
    rw [h]
    exact ⟨rfl, rfl, fun _ _ => rfl⟩
  | some p =>
    obtain ⟨ps, h⟩ := d.mfall_some m quick hp
    rw [h]
    exact ⟨rfl, (congrArg Msp.home (d.mspMod_same m _)).trans rfl, fun k hk => d.mspMod_ne m _ hk⟩

end

theorem Dev.mstat_kept (d : Dev) (m : Fin 64) (k : Nat) (v : Bool) {p : Nat → Prop} (hp : p (radr (mspB m) R.MSP_STAT (mspC m))) :
    d.regsKept (d.mstat m k v) p := d.regsKept_put _ _ _ _ _ hp

theorem Dev.mput_kept (d : Dev) (m : Fin 64) (r : Reg) (v : Word) {p : Nat → Prop} (hp : p (radr (mspB m) r (mspC m))) :
    d.regsKept (d.mput m r v) p := d.regsKept_put _ _ _ _ _ hp

/-- Parts that the faults and stops of a spindle change. -/
theorem Dev.changes.mspParts {d e : Dev} (h : d.changes [.regs, .vecs, .fabric, .msps] e) :
    e = { d with regs := e.regs, vecs := e.vecs, fabric := e.fabric, msps := e.msps } :=
  congrArg (fun x : Dev => { x with regs := e.regs, vecs := e.vecs, fabric := e.fabric, msps := e.msps }) h

end Sys2Proof.Machine
end

section
/-! Machine spindles take their values (R330, R341, R342, R353) and stop at limits (R344 to R347). -/

namespace Sys2Proof.Machine

section
variable (s : State) (m : Fin 64)

/-! Configuration and claims. -/

/-- A claim of a resource that nobody holds, with no rival. -/
theorem Dev.claimErr_free (d : Dev) (owner : Blk) (ix : Nat) (b : Blk) (sub : Nat) (rv : List Rival) (hk : (blkKind owner).isSome = true)
    (hf : d.fenced owner = false) (hc : ∀ c ∈ d.claims, c.owner = owner → c.ix ≠ ix) (hr : ∀ r ∈ rv, r.1 ≠ owner) :
    d.claimErr owner ix b sub rv = none := by
  have hhold : d.holder owner ix = none := by
    refine List.find?_eq_none.mpr fun c hc' => ?_
    rw [decide_eq_true_eq]
    exact fun h => hc c hc' h.1 h.2
  have hriv : rv.find? (fun r => decide (r.1 = owner ∧ r.2.1 = ix ∧ claimKey r.2.2 < claimKey b)) = none := by
    refine List.find?_eq_none.mpr fun r hr' => ?_
    rw [decide_eq_true_eq]
    exact fun h => hr r hr' h.1
  unfold Dev.claimErr
  rw [if_neg, hhold]
  · dsimp only
    rw [hriv]
    rfl
  · rw [hf, Option.isNone_iff_eq_none]
    rintro (h | h)
    · rw [h] at hk
      exact absurd hk (by decide)
    · exact absurd h (by decide)

/-- Resources of a port without claims, all different, are all claimed. -/
theorem Dev.claimAll_free (d : Dev) (rv : List Rival) (l : List (Nat × Nat)) (hk : (blkKind (mpgB m)).isSome = true) (hf : d.fenced (mpgB m) = false)
    (hd : (l.map Prod.fst).Nodup) (hc : ∀ c ∈ d.claims, c.owner = mpgB m → c.ix ∉ l.map Prod.fst) (hr : ∀ r ∈ rv, r.1 ≠ mpgB m) :
    ∃ e, d.claimAll m rv l = .ok e ∧ e = { d with claims := e.claims } ∧ (∀ c ∈ d.claims, c ∈ e.claims) ∧
      ∀ x ∈ l, e.holds (mpgB m) x.1 (mspB m) (mspSub m x.2) = true := by
  induction l generalizing d with
  | nil => exact ⟨d, rfl, rfl, fun _ h => h, fun x hx => absurd hx List.not_mem_nil⟩
  | cons x l ih =>
    obtain ⟨ix, k⟩ := x
    have herr := d.claimErr_free (mpgB m) ix (mspB m) (mspSub m k) rv hk hf (fun c hcm ho hi => hc c hcm ho (by rw [hi]; exact List.mem_cons_self)) hr
    obtain ⟨hnot, hnd⟩ := List.nodup_cons.mp hd
    obtain ⟨d1, hd1⟩ : ∃ y, y = d.claim (mpgB m) ix (mspB m) (mspSub m k) := ⟨_, rfl⟩
    have hfr : d1 = { d with claims := d1.claims } := hd1 ▸ d.claim_frame _ _ _ _
    have hholds : d1.holds (mpgB m) ix (mspB m) (mspSub m k) = true := hd1 ▸ d.claim_holds _ _ _ _
    have hcl : ∀ c ∈ d1.claims, c ∈ d.claims ∨ c = ⟨mpgB m, ix, mspB m, mspSub m k⟩ := fun c hcm => by
      rw [hd1] at hcm
      unfold Dev.claim at hcm
      split at hcm
      · exact .inl hcm
      · exact (List.mem_append.mp hcm).imp_right List.mem_singleton.mp
    have hsub : ∀ c ∈ d.claims, c ∈ d1.claims := fun c hcm => by
      rw [hd1]
      unfold Dev.claim
      split
      · exact hcm
      · exact List.mem_append_left _ hcm
    have hf1 : d1.fenced (mpgB m) = false := by
      rw [hfr]
      exact hf
    obtain ⟨e, h1, h2, h3, h4⟩ := ih d1 hf1 hnd fun c hcm ho => by
      rcases hcl c hcm with h | rfl
      · exact fun hi => hc c h ho (List.mem_cons_of_mem _ hi)
      · exact hnot
    refine ⟨e, ?_, ?_, fun c hcm => h3 c (hsub c hcm), fun x hx => ?_⟩
    · unfold Dev.claimAll
      rw [herr, ← hd1]
      exact h1
    · rw [h2, hfr]
    · rcases List.mem_cons.mp hx with rfl | hx
      · unfold Dev.holds at hholds ⊢
        rw [List.any_eq_true] at hholds ⊢
        obtain ⟨c, hcm, heq⟩ := hholds
        exact ⟨c, h3 c hcm, heq⟩
      · exact h4 x hx

/-- A remote spindle claims nothing. -/
theorem cfgWants_remote {w : Word} (hok : cfgOk m w = true) (hl : isLocal m = false) : cfgWants m w = [] := by
  unfold cfgOk at hok
  unfold cfgWants
  simp only [hl, Bool.false_eq_true, false_and, if_false, List.append_nil, Bool.false_and, Bool.and_eq_true] at hok ⊢
  obtain ⟨-, hok⟩ := hok
  split <;> simp_all

/-- The outputs of a configuration differ, where BiSS-C does not want an output of its drive. -/
theorem cfgWants_nodup {w : Word} (h2 : fld w 2 0 = 2 → fld w 5 4 ≠ 2) : ((cfgWants m w).map Prod.fst).Nodup := by
  have hp : 4 * (m.val % 4) + 3 < 16 := by omega
  unfold cfgWants
  generalize 4 * (m.val % 4) = p at hp
  generalize fld w 7 7 = b
  dsimp only
  by_cases hb : isLocal m = true ∧ fld w 5 4 = 2
  · rw [if_pos hb]
    split
    · simp; omega
    · rename_i h
      exact absurd hb.2 (h2 h)
    · simp; omega
    · simp; omega
  · rw [if_neg hb]
    split <;> simp

/-- A permitted configuration takes effect (R330, R353). -/
theorem mspCfg_taken (v : Word) (ht : s.dev.takes (mspB m) (0x158 + 0x100 * mspC m)) (hok : cfgOk m (v &&& R.MSP_CFG.mask) = true)
    (hweb : s.dev.webNamed m = false) (h2 : fld (v &&& R.MSP_CFG.mask) 2 0 = 2 → fld (v &&& R.MSP_CFG.mask) 5 4 ≠ 2)
    (hfree : isLocal m = true → s.dev.fenced (mpgB m) = false ∧ (∀ c ∈ s.dev.claims, c.owner ≠ mpgB m) ∧ ∀ r ∈ s.rivals, r.1 ≠ mpgB m) : ∃ d',
    exec (.mspCfg m v) s = .next { s with dev := d' } ∧ d' = { s.dev with regs := d'.regs, claims := d'.claims } ∧
    d'.mget m R.MSP_CFG = v &&& R.MSP_CFG.mask ∧
    (∀ x ∈ cfgWants m (v &&& R.MSP_CFG.mask), d'.holds (mpgB m) x.1 (mspB m) (mspSub m x.2) = true) ∧
    s.dev.regsKept d' fun a => a = radr (mspB m) R.MSP_CFG (mspC m) ∨ a = radr (mspB m) R.MSP_STAT (mspC m) := by
  have hexec : exec (.mspCfg m v) s = .next { s with dev := s.dev.mcfg m v s.rivals } := by
    change execMspCfg m v s = _
    unfold execMspCfg
    rw [onLive_next _ _ (Dev.takes_live _ _ _ ht), Dev.hostWrite_takes _ _ _ _ ht]
  generalize hw : v &&& R.MSP_CFG.mask = w at hok h2
  obtain ⟨d1, hd1⟩ : ∃ x, x = (s.dev.release (mpgB m) (mspB m) (mspSub m 0) none).release (mpgB m) (mspB m) (mspSub m 1) none := ⟨_, rfl⟩
  have hfr1 : d1 = { s.dev with claims := d1.claims } := by
    rw [hd1]
    rfl
  have hcl1 : ∀ c ∈ d1.claims, c ∈ s.dev.claims := fun c hc => by
    rw [hd1] at hc
    exact List.mem_of_mem_filter (List.mem_of_mem_filter hc)
  have hall : ∃ d2, d1.claimAll m s.rivals (cfgWants m w) = .ok d2 ∧ d2 = { d1 with claims := d2.claims } ∧
      ∀ x ∈ cfgWants m w, d2.holds (mpgB m) x.1 (mspB m) (mspSub m x.2) = true := by
    cases hl : isLocal m with
    | false =>
      rw [cfgWants_remote m hok hl]
      exact ⟨d1, rfl, rfl, fun x hx => absurd hx List.not_mem_nil⟩
    | true =>
      obtain ⟨hf, hc, hr⟩ := hfree hl
      have hkind : (blkKind (mpgB m)).isSome = true :=
        (by decide : ∀ m : Fin 64, isLocal m = true → (blkKind (mpgB m)).isSome = true) m hl
      obtain ⟨d2, h3, h4, -, h5⟩ := d1.claimAll_free m s.rivals (cfgWants m w) hkind (by rw [hfr1]; exact hf) (cfgWants_nodup m h2)
        (fun c hcm ho => absurd ho (hc c (hcl1 c hcm))) hr
      exact ⟨d2, h3, h4, h5⟩
  obtain ⟨d2, h3, h4, h5⟩ := hall
  have hcfg : s.dev.mcfg m v s.rivals = if fld w 5 4 = 2 then (d2.mput m R.MSP_CFG w).mstat m 6 true else d2.mput m R.MSP_CFG w := by
    unfold Dev.mcfg
    dsimp only
    rw [hw, ← hd1, h3, if_neg]
    rintro (h | ⟨-, h⟩)
    · exact h hok
    · exact absurd (hweb.symm.trans h) (by decide)
  have hc2 : s.dev.changes [.regs, .claims] d2 := by
    rw [h4, hfr1]
    rfl
  have hr2 : d2.regs = s.dev.regs := by rw [h4, hfr1]
  clear hd1 hfr1 hcl1 h3 h4
  refine ⟨_, hexec, ?_⟩
  rw [hcfg]
  have hk : s.dev.regsKept (d2.mput m R.MSP_CFG w) fun a => a = radr (mspB m) R.MSP_CFG (mspC m) ∨ a = radr (mspB m) R.MSP_STAT (mspC m) :=
    Dev.regsKept.trans (e := d2) (fun a _ => by rw [hr2]) (d2.mput_kept m _ _ (.inl rfl))
  have hfin : ∀ {d e : Dev}, d.changes [.regs, .claims] e → e = { d with regs := e.regs, claims := e.claims } := fun {d e} h =>
    congrArg (fun x : Dev => { x with regs := e.regs, claims := e.claims }) h
  split
  · refine ⟨hfin ((hc2.trans ((d2.put_changes _ _ _ _ _).mono (by decide))).trans ((Dev.put_changes _ _ _ _ _ _).mono (by decide))), ?_, h5,
      hk.trans (Dev.mstat_kept _ m _ _ (.inr rfl))⟩
    rw [Dev.mget_mstat_ne _ _ _ _ (mreg_ne (by decide) (by decide) (by decide) m), Dev.mget_mput_same]
  · exact ⟨hfin (hc2.trans ((d2.put_changes _ _ _ _ _).mono (by decide))), d2.mget_mput_same m _ _, h5, hk⟩

/-- A configuration that R330 does not have is refused (R293). -/
theorem mspCfg_refused (v : Word) (ht : s.dev.takes (mspB m) (0x158 + 0x100 * mspC m)) (hbad : cfgOk m (v &&& R.MSP_CFG.mask) = false) : ∃ d',
    exec (.mspCfg m v) s = .next { s with dev := d' } ∧ d' = { s.dev with regs := d'.regs } ∧
    d'.mget m R.MSP_CLAIM_ERR = claimWord 2 ⟨0, 0⟩ 0 ∧ bit (d'.mget m R.MSP_EVT) 5 = true ∧
    s.dev.regsKept d' fun a => a = radr (mspB m) R.MSP_CLAIM_ERR (mspC m) ∨ a = radr (mspB m) R.MSP_EVT (mspC m) := by
  refine ⟨(s.dev.mput m R.MSP_CLAIM_ERR (claimWord 2 ⟨0, 0⟩ 0)).mevent m 5, ?_, rfl, ?_, Dev.mget_mevent_same _ m (by decide), ?_⟩
  · change execMspCfg m v s = _
    unfold execMspCfg
    rw [onLive_next _ _ (Dev.takes_live _ _ _ ht), Dev.hostWrite_takes _ _ _ _ ht]
    refine congrArg (fun e => Host.Outcome.next { s with dev := e }) ?_
    unfold Dev.mcfg
    exact if_pos (.inl (by rw [hbad]; decide))
  · rw [Dev.mget_mevent_ne _ m _ (mreg_ne (by decide) (by decide) (by decide) m), Dev.mget_mput_same]
  · exact (s.dev.mput_kept m _ _ (.inl rfl)).trans (Dev.regsKept_put _ _ _ _ _ _ (.inr rfl))

/-! Targets and profiles. -/

theorem mspTarget_spec (v : Word) (ht : s.dev.takes (mspB m) (0x170 + 0x100 * mspC m)) (hsrc : s.dev.mstepSrc m = false)
    (hp : s.dev.msps[m].blockP = false) (hn : s.dev.msps[m].blockN = false) : ∃ d',
    exec (.mspTarget m v) s = .next { s with dev := d' } ∧
    (if s.dev.msps[m].queue.length < 4 then
      d' = { s.dev with
        regs := d'.regs
        msps := s.dev.msps.set m { s.dev.msps[m] with queue := s.dev.msps[m].queue ++ [v.toInt] } } ∧
      fld (d'.mget m R.MSP_STAT) 19 16 = s.dev.msps[m].queue.length + 1 ∧ bit (d'.mget m R.MSP_STAT) 11 = false ∧
      s.dev.regsKept d' fun a => a = radr (mspB m) R.MSP_STAT (mspC m)
    else d' = { s.dev with regs := d'.regs } ∧ bit (d'.mget m R.MSP_EVT) 6 = true ∧
      s.dev.regsKept d' fun a => a = radr (mspB m) R.MSP_EVT (mspC m)) := by
  have hexec : exec (.mspTarget m v) s = .next { s with dev := s.dev.mtarget m v } := by
    change execMspTarget m v s = _
    unfold execMspTarget
    rw [onLive_next _ _ (Dev.takes_live _ _ _ ht), Dev.hostWrite_takes _ _ _ _ ht]
  refine ⟨_, hexec, ?_⟩
  have hdef : s.dev.mtarget m v = if 4 ≤ s.dev.msps[m].queue.length then s.dev.targetRef m else
      ((s.dev.mspMod m fun x => { x with queue := x.queue ++ [v.toInt] }).putF (mspB m) R.MSP_STAT 19 16 (s.dev.msps[m].queue.length + 1) (mspC m)).mstat
        m 11 false := by
    unfold Dev.mtarget
    simp only [hsrc, hp, hn, Bool.false_and, Bool.or_false, Bool.false_eq_true, or_false, if_false]
  rw [hdef]
  by_cases hq : s.dev.msps[m].queue.length < 4
  · rw [if_pos hq, if_neg (by omega)]
    refine ⟨rfl, ?_, Dev.mget_mstat_same _ m false (by decide), ?_⟩
    · rw [Dev.fld_mstat_other _ m false (by decide) (.inr (by decide))]
      refine (Dev.getF_putF_same _ _ _ _ _ _ (by decide) (by decide)).trans (Nat.mod_eq_of_lt ?_)
      change _ < 16
      omega
    · have hk : s.dev.regsKept ((s.dev.mspMod m fun x => { x with queue := x.queue ++ [v.toInt] }).putF (mspB m) R.MSP_STAT 19 16
          (s.dev.msps[m].queue.length + 1) (mspC m)) fun a => a = radr (mspB m) R.MSP_STAT (mspC m) :=
        Dev.regsKept_putF (s.dev.mspMod m fun x => { x with queue := x.queue ++ [v.toInt] }) _ _ _ _ _ _ _ rfl
      exact hk.trans (Dev.mstat_kept _ m _ _ rfl)
  · rw [if_neg hq, if_pos (by omega)]
    exact ⟨rfl, Dev.mget_mevent_same _ m (by decide), s.dev.regsKept_put _ _ _ _ _ rfl⟩

end

end Sys2Proof.Machine
end

section
/-! Profile values (R342), limits and the home switch (R344 to R347). -/

namespace Sys2Proof.Machine

section
variable (s : State) (m : Fin 64)

theorem profRegs_mreg : ∀ r ∈ profRegs, mreg r ∧ r.off ≠ R.MSP_STAT.off ∧ r.off ≠ R.MSP_EVT.off := by decide

theorem profRegs_off : ∀ r ∈ profRegs, ∀ q ∈ profRegs, q ≠ r → q.off ≠ r.off := by decide

/-- A profile value (R342). -/
theorem mspProfileWrite_spec (i : Fin 9) (r : Reg) (v : Word) (ht : s.dev.takes (mspB m) (0x174 + 4 * i.val + 0x100 * mspC m))
    (hr : profRegs[i.val]? = some r) :
    let w (q : Reg) : Nat := if q = r then v.toNat else (s.dev.mget m q).toNat
    ∃ d', exec (.mspProfileWrite m i v) s = .next { s with dev := d' } ∧
      if w R.MSP_VS ≤ w R.MSP_VB ∧ w R.MSP_VB ≤ w R.MSP_VM ∧ w R.MSP_VE ≤ w R.MSP_VB ∧ (4 ≤ i.val → v ≠ 0) then
        d' = { s.dev with
          regs := d'.regs
          msps := s.dev.msps.set m { s.dev.msps[m] with
            profWas := if s.dev.msps[m].profWas.map (·.1) = some s.dev.now then s.dev.msps[m].profWas
              else some (s.dev.now, profRegs.map fun q => s.dev.mget m q) } } ∧
        d'.mget m r = v ∧ bit (d'.mget m R.MSP_STAT) 10 = true ∧
        s.dev.regsKept d' fun a => a = radr (mspB m) r (mspC m) ∨ a = radr (mspB m) R.MSP_STAT (mspC m)
      else d' = { s.dev with regs := d'.regs } ∧ bit (d'.mget m R.MSP_EVT) 6 = true ∧ s.dev.regsKept d' fun a => a = radr (mspB m) R.MSP_EVT (mspC m) := by
  intro w
  have hmem : r ∈ profRegs := List.mem_of_getElem? hr
  have hexec : exec (.mspProfileWrite m i v) s = .next { s with dev := s.dev.mprofWrite m i.val v } := by
    change execMspProfileWrite m i v s = _
    unfold execMspProfileWrite
    rw [onLive_next _ _ (Dev.takes_live _ _ _ ht), Dev.hostWrite_takes _ _ _ _ ht]
  obtain ⟨d0, hd0⟩ : ∃ x, x = if s.dev.msps[m].profWas.map (fun x => x.1) = some s.dev.now then s.dev else
      s.dev.mspMod m fun x => { x with profWas := some (s.dev.now, profRegs.map fun r => s.dev.mget m r) } := ⟨_, rfl⟩
  have hfr : d0 = { s.dev with msps := s.dev.msps.set m { s.dev.msps[m] with
      profWas := if s.dev.msps[m].profWas.map (·.1) = some s.dev.now then s.dev.msps[m].profWas
        else some (s.dev.now, profRegs.map fun q => s.dev.mget m q) } } := by
    rw [hd0]
    by_cases hw : s.dev.msps[m].profWas.map (fun x => x.1) = some s.dev.now
    · rw [if_pos hw, if_pos hw]
      have hset : s.dev.msps.set m s.dev.msps[m] = s.dev.msps := by simp
      exact (congrArg (fun l => { s.dev with msps := l }) hset).symm
    · rw [if_neg hw, if_neg hw]
      rfl
  have hr0 : d0.regs = s.dev.regs := by rw [hfr]
  have hg : ∀ q ∈ profRegs, ((d0.mput m r v).mget m q).toNat = w q := fun q hq => by
    by_cases hqr : q = r
    · subst hqr
      rw [Dev.mget_mput_same]
      exact (if_pos rfl).symm
    · rw [Dev.mget_mput_ne _ m _ (mreg_ne (profRegs_mreg q hq).1 (profRegs_mreg r hmem).1 (profRegs_off r hmem q hq hqr) m)]
      refine (congrArg BitVec.toNat ?_).trans (if_neg hqr).symm
      exact Dev.get_of_regs _ _ _ _ (by rw [hr0])
  have hdef : s.dev.mprofWrite m i.val v = if ¬ (decide (w R.MSP_VS ≤ w R.MSP_VB) && decide (w R.MSP_VB ≤ w R.MSP_VM) && decide (w R.MSP_VE ≤ w R.MSP_VB)) ∨
      (4 ≤ i.val ∧ v = 0) then s.dev.targetRef m else (d0.mput m r v).mstat m 10 true := by
    rw [← hg R.MSP_VS (by decide), ← hg R.MSP_VB (by decide), ← hg R.MSP_VM (by decide), ← hg R.MSP_VE (by decide), hd0]
    unfold Dev.mprofWrite
    rw [hr]
  refine ⟨_, hexec, ?_⟩
  rw [hdef]
  clear hd0 hdef hexec hg
  clear_value w
  by_cases hok : w R.MSP_VS ≤ w R.MSP_VB ∧ w R.MSP_VB ≤ w R.MSP_VM ∧ w R.MSP_VE ≤ w R.MSP_VB ∧ (4 ≤ i.val → v ≠ 0)
  · obtain ⟨h1, h2, h3, h4⟩ := hok
    rw [if_pos ⟨h1, h2, h3, h4⟩, if_neg]
    · refine ⟨?_, ?_, Dev.mget_mstat_same _ m true (by decide), ?_⟩
      · rw [hfr]
        rfl
      · rw [Dev.mget_mstat_ne _ m _ _ (mreg_ne (profRegs_mreg r hmem).1 (by decide) (profRegs_mreg r hmem).2.1 m), Dev.mget_mput_same]
      · have hk : s.dev.regsKept (d0.mput m r v) fun a => a = radr (mspB m) r (mspC m) ∨ a = radr (mspB m) R.MSP_STAT (mspC m) :=
          Dev.regsKept.trans (e := d0) (fun a _ => by rw [hr0]) (d0.mput_kept m _ _ (.inl rfl))
        exact hk.trans (Dev.mstat_kept _ m _ _ (.inr rfl))
    · rw [decide_eq_true h1, decide_eq_true h2, decide_eq_true h3]
      rintro (h | h)
      · exact h rfl
      · exact h4 h.1 h.2
  · rw [if_neg hok, if_pos]
    · exact ⟨rfl, Dev.mget_mevent_same _ m (by decide), s.dev.regsKept_put _ _ _ _ _ rfl⟩
    · by_contra hn
      rw [not_or, not_not, Bool.and_eq_true, Bool.and_eq_true, decide_eq_true_eq, decide_eq_true_eq, decide_eq_true_eq] at hn
      obtain ⟨⟨⟨h1, h2⟩, h3⟩, h4⟩ := hn
      exact hok ⟨h1, h2, h3, fun h hv => h4 ⟨h, hv⟩⟩

/-! Limits. -/

theorem exec_limitEdge (pos act : Bool) (hlive : s.dev.dead = false) (hm : s.dev.mlive m = true) :
    exec (.limitEdge m pos act) s = .next { s with dev := s.dev.limitEdge m pos act } := by
  change execLimitEdge m pos act s = _
  unfold execLimitEdge
  rw [onLive_next _ _ hlive]
  exact congrArg (fun e => Host.Outcome.next { s with dev := e }) (Dev.when_of _ _ hm)

/-- The bit of MSP_STAT that shows a limit. -/
def limBit (pos : Bool) : Nat := if pos then 8 else 7

theorem limBit_lt (pos : Bool) : limBit pos < 32 := by cases pos <;> decide

/-- A limit that becomes active where nothing moves toward it. -/
theorem limitEdge_shows (d : Dev) (pos : Bool) (hb : bit (d.mget m R.MSP_STAT) (limBit pos) = false) (hv : d.msps[m].vel = 0) :
    d.limitEdge m pos true = d.mstat m (limBit pos) true := by
  unfold Dev.limitEdge
  extract_lets k d1 x toward quick homing en d2 d3
  have hx : x = d.msps[m] := rfl
  have htoward : ¬ toward = true := by
    simp only [toward, hx, hv]
    cases pos <;> decide
  change (if bit (d.mget m R.MSP_STAT) (limBit pos) = true then _ else _) = _
  rw [hb, if_neg Bool.false_ne_true, if_neg (not_not.mpr rfl), if_pos (.inl htoward)]
  rfl

/-- A limit that stops the move toward it (R345). -/
theorem limitEdge_stops (d : Dev) (pos : Bool) {p : PMove} (hb : bit (d.mget m R.MSP_STAT) (limBit pos) = false)
    (hv : if pos then 0 < d.msps[m].vel else d.msps[m].vel < 0) (hh : d.msps[m].home = none) (hp : d.msps[m].prof = some p) (hk : p.kind = .move)
    (hen : bit (d.mget m R.MSP_IN_CFG) 8 = true) :
    d.limitEdge m pos true = ((((((d.mstat m (limBit pos) true).mfall m true).mqueueDrop m).mstat m 11 true).mspMod m fun x =>
      if pos then { x with blockP := true } else { x with blockN := true }).mevent m 3).mfault m 6 := by
  have hen1 : bit ((d.mstat m (limBit pos) true).mget m R.MSP_IN_CFG) 8 = true := by
    rw [Dev.mget_mstat_ne _ m _ _ (mreg_ne (by decide) (by decide) (by decide) m)]
    exact hen
  unfold Dev.limitEdge
  extract_lets k d1 x toward quick homing en d2 d3
  have hx : x = d.msps[m] := rfl
  have htoward : toward = true := by
    simp only [toward, hx]
    cases pos
    · exact decide_eq_true hv
    · exact decide_eq_true hv
  have hquick : quick = false := by
    simp only [quick, hx, hp, hk]
    exact Bool.and_false _
  have hhome : ¬ homing = true := by
    simp only [homing, hx, hh]
    decide
  have hd2 : d2 = d1 := if_neg hhome
  change (if bit (d.mget m R.MSP_STAT) (limBit pos) = true then _ else _) = _
  rw [hb, if_neg Bool.false_ne_true, if_neg (not_not.mpr rfl), if_neg, if_pos (show en = true from hen1)]
  · simp only [d3, hd2]
    rfl
  · rw [htoward, hquick]
    decide

/-- A limit stops the move toward it, with the queue dropped (R345). -/
theorem limitEdge_stopped (pos : Bool) {p : PMove} (hlive : s.dev.dead = false) (hm : s.dev.mlive m = true)
    (hb : bit (s.dev.mget m R.MSP_STAT) (limBit pos) = false) (hv : if pos then 0 < s.dev.msps[m].vel else s.dev.msps[m].vel < 0)
    (hh : s.dev.msps[m].home = none) (hp : s.dev.msps[m].prof = some p) (hk : p.kind = .move) (hen : bit (s.dev.mget m R.MSP_IN_CFG) 8 = true) : ∃ d',
    exec (.limitEdge m pos true) s = .next { s with dev := d' } ∧
    d' = { s.dev with regs := d'.regs, vecs := d'.vecs, fabric := d'.fabric, msps := d'.msps } ∧
    d'.msps[m].queue = [] ∧ (d'.msps[m].prof.map fun q => q.kind) = some .fall ∧
    (if pos then d'.msps[m].blockP = true else d'.msps[m].blockN = true) ∧ bit (d'.mget m R.MSP_STAT) 11 = true ∧
    bit (d'.mget m R.MSP_EVT) 3 = true ∧ d'.getB (mspB m) R.FLT_STAT 6 = true ∧
    ∀ k : Fin 64, k ≠ m → d'.msps[k] = s.dev.msps[k] := by
  have hexec := exec_limitEdge s m pos true hlive hm
  rw [limitEdge_stops m s.dev pos hb hv hh hp hk hen] at hexec
  obtain ⟨d1, hd1⟩ : ∃ x, x = s.dev.mstat m (limBit pos) true := ⟨_, rfl⟩
  have hm1 : d1.msps = s.dev.msps := by rw [hd1]; rfl
  have hc1 : s.dev.changes [.regs, .msps] d1 := by
    rw [hd1]
    exact (s.dev.put_changes _ _ _ _ _).mono (by decide)
  rw [← hd1] at hexec
  clear hd1
  obtain ⟨ps, hfall⟩ := d1.mfall_some m true (p := p) (by rw [hm1]; exact hp)
  rw [hfall] at hexec
  obtain ⟨d2, hd2⟩ : ∃ x, x = (d1.mspMod m fun x => { x with prof := some ⟨.fall, x.set, p.sign, ps, 0, p.target⟩ }).mqueueDrop m := ⟨_, rfl⟩
  have hl2 : d2.msps[m].queue = [] ∧ (d2.msps[m].prof.map fun q => q.kind) = some .fall ∧ ∀ k : Fin 64, k ≠ m → d2.msps[k] = s.dev.msps[k] := by
    rw [hd2]
    have h1 := Dev.mspMod_same d1 m fun x => { x with prof := some ⟨.fall, x.set, p.sign, ps, 0, p.target⟩ }
    have h2 := fun k (hk : k ≠ m) => Dev.mspMod_ne d1 m (fun x => { x with prof := some ⟨.fall, x.set, p.sign, ps, 0, p.target⟩ }) hk
    generalize d1.mspMod m (fun x => { x with prof := some ⟨.fall, x.set, p.sign, ps, 0, p.target⟩ }) = y at h1 h2
    have h3 := Dev.mspMod_same y m fun x => { x with queue := [] }
    have h4 := fun k (hk : k ≠ m) => Dev.mspMod_ne y m (fun x => { x with queue := [] }) hk
    refine ⟨congrArg Msp.queue h3, ?_, fun k hk => (h4 k hk).trans ((h2 k hk).trans (by rw [hm1]))⟩
    refine (congrArg (fun x : Msp => x.prof.map fun q => q.kind) h3).trans ?_
    rw [h1]
    rfl
  have hc2 : d1.changes [.regs, .msps] d2 := by
    rw [hd2]
    rfl
  rw [← hd2] at hexec
  clear hd2 hfall
  obtain ⟨d3, hd3⟩ : ∃ x, x = d2.mstat m 11 true := ⟨_, rfl⟩
  have hs3 : bit (d3.mget m R.MSP_STAT) 11 = true := by rw [hd3]; exact d2.mget_mstat_same m true (by decide)
  have hm3 : d3.msps = d2.msps := by rw [hd3]; rfl
  have hc3 : d2.changes [.regs, .msps] d3 := by
    rw [hd3]
    exact (d2.put_changes _ _ _ _ _).mono (by decide)
  rw [← hd3] at hexec
  clear hd3
  have h5 := d3.mspMod_same m fun x => if pos then { x with blockP := true } else { x with blockN := true }
  have h6 := fun k (hk : k ≠ m) => d3.mspMod_ne m (fun x => if pos then { x with blockP := true } else { x with blockN := true }) hk
  obtain ⟨d4, hd4⟩ : ∃ x, x = d3.mspMod m fun x => if pos then { x with blockP := true } else { x with blockN := true } := ⟨_, rfl⟩
  rw [← hd4] at hexec h5 h6
  have hr4 : d4.regs = d3.regs := by rw [hd4]; rfl
  have hc4 : d3.changes [.regs, .msps] d4 := by
    rw [hd4]
    rfl
  clear hd4
  have hg : ∀ q : Reg, mreg q → q.off ≠ R.MSP_EVT.off → ((d4.mevent m 3).mfault m 6).mget m q = d3.mget m q := fun q hq hne => by
    rw [Dev.mget_mfault _ m _ hq, Dev.mget_mevent_ne _ m _ (mreg_ne hq (by decide) hne m)]
    exact Dev.get_of_regs _ _ _ _ (by rw [hr4])
  have hev : bit (((d4.mevent m 3).mfault m 6).mget m R.MSP_EVT) 3 = true := by
    rw [Dev.mget_mfault _ m _ (by decide)]
    exact d4.mget_mevent_same m (by decide)
  have hf := (d4.mevent m 3).mfault_stat m (kind := 6) (by decide)
  have hc5 : d4.changes [.regs, .vecs, .fabric] ((d4.mevent m 3).mfault m 6) :=
    ((d4.put_changes _ _ _ _ _).mono (by decide)).trans (Dev.detect_changes _ _ _ _ _ _ _ _)
  generalize (d4.mevent m 3).mfault m 6 = e at hexec hg hev hf hc5
  have hme : e.msps = d4.msps := hc5.get Dev.msps
  refine ⟨e, hexec, ((((hc1.trans (hc2.trans (hc3.trans hc4))).mono (by decide)).trans (hc5.mono (by decide)))).mspParts, ?_, ?_, ?_, ?_, hev, hf,
    fun k hk' => ?_⟩
  · rw [hme, h5, hm3]
    cases pos <;> exact hl2.1
  · rw [hme, h5, hm3]
    cases pos <;> exact hl2.2.1
  · rw [hme, h5]
    cases pos <;> rfl
  · rw [hg _ (by decide) (by decide)]
    exact hs3
  · rw [hme, h6 k hk', hm3]
    exact hl2.2.2 k hk'

/-! The home switch. -/

theorem homeEdge_latches (pos start : Int) (hlive : s.dev.dead = false) (hm : s.dev.mlive m = true) (hb : bit (s.dev.mget m R.MSP_STAT) 9 = false)
    (hh : s.dev.msps[m].home = some ⟨start, none⟩) (hs : fld (s.dev.mget m R.MSP_HOME_STAT) 2 0 = 1)
    (hc : fld (s.dev.mget m R.MSP_HOME_CFG) 1 0 = 0) : ∃ d',
    exec (.homeEdge m true pos) s = .next { s with dev := d' } ∧ d' = { s.dev with regs := d'.regs, msps := d'.msps } ∧
    d'.mget m R.MSP_LATCH = wi pos ∧ d'.mget m R.MSP_HOME_STAT = 3#32 ∧ d'.msps[m].home = some ⟨start, some pos⟩ ∧
    bit (d'.mget m R.MSP_STAT) 9 = true ∧ ∀ k : Fin 64, k ≠ m → d'.msps[k] = s.dev.msps[k] := by
  obtain ⟨d1, hd1⟩ : ∃ x, x = s.dev.mstat m 9 true := ⟨_, rfl⟩
  have hm1 : d1.msps = s.dev.msps := by rw [hd1]; rfl
  have hs1 : bit (d1.mget m R.MSP_STAT) 9 = true := by rw [hd1]; exact s.dev.mget_mstat_same m true (by decide)
  have hg1 : ∀ q : Reg, mreg q → q.off ≠ R.MSP_STAT.off → d1.mget m q = s.dev.mget m q := fun q hq hne => by
    rw [hd1]
    exact s.dev.mget_mstat_ne m _ _ (mreg_ne hq (by decide) hne m)
  obtain ⟨d2, hd2⟩ : ∃ x, x = d1.mput m R.MSP_LATCH (wi pos) := ⟨_, rfl⟩
  have hm2 : d2.msps = s.dev.msps := by rw [hd2]; exact hm1
  have hg2 : ∀ q : Reg, mreg q → q.off ≠ R.MSP_LATCH.off → d2.mget m q = d1.mget m q := fun q hq hne => by
    rw [hd2]
    exact d1.mget_mput_ne m _ (mreg_ne hq (by decide) hne m)
  have hl2 : d2.mget m R.MSP_LATCH = wi pos := by rw [hd2]; exact d1.mget_mput_same m _ _
  have hc2 : s.dev.changes [.regs, .msps] d2 := by
    rw [hd2, hd1]
    exact ((s.dev.put_changes _ _ _ _ _).trans (Dev.put_changes _ _ _ _ _ _)).mono (by decide)
  have hcond : true = true ∧ d1.msps[m].home.isSome = true ∧ fld (d1.mget m R.MSP_HOME_STAT) 2 0 = 1 := by
    refine ⟨rfl, ?_, ?_⟩
    · rw [hm1, hh]
      rfl
    · rw [hg1 _ (by decide) (by decide)]
      exact hs
  have hmeth : fld (d2.mget m R.MSP_HOME_CFG) 1 0 = 0 := by
    rw [hg2 _ (by decide) (by decide), hg1 _ (by decide) (by decide)]
    exact hc
  have hrun : exec (.homeEdge m true pos) s = .next { s with dev := d2.homeStop m pos } := by
    have hdef : s.dev.homeEdge m true pos = d2.homeStop m pos := by
      unfold Dev.homeEdge
      rw [hb, if_neg Bool.false_ne_true]
      dsimp only
      rw [← hd1, if_pos hcond, ← hd2, if_pos hmeth]
    change execHomeEdge m true pos s = _
    unfold execHomeEdge
    rw [onLive_next _ _ hlive]
    exact congrArg (fun e => Host.Outcome.next { s with dev := e }) ((Dev.when_of _ (fun d => d.homeEdge m true pos) hm).trans hdef)
  clear hcond hmeth hd1 hd2
  have h3 := d2.mspMod_same m fun x => { x with home := x.home.map fun h => { h with latched := some pos } }
  have h4 := fun k (hk : k ≠ m) => d2.mspMod_ne m (fun x => { x with home := x.home.map fun h => { h with latched := some pos } }) hk
  obtain ⟨d3, hd3⟩ : ∃ x, x = d2.mspMod m fun x => { x with home := x.home.map fun h => { h with latched := some pos } } := ⟨_, rfl⟩
  have hdef : d2.homeStop m pos = (d3.mput m R.MSP_HOME_STAT 3).mfall m false := by rw [hd3]; rfl
  rw [← hd3] at h3 h4
  have hr3 : d3.regs = d2.regs := by rw [hd3]; rfl
  have hc3 : d2.changes [.regs, .msps] d3 := by
    rw [hd3]
    rfl
  clear hd3
  obtain ⟨d4, hd4⟩ : ∃ x, x = d3.mput m R.MSP_HOME_STAT 3 := ⟨_, rfl⟩
  have hm4 : d4.msps = d3.msps := by rw [hd4]; rfl
  have hg4 : ∀ q : Reg, mreg q → q.off ≠ R.MSP_HOME_STAT.off → d4.mget m q = d2.mget m q := fun q hq hne => by
    rw [hd4, Dev.mget_mput_ne _ m _ (mreg_ne hq (by decide) hne m)]
    exact Dev.get_of_regs _ _ _ _ (by rw [hr3])
  have hs4 : d4.mget m R.MSP_HOME_STAT = 3#32 := by rw [hd4]; exact d3.mget_mput_same m _ _
  have hc4 : d3.changes [.regs, .msps] d4 := by
    rw [hd4]
    exact (d3.put_changes _ _ _ _ _).mono (by decide)
  rw [hdef, ← hd4] at hrun
  clear hdef hd4
  obtain ⟨h5, h6, h7⟩ := d4.mfall_home m false
  have hr5 : (d4.mfall m false).regs = d4.regs := by rw [h5]
  have hc5 : d4.changes [.regs, .msps] (d4.mfall m false) := by
    rw [h5]
    rfl
  generalize d4.mfall m false = e at hrun h5 h6 h7 hr5 hc5
  have hge : ∀ q : Reg, e.mget m q = d4.mget m q := fun q => Dev.get_of_regs _ _ _ _ (by rw [hr5])
  refine ⟨e, hrun, congrArg (fun x : Dev => { x with regs := e.regs, msps := e.msps }) (hc2.trans (hc3.trans (hc4.trans hc5))), ?_, ?_, ?_, ?_, fun k hk => ?_⟩
  · rw [hge, hg4 _ (by decide) (by decide)]
    exact hl2
  · rw [hge]
    exact hs4
  · rw [h6, hm4, h3, hm2, hh]
    rfl
  · rw [hge, hg4 _ (by decide) (by decide), hg2 _ (by decide) (by decide)]
    exact hs1
  · rw [h7 k hk, hm4, h4 k hk, hm2]

end

/-- Settles O43: values by the rules on a spindle's registers, limits by `limitEdge_stopped`, the home switch by `homeEdge_latches`. -/
theorem spindlesTakeValuesAndStopAtLimits : Obligations.SpindlesTakeValuesAndStopAtLimits := by
  unfold Obligations.SpindlesTakeValuesAndStopAtLimits
  refine ⟨⟨fun s m v ht => fun hok hweb h2 hfree => mspCfg_taken s m v ht hok hweb h2 hfree, fun s m v ht hbad => mspCfg_refused s m v ht hbad,
    fun s m v ht hsrc hp hn => mspTarget_spec s m v ht hsrc hp hn, fun s m i r v ht hr => mspProfileWrite_spec s m i r v ht hr⟩,
    fun s m pos hlive hm hb hv => ?_,
    fun s m pos p hlive hm hb hv hh hp hk hen => limitEdge_stopped s m pos hlive hm hb hv hh hp hk hen,
    fun s m pos start hlive hm hb hh hs hc => homeEdge_latches s m pos start hlive hm hb hh hs hc⟩
  have hexec := exec_limitEdge s m pos true hlive hm
  rw [limitEdge_shows m s.dev pos hb hv] at hexec
  exact ⟨_, hexec, rfl, s.dev.mget_mstat_same m true (limBit_lt pos), s.dev.mstat_kept m _ _ rfl⟩

end Sys2Proof.Machine
end

section
/-! Spindles home, stop and compare (R343, R347, R349, R350, R358). -/

namespace Sys2Proof.Machine

theorem cellBlk_mspI (m : Fin 64) : cellBlk (mspI m) = mspB m := by revert m; decide +kernel
theorem cellIx_mspI (m : Fin 64) : cellIx (mspI m) = mspC m := by revert m; decide +kernel

section
variable (d : Dev) (m : Fin 64)

/-! Homing (R347). -/

theorem Dev.setLivs_changes {α : Type} (b : Blk) (f : Dev → α → Word) (r : α → Reg) (l : List α) (i : Nat) :
    d.changes [.live] (l.foldl (fun (e : Dev) x => e.setLiv b (r x) (f e x) i) d) :=
  Dev.changes.foldl (k := fun (e : Dev) x => e.setLiv b (r x) (f e x) i) l (.refl d _) fun x a hx =>
    hx.trans (show x.changes [.live] (x.setLiv b (r a) (f x a) i) from rfl)

theorem Dev.mtake_changes : d.changes [.regs, .live] (d.mtake m) := by
  have h1 : ∀ ws : List Word, d.changes [.regs, .live] ((profRegs.zip ws).foldl (fun (e : Dev) x => e.setLiv (mspB m) x.1 x.2 (mspC m)) d) := fun ws =>
    (d.setLivs_changes (mspB m) (fun _ x => x.2) Prod.fst _ _).mono (by decide)
  have h2 : d.changes [.regs, .live] ((profRegs.foldl (fun (e : Dev) r => e.setLiv (mspB m) r (e.mget m r) (mspC m)) d).mstat m 10 false) :=
    ((d.setLivs_changes (mspB m) (fun e r => e.mget m r) id _ _).mono (by decide)).trans ((Dev.put_changes _ _ _ _ _ _).mono (by decide))
  unfold Dev.mtake
  split
  · exact .ite (h1 _) h2
  · exact h2

/-- The cell of a spindle in RUN goes to TUNE (R175). -/
theorem Dev.cellState_tune (h1 : d.cells[mspI m].st = 1) :
    d.cellState (mspI m) 4 = (((d.cellMod (mspI m) fun c => { c with st := 4 }).putF (mspB m) R.MSP_STAT 2 0 4 (mspC m)).eventQuiet (mspB m) R.MSP_EVT 1#32
      (mspC m)) := by
  have hi : isHead (mspI m) = false := isHead_mspI m
  unfold Dev.cellState
  rw [h1, if_neg (by decide)]
  unfold Dev.stateShow Dev.cellEvent Dev.mspLeave
  simp only [hi, Bool.false_eq_true, not_false_eq_true, if_true, if_false, cellBlk_mspI, cellIx_mspI]
  rfl

end

section
variable (s : State) (m : Fin 64)

/-- HOME begins the search (R347). -/
theorem home_begins (ht : s.dev.takes (mspB m) (mcmdOfs m)) (h1 : s.dev.mst m = 1) (hheld : s.dev.cells[mspI m].held ≠ some s.dev.tick)
    (hp : s.dev.msps[m].prof = none) (hq : s.dev.msps[m].queue = [])
    (hfb : fld (s.dev.mget m R.MSP_HOME_CFG) 1 0 ≠ 0 → isLocal m = true → s.dev.mfb m = 1) : ∃ d',
    exec (.home m) s = .next { s with dev := d' } ∧
    d' = { s.dev with regs := d'.regs, live := d'.live, cells := d'.cells, msps := d'.msps } ∧ d'.mst m = 4 ∧
    d'.msps[m].home = some ⟨s.dev.mpos m, none⟩ ∧
    d'.mget m R.MSP_HOME_STAT = (if fld (s.dev.mget m R.MSP_HOME_CFG) 1 0 = 2 then 2#32 else 1#32) ∧
    (∀ k : Fin 64, k ≠ m → d'.msps[k] = s.dev.msps[k]) := by
  have hc1 := s.dev.mtake_changes m
  have hexec : ∃ ps sign, exec (.home m) s = .next { s with dev := ((((s.dev.mtake m).mspMod m fun x => { x with
      home := some ⟨s.dev.mpos m, none⟩, prof := some ⟨.search, x.set, sign, ps, 0, 0⟩ }).mput m R.MSP_HOME_STAT
      (if fld (s.dev.mget m R.MSP_HOME_CFG) 1 0 = 2 then 2 else 1)).cellTune (mspI m)) } := by
    have hno1 : ¬ (s.dev.mst m ≠ 1 ∨ s.dev.msps[m].prof.isSome = true ∨ ¬ s.dev.msps[m].queue.isEmpty = true) := by
      rw [hp, hq]
      rintro (h | h | h)
      · exact h h1
      · exact absurd h (by decide)
      · exact h rfl
    have hno2 : ¬ (fld (s.dev.mget m R.MSP_HOME_CFG) 1 0 ≠ 0 ∧ isLocal m = true ∧ s.dev.mfb m ≠ 1) := fun ⟨ha, hb, hc⟩ => hc (hfb ha hb)
    have hdef : s.dev.mcmd m 1 = s.dev.mhome m := rfl
    have hhome : ∃ ps sign, s.dev.mhome m = ((((s.dev.mtake m).mspMod m fun x => { x with
        home := some ⟨s.dev.mpos m, none⟩, prof := some ⟨.search, x.set, sign, ps, 0, 0⟩ }).mput m R.MSP_HOME_STAT
        (if fld (s.dev.mget m R.MSP_HOME_CFG) 1 0 = 2 then 2 else 1)).cellTune (mspI m)) := by
      unfold Dev.mhome
      dsimp only
      rw [if_neg hno1, if_neg hno2]
      exact ⟨_, _, rfl⟩
    obtain ⟨ps, sign, hh⟩ := hhome
    refine ⟨ps, sign, ?_⟩
    change execHome m s = _
    unfold execHome
    rw [onLive_next _ _ (Dev.takes_live _ _ _ ht), Dev.hostWrite_takes _ _ _ _ ht, hdef, hh]
  obtain ⟨ps, sign, hexec⟩ := hexec
  generalize s.dev.mtake m = d1 at hc1 hexec
  have hcells1 : d1.cells = s.dev.cells := hc1.get Dev.cells
  have hm1 : d1.msps = s.dev.msps := hc1.get Dev.msps
  have hn1 : d1.now = s.dev.now := hc1.get Dev.now
  have h2 := d1.mspMod_same m fun x => { x with home := some ⟨s.dev.mpos m, none⟩, prof := some ⟨.search, x.set, sign, ps, 0, 0⟩ }
  have h3 := fun k (hk : k ≠ m) => d1.mspMod_ne m (fun x => { x with
    home := some ⟨s.dev.mpos m, none⟩, prof := some ⟨.search, x.set, sign, ps, 0, 0⟩ }) hk
  obtain ⟨d2, hd2⟩ : ∃ x, x = (d1.mspMod m fun x => { x with home := some ⟨s.dev.mpos m, none⟩, prof := some ⟨.search, x.set, sign, ps, 0, 0⟩ }) := ⟨_, rfl⟩
  rw [← hd2] at hexec h2 h3
  have hc2 : d1.changes [.msps] d2 := by rw [hd2]; rfl
  clear hd2
  generalize hv : (if fld (s.dev.mget m R.MSP_HOME_CFG) 1 0 = 2 then (2 : Word) else 1) = v at hexec
  have hc3 : d2.changes [.regs] (d2.mput m R.MSP_HOME_STAT v) := d2.put_changes _ _ _ _ _
  have hg3 := d2.mget_mput_same m R.MSP_HOME_STAT v
  generalize d2.mput m R.MSP_HOME_STAT v = d3 at hexec hc3 hg3
  have hcells3 : d3.cells = s.dev.cells := (show d3.cells = d2.cells from hc3.get Dev.cells).trans
    ((show d2.cells = d1.cells from hc2.get Dev.cells).trans hcells1)
  have hm3 : d3.msps = d2.msps := hc3.get Dev.msps
  have hn3 : d3.now = s.dev.now := (show d3.now = d2.now from hc3.get Dev.now).trans ((show d2.now = d1.now from hc2.get Dev.now).trans hn1)
  have hs4 := vmod_same d3.cells (mspI m) fun c => { c with tune := true }
  obtain ⟨d4, hd4⟩ : ∃ x, x = d3.cellMod (mspI m) fun c => { c with tune := true } := ⟨_, rfl⟩
  have hs4' : d4.cells[mspI m] = { s.dev.cells[mspI m] with tune := true } := by
    rw [hd4, ← hcells3]
    exact hs4
  have hn4 : d4.tick = s.dev.tick := by
    rw [hd4]
    exact congrArg (fun t => t / 800) hn3
  have htune : d3.cellTune (mspI m) = d4.cellState (mspI m) 4 := by
    unfold Dev.cellTune
    dsimp only
    rw [← hd4]
    refine if_neg ?_
    rw [hs4', hn4]
    exact hheld
  have hm4 : d4.msps = d2.msps := by rw [hd4]; exact hm3
  have hr4 : d4.regs = d3.regs := by rw [hd4]; rfl
  have hc4 : d3.changes [.cells] d4 := by rw [hd4]; rfl
  rw [htune, d4.cellState_tune m (by rw [hs4']; exact h1)] at hexec
  clear htune hs4 hd4
  have hs5 := vmod_same d4.cells (mspI m) fun c => { c with st := 4 }
  obtain ⟨d5, hd5⟩ : ∃ x, x = d4.cellMod (mspI m) fun c => { c with st := 4 } := ⟨_, rfl⟩
  have hst5 : d5.mst m = 4 := by
    rw [hd5]
    exact congrArg SCell.st hs5
  have hm5 : d5.msps = d2.msps := by rw [hd5]; exact hm4
  have hr5 : d5.regs = d3.regs := by rw [hd5]; exact hr4
  have hc5 : d4.changes [.cells] d5 := by rw [hd5]; rfl
  rw [← hd5] at hexec
  clear hd5 hs5
  have hc6 : d5.changes [.regs] ((d5.putF (mspB m) R.MSP_STAT 2 0 4 (mspC m)).eventQuiet (mspB m) R.MSP_EVT 1#32 (mspC m)) :=
    (d5.put_changes _ _ _ _ _).trans (Dev.put_changes _ _ _ _ _ _)
  have hg6 : ((d5.putF (mspB m) R.MSP_STAT 2 0 4 (mspC m)).eventQuiet (mspB m) R.MSP_EVT 1#32 (mspC m)).mget m R.MSP_HOME_STAT = v := by
    refine (Dev.get_put_ne _ _ _ _ _ _ _ _ _ _ (mreg_ne (by decide) (by decide) (by decide) m)).trans ?_
    refine (Dev.get_put_ne _ _ _ _ _ _ _ _ _ _ (mreg_ne (by decide) (by decide) (by decide) m)).trans ?_
    exact (Dev.get_of_regs _ _ _ _ (by rw [hr5])).trans hg3
  generalize (d5.putF (mspB m) R.MSP_STAT 2 0 4 (mspC m)).eventQuiet (mspB m) R.MSP_EVT 1#32 (mspC m) = e at hexec hc6 hg6
  have hme : e.msps = d2.msps := (show e.msps = d5.msps from hc6.get Dev.msps).trans hm5
  have hF : s.dev.changes [.regs, .live, .cells, .msps] e :=
    (hc1.mono (by decide)).trans ((hc2.mono (by decide)).trans ((hc3.mono (by decide)).trans ((hc4.mono (by decide)).trans
      ((hc5.mono (by decide)).trans (hc6.mono (by decide))))))
  refine ⟨e, hexec, congrArg (fun x : Dev => { x with regs := e.regs, live := e.live, cells := e.cells, msps := e.msps }) hF, ?_, ?_, ?_, fun k hk => ?_⟩
  · rw [← hst5, Dev.mst, Dev.mst, show e.cells = d5.cells from hc6.get Dev.cells]
  · rw [hme, h2]
  · rw [hg6, ← hv]
  · rw [hme, h3 k hk, hm1]

/-! Stops (R343). -/

theorem exec_stop {c : Instr} {quick : Bool} (hc : (c, quick) ∈ [(Instr.stop m, false), (.qstop m, true)]) (ht : s.dev.takes (mspB m) (mcmdOfs m)) :
    exec c s = .next { s with dev := s.dev.mstop m quick } := by
  simp only [List.mem_cons, List.not_mem_nil, or_false, Prod.mk.injEq] at hc
  rcases hc with ⟨rfl, rfl⟩ | ⟨rfl, rfl⟩
  · change execStop m s = _
    unfold execStop
    rw [onLive_next _ _ (Dev.takes_live _ _ _ ht), Dev.hostWrite_takes _ _ _ _ ht]
    rfl
  · change execQstop m s = _
    unfold execQstop
    rw [onLive_next _ _ (Dev.takes_live _ _ _ ht), Dev.hostWrite_takes _ _ _ _ ht]
    rfl

/-- STOP and QSTOP drop the queue and let the move fall to rest (R343). -/
theorem stop_spec {p : PMove} {c : Instr} {quick : Bool} (hc : (c, quick) ∈ [(Instr.stop m, false), (.qstop m, true)])
    (ht : s.dev.takes (mspB m) (mcmdOfs m)) (hh : s.dev.msps[m].home = none) (hp : s.dev.msps[m].prof = some p) (hk : p.kind = .move) :
    let f := s.dev.mprof m
    let q : Rat := ((s.dev.liv (mspB m) R.MSP_QSTOP (mspC m)).toNat : Rat) / 1000000000000
    let g : Prof := if quick then { f with d1 := q, d2 := q } else f
    let end_ := if s.dev.mdrive m = 1 then f.vE else 0
    ∃ d', exec c s = .next { s with dev := d' } ∧
      d' = { s.dev with
        regs := d'.regs
        msps := s.dev.msps.set m { s.dev.msps[m] with
          queue := []
          prof := some ⟨.fall, s.dev.msps[m].set, p.sign, fallPhases g (rabs s.dev.msps[m].vel) end_, 0, p.target⟩ } } ∧
      fld (d'.mget m R.MSP_STAT) 19 16 = 0 ∧ s.dev.regsKept d' fun a => a = radr (mspB m) R.MSP_STAT (mspC m) := by
  intro f q g end_
  obtain ⟨d1, hd1⟩ : ∃ x, x = s.dev.mqueueDrop m := ⟨_, rfl⟩
  have hm1 : d1.msps = vmod s.dev.msps m fun x => { x with queue := [] } := by rw [hd1]; rfl
  have hs1 : d1.msps[m] = { s.dev.msps[m] with queue := [] } := by
    rw [hm1]
    exact vmod_same s.dev.msps m _
  have hcfg : d1.mget m R.MSP_CFG = s.dev.mget m R.MSP_CFG := by
    rw [hd1]
    exact Dev.get_putF_ne (s.dev.mspMod m fun x => { x with queue := [] }) _ _ _ (mreg_ne (by decide) (by decide) (by decide) m)
  have hz : fld (d1.mget m R.MSP_STAT) 19 16 = 0 := by
    rw [hd1]
    exact Dev.getF_putF_same (s.dev.mspMod m fun x => { x with queue := [] }) _ _ _ _ 0 (by decide) (by decide)
  have hk1 : s.dev.regsKept d1 fun a => a = radr (mspB m) R.MSP_STAT (mspC m) := by
    rw [hd1]
    exact Dev.regsKept_putF (s.dev.mspMod m fun x => { x with queue := [] }) _ _ _ _ _ _ _ rfl
  have hfr1 : d1 = { s.dev with regs := d1.regs, msps := d1.msps } := by
    rw [hd1]
    rfl
  have hstop : s.dev.mstop m quick = d1.mfall m quick := by
    unfold Dev.mstop
    dsimp only
    rw [← hd1, hh, hp]
    refine (if_neg ?_).trans rfl
    simp [hk]
  have hfall : d1.mfall m quick = d1.mspMod m fun x => { x with
      prof := some ⟨.fall, x.set, p.sign, fallPhases g (rabs s.dev.msps[m].vel) end_, 0, p.target⟩ } := by
    have hprof : d1.mprof m = f := by
      rw [hfr1]
      rfl
    have hliv : d1.liv (mspB m) R.MSP_QSTOP (mspC m) = s.dev.liv (mspB m) R.MSP_QSTOP (mspC m) := by
      rw [hfr1]
      rfl
    unfold Dev.mfall
    dsimp only
    rw [hs1, hprof, hliv, hcfg, hp]
    rfl
  refine ⟨_, exec_stop s m hc ht, ?_⟩
  rw [hstop, hfall]
  refine ⟨?_, hz, hk1⟩
  rw [hfr1]
  unfold Dev.mspMod
  dsimp only
  rw [hm1, vmod_vmod]

/-! Compare lists (R349, R350). -/

/-- CMP_LOAD_DONE with a readable list. -/
theorem cmpLoadDone_spec (b : Fin 8) {o : OpRec} {bs : List Byte} (hlive : s.dev.dead = false) (ho : s.dev.op (blk .mspin b.val) = some o)
    (hrun : s.dev.opRunning (blk .mspin b.val) 1 = true)
    (hrd : s.dev.sdRead s.mem (s.dev.addr2 (blk .mspin b.val) R.MSP_CMP_ADDR_LO R.MSP_CMP_ADDR_HI (mspC (cmpSpindle b o.param)))
      (8 * fld (s.dev.mget (cmpSpindle b o.param) R.MSP_CMP_LEN) 10 0) = .ok bs) :
    ∃ d', exec (.cmpLoadDone b) s = .next { s with dev := d' } ∧
      if (cmpEntries (bytesWords bs)).any (fun e => e.2.1 = 3) then
        d' = { s.dev with regs := d'.regs } ∧ d'.getF (blk .mspin b.val) R.OP_STAT 15 8 = 0x81
      else
        d' = { s.dev with
          regs := d'.regs, ops := d'.ops
          msps := s.dev.msps.set (cmpSpindle b o.param) { s.dev.msps[cmpSpindle b o.param] with list := cmpEntries (bytesWords bs) } } ∧
        d'.get (blk .mspin b.val) R.OP_STAT = opWord 3 4095 0 (s.dev.opTag (blk .mspin b.val)) := by
  have hexec : exec (.cmpLoadDone b) s = .next { s with dev := (
      if (cmpEntries (bytesWords bs)).any (fun e => e.2.1 = 3) then s.dev.opFail (blk .mspin b.val) 0x81
      else (s.dev.mspMod (cmpSpindle b o.param) fun x => { x with list := cmpEntries (bytesWords bs) }).opDone (blk .mspin b.val)) } := by
    change execCmpLoadDone b s = _
    unfold execCmpLoadDone
    rw [onLiveMem_next _ _ hlive]
    simp only [ho, hrun, not_true_eq_false, if_false, hrd]
    by_cases hbad : (cmpEntries (bytesWords bs)).any (fun e => e.2.1 = 3) = true
    · simp only [if_pos hbad]
    · simp only [if_neg hbad]
  refine ⟨_, hexec, ?_⟩
  by_cases hbad : (cmpEntries (bytesWords bs)).any (fun e => e.2.1 = 3) = true
  · rw [if_pos hbad, if_pos hbad]
    refine ⟨rfl, ?_⟩
    unfold Dev.getF
    rw [show (s.dev.opFail (blk .mspin b.val) 0x81).get (blk .mspin b.val) R.OP_STAT = _ from Dev.opSet_word _ _ _ _, opWord_err]
  · rw [if_neg hbad, if_neg hbad]
    obtain ⟨d1, hd1⟩ : ∃ x, x = s.dev.mspMod (cmpSpindle b o.param) fun x => { x with list := cmpEntries (bytesWords bs) } := ⟨_, rfl⟩
    have htag : d1.opTag (blk .mspin b.val) = s.dev.opTag (blk .mspin b.val) := by rw [hd1]; rfl
    have hm1 : d1.msps = s.dev.msps.set (cmpSpindle b o.param) { s.dev.msps[cmpSpindle b o.param] with list := cmpEntries (bytesWords bs) } := by
      rw [hd1]
      rfl
    have hfr1 : d1 = { s.dev with msps := d1.msps } := by rw [hd1]; rfl
    have hc := d1.opDone_changes (blk .mspin b.val)
    have hst := d1.opDone_stat (blk .mspin b.val)
    rw [← hd1]
    generalize d1.opDone (blk .mspin b.val) = e at hc hst
    refine ⟨?_, by rw [hst, htag]⟩
    have he : e = { d1 with regs := e.regs, ops := e.ops } := congrArg (fun x : Dev => { x with regs := e.regs, ops := e.ops }) hc
    rw [he, ← hm1, hfr1]

/-- Enabling a list stands at its first entry, which the position has not reached (R350). -/
theorem compareEnable_first (v : Word) {e : Int × Nat × Bool} {es : List (Int × Nat × Bool)} (ht : s.dev.takes (mspB m) (0x1BC + 0x100 * mspC m))
    (hv0 : bit v 0 = true) (hv2 : bit v 2 = false) (hwas : bit (s.dev.mget m R.MSP_CMP_CTL) 0 = false) (hl : s.dev.msps[m].list = e :: es)
    (hdir : e.2.1 = 1) (hpos : s.dev.mpos m < e.1) : ∃ d',
    exec (.compareEnable m v) s = .next { s with dev := d' } ∧
    d' = { s.dev with regs := d'.regs, claims := d'.claims, msps := d'.msps } ∧
    d'.mget m R.MSP_CMP_CTL = v &&& R.MSP_CMP_CTL.mask ∧ fld (d'.mget m R.MSP_CMP_IDX) 9 0 = 0 ∧
    d'.msps[m].ofs = 0 ∧ d'.msps[m].below = true ∧ (∀ k : Fin 64, k ≠ m → d'.msps[k] = s.dev.msps[k]) ∧
    s.dev.regsKept d' fun a => a = radr (mspB m) R.MSP_CMP_CTL (mspC m) ∨ a = radr (mspB m) R.MSP_CMP_IDX (mspC m) := by
  generalize hw : v &&& R.MSP_CMP_CTL.mask = w
  have hbit : ∀ k, R.MSP_CMP_CTL.mask.getLsbD k = true → bit w k = bit v k := fun k hk => by
    rw [← hw, bit, BitVec.getLsbD_and, hk, Bool.and_true]
    rfl
  have hw0 : bit w 0 = true := (hbit 0 (by decide)).trans hv0
  have hw2 : bit w 2 = false := (hbit 2 (by decide)).trans hv2
  obtain ⟨d2, hd2⟩ : ∃ x, x = (({ s.dev with claims := s.dev.claims.filter fun c =>
      ¬ (c.by_ = mspB m ∧ c.sub = mspSub m 2 ∧ some (c.owner, c.ix) ≠ (none : Option (Blk × Nat))) } : Dev).mspMod m fun x =>
      { x with pulseAt := none }).mput m R.MSP_CMP_CTL w := ⟨_, rfl⟩
  have hm2 : d2.msps = vmod s.dev.msps m fun x => { x with pulseAt := none } := by rw [hd2]; rfl
  have hr2 : d2.regs = (s.dev.mput m R.MSP_CMP_CTL w).regs := by rw [hd2]; rfl
  have hc2 : s.dev.changes [.regs, .claims, .msps] d2 := by rw [hd2]; rfl
  have hg2 : ∀ q : Reg, d2.mget m q = (s.dev.mput m R.MSP_CMP_CTL w).mget m q := fun q => Dev.get_of_regs _ _ _ _ (by rw [hr2])
  have hpos2 : d2.mpos m = s.dev.mpos m := by
    unfold Dev.mpos
    rw [hg2, Dev.mget_mput_ne _ m _ (mreg_ne (by decide) (by decide) (by decide) m)]
  -- the first entry is current
  obtain ⟨f, hf⟩ : ∃ f : Msp → Msp, f = fun x => ({ x with ofs := 0, lateRun := false } : Msp).current 0 (d2.mpos m) := ⟨_, rfl⟩
  have hfm : f d2.msps[m] = { s.dev.msps[m] with pulseAt := none, ofs := 0, lateRun := false, below := true } := by
    have hlt : decide (d2.mpos m < e.1 + 0) = true := by
      rw [hpos2, Int.add_zero]
      exact decide_eq_true hpos
    rw [hf, hm2, vmod_same]
    unfold Msp.current
    dsimp only
    rw [hl]
    dsimp only [List.getElem?_cons_zero]
    rw [hlt]
  obtain ⟨d3, hd3⟩ : ∃ x, x = (d2.putF (mspB m) R.MSP_CMP_IDX 9 0 0 (mspC m)).mspMod m f := ⟨_, rfl⟩
  have hs3 : d3.msps[m] = { s.dev.msps[m] with pulseAt := none, ofs := 0, lateRun := false, below := true } := by
    rw [hd3, ← hfm]
    exact vmod_same d2.msps m f
  have ho3 : ∀ k : Fin 64, k ≠ m → d3.msps[k] = s.dev.msps[k] := fun k hk => by
    rw [hd3]
    exact (vmod_ne d2.msps f hk).trans (by rw [hm2]; exact vmod_ne s.dev.msps _ hk)
  have hc3 : d2.changes [.regs, .claims, .msps] d3 := by rw [hd3]; rfl
  have hidx3 : fld (d3.mget m R.MSP_CMP_IDX) 9 0 = 0 := by
    rw [hd3]
    exact d2.getF_putF_same _ _ _ _ 0 (by decide) (by decide)
  have hk3 : d2.regsKept d3 fun a => a = radr (mspB m) R.MSP_CMP_CTL (mspC m) ∨ a = radr (mspB m) R.MSP_CMP_IDX (mspC m) := by
    rw [hd3]
    exact d2.regsKept_putF _ _ _ _ _ _ _ (.inr rfl)
  have hg3 : ∀ q : Reg, mreg q → q.off ≠ R.MSP_CMP_IDX.off → d3.mget m q = d2.mget m q := fun q hq hne => by
    rw [hd3]
    exact Dev.get_put_ne _ _ _ _ _ _ _ _ _ _ (mreg_ne hq (by decide) hne m)
  have hctl3 : d3.mget m R.MSP_CMP_CTL = w := by
    rw [hg3 _ (by decide) (by decide), hg2, Dev.mget_mput_same]
  have hpos3 : d3.mpos m = s.dev.mpos m := by
    rw [← hpos2, Dev.mpos, Dev.mpos, hg3 _ (by decide) (by decide)]
  -- nothing fires
  have hloop : cmpLoop d3.msps[m].list.length s.mem d3 m true = (s.mem, d3.mspMod m fun x => { x with lateRun := false }) := by
    have hlen : d3.msps[m].list = e :: es := by rw [hs3]; exact hl
    have hnot : ¬ d3.msps[m].reached e (d3.mpos m) = true := by
      unfold Msp.reached
      rw [hs3, hpos3, hdir]
      simp
      omega
    rw [hlen]
    change cmpLoop (es.length + 1) _ _ _ _ = _
    unfold cmpLoop
    dsimp only
    rw [hidx3, hctl3, hlen]
    dsimp only [List.getElem?_cons_zero]
    rw [if_neg (not_not.mpr hw0), if_pos hnot]
    rfl
  have hrun : cmpCtl s.mem s.dev m v s.rivals = (s.mem, d3.mspMod m fun x => { x with lateRun := false }) := by
    have hold : ¬ bit (s.dev.mget m R.MSP_CMP_CTL) 0 = true := by
      rw [hwas]
      decide
    unfold cmpCtl
    extract_lets v' was pin wants by_ sub free err d1 d2' d3'
    have hwants : wants = false := by
      simp only [wants, v', hw, hw2, Bool.and_false]
    have herr : err = none := by
      simp only [err, hwants, Bool.false_eq_true, if_false]
    rw [herr]
    have hd1 : d1 = (free s.dev none).mspMod m fun x => { x with pulseAt := none } := if_neg (by rw [hwants]; decide)
    have hd2' : d2' = d2 := by
      rw [hd2, show d2' = d1.mput m R.MSP_CMP_CTL v' from rfl, hd1, show v' = w from hw]
    have hd3' : d3' = d3 := by
      rw [hd3, hf]
      simp only [d3', hd2']
    have hv' : bit v' 0 = true := by
      rw [show v' = w from hw]
      exact hw0
    refine (if_pos ⟨hv', hold⟩).trans ?_
    rw [hd3']
    exact hloop
  have h5 := d3.mspMod_same m fun x => { x with lateRun := false }
  have h6 := fun k (hk : k ≠ m) => d3.mspMod_ne m (fun x => { x with lateRun := false }) hk
  have hc4 : d3.changes [.regs, .claims, .msps] (d3.mspMod m fun x => { x with lateRun := false }) := rfl
  have hr4 : (d3.mspMod m fun x => { x with lateRun := false }).regs = d3.regs := rfl
  have hexec : exec (.compareEnable m v) s = .next { s with dev := d3.mspMod m fun x => { x with lateRun := false } } := by
    change execCompareEnable m v s = _
    unfold execCompareEnable
    rw [onLiveMem_next _ _ (Dev.takes_live _ _ _ ht), hostWriteMem_takes _ _ _ _ _ ht]
    simp only [hrun]
  generalize d3.mspMod m (fun x => { x with lateRun := false }) = e4 at h5 h6 hc4 hr4 hexec
  have hg4 : ∀ q : Reg, e4.mget m q = d3.mget m q := fun q => Dev.get_of_regs _ _ _ _ (by rw [hr4])
  refine ⟨e4, hexec, congrArg (fun x : Dev => { x with regs := e4.regs, claims := e4.claims, msps := e4.msps }) ((hc2.trans hc3).trans hc4), ?_, ?_, ?_, ?_,
    fun k hk => (h6 k hk).trans (ho3 k hk), fun a ha => ?_⟩
  · rw [hg4]
    exact hctl3
  · rw [hg4]
    exact hidx3
  · rw [h5, hs3]
  · rw [h5, hs3]
  · rw [hr4, hk3 a ha, hr2]
    exact s.dev.mput_kept m _ _ (p := fun a => a = radr (mspB m) R.MSP_CMP_CTL (mspC m) ∨ a = radr (mspB m) R.MSP_CMP_IDX (mspC m)) (.inl rfl) a ha

end

/-! The values of cells (R358). -/

theorem mspCell_of_lt (b : Fin 8) {c : Nat} (hc : c < 8) :
    isHead (Fin.ofNat 256 (192 + 8 * b.val + c)) = false ∧ cellBlk (Fin.ofNat 256 (192 + 8 * b.val + c)) = blk .mspin b.val ∧
    cellIx (Fin.ofNat 256 (192 + 8 * b.val + c)) = c :=
  (by decide : ∀ (b c : Fin 8), isHead (Fin.ofNat 256 (192 + 8 * b.val + c.val)) = false ∧
    cellBlk (Fin.ofNat 256 (192 + 8 * b.val + c.val)) = blk .mspin b.val ∧ cellIx (Fin.ofNat 256 (192 + 8 * b.val + c.val)) = c.val) b ⟨c, hc⟩

/-- Settles O44: the search by `home_begins`, stops by `stop_spec`, lists by `compareEnable_first`, values by `Dev.applyWrite_spec`. -/
theorem spindlesHomeStopAndCompare : Obligations.SpindlesHomeStopAndCompare := by
  unfold Obligations.SpindlesHomeStopAndCompare
  refine ⟨fun s m ht h1 hheld hp hq hfb => home_begins s m ht h1 hheld hp hq hfb, fun s m p c quick hc ht _ hh hp hk => stop_spec s m hc ht hh hp hk,
    fun s b o bs hl ho hrun => fun hrd => cmpLoadDone_spec s b hl ho hrun hrd,
    fun s m v e es ht hv0 hv2 hwas hl hdir hpos => compareEnable_first s m v ht hv0 hv2 hwas hl hdir hpos, fun s b v ht => ?_⟩
  obtain ⟨hw, hregs, -, hcells⟩ := s.dev.applyWrite_spec (base := 192 + 8 * b.val) (n := 8) v (by decide) fun c hc => mspCell_of_lt b hc
  have hexec : exec (.mspApply b v) s = .next { s with dev := s.dev.applyWrite (192 + 8 * b.val) 8 v } := by
    change execMspApply b v s = _
    unfold execMspApply
    rw [onLive_next _ _ (Dev.takes_live _ _ _ ht), Dev.hostWrite_takes _ _ _ _ ht]
  generalize s.dev.applyWrite (192 + 8 * b.val) 8 v = e at hw hregs hcells hexec
  have hr : e.regs = s.dev.regs := hregs rfl
  have hfr : e = { s.dev with regs := e.regs, live := e.live, cells := e.cells } :=
    congrArg (fun x : Dev => { x with regs := e.regs, live := e.live, cells := e.cells }) hw
  rw [hr] at hfr
  refine ⟨e, hexec, hfr, fun c r hr j hj => ?_⟩
  have hcell := hcells c.val c.isLt
  dsimp only
  split
  · rename_i hv
    rw [if_pos hv] at hcell
    exact ⟨hcell.2 r hr j hj, hcell.1⟩
  · rename_i hv
    rw [if_neg hv] at hcell
    exact hcell r hr j hj

end Sys2Proof.Machine
end

section
/-! SUPPORT. Positions of machine spindles: counts without a compare list in force, and judged samples (R335 to R339). -/

namespace Sys2Proof.Machine

section
variable (d : Dev) (m : Fin 64)

/-- Without compare enabled a sample fires nothing (R350). -/
theorem cmpSample_off (x : Mem) (h : bit (d.mget m R.MSP_CMP_CTL) 0 = false) : cmpSample x d m = (x, d) := by
  unfold cmpSample
  cases d.msps[m].list.length with
  | zero => rfl
  | succ n =>
    unfold cmpLoop
    dsimp only
    split
    · rfl
    · rw [if_pos (by rw [h]; decide)]

/-- Counts enter the position (R335). -/
theorem posMove_off (x : Mem) (n : Int) (h : bit (d.mget m R.MSP_CMP_CTL) 0 = false) :
    posMove x d m n = (x, (d.setMpos m (d.mpos m + n)).medges m n) := by
  unfold posMove
  refine cmpSample_off _ m x ?_
  have hs : ∀ y : Dev, (y.medges m n).mget m R.MSP_CMP_CTL = y.mget m R.MSP_CMP_CTL := fun y => by
    unfold Dev.medges
    split
    · rfl
    · exact Dev.mget_mstat_ne _ m _ _ (mreg_ne (by decide) (by decide) (by decide) m)
  rw [hs, Dev.setMpos, Dev.mget_mput_ne _ m _ (mreg_ne (by decide) (by decide) (by decide) m)]
  exact h

/-- What counts change: the position, the speed measurement and MSP_STAT.STILL (R338). -/
theorem Dev.counted_spec (p n : Int) :
    let e := (d.setMpos m p).medges m n
    d.changes [.regs, .msps] e ∧ e.mget m R.MSP_POS = wi p ∧ fld (e.mget m R.MSP_STAT) 14 12 = fld (d.mget m R.MSP_STAT) 14 12 ∧
    (∃ we ea pe, e.msps[m] = { d.msps[m] with winEdges := we, winNet := d.msps[m].winNet + n, edgeAt := ea, period := pe }) ∧
    ∀ k : Fin 64, k ≠ m → e.msps[k] = d.msps[k] := by
  have h0 : ∀ q : Reg, mreg q → q.off ≠ R.MSP_POS.off → (d.setMpos m p).mget m q = d.mget m q := fun q hq hne =>
    d.mget_mput_ne m _ (mreg_ne hq (by decide) hne m)
  have h1 : (d.setMpos m p).mget m R.MSP_POS = wi p := d.mget_mput_same m _ _
  have hc : d.changes [.regs, .msps] (d.setMpos m p) := (d.put_changes _ _ _ _ _).mono (by decide)
  have hm : (d.setMpos m p).msps = d.msps := rfl
  generalize d.setMpos m p = x at h0 h1 hc hm
  intro e
  by_cases hn : n = 0
  · have he : e = x := if_pos hn
    rw [he, hn, hm]
    exact ⟨hc, h1, by rw [h0 _ (by decide) (by decide)], ⟨_, _, _, by rw [Int.add_zero]⟩, fun _ _ => rfl⟩
  · have he : ∃ u : Msp → Option Nat, e = (x.mspMod m fun y => { y with
        winEdges := y.winEdges + n.natAbs, winNet := y.winNet + n, edgeAt := some (x.now, decide (0 < n)), period := u y }).mstat m 5 false :=
      ⟨_, if_neg hn⟩
    obtain ⟨u, he⟩ := he
    rw [he]
    refine ⟨(hc.trans ((show x.changes [.msps] _ from rfl).mono (by decide))).trans ((Dev.put_changes _ _ _ _ _ _).mono (by decide)), ?_, ?_,
      ⟨_, _, _, (vmod_same x.msps m _).trans (by rw [hm])⟩, fun k hk => (vmod_ne x.msps _ hk).trans (by rw [hm])⟩
    · rw [Dev.mget_mstat_ne _ m _ _ (mreg_ne (by decide) (by decide) (by decide) m)]
      exact h1
    · rw [Dev.fld_mstat_other _ m _ (by decide) (.inr (by decide))]
      exact congrArg (fun w => fld w 14 12) (h0 R.MSP_STAT (by decide) (by decide))

end

/-! The last raw position of every spindle, which no judged sample changes. -/

/-- Every spindle keeps its last raw position. -/
def Dev.rawKept (d e : Dev) : Prop := ∀ k : Fin 64, e.msps[k].raw = d.msps[k].raw

namespace Dev.rawKept

variable {d e f : Dev}

theorem refl (d : Dev) : rawKept d d := fun _ => rfl

theorem ite {c : Prop} [Decidable c] (r : rawKept d e) (r' : rawKept d f) : rawKept d (if c then e else f) := by
  split <;> assumption

variable (r : rawKept d e)
include r

/-- A step beside the spindles. -/
theorem beside (h : f.msps = e.msps) : rawKept d f := fun k => by
  rw [h]
  exact r k

theorem mspMod (m : Fin 64) {g : Msp → Msp} (hg : ∀ x, (g x).raw = x.raw) : rawKept d (e.mspMod m g) := fun k => by
  by_cases hk : k = m
  · subst hk
    rw [Dev.mspMod_same, hg]
    exact r k
  · rw [Dev.mspMod_ne _ _ _ hk]
    exact r k

theorem put (b : Blk) (q : Reg) (v : Word) (i j : Nat) : rawKept d (e.put b q v i j) := r.beside rfl

theorem raise (b : Blk) (c : Option Nat) (n a : Nat) : rawKept d (e.raise b c n a) := r.beside ((e.detect_changes b c n a _ _ _).get Dev.msps)

theorem cellMod (i : Fin 256) (g : SCell → SCell) : rawKept d (e.cellMod i g) := r.beside rfl

theorem mfall (m : Fin 64) (quick : Bool) : rawKept d (e.mfall m quick) := by
  cases hp : e.msps[m].prof with
  | none =>
    have h : e.mfall m quick = e := by
      unfold Dev.mfall
      dsimp only
      rw [hp]
    rw [h]
    exact r
  | some p =>
    obtain ⟨ps, h⟩ := e.mfall_some m quick hp
    rw [h]
    exact r.mspMod m fun _ => by rfl

theorem homeBad (m : Fin 64) (reason : Nat) : rawKept d (e.homeBad m reason) :=
  ((((r.mspMod m fun _ => by rfl).cellMod _ _).put _ _ _ _ _).put _ _ _ _ _).put _ _ _ _ _ |>.raise _ _ _ _

theorem mqueueDrop (m : Fin 64) : rawKept d (e.mqueueDrop m) := (r.mspMod m fun _ => by rfl).put _ _ _ _ _

theorem mspLeave (m : Fin 64) (a b : Nat) : rawKept d (e.mspLeave m a b) := by
  unfold Dev.mspLeave
  extract_lets d1 d2
  have h1 : rawKept d d1 := .ite (r.mqueueDrop m) r
  clear_value d1
  have h2 : rawKept d d2 := (h1.mspMod m fun _ => by rfl).put _ _ _ _ _
  exact .ite (.ite (h2.homeBad m 4) h2) h1

theorem cellEvent (i : Fin 256) : rawKept d (e.cellEvent i) := by
  unfold Dev.cellEvent
  exact .ite (r.beside ((e.event_changes _ _ _ _ _ _).get Dev.msps)) (r.put _ _ _ _ _)

theorem cellState (i : Fin 256) (st : Nat) : rawKept d (e.cellState i st) := by
  unfold Dev.cellState
  extract_lets old off d0 d1 d2
  have h0 : rawKept d d0 := .ite (r.beside (by unfold Dev.takeDue; dsimp only; split <;> rfl)) r
  clear_value d0
  have h1 : rawKept d d1 := h0.cellMod _ _
  clear_value d1
  have h2 : rawKept d d2 := .ite (h1.mspLeave _ _ _) (.ite (h1.put _ _ _ _ _) h1)
  clear_value d2
  have h3 : rawKept d (d2.stateShow i st) := .ite (h2.put _ _ _ _ _) (h2.put _ _ _ _ _)
  exact .ite r (h3.cellEvent i)

theorem tuneCellFail (i : Fin 256) (err : Nat) : rawKept d (e.tuneCellFail i err) :=
  r.beside (by
    unfold Dev.tuneCellFail Dev.tuneFail
    split
    · split
      · rfl
      · unfold Dev.tuneEnd
        split <;> rfl
    · rfl)

theorem mspLasting (i : Fin 256) : rawKept d (e.mspLasting i) := by
  unfold Dev.mspLasting
  extract_lets m abs d1
  have h0 : rawKept d (if abs then e else e.mstat m 3 false) := .ite r (r.put _ _ _ _ _)
  have h1 : rawKept d d1 := h0.mspMod m fun _ => by rfl
  clear_value d1
  exact .ite r (.ite ((h1.homeBad m 3).mfall m false) h1)

theorem enterRun (i : Fin 256) (th : Int) : rawKept d (e.enterRun i th) := by
  unfold Dev.enterRun
  extract_lets d1 p
  have h1 : rawKept d d1 := (r.cellMod i _).cellState i 1
  exact .ite h1 (h1.mspMod _ fun _ => by rfl)

theorem badCount (i : Fin 256) : rawKept d (e.badCount i) := .ite (r.put _ _ _ _ _) (r.put _ _ _ _ _)
theorem lastCount (i : Fin 256) : rawKept d (e.lastCount i) := .ite (r.put _ _ _ _ _) (r.put _ _ _ _ _)
theorem transCount (i : Fin 256) : rawKept d (e.transCount i) := .ite (r.put _ _ _ _ _) (r.put _ _ _ _ _)

theorem cellFault (i : Fin 256) (kind : Nat) : rawKept d (e.cellFault i kind) := .ite ((r.raise _ _ _ _).cellEvent i) (r.raise _ _ _ _)

/-- A judged sample (R169). -/
theorem classify (i : Fin 256) (k : Nat) (good : Bool) : rawKept d (e.classify i k good) := by
  unfold Dev.classify
  dsimp only
  split
  · exact .ite (r.enterRun i _) r
  · exact .ite ((r.cellState i _).transCount i)
      (((((((r.cellMod i _).cellState i 3).badCount i).lastCount i).cellFault i 0).tuneCellFail i _).mspLasting i)
  · exact .ite (.ite ((r.cellMod i _).cellState i 1) (r.cellMod i _)) ((r.cellMod i _).badCount i)
  · exact r
  · exact .ite r ((r.cellState i 2).badCount i)

end Dev.rawKept

/-! A judged sample leaves the registers of the motion ports. -/

theorem apart_mpg (m : Fin 64) (hm : isLocal m = true) : Apart (pageOf (mpgB m)) :=
  apart_page (t := .mpg) ((by decide : ∀ m : Fin 64, isLocal m = true → blkKind (mpgB m) = some (.mpg, m.val / 4)) m hm) (by decide)

theorem cellIx_head {i : Fin 256} (h : isHead i = true) : cellIx i < 24 := by rw [cellIx, if_pos h]; omega
theorem cellIx_msp {i : Fin 256} (h : ¬ isHead i = true) : cellIx i < 8 := by rw [cellIx, if_neg h]; omega

/-- The offset of a register of a head cell or of a spindle, for the number of its cell. -/
theorem cellOfs_head {i : Fin 256} (h : isHead i = true) {r : Reg} (hr : r.s0 = 0x80 ∧ r.s1 = 0 ∧ 8 < r.off ∧ r.off < 0x200) : ownOfs (r.ofs (cellIx i) 0) := by
  obtain ⟨h0, h1, h2, h3⟩ := hr
  have := cellIx_head h
  rw [Reg.ofs, h0, h1]
  omega

theorem cellOfs_msp {i : Fin 256} (h : ¬ isHead i = true) {r : Reg} (hr : r.s0 = 0x100 ∧ r.s1 = 0 ∧ 8 < r.off ∧ r.off < 0x200) : ownOfs (r.ofs (cellIx i) 0) := by
  obtain ⟨h0, h1, h2, h3⟩ := hr
  have := cellIx_msp h
  rw [Reg.ofs, h0, h1]
  omega

namespace Dev.aside

section
variable {w : Watch} {d e : Dev} (k : aside w goneParts d e) (hp : Apart w)
include k hp

theorem badCount (i : Fin 256) : aside w goneParts d (e.badCount i) := by
  unfold Dev.badCount
  split
  · exact k.put (hp.cell i) _ (by decide) (cellOfs_head ‹_› (by decide))
  · exact k.put (hp.cell i) _ (by decide) (cellOfs_msp ‹_› (by decide))

theorem lastCount (i : Fin 256) : aside w goneParts d (e.lastCount i) := by
  unfold Dev.lastCount
  split
  · exact k.put (hp.cell i) _ (by decide) (cellOfs_head ‹_› (by decide))
  · exact k.put (hp.cell i) _ (by decide) (cellOfs_msp ‹_› (by decide))

theorem transCount (i : Fin 256) : aside w goneParts d (e.transCount i) := by
  unfold Dev.transCount
  split
  · exact k.put (hp.cell i) _ (by decide) (cellOfs_head ‹_› (by decide))
  · exact k.put (hp.cell i) _ (by decide) (cellOfs_msp ‹_› (by decide))

theorem cellFault (i : Fin 256) (kind : Nat) : aside w goneParts d (e.cellFault i kind) := by
  unfold Dev.cellFault Dev.cellEvent
  extract_lets d1
  have h1 : aside w goneParts d d1 := k.raise (hp.cell i) hp (by decide)
  clear_value d1
  split
  · exact h1.event (hp.cell i) hp (by decide) (by omega) (by decide)
  · exact h1

theorem mspLasting (i : Fin 256) : aside w goneParts d (e.mspLasting i) := by
  unfold Dev.mspLasting
  extract_lets m abs d1
  have h0 : aside w goneParts d (if abs then e else e.mstat m 3 false) := .ite k (k.mspReg hp m _ (by decide))
  have h1 : aside w goneParts d d1 := h0.mspMod m _
  clear_value d1
  have hfall : ∀ x, aside w goneParts d x → aside w goneParts d (x.mfall m false) := fun x hx => by
    obtain ⟨h, -, -⟩ := x.mfall_home m false
    have hc : x.changes [.msps] (x.mfall m false) := by
      rw [h]
      rfl
    exact hx.beside hc (by decide) (by rw [h])
  exact .ite k (.ite (hfall _ (h1.homeBad hp m 3)) h1)

theorem enterRun (i : Fin 256) (th : Int) : aside w goneParts d (e.enterRun i th) := by
  unfold Dev.enterRun
  extract_lets d1 p
  have h1 : aside w goneParts d d1 := (k.cellMod i _).cellState hp i 1
  clear_value d1
  exact .ite h1 (h1.mspMod _ _)

theorem classify (i : Fin 256) (n : Nat) (good : Bool) : aside w goneParts d (e.classify i n good) := by
  unfold Dev.classify
  dsimp only
  split
  · exact .ite (k.enterRun hp i _) k
  · exact .ite ((k.cellState hp i _).transCount hp i)
      (((((((k.cellMod i _).cellState hp i 3).badCount hp i).lastCount hp i).cellFault hp i 0).tuneCellFail hp i _).mspLasting hp i)
  · exact .ite (.ite ((k.cellMod i _).cellState hp i 1) (k.cellMod i _)) ((k.cellMod i _).badCount hp i)
  · exact k
  · exact .ite k ((k.cellState hp i 2).badCount hp i)

end

end Dev.aside

end Sys2Proof.Machine
end

section
/-! Positions, speeds and pulses of machine spindles (R331 to R340, R351, R352). -/

namespace Sys2Proof.Machine

theorem portM_local (p : Fin 16) : isLocal (portM p) = true := by revert p; decide

/-- A register of a motion port is none of a spindle's. -/
theorem mpg_ne_msp (p : Fin 16) : mpgB (portM p) ≠ mspB (portM p) := by revert p; decide

section
variable (s : State)

/-! A tick (R331). -/

theorem motionTick_moves (m : Fin 64) {p : PMove} (hlive : s.dev.dead = false) (hloc : isLocal m = true) (hm : s.dev.mlive m = true)
    (hk : s.dev.cells[mspI m].kDone ≠ some s.dev.tick) (hrun : runState (s.dev.mst m) = true) (hdr : s.dev.mdrive m = 0)
    (hsrc : s.dev.mstepSrc m = false) (hh : s.dev.msps[m].home = none) (hp : s.dev.msps[m].prof = some p)
    (ht : p.t + 1 < phasesTime p.phases) :
    let x := phaseAt p.phases (p.t + 1)
    let k : Rat := ((p.sign : Int) : Rat)
    ∃ d', exec (.motionTick m) s = .next { s with dev := d' } ∧
      d' = { s.dev with
        regs := d'.regs, cells := d'.cells
        msps := s.dev.msps.set m { s.dev.msps[m] with
          set := p.start + k * x.1, vel := k * x.2.1, acc := k * x.2.2, prof := some { p with t := p.t + 1 } } } ∧
      d'.mget m R.MSP_SETP = wi (p.start + k * x.1).floor ∧ bit (d'.mget m R.MSP_STAT) 4 = true ∧
      d'.cells[mspI m].kDone = some s.dev.tick ∧ d'.cells[mspI m].sp = rnd ((p.start + k * x.1) * 256) ∧
      ∀ i : Fin 256, i ≠ mspI m → d'.cells[i] = s.dev.cells[i] := by
  intro x k
  obtain ⟨d2, hd2⟩ : ∃ y, y = s.dev.mspMod m fun y => { y with
      set := p.start + k * x.1, vel := k * x.2.1, acc := k * x.2.2, prof := some { p with t := p.t + 1 } } := ⟨_, rfl⟩
  have hs2 : d2.msps[m] = { s.dev.msps[m] with
      set := p.start + k * x.1, vel := k * x.2.1, acc := k * x.2.2, prof := some { p with t := p.t + 1 } } := by
    rw [hd2]
    exact vmod_same s.dev.msps m _
  have hr2 : d2.regs = s.dev.regs := by rw [hd2]; rfl
  have hc2 : d2.cells = s.dev.cells := by rw [hd2]; rfl
  have hg2 : ∀ q : Reg, d2.mget m q = s.dev.mget m q := fun q => Dev.get_of_regs _ _ _ _ (by rw [hr2])
  have hadv : madvance 6 s.dev m 1 = d2 := by
    unfold madvance
    dsimp only
    rw [hp]
    dsimp only
    rw [if_pos ht, hd2]
  have hrange : d2.homeRange m = d2 := by
    unfold Dev.homeRange
    rw [hs2]
    dsimp only
    rw [hh]
  have hstep : stepOut s.mem d2 m = (s.mem, d2) := by
    unfold stepOut
    refine if_pos ?_
    rw [Dev.mdrive, hg2]
    change s.dev.mdrive m ≠ 1
    rw [hdr]
    decide
  have hno : s.dev.mtickNo m = some s.dev.tick := by
    unfold Dev.mtickNo
    dsimp only
    rw [if_pos hloc, if_neg hk]
  have hst0 : s.dev.cells[mspI m].st ≠ 0 := fun h0 => by
    rw [Dev.mst, h0] at hrun
    exact absurd hrun (by decide)
  have htick : motionTick s.mem s.dev m = (s.mem, (d2.msetShow m).mlaw m s.dev.tick) := by
    unfold motionTick
    dsimp only
    rw [hno]
    dsimp only
    have hnot : ¬ (isLocal m = true ∧ s.dev.cells[mspI m].st = 0 ∧ s.dev.mfb m ≠ 2 ∧ s.dev.mayRun (mspI m) = true) := fun h => hst0 h.2.1
    have hr : ¬¬ runState s.dev.cells[mspI m].st = true := not_not.mpr hrun
    rw [if_neg (not_not.mpr hm), if_neg hnot, if_neg hr, hsrc, if_neg Bool.false_ne_true, hadv, hrange, hstep]
    dsimp only
    rw [if_pos (.inl (by rw [Dev.mpos, Dev.mpos, hg2]))]
  have hshow : d2.msetShow m = (d2.mput m R.MSP_SETP (wi (p.start + k * x.1).floor)).mstat m 4 true := by
    unfold Dev.msetShow
    dsimp only
    rw [hs2]
    rfl
  obtain ⟨d3, hd3⟩ : ∃ y, y = (d2.mput m R.MSP_SETP (wi (p.start + k * x.1).floor)).mstat m 4 true := ⟨_, rfl⟩
  have hm3 : d3.msps = d2.msps := by rw [hd3]; rfl
  have hc3 : d3.cells = s.dev.cells := by rw [hd3]; exact hc2
  have hg3 : ∀ q : Reg, mreg q → q.off ≠ R.MSP_SETP.off → q.off ≠ R.MSP_STAT.off → d3.mget m q = s.dev.mget m q := fun q hq h1 h2 => by
    rw [hd3, Dev.mget_mstat_ne _ m _ _ (mreg_ne hq (by decide) h2 m), Dev.mget_mput_ne _ m _ (mreg_ne hq (by decide) h1 m), hg2]
  have hsetp : d3.mget m R.MSP_SETP = wi (p.start + k * x.1).floor := by
    rw [hd3, Dev.mget_mstat_ne _ m _ _ (mreg_ne (by decide) (by decide) (by decide) m), Dev.mget_mput_same]
  have hmov : bit (d3.mget m R.MSP_STAT) 4 = true := by
    rw [hd3]
    exact Dev.mget_mstat_same _ m true (by decide)
  have hF3 : d2.changes [.regs] d3 := by
    rw [hd3]
    exact (d2.put_changes _ _ _ _ _).trans (Dev.put_changes _ _ _ _ _ _)
  have hlaw : d3.mlaw m s.dev.tick = (d3.cellMod (mspI m) fun c => { c with
      sp := rnd (d3.msps[m].set * 256), spV := rnd (d3.msps[m].vel * 65536), spA := rnd (d3.msps[m].acc * 16777216) }).cellMod (mspI m)
        fun c => { c with kDone := some s.dev.tick, en := runState c.st } := by
    unfold Dev.mlaw
    refine if_pos ?_
    rw [Dev.mdrive, hg3 _ (by decide) (by decide) (by decide)]
    change s.dev.mdrive m < 2
    rw [hdr]
    decide
  rw [hshow, ← hd3, hlaw] at htick
  have hexec : exec (.motionTick m) s = .next { s with dev := ((d3.cellMod (mspI m) fun c => { c with
      sp := rnd (d3.msps[m].set * 256), spV := rnd (d3.msps[m].vel * 65536), spA := rnd (d3.msps[m].acc * 16777216) }).cellMod (mspI m)
        fun c => { c with kDone := some s.dev.tick, en := runState c.st }) } := by
    change execMotionTick m s = _
    unfold execMotionTick
    rw [onLiveMem_next _ _ hlive]
    simp only [htick]
  clear hd3 hlaw htick hstep hadv
  have hset : d3.msps[m].set = p.start + k * x.1 := by rw [hm3, hs2]
  rw [hset] at hexec
  have h4 := Dev.cellMod_same d3 (mspI m) fun c => { c with
      sp := rnd ((p.start + k * x.1) * 256), spV := rnd (d3.msps[m].vel * 65536), spA := rnd (d3.msps[m].acc * 16777216) }
  have h5 := fun i (hi : i ≠ mspI m) => Dev.cellMod_ne d3 (i := mspI m) (fun c => { c with
      sp := rnd ((p.start + k * x.1) * 256), spV := rnd (d3.msps[m].vel * 65536), spA := rnd (d3.msps[m].acc * 16777216) }) hi
  have hF4 : d3.changes [.cells] (d3.cellMod (mspI m) fun c => { c with
      sp := rnd ((p.start + k * x.1) * 256), spV := rnd (d3.msps[m].vel * 65536), spA := rnd (d3.msps[m].acc * 16777216) }) := rfl
  generalize (d3.cellMod (mspI m) fun c => { c with
      sp := rnd ((p.start + k * x.1) * 256), spV := rnd (d3.msps[m].vel * 65536), spA := rnd (d3.msps[m].acc * 16777216) }) = d4 at hexec h4 h5 hF4
  have h6 := Dev.cellMod_same d4 (mspI m) fun c => { c with kDone := some s.dev.tick, en := runState c.st }
  have h7 := fun i (hi : i ≠ mspI m) => Dev.cellMod_ne d4 (i := mspI m) (fun c => { c with kDone := some s.dev.tick, en := runState c.st }) hi
  have hF5 : d4.changes [.cells] (d4.cellMod (mspI m) fun c => { c with kDone := some s.dev.tick, en := runState c.st }) := rfl
  generalize (d4.cellMod (mspI m) fun c => { c with kDone := some s.dev.tick, en := runState c.st }) = e at hexec h6 h7 hF5
  have hre : e.regs = d3.regs := (show e.regs = d4.regs from hF5.get Dev.regs).trans (hF4.get Dev.regs)
  have hge : ∀ q : Reg, e.mget m q = d3.mget m q := fun q => Dev.get_of_regs _ _ _ _ (by rw [hre])
  have hF : d2.changes [.regs, .cells] e := (hF3.mono (by decide)).trans ((hF4.mono (by decide)).trans (hF5.mono (by decide)))
  have he : e = { d2 with regs := e.regs, cells := e.cells } := congrArg (fun y : Dev => { y with regs := e.regs, cells := e.cells }) hF
  refine ⟨e, hexec, ?_, ?_, ?_, ?_, ?_, fun i hi => ?_⟩
  · rw [he, hd2]
    rfl
  · rw [hge]
    exact hsetp
  · rw [hge]
    exact hmov
  · rw [h6]
  · rw [h6, h4]
  · rw [h7 i hi, h5 i hi, hc3]

/-! Decoders (R335, R337). -/

/-- Levels of a port are shown (R334). -/
theorem Dev.portIn_spec (d : Dev) (p : Fin 16) (hi lo n : Nat) :
    d.changes [.regs] (d.portIn p hi lo n) ∧ ∀ q : Reg, mreg q → (d.portIn p hi lo n).mget (portM p) q = d.mget (portM p) q := by
  refine ⟨d.put_changes _ _ _ _ _, fun q hq => Dev.get_put_ne _ _ _ _ _ _ _ _ _ _ (radr_ne_of_blk _ _ _ _ _ _ _ _ (mpg_ne_msp p).symm (mreg_lt hq _) ?_)⟩
  change 0x110 + 0x20 * (p.val % 4) + 0 * 0 < 0x1000
  omega

theorem Dev.changes.mspRegs {d e : Dev} (h : d.changes [.regs, .msps] e) : e = { d with regs := e.regs, msps := e.msps } :=
  congrArg (fun x : Dev => { x with regs := e.regs, msps := e.msps }) h

/-- A quadrature step (R335). -/
theorem quadratureEdge_counts (p : Fin 16) (a b : Bool) (step : Int) (hlive : s.dev.dead = false) (hon : s.dev.mpgOn (portM p) = true)
    (hm : s.dev.mlive (portM p) = true) (hfb : s.dev.mfb (portM p) = 1) (hcmp : bit (s.dev.mget (portM p) R.MSP_CMP_CTL) 0 = false) :
    let la := a != bit (s.dev.portPol p) 11
    let lb := b != bit (s.dev.portPol p) 12
    ((quadPhase la lb + 4 - quadPhase s.dev.msps[portM p].quad.1 s.dev.msps[portM p].quad.2) % 4, step) ∈ [(1, 1), (3, -1)] → ∃ d',
    exec (.quadratureEdge p a b) s = .next { s with dev := d' } ∧
    d' = { s.dev with regs := d'.regs, msps := d'.msps } ∧
    d'.mget (portM p) R.MSP_POS = wi (s.dev.mpos (portM p) + step) ∧ d'.msps[portM p].quad = (la, lb) ∧
    d'.msps[portM p].winNet = s.dev.msps[portM p].winNet + step ∧
    ∀ k : Fin 64, k ≠ portM p → d'.msps[k] = s.dev.msps[k] := by
  intro la lb hstep
  obtain ⟨hc0, hg0⟩ := s.dev.portIn_spec p 4 3 (la.toNat + 2 * lb.toNat)
  have hm0 : (s.dev.portIn p 4 3 (la.toNat + 2 * lb.toNat)).msps = s.dev.msps := rfl
  obtain ⟨d1, hd1⟩ : ∃ x, x = (s.dev.portIn p 4 3 (la.toNat + 2 * lb.toNat)).mspMod (portM p) fun x => { x with quad := (la, lb) } := ⟨_, rfl⟩
  have hg1 : ∀ q : Reg, mreg q → d1.mget (portM p) q = s.dev.mget (portM p) q := fun q hq => by
    rw [hd1]
    exact hg0 q hq
  have hs1 : d1.msps[portM p] = { s.dev.msps[portM p] with quad := (la, lb) } := by
    rw [hd1]
    exact vmod_same s.dev.msps _ _
  have ho1 : ∀ k : Fin 64, k ≠ portM p → d1.msps[k] = s.dev.msps[k] := fun k hk => by
    rw [hd1]
    exact vmod_ne s.dev.msps _ hk
  have hc1 : s.dev.changes [.regs, .msps] d1 := by
    rw [hd1]
    exact hc0.mono (by decide)
  have hmove := posMove_off d1 (portM p) s.mem step (by rw [hg1 _ (by decide)]; exact hcmp)
  have hpos : d1.mpos (portM p) = s.dev.mpos (portM p) := by rw [Dev.mpos, Dev.mpos, hg1 _ (by decide)]
  rw [hpos] at hmove
  have hquad : quadIn s.mem s.dev p la lb = posMove s.mem d1 (portM p) step := by
    have hnot : ¬ (s.dev.mfb (portM p) ≠ 1 ∨ ¬ s.dev.mlive (portM p) = true) := by
      rintro (h | h)
      · exact h hfb
      · exact h hm
    unfold quadIn
    dsimp only
    rw [if_neg hnot, ← hd1]
    simp only [List.mem_cons, List.not_mem_nil, or_false, Prod.mk.injEq] at hstep
    rcases hstep with ⟨h, rfl⟩ | ⟨h, rfl⟩
    · rw [h]
      rfl
    · rw [h]
      rfl
  have hexec : exec (.quadratureEdge p a b) s = .next { s with dev := ((d1.setMpos (portM p) (s.dev.mpos (portM p) + step)).medges (portM p) step) } := by
    change execQuadratureEdge p a b s = _
    unfold execQuadratureEdge
    rw [onLiveMem_next _ _ hlive]
    simp only [if_neg (not_not.mpr hon)]
    rw [hquad, hmove]
  obtain ⟨h1, h2, -, ⟨we, ea, pe, h4⟩, h5⟩ := d1.counted_spec (portM p) (s.dev.mpos (portM p) + step) step
  generalize (d1.setMpos (portM p) (s.dev.mpos (portM p) + step)).medges (portM p) step = e at hexec h1 h2 h4 h5
  refine ⟨e, hexec, (hc1.trans h1).mspRegs, h2, ?_, ?_, fun k hk => (h5 k hk).trans (ho1 k hk)⟩
  · rw [h4, hs1]
  · rw [h4, hs1]

/-- A hall step (R337). -/
theorem hallChange_counts (p : Fin 16) (h : BitVec 3) (step : Int) (hlive : s.dev.dead = false) (hon : s.dev.mpgOn (portM p) = true)
    (hm : s.dev.mlive (portM p) = true) (hfb : s.dev.mfb (portM p) = 3) (hcmp : bit (s.dev.mget (portM p) R.MSP_CMP_CTL) 0 = false) :
    let code := (h ^^^ (s.dev.portPol p).extractLsb' 8 3).toNat
    hallStep s.dev.msps[portM p].hall code = some step → ∃ d',
    exec (.hallChange p h) s = .next { s with dev := d' } ∧ d' = { s.dev with regs := d'.regs, msps := d'.msps } ∧
    d'.mget (portM p) R.MSP_POS = wi (s.dev.mpos (portM p) + step) ∧ d'.msps[portM p].hall = code ∧
    fld (d'.mget (portM p) R.MSP_STAT) 14 12 = code ∧
    ∀ k : Fin 64, k ≠ portM p → d'.msps[k] = s.dev.msps[k] := by
  intro code hstep
  have hcode : code < 8 := BitVec.isLt _
  have hne : s.dev.msps[portM p].hall ≠ code := fun he => by
    rw [he] at hstep
    revert hstep
    rw [show hallStep code code = none from (by decide : ∀ c : Fin 8, hallStep c.val c.val = none) ⟨code, hcode⟩]
    exact fun h => nomatch h
  obtain ⟨hc0, hg0⟩ := s.dev.portIn_spec p 2 0 code
  obtain ⟨d1, hd1⟩ : ∃ x, x = (s.dev.portIn p 2 0 code).mspMod (portM p) fun x => { x with hall := code } := ⟨_, rfl⟩
  obtain ⟨d2, hd2⟩ : ∃ x, x = d1.putF (mspB (portM p)) R.MSP_STAT 14 12 code (mspC (portM p)) := ⟨_, rfl⟩
  have hg2 : ∀ q : Reg, mreg q → q.off ≠ R.MSP_STAT.off → d2.mget (portM p) q = s.dev.mget (portM p) q := fun q hq hne => by
    rw [hd2]
    refine (Dev.get_put_ne _ _ _ _ _ _ _ _ _ _ (mreg_ne hq (by decide) hne _)).trans ?_
    rw [hd1]
    exact hg0 q hq
  have hst2 : fld (d2.mget (portM p) R.MSP_STAT) 14 12 = code := by
    rw [hd2]
    exact (Dev.getF_putF_same _ _ _ _ _ _ (by decide) (by decide)).trans (Nat.mod_eq_of_lt hcode)
  have hs2 : d2.msps[portM p] = { s.dev.msps[portM p] with hall := code } := by
    rw [hd2, hd1]
    exact vmod_same s.dev.msps _ _
  have ho2 : ∀ k : Fin 64, k ≠ portM p → d2.msps[k] = s.dev.msps[k] := fun k hk => by
    rw [hd2, hd1]
    exact vmod_ne s.dev.msps _ hk
  have hc2 : s.dev.changes [.regs, .msps] d2 := by
    rw [hd2]
    refine Dev.changes.trans (e := d1) ?_ ((d1.put_changes _ _ _ _ _).mono (by decide))
    rw [hd1]
    exact hc0.mono (by decide)
  have hmove := posMove_off d2 (portM p) s.mem step (by rw [hg2 _ (by decide) (by decide)]; exact hcmp)
  have hpos : d2.mpos (portM p) = s.dev.mpos (portM p) := by rw [Dev.mpos, Dev.mpos, hg2 _ (by decide) (by decide)]
  rw [hpos] at hmove
  have hfb1 : d1.mfb (portM p) = 3 := by
    rw [Dev.mfb, hd1]
    change fld ((s.dev.portIn p 2 0 code).mget (portM p) R.MSP_CFG) 5 4 = 3
    rw [hg0 _ (by decide)]
    exact hfb
  have hhall : hallIn s.mem s.dev p code = posMove s.mem d2 (portM p) step := by
    unfold hallIn
    dsimp only
    rw [if_neg hne, if_neg (not_not.mpr hm), hstep]
    dsimp only
    rw [if_pos hfb, hd2, hd1]
  have hexec : exec (.hallChange p h) s = .next { s with dev := ((d2.setMpos (portM p) (s.dev.mpos (portM p) + step)).medges (portM p) step) } := by
    change execHallChange p h s = _
    unfold execHallChange
    rw [onLiveMem_next _ _ hlive]
    simp only [if_neg (not_not.mpr hon)]
    rw [hhall, hmove]
  obtain ⟨h1, h2, h3, ⟨we, ea, pe, h4⟩, h5⟩ := d2.counted_spec (portM p) (s.dev.mpos (portM p) + step) step
  generalize (d2.setMpos (portM p) (s.dev.mpos (portM p) + step)).medges (portM p) step = e at hexec h1 h2 h3 h4 h5
  refine ⟨e, hexec, (hc2.trans h1).mspRegs, h2, ?_, h3.trans hst2, fun k hk => (h5 k hk).trans (ho2 k hk)⟩
  rw [h4, hs2]

/-- An index edge (R335). -/
theorem indexEdge_latches (m : Fin 64) (latched : Int) (hlive : s.dev.dead = false) (hm : s.dev.mlive m = true) (hh : s.dev.msps[m].home = none)
    (hloc : isLocal m = true → s.dev.mfb m = 1 ∧ bit (s.dev.mget m R.MSP_IN_CFG) 12 = false) : ∃ d',
    exec (.indexEdge m latched) s = .next { s with dev := d' } ∧ d' = { s.dev with regs := d'.regs } ∧
    d'.mget m R.MSP_LATCH = wi (if isLocal m then s.dev.mpos m else latched) ∧
    s.dev.regsKept d' fun a => a = radr (mspB m) R.MSP_LATCH (mspC m) := by
  have hedge : ∀ v, s.dev.indexEdge m v = s.dev.mput m R.MSP_LATCH (wi v) := fun v => by
    unfold Dev.indexEdge
    refine if_neg fun h => ?_
    have h1 : s.dev.msps[m].home.isSome = true := h.1
    rw [hh] at h1
    exact absurd h1 (by decide)
  refine ⟨s.dev.mput m R.MSP_LATCH (wi (if isLocal m then s.dev.mpos m else latched)), ?_, rfl, s.dev.mget_mput_same m _ _, s.dev.mput_kept m _ _ rfl⟩
  change execIndexEdge m latched s = _
  unfold execIndexEdge
  rw [onLive_next _ _ hlive]
  refine congrArg (fun e => Host.Outcome.next { s with dev := e }) ?_
  dsimp only
  rw [Dev.when_of _ _ hm]
  by_cases hl : isLocal m = true
  · obtain ⟨hfb, hq⟩ := hloc hl
    have hcond : (decide (s.dev.mfb m = 1) && (!bit (s.dev.mget m R.MSP_IN_CFG) 12 || (s.dev.msps[m].quad.1 && s.dev.msps[m].quad.2))) = true := by
      rw [decide_eq_true hfb, hq]
      rfl
    rw [if_pos hl, Dev.when_of _ _ hcond, hedge, if_pos hl]
  · rw [if_neg hl, hedge, if_neg hl]

/-- A step pulse (R352). -/
theorem stepInput_moves (p : Fin 16) (up : Bool) (hlive : s.dev.dead = false) (hon : s.dev.mpgOn (portM p) = true)
    (hm : s.dev.mlive (portM p) = true) (hsrc : s.dev.mstepSrc (portM p) = true) :
    let size : Rat := ((fld (s.dev.mget (portM p) R.MSP_STEPIN) 15 0 : Nat) : Rat)
    ∃ d', exec (.stepInput p up) s = .next { s with dev := d' } ∧
      d' = { s.dev with regs := d'.regs, msps := d'.msps } ∧
      d'.msps[portM p].q = s.dev.msps[portM p].q + (if up != bit (s.dev.portPol p) 12 then size else -size) ∧
      d'.msps[portM p].set = s.dev.msps[portM p].q ∧ d'.msps[portM p].left = 256 ∧
      (∀ k : Fin 64, k ≠ portM p → d'.msps[k] = s.dev.msps[k]) ∧
      s.dev.regsKept d' fun a => a = radr (mspB (portM p)) R.MSP_MISC (mspC (portM p)) := by
  intro size
  have hcond : (s.dev.mpgOn (portM p) && s.dev.mlive (portM p) && s.dev.mstepSrc (portM p)) = true := by rw [hon, hm, hsrc]; rfl
  have hdef : ∃ d1 : Dev, (d1 = s.dev ∨ d1 = s.dev.bumpF (mspB (portM p)) R.MSP_MISC 31 24 1 (mspC (portM p))) ∧ ∃ st per,
      exec (.stepInput p up) s = .next { s with dev := (d1.mspMod (portM p) fun y => { y with
        set := y.q, q := y.q + (if (up != bit (s.dev.portPol p) 12) = true then size else -size)
        micro := if (up != bit (s.dev.portPol p) 12) = true then size else -size, left := 256, stepAt := st, stepPer := per }) } := by
    refine ⟨if ((s.dev.stepAdvance (portM p)).msps[portM p]).left = 0 then s.dev else
      s.dev.bumpF (mspB (portM p)) R.MSP_MISC 31 24 1 (mspC (portM p)), ?_, ?_⟩
    · split
      · exact .inl rfl
      · exact .inr rfl
    · refine ⟨some (s.dev.now, up != bit (s.dev.portPol p) 12),
        some (match ((s.dev.stepAdvance (portM p)).msps[portM p]).stepAt with
          | some (t, u) =>
            if u = (up != bit (s.dev.portPol p) 12) ∧ ¬ s.dev.past t (s.dev.mget (portM p) R.MSP_STILL_US).toNat then s.dev.now - t
            else fld (s.dev.mget (portM p) R.MSP_STEPIN) 31 16 * 800
          | none => fld (s.dev.mget (portM p) R.MSP_STEPIN) 31 16 * 800), ?_⟩
      change execStepInput p up s = _
      unfold execStepInput
      rw [onLive_next _ _ hlive]
      exact congrArg (fun e => Host.Outcome.next { s with dev := e }) (Dev.when_of _ _ hcond)
  obtain ⟨d1, hd1, st, per, hexec⟩ := hdef
  have h1 : d1.msps = s.dev.msps ∧ s.dev.changes [.regs, .msps] d1 ∧
      s.dev.regsKept d1 fun a => a = radr (mspB (portM p)) R.MSP_MISC (mspC (portM p)) := by
    rcases hd1 with rfl | rfl
    · exact ⟨rfl, .refl _ _, s.dev.regsKept_refl _⟩
    · exact ⟨rfl, (s.dev.put_changes _ _ _ _ _).mono (by decide), s.dev.regsKept_putF _ _ _ _ _ _ _ rfl⟩
  obtain ⟨hm1, hc1, hk1⟩ := h1
  obtain ⟨f, hf⟩ : ∃ f : Msp → Msp, f = fun y => { y with
        set := y.q, q := y.q + (if (up != bit (s.dev.portPol p) 12) = true then size else -size)
        micro := if (up != bit (s.dev.portPol p) 12) = true then size else -size, left := 256, stepAt := st, stepPer := per } := ⟨_, rfl⟩
  rw [← hf] at hexec
  have h2 := d1.mspMod_same (portM p) f
  have h3 := fun k (hk : k ≠ portM p) => d1.mspMod_ne (portM p) f hk
  have hc2 : d1.changes [.regs, .msps] (d1.mspMod (portM p) f) := rfl
  have hr2 : (d1.mspMod (portM p) f).regs = d1.regs := rfl
  generalize d1.mspMod (portM p) f = e at hexec h2 h3 hc2 hr2
  rw [hm1, hf] at h2
  refine ⟨e, hexec, (hc1.trans hc2).mspRegs, ?_, ?_, ?_, fun k hk => (h3 k hk).trans (by rw [hm1]), fun a ha => by rw [hr2]; exact hk1 a ha⟩
  · rw [h2]
  · rw [h2]
  · rw [h2]

/-! Speed (R338 to R340) and pulses (R351). -/

theorem speedWindowEnd_spec (m : Fin 64) (hlive : s.dev.dead = false) (hm : s.dev.mlive m = true) :
    let win := max 1 (fld (s.dev.mget m R.MSP_SPD_CFG) 15 0)
    s.dev.past s.dev.msps[m].winStart win = true → ∃ d',
    exec (.speedWindowEnd m) s = .next { s with dev := d' } ∧
    d' = { s.dev with
      regs := d'.regs
      msps := s.dev.msps.set m { s.dev.msps[m] with winEdges := 0, winNet := 0, winStart := s.dev.now } } ∧
    d'.mget m R.MSP_SPEED = wi ((s.dev.msps[m].winNet * 1000000).tdiv (win : Int)) ∧
    s.dev.regsKept d' fun a => a = radr (mspB m) R.MSP_SPEED (mspC m) ∨ a = radr (mspB m) R.MSP_STAT (mspC m) := by
  intro win hp
  have hcond : (s.dev.mlive m && s.dev.past s.dev.msps[m].winStart win) = true := by rw [hm, hp]; rfl
  have hexec : ∃ mode, exec (.speedWindowEnd m) s = .next { s with dev := (((s.dev.mput m R.MSP_SPEED
      (wi ((s.dev.msps[m].winNet * 1000000).tdiv (win : Int)))).mstat m 6 mode).mspMod m fun x =>
      { x with winEdges := 0, winNet := 0, winStart := s.dev.now }) } := by
    refine ⟨decide (s.dev.mfb m = 2) || (if bit (s.dev.mget m R.MSP_STAT) 6 then
      !decide (s.dev.msps[m].winEdges ≤ fld (s.dev.mget m R.MSP_SPD_CFG) 23 16) else
      decide (fld (s.dev.mget m R.MSP_SPD_CFG) 31 24 ≤ s.dev.msps[m].winEdges)), ?_⟩
    change execSpeedWindowEnd m s = _
    unfold execSpeedWindowEnd
    rw [onLive_next _ _ hlive]
    exact congrArg (fun e => Host.Outcome.next { s with dev := e }) (Dev.when_of _ _ hcond)
  obtain ⟨mode, hexec⟩ := hexec
  refine ⟨_, hexec, rfl, ?_, ?_⟩
  · refine (Dev.mget_mstat_ne (s.dev.mput m R.MSP_SPEED (wi ((s.dev.msps[m].winNet * 1000000).tdiv (win : Int)))) m 6 mode
      (mreg_ne (r := R.MSP_SPEED) (by decide) (by decide) (by decide) m)).trans ?_
    exact s.dev.mget_mput_same m _ _
  · have h1 := s.dev.mput_kept m R.MSP_SPEED (wi ((s.dev.msps[m].winNet * 1000000).tdiv (win : Int)))
      (p := fun a => a = radr (mspB m) R.MSP_SPEED (mspC m) ∨ a = radr (mspB m) R.MSP_STAT (mspC m)) (.inl rfl)
    exact h1.trans (Dev.mstat_kept _ m 6 mode (.inr rfl))

theorem standstill_spec (m : Fin 64) (t : Nat) (u : Bool) (hlive : s.dev.dead = false) (hm : s.dev.mlive m = true)
    (he : s.dev.msps[m].edgeAt = some (t, u)) (hp : s.dev.past t (s.dev.mget m R.MSP_STILL_US).toNat = true) : ∃ d',
    exec (.standstill m) s = .next { s with dev := d' } ∧
    d' = { s.dev with
      regs := d'.regs, msps := s.dev.msps.set m { s.dev.msps[m] with edgeAt := none, period := none } } ∧
    d'.mget m R.MSP_SPEED = 0 ∧ bit (d'.mget m R.MSP_STAT) 5 = true := by
  have hcond : (s.dev.mlive m && s.dev.past t (s.dev.mget m R.MSP_STILL_US).toNat) = true := by rw [hm, hp]; rfl
  refine ⟨((s.dev.mspMod m fun x => { x with edgeAt := none, period := none }).mput m R.MSP_SPEED 0).mstat m 5 true, ?_, rfl, ?_,
    Dev.mget_mstat_same _ m true (by decide)⟩
  · change execStandstill m s = _
    unfold execStandstill
    rw [onLive_next _ _ hlive, he]
    exact congrArg (fun e => Host.Outcome.next { s with dev := e }) (Dev.when_of _ _ hcond)
  · rw [Dev.mget_mstat_ne _ m _ _ (mreg_ne (by decide) (by decide) (by decide) m), Dev.mget_mput_same]

theorem exec_comparePulseEnd (m : Fin 64) (hlive : s.dev.dead = false) (hp : s.dev.msps[m].pulseAt.isSome = true) (hn : s.dev.pulsing m = false) :
    exec (.comparePulseEnd m) s = .next { s with dev := s.dev.mspMod m fun x => { x with pulseAt := none } } := by
  have hcond : (s.dev.msps[m].pulseAt.isSome && !s.dev.pulsing m) = true := by rw [hp, hn]; rfl
  change execComparePulseEnd m s = _
  unfold execComparePulseEnd
  rw [onLive_next _ _ hlive]
  exact congrArg (fun e => Host.Outcome.next { s with dev := e }) (Dev.when_of _ _ hcond)

end

end Sys2Proof.Machine
end

section
/-! BiSS-C frames (R333, R336), and the positions of machine spindles. -/

namespace Sys2Proof.Machine

section
variable (d : Dev) (n : Fin 64)

/-- A good position is the last raw position, and fires nothing without compare enabled (R336). -/
theorem bissPos_spec (x : Mem) (bits pos : Nat) (h : bit (d.mget n R.MSP_CMP_CTL) 0 = false) :
    (bissPos x d n bits pos).1 = x ∧ d.changes [.regs, .msps] (bissPos x d n bits pos).2 ∧
    (bissPos x d n bits pos).2.msps[n].raw = some ((pos % 2 ^ bits : Nat) : Int) := by
  unfold bissPos
  extract_lets y p abs st d1
  have hs1 : d1.msps[n] = { d.msps[n] with raw := some (p : Int) } := vmod_same d.msps n _
  have hg1 : ∀ q : Reg, d1.mget n q = d.mget n q := fun _ => rfl
  have hc1 : d.changes [.regs, .msps] d1 := rfl
  have hcast : ((pos % 2 ^ bits : Nat) : Int) = (p : Int) := rfl
  rw [hcast]
  clear_value d1 p
  split
  · obtain ⟨d2, hd2⟩ : ∃ z, z = ((d1.mspMod n fun y => { y with fresh := false }).setMpos n
      (sgn 32 (p % 2 ^ 32) + (d.mget n R.MSP_HOME_OFS).toInt)).mstat n 3 true := ⟨_, rfl⟩
    have hcmp : bit (d2.mget n R.MSP_CMP_CTL) 0 = false := by
      rw [hd2, Dev.mget_mstat_ne _ n _ _ (mreg_ne (by decide) (by decide) (by decide) n), Dev.setMpos,
        Dev.mget_mput_ne _ n _ (mreg_ne (by decide) (by decide) (by decide) n)]
      exact (congrArg (bit · 0) (hg1 R.MSP_CMP_CTL)).trans h
    have hs2 : d2.msps[n] = { d1.msps[n] with fresh := false } := by
      rw [hd2]
      exact vmod_same d1.msps n _
    have hc2 : d1.changes [.regs, .msps] d2 := by
      rw [hd2]
      exact ((Dev.changes.mono (F := [.msps]) rfl (by decide)).trans ((Dev.put_changes _ _ _ _ _ _).mono (by decide))).trans
        ((Dev.put_changes _ _ _ _ _ _).mono (by decide))
    rw [← hd2, cmpSample_off d2 n x hcmp]
    exact ⟨rfl, hc1.trans hc2, by rw [hs2, hs1]⟩
  · cases y.raw with
    | none => exact ⟨rfl, hc1, by rw [hs1]⟩
    | some r =>
      dsimp only
      rw [posMove_off d1 n x _ (by rw [hg1]; exact h)]
      obtain ⟨h1, -, -, ⟨we, ea, pe, h4⟩, -⟩ := d1.counted_spec n (d1.mpos n + sgn bits (uns bits ((p : Int) - r)))
        (sgn bits (uns bits ((p : Int) - r)))
      exact ⟨rfl, hc1.trans h1, by rw [h4, hs1]⟩

end

theorem Dev.changes.cellParts {d e : Dev} (h : d.changes [.regs, .vecs, .fabric, .cells, .tunes, .msps] e) : e = { d with
    regs := e.regs, vecs := e.vecs, fabric := e.fabric, cells := e.cells, tunes := e.tunes, msps := e.msps } :=
  congrArg (fun x : Dev => { x with
    regs := e.regs, vecs := e.vecs, fabric := e.fabric, cells := e.cells, tunes := e.tunes, msps := e.msps }) h

section
variable (s : State) (p : Fin 16) (f : BissFrame) (hlive : s.dev.dead = false) (hon : s.dev.mpgOn (portM p) = true)
  (hm : s.dev.mlive (portM p) = true) (hfb : s.dev.mfb (portM p) = 2)
include hlive hon hm hfb

/-- A failed frame counts, and its sample is bad (R333). -/
theorem bissFrame_bad (hbad : ¬ (f.startOk && f.crcOk && f.nE) = true) :
    let b := fld (s.dev.mget (portM p) R.MSP_CFG) 7 7
    ∃ d', exec (.bissFrame p f) s = .next { s with dev := d' } ∧ s.dev.changes [.regs, .vecs, .fabric, .cells, .tunes, .msps] d' ∧
      d'.getF (mpgB (portM p)) R.MPG_BISS_STAT 31 16 b = min 0xFFFF (s.dev.getF (mpgB (portM p)) R.MPG_BISS_STAT 31 16 b + 1) := by
  intro b
  obtain ⟨d1, hd1⟩ : ∃ x, x = s.dev.bumpF (mpgB (portM p)) R.MPG_BISS_STAT 31 16 1 b := ⟨_, rfl⟩
  have hexec : exec (.bissFrame p f) s = .next { s with dev := d1.classify (mspI (portM p)) s.dev.tick false } := by
    have hnot : ¬ (¬ s.dev.mpgOn (portM p) = true ∨ ¬ s.dev.mlive (portM p) = true ∨ s.dev.mfb (portM p) ≠ 2) := by
      rintro (h | h | h)
      · exact h hon
      · exact h hm
      · exact h hfb
    change execBissFrame p f s = _
    unfold execBissFrame
    rw [onLiveMem_next _ _ hlive]
    dsimp only
    rw [if_neg hnot, if_pos hbad, hd1]
  have hc1 : s.dev.changes [.regs] d1 := by
    rw [hd1]
    exact s.dev.put_changes _ _ _ _ _
  have hn1 : d1.getF (mpgB (portM p)) R.MPG_BISS_STAT 31 16 b = min 0xFFFF (s.dev.getF (mpgB (portM p)) R.MPG_BISS_STAT 31 16 b + 1) := by
    rw [hd1, Dev.bumpF]
    exact (Dev.getF_putF_same _ _ _ _ _ _ (by decide) (by decide)).trans (Nat.mod_eq_of_lt (Nat.lt_of_le_of_lt (Nat.min_le_left _ _) (by decide)))
  clear hd1
  have hcls := ((Dev.cellWork.refl (mspI (portM p)) d1).classify s.dev.tick false).work
  have hpage := (Dev.aside.refl (w := pageOf (mpgB (portM p))) (F := goneParts) d1).classify (apart_mpg (portM p) (portM_local p)) (mspI (portM p)) s.dev.tick false
  generalize d1.classify (mspI (portM p)) s.dev.tick false = e at hexec hcls hpage
  refine ⟨e, hexec, (hc1.mono (by decide)).trans hcls, ?_⟩
  have hb : b < 2 := fld_lt _ 7 7
  refine (congrArg (fun w => fld w 31 16) (hpage.page R.MPG_BISS_STAT b 0 ?_)).trans hn1
  change 0x204 + 8 * b + 0 * 0 < 0x1000
  omega

/-- A good frame is taken (R336). -/
theorem bissFrame_good (hcmp : bit (s.dev.mget (portM p) R.MSP_CMP_CTL) 0 = false) (hok : (f.startOk && f.crcOk && f.nE) = true) :
    let b := fld (s.dev.mget (portM p) R.MSP_CFG) 7 7
    ∃ d', exec (.bissFrame p f) s = .next { s with dev := d' } ∧ s.dev.changes [.regs, .vecs, .fabric, .cells, .tunes, .msps] d' ∧
      d'.msps[portM p].raw = some ((f.pos % 2 ^ s.dev.getF (mpgB (portM p)) R.MPG_BISS 5 0 b : Nat) : Int) ∧
      d'.msps[portM p].bissBad = !f.nW := by
  intro b
  obtain ⟨hm0, hc0, hr0⟩ := bissPos_spec s.dev (portM p) s.mem (s.dev.getF (mpgB (portM p)) R.MPG_BISS 5 0 b) f.pos hcmp
  obtain ⟨r, hr⟩ : ∃ r, r = bissPos s.mem s.dev (portM p) (s.dev.getF (mpgB (portM p)) R.MPG_BISS 5 0 b) f.pos := ⟨_, rfl⟩
  rw [← hr] at hm0 hc0 hr0
  obtain ⟨d1, hd1⟩ : ∃ x, x = r.2.cellMod (mspI (portM p)) fun c =>
    { c with newest := some (s.dev.tick, r.2.decodePos (mspI (portM p)) (r.2.mpos (portM p))) } := ⟨_, rfl⟩
  obtain ⟨d2, hd2⟩ : ∃ x, x = d1.classify (mspI (portM p)) s.dev.tick true := ⟨_, rfl⟩
  obtain ⟨d3, hd3⟩ : ∃ x, x = if ¬ f.nW = true ∧ ¬ s.dev.msps[portM p].bissBad = true then d2.mfault (portM p) 3 else d2 := ⟨_, rfl⟩
  have hexec : exec (.bissFrame p f) s = .next { s with dev := (d3.mspMod (portM p) fun x => { x with
      bissBad := !f.nW, fresh := x.fresh && decide (r.2.cells[mspI (portM p)].st ≠ 0) }) } := by
    have hnot : ¬ (¬ s.dev.mpgOn (portM p) = true ∨ ¬ s.dev.mlive (portM p) = true ∨ s.dev.mfb (portM p) ≠ 2) := by
      rintro (h | h | h)
      · exact h hon
      · exact h hm
      · exact h hfb
    change execBissFrame p f s = _
    unfold execBissFrame
    rw [onLiveMem_next _ _ hlive]
    dsimp only
    rw [if_neg hnot, if_neg (not_not.mpr hok), ← hr, hm0, hd3, hd2, hd1]
  have hF1 : r.2.changes [.cells] d1 := by rw [hd1]; rfl
  have hF2 : d1.changes [.regs, .vecs, .fabric, .cells, .tunes, .msps] d2 := by
    rw [hd2]
    exact ((Dev.cellWork.refl (mspI (portM p)) d1).classify s.dev.tick true).work
  have hF3 : d2.changes [.regs, .vecs, .fabric] d3 := by
    rw [hd3]
    exact .ite (d2.detect_changes _ _ _ _ _ _ _) (.refl _ _)
  have hr1 : r.2.rawKept d1 := by
    rw [hd1]
    exact (Dev.rawKept.refl _).cellMod _ _
  have hr2 : d1.rawKept d2 := by
    rw [hd2]
    exact (Dev.rawKept.refl _).classify _ _ _
  have hm3 : d3.msps = d2.msps := hF3.get Dev.msps
  have hF : s.dev.changes [.regs, .vecs, .fabric, .cells, .tunes, .msps] d3 :=
    (((hc0.mono (by decide)).trans (hF1.mono (by decide))).trans hF2).trans (hF3.mono (by decide))
  have hraw : d3.msps[portM p].raw = some ((f.pos % 2 ^ s.dev.getF (mpgB (portM p)) R.MPG_BISS 5 0 b : Nat) : Int) := by
    rw [hm3, hr2, hr1, hr0]
  clear hd3 hd2 hd1
  have hs := d3.mspMod_same (portM p) fun x => { x with bissBad := !f.nW, fresh := x.fresh && decide (r.2.cells[mspI (portM p)].st ≠ 0) }
  have hF4 : d3.changes [.msps] (d3.mspMod (portM p) fun x => { x with
    bissBad := !f.nW, fresh := x.fresh && decide (r.2.cells[mspI (portM p)].st ≠ 0) }) := rfl
  generalize (d3.mspMod (portM p) fun x => { x with
    bissBad := !f.nW, fresh := x.fresh && decide (r.2.cells[mspI (portM p)].st ≠ 0) }) = e at hexec hs hF4
  refine ⟨e, hexec, hF.trans (hF4.mono (by decide)), ?_, ?_⟩
  · rw [hs]
    exact hraw
  · rw [hs]

end

/-- Settles O45: each count enters the position of its own spindle. -/
theorem positionsAreCounted : Obligations.PositionsAreCounted := by
  unfold Obligations.PositionsAreCounted
  refine ⟨fun s m p hlive hloc hm hk hrun hdr hsrc hh hp ht => motionTick_moves s m hlive hloc hm hk hrun hdr hsrc hh hp ht,
    fun s p a b step hlive hon hm hfb hcmp => quadratureEdge_counts s p a b step hlive hon hm hfb hcmp,
    fun s p h step hlive hon hm hfb hcmp => hallChange_counts s p h step hlive hon hm hfb hcmp,
    fun s m latched hlive hm hh hloc => indexEdge_latches s m latched hlive hm hh hloc,
    fun s p up hlive hon hm hsrc => stepInput_moves s p up hlive hon hm hsrc, fun s p f hlive hon hm hfb hcmp => ?_,
    fun s m hlive hm => speedWindowEnd_spec s m hlive hm,
    fun s m t u hlive hm he hp => standstill_spec s m t u hlive hm he hp,
    fun s m hlive hp hn => exec_comparePulseEnd s m hlive hp hn⟩
  intro b
  by_cases hok : (f.startOk && f.crcOk && f.nE) = true
  · obtain ⟨e, hexec, hc, hraw, hbad⟩ := bissFrame_good s p f hlive hon hm hfb hcmp hok
    refine ⟨e, hexec, hc.cellParts, ?_⟩
    rw [if_pos hok]
    exact ⟨hraw, hbad⟩
  · obtain ⟨e, hexec, hc, hn⟩ := bissFrame_bad s p f hlive hon hm hfb hok
    refine ⟨e, hexec, hc.cellParts, ?_⟩
    rw [if_neg hok]
    exact hn

end Sys2Proof.Machine
end

section
/-! SUPPORT. SDRAM channels: requests, the choice of a command slot and the service of a line (R363 to R372, R378). -/

namespace Sys2Proof.Machine

theorem sdcB_kind (ch : Fin 2) : blkKind (sdcB ch) = some (.sdc, ch.val) := by revert ch; decide
theorem sdcB_ne_hif (ch : Fin 2) : sdcB ch ≠ hif := by revert ch; decide
theorem sdcB_ne_fltc (ch : Fin 2) : sdcB ch ≠ fltc := by revert ch; decide

section
variable (d : Dev) (ch : Fin 2)

theorem Dev.sdcMod_same (f : Sdc → Sdc) : (d.sdcMod ch f).sdc[ch] = f d.sdc[ch] := vmod_same d.sdc ch f

variable {ch} in
theorem Dev.sdcMod_ne {k : Fin 2} (f : Sdc → Sdc) (h : k ≠ ch) : (d.sdcMod ch f).sdc[k] = d.sdc[k] := vmod_ne d.sdc f h

theorem Dev.sdcMod_sdcMod (f g : Sdc → Sdc) : (d.sdcMod ch f).sdcMod ch g = d.sdcMod ch fun c => g (f c) :=
  congrArg (fun v => { d with sdc := v }) (vmod_vmod d.sdc ch f g)

/-! Waiting transactions (R378). -/

theorem letIn_single {l : List Flight} {x : Flight} (h : roomFor l x = true) : letIn l [x] = (l ++ [x], []) := by
  unfold letIn
  rw [if_pos h]
  rfl

theorem letIn_full {l : List Flight} (h : l.length = 512) (w : List Flight) : letIn l w = (l, w) := by
  induction w with
  | nil => rfl
  | cons x t ih =>
    unfold letIn
    have hno : ¬ roomFor l x = true := by
      simp [roomFor, h]
    rw [if_neg hno, ih]

theorem roomFor_small {l : List Flight} {x : Flight} (h : l.length < 512) (hp : x.panic = true ∨ l.length < 448) : roomFor l x = true := by
  have hc := List.countP_le_length (p := fun y : Flight => !y.panic) (l := l)
  unfold roomFor
  simp only [Bool.and_eq_true, Bool.or_eq_true, decide_eq_true_eq]
  exact ⟨h, hp.imp_right (Nat.lt_of_le_of_lt hc)⟩

/-- SDC_INFLIGHT shows how many are in flight, and their peak (R388). -/
theorem Dev.flightShow_spec (h : d.sdc[ch].flight.length ≤ 512) :
    let e := d.flightShow ch
    e = { d with regs := e.regs } ∧ e.getF (sdcB ch) R.SDC_INFLIGHT 9 0 = d.sdc[ch].flight.length ∧
    e.getF (sdcB ch) R.SDC_INFLIGHT 25 16 = max d.sdc[ch].flight.length (d.getF (sdcB ch) R.SDC_INFLIGHT 25 16) ∧
    d.regsKept e fun o => o = radr (sdcB ch) R.SDC_INFLIGHT := by
  intro e
  have hp : d.getF (sdcB ch) R.SDC_INFLIGHT 25 16 < 1024 := fld_lt _ 25 16
  have hg : e.get (sdcB ch) R.SDC_INFLIGHT = wd (d.sdc[ch].flight.length +
      max d.sdc[ch].flight.length (d.getF (sdcB ch) R.SDC_INFLIGHT 25 16) * 65536) := Dev.get_put_same _ _ _ _ _ _
  refine ⟨rfl, ?_, ?_, d.regsKept_put _ _ _ 0 0 rfl⟩
  · rw [Dev.getF, hg, fld_toNat, wd, BitVec.toNat_ofNat]
    omega
  · have hm : max d.sdc[ch].flight.length (d.getF (sdcB ch) R.SDC_INFLIGHT 25 16) < 1024 := by omega
    rw [Dev.getF, hg, fld_toNat, wd, BitVec.toNat_ofNat]
    generalize max d.sdc[ch].flight.length (d.getF (sdcB ch) R.SDC_INFLIGHT 25 16) = n at hm
    omega

/-- A transaction that enters an empty queue of a channel in service. -/
theorem Dev.sdcEnter_up (x : Flight) (ha : x.addr + x.len ≤ d.installed) (hu : d.up (sdcB ch) = true)
    (hb : d.getB (sdcB ch) R.SDC_STAT 18 = false) (hs : d.flt.slices[(sdcB ch).region].unit = none) :
    d.sdcEnter ch x = (d.sdcMod ch fun c => { c with
      flight := (letIn c.flight (c.wait ++ [x])).1, wait := (letIn c.flight (c.wait ++ [x])).2 }).flightShow ch := by
  unfold Dev.sdcEnter
  dsimp only
  rw [if_neg (Nat.not_lt.mpr ha), if_neg (not_not.mpr hu), hb, if_neg Bool.false_ne_true, Dev.reached_none d _ _ hs]
  unfold Dev.sdcAdmit
  rw [Dev.sdcMod_sdcMod]

end

/-! The command slot (R378). -/

/-- The first element that fits. -/
theorem findIdx?_first {α : Type} {p : α → Bool} {l : List α} {i : Nat} {x : α} (hi : l[i]? = some x) (hx : p x = true)
    (hno : ∀ j < i, ∀ y, l[j]? = some y → p y = false) : l.findIdx? p = some i := by
  obtain ⟨hlt, rfl⟩ := List.getElem?_eq_some_iff.mp hi
  exact List.findIdx?_eq_some_iff_getElem.mpr ⟨hlt, hx, fun j hj => by simp [hno j hj _ (List.getElem?_eq_getElem (by omega))]⟩

section
variable (d : Dev) (m : Mem) (ch : Fin 2) {l : List Flight} {i : Nat} {x : Flight} (hi : l[i]? = some x)
  (hx : d.overLimit ch (d.flightRank m ch x) = false)

/-- Without panic a row hit may pass the oldest transaction that may be served. -/
theorem Dev.slotTo_calm (hc : ∀ y ∈ l, y.panic = false) {j : Nat}
    (hj : (l.findIdx? fun x => !d.overLimit ch (d.flightRank m ch x)) = some j) :
    d.slotTo m ch l = some j ∨ ∃ k, (l.findIdx? fun x => x.hit && !d.overLimit ch (d.flightRank m ch x)) = some k ∧
      (l.take k).all (fun x => decide (x.passed < 16)) = true ∧ d.slotTo m ch l = some k := by
  have hp : (l.findIdx? fun x => x.panic && !d.overLimit ch (d.flightRank m ch x)) = none :=
    List.findIdx?_eq_none_iff.mpr fun y hy => by rw [hc y hy]; rfl
  unfold Dev.slotTo
  dsimp only
  rw [hp, hj]
  dsimp only
  cases hk : l.findIdx? fun x => x.hit && !d.overLimit ch (d.flightRank m ch x) with
  | none => exact .inl rfl
  | some k =>
    dsimp only
    split
    · rename_i h
      exact .inr ⟨k, rfl, h.2.1, rfl⟩
    · exact .inl rfl

include hi hx

/-- The oldest panic transaction that may be served has the slot. -/
theorem Dev.slotTo_panic (hp : x.panic = true)
    (hno : ∀ j < i, ∀ y, l[j]? = some y → y.panic = true → ¬ d.overLimit ch (d.flightRank m ch y) = false) : d.slotTo m ch l = some i := by
  have hf : (l.findIdx? fun x => x.panic && !d.overLimit ch (d.flightRank m ch x)) = some i := by
    refine findIdx?_first hi (by rw [hp, hx]; rfl) fun j hj y hy => ?_
    cases hpy : y.panic with
    | false => rfl
    | true => simpa using hno j hj y hy hpy
  unfold Dev.slotTo
  dsimp only
  rw [hf]

/-- Without panic and row hits the oldest that may be served has the slot. -/
theorem Dev.slotTo_oldest (hc : ∀ y ∈ l, y.panic = false ∧ y.hit = false)
    (hno : ∀ j < i, ∀ y, l[j]? = some y → ¬ d.overLimit ch (d.flightRank m ch y) = false) : d.slotTo m ch l = some i := by
  have hf : (l.findIdx? fun x => !d.overLimit ch (d.flightRank m ch x)) = some i :=
    findIdx?_first hi (by rw [hx]; rfl) fun j hj y hy => by simpa using hno j hj y hy
  have hh : (l.findIdx? fun x => x.hit && !d.overLimit ch (d.flightRank m ch x)) = none :=
    List.findIdx?_eq_none_iff.mpr fun y hy => by rw [(hc y hy).2]; rfl
  rcases d.slotTo_calm m ch (fun y hy => (hc y hy).1) hf with h | ⟨k, hk, -⟩
  · exact h
  · rw [hh] at hk
    cases hk

/-- A transaction passed 16 times is passed no more. -/
theorem Dev.slotTo_passed (hc : ∀ y ∈ l, y.panic = false) (h16 : 16 ≤ x.passed) : ∃ k ≤ i, d.slotTo m ch l = some k := by
  obtain ⟨hlt, hxi⟩ := List.getElem?_eq_some_iff.mp hi
  cases hf : l.findIdx? fun x => !d.overLimit ch (d.flightRank m ch x) with
  | none =>
    have := List.findIdx?_eq_none_iff.mp hf x (List.mem_of_getElem? hi)
    rw [hx] at this
    cases this
  | some j =>
    obtain ⟨hj, -, hfirst⟩ := List.findIdx?_eq_some_iff_getElem.mp hf
    have hji : j ≤ i := by
      by_contra hlt'
      refine hfirst i (by omega) ?_
      rw [hxi, hx]
      rfl
    rcases d.slotTo_calm m ch hc hf with h | ⟨k, hk, hall, h⟩
    · exact ⟨j, hji, h⟩
    · refine ⟨k, ?_, h⟩
      by_contra hlt'
      have hmem : x ∈ l.take k := List.mem_take_iff_getElem.mpr ⟨i, by omega, hxi⟩
      have := of_decide_eq_true (List.all_eq_true.mp hall x hmem)
      omega

end

/-! The errors of a line (R365, R366). -/

/-- At most the remark that a rank failed differs among the channels. -/
def Dev.chanKept (ch : Fin 2) (d e : Dev) : Prop :=
  (∀ k : Fin 2, k ≠ ch → e.sdc[k] = d.sdc[k]) ∧ e.sdc[ch].flight = d.sdc[ch].flight ∧ e.sdc[ch].wait = d.sdc[ch].wait

namespace Dev.chanKept

variable {ch : Fin 2} {d e f : Dev}

theorem refl (d : Dev) : chanKept ch d d := ⟨fun _ _ => rfl, rfl, rfl⟩

theorem trans (h : chanKept ch d e) (h' : chanKept ch e f) : chanKept ch d f :=
  ⟨fun k hk => (h'.1 k hk).trans (h.1 k hk), h'.2.1.trans h.2.1, h'.2.2.trans h.2.2⟩

/-- A step beside the channels. -/
theorem of_sdc (h : e.sdc = d.sdc) : chanKept ch d e := ⟨fun _ _ => by rw [h], by rw [h], by rw [h]⟩

theorem said (d : Dev) (u : List Nat) : chanKept ch d (d.sdcMod ch fun c => { c with said := u }) :=
  ⟨fun _ hk => d.sdcMod_ne _ hk, by rw [Dev.sdcMod_same], by rw [Dev.sdcMod_same]⟩

end Dev.chanKept

/-- A fault drops no bit of FLT_STAT (R411). -/
theorem Dev.detect_stat_kept (d : Dev) {b : Blk} (hh : b ≠ hif) (hf : b ≠ fltc) (c : Option Nat) (kind addr : Nat) (trans inj alsof : Bool)
    {k : Nat} (h : d.getB b R.FLT_STAT k = true) : (d.detect b c kind addr trans inj alsof).getB b R.FLT_STAT k = true := by
  unfold Dev.detect
  split
  · exact h
  · extract_lets km own crit was d1 d2
    have h1 : d1.getB b R.FLT_STAT k = true := by
      simp only [d1]
      split
      · rw [Dev.getB, Dev.get_put_same, bit, BitVec.getLsbD_or]
        exact Bool.or_eq_true_iff.mpr (.inl h)
      · exact h
    have h2 : d2.getB b R.FLT_STAT k = true := by
      simp only [d2]
      split
      · refine (congrArg (bit · k) (Dev.get_putB_ne _ _ _ (radr_ne_of_blk _ _ _ _ _ _ _ _ hf (by decide) (by decide)))).trans ?_
        exact (congrArg (bit · k) (Dev.vector_get _ (by decide) 0 0 hh (by decide))).trans h1
      · exact h1
    split
    · exact h2
    · exact h2

section
variable (d : Dev)

theorem Dev.abandonSlice_changes (b : Blk) (count : Bool) : d.changes [.flt] (d.abandonSlice b count) := by
  unfold Dev.abandonSlice
  dsimp only
  split
  · exact .refl _ _
  · exact .ite (.refl _ _) rfl

/-- A start at an idle block, whatever runs in its region. -/
theorem Dev.opStart_kept {b : Blk} (code tag param : Nat) (hidle : d.opState b = 0) :
    d.changes [.regs, .flt, .ops] (d.opStart b code tag param) ∧
    d.regsKept (d.opStart b code tag param) fun a => a = radr b R.OP_STAT ∨ ∃ i, i < 6 ∧ a = radr b R.OP_PART i := by
  unfold Dev.opStart
  rw [if_neg (not_not.mpr hidle)]
  split
  · exact ⟨.refl _ _, d.regsKept_refl _⟩
  · rename_i t n _
    extract_lets ok d1 d2
    have hx := d.abandonSlice_changes b true
    have hr1 : d.regsKept d1 fun a => a = radr b R.OP_STAT ∨ ∃ i, i < 6 ∧ a = radr b R.OP_PART i := by
      have hr : (d.abandonSlice b true).regs = d.regs := hx.get Dev.regs
      have hk0 : d.regsKept (d.abandonSlice b true) fun a => a = radr b R.OP_STAT ∨ ∃ i, i < 6 ∧ a = radr b R.OP_PART i :=
        fun a _ => by rw [hr]
      exact hk0.trans (Dev.regsKept_put _ _ _ _ 0 0 (.inl rfl))
    have hc1 : d.changes [.regs, .flt, .ops] d1 := (hx.mono (by decide)).trans ((Dev.put_changes _ _ _ _ _ _).mono (by decide))
    clear_value d1
    have hc2 : d1.changes [.regs, .flt, .ops] d2 := .foldl _ (.refl _ _) fun x i hx => hx.trans ((x.put_changes _ _ _ _ _).mono (by decide))
    have hr2 := (d1.clearParts_spec b (List.range 6)).2.2
    rw [show d1.clearParts b (List.range 6) = d2 from rfl] at hr2
    clear_value d2
    refine ⟨(hc1.trans hc2).trans (Dev.changes.mono (F := [.ops]) rfl (by decide)), ?_⟩
    exact hr1.trans (hr2.mono fun a ⟨i, hi, ha⟩ => .inr ⟨i, List.mem_range.mp hi, ha⟩)

end

/-- A register of a channel's own that no operation, event or fault changes. -/
abbrev sdcReg (q : Reg) : Prop := q.s0 = 0 ∧ q.s1 = 0 ∧ 0x11C < q.off ∧ q.off < 0x150

theorem Reg.ofs_zero (q : Reg) : q.ofs 0 0 = q.off := by simp [Reg.ofs]

/-- What handling a lasting error leaves of a channel: its transactions, its own registers, and the bits of FLT_STAT that are set. -/
structure Dev.lineKept (ch : Fin 2) (d e : Dev) : Prop where
  chan : d.chanKept ch e
  own  : ∀ q : Reg, sdcReg q → e.get (sdcB ch) q = d.get (sdcB ch) q
  stat : ∀ k, d.getB (sdcB ch) R.FLT_STAT k = true → e.getB (sdcB ch) R.FLT_STAT k = true

namespace Dev.lineKept

variable {ch : Fin 2} {d e f : Dev}

theorem refl (d : Dev) : lineKept ch d d := ⟨.refl _, fun _ _ => rfl, fun _ h => h⟩

theorem trans (h : lineKept ch d e) (h' : lineKept ch e f) : lineKept ch d f :=
  ⟨h.chan.trans h'.chan, fun q hq => (h'.own q hq).trans (h.own q hq), fun k hk => h'.stat k (h.stat k hk)⟩

theorem event (d : Dev) (w : Word) : lineKept ch d (d.event (sdcB ch) R.SDC_EVT R.SDC_EVT_EN w 60) where
  chan := .of_sdc ((d.event_changes _ _ _ _ _ _).get Dev.sdc)
  own q hq := by
    refine d.event_get_ne (sdcB_ne_hif ch) (by rw [q.ofs_zero]; omega) _ _ (by decide) (radr_ne_of_ofs _ _ _ 0 0 0 0 ?_)
    rw [q.ofs_zero]
    exact Nat.ne_of_lt hq.2.2.2
  stat k hk := by
    rw [Dev.getB, d.event_get_ne (sdcB_ne_hif ch) (by decide) _ _ (by decide) (radr_ne_of_ofs _ _ _ 0 0 0 0 (by decide))]
    exact hk

theorem detect (d : Dev) (c : Option Nat) (kind addr : Nat) (trans inj alsof : Bool) :
    lineKept ch d (d.detect (sdcB ch) c kind addr trans inj alsof) where
  chan := .of_sdc ((d.detect_changes _ _ _ _ _ _ _).get Dev.sdc)
  own q hq := by
    refine d.detect_get (sdcB_ne_hif ch) (by rw [q.ofs_zero]; omega) _ _ _ _ _ _ (sdcB_ne_fltc ch) (radr_ne_of_ofs _ _ _ 0 0 0 0 ?_)
    rw [q.ofs_zero]
    exact Nat.ne_of_gt (Nat.lt_trans (by decide) hq.2.2.1)
  stat _ hk := d.detect_stat_kept (sdcB_ne_hif ch) (sdcB_ne_fltc ch) _ _ _ _ _ _ hk

theorem opStart (d : Dev) (code tag param : Nat) (hidle : d.opState (sdcB ch) = 0) : lineKept ch d (d.opStart (sdcB ch) code tag param) := by
  obtain ⟨hc, hk⟩ := d.opStart_kept code tag param hidle
  have hno : ∀ {q : Reg}, q.ofs 0 0 < 0x24 ∨ 0x40 ≤ q.ofs 0 0 →
      ¬ (radr (sdcB ch) q = radr (sdcB ch) R.OP_STAT ∨ ∃ i, i < 6 ∧ radr (sdcB ch) q = radr (sdcB ch) R.OP_PART i) := by
    rintro q hq (h | ⟨i, hi, h⟩)
    · exact radr_ne_of_ofs _ _ _ 0 0 0 0 (by rw [show R.OP_STAT.ofs 0 0 = 0x24 from rfl]; omega) h
    · refine radr_ne_of_ofs _ _ _ i 0 0 0 ?_ h
      rw [show R.OP_PART.ofs i 0 = 0x28 + 4 * i + 0 * 0 from rfl]
      omega
  refine ⟨.of_sdc (hc.get Dev.sdc), fun q hq => hk.get _ q 0 0 (hno (.inr (by rw [q.ofs_zero]; omega))), fun k h => ?_⟩
  rw [Dev.getB, hk.get (sdcB ch) R.FLT_STAT 0 0 (hno (.inl (by decide)))]
  exact h

/-- What the spare rank's handling of a lasting error leaves (R366). -/
theorem rankError (d : Dev) (phys : Fin 4) (rank : Nat) : lineKept ch d (d.rankError ch phys rank) := by
  unfold Dev.rankError
  extract_lets b mine d1
  split
  · exact refl _
  · split
    · split
      · exact (opStart d _ _ _ ‹_›).trans (event _ _)
      · exact refl _
    · have h1 : lineKept ch d d1 := event d _
      split
      · exact h1
      · exact (h1.trans ⟨.said _ _, fun _ _ => rfl, fun _ h => h⟩).trans (detect _ _ _ _ _ _ _)

end Dev.lineKept

section
variable (d : Dev) (ch : Fin 2)

/-- A counter of the channel rises. -/
theorem Dev.sdcBump_get {q r : Reg} (n : Nat) (h : q.ofs 0 0 ≠ r.ofs 0 0) : (d.bump (sdcB ch) r n).get (sdcB ch) q = d.get (sdcB ch) q :=
  d.get_put_off _ _ _ h

/-- A lasting error is counted, its address recorded and its kind set (R366, R388). -/
theorem Dev.lastingError_spec (phys : Fin 4) (a : Nat) (cmd : Bool) :
    let e := d.lastingError ch phys a cmd
    d.chanKept ch e ∧ e.getN (sdcB ch) R.SDC_UE_CNT = min 0xFFFFFFFF (d.getN (sdcB ch) R.SDC_UE_CNT + 1) ∧
    e.get (sdcB ch) R.SDC_ERR_ADDR_LO = wd a ∧ e.getB (sdcB ch) R.FLT_STAT cmd.toNat = true := by
  intro e
  obtain ⟨d1, hd1, hu, ha, hs⟩ : ∃ d1 : Dev, e = d1.raise (sdcB ch) (some phys.val) cmd.toNat ∧
      d1.getN (sdcB ch) R.SDC_UE_CNT = min 0xFFFFFFFF (d.getN (sdcB ch) R.SDC_UE_CNT + 1) ∧
      d1.get (sdcB ch) R.SDC_ERR_ADDR_LO = wd a ∧ d1.sdc = d.sdc := by
    refine ⟨_, rfl, ?_, ?_, rfl⟩
    · refine Eq.trans (congrArg BitVec.toNat ?_) (d.getN_bump (sdcB ch) R.SDC_UE_CNT 0 0)
      rw [Dev.get_put_off _ _ _ _ (by decide), Dev.get_put_off _ _ _ _ (by decide), Dev.get_put_off _ _ _ _ (by decide)]
      rfl
    · rw [Dev.get_put_off _ _ _ _ (by decide), Dev.get_put_off _ _ _ _ (by decide), Dev.get_put_same]
  have hk := Dev.lineKept.detect (ch := ch) d1 (some phys.val) cmd.toNat 0 false false false
  have hset : (d1.raise (sdcB ch) (some phys.val) cmd.toNat).getB (sdcB ch) R.FLT_STAT cmd.toNat = true :=
    d1.detect_stat (sdcB_kind ch) (sdcB_ne_hif ch) (sdcB_ne_fltc ch) _ (by cases cmd <;> decide) _ _ _ _
  rw [hd1]
  exact ⟨(Dev.chanKept.of_sdc hs).trans hk.chan, (congrArg BitVec.toNat (hk.own _ (by decide))).trans hu, (hk.own _ (by decide)).trans ha, hset⟩

/-- What the error handling of a line does to its channel. -/
theorem Dev.lineErrors_kept (phys : Fin 4) (rank a : Nat) (ecc : EccOutcome) (cmd : Bool) :
    d.chanKept ch (d.lineErrors ch phys rank a ecc cmd).2 := by
  cases ecc with
  | clean => exact .refl _
  | corrected =>
    unfold Dev.lineErrors
    dsimp only
    split
    · exact .refl _
    · exact .of_sdc rfl
  | transient => exact (Dev.chanKept.of_sdc rfl).trans (Dev.lineKept.detect (d.bump (sdcB ch) R.SDC_TRANS_CNT) (some phys.val) cmd.toNat 0 true false false).chan
  | lasting => exact (d.lastingError_spec ch phys a cmd).1.trans (Dev.lineKept.rankError _ phys rank).chan

end

end Sys2Proof.Machine
end

section
/-! Transactions in the slots of a channel (R362 to R372, R378). -/

namespace Sys2Proof.Machine

section
variable (d : Dev) (ch : Fin 2) (m : Mem)

/-! Service of a line. -/

/-- A line inside the installed SDRAM of a channel in service. -/
theorem Dev.serveLine_up (panic : Bool) {a n : Nat} (data : Option (List Byte)) (ecc : EccOutcome) (cmd : Bool) (ha : a + n ≤ d.installed)
    (hu : d.up (sdcB ch) = true) (hb : d.getB (sdcB ch) R.SDC_STAT 18 = false) :
    ∃ (phys : Fin 4) (rank : Nat), d.serveLine m ch panic a n data ecc cmd =
      let d3 := if panic then d.bump (sdcB ch) R.SDC_PANIC_CNT else d
      match data with
      | none =>
        if m.poisoned a n then (4, m, d3.bump (sdcB ch) R.SDC_POISON_RD)
        else ((d3.lineErrors ch phys rank a ecc cmd).1, m, (d3.lineErrors ch phys rank a ecc cmd).2)
      | some bs =>
        let x := if (decide (n = 64) || m.poisoned a n) && !cmd then (0, d3) else d3.lineErrors ch phys rank a ecc cmd
        if x.1 = 0 then (0, m.write a bs, x.2) else (x.1, m, x.2) := by
  refine ⟨d.physOf m ch (a / d.rankBytes) (lineIn d.rowBits a), a / d.rankBytes, ?_⟩
  unfold Dev.serveLine
  dsimp only
  rw [if_neg (Nat.not_lt.mpr ha), if_neg (not_not.mpr hu), hb, if_neg Bool.false_ne_true] <;> cases data <;> rfl

/-- A panic transaction is counted (R377). -/
theorem Dev.panicCount_spec (panic : Bool) :
    let e := if panic then d.bump (sdcB ch) R.SDC_PANIC_CNT else d
    d.changes [.regs] e ∧ (∀ q : Reg, q.off ≠ R.SDC_PANIC_CNT.off → e.get (sdcB ch) q = d.get (sdcB ch) q) ∧ d.regsKept e (onPage (sdcB ch)) := by
  cases panic with
  | false => exact ⟨.refl _ _, fun _ _ => rfl, d.regsKept_refl _⟩
  | true =>
    exact ⟨d.put_changes _ _ _ _ _, fun q hq => d.get_put_off _ _ _ (by rwa [Reg.ofs_zero, Reg.ofs_zero]),
      d.regsKept_put _ _ _ 0 0 (onPage_radr _ 0 0 (by decide))⟩

/-- A served line leaves the transactions of the channels. -/
theorem Dev.serveLine_kept (panic : Bool) (a n : Nat) (data : Option (List Byte)) (ecc : EccOutcome) (cmd : Bool) (ha : a + n ≤ d.installed)
    (hu : d.up (sdcB ch) = true) (hb : d.getB (sdcB ch) R.SDC_STAT 18 = false) :
    d.chanKept ch (d.serveLine m ch panic a n data ecc cmd).2.2 := by
  obtain ⟨phys, rank, h⟩ := d.serveLine_up ch m panic data ecc cmd ha hu hb
  have h3 := (d.panicCount_spec ch panic).1.get Dev.sdc
  rw [h]
  dsimp only
  generalize (if panic = true then d.bump (sdcB ch) R.SDC_PANIC_CNT else d) = d3 at h3
  have hk : d.chanKept ch d3 := .of_sdc h3
  have he : d.chanKept ch (d3.lineErrors ch phys rank a ecc cmd).2 := hk.trans (d3.lineErrors_kept ch phys rank a ecc cmd)
  cases data with
  | none =>
    dsimp only
    split
    · exact hk.trans (.of_sdc rfl)
    · exact he
  | some bs =>
    dsimp only
    have hx : d.chanKept ch (if ((decide (n = 64) || m.poisoned a n) && !cmd) = true then (0, d3) else d3.lineErrors ch phys rank a ecc cmd).2 := by
      split
      · exact hk
      · exact he
    generalize (if ((decide (n = 64) || m.poisoned a n) && !cmd) = true then (0, d3) else d3.lineErrors ch phys rank a ecc cmd) = y at hx
    split
    · exact hx
    · exact hx

/-! The slot. -/

/-- The one transaction in flight is served and answered (R378). -/
theorem sdcSlot_single {x : Flight} (hf : d.sdc[ch].flight = [x]) (hw : d.sdc[ch].wait = [])
    (hov : d.overLimit ch (d.flightRank m ch x) = false) (ha : x.addr + x.len ≤ d.installed) (hu : d.up (sdcB ch) = true)
    (hb : d.getB (sdcB ch) R.SDC_STAT 18 = false) :
    ∃ d0 d', d.changes [.fresh, .sdc] d0 ∧ d0.installed = d.installed ∧
      let r := d0.serveLine m ch x.panic x.addr x.len x.data x.ecc x.cmdErr
      sdcSlot m d ch = (r.2.1, d') ∧ d'.sdc[ch].flight = [] ∧ (∀ k : Fin 2, k ≠ ch → d'.sdc[k] = d.sdc[k]) ∧ r.2.2.changes [.regs, .sdc] d' ∧
      r.2.2.regsKept d' (fun o => o = radr (sdcB ch) R.SDC_INFLIGHT) ∧
      (x.scrub = false → d'.sdc[ch].answer = some (r.1, if r.1 = 0 ∧ x.data.isNone then m.bytes x.addr x.len else [])) := by
  have hslot : d.slotTo m ch [x] = some 0 := by
    cases hp : x.panic with
    | true => exact d.slotTo_panic m ch rfl hov hp fun j hj => absurd hj (Nat.not_lt_zero j)
    | false =>
      obtain ⟨k, hk, h⟩ | h := (d.slotTo_calm m ch (l := [x]) (by simpa using hp)
        (findIdx?_first (i := 0) (x := x) rfl (by rw [hov]; rfl) fun j hj => absurd hj (Nat.not_lt_zero j))).symm
      · obtain ⟨hlt, -⟩ := List.findIdx?_eq_some_iff_getElem.mp hk
        have h0 : k = 0 := Nat.lt_one_iff.mp hlt
        rw [← h0]
        exact h.2
      · exact h
  obtain ⟨d0, hd0⟩ : ∃ d0, d0 = d.free.2.sdcMod ch fun c => { c with
      slots := (c.slots + 1) % 8
      copies := if c.slots = 7 then 0 else c.copies } := ⟨_, rfl⟩
  have hc0 : d.changes [.fresh, .sdc] d0 := by rw [hd0]; rfl
  have hu0 : d0.up (sdcB ch) = true := by rw [hd0]; exact hu
  have hb0 : d0.getB (sdcB ch) R.SDC_STAT 18 = false := by rw [hd0]; exact hb
  have hi0 : d0.installed = d.installed := by rw [hd0]; rfl
  have hk0 : d.chanKept ch d0 := by
    rw [hd0]
    exact ⟨fun k hk => d.free.2.sdcMod_ne _ hk, by rw [Dev.sdcMod_same]; rfl, by rw [Dev.sdcMod_same]; rfl⟩
  obtain ⟨r, hr⟩ : ∃ r, r = d0.serveLine m ch x.panic x.addr x.len x.data x.ecc x.cmdErr := ⟨_, rfl⟩
  have hkr : d.chanKept ch r.2.2 := by
    rw [hr]
    exact hk0.trans (d0.serveLine_kept ch m _ _ _ _ _ _ (by rw [hi0]; exact ha) hu0 hb0)
  obtain ⟨d1, hd1⟩ : ∃ y, y = r.2.2.sdcMod ch fun c => { c with flight := c.flight.drop 1 } := ⟨_, rfl⟩
  obtain ⟨d2, hd2⟩ : ∃ y, y = if x.scrub then d1 else
    d1.sdcAnswer ch r.1 (if r.1 = 0 ∧ x.data.isNone then m.bytes x.addr x.len else []) := ⟨_, rfl⟩
  have hrun : sdcSlot m d ch = (r.2.1, d2.sdcAdmit ch) := by
    unfold sdcSlot
    dsimp only
    rw [hf, if_neg (show ¬ [x].isEmpty = true from Bool.false_ne_true), hslot]
    dsimp only [List.getElem?_cons_zero]
    rw [← hd0, ← hr, hd2, hd1]
    rfl
  have h1 : d1.sdc[ch].flight = [] ∧ d1.sdc[ch].wait = [] ∧ ∀ k : Fin 2, k ≠ ch → d1.sdc[k] = d.sdc[k] := by
    rw [hd1, Dev.sdcMod_same]
    exact ⟨by rw [hkr.2.1, hf]; rfl, hkr.2.2.trans hw, fun k hk => (r.2.2.sdcMod_ne _ hk).trans (hkr.1 k hk)⟩
  have hc1 : r.2.2.changes [.regs, .sdc] d1 ∧ d1.regs = r.2.2.regs := by
    rw [hd1]
    exact ⟨rfl, rfl⟩
  have h2 : d2.sdc[ch].flight = [] ∧ d2.sdc[ch].wait = [] ∧ (∀ k : Fin 2, k ≠ ch → d2.sdc[k] = d.sdc[k]) ∧
      (x.scrub = false → d2.sdc[ch].answer = some (r.1, if r.1 = 0 ∧ x.data.isNone then m.bytes x.addr x.len else [])) ∧
      r.2.2.changes [.regs, .sdc] d2 ∧ d2.regs = r.2.2.regs := by
    rw [hd2]
    cases hs : x.scrub with
    | true =>
      obtain ⟨hf1, hw1, ho1⟩ := h1
      exact ⟨hf1, hw1, ho1, fun h => absurd h (by decide), hc1.1, hc1.2⟩
    | false =>
      rw [if_neg Bool.false_ne_true, Dev.sdcAnswer, Dev.sdcMod_same]
      exact ⟨h1.1, h1.2.1, fun k hk => (d1.sdcMod_ne _ hk).trans (h1.2.2 k hk), fun _ => rfl, hc1.1.trans rfl, hc1.2⟩
  clear hd2 hd1 h1 hc1
  obtain ⟨hf2, hw2, ho2, ha2, hc2, hr2⟩ := h2
  have hadm : d2.sdcAdmit ch = (d2.sdcMod ch fun c => { c with flight := (letIn c.flight c.wait).1, wait := (letIn c.flight c.wait).2 }).flightShow ch := rfl
  obtain ⟨d3, hd3⟩ : ∃ y, y = d2.sdcMod ch fun c => { c with flight := (letIn c.flight c.wait).1, wait := (letIn c.flight c.wait).2 } := ⟨_, rfl⟩
  have hs3 : d3.sdc[ch] = { d2.sdc[ch] with flight := [], wait := [] } := by
    rw [hd3, Dev.sdcMod_same, hf2, hw2]
    rfl
  have ho3 : ∀ k : Fin 2, k ≠ ch → d3.sdc[k] = d.sdc[k] := fun k hk => by
    rw [hd3, Dev.sdcMod_ne _ _ hk]
    exact ho2 k hk
  have hc3 : r.2.2.changes [.regs, .sdc] d3 := by
    rw [hd3]
    exact hc2.trans rfl
  have hr3 : d3.regs = r.2.2.regs := by
    rw [hd3]
    exact hr2
  rw [hadm, ← hd3] at hrun
  clear hd3 hadm
  obtain ⟨he, -, -, hk⟩ := d3.flightShow_spec ch (by rw [hs3]; exact Nat.zero_le _)
  generalize d3.flightShow ch = e at hrun he hk
  have hes : e.sdc = d3.sdc := by rw [he]
  refine ⟨d0, e, hc0, hi0, ?_⟩
  dsimp only
  rw [← hr, hes, hs3]
  refine ⟨hrun, rfl, ho3, hc3.trans ?_, fun a hna => (hk a hna).trans (by rw [hr3]), ha2⟩
  rw [he]
  rfl

end

end Sys2Proof.Machine
end

section
/-! What a served transaction changes and answers (R363 to R372). -/

namespace Sys2Proof.Machine

/-! Poison after a write (R369). -/

theorem Mem.rawWrite_poison (m : Mem) (a : Nat) (bs : List Byte) : (m.rawWrite a bs).poison = m.poison := by
  induction bs generalizing m a with
  | nil => rfl
  | cons b t ih => exact ih _ _

/-- A write takes the poison from the lines that it covers whole. -/
theorem Mem.mem_poison_write (m : Mem) (a : Nat) (bs : List Byte) (l : Nat) :
    l ∈ (m.write a bs).poison ↔ l ∈ m.poison ∧ ¬ (a ≤ l * 64 ∧ l * 64 + 64 ≤ a + bs.length) := by
  unfold Mem.write
  dsimp only
  rw [Mem.rawWrite_poison, (m.keepLines_eq _).2, List.mem_filter, decide_eq_true_eq]

section
variable {d d0 d' : Dev} {ch : Fin 2} {m : Mem} {x : Flight} (hc0 : d.changes [.fresh, .sdc] d0) (hi0 : d0.installed = d.installed)
  (ha : x.addr + x.len ≤ d.installed) (hu : d.up (sdcB ch) = true) (hb : d.getB (sdcB ch) R.SDC_STAT 18 = false)
include hc0 hi0 ha hu hb

/-- A write without errors (R365, R369). -/
theorem Dev.servedWrite {bs : List Byte} (hdata : x.data = some bs) (hecc : x.ecc = .clean) :
    ∃ d3, d0.serveLine m ch x.panic x.addr x.len x.data x.ecc x.cmdErr = (0, m.write x.addr bs, d3) ∧ d0.changes [.regs] d3 ∧
      d.regsKept d3 (onPage (sdcB ch)) := by
  have hr0 : d0.regs = d.regs := hc0.get Dev.regs
  obtain ⟨phys, rank, h⟩ := d0.serveLine_up ch m x.panic (data := x.data) x.ecc x.cmdErr (by rw [hi0]; exact ha)
    ((Dev.up_of_regs (by rw [hr0])).trans hu) ((congrArg (bit · 18) (Dev.get_of_regs _ _ 0 0 (by rw [hr0]))).trans hb)
  obtain ⟨h1, -, h3⟩ := d0.panicCount_spec ch x.panic
  rw [hdata, hecc] at h ⊢
  dsimp only at h
  generalize (if x.panic = true then d0.bump (sdcB ch) R.SDC_PANIC_CNT else d0) = d3 at h h1 h3
  have hl : d3.lineErrors ch phys rank x.addr .clean x.cmdErr = (0, d3) := rfl
  rw [hl, ite_self, if_pos rfl] at h
  exact ⟨d3, h, h1, fun a hna => (h3 a hna).trans (by rw [hr0])⟩

/-- A read: poison is counted, else what its ECC found (R365, R366, R369). -/
theorem Dev.servedRead (hdata : x.data = none) :
    let r := d0.serveLine m ch x.panic x.addr x.len x.data x.ecc x.cmdErr
    r.2.1 = m ∧
    (m.poisoned x.addr x.len = true → r.1 = 4 ∧
      r.2.2.getN (sdcB ch) R.SDC_POISON_RD = min 0xFFFFFFFF (d.getN (sdcB ch) R.SDC_POISON_RD + 1)) ∧
    (m.poisoned x.addr x.len = false →
      (x.ecc ≠ .lasting → r.1 = 0) ∧
      (x.ecc = .lasting → r.1 = 4) ∧
      (x.ecc = .corrected → x.cmdErr = false → r.2.2.getN (sdcB ch) R.SDC_CE_CNT = min 0xFFFFFFFF (d.getN (sdcB ch) R.SDC_CE_CNT + 1)) ∧
      (x.ecc = .transient → r.2.2.getN (sdcB ch) R.SDC_TRANS_CNT = min 0xFFFFFFFF (d.getN (sdcB ch) R.SDC_TRANS_CNT + 1)) ∧
      (x.ecc = .lasting → r.2.2.getN (sdcB ch) R.SDC_UE_CNT = min 0xFFFFFFFF (d.getN (sdcB ch) R.SDC_UE_CNT + 1) ∧
        r.2.2.get (sdcB ch) R.SDC_ERR_ADDR_LO = wd x.addr ∧ r.2.2.getB (sdcB ch) R.FLT_STAT x.cmdErr.toNat = true)) := by
  have hr0 : d0.regs = d.regs := hc0.get Dev.regs
  obtain ⟨phys, rank, h⟩ := d0.serveLine_up ch m x.panic (data := x.data) x.ecc x.cmdErr (by rw [hi0]; exact ha)
    ((Dev.up_of_regs (by rw [hr0])).trans hu) ((congrArg (bit · 18) (Dev.get_of_regs _ _ 0 0 (by rw [hr0]))).trans hb)
  obtain ⟨-, h2, -⟩ := d0.panicCount_spec ch x.panic
  intro r
  rw [show r = _ from h]
  clear h r
  rw [hdata]
  dsimp only
  generalize (if x.panic = true then d0.bump (sdcB ch) R.SDC_PANIC_CNT else d0) = d3 at h2 ⊢
  have hg : ∀ q : Reg, q.off ≠ R.SDC_PANIC_CNT.off → d3.getN (sdcB ch) q = d.getN (sdcB ch) q := fun q hq =>
    congrArg BitVec.toNat ((h2 q hq).trans (Dev.get_of_regs _ _ 0 0 (by rw [hr0])))
  have hcnt : ∀ (q : Reg), q.off ≠ R.SDC_PANIC_CNT.off →
      (d3.bump (sdcB ch) q).getN (sdcB ch) q = min 0xFFFFFFFF (d.getN (sdcB ch) q + 1) := fun q hq => by
    rw [d3.getN_bump (sdcB ch) q 0 0, hg q hq]
  cases hp : m.poisoned x.addr x.len with
  | true => exact ⟨rfl, fun _ => ⟨rfl, hcnt R.SDC_POISON_RD (by decide)⟩, fun h => absurd h (by decide)⟩
  | false =>
    rw [if_neg Bool.false_ne_true]
    refine ⟨rfl, fun h => absurd h (by decide), fun _ => ⟨fun hl => ?_, fun hl => ?_, fun hcor hcmd => ?_, fun htr => ?_, fun hl => ?_⟩⟩
    · cases he : x.ecc with
      | lasting => exact absurd he hl
      | clean => rfl
      | corrected => rfl
      | transient => rfl
    · rw [hl]
      rfl
    · have hle : d3.lineErrors ch phys rank x.addr .corrected false = (0, d3.bump (sdcB ch) R.SDC_CE_CNT) := rfl
      rw [hcor, hcmd, hle]
      exact hcnt R.SDC_CE_CNT (by decide)
    · have hle : d3.lineErrors ch phys rank x.addr .transient x.cmdErr =
          (0, (d3.bump (sdcB ch) R.SDC_TRANS_CNT).raiseTrans (sdcB ch) (some phys.val) x.cmdErr.toNat) := rfl
      rw [htr, hle]
      exact (congrArg BitVec.toNat ((Dev.lineKept.detect (d3.bump (sdcB ch) R.SDC_TRANS_CNT) (some phys.val) x.cmdErr.toNat 0 true false false).own
        R.SDC_TRANS_CNT (by decide))).trans (hcnt R.SDC_TRANS_CNT (by decide))
    · have hle : d3.lineErrors ch phys rank x.addr .lasting x.cmdErr =
          (4, (d3.lastingError ch phys x.addr x.cmdErr).rankError ch phys rank) := rfl
      rw [hl, hle]
      obtain ⟨-, h4, h5, h6⟩ := d3.lastingError_spec ch phys x.addr x.cmdErr
      generalize d3.lastingError ch phys x.addr x.cmdErr = d4 at h4 h5 h6
      have hk := Dev.lineKept.rankError (ch := ch) d4 phys rank
      refine ⟨(congrArg BitVec.toNat (hk.own _ (by decide))).trans (h4.trans ?_), (hk.own _ (by decide)).trans h5, hk.stat _ h6⟩
      rw [hg _ (by decide)]

end

/-- A command slot with one transaction in flight (R378). -/
theorem sdcSlot_outcome {m : Mem} {d : Dev} {ch : Fin 2} {x : Flight} (hf : d.sdc[ch].flight = [x]) (hw : d.sdc[ch].wait = [])
    (ha : x.addr + x.len ≤ d.installed) (hu : d.up (sdcB ch) = true) (hb : d.getB (sdcB ch) R.SDC_STAT 18 = false)
    (hov : d.overLimit ch (d.flightRank m ch x) = false) : ∃ m' d', sdcSlot m d ch = (m', d') ∧ d'.sdc[ch].flight = [] ∧
    (∀ k : Fin 2, k ≠ ch → d'.sdc[k] = d.sdc[k]) ∧
    (∀ bs, x.data = some bs → bs.length = x.len → x.ecc = .clean →
      d' = { d with regs := d'.regs, sdc := d'.sdc, fresh := d'.fresh } ∧ d.regsKept d' (onPage (sdcB ch)) ∧
      (∀ i < x.len, some (m'.byte (x.addr + i)) = bs[i]?) ∧
      (∀ a, a < x.addr ∨ x.addr + x.len ≤ a → m'.byte a = m.byte a) ∧
      (∀ l, l ∈ m'.poison ↔ l ∈ m.poison ∧ ¬ (x.addr ≤ l * 64 ∧ l * 64 + 64 ≤ x.addr + x.len)) ∧
      (x.scrub = false → d'.sdc[ch].answer = some (0, []))) ∧
    (x.data = none → m' = m ∧
      (m.poisoned x.addr x.len = true → (x.scrub = false → d'.sdc[ch].answer = some (4, [])) ∧
        d'.getN (sdcB ch) R.SDC_POISON_RD = min 0xFFFFFFFF (d.getN (sdcB ch) R.SDC_POISON_RD + 1)) ∧
      (m.poisoned x.addr x.len = false →
        (x.scrub = false → x.ecc ≠ .lasting → d'.sdc[ch].answer = some (0, m.bytes x.addr x.len)) ∧
        (x.scrub = false → x.ecc = .lasting → d'.sdc[ch].answer = some (4, [])) ∧
        (x.ecc = .corrected → x.cmdErr = false →
          d'.getN (sdcB ch) R.SDC_CE_CNT = min 0xFFFFFFFF (d.getN (sdcB ch) R.SDC_CE_CNT + 1)) ∧
        (x.ecc = .transient →
          d'.getN (sdcB ch) R.SDC_TRANS_CNT = min 0xFFFFFFFF (d.getN (sdcB ch) R.SDC_TRANS_CNT + 1)) ∧
        (x.ecc = .lasting →
          d'.getN (sdcB ch) R.SDC_UE_CNT = min 0xFFFFFFFF (d.getN (sdcB ch) R.SDC_UE_CNT + 1) ∧
          d'.get (sdcB ch) R.SDC_ERR_ADDR_LO = wd x.addr ∧ d'.getB (sdcB ch) R.FLT_STAT x.cmdErr.toNat = true))) := by
  obtain ⟨d0, d', hc0, hi0, hrun, hf', ho', hc, hk, hans⟩ := sdcSlot_single d ch m hf hw hov ha hu hb
  refine ⟨_, d', hrun, hf', ho', fun bs hdata hlen hecc => ?_, fun hdata => ?_⟩
  · obtain ⟨d3, hr, hc3, hk3⟩ := Dev.servedWrite (m := m) hc0 hi0 ha hu hb hdata hecc
    rw [hr] at hc hk hans ⊢
    dsimp only at hc hk hans ⊢
    have hF : d.changes [.regs, .sdc, .fresh] d' := ((hc0.mono (by decide)).trans (hc3.mono (by decide))).trans (hc.mono (by decide))
    refine ⟨congrArg (fun y : Dev => { y with regs := d'.regs, sdc := d'.sdc, fresh := d'.fresh }) hF,
      hk3.trans (hk.mono fun o ho => ho ▸ onPage_radr _ 0 0 (by decide)), fun i hi => ?_, fun a ha' => ?_, fun l => ?_, fun hs => ?_⟩
    · have hin : x.addr ≤ x.addr + i ∧ x.addr + i < x.addr + bs.length := ⟨by omega, by omega⟩
      rw [Mem.byte_write, if_pos hin, Nat.add_sub_cancel_left, List.getElem?_eq_getElem (by omega), List.getD_eq_getElem _ _ (by omega)]
    · exact (Mem.byte_write _ _ _ _).trans (if_neg (by omega))
    · rw [Mem.mem_poison_write, hlen]
    · rw [hans hs, hdata]
      rfl
  · obtain ⟨hm, hpo, hcl⟩ := Dev.servedRead (m := m) hc0 hi0 ha hu hb hdata
    generalize d0.serveLine m ch x.panic x.addr x.len x.data x.ecc x.cmdErr = r at hm hpo hcl hc hk hans ⊢
    have hg : ∀ q : Reg, q.off ≠ R.SDC_INFLIGHT.off → d'.get (sdcB ch) q = r.2.2.get (sdcB ch) q := fun q hq =>
      hk.get _ q 0 0 (radr_ne_of_ofs _ _ _ 0 0 0 0 (by rwa [Reg.ofs_zero, Reg.ofs_zero]))
    refine ⟨hm, fun hp => ?_, fun hp => ?_⟩
    · obtain ⟨h4, hn⟩ := hpo hp
      refine ⟨fun hs => ?_, (congrArg BitVec.toNat (hg R.SDC_POISON_RD (by decide))).trans hn⟩
      rw [hans hs, h4]
      rfl
    · obtain ⟨hok, hla, hce, htr, hue⟩ := hcl hp
      refine ⟨fun hs hl => ?_, fun hs hl => ?_, fun hcor hcmd => (congrArg BitVec.toNat (hg R.SDC_CE_CNT (by decide))).trans (hce hcor hcmd),
        fun ht => (congrArg BitVec.toNat (hg R.SDC_TRANS_CNT (by decide))).trans (htr ht), fun hl => ?_⟩
      · rw [hans hs, hok hl, hdata]
        rfl
      · rw [hans hs, hla hl]
        rfl
      · obtain ⟨h1, h2, h3⟩ := hue hl
        exact ⟨(congrArg BitVec.toNat (hg R.SDC_UE_CNT (by decide))).trans h1, (hg R.SDC_ERR_ADDR_LO (by decide)).trans h2,
          (congrArg (bit · x.cmdErr.toNat) (hg R.FLT_STAT (by decide))).trans h3⟩

end Sys2Proof.Machine
end

section
/-! Requests, scrubbing and migration of SDRAM channels (R363 to R372, R378). -/

namespace Sys2Proof.Machine

theorem Dev.changes.sdcParts {d e : Dev} (h : d.changes [.regs, .sdc] e) : e = { d with regs := e.regs, sdc := e.sdc } :=
  congrArg (fun y : Dev => { y with regs := e.regs, sdc := e.sdc }) h

/-- One bit written, any bit read. -/
theorem Dev.getB_putB (d : Dev) (b : Blk) (r : Reg) {k k' : Nat} {v : Bool} (h : k < 32) :
    (d.putB b r k v).getB b r k' = if k' = k then v else d.getB b r k' := by
  split
  · rename_i he
    rw [he]
    exact d.getB_putB_same b r 0 0 v h
  · rename_i he
    exact d.getB_putB_other b r 0 0 v h he

section
variable (s : State) (ch : Fin 2)

/-! Requests (R363, R372, R378). -/

/-- A request reaches its channel unless it asks for nothing. -/
theorem exec_sdramRequest (r : SdReq) (hlive : s.dev.dead = false) :
    let n := min r.len (64 - r.ofs.val)
    let x : Flight := ⟨r.panic, r.rowHit, lineAddr s.dev.rowBits ch.val 0 r.line + r.ofs.val, n,
      r.data.map fun l => (l ++ List.replicate n 0#8).take n, r.ecc, r.cmdErr, 0, false⟩
    exec (.sdramRequest ch r) s = .next { s with dev := s.dev.when (decide (0 < n)) fun d => d.sdcEnter ch x } := by
  change execSdramRequest ch r s = _
  unfold execSdramRequest
  rw [onLive_next _ _ hlive]
  rfl

/-- A request to a channel in service. -/
theorem Dev.sdcEnter_room (d : Dev) (x : Flight) (ha : x.addr + x.len ≤ d.installed) (hu : d.up (sdcB ch) = true)
    (hb : d.getB (sdcB ch) R.SDC_STAT 18 = false) (hs : ∀ r : Fin 16, d.flt.slices[r].unit = none) :
    (d.sdc[ch].wait = [] → d.sdc[ch].flight.length < 512 → (x.panic = true ∨ d.sdc[ch].flight.length < 448) →
      let e := d.sdcEnter ch x
      e = { d with regs := e.regs, sdc := d.sdc.set ch { d.sdc[ch] with flight := d.sdc[ch].flight ++ [x] } } ∧
      e.getF (sdcB ch) R.SDC_INFLIGHT 9 0 = d.sdc[ch].flight.length + 1 ∧
      e.getF (sdcB ch) R.SDC_INFLIGHT 25 16 = max (d.sdc[ch].flight.length + 1) (d.getF (sdcB ch) R.SDC_INFLIGHT 25 16) ∧
      d.regsKept e fun o => o = radr (sdcB ch) R.SDC_INFLIGHT) ∧
    (d.sdc[ch].flight.length = 512 →
      let e := d.sdcEnter ch x
      e = { d with regs := e.regs, sdc := d.sdc.set ch { d.sdc[ch] with wait := d.sdc[ch].wait ++ [x] } } ∧
      d.regsKept e fun o => o = radr (sdcB ch) R.SDC_INFLIGHT) := by
  have henter := d.sdcEnter_up ch x ha hu hb (hs _)
  obtain ⟨d1, hd1⟩ : ∃ y, y = d.sdcMod ch fun c => { c with
      flight := (letIn c.flight (c.wait ++ [x])).1, wait := (letIn c.flight (c.wait ++ [x])).2 } := ⟨_, rfl⟩
  have hset : d1 = { d with sdc := d.sdc.set ch { d.sdc[ch] with
      flight := (letIn d.sdc[ch].flight (d.sdc[ch].wait ++ [x])).1
      wait := (letIn d.sdc[ch].flight (d.sdc[ch].wait ++ [x])).2 } } := hd1
  have hr1 : d1.regs = d.regs := by rw [hd1]; rfl
  rw [← hd1] at henter
  clear hd1
  refine ⟨fun hw hlt hp => ?_, fun hfull => ?_⟩
  · have hin : letIn d.sdc[ch].flight (d.sdc[ch].wait ++ [x]) = (d.sdc[ch].flight ++ [x], d.sdc[ch].wait) := by
      rw [hw]
      exact letIn_single (roomFor_small hlt hp)
    rw [hin] at hset
    have hs1 : d1.sdc[ch].flight = d.sdc[ch].flight ++ [x] := by
      rw [hset]
      exact congrArg Sdc.flight (vset_same d.sdc ch _)
    have hlen : d1.sdc[ch].flight.length = d.sdc[ch].flight.length + 1 := by rw [hs1, List.length_append, List.length_singleton]
    obtain ⟨h1, h2, h3, h4⟩ := d1.flightShow_spec ch (by omega)
    intro e
    rw [show e = _ from henter]
    generalize d1.flightShow ch = f at h1 h2 h3 h4
    refine ⟨?_, h2.trans hlen, h3.trans ?_, fun a hna => (h4 a hna).trans (by rw [hr1])⟩
    · rw [hset] at h1
      exact h1
    · rw [hlen, Dev.getF, Dev.get_of_regs (d := d) _ _ 0 0 (by rw [hr1])]
      rfl
  · rw [letIn_full hfull] at hset
    have hs1 : d1.sdc[ch].flight = d.sdc[ch].flight := by
      rw [hset]
      exact (congrArg Sdc.flight (vset_same d.sdc ch _)).trans rfl
    obtain ⟨h1, -, -, h4⟩ := d1.flightShow_spec ch (by rw [hs1]; omega)
    intro e
    rw [show e = _ from henter]
    generalize d1.flightShow ch = f at h1 h4
    refine ⟨?_, fun a hna => (h4 a hna).trans (by rw [hr1])⟩
    rw [hset] at h1
    exact h1

/-! A cycle without a command (log 1, log 22). -/

/-- What every step of a fold keeps, the fold keeps. -/
theorem Dev.foldl_keeps {α β : Type} (p : Dev → β) {k : Dev → α → Dev} (hk : ∀ x a, p (k x a) = p x) (l : List α) (x : Dev) :
    p (l.foldl k x) = p x := by
  induction l generalizing x with
  | nil => rfl
  | cons a l ih => exact (ih (k x a)).trans (hk x a)

/-- The cells that leave or take TUNE at a servo tick are no part of an SDRAM channel. -/
theorem Dev.cellBound_sdc (d : Dev) (i : Fin 256) : (d.cellBound i).sdc = d.sdc := by
  have hst : ∀ st, 1 ≤ st ∧ st ≤ 4 → (d.cellState i st).sdc = d.sdc := fun st h => ((Dev.cellWork.refl i d).cellState h).work.get Dev.sdc
  unfold Dev.cellBound
  dsimp only
  split
  · exact hst 1 (by decide)
  · split
    · exact hst 4 (by decide)
    · rfl

theorem Dev.cycle_sdc (d : Dev) : d.cycle.sdc = d.sdc := by
  have htick : ∀ x : Dev, x.tickStart.sdc = x.sdc := fun x => by
    unfold Dev.tickStart
    extract_lets d1
    have h1 : d1.sdc = x.sdc := Dev.foldl_keeps Dev.sdc (fun y i => y.cellBound_sdc i) _ _
    clear_value d1
    split
    · exact h1
    · refine (Dev.foldl_keeps Dev.sdc (fun y h => ?_) _ _).trans h1
      split <;> rfl
  unfold Dev.cycle
  split
  · rfl
  · dsimp only
    split
    · exact htick _
    · rfl

/-- A cycle gives each channel one slot. -/
theorem cycle_slots (hp : s.pending = []) (hlive : s.dev.dead = false) (hops : ∀ o ∈ s.dev.ops, o.abortAt = none)
    (hs : ∀ r : Fin 16, s.dev.flt.slices[r].unit = none) :
    step s = .next s.cycle ∧ s.cycle.mem = (sdcSlots s.mem s.dev).1 ∧ s.cycle.dev.sdc = (sdcSlots s.mem s.dev).2.sdc := by
  have hcyc : s.cycle = { s with mem := (sdcSlots s.mem s.dev).1, dev := (sdcSlots s.mem s.dev).2.portPanic.cycle } := by
    simp only [State.cycle, hlive, abortsDue_none _ hops, sliceCuts_none hs, Bool.false_eq_true, if_false]
  refine ⟨by simp only [step, hp], ?_, ?_⟩
  · rw [hcyc]
  · rw [hcyc]
    exact Dev.cycle_sdc _

/-! Scrubbing (R367). -/

theorem exec_scrubRead (hlive : s.dev.dead = false) (hon : s.dev.getB (sdcB ch) R.SDC_SCRUB 0 = true) (hu : s.dev.up (sdcB ch) = true)
    (hb : s.dev.getB (sdcB ch) R.SDC_STAT 18 = false) (hs : ∀ r : Fin 16, s.dev.flt.slices[r].unit = none)
    (hf : s.dev.sdc[ch].flight = []) (hw : s.dev.sdc[ch].wait = []) :
    let n := s.dev.getF (blk .boot 0) R.BOOT_FILL 2 0 * s.dev.rankLines
    let i := s.dev.sdc[ch].scrub % n
    let a := lineAddr s.dev.rowBits ch.val (i / s.dev.rankLines) (i % s.dev.rankLines)
    0 < n → s.dev.scrubDue ch n = true → a + 64 ≤ s.dev.installed → ∃ d',
    exec (.scrubRead ch .clean) s = .next { s with dev := d' } ∧ d' = { s.dev with regs := d'.regs, sdc := d'.sdc } ∧
    d'.sdc[ch].scrub = (i + 1) % n ∧ d'.sdc[ch].flight = [⟨false, false, a, 64, none, .clean, false, 0, true⟩] ∧
    (∀ k : Fin 2, k ≠ ch → d'.sdc[k] = s.dev.sdc[k]) ∧ s.dev.regsKept d' (onPage (sdcB ch)) := by
  intro n i a hn hdue ha
  obtain ⟨d1, hd1⟩ : ∃ y, y = s.dev.sdcMod ch fun c => { c with
      scrub := (i + 1) % n
      scrubT := if i + 1 = n then c.scrubT + s.dev.getF (sdcB ch) R.SDC_SCRUB 15 8 * 2880000000000 else c.scrubT } := ⟨_, rfl⟩
  have hexec : exec (.scrubRead ch .clean) s = .next { s with dev := d1.sdcEnter ch ⟨false, false, a, 64, none, .clean, false, 0, true⟩ } := by
    have hcond : (s.dev.getB (sdcB ch) R.SDC_SCRUB 0 && s.dev.up (sdcB ch) && decide (0 < n) && s.dev.scrubDue ch n) = true := by
      rw [hon, hu, decide_eq_true hn, hdue]
      rfl
    change execScrubRead ch .clean s = _
    unfold execScrubRead
    rw [onLive_next _ _ hlive, hd1]
    exact congrArg (fun e => Host.Outcome.next { s with dev := e }) (Dev.when_of _ _ hcond)
  have hs1 : d1.sdc[ch].scrub = (i + 1) % n ∧ d1.sdc[ch].flight = [] ∧ d1.sdc[ch].wait = [] := by
    rw [hd1, Dev.sdcMod_same]
    exact ⟨rfl, hf, hw⟩
  have ho1 : ∀ k : Fin 2, k ≠ ch → d1.sdc[k] = s.dev.sdc[k] := fun k hk => by
    rw [hd1, Dev.sdcMod_ne _ _ hk]
  have hc1 : s.dev.changes [.regs, .sdc] d1 := by rw [hd1]; rfl
  have hr1 : d1.regs = s.dev.regs := by rw [hd1]; rfl
  have hi1 : a + 64 ≤ d1.installed := by rw [hd1]; exact ha
  have hsl1 : ∀ r : Fin 16, d1.flt.slices[r].unit = none := by rw [hd1]; exact hs
  clear hd1
  obtain ⟨hroom, -⟩ := Dev.sdcEnter_room ch d1 ⟨false, false, a, 64, none, .clean, false, 0, true⟩ hi1 ((Dev.up_of_regs (by rw [hr1])).trans hu)
    ((congrArg (bit · 18) (Dev.get_of_regs _ _ 0 0 (by rw [hr1]))).trans hb) hsl1
  obtain ⟨hfr, -, -, hk⟩ := hroom hs1.2.2 (by rw [hs1.2.1]; decide) (.inr (by rw [hs1.2.1]; decide))
  generalize d1.sdcEnter ch ⟨false, false, a, 64, none, .clean, false, 0, true⟩ = e at hexec hfr hk
  have hes : e.sdc = d1.sdc.set ch { d1.sdc[ch] with flight := d1.sdc[ch].flight ++ [⟨false, false, a, 64, none, .clean, false, 0, true⟩] } := by
    rw [hfr]
  have hsame := vset_same d1.sdc ch { d1.sdc[ch] with flight := d1.sdc[ch].flight ++ [⟨false, false, a, 64, none, .clean, false, 0, true⟩] }
  refine ⟨e, hexec, (hc1.trans (?_ : d1.changes _ e)).sdcParts, ?_, ?_, fun k hk' => ?_, fun o ho => ?_⟩
  · rw [hfr]
    rfl
  · rw [hes, hsame]
    exact hs1.1
  · rw [hes, hsame]
    change d1.sdc[ch].flight ++ _ = _
    rw [hs1.2.1]
    rfl
  · rw [hes]
    exact (vset_ne d1.sdc _ hk').trans (ho1 k hk')
  · rw [← hr1]
    exact hk o fun h => ho (h ▸ onPage_radr _ 0 0 (by decide))

/-! Migration (R368 to R371). -/

theorem exec_migrateCopy (g : MigMem) (hlive : s.dev.dead = false) (hg : s.mem.migs[ch] = some g) (hrun : s.dev.opRunning (sdcB ch) 1 = true)
    (hlt : g.p < s.dev.rankLines) (hpo : s.mem.poisoned (lineAddr g.rb ch.val g.rank g.p) 64 = false) (hmay : s.dev.mayCopy ch = true) : ∃ d',
    exec (.migrate ch (.copy .clean)) s = .next { s with
      mem := { s.mem with migs := s.mem.migs.set ch (some { g with p := g.p + 1 }) }, dev := d' } ∧
    d' = { s.dev with
      regs := d'.regs
      sdc := s.dev.sdc.set ch { s.dev.sdc[ch] with
        copies := s.dev.sdc[ch].copies + (if s.dev.sdc[ch].flight = [] then 0 else 1) } } ∧
    d'.get (sdcB ch) R.OP_PART 0 = wd (g.p + 1) ∧
    s.dev.regsKept d' fun a => a = radr (sdcB ch) R.OP_STAT ∨ a = radr (sdcB ch) R.OP_PART := by
  obtain ⟨d1, hd1⟩ : ∃ y, y = if s.dev.sdc[ch].flight.isEmpty then s.dev else s.dev.sdcMod ch fun c => { c with copies := c.copies + 1 } := ⟨_, rfl⟩
  have hset : d1 = { s.dev with sdc := s.dev.sdc.set ch { s.dev.sdc[ch] with
      copies := s.dev.sdc[ch].copies + (if s.dev.sdc[ch].flight = [] then 0 else 1) } } := by
    rw [hd1]
    by_cases hf : s.dev.sdc[ch].flight = []
    · rw [if_pos (List.isEmpty_iff.mpr hf), if_pos hf, Nat.add_zero]
      change s.dev = { s.dev with sdc := s.dev.sdc.set ch s.dev.sdc[ch] }
      rw [Fin.getElem_fin, Vector.set_getElem_self]
    · rw [if_neg (fun h => hf (List.isEmpty_iff.mp h)), if_neg hf]
      rfl
  have hr1 : d1.regs = s.dev.regs := by rw [hset]
  have hexec : exec (.migrate ch (.copy .clean)) s = .next { s with
      mem := { s.mem with migs := s.mem.migs.set ch (some { g with p := g.p + 1 }) }
      dev := (d1.opPart (sdcB ch) 0 (g.p + 1)).opProg (sdcB ch) (4095 * (g.p + 1) / d1.rankLines) } := by
    have hnot : ¬ (¬ s.dev.opRunning (sdcB ch) 1 = true ∨ s.dev.rankLines ≤ g.p ∨ ¬ s.dev.mayCopy ch = true) := by
      rintro (h | h | h)
      · exact h hrun
      · omega
      · exact h hmay
    change execMigrate ch (.copy .clean) s = _
    unfold execMigrate
    dsimp only
    rw [onLiveMem_next _ _ hlive]
    unfold Dev.migCopy
    dsimp only
    rw [hg]
    dsimp only
    rw [if_neg hnot, ← hd1, hpo]
    rfl
  clear hd1
  refine ⟨(d1.opPart (sdcB ch) 0 (g.p + 1)).opProg (sdcB ch) (4095 * (g.p + 1) / d1.rankLines), hexec, ?_, ?_, ?_⟩
  · have hF : d1.changes [.regs] ((d1.opPart (sdcB ch) 0 (g.p + 1)).opProg (sdcB ch) (4095 * (g.p + 1) / d1.rankLines)) :=
      (d1.put_changes _ _ _ _ _).trans (Dev.put_changes _ _ _ _ _ _)
    generalize (d1.opPart (sdcB ch) 0 (g.p + 1)).opProg (sdcB ch) (4095 * (g.p + 1) / d1.rankLines) = e at hF
    have he : e = { d1 with regs := e.regs } := congrArg (fun y : Dev => { y with regs := e.regs }) hF
    rw [hset] at he
    exact he
  · rw [Dev.opProg_get_part, Dev.opPart_get_same]
  · have h1 : s.dev.regsKept d1 fun a => a = radr (sdcB ch) R.OP_STAT ∨ a = radr (sdcB ch) R.OP_PART := fun a _ => by rw [hr1]
    exact h1.trans ((d1.regsKept_put (sdcB ch) R.OP_PART (wd (g.p + 1)) 0 0 (.inr rfl)).trans (Dev.regsKept_put _ _ _ _ 0 0 (.inl rfl)))

/-- Every line is copied: the target serves the rank (R371). -/
theorem exec_migrateDone (g : MigMem) (hlive : s.dev.dead = false) (hg : s.mem.migs[ch] = some g) (hrun : s.dev.opRunning (sdcB ch) 1 = true)
    (hp : g.p = s.dev.rankLines) (hrank : g.rank < 4) :
    let src := s.dev.getF (sdcB ch) R.OP_PART 5 4 3
    let tgt := s.dev.getF (sdcB ch) R.OP_PART 9 8 3
    src ≠ tgt → ∃ d',
    exec (.migrateDone ch false) s = .next { s with
      mem := { s.mem with migs := s.mem.migs.set ch none }, dev := d' } ∧
    d' = { s.dev with regs := d'.regs, vecs := d'.vecs, ops := d'.ops } ∧
    d'.getF (sdcB ch) R.SDC_RANKMAP (2 * g.rank + 1) (2 * g.rank) = tgt ∧
    d'.getB (sdcB ch) R.SDC_STAT 17 = false ∧ d'.getB (sdcB ch) R.SDC_STAT (8 + src) = true ∧
    d'.getB (sdcB ch) R.SDC_STAT (4 + src) = false ∧ d'.getB (sdcB ch) R.SDC_STAT (4 + tgt) = true ∧
    d'.getB (sdcB ch) R.SDC_EVT 1 = true ∧ d'.get (sdcB ch) R.OP_STAT = opWord 3 4095 0 (s.dev.opTag (sdcB ch)) := by
  intro src tgt hne
  have hsrc : src < 4 := fld_lt _ 5 4
  have htgt : tgt < 4 := fld_lt _ 9 8
  obtain ⟨d1, hd1⟩ : ∃ y, y = (s.dev.putF (sdcB ch) R.SDC_RANKMAP (2 * g.rank + 1) (2 * g.rank) tgt).putB (sdcB ch) R.SDC_STAT 17 false := ⟨_, rfl⟩
  obtain ⟨d2, hd2⟩ : ∃ y, y = ((d1.putB (sdcB ch) R.SDC_STAT (8 + src) true).putB (sdcB ch) R.SDC_STAT (4 + src) false).putB (sdcB ch)
    R.SDC_STAT (4 + tgt) true := ⟨_, rfl⟩
  have hexec : exec (.migrateDone ch false) s = .next { s with
      mem := { s.mem with migs := s.mem.migs.set ch none }
      dev := (d2.event (sdcB ch) R.SDC_EVT R.SDC_EVT_EN 2#32 60).opDone (sdcB ch) } := by
    change execMigrateDone ch false s = _
    unfold execMigrateDone
    rw [onLiveMem_next _ _ hlive]
    dsimp only
    rw [hg]
    dsimp only
    rw [if_neg (not_not.mpr hrun), if_neg Bool.false_ne_true, if_pos hp, hd2, hd1]
  have hc2 : s.dev.changes [.regs, .vecs, .ops] d2 := by
    rw [hd2, hd1]
    exact Dev.changes.mono (F := [.regs]) rfl (by decide)
  have hmap : d2.getF (sdcB ch) R.SDC_RANKMAP (2 * g.rank + 1) (2 * g.rank) = tgt := by
    rw [hd2, hd1]
    refine Eq.trans ?_ ((s.dev.getF_putF_same (sdcB ch) R.SDC_RANKMAP 0 0 tgt (hi := 2 * g.rank + 1) (lo := 2 * g.rank) (by omega) (by omega)).trans ?_)
    · refine congrArg (fun w => fld w (2 * g.rank + 1) (2 * g.rank)) ?_
      rw [Dev.get_putB_ne, Dev.get_putB_ne, Dev.get_putB_ne, Dev.get_putB_ne] <;> exact radr_ne_of_ofs _ _ _ 0 0 0 0 (by decide)
    · rw [show 2 * g.rank + 1 + 1 - 2 * g.rank = 2 by omega]
      exact Nat.mod_eq_of_lt htgt
  have hst : ∀ k, d2.getB (sdcB ch) R.SDC_STAT k = if k = 4 + tgt then true else if k = 4 + src then false else if k = 8 + src then true
      else d1.getB (sdcB ch) R.SDC_STAT k := fun k => by
    rw [hd2, Dev.getB_putB _ _ _ (by omega), Dev.getB_putB _ _ _ (by omega), Dev.getB_putB _ _ _ (by omega)]
  have h17 : d1.getB (sdcB ch) R.SDC_STAT 17 = false := by
    rw [hd1]
    exact Dev.getB_putB_same _ _ _ _ _ _ (by decide)
  have htag : d2.opTag (sdcB ch) = s.dev.opTag (sdcB ch) := by
    refine congrArg (fun w => fld w 7 0) ?_
    rw [hd2, hd1, Dev.get_putB_ne, Dev.get_putB_ne, Dev.get_putB_ne, Dev.get_putB_ne, Dev.get_putF_ne] <;>
      exact radr_ne_of_ofs _ _ _ 0 0 0 0 (by decide)
  clear hd2 hd1
  obtain ⟨d3, hd3⟩ : ∃ y, y = d2.event (sdcB ch) R.SDC_EVT R.SDC_EVT_EN 2#32 60 := ⟨_, rfl⟩
  have hc3 : d2.changes [.regs, .vecs] d3 := by
    rw [hd3]
    exact d2.event_changes _ _ _ _ _ _
  have hg3 : ∀ q : Reg, q.off < 0x1000 → q.off ≠ R.SDC_EVT.off → d3.get (sdcB ch) q = d2.get (sdcB ch) q := fun q hq hne => by
    rw [hd3]
    exact d2.event_get_ne (sdcB_ne_hif ch) (by rw [q.ofs_zero]; exact hq) _ _ (by decide) (radr_ne_of_ofs _ _ _ 0 0 0 0
      (by rwa [Reg.ofs_zero, Reg.ofs_zero]))
  have hevt : d3.getB (sdcB ch) R.SDC_EVT 1 = true := by
    rw [hd3, Dev.getB, Dev.event_get _ _ _ (by decide) (sdcB_ne_hif ch) (by decide)]
    exact bit_or_pow _ (k := 1) (by decide)
  have htag3 : d3.opTag (sdcB ch) = s.dev.opTag (sdcB ch) := (congrArg (fun w => fld w 7 0) (hg3 R.OP_STAT (by decide) (by decide))).trans htag
  rw [← hd3] at hexec
  clear hd3
  have hop := d3.opDone_stat (sdcB ch)
  have hc4 := d3.opDone_changes (sdcB ch)
  have hk4 := d3.opDone_kept (sdcB ch) (p := fun a => a = radr (sdcB ch) R.OP_STAT) rfl
  generalize d3.opDone (sdcB ch) = e at hexec hop hc4 hk4
  have hg4 : ∀ q : Reg, q.off ≠ R.OP_STAT.off → e.get (sdcB ch) q = d3.get (sdcB ch) q := fun q hq =>
    hk4.get _ q 0 0 (radr_ne_of_ofs _ _ _ 0 0 0 0 (by rwa [Reg.ofs_zero, Reg.ofs_zero]))
  have hF : s.dev.changes [.regs, .vecs, .ops] e := (hc2.trans (hc3.mono (by decide))).trans (hc4.mono (by decide))
  have hstat : ∀ k, e.getB (sdcB ch) R.SDC_STAT k = d2.getB (sdcB ch) R.SDC_STAT k := fun k =>
    congrArg (bit · k) ((hg4 R.SDC_STAT (by decide)).trans (hg3 _ (by decide) (by decide)))
  refine ⟨e, hexec, congrArg (fun y : Dev => { y with regs := e.regs, vecs := e.vecs, ops := e.ops }) hF, ?_, ?_, ?_, ?_, ?_, ?_, ?_⟩
  · exact (congrArg (fun w => fld w (2 * g.rank + 1) (2 * g.rank)) ((hg4 R.SDC_RANKMAP (by decide)).trans (hg3 _ (by decide) (by decide)))).trans hmap
  · rw [hstat, hst, if_neg (by omega), if_neg (by omega), if_neg (by omega), h17]
  · rw [hstat, hst, if_neg (by omega), if_neg (by omega), if_pos rfl]
  · rw [hstat, hst, if_neg (by omega), if_pos rfl]
  · rw [hstat, hst, if_pos rfl]
  · exact (congrArg (bit · 1) (hg4 R.SDC_EVT (by decide))).trans hevt
  · rw [hop, htag3]

end

/-- Settles O46: requests and slots one by one, a migration by its copies and its end. -/
theorem requestsAreServedAndRanksMigrate : Obligations.RequestsAreServedAndRanksMigrate := by
  unfold Obligations.RequestsAreServedAndRanksMigrate
  refine ⟨⟨fun s ch r hlive => ?_, fun d m ch l i x => ?_, fun m d ch x hf hw ha hu hb hov => sdcSlot_outcome hf hw ha hu hb hov,
    fun s hp hlive hops hs => cycle_slots s hp hlive hops hs, fun s ch hlive hon hu hb hs hf hw => exec_scrubRead s ch hlive hon hu hb hs hf hw⟩,
    fun s ch g hlive hg hrun hlt hpo hmay => exec_migrateCopy s ch g hlive hg hrun hlt hpo hmay,
    fun s ch g hlive hg hrun hp hrank => exec_migrateDone s ch g hlive hg hrun hp hrank⟩
  · intro n a x c
    have hexec : exec (.sdramRequest ch r) s = .next { s with dev := s.dev.when (decide (0 < n)) fun d => d.sdcEnter ch x } :=
      exec_sdramRequest s ch r hlive
    have hpos : 0 < n → exec (.sdramRequest ch r) s = .next { s with dev := s.dev.sdcEnter ch x } := fun hn => by
      rw [hexec, Dev.when_of _ _ (decide_eq_true hn)]
    refine ⟨fun hn => ?_, fun hn hlt => ?_, fun hn ha hu => ?_, fun hn ha hu hb => ?_, fun hn ha hu hb hs => ?_⟩
    · rw [hexec, Dev.when_not _ _ (decide_eq_false (by omega))]
    · rw [hpos hn, Dev.sdcEnter]
      dsimp only
      rw [if_pos hlt]
      rfl
    · rw [hpos hn, Dev.sdcEnter]
      dsimp only
      rw [if_neg (Nat.not_lt.mpr ha), if_pos (by rw [hu]; decide)]
      rfl
    · rw [hpos hn, Dev.sdcEnter]
      dsimp only
      rw [if_neg (Nat.not_lt.mpr ha), if_neg (not_not.mpr hu), if_pos hb]
      rfl
    · obtain ⟨hroom, hfull⟩ := Dev.sdcEnter_room ch s.dev x ha hu hb hs
      refine ⟨fun hw hlt hp => ⟨_, hpos hn, hroom hw hlt hp⟩, fun h => ⟨_, hpos hn, hfull h⟩⟩
  · intro ok
    exact ⟨fun hi hp hx hno => d.slotTo_panic m ch hi hx hp hno, fun hi hc hx hno => d.slotTo_oldest m ch hi hx hc hno,
      fun hi hc hx h16 => d.slotTo_passed m ch hi hx hc h16⟩

end Sys2Proof.Machine
end

section
/-! Refresh of SDRAM (R373 to R376). -/

namespace Sys2Proof.Machine

theorem unitIx_inj (r : Fin 4) {b b' : Fin 4} (h : unitIx r b = unitIx r b') : b = b' := by
  revert r b b'
  decide

/-- No other rank or bank has the refresh unit. -/
theorem unitIx_ne (r : Fin 4) {b b' : Fin 4} (h : b ≠ b') : unitIx r b ≠ unitIx r b' := fun he => h (unitIx_inj r he)

section
variable (d : Dev) (ch : Fin 2)

theorem Dev.unitMod_same (u : Fin 16) (f : RefUnit → RefUnit) : (d.unitMod ch u f).sdc[ch].units[u] = f d.sdc[ch].units[u] := by
  rw [Dev.unitMod, Dev.sdcMod_same]
  exact vmod_same _ u f

variable {ch} in
theorem Dev.unitMod_ne {u v : Fin 16} (f : RefUnit → RefUnit) (h : v ≠ u) : (d.unitMod ch u f).sdc[ch].units[v] = d.sdc[ch].units[v] := by
  rw [Dev.unitMod, Dev.sdcMod_same]
  exact vmod_ne _ f h

/-- The units of a rank changed one after the other. -/
theorem Dev.unitMods_spec (r : Fin 4) (f : RefUnit → RefUnit) {l : List (Fin 4)} (hl : l.Nodup) :
    let e := l.foldl (fun (e : Dev) b => e.unitMod ch (unitIx r b) f) d
    d.changes [.sdc] e ∧ e.sdc[ch].polled = d.sdc[ch].polled ∧
    ∀ b, e.sdc[ch].units[unitIx r b] = if b ∈ l then f d.sdc[ch].units[unitIx r b] else d.sdc[ch].units[unitIx r b] := by
  induction l generalizing d with
  | nil => exact ⟨.refl _ _, rfl, fun b => (if_neg List.not_mem_nil).symm⟩
  | cons a t ih =>
    obtain ⟨ha, ht⟩ := List.nodup_cons.mp hl
    have hsame := d.unitMod_same ch (unitIx r a) f
    have hne := fun b (hb : b ≠ a) => d.unitMod_ne (ch := ch) f (unitIx_ne r hb)
    have hc : d.changes [.sdc] (d.unitMod ch (unitIx r a) f) := rfl
    have hp : (d.unitMod ch (unitIx r a) f).sdc[ch].polled = d.sdc[ch].polled := by
      rw [Dev.unitMod, Dev.sdcMod_same]
    intro e
    have he : e = t.foldl (fun (e : Dev) b => e.unitMod ch (unitIx r b) f) (d.unitMod ch (unitIx r a) f) := rfl
    generalize d.unitMod ch (unitIx r a) f = d1 at hsame hne hc hp he
    obtain ⟨h1, h2, h3⟩ := ih d1 ht
    rw [he]
    refine ⟨hc.trans h1, h2.trans hp, fun b => (h3 b).trans ?_⟩
    by_cases hba : b = a
    · rw [hba, if_neg ha, if_pos List.mem_cons_self, hsame]
    · rw [hne b hba]
      simp only [List.mem_cons, hba, false_or]

/-- SDC_REF_OWED shows what is owed (R388). -/
theorem Dev.owedShow_spec : let e := d.owedShow ch
    e = { d with regs := e.regs } ∧ d.regsKept e fun a => a = radr (sdcB ch) R.SDC_REF_OWED :=
  ⟨rfl, d.regsKept_put _ _ _ 0 0 rfl⟩

/-- Other registers of the channel. -/
theorem Dev.owedShow_get {q : Reg} (h : q.off ≠ R.SDC_REF_OWED.off) : (d.owedShow ch).get (sdcB ch) q = d.get (sdcB ch) q :=
  (d.owedShow_spec ch).2.get _ q 0 0 (radr_ne_of_ofs _ _ _ 0 0 0 0 (by rwa [Reg.ofs_zero, Reg.ofs_zero]))

/-- The doubled rate (R375). -/
theorem Dev.restate_doubled (r : Fin 4) :
    let e := d.restate ch r true
    d.changes [.regs, .vecs, .sdc] e ∧ e.rankDbl ch r = true ∧
    (∀ b, e.sdc[ch].units[unitIx r b].owed = 2 * d.sdc[ch].units[unitIx r b].owed) ∧ e.sdc[ch].polled = d.sdc[ch].polled ∧
    e.getB (sdcB ch) R.SDC_EVT 3 = true ∧
    e.getN (sdcB ch) R.SDC_REF_RESTATE = min 0xFFFFFFFF (d.getN (sdcB ch) R.SDC_REF_RESTATE + 1) := by
  obtain ⟨d1, hd1⟩ : ∃ y, y = (d.putB (sdcB ch) R.SDC_STAT (12 + r.val) true).bump (sdcB ch) R.SDC_REF_RESTATE := ⟨_, rfl⟩
  obtain ⟨d2, hd2⟩ : ∃ y, y = (List.finRange 4).foldl (fun (e : Dev) b => e.unitMod ch (unitIx r b) fun u =>
    { u with owed := restated true u.owed, was := some (d.now, u.owed) }) d1 := ⟨_, rfl⟩
  obtain ⟨hc2, hp2, hu2⟩ := d1.unitMods_spec ch r (fun u => { u with owed := restated true u.owed, was := some (d.now, u.owed) })
    (List.nodup_finRange 4)
  rw [← hd2] at hc2 hp2 hu2
  obtain ⟨h3, hk3⟩ := d2.owedShow_spec ch
  have hg3 := fun {q : Reg} => d2.owedShow_get ch (q := q)
  intro e
  have he : e = (d2.owedShow ch).event (sdcB ch) R.SDC_EVT R.SDC_EVT_EN 8#32 60 := by
    rw [hd2, hd1]
    rfl
  clear_value e
  generalize d2.owedShow ch = d3 at h3 hk3 hg3 he
  have hc4 := d3.event_changes (sdcB ch) R.SDC_EVT R.SDC_EVT_EN 8#32 60 0
  have hev : (d3.event (sdcB ch) R.SDC_EVT R.SDC_EVT_EN 8#32 60).getB (sdcB ch) R.SDC_EVT 3 = true := by
    rw [Dev.getB, Dev.event_get _ _ _ (by decide) (sdcB_ne_hif ch) (by decide)]
    exact bit_or_pow _ (k := 3) (by decide)
  have hg4 : ∀ q : Reg, q.off < 0x1000 → q.off ≠ R.SDC_EVT.off →
      (d3.event (sdcB ch) R.SDC_EVT R.SDC_EVT_EN 8#32 60).get (sdcB ch) q = d3.get (sdcB ch) q := fun q hq hne =>
    d3.event_get_ne (sdcB_ne_hif ch) (by rw [q.ofs_zero]; exact hq) _ _ (by decide) (radr_ne_of_ofs _ _ _ 0 0 0 0
      (by rwa [Reg.ofs_zero, Reg.ofs_zero]))
  rw [← he] at hc4 hev hg4
  clear he hd2
  have hr2 : d2.regs = d1.regs := hc2.get Dev.regs
  have hg : ∀ q : Reg, q.off < 0x1000 → q.off ≠ R.SDC_EVT.off → q.off ≠ R.SDC_REF_OWED.off → e.get (sdcB ch) q = d1.get (sdcB ch) q :=
    fun q hq h1 h2 => (hg4 q hq h1).trans ((hg3 h2).trans (Dev.get_of_regs _ _ 0 0 (by rw [hr2])))
  have hs4 : e.sdc = d2.sdc := (show e.sdc = d3.sdc from hc4.get Dev.sdc).trans (by rw [h3])
  have hc1 : d.changes [.regs] d1 ∧ d1.sdc = d.sdc := by rw [hd1]; exact ⟨rfl, rfl⟩
  have hc3 : d2.changes [.regs] d3 := by rw [h3]; rfl
  refine ⟨(((hc1.1.mono (by decide)).trans (hc2.mono (by decide))).trans (hc3.mono (by decide))).trans (hc4.mono (by decide)), ?_, fun b => ?_, ?_,
    hev, ?_⟩
  · refine (congrArg (bit · (12 + r.val)) (hg R.SDC_STAT (by decide) (by decide) (by decide))).trans ?_
    rw [hd1, Dev.sdcBump_get _ _ _ (by decide)]
    exact Dev.getB_putB_same _ _ _ _ _ _ (by omega)
  · rw [hs4, hu2 b, if_pos (List.mem_finRange b), hc1.2]
    rfl
  · rw [hs4, hp2, hc1.2]
  · refine (congrArg BitVec.toNat (hg R.SDC_REF_RESTATE (by decide) (by decide) (by decide))).trans ?_
    rw [hd1]
    refine (Dev.getN_bump _ _ _ 0 0).trans ?_
    rw [Dev.getN, Dev.get_putB_ne _ _ _ (radr_ne_of_ofs _ _ _ 0 0 0 0 (by decide))]
    rfl

/-- A fault that drives no critical line sends no vector of its own (R414). -/
theorem Dev.detect_calm {b : Blk} {t : BT} {n kind : Nat} (hb : blkKind b = some (t, n)) (hc : t.crit &&& wd (2 ^ kind) = 0)
    (c : Option Nat) (addr : Nat) (trans inj alsof : Bool) : d.changes [.regs, .fabric] (d.detect b c kind addr trans inj alsof) := by
  unfold Dev.detect
  rw [hb]
  dsimp -zeta only
  extract_lets km own crit was d1 d2
  have hcrit : crit = false := by
    have hz : decide (t.crit &&& km ≠ 0) = false := decide_eq_false (not_not.mpr hc)
    simp only [crit, hz, Bool.and_false]
  have h1 : d.changes [.regs, .fabric] d1 := .ite ((d.put_changes _ _ _ _ _).mono (by decide)) (.refl _ _)
  have h2 : d2 = d1 := if_neg (by rw [hcrit]; exact Bool.false_ne_true)
  rw [h2]
  clear_value d1
  split
  · exact h1
  · exact h1.trans ((d1.post_changes _ _ _ _ _ _ _ _).mono (by decide))

/-- SDC_REF_CTL.DIS (R376). -/
theorem Dev.refDis_spec (dis : Bool) :
    let e := d.refDis ch dis
    d.changes [.regs, .fabric, .fresh] e ∧ e.refOn ch = (!dis) ∧ e.getB (sdcB ch) R.SDC_STAT 19 = dis ∧
    (dis = true → d.refOn ch = true → e.getB (sdcB ch) R.FLT_STAT 4 = true) ∧
    (dis = false → d.regsKept e fun a => a = radr (sdcB ch) R.SDC_REF_CTL ∨ a = radr (sdcB ch) R.SDC_STAT) := by
  obtain ⟨d1, hd1⟩ : ∃ y, y = (d.putB (sdcB ch) R.SDC_REF_CTL 0 dis).putB (sdcB ch) R.SDC_STAT 19 dis := ⟨_, rfl⟩
  have hc1 : d.changes [.regs] d1 := by rw [hd1]; rfl
  have hon1 : d1.refOn ch = !dis := by
    rw [Dev.refOn, hd1, Dev.getB_putB_ne _ _ _ _ (radr_ne_of_ofs _ _ _ 0 0 0 0 (by decide)), Dev.getB_putB_same _ _ _ _ _ _ (by decide)]
  have hst1 : d1.getB (sdcB ch) R.SDC_STAT 19 = dis := by
    rw [hd1]
    exact Dev.getB_putB_same _ _ _ _ _ _ (by decide)
  have hk1 : d.regsKept d1 fun a => a = radr (sdcB ch) R.SDC_REF_CTL ∨ a = radr (sdcB ch) R.SDC_STAT := by
    rw [hd1]
    exact (d.regsKept_put _ _ _ 0 0 (.inl rfl)).trans (Dev.regsKept_put _ _ _ _ 0 0 (.inr rfl))
  intro e
  have he : e = if dis && d.refOn ch then d1.free.2.raise (sdcB ch) (some (fld d1.free.1 1 0)) 4 else d1 := by rw [hd1]; rfl
  clear_value e
  clear hd1
  have hr1 : d1.free.2.regs = d1.regs := rfl
  have hf1 : d1.changes [.fresh] d1.free.2 := rfl
  generalize fld d1.free.1 1 0 = c at he
  generalize d1.free.2 = d2 at he hr1 hf1
  have hcalm := d2.detect_calm (kind := 4) (sdcB_kind ch) (by decide) (some c) 0 false false false
  have hset : (d2.raise (sdcB ch) (some c) 4).getB (sdcB ch) R.FLT_STAT 4 = true :=
    d2.detect_stat (sdcB_kind ch) (sdcB_ne_hif ch) (sdcB_ne_fltc ch) _ (by decide) _ _ _ _
  have hget : ∀ q : Reg, q.off < 0x1000 → q.off ≠ R.FLT_STAT.off → (d2.raise (sdcB ch) (some c) 4).get (sdcB ch) q = d1.get (sdcB ch) q :=
    fun q hq hne => (d2.detect_get (sdcB_ne_hif ch) (by rw [q.ofs_zero]; exact hq) _ _ _ _ _ _ (sdcB_ne_fltc ch)
      (radr_ne_of_ofs _ _ _ 0 0 0 0 (by rwa [Reg.ofs_zero, Reg.ofs_zero]))).trans (Dev.get_of_regs _ _ 0 0 (by rw [hr1]))
  change d2.changes _ (d2.raise (sdcB ch) (some c) 4) at hcalm
  generalize d2.raise (sdcB ch) (some c) 4 = d3 at he hcalm hset hget
  by_cases hnew : (dis && d.refOn ch) = true
  · rw [if_pos hnew] at he
    obtain ⟨hdis, -⟩ := Bool.and_eq_true_iff.mp hnew
    rw [he]
    refine ⟨((hc1.mono (by decide)).trans (hf1.mono (by decide))).trans (hcalm.mono (by decide)), ?_, ?_, fun _ _ => hset, fun h => ?_⟩
    · refine Eq.trans ?_ hon1
      exact congrArg (fun w => !bit w 0) (hget R.SDC_REF_CTL (by decide) (by decide))
    · exact (congrArg (bit · 19) (hget R.SDC_STAT (by decide) (by decide))).trans hst1
    · rw [hdis] at h
      cases h
  · rw [if_neg hnew] at he
    rw [he]
    refine ⟨hc1.mono (by decide), hon1, hst1, fun h1 h2 => absurd (by rw [h1, h2]; rfl) hnew, fun _ => hk1⟩

end

section
variable (s : State) (ch : Fin 2)

theorem exec_refreshAccrual (r b : Fin 4) (hlive : s.dev.dead = false) (hr : s.dev.rankLive ch r = true) (hon : s.dev.refOn ch = true)
    (hp : s.dev.pastNs s.dev.sdc[ch].units[unitIx r b].accr (if s.dev.rankDbl ch r then 1950 else 3900) = true) : ∃ d',
    exec (.refreshAccrual ch r b) s = .next { s with dev := d' } ∧
    d' = { s.dev with
      regs := d'.regs
      sdc := s.dev.sdc.set ch { s.dev.sdc[ch] with
        units := s.dev.sdc[ch].units.set (unitIx r b) { s.dev.sdc[ch].units[unitIx r b] with
          owed := s.dev.sdc[ch].units[unitIx r b].owed + 1, accr := s.dev.now } } } ∧
    s.dev.regsKept d' fun a => a = radr (sdcB ch) R.SDC_REF_OWED := by
  have hcond : (s.dev.rankLive ch r && s.dev.refOn ch && s.dev.pastNs s.dev.sdc[ch].units[unitIx r b].accr
      (if s.dev.rankDbl ch r then 1950 else 3900)) = true := by rw [hr, hon, hp]; rfl
  have hexec : exec (.refreshAccrual ch r b) s = .next { s with
      dev := (s.dev.unitMod ch (unitIx r b) fun u => { u with owed := u.owed + 1, accr := s.dev.now }).owedShow ch } := by
    change execRefreshAccrual ch r b s = _
    unfold execRefreshAccrual
    rw [onLive_next _ _ hlive]
    exact congrArg (fun e => Host.Outcome.next { s with dev := e }) (Dev.when_of _ _ hcond)
  obtain ⟨h1, h2⟩ := (s.dev.unitMod ch (unitIx r b) fun u => { u with owed := u.owed + 1, accr := s.dev.now }).owedShow_spec ch
  exact ⟨_, hexec, h1, h2⟩

theorem exec_refreshIssue (r b : Fin 4) (hlive : s.dev.dead = false) (hr : s.dev.rankLive ch r = true) (hon : s.dev.refOn ch = true)
    (hpos : 0 < s.dev.sdc[ch].units[unitIx r b].owed)
    (hlast : ∀ t, s.dev.sdc[ch].units[unitIx r b].last = some t → s.dev.pastNs t (s.dev.getF (sdcB ch) R.SDC_TRFCSB 11 0) = true)
    (hwas : ∀ w, s.dev.sdc[ch].units[unitIx r b].was = some w → w.1 ≠ s.dev.now)
    (hidle : (∀ x ∈ s.dev.sdc[ch].flight, bankOf x.addr = b.val → s.dev.flightRank s.mem ch x ≠ r) ∨
      s.dev.owedLimit ch r < s.dev.sdc[ch].units[unitIx r b].owed) : ∃ d',
    exec (.refreshIssue ch r b) s = .next { s with dev := d' } ∧
    d' = { s.dev with
      regs := d'.regs
      sdc := s.dev.sdc.set ch { s.dev.sdc[ch] with
        units := s.dev.sdc[ch].units.set (unitIx r b) { s.dev.sdc[ch].units[unitIx r b] with
          owed := s.dev.sdc[ch].units[unitIx r b].owed - 1, last := some s.dev.now } } } ∧
    d'.getN (sdcB ch) R.SDC_REF_FORCED = (if s.dev.owedLimit ch r < s.dev.sdc[ch].units[unitIx r b].owed then
      min 0xFFFFFFFF (s.dev.getN (sdcB ch) R.SDC_REF_FORCED + 1) else s.dev.getN (sdcB ch) R.SDC_REF_FORCED) ∧
    s.dev.regsKept d' fun a => a = radr (sdcB ch) R.SDC_REF_OWED ∨ a = radr (sdcB ch) R.SDC_REF_FORCED := by
  have hold : (s.dev.sdc[ch].units[unitIx r b].was.bind fun w => if w.1 = s.dev.now then some w.2 else none) = none := by
    cases hw : s.dev.sdc[ch].units[unitIx r b].was with
    | none => rfl
    | some w => exact if_neg (hwas w hw)
  obtain ⟨d1, hd1⟩ : ∃ y, y = if s.dev.owedLimit ch r < s.dev.sdc[ch].units[unitIx r b].owed then s.dev.bump (sdcB ch) R.SDC_REF_FORCED else s.dev :=
    ⟨_, rfl⟩
  have hexec : exec (.refreshIssue ch r b) s = .next { s with dev := (d1.unitMod ch (unitIx r b) fun u => { u with
      owed := s.dev.sdc[ch].units[unitIx r b].owed - 1, last := some s.dev.now, was := u.was }).owedShow ch } := by
    have hspaced : (match s.dev.sdc[ch].units[unitIx r b].last with
        | none => true
        | some t => s.dev.pastNs t (s.dev.getF (sdcB ch) R.SDC_TRFCSB 11 0)) = true := by
      cases hl : s.dev.sdc[ch].units[unitIx r b].last with
      | none => rfl
      | some t => exact hlast t hl
    have hfree : (!s.dev.sdc[ch].flight.any (fun x => decide (bankOf x.addr = b.val) && decide (s.dev.flightRank s.mem ch x = r)) ||
        decide (s.dev.owedLimit ch r < s.dev.sdc[ch].units[unitIx r b].owed)) = true := by
      rcases hidle with h | h
      · have hno : s.dev.sdc[ch].flight.any (fun x => decide (bankOf x.addr = b.val) && decide (s.dev.flightRank s.mem ch x = r)) = false :=
          List.any_eq_false.mpr fun x hx => by simpa using h x hx
        rw [hno]
        rfl
      · rw [decide_eq_true h, Bool.or_true]
    change execRefreshIssue ch r b s = _
    unfold execRefreshIssue
    rw [onLiveMem_next _ _ hlive]
    dsimp only
    rw [hold, Option.getD_none, Option.isSome_none, if_neg Bool.false_ne_true, hr, hon, decide_eq_true hpos]
    rw [Dev.when_of _ _ (by rw [Bool.and_true, Bool.and_true, Bool.true_and]; exact Bool.and_eq_true_iff.mpr ⟨hspaced, hfree⟩), hd1]
    rfl
  have hn1 : d1.getN (sdcB ch) R.SDC_REF_FORCED = (if s.dev.owedLimit ch r < s.dev.sdc[ch].units[unitIx r b].owed then
      min 0xFFFFFFFF (s.dev.getN (sdcB ch) R.SDC_REF_FORCED + 1) else s.dev.getN (sdcB ch) R.SDC_REF_FORCED) := by
    rw [hd1]
    split
    · exact s.dev.getN_bump _ _ 0 0
    · rfl
  have hk1 : s.dev.regsKept d1 fun a => a = radr (sdcB ch) R.SDC_REF_OWED ∨ a = radr (sdcB ch) R.SDC_REF_FORCED := by
    rw [hd1]
    split
    · exact s.dev.regsKept_put _ _ _ 0 0 (.inr rfl)
    · exact s.dev.regsKept_refl _
  have hf1 : d1 = { s.dev with regs := d1.regs } := by
    have hc : s.dev.changes [.regs] d1 := by
      rw [hd1]
      exact .ite (s.dev.put_changes _ _ _ _ _) (.refl _ _)
    exact congrArg (fun y : Dev => { y with regs := d1.regs }) hc
  clear hd1
  have hs1 : d1.sdc = s.dev.sdc := by rw [hf1]
  obtain ⟨d2, hd2⟩ : ∃ y, y = d1.unitMod ch (unitIx r b) fun u => { u with
      owed := s.dev.sdc[ch].units[unitIx r b].owed - 1, last := some s.dev.now, was := u.was } := ⟨_, rfl⟩
  have hf2 : d2 = { d1 with sdc := d1.sdc.set ch { d1.sdc[ch] with
      units := d1.sdc[ch].units.set (unitIx r b) { d1.sdc[ch].units[unitIx r b] with
        owed := s.dev.sdc[ch].units[unitIx r b].owed - 1, last := some s.dev.now } } } := hd2
  have hr2 : d2.regs = d1.regs := by rw [hd2]; rfl
  rw [← hd2] at hexec
  clear hd2
  obtain ⟨h3, hk3⟩ := d2.owedShow_spec ch
  have hg3 := d2.owedShow_get ch (q := R.SDC_REF_FORCED) (by decide)
  generalize d2.owedShow ch = e at hexec h3 hk3 hg3
  refine ⟨e, hexec, ?_, ?_, hk1.trans fun a hna => (hk3 a fun h => hna (.inl h)).trans (by rw [hr2])⟩
  · rw [hf2, hs1, hf1] at h3
    exact h3
  · rw [← hn1]
    exact congrArg BitVec.toNat (hg3.trans (Dev.get_of_regs _ _ 0 0 (by rw [hr2])))

theorem exec_mr4Poll_doubled (r : Fin 4) (hlive : s.dev.dead = false) (hr : s.dev.rankLive ch r = true) (hdbl : s.dev.rankDbl ch r = false)
    (hp : s.dev.past s.dev.sdc[ch].polled[r] (s.dev.getF (sdcB ch) R.SDC_REF_CTL 15 8 * 1000) = true) : ∃ d',
    exec (.mr4Poll ch r true) s = .next { s with dev := d' } ∧
    d' = { s.dev with regs := d'.regs, vecs := d'.vecs, sdc := d'.sdc } ∧ d'.rankDbl ch r = true ∧
    (∀ b, d'.sdc[ch].units[unitIx r b].owed = 2 * s.dev.sdc[ch].units[unitIx r b].owed) ∧
    d'.sdc[ch].polled[r] = s.dev.now ∧ d'.getB (sdcB ch) R.SDC_EVT 3 = true ∧
    d'.getN (sdcB ch) R.SDC_REF_RESTATE = min 0xFFFFFFFF (s.dev.getN (sdcB ch) R.SDC_REF_RESTATE + 1) := by
  obtain ⟨d1, hd1⟩ : ∃ y, y = s.dev.sdcMod ch fun c => { c with polled := c.polled.set r s.dev.now, normal := c.normal.set r 0 } := ⟨_, rfl⟩
  have hcond : (s.dev.rankLive ch r && s.dev.past s.dev.sdc[ch].polled[r] (s.dev.getF (sdcB ch) R.SDC_REF_CTL 15 8 * 1000)) = true := by
    rw [hr, hp]
    rfl
  have hexec : exec (.mr4Poll ch r true) s = .next { s with dev := d1.restate ch r true } := by
    change execMr4Poll ch r true s = _
    unfold execMr4Poll
    rw [onLive_next _ _ hlive]
    dsimp only
    rw [Dev.when_of _ _ hcond, hdbl, hd1]
    rfl
  have hs1 : d1.sdc[ch] = { s.dev.sdc[ch] with polled := s.dev.sdc[ch].polled.set r s.dev.now, normal := s.dev.sdc[ch].normal.set r 0 } := by
    rw [hd1, Dev.sdcMod_same]
  have hc1 : s.dev.changes [.sdc] d1 := by rw [hd1]; rfl
  have hr1 : d1.regs = s.dev.regs := by rw [hd1]; rfl
  clear hd1
  obtain ⟨h1, h2, h3, h4, h5, h6⟩ := d1.restate_doubled ch r
  generalize d1.restate ch r true = e at hexec h1 h2 h3 h4 h5 h6
  have hF : s.dev.changes [.regs, .vecs, .sdc] e := (hc1.mono (by decide)).trans h1
  refine ⟨e, hexec, congrArg (fun y : Dev => { y with regs := e.regs, vecs := e.vecs, sdc := e.sdc }) hF, h2, fun b => ?_, ?_, h5, ?_⟩
  · rw [h3 b, hs1]
  · rw [h4, hs1]
    exact vset_same s.dev.sdc[ch].polled r _
  · rw [h6, Dev.getN, Dev.get_of_regs (d := s.dev) _ _ 0 0 (by rw [hr1])]
    rfl

end

/-- Settles O47: refreshes owed and issued unit by unit, a change of rate by the units of its rank. -/
theorem refreshesAreOwedAndIssued : Obligations.RefreshesAreOwedAndIssued := by
  unfold Obligations.RefreshesAreOwedAndIssued
  refine ⟨fun s ch r b hlive hr hon hp => exec_refreshAccrual s ch r b hlive hr hon hp,
    fun s ch r b hlive hr hon hpos hlast hwas hidle => exec_refreshIssue s ch r b hlive hr hon hpos hlast hwas hidle,
    fun s ch r hlive hr hdbl hp => exec_mr4Poll_doubled s ch r hlive hr hdbl hp, fun s ch dis ht => ?_⟩
  have hexec : exec (.refreshDisable ch dis) s = .next { s with dev := s.dev.refDis ch dis } := by
    change execRefreshDisable ch dis s = _
    unfold execRefreshDisable
    rw [onLive_next _ _ (Dev.takes_live _ _ _ ht), Dev.hostWrite_takes _ _ _ _ ht]
  obtain ⟨h1, h2, h3, h4, h5⟩ := s.dev.refDis_spec ch dis
  generalize s.dev.refDis ch dis = e at hexec h1 h2 h3 h4 h5
  exact ⟨e, hexec, congrArg (fun y : Dev => { y with regs := e.regs, fabric := e.fabric, fresh := e.fresh }) h1, h2, h3, h4, h5⟩

end Sys2Proof.Machine
end

section
/-! The SRAM pool and the march engine (R379 to R387). -/

namespace Sys2Proof.Machine

section
variable (d : Dev)

/-! Host access to the pool (R381, R383). -/

/-- The address moves on (R381). -/
theorem Dev.accNext_spec (a : Nat) : let e := d.putF sramp R.SRAMP_ACC_ADDR 24 2 (a / 4 + 1)
    e = { d with regs := e.regs } ∧ e.getF sramp R.SRAMP_ACC_ADDR 24 2 = (a / 4 + 1) % 2 ^ 23 ∧
    d.regsKept e fun x => x = radr sramp R.SRAMP_ACC_ADDR :=
  ⟨rfl, Dev.getF_putF_same _ _ _ _ _ _ (by decide) (by decide), d.regsKept_putF _ _ _ _ _ _ _ rfl⟩

end

section
variable (s : State) (v : Word) (ht : s.dev.takes sramp 0x110)
  (hb : s.dev.bankStatus (s.dev.getF sramp R.SRAMP_ACC_ADDR 24 2 * 4 / 65536) = 0)
  (ho : s.dev.getF sramp R.SRAMP_ACC_ADDR 24 2 * 4 / 65536 < 16 ∨ 48 ≤ s.dev.getF sramp R.SRAMP_ACC_ADDR 24 2 * 4 / 65536)
include ht hb ho

theorem exec_poolWrite : exec (.srampAccData (some v) .clean) s = .next { s with
    dev := (s.dev.putF sramp R.SRAMP_ACC_ADDR 24 2 (s.dev.getF sramp R.SRAMP_ACC_ADDR 24 2 * 4 / 4 + 1)).poolMod fun p =>
      { p with words := spPut p.words (s.dev.getF sramp R.SRAMP_ACC_ADDR 24 2 * 4) v } } := by
  have hopen : ¬ (decide (16 ≤ s.dev.getF sramp R.SRAMP_ACC_ADDR 24 2 * 4 / 65536) &&
      decide (s.dev.getF sramp R.SRAMP_ACC_ADDR 24 2 * 4 / 65536 < 48)) = true := by
    simp only [Bool.and_eq_true, decide_eq_true_eq]
    omega
  change execSrampAccData (some v) .clean s = _
  unfold execSrampAccData
  rw [onLive_next _ _ (Dev.takes_live _ _ _ ht)]
  dsimp only
  rw [Dev.hostWrite_takes _ _ _ _ ht, if_neg (not_not.mpr hb), if_neg hopen]

theorem exec_poolRead (hv : spGet s.dev.pool.words (s.dev.getF sramp R.SRAMP_ACC_ADDR 24 2 * 4) = some v)
    (hsick : s.dev.poolSick (s.dev.getF sramp R.SRAMP_ACC_ADDR 24 2 * 4) = false) : exec (.srampAccData none .clean) s = .next { s with
    dev := (s.dev.putF sramp R.SRAMP_ACC_ADDR 24 2 (s.dev.getF sramp R.SRAMP_ACC_ADDR 24 2 * 4 / 4 + 1)).complete [v] false } := by
  have hopen : ¬ (decide (16 ≤ s.dev.getF sramp R.SRAMP_ACC_ADDR 24 2 * 4 / 65536) &&
      decide (s.dev.getF sramp R.SRAMP_ACC_ADDR 24 2 * 4 / 65536 < 48)) = true := by
    simp only [Bool.and_eq_true, decide_eq_true_eq]
    omega
  have hok : s.dev.hostOk = true ∧ s.dev.accErr sramp 0x110 = 0 := by
    have h := ht.1
    simp only [Dev.writable, Bool.and_eq_true, decide_eq_true_eq] at h
    exact h.1
  have hread : (s.dev.putF sramp R.SRAMP_ACC_ADDR 24 2 (s.dev.getF sramp R.SRAMP_ACC_ADDR 24 2 * 4 / 4 + 1)).poolRead
      (s.dev.getF sramp R.SRAMP_ACC_ADDR 24 2 * 4) =
      (v, s.dev.putF sramp R.SRAMP_ACC_ADDR 24 2 (s.dev.getF sramp R.SRAMP_ACC_ADDR 24 2 * 4 / 4 + 1)) := by
    unfold Dev.poolRead
    dsimp only
    rw [if_neg (by omega), show (s.dev.putF sramp R.SRAMP_ACC_ADDR 24 2 _).pool = s.dev.pool from rfl, hv]
  change execSrampAccData none .clean s = _
  unfold execSrampAccData
  rw [onLive_next _ _ (Dev.takes_live _ _ _ ht)]
  dsimp only
  rw [hostRead_ok _ _ _ _ hok.1 hok.2 (.inr ht.2), if_neg (not_not.mpr hb), if_neg hopen, hsick, if_neg (by decide), hread]

end

/-! The march engine (R384 to R387). -/

section
variable (d : Dev)

theorem Dev.jShow_changes : d.changes [.regs] d.jShow := by
  have hF : ∀ x : Dev, d.changes [.regs] x → ∀ r v, d.changes [.regs] (x.put jrnl r v) := fun x hx r v => hx.trans (x.put_changes _ _ _ _ _)
  have hB : ∀ x : Dev, d.changes [.regs] x → ∀ r k v, d.changes [.regs] (x.putB jrnl r k v) := fun x hx r k v => hF x hx r _
  have hP : ∀ x : Dev, d.changes [.regs] x → ∀ r hi lo n, d.changes [.regs] (x.putF jrnl r hi lo n) := fun x hx r hi lo n => hF x hx r _
  unfold Dev.jShow
  exact hP _ (hP _ (hB _ (hP _ (hF _ (hF _ (hF _ (.refl _ _) _ _) _ _) _ _) _ _ _ _) _ _ _) _ _ _ _) _ _ _ _

theorem Dev.jQueue_changes (t : JTx) : d.changes [.regs, .vecs, .fabric, .jrn] (d.jQueue t).1 := by
  unfold Dev.jQueue
  split
  · exact .refl _ _
  · split
    · exact ((d.put_changes _ _ _ _ _).mono (by decide)).trans ((Dev.detect_changes _ _ _ _ _ _ _ _).mono (by decide))
    · have h1 : d.changes [.jrn] (d.jmod fun j => { j with queue := j.queue ++ [t] }) := rfl
      generalize (d.jmod fun j => { j with queue := j.queue ++ [t] }) = d1 at h1
      exact (h1.mono (by decide)).trans (d1.jShow_changes.mono (by decide))

theorem Dev.jAppend_changes (l : List (Nat × Word × List Byte)) : d.changes [.regs, .vecs, .fabric, .jrn] (d.jAppend l) :=
  .ite (.refl _ _) (d.jQueue_changes _)

/-- A repair keeps the words of the pool. -/
theorem Dev.bankRepair_words (bank : Nat) (rows : List Nat) (keep : Bool) : (d.bankRepair bank rows keep).1.pool.words = d.pool.words := by
  unfold Dev.bankRepair
  extract_lets had new all d1 d2
  split
  · have h1 : d1.pool.words = d.pool.words := rfl
    clear_value d1
    refine Eq.trans ?_ h1
    split
    · rfl
    · have h3 : (d1.jAppend [repairRec bank all]).pool = d1.pool := (d1.jAppend_changes _).get Dev.pool
      rw [h3]
  · have h2 : d2.pool.words = d.pool.words := rfl
    clear_value d2
    refine Eq.trans ?_ h2
    split
    · rename_i k _
      have h3 : (d2.poolMod fun p => { p with
        repl := spPut p.repl bank k
        sick := if keep then p.sick ++ rows.dedup.map (fun r => bank * 1024 + r) else p.sick }).pool.words = d2.pool.words := rfl
      generalize (d2.poolMod fun p => { p with
        repl := spPut p.repl bank k
        sick := if keep then p.sick ++ rows.dedup.map (fun r => bank * 1024 + r) else p.sick }) = d3 at h3
      have h4 : (d3.raise sramp (some (bank / 6)) 1 bank).pool = d3.pool := (d3.detect_changes _ _ _ _ _ _ _).get Dev.pool
      generalize d3.raise sramp (some (bank / 6)) 1 bank = d4 at h4
      have h5 : (d4.jAppend [repairRec bank [0xFFFF, k]]).pool = d4.pool := (d4.jAppend_changes _).get Dev.pool
      rw [h5, h4, h3]
    · have h3 : (d2.raise sramp (some (bank / 6)) 2 bank).pool = d2.pool := (d2.detect_changes _ _ _ _ _ _ _).get Dev.pool
      rw [h3]

/-- A destructive march leaves no word of its bank (R379). -/
theorem Dev.bankErased_words (k : Nat) : (d.bankErased k).pool.words = d.pool.words.filter fun x => x.1 / 65536 ≠ k := by
  unfold Dev.bankErased
  extract_lets d1 d2
  have h1 : d1.pool.words = d.pool.words.filter fun x => x.1 / 65536 ≠ k := rfl
  have hp2 : d2.pool = d1.pool := by
    unfold d2
    refine Dev.foldl_keeps Dev.pool ?_ _ _
    exact fun _ _ => rfl
  clear_value d2 d1
  have hfold : ∀ (α : Type) (g : Dev → α → Dev) (l : List α), (∀ x a, (g x a).pool = x.pool) →
      (l.foldl g d1).pool.words = d.pool.words.filter fun x => x.1 / 65536 ≠ k := fun α g l hg => by
    rw [Dev.foldl_keeps Dev.pool hg, h1]
  split
  · exact hfold _ _ _ fun x a => rfl
  · split
    · exact h1
    · split
      · exact hfold _ _ _ fun x a => by split <;> rfl
      · split
        · exact hfold _ _ _ fun x a => by split <;> rfl
        · split
          · exact hfold _ _ _ fun x a => by split <;> rfl
          · split
            · rw [Dev.foldl_keeps Dev.pool, hp2, h1]
              exact fun _ _ => rfl
            · exact h1

end

section
variable (d : Dev)

/-- The failing word that a march found first (R387). -/
def Dev.firstFail (k : Nat) (fails : List (Nat × Nat)) (had : Nat) : Dev :=
  match fails, had with
  | f :: _, 0 => (d.opPart march 2 (k + f.1 * 512)).opPart march 3 f.2
  | _, _ => d

/-- The registers that the progress of a march shows in. -/
abbrev marchShown (a : Nat) : Prop := a = radr march R.OP_STAT ∨ ∃ i, i < 6 ∧ a = radr march R.OP_PART i

theorem Dev.opPart_march {i : Nat} (hi : i < 6) (v : Nat) : d.changes [.regs] (d.opPart march i v) ∧ d.regsKept (d.opPart march i v) marchShown :=
  ⟨d.put_changes _ _ _ _ _, d.regsKept_put _ _ _ _ _ (.inr ⟨i, hi, rfl⟩)⟩

theorem Dev.firstFail_spec (k : Nat) (fails : List (Nat × Nat)) (had : Nat) : d.changes [.regs] (d.firstFail k fails had) ∧
    d.regsKept (d.firstFail k fails had) marchShown := by
  cases fails with
  | nil => exact ⟨.refl _ _, d.regsKept_refl _⟩
  | cons f t =>
    cases had with
    | succ n => exact ⟨.refl _ _, d.regsKept_refl _⟩
    | zero =>
      obtain ⟨h1, h2⟩ := d.opPart_march (i := 2) (by decide) (k + f.1 * 512)
      obtain ⟨h3, h4⟩ := (d.opPart march 2 (k + f.1 * 512)).opPart_march (i := 3) (by decide) f.2
      exact ⟨h1.trans h3, h2.trans h4⟩

/-- What the march of a bank shows, whatever it did to the bank (R387). -/
def Dev.bankShown (n had : Nat) (x : Dev × Nat × Bool) (fails : List (Nat × Nat)) (k count : Nat) : Dev :=
  let d2 := x.1.firstFail k fails had
  let d3 := ((d2.opPart march 0 (n + 1)).opPart march 1 (had + fails.length)).opPart march 4 (d2.getN march R.OP_PART 4 + x.2.1)
  (d3.opPart march 5 (d3.getN march R.OP_PART 5 + x.2.2.toNat)).opProg march (4095 * (n + 1) / count)

theorem Dev.bankShown_spec (n had : Nat) (x : Dev × Nat × Bool) (fails : List (Nat × Nat)) (k count : Nat) :
    let e := Dev.bankShown n had x fails k count
    x.1.changes [.regs] e ∧ x.1.regsKept e marchShown ∧ e.get march R.OP_PART 0 = wd (n + 1) ∧
    e.get march R.OP_PART 1 = wd (had + fails.length) := by
  unfold Dev.bankShown
  extract_lets d2 d3 e
  obtain ⟨h1, h2⟩ := x.1.firstFail_spec k fails had
  change x.1.changes [.regs] d2 at h1
  change x.1.regsKept d2 _ at h2
  clear_value d2
  have h3 : d2.changes [.regs] d3 ∧ d2.regsKept d3 marchShown ∧ d3.get march R.OP_PART 0 = wd (n + 1) ∧
      d3.get march R.OP_PART 1 = wd (had + fails.length) := by
    refine ⟨rfl, ?_, ?_, ?_⟩
    · exact ((d2.opPart_march (by decide) _).2.trans (Dev.opPart_march _ (by decide) _).2).trans (Dev.opPart_march _ (by decide) _).2
    · unfold d3
      rw [Dev.opPart_get_ne _ _ _ (by decide), Dev.opPart_get_ne _ _ _ (by decide), Dev.opPart_get_same]
    · unfold d3
      rw [Dev.opPart_get_ne _ _ _ (by decide), Dev.opPart_get_same]
  obtain ⟨hc3, hk3, h30, h31⟩ := h3
  clear_value d3
  have h4 : d3.changes [.regs] e ∧ d3.regsKept e marchShown ∧ (∀ i, i ≠ 5 → e.get march R.OP_PART i = d3.get march R.OP_PART i) := by
    refine ⟨rfl, (Dev.opPart_march _ (by decide) _).2.trans (Dev.regsKept_putF _ _ _ _ _ _ _ _ (.inl rfl)), fun i hi => ?_⟩
    unfold e
    rw [Dev.opProg_get_part, Dev.opPart_get_ne _ _ _ hi]
  obtain ⟨hc4, hk4, hg4⟩ := h4
  clear_value e
  exact ⟨(h1.trans hc3).trans hc4, (h2.trans hk3).trans hk4, (hg4 0 (by decide)).trans h30, (hg4 1 (by decide)).trans h31⟩

/-- A bank of a march: erased, repaired and shown. -/
theorem Dev.marchBank_eq (param : Nat) (fails : List (Nat × Nat)) :
    let k := d.marchRange.1 + d.getN march R.OP_PART 0
    let d1 := if param.testBit 0 then d.bankErased k else d
    let x := if param.testBit 1 ∧ fails ≠ [] then d1.bankRepair k (fails.map fun f => f.1 / 8) (!param.testBit 0) else (d1, 0, false)
    d.marchBank param fails = Dev.bankShown (d.getN march R.OP_PART 0) (x.1.getN march R.OP_PART 1) x fails k d.marchRange.2 := by
  intro k d1 x
  unfold Dev.marchBank Dev.bankShown Dev.firstFail
  rfl

end

section
variable (s : State) {o : OpRec} (fails : List (Fin 8192 × Fin 72)) (hlive : s.dev.dead = false) (hop : s.dev.op march = some o)
  (hrun : s.dev.opRunning march 1 = true) (hlt : s.dev.getN march R.OP_PART 0 < s.dev.marchRange.2)

include hlive hop hrun hlt in
theorem exec_marchBank : exec (.march (.bank fails)) s = .next { s with dev := s.dev.marchBank o.param (fails.map fun f => (f.1.val, f.2.val)) } := by
  have hcond : (s.dev.opRunning march 1 && decide (s.dev.getN march R.OP_PART 0 < s.dev.marchRange.2)) = true := by
    rw [hrun, decide_eq_true hlt]
    rfl
  change execMarch (.bank fails) s = _
  unfold execMarch
  dsimp only
  rw [onLive_next _ _ hlive, hop]
  exact congrArg (fun e => Host.Outcome.next { s with dev := e }) (Dev.when_of _ _ hcond)

include hlt in
/-- The number of the next bank fits its register. -/
theorem marchNext_toNat : (wd (s.dev.getN march R.OP_PART 0 + 1)).toNat = s.dev.getN march R.OP_PART 0 + 1 := by
  have hr : s.dev.marchRange.2 < 2 ^ 9 := fld_lt _ 8 0
  rw [wd, BitVec.toNat_ofNat]
  exact Nat.mod_eq_of_lt (by omega)

end

/-- Settles O48: words of the pool one access at a time, a march bank by bank. -/
theorem poolWordsAndMarches : Obligations.PoolWordsAndMarches := by
  unfold Obligations.PoolWordsAndMarches
  refine ⟨fun s v ht => ?_, fun s v ht => ?_, fun s o fails hlive hop hrun hlt h0 h1 => ?_, fun s o fails hlive hop hrun hlt h0 => ?_,
    fun s hlive hrun hn => ?_⟩
  · intro a hb ho
    obtain ⟨h1, h2, h3⟩ := s.dev.accNext_spec a
    have hexec := exec_poolWrite s v ht hb ho
    change exec _ s = .next { s with dev := (s.dev.putF sramp R.SRAMP_ACC_ADDR 24 2 (a / 4 + 1)).poolMod fun p => { p with words := spPut p.words a v } } at hexec
    exact ⟨_, hexec, rfl, h2, h3⟩
  · intro a hb ho hv hsick
    obtain ⟨h1, h2, h3⟩ := s.dev.accNext_spec a
    exact ⟨_, exec_poolRead s v ht hb ho hv hsick, rfl, h3⟩
  · have heq := s.dev.marchBank_eq o.param (fails.map fun f => (f.1.val, f.2.val))
    dsimp only at heq
    rw [h0, h1, if_neg Bool.false_ne_true, if_neg (fun h => Bool.false_ne_true h.1)] at heq
    obtain ⟨h2, h3, h4, h5⟩ := Dev.bankShown_spec (s.dev.getN march R.OP_PART 0) (s.dev.getN march R.OP_PART 1) (s.dev, 0, false)
      (fails.map fun f => (f.1.val, f.2.val)) (s.dev.marchRange.1 + s.dev.getN march R.OP_PART 0) s.dev.marchRange.2
    have hexec := exec_marchBank s fails hlive hop hrun hlt
    rw [heq] at hexec
    clear heq
    generalize Dev.bankShown _ _ _ _ _ _ = e at hexec h2 h3 h4 h5
    refine ⟨e, hexec, congrArg (fun y : Dev => { y with regs := e.regs }) h2, ?_, ?_, h3⟩
    · rw [Dev.getN, h4]
      exact marchNext_toNat s hlt
    · rw [h5, List.length_map]
  · have heq := s.dev.marchBank_eq o.param (fails.map fun f => (f.1.val, f.2.val))
    dsimp only at heq
    rw [if_pos h0] at heq
    have hw := s.dev.bankErased_words (s.dev.marchRange.1 + s.dev.getN march R.OP_PART 0)
    generalize s.dev.bankErased (s.dev.marchRange.1 + s.dev.getN march R.OP_PART 0) = d1 at heq hw
    obtain ⟨x, hx⟩ : ∃ x, x = if o.param.testBit 1 = true ∧ (fails.map fun f => (f.1.val, f.2.val)) ≠ [] then
        d1.bankRepair (s.dev.marchRange.1 + s.dev.getN march R.OP_PART 0) ((fails.map fun f => (f.1.val, f.2.val)).map fun f => f.1 / 8)
          (!o.param.testBit 0) else (d1, 0, false) := ⟨_, rfl⟩
    have hwx : x.1.pool.words = d1.pool.words := by
      rw [hx]
      split
      · exact d1.bankRepair_words _ _ _
      · rfl
    rw [← hx] at heq
    clear hx
    obtain ⟨h2, -, h4, -⟩ := Dev.bankShown_spec (s.dev.getN march R.OP_PART 0) (x.1.getN march R.OP_PART 1) x
      (fails.map fun f => (f.1.val, f.2.val)) (s.dev.marchRange.1 + s.dev.getN march R.OP_PART 0) s.dev.marchRange.2
    have hexec := exec_marchBank s fails hlive hop hrun hlt
    rw [heq] at hexec
    clear heq
    generalize Dev.bankShown _ _ _ _ _ _ = e at hexec h2 h4
    refine ⟨e, hexec, fun y hy => ?_, ?_⟩
    · have hpool : e.pool = x.1.pool := h2.get Dev.pool
      rw [hpool, hwx, hw] at hy
      exact of_decide_eq_true (List.mem_filter.mp hy).2
    · rw [Dev.getN, h4]
      exact marchNext_toNat s hlt
  · have hexec : exec .marchDone s = .next { s with dev := s.dev.opDone march } := by
      have hcond : (s.dev.opRunning march 1 && decide (s.dev.getN march R.OP_PART 0 = s.dev.marchRange.2)) = true := by
        rw [hrun, decide_eq_true hn]
        rfl
      change execMarchDone s = _
      unfold execMarchDone
      rw [onLive_next _ _ hlive]
      exact congrArg (fun e => Host.Outcome.next { s with dev := e }) (Dev.when_of _ _ hcond)
    have h1 := s.dev.opDone_changes march
    have h2 := s.dev.opDone_stat march
    have h3 := s.dev.opDone_kept march (p := fun a => a = radr march R.OP_STAT) rfl
    generalize s.dev.opDone march = e at hexec h1 h2 h3
    exact ⟨e, hexec, congrArg (fun y : Dev => { y with regs := e.regs, ops := e.ops }) h1, h2, h3⟩

end Sys2Proof.Machine
end

section
/-! SUPPORT. Pages: which registers of a block an operation may change, by their offsets. -/

namespace Sys2Proof.Machine

/-- Of the page of `b` at most the registers at the offsets in `L` differ. -/
def Dev.pageKept (b : Blk) (L : List Nat) (d e : Dev) : Prop :=
  ∀ (q : Reg) (i j : Nat), q.ofs i j < 0x1000 → q.ofs i j ∉ L → e.get b q i j = d.get b q i j

namespace Dev.pageKept

variable {b : Blk} {L : List Nat} {d e f : Dev}

theorem refl (d : Dev) : pageKept b L d d := fun _ _ _ _ _ => rfl

theorem of_regs (h : e.regs = d.regs) : pageKept b L d e := fun _ _ _ _ _ => Dev.get_of_regs _ _ _ _ (by rw [h])

theorem mono {L' : List Nat} (k : pageKept b L d e) (h : L ⊆ L') : pageKept b L' d e := fun q i j ho hn => k q i j ho fun hm => hn (h hm)

theorem trans (k : pageKept b L d e) (k' : pageKept b L e f) : pageKept b L d f := fun q i j ho hn => (k' q i j ho hn).trans (k q i j ho hn)

theorem ite {c : Prop} [Decidable c] (k : pageKept b L d e) (k' : pageKept b L d f) : pageKept b L d (if c then e else f) := by
  split <;> assumption

variable (k : pageKept b L d e)
include k

/-- A step beside the registers. -/
theorem beside (h : f.regs = e.regs) : pageKept b L d f := k.trans (.of_regs h)

theorem put (r : Reg) (v : Word) (i j : Nat) (hr : r.ofs i j ∈ L) : pageKept b L d (e.put b r v i j) :=
  k.trans fun _ _ _ _ hn => Dev.get_put_ne _ _ _ _ _ _ _ _ _ _ (radr_ne_of_ofs _ _ _ _ _ _ _ fun h => hn (h ▸ hr))

/-- A register of another block. -/
theorem putOther {c : Blk} (hc : c ≠ b) (r : Reg) (v : Word) (i j : Nat) (hr : r.ofs i j < 0x1000) : pageKept b L d (e.put c r v i j) :=
  k.trans fun _ _ _ ho _ => Dev.get_put_ne _ _ _ _ _ _ _ _ _ _ (radr_ne_of_blk _ _ _ _ _ _ _ _ (Ne.symm hc) ho hr)

theorem event (hb : b ≠ hif) (r en : Reg) (w : Word) {v : Nat} (hv : v < 64) (i : Nat) (hr : r.ofs i 0 ∈ L) :
    pageKept b L d (e.event b r en w v i) :=
  k.trans fun _ _ _ ho hn => e.event_get_ne hb ho en w hv (radr_ne_of_ofs _ _ _ _ _ _ _ fun h => hn (h ▸ hr))

theorem vector (hb : b ≠ hif) {v : Nat} (hv : v < 64) : pageKept b L d (e.vector v) :=
  k.trans fun _ _ _ ho _ => Dev.vector_get _ hv _ _ hb ho

theorem detect (hb : b ≠ hif) (hf : b ≠ fltc) (c : Option Nat) (kind addr : Nat) (tr inj al : Bool) (hr : R.FLT_STAT.off ∈ L) :
    pageKept b L d (e.detect b c kind addr tr inj al) :=
  k.trans fun _ _ _ ho hn => e.detect_get hb ho c kind addr tr inj al hf (radr_ne_of_ofs _ _ _ _ _ _ _ fun h => hn (by
    rw [h, Reg.ofs_zero]
    exact hr))

end Dev.pageKept

/-! The clock's ports (R391 to R397). -/

theorem timeB_kind : blkKind timeB = some (.time, 0) := by decide
theorem timeB_ne_hif : timeB ≠ hif := by decide
theorem timeB_ne_fltc : timeB ≠ fltc := by decide

section
variable (d : Dev) {p : Fin 2}

/-- What the active port depends on. -/
theorem Dev.activePort_eq {d e : Dev} (hc : e.get timeB R.TIME_CTL = d.get timeB R.TIME_CTL) (hl : ∀ q, e.portLate q = d.portLate q) :
    e.activePort = d.activePort := by
  have hst : ∀ q, e.portState q = d.portState q := fun q => congrArg (fun w => fld w (2 * q.val + 1) (2 * q.val)) hc
  have hprim : e.getF timeB R.TIME_CTL 4 4 = d.getF timeB R.TIME_CTL 4 4 := congrArg (fun w => fld w 4 4) hc
  unfold Dev.activePort
  dsimp only
  rw [hst, hst, hprim, hl]

/-- A port that is active stays so while no other changes. -/
theorem Dev.activePort_congr {d e : Dev} (hc : e.get timeB R.TIME_CTL = d.get timeB R.TIME_CTL)
    (hl : ∀ p, d.activePort = some p → ∀ q : Fin 2, q ≠ p → e.portLate q = d.portLate q)
    (hp : ∀ p, d.activePort = some p → e.portLate p = false) : ∀ p, d.activePort = some p → e.activePort = some p := by
  intro p hact
  have hst : ∀ q, e.portState q = d.portState q := fun q => congrArg (fun w => fld w (2 * q.val + 1) (2 * q.val)) hc
  have hprim : e.getF timeB R.TIME_CTL 4 4 = d.getF timeB R.TIME_CTL 4 4 := congrArg (fun w => fld w 4 4) hc
  have hl' := hl p hact
  have hp' := hp p hact
  unfold Dev.activePort at hact ⊢
  rw [hst, hst, hprim]
  generalize decide (d.portState 0 = 1) = a at hact ⊢
  generalize decide (d.portState 1 = 1) = b at hact ⊢
  cases a <;> cases b
  · exact hact
  · exact hact
  · exact hact
  · dsimp only at hact ⊢
    generalize Fin.ofNat 2 (d.getF timeB R.TIME_CTL 4 4) = q at hact ⊢
    by_cases hq : q = p
    · rw [hq, hp']
      rfl
    · rw [hl' q hq]
      exact hact

/-- A receiver makes a port active. -/
theorem Dev.activePort_some (h : d.portState p = 1) : ∃ q, d.activePort = some q := by
  unfold Dev.activePort
  have hp : d.portState 0 = 1 ∨ d.portState 1 = 1 := by
    have : p = 0 ∨ p = 1 := by omega
    rcases this with rfl | rfl
    · exact .inl h
    · exact .inr h
  rcases hp with h0 | h1
  · rw [decide_eq_true h0]
    cases decide (d.portState 1 = 1)
    · exact ⟨_, rfl⟩
    · exact ⟨_, rfl⟩
  · rw [decide_eq_true h1]
    cases decide (d.portState 0 = 1)
    · exact ⟨_, rfl⟩
    · exact ⟨_, rfl⟩

/-- The registers of a change of the active port. -/
abbrev switchOffs : List Nat := [R.TIME_STAT.off, R.TIME_SWITCH.off, R.TIME_EVT.off]

/-- A change of the active port among receivers (R392). -/
theorem Dev.portsChanged_spec (h : d.activePort = some p) :
    let e := d.portsChanged
    d.changes [.regs, .vecs] e ∧ d.pageKept timeB switchOffs e ∧ e.getF timeB R.TIME_STAT 3 3 = p.val ∧
    ∀ k, k ≠ 1 → k ≠ 3 → e.getB timeB R.TIME_STAT k = d.getB timeB R.TIME_STAT k := by
  unfold Dev.portsChanged
  rw [h]
  dsimp only
  split
  · rename_i hs
    exact ⟨.refl _ _, .refl _, hs, fun _ _ _ => rfl⟩
  · obtain ⟨d1, hd1⟩ : ∃ y, y = (d.putF timeB R.TIME_STAT 3 3 p.val).putB timeB R.TIME_STAT 1 false := ⟨_, rfl⟩
    have hc1 : d.changes [.regs] d1 := by rw [hd1]; rfl
    have hk1 : d.pageKept timeB switchOffs d1 := by
      rw [hd1]
      exact ((Dev.pageKept.refl d).put _ _ 0 0 (by decide)).put _ _ 0 0 (by decide)
    have h31 : d1.getF timeB R.TIME_STAT 3 3 = p.val := by
      rw [hd1, Dev.getF_putB_other _ _ _ _ _ _ (by decide) (by decide), Dev.getF_putF_same _ _ _ _ _ _ (by decide) (by decide)]
      exact Nat.mod_eq_of_lt p.isLt
    have ho1 : ∀ k, k ≠ 1 → k ≠ 3 → d1.getB timeB R.TIME_STAT k = d.getB timeB R.TIME_STAT k := fun k h1 h3 => by
      rw [hd1, Dev.getB_putB_other _ _ _ _ _ _ (by decide) h1, Dev.getB_putF_other _ _ _ _ _ _ (by decide) (by omega)]
    rw [← hd1]
    clear hd1
    have hk2 : d1.pageKept timeB [R.TIME_SWITCH.off, R.TIME_EVT.off] ((d1.bump timeB R.TIME_SWITCH).timeEvent 3) :=
      ((Dev.pageKept.refl d1).put _ _ 0 0 (by decide)).event timeB_ne_hif _ _ _ (by decide) 0 (by decide)
    have hc2 : d1.changes [.regs, .vecs] ((d1.bump timeB R.TIME_SWITCH).timeEvent 3) :=
      ((d1.put_changes _ _ _ _ _).mono (by decide)).trans (Dev.event_changes _ _ _ _ _ _ _)
    generalize (d1.bump timeB R.TIME_SWITCH).timeEvent 3 = e at hk2 hc2
    have hst : e.get timeB R.TIME_STAT = d1.get timeB R.TIME_STAT := hk2 _ 0 0 (by decide) (by decide)
    exact ⟨(hc1.mono (by decide)).trans hc2, hk1.trans (hk2.mono (by decide)), (congrArg (fun w => fld w 3 3) hst).trans h31,
      fun k h1 h3 => (congrArg (bit · k) hst).trans (ho1 k h1 h3)⟩

/-- The registers of a judged offset. -/
abbrev flagOffs : List Nat := [R.TIME_STAT.off, R.TIME_EVT.off, R.FLT_STAT.off]

/-- SYNCED and the alarm at an offset (R397). -/
theorem Dev.offsetFlags_spec (o : Rat) :
    let e := d.offsetFlags o
    d.changes [.regs, .vecs, .fabric, .tim] e ∧ d.pageKept timeB flagOffs e ∧
    (∃ l t, e.tim = { d.tim with large := l, offAt := t }) ∧
    e.getB timeB R.TIME_STAT 1 = decide (rabs o ≤ ((d.getN timeB R.TIME_OFS_ALARM : Nat) : Rat)) ∧
    e.getB timeB R.TIME_STAT 2 = false ∧ e.getB timeB R.TIME_STAT 0 = d.getB timeB R.TIME_STAT 0 := by
  unfold Dev.offsetFlags
  extract_lets large was d1 d2 d3 e
  have hlarge : (!large) = decide (rabs o ≤ ((d.getN timeB R.TIME_OFS_ALARM : Nat) : Rat)) := by
    simp only [large, ← decide_not, not_lt]
  have h1 : d.changes [.regs] d1 ∧ d.pageKept timeB flagOffs d1 ∧ d1.getB timeB R.TIME_STAT 1 = !large ∧ d1.getB timeB R.TIME_STAT 2 = false ∧
      d1.getB timeB R.TIME_STAT 0 = d.getB timeB R.TIME_STAT 0 := by
    refine ⟨rfl, ((Dev.pageKept.refl d).put _ _ 0 0 (by decide)).put _ _ 0 0 (by decide), ?_, Dev.getB_putB_same _ _ _ _ _ _ (by decide), ?_⟩
    · exact (Dev.getB_putB_other _ _ _ _ _ _ (by decide) (by decide)).trans (Dev.getB_putB_same _ _ _ _ _ _ (by decide))
    · exact (Dev.getB_putB_other _ _ _ _ _ _ (by decide) (by decide)).trans (Dev.getB_putB_other _ _ _ _ _ _ (by decide) (by decide))
  obtain ⟨hc1, hk1, hs1, hs2, hs0⟩ := h1
  clear_value d1 was large
  have h2 : d1.changes [.regs, .vecs, .fabric] d2 ∧ d1.pageKept timeB [R.TIME_EVT.off, R.FLT_STAT.off] d2 :=
    ⟨.ite ((d1.event_changes _ _ _ _ _ _).mono (by decide)) (.refl _ _),
      .ite ((Dev.pageKept.refl d1).event timeB_ne_hif _ _ _ (by decide) 0 (by decide)) (.refl _)⟩
  obtain ⟨hc2, hk2⟩ := h2
  clear_value d2
  have h3 : d2.changes [.regs, .vecs, .fabric] d3 ∧ d2.pageKept timeB [R.TIME_EVT.off, R.FLT_STAT.off] d3 :=
    ⟨.ite (((d2.event_changes _ _ _ _ _ _).mono (by decide)).trans (Dev.detect_changes _ _ _ _ _ _ _ _)) (.refl _ _),
      .ite (((Dev.pageKept.refl d2).event timeB_ne_hif _ _ _ (by decide) 0 (by decide)).detect timeB_ne_hif timeB_ne_fltc _ _ _ _ _ _ (by decide))
        (.refl _)⟩
  obtain ⟨hc3, hk3⟩ := h3
  clear_value d3
  have hF : d.changes [.regs, .vecs, .fabric] d3 := (hc1.mono (by decide)).trans (hc2.trans hc3)
  have hst : d3.get timeB R.TIME_STAT = d1.get timeB R.TIME_STAT := (hk2.trans hk3) _ 0 0 (by decide) (by decide)
  have ht : d3.tim = d.tim := hF.get Dev.tim
  have he : d3.changes [.tim] e := rfl
  have hre : e.regs = d3.regs := rfl
  have hte : e.tim = { d3.tim with large := large, offAt := d.now } := rfl
  clear_value e
  have hge : e.get timeB R.TIME_STAT = d1.get timeB R.TIME_STAT := (Dev.get_of_regs _ _ 0 0 (by rw [hre])).trans hst
  refine ⟨(hF.mono (by decide)).trans (he.mono (by decide)), (hk1.trans ((hk2.trans hk3).mono (by decide))).beside hre, ⟨large, d.now, by rw [hte, ht]⟩, ?_, ?_, ?_⟩
  · rw [← hlarge, ← hs1]
    exact congrArg (bit · 1) hge
  · rw [← hs2]
    exact congrArg (bit · 2) hge
  · rw [← hs0]
    exact congrArg (bit · 0) hge

end

end Sys2Proof.Machine
end

section
/-! PTP messages (R391 to R397, R404). -/

namespace Sys2Proof.Machine

section
variable (d : Dev)

theorem Dev.setRate_spec (r : Rat) : let e := d.setRate r
    d.changes [.regs, .tim] e ∧ d.pageKept timeB [R.TIME_RATE.off] e ∧ e.tim = { d.tim with rate := r } :=
  ⟨rfl, ((Dev.pageKept.refl d).beside rfl).put _ _ 0 0 (by decide), rfl⟩

/-- The rate of an offset (R395). -/
theorem Dev.discipline_spec (o : Rat) :
    let m : Rat := (d.getN timeB R.TIME_SLEW_MAX : Nat)
    let acc := d.tim.acc + ((d.getI timeB R.TIME_KI : Int) : Rat) / 65536 * o
    let r := ((d.getI timeB R.TIME_KP : Int) : Rat) / 65536 * o + acc
    let e := d.discipline o
    d.changes [.regs, .tim] e ∧ d.pageKept timeB [R.TIME_RATE.off] e ∧
    e.tim = { d.tim with rate := clampR (-m) m r, acc := if -m < r ∧ r < m then acc else d.tim.acc } := by
  intro m acc r e
  obtain ⟨d1, hd1⟩ : ∃ y, y = if -m < r ∧ r < m then d.timMod fun t => { t with acc := acc } else d := ⟨_, rfl⟩
  have he : e = d1.setRate (clampR (-m) m r) := by rw [hd1]; rfl
  have h1 : d.changes [.regs, .tim] d1 ∧ d1.regs = d.regs ∧ d1.tim = { d.tim with acc := if -m < r ∧ r < m then acc else d.tim.acc } := by
    rw [hd1]
    split
    · exact ⟨rfl, rfl, rfl⟩
    · exact ⟨.refl _ _, rfl, rfl⟩
  obtain ⟨hc, hr, ht⟩ := h1
  clear_value e
  clear hd1
  obtain ⟨h1, h2, h3⟩ := d1.setRate_spec (clampR (-m) m r)
  rw [he]
  generalize d1.setRate (clampR (-m) m r) = f at h1 h2 h3
  exact ⟨hc.trans h1, (Dev.pageKept.of_regs hr).trans h2, by rw [h3, ht]⟩

/-- The registers that a new offset may change. -/
abbrev offsetOffs : List Nat := [R.TIME_STAT.off, R.TIME_EVT.off, R.FLT_STAT.off, R.TIME_OFFSET.off, R.TIME_RATE.off]

/-- A new offset (R395 to R397). -/
theorem Dev.newOffset_spec (o : Rat) :
    let m : Rat := (d.getN timeB R.TIME_SLEW_MAX : Nat)
    let acc := d.tim.acc + ((d.getI timeB R.TIME_KI : Int) : Rat) / 65536 * o
    let r := ((d.getI timeB R.TIME_KP : Int) : Rat) / 65536 * o + acc
    let e := d.newOffset o
    d.changes [.regs, .vecs, .fabric, .tim] e ∧ d.pageKept timeB offsetOffs e ∧ e.tim.ports = d.tim.ports ∧ e.tim.path = d.tim.path ∧
    e.get timeB R.TIME_OFFSET = satWord o ∧
    e.getB timeB R.TIME_STAT 1 = decide (rabs o ≤ ((d.getN timeB R.TIME_OFS_ALARM : Nat) : Rat)) ∧
    e.getB timeB R.TIME_STAT 2 = false ∧
    if d.getB timeB R.TIME_STAT 0 = true ∧ d.getB timeB R.TIME_CTL 5 = true then
      e.tim.clock = ((d.tim.clock : Int) - (o * (q32 : Rat)).floor).toNat ∧ e.getB timeB R.TIME_STAT 0 = false ∧ e.tim.rate = d.tim.rate
    else e.tim.clock = d.tim.clock ∧ e.tim.rate = clampR (-m) m r ∧ e.tim.acc = if -m < r ∧ r < m then acc else d.tim.acc := by
  intro m acc r e
  obtain ⟨d1, hd1⟩ : ∃ y, y = d.put timeB R.TIME_OFFSET (satWord o) := ⟨_, rfl⟩
  have hc1 : d.changes [.regs] d1 := by rw [hd1]; rfl
  have hk1 : d.pageKept timeB [R.TIME_OFFSET.off] d1 := by
    rw [hd1]
    exact (Dev.pageKept.refl d).put _ _ 0 0 (by decide)
  have ho1 : d1.get timeB R.TIME_OFFSET = satWord o := by
    rw [hd1]
    exact Dev.get_put_same _ _ _ _ _ _
  have ht1 : d1.tim = d.tim := hc1.get Dev.tim
  have hn1 : ∀ q : Reg, q.off < 0x1000 → q.off ≠ R.TIME_OFFSET.off → d1.getN timeB q = d.getN timeB q := fun q hq hne =>
    congrArg BitVec.toNat (hk1 q 0 0 (by rwa [q.ofs_zero]) (by rw [q.ofs_zero]; simpa using hne))
  have hi1 : ∀ q : Reg, q.off < 0x1000 → q.off ≠ R.TIME_OFFSET.off → d1.getI timeB q = d.getI timeB q := fun q hq hne =>
    congrArg BitVec.toInt (hk1 q 0 0 (by rwa [q.ofs_zero]) (by rw [q.ofs_zero]; simpa using hne))
  by_cases hset : d.getB timeB R.TIME_STAT 0 = true ∧ d.getB timeB R.TIME_CTL 5 = true
  · obtain ⟨d2, hd2⟩ : ∃ y, y = (d1.timMod fun t => { t with clock := ((t.clock : Int) - (o * (q32 : Rat)).floor).toNat }).putB timeB
      R.TIME_STAT 0 false := ⟨_, rfl⟩
    have he : e = d2.offsetFlags o := by
      rw [hd2, hd1]
      exact if_pos hset
    have hc2 : d1.changes [.regs, .tim] d2 := by rw [hd2]; rfl
    have hk2 : d1.pageKept timeB [R.TIME_STAT.off] d2 := by
      rw [hd2]
      exact ((Dev.pageKept.refl d1).beside rfl).put _ _ 0 0 (by decide)
    have ht2 : d2.tim = { d.tim with clock := ((d.tim.clock : Int) - (o * (q32 : Rat)).floor).toNat } := by
      rw [hd2, ← ht1]
      rfl
    have hs2 : d2.getB timeB R.TIME_STAT 0 = false := by
      rw [hd2]
      exact Dev.getB_putB_same _ _ _ _ _ _ (by decide)
    clear hd2 hd1
    clear_value e
    obtain ⟨h1, h2, ⟨l, t, h3⟩, h4, h5, h6⟩ := d2.offsetFlags_spec o
    rw [← he] at h1 h2 h3 h4 h5 h6
    clear he
    rw [if_pos hset, h3, ht2]
    refine ⟨((hc1.mono (by decide)).trans (hc2.mono (by decide))).trans h1, ((hk1.mono (by decide)).trans (hk2.mono (by decide))).trans (h2.mono (by decide)),
      rfl, rfl, ?_, ?_, h5, rfl, h6.trans hs2, rfl⟩
    · exact (h2 _ 0 0 (by decide) (by decide)).trans ((hk2 _ 0 0 (by decide) (by decide)).trans ho1)
    · have halarm : d2.getN timeB R.TIME_OFS_ALARM = d.getN timeB R.TIME_OFS_ALARM :=
        (congrArg BitVec.toNat (hk2 _ 0 0 (by decide) (by decide))).trans (hn1 R.TIME_OFS_ALARM (by decide) (by decide))
      rw [h4, halarm]
  · obtain ⟨d2, hd2⟩ : ∃ y, y = d1.discipline o := ⟨_, rfl⟩
    have he : e = d2.offsetFlags o := by
      rw [hd2, hd1]
      exact if_neg hset
    obtain ⟨hc2, hk2, ht2⟩ := d1.discipline_spec o
    rw [← hd2, hn1 R.TIME_SLEW_MAX (by decide) (by decide), hi1 R.TIME_KI (by decide) (by decide), hi1 R.TIME_KP (by decide) (by decide), ht1] at ht2
    rw [← hd2] at hc2 hk2
    clear hd2 hd1
    clear_value e
    obtain ⟨h1, h2, ⟨l, t, h3⟩, h4, h5, -⟩ := d2.offsetFlags_spec o
    rw [← he] at h1 h2 h3 h4 h5
    clear he
    rw [if_neg hset, h3, ht2]
    refine ⟨((hc1.mono (by decide)).trans (hc2.mono (by decide))).trans h1, ((hk1.mono (by decide)).trans (hk2.mono (by decide))).trans (h2.mono (by decide)),
      rfl, rfl, ?_, ?_, h5, rfl, rfl, rfl⟩
    · exact (h2 _ 0 0 (by decide) (by decide)).trans ((hk2 _ 0 0 (by decide) (by decide)).trans ho1)
    · have halarm : d2.getN timeB R.TIME_OFS_ALARM = d.getN timeB R.TIME_OFS_ALARM :=
        (congrArg BitVec.toNat (hk2 _ 0 0 (by decide) (by decide))).trans (hn1 R.TIME_OFS_ALARM (by decide) (by decide))
      rw [h4, halarm]

end

theorem portOfs (r : Reg) (hr : r.s0 = 0x20 ∧ r.s1 = 0) (p : Fin 2) : r.ofs p.val 0 = r.off + 0x20 * p.val := by
  rw [Reg.ofs, hr.1, hr.2]
  omega

section
variable (d : Dev) {p : Fin 2} (hp : d.portState p = 1)
include hp

/-- A receiver that is not late (any more) stays active if it was, and a change of the active port leaves it so. -/
theorem Dev.portAwake_spec : let e := (d.putB timeB R.TIME_PORT_STAT 1 false p.val).portsChanged
    d.changes [.regs, .vecs] e ∧ d.pageKept timeB (R.TIME_PORT_STAT.ofs p.val 0 :: switchOffs) e ∧ e.portLate p = false ∧
    (d.activePort = some p → e.activePort = some p) ∧ e.getB timeB R.TIME_STAT 0 = d.getB timeB R.TIME_STAT 0 := by
  obtain ⟨d1, hd1⟩ : ∃ y, y = d.putB timeB R.TIME_PORT_STAT 1 false p.val := ⟨_, rfl⟩
  have hc1 : d.changes [.regs] d1 := by rw [hd1]; rfl
  have hk1 : d.pageKept timeB [R.TIME_PORT_STAT.ofs p.val 0] d1 := by
    rw [hd1]
    exact (Dev.pageKept.refl d).put _ _ _ _ (List.mem_singleton_self _)
  have hl1 : d1.portLate p = false := by
    rw [hd1]
    exact Dev.getB_putB_same _ _ _ _ _ _ (by decide)
  have hlo : ∀ q : Fin 2, q ≠ p → d1.portLate q = d.portLate q := fun q hq =>
    congrArg (bit · 1) (hk1 R.TIME_PORT_STAT q.val 0 ((by decide : ∀ q : Fin 2, R.TIME_PORT_STAT.ofs q.val 0 < 0x1000) q)
      ((by decide : ∀ q p : Fin 2, q ≠ p → R.TIME_PORT_STAT.ofs q.val 0 ∉ [R.TIME_PORT_STAT.ofs p.val 0]) q p hq))
  have hfix : ∀ q : Reg, q.off < 0x178 → d1.get timeB q = d.get timeB q := fun q hq =>
    hk1 q 0 0 (by rw [q.ofs_zero]; omega) (by
      rw [q.ofs_zero, List.mem_singleton, portOfs _ ⟨rfl, rfl⟩]
      change q.off ≠ 0x178 + 0x20 * p.val
      omega)
  rw [← hd1]
  clear hd1
  have hst1 : d1.portState p = 1 := (congrArg (fun w => fld w (2 * p.val + 1) (2 * p.val)) (hfix R.TIME_CTL (by decide))).trans hp
  obtain ⟨q, hq⟩ := d1.activePort_some hst1
  obtain ⟨h1, h2, -, h4⟩ := d1.portsChanged_spec hq
  intro e
  change d1.changes _ e at h1
  change d1.pageKept _ _ e at h2
  have h40 : e.getB timeB R.TIME_STAT 0 = d1.getB timeB R.TIME_STAT 0 := h4 0 (by decide) (by decide)
  clear h4
  clear_value e
  have hle : ∀ r : Fin 2, e.portLate r = d1.portLate r := fun r =>
    congrArg (bit · 1) (h2 R.TIME_PORT_STAT r.val 0 ((by decide : ∀ q : Fin 2, R.TIME_PORT_STAT.ofs q.val 0 < 0x1000) r)
      ((by decide : ∀ q : Fin 2, R.TIME_PORT_STAT.ofs q.val 0 ∉ switchOffs) r))
  refine ⟨(hc1.mono (by decide)).trans h1, (hk1.mono (by simp)).trans (h2.mono (List.subset_cons_self _ _)), (hle p).trans hl1, fun hact => ?_,
    h40.trans (congrArg (bit · 0) (hfix R.TIME_STAT (by decide)))⟩
  refine Dev.activePort_congr (d := d) ((h2 _ 0 0 (by decide) (by decide)).trans (hfix R.TIME_CTL (by decide))) (fun r hr q hq => ?_)
    (fun r hr => ?_) p hact
  · rw [hact] at hr
    cases hr
    exact (hle q).trans (hlo q hq)
  · rw [hact] at hr
    cases hr
    exact (hle p).trans hl1

end

end Sys2Proof.Machine
end

section
/-! Network time (R391 to R397, R404): Syncs taken, messages answered, sent and missed. -/

namespace Sys2Proof.Machine

section
variable (d : Dev) {p : Fin 2}

/-- A complete Sync on a receiver port (R395). -/
theorem Dev.takeSync_taken (hp : d.portState p = 1) (t1 t2 : Int) : d.syncTaken (d.takeSync p t1 t2) p t1 t2 := by
  obtain ⟨d1, hd1⟩ : ∃ y, y = (d.portMod p fun x => { x with wait := none, t1 := t1, t2 := t2, paired := true, syncAt := d.now }).bump
    timeB R.TIME_PORT_SYNCS 1 p.val := ⟨_, rfl⟩
  obtain ⟨d2, hd2⟩ : ∃ y, y = (d1.putB timeB R.TIME_PORT_STAT 1 false p.val).portsChanged := ⟨_, rfl⟩
  have he : d.takeSync p t1 t2 = if d2.activePort = some p then d2.newOffset (((t2 - t1 : Int) : Rat) - d2.tim.path) else d2 := by
    rw [hd2, hd1]
    rfl
  have hc1 : d.changes [.regs, .tim] d1 := by rw [hd1]; rfl
  have ht1 : d1.tim = { d.tim with ports := d.tim.ports.set p { d.tim.ports[p] with
      wait := none, t1 := t1, t2 := t2, paired := true, syncAt := d.now } } := by rw [hd1]; rfl
  have hn1 : d1.getN timeB R.TIME_PORT_SYNCS p.val = min 0xFFFFFFFF (d.getN timeB R.TIME_PORT_SYNCS p.val + 1) := by
    rw [hd1]
    exact Dev.getN_bump _ _ _ _ _
  have hk1 : d.pageKept timeB [R.TIME_PORT_SYNCS.ofs p.val 0] d1 := by
    rw [hd1]
    exact ((Dev.pageKept.refl d).beside rfl).put _ _ _ _ (List.mem_singleton_self _)
  have hfix1 : ∀ q : Reg, q.off < 0x170 → d1.get timeB q = d.get timeB q := fun q hq =>
    hk1 q 0 0 (by rw [q.ofs_zero]; omega) (by
      rw [q.ofs_zero, List.mem_singleton, portOfs _ ⟨rfl, rfl⟩]
      change q.off ≠ 0x170 + 0x20 * p.val
      omega)
  have hl1 : ∀ q : Fin 2, d1.portLate q = d.portLate q := fun q =>
    congrArg (bit · 1) (hk1 R.TIME_PORT_STAT q.val 0 ((by decide : ∀ q : Fin 2, R.TIME_PORT_STAT.ofs q.val 0 < 0x1000) q)
      ((by decide : ∀ q p : Fin 2, R.TIME_PORT_STAT.ofs q.val 0 ∉ [R.TIME_PORT_SYNCS.ofs p.val 0]) q p))
  rw [he]
  clear hd1 he
  have hst1 : d1.portState p = 1 := (congrArg (fun w => fld w (2 * p.val + 1) (2 * p.val)) (hfix1 R.TIME_CTL (by decide))).trans hp
  have hact1 : d1.activePort = d.activePort := Dev.activePort_eq (hfix1 _ (by decide)) hl1
  obtain ⟨hc2, hk2, hl2, ha2, hs2⟩ := d1.portAwake_spec hst1
  rw [← hd2] at hc2 hk2 hl2 ha2 hs2
  clear hd2
  have ht2 : d2.tim = d1.tim := hc2.get Dev.tim
  have hn2 : d2.getN timeB R.TIME_PORT_SYNCS p.val = d1.getN timeB R.TIME_PORT_SYNCS p.val :=
    congrArg BitVec.toNat (hk2 R.TIME_PORT_SYNCS p.val 0 ((by decide : ∀ q : Fin 2, R.TIME_PORT_SYNCS.ofs q.val 0 < 0x1000) p)
      ((by decide : ∀ p : Fin 2, R.TIME_PORT_SYNCS.ofs p.val 0 ∉ R.TIME_PORT_STAT.ofs p.val 0 :: switchOffs) p))
  have hfix2 : ∀ q : Reg, q.off < 0x170 → q.off ≠ R.TIME_STAT.off → d2.get timeB q = d.get timeB q := fun q hq hne =>
    (hk2 q 0 0 (by rw [q.ofs_zero]; omega) (by
      rw [q.ofs_zero, portOfs _ ⟨rfl, rfl⟩]
      simp only [List.mem_cons, List.not_mem_nil, or_false, not_or, hne, not_false_eq_true, true_and]
      change q.off ≠ 0x178 + 0x20 * p.val ∧ q.off ≠ 0x1A0 ∧ q.off ≠ 0x1A4
      omega)).trans (hfix1 q hq)
  have hF2 : d.changes [.regs, .vecs, .fabric, .tim] d2 := (hc1.mono (by decide)).trans (hc2.mono (by decide))
  by_cases hact : d2.activePort = some p
  · rw [if_pos hact]
    obtain ⟨h1, h2, h3, h4, h5, h6, h7, h8⟩ := d2.newOffset_spec (((t2 - t1 : Int) : Rat) - d2.tim.path)
    generalize d2.newOffset (((t2 - t1 : Int) : Rat) - d2.tim.path) = e at h1 h2 h3 h4 h5 h6 h7 h8
    have hpath : d2.tim.path = d.tim.path := by rw [ht2, ht1]
    have hclock : d2.tim.clock = d.tim.clock := by rw [ht2, ht1]
    have hrate : d2.tim.rate = d.tim.rate := by rw [ht2, ht1]
    have hacc : d2.tim.acc = d.tim.acc := by rw [ht2, ht1]
    have hgN : ∀ q : Reg, q.off < 0x170 → q.off ≠ R.TIME_STAT.off → d2.getN timeB q = d.getN timeB q := fun q h h' => congrArg BitVec.toNat (hfix2 q h h')
    have hgI : ∀ q : Reg, q.off < 0x170 → q.off ≠ R.TIME_STAT.off → d2.getI timeB q = d.getI timeB q := fun q h h' => congrArg BitVec.toInt (hfix2 q h h')
    have hst : d2.getB timeB R.TIME_STAT 0 = d.getB timeB R.TIME_STAT 0 := hs2.trans (congrArg (bit · 0) (hfix1 _ (by decide)))
    have hctl : d2.getB timeB R.TIME_CTL 5 = d.getB timeB R.TIME_CTL 5 := congrArg (bit · 5) (hfix2 R.TIME_CTL (by decide) (by decide))
    rw [hgN R.TIME_SLEW_MAX (by decide) (by decide), hgI R.TIME_KI (by decide) (by decide), hgI R.TIME_KP (by decide) (by decide), hst, hctl, hpath, hclock,
      hrate, hacc] at h8
    rw [hpath] at h4 h5 h6
    rw [hgN R.TIME_OFS_ALARM (by decide) (by decide)] at h6
    refine ⟨congrArg (fun y : Dev => { y with regs := e.regs, vecs := e.vecs, fabric := e.fabric, tim := e.tim }) (hF2.trans h1), ?_, ?_, ?_, h4,
      fun _ => ⟨h5, h6, h7, h8⟩⟩
    · rw [h3, ht2, ht1]
    · rw [← hn1, ← hn2]
      exact congrArg BitVec.toNat (h2 R.TIME_PORT_SYNCS p.val 0 ((by decide : ∀ q : Fin 2, R.TIME_PORT_SYNCS.ofs q.val 0 < 0x1000) p)
        ((by decide : ∀ p : Fin 2, R.TIME_PORT_SYNCS.ofs p.val 0 ∉ offsetOffs) p))
    · rw [← hl2]
      exact congrArg (bit · 1) (h2 R.TIME_PORT_STAT p.val 0 ((by decide : ∀ q : Fin 2, R.TIME_PORT_STAT.ofs q.val 0 < 0x1000) p)
        ((by decide : ∀ p : Fin 2, R.TIME_PORT_STAT.ofs p.val 0 ∉ offsetOffs) p))
  · rw [if_neg hact]
    refine ⟨congrArg (fun y : Dev => { y with regs := d2.regs, vecs := d2.vecs, fabric := d2.fabric, tim := d2.tim }) hF2, by rw [ht2, ht1],
      hn2.trans hn1, hl2, by rw [ht2, ht1], fun h => absurd (ha2 (hact1.trans h)) hact⟩

end

section
variable (s : State) (p : Fin 2) (hlive : s.dev.dead = false) (hon : s.dev.portOn p = true)
include hlive hon

/-! Messages received. -/

theorem exec_sync (m : SyncMsg) (hp : s.dev.portState p = 1) (hdom : s.dev.inDomain m.hdr = true) :
    exec (.sync p m) s = .next { s with dev := (if m.twoStep then
      ((s.dev.portMod p fun x => { x with wait := some (m.hdr.seq, s.dev.rxNs p m.rx, m.corr), syncAt := s.dev.now }).putB timeB R.TIME_PORT_STAT 1
        false p.val).portsChanged
      else s.dev.takeSync p (s.dev.msgNs m.origin + m.corr) (s.dev.rxNs p m.rx)) } := by
  have hnot : ¬ (s.dev.portState p ≠ 1 ∨ ¬ s.dev.inDomain m.hdr = true) := by simp [hp, hdom]
  change execSync p m s = _
  unfold execSync
  rw [onLive_next _ _ hlive, Dev.when_of _ _ hon, if_neg hnot]

/-- A Sync of two steps waits for its Follow_Up (R395). -/
theorem exec_syncTwoStep (m : SyncMsg) (hp : s.dev.portState p = 1) (hdom : s.dev.inDomain m.hdr = true) (htwo : m.twoStep = true) : ∃ d',
    exec (.sync p m) s = .next { s with dev := d' } ∧
    d' = { s.dev with
      regs := d'.regs, vecs := d'.vecs
      tim := { s.dev.tim with
        ports := s.dev.tim.ports.set p { s.dev.tim.ports[p] with
          wait := some (m.hdr.seq, s.dev.rxNs p m.rx, m.corr), syncAt := s.dev.now } } } ∧
    d'.portLate p = false ∧ (s.dev.activePort = some p → d'.activePort = some p) := by
  obtain ⟨d1, hd1⟩ : ∃ y, y = s.dev.portMod p fun x => { x with wait := some (m.hdr.seq, s.dev.rxNs p m.rx, m.corr), syncAt := s.dev.now } := ⟨_, rfl⟩
  have hf1 : d1 = { s.dev with tim := { s.dev.tim with ports := s.dev.tim.ports.set p { s.dev.tim.ports[p] with
      wait := some (m.hdr.seq, s.dev.rxNs p m.rx, m.corr), syncAt := s.dev.now } } } := hd1
  have hr1 : d1.regs = s.dev.regs := by rw [hd1]; rfl
  have hexec := exec_sync s p hlive hon m hp hdom
  rw [if_pos htwo, ← hd1] at hexec
  clear hd1
  have hg : ∀ q : Reg, ∀ i, d1.get timeB q i = s.dev.get timeB q i := fun q i => Dev.get_of_regs _ _ _ _ (by rw [hr1])
  have hst1 : d1.portState p = 1 := (congrArg (fun w => fld w (2 * p.val + 1) (2 * p.val)) (hg R.TIME_CTL 0)).trans hp
  have hact1 : d1.activePort = s.dev.activePort := Dev.activePort_eq (hg _ 0) fun q => congrArg (bit · 1) (hg R.TIME_PORT_STAT q.val)
  obtain ⟨h1, -, h3, h4, -⟩ := d1.portAwake_spec hst1
  generalize (d1.putB timeB R.TIME_PORT_STAT 1 false p.val).portsChanged = e at hexec h1 h3 h4
  refine ⟨e, hexec, ?_, h3, fun h => h4 (hact1.trans h)⟩
  have he : e = { d1 with regs := e.regs, vecs := e.vecs } := congrArg (fun y : Dev => { y with regs := e.regs, vecs := e.vecs }) h1
  rw [hf1] at he
  exact he

theorem exec_followUp (m : FollowMsg) (t2 c : Int) (hp : s.dev.portState p = 1) (hdom : s.dev.inDomain m.hdr = true)
    (hw : s.dev.tim.ports[p].wait = some (m.hdr.seq, t2, c)) :
    exec (.followUp p m) s = .next { s with dev := s.dev.takeSync p (s.dev.msgNs m.time + c + m.corr) t2 } := by
  have hnot : ¬ (s.dev.portState p ≠ 1 ∨ ¬ s.dev.inDomain m.hdr = true) := by simp [hp, hdom]
  change execFollowUp p m s = _
  unfold execFollowUp
  rw [onLive_next _ _ hlive, Dev.when_of _ _ hon, if_neg hnot, hw]
  dsimp only
  rw [if_pos rfl]

theorem exec_delayReq (rx : PtpTime) (m : PtpHdr) (hp : s.dev.portState p = 2) (hdom : s.dev.inDomain m = true) :
    exec (.delayReq p rx m) s = .next { s with dev := s.dev.ptpSend p 9 m.seq.toNat (s.dev.rxNs p rx) } := by
  have hnot : ¬ (s.dev.portState p ≠ 2 ∨ ¬ s.dev.inDomain m = true) := by simp [hp, hdom]
  change execDelayReq p rx m s = _
  unfold execDelayReq
  rw [onLive_next _ _ hlive, Dev.when_of _ _ hon, if_neg hnot]

/-- The path delay moves by a sixteenth (R395). -/
theorem exec_delayResp (m : FollowMsg) (t3 : Int) (hp : s.dev.portState p = 1) (hdom : s.dev.inDomain m.hdr = true)
    (hdr : s.dev.tim.ports[p].dreq = some (m.hdr.seq, t3)) (hact : s.dev.activePort = some p) (hpair : s.dev.tim.ports[p].paired = true) :
    let x := s.dev.tim.ports[p]
    let mean : Rat := (((x.t2 - t3) + (s.dev.msgNs m.time - x.t1) - m.corr : Int) : Rat) / 2
    let path := s.dev.tim.path + (mean - s.dev.tim.path) / 16
    exec (.delayResp p m) s = .next { s with dev :=
      ((s.dev.portMod p fun y => { y with dreq := none }).timMod fun t => { t with path := path }).put timeB R.TIME_PATH (satWord path) } := by
  intro x mean path
  have hnot : ¬ (s.dev.portState p ≠ 1 ∨ ¬ s.dev.inDomain m.hdr = true) := by simp [hp, hdom]
  change execDelayResp p m s = _
  unfold execDelayResp
  rw [onLive_next _ _ hlive, Dev.when_of _ _ hon, if_neg hnot, hdr]
  dsimp only
  rw [if_neg (not_not.mpr rfl), if_pos ⟨hact, hpair⟩]

/-- UTC offset and grandmaster are shown (R391, R404). -/
theorem exec_announce (m : AnnMsg) (hp : s.dev.portState p = 1 ∨ s.dev.portState p = 3) (hdom : s.dev.inDomain m.hdr = true) :
    exec (.announce p m) s = .next { s with dev := (((s.dev.put timeB R.TIME_UTC_OFS (wd (m.utcOfs.toNat + m.utcValid.toNat * 65536))).put timeB
      R.TIME_GM_ID0 m.gm0).put timeB R.TIME_GM_ID1 m.gm1) } := by
  have hnot : ¬ ((s.dev.portState p ≠ 1 ∧ s.dev.portState p ≠ 3) ∨ ¬ s.dev.inDomain m.hdr = true) := by
    rcases hp with h | h <;> simp [h, hdom]
  change execAnnounce p m s = _
  unfold execAnnounce
  rw [onLive_next _ _ hlive, Dev.when_of _ _ hon, if_neg hnot]

theorem exec_ptpDiscard : exec (.ptpDiscard p) s = .next { s with dev := s.dev.ptpDrop p } := by
  change execPtpDiscard p s = _
  unfold execPtpDiscard
  rw [onLive_next _ _ hlive]
  exact congrArg (fun e => Host.Outcome.next { s with dev := e }) (Dev.when_of _ _ hon)

/-! Messages sent. -/

omit hlive hon in
/-- A message that is due. -/
theorem sendDue_of {last : Option Nat} {log : Nat} (h : ∀ t, last = some t → s.dev.logOver 1 log t = true) : s.dev.sendDue last log = true := by
  cases last with
  | none => rfl
  | some t => exact h t rfl

theorem exec_syncTransmit (hp : s.dev.portState p = 2)
    (hd : ∀ t, s.dev.tim.ports[p].tAt = some t → s.dev.logOver 1 (s.dev.getF timeB R.TIME_DOMAIN 15 8) t = true) :
    exec (.syncTransmit p) s = .next { s with dev := (s.dev.ptpSend p 0 s.dev.tim.ports[p].tseq (s.dev.txNs p)).portMod p fun x =>
      { x with tseq := (x.tseq + 1) % 65536, tAt := some s.dev.now } } := by
  have hcond : (s.dev.portOn p && decide (s.dev.portState p = 2) &&
      s.dev.sendDue s.dev.tim.ports[p].tAt (s.dev.getF timeB R.TIME_DOMAIN 15 8)) = true := by
    rw [hon, decide_eq_true hp, sendDue_of s hd]
    rfl
  change execSyncTransmit p s = _
  unfold execSyncTransmit
  rw [onLive_next _ _ hlive]
  exact congrArg (fun e => Host.Outcome.next { s with dev := e }) (Dev.when_of _ _ hcond)

theorem exec_announceTransmit (hp : s.dev.portState p = 2)
    (hd : ∀ t, s.dev.tim.ports[p].aAt = some t → s.dev.logOver 1 (s.dev.getF timeB R.TIME_DOMAIN 23 16) t = true) :
    exec (.announceTransmit p) s = .next { s with dev := (s.dev.ptpSend p 0xB s.dev.tim.ports[p].aseq (s.dev.txNs p)).portMod p fun x =>
      { x with aseq := (x.aseq + 1) % 65536, aAt := some s.dev.now } } := by
  have hcond : (s.dev.portOn p && decide (s.dev.portState p = 2) &&
      s.dev.sendDue s.dev.tim.ports[p].aAt (s.dev.getF timeB R.TIME_DOMAIN 23 16)) = true := by
    rw [hon, decide_eq_true hp, sendDue_of s hd]
    rfl
  change execAnnounceTransmit p s = _
  unfold execAnnounceTransmit
  rw [onLive_next _ _ hlive]
  exact congrArg (fun e => Host.Outcome.next { s with dev := e }) (Dev.when_of _ _ hcond)

theorem exec_delayReqTransmit (hp : s.dev.portState p = 1)
    (hd : ∀ t, s.dev.tim.ports[p].dAt = some t → s.dev.logOver 1 (s.dev.getF timeB R.TIME_PORT_CFG 15 8 p.val) t = true) :
    exec (.delayReqTransmit p) s = .next { s with dev := (s.dev.ptpSend p 1 s.dev.tim.ports[p].dseq (s.dev.txNs p)).portMod p fun x =>
      { x with dreq := some (BitVec.ofNat 16 x.dseq, s.dev.txNs p), dseq := (x.dseq + 1) % 65536, dAt := some s.dev.now } } := by
  have hcond : (s.dev.portOn p && decide (s.dev.portState p = 1) &&
      s.dev.sendDue s.dev.tim.ports[p].dAt (s.dev.getF timeB R.TIME_PORT_CFG 15 8 p.val)) = true := by
    rw [hon, decide_eq_true hp, sendDue_of s hd]
    rfl
  change execDelayReqTransmit p s = _
  unfold execDelayReqTransmit
  rw [onLive_next _ _ hlive]
  exact congrArg (fun e => Host.Outcome.next { s with dev := e }) (Dev.when_of _ _ hcond)

end

end Sys2Proof.Machine
end

section
/-! The clock set and ports that fall silent (R392, R396, R397). -/

namespace Sys2Proof.Machine

/-- The registers of a port that falls silent. -/
abbrev silentOffs : List Nat := [R.TIME_STAT.off, R.TIME_SWITCH.off, R.TIME_EVT.off, R.FLT_STAT.off]

section
variable (s : State)

/-- SET while the window is open (R396). -/
theorem exec_set (ht : s.dev.takes timeB 0x124) : exec .set s = .next { s with dev := s.dev.setClock } := by
  change execSet s = _
  unfold execSet
  rw [onLive_next _ _ (Dev.takes_live _ _ _ ht), Dev.hostWrite_takes _ _ _ _ ht]

/-- SET steps the clock while SET_OPEN is 1, and still in the cycle that closes it (R396). -/
theorem Dev.setClock_open (d : Dev) (h : d.getB timeB R.TIME_STAT 0 = true ∨ d.tim.openTill = some d.now) : let e := d.setClock
    e = { d with
      regs := e.regs
      tim := { d.tim with
        clock := ((d.getN timeB R.TIME_SET_SEC_LO + d.getN timeB R.TIME_SET_SEC_HI * 2 ^ 32) * 1000000000 +
          d.getN timeB R.TIME_SET_NS) * 2 ^ 32
        openTill := none } } ∧
    e.getB timeB R.TIME_STAT 0 = false ∧ d.regsKept e fun a => a = radr timeB R.TIME_STAT := by
  have hnot : ¬ (¬ d.getB timeB R.TIME_STAT 0 = true ∧ d.tim.openTill ≠ some d.now) := fun hn => h.elim hn.1 hn.2
  obtain ⟨sec, hsec⟩ : ∃ sec, sec = d.getN timeB R.TIME_SET_SEC_LO + d.getN timeB R.TIME_SET_SEC_HI * 2 ^ 32 := ⟨_, rfl⟩
  obtain ⟨c, hc⟩ : ∃ c, c = (sec * 1000000000 + d.getN timeB R.TIME_SET_NS) * q32 := ⟨_, rfl⟩
  have he : d.setClock = (d.timMod fun t => { t with clock := c, openTill := none }).putB timeB R.TIME_STAT 0 false := by
    unfold Dev.setClock
    rw [if_neg hnot, ← hsec]
    dsimp only
    rw [← hc]
  have hc' : c = (sec * 1000000000 + d.getN timeB R.TIME_SET_NS) * 2 ^ 32 := by
    rw [hc, show q32 = 2 ^ 32 by norm_num [q32]]
  intro e
  rw [show e = _ from he, ← hsec, ← hc']
  clear hc hc' he hsec e
  exact ⟨rfl, Dev.getB_putB_same _ _ _ _ _ _ (by decide), Dev.regsKept_put _ _ _ _ 0 0 rfl⟩

theorem Dev.setClock_closed (d : Dev) (h : ¬ (d.getB timeB R.TIME_STAT 0 = true ∨ d.tim.openTill = some d.now)) : d.setClock = d :=
  if_pos ⟨fun h1 => h (.inl h1), fun h2 => h (.inr h2)⟩

variable (p : Fin 2) (hlive : s.dev.dead = false) (hon : s.dev.portOn p = true) (hp : s.dev.portState p = 1)
  (hl : s.dev.portLate p = false) (ho : s.dev.announceOver s.dev.tim.ports[p].syncAt = true)
include hlive hon hp hl ho

/-- A port whose announce receipt timeout passes is late (R397). -/
theorem exec_syncTimeout : ∃ d',
    exec (.syncTimeout p) s = .next { s with dev := d' } ∧
    d' = { s.dev with regs := d'.regs, vecs := d'.vecs, fabric := d'.fabric } ∧ d'.portLate p = true ∧
    (s.dev.activePort = some p → d'.getB timeB R.TIME_STAT 1 = false) ∧
    if s.dev.portState (p + 1) = 1 ∧ s.dev.portLate (p + 1) = false then
      s.dev.activePort = some p → d'.getF timeB R.TIME_STAT 3 3 = (p + 1).val
    else d'.getB timeB R.TIME_STAT 2 = true ∧ d'.getB timeB R.TIME_EVT 1 = true ∧ d'.getB timeB R.FLT_STAT 0 = true := by
  obtain ⟨d0, hd0⟩ : ∃ y, y = s.dev.putB timeB R.TIME_PORT_STAT 1 true p.val := ⟨_, rfl⟩
  obtain ⟨d1, hd1⟩ : ∃ y, y = d0.portsChanged := ⟨_, rfl⟩
  obtain ⟨d2, hd2⟩ : ∃ y, y = if decide (s.dev.activePort = some p) then d1.putB timeB R.TIME_STAT 1 false else d1 := ⟨_, rfl⟩
  obtain ⟨d3, hd3⟩ : ∃ y, y = (d2.putB timeB R.TIME_STAT 2 true).timeEvent 1 := ⟨_, rfl⟩
  have hexec : exec (.syncTimeout p) s = .next { s with dev := (if d2.portState (p + 1) = 1 ∧ ¬ d2.portLate (p + 1) = true then d2
      else d3.raise timeB (some p.val) 0) } := by
    have hcond : (s.dev.portOn p && decide (s.dev.portState p = 1) && !s.dev.portLate p &&
        s.dev.announceOver s.dev.tim.ports[p].syncAt) = true := by
      rw [hon, decide_eq_true hp, hl, ho]
      rfl
    change execSyncTimeout p s = _
    unfold execSyncTimeout
    rw [onLive_next _ _ hlive, hd3, hd2, hd1, hd0]
    exact congrArg (fun e => Host.Outcome.next { s with dev := e }) (Dev.when_of _ _ hcond)
  have hc0 : s.dev.changes [.regs] d0 := by rw [hd0]; rfl
  have hk0 : s.dev.pageKept timeB [R.TIME_PORT_STAT.ofs p.val 0] d0 := by
    rw [hd0]
    exact (Dev.pageKept.refl _).put _ _ _ _ (List.mem_singleton_self _)
  have hl0 : d0.portLate p = true := by
    rw [hd0]
    exact Dev.getB_putB_same _ _ _ _ _ _ (by decide)
  have hlo : d0.portLate (p + 1) = s.dev.portLate (p + 1) := congrArg (bit · 1) (hk0 R.TIME_PORT_STAT (p + 1).val 0
    ((by decide : ∀ q : Fin 2, R.TIME_PORT_STAT.ofs q.val 0 < 0x1000) (p + 1))
    ((by decide : ∀ p : Fin 2, R.TIME_PORT_STAT.ofs (p + 1).val 0 ∉ [R.TIME_PORT_STAT.ofs p.val 0]) p))
  have hctl0 : d0.get timeB R.TIME_CTL = s.dev.get timeB R.TIME_CTL :=
    hk0 _ 0 0 (by decide) ((by decide : ∀ p : Fin 2, R.TIME_CTL.ofs 0 0 ∉ [R.TIME_PORT_STAT.ofs p.val 0]) p)
  clear hd0
  have hst0 : ∀ q, d0.portState q = s.dev.portState q := fun q => congrArg (fun w => fld w (2 * q.val + 1) (2 * q.val)) hctl0
  obtain ⟨q, hq⟩ := d0.activePort_some ((hst0 p).trans hp)
  obtain ⟨hc1, hk1, hsel, -⟩ := d0.portsChanged_spec hq
  rw [← hd1] at hc1 hk1 hsel
  clear hd1
  have h2 : d1.changes [.regs] d2 ∧ d1.pageKept timeB [R.TIME_STAT.off] d2 ∧ d2.getF timeB R.TIME_STAT 3 3 = q.val ∧
      (s.dev.activePort = some p → d2.getB timeB R.TIME_STAT 1 = false) := by
    rw [hd2]
    by_cases ha : s.dev.activePort = some p
    · rw [if_pos (decide_eq_true ha)]
      exact ⟨rfl, (Dev.pageKept.refl _).put _ _ 0 0 (by decide), (Dev.getF_putB_other _ _ _ _ _ _ (by decide) (by decide)).trans hsel,
        fun _ => Dev.getB_putB_same _ _ _ _ _ _ (by decide)⟩
    · rw [if_neg (by rw [decide_eq_false ha]; exact Bool.false_ne_true)]
      exact ⟨.refl _ _, .refl _, hsel, fun h => absurd h ha⟩
  obtain ⟨hc2, hk2, hsel2, hlost⟩ := h2
  clear hd2
  have hF2 : s.dev.changes [.regs, .vecs, .fabric] d2 := ((hc0.mono (by decide)).trans (hc1.mono (by decide))).trans (hc2.mono (by decide))
  have hk12 : d0.pageKept timeB switchOffs d2 := hk1.trans (hk2.mono (by decide))
  have hl2 : ∀ r : Fin 2, d2.portLate r = d0.portLate r := fun r => congrArg (bit · 1) (hk12 R.TIME_PORT_STAT r.val 0
    ((by decide : ∀ q : Fin 2, R.TIME_PORT_STAT.ofs q.val 0 < 0x1000) r) ((by decide : ∀ q : Fin 2, R.TIME_PORT_STAT.ofs q.val 0 ∉ switchOffs) r))
  have hst2 : ∀ r, d2.portState r = s.dev.portState r := fun r =>
    (congrArg (fun w => fld w (2 * r.val + 1) (2 * r.val)) (hk12 R.TIME_CTL 0 0 (by decide) (by decide))).trans (hst0 r)
  rw [hst2, hl2, hlo] at hexec
  by_cases hother : s.dev.portState (p + 1) = 1 ∧ s.dev.portLate (p + 1) = false
  · rw [if_pos ⟨hother.1, by rw [hother.2]; exact Bool.false_ne_true⟩] at hexec
    refine ⟨d2, hexec, congrArg (fun y : Dev => { y with regs := d2.regs, vecs := d2.vecs, fabric := d2.fabric }) hF2, (hl2 p).trans hl0, hlost, ?_⟩
    rw [if_pos hother]
    intro _
    have hact0 : d0.activePort = some (p + 1) := by
      have h0 : d0.portState 0 = 1 ∧ d0.portState 1 = 1 := by
        have : p = 0 ∨ p = 1 := by omega
        rcases this with rfl | rfl
        · exact ⟨(hst0 0).trans hp, (hst0 1).trans hother.1⟩
        · exact ⟨(hst0 0).trans hother.1, (hst0 1).trans hp⟩
      unfold Dev.activePort
      rw [decide_eq_true h0.1, decide_eq_true h0.2]
      dsimp only
      generalize Fin.ofNat 2 (d0.getF timeB R.TIME_CTL 4 4) = r
      by_cases hr : r = p
      · rw [hr, hl0, if_pos rfl]
      · have hr' : r = p + 1 := by omega
        rw [hr', hlo, hother.2, if_neg Bool.false_ne_true]
    rw [hsel2]
    rw [hact0] at hq
    rw [Option.some.inj hq]
  · rw [if_neg (fun h => hother ⟨h.1, by simpa using h.2⟩)] at hexec
    obtain ⟨d2', hd2'⟩ : ∃ y, y = d2.putB timeB R.TIME_STAT 2 true := ⟨_, rfl⟩
    have h2' : d2.changes [.regs] d2' ∧ d2.pageKept timeB [R.TIME_STAT.off] d2' ∧ d2'.getB timeB R.TIME_STAT 2 = true ∧
        d2'.getB timeB R.TIME_STAT 1 = d2.getB timeB R.TIME_STAT 1 := by
      rw [hd2']
      exact ⟨rfl, (Dev.pageKept.refl _).put _ _ 0 0 (by decide), Dev.getB_putB_same _ _ _ _ _ _ (by decide),
        Dev.getB_putB_other _ _ _ _ _ _ (by decide) (by decide)⟩
    obtain ⟨hc2', hk2', hb2, hb1⟩ := h2'
    rw [← hd2'] at hd3
    clear hd2'
    have h3 : d2'.changes [.regs, .vecs] d3 ∧ d2'.pageKept timeB [R.TIME_EVT.off] d3 ∧ d3.getB timeB R.TIME_EVT 1 = true := by
      rw [hd3]
      refine ⟨d2'.event_changes _ _ _ _ _ _, (Dev.pageKept.refl _).event timeB_ne_hif _ _ _ (by decide) 0 (by decide), ?_⟩
      rw [Dev.timeEvent, Dev.getB, Dev.event_get _ _ _ (by decide) timeB_ne_hif (by decide)]
      exact bit_or_pow _ (k := 1) (by decide)
    obtain ⟨hc3, hk3, hev⟩ := h3
    clear hd3
    have hc4 := d3.detect_changes timeB (some p.val) 0 0 false false false
    have hk4 : d3.pageKept timeB [R.FLT_STAT.off] (d3.detect timeB (some p.val) 0 0 false false false) :=
      (Dev.pageKept.refl _).detect timeB_ne_hif timeB_ne_fltc _ _ _ _ _ _ (by decide)
    have hset : (d3.detect timeB (some p.val) 0 0 false false false).getB timeB R.FLT_STAT 0 = true :=
      d3.detect_stat timeB_kind timeB_ne_hif timeB_ne_fltc _ (by decide) _ _ _ _
    change exec (.syncTimeout p) s = .next { s with dev := d3.detect timeB (some p.val) 0 0 false false false } at hexec
    generalize d3.detect timeB (some p.val) 0 0 false false false = e at hexec hc4 hk4 hset
    have hF : s.dev.changes [.regs, .vecs, .fabric] e :=
      ((hF2.trans (hc2'.mono (by decide))).trans (hc3.mono (by decide))).trans (hc4.mono (by decide))
    have hke : d2'.pageKept timeB [R.TIME_EVT.off, R.FLT_STAT.off] e := (hk3.mono (by decide)).trans (hk4.mono (by decide))
    have hste : e.get timeB R.TIME_STAT = d2'.get timeB R.TIME_STAT := hke _ 0 0 (by decide) (by decide)
    refine ⟨e, hexec, congrArg (fun y : Dev => { y with regs := e.regs, vecs := e.vecs, fabric := e.fabric }) hF, ?_, fun h => ?_, ?_⟩
    · have hle : e.portLate p = d2.portLate p := congrArg (bit · 1) (((hk2'.mono (by decide)).trans (hke.mono (by decide)) : d2.pageKept timeB silentOffs e)
        R.TIME_PORT_STAT p.val 0 ((by decide : ∀ q : Fin 2, R.TIME_PORT_STAT.ofs q.val 0 < 0x1000) p)
        ((by decide : ∀ q : Fin 2, R.TIME_PORT_STAT.ofs q.val 0 ∉ silentOffs) p))
      exact hle.trans ((hl2 p).trans hl0)
    · exact (congrArg (bit · 1) hste).trans (hb1.trans (hlost h))
    · rw [if_neg hother]
      exact ⟨(congrArg (bit · 2) hste).trans hb2, (congrArg (bit · 1) (hk4 R.TIME_EVT 0 0 (by decide) (by decide))).trans hev, hset⟩

end

/-- TIME_UTC_OFS holds an offset and its valid bit (R404). -/
theorem fld_utcWord {n : Nat} (h : n < 65536) (v : Bool) : fld (wd (n + v.toNat * 65536)) 15 0 = n := by
  rw [fld_toNat, wd, BitVec.toNat_ofNat]
  omega

theorem bit_utcWord {n : Nat} (h : n < 65536) (v : Bool) : bit (wd (n + v.toNat * 65536)) 16 = v := by
  rw [bit, wd, BitVec.getLsbD_ofNat, Nat.testBit_eq_decide_div_mod_eq]
  cases v with
  | false => simp only [Bool.toNat_false]; simp; omega
  | true => simp only [Bool.toNat_true]; simp; omega

/-- Settles O49: Syncs by `takeSync_taken`, the other messages one by one, a silent port by the change of the active port. -/
theorem networkTimeFollowsItsPorts : Obligations.NetworkTimeFollowsItsPorts := by
  unfold Obligations.NetworkTimeFollowsItsPorts
  refine ⟨⟨fun s p m hlive hon hp hdom => ?_, fun s p m t2 c hlive hon hp hdom hw => ⟨_, exec_followUp s p hlive hon m t2 c hp hdom hw,
    s.dev.takeSync_taken hp _ _⟩, fun s p rx m hlive hon hp hdom => exec_delayReq s p hlive hon rx m hp hdom,
    fun s p m t3 hlive hon hp hdom hdr hact hpair => ?_, fun s p m hlive hon hp hdom => ?_, fun s p hlive hon => ?_, fun s ht => ?_⟩,
    fun s p hlive hon => ⟨fun hp hd => exec_syncTransmit s p hlive hon hp hd, fun hp hd => exec_announceTransmit s p hlive hon hp hd,
      fun hp hd => exec_delayReqTransmit s p hlive hon hp hd⟩,
    fun s p hlive hon hp hl ho => exec_syncTimeout s p hlive hon hp hl ho⟩
  · split
    · exact exec_syncTwoStep s p hlive hon m hp hdom ‹_›
    · have hexec := exec_sync s p hlive hon m hp hdom
      rw [if_neg ‹_›] at hexec
      exact ⟨_, hexec, s.dev.takeSync_taken hp _ _⟩
  · intro x mean path
    refine ⟨_, exec_delayResp s p hlive hon m t3 hp hdom hdr hact hpair, rfl, Dev.get_put_same _ _ _ _ _ _, ?_⟩
    exact (Dev.regsKept_put ((s.dev.portMod p fun y => { y with dreq := none }).timMod fun t => { t with path := path }) timeB R.TIME_PATH
      (satWord path) 0 0 rfl)
  · have hu : m.utcOfs.toNat < 65536 := m.utcOfs.isLt
    refine ⟨_, exec_announce s p hlive hon m hp hdom, rfl, ?_, ?_, ?_, Dev.get_put_same _ _ _ _ _ _, ?_⟩
    · rw [Dev.getF, Dev.get_put_off _ _ _ _ (by decide), Dev.get_put_off _ _ _ _ (by decide), Dev.get_put_same]
      exact fld_utcWord hu _
    · rw [Dev.getB, Dev.get_put_off _ _ _ _ (by decide), Dev.get_put_off _ _ _ _ (by decide), Dev.get_put_same]
      exact bit_utcWord hu _
    · rw [Dev.get_put_off _ _ _ _ (by decide), Dev.get_put_same]
    · exact ((s.dev.regsKept_put _ _ _ 0 0 (.inl rfl)).trans (Dev.regsKept_put _ _ _ _ 0 0 (.inr (.inl rfl)))).trans
        (Dev.regsKept_put _ _ _ _ 0 0 (.inr (.inr rfl)))
  · exact ⟨_, exec_ptpDiscard s p hlive hon, rfl, Dev.getN_bump _ _ _ _ _, s.dev.regsKept_put _ _ _ _ _ rfl⟩
  · have hexec := exec_set s ht
    split
    · rename_i h
      exact ⟨_, hexec, s.dev.setClock_open h⟩
    · rename_i h
      rw [Dev.setClock_closed _ h] at hexec
      exact hexec

end Sys2Proof.Machine
end

section
/-! Time triggers and the balls (R399 to R403). -/

namespace Sys2Proof.Machine

/-- EN of a written CTL word (R399). -/
theorem trigCtl_en (old v : Word) : bit (R.TIME_TRIG_CTL.write old v) 0 = bit v 0 := by
  have h : R.TIME_TRIG_CTL.write old v = limApply old R.TIME_TRIG_CTL.lims (v &&& 0xFF#32) := rfl
  rw [h, limApply_bit old 0 _ _ (by decide), bit, bit, BitVec.getLsbD_and]
  exact Bool.and_true _

/-- The register of a trigger. -/
theorem trigOfs (r : Reg) (hr : r.s0 = 0x20 ∧ r.s1 = 0) (t : Fin 8) : r.ofs t.val 0 = r.off + 0x20 * t.val := by
  rw [Reg.ofs, hr.1, hr.2]
  omega

section
variable (d : Dev) (t : Fin 8)

theorem Dev.trigMod_spec (f : Trig → Trig) : let e := d.trigMod t f
    e = { d with tim := e.tim } ∧ e.tim = { d.tim with trig := e.tim.trig } ∧ e.tim.trig[t] = f d.tim.trig[t] ∧
    ∀ u : Fin 8, u ≠ t → e.tim.trig[u] = d.tim.trig[u] :=
  ⟨rfl, rfl, vmod_same d.tim.trig t f, fun _ hu => vmod_ne d.tim.trig f hu⟩

/-- At most the balls differ. -/
def Dev.marksOnly (d e : Dev) : Prop := e = { d with tim := { d.tim with marks := e.tim.marks } }

/-- Balls that no trigger claims go low (R401). -/
theorem Dev.marksLow_marks : d.marksOnly d.marksLow := by
  have h : ∀ (l : List (Fin 4)) (x : Dev), d.marksOnly x → d.marksOnly (l.foldl (fun (e : Dev) i =>
        if (e.holder timeB i.val).isSome then e else e.markMod i fun x => { x with level := false }) x) := by
    intro l
    induction l with
    | nil => exact fun _ h => h
    | cons i l ih =>
      intro x hx
      refine ih _ ?_
      dsimp only
      split
      · exact hx
      · exact (congrArg (fun y : Dev => y.markMod i fun x => { x with level := false }) hx).trans rfl
  exact h _ d rfl

/-- A block in service is not fenced (R44). -/
theorem Dev.up_fenced {b : Blk} (h : d.up b = true) : d.fenced b = false := by
  have h0 : d.unitStatus b none = 0 := of_decide_eq_true h
  unfold Dev.unitStatus at h0
  cases hf : d.fenced b with
  | false => rfl
  | true =>
    rw [hf] at h0
    split at h0
    · exact absurd h0 (by decide)
    · rw [if_pos rfl] at h0
      exact absurd h0 (by decide)

/-- A ball that a trigger wants is free for it (R401). -/
theorem Dev.ball_granted {ball : Nat} (hup : d.up timeB = true)
    (h : ∀ c, d.holder timeB ball = some c → c.by_ = timeB ∧ c.sub = t.val) : d.claimErr timeB ball timeB t.val = none := by
  have hnot : ¬ ((blkKind timeB).isNone = true ∨ d.fenced timeB = true) := by
    rw [d.up_fenced hup]
    decide
  unfold Dev.claimErr
  rw [if_neg hnot]
  cases hc : d.holder timeB ball with
  | none => rfl
  | some c => exact if_pos (h c hc)

/-- Another feature holds the ball (R401). -/
theorem Dev.ball_refused {ball : Nat} {c : Claim} (hup : d.up timeB = true) (hc : d.holder timeB ball = some c)
    (h : ¬ (c.by_ = timeB ∧ c.sub = t.val)) : d.claimErr timeB ball timeB t.val = some (1, c.by_) := by
  have hnot : ¬ ((blkKind timeB).isNone = true ∨ d.fenced timeB = true) := by
    rw [d.up_fenced hup]
    decide
  unfold Dev.claimErr
  rw [if_neg hnot, hc]
  exact if_neg h

/-- CTL written where the ball, if one is wanted, is granted (R399, R401). -/
theorem Dev.trigCtl_granted (v0 : Word) :
    let w := R.TIME_TRIG_CTL.write (d.get timeB R.TIME_TRIG_CTL t.val) v0
    let wants : Prop := bit w 7 = true ∧ fld w 2 1 = 0
    (bit w 0 = true → wants → d.claimErr timeB (fld w 6 5) timeB t.val = none) →
    let e := d.trigCtl t v0
    e = { d with regs := e.regs, tim := e.tim, claims := e.claims } ∧ e.get timeB R.TIME_TRIG_CTL t.val = w ∧
    (bit w 0 = true → wants → e.holds timeB (fld w 6 5) timeB t.val = true) ∧
    (if bit w 0 = true ∧ d.getB timeB R.TIME_TRIG_CTL 0 t.val = false then
      e.get timeB R.TIME_TRIG_CNT t.val = 0 ∧ e.tim.trig[t] = ⟨d.trigTime t, decide (d.trigTime t ≤ d.tim.ns)⟩ ∧
      (∀ u : Fin 8, u ≠ t → e.tim.trig[u] = d.tim.trig[u]) ∧
      d.regsKept e (fun a => a = radr timeB R.TIME_TRIG_CTL t.val ∨ a = radr timeB R.TIME_TRIG_CNT t.val)
    else e.tim.trig = d.tim.trig ∧ d.regsKept e fun a => a = radr timeB R.TIME_TRIG_CTL t.val) := by
  intro w wants hgr
  have hw : w = R.TIME_TRIG_CTL.write (d.get timeB R.TIME_TRIG_CTL t.val) v0 := rfl
  have h0 : bit w 0 = bit v0 0 := trigCtl_en _ _
  clear_value w
  have hnone : (if bit w 0 && (bit w 7 && decide (fld w 2 1 = 0)) then d.claimErr timeB (fld w 6 5) timeB t.val else none) = none := by
    split
    · rename_i h
      simp only [Bool.and_eq_true, decide_eq_true_eq] at h
      exact hgr h.1 h.2
    · rfl
  obtain ⟨d1, hd1⟩ : ∃ y, y = (d.release timeB timeB t.val (if bit w 7 && decide (fld w 2 1 = 0) then some (fld w 6 5) else none)).marksLow := ⟨_, rfl⟩
  obtain ⟨d2, hd2⟩ : ∃ y, y = if bit w 0 && (bit w 7 && decide (fld w 2 1 = 0)) then d1.claim timeB (fld w 6 5) timeB t.val else d1 := ⟨_, rfl⟩
  obtain ⟨d3, hd3⟩ : ∃ y, y = d2.put timeB R.TIME_TRIG_CTL w t.val := ⟨_, rfl⟩
  have he : d.trigCtl t v0 = if bit w 0 = true ∧ ¬ bit (d.get timeB R.TIME_TRIG_CTL t.val) 0 = true then
      (d3.put timeB R.TIME_TRIG_CNT 0 t.val).trigCur t (d3.trigTime t) else d3 := by
    unfold Dev.trigCtl
    dsimp only
    rw [← hw, hnone]
    dsimp only
    rw [← hd1, ← hd2, ← hd3]
  rw [he]
  clear he hnone
  have h1 : d1.regs = d.regs ∧ d1 = { d with tim := d1.tim, claims := d1.claims } ∧ d1.tim = { d.tim with marks := d1.tim.marks } := by
    have hm := (d.release timeB timeB t.val (if bit w 7 && decide (fld w 2 1 = 0) then some (fld w 6 5) else none)).marksLow_marks
    rw [← hd1] at hm
    refine ⟨by rw [hm]; rfl, ?_, (congrArg Dev.tim hm).trans rfl⟩
    exact (congrArg (fun y : Dev => { y with tim := d1.tim, claims := d1.claims }) hm).trans rfl
  obtain ⟨hr1, hf1, ht1⟩ := h1
  clear hd1
  have h2 : d2.regs = d1.regs ∧ d2.tim = d1.tim ∧ d2 = { d1 with claims := d2.claims } ∧
      (bit w 0 = true → wants → d2.holds timeB (fld w 6 5) timeB t.val = true) := by
    rw [hd2]
    by_cases hwant : (bit w 0 && (bit w 7 && decide (fld w 2 1 = 0))) = true
    · rw [if_pos hwant]
      have hf := d1.claim_frame timeB (fld w 6 5) timeB t.val
      exact ⟨(congrArg Dev.regs hf).trans rfl, (congrArg Dev.tim hf).trans rfl, hf, fun _ _ => d1.claim_holds _ _ _ _⟩
    · rw [if_neg hwant]
      refine ⟨rfl, rfl, rfl, fun hb hwa => absurd ?_ hwant⟩
      rw [hb, hwa.1, hwa.2]
      rfl
  obtain ⟨hr2, ht2, hf2, hh2⟩ := h2
  clear hd2
  have h3 : d3.tim = d2.tim ∧ d2.changes [.regs] d3 ∧ d3.holds timeB (fld w 6 5) timeB t.val = d2.holds timeB (fld w 6 5) timeB t.val ∧
      d3.get timeB R.TIME_TRIG_CTL t.val = w ∧ d2.regsKept d3 (fun a => a = radr timeB R.TIME_TRIG_CTL t.val) := by
    rw [hd3]
    exact ⟨rfl, rfl, rfl, Dev.get_put_same _ _ _ _ _ _, d2.regsKept_put _ _ _ _ _ rfl⟩
  obtain ⟨ht3, hc3, hh3, hg3, hk3⟩ := h3
  clear hd3
  have hf3 : d3 = { d with regs := d3.regs, tim := d3.tim, claims := d3.claims } := by
    have h := congrArg (fun y : Dev => { y with regs := d3.regs, tim := d3.tim, claims := d3.claims }) hc3
    have h' := congrArg (fun y : Dev => { y with regs := d3.regs, tim := d3.tim, claims := d3.claims }) hf2
    have h'' := congrArg (fun y : Dev => { y with regs := d3.regs, tim := d3.tim, claims := d3.claims }) hf1
    exact (show d3 = { d2 with regs := d3.regs, tim := d3.tim, claims := d3.claims } from h).trans (h'.trans h'')
  have hkd : d.regsKept d3 fun a => a = radr timeB R.TIME_TRIG_CTL t.val := fun a ha => (hk3 a ha).trans (by rw [hr2, hr1])
  have htr : d3.tim.trig = d.tim.trig := by rw [ht3, ht2, ht1]
  have hns : d3.tim.ns = d.tim.ns := by
    rw [ht3, ht2, ht1]
    rfl
  have hholds : bit w 0 = true → wants → d3.holds timeB (fld w 6 5) timeB t.val = true := fun h h' => hh3.trans (hh2 h h')
  clear hc3 hf2 hf1 hh2 hh3 hk3 ht3 ht2 ht1 hr1 hr2
  by_cases hnew : bit w 0 = true ∧ ¬ bit (d.get timeB R.TIME_TRIG_CTL t.val) 0 = true
  · have htime : d3.trigTime t = d.trigTime t := by
      have hg : ∀ r : Reg, r.s0 = 0x20 ∧ r.s1 = 0 → 0x200 < r.off → r.off < 0x220 → d3.getN timeB r t.val = d.getN timeB r t.val := fun r hr h1 h2 =>
        congrArg BitVec.toNat (hkd.get timeB r t.val 0 (radr_ne_of_ofs _ _ _ _ _ _ _ (by
          rw [trigOfs r hr, trigOfs _ ⟨rfl, rfl⟩]
          change r.off + 0x20 * t.val ≠ 0x200 + 0x20 * t.val
          omega)))
      rw [Dev.trigTime, hg R.TIME_TRIG_SEC_LO ⟨rfl, rfl⟩ (by decide) (by decide), hg R.TIME_TRIG_SEC_HI ⟨rfl, rfl⟩ (by decide) (by decide),
        hg R.TIME_TRIG_NS ⟨rfl, rfl⟩ (by decide) (by decide)]
      rfl
    rw [if_pos hnew, htime]
    obtain ⟨d4, hd4⟩ : ∃ y, y = d3.put timeB R.TIME_TRIG_CNT 0 t.val := ⟨_, rfl⟩
    have h4 : d4 = { d3 with regs := d4.regs } ∧ d4.get timeB R.TIME_TRIG_CNT t.val = 0 ∧
        d3.regsKept d4 (fun a => a = radr timeB R.TIME_TRIG_CNT t.val) := by
      rw [hd4]
      exact ⟨rfl, Dev.get_put_same _ _ _ _ _ _, d3.regsKept_put _ _ _ _ _ rfl⟩
    obtain ⟨hf4, hcnt, hk4⟩ := h4
    rw [← hd4]
    clear hd4
    have hctl : d4.get timeB R.TIME_TRIG_CTL t.val = w := (hk4.get timeB R.TIME_TRIG_CTL t.val 0 (radr_ne_of_ofs _ _ _ _ _ _ _
      ((by decide : ∀ t : Fin 8, R.TIME_TRIG_CTL.ofs t.val 0 ≠ R.TIME_TRIG_CNT.ofs t.val 0) t))).trans hg3
    have ht4 : d4.tim = d3.tim := by rw [hf4]
    have hcl4 : d4.claims = d3.claims := by rw [hf4]
    obtain ⟨h5, -, h7, h8⟩ := d4.trigMod_spec t fun _ => ⟨d.trigTime t, decide (d.trigTime t ≤ d4.tim.ns)⟩
    change (d4.trigCur t (d.trigTime t)) = _ at h5
    change (d4.trigCur t (d.trigTime t)).tim.trig[t] = _ at h7
    change ∀ u : Fin 8, u ≠ t → (d4.trigCur t (d.trigTime t)).tim.trig[u] = d4.tim.trig[u] at h8
    generalize d4.trigCur t (d.trigTime t) = e at h5 h7 h8 ⊢
    have hr5 : e.regs = d4.regs := by rw [h5]
    have hcl5 : e.claims = d3.claims := by rw [h5]; exact hcl4
    dsimp only
    rw [if_pos ⟨hnew.1, (Bool.not_eq_true _).mp hnew.2⟩]
    refine ⟨?_, (Dev.get_of_regs _ _ _ _ (by rw [hr5])).trans hctl, fun h h' => ?_, (Dev.get_of_regs _ _ _ _ (by rw [hr5])).trans hcnt, ?_, fun u hu => ?_, ?_⟩
    · have ha := congrArg (fun y : Dev => { y with regs := e.regs, tim := e.tim, claims := e.claims }) h5
      have hb := congrArg (fun y : Dev => { y with regs := e.regs, tim := e.tim, claims := e.claims }) hf4
      have hc := congrArg (fun y : Dev => { y with regs := e.regs, tim := e.tim, claims := e.claims }) hf3
      exact (show e = { d4 with regs := e.regs, tim := e.tim, claims := e.claims } from ha).trans (hb.trans hc)
    · unfold Dev.holds
      rw [hcl5]
      exact hholds h h'
    · rw [h7, ht4, hns]
    · rw [h8 u hu, ht4, htr]
    · refine Dev.regsKept.trans (e := d3) (hkd.mono fun a ha => .inl ha) fun a ha => ?_
      rw [hr5]
      exact hk4 a fun h => ha (.inr h)
  · rw [if_neg hnew]
    dsimp only
    rw [if_neg fun h => hnew ⟨h.1, by rw [Bool.not_eq_true]; exact h.2⟩]
    exact ⟨hf3, hg3, hholds, htr, hkd⟩

/-- CTL written where another feature holds the ball (R401). -/
theorem Dev.trigCtl_refused (v0 : Word) {c : Claim} :
    let w := R.TIME_TRIG_CTL.write (d.get timeB R.TIME_TRIG_CTL t.val) v0
    bit w 0 = true → bit w 7 = true → fld w 2 1 = 0 → d.claimErr timeB (fld w 6 5) timeB t.val = some (1, c.by_) →
    let e := d.trigCtl t v0
    e = { d with regs := e.regs } ∧ e.getB timeB R.TIME_TRIG_CTL 0 t.val = false ∧
    e.get timeB R.TIME_CLAIM_ERR = claimWord 1 c.by_ (fld w 6 5) ∧
    d.regsKept e fun a => a = radr timeB R.TIME_TRIG_CTL t.val ∨ a = radr timeB R.TIME_CLAIM_ERR := by
  intro w h0 h7 hkind herr
  have hw : w = R.TIME_TRIG_CTL.write (d.get timeB R.TIME_TRIG_CTL t.val) v0 := rfl
  clear_value w
  obtain ⟨x, hx⟩ : ∃ x, x = (w &&& ~~~(fldMask 7 5)) ||| (d.get timeB R.TIME_TRIG_CTL t.val &&& fldMask 7 5) := ⟨_, rfl⟩
  have he : d.trigCtl t v0 = (d.put timeB R.TIME_TRIG_CTL (setBit x 0 false) t.val).put timeB R.TIME_CLAIM_ERR (claimWord 1 c.by_ (fld w 6 5)) := by
    unfold Dev.trigCtl
    dsimp only
    rw [← hw, h0, h7, hkind, herr, hx]
    rfl
  rw [he]
  refine ⟨rfl, ?_, Dev.get_put_same _ _ _ _ _ _, (d.regsKept_put _ _ _ _ _ (.inl rfl)).trans (Dev.regsKept_put _ _ _ _ _ _ (.inr rfl))⟩
  rw [Dev.getB, Dev.get_put_ne _ _ _ _ _ _ _ _ _ _ (radr_ne_of_ofs _ _ _ _ _ _ _
    ((by decide : ∀ t : Fin 8, R.TIME_TRIG_CTL.ofs t.val 0 ≠ R.TIME_CLAIM_ERR.ofs 0 0) t)), Dev.get_put_same]
  exact bit_setBit_same _ _ _ (by decide)

end

end Sys2Proof.Machine
end

section
/-! Time triggers fire (R399, R400, R402, R403). -/

namespace Sys2Proof.Machine

section
variable (d : Dev) (t : Fin 8)

/-- The registers that the count and the report of a firing change. -/
abbrev countRegs (t : Fin 8) (a : Nat) : Prop :=
  a = radr timeB R.TIME_TRIG_CNT t.val ∨ a = radr timeB R.TIME_EVT ∨ a = radr hif R.HIF_EVT_PEND (58 / 32)

/-- What a firing counts in another field of its word. -/
theorem Dev.trigEvent_spec (i : Nat) : d.changes [.regs, .vecs] (d.timeEvent i) ∧ d.regsKept (d.timeEvent i) (countRegs t) :=
  ⟨d.event_changes _ _ _ _ _ _, (Dev.event_kept _ _ _ _ _ _ _).mono fun _ h => h.elim (fun h => .inr (.inl h)) fun h => .inr (.inr h)⟩

/-- A firing is counted and reported (R400). -/
theorem Dev.trigCount_spec : let e := d.trigCount t
    d.changes [.regs, .vecs] e ∧ d.regsKept e (countRegs t) ∧
    e.getF timeB R.TIME_TRIG_CNT 15 0 t.val = min 65535 (d.getF timeB R.TIME_TRIG_CNT 15 0 t.val + 1) := by
  unfold Dev.trigCount
  extract_lets late evt d1 d2 d3 e
  have h1 : d.changes [.regs, .vecs] d1 ∧ d.regsKept d1 (countRegs t) ∧
      d1.getF timeB R.TIME_TRIG_CNT 15 0 t.val = min 65535 (d.getF timeB R.TIME_TRIG_CNT 15 0 t.val + 1) := by
    refine ⟨(d.put_changes _ _ _ _ _).mono (by decide), d.regsKept_put _ _ _ _ _ (.inl rfl), ?_⟩
    refine (Dev.getF_putF_same _ _ _ _ _ _ (by decide) (by decide)).trans (Nat.mod_eq_of_lt ?_)
    exact Nat.lt_of_le_of_lt (Nat.min_le_left _ _) (by decide)
  obtain ⟨hc1, hk1, hn1⟩ := h1
  clear_value d1
  have h2 : d1.changes [.regs, .vecs] d2 ∧ d1.regsKept d2 (countRegs t) ∧
      d2.getF timeB R.TIME_TRIG_CNT 15 0 t.val = d1.getF timeB R.TIME_TRIG_CNT 15 0 t.val := by
    simp only [d2]
    split
    · exact ⟨(d1.put_changes _ _ _ _ _).mono (by decide), d1.regsKept_put _ _ _ _ _ (.inl rfl),
        Dev.getF_putF_other _ _ _ _ _ _ (by decide) (by decide)⟩
    · exact ⟨.refl _ _, d1.regsKept_refl _, rfl⟩
  obtain ⟨hc2, hk2, hn2⟩ := h2
  clear_value d2
  have hev : ∀ (x : Dev) i, (x.timeEvent i).getF timeB R.TIME_TRIG_CNT 15 0 t.val = x.getF timeB R.TIME_TRIG_CNT 15 0 t.val := fun x i =>
    congrArg (fun w => fld w 15 0) (x.event_get_ne timeB_ne_hif ((by decide : ∀ t : Fin 8, R.TIME_TRIG_CNT.ofs t.val 0 < 0x1000) t) _ _ (by decide)
      (radr_ne_of_ofs _ _ _ _ _ _ _ ((by decide : ∀ t : Fin 8, R.TIME_TRIG_CNT.ofs t.val 0 ≠ R.TIME_EVT.ofs 0 0) t)))
  have h3 : d2.changes [.regs, .vecs] d3 ∧ d2.regsKept d3 (countRegs t) ∧
      d3.getF timeB R.TIME_TRIG_CNT 15 0 t.val = d2.getF timeB R.TIME_TRIG_CNT 15 0 t.val := by
    simp only [d3]
    split
    · exact ⟨(d2.trigEvent_spec t 4).1, (d2.trigEvent_spec t 4).2, hev _ _⟩
    · exact ⟨.refl _ _, d2.regsKept_refl _, rfl⟩
  obtain ⟨hc3, hk3, hn3⟩ := h3
  clear_value d3
  have hn := hn3.trans (hn2.trans hn1)
  unfold e
  split
  · obtain ⟨hc4, hk4⟩ := d3.trigEvent_spec t 5
    exact ⟨((hc1.trans hc2).trans hc3).trans hc4, ((hk1.trans hk2).trans hk3).trans hk4, (hev _ _).trans hn⟩
  · exact ⟨(hc1.trans hc2).trans hc3, (hk1.trans hk2).trans hk3, hn⟩

/-- Another register of TIME. -/
theorem countRegs_kept {d e : Dev} (h : d.regsKept e (countRegs t)) (r : Reg) (i j : Nat) (ho : r.ofs i j < 0x1000)
    (hc : r.ofs i j ≠ R.TIME_TRIG_CNT.ofs t.val 0) (he : r.ofs i j ≠ R.TIME_EVT.ofs 0 0) : e.get timeB r i j = d.get timeB r i j := by
  refine h.get timeB r i j ?_
  rintro (h | h | h)
  · exact radr_ne_of_ofs _ _ _ _ _ _ _ hc h
  · exact radr_ne_of_ofs _ _ _ _ _ _ _ he h
  · exact radr_ne_of_blk _ _ _ _ _ _ _ _ timeB_ne_hif ho (by decide) h

/-- A register of a trigger. -/
theorem countRegs_trig {d e : Dev} (h : d.regsKept e (countRegs t)) (r : Reg) (hr : r.s0 = 0x20 ∧ r.s1 = 0) (h1 : 0x200 ≤ r.off) (h2 : r.off < 0x220) :
    e.get timeB r t.val = d.get timeB r t.val := by
  have hcnt : R.TIME_TRIG_CNT.ofs t.val 0 = 0x300 + 4 * t.val := by
    change 0x300 + 4 * t.val + 0 * 0 = _
    omega
  have hev : R.TIME_EVT.ofs 0 0 = 0x1A4 := rfl
  exact countRegs_kept t h r t.val 0 (by rw [trigOfs r hr]; omega) (by rw [trigOfs r hr, hcnt]; omega) (by rw [trigOfs r hr, hev]; omega)

/-- After a firing (R399). -/
theorem Dev.trigNext_spec : let e := d.trigNext t
    e = { d with regs := e.regs, tim := { d.tim with trig := e.tim.trig } } ∧ d.regsKept e (fun a => a = radr timeB R.TIME_TRIG_CTL t.val) ∧
    if d.getB timeB R.TIME_TRIG_CTL 3 t.val then e.tim.trig[t].next = d.tim.trig[t].next + d.getN timeB R.TIME_TRIG_PERIOD t.val
    else e.getB timeB R.TIME_TRIG_CTL 0 t.val = false := by
  unfold Dev.trigNext
  by_cases h : d.getB timeB R.TIME_TRIG_CTL 3 t.val = true
  · rw [if_pos h]
    dsimp only
    rw [if_pos h]
    refine ⟨rfl, d.regsKept_refl _, ?_⟩
    exact congrArg Trig.next (vmod_same d.tim.trig t _)
  · rw [if_neg h]
    dsimp only
    rw [if_neg h]
    exact ⟨rfl, d.regsKept_put _ _ _ _ _ rfl, Dev.getB_putB_same _ _ _ _ _ _ (by decide)⟩

/-- A start at an idle block shows the operation as queued, whatever runs in its region (R47, R50). -/
theorem Dev.opStart_queued {b : Blk} {k : BT} {n code : Nat} (tag param : Nat) (hb : blkKind b = some (k, n)) (hcode : code ∈ opCodes k)
    (hidle : d.opState b = 0) : (d.opStart b code tag param).get b R.OP_STAT = opWord 1 0 0 tag ∧
    (d.opStart b code tag param).ops = d.ops ++ [⟨b, code, param, none, none, none⟩] := by
  unfold Dev.opStart
  rw [if_neg (not_not.mpr hidle), hb]
  dsimp -zeta only
  extract_lets ok d1 d2
  have hops : d1.ops = d.ops := (d.abandonSlice_changes b true).get Dev.ops
  have hst : d1.get b R.OP_STAT = opWord 1 0 0 tag := by
    have hok : ok = true := decide_eq_true hcode
    simp only [d1, hok, if_true]
    exact Dev.get_put_same _ _ _ _ _ _
  clear_value d1
  obtain ⟨h1, -, h3⟩ := d1.clearParts_spec b (List.range 6)
  rw [show d1.clearParts b (List.range 6) = d2 from rfl] at h1 h3
  clear_value d2
  have hops2 : d2.ops = d1.ops := by rw [h1]
  have hst2 : d2.get b R.OP_STAT = d1.get b R.OP_STAT := h3.get b R.OP_STAT 0 0 fun ⟨i, _, h⟩ => opPart_ne_opStat b i h.symm
  refine ⟨(Dev.get_withOps d2 _ _ _ _ _).trans (hst2.trans hst), ?_⟩
  rw [hops2, hops]

end

section
variable (s : State) (t : Fin 8) (hlive : s.dev.dead = false) (hup : s.dev.up timeB = true)
  (hen : s.dev.getB timeB R.TIME_TRIG_CTL 0 t.val = true) (hdue : s.dev.tim.trig[t].next ≤ s.dev.tim.ns)
include hlive hup hen hdue

omit hlive hup hen hdue in
theorem exec_triggerFire (hlive : s.dev.dead = false) :
    exec (.triggerFire t) s = .next { s with mem := (trigFire s.mem s.dev t).1, dev := (trigFire s.mem s.dev t).2 } := by
  change execTriggerFire t s = _
  unfold execTriggerFire
  rw [onLiveMem_next _ _ hlive]

omit hlive in
/-- A trigger that is due fires, unless a skein suppresses it. -/
theorem trigFire_due (hno : ¬ (s.dev.getF timeB R.TIME_TRIG_CTL 2 1 t.val = 2 ∧ (s.dev.staged.isSome ∨ s.dev.running.isSome))) :
    trigFire s.mem s.dev t = ((trigAct s.mem (s.dev.trigCount t) t).1, (trigAct s.mem (s.dev.trigCount t) t).2.trigNext t) := by
  have hnot : ¬ (¬ s.dev.up timeB = true ∨ ¬ s.dev.getB timeB R.TIME_TRIG_CTL 0 t.val = true ∨ s.dev.tim.ns < s.dev.tim.trig[t].next) := by
    rintro (h | h | h)
    · exact h hup
    · exact h hen
    · omega
  unfold trigFire
  rw [if_neg hnot, if_neg hno]

/-- A ball goes high for WIDTH (R400). -/
theorem exec_triggerBall (hkind : s.dev.getF timeB R.TIME_TRIG_CTL 2 1 t.val = 0) :
    let i := Fin.ofNat 4 (s.dev.getF timeB R.TIME_TRIG_CTL 6 5 t.val)
    ∃ d', exec (.triggerFire t) s = .next { s with dev := d' } ∧
    d' = { s.dev with regs := d'.regs, vecs := d'.vecs, tim := d'.tim } ∧
    d'.getF timeB R.TIME_TRIG_CNT 15 0 t.val = min 65535 (s.dev.getF timeB R.TIME_TRIG_CNT 15 0 t.val + 1) ∧
    (s.dev.holds timeB i.val timeB t.val = true →
      d'.tim.marks[i] = ⟨true, s.dev.now, s.dev.getN timeB R.TIME_TRIG_WIDTH t.val⟩) ∧
    if s.dev.getB timeB R.TIME_TRIG_CTL 3 t.val then
      d'.tim.trig[t].next = s.dev.tim.trig[t].next + s.dev.getN timeB R.TIME_TRIG_PERIOD t.val
    else d'.getB timeB R.TIME_TRIG_CTL 0 t.val = false := by
  intro i
  have hfire := trigFire_due s t hup hen hdue (by rw [hkind]; exact fun h => absurd h.1 (by decide))
  have hexec := exec_triggerFire s t hlive
  rw [hfire] at hexec
  clear hfire
  obtain ⟨hc1, hk1, hn1⟩ := s.dev.trigCount_spec t
  generalize s.dev.trigCount t = d1 at hexec hc1 hk1 hn1
  have hg1 : ∀ r : Reg, r.s0 = 0x20 ∧ r.s1 = 0 → 0x200 ≤ r.off → r.off < 0x220 → d1.get timeB r t.val = s.dev.get timeB r t.val := fun r hr h1 h2 =>
    countRegs_trig t hk1 r hr h1 h2
  have hctl : d1.get timeB R.TIME_TRIG_CTL t.val = s.dev.get timeB R.TIME_TRIG_CTL t.val := hg1 _ ⟨rfl, rfl⟩ (by decide) (by decide)
  have hact : trigAct s.mem d1 t = (s.mem, if d1.holds timeB i.val timeB t.val then
      d1.markMod i fun _ => ⟨true, d1.now, d1.getN timeB R.TIME_TRIG_WIDTH t.val⟩ else d1) := by
    have hk : d1.getF timeB R.TIME_TRIG_CTL 2 1 t.val = 0 := (congrArg (fun w => fld w 2 1) hctl).trans hkind
    have hi : d1.getF timeB R.TIME_TRIG_CTL 6 5 t.val = s.dev.getF timeB R.TIME_TRIG_CTL 6 5 t.val := congrArg (fun w => fld w 6 5) hctl
    unfold trigAct
    rw [hk]
    dsimp only
    rw [hi]
    rfl
  have hcl : d1.claims = s.dev.claims := hc1.get Dev.claims
  have hnow : d1.now = s.dev.now := hc1.get Dev.now
  have ht1 : d1.tim = s.dev.tim := hc1.get Dev.tim
  have hhold : d1.holds timeB i.val timeB t.val = s.dev.holds timeB i.val timeB t.val := by
    unfold Dev.holds
    rw [hcl]
  have hwidth : d1.getN timeB R.TIME_TRIG_WIDTH t.val = s.dev.getN timeB R.TIME_TRIG_WIDTH t.val :=
    congrArg BitVec.toNat (hg1 _ ⟨rfl, rfl⟩ (by decide) (by decide))
  rw [hact, hhold, hwidth, hnow] at hexec
  clear hact
  obtain ⟨d2, hd2⟩ : ∃ y, y = if s.dev.holds timeB i.val timeB t.val then
      d1.markMod i fun _ => ⟨true, s.dev.now, s.dev.getN timeB R.TIME_TRIG_WIDTH t.val⟩ else d1 := ⟨_, rfl⟩
  have h2 : d1.marksOnly d2 ∧ (s.dev.holds timeB i.val timeB t.val = true →
      d2.tim.marks[i] = ⟨true, s.dev.now, s.dev.getN timeB R.TIME_TRIG_WIDTH t.val⟩) := by
    rw [hd2]
    split
    · exact ⟨rfl, fun _ => vmod_same d1.tim.marks i _⟩
    · rename_i h
      exact ⟨rfl, fun h' => absurd h' h⟩
  obtain ⟨hm2, hmark⟩ := h2
  dsimp only at hexec
  rw [← hd2] at hexec
  clear hd2
  have hr2 : d2.regs = d1.regs := (congrArg Dev.regs hm2).trans rfl
  have htr2 : d2.tim.trig = s.dev.tim.trig := ((congrArg (fun y : Dev => y.tim.trig) hm2).trans rfl).trans (by rw [ht1])
  obtain ⟨hf3, hk3, hnext⟩ := d2.trigNext_spec t
  generalize d2.trigNext t = e at hexec hf3 hk3 hnext
  have hg2 : ∀ r : Reg, r.s0 = 0x20 ∧ r.s1 = 0 → 0x200 ≤ r.off → r.off < 0x220 → d2.get timeB r t.val = s.dev.get timeB r t.val := fun r hr h1 h2 =>
    (Dev.get_of_regs _ _ _ _ (by rw [hr2])).trans (hg1 r hr h1 h2)
  refine ⟨e, hexec, ?_, ?_, fun h => ?_, ?_⟩
  · have ha := congrArg (fun y : Dev => { y with regs := e.regs, vecs := e.vecs, tim := e.tim }) hf3
    have hb := congrArg (fun y : Dev => { y with regs := e.regs, vecs := e.vecs, tim := e.tim }) hm2
    have hc : ({ d1 with regs := e.regs, vecs := e.vecs, tim := e.tim } : Dev) = { s.dev with regs := e.regs, vecs := e.vecs, tim := e.tim } :=
      congrArg (fun y : Dev => { y with regs := e.regs, vecs := e.vecs, tim := e.tim }) hc1
    exact (show e = { d2 with regs := e.regs, vecs := e.vecs, tim := e.tim } from ha).trans (hb.trans hc)
  · have hcnt : e.get timeB R.TIME_TRIG_CNT t.val = d2.get timeB R.TIME_TRIG_CNT t.val := hk3.get _ _ _ _ (radr_ne_of_ofs _ _ _ _ _ _ _
      ((by decide : ∀ t : Fin 8, R.TIME_TRIG_CNT.ofs t.val 0 ≠ R.TIME_TRIG_CTL.ofs t.val 0) t))
    exact (congrArg (fun w => fld w 15 0) (hcnt.trans (Dev.get_of_regs _ _ _ _ (by rw [hr2])))).trans hn1
  · rw [← hmark h]
    exact (congrArg (fun y : Dev => y.tim.marks[i]) hf3).trans rfl
  · have h3 : d2.getB timeB R.TIME_TRIG_CTL 3 t.val = s.dev.getB timeB R.TIME_TRIG_CTL 3 t.val :=
      congrArg (bit · 3) (hg2 _ ⟨rfl, rfl⟩ (by decide) (by decide))
    have hper : d2.getN timeB R.TIME_TRIG_PERIOD t.val = s.dev.getN timeB R.TIME_TRIG_PERIOD t.val :=
      congrArg BitVec.toNat (hg2 _ ⟨rfl, rfl⟩ (by decide) (by decide))
    rw [h3, hper, htr2] at hnext
    exact hnext

/-- An operation starts, unless a skein is staged or running (R400, R402). -/
theorem exec_triggerStart (bt : BT) (n : Nat) (hkind : s.dev.getF timeB R.TIME_TRIG_CTL 2 1 t.val = 2) :
    let w := s.dev.get timeB R.TIME_TRIG_TARGET t.val
    let b : Blk := ⟨Fin.ofNat 16 (fld w 3 0), Fin.ofNat 64 (fld w 9 4)⟩
    let cmd := s.dev.get timeB R.TIME_TRIG_OPCMD t.val
    blkKind b = some (bt, n) → fld cmd 31 28 = 1 → fld cmd 15 8 ∈ opCodes bt → s.dev.opState b = 0 →
    ¬ (s.dev.staged.isSome ∨ s.dev.running.isSome) → ∃ d', exec (.triggerFire t) s = .next { s with dev := d' } ∧
      d'.get b R.OP_STAT = opWord 1 0 0 (fld cmd 7 0) ∧
      d'.ops = s.dev.ops ++ [⟨b, fld cmd 15 8, fld cmd 27 16, none, none, none⟩] := by
  intro w b cmd hb hstart hcode hidle hno
  have hfire := trigFire_due s t hup hen hdue (fun h => hno h.2)
  have hexec := exec_triggerFire s t hlive
  rw [hfire] at hexec
  clear hfire
  obtain ⟨hc1, hk1, -⟩ := s.dev.trigCount_spec t
  generalize s.dev.trigCount t = d1 at hexec hc1 hk1
  have hg1 : ∀ r : Reg, r.s0 = 0x20 ∧ r.s1 = 0 → 0x200 ≤ r.off → r.off < 0x220 → d1.get timeB r t.val = s.dev.get timeB r t.val := fun r hr h1 h2 =>
    countRegs_trig t hk1 r hr h1 h2
  have hstat : d1.get b R.OP_STAT = s.dev.get b R.OP_STAT := by
    refine hk1.get b R.OP_STAT 0 0 ?_
    rintro (h | h | h)
    · exact radr_ne_of_page timeB b R.TIME_TRIG_CNT R.OP_STAT t.val 0 0 0
        ((by decide : ∀ t : Fin 8, R.OP_STAT.ofs 0 0 % 0x1000 ≠ R.TIME_TRIG_CNT.ofs t.val 0 % 0x1000) t) h
    · exact radr_ne_of_page timeB b R.TIME_EVT R.OP_STAT 0 0 0 0 (by decide) h
    · exact radr_ne_of_page hif b R.HIF_EVT_PEND R.OP_STAT (58 / 32) 0 0 0 (by decide) h
  have hidle1 : d1.opState b = 0 := (congrArg (fun w => fld w 31 28) hstat).trans hidle
  have hact : trigAct s.mem d1 t = (s.mem, d1.opStart b (fld cmd 15 8) (fld cmd 7 0) (fld cmd 27 16)) := by
    have hk : d1.getF timeB R.TIME_TRIG_CTL 2 1 t.val = 2 := (congrArg (fun w => fld w 2 1) (hg1 _ ⟨rfl, rfl⟩ (by decide) (by decide))).trans hkind
    have hw : d1.get timeB R.TIME_TRIG_TARGET t.val = w := hg1 _ ⟨rfl, rfl⟩ (by decide) (by decide)
    have hcmd : d1.get timeB R.TIME_TRIG_OPCMD t.val = cmd := hg1 _ ⟨rfl, rfl⟩ (by decide) (by decide)
    have hwrite : opCmdWrite s.mem d1 b cmd = (s.mem, d1.opStart b (fld cmd 15 8) (fld cmd 7 0) (fld cmd 27 16)) := by
      unfold opCmdWrite
      rw [hstart]
      rfl
    unfold trigAct
    rw [hk]
    dsimp only
    rw [hw, hcmd]
    change (let x := opCmdWrite s.mem d1 b cmd
      (x.1, if (decide (fld cmd 31 28 = 1) && decide (d1.opState b ≠ 0)) = true then
        (x.2.bumpF timeB R.TIME_TRIG_CNT 31 24 1 t.val).raise timeB none 2 else x.2)) = _
    rw [hwrite, hidle1]
    dsimp only
    rw [if_neg (by simp)]
  rw [hact] at hexec
  obtain ⟨hop2, hops2⟩ := d1.opStart_queued (fld cmd 7 0) (fld cmd 27 16) hb hcode hidle1
  generalize d1.opStart b (fld cmd 15 8) (fld cmd 7 0) (fld cmd 27 16) = d2 at hexec hop2 hops2
  clear hact
  obtain ⟨hf3, hk3, -⟩ := d2.trigNext_spec t
  generalize d2.trigNext t = e at hexec hf3 hk3
  refine ⟨e, hexec, ?_, ?_⟩
  · refine (hk3.get b R.OP_STAT 0 0 ?_).trans hop2
    exact radr_ne_of_page timeB b R.TIME_TRIG_CTL R.OP_STAT t.val 0 0 0
      ((by decide : ∀ t : Fin 8, R.OP_STAT.ofs 0 0 % 0x1000 ≠ R.TIME_TRIG_CTL.ofs t.val 0 % 0x1000) t)
  · have hops1 : d1.ops = s.dev.ops := hc1.get Dev.ops
    rw [show e.ops = d2.ops from (congrArg Dev.ops hf3).trans rfl, hops2, hops1]

/-- While a skein is staged or running the firing is suppressed (R402). -/
theorem exec_triggerSuppressed (hkind : s.dev.getF timeB R.TIME_TRIG_CTL 2 1 t.val = 2) (hsk : s.dev.staged.isSome ∨ s.dev.running.isSome) : ∃ d',
    exec (.triggerFire t) s = .next { s with dev := d' } ∧ d' = { s.dev with regs := d'.regs, tim := d'.tim } ∧
    d'.getF timeB R.TIME_TRIG_CNT 31 24 t.val = min 255 (s.dev.getF timeB R.TIME_TRIG_CNT 31 24 t.val + 1) := by
  have hnot : ¬ (¬ s.dev.up timeB = true ∨ ¬ s.dev.getB timeB R.TIME_TRIG_CTL 0 t.val = true ∨ s.dev.tim.ns < s.dev.tim.trig[t].next) := by
    rintro (h | h | h)
    · exact h hup
    · exact h hen
    · omega
  obtain ⟨d1, hd1⟩ : ∃ y, y = s.dev.bumpF timeB R.TIME_TRIG_CNT 31 24 1 t.val := ⟨_, rfl⟩
  have hexec := exec_triggerFire s t hlive
  have hfire : trigFire s.mem s.dev t = (s.mem, d1.trigNext t) := by
    unfold trigFire
    rw [if_neg hnot, if_pos ⟨hkind, hsk⟩, hd1]
  rw [hfire] at hexec
  have h1 : d1 = { s.dev with regs := d1.regs } ∧
      d1.getF timeB R.TIME_TRIG_CNT 31 24 t.val = min 255 (s.dev.getF timeB R.TIME_TRIG_CNT 31 24 t.val + 1) := by
    rw [hd1]
    refine ⟨rfl, ?_⟩
    refine (Dev.getF_putF_same _ _ _ _ _ _ (by decide) (by decide)).trans (Nat.mod_eq_of_lt ?_)
    exact Nat.lt_of_le_of_lt (Nat.min_le_left _ _) (by decide)
  obtain ⟨hf1, hn1⟩ := h1
  clear hfire hd1
  obtain ⟨hf3, hk3, -⟩ := d1.trigNext_spec t
  generalize d1.trigNext t = e at hexec hf3 hk3
  refine ⟨e, hexec, ?_, ?_⟩
  · have ha := congrArg (fun y : Dev => { y with regs := e.regs, tim := e.tim }) hf3
    have hb := congrArg (fun y : Dev => { y with regs := e.regs, tim := e.tim }) hf1
    exact (show e = { d1 with regs := e.regs, tim := e.tim } from ha).trans hb
  · refine (congrArg (fun w => fld w 31 24) (hk3.get _ _ _ _ (radr_ne_of_ofs _ _ _ _ _ _ _ ?_))).trans hn1
    exact (by decide : ∀ t : Fin 8, R.TIME_TRIG_CNT.ofs t.val 0 ≠ R.TIME_TRIG_CTL.ofs t.val 0) t

end

section
variable (s : State) (t : Fin 8) (v : Word) (ht : s.dev.takes timeB (0x200 + 0x20 * t.val))
include ht

/-- A write of CTL that no firing precedes (R399). -/
theorem exec_triggerArm (hno : bit v 0 = true ∨ Instr.triggerFire t ∉ s.pending) :
    exec (.triggerArm t v) s = .next { s with dev := s.dev.trigCtl t v } := by
  have hfirst : fireFirst s.mem s.dev t v s.pending = (s.mem, s.dev) := by
    refine if_neg fun h => ?_
    rcases hno with h' | h'
    · exact h.1 h'
    · exact h' h.2
  change execTriggerArm t v s = _
  unfold execTriggerArm
  rw [onLiveMem_next _ _ (Dev.takes_live _ _ _ ht), hfirst]
  dsimp only
  rw [Dev.hostWrite_takes _ _ _ _ ht]

/-- A firing of the cycle takes effect before the write (R403). -/
theorem exec_triggerArm_fired (hv : bit v 0 = false) (hp : Instr.triggerFire t ∈ s.pending) : exec (.triggerArm t v) s = .next { s with
    mem := (trigFire s.mem s.dev t).1
    dev := (trigFire s.mem s.dev t).2.hostWrite timeB (0x200 + 0x20 * t.val) fun e => e.trigCtl t v } := by
  have hfirst : fireFirst s.mem s.dev t v s.pending = trigFire s.mem s.dev t := if_pos ⟨by rw [hv]; exact Bool.false_ne_true, hp⟩
  change execTriggerArm t v s = _
  unfold execTriggerArm
  rw [onLiveMem_next _ _ (Dev.takes_live _ _ _ ht), hfirst]

omit ht in
theorem exec_tmarkPulseEnd (i : Fin 4) (hlive : s.dev.dead = false) (hl : s.dev.tim.marks[i].level = true)
    (hp : s.dev.pastNs s.dev.tim.marks[i].since s.dev.tim.marks[i].width = true) :
    exec (.tmarkPulseEnd i) s = .next { s with dev := s.dev.markMod i fun y => { y with level := false } } := by
  have hcond : (s.dev.tim.marks[i].level && s.dev.pastNs s.dev.tim.marks[i].since s.dev.tim.marks[i].width) = true := by rw [hl, hp]; rfl
  change execTmarkPulseEnd i s = _
  unfold execTmarkPulseEnd
  rw [onLive_next _ _ hlive]
  exact congrArg (fun e => Host.Outcome.next { s with dev := e }) (Dev.when_of _ _ hcond)

end

/-- Settles O50: CTL by `trigCtl_granted` and `trigCtl_refused`, a firing by its count, its action and what comes next. -/
theorem triggersArmAndFire : Obligations.TriggersArmAndFire := by
  unfold Obligations.TriggersArmAndFire
  refine ⟨fun s t v ht => ?_, fun s t v c ht => ?_, fun s t hlive hup hen hdue hkind => exec_triggerBall s t hlive hup hen hdue hkind,
    fun s t bt n hlive hup hen hdue hkind => ?_, fun s t v ht hv => ⟨fun hp => ?_, fun hp => exec_triggerArm_fired s t v ht hv hp⟩,
    fun s i hlive hl hp => exec_tmarkPulseEnd s i hlive hl hp⟩
  · intro w wants hen hwas hball
    have hup : s.dev.up timeB = true := Dev.takes_up ht (by omega) (by decide)
    have hv : bit v 0 = true := (trigCtl_en _ _).symm.trans hen
    have h := s.dev.trigCtl_granted t v (fun _ hw => s.dev.ball_granted t hup (hball hw))
    have hexec := exec_triggerArm s t v ht (.inl hv)
    generalize s.dev.trigCtl t v = e at hexec h
    dsimp only at h
    rw [if_pos ⟨hen, hwas⟩] at h
    obtain ⟨h1, h2, h3, h4, h5, h6, h7⟩ := h
    exact ⟨e, hexec, h1, h2, h4, h5, h3 hen, h6, h7⟩
  · intro w hen h7 hkind hc hne
    have hup : s.dev.up timeB = true := Dev.takes_up ht (by omega) (by decide)
    have hv : bit v 0 = true := (trigCtl_en _ _).symm.trans hen
    exact ⟨_, exec_triggerArm s t v ht (.inl hv), s.dev.trigCtl_refused t v hen h7 hkind (s.dev.ball_refused t hup hc hne)⟩
  · intro w b cmd hb hstart hcode hidle
    split
    · exact exec_triggerSuppressed s t hlive hup hen hdue hkind ‹_›
    · exact exec_triggerStart s t hlive hup hen hdue bt n hkind hb hstart hcode hidle ‹_›
  · have hen : bit (R.TIME_TRIG_CTL.write (s.dev.get timeB R.TIME_TRIG_CTL t.val) v) 0 = false := (trigCtl_en _ _).trans hv
    have h := s.dev.trigCtl_granted t v (fun h' _ => by rw [hen] at h'; cases h')
    have hexec := exec_triggerArm s t v ht (.inr hp)
    generalize s.dev.trigCtl t v = e at hexec h
    dsimp only at h
    rw [if_neg fun h' => by rw [hen] at h'; exact absurd h'.1 (by decide)] at h
    obtain ⟨h1, h2, -, h4, h5⟩ := h
    exact ⟨e, hexec, h1, (congrArg (bit · 0) h2).trans hen, h4, h5⟩

end Sys2Proof.Machine
end

section
/-! SUPPORT. A block that leaves service keeps its control word: a fence set by a reaction stands (R44, R419). -/

namespace Sys2Proof.Machine

/-- The parts that a block's leaving service may change. -/
def outParts : List Part := [.regs, .live, .vecs, .fabric, .heads, .cells, .tunes, .msps, .mpvs, .ply, .rep, .thm, .jrn, .lanes, .sdc, .reqs]

theorem clear_ctl (b c : Blk) : Clear (ctlOf b) c := fun h => nomatch h

namespace Dev.aside

section
variable {w : Watch} {F : List Part} {d e : Dev}

theorem foldl_mem {α : Type} {g : Dev → α → Dev} (l : List α) (k : aside w F d e) (hg : ∀ x, ∀ a ∈ l, aside w F d x → aside w F d (g x a)) :
    aside w F d (l.foldl g e) := by
  induction l generalizing e with
  | nil => exact k
  | cons a l ih => exact ih (hg e a (.head _) k) fun x b hb => hg x b (.tail _ hb)

theorem gone (k : aside w F d e) {f : Dev} (k' : aside w goneParts e f) (hF : goneParts ⊆ F) : aside w F d f := k.trans (k'.mono hF)

theorem mspOut (k : aside w goneParts d e) (hp : Apart w) (m : Fin 64) (st : Nat) : aside w goneParts d (e.mspOut m st) := by
  unfold Dev.mspOut
  exact .ite k ((k.cellMod _ _).cellState hp _ _)

theorem spindleOut (k : aside w goneParts d e) (hp : Apart w) (i : Fin 256) (st : Nat) : aside w goneParts d (e.spindleOut i st) :=
  .ite (k.headCellOut hp i st) (k.mspOut hp _ st)

end

section
variable {b : Blk} {d e : Dev} (k : aside (ctlOf b) outParts d e)
include k

/-- A register other than BLK_CTL. -/
theorem ctlPut {c : Blk} {r : Reg} {i j : Nat} (v : Word) (ho : ownOfs (r.ofs i j)) : aside (ctlOf b) outParts d (e.put c r v i j) :=
  k.put (clear_ctl b c) v (by decide) ho

theorem laneMod (n : Fin 40) (u : Lane → Lane) : aside (ctlOf b) outParts d (e.laneMod n u) := k.beside (G := [.lanes]) rfl (by decide) rfl

theorem laneTo (n : Fin 40) (st : Nat) : aside (ctlOf b) outParts d (e.laneTo n st) := by
  unfold Dev.laneTo Dev.laneShow
  exact laneMod ((((k.ctlPut _ (by decide)).ctlPut _ (by decide)).ctlPut _ (by decide)).ctlPut _ (by decide)) n _

theorem mpvMod (h : Fin 32) (u : Mpv → Mpv) : aside (ctlOf b) outParts d (e.mpvMod h u) := k.beside (G := [.mpvs]) rfl (by decide) rfl

theorem mpvOut (h : Fin 32) (st : Nat) : aside (ctlOf b) outParts d (e.mpvOut h st) := (k.mpvMod h _).ctlPut _ (by decide)

theorem sdcFlush (ch : Fin 2) (st : Nat) : aside (ctlOf b) outParts d (e.sdcFlush ch st) := by
  have h1 : aside (ctlOf b) outParts d (e.sdcMod ch fun c => { c with flight := [], wait := [], answer := some (st, []) }) :=
    k.beside (G := [.sdc]) rfl (by decide) rfl
  exact .ite k (h1.ctlPut _ (by decide))

theorem inboxOut (c : Blk) (st : Nat) : aside (ctlOf b) outParts d (e.inboxOut c st) := by
  have hf : ∀ {x : Dev} (l : List Msg), aside (ctlOf b) outParts d x → aside (ctlOf b) outParts d { x with fabric := l } :=
    fun _ hx => hx.beside (G := [.fabric]) rfl (by decide) rfl
  unfold Dev.inboxOut
  extract_lets gone d1
  have h1 : aside (ctlOf b) outParts d d1 := k.beside (G := [.fabric, .reqs]) rfl (by decide) rfl
  exact .foldl _ h1 fun x m hx => .ite (hf _ (hf _ hx)) ((hf _ hx).ctlPut _ (by decide))

variable (hp : Apart (ctlOf b))
include hp

/-- A partner departs. -/
theorem laneGone (m : Mem) (n : Fin 40) : aside (ctlOf b) outParts d (e.laneGone m n) := by
  unfold Dev.laneGone
  extract_lets c ser d1 d2
  have h1 : aside (ctlOf b) outParts d d1 := by
    refine ((((k.ctlPut _ (by decide)).ctlPut _ (by decide)).ctlPut _ (by decide)).event (clear_ctl b _) hp (by decide) ?_ (by decide))
    split <;> omega
  clear_value d1
  have h2 : aside (ctlOf b) outParts d d2 := by
    refine .foldl_mem _ (h1.trans (((Dev.aside.refl d1).laneLog hp (F := [.regs, .vecs, .fabric, .jrn]) (by decide) n 1 ser).mono (by decide)))
      fun x a ha hx => hx.ctlPut _ ?_
    have ha' : a.2 < 4 := (List.mem_zipIdx' ha).1
    change ownOfs (0x1A0 + 4 * a.2 + 0 * 0)
    omega
  clear_value d2
  have hdesc : ∀ {x : Dev}, aside (ctlOf b) outParts d x → aside (ctlOf b) outParts d ((List.range 16).foldl (fun (e : Dev) i => e.put c R.LANE_DESC 0 i) x) :=
    fun hx => .foldl_mem _ hx fun y i hi hy => hy.ctlPut _ (by
      have := List.mem_range.mp hi
      change ownOfs (0x160 + 4 * i + 0 * 0)
      omega)
  split
  · extract_lets hd d3 d4 d5a d5
    have h3 : aside (ctlOf b) outParts d d3 := h2.gone (.foldl (List.range 6) (.refl d2) fun x r hx => hx.headCellOut hp _ 0) (by decide)
    have h4 : aside (ctlOf b) outParts d d4 := hdesc h3
    clear_value d4
    have h5a : aside (ctlOf b) outParts d d5a := (h4.linkLat hp (by decide) hd).trans (((Dev.aside.refl _).mpvEval hp (F := [.regs, .mpvs]) (by decide) hd).mono (by decide))
    clear_value d5a
    have h5 : aside (ctlOf b) outParts d d5 := .ite h5a (h5a.trans (((Dev.aside.refl d5a).headLost hp m hd).mono (by decide)))
    clear_value d5
    exact .ite (((h5.ctlPut _ (by decide)).trvMod (by decide) hd _).fmapShow hp (by decide) hd) h5
  · exact hdesc (h2.gone ((Dev.aside.refl d2).modDepart hp n) (by decide))

/-- A block's leaving service. -/
theorem blockOut (m : Mem) (c : Blk) (fence : Bool) : aside (ctlOf b) outParts d (Machine.blockOut m e c fence).2 := by
  unfold Machine.blockOut
  extract_lets st cells
  have hcells : ∀ n, aside (ctlOf b) outParts d (cells n) := fun n =>
    k.gone (.foldl _ (.refl e) fun x i hx => by
      split
      · exact hx.spindleOut hp _ _
      · exact hx) (by decide)
  clear_value cells
  split
  · exact k.trans (((Dev.aside.refl e).headLost hp m _).mono (by decide))
  · exact hcells _
  · exact hcells _
  · exact laneTo (.ite (k.laneGone hp m _) k) _ 0
  · exact .ite ((k.mpvMod _ _).mpvOut _ 3) (k.mpvOut _ _)
  · exact k.sdcFlush _ _
  · exact k

end

end Dev.aside

/-- A reaction's fence leaves its block out of service (R419, R420). -/
theorem blockFence_fenced (m : Mem) (d : Dev) {b : Blk} (hn : neverFenced b = false) : (blockFence m d b 1).2.fenced b = true := by
  have hput : ∀ x : Dev, (x.putF b R.BLK_CTL 5 4 1).getF b R.BLK_CTL 5 4 = 1 := fun x => Dev.getF_putF_same _ _ _ _ _ _ (by decide) (by decide)
  have hval : ∀ x : Dev, x.getF b R.BLK_CTL 5 4 = 1 → x.fenced b = true := fun x hx =>
    decide_eq_true (show x.fence b ≠ 0 from fun h0 => absurd (hx.symm.trans h0) (by decide))
  unfold blockFence
  extract_lets note x y
  rw [if_neg (by rw [hn]; decide)]
  split
  · rename_i hf
    dsimp only
    split
    · exact hval _ (hput d)
    · exact hf
  · have hp : Apart (ctlOf b) := by
      unfold neverFenced at hn
      split at hn
      · rename_i t n hk
        refine apart_ctl (t := t) (n := n) hk fun ht => ?_
        rcases List.mem_cons.mp ht with rfl | ht
        · cases hn
        · rw [List.mem_singleton.mp ht] at hn
          cases hn
      · cases hn
    have h1 : ((x.2.putF b R.BLK_CTL 5 4 1).setActive b false).getF b R.BLK_CTL 5 4 = 1 :=
      (congrArg (fun w => fld w 5 4) (Dev.get_put_off _ _ _ _ (by decide))).trans (hput x.2)
    have h2 := ((Dev.aside.refl ((x.2.putF b R.BLK_CTL 5 4 1).setActive b false)).blockOut hp x.1 b true).inboxOut b 1
    exact hval _ ((congrArg (fun w => fld w 5 4) h2.ctlWord).trans h1)

end Sys2Proof.Machine
end

section
/-! Fault collection (R408, R413 to R421). -/

namespace Sys2Proof.Machine

/-- A fault that drives no critical line writes its bit of FLT_STAT and no other register. -/
theorem Dev.detect_calm_regs (d : Dev) {b : Blk} {t : BT} {n kind : Nat} (hb : blkKind b = some (t, n)) (hc : t.crit &&& wd (2 ^ kind) = 0)
    (hk : kind < 32) (c : Option Nat) (addr : Nat) (trans inj alsof : Bool) :
    (d.detect b c kind addr trans inj alsof).regs = (d.put b R.FLT_STAT (d.get b R.FLT_STAT ||| wd (2 ^ kind))).regs := by
  unfold Dev.detect
  rw [hb]
  dsimp -zeta only
  extract_lets km own crit was d1 d2
  have hcrit : crit = false := by
    have hz : decide (t.crit &&& km ≠ 0) = false := decide_eq_false (not_not.mpr hc)
    simp only [crit, hz, Bool.and_false]
  have h1 : d1 = d.put b R.FLT_STAT (d.get b R.FLT_STAT ||| km) := if_pos hk
  have h2 : d2 = d1 := if_neg (by rw [hcrit]; exact Bool.false_ne_true)
  rw [h2, h1]
  split <;> rfl

/-! The queue. -/

/-- Registers that the collector writes as it queues a message. -/
def queueRegs (a : Nat) : Prop :=
  a = radr fltc R.FLTC_MSGS ∨ a = radr fltc R.FLTC_STAT ∨ a = radr fltc R.FLTC_SHADOW_CNT ∨ a = radr hif R.HIF_EVT_PEND

/-- A register at none of their offsets reads as before. -/
theorem Dev.regsKept.offQueue {d e : Dev} (h : d.regsKept e queueRegs) (b : Blk) (r : Reg) (i j : Nat)
    (hr : r.ofs i j % 0x1000 ∉ [0x104, 0x120, 0x134, 0x138]) : e.get b r i j = d.get b r i j := by
  simp only [List.mem_cons, List.not_mem_nil, or_false, not_or] at hr
  obtain ⟨h1, h2, h3, h4⟩ := hr
  refine h.get b r i j fun ha => ?_
  rcases ha with ha | ha | ha | ha
  · exact radr_ne_of_page fltc b _ _ 0 0 i j h4 ha
  · exact radr_ne_of_page fltc b _ _ 0 0 i j h1 ha
  · exact radr_ne_of_page fltc b _ _ 0 0 i j h3 ha
  · exact radr_ne_of_page hif b _ _ 0 0 i j h2 ha

theorem Dev.enqueue_spec (d : Dev) (m : BitVec 64) (hn : d.flt.queue.length < 1022) :
    let e := d.enqueue m
    e = { d with regs := e.regs, flt := { d.flt with queue := d.flt.queue ++ [d.entryOf m] } } ∧ d.regsKept e queueRegs ∧
    e.getF fltc R.FLTC_STAT 10 0 = d.flt.queue.length + 1 ∧ e.getN fltc R.FLTC_MSGS = min 0xFFFFFFFF (d.getN fltc R.FLTC_MSGS + 1) := by
  have hlen : ((d.fltMod fun f => { f with queue := f.queue ++ [d.entryOf m] }).bump fltc R.FLTC_MSGS).flt.queue.length = d.flt.queue.length + 1 :=
    (List.length_append).trans rfl
  have hbase : ∀ x : Dev, x = ((d.fltMod fun f => { f with queue := f.queue ++ [d.entryOf m] }).bump fltc R.FLTC_MSGS).qShow →
      x = { d with regs := x.regs, flt := { d.flt with queue := d.flt.queue ++ [d.entryOf m] } } ∧ d.regsKept x queueRegs ∧
      x.getF fltc R.FLTC_STAT 10 0 = d.flt.queue.length + 1 ∧ x.getN fltc R.FLTC_MSGS = min 0xFFFFFFFF (d.getN fltc R.FLTC_MSGS + 1) := by
    rintro x rfl
    refine ⟨rfl, ?_, ?_, ?_⟩
    · exact (Dev.regsKept_put (d.fltMod _) _ _ _ 0 0 (.inl rfl)).trans (Dev.regsKept_putF _ _ _ _ _ _ 0 0 (.inr (.inl rfl)))
    · refine (Dev.getF_putF_same _ _ _ _ _ _ (by decide) (by decide)).trans ?_
      rw [hlen]
      exact Nat.mod_eq_of_lt (show _ < 2048 by omega)
    · exact (congrArg BitVec.toNat (Dev.get_put_off _ _ _ _ (by decide))).trans (Dev.getN_bump (d.fltMod _) _ _ 0 0)
  intro e
  have he : e = if m.getLsbD 49 then (((d.fltMod fun f => { f with queue := f.queue ++ [d.entryOf m] }).bump fltc R.FLTC_MSGS).qShow).bump fltc
      R.FLTC_SHADOW_CNT else ((d.fltMod fun f => { f with queue := f.queue ++ [d.entryOf m] }).bump fltc R.FLTC_MSGS).qShow := rfl
  clear_value e
  obtain ⟨x, hx⟩ : ∃ x, x = ((d.fltMod fun f => { f with queue := f.queue ++ [d.entryOf m] }).bump fltc R.FLTC_MSGS).qShow := ⟨_, rfl⟩
  obtain ⟨h1, h2, h3, h4⟩ := hbase x hx
  rw [← hx] at he
  clear hx hbase hlen
  split at he
  · subst he
    refine ⟨?_, h2.trans (x.regsKept_put _ _ _ 0 0 (.inr (.inr (.inl rfl)))), (congrArg (fun w => fld w 10 0) (Dev.get_put_off _ _ _ _ (by decide))).trans h3,
      (congrArg BitVec.toNat (Dev.get_put_off _ _ _ _ (by decide))).trans h4⟩
    exact congrArg (fun y : Dev => { y with regs := (x.bump fltc R.FLTC_SHADOW_CNT).regs }) h1
  · subst he
    exact ⟨h1, h2, h3, h4⟩

/-- A message enters a queue with room for it and for QUEUE_FULL (R415, R416). -/
theorem Dev.queueIn_spec (d : Dev) (m : BitVec 64) (hn : d.flt.queue.length < 1022) :
    let e := d.queueIn m
    e = { d with regs := e.regs, vecs := e.vecs, flt := { d.flt with queue := d.flt.queue ++ [d.entryOf m] } } ∧ d.regsKept e queueRegs ∧
    e.getF fltc R.FLTC_STAT 10 0 = d.flt.queue.length + 1 ∧ e.getN fltc R.FLTC_MSGS = min 0xFFFFFFFF (d.getN fltc R.FLTC_MSGS + 1) ∧
    (d.flt.queue = [] → e.vPend 1 = true) := by
  obtain ⟨h1, h2, h3, h4⟩ := d.enqueue_spec m hn
  have he : d.queueIn m = if d.flt.queue.length = 0 then (d.enqueue m).vector 1 else d.enqueue m := by
    unfold Dev.queueIn
    dsimp only
    rw [if_neg (by omega), if_neg (by omega)]
  rw [he]
  generalize d.enqueue m = x at h1 h2 h3 h4
  have hf : fltc ≠ hif := by decide
  split
  · refine ⟨?_, h2.trans fun a ha => x.vector_regs 1 a fun h => ha (.inr (.inr (.inr h))),
      (congrArg (fun w => fld w 10 0) (x.vector_get (by decide) _ _ hf (by decide))).trans h3,
      (congrArg BitVec.toNat (x.vector_get (by decide) _ _ hf (by decide))).trans h4, fun _ => x.vector_sets 1 (by decide)⟩
    exact (x.vector_frame 1).trans (congrArg (fun y : Dev => { y with regs := (x.vector 1).regs, vecs := (x.vector 1).vecs }) h1)
  · rename_i h0
    exact ⟨congrArg (fun y : Dev => { y with vecs := x.vecs }) h1, h2, h3, h4, fun hq => absurd (List.length_eq_zero_iff.mpr hq) h0⟩

/-- Whether a message reacts stands in registers that the queue does not write. -/
theorem Dev.reacts_congr {d e : Dev} (h : d.regsKept e queueRegs) (m : BitVec 64) : e.reacts m = d.reacts m := by
  have hk : ∀ t : BT, e.get fltc R.FLTC_ARM_KINDS t.idx = d.get fltc R.FLTC_ARM_KINDS t.idx ∧
      e.get fltc R.FLTC_ARM_EXT t.idx = d.get fltc R.FLTC_ARM_EXT t.idx := fun t => by
    have hi : t.idx < 26 := by cases t <;> decide
    have ho : ∀ i : Fin 26, R.FLTC_ARM_KINDS.ofs i.val 0 % 0x1000 ∉ [0x104, 0x120, 0x134, 0x138] ∧
      R.FLTC_ARM_EXT.ofs i.val 0 % 0x1000 ∉ [0x104, 0x120, 0x134, 0x138] := by decide
    exact ⟨h.offQueue _ _ _ 0 (ho ⟨_, hi⟩).1, h.offQueue _ _ _ 0 (ho ⟨_, hi⟩).2⟩
  have hc : e.get fltc R.FLTC_CTL = d.get fltc R.FLTC_CTL := h.offQueue _ _ 0 0 (by decide)
  have hr : e.get (msgBlk m) R.FLT_REACT = d.get (msgBlk m) R.FLT_REACT := h.offQueue _ _ 0 0 (by decide)
  unfold Dev.reacts Dev.getB Dev.getF
  simp only [hk, hc, hr]

/-! The collector. -/

/-- What the collector takes from its inbox enters the queue, and a reaction follows (R414, R418). -/
theorem collect_spec (m : Mem) (d : Dev) (msg : BitVec 64) (hsrc : ∀ h ∈ d.flt.handling, d.now < h.2 + 8 → msgSrc h.1 ≠ msgSrc msg)
    (hn : d.flt.queue.length < 1022) : ∃ e : Dev,
    e = { d with regs := e.regs, vecs := e.vecs, flt := { d.flt with queue := e.flt.queue, handling := e.flt.handling } } ∧
    e.flt.queue = d.flt.queue ++ [d.entryOf msg] ∧ e.getF fltc R.FLTC_STAT 10 0 = d.flt.queue.length + 1 ∧
    e.getN fltc R.FLTC_MSGS = min 0xFFFFFFFF (d.getN fltc R.FLTC_MSGS + 1) ∧ (d.flt.queue = [] → e.vPend 1 = true) ∧
    collect m d msg = if d.reacts msg then react m e (d.getF (msgBlk msg) R.FLT_REACT 2 0) (msgBlk msg) (msgCell msg) else (m, e) := by
  obtain ⟨x, hx⟩ : ∃ x, x = d.fltMod fun f => { f with
      handling := (d.flt.handling.filter fun h => d.now < h.2 + 8) ++ [(msg, d.now)] } := ⟨_, rfl⟩
  have hq : x.flt.queue = d.flt.queue := by rw [hx]; rfl
  have hreg : x.regs = d.regs := by rw [hx]; rfl
  obtain ⟨h1, h2, h3, h4, h5⟩ := x.queueIn_spec msg (by rw [hq]; exact hn)
  have hent : x.entryOf msg = d.entryOf msg := by rw [hx]; rfl
  have hbusy : ¬((d.flt.handling.filter fun h => d.now < h.2 + 8).any fun h => msgSrc h.1 = msgSrc msg) = true := fun ha => by
    obtain ⟨h, hm, he⟩ := List.any_eq_true.mp ha
    obtain ⟨hm, ht⟩ := List.mem_filter.mp hm
    exact hsrc h hm (of_decide_eq_true ht) (of_decide_eq_true he)
  have hcol : collect m d msg = if (x.queueIn msg).reacts msg then react m (x.queueIn msg) ((x.queueIn msg).getF (msgBlk msg) R.FLT_REACT 2 0)
      (msgBlk msg) (msgCell msg) else (m, x.queueIn msg) := by
    rw [hx]
    unfold collect
    exact if_neg hbusy
  have hx' : x = { d with flt := { d.flt with handling := x.flt.handling } } := by rw [hx]; rfl
  clear hx
  have hk : d.regsKept (x.queueIn msg) queueRegs := fun a ha => (h2 a ha).trans (by rw [hreg])
  rw [Dev.reacts_congr hk, Dev.getF, hk.offQueue _ _ 0 0 (by decide)] at hcol
  generalize x.queueIn msg = e at hcol h1 h3 h4 h5 hk
  refine ⟨e, ?_, ?_, ?_, ?_, ?_, hcol⟩
  · rw [h1, hx']
  · rw [h1, ← hent, ← hq]
  · rw [← hq]
    exact h3
  · exact h4.trans (congrArg (fun w => min 0xFFFFFFFF (BitVec.toNat w + 1)) (Dev.get_of_regs _ _ _ _ (by rw [hreg])))
  · rw [← hq]
    exact h5

/-- A message that nothing holds back is taken. -/
theorem exec_faultMessage {s : State} {x : Msg} {m : BitVec 64} (hlive : s.dev.dead = false) (hr : s.dev.inReset fltc = false)
    (ht : s.dev.flt.took = false)
    (hx : s.dev.inbox fltc (fun b => match b with
      | .fault _ => true
      | _ => false) = some x) (hm : x.body = .fault m) :
    exec .faultMessage s = .next { s with
      mem := (collect s.mem ((s.dev.unpost x).fltMod fun f => { f with took := true }) m).1
      dev := (collect s.mem ((s.dev.unpost x).fltMod fun f => { f with took := true }) m).2 } := by
  change execFaultMessage s = _
  unfold execFaultMessage
  rw [onLiveMem_next _ _ hlive]
  have hcore : ∀ (o : Option Msg) (r : Bool), r = false → o = some x → (match r, o with
      | false, some x =>
        (match x.body with
          | .fault msg => collect s.mem ((s.dev.unpost x).fltMod fun f => { f with took := true }) msg
          | _ => (s.mem, s.dev))
      | _, _ => (s.mem, s.dev)) = collect s.mem ((s.dev.unpost x).fltMod fun f => { f with took := true }) m := by
    rintro _ _ rfl rfl
    dsimp only
    rw [hm]
  have hc : ¬s.dev.flt.took = true := by rw [ht]; decide
  refine congrArg (fun y : Mem × Dev => Host.Outcome.next { s with mem := y.1, dev := y.2 }) ?_
  exact (if_neg hc).trans (hcore _ _ hr hx)

/-- One message a cycle (R414). -/
theorem exec_faultMessage_took {s : State} (ht : s.dev.flt.took = true) : exec .faultMessage s = .next s := by
  change execFaultMessage s = _
  unfold execFaultMessage
  by_cases hlive : s.dev.dead = false
  · rw [onLiveMem_next _ _ hlive]
    dsimp only
    rw [if_pos ht]
  · exact onLiveMem_dead _ s (eq_true_of_ne_false hlive)

/-! FLTC_POP. -/

theorem exec_fltcPop {s : State} (v : Word) (ht : s.dev.takes fltc 0x10C) : exec (.fltcPop v) s = .next { s with dev := (s.dev.fltPop v) } := by
  change execFltcPop v s = _
  unfold execFltcPop
  rw [onLive_next _ _ (Dev.takes_live _ _ _ ht), Dev.hostWrite_takes _ _ _ _ ht]

end Sys2Proof.Machine
end

section
/-! The cell fence list and storms (R413, R416, R421). -/

namespace Sys2Proof.Machine

/-! A cleared cell. -/

theorem Dev.cfShow_aside (b : Blk) (d : Dev) : Dev.aside (ctlOf b) outParts d d.cfShow := by
  unfold Dev.cfShow
  exact Dev.aside.ctlPut (.foldl_mem _ (.refl d) fun x i hi hx => hx.ctlPut _ (by
    have := List.mem_range.mp hi
    change ownOfs (0x200 + 4 * i + 0 * 0)
    omega)) _ (by decide)

theorem Dev.cfShow_flt (d : Dev) : d.cfShow.flt = d.flt := by
  have h := (d.cfShow_aside fltc).frame
  generalize d.cfShow = y at h
  exact h.get Dev.flt

theorem Dev.cellState_cells (d : Dev) (i : Fin 256) : (d.cellState i 0).cells[i].st = 0 := by
  by_cases h0 : d.cells[i].st = 0
  · unfold Dev.cellState
    rw [if_pos h0]
    exact h0
  · obtain ⟨x, hx, -⟩ := d.cellState_off i (.inl rfl) h0
    exact (congrArg Prod.fst (hx.cells i)).trans (congrArg SCell.st (vmod_same x.cells i _))

theorem Dev.cellBack_flt (d : Dev) (b : Blk) (c : Nat) : (d.cellBack b c).flt = d.flt := by
  unfold Dev.cellBack
  split
  · split
    · rfl
    · rename_i i _ _
      exact ((Dev.aside.refl (w := pageOf (laneB 0)) d).cellState (apart_lane 0) i 0).frame.get Dev.flt
  · unfold Dev.bchCellBack
    split <;> rfl
  · rfl

theorem Dev.cfClear_spec (d : Dev) (b : Blk) (c : Nat) (h : d.cellFenced b c = true) :
    (d.cfClear b c).cellFenced b c = false ∧ ∀ i, spindleOf b c = some i → d.fenced b = false → (d.cfClear b c).cells[i].st = 0 := by
  obtain ⟨x, hx⟩ : ∃ x : Dev, x = { d with flt := { d.flt with cf := d.flt.cf.map fun x => if x == some ⟨b, c⟩ then none else x } } := ⟨_, rfl⟩
  have hclear : d.cfClear b c = x.cfShow.cellBack b c := by
    unfold Dev.cfClear
    rw [if_neg (not_not.mpr h), hx]
  have hs := x.cfShow_aside b
  rw [hclear]
  refine ⟨?_, fun i hi hf => ?_⟩
  · have hflt : (x.cfShow.cellBack b c).flt.cf = d.flt.cf.map fun x => if x == some ⟨b, c⟩ then none else x := by
      rw [Dev.cellBack_flt, Dev.cfShow_flt, hx]
    rw [Dev.cellFenced, hflt, Vector.toList_map, List.any_map]
    refine List.any_eq_false.mpr fun y _ => ?_
    rw [Function.comp_apply]
    split
    · exact fun h => nomatch h
    · assumption
  · have hf' : x.cfShow.fenced b = false := by
      have hxr : x.regs = d.regs := by rw [hx]
      have hw : x.cfShow.get b R.BLK_CTL = x.get b R.BLK_CTL := hs.ctlWord
      have hd : x.get b R.BLK_CTL = d.get b R.BLK_CTL := Dev.get_of_regs _ _ _ _ (by rw [hxr])
      generalize x.cfShow = y at hw ⊢
      rw [Dev.fenced, Dev.fence, Dev.getF] at hf ⊢
      rw [hw, hd]
      exact hf
    have hback : x.cfShow.cellBack b c = x.cfShow.cellState i 0 := by
      unfold Dev.cellBack
      rw [hi]
      exact if_neg (by rw [hf']; decide)
    rw [hback]
    exact x.cfShow.cellState_cells i

theorem exec_fltcCfClr {s : State} (v : Word) (ht : s.dev.takes fltc 0x180) : exec (.fltcCfClr v) s = .next { s with
    dev := s.dev.cfClear ⟨Fin.ofNat 16 (fld v 3 0), Fin.ofNat 64 (fld v 9 4)⟩ (fld v 15 10) } := by
  change execFltcCfClr v s = _
  unfold execFltcCfClr
  rw [onLive_next _ _ (Dev.takes_live _ _ _ ht), Dev.hostWrite_takes _ _ _ _ ht]

/-! Storms. -/

/-- The offers of a region are counted anew for a millisecond, in storm or not (R413). -/
def Dev.stormSet (d : Dev) (r : Fin 16) (now : Bool) : Dev :=
  (d.fltMod fun f => { f with storm := vmod f.storm r fun _ => ⟨0, [], d.tick / 1000⟩ }).putB fltc R.FLTC_STORM_STAT r.val now

/-- The millisecond of a region begins (R413). -/
def Dev.stormNext (d : Dev) (r : Fin 16) : Dev :=
  let now : Bool := d.getB fltc R.FLTC_CTL 1 && decide (d.getF fltc R.FLTC_STORM 15 0 ≤ d.flt.storm[r].offered ∧ d.flt.storm[r].ms + 1 = d.tick / 1000)
  if now && !d.getB fltc R.FLTC_STORM_STAT r.val then (d.stormSet r now).raise fltc none 2 r.val else d.stormSet r now

theorem exec_stormMillisecond {s : State} (r : Fin 16) (hlive : s.dev.dead = false) (hr : r ∈ regions)
    (hms : s.dev.flt.storm[r].ms < s.dev.tick / 1000) : exec (.stormMillisecond r) s = .next { s with dev := s.dev.stormNext r } := by
  change execStormMillisecond r s = _
  unfold execStormMillisecond
  rw [onLive_next _ _ hlive]
  have hc : decide (r ∈ regions ∧ s.dev.flt.storm[r].ms < s.dev.tick / 1000) = true := decide_eq_true ⟨hr, hms⟩
  exact congrArg (fun e => Host.Outcome.next { s with dev := e }) (Dev.when_of _ _ hc)

theorem Dev.stormNext_spec (d : Dev) (r : Fin 16) :
    let now : Bool := d.getB fltc R.FLTC_CTL 1 && decide (d.getF fltc R.FLTC_STORM 15 0 ≤ d.flt.storm[r].offered ∧ d.flt.storm[r].ms + 1 = d.tick / 1000)
    let e := d.stormNext r
    e = { d with
      regs := e.regs, vecs := e.vecs, fabric := e.fabric
      flt := { d.flt with storm := d.flt.storm.set r ⟨0, [], d.tick / 1000⟩ } } ∧
    e.getB fltc R.FLTC_STORM_STAT r.val = now ∧
    (now = true → d.getB fltc R.FLTC_STORM_STAT r.val = false → e.getB fltc R.FLT_STAT 2 = true) := by
  intro now e
  have he : e = if now && !d.getB fltc R.FLTC_STORM_STAT r.val then (d.stormSet r now).raise fltc none 2 r.val else d.stormSet r now := rfl
  clear_value e
  have hx : d.stormSet r now = { d with
      regs := (d.stormSet r now).regs, flt := { d.flt with storm := d.flt.storm.set r ⟨0, [], d.tick / 1000⟩ } } := rfl
  have hb : (d.stormSet r now).getB fltc R.FLTC_STORM_STAT r.val = now := Dev.getB_putB_same _ _ _ _ _ _ (by have := r.isLt; omega)
  generalize d.stormSet r now = x at he hx hb
  have hk : blkKind fltc = some (.fltc, 0) := by decide
  have hcalm : BT.fltc.crit &&& wd (2 ^ 2) = 0 := by decide
  have hframe := x.detect_calm hk hcalm none r.val false false false
  have hregs := x.detect_calm_regs hk hcalm (by decide) none r.val false false false
  split at he
  · change x.changes _ (x.raise fltc none 2 r.val) at hframe
    change (x.raise fltc none 2 r.val).regs = _ at hregs
    rw [← he] at hframe hregs
    refine ⟨?_, ?_, fun _ _ => ?_⟩
    · have hfr : e = { x with regs := e.regs, vecs := e.vecs, fabric := e.fabric } := by
        rw [he]
        exact x.detect_frame _ _ _ _ _ _ _
      exact hfr.trans (congrArg (fun y : Dev => { y with regs := e.regs, vecs := e.vecs, fabric := e.fabric }) hx)
    · refine (congrArg (fun w => bit w r.val) ((Dev.get_of_regs _ _ _ _ (by rw [hregs])).trans (Dev.get_put_off _ _ _ _ (by decide)))).trans hb
    · refine (congrArg (fun w => bit w 2) ((Dev.get_of_regs _ _ _ _ (by rw [hregs])).trans (Dev.get_put_same _ _ _ _ _ _))).trans ?_
      exact bit_or_pow _ (by decide)
  · rename_i hno
    subst he
    exact ⟨congrArg (fun y : Dev => { y with vecs := e.vecs, fabric := e.fabric }) hx, hb, fun h1 h2 => absurd (by rw [h1, h2]; rfl) hno⟩

/-! O51. -/

/-- Settles O51: a message taken enters the queue, its reaction fences the block, POP and the cell list, and the storm's millisecond. -/
theorem messagesAreCollected : Obligations.MessagesAreCollected := by
  unfold Obligations.MessagesAreCollected
  refine ⟨fun s x m hlive hr ht hx hm hsrc hn => ?_, fun s ht => exec_faultMessage_took ht, fun s v ht => ?_, fun s v ht => ?_,
    fun s r hlive hr hms => ?_⟩
  · have hexec := exec_faultMessage hlive hr ht hx hm
    obtain ⟨y, hy⟩ : ∃ y, y = (s.dev.unpost x).fltMod fun f => { f with took := true } := ⟨_, rfl⟩
    rw [← hy] at hexec
    have hyq : y.flt.queue = s.dev.flt.queue := by rw [hy]; rfl
    have hyr : y.regs = s.dev.regs := by rw [hy]; rfl
    have hye : y.entryOf m = s.dev.entryOf m := by rw [hy]; rfl
    have hrea : y.reacts m = s.dev.reacts m := Dev.reacts_congr (d := s.dev) (fun a _ => by rw [hyr]) m
    obtain ⟨e, he, hq, hst, hmsgs, hv, hcol⟩ := collect_spec s.mem y m (by rw [hy]; exact hsrc) (by rw [hyq]; exact hn)
    rw [hcol, hrea] at hexec
    rw [hyq] at hq hst hv
    refine ⟨fun hre => ⟨e, hexec.trans (by rw [hre]; rfl), ?_, hq.trans (by rw [hye]), hst, ?_, hv⟩, fun hre h2 hnf => ?_⟩
    · rw [hy] at he
      exact he
    · exact hmsgs.trans (congrArg (fun w => min 0xFFFFFFFF (BitVec.toNat w + 1)) (Dev.get_of_regs _ _ _ _ (by rw [hyr])))
    · have h2' : y.getF (msgBlk m) R.FLT_REACT 2 0 = 2 := (congrArg (fun w => fld w 2 0) (Dev.get_of_regs _ _ _ _ (by rw [hyr]))).trans h2
      refine ⟨_, hexec, ?_⟩
      rw [hre, if_pos rfl, h2']
      show (react s.mem e 2 (msgBlk m) (msgCell m)).2.fenced (msgBlk m) = true
      unfold react
      split
      · rename_i hskip
        rcases hskip with h | ⟨-, h, -⟩
        · rw [hnf] at h
          cases h
        · exact h
      · exact blockFence_fenced s.mem e hnf
  · split
    · rename_i hv
      have hp : s.dev.fltPop v = (s.dev.fltMod fun f => { f with queue := f.queue.drop 1 }).qShow := if_pos hv
      refine ⟨_, (exec_fltcPop v ht).trans (by rw [hp]), rfl, fun hlen => ?_, ?_⟩
      · refine (Dev.getF_putF_same _ _ _ _ _ _ (by decide) (by decide)).trans ?_
        rw [show (s.dev.fltMod fun f => { f with queue := f.queue.drop 1 }).flt.queue.length = s.dev.flt.queue.length - 1 from List.length_drop]
        exact Nat.mod_eq_of_lt (show _ < 2048 by omega)
      · exact Dev.regsKept_putF (s.dev.fltMod _) _ _ _ _ _ 0 0 rfl
    · rename_i hv
      have hp : s.dev.fltPop v = s.dev := if_neg hv
      exact (exec_fltcPop v ht).trans (by rw [hp])
  · intro b c
    split
    · rename_i hf
      obtain ⟨h1, h2⟩ := s.dev.cfClear_spec b c hf
      exact ⟨_, exec_fltcCfClr v ht, h1, fun i hi _ hfen => h2 i hi hfen⟩
    · rename_i hf
      have hc : s.dev.cfClear b c = s.dev := by
        unfold Dev.cfClear
        exact if_pos hf
      exact (exec_fltcCfClr v ht).trans (congrArg (fun e => Host.Outcome.next { s with dev := e }) hc)
  · obtain ⟨h1, h2, h3⟩ := s.dev.stormNext_spec r
    exact ⟨_, exec_stormMillisecond r hlive hr hms, h1, h2, fun ha => h3 (h2.symm.trans ha)⟩

end Sys2Proof.Machine
end

section
/-! Forced faults, ALIVE and the watchdog (R427 to R432, R439). -/

namespace Sys2Proof.Machine

/-! Which registers a detection writes. -/

/-- FLT_STAT of the block; FLTC_STAT and HIF_EVT_PEND with a critical line. -/
def detectRegs (b : Blk) (a : Nat) : Prop := a = radr b R.FLT_STAT ∨ a = radr fltc R.FLTC_STAT ∨ a = radr hif R.HIF_EVT_PEND

/-- A register at none of their offsets reads as before. -/
theorem Dev.regsKept.offDetect {d e : Dev} {b : Blk} (h : d.regsKept e (detectRegs b)) (c : Blk) (r : Reg) (i j : Nat)
    (hr : r.ofs i j % 0x1000 ∉ [0x10, 0x104, 0x120]) : e.get c r i j = d.get c r i j := by
  simp only [List.mem_cons, List.not_mem_nil, or_false, not_or] at hr
  obtain ⟨h1, h2, h3⟩ := hr
  refine h.get c r i j fun ha => ?_
  rcases ha with ha | ha | ha
  · exact radr_ne_of_page b c _ _ 0 0 i j h1 ha
  · exact radr_ne_of_page fltc c _ _ 0 0 i j h2 ha
  · exact radr_ne_of_page hif c _ _ 0 0 i j h3 ha

section
variable (d : Dev) {b : Blk} {t : BT} {n : Nat} (hb : blkKind b = some (t, n)) (c : Option Nat) (kind addr : Nat) (trans inj alsof : Bool)
include hb

theorem Dev.detect_registers : let e := d.detect b c kind addr trans inj alsof
    d.regsKept e (detectRegs b) ∧
    e.get b R.FLT_STAT = if kind < 32 then d.get b R.FLT_STAT ||| wd (2 ^ kind) else d.get b R.FLT_STAT := by
  intro e
  have he : e = d.detect b c kind addr trans inj alsof := rfl
  clear_value e
  unfold Dev.detect at he
  rw [hb] at he
  dsimp -zeta only at he
  extract_lets km own crit was d1 d2 at he
  have h1 : d.regsKept d1 (detectRegs b) ∧ d1.get b R.FLT_STAT = if kind < 32 then d.get b R.FLT_STAT ||| wd (2 ^ kind) else d.get b R.FLT_STAT := by
    simp only [d1]
    split
    · exact ⟨d.regsKept_put _ _ _ 0 0 (.inl rfl), Dev.get_put_same _ _ _ _ _ _⟩
    · exact ⟨d.regsKept_refl _, rfl⟩
  clear_value d1
  have h2 : d1.regsKept d2 (detectRegs b) ∧ d2.get b R.FLT_STAT = d1.get b R.FLT_STAT := by
    simp only [d2]
    split
    · have hv : d1.regsKept (d1.vector 0) fun a => a = radr hif R.HIF_EVT_PEND := fun a ha => d1.vector_regs 0 a ha
      have ha := (d1.vector 0).regsKept_putF fltc R.FLTC_STAT 16 16 0 0 0 (p := fun a => a = radr fltc R.FLTC_STAT) rfl
      exact ⟨(hv.mono fun a h => .inr (.inr h)).trans (ha.mono fun a h => .inr (.inl h)),
        (ha.get b _ 0 0 (radr_ne_of_page _ _ _ _ 0 0 0 0 (by decide))).trans (hv.get b _ 0 0 (radr_ne_of_page _ _ _ _ 0 0 0 0 (by decide)))⟩
    · exact ⟨d1.regsKept_refl _, rfl⟩
  clear_value d2
  have h3 : e.regs = d2.regs := by
    rw [he]
    split <;> rfl
  exact ⟨fun a ha => (congrArg (spGet · a) h3).trans ((h1.1.trans h2.1) a ha), (Dev.get_of_regs _ _ _ _ (by rw [h3])).trans (h2.2.trans h1.2)⟩

/-- A fault kind of its own shows in FLT_STAT (R411). -/
theorem Dev.detect_shows (hk : kind < 32) : (d.detect b c kind addr trans inj alsof).getB b R.FLT_STAT kind = true := by
  rw [Dev.getB, (d.detect_registers hb c kind addr trans inj alsof).2, if_pos hk]
  exact bit_or_pow _ hk

/-- A bit of FLT_STAT stays set. -/
theorem Dev.detect_keeps_bit {k : Nat} (h : d.getB b R.FLT_STAT k = true) : (d.detect b c kind addr trans inj alsof).getB b R.FLT_STAT k = true := by
  rw [Dev.getB, (d.detect_registers hb c kind addr trans inj alsof).2]
  split
  · rw [bit, BitVec.getLsbD_or, show BitVec.getLsbD (d.get b R.FLT_STAT) k = true from h, Bool.true_or]
  · exact h

end

/-! Forced faults. -/

section
variable (d : Dev) {b : Blk} {t : BT} {n : Nat} (hb : blkKind b = some (t, n)) (base : Nat) (new real : Word)
include hb

/-- The kinds from `base` on whose bits are new are raised, and no other register changes. -/
theorem Dev.forceRaise_spec : let e := d.forceRaise b base new real
    e = { d with regs := e.regs, vecs := e.vecs, fabric := e.fabric } ∧ d.regsKept e (detectRegs b) ∧
    (∀ k < 32, base = 0 → bit new k = true → e.getB b R.FLT_STAT k = true) ∧
    (∀ k, d.getB b R.FLT_STAT k = true → e.getB b R.FLT_STAT k = true) ∧
    (32 ≤ base → e.get b R.FLT_STAT = d.get b R.FLT_STAT) := by
  suffices h : ∀ (l : List Nat) (d : Dev),
      let e := l.foldl (fun (e : Dev) i => if bit new i then e.detect b none (base + i) 0 false (!bit real i) (bit real i) else e) d
      e = { d with regs := e.regs, vecs := e.vecs, fabric := e.fabric } ∧ d.regsKept e (detectRegs b) ∧
      (∀ k ∈ l, k < 32 → base = 0 → bit new k = true → e.getB b R.FLT_STAT k = true) ∧
      (∀ k, d.getB b R.FLT_STAT k = true → e.getB b R.FLT_STAT k = true) ∧
      (32 ≤ base → e.get b R.FLT_STAT = d.get b R.FLT_STAT) by
    obtain ⟨h1, h2, h3, h4, h5⟩ := h (List.range 32) d
    exact ⟨h1, h2, fun k hk => h3 k (List.mem_range.mpr hk) hk, h4, h5⟩
  intro l
  induction l with
  | nil => exact fun d => ⟨rfl, d.regsKept_refl _, fun k hk => absurd hk List.not_mem_nil, fun k hk => hk, fun _ => rfl⟩
  | cons i l ih =>
    intro d
    rw [List.foldl_cons]
    dsimp only
    by_cases hi : bit new i = true
    · rw [if_pos hi]
      have hf := d.detect_frame b none (base + i) 0 false (!bit real i) (bit real i)
      obtain ⟨hr, hw⟩ := d.detect_registers hb none (base + i) 0 false (!bit real i) (bit real i)
      have hs := d.detect_shows hb none (base + i) 0 false (!bit real i) (bit real i)
      have hbit := fun k => d.detect_keeps_bit (k := k) hb none (base + i) 0 false (!bit real i) (bit real i)
      generalize d.detect b none (base + i) 0 false (!bit real i) (bit real i) = x at hf hr hw hs hbit ⊢
      obtain ⟨h1, h2, h3, h4, h5⟩ := ih x
      refine ⟨?_, hr.trans h2, fun k hk hk32 h0 hnew => ?_, fun k hk => h4 k (hbit k hk), fun hbase => (h5 hbase).trans ?_⟩
      · generalize l.foldl _ x = e at h1 ⊢
        exact h1.trans (congrArg (fun y : Dev => { y with regs := e.regs, vecs := e.vecs, fabric := e.fabric }) hf)
      · rcases List.mem_cons.mp hk with rfl | hk
        · refine h4 k ?_
          rw [h0, Nat.zero_add] at hs
          exact hs hk32
        · exact h3 k hk hk32 h0 hnew
      · rw [hw, if_neg (by omega)]
    · rw [if_neg hi]
      obtain ⟨h1, h2, h3, h4, h5⟩ := ih d
      refine ⟨h1, h2, fun k hk hk32 h0 hnew => ?_, h4, h5⟩
      rcases List.mem_cons.mp hk with rfl | hk
      · exact absurd hnew hi
      · exact h3 k hk hk32 h0 hnew

end

/-- CFORCE as BIST_CTL holds it (R439). -/
theorem fld_bistCtl (u v : Word) : fld ((u &&& 3#32) ||| (v &&& fldMask 26 24)) 26 24 = fld v 26 24 := by
  refine congrArg BitVec.toNat (BitVec.eq_of_getLsbD_eq fun i hi => ?_)
  have h3 : i < 3 := hi
  have hl : BitVec.getLsbD 3#32 (24 + i) = false := by
    interval_cases i <;> decide
  have hm : BitVec.getLsbD (fldMask 26 24) (24 + i) = true := by
    interval_cases i <;> decide
  rw [BitVec.getLsbD_extractLsb', BitVec.getLsbD_extractLsb', BitVec.getLsbD_or, BitVec.getLsbD_and, BitVec.getLsbD_and, hl, hm, Bool.and_false,
    Bool.false_or, Bool.and_true]

section
variable {s : State} {b : Blk} {t : BT} {n : Nat} (hb : blkKind b = some (t, n)) (v real : Word)
include hb

theorem exec_forceWrite (ht : s.dev.takes b 0x014) : exec (.faultForce b false v real) s = .next { s with
    dev := (s.dev.put b R.FLT_FORCE (v &&& t.kinds)).forceRaise b 0 (v &&& t.kinds &&& ~~~(s.dev.get b R.FLT_FORCE)) real } := by
  change execFaultForce b false v real s = _
  unfold execFaultForce
  rw [onLive_next _ _ (Dev.takes_live _ _ _ ht), if_neg Bool.false_ne_true, Dev.hostWrite_takes _ _ _ _ ht, Dev.forceWrite, hb]

theorem exec_bistWrite (ht : s.dev.takes b 0x040) : ∃ u : Word, exec (.faultForce b true v real) s = .next { s with
    dev := (s.dev.put b R.BIST_CTL ((u &&& 3#32) ||| (v &&& fldMask 26 24))).forceRaise b 0x80
      (wd (fld v 26 24 &&& (7 - fld (s.dev.get b R.BIST_CTL) 26 24))) real } := by
  refine ⟨if hasBist t then v else s.dev.get b R.BIST_CTL, ?_⟩
  change execFaultForce b true v real s = _
  unfold execFaultForce
  rw [onLive_next _ _ (Dev.takes_live _ _ _ ht), if_pos rfl, Dev.hostWrite_takes _ _ _ _ ht, Dev.bistWrite, hb]
  dsimp only
  split <;> rfl

end

/-! ALIVE and the watchdog. -/

theorem exec_aliveToggle {s : State} (hlive : s.dev.dead = false) (h1 : s.dev.getB fltc R.FLTC_STAT 16 = true)
    (h2 : s.dev.past s.dev.aliveAt 500 = true) :
    exec .aliveToggle s = .next { s with dev := ({ s.dev with alive := !s.dev.alive, aliveAt := s.dev.now }) } := by
  change execAliveToggle s = _
  unfold execAliveToggle
  rw [onLive_next _ _ hlive]
  have hc : (s.dev.getB fltc R.FLTC_STAT 16 && s.dev.past s.dev.aliveAt 500) = true := by rw [h1, h2]; rfl
  exact congrArg (fun e => Host.Outcome.next { s with dev := e }) (Dev.when_of _ _ hc)

theorem exec_restart {s : State} (ht : s.dev.takes fltc 0x120) : exec .restart s = .next { s with
    dev := if s.dev.critAny = false ∧ s.dev.getB fltc R.FLTC_STAT 19 = false ∧ s.dev.ready = true then s.dev.aliveStart else s.dev } := by
  change execRestart s = _
  unfold execRestart
  rw [onLive_next _ _ (Dev.takes_live _ _ _ ht), Dev.hostWrite_takes _ _ _ _ ht, Dev.aliveRestart]
  have hb : bit 1#32 0 = true := by decide
  simp only [hb, true_and, Bool.not_eq_true]

theorem exec_wdogKick {s : State} (v : Word) (ht : s.dev.takes fltc 0x128) : exec (.fltcWdogKick v) s = .next { s with
    dev := (s.dev.wdogKick) } := by
  change execFltcWdogKick v s = _
  unfold execFltcWdogKick
  rw [onLive_next _ _ (Dev.takes_live _ _ _ ht), Dev.hostWrite_takes _ _ _ _ ht]

/-- An expiry is latched and raises kind 1 (R432). -/
def Dev.wdogOut (d : Dev) : Dev :=
  (((d.fltMod fun f => { f with wdogFrom := none }).putB fltc R.FLTC_STAT 19 true).raise fltc none 1).aliveStop

theorem exec_wdogExpired {s : State} (hlive : s.dev.dead = false) (ho : s.dev.wdogOver = true) (hr : s.dev.inReset fltc = false) :
    exec .wdogExpired s = .next { s with dev := s.dev.wdogOut } := by
  change execWdogExpired s = _
  unfold execWdogExpired
  rw [onLive_next _ _ hlive]
  have hc : (s.dev.wdogOver && !s.dev.inReset fltc) = true := by rw [ho, hr]; rfl
  exact congrArg (fun e => Host.Outcome.next { s with dev := e }) (Dev.when_of _ _ hc)

theorem fltc_kind : blkKind fltc = some (.fltc, 0) := by decide

/-- A detection of FLTC itself keeps what FLTC_STAT latches: at most ALIVE's bit changes. -/
theorem Dev.detect_latched (d : Dev) (c : Option Nat) (kind addr : Nat) (trans inj alsof : Bool) {k : Nat} (hk : k ≠ 16)
    (h : d.getB fltc R.FLTC_STAT k = true) : (d.detect fltc c kind addr trans inj alsof).getB fltc R.FLTC_STAT k = true := by
  have hp : ∀ (x : Dev) (w : Word), (x.put fltc R.FLT_STAT w).get fltc R.FLTC_STAT = x.get fltc R.FLTC_STAT :=
    fun x w => x.get_put_off _ _ _ (by decide)
  have hv : ∀ x : Dev, x.getB fltc R.FLTC_STAT k = true → ((x.vector 0).aliveStop).getB fltc R.FLTC_STAT k = true := fun x hx => by
    refine (Dev.getB_putB_other _ _ _ _ _ _ (by decide) hk).trans ?_
    exact (congrArg (bit · k) (x.vector_get (by decide) _ _ (by decide) (by decide))).trans hx
  unfold Dev.detect
  rw [fltc_kind]
  dsimp -zeta only
  extract_lets km own crit was d1 d2
  have h1 : d1.getB fltc R.FLTC_STAT k = true := by
    simp only [d1]
    split
    · exact (congrArg (bit · k) (hp _ _)).trans h
    · exact h
  clear_value d1
  have h2 : d2.getB fltc R.FLTC_STAT k = true := by
    simp only [d2]
    split
    · exact hv _ h1
    · exact h1
  clear_value d2
  split
  · exact h2
  · exact h2

theorem Dev.wdogOut_spec (d : Dev) : let e := d.wdogOut
    e = { d with regs := e.regs, vecs := e.vecs, fabric := e.fabric, flt := { d.flt with wdogFrom := none } } ∧
    e.getB fltc R.FLTC_STAT 19 = true ∧ e.getB fltc R.FLTC_STAT 16 = false ∧ e.getB fltc R.FLT_STAT 1 = true := by
  obtain ⟨x, hx⟩ : ∃ x, x = (d.fltMod fun f => { f with wdogFrom := none }).putB fltc R.FLTC_STAT 19 true := ⟨_, rfl⟩
  have hout : d.wdogOut = (x.raise fltc none 1).aliveStop := by rw [hx]; rfl
  have hfx : x = { d with regs := x.regs, flt := { d.flt with wdogFrom := none } } := by rw [hx]; rfl
  have h19 : x.getB fltc R.FLTC_STAT 19 = true := by
    rw [hx]
    exact Dev.getB_putB_same _ _ _ _ _ _ (by decide)
  clear hx
  have hf : x.raise fltc none 1 = _ := x.detect_frame fltc none 1 0 false false false
  have hl : (x.raise fltc none 1).getB fltc R.FLTC_STAT 19 = true := x.detect_latched _ _ _ _ _ _ (by decide) h19
  have hs : (x.raise fltc none 1).getB fltc R.FLT_STAT 1 = true := x.detect_shows fltc_kind _ _ _ _ _ _ (by decide)
  rw [hout]
  change x.raise fltc none 1 = { x with
    regs := (x.raise fltc none 1).regs, vecs := (x.raise fltc none 1).vecs, fabric := (x.raise fltc none 1).fabric } at hf
  generalize x.raise fltc none 1 = y at hf hl hs
  refine ⟨?_, (Dev.getB_putB_other _ _ _ _ _ _ (by decide) (by decide)).trans hl, Dev.getB_putB_same _ _ _ _ _ _ (by decide),
    (congrArg (bit · 1) (Dev.get_put_off _ _ _ _ (by decide))).trans hs⟩
  have h := hf.trans (congrArg (fun z : Dev => { z with regs := y.regs, vecs := y.vecs, fabric := y.fabric }) hfx)
  exact congrArg (fun z : Dev => { z with regs := y.aliveStop.regs }) h

/-- Settles O52: force bits raise their kinds, and ALIVE, restart, kick and expiry of the watchdog. -/
theorem forcedKindsAliveAndWatchdog : Obligations.ForcedKindsAliveAndWatchdog := by
  unfold Obligations.ForcedKindsAliveAndWatchdog
  refine ⟨fun s b t n v real hb => ⟨fun ht => ?_, fun ht => ?_⟩, fun s hlive h1 h2 => exec_aliveToggle hlive h1 h2, fun s ht => ?_,
    fun s v ht => ?_, fun s hlive ho hr => ⟨_, exec_wdogExpired hlive ho hr, s.dev.wdogOut_spec⟩⟩
  · refine ⟨_, exec_forceWrite hb v real ht, ?_⟩
    have hx : (s.dev.put b R.FLT_FORCE (v &&& t.kinds)).get b R.FLT_FORCE = v &&& t.kinds := Dev.get_put_same _ _ _ _ _ _
    have hf : s.dev.put b R.FLT_FORCE (v &&& t.kinds) = { s.dev with regs := (s.dev.put b R.FLT_FORCE (v &&& t.kinds)).regs } := rfl
    generalize s.dev.put b R.FLT_FORCE (v &&& t.kinds) = x at hx hf ⊢
    obtain ⟨h1, h2, h3, -, -⟩ := x.forceRaise_spec hb 0 (v &&& t.kinds &&& ~~~(s.dev.get b R.FLT_FORCE)) real
    generalize x.forceRaise b 0 (v &&& t.kinds &&& ~~~(s.dev.get b R.FLT_FORCE)) real = e at h1 h2 h3 ⊢
    refine ⟨h1.trans (congrArg (fun y : Dev => { y with regs := e.regs, vecs := e.vecs, fabric := e.fabric }) hf),
      (h2.offDetect b _ 0 0 (by decide)).trans hx, fun k hk hv hold => h3 k hk rfl ?_⟩
    have hold' : BitVec.getLsbD (s.dev.get b R.FLT_FORCE) k = false := hold
    rw [bit, BitVec.getLsbD_and, BitVec.getLsbD_not, hold', show BitVec.getLsbD (v &&& t.kinds) k = true from hv, decide_eq_true hk]
    rfl
  · obtain ⟨u, hexec⟩ := exec_bistWrite hb v real ht
    refine ⟨_, hexec, ?_⟩
    have hx : (s.dev.put b R.BIST_CTL ((u &&& 3#32) ||| (v &&& fldMask 26 24))).getF b R.BIST_CTL 26 24 = fld v 26 24 :=
      (congrArg (fun w => fld w 26 24) (Dev.get_put_same _ _ _ _ _ _)).trans (fld_bistCtl u v)
    have hst : (s.dev.put b R.BIST_CTL ((u &&& 3#32) ||| (v &&& fldMask 26 24))).get b R.FLT_STAT = s.dev.get b R.FLT_STAT :=
      Dev.get_put_off _ _ _ _ (by decide)
    have hf : s.dev.put b R.BIST_CTL ((u &&& 3#32) ||| (v &&& fldMask 26 24)) = { s.dev with
      regs := (s.dev.put b R.BIST_CTL ((u &&& 3#32) ||| (v &&& fldMask 26 24))).regs } := rfl
    generalize s.dev.put b R.BIST_CTL ((u &&& 3#32) ||| (v &&& fldMask 26 24)) = x at hx hf hst ⊢
    obtain ⟨h1, h2, -, -, h5⟩ := x.forceRaise_spec hb 0x80 (wd (fld v 26 24 &&& (7 - fld (s.dev.get b R.BIST_CTL) 26 24))) real
    generalize x.forceRaise b 0x80 _ real = e at h1 h2 h5 ⊢
    exact ⟨h1.trans (congrArg (fun y : Dev => { y with regs := e.regs, vecs := e.vecs, fabric := e.fabric }) hf),
      (congrArg (fun w => fld w 26 24) (h2.offDetect b _ 0 0 (by decide))).trans hx, (h5 (by decide)).trans hst⟩
  · rw [exec_restart ht]
    split
    · exact ⟨_, rfl, rfl, Dev.getB_putB_same _ _ _ _ _ _ (by decide), s.dev.regsKept_putF _ _ _ _ _ 0 0 rfl⟩
    · rfl
  · rw [exec_wdogKick v ht, Dev.wdogKick]
    by_cases hc : s.dev.wdogOver = false ∧ s.dev.getF fltc R.FLTC_WDOG 15 0 ≠ 0 ∧ s.dev.flt.wdogFrom.isSome = true
    · have hno : ¬(s.dev.wdogOver = true ∨ s.dev.getF fltc R.FLTC_WDOG 15 0 = 0 ∨ s.dev.flt.wdogFrom.isNone = true) := by
        obtain ⟨h1, h2, h3⟩ := hc
        rintro (h | h | h)
        · rw [h1] at h
          cases h
        · exact h2 h
        · rw [Option.isNone_iff_eq_none] at h
          rw [h] at h3
          cases h3
      rw [if_neg hno, if_pos hc]
      rfl
    · have hyes : s.dev.wdogOver = true ∨ s.dev.getF fltc R.FLTC_WDOG 15 0 = 0 ∨ s.dev.flt.wdogFrom.isNone = true := by
        by_contra hno
        simp only [not_or, Bool.not_eq_true, Option.isNone_eq_false_iff] at hno
        exact hc hno
      rw [if_neg hc, if_pos hyes]

end Sys2Proof.Machine
end

section
/-! Self-test slices (R433 to R438). -/

namespace Sys2Proof.Machine

/-! Registers by their offsets, in whatever block. -/

/-- No register at an offset in `L` of its page differs. -/
def Dev.ofsKept (L : List Nat) (d e : Dev) : Prop := ∀ (b : Blk) (r : Reg) (i j : Nat), r.ofs i j % 0x1000 ∈ L → e.get b r i j = d.get b r i j

namespace Dev.ofsKept

variable {L : List Nat} {d e f : Dev}

theorem refl (d : Dev) : ofsKept L d d := fun _ _ _ _ _ => rfl

theorem trans (k : ofsKept L d e) (k' : ofsKept L e f) : ofsKept L d f := fun b r i j h => (k' b r i j h).trans (k b r i j h)

theorem ite {c : Prop} [Decidable c] (k : ofsKept L d e) (k' : ofsKept L d f) : ofsKept L d (if c then e else f) := by
  split <;> assumption

variable (k : ofsKept L d e)
include k

theorem beside (h : f.regs = e.regs) : ofsKept L d f := k.trans fun _ _ _ _ _ => Dev.get_of_regs _ _ _ _ (by rw [h])

theorem put (b : Blk) (r : Reg) (v : Word) (i j : Nat) (hr : r.ofs i j % 0x1000 ∉ L) : ofsKept L d (e.put b r v i j) :=
  k.trans fun c q i' j' h => Dev.get_put_ne _ _ _ _ _ _ _ _ _ _ (radr_ne_of_page b c r q i j i' j' fun he => hr (he ▸ h))

theorem detect (hL : ∀ o ∈ L, o ∉ [0x10, 0x104, 0x120]) (b : Blk) (c : Option Nat) (kind addr : Nat) (tr inj al : Bool) :
    ofsKept L d (e.detect b c kind addr tr inj al) := by
  cases hb : blkKind b with
  | none =>
    unfold Dev.detect
    rw [hb]
    exact k
  | some x => exact k.trans fun q r i j h => (e.detect_registers hb c kind addr tr inj al).1.offDetect q r i j (hL _ h)

end Dev.ofsKept

/-- Offsets of BLK_STAT, BIST_STAT and FLTC_BIST_FAILS. -/
def sliceOfs : List Nat := [0x00C, 0x044, 0x198]

theorem Dev.jAppend_sliceOfs (d : Dev) (l : List (Nat × Word × List Byte)) : d.ofsKept sliceOfs (d.jAppend l) := by
  have hs : ∀ x : Dev, x.ofsKept sliceOfs x.jShow := fun x => by
    unfold Dev.jShow
    exact (((((((Dev.ofsKept.refl x).put _ _ _ 0 0 (by decide)).put _ _ _ 0 0 (by decide)).put _ _ _ 0 0 (by decide)).put _ _ _ 0 0 (by decide)).put
      _ _ _ 0 0 (by decide)).put _ _ _ 0 0 (by decide)).put _ _ _ 0 0 (by decide)
  unfold Dev.jAppend Dev.jQueue
  refine .ite (.refl d) ?_
  split
  · exact .refl d
  · split
    · exact ((Dev.ofsKept.refl d).put _ _ _ 0 0 (by decide)).detect (by decide) _ _ _ _ _ _ _
    · have h1 : d.ofsKept sliceOfs (d.jmod fun j => { j with queue := j.queue ++ [⟨l, .device⟩] }) := (Dev.ofsKept.refl d).beside rfl
      exact h1.trans (hs _)

/-! A slice starts. -/

/-- The order in which a scheduler looks at its units. -/
def sliceOrder (turn n : Nat) : List Nat := (List.range n).map fun i => (turn + i) % n

theorem mem_sliceOrder {turn n i : Nat} : i ∈ sliceOrder turn n ↔ i < n := by
  unfold sliceOrder
  rw [List.mem_map]
  constructor
  · rintro ⟨k, hk, rfl⟩
    exact Nat.mod_lt _ (Nat.zero_lt_of_lt (List.mem_range.mp hk))
  · intro hi
    refine ⟨(i + (n - turn % n)) % n, List.mem_range.mpr (Nat.mod_lt _ (by omega)), ?_⟩
    have ht : turn % n < n := Nat.mod_lt _ (by omega)
    have hsum : turn + (i + (n - turn % n)) = i + n * (turn / n + 1) := by
      have := Nat.mod_add_div turn n
      rw [Nat.mul_add]
      omega
    rw [Nat.add_mod_mod, hsum, Nat.add_mul_mod_self_left, Nat.mod_eq_of_lt hi]

/-- The unit tested next: the first idle one after the one tested last (R433, R434). -/
def Dev.sliceNext (d : Dev) (r : Fin 16) : Option Nat :=
  (sliceOrder d.flt.slices[r].turn (d.sliceUnits r).length).find? fun i => match (d.sliceUnits r)[i]? with
    | some u => d.unitIdle ⟨r, Fin.ofNat 64 u.1⟩ u.2
    | none => false

/-- The scheduler of a region turns to a unit, or to none. -/
def Dev.sliceTurn (d : Dev) (r : Fin 16) (u : Option (Nat × Option Nat)) (t : Nat) : Dev :=
  d.fltMod fun f => { f with slices := vmod f.slices r fun y => { y with unit := u, since := d.now, turn := t } }

/-- The slice of a unit runs (R434). -/
def Dev.sliceRun (d : Dev) (r : Fin 16) (u : Nat × Option Nat) (t : Nat) : Dev :=
  let b : Blk := ⟨r, Fin.ofNat 64 u.1⟩
  let d1 := (d.sliceTurn r (some u) t).putB b R.BLK_STAT 2 true
  d1.put b R.BIST_STAT (setFld (setFld (setFld (setFld (d1.get b R.BIST_STAT) 1 0 1) 10 5 ((u.2.getD 0) % 64)) 11 11 u.2.isSome.toNat) 16 12
    (abandons d.flt.slices[r].fails u))

section
variable {s : State} {r : Fin 16}

theorem exec_sliceStart (hlive : s.dev.dead = false) (hr : s.dev.ready = true) (hen : s.dev.getB fltc R.FLTC_BIST_CTL 0 = true)
    (hu : s.dev.flt.slices[r].unit = none) (hg : s.dev.flt.slices[r].since + s.dev.sliceGap ≤ s.dev.now) :
    exec (.sliceStart r) s = .next { s with dev := (match s.dev.sliceNext r with
      | none => s.dev.sliceTurn r none s.dev.flt.slices[r].turn
      | some i => match (s.dev.sliceUnits r)[i]? with
        | none => s.dev
        | some u => s.dev.sliceRun r u ((i + 1) % (s.dev.sliceUnits r).length)) } := by
  change execSliceStart r s = _
  unfold execSliceStart
  rw [onLive_next _ _ hlive]
  have hc : (s.dev.ready && s.dev.getB fltc R.FLTC_BIST_CTL 0 && s.dev.flt.slices[r].unit.isNone &&
      decide (s.dev.flt.slices[r].since + s.dev.sliceGap ≤ s.dev.now)) = true := by
    rw [hr, hen, hu, decide_eq_true hg]
    rfl
  exact congrArg (fun e => Host.Outcome.next { s with dev := e }) ((Dev.when_of _ _ hc).trans rfl)

/-- With no idle unit the scheduler turns to none. -/
theorem Dev.sliceNext_none {d : Dev} (h : d.sliceNext r = none) : ∀ u ∈ d.sliceUnits r, d.unitIdle ⟨r, Fin.ofNat 64 u.1⟩ u.2 = false := by
  intro u hu
  obtain ⟨i, hi, hget⟩ := List.getElem_of_mem hu
  have hn := List.find?_eq_none.mp h i (mem_sliceOrder.mpr hi)
  rw [List.getElem?_eq_getElem hi, hget] at hn
  exact Bool.not_eq_true _ ▸ hn

/-- The unit it turns to is idle. -/
theorem Dev.sliceNext_some {d : Dev} {i : Nat} (h : d.sliceNext r = some i) : ∃ u, (d.sliceUnits r)[i]? = some u ∧ u ∈ d.sliceUnits r ∧
    d.unitIdle ⟨r, Fin.ofNat 64 u.1⟩ u.2 = true := by
  have hi : i < (d.sliceUnits r).length := mem_sliceOrder.mp (List.mem_of_find?_eq_some h)
  have hp := List.find?_some h
  rw [List.getElem?_eq_getElem hi] at hp
  exact ⟨_, List.getElem?_eq_getElem hi, List.getElem_mem hi, hp⟩

theorem Dev.sliceRun_spec (d : Dev) (u : Nat × Option Nat) (t : Nat) : let e := d.sliceRun r u t
    e = { d with
      regs := e.regs
      flt := { d.flt with
        slices := d.flt.slices.set r { d.flt.slices[r] with unit := e.flt.slices[r].unit, since := d.now, turn := e.flt.slices[r].turn } } } ∧
    e.flt.slices[r].unit = some u ∧ e.getB ⟨r, Fin.ofNat 64 u.1⟩ R.BLK_STAT 2 = true ∧ e.getF ⟨r, Fin.ofNat 64 u.1⟩ R.BIST_STAT 1 0 = 1 := by
  have hsl : (d.sliceRun r u t).flt.slices[r] = { d.flt.slices[r] with unit := some u, since := d.now, turn := t } := vmod_same d.flt.slices r _
  refine ⟨?_, congrArg Slice.unit hsl, ?_, ?_⟩
  · rw [hsl]
    rfl
  · exact (congrArg (bit · 2) (Dev.get_put_off _ _ _ _ (by decide))).trans (Dev.getB_putB_same _ _ _ _ _ _ (by decide))
  · refine (congrArg (fun w => fld w 1 0) (Dev.get_put_same _ _ _ _ _ _)).trans ?_
    rw [fld_setFld_ne _ _ _ _ _ _ (by decide) (by decide), fld_setFld_ne _ _ _ _ _ _ (by decide) (by decide),
      fld_setFld_ne _ _ _ _ _ _ (by decide) (by decide), fld_setFld_same _ _ _ _ (by decide) (by decide)]
    rfl

end

end Sys2Proof.Machine
end

section
/-! The end of self-test slices (R435 to R438). -/

namespace Sys2Proof.Machine

/-- The end of a slice: its unit is free (R435). -/
def Dev.sliceFree (d : Dev) (r : Fin 16) (u : Nat × Option Nat) : Dev :=
  let b : Blk := ⟨r, Fin.ofNat 64 u.1⟩
  let d1 := d.fltMod fun f => { f with
    slices := vmod f.slices r fun y => { y with unit := none, cut := none, fails := setAbandons y.fails u 0 } }
  (d1.put b R.BIST_STAT (setFld (setFld (setFld (d1.get b R.BIST_STAT) 1 0 0) 2 2 0) 16 12 0)).putB b R.BLK_STAT 2 false

/-- What the result of the slice of a unit leaves (R437, R438). -/
def Dev.sliceOut (d : Dev) (b : Blk) (c : Option Nat) : SliceResult → Dev
  | .pass => d
  | .fail w k mem again => d.sliceFail b c w k mem again

theorem exec_sliceDone {s : State} {r : Fin 16} {u : Nat × Option Nat} (res : SliceResult) (hlive : s.dev.dead = false)
    (hu : s.dev.flt.slices[r].unit = some u) :
    let b : Blk := ⟨r, Fin.ofNat 64 u.1⟩
    let d := (s.dev.sliceFree r u).sliceOut b u.2 res
    exec (.sliceDone r res) s = .next { s with dev := if u.2.isNone then d.bumpF b R.BIST_STAT 31 20 else d } := by
  change execSliceDone r res s = _
  unfold execSliceDone
  rw [onLive_next _ _ hlive, hu]
  cases res <;> rfl

theorem Dev.sliceFree_spec (d : Dev) (r : Fin 16) (u : Nat × Option Nat) : let b : Blk := ⟨r, Fin.ofNat 64 u.1⟩
    let e := d.sliceFree r u
    e = { d with
      regs := e.regs
      flt := { d.flt with
        slices := d.flt.slices.set r { d.flt.slices[r] with unit := none, cut := none, fails := setAbandons d.flt.slices[r].fails u 0 } } } ∧
    e.flt.slices[r].unit = none ∧ e.getB b R.BLK_STAT 2 = false ∧ e.getF b R.BIST_STAT 1 0 = 0 ∧
    e.getF b R.BIST_STAT 31 20 = d.getF b R.BIST_STAT 31 20 ∧ e.getN fltc R.FLTC_BIST_FAILS = d.getN fltc R.FLTC_BIST_FAILS := by
  intro b e
  obtain ⟨x, hx⟩ : ∃ x : Dev, x = d.fltMod fun f => { f with
    slices := vmod f.slices r fun y => { y with unit := none, cut := none, fails := setAbandons y.fails u 0 } } := ⟨_, rfl⟩
  have he : e = (x.put b R.BIST_STAT (setFld (setFld (setFld (x.get b R.BIST_STAT) 1 0 0) 2 2 0) 16 12 0)).putB b R.BLK_STAT 2 false := by rw [hx]; rfl
  have hw : e.get b R.BIST_STAT = setFld (setFld (setFld (x.get b R.BIST_STAT) 1 0 0) 2 2 0) 16 12 0 := by
    rw [he]
    exact (Dev.get_put_off _ _ _ _ (by decide)).trans (Dev.get_put_same _ _ _ _ _ _)
  have hxw : ∀ c q, x.get c q = d.get c q := fun c q => Dev.get_of_regs _ _ _ _ (by rw [hx]; rfl)
  refine ⟨rfl, congrArg Slice.unit (vmod_same d.flt.slices r _), ?_, ?_, ?_, ?_⟩
  · rw [he]
    exact Dev.getB_putB_same _ _ _ _ _ _ (by decide)
  · rw [Dev.getF, hw, fld_setFld_ne _ _ _ _ _ _ (by decide) (by decide), fld_setFld_ne _ _ _ _ _ _ (by decide) (by decide),
      fld_setFld_same _ _ _ _ (by decide) (by decide)]
    rfl
  · rw [Dev.getF, hw, fld_setFld_ne _ _ _ _ _ _ (by decide) (by decide), fld_setFld_ne _ _ _ _ _ _ (by decide) (by decide),
      fld_setFld_ne _ _ _ _ _ _ (by decide) (by decide), hxw]
    rfl
  · have hk : x.ofsKept [0x198] e := by
      rw [he]
      exact ((Dev.ofsKept.refl x).put _ _ _ 0 0 (by decide)).put _ _ _ 0 0 (by decide)
    exact congrArg BitVec.toNat ((hk fltc _ 0 0 (by decide)).trans (hxw _ _))

/-! A slice that failed. -/

/-- The failure of a unit of block `b` is latched, its scheduler has no unit, and FLTC_BIST_FAILS is `n`. -/
structure Dev.failed (b : Blk) (r : Fin 16) (n : Nat) (e : Dev) : Prop where
  unit : e.flt.slices[r].unit = none
  free : e.getB b R.BLK_STAT 2 = false
  latched : e.getB b R.BIST_STAT 3 = true
  count : e.getN fltc R.FLTC_BIST_FAILS = n

namespace Dev.failed

variable {b : Blk} {r : Fin 16} {n : Nat} {e f : Dev} (h : failed b r n e)
include h

theorem keep (hk : e.ofsKept sliceOfs f) (hs : f.flt.slices = e.flt.slices) : failed b r n f :=
  ⟨by rw [hs]; exact h.unit, (congrArg (bit · 2) (hk b _ 0 0 (by decide))).trans h.free, (congrArg (bit · 3) (hk b _ 0 0 (by decide))).trans h.latched,
    (congrArg BitVec.toNat (hk fltc _ 0 0 (by decide))).trans h.count⟩

theorem put (c : Blk) (q : Reg) (v : Word) (hq : q.ofs 0 0 % 0x1000 ∉ sliceOfs) : failed b r n (e.put c q v) :=
  h.keep ((Dev.ofsKept.refl e).put _ _ _ 0 0 hq) rfl

/-- Another field of BIST_STAT. -/
theorem putF {hi lo : Nat} (v : Nat) (hhi : hi < 32) (hlo : 3 < lo) : failed b r n (e.putF b R.BIST_STAT hi lo v) := by
  have hk : e.ofsKept [0x00C, 0x198] (e.putF b R.BIST_STAT hi lo v) := (Dev.ofsKept.refl e).put _ _ _ 0 0 (by decide)
  exact ⟨h.unit, (congrArg (bit · 2) (hk b _ 0 0 (by decide))).trans h.free,
    (Dev.getB_putF_other _ _ _ _ _ _ hhi (.inl hlo)).trans h.latched, (congrArg BitVec.toNat (hk fltc _ 0 0 (by decide))).trans h.count⟩

theorem jAppend (l : List (Nat × Word × List Byte)) : failed b r n (e.jAppend l) :=
  h.keep (e.jAppend_sliceOfs l) (congrArg Flt.slices ((e.jAppend_changes l).get Dev.flt))

/-- A repair is counted. -/
theorem repaired : failed b r n ((e.putB b R.BIST_STAT 4 true).bump fltc R.FLTC_BIST_REPAIRS) :=
  (h.putF 1 (by decide) (by decide)).put _ _ _ (by decide)

/-- A spare row is mapped where one is left (R438). -/
theorem sliceRepair (c : Option Nat) (word : Nat) : failed b r n (e.sliceRepair b c word) := by
  have hspare : ∀ c : Option Nat, failed b r n (
      let had := e.sparesOf b c
      if word ∈ had ∨ 2 ≤ had.length then e
      else (((e.setSpares b c (had ++ [word])).putB b R.BIST_STAT 4 true).bump fltc R.FLTC_BIST_REPAIRS).jAppend [unitRec b c (had ++ [word])]) :=
    fun c => by
      have h1 : failed b r n (e.setSpares b c (e.sparesOf b c ++ [word])) := ⟨h.unit, h.free, h.latched, h.count⟩
      dsimp only
      split
      · exact h
      · exact h1.repaired.jAppend _
  unfold Dev.sliceRepair
  extract_lets count row spared
  split
  · extract_lets bank had
    split
    · exact h
    · rename_i hroom
      obtain ⟨hrow, hlen⟩ := not_or.mp hroom
      have hnew : ([row].dedup.filter fun r => r ∉ had) = [row] := by
        rw [show [row].dedup = [row] from List.Nodup.dedup (List.nodup_singleton row), List.filter_singleton, decide_eq_true hrow, cond_true]
      have hrep : failed b r n (e.bankRepair bank [row] true).1 := by
        unfold Dev.bankRepair
        dsimp only
        rw [hnew, if_pos (by rw [List.length_append, List.length_singleton]; exact Nat.lt_of_not_le hlen), if_neg (List.cons_ne_nil _ _)]
        have h1 : failed b r n ((e.poolMod fun p => { p with rows := spPut p.rows bank (had ++ [row]) }).bump sramp R.SRAMP_REPAIRED [row].length) :=
          h.keep (((Dev.ofsKept.refl e).beside (f := e.poolMod _) rfl).put _ _ _ 0 0 (by decide)) rfl
        exact h1.jAppend [repairRec bank (had ++ [row])]
      exact hrep.repaired
  · exact hspare _

end Dev.failed

theorem Dev.sliceFail_spec (d : Dev) {b : Blk} {r : Fin 16} (c : Option Nat) (w : BitVec 16) (k : BitVec 7) (mem : Bool)
    (hu : d.flt.slices[r].unit = none) (hf : d.getB b R.BLK_STAT 2 = false) :
    Dev.failed b r (min 0xFFFFFFFF (d.getN fltc R.FLTC_BIST_FAILS + 1)) (d.sliceFail b c w k mem false) := by
  unfold Dev.sliceFail
  extract_lets bt a d1 src d2
  have h1 : Dev.failed b r (min 0xFFFFFFFF (d.getN fltc R.FLTC_BIST_FAILS + 1)) d1 := by
    have hx := (Dev.ofsKept.refl (L := [0x00C, 0x198]) d).put b R.BIST_STAT (setFld (d.get b R.BIST_STAT) 3 3 1) 0 0 (by decide)
    have h3 : (d.putB b R.BIST_STAT 3 true).getB b R.BIST_STAT 3 = true := Dev.getB_putB_same _ _ _ _ _ _ (by decide)
    change d.ofsKept _ (d.putB b R.BIST_STAT 3 true) at hx
    have hfx : (d.putB b R.BIST_STAT 3 true).flt = d.flt := rfl
    simp only [d1]
    generalize d.putB b R.BIST_STAT 3 true = x at hx h3 hfx
    have hy : x.ofsKept sliceOfs (x.raise b c 0x81 a) := (Dev.ofsKept.refl x).detect (by decide) _ _ _ _ _ _ _
    have hfy : (x.raise b c 0x81 a).flt = x.flt := (x.detect_changes _ _ _ _ _ _ _).get Dev.flt
    generalize x.raise b c 0x81 a = y at hy hfy
    have hz : y.ofsKept [0x00C, 0x044] (y.bump fltc R.FLTC_BIST_FAILS) := (Dev.ofsKept.refl y).put _ _ _ 0 0 (by decide)
    refine ⟨?_, ?_, ?_, ?_⟩
    · change y.flt.slices[r].unit = none
      rw [hfy, hfx]
      exact hu
    · exact (congrArg (bit · 2) ((hz b _ 0 0 (by decide)).trans ((hy b _ 0 0 (by decide)).trans (hx b _ 0 0 (by decide))))).trans hf
    · exact (congrArg (bit · 3) ((hz b _ 0 0 (by decide)).trans (hy b _ 0 0 (by decide)))).trans h3
    · exact (y.getN_bump _ _ 0 0).trans (congrArg (fun v => min 0xFFFFFFFF (BitVec.toNat v + 1)) ((hy fltc _ 0 0 (by decide)).trans (hx fltc _ 0 0 (by decide))))
  clear_value d1
  have h2 : Dev.failed b r (min 0xFFFFFFFF (d.getN fltc R.FLTC_BIST_FAILS + 1)) d2 := by
    simp only [d2]
    split
    · exact h1
    · exact (h1.put _ _ _ (by decide)).put _ _ _ (by decide)
  clear_value d2
  rw [if_neg Bool.false_ne_true]
  split
  · exact h2.sliceRepair _ _
  · exact h2

/-! O53. -/

/-- Settles O53: a slice of an idle unit starts, passes or fails. -/
theorem slicesTestIdleUnits : Obligations.SlicesTestIdleUnits := by
  unfold Obligations.SlicesTestIdleUnits
  refine ⟨fun s r hlive hr hen hu hg => ?_, fun s r u hlive hu => ⟨?_, fun w k mem => ?_⟩⟩
  · rw [exec_sliceStart hlive hr hen hu hg]
    cases hn : s.dev.sliceNext r with
    | none =>
      have hsl : (s.dev.sliceTurn r none s.dev.flt.slices[r].turn).flt.slices[r] = { s.dev.flt.slices[r] with unit := none, since := s.dev.now } :=
        vmod_same s.dev.flt.slices r _
      refine ⟨_, rfl, ?_, ?_⟩
      · dsimp only
        rw [hsl]
        rfl
      · dsimp only
        rw [hsl]
        exact ⟨rfl, Dev.sliceNext_none hn⟩
    | some i =>
      obtain ⟨u, hi, hmem, hidle⟩ := Dev.sliceNext_some hn
      obtain ⟨h1, h2, h3, h4⟩ := s.dev.sliceRun_spec (r := r) u ((i + 1) % (s.dev.sliceUnits r).length)
      dsimp only
      rw [hi]
      refine ⟨_, rfl, h1, ?_⟩
      dsimp only
      rw [h2]
      exact ⟨hmem, hidle, h3, h4⟩
  · obtain ⟨h1, -, h3, h4, h5, -⟩ := s.dev.sliceFree_spec r u
    have hexec := exec_sliceDone .pass hlive hu
    dsimp only [Dev.sliceOut] at hexec
    generalize s.dev.sliceFree r u = e at h1 h3 h4 h5 hexec
    split at hexec
    · refine ⟨_, hexec, congrArg (fun y : Dev => { y with regs := (e.bumpF ⟨r, Fin.ofNat 64 u.1⟩ R.BIST_STAT 31 20).regs }) h1,
        (congrArg (bit · 2) (Dev.get_put_off _ _ _ _ (by decide))).trans h3, (Dev.getF_putF_other _ _ _ _ _ _ (by decide) (by decide)).trans h4, fun _ => ?_⟩
      refine (Dev.getF_putF_same _ _ _ _ _ _ (by decide) (by decide)).trans ?_
      rw [h5]
      exact Nat.mod_eq_of_lt (Nat.lt_of_le_of_lt (Nat.min_le_left _ _) (by decide))
    · rename_i hno
      exact ⟨_, hexec, h1, h3, h4, fun hnone => absurd (by rw [hnone]; rfl) hno⟩
  · obtain ⟨-, h2, h3, -, -, h6⟩ := s.dev.sliceFree_spec r u
    have hexec := exec_sliceDone (.fail w k mem false) hlive hu
    dsimp only at hexec
    generalize s.dev.sliceFree r u = e at h2 h3 h6 hexec
    have hf := e.sliceFail_spec u.2 w k mem h2 h3
    change Dev.failed _ _ _ (e.sliceOut ⟨r, Fin.ofNat 64 u.1⟩ u.2 (.fail w k mem false)) at hf
    generalize e.sliceOut ⟨r, Fin.ofNat 64 u.1⟩ u.2 (.fail w k mem false) = x at hf hexec
    have hfin : Dev.failed ⟨r, Fin.ofNat 64 u.1⟩ r (min 0xFFFFFFFF (e.getN fltc R.FLTC_BIST_FAILS + 1))
        (if u.2.isNone then x.bumpF ⟨r, Fin.ofNat 64 u.1⟩ R.BIST_STAT 31 20 else x) := by
      split
      · exact hf.putF _ (by decide) (by decide)
      · exact hf
    exact ⟨_, hexec, hfin.unit, hfin.free, hfin.latched, hfin.count.trans (by rw [h6])⟩

end Sys2Proof.Machine
end

section
/-! SUPPORT. What work of THERM leaves alone (R445 to R448): sensor words, thresholds, events once set, AON and BOOT. -/

namespace Sys2Proof.Machine

theorem therm_kind : blkKind therm = some (.therm, 0) := by decide
theorem therm_ne_hif : therm ≠ hif := by decide
theorem therm_ne_fltc : therm ≠ fltc := by decide
theorem apart_therm : Apart (pageOf therm) := apart_page (t := .therm) (n := 0) (by decide) (by decide)
theorem apart_aon : Apart (pageOf aon) := apart_page (t := .aon) (n := 0) (by decide) (by decide)
theorem apart_boot : Apart (pageOf bootB) := apart_page (t := .boot) (n := 0) (by decide) (by decide)
theorem clear_therm_aon : Clear (pageOf aon) therm := fun _ => by decide
theorem clear_therm_boot : Clear (pageOf bootB) therm := fun _ => by decide

/-- A register of the block whose bits, once set, stay. -/
def Dev.bitsKept (b : Blk) (r : Reg) (d e : Dev) : Prop := ∀ k, d.getB b r k = true → e.getB b r k = true

theorem Dev.bitsKept.of_get {b : Blk} {r : Reg} {d e : Dev} (h : e.get b r = d.get b r) : Dev.bitsKept b r d e := fun k hk =>
  (congrArg (bit · k) h).trans hk

theorem Dev.bitsKept.of_or {b : Blk} {r : Reg} {d e : Dev} {m : Word} (h : e.get b r = d.get b r ||| m) : Dev.bitsKept b r d e := fun k hk => by
  rw [Dev.getB, h, bit, BitVec.getLsbD_or, show BitVec.getLsbD (d.get b r) k = true from hk, Bool.true_or]

/-- Offsets of THERM that its own work writes: FLT_STAT, THERM_STAT, THERM_MAX and THERM_EVT. -/
def thermOfs : List Nat := [0x010, 0x104, 0x120, 0x124]

/-- What THERM has measured stays, and so does what it has reported. -/
structure Dev.thermKeeps (d e : Dev) : Prop where
  page : d.pageKept therm thermOfs e
  events : d.bitsKept therm R.THERM_EVT e
  faults : d.bitsKept therm R.FLT_STAT e
  sns : e.thm.sns = d.thm.sns

/-- And AON and BOOT have not changed. -/
structure Dev.thermQuiet (d e : Dev) : Prop where
  work : d.thermKeeps e
  aon : d.pageKept aon [] e
  boot : d.pageKept bootB [] e

theorem Dev.thermKeeps.refl (d : Dev) : d.thermKeeps d := ⟨.refl d, fun _ h => h, fun _ h => h, rfl⟩

theorem Dev.thermKeeps.trans {d e f : Dev} (h : d.thermKeeps e) (h' : e.thermKeeps f) : d.thermKeeps f :=
  ⟨h.page.trans h'.page, fun k hk => h'.events k (h.events k hk), fun k hk => h'.faults k (h.faults k hk), h'.sns.trans h.sns⟩

/-- The word of a sensor. -/
theorem Dev.thermKeeps.snsWord {d e : Dev} (h : d.thermKeeps e) (s : Fin 64) : e.get therm R.THERM_SNS s.val = d.get therm R.THERM_SNS s.val := by
  have ho : ∀ s : Fin 64, R.THERM_SNS.ofs s.val 0 < 0x1000 ∧ R.THERM_SNS.ofs s.val 0 ∉ thermOfs := by decide
  exact h.page R.THERM_SNS s.val 0 (ho s).1 (ho s).2

theorem Dev.thermKeeps.snsSt {d e : Dev} (h : d.thermKeeps e) {s : Nat} (hs : s < 64) : e.snsSt s = d.snsSt s :=
  congrArg (fun w => fld w 14 12) (h.snsWord ⟨s, hs⟩)

/-- The whole page kept, and the sensors. -/
theorem Dev.thermKeeps.of_page {d e : Dev} (h : d.pageKept therm [] e) (hs : e.thm.sns = d.thm.sns) : d.thermKeeps e :=
  ⟨h.mono (List.nil_subset _), .of_get (h _ 0 0 (by decide) (by decide)), .of_get (h _ 0 0 (by decide) (by decide)), hs⟩

theorem Dev.aside.pageKept {b : Blk} {F : List Part} {d e : Dev} (k : Dev.aside (pageOf b) F d e) : d.pageKept b [] e := fun q i j ho _ => k.page q i j ho

/-- A fault of THERM's own. -/
theorem Dev.thermKeeps.raised (d : Dev) (c : Option Nat) (kind addr : Nat) (tr inj al : Bool) : d.thermKeeps (d.detect therm c kind addr tr inj al) := by
  refine ⟨(Dev.pageKept.refl d).detect therm_ne_hif therm_ne_fltc _ _ _ _ _ _ (by decide), ?_, fun k hk => d.detect_keeps_bit therm_kind _ _ _ _ _ _ hk,
    congrArg Thm.sns ((d.detect_changes _ _ _ _ _ _ _).get Dev.thm)⟩
  exact .of_get (((Dev.pageKept.refl (L := [0x010]) d).detect therm_ne_hif therm_ne_fltc _ _ _ _ _ _ (by decide)) _ 0 0 (by decide) (by decide))

namespace Dev.thermQuiet

variable {d e f : Dev}

theorem refl (d : Dev) : d.thermQuiet d := ⟨.refl d, .refl d, .refl d⟩

theorem trans (h : d.thermQuiet e) (h' : e.thermQuiet f) : d.thermQuiet f :=
  ⟨h.work.trans h'.work, h.aon.trans h'.aon, h.boot.trans h'.boot⟩

theorem ite {c : Prop} [Decidable c] (h : d.thermQuiet e) (h' : d.thermQuiet f) : d.thermQuiet (if c then e else f) := by
  split <;> assumption

/-- Work elsewhere. -/
theorem of_aside {F : List Part} (h : ∀ w, Apart w → d.aside w F e) (hs : e.thm.sns = d.thm.sns) : d.thermQuiet e :=
  ⟨.of_page (h _ apart_therm).pageKept hs, (h _ apart_aon).pageKept, (h _ apart_boot).pageKept⟩

/-- No register differs. -/
theorem of_regs (h : e.regs = d.regs) (hs : e.thm.sns = d.thm.sns) : d.thermQuiet e := ⟨.of_page (.of_regs h) hs, .of_regs h, .of_regs h⟩

/-- A register of a block at an offset that is kept nowhere. -/
theorem of_put (d : Dev) {b : Blk} (hb : b ≠ therm ∧ b ≠ Machine.aon ∧ b ≠ bootB) (r : Reg) (v : Word) (i j : Nat) (hr : r.ofs i j < 0x1000) :
    d.thermQuiet (d.put b r v i j) :=
  ⟨.of_page ((Dev.pageKept.refl d).putOther hb.1 r v i j hr) rfl, (Dev.pageKept.refl d).putOther hb.2.1 r v i j hr, (Dev.pageKept.refl d).putOther hb.2.2 r v i j hr⟩

/-- THERM_STAT or THERM_MAX. -/
theorem own (d : Dev) (r : Reg) (v : Word) (hr : r.ofs 0 0 ∈ [0x104, 0x120]) : d.thermQuiet (d.put therm r v) := by
  have hr' : r.ofs 0 0 < 0x1000 := (by decide : ∀ o ∈ [0x104, 0x120], o < 0x1000) _ hr
  have hk := (Dev.pageKept.refl (L := [0x104, 0x120]) d).put (b := therm) r v 0 0 hr
  exact ⟨⟨hk.mono (by decide), .of_get (hk _ 0 0 (by decide) (by decide)), .of_get (hk _ 0 0 (by decide) (by decide)), rfl⟩,
    (Dev.pageKept.refl d).putOther (by decide) r v 0 0 hr', (Dev.pageKept.refl d).putOther (by decide) r v 0 0 hr'⟩

theorem event (d : Dev) (k : Nat) : d.thermQuiet (d.thermEvent k) := by
  have hk := (Dev.pageKept.refl (L := [0x124]) d).event therm_ne_hif R.THERM_EVT R.THERM_EVT_EN (wd (2 ^ k)) (v := 3) (by decide) 0 (by decide)
  refine ⟨⟨hk.mono (by decide), .of_or (d.event_get _ _ (by decide) therm_ne_hif (by decide)), .of_get (hk _ 0 0 (by decide) (by decide)),
    congrArg Thm.sns ((d.event_changes _ _ _ _ _ _).get Dev.thm)⟩, ?_, ?_⟩
  · exact ((Dev.aside.refl (F := [.regs, .vecs]) d).event clear_therm_aon apart_aon (by decide) (by decide) (by decide)).pageKept
  · exact ((Dev.aside.refl (F := [.regs, .vecs]) d).event clear_therm_boot apart_boot (by decide) (by decide) (by decide)).pageKept

theorem raised (d : Dev) (c : Option Nat) (kind addr : Nat) (tr inj al : Bool) : d.thermQuiet (d.detect therm c kind addr tr inj al) :=
  ⟨.raised d _ _ _ _ _ _,
    ((Dev.aside.refl (F := [.regs, .vecs, .fabric]) d).detect clear_therm_aon apart_aon (by decide)).pageKept,
    ((Dev.aside.refl (F := [.regs, .vecs, .fabric]) d).detect clear_therm_boot apart_boot (by decide)).pageKept⟩

end Dev.thermQuiet

end Sys2Proof.Machine
end

section
/-! The device level (R447, R448) and what a sample of a sensor does (R445, R446). -/

namespace Sys2Proof.Machine

/-! The level. -/

theorem Dev.levelNow_congr {d e : Dev} (h : ∀ s, s < 64 → e.snsSt s = d.snsSt s) : e.levelNow = d.levelNow :=
  List.foldl_ext _ _ _ fun n s hs => by rw [h s (List.mem_range.mp hs)]

theorem Dev.levelNow_lt (d : Dev) : d.levelNow < 8 := by
  have h : ∀ (l : List Nat) (n : Nat), n < 8 → l.foldl (fun n s => max n (if d.snsSt s = 4 then 2 else d.snsSt s)) n < 8 := by
    intro l
    induction l with
    | nil => exact fun _ hn => hn
    | cons s l ih =>
      refine fun n hn => ih _ (max_lt hn ?_)
      split
      · decide
      · exact fld_lt _ 14 12
  exact h _ 0 (by decide)

/-- Quiet work that leaves THERM_STAT.LEVEL. -/
def Dev.levelKeeps (d e : Dev) : Prop := d.thermQuiet e ∧ e.getF therm R.THERM_STAT 6 4 = d.getF therm R.THERM_STAT 6 4

namespace Dev.levelKeeps

variable {d e f : Dev}

theorem refl (d : Dev) : d.levelKeeps d := ⟨.refl d, rfl⟩

theorem trans (h : d.levelKeeps e) (h' : e.levelKeeps f) : d.levelKeeps f := ⟨h.1.trans h'.1, h'.2.trans h.2⟩

variable (h : d.levelKeeps e)
include h

/-- Another field of THERM_STAT. -/
theorem stat {hi lo : Nat} (n : Nat) (hh : hi < 32) (hd : hi < 4 ∨ 6 < lo) : d.levelKeeps (e.putF therm R.THERM_STAT hi lo n) :=
  h.trans ⟨.own e _ _ (by decide), Dev.getF_putF_other _ _ _ _ _ _ hh (hd.symm)⟩

theorem lat {r : Reg} (v : Word) (hr : r.ofs 0 0 < 0x1000) : d.levelKeeps (e.put (blk .lattice 0) r v) :=
  h.trans ⟨.of_put e (by decide) r v 0 0 hr, congrArg (fun w => fld w 6 4) (Dev.get_put_ne _ _ _ _ _ _ _ _ _ _
    (radr_ne_of_blk _ _ _ _ _ _ _ _ (by decide) (by decide) hr))⟩

theorem event (k : Nat) : d.levelKeeps (e.thermEvent k) := by
  refine h.trans ⟨.event e k, congrArg (fun w => fld w 6 4) ?_⟩
  exact ((Dev.pageKept.refl (L := [0x124]) e).event therm_ne_hif _ _ _ (by decide) 0 (by decide)) _ 0 0 (by decide) (by decide)

/-- The rest of THERM's state, but not its sensors. -/
theorem thm (hr : f.regs = e.regs) (hs : f.thm.sns = e.thm.sns) : d.levelKeeps f :=
  h.trans ⟨.of_regs hr hs, congrArg (fun w => fld w 6 4) (Dev.get_of_regs _ _ _ _ (by rw [hr]))⟩

theorem setJ (j : Nat) (a : Bool) : d.levelKeeps (e.setJ j a) := by
  have h1 : d.levelKeeps { e with thm := { e.thm with modeA := a, jAt := e.now } } := h.thm rfl rfl
  exact ((h1.stat j (by decide) (by decide)).lat _ (by decide)).lat _ (by decide)

theorem throttleRise : d.levelKeeps e.throttleRise := by
  unfold Dev.throttleRise
  dsimp only
  have h1 : d.levelKeeps ((e.putB therm R.THERM_STAT 8 true).thermEvent 3) := (h.stat 1 (by decide) (by decide)).event 3
  split
  · exact h.setJ 7 true
  · split
    · exact (h1.setJ 7 true).event 4
    · generalize (e.putB therm R.THERM_STAT 8 true).thermEvent 3 = x at h1 ⊢
      have h2 : d.levelKeeps { x with thm := { x.thm with grace := some x.now } } := h1.thm rfl rfl
      exact h2.stat 1 (by decide) (by decide)

end Dev.levelKeeps

/-- The level evaluated is shown (R447). -/
theorem Dev.levelEval_spec (d : Dev) : d.thermQuiet d.levelEval ∧ d.levelEval.getF therm R.THERM_STAT 6 4 = d.levelNow := by
  unfold Dev.levelEval
  extract_lets was l broken d1
  have h1 : d.thermQuiet d1 := (Dev.thermQuiet.own d _ _ (by decide)).trans (.own _ _ _ (by decide))
  have hl : d1.getF therm R.THERM_STAT 6 4 = l := by
    refine (Dev.getF_putF_other _ _ _ _ _ _ (by decide) (by decide)).trans ((Dev.getF_putF_same _ _ _ _ _ _ (by decide) (by decide)).trans ?_)
    exact Nat.mod_eq_of_lt d.levelNow_lt
  have hkeep : ∀ {e : Dev}, d1.levelKeeps e → d.thermQuiet e ∧ e.getF therm R.THERM_STAT 6 4 = l := fun hk => ⟨h1.trans hk.1, hk.2.trans hl⟩
  split
  · exact hkeep (Dev.levelKeeps.refl d1).throttleRise
  · split
    · have h3 : d1.levelKeeps { d1 with thm := { d1.thm with fellAt := d1.now, grace := none } } := (Dev.levelKeeps.refl d1).thm rfl rfl
      exact hkeep (((h3.stat 0 (by decide) (by decide)).stat 0 (by decide) (by decide)).event 2)
    · exact hkeep (.refl d1)

/-! Quiet work after a sample. -/

theorem Dev.snsMax_quiet (d : Dev) : d.thermQuiet d.snsMax := .own d _ _ (by decide)

theorem Dev.jHold_quiet (d : Dev) : d.thermQuiet d.jHold := by
  have hp : ∀ (x : Dev) (r : Reg) (v : Word), r.ofs 0 0 < 0x1000 → x.thermQuiet (x.put jrnl r v) := fun x r v hr => .of_put x (by decide) r v 0 0 hr
  unfold Dev.jHold
  dsimp only
  split
  · refine .ite ?_ (hp d _ _ (by decide))
    have h1 := hp d R.JRNL_STAT (setFld (d.get jrnl R.JRNL_STAT) 3 3 0) (by decide)
    have h2 : (d.putB jrnl R.JRNL_STAT 3 false).thermQuiet ((d.putB jrnl R.JRNL_STAT 3 false).jmod fun j => { j with doff := true, want := false }) :=
      .of_regs rfl rfl
    exact h1.trans (h2.trans (hp _ _ _ (by decide)))
  · refine .ite (.refl d) ((hp d R.JRNL_STAT (setFld (d.get jrnl R.JRNL_STAT) 3 3 1) (by decide)).trans (e := d.putB jrnl R.JRNL_STAT 3 true) (.of_aside (F := [.regs, .vecs]) (fun w hw => ?_) ?_))
    · exact (Dev.aside.refl _).event hw.jrnl hw (by decide) (by decide) (by decide)
    · exact congrArg Thm.sns ((Dev.event_changes _ _ _ _ _ _ _).get Dev.thm)

theorem bchg_apart (k : Fin 8) : blk .bchg k.val ≠ therm ∧ blk .bchg k.val ≠ aon ∧ blk .bchg k.val ≠ bootB := by
  revert k
  decide

theorem Dev.devStart_quiet (d : Dev) (k : Fin 8) (code tag param : Nat) : d.thermQuiet (d.devStart (blk .bchg k.val) code tag param) := by
  have hb := bchg_apart k
  unfold Dev.devStart Dev.opStart
  split
  · exact .refl d
  · split
    · exact .refl d
    · dsimp only
      have h1 : d.thermQuiet (d.abandonSlice (blk .bchg k.val) true) := by
        have hc := d.abandonSlice_changes (blk .bchg k.val) true
        generalize d.abandonSlice (blk .bchg k.val) true = x at hc
        exact .of_regs (hc.get Dev.regs) (congrArg Thm.sns (hc.get Dev.thm))
      have hpart : ∀ (l : List Nat) (x : Dev), (∀ i ∈ l, i < 6) → d.thermQuiet x → d.thermQuiet (l.foldl (fun e i => e.opPart (blk .bchg k.val) i 0) x) := by
        intro l
        induction l with
        | nil => exact fun _ _ hx => hx
        | cons i l ih =>
          refine fun x hi hx => ih _ (fun j hj => hi j (.tail _ hj)) (hx.trans (.of_put x hb _ _ _ _ ?_))
          have := hi i (.head _)
          change 0x28 + 4 * i + 0 * 0 < 0x1000
          omega
      have h2 : ∀ v : Word, d.thermQuiet ((d.abandonSlice (blk .bchg k.val) true).put (blk .bchg k.val) R.OP_STAT v) := fun v =>
        h1.trans (.of_put _ hb R.OP_STAT v 0 0 (by decide))
      rename_i t _ _
      have h3 := hpart (List.range 6) _ (fun i hi => List.mem_range.mp hi) (h2 (if decide (code ∈ opCodes t) = true then opWord 1 0 0 tag else opWord 4 0 1 tag))
      generalize (List.range 6).foldl _ _ = y at h3 ⊢
      exact h3.trans (.of_regs rfl rfl)

theorem Dev.tempRule_quiet (d : Dev) (s : Nat) (hs : s < 64) (r : Int) (p : List Instr) : d.thermQuiet (d.tempRule s r p) := by
  unfold Dev.tempRule
  dsimp only
  split
  · exact .refl d
  · exact .ite (d.devStart_quiet ⟨(s - 16) / 6, by omega⟩ 1 0xFF 0) (.refl d)

end Sys2Proof.Machine
end

section
/-! Samples of the sensors (R444 to R446). -/

namespace Sys2Proof.Machine

/-- A sensor's word is read and its counters go on. -/
def Dev.snsBase (d : Dev) (s : Fin 64) (r : Int) : Dev :=
  let d0 := if d.snsSt s.val ≠ 4 ∧ d.thm.sns[s].bad = 1 then d.raiseTrans therm (some s.val) 0 (uns 12 r) else d
  ((d0.putF therm R.THERM_SNS 11 0 (uns 12 r) s.val).snsMod s fun x => { x with bad := 0 }).snsCount s r

theorem snsOfs (s : Fin 64) : R.THERM_SNS.ofs s.val 0 < 0x1000 := by
  revert s
  decide

theorem snsOfs_ne {s j : Fin 64} (h : j ≠ s) : radr therm R.THERM_SNS j.val ≠ radr therm R.THERM_SNS s.val := by
  refine radr_ne_of_ofs _ _ _ _ _ _ _ ?_
  have : j.val ≠ s.val := fun he => h (Fin.ext he)
  change 0x200 + 4 * j.val + 0 * 0 ≠ 0x200 + 4 * s.val + 0 * 0
  omega

/-- AON and BOOT are as before. -/
def Dev.keptBeside (d e : Dev) : Prop := d.pageKept aon [] e ∧ d.pageKept bootB [] e

/-- The word of a sensor is another; no other of THERM's sensors changes. -/
structure Dev.sampled (d : Dev) (s : Fin 64) (w : Word) (e : Dev) : Prop where
  word : e.get therm R.THERM_SNS s.val = w
  others : ∀ j : Fin 64, j ≠ s → e.get therm R.THERM_SNS j.val = d.get therm R.THERM_SNS j.val
  beside : d.keptBeside e

theorem Dev.thermQuiet.sampled {d e : Dev} (h : d.thermQuiet e) (s : Fin 64) : d.sampled s (d.get therm R.THERM_SNS s.val) e :=
  ⟨h.work.snsWord s, fun j _ => h.work.snsWord j, h.aon, h.boot⟩

theorem Dev.sampled.quiet {d e f : Dev} {s : Fin 64} {w : Word} (h : d.sampled s w e) (k : e.thermQuiet f) : d.sampled s w f :=
  ⟨(k.work.snsWord s).trans h.word, fun j hj => (k.work.snsWord j).trans (h.others j hj), h.beside.1.trans k.aon, h.beside.2.trans k.boot⟩

theorem Dev.sampled.putF {d e : Dev} {s : Fin 64} {w : Word} (h : d.sampled s w e) (hi lo n : Nat) :
    d.sampled s (setFld w hi lo n) (e.putF therm R.THERM_SNS hi lo n s.val) :=
  ⟨(Dev.get_put_same _ _ _ _ _ _).trans (congrArg (setFld · hi lo n) h.word),
    fun j hj => (Dev.get_put_ne _ _ _ _ _ _ _ _ _ _ (snsOfs_ne hj)).trans (h.others j hj),
    h.beside.1.putOther (by decide) _ _ _ _ (snsOfs s), h.beside.2.putOther (by decide) _ _ _ _ (snsOfs s)⟩

theorem Dev.sampled.snsMod {d e : Dev} {s : Fin 64} {w : Word} (h : d.sampled s w e) (f : Sns → Sns) : d.sampled s w (e.snsMod s f) :=
  ⟨h.word, h.others, h.beside⟩

theorem Dev.snsBase_spec (d : Dev) (s : Fin 64) (r : Int) : let e := d.snsBase s r
    d.sampled s (setFld (d.get therm R.THERM_SNS s.val) 11 0 (uns 12 r)) e ∧ e.thm.sns[s].bad = 0 ∧
    ∀ l : Fin 3, e.thm.sns[s].above[l] = if d.snsThr s.val (l.val + 1) ≤ r then d.thm.sns[s].above[l] + 1 else 0 := by
  intro e
  obtain ⟨x, hx⟩ : ∃ x, x = if d.snsSt s.val ≠ 4 ∧ d.thm.sns[s].bad = 1 then d.raiseTrans therm (some s.val) 0 (uns 12 r) else d := ⟨_, rfl⟩
  have he : e = ((x.putF therm R.THERM_SNS 11 0 (uns 12 r) s.val).snsMod s fun x => { x with bad := 0 }).snsCount s r := by rw [hx]; rfl
  have hq : d.thermQuiet x := by
    rw [hx]
    split
    · exact .raised d _ _ _ _ _ _
    · exact .refl d
  clear hx
  clear_value e
  have hthr : ∀ l, (x.putF therm R.THERM_SNS 11 0 (uns 12 r) s.val).snsThr s.val l = d.snsThr s.val l := fun l => by
    have h1 : (x.putF therm R.THERM_SNS 11 0 (uns 12 r) s.val).get therm R.THERM_SNS_THR s.val = x.get therm R.THERM_SNS_THR s.val :=
      Dev.get_put_ne _ _ _ _ _ _ _ _ _ _ (radr_ne_of_ofs _ _ _ _ _ _ _ (by
        have := s.isLt
        change 0x400 + 4 * s.val + 0 * 0 ≠ 0x200 + 4 * s.val + 0 * 0
        omega))
    have h2 : x.get therm R.THERM_SNS_THR s.val = d.get therm R.THERM_SNS_THR s.val := by
      have ho : ∀ s : Fin 64, R.THERM_SNS_THR.ofs s.val 0 < 0x1000 ∧ R.THERM_SNS_THR.ofs s.val 0 ∉ thermOfs := by decide
      exact hq.work.page _ _ 0 (ho s).1 (ho s).2
    exact congrArg (fun w => 4 * (fld w (8 * l - 1) (8 * l - 8) : Int)) (h1.trans h2)
  have hsns : x.thm.sns = d.thm.sns := hq.work.sns
  have hs1 : d.sampled s (setFld (d.get therm R.THERM_SNS s.val) 11 0 (uns 12 r)) (x.putF therm R.THERM_SNS 11 0 (uns 12 r) s.val) :=
    (hq.sampled s).putF 11 0 (uns 12 r)
  have hn1 : (x.putF therm R.THERM_SNS 11 0 (uns 12 r) s.val).thm = x.thm := rfl
  generalize x.putF therm R.THERM_SNS 11 0 (uns 12 r) s.val = y at he hthr hs1 hn1
  obtain ⟨z, hz⟩ : ∃ z, z = y.snsMod s fun x => { x with bad := 0 } := ⟨_, rfl⟩
  have hz1 : d.sampled s (setFld (d.get therm R.THERM_SNS s.val) 11 0 (uns 12 r)) z := by
    rw [hz]
    exact hs1.snsMod _
  have hz2 : z.thm.sns[s] = { d.thm.sns[s] with bad := 0 } := by
    rw [hz]
    refine (vmod_same y.thm.sns s _).trans ?_
    rw [hn1, hsns]
  have hz3 : ∀ l, z.snsThr s.val l = d.snsThr s.val l := fun l => by
    rw [hz]
    exact hthr l
  rw [← hz] at he
  have hsn : e.thm.sns[s] = { z.thm.sns[s] with
      above := z.thm.sns[s].above.mapIdx fun i n => if z.snsThr s.val (i + 1) ≤ r then n + 1 else 0
      below := z.thm.sns[s].below.mapIdx fun i n => if r ≤ z.snsThr s.val (i + 1) - z.snsHyst s.val then n + 1 else 0 } := by
    rw [he]
    exact vmod_same z.thm.sns s _
  refine ⟨?_, ?_, fun l => ?_⟩
  · rw [he]
    exact hz1.snsMod _
  · rw [hsn, hz2]
  · rw [hsn]
    refine (Vector.getElem_mapIdx l.isLt).trans ?_
    rw [hz3, hz2]
    rfl

/-- A sensor that no threshold reaches stays at level 0. -/
theorem Sns.rise_none {x : Sns} {st : Nat} (h : ∀ l : Fin 3, x.above[l] = 0) : x.rise st = none := by
  have hz : ∀ i < 3, x.above.toList.getD i 0 = 0 := fun i hi => by
    rw [List.getD_eq_getElem _ _ (by rw [Vector.length_toList]; exact hi), Vector.getElem_toList]
    exact h ⟨i, hi⟩
  unfold Sns.rise
  refine List.find?_eq_none.mpr fun l hl => ?_
  have hl3 : l - 1 < 3 := (by decide : ∀ l ∈ [3, 2, 1], l - 1 < 3) l hl
  rw [hz _ hl3]
  simp

theorem Sns.rise_shutdown {x : Sns} {st : Nat} (hst : st < 3) (h : 8 ≤ x.above[(2 : Fin 3)]) : x.rise st = some 3 := by
  have h2 : x.above.toList.getD 2 0 = x.above[(2 : Fin 3)] := by
    rw [List.getD_eq_getElem _ _ (by rw [Vector.length_toList]; decide), Vector.getElem_toList]
    rfl
  unfold Sns.rise
  refine List.find?_cons_of_pos ?_
  rw [show (3 : Nat) - 1 = 2 from rfl, h2]
  exact decide_eq_true ⟨hst, h⟩

theorem Dev.snsGood_eq (d : Dev) (s : Fin 64) (r : Int) (h4 : d.snsSt s.val ≠ 4) : d.snsGood s r = match (d.snsBase s r).thm.sns[s].rise (d.snsSt s.val) with
    | some l => (d.snsBase s r).snsTo s l true r
    | none => if (d.snsBase s r).thm.sns[s].fall (d.snsSt s.val) = d.snsSt s.val then d.snsBase s r
      else (d.snsBase s r).snsTo s ((d.snsBase s r).thm.sns[s].fall (d.snsSt s.val)) false r := by
  unfold Dev.snsGood
  exact if_neg h4

/-- A reading below the thresholds of a sensor at level 0. -/
theorem Dev.snsGood_low (d : Dev) (s : Fin 64) (r : Int) (h0 : d.snsSt s.val = 0) (hr : ∀ l, l = 1 ∨ l = 2 ∨ l = 3 → r < d.snsThr s.val l) :
    let e := d.snsGood s r
    d.sampled s (setFld (d.get therm R.THERM_SNS s.val) 11 0 (uns 12 r)) e ∧ e.thm.sns[s].bad = 0 ∧ ∀ l : Fin 3, e.thm.sns[s].above[l] = 0 := by
  obtain ⟨h1, h2, h3⟩ := d.snsBase_spec s r
  have hz : ∀ l : Fin 3, (d.snsBase s r).thm.sns[s].above[l] = 0 := fun l => by
    rw [h3 l, if_neg (Int.not_le.mpr (hr _ (by have := l.isLt; omega)))]
  have he : d.snsGood s r = d.snsBase s r := by
    rw [d.snsGood_eq s r (by rw [h0]; decide), Sns.rise_none hz, h0]
    exact if_pos rfl
  dsimp only
  rw [he]
  exact ⟨h1, h2, hz⟩

/-- The eighth reading in a row at the shutdown threshold. -/
theorem Dev.snsGood_hot (d : Dev) (s : Fin 64) (r : Int) (hst : d.snsSt s.val < 3) (hr : d.snsThr s.val 3 ≤ r) (h7 : 7 ≤ d.thm.sns[s].above[(2 : Fin 3)]) :
    d.sampled s (setFld (setFld (d.get therm R.THERM_SNS s.val) 11 0 (uns 12 r)) 14 12 3) (d.snsGood s r) := by
  obtain ⟨h1, -, h3⟩ := d.snsBase_spec s r
  have h8 : 8 ≤ (d.snsBase s r).thm.sns[s].above[(2 : Fin 3)] := by
    have h := h3 2
    rw [if_pos (show d.snsThr s.val ((2 : Fin 3).val + 1) ≤ r from hr)] at h
    omega
  have he : d.snsGood s r = (d.snsBase s r).putF therm R.THERM_SNS 14 12 3 s.val := by
    rw [d.snsGood_eq s r (by omega), Sns.rise_shutdown hst h8]
    unfold Dev.snsTo
    dsimp only
    rw [if_neg (by decide)]
  rw [he]
  exact h1.putF 14 12 3

/-- The second sample in a row that is not valid. -/
theorem Dev.snsBad_broken (d : Dev) (s : Fin 64) (c : Nat) (r : Int) (h4 : d.snsSt s.val ≠ 4) (hb : 1 ≤ d.thm.sns[s].bad) : let e := d.snsBad s c r
    e.get therm R.THERM_SNS s.val = setFld (setFld (d.get therm R.THERM_SNS s.val) 17 16 c) 14 12 4 ∧ e.getB therm R.THERM_EVT 5 = true ∧
    e.getB therm R.FLT_STAT 0 = true := by
  obtain ⟨x, hx⟩ : ∃ x, x = ((d.snsMod s fun x => { x with bad := min (d.thm.sns[s].bad + 1) 2, good := 0 }).putF therm R.THERM_SNS 17 16 c s.val).putF therm
    R.THERM_SNS 14 12 4 s.val := ⟨_, rfl⟩
  have he : d.snsBad s c r = (x.thermEvent 5).raise therm (some s.val) 0 (uns 12 r) := by
    rw [hx]
    unfold Dev.snsBad
    exact if_neg (not_or.mpr ⟨h4, by omega⟩)
  have hw : d.sampled s (setFld (setFld (d.get therm R.THERM_SNS s.val) 17 16 c) 14 12 4) x := by
    rw [hx]
    have h0 : d.sampled s (d.get therm R.THERM_SNS s.val) (d.snsMod s fun x => { x with bad := min (d.thm.sns[s].bad + 1) 2, good := 0 }) :=
      ((Dev.thermQuiet.refl d).sampled s).snsMod _
    exact (h0.putF 17 16 c).putF 14 12 4
  clear hx
  have h5 : (x.thermEvent 5).getB therm R.THERM_EVT 5 = true := by
    rw [Dev.getB, Dev.thermEvent, x.event_get _ _ (by decide) therm_ne_hif (by decide)]
    exact bit_or_pow _ (by decide)
  have hq := Dev.thermQuiet.event x 5
  dsimp only
  rw [he]
  have hr := Dev.thermKeeps.raised (x.thermEvent 5) (some s.val) 0 (uns 12 r) false false false
  exact ⟨(hr.snsWord s).trans ((hq.work.snsWord s).trans hw.word), hr.events 5 h5, Dev.detect_shows _ therm_kind _ _ _ _ _ _ (by decide)⟩

end Sys2Proof.Machine
end

section
/-! The shutdown (R450, R451): outputs at rest, the record in AON, stage 9. -/

namespace Sys2Proof.Machine

/-- The parts that bringing the outputs to rest may change. -/
def restParts : List Part := [.regs, .fresh, .heads, .lanes, .cells, .msps, .bch, .lights, .tim]

/-! Registers of blocks that are no lanes. -/

section
variable {w : Watch} (hl : ∀ n : Fin 40, Clear w (laneB n))
include hl

theorem Dev.laneSend_aside (d : Dev) (n : Fin 40) (vc : Fin 4) (type : Nat) (data : List Byte) : d.aside w [.regs, .lanes] (d.laneSend n vc type data) := by
  unfold Dev.laneSend Dev.creditShow
  extract_lets u spoil d0
  have h0 : d.aside w [.regs, .lanes] d0 := .ite ((Dev.aside.refl d).bump (hl n) (by decide) (by decide)) (.refl d)
  clear_value d0
  have h1 : d.aside w [.regs, .lanes] (d0.laneMod n fun l => { l with
      seqs := vmod l.seqs vc fun s => (s + 1) % 256
      sent := l.sent.set vc (some ⟨type, l.seqs[vc], data, spoil⟩)
      inj := l.inj.filter fun i => i.1 ≠ vc.val
      cred1 := if vc = 1 then l.cred1 - u else l.cred1
      cred3 := if vc = 3 then l.cred3 - u else l.cred3 }) := h0.beside (G := [.lanes]) rfl (by decide) rfl
  exact h1.put (hl n) _ (by decide) (by decide)

theorem Dev.driveRest_aside (d : Dev) (n : Fin 40) : d.aside w [.regs, .fresh, .lanes] (d.driveRest n) := by
  unfold Dev.driveRest
  refine .ite (.refl d) (.foldl _ (.refl d) fun x j hx => ?_)
  dsimp only
  unfold Dev.driveSend
  have h1 : d.aside w [.regs, .fresh, .lanes] x.free.2 := hx.beside (G := [.fresh]) rfl (by decide) rfl
  generalize x.free.2 = y at h1 ⊢
  exact h1.trans ((y.laneSend_aside hl n 0 0 _).mono (by decide))

theorem Dev.laneTo_aside (d : Dev) (n : Fin 40) (st : Nat) : d.aside w [.regs, .lanes] (d.laneTo n st) := by
  unfold Dev.laneTo Dev.laneShow
  have h1 := ((((Dev.aside.refl (w := w) (F := [.regs, .lanes]) d).putF (r := R.LANE_STAT) (i := 0) (j := 0) (hi := 3) (lo := 0) (n := st) (hl n) (by decide)
    (by decide)).putB (r := R.LANE_STAT) (i := 0) (j := 0) (n := 7) (v := decide (st = 3) || decide (st = 4)) (hl n) (by decide) (by decide)))
  exact ((h1.putF (hl n) (by decide) (by decide)).putF (hl n) (by decide) (by decide)).beside (G := [.lanes]) rfl (by decide) rfl

/-- The outputs at rest (R450 steps 1 to 3): registers of lanes only. -/
theorem Dev.outputsOff_aside (d : Dev) : d.aside w restParts d.outputsOff := by
  unfold Dev.outputsOff
  extract_lets d1 d2
  have h1 : d.aside w restParts d1 := .foldl _ (.refl d) fun x h hx => hx.trvMod (by decide) h _
  clear_value d1
  have h2 : d.aside w restParts d2 := .foldl _ h1 fun x n hx =>
    hx.trans (((x.driveRest_aside hl n).mono (by decide)).trans (((x.driveRest n).laneTo_aside hl n 0).mono (by decide)))
  clear_value d2
  exact h2.beside (G := [.cells, .msps, .bch, .lights, .tim]) rfl (by decide) rfl

end

/-! Gates and commands. -/

/-- The traversal that takes every gate low. -/
theorem Dev.gates_low (f : Trv → Trv) (hf : ∀ t, (f t).gate = false) (l : List (Fin 32)) (d : Dev) (h : Fin 32)
    (hd : h ∈ l ∨ d.heads[h].trv.gate = false) : (l.foldl (fun (e : Dev) g => e.trvMod g f) d).heads[h].trv.gate = false := by
  induction l generalizing d with
  | nil => exact hd.resolve_left List.not_mem_nil
  | cons g l ih =>
    rw [List.foldl_cons]
    by_cases hg : h = g
    · subst hg
      refine ih _ (.inr ?_)
      rw [show (d.trvMod h f).heads[h] = { d.heads[h] with trv := f d.heads[h].trv } from vmod_same d.heads h _]
      exact hf _
    · refine ih _ ?_
      rcases hd with hd | hd
      · exact .inl ((List.mem_cons.mp hd).resolve_left hg)
      · refine .inr ?_
        rw [show (d.trvMod g f).heads[h] = d.heads[h] from vmod_ne d.heads _ hg]
        exact hd

/-- A traveller at rest: its gate low, nothing scheduled. -/
def Dev.gateOff (d : Dev) (t : Trv) : Trv :=
  let t1 := (t.gateTo d.slot false 0 0).codeTo (d.slot : Nat) 0
  { t1 with edges := [], ramps := [], fades := [], dwellAt := none, defer := none, on_ := false }

theorem Dev.outputsOff_low (d : Dev) : (∀ h : Fin 32, d.outputsOff.heads[h].trv.gate = false) ∧ ∀ i : Fin 256, d.outputsOff.cells[i].en = false := by
  unfold Dev.outputsOff
  extract_lets d1 d2
  refine ⟨fun h => ?_, fun i => ?_⟩
  · have hd1 : d1 = (List.finRange 32).foldl (fun (e : Dev) g => e.trvMod g d.gateOff) d :=
      congrArg (fun g : Dev → Fin 32 → Dev => (List.finRange 32).foldl g d) (funext fun _ => funext fun _ => rfl)
    have h1 : d1.heads[h].trv.gate = false := by
      rw [hd1]
      exact Dev.gates_low d.gateOff (fun _ => rfl) _ d h (.inl (List.mem_finRange h))
    clear hd1
    clear_value d1
    have hl : ∀ n : Fin 40, Clear (ctlOf hif) (laneB n) := fun n => clear_ctl _ _
    have hk : d1.aside (ctlOf hif) [.regs, .fresh, .lanes] d2 :=
      .foldl _ (.refl d1) fun x n hx => hx.trans ((x.driveRest_aside hl n).trans (((x.driveRest n).laneTo_aside hl n 0).mono (by decide)))
    clear_value d2
    have h2 : d2.heads = d1.heads := hk.frame.get Dev.heads
    change d2.heads[h].trv.gate = false
    rw [h2]
    exact h1
  · clear_value d2
    change (d2.cells.map fun c : SCell => { c with cmd := 0, en := false, u := 0 })[i.val].en = false
    rw [Vector.getElem_map]

/-! The record. -/

theorem Dev.aonLatch_spec (d : Dev) (a b c e : Word) : let x := d.aonLatch [a, b, c, e]
    d.changes [.regs] x ∧ x.getB aon R.AON_STAT 0 = true ∧ x.getN aon R.AON_SD_CNT = min 0xFFFFFFFF (d.getN aon R.AON_SD_CNT + 1) ∧
    d.pageKept therm [] x ∧ d.pageKept fltc [] x := by
  have hkeep : ∀ (y : Dev) (r : Reg), (∀ i : Fin 4, r.ofs i.val 0 ∈ [0x110, 0x114, 0x118, 0x11C, 0x120, 0x124, 0x128, 0x12C]) →
      let z := [a, b, c, e].zipIdx.foldl (fun (e : Dev) w => e.put aon r w.1 w.2) y
      y.changes [.regs] z ∧ y.pageKept aon [0x110, 0x114, 0x118, 0x11C, 0x120, 0x124, 0x128, 0x12C] z ∧ y.pageKept therm [] z ∧ y.pageKept fltc [] z := by
    intro y r hr
    have hlt : ∀ i : Fin 4, r.ofs i.val 0 < 0x1000 := fun i =>
      (by decide : ∀ o ∈ [0x110, 0x114, 0x118, 0x11C, 0x120, 0x124, 0x128, 0x12C], o < 0x1000) _ (hr i)
    exact ⟨rfl, ((((Dev.pageKept.refl y).put _ _ _ _ (hr 0)).put _ _ _ _ (hr 1)).put _ _ _ _ (hr 2)).put _ _ _ _ (hr 3),
      ((((Dev.pageKept.refl y).putOther (by decide) _ _ _ _ (hlt 0)).putOther (by decide) _ _ _ _ (hlt 1)).putOther (by decide) _ _ _ _ (hlt 2)).putOther
        (by decide) _ _ _ _ (hlt 3),
      ((((Dev.pageKept.refl y).putOther (by decide) _ _ _ _ (hlt 0)).putOther (by decide) _ _ _ _ (hlt 1)).putOther (by decide) _ _ _ _ (hlt 2)).putOther
        (by decide) _ _ _ _ (hlt 3)⟩
  intro x
  have hx : x = d.aonLatch [a, b, c, e] := rfl
  clear_value x
  unfold Dev.aonLatch at hx
  extract_lets keep d1 at hx
  have h1 : d.changes [.regs] d1 ∧ d1.getB aon R.AON_STAT 0 = true ∧ d.pageKept aon [0x100, 0x110, 0x114, 0x118, 0x11C, 0x120, 0x124, 0x128, 0x12C] d1 ∧
      d.pageKept therm [] d1 ∧ d.pageKept fltc [] d1 := by
    simp only [d1]
    split
    · rename_i hset
      exact ⟨.refl _ _, hset, .refl d, .refl d, .refl d⟩
    · have hp : (d.putB aon R.AON_STAT 0 true).getB aon R.AON_STAT 0 = true := Dev.getB_putB_same _ _ _ _ _ _ (by decide)
      have hq : d.pageKept aon [0x100] (d.putB aon R.AON_STAT 0 true) := (Dev.pageKept.refl d).put _ _ 0 0 (by decide)
      have ht : d.pageKept therm [] (d.putB aon R.AON_STAT 0 true) := (Dev.pageKept.refl d).putOther (by decide) _ _ 0 0 (by decide)
      have hf : d.pageKept fltc [] (d.putB aon R.AON_STAT 0 true) := (Dev.pageKept.refl d).putOther (by decide) _ _ 0 0 (by decide)
      have hc : d.changes [.regs] (d.putB aon R.AON_STAT 0 true) := rfl
      generalize d.putB aon R.AON_STAT 0 true = y at hp hq ht hf hc ⊢
      obtain ⟨k1, k2, k3, k4⟩ := hkeep y R.AON_SD (by decide)
      exact ⟨hc.trans k1, (congrArg (bit · 0) (k2 _ 0 0 (by decide) (by decide))).trans hp, (hq.mono (by decide)).trans (k2.mono (by decide)), ht.trans k3, hf.trans k4⟩
  obtain ⟨c1, s1, a1, t1, f1⟩ := h1
  clear_value d1
  obtain ⟨k1, k2, k3, k4⟩ := hkeep d1 R.AON_SDL (by decide)
  change d1.changes _ (keep d1 R.AON_SDL) at k1
  change d1.pageKept _ _ (keep d1 R.AON_SDL) at k2 k3 k4
  generalize keep d1 R.AON_SDL = y at k1 k2 k3 k4 hx
  subst hx
  refine ⟨(c1.trans k1).trans (y.put_changes _ _ _ _ _), ?_, ?_, (t1.trans k3).putOther (by decide) _ _ 0 0 (by decide),
    (f1.trans k4).putOther (by decide) _ _ 0 0 (by decide)⟩
  · exact (congrArg (bit · 0) ((Dev.get_put_off _ _ _ _ (by decide)).trans (k2 _ 0 0 (by decide) (by decide)))).trans s1
  · exact (y.getN_bump _ _ 0 0).trans (congrArg (fun v => min 0xFFFFFFFF (BitVec.toNat v + 1)) ((k2 _ 0 0 (by decide) (by decide)).trans (a1 _ 0 0 (by decide) (by decide))))

/-! The device stops. -/

/-- What a shutdown leaves of device `d`. -/
structure Dev.stopped (d e : Dev) : Prop where
  shut : e.shut = true
  sdwn : e.sdwnN = false
  alive : e.getB fltc R.FLTC_STAT 16 = false
  latched : e.getB aon R.AON_STAT 0 = true
  count : e.getN aon R.AON_SD_CNT = min 0xFFFFFFFF (d.getN aon R.AON_SD_CNT + 1)
  gates : ∀ h : Fin 32, e.heads[h].trv.gate = false
  cells : ∀ i : Fin 256, e.cells[i].en = false
  therm : d.pageKept therm [0x010] e
  faults : d.bitsKept Machine.therm R.FLT_STAT e

theorem clear_lane {b : Blk} (h : ∀ n : Fin 40, laneB n ≠ b) : ∀ n : Fin 40, Clear (pageOf b) (laneB n) := fun n _ => h n

theorem Dev.sdRecord_words (d : Dev) (s cause : Nat) (r : Int) : ∃ u v p q, d.sdRecord s cause r = [u, v, p, q] := by
  unfold Dev.sdRecord
  exact ⟨_, _, _, _, rfl⟩

theorem Dev.shutdown_stopped (d : Dev) (s cause : Nat) (r : Int) : Dev.stopped d (d.shutdown s cause r) := by
  have ht : d.aside (pageOf therm) restParts d.outputsOff := d.outputsOff_aside (clear_lane (by decide))
  have ha : d.aside (pageOf aon) restParts d.outputsOff := d.outputsOff_aside (clear_lane (by decide))
  obtain ⟨hg, hc⟩ := d.outputsOff_low
  have he : d.shutdown s cause r = { ((d.outputsOff.raise therm (some s) 3 (uns 12 r)).aliveStop).aonLatch (d.sdRecord s cause r) with
      sdwnN := false }.putF (blk .boot 0) R.BOOT_STAT 3 0 9 := rfl
  rw [he]
  clear he
  generalize d.outputsOff = o at ht ha hg hc ⊢
  have hr := Dev.thermKeeps.raised o (some s) 3 (uns 12 r) false false false
  have hrp : o.pageKept therm [0x010] (o.raise therm (some s) 3 (uns 12 r)) :=
    (Dev.pageKept.refl o).detect therm_ne_hif therm_ne_fltc _ _ _ _ _ _ (by decide)
  have hra : o.pageKept aon [] (o.raise therm (some s) 3 (uns 12 r)) :=
    ((Dev.aside.refl (F := [.regs, .vecs, .fabric]) o).detect clear_therm_aon apart_aon (by decide)).pageKept
  have hrc := o.detect_changes therm (some s) 3 (uns 12 r) false false false
  change o.thermKeeps (o.raise therm (some s) 3 (uns 12 r)) at hr
  change o.changes _ (o.raise therm (some s) 3 (uns 12 r)) at hrc
  generalize o.raise therm (some s) 3 (uns 12 r) = x at hr hrp hra hrc ⊢
  obtain ⟨ws, hws⟩ : ∃ ws, ws = d.sdRecord s cause r := ⟨_, rfl⟩
  obtain ⟨u, v, p, q, huvpq⟩ := d.sdRecord_words s cause r
  rw [← hws] at huvpq ⊢
  clear hws
  subst huvpq
  obtain ⟨c1, s1, n1, t1, f1⟩ := x.aliveStop.aonLatch_spec u v p q
  generalize x.aliveStop.aonLatch [u, v, p, q] = y at c1 s1 n1 t1 f1 ⊢
  have hstopT : x.pageKept therm [] x.aliveStop := (Dev.pageKept.refl x).putOther (by decide) _ _ 0 0 (by decide)
  have hstopA : x.pageKept aon [] x.aliveStop := (Dev.pageKept.refl x).putOther (by decide) _ _ 0 0 (by decide)
  have hstop : x.aliveStop.getB fltc R.FLTC_STAT 16 = false := Dev.getB_putB_same _ _ _ _ _ _ (by decide)
  have hxy : x.changes [.regs] y := Dev.changes.trans (x.put_changes _ _ _ _ _) c1
  have hbt : y.pageKept therm [] ({ y with sdwnN := false }.putF (blk .boot 0) R.BOOT_STAT 3 0 9) :=
    ((Dev.pageKept.refl y).beside (f := { y with sdwnN := false }) rfl).putOther (by decide) _ _ 0 0 (by decide)
  have hba : y.pageKept aon [] ({ y with sdwnN := false }.putF (blk .boot 0) R.BOOT_STAT 3 0 9) :=
    ((Dev.pageKept.refl y).beside (f := { y with sdwnN := false }) rfl).putOther (by decide) _ _ 0 0 (by decide)
  have hbf : y.pageKept fltc [] ({ y with sdwnN := false }.putF (blk .boot 0) R.BOOT_STAT 3 0 9) :=
    ((Dev.pageKept.refl y).beside (f := { y with sdwnN := false }) rfl).putOther (by decide) _ _ 0 0 (by decide)
  have hheads : y.heads = o.heads := (hxy.get Dev.heads).trans (hrc.get Dev.heads)
  have hcells : y.cells = o.cells := (hxy.get Dev.cells).trans (hrc.get Dev.cells)
  refine ⟨?_, rfl, ?_, ?_, ?_, fun h => ?_, fun i => ?_, ?_, ?_⟩
  · exact decide_eq_true (Dev.getF_putF_same _ _ _ _ _ _ (by decide) (by decide))
  · exact (congrArg (bit · 16) ((hbf _ 0 0 (by decide) (by decide)).trans (f1 _ 0 0 (by decide) (by decide)))).trans hstop
  · exact (congrArg (bit · 0) (hba _ 0 0 (by decide) (by decide))).trans s1
  · refine (congrArg BitVec.toNat (hba _ 0 0 (by decide) (by decide))).trans (n1.trans (congrArg (fun v => min 0xFFFFFFFF (BitVec.toNat v + 1)) ?_))
    exact (hstopA _ 0 0 (by decide) (by decide)).trans ((hra _ 0 0 (by decide) (by decide)).trans (ha.pageKept _ 0 0 (by decide) (by decide)))
  · change y.heads[h].trv.gate = false
    rw [hheads]
    exact hg h
  · change y.cells[i].en = false
    rw [hcells]
    exact hc i
  · exact ((((ht.pageKept.mono (List.nil_subset _)).trans hrp).trans (hstopT.mono (List.nil_subset _))).trans (t1.mono (List.nil_subset _))).trans
      (hbt.mono (List.nil_subset _))
  · intro k hk
    have h1 : o.getB therm R.FLT_STAT k = true := (congrArg (bit · k) (ht.pageKept _ 0 0 (by decide) (by decide))).trans hk
    have h2 := hr.faults k h1
    exact (congrArg (bit · k) ((hbt _ 0 0 (by decide) (by decide)).trans ((t1 _ 0 0 (by decide) (by decide)).trans (hstopT _ 0 0 (by decide) (by decide))))).trans h2

end Sys2Proof.Machine
end

section
/-! Samples set the level and records are kept (R445 to R452, R459). -/

namespace Sys2Proof.Machine

/-! After a sample (R447). -/

/-- A sample has been taken. -/
def Dev.snsAfter (d : Dev) (k : Fin 64) (x : SnsSample) : Dev := (d.snsTake k x).snsMax.jHold

/-- The level and a shutdown follow it. -/
def Dev.snsJudge (d : Dev) (k : Fin 64) (x : SnsSample) (p : List Instr) : Dev :=
  let good : Bool := snsCause x = 0
  let d1 := d.snsAfter k x
  if good ∧ ¬ d1.ready ∧ d1.snsThr k.val 3 - d1.snsHyst k.val ≤ x.reading then d1.levelEval.shutdown k.val 1 x.reading
  else (if good then d1.tempRule k.val x.reading p else d1).levelJudge k.val p

theorem exec_sensorSample {s : State} (k : Fin 64) (x : SnsSample) (hlive : s.dev.dead = false) (hu : s.dev.unitStatus therm (some k.val) = 0) :
    exec (.sensorSample k x) s = .next { s with dev := s.dev.snsJudge k x s.pending } := by
  change execSensorSample k x s = _
  unfold execSensorSample
  rw [onLive_next _ _ hlive]
  have hc : decide (s.dev.unitStatus therm (some k.val) = 0) = true := decide_eq_true hu
  exact congrArg (fun e => Host.Outcome.next { s with dev := e }) (Dev.when_of _ _ hc)

/-- With another sample of the cycle waiting the level is left; else it is evaluated, and a shutdown may follow. -/
theorem Dev.snsJudge_cases (d : Dev) (k : Fin 64) (x : SnsSample) (p : List Instr) : ∃ y : Dev, (d.snsAfter k x).thermQuiet y ∧
    (sampleWaits p = true ∧ d.snsJudge k x p = y ∨
      sampleWaits p = false ∧ d.snsJudge k x p = y.levelEval ∧ y.levelEval.stopBy k.val = none ∨
      (∃ n c r, d.snsJudge k x p = y.levelEval.shutdown n c r) ∧ ((d.snsAfter k x).ready = false ∨ y.levelEval.stopBy k.val ≠ none)) := by
  unfold Dev.snsJudge
  generalize d.snsAfter k x = d1
  extract_lets good
  split
  · rename_i hb
    exact ⟨d1, .refl d1, .inr (.inr ⟨⟨_, _, _, rfl⟩, .inl (Bool.not_eq_true _ ▸ hb.2.1)⟩)⟩
  · refine ⟨if good then d1.tempRule k.val x.reading p else d1, .ite (d1.tempRule_quiet k.val k.isLt _ _) (.refl d1), ?_⟩
    generalize (if good = true then d1.tempRule k.val x.reading p else d1) = y
    unfold Dev.levelJudge
    split
    · rename_i hw
      exact .inl ⟨hw, rfl⟩
    · rename_i hw
      dsimp only
      cases hs : y.levelEval.stopBy k.val with
      | none => exact .inr (.inl ⟨Bool.not_eq_true _ ▸ hw, rfl, rfl⟩)
      | some z => exact .inr (.inr ⟨⟨_, _, _, rfl⟩, .inr fun h => nomatch h⟩)

theorem Dev.snsAfter_quiet (d : Dev) (k : Fin 64) (x : SnsSample) : (d.snsTake k x).thermQuiet (d.snsAfter k x) :=
  (d.snsTake k x).snsMax_quiet.trans (Dev.jHold_quiet _)

theorem Dev.regionBroken_congr {d e : Dev} (h : ∀ s, s < 64 → e.snsSt s = d.snsSt s) (r : Nat) : e.regionBroken r = d.regionBroken r := by
  unfold Dev.regionBroken
  refine Bool.eq_iff_iff.mpr ?_
  rw [List.all_eq_true, List.all_eq_true]
  constructor
  · intro ha s hs
    have := ha s hs
    rwa [h s (List.mem_range.mp hs)] at this
  · intro ha s hs
    have := ha s hs
    rwa [← h s (List.mem_range.mp hs)] at this

theorem Dev.stopBy_none {d : Dev} (k : Fin 64) (h : ∀ j : Fin 64, d.snsSt j.val ≠ 3 ∧ d.regionBroken (snsRegion j.val) = false) : d.stopBy k.val = none := by
  have h3 : ((k.val :: List.range 64).find? fun x => d.snsSt x = 3) = none := by
    refine List.find?_eq_none.mpr fun x hx => ?_
    have hx' : x < 64 := by
      rcases List.mem_cons.mp hx with rfl | hx
      · exact k.isLt
      · exact List.mem_range.mp hx
    exact fun he => (h ⟨x, hx'⟩).1 (of_decide_eq_true he)
  have hb : ((k.val :: [0, 2, 8, 10, 14, 16, 22, 28, 34, 40, 46, 52, 58]).find? fun x => d.regionBroken (snsRegion x)) = none := by
    refine List.find?_eq_none.mpr fun x hx => ?_
    have hx' : x < 64 := by
      rcases List.mem_cons.mp hx with rfl | hx
      · exact k.isLt
      · exact (by decide : ∀ x ∈ [0, 2, 8, 10, 14, 16, 22, 28, 34, 40, 46, 52, 58], x < 64) x hx
    rw [(h ⟨x, hx'⟩).2]
    exact Bool.false_ne_true
  unfold Dev.stopBy
  rw [h3, hb]
  rfl

theorem Dev.stopBy_hot {d : Dev} {k : Nat} (h : d.snsSt k = 3) : d.stopBy k ≠ none := by
  have h3 : ((k :: List.range 64).find? fun x => d.snsSt x = 3) = some k := List.find?_cons_of_pos (decide_eq_true h)
  unfold Dev.stopBy
  rw [h3]
  exact fun he => nomatch he

theorem Dev.thermQuiet.bootWord {d e : Dev} (h : d.thermQuiet e) : e.get bootB R.BOOT_STAT = d.get bootB R.BOOT_STAT := h.boot _ 0 0 (by decide) (by decide)

/-- The sensors' states where the level shown is evaluated. -/
theorem Dev.stopped.snsWord {d e : Dev} (h : Dev.stopped d e) (s : Fin 64) :
    e.get Machine.therm R.THERM_SNS s.val = d.get Machine.therm R.THERM_SNS s.val := by
  have ho : ∀ s : Fin 64, R.THERM_SNS.ofs s.val 0 ∉ [0x010] := by decide
  exact h.therm R.THERM_SNS s.val 0 (snsOfs s) (ho s)

section
variable {s : State} (k : Fin 64) (x : SnsSample)

/-- The level shown is the level of the sensors (R447). -/
theorem Dev.snsJudge_level (d : Dev) {p : List Instr} (hp : sampleWaits p = false) :
    (d.snsJudge k x p).getF therm R.THERM_STAT 6 4 = (d.snsJudge k x p).levelNow := by
  obtain ⟨y, -, h⟩ := d.snsJudge_cases k x p
  obtain ⟨hq, hl⟩ := y.levelEval_spec
  have hlev : y.levelEval.levelNow = y.levelNow := Dev.levelNow_congr fun _ hs => hq.work.snsSt hs
  rcases h with ⟨hw, -⟩ | ⟨-, he, -⟩ | ⟨⟨n, c, r, he⟩, -⟩
  · rw [hp] at hw
    cases hw
  · rw [he, hl, hlev]
  · rw [he]
    have hs := y.levelEval.shutdown_stopped n c r
    generalize y.levelEval.shutdown n c r = e at hs
    have he' : e.levelNow = y.levelEval.levelNow := Dev.levelNow_congr fun j hj => congrArg (fun w => fld w 14 12) (hs.snsWord ⟨j, hj⟩)
    rw [he', hlev, ← hl]
    exact congrArg (fun w => fld w 6 4) (hs.therm _ 0 0 (by decide) (by decide))

/-- What a reading below the thresholds leaves. -/
theorem Dev.snsJudge_low (d : Dev) (p : List Instr) (hc : snsCause x = 0) (hready : d.ready = true) (hshut : d.shut = false) (h0 : d.snsSt k.val = 0)
    (hr : ∀ l, l = 1 ∨ l = 2 ∨ l = 3 → x.reading < d.snsThr k.val l)
    (hall : ∀ j : Fin 64, d.snsSt j.val ≠ 3 ∧ d.regionBroken (snsRegion j.val) = false) :
    let e := d.snsJudge k x p
    e.shut = false ∧ e.getF therm R.THERM_SNS 11 0 k.val = uns 12 x.reading ∧ e.snsSt k.val = 0 ∧ e.thm.sns[k].bad = 0 ∧
    ∀ l : Fin 3, e.thm.sns[k].above[l] = 0 := by
  have htake : d.snsTake k x = d.snsGood k x.reading := if_pos hc
  obtain ⟨hs, hb, ha⟩ := d.snsGood_low k x.reading h0 hr
  have hq1 := d.snsAfter_quiet k x
  rw [htake] at hq1
  have hst : ∀ {e : Dev}, (d.snsGood k x.reading).thermQuiet e → ∀ j, j < 64 → e.snsSt j = d.snsSt j := fun he j hj => by
    rw [he.work.snsSt hj]
    by_cases hjk : (⟨j, hj⟩ : Fin 64) = k
    · subst hjk
      exact (congrArg (fun w => fld w 14 12) hs.word).trans (fld_setFld_ne _ _ _ _ _ _ (by decide) (by decide))
    · exact congrArg (fun w => fld w 14 12) (hs.others ⟨j, hj⟩ hjk)
  have hend : ∀ {e : Dev}, (d.snsGood k x.reading).thermQuiet e → e.shut = false ∧ e.getF therm R.THERM_SNS 11 0 k.val = uns 12 x.reading ∧ e.snsSt k.val = 0 ∧
      e.thm.sns[k].bad = 0 ∧ ∀ l : Fin 3, e.thm.sns[k].above[l] = 0 := fun {e} he => by
    refine ⟨?_, ?_, (hst he _ k.isLt).trans h0, by rw [he.work.sns]; exact hb, fun l => by rw [he.work.sns]; exact ha l⟩
    · exact (congrArg (fun w => decide (fld w 3 0 = 9)) (he.bootWord.trans (hs.beside.2 _ 0 0 (by decide) (by decide)))).trans hshut
    · refine (congrArg (fun w => fld w 11 0) ((he.work.snsWord k).trans hs.word)).trans ?_
      rw [fld_setFld_same _ _ _ _ (by decide) (by decide)]
      exact Nat.mod_eq_of_lt (BitVec.isLt _)
  obtain ⟨y, hy, h⟩ := d.snsJudge_cases k x p
  obtain ⟨hl, -⟩ := y.levelEval_spec
  have hqe := hq1.trans (hy.trans hl)
  rcases h with ⟨-, he⟩ | ⟨-, he, -⟩ | ⟨-, hno | hno⟩
  · dsimp only
    rw [he]
    exact hend (hq1.trans hy)
  · dsimp only
    rw [he]
    exact hend hqe
  · have : (d.snsAfter k x).ready = true := (congrArg (bit · 4) (hq1.bootWord.trans (hs.beside.2 _ 0 0 (by decide) (by decide)))).trans hready
    rw [hno] at this
    cases this
  · refine absurd (Dev.stopBy_none k fun j => ?_) hno
    rw [hst hqe _ j.isLt, Dev.regionBroken_congr (hst hqe)]
    exact hall j

/-- The eighth reading in a row at the shutdown threshold stops the device. -/
theorem Dev.snsJudge_hot (d : Dev) {p : List Instr} (hp : sampleWaits p = false) (hc : snsCause x = 0) (hst : d.snsSt k.val < 3)
    (hr : d.snsThr k.val 3 ≤ x.reading) (h7 : 7 ≤ d.thm.sns[k].above[(2 : Fin 3)]) :
    ∃ y, Dev.stopped y (d.snsJudge k x p) ∧ y.getN aon R.AON_SD_CNT = d.getN aon R.AON_SD_CNT := by
  have htake : d.snsTake k x = d.snsGood k x.reading := if_pos hc
  have hs := d.snsGood_hot k x.reading hst hr h7
  have hq1 := d.snsAfter_quiet k x
  rw [htake] at hq1
  obtain ⟨y, hy, h⟩ := d.snsJudge_cases k x p
  obtain ⟨hl, -⟩ := y.levelEval_spec
  have hf := hs.quiet (hq1.trans (hy.trans hl))
  rcases h with ⟨hw, -⟩ | ⟨-, -, hno⟩ | ⟨⟨n, c, r, he⟩, -⟩
  · rw [hp] at hw
    cases hw
  · refine absurd hno (Dev.stopBy_hot ?_)
    refine (congrArg (fun w => fld w 14 12) hf.word).trans ?_
    rw [fld_setFld_same _ _ _ _ (by decide) (by decide)]
    rfl
  · rw [he]
    exact ⟨_, y.levelEval.shutdown_stopped n c r, congrArg BitVec.toNat (hf.beside.1 _ 0 0 (by decide) (by decide))⟩

theorem snsCause_lt : snsCause x < 4 := by
  unfold snsCause
  split
  · decide
  · split
    · decide
    · split <;> decide

/-- The second sample in a row that is not valid makes the sensor BROKEN. -/
theorem Dev.snsJudge_broken (d : Dev) (p : List Instr) (hc : snsCause x ≠ 0) (h4 : d.snsSt k.val ≠ 4) (hb : 1 ≤ d.thm.sns[k].bad) :
    let e := d.snsJudge k x p
    e.snsSt k.val = 4 ∧ e.getF therm R.THERM_SNS 17 16 k.val = snsCause x ∧ e.getB therm R.THERM_EVT 5 = true ∧ e.getB therm R.FLT_STAT 0 = true := by
  have htake : d.snsTake k x = d.snsBad k (snsCause x) x.reading := if_neg hc
  obtain ⟨hw, hev, hfl⟩ := d.snsBad_broken k (snsCause x) x.reading h4 hb
  have hq1 := d.snsAfter_quiet k x
  rw [htake] at hq1
  generalize d.snsBad k (snsCause x) x.reading = t at hw hev hfl hq1
  have hend : ∀ {e : Dev}, e.get therm R.THERM_SNS k.val = t.get therm R.THERM_SNS k.val → t.bitsKept therm R.THERM_EVT e → t.bitsKept therm R.FLT_STAT e →
      e.snsSt k.val = 4 ∧ e.getF therm R.THERM_SNS 17 16 k.val = snsCause x ∧ e.getB therm R.THERM_EVT 5 = true ∧ e.getB therm R.FLT_STAT 0 = true :=
    fun h1 h2 h3 => by
      refine ⟨(congrArg (fun w => fld w 14 12) (h1.trans hw)).trans ?_, (congrArg (fun w => fld w 17 16) (h1.trans hw)).trans ?_, h2 5 hev, h3 0 hfl⟩
      · rw [fld_setFld_same _ _ _ _ (by decide) (by decide)]
        rfl
      · rw [fld_setFld_ne _ _ _ _ _ _ (by decide) (by decide), fld_setFld_same _ _ _ _ (by decide) (by decide)]
        exact Nat.mod_eq_of_lt (snsCause_lt x)
  obtain ⟨y, hy, h⟩ := d.snsJudge_cases k x p
  obtain ⟨hl, -⟩ := y.levelEval_spec
  have hq2 := (hq1.trans hy).work
  have hqe := (hq1.trans (hy.trans hl)).work
  dsimp only
  rcases h with ⟨-, he⟩ | ⟨-, he, -⟩ | ⟨⟨n, c, r, he⟩, -⟩
  · rw [he]
    exact hend (hq2.snsWord k) hq2.events hq2.faults
  · rw [he]
    exact hend (hqe.snsWord k) hqe.events hqe.faults
  · rw [he]
    have hs := y.levelEval.shutdown_stopped n c r
    refine hend ((hs.snsWord k).trans (hqe.snsWord k)) (fun j hj => ?_) fun j hj => hs.faults j (hqe.faults j hj)
    exact (congrArg (bit · j) (hs.therm _ 0 0 (by decide) (by decide))).trans (hqe.events j hj)

end

/-! The record. -/

theorem Dev.changes.onlyRegs {d e : Dev} (h : d.changes [.regs] e) : e = { d with regs := e.regs } :=
  congrArg (fun y : Dev => { y with regs := e.regs }) h

theorem Dev.jShow_page (d : Dev) : d.regsKept d.jShow (onPage jrnl) ∧ d.pageKept jrnl [0x104, 0x108, 0x10C, 0x110] d.jShow := by
  unfold Dev.jShow
  have hp : ∀ (r : Reg), r.ofs 0 0 < 0x1000 → ∀ (x : Dev) (v : Word), x.regsKept (x.put jrnl r v) (onPage jrnl) := fun r hr x v =>
    x.regsKept_put _ _ _ 0 0 (onPage_radr _ 0 0 hr)
  exact ⟨((((((hp R.JRNL_GEN (by decide) _ _).trans (hp R.JRNL_SEQ (by decide) _ _)).trans (hp R.JRNL_FILL (by decide) _ _)).trans
    (hp R.JRNL_STAT (by decide) _ _)).trans (hp R.JRNL_STAT (by decide) _ _)).trans (hp R.JRNL_STAT (by decide) _ _)).trans (hp R.JRNL_STAT (by decide) _ _),
    (((((((Dev.pageKept.refl d).put _ _ 0 0 (by decide)).put _ _ 0 0 (by decide)).put _ _ 0 0 (by decide)).put _ _ 0 0 (by decide)).put
      _ _ 0 0 (by decide)).put _ _ 0 0 (by decide)).put _ _ 0 0 (by decide)⟩

/-- A transaction for which the journal has room is queued (R477). -/
theorem Dev.jQueue_spec (d : Dev) (t : JTx) (hu : d.jUsable = true) (hs : (d.jrn.queue.map JTx.size).sum + t.size ≤ 65536) : let e := (d.jQueue t).1
    e = { d with regs := e.regs, jrn := { d.jrn with queue := d.jrn.queue ++ [t] } } ∧ d.regsKept e (onPage jrnl) ∧ e.jUsable = true := by
  have he : (d.jQueue t).1 = (d.jmod fun j => { j with queue := j.queue ++ [t] }).jShow := by
    unfold Dev.jQueue
    rw [if_neg (not_not.mpr hu), if_neg (Nat.not_lt.mpr hs)]
  rw [he]
  have hx : d.jmod (fun j => { j with queue := j.queue ++ [t] }) = { d with jrn := { d.jrn with queue := d.jrn.queue ++ [t] } } := rfl
  have hxu : (d.jmod fun j => { j with queue := j.queue ++ [t] }).jUsable = true := hu
  have hxr : (d.jmod fun j => { j with queue := j.queue ++ [t] }).regs = d.regs := rfl
  generalize d.jmod (fun j => { j with queue := j.queue ++ [t] }) = x at hx hxu hxr
  obtain ⟨h1, h2⟩ := x.jShow_page
  have hc := x.jShow_changes
  generalize x.jShow = e at h1 h2 hc
  have hf : e = { x with regs := e.regs } := hc.onlyRegs
  refine ⟨hf.trans (congrArg (fun y : Dev => { y with regs := e.regs }) hx), fun a ha => (h1 a ha).trans (by rw [hxr]), ?_⟩
  have hj : e.jrn = x.jrn := hc.get Dev.jrn
  unfold Dev.jUsable at hxu ⊢
  rw [hj, Dev.getB, h2 R.JRNL_CTL 0 0 (by decide) (by decide)]
  exact hxu

end Sys2Proof.Machine
end

section
/-! O54. -/

namespace Sys2Proof.Machine

/-- A record of AON as words, and as a transaction of the journal (R452). -/
def Dev.aonRec (d : Dev) (r : Reg) : List Word := (List.range 4).map fun i => d.get aon r i

def recTx (ws : List Word) : JTx := ⟨[(7, 0, wordsBytes ws)], .shutdown⟩

theorem recTx_size (d : Dev) (r : Reg) : (recTx (d.aonRec r)).size = 64 := by
  have hl : (wordsBytes (d.aonRec r)).length = 16 := by
    simp [wordsBytes, Dev.aonRec, List.range_succ, leBytes_length]
  rw [JTx.size, recTx, List.map_singleton, List.sum_singleton, hl]
  rfl

theorem exec_shutdownRecordAppend {s : State} (hlive : s.dev.dead = false) (hup : s.dev.up therm = true) (h0 : s.dev.getB aon R.AON_STAT 0 = true)
    (h5 : 5 ≤ s.dev.stage) (hu : s.dev.jUsable = true) (hw : s.dev.jWindow = true) (hq : ∀ t ∈ s.dev.jrn.queue, t.from_ ≠ .shutdown) :
    exec .shutdownRecordAppend s = .next { s with
      dev := let d1 := (s.dev.jQueue (recTx (s.dev.aonRec R.AON_SD))).1
        if s.dev.aonRec R.AON_SD = s.dev.aonRec R.AON_SDL then d1 else (d1.jQueue (recTx (s.dev.aonRec R.AON_SDL))).1 } := by
  change execShutdownRecordAppend s = _
  unfold execShutdownRecordAppend
  rw [onLive_next _ _ hlive]
  have hany : (s.dev.jrn.queue.any fun t => decide (t.from_ = .shutdown)) = false :=
    List.any_eq_false.mpr fun t ht => by
      rw [decide_eq_true_eq]
      exact hq t ht
  have hc : (s.dev.up therm && s.dev.getB aon R.AON_STAT 0 && decide (5 ≤ s.dev.stage) && s.dev.jUsable && s.dev.jWindow &&
      !s.dev.jrn.queue.any fun t => decide (t.from_ = .shutdown)) = true := by
    rw [hup, h0, decide_eq_true h5, hu, hw, hany]
    rfl
  exact congrArg (fun e => Host.Outcome.next { s with dev := e }) (Dev.when_of _ _ hc)

/-- The first record is journaled, and the latest where it differs (R452). -/
theorem Dev.recordsQueued (d : Dev) (hu : d.jUsable = true) (hs : (d.jrn.queue.map JTx.size).sum ≤ 65408) :
    let d1 := (d.jQueue (recTx (d.aonRec R.AON_SD))).1
    let e := if d.aonRec R.AON_SD = d.aonRec R.AON_SDL then d1 else (d1.jQueue (recTx (d.aonRec R.AON_SDL))).1
    e = { d with
      regs := e.regs
      jrn := { d.jrn with
        queue := d.jrn.queue ++ [recTx (d.aonRec R.AON_SD)] ++
          (if d.aonRec R.AON_SD = d.aonRec R.AON_SDL then [] else [recTx (d.aonRec R.AON_SDL)]) } } ∧
    d.regsKept e (onPage jrnl) := by
  have hs1 := recTx_size d R.AON_SD
  have hs2 := recTx_size d R.AON_SDL
  obtain ⟨h1, h2, h3⟩ := d.jQueue_spec (recTx (d.aonRec R.AON_SD)) hu (by omega)
  dsimp only
  generalize (d.jQueue (recTx (d.aonRec R.AON_SD))).1 = d1 at h1 h2 h3 ⊢
  by_cases heq : d.aonRec R.AON_SD = d.aonRec R.AON_SDL
  · rw [if_pos heq, if_pos heq, List.append_nil]
    exact ⟨h1, h2⟩
  · rw [if_neg heq, if_neg heq]
    have hq1 : d1.jrn.queue = d.jrn.queue ++ [recTx (d.aonRec R.AON_SD)] := by rw [h1]
    obtain ⟨k1, k2, -⟩ := d1.jQueue_spec (recTx (d.aonRec R.AON_SDL)) h3 (by
      rw [hq1, List.map_append, List.sum_append, List.map_singleton, List.sum_singleton]
      omega)
    generalize (d1.jQueue (recTx (d.aonRec R.AON_SDL))).1 = e at k1 k2 ⊢
    refine ⟨?_, h2.trans k2⟩
    have hj : d1.jrn = { d.jrn with queue := d.jrn.queue ++ [recTx (d.aonRec R.AON_SD)] } := by rw [h1]
    rw [hj] at k1
    exact k1.trans (congrArg (fun y : Dev => { y with
      regs := e.regs
      jrn := { d.jrn with queue := d.jrn.queue ++ [recTx (d.aonRec R.AON_SD)] ++ [recTx (d.aonRec R.AON_SDL)] } }) h1)

theorem exec_clear {s : State} (ht : s.dev.takes aon 0x104) : exec .clear s = .next { s with dev := (s.dev.putB aon R.AON_STAT 0 false) } := by
  change execClear s = _
  unfold execClear
  rw [onLive_next _ _ (Dev.takes_live _ _ _ ht), Dev.hostWrite_takes _ _ _ _ ht]

/-- A new VSTBY (R459). -/
theorem Dev.aonReset_spec (d : Dev) : let e : Dev := { (d.regsReset aon fun _ => false) with boot := { d.boot with vstby := true } }
    (∀ a, onPage aon a → spGet e.regs a = none) ∧ d.regsKept e (onPage aon) := by
  have hk : d.regsKept (d.regsReset aon fun _ => false) (onPage aon) := d.regsReset_kept aon fun _ => false
  refine ⟨fun a ha => ?_, fun a ha => hk a ha⟩
  change spGet (d.regsReset aon fun _ => false).regs a = none
  simp only [Dev.regsReset]
  rw [spGet_filter d.regs (fun a => !(decide (badr aon 0 ≤ a) && decide (a < badr aon 0x1000) && !false)) a, decide_eq_true ha.1, decide_eq_true ha.2]
  rfl

/-- Settles O54: the level, a cold sample, the shutdown and a broken sensor; the record journaled, cleared, and forgotten with VSTBY. -/
theorem samplesSetTheLevelAndRecordsAreKept : Obligations.SamplesSetTheLevelAndRecordsAreKept := by
  unfold Obligations.SamplesSetTheLevelAndRecordsAreKept
  refine ⟨⟨fun s k x hlive hu hp => ⟨_, exec_sensorSample k x hlive hu, s.dev.snsJudge_level k x hp⟩,
    fun s k x hlive hu hc hready h0 hr hall => ⟨_, exec_sensorSample k x hlive hu, s.dev.snsJudge_low k x _ hc hready ?_ h0 hr hall⟩,
    fun s k x hlive hu hc hst hr h7 hp => ?_,
    fun s k x hlive hu hc h4 hb => ⟨_, exec_sensorSample k x hlive hu, s.dev.snsJudge_broken k x _ hc h4 hb⟩⟩,
    fun s hlive hup h0 h5 hu hw hq hs => ⟨_, exec_shutdownRecordAppend hlive hup h0 h5 hu hw hq, s.dev.recordsQueued hu hs⟩,
    fun s ht => ⟨_, exec_clear ht, rfl, Dev.getB_putB_same _ _ _ _ _ _ (by decide), s.dev.regsKept_putF _ _ _ _ _ 0 0 rfl⟩,
    fun s => ⟨_, rfl, rfl, s.dev.aonReset_spec⟩⟩
  · have h := hlive
    simp only [Dev.dead, Bool.or_eq_false_iff] at h
    exact h.2
  · obtain ⟨y, h, hn⟩ := s.dev.snsJudge_hot k x hp hc hst hr h7
    exact ⟨_, exec_sensorSample k x hlive hu, h.shut, h.sdwn, h.alive, h.latched, h.count.trans (by rw [hn]), h.gates, h.cells⟩

end Sys2Proof.Machine
end

section
/-! Throttling and admission (R448, R449, R455). -/

namespace Sys2Proof.Machine

/-! J. -/

/-- THERM_STAT.J and the lattice's fields show `j`. -/
def Dev.showsJ (e : Dev) (j : Nat) : Prop :=
  e.getF therm R.THERM_STAT 3 0 = j ∧ e.getF latB R.LAT_STAT 11 8 = j ∧ e.getB latB R.LAT_STAT 2 = decide (j < 8)

/-- J and what follows it (R448, R449). -/
theorem Dev.setJ_spec (d : Dev) (j : Nat) (a : Bool) (hj : j < 16) : let e := d.setJ j a
    e = { d with regs := e.regs, thm := { d.thm with modeA := a, jAt := d.now } } ∧ e.showsJ j ∧
    (∀ r : Reg, r.ofs 0 0 < 0x1000 → r.ofs 0 0 ≠ 0x104 → e.get therm r = d.get therm r) ∧
    e.getB therm R.THERM_STAT 7 = d.getB therm R.THERM_STAT 7 := by
  obtain ⟨x, hx⟩ : ∃ x : Dev, x = { d with thm := { d.thm with modeA := a, jAt := d.now } } := ⟨_, rfl⟩
  have hset : d.setJ j a = ((x.putF therm R.THERM_STAT 3 0 j).putF latB R.LAT_STAT 11 8 j).putB latB R.LAT_STAT 2 (decide (j < 8)) := by rw [hx]; rfl
  have hxr : ∀ r, x.get therm r = d.get therm r := fun r => Dev.get_of_regs _ _ _ _ (by rw [hx])
  have hlat : ∀ (y : Dev) (q : Reg), q.ofs 0 0 < 0x1000 → ∀ v, (y.put latB R.LAT_STAT v).get therm q = y.get therm q := fun y q hq v =>
    Dev.get_put_ne _ _ _ _ _ _ _ _ _ _ (radr_ne_of_blk _ _ _ _ _ _ _ _ (by decide) hq (by decide))
  have hth : ∀ q : Reg, q.ofs 0 0 < 0x1000 → (d.setJ j a).get therm q = (x.putF therm R.THERM_STAT 3 0 j).get therm q := fun q hq => by
    rw [hset]
    exact (hlat _ q hq _).trans (hlat _ q hq _)
  refine ⟨rfl, ⟨?_, ?_, ?_⟩, fun r hr hne => ?_, ?_⟩
  · refine (congrArg (fun w => fld w 3 0) (hth _ (by decide))).trans ((Dev.getF_putF_same _ _ _ _ _ _ (by decide) (by decide)).trans ?_)
    exact Nat.mod_eq_of_lt hj
  · rw [hset]
    refine (Dev.getF_putB_other _ _ _ _ _ _ (by decide) (by decide)).trans ((Dev.getF_putF_same _ _ _ _ _ _ (by decide) (by decide)).trans ?_)
    exact Nat.mod_eq_of_lt hj
  · rw [hset]
    exact Dev.getB_putB_same _ _ _ _ _ _ (by decide)
  · exact (hth r hr).trans ((Dev.get_put_ne _ _ _ _ _ _ _ _ _ _ (radr_ne_of_ofs _ _ _ _ _ _ _ hne)).trans (hxr r))
  · refine (congrArg (bit · 7) (hth _ (by decide))).trans ((Dev.getB_putF_other _ _ _ _ _ _ (by decide) (by decide)).trans ?_)
    exact congrArg (bit · 7) (hxr _)

/-- The grace is over, and mode A applies. -/
theorem Dev.graceOver_spec (d : Dev) : let e := d.graceOff.setJ 7 true
    e = { d with regs := e.regs, thm := { d.thm with grace := none, modeA := true, jAt := d.now } } ∧ e.showsJ 7 ∧
    (∀ r : Reg, r.ofs 0 0 < 0x1000 → r.ofs 0 0 ≠ 0x104 → e.get therm r = d.get therm r) ∧ e.getB therm R.THERM_STAT 7 = false := by
  obtain ⟨h1, h2, h3, h4⟩ := d.graceOff.setJ_spec 7 true (by decide)
  have h7 : d.graceOff.getB therm R.THERM_STAT 7 = false := Dev.getB_putB_same _ _ _ _ _ _ (by decide)
  refine ⟨h1, h2, fun r hr hne => (h3 r hr hne).trans ?_, h4.trans h7⟩
  exact Dev.get_put_ne _ _ _ _ _ _ _ _ _ _ (radr_ne_of_ofs _ _ _ _ _ _ _ hne)

section
variable {s : State}

theorem exec_graceEnd {t : Nat} (hlive : s.dev.dead = false) (hg : s.dev.thm.grace = some t) (hup : s.dev.up therm = true)
    (hl : s.dev.getF therm R.THERM_STAT 6 4 = 2) (hp : s.dev.past t (1000 * s.dev.getF therm R.THERM_GRACE 15 0) = true)
    (h2 : 2 ≤ s.dev.levelSoon s.pending) :
    exec .graceEnd s = .next { s with dev := ((s.dev.graceOff.setJ 7 true).thermEvent 4) } := by
  change execGraceEnd s = _
  unfold execGraceEnd
  rw [onLive_next _ _ hlive]
  have hc : (s.dev.up therm && decide (s.dev.getF therm R.THERM_STAT 6 4 = 2) && decide (2 ≤ s.dev.levelSoon s.pending) &&
      s.dev.past t (1000 * s.dev.getF therm R.THERM_GRACE 15 0)) = true := by
    rw [hup, decide_eq_true hl, decide_eq_true h2, hp]
    rfl
  rw [hg]
  exact congrArg (fun e => Host.Outcome.next { s with dev := e }) (Dev.when_of _ _ hc)

/-- A fall of the level in the cycle comes before the end of the grace (R448 step 5). -/
theorem exec_graceEnd_falling (h : s.dev.levelSoon s.pending < 2) : exec .graceEnd s = .next s := by
  change execGraceEnd s = _
  unfold execGraceEnd
  by_cases hlive : s.dev.dead = false
  · rw [onLive_next _ _ hlive]
    cases hg : s.dev.thm.grace with
    | none => rfl
    | some t =>
      have hc : (s.dev.up therm && decide (s.dev.getF therm R.THERM_STAT 6 4 = 2) && decide (2 ≤ s.dev.levelSoon s.pending) &&
          s.dev.past t (1000 * s.dev.getF therm R.THERM_GRACE 15 0)) = false := by
        rw [decide_eq_false (Nat.not_le.mpr h), Bool.and_false, Bool.false_and]
      exact congrArg (fun e => Host.Outcome.next { s with dev := e }) (Dev.when_not _ _ hc)
  · exact onLive_dead _ s (eq_true_of_ne_false hlive)

section
variable (hlive : s.dev.dead = false) (hup : s.dev.up therm = true) (hA : s.dev.thm.modeA = true)
include hlive hup hA

theorem exec_throttleStep : exec .throttleStep s = .next { s with dev := (
    if s.dev.getF therm R.THERM_STAT 6 4 = 2 then
      if s.dev.past s.dev.thm.jAt (1000 * s.dev.getF therm R.THERM_STEP 15 0) = true ∧ 2 ≤ s.dev.levelSoon s.pending ∧
          s.dev.getF therm R.THERM_CTL 11 8 < s.dev.getF therm R.THERM_STAT 3 0 then s.dev.setJ (s.dev.getF therm R.THERM_STAT 3 0 - 1) true else s.dev
    else if s.dev.getF therm R.THERM_STAT 6 4 < 2 ∧ s.dev.getF therm R.THERM_STAT 3 0 < 8 ∧
        s.dev.past (max s.dev.thm.jAt s.dev.thm.fellAt) (1000 * s.dev.getF therm R.THERM_STEP 15 0) = true then
      s.dev.setJ (s.dev.getF therm R.THERM_STAT 3 0 + 1) (decide (s.dev.getF therm R.THERM_STAT 3 0 + 1 < 8))
    else s.dev) } := by
  change execThrottleStep s = _
  unfold execThrottleStep
  rw [onLive_next _ _ hlive]
  have hno : ¬(¬s.dev.up therm = true ∨ ¬s.dev.thm.modeA = true) := by
    rw [hup, hA]
    decide
  exact congrArg (fun e => Host.Outcome.next { s with dev := e }) (if_neg hno)

end

theorem exec_thermMode (v : Word) (ht : s.dev.takes therm 0x100) : exec (.thermMode v) s = .next { s with dev := (s.dev.modeWrite v) } := by
  change execThermMode v s = _
  unfold execThermMode
  rw [onLive_next _ _ (Dev.takes_live _ _ _ ht), Dev.hostWrite_takes _ _ _ _ ht]

end

/-! Admission (R455). -/

/-- The wait of an admitted request is counted. -/
def Dev.admCount (d : Dev) (t : Nat) : Dev :=
  if t < d.now then (d.bump therm R.THERM_ADM_WAITS).put therm R.THERM_ADM_MAXUS (wd (max (d.getN therm R.THERM_ADM_MAXUS) ((d.now - t) / 800))) else d

/-- The head's first entry that waits for admission may fire. -/
def Dev.admLet (d : Dev) (h : Fin 32) (now : Nat) : Dev :=
  let d1 := d.drfMod h fun x => { x with admAsk := false }
  match d1.heads[h].trv.sched.find? fun e => e.barred with
  | some e => d1.trvMod h fun t => t.entMod e.num fun x => { x with ok := true, dur := now + 1 }
  | none => d1

theorem exec_admissionGrant {s : State} {t n : Nat} {rest : List (Nat × Nat)} (hlive : s.dev.dead = false) (hw : s.dev.thm.waiting = (t, n) :: rest)
    (hg : (s.dev.thm.grants.filter fun g => s.dev.now < g + 8000).length < s.dev.getF therm R.THERM_ADMIT 5 0) :
    exec .admissionGrant s = .next { s with dev := ((({ s.dev with thm := { s.dev.thm with
      waiting := rest, grants := (s.dev.thm.grants.filter fun g => s.dev.now < g + 8000) ++ [s.dev.now] } } : Dev).admCount t).admLet (Fin.ofNat 32 n) s.dev.tick) } := by
  change execAdmissionGrant s = _
  unfold execAdmissionGrant
  rw [onLive_next _ _ hlive]
  dsimp only
  rw [hw]
  have hc : decide ((s.dev.thm.grants.filter fun g => s.dev.now < g + 8000).length < s.dev.getF therm R.THERM_ADMIT 5 0) = true := decide_eq_true hg
  refine congrArg (fun e => Host.Outcome.next { s with dev := e }) ((Dev.when_of _ _ hc).trans ?_)
  rfl

end Sys2Proof.Machine
end

section
/-! O55. -/

namespace Sys2Proof.Machine

/-- The end of the grace (R448 step 3). -/
theorem Dev.graceEnded_spec (d : Dev) : let e := (d.graceOff.setJ 7 true).thermEvent 4
    e = { d with regs := e.regs, vecs := e.vecs, thm := { d.thm with grace := none, modeA := true, jAt := d.now } } ∧ e.showsJ 7 ∧
    e.getB therm R.THERM_STAT 7 = false ∧ e.getB therm R.THERM_EVT 4 = true := by
  obtain ⟨h1, ⟨h2, h3, h4⟩, -, h7⟩ := d.graceOver_spec
  dsimp only
  generalize d.graceOff.setJ 7 true = x at h1 h2 h3 h4 h7 ⊢
  have hf : x.thermEvent 4 = { x with regs := (x.thermEvent 4).regs, vecs := (x.thermEvent 4).vecs } := x.event_frame _ _ _ _ _ _
  have hp : x.pageKept therm [0x124] (x.thermEvent 4) := (Dev.pageKept.refl x).event therm_ne_hif _ _ _ (by decide) 0 (by decide)
  have hl : (x.thermEvent 4).get latB R.LAT_STAT = x.get latB R.LAT_STAT :=
    x.event_get_ne (by decide) (by decide) _ _ (by decide) (radr_ne_of_blk _ _ _ _ _ _ _ _ (by decide) (by decide) (by decide))
  have he : (x.thermEvent 4).getB therm R.THERM_EVT 4 = true := by
    rw [Dev.getB, Dev.thermEvent, x.event_get _ _ (by decide) therm_ne_hif (by decide)]
    exact bit_or_pow _ (by decide)
  generalize x.thermEvent 4 = e at hf hp hl he ⊢
  exact ⟨hf.trans (congrArg (fun y : Dev => { y with regs := e.regs, vecs := e.vecs }) h1),
    ⟨(congrArg (fun w => fld w 3 0) (hp _ 0 0 (by decide) (by decide))).trans h2, (congrArg (fun w => fld w 11 8) hl).trans h3,
      (congrArg (bit · 2) hl).trans h4⟩, (congrArg (bit · 7) (hp _ 0 0 (by decide) (by decide))).trans h7, he⟩

/-! Admission. -/

theorem Dev.admCount_spec (d : Dev) (t : Nat) : let e := d.admCount t
    d.changes [.regs] e ∧ (d.regsKept e fun a => a = radr therm R.THERM_ADM_WAITS ∨ a = radr therm R.THERM_ADM_MAXUS) ∧
    (t < d.now → e.getN therm R.THERM_ADM_WAITS = min 0xFFFFFFFF (d.getN therm R.THERM_ADM_WAITS + 1)) := by
  unfold Dev.admCount
  split
  · refine ⟨rfl, (d.regsKept_put _ _ _ 0 0 (.inl rfl)).trans (Dev.regsKept_put _ _ _ _ 0 0 (.inr rfl)), fun _ => ?_⟩
    exact (congrArg BitVec.toNat (Dev.get_put_off _ _ _ _ (by decide))).trans (d.getN_bump _ _ 0 0)
  · rename_i hno
    exact ⟨.refl _ _, d.regsKept_refl _, fun h => absurd h hno⟩

/-- The head is no longer asked for, and its first barred entry may fire. -/
theorem Dev.admLet_spec (d : Dev) (h : Fin 32) (now : Nat) : let e := d.admLet h now
    e = { d with heads := e.heads } ∧ e.heads[h].drf.admAsk = false ∧
    (∀ x, (d.heads[h].trv.sched.find? fun x => x.barred) = some x → ∃ y ∈ e.heads[h].trv.sched, y.num = x.num ∧ y.ok = true) ∧
    ∀ g : Fin 32, g ≠ h → e.heads[g] = d.heads[g] := by
  obtain ⟨z, hz⟩ : ∃ z, z = d.drfMod h fun x => { x with admAsk := false } := ⟨_, rfl⟩
  have hzf : z = { d with heads := z.heads } := by rw [hz]; rfl
  have hzh : z.heads[h] = { d.heads[h] with drf := { d.heads[h].drf with admAsk := false } } := by
    rw [hz]
    exact vmod_same d.heads h _
  have hzg : ∀ g : Fin 32, g ≠ h → z.heads[g] = d.heads[g] := fun g hg => by
    rw [hz]
    exact vmod_ne d.heads _ hg
  unfold Dev.admLet
  rw [← hz]
  clear hz
  dsimp only
  split
  · rename_i x hx
    have hmod : (z.trvMod h fun t => t.entMod x.num fun y => { y with ok := true, dur := now + 1 }).heads[h] = { z.heads[h] with
        trv := z.heads[h].trv.entMod x.num fun y => { y with ok := true, dur := now + 1 } } := vmod_same z.heads h _
    have hne : ∀ g : Fin 32, g ≠ h → (z.trvMod h fun t => t.entMod x.num fun y => { y with ok := true, dur := now + 1 }).heads[g] = z.heads[g] :=
      fun g hg => vmod_ne z.heads _ hg
    have hf : (z.trvMod h fun t => t.entMod x.num fun y => { y with ok := true, dur := now + 1 }) = { z with
      heads := (z.trvMod h fun t => t.entMod x.num fun y => { y with ok := true, dur := now + 1 }).heads } := rfl
    generalize z.trvMod h _ = e at hmod hne hf ⊢
    refine ⟨hf.trans (congrArg (fun y : Dev => { y with heads := e.heads }) hzf), ?_, fun x' hx' => ?_, fun g hg => (hne g hg).trans (hzg g hg)⟩
    · rw [hmod, hzh]
    · have hsame : x' = x := by
        rw [hzh] at hx
        exact Option.some.inj (hx'.symm.trans hx)
      subst hsame
      rw [hmod, hzh]
      refine ⟨{ x' with ok := true, dur := now + 1 }, List.mem_map.mpr ⟨x', List.mem_of_find?_eq_some hx', if_pos rfl⟩, rfl, rfl⟩
  · rename_i hno
    refine ⟨hzf, by rw [hzh], fun x' hx' => ?_, hzg⟩
    rw [hzh] at hno
    exact absurd (hx'.symm.trans hno) (fun h => nomatch h)

/-- Settles O55: the end of the grace, a step of J, a change of the mode, and an admission. -/
theorem throttlingAndAdmission : Obligations.ThrottlingAndAdmission := by
  unfold Obligations.ThrottlingAndAdmission
  refine ⟨?_, fun s t n rest hlive hw hn hg => ?_⟩
  · intro moved
    refine ⟨fun s t hlive hg hup hl hp h2 => ?_, fun s h => exec_graceEnd_falling h, fun s hlive hup hA => ?_, fun s v ht => ?_⟩
    · obtain ⟨h1, h2', h3, h4⟩ := s.dev.graceEnded_spec
      refine ⟨_, exec_graceEnd hlive hg hup hl hp h2, ?_, ⟨?_, h2'⟩, ?_, h3, h4⟩ <;>
      generalize (s.dev.graceOff.setJ 7 true).thermEvent 4 = e at h1
      · rw [h1]
      · rw [h1]
      · rw [h1]
    · intro j step
      have hexec := exec_throttleStep hlive hup hA
      have hj : j < 16 := fld_lt _ 3 0
      refine ⟨fun hl hp h2 hf => ?_, fun hl hj8 hp => ?_⟩
      · rw [if_pos hl, if_pos ⟨hp, h2, hf⟩] at hexec
        obtain ⟨h1, h2', -, -⟩ := s.dev.setJ_spec (j - 1) true (by omega)
        refine ⟨_, hexec, ?_, ⟨?_, h2'⟩, ?_⟩ <;> rfl
      · rw [if_neg (show ¬s.dev.getF therm R.THERM_STAT 6 4 = 2 by omega), if_pos ⟨hl, hj8, hp⟩] at hexec
        obtain ⟨h1, h2', -, -⟩ := s.dev.setJ_spec (j + 1) (decide (j + 1 < 8)) (by omega)
        refine ⟨_, hexec, ?_, ⟨?_, h2'⟩, ?_⟩ <;> rfl
    · refine ⟨_, exec_thermMode v ht, ?_⟩
      obtain ⟨x, hx⟩ : ∃ x, x = s.dev.put therm R.THERM_CTL (R.THERM_CTL.write (s.dev.get therm R.THERM_CTL) v) := ⟨_, rfl⟩
      have hxc : x.get therm R.THERM_CTL = R.THERM_CTL.write (s.dev.get therm R.THERM_CTL) v := by
        rw [hx]
        exact Dev.get_put_same _ _ _ _ _ _
      have hxf : x = { s.dev with regs := x.regs } := by rw [hx]; rfl
      have hxk : s.dev.regsKept x fun a => a = radr therm R.THERM_CTL := by
        rw [hx]
        exact s.dev.regsKept_put _ _ _ 0 0 rfl
      have hm : s.dev.modeWrite v = if s.dev.getB therm R.THERM_CTL 0 = true ∧ ¬bit v 0 = true ∧ s.dev.thm.grace.isSome = true then
          x.graceOff.setJ 7 true else x := by
        rw [hx]
        rfl
      rw [hm]
      clear hx hm
      have hxt : x.thm = s.dev.thm := by rw [hxf]
      have hxn : x.now = s.dev.now := by rw [hxf]
      by_cases hc : s.dev.getB therm R.THERM_CTL 0 = true ∧ bit v 0 = false ∧ s.dev.thm.grace.isSome = true
      · rw [if_pos (by rw [Bool.not_eq_true]; exact hc), if_pos hc]
        obtain ⟨h1, h2, h3, -⟩ := x.graceOver_spec
        refine ⟨?_, (h3 _ (by decide) (by decide)).trans hxc, ⟨?_, h2⟩, ?_⟩ <;> generalize x.graceOff.setJ 7 true = e at h1
        · have h1' : e = { x with regs := e.regs, thm := e.thm } := by rw [h1]
          exact h1'.trans (congrArg (fun y : Dev => { y with regs := e.regs, thm := e.thm }) hxf)
        · rw [h1, hxt, hxn]
        · rw [h1]
      · rw [if_neg (by rw [Bool.not_eq_true]; exact hc), if_neg hc]
        exact ⟨congrArg (fun y : Dev => { y with thm := x.thm }) hxf, hxc, hxt, hxk⟩
  · refine ⟨_, exec_admissionGrant hlive hw hg, ?_⟩
    obtain ⟨x, hx⟩ : ∃ x : Dev, x = { s.dev with thm := { s.dev.thm with
      waiting := rest, grants := (s.dev.thm.grants.filter fun g => s.dev.now < g + 8000) ++ [s.dev.now] } } := ⟨_, rfl⟩
    have hxr : x.regs = s.dev.regs := by rw [hx]
    have hxh : x.heads = s.dev.heads := by rw [hx]
    have hxn : x.now = s.dev.now := by rw [hx]
    rw [← hx]
    obtain ⟨h1, h2, h3⟩ := x.admCount_spec t
    generalize x.admCount t = y at h1 h2 h3
    have hyf : y = { x with regs := y.regs } := h1.onlyRegs
    have hyh : y.heads = s.dev.heads := (h1.get Dev.heads).trans hxh
    obtain ⟨k1, k2, k3, k4⟩ := y.admLet_spec (Fin.ofNat 32 n) s.dev.tick
    generalize y.admLet (Fin.ofNat 32 n) s.dev.tick = e at k1 k2 k3 k4
    have her : e.regs = y.regs := by rw [k1]
    refine ⟨?_, k2, fun z hz => k3 z (by rw [hyh]; exact hz), fun ht => ?_, fun g hg => ?_, fun a ha => ?_⟩
    · rw [k1, hyf, hx]
    · refine (congrArg BitVec.toNat (Dev.get_of_regs _ _ _ _ (by rw [her]))).trans ((h3 (by rw [hxn]; exact ht)).trans ?_)
      exact congrArg (fun v => min 0xFFFFFFFF (BitVec.toNat v + 1)) (Dev.get_of_regs _ _ _ _ (by rw [hxr]))
    · rw [k4 g (fun h => hg (by rw [h]; exact Nat.mod_eq_of_lt hn)), hyh]
    · exact (congrArg (spGet · a) her).trans ((h2 a ha).trans (by rw [hxr]))

end Sys2Proof.Machine
end

section
/-! SUPPORT. The BCHG blocks: what follows a hand-over or a trim (R464 to R471). -/

namespace Sys2Proof.Machine

theorem bchB_kind (k : Fin 8) : blkKind (bchB k) = some (.bchg, k.val) := by
  revert k
  decide

theorem bchB_ne_hif (k : Fin 8) : bchB k ≠ hif := by
  revert k
  decide

theorem bchB_ne_fltc (k : Fin 8) : bchB k ≠ fltc := by
  revert k
  decide

theorem Dev.bchMod_same (d : Dev) (k : Fin 8) (f : Bch → Bch) : (d.bchMod k f).bch[k] = f d.bch[k] := vmod_same d.bch k f

/-- A step after which the group's account is as before but for its hand-over, run and waiting channels: of its registers only
OP_STAT and BCHG_STAT.BUSY differ. -/
structure Dev.bchKeeps (k : Fin 8) (d e : Dev) : Prop where
  page : d.pageKept (bchB k) [0x024, 0x104] e
  field : ∀ hi lo, hi < 32 → hi < 3 ∨ 3 < lo → e.getF (bchB k) R.BCHG_STAT hi lo = d.getF (bchB k) R.BCHG_STAT hi lo
  flag : ∀ j, j ≠ 3 → e.getB (bchB k) R.BCHG_STAT j = d.getB (bchB k) R.BCHG_STAT j
  trim : e.bch[k].trim = d.bch[k].trim
  age : e.bch[k].age = d.bch[k].age
  lost : e.bch[k].lost = d.bch[k].lost

namespace Dev.bchKeeps

variable {k : Fin 8} {d e f : Dev}

theorem refl (d : Dev) : bchKeeps k d d := ⟨.refl d, fun _ _ _ _ => rfl, fun _ _ => rfl, rfl, rfl, rfl⟩

theorem trans (h : bchKeeps k d e) (h' : bchKeeps k e f) : bchKeeps k d f :=
  ⟨h.page.trans h'.page, fun hi lo hh hd => (h'.field hi lo hh hd).trans (h.field hi lo hh hd), fun j hj => (h'.flag j hj).trans (h.flag j hj),
    h'.trim.trans h.trim, h'.age.trans h.age, h'.lost.trans h.lost⟩

/-- No register differs, nor the trim. -/
theorem of_regs (hr : e.regs = d.regs) (ht : e.bch[k].trim = d.bch[k].trim) (ha : e.bch[k].age = d.bch[k].age) (hl : e.bch[k].lost = d.bch[k].lost) :
    bchKeeps k d e :=
  ⟨.of_regs hr, fun _ _ _ _ => congrArg (fun w => fld w _ _) (Dev.get_of_regs _ _ _ _ (by rw [hr])),
    fun _ _ => congrArg (bit · _) (Dev.get_of_regs _ _ _ _ (by rw [hr])), ht, ha, hl⟩

theorem bchMod (d : Dev) (u : Bch → Bch) (ht : (u d.bch[k]).trim = d.bch[k].trim) (ha : (u d.bch[k]).age = d.bch[k].age)
    (hl : (u d.bch[k]).lost = d.bch[k].lost) : bchKeeps k d (d.bchMod k u) :=
  .of_regs rfl ((congrArg Bch.trim (d.bchMod_same k u)).trans ht) ((congrArg Bch.age (d.bchMod_same k u)).trans ha)
    ((congrArg Bch.lost (d.bchMod_same k u)).trans hl)

end Dev.bchKeeps

section
variable (d : Dev) (k : Fin 8)

theorem Dev.reached_changes (b : Blk) (c : Option Nat) : d.changes [.flt] (d.reached b c) := by
  unfold Dev.reached
  split
  · exact .refl _ _
  · exact .ite (d.abandonSlice_changes b true) (.refl _ _)

/-- A hand-over that starts (R464 step 1). -/
theorem Dev.hoStart_keeps (j : Fin 4) (fence : Bool) :
    Dev.bchKeeps k d (d.hoStart k j fence) ∧ (d.hoStart k j fence).bch[k].run = d.bch[k].run ∧
    (d.hoStart k j fence).get (bchB k) R.OP_STAT = d.get (bchB k) R.OP_STAT := by
  unfold Dev.hoStart
  extract_lets b s hb more d1 d2
  have hc := d.reached_changes b (some s)
  change d.changes _ d1 at hc
  have hr1 : d1.regs = d.regs := hc.get Dev.regs
  have hb1 : d1.bch = d.bch := hc.get Dev.bch
  clear_value d1
  obtain ⟨y, hy⟩ : ∃ y, y = d1.bchMod k fun x => { x with ho := some ⟨j, s, d1.bchCell k j, d1.now, none, none, fence⟩ } := ⟨_, rfl⟩
  have hyb : y.bch[k] = { d.bch[k] with ho := some ⟨j, s, d1.bchCell k j, d1.now, none, none, fence⟩ } := by
    rw [hy, Dev.bchMod_same, hb1]
  have hyr : y.regs = d.regs := by rw [hy]; exact hr1
  have hd2 : d2 = y.putB b R.BCHG_STAT 3 true := by rw [hy]
  clear_value d2
  subst hd2
  have h1 : Dev.bchKeeps k d y := .of_regs hyr (by rw [hyb]) (by rw [hyb]) (by rw [hyb])
  have h2 : Dev.bchKeeps k y { y.putB b R.BCHG_STAT 3 true with shadows := (y.putB b R.BCHG_STAT 3 true).shadows ++ more } :=
    ⟨((Dev.pageKept.refl y).put R.BCHG_STAT _ 0 0 (by decide)).beside rfl,
      fun hi lo hh hd => Dev.getF_putB_other _ _ _ _ _ _ (by decide) (by omega), fun j hj => Dev.getB_putB_other _ _ _ _ _ _ (by decide) hj, rfl, rfl, rfl⟩
  refine ⟨h1.trans h2, ?_, ?_⟩
  · change y.bch[k].run = _
    rw [hyb]
  · exact (y.get_put_off _ _ _ (by decide)).trans (Dev.get_of_regs _ _ _ _ (by rw [hyr]))

theorem Dev.runFail_keeps (err : Nat) : Dev.bchKeeps k d (d.runFail k err) ∧ (d.runFail k err).bch[k].run = none ∧
    (d.bch[k].run = none → d.runFail k err = d) ∧
    (d.bch[k].run.isSome = true → (d.runFail k err).get (bchB k) R.OP_STAT = opWord 4 (d.getF (bchB k) R.OP_STAT 27 16) err (d.opTag (bchB k))) ∧
    (d.runFail k err).bch[k].ho = d.bch[k].ho ∧ (d.runFail k err).bch[k].wait = d.bch[k].wait := by
  unfold Dev.runFail
  split
  · rename_i hn
    refine ⟨.refl d, hn, fun _ => rfl, fun hs => ?_, rfl, rfl⟩
    rw [hn] at hs
    cases hs
  · rename_i r hr
    have h1 : Dev.bchKeeps k d (d.bchMod k fun x => { x with run := none }) := .bchMod d _ rfl rfl rfl
    have hb1 : (d.bchMod k fun x => { x with run := none }).bch[k] = { d.bch[k] with run := none } := d.bchMod_same k _
    have hg1 : (d.bchMod k fun x => { x with run := none }).get (bchB k) R.OP_STAT = d.get (bchB k) R.OP_STAT := rfl
    generalize d.bchMod k (fun x => { x with run := none }) = y at h1 hb1 hg1
    have h2 : Dev.bchKeeps k y (y.opFail (bchB k) err) := by
      refine ⟨(Dev.pageKept.refl y).put R.OP_STAT _ 0 0 (by decide), fun hi lo _ _ => congrArg (fun w => fld w hi lo) ?_, fun j _ => congrArg (bit · j) ?_,
        rfl, rfl, rfl⟩
      · exact Dev.get_put_off _ _ _ _ (by decide)
      · exact Dev.get_put_off _ _ _ _ (by decide)
    refine ⟨h1.trans h2, (congrArg Bch.run hb1).trans rfl, fun hn => ?_, fun _ => ?_, (congrArg Bch.ho hb1).trans rfl, (congrArg Bch.wait hb1).trans rfl⟩
    · rw [hr] at hn
      cases hn
    refine (Dev.get_put_same _ _ _ _ _ _).trans ?_
    unfold Dev.opTag Dev.getF
    rw [hg1]

/-- What follows when nothing is under way (R468, R471). -/
theorem Dev.bchNext_spec : Dev.bchKeeps k d (d.bchNext k) ∧
    (d.bch[k].run = none → (d.bchNext k).bch[k].run = none ∧ (d.bchNext k).get (bchB k) R.OP_STAT = d.get (bchB k) R.OP_STAT) ∧
    (d.bch[k].wait = [] → d.bch[k].run = none → d.bchNext k = d) := by
  unfold Dev.bchNext
  dsimp only
  split
  · exact ⟨.refl d, fun h => ⟨h, rfl⟩, fun _ _ => rfl⟩
  · split
    · rename_i j js hw
      have h1 : Dev.bchKeeps k d (d.bchMod k fun y => { y with wait := js }) := .bchMod d _ rfl rfl rfl
      have hr1 : (d.bchMod k fun y => { y with wait := js }).bch[k].run = d.bch[k].run :=
        (congrArg Bch.run (d.bchMod_same k _)).trans rfl
      have hg1 : (d.bchMod k fun y => { y with wait := js }).get (bchB k) R.OP_STAT = d.get (bchB k) R.OP_STAT := rfl
      generalize d.bchMod k (fun y => { y with wait := js }) = y at h1 hr1 hg1
      refine ⟨?_, fun hn => ?_, fun hwn => absurd (hw.symm.trans hwn) (List.cons_ne_nil _ _)⟩
      · split
        · exact h1.trans (y.hoStart_keeps k j true).1
        · exact h1.trans (.bchMod y _ rfl rfl rfl)
      · split
        · obtain ⟨-, h3, h4⟩ := y.hoStart_keeps k j true
          exact ⟨h3.trans (hr1.trans hn), h4.trans hg1⟩
        · exact ⟨((congrArg Bch.run (y.bchMod_same k _)).trans rfl).trans (hr1.trans hn), hg1⟩
    · split
      · rename_i hn
        exact ⟨.refl d, fun _ => ⟨hn, rfl⟩, fun _ _ => rfl⟩
      · rename_i left _ _ hrun
        refine ⟨?_, fun hn => absurd (hrun.symm.trans hn) (Option.some_ne_none _), fun _ hn => absurd (hrun.symm.trans hn) (Option.some_ne_none _)⟩
        split
        · exact .refl d
        · split
          · exact (d.runFail_keeps k 0x81).1
          · split
            · exact .bchMod d _ rfl rfl rfl
            · exact (d.hoStart_keeps k _ false).1

end

end Sys2Proof.Machine
end

section
/-! SUPPORT. The steps of a hand-over (R464, R465, R471). -/

namespace Sys2Proof.Machine

section
variable (d : Dev) (k : Fin 8)

/-- A group's fault. -/
theorem Dev.bchRaise_spec (c : Option Nat) {kind : Nat} (hk : kind < 32) : (d.raise (bchB k) c kind).bch = d.bch ∧
    d.pageKept (bchB k) [0x010] (d.raise (bchB k) c kind) ∧ (d.raise (bchB k) c kind).getB (bchB k) R.FLT_STAT kind = true :=
  ⟨(d.detect_changes _ _ _ _ _ _ _).get Dev.bch,
    (Dev.pageKept.refl d).detect (bchB_ne_hif k) (bchB_ne_fltc k) _ _ _ _ _ _ (by decide),
    d.detect_shows (bchB_kind k) _ _ _ _ _ _ hk⟩

theorem Dev.bchEvent_shows {i : Nat} (hi : i < 32) : (d.bchEvent k i).getB (bchB k) R.BCHG_EVT i = true := by
  rw [Dev.getB, Dev.bchEvent, Dev.eventQuiet, Dev.get_put_same]
  exact bit_or_pow _ hi

theorem Dev.bchEvent_page (i : Nat) : d.pageKept (bchB k) [0x134] (d.bchEvent k i) :=
  (Dev.pageKept.refl d).put _ _ 0 0 (by decide)

variable {d k}

/-- A bit of a register that an operation leaves. -/
theorem Dev.pageKept.bit {b : Blk} {L : List Nat} {e : Dev} (h : d.pageKept b L e) (r : Reg) (j : Nat) (hr : r.ofs 0 0 < 0x1000 ∧ r.ofs 0 0 ∉ L) :
    e.getB b r j = d.getB b r j := congrArg (Machine.bit · j) (h r 0 0 hr.1 hr.2)

theorem Dev.pageKept.fld {b : Blk} {L : List Nat} {e : Dev} (h : d.pageKept b L e) (r : Reg) (hi lo : Nat)
    (hr : r.ofs 0 0 < 0x1000 ∧ r.ofs 0 0 ∉ L) : e.getF b r hi lo = d.getF b r hi lo := congrArg (Machine.fld · hi lo) (h r 0 0 hr.1 hr.2)

variable (d k)

/-- A channel without a cell (R471). -/
theorem Dev.chanLost_spec (h : Ho) : (d.chanLost k h).bch[k].lost[h.ch] = true ∧ (d.chanLost k h).getB (bchB k) R.BCHG_EVT 4 = true ∧
    (d.chanLost k h).getB (bchB k) R.FLT_STAT 3 = true := by
  unfold Dev.chanLost
  have hb : (d.bchMod k fun x => { x with ho := none, lost := x.lost.set h.ch true }).bch[k].lost = d.bch[k].lost.set h.ch true :=
    (congrArg Bch.lost (d.bchMod_same k _)).trans rfl
  generalize (d.bchMod k fun x => { x with ho := none, lost := x.lost.set h.ch true }) = y at hb
  have hb2 : ((y.putB (bchB k) R.BCHG_STAT 8 false).bchEvent k 4).bch = y.bch := rfl
  have he := (y.putB (bchB k) R.BCHG_STAT 8 false).bchEvent_shows k (i := 4) (by decide)
  generalize (y.putB (bchB k) R.BCHG_STAT 8 false).bchEvent k 4 = z at hb2 he
  obtain ⟨hr, hp, hf⟩ := z.bchRaise_spec k (some h.old) (kind := 3) (by decide)
  refine ⟨?_, (hp.bit R.BCHG_EVT 4 (by decide)).trans he, hf⟩
  rw [hr, hb2, hb]
  exact Vector.getElem_set_self _

end

section
variable {k : Fin 8} {h : Ho} {s : State} (hlive : s.dev.dead = false) (hho : s.dev.bch[k].ho = some h)
include hlive hho

/-- TRACKING_DONE arms the switch (R464 step 2). -/
theorem exec_trackingDone (ha : h.armed = none) (ht : s.dev.pastNs h.since (s.dev.getF (bchB k) R.BCHG_TRACK 15 0) = true) :
    exec (.trackingDone k) s = .next { s with
      dev := (s.dev.bchMod k fun x => { x with ho := some { h with armed := some s.dev.now } }).putB (bchB k) R.BCHG_STAT 8 true } := by
  change execTrackingDone k s = _
  unfold execTrackingDone
  rw [onLive_next _ _ hlive, hho]
  have hcond : (h.armed.isNone && s.dev.pastNs h.since (s.dev.getF (bchB k) R.BCHG_TRACK 15 0)) = true := by
    rw [ha, ht]
    rfl
  exact congrArg (fun e => Host.Outcome.next { s with dev := e }) (Dev.when_of _ _ hcond)

variable {a : Nat} (ha : h.armed = some a)
include ha

/-- HAND_OVER_SWITCH of a channel without a spare (R471). -/
theorem exec_handOverSwitch_lost (v : BitVec 16) (hd : h.done = none) (hg : s.dev.heads[chanHead k h.ch].trv.gate = false) (hs : h.spare = 7) :
    exec (.handOverSwitch k v) s = .next { s with dev := (s.dev.chanLost k h).bchNext k } := by
  change execHandOverSwitch k v s = _
  unfold execHandOverSwitch
  rw [onLive_next _ _ hlive]
  simp only [hho, ha, hd, hg, hs, Bool.false_eq_true, if_false, if_true]

/-- The switch itself, with its reading, and the run's account of the wait. -/
def switched (d : Dev) (k : Fin 8) (h : Ho) (v : BitVec 16) (w : Nat) : Dev :=
  let d1 := ((d.bchMod k fun x => { x with ho := some { h with done := some d.now } }).putB (bchB k) R.BCHG_STAT 8 false).put (bchB k) R.BCH_MON
    (wd v.toNat) h.ch.val
  if d1.bch[k].run.isSome ∧ ¬ h.fence then d1.opPart (bchB k) 3 (max w (d1.getN (bchB k) R.OP_PART 3)) else d1

/-- HAND_OVER_SWITCH with 40 quiet slots ahead (R464 step 3). -/
theorem exec_handOverSwitch_quiet (v : BitVec 16) (hd : h.done = none) (hg : s.dev.heads[chanHead k h.ch].trv.gate = false) (hs : h.spare ≠ 7)
    (hq : s.dev.heads[chanHead k h.ch].trv.quiet (s.dev.liv (blk .headctl (chanHead k h.ch).val) R.TRV_DAC_SKEW).toInt s.dev.slot = true) :
    exec (.handOverSwitch k v) s = .next { s with dev := switched s.dev k h v ((s.dev.now - a) / 800) } := by
  change execHandOverSwitch k v s = _
  unfold execHandOverSwitch switched
  rw [onLive_next _ _ hlive]
  simp only [hho, ha, hd, hg, hs, hq, Bool.false_eq_true, if_false, not_true_eq_false]

end

theorem switched_spec (d : Dev) (k : Fin 8) (h : Ho) (v : BitVec 16) (w : Nat) : let e := switched d k h v w
    e = { d with regs := e.regs, bch := d.bch.set k { d.bch[k] with ho := some { h with done := some d.now } } } ∧
    e.getB (bchB k) R.BCHG_STAT 8 = false ∧ e.get (bchB k) R.BCH_MON h.ch.val = wd v.toNat := by
  unfold switched
  extract_lets d1 e
  have hf1 : d1 = { d with regs := d1.regs, bch := d.bch.set k { d.bch[k] with ho := some { h with done := some d.now } } } := rfl
  have hm1 : d1.get (bchB k) R.BCH_MON h.ch.val = wd v.toNat := Dev.get_put_same _ _ _ _ _ _
  have hmon : ∀ j : Fin 4, R.BCH_MON.ofs j.val 0 ∉ [R.BCHG_STAT.ofs 0 0, R.OP_PART.ofs 3 0] := by decide
  have hs1 : d1.getB (bchB k) R.BCHG_STAT 8 = false := by
    simp only [d1]
    have hne : R.BCHG_STAT.ofs 0 0 ≠ R.BCH_MON.ofs h.ch.val 0 := fun he => hmon h.ch (by
      rw [← he]
      exact List.mem_cons_self)
    exact (congrArg (bit · 8) (Dev.get_put_ne _ _ _ _ _ _ _ _ _ _ (radr_ne_of_ofs _ _ _ _ _ _ _ hne))).trans
      (Dev.getB_putB_same _ _ _ _ _ _ (by decide))
  clear_value d1
  simp only [e]
  split
  · refine ⟨?_, ?_, ?_⟩
    · have hp : ∀ x n, d1.opPart (bchB k) x n = { d1 with regs := (d1.opPart (bchB k) x n).regs } := fun _ _ => rfl
      rw [hp]
      exact congrArg (fun y : Dev => { y with regs := (d1.opPart (bchB k) 3 (max w (d1.getN (bchB k) R.OP_PART 3))).regs }) hf1
    · exact (congrArg (bit · 8) (Dev.get_put_ne _ _ _ _ _ _ _ _ _ _ (radr_ne_of_ofs _ _ _ _ _ _ _ (by decide)))).trans hs1
    · refine (Dev.get_put_ne _ _ _ _ _ _ _ _ _ _ (radr_ne_of_ofs _ _ _ _ _ _ _ fun he => hmon h.ch ?_)).trans hm1
      rw [he]
      exact List.mem_cons_of_mem _ List.mem_cons_self
  · exact ⟨hf1, hs1, hm1⟩

end Sys2Proof.Machine
end

section
/-! SUPPORT. The end of a hand-over (R464 steps 4 and 5) and the wait for a gap (R465). -/

namespace Sys2Proof.Machine

section
variable (d : Dev) (k : Fin 8)

/-- No usable spare (R467). -/
theorem Dev.bchNoSpare_spec : d.pageKept (bchB k) [0x104, 0x134, 0x010] (d.bchNoSpare k) ∧ (d.bchNoSpare k).bch = d.bch ∧
    (d.bchNoSpare k).bchSpare k = 7 ∧ (∀ j, 2 < j → (d.bchNoSpare k).getB (bchB k) R.BCHG_STAT j = d.getB (bchB k) R.BCHG_STAT j) ∧
    ∀ j, (d.bchNoSpare k).getB (bchB k) R.FLT_STAT j = true ↔ j = 2 ∨ d.getB (bchB k) R.FLT_STAT j = true := by
  unfold Dev.bchNoSpare
  have h7 : (d.putF (bchB k) R.BCHG_STAT 2 0 7).getF (bchB k) R.BCHG_STAT 2 0 = 7 := Dev.getF_putF_same _ _ _ _ _ _ (by decide) (by decide)
  have hj : ∀ j, 2 < j → (d.putF (bchB k) R.BCHG_STAT 2 0 7).getB (bchB k) R.BCHG_STAT j = d.getB (bchB k) R.BCHG_STAT j := fun j hj =>
    Dev.getB_putF_other _ _ _ _ _ _ (by decide) (.inr hj)
  have hp : d.pageKept (bchB k) [0x104] (d.putF (bchB k) R.BCHG_STAT 2 0 7) := (Dev.pageKept.refl d).put _ _ 0 0 (by decide)
  have hb : (d.putF (bchB k) R.BCHG_STAT 2 0 7).bch = d.bch := rfl
  generalize d.putF (bchB k) R.BCHG_STAT 2 0 7 = y at h7 hj hp hb
  have hp2 := y.bchEvent_page k 3
  have hb2 : (y.bchEvent k 3).bch = y.bch := rfl
  generalize y.bchEvent k 3 = z at hp2 hb2
  obtain ⟨hr, hp3, -⟩ := z.bchRaise_spec k none (kind := 2) (by decide)
  have hw := (z.detect_registers (bchB_kind k) none 2 0 false false false).2
  refine ⟨(hp.mono (by decide)).trans ((hp2.mono (by decide)).trans (hp3.mono (by decide))), hr.trans (hb2.trans hb),
    ((hp3.fld _ 2 0 (by decide)).trans (hp2.fld _ 2 0 (by decide))).trans h7,
    fun j h => ((hp3.bit _ j (by decide)).trans (hp2.bit _ j (by decide))).trans (hj j h), fun j => ?_⟩
  have hz : z.getB (bchB k) R.FLT_STAT j = d.getB (bchB k) R.FLT_STAT j := (hp2.bit _ j (by decide)).trans (hp.bit _ j (by decide))
  rw [← hz, Dev.getB, Dev.raise, hw, if_pos (by decide), Dev.getB]
  unfold bit
  rw [BitVec.getLsbD_or, Bool.or_eq_true, or_comm]
  refine or_congr ?_ Iff.rfl
  rw [wd, BitVec.getLsbD_ofNat, Bool.and_eq_true, Nat.testBit_two_pow]
  constructor
  · intro h
    exact (of_decide_eq_true h.2).symm
  · rintro rfl
    decide

/-- The registers and the account of a hand-over's end. -/
def disconnected (h : Ho) : Dev :=
  ((((d.putF (bchB k) R.BCHG_MAP (3 * h.ch.val + 2) (3 * h.ch.val) h.spare).bump (bchB k) R.BCHG_HOCNT).putB (bchB k) R.BCHG_STAT 3
    false).putF (bchB k) R.BCHG_STAT 2 0 7).bchMod k fun x => { x with ho := none }

theorem disconnected_spec (h : Ho) (hs : h.spare < 8) : (disconnected d k h).bchCell k h.ch = h.spare ∧
    (disconnected d k h).getN (bchB k) R.BCHG_HOCNT = min 0xFFFFFFFF (d.getN (bchB k) R.BCHG_HOCNT + 1) ∧ (disconnected d k h).bchSpare k = 7 ∧
    (disconnected d k h).bch[k].ho = none ∧ (disconnected d k h).now = d.now := by
  have hch := h.ch.isLt
  obtain ⟨y, hy⟩ : ∃ y, y = d.putF (bchB k) R.BCHG_MAP (3 * h.ch.val + 2) (3 * h.ch.val) h.spare := ⟨_, rfl⟩
  have hm : y.bchCell k h.ch = h.spare := by
    rw [hy, Dev.bchCell, Dev.getF_putF_same _ _ _ _ _ _ (by omega) (by omega), show 3 * h.ch.val + 2 + 1 - 3 * h.ch.val = 3 by omega]
    exact Nat.mod_eq_of_lt hs
  have hn : y.getN (bchB k) R.BCHG_HOCNT = d.getN (bchB k) R.BCHG_HOCNT := by
    rw [hy]
    exact congrArg BitVec.toNat (Dev.get_put_off _ _ _ _ (by decide))
  have hnow : y.now = d.now := by rw [hy]; rfl
  obtain ⟨z, hz⟩ : ∃ z, z = y.bump (bchB k) R.BCHG_HOCNT := ⟨_, rfl⟩
  have hzp : y.pageKept (bchB k) [0x12C] z := by
    rw [hz]
    exact (Dev.pageKept.refl y).put _ _ 0 0 (by decide)
  have hzn : z.getN (bchB k) R.BCHG_HOCNT = min 0xFFFFFFFF (d.getN (bchB k) R.BCHG_HOCNT + 1) := by rw [hz, Dev.getN_bump, hn]
  have hznow : z.now = d.now := by rw [hz]; exact hnow
  have he : disconnected d k h = ((z.putB (bchB k) R.BCHG_STAT 3 false).putF (bchB k) R.BCHG_STAT 2 0 7).bchMod k fun x => { x with ho := none } := by
    rw [hz, hy]
    rfl
  rw [he]
  have hp : z.pageKept (bchB k) [0x104] (((z.putB (bchB k) R.BCHG_STAT 3 false).putF (bchB k) R.BCHG_STAT 2 0 7).bchMod k fun x => { x with ho := none }) :=
    (((Dev.pageKept.refl z).put R.BCHG_STAT _ 0 0 (by decide)).put R.BCHG_STAT _ 0 0 (by decide)).beside rfl
  refine ⟨((hp.fld R.BCHG_MAP _ _ (by decide)).trans (hzp.fld R.BCHG_MAP _ _ (by decide))).trans hm,
    (congrArg BitVec.toNat (hp R.BCHG_HOCNT 0 0 (by decide) (by decide))).trans hzn,
    Dev.getF_putF_same (z.putB (bchB k) R.BCHG_STAT 3 false) _ _ _ _ _ (by decide) (by decide),
    (congrArg Bch.ho (Dev.bchMod_same _ k _)).trans rfl, hznow⟩

/-- A trim starts (R466). -/
theorem Dev.trimStart_spec (c : Nat) : d.pageKept (bchB k) [0x104] (d.trimStart k c) ∧
    (d.trimStart k c).bch[k] = { d.bch[k] with trim := some (c, d.now) } ∧ (d.trimStart k c).bchSpare k = d.bchSpare k ∧
    (d.trimStart k c).getB (bchB k) R.BCHG_STAT 4 = true := by
  unfold Dev.trimStart
  have hb : (d.bchMod k fun x => { x with trim := some (c, d.now) }).bch[k] = { d.bch[k] with trim := some (c, d.now) } := d.bchMod_same k _
  have hr : (d.bchMod k fun x => { x with trim := some (c, d.now) }).regs = d.regs := rfl
  generalize (d.bchMod k fun x => { x with trim := some (c, d.now) }) = y at hb hr
  refine ⟨((Dev.pageKept.of_regs hr).put R.BCHG_STAT _ 0 0 (by decide)).put R.BCHG_STAT _ 0 0 (by decide), ?_, ?_, ?_⟩
  · exact hb
  · refine (Dev.getF_putF_other _ _ _ _ _ _ (by decide) (.inl (by decide))).trans ((Dev.getF_putB_other _ _ _ _ _ _ (by decide) (.inl (by decide))).trans ?_)
    exact congrArg (fld · 2 0) (Dev.get_of_regs _ _ _ _ (by rw [hr]))
  · exact (Dev.getB_putF_other _ _ _ _ _ _ (by decide) (.inl (by decide))).trans (Dev.getB_putB_same _ _ _ _ _ _ (by decide))

end

/-- HAND_OVER_DISCONNECT: the spare serves the channel, and the old pair is trimmed where the hand-over was no fence's. -/
theorem handOverDisconnect_spec {s : State} {k : Fin 8} {h : Ho} {t : Nat} (hlive : s.dev.dead = false) (hho : s.dev.bch[k].ho = some h)
    (hd : h.done = some t) (hs : h.spare < 8) (ht : s.dev.pastNs t 10 = true) : ∃ d',
    exec (.handOverDisconnect k) s = .next { s with dev := d' } ∧ d'.bchCell k h.ch = h.spare ∧
    d'.getN (bchB k) R.BCHG_HOCNT = min 0xFFFFFFFF (s.dev.getN (bchB k) R.BCHG_HOCNT + 1) ∧ d'.bchSpare k = 7 ∧
    (h.fence = false → d'.bch[k].ho = none ∧ d'.bch[k].trim = some (h.old, s.dev.now) ∧ d'.getB (bchB k) R.BCHG_STAT 4 = true) := by
  obtain ⟨hm, hn, h7, hno, hnow⟩ := disconnected_spec s.dev k h hs
  have hx : exec (.handOverDisconnect k) s = .next { s with
      dev := (if h.fence then ((disconnected s.dev k h).bchNoSpare k).bchNext k
        else (if (disconnected s.dev k h).bch[k].run.isSome then
          (disconnected s.dev k h).opPart (bchB k) 2 ((disconnected s.dev k h).getN (bchB k) R.OP_PART 2 + 1)
          else disconnected s.dev k h).trimStart k h.old) } := by
    change execHandOverDisconnect k s = _
    unfold execHandOverDisconnect
    rw [onLive_next _ _ hlive, hho]
    dsimp only
    rw [hd]
    exact congrArg (fun e => Host.Outcome.next { s with dev := e }) (Dev.when_of _ _ ht)
  generalize disconnected s.dev k h = x at hm hn h7 hno hnow hx
  refine ⟨_, hx, ?_⟩
  cases hf : h.fence with
  | true =>
    rw [if_pos rfl]
    obtain ⟨hp, -, hsp, -⟩ := x.bchNoSpare_spec k
    generalize x.bchNoSpare k = y at hp hsp
    have hk := (y.bchNext_spec k).1
    generalize y.bchNext k = z at hk
    exact ⟨((hk.page.fld R.BCHG_MAP _ _ (by decide)).trans (hp.fld R.BCHG_MAP _ _ (by decide))).trans hm,
      ((congrArg BitVec.toNat (hk.page R.BCHG_HOCNT 0 0 (by decide) (by decide))).trans
        (congrArg BitVec.toNat (hp R.BCHG_HOCNT 0 0 (by decide) (by decide)))).trans hn,
      (hk.field 2 0 (by decide) (.inl (by decide))).trans hsp, fun hc => absurd hc (by decide)⟩
  | false =>
    rw [if_neg (by decide)]
    obtain ⟨y, hy⟩ : ∃ y, y = if x.bch[k].run.isSome then x.opPart (bchB k) 2 (x.getN (bchB k) R.OP_PART 2 + 1) else x := ⟨_, rfl⟩
    have hp : x.pageKept (bchB k) [R.OP_PART.ofs 2 0] y := by
      rw [hy]
      exact .ite ((Dev.pageKept.refl x).put R.OP_PART _ 2 0 List.mem_cons_self) (.refl x)
    have hb : y.bch = x.bch ∧ y.now = x.now := by
      rw [hy]
      split
      · exact ⟨rfl, rfl⟩
      · exact ⟨rfl, rfl⟩
    rw [← hy]
    clear hy
    obtain ⟨hp2, hb2, hs2, h4⟩ := y.trimStart_spec k h.old
    generalize y.trimStart k h.old = z at hp2 hb2 hs2 h4
    refine ⟨((hp2.fld R.BCHG_MAP _ _ (by decide)).trans (hp.fld R.BCHG_MAP _ _ (by decide))).trans hm,
      ((congrArg BitVec.toNat (hp2 R.BCHG_HOCNT 0 0 (by decide) (by decide))).trans
        (congrArg BitVec.toNat (hp R.BCHG_HOCNT 0 0 (by decide) (by decide)))).trans hn,
      hs2.trans ((hp.fld R.BCHG_STAT 2 0 (by decide)).trans h7), fun _ => ⟨?_, ?_, h4⟩⟩
    · rw [hb2, hb.1]
      exact hno
    · rw [hb2, hb.2, hnow]

section
variable (d : Dev) (k : Fin 8)

/-- No gap in time: the hand-over ends, with its event, its fault and the run (R465). -/
def gapless : Dev :=
  ((((d.bchMod k fun x => { x with ho := none }).put (bchB k) R.BCHG_STAT (setFld (setFld (d.get (bchB k) R.BCHG_STAT) 3 3 0) 8 8 0)).bchEvent k 2).raise
    (bchB k) none 1).runFail k 0x82

theorem gapless_spec : (gapless d k).bch[k].run = none ∧ (gapless d k).bch[k].ho = none ∧ (gapless d k).bch[k].wait = d.bch[k].wait ∧
    (gapless d k).getB (bchB k) R.BCHG_EVT 2 = true ∧ (gapless d k).getB (bchB k) R.FLT_STAT 1 = true ∧
    (d.bch[k].run.isSome = true →
      (gapless d k).opState (bchB k) = 4 ∧ (gapless d k).getF (bchB k) R.OP_STAT 15 8 = 0x82) := by
  unfold gapless
  have hb : (d.bchMod k fun x => { x with ho := none }).bch[k] = { d.bch[k] with ho := none } := d.bchMod_same k _
  generalize (d.bchMod k fun x => { x with ho := none }) = y at hb
  generalize setFld (setFld (d.get (bchB k) R.BCHG_STAT) 3 3 0) 8 8 0 = w
  have hb2 : ((y.put (bchB k) R.BCHG_STAT w).bchEvent k 2).bch = y.bch := rfl
  have he := (y.put (bchB k) R.BCHG_STAT w).bchEvent_shows k (i := 2) (by decide)
  generalize (y.put (bchB k) R.BCHG_STAT w).bchEvent k 2 = z at hb2 he
  obtain ⟨hr, hp, hf⟩ := z.bchRaise_spec k none (kind := 1) (by decide)
  have he2 := (hp.bit R.BCHG_EVT 2 (by decide)).trans he
  have hb3 : (z.raise (bchB k) none 1).bch[k] = { d.bch[k] with ho := none } := by rw [hr, hb2, hb]
  generalize z.raise (bchB k) none 1 = u at hb3 he2 hf
  obtain ⟨hk, hn, -, hs, hho, hw⟩ := u.runFail_keeps k 0x82
  refine ⟨hn, ?_, ?_, (hk.page.bit _ 2 (by decide)).trans he2, (hk.page.bit _ 1 (by decide)).trans hf, fun h => ?_⟩
  · rw [hho, hb3]
  · rw [hw, hb3]
  · have hw := hs (by
      rw [hb3]
      exact h)
    refine ⟨?_, ?_⟩
    · rw [Dev.opState, Dev.getF, hw]
      exact (opWord_state _ _ _ _).trans rfl
    · rw [Dev.getF, hw]
      exact (opWord_err _ _ _ _).trans rfl

/-- CAL_GAPWAIT (R465). -/
theorem exec_calGapwait {s : State} {k : Fin 8} {h : Ho} {a : Nat} (hlive : s.dev.dead = false) (hho : s.dev.bch[k].ho = some h)
    (ha : h.armed = some a) (hd : h.done = none) (hf : h.fence = false)
    (ht : s.dev.past a (s.dev.getF (bchB k) R.BCHG_GAPWAIT 15 0 * 1000) = true) :
    exec (.calGapwait k) s = .next { s with dev := (gapless s.dev k).bchNext k } := by
  change execCalGapwait k s = _
  unfold execCalGapwait
  rw [onLive_next _ _ hlive, hho]
  dsimp only
  rw [ha, hd]
  have hcond : (!h.fence && s.dev.past a (s.dev.getF (bchB k) R.BCHG_GAPWAIT 15 0 * 1000)) = true := by
    rw [hf, ht]
    rfl
  exact congrArg (fun e => Host.Outcome.next { s with dev := e }) (Dev.when_of _ _ hcond)

end

end Sys2Proof.Machine
end

section
/-! SUPPORT. The end of a trim (R460, R466, R467). -/

namespace Sys2Proof.Machine

/-- The registers of a cell's trim. -/
abbrev trimOfs (c : Fin 5) : List Nat :=
  [R.BCHG_TRIM_DAC.ofs c.val 0, R.BCHG_TRIM_ADC.ofs c.val 0, R.BCHG_TRIM_INFO.ofs c.val 0, R.BCHG_TRIM_STAT.ofs c.val 0]

section
variable (d : Dev) (k : Fin 8) (c : Fin 5)

/-- A cell's count of trims. -/
theorem Dev.trimCount_spec : d.pageKept (bchB k) [R.BCHG_TRIM_STAT.ofs c.val 0] (d.bumpF (bchB k) R.BCHG_TRIM_STAT 31 16 1 c.val) ∧
    (d.bumpF (bchB k) R.BCHG_TRIM_STAT 31 16 1 c.val).getF (bchB k) R.BCHG_TRIM_STAT 31 16 c.val =
      min 65535 (d.getF (bchB k) R.BCHG_TRIM_STAT 31 16 c.val + 1) ∧
    (d.bumpF (bchB k) R.BCHG_TRIM_STAT 31 16 1 c.val).getB (bchB k) R.BCHG_TRIM_STAT 1 c.val = d.getB (bchB k) R.BCHG_TRIM_STAT 1 c.val := by
  refine ⟨(Dev.pageKept.refl d).put _ _ _ _ List.mem_cons_self, ?_, Dev.getB_putF_other _ _ _ _ _ _ (by decide) (.inl (by decide))⟩
  refine (Dev.getF_putF_same _ _ _ _ _ _ (by decide) (by decide)).trans ?_
  unfold satAdd
  generalize d.getF (bchB k) R.BCHG_TRIM_STAT 31 16 c.val = n
  change min (2 ^ 16 - 1) (n + 1) % 2 ^ 16 = min (2 ^ 16 - 1) (n + 1)
  omega

/-- A trim that went well stores its words. -/
theorem Dev.trimGood_spec (r : TrimResult) : d.pageKept (bchB k) (trimOfs c) (d.trimGood k c.val r) ∧
    (d.trimGood k c.val r).get (bchB k) R.BCHG_TRIM_DAC c.val = r.dac &&& 0x03FF03FF#32 ∧
    (d.trimGood k c.val r).get (bchB k) R.BCHG_TRIM_ADC c.val = r.adc &&& 0x03FF03FF#32 ∧
    (d.trimGood k c.val r).getF (bchB k) R.BCHG_TRIM_STAT 31 16 c.val = d.getF (bchB k) R.BCHG_TRIM_STAT 31 16 c.val ∧
    (d.trimGood k c.val r).getB (bchB k) R.BCHG_TRIM_STAT 1 c.val = d.getB (bchB k) R.BCHG_TRIM_STAT 1 c.val ∧
    (d.trimGood k c.val r).bch[k].trim = d.bch[k].trim ∧ (d.trimGood k c.val r).flt = d.flt ∧ (d.trimGood k c.val r).now = d.now := by
  unfold Dev.trimGood
  extract_lets b st w d1
  have hw : w.2.2.2 = setFld (setFld st 0 0 1) 2 2 0 := rfl
  have hwd : w.1 = r.dac &&& 0x03FF03FF#32 := rfl
  have hwa : w.2.1 = r.adc &&& 0x03FF03FF#32 := rfl
  clear_value w
  have hne : ∀ {x y : Reg}, x.ofs c.val 0 ≠ y.ofs c.val 0 → ∀ (e : Dev) (v : Word), (e.put b y v c.val).get b x c.val = e.get b x c.val :=
    fun h e v => Dev.get_put_ne _ _ _ _ _ _ _ _ _ _ (radr_ne_of_ofs _ _ _ _ _ _ _ h)
  have hdac : R.BCHG_TRIM_DAC.ofs c.val 0 ∉ [R.BCHG_TRIM_ADC.ofs c.val 0, R.BCHG_TRIM_INFO.ofs c.val 0, R.BCHG_TRIM_STAT.ofs c.val 0] :=
    (by decide : ∀ c : Fin 5, R.BCHG_TRIM_DAC.ofs c.val 0 ∉ [R.BCHG_TRIM_ADC.ofs c.val 0, R.BCHG_TRIM_INFO.ofs c.val 0, R.BCHG_TRIM_STAT.ofs c.val 0]) c
  have hadc : R.BCHG_TRIM_ADC.ofs c.val 0 ∉ [R.BCHG_TRIM_INFO.ofs c.val 0, R.BCHG_TRIM_STAT.ofs c.val 0] :=
    (by decide : ∀ c : Fin 5, R.BCHG_TRIM_ADC.ofs c.val 0 ∉ [R.BCHG_TRIM_INFO.ofs c.val 0, R.BCHG_TRIM_STAT.ofs c.val 0]) c
  simp only [List.mem_cons, List.not_mem_nil, or_false, not_or] at hdac hadc
  obtain ⟨hda, hdi, hds⟩ := hdac
  obtain ⟨hai, has⟩ := hadc
  have hr : ∀ u : Bch → Bch, (d1.bchMod k u).regs = d1.regs := fun _ => rfl
  have hp : d.pageKept b (trimOfs c) d1 :=
    ((((Dev.pageKept.refl d).put R.BCHG_TRIM_DAC _ _ _ (by simp)).put R.BCHG_TRIM_ADC _ _ _ (by simp)).put R.BCHG_TRIM_INFO _ _ _ (by simp)).put
      R.BCHG_TRIM_STAT _ _ _ (by simp)
  have h1 : d1.get b R.BCHG_TRIM_DAC c.val = w.1 := by
    simp only [d1]
    rw [hne hds, hne hdi, hne hda]
    exact Dev.get_put_same _ _ _ _ _ _
  have h2 : d1.get b R.BCHG_TRIM_ADC c.val = w.2.1 := by
    simp only [d1]
    rw [hne has, hne hai]
    exact Dev.get_put_same _ _ _ _ _ _
  have h3 : d1.get b R.BCHG_TRIM_STAT c.val = setFld (setFld st 0 0 1) 2 2 0 := (Dev.get_put_same _ _ _ _ _ _).trans hw
  have hb1 : d1.bch = d.bch ∧ d1.flt = d.flt ∧ d1.now = d.now := ⟨rfl, rfl, rfl⟩
  clear_value d1
  have hg : ∀ (u : Bch → Bch) (q : Reg), (d1.bchMod k u).get b q c.val = d1.get b q c.val := fun u q => Dev.get_of_regs _ _ _ _ (by rw [hr])
  refine ⟨hp.beside (hr _), (hg _ _).trans (h1.trans hwd), (hg _ _).trans (h2.trans hwa), ?_, ?_, ?_, hb1.2.1, hb1.2.2⟩
  · rw [Dev.getF, hg, h3, fld_setFld_ne _ _ _ _ _ _ (by decide) (by decide), fld_setFld_ne _ _ _ _ _ _ (by decide) (by decide)]
    rfl
  · rw [Dev.getB, hg, h3, bit_setFld _ _ _ _ _ (by decide), bit_setFld _ _ _ _ _ (by decide)]
    rfl
  · exact (congrArg Bch.trim (d1.bchMod_same k _)).trans (by rw [hb1.1])

/-- Any other outcome keeps the words, is counted and raises kind 0, and kind 4 where the reference was out of range. -/
theorem Dev.trimBad_spec (refOk : Bool) : d.pageKept (bchB k) [R.BCHG_TRIM_STAT.ofs c.val 0, 0x130, 0x134, 0x010] (d.trimBad k c.val refOk) ∧
    (d.trimBad k c.val refOk).getN (bchB k) R.BCHG_FAILS = min 0xFFFFFFFF (d.getN (bchB k) R.BCHG_FAILS + 1) ∧
    (d.trimBad k c.val refOk).getF (bchB k) R.BCHG_TRIM_STAT 31 16 c.val = d.getF (bchB k) R.BCHG_TRIM_STAT 31 16 c.val ∧
    (d.trimBad k c.val refOk).getB (bchB k) R.FLT_STAT 0 = true ∧ (refOk = false → (d.trimBad k c.val refOk).getB (bchB k) R.FLT_STAT 4 = true) ∧
    (d.trimBad k c.val refOk).bch = d.bch ∧ (d.trimBad k c.val refOk).now = d.now := by
  unfold Dev.trimBad
  extract_lets b stale d1 d2
  have hts : R.BCHG_TRIM_STAT.ofs c.val 0 ∉ [0x130, 0x134, 0x010] := (by decide : ∀ c : Fin 5, R.BCHG_TRIM_STAT.ofs c.val 0 ∉ [0x130, 0x134, 0x010]) c
  have hto : R.BCHG_TRIM_STAT.ofs c.val 0 < 0x1000 := (by decide : ∀ c : Fin 5, R.BCHG_TRIM_STAT.ofs c.val 0 < 0x1000) c
  obtain ⟨y, hy⟩ : ∃ y, y = d.putB b R.BCHG_TRIM_STAT 2 true c.val := ⟨_, rfl⟩
  have hy1 : d.pageKept b [R.BCHG_TRIM_STAT.ofs c.val 0] y := by
    rw [hy]
    exact (Dev.pageKept.refl d).put _ _ _ _ List.mem_cons_self
  have hy2 : y.getF b R.BCHG_TRIM_STAT 31 16 c.val = d.getF b R.BCHG_TRIM_STAT 31 16 c.val := by
    rw [hy]
    exact Dev.getF_putB_other _ _ _ _ _ _ (by decide) (.inr (by decide))
  have hy3 : y.bch = d.bch ∧ y.now = d.now := by rw [hy]; exact ⟨rfl, rfl⟩
  have hd1 : d1 = (y.bump b R.BCHG_FAILS).bchEvent k 1 := by rw [hy]
  clear_value d1
  clear hy
  obtain ⟨z, hz⟩ : ∃ z, z = y.bump b R.BCHG_FAILS := ⟨_, rfl⟩
  have hz1 : y.pageKept b [0x130] z := by
    rw [hz]
    exact (Dev.pageKept.refl y).put _ _ 0 0 (by decide)
  have hz2 : z.getN b R.BCHG_FAILS = min 0xFFFFFFFF (d.getN b R.BCHG_FAILS + 1) := by
    have hn : y.getN b R.BCHG_FAILS = d.getN b R.BCHG_FAILS := congrArg BitVec.toNat (hy1 R.BCHG_FAILS 0 0 (by decide) fun h => hts (by
      rw [← List.mem_singleton.mp h]
      decide))
    rw [hz, Dev.getN_bump, hn]
  have hz3 : z.bch = y.bch ∧ z.now = y.now := by rw [hz]; exact ⟨rfl, rfl⟩
  rw [← hz] at hd1
  clear hz
  have hw1 := z.bchEvent_page k 1
  have hw3 : (z.bchEvent k 1).bch = z.bch ∧ (z.bchEvent k 1).now = z.now := ⟨rfl, rfl⟩
  rw [← hd1] at hw1 hw3
  clear hd1
  obtain ⟨u, hu⟩ : ∃ u, u = if stale then d1.putB b R.BCHG_TRIM_STAT 1 false c.val else d1 := ⟨_, rfl⟩
  have hu1 : d1.pageKept b [R.BCHG_TRIM_STAT.ofs c.val 0] u := by
    rw [hu]
    exact .ite ((Dev.pageKept.refl d1).put _ _ _ _ List.mem_cons_self) (.refl d1)
  have hu2 : u.getF b R.BCHG_TRIM_STAT 31 16 c.val = d1.getF b R.BCHG_TRIM_STAT 31 16 c.val := by
    rw [hu]
    split
    · exact Dev.getF_putB_other _ _ _ _ _ _ (by decide) (.inr (by decide))
    · rfl
  have hu3 : u.bch = d1.bch ∧ u.now = d1.now := by
    rw [hu]
    split
    · exact ⟨rfl, rfl⟩
    · exact ⟨rfl, rfl⟩
  have hd2 : d2 = u.raise b (some c.val) 0 := by rw [hu]
  clear_value d2
  clear hu
  obtain ⟨hv, hv1, hv2⟩ := u.bchRaise_spec k (some c.val) (kind := 0) (by decide)
  have hvn : (u.raise b (some c.val) 0).now = u.now := (Dev.detect_changes _ _ _ _ _ _ _ _).get Dev.now
  rw [← hd2] at hv hv1 hv2 hvn
  clear hd2
  obtain ⟨e, he⟩ : ∃ e, e = if refOk then d2 else d2.raise b none 4 := ⟨_, rfl⟩
  have he1 : d2.pageKept b [0x010] e := by
    rw [he]
    exact .ite (.refl d2) (d2.bchRaise_spec k none (kind := 4) (by decide)).2.1
  have he2 : e.getB b R.FLT_STAT 0 = true := by
    rw [he]
    split
    · exact hv2
    · exact d2.detect_keeps_bit (bchB_kind k) none 4 0 false false false hv2
  have he3 : e.bch = d2.bch ∧ e.now = d2.now := by
    rw [he]
    split
    · exact ⟨rfl, rfl⟩
    · exact ⟨(d2.bchRaise_spec k none (kind := 4) (by decide)).1, (Dev.detect_changes _ _ _ _ _ _ _ _).get Dev.now⟩
  have he4 : refOk = false → e.getB b R.FLT_STAT 4 = true := fun h => by
    rw [he, h, if_neg (by decide)]
    exact (d2.bchRaise_spec k none (kind := 4) (by decide)).2.2
  rw [← he]
  clear he
  have hfd : ∀ {L : List Nat} {x x' : Dev}, x.pageKept b L x' → R.BCHG_TRIM_STAT.ofs c.val 0 ∉ L →
      x'.getF b R.BCHG_TRIM_STAT 31 16 c.val = x.getF b R.BCHG_TRIM_STAT 31 16 c.val := fun h hn => congrArg (fld · 31 16) (h _ _ _ hto hn)
  have hff : ∀ {L : List Nat} {x x' : Dev}, x.pageKept b L x' → 0x130 ∉ L → x'.getN b R.BCHG_FAILS = x.getN b R.BCHG_FAILS :=
    fun h hn => congrArg BitVec.toNat (h R.BCHG_FAILS 0 0 (by decide) hn)
  have h130 : (0x130 : Nat) ∉ [R.BCHG_TRIM_STAT.ofs c.val 0] := fun h => hts (by
    rw [← List.mem_singleton.mp h]
    decide)
  refine ⟨?_, ?_, ?_, he2, he4, ?_, ?_⟩
  · exact (hy1.mono (by simp)).trans ((hz1.mono (by simp)).trans ((hw1.mono (by simp)).trans ((hu1.mono (by simp)).trans
      ((hv1.mono (by simp)).trans (he1.mono (by simp))))))
  · exact (hff he1 (by decide)).trans ((hff hv1 (by decide)).trans ((hff hu1 h130).trans ((hff hw1 (by decide)).trans hz2)))
  · refine (hfd he1 fun h => hts ?_).trans ((hfd hv1 fun h => hts ?_).trans (hu2.trans ((hfd hw1 fun h => hts ?_).trans ((hfd hz1 fun h => hts ?_).trans hy2))))
    · rw [List.mem_singleton.mp h]; decide
    · rw [List.mem_singleton.mp h]; decide
    · rw [List.mem_singleton.mp h]; decide
    · rw [List.mem_singleton.mp h]; decide
  · rw [he3.1, hv, hu3.1, hw3.1, hz3.1, hy3.1]
  · rw [he3.2, hvn, hu3.2, hw3.2, hz3.2, hy3.2]

/-- The registers of a run's account. -/
abbrev runOfs : List Nat := [R.OP_STAT.ofs 0 0, R.OP_PART.ofs 0 0, R.OP_PART.ofs 1 0, R.OP_PART.ofs 4 0]

/-- The run's account of a trim (R470). -/
theorem Dev.runTrim_spec (c : Nat) (good : Bool) (n : Nat) : d.pageKept (bchB k) runOfs (d.runTrim k c good n) ∧
    (d.runTrim k c good n).bch[k].trim = d.bch[k].trim ∧ (d.runTrim k c good n).bch[k].age = d.bch[k].age ∧
    (d.runTrim k c good n).flt = d.flt := by
  unfold Dev.runTrim
  dsimp only
  split
  · exact ⟨.refl d, rfl, rfl, rfl⟩
  · rename_i left total well hrun
    have h1 : d.pageKept (bchB k) runOfs ((d.opPart (bchB k) 0 (d.getN (bchB k) R.OP_PART 0 + 1)).opPart (bchB k) 1
        (c + min 255 n * 256 + good.toNat * 65536)) :=
      ((Dev.pageKept.refl d).put R.OP_PART _ 0 0 (by decide)).put R.OP_PART _ 1 0 (by decide)
    have hc1 : d.changes [.regs] ((d.opPart (bchB k) 0 (d.getN (bchB k) R.OP_PART 0 + 1)).opPart (bchB k) 1
        (c + min 255 n * 256 + good.toNat * 65536)) := rfl
    generalize (d.opPart (bchB k) 0 (d.getN (bchB k) R.OP_PART 0 + 1)).opPart (bchB k) 1 (c + min 255 n * 256 + good.toNat * 65536) = y at h1 hc1
    obtain ⟨z, hz⟩ : ∃ z, z = if good then y else y.opPart (bchB k) 4 (y.getN (bchB k) R.OP_PART 4 + 1) := ⟨_, rfl⟩
    have h2 : y.pageKept (bchB k) runOfs z := by
      rw [hz]
      exact .ite (.refl y) ((Dev.pageKept.refl y).put R.OP_PART _ 4 0 (by decide))
    have hc2 : y.changes [.regs] z := by
      rw [hz]
      exact .ite (.refl _ _) rfl
    rw [← hz]
    clear hz
    have hb : z.bch = d.bch := (hc2.get Dev.bch).trans (hc1.get Dev.bch)
    generalize hu : (fun x : Bch => ({ x with run := some (left.filter (· ≠ c), total, if good then well ++ [c] else well) } : Bch)) = u
    have hum : (z.bchMod k u).bch[k] = u d.bch[k] := by rw [Dev.bchMod_same, hb]
    refine ⟨h1.trans (h2.trans (((Dev.pageKept.refl z).beside rfl).put R.OP_STAT _ 0 0 (by decide))), ?_, ?_, ?_⟩
    · refine (congrArg Bch.trim hum).trans ?_
      rw [← hu]
    · refine (congrArg Bch.age hum).trans ?_
      rw [← hu]
    · exact (hc2.get Dev.flt).trans (hc1.get Dev.flt)

end

end Sys2Proof.Machine
end

section
/-! The converters' calibration (R460 to R471). -/

namespace Sys2Proof.Machine

section
variable (d : Dev) (k : Fin 8) (c : Fin 5) (r : TrimResult)

/-- The state in which a trim's outcome is shown: the pair is free, and the reference stands. -/
def trimmed (refOk : Bool) : Dev := ((d.trimOff k).put (bchB k) R.BCHG_REFIN (wd r.refin.toNat)).putB (bchB k) R.BCHG_STAT 16 refOk

theorem trimmed_spec (refOk : Bool) : d.pageKept (bchB k) [0x104, 0x124] (trimmed d k r refOk) ∧
    (trimmed d k r refOk).bch[k].trim = none ∧ (trimmed d k r refOk).getN (bchB k) R.BCHG_REFIN = r.refin.toNat ∧
    (trimmed d k r refOk).getB (bchB k) R.BCHG_STAT 16 = refOk ∧ (trimmed d k r refOk).flt = d.flt ∧ (trimmed d k r refOk).now = d.now := by
  unfold trimmed Dev.trimOff
  have hb : (d.bchMod k fun x => { x with trim := none }).bch[k].trim = none := (congrArg Bch.trim (d.bchMod_same k _)).trans rfl
  have hc : (d.bchMod k fun x => { x with trim := none }).regs = d.regs ∧ (d.bchMod k fun x => { x with trim := none }).flt = d.flt ∧
      (d.bchMod k fun x => { x with trim := none }).now = d.now := ⟨rfl, rfl, rfl⟩
  generalize (d.bchMod k fun x => { x with trim := none }) = y at hb hc
  obtain ⟨hr, hf, hn⟩ := hc
  refine ⟨(((Dev.pageKept.of_regs hr).put R.BCHG_STAT _ 0 0 (by decide)).put R.BCHG_REFIN _ 0 0 (by decide)).put R.BCHG_STAT _ 0 0 (by decide), hb, ?_,
    Dev.getB_putB_same _ _ _ _ _ _ (by decide), hf, hn⟩
  refine (congrArg BitVec.toNat ((Dev.get_put_off _ _ _ _ (by decide)).trans (Dev.get_put_same _ _ _ _ _ _))).trans ?_
  rw [wd, BitVec.toNat_ofNat]
  omega

/-- The outcome of a trim: the cell's words, its faults and its count. -/
def trimShown (refOk good : Bool) : Dev :=
  (if good then d.trimGood k c.val r else d.trimBad k c.val refOk).bumpF (bchB k) R.BCHG_TRIM_STAT 31 16 1 c.val

/-- The registers of either outcome. -/
abbrev shownOfs (c : Fin 5) : List Nat := trimOfs c ++ [0x130, 0x134, 0x010]

theorem trimShown_spec (refOk good : Bool) : let e := trimShown d k c r refOk good
    d.pageKept (bchB k) (shownOfs c) e ∧ e.bch[k].trim = d.bch[k].trim ∧ e.now = d.now ∧
    e.getF (bchB k) R.BCHG_TRIM_STAT 31 16 c.val = min 65535 (d.getF (bchB k) R.BCHG_TRIM_STAT 31 16 c.val + 1) ∧
    (good = true → e.get (bchB k) R.BCHG_TRIM_DAC c.val = r.dac &&& 0x03FF03FF#32 ∧ e.get (bchB k) R.BCHG_TRIM_ADC c.val = r.adc &&& 0x03FF03FF#32 ∧
      e.getB (bchB k) R.BCHG_TRIM_STAT 1 c.val = d.getB (bchB k) R.BCHG_TRIM_STAT 1 c.val ∧ e.flt = d.flt) ∧
    (good = false → e.get (bchB k) R.BCHG_TRIM_DAC c.val = d.get (bchB k) R.BCHG_TRIM_DAC c.val ∧
      e.get (bchB k) R.BCHG_TRIM_ADC c.val = d.get (bchB k) R.BCHG_TRIM_ADC c.val ∧
      e.getN (bchB k) R.BCHG_FAILS = min 0xFFFFFFFF (d.getN (bchB k) R.BCHG_FAILS + 1) ∧ e.getB (bchB k) R.FLT_STAT 0 = true ∧
      (refOk = false → e.getB (bchB k) R.FLT_STAT 4 = true)) := by
  have hdac : R.BCHG_TRIM_DAC.ofs c.val 0 < 0x1000 ∧ R.BCHG_TRIM_DAC.ofs c.val 0 ∉ [R.BCHG_TRIM_STAT.ofs c.val 0, 0x130, 0x134, 0x010] :=
    (by decide : ∀ c : Fin 5, R.BCHG_TRIM_DAC.ofs c.val 0 < 0x1000 ∧
      R.BCHG_TRIM_DAC.ofs c.val 0 ∉ [R.BCHG_TRIM_STAT.ofs c.val 0, 0x130, 0x134, 0x010]) c
  have hadc : R.BCHG_TRIM_ADC.ofs c.val 0 < 0x1000 ∧ R.BCHG_TRIM_ADC.ofs c.val 0 ∉ [R.BCHG_TRIM_STAT.ofs c.val 0, 0x130, 0x134, 0x010] :=
    (by decide : ∀ c : Fin 5, R.BCHG_TRIM_ADC.ofs c.val 0 < 0x1000 ∧
      R.BCHG_TRIM_ADC.ofs c.val 0 ∉ [R.BCHG_TRIM_STAT.ofs c.val 0, 0x130, 0x134, 0x010]) c
  have hfa : R.BCHG_FAILS.ofs 0 0 ∉ [R.BCHG_TRIM_STAT.ofs c.val 0] :=
    (by decide : ∀ c : Fin 5, R.BCHG_FAILS.ofs 0 0 ∉ [R.BCHG_TRIM_STAT.ofs c.val 0]) c
  have hfl : R.FLT_STAT.ofs 0 0 ∉ [R.BCHG_TRIM_STAT.ofs c.val 0] :=
    (by decide : ∀ c : Fin 5, R.FLT_STAT.ofs 0 0 ∉ [R.BCHG_TRIM_STAT.ofs c.val 0]) c
  intro e
  cases hgd : good with
  | true =>
    obtain ⟨hp, h1, h2, h3, h4, h5, h6, h7⟩ := d.trimGood_spec k c r
    have he : e = (d.trimGood k c.val r).bumpF (bchB k) R.BCHG_TRIM_STAT 31 16 1 c.val := by
      simp only [e, trimShown, hgd, if_true]
    clear_value e
    generalize d.trimGood k c.val r = y at hp h1 h2 h3 h4 h5 h6 h7 he
    obtain ⟨hq, hn, hu⟩ := y.trimCount_spec k c
    have hz : (y.bumpF (bchB k) R.BCHG_TRIM_STAT 31 16 1 c.val).bch = y.bch ∧ (y.bumpF (bchB k) R.BCHG_TRIM_STAT 31 16 1 c.val).flt = y.flt ∧
        (y.bumpF (bchB k) R.BCHG_TRIM_STAT 31 16 1 c.val).now = y.now := ⟨rfl, rfl, rfl⟩
    rw [← he] at hq hn hu hz
    clear he
    obtain ⟨hz1, hz2, hz3⟩ := hz
    refine ⟨(hp.mono (by simp)).trans (hq.mono (by simp)), by rw [hz1, h5], by rw [hz3, h7], by rw [hn, h3], fun _ => ⟨?_, ?_, by rw [hu, h4], by rw [hz2, h6]⟩,
      fun h => absurd h (by decide)⟩
    · exact (hq _ _ _ hdac.1 fun h => hdac.2 (List.mem_cons.mpr (.inl (List.mem_singleton.mp h)))).trans h1
    · exact (hq _ _ _ hadc.1 fun h => hadc.2 (List.mem_cons.mpr (.inl (List.mem_singleton.mp h)))).trans h2
  | false =>
    obtain ⟨hp, h1, h2, h3, h4, h5, h6⟩ := d.trimBad_spec k c refOk
    have he : e = (d.trimBad k c.val refOk).bumpF (bchB k) R.BCHG_TRIM_STAT 31 16 1 c.val := by
      simp only [e, trimShown, hgd, Bool.false_eq_true, if_false]
    clear_value e
    generalize d.trimBad k c.val refOk = y at hp h1 h2 h3 h4 h5 h6 he
    obtain ⟨hq, hn, hu⟩ := y.trimCount_spec k c
    have hz : (y.bumpF (bchB k) R.BCHG_TRIM_STAT 31 16 1 c.val).bch = y.bch ∧
        (y.bumpF (bchB k) R.BCHG_TRIM_STAT 31 16 1 c.val).now = y.now := ⟨rfl, rfl⟩
    rw [← he] at hq hn hu hz
    clear he
    obtain ⟨hz1, hz3⟩ := hz
    refine ⟨(hp.mono (by simp)).trans (hq.mono (by simp)), by rw [hz1, h5], by rw [hz3, h6], by rw [hn, h2], fun h => absurd h (by decide),
      fun _ => ⟨?_, ?_, ?_, (hq.bit _ 0 ⟨by decide, hfl⟩).trans h3, fun h => (hq.bit _ 4 ⟨by decide, hfl⟩).trans (h4 h)⟩⟩
    · exact (hq _ _ _ hdac.1 fun h => hdac.2 (List.mem_cons.mpr (.inl (List.mem_singleton.mp h)))).trans (hp _ _ _ hdac.1 hdac.2)
    · exact (hq _ _ _ hadc.1 fun h => hadc.2 (List.mem_cons.mpr (.inl (List.mem_singleton.mp h)))).trans (hp _ _ _ hadc.1 hadc.2)
    · exact (congrArg BitVec.toNat (hq R.BCHG_FAILS 0 0 (by decide) hfa)).trans h1

/-- What follows: the cell's age, the run's account and the spare. -/
def trimSettled (good : Bool) (now : Nat) : Dev :=
  let e := (d.bchMod k fun x => { x with age := vmod x.age (Fin.ofNat 5 c.val) fun _ => now }).runTrim k c.val good r.residual.toNat
  if e.bchUsable k c.val then e.putF (bchB k) R.BCHG_STAT 2 0 c.val else e.bchNoSpare k

theorem trimSettled_spec (good : Bool) (now : Nat) : let e := trimSettled d k c r good now
    d.pageKept (bchB k) (runOfs ++ [0x104, 0x134, 0x010]) e ∧ e.bch[k].trim = d.bch[k].trim ∧ e.bch[k].age[c] = now ∧
    e.getB (bchB k) R.BCHG_STAT 16 = d.getB (bchB k) R.BCHG_STAT 16 ∧ (∀ j, d.getB (bchB k) R.FLT_STAT j = true → e.getB (bchB k) R.FLT_STAT j = true) ∧
    (d.bchUsable k c.val = true → e.bchSpare k = c.val) := by
  unfold trimSettled
  have hc5 : Fin.ofNat 5 c.val = c := Fin.ext (Nat.mod_eq_of_lt c.isLt)
  have hb : (d.bchMod k fun x => { x with age := vmod x.age (Fin.ofNat 5 c.val) fun _ => now }).bch[k] =
      { d.bch[k] with age := vmod d.bch[k].age c fun _ => now } := by rw [Dev.bchMod_same, hc5]
  have hr : (d.bchMod k fun x => { x with age := vmod x.age (Fin.ofNat 5 c.val) fun _ => now }).regs = d.regs ∧
      (d.bchMod k fun x => { x with age := vmod x.age (Fin.ofNat 5 c.val) fun _ => now }).flt = d.flt := ⟨rfl, rfl⟩
  generalize (d.bchMod k fun x => { x with age := vmod x.age (Fin.ofNat 5 c.val) fun _ => now }) = y at hb hr
  obtain ⟨hp, ht, ha, hf⟩ := y.runTrim_spec k c.val good r.residual.toNat
  generalize y.runTrim k c.val good r.residual.toNat = z at hp ht ha hf
  have hdz : d.pageKept (bchB k) runOfs z := (Dev.pageKept.of_regs hr.1).trans hp
  have hzt : z.bch[k].trim = d.bch[k].trim := ht.trans ((congrArg Bch.trim hb).trans rfl)
  have hza : z.bch[k].age[c] = now := by
    rw [ha, hb]
    exact vmod_same _ _ _
  have hstat : R.BCHG_TRIM_STAT.ofs c.val 0 < 0x1000 ∧ R.BCHG_TRIM_STAT.ofs c.val 0 ∉ runOfs :=
    (by decide : ∀ c : Fin 5, R.BCHG_TRIM_STAT.ofs c.val 0 < 0x1000 ∧ R.BCHG_TRIM_STAT.ofs c.val 0 ∉ runOfs) c
  have hus : z.bchUsable k c.val = d.bchUsable k c.val := by
    unfold Dev.bchUsable Dev.cellFenced Dev.getB
    rw [hdz _ _ _ hstat.1 hstat.2, hf, hr.2]
  dsimp only
  split
  · rename_i hu
    have hq : z.pageKept (bchB k) [0x104] (z.putF (bchB k) R.BCHG_STAT 2 0 c.val) := (Dev.pageKept.refl z).put _ _ 0 0 (by decide)
    have hzb : (z.putF (bchB k) R.BCHG_STAT 2 0 c.val).bch = z.bch := rfl
    refine ⟨(hdz.mono (by simp)).trans (hq.mono (by simp)), (congrArg (fun v : Vector Bch 8 => v[k].trim) hzb).trans hzt, (congrArg (fun v : Vector Bch 8 => v[k].age[c]) hzb).trans hza,
      (Dev.getB_putF_other _ _ _ _ _ _ (by decide) (.inr (by decide))).trans (hdz.bit _ 16 (by decide)),
      fun j hj => ((hq.bit _ j (by decide)).trans (hdz.bit _ j (by decide))).trans hj, fun _ => ?_⟩
    refine (Dev.getF_putF_same _ _ _ _ _ _ (by decide) (by decide)).trans (Nat.mod_eq_of_lt ?_)
    have := c.isLt
    omega
  · rename_i hu
    obtain ⟨hq, hzb, -, h16, hfs⟩ := z.bchNoSpare_spec k
    refine ⟨(hdz.mono (by simp)).trans (hq.mono (by simp)), (congrArg (fun v : Vector Bch 8 => v[k].trim) hzb).trans hzt, (congrArg (fun v : Vector Bch 8 => v[k].age[c]) hzb).trans hza, (h16 16 (by decide)).trans (hdz.bit _ 16 (by decide)),
      fun j hj => (hfs j).mpr (.inr ((hdz.bit _ j (by decide)).trans hj)), fun h => absurd (hus.trans h) hu⟩

end

end Sys2Proof.Machine
end

section
/-! The converters' calibration (R460 to R471). -/

namespace Sys2Proof.Machine

theorem bchB_ne_jrnl (k : Fin 8) : bchB k ≠ jrnl := by
  revert k
  decide

theorem Dev.jShow_beside (d : Dev) {b : Blk} (hj : b ≠ jrnl) : d.pageKept b [] d.jShow := by
  unfold Dev.jShow
  exact (((((((Dev.pageKept.refl d).putOther hj.symm _ _ 0 0 (by decide)).putOther hj.symm _ _ 0 0 (by decide)).putOther hj.symm _ _ 0 0
    (by decide)).putOther hj.symm _ _ 0 0 (by decide)).putOther hj.symm _ _ 0 0 (by decide)).putOther hj.symm _ _ 0 0 (by decide)).putOther
    hj.symm _ _ 0 0 (by decide)

/-- A transaction that is queued touches no register of another block. -/
theorem Dev.jAppend_page (d : Dev) {b : Blk} (hh : b ≠ hif) (hf : b ≠ fltc) (hj : b ≠ jrnl) (l : List (Nat × Word × List Byte)) :
    d.pageKept b [] (d.jAppend l) := by
  have hr : ∀ (x : Dev) {q r : Reg} {i j : Nat}, q.ofs i j < 0x1000 → r.ofs 0 0 < 0x1000 → radr b q i j ≠ radr jrnl r := fun _ {_ _ _ _} ho hr =>
    radr_ne_of_blk _ _ _ _ _ _ _ _ hj ho hr
  unfold Dev.jAppend Dev.jQueue
  refine .ite (.refl d) ?_
  split
  · exact .refl d
  · split
    · intro q i j ho _
      exact (Dev.detect_get _ hh ho _ _ _ _ _ _ hf (hr d ho (by decide))).trans (Dev.get_put_ne _ _ _ _ _ _ _ _ _ _ (hr d ho (by decide)))
    · have hm : ∀ u : Jrn → Jrn, (d.jmod u).regs = d.regs := fun _ => rfl
      exact (Dev.pageKept.of_regs (hm _)).trans (Dev.jShow_beside _ hj)

/-- TRIM_DONE (R460, R466, R467). -/
theorem trimDone_spec {s : State} {k : Fin 8} {c : Fin 5} {t0 : Nat} (r : TrimResult) (hlive : s.dev.dead = false)
    (htr : s.dev.bch[k].trim = some (c.val, t0)) :
    let b := bchB k
    let refOk : Prop := 24500 ≤ r.refin.toNat ∧ r.refin.toNat ≤ 25500
    let good : Prop := refOk ∧ r.residual.toNat ≤ s.dev.getF b R.BCHG_LIMIT 7 0 * 8 ∧
      s.dev.now ≤ t0 + 800 * s.dev.getF b R.BCHG_TIMEOUT 15 0
    ∃ d', exec (.trimDone k r) s = .next { s with dev := d' } ∧ d'.bch[k].trim = none ∧ d'.bch[k].age[c] = s.dev.now ∧
      d'.getN b R.BCHG_REFIN = r.refin.toNat ∧ (d'.getB b R.BCHG_STAT 16 = true ↔ refOk) ∧
      d'.getF b R.BCHG_TRIM_STAT 31 16 c.val = min 65535 (s.dev.getF b R.BCHG_TRIM_STAT 31 16 c.val + 1) ∧
      (good → d'.get b R.BCHG_TRIM_DAC c.val = r.dac &&& 0x03FF03FF#32 ∧
        d'.get b R.BCHG_TRIM_ADC c.val = r.adc &&& 0x03FF03FF#32 ∧
        (s.dev.bchUsable k c.val = true → d'.bchSpare k = c.val)) ∧
      (¬ good → d'.get b R.BCHG_TRIM_DAC c.val = s.dev.get b R.BCHG_TRIM_DAC c.val ∧
        d'.get b R.BCHG_TRIM_ADC c.val = s.dev.get b R.BCHG_TRIM_ADC c.val ∧
        d'.getN b R.BCHG_FAILS = min 0xFFFFFFFF (s.dev.getN b R.BCHG_FAILS + 1) ∧ d'.getB b R.FLT_STAT 0 = true ∧
        (¬ refOk → d'.getB b R.FLT_STAT 4 = true)) := by
  intro b refOk good
  obtain ⟨rb, hrb⟩ : ∃ x : Bool, x = (decide (24500 ≤ r.refin.toNat) && decide (r.refin.toNat ≤ 25500)) := ⟨_, rfl⟩
  obtain ⟨gb, hgb⟩ : ∃ x : Bool, x = (rb && decide (r.residual.toNat ≤ s.dev.getF b R.BCHG_LIMIT 7 0 * 8) &&
    decide (s.dev.now ≤ t0 + 800 * s.dev.getF b R.BCHG_TIMEOUT 15 0)) := ⟨_, rfl⟩
  have hx : exec (.trimDone k r) s = .next { s with
      dev := (if rb then trimSettled (trimShown (trimmed s.dev k r rb) k c r rb gb) k c r gb s.dev.now
        else (trimSettled (trimShown (trimmed s.dev k r rb) k c r rb gb) k c r gb s.dev.now).runFail k 0x80).bchNext k } := by
    change execTrimDone k r s = _
    unfold execTrimDone
    rw [onLive_next _ _ hlive, htr, hgb, hrb]
    rfl
  have hr : rb = true ↔ refOk := by
    rw [hrb, Bool.and_eq_true, decide_eq_true_iff, decide_eq_true_iff]
  have hg : gb = true ↔ good := by
    rw [hgb, Bool.and_eq_true, Bool.and_eq_true, decide_eq_true_iff, decide_eq_true_iff, hr, and_assoc]
  clear_value refOk good
  have hofs : ∀ q ∈ [R.BCHG_TRIM_DAC, R.BCHG_TRIM_ADC, R.BCHG_TRIM_STAT], q.ofs c.val 0 < 0x1000 ∧ q.ofs c.val 0 ∉ [0x104, 0x124] ∧
      q.ofs c.val 0 ∉ runOfs ++ [0x104, 0x134, 0x010] ∧ q.ofs c.val 0 ∉ [0x024, 0x104] :=
    (by decide : ∀ c : Fin 5, ∀ q ∈ [R.BCHG_TRIM_DAC, R.BCHG_TRIM_ADC, R.BCHG_TRIM_STAT], q.ofs c.val 0 < 0x1000 ∧ q.ofs c.val 0 ∉ [0x104, 0x124] ∧
      q.ofs c.val 0 ∉ runOfs ++ [0x104, 0x134, 0x010] ∧ q.ofs c.val 0 ∉ [0x024, 0x104]) c
  have hshown : ∀ q ∈ [R.BCHG_REFIN, R.BCHG_STAT], q.ofs 0 0 < 0x1000 ∧ q.ofs 0 0 ∉ shownOfs c :=
    (by decide : ∀ c : Fin 5, ∀ q ∈ [R.BCHG_REFIN, R.BCHG_STAT], q.ofs 0 0 < 0x1000 ∧ q.ofs 0 0 ∉ shownOfs c) c
  obtain ⟨hp1, ht1, hn1, hs1, hf1, hw1⟩ := trimmed_spec s.dev k r rb
  have hus1 : (trimmed s.dev k r rb).bchUsable k c.val = s.dev.bchUsable k c.val := by
    have ho := hofs R.BCHG_TRIM_STAT (by simp)
    unfold Dev.bchUsable Dev.cellFenced Dev.getB
    rw [hp1 _ _ _ ho.1 ho.2.1, hf1]
  generalize trimmed s.dev k r rb = d1 at hp1 ht1 hn1 hs1 hf1 hw1 hus1 hx
  obtain ⟨hp2, ht2, hw2, hc2, hgood, hbad⟩ := trimShown_spec d1 k c r rb gb
  have hus2 : gb = true → (trimShown d1 k c r rb gb).bchUsable k c.val = d1.bchUsable k c.val := fun h => by
    obtain ⟨-, -, hb, hf⟩ := hgood h
    unfold Dev.bchUsable Dev.cellFenced
    rw [hb, hf]
  generalize trimShown d1 k c r rb gb = d2 at hp2 ht2 hw2 hc2 hgood hbad hus2 hx
  obtain ⟨hp3, ht3, ha3, hs3, hf3, hu3⟩ := trimSettled_spec d2 k c r gb s.dev.now
  generalize trimSettled d2 k c r gb s.dev.now = d3 at hp3 ht3 ha3 hs3 hf3 hu3 hx
  have hk4 : Dev.bchKeeps k d3 (if rb then d3 else d3.runFail k 0x80) := by
    split
    · exact .refl d3
    · exact (d3.runFail_keeps k 0x80).1
  generalize (if rb then d3 else d3.runFail k 0x80) = d4 at hk4 hx
  have hk := hk4.trans (d4.bchNext_spec k).1
  refine ⟨_, hx, ?_⟩
  generalize d4.bchNext k = e at hk
  have hcell : ∀ q ∈ [R.BCHG_TRIM_DAC, R.BCHG_TRIM_ADC, R.BCHG_TRIM_STAT], e.get b q c.val = d2.get b q c.val := fun q hq =>
    (hk.page q _ _ (hofs q hq).1 (hofs q hq).2.2.2).trans (hp3 q _ _ (hofs q hq).1 (hofs q hq).2.2.1)
  have hcell1 : ∀ q ∈ [R.BCHG_TRIM_DAC, R.BCHG_TRIM_ADC, R.BCHG_TRIM_STAT], d1.get b q c.val = s.dev.get b q c.val := fun q hq =>
    hp1 q _ _ (hofs q hq).1 (hofs q hq).2.1
  refine ⟨hk.trim.trans (ht3.trans (ht2.trans ht1)), ?_, ?_, ?_, ?_, fun h => ?_, fun h => ?_⟩
  · rw [hk.age, ha3]
  · refine (congrArg BitVec.toNat ((hk.page R.BCHG_REFIN 0 0 (by decide) (by decide)).trans (hp3 R.BCHG_REFIN 0 0 (by decide) (by decide)))).trans ?_
    have ho := hshown R.BCHG_REFIN (by simp)
    exact (congrArg BitVec.toNat (hp2 R.BCHG_REFIN 0 0 ho.1 ho.2)).trans hn1
  · rw [hk.flag 16 (by decide), hs3, hp2.bit R.BCHG_STAT 16 (hshown R.BCHG_STAT (by simp)), hs1, hr]
  · have h1 : e.getF b R.BCHG_TRIM_STAT 31 16 c.val = d2.getF b R.BCHG_TRIM_STAT 31 16 c.val := congrArg (fld · 31 16) (hcell _ (by simp))
    have h2 : d1.getF b R.BCHG_TRIM_STAT 31 16 c.val = s.dev.getF b R.BCHG_TRIM_STAT 31 16 c.val := congrArg (fld · 31 16) (hcell1 _ (by simp))
    rw [h1, hc2, h2]
  · obtain ⟨hd, ha, -, -⟩ := hgood (hg.mpr h)
    refine ⟨(hcell _ (by simp)).trans hd, (hcell _ (by simp)).trans ha, fun hu => ?_⟩
    exact (hk.field 2 0 (by decide) (.inl (by decide))).trans (hu3 ((hus2 (hg.mpr h)).trans (hus1.trans hu)))
  · obtain ⟨hd, ha, hn, h0, h4⟩ := hbad (Bool.eq_false_iff.mpr fun hc => h (hg.mp hc))
    have hfail : e.getN b R.BCHG_FAILS = d2.getN b R.BCHG_FAILS :=
      congrArg BitVec.toNat ((hk.page R.BCHG_FAILS 0 0 (by decide) (by decide)).trans (hp3 R.BCHG_FAILS 0 0 (by decide) (by decide)))
    have hfail1 : d1.getN b R.BCHG_FAILS = s.dev.getN b R.BCHG_FAILS := congrArg BitVec.toNat (hp1 R.BCHG_FAILS 0 0 (by decide) (by decide))
    refine ⟨(hcell _ (by simp)).trans (hd.trans (hcell1 _ (by simp))), (hcell _ (by simp)).trans (ha.trans (hcell1 _ (by simp))), ?_,
      (hk.page.bit _ 0 (by decide)).trans (hf3 0 h0), fun hro => (hk.page.bit _ 4 (by decide)).trans (hf3 4 (h4 ?_))⟩
    · rw [hfail, hn, hfail1]
    · exact Bool.eq_false_iff.mpr fun hc => hro (hr.mp hc)

/-- A run whose cells are all trimmed ends, and takes the temperature (R468). -/
theorem calRunDone_spec {s : State} {k : Fin 8} {n : Nat} {well : List Nat} (hlive : s.dev.dead = false)
    (hrun : s.dev.bch[k].run = some ([], n, well)) (hho : s.dev.bch[k].ho = none) (htr : s.dev.bch[k].trim = none) : ∃ d',
    exec (.calRunDone k) s = .next { s with dev := d' } ∧
    d' = { s.dev with
      regs := d'.regs, vecs := d'.vecs, fabric := d'.fabric, ops := d'.ops, jrn := d'.jrn
      bch := s.dev.bch.set k { s.dev.bch[k] with run := none } } ∧
    d'.getN (bchB k) R.BCHG_TLAST = s.dev.bchTemp k ∧
    d'.getN (bchB k) R.BCHG_RUNS = min 0xFFFFFFFF (s.dev.getN (bchB k) R.BCHG_RUNS + 1) ∧
    d'.getB (bchB k) R.BCHG_EVT 0 = true ∧ d'.get (bchB k) R.OP_STAT = opWord 3 4095 0 (s.dev.opTag (bchB k)) := by
  obtain ⟨y, hy⟩ : ∃ y, y = (s.dev.put (bchB k) R.BCHG_TLAST (wd (s.dev.bchTemp k))).bump (bchB k) R.BCHG_RUNS := ⟨_, rfl⟩
  have hx : exec (.calRunDone k) s = .next { s with
      dev := ((((y.bchEvent k 0).bchMod k fun x => { x with run := none }).opDone (bchB k)).jAppend (well.map fun c => (y.bchEvent k 0).trimRec k c)) } := by
    change execCalRunDone k s = _
    unfold execCalRunDone
    rw [onLive_next _ _ hlive]
    simp only [hrun, hho, htr, Option.isSome_none, Bool.false_eq_true, or_self, if_false]
    rw [hy]
  have hc : s.dev.changes [.regs] y := by rw [hy]; rfl
  have hp : s.dev.pageKept (bchB k) [0x110, 0x128] y := by
    rw [hy]
    exact ((Dev.pageKept.refl s.dev).put R.BCHG_TLAST _ 0 0 (by decide)).put R.BCHG_RUNS _ 0 0 (by decide)
  have ht : y.getN (bchB k) R.BCHG_TLAST = s.dev.bchTemp k := by
    rw [hy]
    refine (congrArg BitVec.toNat ((Dev.get_put_off _ _ _ _ (by decide)).trans (Dev.get_put_same _ _ _ _ _ _))).trans ?_
    have hlt : s.dev.bchTemp k < 2 ^ 12 := fld_lt _ 11 0
    rw [wd, BitVec.toNat_ofNat]
    omega
  have hn : y.getN (bchB k) R.BCHG_RUNS = min 0xFFFFFFFF (s.dev.getN (bchB k) R.BCHG_RUNS + 1) := by
    rw [hy, Dev.getN_bump]
    exact congrArg (fun w : Word => min 0xFFFFFFFF (w.toNat + 1)) (Dev.get_put_off _ _ _ _ (by decide))
  clear hy
  have hp2 := y.bchEvent_page k 0
  have he2 := y.bchEvent_shows k (i := 0) (by decide)
  have hc2 : y.changes [.regs] (y.bchEvent k 0) := rfl
  generalize y.bchEvent k 0 = z at hp2 he2 hc2 hx
  obtain ⟨x, hxx⟩ : ∃ x, x = z.bchMod k fun x => { x with run := none } := ⟨_, rfl⟩
  have hxr : x.regs = z.regs := by rw [hxx]; rfl
  have hxf : x = { s.dev with regs := x.regs, bch := s.dev.bch.set k { s.dev.bch[k] with run := none } } := by
    have hbch : x.bch = s.dev.bch.set k { s.dev.bch[k] with run := none } := by
      rw [hxx]
      change z.bch.set k { z.bch[k] with run := none } = _
      have hzb : z.bch = s.dev.bch := (hc2.get Dev.bch).trans (hc.get Dev.bch)
      rw [hzb]
    have hfr : x = { z with regs := x.regs, bch := x.bch } := by rw [hxx]; rfl
    have hzf : z = { s.dev with regs := z.regs } := (hc.trans hc2).onlyRegs
    rw [hfr]
    dsimp only
    rw [hbch]
    exact congrArg (fun w : Dev => { w with regs := x.regs, bch := s.dev.bch.set k { s.dev.bch[k] with run := none } }) hzf
  rw [← hxx] at hx
  clear hxx
  have hpx : s.dev.pageKept (bchB k) [0x110, 0x128, 0x134] x := (hp.mono (by decide)).trans ((hp2.mono (by decide)).trans (.of_regs hxr))
  have hwx : y.pageKept (bchB k) [0x134] x := hp2.trans (.of_regs hxr)
  have hex : x.getB (bchB k) R.BCHG_EVT 0 = true := (congrArg (bit · 0) (Dev.get_of_regs _ _ _ _ (by rw [hxr]))).trans he2
  have hod : x.pageKept (bchB k) [0x024] (x.opDone (bchB k)) := fun q i j ho hq =>
    (Dev.opDone_get _ _ _ _ _ _).trans ((Dev.pageKept.refl x).put R.OP_STAT _ 0 0 List.mem_cons_self q i j ho hq)
  have hos : (x.opDone (bchB k)).get (bchB k) R.OP_STAT = opWord 3 4095 0 (x.opTag (bchB k)) :=
    (Dev.opDone_get _ _ _ _ _ _).trans (Dev.get_put_same _ _ _ _ _ _)
  have hoc := x.opDone_changes (bchB k)
  generalize x.opDone (bchB k) = u at hod hos hoc hx
  have hjc := u.jAppend_changes (well.map fun c => z.trimRec k c)
  have hjp : u.pageKept (bchB k) [] (u.jAppend (well.map fun c => z.trimRec k c)) :=
    u.jAppend_page (bchB_ne_hif k) (bchB_ne_fltc k) (bchB_ne_jrnl k) _
  generalize u.jAppend (well.map fun c => z.trimRec k c) = e at hjc hjp hx
  have htag : x.opTag (bchB k) = s.dev.opTag (bchB k) := hpx.fld R.OP_STAT _ _ (by decide)
  refine ⟨e, hx, ?_, ?_, ?_, ?_, ?_⟩
  · have hch : x.changes [.regs, .vecs, .fabric, .ops, .jrn] e := (hoc.mono (by decide)).trans (hjc.mono (by decide))
    refine Eq.trans (congrArg (fun w : Dev => { w with regs := e.regs, vecs := e.vecs, fabric := e.fabric, ops := e.ops, jrn := e.jrn }) hch) ?_
    exact congrArg (fun w : Dev => { w with regs := e.regs, vecs := e.vecs, fabric := e.fabric, ops := e.ops, jrn := e.jrn }) hxf
  · refine (congrArg BitVec.toNat ?_).trans ht
    exact (hjp R.BCHG_TLAST 0 0 (by decide) (by decide)).trans ((hod R.BCHG_TLAST 0 0 (by decide) (by decide)).trans
      (hwx R.BCHG_TLAST 0 0 (by decide) (by decide)))
  · refine (congrArg BitVec.toNat ?_).trans hn
    exact (hjp R.BCHG_RUNS 0 0 (by decide) (by decide)).trans ((hod R.BCHG_RUNS 0 0 (by decide) (by decide)).trans
      (hwx R.BCHG_RUNS 0 0 (by decide) (by decide)))
  · exact (hjp.bit R.BCHG_EVT 0 (by decide)).trans ((hod.bit R.BCHG_EVT 0 (by decide)).trans hex)
  · rw [hjp R.OP_STAT 0 0 (by decide) (by decide), hos, htag]

end Sys2Proof.Machine
end

section
/-! The converters' calibration: the obligation. -/

namespace Sys2Proof.Machine

/-- Settles O56: a hand-over's steps, the end of a trim and the end of a run by their lemmas. -/
theorem calibrationMovesAndTrims : Obligations.CalibrationMovesAndTrims := by
  refine ⟨⟨fun s k h hlive hho ha ht => ?_, fun s k h a v hlive hho ha hd hg => ⟨fun hs => ?_, fun hs hq => ?_⟩,
    fun s k h t hlive hho hd hs ht => handOverDisconnect_spec hlive hho hd hs ht, fun s k h a hlive hho ha hd hf ht => ?_⟩,
    fun s k c t0 r hlive htr => trimDone_spec r hlive htr, fun s k n well hlive hrun hho htr => calRunDone_spec hlive hrun hho htr⟩
  · refine ⟨_, exec_trackingDone hlive hho ha ht, rfl, Dev.getB_putB_same _ _ _ _ _ _ (by decide), ?_⟩
    exact (Dev.regsKept_put (s.dev.bchMod k _) _ _ _ 0 0 rfl)
  · refine ⟨_, exec_handOverSwitch_lost hlive hho ha v hd hg hs, ?_⟩
    obtain ⟨hl, he, hf⟩ := s.dev.chanLost_spec k h
    generalize s.dev.chanLost k h = y at hl he hf
    have hk := (y.bchNext_spec k).1
    generalize y.bchNext k = z at hk
    refine ⟨?_, (hk.page.bit _ 4 (by decide)).trans he, (hk.page.bit _ 3 (by decide)).trans hf⟩
    rw [hk.lost]
    exact hl
  · exact ⟨_, exec_handOverSwitch_quiet hlive hho ha v hd hg hs hq, switched_spec _ _ _ _ _⟩
  · refine ⟨_, exec_calGapwait hlive hho ha hd hf ht, ?_⟩
    obtain ⟨hn, hno, hw, he, hfl, hop⟩ := gapless_spec s.dev k
    generalize gapless s.dev k = y at hn hno hw he hfl hop
    obtain ⟨hk, hrun, hsame⟩ := y.bchNext_spec k
    obtain ⟨hrn, hos⟩ := hrun hn
    refine ⟨hrn, fun hwait => ?_, (hk.page.bit _ 2 (by decide)).trans he, (hk.page.bit _ 1 (by decide)).trans hfl, fun hsome => ?_⟩
    · rw [hsame (hw.trans hwait) hn]
      exact hno
    · obtain ⟨h1, h2⟩ := hop hsome
      exact ⟨(congrArg (fld · 31 28) hos).trans h1, (congrArg (fld · 15 8) hos).trans h2⟩

end Sys2Proof.Machine
end

section
/-! SUPPORT. The journal store (R478 to R481): the write window, the doffing that waits, and programs. -/

namespace Sys2Proof.Machine

theorem jrnl_kind : blkKind jrnl = some (.jrnl, 0) := by decide
theorem jrnl_ne_hif : jrnl ≠ hif := by decide
theorem jrnl_ne_fltc : jrnl ≠ fltc := by decide

/-- A sensor's word lies within the write window, or is not valid (R480). -/
def inWindow (w : Word) : Bool := fld w 14 12 = 4 || (let t := sgn 12 (fld w 11 0); -100 ≤ t && t ≤ 420)

theorem Dev.jWindow_eq (d : Dev) : d.jWindow = (List.range 64).all fun s => inWindow (d.get therm R.THERM_SNS s) := rfl

theorem snsWord_ofs (s : Fin 64) : R.THERM_SNS.ofs s.val 0 < 0x1000 := by
  revert s
  decide

theorem all_congr_mem {α : Type} {p q : α → Bool} {l : List α} (h : ∀ x ∈ l, p x = q x) : l.all p = l.all q := by
  induction l with
  | nil => rfl
  | cons x l ih => rw [List.all_cons, List.all_cons, ih fun y hy => h y (.tail _ hy), h x List.mem_cons_self]

/-- The window depends on the sensors alone. -/
theorem Dev.jWindow_congr {d e : Dev} (h : d.pageKept therm [] e) : e.jWindow = d.jWindow := by
  rw [Dev.jWindow_eq, Dev.jWindow_eq]
  exact all_congr_mem fun s hs => congrArg inWindow (h R.THERM_SNS s 0 (snsWord_ofs ⟨s, List.mem_range.mp hs⟩) List.not_mem_nil)

/-- A step that leaves the store but for a doffing and the wish of one, and of JRNL's registers all but JRNL_STAT and JRNL_EVT. -/
structure Dev.storeKeeps (d e : Dev) : Prop where
  page : d.pageKept jrnl [0x104, 0x140] e
  store : e.jrn = { d.jrn with doff := e.jrn.doff, want := e.jrn.want }

namespace Dev.storeKeeps

variable {d e f : Dev}

theorem refl (d : Dev) : d.storeKeeps d := ⟨.refl d, rfl⟩

theorem trans (h : d.storeKeeps e) (h' : e.storeKeeps f) : d.storeKeeps f :=
  ⟨h.page.trans h'.page, h'.store.trans (congrArg (fun j : Jrn => { j with doff := f.jrn.doff, want := f.jrn.want }) h.store)⟩

end Dev.storeKeeps

section
variable (d : Dev)

/-- In the window a doffing that waits begins (R480). -/
theorem Dev.jHold_open (h : d.jWindow = true) : d.jHold.changes [.regs, .jrn] d ∧
    d.jHold.jrn = if d.jrn.want && !d.jrn.busy && !d.jrn.doff then { d.jrn with doff := true, want := false } else d.jrn := by
  unfold Dev.jHold
  rw [if_pos h]
  dsimp only
  cases d.jrn.want && !d.jrn.busy && !d.jrn.doff
  · exact ⟨rfl, rfl⟩
  · exact ⟨rfl, rfl⟩

/-- Outside it none does. -/
theorem Dev.jHold_shut (h : d.jWindow = false) : d.jHold.jrn = d.jrn := by
  unfold Dev.jHold
  rw [if_neg (by rw [h]; decide)]
  split
  · rfl
  · exact (Dev.event_changes _ _ _ _ _ _ _).get Dev.jrn

theorem Dev.jHold_keeps : d.storeKeeps d.jHold := by
  have hB : ∀ (x : Dev) (k : Nat) (v : Bool), x.storeKeeps (x.putB jrnl R.JRNL_STAT k v) := fun x k v =>
    ⟨(Dev.pageKept.refl x).put _ _ 0 0 (by decide), rfl⟩
  unfold Dev.jHold
  dsimp only
  split
  · split
    · refine (hB d 3 false).trans ?_
      generalize d.putB jrnl R.JRNL_STAT 3 false = y
      exact ⟨((Dev.pageKept.refl y).beside rfl).put R.JRNL_STAT _ 0 0 (by decide), rfl⟩
    · exact hB d 3 false
  · split
    · exact .refl d
    · refine (hB d 3 true).trans ?_
      generalize d.putB jrnl R.JRNL_STAT 3 true = y
      refine ⟨(Dev.pageKept.refl y).event jrnl_ne_hif _ _ _ (by decide) 0 (by decide), ?_⟩
      rw [show (y.event jrnl R.JRNL_EVT R.JRNL_EVT_EN 4#32 61).jrn = y.jrn from (Dev.event_changes _ _ _ _ _ _ _).get Dev.jrn]

theorem Dev.jWant_keeps : d.storeKeeps (d.jmod fun j => { j with want := true }) := ⟨.of_regs rfl, rfl⟩

theorem Dev.jDoff_keeps : d.storeKeeps d.jDoff := by
  unfold Dev.jDoff
  split
  · exact .refl d
  · exact d.jWant_keeps.trans (Dev.jHold_keeps _)

theorem Dev.jFull_keeps : d.storeKeeps d.jFull := by
  unfold Dev.jFull
  dsimp only
  split
  · exact d.jDoff_keeps
  · exact .refl d

/-- A doffing asked for in the window, with no program under way. -/
theorem Dev.jDoff_open (h : d.jWindow = true) (hb : d.jrn.busy = false) (hd : d.jrn.doff = false) :
    d.jDoff.changes [.regs, .jrn] d ∧ d.jDoff.jrn = { d.jrn with doff := true, want := false } := by
  unfold Dev.jDoff
  rw [if_neg (by rw [hd]; decide)]
  have hw : (d.jmod fun j => { j with want := true }).jWindow = true := h
  have hj : (d.jmod fun j => { j with want := true }).jrn = { d.jrn with want := true } := rfl
  have hc : (d.jmod fun j => { j with want := true }).changes [.regs, .jrn] d := rfl
  generalize (d.jmod fun j => { j with want := true }) = y at hw hj hc
  obtain ⟨h1, h2⟩ := y.jHold_open hw
  refine ⟨h1.trans hc, ?_⟩
  rw [h2, hj, if_pos (by dsimp only; rw [hb, hd]; rfl)]

end

/-- JOURNAL_PROGRAM_START inside the window (R478, R480). -/
theorem journalProgramStart_spec {s : State} (hlive : s.dev.dead = false) (hq : s.dev.jrn.queue ≠ []) (hb : s.dev.jrn.busy = false)
    (hd : s.dev.jrn.doff = false) (hu : s.dev.jUsable = true) (hw : s.dev.jWindow = true) : ∃ d',
    exec .journalProgramStart s = .next { s with dev := d' } ∧
    let first := s.dev.jrn.torn || s.dev.jrn.want
    d' = { s.dev with regs := d'.regs, jrn := { s.dev.jrn with busy := !first, doff := first, want := false } } := by
  obtain ⟨e, he⟩ : ∃ e, e = if s.dev.jrn.torn ∨ s.dev.jrn.want then s.dev.jDoff
    else (s.dev.putB jrnl R.JRNL_STAT 3 false).jmod fun j => { j with busy := true } := ⟨_, rfl⟩
  have hx : exec .journalProgramStart s = .next { s with dev := e } := by
    change execJournalProgramStart s = _
    unfold execJournalProgramStart
    rw [onLive_next _ _ hlive, he]
    refine congrArg (fun e => Host.Outcome.next { s with dev := e }) ((if_neg ?_).trans (if_neg ?_))
    · rw [hb, hd, hu]
      simp [hq]
    · rw [hw]
      decide
  refine ⟨e, hx, ?_⟩
  clear hx
  dsimp only
  by_cases hf : s.dev.jrn.torn = true ∨ s.dev.jrn.want = true
  · rw [if_pos hf] at he
    have hf' : (s.dev.jrn.torn || s.dev.jrn.want) = true := by
      rw [Bool.or_eq_true]
      exact hf
    obtain ⟨hc, hj⟩ := s.dev.jDoff_open hw hb hd
    rw [← he] at hc hj
    rw [hf']
    have hfr : e = { s.dev with regs := e.regs, jrn := e.jrn } := congrArg (fun y : Dev => { y with regs := e.regs, jrn := e.jrn }) hc.symm
    refine hfr.trans ?_
    have hs : s.dev.jrn = { s.dev.jrn with busy := false } := by rw [← hb]
    rw [hj]
    exact congrArg (fun j : Jrn => ({ s.dev with regs := e.regs, jrn := { j with doff := true, want := false } } : Dev)) hs
  · rw [if_neg hf] at he
    have hf' : (s.dev.jrn.torn || s.dev.jrn.want) = false := by
      rw [Bool.or_eq_false_iff]
      exact ⟨Bool.eq_false_iff.mpr fun h => hf (.inl h), Bool.eq_false_iff.mpr fun h => hf (.inr h)⟩
    have hwant : s.dev.jrn.want = false := (Bool.or_eq_false_iff.mp hf').2
    rw [hf']
    have hj : e.jrn = { s.dev.jrn with busy := true } := by rw [he]; rfl
    have hfr : e = { s.dev with regs := e.regs, jrn := e.jrn } := by rw [he]; rfl
    refine hfr.trans ?_
    have hs : s.dev.jrn = { s.dev.jrn with doff := false, want := false } :=
      (congrArg (fun b => ({ s.dev.jrn with doff := b, want := s.dev.jrn.want } : Jrn)) hd).trans
        (congrArg (fun b => ({ s.dev.jrn with doff := false, want := b } : Jrn)) hwant)
    rw [hj]
    exact congrArg (fun j : Jrn => ({ s.dev with regs := e.regs, jrn := { j with busy := true } } : Dev)) hs

end Sys2Proof.Machine
end

section
/-! SUPPORT. A program's end (R477, R479, R481). -/

namespace Sys2Proof.Machine

/-- A step that leaves the store and JRNL's registers but for those that show it. -/
theorem Dev.jShow_jrn (d : Dev) : d.jShow.jrn = d.jrn := d.jShow_changes.get Dev.jrn

section
variable (d : Dev)

/-- The transaction that is programmed joins the live area. -/
def joined (t : JTx) (q : List JTx) : Dev :=
  d.jmod fun j => { j with
    areas := vmod j.areas d.jLive fun x => { x with
      recs := x.recs ++ (placeRecs d.jrn.areas[d.jLive].fill (t.number d.jrn.seq)).1
      fill := (placeRecs d.jrn.areas[d.jLive].fill (t.number d.jrn.seq)).2 }
    seq := (j.seq + (t.number d.jrn.seq).length) % 2 ^ 32, queue := q, busy := false, retry := false,
    opDone := j.opDone || t.from_ = .append }

theorem JTx.number_length (t : JTx) (n : Nat) : (t.number n).length = t.recs.length + 1 := by
  simp [JTx.number]

/-- The areas, the queue and the number after a program. -/
theorem Dev.jCommit_spec {t : JTx} {q : List JTx} (hq : d.jrn.queue = t :: q) : d.jCommit.jrn =
    { (joined d t q).jrn with doff := d.jCommit.jrn.doff, want := d.jCommit.jrn.want } := by
  obtain ⟨e, he⟩ : ∃ e, e = d.jCommit := ⟨_, rfl⟩
  rw [← he]
  unfold Dev.jCommit at he
  rw [hq] at he
  dsimp -zeta only at he
  extract_lets a rs p d1 d2 d3 at he
  have h1 : d1.jrn = (joined d t q).jrn := Dev.jShow_jrn _
  have h2 : d2.jrn = d1.jrn := by
    simp only [d2]
    split
    · rfl
    · rfl
  have h3 : d2.storeKeeps d3 := d2.jFull_keeps
  have h4 : d3.storeKeeps e := by
    rw [he]
    split
    · exact d3.jHold_keeps
    · exact .refl d3
  rw [← h1, ← h2]
  exact (h3.trans h4).store

/-- A program that failed twice (R481). -/
def failedTwice : Dev :=
  (((d.bump jrnl R.JRNL_WFAIL).jmod fun j => { j with busy := false, retry := false, failed := true }).raise jrnl none 0).event jrnl R.JRNL_EVT
    R.JRNL_EVT_EN 8#32 61

theorem failedTwice_spec : (failedTwice d).jrn = { d.jrn with busy := false, retry := false, failed := true } ∧
    (failedTwice d).getN jrnl R.JRNL_WFAIL = min 0xFFFFFFFF (d.getN jrnl R.JRNL_WFAIL + 1) ∧ (failedTwice d).jWindow = d.jWindow ∧
    (failedTwice d).getB jrnl R.FLT_STAT 0 = true := by
  unfold failedTwice
  obtain ⟨y, hy⟩ : ∃ y, y = (d.bump jrnl R.JRNL_WFAIL).jmod fun j => { j with busy := false, retry := false, failed := true } := ⟨_, rfl⟩
  have hj : y.jrn = { d.jrn with busy := false, retry := false, failed := true } := by rw [hy]; rfl
  have hn : y.getN jrnl R.JRNL_WFAIL = min 0xFFFFFFFF (d.getN jrnl R.JRNL_WFAIL + 1) := by
    rw [hy]
    exact d.getN_bump _ _ 0 0
  have ha : Dev.aside (pageOf therm) [.regs, .vecs, .fabric, .jrn] d y := by
    rw [hy]
    exact ((Dev.aside.refl d).bump apart_therm.jrnl (by decide) (by decide)).beside (G := [.jrn]) rfl (by decide) rfl
  rw [← hy]
  clear hy
  have hr : y.pageKept jrnl [0x010] (y.raise jrnl none 0) :=
    (Dev.pageKept.refl y).detect jrnl_ne_hif jrnl_ne_fltc _ _ _ _ _ _ (by decide)
  have hf : (y.raise jrnl none 0).getB jrnl R.FLT_STAT 0 = true := y.detect_shows jrnl_kind _ _ _ _ _ _ (by decide)
  have hrj : (y.raise jrnl none 0).jrn = y.jrn := (Dev.detect_changes _ _ _ _ _ _ _ _).get Dev.jrn
  have ha2 := ha.raise (c := none) (n := 0) (a := 0) apart_therm.jrnl apart_therm (by decide)
  generalize y.raise jrnl none 0 = z at hr hf hrj ha2
  have he : z.pageKept jrnl [0x140] (z.event jrnl R.JRNL_EVT R.JRNL_EVT_EN 8#32 61) :=
    (Dev.pageKept.refl z).event jrnl_ne_hif _ _ _ (by decide) 0 (by decide)
  have hej : (z.event jrnl R.JRNL_EVT R.JRNL_EVT_EN 8#32 61).jrn = z.jrn := (Dev.event_changes _ _ _ _ _ _ _).get Dev.jrn
  have ha3 := ha2.event (r := R.JRNL_EVT) (en := R.JRNL_EVT_EN) (m := 8#32) (v := 61) (i := 0) apart_therm.jrnl apart_therm (by decide) (by decide) (by decide)
  generalize z.event jrnl R.JRNL_EVT R.JRNL_EVT_EN 8#32 61 = e at he hej ha3
  refine ⟨hej.trans (hrj.trans hj), ?_, Dev.jWindow_congr ha3.pageKept, (he.bit R.FLT_STAT 0 (by decide)).trans hf⟩
  exact (congrArg BitVec.toNat ((he R.JRNL_WFAIL 0 0 (by decide) (by decide)).trans (hr R.JRNL_WFAIL 0 0 (by decide) (by decide)))).trans hn

end

/-- A program that has been verified (R481). -/
theorem journalProgramDone_ok {s : State} {t : JTx} {q : List JTx} (hlive : s.dev.dead = false) (hb : s.dev.jrn.busy = true)
    (hq : s.dev.jrn.queue = t :: q) :
    let a := s.dev.jrn.areas[s.dev.jLive]
    let p := placeRecs a.fill (t.number s.dev.jrn.seq)
    ∃ d', exec (.journalProgramDone true) s = .next { s with dev := d' } ∧
      d'.jrn.areas = s.dev.jrn.areas.set s.dev.jLive { a with recs := a.recs ++ p.1, fill := p.2 } ∧
      d'.jrn.queue = q ∧ d'.jrn.busy = false ∧ d'.jrn.seq = (s.dev.jrn.seq + t.recs.length + 1) % 2 ^ 32 := by
  intro a p
  have hx : exec (.journalProgramDone true) s = .next { s with dev := s.dev.jCommit } := by
    change execJournalProgramDone true s = _
    unfold execJournalProgramDone
    rw [onLive_next _ _ hlive]
    exact congrArg (fun e => Host.Outcome.next { s with dev := e }) (if_neg (not_not.mpr hb))
  have hj := s.dev.jCommit_spec hq
  refine ⟨_, hx, ?_⟩
  generalize s.dev.jCommit = e at hj
  have hf : ∀ {α : Type} (f : Jrn → α), f e.jrn = f { (joined s.dev t q).jrn with doff := e.jrn.doff, want := e.jrn.want } := fun f => congrArg f hj
  refine ⟨(hf Jrn.areas).trans rfl, (hf Jrn.queue).trans rfl, (hf Jrn.busy).trans rfl, (hf Jrn.seq).trans ?_⟩
  change (s.dev.jrn.seq + (t.number s.dev.jrn.seq).length) % 2 ^ 32 = _
  rw [JTx.number_length]
  rfl

/-- A program that has failed is repeated once (R481). -/
theorem journalProgramDone_failed {s : State} (hlive : s.dev.dead = false) (hb : s.dev.jrn.busy = true) :
    let a := s.dev.jrn.areas[s.dev.jLive]
    ∃ d', exec (.journalProgramDone false) s = .next { s with dev := d' } ∧ d'.jrn.queue = s.dev.jrn.queue ∧
      d'.getN jrnl R.JRNL_WFAIL = min 0xFFFFFFFF (s.dev.getN jrnl R.JRNL_WFAIL + 1) ∧
      if s.dev.jrn.retry then d'.jrn.busy = false ∧ (s.dev.jWindow = true → d'.jrn.doff = true) ∧
        (s.dev.jWindow = false → s.dev.jrn.doff = false → d'.jrn.want = true) ∧ d'.getB jrnl R.FLT_STAT 0 = true
      else d'.jrn.busy = true ∧ d'.jrn.retry = true ∧
        d'.jrn.areas = s.dev.jrn.areas.set s.dev.jLive { a with fill := a.fill + 16 } := by
  intro a
  obtain ⟨again, hag⟩ : ∃ again, again = (s.dev.bump jrnl R.JRNL_WFAIL).jmod fun j => { j with
      areas := vmod j.areas s.dev.jLive fun x => { x with fill := x.fill + 16 }, retry := true } := ⟨_, rfl⟩
  have hx : exec (.journalProgramDone false) s = .next { s with
      dev := (if s.dev.jrn.retry = true then (failedTwice s.dev).jDoff else again.jShow) } := by
    change execJournalProgramDone false s = _
    unfold execJournalProgramDone
    rw [onLive_next _ _ hlive, hag]
    refine congrArg (fun e => Host.Outcome.next { s with dev := e }) ((if_neg (not_not.mpr hb)).trans ((if_neg Bool.false_ne_true).trans ?_))
    exact ite_not ..
  refine ⟨_, hx, ?_⟩
  cases hr : s.dev.jrn.retry with
  | true =>
    rw [if_pos rfl, if_pos rfl]
    obtain ⟨hj, hn, hw, hf⟩ := failedTwice_spec s.dev
    generalize failedTwice s.dev = y at hj hn hw hf
    have hk := y.jDoff_keeps
    have hs := hk.store
    have hbz : y.jrn.busy = false := by rw [hj]
    have hdf : y.jrn.doff = s.dev.jrn.doff := by rw [hj]
    refine ⟨?_, (congrArg BitVec.toNat (hk.page R.JRNL_WFAIL 0 0 (by decide) (by decide))).trans hn, ?_, fun h => ?_, fun h hd => ?_,
      (hk.page.bit R.FLT_STAT 0 (by decide)).trans hf⟩
    · refine (congrArg Jrn.queue hs).trans ?_
      dsimp only
      rw [hj]
    · exact (congrArg Jrn.busy hs).trans hbz
    · cases hd : y.jrn.doff with
      | true =>
        have : y.jDoff = y := if_pos hd
        rw [this, hd]
      | false => rw [(y.jDoff_open (hw.trans h) hbz hd).2]
    · have hyd := hdf.trans hd
      have hdo : y.jDoff = (y.jmod fun j => { j with want := true }).jHold := if_neg (by rw [hyd]; decide)
      have hsh : (y.jmod fun j => { j with want := true }).jWindow = false := hw.trans h
      rw [hdo, Dev.jHold_shut _ hsh]
      rfl
  | false =>
    rw [if_neg (by decide), if_neg (by decide)]
    have hj : again.jShow.jrn = { s.dev.jrn with areas := s.dev.jrn.areas.set s.dev.jLive { a with fill := a.fill + 16 }, retry := true } := by
      rw [Dev.jShow_jrn, hag]
      rfl
    have hn : again.getN jrnl R.JRNL_WFAIL = min 0xFFFFFFFF (s.dev.getN jrnl R.JRNL_WFAIL + 1) := by
      rw [hag]
      exact s.dev.getN_bump _ _ 0 0
    have hp := again.jShow_page.2
    generalize again.jShow = e at hj hp
    refine ⟨by rw [hj], (congrArg BitVec.toNat (hp R.JRNL_WFAIL 0 0 (by decide) (by decide))).trans hn, ?_, by rw [hj], by rw [hj]⟩
    rw [hj]
    exact hb

end Sys2Proof.Machine
end

section
/-! SUPPORT. A doffing's end (R479, R481). -/

namespace Sys2Proof.Machine

/-- Placing records keeps them, in order. -/
theorem placeRecs_records (o : Nat) (l : List JRec) : (placeRecs o l).1.map (·.2) = l := by
  induction l generalizing o with
  | nil => rfl
  | cons r l ih => exact congrArg (r :: ·) (ih _)

theorem mem_placeRecs {o : Nat} {l : List JRec} {r : JRec} (h : r ∈ l) : ∃ x ∈ (placeRecs o l).1, x.2 = r := by
  rw [← placeRecs_records o l] at h
  exact List.mem_map.mp h

/-- Numbering keeps a record's type, key and data. -/
theorem JTx.mem_number {t : JTx} {x : Nat × Word × List Byte} (n : Nat) (h : x ∈ t.recs) :
    ∃ r ∈ t.number n, r.type = x.1 ∧ r.key = x.2.1 ∧ r.data = x.2.2 := by
  obtain ⟨i, hi, rfl⟩ := List.mem_iff_getElem.mp h
  refine ⟨_, List.mem_append_left _ (List.mem_mapIdx.mpr ⟨i, hi, rfl⟩), rfl, rfl, rfl⟩

section
variable (d : Dev)

/-- The records of the area that a doffing writes. -/
def doffRecs : List JRec :=
  let kept := keptRecs (d.jrn.areas[d.jLive].recs.map (·.2))
  if kept = [] then [] else JTx.number ⟨kept.map fun r => (r.type, r.key, r.data), .device⟩ d.jrn.seq

theorem mem_doffRecs {r : JRec} (h : r ∈ keptRecs (d.jrn.areas[d.jLive].recs.map (·.2))) :
    ∃ x ∈ doffRecs d, x.type = r.type ∧ x.key = r.key ∧ x.data = r.data := by
  unfold doffRecs
  dsimp only
  rw [if_neg (List.ne_nil_of_mem h)]
  exact JTx.mem_number (x := (r.type, r.key, r.data)) _ (List.mem_map.mpr ⟨r, h, rfl⟩)

/-- The store after a doffing. -/
def doffed : Jrn :=
  { d.jrn with
    areas := vmod d.jrn.areas (d.jLive + 1) fun _ => ⟨true, (d.jrn.areas[d.jLive].gen + 1) % 2 ^ 32, d.jrn.seq,
      (placeRecs d.jrn.esize (doffRecs d)).1, (placeRecs d.jrn.esize (doffRecs d)).2⟩
    seq := (d.jrn.seq + (doffRecs d).length) % 2 ^ 32, doff := false, failed := false, torn := false, tail := 0, live := d.jLive + 1 }

theorem Dev.jCompact_eq : d.jCompact = (((({ d with jrn := doffed d } : Dev).putB jrnl R.JRNL_STAT 2 false).bump jrnl R.JRNL_DOFFS).jShow).event jrnl
    R.JRNL_EVT R.JRNL_EVT_EN 1#32 61 := rfl

theorem Dev.jCompact_spec : d.jCompact.jrn = doffed d ∧ d.pageKept jrnl [0x104, 0x124, 0x108, 0x10C, 0x110, 0x140] d.jCompact ∧
    d.jCompact.ops = d.ops ∧ d.jCompact.getN jrnl R.JRNL_DOFFS = min 0xFFFFFFFF (d.getN jrnl R.JRNL_DOFFS + 1) := by
  rw [d.jCompact_eq]
  have hn : (({ d with jrn := doffed d } : Dev).putB jrnl R.JRNL_STAT 2 false).getN jrnl R.JRNL_DOFFS = d.getN jrnl R.JRNL_DOFFS :=
    congrArg BitVec.toNat (Dev.get_put_off _ _ _ _ (by decide))
  have hp : d.pageKept jrnl [0x104] (({ d with jrn := doffed d } : Dev).putB jrnl R.JRNL_STAT 2 false) :=
    ((Dev.pageKept.refl d).beside (f := { d with jrn := doffed d }) rfl).put _ _ 0 0 (by decide)
  have hj : (({ d with jrn := doffed d } : Dev).putB jrnl R.JRNL_STAT 2 false).jrn = doffed d := rfl
  have ho : (({ d with jrn := doffed d } : Dev).putB jrnl R.JRNL_STAT 2 false).ops = d.ops := rfl
  generalize ({ d with jrn := doffed d } : Dev).putB jrnl R.JRNL_STAT 2 false = y at hn hp hj ho
  have hn2 : (y.bump jrnl R.JRNL_DOFFS).getN jrnl R.JRNL_DOFFS = min 0xFFFFFFFF (d.getN jrnl R.JRNL_DOFFS + 1) := by
    rw [Dev.getN_bump, hn]
  have hp2 : y.pageKept jrnl [0x124] (y.bump jrnl R.JRNL_DOFFS) := (Dev.pageKept.refl y).put _ _ 0 0 (by decide)
  have hc2 : y.changes [.regs] (y.bump jrnl R.JRNL_DOFFS) := rfl
  generalize y.bump jrnl R.JRNL_DOFFS = z at hn2 hp2 hc2
  have hp3 := z.jShow_page.2
  have hc3 := z.jShow_changes
  generalize z.jShow = w at hp3 hc3
  have hp4 : w.pageKept jrnl [0x140] (w.event jrnl R.JRNL_EVT R.JRNL_EVT_EN 1#32 61) :=
    (Dev.pageKept.refl w).event jrnl_ne_hif _ _ _ (by decide) 0 (by decide)
  have hc4 := w.event_changes jrnl R.JRNL_EVT R.JRNL_EVT_EN 1#32 61 0
  generalize w.event jrnl R.JRNL_EVT R.JRNL_EVT_EN 1#32 61 = e at hp4 hc4
  refine ⟨(hc4.get Dev.jrn).trans ((hc3.get Dev.jrn).trans ((hc2.get Dev.jrn).trans hj)), ?_,
    (hc4.get Dev.ops).trans ((hc3.get Dev.ops).trans ((hc2.get Dev.ops).trans ho)), ?_⟩
  · exact (hp.mono (by decide)).trans ((hp2.mono (by decide)).trans ((hp3.mono (by decide)).trans (hp4.mono (by decide))))
  · exact (congrArg BitVec.toNat ((hp4 R.JRNL_DOFFS 0 0 (by decide) (by decide)).trans (hp3 R.JRNL_DOFFS 0 0 (by decide) (by decide)))).trans hn2

theorem Dev.opRunning_congr {d e : Dev} {b : Blk} (c : Nat) (hg : e.get b R.OP_STAT = d.get b R.OP_STAT) (ho : e.ops = d.ops) :
    e.opRunning b c = d.opRunning b c := by
  unfold Dev.opRunning Dev.opState Dev.op Dev.getF
  rw [hg, ho]

end

/-- JRNL_STAT shows that the journal is read-only, and keeps that a doffing runs. -/
theorem Dev.jShow_flags (d : Dev) : d.jShow.getB jrnl R.JRNL_STAT 2 = d.getB jrnl R.JRNL_STAT 2 ∧ d.jShow.getB jrnl R.JRNL_STAT 4 = d.jrn.ro := by
  unfold Dev.jShow
  extract_lets a half pct q d1
  have h1 : d1.getB jrnl R.JRNL_STAT 2 = d.getB jrnl R.JRNL_STAT 2 :=
    congrArg (bit · 2) ((Dev.get_put_off _ _ _ _ (by decide)).trans ((Dev.get_put_off _ _ _ _ (by decide)).trans (Dev.get_put_off _ _ _ _ (by decide))))
  clear_value d1
  constructor
  · rw [Dev.getB_putF_other _ _ _ _ _ _ (by decide) (by decide), Dev.getB_putF_other _ _ _ _ _ _ (by decide) (by decide),
      Dev.getB_putB_other _ _ _ _ _ _ (by decide) (by decide), Dev.getB_putF_other _ _ _ _ _ _ (by decide) (by decide), h1]
  · rw [Dev.getB_putF_other _ _ _ _ _ _ (by decide) (by decide), Dev.getB_putF_other _ _ _ _ _ _ (by decide) (by decide),
      Dev.getB_putB_same _ _ _ _ _ _ (by decide)]

/-- A doffing that has been verified (R479). -/
theorem doffingDone_ok {s : State} (hlive : s.dev.dead = false) (hd : s.dev.jrn.doff = true) :
    let a := s.dev.jrn.areas[s.dev.jLive]
    let z := s.dev.jLive + 1
    ∃ d', exec (.doffingDone true) s = .next { s with dev := d' } ∧ d'.jLive = z ∧ d'.jrn.doff = false ∧
      d'.jrn.areas[z].valid = true ∧ d'.jrn.areas[z].gen = (a.gen + 1) % 2 ^ 32 ∧
      (∀ r ∈ keptRecs (a.recs.map (·.2)), ∃ x ∈ d'.jrn.areas[z].recs, x.2.type = r.type ∧ x.2.key = r.key ∧ x.2.data = r.data) ∧
      d'.jrn.areas[s.dev.jLive] = a ∧
      d'.getN jrnl R.JRNL_DOFFS = min 0xFFFFFFFF (s.dev.getN jrnl R.JRNL_DOFFS + 1) ∧
      (s.dev.opRunning jrnl 3 = true → d'.get jrnl R.OP_STAT = opWord 3 4095 0 (s.dev.opTag jrnl)) := by
  intro a z
  have hx : exec (.doffingDone true) s = .next { s with
      dev := (if s.dev.jCompact.opRunning jrnl 3 then s.dev.jCompact.opDone jrnl else s.dev.jCompact) } := by
    change execDoffingDone true s = _
    unfold execDoffingDone
    rw [onLive_next _ _ hlive]
    exact congrArg (fun e => Host.Outcome.next { s with dev := e }) ((if_neg (not_not.mpr hd)).trans (if_pos rfl))
  obtain ⟨hj, hp, ho, hn⟩ := s.dev.jCompact_spec
  refine ⟨_, hx, ?_⟩
  generalize s.dev.jCompact = y at hj hp ho hn
  have hg : y.get jrnl R.OP_STAT = s.dev.get jrnl R.OP_STAT := hp R.OP_STAT 0 0 (by decide) (by decide)
  have hrun := Dev.opRunning_congr 3 hg ho
  obtain ⟨e, he⟩ : ∃ e, e = if y.opRunning jrnl 3 then y.opDone jrnl else y := ⟨_, rfl⟩
  have hej : e.jrn = doffed s.dev := by
    rw [he]
    split
    · exact ((y.opDone_changes jrnl).get Dev.jrn).trans hj
    · exact hj
  have hen : e.getN jrnl R.JRNL_DOFFS = y.getN jrnl R.JRNL_DOFFS := by
    rw [he]
    split
    · exact congrArg BitVec.toNat ((Dev.opDone_get _ _ _ _ _ _).trans (Dev.get_put_off _ _ _ _ (by decide)))
    · rfl
  have heo : s.dev.opRunning jrnl 3 = true → e.get jrnl R.OP_STAT = opWord 3 4095 0 (s.dev.opTag jrnl) := fun h => by
    rw [he, if_pos (hrun.trans h)]
    refine (Dev.opDone_get _ _ _ _ _ _).trans ((Dev.get_put_same _ _ _ _ _ _).trans ?_)
    rw [Dev.opTag, Dev.getF, hg]
    rfl
  rw [← he]
  clear he
  have hz : e.jrn.areas[z] = ⟨true, (a.gen + 1) % 2 ^ 32, s.dev.jrn.seq, (placeRecs s.dev.jrn.esize (doffRecs s.dev)).1,
      (placeRecs s.dev.jrn.esize (doffRecs s.dev)).2⟩ := by
    rw [hej]
    exact vmod_same _ _ _
  have hother : e.jrn.areas[s.dev.jLive] = a := by
    rw [hej]
    exact vmod_ne _ _ ((by decide : ∀ i : Fin 2, i ≠ i + 1) _)
  refine ⟨?_, by rw [hej]; rfl, by rw [hz], by rw [hz], fun r hr => ?_, hother, hen.trans hn, heo⟩
  · rw [Dev.jLive, hej]
    rfl
  · obtain ⟨x, hx, h1, h2, h3⟩ := mem_doffRecs s.dev hr
    obtain ⟨w, hw, rfl⟩ := mem_placeRecs (o := s.dev.jrn.esize) hx
    rw [hz]
    exact ⟨w, hw, h1, h2, h3⟩

/-- A doffing that has failed (R481). -/
theorem doffingDone_failed {s : State} (hlive : s.dev.dead = false) (hd : s.dev.jrn.doff = true) :
    ∃ d', exec (.doffingDone false) s = .next { s with dev := d' } ∧
      d'.jrn = { s.dev.jrn with doff := false, ro := s.dev.jrn.ro || s.dev.jrn.failed } ∧
      d'.getB jrnl R.JRNL_STAT 2 = false ∧ (s.dev.jrn.failed = true → d'.getB jrnl R.JRNL_STAT 4 = true) := by
  obtain ⟨y, hy⟩ : ∃ y, y = (s.dev.jmod fun j => { j with doff := false }).putB jrnl R.JRNL_STAT 2 false := ⟨_, rfl⟩
  obtain ⟨w, hw⟩ : ∃ w, w = if s.dev.jrn.failed then (y.jmod fun j => { j with ro := true }).jShow else y := ⟨_, rfl⟩
  have hx : exec (.doffingDone false) s = .next { s with
      dev := (if w.opRunning jrnl 3 then (w.free.2).opFail jrnl (0x80 + fld w.free.1 6 0) else w) } := by
    change execDoffingDone false s = _
    unfold execDoffingDone
    rw [onLive_next _ _ hlive, hw, hy]
    exact congrArg (fun e => Host.Outcome.next { s with dev := e }) ((if_neg (not_not.mpr hd)).trans (if_neg Bool.false_ne_true))
  refine ⟨_, hx, ?_⟩
  clear hx
  have hyj : y.jrn = { s.dev.jrn with doff := false } := by rw [hy]; rfl
  have hy2 : y.getB jrnl R.JRNL_STAT 2 = false := by
    rw [hy]
    exact Dev.getB_putB_same _ _ _ _ _ _ (by decide)
  clear hy
  have hwj : w.jrn = { s.dev.jrn with doff := false, ro := s.dev.jrn.ro || s.dev.jrn.failed } := by
    rw [hw]
    cases hf : s.dev.jrn.failed with
    | true =>
      rw [if_pos rfl, Dev.jShow_jrn, Bool.or_true]
      exact congrArg (fun j : Jrn => { j with ro := true }) hyj
    | false =>
      rw [if_neg Bool.false_ne_true, Bool.or_false]
      exact hyj
  have hw2 : w.getB jrnl R.JRNL_STAT 2 = false ∧ (s.dev.jrn.failed = true → w.getB jrnl R.JRNL_STAT 4 = true) := by
    rw [hw]
    cases hf : s.dev.jrn.failed with
    | true =>
      rw [if_pos rfl]
      have hyj' : (y.jmod fun j => { j with ro := true }).jrn.ro = true := rfl
      have hyr : (y.jmod fun j => { j with ro := true }).getB jrnl R.JRNL_STAT 2 = false := hy2
      obtain ⟨h2, h4⟩ := (y.jmod fun j => { j with ro := true }).jShow_flags
      exact ⟨h2.trans hyr, fun _ => h4.trans hyj'⟩
    | false =>
      rw [if_neg Bool.false_ne_true]
      exact ⟨hy2, fun h => absurd h Bool.false_ne_true⟩
  clear hw
  split
  · have hg : ∀ k, (w.free.2.opFail jrnl (0x80 + fld w.free.1 6 0)).getB jrnl R.JRNL_STAT k = w.getB jrnl R.JRNL_STAT k := fun k =>
      congrArg (bit · k) (Dev.get_put_off w.free.2 _ _ _ (by decide))
    rw [hg, hg]
    exact ⟨hwj, hw2⟩
  · exact ⟨hwj, hw2⟩

end Sys2Proof.Machine
end

section
/-! The journal's programs, doffing and long operations (R477 to R482). -/

namespace Sys2Proof.Machine

/-- As many bytes as are asked for. -/
theorem areaBytes_length (esize : Nat) (a : JArea) (n : Nat) : (areaBytes esize a n).length = n := by
  unfold areaBytes
  extract_lets start all
  rw [List.length_take, List.length_append, List.length_replicate]
  omega

/-- APPEND_DONE (R482). -/
theorem appendDone_spec {s : State} (hlive : s.dev.dead = false) (hr : s.dev.opRunning jrnl 1 = true) (hd : s.dev.jrn.opDone = true) : ∃ d',
    exec .appendDone s = .next { s with dev := d' } ∧
    d' = { s.dev with regs := d'.regs, ops := d'.ops, jrn := { s.dev.jrn with opDone := false } } ∧
    d'.get jrnl R.OP_STAT = opWord 3 4095 0 (s.dev.opTag jrnl) ∧ s.dev.regsKept d' fun a => a = radr jrnl R.OP_STAT := by
  have hx : exec .appendDone s = .next { s with dev := ({ s.dev with jrn := { s.dev.jrn with opDone := false } } : Dev).opDone jrnl } := by
    change execAppendDone s = _
    unfold execAppendDone
    rw [onLive_next _ _ hlive]
    exact congrArg (fun e => Host.Outcome.next { s with dev := e }) (if_pos (And.intro hr hd))
  have hg : (({ s.dev with jrn := { s.dev.jrn with opDone := false } } : Dev)).opTag jrnl = s.dev.opTag jrnl := rfl
  refine ⟨_, hx, rfl, ?_, ?_⟩
  · exact (Dev.opDone_get _ _ _ _ _ _).trans ((Dev.get_put_same _ _ _ _ _ _).trans (by rw [hg]))
  · exact Dev.regsKept_put ({ s.dev with jrn := { s.dev.jrn with opDone := false } } : Dev) jrnl R.OP_STAT _ 0 0 rfl

/-- READ_DONE (R482). -/
theorem readDone_spec {s : State} (hlive : s.dev.dead = false) (hr : s.dev.opRunning jrnl 2 = true) (h3 : s.dev.getB jrnl R.JRNL_STAT 3 = false) :
    let n := min (s.dev.getN jrnl R.JRNL_OP_LEN) (s.dev.jrn.size / 2)
    let a := s.dev.jAddr
    s.dev.sdStatus s.mem a n true = 0 → ∃ m' d',
    exec .readDone s = .next { s with mem := m', dev := d' } ∧ d' = { s.dev with regs := d'.regs, ops := d'.ops } ∧
    (∀ i < n, some (m'.byte (a + i)) = (areaBytes s.dev.jrn.esize s.dev.jrn.areas[s.dev.jLive] n)[i]?) ∧
    (∀ x, x < a ∨ a + n ≤ x → m'.byte x = s.mem.byte x) ∧
    d'.get jrnl R.OP_STAT = opWord 3 4095 0 (s.dev.opTag jrnl) ∧ s.dev.regsKept d' fun x => x = radr jrnl R.OP_STAT := by
  intro n a hst
  have hl := areaBytes_length s.dev.jrn.esize s.dev.jrn.areas[s.dev.jLive] n
  have hw : s.dev.sdWrite s.mem a (areaBytes s.dev.jrn.esize s.dev.jrn.areas[s.dev.jLive] n) =
      .ok (s.mem.write a (areaBytes s.dev.jrn.esize s.dev.jrn.areas[s.dev.jLive] n)) := by
    unfold Dev.sdWrite
    rw [hl, hst] <;> rfl
  have hx : exec .readDone s = .next { s with
      mem := s.mem.write a (areaBytes s.dev.jrn.esize s.dev.jrn.areas[s.dev.jLive] n), dev := s.dev.opDone jrnl } := by
    change execReadDone s = _
    unfold execReadDone
    rw [onLiveMem_next _ _ hlive, if_pos ⟨hr, by rw [h3]; decide⟩]
    dsimp only
    rw [show s.dev.sdWrite s.mem s.dev.jAddr _ = _ from hw]
  have hb := Mem.byte_write s.mem a
  refine ⟨_, _, hx, rfl, fun i hi => ?_, fun x hxa => ?_, ?_, ?_⟩
  · rw [hb, if_pos (by omega), Nat.add_sub_cancel_left, List.getD_eq_getElem?_getD,
      List.getElem?_eq_getElem (show i < (areaBytes _ _ n).length by omega)]
    rfl
  · rw [hb, if_neg (by omega)]
  · exact (Dev.opDone_get _ _ _ _ _ _).trans (Dev.get_put_same _ _ _ _ _ _)
  · exact s.dev.regsKept_put jrnl R.OP_STAT _ 0 0 rfl

/-- Settles O57: a program's start and end, a doffing's end and the ends of APPEND and READ by their lemmas. -/
theorem theJournalProgramsAndDoffs : Obligations.TheJournalProgramsAndDoffs :=
  ⟨fun _ hlive hq hb hd hu hw => journalProgramStart_spec hlive hq hb hd hu hw,
    fun _ _ _ hlive hb hq => ⟨journalProgramDone_ok hlive hb hq, journalProgramDone_failed hlive hb⟩,
    fun _ hlive hd => ⟨doffingDone_ok hlive hd, doffingDone_failed hlive hd⟩,
    fun _ hlive hr hd => appendDone_spec hlive hr hd, fun _ hlive hr h3 => readDone_spec hlive hr h3⟩

end Sys2Proof.Machine
end

section
/-! The reset inputs (R484 to R486, R507). -/

namespace Sys2Proof.Machine

/-- The word of BOOT_STAT as a reset ends. -/
theorem startWord_fields : ∀ chip por test : Bool, let w := wd (1 + test.toNat * 32 + chip.toNat * 128 + por.toNat * 256)
    fld w 3 0 = 1 ∧ bit w 5 = test ∧ bit w 7 = chip ∧ bit w 8 = por := by
  decide

section
variable (d : Dev)

theorem Dev.flashCut_idle (hb : d.jrn.busy = false) (hd : d.jrn.doff = false) : d.flashCut = d := by
  unfold Dev.flashCut
  rw [hb, hd]
  rfl

/-- No unit outside AON keeps anything of before. -/
theorem Dev.unitsReset_spec : d.unitsReset.fabric = [] ∧ d.unitsReset.running = none ∧ (∀ h : Fin 32, d.unitsReset.heads[h].trv.gate = false) ∧
    (∀ i : Fin 256, d.unitsReset.cells[i].en = false) ∧ (∀ a, ¬ onPage aon a → spGet d.unitsReset.regs a = none) ∧
    (d.jrn.busy = false → d.jrn.doff = false → d.unitsReset.jrn.areas = d.jrn.areas ∧ ∀ a, onPage aon a → spGet d.unitsReset.regs a = spGet d.regs a) := by
  have hr : ∀ a, spGet d.unitsReset.regs a = if (decide (badr aon 0 ≤ a) && decide (a < badr aon 0x1000)) = true then spGet d.flashCut.regs a else none :=
    fun a => spGet_filter d.flashCut.regs (fun a => decide (badr aon 0 ≤ a) && decide (a < badr aon 0x1000)) a
  have hin : ∀ a, onPage aon a ↔ (decide (badr aon 0 ≤ a) && decide (a < badr aon 0x1000)) = true := fun a => by
    rw [Bool.and_eq_true, decide_eq_true_iff, decide_eq_true_iff]
    rfl
  refine ⟨rfl, rfl, fun h => ?_, fun i => ?_, fun a ha => ?_, fun hb hd => ⟨?_, fun a ha => ?_⟩⟩
  · change (Vector.replicate 32 (⟨Drf.init, Trv.init, Cor.init⟩ : Head))[h].trv.gate = false
    rw [Fin.getElem_fin, Vector.getElem_replicate]
    rfl
  · change (Vector.replicate 256 SCell.init)[i].en = false
    rw [Fin.getElem_fin, Vector.getElem_replicate]
    rfl
  · rw [hr, if_neg fun h => ha ((hin a).mpr h)]
  · change d.flashCut.jrn.areas = _
    rw [d.flashCut_idle hb hd]
  · rw [hr, if_pos ((hin a).mp ha), d.flashCut_idle hb hd]

/-- The register of the start sequence after a reset. -/
theorem Dev.bootStart_spec (chip por test : Bool) (hp : d.boot.porst = true) (hc : d.boot.chiprst = true) (hs : d.boot.supply = true) :
    let e := d.bootStart chip por test
    e = { d with regs := e.regs, boot := { d.boot with edge := d.now, stageAt := d.now } } ∧ e.stage = 1 ∧ e.dead = false ∧
    e.getB bootB R.BOOT_STAT 5 = test ∧ e.getB bootB R.BOOT_STAT 7 = chip ∧ e.getB bootB R.BOOT_STAT 8 = por ∧
    d.regsKept e fun a => a = radr bootB R.BOOT_STAT := by
  intro e
  have he : e = ({ d with boot := { d.boot with edge := d.now, stageAt := d.now } } : Dev).put bootB R.BOOT_STAT
      (wd (1 + test.toNat * 32 + chip.toNat * 128 + por.toNat * 256)) := by
    simp only [e]
    unfold Dev.bootStart
    rw [if_pos (by rw [hp, hc, hs]; rfl)]
  have hg : e.get bootB R.BOOT_STAT = wd (1 + test.toNat * 32 + chip.toNat * 128 + por.toNat * 256) := by
    rw [he]
    exact Dev.get_put_same _ _ _ _ _ _
  obtain ⟨h1, h5, h7, h8⟩ := startWord_fields chip por test
  have hst : e.stage = 1 := (congrArg (fld · 3 0) hg).trans h1
  have hb : ∀ k, e.getB bootB R.BOOT_STAT k = bit (wd (1 + test.toNat * 32 + chip.toNat * 128 + por.toNat * 256)) k := fun k => congrArg (bit · k) hg
  refine ⟨by rw [he]; rfl, hst, ?_, (hb 5).trans h5, (hb 7).trans h7, (hb 8).trans h8, ?_⟩
  · have hbt : e.boot = { d.boot with edge := d.now, stageAt := d.now } := by rw [he]; rfl
    unfold Dev.dead Dev.shut
    rw [hbt, hst, hp, hc, hs]
    rfl
  · rw [he]
    exact Dev.regsKept_put ({ d with boot := { d.boot with edge := d.now, stageAt := d.now } } : Dev) _ _ _ 0 0 rfl

/-- While a reset input is active nothing starts. -/
theorem Dev.bootStart_held (chip por test : Bool) (h : ¬ (d.boot.porst = true ∧ d.boot.chiprst = true ∧ d.boot.supply = true)) :
    d.bootStart chip por test = d := by
  unfold Dev.bootStart
  rw [if_neg fun hc => h (by
    rw [Bool.and_eq_true, Bool.and_eq_true] at hc
    exact ⟨hc.1.1, hc.1.2, hc.2⟩)]

end

section
variable (s : State)

/-- The reset inputs that fall (R484, R507). -/
theorem exec_resetFalls {c : Instr} {was : Bool} (hm : (c, was) ∈ [(Instr.porstNAssert, s.dev.boot.porst),
    (.chiprstNAssert, s.dev.boot.chiprst), (.supplyLow, s.dev.boot.supply)]) (hw : was = true) : ∃ u : Boot → Boot,
    exec c s = .next { s with mem := s.mem.noMigs, dev := (s.dev.pins u).unitsReset } ∧ (s.dev.pins u).unitsReset.dead = true := by
  simp only [List.mem_cons, Prod.mk.injEq, List.not_mem_nil, or_false] at hm
  rcases hm with ⟨rfl, h⟩ | ⟨rfl, h⟩ | ⟨rfl, h⟩
  · refine ⟨fun b => { b with porst := false }, ?_, ?_⟩
    · change execPorstNAssert s = _
      unfold execPorstNAssert onMem
      beta_reduce
      rw [if_pos (h.symm.trans hw)]
      rfl
    · rfl
  · refine ⟨fun b => { b with chiprst := false }, ?_, ?_⟩
    · change execChiprstNAssert s = _
      unfold execChiprstNAssert onMem
      beta_reduce
      rw [if_pos (h.symm.trans hw)]
      rfl
    · change (!s.dev.boot.porst || !false || !s.dev.boot.supply || _) = true
      rw [Bool.not_false, Bool.or_true, Bool.true_or, Bool.true_or]
  · refine ⟨fun b => { b with supply := false }, ?_, ?_⟩
    · change execSupplyLow s = _
      unfold execSupplyLow onMem
      beta_reduce
      rw [if_pos (h.symm.trans hw)]
      rfl
    · change (!s.dev.boot.porst || !s.dev.boot.chiprst || !false || _) = true
      rw [Bool.not_false, Bool.or_true, Bool.true_or]

/-- The reset inputs that are released (R484, R507). -/
theorem exec_resetReleased {c : Instr} {b : Boot} {chip por test : Bool} (hm : (c, b, chip, por, test) ∈ [
      (Instr.porstNRelease test, { s.dev.boot with porst := true }, false, true, test),
      (.chiprstNRelease test, { s.dev.boot with chiprst := true }, true, false, test),
      (.supplyRestored, { s.dev.boot with supply := true }, false, true, false)]) (hne : b ≠ s.dev.boot) :
    exec c s = .next { s with dev := ({ s.dev with boot := b } : Dev).bootStart chip por test } := by
  simp only [List.mem_cons, Prod.mk.injEq, List.not_mem_nil, or_false] at hm
  have hoff : ∀ {p : Bool}, (p = true → b = s.dev.boot) → ¬ p = true := fun h hp => hne (h hp)
  rcases hm with ⟨rfl, rfl, rfl, rfl, -⟩ | ⟨rfl, rfl, rfl, rfl, -⟩ | ⟨rfl, rfl, rfl, rfl, rfl⟩
  · change execPorstNRelease test s = _
    unfold execPorstNRelease onDev
    beta_reduce
    rw [if_neg (hoff fun h => by rw [← h])]
    rfl
  · change execChiprstNRelease test s = _
    unfold execChiprstNRelease onDev
    beta_reduce
    rw [if_neg (hoff fun h => by rw [← h])]
    rfl
  · change execSupplyRestored s = _
    unfold execSupplyRestored onDev
    beta_reduce
    rw [if_neg (hoff fun h => by rw [← h])]
    rfl

/-- BOOT_RST with its code, and with another value (R486). -/
theorem exec_bootRst (v : Word) (ht : s.dev.takes bootB 0x104) : exec (.bootRst v) s =
    if v = 0x5A5A3200#32 then .next { s with mem := s.mem.noMigs, dev := s.dev.unitsReset.bootStart true false false } else .next s := by
  change execBootRst v s = _
  unfold execBootRst
  rw [onLiveMem_next _ _ (Dev.takes_live _ _ _ ht), hostWriteMem_takes _ _ _ _ _ ht]
  unfold rstWrite
  split
  · rfl
  · rfl

end

/-- Settles O58: `unitsReset_spec` for what a reset leaves, `bootStart_spec` for what its end begins. -/
theorem resetsStopAndReleasesStart : Obligations.ResetsStopAndReleasesStart := by
  refine ⟨fun s c was hm hw => ?_, fun s c b chip por test hm hne => ?_, fun s v ht => ?_⟩
  · obtain ⟨u, hx, hdead⟩ := exec_resetFalls s hm hw
    obtain ⟨h1, h2, h3, h4, h5, h6⟩ := (s.dev.pins u).unitsReset_spec
    exact ⟨_, hx, hdead, h1, h2, h3, h4, h5, h6⟩
  · have hx := exec_resetReleased s hm hne
    split
    · rename_i hon
      obtain ⟨hp, hc, hs⟩ := hon
      obtain ⟨h1, h2, h3, h4, h5, h6, h7⟩ := Dev.bootStart_spec { s.dev with boot := b } chip por test hp hc hs
      exact ⟨_, hx, h1, h2, h3, h4, h5, h6, h7⟩
    · rename_i hoff
      rw [hx, Dev.bootStart_held _ _ _ _ hoff]
  · have hx := exec_bootRst s v ht
    split
    · rename_i hv
      rw [if_pos hv] at hx
      have hlive := Dev.takes_live _ _ _ ht
      obtain ⟨h1, h2, h3, h4, -, -⟩ := s.dev.unitsReset_spec
      have hb : s.dev.unitsReset.boot.porst = true ∧ s.dev.unitsReset.boot.chiprst = true ∧ s.dev.unitsReset.boot.supply = true := by
        unfold Dev.dead at hlive
        change s.dev.boot.porst = true ∧ s.dev.boot.chiprst = true ∧ s.dev.boot.supply = true
        simp only [Bool.or_eq_false_iff, Bool.not_eq_false'] at hlive
        exact ⟨hlive.1.1.1, hlive.1.1.2, hlive.1.2⟩
      obtain ⟨hp, hc, hs⟩ := hb
      generalize s.dev.unitsReset = y at h1 h2 h3 h4 hp hc hs hx
      obtain ⟨g1, g2, g3, -, g5, -, -⟩ := y.bootStart_spec true false false hp hc hs
      refine ⟨_, hx, g2, g3, g5, ?_⟩
      rw [g1]
      exact ⟨h1, h2, h3, h4⟩
    · rename_i hv
      rw [hx, if_neg hv]

end Sys2Proof.Machine
end

section
/-! The endpoint's reset and the test access port (R441, R442, R484). -/

namespace Sys2Proof.Machine

/-- The word of HIF_LINK. -/
theorem linkWord_fields (l : LinkUp) : fld (wd (l.speed.toNat + l.width.toNat * 16)) 3 0 = l.speed.toNat ∧
    fld (wd (l.speed.toNat + l.width.toNat * 16)) 9 4 = l.width.toNat := by
  have h1 := l.speed.isLt
  have h2 := l.width.isLt
  have hw : (wd (l.speed.toNat + l.width.toNat * 16)).toNat = l.speed.toNat + l.width.toNat * 16 := by
    rw [wd, BitVec.toNat_ofNat]
    omega
  rw [fld_toNat, fld_toNat, hw]
  constructor <;> omega

/-- PERST_N low (R484). -/
theorem perstN_low (s : State) (l : Option LinkUp) : ∃ d',
    exec (.perstN false l) s = .next { s with dev := d' } ∧
    d' = { s.dev with regs := d'.regs, boot := { s.dev.boot with perst := false } } ∧ d'.get hif R.HIF_LINK = 0 ∧
    s.dev.regsKept d' fun a => a = radr hif R.HIF_LINK ∨ (badr hif 0x800 ≤ a ∧ a < badr hif 0xC00) := by
  obtain ⟨y, hy⟩ : ∃ y, y = (s.dev.pins fun b => { b with perst := false }).put hif R.HIF_LINK 0 := ⟨_, rfl⟩
  have hr : ∀ a, spGet (y.regs.filter fun x => ¬ (badr hif 0x800 ≤ x.1 ∧ x.1 < badr hif 0xC00)) a =
      if decide (¬ (badr hif 0x800 ≤ a ∧ a < badr hif 0xC00)) = true then spGet y.regs a else none := fun a =>
    spGet_filter y.regs (fun a => decide (¬ (badr hif 0x800 ≤ a ∧ a < badr hif 0xC00))) a
  have hk : s.dev.regsKept y fun a => a = radr hif R.HIF_LINK := by
    rw [hy]
    exact Dev.regsKept_put (s.dev.pins fun b => { b with perst := false }) _ _ _ 0 0 rfl
  have hg : y.get hif R.HIF_LINK = 0 := by
    rw [hy]
    exact Dev.get_put_same _ _ _ _ _ _
  have hf : y = { s.dev with regs := y.regs, boot := { s.dev.boot with perst := false } } := by rw [hy]; rfl
  have hx : exec (.perstN false l) s = .next { s with
      dev := { y with regs := y.regs.filter fun x => ¬ (badr hif 0x800 ≤ x.1 ∧ x.1 < badr hif 0xC00) } } := by
    rw [hy]
    rfl
  clear hy
  refine ⟨_, hx, ?_, ?_, fun a ha => ?_⟩
  · exact congrArg (fun z : Dev => { z with regs := y.regs.filter fun x => ¬ (badr hif 0x800 ≤ x.1 ∧ x.1 < badr hif 0xC00) }) hf
  · refine Eq.trans (Dev.get_of_regs _ _ 0 0 ?_) hg
    rw [hr, if_pos (by decide)]
  · have hout : ¬ (badr hif 0x800 ≤ a ∧ a < badr hif 0xC00) := fun h => ha (.inr h)
    rw [hr, if_pos (decide_eq_true hout)]
    exact hk a fun h => ha (.inl h)

/-- PERST_N high with a link that trains (R484). -/
theorem perstN_high (s : State) (l : LinkUp) (hlive : s.dev.dead = false) (hf : s.dev.boot.fuseOk = true) : ∃ d',
    exec (.perstN true (some l)) s = .next { s with dev := d' } ∧
    d' = { s.dev with regs := d'.regs, boot := { s.dev.boot with perst := true } } ∧
    d'.getF hif R.HIF_LINK 3 0 = l.speed.toNat ∧ d'.getF hif R.HIF_LINK 9 4 = l.width.toNat ∧
    s.dev.regsKept d' fun a => a = radr hif R.HIF_LINK := by
  have hx : exec (.perstN true (some l)) s = .next { s with
      dev := (s.dev.pins fun b => { b with perst := true }).put hif R.HIF_LINK (wd (l.speed.toNat + l.width.toNat * 16)) } := by
    change execPerstN true (some l) s = _
    unfold execPerstN onDev
    have hon : ¬ s.dev.dead = true ∧ s.dev.boot.fuseOk = true := ⟨by rw [hlive]; decide, hf⟩
    exact congrArg (fun e => Host.Outcome.next { s with dev := e }) (if_pos hon)
  obtain ⟨h1, h2⟩ := linkWord_fields l
  have hg : ((s.dev.pins fun b => { b with perst := true }).put hif R.HIF_LINK (wd (l.speed.toNat + l.width.toNat * 16))).get hif R.HIF_LINK =
      wd (l.speed.toNat + l.width.toNat * 16) := Dev.get_put_same _ _ _ _ _ _
  exact ⟨_, hx, rfl, (congrArg (fld · 3 0) hg).trans h1, (congrArg (fld · 9 4) hg).trans h2,
    Dev.regsKept_put (s.dev.pins fun b => { b with perst := true }) _ _ _ 0 0 rfl⟩

/-- Settles O59: the endpoint's reset by `perstN_low` and `perstN_high`, and each instruction of the test access port. -/
theorem endpointResetAndTestPort : Obligations.EndpointResetAndTestPort := by
  refine ⟨perstN_low, perstN_high, fun s v => ⟨rfl, rfl, rfl, rfl, fun h => ?_⟩⟩
  change execTapInstruction .scan s = _
  unfold execTapInstruction
  dsimp only
  rw [if_neg (by rw [h]; decide)]
  rfl

end Sys2Proof.Machine
end

section
/-! SUPPORT. Stages 1 to 3 of the start sequence (R441, R487, R489, R490). -/

namespace Sys2Proof.Machine

section
variable (d : Dev) {n next : Nat}

theorem Dev.stageEnd_stage (h : next < 16) : (d.stageEnd n next).stage = next := by
  refine (Dev.getF_putF_same (d.put bootB R.BOOT_T (wd d.bootUs) n) bootB R.BOOT_STAT 0 0 next (by decide) (by decide)).trans ?_
  exact Nat.mod_eq_of_lt h

theorem Dev.stageEnd_frame (n next : Nat) : d.stageEnd n next = { d with
    regs := (d.stageEnd n next).regs, boot := { d.boot with stageAt := d.now } } := rfl

/-- Registers of other blocks stay. -/
theorem Dev.stageEnd_page {b : Blk} (hb : b ≠ bootB) (next : Nat) (h : R.BOOT_T.ofs n 0 < 0x1000) : d.pageKept b [] (d.stageEnd n next) :=
  (((Dev.pageKept.refl d).putOther hb.symm R.BOOT_T _ n 0 h).putOther hb.symm R.BOOT_STAT _ 0 0 (by decide)).beside rfl

/-- The start halts (R489). -/
theorem Dev.halt_spec (n : Nat) : (d.halt n).stage = 8 ∧ (d.halt n).getB bootB R.BOOT_STAT 6 = true ∧
    d.halt n = { d with regs := (d.halt n).regs, boot := { d.boot with stageAt := d.now } } :=
  ⟨(Dev.getF_putB_other _ _ _ _ _ _ (by decide) (.inl (by decide))).trans (d.stageEnd_stage (by decide)),
    Dev.getB_putB_same _ _ _ _ _ _ (by decide), rfl⟩

theorem inStage_of {d : Dev} (h : d.stage = n) : d.inStage n = true := by
  unfold Dev.inStage
  rw [h]
  exact decide_eq_true rfl

/-- A row repair touches no block's own registers but those of SRAMP. -/
theorem Dev.applyRepair_page (key : Word) (ws : List Nat) {b : Blk} (hb : b ≠ sramp) :
    d.pageKept b [] (d.applyRepair key ws) ∧ (d.applyRepair key ws).boot = d.boot := by
  unfold Dev.applyRepair
  extract_lets bb memNo had new c had2 new2
  split
  · split
    · exact ⟨.refl d, rfl⟩
    · split
      · exact ⟨.refl d, rfl⟩
      · have hm : ∀ u : Pool → Pool, (d.poolMod u).regs = d.regs := fun _ => rfl
        exact ⟨(Dev.pageKept.of_regs (hm _)).putOther hb.symm R.SRAMP_REPAIRED _ 0 0 (by decide), rfl⟩
  · split
    · exact ⟨.refl d, rfl⟩
    · exact ⟨.of_regs rfl, rfl⟩

theorem Dev.applyRepairs_page (l : List (Nat × List Nat)) {b : Blk} (hb : b ≠ sramp) :
    d.pageKept b [] (l.foldl (fun (e : Dev) x => e.applyRepair (wd x.1) x.2) d) ∧
    (l.foldl (fun (e : Dev) x => e.applyRepair (wd x.1) x.2) d).boot = d.boot := by
  induction l generalizing d with
  | nil => exact ⟨.refl d, rfl⟩
  | cons x l ih =>
    obtain ⟨h1, h2⟩ := d.applyRepair_page (wd x.1) x.2 hb
    obtain ⟨h3, h4⟩ := ih (d.applyRepair (wd x.1) x.2)
    exact ⟨h1.trans h3, h4.trans h2⟩

end

/-! The trims of the fuses. -/

/-- The fuses' trim stands in a cell's registers. -/
def Dev.fused (d : Dev) (k : Fin 8) (c : Fin 5) : Prop :=
  d.get (bchB k) R.BCHG_TRIM_DAC c.val = Config.factoryTrim k.val c.val 0 ∧ d.get (bchB k) R.BCHG_TRIM_ADC c.val = Config.factoryTrim k.val c.val 1

theorem bchB_inj {k k' : Fin 8} (h : bchB k = bchB k') : k = k' := by
  revert k k'
  decide

theorem bchB_ne_boot (k : Fin 8) : bchB k ≠ bootB := by
  revert k
  decide

theorem bchB_ne_sramp (k : Fin 8) : bchB k ≠ sramp := by
  revert k
  decide

/-- The registers of a cell's trim from the fuses. -/
abbrev fuseOfs (c : Fin 5) : List Nat := [R.BCHG_TRIM_DAC.ofs c.val 0, R.BCHG_TRIM_ADC.ofs c.val 0, R.BCHG_TRIM_INFO.ofs c.val 0]

theorem fuseOfs_apart : ∀ c : Fin 5, (fuseOfs c).Nodup ∧ (∀ o ∈ fuseOfs c, o < 0x1000) ∧ ∀ c' : Fin 5, c' ≠ c →
    R.BCHG_TRIM_DAC.ofs c'.val 0 ∉ fuseOfs c ∧ R.BCHG_TRIM_ADC.ofs c'.val 0 ∉ fuseOfs c := by
  decide

section
variable (d : Dev) (k : Fin 8) (c : Fin 5)

/-- A cell's registers from the fuses. -/
def fuseRegs : Dev := ((d.put (bchB k) R.BCHG_TRIM_DAC (Config.factoryTrim k.val c.val 0) c.val).put (bchB k)
    R.BCHG_TRIM_ADC (Config.factoryTrim k.val c.val 1) c.val).put (bchB k) R.BCHG_TRIM_INFO (Config.factoryTrim k.val c.val 2) c.val

theorem Dev.fuseTrim_regs : (d.fuseTrim k c).regs = (fuseRegs d k c).regs := rfl

/-- The cell has its trim, and no other register differs. -/
theorem Dev.fuseTrim_spec : (d.fuseTrim k c).fused k c ∧ d.pageKept (bchB k) (fuseOfs c) (d.fuseTrim k c) ∧
    (∀ b, b ≠ bchB k → d.pageKept b [] (d.fuseTrim k c)) ∧ (d.fuseTrim k c).boot = d.boot := by
  obtain ⟨hnd, hlt, -⟩ := fuseOfs_apart c
  simp only [List.nodup_cons, List.mem_cons, List.not_mem_nil, or_false, not_or] at hnd
  obtain ⟨⟨hda, hdi⟩, hai, -⟩ := hnd
  have hr := d.fuseTrim_regs k c
  have hb : (d.fuseTrim k c).boot = d.boot := rfl
  generalize d.fuseTrim k c = e at hr hb
  have hg : ∀ r : Reg, e.get (bchB k) r c.val = (fuseRegs d k c).get (bchB k) r c.val := fun r => Dev.get_of_regs _ _ _ _ (by rw [hr])
  refine ⟨⟨(hg _).trans ?_, (hg _).trans ?_⟩, Dev.pageKept.trans ?_ (.of_regs hr), fun b hb => Dev.pageKept.trans ?_ (.of_regs hr), hb⟩
  · rw [fuseRegs, Dev.get_put_ne _ _ _ _ _ _ _ _ _ _ (radr_ne_of_ofs _ _ _ _ _ _ _ hdi), Dev.get_put_ne _ _ _ _ _ _ _ _ _ _ (radr_ne_of_ofs _ _ _ _ _ _ _ hda)]
    exact Dev.get_put_same _ _ _ _ _ _
  · rw [fuseRegs, Dev.get_put_ne _ _ _ _ _ _ _ _ _ _ (radr_ne_of_ofs _ _ _ _ _ _ _ hai)]
    exact Dev.get_put_same _ _ _ _ _ _
  · exact (((Dev.pageKept.refl d).put R.BCHG_TRIM_DAC _ _ _ (by simp)).put R.BCHG_TRIM_ADC _ _ _ (by simp)).put R.BCHG_TRIM_INFO _ _ _ (by simp)
  · exact (((Dev.pageKept.refl d).putOther hb.symm R.BCHG_TRIM_DAC _ _ _ (hlt _ (by simp))).putOther hb.symm R.BCHG_TRIM_ADC _ _ _
      (hlt _ (by simp))).putOther hb.symm R.BCHG_TRIM_INFO _ _ _ (hlt _ (by simp))

/-- A cell that has its trim keeps it while the others take theirs. -/
theorem Dev.fuseTrim_keeps {k' : Fin 8} {c' : Fin 5} (h : d.fused k' c') : (d.fuseTrim k c).fused k' c' := by
  obtain ⟨hs, hp, ho, -⟩ := d.fuseTrim_spec k c
  have hlt : ∀ c : Fin 5, R.BCHG_TRIM_DAC.ofs c.val 0 < 0x1000 ∧ R.BCHG_TRIM_ADC.ofs c.val 0 < 0x1000 := by decide
  obtain ⟨h1, h2⟩ := hlt c'
  by_cases hk : k' = k
  · subst hk
    by_cases hc : c' = c
    · subst hc
      exact hs
    · obtain ⟨-, -, hne⟩ := fuseOfs_apart c
      obtain ⟨n1, n2⟩ := hne c' hc
      exact ⟨(hp _ _ _ h1 n1).trans h.1, (hp _ _ _ h2 n2).trans h.2⟩
  · have hb := ho (bchB k') fun he => hk (bchB_inj he)
    exact ⟨(hb _ _ _ h1 List.not_mem_nil).trans h.1, (hb _ _ _ h2 List.not_mem_nil).trans h.2⟩

/-- Every cell of a group takes its trim. -/
theorem Dev.fuseGroup_spec (l : List (Fin 5)) : let e := l.foldl (fun (f : Dev) c => f.fuseTrim k c) d
    (∀ c ∈ l, e.fused k c) ∧ (∀ k' c', d.fused k' c' → e.fused k' c') ∧ d.pageKept bootB [] e ∧ e.boot = d.boot := by
  induction l generalizing d with
  | nil => exact ⟨fun c hc => absurd hc List.not_mem_nil, fun _ _ h => h, .refl d, rfl⟩
  | cons c l ih =>
    obtain ⟨hs, -, ho, hb⟩ := d.fuseTrim_spec k c
    obtain ⟨h1, h2, h3, h4⟩ := ih (d.fuseTrim k c)
    refine ⟨fun c' hc => ?_, fun k' c' h => h2 k' c' (d.fuseTrim_keeps k c h), (ho bootB (bchB_ne_boot k).symm).trans h3, h4.trans hb⟩
    rcases List.mem_cons.mp hc with rfl | hc
    · exact h2 k c' hs
    · exact h1 c' hc

/-- Every cell of every group does. -/
theorem Dev.fuseAll_spec (l : List (Fin 8)) : let e := l.foldl (fun (e : Dev) k => (List.finRange 5).foldl (fun (f : Dev) c => f.fuseTrim k c) e) d
    (∀ k ∈ l, ∀ c, e.fused k c) ∧ (∀ k' c', d.fused k' c' → e.fused k' c') ∧ d.pageKept bootB [] e ∧ e.boot = d.boot := by
  induction l generalizing d with
  | nil => exact ⟨fun k hk => absurd hk List.not_mem_nil, fun _ _ h => h, .refl d, rfl⟩
  | cons k l ih =>
    obtain ⟨g1, g2, g3, g4⟩ := d.fuseGroup_spec k (List.finRange 5)
    rw [List.foldl_cons]
    generalize (List.finRange 5).foldl (fun (f : Dev) c => f.fuseTrim k c) d = y at g1 g2 g3 g4
    obtain ⟨h1, h2, h3, h4⟩ := ih y
    refine ⟨fun k' hk c => ?_, fun k' c' h => h2 k' c' (g2 k' c' h), g3.trans h3, h4.trans g4⟩
    rcases List.mem_cons.mp hk with rfl | hk
    · exact h2 k' c (g1 c (List.mem_finRange c))
    · exact h1 k' hk c

end

end Sys2Proof.Machine
end

section
/-! SUPPORT. Stages 1 to 3 end (R441, R487, R489, R490). -/

namespace Sys2Proof.Machine

/-- The device after the fuses are taken, before the stage ends. -/
def fusesTaken (d : Dev) : Dev :=
  Config.factoryMaps.foldl (fun (e : Dev) x => e.applyRepair (wd x.1) x.2)
    ((List.finRange 8).foldl (fun (e : Dev) k => (List.finRange 5).foldl (fun (f : Dev) c => f.fuseTrim k c) e)
      { d with boot := { d.boot with fuseOk := true } })

theorem fusesTaken_spec (d : Dev) : (∀ k c, (fusesTaken d).fused k c) ∧ d.pageKept bootB [] (fusesTaken d) ∧ (fusesTaken d).boot.fuseOk = true := by
  unfold fusesTaken
  have hr : ({ d with boot := { d.boot with fuseOk := true } } : Dev).regs = d.regs := rfl
  have hf : ({ d with boot := { d.boot with fuseOk := true } } : Dev).boot.fuseOk = true := rfl
  generalize ({ d with boot := { d.boot with fuseOk := true } } : Dev) = y at hr hf
  obtain ⟨h1, -, h3, h4⟩ := y.fuseAll_spec (List.finRange 8)
  generalize (List.finRange 8).foldl (fun (e : Dev) k => (List.finRange 5).foldl (fun (f : Dev) c => f.fuseTrim k c) e) y = z at h1 h3 h4
  have hlt : ∀ c : Fin 5, R.BCHG_TRIM_DAC.ofs c.val 0 < 0x1000 ∧ R.BCHG_TRIM_ADC.ofs c.val 0 < 0x1000 := by decide
  refine ⟨fun k c => ?_, ?_, ?_⟩
  · obtain ⟨hd, ha⟩ := h1 k (List.mem_finRange k) c
    obtain ⟨hp, -⟩ := z.applyRepairs_page Config.factoryMaps (bchB_ne_sramp k)
    exact ⟨(hp _ _ _ (hlt c).1 List.not_mem_nil).trans hd, (hp _ _ _ (hlt c).2 List.not_mem_nil).trans ha⟩
  · exact (Dev.pageKept.of_regs hr).trans (h3.trans (z.applyRepairs_page Config.factoryMaps (by decide)).1)
  · rw [(z.applyRepairs_page (b := bootB) Config.factoryMaps (by decide)).2, h4, hf]

/-- FUSE_LOAD_DONE (R487, R489). -/
theorem fuseLoadDone_spec (s : State) (ok : Bool) (hlive : s.dev.dead = false) (hst : s.dev.stage = 1) : ∃ d',
    exec (.fuseLoadDone ok) s = .next { s with dev := d' } ∧
    if ok then
      d'.stage = (if s.dev.getB bootB R.BOOT_STAT 5 then 2 else 3) ∧ d'.boot.fuseOk = true ∧
      ∀ (k : Fin 8) (c : Fin 5), d'.get (bchB k) R.BCHG_TRIM_DAC c.val = Config.factoryTrim k.val c.val 0 ∧
        d'.get (bchB k) R.BCHG_TRIM_ADC c.val = Config.factoryTrim k.val c.val 1
    else d'.stage = 8 ∧ d'.getB bootB R.BOOT_STAT 6 = true ∧
      d' = { s.dev with regs := d'.regs, boot := { s.dev.boot with stageAt := s.dev.now } } := by
  have hx : exec (.fuseLoadDone ok) s = .next { s with
      dev := (if ¬ ok then s.dev.halt 1
        else if (fusesTaken s.dev).getB bootB R.BOOT_STAT 5 then (fusesTaken s.dev).stageEnd 1 2
        else ((fusesTaken s.dev).stageEnd 1 3).put bootB R.BOOT_T (wd (fusesTaken s.dev).bootUs) 2) } := by
    change execFuseLoadDone ok s = _
    unfold execFuseLoadDone
    rw [onLive_next _ _ hlive]
    exact congrArg (fun e => Host.Outcome.next { s with dev := e }) (Dev.when_of _ _ (inStage_of hst))
  refine ⟨_, hx, ?_⟩
  clear hx
  cases ok with
  | false =>
    rw [if_neg Bool.false_ne_true, if_pos Bool.false_ne_true]
    exact s.dev.halt_spec 1
  | true =>
    rw [if_pos rfl, if_neg (not_not.mpr rfl)]
    obtain ⟨h1, h2, h3⟩ := fusesTaken_spec s.dev
    generalize fusesTaken s.dev = y at h1 h2 h3
    have h5 : y.getB bootB R.BOOT_STAT 5 = s.dev.getB bootB R.BOOT_STAT 5 := h2.bit _ 5 (by decide)
    have hlt : ∀ c : Fin 5, R.BCHG_TRIM_DAC.ofs c.val 0 < 0x1000 ∧ R.BCHG_TRIM_ADC.ofs c.val 0 < 0x1000 := by decide
    have hkeep : ∀ {e : Dev}, (∀ k, y.pageKept (bchB k) [] e) → ∀ (k : Fin 8) (c : Fin 5),
        e.get (bchB k) R.BCHG_TRIM_DAC c.val = Config.factoryTrim k.val c.val 0 ∧
        e.get (bchB k) R.BCHG_TRIM_ADC c.val = Config.factoryTrim k.val c.val 1 := fun hp k c =>
      ⟨(hp k _ _ _ (hlt c).1 List.not_mem_nil).trans (h1 k c).1, (hp k _ _ _ (hlt c).2 List.not_mem_nil).trans (h1 k c).2⟩
    rw [h5]
    split
    · exact ⟨y.stageEnd_stage (by decide), h3, hkeep fun k => y.stageEnd_page (bchB_ne_boot k) 2 (by decide)⟩
    · refine ⟨?_, h3, hkeep fun k => (y.stageEnd_page (bchB_ne_boot k) 3 (by decide)).putOther (bchB_ne_boot k).symm R.BOOT_T _ 2 0 (by decide)⟩
      exact (congrArg (fld · 3 0) (Dev.get_put_ne _ _ _ _ _ _ _ _ _ _ (radr_ne_of_ofs _ _ _ _ _ _ _ (by decide)))).trans (y.stageEnd_stage (by decide))

/-- SECRETS_CLEAR_DONE (R441). -/
theorem secretsClearDone_spec (s : State) (hlive : s.dev.dead = false) (hst : s.dev.stage = 2) : ∃ d',
    exec .secretsClearDone s = .next { s with dev := d' } ∧
    d' = { s.dev with
      regs := d'.regs, keys := Vector.replicate 32 none, keyStage := List.replicate 8 0
      bobs := Vector.replicate 256 Bob.init, boot := { s.dev.boot with debugOn := true, stageAt := s.dev.now } } ∧
    d'.stage = 3 ∧ d'.get keyst R.KEYST_VALID = 0 := by
  obtain ⟨y, hy⟩ : ∃ y, y = { s.dev with
      keys := Vector.replicate 32 none, keyStage := List.replicate 8 0, bobs := Vector.replicate 256 Bob.init
      boot := { s.dev.boot with debugOn := true } } := ⟨_, rfl⟩
  have hx : exec .secretsClearDone s = .next { s with dev := (y.put keyst R.KEYST_VALID 0).stageEnd 2 3 } := by
    change execSecretsClearDone s = _
    unfold execSecretsClearDone
    rw [onLive_next _ _ hlive, hy]
    exact congrArg (fun e => Host.Outcome.next { s with dev := e }) (Dev.when_of _ _ (inStage_of hst))
  refine ⟨_, hx, ?_, Dev.stageEnd_stage _ (by decide), ?_⟩
  · rw [Dev.stageEnd_frame, hy]
    rfl
  · exact ((Dev.stageEnd_page (y.put keyst R.KEYST_VALID 0) (n := 2) (show keyst ≠ bootB by decide) 3 (by decide)) R.KEYST_VALID 0 0 (by decide)
      List.not_mem_nil).trans (Dev.get_put_same _ _ _ _ _ _)

/-- The device after the findings of stage 3. -/
def bisted (d : Dev) (r : BistResult) : Dev :=
  r.blocks.foldl (fun (e : Dev) b => e.blockUnusable b)
    (r.banks.foldl (fun (e : Dev) b => (e.bankRepair b.1.val (b.2.map fun x => x.val) false).1) d.poolCleared)

section
variable (s : State) (hlive : s.dev.dead = false) (hst : s.dev.stage = 3)
include hlive hst

theorem exec_marchBistDone (r : BistResult) : exec (.marchBistDone r) s = .next { s with
    dev := (if r.blocks.any vital ∨ ¬ (bisted s.dev r).queueBanks then (bisted s.dev r).halt 3 else (bisted s.dev r).stageEnd 3 4) } := by
  change execMarchBistDone r s = _
  unfold execMarchBistDone
  rw [onLive_next _ _ hlive]
  exact congrArg (fun e => Host.Outcome.next { s with dev := e }) (Dev.when_of _ _ (inStage_of hst))

/-- Stage 3 without a finding (R487, R490). -/
theorem marchBistDone_clean (hq : s.dev.queueBanks = true) : ∃ d',
    exec (.marchBistDone ⟨[], []⟩) s = .next { s with dev := d' } ∧
    d' = { s.dev with
      regs := d'.regs, pool := { s.dev.pool with words := [], zero := List.range 384 }
      boot := { s.dev.boot with stageAt := s.dev.now } } ∧ d'.stage = 4 := by
  have hx := exec_marchBistDone s hlive hst ⟨[], []⟩
  have hb : bisted s.dev ⟨[], []⟩ = s.dev.poolCleared := rfl
  rw [hb] at hx
  have hc : ¬ ((([] : List Blk).any vital) = true ∨ ¬ s.dev.poolCleared.queueBanks = true) := by
    rw [show s.dev.poolCleared.queueBanks = true from hq]
    decide
  refine ⟨_, hx.trans (congrArg (fun e => Host.Outcome.next { s with dev := e }) (if_neg hc)), ?_, Dev.stageEnd_stage _ (by decide)⟩
  rw [Dev.stageEnd_frame]
  rfl

/-- A vital block that fails halts the start (R489). -/
theorem marchBistDone_vital (r : BistResult) (hv : r.blocks.any vital = true) : ∃ d',
    exec (.marchBistDone r) s = .next { s with dev := d' } ∧ d'.stage = 8 ∧ d'.getB bootB R.BOOT_STAT 6 = true := by
  have hx := exec_marchBistDone s hlive hst r
  rw [if_pos (.inl hv)] at hx
  obtain ⟨h1, h2, -⟩ := (bisted s.dev r).halt_spec 3
  exact ⟨_, hx, h1, h2⟩

end

end Sys2Proof.Machine
end

section
/-! SUPPORT. The journal's replay, the fill and host-ready (R476, R493 to R499). -/

namespace Sys2Proof.Machine

/-! Stage 4. -/

/-- That a journal was found keeps showing. -/
theorem Dev.jShow_found (d : Dev) : d.jShow.getB jrnl R.JRNL_STAT 1 = d.getB jrnl R.JRNL_STAT 1 := by
  unfold Dev.jShow
  extract_lets a half pct q d1
  have h1 : d1.getB jrnl R.JRNL_STAT 1 = d.getB jrnl R.JRNL_STAT 1 :=
    congrArg (bit · 1) ((Dev.get_put_off _ _ _ _ (by decide)).trans ((Dev.get_put_off _ _ _ _ (by decide)).trans (Dev.get_put_off _ _ _ _ (by decide))))
  clear_value d1
  rw [Dev.getB_putF_other _ _ _ _ _ _ (by decide) (by decide), Dev.getB_putF_other _ _ _ _ _ _ (by decide) (by decide),
    Dev.getB_putB_other _ _ _ _ _ _ (by decide) (by decide), Dev.getB_putF_other _ _ _ _ _ _ (by decide) (by decide), h1]

theorem Dev.jrnlFound (d : Dev) : ((d.putB jrnl R.JRNL_STAT 1 true).jShow).getB jrnl R.JRNL_STAT 1 = true :=
  (Dev.jShow_found _).trans (Dev.getB_putB_same _ _ _ _ _ _ (by decide))

/-- The flash as it is identified. -/
def identified (d : Dev) (f : FlashId) : Dev :=
  ((d.jmod fun j => { j with found := true, esize := f.erase, size := f.size }).put jrnl R.JRNL_SIZE (wd f.size)).put jrnl R.JRNL_SFDP
    (wd (Nat.log2 f.erase + f.addr4.toNat * 256 + f.mode.toNat * 512))

/-- An empty flash is formatted (R476). -/
theorem Dev.jFormat_spec (d : Dev) : d.jFormat.jLive = 0 ∧ d.jFormat.jrn.areas[(0 : Fin 2)] = ⟨true, 1, 0, [], d.jrn.esize⟩ ∧
    d.jFormat.getB jrnl R.JRNL_EVT 4 = true := by
  unfold Dev.jFormat
  extract_lets d1
  have h0 : (d1.jmod fun j => { j with live := 0 }).jrn = { d1.jrn with live := 0 } := rfl
  have ha : d1.jrn.areas[(0 : Fin 2)] = ⟨true, 1, 0, [], d.jrn.esize⟩ := rfl
  clear_value d1
  obtain ⟨y, hy⟩ : ∃ y, y = (d1.jmod fun j => { j with live := 0 }).putB jrnl R.JRNL_STAT 5 true := ⟨_, rfl⟩
  have hyj : y.jrn = { d1.jrn with live := 0 } := by
    rw [hy]
    exact h0
  rw [← hy]
  have hj : (y.event jrnl R.JRNL_EVT R.JRNL_EVT_EN 16#32 61).jrn = y.jrn := (Dev.event_changes _ _ _ _ _ _ _).get Dev.jrn
  have he : (y.event jrnl R.JRNL_EVT R.JRNL_EVT_EN 16#32 61).get jrnl R.JRNL_EVT = y.get jrnl R.JRNL_EVT ||| 16#32 :=
    y.event_get _ _ (by decide) jrnl_ne_hif (by decide)
  refine ⟨?_, ?_, ?_⟩
  · rw [Dev.jLive, hj, hyj]
  · rw [hj, hyj]
    exact ha
  · rw [Dev.getB, he]
    exact bit_or_pow _ (k := 4) (by decide)

theorem replay_found (m : Mem) (d : Dev) (f : FlashId) : (replay m d f).2.getB jrnl R.JRNL_STAT 1 = true := by
  unfold replay
  extract_lets d1 d2
  split
  · exact Dev.jrnlFound _
  · exact Dev.jrnlFound _

theorem replay_empty (m : Mem) (d : Dev) (f : FlashId) (h : d.jrn.liveArea = none) : (replay m d f).1 = m ∧ (replay m d f).2.jLive = 0 ∧
    (replay m d f).2.jrn.areas[(0 : Fin 2)] = ⟨true, 1, 0, [], f.erase⟩ ∧ (replay m d f).2.getB jrnl R.JRNL_EVT 4 = true := by
  have hl : (identified d f).jrn.liveArea = none := h
  have hs : (identified d f).jrn.esize = f.erase := rfl
  have hr : replay m d f = (m, ((identified d f).jFormat.putB jrnl R.JRNL_STAT 1 true).jShow) := by
    unfold replay
    dsimp only
    change (match (identified d f).jrn.liveArea with | none => _ | some a => _) = _
    rw [hl] <;> rfl
  rw [hr]
  generalize identified d f = y at hs
  obtain ⟨h1, h2, h3⟩ := y.jFormat_spec
  generalize y.jFormat = z at h1 h2 h3
  have hj : ((z.putB jrnl R.JRNL_STAT 1 true).jShow).jrn = z.jrn := (Dev.jShow_jrn _).trans rfl
  have hp : z.pageKept jrnl [0x104, 0x108, 0x10C, 0x110] ((z.putB jrnl R.JRNL_STAT 1 true).jShow) :=
    ((Dev.pageKept.refl z).put R.JRNL_STAT _ 0 0 (by decide)).trans (Dev.jShow_page _).2
  dsimp only
  generalize (z.putB jrnl R.JRNL_STAT 1 true).jShow = e at hj hp
  refine ⟨rfl, ?_, ?_, (hp.bit _ 4 (by decide)).trans h3⟩
  · rw [Dev.jLive, hj]
    exact h1
  · rw [hj, h2, hs]

/-- JOURNAL_REPLAY_DONE (R475, R476, R491). -/
theorem journalReplayDone_spec (s : State) (hlive : s.dev.dead = false) (hst : s.dev.stage = 4) :
    (∃ d', exec (.journalReplayDone none) s = .next { s with dev := d' } ∧ d'.stage = 5 ∧
      d'.getB jrnl R.FLT_STAT 3 = true ∧ d'.jrn = s.dev.jrn) ∧
    ∀ f : FlashId, FlashId.usable f = true → ∃ t, exec (.journalReplayDone (some f)) s = .next t ∧ t.dev.stage = 5 ∧
      t.dev.getB jrnl R.JRNL_STAT 1 = true ∧
      (s.dev.jrn.liveArea = none → t.mem = s.mem ∧ t.dev.jLive = 0 ∧ t.dev.jrn.areas[(0 : Fin 2)] = ⟨true, 1, 0, [], f.erase⟩ ∧
        t.dev.getB jrnl R.JRNL_EVT 4 = true) := by
  have hin : ¬ ¬ s.dev.inStage 4 = true := not_not.mpr (inStage_of hst)
  have hpage : ∀ y : Dev, y.pageKept jrnl [] (y.stageEnd 4 5) := fun y => y.stageEnd_page (by decide) 5 (by decide)
  constructor
  · have hx : exec (.journalReplayDone none) s = .next { s with dev := (s.dev.raise jrnl none 3).stageEnd 4 5 } := by
      change execJournalReplayDone none s = _
      unfold execJournalReplayDone
      rw [onLiveMem_next _ _ hlive, if_neg hin]
    refine ⟨_, hx, Dev.stageEnd_stage _ (by decide), ?_, ?_⟩
    · exact ((hpage _).bit R.FLT_STAT 3 (by decide)).trans (s.dev.detect_shows jrnl_kind _ _ _ _ _ _ (by decide))
    · exact (Dev.detect_changes s.dev _ _ _ _ _ _ _).get Dev.jrn
  · intro f hf
    have hx : exec (.journalReplayDone (some f)) s = .next { s with
        mem := (replay s.mem s.dev f).1, dev := (replay s.mem s.dev f).2.stageEnd 4 5 } := by
      change execJournalReplayDone (some f) s = _
      unfold execJournalReplayDone
      rw [onLiveMem_next _ _ hlive, if_neg hin]
      dsimp only
      rw [if_pos hf]
    refine ⟨_, hx, Dev.stageEnd_stage _ (by decide), ?_, fun hl => ?_⟩
    · exact ((hpage _).bit R.JRNL_STAT 1 (by decide)).trans (replay_found _ _ _)
    · obtain ⟨h1, h2, h3, h4⟩ := replay_empty s.mem s.dev f hl
      exact ⟨h1, h2, h3, ((hpage _).bit R.JRNL_EVT 4 (by decide)).trans h4⟩

/-! Stage 6. -/

/-- LANEWAIT_EXPIRY (R495). -/
theorem exec_lanewaitExpiry (s : State) (hlive : s.dev.dead = false) (hst : s.dev.stage = 6)
    (hp : s.dev.past s.dev.boot.stageAt (1000 * s.dev.getF bootB R.BOOT_LANEWAIT 15 0) = true) :
    exec .lanewaitExpiry s = .next { s with dev := { s.dev with boot := { s.dev.boot with lanesEnd := true } } } := by
  change execLanewaitExpiry s = _
  unfold execLanewaitExpiry
  rw [onLive_next _ _ hlive]
  have hc : (s.dev.inStage 6 && s.dev.past s.dev.boot.stageAt (1000 * s.dev.getF bootB R.BOOT_LANEWAIT 15 0)) = true := by
    rw [hp, inStage_of hst]
    rfl
  exact congrArg (fun e => Host.Outcome.next { s with dev := e }) (Dev.when_of _ _ hc)

theorem Mem.byte_zeroRange (m : Mem) (a n x : Nat) : (m.zeroRange a n).byte x = if a ≤ x ∧ x < a + n then 0 else m.byte x := by
  have hg : spGet (m.zeroRange a n).cells x = if decide (¬ (a ≤ x ∧ x < a + n)) = true then spGet m.cells x else none :=
    spGet_filter m.cells (fun y => decide (¬ (a ≤ y ∧ y < a + n))) x
  unfold Mem.byte
  rw [hg]
  by_cases h : a ≤ x ∧ x < a + n
  · have hn : ¬ decide (¬ (a ≤ x ∧ x < a + n)) = true := by
      rw [decide_eq_true_iff]
      exact not_not.mpr h
    rw [if_neg hn, if_pos h]
    rfl
  · rw [if_pos (decide_eq_true h), if_neg h]

/-- The word of BOOT_FILL. -/
theorem fillWord_fields (f : Nat) (b : Bool) (h : f < 7) : fld (wd (f + 1 + b.toNat * 65536)) 2 0 = f + 1 ∧ bit (wd (f + 1 + b.toNat * 65536)) 16 = b := by
  have hd : ∀ (f : Fin 7) (b : Bool), fld (wd (f.val + 1 + b.toNat * 65536)) 2 0 = f.val + 1 ∧ bit (wd (f.val + 1 + b.toNat * 65536)) 16 = b := by
    decide
  exact hd ⟨f, h⟩ b

/-- RANK_FILL_DONE (R493, R499). -/
theorem rankFillDone_spec (s : State) (hlive : s.dev.dead = false) :
    let f := s.dev.getF bootB R.BOOT_FILL 2 0
    let n := s.dev.rankBytes
    (s.dev.stage = 6 ∧ f = 0 ∨ s.dev.ready = true ∧ 0 < f) → f < s.dev.nrRanks → ∃ m' d',
    exec .rankFillDone s = .next { s with mem := m', dev := d' } ∧
    d' = { s.dev with regs := d'.regs, boot := { s.dev.boot with fillEnd := true } } ∧
    (∀ a, f * n ≤ a → a < f * n + n → m'.byte a = 0) ∧
    (∀ a, a < f * n ∨ f * n + n ≤ a → m'.byte a = s.mem.byte a) ∧
    d'.getF bootB R.BOOT_FILL 2 0 = f + 1 ∧ d'.getB bootB R.BOOT_FILL 16 = decide (f + 1 = s.dev.nrRanks) ∧
    s.dev.regsKept d' fun a => a = radr bootB R.BOOT_FILL := by
  intro f n hc hf
  have hnr : s.dev.nrRanks < 8 := fld_lt _ 2 0
  obtain ⟨y, hy⟩ : ∃ y, y = s.dev.put bootB R.BOOT_FILL (wd (f + 1 + (decide (f + 1 = s.dev.nrRanks)).toNat * 65536)) := ⟨_, rfl⟩
  have hcond : (s.dev.inStage 6 = true ∧ f = 0 ∧ 0 < s.dev.nrRanks) ∨ (s.dev.ready = true ∧ 0 < f ∧ f < s.dev.nrRanks) := by
    rcases hc with ⟨h6, h0⟩ | ⟨hr, h0⟩
    · exact .inl ⟨inStage_of h6, h0, by omega⟩
    · exact .inr ⟨hr, h0, hf⟩
  have hx : exec .rankFillDone s = .next { s with
      mem := s.mem.zeroRange (f * n) n, dev := { y with boot := { y.boot with fillEnd := true } } } := by
    change execRankFillDone s = _
    unfold execRankFillDone
    rw [onLiveMem_next _ _ hlive, hy]
    exact congrArg (fun x : Mem × Dev => Host.Outcome.next { s with mem := x.1, dev := x.2 }) (if_pos hcond)
  have hg : y.get bootB R.BOOT_FILL = wd (f + 1 + (decide (f + 1 = s.dev.nrRanks)).toNat * 65536) := by
    rw [hy]
    exact Dev.get_put_same _ _ _ _ _ _
  have hk : s.dev.regsKept y fun a => a = radr bootB R.BOOT_FILL := by
    rw [hy]
    exact s.dev.regsKept_put _ _ _ 0 0 rfl
  have hfr : y = { s.dev with regs := y.regs } := by rw [hy]; rfl
  clear hy
  obtain ⟨h1, h2⟩ := fillWord_fields f (decide (f + 1 = s.dev.nrRanks)) (by omega)
  refine ⟨_, _, hx, congrArg (fun z : Dev => { z with boot := { z.boot with fillEnd := true } }) hfr, fun a h h' => ?_, fun a h => ?_,
    (congrArg (fld · 2 0) hg).trans h1, (congrArg (bit · 16) hg).trans h2, hk⟩
  · rw [Mem.byte_zeroRange, if_pos ⟨h, h'⟩]
  · rw [Mem.byte_zeroRange, if_neg (by omega)]

/-! Host-ready. -/

/-- A queued transaction of the journal leaves FLTC alone: no fault of JRNL is critical. -/
theorem Dev.jAppend_fltc (d : Dev) (l : List (Nat × Word × List Byte)) : d.pageKept fltc [] (d.jAppend l) := by
  have hj : fltc ≠ jrnl := by decide
  unfold Dev.jAppend Dev.jQueue
  refine .ite (.refl d) ?_
  split
  · exact .refl d
  · split
    · have h0 : d.pageKept fltc [] (d.bump jrnl R.JRNL_LOST) := (Dev.pageKept.refl d).putOther hj.symm R.JRNL_LOST _ 0 0 (by decide)
      generalize d.bump jrnl R.JRNL_LOST = y at h0
      exact h0.trans <| Dev.pageKept.trans ((Dev.pageKept.refl y).putOther hj.symm R.FLT_STAT _ 0 0 (by decide))
        (.of_regs (y.detect_calm_regs jrnl_kind (kind := 2) (by decide) (by decide) none 0 false false false))
    · have hm : ∀ u : Jrn → Jrn, (d.jmod u).regs = d.regs := fun _ => rfl
      exact (Dev.pageKept.of_regs (hm _)).trans (Dev.jShow_beside _ hj)

/-- What host-ready shows stays while the journal takes the repair maps. -/
theorem Dev.repairAppends_keeps (d : Dev) : d.pageKept fltc [] d.repairAppends ∧ d.pageKept bootB [] d.repairAppends ∧
    d.repairAppends.aliveAt = d.aliveAt := by
  unfold Dev.repairAppends
  extract_lets maps repl
  have hstep : ∀ (l : List (Nat × Word × List Byte)) (x : Dev),
      let e := l.foldl (fun (e : Dev) r => if d.repairKnown r then e else e.jAppend [r]) x
      x.pageKept fltc [] e ∧ x.pageKept bootB [] e ∧ e.aliveAt = x.aliveAt := by
    intro l
    induction l with
    | nil => exact fun x => ⟨.refl x, .refl x, rfl⟩
    | cons r l ih =>
      intro x
      rw [List.foldl_cons]
      have h1 : x.pageKept fltc [] (if d.repairKnown r then x else x.jAppend [r]) := .ite (.refl x) (x.jAppend_fltc _)
      have h2 : x.pageKept bootB [] (if d.repairKnown r then x else x.jAppend [r]) :=
        .ite (.refl x) (x.jAppend_page (by decide) (by decide) (by decide) _)
      have h3 : x.changes [.regs, .vecs, .fabric, .jrn] (if d.repairKnown r then x else x.jAppend [r]) := .ite (.refl _ _) (x.jAppend_changes _)
      generalize (if d.repairKnown r then x else x.jAppend [r]) = y at h1 h2 h3
      obtain ⟨g1, g2, g3⟩ := ih y
      exact ⟨h1.trans g1, h2.trans g2, g3.trans (h3.get Dev.aliveAt)⟩
  exact hstep _ _

theorem Dev.wakeAsk_changes (d : Dev) (b : Blk) : d.changes [.wakeReq] (d.wakeAsk b) := by
  unfold Dev.wakeAsk
  exact .ite (.refl _ _) rfl

/-- HOST_READY (R430, R496, R499). -/
theorem hostReady_spec (s : State) (hlive : s.dev.dead = false) (hst : s.dev.stage = 6) (hf : s.dev.boot.fillEnd = true)
    (hl : s.dev.boot.lanesEnd = true ∨ ∀ n : Fin 40, s.dev.laneSettled n = true) : ∃ d',
    exec .hostReady s = .next { s with dev := d' } ∧ d'.stage = 7 ∧ d'.ready = true ∧
    d'.getB fltc R.FLTC_STAT 16 = true ∧ d'.aliveAt = s.dev.now := by
  obtain ⟨y, hy⟩ : ∃ y, y = ((s.dev.stageEnd 6 7).putB bootB R.BOOT_STAT 4 true).put bootB R.BOOT_T (wd s.dev.bootUs) 7 := ⟨_, rfl⟩
  obtain ⟨z, hz⟩ : ∃ z, z = regions.foldl (fun (e : Dev) r => (blksOf r).foldl (fun (f : Dev) b => if f.fence b = 3 then f else f.wakeAsk b) e)
    y.aliveStart := ⟨_, rfl⟩
  have hcond : (s.dev.inStage 6 && s.dev.boot.fillEnd && (s.dev.boot.lanesEnd || (List.finRange 40).all fun n => s.dev.laneSettled n)) = true := by
    rw [inStage_of hst, hf, Bool.true_and, Bool.true_and, Bool.or_eq_true, List.all_eq_true]
    exact hl.imp id fun h n _ => h n
  have hx : exec .hostReady s = .next { s with dev := z.repairAppends } := by
    change execHostReady s = _
    unfold execHostReady Dev.hostReady
    rw [onLive_next _ _ hlive, hz, hy]
    exact congrArg (fun e => Host.Outcome.next { s with dev := e }) (Dev.when_of _ _ hcond)
  refine ⟨_, hx, ?_⟩
  clear hx
  have hst7 : (s.dev.stageEnd 6 7).stage = 7 := s.dev.stageEnd_stage (by decide)
  have hys : y.stage = 7 ∧ y.ready = true ∧ y.now = s.dev.now := by
    have hoff : ∀ (x : Dev) (w : Word), (x.put bootB R.BOOT_T w 7).get bootB R.BOOT_STAT = x.get bootB R.BOOT_STAT := fun x w =>
      Dev.get_put_ne _ _ _ _ _ _ _ _ _ _ (radr_ne_of_ofs _ _ _ _ _ _ _ (by decide))
    rw [hy]
    refine ⟨?_, ?_, rfl⟩
    · exact (congrArg (fld · 3 0) (hoff _ _)).trans ((Dev.getF_putB_other _ _ _ _ _ _ (by decide) (.inl (by decide))).trans hst7)
    · exact (congrArg (bit · 4) (hoff _ _)).trans (Dev.getB_putB_same _ _ _ _ _ _ (by decide))
  clear hy
  have ha1 : y.aliveStart.getB fltc R.FLTC_STAT 16 = true := Dev.getB_putB_same y _ _ _ _ _ (by decide)
  have ha2 : y.aliveStart.aliveAt = y.now := rfl
  have ha3 : y.pageKept bootB [] y.aliveStart :=
    ((Dev.pageKept.refl y).putOther (show fltc ≠ bootB by decide) R.FLTC_STAT _ 0 0 (by decide)).beside rfl
  have hc : y.aliveStart.changes [.wakeReq] z := by
    rw [hz]
    exact .foldl _ (.refl _ _) fun x r hx => .foldl _ hx fun x' b hx' => .ite hx' (hx'.trans (x'.wakeAsk_changes b))
  clear hz
  generalize y.aliveStart = w at ha1 ha2 ha3 hc
  have hzr : z.regs = w.regs := hc.get Dev.regs
  have hza : z.aliveAt = w.aliveAt := hc.get Dev.aliveAt
  obtain ⟨g1, g2, g3⟩ := z.repairAppends_keeps
  generalize z.repairAppends = e at g1 g2 g3
  have hb : y.pageKept bootB [] e := ha3.trans ((Dev.pageKept.of_regs hzr).trans g2)
  have hfl : w.pageKept fltc [] e := (Dev.pageKept.of_regs hzr).trans g1
  obtain ⟨h7, hr, hn⟩ := hys
  refine ⟨(hb.fld R.BOOT_STAT 3 0 (by decide)).trans h7, (hb.bit R.BOOT_STAT 4 (by decide)).trans hr, (hfl.bit R.FLTC_STAT 16 (by decide)).trans ha1, ?_⟩
  rw [g3, hza, ha2, hn]

end Sys2Proof.Machine
end

section
/-! The start sequence (R441, R487 to R499). -/

namespace Sys2Proof.Machine

/-! Training: the ranks in service and SDC_STAT (R364). -/

/-- Ranks in service, by a word of SDC_STAT. -/
def rankCount (w : Word) : Nat := ((List.range 4).filter fun j => bit w (4 + j)).length

/-- DIS shows exactly where no rank serves. -/
def disShown (w : Word) : Prop := bit w 18 = true ↔ rankCount w = 0

/-- The ranks that four flags name. -/
def ranksOf (f : Fin 4 → Bool) : List Nat := ranksWith fun r => f (Fin.ofNat 4 r)

theorem ranksWith_eq (p : Nat → Bool) : ranksWith p = ranksOf fun r => p r.val :=
  List.filter_congr (q := fun r => p (Fin.ofNat 4 r).val) fun r hr => by
    have hlt := List.mem_range.mp hr
    change p r = p (Fin.ofNat 4 r).val
    rw [Fin.val_ofNat, Nat.mod_eq_of_lt hlt]

/-- The word of SDC_STAT after training. -/
def trainWord (insvc failed : List Nat) (spare ref : Bool) : Word :=
  wd ((insvc.map fun r => 2 ^ (4 + r)).sum + (failed.map fun r => 2 ^ (8 + r)).sum + spare.toNat * 2 ^ 16 + insvc.isEmpty.toNat * 2 ^ 18 + 2 ^ 20 +
    ref.toNat * 2 ^ 19)

theorem trainWord_flags : ∀ a b c e a' b' c' e' spare ref : Bool,
    (bit (trainWord (ranksOf ![a, b, c, e]) (ranksOf ![a', b', c', e']) spare ref) 18 =
      decide (rankCount (trainWord (ranksOf ![a, b, c, e]) (ranksOf ![a', b', c', e']) spare ref) = 0)) := by
  decide +kernel

theorem disShown_trainWord (p q : Nat → Bool) (spare ref : Bool) : disShown (trainWord (ranksWith p) (ranksWith q) spare ref) := by
  have hv : ∀ f : Nat → Bool, (fun r : Fin 4 => f r.val) = ![f 0, f 1, f 2, f 3] := fun f => by
    funext r
    fin_cases r <;> rfl
  rw [disShown, ranksWith_eq, ranksWith_eq, hv, hv, trainWord_flags, decide_eq_true_iff]

theorem disShown_congr {w w' : Word} (h : ∀ j, 3 ≤ j → bit w' j = bit w j) : rankCount w' = rankCount w ∧ (disShown w → disShown w') := by
  have hc : rankCount w' = rankCount w := congrArg List.length (List.filter_congr fun j _ => h (4 + j) (by omega))
  refine ⟨hc, fun hd => ?_⟩
  rw [disShown, hc, h 18 (by decide)]
  exact hd

theorem apart_sdc (ch : Fin 2) : Apart (pageOf (sdcB ch)) := apart_page (sdcB_kind ch) (by decide)

section
variable (d : Dev) (ch : Fin 2) (res : Vector (Option Bool) 4)

/-- The events and faults of the ranks that failed. -/
def trainFaults (l : List Nat) (none_ : Bool) : Dev :=
  let e := l.foldl (fun (e : Dev) r => (e.event (sdcB ch) R.SDC_EVT R.SDC_EVT_EN 16#32 60).raise (sdcB ch) (some r) 5) d
  if none_ then e.raiseRank ch 6 else e

theorem trainFaults_page (l : List Nat) (none_ : Bool) : d.pageKept (sdcB ch) [R.SDC_EVT.ofs 0 0, R.FLT_STAT.off] (trainFaults d ch l none_) := by
  have hf : ∀ (l : List Nat) (x : Dev), x.pageKept (sdcB ch) [R.SDC_EVT.ofs 0 0, R.FLT_STAT.off]
      (l.foldl (fun (e : Dev) r => (e.event (sdcB ch) R.SDC_EVT R.SDC_EVT_EN 16#32 60).raise (sdcB ch) (some r) 5) x) := by
    intro l
    induction l with
    | nil => exact fun x => .refl x
    | cons r l ih =>
      exact fun x => Dev.pageKept.trans (((Dev.pageKept.refl x).event (sdcB_ne_hif ch) _ _ _ (by decide) 0 List.mem_cons_self).detect (sdcB_ne_hif ch)
        (sdcB_ne_fltc ch) _ _ _ _ _ _ (List.mem_cons_of_mem _ List.mem_cons_self)) (ih _)
  unfold trainFaults Dev.raiseRank
  refine .ite ((hf l d).trans ?_) (hf l d)
  generalize List.foldl _ d l = y
  exact ((Dev.pageKept.refl y).beside (f := y.free.2) rfl).detect (sdcB_ne_hif ch) (sdcB_ne_fltc ch) _ _ _ _ _ _ (List.mem_cons_of_mem _ List.mem_cons_self)

/-- The parts that training changes. -/
def trainParts : List Part := [.regs, .vecs, .fabric, .live, .sdc, .fresh]

theorem trainFaults_aside {w : Watch} (hp : Apart w) (hb : Clear w (sdcB ch)) (l : List Nat) (none_ : Bool) :
    d.aside w trainParts (trainFaults d ch l none_) := by
  unfold trainFaults Dev.raiseRank
  have hf : d.aside w trainParts
      (l.foldl (fun (e : Dev) r => (e.event (sdcB ch) R.SDC_EVT R.SDC_EVT_EN 16#32 60).raise (sdcB ch) (some r) 5) d) :=
    .foldl l (.refl d) fun x r hx => (hx.event hb hp (by decide) (by decide) (by decide)).raise hb hp (by decide)
  generalize l.foldl (fun (e : Dev) r => (e.event (sdcB ch) R.SDC_EVT R.SDC_EVT_EN 16#32 60).raise (sdcB ch) (some r) 5) d = y at hf
  exact .ite ((hf.beside (f := y.free.2) (G := [.fresh]) rfl (by decide) rfl).raise hb hp (by decide)) hf

/-- The registers of a trained channel. -/
def trainRegs (stat train map_ : Nat) : Dev :=
  ((((d.setLiv (sdcB ch) R.SDC_CFG (d.get (sdcB ch) R.SDC_CFG)).put (sdcB ch) R.SDC_STAT (wd stat)).put (sdcB ch) R.SDC_TRAIN (wd train)).put (sdcB ch)
    R.SDC_RANKMAP (wd map_)).sdcMod ch fun x => { x with train := train, units := x.units.map fun u => { u with accr := d.now } }

theorem Dev.trainCh_eq : ∃ (p q : Nat → Bool) (spare ref : Bool) (train map_ stat : Nat), wd stat = trainWord (ranksWith p) (ranksWith q) spare ref ∧
    d.trainCh ch res = trainFaults (trainRegs d ch stat train map_) ch (ranksWith q) (ranksWith p).isEmpty :=
  ⟨_, _, _, _, _, _, _, rfl, rfl⟩

/-- A trained channel shows the ranks in service, and DIS where there are none. -/
theorem Dev.trainCh_spec : disShown ((d.trainCh ch res).get (sdcB ch) R.SDC_STAT) ∧
    ∀ w, Apart w → Clear w (sdcB ch) → d.aside w trainParts (d.trainCh ch res) := by
  obtain ⟨p, q, spare, ref, train, map_, stat, hs, he⟩ := d.trainCh_eq ch res
  have hr : (trainRegs d ch stat train map_).get (sdcB ch) R.SDC_STAT = wd stat :=
    (Dev.get_put_off _ _ _ _ (by decide)).trans ((Dev.get_put_off _ _ _ _ (by decide)).trans (Dev.get_put_same _ _ _ _ _ _))
  have hk : ∀ w, Clear w (sdcB ch) → d.aside w trainParts (trainRegs d ch stat train map_) := fun w hb => by
    have h0 : d.aside w trainParts (d.setLiv (sdcB ch) R.SDC_CFG (d.get (sdcB ch) R.SDC_CFG)) :=
      (Dev.aside.refl d).beside (G := [.live]) rfl (by decide) rfl
    exact (((h0.put (r := R.SDC_STAT) (i := 0) (j := 0) hb (wd stat) (by decide) (by decide)).put (r := R.SDC_TRAIN) (i := 0) (j := 0) hb (wd train) (by decide)
      (by decide)).put (r := R.SDC_RANKMAP) (i := 0) (j := 0) hb (wd map_) (by decide) (by decide)).beside (G := [.sdc]) rfl (by decide) rfl
  rw [he]
  generalize trainRegs d ch stat train map_ = y at hr hk
  refine ⟨?_, fun w hp hb => (hk w hb).trans (trainFaults_aside y ch hp hb _ _)⟩
  rw [trainFaults_page y ch (ranksWith q) (ranksWith p).isEmpty R.SDC_STAT 0 0 (by decide) (by decide), hr, hs]
  exact disShown_trainWord p q spare ref

end

/-! NR, and stage 6. -/

section
variable (d : Dev)

/-- The ranks in service of a channel. -/
def Dev.ranksUp (ch : Fin 2) : Nat := rankCount (d.get (sdcB ch) R.SDC_STAT)

/-- NR is the smaller count (R364 step 5). -/
theorem Dev.setNr_spec (h : ∀ ch, disShown (d.get (sdcB ch) R.SDC_STAT)) : (∀ ch, disShown (d.setNr.get (sdcB ch) R.SDC_STAT)) ∧
    d.setNr.nrRanks = min (d.setNr.ranksUp 0) (d.setNr.ranksUp 1) := by
  obtain ⟨y, hy⟩ : ∃ y, y = d.putF (sdcB 0) R.SDC_STAT 2 0 (min (d.ranksUp 0) (d.ranksUp 1)) := ⟨_, rfl⟩
  have he : d.setNr = y.putF (sdcB 1) R.SDC_STAT 2 0 (min (d.ranksUp 0) (d.ranksUp 1)) := by
    rw [hy]
    rfl
  have hne : ∀ (x : Dev) (b c : Fin 2) (n : Nat), b ≠ c → (x.putF (sdcB b) R.SDC_STAT 2 0 n).get (sdcB c) R.SDC_STAT = x.get (sdcB c) R.SDC_STAT :=
    fun x b c n hbc => Dev.get_put_ne _ _ _ _ _ _ _ _ _ _ (radr_ne_of_blk _ _ _ _ _ _ _ _ ((by decide : ∀ b c : Fin 2, b ≠ c → sdcB c ≠ sdcB b) b c hbc)
      (by decide) (by decide))
  have hbits : ∀ (x : Dev) (c : Fin 2) (n j : Nat), 3 ≤ j → bit ((x.putF (sdcB c) R.SDC_STAT 2 0 n).get (sdcB c) R.SDC_STAT) j =
      bit (x.get (sdcB c) R.SDC_STAT) j := fun x c n j hj => Dev.getB_putF_other _ _ _ _ _ _ (by decide) (.inr hj)
  have h0 : ∀ j, 3 ≤ j → bit (d.setNr.get (sdcB 0) R.SDC_STAT) j = bit (d.get (sdcB 0) R.SDC_STAT) j := fun j hj => by
    rw [he, hne _ _ _ _ (by decide), hy]
    exact hbits _ _ _ _ hj
  have h1 : ∀ j, 3 ≤ j → bit (d.setNr.get (sdcB 1) R.SDC_STAT) j = bit (d.get (sdcB 1) R.SDC_STAT) j := fun j hj => by
    rw [he, hbits _ _ _ _ hj, hy, hne _ _ _ _ (by decide)]
  have hnr : d.setNr.nrRanks = min (d.ranksUp 0) (d.ranksUp 1) := by
    have hle : d.ranksUp 0 ≤ 4 := List.length_filter_le _ _
    rw [Dev.nrRanks, Dev.getF, he, hne _ _ _ _ (by decide), hy]
    refine (Dev.getF_putF_same d (sdcB 0) R.SDC_STAT 0 0 _ (by decide) (by decide)).trans (Nat.mod_eq_of_lt ?_)
    exact Nat.lt_of_le_of_lt (Nat.min_le_left _ _) (Nat.lt_of_le_of_lt hle (by decide))
  obtain ⟨c0, e0⟩ := disShown_congr h0
  obtain ⟨c1, e1⟩ := disShown_congr h1
  refine ⟨fun ch => ?_, ?_⟩
  · have hch : ch = 0 ∨ ch = 1 := (by decide : ∀ ch : Fin 2, ch = 0 ∨ ch = 1) ch
    rcases hch with rfl | rfl
    · exact e0 (h 0)
    · exact e1 (h 1)
  · rw [hnr, Dev.ranksUp, Dev.ranksUp, Dev.ranksUp, Dev.ranksUp, c0, c1]

theorem laneB_ne_sdcB (n : Fin 40) (ch : Fin 2) : laneB n ≠ sdcB ch := by
  revert n ch
  decide +kernel

theorem Dev.laneBack_aside {w : Watch} (hl : ∀ n : Fin 40, Clear w (laneB n)) (n : Fin 40) : d.aside w [.regs, .lanes] (d.laneBack n) := by
  unfold Dev.laneBack
  exact .ite (d.laneTo_aside hl n 1) (.refl d)

theorem Dev.lanesStart_aside {w : Watch} (hl : ∀ n : Fin 40, Clear w (laneB n)) : d.aside w [.regs, .lanes] d.lanesStart := by
  unfold Dev.lanesStart
  exact .foldl _ (.refl d) fun x n hx => hx.trans (x.laneBack_aside hl n)

end

/-- The device with its channels trained and its lanes started. -/
def lanesUp (d : Dev) (r : TrainResult) : Dev := (((d.trainCh 0 r.ch0).trainCh 1 r.ch1).setNr.stageEnd 5 6).lanesStart

/-- With no rank in service there is nothing to fill (R494). -/
def fillShown (d : Dev) : Dev := if d.nrRanks = 0 then d.putB bootB R.BOOT_FILL 16 true else d

/-- Stage 6 begins. -/
def fillBegun (d : Dev) : Dev := { d with boot := { d.boot with lanesEnd := false, fillEnd := decide (d.nrRanks = 0) } }

theorem exec_sdramTrainingDone (s : State) (r : TrainResult) (hlive : s.dev.dead = false) (hst : s.dev.stage = 5) :
    exec (.sdramTrainingDone r) s = .next { s with dev := fillBegun (fillShown (lanesUp s.dev r)) } := by
  change execSdramTrainingDone r s = _
  unfold execSdramTrainingDone
  refine (onLive_next _ _ hlive).trans (congrArg (fun e => Host.Outcome.next { s with dev := e }) ((Dev.when_of _ _ (inStage_of hst)).trans ?_))
  extract_lets d0 d1
  have h0 : lanesUp s.dev r = d0 := rfl
  rw [h0]
  clear_value d0
  have h1 : fillShown d0 = d1 := rfl
  rw [h1]
  clear_value d1
  rfl

/-- SDRAM_TRAINING_DONE (R364, R495). -/
theorem sdramTrainingDone_spec (s : State) (r : TrainResult) (hlive : s.dev.dead = false) (hst : s.dev.stage = 5) :
    let count (d : Dev) (ch : Fin 2) : Nat := ((List.range 4).filter fun j => d.getB (sdcB ch) R.SDC_STAT (4 + j)).length
    ∃ d', exec (.sdramTrainingDone r) s = .next { s with dev := d' } ∧ d'.stage = 6 ∧
      d'.nrRanks = min (count d' 0) (count d' 1) ∧
      (∀ ch : Fin 2, d'.getB (sdcB ch) R.SDC_STAT 18 = true ↔ count d' ch = 0) := by
  intro count
  have hx := exec_sdramTrainingDone s r hlive hst
  obtain ⟨z, hz⟩ : ∃ z, z = lanesUp s.dev r := ⟨_, rfl⟩
  obtain ⟨e, he⟩ : ∃ e, e = fillShown z := ⟨_, rfl⟩
  rw [← hz, ← he] at hx
  unfold lanesUp at hz
  unfold fillShown at he
  obtain ⟨h0, -⟩ := s.dev.trainCh_spec 0 r.ch0
  generalize s.dev.trainCh 0 r.ch0 = y0 at h0 hz
  obtain ⟨h1, ha⟩ := y0.trainCh_spec 1 r.ch1
  have h01 : (y0.trainCh 1 r.ch1).get (sdcB 0) R.SDC_STAT = y0.get (sdcB 0) R.SDC_STAT :=
    (ha _ (apart_sdc 0) fun _ => by decide).page R.SDC_STAT 0 0 (by decide)
  rw [← h01] at h0
  generalize y0.trainCh 1 r.ch1 = y1 at h0 h1 hz
  have hd1 : ∀ ch, disShown (y1.get (sdcB ch) R.SDC_STAT) := fun ch => by
    have hch : ch = 0 ∨ ch = 1 := (by decide : ∀ ch : Fin 2, ch = 0 ∨ ch = 1) ch
    rcases hch with rfl | rfl
    · exact h0
    · exact h1
  obtain ⟨hd2, hn2⟩ := y1.setNr_spec hd1
  generalize y1.setNr = y2 at hd2 hn2 hz
  have hst6 : (y2.stageEnd 5 6).stage = 6 := y2.stageEnd_stage (by decide)
  have hp : ∀ ch, y2.pageKept (sdcB ch) [] (y2.stageEnd 5 6) := fun ch =>
    y2.stageEnd_page ((by decide : ∀ ch : Fin 2, sdcB ch ≠ bootB) ch) 6 (by decide)
  generalize y2.stageEnd 5 6 = y3 at hst6 hp hz
  have hz6 : z.stage = 6 := by
    have hb : z.get bootB R.BOOT_STAT = y3.get bootB R.BOOT_STAT := by
      rw [hz]
      exact (y3.lanesStart_aside (w := pageOf bootB) (clear_lane (by decide))).page R.BOOT_STAT 0 0 (by decide)
    exact (congrArg (fld · 3 0) hb).trans hst6
  have hzp : ∀ ch, z.get (sdcB ch) R.SDC_STAT = y2.get (sdcB ch) R.SDC_STAT := fun ch => by
    have hl : z.get (sdcB ch) R.SDC_STAT = y3.get (sdcB ch) R.SDC_STAT := by
      rw [hz]
      exact (y3.lanesStart_aside (w := pageOf (sdcB ch)) (clear_lane (laneB_ne_sdcB · ch))).page R.SDC_STAT 0 0 (by decide)
    exact hl.trans (hp ch R.SDC_STAT 0 0 (by decide) List.not_mem_nil)
  clear hz
  have hes : e.stage = 6 ∧ ∀ ch, e.get (sdcB ch) R.SDC_STAT = z.get (sdcB ch) R.SDC_STAT := by
    rw [he]
    split
    · refine ⟨(congrArg (fld · 3 0) (Dev.get_put_off _ _ _ _ (by decide))).trans hz6, fun ch => ?_⟩
      exact Dev.get_put_ne _ _ _ _ _ _ _ _ _ _ (radr_ne_of_blk _ _ _ _ _ _ _ _ ((by decide : ∀ ch : Fin 2, sdcB ch ≠ bootB) ch) (by decide) (by decide))
    · exact ⟨hz6, fun _ => rfl⟩
  clear he
  obtain ⟨he6, hep⟩ := hes
  have hall : ∀ ch, e.get (sdcB ch) R.SDC_STAT = y2.get (sdcB ch) R.SDC_STAT := fun ch => (hep ch).trans (hzp ch)
  have hcount : ∀ ch, count e ch = y2.ranksUp ch := fun ch => congrArg rankCount (hall ch)
  refine ⟨_, hx, he6, ?_, fun ch => ?_⟩
  · change e.nrRanks = min (count e 0) (count e 1)
    rw [hcount, hcount, ← hn2]
    exact congrArg (fld · 2 0) (hall 0)
  · change bit (e.get (sdcB ch) R.SDC_STAT) 18 = true ↔ count e ch = 0
    rw [hcount, hall]
    exact hd2 ch

/-- Settles O60: each stage by the lemma of its end. -/
theorem stagesLeadToHostReady : Obligations.StagesLeadToHostReady :=
  ⟨⟨fuseLoadDone_spec, secretsClearDone_spec, marchBistDone_clean, fun s r hlive hst hv => marchBistDone_vital s hlive hst r hv⟩,
    journalReplayDone_spec, sdramTrainingDone_spec, exec_lanewaitExpiry, rankFillDone_spec, hostReady_spec⟩

end Sys2Proof.Machine
end
